-- ==== Sys2Proof/Word.lean ====
section
/-!
DEFINITION. The word types of the Coneda (R14: registers are 32 bits wide) and the sparse table in which the
model holds everything that is addressed by a number.
-/

namespace Sys2Proof

/-- A register word. -/
abbrev Word := BitVec 32

/-- A byte of memory. -/
abbrev Byte := BitVec 8

/-- A sparse table: key and value pairs with strictly rising keys and no entry equal to the table's default. -/
abbrev Map (α : Type) := List (Nat × α)

/-- A queue descriptor, a Silk record body or any other block of bytes held as little-endian 32-bit words. -/
abbrev Words := List Word

end Sys2Proof
end

