-- ==== Sys2Proof/Syntax.lean ====
section
/-!
DEFINITION. The commands of the Coneda: one constructor of `Instr` for each row of spec/opcode_table.json, with its
operands. The table gives no operand fields; each constructor's operands are what the row's rule takes from outside
the block: the master and value of a register access, the object an event happens to, and data that arrives from a
link, a pin or a media decoder.
-/

namespace Sys2Proof

/-- A master of a register access (R601, R610): logical service core `h`, the host through BAR0, or the maintenance
port. -/
inductive Master where
  | core (h : Nat)
  | host
  | maint
deriving DecidableEq, Repr

/-- A 66-bit Dralek block as a lane carries it (R100): its sync header, the 58 payload bits that the lane carried before it, the
earliest lowest, and its 64 scrambled payload bits, the first sent lowest. -/
structure DlkBlock where
  sync : Nat
  prev : Nat
  bits : Nat
deriving DecidableEq, Repr

/-- An error that a raw pipe's own memory shows while a line passes (R176, R190, R212, R497): the page +0 to +14 of its stage or
branch, the column of the sample, and whether it is uncorrectable. -/
structure SramErr where
  page : Nat
  col : Nat
  hard : Bool
deriving DecidableEq, Repr

/-- What ECC finds on a functional or scrubber read (R497, R462). -/
inductive ReadErr where
  | clean
  | corrected
  | uncorrectable
deriving DecidableEq, Repr


/-- What a service core's memory access is for (R499). -/
inductive CoreKind where
  | load
  | fetch
  | store
  | amo
deriving DecidableEq, Repr

/-- A service core's memory access (R34, R499): what it is for, whether it is a page-table walk of that access, and the
virtual address that mtval would hold. -/
structure CoreAccess where
  kind : CoreKind
  walk : Bool
  va : Nat
deriving DecidableEq, Repr

/-- An instruction fetch itself. -/
def CoreAccess.isFetch (c : CoreAccess) : Bool := decide (c.kind = .fetch) && !c.walk

/-- The read of an atomic operation itself. -/
def CoreAccess.isAmo (c : CoreAccess) : Bool := decide (c.kind = .amo) && !c.walk

/-- mcause and mtval of the access fault of poison (R499): 5 for a load or LR, 7 for an AMO, 1 for a fetch; a walk's is that of the
original access. -/
def CoreAccess.fault (c : CoreAccess) : Nat × Nat :=
  match c.kind with
  | .load => (5, c.va)
  | .fetch => (1, c.va)
  | .store => (7, c.va)
  | .amo => (7, c.va)

/-- What a decoder finds in an access unit's bits (R313, R316 to R323): codec features within R313 and the profile; the
picture's size, chroma format (0 for 4:0:0, then 4:2:0, 4:2:2, 4:4:4) and bit depths; whether it is an IRAP or IDR picture,
and whether it then discards the pictures that wait; the DPB slots it needs; its POC; the POCs that its reference picture
set or reference list names; whether a syntax error or a missing last slice lost CTBs; and whether a reference sample was
read with a poison mark. -/
structure AccessUnit where
  supported : Bool
  w : Nat
  h : Nat
  chroma : Nat
  luma : Nat
  chromaBits : Nat
  irap : Bool
  noOutputPrior : Bool
  slots : Nat
  poc : Int
  refs : List Int
  lost : Bool
  refPoison : Bool
deriving DecidableEq, Repr

/-- An Announce message (R404, R405): the dataset that the comparison of IEEE 802.1AS-2020 looks at, in its order, and the UTC
offset with its valid flag. -/
structure PtpAnnounce where
  priority1 : Nat
  clockClass : Nat
  accuracy : Nat
  variance : Nat
  priority2 : Nat
  identity : Nat
  steps : Nat
  source : Nat
  utc : Nat
  utcValid : Bool
deriving DecidableEq, Repr


/-- What the parts outside find while one memory controller trains (R465): whether the devices are those of the stored delays, whether
their pattern check passes, how many of up to two blocking sweeps found a lane without an eye before the last one (R592), and for each
lane, in the last sweep, the centres of its read and write eyes, its VREF code and its eye's width in taps (0: no eye). -/
structure Train where
  ident : Bool := true
  ok : Bool := true
  fails : Nat := 0
  lanes : List (Nat × Nat × Nat × Nat) := []
deriving DecidableEq, Repr

/-- What start-up meets outside the registers (R465, R505, R591): a fuse parity error, whether the flash offers 8D-8D-8D, the slots
that fail to read (bit 0 A, bit 1 B), each controller's training, the words that fail March C− as (page, SRAM, word, remap words of
the SRAM), and the pages whose checker does not flag its pattern. -/
structure StartEnv where
  fuseErr : Bool := false
  flash8d : Bool := false
  badSlots : Nat := 0
  train : List Train := []
  memBad : List (Nat × Nat × Nat × Nat) := []
  checkers : List Nat := []
deriving DecidableEq, Repr
/-- A main-fabric transaction by its issuer (*QoS classes*): of a block that issues one class only, a branch of context `c` of raw
pipe `n`, a read of layer `l` of head `h`, a data access or a DMA piece of thread `t` of engine `p`, an instruction load of
engine `p`, and a scrubber read or write-back of controller `n` outside its idle cycles. -/
inductive Traffic where
  | block (p : Nat)
  | branch (n c : Nat)
  | layer (h l : Nat)
  | engine (p t : Nat)
  | dma (p t : Nat)
  | engineLoad (p : Nat)
  | scrub (n : Nat)
deriving DecidableEq, Repr

/-- The commands. -/
inductive Instr where
  /-- REGISTER_WRITE (R612): A write to a register field that has no row of its own; RW, RWS and RWI fields are handled under the access codes, including the idle-only check. -/
  | registerWrite (m : Master) (a len v : Nat)
  /-- RC_READ (R614): A read of an RC register returns the count and clears it; a count landing in the same tick is kept. -/
  | rcRead (m : Master) (a len : Nat)
  /-- RULER_LOW_READ (R52): A read of the low word of a 64-bit ruler latches the ruler's other words. -/
  | rulerLowRead (m : Master) (a len : Nat)
  /-- PG_FENCE_WRITE (R490): Writing 1 to PG_CTRL.FENCE fences the block. -/
  | pgFenceWrite (m : Master) (p : Nat) (v : Word)
  /-- SOFT_RST (R602): Writing 1 to PG_CTRL.SOFT_RST starts a reset of every page of the block and lifts any fence. -/
  | softRst (m : Master) (p : Nat) (v : Word)
  /-- SOFT_RESET_DONE (R602): The block reset completes within 2 µs and PG_STAT.BUSY clears. -/
  | softResetDone (p : Nat)
  /-- PG_FREEZE_WRITE (R603): Setting or clearing PG_CTRL.FREEZE latches or releases the page's status and counters. -/
  | pgFreezeWrite (m : Master) (p : Nat) (v : Word)
  /-- PG_EN_WRITE (R597): A write of PG_CTRL.EN enables or disables the block, as its chapter defines. -/
  | pgEnWrite (m : Master) (p : Nat) (v : Word)
  /-- EVENT_PORT_WRITE (R476): A write to PG_EVT_OUT or PG_EVT_IN sets the channel and binds or releases an input. -/
  | eventPortWrite (m : Master) (p k : Nat) (v : Word)
  /-- COMMIT (R608): Writing PG_SHADOW.COMMIT arms a commit of the shadowed fields. -/
  | commit (m : Master) (p : Nat) (v : Word)
  /-- CANCEL (R608): Writing PG_SHADOW.CANCEL disarms the pending commit and keeps the shadow values. -/
  | cancel (m : Master) (p : Nat) (v : Word)
  /-- SHADOW_COMMIT (R608): At its trigger, every shadow copy of the page takes effect in one tick, subject to the validity checks. -/
  | shadowCommit (p : Nat)
  /-- PG_LOCK_UNLOCK (R610): Writing KEY 0x5CA7 to PG_LOCK unlocks the page for that master's next write. -/
  | pgLockUnlock (m : Master) (p : Nat) (v : Word)
  /-- UNLOCK_LAPSE (R610): An outstanding unlock lapses 1 ms after it was granted. -/
  | unlockLapse (p : Nat)
  /-- REG_TIMEOUT (R600): A register access that its page does not answer within 10 µs ends with a dummy read or a dropped write. -/
  | regTimeout (m : Master) (p o : Nat) (write : Bool)
  /-- BUS_TIMEOUT (R604): A main-fabric transaction without a response in 100 µs is treated as failed. -/
  | busTimeout (p : Nat)
  /-- FABRIC_TRANSACTION (R26): A main-fabric or DRAM request is granted by QoS class and reservation. -/
  | fabricTransaction (n : Nat) (reqs : List (Traffic × Nat × Nat))
  /-- DRAM_ACCESS (R460): A DRAM controller performs a 64-byte block access with inline ECC, guard check and merge. -/
  | dramAccess (mp : Nat) (a : Nat) (w : Option (List Byte)) (err : ReadErr) (act : Bool) (core : CoreAccess)
  /-- REFRESH_WINDOW (R467): At each refresh-window boundary the activation tables are cleared. -/
  | refreshWindow (n : Nat)
  /-- DRAM_SCRUB_STEP (R469): The DRAM scrubber reads, corrects and writes back the next block. -/
  | dramScrubStep (n : Nat) (err : ReadErr) (again : Bool)
  /-- DRAM_BG_SWEEP (R465): A background training sweep of one lane finds its eye centre and moves the delay. -/
  | dramBgSweep (n lane rd wr width : Nat)
  /-- MARGIN_CHECK (R466): Every 10 ms the margin monitor tests each lane with a shadow sampler. -/
  | marginCheck (n lane : Nat) (fails : Bool)
  /-- WCK_OSC_READ (R466): Every 10 ms the WCK-to-DQ oscillators are read and the lane delays corrected. -/
  | wckOscRead (n : Nat) (drift : List Int)
  /-- RES_WRITE (R28): A write to a controller's class 0 and 1 reservations is discarded when its sum exceeds 15.4 GB/s. -/
  | resWrite (m : Master) (n : Nat) (v : Word)
  /-- BANK_HASH_WRITE (R464): A BANK_HASH write that breaks the hash rules is discarded. -/
  | bankHashWrite (m : Master) (k : Nat) (v : Word)
  /-- TOPO_WRITE (R473): A TOPO write with a reserved code is discarded and sets TOPO_INVALID. -/
  | topoWrite (m : Master) (v : Word)
  /-- LANE_CFG_WRITE (R44): A Swift lane assignment is checked against placement and grouping, and stored or discarded whole. -/
  | laneCfgWrite (m : Master) (n : Nat) (v : Word)
  /-- TIMEBASE_TICK (R51): On each 250 MHz tick the timebase updates every ruler and evaluates the cues. -/
  | timebaseTick
  /-- SNAP_GO (R53): Writing SNAP.GO latches every ruler into the snapshot registers. -/
  | snapGo (m : Master) (v : Word)
  /-- SNAPSHOT_STROBE (R53): An event on TIMEBASE PG_EVT_IN0 latches every ruler in the same tick. -/
  | snapshotStrobe
  /-- TIME_SET_GO (R57): Writing TIME_SET_GO loads TIME while the servo is disabled. -/
  | timeSetGo (m : Master) (v : Word)
  /-- TIME_CTRL_WRITE (R55): A write of SERVO_EN switches TIME between servo control and free-run. -/
  | timeCtrlWrite (m : Master) (v : Word)
  /-- ENCODER_EDGE (R59): A counted encoder edge adds an increment to the DIST ruler and updates the rate estimate. -/
  | encoderEdge (e : Nat) (a b : Bool)
  /-- ENCODER_INDEX_EDGE (R60): An index edge at a wrong edge count increments INDEX_ERR. -/
  | encoderIndexEdge (e : Nat) (i : Bool)
  /-- POS_SET (R63): Writing POS_SET_LO loads the DIST position as a step. -/
  | posSet (m : Master) (d : Nat) (v : Word)
  /-- STILL_TIMEOUT (R64): With no edge for STILL_MS, RATE and ACCEL read 0 and STILL is set. -/
  | stillTimeout (d : Nat)
  /-- SLIP_DWELL (R65): A rate disagreement that lasts DWELL sets SLIP or SLIDE, and an agreement that lasts DWELL clears it. -/
  | slipDwell (d : Nat)
  /-- PHASE_CROSSING (R68): A crossing on the PHASE input is accepted or rejected and drives the PLL states. -/
  | phaseCrossing (i : Nat) (falling : Bool) (width : Nat)
  /-- PHASE_CROSSING_TIMEOUT (R69): With no crossing accepted for 2 periods, LOCKED goes to HOLDOVER. -/
  | phaseCrossingTimeout (p : Nat)
  /-- PHASE_HOLD_EXPIRY (R69): HOLDOVER longer than HOLD_S enters NO_INPUT. -/
  | phaseHoldExpiry (p : Nat)
  /-- LOAD (R75): The cue command LOAD copies the selected cue into the staging registers. -/
  | load (m : Master) (k : Nat)
  /-- CUE_STORE (R76): The cue command STORE checks the staged descriptor and replaces and arms the cue, or rejects it. -/
  | cueStore (m : Master) (k : Nat)
  /-- DISARM (R75): The cue command DISARM sets MODE to 0 and clears ARMED. -/
  | disarm (m : Master) (k : Nat)
  /-- CLEAR (R75): The cue command CLEAR clears the cue's status flags and MISS_COUNT. -/
  | clear (m : Master) (k : Nat)
  /-- HEAD_LINE_START (R330): At line y, pixel 0, the head starts fetching and composing line y and line-locked margins are checked. -/
  | headLineStart (n : Nat) (late : List (Nat × Nat)) (errs : List (Nat × Nat × Bool))
  /-- LL_SENSOR_TIMEOUT (R89): No sensor frame start within 1.25 frame periods takes the context to LOST. -/
  | llSensorTimeout (k : Nat)
  /-- HEAD_LINE_OUT (R330): A composed line leaves the pads OUT_LAT pixel clocks after its start. -/
  | headLineOut (n : Nat) (pads : List (Nat × Nat × Nat))
  /-- CSI2_PACKET (R93): A CSI-2 packet is received, its header ECC and payload CRC are checked, and it is passed on or discarded. -/
  | csi2Packet (n vc dt : Nat) (hdr : ReadErr) (bad : Bool) (data : List Nat)
  /-- DESKEW_SEQUENCE (R96): A received deskew sequence runs skew calibration and sets DESKEW.DONE. -/
  | deskewSequence (n : Nat) (periodic : Bool)
  /-- DLK_BLOCK_LOCK_ACQUIRED (R119): Block lock on the active positions moves the receiver from LOCK to ALIGN. -/
  | dlkBlockLockAcquired (n p : Nat)
  /-- DLK_BLOCK_LOCK_LOST (R110): 16 invalid sync headers in 64 are a loss of block lock on a position. -/
  | dlkBlockLockLost (n p : Nat) (hdrs : List Nat) (full : Bool)
  /-- DLK_IDLE_BLOCK (R106): An IDLE block is kept or dropped by the position's elastic buffer. -/
  | dlkIdleBlock (n p level : Nat)
  /-- DLK_ELASTIC_UNDERFLOW (R106): A position with fewer than 4 blocks buffered presents an inserted filler. -/
  | dlkElasticUnderflow (n p level : Nat)
  /-- DLK_ALIGN_BLOCK (R108): An ALIGN marker is checked and aligns, deskews or realigns the group. -/
  | dlkAlignBlock (n p : Nat) (b : DlkBlock) (blk bip : Nat)
  /-- DLK_MARKER_TIMEOUT (R110): No valid ALIGN block within 16,448 block times fails the position. -/
  | dlkMarkerTimeout (n p : Nat)
  /-- DLK_SPARE_MAP_TIMEOUT (R112): With no announcing row within 4 marker intervals, SPARE_MAP is resent or the group goes DOWN. -/
  | dlkSpareMapTimeout (n : Nat)
  /-- LANE_RETURNS (R113): A recovered position with 16 clean marker intervals rejoins the spare pool. -/
  | laneReturns (n p : Nat)
  /-- DLK_FRAME_START (R101): A FRAME_START control block starts a frame on its virtual channel. -/
  | dlkFrameStart (n : Nat) (b : DlkBlock)
  /-- DLK_LINE (R102): A LINE_START, its data blocks and its LINE_END deliver one line. -/
  | dlkLine (n k : Nat) (emb : Bool) (lanes : List (List DlkBlock))
  /-- DLK_FRAME_END (R101): A FRAME_END control block ends the frame. -/
  | dlkFrameEnd (n : Nat) (b : DlkBlock)
  /-- BCMSG (R115): A back-channel message from the head is routed to its owner or to BC_RX. -/
  | bcmsg (n : Nat) (b : DlkBlock)
  /-- DLK_TIME_SEND (R116): Once per millisecond the Coneda sends TIME_SEC and TIME_NS. -/
  | dlkTimeSend (n : Nat)
  /-- PING (R116): Once per second the Coneda sends PING, publishes RTT and sends DELAY. -/
  | ping (n : Nat)
  /-- TRIGGER (R117): An event on DLK PG_EVT_INm sends TRIGGERm ahead of every queued message. -/
  | trigger (n k : Nat)
  /-- BC_TX_GO (R118): Writing BC_TX_GO queues a firmware back-channel message, or is discarded when the queue is full. -/
  | bcTxGo (m : Master) (n : Nat) (v : Word)
  /-- BC_TIMEOUT (R118): A REG_WRITE or REG_READ without REG_ACK is resent once, and then reported as failed. -/
  | bcTimeout (n seq : Nat)
  /-- DLK_ENABLE (R119): Setting DLK CFG.EN moves the receiver from OFF to LOCK. -/
  | dlkEnable (m : Master) (n : Nat) (v : Word)
  /-- DLK_DISABLE (R119): Clearing DLK CFG.EN returns the receiver to OFF. -/
  | dlkDisable (m : Master) (n : Nat) (v : Word)
  /-- STRM_LOAD (R120): STRM_CMD LOAD copies a capture stream's configuration into staging. -/
  | strmLoad (m : Master)
  /-- STRM_STORE (R121): STRM_CMD STORE checks and writes a capture stream configuration, or rejects it. -/
  | strmStore (m : Master)
  /-- STOP (R121): STRM_CMD STOP stops the stream at the next frame end. -/
  | stop (m : Master)
  /-- STOP_NOW (R121): STRM_CMD STOP_NOW ends the frame in flight as BROKEN and stops the stream. -/
  | stopNow (m : Master)
  /-- CAPTURE_FRAME_START (R123): An accepted frame start numbers the frame, takes a buffer and tags it with the PSET decision. -/
  | captureFrameStart (c : Nat) (e : ReadErr)
  /-- CAPTURE_LINE (R124): An image or embedded line is stored, padded or truncated, and streamed inline. -/
  | captureLine (c : Nat)
  /-- CAPTURE_FRAME_END (R130): At frame end, fill lines are written, the metadata record and completion are posted and FE is produced. -/
  | captureFrameEnd (c : Nat)
  /-- FRAME_TIMEOUT (R126): FRAME_TIMEOUT with no line received ends the frame with TIMEOUT. -/
  | frameTimeout (c : Nat)
  /-- SEQ_WRITE_ACK (R133): A sequencer write is acknowledged and the next is sent. -/
  | seqWriteAck (c : Nat)
  /-- SEQ_WRITE_FAIL (R135): A NACKed or timed-out write is retried once, then the list is abandoned with SEQ_FAIL. -/
  | seqWriteFail (c : Nat)
  /-- I3C_CMD (R131): Writing I3C_CMD queues a private transfer or CCC on the controller. -/
  | i3cCmd (m : Master) (n : Nat) (v : Word)
  /-- I3C_TRANSFER_DONE (R131): An I3C transfer completes, with DONE or NACK. -/
  | i3cTransferDone (n : Nat) (nack : Bool) (data : List Byte)
  /-- I3C_IBI (R131): An in-band interrupt is received with its mandatory byte. -/
  | i3cIbi (n addr mdb : Nat)
  /-- CTX_LOAD (R145): CTX_CMD LOAD copies a pipe context's configuration into staging. -/
  | ctxLoad (m : Master) (n : Nat)
  /-- CTX_STORE (R144): CTX_CMD STORE checks and writes a pipe context configuration, or rejects it. -/
  | ctxStore (m : Master) (n : Nat)
  /-- START (R145): CTX_CMD START arms a pipe context, takes band rings and starts stripe members. -/
  | start (m : Master) (n : Nat)
  /-- CTX_STOP (R145): CTX_CMD STOP returns the context to OFF when its frame completes. -/
  | ctxStop (m : Master) (n : Nat)
  /-- CTX_STOP_NOW (R145): CTX_CMD STOP_NOW ends the frame as ABORTED and takes the context to OFF. -/
  | ctxStopNow (m : Master) (n : Nat)
  /-- PIPE_FRAME_ACCEPT (R146): A context accepts an inline frame start, reads and applies its PSET, and becomes ACTIVE. -/
  | pipeFrameAccept (n c : Nat)
  /-- PIPE_MEM_DESC_TAKE (R150): A memory-input context takes a frame descriptor from MEM_Q and checks it. -/
  | pipeMemDescTake (n c : Nat)
  /-- PIPE_CONTEXT_SWITCH (R154): At a run boundary the pipe picks the eligible context and saves and restores held lines. -/
  | pipeContextSwitch (n : Nat)
  /-- PIPE_RUN_START (R152): After the switch and any table wait, the selected context's run starts. -/
  | pipeRunStart (n : Nat)
  /-- TABLE_LOAD_DONE (R155): The tables of the next context finish loading into the idle bank. -/
  | tableLoadDone (n : Nat)
  /-- LUT_LOAD_DONE (R189): A LUT load completes and its slot becomes usable or pinned. -/
  | lutLoadDone (n : Nat)
  /-- SAFETY_LATE (R156): A SAFETY context that waits beyond its bound sets SAFETY_LATE. -/
  | safetyLate (n c : Nat)
  /-- PIPE_LINE (R153): The running context processes one line through the stages and branches, and its run may end. -/
  | pipeLine (n : Nat) (errs : List SramErr)
  /-- SAVE_FAULT (R146): A failed save-area write takes the context to HALTED. -/
  | saveFault (n c : Nat)
  /-- BRANCH_PROGRESS (R209): A branch produces a progress event when PROG_LINES output lines are acknowledged. -/
  | branchProgress (n b c : Nat)
  /-- BRANCH_COMPLETE (R210): A branch completes a frame when its writes are acknowledged, and posts its completion. -/
  | branchComplete (n b c : Nat)
  /-- STATS_BLOCK_DONE (R235): Once the statistics block is acknowledged, STATS_EVC is produced. -/
  | statsBlockDone (n c : Nat)
  /-- PIPE_FRAME_DONE (R149): When every branch has completed, the pipe record is written, the input is returned and DONE is produced. -/
  | pipeFrameDone (n c : Nat)
  /-- PSET_PUSH (R219): Writing PSET_PUSH pushes a PSET entry into the context's ring, or rejects it. -/
  | psetPush (m : Master) (n : Nat) (v : Word)
  /-- TBL_DATA_READ (R155): A read of TBL_DATA returns the table word and increments TBL_ADDR. -/
  | tblDataRead (m : Master) (n o : Nat)
  /-- BR_LOAD (R204): BR_CMD LOAD copies the branch descriptor of a context into staging. -/
  | brLoad (m : Master) (n b : Nat)
  /-- BR_STORE (R205): BR_CMD STORE checks and writes a branch descriptor, or rejects it. -/
  | brStore (m : Master) (n b : Nat)
  /-- THR_START (R280): Thread command START clears the thread and runs it from ENTRY. -/
  | thrStart (m : Master) (p : Nat)
  /-- PARK (R280): Thread command PARK makes the thread go IDLE at its next take or EXIT. -/
  | park (m : Master) (p : Nat)
  /-- THR_RESET (R280): Thread command RESET idles the thread at once, reissues its item and cancels its DMA. -/
  | thrReset (m : Master) (p : Nat)
  /-- THREAD_WAIT_END (R245): A blocking wait ends and the thread returns to RUN. -/
  | threadWaitEnd (p t : Nat)
  /-- ITEM_TIMEOUT (R265): A thread that holds an item beyond ITEM_US takes an ITEM_TIMEOUT trap. -/
  | itemTimeout (p t : Nat)
  /-- WATCHDOG (R275): 4,096 cycles with no retire while a thread runs expire the engine watchdog. -/
  | watchdog (p : Nat)
  /-- ILLEGAL_INSTRUCTION (R256): A word with an unused field set, or an unlisted opcode or FUNC, raises ILLEGAL. -/
  | illegalInstruction (p t : Nat) (e : ReadErr)
  /-- NOP (R256): No operation. -/
  | nop (p t : Nat)
  /-- FENCE (R250): The thread waits until its earlier stores are acknowledged. -/
  | fence (p t : Nat)
  /-- ERET (R274): Returns to EPC and clears IN_TRAP. -/
  | eret (p t : Nat)
  /-- TRAP (R274): Raises trap cause 0x20 with a 10-bit code. -/
  | trap (p t : Nat)
  /-- CSRR (R259): Reads a thread CSR into a scalar register. -/
  | csrr (p t : Nat)
  /-- CSRW (R259): Writes a thread CSR from a scalar register. -/
  | csrw (p t : Nat)
  /-- YIELD (R256): The thread waits until every other ready thread has issued once. -/
  | yield (p t : Nat)
  /-- EXIT (R256): The thread goes to IDLE, or raises WRONG_STATE while it holds an item. -/
  | exit (p t : Nat)
  /-- ADD (R256): Scalar add. -/
  | add (p t : Nat)
  /-- SUB (R256): Scalar subtract. -/
  | sub (p t : Nat)
  /-- AND (R256): Scalar bitwise AND. -/
  | and_ (p t : Nat)
  /-- OR (R256): Scalar bitwise OR. -/
  | or_ (p t : Nat)
  /-- XOR (R256): Scalar bitwise XOR. -/
  | xor_ (p t : Nat)
  /-- SLL (R256): Scalar shift left by s_B[4:0]. -/
  | sll (p t : Nat)
  /-- SRL (R256): Scalar logical shift right. -/
  | srl (p t : Nat)
  /-- SRA (R256): Scalar arithmetic shift right. -/
  | sra (p t : Nat)
  /-- SLT (R256): Scalar signed set-less-than. -/
  | slt (p t : Nat)
  /-- SLTU (R256): Scalar unsigned set-less-than. -/
  | sltu (p t : Nat)
  /-- MIN (R256): Scalar signed minimum. -/
  | min (p t : Nat)
  /-- MAX (R256): Scalar signed maximum. -/
  | max (p t : Nat)
  /-- MINU (R256): Scalar unsigned minimum. -/
  | minu (p t : Nat)
  /-- MAXU (R256): Scalar unsigned maximum. -/
  | maxu (p t : Nat)
  /-- MUL (R256): Scalar multiply, low 32 bits. -/
  | mul (p t : Nat)
  /-- MULH (R256): Scalar multiply, signed high half. -/
  | mulh (p t : Nat)
  /-- MULHU (R256): Scalar multiply, unsigned high half. -/
  | mulhu (p t : Nat)
  /-- SEXTB (R256): Sign-extends a byte. -/
  | sextb (p t : Nat)
  /-- SEXTH (R256): Sign-extends a halfword. -/
  | sexth (p t : Nat)
  /-- CLZ (R256): Counts leading zeros. -/
  | clz (p t : Nat)
  /-- POPC (R256): Counts set bits. -/
  | popc (p t : Nat)
  /-- ADDI (R256): Adds a sign-extended immediate. -/
  | addi (p t : Nat)
  /-- ANDI (R256): ANDs a zero-extended immediate. -/
  | andi (p t : Nat)
  /-- ORI (R256): ORs a zero-extended immediate. -/
  | ori (p t : Nat)
  /-- XORI (R256): XORs a zero-extended immediate. -/
  | xori (p t : Nat)
  /-- SLTI (R256): Signed compare with an immediate. -/
  | slti (p t : Nat)
  /-- LUI (R256): Loads an immediate into the upper 16 bits. -/
  | lui (p t : Nat)
  /-- SHI (R256): Shifts or rotates by an immediate amount. -/
  | shi (p t : Nat)
  /-- FADD (R254): Scalar fp32 add. -/
  | fadd (p t : Nat)
  /-- FSUB (R254): Scalar fp32 subtract. -/
  | fsub (p t : Nat)
  /-- FMUL (R254): Scalar fp32 multiply. -/
  | fmul (p t : Nat)
  /-- FMA (R254): Scalar fp32 fused multiply-add. -/
  | fma (p t : Nat)
  /-- FMIN (R254): Scalar fp32 minimum. -/
  | fmin (p t : Nat)
  /-- FMAX (R254): Scalar fp32 maximum. -/
  | fmax (p t : Nat)
  /-- FEQ (R254): Scalar fp32 equality compare. -/
  | feq (p t : Nat)
  /-- FLT (R254): Scalar fp32 less-than compare. -/
  | flt (p t : Nat)
  /-- FLE (R254): Scalar fp32 less-or-equal compare. -/
  | fle (p t : Nat)
  /-- FCVTWS (R254): Converts fp32 to int32, saturating. -/
  | fcvtws (p t : Nat)
  /-- FCVTSW (R254): Converts int32 to fp32. -/
  | fcvtsw (p t : Nat)
  /-- FRCP (R254): Scalar fp32 reciprocal. -/
  | frcp (p t : Nat)
  /-- FRSQ (R254): Scalar fp32 reciprocal square root. -/
  | frsq (p t : Nat)
  /-- FABS (R254): Scalar fp32 absolute value. -/
  | fabs (p t : Nat)
  /-- FNEG (R254): Scalar fp32 negation. -/
  | fneg (p t : Nat)
  /-- LW (R249): Loads a word from data or shared memory. -/
  | lw (p t : Nat) (e : ReadErr)
  /-- SW (R249): Stores a word. -/
  | sw (p t : Nat)
  /-- LHU (R249): Loads an unsigned halfword. -/
  | lhu (p t : Nat) (e : ReadErr)
  /-- SH (R249): Stores a halfword. -/
  | sh (p t : Nat)
  /-- LBU (R249): Loads an unsigned byte. -/
  | lbu (p t : Nat) (e : ReadErr)
  /-- SB (R249): Stores a byte. -/
  | sb (p t : Nat)
  /-- BEQ (R256): Branch if equal. -/
  | beq (p t : Nat)
  /-- BNE (R256): Branch if not equal. -/
  | bne (p t : Nat)
  /-- BLT (R256): Branch if signed less. -/
  | blt (p t : Nat)
  /-- BGE (R256): Branch if signed greater or equal. -/
  | bge (p t : Nat)
  /-- BLTU (R256): Branch if unsigned less. -/
  | bltu (p t : Nat)
  /-- BGEU (R256): Branch if unsigned greater or equal. -/
  | bgeu (p t : Nat)
  /-- JAL (R256): Jumps and links into s31. -/
  | jal (p t : Nat)
  /-- JALR (R256): Jumps to a register target and links. -/
  | jalr (p t : Nat)
  /-- LOOP (R258): Starts a hardware loop over the following n instructions. -/
  | loop (p t : Nat)
  /-- VADD (R257): Vector add. -/
  | vadd (p t : Nat)
  /-- VSUB (R257): Vector subtract. -/
  | vsub (p t : Nat)
  /-- VADDS (R257): Vector signed saturating add. -/
  | vadds (p t : Nat)
  /-- VSUBS (R257): Vector signed saturating subtract. -/
  | vsubs (p t : Nat)
  /-- VADDUS (R257): Vector unsigned saturating add. -/
  | vaddus (p t : Nat)
  /-- VSUBUS (R257): Vector unsigned saturating subtract. -/
  | vsubus (p t : Nat)
  /-- VAND (R257): Vector AND. -/
  | vand (p t : Nat)
  /-- VOR (R257): Vector OR. -/
  | vor (p t : Nat)
  /-- VXOR (R257): Vector XOR. -/
  | vxor (p t : Nat)
  /-- VSLL (R257): Vector shift left per lane. -/
  | vsll (p t : Nat)
  /-- VSRL (R257): Vector logical shift right per lane. -/
  | vsrl (p t : Nat)
  /-- VSRA (R257): Vector arithmetic shift right per lane. -/
  | vsra (p t : Nat)
  /-- VMIN (R257): Vector signed minimum. -/
  | vmin (p t : Nat)
  /-- VMAX (R257): Vector signed maximum. -/
  | vmax (p t : Nat)
  /-- VMINU (R257): Vector unsigned minimum. -/
  | vminu (p t : Nat)
  /-- VMAXU (R257): Vector unsigned maximum. -/
  | vmaxu (p t : Nat)
  /-- VMUL (R257): Vector multiply, low half. -/
  | vmul (p t : Nat)
  /-- VMULH (R257): Vector multiply, signed high half. -/
  | vmulh (p t : Nat)
  /-- VMULHRS (R257): Vector rounded, saturated high multiply. -/
  | vmulhrs (p t : Nat)
  /-- VABSD (R257): Vector absolute difference. -/
  | vabsd (p t : Nat)
  /-- VAVG (R257): Vector rounded average. -/
  | vavg (p t : Nat)
  /-- VSEL (R255): Selects each lane from v_A or v_B by the mask. -/
  | vsel (p t : Nat)
  /-- VMOV (R257): Vector move. -/
  | vmov (p t : Nat)
  /-- VBCAST (R257): Broadcasts a scalar to every lane. -/
  | vbcast (p t : Nat)
  /-- VNARROW (R257): Narrows W lanes to H with signed saturation. -/
  | vnarrow (p t : Nat)
  /-- VWIDENL (R257): Sign-extends H lanes 0–15 to W. -/
  | vwidenl (p t : Nat)
  /-- VWIDENH (R257): Sign-extends H lanes 16–31 to W. -/
  | vwidenh (p t : Nat)
  /-- VWIDENLU (R257): Zero-extends H lanes 0–15 to W. -/
  | vwidenlu (p t : Nat)
  /-- VWIDENHU (R257): Zero-extends H lanes 16–31 to W. -/
  | vwidenhu (p t : Nat)
  /-- VSLLI (R257): Vector shift left by an immediate. -/
  | vslli (p t : Nat)
  /-- VSRLI (R257): Vector logical shift right by an immediate. -/
  | vsrli (p t : Nat)
  /-- VSRAI (R257): Vector arithmetic shift right by an immediate. -/
  | vsrai (p t : Nat)
  /-- VFADD (R254): Vector fp32 add. -/
  | vfadd (p t : Nat)
  /-- VFSUB (R254): Vector fp32 subtract. -/
  | vfsub (p t : Nat)
  /-- VFMUL (R254): Vector fp32 multiply. -/
  | vfmul (p t : Nat)
  /-- VFMA (R254): Vector fp32 multiply-accumulate. -/
  | vfma (p t : Nat)
  /-- VFMIN (R254): Vector fp32 minimum. -/
  | vfmin (p t : Nat)
  /-- VFMAX (R254): Vector fp32 maximum. -/
  | vfmax (p t : Nat)
  /-- VFCVTWS (R254): Vector fp32 to int32. -/
  | vfcvtws (p t : Nat)
  /-- VFCVTSW (R254): Vector int32 to fp32. -/
  | vfcvtsw (p t : Nat)
  /-- VFRCP (R254): Vector fp32 reciprocal. -/
  | vfrcp (p t : Nat)
  /-- VFRSQ (R254): Vector fp32 reciprocal square root. -/
  | vfrsq (p t : Nat)
  /-- VFABS (R254): Vector fp32 absolute value. -/
  | vfabs (p t : Nat)
  /-- VFCVTSH (R254): Converts binary16 lanes 0–15 to fp32. -/
  | vfcvtsh (p t : Nat)
  /-- VFCVTSHH (R254): Converts binary16 lanes 16–31 to fp32. -/
  | vfcvtshh (p t : Nat)
  /-- VFCVTHS (R254): Converts two fp32 vectors to binary16. -/
  | vfcvths (p t : Nat)
  /-- VFBCAST (R254): Broadcasts an fp32 scalar. -/
  | vfbcast (p t : Nat)
  /-- VMAC_H (R253): Multiply-accumulates H lanes into an accumulator. -/
  | vmacH (p t : Nat)
  /-- VDOT2_H (R253): Accumulates a two-term dot product per H lane. -/
  | vdot2H (p t : Nat)
  /-- VMACS_H (R253): Multiply-accumulates H lanes by a scalar. -/
  | vmacsH (p t : Nat)
  /-- VMAC_W (R253): Multiply-accumulates W lanes into 80-bit lanes. -/
  | vmacW (p t : Nat)
  /-- VMSUB_H (R253): Multiply-subtracts H lanes from an accumulator. -/
  | vmsubH (p t : Nat)
  /-- ACCZ (R253): Zeroes the enabled accumulator lanes. -/
  | accz (p t : Nat)
  /-- ACCLD_H (R253): Loads an accumulator from shifted H lanes. -/
  | accldH (p t : Nat)
  /-- ACCR_H (R253): Reads an accumulator to H lanes, rounded and saturated. -/
  | accrH (p t : Nat)
  /-- ACCR2_W (R253): Reads an accumulator to two W vectors. -/
  | accr2W (p t : Nat)
  /-- ACCRW_W (R253): Reads 80-bit accumulator lanes to W lanes. -/
  | accrwW (p t : Nat)
  /-- VSLIDE (R253): Slides lanes across the concatenation of v_A and v_B. -/
  | vslide (p t : Nat)
  /-- VSHUF (R253): Shuffles lanes by the indices in v_D. -/
  | vshuf (p t : Nat)
  /-- VZIPL (R253): Interleaves the low halves. -/
  | vzipl (p t : Nat)
  /-- VZIPH (R253): Interleaves the high halves. -/
  | vziph (p t : Nat)
  /-- VUNZIPE (R253): Gathers the even lanes. -/
  | vunzipe (p t : Nat)
  /-- VUNZIPO (R253): Gathers the odd lanes. -/
  | vunzipo (p t : Nat)
  /-- VEXT (R253): Extracts a lane to a scalar. -/
  | vext (p t : Nat)
  /-- VINS (R253): Inserts a scalar into a lane. -/
  | vins (p t : Nat)
  /-- VREV (R253): Reverses lane order. -/
  | vrev (p t : Nat)
  /-- VCMP_EQ (R255): Lanewise equal compare into a mask. -/
  | vcmpEq (p t : Nat)
  /-- VCMP_NE (R255): Lanewise not-equal compare. -/
  | vcmpNe (p t : Nat)
  /-- VCMP_LT (R255): Lanewise signed less-than compare. -/
  | vcmpLt (p t : Nat)
  /-- VCMP_LE (R255): Lanewise signed less-or-equal compare. -/
  | vcmpLe (p t : Nat)
  /-- VCMP_LTU (R255): Lanewise unsigned less-than compare. -/
  | vcmpLtu (p t : Nat)
  /-- VCMP_LEU (R255): Lanewise unsigned less-or-equal compare. -/
  | vcmpLeu (p t : Nat)
  /-- MAND (R253): Mask AND. -/
  | mand (p t : Nat)
  /-- MOR (R253): Mask OR. -/
  | mor (p t : Nat)
  /-- MXOR (R253): Mask XOR. -/
  | mxor (p t : Nat)
  /-- MNOT (R253): Mask NOT. -/
  | mnot (p t : Nat)
  /-- MSET (R253): Sets a mask from a scalar. -/
  | mset (p t : Nat)
  /-- VRSUM (R253): Sums the enabled lanes to a scalar. -/
  | vrsum (p t : Nat)
  /-- VRMIN (R253): Signed minimum over the enabled lanes. -/
  | vrmin (p t : Nat)
  /-- VRMAX (R253): Signed maximum over the enabled lanes. -/
  | vrmax (p t : Nat)
  /-- VRMINU (R253): Unsigned minimum over the enabled lanes. -/
  | vrminu (p t : Nat)
  /-- VRMAXU (R253): Unsigned maximum over the enabled lanes. -/
  | vrmaxu (p t : Nat)
  /-- MGET (R253): Copies a mask to a scalar. -/
  | mget (p t : Nat)
  /-- MCOUNT (R253): Counts a mask's set bits. -/
  | mcount (p t : Nat)
  /-- VLD (R249): Loads a 64-byte-aligned vector. -/
  | vld (p t : Nat) (e : ReadErr)
  /-- VST (R249): Stores a 64-byte-aligned vector. -/
  | vst (p t : Nat)
  /-- VLDU (R249): Loads an unaligned vector. -/
  | vldu (p t : Nat) (e : ReadErr)
  /-- VSTM (R249): Stores the enabled lanes. -/
  | vstm (p t : Nat)
  /-- VGATH (R249): Gathers halfwords by index. -/
  | vgath (p t : Nat) (e : ReadErr) (lane : Nat)
  /-- VSCAT (R249): Scatters halfwords by index. -/
  | vscat (p t : Nat)
  /-- QTAKE (R260): Takes one work item, waiting while the queue is empty. -/
  | qtake (p t : Nat)
  /-- QTRY (R260): Takes one work item or returns status 1 at once. -/
  | qtry (p t : Nat)
  /-- QPUSH (R262): Pushes a descriptor with the held epoch, waiting while the queue is full. -/
  | qpush (p t : Nat)
  /-- QPUSHNB (R262): Pushes a descriptor or returns status 1 when the queue is full. -/
  | qpushnb (p t : Nat)
  /-- QDONE (R262): Completes the held work item under the epoch check. -/
  | qdone (p t : Nat)
  /-- QREL (R264): Returns the held item for reissue with its epoch incremented. -/
  | qrel (p t : Nat)
  /-- QLEVEL (R256): Reads a queue's fill level. -/
  | qlevel (p t : Nat)
  /-- DMAQ (R267): Submits a DMA descriptor to the thread's channel and returns a ticket. -/
  | dmaq (p t : Nat) (e : ReadErr)
  /-- DMAW (R267): Waits until every descriptor up to a ticket has finished. -/
  | dmaw (p t : Nat)
  /-- DMAT (R267): Tests whether a ticket is outstanding. -/
  | dmat (p t : Nat)
  /-- DMARST (R267): Cancels queued descriptors and clears the channel's halt. -/
  | dmarst (p t : Nat)
  /-- DMA_DESC_COMPLETE (R268): A DMA descriptor finishes, or halts the channel on an invalid descriptor, bus error or poison. -/
  | dmaDescComplete (p t : Nat) (bus : Bool) (e : ReadErr) (at_ : Nat)
  /-- AMOADD (R271): Atomic add. -/
  | amoadd (p t : Nat) (e : ReadErr)
  /-- AMOSWAP (R271): Atomic swap. -/
  | amoswap (p t : Nat) (e : ReadErr)
  /-- AMOMIN (R271): Atomic signed minimum. -/
  | amomin (p t : Nat) (e : ReadErr)
  /-- AMOMAX (R271): Atomic signed maximum. -/
  | amomax (p t : Nat) (e : ReadErr)
  /-- AMOMINU (R271): Atomic unsigned minimum. -/
  | amominu (p t : Nat) (e : ReadErr)
  /-- AMOMAXU (R271): Atomic unsigned maximum. -/
  | amomaxu (p t : Nat) (e : ReadErr)
  /-- AMOCAS (R271): Atomic compare-and-swap. -/
  | amocas (p t : Nat) (e : ReadErr)
  /-- BAR (R272): Arrives at a cluster barrier and waits for its release. -/
  | bar (p t : Nat)
  /-- SIGEV (R273): Produces an event on one of the engine's outputs. -/
  | sigev (p t : Nat)
  /-- WAITEV (R273): Waits until an event input is pending, then clears it. -/
  | waitev (p t : Nat)
  /-- TESTEV (R273): Reads and clears an event input's pending bit. -/
  | testev (p t : Nat)
  /-- ENGINE_EVENT_IN (R273): An event on an engine input sets its pending bit, or finds it busy. -/
  | engineEventIn (p k : Nat)
  /-- LOAD_CTRL_GO (R278): Writing LOAD_CTRL.GO loads a program image into the selected logical slots. -/
  | loadCtrlGo (m : Master) (k : Nat) (v : Word)
  /-- PROGRAM_LOAD_DONE (R278): The load completes with the image valid, or with CRC_FAIL. -/
  | programLoadDone (k : Nat)
  /-- BIST_CMD (R281): CLUS BIST_CMD runs BIST on an engine that holds no logical ID. -/
  | bistCmd (m : Master) (k : Nat) (v : Word)
  /-- ENGINE_BIST_DONE (R511): An engine BIST ends; a pass requalifies a condemned engine as a spare. -/
  | engineBistDone (p : Nat) (pass : Bool)
  /-- SESS_LOAD (R286): Session command LOAD copies a codec session into staging. -/
  | sessLoad (m : Master) (p : Nat)
  /-- SESS_STORE (R324): Session command STORE checks and writes a codec session, or rejects it. -/
  | sessStore (m : Master) (p : Nat)
  /-- SESS_STOP (R286): Session command STOP ends the session at its next boundary. -/
  | sessStop (m : Master) (p : Nat)
  /-- SESS_STOP_NOW (R286): Session command STOP_NOW ends the picture in flight as ABORTED. -/
  | sessStopNow (m : Master) (p : Nat)
  /-- SET_RATE (R286): Session command SET_RATE applies a new BITRATE and MAX_PIC at the next picture start. -/
  | setRate (m : Master) (p : Nat)
  /-- FORCE_IDR (R286): Session command FORCE_IDR makes the next picture an IDR. -/
  | forceIdr (m : Master) (p : Nat)
  /-- FLUSH (R286): Session command FLUSH outputs every picture in the DPB at the next access-unit boundary. -/
  | flush (m : Master) (p : Nat)
  /-- CODEC_SESSION_SWITCH (R285): At a picture or access-unit boundary, the block starts the highest-ranked session that has work. -/
  | codecSessionSwitch (p : Nat)
  /-- GANG_WRITE (R292): A GANG write forms an encoder gang, or is rejected. -/
  | gangWrite (m : Master) (n : Nat) (v : Word)
  /-- ENC_PICTURE_START (R303): The encoder takes a source and an output buffer and plans rate control, or drops the picture. -/
  | encPictureStart (n hdr : Nat) (costs : List Nat)
  /-- HENC_PROGRESS_EVENT (R298): A progress event adds PROG_LINES ready lines to a progressive session. -/
  | hencProgressEvent (n k lines : Nat)
  /-- ENC_CTB_CODED (R303): One CTB is coded tentatively or as fallback under the cap. -/
  | encCtbCoded (n j bits fallback : Nat) (refPoison : Bool) (e : ReadErr)
  /-- ENC_SLICE_DONE (R307): A slice acknowledged by memory posts its descriptor and SLICE_EVC. -/
  | encSliceDone (n len : Nat)
  /-- XS_SLICE (R311): A JPEG XS slice is encoded to its exact budget, or decoded with concealment. -/
  | xsSlice (n : Nat) (lost : Bool) (err : ReadErr)
  /-- DEC_CHUNK (R315): A decoder takes an input chunk and returns it once read. -/
  | decChunk (p : Nat)
  /-- DEC_ACCESS_UNIT (R316): A complete access unit is decoded into a buffer, with concealment of lost data. -/
  | decAccessUnit (p : Nat) (a : AccessUnit) (err : ReadErr)
  /-- DEC_PICTURE_OUTPUT (R319): A decoded picture is output in bumping order with a descriptor. -/
  | decPictureOutput (p : Nat)
  /-- HPD_RISE (R327): HPD going high starts link training. -/
  | hpdRise (n : Nat)
  /-- HPD_LOSS_TIMEOUT (R327): HPD low for more than 2 ms takes the link to WAIT_HPD. -/
  | hpdLossTimeout (n : Nat)
  /-- HPD_IRQ (R327): An HPD IRQ after which DPCD reports lost lock retrains the link. -/
  | hpdIrq (n : Nat) (lost : Bool)
  /-- LINK_TRAIN_DONE (R327): A training attempt succeeds into RUN, or fails, retries or enters FAILED. -/
  | linkTrainDone (n : Nat) (ok : Bool)
  /-- AUX_NATIVE_WRITE (R328): AUX command native write. -/
  | auxNativeWrite (m : Master) (n : Nat) (v : Word)
  /-- AUX_NATIVE_READ (R328): AUX command native read. -/
  | auxNativeRead (m : Master) (n : Nat) (v : Word)
  /-- AUX_I2C_WRITE (R328): AUX command I²C-over-AUX write. -/
  | auxI2cWrite (m : Master) (n : Nat) (v : Word)
  /-- AUX_I2C_READ (R328): AUX command I²C-over-AUX read. -/
  | auxI2cRead (m : Master) (n : Nat) (v : Word)
  /-- AUX_DONE (R328): An AUX transaction ends with DONE, NACK, DEFER_LIMIT or TIMEOUT. -/
  | auxDone (n outcome : Nat) (data : List Byte)
  /-- VBLANK_START (R329): At line ACTIVE_V, pixel 0, DISP and EYE commits apply and queue layers take descriptors. -/
  | vblankStart (n : Nat)
  /-- LINE_MATCH (R329): LINEn reaching line LINE_MATCH produces LINE_MATCH. -/
  | lineMatch (n : Nat)
  /-- HEAD_FRAME_START (R338): At line 0, pixel 0, kept pictures become current, guards move and safe-state replacement starts. -/
  | headFrameStart (n : Nat)
  /-- FRAME_DONE (R340): When the last active pixel leaves the pads, pictures no longer current are retired. -/
  | frameDone (n : Nat)
  /-- PAIR_COMMIT_TIMEOUT (R334): A held pair commit without the partner's commit by the second vblank is discarded. -/
  | pairCommitTimeout (n : Nat)
  /-- HEAD_ENABLE (R72): Enabling a head starts its timing generator at line ACTIVE_V. -/
  | headEnable (n : Nat)
  /-- HEAD_DISABLE (R345): Clearing EN stops output at frame end and retires the held pictures. -/
  | headDisable (n : Nat)
  /-- EYE_REGION_DECIDE (R349): After a region's last line leaves the pads, it passes or fails on CRC, freeze and markings. -/
  | eyeRegionDecide (n r : Nat)
  /-- SAFE_CLR (R350): Writing SAFE_CLR takes regions out of the safe state at the next frame start. -/
  | safeClr (m : Master) (n : Nat) (v : Word)
  /-- TDM_START (R365): SET_CMD START checks the set and arms it for frame k0. -/
  | tdmStart (m : Master) (n : Nat)
  /-- TDM_STOP (R365): SET_CMD STOP stops the set at the end of the current frame. -/
  | tdmStop (m : Master) (n : Nat)
  /-- TDM_STOP_NOW (R365): SET_CMD STOP_NOW stops the set at once. -/
  | tdmStopNow (m : Master) (n : Nat)
  /-- TDM_FRAME_SYNC (R360): A master frame sync at t_k ends and writes receive frames, fetches transmit frames and latches masks. -/
  | tdmFrameSync (n : Nat) (rx : List (Nat × List Nat)) (errs : List (Nat × Nat × Bool))
  /-- TDM_FS_EDGE (R363): A slave frame sync edge counts a frame and is timestamped, restarting a mis-sized frame. -/
  | tdmFsEdge (n bclks : Nat) (rx : List (Nat × List Nat)) (errs : List (Nat × Nat × Bool))
  /-- TDM_FS_LOST (R364): No slave frame sync for two periods sets FS_LOST and counts at the nominal period. -/
  | tdmFsLost (n : Nat)
  /-- SWC_READ_DONE (R371): The port's read of SWC_ADDR returns and updates the software counter, or is ignored. -/
  | swcReadDone (n : Nat) (err : Bool)
  /-- SW_COUNT_WRITE (R370): A SW_COUNT write is accepted or refused as PTR_INVALID. -/
  | swCountWrite (m : Master) (n : Nat) (v : Word)
  /-- TDM_PERIOD_POST (R375): A completed period posts its descriptor and PERIOD_EVC. -/
  | tdmPeriodPost (n : Nat)
  /-- MAC_CFG_WRITE (R379): A MAC CFG write brings the MAC up on its lanes, or is discarded. -/
  | macCfgWrite (m : Master) (n : Nat) (v : Word)
  /-- MAC_LINK_UP (R382): Every lane holding lock brings the link UP. -/
  | macLinkUp (n speed : Nat)
  /-- MAC_LINK_DOWN (R382): A lane losing lock takes the link DOWN. -/
  | macLinkDown (n pos : Nat)
  /-- MAC_TX_START (R383): At a transmission opportunity the head frame of the best eligible class is read and sent. -/
  | macTxStart (n : Nat) (e : ReadErr)
  /-- MAC_TX_COMPLETE (R385): Each transmit descriptor produces one completion with its timestamp and status. -/
  | macTxComplete (n : Nat)
  /-- GATE_ENTRY_CHANGE (R390): A gate control list entry's interval ends and the next entry takes effect. -/
  | gateEntryChange (n : Nat)
  /-- GATE_COMMIT (R392): Writing GATE_CTRL.COMMIT makes the administrative list pending. -/
  | gateCommit (m : Master) (n : Nat) (v : Word)
  /-- GATE_CONFIG_CHANGE (R392): At the config change time the new list starts. -/
  | gateConfigChange (n : Nat)
  /-- CBS_WRITE (R393): A shaper write is checked against 75 % of link rate. -/
  | cbsWrite (m : Master) (n i : Nat) (v : Word)
  /-- PREEMPT_VERIFY (R394): The 802.3br verification procedure succeeds or fails. -/
  | preemptVerify (n : Nat) (ok : Bool)
  /-- MAC_RX_FRAME (R395): A received frame passes address check, identification, filtering, recovery and delivery. -/
  | macRxFrame (n : Nat) (bs : List Byte) (fcsOk : Bool) (frag fecCor fecBad : Nat) (lanes : List (Nat × Nat × Nat × Nat)) (e : ReadErr)
  /-- RECOVERY_RESET_TIMEOUT (R399): A recovery function resets after RESET_MS without a passed frame. -/
  | recoveryResetTimeout (r : Nat)
  /-- REORDER_TIMEOUT (R403): Held RTP packets are delivered after REORDER_US. -/
  | reorderTimeout (c : Nat)
  /-- FILT_LOAD (R396): Filter command LOAD. -/
  | filtLoad (m : Master) (k : Nat)
  /-- FILT_STORE (R396): Filter command STORE, checked for valid MATCH, PORTS and SGATE. -/
  | filtStore (m : Master) (k : Nat)
  /-- CLEAR_BLOCK (R397): Filter command CLEAR_BLOCK clears BLOCKED. -/
  | clearBlock (m : Master) (k : Nat)
  /-- REC_LOAD (R399): Recovery function command LOAD. -/
  | recLoad (m : Master) (k : Nat)
  /-- REC_STORE (R399): Recovery function command STORE. -/
  | recStore (m : Master) (k : Nat)
  /-- REC_RESET (R399): Recovery function command RESET. -/
  | recReset (m : Master) (k : Nat)
  /-- FLOW_LOAD (R402): RTP flow command LOAD. -/
  | flowLoad (m : Master)
  /-- FLOW_STORE (R402): RTP flow command STORE, or rejection. -/
  | flowStore (m : Master)
  /-- FLOW_STOP (R402): RTP flow command STOP. -/
  | flowStop (m : Master)
  /-- GCL_READ_ADMIN (R390): Reads an administrative list entry. -/
  | gclReadAdmin (m : Master) (k : Nat)
  /-- GCL_WRITE_ADMIN (R390): Writes an administrative list entry. -/
  | gclWriteAdmin (m : Master) (k : Nat)
  /-- GCL_READ_OPER (R390): Reads an operational list entry. -/
  | gclReadOper (m : Master) (k : Nat)
  /-- PTP_SYNC (R409): A Sync gives an offset that is slewed, confirmed into a step, or refused. -/
  | ptpSync (i seq : Nat) (twoStep : Bool) (sec ns : Nat) (corr : Int)
  /-- PTP_FOLLOW_UP (R404): A Follow_Up completes a two-step Sync. -/
  | ptpFollowUp (i seq sec ns : Nat) (corr : Int)
  /-- PTP_ANNOUNCE (R405): An Announce updates the grandmaster comparison and selection. -/
  | ptpAnnounce (i : Nat) (a : PtpAnnounce)
  /-- PTP_RECEIPT_TIMEOUT (R405): An Announce or Sync receipt timeout discards the grandmaster and reselects. -/
  | ptpReceiptTimeout (i : Nat) (sync : Bool)
  /-- PTP_PDELAY_TIMER (R404): At the Pdelay interval the engine sends Pdelay_Req or Delay_Req. -/
  | ptpPdelayTimer (i : Nat)
  /-- PTP_PDELAY_RESP (R405): A Pdelay or Delay response updates the mean link delay. -/
  | ptpPdelayResp (i seq : Nat) (turn : Int) (sec ns : Nat)
  /-- PTP_PDELAY_REQ_RECEIVED (R404): A received Pdelay_Req is answered with Pdelay_Resp. -/
  | ptpPdelayReqReceived (i seq : Nat)
  /-- ACCEPT (R410): JUMP_CMD ACCEPT applies the pending jump at the next Sync. -/
  | accept (m : Master)
  /-- DISCARD (R410): JUMP_CMD DISCARD keeps refusing and restarts the count. -/
  | discard (m : Master)
  /-- NVMH_ENABLE (R413): Setting NVMH CFG.EN trains the link and brings up the SSD. -/
  | nvmhEnable (m : Master) (k : Nat) (v : Word)
  /-- SSD_INIT_DONE (R415): SSD initialisation ends in READY, UNSUPPORTED or OFFLINE. -/
  | ssdInitDone (k result speed width : Nat) (rev vwc lba4k : Bool) (queues cap : Nat)
  /-- NVMH_DISABLE (R415): Clearing EN shuts the SSD down to OFF. -/
  | nvmhDisable (m : Master) (k : Nat) (v : Word)
  /-- NVME_COMPLETION (R415): An NVMe command completes, is retried, or gives a media or deferred error. -/
  | nvmeCompletion (k id status cor uncor temp : Nat)
  /-- NVME_CMD_TIMEOUT (R415): A command outstanding beyond CMD_TO is aborted. -/
  | nvmeCmdTimeout (k id : Nat)
  /-- NVME_ABORT_TIMEOUT (R415): An abort not complete within CMD_TO takes the SSD to RECOVERY. -/
  | nvmeAbortTimeout (k id : Nat)
  /-- PCIE_LANE_FAIL (R414): A failed lane retrains the link narrower, or to RECOVERY. -/
  | pcieLaneFail (k lane : Nat)
  /-- NS_LOAD (R416): Namespace command LOAD. -/
  | nsLoad (m : Master)
  /-- NS_STORE (R418): Namespace command STORE, checked for geometry, overlap and Cocoon room. -/
  | nsStore (m : Master)
  /-- NS_DISABLE (R418): Namespace command DISABLE completes once outstanding commands complete. -/
  | nsDisable (m : Master)
  /-- DIRTY_CLEAN_TIMEOUT (R421): A region's dirty bit clears CLEAN_MS after its last buffered write reaches media. -/
  | dirtyCleanTimeout (k r : Nat)
  /-- REC_SESS_LOAD (R426): Recording command LOAD. -/
  | recSessLoad (m : Master)
  /-- REC_SESS_STORE (R426): Recording command STORE, or rejection. -/
  | recSessStore (m : Master)
  /-- REC_SESS_STOP (R443): Recording command STOP after the item in progress. -/
  | recSessStop (m : Master)
  /-- REC_ITEM_TAKE (R427): A recording session writes an item's data and index entry. -/
  | recItemTake (c : Nat)
  /-- INDEX_FLUSH_TIMEOUT (R428): An index block is written at most 1 ms after its first unwritten entry. -/
  | indexFlushTimeout (c : Nat)
  /-- REC_ITEM_RETURN (R428): An item whose data and index are acknowledged is returned and ITEM_EVC produced. -/
  | recItemReturn (c : Nat)
  /-- CTI_ENABLE (R431): Setting CTI_CTRL.EN enters READY or RESUMING, reporting dirty regions. -/
  | ctiEnable (v : Word)
  /-- CTI_DISABLE (R431): Clearing CTI_CTRL.EN deletes every queue and returns to DISABLED. -/
  | ctiDisable (v : Word)
  /-- SQ_TAIL (R433): A submission doorbell advances the tail, or fails the queue. -/
  | sqTail (q : Nat) (v : Word)
  /-- CQ_HEAD (R433): A completion doorbell frees completion entries, or fails the queue. -/
  | cqHead (q : Nat) (v : Word)
  /-- CTI_COMMAND_FETCH (R432): A command is fetched with its tag and checked against format and state. -/
  | ctiCommandFetch (q : Nat) (ws : Words) (segs : List (Nat × Nat × Nat)) (err : Bool)
  /-- READ (R436): CTI READ returns blocks in queue order. -/
  | read (q tag : Nat)
  /-- WRITE (R420): CTI WRITE writes blocks, acknowledged under MEDIA or BUFFER mode. -/
  | write (q tag : Nat) (data : List Byte) (err : Bool)
  /-- CTI_FLUSH (R437): CTI FLUSH completes when earlier acknowledged writes are on media. -/
  | ctiFlush (q tag : Nat)
  /-- TRIM (R419): CTI TRIM deallocates blocks. -/
  | trim (q tag : Nat)
  /-- IDENTIFY (R433): CTI IDENTIFY returns controller or namespace data. -/
  | identify (tag : Nat)
  /-- CREATE_QUEUE (R432): CTI CREATE_QUEUE creates an I/O queue pair. -/
  | createQueue (tag : Nat)
  /-- DELETE_QUEUE (R432): CTI DELETE_QUEUE removes a queue and its unstarted commands. -/
  | deleteQueue (tag : Nat)
  /-- ABORT (R438): CTI ABORT is decided at fetch against the command holding the tag. -/
  | abort (tag : Nat)
  /-- GET_LOG (R425): CTI GET_LOG returns deferred errors, health or progress, and with ACK marks entries read. -/
  | getLog (tag : Nat)
  /-- FORMAT (R440): CTI FORMAT commits a progress record and starts trimming or zeroing. -/
  | format (tag : Nat)
  /-- SANITISE (R440): CTI SANITISE commits a progress record and starts its passes. -/
  | sanitise (tag : Nat)
  /-- FORMAT_PART_DONE (R441): A part of a format or sanitise on media is committed and PROGRESS advances. -/
  | formatPartDone (k : Nat)
  /-- CTI_COMPLETION_POST (R432): A completion is posted once the completion ring has room. -/
  | ctiCompletionPost (q : Nat)
  /-- CTI_AGG_TIMEOUT (R435): AGG_US after the oldest pending completion raises the MSI-X vector. -/
  | ctiAggTimeout (q : Nat)
  /-- FUNCTION_LEVEL_RESET (R620): A PCIe Function Level Reset clears CTI EN and the MSI-X table and configuration space. -/
  | functionLevelReset
  /-- Q_LOAD (R446): Queue command LOAD. -/
  | qLoad (m : Master)
  /-- Q_STORE (R446): Queue command STORE writes a queue's state, or rejects it. -/
  | qStore (m : Master)
  /-- ENABLE (R446): Queue command ENABLE. -/
  | enable (m : Master)
  /-- DISABLE (R446): Queue command DISABLE. -/
  | disable (m : Master)
  /-- PIN (R446): Queue command PIN pins the state in the cache. -/
  | pin (m : Master)
  /-- UNPIN (R446): Queue command UNPIN releases the pin. -/
  | unpin (m : Master)
  /-- SET_CLASS (R446): Queue command SET_CLASS changes the queue's QoS class. -/
  | setClass (m : Master)
  /-- QUEUE_PUSH (R447): A hardware push lands on a queue, waits in the push buffer, or is dropped. -/
  | queuePush (p q : Nat) (d : Words) (e : ReadErr)
  /-- PUSH_BUFFER_DRAIN (R449): A waiting push lands when its queue gains space. -/
  | pushBufferDrain (q : Nat)
  /-- PUSH_TIMEOUT (R449): A waiting push not landed within PUSH_TO is dropped. -/
  | pushTimeout (q : Nat)
  /-- QUEUE_TAKE (R447): A hardware consumer takes the descriptor at HEAD, reissued items first. -/
  | queueTake (p q : Nat) (e : ReadErr)
  /-- PUSH_GO (R450): A QM1 software port push, without waiting. -/
  | pushGo (m : Master) (i : Nat) (v : Word)
  /-- TAKE_GO (R450): A QM1 software port take, without waiting. -/
  | takeGo (m : Master) (i : Nat) (v : Word)
  /-- QSTATE_BASE_WRITE (R473): A QSTATE_BASE write writes cached states back, drops them and releases pins. -/
  | qstateBaseWrite (m : Master) (hi : Bool) (v : Word)
  /-- G_LOAD (R471): Guard command LOAD. -/
  | gLoad (m : Master)
  /-- G_STORE (R471): Guard command STORE for a firmware entry. -/
  | gStore (m : Master)
  /-- G_DISABLE (R471): Guard command DISABLE for a firmware entry. -/
  | gDisable (m : Master)
  /-- EVENT_DELIVER (R477): A channel delivers its merged assertions to the bound input, which accepts or misses it. -/
  | eventDeliver (c : Nat)
  /-- MIN_GAP_EXPIRY (R481): At the end of the gap the held event is delivered. -/
  | minGapExpiry (c : Nat)
  /-- RATE_WINDOW_END (R482): At the end of each 1 ms window, channels over RATE_LIMIT set LOOP. -/
  | rateWindowEnd
  /-- SW_FIRE (R487): Writing SW_FIRE asserts a channel in the next tick. -/
  | swFire (m : Master) (v : Word)
  /-- PIN_INPUT_EDGE (R489): A filtered edge on an input pin port asserts its channel. -/
  | pinInputEdge (q : Nat) (level : Bool)
  /-- PIN_PULSE_END (R489): An output pin pulse ends and any pending PIN_CFG write takes effect. -/
  | pinPulseEnd (q : Nat)
  /-- PIN_CFG_WRITE (R489): A PIN_CFG write configures a pin port, or is discarded for MODE 3. -/
  | pinCfgWrite (m : Master) (q : Nat) (v : Word)
  /-- FAULT_REPORT (R493): A page's fault report reaches the aggregator, which records it and acts by severity. -/
  | faultReport (p : Nat)
  /-- FENCE_NOTICE (R495): The notice of a fence writes a Silk FENCED record. -/
  | fenceNotice (p : Nat)
  /-- SRAM_SCRUB_STEP (R500): An on-chip or Cocoon scrubber reads, corrects and writes back the next word. -/
  | sramScrubStep (p k word remaps : Nat) (e : ReadErr) (hard : Bool) (lap : Option Nat)
  /-- ENGINE_CONDEMN (R507): The Warden condemns an engine: fences its port and reissues its holds. -/
  | engineCondemn (p c : Nat)
  /-- CONDEMN (R506): WARDEN CMD CONDEMN condemns the named engine. -/
  | condemn (m : Master) (v : Word)
  /-- MOULT_DRAIN_DONE (R507): When the condemned port has drained, reissued items become visible. -/
  | moultDrainDone (p : Nat)
  /-- DRAIN_TIMEOUT (R507): A drain not done in 16 µs sets DRAIN_TIMEOUT and proceeds. -/
  | drainTimeout (p : Nat)
  /-- MOULT (R507): After the Moult map is committed, a spare takes the logical ID and starts. -/
  | moult (p : Nat)
  /-- ZOMBIE_DROP (R510): A transaction from a condemned engine is dropped at its cluster port. -/
  | zombieDrop (p a : Nat)
  /-- SPARE_BIST_TIMER (R512): Every SPARE_BIST_S the Warden tests the next spare. -/
  | spareBistTimer
  /-- ACTIVATE (R517): SVC command ACTIVATE. -/
  | activate (m : Master) (n : Nat)
  /-- QUIESCE (R517): SVC command QUIESCE. -/
  | quiesce (m : Master) (n : Nat)
  /-- SVC_RESET (R589): SVC command RESET, accepted only for a verified image. -/
  | svcReset (m : Master) (n : Nat)
  /-- PAIR_BIST_DONE (R590): A pair's BIST ends in QUIESCED, HELD or FAILED. -/
  | pairBistDone (n : Nat) (pass : Bool)
  /-- LOCKSTEP_MISMATCH (R550): A comparator mismatch fences the pair and moves its interrupts. -/
  | lockstepMismatch (n : Nat)
  /-- FIND_CMD (R520): COCOON FIND chooses the current copy of a slot. -/
  | findCmd (m : Master) (v : Word)
  /-- WR_GO (R524): COCOON WR_GO requests a firmware record write, or rejects it. -/
  | wrGo (m : Master) (v : Word)
  /-- COCOON_WRITE_DONE (R519): A record copy is written, or fails with WRITE_FAIL. -/
  | cocoonWriteDone (bad : List Nat)
  /-- SILK_RECORD (R526): Silk writes a record, or drops it when the buffer is full. -/
  | silkRecord
  /-- SW_GO (R527): SILK SW_GO writes a firmware record. -/
  | swGo (m : Master) (v : Word)
  /-- SNAP_CMD (R529): SILK SNAP_CMD requests a snapshot. -/
  | snapCmd (m : Master) (v : Word)
  /-- SNAPSHOT_DONE (R529): A snapshot copy ends and its header is committed. -/
  | snapshotDone
  /-- POWER_FAIL_WARNING (R531): PFW_N low for 2 µs abandons writes and takes the power-fail snapshot. -/
  | powerFailWarning
  /-- FN_CLR (R545): A keyed FN_CLR clears latched FAULT_N causes that are not active. -/
  | fnClr (m : Master) (v : Word)
  /-- FN_SW_WRITE (R544): A write of FN_SW.REQUEST activates or ends the SOFTWARE cause. -/
  | fnSwWrite (m : Master) (v : Word)
  /-- ARM (R548): A keyed HB_CTRL.ARM arms the heartbeat and loads the token. -/
  | arm (m : Master) (v : Word)
  /-- HB_KICK (R548): A kick is accepted and toggles ALIVE, or is a heartbeat failure. -/
  | hbKick (m : Master) (v : Word)
  /-- HB_TIMEOUT (R549): No accepted kick by HB_MAX is a heartbeat failure. -/
  | hbTimeout
  /-- LS_TEST (R552): Writing LS_TEST exercises a pair's comparator. -/
  | lsTest (m : Master) (v : Word) (missed : Nat)
  /-- VIEW_EVALUATE (R554): A view judges a display frame and may become FAILED. -/
  | viewEvaluate (v f : Nat)
  /-- VIEW_CLR (R555): VIEW_CLR clears a FAILED view at its next evaluation. -/
  | viewClr (m : Master) (i : Nat) (v : Word)
  /-- CONFIG_CHECK_RUN (R557): Every 10 ms the listed registers are read and their CRC compared. -/
  | configCheckRun (late : Bool)
  /-- CLOCK_MONITOR_WINDOW (R558): Each 10 µs window compares the oscillator and PLLs with the monitor. -/
  | clockMonitorWindow (dev : Nat)
  /-- SUPPLY_WINDOW (R559): A rail out of window for 2 µs sets its SUP_STAT bit. -/
  | supplyWindow (r : Nat) (out : Bool)
  /-- FAULT_INJECT (R561): A keyed PG_FAULT_INJ write injects a fault bit or check-bit error. -/
  | faultInject (m : Master) (p : Nat) (v : Word)
  /-- EYE_INJ (R562): EYE_INJ makes a region's next comparison fail. -/
  | eyeInj (m : Master) (v : Word)
  /-- DOMAIN_ON_REQUEST (R565): Setting a DOM_REQ bit switches its domain on in its turn. -/
  | domainOnRequest (m : Master) (i : Nat) (v : Word)
  /-- DOMAIN_READY (R565): A switched-on domain becomes ready and its DOM_STAT bit is set. -/
  | domainReady
  /-- DOMAIN_OFF_REQUEST (R566): Clearing a DOM_REQ bit fences and switches off the domain, or is refused by a hold. -/
  | domainOffRequest (m : Master) (i : Nat) (v : Word)
  /-- STANDBY_REQUEST (R571): A keyed STATE_REQ to STANDBY. -/
  | standbyRequest (m : Master) (v : Word)
  /-- DORMANT_REQUEST (R571): A keyed STATE_REQ to DORMANT. -/
  | dormantRequest (m : Master) (v : Word)
  /-- ACTIVE_REQUEST (R571): A keyed STATE_REQ from STANDBY to ACTIVE. -/
  | activeRequest (m : Master) (v : Word)
  /-- WAKE (R573): A wake source takes the Coneda out of STANDBY or DORMANT. -/
  | wake
  /-- THERMAL_SAMPLE (R579): A 10 kHz sample updates zones, crossings, throttling and PRE_TRIP. -/
  | thermalSample (raw : List Int)
  /-- THERMAL_TRIP (R582): The trip removes power, enters TRIPPED and commits RESTART. -/
  | thermalTrip
  /-- THERMAL_RESTART (R583): When every valid sensor has cooled, the Coneda starts from step 2. -/
  | thermalRestart
  /-- SENSOR_CHECK (R576): Every 100 ms each sensor is checked against its zone's reference diode. -/
  | sensorCheck (diode : List Int)
  /-- COMPENSATION_RUN (R584): Every 10 ms oscillator, bandgap and DRAM codes are corrected for temperature. -/
  | compensationRun
  /-- CONFIRM (R587): A keyed CONFIRM clears TRIAL and TRIES. -/
  | confirm (m : Master) (v : Word)
  /-- PREF (R587): A keyed PREF commits a new slot preference and TRIAL flag. -/
  | pref (m : Master) (v : Word)
  /-- VER_ADV (R588): A keyed VER_ADV raises the SEC_VERSION fuse counter. -/
  | verAdv (m : Master) (v : Word)
  /-- VERIFY_CMD (R589): VERIFY_CMD starts checking an image in DRAM. -/
  | verifyCmd (m : Master) (v : Word)
  /-- VERIFY_DONE (R589): Image verification ends with PASS and VALID, or FAIL. -/
  | verifyDone
  /-- XSPI_READ (R585): XSPI_CMD read copies flash into DRAM. -/
  | xspiRead (m : Master) (v : Word)
  /-- XSPI_PROGRAM (R585): XSPI_CMD programs a 256-byte page. -/
  | xspiProgram (m : Master) (v : Word)
  /-- XSPI_ERASE (R585): XSPI_CMD erases a 64 KiB sector. -/
  | xspiErase (m : Master) (v : Word)
  /-- XSPI_DONE (R585): An xSPI operation ends with DONE or ERROR. -/
  | xspiDone (ok : Bool)
  /-- START_UP (R591): The start-up sequence runs from PWR_GOOD, or from the step a restart names, to handover. -/
  | startUp (upTo : Nat) (e : StartEnv)
  /-- START_UP_FULL (R593): After step 9, the first sweep lap and every record, START_STAT.FULL is set. -/
  | startUpFull
  /-- PWR_GOOD_RISE (R594): PWR_GOOD rising starts the Coneda with RESET_CAUSE 0. -/
  | pwrGoodRise (pfwLow ram : Bool)
  /-- PWR_GOOD_FALL (R631): A filtered fall of PWR_GOOD resets every part of the Coneda. -/
  | pwrGoodFall
  /-- RESET_N (R633): RESET_N low for 1 µs restarts the Coneda with RESET_CAUSE 1. -/
  | resetN (level : Bool)
  /-- RESET_CMD (R594): A keyed GLOBAL.RESET_CMD.FULL restarts the Coneda. -/
  | resetCmd (m : Master) (v : Word)
  /-- PFW_N_RELEASE (R594): PFW_N high again for 10 ms restarts with RESET_CAUSE 5. -/
  | pfwNRelease
  /-- MAIN_RAIL_TIMEOUT (R632): Main rails not in window 50 ms after MAIN_PWR_EN halt start-up at step 3. -/
  | mainRailTimeout
  /-- SWI_WRITE (R617): A write of SWI sets or clears a core's machine software interrupt. -/
  | swiWrite (h : Nat) (v : Word)
  /-- MTIMECMP_MATCH (R617): mtime reaching mtimecmp makes the machine timer interrupt pending. -/
  | mtimecmpMatch (h : Nat)
  /-- MSIX_MESSAGE (R618): A page's interrupt line rising sends its MSI-X message. -/
  | msixMessage (p : Nat)
  /-- MAINT_WRITE (R622): A maintenance-port write transaction with CRC is performed or NACKed. -/
  | maintWrite (addr data crc : Nat) (late : Bool)
  /-- MAINT_READ (R623): A maintenance-port read returns words with status and CRC. -/
  | maintRead (addr crc count : Nat) (late : Bool)
  /-- M_DOORBELL (R624): Writing M_DOORBELL sets DOORBELL and its interrupt. -/
  | mDoorbell (m : Master) (v : Word)
  /-- EYE_SCAN_GO (R644): EYE_CMD GO starts an eye scan on a Swift lane. -/
  | eyeScanGo (m : Master) (n : Nat) (v : Word)
  /-- EYE_SCAN_ABORT (R644): EYE_CMD ABORT ends the scan with status 1. -/
  | eyeScanAbort (m : Master) (n : Nat) (v : Word)
  /-- EYE_SCAN_DONE (R644): An eye scan completes, or ends on loss of lock with status 2. -/
  | eyeScanDone (n errs : Nat) (lost : Bool)
  /-- TX_EQ_WRITE (R644): A TX_EQ write out of range is discarded and sets CFG_INVALID. -/
  | txEqWrite (m : Master) (n : Nat) (v : Word)
  /-- CSTS_CFS (R415): The SSD raises CSTS.CFS, its controller fatal status, and the SSD goes to RECOVERY, from which it reinitialises and reissues its outstanding commands. -/
  | cstsCfs (k : Nat)
  /-- PLL_LOSS_OF_LOCK (R595): A PLL loses lock, which increments its loss-of-lock count in PLL_STATp and sets CLOCKS PG_FAULT bit 8, PLL_UNLOCK. -/
  | pllLossOfLock (p : Nat) (locked : Bool)
  /-- LATCHING_LOW_READ (R617): A read of the low word of a 64-bit register that is not a ruler (mtime, CAP_LO, PENDING_JUMP_LO, RETIRED_LO, FS_TIME_LO, WINDOW_LO, EYE_ERR_LO, SNAP_TIME_SEC_LO) latches its high word, and for SNAP_TIME_SEC_LO also clears SNAP_STAT.VALID. -/
  | latchingLowRead (m : Master) (a len : Nat)
  /-- RECEIVE_QUEUE_POP (R136): A read of DLK BC_RX1 pops the 16-entry back-channel receive queue, and a read of I3C_RXDATA takes 4 bytes from the I3C receive FIFO. -/
  | receiveQueuePop (m : Master) (a len : Nat)
deriving DecidableEq, Repr

end Sys2Proof
end

