-- ==== Sys2Proof/Decode.lean ====
section
/-!
DEFINITION. The word decoder that the host asks for. The Coneda takes commands from its masters, ports and blocks; the table
of its commands gives no row any bits, so no word spells a command (notes/assumptions/3.md).
-/

namespace Sys2Proof

/-- The command that a word spells by the table's bits: none, since no row of the table has any. -/
def decodeTableWord (_nbits _w : Nat) : Option Instr := none

end Sys2Proof
end

