-- ==== Sys2Proof/Config.lean ====
section
/-!
DEFINITION. What the spec leaves open: values that some block produces and no rule states. Every one is a constant
without a body, applied to a counter of the state (`State.free`) or to the operands, so that nothing in Lean can tell
its value (notes/assumptions/1.md).
-/

namespace Sys2Proof.Config

/-- A word that the spec does not state, fresh for each number. -/
opaque freeWord : Nat → Word

/-- A natural number that the spec does not state, fresh for each number. -/
opaque freeNat : Nat → Nat

/-- Bytes that the spec does not state (a coded picture, a packet a foreign device fills), fresh for each number and
length. -/
opaque freeByte : Nat → Nat → Byte

/-- The fixed zone of each switched domain, which PWR3.ZONE_MAP shows and no table of the spec gives (R569). -/
opaque zoneOf : Nat → Fin 8

/-- The subsystem Vendor ID and subsystem IDs that fuses give the PCIe endpoint (R619). -/
opaque fuseIds : Nat → Word

/-- Bits of the engines' reciprocal and reciprocal square-root results, which the spec bounds and does not state (R254). -/
opaque recipApprox : Word → Word
opaque rsqrtApprox : Word → Word

/-- FMIN and FMAX of a NaN and of zeros of opposite sign, which IEEE 754 leaves to the implementation (R254): maximum or
minimum, and the operands. -/
opaque minMaxOpen : Bool → Word → Word → Word

/-- The noise variance of R168, R171 and R173 where the parameters make it negative, which the spec gives no root. -/
opaque negVar : Int × Nat → Int × Nat

/-- The raw pipes' functions that the spec bounds by an error and does not state bit by bit: base-2 logarithm and
exponential (R183), power (R185), the transfer functions' 0.45 power, PQ and HLG encodings (R199) and the scaler's
coefficients in 1/2^14 for a filter, ratio in 1/2^16, centre phase and tap (R193). Arguments and results are fractions. -/
opaque log2 : Int × Nat → Int × Nat
opaque exp2 : Int × Nat → Int × Nat
opaque pow : Int × Nat → Int × Nat → Int × Nat
opaque transfer : Nat → Int × Nat → Int × Nat
opaque scaleCoef : Nat → Nat → Nat → Nat → Int

/-- The frequency that a PHASE PLL settles on after an accepted crossing (R68, LOOP_CFG.BW_SHIFT): of the frequency in
force in units of 2^-16 Hz, the phase error in 2^-32 cycle and BW_SHIFT. The spec bounds it by the capture range and
gives no loop. -/
opaque pllFreq : Nat → Int → Nat → Nat

/-- Whether the fitted LPDDR5X devices require refresh management, and their RAAIMT (R468; JESD209-5C gives both per
device). -/
opaque rfmRequired : Bool
opaque raaimt : Nat

/-- Display composition (R336): the code that a blended value which is no integer becomes; the source position of a scaled
layer's pixel (bilinear, source size, destination size, pixel) with the weight of the next source pixel; a chroma value
between the samples around it, from the pixel's parities; and the initial transmission delay of DSC 1.2a's rate-control
model (R330) for BPP, SLICES and SLICE_H. -/
opaque composeCode : Int × Nat → Nat
opaque layerTap : Bool → Nat → Nat → Nat → Nat × (Int × Nat)
opaque chromaMix : Nat → Nat → List Nat → Int × Nat
opaque xmitDelay : Nat → Nat → Nat → Nat

/-- The fixed transmit latency of a MAC in ns (R386), by MAC, and the frequency that the servo's proportional-integral loop sets
in 2^-16 ppm (R409), of the offset in ns, the frequency in force, KP_SHIFT and KI_SHIFT. -/
opaque macLatency : Nat → Nat
opaque servoLoop : Int → Int → Nat → Nat → Int

/-- The PCS lane that Swift lane `l` of a MAC of several lanes carries since a tick (ETH_LSTAT), and what the receiver's
equaliser reports in RX_EQ at a tick (R643): CTLE peaking and DFE tap 1. -/
opaque pcsLane : Nat → Nat → Nat
opaque rxEq : Nat → Nat → Nat × Nat

/-- Whether the warning image is centred one pixel further right or down where the difference of the two sizes is odd (R350). -/
opaque centreUp : Nat → Nat → Bool

/-- What an SSD's media hold where the block has written nothing (chapter 12): root port, 4 KiB unit, byte. -/
opaque mediaByte : Nat → Nat → Nat → Byte

/-- The boot ROM's contents (R596), and the levels of balls MADDR1 and MADDR0 (R621). -/
opaque bootRom : Nat → Byte
opaque maddr : Fin 4

/-- The length in ticks, less 1, of the windows over which a controller measures what classes 0 and 1 use of their reservations,
which R26 to R29 do not state. -/
opaque qosWindow : Nat

end Sys2Proof.Config
end

