-- ==== Sys2Proof/Machine/Bits.lean ====
section
/-!
DEFINITION. Bit fields of register words (written [msb:lsb] in the spec), signed reading of a field, saturating
counts, byte order, and the operations on sparse tables.
-/

namespace Sys2Proof.Machine

/-- Field of `n` bits from bit `lo` upwards. -/
def wfld (w : Word) (lo n : Nat) : Nat := w.toNat / 2 ^ lo % 2 ^ n

/-- The word with its field of `n` bits from bit `lo` upwards replaced by `v` modulo 2^n. -/
def wset (w : Word) (lo n v : Nat) : Word :=
  BitVec.ofNat 32 (w.toNat % 2 ^ lo + (v % 2 ^ n) * 2 ^ lo + w.toNat / 2 ^ (lo + n) * 2 ^ (lo + n))

/-- Bit `i` of a word. -/
def bitAt (w : Word) (i : Nat) : Bool := wfld w i 1 == 1

/-- The word with bit `i` set to `b`. -/
def setBit (w : Word) (i : Nat) (b : Bool) : Word := wset w i 1 b.toNat

/-- A word from a natural number, modulo 2^32. -/
def wd (n : Nat) : Word := BitVec.ofNat 32 n

/-- A natural number of `n` bits read as two's complement. -/
def signed (n v : Nat) : Int := if v % 2 ^ n < 2 ^ (n - 1) then (v % 2 ^ n : Nat) else (v % 2 ^ n : Nat) - 2 ^ n

/-- An integer as an `n`-bit two's complement number. -/
def unsigned (n : Nat) (v : Int) : Nat := (v % (2 ^ n : Nat)).toNat

/-- An integer saturated to the range of an `n`-bit two's complement number. -/
def satS (n : Nat) (v : Int) : Int := max (-(2 ^ (n - 1) : Int)) (min (2 ^ (n - 1) - 1 : Int) v)

/-- Add `k` to a field that saturates at its largest value. -/
def satAdd (w : Word) (lo n k : Nat) : Word := wset w lo n (min (2 ^ n - 1) (wfld w lo n + k))

/-- Add `k` to a field that wraps. -/
def wrapAdd (w : Word) (lo n k : Nat) : Word := wset w lo n (wfld w lo n + k)

/-- Select `v`'s bits under the mask and `w`'s bits elsewhere. -/
def mergeMask (mask : Nat) (w v : Word) : Word := (w &&& ~~~(wd mask)) ||| (v &&& wd mask)

/-- The lowest set bit's index below `n`, or `none`. -/
def lowestBit (w n : Nat) : Option Nat := (List.range n).find? (fun i => w.testBit i)

/-- Number of set bits of a natural number below bit `n`. -/
def popCount (w n : Nat) : Nat := ((List.range n).filter (fun i => w.testBit i)).length

/-- Parity of the set bits of a natural number below bit `n`. -/
def parity (w n : Nat) : Nat := popCount w n % 2

/-- Little-endian bytes of a number. -/
def leBytes : Nat → Nat → List Byte
  | 0, _ => []
  | n + 1, v => BitVec.ofNat 8 v :: leBytes n (v / 256)

/-- The number that little-endian bytes stand for. -/
def ofLeBytes : List Byte → Nat
  | [] => 0
  | b :: bs => b.toNat + 256 * ofLeBytes bs

/-- Little-endian 32-bit words of a number. -/
def leWords : Nat → Nat → Words
  | 0, _ => []
  | n + 1, v => wd v :: leWords n (v / 2 ^ 32)

/-- Bytes of a list of words, each little-endian. -/
def wordsBytes (ws : Words) : List Byte := ws.flatMap (fun w => leBytes 4 w.toNat)

/-- Words of a list of bytes, each little-endian; `n` words. -/
def bytesWords : Nat → List Byte → Words
  | 0, _ => []
  | n + 1, bs => wd (ofLeBytes (bs.take 4)) :: bytesWords n (bs.drop 4)

/-- Word `i` of a list of words, 0 beyond its end. -/
def wordAt (ws : Words) (i : Nat) : Word := ws.getD i 0

/-- 64-bit value of words `i` and `i + 1`, low word first. -/
def dwordAt (ws : Words) (i : Nat) : Nat := (wordAt ws i).toNat + 2 ^ 32 * (wordAt ws (i + 1)).toNat

/-- The value a table holds at a key; `d` gives what an unlisted key reads as. -/
def Map.get {α : Type} (d : Nat → α) : Map α → Nat → α
  | [], k => d k
  | (k', v) :: m, k => if k = k' then v else Map.get d m k

/-- Remove a key. -/
def Map.del {α : Type} (m : Map α) (k : Nat) : Map α := m.filter fun e => e.1 != k

/-- Insert or replace a key, keeping the keys rising. -/
def Map.ins {α : Type} : Map α → Nat → α → Map α
  | [], k, v => [(k, v)]
  | (k', v') :: m, k, v =>
    if k = k' then (k, v) :: m else if k < k' then (k, v) :: (k', v') :: m else (k', v') :: Map.ins m k v

/-- Write a key: an entry equal to the default is not listed. -/
def Map.put {α : Type} [DecidableEq α] (d : Nat → α) (m : Map α) (k : Nat) (v : α) : Map α :=
  if v = d k then Map.del m k else Map.ins m k v

/-- Keep only the entries whose key satisfies `p`. -/
def Map.keep {α : Type} (p : Nat → Bool) (m : Map α) : Map α := m.filter (fun e => p e.1)

/-- The keys of a table rise strictly from above `lo` on, and no entry equals the default. -/
def Map.wfFrom {α : Type} [DecidableEq α] (d : Nat → α) : Nat → Map α → Bool
  | _, [] => true
  | lo, (k, v) :: m => decide (lo ≤ k) && decide (v ≠ d k) && Map.wfFrom d (k + 1) m

/-- The canonical form of a table. -/
def Map.wf {α : Type} [DecidableEq α] (d : Nat → α) (m : Map α) : Bool := Map.wfFrom d 0 m

/-- One bit step of a reflected CRC with polynomial `poly`. -/
def crcStep (poly : Nat) : Nat → Nat → Nat
  | 0, c => c
  | k + 1, c => crcStep poly k (if c % 2 = 1 then Nat.xor (c / 2) poly else c / 2)

/-- CRC-32C over bytes with initial value and final XOR 0xFFFF_FFFF (R343, R557). -/
def crc32c (bs : List Byte) : Nat :=
  Nat.xor (bs.foldl (fun c b => crcStep 0x82F63B78 8 (Nat.xor c b.toNat)) 0xFFFFFFFF) 0xFFFFFFFF

/-- The CRC-8 of R100 and R621: polynomial x^8 + x^2 + x + 1, initial value 0, most significant bit first. -/
def crc8 (bs : List Byte) : Nat :=
  bs.foldl (fun c b => (List.range 8).foldl (fun a _ => if a.testBit 7 then Nat.xor (a * 2 % 256) 7 else a * 2 % 256) (Nat.xor c b.toNat)) 0

/-- `a ≤ b` in serial arithmetic mod 2^32 (R219). -/
def serialLe (a b : Nat) : Bool := decide ((b + 2 ^ 32 - a % 2 ^ 32) % 2 ^ 32 < 2 ^ 31)

/-- `a < b` in serial arithmetic mod 2^32. -/
def serialLt (a b : Nat) : Bool := serialLe a b && decide (a % 2 ^ 32 ≠ b % 2 ^ 32)

/-- Replace bits of word `i` of a list of words. -/
def wput (ws : Words) (i : Nat) (v : Word) : Words :=
  (ws ++ List.replicate (i + 1 - ws.length) 0).set i v

/-- A list cut or filled to `n` entries. -/
def fit {α : Type} (n : Nat) (x : α) (l : List α) : List α := l.take n ++ List.replicate (n - l.length) x

end Sys2Proof.Machine
end

