-- ==== Sys2Proof/Machine/State.lean ====
section
/-!
DEFINITION. The state of the Coneda as plain data: its registers, and beside them every piece of state the spec's
rules give its blocks that no register shows. Every register holds a value at reset: a register that `regs` does not
list holds its reset value. The names follow the spec's; each record's docstring cites the rules.
-/

namespace Sys2Proof.Machine

open Sys2Proof

/-! ## Registers, pages and reads -/

/-- What the model keeps per register page beside its registers: an outstanding unlock (R610) with the tick it was
granted, BUSY (R602), whether its interrupt line was 1 at the last look (R618), and whether the trigger of its pending
commit has come (R608), the tick of the COMMIT, the kind of a check-bit injection that waits for a write (R561), and the tick in
which FREEZE was cleared while the latched values still show (R603); and the PG_FAULT and PG_INT_STAT bits that hardware
has set in the tick `hwAt`, with those PG_FAULT bits that stood at 1 when it did (R605); the tick of its last fence (R49); and, per
command status register that shows BUSY for a stated time, the tick from which it no longer does (R75, R446). -/
structure PageRt where
  unlock : Option (Master × Nat) := none
  busy : Bool := false
  line : Bool := false
  commitDue : Bool := false
  commitAt : Nat := 0
  inject : Nat := 0
  thaw : Option Nat := none
  hwAt : Nat := 0
  hwFault : Nat := 0
  hwAgain : Nat := 0
  hwInt : Nat := 0
  fencedAt : Nat := 0
  cmds : Map Nat := []
deriving DecidableEq, Repr

/-- The model's own read port: the value and kind of the last read's answer (DESIGN CHOICE, notes/assumptions/2.md).
`status` is the maintenance port's code of R623; `poison` and `err` mark an error response (R596, R598, R620);
`words` is a descriptor or a longer answer. -/
structure Response where
  value : Word := 0
  poison : Bool := false
  err : Bool := false
  status : Nat := 0
  words : Words := []
deriving DecidableEq, Repr

/-- One request waiting at an arbitration point (R24 to R27): its QoS class, the page of its master, the memory controller that it
is for (16: none), its bytes and an arrival number. -/
structure FabReq where
  cls : Nat
  page : Nat
  ctl : Nat
  bytes : Nat
  age : Nat
deriving DecidableEq, Repr

/-- An arbitration point; points 0 to 15 are those of the memory controllers. The waiting requests in arrival order, the grants
since class 3 was last granted, the last grant, the accepted transactions that have not been performed, with the tick of their
grant (R47, R49), and the number of the measuring window with the bytes that classes 0 and 1 have used in it (R26, R28). -/
structure ArbPoint where
  wait : List FabReq := []
  sinceBulk : Nat := 0
  arrivals : Nat := 0
  last : Option FabReq := none
  accepted : List (Nat × FabReq) := []
  win : Nat := 0
  used0 : Nat := 0
  used1 : Nat := 0
deriving DecidableEq, Repr

/-! ## Event fabric (chapter 14) -/

/-- A channel of the event fabric: ticks of the assertions not yet delivered, oldest first (R477, R478); the end of
the running gap, if any, and whether an event is held in it (R481); the count and limit of the current 1 ms window
(R482, R484). -/
structure Channel where
  pend : List Nat := []
  gapEnd : Nat := 0
  held : Bool := false
  winCount : Nat := 0
  winLimit : Nat := 0
deriving DecidableEq, Repr

/-- A pin port of EVF1 (R489): the level of ball GPIOp, whether the port drives it, the end of the pulse in progress
and a PIN_CFG write waiting for that end. -/
structure PinPort where
  level : Bool := false
  driving : Bool := false
  pulseEnd : Option Nat := none
  pendCfg : Option Word := none
deriving DecidableEq, Repr

/-- The event fabric's state beside its registers: channels, pin ports, the task inputs that are busy (R479),
keyed page * 4 + input, the number of the 1 ms window in progress (R482), and for each event port, CH_CFG and CH_BIND that was
written the tick of its last write and the value that it had before that tick (R484, R611). -/
structure EventFabric where
  ch : Map Channel := []
  pin : Map PinPort := []
  inBusy : Map Bool := []
  win : Nat := 0
  prev : Map (Option (Nat × Word)) := []
deriving DecidableEq, Repr

/-! ## Dependability (chapter 15) -/

/-- A Silk record before it is written (R525): CODE, PAGE, TIME in ns and DATA0 to DATA2. -/
structure SilkRec where
  code : Nat
  page : Nat
  time : Nat
  d0 : Nat := 0
  d1 : Nat := 0
  d2 : Nat := 0
deriving DecidableEq, Repr

/-- A snapshot being copied (R529): trigger, slot, TIME at the trigger, the first and last SEQ copied, KEEP,
the tick of its start, and the copied records whose ring slot was overwritten since. -/
structure Snapshot where
  trigger : Nat
  slot : Nat
  time : Nat
  firstSeq : Nat
  lastSeq : Nat
  keep : Bool
  start : Nat := 0
  saved : Map (List Byte) := []
deriving DecidableEq, Repr

/-- Silk beside its registers: the input buffer of 64 records (R526), the side buffer of 256 (R530), the snapshot in
progress, a SNAP_CMD that waits with its KEEP, the tick of the last snapshot, and for each snapshot slot the order
number of its snapshot (0: none), and the tick of the last record written (R526). -/
structure Silk where
  buf : List SilkRec := []
  side : List SilkRec := []
  snap : Option Snapshot := none
  waiting : Option Bool := none
  lastSnap : Option Nat := none
  slotOrder : Map Nat := []
  snapCount : Nat := 0
  last : Option Nat := none
deriving DecidableEq, Repr

/-- A request of the Cocoon writer (R519, R523): the rank of R523, the slot's offset in a bank, TYPE, the payload
bytes, whether firmware waits for it through WR_STAT, and TIME in ns when its write began. -/
structure CocoonReq where
  rank : Nat
  off : Nat
  type : Nat
  payload : List Byte
  firmware : Bool := false
  begun : Option Nat := none
deriving DecidableEq, Repr

/-- A fence waiting for its notice (R495): the lowest page of the block, the cause of the FENCED record, the fault bit, and
whether the block's own part of the fence has been carried out. -/
structure FenceNotice where
  page : Nat
  cause : Nat
  bit : Nat
  done : Bool := false
deriving DecidableEq, Repr

/-- Where a Moult sequence stands (R507, R509): draining, drained with its spare chosen, or waiting for a spare. -/
inductive MoultStep where
  | draining
  | drained
  | waiting
deriving DecidableEq, Repr

/-- A Moult in progress: the condemned engine, its logical ID, the cause, the tick of condemnation, the step, the
threads that were not IDLE, CTRL.THREADS, and the spare chosen. -/
structure Moult where
  engine : Nat
  logical : Nat
  cause : Nat
  start : Nat
  step : MoultStep
  threads : List Nat
  count : Nat := 4
  spare : Option Nat := none
deriving DecidableEq, Repr

/-- What the Warden keeps of a physical engine: condemned, retired, condemnation count, drops since its last ZOMBIE
record and that record's tick (R510, R511). Which engines are mapped and which are spares reads in LMAP. -/
structure EngineHealth where
  condemned : Bool := false
  retired : Bool := false
  count : Nat := 0
  drops : Nat := 0
  zombieAt : Option Nat := none
deriving DecidableEq, Repr

/-- A scrubber's history (R502): lap number and the last corrections with their laps, newest first. -/
structure Scrubber where
  lap : Nat := 0
  hist : List (Nat × Nat) := []
  remap : List Nat := []
  hard : List Nat := []
deriving DecidableEq, Repr

/-- What a service-core pair keeps beside SVCn.STAT: a BIST in progress (R515), whether the pair fetches, and a
lockstep test's outcome bits kept in SAFETY. -/
structure Pair where
  bist : Bool := false
  running : Bool := false
deriving DecidableEq, Repr

/-- Dependability state beside the registers: reports and fence notices on their way (R492, R495), the pages whose pending report
had severity 3 (R493, R544), Silk, the Cocoon
writer's queue and its power-fail state (R523, R531), the Warden's engines and Moults (R506 to R512), scrubbers keyed
by page and SRAM, pairs, the spare test's next engine and time, lane failure records, the LOCKSTEP cause (R550), and the
scrub laps that ended in the last second as (tick, ms, page). For chapter 16: the tick of the last accepted kick or arming
(R548), consecutive clock windows above 2 % and within 1 % (R558), and per view the frame evaluated last and the tick of a
VIEW_CLR that waits (R554, R555). -/
structure Dependability where
  reports : List (Nat × Word) := []
  sev3 : List Nat := []
  fences : List FenceNotice := []
  silk : Silk := {}
  cocoon : List CocoonReq := []
  pfw : Bool := false
  engines : Map EngineHealth := []
  moults : List Moult := []
  scrub : Map Scrubber := []
  pairs : Map Pair := []
  spareNext : Nat := 256
  spareAt : Nat := 0
  lane : Map Nat := []
  lockstep : Bool := false
  laps : List (Nat × Nat × Nat) := []
  hbAt : Nat := 0
  clkHigh : Nat := 0
  clkGood : Nat := 0
  viewSeen : Map (Option Nat) := []
  viewClr : Map (Option Nat) := []
deriving DecidableEq, Repr

/-! ## Queue manager and memory controllers (chapter 13) -/

/-- A queue's state (*Queue state*, R444). -/
structure QState where
  ring : Nat := 0
  log2 : Nat := 0
  head : Nat := 0
  tail : Nat := 0
  en : Bool := false
  cls : Nat := 0
  engine : Bool := false
  failed : Bool := false
  evc : Nat := 0
  notify : Bool := false
  pushTo : Nat := 0
  drops : Nat := 0
  reissues : Nat := 0
  peak : Nat := 0
deriving DecidableEq, Repr

/-- A push waiting in the push buffer (R449): the issuing page, the queue, the descriptor and its arrival tick. -/
structure WaitPush where
  page : Nat
  queue : Nat
  desc : Words
  at_ : Nat
deriving DecidableEq, Repr

/-- A taker waiting on a queue (R447): an engine thread (physical engine and thread), or a block page. -/
structure Taker where
  page : Nat
  thread : Nat
  queue : Nat
deriving DecidableEq, Repr

/-- A hold of the hold table (R453): descriptor, queue, class, EPOCH, HANDLE, the item's reissues, HELD,
REISSUE_PENDING, whether the pending reissue is visible to takers (R507), and the order of the original take. -/
structure Hold where
  desc : Words := []
  queue : Nat := 0
  cls : Nat := 0
  epoch : Nat := 0
  handle : Nat := 0
  count : Nat := 0
  held : Bool := false
  pending : Bool := false
  visible : Bool := false
  reissues : Nat := 0
  order : Nat := 0
deriving DecidableEq, Repr

/-- A reissued item waiting on its queue (R454). -/
structure Reissue where
  queue : Nat
  desc : Words
  cls : Nat
  epoch : Nat
  reissues : Nat
  order : Nat
  slot : Nat
  handle : Nat
  visible : Bool
deriving DecidableEq, Repr

/-- The queue manager beside its registers: the cached states, most recently used first (R457), the pinned queues, the
push buffer in arrival order, waiting takers in order, the hold table by slot, reissued items, the count of takes, the queues on which
descriptors landed in the tick `landedAt` (R338), and the stream-context store: owner kind and page, and the 32 words of each context (R458). -/
structure QueueManager where
  cache : List (Nat × QState) := []
  pins : List Nat := []
  pushBuf : List WaitPush := []
  takers : List Taker := []
  hold : Map Hold := []
  reissue : List Reissue := []
  takes : Nat := 0
  landedAt : Nat := 0
  landed : List Nat := []
  scxKind : Map Nat := []
  scxPage : Map Nat := []
  scx : Map Words := []
deriving DecidableEq, Repr

/-- A memory controller beside its registers: activation tables per bank as (row, count) entries (R467), rolling
activation counts per bank (R468), lanes queued for a background sweep (R465), the scrub position, lap number and
start, the block read and not yet written back, the repeat history (R469, R502),
the tick of each data lane's last margin check and of the last oscillator read (R465), and FAST_BOOT. -/
structure DramCtl where
  act : Map (List (Nat × Nat)) := []
  raa : Map Nat := []
  sweep : List Nat := []
  target : Map Nat := []
  scrubbed : Option Nat := none
  dirty : Bool := false
  lap : Nat := 0
  lapStart : Nat := 0
  hist : List (Nat × Nat) := []
  margin : Map (Option Nat) := []
  osc : Option Nat := none
deriving DecidableEq, Repr

/-- An entry of the write-protect guard table (R471). -/
structure Guard where
  en : Bool := false
  base : Nat := 0
  limit : Nat := 0
  exemptEn : Bool := false
  exempt : Nat := 0
  exemptSet : Nat := 0
deriving DecidableEq, Repr

/-- Memory controllers and the guard table. -/
structure DramState where
  ctl : Map DramCtl := []
  guard : Map Guard := []
deriving DecidableEq, Repr

/-! ## Platform (chapter 18) -/

/-- An MSI-X vector (R618). -/
structure MsixVec where
  addr : Nat := 0
  data : Word := 0
  masked : Bool := true
  pending : Bool := false
deriving DecidableEq, Repr

/-- Platform-level interrupt controller (R616), core-local timer region (R617), MSI-X and PCIe configuration space
(R618, R619), the latched high word of mtime, the tick at which mtime was 0, the sources claimed and
not yet completed, mcause and mtval of each pair's last access fault of poison (R499), and the
DRAM range of the verified image while VERIFY_STAT.VALID may stand (R589). -/
structure Platform where
  plicPending : Map Bool := []
  plicRegs : Map Word := []
  swi : Map Bool := []
  mtimecmp : Map Nat := []
  mtip : Map Bool := []
  mtimeLatch : Option Word := none
  msix : Map MsixVec := []
  msgs : List (Nat × Word) := []
  pcieCfg : Map Word := []
  msixEn : Bool := false
  mtimeBase : Nat := 0
  plicClaimed : Map Bool := []
  verified : Option (Nat × Nat) := none
  coreTrap : Map (Nat × Nat) := []
  l1i : Map (List Nat) := []
  l1d : Map (List Nat) := []
  l2 : List Nat := []
  epWidth : Nat := 16
  epBad : Nat := 0
deriving DecidableEq, Repr

/-! ## Rulers and cues (chapter 02) -/

/-- An encoder input (R59, R60): pin levels, the time and signed count of its latest counted edges (newest first, at
most 257), edges since the previous index if there was one, and the tick of the last edge. -/
structure Encoder where
  a : Bool := false
  b : Bool := false
  i : Bool := false
  edges : List (Nat × Int) := []
  sinceIndex : Option Nat := none
  lastEdge : Option Nat := none
deriving DecidableEq, Repr

/-- A DIST ruler beside its registers: the 80-bit accumulator in 2^-32 step (R62), the time in ns and accumulator at
its latest counted edges, newest first (R64), the previous window estimates with the times of their centres, newest
first, the encoder it follows, and the ticks since which the two rates disagree or agree (R65), and the edges each
encoder has counted since the other last moved (R66). -/
structure Dist where
  pos : Int := 0
  win : List (Nat × Int) := []
  ests : List (Int × Nat) := []
  useSec : Bool := false
  disagree : Option Nat := none
  agree : Option Nat := none
  lastEdge : Nat := 0
  aloneP : Nat := 0
  aloneS : Nat := 0
deriving DecidableEq, Repr

/-- A PHASE ruler beside its registers (R68 to R71): its 64-bit value and the remainder below it in units of
2^-32 cycle / 10^12, whether it has been LOCKED since NO_INPUT, the tick of the last accepted crossing, consecutive
good and bad cycles, the phase correction still to be slewed in the unit of the remainder, and the tick HOLDOVER was entered. -/
structure Phase where
  val : Nat := 0
  rem : Nat := 0
  everLocked : Bool := false
  lastCross : Option Nat := none
  good : Nat := 0
  bad : Nat := 0
  corr : Int := 0
  holdAt : Nat := 0
deriving DecidableEq, Repr

/-- A cue descriptor (R74): D0, TARGET, STEP, LEAD_NS, COUNT and STATUS, with the tick it became due (R82), the ruler
value at its last evaluation, if it was valid then (R78, R83), and whether it is due by prediction (R85). -/
structure Cue where
  ctrl : Word := 0
  target : Nat := 0
  step : Nat := 0
  lead : Nat := 0
  count : Word := 0
  status : Word := 0
  due : Option Nat := none
  seen : Option Int := none
  predicted : Bool := false
deriving DecidableEq, Repr

/-- A LINE ruler (R72): frame count of the timing generator, how many of its frames began while the head was fenced, which the
ruler's held count leaves out, line, pixel, the remainder of the pixel count in millionths, and the head events that the timing
generator has reached and no row has taken yet. -/
structure LineRuler where
  frame : Nat := 0
  overran : Nat := 0
  line : Nat := 0
  pixel : Nat := 0
  rem : Nat := 0
  run : Bool := false
  dueLine : List Nat := []
  dueFrame : Bool := false
  dueVblank : Bool := false
  dueMatch : Bool := false
deriving DecidableEq, Repr

/-- What the model keeps of the capture stream an SLINE ruler follows: frame number and stored lines of the current
frame (`none` between frames), the configured height, and the frame, line count and time of the latest line stores, newest first
(R73, R86, R91). -/
structure SlineRuler where
  frame : Nat := 0
  line : Option Nat := none
  height : Nat := 0
  times : List (Nat × Nat × Nat) := []
  started : Option Nat := none
deriving DecidableEq, Repr

/-- A line-locked context (R88 to R91): the sensor frames paired with this display frame and the one before it, display frames
in which the lock conditions held and in which an underrun occurred in a row, whether every margin of this frame was at
least 0, its UNDERRUN, OVERRUN and LATENCY marks, and its largest latency. -/
structure LineLock where
  paired : Option Nat := none
  prev : Option Nat := none
  okFrames : Nat := 0
  badFrames : Nat := 0
  clean : Bool := true
  underrun : Bool := false
  overrun : Bool := false
  latBad : Bool := false
  latMax : Nat := 0
deriving DecidableEq, Repr

/-- Rulers, encoders, cues and line-locked contexts. TIME is held in units of 2^-16 ns since 0 s (R50) with the
remainder of its rate correction in millionths of that unit. -/
structure Timebase where
  time : Nat := 0
  timeRem : Nat := 0
  enc : Map Encoder := []
  dist : Map Dist := []
  phase : Map Phase := []
  cues : Map Cue := []
  line : Map LineRuler := []
  sline : Map SlineRuler := []
  ll : Map LineLock := []
deriving DecidableEq, Repr

/-! ## Raw pipes: contexts and parameter sets (chapters 04 to 06) -/

/-- An entry of a PSET ring (R219, R220): address, requested frame R, state (1 PENDING, 2 SENT, 3 RESOLVED), the applied
frame A, and the ticks of its push and of its list's completion (R226). -/
structure PsetEntry where
  ptr : Nat
  req : Nat
  state : Nat := 1
  applied : Nat := 0
  pushed : Nat := 0
  doneAt : Nat := 0
deriving DecidableEq, Repr

/-- The PSET in force: its words as read once at the frame start at which it applied, with R and A (R217, R227). -/
structure PsetForce where
  words : Words
  req : Nat
  applied : Nat
deriving DecidableEq, Repr

/-- What waits at a pipe context's inline input (R146, R147): a frame start with its capture frame number, data type
and the ring entry that the PSET decision of that frame start took, if any (R226, R228), a line of samples with the columns whose
bytes arrived poison-marked, or a frame end with the capture flags and EXPOSURE_SENSOR (R236). -/
inductive PipeIn where
  | fs (frame dt : Nat) (dec : Option PsetEntry)
  | line (pix : List Nat) (poison : List Nat)
  | fe (flags expo : Nat)
deriving DecidableEq, Repr

/-- A table bank: words and the indices of the words that arrived poison-marked (R155, R176). -/
structure TableBank where
  words : Words := []
  bad : List Nat := []
deriving DecidableEq, Repr

/-- A fraction n / d; d is not 0. Accumulators hold binary64 values in this form. -/
structure Q where
  n : Int
  d : Nat
deriving DecidableEq, Repr

/-- A zone's accumulators (R231): the sums of the three channels, the quads or pixels, and those with a channel at CLIP_T or more. -/
structure ZoneAcc where
  a : Q := ⟨0, 1⟩
  b : Q := ⟨0, 1⟩
  c : Q := ⟨0, 1⟩
  n : Nat := 0
  clip : Nat := 0
deriving DecidableEq, Repr

/-- A focus window's accumulators (R233): FV_H, FV_V, PEAK_H, PEAK_V, COUNT, CLIP. -/
structure FocusAcc where
  fh : Q := ⟨0, 1⟩
  fv : Q := ⟨0, 1⟩
  ph : Q := ⟨0, 1⟩
  pv : Q := ⟨0, 1⟩
  count : Nat := 0
  clip : Nat := 0
deriving DecidableEq, Repr

/-- The statistics accumulators of a context's frame (R230): zones keyed j * ZX + i, histogram counts keyed 258 * h + index, focus
windows, and the rows of the demosaic input that the focus unit has evaluated. -/
structure StatAcc where
  zones : Map ZoneAcc := []
  hist : Map Nat := []
  foc : Map FocusAcc := []
  focRows : Nat := 0
deriving DecidableEq, Repr

/-- A branch's part of a frame (R192, R206 to R211): the crop words in force, whether its buffer has been taken, whether it
writes nothing, buffer address, size, token, FLAGS, output lines written, bytes written, progress events produced, the
completion descriptor it has pushed, and whether it has completed. -/
structure BrFrame where
  crop : Nat × Nat := (0, 0)
  nothing : Bool := false
  taken : Bool := false
  buf : Nat := 0
  size : Nat := 0
  token : Nat := 0
  flags : Nat := 0
  lines : Nat := 0
  written : Nat := 0
  prog : Nat := 0
  posted : Option Words := none
  done : Bool := false
deriving DecidableEq, Repr

/-- A frame in a pipe context (R146 to R149): its number, pipe-record flags and counts, the input lines of exposure 0 with
their poisoned columns, oldest first, and of the companions, the line that the stages take next, whether and how its
input ended, the input descriptor of a memory frame, TIME at START, runs, the longest SAFETY wait, its branches; how many trunk rows
have left the stages, those rows, three binary32 words a pixel, the samples that a pipe SRAM lost as (stage page, row, column) (R176), and
the statistics accumulated so far. -/
structure PipeFrame where
  num : Nat
  flags : Nat := 0
  psetId : Nat := 0
  req : Nat := 0
  applied : Nat := 0
  late : Bool := false
  lines : List (List Nat × List Nat) := []
  comp : Map (List (List Nat × List Nat)) := []
  seed : Nat := 0
  y : Nat := 0
  ended : Bool := false
  capFlags : Nat := 0
  expo : Nat := 0
  desc : Option Words := none
  noWork : Bool := false
  started : Bool := false
  startNs : Nat := 0
  poison : Nat := 0
  defStatic : Nat := 0
  defDynamic : Nat := 0
  motion : Nat := 0
  clipped : Nat := 0
  runs : Nat := 0
  wait : Nat := 0
  stats : Bool := false
  br : Map BrFrame := []
  out : Nat := 0
  trunk : List Words := []
  dead : List (Nat × Nat × Nat) := []
  acc : StatAcc := {}
deriving DecidableEq, Repr

/-- A pipe context (R143 to R149): its 64-byte configuration, state, STOP pending, what waits at its inline input, its PSET
ring and PSET in force, the PSET that the decisions of its inline frame starts have reached (R224, R228), the frame in work, branch descriptors (R204), band rings as (address, lines, descriptor words)
(R207), the last valid crops (R192), the registers of pages +13 and +14 that are held per context, the tick of its last
run's end, and the tick since which it has been eligible. -/
structure PipeCtx where
  cfg : Words := []
  state : Nat := 0
  stopping : Bool := false
  inq : List PipeIn := []
  ring : List PsetEntry := []
  force : Option PsetForce := none
  decided : Option PsetForce := none
  frame : Option PipeFrame := none
  br : Map Words := []
  band : Map Words := []
  crop : Map (Option (Nat × Nat)) := []
  statBase : Nat := 0
  statEvt : Nat := 0
  reject : Nat := 0
  lastFrame : Nat := 0
  foc : Words := []
  focCnt : Nat := 0
  lastRun : Nat := 0
  eligible : Option Nat := none
deriving DecidableEq, Repr

/-- A raw pipe (R151 to R156, R188): the context whose state is in the stages, whether its run is in progress, lines of the
present run, the context picked with the tick of the pick, the tick at which its switch ends and the switch's cycles, the table banks of
stages +1, +3, +4 and of the branches' tone curves keyed page * 2 + bank with their identity, the active bank per page,
the two LUT slots as (PTR, TAG, table), the slot in use, the pinned slot, a LUT load in progress as (slot, context), the
tick since which a run waits for a LUT, the stage pages forced to bypass at the run start, and the runs of the last
millisecond as (start, end). -/
structure Pipe where
  cur : Option Nat := none
  running : Bool := false
  runLines : Nat := 0
  runStart : Nat := 0
  picked : Option (Nat × Nat × Nat × Nat) := none
  bank : Map (Option (Nat × TableBank)) := []
  active : Map Nat := []
  lut : Map (Option (Nat × Nat × TableBank)) := []
  lutUse : Nat := 0
  lutPin : Option Nat := none
  lutLoad : Option (Nat × Nat) := none
  lutWait : Option Nat := none
  bypass : List Nat := []
  runs : List (Nat × Nat) := []
deriving DecidableEq, Repr

/-- Raw pipes and their contexts, keyed pipe * 64 + context. -/
structure RawPipes where
  pipe : Map Pipe := []
  ctx : Map PipeCtx := []
deriving DecidableEq, Repr

/-! ## Sensor intake (chapter 03) -/

/-- What waits in a capture stream's intake buffer (R125): a frame start with the sensor's frame number, an image line
with whether its payload CRC failed, embedded bytes, the place where lines were lost to a full buffer, a frame end,
or the source's failure (R126). -/
inductive CapItem where
  | fs (fn : Nat)
  | line (pix : List Nat) (bad : Bool)
  | emb (bytes : List Nat) (bad : Bool)
  | lost
  | fe
  | broken
deriving DecidableEq, Repr

/-- A capture frame in flight: the fields of *Frame metadata record* that are known so far, the buffer taken, the
embedded bytes seen (R229), the pipe context of an inline copy, and the tick of the last line (R126). -/
structure CapFrame where
  num : Nat
  sensorFn : Nat := 0
  timeFs : Nat := 0
  distFs : Nat := 0
  phaseFs : Nat := 0
  psetId : Nat := 0
  req : Nat := 0
  applied : Nat := 0
  expected : Nat := 0
  embExp : Nat := 0
  expMask : Nat := 0
  expTol : Nat := 0
  flags : Nat := 0
  lines : Nat := 0
  discarded : Nat := 0
  padded : Nat := 0
  truncated : Nat := 0
  crcErrs : Nat := 0
  embLines : Nat := 0
  embBytes : Nat := 0
  emb : List Nat := []
  mem : Bool := false
  buffer : Nat := 0
  token : Nat := 0
  written : Nat := 0
  seq : Option (Nat × Nat × Nat) := none
  lastLine : Nat := 0
deriving DecidableEq, Repr

/-- A write list in progress (R132 to R135): the pipe context key and ring entry it serves, the writes still to send,
whether the present one was retried, and the answer that the Dralek back channel delivered for it. -/
structure SeqList where
  ctx : Nat
  ptr : Nat
  req : Nat
  writes : List (Nat × Nat)
  data16 : Bool
  retried : Bool := false
  ack : Option Bool := none
deriving DecidableEq, Repr

/-- A capture stream beside its stream context (R120): its intake buffer, the frame in flight, the next and the last
capture frame number, the last sensor frame number, whether lines of the present frame are being lost, STOP pending,
flags and corrected headers to add to the frame, and the sequencer's list and last result. -/
structure CapStream where
  inq : List CapItem := []
  frame : Option CapFrame := none
  next : Nat := 0
  last : Nat := 0
  lastBuf : Option Nat := none
  lastFn : Option Nat := none
  losing : Bool := false
  stopping : Bool := false
  addFlags : Nat := 0
  corrected : Nat := 0
  seq : Option SeqList := none
  seqDone : Option (Nat × Nat × Nat) := none
deriving DecidableEq, Repr

/-- A sensor port beside its registers: the segments of a ganged line waiting per virtual channel and data type (R99),
each with its CRC
flag, the ticks of the latest frame start and of the latest frame end per virtual channel, the tick of the latest packet, and
whether a burst came before its calibration. -/
structure SensPort where
  segs : Map (List (List Nat × Bool)) := []
  fsAt : Map (Option Nat) := []
  feAt : Map (Option Nat) := []
  burst : Option Nat := none
  syncErr : Bool := false
deriving DecidableEq, Repr

/-- A private write of the sensor sequencer (R132): its stream, the target and whether it is an I²C target, and the bytes. -/
structure I3cWrite where
  stream : Nat
  addr : Nat
  legacy : Bool
  bytes : List Byte
deriving DecidableEq, Repr

/-- A transfer on an I3C bus (R134): an I3C_CMD of firmware, or a write of the sequencer. -/
inductive I3cXfer where
  | firmware (cmd : Word)
  | sequencer (w : I3cWrite)
deriving DecidableEq, Repr

/-- An I3C controller (R131, R134): queued commands of firmware, queued writes of the sequencer, the transfer under way, the dynamic
addresses assigned, and the 64-byte FIFOs. -/
structure I3c where
  cmds : List Word := []
  seq : List I3cWrite := []
  cur : Option I3cXfer := none
  dyn : List Nat := []
  tx : List Byte := []
  rx : List Byte := []
deriving DecidableEq, Repr

/-- A position of a Dralek receiver (R106 to R113): whether it carries an active lane or waits in the spare pool, block
lock, the latest marker (SEQ, LOGICAL, block time), fillers inserted since it, clean marker intervals since a failure, and the
tick from which the next marker is awaited. Its logical lane reads in MAP. -/
structure DlkPos where
  active : Bool := false
  pool : Bool := false
  lock : Bool := false
  marker : Option (Nat × Nat × Nat) := none
  inserted : Nat := 0
  clean : Nat := 0
  since : Nat := 0
deriving DecidableEq, Repr

/-- A back-channel message: code, SEQ, payload; `trigger` messages go ahead of the queue (R117). -/
structure BcMsg where
  code : Nat
  seq : Nat := 0
  payload : Nat := 0
deriving DecidableEq, Repr

/-- A Dralek receiver beside its registers: virtual channels that wait for a FRAME_START (R109, R111), the data type of
each channel's frame, the swap in progress (failed lane, spare position, sends, tick of the last send) and lanes that
wait for theirs (R111, R112, R119), the transmit queue and sequencer messages that wait for room
in it, the messages last sent and the positions they left on (R114), messages that wait for their REG_ACK with the tick sent and
whether they were resent (R118), the receive queue of 16, the tick of an unanswered PING and that of the last one, the millisecond
of TIME last sent (R116), TIME nanoseconds of the latest event at each input (R117), the tick of leaving OFF, and SEQ of the
latest ALIGN row sent (R114). -/
structure Dlk where
  waitFs : Nat := 0
  dt : Map Nat := []
  swap : Option (Nat × Nat × Nat × Nat) := none
  failed : List Nat := []
  tx : List BcMsg := []
  late : List BcMsg := []
  sent : List BcMsg := []
  sentOn : List Nat := []
  await : List (BcMsg × Nat × Bool) := []
  rx : List BcMsg := []
  ping : Option Nat := none
  pinged : Option Nat := none
  timeMs : Option Nat := none
  trig : Map Nat := []
  since : Nat := 0
  txSeq : Nat := 0
deriving DecidableEq, Repr

/-- Sensor intake: streams keyed by stream context, ports, I3C controllers, Dralek receivers, their positions keyed
receiver * 16 + position, and the image lines that went to memory in the last millisecond (tick, pixels), which RATE counts. -/
structure Capture where
  streams : Map CapStream := []
  ports : Map SensPort := []
  i3c : Map I3c := []
  dlk : Map Dlk := []
  pos : Map DlkPos := []
  moved : List (Nat × Nat) := []
deriving DecidableEq, Repr

/-! ## Swarm engines (chapter 07) -/

/-- What a thread in WAIT waits for (R245): an item of a queue with the registers of its descriptor and status, room on a
full queue, room in its DMA channel, a ticket, a barrier's release, or an event input. -/
inductive ThreadWait where
  | take (q d b : Nat)
  | push (q d : Nat) (desc : Words)
  | dmaq (d : Nat) (desc : Words) (bad : Bool)
  | dmaw (d ticket : Nat)
  | bar (b d : Nat)
  | event (k : Nat)
deriving DecidableEq, Repr

/-- The work item that a thread holds (R260). -/
structure WorkItem where
  handle : Nat
  epoch : Nat
  queue : Nat
  cls : Nat
  since : Nat
  timedOut : Bool := false
deriving DecidableEq, Repr

/-- A queued DMA descriptor (R267): ticket, the 32 bytes as words, whether it was read with a poison mark, and the QoS class
in force at its submission (R252). -/
structure DmaReq where
  ticket : Nat
  desc : Words
  bad : Bool
  cls : Nat
deriving DecidableEq, Repr

/-- A thread (R244, R245, R253, *Thread CSRs*): state 0 IDLE, 1 RUN, 2 WAIT, 3 HALTED; scalar registers, vector registers of
16 words, masks, accumulators of 32 lanes of 40 bits (unlisted ones are 0); its CSRs; the item held; a pending PARK;
threads that issue before it after a YIELD; and its DMA channel. -/
structure Thread where
  st : Nat := 0
  pc : Nat := 0
  s : Map Word := []
  v : Map Words := []
  m : Map Word := []
  acc : Map (List Nat) := []
  inTrap : Bool := false
  depth : Nat := 0
  tvec : Word := 0
  epc : Word := 0
  cause : Nat := 0
  double : Bool := false
  tval : Word := 0
  lcount : Map Word := []
  lbounds : Map Word := []
  breakpc : Word := 0
  cycHi : Option Word := none
  timeHi : Option Word := none
  wi : Option WorkItem := none
  park : Bool := false
  yielded : List Nat := []
  wait : Option ThreadWait := none
  dmaQ : List DmaReq := []
  dmaHalted : Bool := false
  dmaStatus : Nat := 0
  dmaNext : Nat := 1
deriving DecidableEq, Repr

/-- An engine beside its threads and registers (R248, R275, *ENGp page*): instruction memory words, whether an image is
valid, data memory bytes, 8-byte words of it stored as the poison code, run times of the traps of the last millisecond,
the run time of the latest retire, instructions retired, the run time of its reset (R570), the issues of the last millisecond as
(tick, vector class, thread), the threads that took the scalar and the vector slot last (R246), and, per thread, the tick until
which an access to shared memory may be in flight (*Result latencies*). -/
structure Engine where
  imem : Map Word := []
  valid : Bool := false
  dmem : Map Byte := []
  dpoison : Map Bool := []
  traps : List Nat := []
  lastRetire : Nat := 0
  retired : Nat := 0
  since : Nat := 0
  issues : List (Nat × Bool × Nat) := []
  turnS : Nat := 3
  turnV : Nat := 3
  far : Map Nat := []
deriving DecidableEq, Repr

/-- The Swarm beside its registers: engines by physical number, threads keyed engine * 4 + thread, and program loads in
progress per logical cluster as (accepted slots, image address). -/
structure Swarm where
  eng : Map Engine := []
  thr : Map Thread := []
  load : Map (Option (Nat × Nat)) := []
deriving DecidableEq, Repr

/-! ## Codec (chapter 08) -/

/-- A coded slice whose bytes have not all been acknowledged (R307): gang member, first CTB row, whether it is CORRUPT. -/
structure EncSlice where
  member : Nat
  first : Nat
  corrupt : Bool
deriving DecidableEq, Repr

/-- A picture in an encoder (R295 to R309): its source descriptor (none while a progressive source's has not come) and
buffer, FRAME, POC, type 0 I, 1 P, 2 B, IDR; the output buffer; target T, cap, per-row costs of the plan and their use;
QP of the picture; bits spent, floor and fallback mode; per gang member the next CTB row and CTB, the row's QP, the
bits, whether the slice in progress is CORRUPT, its first row and the bytes written; bits per row; finished slices; the
row and number of the next slice to post; FLAGS; and the QPs of its CTBs as (sum, count, least, largest). -/
structure EncPic where
  src : Option Words := none
  srcBuf : Nat := 0
  frame : Nat := 0
  poc : Nat := 0
  type : Nat := 0
  buf : Nat := 0
  size : Nat := 0
  token : Nat := 0
  target : Nat := 0
  cap : Nat := 0
  plan : List Nat := []
  cost : Nat := 1
  qpPic : Nat := 0
  spent : Nat := 0
  floor : Bool := false
  fb : Bool := false
  pos : Map (Nat × Nat) := []
  qp : Map Nat := []
  mbits : Map Nat := []
  bad : Map Bool := []
  first : Map Nat := []
  written : Map Nat := []
  rowBits : Map Nat := []
  slices : List EncSlice := []
  posted : Nat := 0
  sliceNo : Nat := 0
  hdr : Nat := 0
  flags : Nat := 0
  qps : Nat × Nat × Nat × Nat := (0, 0, 63, 0)
deriving DecidableEq, Repr

/-- An encode session beside its stream context (R286, R290, R295, R298, R301, R303, R304): state 0 OFF, 1 RUN, 2 ERROR;
STOP pending; a new rate; an IDR due; pictures coded since the last IDR and its FRAME; sources taken for a group that is
still filling, and those of a filled group in coding order with their types and weights in halves; CPB fullness in units of
1 / FPS_NUM bit; debt; the history per type; ready lines, source buffers and number of the next picture of a progressive
session, and its dropped pictures whose source has still to come back; the tick it last ran; and the picture in flight. -/
structure EncSess where
  st : Nat := 0
  stopping : Bool := false
  rate : Option (Word × Word) := none
  idr : Bool := true
  since : Nat := 0
  idrFrame : Nat := 0
  fill : List Words := []
  todo : List (Nat × Nat × Words) := []
  fullness : Int := 0
  debt : Int := 0
  qpLast : Map (Option Nat) := []
  bitsLast : Map (Option Nat) := []
  costLast : Map (Option Nat) := []
  rowLast : Map (List Nat) := []
  ready : Nat := 0
  srcs : List Words := []
  next : Nat := 0
  owed : Nat := 0
  lastRun : Nat := 0
  pic : Option EncPic := none
deriving DecidableEq, Repr

/-- A picture in a decoded picture buffer (R316 to R323): POC and the coded sequence it belongs to, whether it can be
referred to, whether it waits for output, and what its output descriptor holds. -/
structure DecPic where
  seq : Nat
  poc : Int
  ref : Bool
  wait : Bool
  buf : Nat := 0
  token : Nat := 0
  bytes : Nat := 0
  flags : Nat := 0
  time : Nat := 0
deriving DecidableEq, Repr

/-- A picture in a JPEG XS codec (R311, R312): source descriptor, output buffer, slices done and FLAGS. -/
structure XsPic where
  src : Option Words := none
  buf : Nat := 0
  size : Nat := 0
  token : Nat := 0
  slice : Nat := 0
  flags : Nat := 0
  time : Nat := 0
deriving DecidableEq, Repr

/-- A decode or JPEG XS session beside its stream context (R312, R315 to R323): state 0 OFF, 1 RUN, 2 ERROR; STOP and FLUSH
pending; whether it waits for an IRAP picture; the access unit in progress: chunks read, TIME, a DISCONTINUITY inside it, a
poisoned byte, complete; the decoded pictures, oldest first; buffers held aside; coded sequences; pictures output; the size
of the last decoded picture; GEOM_CHANGE due; JPEG XS's picture in flight and the last one output; the tick it last ran. -/
structure DecSess where
  st : Nat := 0
  stopping : Bool := false
  flush : Bool := false
  waitIrap : Bool := false
  chunks : Nat := 0
  time : Nat := 0
  cut : Bool := false
  poison : Bool := false
  complete : Bool := false
  dpb : List DecPic := []
  held : List Words := []
  seq : Nat := 0
  count : Nat := 0
  dims : Option (Nat × Nat) := none
  geom : Bool := false
  xs : Option XsPic := none
  lastRun : Nat := 0
deriving DecidableEq, Repr

/-- A codec block beside its registers (R285): the session in service, the tick since which it is busy, and the busy
intervals of the last millisecond (UTIL). -/
structure CodecBlk where
  cur : Option Nat := none
  busy : Option Nat := none
  runs : List (Nat × Nat) := []
deriving DecidableEq, Repr

/-- The codec complex: sessions by stream context, blocks by page. -/
structure Codec where
  enc : Map EncSess := []
  dec : Map DecSess := []
  blk : Map CodecBlk := []
deriving DecidableEq, Repr

/-! ## Display heads and Eyespot (chapter 09) -/

/-- A picture that a queue layer holds (R338, R340): buffer, the BUF_SIZE, RET_Q and L_EVT in force when it was taken, token,
FRAME, FLAGS, and the frames it has been shown. -/
structure LayerPic where
  buf : Nat
  size : Nat
  token : Nat
  frame : Nat
  flags : Nat
  retQ : Nat
  evt : Nat
  shown : Nat := 0
deriving DecidableEq, Repr

/-- A layer beside its registers (R338 to R345): the current picture, the one kept for the next frame start, pictures that
wait for retirement with the first frame in which they were not current, STALE, the layer's pixels of its previous line
(UNDER_MODE 1), and the tokens kept after a SOFT_RST. -/
structure LayerRt where
  cur : Option LayerPic := none
  next : Option LayerPic := none
  old : List (LayerPic × Nat) := []
  stale : Bool := false
  prev : List (Nat × Nat × Nat) := []
  keptCur : Nat := 0
  keptOld : Nat := 0
deriving DecidableEq, Repr

/-- A composed line on its way to the pads (R330): line, frame, tick of its start, pixels, and the column ranges that a
safety layer filled or shows with POISONED (R347). -/
structure HeadLine where
  y : Nat
  frame : Nat
  start : Nat
  px : List (Nat × Nat × Nat)
  marks : List (Nat × Nat)
deriving DecidableEq, Repr

/-- A region of an Eyespot beside its registers (R346 to R350, R562): the running CRCs over the frame's lines, whether all of
them left the pads as video, whether a mark was met, the frame whose decision is due, the PAD_CRC of the last output
frame, whether the warning image is shown, the tick of the decision that entered the safe state, and an injection. -/
structure EyeReg where
  ref : Nat := 0
  pad : Nat := 0
  video : Bool := true
  marked : Bool := false
  due : Option (Nat × Nat) := none
  prev : Option Nat := none
  shown : Bool := false
  safeAt : Nat := 0
  inject : Bool := false
deriving DecidableEq, Repr

/-- A display head beside its registers (R327 to R345): link state 0 OFF, 1 WAIT_HPD, 2 TRAIN, 3 RUN, 4 FAILED; HPD; failed
trainings in a row; starts of vertical blanking since a pair commit was held; whether this frame had an underrun; lines on
their way; the frame whose FRAME_DONE is due, with the tick of its last pixel; the AUX command in progress; layers, regions, and SAFE_CLR bits that wait. -/
structure Head where
  link : Nat := 0
  hpd : Bool := false
  tries : Nat := 0
  heldVb : Nat := 0
  under : Bool := false
  lines : List HeadLine := []
  done : Option (Nat × Nat) := none
  aux : Option Word := none
  layers : Map LayerRt := []
  eye : Map EyeReg := []
  clr : Nat := 0
deriving DecidableEq, Repr

/-! ## TDM audio ports (chapter 10) -/

/-- A period in progress or waiting for its post (R375): its first frame, the byte counter there, TIME of that frame's sync if
it is known, FLAGS, the mask of its last frame, its frames so far, and whether its first UNDERRUN or OVERRUN has made an
event. -/
structure TdmPeriod where
  frame : Nat
  count : Nat
  time : Option Nat
  flags : Nat := 0
  mask : Nat := 0
  n : Nat := 0
  told : Bool := false
deriving DecidableEq, Repr

/-- What a pin does for a time: it is driven low or high, it is at high impedance, or it carries a level that the spec leaves open. -/
inductive PinLevel where
  | low | high | hiZ | unstated
deriving DecidableEq, Repr

/-- A TDM port of a set that is not OFF, beside its registers (R366 to R375): whether it takes part; k0; the mask its frames have
now, and the mask that a transmit port's next fetch takes; the frame whose end records a receive port's mask change; the
software counter read at SWC_ADDR and whether a read was answered for the next check; a first fetch that waits for that
read; the byte counter of the next frame; masks of discarded frames, oldest first; the last accepted frame; the last sample
per slot; fetched frames as (number, mask, samples); what the slots carried in the last frame; the pins (R355, R359): the data pin over the
last frame, one level a bit clock from that frame's sync, the frame sync pin over the present frame, and the bit clock pin over the two
halves of a bit clock; and the periods. -/
structure TdmPort where
  run : Bool := false
  k0 : Nat := 0
  mask : Nat := 0
  pend : Option Nat := none
  maskAt : Option Nat := none
  sw : Nat := 0
  ans : Bool := false
  armFetch : Bool := false
  lpos : Nat := 0
  dq : List Nat := []
  last : Nat × List Nat := (0, [])
  lastv : List Nat := []
  txq : List (Nat × Nat × List Nat) := []
  out : List (Option Nat) := []
  data : List PinLevel := []
  fs : List PinLevel := []
  bclk : List PinLevel := []
  per : Option TdmPeriod := none
  posts : List TdmPeriod := []
deriving DecidableEq, Repr

/-- An aligned set, by its lead (R357 to R365): state 0 OFF, 1 ARMED, 2 RUN; the frame in progress and k0, not reduced; the
error of the next sync against t_k in 2^-16 ns of TIME; SLEWING; MC_ERR; TIME of the frame's sync in ns and its latched
high word; STOP pending; FS_LOST; the tick of the last edge or counted frame; and its ports. -/
structure TdmSet where
  st : Nat := 0
  k : Nat := 0
  k0 : Nat := 0
  err : Int := 0
  slew : Bool := false
  mcErr : Int := 0
  fst : Nat := 0
  stop : Bool := false
  lost : Bool := false
  edge : Nat := 0
  act : List Nat := []
deriving DecidableEq, Repr

/-- The TDM ports. -/
structure Tdm where
  sets : Map TdmSet := []
  port : Map TdmPort := []
deriving DecidableEq, Repr

/-! ## Ethernet, TSN and PTP (chapter 11) -/

/-- A frame that a MAC has read to the head of a class or is sending (R383 to R389): class, descriptor, the bytes without FCS,
a status that disposes of it unsent, status bits, its timestamp in 2^-16 ns, the tick at which its last bit leaves, the bytes
still to send after a preemption, and the record of its replication (MAC_A and number; whether this is MAC_B's copy). -/
structure TxFrame where
  cls : Nat
  desc : Words
  bytes : List Byte
  st : Option Nat := none
  flags : Nat := 0
  ts : Nat := 0
  start : Nat := 0
  fin : Nat := 0
  left : Nat := 0
  repl : Option (Nat × Nat × Bool) := none
deriving DecidableEq, Repr

/-- A replicated frame that waits for both copies (R385, R398): number, MAC_A's completion, and whether MAC_B's copy is done. -/
structure Replica where
  id : Nat
  a : Option Words := none
  b : Bool := false
deriving DecidableEq, Repr

/-- A MAC beside its registers (R382 to R394, R401): heads by class; copies of replicated frames by class; LAUNCH of the frame
before by class; the frame on the wire and a preempted one; the tick from which the wire is free; completions and replicas
that wait; the bytes last sent; shaper credits in kb/s × tick with the tick of their last update; the policer's tokens in
1 / 250,000,000 frame with theirs; the operational list, the entry in force, the TIME in ns at which it ends, HOLD, the
administrative list by entry, and the config change time of a pending commit. -/
structure MacPort where
  heads : Map (Option TxFrame) := []
  copies : Map (List TxFrame) := []
  launch : Map (Option Nat) := []
  cur : Option TxFrame := none
  held : Option TxFrame := none
  idleAt : Nat := 0
  comps : List Words := []
  repl : List Replica := []
  replN : Nat := 0
  out : List Byte := []
  credit : Map Int := []
  creditAt : Nat := 0
  be : Nat := 16000000000
  beAt : Nat := 0
  oper : List (Word × Word) := []
  idx : Nat := 0
  ends : Nat := 0
  hold : Bool := false
  admin : Map (Word × Word) := []
  change : Option Nat := none
deriving DecidableEq, Repr

/-- A stream filter (R396, R397): its eight words (BLOCKED in D3), its counters, and the meter's tokens in bit × 250,000 with the
tick of their last update. -/
structure Filter where
  ws : Words := []
  cnt : List Nat := []
  tc : Nat := 0
  te : Nat := 0
  at_ : Nat := 0
deriving DecidableEq, Repr

/-- A recovery function (R399): D0, whether it takes any number next, the latest number, the history from the latest downwards,
D1 to D7, and the tick of the last passed frame. -/
structure Recovery where
  d0 : Word := 0
  any : Bool := true
  num : Nat := 0
  hist : List Bool := []
  cnt : List Nat := []
  last : Nat := 0
deriving DecidableEq, Repr

/-- An RTP flow beside its stream context (R389, R403): next RTP sequence and R-TAG numbers and the IPv4 identification of a
transmit flow; the expected number of a receive flow, packets held as (number, descriptor, tick), packets, losses, reorders,
duplicates and resyncs. -/
structure Flow where
  seq : Nat := 0
  rtag : Nat := 0
  ident : Nat := 0
  exp : Nat := 0
  held : List (Nat × Words × Nat) := []
  packets : Nat := 0
  losses : Nat := 0
  reorders : Nat := 0
  dups : Nat := 0
  resyncs : Nat := 0
deriving DecidableEq, Repr

/-- A PTP port (R404 to R409): Announce information and its tick, the tick of the last Sync, the mean link delay in 2^-16 ns, a
two-step Sync that waits for its Follow_Up as (sequence, receive time, correction), the request in flight as (sequence,
transmit time), the last Sync's origin and receive time for end-to-end delay, and the messages sent as (type, sequence). -/
structure PtpPort where
  ann : Option PtpAnnounce := none
  annAt : Nat := 0
  syncAt : Option Nat := none
  delay : Option Int := none
  two : Option (Nat × Int × Int) := none
  req : Option (Nat × Int) := none
  origin : Option (Int × Int) := none
  seq : Nat := 0
  sent : List (Nat × Nat) := []
deriving DecidableEq, Repr

/-- The PTP engine (R405 to R410): its ports, the port selected, the first offset of a step being confirmed, the least and
largest of the refused offsets in a row, JUMP_CMD ACCEPT waiting for a Sync, and whether the first offset since the selection
has been applied to a TIME that was not valid (R409). -/
structure Ptp where
  port : Map PtpPort := []
  sel : Option Nat := none
  first : Option Int := none
  range : Option (Int × Int) := none
  accept : Bool := false
  began : Bool := false
deriving DecidableEq, Repr

/-- The network: MACs, stream filters, recovery functions, RTP flows by stream context, PTP. -/
structure Net where
  mac : Map MacPort := []
  filt : Map Filter := []
  rcv : Map Recovery := []
  flow : Map Flow := []
  ptp : Ptp := {}
deriving DecidableEq, Repr

/-! ## Storage and the Clip Target Interface (chapter 12) -/

/-- What one range of 4 KiB units of an SSD was last written with: bytes, or a 32-bit pattern repeated (0 for a trim). -/
inductive MediaData where
  | bytes (bs : List Byte)
  | pattern (w : Word)
deriving DecidableEq, Repr

/-- A write of the media of an SSD: root port, first 4 KiB unit, units, content. -/
structure Extent where
  dev : Nat
  first : Nat
  count : Nat
  data : MediaData
deriving DecidableEq, Repr

/-- An NVMe command (R413 to R415): its number, root port, copy of the namespace, place of the SSD in the copy, kind 0 read, 1
write, 2 deallocate or write zeroes, range in 4 KiB units, the operation it serves, whether it was retried after a media
status, the tick it was issued, whether it is a write issued with FUA (R420), and the tick its Abort was issued. -/
structure NvmeCmd where
  id : Nat
  dev : Nat
  copy : Nat
  idx : Nat
  kind : Nat
  first : Nat
  count : Nat
  op : Nat
  retried : Bool := false
  at_ : Option Nat := none
  fua : Bool := false
  abort : Option Nat := none
deriving DecidableEq, Repr

/-- What an operation on a namespace serves: a CTI command (queue and tag), the data or the index block of a recording session
(the stream context with the first and last item count it covers), or a part of a format or sanitise. -/
inductive StorOwner where
  | cti (q tag : Nat)
  | recData (c seq : Nat)
  | recIndex (c lo hi : Nat)
  | part
deriving DecidableEq, Repr

/-- An operation on blocks of a namespace (R416 to R423): kind 0 read, 1 write, 2 trim; its blocks; what it writes; the copies it
may use; whether it goes
through the write buffer and where it stands there (0 not buffered, 1 waits for room, 2 in the buffer), whether it has been
acknowledged; the copies and places that failed, whether one failed as OFFLINE, and whether one copy served it. -/
structure StorOp where
  id : Nat
  owner : StorOwner
  kind : Nat
  nsid : Nat
  lba : Nat
  count : Nat
  data : MediaData := .pattern 0
  copies : List Nat := []
  buf : Nat := 0
  acked : Bool := false
  failed : List (Nat × Nat) := []
  offline : Bool := false
  degraded : Bool := false
deriving DecidableEq, Repr

/-- The progress record of a format or sanitise (R440 to R442): SANITISE, SECURE, passes, pattern, parts committed, whether the work
runs since the last power-up, segments of the present part still to write as (first, count, word), and whether the part's
writes are on media. -/
structure Progress where
  sanitise : Bool
  secure : Bool := false
  passes : Nat := 1
  pattern : Word := 0
  done : Nat := 0
  running : Bool := false
  segs : List (Nat × Nat × Word) := []
  partDone : Bool := false
deriving DecidableEq, Repr

/-- A namespace (R416 to R418): descriptor, enabled, DISABLE waiting, the copies that lost an SSD or failed a write, DEFER_PENDING,
and the first bit of its dirty bitmap. -/
structure Namespace where
  desc : Words := []
  en : Bool := false
  disabling : Bool := false
  lost : List Nat := []
  defer : Bool := false
  bitmap : Nat := 0
deriving DecidableEq, Repr

/-- A dirty region (R421, R424): set; from before the last power loss; tick at which its last buffered write reached media. -/
structure DirtyRegion where
  set_ : Bool := false
  old : Bool := false
  last : Nat := 0
deriving DecidableEq, Repr

/-- A deferred-error log entry (R425) with whether it was read. -/
structure DeferEntry where
  seq : Nat
  nsid : Nat
  cause : Nat
  first : Nat
  count : Nat
  time : Nat
  read : Bool := false
deriving DecidableEq, Repr

/-- An overflow summary of a namespace (R425). -/
structure DeferSummary where
  low : Nat
  high : Nat
  lost : Nat
deriving DecidableEq, Repr

/-- An SSD beside its root port's registers (R415): failed attempts of the present initialisation, the
lanes that failed, and the tick of the last health page. -/
structure Ssd where
  tries : Nat := 0
  badLanes : Nat := 0
  healthAt : Option Nat := none
deriving DecidableEq, Repr

/-- A fetched CTI command (R432 to R439): its 16 words and segments, whether it has begun, the buffered writes that a FLUSH waits
for, an ABORT's decision (the status, once taken), and whether a FORMAT's record waits for its commit. -/
structure CtiCmd where
  tag : Nat
  ws : Words
  segs : List (Nat × Nat × Nat) := []
  begun : Bool := false
  wait : List Nat := []
  abort : Option Nat := none
  op : Option Nat := none
deriving DecidableEq, Repr

/-- A completion waiting to be posted (R432 to R435). -/
structure CtiPost where
  tag : Nat
  result : Nat := 0
  status : Nat := 0
  dup : Bool := false
  degraded : Bool := false
  nsid : Nat := 0
  abortOf : Option (Nat × Nat) := none
deriving DecidableEq, Repr

/-- A CTI queue pair (R432, R433): ring bases and sizes, vector, AGG_COUNT and AGG_US; SQ tail and fetch position; CQ tail, head and
PHASE; FAILED; a DELETE_QUEUE or disable in progress; commands in submission order; completions that wait; completions
pending for the vector and the tick of the oldest. -/
structure CtiQueue where
  sq : Nat
  cq : Nat
  sqSize : Nat
  cqSize : Nat
  vec : Nat
  aggCount : Nat := 0
  aggUs : Nat := 0
  tail : Nat := 0
  fetch : Nat := 0
  cqTail : Nat := 0
  cqHead : Nat := 0
  phase : Bool := true
  failed : Bool := false
  deleting : Bool := false
  cmds : List CtiCmd := []
  posts : List CtiPost := []
  agg : Nat := 0
  oldest : Nat := 0
deriving DecidableEq, Repr

/-- An item that a recording session has taken and not returned (R427, R428): descriptor, item count, data and index acknowledged. -/
structure RecItem where
  desc : Words
  seq : Nat
  dataOk : Bool
  idxOk : Bool := false
deriving DecidableEq, Repr

/-- A recording session's runtime state (R426 to R429): data pointer in blocks and index block relative to their areas, item count,
entries of the index block, how many of them a write covers, the tick of the first that none covers, REC_FULL, STOP waiting,
items not returned. -/
structure RecSess where
  data : Nat := 0
  idx : Nat := 0
  count : Nat := 0
  entries : List Words := []
  covered : Nat := 0
  since : Nat := 0
  full : Bool := false
  stopping : Bool := false
  items : List RecItem := []
deriving DecidableEq, Repr

/-- The storage complex beside its registers: media written, newest first, and host memory written by the block; SSDs; NVMe commands
and operations in order with the next number; namespaces, progress records, dirty regions by bit of the bitmap area; the
deferred-error log, oldest first, its newest SEQ and the overflow summaries; sessions by stream context; CTI_STAT.STATE, a
clearing of EN in progress, and the queues. -/
structure Storage where
  media : List Extent := []
  host : List Host.Cell := []
  ssd : Map Ssd := []
  cmds : List NvmeCmd := []
  ops : List StorOp := []
  next : Nat := 1
  ns : Map Namespace := []
  prog : Map (Option Progress) := []
  dirty : Map DirtyRegion := []
  log : List DeferEntry := []
  logSeq : Nat := 0
  sums : Map (Option DeferSummary) := []
  rec_ : Map RecSess := []
  state : Nat := 0
  closing : Bool := false
  queue : Map (Option CtiQueue) := []
deriving DecidableEq, Repr

/-! ## Power, thermal and start-up (chapter 17) -/

/-- A zone's state against one threshold (R579): ABOVE, and the consecutive samples at or above the level and below the
level less H. -/
structure Crossing where
  above : Bool := false
  up : Nat := 0
  down : Nat := 0
deriving DecidableEq, Repr

/-- A thermal sensor (R575, R576): its last sample and its reference check's consecutive passes. -/
structure Sensor where
  raw : Int := 0
  passes : Nat := 0
deriving DecidableEq, Repr

/-- Power, thermal and start-up state beside the registers: the last start-up step completed (R591), the domains waiting for
their turn, the one in its turn first (R565), the wake source seen (R573), crossings keyed zone * 4 + threshold (WARN,
THROTTLE, PRE_TRIP, TRIP), sensors, reference diodes, the tick of the latest PRE_TRIP entry and whether PRE_TRIP holds, a
trip that waits with its zone and due tick (R582), the peaks of V_z since their zones' PRE_TRIP entries, the consecutive
cool samples (R583), the BOOT record in force: preference, TRIAL and TRIES (R587), the SEC_VERSION and slot of the booted
image (R588) with the image as read into the L2 of pair 0 (R591), the fuses: counter, revoked keys and key hashes (R586), the flash contents (an unlisted byte is 0xFF) and the
xSPI command in progress (R585), PWR_GOOD with the tick of its rise, start-up held by PFW_N or RESET_N (R633, R635), a restart
that waits for the power-fail snapshot (R635), MAIN_PWR_EN, per throttled domain the gated time up to the tick of the last sample in
hundredths of a tick with the gated share since in percent (R569), the tick of a later rise of MAIN_PWR_EN (R632), whether the first stage has
run (R589), a lap of background sweeps (R593), whether the DRAM contents are lost (R574), the tick
of the last restart (R594), the tick at which the always-on island's reset was released (R482), and the ticks of the last samples,
sensor check and compensation run (R575, R576, R584). -/
structure Power where
  steps : Nat := 0
  queue : List Nat := []
  wake : Option (Nat × Nat) := none
  cross : Map Crossing := []
  sens : Map Sensor := []
  diode : Map Int := []
  preTripAt : Nat := 0
  preTripOn : Bool := false
  tripWait : Option (Nat × Nat) := none
  peaks : Map Int := []
  cool : Nat := 0
  pref : Bool := false
  trial : Bool := false
  tries : Nat := 0
  bootedVer : Nat := 0
  bootedSlot : Bool := false
  image : List Byte := []
  fuseVer : Nat := 0
  revoked : Nat := 0
  keyHash : Map (List Byte) := []
  flash : List Host.Cell := []
  xspi : Option Word := none
  pwrGood : Bool := false
  goodAt : Nat := 0
  pfwHold : Bool := false
  resetHeld : Bool := false
  waitCause : Option Nat := none
  mainPwrEn : Bool := true
  gate : Map (Nat × Nat) := []
  gateAt : Nat := 0
  mainAt : Option Nat := none
  firstStage : Bool := false
  relAt : Nat := 0
  sampleAt : Option Nat := none
  checkAt : Option Nat := none
  compAt : Option Nat := none
  sweepLap : Bool := false
  dramLost : Bool := true
  restartAt : Option Nat := none
deriving DecidableEq, Repr

/-! ## The machine -/

/-- The state of the machine. -/
structure State where
  /-- The commands waiting, first in first out (the block's queue). -/
  pending : List Instr := []
  /-- Ticks of 4 ns of the always-on island's 250 MHz clock since power (R51, R477). -/
  now : Nat := 0
  /-- MODEL'S OWN: counts the free values drawn so far (Config.freeWord and its kin are applied to it). -/
  free : Nat := 0
  /-- MODEL'S OWN: the answer of the last read command. -/
  resp : Response := {}
  /-- Every register of every page, keyed page * 4096 + offset; an unlisted register holds its reset value. -/
  regs : Map Word := []
  /-- Shadow copies of RWS fields that differ from the live register (R608). -/
  shadow : Map (Option Word) := []
  /-- Values latched by FREEZE (R603). -/
  frozen : Map (Option Word) := []
  /-- High words latched by a read of a low word (R52). -/
  latch : Map (Option Word) := []
  /-- Per page: unlock, BUSY, interrupt line. -/
  pg : Map PageRt := []
  /-- Bytes of the physical address map (R596): DRAM, cluster shared memories, always-on SRAM, Cocoon. -/
  mem : List Host.Cell := []
  /-- 64-byte blocks of memory stored as the poison code (R462, R497). -/
  poison : Map Bool := []
  /-- Arbitration points (R26, R27). -/
  fab : Map ArbPoint := []
  /-- Rulers, encoders, cues and line-locked contexts. -/
  tb : Timebase := {}
  /-- Event fabric. -/
  evf : EventFabric := {}
  /-- Fault aggregator, Silk, Cocoon writer, Warden, pairs. -/
  dep : Dependability := {}
  /-- Queue manager and stream contexts. -/
  qm : QueueManager := {}
  /-- Memory controllers and guard table. -/
  dram : DramState := {}
  /-- PLIC, CLINT, MSI-X, PCIe configuration space. -/
  plat : Platform := {}
  /-- Power, thermal and start-up. -/
  power : Power := {}
  /-- Sensor ports, Dralek receivers, capture streams, sequencer. -/
  cap : Capture := {}
  /-- Raw pipes and pipe contexts. -/
  pipes : RawPipes := {}
  /-- Swarm engines, threads, instruction and data memories. -/
  swarm : Swarm := {}
  /-- Encoders, decoders and JPEG XS codecs. -/
  codec : Codec := {}
  /-- Display heads, their layers and Eyespot regions, by head. -/
  disp : Map Head := []
  /-- TDM sets and ports. -/
  tdm : Tdm := {}
  /-- MACs, stream filters, recovery functions, RTP flows, PTP. -/
  net : Net := {}
  /-- SSDs, NVMe commands, namespaces, deferred errors, recording sessions, CTI queues. -/
  stor : Storage := {}
deriving DecidableEq, Repr

/-- Why a step can stop with a fault. No meaning of this model raises one: every read of memory or of a register has
an answer in the spec (R596, R599, R600). -/
inductive Fault where
  /-- Raised by nobody; kept so that the type is not empty. Safe. -/
  | none
deriving DecidableEq, Repr

/-- Why a step can be refused. -/
inductive Refusal where
  /-- A command whose meaning is not written yet, by its mnemonic. Safe: the model stops. -/
  | notModelled (mnemonic : String)
deriving DecidableEq, Repr

/-- The machine right after reset: power applied and nothing started. Every register holds its reset value, every
table is empty and no command waits. -/
def State.reset : State := {}

/-- Update of `now`. -/
def State.onNow (s : State) (f : Nat → Nat) : State := { s with now := f s.now }

/-- Update of `free`. -/
def State.onFree (s : State) (f : Nat → Nat) : State := { s with free := f s.free }

/-- Update of `resp`. -/
def State.onResp (s : State) (f : Response → Response) : State := { s with resp := f s.resp }

/-- Update of `regs`. -/
def State.onRegs (s : State) (f : Map Word → Map Word) : State := { s with regs := f s.regs }

/-- Update of `shadow`. -/
def State.onShadow (s : State) (f : Map (Option Word) → Map (Option Word)) : State := { s with shadow := f s.shadow }

/-- Update of `frozen`. -/
def State.onFrozen (s : State) (f : Map (Option Word) → Map (Option Word)) : State := { s with frozen := f s.frozen }

/-- Update of `latch`. -/
def State.onLatch (s : State) (f : Map (Option Word) → Map (Option Word)) : State := { s with latch := f s.latch }

/-- Update of `pg`. -/
def State.onPg (s : State) (f : Map PageRt → Map PageRt) : State := { s with pg := f s.pg }

/-- Update of `mem`. -/
def State.onMem (s : State) (f : List Host.Cell → List Host.Cell) : State := { s with mem := f s.mem }

/-- Update of `poison`. -/
def State.onPoison (s : State) (f : Map Bool → Map Bool) : State := { s with poison := f s.poison }

/-- Update of `fab`. -/
def State.onFab (s : State) (f : Map ArbPoint → Map ArbPoint) : State := { s with fab := f s.fab }

/-- Update of `tb`. -/
def State.onTb (s : State) (f : Timebase → Timebase) : State := { s with tb := f s.tb }

/-- Update of `evf`. -/
def State.onEvf (s : State) (f : EventFabric → EventFabric) : State := { s with evf := f s.evf }

/-- Update of `dep`. -/
def State.onDep (s : State) (f : Dependability → Dependability) : State := { s with dep := f s.dep }

/-- Update of `qm`. -/
def State.onQm (s : State) (f : QueueManager → QueueManager) : State := { s with qm := f s.qm }

/-- Update of `dram`. -/
def State.onDram (s : State) (f : DramState → DramState) : State := { s with dram := f s.dram }

/-- Update of `plat`. -/
def State.onPlat (s : State) (f : Platform → Platform) : State := { s with plat := f s.plat }

/-- Update of `power`. -/
def State.onPower (s : State) (f : Power → Power) : State := { s with power := f s.power }

/-- Update of `cap`. -/
def State.onCap (s : State) (f : Capture → Capture) : State := { s with cap := f s.cap }

/-- Update of `pipes`. -/
def State.onPipes (s : State) (f : RawPipes → RawPipes) : State := { s with pipes := f s.pipes }

/-- Update of `swarm`. -/
def State.onSwarm (s : State) (f : Swarm → Swarm) : State := { s with swarm := f s.swarm }

/-- Update of `codec`. -/
def State.onCodec (s : State) (f : Codec → Codec) : State := { s with codec := f s.codec }

/-- Update of `disp`. -/
def State.onDisp (s : State) (f : Map Head → Map Head) : State := { s with disp := f s.disp }

/-- Update of `tdm`. -/
def State.onTdm (s : State) (f : Tdm → Tdm) : State := { s with tdm := f s.tdm }

/-- Update of `net`. -/
def State.onNet (s : State) (f : Net → Net) : State := { s with net := f s.net }

/-- Update of `stor`. -/
def State.onStor (s : State) (f : Storage → Storage) : State := { s with stor := f s.stor }

end Sys2Proof.Machine
end

