-- ==== Sys2Proof/Machine/Fp.lean ====
section
/-!
DEFINITION. Exact fractions, IEEE 754 binary32 as the engines use it (R254), PF24 (R138, R139) and binary16.
-/

namespace Sys2Proof.Machine

open Sys2Proof

/-! ## Fractions -/

def Q.ofInt (n : Int) : Q := ⟨n, 1⟩
def Q.ofNat (n : Nat) : Q := ⟨n, 1⟩
def Q.add (a b : Q) : Q := ⟨a.n * b.d + b.n * a.d, a.d * b.d⟩
def Q.neg (a : Q) : Q := ⟨-a.n, a.d⟩
def Q.sub (a b : Q) : Q := a.add b.neg
def Q.mul (a b : Q) : Q := ⟨a.n * b.n, a.d * b.d⟩
/-- Division; by 0 it is 0. -/
def Q.div (a b : Q) : Q :=
  if b.n = 0 then ⟨0, 1⟩ else if 0 < b.n then ⟨a.n * b.d, a.d * b.n.natAbs⟩ else ⟨-(a.n * b.d), a.d * b.n.natAbs⟩
def Q.lt (a b : Q) : Bool := decide (a.n * b.d < b.n * a.d)
def Q.le (a b : Q) : Bool := decide (a.n * b.d ≤ b.n * a.d)
def Q.eq (a b : Q) : Bool := decide (a.n * b.d = b.n * a.d)
def Q.abs (a : Q) : Q := ⟨a.n.natAbs, a.d⟩
def Q.max (a b : Q) : Q := if a.lt b then b else a
def Q.min (a b : Q) : Q := if b.lt a then b else a
def Q.clamp (lo hi a : Q) : Q := (a.max lo).min hi
def Q.floor (a : Q) : Int := a.n / a.d
def Q.zero : Q := ⟨0, 1⟩
def Q.one : Q := ⟨1, 1⟩
def Q.half (a : Q) : Q := ⟨a.n, 2 * a.d⟩
def Q.sum (l : List Q) : Q := l.foldl Q.add Q.zero
/-- Nearest integer, ties upwards. -/
def Q.round (a : Q) : Int := (2 * a.n + a.d) / (2 * a.d)
/-- Nearest integer, ties to even. -/
def Q.roundEven (a : Q) : Int :=
  let f := a.floor
  let r := 2 * (a.n - f * a.d)
  if r < a.d then f else if r = a.d then (if f % 2 = 0 then f else f + 1) else f + 1
/-- Times 2^k. -/
def Q.shift (a : Q) (k : Int) : Q := if 0 ≤ k then ⟨a.n * 2 ^ k.toNat, a.d⟩ else ⟨a.n, a.d * 2 ^ (-k).toNat⟩
/-- Largest k with 2^k ≤ |a|, for a ≠ 0. -/
def Q.ilog2 (a : Q) : Int :=
  let k : Int := (a.n.natAbs.log2 : Int) - a.d.log2
  if (Q.one.shift k).le a.abs then k else k - 1

/-- Round to `p` significant bits, ties to even; `|a| < 2^emin` becomes 0 after rounding (subnormals are flushed). -/
def Q.roundSig (p : Nat) (emin : Int) (a : Q) : Q :=
  if a.n = 0 then Q.zero
  else
    let k := a.ilog2 - (p - 1 : Nat)
    let r := (Q.ofInt (a.shift (-k)).roundEven).shift k
    if r.abs.lt (Q.one.shift emin) then Q.zero else r

/-- PF24 (R138, R139): 16 significant bits, subnormals flushed, saturated to ±8,192. -/
def pf24 (a : Q) : Q := Q.clamp ⟨-8192, 1⟩ ⟨8192, 1⟩ (a.roundSig 16 (-126))

/-- Round to `p` significant bits, ties to even, with gradual underflow below 2^emin as IEEE 754 has it. -/
def Q.roundIeee (p : Nat) (emin : Int) (a : Q) : Q :=
  if a.n = 0 then Q.zero
  else
    let k := (if a.ilog2 < emin then emin else a.ilog2) - (p - 1 : Nat)
    (Q.ofInt (a.shift (-k)).roundEven).shift k

/-- Binary32 and binary64 rounding of one operation (R187, R191, R231). -/
def b32 (a : Q) : Q := a.roundIeee 24 (-126)
def b64 (a : Q) : Q := a.roundIeee 53 (-1022)

/-- Binary32 arithmetic (R187, R191). -/
def Q.addF (a b : Q) : Q := b32 (a.add b)
def Q.subF (a b : Q) : Q := b32 (a.sub b)
def Q.mulF (a b : Q) : Q := b32 (a.mul b)
def Q.divF (a b : Q) : Q := b32 (a.div b)
def Q.sumF (l : List Q) : Q := l.foldl Q.addF Q.zero

/-- The fraction in lowest terms, so that equal values give a free function the same argument. -/
def Q.lowest (a : Q) : Q :=
  let g := Nat.gcd a.n.natAbs a.d
  if g ≤ 1 then a else ⟨a.n / g, a.d / g⟩

/-- A configuration's free fraction functions, on `Q`. -/
def qfun (f : Int × Nat → Int × Nat) (a : Q) : Q := let x := a.lowest; let r := f (x.n, x.d); ⟨r.1, r.2 + 1⟩
def qfun2 (f : Int × Nat → Int × Nat → Int × Nat) (a b : Q) : Q :=
  let x := a.lowest
  let y := b.lowest
  let r := f (x.n, x.d) (y.n, y.d)
  ⟨r.1, r.2 + 1⟩

/-- A free value kept within an absolute error `tol` of the function's value: itself where it is, else the value. -/
def Q.within (free good tol : Q) : Q := if (free.sub good).abs.le tol then free else good

/-! ## binary32 -/

/-- A binary32 value with subnormal inputs flushed (R254): NaN, an infinity with its sign, or a sign and magnitude. -/
inductive F32 where
  | nan
  | inf (neg : Bool)
  | num (neg : Bool) (mag : Q)
deriving DecidableEq, Repr

/-- The value of a binary32 word. -/
def f32 (w : Word) : F32 :=
  let e := wfld w 23 8
  let m := wfld w 0 23
  let s := bitAt w 31
  if e = 255 then (if m = 0 then .inf s else .nan)
  else if e = 0 then .num s Q.zero
  else .num s ((Q.ofNat (2 ^ 23 + m)).shift ((e : Int) - 150))

/-- The canonical NaN. -/
def nan32 : Word := wd 0x7FC00000

/-- A signed magnitude rounded to binary32, ties to even; subnormal results are flushed, overflow is infinite. -/
def toF32 (neg : Bool) (mag : Q) : Word :=
  let r := mag.roundSig 24 (-126)
  let s := neg.toNat * 2 ^ 31
  if r.n = 0 then wd s
  else
    let e := r.ilog2
    if 127 < e then wd (s + 255 * 2 ^ 23)
    else wd (s + (e + 127).toNat * 2 ^ 23 + ((r.shift (23 - e)).floor.toNat - 2 ^ 23))

/-- A fraction rounded to binary32; zero is +0. -/
def qToF32 (a : Q) : Word := toF32 (decide (a.n < 0)) a.abs

/-- The signed fraction of a finite value. -/
def F32.q : F32 → Q
  | .num true m => m.neg
  | .num false m => m
  | _ => Q.zero

/-- A finite binary32 result of the engines: none for a NaN or an infinity. -/
def f32q (w : Word) : Option Q :=
  match f32 w with
  | .num n m => some (F32.num n m).q
  | _ => none

/-- A binary32 parameter with its subnormals: none for a NaN or an infinity (R180). -/
def f32p (w : Word) : Option Q :=
  if wfld w 23 8 = 0 then
    let v := (Q.ofNat (wfld w 0 23)).shift (-149)
    some (if bitAt w 31 then v.neg else v)
  else f32q w

/-- A value as a word, NaN canonical. -/
def F32.word : F32 → Word
  | .nan => nan32
  | .inf n => wd (n.toNat * 2 ^ 31 + 255 * 2 ^ 23)
  | .num n m => toF32 n m

def F32.negate : F32 → F32
  | .nan => .nan
  | .inf n => .inf (!n)
  | .num n m => .num (!n) m

/-- Sum of two values: exact, then rounded; exact zero is +0 unless both are −0. -/
def F32.add (a b : F32) : Word :=
  match a, b with
  | .nan, _ | _, .nan => nan32
  | .inf n, .inf n' => if n = n' then (F32.inf n).word else nan32
  | .inf n, _ | _, .inf n => (F32.inf n).word
  | .num n m, .num n' m' =>
    let r := (F32.num n m).q.add (F32.num n' m').q
    if r.n = 0 then wd ((n && n').toNat * 2 ^ 31) else qToF32 r

/-- Exact product as a value. -/
def F32.mulExact (a b : F32) : F32 :=
  match a, b with
  | .nan, _ | _, .nan => .nan
  | .inf n, .inf n' => .inf (n != n')
  | .inf n, .num n' m | .num n' m, .inf n => if m.n = 0 then .nan else .inf (n != n')
  | .num n m, .num n' m' => .num (n != n') (m.mul m')

def fAdd (a b : Word) : Word := (f32 a).add (f32 b)
def fSub (a b : Word) : Word := (f32 a).add (f32 b).negate
def fMul (a b : Word) : Word := ((f32 a).mulExact (f32 b)).word
/-- c + a × b with one rounding. -/
def fMa (c a b : Word) : Word := (f32 c).add ((f32 a).mulExact (f32 b))

/-- a < b, with infinities; false with a NaN. -/
def F32.lt (a b : F32) : Bool :=
  match a, b with
  | .nan, _ | _, .nan => false
  | .inf n, .inf n' => n && !n'
  | .inf n, _ => n
  | _, .inf n => !n
  | x, y => x.q.lt y.q

/-- a = b, zeros of both signs equal; false with a NaN. -/
def F32.eq (a b : F32) : Bool :=
  match a, b with
  | .nan, _ | _, .nan => false
  | .inf n, .inf n' => n == n'
  | .inf _, _ | _, .inf _ => false
  | x, y => x.q.eq y.q

/-- FMIN and FMAX: of one NaN and a number, IEEE 754 leaves open whether the number or the NaN results, and the canonical NaN is the only
NaN (R254); of two zeros it leaves the sign open. -/
def fMinMax (max : Bool) (a b : Word) : Word :=
  let x := f32 a
  let y := f32 b
  if x = .nan ∧ y = .nan then nan32
  else if x = .nan then (if bitAt (Config.minMaxOpen max a b) 0 then y.word else nan32)
  else if y = .nan then (if bitAt (Config.minMaxOpen max a b) 0 then x.word else nan32)
  else if x.eq y then (if x.word = y.word ∨ bitAt (Config.minMaxOpen max a b) 0 then x.word else y.word)
  else if x.lt y then (if max then y.word else x.word) else (if max then x.word else y.word)

/-- fp32 to int32: nearest even, saturated, 0 for a NaN. -/
def fToInt (a : Word) : Word :=
  match f32 a with
  | .nan => 0
  | .inf n => if n then wd 0x80000000 else wd 0x7FFFFFFF
  | x => wd (unsigned 32 (satS 32 x.q.roundEven))

/-- int32 to fp32. -/
def intToF (a : Word) : Word := qToF32 (Q.ofInt (signed 32 a.toNat))

/-- Integer square root by bits. -/
def isqrtGo : Nat → Nat → Nat → Nat
  | 0, r, _ => r
  | k + 1, r, n => let t := r + 2 ^ k; if t * t ≤ n then isqrtGo k t n else isqrtGo k r n
def isqrt (n : Nat) : Nat := isqrtGo (n.log2 / 2 + 1) 0 n

/-- A free word kept within a bound: the word where it meets the bound, the given one elsewhere. -/
def keepIf (free good : Word) (ok : Q → Bool) : Word :=
  match f32q free with
  | some q => if ok q then free else good
  | none => good

/-- FRCP: bits free within a relative error of 2^-22. -/
def fRcp (a : Word) : Word :=
  match f32 a with
  | .nan => nan32
  | .inf n => wd (n.toNat * 2 ^ 31)
  | .num n m =>
    if m.n = 0 then (F32.inf n).word
    else
      let x := (F32.num n m).q
      keepIf (Config.recipApprox a) (qToF32 (Q.one.div x)) fun r => ((r.mul x).sub Q.one).abs.le ⟨1, 2 ^ 22⟩

/-- FRSQ: bits free within a relative error of 2^-22. -/
def fRsq (a : Word) : Word :=
  match f32 a with
  | .nan => nan32
  | .inf n => if n then nan32 else 0
  | .num n m =>
    if m.n = 0 then (F32.inf n).word
    else if n then nan32
    else
      let lo : Q := ⟨2 ^ 22 - 1, 2 ^ 22⟩
      let hi : Q := ⟨2 ^ 22 + 1, 2 ^ 22⟩
      let good := toF32 false ((Q.ofNat (isqrt ((Q.one.div m).shift 400).floor.toNat)).shift (-200))
      keepIf (Config.rsqrtApprox a) good fun r =>
        Q.zero.lt r && (lo.mul lo).le ((r.mul r).mul m) && ((r.mul r).mul m).le (hi.mul hi)

/-! ## binary16 -/

/-- The fraction of a binary16 value; infinities and NaN read as ±65,504 and 0. -/
def f16q (h : Nat) : Q :=
  let e := h / 1024 % 32
  let m := h % 1024
  let q := if e = 0 then (Q.ofNat m).shift (-24) else (Q.ofNat (1024 + m)).shift ((e : Int) - 25)
  let v := if e = 31 then (if m = 0 then Q.ofNat 65504 else Q.zero) else q
  if h / 32768 % 2 = 1 then v.neg else v

/-- A binary16 value as binary32 (VFCVTSH), subnormal inputs flushed. -/
def f16ToF32 (h : Nat) : Word :=
  let s := h / 32768 % 2 * 2 ^ 31
  let e := h / 1024 % 32
  let m := h % 1024
  if e = 31 then (if m = 0 then wd (s + 255 * 2 ^ 23) else nan32)
  else if e = 0 then wd s
  else wd (s + (e + 112) * 2 ^ 23 + m * 2 ^ 13)

/-- A fraction rounded to binary16: nearest even, saturated at ±65,504, subnormals flushed. -/
def qToF16 (a : Q) : Nat :=
  let r := (a.abs.roundSig 11 (-14)).min (Q.ofNat 65504)
  let s := (decide (a.n < 0)).toNat * 32768
  if r.n = 0 then s
  else
    let e := r.ilog2
    s + (e + 15).toNat * 1024 + ((r.shift (10 - e)).floor.toNat - 1024)

/-- A branch sample as binary16 (R201): nearest even with subnormals, saturated at ±65,504. -/
def qToHalf (a : Q) : Nat :=
  let r := (a.abs.roundIeee 11 (-14)).min (Q.ofNat 65504)
  let s := (decide (a.n < 0)).toNat * 32768
  if r.lt (Q.one.shift (-14)) then s + (r.shift 24).floor.toNat
  else
    let e := r.ilog2
    s + (e + 15).toNat * 1024 + ((r.shift (10 - e)).floor.toNat - 1024)

/-- fp32 to binary16 (VFCVTHS). -/
def f32ToF16 (w : Word) : Nat :=
  match f32 w with
  | .nan => 0x7E00
  | .inf n => n.toNat * 32768 + 0x7BFF
  | .num n m => if m.n = 0 then n.toNat * 32768 else qToF16 (F32.num n m).q

end Sys2Proof.Machine
end

