-- ==== Sys2Proof/Machine/Regs.lean ====
section
/-!
DEFINITION. The register map: the offset of every register the spec's register tables define, and for each
its count, stride, reset value and access masks (R14, R17, R597 and the register tables of every chapter).
A bit in none of the masks is read-only, write-only or reserved: a plain register write leaves it unchanged.
-/

namespace Sys2Proof.Machine

/-- One row of a register table: `n` registers at `off + stride * i`, each repeated `n2` times at `stride2`,
with the reset value and one mask of bits per access code of R17. -/
structure RegDesc where
  off : Nat
  n : Nat
  stride : Nat
  n2 : Nat
  stride2 : Nat
  reset : Nat
  rw : Nat
  rws : Nat
  rwi : Nat
  w1c : Nat
  w1s : Nat
  rc : Nat
deriving DecidableEq, Repr

namespace Off

/-- timebase.TIME_SEC_LO (RO, reset 0). -/
abbrev timebase_TIME_SEC_LO : Nat := 0x100
/-- timebase.TIME_SEC_HI (RO, reset 0). -/
abbrev timebase_TIME_SEC_HI : Nat := 0x104
/-- timebase.TIME_NS (RO, reset 0). -/
abbrev timebase_TIME_NS : Nat := 0x108
/-- timebase.TIME_FRAC (RO, reset 0). -/
abbrev timebase_TIME_FRAC : Nat := 0x10c
/-- timebase.TIME_STAT (RO, reset 0). -/
abbrev timebase_TIME_STAT : Nat := 0x110
/-- timebase.TIME_CTRL (RW, reset 0x1). -/
abbrev timebase_TIME_CTRL : Nat := 0x114
/-- timebase.RATE_ADJ (RO, reset 0). -/
abbrev timebase_RATE_ADJ : Nat := 0x118
/-- timebase.TIME_SET_SEC_LO (RW, reset 0). -/
abbrev timebase_TIME_SET_SEC_LO : Nat := 0x120
/-- timebase.TIME_SET_SEC_HI (RW, reset 0). -/
abbrev timebase_TIME_SET_SEC_HI : Nat := 0x124
/-- timebase.TIME_SET_NS (RW, reset 0). -/
abbrev timebase_TIME_SET_NS : Nat := 0x128
/-- timebase.TIME_SET_GO (WO, reset 0). -/
abbrev timebase_TIME_SET_GO : Nat := 0x12c
/-- timebase.SNAP (WO, reset 0). -/
abbrev timebase_SNAP : Nat := 0x130
/-- timebase.SNAP_STAT (RO, reset 0). -/
abbrev timebase_SNAP_STAT : Nat := 0x134
/-- timebase.SNAP_TIME (RO, reset 0). -/
abbrev timebase_SNAP_TIME : Nat := 0x140
/-- timebase.SNAP_DIST0–3 (RO, reset 0). -/
abbrev timebase_SNAP_DIST0 : Nat := 0x150
/-- timebase.SNAP_PHASE0–1 (RO, reset 0). -/
abbrev timebase_SNAP_PHASE0 : Nat := 0x170
/-- dist.CFG (RWI, reset 0). -/
abbrev dist_CFG : Nat := 0x100
/-- dist.STEP_UM (RWI, reset 1,000). -/
abbrev dist_STEP_UM : Nat := 0x104
/-- dist.CIRC_UM (RWS, reset 3,000,000). -/
abbrev dist_CIRC_UM : Nat := 0x108
/-- dist.EDGES_PER_REV (RWI, reset 4,096). -/
abbrev dist_EDGES_PER_REV : Nat := 0x10c
/-- dist.INC_LO (RO, reset 0). -/
abbrev dist_INC_LO : Nat := 0x110
/-- dist.INC_HI (RO, reset 0). -/
abbrev dist_INC_HI : Nat := 0x114
/-- dist.POS_LO (RO, reset 0). -/
abbrev dist_POS_LO : Nat := 0x118
/-- dist.POS_HI (RO, reset 0). -/
abbrev dist_POS_HI : Nat := 0x11c
/-- dist.RATE (RO, reset 0). -/
abbrev dist_RATE : Nat := 0x120
/-- dist.ACCEL (RO, reset 0). -/
abbrev dist_ACCEL : Nat := 0x124
/-- dist.RATE_QUAL (RO, reset 0). -/
abbrev dist_RATE_QUAL : Nat := 0x128
/-- dist.STATUS (RO, reset 0x2). -/
abbrev dist_STATUS : Nat := 0x12c
/-- dist.SLIP_CFG (RW, reset 0x0032_012C). -/
abbrev dist_SLIP_CFG : Nat := 0x130
/-- dist.EST_CFG (RWI, reset 0x0064_0040). -/
abbrev dist_EST_CFG : Nat := 0x134
/-- dist.POS_SET_HI (RW, reset 0). -/
abbrev dist_POS_SET_HI : Nat := 0x138
/-- dist.POS_SET_LO (RW, reset 0). -/
abbrev dist_POS_SET_LO : Nat := 0x13c
/-- dist.ENC_CFG (RWI, reset 0x0000_0A00). -/
abbrev dist_ENC_CFG : Nat := 0x200
/-- dist.ENC_COUNT (RO, reset 0). -/
abbrev dist_ENC_COUNT : Nat := 0x204
/-- dist.ENC_FAULTS (RC, reset 0). -/
abbrev dist_ENC_FAULTS : Nat := 0x208
/-- dist.ENC_STAT (RO, reset 0). -/
abbrev dist_ENC_STAT : Nat := 0x20c
/-- dist.SEC_TRIM (RW, reset 0). -/
abbrev dist_SEC_TRIM : Nat := 0x300
/-- phase.CFG (RWI, reset 0). -/
abbrev phase_CFG : Nat := 0x100
/-- phase.NOM_MHZ (RWI, reset 50,000). -/
abbrev phase_NOM_MHZ : Nat := 0x104
/-- phase.LOOP_CFG (RW, reset 0x100C_0806). -/
abbrev phase_LOOP_CFG : Nat := 0x108
/-- phase.FILTER (RW, reset 0x0A19_00C8). -/
abbrev phase_FILTER : Nat := 0x10c
/-- phase.PHASE (RO, reset 0). -/
abbrev phase_PHASE : Nat := 0x110
/-- phase.CYCLES (RO, reset 0). -/
abbrev phase_CYCLES : Nat := 0x114
/-- phase.FREQ (RO, reset 0). -/
abbrev phase_FREQ : Nat := 0x118
/-- phase.STATUS (RO, reset 0). -/
abbrev phase_STATUS : Nat := 0x11c
/-- phase.REJECTS (RC, reset 0). -/
abbrev phase_REJECTS : Nat := 0x120
/-- cue.CUE_SEL (RW, reset 0). -/
abbrev cue_CUE_SEL : Nat := 0x100
/-- cue.CUE_CMD (WO, reset 0). -/
abbrev cue_CUE_CMD : Nat := 0x104
/-- cue.CUE_CMD_STAT (RO, reset 0). -/
abbrev cue_CUE_CMD_STAT : Nat := 0x108
/-- cue.CUE_D0–CUE_D7 (RW (D7 RO), reset 0). -/
abbrev cue_CUE_D0 : Nat := 0x110
/-- cue.CUE_D7 (RO, reset 0). -/
abbrev cue_CUE_D7 : Nat := 0x12c
/-- cue.ARMED0–15 (RO, reset 0). -/
abbrev cue_ARMED0 : Nat := 0x140
/-- cue.FIRED0–15 (W1C, reset 0). -/
abbrev cue_FIRED0 : Nat := 0x180
/-- cue.MISSED0–15 (W1C, reset 0). -/
abbrev cue_MISSED0 : Nat := 0x1c0
/-- cue.AON_USED (RO, reset 0). -/
abbrev cue_AON_USED : Nat := 0x200
/-- cue.LATE_TOL (RW, reset 100). -/
abbrev cue_LATE_TOL : Nat := 0x204
/-- lineview.LINE0–7 (RO, reset 0). -/
abbrev lineview_LINE0 : Nat := 0x100
/-- lineview.SNAP_LINE0–7 (RO, reset 0). -/
abbrev lineview_SNAP_LINE0 : Nat := 0x140
/-- lineview.SLINE0–63 (RO, reset 0). -/
abbrev lineview_SLINE0 : Nat := 0x200
/-- lineview.SLINE_SRC0–63 (RWI, reset n). -/
abbrev lineview_SLINE_SRC0 : Nat := 0x400
/-- lineview.LL_CFG (RWI, reset 0). -/
abbrev lineview_LL_CFG : Nat := 0x500
/-- lineview.LL_GEOM (RWI, reset 0). -/
abbrev lineview_LL_GEOM : Nat := 0x504
/-- lineview.LL_BAND (RWI, reset 64). -/
abbrev lineview_LL_BAND : Nat := 0x508
/-- lineview.LL_LIMIT (RW, reset 0). -/
abbrev lineview_LL_LIMIT : Nat := 0x50c
/-- lineview.LL_STAT (RO, reset 0). -/
abbrev lineview_LL_STAT : Nat := 0x510
/-- lineview.LL_MARGIN_MIN (RC, reset 0x7FFF_FFFF). -/
abbrev lineview_LL_MARGIN_MIN : Nat := 0x514
/-- lineview.LL_LAT_MAX (RC, reset 0). -/
abbrev lineview_LL_LAT_MAX : Nat := 0x518
/-- lineview.LL_LAT_LAST (RO, reset 0). -/
abbrev lineview_LL_LAT_LAST : Nat := 0x51c
/-- lineview.LL_PAIR (RO, reset 0). -/
abbrev lineview_LL_PAIR : Nat := 0x520
/-- lineview.LL_PAIR_LINE (RO, reset 0). -/
abbrev lineview_LL_PAIR_LINE : Nat := 0x524
/-- lineview.SNAP_SLINE0–63 (RO, reset 0). -/
abbrev lineview_SNAP_SLINE0 : Nat := 0x800
/-- sens.CFG (RWI, reset 0). -/
abbrev sens_CFG : Nat := 0x100
/-- sens.SEG_W (RWI, reset 0). -/
abbrev sens_SEG_W : Nat := 0x104
/-- sens.LANE_MAP (RWI, reset 0x0000_0688). -/
abbrev sens_LANE_MAP : Nat := 0x108
/-- sens.DESKEW (RO, reset 0). -/
abbrev sens_DESKEW : Nat := 0x10c
/-- sens.STAT (RO, reset 0). -/
abbrev sens_STAT : Nat := 0x110
/-- sens.CNT_ECC (RC, reset 0). -/
abbrev sens_CNT_ECC : Nat := 0x114
/-- sens.CNT_CRC (RC, reset 0). -/
abbrev sens_CNT_CRC : Nat := 0x118
/-- sens.CNT_LINE (RC, reset 0). -/
abbrev sens_CNT_LINE : Nat := 0x11c
/-- sens.CNT_PKT (RO, reset 0). -/
abbrev sens_CNT_PKT : Nat := 0x120
/-- sens.I3C_CFG (RWI, reset 0x007C_0900). -/
abbrev sens_I3C_CFG : Nat := 0x400
/-- sens.I3C_CMD (WO, reset 0). -/
abbrev sens_I3C_CMD : Nat := 0x404
/-- sens.I3C_TXDATA (WO, reset 0). -/
abbrev sens_I3C_TXDATA : Nat := 0x408
/-- sens.I3C_RXDATA (RO, reset 0). -/
abbrev sens_I3C_RXDATA : Nat := 0x40c
/-- sens.I3C_STAT (RO, reset 0). -/
abbrev sens_I3C_STAT : Nat := 0x410
/-- sens.I3C_IBI (RC, reset 0). -/
abbrev sens_I3C_IBI : Nat := 0x414
/-- sens.I3C_COUNT (RC, reset 0). -/
abbrev sens_I3C_COUNT : Nat := 0x418
/-- dlk.CFG (RWI, reset 0). -/
abbrev dlk_CFG : Nat := 0x100
/-- dlk.STATE (RO, reset 0). -/
abbrev dlk_STATE : Nat := 0x104
/-- dlk.MAP_LO (RO, reset 0xFFFF_FFFF). -/
abbrev dlk_MAP_LO : Nat := 0x108
/-- dlk.MAP_HI (RO, reset 0x00FF_FFFF). -/
abbrev dlk_MAP_HI : Nat := 0x10c
/-- dlk.FAIL_CFG (RW, reset 0x0000_0810). -/
abbrev dlk_FAIL_CFG : Nat := 0x110
/-- dlk.SKEW_MAX (RC, reset 0). -/
abbrev dlk_SKEW_MAX : Nat := 0x114
/-- dlk.COUNTS (RC, reset 0). -/
abbrev dlk_COUNTS : Nat := 0x118
/-- dlk.BC_TX0 (RW, reset 0). -/
abbrev dlk_BC_TX0 : Nat := 0x120
/-- dlk.BC_TX1 (RW, reset 0). -/
abbrev dlk_BC_TX1 : Nat := 0x124
/-- dlk.BC_TX_GO (WO, reset 0). -/
abbrev dlk_BC_TX_GO : Nat := 0x128
/-- dlk.BC_STAT (RO, reset 0). -/
abbrev dlk_BC_STAT : Nat := 0x12c
/-- dlk.BC_RX0 (RO, reset 0). -/
abbrev dlk_BC_RX0 : Nat := 0x130
/-- dlk.BC_RX1 (RO, reset 0). -/
abbrev dlk_BC_RX1 : Nat := 0x134
/-- dlk.BC_CFG (RW, reset 0x0001_0064). -/
abbrev dlk_BC_CFG : Nat := 0x138
/-- dlk.RTT (RO, reset 0). -/
abbrev dlk_RTT : Nat := 0x13c
/-- swift.LANE_CFG (RWI, reset 0). -/
abbrev swift_LANE_CFG : Nat := 0x100
/-- swift.DLK_LSTAT (RO, reset 0). -/
abbrev swift_DLK_LSTAT : Nat := 0x180
/-- swift.DLK_BIP (RC, reset 0). -/
abbrev swift_DLK_BIP : Nat := 0x184
/-- swift.DLK_FILL (RC, reset 0). -/
abbrev swift_DLK_FILL : Nat := 0x188
/-- swift.DLK_FAILS (RO, reset 0). -/
abbrev swift_DLK_FAILS : Nat := 0x18c
/-- swift.ETH_LSTAT (RO, reset 0). -/
abbrev swift_ETH_LSTAT : Nat := 0x1a0
/-- swift.ETH_LCFG (RWI, reset 0). -/
abbrev swift_ETH_LCFG : Nat := 0x1a4
/-- swift.ETH_ERR (RC, reset 0). -/
abbrev swift_ETH_ERR : Nat := 0x1a8
/-- swift.ETH_FEC (RC, reset 0). -/
abbrev swift_ETH_FEC : Nat := 0x1ac
/-- swift.TX_EQ (RWI, reset 0x0A00_0400). -/
abbrev swift_TX_EQ : Nat := 0x200
/-- swift.RX_EQ (RO, reset 0). -/
abbrev swift_RX_EQ : Nat := 0x204
/-- swift.EYE_CFG (RW, reset 0x0014_0000). -/
abbrev swift_EYE_CFG : Nat := 0x208
/-- swift.EYE_CMD (WO, reset 0). -/
abbrev swift_EYE_CMD : Nat := 0x20c
/-- swift.EYE_STAT (RO, reset 0). -/
abbrev swift_EYE_STAT : Nat := 0x210
/-- swift.EYE_ERR_LO (RO, reset 0). -/
abbrev swift_EYE_ERR_LO : Nat := 0x214
/-- swift.EYE_ERR_HI (RO, reset 0). -/
abbrev swift_EYE_ERR_HI : Nat := 0x218
/-- intake.STRM_SEL (RW, reset 0). -/
abbrev intake_STRM_SEL : Nat := 0x100
/-- intake.STRM_CMD (WO, reset 0). -/
abbrev intake_STRM_CMD : Nat := 0x104
/-- intake.STRM_CMD_STAT (RO, reset 0). -/
abbrev intake_STRM_CMD_STAT : Nat := 0x108
/-- intake.STRM_D0–D15 (RW, reset 0). -/
abbrev intake_STRM_D0 : Nat := 0x140
/-- intake.STRM_R0–R15 (RO, reset 0). -/
abbrev intake_STRM_R0 : Nat := 0x180
/-- intake.ENABLED (RO, reset 0). -/
abbrev intake_ENABLED : Nat := 0x1c0
/-- intake.BUF_FREE (RO, reset 4,096). -/
abbrev intake_BUF_FREE : Nat := 0x1c4
/-- intake.RATE (RO, reset 0). -/
abbrev intake_RATE : Nat := 0x1c8
/-- intake.CNT (RC, reset 0). -/
abbrev intake_CNT : Nat := 0x1cc
/-- intake.SEQ_CNT (RC, reset 0). -/
abbrev intake_SEQ_CNT : Nat := 0x1d0
/-- pipeCtl.CTX_SEL (RW, reset 0). -/
abbrev pipeCtl_CTX_SEL : Nat := 0x100
/-- pipeCtl.CTX_CMD (WO, reset 0). -/
abbrev pipeCtl_CTX_CMD : Nat := 0x104
/-- pipeCtl.CTX_CMD_STAT (RO, reset 0). -/
abbrev pipeCtl_CTX_CMD_STAT : Nat := 0x108
/-- pipeCtl.CUR (RO, reset 0). -/
abbrev pipeCtl_CUR : Nat := 0x10c
/-- pipeCtl.SWITCHES (RC, reset 0). -/
abbrev pipeCtl_SWITCHES : Nat := 0x110
/-- pipeCtl.SWITCH_MAX (RC, reset 0). -/
abbrev pipeCtl_SWITCH_MAX : Nat := 0x114
/-- pipeCtl.UTIL (RO, reset 0). -/
abbrev pipeCtl_UTIL : Nat := 0x118
/-- pipeCtl.POISON_CNT (RC, reset 0). -/
abbrev pipeCtl_POISON_CNT : Nat := 0x11c
/-- pipeCtl.LINES_DROPPED (RC, reset 0). -/
abbrev pipeCtl_LINES_DROPPED : Nat := 0x120
/-- pipeCtl.LAT (RO, reset 0). -/
abbrev pipeCtl_LAT : Nat := 0x124
/-- pipeCtl.CTX_D0–D15 (RW, reset 0). -/
abbrev pipeCtl_CTX_D0 : Nat := 0x140
/-- pipeCtl.CTX_STATE0–3 (RO, reset 0). -/
abbrev pipeCtl_CTX_STATE0 : Nat := 0x180
/-- pipeCtl.PSET_PTR_LO (RW, reset 0). -/
abbrev pipeCtl_PSET_PTR_LO : Nat := 0x190
/-- pipeCtl.PSET_PTR_HI (RW, reset 0). -/
abbrev pipeCtl_PSET_PTR_HI : Nat := 0x194
/-- pipeCtl.PSET_REQ_FRAME (RW, reset 0). -/
abbrev pipeCtl_PSET_REQ_FRAME : Nat := 0x198
/-- pipeCtl.PSET_PUSH (WO, reset 0). -/
abbrev pipeCtl_PSET_PUSH : Nat := 0x19c
/-- pipeStage.STAGE_CTRL (RW, reset 0). -/
abbrev pipeStage_STAGE_CTRL : Nat := 0x100
/-- pipeStage.STAGE_STAT (RO, reset 0). -/
abbrev pipeStage_STAGE_STAT : Nat := 0x104
/-- pipeStage.TBL_PSET (RO, reset 0). -/
abbrev pipeStage_TBL_PSET : Nat := 0x108
/-- pipeStage.TBL_ADDR (RW, reset 0). -/
abbrev pipeStage_TBL_ADDR : Nat := 0x10c
/-- pipeStage.TBL_DATA (RO, reset 0). -/
abbrev pipeStage_TBL_DATA : Nat := 0x110
/-- pipeStage.CNT0 (RC, reset 0). -/
abbrev pipeStage_CNT0 : Nat := 0x114
/-- pipeStage.CNT1 (RC, reset 0). -/
abbrev pipeStage_CNT1 : Nat := 0x118
/-- pipeStage.CNT_SRAM (RC, reset 0). -/
abbrev pipeStage_CNT_SRAM : Nat := 0x11c
/-- pipeMatrix.MTX_ALPHA (RO, reset 0). -/
abbrev pipeMatrix_MTX_ALPHA : Nat := 0x120
/-- pipeMatrix.MTX_PSET (RO, reset 0). -/
abbrev pipeMatrix_MTX_PSET : Nat := 0x124
/-- pipeLut.SLOT0_TAG (RO, reset 0). -/
abbrev pipeLut_SLOT0_TAG : Nat := 0x120
/-- pipeLut.SLOT1_TAG (RO, reset 0). -/
abbrev pipeLut_SLOT1_TAG : Nat := 0x124
/-- pipeLut.LUT_STAT (RO, reset 0). -/
abbrev pipeLut_LUT_STAT : Nat := 0x128
/-- pipeLut.LUT_WAIT_MAX (RC, reset 0). -/
abbrev pipeLut_LUT_WAIT_MAX : Nat := 0x12c
/-- pipeBranch.BR_SEL (RW, reset 0). -/
abbrev pipeBranch_BR_SEL : Nat := 0x100
/-- pipeBranch.BR_CMD (WO, reset 0). -/
abbrev pipeBranch_BR_CMD : Nat := 0x104
/-- pipeBranch.BR_CMD_STAT (RO, reset 0). -/
abbrev pipeBranch_BR_CMD_STAT : Nat := 0x108
/-- pipeBranch.BR_STAT (RO, reset 0). -/
abbrev pipeBranch_BR_STAT : Nat := 0x10c
/-- pipeBranch.FRAMES (RC, reset 0). -/
abbrev pipeBranch_FRAMES : Nat := 0x110
/-- pipeBranch.NOBUF (RC, reset 0). -/
abbrev pipeBranch_NOBUF : Nat := 0x114
/-- pipeBranch.CNT0 (RC, reset 0). -/
abbrev pipeBranch_CNT0 : Nat := 0x118
/-- pipeBranch.CNT1 (RC, reset 0). -/
abbrev pipeBranch_CNT1 : Nat := 0x11c
/-- pipeBranch.CNT_SRAM (RC, reset 0). -/
abbrev pipeBranch_CNT_SRAM : Nat := 0x120
/-- pipeBranch.TONE_TAG (RO, reset 0). -/
abbrev pipeBranch_TONE_TAG : Nat := 0x124
/-- pipeBranch.BR_D0–BR_D7 (RW, reset 0). -/
abbrev pipeBranch_BR_D0 : Nat := 0x140
/-- pipeBranch.HIST_CYCLES (RO, reset 0). -/
abbrev pipeBranch_HIST_CYCLES : Nat := 0x160
/-- pipeStats.SEL (RW, reset 0). -/
abbrev pipeStats_SEL : Nat := 0x100
/-- pipeStats.STAT_BASE_LO (RWI, reset 0). -/
abbrev pipeStats_STAT_BASE_LO : Nat := 0x104
/-- pipeStats.STAT_BASE_HI (RWI, reset 0). -/
abbrev pipeStats_STAT_BASE_HI : Nat := 0x108
/-- pipeStats.STAT_EVT (RWI, reset 0). -/
abbrev pipeStats_STAT_EVT : Nat := 0x10c
/-- pipeStats.RING_STAT (RO, reset 0). -/
abbrev pipeStats_RING_STAT : Nat := 0x110
/-- pipeStats.CUR_PSET (RO, reset 0). -/
abbrev pipeStats_CUR_PSET : Nat := 0x114
/-- pipeStats.CUR_APPLIED (RO, reset 0). -/
abbrev pipeStats_CUR_APPLIED : Nat := 0x118
/-- pipeStats.LAST_FRAME (RO, reset 0). -/
abbrev pipeStats_LAST_FRAME : Nat := 0x11c
/-- pipeStats.CNT_LATE (RC, reset 0). -/
abbrev pipeStats_CNT_LATE : Nat := 0x120
/-- pipeStats.CNT_STAT (RC, reset 0). -/
abbrev pipeStats_CNT_STAT : Nat := 0x124
/-- pipeStats.CNT_PSET_ERR (RC, reset 0). -/
abbrev pipeStats_CNT_PSET_ERR : Nat := 0x128
/-- pipeStats.RING_PTR_LO (RO, reset 0). -/
abbrev pipeStats_RING_PTR_LO : Nat := 0x140
/-- pipeStats.RING_PTR_HI (RO, reset 0). -/
abbrev pipeStats_RING_PTR_HI : Nat := 0x144
/-- pipeStats.RING_REQ (RO, reset 0). -/
abbrev pipeStats_RING_REQ : Nat := 0x148
/-- pipeStats.RING_APPLIED (RO, reset 0). -/
abbrev pipeStats_RING_APPLIED : Nat := 0x14c
/-- pipeStats.RING_STATE (RO, reset 0). -/
abbrev pipeStats_RING_STATE : Nat := 0x150
/-- pipeFocus.FOC_SEL (RW, reset 0). -/
abbrev pipeFocus_FOC_SEL : Nat := 0x100
/-- pipeFocus.FOC_FRAME (RO, reset 0). -/
abbrev pipeFocus_FOC_FRAME : Nat := 0x104
/-- pipeFocus.FOC_PSET (RO, reset 0). -/
abbrev pipeFocus_FOC_PSET : Nat := 0x108
/-- pipeFocus.FOC_FLAGS (RO, reset 0). -/
abbrev pipeFocus_FOC_FLAGS : Nat := 0x10c
/-- pipeFocus.FV_H0–15 (RO, reset 0). -/
abbrev pipeFocus_FV_H0 : Nat := 0x140
/-- pipeFocus.FV_V0–15 (RO, reset 0). -/
abbrev pipeFocus_FV_V0 : Nat := 0x180
/-- pipeFocus.FOC_CNT (RC, reset 0). -/
abbrev pipeFocus_FOC_CNT : Nat := 0x1c0
/-- eng.CTRL (RWI, reset 0x4). -/
abbrev eng_CTRL : Nat := 0x100
/-- eng.STAT (RO, reset 0x01FF_0000). -/
abbrev eng_STAT : Nat := 0x104
/-- eng.THR_SEL (RW, reset 0). -/
abbrev eng_THR_SEL : Nat := 0x108
/-- eng.THR_CMD (WO, reset 0). -/
abbrev eng_THR_CMD : Nat := 0x10c
/-- eng.THR_PC (RO, reset 0). -/
abbrev eng_THR_PC : Nat := 0x110
/-- eng.THR_CAUSE (RO, reset 0). -/
abbrev eng_THR_CAUSE : Nat := 0x114
/-- eng.THR_TVAL (RO, reset 0). -/
abbrev eng_THR_TVAL : Nat := 0x118
/-- eng.THR_WI (RO, reset 0). -/
abbrev eng_THR_WI : Nat := 0x11c
/-- eng.THR_WI_EPOCH (RO, reset 0). -/
abbrev eng_THR_WI_EPOCH : Nat := 0x120
/-- eng.WD_CFG (RW, reset 0). -/
abbrev eng_WD_CFG : Nat := 0x124
/-- eng.TRAPS (RC, reset 0). -/
abbrev eng_TRAPS : Nat := 0x128
/-- eng.TRAP_WIN (RO, reset 0). -/
abbrev eng_TRAP_WIN : Nat := 0x12c
/-- eng.POISON_LOCAL (RO, reset 0). -/
abbrev eng_POISON_LOCAL : Nat := 0x130
/-- eng.RETIRED_LO (RO, reset 0). -/
abbrev eng_RETIRED_LO : Nat := 0x134
/-- eng.RETIRED_HI (RO, reset 0). -/
abbrev eng_RETIRED_HI : Nat := 0x138
/-- eng.DMA_STAT (RO, reset 0). -/
abbrev eng_DMA_STAT : Nat := 0x13c
/-- eng.CNT_DMEM (RC, reset 0). -/
abbrev eng_CNT_DMEM : Nat := 0x140
/-- eng.CNT_IMEM (RC, reset 0). -/
abbrev eng_CNT_IMEM : Nat := 0x144
/-- eng.UTIL (RO, reset 0). -/
abbrev eng_UTIL : Nat := 0x148
/-- eng.BIST_STAT (RO, reset 0). -/
abbrev eng_BIST_STAT : Nat := 0x14c
/-- eng.ENTRY0–3 (RO, reset 0). -/
abbrev eng_ENTRY0 : Nat := 0x150
/-- clus.LMAP0–7 (RO, reset 0x8000 + 8k + s). -/
abbrev clus_LMAP0 : Nat := 0x100
/-- clus.SPARES (RO, reset 0). -/
abbrev clus_SPARES : Nat := 0x120
/-- clus.LOAD_SRC_LO (RW, reset 0). -/
abbrev clus_LOAD_SRC_LO : Nat := 0x128
/-- clus.LOAD_SRC_HI (RW, reset 0). -/
abbrev clus_LOAD_SRC_HI : Nat := 0x12c
/-- clus.LOAD_CTRL (RW, reset 0). -/
abbrev clus_LOAD_CTRL : Nat := 0x130
/-- clus.LOAD_STAT (RO, reset 0). -/
abbrev clus_LOAD_STAT : Nat := 0x134
/-- clus.LPROG0–7 (RO, reset 0). -/
abbrev clus_LPROG0 : Nat := 0x140
/-- clus.BIST_CMD (WO, reset 0). -/
abbrev clus_BIST_CMD : Nat := 0x180
/-- clus.BIST_STAT (RO, reset 0). -/
abbrev clus_BIST_STAT : Nat := 0x184
/-- clus.BAR_CFG0–15 (RWI, reset 1). -/
abbrev clus_BAR_CFG0 : Nat := 0x1c0
/-- clus.BAR_STAT0–15 (RO, reset 0). -/
abbrev clus_BAR_STAT0 : Nat := 0x200
/-- clus.SHM_CNT (RC, reset 0). -/
abbrev clus_SHM_CNT : Nat := 0x240
/-- clus.SHM_REMAP (RO, reset 0). -/
abbrev clus_SHM_REMAP : Nat := 0x244
/-- clus.PORT_DROP (RC, reset 0). -/
abbrev clus_PORT_DROP : Nat := 0x248
/-- henc.SESS_SEL (RW, reset 0). -/
abbrev henc_SESS_SEL : Nat := 0x100
/-- henc.SESS_CMD (WO, reset 0). -/
abbrev henc_SESS_CMD : Nat := 0x104
/-- henc.SESS_CMD_STAT (RO, reset 0). -/
abbrev henc_SESS_CMD_STAT : Nat := 0x108
/-- henc.STAT (RO, reset 0). -/
abbrev henc_STAT : Nat := 0x10c
/-- henc.GANG (RWI, reset 0x1). -/
abbrev henc_GANG : Nat := 0x110
/-- henc.RATE_NEW (RW, reset 0). -/
abbrev henc_RATE_NEW : Nat := 0x114
/-- henc.MAXPIC_NEW (RW, reset 0). -/
abbrev henc_MAXPIC_NEW : Nat := 0x118
/-- henc.SESSIONS (RO, reset 0). -/
abbrev henc_SESSIONS : Nat := 0x11c
/-- henc.PICS (RC, reset 0). -/
abbrev henc_PICS : Nat := 0x120
/-- henc.CNT_FLOOR (RC, reset 0). -/
abbrev henc_CNT_FLOOR : Nat := 0x124
/-- henc.CNT_DROP (RC, reset 0). -/
abbrev henc_CNT_DROP : Nat := 0x128
/-- henc.CNT_POISON (RC, reset 0). -/
abbrev henc_CNT_POISON : Nat := 0x12c
/-- henc.LAST_QP (RO, reset 0). -/
abbrev henc_LAST_QP : Nat := 0x130
/-- henc.UTIL (RO, reset 0). -/
abbrev henc_UTIL : Nat := 0x134
/-- henc.CNT_SRAM (RC, reset 0). -/
abbrev henc_CNT_SRAM : Nat := 0x138
/-- henc.SESS_D0–D19 (RW, reset 0). -/
abbrev henc_SESS_D0 : Nat := 0x140
/-- henc.SESS_RT0–RT11 (RO, reset 0). -/
abbrev henc_SESS_RT0 : Nat := 0x190
/-- dec.SESS_SEL (RW, reset 0). -/
abbrev dec_SESS_SEL : Nat := 0x100
/-- dec.SESS_CMD (WO, reset 0). -/
abbrev dec_SESS_CMD : Nat := 0x104
/-- dec.SESS_CMD_STAT (RO, reset 0). -/
abbrev dec_SESS_CMD_STAT : Nat := 0x108
/-- dec.STAT (RO, reset 0). -/
abbrev dec_STAT : Nat := 0x10c
/-- dec.SESSIONS (RO, reset 0). -/
abbrev dec_SESSIONS : Nat := 0x110
/-- dec.PICS (RC, reset 0). -/
abbrev dec_PICS : Nat := 0x114
/-- dec.CNT_CONCEAL (RC, reset 0). -/
abbrev dec_CNT_CONCEAL : Nat := 0x118
/-- dec.CNT_ERR (RC, reset 0). -/
abbrev dec_CNT_ERR : Nat := 0x11c
/-- dec.CNT_NOBUF (RC, reset 0). -/
abbrev dec_CNT_NOBUF : Nat := 0x120
/-- dec.UTIL (RO, reset 0). -/
abbrev dec_UTIL : Nat := 0x124
/-- dec.CNT_SRAM (RC, reset 0). -/
abbrev dec_CNT_SRAM : Nat := 0x128
/-- dec.SESS_D0–D15 (RW, reset 0). -/
abbrev dec_SESS_D0 : Nat := 0x140
/-- dec.SESS_RT0–RT15 (RO, reset 0). -/
abbrev dec_SESS_RT0 : Nat := 0x180
/-- disp.CTRL (RWI, reset 0). -/
abbrev disp_CTRL : Nat := 0x100
/-- disp.LINK (RWS, reset 0x0000_0047). -/
abbrev disp_LINK : Nat := 0x104
/-- disp.TIMING_H (RWS, reset 0x0898_0780). -/
abbrev disp_TIMING_H : Nat := 0x108
/-- disp.TIMING_HS (RWS, reset 0x002C_0058). -/
abbrev disp_TIMING_HS : Nat := 0x10c
/-- disp.TIMING_V (RWS, reset 0x0465_0438). -/
abbrev disp_TIMING_V : Nat := 0x110
/-- disp.TIMING_VS (RWS, reset 0x0005_0004). -/
abbrev disp_TIMING_VS : Nat := 0x114
/-- disp.PCLK (RWS, reset 148,500). -/
abbrev disp_PCLK : Nat := 0x118
/-- disp.OUT_FMT (RWS, reset 0). -/
abbrev disp_OUT_FMT : Nat := 0x11c
/-- disp.DSC (RWS, reset 0). -/
abbrev disp_DSC : Nat := 0x120
/-- disp.DSC_SLICE (RWS, reset 0). -/
abbrev disp_DSC_SLICE : Nat := 0x124
/-- disp.BG (RWS, reset 0). -/
abbrev disp_BG : Nat := 0x128
/-- disp.LINE_MATCH (RW, reset 0). -/
abbrev disp_LINE_MATCH : Nat := 0x12c
/-- disp.STAT (RO, reset 0). -/
abbrev disp_STAT : Nat := 0x130
/-- disp.OUT_LAT (RO, reset 2,296). -/
abbrev disp_OUT_LAT : Nat := 0x134
/-- disp.CNT_UNDER (RC, reset 0). -/
abbrev disp_CNT_UNDER : Nat := 0x138
/-- disp.CNT_LINK (RC, reset 0). -/
abbrev disp_CNT_LINK : Nat := 0x13c
/-- disp.CNT_COMMIT (RC, reset 0). -/
abbrev disp_CNT_COMMIT : Nat := 0x140
/-- disp.CNT_POISON (RC, reset 0). -/
abbrev disp_CNT_POISON : Nat := 0x144
/-- disp.AUX_ADDR (RW, reset 0). -/
abbrev disp_AUX_ADDR : Nat := 0x148
/-- disp.AUX_CMD (WO, reset 0). -/
abbrev disp_AUX_CMD : Nat := 0x14c
/-- disp.AUX_DATA0–3 (RW, reset 0). -/
abbrev disp_AUX_DATA0 : Nat := 0x150
/-- disp.AUX_STAT (RO, reset 0). -/
abbrev disp_AUX_STAT : Nat := 0x160
/-- disp.CNT_SRAM (RC, reset 0). -/
abbrev disp_CNT_SRAM : Nat := 0x164
/-- disp.L_CTRL (RWS, reset 0). -/
abbrev disp_L_CTRL : Nat := 0x200
/-- disp.SRC_XY (RWS, reset 0). -/
abbrev disp_SRC_XY : Nat := 0x204
/-- disp.SRC_WH (RWS, reset 0). -/
abbrev disp_SRC_WH : Nat := 0x208
/-- disp.DST_XY (RWS, reset 0). -/
abbrev disp_DST_XY : Nat := 0x20c
/-- disp.DST_WH (RWS, reset 0). -/
abbrev disp_DST_WH : Nat := 0x210
/-- disp.STRIDE (RWS, reset 0). -/
abbrev disp_STRIDE : Nat := 0x214
/-- disp.BUF_SIZE (RWS, reset 0). -/
abbrev disp_BUF_SIZE : Nat := 0x218
/-- disp.IN_Q (RWS, reset 0). -/
abbrev disp_IN_Q : Nat := 0x21c
/-- disp.RET_Q (RWS, reset 0). -/
abbrev disp_RET_Q : Nat := 0x220
/-- disp.L_EVT (RWS, reset 0). -/
abbrev disp_L_EVT : Nat := 0x224
/-- disp.BAND_LO (RWS, reset 0). -/
abbrev disp_BAND_LO : Nat := 0x228
/-- disp.BAND_HI (RWS, reset 0). -/
abbrev disp_BAND_HI : Nat := 0x22c
/-- disp.BAND_CFG (RWS, reset 0). -/
abbrev disp_BAND_CFG : Nat := 0x230
/-- disp.FILL (RWS, reset 0). -/
abbrev disp_FILL : Nat := 0x234
/-- disp.L_STAT (RO, reset 0). -/
abbrev disp_L_STAT : Nat := 0x238
/-- disp.CUR_TOKEN (RO, reset 0). -/
abbrev disp_CUR_TOKEN : Nat := 0x23c
/-- disp.OLD_TOKEN (RO, reset 0). -/
abbrev disp_OLD_TOKEN : Nat := 0x400
/-- disp.PIC_H (RWS, reset 0). -/
abbrev disp_PIC_H : Nat := 0x420
/-- eye.E_CTRL (RW, reset 0x4). -/
abbrev eye_E_CTRL : Nat := 0x100
/-- eye.SAFE_MAP (RO, reset 0). -/
abbrev eye_SAFE_MAP : Nat := 0x104
/-- eye.FAIL_MAP (RO, reset 0). -/
abbrev eye_FAIL_MAP : Nat := 0x108
/-- eye.FROZEN_MAP (RO, reset 0). -/
abbrev eye_FROZEN_MAP : Nat := 0x10c
/-- eye.SAFE_CLR (WO, reset 0). -/
abbrev eye_SAFE_CLR : Nat := 0x110
/-- eye.WARN_BASE (RWI, reset 0). -/
abbrev eye_WARN_BASE : Nat := 0x114
/-- eye.WARN_SIZE (RWI, reset 0). -/
abbrev eye_WARN_SIZE : Nat := 0x118
/-- eye.WARN_PAL0–3 (RWI, reset 0). -/
abbrev eye_WARN_PAL0 : Nat := 0x11c
/-- eye.CNT_MISMATCH (RC, reset 0). -/
abbrev eye_CNT_MISMATCH : Nat := 0x130
/-- eye.CNT_FROZEN (RC, reset 0). -/
abbrev eye_CNT_FROZEN : Nat := 0x134
/-- eye.CNT_CHECKED (RC, reset 0). -/
abbrev eye_CNT_CHECKED : Nat := 0x138
/-- eye.CNT_UNCHECKED (RC, reset 0). -/
abbrev eye_CNT_UNCHECKED : Nat := 0x13c
/-- eye.R_CFG (RWS, reset 0). -/
abbrev eye_R_CFG : Nat := 0x200
/-- eye.R_XY (RWS, reset 0). -/
abbrev eye_R_XY : Nat := 0x204
/-- eye.R_WH (RWS, reset 0). -/
abbrev eye_R_WH : Nat := 0x208
/-- eye.EXPECT (RWS, reset 0). -/
abbrev eye_EXPECT : Nat := 0x20c
/-- eye.PAD_CRC (RO, reset 0). -/
abbrev eye_PAD_CRC : Nat := 0x210
/-- eye.REF_CRC (RO, reset 0). -/
abbrev eye_REF_CRC : Nat := 0x214
/-- eye.R_STAT (RO, reset 0). -/
abbrev eye_R_STAT : Nat := 0x218
/-- eye.R_FRAME (RO, reset 0). -/
abbrev eye_R_FRAME : Nat := 0x21c
/-- tdm.CFG (RWI, reset n). -/
abbrev tdm_CFG : Nat := 0x100
/-- tdm.FSYNC (RWI, reset 0). -/
abbrev tdm_FSYNC : Nat := 0x104
/-- tdm.RATE (RWI, reset 0x0100_BB80). -/
abbrev tdm_RATE : Nat := 0x108
/-- tdm.ANCHOR_LO (RWI, reset 0). -/
abbrev tdm_ANCHOR_LO : Nat := 0x10c
/-- tdm.ANCHOR_HI (RWI, reset 0). -/
abbrev tdm_ANCHOR_HI : Nat := 0x110
/-- tdm.MC_CFG (RW, reset 100). -/
abbrev tdm_MC_CFG : Nat := 0x114
/-- tdm.MC_ERR (RO, reset 0). -/
abbrev tdm_MC_ERR : Nat := 0x118
/-- tdm.SET_CMD (WO, reset 0). -/
abbrev tdm_SET_CMD : Nat := 0x11c
/-- tdm.SET_STAT (RO, reset 0). -/
abbrev tdm_SET_STAT : Nat := 0x120
/-- tdm.FRAME (RO, reset 0). -/
abbrev tdm_FRAME : Nat := 0x124
/-- tdm.FS_TIME_LO (RO, reset 0). -/
abbrev tdm_FS_TIME_LO : Nat := 0x128
/-- tdm.FS_TIME_HI (RO, reset 0). -/
abbrev tdm_FS_TIME_HI : Nat := 0x12c
/-- tdm.START_FRAME (RO, reset 0). -/
abbrev tdm_START_FRAME : Nat := 0x130
/-- tdm.RING_LO (RWI, reset 0). -/
abbrev tdm_RING_LO : Nat := 0x140
/-- tdm.RING_HI (RWI, reset 0). -/
abbrev tdm_RING_HI : Nat := 0x144
/-- tdm.RING_SIZE (RWI, reset 10). -/
abbrev tdm_RING_SIZE : Nat := 0x148
/-- tdm.HW_COUNT (RO, reset 0). -/
abbrev tdm_HW_COUNT : Nat := 0x14c
/-- tdm.SW_COUNT (RW, reset 0). -/
abbrev tdm_SW_COUNT : Nat := 0x150
/-- tdm.SLOT_MASK (RWS, reset 0xFFFF_FFFF). -/
abbrev tdm_SLOT_MASK : Nat := 0x154
/-- tdm.MASK_FRAME (RO, reset 0). -/
abbrev tdm_MASK_FRAME : Nat := 0x158
/-- tdm.MASK_COUNT (RO, reset 0). -/
abbrev tdm_MASK_COUNT : Nat := 0x15c
/-- tdm.FRAME_BYTES (RO, reset 0). -/
abbrev tdm_FRAME_BYTES : Nat := 0x160
/-- tdm.SWC_ADDR_LO (RWI, reset 0). -/
abbrev tdm_SWC_ADDR_LO : Nat := 0x164
/-- tdm.SWC_ADDR_HI (RWI, reset 0). -/
abbrev tdm_SWC_ADDR_HI : Nat := 0x168
/-- tdm.PERIOD (RWI, reset 0). -/
abbrev tdm_PERIOD : Nat := 0x16c
/-- tdm.PERIOD_Q (RWI, reset 0). -/
abbrev tdm_PERIOD_Q : Nat := 0x170
/-- tdm.EVT (RWI, reset 0). -/
abbrev tdm_EVT : Nat := 0x174
/-- tdm.CNT_UNDER (RC, reset 0). -/
abbrev tdm_CNT_UNDER : Nat := 0x178
/-- tdm.CNT_DISCARD (RC, reset 0). -/
abbrev tdm_CNT_DISCARD : Nat := 0x17c
/-- tdm.CNT_REPEAT (RC, reset 0). -/
abbrev tdm_CNT_REPEAT : Nat := 0x180
/-- tdm.CNT_FS_ERR (RC, reset 0). -/
abbrev tdm_CNT_FS_ERR : Nat := 0x184
/-- tdm.CNT_POISON (RC, reset 0). -/
abbrev tdm_CNT_POISON : Nat := 0x188
/-- tdm.CNT_SWC (RC, reset 0). -/
abbrev tdm_CNT_SWC : Nat := 0x18c
/-- mac.CFG (RWI, reset 0). -/
abbrev mac_CFG : Nat := 0x100
/-- mac.MAX_FRAME (RWI, reset 1,522). -/
abbrev mac_MAX_FRAME : Nat := 0x104
/-- mac.ADDR_LO (RWI, reset 0). -/
abbrev mac_ADDR_LO : Nat := 0x108
/-- mac.ADDR_HI (RWI, reset 0). -/
abbrev mac_ADDR_HI : Nat := 0x10c
/-- mac.TXQ0–7 (RWI, reset 0). -/
abbrev mac_TXQ0 : Nat := 0x110
/-- mac.TX_DONE_Q (RWI, reset 0). -/
abbrev mac_TX_DONE_Q : Nat := 0x130
/-- mac.RX_FREE_Q (RWI, reset 0). -/
abbrev mac_RX_FREE_Q : Nat := 0x134
/-- mac.DEF_Q (RWI, reset 0). -/
abbrev mac_DEF_Q : Nat := 0x138
/-- mac.BE_LIMIT (RW, reset 10,000). -/
abbrev mac_BE_LIMIT : Nat := 0x13c
/-- mac.LAUNCH_CFG (RW, reset 0xFF0A_03E8). -/
abbrev mac_LAUNCH_CFG : Nat := 0x140
/-- mac.TS_ADJ (RW, reset 0). -/
abbrev mac_TS_ADJ : Nat := 0x144
/-- mac.LINK (RO, reset 0). -/
abbrev mac_LINK : Nat := 0x148
/-- mac.CNT_TX (RC, reset 0). -/
abbrev mac_CNT_TX : Nat := 0x14c
/-- mac.CNT_RX (RC, reset 0). -/
abbrev mac_CNT_RX : Nat := 0x150
/-- mac.CNT_RX_ERR (RC, reset 0). -/
abbrev mac_CNT_RX_ERR : Nat := 0x154
/-- mac.CNT_DROP (RC, reset 0). -/
abbrev mac_CNT_DROP : Nat := 0x158
/-- mac.CNT_LAUNCH (RC, reset 0). -/
abbrev mac_CNT_LAUNCH : Nat := 0x15c
/-- mac.CNT_FEC (RC, reset 0). -/
abbrev mac_CNT_FEC : Nat := 0x160
/-- mac.CNT_PREEMPT (RC, reset 0). -/
abbrev mac_CNT_PREEMPT : Nat := 0x164
/-- mac.CNT_LINK (RC, reset 0). -/
abbrev mac_CNT_LINK : Nat := 0x168
/-- mac.CNT_SRAM (RC, reset 0). -/
abbrev mac_CNT_SRAM : Nat := 0x16c
/-- tsn.GCL_SEL (RW, reset 0). -/
abbrev tsn_GCL_SEL : Nat := 0x100
/-- tsn.GCL_D0 (RW, reset 0). -/
abbrev tsn_GCL_D0 : Nat := 0x104
/-- tsn.GCL_D1 (RW, reset 0). -/
abbrev tsn_GCL_D1 : Nat := 0x108
/-- tsn.GCL_CMD (WO, reset 0). -/
abbrev tsn_GCL_CMD : Nat := 0x10c
/-- tsn.GATE_CTRL (RW, reset 0). -/
abbrev tsn_GATE_CTRL : Nat := 0x140
/-- tsn.ADMIN_BASE_LO, _HI (RW, reset 0). -/
abbrev tsn_ADMIN_BASE_LO : Nat := 0x144
/-- tsn.ADMIN_CYCLE (RW, reset 1,000,000). -/
abbrev tsn_ADMIN_CYCLE : Nat := 0x14c
/-- tsn.OPER_BASE_LO, _HI (RO, reset 0). -/
abbrev tsn_OPER_BASE_LO : Nat := 0x150
/-- tsn.OPER_CYCLE (RO, reset 0). -/
abbrev tsn_OPER_CYCLE : Nat := 0x158
/-- tsn.OPER_STAT (RO, reset 0). -/
abbrev tsn_OPER_STAT : Nat := 0x15c
/-- tsn.CBS_A, CBS_B (RW, reset 0). -/
abbrev tsn_CBS_A : Nat := 0x160
/-- tsn.PREEMPT (RW, reset 0x0000_28FF). -/
abbrev tsn_PREEMPT : Nat := 0x168
/-- tsn.CNT_GATE (RC, reset 0). -/
abbrev tsn_CNT_GATE : Nat := 0x16c
/-- tsn.FILT_SEL (RW, reset 0). -/
abbrev tsn_FILT_SEL : Nat := 0x200
/-- tsn.FILT_CMD (WO, reset 0). -/
abbrev tsn_FILT_CMD : Nat := 0x204
/-- tsn.FILT_STAT (RO, reset 0). -/
abbrev tsn_FILT_STAT : Nat := 0x208
/-- tsn.FILT_D0–D7 (RW, reset 0). -/
abbrev tsn_FILT_D0 : Nat := 0x210
/-- tsn.FILT_CNT0–3 (RC, reset 0). -/
abbrev tsn_FILT_CNT0 : Nat := 0x230
/-- tsn.REC_SEL (RW, reset 0). -/
abbrev tsn_REC_SEL : Nat := 0x300
/-- tsn.REC_CMD (WO, reset 0). -/
abbrev tsn_REC_CMD : Nat := 0x304
/-- tsn.REC_D0 (RW, reset 0). -/
abbrev tsn_REC_D0 : Nat := 0x310
/-- tsn.REC_D1–D7 (RO, reset 0). -/
abbrev tsn_REC_D1 : Nat := 0x314
/-- tsn.FLOW_SEL (RW, reset 0). -/
abbrev tsn_FLOW_SEL : Nat := 0x400
/-- tsn.FLOW_CMD (WO, reset 0). -/
abbrev tsn_FLOW_CMD : Nat := 0x404
/-- tsn.FLOW_STAT (RO, reset 0). -/
abbrev tsn_FLOW_STAT : Nat := 0x408
/-- tsn.FLOW_D0–D31 (RW, reset 0). -/
abbrev tsn_FLOW_D0 : Nat := 0x440
/-- tsn.FLOW_D24 (RO, reset 0). -/
abbrev tsn_FLOW_D24 : Nat := 0x4a0
/-- ptp.CFG (RWI, reset 0). -/
abbrev ptp_CFG : Nat := 0x100
/-- ptp.INTERVALS (RWI, reset 0x0000_00FD). -/
abbrev ptp_INTERVALS : Nat := 0x104
/-- ptp.TIMEOUTS (RWI, reset 0x0000_0033). -/
abbrev ptp_TIMEOUTS : Nat := 0x108
/-- ptp.SERVO_CFG (RW, reset 0x0064_0804). -/
abbrev ptp_SERVO_CFG : Nat := 0x10c
/-- ptp.SLEW_LIMIT (RW, reset 10,000). -/
abbrev ptp_SLEW_LIMIT : Nat := 0x110
/-- ptp.STEP_LIMIT (RW, reset 1,000,000). -/
abbrev ptp_STEP_LIMIT : Nat := 0x114
/-- ptp.CONFIRM (RW, reset 0x03E8_0008). -/
abbrev ptp_CONFIRM : Nat := 0x118
/-- ptp.LOCK (RW, reset 0x0010_0064). -/
abbrev ptp_LOCK : Nat := 0x11c
/-- ptp.NEIGHBOR_THR (RW, reset 800). -/
abbrev ptp_NEIGHBOR_THR : Nat := 0x120
/-- ptp.STAT (RO, reset 0). -/
abbrev ptp_STAT : Nat := 0x124
/-- ptp.GM_ID_LO, _HI (RO, reset 0). -/
abbrev ptp_GM_ID_LO : Nat := 0x128
/-- ptp.OFFSET (RO, reset 0). -/
abbrev ptp_OFFSET : Nat := 0x130
/-- ptp.PENDING_JUMP_LO (RO, reset 0). -/
abbrev ptp_PENDING_JUMP_LO : Nat := 0x134
/-- ptp.PENDING_JUMP_HI (RO, reset 0). -/
abbrev ptp_PENDING_JUMP_HI : Nat := 0x138
/-- ptp.JUMP_CMD (WO, reset 0). -/
abbrev ptp_JUMP_CMD : Nat := 0x13c
/-- ptp.MEAN_DELAY0–3 (RO, reset 0). -/
abbrev ptp_MEAN_DELAY0 : Nat := 0x140
/-- ptp.UTC_OFFSET (RO, reset 0). -/
abbrev ptp_UTC_OFFSET : Nat := 0x150
/-- ptp.CNT_SYNC (RC, reset 0). -/
abbrev ptp_CNT_SYNC : Nat := 0x154
/-- ptp.CNT_REFUSED (RC, reset 0). -/
abbrev ptp_CNT_REFUSED : Nat := 0x158
/-- ctiWin.CTI_VER (RO, reset 0x0001_0000). -/
abbrev ctiWin_CTI_VER : Nat := 0
/-- ctiWin.CTI_CAP (RO, reset 0x0040_1FFF). -/
abbrev ctiWin_CTI_CAP : Nat := 4
/-- ctiWin.CTI_CTRL (RW, reset 0). -/
abbrev ctiWin_CTI_CTRL : Nat := 8
/-- ctiWin.CTI_STAT (RO, reset 0). -/
abbrev ctiWin_CTI_STAT : Nat := 0xc
/-- ctiWin.AQ_SQ_LO, _HI (RWI, reset 0). -/
abbrev ctiWin_AQ_SQ_LO : Nat := 0x10
/-- ctiWin.AQ_CQ_LO, _HI (RWI, reset 0). -/
abbrev ctiWin_AQ_CQ_LO : Nat := 0x18
/-- ctiWin.AQ_SIZE (RWI, reset 0). -/
abbrev ctiWin_AQ_SIZE : Nat := 0x20
/-- ctiWin.AQ_VEC (RWI, reset 0). -/
abbrev ctiWin_AQ_VEC : Nat := 0x24
/-- ctiWin.SQ_TAIL (WO, reset 0). -/
abbrev ctiWin_SQ_TAIL : Nat := 0x1000
/-- ctiWin.CQ_HEAD (WO, reset 0). -/
abbrev ctiWin_CQ_HEAD : Nat := 0x1004
/-- nvmh.CFG (RWI, reset 0x0000_0016). -/
abbrev nvmh_CFG : Nat := 0x100
/-- nvmh.CMD_TO (RW, reset 500). -/
abbrev nvmh_CMD_TO : Nat := 0x104
/-- nvmh.LINK (RO, reset 0). -/
abbrev nvmh_LINK : Nat := 0x108
/-- nvmh.SSD_STAT (RO, reset 0). -/
abbrev nvmh_SSD_STAT : Nat := 0x10c
/-- nvmh.CAP_LO, _HI (RO, reset 0). -/
abbrev nvmh_CAP_LO : Nat := 0x110
/-- nvmh.TEMP (RO, reset 0). -/
abbrev nvmh_TEMP : Nat := 0x118
/-- nvmh.CNT_CMD (RC, reset 0). -/
abbrev nvmh_CNT_CMD : Nat := 0x11c
/-- nvmh.CNT_ERR (RC, reset 0). -/
abbrev nvmh_CNT_ERR : Nat := 0x120
/-- nvmh.CNT_RESET (RC, reset 0). -/
abbrev nvmh_CNT_RESET : Nat := 0x124
/-- nvmh.CNT_PCIE (RC, reset 0). -/
abbrev nvmh_CNT_PCIE : Nat := 0x128
/-- nvmh.OUTSTANDING (RO, reset 0). -/
abbrev nvmh_OUTSTANDING : Nat := 0x12c
/-- cti.STATE (RO, reset 0). -/
abbrev cti_STATE : Nat := 0x100
/-- cti.BUF_LO, _HI (RWI, reset 0). -/
abbrev cti_BUF_LO : Nat := 0x104
/-- cti.BUF_SIZE (RWI, reset 0). -/
abbrev cti_BUF_SIZE : Nat := 0x10c
/-- cti.CLEAN_MS (RW, reset 100). -/
abbrev cti_CLEAN_MS : Nat := 0x110
/-- cti.NS_SEL (RW, reset 1). -/
abbrev cti_NS_SEL : Nat := 0x114
/-- cti.NS_CMD (WO, reset 0). -/
abbrev cti_NS_CMD : Nat := 0x118
/-- cti.NS_CMD_STAT (RO, reset 0). -/
abbrev cti_NS_CMD_STAT : Nat := 0x11c
/-- cti.NS_D0–D7 (RW, reset 0). -/
abbrev cti_NS_D0 : Nat := 0x120
/-- cti.NS_STAT (RO, reset 0). -/
abbrev cti_NS_STAT : Nat := 0x140
/-- cti.REC_SEL (RW, reset 0). -/
abbrev cti_REC_SEL : Nat := 0x144
/-- cti.REC_CMD (WO, reset 0). -/
abbrev cti_REC_CMD : Nat := 0x148
/-- cti.REC_CMD_STAT (RO, reset 0). -/
abbrev cti_REC_CMD_STAT : Nat := 0x14c
/-- cti.REC_D0–D7 (RW, reset 0). -/
abbrev cti_REC_D0 : Nat := 0x150
/-- cti.DEFER_SEQ (RO, reset 0). -/
abbrev cti_DEFER_SEQ : Nat := 0x170
/-- cti.CNT_CMD (RC, reset 0). -/
abbrev cti_CNT_CMD : Nat := 0x174
/-- cti.CNT_CONFLICT (RC, reset 0). -/
abbrev cti_CNT_CONFLICT : Nat := 0x178
/-- cti.CNT_ABORT (RC, reset 0). -/
abbrev cti_CNT_ABORT : Nat := 0x17c
/-- cti.CNT_DEFER (RC, reset 0). -/
abbrev cti_CNT_DEFER : Nat := 0x180
/-- cti.BUF_USED (RO, reset 0). -/
abbrev cti_BUF_USED : Nat := 0x184
/-- qm0.Q_SEL (RW, reset 0). -/
abbrev qm0_Q_SEL : Nat := 0x100
/-- qm0.Q_CMD (WO, reset 0). -/
abbrev qm0_Q_CMD : Nat := 0x104
/-- qm0.Q_CMD_STAT (RO, reset 0). -/
abbrev qm0_Q_CMD_STAT : Nat := 0x108
/-- qm0.QSTATE_LO (RWI, reset 0). -/
abbrev qm0_QSTATE_LO : Nat := 0x10c
/-- qm0.QSTATE_HI (RWI, reset 0). -/
abbrev qm0_QSTATE_HI : Nat := 0x110
/-- qm0.DEAD_Q (RWI, reset 0). -/
abbrev qm0_DEAD_Q : Nat := 0x114
/-- qm0.REISSUE (RW, reset 3). -/
abbrev qm0_REISSUE : Nat := 0x118
/-- qm0.PUSH_BUF (RO, reset 0). -/
abbrev qm0_PUSH_BUF : Nat := 0x11c
/-- qm0.CNT_OPS (RC, reset 0). -/
abbrev qm0_CNT_OPS : Nat := 0x120
/-- qm0.CNT_STALE (RC, reset 0). -/
abbrev qm0_CNT_STALE : Nat := 0x124
/-- qm0.CNT_DROP (RC, reset 0). -/
abbrev qm0_CNT_DROP : Nat := 0x128
/-- qm0.CNT_DEAD (RC, reset 0). -/
abbrev qm0_CNT_DEAD : Nat := 0x12c
/-- qm0.Q_D0–Q_D7 (RW, reset 0). -/
abbrev qm0_Q_D0 : Nat := 0x140
/-- qm1.PUSH_D0–D7 (RW, reset 0). -/
abbrev qm1_PUSH_D0 : Nat := 0x100
/-- qm1.PUSH_GO (WO, reset 0). -/
abbrev qm1_PUSH_GO : Nat := 0x120
/-- qm1.TAKE_GO (WO, reset 0). -/
abbrev qm1_TAKE_GO : Nat := 0x124
/-- qm1.PORT_STAT (RO, reset 0). -/
abbrev qm1_PORT_STAT : Nat := 0x128
/-- qm1.LEVEL_SEL (RW, reset 0). -/
abbrev qm1_LEVEL_SEL : Nat := 0x12c
/-- qm1.LEVEL (RO, reset 0). -/
abbrev qm1_LEVEL : Nat := 0x130
/-- qm1.TAKE_D0–D7 (RO, reset 0). -/
abbrev qm1_TAKE_D0 : Nat := 0x140
/-- qm2.CACHE_STAT (RO, reset 0). -/
abbrev qm2_CACHE_STAT : Nat := 0x100
/-- qm2.CNT_MISS (RC, reset 0). -/
abbrev qm2_CNT_MISS : Nat := 0x104
/-- qm2.CNT_EVICT (RC, reset 0). -/
abbrev qm2_CNT_EVICT : Nat := 0x108
/-- qm2.HOLD_SEL (RW, reset 0). -/
abbrev qm2_HOLD_SEL : Nat := 0x10c
/-- qm2.HOLD_HANDLE (RO, reset 0). -/
abbrev qm2_HOLD_HANDLE : Nat := 0x110
/-- qm2.HOLD_Q (RO, reset 0). -/
abbrev qm2_HOLD_Q : Nat := 0x114
/-- qm2.HOLD_EPOCH (RO, reset 0). -/
abbrev qm2_HOLD_EPOCH : Nat := 0x118
/-- qm2.CNT_SRAM (RC, reset 0). -/
abbrev qm2_CNT_SRAM : Nat := 0x11c
/-- qm3.SCX_SEL (RW, reset 0). -/
abbrev qm3_SCX_SEL : Nat := 0x100
/-- qm3.SCX_OWN (RO, reset 0). -/
abbrev qm3_SCX_OWN : Nat := 0x104
/-- qm3.SCX_FREE (RO, reset 16,384). -/
abbrev qm3_SCX_FREE : Nat := 0x108
/-- qm3.CNT_CONFLICT (RC, reset 0). -/
abbrev qm3_CNT_CONFLICT : Nat := 0x10c
/-- qm3.SCX_D0–D31 (RO, reset 0). -/
abbrev qm3_SCX_D0 : Nat := 0x140
/-- dram.STATE (RO, reset 0). -/
abbrev dram_STATE : Nat := 0x100
/-- dram.TRAIN (RWI, reset 0x0008_1000). -/
abbrev dram_TRAIN : Nat := 0x104
/-- dram.FIX_RD (RWI, reset 0). -/
abbrev dram_FIX_RD : Nat := 0x108
/-- dram.FIX_WR (RWI, reset 0). -/
abbrev dram_FIX_WR : Nat := 0x10c
/-- dram.FIX_VREF (RWI, reset 0). -/
abbrev dram_FIX_VREF : Nat := 0x110
/-- dram.CUR_RD (RO, reset 0). -/
abbrev dram_CUR_RD : Nat := 0x114
/-- dram.CUR_WR (RO, reset 0). -/
abbrev dram_CUR_WR : Nat := 0x118
/-- dram.EYE (RO, reset 0). -/
abbrev dram_EYE : Nat := 0x11c
/-- dram.CNT_TRAIN (RC, reset 0). -/
abbrev dram_CNT_TRAIN : Nat := 0x120
/-- dram.ACT_CFG (RW, reset 0x0001_1000). -/
abbrev dram_ACT_CFG : Nat := 0x124
/-- dram.CNT_TRR (RC, reset 0). -/
abbrev dram_CNT_TRR : Nat := 0x128
/-- dram.CE_ADDR (RO, reset 0). -/
abbrev dram_CE_ADDR : Nat := 0x12c
/-- dram.UE_ADDR (RO, reset 0). -/
abbrev dram_UE_ADDR : Nat := 0x130
/-- dram.CNT_ECC (RC, reset 0). -/
abbrev dram_CNT_ECC : Nat := 0x134
/-- dram.CNT_POISON (RC, reset 0). -/
abbrev dram_CNT_POISON : Nat := 0x138
/-- dram.SCRUB_STAT (RO, reset 0). -/
abbrev dram_SCRUB_STAT : Nat := 0x13c
/-- dram.SCRUB_POS (RO, reset 0). -/
abbrev dram_SCRUB_POS : Nat := 0x140
/-- dram.RETIRE_STAT (RO, reset 0). -/
abbrev dram_RETIRE_STAT : Nat := 0x144
/-- dram.RETIRE (RO, reset 0). -/
abbrev dram_RETIRE : Nat := 0x200
/-- dramcom.TOPO (RWI, reset 0x0000_0073). -/
abbrev dramcom_TOPO : Nat := 0x100
/-- dramcom.WINDOW_LO (RO, reset 0). -/
abbrev dramcom_WINDOW_LO : Nat := 0x104
/-- dramcom.WINDOW_HI (RO, reset 0). -/
abbrev dramcom_WINDOW_HI : Nat := 0x108
/-- dramcom.BANK_HASH0–3 (RWI, reset 0x0000_1111 << k). -/
abbrev dramcom_BANK_HASH0 : Nat := 0x10c
/-- dramcom.RES_n (RW, reset 0x0000_5028). -/
abbrev dramcom_RES_n : Nat := 0x120
/-- dramcom.SCRUB_CFG (RW, reset 0x0001_012C). -/
abbrev dramcom_SCRUB_CFG : Nat := 0x160
/-- dramguard.G_SEL (RW, reset 64). -/
abbrev dramguard_G_SEL : Nat := 0x100
/-- dramguard.G_CMD (WO, reset 0). -/
abbrev dramguard_G_CMD : Nat := 0x104
/-- dramguard.G_CMD_STAT (RO, reset 0). -/
abbrev dramguard_G_CMD_STAT : Nat := 0x108
/-- dramguard.G_BASE_LO, _HI (RW, reset 0). -/
abbrev dramguard_G_BASE_LO : Nat := 0x110
/-- dramguard.G_LIMIT_LO, _HI (RW, reset 0). -/
abbrev dramguard_G_LIMIT_LO : Nat := 0x118
/-- dramguard.G_CTRL (RW, reset 0). -/
abbrev dramguard_G_CTRL : Nat := 0x120
/-- dramguard.VIOL_CNT (RC, reset 0). -/
abbrev dramguard_VIOL_CNT : Nat := 0x140
/-- dramguard.VIOL_HEAD (RO, reset 0). -/
abbrev dramguard_VIOL_HEAD : Nat := 0x144
/-- dramguard.VIOL_WHO (RO, reset 0). -/
abbrev dramguard_VIOL_WHO : Nat := 0x180
/-- dramguard.VIOL_ADDR_LO, _HI (RO, reset 0). -/
abbrev dramguard_VIOL_ADDR_LO : Nat := 0x184
/-- dramguard.VIOL_TIME (RO, reset 0). -/
abbrev dramguard_VIOL_TIME : Nat := 0x18c
/-- evf0.SW_FIRE (WO, reset 0). -/
abbrev evf0_SW_FIRE : Nat := 0x100
/-- evf0.BOUND (RO, reset 0). -/
abbrev evf0_BOUND : Nat := 0x104
/-- evf0.CONFLICT (RO, reset 0). -/
abbrev evf0_CONFLICT : Nat := 0x108
/-- evf0.SEEN0–7 (W1C, reset 0). -/
abbrev evf0_SEEN0 : Nat := 0x140
/-- evf0.MISSED0–7 (W1C, reset 0). -/
abbrev evf0_MISSED0 : Nat := 0x160
/-- evf0.LOOP0–7 (W1C, reset 0). -/
abbrev evf0_LOOP0 : Nat := 0x180
/-- evf0.CH_CFG (RW, reset 0). -/
abbrev evf0_CH_CFG : Nat := 0x800
/-- evf0.CH_BIND (RO, reset 0). -/
abbrev evf0_CH_BIND : Nat := 0x804
/-- evf0.CH_CNT (RC, reset 0). -/
abbrev evf0_CH_CNT : Nat := 0x808
/-- evf0.CH_DROP (RC, reset 0). -/
abbrev evf0_CH_DROP : Nat := 0x80c
/-- evf1.PIN_CFG (RW, reset 0). -/
abbrev evf1_PIN_CFG : Nat := 0x100
/-- evf1.PIN_STAT (RO, reset 0). -/
abbrev evf1_PIN_STAT : Nat := 0x180
/-- cocoon.STAT (RO, reset 0). -/
abbrev cocoon_STAT : Nat := 0x100
/-- cocoon.FIND_OFF (RW, reset 0). -/
abbrev cocoon_FIND_OFF : Nat := 0x104
/-- cocoon.FIND_CMD (WO, reset 0). -/
abbrev cocoon_FIND_CMD : Nat := 0x108
/-- cocoon.FIND_RES (RO, reset 0). -/
abbrev cocoon_FIND_RES : Nat := 0x10c
/-- cocoon.FIND_SEQ (RO, reset 0). -/
abbrev cocoon_FIND_SEQ : Nat := 0x110
/-- cocoon.WR_OFF (RW, reset 0). -/
abbrev cocoon_WR_OFF : Nat := 0x114
/-- cocoon.WR_TYPE (RW, reset 0). -/
abbrev cocoon_WR_TYPE : Nat := 0x118
/-- cocoon.WR_LEN (RW, reset 0). -/
abbrev cocoon_WR_LEN : Nat := 0x11c
/-- cocoon.WR_SRC_LO, _HI (RW, reset 0). -/
abbrev cocoon_WR_SRC_LO : Nat := 0x120
/-- cocoon.WR_GO (WO, reset 0). -/
abbrev cocoon_WR_GO : Nat := 0x128
/-- cocoon.WR_STAT (RO, reset 0). -/
abbrev cocoon_WR_STAT : Nat := 0x12c
/-- cocoon.WR_SEQ (RO, reset 0). -/
abbrev cocoon_WR_SEQ : Nat := 0x130
/-- cocoon.WEAR (RO, reset 0). -/
abbrev cocoon_WEAR : Nat := 0x134
/-- cocoon.CNT_ECC (RC, reset 0). -/
abbrev cocoon_CNT_ECC : Nat := 0x138
/-- cocoon.REMAP_USED (RO, reset 0). -/
abbrev cocoon_REMAP_USED : Nat := 0x13c
/-- cocoon.FIND_TYPE (RO, reset 0). -/
abbrev cocoon_FIND_TYPE : Nat := 0x140
/-- silk.HEAD (RO, reset 0). -/
abbrev silk_HEAD : Nat := 0x100
/-- silk.SEQ (RO, reset 0). -/
abbrev silk_SEQ : Nat := 0x104
/-- silk.CNT (RC, reset 0). -/
abbrev silk_CNT : Nat := 0x108
/-- silk.SW_CODE (RW, reset 0xF000). -/
abbrev silk_SW_CODE : Nat := 0x10c
/-- silk.SW_DATA0–2 (RW, reset 0). -/
abbrev silk_SW_DATA0 : Nat := 0x110
/-- silk.SW_GO (WO, reset 0). -/
abbrev silk_SW_GO : Nat := 0x11c
/-- silk.MIRROR_LO, _HI (RWI, reset 0). -/
abbrev silk_MIRROR_LO : Nat := 0x120
/-- silk.MIRROR_CFG (RWI, reset 0x0000_000C). -/
abbrev silk_MIRROR_CFG : Nat := 0x128
/-- silk.MIRROR_HEAD (RO, reset 0). -/
abbrev silk_MIRROR_HEAD : Nat := 0x12c
/-- silk.SNAP_CFG (RW, reset 0x000F_0001). -/
abbrev silk_SNAP_CFG : Nat := 0x130
/-- silk.SNAP_CMD (WO, reset 0). -/
abbrev silk_SNAP_CMD : Nat := 0x134
/-- silk.SNAP_STAT (RO, reset 0). -/
abbrev silk_SNAP_STAT : Nat := 0x138
/-- silk.KEEP (RW, reset 0). -/
abbrev silk_KEEP : Nat := 0x13c
/-- warden.CFG (RW, reset 0x0000_4021). -/
abbrev warden_CFG : Nat := 0x100
/-- warden.SCRUB_CFG (RW, reset 0x0000_0132). -/
abbrev warden_SCRUB_CFG : Nat := 0x104
/-- warden.SCRUB_STAT (RO, reset 0). -/
abbrev warden_SCRUB_STAT : Nat := 0x108
/-- warden.SPARE_BIST (RW, reset 3,600). -/
abbrev warden_SPARE_BIST : Nat := 0x10c
/-- warden.CMD (WO, reset 0). -/
abbrev warden_CMD : Nat := 0x110
/-- warden.STAT (RO, reset 16). -/
abbrev warden_STAT : Nat := 0x114
/-- warden.LAST (RO, reset 0). -/
abbrev warden_LAST : Nat := 0x118
/-- warden.CANDIDATE (RO, reset 0). -/
abbrev warden_CANDIDATE : Nat := 0x11c
/-- warden.NOTICE_Q (RW, reset 0). -/
abbrev warden_NOTICE_Q : Nat := 0x120
/-- warden.CNT (RC, reset 0). -/
abbrev warden_CNT : Nat := 0x124
/-- warden.UNMAPPED0–7 (RO, reset 0). -/
abbrev warden_UNMAPPED0 : Nat := 0x140
/-- faultagg.PEND0–31 (W1C, reset 0). -/
abbrev faultagg_PEND0 : Nat := 0x100
/-- faultagg.SEV0–63 (RW, reset 0x5555_5555). -/
abbrev faultagg_SEV0 : Nat := 0x180
/-- faultagg.LAST (RO, reset 0). -/
abbrev faultagg_LAST : Nat := 0x280
/-- faultagg.CNT_REPORT (RC, reset 0). -/
abbrev faultagg_CNT_REPORT : Nat := 0x284
/-- faultagg.CNT_REPEAT (RC, reset 0). -/
abbrev faultagg_CNT_REPEAT : Nat := 0x288
/-- svc.CMD (WO, reset 0). -/
abbrev svc_CMD : Nat := 0x100
/-- svc.STAT (RO, reset 0). -/
abbrev svc_STAT : Nat := 0x104
/-- svc.STANDIN (RW, reset (n + 1) mod 8). -/
abbrev svc_STANDIN : Nat := 0x108
/-- svc.BOOT_LO, _HI (RW, reset 0). -/
abbrev svc_BOOT_LO : Nat := 0x10c
/-- svc.CNT (RC, reset 0). -/
abbrev svc_CNT : Nat := 0x114
/-- safety.FN_CAUSE (RO, reset 0). -/
abbrev safety_FN_CAUSE : Nat := 0x100
/-- safety.FN_LATCH (RO, reset 0x0000_0400). -/
abbrev safety_FN_LATCH : Nat := 0x104
/-- safety.FN_EN (RW, reset 0x0000_07FF). -/
abbrev safety_FN_EN : Nat := 0x108
/-- safety.FN_CLR (WO, reset 0). -/
abbrev safety_FN_CLR : Nat := 0x10c
/-- safety.FN_SW (RW, reset 0). -/
abbrev safety_FN_SW : Nat := 0x110
/-- safety.FN_STAT (RO, reset 0x0000_0001). -/
abbrev safety_FN_STAT : Nat := 0x114
/-- safety.HB_CFG (RWI, reset 0x0000_6405). -/
abbrev safety_HB_CFG : Nat := 0x118
/-- safety.HB_CTRL (WO, reset 0). -/
abbrev safety_HB_CTRL : Nat := 0x11c
/-- safety.HB_TOKEN (RO, reset 0). -/
abbrev safety_HB_TOKEN : Nat := 0x120
/-- safety.HB_KICK (WO, reset 0). -/
abbrev safety_HB_KICK : Nat := 0x124
/-- safety.HB_STAT (RO, reset 0). -/
abbrev safety_HB_STAT : Nat := 0x128
/-- safety.LS_TEST (WO, reset 0). -/
abbrev safety_LS_TEST : Nat := 0x12c
/-- safety.LS_RESULT (RO, reset 0). -/
abbrev safety_LS_RESULT : Nat := 0x130
/-- safety.INJ_EN (RW, reset 0). -/
abbrev safety_INJ_EN : Nat := 0x134
/-- safety.EYE_INJ (WO, reset 0). -/
abbrev safety_EYE_INJ : Nat := 0x138
/-- safety.CNT_INJ (RC, reset 0). -/
abbrev safety_CNT_INJ : Nat := 0x13c
/-- safety.CLK_STAT (RO, reset 0). -/
abbrev safety_CLK_STAT : Nat := 0x140
/-- safety.SUP_STAT (RO, reset 0). -/
abbrev safety_SUP_STAT : Nat := 0x144
/-- safety.CHK_CFG (RW, reset 0). -/
abbrev safety_CHK_CFG : Nat := 0x148
/-- safety.CHK_EXPECT (RW, reset 0). -/
abbrev safety_CHK_EXPECT : Nat := 0x14c
/-- safety.CHK_RESULT (RO, reset 0). -/
abbrev safety_CHK_RESULT : Nat := 0x150
/-- safety.CHK_STAT (RO, reset 0). -/
abbrev safety_CHK_STAT : Nat := 0x154
/-- safety.VIEW_CFG (RWI, reset 0x0400_0010). -/
abbrev safety_VIEW_CFG : Nat := 0x200
/-- safety.VIEW_STAT (RO, reset 0). -/
abbrev safety_VIEW_STAT : Nat := 0x204
/-- safety.VIEW_CLR (WO, reset 0). -/
abbrev safety_VIEW_CLR : Nat := 0x208
/-- safety.CHK_ADDR (RW, reset 0). -/
abbrev safety_CHK_ADDR : Nat := 0x400
/-- global.DEVICE_ID (RO, reset 0x00A1_7256). -/
abbrev global_DEVICE_ID : Nat := 0x100
/-- global.RESET_CAUSE (RO, reset 0). -/
abbrev global_RESET_CAUSE : Nat := 0x104
/-- global.RESET_CMD (WO, reset 0). -/
abbrev global_RESET_CMD : Nat := 0x108
/-- global.START_STAT (RO, reset 0). -/
abbrev global_START_STAT : Nat := 0x10c
/-- global.T_HANDOVER (RO, reset 0). -/
abbrev global_T_HANDOVER : Nat := 0x110
/-- global.T_FULL (RO, reset 0). -/
abbrev global_T_FULL : Nat := 0x114
/-- global.FUSE_STAT (RO, reset 0). -/
abbrev global_FUSE_STAT : Nat := 0x118
/-- global.MSI-X map (RW, reset 0). -/
abbrev global_MSIXmap : Nat := 0x800
/-- global.HOST_CFG (RW, reset 0). -/
abbrev global_HOST_CFG : Nat := 0x200
/-- global.BAD_ADDR (RO, reset 0). -/
abbrev global_BAD_ADDR : Nat := 0x204
/-- global.BAD_INFO (RO, reset 0). -/
abbrev global_BAD_INFO : Nat := 0x208
/-- clocks.OSC_STAT (RO, reset 0). -/
abbrev clocks_OSC_STAT : Nat := 0x100
/-- clocks.OSC_COMP (RO, reset 0). -/
abbrev clocks_OSC_COMP : Nat := 0x104
/-- clocks.BG_COMP (RO, reset 0). -/
abbrev clocks_BG_COMP : Nat := 0x108
/-- clocks.DRV_COMP (RO, reset 0). -/
abbrev clocks_DRV_COMP : Nat := 0x10c
/-- clocks.COMP_TEMP (RO, reset 0). -/
abbrev clocks_COMP_TEMP : Nat := 0x110
/-- clocks.COMP_CNT (RC, reset 0). -/
abbrev clocks_COMP_CNT : Nat := 0x114
/-- clocks.PLL_STATp (RO, reset 0). -/
abbrev clocks_PLL_STATp : Nat := 0x120
/-- boot.BOOT_STAT (RO, reset 0). -/
abbrev boot_BOOT_STAT : Nat := 0x100
/-- boot.SEC_VERSION (RO, reset 0). -/
abbrev boot_SEC_VERSION : Nat := 0x104
/-- boot.KEY_REVOKE (RO, reset 0). -/
abbrev boot_KEY_REVOKE : Nat := 0x108
/-- boot.CONFIRM (WO, reset 0). -/
abbrev boot_CONFIRM : Nat := 0x10c
/-- boot.PREF (WO, reset 0). -/
abbrev boot_PREF : Nat := 0x110
/-- boot.VER_ADV (WO, reset 0). -/
abbrev boot_VER_ADV : Nat := 0x114
/-- boot.VERIFY_LO, _HI (RW, reset 0). -/
abbrev boot_VERIFY_LO : Nat := 0x118
/-- boot.VERIFY_CMD (WO, reset 0). -/
abbrev boot_VERIFY_CMD : Nat := 0x120
/-- boot.VERIFY_STAT (RO, reset 0). -/
abbrev boot_VERIFY_STAT : Nat := 0x124
/-- boot.VERIFY_ENTRY_LO, _HI (RO, reset 0). -/
abbrev boot_VERIFY_ENTRY_LO : Nat := 0x128
/-- boot.XSPI_ADDR (RW, reset 0). -/
abbrev boot_XSPI_ADDR : Nat := 0x130
/-- boot.XSPI_BUF_LO, _HI (RW, reset 0). -/
abbrev boot_XSPI_BUF_LO : Nat := 0x134
/-- boot.XSPI_CMD (WO, reset 0). -/
abbrev boot_XSPI_CMD : Nat := 0x13c
/-- boot.XSPI_STAT (RO, reset 0). -/
abbrev boot_XSPI_STAT : Nat := 0x140
/-- pwr0.DOM_REQ0–3 (RW, reset Set at start-up). -/
abbrev pwr0_DOM_REQ0 : Nat := 0x100
/-- pwr0.DOM_STAT0–3 (RO, reset As DOM_REQ). -/
abbrev pwr0_DOM_STAT0 : Nat := 0x110
/-- pwr0.DOM_CMD_STAT (RO, reset 0). -/
abbrev pwr0_DOM_CMD_STAT : Nat := 0x120
/-- pwr1.STATE (RO, reset 0). -/
abbrev pwr1_STATE : Nat := 0x100
/-- pwr1.STATE_REQ (WO, reset 0). -/
abbrev pwr1_STATE_REQ : Nat := 0x104
/-- pwr1.WAKE_CH0–7 (RW, reset 0). -/
abbrev pwr1_WAKE_CH0 : Nat := 0x108
/-- pwr1.WAKE_SRC (RW, reset 0). -/
abbrev pwr1_WAKE_SRC : Nat := 0x128
/-- pwr1.WAKE_CAUSE (RO, reset 0). -/
abbrev pwr1_WAKE_CAUSE : Nat := 0x12c
/-- pwr2.THR_CLASS0–6 (RW, reset 0xFFFF_FFFF, 0xFFFF_FFFF, 0xAAA5_555F, 0x000A_AAAA, 0, 0, 0). -/
abbrev pwr2_THR_CLASS0 : Nat := 0x100
/-- pwr2.THR_CFG1–3 (RW, reset 0x0000_3205, 0x0000_4B0A, 0x0000_5A14). -/
abbrev pwr2_THR_CFG1 : Nat := 0x120
/-- pwr2.THR_DUTY0–7 (RO, reset 0). -/
abbrev pwr2_THR_DUTY0 : Nat := 0x130
/-- pwr2.THR_CNT (RC, reset 0). -/
abbrev pwr2_THR_CNT : Nat := 0x150
/-- pwr3.ZONE_MAP0–13 (RO, reset Fixed). -/
abbrev pwr3_ZONE_MAP0 : Nat := 0x100
/-- therm0.WARN (RW, reset 0x0010_0369). -/
abbrev therm0_WARN : Nat := 0x100
/-- therm0.THROTTLE (RW, reset 0x0010_036E). -/
abbrev therm0_THROTTLE : Nat := 0x104
/-- therm0.TRIP (RW, reset 0x1410_037D). -/
abbrev therm0_TRIP : Nat := 0x108
/-- therm0.CHECK (RW, reset 0x0000_0005). -/
abbrev therm0_CHECK : Nat := 0x10c
/-- therm0.ZONE_Tz (RO, reset 0). -/
abbrev therm0_ZONE_Tz : Nat := 0x110
/-- therm0.ZONE_Vz (RO, reset 0). -/
abbrev therm0_ZONE_Vz : Nat := 0x130
/-- therm0.CROSSz (RC, reset 0). -/
abbrev therm0_CROSSz : Nat := 0x150
/-- therm0.MAX_T (RO, reset 0). -/
abbrev therm0_MAX_T : Nat := 0x170
/-- therm1.SENS_Ts (RO, reset 0). -/
abbrev therm1_SENS_Ts : Nat := 0x100
/-- therm1.REF_Tz (RO, reset 0). -/
abbrev therm1_REF_Tz : Nat := 0x180
/-- therm1.FAILED_MAP (RO, reset 0). -/
abbrev therm1_FAILED_MAP : Nat := 0x1a0
/-- hdr.PG_ID (RO, reset Per *Page index*). -/
abbrev hdr_PG_ID : Nat := 0
/-- hdr.PG_CAP (RO, reset Per block). -/
abbrev hdr_PG_CAP : Nat := 4
/-- hdr.PG_CTRL (RW, reset 0x0000_0001). -/
abbrev hdr_PG_CTRL : Nat := 8
/-- hdr.PG_STAT (RO, reset 0). -/
abbrev hdr_PG_STAT : Nat := 0xc
/-- hdr.PG_FAULT (W1C, reset 0). -/
abbrev hdr_PG_FAULT : Nat := 0x10
/-- hdr.PG_FAULT_EN (RW, reset Every implemented bit 1). -/
abbrev hdr_PG_FAULT_EN : Nat := 0x14
/-- hdr.PG_FAULT_FENCE (RW, reset 0). -/
abbrev hdr_PG_FAULT_FENCE : Nat := 0x18
/-- hdr.PG_FAULT_INJ (WO, reset 0). -/
abbrev hdr_PG_FAULT_INJ : Nat := 0x1c
/-- hdr.PG_INT_STAT (W1C, reset 0). -/
abbrev hdr_PG_INT_STAT : Nat := 0x20
/-- hdr.PG_INT_EN (RW, reset 0). -/
abbrev hdr_PG_INT_EN : Nat := 0x24
/-- hdr.PG_EVT_OUT0–3 (RW, reset 0). -/
abbrev hdr_PG_EVT_OUT0 : Nat := 0x28
/-- hdr.PG_EVT_IN0–3 (RW, reset 0). -/
abbrev hdr_PG_EVT_IN0 : Nat := 0x38
/-- hdr.PG_SHADOW (RW, reset 0). -/
abbrev hdr_PG_SHADOW : Nat := 0x48
/-- hdr.PG_LOCK (RW, reset 0). -/
abbrev hdr_PG_LOCK : Nat := 0x4c
/-- maint.M_CFG (RW, reset 0x0000_0005). -/
abbrev maint_M_CFG : Nat := 0x100
/-- maint.M_STAT (RO, reset 0). -/
abbrev maint_M_STAT : Nat := 0x104
/-- maint.M_ERR (RC, reset 0). -/
abbrev maint_M_ERR : Nat := 0x108
/-- maint.M_LAST (RO, reset 0). -/
abbrev maint_M_LAST : Nat := 0x10c
/-- maint.M_MBOX0–7 (RW, reset 0). -/
abbrev maint_M_MBOX0 : Nat := 0x110
/-- maint.M_DOORBELL (W1S, reset 0). -/
abbrev maint_M_DOORBELL : Nat := 0x130

end Off

/-- The timebase register table. -/
def regs_timebase : List RegDesc := [
  ⟨0x100, 1, 0, 1, 0, 0, 0, 0, 0, 0, 0, 0⟩,
  ⟨0x104, 1, 0, 1, 0, 0, 0, 0, 0, 0, 0, 0⟩,
  ⟨0x108, 1, 0, 1, 0, 0, 0, 0, 0, 0, 0, 0⟩,
  ⟨0x10c, 1, 0, 1, 0, 0, 0, 0, 0, 0, 0, 0⟩,
  ⟨0x110, 1, 0, 1, 0, 0, 0, 0, 0, 0, 0, 0⟩,
  ⟨0x114, 1, 0, 1, 0, 1, 1, 0, 0, 0, 0, 0⟩,
  ⟨0x118, 1, 0, 1, 0, 0, 0, 0, 0, 0, 0, 0⟩,
  ⟨0x120, 1, 0, 1, 0, 0, 0xffffffff, 0, 0, 0, 0, 0⟩,
  ⟨0x124, 1, 0, 1, 0, 0, 0xffffffff, 0, 0, 0, 0, 0⟩,
  ⟨0x128, 1, 0, 1, 0, 0, 0xffffffff, 0, 0, 0, 0, 0⟩,
  ⟨0x12c, 1, 0, 1, 0, 0, 0, 0, 0, 0, 0, 0⟩,
  ⟨0x130, 1, 0, 1, 0, 0, 0, 0, 0, 0, 0, 0⟩,
  ⟨0x134, 1, 0, 1, 0, 0, 0, 0, 0, 0, 0, 0⟩,
  ⟨0x140, 4, 4, 1, 0, 0, 0, 0, 0, 0, 0, 0⟩,
  ⟨0x150, 8, 4, 1, 0, 0, 0, 0, 0, 0, 0, 0⟩,
  ⟨0x170, 4, 4, 1, 0, 0, 0, 0, 0, 0, 0, 0⟩]

/-- The dist register table. -/
def regs_dist : List RegDesc := [
  ⟨0x100, 4, 0x40, 1, 0, 0, 0x401, 0, 0x3fe, 0, 0, 0⟩,
  ⟨0x104, 4, 0x40, 1, 0, 0x3e8, 0, 0, 0xffffffff, 0, 0, 0⟩,
  ⟨0x108, 4, 0x40, 1, 0, 0x2dc6c0, 0, 0xffffffff, 0, 0, 0, 0⟩,
  ⟨0x10c, 4, 0x40, 1, 0, 0x1000, 0, 0, 0xffffffff, 0, 0, 0⟩,
  ⟨0x110, 4, 0x40, 1, 0, 0, 0, 0, 0, 0, 0, 0⟩,
  ⟨0x114, 4, 0x40, 1, 0, 0, 0, 0, 0, 0, 0, 0⟩,
  ⟨0x118, 4, 0x40, 1, 0, 0, 0, 0, 0, 0, 0, 0⟩,
  ⟨0x11c, 4, 0x40, 1, 0, 0, 0, 0, 0, 0, 0, 0⟩,
  ⟨0x120, 4, 0x40, 1, 0, 0, 0, 0, 0, 0, 0, 0⟩,
  ⟨0x124, 4, 0x40, 1, 0, 0, 0, 0, 0, 0, 0, 0⟩,
  ⟨0x128, 4, 0x40, 1, 0, 0, 0, 0, 0, 0, 0, 0⟩,
  ⟨0x12c, 4, 0x40, 1, 0, 2, 0, 0, 0, 0, 0, 0⟩,
  ⟨0x130, 4, 0x40, 1, 0, 0x32012c, 0xffffff, 0, 0, 0, 0, 0⟩,
  ⟨0x134, 4, 0x40, 1, 0, 0x640040, 0, 0, 0xffff01ff, 0, 0, 0⟩,
  ⟨0x138, 4, 0x40, 1, 0, 0, 0xffffffff, 0, 0, 0, 0, 0⟩,
  ⟨0x13c, 4, 0x40, 1, 0, 0, 0xffffffff, 0, 0, 0, 0, 0⟩,
  ⟨0x200, 8, 0x10, 1, 0, 0xa00, 0x10, 0, 0xff0f, 0, 0, 0⟩,
  ⟨0x204, 8, 0x10, 1, 0, 0, 0, 0, 0, 0, 0, 0⟩,
  ⟨0x208, 8, 0x10, 1, 0, 0, 0, 0, 0, 0, 0, 0xffffffff⟩,
  ⟨0x20c, 8, 0x10, 1, 0, 0, 0, 0, 0, 0, 0, 0⟩,
  ⟨0x300, 4, 4, 1, 0, 0, 0xffffffff, 0, 0, 0, 0, 0⟩]

/-- The phase register table. -/
def regs_phase : List RegDesc := [
  ⟨0x100, 2, 0x40, 1, 0, 0, 1, 0, 0xe, 0, 0, 0⟩,
  ⟨0x104, 2, 0x40, 1, 0, 0xc350, 0, 0, 0xffffffff, 0, 0, 0⟩,
  ⟨0x108, 2, 0x40, 1, 0, 0x100c0806, 0xffff0f0f, 0, 0, 0, 0, 0⟩,
  ⟨0x10c, 2, 0x40, 1, 0, 0xa1900c8, 0xffffffff, 0, 0, 0, 0, 0⟩,
  ⟨0x110, 2, 0x40, 1, 0, 0, 0, 0, 0, 0, 0, 0⟩,
  ⟨0x114, 2, 0x40, 1, 0, 0, 0, 0, 0, 0, 0, 0⟩,
  ⟨0x118, 2, 0x40, 1, 0, 0, 0, 0, 0, 0, 0, 0⟩,
  ⟨0x11c, 2, 0x40, 1, 0, 0, 0, 0, 0, 0, 0, 0⟩,
  ⟨0x120, 2, 0x40, 1, 0, 0, 0, 0, 0, 0, 0, 0xffffffff⟩]

/-- The cue register table. -/
def regs_cue : List RegDesc := [
  ⟨0x100, 1, 0, 1, 0, 0, 0x1ff, 0, 0, 0, 0, 0⟩,
  ⟨0x104, 1, 0, 1, 0, 0, 0, 0, 0, 0, 0, 0⟩,
  ⟨0x108, 1, 0, 1, 0, 0, 0, 0, 0, 0, 0, 0⟩,
  ⟨0x110, 1, 0, 1, 0, 0, 0x3ff7f3f, 0, 0, 0, 0, 0⟩,
  ⟨0x114, 6, 4, 1, 0, 0, 0xffffffff, 0, 0, 0, 0, 0⟩,
  ⟨0x12c, 1, 4, 1, 0, 0, 0, 0, 0, 0, 0, 0⟩,
  ⟨0x140, 0x10, 4, 1, 0, 0, 0, 0, 0, 0, 0, 0⟩,
  ⟨0x180, 0x10, 4, 1, 0, 0, 0, 0, 0, 0xffffffff, 0, 0⟩,
  ⟨0x1c0, 0x10, 4, 1, 0, 0, 0, 0, 0, 0xffffffff, 0, 0⟩,
  ⟨0x200, 1, 0, 1, 0, 0, 0, 0, 0, 0, 0, 0⟩,
  ⟨0x204, 1, 0, 1, 0, 0x64, 0xffffffff, 0, 0, 0, 0, 0⟩]

/-- The lineview register table. -/
def regs_lineview : List RegDesc := [
  ⟨0x100, 0x10, 4, 1, 0, 0, 0, 0, 0, 0, 0, 0⟩,
  ⟨0x140, 0x10, 4, 1, 0, 0, 0, 0, 0, 0, 0, 0⟩,
  ⟨0x200, 0x80, 4, 1, 0, 0, 0, 0, 0, 0, 0, 0⟩,
  ⟨0x400, 0x40, 4, 1, 0, 0, 0, 0, 0xf7f, 0, 0, 0⟩,
  ⟨0x500, 8, 0x40, 1, 0, 0, 1, 0, 0xfff3f00, 0, 0, 0⟩,
  ⟨0x504, 8, 0x40, 1, 0, 0, 0, 0, 0xffffffff, 0, 0, 0⟩,
  ⟨0x508, 8, 0x40, 1, 0, 0x40, 0, 0, 0xffff, 0, 0, 0⟩,
  ⟨0x50c, 8, 0x40, 1, 0, 0, 0xffffff, 0, 0, 0, 0, 0⟩,
  ⟨0x510, 8, 0x40, 1, 0, 0, 0, 0, 0, 0, 0, 0⟩,
  ⟨0x514, 8, 0x40, 1, 0, 0x7fffffff, 0, 0, 0, 0, 0, 0xffffffff⟩,
  ⟨0x518, 8, 0x40, 1, 0, 0, 0, 0, 0, 0, 0, 0xffffffff⟩,
  ⟨0x51c, 8, 0x40, 1, 0, 0, 0, 0, 0, 0, 0, 0⟩,
  ⟨0x520, 8, 0x40, 1, 0, 0, 0, 0, 0, 0, 0, 0⟩,
  ⟨0x524, 8, 0x40, 1, 0, 0, 0, 0, 0, 0, 0, 0⟩,
  ⟨0x800, 0x80, 4, 1, 0, 0, 0, 0, 0, 0, 0, 0⟩]

/-- The sens register table. -/
def regs_sens : List RegDesc := [
  ⟨0x100, 1, 0, 1, 0, 0, 0, 0, 0xfff1f, 0, 0, 0⟩,
  ⟨0x104, 1, 0, 1, 0, 0, 0, 0, 0xffff, 0, 0, 0⟩,
  ⟨0x108, 1, 0, 1, 0, 0x688, 0, 0, 0xffff, 0, 0, 0⟩,
  ⟨0x10c, 1, 0, 1, 0, 0, 0, 0, 0, 0, 0, 0⟩,
  ⟨0x110, 1, 0, 1, 0, 0, 0, 0, 0, 0, 0, 0⟩,
  ⟨0x114, 1, 0, 1, 0, 0, 0, 0, 0, 0, 0, 0xffffffff⟩,
  ⟨0x118, 1, 0, 1, 0, 0, 0, 0, 0, 0, 0, 0xffffffff⟩,
  ⟨0x11c, 1, 0, 1, 0, 0, 0, 0, 0, 0, 0, 0xffffffff⟩,
  ⟨0x120, 1, 0, 1, 0, 0, 0, 0, 0, 0, 0, 0⟩,
  ⟨0x400, 1, 0, 1, 0, 0x7c0900, 0, 0, 0xffff03, 0, 0, 0⟩,
  ⟨0x404, 1, 0, 1, 0, 0, 0, 0, 0, 0, 0, 0⟩,
  ⟨0x408, 1, 0, 1, 0, 0, 0, 0, 0, 0, 0, 0⟩,
  ⟨0x40c, 1, 0, 1, 0, 0, 0, 0, 0, 0, 0, 0⟩,
  ⟨0x410, 1, 0, 1, 0, 0, 0, 0, 0, 0, 0, 0⟩,
  ⟨0x414, 1, 0, 1, 0, 0, 0, 0, 0, 0, 0, 0xffffffff⟩,
  ⟨0x418, 1, 0, 1, 0, 0, 0, 0, 0, 0, 0, 0xffffffff⟩]

/-- The dlk register table. -/
def regs_dlk : List RegDesc := [
  ⟨0x100, 1, 0, 1, 0, 0, 1, 0, 0x3f6, 0, 0, 0⟩,
  ⟨0x104, 1, 0, 1, 0, 0, 0, 0, 0, 0, 0, 0⟩,
  ⟨0x108, 1, 0, 1, 0, 0xffffffff, 0, 0, 0, 0, 0, 0⟩,
  ⟨0x10c, 1, 0, 1, 0, 0xffffff, 0, 0, 0, 0, 0, 0⟩,
  ⟨0x110, 1, 0, 1, 0, 0x810, 0xffff, 0, 0, 0, 0, 0⟩,
  ⟨0x114, 1, 0, 1, 0, 0, 0, 0, 0, 0, 0, 0xffffffff⟩,
  ⟨0x118, 1, 0, 1, 0, 0, 0, 0, 0, 0, 0, 0xffffffff⟩,
  ⟨0x120, 1, 0, 1, 0, 0, 0xffff, 0, 0, 0, 0, 0⟩,
  ⟨0x124, 1, 0, 1, 0, 0, 0xffffffff, 0, 0, 0, 0, 0⟩,
  ⟨0x128, 1, 0, 1, 0, 0, 0, 0, 0, 0, 0, 0⟩,
  ⟨0x12c, 1, 0, 1, 0, 0, 0, 0, 0, 0, 0, 0⟩,
  ⟨0x130, 1, 0, 1, 0, 0, 0, 0, 0, 0, 0, 0⟩,
  ⟨0x134, 1, 0, 1, 0, 0, 0, 0, 0, 0, 0, 0⟩,
  ⟨0x138, 1, 0, 1, 0, 0x10064, 0x1ffff, 0, 0, 0, 0, 0⟩,
  ⟨0x13c, 1, 0, 1, 0, 0, 0, 0, 0, 0, 0, 0⟩]

/-- The swift register table. -/
def regs_swift : List RegDesc := [
  ⟨0x100, 1, 0, 1, 0, 0, 0, 0, 0x1fff07, 0, 0, 0⟩,
  ⟨0x180, 1, 0, 1, 0, 0, 0, 0, 0, 0, 0, 0⟩,
  ⟨0x184, 1, 0, 1, 0, 0, 0, 0, 0, 0, 0, 0xffffffff⟩,
  ⟨0x188, 1, 0, 1, 0, 0, 0, 0, 0, 0, 0, 0xffffffff⟩,
  ⟨0x18c, 1, 0, 1, 0, 0, 0, 0, 0, 0, 0, 0⟩,
  ⟨0x1a0, 1, 0, 1, 0, 0, 0, 0, 0, 0, 0, 0⟩,
  ⟨0x1a4, 1, 0, 1, 0, 0, 0, 0, 3, 0, 0, 0⟩,
  ⟨0x1a8, 1, 0, 1, 0, 0, 0, 0, 0, 0, 0, 0xffffffff⟩,
  ⟨0x1ac, 1, 0, 1, 0, 0, 0, 0, 0, 0, 0, 0xffffffff⟩,
  ⟨0x200, 1, 0, 1, 0, 0xa000400, 0, 0, 0xf001f0f, 0, 0, 0⟩,
  ⟨0x204, 1, 0, 1, 0, 0, 0, 0, 0, 0, 0, 0⟩,
  ⟨0x208, 1, 0, 1, 0, 0x140000, 0x3fff7f, 0, 0, 0, 0, 0⟩,
  ⟨0x20c, 1, 0, 1, 0, 0, 0, 0, 0, 0, 0, 0⟩,
  ⟨0x210, 1, 0, 1, 0, 0, 0, 0, 0, 0, 0, 0⟩,
  ⟨0x214, 1, 0, 1, 0, 0, 0, 0, 0, 0, 0, 0⟩,
  ⟨0x218, 1, 0, 1, 0, 0, 0, 0, 0, 0, 0, 0⟩]

/-- The intake register table. -/
def regs_intake : List RegDesc := [
  ⟨0x100, 1, 0, 1, 0, 0, 0x3fff, 0, 0, 0, 0, 0⟩,
  ⟨0x104, 1, 0, 1, 0, 0, 0, 0, 0, 0, 0, 0⟩,
  ⟨0x108, 1, 0, 1, 0, 0, 0, 0, 0, 0, 0, 0⟩,
  ⟨0x140, 1, 0, 1, 0, 0, 0x803f0f7f, 0, 0, 0, 0, 0⟩,
  ⟨0x144, 1, 0, 1, 0, 0, 0xffffffff, 0, 0, 0, 0, 0⟩,
  ⟨0x148, 1, 0, 1, 0, 0, 0xffff00ff, 0, 0, 0, 0, 0⟩,
  ⟨0x14c, 1, 0, 1, 0, 0, 0x3fff, 0, 0, 0, 0, 0⟩,
  ⟨0x150, 2, 4, 1, 0, 0, 0xfffff, 0, 0, 0, 0, 0⟩,
  ⟨0x158, 3, 4, 1, 0, 0, 0xffffffff, 0, 0, 0, 0, 0⟩,
  ⟨0x164, 1, 0, 1, 0, 0, 0x1ff01ff, 0, 0, 0, 0, 0⟩,
  ⟨0x168, 1, 0, 1, 0, 0, 0xffffffff, 0, 0, 0, 0, 0⟩,
  ⟨0x16c, 1, 0, 1, 0, 0, 0xffff7fff, 0, 0, 0, 0, 0⟩,
  ⟨0x170, 1, 0, 1, 0, 0, 0x3fff, 0, 0, 0, 0, 0⟩,
  ⟨0x174, 1, 0, 1, 0, 0, 0x1f, 0, 0, 0, 0, 0⟩,
  ⟨0x178, 1, 0, 1, 0, 0, 0xffffffff, 0, 0, 0, 0, 0⟩,
  ⟨0x17c, 1, 0, 1, 0, 0, 0, 0, 0, 0, 0, 0⟩,
  ⟨0x180, 0x10, 4, 1, 0, 0, 0, 0, 0, 0, 0, 0⟩,
  ⟨0x1c0, 1, 0, 1, 0, 0, 0, 0, 0, 0, 0, 0⟩,
  ⟨0x1c4, 1, 0, 1, 0, 0x1000, 0, 0, 0, 0, 0, 0⟩,
  ⟨0x1c8, 1, 0, 1, 0, 0, 0, 0, 0, 0, 0, 0⟩,
  ⟨0x1cc, 1, 0, 1, 0, 0, 0, 0, 0, 0, 0, 0xffffffff⟩,
  ⟨0x1d0, 1, 0, 1, 0, 0, 0, 0, 0, 0, 0, 0xffffffff⟩]

/-- The pipeCtl register table. -/
def regs_pipeCtl : List RegDesc := [
  ⟨0x100, 1, 0, 1, 0, 0, 0x3f, 0, 0, 0, 0, 0⟩,
  ⟨0x104, 1, 0, 1, 0, 0, 0, 0, 0, 0, 0, 0⟩,
  ⟨0x108, 1, 0, 1, 0, 0, 0, 0, 0, 0, 0, 0⟩,
  ⟨0x10c, 1, 0, 1, 0, 0, 0, 0, 0, 0, 0, 0⟩,
  ⟨0x110, 1, 0, 1, 0, 0, 0, 0, 0, 0, 0, 0xffffffff⟩,
  ⟨0x114, 1, 0, 1, 0, 0, 0, 0, 0, 0, 0, 0xffffffff⟩,
  ⟨0x118, 1, 0, 1, 0, 0, 0, 0, 0, 0, 0, 0⟩,
  ⟨0x11c, 1, 0, 1, 0, 0, 0, 0, 0, 0, 0, 0xffffffff⟩,
  ⟨0x120, 1, 0, 1, 0, 0, 0, 0, 0, 0, 0, 0xffffffff⟩,
  ⟨0x124, 1, 0, 1, 0, 0, 0, 0, 0, 0, 0, 0⟩,
  ⟨0x140, 1, 0, 1, 0, 0, 0x3ff, 0, 0, 0, 0, 0⟩,
  ⟨0x144, 2, 4, 1, 0, 0, 0xffffffff, 0, 0, 0, 0, 0⟩,
  ⟨0x14c, 1, 0, 1, 0, 0, 0x1ff1f, 0, 0, 0, 0, 0⟩,
  ⟨0x150, 1, 0, 1, 0, 0, 0xfffff, 0, 0, 0, 0, 0⟩,
  ⟨0x154, 1, 0, 1, 0, 0, 0x7ff, 0, 0, 0, 0, 0⟩,
  ⟨0x158, 4, 4, 1, 0, 0, 0xffffffff, 0, 0, 0, 0, 0⟩,
  ⟨0x168, 2, 4, 1, 0, 0, 0xfffff, 0, 0, 0, 0, 0⟩,
  ⟨0x170, 1, 0, 1, 0, 0, 0x1ff01ff, 0, 0, 0, 0, 0⟩,
  ⟨0x174, 1, 0, 1, 0, 0, 0xbfffbfff, 0, 0, 0, 0, 0⟩,
  ⟨0x178, 1, 0, 1, 0, 0, 0xfbfff, 0, 0, 0, 0, 0⟩,
  ⟨0x17c, 1, 0, 1, 0, 0, 0, 0, 0, 0, 0, 0⟩,
  ⟨0x180, 4, 4, 1, 0, 0, 0, 0, 0, 0, 0, 0⟩,
  ⟨0x190, 1, 0, 1, 0, 0, 0xffffffff, 0, 0, 0, 0, 0⟩,
  ⟨0x194, 1, 0, 1, 0, 0, 0xffffffff, 0, 0, 0, 0, 0⟩,
  ⟨0x198, 1, 0, 1, 0, 0, 0xffffffff, 0, 0, 0, 0, 0⟩,
  ⟨0x19c, 1, 0, 1, 0, 0, 0, 0, 0, 0, 0, 0⟩]

/-- The pipeStage register table. -/
def regs_pipeStage : List RegDesc := [
  ⟨0x100, 1, 0, 1, 0, 0, 1, 0, 0, 0, 0, 0⟩,
  ⟨0x104, 1, 0, 1, 0, 0, 0, 0, 0, 0, 0, 0⟩,
  ⟨0x108, 1, 0, 1, 0, 0, 0, 0, 0, 0, 0, 0⟩,
  ⟨0x10c, 1, 0, 1, 0, 0, 0xffff, 0, 0, 0, 0, 0⟩,
  ⟨0x110, 1, 0, 1, 0, 0, 0, 0, 0, 0, 0, 0⟩,
  ⟨0x114, 1, 0, 1, 0, 0, 0, 0, 0, 0, 0, 0xffffffff⟩,
  ⟨0x118, 1, 0, 1, 0, 0, 0, 0, 0, 0, 0, 0xffffffff⟩,
  ⟨0x11c, 1, 0, 1, 0, 0, 0, 0, 0, 0, 0, 0xffffffff⟩]

/-- The pipeMatrix register table. -/
def regs_pipeMatrix : List RegDesc := [
  ⟨0x120, 1, 0, 1, 0, 0, 0, 0, 0, 0, 0, 0⟩,
  ⟨0x124, 1, 0, 1, 0, 0, 0, 0, 0, 0, 0, 0⟩]

/-- The pipeLut register table. -/
def regs_pipeLut : List RegDesc := [
  ⟨0x120, 1, 0, 1, 0, 0, 0, 0, 0, 0, 0, 0⟩,
  ⟨0x124, 1, 0, 1, 0, 0, 0, 0, 0, 0, 0, 0⟩,
  ⟨0x128, 1, 0, 1, 0, 0, 0, 0, 0, 0, 0, 0⟩,
  ⟨0x12c, 1, 0, 1, 0, 0, 0, 0, 0, 0, 0, 0xffffffff⟩]

/-- The pipeBranch register table. -/
def regs_pipeBranch : List RegDesc := [
  ⟨0x100, 1, 0, 1, 0, 0, 0x3f, 0, 0, 0, 0, 0⟩,
  ⟨0x104, 1, 0, 1, 0, 0, 0, 0, 0, 0, 0, 0⟩,
  ⟨0x108, 1, 0, 1, 0, 0, 0, 0, 0, 0, 0, 0⟩,
  ⟨0x10c, 1, 0, 1, 0, 0, 0, 0, 0, 0, 0, 0⟩,
  ⟨0x110, 1, 0, 1, 0, 0, 0, 0, 0, 0, 0, 0xffffffff⟩,
  ⟨0x114, 1, 0, 1, 0, 0, 0, 0, 0, 0, 0, 0xffffffff⟩,
  ⟨0x118, 1, 0, 1, 0, 0, 0, 0, 0, 0, 0, 0xffffffff⟩,
  ⟨0x11c, 1, 0, 1, 0, 0, 0, 0, 0, 0, 0, 0xffffffff⟩,
  ⟨0x120, 1, 0, 1, 0, 0, 0, 0, 0, 0, 0, 0xffffffff⟩,
  ⟨0x124, 1, 0, 1, 0, 0, 0, 0, 0, 0, 0, 0⟩,
  ⟨0x140, 1, 0, 1, 0, 0, 0x1ff01ff, 0, 0, 0, 0, 0⟩,
  ⟨0x144, 1, 0, 1, 0, 0, 0xffffffff, 0, 0, 0, 0, 0⟩,
  ⟨0x148, 1, 0, 1, 0, 0, 0x3fff, 0, 0, 0, 0, 0⟩,
  ⟨0x14c, 2, 4, 1, 0, 0, 0xfffff, 0, 0, 0, 0, 0⟩,
  ⟨0x154, 1, 0, 1, 0, 0, 0xffffffff, 0, 0, 0, 0, 0⟩,
  ⟨0x158, 1, 0, 1, 0, 0, 0x1ffffff, 0, 0, 0, 0, 0⟩,
  ⟨0x15c, 1, 0, 1, 0, 0, 0, 0, 0, 0, 0, 0⟩,
  ⟨0x160, 1, 0, 1, 0, 0, 0, 0, 0, 0, 0, 0⟩]

/-- The pipeStats register table. -/
def regs_pipeStats : List RegDesc := [
  ⟨0x100, 1, 0, 1, 0, 0, 0x3f, 0, 0, 0, 0, 0⟩,
  ⟨0x104, 1, 0, 1, 0, 0, 0, 0, 0xffffffff, 0, 0, 0⟩,
  ⟨0x108, 1, 0, 1, 0, 0, 0, 0, 0xffffffff, 0, 0, 0⟩,
  ⟨0x10c, 1, 0, 1, 0, 0, 0, 0, 0x1ff, 0, 0, 0⟩,
  ⟨0x110, 1, 0, 1, 0, 0, 0, 0, 0, 0, 0, 0⟩,
  ⟨0x114, 1, 0, 1, 0, 0, 0, 0, 0, 0, 0, 0⟩,
  ⟨0x118, 1, 0, 1, 0, 0, 0, 0, 0, 0, 0, 0⟩,
  ⟨0x11c, 1, 0, 1, 0, 0, 0, 0, 0, 0, 0, 0⟩,
  ⟨0x120, 1, 0, 1, 0, 0, 0, 0, 0, 0, 0, 0xffffffff⟩,
  ⟨0x124, 1, 0, 1, 0, 0, 0, 0, 0, 0, 0, 0xffffffff⟩,
  ⟨0x128, 1, 0, 1, 0, 0, 0, 0, 0, 0, 0, 0xffffffff⟩,
  ⟨0x140, 4, 0x20, 1, 0, 0, 0, 0, 0, 0, 0, 0⟩,
  ⟨0x144, 4, 0x20, 1, 0, 0, 0, 0, 0, 0, 0, 0⟩,
  ⟨0x148, 4, 0x20, 1, 0, 0, 0, 0, 0, 0, 0, 0⟩,
  ⟨0x14c, 4, 0x20, 1, 0, 0, 0, 0, 0, 0, 0, 0⟩,
  ⟨0x150, 4, 0x20, 1, 0, 0, 0, 0, 0, 0, 0, 0⟩]

/-- The pipeFocus register table. -/
def regs_pipeFocus : List RegDesc := [
  ⟨0x100, 1, 0, 1, 0, 0, 0x3f, 0, 0, 0, 0, 0⟩,
  ⟨0x104, 1, 0, 1, 0, 0, 0, 0, 0, 0, 0, 0⟩,
  ⟨0x108, 1, 0, 1, 0, 0, 0, 0, 0, 0, 0, 0⟩,
  ⟨0x10c, 1, 0, 1, 0, 0, 0, 0, 0, 0, 0, 0⟩,
  ⟨0x140, 0x10, 4, 1, 0, 0, 0, 0, 0, 0, 0, 0⟩,
  ⟨0x180, 0x10, 4, 1, 0, 0, 0, 0, 0, 0, 0, 0⟩,
  ⟨0x1c0, 1, 0, 1, 0, 0, 0, 0, 0, 0, 0, 0xffffffff⟩]

/-- The eng register table. -/
def regs_eng : List RegDesc := [
  ⟨0x100, 1, 0, 1, 0, 4, 0, 0, 7, 0, 0, 0⟩,
  ⟨0x104, 1, 0, 1, 0, 0x1ff0000, 0, 0, 0, 0, 0, 0⟩,
  ⟨0x108, 1, 0, 1, 0, 0, 3, 0, 0, 0, 0, 0⟩,
  ⟨0x10c, 1, 0, 1, 0, 0, 0, 0, 0, 0, 0, 0⟩,
  ⟨0x110, 1, 0, 1, 0, 0, 0, 0, 0, 0, 0, 0⟩,
  ⟨0x114, 1, 0, 1, 0, 0, 0, 0, 0, 0, 0, 0⟩,
  ⟨0x118, 1, 0, 1, 0, 0, 0, 0, 0, 0, 0, 0⟩,
  ⟨0x11c, 1, 0, 1, 0, 0, 0, 0, 0, 0, 0, 0⟩,
  ⟨0x120, 1, 0, 1, 0, 0, 0, 0, 0, 0, 0, 0⟩,
  ⟨0x124, 1, 0, 1, 0, 0, 0xffff, 0, 0, 0, 0, 0⟩,
  ⟨0x128, 1, 0, 1, 0, 0, 0, 0, 0, 0, 0, 0xffffffff⟩,
  ⟨0x12c, 1, 0, 1, 0, 0, 0, 0, 0, 0, 0, 0⟩,
  ⟨0x130, 1, 0, 1, 0, 0, 0, 0, 0, 0, 0, 0⟩,
  ⟨0x134, 1, 0, 1, 0, 0, 0, 0, 0, 0, 0, 0⟩,
  ⟨0x138, 1, 0, 1, 0, 0, 0, 0, 0, 0, 0, 0⟩,
  ⟨0x13c, 1, 0, 1, 0, 0, 0, 0, 0, 0, 0, 0⟩,
  ⟨0x140, 1, 0, 1, 0, 0, 0, 0, 0, 0, 0, 0xffffffff⟩,
  ⟨0x144, 1, 0, 1, 0, 0, 0, 0, 0, 0, 0, 0xffffffff⟩,
  ⟨0x148, 1, 0, 1, 0, 0, 0, 0, 0, 0, 0, 0⟩,
  ⟨0x14c, 1, 0, 1, 0, 0, 0, 0, 0, 0, 0, 0⟩,
  ⟨0x150, 4, 4, 1, 0, 0, 0, 0, 0, 0, 0, 0⟩]

/-- The clus register table. -/
def regs_clus : List RegDesc := [
  ⟨0x100, 8, 4, 1, 0, 0, 0, 0, 0, 0, 0, 0⟩,
  ⟨0x120, 1, 0, 1, 0, 0, 0, 0, 0, 0, 0, 0⟩,
  ⟨0x128, 1, 0, 1, 0, 0, 0xffffffff, 0, 0, 0, 0, 0⟩,
  ⟨0x12c, 1, 0, 1, 0, 0, 0xffffffff, 0, 0, 0, 0, 0⟩,
  ⟨0x130, 1, 0, 1, 0, 0, 0xff, 0, 0, 0, 0, 0⟩,
  ⟨0x134, 1, 0, 1, 0, 0, 0, 0, 0, 0, 0, 0⟩,
  ⟨0x140, 0x10, 4, 1, 0, 0, 0, 0, 0, 0, 0, 0⟩,
  ⟨0x180, 1, 0, 1, 0, 0, 0, 0, 0, 0, 0, 0⟩,
  ⟨0x184, 1, 0, 1, 0, 0, 0, 0, 0, 0, 0, 0⟩,
  ⟨0x1c0, 0x10, 4, 1, 0, 1, 0, 0, 0x3f, 0, 0, 0⟩,
  ⟨0x200, 0x10, 4, 1, 0, 0, 0, 0, 0, 0, 0, 0⟩,
  ⟨0x240, 1, 0, 1, 0, 0, 0, 0, 0, 0, 0, 0xffffffff⟩,
  ⟨0x244, 1, 0, 1, 0, 0, 0, 0, 0, 0, 0, 0⟩,
  ⟨0x248, 1, 0, 1, 0, 0, 0, 0, 0, 0, 0, 0xffffffff⟩]

/-- The henc register table. -/
def regs_henc : List RegDesc := [
  ⟨0x100, 1, 0, 1, 0, 0, 0x3fff, 0, 0, 0, 0, 0⟩,
  ⟨0x104, 1, 0, 1, 0, 0, 0, 0, 0, 0, 0, 0⟩,
  ⟨0x108, 1, 0, 1, 0, 0, 0, 0, 0, 0, 0, 0⟩,
  ⟨0x10c, 1, 0, 1, 0, 0, 0, 0, 0, 0, 0, 0⟩,
  ⟨0x110, 1, 0, 1, 0, 1, 0, 0, 7, 0, 0, 0⟩,
  ⟨0x114, 1, 0, 1, 0, 0, 0xffffffff, 0, 0, 0, 0, 0⟩,
  ⟨0x118, 1, 0, 1, 0, 0, 0xffffffff, 0, 0, 0, 0, 0⟩,
  ⟨0x11c, 1, 0, 1, 0, 0, 0, 0, 0, 0, 0, 0⟩,
  ⟨0x120, 1, 0, 1, 0, 0, 0, 0, 0, 0, 0, 0xffffffff⟩,
  ⟨0x124, 1, 0, 1, 0, 0, 0, 0, 0, 0, 0, 0xffffffff⟩,
  ⟨0x128, 1, 0, 1, 0, 0, 0, 0, 0, 0, 0, 0xffffffff⟩,
  ⟨0x12c, 1, 0, 1, 0, 0, 0, 0, 0, 0, 0, 0xffffffff⟩,
  ⟨0x130, 1, 0, 1, 0, 0, 0, 0, 0, 0, 0, 0⟩,
  ⟨0x134, 1, 0, 1, 0, 0, 0, 0, 0, 0, 0, 0⟩,
  ⟨0x138, 1, 0, 1, 0, 0, 0, 0, 0, 0, 0, 0xffffffff⟩,
  ⟨0x140, 1, 0, 1, 0, 0, 0x1fffff, 0, 0, 0, 0, 0⟩,
  ⟨0x144, 2, 4, 1, 0, 0, 0xffffffff, 0, 0, 0, 0, 0⟩,
  ⟨0x14c, 4, 4, 1, 0, 0, 0xfffff, 0, 0, 0, 0, 0⟩,
  ⟨0x15c, 1, 0, 1, 0, 0, 0xffff00ff, 0, 0, 0, 0, 0⟩,
  ⟨0x160, 3, 4, 1, 0, 0, 0xffffffff, 0, 0, 0, 0, 0⟩,
  ⟨0x16c, 1, 0, 1, 0, 0, 0xffffff, 0, 0, 0, 0, 0⟩,
  ⟨0x170, 1, 0, 1, 0, 0, 0xffffffff, 0, 0, 0, 0, 0⟩,
  ⟨0x174, 1, 0, 1, 0, 0, 0x3ff3f3f, 0, 0, 0, 0, 0⟩,
  ⟨0x178, 1, 0, 1, 0, 0, 0xffffffff, 0, 0, 0, 0, 0⟩,
  ⟨0x17c, 1, 0, 1, 0, 0, 0x7fff7fff, 0, 0, 0, 0, 0⟩,
  ⟨0x180, 1, 0, 1, 0, 0, 0x1ff01ff, 0, 0, 0, 0, 0⟩,
  ⟨0x184, 1, 0, 1, 0, 0, 0x1ffffff, 0, 0, 0, 0, 0⟩,
  ⟨0x188, 1, 0, 1, 0, 0, 0xffffffff, 0, 0, 0, 0, 0⟩,
  ⟨0x18c, 1, 0, 1, 0, 0, 0x7ffff, 0, 0, 0, 0, 0⟩,
  ⟨0x190, 0xc, 4, 1, 0, 0, 0, 0, 0, 0, 0, 0⟩]

/-- The dec register table. -/
def regs_dec : List RegDesc := [
  ⟨0x100, 1, 0, 1, 0, 0, 0x3fff, 0, 0, 0, 0, 0⟩,
  ⟨0x104, 1, 0, 1, 0, 0, 0, 0, 0, 0, 0, 0⟩,
  ⟨0x108, 1, 0, 1, 0, 0, 0, 0, 0, 0, 0, 0⟩,
  ⟨0x10c, 1, 0, 1, 0, 0, 0, 0, 0, 0, 0, 0⟩,
  ⟨0x110, 1, 0, 1, 0, 0, 0, 0, 0, 0, 0, 0⟩,
  ⟨0x114, 1, 0, 1, 0, 0, 0, 0, 0, 0, 0, 0xffffffff⟩,
  ⟨0x118, 1, 0, 1, 0, 0, 0, 0, 0, 0, 0, 0xffffffff⟩,
  ⟨0x11c, 1, 0, 1, 0, 0, 0, 0, 0, 0, 0, 0xffffffff⟩,
  ⟨0x120, 1, 0, 1, 0, 0, 0, 0, 0, 0, 0, 0xffffffff⟩,
  ⟨0x124, 1, 0, 1, 0, 0, 0, 0, 0, 0, 0, 0⟩,
  ⟨0x128, 1, 0, 1, 0, 0, 0, 0, 0, 0, 0, 0xffffffff⟩,
  ⟨0x140, 1, 0, 1, 0, 0, 0x6f, 0, 0, 0, 0, 0⟩,
  ⟨0x144, 2, 4, 1, 0, 0, 0xffffffff, 0, 0, 0, 0, 0⟩,
  ⟨0x14c, 4, 4, 1, 0, 0, 0xfffff, 0, 0, 0, 0, 0⟩,
  ⟨0x15c, 1, 0, 1, 0, 0, 0x1f, 0, 0, 0, 0, 0⟩,
  ⟨0x160, 2, 4, 1, 0, 0, 0xffffffff, 0, 0, 0, 0, 0⟩,
  ⟨0x168, 1, 0, 1, 0, 0, 0x1ff01ff, 0, 0, 0, 0, 0⟩,
  ⟨0x16c, 5, 4, 1, 0, 0, 0, 0, 0, 0, 0, 0⟩,
  ⟨0x180, 0x10, 4, 1, 0, 0, 0, 0, 0, 0, 0, 0⟩]

/-- The xs register table (DECn and XSn share it but for the staging words). -/
def regs_xs : List RegDesc := [
  ⟨0x100, 1, 0, 1, 0, 0, 0x3fff, 0, 0, 0, 0, 0⟩,
  ⟨0x104, 1, 0, 1, 0, 0, 0, 0, 0, 0, 0, 0⟩,
  ⟨0x108, 1, 0, 1, 0, 0, 0, 0, 0, 0, 0, 0⟩,
  ⟨0x10c, 1, 0, 1, 0, 0, 0, 0, 0, 0, 0, 0⟩,
  ⟨0x110, 1, 0, 1, 0, 0, 0, 0, 0, 0, 0, 0⟩,
  ⟨0x114, 1, 0, 1, 0, 0, 0, 0, 0, 0, 0, 0xffffffff⟩,
  ⟨0x118, 1, 0, 1, 0, 0, 0, 0, 0, 0, 0, 0xffffffff⟩,
  ⟨0x11c, 1, 0, 1, 0, 0, 0, 0, 0, 0, 0, 0xffffffff⟩,
  ⟨0x120, 1, 0, 1, 0, 0, 0, 0, 0, 0, 0, 0xffffffff⟩,
  ⟨0x124, 1, 0, 1, 0, 0, 0, 0, 0, 0, 0, 0⟩,
  ⟨0x128, 1, 0, 1, 0, 0, 0, 0, 0, 0, 0, 0xffffffff⟩,
  ⟨0x140, 1, 0, 1, 0, 0, 0x7f, 0, 0, 0, 0, 0⟩,
  ⟨0x144, 2, 4, 1, 0, 0, 0xffffffff, 0, 0, 0, 0, 0⟩,
  ⟨0x14c, 4, 4, 1, 0, 0, 0xfffff, 0, 0, 0, 0, 0⟩,
  ⟨0x15c, 1, 0, 1, 0, 0, 0x7ff1fff, 0, 0, 0, 0, 0⟩,
  ⟨0x160, 2, 4, 1, 0, 0, 0, 0, 0, 0, 0, 0⟩,
  ⟨0x168, 1, 0, 1, 0, 0, 0x1ff01ff, 0, 0, 0, 0, 0⟩,
  ⟨0x16c, 5, 4, 1, 0, 0, 0, 0, 0, 0, 0, 0⟩,
  ⟨0x180, 0x10, 4, 1, 0, 0, 0, 0, 0, 0, 0, 0⟩]

/-- The disp register table. -/
def regs_disp : List RegDesc := [
  ⟨0x100, 1, 0, 1, 0, 0, 0, 0, 3, 0, 0, 0⟩,
  ⟨0x104, 1, 0, 1, 0, 0x47, 0, 0xff, 0, 0, 0, 0⟩,
  ⟨0x108, 1, 0, 1, 0, 0x8980780, 0, 0xffffffff, 0, 0, 0, 0⟩,
  ⟨0x10c, 1, 0, 1, 0, 0x2c0058, 0, 0xffffffff, 0, 0, 0, 0⟩,
  ⟨0x110, 1, 0, 1, 0, 0x4650438, 0, 0xffffffff, 0, 0, 0, 0⟩,
  ⟨0x114, 1, 0, 1, 0, 0x50004, 0, 0xffffffff, 0, 0, 0, 0⟩,
  ⟨0x118, 1, 0, 1, 0, 0x24414, 0, 0x1fffff, 0, 0, 0, 0⟩,
  ⟨0x11c, 1, 0, 1, 0, 0, 0, 0x3f, 0, 0, 0, 0⟩,
  ⟨0x120, 1, 0, 1, 0, 0, 0, 0x3fff, 0, 0, 0, 0⟩,
  ⟨0x124, 1, 0, 1, 0, 0, 0, 0xffff, 0, 0, 0, 0⟩,
  ⟨0x128, 1, 0, 1, 0, 0, 0, 0x3fffffff, 0, 0, 0, 0⟩,
  ⟨0x12c, 1, 0, 1, 0, 0, 0xffff, 0, 0, 0, 0, 0⟩,
  ⟨0x130, 1, 0, 1, 0, 0, 0, 0, 0, 0, 0, 0⟩,
  ⟨0x134, 1, 0, 1, 0, 0x8f8, 0, 0, 0, 0, 0, 0⟩,
  ⟨0x138, 1, 0, 1, 0, 0, 0, 0, 0, 0, 0, 0xffffffff⟩,
  ⟨0x13c, 1, 0, 1, 0, 0, 0, 0, 0, 0, 0, 0xffffffff⟩,
  ⟨0x140, 1, 0, 1, 0, 0, 0, 0, 0, 0, 0, 0xffffffff⟩,
  ⟨0x144, 1, 0, 1, 0, 0, 0, 0, 0, 0, 0, 0xffffffff⟩,
  ⟨0x148, 1, 0, 1, 0, 0, 0xfffff, 0, 0, 0, 0, 0⟩,
  ⟨0x14c, 1, 0, 1, 0, 0, 0, 0, 0, 0, 0, 0⟩,
  ⟨0x150, 4, 4, 1, 0, 0, 0xffffffff, 0, 0, 0, 0, 0⟩,
  ⟨0x160, 1, 0, 1, 0, 0, 0, 0, 0, 0, 0, 0⟩,
  ⟨0x164, 1, 0, 1, 0, 0, 0, 0, 0, 0, 0, 0xffffffff⟩,
  ⟨0x200, 8, 0x40, 1, 0, 0, 0, 0xff1fff, 0, 0, 0, 0⟩,
  ⟨0x204, 8, 0x40, 1, 0, 0, 0, 0xffffffff, 0, 0, 0, 0⟩,
  ⟨0x208, 8, 0x40, 1, 0, 0, 0, 0xffffffff, 0, 0, 0, 0⟩,
  ⟨0x20c, 8, 0x40, 1, 0, 0, 0, 0xffffffff, 0, 0, 0, 0⟩,
  ⟨0x210, 8, 0x40, 1, 0, 0, 0, 0xffffffff, 0, 0, 0, 0⟩,
  ⟨0x214, 8, 0x40, 1, 0, 0, 0, 0xffffffff, 0, 0, 0, 0⟩,
  ⟨0x218, 8, 0x40, 1, 0, 0, 0, 0xffffffff, 0, 0, 0, 0⟩,
  ⟨0x21c, 8, 0x40, 1, 0, 0, 0, 0xfffff, 0, 0, 0, 0⟩,
  ⟨0x220, 8, 0x40, 1, 0, 0, 0, 0xfffff, 0, 0, 0, 0⟩,
  ⟨0x224, 8, 0x40, 1, 0, 0, 0, 0xff01ff, 0, 0, 0, 0⟩,
  ⟨0x228, 8, 0x40, 1, 0, 0, 0, 0xffffffff, 0, 0, 0, 0⟩,
  ⟨0x22c, 8, 0x40, 1, 0, 0, 0, 0xffffffff, 0, 0, 0, 0⟩,
  ⟨0x230, 8, 0x40, 1, 0, 0, 0, 0x1f1fff, 0, 0, 0, 0⟩,
  ⟨0x234, 8, 0x40, 1, 0, 0, 0, 0x3fffffff, 0, 0, 0, 0⟩,
  ⟨0x238, 8, 0x40, 1, 0, 0, 0, 0, 0, 0, 0, 0⟩,
  ⟨0x23c, 8, 0x40, 1, 0, 0, 0, 0, 0, 0, 0, 0⟩,
  ⟨0x400, 8, 4, 1, 0, 0, 0, 0, 0, 0, 0, 0⟩,
  ⟨0x420, 8, 4, 1, 0, 0, 0, 0xffff, 0, 0, 0, 0⟩]

/-- The eye register table. -/
def regs_eye : List RegDesc := [
  ⟨0x100, 1, 0, 1, 0, 4, 0xf, 0, 0, 0, 0, 0⟩,
  ⟨0x104, 1, 0, 1, 0, 0, 0, 0, 0, 0, 0, 0⟩,
  ⟨0x108, 1, 0, 1, 0, 0, 0, 0, 0, 0, 0, 0⟩,
  ⟨0x10c, 1, 0, 1, 0, 0, 0, 0, 0, 0, 0, 0⟩,
  ⟨0x110, 1, 0, 1, 0, 0, 0, 0, 0, 0, 0, 0⟩,
  ⟨0x114, 1, 0, 1, 0, 0, 0, 0, 0x7ffff, 0, 0, 0⟩,
  ⟨0x118, 1, 0, 1, 0, 0, 0, 0, 0x1ff03ff, 0, 0, 0⟩,
  ⟨0x11c, 4, 4, 1, 0, 0, 0, 0, 0x3fffffff, 0, 0, 0⟩,
  ⟨0x130, 1, 0, 1, 0, 0, 0, 0, 0, 0, 0, 0xffffffff⟩,
  ⟨0x134, 1, 0, 1, 0, 0, 0, 0, 0, 0, 0, 0xffffffff⟩,
  ⟨0x138, 1, 0, 1, 0, 0, 0, 0, 0, 0, 0, 0xffffffff⟩,
  ⟨0x13c, 1, 0, 1, 0, 0, 0, 0, 0, 0, 0, 0xffffffff⟩,
  ⟨0x200, 0x10, 0x20, 1, 0, 0, 0, 0xff, 0, 0, 0, 0⟩,
  ⟨0x204, 0x10, 0x20, 1, 0, 0, 0, 0xffffffff, 0, 0, 0, 0⟩,
  ⟨0x208, 0x10, 0x20, 1, 0, 0, 0, 0xffffffff, 0, 0, 0, 0⟩,
  ⟨0x20c, 0x10, 0x20, 1, 0, 0, 0, 0xffffffff, 0, 0, 0, 0⟩,
  ⟨0x210, 0x10, 0x20, 1, 0, 0, 0, 0, 0, 0, 0, 0⟩,
  ⟨0x214, 0x10, 0x20, 1, 0, 0, 0, 0, 0, 0, 0, 0⟩,
  ⟨0x218, 0x10, 0x20, 1, 0, 0, 0, 0, 0, 0, 0, 0⟩,
  ⟨0x21c, 0x10, 0x20, 1, 0, 0, 0, 0, 0, 0, 0, 0⟩]

/-- The tdm register table. -/
def regs_tdm : List RegDesc := [
  ⟨0x100, 1, 0, 1, 0, 0, 0, 0, 0xffffff, 0, 0, 0⟩,
  ⟨0x104, 1, 0, 1, 0, 0, 0, 0, 0x1f, 0, 0, 0⟩,
  ⟨0x108, 1, 0, 1, 0, 0x100bb80, 0, 0, 0xff03ffff, 0, 0, 0⟩,
  ⟨0x10c, 1, 0, 1, 0, 0, 0, 0, 0xffffffff, 0, 0, 0⟩,
  ⟨0x110, 1, 0, 1, 0, 0, 0, 0, 0xffffffff, 0, 0, 0⟩,
  ⟨0x114, 1, 0, 1, 0, 0x64, 0x3ff, 0, 0, 0, 0, 0⟩,
  ⟨0x118, 1, 0, 1, 0, 0, 0, 0, 0, 0, 0, 0⟩,
  ⟨0x11c, 1, 0, 1, 0, 0, 0, 0, 0, 0, 0, 0⟩,
  ⟨0x120, 1, 0, 1, 0, 0, 0, 0, 0, 0, 0, 0⟩,
  ⟨0x124, 1, 0, 1, 0, 0, 0, 0, 0, 0, 0, 0⟩,
  ⟨0x128, 1, 0, 1, 0, 0, 0, 0, 0, 0, 0, 0⟩,
  ⟨0x12c, 1, 0, 1, 0, 0, 0, 0, 0, 0, 0, 0⟩,
  ⟨0x130, 1, 0, 1, 0, 0, 0, 0, 0, 0, 0, 0⟩,
  ⟨0x140, 1, 0, 1, 0, 0, 0, 0, 0xffffffff, 0, 0, 0⟩,
  ⟨0x144, 1, 0, 1, 0, 0, 0, 0, 0xffffffff, 0, 0, 0⟩,
  ⟨0x148, 1, 0, 1, 0, 0xa, 0, 0, 0x1f, 0, 0, 0⟩,
  ⟨0x14c, 1, 0, 1, 0, 0, 0, 0, 0, 0, 0, 0⟩,
  ⟨0x150, 1, 0, 1, 0, 0, 0xffffffff, 0, 0, 0, 0, 0⟩,
  ⟨0x154, 1, 0, 1, 0, 0xffffffff, 0, 0xffffffff, 0, 0, 0, 0⟩,
  ⟨0x158, 1, 0, 1, 0, 0, 0, 0, 0, 0, 0, 0⟩,
  ⟨0x15c, 1, 0, 1, 0, 0, 0, 0, 0, 0, 0, 0⟩,
  ⟨0x160, 1, 0, 1, 0, 0, 0, 0, 0, 0, 0, 0⟩,
  ⟨0x164, 1, 0, 1, 0, 0, 0, 0, 0xffffffff, 0, 0, 0⟩,
  ⟨0x168, 1, 0, 1, 0, 0, 0, 0, 0xffffffff, 0, 0, 0⟩,
  ⟨0x16c, 1, 0, 1, 0, 0, 0, 0, 0xffff, 0, 0, 0⟩,
  ⟨0x170, 1, 0, 1, 0, 0, 0, 0, 0xfffff, 0, 0, 0⟩,
  ⟨0x174, 1, 0, 1, 0, 0, 0, 0, 0x1ff, 0, 0, 0⟩,
  ⟨0x178, 1, 0, 1, 0, 0, 0, 0, 0, 0, 0, 0xffffffff⟩,
  ⟨0x17c, 1, 0, 1, 0, 0, 0, 0, 0, 0, 0, 0xffffffff⟩,
  ⟨0x180, 1, 0, 1, 0, 0, 0, 0, 0, 0, 0, 0xffffffff⟩,
  ⟨0x184, 1, 0, 1, 0, 0, 0, 0, 0, 0, 0, 0xffffffff⟩,
  ⟨0x188, 1, 0, 1, 0, 0, 0, 0, 0, 0, 0, 0xffffffff⟩,
  ⟨0x18c, 1, 0, 1, 0, 0, 0, 0, 0, 0, 0, 0xffffffff⟩]

/-- The mac register table. -/
def regs_mac : List RegDesc := [
  ⟨0x100, 1, 0, 1, 0, 0, 0, 0, 0x3ffff, 0, 0, 0⟩,
  ⟨0x104, 1, 0, 1, 0, 0x5f2, 0, 0, 0x3fff, 0, 0, 0⟩,
  ⟨0x108, 1, 0, 1, 0, 0, 0, 0, 0xffffffff, 0, 0, 0⟩,
  ⟨0x10c, 1, 0, 1, 0, 0, 0, 0, 0xffff, 0, 0, 0⟩,
  ⟨0x110, 8, 4, 1, 0, 0, 0, 0, 0x800fffff, 0, 0, 0⟩,
  ⟨0x130, 1, 0, 1, 0, 0, 0, 0, 0xfffff, 0, 0, 0⟩,
  ⟨0x134, 1, 0, 1, 0, 0, 0, 0, 0xfffff, 0, 0, 0⟩,
  ⟨0x138, 1, 0, 1, 0, 0, 0, 0, 0xfffff, 0, 0, 0⟩,
  ⟨0x13c, 1, 0, 1, 0, 0x2710, 0xffffff, 0, 0, 0, 0, 0⟩,
  ⟨0x140, 1, 0, 1, 0, 0xff0a03e8, 0xffffffff, 0, 0, 0, 0, 0⟩,
  ⟨0x144, 1, 0, 1, 0, 0, 0xffffffff, 0, 0, 0, 0, 0⟩,
  ⟨0x148, 1, 0, 1, 0, 0, 0, 0, 0, 0, 0, 0⟩,
  ⟨0x14c, 1, 0, 1, 0, 0, 0, 0, 0, 0, 0, 0xffffffff⟩,
  ⟨0x150, 1, 0, 1, 0, 0, 0, 0, 0, 0, 0, 0xffffffff⟩,
  ⟨0x154, 1, 0, 1, 0, 0, 0, 0, 0, 0, 0, 0xffffffff⟩,
  ⟨0x158, 1, 0, 1, 0, 0, 0, 0, 0, 0, 0, 0xffffffff⟩,
  ⟨0x15c, 1, 0, 1, 0, 0, 0, 0, 0, 0, 0, 0xffffffff⟩,
  ⟨0x160, 1, 0, 1, 0, 0, 0, 0, 0, 0, 0, 0xffffffff⟩,
  ⟨0x164, 1, 0, 1, 0, 0, 0, 0, 0, 0, 0, 0xffffffff⟩,
  ⟨0x168, 1, 0, 1, 0, 0, 0, 0, 0, 0, 0, 0xffffffff⟩,
  ⟨0x16c, 1, 0, 1, 0, 0, 0, 0, 0, 0, 0, 0xffffffff⟩]

/-- The tsn register table. -/
def regs_tsn : List RegDesc := [
  ⟨0x100, 1, 0, 1, 0, 0, 0x1ff, 0, 0, 0, 0, 0⟩,
  ⟨0x104, 1, 0, 1, 0, 0, 0x3ffff, 0, 0, 0, 0, 0⟩,
  ⟨0x108, 1, 0, 1, 0, 0, 0xfffffff, 0, 0, 0, 0, 0⟩,
  ⟨0x10c, 1, 0, 1, 0, 0, 0, 0, 0, 0, 0, 0⟩,
  ⟨0x140, 2, 0x40, 1, 0, 0, 0x1ff01, 0, 0, 0, 0, 0⟩,
  ⟨0x144, 2, 4, 2, 0x40, 0, 0xffffffff, 0, 0, 0, 0, 0⟩,
  ⟨0x14c, 2, 0x40, 1, 0, 0xf4240, 0x3fffffff, 0, 0, 0, 0, 0⟩,
  ⟨0x150, 2, 4, 2, 0x40, 0, 0, 0, 0, 0, 0, 0⟩,
  ⟨0x158, 2, 0x40, 1, 0, 0, 0, 0, 0, 0, 0, 0⟩,
  ⟨0x15c, 2, 0x40, 1, 0, 0, 0, 0, 0, 0, 0, 0⟩,
  ⟨0x160, 2, 4, 2, 0x40, 0, 0xfffffff, 0, 0, 0, 0, 0⟩,
  ⟨0x168, 2, 0x40, 1, 0, 0x28ff, 0x3ffff, 0, 0, 0, 0, 0⟩,
  ⟨0x16c, 2, 0x40, 1, 0, 0, 0, 0, 0, 0, 0, 0xffffffff⟩,
  ⟨0x200, 1, 0, 1, 0, 0, 0xff, 0, 0, 0, 0, 0⟩,
  ⟨0x204, 1, 0, 1, 0, 0, 0, 0, 0, 0, 0, 0⟩,
  ⟨0x208, 1, 0, 1, 0, 0, 0, 0, 0, 0, 0, 0⟩,
  ⟨0x210, 1, 0, 1, 0, 0, 0xf7ffff7, 0, 0, 0, 0, 0⟩,
  ⟨0x214, 1, 0, 1, 0, 0, 0xffffffff, 0, 0, 0, 0, 0⟩,
  ⟨0x218, 1, 0, 1, 0, 0, 0xfffffff, 0, 0, 0, 0, 0⟩,
  ⟨0x21c, 1, 0, 1, 0, 0, 0xff7fff, 0, 0, 0, 0, 0⟩,
  ⟨0x220, 1, 0, 1, 0, 0, 0xfffff, 0, 0, 0, 0, 0⟩,
  ⟨0x224, 1, 0, 1, 0, 0, 0xffffff, 0, 0, 0, 0, 0⟩,
  ⟨0x228, 1, 0, 1, 0, 0, 0xffffffff, 0, 0, 0, 0, 0⟩,
  ⟨0x22c, 1, 0, 1, 0, 0, 0x3ffffff, 0, 0, 0, 0, 0⟩,
  ⟨0x230, 4, 4, 1, 0, 0, 0, 0, 0, 0, 0, 0xffffffff⟩,
  ⟨0x300, 1, 0, 1, 0, 0, 0x7f, 0, 0, 0, 0, 0⟩,
  ⟨0x304, 1, 0, 1, 0, 0, 0, 0, 0, 0, 0, 0⟩,
  ⟨0x310, 1, 0, 1, 0, 0, 0xffffff, 0, 0, 0, 0, 0⟩,
  ⟨0x314, 7, 4, 1, 0, 0, 0, 0, 0, 0, 0, 0⟩,
  ⟨0x400, 1, 0, 1, 0, 0, 0x3fff, 0, 0, 0, 0, 0⟩,
  ⟨0x404, 1, 0, 1, 0, 0, 0, 0, 0, 0, 0, 0⟩,
  ⟨0x408, 1, 0, 1, 0, 0, 0, 0, 0, 0, 0, 0⟩,
  ⟨0x440, 1, 0, 1, 0, 0, 0xff1f, 0, 0, 0, 0, 0⟩,
  ⟨0x444, 1, 0, 1, 0, 0, 0xffffffff, 0, 0, 0, 0, 0⟩,
  ⟨0x448, 1, 0, 1, 0, 0, 0xffff, 0, 0, 0, 0, 0⟩,
  ⟨0x44c, 1, 0, 1, 0, 0, 0xffffffff, 0, 0, 0, 0, 0⟩,
  ⟨0x450, 2, 4, 1, 0, 0, 0xfffff, 0, 0, 0, 0, 0⟩,
  ⟨0x458, 1, 0, 1, 0, 0, 0xffff003f, 0, 0, 0, 0, 0⟩,
  ⟨0x45c, 1, 0, 1, 0, 0, 0, 0, 0, 0, 0, 0⟩,
  ⟨0x460, 0xe, 4, 1, 0, 0, 0xffffffff, 0, 0, 0, 0, 0⟩,
  ⟨0x498, 1, 0, 1, 0, 0, 0xffff, 0, 0, 0, 0, 0⟩,
  ⟨0x49c, 1, 0, 1, 0, 0, 0, 0, 0, 0, 0, 0⟩,
  ⟨0x4a0, 8, 4, 1, 0, 0, 0, 0, 0, 0, 0, 0⟩]

/-- The ptp register table. -/
def regs_ptp : List RegDesc := [
  ⟨0x100, 1, 0, 1, 0, 0, 1, 0, 0xfffffffe, 0, 0, 0⟩,
  ⟨0x104, 1, 0, 1, 0, 0xfd, 0, 0, 0xffffff, 0, 0, 0⟩,
  ⟨0x108, 1, 0, 1, 0, 0x33, 0, 0, 0xff, 0, 0, 0⟩,
  ⟨0x10c, 1, 0, 1, 0, 0x640804, 0x3ff1f1f, 0, 0, 0, 0, 0⟩,
  ⟨0x110, 1, 0, 1, 0, 0x2710, 0xffffffff, 0, 0, 0, 0, 0⟩,
  ⟨0x114, 1, 0, 1, 0, 0xf4240, 0xffffffff, 0, 0, 0, 0, 0⟩,
  ⟨0x118, 1, 0, 1, 0, 0x3e80008, 0xffff00ff, 0, 0, 0, 0, 0⟩,
  ⟨0x11c, 1, 0, 1, 0, 0x100064, 0xffffff, 0, 0, 0, 0, 0⟩,
  ⟨0x120, 1, 0, 1, 0, 0x320, 0xffffffff, 0, 0, 0, 0, 0⟩,
  ⟨0x124, 1, 0, 1, 0, 0, 0, 0, 0, 0, 0, 0⟩,
  ⟨0x128, 2, 4, 1, 0, 0, 0, 0, 0, 0, 0, 0⟩,
  ⟨0x130, 1, 0, 1, 0, 0, 0, 0, 0, 0, 0, 0⟩,
  ⟨0x134, 1, 0, 1, 0, 0, 0, 0, 0, 0, 0, 0⟩,
  ⟨0x138, 1, 0, 1, 0, 0, 0, 0, 0, 0, 0, 0⟩,
  ⟨0x13c, 1, 0, 1, 0, 0, 0, 0, 0, 0, 0, 0⟩,
  ⟨0x140, 4, 4, 1, 0, 0, 0, 0, 0, 0, 0, 0⟩,
  ⟨0x150, 1, 0, 1, 0, 0, 0, 0, 0, 0, 0, 0⟩,
  ⟨0x154, 1, 0, 1, 0, 0, 0, 0, 0, 0, 0, 0xffffffff⟩,
  ⟨0x158, 1, 0, 1, 0, 0, 0, 0, 0, 0, 0, 0xffffffff⟩]

/-- The ctiWin register table. -/
def regs_ctiWin : List RegDesc := [
  ⟨0, 1, 0, 1, 0, 0x10000, 0, 0, 0, 0, 0, 0⟩,
  ⟨4, 1, 0, 1, 0, 0x401fff, 0, 0, 0, 0, 0, 0⟩,
  ⟨8, 1, 0, 1, 0, 0, 1, 0, 0, 0, 0, 0⟩,
  ⟨0xc, 1, 0, 1, 0, 0, 0, 0, 0, 0, 0, 0⟩,
  ⟨0x10, 2, 4, 1, 0, 0, 0, 0, 0xffffffff, 0, 0, 0⟩,
  ⟨0x18, 2, 4, 1, 0, 0, 0, 0, 0xffffffff, 0, 0, 0⟩,
  ⟨0x20, 1, 0, 1, 0, 0, 0, 0, 0xfff0fff, 0, 0, 0⟩,
  ⟨0x24, 1, 0, 1, 0, 0, 0, 0, 0xff, 0, 0, 0⟩,
  ⟨0x1000, 0x100, 8, 1, 0, 0, 0, 0, 0, 0, 0, 0⟩,
  ⟨0x1004, 0x100, 8, 1, 0, 0, 0, 0, 0, 0, 0, 0⟩]

/-- The nvmh register table. -/
def regs_nvmh : List RegDesc := [
  ⟨0x100, 1, 0, 1, 0, 0x16, 1, 0, 0x1e, 0, 0, 0⟩,
  ⟨0x104, 1, 0, 1, 0, 0x1f4, 0xffff, 0, 0, 0, 0, 0⟩,
  ⟨0x108, 1, 0, 1, 0, 0, 0, 0, 0, 0, 0, 0⟩,
  ⟨0x10c, 1, 0, 1, 0, 0, 0, 0, 0, 0, 0, 0⟩,
  ⟨0x110, 2, 4, 1, 0, 0, 0, 0, 0, 0, 0, 0⟩,
  ⟨0x118, 1, 0, 1, 0, 0, 0, 0, 0, 0, 0, 0⟩,
  ⟨0x11c, 1, 0, 1, 0, 0, 0, 0, 0, 0, 0, 0xffffffff⟩,
  ⟨0x120, 1, 0, 1, 0, 0, 0, 0, 0, 0, 0, 0xffffffff⟩,
  ⟨0x124, 1, 0, 1, 0, 0, 0, 0, 0, 0, 0, 0xffffffff⟩,
  ⟨0x128, 1, 0, 1, 0, 0, 0, 0, 0, 0, 0, 0xffffffff⟩,
  ⟨0x12c, 1, 0, 1, 0, 0, 0, 0, 0, 0, 0, 0⟩]

/-- The cti register table. -/
def regs_cti : List RegDesc := [
  ⟨0x100, 1, 0, 1, 0, 0, 0, 0, 0, 0, 0, 0⟩,
  ⟨0x104, 2, 4, 1, 0, 0, 0, 0, 0xffffffff, 0, 0, 0⟩,
  ⟨0x10c, 1, 0, 1, 0, 0, 0, 0, 0x1fff, 0, 0, 0⟩,
  ⟨0x110, 1, 0, 1, 0, 0x64, 0xffff, 0, 0, 0, 0, 0⟩,
  ⟨0x114, 1, 0, 1, 0, 1, 0x7f, 0, 0, 0, 0, 0⟩,
  ⟨0x118, 1, 0, 1, 0, 0, 0, 0, 0, 0, 0, 0⟩,
  ⟨0x11c, 1, 0, 1, 0, 0, 0, 0, 0, 0, 0, 0⟩,
  ⟨0x120, 1, 0, 1, 0, 0, 0xffff, 0, 0, 0, 0, 0⟩,
  ⟨0x124, 4, 4, 1, 0, 0, 0xffffffff, 0, 0, 0, 0, 0⟩,
  ⟨0x134, 3, 4, 1, 0, 0, 0, 0, 0, 0, 0, 0⟩,
  ⟨0x140, 1, 0, 1, 0, 0, 0, 0, 0, 0, 0, 0⟩,
  ⟨0x144, 1, 0, 1, 0, 0, 0x3fff, 0, 0, 0, 0, 0⟩,
  ⟨0x148, 1, 0, 1, 0, 0, 0, 0, 0, 0, 0, 0⟩,
  ⟨0x14c, 1, 0, 1, 0, 0, 0, 0, 0, 0, 0, 0⟩,
  ⟨0x150, 1, 0, 1, 0, 0, 0x3ff, 0, 0, 0, 0, 0⟩,
  ⟨0x154, 2, 4, 1, 0, 0, 0xfffff, 0, 0, 0, 0, 0⟩,
  ⟨0x15c, 4, 4, 1, 0, 0, 0xffffffff, 0, 0, 0, 0, 0⟩,
  ⟨0x16c, 1, 0, 1, 0, 0, 0x1ff, 0, 0, 0, 0, 0⟩,
  ⟨0x170, 1, 0, 1, 0, 0, 0, 0, 0, 0, 0, 0⟩,
  ⟨0x174, 1, 0, 1, 0, 0, 0, 0, 0, 0, 0, 0xffffffff⟩,
  ⟨0x178, 1, 0, 1, 0, 0, 0, 0, 0, 0, 0, 0xffffffff⟩,
  ⟨0x17c, 1, 0, 1, 0, 0, 0, 0, 0, 0, 0, 0xffffffff⟩,
  ⟨0x180, 1, 0, 1, 0, 0, 0, 0, 0, 0, 0, 0xffffffff⟩,
  ⟨0x184, 1, 0, 1, 0, 0, 0, 0, 0, 0, 0, 0⟩]

/-- The qm0 register table. -/
def regs_qm0 : List RegDesc := [
  ⟨0x100, 1, 0, 1, 0, 0, 0xfffff, 0, 0, 0, 0, 0⟩,
  ⟨0x104, 1, 0, 1, 0, 0, 0, 0, 0, 0, 0, 0⟩,
  ⟨0x108, 1, 0, 1, 0, 0, 0, 0, 0, 0, 0, 0⟩,
  ⟨0x10c, 1, 0, 1, 0, 0, 0, 0, 0xffffffff, 0, 0, 0⟩,
  ⟨0x110, 1, 0, 1, 0, 0, 0, 0, 0xffffffff, 0, 0, 0⟩,
  ⟨0x114, 1, 0, 1, 0, 0, 0, 0, 0xfffff, 0, 0, 0⟩,
  ⟨0x118, 1, 0, 1, 0, 3, 0xf, 0, 0, 0, 0, 0⟩,
  ⟨0x11c, 1, 0, 1, 0, 0, 0, 0, 0, 0, 0, 0⟩,
  ⟨0x120, 1, 0, 1, 0, 0, 0, 0, 0, 0, 0, 0xffffffff⟩,
  ⟨0x124, 1, 0, 1, 0, 0, 0, 0, 0, 0, 0, 0xffffffff⟩,
  ⟨0x128, 1, 0, 1, 0, 0, 0, 0, 0, 0, 0, 0xffffffff⟩,
  ⟨0x12c, 1, 0, 1, 0, 0, 0, 0, 0, 0, 0, 0xffffffff⟩,
  ⟨0x140, 1, 0, 1, 0, 0, 0xffffffff, 0, 0, 0, 0, 0⟩,
  ⟨0x144, 1, 0, 1, 0, 0, 0x1fffff, 0, 0, 0, 0, 0⟩,
  ⟨0x148, 2, 4, 1, 0, 0, 0xfffff, 0, 0, 0, 0, 0⟩,
  ⟨0x150, 1, 0, 1, 0, 0, 0x1ff1f, 0, 0, 0, 0, 0⟩,
  ⟨0x154, 1, 0, 1, 0, 0, 0xffff, 0, 0, 0, 0, 0⟩,
  ⟨0x158, 1, 0, 1, 0, 0, 0xffffffff, 0, 0, 0, 0, 0⟩,
  ⟨0x15c, 1, 0, 1, 0, 0, 0xfffff, 0, 0, 0, 0, 0⟩]

/-- The qm1 register table. -/
def regs_qm1 : List RegDesc := [
  ⟨0x100, 8, 4, 8, 0x80, 0, 0xffffffff, 0, 0, 0, 0, 0⟩,
  ⟨0x120, 8, 0x80, 1, 0, 0, 0, 0, 0, 0, 0, 0⟩,
  ⟨0x124, 8, 0x80, 1, 0, 0, 0, 0, 0, 0, 0, 0⟩,
  ⟨0x128, 8, 0x80, 1, 0, 0, 0, 0, 0, 0, 0, 0⟩,
  ⟨0x12c, 8, 0x80, 1, 0, 0, 0xfffff, 0, 0, 0, 0, 0⟩,
  ⟨0x130, 8, 0x80, 1, 0, 0, 0, 0, 0, 0, 0, 0⟩,
  ⟨0x140, 8, 4, 8, 0x80, 0, 0, 0, 0, 0, 0, 0⟩]

/-- The qm2 register table. -/
def regs_qm2 : List RegDesc := [
  ⟨0x100, 1, 0, 1, 0, 0, 0, 0, 0, 0, 0, 0⟩,
  ⟨0x104, 1, 0, 1, 0, 0, 0, 0, 0, 0, 0, 0xffffffff⟩,
  ⟨0x108, 1, 0, 1, 0, 0, 0, 0, 0, 0, 0, 0xffffffff⟩,
  ⟨0x10c, 1, 0, 1, 0, 0, 0x3ff, 0, 0, 0, 0, 0⟩,
  ⟨0x110, 1, 0, 1, 0, 0, 0, 0, 0, 0, 0, 0⟩,
  ⟨0x114, 1, 0, 1, 0, 0, 0, 0, 0, 0, 0, 0⟩,
  ⟨0x118, 1, 0, 1, 0, 0, 0, 0, 0, 0, 0, 0⟩,
  ⟨0x11c, 1, 0, 1, 0, 0, 0, 0, 0, 0, 0, 0xffffffff⟩]

/-- The qm3 register table. -/
def regs_qm3 : List RegDesc := [
  ⟨0x100, 1, 0, 1, 0, 0, 0x3fff, 0, 0, 0, 0, 0⟩,
  ⟨0x104, 1, 0, 1, 0, 0, 0, 0, 0, 0, 0, 0⟩,
  ⟨0x108, 1, 0, 1, 0, 0x4000, 0, 0, 0, 0, 0, 0⟩,
  ⟨0x10c, 1, 0, 1, 0, 0, 0, 0, 0, 0, 0, 0xffffffff⟩,
  ⟨0x140, 0x20, 4, 1, 0, 0, 0, 0, 0, 0, 0, 0⟩]

/-- The dram register table. -/
def regs_dram : List RegDesc := [
  ⟨0x100, 1, 0, 1, 0, 0, 0, 0, 0, 0, 0, 0⟩,
  ⟨0x104, 1, 0, 1, 0, 0x81000, 0, 0, 0xffff01, 0, 0, 0⟩,
  ⟨0x108, 1, 0, 1, 0, 0, 0, 0, 0xffffffff, 0, 0, 0⟩,
  ⟨0x10c, 1, 0, 1, 0, 0, 0, 0, 0xffffffff, 0, 0, 0⟩,
  ⟨0x110, 1, 0, 1, 0, 0, 0, 0, 0xffffffff, 0, 0, 0⟩,
  ⟨0x114, 1, 0, 1, 0, 0, 0, 0, 0, 0, 0, 0⟩,
  ⟨0x118, 1, 0, 1, 0, 0, 0, 0, 0, 0, 0, 0⟩,
  ⟨0x11c, 1, 0, 1, 0, 0, 0, 0, 0, 0, 0, 0⟩,
  ⟨0x120, 1, 0, 1, 0, 0, 0, 0, 0, 0, 0, 0xffffffff⟩,
  ⟨0x124, 1, 0, 1, 0, 0x11000, 0x1ffff, 0, 0, 0, 0, 0⟩,
  ⟨0x128, 1, 0, 1, 0, 0, 0, 0, 0, 0, 0, 0xffffffff⟩,
  ⟨0x12c, 1, 0, 1, 0, 0, 0, 0, 0, 0, 0, 0⟩,
  ⟨0x130, 1, 0, 1, 0, 0, 0, 0, 0, 0, 0, 0⟩,
  ⟨0x134, 1, 0, 1, 0, 0, 0, 0, 0, 0, 0, 0xffffffff⟩,
  ⟨0x138, 1, 0, 1, 0, 0, 0, 0, 0, 0, 0, 0xffffffff⟩,
  ⟨0x13c, 1, 0, 1, 0, 0, 0, 0, 0, 0, 0, 0⟩,
  ⟨0x140, 1, 0, 1, 0, 0, 0, 0, 0, 0, 0, 0⟩,
  ⟨0x144, 1, 0, 1, 0, 0, 0, 0, 0, 0, 0, 0⟩,
  ⟨0x200, 0x40, 4, 1, 0, 0, 0, 0, 0, 0, 0, 0⟩]

/-- The dramcom register table. -/
def regs_dramcom : List RegDesc := [
  ⟨0x100, 1, 0, 1, 0, 0x73, 0, 0, 0x7f, 0, 0, 0⟩,
  ⟨0x104, 1, 0, 1, 0, 0, 0, 0, 0, 0, 0, 0⟩,
  ⟨0x108, 1, 0, 1, 0, 0, 0, 0, 0, 0, 0, 0⟩,
  ⟨0x10c, 4, 4, 1, 0, 0, 0, 0, 0xffffffff, 0, 0, 0⟩,
  ⟨0x120, 0x10, 4, 1, 0, 0x5028, 0xffff, 0, 0, 0, 0, 0⟩,
  ⟨0x160, 1, 0, 1, 0, 0x1012c, 0x1ffff, 0, 0, 0, 0, 0⟩]

/-- The dramguard register table. -/
def regs_dramguard : List RegDesc := [
  ⟨0x100, 1, 0, 1, 0, 0x40, 0x7f, 0, 0, 0, 0, 0⟩,
  ⟨0x104, 1, 0, 1, 0, 0, 0, 0, 0, 0, 0, 0⟩,
  ⟨0x108, 1, 0, 1, 0, 0, 0, 0, 0, 0, 0, 0⟩,
  ⟨0x110, 2, 4, 1, 0, 0, 0xffffffff, 0, 0, 0, 0, 0⟩,
  ⟨0x118, 2, 4, 1, 0, 0, 0xffffffff, 0, 0, 0, 0, 0⟩,
  ⟨0x120, 1, 0, 1, 0, 0, 0x83ff0001, 0, 0, 0, 0, 0⟩,
  ⟨0x140, 1, 0, 1, 0, 0, 0, 0, 0, 0, 0, 0xffffffff⟩,
  ⟨0x144, 1, 0, 1, 0, 0, 0, 0, 0, 0, 0, 0⟩,
  ⟨0x180, 0x10, 0x10, 1, 0, 0, 0, 0, 0, 0, 0, 0⟩,
  ⟨0x184, 2, 4, 0x10, 0x10, 0, 0, 0, 0, 0, 0, 0⟩,
  ⟨0x18c, 0x10, 0x10, 1, 0, 0, 0, 0, 0, 0, 0, 0⟩]

/-- The evf0 register table. -/
def regs_evf0 : List RegDesc := [
  ⟨0x100, 1, 0, 1, 0, 0, 0, 0, 0, 0, 0, 0⟩,
  ⟨0x104, 1, 0, 1, 0, 0, 0, 0, 0, 0, 0, 0⟩,
  ⟨0x108, 1, 0, 1, 0, 0, 0, 0, 0, 0, 0, 0⟩,
  ⟨0x140, 8, 4, 1, 0, 0, 0, 0, 0, 0xffffffff, 0, 0⟩,
  ⟨0x160, 8, 4, 1, 0, 0, 0, 0, 0, 0xffffffff, 0, 0⟩,
  ⟨0x180, 8, 4, 1, 0, 0, 0, 0, 0, 0xffffffff, 0, 0⟩,
  ⟨0x800, 0x80, 0x10, 1, 0, 0, 0x3fffffff, 0, 0, 0, 0, 0⟩,
  ⟨0x804, 0x80, 0x10, 1, 0, 0, 0, 0, 0, 0, 0, 0⟩,
  ⟨0x808, 0x80, 0x10, 1, 0, 0, 0, 0, 0, 0, 0, 0xffffffff⟩,
  ⟨0x80c, 0x80, 0x10, 1, 0, 0, 0, 0, 0, 0, 0, 0xffffffff⟩]

/-- The evf1 register table. -/
def regs_evf1 : List RegDesc := [
  ⟨0x100, 0x20, 4, 1, 0, 0, 0xffffff07, 0, 0, 0, 0, 0⟩,
  ⟨0x180, 1, 0, 1, 0, 0, 0, 0, 0, 0, 0, 0⟩]

/-- The cocoon register table. -/
def regs_cocoon : List RegDesc := [
  ⟨0x100, 1, 0, 1, 0, 0, 0, 0, 0, 0, 0, 0⟩,
  ⟨0x104, 1, 0, 1, 0, 0, 0x3fffff, 0, 0, 0, 0, 0⟩,
  ⟨0x108, 1, 0, 1, 0, 0, 0, 0, 0, 0, 0, 0⟩,
  ⟨0x10c, 1, 0, 1, 0, 0, 0, 0, 0, 0, 0, 0⟩,
  ⟨0x110, 1, 0, 1, 0, 0, 0, 0, 0, 0, 0, 0⟩,
  ⟨0x114, 1, 0, 1, 0, 0, 0x3fffff, 0, 0, 0, 0, 0⟩,
  ⟨0x118, 1, 0, 1, 0, 0, 0xffff, 0, 0, 0, 0, 0⟩,
  ⟨0x11c, 1, 0, 1, 0, 0, 0x1ffff, 0, 0, 0, 0, 0⟩,
  ⟨0x120, 2, 4, 1, 0, 0, 0xffffffff, 0, 0, 0, 0, 0⟩,
  ⟨0x128, 1, 0, 1, 0, 0, 0, 0, 0, 0, 0, 0⟩,
  ⟨0x12c, 1, 0, 1, 0, 0, 0, 0, 0, 0, 0, 0⟩,
  ⟨0x130, 1, 0, 1, 0, 0, 0, 0, 0, 0, 0, 0⟩,
  ⟨0x134, 1, 0, 1, 0, 0, 0, 0, 0, 0, 0, 0⟩,
  ⟨0x138, 1, 0, 1, 0, 0, 0, 0, 0, 0, 0, 0xffffffff⟩,
  ⟨0x13c, 1, 0, 1, 0, 0, 0, 0, 0, 0, 0, 0⟩,
  ⟨0x140, 1, 0, 1, 0, 0, 0, 0, 0, 0, 0, 0⟩]

/-- The silk register table. -/
def regs_silk : List RegDesc := [
  ⟨0x100, 1, 0, 1, 0, 0, 0, 0, 0, 0, 0, 0⟩,
  ⟨0x104, 1, 0, 1, 0, 0, 0, 0, 0, 0, 0, 0⟩,
  ⟨0x108, 1, 0, 1, 0, 0, 0, 0, 0, 0, 0, 0xffffffff⟩,
  ⟨0x10c, 1, 0, 1, 0, 0xf000, 0xffff, 0, 0, 0, 0, 0⟩,
  ⟨0x110, 3, 4, 1, 0, 0, 0xffffffff, 0, 0, 0, 0, 0⟩,
  ⟨0x11c, 1, 0, 1, 0, 0, 0, 0, 0, 0, 0, 0⟩,
  ⟨0x120, 2, 4, 1, 0, 0, 0, 0, 0xffffffff, 0, 0, 0⟩,
  ⟨0x128, 1, 0, 1, 0, 0xc, 0x100, 0, 0x1f, 0, 0, 0⟩,
  ⟨0x12c, 1, 0, 1, 0, 0, 0, 0, 0, 0, 0, 0⟩,
  ⟨0x130, 1, 0, 1, 0, 0xf0001, 0xfffff, 0, 0, 0, 0, 0⟩,
  ⟨0x134, 1, 0, 1, 0, 0, 0, 0, 0, 0, 0, 0⟩,
  ⟨0x138, 1, 0, 1, 0, 0, 0, 0, 0, 0, 0, 0⟩,
  ⟨0x13c, 1, 0, 1, 0, 0, 0xffffffff, 0, 0, 0, 0, 0⟩]

/-- The warden register table. -/
def regs_warden : List RegDesc := [
  ⟨0x100, 1, 0, 1, 0, 0x4021, 0xfff1, 0, 0, 0, 0, 0⟩,
  ⟨0x104, 1, 0, 1, 0, 0x132, 0x1ff, 0, 0, 0, 0, 0⟩,
  ⟨0x108, 1, 0, 1, 0, 0, 0, 0, 0, 0, 0, 0⟩,
  ⟨0x10c, 1, 0, 1, 0, 0xe10, 0xffff, 0, 0, 0, 0, 0⟩,
  ⟨0x110, 1, 0, 1, 0, 0, 0, 0, 0, 0, 0, 0⟩,
  ⟨0x114, 1, 0, 1, 0, 0x10, 0, 0, 0, 0, 0, 0⟩,
  ⟨0x118, 1, 0, 1, 0, 0, 0, 0, 0, 0, 0, 0⟩,
  ⟨0x11c, 1, 0, 1, 0, 0, 0, 0, 0, 0, 0, 0⟩,
  ⟨0x120, 1, 0, 1, 0, 0, 0xfffff, 0, 0, 0, 0, 0⟩,
  ⟨0x124, 1, 0, 1, 0, 0, 0, 0, 0, 0, 0, 0xffffffff⟩,
  ⟨0x140, 8, 4, 1, 0, 0, 0, 0, 0, 0, 0, 0⟩]

/-- The faultagg register table. -/
def regs_faultagg : List RegDesc := [
  ⟨0x100, 0x20, 4, 1, 0, 0, 0, 0, 0, 0xffffffff, 0, 0⟩,
  ⟨0x180, 0x40, 4, 1, 0, 0x55555555, 0xffffffff, 0, 0, 0, 0, 0⟩,
  ⟨0x280, 1, 0, 1, 0, 0, 0, 0, 0, 0, 0, 0⟩,
  ⟨0x284, 1, 0, 1, 0, 0, 0, 0, 0, 0, 0, 0xffffffff⟩,
  ⟨0x288, 1, 0, 1, 0, 0, 0, 0, 0, 0, 0, 0xffffffff⟩]

/-- The svc register table. -/
def regs_svc : List RegDesc := [
  ⟨0x100, 1, 0, 1, 0, 0, 0, 0, 0, 0, 0, 0⟩,
  ⟨0x104, 1, 0, 1, 0, 0, 0, 0, 0, 0, 0, 0⟩,
  ⟨0x108, 1, 0, 1, 0, 0, 7, 0, 0, 0, 0, 0⟩,
  ⟨0x10c, 2, 4, 1, 0, 0, 0xffffffff, 0, 0, 0, 0, 0⟩,
  ⟨0x114, 1, 0, 1, 0, 0, 0, 0, 0, 0, 0, 0xffffffff⟩]

/-- The safety register table. -/
def regs_safety : List RegDesc := [
  ⟨0x100, 1, 0, 1, 0, 0, 0, 0, 0, 0, 0, 0⟩,
  ⟨0x104, 1, 0, 1, 0, 0x400, 0, 0, 0, 0, 0, 0⟩,
  ⟨0x108, 1, 0, 1, 0, 0x7ff, 0x7ff, 0, 0, 0, 0, 0⟩,
  ⟨0x10c, 1, 0, 1, 0, 0, 0, 0, 0, 0, 0, 0⟩,
  ⟨0x110, 1, 0, 1, 0, 0, 1, 0, 0, 0, 0, 0⟩,
  ⟨0x114, 1, 0, 1, 0, 1, 0, 0, 0, 0, 0, 0⟩,
  ⟨0x118, 1, 0, 1, 0, 0x6405, 0, 0, 0xffff, 0, 0, 0⟩,
  ⟨0x11c, 1, 0, 1, 0, 0, 0, 0, 0, 0, 0, 0⟩,
  ⟨0x120, 1, 0, 1, 0, 0, 0, 0, 0, 0, 0, 0⟩,
  ⟨0x124, 1, 0, 1, 0, 0, 0, 0, 0, 0, 0, 0⟩,
  ⟨0x128, 1, 0, 1, 0, 0, 0, 0, 0, 0, 0, 0⟩,
  ⟨0x12c, 1, 0, 1, 0, 0, 0, 0, 0, 0, 0, 0⟩,
  ⟨0x130, 1, 0, 1, 0, 0, 0, 0, 0, 0, 0, 0⟩,
  ⟨0x134, 1, 0, 1, 0, 0, 1, 0, 0, 0, 0, 0⟩,
  ⟨0x138, 1, 0, 1, 0, 0, 0, 0, 0, 0, 0, 0⟩,
  ⟨0x13c, 1, 0, 1, 0, 0, 0, 0, 0, 0, 0, 0xffffffff⟩,
  ⟨0x140, 1, 0, 1, 0, 0, 0, 0, 0, 0, 0, 0⟩,
  ⟨0x144, 1, 0, 1, 0, 0, 0, 0, 0, 0, 0, 0⟩,
  ⟨0x148, 1, 0, 1, 0, 0, 0xff, 0, 0, 0, 0, 0⟩,
  ⟨0x14c, 1, 0, 1, 0, 0, 0xffffffff, 0, 0, 0, 0, 0⟩,
  ⟨0x150, 1, 0, 1, 0, 0, 0, 0, 0, 0, 0, 0⟩,
  ⟨0x154, 1, 0, 1, 0, 0, 0, 0, 0, 0, 0, 0⟩,
  ⟨0x200, 8, 0x10, 1, 0, 0x4000010, 1, 0, 0xfffff1e, 0, 0, 0⟩,
  ⟨0x204, 8, 0x10, 1, 0, 0, 0, 0, 0, 0, 0, 0⟩,
  ⟨0x208, 8, 0x10, 1, 0, 0, 0, 0, 0, 0, 0, 0⟩,
  ⟨0x400, 0x40, 4, 1, 0, 0, 0x3ffffc, 0, 0, 0, 0, 0⟩]

/-- The global register table. -/
def regs_global : List RegDesc := [
  ⟨0x100, 1, 0, 1, 0, 0xa17256, 0, 0, 0, 0, 0, 0⟩,
  ⟨0x104, 1, 0, 1, 0, 0, 0, 0, 0, 0, 0, 0⟩,
  ⟨0x108, 1, 0, 1, 0, 0, 0, 0, 0, 0, 0, 0⟩,
  ⟨0x10c, 1, 0, 1, 0, 0, 0, 0, 0, 0, 0, 0⟩,
  ⟨0x110, 1, 0, 1, 0, 0, 0, 0, 0, 0, 0, 0⟩,
  ⟨0x114, 1, 0, 1, 0, 0, 0, 0, 0, 0, 0, 0⟩,
  ⟨0x118, 1, 0, 1, 0, 0, 0, 0, 0, 0, 0, 0⟩,
  ⟨0x800, 0x200, 4, 1, 0, 0, 0xffffffff, 0, 0, 0, 0, 0⟩,
  ⟨0x200, 1, 0, 1, 0, 0, 3, 0, 0, 0, 0, 0⟩,
  ⟨0x204, 1, 0, 1, 0, 0, 0, 0, 0, 0, 0, 0⟩,
  ⟨0x208, 1, 0, 1, 0, 0, 0, 0, 0, 0, 0, 0⟩]

/-- The clocks register table. -/
def regs_clocks : List RegDesc := [
  ⟨0x100, 1, 0, 1, 0, 0, 0, 0, 0, 0, 0, 0⟩,
  ⟨0x104, 1, 0, 1, 0, 0, 0, 0, 0, 0, 0, 0⟩,
  ⟨0x108, 1, 0, 1, 0, 0, 0, 0, 0, 0, 0, 0⟩,
  ⟨0x10c, 1, 0, 1, 0, 0, 0, 0, 0, 0, 0, 0⟩,
  ⟨0x110, 1, 0, 1, 0, 0, 0, 0, 0, 0, 0, 0⟩,
  ⟨0x114, 1, 0, 1, 0, 0, 0, 0, 0, 0, 0, 0xffffffff⟩,
  ⟨0x120, 0x10, 4, 1, 0, 0, 0, 0, 0, 0, 0, 0⟩]

/-- The boot register table. -/
def regs_boot : List RegDesc := [
  ⟨0x100, 1, 0, 1, 0, 0, 0, 0, 0, 0, 0, 0⟩,
  ⟨0x104, 1, 0, 1, 0, 0, 0, 0, 0, 0, 0, 0⟩,
  ⟨0x108, 1, 0, 1, 0, 0, 0, 0, 0, 0, 0, 0⟩,
  ⟨0x10c, 1, 0, 1, 0, 0, 0, 0, 0, 0, 0, 0⟩,
  ⟨0x110, 1, 0, 1, 0, 0, 0, 0, 0, 0, 0, 0⟩,
  ⟨0x114, 1, 0, 1, 0, 0, 0, 0, 0, 0, 0, 0⟩,
  ⟨0x118, 2, 4, 1, 0, 0, 0xffffffff, 0, 0, 0, 0, 0⟩,
  ⟨0x120, 1, 0, 1, 0, 0, 0, 0, 0, 0, 0, 0⟩,
  ⟨0x124, 1, 0, 1, 0, 0, 0, 0, 0, 0, 0, 0⟩,
  ⟨0x128, 2, 4, 1, 0, 0, 0, 0, 0, 0, 0, 0⟩,
  ⟨0x130, 1, 0, 1, 0, 0, 0xffffffff, 0, 0, 0, 0, 0⟩,
  ⟨0x134, 2, 4, 1, 0, 0, 0xffffffff, 0, 0, 0, 0, 0⟩,
  ⟨0x13c, 1, 0, 1, 0, 0, 0, 0, 0, 0, 0, 0⟩,
  ⟨0x140, 1, 0, 1, 0, 0, 0, 0, 0, 0, 0, 0⟩]

/-- The pwr0 register table. -/
def regs_pwr0 : List RegDesc := [
  ⟨0x100, 4, 4, 1, 0, 0, 0xffffffff, 0, 0, 0, 0, 0⟩,
  ⟨0x110, 4, 4, 1, 0, 0, 0, 0, 0, 0, 0, 0⟩,
  ⟨0x120, 1, 0, 1, 0, 0, 0, 0, 0, 0, 0, 0⟩]

/-- The pwr1 register table. -/
def regs_pwr1 : List RegDesc := [
  ⟨0x100, 1, 0, 1, 0, 0, 0, 0, 0, 0, 0, 0⟩,
  ⟨0x104, 1, 0, 1, 0, 0, 0, 0, 0, 0, 0, 0⟩,
  ⟨0x108, 8, 4, 1, 0, 0, 0xffffffff, 0, 0, 0, 0, 0⟩,
  ⟨0x128, 1, 0, 1, 0, 0, 3, 0, 0, 0, 0, 0⟩,
  ⟨0x12c, 1, 0, 1, 0, 0, 0, 0, 0, 0, 0, 0⟩]

/-- The pwr2 register table. -/
def regs_pwr2 : List RegDesc := [
  ⟨0x100, 7, 4, 1, 0, 0, 0xffffffff, 0, 0, 0, 0, 0⟩,
  ⟨0x120, 3, 4, 1, 0, 0, 0xffff, 0, 0, 0, 0, 0⟩,
  ⟨0x130, 8, 4, 1, 0, 0, 0, 0, 0, 0, 0, 0⟩,
  ⟨0x150, 1, 0, 1, 0, 0, 0, 0, 0, 0, 0, 0xffffffff⟩]

/-- The pwr3 register table. -/
def regs_pwr3 : List RegDesc := [
  ⟨0x100, 0xe, 4, 1, 0, 0, 0, 0, 0, 0, 0, 0⟩]

/-- The therm0 register table. -/
def regs_therm0 : List RegDesc := [
  ⟨0x100, 1, 0, 1, 0, 0x100369, 0xffffff, 0, 0, 0, 0, 0⟩,
  ⟨0x104, 1, 0, 1, 0, 0x10036e, 0xffffff, 0, 0, 0, 0, 0⟩,
  ⟨0x108, 1, 0, 1, 0, 0x1410037d, 0xffffffff, 0, 0, 0, 0, 0⟩,
  ⟨0x10c, 1, 0, 1, 0, 5, 0xff, 0, 0, 0, 0, 0⟩,
  ⟨0x110, 8, 4, 1, 0, 0, 0, 0, 0, 0, 0, 0⟩,
  ⟨0x130, 8, 4, 1, 0, 0, 0, 0, 0, 0, 0, 0⟩,
  ⟨0x150, 8, 4, 1, 0, 0, 0, 0, 0, 0, 0, 0xffffffff⟩,
  ⟨0x170, 1, 0, 1, 0, 0, 0, 0, 0, 0, 0, 0⟩]

/-- The therm1 register table. -/
def regs_therm1 : List RegDesc := [
  ⟨0x100, 0x20, 4, 1, 0, 0, 0, 0, 0, 0, 0, 0⟩,
  ⟨0x180, 8, 4, 1, 0, 0, 0, 0, 0, 0, 0, 0⟩,
  ⟨0x1a0, 1, 0, 1, 0, 0, 0, 0, 0, 0, 0, 0⟩]

/-- The hdr register table. -/
def regs_hdr : List RegDesc := [
  ⟨0, 1, 0, 1, 0, 0, 0, 0, 0, 0, 0, 0⟩,
  ⟨4, 1, 0, 1, 0, 0, 0, 0, 0, 0, 0, 0⟩,
  ⟨8, 1, 0, 1, 0, 1, 9, 0, 0, 0, 0, 0⟩,
  ⟨0xc, 1, 0, 1, 0, 0, 0, 0, 0, 0, 0, 0⟩,
  ⟨0x10, 1, 0, 1, 0, 0, 0, 0, 0, 0xffffffff, 0, 0⟩,
  ⟨0x14, 1, 0, 1, 0, 0, 0xffffffff, 0, 0, 0, 0, 0⟩,
  ⟨0x18, 1, 0, 1, 0, 0, 0xffffffff, 0, 0, 0, 0, 0⟩,
  ⟨0x1c, 1, 0, 1, 0, 0, 0, 0, 0, 0, 0, 0⟩,
  ⟨0x20, 1, 0, 1, 0, 0, 0, 0, 0, 0xffffffff, 0, 0⟩,
  ⟨0x24, 1, 0, 1, 0, 0, 0xffffffff, 0, 0, 0, 0, 0⟩,
  ⟨0x28, 4, 4, 1, 0, 0, 0x1ff, 0, 0, 0, 0, 0⟩,
  ⟨0x38, 4, 4, 1, 0, 0, 0x1ff, 0, 0, 0, 0, 0⟩,
  ⟨0x48, 1, 0, 1, 0, 0, 0xfff000e, 0, 0, 0, 0, 0⟩,
  ⟨0x4c, 1, 0, 1, 0, 0, 0, 0, 0, 0, 0, 0⟩]

/-- The maint register table. -/
def regs_maint : List RegDesc := [
  ⟨0x100, 1, 0, 1, 0, 5, 7, 0, 0, 0, 0, 0⟩,
  ⟨0x104, 1, 0, 1, 0, 0, 0, 0, 0, 0, 0, 0⟩,
  ⟨0x108, 1, 0, 1, 0, 0, 0, 0, 0, 0, 0, 0xffffffff⟩,
  ⟨0x10c, 1, 0, 1, 0, 0, 0, 0, 0, 0, 0, 0⟩,
  ⟨0x110, 8, 4, 1, 0, 0, 0xffffffff, 0, 0, 0, 0, 0⟩,
  ⟨0x130, 1, 0, 1, 0, 0, 0, 0, 0, 0, 1, 0⟩]

end Sys2Proof.Machine
end

