-- ==== Sys2Proof/Machine/Operands.lean ====
section
/-!
DEFINITION. The operand forms of a register access: pages, page kinds, the register a page and offset name, its
access masks and reset value (R597, R599, *Page index*), and what each kind of page implements (PG_CAP, fault and
interrupt bits, event ports).
-/

namespace Sys2Proof.Machine

/-- The kinds of register page of *Page index* (R597), the CTI host window of BAR2 (R619) as a kind of its own. -/
inductive PageKind where
  | global | clocks | boot | maint
  | pwr0 | pwr1 | pwr2 | pwr3
  | therm0 | therm1
  | timebase | dist | phase | lineview
  | cue | evf0 | evf1
  | cocoon | silk | warden | faultagg | safety
  | dram | dramcom | dramguard
  | qm0 | qm1 | qm2 | qm3
  | sens | swift | dlk | intake
  | pipeCtl | pipeStage | pipeMatrix | pipeLut | pipeBranch | pipeStats | pipeFocus | pipeSpare
  | clus | eng | henc | dec | xs
  | disp | eye | tdm | mac | tsn | ptp
  | nvmh | cti | svc
  | ctiWin
  | none
deriving DecidableEq, Repr

def pGLOBAL : Nat := 0x000
def pCLOCKS : Nat := 0x001
def pBOOT : Nat := 0x002
def pMAINT : Nat := 0x003
def pPWR (i : Nat) : Nat := 0x010 + i
def pTHERM (i : Nat) : Nat := 0x018 + i
def pTIMEBASE : Nat := 0x020
def pDIST : Nat := 0x021
def pPHASE : Nat := 0x022
def pLINEVIEW : Nat := 0x023
def pCUE (i : Nat) : Nat := 0x028 + i
def pEVF (i : Nat) : Nat := 0x030 + i
def pCOCOON : Nat := 0x038
def pSILK : Nat := 0x039
def pWARDEN : Nat := 0x03A
def pFAULTAGG : Nat := 0x03B
def pSAFETY : Nat := 0x03C
def pDRAM (n : Nat) : Nat := 0x040 + n
def pDRAMCOM : Nat := 0x050
def pDRAMGUARD : Nat := 0x051
def pQM (i : Nat) : Nat := 0x058 + i
def pSENS (n : Nat) : Nat := 0x060 + n
def pSWIFT (n : Nat) : Nat := 0x0A0 + n
def pDLK (n : Nat) : Nat := 0x160 + n
def pINTAKE : Nat := 0x170
/-- Page +`o` of raw pipe `n`. -/
def pPIPE (n o : Nat) : Nat := 0x180 + 16 * n + o
def pCLUS (k : Nat) : Nat := 0x200 + k
def pENG (p : Nat) : Nat := 0x240 + p
def pHENC (n : Nat) : Nat := 0x360 + n
def pDEC (n : Nat) : Nat := 0x368 + n
def pXS (n : Nat) : Nat := 0x370 + n
def pDISP (n : Nat) : Nat := 0x380 + n
def pEYE (n : Nat) : Nat := 0x388 + n
def pTDM (n : Nat) : Nat := 0x390 + n
def pMAC (n : Nat) : Nat := 0x3B0 + n
def pTSN (k : Nat) : Nat := 0x3C0 + k
def pPTP : Nat := 0x3C8
def pNVMH (k : Nat) : Nat := 0x3D0 + k
def pCTI : Nat := 0x3D8
def pSVC (n : Nat) : Nat := 0x3E0 + n
/-- The first of the sixteen key pages that hold the BAR2 window of the CTI; no page of *Page index*. -/
def pWIN : Nat := 0x400

/-- The kind of a page (*Page index*; `none` is a page the index does not list, R599). -/
def pageKind (p : Nat) : PageKind :=
  if p < 0x060 then
    match p with
    | 0x000 => .global | 0x001 => .clocks | 0x002 => .boot | 0x003 => .maint
    | 0x010 => .pwr0 | 0x011 => .pwr1 | 0x012 => .pwr2 | 0x013 => .pwr3
    | 0x018 => .therm0 | 0x019 => .therm1
    | 0x020 => .timebase | 0x021 => .dist | 0x022 => .phase | 0x023 => .lineview
    | 0x030 => .evf0 | 0x031 => .evf1
    | 0x038 => .cocoon | 0x039 => .silk | 0x03A => .warden | 0x03B => .faultagg | 0x03C => .safety
    | 0x050 => .dramcom | 0x051 => .dramguard
    | 0x058 => .qm0 | 0x059 => .qm1 | 0x05A => .qm2 | 0x05B => .qm3
    | _ => if 0x028 ≤ p ∧ p ≤ 0x02F then .cue else if 0x040 ≤ p ∧ p ≤ 0x04F then .dram else .none
  else if p < 0x0A0 then .sens
  else if p < 0x160 then .swift
  else if p < 0x170 then .dlk
  else if p = 0x170 then .intake
  else if p < 0x180 then .none
  else if p < 0x200 then
    match p % 16 with
    | 0 => .pipeCtl
    | 7 => .pipeMatrix
    | 8 => .pipeLut
    | 13 => .pipeStats
    | 14 => .pipeFocus
    | 15 => .pipeSpare
    | o => if o ≤ 6 then .pipeStage else .pipeBranch
  else if p < 0x222 then .clus
  else if p < 0x240 then .none
  else if p < 0x350 then .eng
  else if p < 0x360 then .none
  else if p < 0x366 then .henc
  else if p < 0x368 then .none
  else if p < 0x370 then .dec
  else if p < 0x372 then .xs
  else if p < 0x380 then .none
  else if p < 0x388 then .disp
  else if p < 0x390 then .eye
  else if p < 0x3B0 then .tdm
  else if p < 0x3C0 then .mac
  else if p < 0x3C8 then .tsn
  else if p = 0x3C8 then .ptp
  else if p < 0x3D0 then .none
  else if p < 0x3D8 then .nvmh
  else if p = 0x3D8 then .cti
  else if p < 0x3E0 then .none
  else if p < 0x3E8 then .svc
  else if p < 0x400 then .none
  else if p < 0x410 then .ctiWin
  else .none

/-- Block type of a page's PG_ID (*Page index*). -/
def blockType (p : Nat) : Nat :=
  match pageKind p with
  | .global | .clocks | .boot | .maint => 0x01
  | .pwr0 | .pwr1 | .pwr2 | .pwr3 => 0x02
  | .therm0 | .therm1 => 0x03
  | .timebase | .dist | .phase | .lineview => 0x04
  | .cue => 0x05
  | .evf0 | .evf1 => 0x06
  | .cocoon => 0x07 | .silk => 0x08 | .warden => 0x09 | .faultagg => 0x0A | .safety => 0x0B
  | .dram | .dramcom | .dramguard => 0x10
  | .qm0 | .qm1 | .qm2 | .qm3 => 0x11
  | .sens => 0x20 | .swift => 0x21 | .dlk => 0x22 | .intake => 0x23
  | .pipeCtl | .pipeStage | .pipeMatrix | .pipeLut | .pipeBranch | .pipeStats | .pipeFocus | .pipeSpare => 0x30
  | .clus => 0x38 | .eng => 0x39 | .henc => 0x40 | .dec => 0x41 | .xs => 0x42
  | .disp => 0x48 | .eye => 0x49 | .tdm => 0x50 | .mac => 0x58 | .tsn => 0x59 | .ptp => 0x5A
  | .nvmh => 0x60 | .cti => 0x61 | .svc => 0x68
  | .ctiWin | .none => 0

/-- Instance of a page's PG_ID: the last column of *Page index*. -/
def instanceOf (p : Nat) : Nat :=
  match pageKind p with
  | .clocks => 1 | .boot => 2 | .maint => 3
  | .pwr0 | .pwr1 | .pwr2 | .pwr3 => p - 0x010
  | .therm0 | .therm1 => p - 0x018
  | .timebase | .dist | .phase | .lineview => p - 0x020
  | .cue => p - 0x028
  | .evf0 | .evf1 => p - 0x030
  | .dram => p - 0x040 | .dramcom => 16 | .dramguard => 17
  | .qm0 | .qm1 | .qm2 | .qm3 => p - 0x058
  | .sens => p - 0x060 | .swift => p - 0x0A0 | .dlk => p - 0x160
  | .pipeCtl | .pipeStage | .pipeMatrix | .pipeLut | .pipeBranch | .pipeStats | .pipeFocus | .pipeSpare => p - 0x180
  | .clus => p - 0x200 | .eng => (p - 0x240) % 256
  | .henc => p - 0x360 | .dec => p - 0x368 | .xs => p - 0x370
  | .disp => p - 0x380 | .eye => p - 0x388 | .tdm => p - 0x390
  | .mac => p - 0x3B0 | .tsn => p - 0x3C0 | .nvmh => p - 0x3D0 | .svc => p - 0x3E0
  | _ => 0

/-- The domain number of PG_CAP (R564): a switched domain, 0x7E main region, 0x7F always-on island (R533). LINEVIEW,
DIST, PHASE, CUE, SWIFT and the rest follow *Domain numbers*; the blocks that neither table places (DIST, PHASE, CUE,
GLOBAL, CLOCKS, BOOT) follow notes/assumptions/12.md. -/
def domainOf (p : Nat) : Nat :=
  match pageKind p with
  | .global | .clocks | .boot | .maint => 0x7F
  | .pwr0 | .pwr1 | .pwr2 | .pwr3 | .therm0 | .therm1 => 0x7F
  | .timebase | .dist | .phase | .cue => 0x7F
  | .evf0 | .evf1 | .cocoon | .silk | .warden | .faultagg | .safety => 0x7F
  | .clus => p - 0x200
  | .eng => (p - 0x240) / 8
  | .pipeCtl | .pipeStage | .pipeMatrix | .pipeLut | .pipeBranch | .pipeStats | .pipeFocus | .pipeSpare =>
    34 + (p - 0x180) / 16
  | .henc => 42 + (p - 0x360)
  | .dec => 48 + (p - 0x368)
  | .xs => 56 + (p - 0x370)
  | .disp => 58 + (p - 0x380)
  | .eye => 58 + (p - 0x388)
  | .swift => 66 + (p - 0x0A0) / 6
  | .dram => 98 + (p - 0x040) / 2
  | .svc => 106 + (p - 0x3E0) / 2
  | .tdm => 110
  | .nvmh | .cti => 111
  | _ => 0x7E

/-- The always-on pages of R533. -/
def alwaysOnPage (p : Nat) : Bool :=
  match pageKind p with
  | .maint | .pwr0 | .pwr1 | .pwr2 | .pwr3 | .therm0 | .therm1 | .timebase | .evf0 | .evf1
  | .cocoon | .silk | .warden | .faultagg | .safety => true
  | _ => false

/-- Pages that R486, R491, R563 and R595 make unfenceable. -/
def fenceable (p : Nat) : Bool :=
  match pageKind p with
  | .evf0 | .evf1 | .cocoon | .silk | .warden | .faultagg | .safety
  | .pwr0 | .pwr1 | .pwr2 | .pwr3 | .therm0 | .therm1 => false
  | _ => true

/-- Implemented bits of PG_FAULT: the common bits 0 to 3 and the block bits each chapter lists. -/
def faultMask (p : Nat) : Nat :=
  0xF + match pageKind p with
  | .global => 0x1F00
  | .clocks => 0x300
  | .boot => 0x1F00
  | .maint => 0x700
  | .pwr0 => 0x100 | .pwr1 => 0x600
  | .therm0 => 0x3F00
  | .timebase => 0xF00
  | .dist => 0x3F00
  | .phase => 0x700
  | .lineview => 0xF00
  | .cue => 0x700
  | .evf0 => 0x700 | .evf1 => 0x400
  | .cocoon => 0x3F00
  | .silk => 0xF00
  | .warden => 0x1FF00
  | .safety => 0xFF00
  | .dram => 0x1FF00
  | .dramcom => 0xF00
  | .dramguard => 0x300
  | .qm0 => 0x3FF00
  | .sens => 0x3F00
  | .swift => 0x100
  | .dlk => 0xFF00
  | .intake => 0x1F00
  | .pipeCtl => 0x3FF00
  | .pipeStage => if p % 16 = 3 then 0x700 else 0x300
  | .pipeMatrix => 0x300
  | .pipeLut => 0x700
  | .pipeBranch => 0x3F00
  | .pipeStats => 0xF00
  | .pipeFocus => 0x200
  | .clus => 0x1F00
  | .eng => 0xFF00
  | .henc => 0xFF00
  | .dec => 0x7F00
  | .xs => 0x7500
  | .disp => 0x3FF00
  | .eye => 0x1F00
  | .tdm => 0x3FF00
  | .mac => 0xFF00
  | .tsn => 0x1FF00
  | .ptp => 0x3F00
  | .nvmh => 0xFF00
  | .cti => 0x3FF00
  | .svc => 0xF00
  | _ => 0

/-- Implemented bits of PG_INT_STAT: bit 31 FAULT on every page (R607) and the bits each chapter lists. -/
def intMask (p : Nat) : Nat :=
  2 ^ 31 + match pageKind p with
  | .cue => 7
  | .evf0 => 7
  | .eng => 3
  | .faultagg => 3
  | .maint => 1
  | _ => 0

/-- PG_CAP.EVT_OUT: event outputs that carry an event (*Event producers and consumers*). -/
def evtOutCap (p : Nat) : Nat :=
  match pageKind p with
  | .timebase | .dist | .phase => 7
  | .lineview => 15
  | .sens | .dlk | .intake => 7
  | .pipeCtl => 15
  | .pipeBranch => 3
  | .pipeStats => 15
  | .pipeFocus => 1
  | .eng => 15
  | .clus => 7
  | .henc | .dec | .xs => 7
  | .disp => 15
  | .eye => 7
  | .tdm => 15
  | .mac | .tsn | .ptp => 7
  | .nvmh => 3
  | .cti => 15
  | .qm0 => 7
  | .dram => 7
  | .dramcom | .dramguard => 1
  | .evf0 => 1
  | .cocoon => 3
  | .silk => 1
  | .warden => 7
  | .faultagg => 7
  | .safety => 7
  | .svc => 1
  | .pwr1 => 3
  | .therm0 => 7
  | .maint => 3
  | _ => 0

/-- PG_CAP.EVT_IN: event inputs with a task. -/
def evtInCap (p : Nat) : Nat :=
  match pageKind p with
  | .timebase => 1
  | .dlk | .eng | .henc => 15
  | _ => 0

/-- The register tables of a page, without the common header. -/
def regTable (p : Nat) : List RegDesc :=
  match pageKind p with
  | .global => regs_global | .clocks => regs_clocks | .boot => regs_boot | .maint => regs_maint
  | .pwr0 => regs_pwr0 | .pwr1 => regs_pwr1 | .pwr2 => regs_pwr2 | .pwr3 => regs_pwr3
  | .therm0 => regs_therm0 | .therm1 => regs_therm1
  | .timebase => regs_timebase | .dist => regs_dist | .phase => regs_phase | .lineview => regs_lineview
  | .cue => if p = pCUE 0 then regs_cue else regs_cue.filter (fun r => r.off < 0x200)
  | .evf0 => regs_evf0
  | .evf1 => regs_evf1 ++ regs_evf0.filter (fun r => 0x800 ≤ r.off)
  | .cocoon => regs_cocoon | .silk => regs_silk | .warden => regs_warden | .faultagg => regs_faultagg
  | .safety => regs_safety
  | .dram => regs_dram | .dramcom => regs_dramcom | .dramguard => regs_dramguard
  | .qm0 => regs_qm0 | .qm1 => regs_qm1 | .qm2 => regs_qm2 | .qm3 => regs_qm3
  | .sens => if p % 2 = 0 then regs_sens else regs_sens.filter (fun r => r.off < 0x400)
  | .swift => regs_swift | .dlk => regs_dlk | .intake => regs_intake
  | .pipeCtl => regs_pipeCtl | .pipeStage => regs_pipeStage
  | .pipeMatrix => regs_pipeStage ++ regs_pipeMatrix
  | .pipeLut => regs_pipeStage ++ regs_pipeLut
  | .pipeBranch => regs_pipeBranch | .pipeStats => regs_pipeStats | .pipeFocus => regs_pipeFocus
  | .pipeSpare => []
  | .clus => regs_clus | .eng => regs_eng | .henc => regs_henc | .dec => regs_dec | .xs => regs_xs
  | .disp => regs_disp | .eye => regs_eye | .tdm => regs_tdm | .mac => regs_mac
  | .tsn => if p = pTSN 0 then regs_tsn else regs_tsn.filter (fun r => r.off < 0x400)
  | .ptp => regs_ptp
  | .nvmh => regs_nvmh | .cti => regs_cti | .svc => regs_svc
  | .ctiWin => regs_ctiWin
  | .none => []

/-- Does offset `o` fall on a register of row `r`? -/
def RegDesc.has (r : RegDesc) (o : Nat) : Bool :=
  (List.range r.n2).any fun j =>
    let b := r.off + r.stride2 * j
    decide (b ≤ o) && (if r.n ≤ 1 then o == b else (o - b) % r.stride == 0 && decide ((o - b) / r.stride < r.n))

/-- The table row of a page's offset: header rows below 0x100 (0x050 to 0x0FF define nothing, R599), block rows
from 0x100. Pages outside *Page index* define nothing. -/
def regDesc (p o : Nat) : Option RegDesc :=
  match pageKind p with
  | .none => none
  | .ctiWin => regs_ctiWin.find? (fun r => r.has (4096 * (p - pWIN) + o))
  | _ => if o < 0x100 then regs_hdr.find? (fun r => r.has o) else (regTable p).find? (fun r => r.has o)

/-- PG_ID of a page (R597). -/
def pgId (p : Nat) : Word := wd (blockType p * 65536 + instanceOf p * 256 + 1)

/-- Pages with at least one register field of the access code that `sel` selects. -/
def hasMask (p : Nat) (sel : RegDesc → Nat) : Bool := (regTable p).any (fun r => sel r != 0)

/-- Blocks whose chapter names SECDED memories of their own with a CNT_SRAM, CNT_DMEM, CNT_IMEM, SHM_CNT or CNT_ECC
counter (R496, R497, R561). -/
def secdedPage (p : Nat) : Bool :=
  match pageKind p with
  | .pipeCtl | .pipeStage | .pipeMatrix | .pipeLut | .pipeBranch | .pipeStats | .pipeFocus
  | .clus | .eng | .henc | .dec | .xs | .disp | .tdm | .mac | .nvmh | .cti | .qm0 | .qm1 | .qm2 | .qm3
  | .cocoon | .dram => true
  | _ => false

/-- PG_CAP of a page (*PG_CAP fields*). -/
def pgCap (p : Nat) : Word :=
  wd ((secdedPage p).toNat + (fenceable p).toNat * 2 + (alwaysOnPage p).toNat * 4
    + (hasMask p (·.rws)).toNat * 8 + (hasMask p (·.rwi)).toNat * 16
    + evtOutCap p * 2 ^ 8 + evtInCap p * 2 ^ 12 + domainOf p * 2 ^ 16)

/-- Reset value of the register at a page and offset, from the register tables; the rows whose reset depends on the
page or the index are computed (LANE_CFG and the like are 0). -/
def resetAt (p o : Nat) : Word :=
  match pageKind p, o with
  | .none, _ => 0
  | .ctiWin, _ => wd (((regDesc p o).map (·.reset)).getD 0)
  | _, 0x000 => pgId p
  | _, 0x004 => pgCap p
  | .disp, 0x008 => 0
  | _, 0x014 => wd (faultMask p)
  | k, _ =>
    match k with
    | .lineview => if 0x400 ≤ o ∧ o ≤ 0x4FC ∧ o % 4 = 0 then wd ((o - 0x400) / 4) else dflt
    | .clus =>
      if p < 0x220 ∧ 0x100 ≤ o ∧ o ≤ 0x11C ∧ o % 4 = 0 then wd (0x8000 + 8 * (p - 0x200) + (o - 0x100) / 4)
      else if 0x220 ≤ p ∧ o = Off.clus_SPARES then wd 0xFF else dflt
    | .tdm => if o = Off.tdm_CFG then wd (p - 0x390) else dflt
    | .dramcom => if 0x10C ≤ o ∧ o ≤ 0x118 ∧ o % 4 = 0 then wd (0x1111 * 2 ^ ((o - 0x10C) / 4)) else dflt
    | .svc => if o = Off.svc_STANDIN then wd ((p - 0x3E0 + 1) % 8) else dflt
    | .pwr2 =>
      match o with
      | 0x100 => wd 0xFFFFFFFF | 0x104 => wd 0xFFFFFFFF | 0x108 => wd 0xAAA5555F | 0x10C => wd 0x000AAAAA
      | 0x120 => wd 0x3205 | 0x124 => wd 0x4B0A | 0x128 => wd 0x5A14
      | _ => dflt
    | _ => dflt
where
  /-- The reset column of the register tables. -/
  dflt : Word := wd (((regDesc p o).map (·.reset)).getD 0)

/-- The key of a register in the model's register file. -/
def rg (p o : Nat) : Nat := p * 4096 + o

/-- Reset value of the register with a key. -/
def resetKey (k : Nat) : Word := resetAt (k / 4096) (k % 4096)

/-- The pages of the block a page belongs to (R178, R282, R473, R486, R490): a raw pipe's sixteen pages, an engine
cluster with its engines, the four QM pages, the two EVF pages; any other page is a block of its own. -/
def blockPages (p : Nat) : List Nat :=
  match pageKind p with
  | .qm0 | .qm1 | .qm2 | .qm3 => [0x058, 0x059, 0x05A, 0x05B]
  | .evf0 | .evf1 => [0x030, 0x031]
  | .pipeCtl | .pipeStage | .pipeMatrix | .pipeLut | .pipeBranch | .pipeStats | .pipeFocus | .pipeSpare =>
    (List.range 16).map (fun o => 0x180 + 16 * ((p - 0x180) / 16) + o)
  | _ => [p]

/-- The page on which the faults, fencing and events of a block are reported (R473). -/
def faultPage (p : Nat) : Nat :=
  match pageKind p with
  | .qm1 | .qm2 | .qm3 => 0x058
  | _ => p

end Sys2Proof.Machine
end

