-- ==== Sys2Proof/Machine/Flags.lean ====
section
/-!
DEFINITION. Registers as the blocks themselves read and write them, status and fault bits, counters, events,
interrupt lines and fences.
-/

namespace Sys2Proof.Machine

open Sys2Proof

/-! ## Registers -/

/-- The live value of the register at page `p`, offset `o`. -/
def State.reg (s : State) (p o : Nat) : Word := Map.get resetKey s.regs (rg p o)

/-- Set a register. -/
def State.setReg (s : State) (p o : Nat) (v : Word) : State := s.onRegs fun m => Map.put resetKey m (rg p o) v

/-- A field of a register. -/
def State.fld (s : State) (p o lo n : Nat) : Nat := wfld (s.reg p o) lo n

/-- Set a field of a register. -/
def State.setFld (s : State) (p o lo n v : Nat) : State := s.setReg p o (wset (s.reg p o) lo n v)

/-- A bit of a register. -/
def State.bit (s : State) (p o i : Nat) : Bool := bitAt (s.reg p o) i

/-- Set a bit of a register. -/
def State.putBit (s : State) (p o i : Nat) (b : Bool) : State := s.setReg p o (setBit (s.reg p o) i b)

/-- Count `k` in a saturating field of a register. -/
def State.count (s : State) (p o lo n k : Nat) : State := s.setReg p o (satAdd (s.reg p o) lo n k)

/-- Count `k` in a wrapping field of a register. -/
def State.countWrap (s : State) (p o lo n k : Nat) : State := s.setReg p o (wrapAdd (s.reg p o) lo n k)

/-- A 64-bit value of two registers, low word first. -/
def State.reg64 (s : State) (p lo hi : Nat) : Nat := (s.reg p lo).toNat + 2 ^ 32 * (s.reg p hi).toNat

/-- Set a 64-bit value in two registers, low word first. -/
def State.setReg64 (s : State) (p lo hi v : Nat) : State := (s.setReg p lo (wd v)).setReg p hi (wd (v / 2 ^ 32))

/-- The words of `n` registers from an offset on. -/
def State.regs32 (s : State) (p o n : Nat) : Words := (List.range n).map fun i => s.reg p (o + 4 * i)

/-- Set consecutive registers. -/
def State.setRegs32 (s : State) (p o : Nat) : Words → State
  | [] => s
  | w :: ws => (s.setReg p o w).setRegs32 p (o + 4) ws

/-- A value the spec does not state (Config.freeWord), and the state in which it is drawn. -/
def State.drawWord (s : State) : Word × State := (Config.freeWord s.free, s.onFree (· + 1))

/-- A natural number the spec does not state, and the state in which it is drawn. -/
def State.drawNat (s : State) : Nat × State := (Config.freeNat s.free, s.onFree (· + 1))

/-- `n` bytes the spec does not state, and the state in which they are drawn. -/
def State.drawBytes (s : State) (n : Nat) : List Byte × State :=
  ((List.range n).map (Config.freeByte s.free), s.onFree (· + 1))

/-- TIME in nanoseconds since 0 s (R50, *CUE descriptor words*). -/
def State.timeNs (s : State) : Nat := s.tb.time / 2 ^ 16

/-- What the model keeps of a page. -/
def State.pageRt (s : State) (p : Nat) : PageRt := Map.get (fun _ => {}) s.pg p

/-- Update what the model keeps of a page. -/
def State.modPage (s : State) (p : Nat) (f : PageRt → PageRt) : State :=
  s.onPg fun m => Map.put (fun _ => {}) m p (f (Map.get (fun _ => {}) m p))

/-- Does the command status register at page `p`, offset `o`, show BUSY (R75, R446)? -/
def State.cmdBusy (s : State) (p o : Nat) : Bool := decide (s.now < Map.get (fun _ => 0) (s.pageRt p).cmds o)

/-- The command status register at page `p`, offset `o`, shows BUSY for `n` ticks from now on. -/
def State.cmdStart (s : State) (p o n : Nat) : State :=
  s.modPage p fun r => { r with cmds := Map.put (fun _ => 0) r.cmds o (s.now + n) }

/-! ## Power and fences -/

/-- The main region is powered from start-up step 3 on, in ACTIVE and STANDBY (R564, R571, R591). -/
def State.mainOn (s : State) : Bool :=
  decide (3 ≤ s.power.steps) && decide (s.fld (pPWR 1) Off.pwr1_STATE 0 2 < 2)

/-- DOM_STAT of a switched domain (R565). -/
def State.domOn (s : State) (d : Nat) : Bool := s.bit (pPWR 0) (Off.pwr0_DOM_STAT0 + 4 * (d / 32)) (d % 32)

/-- The page's domain is powered and ready (PG_STAT.DOMAIN_ON). -/
def State.powered (s : State) (p : Nat) : Bool :=
  let d := domainOf p
  if d = 0x7F then true else if d = 0x7E then s.mainOn else s.domOn d

/-- PG_STAT.FENCED of a page (R490). -/
def State.fenced (s : State) (p : Nat) : Bool := s.bit p Off.hdr_PG_STAT 1

/-- The block runs: its domain is on and it is not fenced. -/
def State.alive (s : State) (p : Nat) : Bool := s.powered p && !s.fenced p

/-! ## Events -/

/-- A channel of the event fabric. -/
def State.chan (s : State) (c : Nat) : Channel := Map.get (fun _ => {}) s.evf.ch c

/-- Update a channel. -/
def State.modChan (s : State) (c : Nat) (f : Channel → Channel) : State :=
  s.onEvf fun e => { e with ch := Map.put (fun _ => {}) e.ch c (f (Map.get (fun _ => {}) e.ch c)) }

/-- Has a thing that comes every `n` ticks its turn, `last` being the tick of the one before? -/
def dueAgain (last : Option Nat) (n now : Nat) : Bool :=
  match last with
  | some t => decide (t + n ≤ now)
  | none => true

/-- An event port, CH_CFG or CH_BIND as it acts in this tick: a write acts from the next tick (R484, R611). -/
def State.evReg (s : State) (p o : Nat) : Word :=
  match Map.get (fun _ => none) s.evf.prev (rg p o) with
  | some (t, w) => if s.now ≤ t then w else s.reg p o
  | none => s.reg p o

/-- Keep what an event port, CH_CFG or CH_BIND holds in this tick before a write of it. -/
def State.evMark (s : State) (p o : Nat) : State :=
  s.onEvf fun e => { e with prev := Map.put (fun _ => none) e.prev (rg p o) (some (s.now, s.evReg p o)) }

/-- Write an event port or CH_BIND: the value acts from the next tick (R484, R611). -/
def State.evPut (s : State) (p o : Nat) (v : Word) : State := (s.evMark p o).setReg p o v

/-- Put a tick in its place among ticks in ascending order. -/
def insertTick (l : List Nat) (t : Nat) : List Nat := l.takeWhile (· ≤ t) ++ t :: l.dropWhile (· ≤ t)

/-- One assertion of a channel in tick `t` (R477, R478); EVENT_DELIVER delivers it. -/
def State.assertAt (s : State) (c t : Nat) : State := s.modChan c fun h => { h with pend := insertTick h.pend t }

/-- One assertion of a channel in this tick. -/
def State.assertCh (s : State) (c : Nat) : State := s.assertAt c s.now

/-- Event output `k` of a page: it drives its channel while the port is enabled, and the event fabric ignores the
outputs of a fenced or unpowered page (R46, R485, *Event port fields*). -/
def State.produce (s : State) (p k : Nat) : State :=
  let w := s.evReg p (Off.hdr_PG_EVT_OUT0 + 4 * k)
  if s.alive p && bitAt w 8 then s.assertCh (wfld w 0 8) else s

/-- A per-object channel field of an object on page `p`: an event on channel `c` when `en`. -/
def State.produceOn (s : State) (p c : Nat) (en : Bool) : State := if s.alive p && en then s.assertCh c else s

/-! ## Fences and faults -/

/-- The pages a fence of `p` fences with it: its block, and the blocks that it contains (R178, R282, R377, R473,
R490), each with the cause its FENCED record names. -/
def State.fenceGroup (s : State) (p : Nat) : List (List Nat) :=
  blockPages p ::
    (match pageKind p with
     | .clus => (List.range 8).map fun i => [pENG (8 * (p - 0x200) + i)]
     | .tdm => ((List.range 32).filter fun m => pTDM m != p && s.fld (pTDM m) Off.tdm_CFG 0 5 == p - 0x390).map
         fun m => [pTDM m]
     | _ => [])

/-- Mark pages fenced in this tick and discard their pending commits (R49, R490, R609). -/
def State.markFenced (s : State) : List Nat → State
  | [] => s
  | p :: ps => (((s.putBit p Off.hdr_PG_STAT 1 true).setFld p Off.hdr_PG_SHADOW 8 1 0).modPage p fun r =>
      { r with fencedAt := s.now }).markFenced ps

/-- Fence the blocks of a list, the first with cause `c`, the contained ones with cause 2 (R490, R495). -/
def State.fenceAll (s : State) (c b : Nat) : List (List Nat) → State
  | [] => s
  | ps :: rest =>
    let s1 := if ps.any (fun p => s.fenced p) then s
      else (s.markFenced ps).onDep fun d => { d with fences := d.fences ++ [{ page := ps.headD 0, cause := c, bit := b }] }
    s1.fenceAll 2 b rest

/-- Fence the block of page `p` in this tick (R490): cause 0 register, 1 fault bit, 2 containing block, 3 Moult. The
pages of R486, R491, R563 and R595 cannot be fenced. -/
def State.fence (s : State) (p c b : Nat) : State :=
  if fenceable p then s.fenceAll c b (s.fenceGroup p) else s

/-- Note that hardware sets PG_FAULT bits `f` (of which `again` stood at 1) and PG_INT_STAT bits `i` of a page in this tick
(R605). -/
def State.noteHw (s : State) (p f again i : Nat) : State :=
  s.modPage p fun r =>
    let same := decide (r.hwAt = s.now)
    { r with hwAt := s.now, hwFault := if same then Nat.lor r.hwFault f else f,
             hwAgain := if same then Nat.lor r.hwAgain again else again, hwInt := if same then Nat.lor r.hwInt i else i }

/-- Hardware sets PG_FAULT bit `b` of page `p`. On a change from 0 to 1: with PG_FAULT_EN the page's PG_INT_STAT.FAULT
is set and a report starts for the aggregator (R492, R607); with PG_FAULT_FENCE the block is fenced (R490). -/
def State.raise (s : State) (p0 b : Nat) : State :=
  let p := faultPage p0
  if s.bit p Off.hdr_PG_FAULT b then
    s.noteHw p 0 (if (s.pageRt p).hwAt = s.now ∧ (s.pageRt p).hwFault.testBit b then 0 else 2 ^ b) 0
  else
    let rep := s.bit p Off.hdr_PG_FAULT_EN b
    let s1 := (s.putBit p Off.hdr_PG_FAULT b true).noteHw p (2 ^ b) 0 (if rep then 2 ^ 31 else 0)
    let s2 := if s1.bit p Off.hdr_PG_FAULT_EN b then
        (s1.putBit p Off.hdr_PG_INT_STAT 31 true).onDep fun d =>
          { d with reports := d.reports ++ [(p, s1.reg p Off.hdr_PG_FAULT)] }
      else s1
    if s2.bit p Off.hdr_PG_FAULT_FENCE b then s2.fence p 1 b else s2

/-- STATE_WRITE, PG_FAULT bit 0 (R604). -/
def State.stateWrite (s : State) (p : Nat) : State := s.raise p 0

/-- Set an interrupt bit of a page. -/
def State.setInt (s : State) (p b : Nat) : State := (s.putBit p Off.hdr_PG_INT_STAT b true).noteHw p 0 0 (2 ^ b)

/-- A page's interrupt line: 1 while PG_INT_STAT AND PG_INT_EN is nonzero, held at 0 while the page is fenced or
unpowered (R607). -/
def State.intLine (s : State) (p : Nat) : Bool :=
  s.alive p && (s.reg p Off.hdr_PG_INT_STAT &&& s.reg p Off.hdr_PG_INT_EN) != 0

/-! ## Silk records and Cocoon requests -/

/-- Hand Silk a record (R526): it enters the 64-record input buffer, or is dropped and counted in LOST. -/
def State.silk (s : State) (code p d0 d1 d2 : Nat) : State :=
  if s.dep.silk.buf.length < 64 then
    s.onDep fun d =>
      { d with silk := { d.silk with buf := d.silk.buf ++ [⟨code, p, s.timeNs, d0, d1, d2⟩] } }
  else (s.count pSILK Off.silk_CNT 0 16 1).raise pSILK 8

/-- A generic Silk record of a page: the upper byte is the page's block type (R527). -/
def State.silkOf (s : State) (p code d0 d1 d2 : Nat) : State := s.silk (blockType p * 256 + code) p d0 d1 d2

/-- The request that the writer serves next: the lowest rank, then the oldest (R523). -/
def cocoonNext : List CocoonReq → Option CocoonReq
  | [] => none
  | r :: rest =>
    match cocoonNext rest with
    | none => some r
    | some b => if b.rank < r.rank then some b else some r

/-- The writer begins the request that it serves next, if that has not begun: the copy's TIME (R518). -/
def State.cocoonBegin (s : State) : State :=
  match cocoonNext s.dep.cocoon with
  | none => s
  | some r =>
    if r.begun.isSome then s
    else s.onDep fun d => { d with cocoon := d.cocoon.replace r { r with begun := some s.timeNs } }

/-- Queue a record copy for the Cocoon writer in the order of R523; the power-fail state refuses nothing here. -/
def State.cocoonPut (s : State) (r : CocoonReq) : State :=
  (s.onDep fun d => { d with cocoon := d.cocoon ++ [r] }).cocoonBegin

/-- Request a Silk snapshot with trigger 1 to 5 (R529): triggers 2 to 5 act where AUTO enables them and are skipped
within SNAP_GAP seconds of the previous snapshot or while one is in progress. -/
def State.snapSlot (s : State) (trigger : Nat) : Nat :=
  let keep := if trigger = 6 then 0 else (s.reg pSILK Off.silk_KEEP).toNat
  let ord := fun i => Map.get (fun _ => 0) s.dep.silk.slotOrder i
  let free := (List.range 32).filter fun i => !keep.testBit i
  free.foldl (fun best i => if ord i < ord best then i else best) (free.headD 0)

/-- Start a snapshot: it ends at the record written last (R529). -/
def State.snapStart (s : State) (trigger : Nat) (keep : Bool) : State :=
  let next := (s.reg pSILK Off.silk_SEQ).toNat
  let slot := s.snapSlot trigger
  let n := min next 4096
  (s.putBit pSILK Off.silk_SNAP_STAT 0 true).onDep fun d =>
    { d with silk := { d.silk with
        snap := some { trigger := trigger, slot := slot, time := s.timeNs, firstSeq := next - n, lastSeq := next - 1, keep := keep, start := s.now }, lastSnap := some s.now } }

/-- A snapshot trigger 2 to 5 (R529). -/
def State.snapTrigger (s : State) (trigger : Nat) : State :=
  if !s.bit pSILK Off.silk_SNAP_CFG (16 + (trigger - 2)) then s
  else
    let gap := s.fld pSILK Off.silk_SNAP_CFG 0 16 * 250000000
    let tooSoon := match s.dep.silk.lastSnap with
      | some t => decide (s.now < t + gap)
      | none => false
    if tooSoon || s.dep.silk.snap.isSome then (s.count pSILK Off.silk_CNT 16 16 1).raise pSILK 9
    else s.snapStart trigger false

end Sys2Proof.Machine
end

