-- ==== Sys2Proof/Machine/Ops.lean ====
section
/-!
DEFINITION. The shared operations: the gate every register access passes, plain writes by access code, memory through
the main fabric with guard, poison and range checks, and the queue manager's pushes, takes and holds.
-/

namespace Sys2Proof.Machine

open Sys2Proof

/-- A meaning's result: the next state. -/
abbrev Step := Host.Outcome State Fault Refusal

/-! ## The gate of a register access -/

/-- PG_LOCK.MASTER code of a master (*PG_LOCK fields*). -/
def masterCode : Master → Nat
  | .core _ => 0
  | .host => 1
  | .maint => 2

/-- Logical core of a master for BAD_INFO. -/
def masterCore : Master → Nat
  | .core h => h
  | _ => 0

/-- Record a refused access in BAD_ADDR and BAD_INFO: reason 1 size, 2 hole, 3 timeout, 4 host refused, and set the
GLOBAL fault bit of it (R598, R599, R600, R620). -/
def State.badAccess (s : State) (m : Master) (p o reason : Nat) : State :=
  let s1 := s.setReg pGLOBAL Off.global_BAD_ADDR (wd ((p * 4096 + o) % 2 ^ 22))
  let s2 := s1.setReg pGLOBAL Off.global_BAD_INFO (wd (reason + masterCode m * 8 + masterCore m * 32))
  s2.raise pGLOBAL (8 + reason)

/-- Answer a read. -/
def State.answer (s : State) (v : Word) : State := s.onResp fun _ => { value := v }

/-- Answer a read with an error response: zeros marked as poison (R596). -/
def State.answerErr (s : State) : State := s.onResp fun _ => { value := 0, poison := true, err := true }

/-- The value a fenced, unpowered or silent page reads as: 0xF3C3_0000 + page index (R567, R600, R615). -/
def dummyRead (p : Nat) : Word := wd (0xF3C30000 + p)

/-- May the host write BAR0 now (R620)? Other masters are not asked. -/
def State.hostMayWrite (s : State) : Master → Bool
  | .host => s.bit pGLOBAL Off.global_HOST_CFG 1
  | _ => true

/-- May the host read BAR0 now (R620)? -/
def State.hostMayRead (s : State) : Master → Bool
  | .host => s.bit pGLOBAL Off.global_HOST_CFG 0
  | _ => true

/-- What the gate of a register write answers: the state with every recorded refusal, whether the write reaches the
register, and whether it is the write that an unlock allows (R610). -/
structure Gate where
  st : State
  ok : Bool
  unlocked : Bool

/-- The gate of an aligned 32-bit register write (R567, R599, R602, R615, R620): the host's permission, a page outside
*Page index*, an unpowered page, a fenced page (only SOFT_RST and PG_FAULT clears pass), a page in reset; and the
outstanding unlock, which this master's next write to the page consumes (R610). -/
def State.gateWrite (s : State) (m : Master) (p o : Nat) (softRst : Bool) : Gate :=
  if !s.hostMayWrite m then ⟨s.badAccess m p o 4, false, false⟩
  else if pageKind p = .none then ⟨s.badAccess m p o 2, false, false⟩
  else if !s.powered p then ⟨s, false, false⟩
  else
    let mine := match (s.pageRt p).unlock with
      | some (m', _) => decide (m' = m)
      | none => false
    let s1 := if mine then s.modPage p fun r => { r with unlock := none } else s
    if s.fenced p && !(decide (o = Off.hdr_PG_CTRL) && softRst) && !decide (o = Off.hdr_PG_FAULT) then ⟨s1, false, mine⟩
    else if (s.pageRt p).busy then ⟨s1, false, mine⟩
    else ⟨s1, true, mine⟩

/-- A register write whose effect is `eff`, behind the gate. -/
def State.regWrite (s : State) (m : Master) (p o : Nat) (eff : State → State) : State :=
  let g := s.gateWrite m p o false
  if g.ok then eff g.st else g.st

/-- A command whose status register, at offset `o` of page `p`, shows BUSY for `n` ticks (R75, R446): while it does, a further command is
discarded with STATE_WRITE, as is one whose effect `eff` is none (R613); otherwise the effect stands at once, and BUSY for all of the
time that the rule allows (notes/assumptions/164.md). -/
def State.cmdWrite (s : State) (m : Master) (p o n : Nat) (eff : State → Option State) : State :=
  s.regWrite m p o fun t =>
    if t.cmdBusy p o then t.stateWrite p
    else match eff t with
      | none => t.stateWrite p
      | some u => u.cmdStart p o n

/-- Offsets that read normally on an unpowered page (R567), on a fenced one (R615) and during a reset (R602). -/
def State.readsThrough (s : State) (p o : Nat) : Bool :=
  let hdr := o == Off.hdr_PG_ID || o == Off.hdr_PG_CAP || o == Off.hdr_PG_STAT
  if !s.powered p then hdr
  else if s.fenced p then hdr || o == Off.hdr_PG_CTRL || o == Off.hdr_PG_FAULT
  else if (s.pageRt p).busy then hdr
  else true

/-- A register read whose value and effect are `eff`, behind the gate (R567, R599, R602, R615, R620). -/
def State.regRead (s : State) (m : Master) (p o : Nat) (eff : State → Word × State) : State :=
  if !s.hostMayRead m then (s.badAccess m p o 4).answerErr
  else if pageKind p = .none then (s.badAccess m p o 2).answer 0
  else if s.readsThrough p o then let r := eff s; r.2.answer r.1
  else if !s.powered p || s.fenced p then s.answer (dummyRead p)
  else s.answer 0

/-- Store the plain fields of a write by access code (R17, R608, R612): RW bits take effect, RWS bits go to the shadow
copy, RWI bits are stored while the page is idle and otherwise raise STATE_WRITE when they would change, W1C and W1S
bits clear and set. Bits outside every mask keep their value. -/
def State.storeFields (s : State) (p o : Nat) (idle : Bool) (v : Word) : State :=
  match regDesc p o with
  | none => s
  | some d =>
    let old := s.reg p o
    let rwiChange := (old &&& wd d.rwi) != (v &&& wd d.rwi)
    let w1 := mergeMask d.rw old v
    let w2 := if idle then mergeMask d.rwi w1 v else w1
    let w3 := (w2 &&& ~~~(v &&& wd d.w1c)) ||| (v &&& wd d.w1s)
    let s1 := s.setReg p o w3
    let s2 := if d.rws = 0 then s1
      else s1.onShadow fun h =>
        let cur := (Map.get (fun _ => none) h (rg p o)).getD old
        Map.put (fun _ => none) h (rg p o) (some (mergeMask d.rws cur v))
    if rwiChange && !idle then s2.stateWrite p else s2

/-- The value an RWS register reads: its shadow copy (R608). -/
def State.shadowOf (s : State) (p o : Nat) : Word := (Map.get (fun _ => none) s.shadow (rg p o)).getD (s.reg p o)

/-- Every shadow copy of a page takes effect (R608). -/
def State.applyShadow (s : State) (p : Nat) : State :=
  let mine := s.shadow.filter fun e => e.1 / 4096 = p
  let s1 := mine.foldl (fun t e => match e.2 with
    | some v => t.setReg p (e.1 % 4096) v
    | none => t) s
  s1.onShadow (Map.keep fun k => decide (k / 4096 ≠ p))

/-! ## Memory -/

/-- First address of the DRAM window (R596, R463). -/
def dramBase : Nat := 0x1000000000
/-- First address of the always-on SRAM (R596). -/
def sramBase : Nat := 0x10000000
/-- First byte of the Silk ring (R525). -/
def silkBase : Nat := 0x10060000
/-- First address of the Cocoon read window (R596, R518). -/
def cocoonBase : Nat := 0x60000000
/-- First address of the cluster shared memories (R32, R596). -/
def shmBase : Nat := 0x80000000

/-- Number of populated controllers (DRAMCOM.TOPO.C). -/
def State.controllers (s : State) : Nat := 2 ^ (1 + s.fld pDRAMCOM Off.dramcom_TOPO 0 2)

/-- Raw capacity per controller in bytes (DRAMCOM.TOPO). -/
def State.rawCap (s : State) : Nat := 2 ^ (30 + s.fld pDRAMCOM Off.dramcom_TOPO 5 2)

/-- Bytes of a controller's local space that are mapped: 7/8 of the raw capacity less 1 MiB (R463). -/
def State.ctlBytes (s : State) : Nat := s.rawCap / 8 * 7 - 2 ^ 20

/-- Bytes of the DRAM window (R463). -/
def State.window (s : State) : Nat := s.controllers * s.ctlBytes

/-- Controller of an offset in the DRAM window (R31, R463). -/
def State.ctlOf (s : State) (d : Nat) : Nat :=
  (Nat.xor (Nat.xor (d / 2 ^ 11 % 16) (d / 2 ^ 15 % 16)) (d / 2 ^ 19 % 16)) % s.controllers

/-- Controller-local byte address of an offset in the DRAM window (R463). -/
def State.localOf (s : State) (d : Nat) : Nat :=
  d / (2 ^ 11 * s.controllers) * 2 ^ 11 + d % 2 ^ 11

/-- The bytes an address range holds, whatever their marks. -/
def State.peek (s : State) (a n : Nat) : List Byte := (List.range n).map fun i => Map.get (fun _ => 0) s.mem (a + i)

/-- Store bytes without any check. -/
def State.poke (s : State) (a : Nat) : List Byte → State
  | [] => s
  | b :: bs => (s.onMem fun m => Map.put (fun _ => 0) m a b).poke (a + 1) bs

/-- Is the 64-byte block of an address stored as the poison code (R462)? -/
def State.poisoned (s : State) (a : Nat) : Bool := Map.get (fun _ => false) s.poison (a / 64)

/-- Mark or clear a block. -/
def State.setPoison (s : State) (a : Nat) (b : Bool) : State :=
  s.onPoison fun m => Map.put (fun _ => false) m (a / 64) b

/-- Is any block of a range stored as poison? -/
def State.anyPoison (s : State) (a n : Nat) : Bool :=
  (List.range ((a + n + 63) / 64 - a / 64)).any fun i => s.poisoned (64 * (a / 64 + i))

/-- An address range in the DRAM window (R463). -/
def State.inDram (s : State) (a n : Nat) : Bool := decide (dramBase ≤ a) && decide (a + n ≤ dramBase + s.window)

/-- What answers at an address: DRAM, always-on SRAM, Cocoon window, a cluster's shared memory, or nothing (R596). -/
inductive Target where
  | dram | sram | cocoon | shm (k : Nat) | hole
deriving DecidableEq, Repr

/-- The target of an address. -/
def target (a : Nat) : Target :=
  if dramBase ≤ a then .dram
  else if sramBase ≤ a ∧ a < sramBase + 0x80000 then .sram
  else if cocoonBase ≤ a ∧ a < cocoonBase + 0x800000 then .cocoon
  else if shmBase ≤ a ∧ a < shmBase + 34 * 0x200000 then .shm ((a - shmBase) / 0x200000)
  else .hole

/-- The result of a main-fabric read: bytes, and whether they are poison-marked (R48, R462, R497, R596). -/
structure ReadData where
  bytes : List Byte
  bad : Bool
deriving DecidableEq, Repr

/-- Does every controller that serves a DRAM range answer (R31, R48)? -/
def State.ctlsAlive (s : State) (a n : Nat) : Bool :=
  (List.range ((a + n - 1) / 2 ^ 11 + 1 - a / 2 ^ 11)).all fun i => s.alive (pDRAM (s.ctlOf ((a / 2 ^ 11 + i) * 2 ^ 11 - dramBase)))

/-- A main-fabric read of `n` bytes: poison from a poisoned block, a fenced or unpowered target, DRAM in STANDBY
(R572, PWR1 fault bit 10), an access beyond the window (R463, ADDR_RANGE) or an unmapped address (R596). -/
def State.busRead (s : State) (a n : Nat) : ReadData × State :=
  let zeros := List.replicate n (0 : Byte)
  match target a with
  | .dram =>
    if !s.inDram a n then (⟨zeros, true⟩, (s.raise pDRAMCOM 10).produce pDRAMCOM 0)
    else if s.fld (pPWR 1) Off.pwr1_STATE 0 2 = 1 then (⟨zeros, true⟩, s.raise (pPWR 1) 10)
    else if !s.ctlsAlive a n then (⟨zeros, true⟩, s)
    else if s.anyPoison a n then (⟨zeros, true⟩, s.count (pDRAM (s.ctlOf (a - dramBase))) Off.dram_CNT_POISON 0 32 1)
    else (⟨s.peek a n, false⟩, s)
  | .sram => if s.anyPoison a n then (⟨zeros, true⟩, s) else (⟨s.peek a n, false⟩, s)
  | .cocoon => if s.anyPoison a n then (⟨zeros, true⟩, s) else (⟨s.peek a n, false⟩, s)
  | .shm k =>
    if !s.alive (pCLUS k) || s.anyPoison a n then (⟨zeros, true⟩, s) else (⟨s.peek a n, false⟩, s)
  | .hole => (⟨zeros, true⟩, s)

/-- Guard entry `i` (R471). -/
def State.guard (s : State) (i : Nat) : Guard := Map.get (fun _ => {}) s.dram.guard i

/-- Is master page `mp` exempt from entry `g`: its EXEMPT page, or for a stripe set the same branch page of the
member pipes that follow the lead (R471)? -/
def guardExempt (g : Guard) (mp : Nat) : Bool :=
  g.exemptEn && (List.range (g.exemptSet + 1)).any fun j => mp == g.exempt + 16 * j

/-- The first enabled guard entry that blocks a write of `n` bytes at `a` by master page `mp` (R472). -/
def State.guardHit (s : State) (mp a n : Nat) : Option Nat :=
  (s.dram.guard.find? fun e =>
    e.2.en && decide (e.2.base / 64 ≤ (a + n - 1) / 64) && decide (a / 64 ≤ e.2.limit / 64) && !guardExempt e.2 mp).map
      (·.1)

/-- Log a blocked write (R472): the ring of 16 slots, the count, and the fault of the entry's owner: GUARD_VIOLATION on
the head of a display entry (8 entries a head), or DRAMGUARD fault 8 with PG_EVT_OUT0 for a firmware entry. -/
def State.guardLog (s : State) (i mp a : Nat) : State :=
  let h := s.fld pDRAMGUARD Off.dramguard_VIOL_HEAD 0 4
  let b := 0x10 * h
  let s1 := s.setReg pDRAMGUARD (Off.dramguard_VIOL_WHO + b) (wd (i + mp * 65536))
  let s2 := s1.setReg64 pDRAMGUARD (Off.dramguard_VIOL_ADDR_LO + b) (Off.dramguard_VIOL_ADDR_LO + b + 4) a
  let s3 := s2.setReg pDRAMGUARD (Off.dramguard_VIOL_TIME + b) (wd s.timeNs)
  let s4 := s3.setFld pDRAMGUARD Off.dramguard_VIOL_HEAD 0 4 (h + 1)
  let s5 := s4.count pDRAMGUARD Off.dramguard_VIOL_CNT 0 32 1
  if i < 64 then s5.raise (pDISP (i / 8)) 13 else (s5.raise pDRAMGUARD 8).produce pDRAMGUARD 0

/-- QSTATE_BASE (R444). -/
def State.qsBase (s : State) : Nat := s.reg64 (pQM 0) Off.qm0_QSTATE_LO Off.qm0_QSTATE_HI

/-- Does a range touch the queue-state region (R445)? -/
def State.inQState (s : State) (a n : Nat) : Bool :=
  decide (s.qsBase ≠ 0) && decide (s.qsBase ≤ a + n - 1) && decide (a < s.qsBase + 2 ^ 25)

/-- A write into the verified image's range clears VERIFY_STAT.VALID (R589). -/
def State.touchImage (s : State) (a n : Nat) : State :=
  match s.plat.verified with
  | some (b, l) =>
    if b ≤ a + n - 1 ∧ a < b + l then
      (s.putBit pBOOT Off.boot_VERIFY_STAT 3 false).onPlat fun t => { t with verified := none }
    else s
  | none => s

/-- Store a piece that lies in one 64-byte block: a full block clears its poison mark, a partial write to a poisoned
block is merged as poison and stores nothing (R460). -/
def State.storePiece (s : State) (a : Nat) (bs : List Byte) : State :=
  if bs.length = 64 then (s.setPoison a false).poke a bs
  else if s.poisoned a then s
  else s.poke a bs

/-- Split bytes at 64-byte block borders; `fuel` at least the number of blocks. -/
def pieces : Nat → Nat → List Byte → List (Nat × List Byte)
  | 0, _, _ => []
  | _, _, [] => []
  | f + 1, a, bs =>
    let n := 64 - a % 64
    (a, bs.take n) :: pieces f (a + n) (bs.drop n)

/-- A main-fabric write to DRAM is checked against the service cores' L2 and invalidates the matching line, there and in the L1
caches (R34, R35); a line is taken to be a 64-byte block (notes/assumptions/161.md). -/
def State.snoop (s : State) (mp a : Nat) : State :=
  if pageKind mp = .svc then s
  else s.onPlat fun t =>
    { t with l2 := t.l2.filter (· != a / 64), l1d := t.l1d.map fun e => (e.1, e.2.filter (· != a / 64)),
             l1i := t.l1i.map fun e => (e.1, e.2.filter (· != a / 64)) }

/-- One block's write by master page `mp` in DRAM: the guard table, the queue-state region, the window, the power
state and the controller decide whether it is performed (R46, R445, R463, R472, R572). -/
def State.dramPiece (s : State) (mp a : Nat) (bs : List Byte) : State :=
  let n := bs.length
  if !s.inDram a n then (s.raise pDRAMCOM 10).produce pDRAMCOM 0
  else if s.fld (pPWR 1) Off.pwr1_STATE 0 2 = 1 then s.raise (pPWR 1) 10
  else if !s.alive (pDRAM (s.ctlOf (a - dramBase))) then s
  else match s.guardHit mp a n with
    | some i => s.guardLog i mp a
    | none =>
      if s.inQState a n && decide (mp ≠ pQM 0) then s.raise (pQM 0) 15
      else ((s.touchImage a n).snoop mp a).storePiece a bs

/-- The pieces of a DRAM write in address order. -/
def State.dramPieces (s : State) (mp : Nat) : List (Nat × List Byte) → State
  | [] => s
  | (a, bs) :: rest => (s.dramPiece mp a bs).dramPieces mp rest

/-- An accepted main-fabric write of bytes by the block of page `mp` (R47); the Silk ring takes writes from Silk alone (R525), the
Cocoon window is read-only (R596), and a fenced cluster's memory drops writes (R48). -/
def State.busStore (s : State) (mp a : Nat) (bs : List Byte) : State :=
  match target a with
  | .dram => s.dramPieces mp (pieces (bs.length + 1) a bs)
  | .sram => if silkBase ≤ a + bs.length - 1 ∧ mp ≠ pSILK then s else s.poke a bs
  | .shm k => if s.alive (pCLUS k) then (pieces (bs.length + 1) a bs).foldl (fun t e => t.storePiece e.1 e.2) s else s
  | .cocoon => s
  | .hole => s

/-- A main-fabric write that the block of page `mp` issues now: dropped when the block is fenced (R46). -/
def State.busWrite (s : State) (mp a : Nat) (bs : List Byte) : State := if s.fenced mp then s else s.busStore mp a bs

/-- Does a write of `n` bytes at `a`, inside one 64-byte block, by master page `mp` land (R46, R48, R445, R463, R472, R525, R572,
R596)? -/
def State.lands (s : State) (mp a n : Nat) : Bool :=
  !s.fenced mp && match target a with
    | .dram => s.inDram a n && decide (s.fld (pPWR 1) Off.pwr1_STATE 0 2 ≠ 1) && s.alive (pDRAM (s.ctlOf (a - dramBase))) &&
        (s.guardHit mp a n).isNone && !(s.inQState a n && decide (mp ≠ pQM 0))
    | .sram => !(decide (silkBase ≤ a + n - 1) && decide (mp ≠ pSILK))
    | .shm k => s.alive (pCLUS k)
    | .cocoon | .hole => false

/-- Would a main-fabric write be answered with an error response (R596)? -/
def writeErr (a : Nat) : Bool :=
  match target a with
  | .cocoon | .hole => true
  | _ => false

/-- Write a range with a poison mark: its blocks are stored as the poison code (R462, R498). -/
def State.busPoison (s : State) (mp a n : Nat) : State :=
  let s1 := s.busWrite mp a (List.replicate n 0)
  (List.range ((a + n + 63) / 64 - a / 64)).foldl (fun t i =>
    if s.lands mp (64 * (a / 64 + i)) 64 then t.setPoison (64 * (a / 64 + i)) true else t) s1

/-- A little-endian number of `n` bytes from memory. -/
def State.peekNat (s : State) (a n : Nat) : Nat := ofLeBytes (s.peek a n)

/-! ## Check bits -/

/-- What ECC finds at a functional read of a memory of page `p`'s block: `e`, or what a check-bit injection that waits there makes of it
(R561; the injected word counts as the next one that a row reads, notes/assumptions/176.md). -/
def State.takeErr (s : State) (p : Nat) (e : ReadErr) : ReadErr × State :=
  let k := (s.pageRt p).inject
  if k = 0 then (e, s)
  else (if e = .uncorrectable ∨ k = 2 then .uncorrectable else .corrected, s.modPage p fun r => { r with inject := 0 })

/-- A corrected or uncorrectable error counts in the halves of the counter at `o` of page `p`; an uncorrectable one sets fault bit `b`
(R497). -/
def State.eccCount (s : State) (p o b : Nat) (e : ReadErr) : State :=
  match e with
  | .clean => s
  | .corrected => s.count p o 0 16 1
  | .uncorrectable => (s.count p o 16 16 1).raise p b

/-- A read of a memory of page `p`'s block that has no counters: a waiting injection is spent, and an uncorrectable one sets fault bit `b`
(R497, R561). -/
def State.memRead (s : State) (p b : Nat) : State :=
  let r := s.takeErr p .clean
  if r.1 = .uncorrectable then r.2.raise p b else r.2

/-! ## Queues -/

/-- The 32 bytes of a queue state read as its fields (*Queue state*). -/
def qDecode (ws : Words) : QState :=
  { ring := dwordAt ws 0 % 2 ^ 48, log2 := wfld (wordAt ws 1) 16 5,
    head := wfld (wordAt ws 2) 0 20, tail := wfld (wordAt ws 3) 0 20,
    en := bitAt (wordAt ws 4) 0, cls := wfld (wordAt ws 4) 1 2, engine := bitAt (wordAt ws 4) 3,
    failed := bitAt (wordAt ws 4) 5, evc := wfld (wordAt ws 4) 8 8, notify := bitAt (wordAt ws 4) 16,
    pushTo := wfld (wordAt ws 5) 0 16, drops := wfld (wordAt ws 6) 0 16, reissues := wfld (wordAt ws 6) 16 16,
    peak := wfld (wordAt ws 7) 0 20 }

/-- A queue state as the 32 bytes of *Queue state*. -/
def qEncode (q : QState) (pin : Bool) : Words :=
  [wd q.ring, wd (q.ring / 2 ^ 32 % 2 ^ 16 + q.log2 * 2 ^ 16), wd q.head, wd q.tail,
   wd (q.en.toNat + q.cls * 2 + q.engine.toNat * 8 + pin.toNat * 16 + q.failed.toNat * 32 + q.evc * 256
      + q.notify.toNat * 65536),
   wd q.pushTo, wd (q.drops + q.reissues * 65536), wd q.peak]

/-- The queue's ring has this many entries. -/
def QState.size (q : QState) : Nat := 2 ^ q.log2

/-- Level of a queue (R445). -/
def QState.level (q : QState) : Nat := (q.tail + q.size - q.head % q.size) % q.size

/-- The cached state of a queue, if it is cached. -/
def State.qCached (s : State) (q : Nat) : Option QState := (s.qm.cache.find? fun e => e.1 == q).map (·.2)

/-- The state of a queue as the queue manager sees it: the cached state, else the region's 32 bytes, FAILED when the read is
poison-marked (R48, R444, R452, R457). -/
def State.qView (s : State) (q : Nat) : QState :=
  if s.qsBase = 0 ∨ q = 0 then {}
  else match s.qCached q with
    | some st => st
    | none =>
      let d := (s.busRead (s.qsBase + 32 * q) 32).1
      if d.bad then { failed := true } else qDecode (bytesWords 8 d.bytes)

/-- Write a cached state back to its 32 bytes in the region. -/
def State.qWriteBack (s : State) (q : Nat) (st : QState) : State :=
  s.busWrite (pQM 0) (s.qsBase + 32 * q) (wordsBytes (qEncode st (s.qm.pins.contains q)))

/-- Put a queue's state at the front of the cache; at 16,384 states the least recently used unpinned one is written
back first (R457). -/
def State.qSet (s : State) (q : Nat) (st : QState) : State :=
  let rest := s.qm.cache.filter fun e => e.1 != q
  if rest.length < 16384 then s.onQm fun m => { m with cache := (q, st) :: rest }
  else
    match rest.reverse.find? fun e => !s.qm.pins.contains e.1 with
    | some (v, vst) =>
      ((s.qWriteBack v vst).count (pQM 2) Off.qm2_CNT_EVICT 0 32 1).onQm fun m =>
        { m with cache := (q, st) :: rest.filter fun e => e.1 != v }
    | none => s.onQm fun m => { m with cache := (q, st) :: rest }

/-- Bring a queue's state into the cache (R457): a miss counts; a poison-marked state makes the queue FAILED with
QSTATE_UE and PG_EVT_OUT1 (R452). -/
def State.qTouch (s : State) (q : Nat) : State :=
  match s.qCached q with
  | some st => s.qSet q st
  | none =>
    let st := s.qView q
    let s1 := (s.count (pQM 2) Off.qm2_CNT_MISS 0 32 1).qSet q st
    if (s.busRead (s.qsBase + 32 * q) 32).1.bad then (s1.raise (pQM 0) 12).produce (pQM 0) 1 else s1

/-- What ECC finds when the cached state of queue `q` is used, with a waiting injection (R452, R457, R497): an error that it cannot correct
makes the queue FAILED. -/
def State.qEcc (s : State) (q : Nat) (e : ReadErr) : State :=
  match s.qCached q with
  | none => s
  | some st =>
    let r := s.takeErr (pQM 0) e
    match r.1 with
    | .clean => r.2
    | .corrected => r.2.count (pQM 2) Off.qm2_CNT_SRAM 0 16 1
    | .uncorrectable =>
      let t := (r.2.count (pQM 2) Off.qm2_CNT_SRAM 16 16 1).qSet q { st with failed := true }
      (t.raise (pQM 0) 12).produce (pQM 0) 1

/-- Is queue `q` valid (R444): EN 1, FAILED 0, a state region, and not queue 0? -/
def State.qValid (s : State) (q : Nat) : Bool :=
  decide (s.qsBase ≠ 0) && decide (0 < q) && decide (q < 2 ^ 20) && (s.qView q).en && !(s.qView q).failed

/-- Full: 2^LOG2_SIZE − 1 descriptors (R445). -/
def QState.full (q : QState) : Bool := decide (q.size ≤ q.level + 1)

/-- Land a descriptor at TAIL (R445, R447), with PEAK, CNT_OPS and the notification of a level that leaves 0 (R451). -/
def State.qLand (s : State) (q : Nat) (d : Words) : State :=
  let st := s.qView q
  let s1 := (s.qTouch q).busWrite (pQM 0) (st.ring + 32 * st.tail) (wordsBytes (d.take 8 ++ List.replicate (8 - d.length) 0))
  let st' := { st with tail := (st.tail + 1) % st.size, peak := max st.peak (st.level + 1) }
  let s2 := (s1.qSet q st').countWrap (pQM 0) Off.qm0_CNT_OPS 0 32 1
  let s3 := s2.onQm fun m => { m with landedAt := s.now, landed := q :: (if m.landedAt = s.now then m.landed else []) }
  s3.produceOn (pQM 0) st.evc (decide (st.level = 0) && st.notify)

/-- Descriptors on a queue's ring that landed before this tick. -/
def State.qOld (s : State) (q : Nat) : Nat :=
  (s.qView q).level - (if s.qm.landedAt = s.now then (s.qm.landed.filter (· == q)).length else 0)

/-- The descriptor at HEAD of a queue's ring: zeros where the read is poison-marked (R48, R596). -/
def State.qHead (s : State) (q : Nat) : Words :=
  let st := s.qView q
  bytesWords 8 (s.busRead (st.ring + 32 * st.head) 32).1.bytes

/-- Remove the descriptor at HEAD (R447). -/
def State.qDrop (s : State) (q : Nat) : State :=
  let st := s.qView q
  (((s.busRead (st.ring + 32 * st.head) 32).2.qTouch q).qSet q { st with head := (st.head + 1) % st.size }).countWrap (pQM 0) Off.qm0_CNT_OPS 0 32 1

/-- A push that is dropped for want of a valid queue or of room: the drop counts, PUSH_DROP and PG_EVT_OUT2 (R449). -/
def State.pushDropped (s : State) (q : Nat) (invalid : Bool) : State :=
  let s1 := if invalid then s.count (pQM 0) Off.qm0_CNT_DROP 16 16 1
    else
      let st := s.qView q
      (s.qSet q { st with drops := min 65535 (st.drops + 1) }).count (pQM 0) Off.qm0_CNT_DROP 0 16 1
  (s1.raise (pQM 0) 9).produce (pQM 0) 2

/-- A hardware block's push (R449): a push to an invalid queue is dropped at once; one to a full queue, or behind the
same block's waiting pushes to it, waits in the 256-entry push buffer, or is dropped when that is full. A fenced
queue manager drops every push without counting (R473). -/
def State.push (s : State) (p q : Nat) (d : Words) : State :=
  if !s.alive (pQM 0) then s
  else if !s.qValid q then s.pushDropped q true
  else if (s.qView q).full || s.qm.pushBuf.any (fun w => w.page == p && w.queue == q) then
    if s.qm.pushBuf.length < 256 then s.onQm fun m => { m with pushBuf := m.pushBuf ++ [⟨p, q, d, s.now⟩] }
    else s.pushDropped q false
  else s.qLand q d

/-- The first visible reissued item of a queue, the oldest original take first (R454). -/
def State.qReissue (s : State) (q : Nat) : Option Reissue :=
  (s.qm.reissue.filter fun r => r.queue == q && r.visible).foldl (fun best r =>
    match best with
    | none => some r
    | some b => if r.order < b.order then some r else some b) none

/-- A hardware consumer's take (R450, R454): the reissued item first, else the descriptor at HEAD. -/
def State.take (s : State) (q : Nat) : Option Words × State :=
  if !s.alive (pQM 0) || !s.qValid q then (none, s)
  else match s.qReissue q with
    | some r => (some r.desc, (s.onQm fun m =>
        { m with reissue := m.reissue.filter fun x => x != r, takes := m.takes + 1 }).countWrap (pQM 0) Off.qm0_CNT_OPS 0 32 1)
    | none => if (s.qView q).level = 0 then (none, s) else (some (s.qHead q), s.qDrop q)

/-- Put a descriptor back before the one at HEAD, where the ring has room (R443). -/
def State.qUntake (s : State) (q : Nat) (d : Words) : State :=
  let st := s.qView q
  if !s.alive (pQM 0) || !s.qValid q || st.full then s
  else
    let h := (st.head + st.size - 1) % st.size
    ((s.qTouch q).busWrite (pQM 0) (st.ring + 32 * h) (wordsBytes (d.take 8 ++ List.replicate (8 - d.length) 0))).qSet q { st with head := h }

/-! ## Holds -/

/-- The hold of slot `i` (R453). -/
def State.hold (s : State) (i : Nat) : Hold := Map.get (fun _ => {}) s.qm.hold i

/-- Update the hold of slot `i`. -/
def State.modHold (s : State) (i : Nat) (f : Hold → Hold) : State :=
  s.onQm fun m => { m with hold := Map.put (fun _ => {}) m.hold i (f (Map.get (fun _ => {}) m.hold i)) }

/-- Create a hold of slot `i` for an item of queue `q` (R453): a first take has EPOCH 0 and a new order number; a
reissued item keeps its epoch, its reissue count and its order. -/
def State.holdTake (s : State) (i q : Nat) (r : Option Reissue) (d : Words) : State :=
  let cls := (s.qView q).cls
  let s1 := s.modHold i fun h =>
    let n := (h.count + 1) % 2 ^ 22
    { desc := d, queue := q, cls := cls, epoch := (r.map (·.epoch)).getD 0, handle := i + n * 1024, count := n,
      held := true, pending := false, reissues := (r.map (·.reissues)).getD 0,
      order := (r.map (·.order)).getD s.qm.takes }
  s1.onQm fun m => { m with takes := m.takes + 1 }

/-- Does slot `i` hold an item with this HANDLE and EPOCH (R455)? -/
def State.holdMatches (s : State) (handle epoch : Nat) : Bool :=
  let h := s.hold (handle % 1024)
  h.held && decide (h.handle = handle) && decide (h.epoch = epoch)

/-- Release the hold of slot `i` (QDONE, R453). -/
def State.holdDone (s : State) (i : Nat) : State := s.modHold i fun h => { h with held := false, pending := false }

/-- End the hold of slot `i` by a reissue (R454, R456): EPOCH + 1 and REISSUE_PENDING on its queue, visible to takers at
once or, at a condemnation, only when the port has drained (R507). An item past REISSUE_LIMIT, or of a disabled
queue, goes to DEAD_Q. -/
def State.holdReissue (s : State) (i : Nat) (visible : Bool) : State :=
  let h := s.hold i
  if !h.held then s
  else
    let limit := s.fld (pQM 0) Off.qm0_REISSUE 0 4
    if limit < h.reissues + 1 || !(s.qView h.queue).en then
      let s1 := (s.holdDone i).push (pQM 0) (s.fld (pQM 0) Off.qm0_DEAD_Q 0 20) h.desc
      (((s1.count (pQM 0) Off.qm0_CNT_DEAD 0 32 1).raise (pQM 0) 11).produce (pQM 0) 0).silk 0x1102 (pQM 0)
        h.queue h.handle h.reissues
    else
      let st := s.qView h.queue
      let s1 := (s.qSet h.queue { st with reissues := min 65535 (st.reissues + 1) }).count (pQM 0) Off.qm0_CNT_STALE 16 16 1
      (s1.modHold i fun x => { x with held := false, pending := true, epoch := (h.epoch + 1) % 65536 }).onQm fun m =>
        { m with reissue := m.reissue ++
            [⟨h.queue, h.desc, h.cls, (h.epoch + 1) % 65536, h.reissues + 1, h.order, i, h.handle, visible⟩] }

/-- A STALE push, QDONE or QREL (R455): counted, fault bit 10, and a Silk record. -/
def State.stale (s : State) (q handle epoch : Nat) : State :=
  ((s.count (pQM 0) Off.qm0_CNT_STALE 0 16 1).raise (pQM 0) 10).silk 0x1101 (pQM 0) q handle epoch

/-! ## Dralek receivers -/

/-- A Dralek receiver beside its registers. -/
def State.dlk (s : State) (n : Nat) : Dlk := Map.get (fun _ => {}) s.cap.dlk n
def State.modDlk (s : State) (n : Nat) (f : Dlk → Dlk) : State :=
  s.onCap fun x => { x with dlk := Map.put (fun _ => {}) x.dlk n (f (Map.get (fun _ => {}) x.dlk n)) }

/-! ## Stream contexts -/

/-- The 32 words of a stream context (R458). -/
def State.scx (s : State) (c : Nat) : Words :=
  let ws := Map.get (fun _ => []) s.qm.scx c
  ws ++ List.replicate (32 - ws.length) 0

/-- Owner kind of a stream context: 0 free, 1 capture stream, 2 encode, 3 decode, 4 JPEG XS, 5 RTP flow, 6 recording. -/
def State.scxKind (s : State) (c : Nat) : Nat := Map.get (fun _ => 0) s.qm.scxKind c

/-- Store words of a stream context from word `i` on. -/
def State.scxPut (s : State) (c i : Nat) (ws : Words) : State :=
  let old := s.scx c
  s.onQm fun m => { m with scx := Map.put (fun _ => []) m.scx c (old.take i ++ ws ++ old.drop (i + ws.length)) }

/-- Claim a free context for a block's kind and page, clearing its runtime words from `rt` on (R458). -/
def State.scxClaim (s : State) (c kind p rt : Nat) : State :=
  (s.scxPut c rt (List.replicate (32 - rt) 0)).onQm fun m =>
    { m with scxKind := Map.put (fun _ => 0) m.scxKind c kind, scxPage := Map.put (fun _ => 0) m.scxPage c p }

/-- Free a context when its owner leaves the enabled state (R458). -/
def State.scxFree (s : State) (c : Nat) : State :=
  s.onQm fun m => { m with scxKind := Map.put (fun _ => 0) m.scxKind c 0, scxPage := Map.put (fun _ => 0) m.scxPage c 0 }

/-- An error in stream context `c` that ECC cannot correct (R459): SCX_UE, the count and the Silk record. -/
def State.scxFault (s : State) (c : Nat) : State :=
  ((s.count (pQM 2) Off.qm2_CNT_SRAM 16 16 1).raise (pQM 0) 13).silk 0x1103 (pQM 0) c (s.scxKind c) 0

/-- A STORE to a context of another kind (R458): STATE_WRITE on the storing page and QM fault bit 14. -/
def State.scxConflict (s : State) (p : Nat) : State :=
  ((s.stateWrite p).count (pQM 3) Off.qm3_CNT_CONFLICT 0 32 1).raise (pQM 0) 14

end Sys2Proof.Machine
end

