-- ==== Sys2Proof/Machine/Rulers.lean ====
section
/-!
DEFINITION. The rulers' values as registers, snapshots and cues see them (R50, R62, R67, R71 to R73).
-/

namespace Sys2Proof.Machine

open Sys2Proof

/-- DIST ruler `d` beside its registers. -/
def State.dist (s : State) (d : Nat) : Dist := Map.get (fun _ => {}) s.tb.dist d
def State.modDist (s : State) (d : Nat) (f : Dist → Dist) : State :=
  s.onTb fun t => { t with dist := Map.put (fun _ => {}) t.dist d (f (Map.get (fun _ => {}) t.dist d)) }

/-- PHASE ruler `p` beside its registers. -/
def State.phase (s : State) (p : Nat) : Phase := Map.get (fun _ => {}) s.tb.phase p
def State.modPhase (s : State) (p : Nat) (f : Phase → Phase) : State :=
  s.onTb fun t => { t with phase := Map.put (fun _ => {}) t.phase p (f (Map.get (fun _ => {}) t.phase p)) }

/-- LINE ruler `n`. -/
def State.lineR (s : State) (n : Nat) : LineRuler := Map.get (fun _ => {}) s.tb.line n
def State.modLine (s : State) (n : Nat) (f : LineRuler → LineRuler) : State :=
  s.onTb fun t => { t with line := Map.put (fun _ => {}) t.line n (f (Map.get (fun _ => {}) t.line n)) }

/-- SLINE ruler `n`. -/
def State.slineR (s : State) (n : Nat) : SlineRuler := Map.get (fun _ => {}) s.tb.sline n
def State.modSline (s : State) (n : Nat) (f : SlineRuler → SlineRuler) : State :=
  s.onTb fun t => { t with sline := Map.put (fun _ => {}) t.sline n (f (Map.get (fun _ => {}) t.sline n)) }

/-- Offset of DIST ruler `d`'s register. -/
def dOff (d o : Nat) : Nat := o + 0x40 * d
/-- Offset of encoder `e`'s register. -/
def eOff (e o : Nat) : Nat := o + 0x10 * e
/-- Offset of PHASE ruler `p`'s register. -/
def phOff (p o : Nat) : Nat := o + 0x40 * p
/-- Offset of line-locked context `k`'s register. -/
def llOff (k o : Nat) : Nat := o + 0x40 * k

/-- The encoders of a DIST ruler. -/
def State.distPri (s : State) (d : Nat) : Nat := s.fld pDIST (dOff d Off.dist_CFG) 1 3
def State.distSec (s : State) (d : Nat) : Nat := s.fld pDIST (dOff d Off.dist_CFG) 4 3
/-- MODE of an encoder. -/
def State.encMode (s : State) (e : Nat) : Nat := s.fld pDIST (eOff e Off.dist_ENC_CFG) 0 2

/-- Does an enabled DIST ruler name encoder `e`, as its primary or, with SEC_EN, as its secondary (R67)? -/
def State.distNames (s : State) (d e : Nat) : Bool :=
  let cfg := s.reg pDIST (dOff d Off.dist_CFG)
  bitAt cfg 0 && (decide (s.distPri d = e) || (bitAt cfg 7 && decide (s.distSec d = e)))

/-- A DIST ruler is valid (R67). -/
def State.distValid (s : State) (d : Nat) : Bool :=
  let cfg := s.reg pDIST (dOff d Off.dist_CFG)
  bitAt cfg 0 && (s.encMode (s.distPri d) != 0 || (bitAt cfg 7 && s.encMode (s.distSec d) != 0))

/-- The DIST value: the upper 64 of the accumulator's 80 bits (R62). -/
def State.distVal (s : State) (d : Nat) : Int := signed 64 (unsigned 64 ((s.dist d).pos / 2 ^ 16))

/-- PHASE STATUS.STATE. -/
def State.phaseState (s : State) (p : Nat) : Nat := s.fld pPHASE (phOff p Off.phase_STATUS) 0 2

/-- A PHASE ruler is valid (R69, R71). -/
def State.phaseValid (s : State) (p : Nat) : Bool :=
  s.bit pPHASE (phOff p Off.phase_CFG) 0 &&
    (match s.phaseState p with
     | 0 => false
     | 1 => (s.phase p).everLocked
     | _ => true)

/-- The LINE value: frame count, line and pixel; an invalid ruler holds its frame count and reads line 0xFFFF and pixel 0 (R72). -/
def State.lineVal (s : State) (n : Nat) : Nat :=
  let r := s.lineR n
  if r.run && s.alive (pDISP n) then r.frame % 2 ^ 32 * 2 ^ 32 + r.line * 2 ^ 16 + r.pixel
  else (r.frame + 2 ^ 32 - r.overran % 2 ^ 32) % 2 ^ 32 * 2 ^ 32 + 0xFFFF * 2 ^ 16

/-- A LINE ruler is valid (R72). -/
def State.lineValid (s : State) (n : Nat) : Bool := (s.lineR n).run && s.alive (pDISP n)

/-- Is the source with KIND `k` (0 CSI-2 port, 1 Dralek receiver) and INDEX `i` on and not fenced (R73)? -/
def State.sourceOn (s : State) (k i : Nat) : Bool :=
  if k = 0 then s.alive (pSENS i) && s.fld (pSENS i) Off.sens_CFG 0 2 != 0
  else s.alive (pDLK i) && s.fld (pDLK i) Off.dlk_STATE 0 3 != 0

/-- SLINE_SRC of a ruler: INDEX, KIND and virtual channel. -/
def State.slineSrc (s : State) (n : Nat) : Nat × Nat × Nat :=
  let w := s.reg pLINEVIEW (Off.lineview_SLINE_SRC0 + 4 * n)
  (wfld w 0 6, wfld w 6 1, wfld w 8 4)

/-- An SLINE ruler is valid (R73). -/
def State.slineValid (s : State) (n : Nat) : Bool := let src := s.slineSrc n; s.sourceOn src.2.1 src.1

/-- The SLINE value (R73). -/
def State.slineVal (s : State) (n : Nat) : Nat :=
  let r := s.slineR n
  let line := if s.slineValid n then (match r.line with
    | some l => min l r.height
    | none => 0xFFFF) else 0xFFFF
  r.frame % 2 ^ 32 * 2 ^ 32 + line * 2 ^ 16

/-- The rulers that follow a source's virtual channel take a change (R73). -/
def State.slineUpdate (s : State) (k i vc : Nat) (f : SlineRuler → SlineRuler) : State :=
  (List.range 64).foldl (fun t n => if t.slineSrc n = (i, k, vc) then t.modSline n f else t) s

/-- Line-locked context `k`. -/
def State.ll (s : State) (k : Nat) : LineLock := Map.get (fun _ => {}) s.tb.ll k
/-- Update a line-locked context. -/
def State.modLl (s : State) (k : Nat) (f : LineLock → LineLock) : State :=
  s.onTb fun t => { t with ll := Map.put (fun _ => {}) t.ll k (f (Map.get (fun _ => {}) t.ll k)) }

/-- SLINE ruler of context `k` (LL_CFG). -/
def State.llSline (s : State) (k : Nat) : Nat := s.fld pLINEVIEW (llOff k Off.lineview_LL_CFG) 8 6
/-- State of context `k`: 0 OFF, 1 ACQUIRE, 2 LOCKED, 3 LOST. -/
def State.llState (s : State) (k : Nat) : Nat := s.fld pLINEVIEW (llOff k Off.lineview_LL_STAT) 0 2
/-- Move a context to a state; a new state counts its frames anew. -/
def State.setLl (s : State) (k st : Nat) : State :=
  (s.setFld pLINEVIEW (llOff k Off.lineview_LL_STAT) 0 2 st).modLl k fun l => { l with okFrames := 0, badFrames := 0 }

/-- A sensor frame starts on a source's virtual channel: contexts that follow it leave LOST for ACQUIRE (R89). -/
def State.llStart (s : State) (k i vc : Nat) : State :=
  (List.range 8).foldl (fun t c =>
    if t.llState c = 3 ∧ t.slineSrc (t.llSline c) = (i, k, vc) then t.setLl c 1 else t) s

end Sys2Proof.Machine
end

