-- ==== Sys2Proof/Machine/Compose.lean ====
section
/-!
DEFINITION. The pixels of a display line (R336, R337, R342, R343): layers read from memory, converted, scaled and blended in
the output's code values. Where the spec states no rounding, a value that is no integer becomes a free code
(Config.composeCode).
-/

namespace Sys2Proof.Machine

open Sys2Proof

/-- A display head. -/
def State.head (s : State) (n : Nat) : Head := Map.get (fun _ => {}) s.disp n
/-- Update a display head. -/
def State.modHead (s : State) (n : Nat) (f : Head → Head) : State :=
  s.onDisp fun m => Map.put (fun _ => {}) m n (f (Map.get (fun _ => {}) m n))
/-- Layer `l` of head `n`. -/
def State.layer (s : State) (n l : Nat) : LayerRt := Map.get (fun _ => {}) (s.head n).layers l
/-- Update a layer. -/
def State.modLayer (s : State) (n l : Nat) (f : LayerRt → LayerRt) : State :=
  s.modHead n fun h => { h with layers := Map.put (fun _ => {}) h.layers l (f (Map.get (fun _ => {}) h.layers l)) }

/-- PAIR_LOCK of the pair a head belongs to. -/
def State.pairLocked (s : State) (n : Nat) : Bool := s.bit (pDISP (n / 2 * 2)) Off.disp_CTRL 1
/-- The head whose layers and timing generator serve head `n` (R333). -/
def State.layerHead (s : State) (n : Nat) : Nat := if s.pairLocked n then n / 2 * 2 else n

/-- A register of layer `l`: the value in force. -/
def State.lreg (s : State) (n l o : Nat) : Word := s.reg (pDISP n) (o + 0x40 * l)
/-- The layer's enabled source: EN, and SOURCE 1 for a band. -/
def State.layerOn (s : State) (n l : Nat) : Bool := bitAt (s.lreg n l Off.disp_L_CTRL) 0
def State.layerBand (s : State) (n l : Nat) : Bool := bitAt (s.lreg n l Off.disp_L_CTRL) 1
def State.layerSafety (s : State) (n l : Nat) : Bool := bitAt (s.lreg n l Off.disp_L_CTRL) 2

/-- Colour triple of BG, FILL and the palette. -/
def triple (w : Word) : Nat × Nat × Nat := (wfld w 0 10, wfld w 10 10, wfld w 20 10)

/-- A pixel as the composition takes it: three code values as fractions, and alpha. -/
structure LPix where
  a : Q
  b : Q
  c : Q
  alpha : Q

/-- Coefficients Kr and Kb of YCC_MTX (R200). -/
def yccK (bt2020 : Bool) : Q × Q := if bt2020 then (⟨2627, 10000⟩, ⟨593, 10000⟩) else (⟨2126, 10000⟩, ⟨722, 10000⟩)

/-- A colour code read back as a value between 0 and 1, and a chroma code as one around 0 (the mappings of R201). -/
def lumaVal (narrow : Bool) (bits v : Nat) : Q :=
  if narrow then ((Q.ofNat v).div (Q.ofNat (2 ^ (bits - 8)))).sub (Q.ofNat 16) |>.div (Q.ofNat 219)
  else (Q.ofNat v).div (Q.ofNat (2 ^ bits - 1))
def chromaVal (narrow : Bool) (bits : Nat) (v : Q) : Q :=
  if narrow then (v.div (Q.ofNat (2 ^ (bits - 8)))).sub (Q.ofNat 128) |>.div (Q.ofNat 224)
  else (v.sub (Q.ofNat (2 ^ (bits - 1)))).div (Q.ofNat (2 ^ bits - 1))

/-- 10-bit output codes of a value and of a chroma value (R201). -/
def lumaOut (narrow : Bool) (v : Q) : Q :=
  if narrow then ((v.mul (Q.ofNat 219)).add (Q.ofNat 16)).mul (Q.ofNat 4) else v.mul (Q.ofNat 1023)
def chromaOut (narrow : Bool) (v : Q) : Q :=
  if narrow then ((v.mul (Q.ofNat 224)).add (Q.ofNat 128)).mul (Q.ofNat 4) else (v.mul (Q.ofNat 1023)).add (Q.ofNat 512)

/-- RGB values in the output's code values under OUT_FMT. -/
def outCodes (fmt : Word) (r g b al : Q) : LPix :=
  let narrow := bitAt fmt 4
  if wfld fmt 0 2 = 0 then ⟨lumaOut narrow r, lumaOut narrow g, lumaOut narrow b, al⟩
  else
    let k := yccK (bitAt fmt 5)
    let kg := (Q.one.sub k.1).sub k.2
    let y := ((k.1.mul r).add (kg.mul g)).add (k.2.mul b)
    let cb := (b.sub y).div ((Q.one.sub k.2).mul (Q.ofNat 2))
    let cr := (r.sub y).div ((Q.one.sub k.1).mul (Q.ofNat 2))
    ⟨lumaOut narrow y, chromaOut narrow cb, chromaOut narrow cr, al⟩

/-- Y'CbCr values as RGB ones (the inverse of R200). -/
def yccRgb (bt2020 : Bool) (y cb cr : Q) : Q × Q × Q :=
  let k := yccK bt2020
  let kg := (Q.one.sub k.1).sub k.2
  let r := y.add ((cr.mul (Q.ofNat 2)).mul (Q.one.sub k.1))
  let b := y.add ((cb.mul (Q.ofNat 2)).mul (Q.one.sub k.2))
  (r, ((y.sub (k.1.mul r)).sub (k.2.mul b)).div kg, b)

/-- Bytes as a display read finds them; none when they are poison-marked. -/
def State.dispBytes (s : State) (a n : Nat) : Option Nat :=
  let r := (s.busRead a n).1
  if r.bad then none else some (ofLeBytes r.bytes)

/-- Where a layer reads: control word, base, stride, PIC_H, ring lines (0: none). -/
structure LSrc where
  ctrl : Word
  base : Nat
  stride : Nat
  picH : Nat
  ring : Nat

/-- Address of line `y` of the plane that starts `off` lines after the base. -/
def LSrc.line (v : LSrc) (off y : Nat) : Nat := v.base + off * v.stride + (if v.ring = 0 then y else y % v.ring) * v.stride
/-- FORMAT of a layer. -/
def LSrc.fmt (v : LSrc) : Nat := wfld v.ctrl 6 3

/-- A chroma pair of a YCbCr source at luma position (x, y): exact where the sample is co-sited, mixed otherwise. -/
def State.lchroma (s : State) (v : LSrc) (x y : Nat) : Option (Q × Q) :=
  let f := v.fmt
  let n := if f = 4 then 1 else 2
  let at_ := fun (cx cy k : Nat) => s.dispBytes (v.line v.picH cy + (2 * cx + k) * n) n
  if f = 6 then
    match s.dispBytes (v.line v.picH y + 2 * x) 2, s.dispBytes (v.line (2 * v.picH) y + 2 * x) 2 with
    | some a, some b => some (Q.ofNat a, Q.ofNat b)
    | _, _ => none
  else
    let cy := if f = 5 then y else y / 2
    match at_ (x / 2) cy 0, at_ (x / 2) cy 1 with
    | some a, some b =>
      if f = 5 ∧ x % 2 = 0 then some (Q.ofNat a, Q.ofNat b)
      else
        let near := fun k => [(at_ (x / 2 + 1) cy k).getD 0, (at_ (x / 2) (cy + 1) k).getD 0, (at_ (x / 2 + 1) (cy + 1) k).getD 0,
          (at_ (x / 2) (cy - 1) k).getD 0, (at_ (x / 2 + 1) (cy - 1) k).getD 0]
        let u := Config.chromaMix (x % 2) (y % 2) (a :: near 0)
        let w := Config.chromaMix (x % 2) (y % 2) (b :: near 1)
        some (⟨u.1, max 1 u.2⟩, ⟨w.1, max 1 w.2⟩)
    | _, _ => none

/-- A source pixel in the output's code values (R203, R336); none where a sample is poison-marked. -/
def State.lsource (s : State) (out : Word) (v : LSrc) (x y : Nat) : Option LPix :=
  let narrow := bitAt v.ctrl 10
  let rgb := fun (bits r g b : Nat) (al : Q) =>
    outCodes out (lumaVal narrow bits r) (lumaVal narrow bits g) (lumaVal narrow bits b) al
  let ycc := fun (n bits : Nat) =>
    match s.dispBytes (v.line 0 y + n * x) n, s.lchroma v x y with
    | some l, some c =>
      let t := yccRgb (bitAt v.ctrl 11) (lumaVal narrow bits l) (chromaVal narrow bits c.1) (chromaVal narrow bits c.2)
      some (outCodes out t.1 t.2.1 t.2.2 Q.one)
    | _, _ => none
  match v.fmt with
  | 0 => (s.dispBytes (v.line 0 y + 8 * x) 8).map fun w =>
      outCodes out (f16q (w % 65536)) (f16q (w / 65536 % 65536)) (f16q (w / 2 ^ 32 % 65536)) (f16q (w / 2 ^ 48))
  | 1 => (s.dispBytes (v.line 0 y + 4 * x) 4).map fun w =>
      rgb 10 (w % 1024) (w / 1024 % 1024) (w / 2 ^ 20 % 1024) ((Q.ofNat (w / 2 ^ 30)).div (Q.ofNat 3))
  | 2 => (s.dispBytes (v.line 0 y + 4 * x) 4).map fun w =>
      rgb 8 (w % 256) (w / 256 % 256) (w / 65536 % 256) ((Q.ofNat (w / 2 ^ 24)).div (Q.ofNat 255))
  | 3 => ycc 2 10
  | 4 => ycc 1 8
  | 5 => ycc 2 10
  | 6 => ycc 2 12
  | _ => (s.dispBytes (v.line 0 y + 3 * x) 3).map fun w => rgb 8 (w % 256) (w / 256 % 256) (w / 65536 % 256) Q.one

/-- Weighted mean of two fractions. -/
def Q.lerp (w a b : Q) : Q := (a.mul (Q.one.sub w)).add (b.mul w)

/-- The mean of two pixels. -/
def LPix.lerp (w : Q) (p q : LPix) : LPix := ⟨Q.lerp w p.a q.a, Q.lerp w p.b q.b, Q.lerp w p.c q.c, Q.lerp w p.alpha q.alpha⟩

/-- A tap of the scaler: source position and the weight of the next one (Config.layerTap); an unscaled axis is exact. -/
def layerTap (bilinear : Bool) (src dst i : Nat) : Nat × Q :=
  if src = dst then (i, Q.zero)
  else
    let t := Config.layerTap bilinear src dst i
    (min t.1 (src - 1), if bilinear then Q.clamp Q.zero Q.one ⟨t.2.1, max 1 t.2.2⟩ else Q.zero)

/-- Pixel (i, j) of a layer's destination. -/
def State.lpixel (s : State) (out : Word) (v : LSrc) (sx sy sw sh dw dh i j : Nat) : Option LPix :=
  let f := bitAt v.ctrl 12
  let tx := layerTap f sw dw i
  let ty := layerTap f sh dh j
  let px := fun x y => s.lsource out v (sx + min x (sw - 1)) (sy + min y (sh - 1))
  let row := fun y => if tx.2.n = 0 then px tx.1 y else match px tx.1 y, px (tx.1 + 1) y with
    | some p, some q => some (LPix.lerp tx.2 p q)
    | _, _ => none
  if ty.2.n = 0 then row ty.1 else match row ty.1, row (ty.1 + 1) with
    | some p, some q => some (LPix.lerp ty.2 p q)
    | _, _ => none

/-- A code from a fraction: an integer as it is. -/
def composeCode (q : Q) : Nat :=
  if q.n % q.d = 0 then (Q.clamp Q.zero (Q.ofNat 1023) q).floor.toNat
  else Config.composeCode (q.n, q.d) % 1024

/-- A layer pixel over what lies beneath it (R336). -/
def blend (ctrl : Word) (below : Nat × Nat × Nat) (p : LPix) : Nat × Nat × Nat :=
  let ga := (Q.ofNat (wfld ctrl 16 8)).div (Q.ofNat 255)
  let al := p.alpha.mul ga
  let col := if bitAt ctrl 9 then ga else al
  let mix := fun (u : Q) (b : Nat) => composeCode ((u.mul col).add ((Q.ofNat b).mul (Q.one.sub al)))
  (mix p.a below.1, mix p.b below.2.1, mix p.c below.2.2)

/-- A triple of codes as an opaque pixel. -/
def LPix.ofTriple (t : Nat × Nat × Nat) : LPix := ⟨Q.ofNat t.1, Q.ofNat t.2.1, Q.ofNat t.2.2, Q.one⟩

/-- A layer's own code values of a pixel, for UNDER_MODE 1. -/
def LPix.codes (p : LPix) : Nat × Nat × Nat := (composeCode p.a, composeCode p.b, composeCode p.c)

/-- What a layer contributes to a line: first column and its pixels, with which were poison-marked or missing. -/
structure LayerLine where
  x0 : Nat
  px : List LPix
  own : List (Nat × Nat × Nat)
  poison : Nat
  filled : List Nat
  missing : Bool

/-- Layer `l` of head `g`, as head `n` shows it, on surface line `y` between columns `lo` and `hi`: pixels beyond the first `got` have not arrived
(R342), poison-marked ones and those at `bad`, which the head's own memory has lost, take FILL (R343). None where the layer does not cover the line. -/
def State.layerLine (s : State) (n g l y lo hi got : Nat) (bad : List Nat) : Option LayerLine :=
  let ctrl := s.lreg g l Off.disp_L_CTRL
  let r := s.layer g l
  let band := bitAt ctrl 1
  if !bitAt ctrl 0 || (!band && r.cur.isNone) then none
  else
    let sxy := s.lreg g l Off.disp_SRC_XY
    let swh := s.lreg g l Off.disp_SRC_WH
    let dxy := s.lreg g l Off.disp_DST_XY
    let dwh := s.lreg g l Off.disp_DST_WH
    let dx := wfld dxy 0 16
    let dy := wfld dxy 16 16
    let dw := wfld dwh 0 16
    let dh := wfld dwh 16 16
    if y < dy ∨ dy + dh ≤ y then none
    else
      let x0 := max lo dx
      let x1 := min hi (dx + dw)
      let v : LSrc :=
        { ctrl := ctrl, stride := (s.lreg g l Off.disp_STRIDE).toNat,
          picH := wfld (s.reg (pDISP g) (Off.disp_PIC_H + 4 * l)) 0 16,
          ring := if band then max 1 (wfld (s.lreg g l Off.disp_BAND_CFG) 0 13) else 0,
          base := if band then (s.lreg g l Off.disp_BAND_LO).toNat + 2 ^ 32 * (s.lreg g l Off.disp_BAND_HI).toNat
            else (r.cur.map (·.buf)).getD 0 }
      let fill := triple (s.lreg g l Off.disp_FILL)
      let out := s.reg (pDISP g) Off.disp_OUT_FMT
      let one := fun (x : Nat) =>
        let i := x - dx
        if got ≤ i then
          let p := if bitAt ctrl 5 then (s.layer n l).prev.getD (x - x0) fill else fill
          (LPix.ofTriple p, p, false, true)
        else match if bad.contains i then none else s.lpixel out v (wfld sxy 0 16) (wfld sxy 16 16) (wfld swh 0 16) (wfld swh 16 16) dw dh i (y - dy) with
          | some p => (p, p.codes, false, false)
          | none => (LPix.ofTriple fill, fill, true, false)
      let all := (List.range (x1 - x0)).map fun k => one (x0 + k)
      some { x0 := x0, px := all.map (·.1), own := all.map (·.2.1), poison := (all.filter (·.2.2.1)).length,
             filled := (List.range (x1 - x0)).filter fun k => match all[k]? with
               | some t => t.2.2.1 || t.2.2.2
               | none => false,
             missing := all.any (·.2.2.2) }

/-- A layer's pixels over a line that starts at column `lo`. -/
def overLine (ctrl : Word) (lo : Nat) (line : List (Nat × Nat × Nat)) (l : LayerLine) : List (Nat × Nat × Nat) :=
  let n := l.px.length
  let a := l.x0 - lo
  line.take a ++ ((line.drop a).take n |>.zip l.px).map (fun e => blend ctrl e.1 e.2) ++ line.drop (a + n)

/-- A pixel's codes at the output's bits per component (R336, R346). -/
def outDepth (fmt : Word) (t : Nat × Nat × Nat) : Nat × Nat × Nat :=
  if wfld fmt 2 2 = 1 then t
  else
    let f := fun (v : Nat) => if v % 4 = 0 then v / 4 else Config.composeCode (v, 4) % 256
    (f t.1, f t.2.1, f t.2.2)

end Sys2Proof.Machine
end

