-- ==== Sys2Proof/Machine/Pset.lean ====
section
/-!
DEFINITION. Parameter sets: the ring of a pipe context, reading a set, and the frame a set applies to (R216 to R229).
-/

namespace Sys2Proof.Machine

open Sys2Proof

/-- Key of context `c` of pipe `n`. -/
def ctxKey (n c : Nat) : Nat := n * 64 + c

/-- A pipe context. -/
def State.pctx (s : State) (k : Nat) : PipeCtx := Map.get (fun _ => {}) s.pipes.ctx k

/-- Update a pipe context. -/
def State.modPctx (s : State) (k : Nat) (f : PipeCtx → PipeCtx) : State :=
  s.onPipes fun r => { r with ctx := Map.put (fun _ => {}) r.ctx k (f (Map.get (fun _ => {}) r.ctx k)) }

/-- Update the frame in work of a pipe context, if there is one. -/
def State.modPframe (s : State) (k : Nat) (f : PipeFrame → PipeFrame) : State :=
  s.modPctx k fun c => { c with frame := c.frame.map f }

/-- STRIPE of a context: 0 none, 1 lead, 2 member. -/
def PipeCtx.stripe (c : PipeCtx) : Nat := wfld (wordAt c.cfg 0) 5 2

/-- The lead of a stripe set that context `k` belongs to: the nearest lower pipe whose same context is a lead (R158). -/
def State.leadOf (s : State) (k : Nat) : Nat :=
  if (s.pctx k).stripe = 2 then
    ((List.range (k / 64)).reverse.map (fun n => ctxKey n (k % 64))).find? (fun j => (s.pctx j).stripe == 1) |>.getD k
  else k

/-- The members of a stripe set in pipe order, the lead first; a context without stripe mode alone (R158). -/
def State.stripeSet (s : State) (lead : Nat) : List Nat :=
  if (s.pctx lead).stripe = 1 then (List.range (wfld (wordAt (s.pctx lead).cfg 0) 7 3 + 1)).map fun i => lead + 64 * i
  else [lead]

/-- Page +`o` of the pipe of context `k`. -/
def pctxPage (k o : Nat) : Nat := pPIPE (k / 64) o

/-- Word at byte offset `o` of a parameter set. -/
def psw (ws : Words) (o : Nat) : Word := wordAt ws (o / 4)

/-- Read the 4,096 bytes of a set: it fails on a wrong VERSION, a failing CRC under CRC_EN, and poison (R217). -/
def State.psetRead (s : State) (a : Nat) : Option Words × State :=
  let r := s.busRead a 4096
  let ws := bytesWords 1024 r.1.bytes
  let bad := r.1.bad || decide (wfld (psw ws 4) 0 16 ≠ 1) ||
    (bitAt (psw ws 8) 0 && decide (crc32c (r.1.bytes.take 0xFFC) ≠ (psw ws 0xFFC).toNat))
  (if bad then none else some ws, r.2)

/-- The newest RESOLVED entry with A ≤ F (R224); the ring's oldest entry comes first. A push of this tick is not seen
(R226). -/
def psetPick (now : Nat) (ring : List PsetEntry) (f : Nat) : Option PsetEntry :=
  ring.reverse.find? fun e => e.state == 3 && serialLe e.applied f && decide (e.pushed < now)

/-- A set in force as the tags of a frame that is not its first (R227): its words, R, A, and no LATE. -/
def PsetForce.tags (p : PsetForce) : Words × Nat × Nat × Bool := (p.words, p.req, p.applied, false)

/-- The exposure of EMB_EXP in a frame's embedded data (R229): BYTES + 1 bytes from BYTE_OFFSET, every second with
STRIDE2; none while too few bytes have arrived. -/
def embExposure (emb : List Nat) (w : Word) : Option Nat :=
  let n := wfld w 16 2 + 1
  let step := if bitAt w 19 then 2 else 1
  let at_ := (List.range n).map fun i => wfld w 0 16 + step * i
  if bitAt w 20 && at_.all (· < emb.length) then
    let bs := at_.map fun i => emb.getD i 0 % 256
    some ((if bitAt w 18 then bs else bs.reverse).foldl (fun a b => a * 256 + b) 0)
  else none

/-- Absolute difference. -/
def absDiff (a b : Nat) : Nat := if a ≤ b then b - a else a - b

/-- The write list of a set: address and data of each write (*PSET layout*, WL). -/
def writeList (ws : Words) : List (Nat × Nat) :=
  (List.range (min 254 (wfld (psw ws 0xC00) 0 8))).map fun i =>
    let w := psw ws (0xC04 + 4 * i)
    (wfld w 0 16, wfld w 16 (if bitAt (psw ws 0xC00) 8 then 16 else 8))

/-- Replace the entries of a context's ring. -/
def State.modRing (s : State) (k : Nat) (f : List PsetEntry → List PsetEntry) : State :=
  s.modPctx k fun c => { c with ring := f c.ring }

/-- The decision of frame start `f` takes its entry from the ring of `k`'s lead (R224): older RESOLVED entries with A ≤ F are retired
as skipped and counted in CNT_LATE.SKIPPED. -/
def State.psetTake (s : State) (k f : Nat) : Option PsetEntry × State :=
  let lead := s.leadOf k
  match psetPick s.now (s.pctx lead).ring f with
  | none => (none, s)
  | some e =>
    let old := fun (x : PsetEntry) => x.state == 3 && serialLe x.applied f && decide (x.pushed < s.now)
    let skipped := ((s.pctx lead).ring.filter fun x => old x && x != e).length
    (some e, (s.modRing lead fun r => r.filter fun x => !old x).count (pctxPage lead 13) Off.pipeStats_CNT_LATE 16 16 skipped)

/-- The capture fabric's decision for frame `f` of the context that its stream names (R228): the entry that travels with the frame
start, and the frame's tags. A context that is OFF or HALTED, and one that takes no inline frame of this stream, has no frame start: it
keeps its ring, and the tags are those of the set in force. A failing read leaves the set in force (R217). -/
def State.psetDecide (s : State) (k f : Nat) (inline : Bool) : (Option PsetEntry × Option (Words × Nat × Nat × Bool)) × State :=
  let lead := s.leadOf k
  let c := s.pctx lead
  let old := (match c.decided with | some p => some p | none => c.force).map PsetForce.tags
  if inline && decide (c.state = 1 ∨ c.state = 2) then
    let t := s.psetTake k f
    match t.1 with
    | none => ((none, old), t.2)
    | some e =>
      let r := t.2.psetRead e.ptr
      match r.1 with
      | none => ((some e, old), r.2)
      | some ws => ((some e, some (ws, e.req, e.applied, decide (e.applied ≠ e.req))),
          r.2.modPctx lead fun x => { x with decided := some ⟨ws, e.req, e.applied⟩ })
  else ((none, old), s)

/-- Is this the ring entry that a write list serves? -/
def PsetEntry.is (e : PsetEntry) (ptr req : Nat) : Bool := e.ptr == ptr && e.req == req && e.state == 2

/-- A failed list retires its entry unapplied and counts in CNT_PSET_ERR [31:16] (R222). -/
def State.psetFail (s : State) (k ptr req : Nat) : State :=
  if (s.pctx k).ring.any (fun e => e.is ptr req) then
    (s.modRing k fun r => r.filter (fun e => !e.is ptr req)).countWrap (pctxPage k 13) Off.pipeStats_CNT_PSET_ERR 16 16 1
  else s

/-- A completed list resolves its entry with A (R222). -/
def State.psetResolve (s : State) (k ptr req a : Nat) : State :=
  s.modRing k fun r => r.map fun e => if e.is ptr req then { e with state := 3, applied := a, doneAt := s.now } else e

/-- A list that completed in the tick in which the sensor latches counts as after the latch (R226): its A is one frame later. -/
def State.psetLatched (s : State) (k : Nat) : State :=
  s.modRing k fun r => r.map fun e =>
    if e.state = 3 ∧ e.doneAt = s.now ∧ 0 < e.doneAt then { e with applied := (e.applied + 1) % 2 ^ 32 } else e

end Sys2Proof.Machine
end

