-- ==== Sys2Proof/Machine/FnCause.lean ====
section
/-!
DEFINITION. The causes of FAULT_N and their latch (R544, R547).
-/

namespace Sys2Proof.Machine

open Sys2Proof

/-- FAULTAGG SEV of a page (R493). -/
def State.severity (s : State) (p : Nat) : Nat := s.fld pFAULTAGG (Off.faultagg_SEV0 + 4 * (p / 16)) (2 * (p % 16)) 2

/-- Is a report pending in FAULTAGG PEND that had severity 3 when it was handled (R493, R544)? -/
def State.sev3Pending (s : State) : Bool :=
  s.dep.sev3.any fun p => s.bit pFAULTAGG (Off.faultagg_PEND0 + 4 * (p / 32)) (p % 32)

/-- The causes of *FAULT_N causes* that are active now. -/
def State.fnCauses (s : State) : Nat :=
  let b := fun (c : Bool) (i : Nat) => c.toNat * 2 ^ i
  let p := pSAFETY
  b s.sev3Pending 0 + b s.dep.lockstep 1 + b (s.bit p Off.safety_HB_STAT 1) 2 +
    b ((List.range 8).any fun v => s.bit p (Off.safety_VIEW_STAT + 0x10 * v) 4) 3 +
    b ((List.range 8).any fun n => decide (s.reg (pEYE n) Off.eye_SAFE_MAP ≠ 0)) 4 +
    b s.power.preTripOn 5 + b (s.bit p Off.safety_CLK_STAT 0) 6 + b (decide (s.fld p Off.safety_SUP_STAT 0 16 ≠ 0)) 7 +
    b (decide (s.fld p Off.safety_CHK_STAT 0 2 ≠ 0)) 8 + b (s.bit p Off.safety_FN_SW 0) 9

/-- FN_EN with the bits that always read 1 (R546). -/
def State.fnEnabled (s : State) : Nat := Nat.lor (s.fld pSAFETY Off.safety_FN_EN 0 11) 0x404

/-- Active, enabled causes set their latch bits, and FAULT_N asserts when the first one does: a Silk record, the snapshot with
trigger 3, PG_EVT_OUT0 and fault bit 8 (R544, R547). -/
def State.fnUpdate (s : State) : State :=
  let latch := s.fld pSAFETY Off.safety_FN_LATCH 0 11
  let want := Nat.land s.fnCauses s.fnEnabled
  let new := want - Nat.land want latch
  if new = 0 then s
  else
    let s1 := s.setReg pSAFETY Off.safety_FN_LATCH (wd (latch + new))
    if s.bit pSAFETY Off.safety_FN_STAT 0 then s1
    else
      let s2 := ((s1.setFld pSAFETY Off.safety_FN_STAT 0 2 1).countWrap pSAFETY Off.safety_FN_STAT 16 16 1).silk 0x0B01 pSAFETY new 0 0
      ((s2.snapTrigger 3).produce pSAFETY 0).raise pSAFETY 8

end Sys2Proof.Machine
end

