-- ==== Sys2Proof/Machine/Gates.lean ====
section
/-!
DEFINITION. The gate control lists of the MACs (R390 to R392): the entry in force and its end on TIME.
-/

namespace Sys2Proof.Machine

open Sys2Proof

/-- MAC `n` beside its registers. -/
def State.mac (s : State) (n : Nat) : MacPort := Map.get (fun _ => {}) s.net.mac n
/-- Update a MAC. -/
def State.modMac (s : State) (n : Nat) (f : MacPort → MacPort) : State :=
  s.onNet fun t => { t with mac := Map.put (fun _ => {}) t.mac n (f (Map.get (fun _ => {}) t.mac n)) }

/-- MAC `n`'s page and offset among the TSN pages. -/
def tsnPage (n : Nat) : Nat := pTSN (n / 2)
def tsnOff (n o : Nat) : Nat := o + 0x40 * (n % 2)

/-- A list cut or stretched to its cycle (R390): the gates of each entry and the ns it lasts. -/
def gateCycle : Nat → List (Word × Word) → List (Word × Nat)
  | _, [] => []
  | left, [e] => [(e.1, left)]
  | left, e :: es => (e.1, min left (wfld e.2 0 28)) :: gateCycle (left - wfld e.2 0 28) es

/-- The operational cycle of a MAC. -/
def State.gateOper (s : State) (n : Nat) : List (Word × Nat) :=
  gateCycle (s.reg (tsnPage n) (tsnOff n Off.tsn_OPER_CYCLE)).toNat (s.mac n).oper

/-- The entry at an offset into the cycle, and what is left of it. -/
def gateAt : Nat → Nat → List (Word × Nat) → Nat × Nat
  | i, _, [] => (i, 0)
  | i, off, e :: es => if off < e.2 then (i, e.2 - off) else gateAt (i + 1) (off - e.2) es

/-- Gates are in use (GATES_EN with a list). -/
def State.gated (s : State) (n : Nat) : Bool :=
  s.bit (tsnPage n) (tsnOff n Off.tsn_GATE_CTRL) 0 && !(s.mac n).oper.isEmpty

/-- The gates in force: transmit gates in [7:0], stream gates in [15:8]; all open without a list. -/
def State.gates (s : State) (n : Nat) : Nat :=
  if s.gated n then (((s.gateOper n)[(s.mac n).idx]?).map fun e => wfld e.1 0 16).getD 0xFFFF else 0xFFFF

/-- Put the list position to what OPER_BASE and OPER_CYCLE give at the present TIME (R390, R392), with the HOLD of the
operations passed in this cycle, and show it in OPER_STAT. -/
def State.gateSeek (s : State) (n : Nat) : State :=
  let cyc := s.gateOper n
  if cyc.isEmpty then s
  else
    let p := tsnPage n
    let base := s.reg64 p (tsnOff n Off.tsn_OPER_BASE_LO) (tsnOff n (Off.tsn_OPER_BASE_LO + 4))
    let len := max 1 (s.reg p (tsnOff n Off.tsn_OPER_CYCLE)).toNat
    let off := (((s.timeNs : Int) - (base : Int)) % (len : Int)).toNat
    let e := gateAt 0 off cyc
    let hold := (cyc.take (e.1 + 1)).foldl (fun h x => if wfld x.1 16 2 = 1 then true else if wfld x.1 16 2 = 2 then false else h)
      (s.mac n).hold
    let w := ((cyc[e.1]?).map (·.1)).getD 0
    (s.modMac n fun m => { m with idx := e.1, ends := s.timeNs + e.2, hold := hold }).setReg p (tsnOff n Off.tsn_OPER_STAT)
      (wd (e.1 % 256 + wfld w 0 16 * 256 + hold.toNat * 2 ^ 24))

/-- A step of TIME moves every list (R392). -/
def State.gatesStepped (s : State) : State :=
  (List.range 16).foldl (fun t n =>
    if (t.mac n).oper.isEmpty || !t.alive (tsnPage n) then t
    else ((t.gateSeek n).count (tsnPage n) (tsnOff n Off.tsn_CNT_GATE) 16 16 1).raise (tsnPage n) 16) s

/-- TIME in ns from which class `c`'s transmit gate is closed, looking one cycle ahead; none while it stays open. -/
def State.gateCloses (s : State) (n c : Nat) : Option Nat :=
  if !s.gated n then none
  else
    let cyc := s.gateOper n
    let i := (s.mac n).idx
    let rest := cyc.drop (i + 1) ++ cyc.take (i + 1)
    (rest.foldl (fun a e => if a.2 then a else if bitAt e.1 c then (a.1 + e.2, false) else (a.1, true)) ((s.mac n).ends, false)) |>
      fun a => if a.2 then some a.1 else none

end Sys2Proof.Machine
end

