-- ==== Sys2Proof/Machine/Elementary.lean ====
section
/-!
DEFINITION. The elementary functions of the raw pipes (R183, R185, R193, R199) in fixed point, each well inside the error that its rule
allows the hardware: what a rule bounds and does not state bit by bit is a free value of `Config` held within that bound of the value
here (notes/assumptions/172.md).
-/

namespace Sys2Proof.Machine

open Sys2Proof

/-! ## Logarithm and exponential -/

/-- `n` bits of log2 of m / 2^64, for 2^64 ≤ m < 2^65, by repeated squaring; `acc` holds the bits found. -/
def log2Bits : Nat → Nat → Nat → Nat
  | 0, _, acc => acc
  | n + 1, m, acc =>
    let q := m * m / 2 ^ 64
    if 2 ^ 65 ≤ q then log2Bits n (q / 2) (2 * acc + 1) else log2Bits n q (2 * acc)

/-- log2 of a positive fraction, within 2^-50. -/
def Q.log2 (x : Q) : Q :=
  let k := x.ilog2
  (Q.ofInt k).add ⟨log2Bits 56 (x.shift (64 - k)).floor.toNat 0, 2 ^ 56⟩

/-- 2^(2^-k) in 2^-60, for k = 1 to 48. -/
def exp2Steps : List Nat :=
  [1630477228166597776, 1371062456318104877, 1257269815929830108, 1203965700457697122, 1178167198179750970,
   1165475996665667822, 1159181754367685997, 1156047391917129430, 1154483390303177194, 1153702183144312517,
   1153311777820267002, 1153116624702523243] ++
  [1153019060527275926, 1152970281535252809, 1152945892813103188, 1152933698645489088, 1152927601610046618,
   1152924553104416454, 1152923028854624131, 1152922266730483657, 1152921885668602342, 1152921695137708915,
   1152921599872274010, 1152921552239559509] ++
  [1152921528423202996, 1152921516515024924, 1152921510560935935, 1152921507583891451, 1152921506095369212,
   1152921505351108094, 1152921504978977535, 1152921504792912255, 1152921504699879615, 1152921504653363295,
   1152921504630105135, 1152921504618476055] ++
  [1152921504612661515, 1152921504609754245, 1152921504608300610, 1152921504607573793, 1152921504607210384,
   1152921504607028680, 1152921504606937828, 1152921504606892402, 1152921504606869689, 1152921504606858332,
   1152921504606852654, 1152921504606849815]

/-- 2^f in 2^-60 for the fraction f whose bits from 2^-1 down are `bits` in 2^-48. -/
def exp2Frac (bits : Nat) : Nat :=
  (exp2Steps.zipIdx.filter fun e => bits.testBit (47 - e.2)).foldl (fun acc e => acc * e.1 / 2 ^ 60) (2 ^ 60)

/-- 2^v, within a relative 2^-40. From 2^128 on it is 2^128, which every consumer saturates. -/
def Q.exp2 (v : Q) : Q :=
  let i := v.floor
  if 128 ≤ i then Q.one.shift 128
  else (⟨exp2Frac ((v.sub (Q.ofInt i)).shift 48).floor.toNat, 2 ^ 60⟩ : Q).shift i

/-- x^p for x > 0. -/
def Q.pow (x p : Q) : Q := (p.mul x.log2).exp2

/-- log2 and exp2 as the hardware computes them: free within a relative error of 2^-20 (R183). -/
def log2Hw (x : Q) : Q := let g := x.log2; (qfun Config.log2 x).within g (g.abs.shift (-20))
def exp2Hw (v : Q) : Q := let g := v.exp2; (qfun Config.exp2 v).within g (g.shift (-20))

/-- The CDL's power: free within a relative error of 2^-18 (R185). -/
def powHw (x p : Q) : Q := let g := x.pow p; (qfun2 Config.pow x p).within g (g.shift (-18))

/-! ## Transfer functions -/

/-- The constants of BT.2100: natural logarithm of 2, and a, b and c of HLG. -/
def ln2 : Q := ⟨693147180559945309, 10 ^ 18⟩
def hlgA : Q := ⟨17883277, 10 ^ 8⟩
def hlgB : Q := ⟨28466892, 10 ^ 8⟩
def hlgC : Q := ⟨55991073, 10 ^ 8⟩

/-- The SMPTE ST 2084 inverse EOTF of a luminance in 0 to 1. -/
def pqCurve (y : Q) : Q :=
  let l := if y.n ≤ 0 then Q.zero else y.pow ⟨2610, 16384⟩
  (((⟨3424, 4096⟩ : Q).add ((⟨2413 * 32, 4096⟩ : Q).mul l)).div (Q.one.add ((⟨2392 * 32, 4096⟩ : Q).mul l))).pow ⟨2523 * 128, 4096⟩

/-- The BT.2100 HLG OETF of a value in 0 to 1. -/
def hlgCurve (e : Q) : Q :=
  if e.n ≤ 0 then Q.zero
  else if e.le ⟨1, 12⟩ then (e.mul ⟨3, 1⟩).pow ⟨1, 2⟩
  else (hlgA.mul (ln2.mul (((e.mul ⟨12, 1⟩).sub hlgB).log2))).add hlgC

/-- The power segment of the BT.709 and BT.2020 OETFs. -/
def oetfCurve (tf : Nat) (x : Q) : Q :=
  if tf = 1 then ((⟨1099, 1000⟩ : Q).mul (x.pow ⟨45, 100⟩)).sub ⟨99, 1000⟩
  else ((⟨10993, 10000⟩ : Q).mul (x.pow ⟨45, 100⟩)).sub ⟨993, 10000⟩

/-- A transfer function's curve as the hardware computes it: free within an absolute error of 2^-14 (R199). -/
def transferHw (tf : Nat) (x : Q) : Q :=
  (qfun (Config.transfer tf) x).within (match tf with | 3 => pqCurve x | 4 => hlgCurve x | _ => oetfCurve tf x) ⟨1, 2 ^ 14⟩

/-! ## Scaler kernels -/

/-- π in 2^-60. -/
def piFix : Q := ⟨3622009729038561421, 2 ^ 60⟩

/-- sin(π y) for |y| ≤ 1/2, by its series. -/
def sinSmall (y : Q) : Q :=
  let z := (Q.ofInt ((y.mul piFix).shift 48).floor).shift (-48)
  let z2 := (Q.ofInt ((z.mul z).shift 48).floor).shift (-48)
  z.mul (Q.one.sub ((z2.div ⟨6, 1⟩).mul (Q.one.sub ((z2.div ⟨20, 1⟩).mul (Q.one.sub ((z2.div ⟨42, 1⟩).mul
    (Q.one.sub ((z2.div ⟨72, 1⟩).mul (Q.one.sub (z2.div ⟨110, 1⟩))))))))))

/-- sin(π x). -/
def sinPi (x : Q) : Q :=
  let y := x.sub (Q.ofInt (2 * (x.half.add ⟨1, 2⟩).floor))
  if (⟨1, 2⟩ : Q).lt y then sinSmall (Q.one.sub y) else if y.lt ⟨-1, 2⟩ then sinSmall ((⟨-1, 1⟩ : Q).sub y) else sinSmall y

/-- sin(π x) / (π x). -/
def sinc (x : Q) : Q := if x.n = 0 then Q.one else (sinPi x).div (x.mul piFix)

/-- The kernels of *Scaler filters* at a distance in samples: 1 bilinear, 2 Catmull-Rom, 3 Lanczos-3 (R193). -/
def kernelAt (filter : Nat) (x : Q) : Q :=
  let d := x.abs
  match filter with
  | 1 => Q.zero.max (Q.one.sub d)
  | 2 =>
    if d.le Q.one then (((⟨3, 2⟩ : Q).mul d).sub ⟨5, 2⟩).mul (d.mul d) |>.add Q.one
    else if d.lt ⟨2, 1⟩ then ((((⟨-1, 2⟩ : Q).mul d).add ⟨5, 2⟩).mul d |>.sub ⟨4, 1⟩).mul d |>.add ⟨2, 1⟩
    else Q.zero
  | _ => if d.lt ⟨3, 1⟩ then (sinc d).mul (sinc (d.div ⟨3, 1⟩)) else Q.zero

end Sys2Proof.Machine
end

