-- ==== Sys2Proof/Machine/Pixel.lean ====
section
/-!
DEFINITION. The pixel arithmetic of a raw pipe as functions of a frame's input lines, its parameter set and its tables
(R137 to R142, R162 to R176, R181 to R187, R191 to R203). Stages compute exactly and round once to PF24; the LUT and the branches
round every operation to binary32 (notes/assumptions/39.md).
-/

namespace Sys2Proof.Machine

open Sys2Proof

/-! ## What a frame's pixels are computed from -/

/-- A frame seen from its context: configuration, parameter set, stage pages forced to bypass, input rows of exposure 0
with poisoned columns, companion rows by exposure (an absent row is empty), the tables of stages +1, +3, +4, the LUT,
the tone tables per branch, a base for values the spec leaves open, and the samples that a pipe SRAM lost (R176). -/
structure PipeEnv where
  cfg : Words
  ps : Words
  bypass : List Nat
  rows : List (List Nat × List Nat)
  comp : Map (List (List Nat × List Nat))
  lin : TableBank
  defs : TableBank
  shd : TableBank
  lut : TableBank
  tone : Map TableBank
  free : Nat
  dead : List (Nat × Nat × Nat) := []

/-- Fields of *Pipe context configuration*. -/
def cfgWidth (w : Words) : Nat := wfld (wordAt w 1) 0 16
def cfgHeight (w : Words) : Nat := wfld (wordAt w 1) 16 16
def cfgX0 (w : Words) : Nat := wfld (wordAt w 2) 0 16
def cfgCoreW (w : Words) : Nat := wfld (wordAt w 2) 16 16
def cfgDt (w : Words) : Nat := wfld (wordAt w 3) 0 3
def cfgPack (w : Words) : Nat := wfld (wordAt w 3) 3 2
def cfgMono (w : Words) : Bool := bitAt (wordAt w 3) 16
def cfgFill (w : Words) : Nat := wfld (wordAt w 4) 0 20
def cfgRunLines (w : Words) : Nat := wfld (wordAt w 5) 0 11
def cfgInput (w : Words) : Nat := wfld (wordAt w 0) 0 2
def cfgSafety (w : Words) : Bool := bitAt (wordAt w 0) 2
def cfgPrio (w : Words) : Nat := wfld (wordAt w 0) 3 2
def cfgStripe (w : Words) : Nat := wfld (wordAt w 0) 5 2
def cfgLayout (w : Words) : Nat := wfld (wordAt w 14) 16 2
def cfgNi (w : Words) : Nat := wfld (wordAt w 14) 18 2
/-- Companion stream of exposure `k` (1 to 3), if it is valid. -/
def cfgComp (w : Words) (k : Nat) : Option Nat :=
  let f := if k = 1 then (wordAt w 13, 0) else if k = 2 then (wordAt w 13, 16) else (wordAt w 14, 0)
  if bitAt f.1 (f.2 + 15) then some (wfld f.1 f.2 14) else none

/-- Bits per sample of a DT code of FORMAT. -/
def cfgBits (w : Words) : Nat :=
  match cfgDt w with | 0 => 10 | 1 => 12 | 2 => 14 | 3 => 16 | _ => 20

/-- First image column that the context processes, and the column after its last (R143, R159). -/
def cfgLeft (w : Words) : Nat := if cfgStripe w = 0 then 0 else cfgX0 w - 64
def cfgRight (w : Words) : Nat :=
  if cfgStripe w = 0 then cfgWidth w else min (cfgWidth w) (cfgX0 w + cfgCoreW w + 64)
/-- Processed width. -/
def cfgPw (w : Words) : Nat := cfgRight w - cfgLeft w

/-- CFA code of a position (R142). -/
def cfaCode (w : Words) (p : Nat) : Nat := wfld (wordAt w 3) (8 + 2 * p) 2
/-- A valid pattern: one code on a diagonal, two other distinct codes (R142). -/
def cfaValid (w : Words) : Bool :=
  let c := cfaCode w
  (c 0 == c 3 && c 1 != c 2 && c 1 != c 0 && c 2 != c 0) || (c 1 == c 2 && c 0 != c 3 && c 0 != c 1 && c 3 != c 1)
/-- The dense channel's code. -/
def cfaDense (w : Words) : Nat := if cfaCode w 0 = cfaCode w 3 then cfaCode w 0 else cfaCode w 1
/-- The lower sparse channel's code. -/
def cfaLow (w : Words) : Nat :=
  if cfaCode w 0 = cfaCode w 3 then min (cfaCode w 1) (cfaCode w 2) else min (cfaCode w 0) (cfaCode w 3)
/-- Position of a pixel. -/
def cfaPos (y x : Nat) : Nat := x % 2 + 2 * (y % 2)
/-- Output channel of a pixel (R174): 1 dense, 0 and 2 the sparse channels. -/
def cfaChan (w : Words) (y x : Nat) : Nat :=
  let c := cfaCode w (cfaPos y x)
  if c = cfaDense w then 1 else if c = cfaLow w then 0 else 2

/-- Column or row `i` mirrored into `n` (R141). -/
def mirror (n : Nat) (i : Int) : Nat :=
  if n ≤ 1 then 0
  else
    let m := (i % (2 * (n - 1) : Nat)).toNat
    if m < n then m else 2 * (n - 1) - m

/-- A binary32 field clamped to its range; a NaN or an infinity reads as 0.0 (R180). -/
def psF (ws : Words) (o : Nat) (lo hi : Q) : Q := Q.clamp lo hi ((f32p (psw ws o)).getD Q.zero)
/-- A binary32 field without a range. -/
def psB (ws : Words) (o : Nat) : Q := (f32p (psw ws o)).getD Q.zero
/-- A field of a set in 1/2^k. -/
def psX (ws : Words) (o lo n k : Nat) : Q := ⟨wfld (psw ws o) lo n, 2 ^ k⟩

/-- Rows 0 to n − 1 of processed columns. -/
def PipeEnv.grid {α : Type} (e : PipeEnv) (n : Nat) (f : Nat → Nat → α) : List (List α) :=
  (List.range n).map fun y => (List.range (cfgPw e.cfg)).map fun i => f y (cfgLeft e.cfg + i)

/-- A pixel of a grid at mirrored image coordinates. -/
def PipeEnv.px {α : Type} (e : PipeEnv) (d : α) (g : List (List α)) (y x : Int) : α :=
  ((g.getD (mirror (cfgHeight e.cfg) y) []).getD (mirror (cfgWidth e.cfg) x - cfgLeft e.cfg) d)

/-- Is a stage enabled: its PSET bit, and FORCE_BYPASS of its page, which a SAFETY context ignores? -/
def PipeEnv.on (e : PipeEnv) (page : Nat) (en : Bool) : Bool := en && (cfgSafety e.cfg || !e.bypass.contains page)

/-! ## Black level, linearisation and merge -/

/-- Exposures that the set merges (R164): mode 0 one, mode 2 two, mode 1 EXP_COUNT. -/
def mergeMode (ps : Words) : Nat := wfld (psw ps 0x200) 0 2
def mergeCount (ps : Words) : Nat :=
  match mergeMode ps with
  | 1 => max 1 (min 4 (wfld (psw ps 0x200) 2 3))
  | 2 => 2
  | _ => 1

/-- The merge stage's work on a frame: off when bypassed. -/
def PipeEnv.nExp (e : PipeEnv) : Nat := if e.on 2 true then mergeCount e.ps else 1

/-- The row of exposure `k` of image row `y` and its poisoned columns; none when it is absent (R165). With LAYOUT 2 a row holds the
processed columns of one exposure after another (R159). -/
def PipeEnv.row (e : PipeEnv) (k y : Nat) : Option (List Nat × List Nat) :=
  let layout := cfgLayout e.cfg
  let pick := fun i => if i < e.rows.length then e.rows[i]? else none
  if layout = 1 then (if k ≤ cfgNi e.cfg then pick ((cfgNi e.cfg + 1) * y + k) else none)
  else if layout = 2 then
    (if k ≤ cfgNi e.cfg then (pick y).map fun r =>
      (r.1.drop (k * cfgPw e.cfg), (r.2.filter (k * cfgPw e.cfg ≤ ·)).map (· - k * cfgPw e.cfg)) else none)
  else if k = 0 then pick y
  else match (Map.get (fun _ => []) e.comp k)[y]? with
    | some ([], _) => none
    | r => r

/-- The code of exposure `k` at a pixel with its poison mark: FILL where it arrived poisoned (R176); a line that never
came is open (notes/assumptions/40.md). -/
def PipeEnv.code (e : PipeEnv) (k y x : Nat) : Nat × Bool :=
  match e.row k y with
  | none => (Config.freeNat (e.free + y * 65536 + x) % 2 ^ cfgBits e.cfg, false)
  | some r =>
    let i := x - cfgLeft e.cfg
    if r.2.contains i then (cfgFill e.cfg, true) else (r.1.getD i 0 % 2 ^ cfgBits e.cfg, false)

/-- B of R162 before saturation. -/
def PipeEnv.blackRaw (e : PipeEnv) (k y x : Nat) : Int :=
  let d := (e.code k y x).1 * 2 ^ (20 - cfgBits e.cfg)
  if e.on 1 (bitAt (psw e.ps 0x100) 0) then
    let off := wfld (psw e.ps (0x104 + 4 * (4 * k + (if cfgMono e.cfg then 0 else cfaPos y x)))) 0 20
    let sc := wfld (psw e.ps (0x144 + 4 * (k / 2))) (16 * (k % 2)) 16
    (((d : Int) - off) * sc + 2 ^ 13) / 2 ^ 14
  else d

/-- B22 of R162. -/
def PipeEnv.black (e : PipeEnv) (k y x : Nat) : Int := max (-65536) (min (2 ^ 21 - 1) (e.blackRaw k y x))

/-- Word `i` of linearisation table `k`; a poisoned word is the identity's (R176). -/
def PipeEnv.linT (e : PipeEnv) (k i : Nat) : Int :=
  let j := 4097 * k + i
  if e.lin.bad.contains j then (4096 * i : Nat) else (wfld (wordAt e.lin.words j) 0 24 : Nat)

/-- y of R163 before saturation. -/
def PipeEnv.linRaw (e : PipeEnv) (k y x : Nat) : Int :=
  let b := e.black k y x
  if e.on 1 (bitAt (psw e.ps 0x14C) k) && decide (0 ≤ b) then
    let i := min 4095 (b.toNat / 256)
    let f := b - 256 * i
    e.linT k i + ((e.linT k (i + 1) - e.linT k i) * f + 128) / 256
  else 16 * b

/-- Has the SRAM of page +`page` lost the sample of a pixel (R176)? -/
def PipeEnv.lost (e : PipeEnv) (page y x : Nat) : Bool := e.dead.contains (page, y, x)

/-- L24 of R163; a sample that the SRAM of page +1 or +2 lost is 0 (R176). -/
def PipeEnv.lin24 (e : PipeEnv) (k y x : Nat) : Int :=
  if e.lost 1 y x || e.lost 2 y x then 0 else max (-(2 ^ 20)) (min (2 ^ 24 - 1) (e.linRaw k y x))

/-- RATIO[k]. -/
def PipeEnv.ratio (e : PipeEnv) (k : Nat) : Q := psX e.ps (0x204 + 4 * k) 0 24 16

/-- The noise radicand h·A·max(v, 0) + h²·B; a negative one, which has no root, is open (notes/assumptions/41.md). -/
def PipeEnv.var (e : PipeEnv) (h v : Q) : Q :=
  let r := ((h.mul (psB e.ps 0x230)).mul (v.max Q.zero)).add ((h.mul h).mul (psB e.ps 0x234))
  if r.n < 0 then (qfun Config.negVar r).abs else r

/-- A merged pixel: value, noise gain, and the pixel's mark (R176). -/
structure MergePx where
  v : Q := Q.zero
  gn : Q := Q.one
  mark : Bool := false
deriving DecidableEq, Repr

/-- A quad's merge: weights per exposure, motion, clipping, and whether every exposure is poisoned. -/
structure MergeQuad where
  ks : List Nat
  ws : List Q
  motion : Bool
  clipped : Bool
  dead : Bool
deriving DecidableEq, Repr

/-- The four pixels of the quad of a pixel. -/
def quadOf (y x : Nat) : List (Nat × Nat) :=
  let a := y / 2 * 2
  let b := x / 2 * 2
  [(a, b), (a, b + 1), (a + 1, b), (a + 1, b + 1)]

/-- Scaled sample v_k of R164. -/
def PipeEnv.scaled (e : PipeEnv) (k y x : Nat) : Q := (e.ratio k).mul ⟨e.lin24 k y x, 2 ^ 24⟩

/-- Saturation s[k] of R168. -/
def PipeEnv.knee (e : PipeEnv) (k : Nat) (m : Int) : Q :=
  let lo : Int := (wfld (psw e.ps (0x214 + 8 * k)) 0 24 : Nat)
  let hi : Int := (wfld (psw e.ps (0x218 + 8 * k)) 0 24 : Nat)
  if lo < hi then Q.clamp Q.zero Q.one ⟨m - lo, (hi - lo).toNat⟩ else if lo ≤ m then Q.one else Q.zero

/-- Weights of R168 for the exposures in order, with the weight still to give; the last takes it all. -/
def PipeEnv.weights (e : PipeEnv) (m : Nat → Int) : Q → List Nat → List Q
  | _, [] => []
  | rem, [_] => [rem]
  | rem, k :: ks => let s := e.knee k (m k); (rem.mul (Q.one.sub s)) :: e.weights m (rem.mul s) ks

/-- The motion pass of R168: it moves a weight on to the next exposure where the two disagree. -/
def PipeEnv.motionPass (e : PipeEnv) (mean : Nat → Q) : Q → List (Nat × Q) → List Q × Bool
  | _, [] => ([], false)
  | add, [(_, w)] => ([w.add add], false)
  | add, (k, w0) :: (k', w') :: rest =>
    let w := w0.add add
    let a := mean k
    let b := mean k'
    let r := e.ratio k'
    let thr := psX e.ps 0x200 8 8 4
    let d := a.sub b
    if Q.zero.lt w && Q.zero.lt w' && ((thr.mul thr).mul (e.var r b)).lt (d.mul d) then
      let t := e.motionPass mean w ((k', w') :: rest)
      (Q.zero :: t.1, true)
    else
      let t := e.motionPass mean Q.zero ((k', w') :: rest)
      (w :: t.1, t.2)

/-- The merge of a quad (R164, R167, R168, R176): exposures without a row for it do not contribute, poisoned ones have
weight 0. -/
def PipeEnv.quad (e : PipeEnv) (y x : Nat) : MergeQuad :=
  let q := quadOf y x
  let here := (List.range e.nExp).filter fun k => k == 0 || q.all fun p => (e.row k p.1).isSome
  let clean := here.filter fun k => q.all fun p => !(e.code k p.1 p.2).2
  let m := fun k => (q.map fun p => e.lin24 k p.1 p.2).foldl max (-(2 ^ 20))
  let mean := fun k => (Q.sum (q.map fun p => e.scaled k p.1 p.2)).mul ⟨1, 4⟩
  if clean = [] then ⟨[0], [Q.one], false, decide (m 0 = 2 ^ 24 - 1), true⟩
  else
    let w := e.weights m Q.one clean
    let mo := if mergeMode e.ps = 1 && bitAt (psw e.ps 0x200) 5 then e.motionPass mean Q.zero (clean.zip w) else (w, false)
    ⟨clean, mo.1, mo.2, decide (m (clean.getLastD 0) = 2 ^ 24 - 1), false⟩

/-- Is a multi-exposure merge at work? -/
def PipeEnv.merging (e : PipeEnv) : Bool :=
  e.on 2 true && (mergeMode e.ps == 1 || mergeMode e.ps == 2)

/-- The merged pixel (R164, R168). -/
def PipeEnv.merged (e : PipeEnv) (y x : Nat) : MergePx :=
  if e.merging then
    let q := e.quad y x
    let z := q.ks.zip q.ws
    { v := pf24 (Q.sum (z.map fun p => p.2.mul (e.scaled p.1 y x))),
      gn := Q.sum (z.map fun p => p.2.mul (e.ratio p.1)), mark := q.dead && (e.code 0 y x).2 }
  else if e.on 2 true then ⟨pf24 (e.scaled 0 y x), e.ratio 0, (e.code 0 y x).2⟩
  else ⟨pf24 ⟨e.lin24 0 y x, 2 ^ 24⟩, Q.one, (e.code 0 y x).2⟩

/-! ## Defect correction, shading, noise reduction -/

/-- Offsets of N(p) (R169). -/
def neighbours (w : Words) (y x : Nat) : List (Int × Int) :=
  if cfgMono w then [(-1, -1), (-1, 0), (-1, 1), (0, -1), (0, 1), (1, -1), (1, 0), (1, 1)]
  else if cfaChan w y x = 1 then [(-1, -1), (-1, 1), (1, -1), (1, 1), (0, -2), (0, 2), (-2, 0), (2, 0)]
  else [(0, -2), (0, 2), (-2, 0), (2, 0), (-2, -2), (-2, 2), (2, -2), (2, 2)]

/-- Defect entries in force (R170): (x, y, TYPE) up to the end entry, and how many were out of order or of TYPE 2. -/
def PipeEnv.defList (e : PipeEnv) : List (Nat × Nat × Nat) × Nat :=
  let n := min 65536 (wfld (psw e.ps 0x284) 0 17)
  go n 0 0
where
  /-- Entries from index `i` on, above the last accepted position. -/
  go : Nat → Nat → Nat → List (Nat × Nat × Nat) × Nat
    | 0, _, _ => ([], 0)
    | f + 1, i, last =>
      let w := wordAt e.defs.words i
      let x := wfld w 0 15
      let y := wfld w 15 15
      let t := wfld w 30 2
      if e.defs.bad.contains i then go f (i + 1) last
      else if t = 3 then ([], 0)
      else if t = 2 ∨ y * 32768 + x < last then
        let r := go f (i + 1) last
        (r.1, r.2 + 1)
      else
        let r := go f (i + 1) (y * 32768 + x)
        ((x, y, t) :: r.1, r.2)

/-- Is a pixel listed, and by a column entry? -/
def listedBy (l : List (Nat × Nat × Nat)) (y x : Nat) : Option Bool :=
  if l.any (fun d => d.2.2 == 1 && d.1 == x && decide (d.2.1 ≤ y)) then some true
  else if l.any (fun d => d.2.2 == 0 && d.1 == x && d.2.1 == y) then some false
  else none

/-- Insert in rising order. -/
def Q.insert (a : Q) : List Q → List Q
  | [] => [a]
  | b :: l => if a.le b then a :: b :: l else b :: Q.insert a l

/-- Mean of the middle one or two values. -/
def Q.middle (l : List Q) : Q :=
  let s := l.foldr Q.insert []
  let n := s.length
  if n % 2 = 1 then s.getD (n / 2) Q.zero else ((s.getD (n / 2 - 1) Q.zero).add (s.getD (n / 2) Q.zero)).half

/-- A pixel after defect correction with what happened to it: 0 kept, 1 static, 2 dynamic (R170, R171, R176). -/
structure DefPx where
  v : Q := Q.zero
  gn : Q := Q.one
  kind : Nat := 0
  mark : Bool := false
deriving DecidableEq, Repr

/-- Defect correction of the merged grid. -/
def PipeEnv.defect (e : PipeEnv) (g : List (List MergePx)) (n : Nat) : List (List DefPx) :=
  let stat := e.on 3 (bitAt (psw e.ps 0x280) 0)
  let dyn := e.on 3 (bitAt (psw e.ps 0x280) 1)
  let l := if stat then (e.defList).1 else []
  let marked := fun (y x : Nat) => (e.px {} g y x).mark || (listedBy l y x).isSome
  e.grid n fun y x =>
    let p := e.px {} g y x
    let nb := neighbours e.cfg y x
    let at_ := fun (o : Int × Int) =>
      (mirror (cfgHeight e.cfg) (y + o.1), mirror (cfgWidth e.cfg) (x + o.2))
    let val := fun (c : Nat × Nat) => (e.px {} g c.1 c.2).v
    if marked y x then
      let offs := if listedBy l y x = some true then [(0, -2), (0, 2)] else nb
      let good := (offs.map at_).filter fun c => !marked c.1 c.2
      if good = [] then ⟨p.v, p.gn, 0, p.mark⟩ else ⟨pf24 (Q.middle (good.map val)), p.gn, 1, p.mark⟩
    else if dyn then
      let vs := (nb.map at_).map val
      let hi := vs.foldl Q.max (vs.headD Q.zero)
      let lo := vs.foldl Q.min (vs.headD Q.zero)
      let k := psX e.ps 0x280 8 8 4
      let far := fun (d v : Q) => Q.zero.lt d && ((k.mul k).mul (e.var p.gn v)).lt (d.mul d)
      if far (p.v.sub hi) hi then ⟨hi, p.gn, 2, false⟩
      else if far (lo.sub p.v) lo then ⟨lo, p.gn, 2, false⟩
      else ⟨p.v, p.gn, 0, false⟩
    else ⟨p.v, p.gn, 0, false⟩

/-- A node gain in U3.13; every gain of a node with a poisoned word is 1.0 (R172, R176). -/
def PipeEnv.node (e : PipeEnv) (gx i j c : Nat) : Q :=
  let k := 2 * (j * gx + i)
  if e.shd.bad.contains k || e.shd.bad.contains (k + 1) then Q.one
  else ⟨wfld (wordAt e.shd.words (k + c / 2)) (16 * (c % 2)) 16, 2 ^ 13⟩

/-- Shading gain of a pixel (R172). -/
def PipeEnv.gain (e : PipeEnv) (y x : Nat) : Q :=
  if e.on 4 (bitAt (psw e.ps 0x2C0) 0) then
    let gx := wfld (psw e.ps 0x2C0) 8 7
    let gy := wfld (psw e.ps 0x2C0) 16 7
    let cw := wfld (psw e.ps 0x2C4) 0 13
    let ch := wfld (psw e.ps 0x2C4) 16 13
    let c := if cfgMono e.cfg then 0 else cfaPos y x
    let i := min (x / cw) (gx - 2)
    let j := min (y / ch) (gy - 2)
    let frac := fun (a b : Nat) => (⟨(Q.round ⟨(a * 2 ^ 16 : Nat), b⟩), 2 ^ 16⟩ : Q)
    let wx := frac (x - i * cw) cw
    let wy := frac (y - j * ch) ch
    let mix := fun (a b w : Q) => a.add (w.mul (b.sub a))
    mix (mix (e.node gx i j c) (e.node gx (i + 1) j c) wx) (mix (e.node gx i (j + 1) c) (e.node gx (i + 1) (j + 1) c) wx) wy
  else Q.one

/-- A shaded pixel: value, and h = g × G_n of R173. -/
structure ShadePx where
  v : Q := Q.zero
  h : Q := Q.one
deriving DecidableEq, Repr

/-- Lens shading of a grid (R172). -/
def PipeEnv.shade (e : PipeEnv) (g : List (List DefPx)) (n : Nat) : List (List ShadePx) :=
  let en := e.on 4 (bitAt (psw e.ps 0x2C0) 0)
  e.grid n fun y x =>
    let p := e.px {} g y x
    if en then let k := e.gain y x; ⟨pf24 (p.v.mul k), k.mul p.gn⟩ else ⟨p.v, p.gn⟩

/-- Raw noise reduction of a grid (R173). -/
def PipeEnv.denoise (e : PipeEnv) (g : List (List ShadePx)) (n : Nat) : List (List Q) :=
  let en := e.on 5 (bitAt (psw e.ps 0x300) 0)
  let k := psX e.ps 0x300 8 8 4
  let str := (psX e.ps 0x300 16 9 8).min Q.one
  e.grid n fun y x =>
    let p := e.px {} g y x
    if !en then p.v
    else
      let t2 := (k.mul k).mul (e.var p.h p.v)
      if t2.n = 0 then p.v
      else
        let ds := (neighbours e.cfg y x).map fun o => ((e.px {} g (y + o.1) (x + o.2)).v).sub p.v
        let ws := ds.map fun d => Q.zero.max (Q.one.sub ((d.mul d).div t2))
        let sum := Q.sum ((ds.zip ws).map fun z => z.1.mul z.2)
        pf24 (p.v.add ((str.mul sum).div (Q.one.add (Q.sum ws))))

/-! ## Demosaic -/

/-- Three channels. -/
structure Px3 where
  a : Q := Q.zero
  b : Q := Q.zero
  c : Q := Q.zero
deriving DecidableEq, Repr

def Px3.map (p : Px3) (f : Q → Q) : Px3 := ⟨f p.a, f p.b, f p.c⟩
def Px3.mapI (p : Px3) (f : Nat → Q → Q) : Px3 := ⟨f 0 p.a, f 1 p.b, f 2 p.c⟩
def Px3.any (p : Px3) (f : Q → Bool) : Bool := f p.a || f p.b || f p.c
def Px3.get (p : Px3) (i : Nat) : Q := if i = 0 then p.a else if i = 1 then p.b else p.c
def Px3.top (p : Px3) : Q := (p.a.max p.b).max p.c

/-- The dense value at a site (R175). -/
def PipeEnv.dense (e : PipeEnv) (g : List (List Q)) (y x : Int) : Q :=
  let p := fun (dy dx : Int) => e.px Q.zero g (y + dy) (x + dx)
  if cfaChan e.cfg (mirror (cfgHeight e.cfg) y) (mirror (cfgWidth e.cfg) x) = 1 then p 0 0
  else
    let c2 := (p 0 0).add (p 0 0)
    let eh := (c2.sub (p 0 (-2))).sub (p 0 2)
    let ev := (c2.sub (p (-2) 0)).sub (p 2 0)
    let gh := ((p 0 (-1)).sub (p 0 1)).abs.add eh.abs
    let gv := ((p (-1) 0).sub (p 1 0)).abs.add ev.abs
    let dh := ((p 0 (-1)).add (p 0 1)).half.add eh.half.half
    let dv := ((p (-1) 0).add (p 1 0)).half.add ev.half.half
    let t := Q.clamp ⟨64, 64⟩ ⟨255, 64⟩ (psX e.ps 0x304 0 8 6)
    if (gh.mul t).lt gv then dh
    else if (gv.mul t).lt gh then dv
    else if (gh.add gv).n = 0 then (dh.add dv).half
    else ((dh.mul gv).add (dv.mul gh)).div (gh.add gv)

/-- A sparse channel at a site (R175). -/
def PipeEnv.sparse (e : PipeEnv) (g : List (List Q)) (ch : Nat) (y x : Nat) : Q :=
  let chan := fun (dy dx : Int) =>
    cfaChan e.cfg (mirror (cfgHeight e.cfg) (y + dy)) (mirror (cfgWidth e.cfg) (x + dx))
  if chan 0 0 = ch then e.px Q.zero g y x
  else
    let offs : List (Int × Int) :=
      if chan 0 0 = 1 then (if chan 0 1 = ch then [(0, -1), (0, 1)] else [(-1, 0), (1, 0)])
      else [(-1, -1), (-1, 1), (1, -1), (1, 1)]
    let ds := offs.map fun o => (e.px Q.zero g (y + o.1) (x + o.2)).sub (e.dense g (y + o.1) (x + o.2))
    (e.dense g y x).add ((Q.sum ds).div (Q.ofNat ds.length))

/-- Demosaic of a grid (R174). -/
def PipeEnv.demosaic (e : PipeEnv) (g : List (List Q)) (n : Nat) : List (List Px3) :=
  e.grid n fun y x =>
    if cfgMono e.cfg then let v := e.px Q.zero g y x; ⟨v, v, v⟩
    else ⟨pf24 (e.sparse g 0 y x), pf24 (e.dense g y x), pf24 (e.sparse g 2 y x)⟩

/-! ## Trunk -/

/-- ACEScct encoding (R182, R183). -/
def cctEncode (lin : Q) : Q :=
  if lin.le ⟨78125, 10000000⟩ then ((⟨105402377416545, 10000000000000⟩ : Q).mul lin).add ⟨729055341958355, 10000000000000000⟩
  else ((log2Hw lin).add ⟨972, 100⟩).div ⟨1752, 100⟩

/-- ACEScct decoding (R182, R183). -/
def cctDecode (v : Q) : Q :=
  if v.le ⟨155251141552511, 1000000000000000⟩ then
    (v.sub ⟨729055341958355, 10000000000000000⟩).div ⟨105402377416545, 10000000000000⟩
  else exp2Hw ((v.mul ⟨1752, 100⟩).sub ⟨972, 100⟩)

/-- α of R181. -/
def mtxAlpha (ps : Words) : Q :=
  let cl := fun n => max 1000 (min 25000 n)
  let a := cl (wfld (psw ps 0x344) 0 16)
  let b := cl (wfld (psw ps 0x344) 16 16)
  let t := cl (wfld (psw ps 0x348) 0 16)
  if a = b then Q.zero
  else
    let r := fun (n : Nat) => (⟨1000000, n⟩ : Q)
    Q.clamp Q.zero Q.one (((r a).sub (r t)).div ((r a).sub (r b)))

/-- A matrix entry range. -/
def q16 : Q := ⟨16, 1⟩

/-- The matrix stage before ACEScct (R181). -/
def matLin (ps : Words) (p : Px3) : Px3 :=
  let w := p.mapI fun i v => v.mul (psF ps (0x34C + 4 * i) Q.zero ⟨64, 1⟩)
  let al := mtxAlpha ps
  let m := fun i =>
    let a := psF ps (0x358 + 4 * i) q16.neg q16
    if bitAt (psw ps 0x340) 1 then a.add (al.mul ((psF ps (0x37C + 4 * i) q16.neg q16).sub a)) else a
  let row := fun r => ((m (3 * r)).mul w.a).add (((m (3 * r + 1)).mul w.b).add ((m (3 * r + 2)).mul w.c))
  let ex := psF ps 0x3A0 Q.zero ⟨256, 1⟩
  ⟨ex.mul (row 0), ex.mul (row 1), ex.mul (row 2)⟩

/-- The matrix stage (R139, R181, R183): the linear result saturates, the output is rounded once. -/
def mtxStage (ps : Words) (p : Px3) : Px3 :=
  let l := (matLin ps p).map (Q.clamp ⟨-8192, 1⟩ ⟨8192, 1⟩)
  if bitAt (psw ps 0x340) 2 then l.map fun v => pf24 (cctEncode v) else l.map pf24

/-- ASC CDL of a pixel (R184). -/
def cdl (ps : Words) (p : Px3) : Px3 :=
  let clampOn := bitAt (psw ps 0x400) 1
  let cl := fun (v : Q) => if clampOn then Q.clamp Q.zero Q.one v else v
  let v := p.mapI fun i x =>
    let y := cl ((x.mul (psF ps (0x404 + 4 * i) Q.zero q16)).add (psF ps (0x410 + 4 * i) ⟨-8, 1⟩ ⟨8, 1⟩))
    if Q.zero.lt y then powHw y (psF ps (0x41C + 4 * i) ⟨1, 16⟩ q16) else y
  let luma := ((v.a.mul ⟨2126, 10000⟩).add (v.b.mul ⟨7152, 10000⟩)).add (v.c.mul ⟨722, 10000⟩)
  let sat := psF ps 0x428 Q.zero ⟨4, 1⟩
  v.map fun x => cl (luma.add (sat.mul (x.sub luma)))

/-- LUT.SIZE, LUT.PTR clamped to its 64-byte alignment, and whether the LUT is usable for a set (R180). -/
def lutSize (ps : Words) : Nat := wfld (psw ps 0x42C) 8 8
def lutPtr (ps : Words) : Nat := dwordAt ps (0x430 / 4) / 64 * 64
def lutOk (ps : Words) : Bool :=
  (lutSize ps == 17 || lutSize ps == 33 || lutSize ps == 65) &&
    (List.range 3).all fun i => (psB ps (0x43C + 4 * i)).lt (psB ps (0x448 + 4 * i))
def lutOn (ps : Words) : Bool := bitAt (psw ps 0x42C) 0 && lutOk ps

/-- Channel `ch` of a LUT node; a poisoned node is the identity's (R186, R190). -/
def PipeEnv.lutNode (e : PipeEnv) (r g b ch : Nat) : Q :=
  let s := lutSize e.ps
  let k := 2 * (r + s * g + s * s * b)
  let idx := if ch = 0 then r else if ch = 1 then g else b
  let lo := psB e.ps (0x43C + 4 * ch)
  if e.lut.bad.contains k || e.lut.bad.contains (k + 1) then
    lo.add (((psB e.ps (0x448 + 4 * ch)).sub lo).mul ⟨idx, s - 1⟩)
  else f16q (wfld (wordAt e.lut.words (k + ch / 2)) (16 * (ch % 2)) 16)

/-- Is an input channel outside the LUT domain? -/
def lutClamped (ps : Words) (i : Nat) (x : Q) : Bool :=
  x.lt (psB ps (0x43C + 4 * i)) || (psB ps (0x448 + 4 * i)).lt x

/-- Cell and fraction of a channel (R187). -/
def lutCell (ps : Words) (i : Nat) (x : Q) : Nat × Q :=
  let s := lutSize ps
  let lo := psB ps (0x43C + 4 * i)
  let u := (Q.clamp Q.zero Q.one ((x.subF lo).divF ((psB ps (0x448 + 4 * i)).subF lo))).mulF ⟨(s - 1 : Nat), 1⟩
  let c := min u.floor.toNat (s - 2)
  (c, ⟨((u.sub (Q.ofNat c)).mul ⟨65536, 1⟩).round, 65536⟩)

/-- Tetrahedral interpolation (R187). -/
def PipeEnv.lut3 (e : PipeEnv) (p : Px3) : Px3 :=
  let r := lutCell e.ps 0 p.a
  let g := lutCell e.ps 1 p.b
  let b := lutCell e.ps 2 p.c
  let out := fun ch =>
    let cc := fun (i j k : Nat) => e.lutNode (r.1 + i) (g.1 + j) (b.1 + k) ch
    let lerp := fun (f1 : Q) (n1 : Q) (f2 : Q) (n2 : Q) (f3 : Q) =>
      (((cc 0 0 0).addF (f1.mulF (n1.subF (cc 0 0 0)))).addF (f2.mulF (n2.subF n1))).addF (f3.mulF ((cc 1 1 1).subF n2))
    let fr := r.2
    let fg := g.2
    let fb := b.2
    if fg.le fr && fb.le fg then lerp fr (cc 1 0 0) fg (cc 1 1 0) fb
    else if fb.le fr && fg.le fb then lerp fr (cc 1 0 0) fb (cc 1 0 1) fg
    else if fr.le fb && fg.le fr then lerp fb (cc 0 0 1) fr (cc 1 0 1) fg
    else if fr.le fg && fb.le fr then lerp fg (cc 0 1 0) fr (cc 1 1 0) fb
    else if fb.le fg && fr.le fb then lerp fg (cc 0 1 0) fb (cc 0 1 1) fr
    else lerp fb (cc 0 0 1) fg (cc 0 1 1) fr
  ⟨pf24 (out 0), pf24 (out 1), pf24 (out 2)⟩

/-- The trunk stages on a pixel (R179). -/
def PipeEnv.trunk (e : PipeEnv) (p0 : Px3) : Px3 :=
  let p1 := if e.on 7 (bitAt (psw e.ps 0x340) 0) then mtxStage e.ps p0 else p0
  let p2 := if e.on 8 (bitAt (psw e.ps 0x400) 0) then (cdl e.ps p1).map pf24 else p1
  if e.on 8 (lutOn e.ps) then e.lut3 p2 else p2

/-! ## The image of a frame -/

/-- Grids of a frame's first `n` rows at the taps of the statistics, and the trunk output. -/
structure PipeImage where
  merged : List (List MergePx)
  fixed : List (List DefPx)
  shaded : List (List ShadePx)
  clean : List (List Q)
  rgb : List (List Px3)
  trunk : List (List Px3)

/-- A stage's input grid with the samples that the stage's SRAM lost replaced (R176). -/
def PipeEnv.lose {α : Type} (e : PipeEnv) (page : Nat) (zero : α → α) (g : List (List α)) : List (List α) :=
  if e.dead.all fun d => d.1 != page then g
  else g.zipIdx.map fun r => r.1.zipIdx.map fun p => if e.lost page r.2 (cfgLeft e.cfg + p.2) then zero p.1 else p.1

/-- All stages on the first `n` rows. -/
def PipeEnv.image (e : PipeEnv) (n : Nat) : PipeImage :=
  let m := e.grid n e.merged
  let d := e.defect (e.lose 3 (fun p => { p with v := Q.zero }) m) n
  let s := e.shade (e.lose 4 (fun p => { p with v := Q.zero }) d) n
  let c := e.lose 6 (fun _ => Q.zero) (e.denoise (e.lose 5 (fun p => { p with v := Q.zero }) s) n)
  let r := e.lose 7 (fun _ => {}) (e.demosaic c n)
  ⟨m, d, s, c, r, r.map fun row => row.map e.trunk⟩

/-- VSUP (R137). -/
def PipeEnv.vsup (e : PipeEnv) : Nat :=
  (if e.merging then 1 else 0) + (if e.on 3 (decide (wfld (psw e.ps 0x280) 0 2 ≠ 0)) then 2 else 0) +
    (if e.on 5 (bitAt (psw e.ps 0x300) 0) then 2 else 0) + (if cfgMono e.cfg then 0 else 2)

/-- Is defect correction at work on a frame: its set enables it, or a sample of the frame is poisoned or lost (R176)? -/
def PipeEnv.defects (e : PipeEnv) : Bool :=
  e.on 3 (decide (wfld (psw e.ps 0x280) 0 2 ≠ 0))

/-- Trunk rows that have left demosaic after `n` input lines: VSUP lines behind (R137). A frame that is read without defect correction
but has marked samples lags their two lines more (R176). Where R175's formulas reach a line that has not come, the row waits for it
(notes/assumptions/42.md). -/
def PipeEnv.emitted (e : PipeEnv) (n : Nat) : Nat :=
  if cfgHeight e.cfg ≤ n then cfgHeight e.cfg
  else
    let marks := e.rows.any (fun r => !r.2.isEmpty) || e.comp.any (fun c => c.2.any fun r => !r.2.isEmpty)
    let m := n - (e.vsup + if marks && !e.defects then 2 else 0)
    if cfgMono e.cfg || (e.merging && n % 2 == 0) then m else m - 1

/-- Input lines by which the input of page +`page` lags behind the pipe's (R137). -/
def PipeEnv.lagTo (e : PipeEnv) (page : Nat) : Nat :=
  (if 3 ≤ page ∧ e.merging = true then 1 else 0) + (if 4 ≤ page ∧ e.defects = true then 2 else 0) +
    (if 6 ≤ page ∧ e.on 5 (bitAt (psw e.ps 0x300) 0) = true then 2 else 0) + (if 7 ≤ page ∧ cfgMono e.cfg = false then 2 else 0)

/-- The lines that each stage keeps between runs, as (page, lines): L in all (R137). -/
def PipeEnv.heldBy (e : PipeEnv) : List (Nat × Nat) :=
  [(2, if e.merging then 1 else 0), (3, if e.defects then 4 else 0),
   (5, if e.on 5 (bitAt (psw e.ps 0x300) 0) then 4 else 0), (6, 4)]

/-- L, the held lines (R137). -/
def PipeEnv.held (e : PipeEnv) : Nat := (e.heldBy.map (·.2)).foldl (· + ·) 0

/-! ## Output branches -/

/-- Fields of a branch descriptor (*Branch descriptor*). -/
def brEn (d : Words) : Bool := bitAt (wordAt d 0) 0
def brFormat (d : Words) : Nat := wfld (wordAt d 0) 1 3
def brBand (d : Words) : Bool := bitAt (wordAt d 0) 4
def brOutW (d : Words) : Nat := wfld (wordAt d 1) 0 16
def brOutH (d : Words) : Nat := wfld (wordAt d 1) 16 16
def brBinX (d : Words) : Nat := 2 ^ wfld (wordAt d 2) 0 2
def brBinY (d : Words) : Nat := 2 ^ wfld (wordAt d 2) 2 2
def brFilter (d : Words) : Nat := wfld (wordAt d 2) 4 2
def brAlpha (d : Words) : Nat := wfld (wordAt d 2) 6 8
def brStride (d : Words) : Nat := (wordAt d 5).toNat
/-- Bits of a sample code of a format. -/
def brBits (d : Words) : Nat := match brFormat d with | 1 | 3 | 5 => 10 | 6 => 12 | _ => 8
/-- Is the format a YCbCr one? -/
def brYcc (d : Words) : Bool := decide (3 ≤ brFormat d ∧ brFormat d ≤ 6)

/-- Bytes of a line of plane `p`, and how many lines it has, for each plane of a format (R203). -/
def brPlanes (d : Words) : List (Nat × Nat) :=
  let w := brOutW d
  let h := brOutH d
  match brFormat d with
  | 0 => [(8 * w, h)]
  | 1 | 2 => [(4 * w, h)]
  | 3 => [(2 * w, h), (2 * w, h / 2)]
  | 4 => [(w, h), (w, h / 2)]
  | 5 => [(2 * w, h), (2 * w, h)]
  | 6 => [(2 * w, h), (2 * w, h), (2 * w, h)]
  | _ => [(3 * w, h)]

/-- Vertical taps (R193). -/
def brTapsV (d : Words) : Nat := match brFilter d with | 0 => 1 | 1 => 2 | 2 => 4 | _ => 6
/-- Horizontal taps (R193) at ratio `r`. -/
def brTapsH (d : Words) (r : Q) : Nat :=
  let c := if r.le Q.one then 1 else (-r.neg.floor).toNat
  match brFilter d with | 0 => 1 | 1 => 2 * c | 2 => 4 * c | _ => 6 * c

/-- A valid crop for a branch of an image (R192): inside the image, even, ratios from 1/4 to 2. -/
def cropOk (cfg d : Words) (x y w h : Nat) : Bool :=
  let ok := fun (n b o : Nat) => decide (b * o ≤ 4 * n) && decide (n ≤ 2 * b * o)
  decide (x + w ≤ cfgWidth cfg) && decide (y + h ≤ cfgHeight cfg) && decide (w % 2 = 0 ∧ h % 2 = 0) &&
    decide (0 < w ∧ 0 < h) && ok w (brBinX d) (brOutW d) && ok h (brBinY d) (brOutH d)

/-- A branch's view of a frame: descriptor, branch index and the crop in force. -/
structure BranchEnv where
  b : Nat
  d : Words
  cx : Nat
  cy : Nat
  cw : Nat
  ch : Nat

/-- Ratios of the axes (R192). -/
def BranchEnv.rx (v : BranchEnv) : Q := ⟨v.cw, brBinX v.d * brOutW v.d⟩
def BranchEnv.ry (v : BranchEnv) : Q := ⟨v.ch, brBinY v.d * brOutH v.d⟩

/-- Centre of output sample `j` (R193). -/
def centre (r : Q) (j : Nat) : Q := ((⟨2 * j + 1, 2⟩ : Q).mul r).sub ⟨1, 2⟩

/-- First tap of a centre. -/
def firstTap (taps : Nat) (c : Q) : Int :=
  if taps = 1 then (c.add ⟨1, 2⟩).floor else c.floor - (taps / 2 : Nat) + 1

/-- Coefficients in S1.14, which sum to exactly 1.0 (R193): the kernel at the centre's phase of 64, widened by `r`; each is free within
one unit of the normalised kernel, and the middle one takes the rest (notes/assumptions/172.md). -/
def scaleCoefs (filter taps : Nat) (r c : Q) : List Q :=
  if taps = 1 then [Q.one]
  else
    let ph := ((c.sub ⟨c.floor, 1⟩).mul ⟨64, 1⟩).floor.toNat
    let mid := taps / 2 - 1
    let w := (List.range taps).map fun (t : Nat) =>
      ((kernelAt filter (((Q.ofInt ((t : Int) - mid)).sub ⟨ph, 64⟩).div r)).shift 40).floor
    let total := (w.foldl (· + ·) 0).toNat
    let coef := fun (t : Nat) =>
      let g := (⟨w.getD t 0 * 2 ^ 14, total⟩ : Q).roundEven
      let f := Config.scaleCoef filter (r.mul ⟨65536, 1⟩).floor.toNat ph t
      if (f - g).natAbs ≤ 1 then f else g
    let others := (List.range taps).map fun t => if t = mid then 0 else coef t
    (others.set mid (2 ^ 14 - others.foldl (· + ·) 0)).map fun (n : Int) => (⟨n, 2 ^ 14⟩ : Q)

/-- The last trunk line that output line `j` reads. -/
def BranchEnv.lastTrunk (v : BranchEnv) (h j : Nat) : Nat :=
  let t := brTapsV v.d
  let f := firstTap t (centre v.ry j)
  let rows := (List.range t).flatMap fun (i : Nat) => (List.range (brBinY v.d)).map fun (k : Nat) =>
    mirror h ((v.cy : Int) + (f + i) * brBinY v.d + k)
  rows.foldl max 0

/-- A binned pixel at binned coordinates (R191 steps 1 to 3). -/
def BranchEnv.binned (v : BranchEnv) (e : PipeEnv) (g : List (List Px3)) (y x : Int) : Px3 :=
  let dec := fun (p : Px3) => if bitAt (psw e.ps 0x340) 2 then p.map fun c => b32 (cctDecode c) else p
  let ps := (List.range (brBinY v.d)).flatMap fun (i : Nat) => (List.range (brBinX v.d)).map fun (j : Nat) =>
    dec (e.px {} g ((v.cy : Int) + y * brBinY v.d + i) ((v.cx : Int) + x * brBinX v.d + j))
  let avg := fun (f : Px3 → Q) => (Q.sumF (ps.map f)).divF (Q.ofNat ps.length)
  ⟨avg (·.a), avg (·.b), avg (·.c)⟩

/-- A scaled pixel (R193). -/
def BranchEnv.scaled (v : BranchEnv) (e : PipeEnv) (g : List (List Px3)) (j i : Nat) : Px3 :=
  let th := brTapsH v.d v.rx
  let tv := brTapsV v.d
  let xc := centre v.rx i
  let yc := centre v.ry j
  let fx := firstTap th xc
  let fy := firstTap tv yc
  let wx := scaleCoefs (brFilter v.d) th (Q.one.max v.rx) xc
  let wy := scaleCoefs (brFilter v.d) tv Q.one yc
  let sum := fun (f : Px3 → Q) => Q.sumF ((List.range tv).map fun a => (wy.getD a Q.zero).mulF
    (Q.sumF ((List.range th).map fun b => (wx.getD b Q.zero).mulF (f (v.binned e g (fy + a) (fx + b))))))
  ⟨sum (·.a), sum (·.b), sum (·.c)⟩

/-- Base of a set's branch block. -/
def brBase (b : Nat) : Nat := 0x480 + 0x80 * b

/-- Output matrix (R196). -/
def omtx (ps : Words) (b : Nat) (p : Px3) : Px3 :=
  let m := fun i => psF ps (brBase b + 0x08 + 4 * i) q16.neg q16
  let row := fun r => (((m (3 * r)).mulF p.a).addF ((m (3 * r + 1)).mulF p.b)).addF ((m (3 * r + 2)).mulF p.c)
  ⟨row 0, row 1, row 2⟩

/-- THR and LIM of a branch (R180): a LIM not above THR is clamped to the next binary32 value above 1.0's spacing. -/
def gamutThr (ps : Words) (b : Nat) : Q := psF ps (brBase b + 0x30) ⟨1, 2⟩ Q.one
def gamutLim (ps : Words) (b : Nat) : Q :=
  let l := psB ps (brBase b + 0x34)
  if (gamutThr ps b).lt l then l else (gamutThr ps b).add (Q.one.shift (-23))

/-- Gamut mapping (R197). -/
def gamut (ps : Words) (b : Nat) (p : Px3) : Px3 :=
  match wfld (psw ps (brBase b + 0x2C)) 0 2 with
  | 1 => p.map (Q.max Q.zero)
  | 2 =>
    let ach := p.top
    if Q.zero.lt ach then
      let thr := gamutThr ps b
      p.map fun c =>
        let d := (ach.subF c).divF ach
        let k := d.subF thr
        let d' := thr.addF (k.divF (Q.one.addF (k.divF ((gamutLim ps b).subF thr))))
        if thr.lt d then ach.subF (d'.mulF ach) else c
    else ⟨Q.zero, Q.zero, Q.zero⟩
  | _ => p

/-- The tone table at x (R198); a poisoned entry is that of the identity curve, 2^(i / 32 − 16). -/
def toneCurve (t : TableBank) (x : Q) : Q :=
  let entry := fun (i : Nat) => if t.bad.contains (i / 2) then b32 (⟨(i : Int) - 512, 32⟩ : Q).exp2
    else f16q (wfld (wordAt t.words (i / 2)) (16 * (i % 2)) 16)
  if x.n ≤ 0 then x
  else if x.le ⟨1, 65536⟩ then (x.mulF (entry 0)).mulF ⟨65536, 1⟩
  else
    let u := ((Q.clamp ⟨-16, 1⟩ ⟨16, 1⟩ (b32 x.log2)).addF ⟨16, 1⟩).mulF ⟨32, 1⟩
    let i := min u.floor.toNat 1023
    (entry i).addF ((u.subF (Q.ofNat i)).mulF ((entry (i + 1)).subF (entry i)))

/-- Tone step (R198). -/
def PipeEnv.tonePx (e : PipeEnv) (b : Nat) (p : Px3) : Px3 :=
  let t := Map.get (fun _ => {}) e.tone b
  match wfld (psw e.ps (brBase b + 0x2C)) 2 2 with
  | 1 => p.map (toneCurve t)
  | 2 =>
    let m := p.top
    if m.n = 0 then p else let k := (toneCurve t m).divF m; p.map fun c => c.mulF k
  | _ => p

/-- Transfer function on a value (R199). -/
def transferFn (tf : Nat) (scale x : Q) : Q :=
  match tf with
  | 1 | 2 =>
    let a := x.abs
    let knee : Q := if tf = 1 then ⟨18, 1000⟩ else ⟨181, 10000⟩
    let r := if a.lt knee then a.mulF ⟨9, 2⟩ else b32 (transferHw tf a)
    if x.n < 0 then r.neg else r
  | 3 => if x.n < 0 then Q.zero else b32 (transferHw 3 ((Q.clamp Q.zero Q.one ((x.mulF scale).divF ⟨10000, 1⟩))))
  | 4 => if x.n < 0 then Q.zero else b32 (transferHw 4 (Q.clamp Q.zero Q.one (x.mulF scale)))
  | 5 => b32 (cctEncode x)
  | _ => x

/-- Steps 4 to 8 of a branch pixel, and whether the gamut step changed it (R191, R197); a pixel that the branch SRAM lost is linear 0
(R212). -/
def BranchEnv.pixel (v : BranchEnv) (e : PipeEnv) (g : List (List Px3)) (lost : List Nat) (j i : Nat) : Px3 × Bool :=
  let p := omtx e.ps v.b (if lost.contains i then {} else v.scaled e g j i)
  let q := gamut e.ps v.b p
  let t := e.tonePx v.b q
  let tf := wfld (psw e.ps (brBase v.b + 0x2C)) 4 3
  let sc := psB e.ps (brBase v.b + 0x44)
  (t.map (transferFn tf sc), wfld (psw e.ps (brBase v.b + 0x2C)) 0 2 == 2 && !(p.a.eq q.a && p.b.eq q.b && p.c.eq q.c))

/-- YCbCr of a pixel: Y, Cb, Cr (R200). -/
def toYcc (bt2020 : Bool) (p : Px3) : Px3 :=
  let kr : Q := if bt2020 then ⟨2627, 10000⟩ else ⟨2126, 10000⟩
  let kb : Q := if bt2020 then ⟨593, 10000⟩ else ⟨722, 10000⟩
  let kg := (Q.one.sub kr).sub kb
  let y := ((kr.mulF p.a).addF (kg.mulF p.b)).addF (kb.mulF p.c)
  let c := fun (x k : Q) => (x.subF y).divF (b32 ((Q.one.sub k).add (Q.one.sub k)))
  ⟨y, c p.c kb, c p.a kr⟩

/-- Quantisation to N bits with the clip mark (R201). -/
def quantise (n : Nat) (narrow chroma : Bool) (v : Q) : Nat × Bool :=
  let lo : Int := if narrow then ((2 ^ (n - 8) : Nat) : Int) else 0
  let hi : Int := ((2 ^ n : Nat) : Int) - 1 - lo
  let x : Q :=
    if narrow then
      ((if chroma then (v.mulF ⟨224, 1⟩).addF ⟨128, 1⟩ else (v.mulF ⟨219, 1⟩).addF ⟨16, 1⟩)).mulF ⟨(2 ^ (n - 8) : Nat), 1⟩
    else (v.mulF ⟨(2 ^ n - 1 : Nat), 1⟩).addF (if chroma then ⟨(2 ^ (n - 1) : Nat), 1⟩ else Q.zero)
  let r := x.round
  ((max lo (min hi r)).toNat, decide (r < lo ∨ hi < r))

/-- Codes of a pixel's channels with the clip mark; binary16 is saturated and never marked. -/
def BranchEnv.codes (v : BranchEnv) (p : Px3) : (Nat × Nat × Nat) × Bool :=
  if brFormat v.d = 0 then ((qToHalf p.a, qToHalf p.b, qToHalf p.c), false)
  else
    let q := if brYcc v.d then toYcc (bitAt (wordAt v.d 0) 8) p else p
    let nar := bitAt (wordAt v.d 0) 7
    let n := brBits v.d
    let a := quantise n nar false q.a
    let b := quantise n nar (brYcc v.d) q.b
    let c := quantise n nar (brYcc v.d) q.c
    ((a.1, b.1, c.1), a.2 || b.2 || c.2)

/-- Chroma of an even column: [1, 2, 1] / 4 over a line's codes, times 4 (R202). -/
def chroma4 (l : List Nat) (i : Nat) : Nat :=
  let n := l.length
  l.getD (mirror n ((i : Int) - 1)) 0 + 2 * l.getD i 0 + l.getD (mirror n ((i : Int) + 1)) 0

/-- The bytes of a packed line's columns `a` to `b` − 1. -/
def BranchEnv.packed (v : BranchEnv) (cs : List (Nat × Nat × Nat)) (a b : Nat) : List Byte :=
  let al := brAlpha v.d
  let px := fun (c : Nat × Nat × Nat) =>
    match brFormat v.d with
    | 0 => leBytes 2 c.1 ++ leBytes 2 c.2.1 ++ leBytes 2 c.2.2 ++ leBytes 2 (qToHalf ⟨al, 255⟩)
    | 1 => leBytes 4 (c.1 + c.2.1 * 2 ^ 10 + c.2.2 * 2 ^ 20 + al / 64 * 2 ^ 30)
    | 2 => leBytes 4 (c.1 + c.2.1 * 2 ^ 8 + c.2.2 * 2 ^ 16 + al * 2 ^ 24)
    | _ => leBytes 1 c.1 ++ leBytes 1 c.2.1 ++ leBytes 1 c.2.2
  let l := (cs.drop a).take (b - a)
  (if bitAt (wordAt v.d 0) 5 then l.reverse else l).flatMap px

/-- The bytes of a plane of single samples, `n` bytes each. -/
def BranchEnv.plane (v : BranchEnv) (n : Nat) (cs : List Nat) (a b : Nat) : List Byte :=
  let l := (cs.drop a).take (b - a)
  (if bitAt (wordAt v.d 0) 5 then l.reverse else l).flatMap (leBytes n)

/-- The interleaved chroma bytes of columns `a` to `b` − 1 from pairs. -/
def BranchEnv.chroma (v : BranchEnv) (n : Nat) (ps : List (Nat × Nat)) (a b : Nat) : List Byte :=
  let l := (ps.drop (a / 2)).take ((b + 1) / 2 - a / 2)
  (if bitAt (wordAt v.d 0) 5 then l.reverse else l).flatMap fun p => leBytes n p.1 ++ leBytes n p.2

/-- What output line `j` writes: (plane, line in the plane, byte offset in the line, bytes), from the codes of the line
before it and its own, for columns `a` to `b` − 1 (R202, R203, R208). -/
def BranchEnv.writes (v : BranchEnv) (prev cur : List (Nat × Nat × Nat)) (j a b : Nat) : List (Nat × Nat × Nat × List Byte) :=
  let w := brOutW v.d
  let h := brOutH v.d
  let mir := bitAt (wordAt v.d 0) 5
  let flip := bitAt (wordAt v.d 0) 6
  let first := if mir then w - b else a
  let line := if flip then h - 1 - j else j
  let ys := cur.map (·.1)
  let pairs422 := (List.range (w / 2)).map fun k =>
    ((chroma4 (cur.map (·.2.1)) (2 * k) + 2) / 4, (chroma4 (cur.map (·.2.2)) (2 * k) + 2) / 4)
  let pairs420 := (List.range (w / 2)).map fun k =>
    ((chroma4 (prev.map (·.2.1)) (2 * k) + chroma4 (cur.map (·.2.1)) (2 * k) + 4) / 8,
     (chroma4 (prev.map (·.2.2)) (2 * k) + chroma4 (cur.map (·.2.2)) (2 * k) + 4) / 8)
  let cline := if flip then h / 2 - 1 - j / 2 else j / 2
  let cfirst := first / 2 * 2
  match brFormat v.d with
  | 3 => (0, line, 2 * first, v.plane 2 ys a b) ::
      (if j % 2 = 1 then [(1, cline, 2 * cfirst, v.chroma 2 pairs420 a b)] else [])
  | 4 => (0, line, first, v.plane 1 ys a b) ::
      (if j % 2 = 1 then [(1, cline, cfirst, v.chroma 1 pairs420 a b)] else [])
  | 5 => [(0, line, 2 * first, v.plane 2 ys a b), (1, line, 2 * cfirst, v.chroma 2 pairs422 a b)]
  | 6 => [(0, line, 2 * first, v.plane 2 ys a b), (1, line, 2 * first, v.plane 2 (cur.map (·.2.1)) a b),
          (2, line, 2 * first, v.plane 2 (cur.map (·.2.2)) a b)]
  | _ =>
    let bpp := match brFormat v.d with | 0 => 8 | 1 | 2 => 4 | _ => 3
    [(0, line, bpp * first, v.packed cur a b)]

/-- Output columns that a context keeps (R213): those whose centre lies in its core; all without stripe mode. -/
def BranchEnv.columns (v : BranchEnv) (cfg : Words) : Nat × Nat :=
  let w := brOutW v.d
  if cfgStripe cfg = 0 then (0, w)
  else
    let keep := (List.range w).filter fun (j : Nat) =>
      let x := (Q.ofNat v.cx).add ((⟨((2 * j + 1 : Nat) : Int), 2⟩ : Q).mul ⟨v.cw, w⟩)
      (Q.ofNat (cfgX0 cfg)).le x && x.lt (Q.ofNat (cfgX0 cfg + cfgCoreW cfg))
    match keep with
    | [] => (0, 0)
    | a :: _ => (a, a + keep.length)

/-! ## Unpacking memory lines -/

/-- Sample `x` of a line in CSI-2 packing or 16-bit containers: its value and the bytes it lies in
(notes/assumptions/23.md). -/
def unpackAt (pack dt : Nat) (bs : List Byte) (x : Nat) : Nat × List Nat :=
  let b := fun i => (bs.getD i 0).toNat
  let raw10 := fun x => (b (x / 4 * 5 + x % 4) * 4 + b (x / 4 * 5 + 4) / 4 ^ (x % 4) % 4)
  if pack = 1 then (b (2 * x) + 256 * b (2 * x + 1), [2 * x, 2 * x + 1])
  else match dt with
    | 0 => (raw10 x, [x / 4 * 5 + x % 4, x / 4 * 5 + 4])
    | 1 => (b (x / 2 * 3 + x % 2) * 16 + b (x / 2 * 3 + 2) / 16 ^ (x % 2) % 16, [x / 2 * 3 + x % 2, x / 2 * 3 + 2])
    | 2 =>
      let base := x / 4 * 7
      let lo := b (base + 4) + 256 * b (base + 5) + 65536 * b (base + 6)
      (b (base + x % 4) * 64 + lo / 64 ^ (x % 4) % 64,
        [base + x % 4, base + 4 + 6 * (x % 4) / 8, base + 4 + (6 * (x % 4) + 5) / 8])
    | 3 => (b (2 * x) * 256 + b (2 * x + 1), [2 * x, 2 * x + 1])
    | _ => (raw10 (2 * x) * 1024 + raw10 (2 * x + 1),
        [2 * x / 4 * 5 + 2 * x % 4, 2 * x / 4 * 5 + 2 * x % 4 + 1, 2 * x / 4 * 5 + 4])

/-- Bytes of `n` samples packed. -/
def packedBytes (pack dt n : Nat) : Nat :=
  if pack = 1 then 2 * n
  else (n * (match dt with | 0 => 10 | 1 => 12 | 2 => 14 | 3 => 16 | _ => 20) + 7) / 8

end Sys2Proof.Machine
end

