-- ==== Sys2Proof/Machine/PipeSched.lean ====
section
/-!
DEFINITION. Which contexts of a raw pipe have work, and how they rank (R151, R152).
-/

namespace Sys2Proof.Machine

open Sys2Proof

/-- Raw pipe `n`. -/
def State.pipe (s : State) (n : Nat) : Pipe := Map.get (fun _ => {}) s.pipes.pipe n

/-- Update raw pipe `n`. -/
def State.modPipe (s : State) (n : Nat) (f : Pipe → Pipe) : State :=
  s.onPipes fun r => { r with pipe := Map.put (fun _ => {}) r.pipe n (f (Map.get (fun _ => {}) r.pipe n)) }

/-- Input lines that one image line takes (R165). -/
def linesPerRow (w : Words) : Nat := if cfgLayout w = 1 then cfgNi w + 1 else 1

/-- Lines of the current frame that wait inline, and whether its end waits behind them. -/
def inlineWaiting : List PipeIn → Nat × Bool
  | .line _ _ :: t => let r := inlineWaiting t; (r.1 + 1, r.2)
  | .fe _ _ :: _ => (0, true)
  | _ => (0, false)

/-- What a companion stream can give for line `y` of frame `num` (R165, R167): its buffer when the line is stored, `none`
when it cannot contribute; `wait` while it still may. -/
inductive CompLine where
  | stored (buf : Nat)
  | gone
  | wait
deriving DecidableEq, Repr

/-- The companion stream `c` for line `y` of frame `num`. -/
def State.compLine (s : State) (c num y : Nat) : CompLine :=
  let st := Map.get (fun _ => ({} : CapStream)) s.cap.streams c
  if s.scxKind c ≠ 1 || !s.alive pINTAKE then .gone
  else match st.frame with
    | some f =>
      if f.num = num then (if !f.mem then .gone else if y < f.lines then .stored f.buffer else .wait)
      else if serialLt num f.num then .gone
      else .wait
    | none =>
      match st.lastBuf with
      | some b => if st.last = num then .stored b else if serialLt num st.last then .gone else .wait
      | none => if serialLe num st.last && st.last != 0 then .gone else .wait

/-- Has context `k` everything its next line needs (R151, R153)? `need` is the number of inline lines asked for. -/
def State.pipeHas (s : State) (k need : Nat) : Bool :=
  let c := s.pctx k
  match c.frame with
  | none => false
  | some f =>
    let w := c.cfg
    let wait := inlineWaiting c.inq
    decide (c.state = 2) && !f.noWork && decide (f.y < cfgHeight w) &&
      (cfgInput w == 1 || wait.2 || f.ended || decide (need * linesPerRow w ≤ wait.1)) &&
      -- only the companions whose exposure the frame's set merges (R151)
      (List.range (mergeCount ((c.force.map fun (p : PsetForce) => p.words).getD []) - 1)).all fun i =>
        match cfgComp w (i + 1) with
        | some j => s.compLine j f.num f.y != .wait
        | none => true

/-- A context is eligible for a run (R151). -/
def State.pipeElig (s : State) (k : Nat) : Bool := s.pipeHas k (cfgRunLines (s.pctx k).cfg)

/-- Keep the tick since which a context has been eligible (R156). -/
def State.markElig (s : State) (k : Nat) : State :=
  s.modPctx k fun c => { c with eligible := if s.pipeElig k then some (c.eligible.getD s.now) else none }

/-- Rank of a context without its waiting time (R152): a lower number ranks first. -/
def pipeRank (w : Words) : Nat := (if cfgSafety w then 0 else 8) + cfgPrio w * 2 + (if cfgInput w = 0 then 0 else 1)

/-- The eligible context of pipe `n` that ranks first (R152), without context `not`. -/
def State.pipeBest (s : State) (n : Nat) (not : Option Nat) : Option Nat :=
  ((List.range 64).filter fun c => some c != not && s.pipeElig (ctxKey n c)).foldl (fun best c =>
    match best with
    | none => some c
    | some b =>
      let x := s.pctx (ctxKey n c)
      let y := s.pctx (ctxKey n b)
      if pipeRank x.cfg < pipeRank y.cfg ∨ (pipeRank x.cfg = pipeRank y.cfg ∧ x.lastRun < y.lastRun) then some c
      else some b) none

end Sys2Proof.Machine
end

