-- ==== Sys2Proof/Machine/Capture.lean ====
section
/-!
DEFINITION. The capture fabric and the sensor sequencer (R120 to R130, R132 to R135, R221, R222).
-/

namespace Sys2Proof.Machine

open Sys2Proof

/-! ## Streams -/

/-- A capture stream beside its stream context. -/
def State.stream (s : State) (c : Nat) : CapStream := Map.get (fun _ => {}) s.cap.streams c

/-- Update a capture stream. -/
def State.modStream (s : State) (c : Nat) (f : CapStream → CapStream) : State :=
  s.onCap fun x => { x with streams := Map.put (fun _ => {}) x.streams c (f (Map.get (fun _ => {}) x.streams c)) }

/-- Update the frame in flight of a stream, if there is one. -/
def State.modCframe (s : State) (c : Nat) (f : CapFrame → CapFrame) : State :=
  s.modStream c fun x => { x with frame := x.frame.map f }

/-- The enabled streams (R120, R458). -/
def State.streams (s : State) : List Nat := (s.qm.scxKind.filter fun e => e.2 == 1).map (·.1)

/-- Fields of *Capture stream configuration*. -/
def capIndex (w : Words) : Nat := wfld (wordAt w 0) 0 6
def capKind (w : Words) : Nat := wfld (wordAt w 0) 6 1
def capVc (w : Words) : Nat := wfld (wordAt w 0) 8 4
def capDt (w : Words) : Nat := wfld (wordAt w 0) 16 6
def capWidth (w : Words) : Nat := wfld (wordAt w 1) 0 16
def capHeight (w : Words) : Nat := wfld (wordAt w 1) 16 16
def capEmbLines (w : Words) : Nat := wfld (wordAt w 2) 0 8
def capMem (w : Words) : Bool := bitAt (wordAt w 3) 0
def capInline (w : Words) : Bool := bitAt (wordAt w 3) 1
/-- The bound pipe context's key, with PCTX_VALID. -/
def capPctx (w : Words) : Option Nat :=
  if bitAt (wordAt w 3) 11 then some (ctxKey (wfld (wordAt w 3) 2 3) (wfld (wordAt w 3) 5 6)) else none
def capPack (w : Words) : Nat := wfld (wordAt w 3) 12 2
def capFreeQ (w : Words) : Nat := wfld (wordAt w 4) 0 20
def capDoneQ (w : Words) : Nat := wfld (wordAt w 5) 0 20
def capMeta (w : Words) : Nat := dwordAt w 6
def capStride (w : Words) : Nat := (wordAt w 8).toNat
def capTimeout (w : Words) : Nat := wfld (wordAt w 10) 0 16
def capBufLines (w : Words) : Nat := wfld (wordAt w 10) 16 16
def capSeq (w : Words) : Word := wordAt w 11

/-- Bits per pixel of a data type (*CSI-2 packets accepted*); a YUV 4:2:2 pixel is two samples. -/
def dtBits (dt : Nat) : Nat :=
  match dt with
  | 0x1E => 16 | 0x1F => 20 | 0x2B => 10 | 0x2C => 12 | 0x2D => 14 | 0x2E => 16 | 0x2F => 20
  | _ => 8

/-- Pixels packed as CSI-2 packs RAW10 (also each half of RAW20 and YUV 10-bit): four high bytes, then the low bits. -/
def pack10 : List Nat → List Nat
  | a :: b :: c :: d :: t =>
    [a / 4, b / 4, c / 4, d / 4, a % 4 + b % 4 * 4 + c % 4 * 16 + d % 4 * 64] ++ pack10 t
  | [a, b, c] => [a / 4, b / 4, c / 4, 0, a % 4 + b % 4 * 4 + c % 4 * 16]
  | [a, b] => [a / 4, b / 4, 0, 0, a % 4 + b % 4 * 4]
  | [a] => [a / 4, 0, 0, 0, a % 4]
  | [] => []

/-- RAW12: two high bytes, then the low halves. -/
def pack12 : List Nat → List Nat
  | a :: b :: t => [a / 16, b / 16, a % 16 + b % 16 * 16] ++ pack12 t
  | [a] => [a / 16, 0, a % 16]
  | [] => []

/-- RAW14: four high bytes, then the 6-bit low parts. -/
def pack14 : List Nat → List Nat
  | a :: b :: c :: d :: t =>
    let lo := a % 64 + b % 64 * 64 + c % 64 * 4096 + d % 64 * 262144
    [a / 64, b / 64, c / 64, d / 64, lo % 256, lo / 256 % 256, lo / 65536] ++ pack14 t
  | [a, b, c] => let lo := a % 64 + b % 64 * 64 + c % 64 * 4096
                 [a / 64, b / 64, c / 64, 0, lo % 256, lo / 256 % 256, lo / 65536]
  | [a, b] => let lo := a % 64 + b % 64 * 64
              [a / 64, b / 64, 0, 0, lo % 256, lo / 256 % 256, 0]
  | [a] => [a / 64, 0, 0, 0, a % 64, 0, 0]
  | [] => []

/-- A line's bytes under CSI-2 packing (notes/assumptions/23.md). -/
def csiPack (dt : Nat) (pix : List Nat) : List Byte :=
  (match dt with
   | 0x2B => pack10 pix
   | 0x2C => pack12 pix
   | 0x2D => pack14 pix
   | 0x2E => pix.flatMap fun p => [p / 256, p % 256]
   | 0x2F => pack10 (pix.flatMap fun p => [p / 1024, p % 1024])
   | 0x1E => pix.flatMap fun p => [p % 256, p / 256]
   | 0x1F => pack10 (pix.flatMap fun p => [p % 1024, p / 1024])
   | _ => pix).map (BitVec.ofNat 8)

/-- Bytes of one stored line (R121, R123). -/
def lineBytes (w : Words) : Nat :=
  if capPack w = 1 then 2 * capWidth w else (capWidth w * dtBits (capDt w) + 7) / 8

/-- A line as it is stored: CSI-2 packing, or 16-bit LSB-aligned containers. -/
def storeLine (w : Words) (pix : List Nat) : List Byte :=
  if capPack w = 1 then pix.flatMap (fun p => leBytes 2 p) else (csiPack (capDt w) pix).take (lineBytes w)

/-- The fill value of a stream (R127): the bound pipe context's FILL, or EMB.FILL. -/
def State.capFill (s : State) (w : Words) : Nat :=
  match capPctx w with
  | some k => wfld (wordAt (s.pctx k).cfg 4) 0 20
  | none => wfld (wordAt w 2) 16 16

/-- Runtime words of a stream's context (STRM_R0 to R3): frame, lines, ORPHAN, SEQ_OVERRUN (notes/assumptions/24.md). -/
def State.capRuntime (s : State) (c i v : Nat) : State := s.scxPut c (16 + i) [wd v]

/-- A line, frame start or frame end outside a frame: discarded and counted in ORPHAN (R129). -/
def State.orphan (s : State) (c : Nat) : State := s.scxPut c 18 [satAdd (wordAt (s.scx c) 18) 0 32 1]

/-! ## Inline input of the raw pipes -/

/-- The samples of a line that a context takes (R159): its processed columns, with LAYOUT 2 those of every exposure (R165). -/
def stripeCols {α : Type} (w : Words) (pix : List α) : List α :=
  if cfgStripe w = 0 then pix
  else if cfgLayout w = 2 then
    (List.range (cfgNi w + 1)).flatMap fun k => (pix.drop (k * cfgWidth w + cfgLeft w)).take (cfgPw w)
  else (pix.drop (cfgLeft w)).take (cfgPw w)

/-- The positions that stay poisoned when a context takes its samples of a line of `n`. -/
def stripeMarks (w : Words) (n : Nat) (q : List Nat) : List Nat :=
  ((stripeCols w (List.range n)).zipIdx.filter fun e => q.contains e.1).map (·.2)

/-- Has a context a frame whose inline input still runs: one waiting, or one in work that has not ended (R146)? -/
def PipeCtx.inputOpen (c : PipeCtx) : Bool :=
  c.inq.any (fun x => match x with | .fs _ _ _ => true | _ => false) || c.frame.any fun f => !f.ended

/-- Deliver an item to one pipe context: lines for a context that is OFF or HALTED are dropped, counted in LINES_DROPPED
with fault bit 16 (R147); a fenced pipe's input is discarded (R178). What is left of a capture frame that began before the context was
ARMED belongs to no frame of it and is not taken (R146). -/
def State.pipeIn1 (s : State) (k : Nat) (it : PipeIn) : State :=
  if !s.alive (pctxPage k 0) then s
  else
    let st := (s.pctx k).state
    if st = 0 ∨ st = 3 then
      match it with
      | .line _ _ => (s.count (pctxPage k 0) Off.pipeCtl_LINES_DROPPED 0 32 1).raise (pctxPage k 0) 16
      | _ => s
    else
      let first := match it with | .fs _ _ _ => true | _ => false
      if !first && !(s.pctx k).inputOpen then s
      else (s.modPctx k fun c => { c with inq := c.inq ++ [match it with
        | .line p q => .line (stripeCols c.cfg p) (if cfgStripe c.cfg = 0 then q else stripeMarks c.cfg p.length q)
        | x => x] }).markElig k

/-- Deliver an item to the context a stream names and, in stripe mode, to every member (R159). -/
def State.pipeIn (s : State) (w : Words) (it : PipeIn) : State :=
  match capPctx w with
  | some k => if capInline w then (s.stripeSet k).foldl (fun t j => t.pipeIn1 j it) s else s
  | none => s

/-! ## Frames -/

/-- Deliver an item to the intake buffers of the enabled streams of a source's virtual channel that `sel` selects (R125): a
line that finds BUF_LINES lines waiting is lost with every later line of its frame. A line that arrives, lost or not, restarts the
wait of FRAME_TIMEOUT (R126). A fenced INTAKE takes nothing. -/
def State.capDeliver (s : State) (k i vc : Nat) (sel : Words → Bool) (it : CapItem) : State :=
  if !s.alive pINTAKE then s
  else s.streams.foldl (fun t c =>
    let w := t.scx c
    if capKind w = k ∧ capIndex w = i ∧ capVc w = vc ∧ sel w = true then
      let waiting := ((t.stream c).inq.filter fun x => match x with
        | .line _ _ | .emb _ _ => true
        | _ => false).length
      match it with
      | .line _ _ | .emb _ _ =>
        if (t.stream c).losing then t.modCframe c fun g => { g with lastLine := t.now }
        else if capBufLines w ≤ waiting then
          (t.modStream c fun x => { x with inq := x.inq ++ [.lost], losing := true }).modCframe c fun g => { g with lastLine := t.now }
        else (t.modStream c fun x => { x with inq := x.inq ++ [it] }).modCframe c fun g => { g with lastLine := t.now }
      | .fs _ => t.modStream c fun x => { x with inq := x.inq ++ [it], losing := false }
      | _ => t.modStream c fun x => { x with inq := x.inq ++ [it] }
    else t) s

/-- The source of KIND `k`, INDEX `i` fails: every frame in flight of virtual channel `vc` ends BROKEN (R109, R126). -/
def State.capBreak (s : State) (k i vc : Nat) : State := s.capDeliver k i vc (fun _ => true) .broken

/-- Every virtual channel of a source. -/
def State.capBreakAll (s : State) (k i : Nat) : State := (List.range 16).foldl (fun t vc => t.capBreak k i vc) s

/-- SLINE rulers that follow stream `c` take a change. -/
def State.capSline (s : State) (c : Nat) (f : SlineRuler → SlineRuler) : State :=
  let w := s.scx c
  s.slineUpdate (capKind w) (capIndex w) (capVc w) f

/-- Lines of the last millisecond that RATE counts. -/
def State.recentLines (s : State) : List (Nat × Nat) := s.cap.moved.filter fun x => decide (s.now < x.1 + 250000)

/-- SLINE's line field of stream `c` moves from `old` to `new`: lists of its sequencer that completed in this very tick, before a
latch that the move reaches, count as after it (R226). -/
def State.capLatch (s : State) (c old new : Nat) : State :=
  let sq := capSeq (s.scx c)
  match capPctx (s.scx c) with
  | some k => if bitAt sq 0 && decide (old < wfld sq 16 16 ∧ wfld sq 16 16 ≤ new) then s.psetLatched (s.leadOf k) else s
  | none => s

/-- One image line goes to the stream's outputs (R124): memory at line `i`, the pipe, SLINE and the stored-line count. -/
def State.capStoreLine (s : State) (c : Nat) (i : Nat) (pix : List Nat) : State :=
  let w := s.scx c
  let fr := (s.stream c).frame
  let bs := storeLine w pix
  let s1 := match fr with
    | some f =>
      if f.mem then
        (s.busWrite pINTAKE (f.buffer + i * capStride w) bs).onCap fun x => { x with moved := (s.now, pix.length) :: s.recentLines }
      else s
    | none => s
  let s2 := s1.modCframe c fun f => if f.mem then { f with written := f.written + bs.length } else f
  let s3 := (s2.pipeIn w (.line pix [])).capSline c fun r => { r with line := some (i + 1), times := ((r.frame, i + 1, s.now) :: r.times).take 65536 }
  s3.capRuntime c 1 (i + 1)

/-- Write the missing lines of a SHORT frame (R127). -/
def State.capFillLines (s : State) (c : Nat) (i : Nat) : Nat → State
  | 0 => s
  | n + 1 =>
    let w := s.scx c
    (s.capStoreLine c i (List.replicate (capWidth w) (s.capFill w))).capFillLines c (i + 1) n

/-- The 128 bytes of *Frame metadata record*, from its fields at the frame's end. -/
def metaRecord (f : CapFrame) (flags expo filled corrected timeFe : Nat) : List Byte :=
  let body := leBytes 4 f.num ++ leBytes 4 f.sensorFn ++ leBytes 8 f.timeFs ++ leBytes 8 timeFe ++ leBytes 8 f.distFs ++
    leBytes 8 f.phaseFs ++ leBytes 4 f.psetId ++ leBytes 4 f.req ++ leBytes 4 f.applied ++ leBytes 4 expo ++
    leBytes 4 f.expected ++ leBytes 4 flags ++ leBytes 4 f.lines ++ leBytes 4 filled ++ leBytes 4 f.discarded ++
    leBytes 4 (min 65535 f.padded + min 65535 f.truncated * 65536) ++
    leBytes 4 (min 65535 f.crcErrs + min 65535 corrected * 65536) ++ leBytes 4 f.embBytes ++ leBytes 8 f.buffer ++
    leBytes 4 f.written ++ leBytes 4 (f.seq.getD (0, 0, 0)).1 ++
    leBytes 4 ((f.seq.getD (0, 0, 0)).2.1 + (f.seq.getD (0, 0, 0)).2.2 * 2 ^ 30) ++ List.replicate 16 0
  body ++ leBytes 4 (crc32c body)

/-- The stream leaves the enabled state (R121, R458). -/
def State.capDisable (s : State) (c : Nat) : State :=
  ((s.scxPut c 0 [setBit (wordAt (s.scx c) 0) 31 false]).scxFree c).onCap fun x =>
    { x with streams := Map.del x.streams c }

/-- Flags of a frame at its end: SHORT and EXPOSURE_MISMATCH beside those collected (R127, R229). -/
def capEndFlags (f : CapFrame) (height add : Nat) : Nat :=
  let expo := embExposure f.emb (wd f.embExp)
  let mismatch := match expo with
    | some e => decide (f.expTol < absDiff (Nat.land e f.expMask) (Nat.land f.expected f.expMask))
    | none => false
  Nat.lor (Nat.lor f.flags add) ((decide (f.lines < height)).toNat + mismatch.toNat * 2 ^ 10)

/-- The frame in flight of a stream ends (R126, R127, R130): fill lines, the metadata record, the completion, FE, and a
pending STOP takes effect. `flags` are those that the cause of the end adds. -/
def State.capEnd (s : State) (c flags : Nat) : State :=
  match (s.stream c).frame with
  | none => s
  | some f0 =>
    let w := s.scx c
    let st := s.stream c
    let missing := capHeight w - f0.lines
    let s1 := (s.capFillLines c f0.lines missing).capLatch c f0.lines 0xFFFF
    let f1 := ((s1.stream c).frame.getD f0)
    let f := { f1 with seq := match f1.seq with | some q => some q | none => st.seqDone }
    let fl := capEndFlags f (capHeight w) (Nat.lor flags st.addFlags)
    let expo := (embExposure f.emb (wd f.embExp)).getD 0
    let at_ := capMeta w + 128 * (f.num % 64)
    let s2 := s1.busWrite pINTAKE at_ (metaRecord f fl expo missing st.corrected s.timeNs)
    let s3 := s2.push pINTAKE (capDoneQ w) ([wd f.buffer, wd (f.buffer / 2 ^ 32), wd at_, wd (at_ / 2 ^ 32), wd f.num,
      wd fl, wd f.written, wd f.token])
    let s4 := s3.produceOn pINTAKE (wfld (wordAt w 9) 16 8) (bitAt (wordAt w 9) 24)
    let s5 := if Nat.land fl 7 ≠ 0 then s4.produce pINTAKE 0 else s4
    let s6 := (s5.pipeIn w (.fe fl expo)).capSline c fun r => { r with line := none }
    let s7 := s6.modStream c fun x => { x with frame := none, last := f.num, lastBuf := if f.mem then some f.buffer else none, addFlags := 0, corrected := 0, seqDone := none }
    if st.stopping then s7.capDisable c else s7

/-- The buffer a frame start takes from FREE_Q (R123): address, token, whether the frame is written, and its flags. -/
def State.capTakeBuffer (s : State) (c : Nat) : (Nat × Nat × Bool × Nat) × State :=
  let w := s.scx c
  if !capMem w then ((0, 0, false, 0), s)
  else
    let lost := fun (t : State) => ((t.raise pINTAKE 9).count pINTAKE Off.intake_CNT 0 16 1).produce pINTAKE 1
    match s.take (capFreeQ w) with
    | (none, s1) => ((0, 0, false, 2 ^ 6), lost s1)
    | (some d, s1) =>
      let need := capHeight w * capStride w + capEmbLines w * capStride w
      if (wordAt d 2).toNat < need then ((dwordAt d 0, (wordAt d 3).toNat, false, 2 ^ 6 + 2 ^ 16), lost s1)
      else ((dwordAt d 0, (wordAt d 3).toNat, true, 0), s1)

/-- DIST_FS and PHASE_FS with their VALID flags, as the stream's SNAP word selects them. -/
def State.capSnap (s : State) (w : Words) : Nat × Nat × Nat :=
  let n := wordAt w 13
  let d := wfld n 0 2
  let p := wfld n 3 1
  let dist := if bitAt n 2 then unsigned 64 (s.distVal d) else 0
  let phase := if bitAt n 4 then (s.phase p).val else 0
  (dist, phase, (bitAt n 2 && s.distValid d).toNat * 2 ^ 12 + (bitAt n 4 && s.phaseValid p).toNat * 2 ^ 13)

/-- A stream stops at once and leaves the enabled state (R121, R126). -/
def State.strmQuit (s : State) (c : Nat) : State :=
  ((s.modStream c fun x => { x with stopping := false, inq := [] }).capEnd c (2 ^ 2)).capDisable c

/-- CAPTURE_FRAME_START (R122, R123, R126, R228, R459): the frame start at the head of stream `c`'s buffer ends a frame in flight
with MISSING_FE, numbers the frame, takes a buffer, tags it with the PSET decision, produces FS and starts the inline
copy. `e` is what ECC finds in the stream's context: an error that it cannot correct stops the stream. -/
def execCaptureFrameStart (c : Nat) (e : ReadErr) (s : State) : Step :=
  match (s.stream c).inq with
  | .fs fn :: rest =>
    let s0 := (s.modStream c fun x => { x with inq := rest }).capEnd c (2 ^ 5)
    if s0.scxKind c ≠ 1 then .next s0
    else if e = .uncorrectable then .next ((s0.scxFault c).strmQuit c)
    else
      let s0 := if e = .corrected then s0.count (pQM 2) Off.qm2_CNT_SRAM 0 16 1 else s0
      let w := s0.scx c
      let st := s0.stream c
      let num := st.next
      let skip := match st.lastFn with
        | some p => decide (fn ≠ 0 ∧ (fn + 65536 - p) % 65536 ≠ 1)
        | none => false
      let b := s0.capTakeBuffer c
      let s1 := b.2
      let sn := s1.capSnap w
      let de := match capPctx w with
        | some k => s1.psetDecide k num (capInline w)
        | none => ((none, none), s1)
      let ps := de.1.2
      let late := match ps with | some q => q.2.2.2 | none => false
      let ws := match ps with | some q => q.1 | none => []
      let f : CapFrame :=
        { num := num, sensorFn := fn % 65536, timeFs := s1.timeNs, distFs := sn.1, phaseFs := sn.2.1,
          psetId := (psw ws 0).toNat, req := (ps.map (·.2.1)).getD 0, applied := (ps.map (·.2.2.1)).getD 0,
          expected := (psw ws 0x40).toNat, embExp := (psw ws 0x44).toNat, expMask := (psw ws 0x48).toNat,
          expTol := (psw ws 0x4C).toNat, flags := b.1.2.2.2 + sn.2.2 + late.toNat * 2 ^ 9 + skip.toNat * 2 ^ 14,
          mem := b.1.2.2.1, buffer := b.1.1, token := b.1.2.1, lastLine := s.now }
      let s2 := de.2.modStream c fun x =>
        { x with frame := some f, next := (num + 1) % 2 ^ 32, lastFn := some (fn % 65536) }
      let s3 := (s2.capRuntime c 0 num).capRuntime c 1 0
      let s4 := s3.produceOn pINTAKE (wfld (wordAt w 9) 0 8) (bitAt (wordAt w 9) 8)
      let s5 := s4.capSline c fun r => { r with frame := num, line := some 0, height := capHeight w, started := some s.now }
      .next ((s5.llStart (capKind w) (capIndex w) (capVc w)).pipeIn w (.fs num (capDt w) de.1.1))
  | _ => .next s

/-- An image line of the frame in flight: stored up to HEIGHT, padded or truncated to WIDTH, beyond HEIGHT discarded with
LONG (R128, R129). -/
def State.capImage (s : State) (c : Nat) (f : CapFrame) (pix : List Nat) (bad : Bool) : State :=
  let w := s.scx c
  let s1 := s.modCframe c fun g => { g with lastLine := s.now, crcErrs := g.crcErrs + bad.toNat,
                                            flags := Nat.lor g.flags (bad.toNat * 2 ^ 3) }
  if capHeight w ≤ f.lines then
    s1.modCframe c fun g => { g with discarded := g.discarded + 1, flags := Nat.lor g.flags 2 }
  else
    let short := decide (pix.length < capWidth w)
    let long := decide (capWidth w < pix.length)
    let s2 := (s1.capStoreLine c f.lines (fit (capWidth w) (s.capFill w) pix)).capLatch c f.lines (f.lines + 1)
    s2.modCframe c fun g => { g with lines := g.lines + 1, padded := g.padded + short.toNat,
                                     truncated := g.truncated + long.toNat, flags := Nat.lor g.flags ((short || long).toNat * 2 ^ 4) }

/-- An embedded line of the frame in flight (R123, R229): stored after the image lines up to EMB_LINES. Of a line longer than STRIDE
its first STRIDE bytes are stored (DESIGN CHOICE, notes/assumptions/168.md). -/
def State.capEmb (s : State) (c : Nat) (f : CapFrame) (bytes : List Nat) (bad : Bool) : State :=
  let w := s.scx c
  let s1 := s.modCframe c fun g => { g with lastLine := s.now, emb := g.emb ++ bytes, crcErrs := g.crcErrs + bad.toNat,
                                            flags := Nat.lor g.flags (bad.toNat * 2 ^ 3) }
  if capEmbLines w ≤ f.embLines then s1.modCframe c fun g => { g with flags := Nat.lor g.flags (2 ^ 15) }
  else
    let bs := (bytes.map (BitVec.ofNat 8)).take (capStride w)
    let s2 := if f.mem then s1.busWrite pINTAKE (f.buffer + (capHeight w + f.embLines) * capStride w) bs else s1
    s2.modCframe c fun g => { g with embLines := g.embLines + 1, embBytes := g.embBytes + (if f.mem then bs.length else 0),
                                     written := g.written + (if f.mem then bs.length else 0) }

/-- CAPTURE_LINE (R124, R125, R128, R129, R147): the line at the head of stream `c`'s buffer. -/
def execCaptureLine (c : Nat) (s : State) : Step :=
  let st := s.stream c
  match st.inq with
  | .line pix bad :: rest =>
    let s1 := s.modStream c fun x => { x with inq := rest }
    .next (match st.frame with
      | none => s1.orphan c
      | some f => s1.capImage c f pix bad)
  | .emb bytes bad :: rest =>
    let s1 := s.modStream c fun x => { x with inq := rest }
    .next (match st.frame with
      | none => s1.orphan c
      | some f => s1.capEmb c f bytes bad)
  | .lost :: rest =>
    let s1 := s.modStream c fun x => { x with inq := rest }
    .next (match st.frame with
      | none => s1.orphan c
      | some _ => ((s1.modCframe c fun g => { g with flags := Nat.lor g.flags (2 ^ 7) }).raise pINTAKE 10).count pINTAKE
          Off.intake_CNT 16 16 1)
  | _ => .next s

/-- CAPTURE_FRAME_END (R126, R130): the frame end, or the source's failure, at the head of stream `c`'s buffer. -/
def execCaptureFrameEnd (c : Nat) (s : State) : Step :=
  let st := s.stream c
  match st.inq with
  | .fe :: rest =>
    let s1 := s.modStream c fun x => { x with inq := rest }
    .next (if st.frame.isSome then s1.capEnd c 0 else s1.orphan c)
  | .broken :: rest => .next ((s.modStream c fun x => { x with inq := rest }).capEnd c (2 ^ 2))
  | _ => .next s

/-- FRAME_TIMEOUT (R126): no line for FRAME_TIMEOUT units of 10 µs. -/
def execFrameTimeout (c : Nat) (s : State) : Step :=
  match (s.stream c).frame with
  | some f =>
    let lim := capTimeout (s.scx c)
    if lim ≠ 0 ∧ f.lastLine + 2500 * lim ≤ s.now then .next (s.capEnd c (2 ^ 11)) else .next s
  | none => .next s

/-! ## Stream commands -/

/-- STRM_CMD_STAT after a command: BUSY for 32 ns; a rejection sets STRM_INVALID (R121). -/
def State.strmStat (s : State) (reason : Nat) : State :=
  let s1 := s.cmdStart pINTAKE Off.intake_STRM_CMD_STAT 8
  if reason = 0 then s1.setReg pINTAKE Off.intake_STRM_CMD_STAT 0
  else (s1.setReg pINTAKE Off.intake_STRM_CMD_STAT (wd (2 + reason * 16))).raise pINTAKE 8

/-- The stream context STRM_SEL names. -/
def State.strmSel (s : State) : Nat := s.fld pINTAKE Off.intake_STRM_SEL 0 14

/-- STRM_LOAD (R120). -/
def execStrmLoad (m : Master) (s : State) : Step :=
  .next (s.regWrite m pINTAKE Off.intake_STRM_CMD fun t =>
    (t.setRegs32 pINTAKE Off.intake_STRM_D0 ((t.scx t.strmSel).take 16)).strmStat 0)

/-- The gang a lead port heads: its size (1: none). -/
def State.gangSize (s : State) (n : Nat) : Nat := 2 ^ s.fld (pSENS n) Off.sens_CFG 18 2

/-- The gang rules of R98, R99 for a CSI-2 source of width `wd`: the lead's number is a multiple of the size, all members
share PHY, lanes and rate, and the segment widths sum to the width. -/
def State.gangOk (s : State) (n width : Nat) : Bool :=
  let g := s.gangSize n
  if g = 1 then true
  else
    let ms := (List.range g).map (n + ·)
    decide (n % g = 0) && ms.all (fun j => s.fld (pSENS j) Off.sens_CFG 0 18 == s.fld (pSENS n) Off.sens_CFG 0 18) &&
      decide ((ms.map fun j => s.fld (pSENS j) Off.sens_SEG_W 0 16).foldl (· + ·) 0 = width)

/-- Why a STORE of stream `c` is rejected (R121), 0 when it is not. A buffered line takes the bytes of a stored one, its choice of
PACK counted (DESIGN CHOICE, notes/assumptions/168.md). -/
def State.strmReason (s : State) (c : Nat) (w : Words) : Nat :=
  let others := s.streams.filter (· != c)
  let en := bitAt (wordAt w 0) 31
  let cost := fun v => capBufLines v * lineBytes v
  if en && others.any (fun j => let v := s.scx j
      capKind v == capKind w && capIndex v == capIndex w && capVc v == capVc w && capDt v == capDt w) then 1
  else if capWidth w = 0 ∨ 32768 < capWidth w ∨ capHeight w = 0 ∨ 32768 < capHeight w ∨
      (capKind w = 0 ∧ s.gangOk (capIndex w) (capWidth w) = false) then 2
  else if capStride w < lineBytes w then 3
  else if en && decide (2 ^ 22 < (others.map fun j => cost (s.scx j)).foldl (· + ·) (cost w)) then 4
  else if en && decide (512 ≤ others.length) then 5
  else if (capPctx w).isSome && others.any (fun j => capPctx (s.scx j) == capPctx w && capInline (s.scx j)) then 6
  else if !s.qValid (capFreeQ w) || !s.qValid (capDoneQ w) then 7
  else 0

/-- STRM_STORE (R120, R121, R458). -/
def execStrmStore (m : Master) (s : State) : Step :=
  .next (s.regWrite m pINTAKE Off.intake_STRM_CMD fun t =>
    let c := t.strmSel
    let w := t.regs32 pINTAKE Off.intake_STRM_D0 16
    if t.scxKind c = 1 then t.stateWrite pINTAKE
    else if t.scxKind c ≠ 0 then t.scxConflict pINTAKE
    else
      let r := t.strmReason c w
      if r ≠ 0 then t.strmStat r
      else if bitAt (wordAt w 0) 31 then
        (((t.scxPut c 0 w).scxClaim c 1 pINTAKE 16).modStream c fun _ =>
          { next := (wordAt w 14).toNat, last := 0 }).strmStat 0
      else (t.scxPut c 0 w).strmStat 0)

/-- STOP (R121): takes effect at the next frame end. -/
def execStop (m : Master) (s : State) : Step :=
  .next (s.regWrite m pINTAKE Off.intake_STRM_CMD fun t =>
    if t.scxKind t.strmSel = 1 then (t.modStream t.strmSel fun x => { x with stopping := true }).strmStat 0
    else t.strmStat 0)

/-- STOP_NOW (R121, R126). -/
def execStopNow (m : Master) (s : State) : Step :=
  .next (s.regWrite m pINTAKE Off.intake_STRM_CMD fun t =>
    if t.scxKind t.strmSel = 1 then
      (t.strmQuit t.strmSel).strmStat 0
    else t.strmStat 0)

/-! ## The sensor sequencer -/

/-- SLINE frame and line of a stream: line 0xFFFF between frames and while its source is invalid (R73, R222). -/
def State.slinePos (s : State) (c : Nat) : Nat × Nat :=
  let w := s.scx c
  let st := s.stream c
  match st.frame with
  | some f => if s.sourceOn (capKind w) (capIndex w) then (f.num, min f.lines (capHeight w)) else (f.num, 0xFFFF)
  | none => (st.last, 0xFFFF)

/-- A list fails (R135, R217): the entry is retired, status 2, SEQ_FAIL with its event and count. -/
def State.seqFail (s : State) (c k ptr req : Nat) : State :=
  let p := s.slinePos c
  let s1 := (s.psetFail k ptr req).modStream c fun x =>
    { x with seq := none, seqDone := some (p.1, p.2, 2), frame := x.frame.map fun f => { f with seq := some (p.1, p.2, 2) } }
  ((s1.count pINTAKE Off.intake_SEQ_CNT 16 16 1).raise pINTAKE 11).produce pINTAKE 2

/-- A list completes (R133, R222): the entry is RESOLVED with A. -/
def State.seqComplete (s : State) (c k ptr req : Nat) : State :=
  let p := s.slinePos c
  let sq := capSeq (s.scx c)
  let n := if p.2 < wfld sq 16 16 then p.1 else p.1 + 1
  (s.psetResolve k ptr req ((n + wfld sq 13 2) % 2 ^ 32)).modStream c fun x =>
    { x with seq := none, seqDone := some (p.1, p.2, 1), frame := x.frame.map fun f => { f with seq := some (p.1, p.2, 1) } }

/-- An I3C controller beside its registers. -/
def State.i3c (s : State) (n : Nat) : I3c := Map.get (fun _ => {}) s.cap.i3c n
def State.modI3c (s : State) (n : Nat) (f : I3c → I3c) : State :=
  s.onCap fun x => { x with i3c := Map.put (fun _ => {}) x.i3c n (f (Map.get (fun _ => {}) x.i3c n)) }

/-- A transfer boundary of controller `n` (R134): unless a transfer is under way, the first write of the sequencer starts, or with
none the first command of firmware. Nothing starts while MODE is 0 (R131). -/
def State.i3cStart (s : State) (n : Nat) : State :=
  if s.fld (pSENS (2 * n)) Off.sens_I3C_CFG 0 2 = 0 then s
  else s.modI3c n fun x => match x.cur, x.seq, x.cmds with
    | none, w :: r, _ => { x with seq := r, cur := some (.sequencer w) }
    | none, [], v :: r => { x with cmds := r, cur := some (.firmware v) }
    | _, _, _ => x

/-- Is a transfer under way or waiting? -/
def I3c.busy (x : I3c) : Bool := x.cur.isSome || !x.seq.isEmpty || !x.cmds.isEmpty

/-- The bytes of the sequencer's private write (R132): the register address, then the data of 8 or 16 bits, high byte first. -/
def seqBytes (a d : Nat) (data16 : Bool) : List Byte :=
  ([a / 256 % 256, a % 256] ++ (if data16 then [d / 256 % 256, d % 256] else [d % 256])).map (BitVec.ofNat 8)

/-- A REG_WRITE of the sequencer joins the transmit queue of receiver `n`, or waits for room in it (R118). -/
def State.dlkQueue (s : State) (n : Nat) (msg : BcMsg) : State :=
  s.modDlk n fun x => if 64 ≤ x.tx.length then { x with late := x.late ++ [msg] } else { x with tx := x.tx ++ [msg] }

/-- Send the present write of a stream's list (R132): over Dralek a REG_WRITE joins the transmit queue, with the sequencer's
SEQ of the stream (notes/assumptions/25.md); over I3C a private write to the target of CTRL_BUS waits for the next transfer boundary
of its controller. -/
def State.seqSend (s : State) (c : Nat) : State :=
  match (s.stream c).seq with
  | none => s
  | some q => match q.writes with
    | [] => s.seqComplete c q.ctx q.ptr q.req
    | (a, d) :: _ =>
      let w := s.scx c
      if bitAt (wordAt w 12) 12 then
        s.dlkQueue (capIndex w) ⟨1, c % 128, a / 256 % 256 + a % 256 * 2 ^ 8 + d / 256 % 256 * 2 ^ 16 + d % 256 * 2 ^ 24⟩
      else
        let bus := wordAt w 12
        let x := I3cWrite.mk c (wfld bus 5 7) (bitAt bus 13) (seqBytes a d q.data16)
        (s.modI3c (wfld bus 0 5) fun i => { i with seq := i.seq ++ [x] }).i3cStart (wfld bus 0 5)

/-- One stream at a firing of its SEQ_CUE (R132, R135, R221, R226). -/
def State.seqFire (s : State) (c : Nat) : State :=
  let w := s.scx c
  let st := s.stream c
  if st.seq.isSome then
    ((s.count pINTAKE Off.intake_SEQ_CNT 0 16 1).scxPut c 19 [satAdd (wordAt (s.scx c) 19) 0 32 1]).raise pINTAKE 12
  else match capPctx w with
    | none => s
    | some k0 =>
      let k := s.leadOf k0
      match (s.pctx k).ring.find? fun e => e.state == 1 && decide (e.pushed < s.now) with
      | none => s
      | some e =>
        let sq := capSeq w
        let at_ := (e.req + 2 ^ 32 - wfld sq 13 2 - 1) % 2 ^ 32
        let p := s.slinePos c
        if serialLt at_ p.1 || (decide (p.1 = at_) && decide (wfld sq 16 16 < p.2)) then
          let s1 := s.modRing k fun r => r.map fun x => if x = e then { x with state := 2 } else x
          match s1.psetRead e.ptr with
          | (none, s2) => s2.seqFail c k e.ptr e.req
          | (some ws, s2) =>
            (s2.modStream c fun x => { x with seq := some { ctx := k, ptr := e.ptr, req := e.req, writes := writeList ws,
                                                            data16 := bitAt (psw ws 0xC00) 8 } }).seqSend c
        else s

/-- Cue `cue` fires: every stream whose SEQ_CUE it is (R132). -/
def State.seqCueFired (s : State) (cue : Nat) : State :=
  s.streams.foldl (fun t c => let q := capSeq (t.scx c)
    if bitAt q 12 && wfld q 0 12 == cue then t.seqFire c else t) s

/-- Can the controller of stream `c` run no transfer: its page is fenced or off, or its MODE is 0? -/
def State.seqBusOff (s : State) (c : Nat) : Bool :=
  let p := pSENS (2 * wfld (wordAt (s.scx c) 12) 0 5)
  !bitAt (wordAt (s.scx c) 12) 12 && (!s.alive p || s.fld p Off.sens_I3C_CFG 0 2 == 0)

/-- Is an answer for the present write of stream `c` there: the end of its I3C transfer, the REG_ACK, or the reported failure? On a
controller that runs no transfer the write times out at once (DESIGN CHOICE, notes/assumptions/169.md). -/
def State.seqAnswered (s : State) (c : Nat) (ok : Bool) : Bool :=
  match (s.stream c).seq with
  | none => false
  | some q => q.ack == some ok || (!ok && q.ack.isNone && s.seqBusOff c)

/-- SEQ_WRITE_ACK (R133, R222): the next write of the list, or its completion. -/
def execSeqWriteAck (c : Nat) (s : State) : Step :=
  if s.seqAnswered c true then
    .next ((s.modStream c fun x => { x with seq := x.seq.map fun q =>
      { q with writes := q.writes.drop 1, retried := false, ack := none } }).seqSend c)
  else .next s

/-- The write of stream `c` that still waits for its controller is taken back. -/
def State.seqWithdraw (s : State) (c : Nat) : State :=
  s.modI3c (wfld (wordAt (s.scx c) 12) 0 5) fun x => { x with seq := x.seq.filter fun w => w.stream != c }

/-- SEQ_WRITE_FAIL (R135): a write is retried once; a second failure abandons the list. -/
def execSeqWriteFail (c : Nat) (s0 : State) : Step :=
  if !s0.seqAnswered c false then .next s0
  else
    let s := s0.seqWithdraw c
    match (s0.stream c).seq with
    | none => .next s
    | some q =>
      if q.retried then .next (s.seqFail c q.ctx q.ptr q.req)
      else .next ((s.modStream c fun x => { x with seq := some { q with retried := true, ack := none } }).seqSend c)

/-- Computed registers of INTAKE: runtime words of the selected stream, enabled streams, the buffer that no enabled
stream reserves, and the pixels of the last millisecond in Mpix/s. -/
def State.viewCapture (s : State) (p o : Nat) : Option Word :=
  if p ≠ pINTAKE then none
  else if Off.intake_STRM_R0 ≤ o ∧ o < Off.intake_STRM_R0 + 64 then
    some (wordAt (s.scx s.strmSel) (16 + (o - Off.intake_STRM_R0) / 4))
  else if o = Off.intake_ENABLED then some (wd s.streams.length)
  else if o = Off.intake_BUF_FREE then
    let used := (s.streams.map fun c => capBufLines (s.scx c) * lineBytes (s.scx c)).foldl (· + ·) 0
    some (wd (4096 - (used + 1023) / 1024))
  else if o = Off.intake_RATE then some (wd ((s.recentLines.map Prod.snd).foldl (· + ·) 0 / 1000))
  else none

end Sys2Proof.Machine
end

