-- ==== Sys2Proof/Machine/Events.lean ====
section
/-!
DEFINITION. The event fabric (chapter 14): channels, bindings, gaps, windows, busy inputs and pin ports.
-/

namespace Sys2Proof.Machine

open Sys2Proof

/-- The page that holds channel `c`'s registers, and their offset there (EVF1 holds channels 128 to 255). -/
def chPage (c : Nat) : Nat := pEVF (c / 128 % 2)
def chOff (c o : Nat) : Nat := o + 0x10 * (c % 128)

/-- A bit of one of EVF0's channel bitmaps (SEEN, MISSED, LOOP). -/
def State.chBit (s : State) (base c : Nat) : Bool := s.bit (pEVF 0) (base + 4 * (c / 32)) (c % 32)
def State.setChBit (s : State) (base c : Nat) : State := s.putBit (pEVF 0) (base + 4 * (c / 32)) (c % 32) true

/-- Is the task input `k` of page `p` busy (R479)? -/
def State.inBusy (s : State) (p k : Nat) : Bool := Map.get (fun _ => false) s.evf.inBusy (p * 4 + k)

/-- Set or clear a task input's busy mark. -/
def State.setBusy (s : State) (p k : Nat) (b : Bool) : State :=
  s.onEvf fun e => { e with inBusy := Map.put (fun _ => false) e.inBusy (p * 4 + k) b }

/-- A pin port. -/
def State.pinPort (s : State) (q : Nat) : PinPort := Map.get (fun _ => {}) s.evf.pin q

/-- Update a pin port. -/
def State.modPin (s : State) (q : Nat) (f : PinPort → PinPort) : State :=
  s.onEvf fun e => { e with pin := Map.put (fun _ => {}) e.pin q (f (Map.get (fun _ => {}) e.pin q)) }

/-- PIN_CFG of a port. -/
def State.pinCfg (s : State) (q : Nat) : Word := s.reg (pEVF 1) (Off.evf1_PIN_CFG + 4 * q)

/-- Release whatever is bound to channel `c`. -/
def State.unbind (s : State) (c : Nat) : State := s.evPut (chPage c) (chOff c Off.evf0_CH_BIND) 0

/-- Bind an input (`pin` false: input `k` of page `p`; true: pin port `p`) to channel `c` (*EVF0 page*, CH_BIND). -/
def State.bind (s : State) (c p k : Nat) (pin : Bool) : State :=
  s.evPut (chPage c) (chOff c Off.evf0_CH_BIND) (wd (p + k * 1024 + pin.toNat * 4096 + 8192))

/-- Is channel `c` bound to an input other than this one (R476)? -/
def State.boundElsewhere (s : State) (c p k : Nat) (pin : Bool) : Bool :=
  let b := s.reg (chPage c) (chOff c Off.evf0_CH_BIND)
  bitAt b 13 && b != wd (p + k * 1024 + pin.toNat * 4096 + 8192)

/-- A binding that is refused (R476): CONFLICT names it and BIND_CONFLICT is set. -/
def State.bindConflict (s : State) (c p k : Nat) (pin : Bool) : State :=
  let who := if pin then 0x3FF * 256 + p * 2 ^ 20 else p * 256 + k * 2 ^ 18
  (s.setReg (pEVF 0) Off.evf0_CONFLICT (wd (c + who + 2 ^ 31))).raise (pEVF 0) 8

/-- A PIN_CFG value takes effect (R476, R489): a port that leaves output mode releases its channel and its ball falls
back to an input that reads low; one that enters output mode binds its channel and drives its inactive level. -/
def State.applyPinCfg (s : State) (q : Nat) (v : Word) : State :=
  let old := s.pinCfg q
  if wfld v 0 2 = 2 && s.boundElsewhere (wfld v 8 8) q 0 true then s.bindConflict (wfld v 8 8) q 0 true
  else
    let s1 := if wfld old 0 2 = 2 then s.unbind (wfld old 8 8) else s
    let s2 := if wfld v 0 2 = 2 then s1.bind (wfld v 8 8) q 0 true else s1
    let s3 := s2.setReg (pEVF 1) (Off.evf1_PIN_CFG + 4 * q) (v &&& wd 0xFFFFFF07)
    if wfld v 0 2 = 2 then s3.modPin q fun t => { t with driving := true, level := bitAt v 2 }
    else if wfld old 0 2 = 2 then s3.modPin q fun t => { t with driving := false, level := false }
    else s3

/-- The end of an output port's pulse (R489): when its ticks have passed, its ball returns to the inactive level, and a waiting
PIN_CFG write takes effect. -/
def State.pinEnd (s : State) (q : Nat) : State :=
  let t := s.pinPort q
  match t.pulseEnd with
  | none => s
  | some e =>
    if s.now < e then s
    else
      let s1 := s.modPin q fun t => { t with pulseEnd := none, level := bitAt (s.pinCfg q) 2, pendCfg := none }
      match t.pendCfg with
      | none => s1
      | some v => s1.applyPinCfg q v

/-- An event reaches the bound input `k` of page `p` (R479, R485, R611): suppressed when the page is fenced or
unpowered, missed when the input is busy, accepted otherwise; an input without a task and without a commit armed on
trigger 1 has no effect and is never busy. -/
def State.reachInput (s : State) (c p k : Nat) : State :=
  if !s.alive p then s.count (chPage c) (chOff c Off.evf0_CH_DROP) 16 16 1
  else
    let commit := decide (k = 0) && s.bit p Off.hdr_PG_SHADOW 8 && decide (s.fld p Off.hdr_PG_SHADOW 1 3 = 1)
    if !(evtInCap p).testBit k && !commit then s
    else if s.inBusy p k then
      ((s.count (chPage c) (chOff c Off.evf0_CH_DROP) 0 16 1).setChBit Off.evf0_MISSED0 c).setInt (pEVF 0) 1
    else if pageKind p = .dlk then
      (s.setBusy p k true).modDlk (p - 0x160) fun x => { x with trig := Map.put (fun _ => 0) x.trig k s.timeNs }
    else s.setBusy p k true

/-- An event reaches the output pin port `q` (R489): missed during a pulse, otherwise it starts a pulse of PULSE ticks
(a PULSE of 0 gives one tick), active high, or low with EDGE 1. A port that has left output mode in this tick takes none. -/
def State.reachPin (s : State) (c q : Nat) : State :=
  let cfg := s.pinCfg q
  if wfld cfg 0 2 ≠ 2 then s
  else if (s.pinPort q).pulseEnd.isSome then
    ((s.count (chPage c) (chOff c Off.evf0_CH_DROP) 0 16 1).setChBit Off.evf0_MISSED0 c).setInt (pEVF 0) 1
  else s.modPin q fun t => { t with pulseEnd := some (s.now + max 1 (wfld cfg 16 16)), level := !bitAt cfg 2 }

/-- A wake source in STANDBY or DORMANT: the first is kept for WAKE (R573). -/
def State.wakeBy (s : State) (src c : Nat) : State :=
  let st := s.fld (pPWR 1) Off.pwr1_STATE 0 2
  if (st = 1 ∨ st = 2) ∧ s.power.wake = none then s.onPower fun w => { w with wake := some (src, c) } else s

/-- CH_CFG of a channel as it acts in this tick (R484). -/
def State.chCfg (s : State) (c : Nat) : Word := s.evReg (chPage c) (chOff c Off.evf0_CH_CFG)

/-- Does a channel deliver nothing, SUSPEND being 1 and its LOOP bit set (R483)? -/
def State.chHeldOff (s : State) (c : Nat) : Bool := bitAt (s.chCfg c) 29 && s.chBit Off.evf0_LOOP0 c

/-- The number of the 1 ms window of this tick, counted from the release of the always-on island's reset (R482). -/
def State.evWindow (s : State) : Nat := (s.now - s.power.relAt) / 250000

/-- The window of every channel closes: its count restarts and a changed RATE_LIMIT applies (R482, R484). -/
def State.nextWindow (s : State) : Nat → State
  | 0 => s
  | n + 1 => (s.modChan n fun h => { h with winCount := 0, winLimit := wfld (s.chCfg n) 16 12 }).nextWindow n

/-- The counts are those of the window of this tick (R482). -/
def State.windowSync (s : State) : State :=
  if s.evWindow = s.evf.win then s else (s.nextWindow 256).onEvf fun e => { e with win := s.evWindow }

/-- What a channel's own registers, window and gap show of an event that it delivers (R481, R482, R484, R488): EVENTS, SEEN and the IRQ;
the window count, which past RATE_LIMIT sets LOOP with LOOP_SUSPECT, LOOP_ANY and EVF0's PG_EVT_OUT0; and the gap that starts. -/
def State.delivered (s0 : State) (c : Nat) : State :=
  let s := s0.windowSync
  let cfg := s.chCfg c
  let s1 := (s.countWrap (chPage c) (chOff c Off.evf0_CH_CNT) 0 16 1).setChBit Off.evf0_SEEN0 c
  let s2 := if bitAt cfg 28 then s1.setInt (pEVF 0) 0 else s1
  let h := s2.chan c
  let gap := wfld cfg 0 16
  let s3 := s2.modChan c fun h =>
    { h with winCount := h.winCount + 1, gapEnd := if gap = 0 then h.gapEnd else s.now + gap }
  if h.winLimit ≠ 0 ∧ h.winCount + 1 = h.winLimit + 1 then
    (((s3.setChBit Off.evf0_LOOP0 c).raise (pEVF 0) 9).setInt (pEVF 0) 2).produce (pEVF 0) 0
  else s3

/-- A channel delivers one event now: what the channel shows of it, the wake (R573), and the bound consumer, or none. A pulse that ends
in this tick ends before the event reaches its port (R480). -/
def State.deliver (s : State) (c : Nat) : State :=
  let s4 := s.delivered c
  let s5 := if s4.bit (pPWR 1) (Off.pwr1_WAKE_CH0 + 4 * (c / 32)) (c % 32) then s4.wakeBy 0 c else s4
  let b := s5.evReg (chPage c) (chOff c Off.evf0_CH_BIND)
  if !bitAt b 13 then s5
  else if bitAt b 12 then (s5.pinEnd (wfld b 0 5)).reachPin c (wfld b 0 5)
  else s5.reachInput c (wfld b 0 10) (wfld b 10 2)

/-- An event that a channel may deliver now is withheld while SUSPEND and LOOP hold (R483), and delivered otherwise. -/
def State.deliverOr (s : State) (c : Nat) : State :=
  if s.chHeldOff c then s.count (chPage c) (chOff c Off.evf0_CH_DROP) 16 16 1 else s.deliver c

/-- At the end of its gap a channel delivers the event held in it (R481). -/
def State.gapOver (s : State) (c : Nat) : State :=
  let h := s.chan c
  if h.held && decide (h.gapEnd ≤ s.now) then (s.modChan c fun h => { h with held := false }).deliverOr c else s

/-- The oldest tick's assertions of a channel reach it (R477, R478, R481, R483): they merge into one event, which is
withheld while SUSPEND and LOOP hold, held or merged during a gap, and delivered otherwise. -/
def State.channelEvent (s0 : State) (c : Nat) : State :=
  let s := s0.gapOver c
  match (s.chan c).pend with
  | [] => s
  | t :: ts =>
    let s1 := s.modChan c fun h => { h with pend := ts.filter (· != t) }
    let s2 := s1.count (chPage c) (chOff c Off.evf0_CH_CNT) 16 16 (ts.filter (· == t)).length
    if s2.chHeldOff c then s2.count (chPage c) (chOff c Off.evf0_CH_DROP) 16 16 1
    else if s2.now < (s2.chan c).gapEnd then
      if (s2.chan c).held then s2.count (chPage c) (chOff c Off.evf0_CH_CNT) 16 16 1
      else s2.modChan c fun h => { h with held := true }
    else s2.deliver c

/-- EVENT_DELIVER (R477 to R488): the assertions of a tick reach their channel from 16 ns, 4 ticks, after it. -/
def execEventDeliver (c : Nat) (s : State) : Step :=
  .next (match (s.chan c).pend with
    | [] => s
    | t :: _ => if s.now < t + 4 then s else s.channelEvent c)

/-- MIN_GAP_EXPIRY (R481): at the gap's end the held event is delivered, unless the channel is suspended (R483). -/
def execMinGapExpiry (c : Nat) (s : State) : Step := .next (s.gapOver c)

/-- RATE_WINDOW_END (R482): the window of this tick is a new one. LOOP was set by the delivery that exceeded the limit
(notes/assumptions/20.md). -/
def execRateWindowEnd (s : State) : Step := .next s.windowSync

/-- SW_FIRE (R487): with GO, software is one more producer of the channel, in the next tick. -/
def execSwFire (m : Master) (v : Word) (s : State) : Step :=
  .next (s.regWrite m (pEVF 0) Off.evf0_SW_FIRE fun t => if bitAt v 8 then t.assertAt (wfld v 0 8) (t.now + 1) else t)

/-- EVENT_PORT_WRITE (R476): `k` 0 to 3 names PG_EVT_OUT0 to 3, 4 to 7 PG_EVT_IN0 to 3 of page `p`. An input's write
binds its channel, releases the old one, or is discarded when another input holds the channel. -/
def execEventPortWrite (m : Master) (p k : Nat) (v : Word) (s : State) : Step :=
  let o := Off.hdr_PG_EVT_OUT0 + 4 * k
  let w := wd (wfld v 0 9)
  .next (s.regWrite m p o fun t =>
    if k < 4 then t.evPut p o w
    else
      let old := t.reg p o
      let c := wfld v 0 8
      let i := k - 4
      let freed := if bitAt old 8 then t.unbind (wfld old 0 8) else t
      if bitAt v 8 then
        if t.boundElsewhere c p i false then t.bindConflict c p i false
        else (freed.bind c p i false).setReg p o w
      else freed.setReg p o w)

/-- PIN_INPUT_EDGE (R489): a ball level change that outlasts FILTER; an input port asserts its channel on the selected
edge. -/
def execPinInputEdge (q : Nat) (level : Bool) (s : State) : Step :=
  let cfg := s.pinCfg q
  let was := (s.pinPort q).level
  let s1 := if wfld cfg 0 2 = 2 then s else s.modPin q fun t => { t with level := level }
  if wfld cfg 0 2 = 1 && was != level && level != bitAt cfg 2 then .next (s1.assertCh (wfld cfg 8 8)) else .next s1

/-- PIN_PULSE_END (R489). -/
def execPinPulseEnd (q : Nat) (s : State) : Step := .next (s.pinEnd q)

/-- PIN_CFG_WRITE (R489, *EVF1 pin ports*): MODE 3 is discarded with CFG_INVALID; a write during a pulse waits for its
end. -/
def execPinCfgWrite (m : Master) (q : Nat) (v : Word) (s : State) : Step :=
  .next (s.regWrite m (pEVF 1) (Off.evf1_PIN_CFG + 4 * q) fun t =>
    if wfld v 0 2 = 3 then t.raise (pEVF 1) 10
    else if (t.pinPort q).pulseEnd.isSome then t.modPin q fun x => { x with pendCfg := some v }
    else t.applyPinCfg q v)

/-- Computed registers of EVF0 and EVF1: BOUND counts the bound channels, PIN_STAT shows the balls of ports whose MODE
is not 0. -/
def State.viewEvents (s : State) (p o : Nat) : Option Word :=
  if p = pEVF 0 ∧ o = Off.evf0_BOUND then
    some (wd ((List.range 256).filter fun c => s.bit (chPage c) (chOff c Off.evf0_CH_BIND) 13).length)
  else if p = pEVF 1 ∧ o = Off.evf1_PIN_STAT then
    some (wd ((List.range 32).foldl (fun acc q =>
      acc + (if wfld (s.pinCfg q) 0 2 ≠ 0 ∧ (s.pinPort q).level then 2 ^ q else 0)) 0))
  else none

end Sys2Proof.Machine
end

