-- ==== Sys2Proof/Machine/Sensors.lean ====
section
/-!
DEFINITION. CSI-2 ports, I3C controllers and Dralek Link receivers (R92 to R119, R131).
-/

namespace Sys2Proof

open Machine

/-! ## Blocks of the Dralek Link -/

/-- The payload bytes of a block (R100): the self-synchronising scrambler x^58 + x^39 + 1 undone, bytes least significant bit first. -/
def DlkBlock.bytes (b : DlkBlock) : List Nat :=
  let x := b.prev % 2 ^ 58 + b.bits % 2 ^ 64 * 2 ^ 58
  let d := Nat.xor (Nat.xor (x / 2 ^ 58) (x / 2 ^ 19)) x
  (List.range 8).map fun i => d / 2 ^ (8 * i) % 256

/-- Byte `i` of a block's payload, and bytes `i` to `i + n - 1` as a number, the lowest first (notes/assumptions/170.md). -/
def DlkBlock.byte (b : DlkBlock) (i : Nat) : Nat := b.bytes.getD i 0
def DlkBlock.num (b : DlkBlock) (i n : Nat) : Nat := ofLeBytes (((b.bytes.drop i).take n).map (BitVec.ofNat 8))

/-- A control block, and a data block, by its sync header (R100). -/
def DlkBlock.control (b : DlkBlock) : Bool := b.sync % 4 == 2
def DlkBlock.data (b : DlkBlock) : Bool := b.sync % 4 == 1

/-- Is a control block's type known, and does its CRC-8 over bytes 0 to 6 hold (R100, R101)? IDLE and PAD carry none. -/
def DlkBlock.valid (b : DlkBlock) : Bool :=
  (b.byte 0 == 0x1E || b.byte 0 == 0x78) ||
  ([0x4B, 0x33, 0x2D, 0x55, 0x66, 0x99].contains (b.byte 0) && crc8 ((b.bytes.take 7).map (BitVec.ofNat 8)) == b.byte 7)

/-- The control block that the head sends for bytes 0 to 6, on a lane whose last payload bits were zeros. -/
def DlkBlock.ofBytes (l : List Nat) : DlkBlock :=
  let bs := l ++ [crc8 (l.map (BitVec.ofNat 8))]
  let d := ofLeBytes (bs.map (BitVec.ofNat 8))
  ⟨2, 0, (List.range 64).foldl (fun y i =>
    let bit := Bool.xor (Bool.xor (d.testBit i) (decide (39 ≤ i) && y.testBit (i - 39))) (decide (58 ≤ i) && y.testBit (i - 58))
    y + bit.toNat * 2 ^ i) 0⟩

end Sys2Proof

namespace Sys2Proof.Machine

open Sys2Proof

/-! ## CSI-2 ports -/

/-- A sensor port beside its registers. -/
def State.modPort (s : State) (n : Nat) (f : SensPort → SensPort) : State :=
  s.onCap fun x => { x with ports := Map.put (fun _ => {}) x.ports n (f (Map.get (fun _ => {}) x.ports n)) }
def State.port (s : State) (n : Nat) : SensPort := Map.get (fun _ => {}) s.cap.ports n

/-- The lead of the gang that port `n` belongs to; `n` itself outside a gang (R98). -/
def State.gangLead (s : State) (n : Nat) : Nat :=
  ([8, 4, 2].map fun g => (g, n / g * g)).find? (fun e => s.gangSize e.2 == e.1) |>.map (·.2) |>.getD n

/-- Update the streams of CSI-2 port `l`'s virtual channel. -/
def State.modSource (s : State) (l vc : Nat) (f : CapStream → CapStream) : State :=
  s.streams.foldl (fun u c =>
    let w := u.scx c
    if capKind w = 0 ∧ capIndex w = l ∧ capVc w = vc then u.modStream c f else u) s

/-- A frame start or end of a virtual channel: the lead's goes to the streams; a member's that comes more than 100 µs after
the lead's of the same kind marks the frame GANG_SKEW. At a frame start the port's segments of the channel start again (R99). -/
def State.sensDelimiter (s : State) (n vc : Nat) (start : Bool) (it : CapItem) : State :=
  let l := s.gangLead n
  let s1 := if start then s.modPort n fun p => { p with segs := Map.keep (fun k => decide (k / 64 ≠ vc)) p.segs } else s
  if l = n then
    (s1.modPort n fun p => if start then { p with fsAt := Map.ins p.fsAt vc (some s.now), feAt := Map.ins p.feAt vc none }
      else { p with feAt := Map.ins p.feAt vc (some s.now) }).capDeliver 0 n vc (fun _ => true) it
  else match Map.get (fun _ => none) (if start then (s.port l).fsAt else (s.port l).feAt) vc with
    | some t => if t + 25000 < s.now then
        (s1.raise (pSENS l) 12).modSource l vc fun x => { x with addFlags := Nat.lor x.addFlags (2 ^ 8) }
      else s1
    | none => s1

/-- Fill value for the segments of a ganged source: that of the lead's stream for the channel and data type (R99). -/
def State.gangFill (s : State) (l vc dt : Nat) : Nat :=
  match s.streams.find? fun c => let w := s.scx c
      capKind w == 0 && capIndex w == l && capVc w == vc && capDt w == dt with
  | some c => s.capFill (s.scx c)
  | none => 0

/-- Segments waiting on a member for a virtual channel and data type. -/
def State.segsOf (s : State) (n vc dt : Nat) : List (List Nat × Bool) := Map.get (fun _ => []) (s.port n).segs (vc * 64 + dt)

/-- A member's line segment (R99): padded or truncated to SEG_W and counted; when every member has delivered its line,
the segments in port order are the line, bad when a member's CRC failed (R97). -/
def State.sensSegment (s : State) (n vc dt : Nat) (pix : List Nat) (bad : Bool) : State :=
  let l := s.gangLead n
  let w := s.fld (pSENS n) Off.sens_SEG_W 0 16
  let s1 := if pix.length < w then s.count (pSENS n) Off.sens_CNT_LINE 0 16 1
    else if w < pix.length then s.count (pSENS n) Off.sens_CNT_LINE 16 16 1 else s
  let s2 := s1.modPort n fun p =>
    { p with segs := Map.put (fun _ => []) p.segs (vc * 64 + dt) (s1.segsOf n vc dt ++ [(fit w (s1.gangFill l vc dt) pix, bad)]) }
  let ms := (List.range (s.gangSize l)).map (l + ·)
  if ms.all fun j => !(s2.segsOf j vc dt).isEmpty then
    let segs := ms.map fun j => (s2.segsOf j vc dt).headD ([], false)
    let s3 := ms.foldl (fun t j => t.modPort j fun p =>
      { p with segs := Map.put (fun _ => []) p.segs (vc * 64 + dt) ((s2.segsOf j vc dt).drop 1) }) s2
    s3.capDeliver 0 l vc (fun v => capDt v == dt) (.line (segs.flatMap Prod.fst) (segs.any Prod.snd))
  else s2

/-- The data types that a port accepts (*CSI-2 packets accepted*). -/
def dtAccepted (dt : Nat) : Bool :=
  [0x00, 0x01, 0x02, 0x03, 0x12, 0x1E, 0x1F, 0x2B, 0x2C, 0x2D, 0x2E, 0x2F].contains dt

/-- An accepted packet passes on (R93, R99): `data` is the frame number of a frame start, embedded bytes, or pixels. -/
def State.sensPass (s : State) (n vc dt : Nat) (data : List Nat) (bad : Bool) : State :=
  match dt with
  | 0x00 => (s.sensDelimiter n vc true (.fs (data.headD 0))).produce (pSENS n) 0
  | 0x01 => s.sensDelimiter n vc false .fe
  | 0x02 | 0x03 => s
  | 0x12 => s.capDeliver 0 n vc (fun _ => true) (.emb data bad)
  | _ => if s.gangSize (s.gangLead n) = 1 then s.capDeliver 0 n vc (fun v => capDt v == dt) (.line data bad)
    else s.sensSegment n vc dt data bad

/-- A high-speed burst reaches port `n` (R96, *SENSn page*): above 1.5 Gb/s on D-PHY before DESKEW.DONE it sets LANE_SYNC, and STAT.LINK
shows a sync error until a burst that needs no calibration or finds it done. -/
def State.sensBurst (s : State) (n : Nat) : State :=
  let p := pSENS n
  let early := decide (s.fld p Off.sens_CFG 0 2 = 1 ∧ 150 < s.fld p Off.sens_CFG 8 10 ∧ s.bit p Off.sens_DESKEW 0 = false)
  let s1 := s.modPort n fun x => { x with burst := some s.now, syncErr := early }
  if early then (s1.raise p 11).produce p 1 else s1

/-- CSI2_PACKET (R93, R95 to R97): lane calibration, header ECC, the data types and channels accepted, payload CRC. PHY 3 and reserved
lane counts receive as any other setting (DESIGN CHOICE, notes/assumptions/168.md). -/
def execCsi2Packet (n vc dt : Nat) (hdr : ReadErr) (bad : Bool) (data : List Nat) (s : State) : Step :=
  let p := pSENS n
  if !s.alive p || s.fld p Off.sens_CFG 0 2 = 0 then .next s
  else
    let s0 := (s.countWrap p Off.sens_CNT_PKT 0 32 1).sensBurst n
    match hdr with
    | .uncorrectable => .next (((s0.count p Off.sens_CNT_ECC 16 16 1).raise p 8).produce p 1)
    | _ =>
      let s1 := match hdr with
        | .corrected =>
          (s0.count p Off.sens_CNT_ECC 0 16 1).modSource (s.gangLead n) vc fun x => { x with corrected := x.corrected + 1 }
        | _ => s0
      if !dtAccepted dt || decide (16 ≤ vc) then .next ((s1.count p Off.sens_CNT_CRC 16 16 1).raise p 10)
      else
        let s2 := s1.putBit p Off.sens_STAT (16 + vc) true
        let isBad := bad && decide (4 ≤ dt)
        let s3 := if isBad then ((s2.count p Off.sens_CNT_CRC 0 16 1).raise p 9).produce p 1 else s2
        .next (s3.sensPass n vc dt data isBad)

/-- DESKEW_SEQUENCE (R96): every sequence runs the calibration. -/
def execDeskewSequence (n : Nat) (periodic : Bool) (s : State) : Step :=
  let p := pSENS n
  if !s.alive p || s.fld p Off.sens_CFG 0 2 ≠ 1 then .next s
  else
    let s1 := (s.putBit p Off.sens_DESKEW 0 true).modPort n fun x => { x with syncErr := false }
    .next (if periodic then s1.putBit p Off.sens_DESKEW 1 true else s1)

/-! ## I3C -/

/-- I3C_CMD (R131): queues a transfer; with 32 commands queued the write is discarded with STATE_WRITE. -/
def execI3cCmd (m : Master) (n : Nat) (v : Word) (s : State) : Step :=
  .next (s.regWrite m (pSENS (2 * n)) Off.sens_I3C_CMD fun t =>
    if 32 ≤ (t.i3c n).cmds.length then t.stateWrite (pSENS (2 * n))
    else (t.modI3c n fun x => { x with cmds := x.cmds ++ [v] }).i3cStart n)

/-- The CCCs that a controller supports (R131), each with its broadcast and direct codes: ENEC, DISEC, RSTDAA, ENTDAA, SETMWL, SETMRL,
SETDASA, GETPID, GETBCR, GETDCR, GETSTATUS, GETMXDS (notes/assumptions/169.md). -/
def cccSupported (c : Nat) : Bool :=
  [0x00, 0x80, 0x01, 0x81, 0x06, 0x07, 0x09, 0x89, 0x0A, 0x8A, 0x87, 0x8D, 0x8E, 0x8F, 0x90, 0x94].contains c

/-- The dynamic addresses after a command that was acknowledged (R131): ENTDAA assigns ADDR, SETDASA the address in the first byte
sent, RSTDAA takes all back (notes/assumptions/169.md). -/
def I3c.addresses (x : I3c) (v : Word) : List Nat :=
  let add := fun (a : Nat) => if x.dyn.contains a then x.dyn else x.dyn ++ [a]
  if !bitAt v 24 then x.dyn
  else match wfld v 16 8 with
    | 0x06 => []
    | 0x07 => add (wfld v 0 7)
    | 0x87 => add ((x.tx.headD 0).toNat / 2)
    | _ => x.dyn

/-- The end of a firmware command (R131): DONE or NACK; a write takes LENGTH bytes from the transmit FIFO, a read puts its bytes into
the receive FIFO of 64. A CCC that the controller does not support, and any in I²C-only mode, ends with NACK (DESIGN CHOICE,
notes/assumptions/169.md). -/
def State.i3cFirmware (s : State) (n : Nat) (v : Word) (nack : Bool) (data : List Byte) : State :=
  let p := pSENS (2 * n)
  let no := nack || (bitAt v 24 && (!cccSupported (wfld v 16 8) || s.fld p Off.sens_I3C_CFG 0 2 == 2))
  let len := wfld v 8 8
  let s1 := s.modI3c n fun x =>
    { x with dyn := if no then x.dyn else x.addresses v, tx := if bitAt v 7 then x.tx else x.tx.drop len,
             rx := if bitAt v 7 && !no then (x.rx ++ data.take len).take 64 else x.rx }
  let s2 := (s1.putBit p Off.sens_I3C_STAT 1 (!no)).putBit p Off.sens_I3C_STAT 2 no
  if no then (s2.count p Off.sens_I3C_COUNT 0 16 1).raise p 13 else s2

/-- The end of a sequencer's write (R133, R135): its stream has the answer. -/
def State.i3cSequencer (s : State) (n : Nat) (w : I3cWrite) (nack : Bool) : State :=
  let p := pSENS (2 * n)
  let s1 := s.modStream w.stream fun x => { x with seq := x.seq.map fun l => { l with ack := some (!nack) } }
  if nack then (s1.count p Off.sens_I3C_COUNT 0 16 1).raise p 13 else s1

/-- I3C_TRANSFER_DONE (R131, R134): the transfer under way ends, and the next one starts at this boundary. -/
def execI3cTransferDone (n : Nat) (nack : Bool) (data : List Byte) (s : State) : Step :=
  if !s.alive (pSENS (2 * n)) then .next s
  else
    let s1 := s.modI3c n fun x => { x with cur := none }
    match (s.i3c n).cur with
    | none => .next s
    | some (.firmware v) => .next ((s1.i3cFirmware n v nack data).i3cStart n)
    | some (.sequencer w) => .next ((s1.i3cSequencer n w nack).i3cStart n)

/-- I3C_IBI (R131): an in-band interrupt with its mandatory byte, on an I3C bus; a hot-join request, which carries address 2, is
NACKed. -/
def execI3cIbi (n addr mdb : Nat) (s : State) : Step :=
  let p := pSENS (2 * n)
  if !s.alive p || s.fld p Off.sens_I3C_CFG 0 2 ≠ 1 || addr % 128 = 2 then .next s
  else
    let s1 := s.setReg p Off.sens_I3C_IBI (wd (addr % 128 + 128 + mdb % 256 * 256))
    .next (((s1.count p Off.sens_I3C_COUNT 16 16 1).putBit p Off.sens_I3C_STAT 3 true).produce p 2)

/-! ## Dralek Link receivers -/

/-- A position of a receiver. -/
def State.dpos (s : State) (n p : Nat) : DlkPos := Map.get (fun _ => {}) s.cap.pos (n * 16 + p)
def State.modDpos (s : State) (n p : Nat) (f : DlkPos → DlkPos) : State :=
  s.onCap fun x => { x with pos := Map.put (fun _ => {}) x.pos (n * 16 + p) (f (Map.get (fun _ => {}) x.pos (n * 16 + p))) }

/-- The Swift lane at position `p` of receiver `n` (R103). -/
def State.dlkLane (s : State) (n p : Nat) : Option Nat :=
  (List.range 192).find? fun l => let w := s.reg (pSWIFT l) Off.swift_LANE_CFG
    wfld w 0 3 == 3 && wfld w 8 8 == n && wfld w 16 4 == p

/-- Apply an update to the SWIFT page of a position, if it has a lane. -/
def State.onLane (s : State) (n p : Nat) (f : State → Nat → State) : State :=
  match s.dlkLane n p with
  | some l => f s (pSWIFT l)
  | none => s

/-- MAP nibble of a position (*DLKn page*). -/
def State.dlkMap (s : State) (n p : Nat) : Nat :=
  if p < 8 then s.fld (pDLK n) Off.dlk_MAP_LO (4 * p) 4 else s.fld (pDLK n) Off.dlk_MAP_HI (4 * (p - 8)) 4
def State.setDlkMap (s : State) (n p v : Nat) : State :=
  if p < 8 then s.setFld (pDLK n) Off.dlk_MAP_LO (4 * p) 4 v else s.setFld (pDLK n) Off.dlk_MAP_HI (4 * (p - 8)) 4 v

/-- STATE of a receiver; a change produces PG_EVT_OUT0. -/
def State.dlkState (s : State) (n : Nat) : Nat := s.fld (pDLK n) Off.dlk_STATE 0 3
def State.setDlkState (s : State) (n v : Nat) : State :=
  if s.dlkState n = v then s else (s.setFld (pDLK n) Off.dlk_STATE 0 3 v).produce (pDLK n) 0

/-- SPARES_FREE follows the pool. -/
def State.dlkPool (s : State) (n : Nat) : State :=
  s.setFld (pDLK n) Off.dlk_STATE 8 8 ((List.range 14).filter fun p => (s.dpos n p).pool).length

/-- A control block whose CRC-8 fails or whose type is unknown is discarded and counted (R101). -/
def State.ctrlCrc (s : State) (n : Nat) : State := (s.count (pDLK n) Off.dlk_COUNTS 24 8 1).raise (pDLK n) 15

/-- Every virtual channel of the group ends its frame BROKEN and waits for a FRAME_START (R109, R111). -/
def State.dlkBreak (s : State) (n : Nat) : State :=
  (s.capBreakAll 1 n).modDlk n fun x => { x with waitFs := 0xFFFF }

/-- The positions a message leaves on (R114): the lowest-numbered one that carries an active lane and the lowest-numbered available
spare; with no spare, the first alone. -/
def State.dlkTxOn (s : State) (n : Nat) : List Nat :=
  (((List.range 14).find? fun p => (s.dpos n p).active).toList) ++ ((List.range 14).find? fun p => (s.dpos n p).pool).toList

/-- Put messages on the wire (R114). -/
def State.dlkSend (s : State) (n : Nat) (ms : List BcMsg) : State :=
  s.modDlk n fun x => { x with sent := ms, sentOn := s.dlkTxOn n }

/-- The LANE record of R514: a halfword per Swift lane (notes/assumptions/26.md). -/
def State.laneRecord (s : State) : CocoonReq :=
  { rank := 4, off := 0x1400, type := 0x0903,
    payload := (List.range 192).flatMap fun l => leBytes 2 (Map.get (fun _ => 0) s.dep.lane l) }

/-- The logical lane of a position (R108): MAP's; before the group has aligned, that of its marker, and with none yet the lowest
that no other active position carries (DESIGN CHOICE, notes/assumptions/171.md). -/
def State.dlkLogical (s : State) (n p : Nat) : Nat :=
  let of := fun (q : Nat) => if s.dlkMap n q < 12 then some (s.dlkMap n q) else (s.dpos n q).marker.map (·.2.1)
  let others := ((List.range 14).filter fun q => q != p && (s.dpos n q).active).filterMap of
  (of p).getD (((List.range 12).find? fun l => !others.contains l).getD 0)

/-- Send SPARE_MAP for a failed lane on the lowest free spare, or go DOWN when there is none (R111, R112, R119). The Coneda's own
messages carry SEQ 0 (DESIGN CHOICE, notes/assumptions/170.md). -/
def State.dlkSpare (s : State) (n lane : Nat) : State :=
  match (List.range 14).find? fun p => (s.dpos n p).pool with
  | none => (s.setDlkState n 5).raise (pDLK n) 10
  | some q =>
    let s1 := (s.setDlkState n 4).modDlk n fun x => { x with swap := some (lane, q, 1, s.now) }
    s1.dlkSend n [⟨5, 0, lane + q * 256⟩]

/-- A position fails (R110, R111, R113): FAILED, FAIL_COUNT, LANE_FAIL; a third failure retires it and commits the LANE
record. A spare leaves the pool; an active position is spared, but in LOCK, which only block lock on all active positions leaves
(R119), it stays one of those the group waits for (DESIGN CHOICE, notes/assumptions/171.md). -/
def State.dlkFail (s : State) (n p : Nat) : State :=
  let pos := s.dpos n p
  let spare := pos.pool || (decide (s.dlkState n = 1) && !pos.active && (s.dlkLane n p).isSome && decide (s.dlkMap n p = 0xF))
  if !pos.active && !spare then s
  else
    let cnt := match s.dlkLane n p with
      | some l => min 3 (s.fld (pSWIFT l) Off.swift_DLK_FAILS 0 2 + 1)
      | none => 1
    let retired := decide (3 ≤ cnt)
    let s1 := s.onLane n p fun t l =>
      ((t.putBit l Off.swift_DLK_LSTAT 2 true).setFld l Off.swift_DLK_FAILS 0 2 cnt).putBit l Off.swift_DLK_LSTAT 3 retired
    let s2 := ((s1.raise (pDLK n) 8).produce (pDLK n) 1)
    let s3 := match s.dlkLane n p with
      | some l =>
        let t := s2.onDep fun d => { d with lane := Map.put (fun _ => 0) d.lane l (cnt + retired.toNat * 4) }
        if retired then t.cocoonPut t.laneRecord else t
      | none => s2
    let lane := s3.dlkLogical n p
    let waits := decide (s3.dlkState n = 1) && pos.active && !retired
    let s4 := if waits then s3.modDpos n p fun x => { x with clean := 0, marker := none }
      else (s3.setDlkMap n p (if retired then 0xD else 0xE)).modDpos n p fun x =>
        { x with active := false, pool := false, clean := 0, marker := none }
    let s5 := s4.dlkPool n
    if spare then s5
    else match s5.dlkState n with
      | 2 | 3 => (s5.dlkBreak n).dlkSpare n lane
      | 4 => s5.modDlk n fun x => { x with failed := x.failed ++ [lane] }
      | _ => s5

/-- In LOCK with block lock on every one of the N active positions the group enters ALIGN; locked spares form the pool
(R119). -/
def State.dlkTryAlign (s : State) (n : Nat) : State :=
  let act := (List.range 14).filter fun p => (s.dpos n p).active
  if s.dlkState n = 1 ∧ act.length = s.fld (pDLK n) Off.dlk_CFG 4 4 ∧ act.all (fun p => (s.dpos n p).lock) then
    let s1 := (List.range 14).foldl (fun t p =>
      if (t.dpos n p).lock && !(t.dpos n p).active && (t.dlkLane n p).isSome && t.dlkMap n p = 0xF then
        t.modDpos n p fun x => { x with pool := true }
      else t) s
    (s1.dlkPool n).setDlkState n 2
  else s

/-- DLK_BLOCK_LOCK_ACQUIRED (R113, R119): a position gains block lock. -/
def execDlkBlockLockAcquired (n p : Nat) (s : State) : Step :=
  if !s.alive (pDLK n) || s.dlkState n = 0 then .next s
  else
    let back := s.dlkState n == 1 && (s.dpos n p).active
    let s1 := (s.modDpos n p fun x => { x with lock := true, clean := 0, since := s.now }).onLane n p fun t l =>
      (t.putBit l Off.swift_DLK_LSTAT 0 true).putBit l Off.swift_DLK_LSTAT 2 (t.bit l Off.swift_DLK_LSTAT 2 && !back)
    .next (s1.dlkTryAlign n)

/-- Invalid sync headers among 64 consecutive ones (R100, R110). -/
def badHeaders (hdrs : List Nat) : Nat := ((hdrs.take 64).filter fun h => h % 4 == 0 || h % 4 == 3).length

/-- DLK_BLOCK_LOCK_LOST (R100, R110): the sync headers of 64 consecutive blocks of a position; 16 invalid ones are a loss of block
lock. That, or (`full`) an elastic buffer that is full and holds no IDLE block to drop, fails the position. -/
def execDlkBlockLockLost (n p : Nat) (hdrs : List Nat) (full : Bool) (s : State) : Step :=
  if !s.alive (pDLK n) || s.dlkState n = 0 then .next s
  else
    let lost := decide (16 ≤ badHeaders hdrs)
    let s1 := s.onLane n p fun t l => t.count l Off.swift_DLK_BIP 16 16 (badHeaders hdrs)
    let s2 := if lost then (s1.modDpos n p fun x => { x with lock := false }).onLane n p fun t l => t.putBit l Off.swift_DLK_LSTAT 0 false
      else s1
    .next (if lost || full then s2.dlkFail n p else s2)

/-- DLK_IDLE_BLOCK (R106): with more than 20 blocks buffered the IDLE block is dropped and counted. -/
def execDlkIdleBlock (n p level : Nat) (s : State) : Step :=
  if !s.alive (pDLK n) || s.dlkState n = 0 then .next s
  else .next (s.onLane n p fun t l =>
    if 20 < level then (t.setFld l Off.swift_DLK_LSTAT 8 6 (level - 1)).count l Off.swift_DLK_FILL 16 16 1
    else t.setFld l Off.swift_DLK_LSTAT 8 6 level)

/-- DLK_ELASTIC_UNDERFLOW (R106): with fewer than 4 blocks buffered a filler is inserted; more than INS_BUDGET in one marker
interval set FILL_OVER. -/
def execDlkElasticUnderflow (n p level : Nat) (s : State) : Step :=
  if !s.alive (pDLK n) || s.dlkState n = 0 || 4 ≤ level then .next s
  else
    let s1 := (s.modDpos n p fun x => { x with inserted := x.inserted + 1 }).onLane n p fun t l =>
      (t.setFld l Off.swift_DLK_LSTAT 8 6 level).count l Off.swift_DLK_FILL 0 16 1
    .next (if s.fld (pDLK n) Off.dlk_FAIL_CFG 8 8 < (s1.dpos n p).inserted then s1.raise (pDLK n) 14 else s1)

/-- The markers of the active positions: their block times when all carry one SEQ (R108). -/
def State.dlkRow (s : State) (n : Nat) : Option (List Nat) :=
  let ms := ((List.range 14).filter fun p => (s.dpos n p).active).map fun p => (s.dpos n p).marker
  match ms with
  | some (q, _, _) :: _ =>
    if ms.all fun m => match m with
      | some (q', _, _) => q' == q
      | none => false
    then some (ms.filterMap fun m => m.map fun x => x.2.2) else none
  | _ => none

/-- Largest difference of block times. -/
def spread (l : List Nat) : Nat := l.foldl max 0 - l.foldl min (l.headD 0)

/-- Every active position takes its logical lane from its marker (R108). -/
def State.dlkTakeMap (s : State) (n : Nat) : State :=
  (List.range 14).foldl (fun t p => match (t.dpos n p).active, (t.dpos n p).marker with
    | true, some (_, l, _) => t.setDlkMap n p (l % 16)
    | _, _ => t) s

/-- The skew of an aligned row goes to SKEW_MAX and to the lanes. -/
def State.dlkSkew (s : State) (n : Nat) (ts : List Nat) : State :=
  let sk := spread ts
  let s1 := if s.fld (pDLK n) Off.dlk_SKEW_MAX 0 7 < min 127 sk then s.setFld (pDLK n) Off.dlk_SKEW_MAX 0 7 (min 127 sk) else s
  (List.range 14).foldl (fun t p => match (t.dpos n p).active, (t.dpos n p).marker with
    | true, some (_, _, b) => t.onLane n p fun u l => u.setFld l Off.swift_DLK_LSTAT 16 7 (min 64 (b - ts.foldl min b))
    | _, _ => t) s1

/-- What a completed row of markers does in each state (R108, R109, R111, R119). -/
def State.dlkAligned (s : State) (n nact : Nat) : State :=
  match s.dlkRow n with
  | none => s
  | some ts =>
    let s1 := s.dlkSkew n ts
    match s.dlkState n with
    | 2 =>
      if 64 < spread ts then s1
      else if nact ≠ s.fld (pDLK n) Off.dlk_CFG 4 4 then s1.raise (pDLK n) 11
      else (s1.dlkTakeMap n).setDlkState n 3
    | 3 =>
      if 64 < spread ts then
        (((s1.dlkBreak n).setDlkState n 2).count (pDLK n) Off.dlk_COUNTS 0 8 1).raise (pDLK n) 9
      else s1
    | _ => s1

/-- The spare's marker announces the failed lane: the swap completes when the row is aligned, and every active
position takes its LOGICAL (R108, R111, R119). -/
def State.dlkSwapDone (s : State) (n q : Nat) : State :=
  let s1 := s.modDpos n q fun x => { x with active := true, pool := false }
  match s1.dlkRow n with
  | none => s
  | some ts =>
    if 64 < spread ts then s
    else
      let s2 := ((s1.dlkTakeMap n).dlkPool n).count (pDLK n) Off.dlk_COUNTS 8 8 1
      match (s.dlk n).failed with
      | [] => (s2.modDlk n fun x => { x with swap := none, waitFs := 0xFFFF }).setDlkState n 3
      | l :: rest => (s2.modDlk n fun x => { x with swap := none, failed := rest }).dlkSpare n l

/-- A control block that fails R101 is counted; one of the type that the row names has its effect `f`. Nothing arrives at a
receiver that is OFF or fenced. -/
def State.dlkControl (s : State) (n ty : Nat) (b : DlkBlock) (f : State) : State :=
  if !s.alive (pDLK n) || s.dlkState n = 0 || !b.control then s
  else if !b.valid then s.ctrlCrc n
  else if b.byte 0 ≠ ty then s
  else f

/-- A valid marker at position `p` with its SEQ, LOGICAL and N, the receiver's block time of its arrival, and the BIP-8 errors found
(R107 to R111, R113). -/
def State.dlkMarker (s : State) (n p seq logical nact blk bip : Nat) : State :=
    let st := s.dlkState n
    let s1 := (s.setFld (pDLK n) Off.dlk_STATE 16 16 seq).onLane n p fun t l =>
      (t.putBit l Off.swift_DLK_LSTAT 1 true).count l Off.swift_DLK_BIP 0 16 bip
    let s2 := s1.modDpos n p fun x =>
      { x with marker := some (seq, logical, blk), inserted := 0, clean := if bip = 0 then x.clean + 1 else 0, since := s.now }
    if s.fld (pDLK n) Off.dlk_FAIL_CFG 0 8 < bip then s2.dlkFail n p
    else match st, (s2.dlk n).swap with
      | 4, some (lane, q, _, _) =>
        match (s2.dpos n q).marker with
        | some (_, l, _) => if l = lane then s2.dlkSwapDone n q else s2
        | none => s2
      | _, _ => s2.dlkAligned n nact

/-- DLK_ALIGN_BLOCK (R101, R107 to R111, R113): a marker at position `p`; one that fails its CRC-8 breaks the position's run of clean
marker intervals. -/
def execDlkAlignBlock (n p : Nat) (b : DlkBlock) (blk bip : Nat) (s : State) : Step :=
  let s1 := if b.valid then s else s.modDpos n p fun x => { x with clean := 0 }
  .next (s1.dlkControl n 0x4B b (s1.dlkMarker n p (b.num 4 2) (b.byte 2) (b.byte 3 % 16) blk bip))

/-- Line rate in kb/s of CFG.RATE (R103). -/
def dlkRate (r : Nat) : Nat :=
  match r with
  | 0 => 10312500 | 1 => 12890625 | 2 => 25781250 | _ => 28125000

/-- Ticks of 4 ns in `k` block times of 66 bits. -/
def State.blockTicks (s : State) (n k : Nat) : Nat := k * 66 * 250000 / dlkRate (s.fld (pDLK n) Off.dlk_CFG 1 2)

/-- Ticks of 4 ns in four marker intervals of 16,384 blocks. -/
def State.fourMarkers (s : State) (n : Nat) : Nat := s.blockTicks n (4 * 16384)

/-- DLK_MARKER_TIMEOUT (R110, R113): no valid ALIGN block within 16,448 block times fails the position, and ends a run of clean marker
intervals. -/
def execDlkMarkerTimeout (n p : Nat) (s : State) : Step :=
  if !s.alive (pDLK n) || s.dlkState n = 0 || !(s.dpos n p).lock || s.now < (s.dpos n p).since + s.blockTicks n 16448 then .next s
  else .next (((s.modDpos n p fun x => { x with clean := 0, since := s.now }).onLane n p fun t l =>
    t.putBit l Off.swift_DLK_LSTAT 1 false).dlkFail n p)

/-- DLK_SPARE_MAP_TIMEOUT (R112): resent after 4 marker intervals; after 3 unanswered sends the group goes DOWN. -/
def execDlkSpareMapTimeout (n : Nat) (s : State) : Step :=
  match s.dlkState n, (s.dlk n).swap with
  | 4, some (lane, q, sends, t) =>
    if s.now < t + s.fourMarkers n then .next s
    else if 3 ≤ sends then .next (((s.modDlk n fun x => { x with swap := none }).setDlkState n 5).raise (pDLK n) 10)
    else .next ((s.modDlk n fun x => { x with swap := some (lane, q, sends + 1, s.now) }).dlkSend n [⟨5, 0, lane + q * 256⟩])
  | _, _ => .next s

/-- LANE_RETURNS (R113): a failed position with block lock and 16 clean marker intervals rejoins the pool, unless RETIRED. -/
def execLaneReturns (n p : Nat) (s : State) : Step :=
  let pos := s.dpos n p
  if s.alive (pDLK n) && s.dlkMap n p = 0xE && pos.lock && 16 ≤ pos.clean then
    let s1 := (s.modDpos n p fun x => { x with pool := true, clean := 0 }).onLane n p fun t l =>
      t.putBit l Off.swift_DLK_LSTAT 2 false
    .next (((s1.setDlkMap n p 0xF).dlkPool n).count (pDLK n) Off.dlk_COUNTS 16 8 1)
  else .next s

/-- Does receiver `n` take group-stream blocks: RUN, and not fenced (R109, R111, R119)? -/
def State.dlkTakes (s : State) (n : Nat) : Bool := s.alive (pDLK n) && s.dlkState n = 3

/-- DLK_FRAME_START (R101, R109): accepted in RUN; it ends the wait of its virtual channel and starts a frame on every stream of the
channel, whatever data type the block names (DESIGN CHOICE, notes/assumptions/168.md). -/
def execDlkFrameStart (n : Nat) (b : DlkBlock) (s : State) : Step :=
  let vc := b.byte 1 % 16
  let s1 := s.modDlk n fun x =>
    { x with dt := Map.put (fun _ => 0) x.dt vc (b.byte 4), waitFs := if x.waitFs.testBit vc then x.waitFs - 2 ^ vc else x.waitFs }
  .next (s.dlkControl n 0x33 b (if s.dlkTakes n then s1.capDeliver 1 n vc (fun _ => true) (.fs (b.num 2 2)) else s))

/-- DLK_FRAME_END (R101). -/
def execDlkFrameEnd (n : Nat) (b : DlkBlock) (s : State) : Step :=
  let vc := b.byte 1 % 16
  .next (s.dlkControl n 0x66 b
    (if s.dlkTakes n && !(s.dlk n).waitFs.testBit vc then s.capDeliver 1 n vc (fun _ => true) .fe else s))

/-! ### Back channel -/

/-- Streams of receiver `n` whose write carries SEQ `q` take the answer (R115, R133, R135). -/
def State.seqAnswer (s : State) (n q : Nat) (ok : Bool) : State :=
  s.streams.foldl (fun t c => let w := t.scx c
    if bitAt (wordAt w 12) 12 && capIndex w == n && c % 128 == q then
      t.modStream c fun x => { x with seq := x.seq.map fun l => { l with ack := some ok } }
    else t) s

/-- A message for firmware enters the 16-entry receive queue; a full queue keeps its entries (notes/assumptions/27.md). -/
def State.bcRx (s : State) (n : Nat) (msg : BcMsg) : State :=
  (s.modDlk n fun x => { x with rx := if x.rx.length < 16 then x.rx ++ [msg] else x.rx }).produce (pDLK n) 2

/-- A message from the head (R115, R116): a REG_ACK goes to the owner of its SEQ, a PONG gives RTT and DELAY, and HEAD_STATUS, PONG and
USER messages go to BC_RX. -/
def State.bcTake (s : State) (n code seq payload : Nat) : State :=
  if code = 0x81 then
    let s1 := s.modDlk n fun x => { x with await := x.await.filter fun e => e.1.seq != seq }
    if seq < 0x80 then s1.seqAnswer n seq (decide (payload % 256 = 0)) else s1.bcRx n ⟨code, seq, payload⟩
  else if code = 0x86 then
    let s1 := match (s.dlk n).ping with
      | some t =>
        let rtt := min (2 ^ 24 - 1) ((s.now - t) * 4)
        ((s.setReg (pDLK n) Off.dlk_RTT (wd rtt)).modDlk n fun x => { x with ping := none }).dlkSend n [⟨7, 0, rtt / 2⟩]
      | none => s
    s1.bcRx n ⟨code, seq, payload⟩
  else if code = 0x82 ∨ 0xA0 ≤ code then s.bcRx n ⟨code, seq, payload⟩
  else s

/-- A BCMSG block of the group stream. -/
def State.bcBlock (s : State) (n : Nat) (b : DlkBlock) : State := s.bcTake n (b.byte 1) (b.byte 2) (b.num 3 4)

/-- BCMSG (R101, R115, R116): taken in RUN. -/
def execBcmsg (n : Nat) (b : DlkBlock) (s : State) : Step :=
  .next (s.dlkControl n 0x99 b (if s.dlkTakes n then s.bcBlock n b else s))

/-! ### Lines -/

/-- Group-stream blocks in the order sent (R104): block `j` is the next one of logical lane `(k + j) mod N`. -/
def reassemble (lanes : Nat) : Nat → Nat → List (List DlkBlock) → List DlkBlock
  | 0, _, _ => []
  | f + 1, k, ls => match ls.getD (k % lanes) [] with
    | [] => []
    | b :: r => b :: reassemble lanes f (k + 1) (ls.set (k % lanes) r)

/-- The pixels of packed groups of RAW10, RAW12 and RAW14. -/
def unpack10 : List Nat → List Nat
  | a :: b :: c :: d :: l :: t => [a * 4 + l % 4, b * 4 + l / 4 % 4, c * 4 + l / 16 % 4, d * 4 + l / 64 % 4] ++ unpack10 t
  | _ => []
def unpack12 : List Nat → List Nat
  | a :: b :: l :: t => [a * 16 + l % 16, b * 16 + l / 16 % 16] ++ unpack12 t
  | _ => []
def unpack14 : List Nat → List Nat
  | a :: b :: c :: d :: x :: y :: z :: t =>
    let l := x + y * 256 + z * 65536
    [a * 64 + l % 64, b * 64 + l / 64 % 64, c * 64 + l / 4096 % 64, d * 64 + l / 262144 % 64] ++ unpack14 t
  | _ => []

/-- Neighbours of a list taken in pairs. -/
def inPairs (f : Nat → Nat → Nat) : List Nat → List Nat
  | a :: b :: t => f a b :: inPairs f t
  | _ => []

/-- The pixels of a line's payload, packed as CSI-2 packs the data type (R102); the inverse of `csiPack`. -/
def csiUnpack (dt : Nat) (bytes : List Nat) : List Nat :=
  let bs := bytes ++ List.replicate 7 0
  (match dt with
   | 0x2B => unpack10 bs
   | 0x2C => unpack12 bs
   | 0x2D => unpack14 bs
   | 0x2E => inPairs (fun a b => a * 256 + b) bs
   | 0x2F => inPairs (fun a b => a * 1024 + b) (unpack10 bs)
   | 0x1E => inPairs (fun a b => a + b * 256) bs
   | 0x1F => inPairs (fun a b => a + b * 1024) (unpack10 bs)
   | _ => bs).take (bytes.length * 8 / dtBits dt)

/-- What a line's blocks carry (R102): the virtual channel, the payload that LINE_START counts, and whether LINE_END's CRC-32C fails
over it. None where LINE_START or LINE_END was discarded (DESIGN CHOICE, notes/assumptions/170.md). -/
def dlkLineOf (bs : List DlkBlock) : Option (Nat × List Nat × Bool) :=
  let ctl := fun (ty : Nat) => bs.find? fun b => b.control && b.valid && b.byte 0 == ty
  match ctl 0x2D, ctl 0x55 with
  | some a, some z =>
    let bytes := ((bs.filter DlkBlock.data).flatMap DlkBlock.bytes).take (a.num 4 3)
    some (a.byte 1 % 16, bytes, decide (crc32c (bytes.map (BitVec.ofNat 8)) ≠ z.num 2 4) || decide (bytes.length < a.num 4 3))
  | _, _ => none

/-- The line of virtual channel `vc` reaches the streams of its data type, once its channel has seen a FRAME_START (R102, R109). -/
def State.dlkDeliver (s : State) (n vc : Nat) (emb : Bool) (bytes : List Nat) (bad : Bool) : State :=
  let dt := Map.get (fun _ => 0) (s.dlk n).dt vc
  if (s.dlk n).waitFs.testBit vc then s
  else if emb || decide (dt = 0x12) then s.capDeliver 1 n vc (fun _ => true) (.emb bytes bad)
  else s.capDeliver 1 n vc (fun w => capDt w == dt) (.line (csiUnpack dt bytes) bad)

/-- The group stream of a row of blocks on the logical lanes, the first on lane `k`: put in order, without PAD (R104). -/
def State.dlkGroup (s : State) (n k : Nat) (lanes : List (List DlkBlock)) : List DlkBlock :=
  (reassemble (s.fld (pDLK n) Off.dlk_CFG 4 4) ((lanes.map List.length).foldl (· + ·) 0) k lanes).filter fun b =>
    !(b.control && b.byte 0 == 0x78)

/-- DLK_LINE (R101, R102, R104): the blocks of a line on the logical lanes, its first on lane `k`; the receiver puts them in order,
counts the control blocks that fail R101, takes the messages among them, and delivers the line. `emb`: a line of
data type 0x12 (notes/assumptions/170.md). -/
def execDlkLine (n k : Nat) (emb : Bool) (lanes : List (List DlkBlock)) (s : State) : Step :=
  if !s.alive (pDLK n) || s.dlkState n = 0 then .next s
  else
    let bs := s.dlkGroup n k lanes
    let s1 := (bs.filter fun b => b.control && !b.valid).foldl (fun t _ => t.ctrlCrc n) s
    if !s.dlkTakes n then .next s1
    else
      let s2 := (bs.filter fun b => b.control && b.valid && b.byte 0 == 0x99).foldl (fun t b => t.bcBlock n b) s1
      match dlkLineOf bs with
      | some (vc, bytes, bad) => .next (s2.dlkDeliver n vc emb bytes bad)
      | none => .next s2

/-- DLK_TIME_SEND (R116): with TIME_EN, TIME_SEC and then TIME_NS, once per millisecond of TIME. -/
def execDlkTimeSend (n : Nat) (s : State) : Step :=
  let ms := s.timeNs / 1000000
  if !s.alive (pDLK n) || s.dlkState n = 0 || !s.bit (pDLK n) Off.dlk_BC_CFG 16 || (s.dlk n).timeMs == some ms then .next s
  else .next ((s.modDlk n fun x => { x with timeMs := some ms }).dlkSend n
    [⟨3, 0, s.timeNs / 1000000000 % 2 ^ 32⟩, ⟨4, 0, s.timeNs % 1000000000⟩])

/-- Has a second passed since the last PING of receiver `n`, if there was one (R116)? -/
def State.pingDue (s : State) (n : Nat) : Bool :=
  match (s.dlk n).pinged with
  | some t => decide (t + 250000000 ≤ s.now)
  | none => true

/-- PING (R116): once per second; the PONG that answers it gives RTT and sends DELAY. It needs TIME_EN, as the times do (DESIGN CHOICE,
notes/assumptions/170.md). -/
def execPing (n : Nat) (s : State) : Step :=
  if !s.alive (pDLK n) || s.dlkState n = 0 || !s.bit (pDLK n) Off.dlk_BC_CFG 16 || !s.pingDue n then .next s
  else .next ((s.modDlk n fun x => { x with ping := some s.now, pinged := some s.now }).dlkSend n [⟨6, 0, 0⟩])

/-- TRIGGER (R117): the event at PG_EVT_INm leaves as TRIGGERm ahead of the queue, with TIME nanoseconds at the event. -/
def execTrigger (n k : Nat) (s : State) : Step :=
  if !s.inBusy (pDLK n) k then .next s
  else
    let s1 := s.setBusy (pDLK n) k false
    .next (if s.alive (pDLK n) && s.dlkState n ≠ 0 then s1.dlkSend n [⟨0x10 + k % 4, 0, Map.get (fun _ => 0) (s.dlk n).trig k % 1000000000⟩] else s1)

/-- BC_TX_GO (R118): queues BC_TX0 and BC_TX1; at 64 messages it is discarded with BC_FULL. -/
def execBcTxGo (m : Master) (n : Nat) (v : Word) (s : State) : Step :=
  .next (s.regWrite m (pDLK n) Off.dlk_BC_TX_GO fun t =>
    if !bitAt v 0 then t
    else if 64 ≤ (t.dlk n).tx.length then t.raise (pDLK n) 13
    else t.modDlk n fun x => { x with tx := x.tx ++
      [⟨t.fld (pDLK n) Off.dlk_BC_TX0 0 8, t.fld (pDLK n) Off.dlk_BC_TX0 8 8, (t.reg (pDLK n) Off.dlk_BC_TX1).toNat⟩] })

/-- The marker that the Coneda sends at position `p` in the ALIGN row of its latest SEQ (R107, R114), with the BIP-8 of what it sent
there since the row before. -/
def State.dlkTxMarker (s : State) (n p bip : Nat) : DlkBlock :=
  let lane := if s.dlkMap n p < 12 then s.dlkMap n p else 0xFF
  let c := s.fld (pDLK n) Off.dlk_CFG 4 4 + s.fld (pDLK n) Off.dlk_CFG 8 2 * 16
  .ofBytes [0x4B, p, lane, c, (s.dlk n).txSeq % 256, (s.dlk n).txSeq / 256 % 256, bip % 256]

/-- The ALIGN rows that every receiver that is not OFF has sent (R107, R114): one in 16,384 block times. -/
def State.dlkRows (s : State) : State :=
  s.cap.dlk.foldl (fun t e =>
    if !t.alive (pDLK e.1) || t.dlkState e.1 = 0 then t
    else t.modDlk e.1 fun x => { x with txSeq := (t.now - x.since) / max 1 (t.blockTicks e.1 16384) % 65536 }) s

/-- The transmit queue of every receiver that is not OFF sends one message per tick (notes/assumptions/28.md); a REG_WRITE
or REG_READ then waits for its REG_ACK (R118). -/
def State.dlkDrain (s0 : State) : State :=
  let s := s0.dlkRows
  s.cap.dlk.foldl (fun t e =>
    match (t.dlk e.1).tx with
    | [] => t
    | msg :: rest =>
      if !t.alive (pDLK e.1) || t.dlkState e.1 = 0 then t
      else
        let t1 := (t.modDlk e.1 fun x => { x with tx := rest ++ x.late.take 1, late := x.late.drop 1 }).dlkSend e.1 [msg]
        if msg.code = 1 ∨ msg.code = 2 then t1.modDlk e.1 fun x => { x with await := x.await ++ [(msg, t.now, false)] }
        else t1) s

/-- BC_TIMEOUT (R118): resent once with the same SEQ; the second time BC_TIMEOUT, and its owner is told. -/
def execBcTimeout (n seq : Nat) (s : State) : Step :=
  match (s.dlk n).await.find? fun e => e.1.seq == seq with
  | none => .next s
  | some (msg, t, again) =>
    if s.now < t + 250 * s.fld (pDLK n) Off.dlk_BC_CFG 0 16 then .next s
    else
      let s1 := s.modDlk n fun x => { x with await := x.await.filter fun e => e.1.seq != seq }
      if again then
        let s2 := s1.raise (pDLK n) 12
        .next (if seq < 0x80 then s2.seqAnswer n seq false else s2)
      else .next ((s1.modDlk n fun x => { x with await := x.await ++ [(msg, s.now, true)] }).dlkSend n [msg])

/-- The receiver goes OFF (R119, R126): its frames end BROKEN, and positions, swap and queues are cleared; the failure
counts stay (R113). -/
def State.dlkOff (s : State) (n : Nat) : State :=
  let s1 := (s.capBreakAll 1 n).setDlkState n 0
  let s2 := (List.range 14).foldl (fun t p =>
    (t.modDpos n p fun _ => {}).onLane n p fun u l => u.setReg l Off.swift_DLK_LSTAT
      (u.reg l Off.swift_DLK_LSTAT &&& wd 8)) s1
  ((s2.modDlk n fun _ => {}).dlkPool n).setReg (pDLK n) Off.dlk_MAP_LO (wd 0xFFFFFFFF) |>.setReg (pDLK n)
    Off.dlk_MAP_HI (wd 0xFFFFFF)

/-- The receiver leaves OFF for LOCK (R103, R119): lanes with SPARE 0 are active, RETIRED ones stay out (R113). -/
def State.dlkOn (s : State) (n : Nat) : State :=
  let s1 := (List.range 14).foldl (fun t p => match t.dlkLane n p with
    | some l =>
      if t.bit (pSWIFT l) Off.swift_DLK_LSTAT 3 then t.setDlkMap n p 0xD
      else if t.bit (pSWIFT l) Off.swift_LANE_CFG 20 then t
      else t.modDpos n p fun x => { x with active := true, since := s.now }
    | none => t) s
  (s1.modDlk n fun x => { x with since := s.now }).setDlkState n 1

/-- A write of DLK CFG: EN is RW, the other fields are accepted while STATE is OFF (R119, R136). -/
def State.dlkCfg (s : State) (n : Nat) (v : Word) : State :=
  let was := s.bit (pDLK n) Off.dlk_CFG 0
  let s1 := s.storeFields (pDLK n) Off.dlk_CFG (decide (s.dlkState n = 0)) v
  if bitAt v 0 && !was then s1.dlkOn n else if !bitAt v 0 && was then s1.dlkOff n else s1

/-- DLK_ENABLE (R119): a CFG write with EN 1. -/
def execDlkEnable (m : Master) (n : Nat) (v : Word) (s : State) : Step :=
  .next (s.regWrite m (pDLK n) Off.dlk_CFG fun t => t.dlkCfg n (setBit v 0 true))

/-- DLK_DISABLE (R119): a CFG write with EN 0. -/
def execDlkDisable (m : Master) (n : Nat) (v : Word) (s : State) : Step :=
  .next (s.regWrite m (pDLK n) Off.dlk_CFG fun t => t.dlkCfg n (setBit v 0 false))

/-- STAT.LINK of port `n`: off, stop state, high speed in the tick of a packet, or sync error after a burst before its calibration
(R96, notes/assumptions/168.md). -/
def State.sensLink (s : State) (n : Nat) : Nat :=
  if s.fld (pSENS n) Off.sens_CFG 0 2 = 0 then 0
  else if (s.port n).syncErr then 3
  else if (s.port n).burst = some s.now then 2 else 1

/-- Computed registers of SENS and DLK pages. -/
def State.viewSensors (s : State) (p o : Nat) : Option Word :=
  match pageKind p with
  | .dlk =>
    let x := s.dlk (p - 0x160)
    if o = Off.dlk_BC_STAT then
      some (wd ((decide (64 ≤ x.tx.length)).toNat + min 64 x.tx.length * 2 + (!x.rx.isEmpty).toNat * 256))
    else if o = Off.dlk_BC_RX0 then some (wd ((x.rx.head?.map fun r => r.code + r.seq * 256).getD 0))
    else if o = Off.dlk_BC_RX1 then some (wd ((x.rx.head?.map (·.payload)).getD 0))
    else none
  | .sens =>
    if o = Off.sens_STAT then some (wset (s.reg p o) 0 2 (s.sensLink (p - 0x60)))
    else if p % 2 = 0 ∧ o = Off.sens_I3C_STAT then
      let x := s.i3c ((p - 0x60) / 2)
      some (wset (setBit (s.reg p o) 0 x.busy) 8 6 x.cmds.length)
    else if p % 2 = 0 ∧ o = Off.sens_I3C_RXDATA then
      some (wd (ofLeBytes ((s.i3c ((p - 0x60) / 2)).rx.take 4)))
    else none
  | _ => none

end Sys2Proof.Machine
end

