-- ==== Sys2Proof/Machine/Time.lean ====
section
/-!
DEFINITION. The timebase, DIST and PHASE rulers, LINE rulers' clock, and cues (R39 to R44, R51 to R87).
-/

namespace Sys2Proof.Machine

open Sys2Proof

/-! ## Swift lane assignment -/

/-- PCIe placement of a Swift lane: the owner a PCIe assignment must name (R40): 0 endpoint, 1 to 8 root ports. -/
def pcieOwner (n : Nat) : Option Nat :=
  if n < 16 then some 0
  else if 18 ≤ n ∧ n < 66 ∧ n % 6 < 4 then some (n / 6 - 2) else none

/-- Is a LANE_CFG value acceptable on lane `n` (R40, R41, R44)? The lanes that a MAC then has must be consecutive in one macro, also
while the link's other lanes are still to be assigned; the lanes of a Dralek group share a set of four macros. Reserved PROTO codes,
POSITION 14 and 15 and an OWNER that names no link are refused too, which R44 does not list (notes/assumptions/162.md). -/
def State.laneCfgOk (s : State) (n : Nat) (v : Word) : Bool :=
  let proto := wfld v 0 3
  let owner := wfld v 8 8
  let pos := wfld v 16 4
  let mates := (List.range 192).filter fun l =>
    l != n && s.fld (pSWIFT l) Off.swift_LANE_CFG 0 3 == proto && s.fld (pSWIFT l) Off.swift_LANE_CFG 8 8 == owner
  decide (proto < 4) && (proto == 3 || !bitAt v 20) && decide (pos ≤ 13) &&
    (match proto with
     | 1 => decide (owner < 16) && mates.all (fun l => l / 6 == n / 6) &&
         ((n :: mates).all fun l => l == (n :: mates).foldl max 0 || (n :: mates).contains (l + 1))
     | 2 => pcieOwner n == some owner
     | 3 => decide (owner < 16) && mates.all fun l => l / 24 == n / 24
     | _ => true)

/-- PG_STAT.RUNNING of a SWIFT page: its lane's link has work in hand: a Dralek receiver that is not OFF, a MAC whose MODE
is not 0, an enabled root port, or an endpoint that the host has enabled (notes/assumptions/34.md). -/
def State.laneRunning (s : State) (n : Nat) : Bool :=
  let w := s.reg (pSWIFT n) Off.swift_LANE_CFG
  match wfld w 0 3 with
  | 1 => s.fld (pMAC (wfld w 8 8)) Off.mac_CFG 0 3 != 0
  | 2 => if wfld w 8 8 = 0 then wfld (Map.get (fun _ => 0) s.plat.pcieCfg 4) 1 2 != 0
    else s.bit (pNVMH (wfld w 8 8 - 1)) Off.nvmh_CFG 0
  | 3 => s.dlkState (wfld w 8 8) != 0
  | _ => false

/-- LANE_CFG_WRITE (R44): on an idle page a value that breaks the placement is discarded whole with CFG_INVALID; on a page that is
not idle the idle-only rule holds. -/
def execLaneCfgWrite (m : Master) (n : Nat) (v : Word) (s : State) : Step :=
  .next (s.regWrite m (pSWIFT n) Off.swift_LANE_CFG fun t =>
    if !t.laneRunning n && !t.laneCfgOk n v then t.raise (pSWIFT n) 8
    else t.storeFields (pSWIFT n) Off.swift_LANE_CFG (!t.laneRunning n) v)

/-! ## Cues -/

/-- A cue. -/
def State.cue (s : State) (c : Nat) : Cue := Map.get (fun _ => {}) s.tb.cues c
def State.modCue (s : State) (c : Nat) (f : Cue → Cue) : State :=
  s.onTb fun t => { t with cues := Map.put (fun _ => {}) t.cues c (f (Map.get (fun _ => {}) t.cues c)) }

def cueMode (q : Cue) : Nat := wfld q.ctrl 0 2
def cueAon (q : Cue) : Bool := bitAt q.ctrl 2
def cueDir (q : Cue) : Nat := wfld q.ctrl 4 2
def cueRuler (q : Cue) : Nat := wfld q.ctrl 8 7

/-- The page that serves cue `c`, and a bit of one of its bitmaps. -/
def cuePage (c : Nat) : Nat := pCUE (c / 512)
def State.setCueBit (s : State) (base c : Nat) (b : Bool) : State :=
  s.putBit (cuePage c) (base + 4 * (c % 512 / 32)) (c % 32) b

/-- RULER codes that name a ruler (*CUE descriptor word D0*). -/
def rulerCode (r : Nat) : Bool :=
  r == 0 || (8 ≤ r && r ≤ 0xB) || (0x10 ≤ r && r ≤ 0x11) || (0x18 ≤ r && r ≤ 0x1F) || (0x40 ≤ r && r ≤ 0x7F)

/-- Is the ruler with a code valid (R55, R56, R67, R71 to R73)? -/
def State.rulerValid (s : State) (r : Nat) : Bool :=
  if r = 0 then s.bit pTIMEBASE Off.timebase_TIME_STAT 0
  else if r < 0xC then s.distValid (r - 8)
  else if r < 0x12 then s.phaseValid (r - 0x10)
  else if r < 0x20 then s.lineValid (r - 0x18)
  else s.slineValid (r - 0x40)

/-- Value of the ruler with a code, in the unit of cue targets. -/
def State.rulerVal (s : State) (r : Nat) : Int :=
  if r = 0 then s.timeNs
  else if r < 0xC then s.distVal (r - 8)
  else if r < 0x12 then (s.phase (r - 0x10)).val
  else if r < 0x20 then s.lineVal (r - 0x18)
  else s.slineVal (r - 0x40)

/-- A cue's TARGET as a number: signed for DIST. -/
def cueTarget (q : Cue) : Int := if 8 ≤ cueRuler q ∧ cueRuler q < 0xC then signed 64 q.target else q.target

/-- The direction in which a cue's ruler approaches it: 1 rising, -1 falling (R78, R83, R86). -/
def State.cueDirSign (s : State) (q : Cue) : Int :=
  let r := cueRuler q
  if 8 ≤ r ∧ r < 0xC then
    if cueDir q = 1 then 1 else if cueDir q = 2 then -1
    else
      let v := signed 32 (s.reg pDIST (dOff (r - 8) Off.dist_RATE)).toNat
      if v < 0 then -1 else if v = 0 then 0 else 1
  else 1

/-- TARGET lies behind the ruler in the cue's direction: a value equal to TARGET is behind (R78, R83). -/
def State.cueBehind (s : State) (q : Cue) : Bool :=
  let gap := cueTarget q - s.rulerVal (cueRuler q)
  decide (gap = 0) || (decide (s.cueDirSign q ≠ 0) && decide (s.cueDirSign q * gap ≤ 0))

/-- Has the ruler actually reached TARGET (R78)? A DIST cue of either direction compares with the value at its last
evaluation. -/
def State.cueCrossed (s : State) (q : Cue) : Bool :=
  let r := cueRuler q
  let v := s.rulerVal r
  let t := cueTarget q
  if 8 ≤ r ∧ r < 0xC ∧ cueDir q = 2 then decide (v ≤ t)
  else if 8 ≤ r ∧ r < 0xC ∧ cueDir q = 0 then
    match q.seen with
    | some u => decide (v = t) || (decide (u < t) && decide (t ≤ v)) || (decide (t < u) && decide (v ≤ t))
    | none => decide (v = t)
  else decide (t ≤ v)

/-- Timing of head `n` in force. -/
def State.htotal (s : State) (n : Nat) : Nat := s.fld (pDISP n) Off.disp_TIMING_H 16 16
def State.activeH (s : State) (n : Nat) : Nat := s.fld (pDISP n) Off.disp_TIMING_H 0 16
def State.vtotal (s : State) (n : Nat) : Nat := s.fld (pDISP n) Off.disp_TIMING_V 16 16
def State.activeV (s : State) (n : Nat) : Nat := s.fld (pDISP n) Off.disp_TIMING_V 0 16
def State.pclk (s : State) (n : Nat) : Nat := s.fld (pDISP n) Off.disp_PCLK 0 21

/-- Pixels from frame 0, line 0, pixel 0 to a LINE value under head `n`'s timing. -/
def State.linePixels (s : State) (n v : Nat) : Int :=
  (((v / 2 ^ 32 * s.vtotal n + v / 2 ^ 16 % 2 ^ 16) * s.htotal n + v % 2 ^ 16 : Nat) : Int)

/-- The prediction of R86: the crossing lies ahead in the cue's direction and no more than LEAD_NS away. -/
def State.cuePredicted (s : State) (q : Cue) : Bool :=
  let r := cueRuler q
  if r = 0 then decide (q.target ≤ s.timeNs + q.lead)
  else if r < 0xC then
    let d := r - 8
    let v := signed 32 (s.reg pDIST (dOff d Off.dist_RATE)).toNat
    let te := ((s.dist d).win.head?.map (·.1)).getD s.timeNs
    let gap := (cueTarget q - s.distVal d) * 1000000000 - v * 256 * ((s.timeNs - te : Nat) : Int)
    let dir := s.cueDirSign q
    !s.bit pDIST (dOff d Off.dist_STATUS) 1 && decide (0 < dir * v) && decide (0 < dir * gap) &&
      decide (dir * gap ≤ q.lead * (dir * v) * 256)
  else if r < 0x12 then
    let f := (s.reg pPHASE (phOff (r - 0x10) Off.phase_FREQ)).toNat
    let gap := cueTarget q - s.rulerVal r
    decide (0 < f) && decide (0 < gap) && decide (gap * 1000000000 ≤ q.lead * f * 65536)
  else if r < 0x20 then
    let n := r - 0x18
    let l := s.lineR n
    let now := s.linePixels n (l.frame * 2 ^ 32 + l.line * 2 ^ 16 + l.pixel)
    let gap := (s.linePixels n q.target - now) * 1000000 - l.rem
    decide (0 < gap) && decide (gap ≤ q.lead * s.pclk n)
  else
    let l := s.slineR (r - 0x40)
    let ts := (l.times.take 64).map (·.2.2)
    let n := ts.length - 1
    let h := max 1 l.height
    let pos : Nat := l.frame * h + min h (l.line.getD h)
    let target : Nat := q.target / 2 ^ 32 * h + q.target / 2 ^ 16 % 2 ^ 16
    let span := (target - pos) * (ts.headD 0 - ts.getLastD 0)
    let since := s.now - ts.headD 0
    decide (2 ≤ ts.length) && decide (pos < target) && decide (since * n < span) && decide (span * 4 ≤ (q.lead + since * 4) * n)

/-- TARGET after one STEP: LINE and SLINE carry pixels into lines and lines into frames (R80). -/
def State.cueStep (s : State) (r t step : Nat) : Nat :=
  if 0x18 ≤ r ∧ r < 0x20 then
    let ht := max 1 (s.htotal (r - 0x18))
    let vt := max 1 (s.vtotal (r - 0x18))
    let px := t % 2 ^ 16 + step % 2 ^ 16
    let ln := t / 2 ^ 16 % 2 ^ 16 + step / 2 ^ 16 % 2 ^ 16 + px / ht
    ((t / 2 ^ 32 + step / 2 ^ 32 + ln / vt) % 2 ^ 32) * 2 ^ 32 + ln % vt * 2 ^ 16 + px % ht
  else if 0x40 ≤ r then
    let h := max 1 (s.slineR (r - 0x40)).height
    let ln := t / 2 ^ 16 % 2 ^ 16 + step / 2 ^ 16 % 2 ^ 16
    ((t / 2 ^ 32 + step / 2 ^ 32 + ln / h) % 2 ^ 32) * 2 ^ 32 + ln % h * 2 ^ 16
  else (t + step) % 2 ^ 64

/-- Disarm a cue: ARMED clears and D0.MODE stays (R80). -/
def State.cueDisarm (s : State) (c : Nat) : State :=
  (s.modCue c fun q => { q with status := setBit q.status 0 false, due := none, predicted := false }).setCueBit
    Off.cue_ARMED0 c false

/-- After a firing or a passed target: a once cue is disarmed; a periodic one has its TARGET `t`, and `dec` counts COUNT down
(R80, R83). -/
def State.cueNext (s : State) (c t : Nat) (dec : Bool) : State :=
  let q := s.cue c
  if cueMode q = 1 then s.cueDisarm c
  else
    let s1 := s.modCue c fun x =>
      { x with target := t, due := none, predicted := false, count := if dec && x.count != 0 then x.count - 1 else x.count }
    if dec && q.count == 1 then s1.cueDisarm c else s1

/-- A cue fires (R80, R82, R85, R132): the event, FIRED, FIRE_COUNT, LATE and UNPREDICTED, the interrupt, and the sensor
sequencer. -/
def State.cueFire (s : State) (c : Nat) (late unpredicted : Bool) : State :=
  let q := s.cue c
  let p := cuePage c
  let s1 := s.produceOn p (wfld q.ctrl 16 8) (bitAt q.ctrl 24)
  let s2 := s1.modCue c fun x =>
    { x with status := wrapAdd (setBit (setBit (setBit x.status 1 true) 2 (bitAt x.status 2 || late)) 5
               (bitAt x.status 5 || unpredicted)) 16 16 1 }
  let s3 := s2.setCueBit Off.cue_FIRED0 c true
  let s4 := if bitAt q.ctrl 25 then s3.setInt p 0 else s3
  let s5 := if late then s4.setInt p 2 else s4
  s5.seqCueFired c

/-- Mark `n` skipped targets of a cue (R83). -/
def State.cueMiss (s : State) (c n : Nat) : State :=
  let s1 := s.modCue c fun q => { q with status := satAdd (setBit q.status 3 true) 8 8 n }
  (s1.setCueBit Off.cue_MISSED0 c true).setInt (cuePage c) 1

/-- Steps from TARGET to the first multiple of STEP strictly ahead of a ruler that counts without carries (R83): the count
and the new TARGET. -/
def stepsAhead (target val step dir : Int) : Nat :=
  let beyond := dir * (val - target)
  let size := dir * step
  if size ≤ 0 then 1 else (beyond / size).toNat + 1

/-- Lines per frame and pixels per line of a LINE or SLINE ruler, for carries (R80). -/
def State.lineShape (s : State) (r : Nat) : Nat × Nat :=
  if r < 0x20 then (max 1 (s.vtotal (r - 0x18)), max 1 (s.htotal (r - 0x18))) else (max 1 (s.slineR (r - 0x40)).height, 1)

/-- A value of a LINE or SLINE ruler as one count of pixels or lines; its line field is taken as at most the last. -/
def lineCount (h : Nat × Nat) (v : Nat) : Nat :=
  (v / 2 ^ 32 * h.1 + v / 2 ^ 16 % 2 ^ 16) * h.2 + (if h.2 = 1 then 0 else v % 2 ^ 16)

/-- Steps for a ruler with carries (R80, R83): their number and the new TARGET, which a count of the ruler gives back. A STEP that the
ruler does not count is taken once (notes/assumptions/165.md). -/
def State.stepsCarry (s : State) (r v t step : Nat) : Nat × Nat :=
  let h := s.lineShape r
  let line := min (v / 2 ^ 16 % 2 ^ 16) (h.1 - 1)
  let at_ := (v / 2 ^ 32 * h.1 + line) * h.2 + (if h.2 = 1 then 0 else v % 2 ^ 16)
  let size := lineCount h step
  let n := if size = 0 then 1 else (at_ - lineCount h t) / size + 1
  let w := lineCount h t + n * size
  (n, w / h.2 / h.1 % 2 ^ 32 * 2 ^ 32 + w / h.2 % h.1 * 2 ^ 16 + w % h.2)

/-- A target is passed (R83), `stepped` when a step is the cause. -/
def State.cuePassed (s : State) (c : Nat) (stepped : Bool) : State :=
  let q := s.cue c
  let r := cueRuler q
  let s0 := if stepped then s.modCue c fun x => { x with status := setBit x.status 4 true } else s
  let fires := !bitAt q.ctrl 3
  let s1 := if fires then s0.cueFire c true false else s0
  if cueMode q = 1 then (if fires then s1 else s1.cueMiss c 1).cueDisarm c
  else
    let adv : Nat × Nat :=
      if 0x18 ≤ r then
        s.stepsCarry r (s.rulerVal r).toNat q.target q.step
      else
        let step : Int := if 8 ≤ r ∧ r < 0xC then signed 64 q.step else q.step
        let n := stepsAhead (cueTarget q) (s.rulerVal r) step (s.cueDirSign q)
        (n, unsigned 64 (cueTarget q + n * step))
    let skipped := if fires then adv.1 - 1 else adv.1
    let s2 := if skipped = 0 then s1 else s1.cueMiss c skipped
    s2.cueNext c adv.2 fires

/-- Does the cue unit evaluate this cue now (R81): its page runs, and the cue is AON or the main region is powered? -/
def State.cueRuns (s : State) (c : Nat) (q : Cue) : Bool :=
  bitAt q.status 0 && s.alive (cuePage c) && (cueAon q || s.mainOn)

/-- Every armed cue on a ruler that stepped forward is looked at again (R83). -/
def State.cuesStepped (s : State) (r : Nat) : State :=
  s.tb.cues.foldl (fun t e =>
    let q := t.cue e.1
    if t.cueRuns e.1 q && cueRuler q == r && t.rulerValid r && t.cueBehind q then t.cuePassed e.1 true else t) s

/-- Evaluate one cue: held while its ruler is invalid, passed at the return to valid, due by prediction or by crossing
(R78, R81, R83, R85). -/
def State.cueEval (s : State) (c : Nat) : State :=
  let q := s.cue c
  let r := cueRuler q
  if !s.cueRuns c q then s
  else if !s.rulerValid r then s.modCue c fun x => { x with seen := none }
  else
    let v := s.rulerVal r
    let s1 := s.modCue c fun x => { x with seen := some v }
    if q.due.isSome then s1
    else if q.seen = none ∧ s.cueBehind q = true then s1.cuePassed c false
    else if s.cuePredicted q then s1.modCue c fun x => { x with due := some s.now, predicted := true }
    else if s.cueCrossed q then s1.modCue c fun x => { x with due := some s.now, predicted := decide (r = 0) }
    else s1

/-- Fire the due cues in ascending order, at most 16 (R79); LATE from LATE_TOL on (R82). -/
def State.cuesFire (s : State) : List Nat → State
  | [] => s
  | c :: cs =>
    let q := s.cue c
    let late := decide ((s.reg (pCUE 0) Off.cue_LATE_TOL).toNat ≤ (s.now - q.due.getD s.now) * 4)
    ((s.cueFire c late (!q.predicted)).cueNext c (s.cueStep (cueRuler q) q.target q.step) true).cuesFire cs

/-- A commit that waits for a cue (PG_SHADOW.TRIGGER 4) becomes due when its cue fires (R608). -/
def State.cueCommits (s : State) (fired : List Nat) : State :=
  (List.range 0x400).foldl (fun t p =>
    let w := t.reg p Off.hdr_PG_SHADOW
    if bitAt w 8 && wfld w 1 3 == 4 && fired.contains (wfld w 16 12) then t.modPage p fun r => { r with commitDue := true }
    else t) s

/-- Evaluate every cue of the table, then fire. -/
def State.cuesTick (s : State) : State :=
  let s1 := s.tb.cues.foldl (fun t e => t.cueEval e.1) s
  let due := (s1.tb.cues.filter fun e => e.2.due.isSome && s1.cueRuns e.1 e.2).map (·.1)
  let s2 := if 16 < due.length then due.foldl (fun t c => t.raise (cuePage c) 10) s1 else s1
  let fire := due.take 16
  let s3 := s2.cuesFire fire
  if fire.isEmpty then s3 else s3.cueCommits fire

/-! ## TIME -/

/-- PTP servo state (*Servo states*): DISABLED exactly while SERVO_EN is 0; with SERVO_EN a servo that has not moved yet, as after
reset, is in HOLDOVER (notes/assumptions/163.md). -/
def State.servo (s : State) : Nat :=
  if !s.bit pTIMEBASE Off.timebase_TIME_CTRL 0 then 0
  else if s.fld pPTP Off.ptp_STAT 0 3 = 0 then 1 else s.fld pPTP Off.ptp_STAT 0 3

/-- TIME_STAT.HOLDOVER (R55, R408): the servo is in HOLDOVER or JUMP_PENDING. -/
def State.holdover (s : State) : Bool := s.servo == 1 || s.servo == 4

/-- A change of HOLDOVER from `was` (R55). -/
def State.holdoverChange (s : State) (was : Bool) : State :=
  if s.holdover = was then s
  else (if was then s else s.raise pTIMEBASE 10).produce pTIMEBASE 2

/-- TIME becomes `t` (units of 2^-16 ns) by a step (R58, R83): STEP_FWD or STEP_BACK, TIME_STEP, and cues on TIME. -/
def State.timeStep (s : State) (t : Nat) : State :=
  let old := s.tb.time
  let s0 := s.onTb fun b => { b with time := t, timeRem := 0 }
  let s1 := s0.gatesStepped.onTdm fun d => { d with sets := d.sets.map fun e => (e.1, if e.2.st = 0 then e.2 else { e.2 with err := e.2.err + ((t : Int) - (old : Int)) }) }
  if old < t then ((s1.raise pTIMEBASE 8).produce pTIMEBASE 1).cuesStepped 0
  else if t < old then (s1.raise pTIMEBASE 9).produce pTIMEBASE 1
  else s1

/-- TIME advances by one tick under RATE_ADJ (R51, R55); passing into a new second produces PPS (R58). -/
def State.timeTick (s : State) : State :=
  let adj := signed 32 (s.reg pTIMEBASE Off.timebase_RATE_ADJ).toNat
  let acc : Int := s.tb.timeRem + 4 * adj
  let t := ((s.tb.time : Int) + 262144 + acc / 1000000).toNat
  let s1 := s.onTb fun b => { b with time := t, timeRem := (acc % 1000000).toNat }
  if t / 65536000000000 ≠ s.tb.time / 65536000000000 then s1.produce pTIMEBASE 0 else s1

/-- TIME_SET_GO (R56, R57): loads TIME while SERVO_EN is 0; otherwise STATE_WRITE. -/
def execTimeSetGo (m : Master) (v : Word) (s : State) : Step :=
  .next (s.regWrite m pTIMEBASE Off.timebase_TIME_SET_GO fun t =>
    if !bitAt v 0 then t
    else if t.bit pTIMEBASE Off.timebase_TIME_CTRL 0 then t.stateWrite pTIMEBASE
    else
      let sec := t.reg64 pTIMEBASE Off.timebase_TIME_SET_SEC_LO Off.timebase_TIME_SET_SEC_HI
      let ns := (t.reg pTIMEBASE Off.timebase_TIME_SET_NS).toNat
      (t.putBit pTIMEBASE Off.timebase_TIME_STAT 0 true).timeStep ((sec * 1000000000 + ns) * 65536))

/-- Set the servo's state: every transition produces PTP's PG_EVT_OUT0, HOLDOVER from LOCKED sets GM_LOST (R408), and the first LOCKED
makes TIME valid (R56). -/
def State.setServo (s : State) (v : Nat) : State :=
  if s.servo = v then s
  else
    let was := s.holdover
    let s1 := (s.setFld pPTP Off.ptp_STAT 0 3 v).produce pPTP 0
    let s2 := if s.servo = 3 ∧ v = 1 then s1.raise pPTP 8 else s1
    let s3 := if v = 3 then s2.putBit pTIMEBASE Off.timebase_TIME_STAT 0 true else s2
    s3.holdoverChange was

/-- TIME_CTRL_WRITE (R55, R408): SERVO_EN switches the servo between DISABLED and HOLDOVER, which a selected grandmaster ends at once;
RATE_ADJ stays in force. -/
def execTimeCtrlWrite (m : Master) (v : Word) (s : State) : Step :=
  .next (s.regWrite m pTIMEBASE Off.timebase_TIME_CTRL fun t =>
    let on := t.bit pTIMEBASE Off.timebase_TIME_CTRL 0
    if bitAt v 0 = on then t
    else
      let was := t.holdover
      let t1 := t.putBit pTIMEBASE Off.timebase_TIME_CTRL 0 (bitAt v 0)
      let t2 := t1.setFld pPTP Off.ptp_STAT 0 3 (if bitAt v 0 then 1 else 0)
      let t3 := (t2.produce pPTP 0).holdoverChange was
      if bitAt v 0 && t3.net.ptp.sel.isSome then t3.setServo 2 else t3)

/-- Latch every ruler (R53). -/
def State.snapshot (s : State) : State :=
  let ns := s.timeNs
  let s1 := ((s.setReg64 pTIMEBASE Off.timebase_SNAP_TIME (Off.timebase_SNAP_TIME + 4) (ns / 1000000000)).setReg pTIMEBASE
    (Off.timebase_SNAP_TIME + 8) (wd (ns % 1000000000))).setReg pTIMEBASE (Off.timebase_SNAP_TIME + 12)
      (wd (s.tb.time % 65536))
  let s2 := (List.range 4).foldl (fun t d => t.setReg64 pTIMEBASE (Off.timebase_SNAP_DIST0 + 8 * d)
    (Off.timebase_SNAP_DIST0 + 8 * d + 4) (unsigned 64 (s.distVal d))) s1
  let s3 := (List.range 2).foldl (fun t p => t.setReg64 pTIMEBASE (Off.timebase_SNAP_PHASE0 + 8 * p)
    (Off.timebase_SNAP_PHASE0 + 8 * p + 4) (s.phase p).val) s2
  let s4 := (List.range 8).foldl (fun t n => t.setReg64 pLINEVIEW (Off.lineview_SNAP_LINE0 + 8 * n)
    (Off.lineview_SNAP_LINE0 + 8 * n + 4) (s.lineVal n)) s3
  let s5 := (List.range 64).foldl (fun t n => t.setReg64 pLINEVIEW (Off.lineview_SNAP_SLINE0 + 8 * n)
    (Off.lineview_SNAP_SLINE0 + 8 * n + 4) (s.slineVal n)) s4
  (s5.putBit pTIMEBASE Off.timebase_SNAP_STAT 0 true).countWrap pTIMEBASE Off.timebase_SNAP_STAT 16 16 1

/-- SNAP_GO (R53). -/
def execSnapGo (m : Master) (v : Word) (s : State) : Step :=
  .next (s.regWrite m pTIMEBASE Off.timebase_SNAP fun t => if bitAt v 0 then t.snapshot else t)

/-- SNAPSHOT_STROBE (R53): the event that reached TIMEBASE PG_EVT_IN0. -/
def execSnapshotStrobe (s : State) : Step :=
  if s.inBusy pTIMEBASE 0 then .next ((s.setBusy pTIMEBASE 0 false).snapshot) else .next s

/-! ## DIST -/

/-- INC for the values in force or about to be committed (R61): round(CIRC·2^32 / (EDGES·STEP)). -/
def distInc (circ edges step : Nat) : Nat :=
  if edges * step = 0 then 0 else (2 * circ * 2 ^ 32 + edges * step) / (2 * edges * step)

/-- INC in force. -/
def State.inc (s : State) (d : Nat) : Nat := s.reg64 pDIST (dOff d Off.dist_INC_LO) (dOff d Off.dist_INC_HI)

/-- The commit of DIST ruler `d` (R61): computes INC from the committed CIRC_UM, or discards the commit. -/
def State.distCommit (s : State) (d : Nat) : State :=
  let circ := (s.shadowOf pDIST (dOff d Off.dist_CIRC_UM)).toNat
  let inc := distInc circ (s.reg pDIST (dOff d Off.dist_EDGES_PER_REV)).toNat (s.reg pDIST (dOff d Off.dist_STEP_UM)).toNat
  if inc = 0 ∨ 2 ^ 48 ≤ inc then s.raise pDIST 12
  else (s.setReg pDIST (dOff d Off.dist_CIRC_UM) (wd circ)).setReg64 pDIST (dOff d Off.dist_INC_LO) (dOff d Off.dist_INC_HI) inc

/-- An encoder beside its registers. -/
def State.enc (s : State) (e : Nat) : Encoder := Map.get (fun _ => {}) s.tb.enc e
def State.modEncoder (s : State) (e : Nat) (f : Encoder → Encoder) : State :=
  s.onTb fun t => { t with enc := Map.put (fun _ => {}) t.enc e (f (Map.get (fun _ => {}) t.enc e)) }

/-- Ticks of STILL_MS of a ruler. -/
def State.stillTicks (s : State) (d : Nat) : Nat := s.fld pDIST (dOff d Off.dist_EST_CFG) 16 16 * 250000

/-- Has an encoder counted no edge for a time? -/
def State.encStill (s : State) (e ticks : Nat) : Bool :=
  match (s.enc e).lastEdge with
  | none => decide (ticks ≤ s.now)
  | some t => decide (t + ticks ≤ s.now)

/-- Counted edges per second of encoder `e` over the WIN_EDGES of ruler `d`, 0 after STILL_MS without an edge (R64, R65): signed
numerator and denominator in ns. -/
def State.encRate (s : State) (d e : Nat) : Int × Nat :=
  match (s.enc e).edges.take (s.fld pDIST (dOff d Off.dist_EST_CFG) 0 9) with
  | [] => (0, 1)
  | (t1, c1) :: rest => match rest.getLast? with
    | none => (0, 1)
    | some (t0, c0) => if s.encStill e (s.stillTicks d) then (0, 1) else ((c1 - c0) * 1000000000, max 1 (t1 - t0))

/-- One encoder of the pair is stuck (R66): 0 neither, 1 the primary, 2 the secondary. -/
def State.encStuck (s : State) (d : Nat) : Nat :=
  if !s.bit pDIST (dOff d Off.dist_CFG) 7 then 0
  else if s.encStill (s.distPri d) (s.stillTicks d) && decide (64 < (s.dist d).aloneS) then 1
  else if s.encStill (s.distSec d) (s.stillTicks d) && decide (64 < (s.dist d).aloneP) then 2
  else 0

/-- Does the ruler follow its secondary encoder (*DIST source selection*)? -/
def State.followSec (s : State) (d : Nat) : Bool :=
  let rp := s.encRate d (s.distPri d)
  let rs := s.encRate d (s.distSec d)
  let secLower := decide (rs.1.natAbs * rp.2 < rp.1.natAbs * rs.2)
  let st := s.reg pDIST (dOff d Off.dist_STATUS)
  match s.encStuck d with
  | 1 => true
  | 2 => false
  | _ =>
    if !s.bit pDIST (dOff d Off.dist_CFG) 7 || s.fld pDIST (dOff d Off.dist_CFG) 8 2 != 1 then false
    else if bitAt st 2 then secLower
    else if bitAt st 3 then decide (rp.1.natAbs * rs.2 < rs.1.natAbs * rp.2)
    else false

/-- Show the followed encoder in STATUS.USING_SECONDARY. -/
def State.distSource (s : State) (d : Nat) : State :=
  let b := s.followSec d
  (s.modDist d fun x => { x with useSec := b }).putBit pDIST (dOff d Off.dist_STATUS) 4 b

/-- Do the rates of the two encoders differ by more than SLIP_PCT (R65, notes/assumptions/32.md)? -/
def State.ratesDiffer (s : State) (d : Nat) : Bool :=
  let rp := s.encRate d (s.distPri d)
  let rs := s.encRate d (s.distSec d)
  let trim : Int := 10000000 + signed 32 (s.reg pDIST (Off.dist_SEC_TRIM + 4 * d)).toNat
  let a := rp.1.natAbs * rs.2 * 10000000
  let b := (rs.1 * trim).natAbs * rp.2
  decide (s.fld pDIST (dOff d Off.dist_SLIP_CFG) 0 16 * a < absDiff a b * 10000)

/-- Note since when the two rates disagree or agree (R65). -/
def State.distCompare (s : State) (d : Nat) : State :=
  if !s.bit pDIST (dOff d Off.dist_CFG) 7 then s.modDist d fun x => { x with disagree := none, agree := none }
  else if s.ratesDiffer d then
    s.modDist d fun x => { x with disagree := some (x.disagree.getD s.now), agree := none }
  else s.modDist d fun x => { x with agree := some (x.agree.getD s.now), disagree := none }

/-- RATE, ACCEL and RATE_QUAL from the window of counted edges (R64), quotients truncated towards zero (notes/assumptions/31.md). A
window of one edge and a RATE of 0 leave a value open; it is free. -/
def State.distEstimate (s : State) (d : Nat) : State :=
  let n := s.fld pDIST (dOff d Off.dist_EST_CFG) 0 9
  let x := s.dist d
  match x.win.take n with
  | (t1, p1) :: rest =>
    match rest.getLast? with
    | none =>
      if n ≤ 1 then
        let w := s.drawWord
        w.2.setReg pDIST (dOff d Off.dist_RATE) w.1
      else s
    | some (t0, p0) =>
      let dt : Nat := max 1 (t1 - t0)
      let rate : Int := satS 32 (((p1 - p0) * 1000000000).tdiv (2 ^ 24 * dt))
      let centre := (t1 + t0) / 2
      let s1 := s.setReg pDIST (dOff d Off.dist_RATE) (wd (unsigned 32 rate))
      let s2 := match x.ests with
        | (r0, c0) :: _ =>
          if c0 < centre then
            s1.setReg pDIST (dOff d Off.dist_ACCEL) (wd (unsigned 32 (satS 32 (((rate - r0) * 1000000000).tdiv (16 * (centre - c0))))))
          else s1
        | [] => s1
      let q := x.ests.foldl (fun m e => max m ((rate - e.1).natAbs * 1000000 / max 1 rate.natAbs)) 0
      let s3 := if rate = 0 then
          let w := s2.drawWord
          w.2.setReg pDIST (dOff d Off.dist_RATE_QUAL) w.1
        else s2.setReg pDIST (dOff d Off.dist_RATE_QUAL) (wd (min (2 ^ 32 - 1) q))
      s3.modDist d fun y => { y with ests := ((rate, centre) :: y.ests).take 8 }
  | [] => s

/-- A counted edge reaches a DIST ruler that names the encoder (R59, R62, R64, R66). -/
def State.distEdge (s : State) (d e : Nat) (dir : Int) : State :=
  let pri := decide (s.distPri d = e)
  let sec := s.bit pDIST (dOff d Off.dist_CFG) 7 && decide (s.distSec d = e)
  if !s.bit pDIST (dOff d Off.dist_CFG) 0 || !s.distValid d || !(pri || sec) then s
  else
    let s1 := s.modDist d fun x =>
      { x with aloneP := if pri then x.aloneP + 1 else 0, aloneS := if pri then 0 else x.aloneS + 1 }
    let s2 := (s1.distSource d).distCompare d
    if (s2.dist d).useSec != !pri then s2
    else
      let s3 := s2.modDist d fun x =>
        { x with pos := signed 80 (unsigned 80 (x.pos + dir * s.inc d)), lastEdge := s.now }
      let s4 := s3.modDist d fun x => { x with win := ((s.timeNs, x.pos) :: x.win).take 257 }
      let was := s4.bit pDIST (dOff d Off.dist_STATUS) 1
      let s5 := (s4.putBit pDIST (dOff d Off.dist_STATUS) 1 false).putBit pDIST (dOff d Off.dist_STATUS) 5 (decide (dir < 0))
      let s6 := if was then
          let t := s5.produce pDIST 2
          if t.bit (pPWR 1) Off.pwr1_WAKE_SRC 0 then t.wakeBy 1 0 else t
        else s5
      s6.distEstimate d

/-- An edge is counted (R59). -/
def State.encCount (s : State) (e : Nat) (dir : Int) : State :=
  let inv := s.bit pDIST (eOff e Off.dist_ENC_CFG) 2 && s.encMode e != 3
  let dir := if inv then -dir else dir
  let cnt := signed 32 (s.reg pDIST (eOff e Off.dist_ENC_COUNT)).toNat
  let s1 := s.setReg pDIST (eOff e Off.dist_ENC_COUNT) (wd (unsigned 32 (cnt + dir)))
  let s2 := s1.modEncoder e fun x =>
    { x with edges := ((s.timeNs, (x.edges.headD (0, 0)).2 + dir) :: x.edges).take 257, lastEdge := some s.now,
             sinceIndex := x.sinceIndex.map (· + 1) }
  (List.range 4).foldl (fun t d => t.distEdge d e dir) (s2.putBit pDIST (eOff e Off.dist_ENC_STAT) 3 true)

/-- ENCODER_EDGE (R59, R60): a sample of pins A and B of encoder `e`. Quadrature counts A leading B as forward
(notes/assumptions/30.md); both changing at once is illegal. -/
def execEncoderEdge (e : Nat) (a b : Bool) (s : State) : Step :=
  if !s.alive pDIST then .next s
  else
    let x := s.enc e
    let s1 := ((s.modEncoder e fun y => { y with a := a, b := b }).putBit pDIST (eOff e Off.dist_ENC_STAT) 0 a).putBit pDIST
      (eOff e Off.dist_ENC_STAT) 1 b
    match s.encMode e with
    | 1 =>
      if a != x.a && b != x.b then
        .next (((s1.count pDIST (eOff e Off.dist_ENC_FAULTS) 0 16 1).raise pDIST 8).produce pDIST 1)
      else if a != x.a then .next (s1.encCount e (if a != b then 1 else -1))
      else if b != x.b then .next (s1.encCount e (if a == b then 1 else -1))
      else .next s1
    | 2 => if a && !x.a then .next (s1.encCount e (if b then -1 else 1)) else .next s1
    | 3 =>
      if a && !x.a then .next (s1.encCount e (if s.bit pDIST (eOff e Off.dist_ENC_CFG) 4 then -1 else 1)) else .next s1
    | _ => .next s1

/-- EDGES_PER_REV of the lowest-numbered enabled ruler that names the encoder (notes/assumptions/33.md). -/
def State.encRev (s : State) (e : Nat) : Option Nat :=
  ((List.range 4).find? fun d => s.distNames d e).map fun d => (s.reg pDIST (dOff d Off.dist_EDGES_PER_REV)).toNat

/-- ENCODER_INDEX_EDGE (R60): pin I takes level `i`; a rising edge at a wrong count with INDEX_EN counts INDEX_ERR. -/
def execEncoderIndexEdge (e : Nat) (i : Bool) (s : State) : Step :=
  if !s.alive pDIST then .next s
  else
    let x := s.enc e
    let s1 := s.putBit pDIST (eOff e Off.dist_ENC_STAT) 2 i
    if !(i && !x.i) then .next (s1.modEncoder e fun y => { y with i := i })
    else
      let s2 := s1.modEncoder e fun y => { y with i := i, sinceIndex := some 0 }
      match x.sinceIndex, s.encRev e with
      | some n, some rev =>
        if s.bit pDIST (eOff e Off.dist_ENC_CFG) 3 ∧ n ≠ rev then
          .next ((s2.count pDIST (eOff e Off.dist_ENC_FAULTS) 16 16 1).produce pDIST 1)
        else .next s2
      | _, _ => .next s2

/-- POS_SET (R63, R64): a write of POS_SET_LO loads the position as a step; the distances of the estimator's window stay as counted. -/
def execPosSet (m : Master) (d : Nat) (v : Word) (s : State) : Step :=
  .next (s.regWrite m pDIST (dOff d Off.dist_POS_SET_LO) fun t =>
    let t1 := t.setReg pDIST (dOff d Off.dist_POS_SET_LO) v
    let old := t1.distVal d
    let new : Int := signed 64 (v.toNat + 2 ^ 32 * (t1.reg pDIST (dOff d Off.dist_POS_SET_HI)).toNat)
    let t2 := (t1.modDist d fun x => { x with pos := new * 65536, win := x.win.map fun e => (e.1, e.2 + new * 65536 - x.pos) }).raise pDIST 13
    if old < new then t2.cuesStepped (8 + d) else t2)

/-- STILL_TIMEOUT (R64 to R66): no edge for STILL_MS; the rates of the two encoders are compared anew, and an encoder that alone
counts more than 64 edges shows the other stuck. -/
def execStillTimeout (d : Nat) (s : State) : Step :=
  if !s.alive pDIST || !s.bit pDIST (dOff d Off.dist_CFG) 0 then .next s
  else
    let s1 := if s.now < (s.dist d).lastEdge + s.stillTicks d then s
      else ((s.setReg pDIST (dOff d Off.dist_RATE) 0).setReg pDIST (dOff d Off.dist_ACCEL) 0).putBit pDIST
        (dOff d Off.dist_STATUS) 1 true
    let s2 := s1.distCompare d
    if s.encStuck d = 0 then .next s2 else .next (((s2.distSource d).raise pDIST 11).produce pDIST 1)

/-- SLIP_DWELL (R65): SLIP or SLIDE is set or cleared after DWELL ms. -/
def execSlipDwell (d : Nat) (s0 : State) : Step :=
  let s := s0.distCompare d
  let dwell := s.fld pDIST (dOff d Off.dist_SLIP_CFG) 16 8 * 250000
  let st := s.reg pDIST (dOff d Off.dist_STATUS)
  let past := fun (t : Option Nat) => match t with | some x => decide (x + dwell ≤ s.now) | none => false
  if !s0.alive pDIST || !s0.bit pDIST (dOff d Off.dist_CFG) 7 then .next s0
  else if past (s.dist d).disagree && !bitAt st 2 && !bitAt st 3 then
    let b := if s.bit pDIST (dOff d Off.dist_CFG) 10 then 3 else 2
    .next ((((s.putBit pDIST (dOff d Off.dist_STATUS) b true).raise pDIST (7 + b)).produce pDIST 0).distSource d)
  else if past (s.dist d).agree && (bitAt st 2 || bitAt st 3) then
    .next (((s.setFld pDIST (dOff d Off.dist_STATUS) 2 2 0).produce pDIST 0).distSource d)
  else .next s

/-! ## PHASE -/

/-- NOM_MHZ. -/
def State.nom (s : State) (p : Nat) : Nat := (s.reg pPHASE (phOff p Off.phase_NOM_MHZ)).toNat

/-- NOM_MHZ in units of 2^-16 Hz. -/
def State.nomFreq (s : State) (p : Nat) : Nat := s.nom p * 65536 / 1000

/-- The ruler runs at NOM_MHZ: NO_INPUT, or ACQUIRE before the first LOCKED (R69, R71). -/
def State.atNom (s : State) (p : Nat) : Bool :=
  s.phaseState p = 0 || (s.phaseState p = 1 && !(s.phase p).everLocked)

/-- Advance per tick in 2^-32 cycle / 10^12. -/
def State.phaseAdv (s : State) (p : Nat) : Nat :=
  if s.atNom p then s.nom p * 4 * 2 ^ 32 else (s.reg pPHASE (phOff p Off.phase_FREQ)).toNat * 262144 * 1000

/-- A PHASE ruler's tick (R51, R68, R70, R71): the frequency in force and the correction slewed, never below half of
NOM_MHZ; a wrap produces its event. -/
def State.phaseTick (s : State) (p : Nat) : State :=
  if !s.alive pPHASE || !s.bit pPHASE (phOff p Off.phase_CFG) 0 || !s.mainOn then s
  else
    let x := s.phase p
    let adv := s.phaseAdv p
    let lim := adv * s.fld pPHASE (phOff p Off.phase_LOOP_CFG) 24 8 / 4096
    let back := min lim (adv - s.nom p * 2 * 2 ^ 32)
    let slew : Int := max (-(back : Int)) (min (lim : Int) x.corr)
    let acc := (((x.rem + adv : Nat) : Int) + slew).toNat
    let v := (x.val + acc / 1000000000000) % 2 ^ 64
    let s1 := s.modPhase p fun y => { y with val := v, rem := acc % 1000000000000, corr := y.corr - slew }
    let s2 := s1.putBit pPHASE (phOff p Off.phase_STATUS) 3 (decide (slew ≠ 0))
    if v / 2 ^ 32 ≠ x.val / 2 ^ 32 then s2.produce pPHASE p else s2

/-- STATUS.STATE changes (R69): the event, LOCK_LOST on leaving LOCKED, NO_INPUT on entering it. -/
def State.setPhaseState (s : State) (p v : Nat) : State :=
  let old := s.phaseState p
  if old = v then s
  else
    let s1 := (s.setFld pPHASE (phOff p Off.phase_STATUS) 0 2 v).produce pPHASE 2
    let s2 := if old = 2 then s1.raise pPHASE 8 else s1
    let s3 := if v = 0 then (s2.raise pPHASE 9).modPhase p fun x => { x with everLocked := false, lastCross := none, corr := 0 }
      else s2
    let s4 := if v = 2 then s3.modPhase p fun x => { x with everLocked := true } else s3
    let s5 := if v = 3 then s4.modPhase p fun x => { x with holdAt := s.now } else s4
    s5.modPhase p fun x => { x with good := 0, bad := 0 }

/-- Nanoseconds per period of the frequency in force. -/
def State.phasePeriod (s : State) (p : Nat) : Nat :=
  if s.atNom p then 1000000000000 / max 1 (s.nom p)
  else 65536 * 1000000000 / max 1 (s.reg pPHASE (phOff p Off.phase_FREQ)).toNat

/-- Does a crossing now fall within ±ACCEPT percent of the period around the expected one (R68)? The expected crossings stand whole
periods after the last accepted one; the first after NO_INPUT has none to be measured from (notes/assumptions/166.md). -/
def State.crossingExpected (s : State) (p : Nat) : Bool :=
  match (s.phase p).lastCross with
  | none => true
  | some t =>
    let per := s.phasePeriod p
    let e := (s.now - t) * 4
    let r := e % max 1 per
    let off := min r (per - r)
    decide (per ≤ 2 * e) && decide (off * 100 ≤ per * s.fld pPHASE (phOff p Off.phase_FILTER) 16 8)

/-- A cycle without an accepted crossing lies before one accepted now. -/
def State.cycleMissed (s : State) (p : Nat) : Bool :=
  match (s.phase p).lastCross with
  | none => false
  | some t => decide (3 * s.phasePeriod p < 2 * ((s.now - t) * 4))

/-- Ruler `p`'s selected edge after a pulse of `width` µs (R68 to R70). The PLL's new frequency is free within the capture range
(Config.pllFreq). -/
def State.phaseCross (s : State) (p width : Nat) : State :=
  if width < s.fld pPHASE (phOff p Off.phase_FILTER) 0 16 || !s.crossingExpected p then
    s.count pPHASE (phOff p Off.phase_REJECTS) 0 32 1
  else
    let x := s.phase p
    let err := signed 32 x.val
    let lockErr := s.fld pPHASE (phOff p Off.phase_LOOP_CFG) 16 8 * 2 ^ 20
    let nom := s.nomFreq p
    let f0 := if s.atNom p then nom else (s.reg pPHASE (phOff p Off.phase_FREQ)).toNat
    let f := max (nom * 95 / 100) (min (nom * 105 / 100)
      (Config.pllFreq f0 err (s.fld pPHASE (phOff p Off.phase_LOOP_CFG) 0 4)))
    let s1 := (s.setReg pPHASE (phOff p Off.phase_FREQ) (wd f)).modPhase p fun y =>
      { y with lastCross := some s.now, corr := -err * 1000000000000,
               good := if err.natAbs < lockErr then (if s.cycleMissed p then 0 else y.good) + 1 else 0,
               bad := if 8 * lockErr < err.natAbs then y.bad + 1 else 0 }
    match s.phaseState p with
    | 0 | 3 => s1.setPhaseState p 1
    | 1 => if s.fld pPHASE (phOff p Off.phase_LOOP_CFG) 8 4 ≤ (s1.phase p).good then s1.setPhaseState p 2 else s1
    | _ => if 4 ≤ (s1.phase p).bad then s1.setPhaseState p 3 else s1

/-- Does ruler `p` run: enabled, not fenced, and not stopped in Dormant (R71)? -/
def State.phaseRuns (s : State) (p : Nat) : Bool := s.alive pPHASE && s.bit pPHASE (phOff p Off.phase_CFG) 0 && s.mainOn

/-- PHASE_CROSSING (R68): an edge, falling when `falling`, on input `i` (0 ZC0, 1 ZC1, 2 FLK0, 3 FLK1) after a pulse of `width` µs
reaches every ruler that selects both. -/
def execPhaseCrossing (i : Nat) (falling : Bool) (width : Nat) (s : State) : Step :=
  .next ((List.range 2).foldl (fun t p =>
    if t.phaseRuns p && t.fld pPHASE (phOff p Off.phase_CFG) 1 2 == i && t.bit pPHASE (phOff p Off.phase_CFG) 3 == falling then
      t.phaseCross p width
    else t) s)

/-- PHASE_CROSSING_TIMEOUT (R69): LOCKED without an accepted crossing for 2 periods. -/
def execPhaseCrossingTimeout (p : Nat) (s : State) : Step :=
  match s.phaseState p, (s.phase p).lastCross with
  | 2, some t => if s.phaseRuns p ∧ 2 * s.phasePeriod p ≤ (s.now - t) * 4 then .next (s.setPhaseState p 3) else .next s
  | _, _ => .next s

/-- PHASE_HOLD_EXPIRY (R69): HOLDOVER for HOLD_S seconds. -/
def execPhaseHoldExpiry (p : Nat) (s : State) : Step :=
  if s.phaseRuns p ∧ s.phaseState p = 3 ∧ (s.phase p).holdAt + s.fld pPHASE (phOff p Off.phase_FILTER) 24 8 * 250000000 ≤ s.now then
    .next (s.setPhaseState p 0)
  else .next s

/-! ## LINE rulers' clock -/

/-- The timing generator reaches line `y`, pixel 0 (R72, R329, R330). -/
def State.lineReach (s : State) (n y : Nat) : State :=
  s.modLine n fun r =>
    { r with dueLine := if y < s.activeV n then r.dueLine ++ [y] else r.dueLine,
             dueFrame := r.dueFrame || decide (y = 0), dueVblank := r.dueVblank || decide (y = s.activeV n),
             dueMatch := r.dueMatch || decide (y = s.fld (pDISP n) Off.disp_LINE_MATCH 0 16) }

/-- A running timing generator's tick (R51, R72): it runs on while the head is fenced (R343), and the ruler's frame count holds. -/
def State.lineTick (s : State) (n : Nat) : State :=
  let r := s.lineR n
  if !r.run then s
  else
    let acc := r.rem + s.pclk n * 4
    let px := r.pixel + acc / 1000000
    let ht := max 1 (s.htotal n)
    let s1 := s.modLine n fun x => { x with rem := acc % 1000000, pixel := px % ht }
    if px < ht then s1
    else
      let y := if s.vtotal n ≤ r.line + 1 then 0 else r.line + 1
      (s1.modLine n fun x =>
        { x with line := y, frame := if y = 0 then (x.frame + 1) % 2 ^ 32 else x.frame,
                 overran := if y = 0 ∧ ¬ s.alive (pDISP n) then x.overran + 1 else x.overran }).lineReach n y

/-- Heads 2k + 1 of locked pairs copy their partner's ruler and events (R333). -/
def State.linePairs (s : State) : State :=
  [0, 2, 4, 6].foldl (fun t n =>
    if t.bit (pDISP n) Off.disp_CTRL 1 && (t.lineR n).run then
      let a := t.lineR n
      t.modLine (n + 1) fun b =>
        { b with frame := a.frame, overran := if b.frame ≠ a.frame ∧ ¬ t.alive (pDISP (n + 1)) then b.overran + 1 else b.overran, line := a.line, pixel := a.pixel, rem := a.rem, run := true,
                 dueLine := if b.line = a.line then b.dueLine else b.dueLine ++ (a.dueLine.filter (· == a.line)),
                 dueFrame := b.dueFrame || (decide (b.line ≠ a.line) && a.dueFrame && decide (a.line = 0)),
                 dueVblank := b.dueVblank || (decide (b.line ≠ a.line) && a.dueVblank && decide (a.line = t.activeV n)),
                 dueMatch := b.dueMatch || (decide (b.line ≠ a.line) && a.dueMatch) }
    else t) s

/-! ## The tick -/

/-- TIMEBASE_TICK (R51): TIME, PHASE and LINE rulers advance, cues are evaluated and fire; the Dralek transmit queues send
(notes/assumptions/28.md). -/
def execTimebaseTick (s : State) : Step :=
  let s1 := (s.onNow (· + 1)).timeTick
  let s2 := (s1.phaseTick 0).phaseTick 1
  let s3 := ([0, 1, 2, 3, 4, 5, 6, 7].foldl (fun t n =>
    if n % 2 = 1 ∧ t.bit (pDISP (n - 1)) Off.disp_CTRL 1 = true then t else t.lineTick n) s2).linePairs
  .next s3.cuesTick.dlkDrain.fnUpdate

/-! ## Cue commands -/

/-- The cue that CUE_SEL of page CUEk selects. -/
def State.cueSel (s : State) (k : Nat) : Nat := 512 * k + s.fld (pCUE k) Off.cue_CUE_SEL 0 9

/-- A command of page CUEk (R75): BUSY for 16 ns, in which a further command is discarded with STATE_WRITE. -/
def State.cueCmd (s : State) (m : Master) (k : Nat) (eff : State → State) : State :=
  s.cmdWrite m (pCUE k) Off.cue_CUE_CMD_STAT 4 fun t => some (eff t)

/-- CUE_CMD_STAT after a command. -/
def State.cueStat (s : State) (k reason : Nat) : State :=
  s.setReg (pCUE k) Off.cue_CUE_CMD_STAT (if reason = 0 then 0 else wd (2 + reason * 16))

/-- A cue's words D0 to D7. -/
def cueWords (q : Cue) : Words :=
  [q.ctrl, wd q.target, wd (q.target / 2 ^ 32), wd q.step, wd (q.step / 2 ^ 32), wd q.lead, q.count, q.status]

/-- LOAD (R75): the selected cue into the staging registers. -/
def execLoad (m : Master) (k : Nat) (s : State) : Step :=
  .next (s.cueCmd m k fun t =>
    (t.setRegs32 (pCUE k) Off.cue_CUE_D0 (cueWords (t.cue (t.cueSel k)))).cueStat k 0)

/-- Cues marked AON, other than `c` (R76). -/
def State.aonOthers (s : State) (c : Nat) : Nat := (s.tb.cues.filter fun e => e.1 != c && cueAon e.2).length

/-- Why a STORE is rejected (R76), in the order of its conditions; 0 when it is not. -/
def State.cueReason (s : State) (c : Nat) (q : Cue) : Nat :=
  let r := cueRuler q
  let dist := decide (8 ≤ r ∧ r < 0xC)
  let st := signed 64 q.step
  if !rulerCode r then 1
  else if cueMode q = 2 ∧ q.step = 0 then 2
  else if cueMode q = 2 ∧ dist = true ∧ ((cueDir q = 1 ∧ st < 0) ∨ (cueDir q = 2 ∧ 0 < st)) then 3
  else if 1000000000 < q.lead then 4
  else if cueMode q = 3 then 7
  else if cueAon q && !(r == 0 || dist) then 5
  else if cueAon q && decide (64 ≤ s.aonOthers c) then 6
  else 0

/-- CUE_STORE (R76, R77, R83): replaces the selected cue as one whole; a target already behind a valid ruler is passed. -/
def execCueStore (m : Master) (k : Nat) (s : State) : Step :=
  .next (s.cueCmd m k fun t =>
    let c := t.cueSel k
    let d := t.regs32 (pCUE k) Off.cue_CUE_D0 8
    let q : Cue := { ctrl := wordAt d 0, target := dwordAt d 1, step := dwordAt d 3,
                     lead := (wordAt d 5).toNat, count := wordAt d 6 }
    let r := t.cueReason c q
    if r ≠ 0 then
      let t1 := (t.cueStat k r).raise (pCUE k) 8
      if r = 6 then t1.raise (pCUE k) 9 else t1
    else
      let armed := decide (cueMode q ≠ 0)
      let t1 := ((t.modCue c fun _ => { q with status := wd armed.toNat }).setCueBit Off.cue_ARMED0 c armed).cueStat k 0
      if !armed || !t1.rulerValid (cueRuler q) || !t1.cueRuns c (t1.cue c) then t1
      else
        let t2 := t1.modCue c fun x => { x with seen := some (t1.rulerVal (cueRuler q)) }
        if t2.cueBehind (t2.cue c) then t2.cuePassed c false else t2)

/-- DISARM (R75): MODE 0, ARMED cleared, the other fields stay. -/
def execDisarm (m : Master) (k : Nat) (s : State) : Step :=
  .next (s.cueCmd m k fun t =>
    let c := t.cueSel k
    ((t.modCue c fun q => { q with ctrl := wset q.ctrl 0 2 0 }).cueDisarm c).cueStat k 0)

/-- CLEAR (R75): the status flags and MISS_COUNT. -/
def execClear (m : Master) (k : Nat) (s : State) : Step :=
  .next (s.cueCmd m k fun t =>
    (t.modCue (t.cueSel k) fun q => { q with status := wset (wset q.status 1 5 0) 8 8 0 }).cueStat k 0)

/-- Computed registers of TIMEBASE, DIST, PHASE, LINEVIEW and CUE0. -/
def State.viewTime (s : State) (p o : Nat) : Option Word :=
  match pageKind p with
  | .timebase =>
    if o = Off.timebase_TIME_SEC_LO then some (wd (s.timeNs / 1000000000))
    else if o = Off.timebase_TIME_SEC_HI then some (wd (s.timeNs / 1000000000 / 2 ^ 32))
    else if o = Off.timebase_TIME_NS then some (wd (s.timeNs % 1000000000))
    else if o = Off.timebase_TIME_FRAC then some (wd (s.tb.time % 65536))
    else if o = Off.timebase_TIME_STAT then
      let on := s.bit pTIMEBASE Off.timebase_TIME_CTRL 0
      some (wset (s.reg p o) 1 3 ((on && s.servo == 3).toNat + s.holdover.toNat * 2 + (!on).toNat * 4))
    else none
  | .ptp => if o = Off.ptp_STAT then some (wset (s.reg p o) 0 3 s.servo) else none
  | .dist =>
    if o < 0x200 then
      let d := (o - 0x100) / 0x40
      let r := (o - 0x100) % 0x40
      if r = 0x18 then some (wd (unsigned 64 (s.distVal d)))
      else if r = 0x1C then some (wd (unsigned 64 (s.distVal d) / 2 ^ 32))
      else if r = 0x20 ∨ r = 0x24 then (if s.distValid d then none else some 0)
      else if r = 0x2C then some (setBit (s.reg p o) 0 (s.distValid d))
      else none
    else none
  | .phase =>
    let d := (o - 0x100) / 0x40
    let r := (o - 0x100) % 0x40
    if r = 0x10 then some (wd (s.phase d).val)
    else if r = 0x14 then some (wd ((s.phase d).val / 2 ^ 32))
    else if r = 0x1C then some (setBit (s.reg p o) 2 (s.phaseValid d))
    else none
  | .lineview =>
    if Off.lineview_LINE0 ≤ o ∧ o < 0x140 then
      let v := s.lineVal ((o - Off.lineview_LINE0) / 8)
      some (wd (if o % 8 = 0 then v else v / 2 ^ 32))
    else if Off.lineview_SLINE0 ≤ o ∧ o < 0x400 then
      let v := s.slineVal ((o - Off.lineview_SLINE0) / 8)
      some (wd (if o % 8 = 0 then v else v / 2 ^ 32))
    else none
  | .cue =>
    if p = pCUE 0 ∧ o = Off.cue_AON_USED then some (wd (s.tb.cues.filter fun e => cueAon e.2).length)
    else none
  | _ => none

end Sys2Proof.Machine
end

