-- ==== Sys2Proof/Machine/Display.lean ====
section
/-!
DEFINITION. Display heads (R325 to R345): links, AUX, timing commits, locked pairs, layers' pictures and their guard entries, the
composition of lines, and line-locked contexts as their head sees them (R88 to R91).
-/

namespace Sys2Proof.Machine

open Sys2Proof

/-! ## Timing -/

/-- Ticks that `px` pixel clocks of head `n` take. -/
def State.pxTicks (s : State) (n px : Nat) : Nat := (px * 250000 + s.pclk n - 1) / max 1 (s.pclk n)

/-- Mb/s of a RATE code, in tens. -/
def linkRate (r : Nat) : Nat := [162, 216, 243, 270, 324, 432, 540, 810].getD r 0

/-- FEC is used: DSC in DP mode (R325). -/
def State.fec (s : State) (n : Nat) : Bool := s.bit (pDISP n) Off.disp_DSC 0 && !s.bit (pDISP n) Off.disp_CTRL 0

/-- A set of timing registers, read by offset, is valid (R326); `edp` is MODE. -/
def timingOk (edp : Bool) (r : Nat → Word) : Bool :=
  let ah := wfld (r Off.disp_TIMING_H) 0 16
  let ht := wfld (r Off.disp_TIMING_H) 16 16
  let av := wfld (r Off.disp_TIMING_V) 0 16
  let vt := wfld (r Off.disp_TIMING_V) 16 16
  let hss := wfld (r Off.disp_TIMING_HS) 0 16
  let hsw := wfld (r Off.disp_TIMING_HS) 16 15
  let vss := wfld (r Off.disp_TIMING_VS) 0 16
  let vsw := wfld (r Off.disp_TIMING_VS) 16 15
  let pclk := wfld (r Off.disp_PCLK) 0 21
  let rate := wfld (r Off.disp_LINK) 0 4
  let lanes := wfld (r Off.disp_LINK) 4 3
  let fmt := wfld (r Off.disp_OUT_FMT) 0 2
  let bpc := 8 + 2 * wfld (r Off.disp_OUT_FMT) 2 2
  let dsc := bitAt (r Off.disp_DSC) 0
  let slices := 2 ^ wfld (r Off.disp_DSC) 1 2
  let sliceH := wfld (r Off.disp_DSC_SLICE) 0 16
  let bpp := wfld (r Off.disp_DSC) 4 10
  let bpp16 := if dsc then bpp else 16 * (if fmt = 2 then 2 else 3) * bpc
  let f := if dsc && !edp then 976 else 1000
  decide (64 ≤ ah) && decide (ah ≤ 8192) && decide (ah % 2 = 0) && decide (ah + 32 ≤ ht) &&
  decide (64 ≤ av) && decide (av ≤ 8192) && decide (av + 3 ≤ vt) &&
  decide (1 ≤ hsw) && decide (hss + hsw ≤ ht - ah) && decide (1 ≤ vsw) && decide (vss + vsw ≤ vt - av) &&
  decide (25000 ≤ pclk) && decide (pclk ≤ 1200000) &&
  decide (rate < 8) && (edp || rate == 0 || rate == 3 || rate == 6 || rate == 7) &&
  (lanes == 1 || lanes == 2 || lanes == 4) && decide (fmt ≠ 3) && decide (bpc ≤ 10) &&
  (!dsc || (decide (fmt ≠ 2) && decide (128 ≤ bpp) && decide (bpp ≤ 384) && decide (ah % slices = 0) && decide (1 ≤ sliceH) &&
    decide (av % sliceH = 0))) &&
  decide (pclk * 1000 * bpp16 * 100000000 ≤ lanes * linkRate rate * 10000000 * 8 * 9945 * f * 16)

/-- One layer's registers, read by offset, keep the limits of R336 and R337. -/
def layerOk (r : Nat → Word) (l : Nat) : Bool :=
  let b := 0x40 * l
  let ctrl := r (Off.disp_L_CTRL + b)
  let sw := wfld (r (Off.disp_SRC_WH + b)) 0 16
  let sh := wfld (r (Off.disp_SRC_WH + b)) 16 16
  let dw := wfld (r (Off.disp_DST_WH + b)) 0 16
  let dh := wfld (r (Off.disp_DST_WH + b)) 16 16
  let ratio := fun (a d : Nat) => decide (0 < d) && decide (d ≤ 8 * a) && decide (a ≤ 2 * d)
  let f := wfld ctrl 6 3
  !bitAt ctrl 0 ||
    (ratio sw dw && ratio sh dh && (!bitAt ctrl 1 || (decide (sw = dw) && decide (sh = dh))) &&
      (!(decide (3 ≤ f) && decide (f ≤ 6)) ||
        decide (wfld (r (Off.disp_SRC_XY + b)) 16 16 + sh ≤ wfld (r (Off.disp_PIC_H + 4 * l)) 0 16)))

/-- A head's layers keep the limits of R336 and R337, at most four safety layers among them. -/
def layersOk (r : Nat → Word) : Bool :=
  (List.range 8).all (layerOk r) &&
    decide (((List.range 8).filter fun l =>
      bitAt (r (Off.disp_L_CTRL + 0x40 * l)) 0 && bitAt (r (Off.disp_L_CTRL + 0x40 * l)) 2).length ≤ 4)

/-- The registers of R335. -/
def pairRegs : List Nat :=
  [Off.disp_LINK, Off.disp_TIMING_H, Off.disp_TIMING_HS, Off.disp_TIMING_V, Off.disp_TIMING_VS, Off.disp_PCLK, Off.disp_OUT_FMT,
   Off.disp_DSC, Off.disp_DSC_SLICE]

/-- PENDING of a page (R608). -/
def State.pendingCommit (s : State) (p : Nat) : Bool := s.bit p Off.hdr_PG_SHADOW 8

/-- PENDING with a COMMIT of an earlier tick (R331). -/
def State.commitReady (s : State) (p : Nat) : Bool := s.pendingCommit p && decide ((s.pageRt p).commitAt < s.now)

/-- The commit of a page is over. -/
def State.commitOver (s : State) (p : Nat) : State := s.setFld p Off.hdr_PG_SHADOW 8 1 0

/-! ## Links -/

/-- Move a link to a state. -/
def State.setLink (s : State) (n st : Nat) : State := s.modHead n fun h => { h with link := st }

/-- An attempt to train begins (R327). -/
def State.trainAttempt (s : State) (n : Nat) : State := (s.setLink n 2).count (pDISP n) Off.disp_CNT_LINK 0 16 1

/-- The link goes to TRAIN. -/
def State.train (s : State) (n : Nat) : State := (s.modHead n fun h => { h with tries := 0 }).trainAttempt n

/-- A link that is switched on waits for HPD, or trains at once when it is high. -/
def State.linkOn (s : State) (n : Nat) : State := if (s.head n).hpd then s.train n else s.setLink n 1

/-- HPD_RISE (R327). -/
def execHpdRise (n : Nat) (s : State) : Step :=
  let s1 := s.modHead n fun h => { h with hpd := true }
  .next (if (s.head n).link = 1 ∨ (s.head n).link = 4 then s1.train n else s1)

/-- HPD_LOSS_TIMEOUT (R327): HPD has been low for more than 2 ms. -/
def execHpdLossTimeout (n : Nat) (s : State) : Step :=
  let s1 := s.modHead n fun h => { h with hpd := false }
  .next (match (s.head n).link with
    | 2 | 4 => s1.setLink n 1
    | 3 => (s1.setLink n 1).raise (pDISP n) 11
    | _ => s1)

/-- HPD_IRQ (R327): after it, DPCD reports a loss of lock or not. -/
def execHpdIrq (n : Nat) (lost : Bool) (s : State) : Step :=
  .next (if lost ∧ (s.head n).link = 3 then s.train n else s)

/-- LINK_TRAIN_DONE (R327): an attempt ends. -/
def execLinkTrainDone (n : Nat) (ok : Bool) (s : State) : Step :=
  if (s.head n).link ≠ 2 then .next s
  else if ok then .next (s.setLink n 3)
  else
    let s1 := s.modHead n fun h => { h with tries := h.tries + 1 }
    .next (if (s1.head n).tries < 3 then s1.trainAttempt n
      else ((s1.setLink n 4).raise (pDISP n) 10).count (pDISP n) Off.disp_CNT_LINK 16 16 1)

/-! ## AUX -/

/-- An AUX command with a code (R328). -/
def State.auxCmd (s : State) (m : Master) (n code : Nat) (v : Word) : State :=
  s.regWrite m (pDISP n) Off.disp_AUX_CMD fun t =>
    if (t.head n).aux.isSome then t.stateWrite (pDISP n)
    else (t.setReg (pDISP n) Off.disp_AUX_STAT 1).modHead n fun h => { h with aux := some (wset v 0 3 code) }

/-- AUX_NATIVE_WRITE (R328). -/
def execAuxNativeWrite (m : Master) (n : Nat) (v : Word) (s : State) : Step := .next (s.auxCmd m n 1 v)
/-- AUX_NATIVE_READ (R328). -/
def execAuxNativeRead (m : Master) (n : Nat) (v : Word) (s : State) : Step := .next (s.auxCmd m n 2 v)
/-- AUX_I2C_WRITE (R328). -/
def execAuxI2cWrite (m : Master) (n : Nat) (v : Word) (s : State) : Step := .next (s.auxCmd m n 3 v)
/-- AUX_I2C_READ (R328). -/
def execAuxI2cRead (m : Master) (n : Nat) (v : Word) (s : State) : Step := .next (s.auxCmd m n 4 v)

/-- AUX_DONE: outcome 0 DONE, 1 NACK, 2 DEFER_LIMIT, 3 TIMEOUT, with the bytes that a read brought. -/
def execAuxDone (n outcome : Nat) (data : List Byte) (s : State) : Step :=
  match (s.head n).aux with
  | none => .next s
  | some c =>
    let s1 := (s.setReg (pDISP n) Off.disp_AUX_STAT (wd (2 ^ (1 + outcome % 4)))).modHead n fun h => { h with aux := none }
    .next (if outcome % 4 = 0 ∧ wfld c 0 1 = 0 then
        let old := wordsBytes (s1.regs32 (pDISP n) Off.disp_AUX_DATA0 4)
        let new := data.take (wfld c 4 4 + 1)
        s1.setRegs32 (pDISP n) Off.disp_AUX_DATA0 (bytesWords 4 (new ++ old.drop new.length))
      else s1)

/-! ## Pictures -/

/-- Push a picture to its RET_Q and produce its RET_EVC (R340). -/
def State.layerRetire (s : State) (g rflags : Nat) (p : LayerPic) : State :=
  (s.push (pDISP g) (p.retQ % 2 ^ 20)
    [wd p.buf, wd (p.buf / 2 ^ 32), wd p.size, wd p.token, wd p.frame, wd (rflags + min 65535 p.shown * 65536), 0, 0]).produceOn
    (pDISP g) (p.evt % 256) (p.evt.testBit 8)

/-- The picture that a descriptor offers to layer `l` (R210, R316, R340). -/
def State.offered (s : State) (g l : Nat) (d : Words) : LayerPic :=
  { buf := dwordAt d 0, size := (s.lreg g l Off.disp_BUF_SIZE).toNat, token := (wordAt d 7).toNat, frame := (wordAt d 4).toNat,
    flags := (wordAt d 5).toNat, retQ := (s.lreg g l Off.disp_RET_Q).toNat, evt := (s.lreg g l Off.disp_L_EVT).toNat }

/-- A descriptor that is not shown (R339). -/
def LayerPic.refused (p : LayerPic) : Bool := decide (p.buf = 0) || p.flags.testBit 1 || p.flags.testBit 2 || p.flags.testBit 3

/-- What a layer finds on its input queue (R338): nothing while no descriptor was there before this tick. -/
def State.layerFetch (s : State) (q : Nat) : Option Words × State :=
  if (s.qReissue q).isNone && s.qOld q == 0 then (none, s) else s.take q

/-- Take one descriptor (R338, R339), one that was pushed in this tick not being seen; whether one was there. -/
def State.layerTake (s : State) (g l : Nat) : State × Bool :=
  match s.layerFetch (wfld (s.lreg g l Off.disp_IN_Q) 0 20) with
  | (none, t) => (t, false)
  | (some d, t) =>
    let p := t.offered g l d
    if p.refused then ((t.layerRetire g 2 p).raise (pDISP g) 14, true)
    else
      let t1 := match (t.layer g l).next with
        | some q => t.layerRetire g 1 q
        | none => t
      (t1.modLayer g l fun r => { r with next := some p }, true)

/-- Take every descriptor (QMODE 1): of those that are not refused the newest is kept. -/
def State.layerTakeAll (s : State) (g l : Nat) : Nat → State
  | 0 => s
  | k + 1 =>
    let r := s.layerTake g l
    if r.2 then r.1.layerTakeAll g l k else r.1

/-- What layer `l` takes at a start of vertical blanking (R338). -/
def State.layerLook (s : State) (g l : Nat) : State :=
  if !s.layerOn g l || s.layerBand g l then s
  else if bitAt (s.lreg g l Off.disp_L_CTRL) 4 then
    let q := wfld (s.lreg g l Off.disp_IN_Q) 0 20
    s.layerTakeAll g l ((s.qView q).level + (s.qm.reissue.filter fun r => r.queue == q).length)
  else if (s.layer g l).next.isSome then s
  else (s.layerTake g l).1

/-- The context of pipe `w` that writes the ring at an address through branch `b`, if one does (R207, R341). -/
def State.ringWriter (s : State) (w b base : Nat) : Option Nat :=
  (List.range 64).map (fun c => ctxKey w c) |>.find? fun k =>
    let r := Map.get (fun _ => []) (s.pctx k).band b
    decide ((s.pctx k).state ≠ 0) && !r.isEmpty && decide (dwordAt r 0 = base)

/-- The base of a band layer's ring. -/
def State.bandBase (s : State) (g l : Nat) : Nat :=
  (s.lreg g l Off.disp_BAND_LO).toNat + 2 ^ 32 * (s.lreg g l Off.disp_BAND_HI).toNat

/-- The guard entry of layer `l` (R341). -/
def State.layerGuard (s : State) (g l : Nat) : Guard :=
  let c := s.lreg g l Off.disp_L_CTRL
  if !bitAt c 0 || !(bitAt c 2 || bitAt c 3) then {}
  else if bitAt c 1 then
    let w := wfld (s.lreg g l Off.disp_BAND_CFG) 16 3
    let b := wfld (s.lreg g l Off.disp_BAND_CFG) 19 2
    let base := s.bandBase g l
    let n := wfld (s.lreg g l Off.disp_BAND_CFG) 0 13 * (s.lreg g l Off.disp_STRIDE).toNat
    let set := match s.ringWriter w b base with
      | some k => (s.stripeSet k).length - 1
      | none => 0
    if n = 0 then {} else { en := true, base := base, limit := base + n - 1, exemptEn := true, exempt := pPIPE w (9 + b), exemptSet := set }
  else match (s.layer g l).cur with
    | some p => if p.size = 0 then {} else { en := true, base := p.buf, limit := p.buf + p.size - 1 }
    | none => {}

/-- Set the guard entry of a layer. -/
def State.putGuard (s : State) (g l : Nat) (v : Guard) : State :=
  s.onDram fun d => { d with guard := Map.put (fun _ => {}) d.guard (8 * g + l) v }

/-- What a frame start does to layer `l` (R338, R340, R341, R344). -/
def State.layerFrame (s : State) (g f l : Nat) : State :=
  let r := s.layer g l
  let out := r.old ++ (match r.cur with
    | some p => [(p, f)]
    | none => [])
  let s1 :=
    if !s.layerOn g l || s.layerBand g l then
      s.modLayer g l fun x =>
        { x with old := out ++ (match x.next with
                   | some p => [(p, f)]
                   | none => []), cur := none, next := none, stale := false }
    else match r.next with
      | some p => s.modLayer g l fun x => { x with old := out, cur := some { p with shown := 1 }, next := none, stale := false }
      | none =>
        match r.cur with
        | none => s
        | some p =>
          let lim := wfld (s.lreg g l Off.disp_L_EVT) 16 8
          let s2 := s.modLayer g l fun x => { x with cur := some { p with shown := p.shown + 1 } }
          if 0 < lim ∧ lim < p.shown + 1 then (s2.modLayer g l fun x => { x with stale := true }).raise (pDISP g) 16 else s2
  s1.putGuard g l (s1.layerGuard g l)

/-- Retire every picture that layer `l` holds and release its guard entry (R345). -/
def State.layerDrop (s : State) (g l : Nat) : State :=
  let r := s.layer g l
  let all := r.old.map (·.1) ++ (match r.cur with
    | some p => [p]
    | none => []) ++ (match r.next with
    | some p => [p]
    | none => [])
  (all.foldl (fun t p => t.layerRetire g 0 p) s |>.modLayer g l fun _ => {}).putGuard g l {}

/-! ## Commits -/

/-- DSC_DELAY and OUT_LAT of the values in force (R330). -/
def State.outLatNow (s : State) (n : Nat) : Nat :=
  let p := pDISP n
  s.htotal n + 96 + (if s.bit p Off.disp_DSC 0 then
      s.htotal n + Config.xmitDelay (s.fld p Off.disp_DSC 4 10) (2 ^ s.fld p Off.disp_DSC 1 2) (s.fld p Off.disp_DSC_SLICE 0 16)
    else 0)

/-- The registers of R332 but VTOTAL. -/
def State.retrainVals (s : State) (n : Nat) : List Nat :=
  (pairRegs.map fun o => if o = Off.disp_TIMING_V then (s.reg (pDISP n) o).toNat % 65536 else (s.reg (pDISP n) o).toNat)

/-- What line-locked contexts watch (R89). -/
def State.llVals (s : State) (n : Nat) : List Nat :=
  [s.vtotal n, (s.reg (pDISP n) Off.disp_TIMING_H).toNat, (s.reg (pDISP n) Off.disp_TIMING_HS).toNat,
   s.fld (pDISP n) Off.disp_LINK 0 4]

/-- A valid commit of head `n` takes effect (R331, R332). -/
def State.dispApply (s : State) (n : Nat) : State :=
  let p := pDISP n
  let s1 := ((s.applyShadow p).commitOver p).count p Off.disp_CNT_COMMIT 0 16 1
  let s2 := s1.setReg p Off.disp_OUT_LAT (wd (s1.outLatNow n))
  let changed := s2.retrainVals n != s.retrainVals n
  let lk := (s2.head n).link
  let s3 := if lk = 4 ∨ (changed ∧ (lk = 2 ∨ lk = 3)) then s2.train n else s2
  let s4 := if s3.llVals n != s.llVals n ∧ (s3.llState n = 1 ∨ s3.llState n = 2) then s3.setLl n 1 else s3
  if (changed || s4.vtotal n != s.vtotal n) && (s4.lineR n).run then
    s4.modLine n fun r => { r with line := s4.activeV n, pixel := 0, rem := 0 }
  else s4

/-- A commit is discarded: the shadow copies stay (R326). -/
def State.commitRefused (s : State) (p b : Nat) : State := (s.commitOver p).raise p b

/-- Is head `n`'s set of shadow values valid? The layers of a locked odd head are ignored (R333). -/
def State.dispValid (s : State) (n : Nat) : Bool :=
  timingOk (s.bit (pDISP n) Off.disp_CTRL 0) (s.shadowOf (pDISP n)) &&
    ((s.pairLocked n && n % 2 == 1) || layersOk (s.shadowOf (pDISP n)))

/-- The commit of a head that is not locked. -/
def State.dispCommit (s : State) (n : Nat) : State :=
  if s.dispValid n then s.dispApply n else s.commitRefused (pDISP n) 8

/-- The values that R335 compares: the partner's shadow copies count when its commit is pending. -/
def State.pairVals (s : State) (n : Nat) (sh : Bool) : List Word :=
  pairRegs.map fun o => if sh then s.shadowOf (pDISP n) o else s.reg (pDISP n) o

/-- Both commits of a locked pair (R334, R335). -/
def State.pairCommit (s : State) (g : Nat) : State :=
  let ok := s.pairVals g true == s.pairVals (g + 1) true && s.dispValid g && s.dispValid (g + 1)
  let s1 := s.modHead g fun h => { h with heldVb := 0 }
  let s2 := s1.modHead (g + 1) fun h => { h with heldVb := 0 }
  if ok then (s2.dispApply g).dispApply (g + 1) else (s2.commitRefused (pDISP g) 8).commitRefused (pDISP (g + 1)) 8

/-- A commit while the head, or both heads of a locked pair, are off (R331). -/
def State.dispCommitOff (s : State) (n : Nat) : State :=
  if s.pairLocked n then
    let o := if n % 2 = 0 then n + 1 else n - 1
    if s.dispValid n && s.pairVals n true == s.pairVals o (s.pendingCommit (pDISP o)) then s.dispApply n
    else s.commitRefused (pDISP n) 8
  else s.dispCommit n

/-- Region `r` of an EYE page, by R_CFG, R_XY and R_WH (R348). -/
def State.eyeShape (s : State) (n r : Nat) : Bool × Word × Word :=
  (s.bit (pEYE n) (Off.eye_R_CFG + 0x20 * r) 0, s.reg (pEYE n) (Off.eye_R_XY + 0x20 * r), s.reg (pEYE n) (Off.eye_R_WH + 0x20 * r))

/-- Is an EYE page's set of shadow values valid under the timing in force? -/
def State.eyeValid (s : State) (n : Nat) : Bool :=
  (List.range 16).all fun r =>
    let sh := fun o => s.shadowOf (pEYE n) (o + 0x20 * r)
    let w := wfld (sh Off.eye_R_WH) 0 16
    let h := wfld (sh Off.eye_R_WH) 16 16
    !bitAt (sh Off.eye_R_CFG) 0 ||
      (decide (0 < w) && decide (0 < h) && decide (wfld (sh Off.eye_R_XY) 0 16 + w ≤ s.activeH n) &&
        decide (wfld (sh Off.eye_R_XY) 16 16 + h ≤ s.activeV n))

/-- A region of an Eyespot. -/
def State.eyeReg (s : State) (n r : Nat) : EyeReg := Map.get (fun _ => {}) (s.head n).eye r
/-- Update a region. -/
def State.modEye (s : State) (n r : Nat) (f : EyeReg → EyeReg) : State :=
  s.modHead n fun h => { h with eye := Map.put (fun _ => {}) h.eye r (f (Map.get (fun _ => {}) h.eye r)) }
/-- Offset of a region's register. -/
def erOff (r o : Nat) : Nat := o + 0x20 * r

/-- A region restarts (R348). -/
def State.eyeRestart (s : State) (n r : Nat) : State :=
  let st := s.reg (pEYE n) (erOff r Off.eye_R_STAT)
  ((s.setReg (pEYE n) (erOff r Off.eye_R_STAT) (wset (setBit (wset st 8 8 0) 1 false) 16 16 0)).putBit (pEYE n) Off.eye_FROZEN_MAP r
    false).modEye n r fun e => { e with prev := none, due := none, ref := 0, pad := 0, video := false, marked := false }

/-- The commit of an EYE page (R348, R352). -/
def State.eyeCommit (s : State) (n : Nat) : State :=
  if !s.eyeValid n then s.commitRefused (pEYE n) 12
  else
    let s1 := (s.applyShadow (pEYE n)).commitOver (pEYE n)
    (List.range 16).foldl (fun t r =>
      let a := s.eyeShape n r
      let b := s1.eyeShape n r
      if b.1 ∧ a ≠ b then t.eyeRestart n r else t) s1

/-- The commits that take effect at a start of vertical blanking of head `g`, and of its locked partner (R331, R334). -/
def State.vblankCommits (s : State) (g : Nat) : State :=
  if s.pairLocked g then
    let a := s.commitReady (pDISP g)
    let b := s.commitReady (pDISP (g + 1))
    let held := max (s.head g).heldVb (s.head (g + 1)).heldVb
    if a && b && decide (held < 2) then s.pairCommit g
    else if a || b then
      let n := if a then g else g + 1
      s.modHead n fun h => { h with heldVb := h.heldVb + 1 }
    else s
  else if s.commitReady (pDISP g) then s.dispCommit g else s

/-- VBLANK_START (R329, R331, R338): line ACTIVE_V, pixel 0, of head `n`, and of its locked partner. -/
def execVblankStart (n : Nat) (s : State) : Step :=
  let g := s.layerHead n
  if !(s.lineR g).dueVblank then .next s
  else
    let hs := if s.pairLocked g then [g, g + 1] else [g]
    let s1 := hs.foldl (fun t h => t.modLine h fun r => { r with dueVblank := false }) s
    let s2 := s1.vblankCommits g
    let s3 := hs.foldl (fun t h => if t.commitReady (pEYE h) then t.eyeCommit h else t) s2
    let s4 := if s3.alive (pDISP g) then (List.range 8).foldl (fun t l => t.layerLook g l) s3 else s3
    .next (hs.foldl (fun t h => t.produce (pDISP h) 0) s4)

/-- LINE_MATCH (R329). -/
def execLineMatch (n : Nat) (s : State) : Step :=
  if (s.lineR n).dueMatch then .next ((s.modLine n fun r => { r with dueMatch := false }).produce (pDISP n) 1) else .next s

/-- PAIR_COMMIT_TIMEOUT (R334): the partner has not committed before the second start of vertical blanking. -/
def execPairCommitTimeout (n : Nat) (s : State) : Step :=
  if s.pendingCommit (pDISP n) ∧ 2 ≤ (s.head n).heldVb then
    .next (((s.commitOver (pDISP n)).modHead n fun h => { h with heldVb := 0 }).raise (pDISP n) 12 |>.count (pDISP n)
      Off.disp_CNT_COMMIT 16 16 1)
  else .next s

/-! ## Line-locked contexts -/

/-- Does context `k` watch (LL_CFG.EN)? -/
def State.llOn (s : State) (k : Nat) : Bool :=
  s.alive pLINEVIEW && s.bit pLINEVIEW (llOff k Off.lineview_LL_CFG) 0 && decide (s.llState k ≠ 0)

/-- Frame period of head `n` in ticks. -/
def State.framePeriod (s : State) (n : Nat) : Nat := s.pxTicks n (s.htotal n * s.vtotal n)

/-- need(y) (R88). -/
def State.llNeed (s : State) (k y : Nat) : Nat :=
  ((y + 1) * s.fld pLINEVIEW (llOff k Off.lineview_LL_GEOM) 0 16 + s.activeV k - 1) / max 1 (s.activeV k) +
    s.fld pLINEVIEW (llOff k Off.lineview_LL_GEOM) 16 16

/-- The margin of display line `y` in context `k` (R88); none is negative without a number. -/
def State.llMarginOf (s : State) (k y : Nat) : Option Int :=
  let r := s.slineR (s.llSline k)
  match (s.ll k).paired with
  | none => none
  | some f =>
    if r.frame ≠ f then none
    else
      let rows := match r.line with
        | some l => min l r.height
        | none => s.fld pLINEVIEW (llOff k Off.lineview_LL_GEOM) 0 16
      some ((rows : Int) - (s.llNeed k y : Int))

/-- Lines that the writer of layer `l`'s ring has written of the frame that context `k` shows, and of a later one. -/
def State.ringLines (s : State) (k g l : Nat) : Nat :=
  let b := wfld (s.lreg g l Off.disp_BAND_CFG) 19 2
  match s.ringWriter (wfld (s.lreg g l Off.disp_BAND_CFG) 16 3) b (s.bandBase g l), (s.ll k).paired with
  | some c, some p =>
    (match (s.pctx c).frame with
     | none => 0
     | some f =>
       let n := (Map.get (fun _ => {}) f.br b).lines
       if f.num = p then n
       else if serialLt p f.num then
         n + wfld (s.lreg g l Off.disp_SRC_XY) 16 16 + wfld (s.lreg g l Off.disp_SRC_WH) 16 16
       else 0)
  | _, _ => 0

/-- Is a band layer of head `k` more than BAND_LINES ahead of display line `y` (R88)? -/
def State.llAhead (s : State) (k y : Nat) : Bool :=
  let g := s.layerHead k
  (List.range 8).any fun l =>
    s.layerOn g l && s.layerBand g l &&
      decide (wfld (s.lreg g l Off.disp_SRC_XY) 16 16 + y + s.fld pLINEVIEW (llOff k Off.lineview_LL_BAND) 0 16 <
        s.ringLines k g l + wfld (s.lreg g l Off.disp_DST_XY) 16 16)

/-- The margin check of context `k` at the start of display line `y` (R88). -/
def State.llCheck (s : State) (k y : Nat) : State :=
  if !s.llOn k then s
  else
    let o := llOff k Off.lineview_LL_STAT
    let m := s.llMarginOf k y
    let mm := llOff k Off.lineview_LL_MARGIN_MIN
    let s1 := match m with
      | some v => if v < signed 32 (s.reg pLINEVIEW mm).toNat then s.setReg pLINEVIEW mm (wd (unsigned 32 v)) else s
      | none => s
    let neg := match m with
      | some v => decide (v < 0)
      | none => true
    let s2 := if !neg then s1
      else
        let t := ((s1.putBit pLINEVIEW o 8 true).modLl k fun l => { l with clean := false, underrun := true }).raise pLINEVIEW 8
        if (s1.ll k).underrun then t else t.produce pLINEVIEW 0
    if s2.llAhead k y then ((s2.putBit pLINEVIEW o 9 true).modLl k fun l => { l with overrun := true }).raise pLINEVIEW 9 else s2

/-- The end of a display frame in context `k`: its conditions, its latency, and the pairing of the next one (R88, R89, R91). LL_PAIR and
LL_PAIR_LINE show the frame that begins here, as the last whose pairing stands (notes/assumptions/167.md). -/
def State.llFrame (s : State) (k : Nat) : State :=
  if !s.llOn k then s
  else
    let l := s.ll k
    let o := llOff k Off.lineview_LL_STAT
    let ok := l.clean && (match l.paired, l.prev with
      | some a, some b => a == (b + 1) % 2 ^ 32
      | _, _ => false)
    let s1 := ((s.putBit pLINEVIEW o 8 l.underrun).putBit pLINEVIEW o 9 l.overrun).putBit pLINEVIEW o 10 l.latBad
    let s2 := s1.setReg pLINEVIEW (llOff k Off.lineview_LL_LAT_LAST) (wd l.latMax)
    let lm := llOff k Off.lineview_LL_LAT_MAX
    let s3 := if (s2.reg pLINEVIEW lm).toNat < l.latMax then s2.setReg pLINEVIEW lm (wd l.latMax) else s2
    let s4 := match s3.llState k with
      | 1 =>
        if !ok then s3.modLl k fun x => { x with okFrames := 0 }
        else if l.okFrames + 1 < 2 then s3.modLl k fun x => { x with okFrames := x.okFrames + 1 }
        else ((s3.setLl k 2).setFld pLINEVIEW o 16 16 0).produce pLINEVIEW 3
      | 2 =>
        let t := s3.count pLINEVIEW o 16 16 1
        if !l.underrun then t.modLl k fun x => { x with badFrames := 0 }
        else if l.badFrames + 1 < 2 then t.modLl k fun x => { x with badFrames := x.badFrames + 1 }
        else ((t.setLl k 3).raise pLINEVIEW 11).produce pLINEVIEW 2
      | _ => s3
    let r := s4.slineR (s4.llSline k)
    let pair := match r.started with
      | some t => if s4.slineValid (s4.llSline k) && decide (s4.now ≤ t + s4.framePeriod k) then some r.frame else none
      | none => none
    let s5 := s4.setReg pLINEVIEW (llOff k Off.lineview_LL_PAIR) (match pair with
      | some f => wd f
      | none => 0xFFFFFFFF#32)
    (s5.setReg pLINEVIEW (llOff k Off.lineview_LL_PAIR_LINE) (wd (s5.lineR k).frame)).modLl k fun x =>
      { x with prev := l.paired, paired := pair, clean := true, underrun := false, overrun := false, latBad := false, latMax := 0 }

/-- The latency of display line `y` at the pads, in µs rounded up, at the 16 lines of R91, from the tick in which the paired sensor frame's
line count reached need(y) − PIPE_LAT; a line whose rows have not come has none. -/
def State.llLatency (s : State) (k y : Nat) : State :=
  let av := s.activeV k
  if !s.llOn k || !((List.range 16).any fun i => i * av / 16 == y) then s
  else
    let sl := s.slineR (s.llSline k)
    let row := s.llNeed k y - s.fld pLINEVIEW (llOff k Off.lineview_LL_GEOM) 16 16
    let crossed := sl.times.filter fun e => (s.ll k).paired == some e.1 && decide (row ≤ e.2.1)
    match crossed.getLast? with
    | none => s
    | some (_, _, t) =>
      let us := (s.now - t + 249) / 250
      let lim := s.fld pLINEVIEW (llOff k Off.lineview_LL_LIMIT) 0 24
      let s1 := s.modLl k fun x => { x with latMax := max x.latMax us }
      if (if lim = 0 then s.framePeriod k + 2000 * 250 else lim * 250) < s.now - t then
        ((s1.putBit pLINEVIEW (llOff k Off.lineview_LL_STAT) 10 true).modLl k fun x => { x with latBad := true }).raise pLINEVIEW 10
          |>.produce pLINEVIEW 1
      else s1

/-- LL_SENSOR_TIMEOUT (R89): LOCKED and no sensor frame start within 1.25 frame periods. -/
def execLlSensorTimeout (k : Nat) (s : State) : Step :=
  let t := ((s.slineR (s.llSline k)).started).getD 0
  if s.llOn k ∧ s.llState k = 2 ∧ 5 * s.framePeriod k < 4 * (s.now - t) then
    .next (((s.setLl k 3).raise pLINEVIEW 11).produce pLINEVIEW 2)
  else .next s

/-! ## Lines -/

/-- The warning image's colour at region position (x, y) of a `w` by `h` region (R350). -/
def State.warnPixel (s : State) (n w h x y : Nat) : Nat × Nat × Nat :=
  let p := pEYE n
  let ww := max 1 (s.fld p Off.eye_WARN_SIZE 0 10)
  let wh := max 1 (s.fld p Off.eye_WARN_SIZE 16 9)
  let off := fun (a b : Nat) => (((a : Int) - (b : Int)) / 2) + (if (a + b) % 2 = 1 ∧ Config.centreUp a b then 1 else 0)
  let ix := (x : Int) - off w ww
  let iy := (y : Int) - off h wh
  let code := if 0 ≤ ix ∧ ix < ww ∧ 0 ≤ iy ∧ iy < wh then
      let i := iy.toNat * ww + ix.toNat
      s.peekNat (sramBase + s.fld p Off.eye_WARN_BASE 0 19 + i / 4) 1 / 4 ^ (i % 4) % 4
    else 0
  triple (s.reg p (Off.eye_WARN_PAL0 + 4 * code))

/-- Warning images over a composed line (R350). -/
def State.warnLine (s : State) (n y : Nat) (line : List (Nat × Nat × Nat)) : List (Nat × Nat × Nat) :=
  (List.range 16).foldl (fun px r =>
    let xy := s.reg (pEYE n) (erOff r Off.eye_R_XY)
    let wh := s.reg (pEYE n) (erOff r Off.eye_R_WH)
    let x0 := wfld xy 0 16
    let y0 := wfld xy 16 16
    let w := wfld wh 0 16
    let h := wfld wh 16 16
    if !(s.eyeReg n r).shown || y < y0 || y0 + h ≤ y then px
    else (px.zip (List.range px.length)).map fun e =>
      if x0 ≤ e.2 ∧ e.2 < x0 + w then s.warnPixel n w h (e.2 - x0) (y - y0) else e.1) line

/-- A 4:2:2 line: each pixel carries Y and one chroma sample (R346); how the samples are formed is open. -/
def carry422 (px : List (Nat × Nat × Nat)) : List (Nat × Nat × Nat) :=
  (px.zip (List.range px.length)).map fun e =>
    let a := px.getD (e.2 / 2 * 2) (0, 0, 0)
    let b := px.getD (e.2 / 2 * 2 + 1) a
    let q := if e.2 % 2 = 0 then Config.chromaMix 2 0 [a.2.1, b.2.1] else Config.chromaMix 2 0 [a.2.2, b.2.2]
    (e.1.1, composeCode (Q.clamp Q.zero (Q.ofNat 1023) ⟨q.1, max 1 q.2⟩), 0)

/-- Errors of head `n`'s own memory in a line, as (layer, pixel of its destination, uncorrectable), with an injection that waits on the page
(R497, R561): those that ECC cannot correct, and the counts. -/
def State.dispErr (s : State) (n : Nat) (errs : List (Nat × Nat × Bool)) : List (Nat × Nat) × State :=
  let p := pDISP n
  let k := (s.pageRt p).inject
  let all := if k = 0 then errs
    else ((((List.range 8).find? fun l => s.layerOn (s.layerHead n) l).getD 0), 0, decide (k = 2)) :: errs
  let s1 := all.foldl (fun t e => t.eccCount p Off.disp_CNT_SRAM 17 (if e.2.2 then .uncorrectable else .corrected)) s
  ((all.filter (·.2.2)).map fun e => (e.1, e.2.1), if k = 0 then s1 else s1.modPage p fun r => { r with inject := 0 })

/-- Compose line `y` of head `n`; `late` names layers of which only so many pixels have arrived, `lost` pixels that the head's own memory
has lost (R330, R342, R343, R497). -/
def State.composeLine (s : State) (n y : Nat) (late lost : List (Nat × Nat)) : State :=
  let p := pDISP n
  let g := s.layerHead n
  let lo := if n = g then 0 else s.activeH n
  let hi := lo + s.activeH n
  let got := fun (l : Nat) => if s.fenced p then 0 else ((late.find? fun e => e.1 == l).map (·.2)).getD 65536
  let ls := (List.range 8).filterMap fun l => (s.layerLine n g l y lo hi (got l) ((lost.filter fun e => e.1 == l).map (·.2))).map fun v => (l, v)
  let bg := triple (s.reg p Off.disp_BG)
  let px0 := ls.foldl (fun line e => overLine (s.lreg g e.1 Off.disp_L_CTRL) lo line e.2) (List.replicate (s.activeH n) bg)
  let fmt := s.reg p Off.disp_OUT_FMT
  let px1 := s.warnLine n y px0
  let px2 := if wfld fmt 0 2 = 2 then carry422 px1 else px1
  let px := px2.map (outDepth fmt)
  let marks := ls.flatMap fun e =>
    if !s.layerSafety g e.1 then []
    else
      let x := e.2.x0 - lo
      let bad := match (s.layer g e.1).cur with
        | some c => !s.layerBand g e.1 && c.flags.testBit 0
        | none => false
      (if bad && !e.2.px.isEmpty then [(x, x + e.2.px.length - 1)] else []) ++ e.2.filled.map fun k => (x + k, x + k)
  let s1 := ls.foldl (fun t e => t.modLayer n e.1 fun r => { r with prev := e.2.own }) s
  let under := ls.any fun e => e.2.missing
  let poison := ls.foldl (fun k e => k + e.2.poison) 0
  let s2 := if !under then s1
    else
      let t := s1.count p Off.disp_CNT_UNDER 16 16 1
      if (t.head n).under then t
      else (((t.count p Off.disp_CNT_UNDER 0 16 1).modHead n fun h => { h with under := true }).raise p 9).produce p 3
  let s3 := if poison = 0 then s2 else (s2.count p Off.disp_CNT_POISON 0 32 poison).raise p 15
  s3.modHead n fun h => { h with lines := h.lines ++ [⟨y, (s.lineR n).frame, s.now, px, marks⟩] }

/-- HEAD_LINE_START (R88, R330): `late` and `errs` say of which layers pixels are missing or lost (R342, R497). -/
def execHeadLineStart (n : Nat) (late : List (Nat × Nat)) (errs : List (Nat × Nat × Bool)) (s : State) : Step :=
  match (s.lineR n).dueLine with
  | [] => .next s
  | y :: rest =>
    let r := ((s.modLine n fun r => { r with dueLine := rest }).llCheck n y).dispErr n errs
    .next (r.2.composeLine n y late r.1)

/-- The components of a pixel under OUT_FMT, each as 2 bytes (R346). -/
def pixelBytes (fmt : Word) (t : Nat × Nat × Nat) : List Byte :=
  leBytes 2 t.1 ++ leBytes 2 t.2.1 ++ (if wfld fmt 0 2 = 2 then [] else leBytes 2 t.2.2)

/-- CRC-32C state over more bytes, before the final XOR. -/
def crcRun (c : Nat) (bs : List Byte) : Nat := bs.foldl (fun c b => crcStep 0x82F63B78 8 (Nat.xor c b.toNat)) c

/-- Region `r` takes a line that leaves the pads: what the composition gave and what the pads carried, and whether it was
video (R346, R347). With DSC on, what the reconstruction gives is free. -/
def State.eyeLine (s : State) (n : Nat) (l : HeadLine) (pads : List (Nat × Nat × Nat)) (same video : Bool) (r : Nat) : State :=
  let p := pEYE n
  let xy := s.reg p (erOff r Off.eye_R_XY)
  let wh := s.reg p (erOff r Off.eye_R_WH)
  let x0 := wfld xy 0 16
  let y0 := wfld xy 16 16
  let w := wfld wh 0 16
  let h := wfld wh 16 16
  if !s.bit p (erOff r Off.eye_R_CFG) 0 || l.y < y0 || y0 + h ≤ l.y then s
  else
    let fmt := s.reg (pDISP n) Off.disp_OUT_FMT
    let e0 := if l.y = y0 then { s.eyeReg n r with ref := 0xFFFFFFFF, pad := 0xFFFFFFFF, video := true, marked := false }
      else s.eyeReg n r
    let cut := fun (px : List (Nat × Nat × Nat)) => ((px.drop x0).take w).flatMap (pixelBytes fmt)
    let mark := l.marks.any fun m => decide (x0 ≤ m.2) && decide (m.1 < x0 + w)
    let dsc := s.bit (pDISP n) Off.disp_DSC 0
    let s1 := if dsc then s.onFree (· + 2) else s
    let ref := if dsc then (Config.freeWord s.free).toNat else crcRun e0.ref (cut l.px)
    let pad := if same then (if e0.pad = e0.ref then ref else if dsc then (Config.freeWord (s.free + 1)).toNat else crcRun e0.pad (cut l.px))
      else crcRun e0.pad (cut pads)
    s1.modEye n r fun _ =>
      { e0 with ref := ref, pad := pad, video := e0.video && video, marked := e0.marked || mark,
                due := if l.y + 1 = y0 + h then some (l.frame, s.now) else e0.due }

/-- HEAD_LINE_OUT (R330): the oldest line leaves the pads; `pads` gives the pixels read back there where they are not what the
head sent. -/
def execHeadLineOut (n : Nat) (pads : List (Nat × Nat × Nat)) (s : State) : Step :=
  match (s.head n).lines with
  | [] => .next s
  | l :: rest =>
    let lat := (s.reg (pDISP n) Off.disp_OUT_LAT).toNat
    if s.now < l.start + s.pxTicks n lat then .next s
    else
      let s1 := s.modHead n fun h => { h with lines := rest }
      let s2 := if l.y + 1 = s1.activeV n then
          s1.modHead n fun h => { h with done := some (l.frame, l.start + s1.pxTicks n (lat + s1.activeH n)) }
        else s1
      let video := decide ((s2.head n).link = 3)
      let s3 := if s2.alive (pEYE n) && s2.bit (pEYE n) Off.eye_E_CTRL 0 then
          (List.range 16).foldl (fun t r => t.eyeLine n l pads pads.isEmpty video r) s2
        else s2
      .next (s3.llLatency n l.y)

/-- FRAME_DONE (R329, R340): the last active pixel has left the pads. -/
def execFrameDone (n : Nat) (s : State) : Step :=
  match (s.head n).done with
  | none => .next s
  | some (f, t) =>
    if s.now < t then .next s
    else
      let s1 := (s.modHead n fun h => { h with done := none }).produce (pDISP n) 2
      if s.layerHead n ≠ n ∨ s.fenced (pDISP n) then .next s1
      else .next ((List.range 8).foldl (fun u l =>
        let r := u.layer n l
        let out := r.old.filter fun e => serialLe e.2 f
        (out.foldl (fun v e => v.layerRetire n 0 e.1) (u.modLayer n l fun x => { x with old := x.old.filter fun e => !serialLe e.2 f }))) s1)

/-- The warning images and SAFE_CLR bits that act at a frame start of head `n` (R350). -/
def State.eyeFrame (s : State) (n : Nat) : State :=
  let clr := (s.head n).clr
  let two := 2 * s.pxTicks n (s.htotal n)
  (List.range 16).foldl (fun t r =>
    let safe := t.bit (pEYE n) Off.eye_SAFE_MAP r
    if clr.testBit r then
      ((t.putBit (pEYE n) Off.eye_SAFE_MAP r false).putBit (pEYE n) (erOff r Off.eye_R_STAT) 2 false).modEye n r fun e =>
        { e with shown := false }
    else if safe ∧ (t.eyeReg n r).safeAt + two ≤ t.now then t.modEye n r fun e => { e with shown := true }
    else t) (s.modHead n fun h => { h with clr := 0 })

/-- HEAD_FRAME_START (R88, R338, R341, R344, R350): line 0, pixel 0. -/
def execHeadFrameStart (n : Nat) (s : State) : Step :=
  if !(s.lineR n).dueFrame then .next s
  else
    let s1 := (s.modLine n fun r => { r with dueFrame := false }).modHead n fun h => { h with under := false }
    let f := (s1.lineR n).frame
    let s2 := if s1.layerHead n = n ∧ ¬ s1.fenced (pDISP n) then (List.range 8).foldl (fun t l => t.layerFrame n f l) s1 else s1
    .next ((s2.eyeFrame n).llFrame n)

/-! ## On and off -/

/-- The timing generator of head `n` starts at line ACTIVE_V, pixel 0, with the held frame count (R72). -/
def State.genStart (s : State) (n : Nat) : State :=
  s.modLine n fun r => { r with run := true, line := s.activeV n, pixel := 0, rem := 0, dueVblank := true, dueLine := [],
                                dueFrame := false, dueMatch := decide (s.activeV n = s.fld (pDISP n) Off.disp_LINE_MATCH 0 16) }

/-- The timing generator stops; the frame count holds without the frames of a fence (R72). -/
def State.genStop (s : State) (n : Nat) : State :=
  s.modLine n fun r => { r with run := false, frame := (r.frame + 2 ^ 32 - r.overran % 2 ^ 32) % 2 ^ 32, overran := 0, dueVblank := false, dueLine := [], dueFrame := false, dueMatch := false }

/-- HEAD_ENABLE (R72, R327): EN is set and the head is off. -/
def execHeadEnable (n : Nat) (s : State) : Step :=
  if !s.bit (pDISP n) Off.hdr_PG_CTRL 0 || !s.alive (pDISP n) || decide ((s.head n).link ≠ 0) then .next s
  else
    let s1 := (List.range 8).foldl (fun t l => t.modLayer n l fun r => { r with keptCur := 0, keptOld := 0 }) s
    let s2 := if s1.layerHead n = n ∧ ¬ (s1.lineR n).run then s1.genStart n else s1
    .next (s2.linkOn n)

/-- The head stops: link, generator, pictures and guard entries (R345). -/
def State.headStop (s : State) (n : Nat) : State :=
  let s1 := s.modHead n fun h => { h with link := 0, lines := [], done := none, under := false, heldVb := 0 }
  if s1.layerHead n = n then
    let s2 := s1.genStop n
    let s3 := if s2.pairLocked n then s2.genStop (n + 1) else s2
    (List.range 8).foldl (fun t l => t.layerDrop n l) s3
  else s1

/-- HEAD_DISABLE (R345): EN is 0 and the frame in progress has ended. -/
def execHeadDisable (n : Nat) (s : State) : Step :=
  let r := s.lineR (s.layerHead n)
  if s.bit (pDISP n) Off.hdr_PG_CTRL 0 || decide ((s.head n).link = 0) || s.fenced (pDISP n) ||
      (r.run && decide (r.line < s.activeV n)) || !(s.head n).lines.isEmpty || (s.head n).done.isSome then .next s
  else .next (s.headStop n)

/-- A head restarts after SOFT_RST with its registers at reset (R345): `held` pictures of an unfenced head are retired, those of
a fenced head keep their tokens readable. -/
def State.headReset (s : State) (n : Nat) (wasFenced : Bool) : State :=
  let old := s.head n
  let s1 := if wasFenced then
      let t := s.modHead n fun h => { h with layers := [] }
      (List.range 8).foldl (fun u l =>
        let r := Map.get (fun _ => {}) old.layers l
        (u.modLayer n l fun x =>
          { x with keptCur := match r.cur with
                     | some p => p.token
                     | none => r.keptCur,
                   keptOld := match r.old with
                     | e :: _ => e.1.token
                     | [] => r.keptOld }).putGuard n l {}) t
    else s
  let s2 := (s1.headStop n).modHead n fun h => { h with aux := none, tries := 0 }
  let s3 := if wasFenced then (List.range 8).foldl (fun u l =>
      let r := Map.get (fun _ => {}) (s1.head n).layers l
      u.modLayer n l fun x => { x with keptCur := r.keptCur, keptOld := r.keptOld }) s2 else s2
  if !s3.bit (pDISP n) Off.hdr_PG_CTRL 0 then s3
  else (if s3.layerHead n = n then s3.genStart n else s3).linkOn n

/-- A head is idle (R352). -/
def State.headIdle (s : State) (n : Nat) : Bool := !s.bit (pDISP n) Off.hdr_PG_CTRL 0 && decide ((s.head n).link = 0)

/-! ## Views -/

/-- COMMIT_HELD of head `n` (R334). -/
def State.commitHeld (s : State) (n : Nat) : Bool :=
  let g := n / 2 * 2
  s.pairLocked n && (s.lineR g).run && (s.pendingCommit (pDISP g) != s.pendingCommit (pDISP (g + 1)))

/-- The registers of a DISP page that show the head's state. -/
def State.viewDisplay (s : State) (p o : Nat) : Option Word :=
  let n := p - pDISP 0
  if pageKind p ≠ .disp then none
  else if o = Off.disp_STAT then
    let h := s.head n
    some (wd (h.link + h.hpd.toNat * 8 + (s.pairLocked n).toNat * 16 + (decide (h.link = 2 ∨ h.link = 4)).toNat * 32 +
      (s.commitHeld n).toNat * 64 + (s.fec n && decide (h.link = 3)).toNat * 128))
  else if 0x400 ≤ o ∧ o < 0x420 then
    let r := s.layer n ((o - 0x400) / 4)
    some (match r.old with
      | e :: _ => wd e.1.token
      | [] => wd r.keptOld)
  else if 0x200 ≤ o ∧ o < 0x400 then
    let r := s.layer n ((o - 0x200) / 0x40)
    if o % 0x40 = 0x38 then
      some (match r.cur with
        | some c => wd (min 65535 c.shown + r.stale.toNat * 2 ^ 16 + (c.flags.testBit 8).toNat * 2 ^ 17 +
            (c.flags.testBit 0).toNat * 2 ^ 18 + (!r.old.isEmpty).toNat * 2 ^ 19)
        | none => wd ((!r.old.isEmpty).toNat * 2 ^ 19))
    else if o % 0x40 = 0x3C then
      some (match r.cur with
        | some c => wd c.token
        | none => wd r.keptCur)
    else none
  else none

end Sys2Proof.Machine
end

