-- ==== Sys2Proof/Machine/Audio.lean ====
section
/-!
DEFINITION. TDM ports and aligned sets (R353 to R377).
-/

namespace Sys2Proof.Machine

open Sys2Proof

/-! ## Sets and ports -/

/-- The set that port `n` leads. -/
def State.tset (s : State) (n : Nat) : TdmSet := Map.get (fun _ => {}) s.tdm.sets n
/-- Update a set. -/
def State.modTset (s : State) (n : Nat) (f : TdmSet → TdmSet) : State :=
  s.onTdm fun t => { t with sets := Map.put (fun _ => {}) t.sets n (f (Map.get (fun _ => {}) t.sets n)) }
/-- TDM port `n`. -/
def State.tport (s : State) (n : Nat) : TdmPort := Map.get (fun _ => {}) s.tdm.port n
/-- Update a port. -/
def State.modTport (s : State) (n : Nat) (f : TdmPort → TdmPort) : State :=
  s.onTdm fun t => { t with port := Map.put (fun _ => {}) t.port n (f (Map.get (fun _ => {}) t.port n)) }

/-- A field of CFG of port `n`. -/
def State.tcfg (s : State) (n lo w : Nat) : Nat := s.fld (pTDM n) Off.tdm_CFG lo w
/-- LEAD, and whether a port leads itself (R357). -/
def State.tlead (s : State) (n : Nat) : Nat := s.tcfg n 0 5
def State.isLead (s : State) (n : Nat) : Bool := s.tlead n == n
/-- DIR 1: a transmit port. -/
def State.ttx (s : State) (n : Nat) : Bool := s.tcfg n 5 1 == 1
/-- Slots of a frame, their bit clocks (0: the reserved code), DATA_W and container bytes. -/
def State.tslots (s : State) (n : Nat) : Nat := s.tcfg n 8 5 + 1
def State.tslotW (s : State) (n : Nat) : Nat := [16, 24, 32, 0].getD (s.tcfg n 13 2) 0
def State.tdataW (s : State) (n : Nat) : Nat := [16, 20, 24, 32].getD (s.tcfg n 15 2) 16
def State.tcont (s : State) (n : Nat) : Nat := if s.tcfg n 22 1 = 1 then 4 else 2
/-- Ports of the set that `n` leads (R357). -/
def State.tmembers (s : State) (n : Nat) : List Nat := if s.isLead n then (List.range 32).filter fun m => s.tlead m == n else []
/-- State of the set a port belongs to (R357, R377). -/
def State.tsetState (s : State) (n : Nat) : Nat := if s.isLead (s.tlead n) then (s.tset (s.tlead n)).st else 0

/-- FS_NUM, FS_DEN and ANCHOR of a lead. -/
def State.tnum (s : State) (n : Nat) : Nat := s.fld (pTDM n) Off.tdm_RATE 0 18
def State.tden (s : State) (n : Nat) : Nat := s.fld (pTDM n) Off.tdm_RATE 24 8
def State.tanchor (s : State) (n : Nat) : Nat := s.reg64 (pTDM n) Off.tdm_ANCHOR_LO Off.tdm_ANCHOR_HI
/-- t_k in ns, rounded down (R360). -/
def State.tk (s : State) (n k : Nat) : Nat := s.tanchor n + k * 1000000000 * s.tden n / max 1 (s.tnum n)
/-- Ticks of the nominal frame period. -/
def State.tperiod (s : State) (n : Nat) : Nat := 250000000 * s.tden n / max 1 (s.tnum n)

/-- FRAME_BYTES under a mask (R367). -/
def State.frameBytes (s : State) (n mask : Nat) : Nat := popCount mask (s.tslots n) * s.tcont n
/-- RING_BYTES and the ring's base (R366). -/
def State.ringBytes (s : State) (n : Nat) : Nat := 2 ^ s.fld (pTDM n) Off.tdm_RING_SIZE 0 5
def State.ringBase (s : State) (n : Nat) : Nat := s.reg64 (pTDM n) Off.tdm_RING_LO Off.tdm_RING_HI
/-- SWC_ADDR and HW_COUNT. -/
def State.swcAddr (s : State) (n : Nat) : Nat := s.reg64 (pTDM n) Off.tdm_SWC_ADDR_LO Off.tdm_SWC_ADDR_HI
def State.hwCount (s : State) (n : Nat) : Nat := (s.reg (pTDM n) Off.tdm_HW_COUNT).toNat

/-- A port's configuration keeps R354, R358 and *Rings and counters* beside its lead's. -/
def State.tportOk (s : State) (lead n : Nat) : Bool :=
  let w := s.tslotW n
  decide (0 < w) && decide (s.tcfg n 17 5 + s.tdataW n ≤ w) &&
    decide (s.tslots n * w * s.tnum lead ≤ 49152000 * s.tden lead) &&
    decide (s.tslots n * w = s.tslots lead * s.tslotW lead) &&
    decide (10 ≤ s.fld (pTDM n) Off.tdm_RING_SIZE 0 5) && decide (s.fld (pTDM n) Off.tdm_RING_SIZE 0 5 ≤ 24) &&
    decide (s.ringBase n % 64 = 0) && decide (s.swcAddr n % 4 = 0)

/-- A set's configuration is valid (R365). -/
def State.tsetOk (s : State) (lead : Nat) (ports : List Nat) : Bool :=
  decide (0 < s.tden lead) && decide (8000 * s.tden lead ≤ s.tnum lead) && decide (s.tnum lead ≤ 192000 * s.tden lead) &&
    ports.all fun n => s.tportOk lead n

/-! ## Periods -/

/-- PERIOD_FRAMES of a port. -/
def State.periodFrames (s : State) (n : Nat) : Nat := s.fld (pTDM n) Off.tdm_PERIOD 0 16

/-- TIME_FS of frame `k`, where it is known (R375). -/
def State.frameTime (s : State) (n k : Nat) : Option Nat :=
  let lead := s.tlead n
  let t := s.tset lead
  if s.tcfg lead 6 1 = 0 then
    let full := t.k0 + (k + 2 ^ 32 - t.k0 % 2 ^ 32) % 2 ^ 32
    some (s.tk lead full)
  else if t.k % 2 ^ 32 = k ∧ t.st = 2 then some t.fst
  else none

/-- Open the period of frame `k` when it starts one. -/
def State.periodOpen (s : State) (n k : Nat) : State :=
  let p := s.tport n
  if s.periodFrames n = 0 || p.per.isSome then s
  else s.modTport n fun x => { x with per := some { frame := k, count := x.lpos, time := s.frameTime n k } }

/-- Mark FLAGS bit `b` in a port's open period; the first UNDERRUN or DISCARDED of a period produces PG_EVT_OUT0. -/
def State.periodFlag (s : State) (n b : Nat) : State :=
  let p := s.tport n
  let told := match p.per with
    | some q => q.told
    | none => false
  let first := (b == 0 || b == 2) && !told
  let s1 := s.modTport n fun x => { x with per := x.per.map fun q => { q with flags := Nat.lor q.flags (2 ^ b), told := q.told || first } }
  if first then s1.produce (pTDM n) 0 else s1

/-- A frame of the open period is over; at PERIOD_FRAMES the period waits for its post. -/
def State.periodDone (s : State) (n mask : Nat) : State :=
  s.modTport n fun x =>
    match x.per with
    | none => x
    | some q =>
      let q1 := { q with n := q.n + 1, mask := mask }
      if s.periodFrames n ≤ q1.n then { x with per := none, posts := x.posts ++ [q1] } else { x with per := some q1 }

/-- TDM_PERIOD_POST (R375): port `n`'s oldest finished period. -/
def execTdmPeriodPost (n : Nat) (s : State) : Step :=
  match (s.tport n).posts with
  | [] => .next s
  | q :: rest =>
    let s1 := s.modTport n fun x => { x with posts := rest }
    if !s.alive (pTDM n) then .next s1
    else
      let t := match q.time with
        | some t => (t, s1)
        | none => ((s1.drawWord).1.toNat + 2 ^ 32 * ((s1.drawWord).2.drawWord).1.toNat, ((s1.drawWord).2.drawWord).2)
      let d := [wd q.frame, wd q.count, wd t.1, wd (t.1 / 2 ^ 32), wd q.flags, wd q.mask, wd (q.n % 65536 + n * 65536), 0]
      let que := s.fld (pTDM n) Off.tdm_PERIOD_Q 0 20
      if s.qValid que ∧ (s.qView que).full then .next (t.2.raise (pTDM n) 14)
      else
        let ev := s.reg (pTDM n) Off.tdm_EVT
        .next ((t.2.push (pTDM n) que d).produceOn (pTDM n) (wfld ev 0 8) (bitAt ev 8))

/-! ## Software counter -/

/-- A software counter that R370 refuses. -/
def State.swRefused (s : State) (n v : Nat) : Bool :=
  if s.ttx n then decide ((s.ringBytes n : Int) < signed 32 ((v + 2 ^ 32 - s.hwCount n) % 2 ^ 32))
  else
    let d := signed 32 ((s.hwCount n + 2 ^ 32 - v) % 2 ^ 32)
    decide (d < 0) || decide ((s.ringBytes n : Int) < d)

/-- SW_COUNT_WRITE (R370). -/
def execSwCountWrite (m : Master) (n : Nat) (v : Word) (s : State) : Step :=
  .next (s.regWrite m (pTDM n) Off.tdm_SW_COUNT fun t =>
    if t.swRefused n v.toNat then t.raise (pTDM n) 16 else t.setReg (pTDM n) Off.tdm_SW_COUNT v)

/-- A read of SWC_ADDR that is ignored (R371). -/
def State.swcIgnored (s : State) (n : Nat) : State := (s.raise (pTDM n) 17).count (pTDM n) Off.tdm_CNT_SWC 0 32 1

/-- The software counter at a check point (R366, R368, R369): SW_COUNT, or what the latest read of SWC_ADDR gave; a read that
has not been answered is ignored. -/
def State.swAtCheck (s : State) (n : Nat) : Nat × State :=
  if s.swcAddr n = 0 then ((s.reg (pTDM n) Off.tdm_SW_COUNT).toNat, s)
  else
    let p := s.tport n
    (p.sw, if p.ans then s.modTport n fun x => { x with ans := false } else s.swcIgnored n)

/-! ## Transmit -/

/-- A transmit sample's container read back as DATA_W bits (R356). -/
def sampleIn (cont dw w : Nat) : Nat := if cont = 4 then w / 2 ^ (32 - dw) else w * 2 ^ (dw - 16) % 2 ^ dw

/-- Read the enabled slots of a frame from the ring; a poison-marked sample is the slot's last one (R376). -/
def State.txRead (s : State) (n pos : Nat) (lastv : List Nat) : List Nat → List Nat × Bool × State
  | [] => ([], false, s)
  | slot :: rest =>
    let c := s.tcont n
    let r := s.busRead (s.ringBase n + pos % s.ringBytes n) c
    let s1 := if r.1.bad then r.2.count (pTDM n) Off.tdm_CNT_POISON 0 16 1 else r.2
    let v := if r.1.bad then lastv.getD slot 0 else sampleIn c (s.tdataW n) (ofLeBytes r.1.bytes)
    let t := s1.txRead n (pos + c) lastv rest
    (v :: t.1, r.1.bad || t.2.1, t.2.2)

/-- The enabled slots of a mask in ascending order. -/
def State.maskSlots (s : State) (n mask : Nat) : List Nat := (List.range (s.tslots n)).filter fun i => mask.testBit i

/-- A mask change at the first frame to which it applies (R374). -/
def State.maskChanged (s : State) (n k count : Nat) : State :=
  let s1 := (s.setReg (pTDM n) Off.tdm_MASK_FRAME (wd k)).setReg (pTDM n) Off.tdm_MASK_COUNT (wd count)
  ((s1.setReg (pTDM n) Off.tdm_FRAME_BYTES (wd (s1.frameBytes n (s1.tport n).mask))).produce (pTDM n) 2)

/-- Fetch frame `k` of a transmit port (R368, R374, R376). -/
def State.tdmFetch (s : State) (n k : Nat) : State :=
  let pend := (s.tport n).pend
  let s1 := match pend with
    | some m => (s.modTport n fun x => { x with mask := m, pend := none, lastv := [] }).maskChanged n k (s.hwCount n)
    | none => s
  let s2 := (s1.modTport n fun x => { x with lpos := s1.hwCount n, armFetch := false }).periodOpen n k
  let s3 := if pend.isSome then s2.periodFlag n 3 else s2
  let mask := (s3.tport n).mask
  let fb : Nat := s3.frameBytes n mask
  let hw : Nat := s3.hwCount n
  let lastv := (s3.tport n).lastv
  let slots := s3.maskSlots n mask
  let c := s3.swAtCheck n
  let got :=
    if (fb : Int) ≤ signed 32 ((c.1 + 2 ^ 32 - hw) % 2 ^ 32) then
      let r := c.2.txRead n hw lastv slots
      (r.1, if r.2.1 then (r.2.2.raise (pTDM n) 13).periodFlag n 6 else r.2.2)
    else
      (slots.map fun i => lastv.getD i 0,
        (((c.2.count (pTDM n) Off.tdm_CNT_UNDER 0 32 1).raise (pTDM n) 9).periodFlag n 0))
  let vals := (List.range 32).map fun i => match (slots.zip got.1).find? fun e => e.1 == i with
    | some e => e.2
    | none => lastv.getD i 0
  let s4 := got.2.setReg (pTDM n) Off.tdm_HW_COUNT (wd (hw + fb))
  (s4.modTport n fun x => { x with lastv := vals, lpos := (hw + fb) % 2 ^ 32, txq := x.txq ++ [(k, mask, vals)] }).periodDone n mask

/-- A field of FSYNC of the set that port `n` belongs to (R355, R358). -/
def State.tfs (s : State) (n lo w : Nat) : Nat := s.fld (pTDM (s.tlead n)) Off.tdm_FSYNC lo w

/-- The bit clocks of a slot of `w` that carries the `dw` bits of `v`, most significant first, `off` bit clocks in (R353); the spec does
not say what the others carry (notes/assumptions/184.md). -/
def slotLevels (w off dw v : Nat) : List PinLevel :=
  (List.range w).map fun b =>
    if b < off || off + dw ≤ b then .unstated else if v.testBit (dw - 1 - (b - off)) then .high else .low

/-- The frame sync over a frame, one level a bit clock (R355): active for one bit clock, one slot or half the frame, FS_POL 1 low. -/
def State.syncLevels (s : State) (n : Nat) : List PinLevel :=
  let bits := s.tslots n * s.tslotW n
  let shape := s.tfs n 0 2
  let act := [1, s.tslotW n, bits / 2].getD shape 0
  (List.range bits).map fun b =>
    if shape = 3 then .unstated else if decide (b < act) != (s.tfs n 2 1 == 1) then .high else .low

/-- Bit clock and frame sync pins of port `n` over a frame: driven by a master lead and by members with CLK_OUT 1 (R359). A bit clock
begins at the launching edge, the falling one with BCLK_EDGE 0 (R355). -/
def State.clockPins (s : State) (n : Nat) : List PinLevel × List PinLevel :=
  if if s.isLead n then s.tcfg n 6 1 == 0 else s.tcfg n 7 1 == 1 then
    (s.syncLevels n, if s.tfs n 4 1 = 0 then [.low, .high] else [.high, .low])
  else ([.hiZ], [.hiZ])

/-- The data pin over a frame of a transmit port, one level a bit clock from its sync: with FS_DELAY 1 the frame before still carries its
last bit in the first one (R355). -/
def State.dataLevels (s : State) (n mask : Nat) (before : List PinLevel) (out : List (Option Nat)) : List PinLevel :=
  let w := s.tslotW n
  let slot := fun (i : Nat) => match out.getD i none with
    | none => List.replicate w .hiZ
    | some v => if mask.testBit i then slotLevels w (s.tcfg n 17 5) (s.tdataW n) v else List.replicate w .low
  (if s.tfs n 3 1 = 1 then [before.getLast?.getD .unstated] else []) ++ (List.range out.length).flatMap slot

/-- Errors of port `n`'s sample buffer in the frame that ends, as (port, slot, uncorrectable), with an injection that waits on its page: the
slots that hold 0 from now on, and the counts and marks (R376, R561). -/
def State.tdmErr (s : State) (n : Nat) (errs : List (Nat × Nat × Bool)) : List Nat × State :=
  let k := (s.pageRt (pTDM n)).inject
  let mine := (errs.filter fun e => e.1 == n).map (·.2)
  let all := if k = 0 then mine else ((s.maskSlots n (s.tport n).mask).headD 0, decide (k = 2)) :: mine
  let bad := (all.filter (·.2)).map (·.1)
  let s1 := if k = 0 then s else s.modPage (pTDM n) fun r => { r with inject := 0 }
  (bad, if bad.isEmpty then s1 else ((s1.count (pTDM n) Off.tdm_CNT_POISON 16 16 bad.length).raise (pTDM n) 13).periodFlag n 6)

/-- A transmit frame ends: what its slots carried (R356, R363, R364, R376); `done` slots went out, those of `bad` as 0. -/
def State.txEnd (s : State) (n k done : Nat) (drive : Bool) (bad : List Nat) : State :=
  s.modTport n fun x =>
    match x.txq with
    | [] => x
    | (j, mask, vals) :: rest =>
      if j ≠ k then x
      else
        let one := fun (i : Nat) =>
          if !drive then none
          else if !mask.testBit i then (if s.tcfg n 23 1 = 1 then none else some 0)
          else if i < done && !bad.contains i then some (vals.getD i 0) else some 0
        let out := (List.range (s.tslots n)).map one
        { x with txq := rest, out := out, data := s.dataLevels n mask x.data out }

/-! ## Receive -/

/-- A sample as its container's bytes (R356). -/
def sampleOut (cont dw v : Nat) : List Byte :=
  if cont = 4 then leBytes 4 (v % 2 ^ dw * 2 ^ (32 - dw)) else leBytes 2 (v % 2 ^ dw / 2 ^ (dw - 16))

/-- Write one frame or copy at HW_COUNT, wrapping at the end of the ring (R366, R369). -/
def State.rxWrite (s : State) (n mask : Nat) (vals : List Nat) : State :=
  let bs := (s.maskSlots n mask).flatMap fun i => sampleOut (s.tcont n) (s.tdataW n) (vals.getD i 0)
  let hw := s.hwCount n
  let off := hw % s.ringBytes n
  let first := s.ringBytes n - off
  let s1 := if bs.isEmpty then s else s.busWrite (pTDM n) (s.ringBase n + off) (bs.take first)
  let s2 := if (bs.drop first).isEmpty then s1 else s1.busWrite (pTDM n) (s.ringBase n) (bs.drop first)
  s2.setReg (pTDM n) Off.tdm_HW_COUNT (wd (hw + bs.length))

/-- Free space of a receive ring. -/
def State.rxFree (s : State) (n sw : Nat) : Int := (s.ringBytes n : Int) - signed 32 ((s.hwCount n + 2 ^ 32 - sw) % 2 ^ 32)

/-- Copies of the last accepted frame in the places of discarded ones (R369, rule 1). -/
def State.rxRepeat (s : State) (n sw : Nat) : List Nat → State
  | [] => s
  | m :: rest =>
    if s.rxFree n sw < (s.frameBytes n m : Int) then s
    else
      let l := (s.tport n).last
      let vals := (List.range 32).map fun i => if l.1.testBit i then l.2.getD i 0 else 0
      let s1 := (s.rxWrite n m vals).count (pTDM n) Off.tdm_CNT_REPEAT 0 32 1
      ((s1.modTport n fun x => { x with dq := rest }).periodFlag n 1).rxRepeat n sw rest

/-- Frame `k` of a receive port ends (R369, R374, R375). -/
def State.rxEnd (s : State) (n k : Nat) (vals : List Nat) : State :=
  let s0 := s.periodOpen n k
  let p := s0.tport n
  let s1 := if p.maskAt = some k then
      ((s0.modTport n fun x => { x with maskAt := none }).maskChanged n k p.lpos).periodFlag n 3
    else s0
  let c := s1.swAtCheck n
  let s2 := c.2.rxRepeat n c.1 p.dq
  let fb := s2.frameBytes n p.mask
  let s3 := if (s2.tport n).dq.isEmpty ∧ (fb : Int) ≤ s2.rxFree n c.1 then
      (s2.rxWrite n p.mask vals).modTport n fun x => { x with last := (p.mask, fit 32 0 vals) }
    else
      ((((s2.modTport n fun x => { x with dq := x.dq ++ [p.mask] }).count (pTDM n) Off.tdm_CNT_DISCARD 0 32 1).raise (pTDM n)
        10).periodFlag n 2)
  (s3.modTport n fun x => { x with lpos := (x.lpos + fb) % 2 ^ 32 }).periodDone n p.mask

/-! ## Frames of a set -/

/-- The samples that port `n` captures from its data pin: `lv` gives the pin at every bit clock from the frame's sync, bit 0 at the rising
and bit 1 at the falling edge (R353, R355). -/
def State.tdmCapture (s : State) (n : Nat) (lv : List Nat) : List Nat :=
  let first := fun (i : Nat) => s.tfs n 3 1 + i * s.tslotW n + s.tcfg n 17 5
  (List.range 32).map fun i =>
    (List.range (s.tdataW n)).foldl (fun v j => 2 * v + ((lv.getD (first i + j) 0).testBit (s.tfs n 4 1)).toNat) 0

/-- The frame in progress ends on every port of the set: `done` slots completed; `rx` gives what the data pins brought and `errs` the errors
of the sample buffers. -/
def State.tdmEnd (s : State) (lead done : Nat) (drive : Bool) (rx : List (Nat × List Nat)) (errs : List (Nat × Nat × Bool)) : State :=
  let k := (s.tset lead).k % 2 ^ 32
  (s.tset lead).act.foldl (fun t n =>
    let e := t.tdmErr n errs
    if t.ttx n then e.2.txEnd n k done drive e.1
    else
      let v := if drive then t.tdmCapture n (((rx.find? fun e => e.1 == n).map (·.2)).getD []) else []
      e.2.rxEnd n k ((List.range 32).map fun i => if i < done && !e.1.contains i then v.getD i 0 else 0)) s

/-- A mask commit at the sync of frame `k` (R372, R374). -/
def State.tdmCommit (s : State) (n k : Nat) : State :=
  if !s.commitReady (pTDM n) then s
  else
    let m := (s.shadowOf (pTDM n) Off.tdm_SLOT_MASK).toNat
    if 2 ^ s.tslots n ≤ m then s.commitRefused (pTDM n) 8
    else
      ((s.applyShadow (pTDM n)).commitOver (pTDM n)).modTport n fun x =>
        if s.ttx n then { x with pend := some m } else { x with mask := m, maskAt := some k }

/-- A mask commit while the set is OFF (R372). -/
def State.tdmCommitOff (s : State) (n : Nat) : State :=
  if 2 ^ s.tslots n ≤ (s.shadowOf (pTDM n) Off.tdm_SLOT_MASK).toNat then s.commitRefused (pTDM n) 8
  else (s.applyShadow (pTDM n)).commitOver (pTDM n)

/-- The sync of the set's frame: masks, marks, pins, and the next fetch of each transmit port (R368, R372, R375). -/
def State.tdmSync (s : State) (lead : Nat) : State :=
  let t := s.tset lead
  let k := t.k % 2 ^ 32
  t.act.foldl (fun u n =>
    let u1 := if (u.tport n).armFetch then u.tdmFetch n k else u
    let pins := u.clockPins n
    let u2 := u1.modTport n fun x =>
      let fill := fun (q : TdmPeriod) => if q.frame = k ∧ q.time = none then { q with time := some t.fst } else q
      { x with per := x.per.map fill, posts := x.posts.map fill, fs := pins.1, bclk := pins.2 }
    let u3 := u2.tdmCommit n k
    let u4 := if u.ttx n then u3.tdmFetch n ((k + 1) % 2 ^ 32) else u3.periodOpen n k
    if t.slew then u4.periodFlag n 7 else u4) s

/-- A port stops: a transmit port takes back what it has fetched and not sent; the last period ends short (R365, R375), and the pins of a
fenced or reset port go to high impedance (R377). -/
def State.tdmStopPort (s : State) (n : Nat) (quiet : Bool) : State :=
  let p := s.tport n
  let back := p.txq.foldl (fun b e => b + s.frameBytes n e.2.1) 0
  let s1 := s.setReg (pTDM n) Off.tdm_HW_COUNT (wd (s.hwCount n + 2 ^ 32 - back % 2 ^ 32))
  s1.modTport n fun x =>
    let q := x.per.map fun q => { q with n := q.n - p.txq.length }
    let last := match q with
      | some q => if 0 < q.n ∧ ¬ quiet then [q] else []
      | none => []
    let pin := if quiet then [PinLevel.hiZ] else []
    { ({} : TdmPort) with posts := if quiet then [] else x.posts ++ last, out := x.out, data := pin, fs := pin, bclk := pin }

/-- The set goes to OFF (R365). -/
def State.tdmOff (s : State) (lead : Nat) (quiet : Bool) : State :=
  ((s.tset lead).act.foldl (fun t n => t.tdmStopPort n quiet) s).modTset lead fun t =>
    { t with st := 0, act := [], slew := false, lost := false, stop := false }

/-- A fenced or reset port leaves its set; a lead takes the set to OFF (R365, R377). -/
def State.tdmLeave (s : State) (n : Nat) : State :=
  let lead := s.tlead n
  if lead = n then s.tdmOff n true
  else if (s.tset lead).act.contains n then
    (s.tdmStopPort n true).modTset lead fun t => { t with act := t.act.filter fun m => m != n }
  else s

/-! ## Commands -/

/-- TDM_START (R357, R358, R360, R365, R373). -/
def execTdmStart (m : Master) (n : Nat) (s : State) : Step :=
  .next (s.regWrite m (pTDM n) Off.tdm_SET_CMD fun t =>
    if !t.isLead n then t.stateWrite (pTDM n)
    else
      let ports := (t.tmembers n).filter fun p => t.alive (pTDM p)
      if (t.tset n).st ≠ 0 || !t.tsetOk n ports then t.raise (pTDM n) 8
      else
        let master := t.tcfg n 6 1 == 0
        let x : Int := ((t.tb.time : Int) + 2000 * 65536 - (t.tanchor n : Int) * 65536) * (t.tnum n : Int)
        let d := 1000000000 * 65536 * t.tden n
        let k0 := if master then (x.toNat + d - 1) / d else 0
        let t1 := ports.foldl (fun u p =>
          let keep := fun (w : Word) => wd (w.toNat % 2 ^ t.tslots p)
          let o := Off.tdm_SLOT_MASK
          let sh := keep (u.shadowOf (pTDM p) o)
          let u1 := u.setReg (pTDM p) o (keep (u.reg (pTDM p) o))
          let u2 := u1.onShadow fun h => Map.put (fun _ => none) h (rg (pTDM p) o) (if sh = u1.reg (pTDM p) o then none else some sh)
          let mask := (u2.reg (pTDM p) o).toNat
          let u3 := (u2.setReg (pTDM p) Off.tdm_HW_COUNT 0).setReg (pTDM p) Off.tdm_FRAME_BYTES (wd (u2.frameBytes p mask))
          u3.modTport p fun y => { posts := y.posts, run := true, k0 := k0 % 2 ^ 32, mask := mask, armFetch := t.ttx p }) t
        let t2 := t1.modTset n fun _ => { st := 1, k := k0, k0 := k0, act := ports }
        ports.foldl (fun u p => if u.ttx p ∧ u.swcAddr p = 0 then u.tdmFetch p (k0 % 2 ^ 32) else u) t2)

/-- TDM_STOP (R365): an ARMED set stops at once. -/
def execTdmStop (m : Master) (n : Nat) (s : State) : Step :=
  .next (s.regWrite m (pTDM n) Off.tdm_SET_CMD fun t =>
    if !t.isLead n || decide ((t.tset n).st = 0) then t.stateWrite (pTDM n)
    else if (t.tset n).st = 1 then t.tdmOff n false
    else t.modTset n fun x => { x with stop := true })

/-- TDM_STOP_NOW (R365). -/
def execTdmStopNow (m : Master) (n : Nat) (s : State) : Step :=
  .next (s.regWrite m (pTDM n) Off.tdm_SET_CMD fun t =>
    if !t.isLead n || decide ((t.tset n).st = 0) then t.stateWrite (pTDM n) else t.tdmOff n false)

/-- The set enters RUN. -/
def State.tdmRun (s : State) (n : Nat) : State := (s.modTset n fun t => { t with st := 2 }).produce (pTDM n) 3

/-- TDM_FRAME_SYNC (R360 to R362, R365): the master set's next sync is due; `rx` gives the data pins of receive
ports over the frame that ends and `errs` the errors of the sample buffers in it. -/
def execTdmFrameSync (n : Nat) (rx : List (Nat × List Nat)) (errs : List (Nat × Nat × Bool)) (s : State) : Step :=
  let t := s.tset n
  let k := if t.st = 1 then t.k0 else t.k + 1
  let lhs : Int := ((s.tb.time : Int) - (s.tanchor n : Int) * 65536 - t.err) * (s.tnum n : Int)
  if t.st = 0 || s.tcfg n 6 1 == 1 || decide (lhs < ((k * 1000000000 * 65536 * s.tden n : Nat) : Int)) then .next s
  else
    let s1 := if t.st = 1 then s.tdmRun n else s.tdmEnd n 32 true rx errs
    if t.st = 2 ∧ t.stop then .next (s1.tdmOff n false)
    else
      let slew := decide (50 * 65536 < t.err.natAbs)
      let s2 := if slew && !t.slew then s1.raise (pTDM n) 15 else s1
      let ppm := min 1000 (max 1 (s2.fld (pTDM n) Off.tdm_MC_CFG 0 10))
      let d : Int := ((65536 * 1000 * s.tden n * ppm / max 1 (s.tnum n) : Nat) : Int)
      let e := if 0 < t.err then t.err - min d t.err else t.err + min d (-t.err)
      let j := s2.drawNat
      let s3 := j.2.modTset n fun x =>
        { x with k := k, slew := slew, mcErr := Int.tdiv t.err 65536 + ((j.1 % 17 : Nat) : Int) - 8, err := e, fst := s.tk n k }
      .next (s3.tdmSync n)

/-- A mark and a count on every port of a set. -/
def State.tdmEach (s : State) (lead lo flag : Nat) (bit : Option Nat) : State :=
  (s.tset lead).act.foldl (fun t n =>
    let t1 := (t.count (pTDM n) Off.tdm_CNT_FS_ERR lo 16 1).periodFlag n flag
    match bit with
    | some b => t1.raise (pTDM n) b
    | none => t1) s

/-- The next frame of a slave set begins now. -/
def State.tdmSlaveSync (s : State) (n k : Nat) : State :=
  (s.modTset n fun x => { x with k := k, fst := s.timeNs, edge := s.now }).tdmSync n

/-- TDM_FS_EDGE (R363, R364): an edge on a slave lead's frame sync pin after `bclks` bit clocks. -/
def execTdmFsEdge (n bclks : Nat) (rx : List (Nat × List Nat)) (errs : List (Nat × Nat × Bool)) (s : State) : Step :=
  let t := s.tset n
  if t.st = 0 || s.tcfg n 6 1 == 0 || !s.alive (pTDM n) then .next s
  else if t.st = 1 then .next ((s.tdmRun n).tdmSlaveSync n 0)
  else
    let s1 :=
      if t.lost then ((s.modTset n fun x => { x with lost := false }).tdmEach n 16 5 none).tdmEnd n 0 false [] errs
      else if bclks = s.tslots n * s.tslotW n then s.tdmEnd n 32 true rx errs
      else (s.tdmEach n 0 4 (some 12)).tdmEnd n (bclks / max 1 (s.tslotW n)) true rx errs
    if t.stop then .next (s1.tdmOff n false) else .next (s1.tdmSlaveSync n (t.k + 1))

/-- TDM_FS_LOST (R364): no edge for two nominal periods, and each further frame counted at the nominal period. -/
def execTdmFsLost (n : Nat) (s : State) : Step :=
  let t := s.tset n
  let wait := if t.lost then s.tperiod n else 2 * s.tperiod n
  if t.st ≠ 2 || s.tcfg n 6 1 == 0 || decide (s.now < t.edge + wait) then .next s
  else
    let s1 := if t.lost then s else ((s.modTset n fun x => { x with lost := true }).raise (pTDM n) 11).produce (pTDM n) 1
    let s2 := (s1.tdmEach n 16 5 none).tdmEnd n 0 false [] []
    if t.stop then .next (s2.tdmOff n false) else .next (s2.tdmSlaveSync n (t.k + 1))

/-- SWC_READ_DONE (R370, R371): the port's read of SWC_ADDR is answered, perhaps with an error. -/
def execSwcReadDone (n : Nat) (err : Bool) (s : State) : Step :=
  let p := s.tport n
  if !p.run || decide (s.swcAddr n = 0) || p.ans then .next s
  else
    let r := s.busRead (s.swcAddr n) 4
    let s1 :=
      if err || r.1.bad then (r.2.swcIgnored n).modTport n fun x => { x with ans := true }
      else
        let v := ofLeBytes r.1.bytes
        if r.2.swRefused n v then (r.2.raise (pTDM n) 16).modTport n fun x => { x with ans := true }
        else r.2.modTport n fun x => { x with ans := true, sw := v }
    .next (if p.armFetch then s1.tdmFetch n p.k0 else s1)

/-! ## Views -/

/-- The registers of a TDM page that show the set, and the lead-only fields on a member (R358). -/
def State.viewAudio (s : State) (p o : Nat) : Option Word :=
  if pageKind p ≠ .tdm then none
  else
    let n := p - pTDM 0
    let t := if s.isLead (s.tlead n) then s.tset (s.tlead n) else {}
    if !s.isLead n && [Off.tdm_FSYNC, Off.tdm_RATE, Off.tdm_ANCHOR_LO, Off.tdm_ANCHOR_HI, Off.tdm_MC_CFG].contains o then some 0
    else if o = Off.tdm_MC_ERR then some (wd (unsigned 32 t.mcErr))
    else if o = Off.tdm_SET_STAT then some (wd (t.st + t.slew.toNat * 4 + t.lost.toNat * 8))
    else if o = Off.tdm_FRAME then some (wd t.k)
    else if o = Off.tdm_FS_TIME_LO then some (wd t.fst)
    else if o = Off.tdm_FS_TIME_HI then some (wd (t.fst / 2 ^ 32))
    else if o = Off.tdm_START_FRAME then some (wd t.k0)
    else none

end Sys2Proof.Machine
end

