-- ==== Sys2Proof/Machine/Storage.lean ====
section
/-!
DEFINITION. Root ports and SSDs (R412 to R415), namespaces and their media (R416 to R419), the write buffer with its dirty
bitmap and deferred errors (R420 to R425), formats and sanitises (R440 to R442), and recording sessions (R426 to R430).
-/

namespace Sys2Proof.Machine

open Sys2Proof

/-! ## Namespaces and media -/

/-- Namespace `k`. -/
def State.ns (s : State) (k : Nat) : Namespace := Map.get (fun _ => {}) s.stor.ns k

/-- Update namespace `k`. -/
def State.modNs (s : State) (k : Nat) (f : Namespace → Namespace) : State :=
  s.onStor fun x => { x with ns := Map.put (fun _ => {}) x.ns k (f (Map.get (fun _ => {}) x.ns k)) }

/-- The progress record of namespace `k`. -/
def State.prog (s : State) (k : Nat) : Option Progress := Map.get (fun _ => none) s.stor.prog k

/-- Set or remove the progress record of namespace `k`. -/
def State.setProg (s : State) (k : Nat) (p : Option Progress) : State :=
  s.onStor fun x => { x with prog := Map.put (fun _ => none) x.prog k p }

/-- Blocks per stripe (R416). -/
def Namespace.sb (n : Namespace) : Nat := 16 * 2 ^ wfld (wordAt n.desc 0) 4 4

/-- MIRROR. -/
def Namespace.mirror (n : Namespace) : Bool := bitAt (wordAt n.desc 0) 3

/-- SIZE in blocks. -/
def Namespace.size (n : Namespace) : Nat := dwordAt n.desc 1

/-- BASE in 4 KiB units. -/
def Namespace.base (n : Namespace) : Nat := dwordAt n.desc 3

/-- The SSDs of the mask, ascending. -/
def Namespace.ssds (n : Namespace) : List Nat := (List.range 8).filter fun i => bitAt (wordAt n.desc 0) (8 + i)

/-- The SSDs of copy `c` (R417). -/
def Namespace.copy (n : Namespace) (c : Nat) : List Nat :=
  if !n.mirror then n.ssds
  else if c = 0 then n.ssds.take (n.ssds.length / 2) else n.ssds.drop (n.ssds.length / 2)

/-- The copies that have lost nothing. -/
def Namespace.live (n : Namespace) : List Nat :=
  (List.range (if n.mirror then 2 else 1)).filter fun c => !n.lost.contains c

/-- NS_STAT's state: 0 DISABLED, 1 READY, 2 DEGRADED, 3 FORMATTING, 4 SANITISING, 5 OFFLINE (R417, R440). -/
def State.nsState (s : State) (k : Nat) : Nat :=
  let n := s.ns k
  if !n.en then 0
  else if n.live.isEmpty then 5
  else match s.prog k with
    | some p => if p.sanitise then 4 else 3
    | none => if n.lost.isEmpty then 1 else 2

/-- The namespace's own blocks below `x` that lie at place `i` of a copy (R416). -/
def Namespace.before (n : Namespace) (i x : Nat) : Nat :=
  let m := (n.copy 0).length
  let st := x / n.sb
  (st / m + if i < st % m then 1 else 0) * n.sb + if i = st % m then x % n.sb else 0

/-- Place and 4 KiB unit of block `b` (R416). -/
def Namespace.place (n : Namespace) (b : Nat) : Nat × Nat :=
  let m := (n.copy 0).length
  let st := b / n.sb
  (st % m, n.base + st / m * n.sb + b % n.sb)

/-- The 4,096 bytes of a unit of an SSD's media (R419). -/
def mediaBlock : List Extent → Nat → Nat → List Byte
  | [], dev, u => (List.range 4096).map (Config.mediaByte dev u)
  | e :: es, dev, u =>
    if e.dev = dev ∧ e.first ≤ u ∧ u < e.first + e.count then
      match e.data with
      | .bytes bs => fit 4096 0 (bs.drop (4096 * (u - e.first)))
      | .pattern w => wordsBytes (List.replicate 1024 w)
    else mediaBlock es dev u

/-- The bytes of block `b` that an operation on its namespace writes. -/
def StorOp.block (o : StorOp) (b : Nat) : List Byte :=
  match o.data with
  | .bytes bs => fit 4096 0 (bs.drop (4096 * (b - o.lba)))
  | .pattern w => wordsBytes (List.replicate 1024 w)

/-- What an operation writes at place `i`: the content of that place's range, in order. -/
def StorOp.content (o : StorOp) (n : Namespace) (i : Nat) : MediaData :=
  match o.data with
  | .pattern w => .pattern w
  | .bytes _ => .bytes (((List.range o.count).filter fun x => (n.place (o.lba + x)).1 == i).flatMap fun x => o.block (o.lba + x))

/-- An operation by number. -/
def State.op (s : State) (id : Nat) : Option StorOp := s.stor.ops.find? fun o => o.id == id

/-- Update an operation. -/
def State.modOp (s : State) (id : Nat) (f : StorOp → StorOp) : State :=
  s.onStor fun x => { x with ops := x.ops.map fun o => if o.id = id then f o else o }

/-- Places of an operation whose command failed on every copy that could serve it (R417, R423). -/
def StorOp.badPlaces (o : StorOp) : List Nat :=
  ((o.failed.map (·.2)).eraseDups).filter fun i => o.copies.all fun c => o.failed.contains (c, i)

/-- The first block and the number of blocks from the first to the last that lie at a bad place (R425). -/
def StorOp.badRange (o : StorOp) (n : Namespace) : Nat × Nat :=
  let bad := ((List.range o.count).map (o.lba + ·)).filter fun b => o.badPlaces.contains (n.place b).1
  match bad with
  | [] => (o.lba, 0)
  | b :: rest => (b, rest.getLastD b + 1 - b)

/-! ## SSDs -/

/-- SSD_STAT.STATE (*SSD states*). -/
def State.ssdState (s : State) (k : Nat) : Nat := s.fld (pNVMH k) Off.nvmh_SSD_STAT 0 3

/-- What the model keeps of an SSD. -/
def State.ssd (s : State) (k : Nat) : Ssd := Map.get (fun _ => {}) s.stor.ssd k

/-- Update it. -/
def State.modSsd (s : State) (k : Nat) (f : Ssd → Ssd) : State :=
  s.onStor fun x => { x with ssd := Map.put (fun _ => {}) x.ssd k (f (Map.get (fun _ => {}) x.ssd k)) }

/-- A change of an SSD's state: PG_EVT_OUT0; RECOVERY and OFFLINE with their faults, and OFFLINE with PG_EVT_OUT1 (R415). -/
def State.setSsd (s : State) (k st : Nat) : State :=
  if s.ssdState k = st then s
  else
    let p := pNVMH k
    let s1 := (s.setFld p Off.nvmh_SSD_STAT 0 3 st).produce p 0
    if st = 3 then (s1.count p Off.nvmh_CNT_RESET 0 16 1).raise p 11
    else if st = 4 then (s1.raise p 12).produce p 1
    else s1

/-- Do two NVMe commands touch a unit in common, one of them writing it? -/
def NvmeCmd.meets (a b : NvmeCmd) : Bool :=
  a.dev == b.dev && decide (a.first < b.first + b.count) && decide (b.first < a.first + a.count) && (a.kind != 0 || b.kind != 0)

/-- Issue every command that can be issued (R413, R420): its SSD is READY, its queue pairs have room, and no earlier command that
is not complete touches the same units with one of the two writing. -/
def State.issueList (s : State) : List NvmeCmd → List NvmeCmd → List NvmeCmd
  | acc, [] => acc
  | acc, c :: rest =>
    let p := pNVMH c.dev
    let room := decide ((acc.filter fun a => a.dev == c.dev && a.at_.isSome).length < 256 * s.fld p Off.nvmh_SSD_STAT 5 5)
    let go := c.at_ = none && s.alive p && decide (s.ssdState c.dev = 2) && room && !(acc.any fun a => a.meets c)
    s.issueList (acc ++ [if go then { c with at_ := some s.now, fua := c.kind == 1 && s.bit p Off.nvmh_SSD_STAT 3 } else c]) rest

/-- Issue what can be issued. -/
def State.nvmeIssue (s : State) : State := s.onStor fun x => { x with cmds := s.issueList [] x.cmds }

/-- Queue the NVMe commands of an operation for copy `c`, at the places that satisfy `pick`. -/
def State.opCmds (s : State) (o : StorOp) (c : Nat) (pick : Nat → Bool) : State :=
  let n := s.ns o.nsid
  ((n.copy c).zipIdx.filter fun e => pick e.2).foldl (fun t e =>
    let a := n.before e.2 o.lba
    let k := n.before e.2 (o.lba + o.count) - a
    if k = 0 then t
    else t.onStor fun x =>
      { x with cmds := x.cmds ++ [{ id := x.next, dev := e.1, copy := c, idx := e.2, kind := o.kind, first := n.base + a, count := k, op := o.id }], next := x.next + 1 }) s

/-- Queue an operation's commands (R417): a read on its first copy, a write or trim on every copy. -/
def State.opIssue (s : State) (o : StorOp) : State :=
  (o.copies.take (if o.kind = 0 then 1 else o.copies.length)).foldl (fun t c => t.opCmds o c fun _ => true) s

/-! ## Dirty regions and deferred errors -/

/-- Dirty region at bit `b` of the bitmap area. -/
def State.dirtyAt (s : State) (b : Nat) : DirtyRegion := Map.get (fun _ => {}) s.stor.dirty b

/-- The Cocoon request that writes the bitmap word of bit `b` (R421, R522). -/
def State.dirtyWord (s : State) (b : Nat) : State :=
  let w := b / 64
  let v := (List.range 64).foldl (fun a i => if (s.dirtyAt (64 * w + i)).set_ then a + 2 ^ i else a) 0
  s.cocoonPut { rank := 2, off := 0x20000 + 8 * w, type := 0, payload := leBytes 8 v }

/-- Change the dirty region at bit `b`, with the Cocoon word where the bit itself changes. -/
def State.modDirty (s : State) (b : Nat) (f : DirtyRegion → DirtyRegion) : State :=
  let s1 := s.onStor fun x => { x with dirty := Map.put (fun _ => {}) x.dirty b (f (Map.get (fun _ => {}) x.dirty b)) }
  if (s1.dirtyAt b).set_ = (s.dirtyAt b).set_ then s1 else s1.dirtyWord b

/-- The bits of the regions of 16,384 blocks that a range touches (R421). -/
def Namespace.bits (n : Namespace) (lba count : Nat) : List Nat :=
  if count = 0 then []
  else (List.range ((lba + count - 1) / 16384 + 1 - lba / 16384)).map fun i => n.bitmap + lba / 16384 + i

/-- Is the Cocoon word of bit `b` still to be written? -/
def State.dirtyPending (s : State) (b : Nat) : Bool :=
  s.dep.cocoon.any fun r => r.rank == 2 && r.off == 0x20000 + 8 * (b / 64)

/-- One entry of the log as 32 bytes (*Deferred-error log entry*). -/
def DeferEntry.encode (e : DeferEntry) : List Byte :=
  leBytes 4 e.seq ++ leBytes 1 e.nsid ++ leBytes 1 e.cause ++ leBytes 2 0 ++ leBytes 8 e.first ++ leBytes 4 e.count ++
    leBytes 4 0 ++ leBytes 8 e.time

/-- The 4,096 bytes of GET_LOG 1 (R433): the entries, oldest first, and the overflow summaries. -/
def State.logBytes (s : State) : List Byte :=
  fit 2048 0 (s.stor.log.flatMap DeferEntry.encode) ++
    (List.range 64).flatMap (fun i => match Map.get (fun _ => none) s.stor.sums (i + 1) with
      | some m => leBytes 8 m.low ++ leBytes 8 m.high ++ leBytes 4 m.lost ++ leBytes 4 0
      | none => List.replicate 24 0) ++ List.replicate 512 0

/-- Commit the DEFER_LOG record (R423): the bytes of GET_LOG 1 up to the summaries' end, then the read marks. -/
def State.logCommit (s : State) : State :=
  let marks := s.stor.log.zipIdx.foldl (fun a e => if e.1.read then a + 2 ^ e.2 else a) 0
  s.cocoonPut { rank := 4, off := 0x90000, type := 0x6101, payload := s.logBytes.take 3584 ++ leBytes 8 marks }

/-- Merge a displaced entry into its namespace's summary (R425). -/
def State.logMerge (s : State) (e : DeferEntry) : State :=
  let old := Map.get (fun _ => none) s.stor.sums e.nsid
  let hi := e.first + e.count - 1
  let new := match old with
    | some m => ⟨min m.low e.first, max m.high hi, m.lost + 1⟩
    | none => ⟨e.first, hi, 1⟩
  (s.onStor fun x => { x with sums := Map.put (fun _ => none) x.sums e.nsid (some new) }).raise pCTI 17

/-- Record a deferred error (R423, R425): cause 1 MEDIA, 2 POWER_LOSS, 3 SSD_OFFLINE. -/
def State.deferError (s : State) (k cause first count : Nat) : State :=
  let seq := if (s.stor.logSeq + 1) % 2 ^ 32 = 0 then 1 else (s.stor.logSeq + 1) % 2 ^ 32
  let s1 := match s.stor.log with
    | e :: rest =>
      if s.stor.log.length < 64 then s
      else
        let t := if e.read then s else s.logMerge e
        t.onStor fun x => { x with log := rest }
    | [] => s
  let e : DeferEntry := { seq := seq, nsid := k, cause := cause, first := first, count := count, time := s.timeNs }
  let s2 := ((s1.onStor fun x => { x with log := x.log ++ [e], logSeq := seq }).modNs k fun n => { n with defer := true }).logCommit
  let s3 := ((s2.silk 0x6101 pCTI k (first % 2 ^ 32) seq).raise pCTI 11).produce pCTI 0
  let s4 := s3.count pCTI Off.cti_CNT_DEFER 0 16 1
  if cause = 2 then s4.count pCTI Off.cti_CNT_DEFER 16 16 1 else s4

/-! ## The write buffer -/

/-- Bytes of the write buffer in use. -/
def State.bufUsed (s : State) : Nat := (s.stor.ops.filter fun o => o.buf == 2).foldl (fun a o => a + 4096 * o.count) 0

/-- Bytes of the write buffer (BUF_SIZE). -/
def State.bufBytes (s : State) : Nat := s.fld pCTI Off.cti_BUF_SIZE 0 13 * 2 ^ 20

/-- May a waiting operation enter the write buffer (R421, R422, R531)? -/
def State.bufRoom (s : State) (o : StorOp) : Bool :=
  decide (s.bufUsed + 4096 * o.count ≤ s.bufBytes) &&
    (!s.dep.pfw || ((s.ns o.nsid).bits o.lba o.count).all fun b => (s.dirtyAt b).set_)

/-- Put an operation into the write buffer: its dirty bits are set and its media writes are issued (R421). -/
def State.bufEnter (s : State) (o : StorOp) : State :=
  let s1 := s.modOp o.id fun x => { x with buf := 2 }
  let s2 := ((s.ns o.nsid).bits o.lba o.count).foldl (fun t b => t.modDirty b fun r => { r with set_ := true }) s1
  s2.opIssue o

/-- Operations that wait for room enter in order while there is room (R422). -/
def State.bufAdmit (s : State) : List StorOp → State
  | [] => s
  | o :: rest => if s.bufRoom o then (s.bufEnter o).bufAdmit rest else s

/-! ## Completions -/

/-- A queue of the CTI. -/
def State.ctiQ (s : State) (q : Nat) : Option CtiQueue := Map.get (fun _ => none) s.stor.queue q

/-- Update a queue that exists. -/
def State.modQ (s : State) (q : Nat) (f : CtiQueue → CtiQueue) : State :=
  match s.ctiQ q with
  | some c => s.onStor fun x => { x with queue := Map.put (fun _ => none) x.queue q (some (f c)) }
  | none => s

/-- NSID that a command names, 0 where its opcode takes none (*CTI opcodes*). -/
def cmdNs (ws : Words) : Nat :=
  let op := wfld (wordAt ws 0) 0 8
  if op ∈ [1, 2, 3, 4, 0x85, 0x86] ∨ (op = 0x80 ∧ (wordAt ws 9).toNat = 1) then (wordAt ws 1).toNat else 0

/-- Hand a completion to queue `q` with its counts; a FAILED queue posts nothing (R433). -/
def State.ctiPost (s : State) (q : Nat) (c : CtiPost) : State :=
  let s1 := s.count pCTI Off.cti_CNT_CMD 0 32 1
  let s2 := match c.status with
    | 6 => s1.count pCTI Off.cti_CNT_CONFLICT 0 16 1
    | 5 => s1.count pCTI Off.cti_CNT_CONFLICT 16 16 1
    | 8 => s1.count pCTI Off.cti_CNT_ABORT 0 16 1
    | 9 => s1.count pCTI Off.cti_CNT_ABORT 16 16 1
    | _ => s1
  s2.modQ q fun x => if x.failed then x else { x with posts := x.posts ++ [c] }

/-- The (queue, tag) that an ABORT names. -/
def cmdAbort (ws : Words) : Option (Nat × Nat) :=
  if wfld (wordAt ws 0) 0 8 = 0x83 then some (wfld (wordAt ws 9) 0 8, wfld (wordAt ws 9) 8 5) else none

/-- A fetched command by tag. -/
def State.ctiCmd (s : State) (q tag : Nat) : Option CtiCmd := (s.ctiQ q).bind fun x => x.cmds.find? fun c => c.tag == tag

/-- Update a fetched command. -/
def State.modCmd (s : State) (q tag : Nat) (f : CtiCmd → CtiCmd) : State :=
  s.modQ q fun x => { x with cmds := x.cmds.map fun c => if c.tag = tag then f c else c }

/-- Complete a fetched command with a status and a result. -/
def State.ctiDone (s : State) (q tag status result : Nat) (degraded : Bool) : State :=
  match s.ctiCmd q tag with
  | none => s
  | some c =>
    (s.modQ q fun x => { x with cmds := x.cmds.filter fun e => e.tag != tag }).ctiPost q
      { tag := tag, result := result, status := status, degraded := degraded, nsid := cmdNs c.ws, abortOf := cmdAbort c.ws }

/-- The host buffer of a command as (address, length) pieces (*Command*). -/
def CtiCmd.buffer (c : CtiCmd) : List (Nat × Nat) :=
  if bitAt (wordAt c.ws 0) 17 then c.segs.map fun e => (e.1, e.2.1) else [(dwordAt c.ws 6, (wordAt c.ws 8).toNat)]

/-- Store bytes in host memory. -/
def State.hostWrite (s : State) (a : Nat) : List Byte → State
  | [] => s
  | b :: bs => (s.onStor fun x => { x with host := Map.ins x.host a b }).hostWrite (a + 1) bs

/-- Spread bytes over a host buffer. -/
def State.hostScatter (s : State) : List (Nat × Nat) → List Byte → State
  | [], _ => s
  | (a, n) :: rest, bs => (s.hostWrite a (bs.take n)).hostScatter rest (bs.drop n)

/-- Write data to the host buffer of a command. -/
def State.hostPut (s : State) (c : CtiCmd) (bs : List Byte) : State := s.hostScatter c.buffer bs

/-- A block as a read returns it (R419, R421): the newest buffered write of it that has not reached media, else the media. -/
def State.readBlock (s : State) (o : StorOp) (b : Nat) : List Byte :=
  let n := s.ns o.nsid
  match s.stor.ops.reverse.find? fun w => w.buf == 2 && w.nsid == o.nsid && decide (w.lba ≤ b) && decide (b < w.lba + w.count) with
  | some w => w.block b
  | none =>
    let pl := n.place b
    let c := (o.copies.find? fun c => !o.failed.contains (c, pl.1)).getD 0
    mediaBlock s.stor.media ((n.copy c).getD pl.1 0) pl.2

/-- What a recording session keeps. -/
def State.sess (s : State) (c : Nat) : RecSess := Map.get (fun _ => {}) s.stor.rec_ c

/-- Update it. -/
def State.modSess (s : State) (c : Nat) (f : RecSess → RecSess) : State :=
  s.onStor fun x => { x with rec_ := Map.put (fun _ => {}) x.rec_ c (f (Map.get (fun _ => {}) x.rec_ c)) }

/-- An operation is acknowledged (R420, R421): its command completes, or its recording items learn it. -/
def State.opAck (s : State) (o : StorOp) (status : Nat) : State :=
  let s1 := s.modOp o.id fun x => { x with acked := true }
  match o.owner with
  | .cti q tag =>
    match s1.ctiCmd q tag with
    | none => s1
    | some c =>
      let s2 := if o.kind = 0 ∧ status = 0 then s1.hostPut c ((List.range o.count).flatMap fun x => s1.readBlock o (o.lba + x)) else s1
      s2.ctiDone q tag status (if status = 0 then o.count else 0) o.degraded
  | .recData c seq =>
    s1.modSess c fun x => { x with items := x.items.map fun i => if i.seq = seq then { i with dataOk := true } else i }
  | .recIndex c lo hi =>
    s1.modSess c fun x =>
      { x with items := x.items.map fun i => if lo ≤ i.seq ∧ i.seq ≤ hi then { i with idxOk := true } else i }
  | .part => s1

/-- Acknowledge the buffered operations whose dirty bits are in Cocoon (R421). -/
def State.bufAcks (s : State) : State :=
  (s.stor.ops.filter fun o => o.buf == 2 && !o.acked).foldl (fun t o =>
    if ((t.ns o.nsid).bits o.lba o.count).any t.dirtyPending then t else t.opAck o 0) s

/-- Change something that may change the state of namespace `k`: PG_EVT_OUT3 on a change of it. -/
def State.nsChange (s : State) (k : Nat) (f : State → State) : State :=
  let t := f s
  if t.nsState k = s.nsState k then t else t.produce pCTI 3

/-- Copy `c` of namespace `k` is lost (R417). -/
def State.nsLose (s : State) (k c : Nat) : State :=
  if !(s.ns k).en || (s.ns k).lost.contains c then s
  else
    let t := s.nsChange k fun u => u.modNs k fun n => { n with lost := n.lost ++ [c] }
    let t1 := if (s.ns k).mirror && !(t.ns k).live.isEmpty then t.raise pCTI 16 else t
    if (t1.ns k).live.isEmpty then
      match t1.prog k with
      | some p => t1.setProg k (some { p with running := false })
      | none => t1
    else t1

/-! ## Format and sanitise -/

/-- The segments (first block, blocks, word) of part `i` (R440, R441). -/
def Progress.part (p : Progress) (size i : Nat) : List (Nat × Nat × Word) :=
  let total := p.passes * size
  let lo := i * (total / 256)
  let hi := if i = 255 then total else lo + total / 256
  (List.range p.passes).filterMap fun j =>
    let a := max lo (j * size)
    let b := min hi ((j + 1) * size)
    if a < b then some (a - j * size, b - a, if !p.sanitise then 0 else if j + 1 = p.passes then p.pattern else ~~~p.pattern)
    else none

/-- Write the next segment of the present part, or find the part on media. -/
def State.partNext (s : State) (k : Nat) : State :=
  match s.prog k with
  | none => s
  | some p =>
    match p.segs with
    | [] => s.setProg k (some { p with partDone := true })
    | (f, n, w) :: _ =>
      let o : StorOp := { id := s.stor.next, owner := .part, kind := if p.sanitise || p.secure then 1 else 2, nsid := k,
                          lba := f, count := n, data := .pattern w, copies := (s.ns k).live }
      (s.onStor fun x => { x with ops := x.ops ++ [o], next := x.next + 1 }).opIssue o

/-- Start part `done` of the work (R441). -/
def State.partStart (s : State) (k : Nat) : State :=
  match s.prog k with
  | none => s
  | some p => (s.setProg k (some { p with running := true, partDone := false, segs := p.part (s.ns k).size p.done })).partNext k

/-- The PROGRESS record of namespace `k` (R440): operation, SECURE, passes, parts committed, pattern. -/
def State.progCommit (s : State) (k : Nat) : State :=
  s.cocoonPut { rank := 4, off := 0x91000 + 0x100 * (k - 1), type := 0x6140 + k, payload := match s.prog k with
    | some p => leBytes 1 (p.sanitise.toNat + 2 * p.secure.toNat) ++ leBytes 1 p.passes ++ leBytes 2 p.done ++ leBytes 4 p.pattern.toNat
    | none => [] }

/-! ## The end of an operation -/

/-- Is operation `id` still served by an NVMe command? -/
def State.opBusy (s : State) (id : Nat) : Bool := s.stor.cmds.any fun c => c.op == id

/-- An operation with no command left ends (R417, R420, R423). -/
def State.opEnd (s : State) (o : StorOp) : State :=
  let n := s.ns o.nsid
  let bad := !o.badPlaces.isEmpty || o.copies.isEmpty
  let s1 := s.onStor fun x => { x with ops := x.ops.filter fun y => y.id != o.id }
  let s2 := if o.kind = 0 then s1
    else (o.failed.filter fun e => !o.badPlaces.contains e.2).foldl (fun t e => t.nsLose o.nsid e.1) s1
  let s3 := if o.buf = 2 then
      (n.bits o.lba o.count).foldl (fun t b => t.modDirty b fun r => { r with last := t.now }) s2 else s2
  match o.owner with
  | .part =>
    match s3.prog o.nsid with
    | some p => if !p.running then s3 else if bad then s3.partNext o.nsid
      else (s3.setProg o.nsid (some { p with segs := p.segs.drop 1 })).partNext o.nsid
    | none => s3
  | .cti _ _ =>
    if o.acked then (if bad then s3.deferError o.nsid (if o.offline then 3 else 1) (o.badRange n).1 (o.badRange n).2 else s3)
    else s3.opAck o (if bad then 11 else 0)
  | _ =>
    let s4 := if bad then s3.deferError o.nsid (if o.offline then 3 else 1) (o.badRange n).1 (o.badRange n).2 else s3
    if o.acked then s4 else s4.opAck o 0

/-- DISABLE of namespace `k` completes once nothing that names it is outstanding (R418). -/
def State.nsSettle (s : State) (k : Nat) : State :=
  let out := s.stor.ops.any (fun o => o.nsid == k) || s.stor.queue.any fun e => match e.2 with
    | some q => q.cmds.any fun c => cmdNs c.ws == k
    | none => false
  if (s.ns k).disabling && !out then
    (s.nsChange k fun t => t.modNs k fun n => { n with en := false, disabling := false, desc := wput n.desc 0 (setBit (wordAt n.desc 0) 0 false) }).putBit
      pCTI Off.cti_NS_CMD_STAT 0 false
  else s

/-- A queue that is being deleted goes once its commands and completions are gone (R431, R432), and completes its
DELETE_QUEUE. -/
def State.qSettle (s : State) (q : Nat) : State :=
  match s.ctiQ q with
  | none => s
  | some x =>
    if x.deleting && x.cmds.isEmpty && x.posts.isEmpty then
      let s1 := s.onStor fun y => { y with queue := Map.put (fun _ => none) y.queue q none }
      match (s1.ctiQ 0).bind fun a => a.cmds.find? fun c => c.begun && wfld (wordAt c.ws 0) 0 8 == 0x82 && wfld (wordAt c.ws 9) 0 8 == q with
      | some c => s1.ctiDone 0 c.tag 0 0 false
      | none => s1
    else s

/-- What follows any change of the storage complex: operations without commands end, waiting writes enter the buffer,
commands issue, buffered writes are acknowledged, and deletions and disables settle. -/
def State.storRun (s : State) : Nat → State
  | 0 => s
  | f + 1 =>
    let s1 := match s.stor.ops.find? fun o => (o.buf != 1) && !s.opBusy o.id with
      | some o => (s.opEnd o).storRun f
      | none => s
    let s2 := s1.bufAdmit (s1.stor.ops.filter fun o => o.buf == 1)
    s2.nvmeIssue.bufAcks

/-- The storage complex after a change. -/
def State.storAfter (s : State) : State :=
  let s1 := s.storRun (2 * s.stor.ops.length + 2)
  let s2 := (List.range 256).foldl (fun t i => t.qSettle (255 - i)) s1
  let s3 := (List.range 64).foldl (fun t i => t.nsSettle (i + 1)) s2
  if s3.stor.closing && s3.stor.queue.isEmpty then s3.onStor fun x => { x with closing := false, state := 0 } else s3

/-- Begin an operation (R417, R420 to R422): a write of a BUFFER-mode namespace that the buffer can hold goes through it unless
it asks for MEDIA rules. -/
def State.opStart (s : State) (owner : StorOwner) (kind k lba count : Nat) (data : MediaData) (fua : Bool) : State :=
  let n := s.ns k
  let buf := kind == 1 && bitAt (wordAt n.desc 0) 2 && !fua && decide (0 < s.bufBytes) && decide (4096 * count ≤ s.bufBytes)
  let o : StorOp := { id := s.stor.next, owner := owner, kind := kind, nsid := k, lba := lba, count := count, data := data,
                      copies := n.live, buf := if buf then 1 else 0, degraded := n.mirror && !n.lost.isEmpty }
  let s1 := s.onStor fun x => { x with ops := x.ops ++ [o], next := x.next + 1 }
  if buf then s1 else s1.opIssue o

/-! ## NVMe commands -/

/-- Remove an NVMe command. -/
def State.nvmeDrop (s : State) (id : Nat) : State := s.onStor fun x => { x with cmds := x.cmds.filter fun c => c.id != id }

/-- A command succeeded: a write or trim reaches the media of its SSD (R419). -/
def State.nvmeApply (s : State) (c : NvmeCmd) : State :=
  if c.kind = 0 then s
  else match s.op c.op with
    | none => s
    | some o => s.onStor fun x => { x with media := ⟨c.dev, c.first, c.count, o.content (s.ns o.nsid) c.idx⟩ :: x.media }

/-- A failed write leaves each block as before or as written, and the spec does not say which (R419). -/
def State.nvmeTear (s : State) (c : NvmeCmd) : State :=
  if c.kind = 0 then s
  else match s.op c.op with
    | none => s
    | some o =>
      let data := o.content (s.ns o.nsid) c.idx
      (List.range c.count).foldl (fun t i =>
        let r := t.drawNat
        if r.1 % 2 = 0 then r.2
        else r.2.onStor fun x => { x with media := ⟨c.dev, c.first + i, 1, match data with
          | .bytes bs => .bytes (bs.drop (4096 * i) |>.take 4096)
          | .pattern w => .pattern w⟩ :: x.media }) s

/-- A command failed for good (R415, R417): a read is tried on the other copy where one is left. -/
def State.nvmeFail (s : State) (c : NvmeCmd) (offline : Bool) : State :=
  let s1 := ((s.nvmeTear c).nvmeDrop c.id).modOp c.op fun o => { o with failed := o.failed ++ [(c.copy, c.idx)], offline := o.offline || offline }
  match s1.op c.op with
  | none => s1
  | some o =>
    if o.kind ≠ 0 then s1
    else match o.copies.find? fun x => !o.failed.contains (x, c.idx) with
      | some x => (s1.modOp o.id fun y => { y with degraded := true }).opCmds o x fun i => i == c.idx
      | none => s1

/-- An SSD goes OFFLINE (R415, R417): every command outstanding on it fails and its namespaces lose their copy. -/
def State.ssdOffline (s : State) (k : Nat) : State :=
  let s1 := s.setSsd k 4
  let s2 := (List.range 64).foldl (fun t i =>
    let n := t.ns (i + 1)
    (List.range 2).foldl (fun u c => if (n.copy c).contains k && (n.mirror || c == 0) then u.nsLose (i + 1) c else u) t) s1
  ((s2.stor.cmds.filter fun c => c.dev == k).foldl (fun t c => t.nvmeFail c true) s2).storAfter

/-- An SSD goes to RECOVERY (R415): its commands wait to be reissued. -/
def State.ssdRecovery (s : State) (k : Nat) : State :=
  (s.setSsd k 3).onStor fun x =>
    { x with cmds := x.cmds.map fun c => if c.dev = k then { c with at_ := none, abort := none } else c }

/-- Interrupted operations restart while the CTI is RESUMING, and RESUMING ends when none is left (R442). -/
def State.ctiResume (s : State) : State :=
  if s.stor.state ≠ 1 then s
  else
    let s1 := (List.range 64).foldl (fun t i =>
      let k := i + 1
      match t.prog k with
      | none => t
      | some p =>
        let n := t.ns k
        if p.running || !n.en || n.live.isEmpty then t
        else if n.live.all fun c => (n.copy c).all fun d => t.ssdState d == 2 then t.partStart k else t) s
    let left := (List.range 64).any fun i => match s1.prog (i + 1) with
      | some p => !p.running && s1.nsState (i + 1) != 5
      | none => false
    if left then s1 else s1.onStor fun x => { x with state := 2 }

/-- A write of NVMH CFG (R413, R415): EN set takes an OFF SSD to INIT; EN cleared shuts the SSD down to OFF. -/
def State.nvmhCfg (s : State) (m : Master) (k : Nat) (v : Word) : State :=
  let p := pNVMH k
  s.regWrite m p Off.nvmh_CFG fun t =>
    let u := t.storeFields p Off.nvmh_CFG (t.ssdState k = 0) v
    let en := u.bit p Off.nvmh_CFG 0
    if en && !t.bit p Off.nvmh_CFG 0 then (u.modSsd k fun x => { x with tries := 0, badLanes := 0 }).setSsd k 1
    else if !en && t.bit p Off.nvmh_CFG 0 then
      let w := (u.setSsd k 0).onStor fun x =>
        { x with cmds := x.cmds.map fun c => if c.dev = k then { c with at_ := none, abort := none } else c }
      w.setReg p Off.nvmh_LINK (wd 12)
    else u

/-- NVMH_ENABLE (R413): setting CFG.EN trains the link and brings up the SSD. -/
def execNvmhEnable (m : Master) (k : Nat) (v : Word) (s : State) : Step := .next (s.nvmhCfg m k v)

/-- NVMH_DISABLE (R415): clearing CFG.EN shuts the SSD down to OFF. -/
def execNvmhDisable (m : Master) (k : Nat) (v : Word) (s : State) : Step := .next (s.nvmhCfg m k v)

/-- SSD_INIT_DONE (R413, R415): initialisation ends READY (result 0) with the link's speed and width, VWC, LBA format, granted
queue pairs and capacity, UNSUPPORTED (1), or in a failed attempt, of which the second takes the SSD OFFLINE. -/
def execSsdInitDone (k result speed width : Nat) (rev vwc lba4k : Bool) (queues cap : Nat) (s : State) : Step :=
  let p := pNVMH k
  if !s.alive p || !(s.ssdState k == 1 || s.ssdState k == 3) then .next s
  else
    let s1 := s.setSsd k 1
    match result with
    | 0 =>
      let sp := min speed (s.fld p Off.nvmh_CFG 1 2)
      let wi := min width (s.fld p Off.nvmh_CFG 3 2)
      let s2 := s1.setReg p Off.nvmh_LINK (wd (sp + wi * 4 + 16 + rev.toNat * 32 + (s.ssd k).badLanes * 64))
      let s3 := s2.setReg p Off.nvmh_SSD_STAT (wd (1 + vwc.toNat * 8 + lba4k.toNat * 16 + min 16 queues * 32))
      let s4 := (s3.setReg64 p Off.nvmh_CAP_LO (Off.nvmh_CAP_LO + 4) cap).modSsd k fun x => { x with tries := 0 }
      .next ((s4.setSsd k 2).ctiResume).storAfter
    | 1 => .next ((s1.setSsd k 5).raise p 13)
    | _ =>
      let s2 := s1.modSsd k fun x => { x with tries := x.tries + 1 }
      if 2 ≤ (s2.ssd k).tries then .next (s2.ssdOffline k) else .next s2

/-- NVME_COMPLETION (R415, R419, R423): command `id` of root port `k` completes with success (0), a media status (1, retried once)
or another failure (2, an aborted command among them), with the PCIe errors seen since the last one; `id` 0 is the health
page with its temperature, read every 10 s. -/
def execNvmeCompletion (k id status cor uncor temp : Nat) (s : State) : Step :=
  let p := pNVMH k
  if !s.alive p then .next s
  else
    let s1 := ((s.count p Off.nvmh_CNT_PCIE 0 16 cor).count p Off.nvmh_CNT_PCIE 16 16 uncor).memRead p 15
    if id = 0 then
      if s.ssdState k = 2 && dueAgain (s.ssd k).healthAt 2500000000 s.now then
        .next (((s1.modSsd k fun x => { x with healthAt := some s.now }).setFld p Off.nvmh_TEMP 0 16 temp).count p Off.nvmh_CNT_CMD 0 32 1)
      else .next s1
    else match s.stor.cmds.find? fun c => c.id == id && c.dev == k && c.at_.isSome with
      | none => .next s1
      | some c =>
        let s2 := s1.count p Off.nvmh_CNT_CMD 0 32 1
        match status with
        | 0 => .next ((s2.nvmeApply c).nvmeDrop id).storAfter
        | 1 =>
          if c.retried then .next (((s2.count p Off.nvmh_CNT_ERR 0 16 1).raise p 14).nvmeFail c false).storAfter
          else .next (s2.onStor fun x =>
            { x with cmds := x.cmds.map fun e => if e.id = id then { e with retried := true, at_ := some s.now, abort := none } else e })
        | _ => .next (s2.nvmeFail c false).storAfter

/-- NVME_CMD_TIMEOUT (R415): a command outstanding longer than CMD_TO ms is aborted. -/
def execNvmeCmdTimeout (k id : Nat) (s : State) : Step :=
  let p := pNVMH k
  match s.stor.cmds.find? fun c => c.id == id && c.dev == k && c.abort == none with
  | none => .next s
  | some c =>
    match c.at_ with
    | none => .next s
    | some t =>
      if !s.alive p || s.now ≤ t + s.fld p Off.nvmh_CMD_TO 0 16 * 250000 then .next s
      else
        let s1 := s.onStor fun x => { x with cmds := x.cmds.map fun e => if e.id = id then { e with abort := some s.now } else e }
        .next ((s1.count p Off.nvmh_CNT_ERR 16 16 1).raise p 10)

/-- NVME_ABORT_TIMEOUT (R415): an Abort that does not complete within a further CMD_TO takes the SSD to RECOVERY. -/
def execNvmeAbortTimeout (k id : Nat) (s : State) : Step :=
  let p := pNVMH k
  match s.stor.cmds.find? fun c => c.id == id && c.dev == k with
  | none => .next s
  | some c =>
    match c.abort with
    | none => .next s
    | some t =>
      if !s.alive p || s.ssdState k ≠ 2 || s.now ≤ t + s.fld p Off.nvmh_CMD_TO 0 16 * 250000 then .next s
      else .next (s.ssdRecovery k)

/-- CSTS_CFS (R415): the SSD's controller fatal status takes it to RECOVERY. -/
def execCstsCfs (k : Nat) (s : State) : Step :=
  if s.alive (pNVMH k) && s.ssdState k == 2 then .next (s.ssdRecovery k) else .next s

/-- The widest link that excludes the failed lanes, at most ×4 (R414): width code and reversal, or `none`. -/
def linkWidth (bad : Nat) : Option (Nat × Bool) :=
  let ok := fun l => !bad.testBit l
  if ok 0 && ok 1 && ok 2 && ok 3 then some (2, false)
  else if ok 0 && ok 1 then some (1, false)
  else if ok 2 && ok 3 then some (1, true)
  else if ok 0 then some (0, false)
  else if ok 3 then some (0, true)
  else none

/-- The widest link of the endpoint's 16 lanes, from either end, that excludes the failed lanes (R45); 0: none. -/
def endpointWidth (bad : Nat) : Nat :=
  let fits := fun w => (List.range w).all (fun i => !bad.testBit i) || (List.range w).all (fun i => !bad.testBit (15 - i))
  ([16, 8, 4, 2, 1].find? fits).getD 0

/-- Lane `l`'s failure count in the LANE record (R514). -/
def State.laneFailed (s : State) (l : Nat) : State :=
  s.onDep fun d =>
    let o := Map.get (fun _ => 0) d.lane l
    { d with lane := Map.put (fun _ => 0) d.lane l (o - o % 4 + min 3 (o % 4 + 1)) }

/-- PCIE_LANE_FAIL (R45, R414, R514): root port `k`'s link retrains at the widest width that excludes the failed lane, its commands
are reissued, and the LANE record is written; with no width the SSD goes to RECOVERY. `k` = 8 is the endpoint, whose link retrains
in the same way on its 16 lanes. -/
def execPcieLaneFail (k lane : Nat) (s : State) : Step :=
  let p := pNVMH k
  if k = 8 then
    if !s.mainOn || 16 ≤ lane then .next s
    else .next (s.onPlat fun t =>
      let bad := Nat.lor t.epBad (2 ^ lane)
      { t with epBad := bad, epWidth := min t.epWidth (endpointWidth bad) })
  else if !s.alive p || !s.bit p Off.nvmh_LINK 4 || 4 ≤ lane then .next s
  else
    let bad := if (s.ssd k).badLanes.testBit lane then (s.ssd k).badLanes else (s.ssd k).badLanes + 2 ^ lane
    let s1 := ((s.modSsd k fun x => { x with badLanes := bad }).setFld p Off.nvmh_LINK 6 4 bad).laneFailed (6 * k + 18 + lane)
    match linkWidth bad with
    | some (w, rev) =>
      let w' := min w (s.fld p Off.nvmh_LINK 2 2)
      let s2 := (s1.setFld p Off.nvmh_LINK 2 2 w').putBit p Off.nvmh_LINK 5 rev
      let s3 := (s2.count p Off.nvmh_CNT_RESET 16 16 1).raise p 9
      let s4 := s3.onStor fun x => { x with cmds := x.cmds.map fun c => if c.dev = k ∧ c.at_.isSome then { c with at_ := some s.now } else c }
      .next (s4.cocoonPut s4.laneRecord)
    | none =>
      let s2 := (((s1.setFld p Off.nvmh_LINK 2 2 3).putBit p Off.nvmh_LINK 4 false).raise p 8).cocoonPut s1.laneRecord
      if s2.ssdState k = 2 then .next (s2.ssdRecovery k) else .next s2

/-! ## Namespace commands -/

/-- NSID that NS_SEL selects. -/
def State.nsSel (s : State) : Nat := s.fld pCTI Off.cti_NS_SEL 0 7

/-- A namespace command, which shows BUSY for 32 ns (R443). -/
def State.nsCmd (s : State) (m : Master) (eff : State → State) : State :=
  s.regWrite m pCTI Off.cti_NS_CMD fun t => eff (t.cmdStart pCTI Off.cti_NS_CMD_STAT 8)

/-- A recording-session command, which shows BUSY for 32 ns (R443). -/
def State.recCmd (s : State) (m : Master) (eff : State → State) : State :=
  s.regWrite m pCTI Off.cti_REC_CMD fun t => eff (t.cmdStart pCTI Off.cti_REC_CMD_STAT 8)

/-- NS_LOAD (R416): the staging words take the descriptor of the selected namespace. -/
def execNsLoad (m : Master) (s : State) : Step :=
  .next (s.nsCmd m fun t => t.setRegs32 pCTI Off.cti_NS_D0 (fit 8 0 (t.ns t.nsSel).desc))

/-- The lowest bit of the bitmap area at which `n` bits are free, in whole words of 64 bits (R421). -/
def State.bitmapFit (s : State) (k n : Nat) : Option Nat :=
  let used := (s.stor.ns.filter fun e => e.2.en && e.1 != k).map fun e => (e.2.bitmap, (e.2.size + 16383) / 16384)
  let starts := 0 :: used.map fun u => (u.1 + u.2 + 63) / 64 * 64
  let good := starts.filter fun a => decide (a + n ≤ 448 * 1024 * 8) && !(used.any fun u => decide (a < u.1 + u.2) && decide (u.1 < a + n))
  good.foldl (fun b a => match b with
    | none => some a
    | some x => some (min x a)) none

/-- The reason a STORE of a descriptor is rejected for, 0 for none (R418). -/
def State.nsReason (s : State) (k : Nat) (n : Namespace) : Nat :=
  let ends := fun (d : Namespace) (x : Nat) =>
    match d.ssds.findIdx? (· == x) with
    | some i => d.base + d.before (if d.mirror && d.ssds.length / 2 ≤ i then i - d.ssds.length / 2 else i) d.size
    | none => 0
  if 6 < wfld (wordAt n.desc 0) 4 4 ∨ n.ssds.isEmpty ∨ (n.mirror ∧ n.ssds.length % 2 = 1) then 1
  else if n.size = 0 ∨ n.ssds.any (fun d => s.ssdState d == 2 && decide (s.reg64 (pNVMH d) Off.nvmh_CAP_LO (Off.nvmh_CAP_LO + 4) < ends n d)) then 2
  else if s.stor.ns.any (fun e => e.2.en && e.1 != k && n.ssds.any fun d => e.2.ssds.contains d && decide (n.base < ends e.2 d) && decide (e.2.base < ends n d)) then 3
  else if (s.bitmapFit k ((n.size + 16383) / 16384)).isNone then 4
  else 0

/-- NS_STORE (R416, R418): a STORE with EN 1 enables the selected namespace, or is rejected with a reason. -/
def execNsStore (m : Master) (s : State) : Step :=
  .next (s.nsCmd m fun t =>
    let k := t.nsSel
    let ws := t.regs32 pCTI Off.cti_NS_D0 8
    let n : Namespace := { desc := ws }
    if k = 0 ∨ 64 < k ∨ (t.ns k).en then t.stateWrite pCTI
    else if !bitAt (wordAt ws 0) 0 then (t.setReg pCTI Off.cti_NS_CMD_STAT 0).modNs k fun x => { x with desc := ws }
    else
      let r := t.nsReason k n
      if r ≠ 0 then
        let u := (t.setReg pCTI Off.cti_NS_CMD_STAT (wd (2 + r * 16))).raise pCTI 8
        if r = 4 then u.raise pCTI 14 else u
      else
        let u := (t.setReg pCTI Off.cti_NS_CMD_STAT 0).nsChange k fun v => v.modNs k fun _ =>
          { desc := ws, en := true, bitmap := (t.bitmapFit k ((n.size + 16383) / 16384)).getD 0 }
        let lost := (List.range 2).filter fun c => (n.mirror || c == 0) && (n.copy c).any fun d => t.ssdState d == 4
        (lost.foldl (fun v c => v.nsLose k c) u).ctiResume.storAfter)

/-- Is a recording session enabled on namespace `k`? -/
def State.nsRecording (s : State) (k : Nat) : Bool :=
  s.qm.scxKind.any fun e => e.2 == 6 && wfld (wordAt (s.scx e.1) 0) 1 7 == k

/-- NS_DISABLE (R418): completes when the namespace's outstanding commands have; discarded while a session or a format or
sanitise uses it. -/
def execNsDisable (m : Master) (s : State) : Step :=
  .next (s.nsCmd m fun t =>
    let k := t.nsSel
    if !(t.ns k).en || t.nsRecording k || (t.prog k).isSome then t.stateWrite pCTI
    else ((t.setReg pCTI Off.cti_NS_CMD_STAT 1).modNs k fun n => { n with disabling := true }).storAfter)

/-- DIRTY_CLEAN_TIMEOUT (R421): CLEAN_MS after the last buffered write of region `r` of namespace `k` reached media, with no other
buffered write in it, its dirty bit clears. -/
def execDirtyCleanTimeout (k r : Nat) (s : State) : Step :=
  let n := s.ns k
  let b := n.bitmap + r
  let busy := s.stor.ops.any fun o => o.buf == 2 && o.nsid == k && (n.bits o.lba o.count).contains b
  let d := s.dirtyAt b
  if !s.alive pCTI || !n.en || n.size ≤ r * 16384 || !d.set_ || d.old || busy || s.now < d.last + s.fld pCTI Off.cti_CLEAN_MS 0 16 * 250000 then .next s
  else .next (s.modDirty b fun x => { x with set_ := false })

/-! ## Recording sessions -/

/-- The stream context that REC_SEL selects. -/
def State.recSel (s : State) : Nat := s.fld pCTI Off.cti_REC_SEL 0 14

/-- Data area and index area of a session in blocks: (start, length) each. -/
def recAreas (ws : Words) : (Nat × Nat) × (Nat × Nat) :=
  (((wordAt ws 3).toNat * 256, (wordAt ws 4).toNat * 256), ((wordAt ws 5).toNat * 256, (wordAt ws 6).toNat * 256))

/-- Do two areas share a block? -/
def areasMeet (a b : Nat × Nat) : Bool := decide (a.1 < b.1 + b.2) && decide (b.1 < a.1 + a.2)

/-- Recording sessions enabled. -/
def State.recSessions (s : State) : List Nat := (s.qm.scxKind.filter fun e => e.2 == 6).map (·.1)

/-- REC_SESS_LOAD (R426): the staging words take the selected session's configuration. -/
def execRecSessLoad (m : Master) (s : State) : Step :=
  .next (s.recCmd m fun t => t.setRegs32 pCTI Off.cti_REC_D0 ((t.scx t.recSel).take 8))

/-- REC_SESS_STORE (R426, R443, R458): a STORE with EN 1 enables a recording session, or is rejected. -/
def execRecSessStore (m : Master) (s : State) : Step :=
  .next (s.recCmd m fun t =>
    let c := t.recSel
    let ws := t.regs32 pCTI Off.cti_REC_D0 8
    let kind := t.scxKind c
    if kind ≠ 0 ∧ kind ≠ 6 then t.scxConflict pCTI
    else if kind = 6 then t.stateWrite pCTI
    else if !bitAt (wordAt ws 0) 0 then (t.setReg pCTI Off.cti_REC_CMD_STAT 0).scxPut c 0 ws
    else
      let k := wfld (wordAt ws 0) 1 7
      let a := recAreas ws
      let n := t.ns k
      let outside := decide (n.size < a.1.1 + a.1.2) || decide (n.size < a.2.1 + a.2.2)
      let others := (t.recSessions.filter fun o => wfld (wordAt (t.scx o) 0) 1 7 == k).any fun o =>
        let b := recAreas (t.scx o)
        areasMeet a.1 b.1 || areasMeet a.1 b.2 || areasMeet a.2 b.1 || areasMeet a.2 b.2
      let bad := !(t.nsState k == 1 || t.nsState k == 2) || outside || areasMeet a.1 a.2 || others ||
        !t.qValid (wfld (wordAt ws 1) 0 20) || !t.qValid (wfld (wordAt ws 2) 0 20) || decide (64 ≤ t.recSessions.length)
      if bad then (t.setReg pCTI Off.cti_REC_CMD_STAT 2).raise pCTI 9
      else (((t.setReg pCTI Off.cti_REC_CMD_STAT 0).scxPut c 0 ws).scxClaim c 6 pCTI 8).modSess c fun _ => {})

/-- A session leaves the enabled state (R443, R458). -/
def State.recEnd (s : State) (c : Nat) : State :=
  ((s.scxPut c 0 [setBit (wordAt (s.scx c) 0) 0 false]).scxFree c).modSess c fun _ => {}

/-- A session ends at once, with its unwritten items left in IN_Q, the oldest first (R443). -/
def State.recQuit (s : State) (c : Nat) : State :=
  let q := wfld (wordAt (s.scx c) 1) 0 20
  (((s.sess c).items.filter fun i => !(i.dataOk && i.idxOk)).reverse.foldl (fun t i => t.qUntake q i.desc) s).recEnd c

/-- A session that is stopping ends once no item is in progress (R443). -/
def State.recSettle (s : State) (c : Nat) : State :=
  if (s.sess c).stopping && (s.sess c).items.isEmpty then s.recEnd c else s

/-- REC_SESS_STOP (R443): takes effect after the item in progress has been returned. -/
def execRecSessStop (m : Master) (s : State) : Step :=
  .next (s.recCmd m fun t =>
    let c := t.recSel
    if t.scxKind c ≠ 6 then t.stateWrite pCTI
    else (t.modSess c fun x => { x with stopping := true }).recSettle c)

/-- An item as a session reads it (R427; layouts of R210 and R308): address, length, FRAME, FLAGS, and whether it carries a flag
that says it holds no data. -/
def recRead (fmt : Bool) (d : Words) : Nat × Nat × Nat × Nat × Bool :=
  if fmt then
    let f := (wordAt d 4).toNat
    (dwordAt d 0, (wordAt d 2).toNat, (wordAt d 3).toNat, f, f.testBit 7 || f.testBit 11)
  else
    let f := (wordAt d 5).toNat
    (dwordAt d 0, (wordAt d 6).toNat, (wordAt d 4).toNat, f, f.testBit 1 || f.testBit 2 || f.testBit 3)

/-- Write the index block of session `c` (R428). -/
def State.recIndexWrite (s : State) (c : Nat) : State :=
  let ws := s.scx c
  let x := s.sess c
  if x.entries.length ≤ x.covered then s
  else
    let k := wfld (wordAt ws 0) 1 7
    let lo := x.count - x.entries.length + 1
    let s1 := s.opStart (.recIndex c lo x.count) 1 k ((recAreas ws).2.1 + x.idx) 1
      (.bytes (fit 4096 0 (x.entries.flatMap wordsBytes))) false
    s1.modSess c fun y => { y with covered := y.entries.length }

/-- The index pointer moves to the next block when its block is full, and wraps or fills the area (R428, R429). -/
def State.recIndexNext (s : State) (c : Nat) : State :=
  let ws := s.scx c
  let x := s.sess c
  if x.entries.length < 128 then s
  else
    let s1 := s.recIndexWrite c
    let len := (recAreas ws).2.2
    if x.idx + 1 < len then s1.modSess c fun y => { y with idx := y.idx + 1, entries := [], covered := 0 }
    else if bitAt (wordAt ws 0) 8 then s1.modSess c fun y => { y with idx := 0, entries := [], covered := 0 }
    else (((s1.modSess c fun y => { y with entries := [], covered := 0, idx := y.idx + 1, full := true }).raise pCTI 12).produce pCTI 2)

/-- Add an item with its index entry to session `c` (R427): first data block, BYTES, FRAME, FLAGS. -/
def State.recAdd (s : State) (c : Nat) (d : Words) (lba bytes frame flags : Nat) (dataOk : Bool) : State :=
  let x := s.sess c
  let e : Words := leWords 2 lba ++ [wd bytes, wd frame] ++ leWords 2 s.timeNs ++ [wd flags, wd (x.count + 1)]
  let s1 := s.modSess c fun y =>
    { y with count := y.count + 1, entries := y.entries ++ [e],
             since := if y.entries.length = y.covered then s.now else y.since,
             items := y.items ++ [{ desc := d, seq := y.count + 1, dataOk := dataOk }] }
  s1.recIndexNext c

/-- REC_ITEM_TAKE (R427, R429): session `c` takes an item from IN_Q, writes its data and adds its index entry. -/
def execRecItemTake (c : Nat) (s : State) : Step :=
  let ws := s.scx c
  let x := s.sess c
  if !s.alive pCTI || s.scxKind c ≠ 6 || x.stopping || x.full then .next s
  else
    let k := wfld (wordAt ws 0) 1 7
    let a := (recAreas ws).1
    let q := wfld (wordAt ws 1) 0 20
    match s.take q with
    | (none, s0) => .next s0
    | (some d, s1) =>
      let r := recRead (bitAt (wordAt ws 0) 9) d
      let len := r.2.1
      let flags := r.2.2.2.1 % 65536
      let blocks := (len + 4095) / 4096
      if r.2.2.2.2 || len == 0 then .next (s1.recAdd c d 0 0 r.2.2.1 (flags + 2 ^ 18) true).storAfter
      else if a.2 < blocks then .next (s1.recAdd c d 0 len r.2.2.1 (flags + 2 ^ 17) true).storAfter
      else
        let wrap := decide (a.2 < x.data + blocks)
        if wrap && !bitAt (wordAt ws 0) 8 then
          let s2 := (s.modSess c fun y => { y with full := true }).raise pCTI 12
          .next (s2.produce pCTI 2)
        else
          let at_ := if wrap then 0 else x.data
          let rd := s1.busRead r.1 len
          let pad := rd.2.drawBytes (blocks * 4096 - len)
          let s2 := pad.2.opStart (.recData c (x.count + 1)) 1 k (a.1 + at_) blocks (.bytes (rd.1.bytes ++ pad.1)) false
          let s3 := s2.modSess c fun y => { y with data := at_ + blocks }
          .next (s3.recAdd c d (a.1 + at_) len r.2.2.1 (flags + (if wrap then 2 ^ 16 else 0)) false).storAfter

/-- INDEX_FLUSH_TIMEOUT (R428): an index block is written at most 1 ms after its first unwritten entry. -/
def execIndexFlushTimeout (c : Nat) (s : State) : Step :=
  let x := s.sess c
  if !s.alive pCTI || s.scxKind c ≠ 6 || x.entries.length ≤ x.covered || s.now < x.since + 250000 then .next s
  else .next (s.recIndexWrite c).storAfter

/-- REC_ITEM_RETURN (R428): the oldest item goes to RET_Q once its data and index are acknowledged, then ITEM_EVC is produced. -/
def execRecItemReturn (c : Nat) (s : State) : Step :=
  let ws := s.scx c
  match (s.sess c).items with
  | i :: rest =>
    if !s.alive pCTI || s.scxKind c ≠ 6 || !i.dataOk || !i.idxOk then .next s
    else
      let s1 := (s.modSess c fun x => { x with items := rest }).push pCTI (wfld (wordAt ws 2) 0 20) i.desc
      .next ((s1.produceOn pCTI (wfld (wordAt ws 7) 0 8) (bitAt (wordAt ws 7) 8)).recSettle c)
  | [] => .next s

/-- FORMAT_PART_DONE (R441): the part of namespace `k` that is on media is committed and PROGRESS advances; at 256 the record goes
and the namespace returns to READY. -/
def execFormatPartDone (k : Nat) (s : State) : Step :=
  match s.prog k with
  | none => .next s
  | some p =>
    if !s.alive pCTI || !p.running || !p.partDone then .next s
    else if 256 ≤ p.done + 1 then
      .next ((s.nsChange k fun t => t.setProg k none).progCommit k |>.produce pCTI 1).storAfter
    else .next (((s.setProg k (some { p with done := p.done + 1, partDone := false })).progCommit k).partStart k).storAfter

end Sys2Proof.Machine
end

