-- ==== Sys2Proof/Machine/Cti.lean ====
section
/-!
DEFINITION. The Clip Target Interface (R431 to R442): its host window, queues, commands, completions and aborts, and the MSI-X
vectors they raise.
-/

namespace Sys2Proof.Machine

open Sys2Proof

/-! ## MSI-X -/

/-- Send the message of an MSI-X vector, or set its pending bit while it is masked (R618). -/
def State.msixRaise (s : State) (v : Nat) : State :=
  let e := Map.get (fun _ => {}) s.plat.msix v
  if s.plat.msixEn && !e.masked then s.onPlat fun t => { t with msgs := t.msgs ++ [(e.addr, e.data)] }
  else s.onPlat fun t => { t with msix := Map.put (fun _ => {}) t.msix v { e with pending := true } }

/-! ## The window -/

/-- The window takes commands: the page runs and STATE is not FATAL (R431). -/
def State.ctiLive (s : State) : Bool := s.alive pCTI && decide (s.stor.state ≠ 3)

/-- Report every dirty region found set from before the last power loss and clear its bit (R424). -/
def State.dirtyReport (s : State) : State :=
  (List.range 64).foldl (fun t i =>
    let k := i + 1
    let n := t.ns k
    if !n.en then t
    else ((t.stor.dirty.filter fun e => e.2.set_ && e.2.old && decide (n.bitmap ≤ e.1) && decide (e.1 < n.bitmap + (n.size + 16383) / 16384)).foldl
      (fun u e =>
        let first := (e.1 - n.bitmap) * 16384
        (u.deferError k 2 first (min 16384 (n.size - first))).modDirty e.1 fun _ => {}) t)) s

/-- A write of CTI_CTRL (R431). EN set in DISABLED makes the admin queue and moves STATE to RESUMING or READY; EN cleared deletes
every queue as DELETE_QUEUE would. -/
def State.ctiEnable (s : State) : State :=
  let size := s.reg pWIN Off.ctiWin_AQ_SIZE
  let q : CtiQueue :=
    { sq := s.reg64 pWIN Off.ctiWin_AQ_SQ_LO (Off.ctiWin_AQ_SQ_LO + 4), cq := s.reg64 pWIN Off.ctiWin_AQ_CQ_LO (Off.ctiWin_AQ_CQ_LO + 4),
      sqSize := wfld size 0 12 + 1, cqSize := wfld size 16 12 + 1, vec := s.fld pWIN Off.ctiWin_AQ_VEC 0 8 }
  let s1 := s.onStor fun x => { x with queue := [(0, some q)], state := 1 }
  s1.dirtyReport.ctiResume.storAfter

/-- Mark queue `q` for deletion (R432): commands that have not begun complete with DELETED. -/
def State.qDelete (s : State) (q : Nat) : State :=
  match s.ctiQ q with
  | none => s
  | some x =>
    let s1 := s.modQ q fun y => { y with deleting := true, posts := if y.failed then [] else y.posts }
    (x.cmds.filter fun c => !c.begun).foldl (fun t c =>
      let op := wfld (wordAt c.ws 0) 0 8
      let u := if op = 0x85 ∨ op = 0x86 then t.nsChange (cmdNs c.ws) fun v => v.setProg (cmdNs c.ws) none else t
      u.ctiDone q c.tag 14 0 false) s1

/-- EN cleared: every queue goes, then STATE returns to DISABLED (R431). -/
def State.ctiDisable (s : State) : State :=
  if s.stor.state = 0 ∨ s.stor.state = 3 then s
  else
    let s1 := s.onStor fun x => { x with closing := true }
    ((s1.stor.queue.map (·.1)).foldl (fun t q => t.qDelete q) s1).storAfter

/-- A host write of CTI_CTRL. -/
def State.ctiCtrl (s : State) (v : Word) : State :=
  if !s.ctiLive then s
  else
    let s1 := s.setReg pWIN Off.ctiWin_CTI_CTRL (v &&& 1)
    if bitAt v 0 then (if s.stor.state = 0 then s1.ctiEnable else s1) else s1.ctiDisable

/-- CTI_ENABLE (R424, R431, R442). -/
def execCtiEnable (v : Word) (s : State) : Step := .next (s.ctiCtrl v)

/-- CTI_DISABLE (R431). -/
def execCtiDisable (v : Word) (s : State) : Step := .next (s.ctiCtrl v)

/-- A doorbell that breaks R433: fault bit 10, and the queue, if it exists, goes to FAILED. -/
def State.doorbellBad (s : State) (q : Nat) : State := (s.modQ q fun x => { x with failed := true }).raise pCTI 10

/-- SQ_TAIL (R433): the submission doorbell of queue `q`. -/
def execSqTail (q : Nat) (v : Word) (s : State) : Step :=
  if !s.ctiLive then .next s
  else match s.ctiQ q with
    | none => .next (s.doorbellBad q)
    | some x =>
      let t := wfld v 0 12
      if x.sqSize ≤ t then .next (s.doorbellBad q) else .next (s.modQ q fun y => { y with tail := t })

/-- CQ_HEAD (R433): the completion doorbell of queue `q`. -/
def execCqHead (q : Nat) (v : Word) (s : State) : Step :=
  if !s.ctiLive then .next s
  else match s.ctiQ q with
    | none => .next (s.doorbellBad q)
    | some x =>
      let h := wfld v 0 12
      let n := x.cqSize
      if n ≤ h ∨ (x.cqTail + n - x.cqHead) % n < (h + n - x.cqHead) % n then .next (s.doorbellBad q)
      else .next (s.modQ q fun y => { y with cqHead := h })

/-! ## Fetch -/

/-- Is tag `tag` of queue `q` in use (R434)? -/
def State.tagInUse (s : State) (q tag : Nat) : Bool :=
  (match s.ctiQ q with
   | some x => (x.cmds.any fun c => c.tag == tag) || x.posts.any fun c => c.tag == tag && !c.dup
   | none => false) ||
  (match s.ctiQ 0 with
   | some x => (x.cmds.any fun c => cmdAbort c.ws == some (q, tag)) || x.posts.any fun c => c.abortOf == some (q, tag)
   | none => false)

/-- The opcode is listed for its queue (R435). -/
def opListed (q op : Nat) : Bool := if q = 0 then decide (0x80 ≤ op) && decide (op ≤ 0x86) else decide (1 ≤ op) && decide (op ≤ 4)

/-- Bits that an opcode uses of CDW0, CDW1 and CDW2 (*CTI opcodes*). -/
def cdwUsed (op : Nat) (ws : Words) : List Nat :=
  match op with
  | 0x80 => [1, 0, 0]
  | 0x81 => [0xFFFFF, 0xFF0FFF, 0xFFFFFF]
  | 0x82 => [0xFF, 0, 0]
  | 0x83 => [0x1FFF, 0, 0]
  | 0x84 => [3, if (wordAt ws 9).toNat = 1 then 1 else 0, 0]
  | 0x85 => [1, 0, 0]
  | 0x86 => [3, 0xFFFFFFFF, 0]
  | _ => [0, 0, 0]

/-- Bytes the host buffer must hold (R433): COUNT blocks, or 4 KiB. -/
def bufNeed (ws : Words) : Nat :=
  match wfld (wordAt ws 0) 0 8 with
  | 1 | 2 => (wordAt ws 4).toNat * 4096
  | 0x80 | 0x84 => 4096
  | _ => 0

/-- A field of a command breaks a format rule (R435, INVALID_FIELD). -/
def badField (ws : Words) (segs : List (Nat × Nat × Nat)) : Bool :=
  let op := wfld (wordAt ws 0) 0 8
  let used := cdwUsed op ws
  let cdw := (List.range 7).any fun i => (wordAt ws (9 + i)) &&& ~~~(wd (used.getD i 0)) != 0
  let ns := decide (op ∈ [0x81, 0x82, 0x83, 0x84]) || (op == 0x80 && (wordAt ws 9).toNat == 0)
  let data := bufNeed ws != 0
  let sgl := bitAt (wordAt ws 0) 17
  let c : CtiCmd := { tag := 0, ws := ws, segs := segs }
  let room := (c.buffer.map (·.2)).sum
  let n := (wordAt ws 8).toNat
  wfld (wordAt ws 0) 13 3 != 0 || wfld (wordAt ws 0) 18 14 != 0 || wordAt ws 5 != 0 || cdw ||
    (ns && wordAt ws 1 != 0) ||
    (decide (op ∈ [1, 2, 4]) && (decide ((wordAt ws 4).toNat = 0) || decide (512 < (wordAt ws 4).toNat))) ||
    (data && (wfld (wordAt ws 6) 0 2 != 0 || decide (room < bufNeed ws) ||
      (sgl && (decide (n = 0) || decide (256 < n) || segs.any fun e => e.2.2 != 0)))) ||
    (op == 0x81 && (decide (wfld (wordAt ws 9) 8 12 = 0) || decide (wfld (wordAt ws 10) 0 12 = 0))) ||
    (op == 0x83 && decide (wfld (wordAt ws 9) 0 8 = 0)) ||
    (op == 0x84 && decide (wfld (wordAt ws 9) 0 2 = 0)) ||
    (op == 0x86 && decide (wfld (wordAt ws 9) 0 2 = 0))

/-- The status with which a fetched command ends for its format (R435), 0 for none. -/
def State.formatStatus (s : State) (q : Nat) (ws : Words) (segs : List (Nat × Nat × Nat)) : Nat :=
  let op := wfld (wordAt ws 0) 0 8
  let k := cmdNs ws
  let named := decide (op ∈ [1, 2, 3, 4, 0x85, 0x86]) || (op == 0x80 && (wordAt ws 9).toNat == 1)
  let n := wfld (wordAt ws 9) 0 8
  if !opListed q op then 1
  else if badField ws segs then 2
  else if named && (decide (k = 0) || decide (64 < k) || !(s.ns k).en) then 3
  else if op ∈ [1, 2, 4] ∧ (s.ns k).size < dwordAt ws 2 + (wordAt ws 4).toNat then 4
  else if op = 0x81 ∧ (n = 0 ∨ (s.ctiQ n).isSome) then 13
  else if op = 0x82 ∧ (n = 0 ∨ (s.ctiQ n).isNone) then 13
  else 0

/-- The status with which a command ends for the state it meets at fetch (R439), 0 for none. -/
def State.stateStatus (s : State) (ws : Words) : Nat :=
  let op := wfld (wordAt ws 0) 0 8
  let k := cmdNs ws
  let st := s.nsState k
  let res := s.stor.state == 1
  if op = 0x80 ∨ op = 0x81 ∨ op = 0x82 ∨ op = 0x83 ∨ op = 0x84 then 0
  else if st = 5 then 12
  else if st = 3 ∨ st = 4 then 6
  else if op = 1 ∨ op = 3 then 0
  else if res then 6
  else if op = 2 ∨ op = 4 then (if bitAt (wordAt (s.ns k).desc 0) 1 then 7 else 0)
  else if s.nsRecording k then 6
  else 0

/-- An ABORT of (q, t) is decided (R438): nothing while an earlier ABORT of the same tag has not completed; otherwise its
status, and whether the original is removed. -/
def State.abortDecide (s : State) (tag q t : Nat) : Option (Nat × Bool) :=
  let prior : Bool := match s.ctiQ 0 with
    | some x => ((x.cmds.takeWhile fun c => c.tag != tag).any fun c => cmdAbort c.ws == some (q, t)) ||
        (x.posts.any fun c => c.abortOf == some (q, t))
    | none => false
  if prior then none
  else match s.ctiCmd q t with
    | some c => if c.begun then some (9, false) else some (0, true)
    | none => some (9, false)

/-- Does the original of an ABORT still hold its tag: outstanding, or its completion not yet posted? -/
def State.abortHeld (s : State) (q t : Nat) : Bool :=
  match s.ctiQ q with
  | some x => (x.cmds.any fun c => c.tag == t) || x.posts.any fun c => c.tag == t && !c.dup
  | none => false

/-- Decide the ABORT with tag `tag` if it can be decided, and complete it once its original is gone (R438). -/
def State.abortRun (s : State) (tag : Nat) : State :=
  match s.ctiCmd 0 tag with
  | none => s
  | some c =>
    match cmdAbort c.ws with
    | none => s
    | some (q, t) =>
      let s1 := match c.abort with
        | some _ => s
        | none =>
          match s.abortDecide tag q t with
          | none => s
          | some (st, rm) =>
            let u := s.modCmd 0 tag fun x => { x with abort := some st, begun := true }
            if rm then u.ctiDone q t 8 0 false else u
      match (s1.ctiCmd 0 tag).bind (·.abort) with
      | some st => if s1.abortHeld q t then s1 else s1.ctiDone 0 tag st 0 false
      | none => s1

/-- CTI_COMMAND_FETCH (R432, R434, R435, R438, R439): the next command of queue `q`, its 16 words and its segment list as read from
the host, or a failed read of them. A DELETE_QUEUE in progress and 32 tags in use hold the fetch. -/
def execCtiCommandFetch (q : Nat) (ws : Words) (segs : List (Nat × Nat × Nat)) (err : Bool) (s : State) : Step :=
  match s.ctiQ q with
  | none => .next s
  | some x =>
    let used := ((List.range 32).filter fun t => s.tagInUse q t).length
    if !s.ctiLive || x.failed || x.deleting || x.fetch == x.tail || decide (32 ≤ used) then .next s
    else
      let tag := wfld (wordAt ws 0) 8 5
      let s1 := (s.memRead pCTI 15).modQ q fun y => { y with fetch := (y.fetch + 1) % y.sqSize }
      if s.tagInUse q tag then .next (s1.ctiPost q { tag := tag, status := 5, dup := true, nsid := cmdNs ws })
      else if err then .next ((s1.ctiPost q { tag := tag, status := 10, nsid := cmdNs ws }).raise pCTI 13)
      else
        let f := s1.formatStatus q ws segs
        let st := if f ≠ 0 then f else s1.stateStatus ws
        if st ≠ 0 then .next (s1.ctiPost q { tag := tag, status := st, nsid := cmdNs ws })
        else
          let op := wfld (wordAt ws 0) 0 8
          let k := cmdNs ws
          let wait := if op = 3 then (s1.stor.ops.filter fun o => o.acked && o.nsid == k && o.kind != 0).map (·.id) else []
          let s2 := s1.modQ q fun y => { y with cmds := y.cmds ++ [{ tag := tag, ws := ws, segs := segs, wait := wait }] }
          let s3 := if op = 0x85 then s2.nsChange k fun t => t.setProg k (some { sanitise := false, secure := bitAt (wordAt ws 9) 0 })
            else if op = 0x86 then s2.nsChange k fun t => t.setProg k (some { sanitise := true, passes := wfld (wordAt ws 9) 0 2, pattern := wordAt ws 10 })
            else if op = 0x83 then s2.abortRun tag
            else s2
          .next s3

/-! ## Commands -/

/-- Does an earlier command of the same queue hold this one back (R436)? -/
def CtiQueue.blocked (x : CtiQueue) (c : CtiCmd) : Bool :=
  let rng := fun (e : CtiCmd) => (dwordAt e.ws 2, (wordAt e.ws 4).toNat)
  let op := fun (e : CtiCmd) => wfld (wordAt e.ws 0) 0 8
  (x.cmds.takeWhile fun e => e.tag != c.tag).any fun e =>
    decide (op e ∈ [1, 2, 4]) && cmdNs e.ws == cmdNs c.ws && !(op e == 1 && op c == 1) &&
      decide ((rng e).1 < (rng c).1 + (rng c).2) && decide ((rng c).1 < (rng e).1 + (rng e).2)

/-- The fetched command (q, tag) with opcode `op`, if it has not begun and nothing holds it back. -/
def State.ctiReady (s : State) (q tag op : Nat) : Option CtiCmd :=
  match s.ctiQ q, s.ctiCmd q tag with
  | some x, some c =>
    if s.ctiLive && !c.begun && wfld (wordAt c.ws 0) 0 8 == op && (decide (4 < op) || op == 3 || !x.blocked c) then some c else none
  | _, _ => none

/-- Start the media operation of a command. -/
def State.ctiStart (s : State) (q : Nat) (c : CtiCmd) (kind : Nat) (data : MediaData) : State :=
  let s1 := s.modCmd q c.tag fun x => { x with begun := true }
  (s1.opStart (.cti q c.tag) kind (cmdNs c.ws) (dwordAt c.ws 2) (wordAt c.ws 4).toNat data (bitAt (wordAt c.ws 0) 16)).storAfter

/-- READ (R417, R419, R436). -/
def execRead (q tag : Nat) (s : State) : Step :=
  match s.ctiReady q tag 1 with
  | some c => .next (s.ctiStart q c 0 (.pattern 0))
  | none => .next s

/-- WRITE (R419 to R422, R435, R436) with the data read from the host, or a failed or poisoned read of it. -/
def execWrite (q tag : Nat) (data : List Byte) (err : Bool) (s : State) : Step :=
  match s.ctiReady q tag 2 with
  | some c =>
    if err then .next ((s.ctiDone q tag 10 0 false).raise pCTI 13).storAfter
    else .next (s.ctiStart q c 1 (.bytes (fit (4096 * (wordAt c.ws 4).toNat) 0 data)))
  | none => .next s

/-- TRIM (R419, R436). -/
def execTrim (q tag : Nat) (s : State) : Step :=
  match s.ctiReady q tag 4 with
  | some c => .next (s.ctiStart q c 2 (.pattern 0))
  | none => .next s

/-- CTI_FLUSH (R437): completes when the writes acknowledged before its fetch are on media. -/
def execCtiFlush (q tag : Nat) (s : State) : Step :=
  match s.ctiReady q tag 3 with
  | some c =>
    if s.stor.ops.any fun o => c.wait.contains o.id then .next s else .next (s.ctiDone q tag 0 0 false).storAfter
  | none => .next s

/-- IDENTIFY (R433). -/
def execIdentify (tag : Nat) (s : State) : Step :=
  match s.ctiReady 0 tag 0x80 with
  | some c =>
    let data :=
      if (wordAt c.ws 9).toNat = 0 then leBytes 4 0x00010000 ++ leBytes 2 256 ++ leBytes 1 32 ++ leBytes 1 64 ++ leBytes 4 512
      else
        let k := cmdNs c.ws
        let n := s.ns k
        leBytes 8 n.size ++ leBytes 1 (s.nsState k) ++ leBytes 1 (wfld (wordAt n.desc 0) 0 8) ++
          leBytes 2 (match s.prog k with
            | some p => p.done
            | none => 0)
    .next ((s.hostPut c (fit 4096 0 data)).ctiDone 0 tag 0 0 false).storAfter
  | none => .next s

/-- CREATE_QUEUE (R432, R435). -/
def execCreateQueue (tag : Nat) (s : State) : Step :=
  match s.ctiReady 0 tag 0x81 with
  | some c =>
    let q := wfld (wordAt c.ws 9) 0 8
    if (s.ctiQ q).isSome then .next (s.ctiDone 0 tag 13 0 false)
    else
      let x : CtiQueue :=
        { sq := dwordAt c.ws 2, cq := dwordAt c.ws 6, sqSize := wfld (wordAt c.ws 9) 8 12 + 1, cqSize := wfld (wordAt c.ws 10) 0 12 + 1,
          vec := wfld (wordAt c.ws 10) 16 8, aggCount := wfld (wordAt c.ws 11) 0 8, aggUs := wfld (wordAt c.ws 11) 8 16 }
      .next ((s.onStor fun y => { y with queue := Map.put (fun _ => none) y.queue q (some x) }).ctiDone 0 tag 0 0 false).storAfter
  | none => .next s

/-- DELETE_QUEUE (R432, R433): unstarted commands complete with DELETED; the queue goes, and the command completes, once its
commands and completions are gone. -/
def execDeleteQueue (tag : Nat) (s : State) : Step :=
  match s.ctiReady 0 tag 0x82 with
  | some c =>
    let q := wfld (wordAt c.ws 9) 0 8
    match s.ctiQ q with
    | none => .next (s.ctiDone 0 tag 13 0 false)
    | some x =>
      if x.deleting then .next (s.ctiDone 0 tag 13 0 false)
      else .next ((s.modCmd 0 tag fun y => { y with begun := true }).qDelete q).storAfter
  | none => .next s

/-- ABORT (R438): decided at fetch, or once an earlier ABORT of the same tag has completed; it completes after its original. -/
def execAbort (tag : Nat) (s : State) : Step :=
  if !s.ctiLive then .next s else .next (s.abortRun tag).storAfter

/-- GET_LOG 2 of root port `k` in 64 bytes: state, temperature and counters of its page (R433). -/
def State.healthBytes (s : State) (k : Nat) : List Byte :=
  let p := pNVMH k
  fit 64 0 (wordsBytes [wd (s.ssdState k), s.reg p Off.nvmh_TEMP, s.reg p Off.nvmh_CNT_CMD, s.reg p Off.nvmh_CNT_ERR,
    s.reg p Off.nvmh_CNT_RESET, s.reg p Off.nvmh_CNT_PCIE])

/-- The pass that part `i` of a work begins in. -/
def Progress.pass (p : Progress) (size : Nat) : Nat := if size = 0 then 0 else p.done * (p.passes * size / 256) / size

/-- GET_LOG (R425, R433): deferred errors, health or progress; with ACK the entries returned are read and the summaries clear. -/
def execGetLog (tag : Nat) (s : State) : Step :=
  match s.ctiReady 0 tag 0x84 with
  | some c =>
    let data := match wfld (wordAt c.ws 9) 0 2 with
      | 1 => s.logBytes
      | 2 => (List.range 8).flatMap s.healthBytes
      | _ => (List.range 64).flatMap fun i => match s.prog (i + 1) with
        | some p => wordsBytes [wd (i + 1), wd p.sanitise.toNat, wd (p.pass (s.ns (i + 1)).size), wd p.done]
        | none => []
    let s1 := s.hostPut c (fit 4096 0 data)
    let s2 := if wfld (wordAt c.ws 9) 0 2 = 1 ∧ bitAt (wordAt c.ws 10) 0 then
        (s1.onStor fun x => { x with log := x.log.map fun e => { e with read := true }, sums := [] }).logCommit
      else s1
    .next (s2.ctiDone 0 tag 0 0 false).storAfter
  | none => .next s

/-- FORMAT and SANITISE (R439, R440): once the commands fetched before it that name its namespace have completed, its progress
record is committed; when that is in Cocoon the work starts, the dirty bits and DEFER_PENDING clear, and it completes. -/
def State.formatRun (s : State) (tag op : Nat) : State :=
  match s.ctiCmd 0 tag with
  | none => s
  | some c =>
    let k := cmdNs c.ws
    let others := s.stor.queue.any fun e => match e.2 with
      | some x => x.cmds.any fun d => cmdNs d.ws == k && !(e.1 == 0 && d.tag == tag)
      | none => false
    if !s.ctiLive || wfld (wordAt c.ws 0) 0 8 ≠ op then s
    else if !c.begun then
      if others then s else (s.modCmd 0 tag fun x => { x with begun := true }).progCommit k
    else if s.dep.cocoon.any fun r => r.off == 0x91000 + 0x100 * (k - 1) && r.rank == 4 then s
    else
      let n := s.ns k
      let s1 := (n.bits 0 n.size).foldl (fun t b => t.modDirty b fun _ => {}) s
      let s2 := s1.modNs k fun x => { x with defer := false }
      ((s2.partStart k).ctiDone 0 tag 0 0 false).storAfter

/-- FORMAT (R440). -/
def execFormat (tag : Nat) (s : State) : Step := .next (s.formatRun tag 0x85)

/-- SANITISE (R440). -/
def execSanitise (tag : Nat) (s : State) : Step := .next (s.formatRun tag 0x86)

/-! ## Completions -/

/-- CTI_COMPLETION_POST (R423, R432 to R435): the oldest completion of queue `q` is written to its ring once that has room, with
PHASE, DEGRADED and, once for a namespace with DEFER_PENDING, DEFERRED; AGG_COUNT decides the vector. -/
def execCtiCompletionPost (q : Nat) (s : State) : Step :=
  match s.ctiQ q with
  | none => .next s
  | some x =>
    match x.posts with
    | [] => .next s
    | c :: rest =>
      if !s.ctiLive || x.failed || (x.cqTail + 1) % x.cqSize == x.cqHead then .next s
      else
        let deferred := decide (0 < c.nsid) && decide (c.nsid ≤ 64) && (s.ns c.nsid).defer
        let status := c.status + deferred.toNat * 256 + c.degraded.toNat * 512 + x.phase.toNat * 32768
        let bytes := leBytes 4 c.result ++ leBytes 2 x.fetch ++ leBytes 1 q ++ leBytes 1 (c.tag + c.dup.toNat * 32) ++
          leBytes 2 status ++ leBytes 2 0 ++ leBytes 4 (if deferred then s.stor.logSeq else 0)
        let s1 := s.hostWrite (x.cq + 16 * x.cqTail) bytes
        let s2 := if deferred then s1.modNs c.nsid fun n => { n with defer := false } else s1
        let wraps := decide (x.cqTail + 1 = x.cqSize)
        let n := x.agg + 1
        let fire := decide (x.aggCount ≤ n)
        let s3 := s2.modQ q fun y =>
          { y with posts := rest, cqTail := (y.cqTail + 1) % y.cqSize, phase := if wraps then !y.phase else y.phase,
                   agg := if fire then 0 else n, oldest := if y.agg = 0 then s.now else y.oldest }
        .next (if fire then s3.msixRaise x.vec else s3).storAfter

/-- CTI_AGG_TIMEOUT (R435): AGG_US after the oldest pending completion the vector is raised. -/
def execCtiAggTimeout (q : Nat) (s : State) : Step :=
  match s.ctiQ q with
  | none => .next s
  | some x =>
    if !s.ctiLive || x.agg == 0 || decide (s.now < x.oldest + x.aggUs * 250) then .next s
    else .next ((s.modQ q fun y => { y with agg := 0 }).msixRaise x.vec)

/-- FUNCTION_LEVEL_RESET (R620): CTI_CTRL.EN clears with the effect of R431, and the MSI-X table and the configuration space return
to their reset state. -/
def execFunctionLevelReset (s : State) : Step :=
  let s1 := (s.setReg pWIN Off.ctiWin_CTI_CTRL 0).ctiDisable
  .next (s1.onPlat fun t =>
    { t with msix := [], pcieCfg := Map.keep (fun k => k == 0 || k == 8 || k == 44) t.pcieCfg, msixEn := false })

/-! ## Fences, resets and power -/

/-- A fenced CTI (R431, R443): FATAL until SOFT_RST, and every recording session stops with its unwritten items left in IN_Q. -/
def State.ctiFenced (s : State) : State :=
  let s1 := s.onStor fun x => { x with state := 3, closing := false }
  s1.recSessions.foldl (fun t c => t.recQuit c) s1

/-- SOFT_RST or loss of power of the CTI page (R443, R602): its sessions end, and everything but media, the Cocoon records and the
SSDs' own state goes; dirty bits then set are from before. -/
def State.ctiReset (s : State) : State :=
  let s1 := s.recSessions.foldl (fun t c => t.recEnd c) s
  s1.onStor fun x => { x with ops := [], cmds := [], ns := [], state := 0, closing := false, queue := [], rec_ := [],
                              dirty := x.dirty.map fun e => (e.1, { e.2 with old := true }),
                              prog := x.prog.map fun e => (e.1, e.2.map fun p => { p with running := false, segs := [], partDone := false }) }

/-- Power returns (R424, R442, R522): the commands in flight are gone, each with its blocks old or new; every dirty bit that Cocoon
holds is from before the loss. -/
def State.storPower (s : State) : State :=
  let s1 := (s.stor.cmds.filter fun c => c.at_.isSome).foldl (fun t c => t.nvmeTear c) s
  let bits := ((s1.mem.filter fun e => decide (cocoonBase + 0x20000 ≤ e.1 % 0x400000 + cocoonBase) && decide (cocoonBase ≤ e.1) &&
      decide (e.1 < cocoonBase + 0x800000) && decide (e.1 % 0x400000 < 0x90000)).flatMap fun e =>
    ((List.range 8).filter fun i => e.2.toNat.testBit i).map fun i => (e.1 % 0x400000 - 0x20000) * 8 + i)
  s1.ctiReset.onStor fun x =>
    { x with dirty := bits.foldl (fun m b => Map.put (fun _ => {}) m b { set_ := true, old := true }) [], ssd := [] }

/-! ## Views -/

/-- Registers of the storage complex that the model computes: NS_STAT, STATE, DEFER_SEQ, BUF_USED, OUTSTANDING and the window's
CTI_STAT. -/
def State.viewStor (s : State) (p o : Nat) : Option Word :=
  match pageKind p with
  | .cti =>
    if o = Off.cti_STATE then
      let left := ((List.range 64).filter fun i => match s.prog (i + 1) with
        | some r => !r.running
        | none => false).length
      some (wd (s.stor.state + ((List.range 64).any fun i => (s.ns (i + 1)).defer).toNat * 4 + (if s.stor.state = 1 then left else 0) * 256))
    else if o = Off.cti_NS_STAT then
      let k := s.nsSel
      some (wd (s.nsState k + (s.ns k).defer.toNat * 8 + (match s.prog k with
        | some r => r.done
        | none => 0) * 256))
    else if o = Off.cti_DEFER_SEQ then some (wd s.stor.logSeq)
    else if o = Off.cti_BUF_USED then some (wd ((s.bufUsed + 2 ^ 20 - 1) / 2 ^ 20))
    else none
  | .nvmh =>
    if o = Off.nvmh_OUTSTANDING then
      some (wd ((s.stor.cmds.filter fun c => c.dev == p - 0x3D0 && c.at_.isSome).length))
    else none
  | .ctiWin => if p = pWIN ∧ o = Off.ctiWin_CTI_STAT then some (wd s.stor.state) else none
  | _ => none

end Sys2Proof.Machine
end

