-- ==== Sys2Proof/Machine/BlackBox.lean ====
section
/-!
DEFINITION. The fault aggregator (R492 to R494), the Cocoon writer (R518 to R524), Silk with its snapshots (R525 to R530), and the
power-fail warning (R531).
-/

namespace Sys2Proof.Machine

open Sys2Proof

/-! ## Fault aggregator -/

/-- FAULT_REPORT (R493, R494): the oldest report of page `p` reaches the aggregator. -/
def execFaultReport (p : Nat) (s : State) : Step :=
  match s.dep.reports.find? fun r => r.1 == p with
  | none => .next s
  | some (_, faults) =>
    let a := pFAULTAGG
    let o := Off.faultagg_PEND0 + 4 * (p / 32)
    let sev := s.severity p
    let safety := sev == 3 || (s.bit a o (p % 32) && s.dep.sev3.contains p)
    let s1 := s.onDep fun d =>
      { d with reports := d.reports.erase (p, faults), sev3 := (if safety then [p] else []) ++ d.sev3.filter (· != p) }
    let s2 := if s.bit a o (p % 32) then s1.count a Off.faultagg_CNT_REPEAT 0 32 1 else s1.putBit a o (p % 32) true
    let s3 := s2.silkOf p 0x01 faults.toNat (s.reg p Off.hdr_PG_FAULT_EN).toNat sev
    let s4 := (s3.count a Off.faultagg_CNT_REPORT 0 32 1).setReg a Off.faultagg_LAST (wd p)
    let s5 := if 1 ≤ sev then (s4.setInt a 0).produce a 0 else s4
    let s6 := if 2 ≤ sev then s5.snapTrigger 2 else s5
    .next (if sev = 3 then s6.produce a 2 else s6).fnUpdate

/-! ## Cocoon records -/

/-- First address of bank `b` of Cocoon in its read window (R518). -/
def cocoonBank (b : Nat) : Nat := cocoonBase + 0x400000 * b

/-- The record slot that starts at a bank offset: TYPE, or `none` for a firmware slot, and its size (*Cocoon areas*). -/
def slotAt (off : Nat) : Option (Option Nat × Nat) :=
  if off = 0 then some (some 0x0700, 0x1000)
  else if off = 0x1000 then some (some 0x0901, 0x400)
  else if off = 0x1400 then some (some 0x0903, 0x200)
  else if off = 0x1600 then some (some 0x0904, 0x100)
  else if off = 0x1700 then some (some 0x0301, 0x100)
  else if 0x1800 ≤ off ∧ off < 0x3800 ∧ off % 0x100 = 0 then some (some (0x0801 + (off - 0x1800) / 0x100), 0x100)
  else if off = 0x3800 then some (some 0x0902, 0x2000)
  else if off = 0x5800 then some (some 0x0101, 0x100)
  else if 0x10000 ≤ off ∧ off < 0x14000 ∧ off % 0x400 = 0 then some (some (0x1010 + (off - 0x10000) / 0x400), 0x400)
  else if 0x14000 ≤ off ∧ off < 0x16000 ∧ off % 0x200 = 0 then some (some (0x1030 + (off - 0x14000) / 0x200), 0x200)
  else if off = 0x90000 then some (some 0x6101, 0x1000)
  else if 0x91000 ≤ off ∧ off < 0x95000 ∧ off % 0x100 = 0 then some (some (0x6141 + (off - 0x91000) / 0x100), 0x100)
  else if 0x2A0000 ≤ off ∧ off < 0x3E0000 ∧ off % 64 = 0 then some (none, min (0x3E0000 - off) 0x10020)
  else none

/-- A copy as it lies in a bank: its words. -/
def State.copyWords (s : State) (b off n : Nat) : Words := bytesWords n (s.peek (cocoonBank b + off) (4 * n))

/-- SEQ of the copy in bank `b` when it is valid (R520): MAGIC, TYPE, LENGTH that fits, CRC and no poison. -/
def State.copySeq (s : State) (b off : Nat) (slot : Option Nat × Nat) : Option Nat :=
  let h := s.copyWords b off 8
  let ty := wfld (wordAt h 0) 16 16
  let len := (wordAt h 2).toNat
  let ok := match slot.1 with
    | some t => ty == t
    | none => decide (0xF000 ≤ ty)
  if wfld (wordAt h 0) 0 16 ≠ 0x5C0C || !ok || decide (slot.2 < 32 + len) || s.anyPoison (cocoonBank b + off) (32 + len) then none
  else if crc32c (s.peek (cocoonBank b + off) 28 ++ s.peek (cocoonBank b + off + 32) len) = (wordAt h 7).toNat then some (wordAt h 1).toNat
  else none

/-- The current copy of a slot (R520): bank and SEQ. -/
def State.copyCur (s : State) (off : Nat) (slot : Option Nat × Nat) : Option (Nat × Nat) :=
  match s.copySeq 0 off slot, s.copySeq 1 off slot with
  | some a, some b => if 0 < signed 32 (b + 2 ^ 32 - a) then some (1, b) else some (0, a)
  | some a, none => some (0, a)
  | none, some b => some (1, b)
  | none, none => none

/-- Payload bytes of the current copy of a hardware slot. -/
def State.copyPayload (s : State) (off : Nat) : Option (List Byte) :=
  (slotAt off).bind fun slot => (s.copyCur off slot).map fun c =>
    s.peek (cocoonBank c.1 + off + 32) (wordAt (s.copyWords c.1 off 8) 2).toNat

/-- FIND_CMD (R520). -/
def execFindCmd (m : Master) (v : Word) (s : State) : Step :=
  .next (s.regWrite m pCOCOON Off.cocoon_FIND_CMD fun t =>
    if !bitAt v 0 then t
    else
      let off := t.fld pCOCOON Off.cocoon_FIND_OFF 0 22
      let cur := (slotAt off).bind fun slot => t.copyCur off slot
      match cur with
      | none => ((t.setReg pCOCOON Off.cocoon_FIND_RES 0).setReg pCOCOON Off.cocoon_FIND_SEQ 0).setReg pCOCOON Off.cocoon_FIND_TYPE 0
      | some (b, seq) =>
        ((t.setReg pCOCOON Off.cocoon_FIND_RES (wd (b + 1))).setReg pCOCOON Off.cocoon_FIND_SEQ (wd seq)).setReg pCOCOON
          Off.cocoon_FIND_TYPE (wd (wfld (wordAt (t.copyWords b off 1) 0) 16 16)))

/-- WR_GO (R524): the writer takes a firmware record, or rejects it with a reason. -/
def execWrGo (m : Master) (v : Word) (s : State) : Step :=
  .next (s.regWrite m pCOCOON Off.cocoon_WR_GO fun t =>
    let p := pCOCOON
    if !bitAt v 0 then t
    else if t.bit p Off.cocoon_WR_STAT 0 then t.stateWrite p
    else
      let off := t.fld p Off.cocoon_WR_OFF 0 22 / 64 * 64
      let ty := t.fld p Off.cocoon_WR_TYPE 0 16
      let len := t.fld p Off.cocoon_WR_LEN 0 17
      let r := t.busRead (t.reg64 p Off.cocoon_WR_SRC_LO (Off.cocoon_WR_SRC_LO + 4) / 64 * 64) len
      let reason := if off < 0x2A0000 ∨ 0x3E0000 < off + 32 + len then 1 else if ty < 0xF000 then 2 else if 65536 < len then 3
        else if r.1.bad then 4 else 0
      if reason = 0 then
        (r.2.setReg p Off.cocoon_WR_STAT 1).cocoonPut { rank := 6, off := off, type := ty, payload := r.1.bytes, firmware := true }
      else ((if reason = 4 then r.2 else t).setReg p Off.cocoon_WR_STAT (wd (4 + reason * 16))).raise p 12)

/-- Store bytes in Cocoon, clearing the poison of the blocks they fill. -/
def State.cocoonPoke (s : State) (a : Nat) (bs : List Byte) : State :=
  ((List.range ((a + bs.length + 63) / 64 - a / 64)).foldl (fun t i => t.setPoison (64 * (a / 64 + i)) false) s).poke a bs

/-- A word of bank `b` that failed verify for good is hard (R504, R519): it moves to a remap word of its bank, or REMAP_FULL is
set on both pages. -/
def State.cocoonHard (s : State) (b word : Nat) : State :=
  let used := s.fld pCOCOON Off.cocoon_REMAP_USED (8 * b) 7
  let full := decide (64 ≤ used)
  let s1 := ((s.raise pWARDEN 11).produce pWARDEN 2).silkOf pCOCOON 0x03 b word (if full then 0xFF else used)
  let s2 := s1.count pWARDEN Off.warden_CNT 16 8 1
  if full then ((s2.raise pWARDEN 10).count pWARDEN Off.warden_CNT 24 8 1).raise pCOCOON 10
  else s2.setFld pCOCOON Off.cocoon_REMAP_USED (8 * b) 7 (used + 1)

/-- COCOON_WRITE_DONE (R519, R522, R523): the writer has written the request it serves; `bad` are words of the copy that failed
verify after three rewrites. A dirty-bitmap word goes to both banks; a record copy to the bank without the current copy. -/
def execCocoonWriteDone (bad : List Nat) (s : State) : Step :=
  let p := pCOCOON
  match cocoonNext s.dep.cocoon with
  | none => .next s
  | some r =>
    let s0 := (s.onDep fun d => { d with cocoon := d.cocoon.erase r }).cocoonBegin
    if r.rank = 2 then
      .next ((s0.cocoonPoke (cocoonBank 0 + r.off) r.payload).cocoonPoke (cocoonBank 1 + r.off) r.payload).storAfter
    else
      match slotAt r.off with
      | none => .next s0
      | some slot =>
        let cur := s.copyCur r.off slot
        let b := match cur with
          | some (0, _) => 1
          | _ => 0
        let seq := match cur with
          | some (_, q) => (q + 1) % 2 ^ 32
          | none => 1
        let room := 64 - s.fld p Off.cocoon_REMAP_USED (8 * b) 7
        let s1 := bad.foldl (fun t w => t.cocoonHard b (r.off / 8 + w)) s0
        if room < bad.length then
          let s2 := ((s1.raise p 8).produce p 0)
          let s3 := if r.firmware then s2.setReg p Off.cocoon_WR_STAT 0 else s2
          .next (if 0x0801 ≤ r.type ∧ r.type ≤ 0x0820 then s3.raise pSILK 11 else s3).storAfter
        else
          let old := match s.copySeq b r.off slot with
            | some _ => (wordAt (s.copyWords b r.off 8) 3).toNat
            | none => 0
          let wc := min (2 ^ 32 - 1) (old + 1)
          let head := leBytes 2 0x5C0C ++ leBytes 2 r.type ++ leBytes 4 seq ++ leBytes 4 r.payload.length ++ leBytes 4 wc ++
            leBytes 8 (r.begun.getD s.timeNs) ++ leBytes 4 0
          let copy := head ++ leBytes 4 (crc32c (head ++ r.payload)) ++ r.payload
          let s2 := s1.cocoonPoke (cocoonBank b + r.off) copy
          let s3 := if (s2.reg p Off.cocoon_WEAR).toNat < wc then s2.setReg p Off.cocoon_WEAR (wd wc) else s2
          let s4 := if r.firmware then (s3.setReg p Off.cocoon_WR_STAT 2).setReg p Off.cocoon_WR_SEQ (wd seq) else s3
          .next s4.storAfter

/-! ## Silk -/

/-- The 32 bytes of a Silk record (R525). -/
def SilkRec.encode (r : SilkRec) (seq : Nat) : List Byte :=
  let b := leBytes 2 r.code ++ leBytes 2 r.page ++ leBytes 4 seq ++ leBytes 8 r.time ++ leBytes 4 r.d0 ++ leBytes 4 r.d1 ++ leBytes 4 r.d2
  b ++ leBytes 4 (crc32c b)

/-- The record of the input buffer that Silk takes next: of those that came first, the lowest page (R526). -/
def silkNext : List SilkRec → Option SilkRec
  | [] => none
  | r :: rest => some ((rest.takeWhile fun x => x.time == r.time).foldl (fun b x => if x.page < b.page then x else b) r)

/-- Write a record into the ring and the mirror (R525, R526, R528). -/
def State.silkWrite (s : State) (r : SilkRec) : State :=
  let p := pSILK
  let slot := s.fld p Off.silk_HEAD 0 12
  let seq := (s.reg p Off.silk_SEQ).toNat
  let a := silkBase + 32 * slot
  let bytes := r.encode seq
  let s1 := match s.dep.silk.snap with
    | some sn =>
      let old := (seq + 2 ^ 32 - 4096) % 2 ^ 32
      if sn.firstSeq ≤ old ∧ old ≤ sn.lastSeq then
        s.onDep fun d => { d with silk := { d.silk with snap := some { sn with saved := Map.ins sn.saved slot (s.peek a 32) } } }
      else s
    | none => s
  let s2 := (s1.poke a bytes).setReg p Off.silk_HEAD (wd ((slot + 1) % 4096))
  let s3 := (s2.setReg p Off.silk_SEQ (wd (seq + 1))).onDep fun d => { d with silk := { d.silk with last := some s.now } }
  if !s.bit p Off.silk_MIRROR_CFG 8 then s3
  else
    let n := 2 ^ s.fld p Off.silk_MIRROR_CFG 0 5
    let h := (s.reg p Off.silk_MIRROR_HEAD).toNat
    (s3.busWrite p (s.reg64 p Off.silk_MIRROR_LO (Off.silk_MIRROR_LO + 4) + 32 * h) bytes).setReg p Off.silk_MIRROR_HEAD (wd ((h + 1) % n))

/-- Would the next record overwrite a ring record that the snapshot in progress has not copied (R530)? The copy of 4,096
records takes 1.024 ms. -/
def State.silkBlocked (s : State) : Bool :=
  match s.dep.silk.snap with
  | none => false
  | some sn =>
    let old := ((s.reg pSILK Off.silk_SEQ).toNat + 2 ^ 32 - 4096) % 2 ^ 32
    decide (sn.firstSeq ≤ old) && decide (old ≤ sn.lastSeq) && decide ((s.now - sn.start) * 4096 / 256000 ≤ old - sn.firstSeq)

/-- SILK_RECORD (R526, R530): at most one record every 16 ns, 4 ticks; the side buffer's oldest record is written first; a record that may not overwrite its slot yet
waits in the side buffer of 256, or is dropped when that is full. -/
def execSilkRecord (s : State) : Step :=
  let k := s.dep.silk
  if !dueAgain k.last 4 s.now then .next s
  else if !s.silkBlocked && !k.side.isEmpty then
    match k.side with
    | r :: rest => .next ((s.onDep fun d => { d with silk := { d.silk with side := rest } }).silkWrite r)
    | [] => .next s
  else
    match silkNext k.buf with
    | none => .next s
    | some r =>
      let s1 := s.onDep fun d => { d with silk := { d.silk with buf := d.silk.buf.erase r } }
      if !s.silkBlocked then .next (s1.silkWrite r)
      else if k.side.length < 256 then .next (s1.onDep fun d => { d with silk := { d.silk with side := d.silk.side ++ [r] } })
      else .next ((s1.count pSILK Off.silk_CNT 0 16 1).raise pSILK 8)

/-- SW_GO (R527): a firmware record with a code from 0xF000 to 0xF0FF, or CFG_INVALID. -/
def execSwGo (m : Master) (v : Word) (s : State) : Step :=
  .next (s.regWrite m pSILK Off.silk_SW_GO fun t =>
    let p := pSILK
    let code := t.fld p Off.silk_SW_CODE 0 16
    if !bitAt v 0 then t
    else if code < 0xF000 ∨ 0xF0FF < code then t.raise p 10
    else t.silk code p (t.reg p Off.silk_SW_DATA0).toNat (t.reg p (Off.silk_SW_DATA0 + 4)).toNat (t.reg p (Off.silk_SW_DATA0 + 8)).toNat)

/-- SNAP_CMD (R529): a snapshot at once, or after the one in progress; a further one merges with the one that waits. -/
def execSnapCmd (m : Master) (v : Word) (s : State) : Step :=
  .next (s.regWrite m pSILK Off.silk_SNAP_CMD fun t =>
    if !bitAt v 0 then t
    else if t.dep.silk.snap.isSome then
      t.onDep fun d => { d with silk := { d.silk with waiting := some (bitAt v 1 || d.silk.waiting.getD false) } }
    else t.snapStart 1 (bitAt v 1))

/-- SNAPSHOT_DONE (R529, R530, R652): the 4,096 ring records that end at the trigger's last one, oldest first, lie in their slot;
the header record is committed; a snapshot that waits starts. -/
def execSnapshotDone (s : State) : Step :=
  let p := pSILK
  match s.dep.silk.snap with
  | none => .next s
  | some sn =>
    let first := (sn.lastSeq + 1) % 4096
    let data := (List.range 4096).flatMap fun i =>
      let slot := (first + i) % 4096
      match (sn.saved.find? fun e => e.1 == slot) with
      | some e => e.2
      | none => s.peek (silkBase + 32 * slot) 32
    let a := cocoonBank (sn.slot / 16) + 0xA0000 + 0x20000 * (sn.slot % 16)
    let keepBits := s.fld p Off.silk_KEEP 0 32
    let kept := sn.keep && decide (popCount keepBits 32 < 24 ∨ keepBits.testBit sn.slot)
    let s1 := s.cocoonPoke a data
    let payload := leBytes 4 sn.trigger ++ leBytes 8 sn.time ++ leBytes 4 sn.firstSeq ++ leBytes 4 sn.lastSeq ++
      leBytes 4 (crc32c data) ++ leBytes 4 sn.keep.toNat
    let s2 := s1.cocoonPut { rank := if sn.trigger = 6 then 1 else 4, off := 0x1800 + 0x100 * sn.slot, type := 0x0801 + sn.slot, payload := payload }
    let n := s.fld p Off.silk_SNAP_STAT 16 16 + 1
    let s3 := s2.setReg p Off.silk_SNAP_STAT (wd (sn.slot * 2 + sn.trigger * 256 + n % 65536 * 65536))
    let s4 := if kept then s3.putBit p Off.silk_KEEP sn.slot true else s3
    let count := s.dep.silk.snapCount + 1
    let order := Map.put (fun _ => 0) s.dep.silk.slotOrder sn.slot count
    let s5 := (s4.onDep fun d =>
      { d with silk := { d.silk with snap := none, waiting := none, snapCount := count, slotOrder := order } }).produce p 0
    match s.dep.silk.waiting with
    | some k => .next (s5.snapStart 1 k)
    | none => .next s5

/-- POWER_FAIL_WARNING (R531, R634): the writer abandons its writes but a dirty-bitmap word already begun, and the power-fail
snapshot starts. -/
def execPowerFailWarning (s : State) : Step :=
  if s.dep.pfw || !s.power.pwrGood then .next s
  else
    let begun := match cocoonNext s.dep.cocoon with
      | some r => if r.rank = 2 then [r] else []
      | none => []
    let s1 := if s.dep.silk.snap.isSome then s.raise pCOCOON 13 else s
    let s2 := if s.bit pCOCOON Off.cocoon_WR_STAT 0 then s1.setReg pCOCOON Off.cocoon_WR_STAT 0 else s1
    let s3 := s2.onDep fun d => { d with cocoon := begun, pfw := true, silk := { d.silk with snap := none, waiting := none } }
    .next (s3.snapStart 6 false)

/-- Registers of the Cocoon page that the model computes. -/
def State.viewBlackBox (s : State) (p o : Nat) : Option Word :=
  if p = pCOCOON ∧ o = Off.cocoon_STAT then
    some (wd ((!s.dep.cocoon.isEmpty).toNat + s.dep.pfw.toNat * 2 + min 255 s.dep.cocoon.length * 256))
  else none

end Sys2Proof.Machine
end

