-- ==== Sys2Proof/Machine/Crypto.lean ====
section
/-!
DEFINITION. The image check's algorithms, from the standards that R586 names: SHA-384 (FIPS 180-4) and ECDSA verification on
curve P-384 (FIPS 186-4), and the CRC-8 of the maintenance port (R621).
-/

namespace Sys2Proof.Machine

open Sys2Proof

/-! ## SHA-384 -/

/-- The first `n` primes from `k` on. -/
def primesFrom : Nat → Nat → Nat → List Nat
  | 0, _, _ => []
  | _, 0, _ => []
  | f + 1, n + 1, k =>
    if (List.range k).all (fun d => d < 2 || decide (k % d ≠ 0)) then k :: primesFrom f n (k + 1) else primesFrom f (n + 1) (k + 1)

/-- The largest `x` below 2^`f` + `x` with `x`^`e` at most `v`, by bits. -/
def rootBits (e v : Nat) : Nat → Nat → Nat
  | 0, x => x
  | f + 1, x => if (x + 2 ^ f) ^ e ≤ v then rootBits e v f (x + 2 ^ f) else rootBits e v f x

/-- The first 64 bits of the fraction of an `e`-th root (FIPS 180-4, 4.2.3 and 5.3.4). -/
def rootFrac (e p : Nat) : Nat := rootBits e (p * 2 ^ (64 * e)) 70 0 % 2 ^ 64

/-- The 80 constants K. -/
def shaK : List Nat := (primesFrom 500 80 2).map (rootFrac 3)

/-- The initial hash value of SHA-384: roots of the ninth to sixteenth primes. -/
def shaInit : List Nat := ((primesFrom 100 16 2).drop 8).map (rootFrac 2)

/-- Rotate 64 bits right. -/
def ror64 (x n : Nat) : Nat := x / 2 ^ n + x % 2 ^ n * 2 ^ (64 - n)

/-- A big-endian number. -/
def ofBigBytes (bs : List Byte) : Nat := bs.foldl (fun a b => a * 256 + b.toNat) 0

/-- `n` bytes of a number, big-endian. -/
def bigBytes (n v : Nat) : List Byte := (leBytes n v).reverse

/-- The message schedule, newest word first. -/
def shaExpand : Nat → List Nat → List Nat
  | 0, w => w
  | n + 1, w =>
    let at_ := fun i => w.getD i 0
    let s0 := Nat.xor (Nat.xor (ror64 (at_ 14) 1) (ror64 (at_ 14) 8)) (at_ 14 / 2 ^ 7)
    let s1 := Nat.xor (Nat.xor (ror64 (at_ 1) 19) (ror64 (at_ 1) 61)) (at_ 1 / 2 ^ 6)
    shaExpand n ((at_ 15 + s0 + at_ 6 + s1) % 2 ^ 64 :: w)

/-- One round on the eight working variables. -/
def shaRound (h : List Nat) (kw : Nat) : List Nat :=
  match h with
  | [a, b, c, d, e, f, g, x] =>
    let s1 := Nat.xor (Nat.xor (ror64 e 14) (ror64 e 18)) (ror64 e 41)
    let ch := Nat.xor (Nat.land e f) (Nat.land (2 ^ 64 - 1 - e) g)
    let t1 := x + s1 + ch + kw
    let s0 := Nat.xor (Nat.xor (ror64 a 28) (ror64 a 34)) (ror64 a 39)
    let mj := Nat.xor (Nat.xor (Nat.land a b) (Nat.land a c)) (Nat.land b c)
    [(t1 + s0 + mj) % 2 ^ 64, a, b, c, (d + t1) % 2 ^ 64, e, f, g]
  | _ => h

/-- The 128-byte blocks of a padded message, at most `n`. -/
def shaBlocks (ks : List Nat) : Nat → List Nat → List Byte → List Nat
  | 0, h, _ => h
  | n + 1, h, bs =>
    if bs.isEmpty then h
    else
      let w := (List.range 16).map fun i => ofBigBytes ((bs.drop (8 * i)).take 8)
      let ws := (shaExpand 64 w.reverse).reverse
      let h' := (List.zip ks ws).foldl (fun a e => shaRound a (e.1 + e.2)) h
      shaBlocks ks n (List.zipWith (fun x y => (x + y) % 2 ^ 64) h h') (bs.drop 128)

/-- SHA-384 of a message. -/
def sha384 (bs : List Byte) : List Byte :=
  let pad := (239 - bs.length % 128) % 128
  let m := bs ++ 0x80 :: List.replicate pad 0 ++ bigBytes 16 (8 * bs.length)
  ((shaBlocks shaK (m.length / 128 + 1) shaInit m).take 6).flatMap (bigBytes 8)

/-! ## P-384 -/

def p384P : Nat := 2 ^ 384 - 2 ^ 128 - 2 ^ 96 + 2 ^ 32 - 1
def p384N : Nat := 0xffffffffffffffffffffffffffffffffffffffffffffffffc7634d81f4372ddf581a0db248b0a77aecec196accc52973
def p384B : Nat := 0xb3312fa7e23ee7e4988e056be3f82d19181d9c6efe8141120314088f5013875ac656398d8a2ed19d2a85c8edd3ec2aef
def p384Gx : Nat := 0xaa87ca22be8b05378eb1c71ef320ad746e1d3b628ba79b9859f741e082542a385502f25dbf55296c3a545e3872760ab7
def p384Gy : Nat := 0x3617de4a96262c6f5d9e98bf9292dc29f8f41dbd289a147ce9da3113b5f0b8c00a60b1ce1d7e819d7a431d7c90ea0e5f

/-- `b` to the power `e` modulo `m`; `f` bits of `e`. -/
def powMod (m : Nat) : Nat → Nat → Nat → Nat
  | 0, _, _ => 1 % m
  | f + 1, b, e => if e = 0 then 1 % m else
    let r := powMod m f (b * b % m) (e / 2)
    if e % 2 = 1 then r * b % m else r

/-- The inverse modulo a prime. -/
def invMod (m a : Nat) : Nat := powMod m 384 (a % m) (m - 2)

/-- Point addition on P-384; `none` is the point at infinity. -/
def ecAdd (u v : Option (Nat × Nat)) : Option (Nat × Nat) :=
  match u, v with
  | none, q => q
  | q, none => q
  | some (x1, y1), some (x2, y2) =>
    let p := p384P
    if x1 = x2 ∧ (y1 + y2) % p = 0 then none
    else
      let l := if x1 = x2 then (3 * x1 * x1 + (p - 3)) * invMod p (2 * y1) % p
        else (y2 + p - y1) * invMod p (x2 + p - x1) % p
      let x := (l * l + 2 * p - x1 - x2) % p
      some (x, (l * (x1 + p - x) + p - y1) % p)

/-- A multiple of a point; `f` bits of `k`. -/
def ecMul : Nat → Nat → Option (Nat × Nat) → Option (Nat × Nat)
  | 0, _, _ => none
  | f + 1, k, q =>
    if k = 0 then none
    else
      let r := ecMul f (k / 2) (ecAdd q q)
      if k % 2 = 1 then ecAdd r q else r

/-- ECDSA verification: public key X then Y, signature r then s, big-endian, over the SHA-384 of a message (R586). -/
def ecdsaOk (key sig msg : List Byte) : Bool :=
  let x := ofBigBytes (key.take 48)
  let y := ofBigBytes (key.drop 48)
  let r := ofBigBytes (sig.take 48)
  let t := ofBigBytes (sig.drop 48)
  let on := decide (x < p384P ∧ y < p384P ∧ y * y % p384P = (x * x * x + (p384P - 3) * x + p384B) % p384P)
  if !on || r == 0 || t == 0 || decide (p384N ≤ r) || decide (p384N ≤ t) then false
  else
    let z := ofBigBytes (sha384 msg)
    let w := invMod p384N t
    match ecAdd (ecMul 384 (z * w % p384N) (some (p384Gx, p384Gy))) (ecMul 384 (r * w % p384N) (some (x, y))) with
    | none => false
    | some q => q.1 % p384N == r

end Sys2Proof.Machine
end

