-- ==== Sys2Proof/Machine/Codec.lean ====
section
/-!
DEFINITION. The codec complex's sessions and encoders (R283 to R309, R324): session commands, gangs, rate control, slices.
What H.265 leaves to an encoder (coded bytes, bits per CTB) arrives as a command's operand or is a free value.
-/

namespace Sys2Proof.Machine

open Sys2Proof

/-! ## Sessions and their configuration -/

/-- Encode session of a stream context. -/
def State.encS (s : State) (c : Nat) : EncSess := Map.get (fun _ => {}) s.codec.enc c
/-- Update an encode session. -/
def State.modEnc (s : State) (c : Nat) (f : EncSess → EncSess) : State :=
  s.onCodec fun x => { x with enc := Map.put (fun _ => {}) x.enc c (f (Map.get (fun _ => {}) x.enc c)) }
/-- Decode or XS session of a stream context. -/
def State.decS (s : State) (c : Nat) : DecSess := Map.get (fun _ => {}) s.codec.dec c
/-- Update a decode or XS session. -/
def State.modDec (s : State) (c : Nat) (f : DecSess → DecSess) : State :=
  s.onCodec fun x => { x with dec := Map.put (fun _ => {}) x.dec c (f (Map.get (fun _ => {}) x.dec c)) }
/-- Codec block of a page. -/
def State.codecBlk (s : State) (p : Nat) : CodecBlk := Map.get (fun _ => {}) s.codec.blk p
/-- Update a codec block. -/
def State.modCodecBlk (s : State) (p : Nat) (f : CodecBlk → CodecBlk) : State :=
  s.onCodec fun x => { x with blk := Map.put (fun _ => {}) x.blk p (f (Map.get (fun _ => {}) x.blk p)) }

/-- *Encode session configuration*. -/
def ecFormat (w : Words) : Nat := wfld (wordAt w 0) 1 3
def ecCtb (w : Words) : Nat := if bitAt (wordAt w 0) 4 then 64 else 32
def ecGop (w : Words) : Nat := wfld (wordAt w 0) 5 2
def ecGroup (w : Words) : Nat := if bitAt (wordAt w 0) 7 then 8 else 4
def ecProg (w : Words) : Bool := bitAt (wordAt w 0) 11
def ecRc (w : Words) : Nat := wfld (wordAt w 0) 12 2
def ecLook (w : Words) : Bool := bitAt (wordAt w 0) 16
def ecHrd (w : Words) : Bool := bitAt (wordAt w 0) 17
def ecSliceDesc (w : Words) : Bool := bitAt (wordAt w 0) 18
def ecProgIn (w : Words) : Nat := wfld (wordAt w 0) 19 2
def ecRefs (w : Words) : Nat := wfld (wordAt w 0) 8 2 + 1
def ecW (w : Words) : Nat := wfld (wordAt w 1) 0 16
def ecH (w : Words) : Nat := wfld (wordAt w 1) 16 16
def ecStride (w : Words) : Nat := (wordAt w 2).toNat
/-- Queues: 0 IN_Q, 1 SRC_RET_Q or IN_RET_Q, 2 OUT_FREE_Q, 3 OUT_Q. -/
def ecQ (w : Words) (i : Nat) : Nat := wfld (wordAt w (3 + i)) 0 20
def ecSliceRows (w : Words) : Nat := wfld (wordAt w 7) 0 8
def ecIdr (w : Words) : Nat := wfld (wordAt w 7) 16 16
def ecRate (w : Words) : Nat := (wordAt w 10).toNat
def ecCpb (w : Words) : Nat := wfld (wordAt w 11) 0 24 * 1000
def ecNum (w : Words) : Nat := wfld (wordAt w 12) 0 16
def ecDen (w : Words) : Nat := wfld (wordAt w 12) 16 16
def ecQpInit (w : Words) : Nat := wfld (wordAt w 13) 0 6
def ecQpMin (w : Words) : Nat := wfld (wordAt w 13) 8 6
def ecQpMax (w : Words) : Nat := wfld (wordAt w 13) 16 6
def ecRowDq (w : Words) : Nat := wfld (wordAt w 13) 22 4
def ecMaxPic (w : Words) : Nat := (wordAt w 14).toNat
def ecDebtPics (w : Words) : Nat := wfld (wordAt w 15) 0 8
def ecTargetMin (w : Words) : Nat := wfld (wordAt w 15) 8 7
def ecSrcList (w : Words) : Nat := dwordAt w 18 % 2 ^ 48
def ecSrcCount (w : Words) : Nat := dwordAt w 18 / 2 ^ 48 % 8

/-- Planes of a YCbCr format (R203): bytes per luma sample of a line and the divisor of its line count. -/
def ycPlanes (fmt : Nat) : List (Nat × Nat) :=
  match fmt with
  | 3 => [(2, 1), (2, 2)]
  | 4 => [(1, 1), (1, 2)]
  | 5 => [(2, 1), (2, 1)]
  | _ => [(2, 1), (2, 1), (2, 1)]

/-- Bytes of a picture of a format with a stride and a height (R203). -/
def ycBytes (fmt stride h : Nat) : Nat := ((ycPlanes fmt).map fun p => stride * (h / p.2)).foldl (· + ·) 0

/-- Configuration words of a session on a page: 20 for an encoder, 16 for a decoder or XS. -/
def sessWords (p : Nat) : Nat := if pageKind p = .henc then 20 else 16
/-- Owner kind of a page's sessions (R458). -/
def sessKind (p : Nat) : Nat := match pageKind p with | .henc => 2 | .dec => 3 | _ => 4
/-- Session limit of a page (R284). -/
def sessLimit (p : Nat) : Nat := if pageKind p = .dec then 32 else 16
/-- Offset of the runtime registers. -/
def sessRt (p : Nat) : Nat := Off.henc_SESS_D0 + 4 * sessWords p

/-- Stream contexts of the sessions that page `p` serves (R283). -/
def State.sessions (s : State) (p : Nat) : List Nat :=
  (s.qm.scxKind.filter fun e => e.2 == sessKind p && Map.get (fun _ => 0) s.qm.scxPage e.1 == p).map (·.1)

/-- SESS_SEL of a page. -/
def State.sessSel (s : State) (p : Nat) : Nat := s.fld p Off.henc_SESS_SEL 0 14

/-- State of the session on a stream context, as page `p` sees it. -/
def State.sessState (s : State) (p c : Nat) : Nat :=
  if s.scxKind c ≠ sessKind p ∨ Map.get (fun _ => 0) s.qm.scxPage c ≠ p then 0
  else if pageKind p = .henc then (s.encS c).st else (s.decS c).st

/-- SESS_CMD_STAT after a command, BUSY for the 32 ns that it may take (R286); a rejection sets SESS_INVALID (R324). -/
def State.sessStat (s0 : State) (p reason : Nat) : State :=
  let s := s0.cmdStart p Off.henc_SESS_CMD_STAT 8
  if reason = 0 then s.setReg p Off.henc_SESS_CMD_STAT 0
  else (s.setReg p Off.henc_SESS_CMD_STAT (wd (2 + reason * 16))).raise p 8

/-- Runtime bytes of a session change to values that the spec does not lay out. -/
def State.sessRuntime (s : State) (p c : Nat) : State :=
  let n := sessWords p
  (s.scxPut c n ((List.range (32 - n)).map fun i => Config.freeWord (s.free + i))).onFree (· + 32)

/-- The descriptors on a queue: reissued ones first, then the ring from HEAD. -/
def State.qItems (s : State) (q : Nat) : List Words :=
  let st := s.qView q
  ((s.qm.reissue.filter fun r => r.queue == q && r.visible).map (·.desc)) ++
    (List.range st.level).map fun i => bytesWords 8 (s.peek (st.ring + 32 * ((st.head + i) % st.size)) 32)

/-- Is queue `q` valid and not empty? -/
def State.qHas (s : State) (q : Nat) : Bool := s.alive (pQM 0) && s.qValid q && !(s.qItems q).isEmpty

/-! ## Busy share and STAT -/

/-- A block is busy from now on, STAT showing the session in service. -/
def State.codecStart (s : State) (p c : Nat) : State :=
  (s.setReg p Off.henc_STAT (wd (1 + c * 65536))).modCodecBlk p fun b => { b with busy := some (b.busy.getD s.now) }

/-- A block is at a boundary. -/
def State.codecIdle (s : State) (p : Nat) : State :=
  (s.setFld p Off.henc_STAT 0 2 0).modCodecBlk p fun b =>
    { b with busy := none, runs := match b.busy with
        | some t => (t, s.now) :: b.runs.filter fun r => decide (s.now < r.2 + 250000)
        | none => b.runs }

/-- Ticks of an interval that lie in the last millisecond. -/
def overlapMs (now a b : Nat) : Nat := min b now - max a (now - 250000)

/-- UTIL of a codec block in 0.1 %. -/
def State.codecUtil (s : State) (p : Nat) : Nat :=
  let b := s.codecBlk p
  let t := (b.runs.map fun r => overlapMs s.now r.1 r.2).foldl (· + ·) ((b.busy.map fun x => overlapMs s.now x s.now).getD 0)
  t * 1000 / 250000

/-! ## Ends of sessions -/

/-- A session leaves the enabled state (R286, R458). -/
def State.sessOff (s : State) (p c : Nat) : State :=
  let s1 := (s.scxPut c 0 [setBit (wordAt (s.scx c) 0) 0 false]).scxFree c
  let s2 := if pageKind p = .henc then s1.onCodec fun x => { x with enc := Map.put (fun _ => {}) x.enc c {} }
    else s1.onCodec fun x => { x with dec := Map.put (fun _ => {}) x.dec c {} }
  if (s2.codecBlk p).cur = some c then (s2.modCodecBlk p fun b => { b with cur := none }).codecIdle p else s2

/-- A descriptor on an output queue of a session. -/
def State.sessPost (s : State) (p c i : Nat) (d : Words) : State := s.push p (ecQ (s.scx c) i) d

/-- Sources that an encode session still holds go back uncoded. -/
def State.encReturnHeld (s : State) (p c : Nat) : State :=
  let e := s.encS c
  (e.fill ++ e.todo.map (·.2.2)).foldl (fun t d => t.sessPost p c 1 d) (s.modEnc c fun e => { e with fill := [], todo := [] })

/-- An encoder output descriptor (*Encoder output descriptor*). -/
def encDesc (addr len frame flags slice poc token : Nat) : Words :=
  [wd addr, wd (addr / 2 ^ 32), wd len, wd frame, wd flags, wd slice, wd poc, wd token]

/-- PIC_EVC of a session follows its picture's last descriptor (R307). -/
def State.sessPicEvt (s : State) (p c : Nat) : State :=
  let ev := wordAt (s.scx c) (if pageKind p = .henc then 16 else 10)
  if pageKind p = .henc then s.produceOn p (wfld ev 16 8) (bitAt ev 24) else s.produceOn p (wfld ev 0 8) (bitAt ev 8)

/-- The picture in flight ends ABORTED with one more descriptor (R309); its source goes back. -/
def State.encAbort (s : State) (p c : Nat) : State :=
  match (s.encS c).pic with
  | none => s
  | some f =>
    let flags := Nat.lor f.flags (1 + f.type * 512 + 2048)
    let s1 := s.sessPost p c 3 (encDesc f.buf 0 f.frame flags 0 f.poc f.token)
    let s2 := match f.src with
      | some d => s1.sessPost p c 1 d
      | none => s1
    ((s2.modEnc c fun e => { e with pic := none }).sessPicEvt p c).codecIdle p

/-- A JPEG XS or decoder picture in flight ends ABORTED (R286); of an access unit that has not yet taken a buffer, with BUF 0 and a free
token (notes/assumptions/179.md). -/
def State.decAbort (s : State) (p c : Nat) : State :=
  let e := s.decS c
  let s1 := match e.xs with
    | none =>
      if e.chunks = 0 then s
      else
        let r := s.drawWord
        r.2.sessPost p c 3 [0, 0, wd e.time, wd (e.time / 2 ^ 32), wd e.count, 8, 0, r.1]
    | some f =>
      if bitAt (wordAt (s.scx c) 0) 1 then
        let t := (s.sessPost p c 3 (encDesc f.buf 0 0 (Nat.lor f.flags 2049) 0 0 f.token)).sessPicEvt p c
        match f.src with
        | some d => t.sessPost p c 1 d
        | none => t
      else s.sessPost p c 3 [wd f.buf, wd (f.buf / 2 ^ 32), wd f.time, wd (f.time / 2 ^ 32), wd e.count,
        wd (Nat.lor f.flags 8), 0, wd f.token]
  (s1.modDec c fun e => { e with xs := none, chunks := 0, complete := false }).codecIdle p

/-- The picture or access unit in flight of a session ends ABORTED. -/
def State.sessAbort (s : State) (p c : Nat) : State := if pageKind p = .henc then s.encAbort p c else s.decAbort p c

/-- A session enters ERROR (R286, R309). -/
def State.sessError (s : State) (p c : Nat) (withDesc : Bool) : State :=
  let s1 := if withDesc then s.sessAbort p c
    else (s.modEnc c fun e => { e with pic := none }).modDec c fun e => { e with xs := none, chunks := 0, complete := false }
  let s2 := if pageKind p = .henc then s1.modEnc c fun e => { e with st := 2 } else s1.modDec c fun e => { e with st := 2 }
  (if (s2.codecBlk p).cur = some c then (s2.modCodecBlk p fun b => { b with cur := none }).codecIdle p else s2).produce p 2

/-- Is the session at a boundary: nothing in flight? -/
def State.sessFree (s : State) (p c : Nat) : Bool :=
  if pageKind p = .henc then (s.encS c).pic.isNone
  else (s.decS c).xs.isNone && (s.decS c).chunks == 0

/-! ## Session commands -/

/-- SESS_CMD behind the gate: `eff` takes the stream context that SESS_SEL names. -/
def State.sessCmd (s : State) (m : Master) (p : Nat) (eff : Nat → State → State) : State :=
  s.regWrite m p Off.henc_SESS_CMD fun t => eff (t.sessSel p) t

/-- SESS_LOAD (R283, R286). -/
def execSessLoad (m : Master) (p : Nat) (s : State) : Step :=
  .next (s.sessCmd m p fun c t =>
    let n := sessWords p
    ((t.setRegs32 p Off.henc_SESS_D0 ((t.scx c).take n)).setRegs32 p (sessRt p) ((t.scx c).drop n)).sessStat p 0)

/-- Why a picture size or stride is rejected (R288, R324). -/
def badGeom (fmt w h stride : Nat) : Bool :=
  decide (w < 64 ∨ 16384 < w ∨ h < 64 ∨ 8704 < h ∨ w % 2 ≠ 0 ∨ h % 2 ≠ 0 ∨ 35651584 < w * h ∨ stride % 64 ≠ 0) ||
    (ycPlanes fmt).any fun p => decide (stride < p.1 * w)

/-- Is one of a session's four queues not valid? -/
def State.badQueues (s : State) (w : Words) : Bool := (List.range 4).any fun i => !s.qValid (ecQ w i)

/-- The rejection reason of an encode STORE (R287, R324), 0 for none. -/
def State.encReason (s : State) (p : Nat) (w : Words) : Nat :=
  let fmt := ecFormat w
  let misc := wordAt w 15
  if fmt < 3 ∨ 6 < fmt then 1
  else if badGeom fmt (ecW w) (ecH w) (ecStride w) then 2
  else if ecProg w && (decide (ecSrcCount w < 2) || decide (4 < ecSrcCount w) || decide (ecSrcList w % 32 ≠ 0)) then 3
  else if ecRc w ≠ 0 ∧ (ecRate w < 100 ∨ 800000 < ecRate w) then 4
  else if s.badQueues w then 5
  else if dwordAt w 8 % 4096 ≠ 0 then 6
  else if bitAt (wordAt w 0) 0 && decide (sessLimit p ≤ (s.sessions p).length) then 7
  else if ecQpMax w < ecQpMin w ∨ 51 < ecQpMax w ∨ 51 < ecQpInit w ∨ 12 < ecRowDq w then 8
  else if ecDebtPics w = 0 ∨ ecTargetMin w < 10 ∨ 100 < ecTargetMin w ∨ wfld misc 16 8 < 8 ∨ 128 < wfld misc 16 8 ∨
      wfld misc 24 7 < 4 ∨ 64 < wfld misc 24 7 then 9
  else 0

/-- The rejection reason of a decode or XS STORE (R310, R313, R324), 0 for none. -/
def State.decReason (s : State) (p : Nat) (w : Words) : Nat :=
  let xs := pageKind p = .xs
  let fmt := wfld (wordAt w 0) 2 3
  let c := wordAt w 7
  let nly := wfld c 11 2
  let rows := wfld c 16 11
  if xs ∧ fmt ≠ 5 ∧ fmt ≠ 6 then 1
  else if (xs ∧ badGeom fmt (ecW w) (ecH w) (ecStride w) = true) ∨ ecStride w % 64 ≠ 0 then 2
  else if xs ∧ (wfld c 8 3 < 1 ∨ 5 < wfld c 8 3 ∨ 2 < nly ∨ (fmt = 5 ∧ 1 < nly) ∨ rows % 2 ^ nly ≠ 0 ∨ rows < 16 ∨ 1024 < rows) then 3
  else if ¬ xs ∧ (wfld c 0 5 < 2 ∨ 17 < wfld c 0 5) then 3
  else if s.badQueues w then 5
  else if ¬ xs ∧ dwordAt w 8 % 4096 ≠ 0 then 6
  else if bitAt (wordAt w 0) 0 && decide (sessLimit p ≤ (s.sessions p).length) then 7
  else 0

/-- Size of the gang that lead `n` heads. -/
def State.encGang (s : State) (n : Nat) : Nat := max 1 (s.fld (pHENC n) Off.henc_GANG 0 3)
/-- Is an encoder a member of another encoder's gang? -/
def State.encMember (s : State) (n : Nat) : Bool := s.bit (pHENC n) Off.henc_GANG 11

/-- The source buffers of a progressive session are read from SRC_LIST and supplied in list order (R298). -/
def State.encSupply (s : State) (p c : Nat) : State :=
  let w := s.scx c
  let ds := (List.range (ecSrcCount w)).map fun i => ecSrcList w + 32 * i
  let r := ds.foldl (fun (acc : List Words × State) a =>
    let x := acc.2.busRead a 32
    (acc.1 ++ [bytesWords 8 x.1.bytes], x.2)) ([], s)
  r.1.foldl (fun t d => t.sessPost p c 1 d) (r.2.modEnc c fun e => { e with srcs := r.1 })

/-- SESS_STORE (R284, R286, R287, R304, R324, R458). A gang member serves no session of its own (R292). -/
def execSessStore (m : Master) (p : Nat) (s : State) : Step :=
  .next (s.sessCmd m p fun c t =>
    let n := sessWords p
    let w := t.regs32 p Off.henc_SESS_D0 n
    let enc := pageKind p = .henc
    if t.scxKind c = sessKind p ∨ (enc ∧ t.encMember (p - pHENC 0) = true) then t.stateWrite p
    else if t.scxKind c ≠ 0 then t.scxConflict p
    else
      let r := if enc then t.encReason p w else t.decReason p w
      if r ≠ 0 then t.sessStat p r
      else
        let t1 := t.scxPut c 0 w
        if !bitAt (wordAt w 0) 0 then t1.sessStat p 0
        else
          let t2 := (t1.scxClaim c (sessKind p) p n).sessRuntime p c
          let t3 := if enc then
              let t4 := t2.modEnc c fun _ => { st := 1, fullness := 9 * ecCpb w * ecNum w / 10, lastRun := t.now }
              if ecProg w then t4.encSupply p c else t4
            else t2.modDec c fun _ => { st := 1, waitIrap := !bitAt (wordAt w 0) 3, lastRun := t.now }
          t3.sessStat p 0)

/-- SESS_STOP (R286): a session at a boundary stops at once. -/
def execSessStop (m : Master) (p : Nat) (s : State) : Step :=
  .next (s.sessCmd m p fun c t =>
    if t.sessState p c ≠ 1 then t.stateWrite p
    else if t.sessFree p c then
      ((if pageKind p = .henc then t.encReturnHeld p c else t).sessOff p c).sessStat p 0
    else ((t.modEnc c fun e => if pageKind p = .henc then { e with stopping := true } else e).modDec c fun e =>
      if pageKind p = .henc then e else { e with stopping := true }).sessStat p 0)

/-- A session stops at once (R286, R309). -/
def State.sessQuit (s : State) (p c : Nat) : State :=
  let t := s.sessAbort p c
  (if pageKind p = .henc then t.encReturnHeld p c else t).sessOff p c

/-- SESS_STOP_NOW (R286, R309). -/
def execSessStopNow (m : Master) (p : Nat) (s : State) : Step :=
  .next (s.sessCmd m p fun c t =>
    if t.sessState p c = 0 then t.stateWrite p else (t.sessQuit p c).sessStat p 0)

/-- SET_RATE (R286): at the session's next picture start; STATE_WRITE on a DEC or XS page. -/
def execSetRate (m : Master) (p : Nat) (s : State) : Step :=
  .next (s.sessCmd m p fun c t =>
    if pageKind p ≠ .henc ∨ t.sessState p c ≠ 1 then t.stateWrite p
    else (t.modEnc c fun e => { e with rate := some (t.reg p Off.henc_RATE_NEW, t.reg p Off.henc_MAXPIC_NEW) }).sessStat p 0)

/-- FORCE_IDR (R286). -/
def execForceIdr (m : Master) (p : Nat) (s : State) : Step :=
  .next (s.sessCmd m p fun c t =>
    if pageKind p ≠ .henc ∨ t.sessState p c ≠ 1 then t.stateWrite p
    else (t.modEnc c fun e => { e with idr := true }).sessStat p 0)

/-! ## Gangs -/

/-- GANG_WRITE (R292): SIZE from 1, members n to n + SIZE − 1 ≤ 5 that are idle and in no other gang; a change is accepted
while the lead is idle. -/
def execGangWrite (m : Master) (n : Nat) (v : Word) (s : State) : Step :=
  let o := Off.henc_GANG
  .next (s.regWrite m (pHENC n) o fun t =>
    let size := wfld v 0 3
    let old := t.encGang n
    if size = t.fld (pHENC n) o 0 3 then t
    else if !(t.sessions (pHENC n)).isEmpty then t.stateWrite (pHENC n)
    else
      let mine := fun j => decide (n < j) && decide (j < n + old)
      let others := (List.range size).map (n + ·)
      let bad := decide (size = 0) || decide (6 < n + size) || t.encMember n || others.any fun j =>
        !(t.sessions (pHENC j)).isEmpty || (t.encMember j && !mine j) ||
          (decide (j ≠ n) && decide (1 < t.fld (pHENC j) o 0 3))
      if bad then t.raise (pHENC n) 8
      else
        let t1 := (List.range old).foldl (fun u i => if i = 0 then u else u.setFld (pHENC (n + i)) o 8 4 0) t
        let t2 := (List.range size).foldl (fun u i => if i = 0 then u else u.setFld (pHENC (n + i)) o 8 4 (n + 8)) t1
        t2.setFld (pHENC n) o 0 3 size)

/-- The lead that serves encoder `n`: its gang's lead, or itself. -/
def State.encLead (s : State) (n : Nat) : Nat := if s.encMember n then s.fld (pHENC n) Off.henc_GANG 8 3 else n

/-- What a fence of a codec page does to its sessions (R294, R324): ERROR without a further descriptor; a fenced gang member
ends every session of its gang, whose lead posts ABORTED and sets GANG_LOST. -/
def State.codecFenced (s : State) (p : Nat) : State :=
  let own := (s.sessions p).foldl (fun t c => t.sessError p c false) s
  if pageKind p ≠ .henc then own
  else
    let n := p - pHENC 0
    if !own.encMember n then own
    else
      let lead := pHENC (own.encLead n)
      ((own.sessions lead).foldl (fun t c => t.sessError lead c true) own).raise lead 15

/-! ## Session switch -/

/-- Ready lines that CTB row `r` of a progressive picture needs (R298). -/
def progNeed (w : Words) (r : Nat) : Nat := min (ecH w) ((r + 1) * ecCtb w + 8)

/-- Has a session work (R285)? A progressive session has, once its first CTB row can be coded. -/
def State.sessWork (s : State) (p c : Nat) : Bool :=
  let w := s.scx c
  if pageKind p = .henc then
    let e := s.encS c
    if ecProg w then decide (progNeed w 0 ≤ e.ready) else s.qHas (ecQ w 0) || !e.todo.isEmpty
  else if pageKind p = .xs ∧ bitAt (wordAt w 0) 1 = true then s.qHas (ecQ w 0)
  else s.qHas (ecQ w 0) && (s.qItems (ecQ w 0)).any fun d => bitAt (wordAt d 3) 0

/-- PRIO of a session. -/
def sessPrio (p : Nat) (w : Words) : Nat := if pageKind p = .henc then wfld (wordAt w 0) 14 2 else wfld (wordAt w 0) 5 2

/-- The tick a session last ran. -/
def State.sessLast (s : State) (p c : Nat) : Nat := if pageKind p = .henc then (s.encS c).lastRun else (s.decS c).lastRun

/-- Does session `a` rank before `b` (R285)? -/
def State.sessBefore (s : State) (p a b : Nat) : Bool :=
  let wa := sessPrio p (s.scx a)
  let wb := sessPrio p (s.scx b)
  decide (wa < wb) || (decide (wa = wb) && decide (s.sessLast p a < s.sessLast p b))

/-- The session that ranks first. -/
def State.sessFirst (s : State) (p : Nat) : List Nat → Option Nat
  | [] => none
  | c :: cs => match s.sessFirst p cs with
    | none => some c
    | some b => if s.sessBefore p b c then some b else some c

/-- The session that page `p` starts at a boundary: the first in rank among those with work (R285). -/
def State.sessDue (s : State) (p : Nat) : Option Nat :=
  s.sessFirst p ((s.sessions p).filter fun c => decide (s.sessState p c = 1) && s.sessWork p c)

/-- May the session in service begin a picture or an access unit: is it the one that is due (R285)? -/
def State.mayBegin (s : State) (p c : Nat) : Bool := s.sessDue p == some c

/-- CODEC_SESSION_SWITCH (R285): page `p` at a boundary takes the session that ranks first among those with work into service; STAT
shows SWITCHING until it begins when it was not in service. -/
def execCodecSessionSwitch (p : Nat) (s : State) : Step :=
  let b := s.codecBlk p
  let free := match b.cur with
    | some c => s.sessFree p c
    | none => true
  if !s.alive p || !free then .next s
  else match s.sessDue p with
    | none => .next s
    | some c =>
      let st := if b.cur = some c then 0 else 2
      let s1 := (s.modCodecBlk p fun x => { x with cur := some c }).setReg p Off.henc_STAT (wd (st + c * 65536))
      .next (if pageKind p = .henc then s1.modEnc c fun e => { e with lastRun := s.now }
        else s1.modDec c fun e => { e with lastRun := s.now })

/-! ## Rate control -/

/-- Is 2^((2k − 1) / 12) at most a / b? -/
def sixGe (a b : Nat) (k : Int) : Bool :=
  if 0 < k then decide (b ^ 12 * 2 ^ (2 * k - 1).toNat ≤ a ^ 12) else decide (b ^ 12 ≤ a ^ 12 * 2 ^ (1 - 2 * k).toNat)

/-- The nearest integer to 6 × log2(a / b), saturated at ±64, which lies beyond every clamp of R303. -/
def sixLog2 (a b : Nat) : Int :=
  match (List.range 128).find? fun i : Nat => sixGe a b (64 - (i : Int)) with
  | some i => 64 - (i : Int)
  | none => -64

/-- The same, with a free value where the logarithm of 0 or a division by 0 leaves none. -/
def State.sixLog (s : State) (a b : Nat) : Int × State :=
  if a = 0 ∨ b = 0 then let r := s.drawWord; (r.1.toInt, r.2) else (sixLog2 a b, s)

/-- Clamp an integer. -/
def clampI (v lo hi : Int) : Int := max lo (min v hi)

/-- Division rounded to the nearest integer, halves up. -/
def divNear (a b : Nat) : Nat := (2 * a + b) / (2 * b)

/-- Weights of R300 in halves of a group of hierarchical B pictures in coding order, the anchor first, with the display
position of each (notes/assumptions/60.md). -/
def groupOrder (g : Nat) : List (Nat × Nat × Nat) :=
  if g = 4 then [(4, 1, 2), (2, 2, 2), (1, 2, 1), (3, 2, 1)]
  else [(8, 1, 2), (4, 2, 2), (2, 2, 1), (1, 2, 1), (3, 2, 1), (6, 2, 1), (5, 2, 1), (7, 2, 1)]

/-- Pictures and sum of weights, in halves, of one period of the GOP pattern (R300). -/
def gopPeriod (w : Words) : Nat × Nat :=
  let p := ecIdr w
  match ecGop w with
  | 0 => (1, 8)
  | 1 => if p = 0 then (1, 2) else (p, 8 + 2 * (p - 1))
  | _ =>
    let g := (groupOrder (ecGroup w)).map (·.2.2)
    if p = 0 then (g.length, g.foldl (· + ·) 0)
    else (p, (List.range (p - 1)).foldl (fun a i => a + g.getD (i % g.length) 2) 8)

/-- T_nom × W for a weight in halves, to the nearest bit (R300); none where FPS_NUM is 0. -/
def nominal (w : Words) (wt : Nat) : Option Nat :=
  let g := gopPeriod w
  if ecNum w = 0 then none else some (divNear (ecRate w * 1000 * ecDen w * g.1 * wt) (ecNum w * g.2))

/-- CTB rows and columns. -/
def ctbRows (w : Words) : Nat := (ecH w + ecCtb w - 1) / ecCtb w
def ctbCols (w : Words) : Nat := (ecW w + ecCtb w - 1) / ecCtb w

/-- First CTB row of tile row `i` of `n` (R293: uniform spacing). -/
def tileRow (w : Words) (n i : Nat) : Nat := i * ctbRows w / n

/-- Slices of rows `a` to `b` − 1 (R307). -/
def sliceCount (w : Words) (a b : Nat) : Nat :=
  if b ≤ a then 0 else if ecSliceRows w = 0 then 1 else (b - a + ecSliceRows w - 1) / ecSliceRows w

/-- Slices of a picture. -/
def picSlices (w : Words) (n : Nat) : Nat :=
  ((List.range n).map fun i => sliceCount w (tileRow w n i) (tileRow w n (i + 1))).foldl (· + ·) 0

/-- Fallback reserve per CTB (R303). -/
def fbBits (w : Words) (type : Nat) : Nat := if type ≠ 0 then 12 else if ecCtb w = 64 then 48 else 16

/-- QP before the first picture of a type (R304), also the QP of CQP (R300). -/
def qpStart (w : Words) (type : Nat) : Int :=
  clampI (ecQpInit w + (match type with | 0 => 0 | 1 => 2 | _ => 3 : Int)) (ecQpMin w) (ecQpMax w)

/-! ## Pictures -/

/-- A picture that is not coded posts one descriptor with LENGTH 0, LAST and DROPPED (R296); `fl` are more FLAGS. The
address and token of a buffer that was not taken are free. -/
def State.encDrop (s : State) (p c : Nat) (src : Option Words) (frame type poc fl : Nat) (buf : Option (Nat × Nat)) : State :=
  let r := s.drawWord
  let q := r.2.drawWord
  let u := match buf with
    | some b => (b.1, b.2, s)
    | none => (r.1.toNat, q.1.toNat, q.2)
  let s1 := u.2.2.sessPost p c 3 (encDesc u.1 0 frame (1 + 128 + type * 512 + fl) 0 poc u.2.1)
  let w := s.scx c
  let s2 := match src with
    | some d => s1.sessPost p c 1 d
    | none => s1.modEnc c fun e => { e with owed := e.owed + 1 }
  let s3 := if ecProg w then s2.modEnc c fun e => { e with next := e.next + 1, ready := e.ready - ecH w } else s2
  ((s3.count p Off.henc_CNT_DROP 0 16 1).sessPicEvt p c).codecIdle p

/-- A picture has ended: a STOP that waits takes effect (R286). -/
def State.encBoundary (s : State) (p c : Nat) : State :=
  if (s.encS c).stopping then (s.encReturnHeld p c).sessOff p c else s

/-- Is a source unusable (R296): BUF 0, NO_BUFFER, BUF_SMALL or ABORTED? -/
def srcUnusable (d : Words) : Bool := decide (dwordAt d 0 = 0) || decide (Nat.land (wordAt d 5).toNat 0xE ≠ 0)

/-- A progressive picture's source descriptor, once it is on IN_Q (R298): its FLAGS apply to every descriptor not yet
posted, and a BUF other than the expected one takes the session to ERROR with PROG_DESYNC. -/
def State.encProgDesc (s : State) (p c : Nat) : State :=
  if 0 < (s.encS c).owed then
    match s.take (ecQ (s.scx c) 0) with
    | (none, t) => t
    | (some d, t) => (t.sessPost p c 1 d).modEnc c fun e => { e with owed := e.owed - 1 }
  else
  match (s.encS c).pic with
  | none => s
  | some f =>
    let w := s.scx c
    if !ecProg w || f.src.isSome || !s.qHas (ecQ w 0) then s
    else match s.take (ecQ w 0) with
      | (none, t) => t
      | (some d, t) =>
        let t1 := t.modEnc c fun e => { e with pic := e.pic.map fun x =>
          { x with src := some d, frame := (wordAt d 4).toNat, poc := ((wordAt d 4).toNat + 2 ^ 32 - e.idrFrame) % 2 ^ 32,
                   flags := Nat.lor x.flags (if bitAt (wordAt d 5) 0 then 32 else 0) } }
        if dwordAt d 0 ≠ 0 ∧ dwordAt d 0 ≠ f.srcBuf then (t1.sessError p c true).raise p 13
        else if srcUnusable d then
          let t2 := t1.encDrop p c (some d) (wordAt d 4).toNat f.type ((wordAt d 4).toNat + 2 ^ 32 - (t.encS c).idrFrame) 0 (some (f.buf, f.token))
          (t2.modEnc c fun e => { e with pic := none, idr := e.idr || decide (f.type = 0) }).encBoundary p c
        else t1

/-- What the next picture is: its type, weight in halves and source, with the session that has given it up and, for an IDR, the request
for one (R286); none while a group is still filling or no source has come (R290, R295). -/
def State.encNext (s : State) (c : Nat) : Option (Nat × Nat × Words) × State :=
  let w := s.scx c
  let e := s.encS c
  let due := e.idr || (decide (ecIdr w ≠ 0) && decide (ecIdr w ≤ e.since)) || ecGop w == 0
  match e.todo with
  | (ty, wt, d) :: rest =>
    (some (if due then (0, 8, d) else (ty, wt, d)), s.modEnc c fun e => { e with todo := rest, idr := e.idr && !due })
  | [] =>
    if due then
      match e.fill with
      | d :: rest => (some (0, 8, d), s.modEnc c fun e => { e with fill := rest, idr := false })
      | [] => match s.take (ecQ w 0) with
        | (none, t) => (none, t)
        | (some d, t) => (some (0, 8, d), t.modEnc c fun e => { e with idr := false })
    else match s.take (ecQ w 0) with
      | (none, t) => (none, t)
      | (some d, t) =>
        if ecGop w = 1 then (some (1, 2, d), t)
        else if e.fill.length + 1 < ecGroup w then (none, t.modEnc c fun e => { e with fill := e.fill ++ [d] })
        else
          let all := e.fill ++ [d]
          match (groupOrder (ecGroup w)).map fun g => (g.2.1, g.2.2, all.getD (g.1 - 1) []) with
          | [] => (none, t)
          | x :: rest => (some x, t.modEnc c fun e => { e with fill := [], todo := rest })

/-- The plan of a picture (R300 to R305), or its drop, when even the fallback of every CTB does not fit the cap. -/
def State.encPlan (s : State) (n c type wt hdr : Nat) (costs : List Nat) (f : EncPic) : State :=
  let p := pHENC n
  let w := s.scx c
  let e := s.encS c
  let g := s.encGang n
  let h := hdr + 512 * picSlices w g
  let capF := if ecHrd w then (if ecNum w = 0 then 0 else (e.fullness / (ecNum w : Int)).toNat) else f.size * 8
  let cap0 := min capF (f.size * 8)
  let cap := (if ecMaxPic w = 0 then cap0 else min cap0 (ecMaxPic w * 8)) - h
  let fb := fbBits w type
  let nom := match nominal w wt with
    | some t => (t, s)
    | none => s.drawNat
  let cqp := ecRc w = 0
  let repay : Int := (e.debt + ecDebtPics w - 1) / (ecDebtPics w : Int)
  let t0 : Nat := if cqp then cap else (max (nom.1 - repay) (divNear (nom.1 * ecTargetMin w) 100 : Nat)).toNat
  let debt : Int := if cqp then e.debt else e.debt - (nom.1 - t0)
  if cap < fb * (ctbRows w * ctbCols w) then
    (nom.2.encDrop p c f.src f.frame type f.poc 0 (some (f.buf, f.token))).modEnc c fun x => { x with pic := none }
  else
    let t := min t0 cap
    let rows := if ecLook w then fit (ctbRows w) 1 costs
      else fit (ctbRows w) 1 (Map.get (fun _ => []) e.rowLast type)
    let now := if ecLook w then costs.foldl (· + ·) 0 else 1
    let last := if ecLook w then (Map.get (fun _ => none) e.costLast type).getD now else 1
    let bits := (Map.get (fun _ => none) e.bitsLast type).getD nom.1
    let lg := nom.2.sixLog (bits * now) (last * t)
    let qp0 : Int := ((Map.get (fun _ => none) e.qpLast type).map Int.ofNat).getD (qpStart w type)
    let qp := if cqp then qpStart w type else clampI (qp0 + lg.1) (ecQpMin w) (ecQpMax w)
    (lg.2.modEnc c fun x =>
      { x with debt := debt, pic := some { f with target := t, cap := cap, hdr := hdr, plan := rows, cost := rows.foldl (· + ·) 0,
                                                  qpPic := qp.toNat, pos := (List.range g).map fun i => (i, (tileRow w g i, 0)),
                                                  flags := Nat.lor f.flags (if type = 0 then 4 + 256 else 0) } }).codecStart p c

/-- The output buffer and the rest of a picture's start (R303, R306). -/
def State.encBuffer (s : State) (n c type wt hdr : Nat) (costs : List Nat) (f : EncPic) : State :=
  let p := pHENC n
  let w := s.scx c
  match s.take (ecQ w 2) with
  | (none, t) =>
    (((t.encDrop p c f.src f.frame type f.poc 8192 none).count p Off.henc_CNT_DROP 16 16 1).raise p 11).modEnc c
      fun x => { x with pic := none }
  | (some b, t) =>
    t.encPlan n c type wt hdr costs { f with type := type, buf := dwordAt b 0, size := (wordAt b 2).toNat, token := (wordAt b 3).toNat }

/-- ENC_PICTURE_START (R290, R295, R296, R298, R300 to R306): lead `n` starts the next picture of the session in service.
`hdr` is H without the slice headers, `costs` the row costs of L2 with LOOKAHEAD. -/
def execEncPictureStart (n hdr : Nat) (costs : List Nat) (s : State) : Step :=
  let p := pHENC n
  match (s.codecBlk p).cur with
  | none => .next s
  | some c =>
    let e := s.encS c
    if !s.alive p || decide (e.st ≠ 1) || e.pic.isSome then .next (s.encProgDesc p c)
    else if !s.mayBegin p c then .next s
    else
      let s0 := match e.rate with
        | some r => (s.scxPut c 10 [r.1]).scxPut c 14 [r.2]
        | none => s
      let s1 := s0.modEnc c fun e => { e with rate := none }
      let w := s1.scx c
      if ecProg w then
        if e.ready < progNeed w 0 then .next s
        else
          let due := e.idr || (decide (ecIdr w ≠ 0) && decide (ecIdr w ≤ e.since)) || ecGop w == 0
          let fr := s1.drawWord
          let poc := fr.2.drawWord
          let b := e.srcs.getD (e.next % max 1 e.srcs.length) []
          let s2 := (poc.2.modEnc c fun x => { x with idr := x.idr && !due }).encBuffer n c (if due then 0 else 1) (if due then 8 else 2) hdr
            costs { srcBuf := dwordAt b 0, frame := fr.1.toNat, poc := if due then 0 else poc.1.toNat }
          let s3 := if (s2.encS c).pic.isNone then s2.modEnc c fun x => { x with idr := x.idr || due } else s2
          .next (s3.encProgDesc p c)
      else
        let r := s1.encNext c
        match r.1 with
        | none => .next r.2
        | some (ty, wt, d) =>
          let poc := if ty = 0 then 0 else ((wordAt d 4).toNat + 2 ^ 32 - e.idrFrame) % 2 ^ 32
          if srcUnusable d then
            .next ((r.2.encDrop p c (some d) (wordAt d 4).toNat ty poc 0 none).modEnc c fun x => { x with idr := x.idr || decide (ty = 0 ∧ ecGop w ≠ 0) })
          else
            let f : EncPic := { src := some d, srcBuf := dwordAt d 0, frame := (wordAt d 4).toNat, poc := poc,
                                flags := if bitAt (wordAt d 5) 0 then 32 else 0 }
            let s2 := r.2.encBuffer n c ty wt hdr costs f
            .next (if (s2.encS c).pic.isNone then s2.modEnc c fun x => { x with idr := x.idr || decide (ty = 0 ∧ ecGop w ≠ 0) }
              else s2)

/-- HENC_PROGRESS_EVENT (R298, R479): the event accepted at input `k` of lead `n` adds PROG_LINES, `lines`, to the ready lines
of the progressive sessions that name the input. -/
def execHencProgressEvent (n k lines : Nat) (s : State) : Step :=
  let p := pHENC n
  if !s.alive p || !s.inBusy p (k % 4) then .next s
  else
    let s1 := s.setBusy p (k % 4) false
    let cs := (s1.sessions p).filter fun c => ecProg (s1.scx c) && ecProgIn (s1.scx c) == k % 4 && (s1.encS c).st == 1
    .next (cs.foldl (fun t c => (t.modEnc c fun e => { e with ready := e.ready + lines }).encProgDesc p c) s1)

/-- Is a source sample of a CTB poison-marked (R297)? -/
def State.ctbPoison (s : State) (w : Words) (base row col : Nat) : Bool :=
  let n := ecCtb w
  let rec go (off : Nat) : List (Nat × Nat) → Bool
    | [] => false
    | (b, v) :: rest =>
      let y0 := row * n / v
      let y1 := min (ecH w) ((row + 1) * n) / v
      ((List.range (y1 - y0)).any fun i =>
        let a := base + off + (y0 + i) * ecStride w + b * col * n
        let len := b * (min (ecW w) ((col + 1) * n) - col * n)
        decide (0 < len) && (!s.inDram a len || !s.alive (pDRAM (s.ctlOf (a - dramBase))) || s.anyPoison a len)) ||
        go (off + ecStride w * (ecH w / v)) rest
  go 0 (ycPlanes (ecFormat w))

/-- Rows that member `j` of a gang of `g` has finished, and all its rows. -/
def EncPic.rowsDone (f : EncPic) (w : Words) (g : Nat) : List Nat :=
  (List.range g).flatMap fun j =>
    let r := (Map.get (fun _ => (tileRow w g j, 0)) f.pos j).1
    (List.range (r - tileRow w g j)).map (tileRow w g j + ·)

/-- CTBs coded so far. -/
def EncPic.coded (f : EncPic) (w : Words) (g : Nat) : Nat :=
  ((List.range g).map fun j =>
    let x := Map.get (fun _ => (tileRow w g j, 0)) f.pos j
    (x.1 - tileRow w g j) * ctbCols w + x.2).foldl (· + ·) 0

/-- The QP of a row (R303, R305): QP_MAX in floor mode, else the picture's QP moved by what was spent against the plan. -/
def State.rowQp (s : State) (w : Words) (g : Nat) (f : EncPic) : Nat × State :=
  if f.floor then (ecQpMax w, s)
  else if ecRc w = 0 then (f.qpPic, s)
  else
    let done := f.rowsDone w g
    if done.isEmpty then (f.qpPic, s)
    else
      let planned := (done.map fun r => f.plan.getD r 1).foldl (· + ·) 0
      let lg := s.sixLog (f.spent * f.cost) (f.target * planned)
      ((clampI (f.qpPic + clampI lg.1 (-(ecRowDq w : Int)) (ecRowDq w)) (ecQpMin w) (ecQpMax w)).toNat, lg.2)

/-- Update the picture of a session. -/
def State.modPic (s : State) (c : Nat) (f : EncPic → EncPic) : State := s.modEnc c fun e => { e with pic := e.pic.map f }

/-- A member starts a row: floor mode when the target is spent, the row's QP, and where a slice starts there its first row. -/
def State.rowStart (s : State) (p c g j row : Nat) (w : Words) (f : EncPic) : State :=
  let floor := f.floor || decide (f.target ≤ f.spent)
  let s1 := if floor && !f.floor then
      ((s.modPic c fun x => { x with floor := true, flags := Nat.lor x.flags 8 }).raise p 9).produce p 1
    else s
  let q := s1.rowQp w g { f with floor := floor }
  let rel := row - tileRow w g j
  let starts := decide (rel = 0) || (decide (ecSliceRows w ≠ 0) && decide (rel % ecSliceRows w = 0))
  q.2.modPic c fun x =>
    { x with qp := Map.ins x.qp j q.1, first := if starts then Map.ins x.first j row else x.first,
             bad := if starts then Map.ins x.bad j false else x.bad }

/-- A member's CTB is committed: its bits, place, QP, and the slice that ends with it. -/
def EncPic.commit (f : EncPic) (w : Words) (g j row col bits : Nat) : EncPic :=
  let endRow := decide (ctbCols w ≤ col + 1)
  let rel := row + 1 - tileRow w g j
  let last := decide (tileRow w g (j + 1) ≤ row + 1)
  let cut := endRow && (last || (decide (ecSliceRows w ≠ 0) && decide (rel % ecSliceRows w = 0)))
  let qp := Map.get (fun _ => f.qpPic) f.qp j
  { f with spent := f.spent + bits, mbits := Map.ins f.mbits j (Map.get (fun _ => 0) f.mbits j + bits),
           rowBits := Map.ins f.rowBits row (Map.get (fun _ => 0) f.rowBits row + bits),
           pos := Map.ins f.pos j (if endRow then (row + 1, 0) else (row, col + 1)),
           qps := (f.qps.1 + qp, f.qps.2.1 + 1, min f.qps.2.2.1 qp, max f.qps.2.2.2 qp),
           slices := if cut then f.slices ++ [⟨j, Map.get (fun _ => 0) f.first j, Map.get (fun _ => false) f.bad j⟩] else f.slices }

/-- What ECC finds in the memory of a codec page's block, counted in CNT_SRAM, with SRAM_UE (R497). -/
def State.codecErr (s : State) (p : Nat) (e : ReadErr) : ReadErr × State :=
  let r := s.takeErr p e
  (r.1, r.2.eccCount p (if pageKind p = .henc then Off.henc_CNT_SRAM else Off.dec_CNT_SRAM) 14 r.1)

/-- ENC_CTB_CODED (R297, R298, R303, R305): member `j` of lead `n`'s gang codes its next CTB: tentatively with `bits` bits,
or with `fallback` bits, at most FB. `refPoison` tells that a reference sample arrived poison-marked, `e` what ECC found in the lead's
own memory, an uncorrectable word counting as a source sample (notes/assumptions/180.md). -/
def execEncCtbCoded (n j bits fallback : Nat) (refPoison : Bool) (e : ReadErr) (s : State) : Step :=
  let p := pHENC n
  match (s.codecBlk p).cur with
  | none => .next s
  | some c =>
    let s0 := s.encProgDesc p c
    let w := s0.scx c
    let g := s0.encGang n
    match (s0.encS c).pic with
    | none => .next s0
    | some f0 =>
      let at_ := Map.get (fun _ => (tileRow w g j, 0)) f0.pos j
      if !s.alive p || decide (g ≤ j) || decide (tileRow w g (j + 1) ≤ at_.1) then .next s0
      else if ecProg w && decide ((s0.encS c).ready < progNeed w at_.1) then .next (s0.setFld p Off.henc_STAT 0 2 3)
      else
        let s1 := (if at_.2 = 0 then s0.rowStart p c g j at_.1 w f0 else s0).setFld p Off.henc_STAT 0 2 1
        match (s1.encS c).pic with
        | none => .next s1
        | some f =>
          let fb := fbBits w f.type
          let after := ctbRows w * ctbCols w - f.coded w g - 1
          let mine := Map.get (fun _ => 0) f.mbits j
          let mAfter := (tileRow w g (j + 1) - at_.1) * ctbCols w - at_.2 - 1
          let mCap := f.size / g * 8 - 512 * sliceCount w (tileRow w g j) (tileRow w g (j + 1)) - (if j = 0 then f.hdr else 0)
          let fits := decide (f.spent + bits + fb * after ≤ f.cap) && (decide (g = 1) || decide (mine + bits + fb * mAfter ≤ mCap))
          let fall := f.fb || !fits
          let s2 := if fall && !f.fb then (s1.modPic c fun x => { x with fb := true, flags := Nat.lor x.flags 16 }).raise p 10 else s1
          let ecc := s2.codecErr p e
          let bad := s2.ctbPoison w f.srcBuf at_.1 at_.2 || ecc.1 == .uncorrectable
          let s3 := if bad then
              ((ecc.2.modPic c fun x => { x with bad := Map.ins x.bad j true }).count p Off.henc_CNT_POISON 0 16 1).raise p 12
            else ecc.2
          let s4 := if refPoison then s3.count p Off.henc_CNT_POISON 16 16 1 else s3
          .next (s4.modPic c fun x => x.commit w g j at_.1 at_.2 (if fall then min fallback fb else bits))

/-- The picture's descriptors are posted (R295, R301, R303, R304, R307): history, fullness, debt, counts and events. -/
def State.encFinish (s : State) (p c total : Nat) (f : EncPic) : State :=
  let w := s.scx c
  let mean := divNear f.qps.1 (max 1 f.qps.2.1)
  let e := s.encS c
  let full : Int := min (e.fullness - total * 8 * ecNum w + ecRate w * 1000 * ecDen w) (ecCpb w * ecNum w)
  let s1 := s.modEnc c fun e =>
    { e with pic := none, fullness := full, debt := if f.target < f.spent ∧ ecRc w ≠ 0 then e.debt + (f.spent - f.target) else e.debt,
             qpLast := Map.ins e.qpLast f.type (some mean), bitsLast := Map.ins e.bitsLast f.type (some f.spent),
             costLast := if ecLook w then Map.ins e.costLast f.type (some f.cost) else e.costLast,
             rowLast := if ecLook w then e.rowLast
               else Map.ins e.rowLast f.type ((List.range (ctbRows w)).map fun r => Map.get (fun _ => 0) f.rowBits r),
             since := if f.type = 0 then 1 else e.since + 1, idrFrame := if f.type = 0 then f.frame else e.idrFrame,
             next := e.next + 1, ready := e.ready - ecH w, lastRun := s.now }
  let s2 := match f.src with
    | some d => s1.sessPost p c 1 d
    | none => s1
  let s3 := s2.count p Off.henc_PICS 0 32 1
  let s4 := if f.floor then s3.count p Off.henc_CNT_FLOOR 0 16 1 else s3
  let s5 := if f.fb then s4.count p Off.henc_CNT_FLOOR 16 16 1 else s4
  let s6 := s5.setReg p Off.henc_LAST_QP (wd (mean + f.qps.2.2.1 * 2 ^ 8 + f.qps.2.2.2 * 2 ^ 16))
  let pool := (if ecGop w = 2 then ecRefs w + ecGroup w else ecRefs w + 1) * ycBytes (ecFormat w) (ecStride w) (ecH w) * 9 / 8
  let ref := s6.drawBytes pool
  let s7 := ((ref.2.busWrite p (dwordAt w 8) ref.1).sessRuntime p c).codecIdle p
  let s8 := (s7.sessPicEvt p c).produce p 0
  s8.encBoundary p c

/-- Filler bytes after the last slice (R301): the excess over CPB_SIZE of a CBR session with HRD_EN. -/
def fillerBytes (w : Words) (full : Int) (total : Nat) : Nat :=
  if !ecHrd w || ecRc w ≠ 1 || ecNum w = 0 then 0
  else
    let x : Int := full - total * 8 * ecNum w + ecRate w * 1000 * ecDen w - ecCpb w * ecNum w
    (x.toNat + 8 * ecNum w - 1) / (8 * ecNum w)

/-- ENC_SLICE_DONE (R297, R301, R305 to R308): the next slice in bitstream order of lead `n`'s picture, whose last CTB has been
coded, is in memory: `len` bytes, their values free. Its descriptor, or the picture's, is posted; SLICE_EVC follows. -/
def execEncSliceDone (n len : Nat) (s : State) : Step :=
  let p := pHENC n
  match (s.codecBlk p).cur with
  | none => .next s
  | some c =>
    let s0 := s.encProgDesc p c
    let w := s0.scx c
    let g := s0.encGang n
    match (s0.encS c).pic with
    | none => .next s0
    | some f =>
      let total := fun (x : EncPic) => ((List.range g).map fun j => Map.get (fun _ => 0) x.written j).foldl (· + ·) 0
      if !s.alive p then .next s0
      else match f.slices.find? fun x => x.first == f.posted with
        | none =>
          if f.posted = ctbRows w ∧ (f.src.isSome ∨ ecProg w = false) then .next (s0.encFinish p c (total f) f) else .next s0
        | some sl =>
          let j := sl.member
          let part := f.size / g
          let at_ := Map.get (fun _ => 0) f.written j
          let k := min len (part - at_)
          let addr := f.buf + part * j + at_
          let rest := f.slices.filter (fun x => x != sl)
          let nextRow := if ecSliceRows w = 0 then tileRow w g (j + 1) else min (tileRow w g (j + 1)) (sl.first + ecSliceRows w)
          let last := decide (ctbRows w ≤ nextRow)
          let fill := if last then fillerBytes w (s0.encS c).fullness (total f + k) else 0
          let room := min fill (part - at_ - k)
          let data := s0.drawBytes (k + room)
          let s1 := data.2.busWrite p addr data.1
          let f1 := { f with written := Map.ins f.written j (at_ + k + room), slices := rest, posted := nextRow, sliceNo := f.sliceNo + 1,
                             flags := Nat.lor f.flags (if sl.corrupt then 64 else 0) }
          let each := ecSliceDesc w || decide (1 < g)
          let lastFl := if last then 1 + (if room < fill then 4096 else 0) else 0
          let base := Nat.land f.flags (4095 - 64 - (if f.sliceNo = 0 then 0 else 256))
          let fl := base + f.type * 512
          let d := if each then
              encDesc addr (k + room) f.frame (Nat.lor fl (lastFl + (if sl.corrupt then 64 else 0)))
                (f.sliceNo % 256 + j * 256 + sl.first * 65536) f.poc f.token
            else encDesc f.buf (total f1) f.frame (Nat.lor (f1.flags + f.type * 512) (lastFl + 2)) 0 f.poc f.token
          let s2 := (s1.modEnc c fun e => { e with pic := some f1 })
          let s3 := if each || last then s2.sessPost p c 3 d else s2
          let s4 := s3.produceOn p (wfld (wordAt w 16) 0 8) (bitAt (wordAt w 16) 8)
          .next (if last && (f.src.isSome || !ecProg w) then s4.encFinish p c (total f + k) f1 else s4)

end Sys2Proof.Machine
end

