-- ==== Sys2Proof/Machine/CodecDec.lean ====
section
/-!
DEFINITION. Decoders and JPEG XS codecs (R310 to R323). What the bits of an access unit say arrives as a command's operand;
decoded samples and coded slices are free values.
-/

namespace Sys2Proof.Machine

open Sys2Proof

/-! ## Output -/

/-- *Decode and XS session configuration*: EVENTS. -/
def dcEvents (w : Words) : Word := wordAt w 10
/-- DPB_SLOTS. -/
def dcSlots (w : Words) : Nat := wfld (wordAt w 7) 0 5

/-- Counts and events of an output picture with FLAGS (R316, *DECn page*). -/
def State.decDone (s : State) (p c flags : Nat) : State :=
  let ev := dcEvents (s.scx c)
  let conc := flags.testBit 8
  let s1 := ((s.count p Off.dec_PICS 0 32 1).produceOn p (wfld ev 0 8) (bitAt ev 8)).produce p 0
  let s2 := if conc then (s1.count p Off.dec_CNT_CONCEAL 0 16 1).produce p 1 else s1
  s2.produceOn p (wfld ev 16 8) (bitAt ev 24 && (conc || flags.testBit 1 || flags.testBit 2))

/-- A picture is output with its descriptor (R316, R319): the first of a new size carries GEOM_CHANGE. -/
def State.decOutput (s : State) (p c : Nat) (d : DecPic) : State :=
  let e := s.decS c
  let g := e.geom && d.seq == e.seq
  let fl := if g then Nat.lor d.flags 2048 else d.flags
  let s1 := s.sessPost p c 3 [wd d.buf, wd (d.buf / 2 ^ 32), wd d.time, wd (d.time / 2 ^ 32), wd e.count, wd fl, wd d.bytes, wd d.token]
  (s1.modDec c fun e => { e with count := e.count + 1, geom := e.geom && !g,
                                 dpb := (e.dpb.map fun x => if x = d then { x with wait := false } else x).filter fun x => x.wait || x.ref }).decDone p c fl

/-- Does picture `a` come before `b` in output order (R319)? -/
def DecPic.before (a b : DecPic) : Bool := decide (a.seq < b.seq) || (decide (a.seq = b.seq) && decide (a.poc < b.poc))

/-- The first picture in output order of those that wait. -/
def firstOut : List DecPic → Option DecPic
  | [] => none
  | d :: ds => match firstOut ds with
    | none => if d.wait then some d else none
    | some b => if d.wait && d.before b then some d else some b

/-- Output every picture that waits, in output order; `fuel` at least their number. -/
def State.decOutputAll (s : State) (p c : Nat) : Nat → State
  | 0 => s
  | n + 1 => match firstOut (s.decS c).dpb with
    | none => s
    | some d => (s.decOutput p c d).decOutputAll p c n

/-- Every waiting picture. -/
def State.decFlush (s : State) (p c : Nat) : State := s.decOutputAll p c (s.decS c).dpb.length

/-- FLUSH (R286): at the next access-unit boundary; STATE_WRITE on a page that is no decoder's. -/
def execFlush (m : Master) (p : Nat) (s : State) : Step :=
  .next (s.sessCmd m p fun c t =>
    if pageKind p ≠ .dec ∨ t.sessState p c ≠ 1 then t.stateWrite p
    else (if t.sessFree p c then t.decFlush p c else t.modDec c fun e => { e with flush := true }).sessStat p 0)

/-- DEC_PICTURE_OUTPUT (R319): the bumping process outputs the first waiting picture of the session in service. -/
def execDecPictureOutput (p : Nat) (s : State) : Step :=
  match (s.codecBlk p).cur with
  | none => .next s
  | some c =>
    if !s.alive p || pageKind p ≠ .dec then .next s
    else match firstOut (s.decS c).dpb with
      | none => .next s
      | some d => .next (s.decOutput p c d)

/-! ## Input -/

/-- DEC_CHUNK (R315, R321): the session in service on page `p`, a decoder's or an XS codec's, takes a chunk and returns it
once read. -/
def execDecChunk (p : Nat) (s : State) : Step :=
  match (s.codecBlk p).cur with
  | none => .next s
  | some c =>
    let e := s.decS c
    let xsEnc := pageKind p = .xs ∧ bitAt (wordAt (s.scx c) 0) 1 = true
    if !s.alive p || e.complete || decide (e.st ≠ 1) || decide xsEnc || pageKind p = .henc || (e.chunks == 0 && !s.mayBegin p c) then .next s
    else match s.take (ecQ (s.scx c) 0) with
      | (none, t) => .next t
      | (some d, t) =>
        let r := t.busRead (dwordAt d 0) (wordAt d 2).toNat
        let fl := wordAt d 3
        let s1 := r.2.modDec c fun e =>
          { e with chunks := e.chunks + 1, time := if e.chunks = 0 then dwordAt d 4 else e.time,
                   cut := (decide (0 < e.chunks) && (e.cut || bitAt fl 1)),
                   poison := (decide (0 < e.chunks) && e.poison) || r.1.bad, complete := bitAt fl 0 }
        .next ((s1.sessPost p c 1 d).codecStart p c)

/-- The access unit in progress ends; a STOP or FLUSH that waits takes effect (R286). -/
def State.decBoundary (s : State) (p c : Nat) : State :=
  let s1 := (s.modDec c fun e => { e with chunks := 0, complete := false, cut := false, poison := false, lastRun := s.now }).codecIdle p
  let s2 := if (s1.decS c).flush then (s1.modDec c fun e => { e with flush := false }).decFlush p c else s1
  if (s2.decS c).stopping then s2.sessOff p c else s2

/-! ## Decoding -/

/-- The output format of R317; none for a combination it does not list. -/
def decFormat (chroma bits : Nat) : Option Nat :=
  match chroma with
  | 0 | 1 => if bits ≤ 8 then some 4 else if bits ≤ 10 then some 3 else none
  | 2 => if bits ≤ 10 then some 5 else none
  | _ => if bits ≤ 12 then some 6 else none

/-- Can the picture be decoded (R313): features, profile, level, MAX_GEOM and DPB_SLOTS? -/
def decSupported (w : Words) (a : AccessUnit) : Bool :=
  let avc := bitAt (wordAt w 0) 1
  let fmt := decFormat a.chroma (max a.luma a.chromaBits)
  a.supported && (if avc then decide (fmt = some 4) && decide (a.w ≤ 4096 ∧ a.h ≤ 2304)
      else fmt.isSome && decide (a.w ≤ 8192 ∧ a.h ≤ 4352)) &&
    decide (a.w ≤ ecW w) && decide (a.h ≤ ecH w) && decide (a.slots ≤ dcSlots w)

/-- Is the picture of a buffer still a reference (R318)? -/
def DecSess.inUse (e : DecSess) (d : Words) : Bool := e.dpb.any fun x => x.ref && x.buf == dwordAt d 0

/-- A buffer from OUT_FREE_Q, those whose picture is still a reference being held aside (R318); `fuel` at least the queue's
level. -/
def State.decTakeBuf (s : State) (c : Nat) : Nat → Option Words × State
  | 0 => (none, s)
  | n + 1 => match s.take (ecQ (s.scx c) 2) with
    | (none, t) => (none, t)
    | (some d, t) =>
      if (t.decS c).inUse d then (t.modDec c fun e => { e with held := e.held ++ [d] }).decTakeBuf c n else (some d, t)

/-- The buffer of a picture: a held one that has been released first (R318). -/
def State.decBuffer (s : State) (c : Nat) : Option Words × State :=
  let e := s.decS c
  match e.held.find? fun d => !e.inUse d with
  | some d => (some d, s.modDec c fun e => { e with held := e.held.filter (· != d) })
  | none => s.decTakeBuf c ((s.qItems (ecQ (s.scx c) 2)).length + 1)

/-- A decoded picture's samples and its motion data are written (R316, R318). -/
def State.decStore (s : State) (p c buf bytes : Nat) : State :=
  let w := s.scx c
  let pix := s.drawBytes bytes
  let mot := pix.2.drawBytes (dcSlots w * ((ecW w + 15) / 16 * ((ecH w + 15) / 16) * 16))
  (mot.2.busWrite p buf pix.1).busWrite p (dwordAt w 8) mot.1

/-- Faults and counts of lost CTBs and substituted references (R321, R322). -/
def State.decFaults (s : State) (p : Nat) (lost poison : Bool) (missing : Nat) : State :=
  let s1 := if lost then (s.raise p 10).count p Off.dec_CNT_ERR 0 16 1 else s
  let s2 := if poison then s1.raise p 13 else s1
  if missing ≠ 0 then (s2.raise p 11).count p Off.dec_CNT_CONCEAL 16 16 missing else s2

/-- A supported picture is decoded (R316 to R323). -/
def State.decPicture (s : State) (p c : Nat) (a : AccessUnit) : State :=
  let w := s.scx c
  let e := s.decS c
  let newSize := a.irap && e.dims.isSome && decide (e.dims ≠ some (a.w, a.h))
  let s0 := if newSize then
      let t := if a.noOutputPrior then s.modDec c fun e => { e with dpb := e.dpb.map fun x => { x with wait := false } } else s.decFlush p c
      t.modDec c fun e => { e with geom := true }
    else s
  let seq := if a.irap then e.seq + 1 else e.seq
  let here := (s0.decS c).dpb.filter fun x => x.ref && x.seq == seq && a.refs.contains x.poc
  let missing := a.refs.filter fun r => !here.any fun x => x.poc == r
  let lost := a.lost || e.cut || e.poison
  let conc := lost || !missing.isEmpty || a.refPoison || here.any fun x => x.flags.testBit 8
  let flags := a.refPoison.toNat + conc.toNat * 256 + (!missing.isEmpty).toNat * 512 + lost.toNat * 1024 + (a.luma - 8) % 16 * 4096
  let s1 := s0.modDec c fun e =>
    { e with seq := seq, waitIrap := false, dims := some (a.w, a.h),
             dpb := (e.dpb.map fun x => { x with ref := x.ref && here.contains x }).filter fun x => x.wait || x.ref }
  let b := s1.decBuffer c
  let bytes := ycBytes ((decFormat a.chroma (max a.luma a.chromaBits)).getD 4) (ecStride w) a.h
  let pic : DecPic := { seq := seq, poc := a.poc, ref := false, wait := true, time := e.time }
  let r : DecPic × State := match b.1 with
    | none =>
      let k := b.2.drawWord
      ({ pic with flags := 2, token := k.1.toNat }, (k.2.raise p 12).count p Off.dec_CNT_NOBUF 0 16 1)
    | some d =>
      if (wordAt d 2).toNat < bytes then
        ({ pic with buf := dwordAt d 0, token := (wordAt d 3).toNat, flags := 4 }, b.2.count p Off.dec_CNT_NOBUF 16 16 1)
      else
        ({ pic with ref := true, buf := dwordAt d 0, token := (wordAt d 3).toNat, bytes := bytes, flags := flags },
         (b.2.decFaults p lost e.poison missing.length).decStore p c (dwordAt d 0) bytes)
  let s2 := r.2.modDec c fun e => { e with dpb := e.dpb ++ [r.1] }
  if bitAt (wordAt w 0) 2 then s2.decFlush p c else s2

/-- DEC_ACCESS_UNIT (R313, R316 to R323): the complete access unit of the session in service is decoded, discarded before
the first IRAP picture, or counted UNSUPPORTED. `err` is what ECC found in the decoder's own memory, an uncorrectable word counting as a
bitstream byte (notes/assumptions/180.md). -/
def execDecAccessUnit (p : Nat) (a : AccessUnit) (err : ReadErr) (s : State) : Step :=
  match (s.codecBlk p).cur with
  | none => .next s
  | some c =>
    let e := s.decS c
    if !s.alive p || pageKind p ≠ .dec || !e.complete || decide (e.st ≠ 1) then .next s
    else
      let r := s.codecErr p err
      let t := if r.1 = .uncorrectable then r.2.modDec c fun e => { e with poison := true } else r.2
      if e.waitIrap && !a.irap then .next (t.decBoundary p c)
      else if !decSupported (t.scx c) a then
        .next ((((t.count p Off.dec_CNT_ERR 16 16 1).raise p 9).modDec c fun e => { e with waitIrap := true }).decBoundary p c)
      else .next (((t.decPicture p c a).sessRuntime p c).decBoundary p c)

/-! ## JPEG XS -/

/-- Slices of a picture and bytes of one (R310, R311). -/
def xsSliceH (w : Words) : Nat := wfld (wordAt w 7) 16 11
def xsSlices (w : Words) : Nat := (ecH w + xsSliceH w - 1) / max 1 (xsSliceH w)
def xsBytes (w : Words) : Nat := (wfld (wordAt w 7) 0 8 * ecW w * xsSliceH w / 16 + 7) / 8
/-- FORMAT of an XS session. -/
def xsFormat (w : Words) : Nat := wfld (wordAt w 0) 2 3

/-- A JPEG XS picture ends: PIC_EVC, counts, and a STOP that waits. -/
def State.xsEnd (s : State) (p c flags : Nat) : State :=
  (((s.modDec c fun e => { e with xs := none }).sessRuntime p c).decDone p c flags).decBoundary p c

/-- A source that an XS encode does not code (R296, R306). -/
def State.xsDrop (s : State) (p c : Nat) (src : Words) (fl : Nat) (buf : Option (Nat × Nat)) : State :=
  let r := s.drawWord
  let q := r.2.drawWord
  let u := match buf with
    | some b => (b.1, b.2, s)
    | none => (r.1.toNat, q.1.toNat, q.2)
  let poc := u.2.2.drawWord
  ((poc.2.sessPost p c 3 (encDesc u.1 0 (wordAt src 4).toNat (1 + 128 + fl) 0 poc.1.toNat u.2.1)).sessPost p c 1 src).sessPicEvt p c

/-- An XS encode takes a source and a buffer for its next picture. -/
def State.xsEncStart (s : State) (p c : Nat) : State :=
  let w := s.scx c
  match s.take (ecQ w 0) with
  | (none, t) => t
  | (some d, t) =>
    if srcUnusable d then t.xsDrop p c d 0 none
    else match t.take (ecQ w 2) with
      | (none, u) => ((u.xsDrop p c d 8192 none).raise p 12).count p Off.dec_CNT_NOBUF 0 16 1
      | (some b, u) =>
        if (wordAt b 2).toNat < xsBytes w * xsSlices w then u.xsDrop p c d 0 (some (dwordAt b 0, (wordAt b 3).toNat))
        else (u.modDec c fun e =>
          { e with xs := some { src := some d, buf := dwordAt b 0, size := (wordAt b 2).toNat, token := (wordAt b 3).toNat,
                                flags := if bitAt (wordAt d 5) 0 then 32 else 0 } }).codecStart p c

/-- An XS encode codes one slice in exactly its budget (R311) and posts its descriptor. -/
def State.xsEncSlice (s : State) (p c : Nat) (f : XsPic) : State :=
  let w := s.scx c
  let n := xsBytes w
  let data := s.drawBytes n
  let poc := data.2.drawWord
  let last := decide (xsSlices w ≤ f.slice + 1)
  let d := f.src.getD []
  let addr := f.buf + n * f.slice
  let s1 := (poc.2.busWrite p addr data.1).sessPost p c 3
    (encDesc addr n (wordAt d 4).toNat (f.flags + last.toNat) (f.slice % 256) poc.1.toNat f.token)
  if last then (s1.sessPost p c 1 d).xsEnd p c 0
  else s1.modDec c fun e => { e with xs := some { f with slice := f.slice + 1 } }

/-- FLAGS of an XS decode: CODED_BITS of its profile. -/
def xsCoded (w : Words) : Nat := (if xsFormat w = 5 then 2 else 4) * 4096

/-- An XS decode takes a buffer for a complete access unit; without one the picture is lost (R312, R318). -/
def State.xsDecStart (s : State) (p c : Nat) : State :=
  let w := s.scx c
  let e := s.decS c
  let need := ycBytes (xsFormat w) (ecStride w) (ecH w)
  let lost := fun (t : State) (buf fl tok : Nat) =>
    ((t.sessPost p c 3 [wd buf, wd (buf / 2 ^ 32), wd e.time, wd (e.time / 2 ^ 32), wd e.count, wd fl, 0, wd tok]).modDec c fun e =>
      { e with count := e.count + 1 }).xsEnd p c fl
  match s.take (ecQ w 2) with
  | (none, t) =>
    let k := t.drawWord
    lost ((k.2.raise p 12).count p Off.dec_CNT_NOBUF 0 16 1) 0 2 k.1.toNat
  | (some b, t) =>
    if (wordAt b 2).toNat < need then lost (t.count p Off.dec_CNT_NOBUF 16 16 1) (dwordAt b 0) 4 (wordAt b 3).toNat
    else t.modDec c fun e =>
      { e with xs := some { buf := dwordAt b 0, size := need, token := (wordAt b 3).toNat, time := e.time,
                            flags := xsCoded w + (if e.poison then 256 else 0) } }

/-- An XS decode handles one slice: a lost or poisoned one is replaced (R312). -/
def State.xsDecSlice (s : State) (p c : Nat) (lost : Bool) (f : XsPic) : State :=
  let w := s.scx c
  let e := s.decS c
  let s0 := if e.poison && f.slice == 0 then s.raise p 13 else s
  let s1 := if lost then s0.raise p 10 else s0
  let fl := if lost then Nat.lor f.flags 256 else f.flags
  if f.slice + 1 < xsSlices w then s1.modDec c fun e => { e with xs := some { f with slice := f.slice + 1, flags := fl } }
  else
    let pix := s1.drawBytes f.size
    let s2 := (pix.2.busWrite p f.buf pix.1).sessPost p c 3
      [wd f.buf, wd (f.buf / 2 ^ 32), wd f.time, wd (f.time / 2 ^ 32), wd e.count, wd fl, wd f.size, wd f.token]
    (s2.modDec c fun e => { e with count := e.count + 1 }).xsEnd p c fl

/-- XS_SLICE (R310 to R312): the session in service of XS codec `n` encodes or decodes its next slice; `lost` says that a slice
to decode is lost or truncated, `err` what ECC found in the codec's own memory. -/
def execXsSlice (n : Nat) (lost : Bool) (err : ReadErr) (s0 : State) : Step :=
  let p := pXS n
  match (s0.codecBlk p).cur with
  | none => .next s0
  | some c =>
    let e := s0.decS c
    if !s0.alive p || decide (e.st ≠ 1) then .next s0
    else
      let r := s0.codecErr p err
      let s := r.2
      let enc := bitAt (wordAt (s.scx c) 0) 1
      let s1 := if e.xs.isSome then s
        else if enc then (if s.mayBegin p c then s.xsEncStart p c else s)
        else if e.complete then s.xsDecStart p c else s
      match (s1.decS c).xs with
      | none => .next s1
      | some f => .next (if enc then s1.xsEncSlice p c f else s1.xsDecSlice p c (lost || r.1 == .uncorrectable) f)

/-- Computed registers of the codec pages. -/
def State.viewCodec (s : State) (p o : Nat) : Option Word :=
  match pageKind p with
  | .henc =>
    if o = Off.henc_SESSIONS then some (wd (s.sessions p).length)
    else if o = Off.henc_UTIL then some (wd (s.codecUtil p)) else none
  | .dec | .xs =>
    if o = Off.dec_SESSIONS then some (wd (s.sessions p).length)
    else if o = Off.dec_UTIL then some (wd (s.codecUtil p)) else none
  | _ => none

/-- Is a codec page idle (R324)? -/
def State.codecPageIdle (s : State) (p : Nat) : Bool :=
  (s.sessions p).isEmpty && !(pageKind p = .henc && s.encMember (p - pHENC 0))

end Sys2Proof.Machine
end

