-- ==== Sys2Proof/Machine/Dram.lean ====
section
/-!
DEFINITION. The service cores' caches (R34, R35), the memory controllers (R460 to R470) and the guard table
(R471, R472).
-/

namespace Sys2Proof.Machine

open Sys2Proof

/-! ## Accepted transactions, and the service cores' caches -/

/-- Arbitration point `n`. -/
def State.arb (s : State) (n : Nat) : ArbPoint := Map.get (fun _ => {}) s.fab n

/-- Update arbitration point `n`. -/
def State.modArb (s : State) (n : Nat) (f : ArbPoint → ArbPoint) : State :=
  s.onFab fun m => Map.put (fun _ => {}) m n (f (Map.get (fun _ => {}) m n))

/-- Has controller `n` accepted a transaction of page `mp` before the page was fenced (R47, R49)? -/
def State.acceptedBefore (s : State) (n mp : Nat) : Bool :=
  (s.arb n).accepted.any fun e => e.2.page == mp && decide (e.1 < (s.pageRt mp).fencedAt)

/-- The oldest accepted transaction of page `mp` at controller `n` is being performed. -/
def State.perform (s : State) (n mp : Nat) : State :=
  if (s.arb n).accepted.any (fun e => e.2.page == mp) then
    s.modArb n fun p => { p with accepted := p.accepted.eraseP fun e => e.2.page == mp }
  else s

/-- A 64-byte block that logical core `h` reads or writes stands in the L2 and in its L1 cache, the instruction cache for a fetch
(R34): 32,768 and 512 lines, the line used longest ago makes room; a write takes the line out of the other cores' L1 caches. -/
def State.cacheFill (s : State) (h a : Nat) (fetch write : Bool) : State :=
  let put := fun (l : List Nat) (n : Nat) => (a / 64 :: l.filter (· != a / 64)).take n
  let drop := fun (m : Map (List Nat)) => if write then m.map (fun e => if e.1 = h then e else (e.1, e.2.filter (· != a / 64))) else m
  s.onPlat fun t =>
    { t with l2 := put t.l2 32768,
             l1i := if fetch then Map.ins t.l1i h (put (Map.get (fun _ => []) t.l1i h) 512) else drop t.l1i,
             l1d := if fetch then t.l1d else Map.ins (drop t.l1d) h (put (Map.get (fun _ => []) t.l1d h) 512) }

/-! ## Address decode, activations -/

/-- Controller `n`'s own state. -/
def State.dctl (s : State) (n : Nat) : DramCtl := Map.get (fun _ => {}) s.dram.ctl n

/-- Update controller `n`'s own state. -/
def State.modDctl (s : State) (n : Nat) (f : DramCtl → DramCtl) : State :=
  s.onDram fun d => { d with ctl := Map.put (fun _ => {}) d.ctl n (f (Map.get (fun _ => {}) d.ctl n)) }

/-- Row slot, column, bank and row of a controller-local byte address (R463). -/
structure DramAddr where
  slot : Nat
  col : Nat
  bank : Nat
  row : Nat
deriving DecidableEq, Repr

/-- Address decode of R463: bank bit k is the parity of S under BANK_HASHk. -/
def State.decodeLocal (s : State) (l : Nat) : DramAddr :=
  let blk := l / 64
  let slot := blk / 56
  let b := fun k => parity (Nat.land slot (s.reg pDRAMCOM (Off.dramcom_BANK_HASH0 + 4 * k)).toNat) 32
  { slot := slot, col := blk % 56, bank := b 0 + 2 * b 1 + 4 * b 2 + 8 * b 3, row := slot / 16 }

/-- The offset in the DRAM window that controller `n`'s local byte address `l` stands for (the inverse of R463). -/
def State.globalOf (s : State) (n l : Nat) : Nat :=
  let c := s.controllers
  let base := l / 2 ^ 11 * (2 ^ 11 * c) + l % 2 ^ 11
  match (List.range c).find? (fun x => s.ctlOf (base + x * 2 ^ 11) = n) with
  | some x => base + x * 2 ^ 11
  | none => base

/-- The entry of an activation table with the lowest count, the first of equals. -/
def lowestEntry : List (Nat × Nat) → Option (Nat × Nat)
  | [] => none
  | e :: es => match lowestEntry es with
    | none => some e
    | some f => if f.2 < e.2 then some f else some e

/-- Replace the first entry equal to `e`. -/
def replaceEntry (e f : Nat × Nat) : List (Nat × Nat) → List (Nat × Nat)
  | [] => []
  | x :: xs => if x = e then f :: xs else x :: replaceEntry e f xs

/-- A row's activation in a 64-entry table (R467): its new table and its count. -/
def activate (t : List (Nat × Nat)) (row : Nat) : List (Nat × Nat) × Nat :=
  match t.find? (fun e => e.1 == row) with
  | some e => (replaceEntry e (row, e.2 + 1) t, e.2 + 1)
  | none =>
    if t.length < 64 then (t ++ [(row, 1)], 1)
    else match lowestEntry t with
      | some e => (replaceEntry e (row, e.2 + 1) t, e.2 + 1)
      | none => ([(row, 1)], 1)

/-- One activation at controller `n` (R467, R468): at ACT_THR with TRR_EN the row's neighbours are refreshed, its count
restarts and CNT_TRR counts; at RAAIMT, where the devices require it, RFM follows. -/
def State.activation (s : State) (n : Nat) (a : DramAddr) : State :=
  let t := Map.get (fun _ => []) (s.dctl n).act a.bank
  let r := activate t a.row
  let trr := decide (s.fld (pDRAM n) Off.dram_ACT_CFG 0 16 ≤ r.2) && s.bit (pDRAM n) Off.dram_ACT_CFG 16
  let t' := if trr then replaceEntry (a.row, r.2) (a.row, 0) r.1 else r.1
  let raa := Map.get (fun _ => 0) (s.dctl n).raa a.bank + 1
  let rfm := Config.rfmRequired && decide (Config.raaimt ≤ raa)
  let s1 := s.modDctl n fun d =>
    { d with act := Map.put (fun _ => []) d.act a.bank t',
             raa := Map.put (fun _ => 0) d.raa a.bank (if rfm then raa - Config.raaimt else raa) }
  let s2 := if trr then s1.count (pDRAM n) Off.dram_CNT_TRR 0 16 1 else s1
  if rfm then s2.count (pDRAM n) Off.dram_CNT_TRR 16 16 1 else s2

/-- A read's syndrome at controller `n` (R462): a corrected read counts with CE_ADDR; an uncorrectable one arising in
DRAM counts with UE_ADDR and fault 8 UE with PG_EVT_OUT0. -/
def State.eccRead (s : State) (n l : Nat) : ReadErr → State
  | .clean => s
  | .corrected => (s.setReg (pDRAM n) Off.dram_CE_ADDR (wd (l / 64))).count (pDRAM n) Off.dram_CNT_ECC 0 16 1
  | .uncorrectable =>
    (((s.setReg (pDRAM n) Off.dram_UE_ADDR (wd (l / 64))).count (pDRAM n) Off.dram_CNT_ECC 16 16 1).raise
      (pDRAM n) 8).produce (pDRAM n) 0

/-- A service core's access that meets poison raises an access fault, with mcause and mtval (R499). -/
def State.corePoison (s : State) (mp : Nat) (c : CoreAccess) (bad : Bool) : State :=
  if bad then s.onPlat fun t => { t with coreTrap := Map.ins t.coreTrap (mp - pSVC 0) c.fault } else s

/-- DRAM_ACCESS (R460 to R463, R467, R468, R472): the block of page `mp` reads the 64-byte block of address `a`, or
writes `w` at `a` within its block; `err` is what ECC finds on the read or on a partial write's merge read, `act`
whether the access activates its row. A merge read that comes back poison-marked stores the block as poison. An access of a
fenced block is dropped unless the controller had accepted it (R46, R47, R49). A service core's access fills its caches (R34), and
poison that it meets is its access fault (R499); `core` says which access of the core it is. -/
def execDramAccess (mp : Nat) (a : Nat) (w : Option (List Byte)) (err0 : ReadErr) (act : Bool) (core : CoreAccess) (s0 : State) : Step :=
  let n := s0.ctlOf (a - dramBase)
  if s0.fenced mp && !s0.acceptedBefore n mp then .next (s0.perform n mp)
  else
  let hart := pageKind mp = .svc
  let sp := s0.perform n mp
  let sc := if hart ∧ sp.inDram a 1 then sp.cacheFill (mp - pSVC 0) a core.isFetch w.isSome else sp
  let whole := (w.map fun bs => decide (bs.length = 64) && decide (a % 64 = 0)).getD false
  let hit := if sc.inDram a 1 && !whole then sc.takeErr (pDRAM n) err0 else (err0, sc)
  let err := hit.1
  let s := hit.2
  let l := s.localOf (a - dramBase)
  let reach := s.inDram a 1 && decide (s.fld (pPWR 1) Off.pwr1_STATE 0 2 ≠ 1) && s.alive (pDRAM n)
  let s1 := if reach && act then s.activation n (s.decodeLocal l) else s
  match w with
  | none =>
    if !reach || err = .clean || s1.poisoned a then
      let r := s1.busRead (a / 64 * 64) 64
      .next ((r.2.onResp fun _ => { value := wd (ofLeBytes (r.1.bytes.take 4)), poison := r.1.bad,
                                    words := bytesWords 16 r.1.bytes }).corePoison mp core (hart && r.1.bad))
    else
      let s2 := s1.eccRead n l err
      let bad := decide (err = .uncorrectable)
      let bs := if bad then List.replicate 64 0 else s2.peek (a / 64 * 64) 64
      .next ((s2.onResp fun _ => { value := wd (ofLeBytes (bs.take 4)), poison := bad, words := bytesWords 16 bs }).corePoison mp core (hart && bad))
  | some bs =>
    if hart && core.isAmo && reach && (s1.poisoned a || decide (err = .uncorrectable)) then
      .next ((if s1.poisoned a then s1.count (pDRAM n) Off.dram_CNT_POISON 0 32 1 else s1.eccRead n l err).corePoison mp core true)
    else if !reach || whole || err = .clean || s1.poisoned a then .next (s1.busStore mp a (bs.take (64 - a % 64)))
    else if s1.guardHit mp a bs.length ≠ none then .next (s1.busStore mp a (bs.take (64 - a % 64)))
    else
      let s2 := s1.eccRead n l err
      if err = .uncorrectable then .next ((s2.poke (a / 64 * 64) (List.replicate 64 0)).setPoison a true)
      else .next (s2.busStore mp a (bs.take (64 - a % 64)))

/-- One byte lane of a per-lane register. -/
def laneOf (w : Word) (i : Nat) : Nat := wfld w (8 * i) 8

/-- A delay moves one tap towards its target (R465, step 5). -/
def stepTap (cur target : Nat) : Nat := if cur < target then cur + 1 else if target < cur then cur - 1 else cur

/-- Every lane's delays of a controller move one tap towards the centres of their last sweeps. -/
def State.stepDelays (s : State) (n : Nat) : Nat → State
  | 0 => s
  | i + 1 =>
    let t := (s.dctl n).target
    let rd := laneOf (s.reg (pDRAM n) Off.dram_CUR_RD) i
    let wr := laneOf (s.reg (pDRAM n) Off.dram_CUR_WR) i
    ((s.setFld (pDRAM n) Off.dram_CUR_RD (8 * i) 8 (stepTap rd (Map.get (fun _ => rd) t i))).setFld
      (pDRAM n) Off.dram_CUR_WR (8 * i) 8 (stepTap wr (Map.get (fun _ => wr) t (4 + i)))).stepDelays n i

/-- REFRESH_WINDOW (R465, R467): the activation tables of controller `n` are cleared, and delays on their way to a new
centre move one tap. -/
def execRefreshWindow (n : Nat) (s : State) : Step :=
  .next ((s.modDctl n fun d => { d with act := [] }).stepDelays n 4)

/-- Is the controller in RUN (R465)? -/
def State.dramRun (s : State) (n : Nat) : Bool := s.alive (pDRAM n) && decide (s.fld (pDRAM n) Off.dram_STATE 0 3 = 2)

/-- The DRAM_TRAIN record of controller `n` (R465, step 6; its payload layout is notes/assumptions/22.md). -/
def State.trainRecord (s : State) (n : Nat) : CocoonReq :=
  { rank := 4, off := 0x10000 + 0x400 * n, type := 0x1010 + n,
    payload := leBytes 4 (s.fld pDRAMCOM Off.dramcom_TOPO 2 3) ++
      leBytes 4 (s.reg (pDRAM n) Off.dram_CUR_RD).toNat ++ leBytes 4 (s.reg (pDRAM n) Off.dram_CUR_WR).toNat }

/-- DRAM_BG_SWEEP (R465): in RUN and HW mode a sweep of one lane finds its eye: its width, the centres of the read and
write delays; a width below EYE_MIN sets EYE_NARROW with PG_EVT_OUT2; a centre 2 taps or more from Cocoon's copy is
written to Cocoon. -/
def execDramBgSweep (n lane rd wr width : Nat) (s : State) : Step :=
  if !s.dramRun n || s.bit (pDRAM n) Off.dram_TRAIN 0 then .next s
  else
    let i := lane % 4
    let s1 := (s.setFld (pDRAM n) Off.dram_EYE (8 * i) 8 width).count (pDRAM n) Off.dram_CNT_TRAIN 0 16 1
    let s2 := s1.setFld (pDRAM n) Off.dram_STATE 4 2 i
    let s3 := if width < s.fld (pDRAM n) Off.dram_TRAIN 8 8 then (s2.raise (pDRAM n) 9).produce (pDRAM n) 2 else s2
    let old := fun k => laneOf (wd (s.peekNat (cocoonBase + 0x10000 + 0x400 * n + 36 + 4 * k) 4)) i
    let far := fun c k => decide (c + 2 ≤ old k) || decide (old k + 2 ≤ c)
    let s4 := s3.modDctl n fun d =>
      { d with target := Map.ins (Map.ins d.target i (rd % 256)) (4 + i) (wr % 256), sweep := d.sweep.filter (· != i) }
    let s5 := if far (rd % 256) 0 || far (wr % 256) 1 then s4.cocoonPut (s4.trainRecord n) else s4
    .next (if i = 3 then s5.onPower fun w => { w with sweepLap := true } else s5)

/-- MARGIN_CHECK (R466): every 10 ms a lane is tested; a failing edge counts MARGIN_LOW, sets fault 15, and in HW mode queues the lane. -/
def execMarginCheck (n lane : Nat) (fails : Bool) (s0 : State) : Step :=
  if !s0.dramRun n || !dueAgain (Map.get (fun _ => none) (s0.dctl n).margin (lane % 4)) 2500000 s0.now then .next s0
  else
    let s := s0.modDctl n fun d => { d with margin := Map.put (fun _ => none) d.margin (lane % 4) (some s0.now) }
    if !fails then .next s
    else
    let s1 := (s.count (pDRAM n) Off.dram_CNT_TRAIN 16 16 1).raise (pDRAM n) 15
    if s.bit (pDRAM n) Off.dram_TRAIN 0 then .next s1
    else .next (s1.modDctl n fun d => { d with sweep := if d.sweep.contains (lane % 4) then d.sweep else d.sweep ++ [lane % 4] })

/-- Add a drift in taps to a lane's delay, within 0 to 255. -/
def addTap (t : Nat) (d : Int) : Nat := ((max 0 (min 255 (t + d))) : Int).toNat

/-- Correct lanes 0 to 3 by the drifts measured. -/
def State.driftLanes (s : State) (n i : Nat) : List Int → State
  | [] => s
  | d :: ds =>
    let rd := laneOf (s.reg (pDRAM n) Off.dram_CUR_RD) i
    let wr := laneOf (s.reg (pDRAM n) Off.dram_CUR_WR) i
    ((s.setFld (pDRAM n) Off.dram_CUR_RD (8 * i) 8 (addTap rd d)).setFld (pDRAM n) Off.dram_CUR_WR (8 * i) 8
      (addTap wr d)).driftLanes n (i + 1) ds

/-- WCK_OSC_READ (R466): every 10 ms the oscillators' drift, in taps per lane, corrects every lane's delays in both modes. -/
def execWckOscRead (n : Nat) (drift : List Int) (s : State) : Step :=
  if s.dramRun n && dueAgain (s.dctl n).osc 2500000 s.now then
    .next ((s.modDctl n fun d => { d with osc := some s.now }).driftLanes n 0 (drift.take 4)) else .next s

/-! ## Scrubbing and page retirement -/

/-- Retire the local page of block `b` (R470): the next free entry of 64, CE_HARD, PG_EVT_OUT1, the Silk record and the
RETIRE record for Cocoon; a full table sets RETIRE_FULL. The spare page holds what the page held, so the bytes at the
physical address stay. -/
def State.retirePage (s : State) (n b : Nat) : State :=
  let page := b / 64
  let used := s.fld (pDRAM n) Off.dram_RETIRE_STAT 0 7
  if 64 ≤ used then (s.raise (pDRAM n) 11).silk 0x1001 (pDRAM n) page 0xFF 0
  else
    let s1 := s.setReg (pDRAM n) (Off.dram_RETIRE + 4 * used) (wd (page % 2 ^ 21 + 2 ^ 31))
    let s2 := s1.setFld (pDRAM n) Off.dram_RETIRE_STAT 0 7 (used + 1)
    let s3 := ((s2.raise (pDRAM n) 13).produce (pDRAM n) 1).silk 0x1001 (pDRAM n) page used 0
    s3.cocoonPut { rank := 3, off := 0x14000 + 0x200 * n, type := 0x1030 + n,
                   payload := wordsBytes (s3.regs32 (pDRAM n) Off.dram_RETIRE 64) }

/-- A correction by a scrubber (R502): its new history of at most `cap` addresses, and whether the address is hard. -/
def noteCorrection (hist : List (Nat × Nat)) (cap window lap addr : Nat) : List (Nat × Nat) × Bool :=
  let hard := match hist.find? (fun e => e.1 == addr) with
    | some e => decide (lap - e.2 ≤ window)
    | none => false
  (((addr, lap) :: hist.filter (fun e => e.1 != addr)).take cap, hard)

/-- CE_REPEAT_WINDOW of WARDEN.CFG (R502). -/
def State.repeatWindow (s : State) : Nat := s.fld pWARDEN Off.warden_CFG 4 4

/-- Blocks in a controller's local space, spare pages included (R463, R469). -/
def State.localBlocks (s : State) : Nat := s.rawCap / 8 * 7 / 64

/-- DRAM_SCRUB_STEP (R469, R501 to R503): controller `n`'s scrubber reads the next block, `err` being what ECC finds
and `again` whether the block still errs when read back. A correctable block is rewritten and enters the history, an
uncorrectable one is rewritten as the poison code; a hard block retires its page. At the lap's end SCRUB_STAT shows its
length and a lap past LAP_TARGET sets SCRUB_SLOW. -/
def execDramScrubStep (n : Nat) (err : ReadErr) (again : Bool) (s : State) : Step :=
  if !s.dramRun n || !s.bit pDRAMCOM Off.dramcom_SCRUB_CFG 16 then .next s
  else
    let b := (s.reg (pDRAM n) Off.dram_SCRUB_POS).toNat
    let a := dramBase + s.globalOf n (64 * b)
    let d := s.dctl n
    let s1 := match err with
      | .clean => s
      | .corrected =>
        let h := noteCorrection d.hist 64 s.repeatWindow d.lap b
        let s2 := s.modDctl n fun x => { x with hist := h.1 }
        if again || h.2 then s2.retirePage n b else s2
      | .uncorrectable =>
        let s2 := if s.inDram a 64 then (s.poke a (List.replicate 64 0)).setPoison a true else s
        if again then s2.retirePage n b else s2
    if b + 1 < s.localBlocks then .next (s1.setReg (pDRAM n) Off.dram_SCRUB_POS (wd (b + 1)))
    else
      let secs := (s.now - d.lapStart) / 250000000
      let s2 := (s1.setReg (pDRAM n) Off.dram_SCRUB_POS 0).setReg (pDRAM n) Off.dram_SCRUB_STAT
        (wd (min 65535 secs + (d.lap + 1) % 65536 * 65536))
      let s3 := s2.modDctl n fun x => { x with lap := d.lap + 1, lapStart := s.now }
      .next (if s.fld pDRAMCOM Off.dramcom_SCRUB_CFG 0 16 * 250000000 < s.now - d.lapStart then s3.raise (pDRAM n) 12
        else s3)

/-! ## DRAMCOM writes -/

/-- RES_WRITE (R28): a reservation pair whose sum exceeds 15.4 GB/s is discarded with QOS_OVERCOMMIT. -/
def execResWrite (m : Master) (n : Nat) (v : Word) (s : State) : Step :=
  .next (s.regWrite m pDRAMCOM (Off.dramcom_RES_n + 4 * n) fun t =>
    if 154 < wfld v 0 8 + wfld v 8 8 then t.raise pDRAMCOM 8
    else t.setReg pDRAMCOM (Off.dramcom_RES_n + 4 * n) (wd (wfld v 0 16)))

/-- Every controller is OFF (R473). -/
def State.dramIdle (s : State) : Bool := (List.range 16).all fun n => s.fld (pDRAM n) Off.dram_STATE 0 3 == 0

/-- The rule for BANK_HASHk (R464): bit k, no other of bits [3:0], and at most 6 bits set. -/
def hashOk (k : Nat) (v : Word) : Bool := decide (wfld v 0 4 = 2 ^ k) && decide (popCount v.toNat 32 ≤ 6)

/-- BANK_HASH_WRITE (R464): a mask that breaks the rule is discarded with HASH_INVALID; the field is idle-only. -/
def execBankHashWrite (m : Master) (k : Nat) (v : Word) (s : State) : Step :=
  let o := Off.dramcom_BANK_HASH0 + 4 * k
  .next (s.regWrite m pDRAMCOM o fun t =>
    if !hashOk k v then t.raise pDRAMCOM 9 else t.storeFields pDRAMCOM o t.dramIdle v)

/-- TOPO_WRITE (R473): a reserved DATA_RATE is discarded with TOPO_INVALID; the fields are idle-only. -/
def execTopoWrite (m : Master) (v : Word) (s : State) : Step :=
  .next (s.regWrite m pDRAMCOM Off.dramcom_TOPO fun t =>
    if 5 ≤ wfld v 2 3 then t.raise pDRAMCOM 11 else t.storeFields pDRAMCOM Off.dramcom_TOPO t.dramIdle v)

/-! ## Guard table commands -/

/-- Entry selected by G_SEL. -/
def State.gSel (s : State) : Nat := s.fld pDRAMGUARD Off.dramguard_G_SEL 0 7

/-- G_CMD_STAT: REJECTED with a reason, or neither; a rejection sets CFG_INVALID. -/
def State.gStat (s : State) (reason : Nat) : State :=
  if reason = 0 then s.setReg pDRAMGUARD Off.dramguard_G_CMD_STAT 0
  else (s.setReg pDRAMGUARD Off.dramguard_G_CMD_STAT (wd (2 + reason * 16))).raise pDRAMGUARD 9

/-- Replace guard entry `i`. -/
def State.setGuard (s : State) (i : Nat) (g : Guard) : State :=
  s.onDram fun d => { d with guard := Map.put (fun _ => {}) d.guard i g }

/-- G_LOAD (R471): the selected entry into the staging registers; firmware may read any entry. -/
def execGLoad (m : Master) (s : State) : Step :=
  .next (s.regWrite m pDRAMGUARD Off.dramguard_G_CMD fun t =>
    let g := t.guard t.gSel
    let t1 := t.setReg64 pDRAMGUARD Off.dramguard_G_BASE_LO (Off.dramguard_G_BASE_LO + 4) g.base
    let t2 := t1.setReg64 pDRAMGUARD Off.dramguard_G_LIMIT_LO (Off.dramguard_G_LIMIT_LO + 4) g.limit
    (t2.setReg pDRAMGUARD Off.dramguard_G_CTRL (wd (g.en.toNat + (decide (64 ≤ t.gSel)).toNat * 2 + g.exempt * 2 ^ 16
      + g.exemptSet * 2 ^ 26 + g.exemptEn.toNat * 2 ^ 31))).gStat 0)

/-- G_STORE (R471): reason 1 for a display entry, 2 for a range that is not whole 64-byte blocks with LIMIT at least
BASE, 3 for an EXEMPT page that names no block page; a change applies to writes after it. -/
def execGStore (m : Master) (s : State) : Step :=
  .next (s.regWrite m pDRAMGUARD Off.dramguard_G_CMD fun t =>
    let c := t.reg pDRAMGUARD Off.dramguard_G_CTRL
    let base := t.reg64 pDRAMGUARD Off.dramguard_G_BASE_LO (Off.dramguard_G_BASE_LO + 4)
    let limit := t.reg64 pDRAMGUARD Off.dramguard_G_LIMIT_LO (Off.dramguard_G_LIMIT_LO + 4)
    if t.gSel < 64 then t.gStat 1
    else if base % 64 ≠ 0 ∨ limit % 64 ≠ 63 ∨ limit < base then t.gStat 2
    else if bitAt c 31 && decide (pageKind (wfld c 16 10) = .none) then t.gStat 3
    else (t.setGuard t.gSel { en := bitAt c 0, base := base, limit := limit, exemptEn := bitAt c 31,
                              exempt := wfld c 16 10, exemptSet := 0 }).gStat 0)

/-- G_DISABLE (R471): clears EN of a firmware entry; a display entry is rejected with reason 1. -/
def execGDisable (m : Master) (s : State) : Step :=
  .next (s.regWrite m pDRAMGUARD Off.dramguard_G_CMD fun t =>
    if t.gSel < 64 then t.gStat 1 else (t.setGuard t.gSel { t.guard t.gSel with en := false }).gStat 0)

/-- Computed registers of DRAMCOM: the mapped bytes (R463). -/
def State.viewDram (s : State) (p o : Nat) : Option Word :=
  if p = pDRAMCOM ∧ o = Off.dramcom_WINDOW_LO then some (wd s.window)
  else if p = pDRAMCOM ∧ o = Off.dramcom_WINDOW_HI then some (wd (s.window / 2 ^ 32))
  else none

end Sys2Proof.Machine
end

