-- ==== Sys2Proof/Machine/Eyespot.lean ====
section
/-!
DEFINITION. Eyespot's decisions (R346 to R351).
-/

namespace Sys2Proof.Machine

open Sys2Proof

/-- SAFE_CLR (R350): the bits act at the next frame start. -/
def execSafeClr (m : Master) (n : Nat) (v : Word) (s : State) : Step :=
  .next (s.regWrite m (pEYE n) Off.eye_SAFE_CLR fun t =>
    t.modHead n fun h => { h with clr := Nat.lor h.clr (wfld v 0 16) })

/-- FREEZE_N of a region; 1 acts as 2 (R348). -/
def State.freezeN (s : State) (n r : Nat) : Nat :=
  let v := s.fld (pEYE n) (erOff r Off.eye_R_CFG) 3 4
  if v = 1 then 2 else v

/-- What a region learns from a frame that left the pads (R346, R348): CRCs, SAME and FROZEN. -/
def State.eyeSeen (s : State) (n r pad ref : Nat) : State :=
  let p := pEYE n
  let st := erOff r Off.eye_R_STAT
  let s1 := ((s.setReg p (erOff r Off.eye_PAD_CRC) (wd pad)).setReg p (erOff r Off.eye_REF_CRC) (wd ref)).count p
    Off.eye_CNT_CHECKED 0 32 1
  let s2 := if (s.eyeReg n r).prev = some pad then s1.count p st 16 16 1 else s1.setFld p st 16 16 0
  let s3 := s2.modEye n r fun e => { e with prev := some pad }
  let fz := s.freezeN n r
  let frozen := decide (0 < fz) && decide (fz ≤ s3.fld p st 16 16)
  let s4 := (s3.putBit p st 1 frozen).putBit p Off.eye_FROZEN_MAP r frozen
  if frozen && !s.bit p st 1 then (s4.count p Off.eye_CNT_FROZEN 0 32 1).raise p 9 else s4

/-- EYE_REGION_DECIDE (R347 to R350): a region whose last line has left the pads passes or fails. -/
def execEyeRegionDecide (n r : Nat) (s : State) : Step :=
  let p := pEYE n
  let e := s.eyeReg n r
  let cfg := s.reg p (erOff r Off.eye_R_CFG)
  if !s.alive p || !s.bit p Off.eye_E_CTRL 0 || !bitAt cfg 0 then .next s
  else match e.due with
    | none => .next s
    | some (frame, _) =>
      let st := erOff r Off.eye_R_STAT
      let pad := Nat.xor e.pad 0xFFFFFFFF
      let ref := Nat.xor e.ref 0xFFFFFFFF
      let s1 := s.modEye n r fun x => { x with due := none, inject := false }
      let s2 := if e.video then s1.eyeSeen n r pad ref
        else ((s1.count p Off.eye_CNT_UNCHECKED 0 32 1).raise p 11).produce p 2
      let want := if bitAt cfg 1 then (s.reg p (erOff r Off.eye_EXPECT)).toNat else ref
      let differs := e.video && decide (pad ≠ Nat.xor want e.inject.toNat)
      let marked := bitAt cfg 2 && e.marked
      let frozen := s2.bit p st 1 && bitAt cfg 7 && decide (0 < s.freezeN n r)
      let fail := differs || !e.video || marked || frozen
      let s3 := ((s2.putBit p st 0 fail).putBit p st 3 marked).putBit p Off.eye_FAIL_MAP r fail
      let s4 := s3.setReg p (erOff r Off.eye_R_FRAME) (wd frame)
      if !fail then .next (s4.setFld p st 8 8 0)
      else
        let s5 := ((s4.count p st 8 8 1).count p Off.eye_CNT_MISMATCH 0 32 1).raise p 8
        let s6 := if bitAt cfg 2 then s5.produce p 0 else s5
        let after := max 1 (s.fld p Off.eye_E_CTRL 1 3)
        if bitAt cfg 2 && !s.bit p Off.eye_SAFE_MAP r && decide (after ≤ s6.fld p st 8 8) then
          .next ((((s6.putBit p Off.eye_SAFE_MAP r true).putBit p st 2 true).modEye n r fun x => { x with safeAt := s.now }).raise p 10
            |>.produce p 1).fnUpdate
        else .next s6

/-- What SOFT_RST of an EYE page keeps and what it ends (R351): `was` is the state before the registers returned to reset. -/
def State.eyeReset (s was : State) (n : Nat) : State :=
  let p := pEYE n
  let keep := fun (t : State) (o : Nat) => t.setReg p o (was.reg p o)
  let s1 := [Off.eye_SAFE_MAP, Off.eye_WARN_BASE, Off.eye_WARN_SIZE, Off.eye_WARN_PAL0, Off.eye_WARN_PAL0 + 4, Off.eye_WARN_PAL0 + 8,
    Off.eye_WARN_PAL0 + 12].foldl keep s
  (List.range 16).foldl (fun t r =>
    let old := was.eyeReg n r
    if was.bit p Off.eye_SAFE_MAP r then
      ((keep (keep t (erOff r Off.eye_R_XY)) (erOff r Off.eye_R_WH)).putBit p (erOff r Off.eye_R_STAT) 2 true).modEye n r fun _ =>
        { shown := old.shown, safeAt := old.safeAt }
    else t.modEye n r fun _ => {}) s1

end Sys2Proof.Machine
end

