-- ==== Sys2Proof/Machine/Network.lean ====
section
/-!
DEFINITION. MACs: configuration and link (R378 to R382), transmission, launch times, headers and shaping (R383 to R394), and
the gate control list commands (R390 to R392).
-/

namespace Sys2Proof.Machine

open Sys2Proof

/-! ## Configuration and link -/

/-- MODE of a MAC. -/
def State.macMode (s : State) (n : Nat) : Nat := s.fld (pMAC n) Off.mac_CFG 0 3
/-- Lanes that a mode uses (*MAC modes*). -/
def modeLanes (m : Nat) : Nat := [0, 1, 1, 1, 1, 2, 4, 0].getD m 0
/-- LINK.UP. -/
def State.linkUp (s : State) (n : Nat) : Bool := s.bit (pMAC n) Off.mac_LINK 0
/-- Link rate in kb/s; SGMII runs at the speed in LINK. -/
def State.linkKbps (s : State) (n : Nat) : Nat :=
  match s.macMode n with
  | 1 => [10000, 100000, 1000000, 1000000].getD (s.fld (pMAC n) Off.mac_LINK 2 2) 1000000
  | 2 => 1000000
  | 3 => 10000000
  | 4 => 25000000
  | 5 => 50000000
  | 6 => 100000000
  | _ => 0

/-- An FEC code is allowed for a mode (*MAC modes*): the modes whose FEC is always on take RS-FEC or the reset code. -/
def fecOk (mode fec : Nat) : Bool :=
  match mode with
  | 3 => fec < 2
  | 4 => fec < 3
  | 5 | 6 => fec == 0 || fec == 2
  | _ => fec == 0

/-- MAC_CFG_WRITE (R379, R411): CFG is accepted while MODE is 0. -/
def execMacCfgWrite (m : Master) (n : Nat) (v : Word) (s : State) : Step :=
  .next (s.regWrite m (pMAC n) Off.mac_CFG fun t =>
    let mask : Nat := 0x3FFFF
    if wfld (t.reg (pMAC n) Off.mac_CFG) 0 18 = wfld v 0 18 then t
    else if t.macMode n ≠ 0 then t.stateWrite (pMAC n)
    else
      let mode := wfld v 0 3
      let first := wfld v 8 8
      let lanes := (List.range (modeLanes mode)).all fun i =>
        let l := first + i
        let w := t.reg (pSWIFT l) Off.swift_LANE_CFG
        decide (l < 192) && wfld w 0 3 == 1 && wfld w 8 8 == n && wfld w 16 4 == i
      if mode ≠ 0 ∧ ¬ (mode < 7 ∧ lanes ∧ fecOk mode (wfld v 3 2)) then t.raise (pMAC n) 8
      else (t.setReg (pMAC n) Off.mac_CFG (wd (v.toNat % (mask + 1)))).setFld (pMAC n) Off.mac_LINK 2 2 (wfld v 6 2))

/-- MAC_LINK_UP (R382): every lane holds lock; `speed` is what auto-negotiation found for SGMII. Preemption is then verified
(R394). -/
def execMacLinkUp (n speed : Nat) (s : State) : Step :=
  if !s.alive (pMAC n) || s.macMode n == 0 || s.linkUp n then .next s
  else
    let p := pMAC n
    let an := s.bit p Off.mac_CFG 5 && decide (s.macMode n ≤ 2)
    let first := s.fld p Off.mac_CFG 8 8
    let k := modeLanes (s.macMode n)
    let carried := fun (i : Nat) => if k = 1 then 0 else Config.pcsLane (first + i) s.now % 32
    let s1 := (List.range k).foldl (fun t i => t.setReg (pSWIFT (first + i)) Off.swift_ETH_LSTAT
      (wd (5 + (decide (1 < k)).toNat * 2 + carried i * 256))) s
    let s2 := (s1.putBit p Off.mac_LINK 0 true).putBit p Off.mac_LINK 1 an
    let s3 := if an && s.macMode n == 1 then s2.setFld p Off.mac_LINK 2 2 (min 2 speed) else s2
    let s4 := s3.setFld p Off.mac_LINK 4 4 (2 ^ k - 1)
    let verify := s4.bit p Off.mac_CFG 16 && !s4.bit (tsnPage n) (tsnOff n Off.tsn_PREEMPT) 17
    .next ((s4.setFld p Off.mac_LINK 8 2 (if verify then 1 else 0)).produce p 0)

/-- The link goes DOWN (R382). -/
def State.macDown (s : State) (n : Nat) : State :=
  if !s.linkUp n then s
  else
    let p := pMAC n
    (((s.putBit p Off.mac_LINK 0 false).setFld p Off.mac_LINK 8 2 0).count p Off.mac_CNT_LINK 0 16 1).raise p 9 |>.produce p 0

/-- MAC_LINK_DOWN (R382): lane `pos` of the MAC loses lock. -/
def execMacLinkDown (n pos : Nat) (s : State) : Step :=
  if !s.linkUp n then .next s
  else
    let l := s.fld (pMAC n) Off.mac_CFG 8 8 + pos
    .next (((s.setFld (pSWIFT l) Off.swift_ETH_LSTAT 0 2 0).putBit (pMAC n) Off.mac_LINK (4 + pos % 4) false).macDown n)

/-- Preemption is in use (R394). -/
def State.preempting (s : State) (n : Nat) : Bool :=
  s.bit (pMAC n) Off.mac_CFG 16 && s.linkUp n &&
    (s.bit (tsnPage n) (tsnOff n Off.tsn_PREEMPT) 17 || s.fld (pMAC n) Off.mac_LINK 8 2 == 2)

/-- Class `c` is express. -/
def State.express (s : State) (n c : Nat) : Bool := !s.preempting n || s.bit (tsnPage n) (tsnOff n Off.tsn_PREEMPT) c

/-- PREEMPT_VERIFY (R394): the verification procedure ends. -/
def execPreemptVerify (n : Nat) (ok : Bool) (s : State) : Step :=
  if s.fld (pMAC n) Off.mac_LINK 8 2 ≠ 1 then .next s
  else if ok then .next (s.setFld (pMAC n) Off.mac_LINK 8 2 2)
  else .next ((s.setFld (pMAC n) Off.mac_LINK 8 2 3).raise (pMAC n) 13)

/-! ## Credit-based shaping -/

/-- Ticks that bytes take on the wire. -/
def State.wireTicks (s : State) (n bytes : Nat) : Nat := (bytes * 8 * 250000 + s.linkKbps n - 1) / max 1 (s.linkKbps n)

/-- Shaper `i` (0 A, 1 B) of a MAC. -/
def State.cbs (s : State) (n i : Nat) : Word := s.reg (tsnPage n) (tsnOff n (Off.tsn_CBS_A + 4 * i))

/-- Credits up to the present tick (R393, IEEE 802.1Q): a class gains its idle slope while a frame waits or its credit is
negative, loses the rest of the link rate while it sends, keeps its credit while its gate is closed, and loses a positive
credit when nothing waits. -/
def State.creditStep (s : State) (n : Nat) : State :=
  let m := s.mac n
  let dt : Int := ((s.now - m.creditAt : Nat) : Int)
  let one := fun (c : Map Int) (i : Nat) =>
    let w := s.cbs n i
    let cls := wfld w 24 3
    let slope : Int := ((wfld w 0 24 : Nat) : Int)
    let old := Map.get (fun _ => 0) c i
    let sending := match m.cur with
      | some f => f.cls == cls
      | none => false
    let waits := ((Map.get (fun _ => none) m.heads cls).isSome)
    let new :=
      if !bitAt w 27 then 0
      else if sending then old + (slope - ((s.linkKbps n : Nat) : Int)) * dt
      else if !(s.gates n).testBit cls then old
      else if waits then old + slope * dt
      else min 0 (old + slope * dt)
    Map.put (fun _ => 0) c i new
  s.modMac n fun x => { x with credit := one (one x.credit 0) 1, creditAt := s.now }

/-- The credit of a class is not negative, or it is not shaped. -/
def State.creditOk (s : State) (n c : Nat) : Bool :=
  [0, 1].all fun i => !(bitAt (s.cbs n i) 27 && wfld (s.cbs n i) 24 3 == c) || decide (0 ≤ Map.get (fun _ => 0) (s.mac n).credit i)

/-- CBS_WRITE (R393): shaper `i` of MAC `n`. -/
def execCbsWrite (m : Master) (n i : Nat) (v : Word) (s : State) : Step :=
  .next (s.regWrite m (tsnPage n) (tsnOff n (Off.tsn_CBS_A + 4 * (i % 2))) fun t =>
    let o := t.cbs n (1 - i % 2)
    let slope := fun (w : Word) => if bitAt w 27 then wfld w 0 24 else 0
    let twice := bitAt v 27 && bitAt o 27 && wfld v 24 3 == wfld o 24 3
    if (t.linkKbps n * 3 < 4 * (slope v + slope o) ∧ 0 < slope v) ∨ twice then t.raise (tsnPage n) 8
    else (t.creditStep n).setReg (tsnPage n) (tsnOff n (Off.tsn_CBS_A + 4 * (i % 2))) (wd (v.toNat % 2 ^ 28)))

/-! ## Gate control lists -/

/-- GATE_ENTRY_CHANGE (R390): the interval of the entry in force has ended. -/
def execGateEntryChange (n : Nat) (s : State) : Step :=
  if (s.mac n).oper.isEmpty || decide (s.timeNs < (s.mac n).ends) then .next s else .next ((s.creditStep n).gateSeek n)

/-- GATE_COMMIT (R392): GATE_CTRL of MAC `n` is written with COMMIT. -/
def execGateCommit (m : Master) (n : Nat) (v : Word) (s : State) : Step :=
  .next (s.regWrite m (tsnPage n) (tsnOff n Off.tsn_GATE_CTRL) fun t =>
    let p := tsnPage n
    let o := tsnOff n Off.tsn_GATE_CTRL
    let t1 := (t.creditStep n).putBit p o 0 (bitAt v 0)
    if t.bit p o 2 then t1.stateWrite p
    else
      let t2 := t1.setFld p o 8 9 (wfld v 8 9)
      let len := wfld v 8 9
      let cyc := t2.fld p (tsnOff n Off.tsn_ADMIN_CYCLE) 0 30
      if len < 1 ∨ 256 < len ∨ cyc < 1000 ∨ 1000000000 < cyc then t2.raise p 8
      else
        let base := t2.reg64 p (tsnOff n Off.tsn_ADMIN_BASE_LO) (tsnOff n (Off.tsn_ADMIN_BASE_LO + 4))
        let soon := t2.timeNs + 1000
        let at_ := if soon ≤ base then base else base + (soon - base + cyc - 1) / cyc * cyc
        (t2.putBit p o 2 true).modMac n fun x => { x with change := some at_ })

/-- GATE_CONFIG_CHANGE (R392): the config change time has come. -/
def execGateConfigChange (n : Nat) (s : State) : Step :=
  match (s.mac n).change with
  | none => .next s
  | some t =>
    if s.timeNs < t then .next s
    else
      let p := tsnPage n
      let len := s.fld p (tsnOff n Off.tsn_GATE_CTRL) 8 9
      let list := (List.range len).map fun i => Map.get (fun _ => (0, 0)) (s.mac n).admin i
      let s1 := (s.creditStep n).modMac n fun x => { x with change := none, oper := list, idx := 0, ends := 0 }
      let s2 := (s1.putBit p (tsnOff n Off.tsn_GATE_CTRL) 2 false).setReg64 p (tsnOff n Off.tsn_OPER_BASE_LO)
        (tsnOff n (Off.tsn_OPER_BASE_LO + 4)) (s.reg64 p (tsnOff n Off.tsn_ADMIN_BASE_LO) (tsnOff n (Off.tsn_ADMIN_BASE_LO + 4)))
      let s3 := s2.setReg p (tsnOff n Off.tsn_OPER_CYCLE) (s.reg p (tsnOff n Off.tsn_ADMIN_CYCLE))
      .next (((s3.gateSeek n).count p (tsnOff n Off.tsn_CNT_GATE) 0 16 1).produce p 0)

/-- The MAC and entry that GCL_SEL of TSN page `k` names. -/
def State.gclSel (s : State) (k : Nat) : Nat × Nat :=
  (2 * k + s.fld (pTSN k) Off.tsn_GCL_SEL 8 1, s.fld (pTSN k) Off.tsn_GCL_SEL 0 8)

/-- Show a list entry in GCL_D0 and GCL_D1. -/
def State.gclShow (s : State) (k : Nat) (e : Word × Word) : State :=
  (s.setReg (pTSN k) Off.tsn_GCL_D0 e.1).setReg (pTSN k) Off.tsn_GCL_D1 e.2

/-- GCL_READ_ADMIN (R390). -/
def execGclReadAdmin (m : Master) (k : Nat) (s : State) : Step :=
  .next (s.regWrite m (pTSN k) Off.tsn_GCL_CMD fun t =>
    t.gclShow k (Map.get (fun _ => (0, 0)) (t.mac (t.gclSel k).1).admin (t.gclSel k).2))

/-- GCL_WRITE_ADMIN (R390, R392). -/
def execGclWriteAdmin (m : Master) (k : Nat) (s : State) : Step :=
  .next (s.regWrite m (pTSN k) Off.tsn_GCL_CMD fun t =>
    let x := t.gclSel k
    if (t.mac x.1).change.isSome then t.stateWrite (pTSN k)
    else t.modMac x.1 fun y =>
      { y with admin := Map.put (fun _ => (0, 0)) y.admin x.2 (t.reg (pTSN k) Off.tsn_GCL_D0, t.reg (pTSN k) Off.tsn_GCL_D1) })

/-- GCL_READ_OPER (R390). -/
def execGclReadOper (m : Master) (k : Nat) (s : State) : Step :=
  .next (s.regWrite m (pTSN k) Off.tsn_GCL_CMD fun t =>
    t.gclShow k (((t.mac (t.gclSel k).1).oper[(t.gclSel k).2]?).getD (0, 0)))

/-! ## Headers -/

/-- Big-endian bytes of a number. -/
def beBytes (n v : Nat) : List Byte := (leBytes n v).reverse
/-- The number that big-endian bytes stand for. -/
def ofBeBytes (bs : List Byte) : Nat := ofLeBytes bs.reverse
/-- `n` bytes of a frame at an offset as a big-endian number. -/
def fieldAt (bs : List Byte) (o n : Nat) : Nat := ofBeBytes ((bs.drop o).take n)
/-- Replace bytes of a frame from an offset on. -/
def patch (bs : List Byte) (o : Nat) (v : List Byte) : List Byte :=
  if o + v.length ≤ bs.length then bs.take o ++ v ++ bs.drop (o + v.length) else bs

/-- The ones' complement sum of 16-bit words. -/
def onesSum : List Byte → Nat
  | [] => 0
  | [a] => a.toNat * 256
  | a :: b :: rest => a.toNat * 256 + b.toNat + onesSum rest
/-- The Internet checksum of bytes. -/
def inetSum (bs : List Byte) : Nat :=
  let a := onesSum bs
  let b := a % 65536 + a / 65536
  let c := b % 65536 + b / 65536
  65535 - (c % 65536 + c / 65536)

/-- Offset of a frame's EtherType: after the address pair and, if there is one, the VLAN tag and the R-TAG. -/
def typeOffset (bs : List Byte) : Nat :=
  let a := if fieldAt bs 12 2 = 0x8100 then 16 else 12
  if fieldAt bs a 2 = 0xF1C1 then a + 6 else a

/-- A UDP/IPv4 frame's UDP header offset, if it is one. -/
def udpOffset (bs : List Byte) : Option Nat :=
  let t := typeOffset bs
  if fieldAt bs t 2 = 0x0800 ∧ fieldAt bs (t + 11) 1 = 17 then some (t + 2 + fieldAt bs (t + 2) 1 % 16 * 4) else none

/-- One-step insertion at a PTP header (R388): `ts` in 2^-16 ns. -/
def ptpInsert (bs : List Byte) (off ts : Nat) : List Byte :=
  let kind := fieldAt bs off 1 % 16
  let cf := fieldAt bs (off + 8) 8
  let b1 :=
    if kind = 0 then
      let ns := ts / 65536
      patch (patch bs (off + 34) (beBytes 6 (ns / 1000000000) ++ beBytes 4 (ns % 1000000000))) (off + 8)
        (beBytes 8 ((cf + ts % 65536) % 2 ^ 64))
    else if kind = 3 then patch bs (off + 8) (beBytes 8 ((ts + 2 ^ 64 - cf) % 2 ^ 64))
    else bs
  match udpOffset b1 with
  | some u => patch b1 (u + 6) [0, 0]
  | none => b1

/-- RTP flow of stream context `c`. -/
def State.flow (s : State) (c : Nat) : Flow := Map.get (fun _ => {}) s.net.flow c
/-- Update an RTP flow. -/
def State.modFlow (s : State) (c : Nat) (f : Flow → Flow) : State :=
  s.onNet fun t => { t with flow := Map.put (fun _ => {}) t.flow c (f (Map.get (fun _ => {}) t.flow c)) }
/-- Is context `c` an enabled flow of a direction (0 receive, 1 transmit)? -/
def State.flowOn (s : State) (c dir : Nat) : Bool :=
  s.scxKind c == 5 && bitAt (wordAt (s.scx c) 0) 0 && wfld (wordAt (s.scx c) 0) 1 1 == dir

/-- A frame built from a flow's template and its payload (R389). -/
def templateFrame (ctx : Words) (f : Flow) (payload : List Byte) (rtpTs : Word) (marker : Bool) : List Byte :=
  let t := ((wordsBytes ctx).drop 0x20).take 58
  let ipLen := 20 + 8 + 12 + payload.length
  let t1 := patch (patch (patch t 20 (beBytes 2 ipLen)) 22 (beBytes 2 (f.ident % 65536))) 28 [0, 0]
  let t2 := patch t1 28 (beBytes 2 (inetSum ((t1.drop 18).take 20)))
  let b1 := fieldAt t2 47 1
  let t3 := patch (patch (patch t2 47 (beBytes 1 (b1 % 128 + marker.toNat * 128))) 48 (beBytes 2 (f.seq % 65536))) 50
    (beBytes 4 rtpTs.toNat)
  let udpLen := 8 + 12 + payload.length
  let t4 := patch (patch t3 42 (beBytes 2 udpLen)) 44 [0, 0]
  let sum := inetSum ((t4.drop 30).take 8 ++ [0, 17] ++ beBytes 2 udpLen ++ t4.drop 38 ++ payload)
  let t5 := if bitAt (wordAt ctx 0) 4 then patch t4 44 (beBytes 2 (if sum = 0 then 65535 else sum)) else t4
  let all := t5 ++ payload
  if bitAt (wordAt ctx 0) 2 then all.take 16 ++ beBytes 2 0xF1C1 ++ [0, 0] ++ beBytes 2 (f.rtag % 65536) ++ all.drop 16 else all

/-! ## Transmission -/

/-- FLAGS bits, LENGTH and LAUNCH of a transmit descriptor. -/
def txFlag (d : Words) (b : Nat) : Bool := bitAt (wordAt d 2) (16 + b)
def txLen (d : Words) : Nat := wfld (wordAt d 2) 0 16
def txLaunch (d : Words) : Nat := dwordAt d 4
/-- A descriptor with a reserved bit set (*Transmit descriptor*). -/
def txReserved (d : Words) : Bool :=
  decide (wfld (wordAt d 2) 21 11 ≠ 0) || decide (wfld (wordAt d 3) 14 2 ≠ 0) || decide (wfld (wordAt d 3) 24 8 ≠ 0)

/-- A completion (R385): status code and bits in `st`, the timestamp in 2^-16 ns or none. -/
def txDone (d : Words) (st : Nat) (ts : Option Nat) : Words :=
  let t := match ts with
    | some v => if txFlag d 1 || txFlag d 2 then v else 0
    | none => 0
  [wordAt d 0, wordAt d 1, wordAt d 2, wordAt d 3, wd (t / 65536), wd (t / 65536 / 2 ^ 32), wd (t % 65536 + st * 65536), wordAt d 7]

/-- A frame is over: its completion waits for MAC_TX_COMPLETE, or for the other copy (R385, R398). -/
def State.txOver (s : State) (n : Nat) (f : TxFrame) (st : Nat) (ts : Option Nat) : State :=
  let w := txDone f.desc st ts
  match f.repl with
  | none => s.modMac n fun x => { x with comps := x.comps ++ [w] }
  | some (a, id, copy) =>
    s.modMac a fun x =>
      match x.repl.find? fun r => r.id == id with
      | none => x
      | some r =>
        let r1 := if copy then { r with b := true } else { r with a := some w }
        let rest := x.repl.filter fun y => y.id != id
        match r1.a with
        | some c => if r1.b then { x with repl := rest, comps := x.comps ++ [c] } else { x with repl := rest ++ [r1] }
        | none => { x with repl := rest ++ [r1] }

/-- Read the frame of a descriptor at the head of class `c` (R384, R386, R389, R398). -/
def State.txLoad (s : State) (n c : Nat) (d : Words) : State :=
  let p := pMAC n
  let len := txLen d
  let tmpl := txFlag d 3
  let scx := wfld (wordAt d 3) 0 14
  let ctx := s.scx scx
  let size := len + 4 + (if tmpl then 58 + (if bitAt (wordAt ctx 0) 2 then 6 else 0) else 0)
  let bad := txReserved d || decide (size < 64) || decide (s.fld p Off.mac_MAX_FRAME 0 14 < size) || (tmpl && !s.flowOn scx 1)
  let before := Map.get (fun _ => none) (s.mac n).launch c
  let ooo := txFlag d 0 && (match before with
    | some t => decide (txLaunch d < t)
    | none => false)
  let far := txFlag d 0 && decide (s.timeNs + s.fld p Off.mac_LAUNCH_CFG 16 8 * 1000000 < txLaunch d)
  let s1 := s.modMac n fun x =>
    if txFlag d 0 then { x with launch := Map.put (fun _ => none) x.launch c (some (txLaunch d)) } else x
  let put := fun (t : State) (f : TxFrame) => t.modMac n fun x => { x with heads := Map.put (fun _ => none) x.heads c (some f) }
  let fl := if ooo then 64 else 0
  if bad then put (s1.raise p 15) { cls := c, desc := d, bytes := [], st := some 4, flags := fl }
  else
    let r := s1.busRead (dwordAt d 0) len
    if r.1.bad then put (r.2.raise p 11) { cls := c, desc := d, bytes := [], st := some 5, flags := fl }
    else if !tmpl then
      put r.2 { cls := c, desc := d, bytes := r.1.bytes, st := if far then some 2 else none, flags := fl }
    else
      let f := r.2.flow scx
      let bs := templateFrame ctx f r.1.bytes (wordAt d 6) (txFlag d 4)
      let s2 := r.2.modFlow scx fun x => { x with seq := (x.seq + 1) % 65536, ident := (x.ident + 1) % 65536, packets := x.packets + 1,
                                                  rtag := if bitAt (wordAt ctx 0) 2 then (x.rtag + 1) % 65536 else x.rtag }
      if !bitAt (wordAt ctx 0) 3 then
        put s2 { cls := c, desc := d, bytes := bs, st := if far then some 2 else none, flags := fl }
      else
        let id := (s2.mac n).replN
        let b := wfld (wordAt ctx 0) 12 4
        let s3 := s2.modMac n fun x => { x with replN := id + 1, repl := x.repl ++ [{ id := id }] }
        let copy : TxFrame := { cls := c, desc := d, bytes := bs, repl := some (n, id, true) }
        let s4 := s3.modMac b fun x =>
          { x with copies := Map.put (fun _ => []) x.copies c (Map.get (fun _ => []) x.copies c ++ [copy]) }
        put s4 { cls := c, desc := d, bytes := bs, st := if far then some 2 else none, flags := fl, repl := some (n, id, false) }

/-- Bring the next frame of each listed class to its head: copies of replicated frames first, then TXQc (R383, R398). -/
def State.txHeads (s : State) (n : Nat) : List Nat → State
  | [] => s
  | c :: cs =>
    if (Map.get (fun _ => none) (s.mac n).heads c).isSome then s.txHeads n cs
    else match Map.get (fun _ => []) (s.mac n).copies c with
      | f :: rest =>
        (s.modMac n fun x => { x with copies := Map.put (fun _ => []) x.copies c rest, heads := Map.put (fun _ => none) x.heads c (some f) }).txHeads
          n cs
      | [] =>
        let q := s.reg (pMAC n) (Off.mac_TXQ0 + 4 * c)
        if !bitAt q 31 then s.txHeads n cs
        else match s.take (wfld q 0 20) with
          | (some d, t) => (t.txLoad n c d).txHeads n cs
          | (none, t) => t.txHeads n cs

/-- A frame that is past LAUNCH by more than LATE_TOL (R386). -/
def State.txLate (s : State) (n : Nat) (f : TxFrame) : Bool :=
  txFlag f.desc 0 && decide (txLaunch f.desc + s.fld (pMAC n) Off.mac_LAUNCH_CFG 0 16 < s.timeNs)

/-- The status that disposes of a head unsent, if one does (R382, R384, R386). -/
def State.txDispose (s : State) (n : Nat) (f : TxFrame) : Option Nat :=
  if !s.linkUp n then some (match f.st with
    | some 4 => 4
    | _ => 3)
  else match f.st with
    | some v => some v
    | none => if s.txLate n f && s.bit (pMAC n) Off.mac_LAUNCH_CFG (24 + f.cls) then some 1 else none

/-- Bytes of a first fragment (R394). -/
def State.minFrag (s : State) (n : Nat) : Nat := 64 * (1 + s.fld (tsnPage n) (tsnOff n Off.tsn_PREEMPT) 8 2) - 4

/-- A head frame is eligible (R383, R386, R391, R394). -/
def State.txEligible (s : State) (n : Nat) (f : TxFrame) : Bool :=
  let full := f.bytes.length + 4
  let first := if s.express n f.cls then full else min full (s.minFrag n)
  (s.gates n).testBit f.cls && s.creditOk n f.cls &&
    (!txFlag f.desc 0 || decide (txLaunch f.desc ≤ s.timeNs + Config.macLatency n)) &&
    (s.express n f.cls || !(s.mac n).hold) &&
    (match s.gateCloses n f.cls with
     | some t => decide (s.timeNs + 4 * s.wireTicks n (8 + first) ≤ t)
     | none => true)

/-- The head of a class. -/
def State.txHead (s : State) (n c : Nat) : Option TxFrame := Map.get (fun _ => none) (s.mac n).heads c

/-- The highest class of which something holds. -/
def topClass (f : Nat → Bool) : Option Nat := ((List.range 8).reverse.find? f)

/-- Remove the head of a class. -/
def State.txPop (s : State) (n c : Nat) : State := s.modMac n fun x => { x with heads := Map.put (fun _ => none) x.heads c none }

/-- A timestamp (R406): the pad instant within the spec's bound, with TS_ADJ (`adj` in ps), in 2^-16 ns. -/
def State.stamp (s : State) (n : Nat) (lat : Nat) (adj : Int) : Nat × State :=
  let r := s.drawNat
  let b := if s.macMode n ≤ 2 then 8 else 4
  let e : Int := ((r.1 % (2 * b * 65536 + 1) : Nat) : Int) - ((b * 65536 : Nat) : Int)
  (((s.tb.time + lat * 65536 : Nat) + adj * 65536 / 1000 + e : Int).toNat, r.2)

/-- Send the head of class `c` (R386, R388). -/
def State.txSend (s : State) (n c : Nat) (f : TxFrame) : State :=
  let p := pMAC n
  let late := s.txLate n f
  let s1 := if late then ((s.count p Off.mac_CNT_LAUNCH 0 16 1).raise p 12).produce p 1 else s
  let t := s1.stamp n (Config.macLatency n) (signed 16 (s.fld p Off.mac_TS_ADJ 0 16))
  let skip := txFlag f.desc 2 && !s.express n c
  let bytes := if txFlag f.desc 2 && !skip then ptpInsert f.bytes (2 * wfld (wordAt f.desc 3) 16 8) t.1 else f.bytes
  let fin := s.now + s.wireTicks n (8 + bytes.length + 4)
  let g : TxFrame := { f with bytes := bytes, flags := f.flags + late.toNat * 16 + skip.toNat * 32, ts := t.1, start := s.now, fin := fin }
  (t.2.txPop n c).modMac n fun x => { x with cur := some g, idleAt := fin + s.wireTicks n 12 }

/-- What ECC finds in a buffer of MAC `n`: `e`, or what a waiting injection makes of it (R497, R561). -/
def State.macErr (s : State) (n : Nat) (e : ReadErr) : ReadErr × State :=
  let r := s.takeErr (pMAC n) e
  (r.1, r.2.eccCount (pMAC n) Off.mac_CNT_SRAM 14 r.1)

/-- Send the head of class `c`, unless the transmit buffer has lost it: a poison-marked frame is not sent (R384, R497). -/
def State.txGo (s : State) (n c : Nat) (f : TxFrame) (e : ReadErr) : State :=
  let r := s.macErr n e
  if r.1 = .uncorrectable then ((r.2.raise (pMAC n) 11).txPop n c).txOver n f (5 + f.flags) none else r.2.txSend n c f

/-- MAC_TX_START (R383, R394): a transmission opportunity; `e` is what ECC finds in the buffer of the frame it sends. -/
def execMacTxStart (n : Nat) (e : ReadErr) (s : State) : Step :=
  if !s.alive (pMAC n) || s.macMode n == 0 then .next s
  else
    let s1 := (s.creditStep n).txHeads n [7, 6, 5, 4, 3, 2, 1, 0]
    let disp := fun c => match s1.txHead n c with
      | some f => (s1.txDispose n f).isSome
      | none => false
    let ready := fun c => match s1.txHead n c with
      | some f => s1.txEligible n f
      | none => false
    let m := s1.mac n
    match topClass disp, m.cur with
    | some c, none =>
      (match s1.txHead n c with
       | none => .next s1
       | some f =>
         if s1.now < m.idleAt then .next s1
         else
           let v := (s1.txDispose n f).getD 0
           let p := pMAC n
           let s2 := if v = 1 then ((s1.count p Off.mac_CNT_LAUNCH 16 16 1).raise p 12).produce p 1
             else if v = 2 then s1.count p Off.mac_CNT_LAUNCH 16 16 1 else s1
           let s3 := (s2.txPop n c).txOver n f (v + f.flags) none
           .next (if v = 3 then s3.modMac n fun x => { x with idleAt := s1.now + s1.wireTicks n (20 + f.bytes.length + 4) } else s3))
    | _, none =>
      if s1.now < m.idleAt then .next s1
      else
        let pick := match m.held with
          | some _ => topClass fun c => ready c && s1.express n c
          | none => topClass ready
        (match pick, m.held with
         | some c, _ => (match s1.txHead n c with
           | some f => .next (s1.txGo n c f e)
           | none => .next s1)
         | none, some f =>
           if m.hold || !(s1.gates n).testBit f.cls then .next s1
           else
             let fin := s1.now + s1.wireTicks n (8 + f.left)
             .next (s1.modMac n fun x => { x with held := none, cur := some { f with start := s1.now, fin := fin },
                                                  idleAt := fin + s1.wireTicks n 12 })
         | none, none => .next s1)
    | _, some f =>
      -- an express frame, or a hold, preempts a preemptable one in progress
      let all := if f.left = 0 then f.bytes.length + 4 else f.left
      let sent := (s1.now - f.start) * s1.linkKbps n / (8 * 250000) - 8
      if s1.express n f.cls || m.held.isSome || !(m.hold || (List.range 8).any fun c => ready c && s1.express n c) || decide (sent < s1.minFrag n) ||
          decide (all < sent + 60) then .next s1
      else .next ((s1.count (pMAC n) Off.mac_CNT_PREEMPT 0 16 1).modMac n fun x =>
        { x with cur := none, held := some { f with left := all - sent, flags := Nat.lor f.flags 128 },
                 idleAt := s1.now + s1.wireTicks n 16 })

/-- MAC_TX_COMPLETE (R385): the frame on the wire has left, and the oldest completion goes to TX_DONE_Q. -/
def execMacTxComplete (n : Nat) (s : State) : Step :=
  let s1 := match (s.mac n).cur with
    | some f =>
      if s.now < f.fin then s
      else (((s.creditStep n).modMac n fun x => { x with cur := none, out := f.bytes }).count (pMAC n) Off.mac_CNT_TX 0 32 1).txOver n f
        f.flags (some f.ts)
    | none => s
  match (s1.mac n).comps with
  | [] => .next s1
  | w :: rest =>
    let s2 := s1.modMac n fun x => { x with comps := rest }
    .next (if s1.alive (pMAC n) then s2.push (pMAC n) (s.fld (pMAC n) Off.mac_TX_DONE_Q 0 20) w else s2)

/-- A fence of a MAC (R411): the frames it holds complete with ABORTED and its link goes DOWN. -/
def State.macFenced (s : State) (n : Nat) : State :=
  let m := s.mac n
  let fs := (m.heads.filterMap (·.2)) ++ (match m.cur with
    | some f => [f]
    | none => []) ++ (match m.held with
    | some f => [f]
    | none => []) ++ m.copies.flatMap (·.2)
  let q := s.fld (pMAC n) Off.mac_TX_DONE_Q 0 20
  let s1 := fs.foldl (fun t f => t.txOver n f (6 + f.flags) none) s
  let s2 := (s1.mac n).comps.foldl (fun t w => t.push (pMAC n) q w) s1
  (s2.modMac n fun x => { x with heads := [], copies := [], cur := none, held := none, comps := [] }).macDown n

end Sys2Proof.Machine
end

