-- ==== Sys2Proof/Machine/NetRx.lean ====
section
/-!
DEFINITION. Reception (R381, R395 to R401), stream filters and recovery functions with their commands, and RTP flows
(R402, R403).
-/

namespace Sys2Proof.Machine

open Sys2Proof

/-! ## Frames -/

/-- Destination and source address, VLAN identifier and priority (0 without a tag) of a frame. -/
def frameDa (bs : List Byte) : Nat := fieldAt bs 0 6
def frameSa (bs : List Byte) : Nat := fieldAt bs 6 6
def frameTagged (bs : List Byte) : Bool := decide (fieldAt bs 12 2 = 0x8100)
def frameVid (bs : List Byte) : Nat := if frameTagged bs then fieldAt bs 14 2 % 4096 else 0
def framePcp (bs : List Byte) : Nat := if frameTagged bs then fieldAt bs 14 2 / 8192 else 0
/-- The R-TAG's sequence number, if there is one. -/
def frameRtag (bs : List Byte) : Option Nat :=
  let a := if frameTagged bs then 16 else 12
  if fieldAt bs a 2 = 0xF1C1 then some (fieldAt bs (a + 4) 2) else none
/-- Source and destination IPv4 address and destination UDP port. -/
def frameUdp (bs : List Byte) : Option (Nat × Nat × Nat) :=
  (udpOffset bs).map fun u => (fieldAt bs (typeOffset bs + 14) 4, fieldAt bs (typeOffset bs + 18) 4, fieldAt bs (u + 2) 2)

/-- A PTP message for the engine: of the configured domain, on an enabled port that names this MAC (R395, R404). -/
def State.ptpFrame (s : State) (n : Nat) (bs : List Byte) : Bool :=
  let cfg := s.reg pPTP Off.ptp_CFG
  let off := if fieldAt bs (typeOffset bs) 2 = 0x88F7 then some (typeOffset bs + 2)
    else match udpOffset bs with
      | some u => if fieldAt bs (u + 2) 2 = 319 ∨ fieldAt bs (u + 2) 2 = 320 then some (u + 8) else none
      | none => none
  match off with
  | none => false
  | some o => bitAt cfg 0 && s.alive pPTP && decide (fieldAt bs (o + 4) 1 = wfld cfg 8 8) &&
      (List.range 4).any fun i => bitAt cfg (4 + i) && decide (wfld cfg (16 + 4 * i) 4 = n)

/-! ## Stream filters -/

/-- Filter `f`. -/
def State.filt (s : State) (f : Nat) : Filter := Map.get (fun _ => {}) s.net.filt f
/-- Update a filter. -/
def State.modFilt (s : State) (f : Nat) (g : Filter → Filter) : State :=
  s.onNet fun t => { t with filt := Map.put (fun _ => {}) t.filt f (g (Map.get (fun _ => {}) t.filt f)) }

/-- A filter's match fields and ingress ports accept a frame (R395, R396). -/
def filtMatch (ws : Words) (n : Nat) (bs : List Byte) : Bool :=
  let d0 := wordAt ws 0
  let addr := (wordAt ws 1).toNat + 2 ^ 32 * wfld (wordAt ws 2) 0 16
  let vid := wfld (wordAt ws 2) 16 12
  bitAt d0 0 && bitAt d0 (4 + n % 16) &&
    (match wfld d0 1 2 with
     | 0 => decide (frameDa bs = addr ∧ frameVid bs = vid)
     | 1 => decide (frameDa bs = addr ∧ frameVid bs = vid ∧ framePcp bs = wfld d0 20 3)
     | 2 => decide (frameSa bs = addr ∧ frameVid bs = vid)
     | _ => (match frameUdp bs with
       | some u => decide (u.2.1 = (wordAt ws 1).toNat ∧ u.2.2 = wfld (wordAt ws 2) 0 16)
       | none => false))

/-- The enabled filter with the lowest index that accepts a frame. -/
def State.filtFor (s : State) (n : Nat) (bs : List Byte) : Option Nat :=
  (s.net.filt.find? fun e => filtMatch e.2.ws n bs).map (·.1)

/-- The enabled receive flow whose match fields an RTP packet meets (R395). -/
def State.flowFor (s : State) (bs : List Byte) : Option Nat :=
  match frameUdp bs with
  | none => none
  | some u => (s.qm.scx.find? fun e =>
      s.flowOn e.1 0 && decide ((wordAt e.2 1).toNat = u.2.1) && decide (wfld (wordAt e.2 2) 0 16 = u.2.2) &&
        (decide (wordAt e.2 3 = 0) || decide ((wordAt e.2 3).toNat = u.1))).map (·.1)

/-- Add to counter `i` of a filter. -/
def Filter.tick (f : Filter) (i : Nat) : Filter :=
  { f with cnt := (fit 4 0 f.cnt).set i (min (2 ^ 32 - 1) ((fit 4 0 f.cnt).getD i 0 + 1)) }

/-- The meter's colour of a frame of `len` bytes (R397): 0 green, 1 yellow, 2 red, and the tokens after it. -/
def Filter.meter (f : Filter) (now len : Nat) : Nat × Filter :=
  let ws := f.ws
  let unit := 8 * 250000
  let tc := min (wfld (wordAt ws 6) 0 16 * unit) (f.tc + wfld (wordAt ws 5) 0 24 * (now - f.at_))
  let te := min (wfld (wordAt ws 6) 16 16 * unit) (f.te + wfld (wordAt ws 7) 0 24 * (now - f.at_))
  if len * unit ≤ tc then (0, { f with tc := tc - len * unit, te := te, at_ := now })
  else if len * unit ≤ te then (1, { f with tc := tc, te := te - len * unit, at_ := now })
  else (2, { f with tc := tc, te := te, at_ := now })

/-- Filtering, gating and metering (R397): whether a frame of `len` bytes, FCS included, goes on. -/
def State.filtPass (s : State) (n f len : Nat) : Bool × State :=
  let p := pTSN (f / 256)
  let s1 := s.modFilt f fun x => x.tick 0
  let ws := (s.filt f).ws
  let d3 := wordAt ws 3
  let max_ := wfld d3 0 14
  let gate := wfld (wordAt ws 0) 24 4
  let s1 := s1.memRead p 15
  if s.fenced p then (false, s)
  else if bitAt d3 15 then (false, s1.modFilt f fun x => x.tick 1)
  else if 0 < max_ ∧ max_ < len then
    let s2 := s1.modFilt f fun x => x.tick 1
    (false, if bitAt d3 14 then
        ((s2.modFilt f fun x => { x with ws := x.ws.set 3 (setBit d3 15 true) }).raise p 10).produce p 1
      else s2)
  else if gate < 8 ∧ ¬ (s.gates n).testBit (8 + gate) then (false, s1.modFilt f fun x => x.tick 2)
  else if bitAt (wordAt ws 7) 24 then
    let r := (s1.filt f).meter s.now len
    let s2 := s1.modFilt f fun _ => r.2
    if r.1 = 2 ∨ (r.1 = 1 ∧ bitAt (wordAt ws 7) 25) then (false, (s2.modFilt f fun x => x.tick 3).raise p 11) else (true, s2)
  else (true, s1)

/-! ## Sequence recovery -/

/-- Recovery function `r`. -/
def State.rcv (s : State) (r : Nat) : Recovery := Map.get (fun _ => {}) s.net.rcv r
/-- Update a recovery function. -/
def State.modRcv (s : State) (r : Nat) (g : Recovery → Recovery) : State :=
  s.onNet fun t => { t with rcv := Map.put (fun _ => {}) t.rcv r (g (Map.get (fun _ => {}) t.rcv r)) }

/-- Add `k` to counter D`i` of a recovery function (1 passed, 2 discarded, 3 out of order, 4 lost, 5 rogue, 6 resets,
7 tagless). -/
def Recovery.add (r : Recovery) (i k : Nat) : Recovery :=
  { r with cnt := (fit 8 0 r.cnt).set i (((fit 8 0 r.cnt).getD i 0 + k) % 2 ^ 32) }

/-- Move a history of `n` places by `k` numbers: the history, and how many numbers that were never seen leave it. -/
def histShift : Nat → Nat → List Bool → List Bool × Nat
  | 0, _, h => (h, 0)
  | k + 1, n, h =>
    let out := h.getD (n - 1) true
    let r := histShift k n (fit n false (false :: h))
    (r.1, r.2 + (if out then 0 else 1))

/-- What recovery decides of a sequence number (R399, IEEE 802.1CB): whether the frame passes, whether it is rogue, whether
numbers are lost. -/
def Recovery.take (r : Recovery) (now seq : Nat) : Bool × Bool × Bool × Recovery :=
  let n := wfld r.d0 2 6
  let delta := signed 16 ((seq + 65536 - r.num) % 65536)
  let fresh := { r with any := false, num := seq, hist := fit n true [true], last := now }
  if r.any then (true, false, false, fresh.add 1 1)
  else if bitAt r.d0 1 then
    if delta = 0 then (false, false, false, r.add 2 1)
    else
      let x := { r with num := seq, last := now }.add 1 1
      (true, false, false, if delta = 1 then x else x.add 3 1)
  else if (n : Int) ≤ delta ∨ delta ≤ -(n : Int) then (false, true, false, (r.add 5 1).add 2 1)
  else if delta ≤ 0 then
    let i := (-delta).toNat
    if r.hist.getD i false then (false, false, false, r.add 2 1)
    else (true, false, false, (({ r with hist := (fit n false r.hist).set i true, last := now }.add 3 1).add 1 1))
  else
    let h := histShift delta.toNat n r.hist
    let x := { r with num := seq, hist := h.1.set 0 true, last := now }.add 1 1
    let y := if delta = 1 then x else x.add 3 1
    (true, false, decide (0 < h.2), y.add 4 h.2)

/-- Sequence recovery by function `r` (R399): whether the frame passes. -/
def State.recover (s : State) (r : Nat) (bs : List Byte) : Bool × State :=
  let p := pTSN (r / 128)
  if !bitAt (s.rcv r).d0 0 then (true, s)
  else match frameRtag bs with
    | none => (true, s.modRcv r fun x => (x.add 7 1).add 1 1)
    | some q =>
      let t := (s.rcv r).take s.now q
      let s1 := s.modRcv r fun _ => t.2.2.2
      let s2 := if t.2.1 then s1.raise p 13 else s1
      (t.1, if t.2.2.1 then s2.produce p 2 else s2)

/-- A recovery function resets (R399). -/
def State.rcvReset (s : State) (r : Nat) : State :=
  s.modRcv r fun x => ({ x with any := true, num := 0, hist := [] }).add 6 1

/-- RECOVERY_RESET_TIMEOUT (R399): RESET_MS without a passed frame. -/
def execRecoveryResetTimeout (r : Nat) (s : State) : Step :=
  let x := s.rcv r
  if !bitAt x.d0 0 || x.any || decide (s.now < x.last + wfld x.d0 8 16 * 250000) then .next s
  else .next ((s.rcvReset r).raise (pTSN (r / 128)) 12)

/-! ## Delivery -/

/-- The descriptor that a take from a queue would give. -/
def State.qPeek (s : State) (q : Nat) : Option Words :=
  if !s.alive (pQM 0) || !s.qValid q then none
  else match s.qReissue q with
    | some r => some r.desc
    | none => if (s.qView q).level = 0 then none else some (s.qHead q)

/-- Take a receive buffer that holds a frame and write the frame (R400), poison-marked where the MAC's own buffer has lost it (R497): its
address and token. -/
def State.rxBuffer (s : State) (n q : Nat) (bs : List Byte) (bad : Bool) : Option (Nat × Word) × State :=
  match s.qPeek q with
  | none => (none, ((s.count (pMAC n) Off.mac_CNT_DROP 0 16 1).raise (pMAC n) 10).produce (pMAC n) 2)
  | some d =>
    if (wordAt d 2).toNat < bs.length then (none, s.count (pMAC n) Off.mac_CNT_DROP 0 16 1)
    else
      let t := (s.take q).2
      (some (dwordAt d 0, wordAt d 3),
        if bad then t.busPoison (pMAC n) (dwordAt d 0) bs.length else t.busWrite (pMAC n) (dwordAt d 0) bs)

/-- A receive descriptor (*Receive descriptor*). -/
def rxDesc (buf len flags scx n : Nat) (filt : Option Nat) (ts seq lost : Nat) (token : Word) : Words :=
  [wd buf, wd (buf / 2 ^ 32), wd (len % 65536 + flags * 65536),
   wd (scx % 16384 + n % 16 * 65536 + (match filt with
     | some f => f % 2048 * 2 ^ 20 + 2 ^ 31
     | none => 0)), wd ts, wd (ts / 2 ^ 32), wd (seq % 65536 + min 65535 lost * 65536), token]

/-- FLAGS and LOST added to a receive descriptor. -/
def rxMark (d : Words) (flags lost : Nat) : Words :=
  (d.set 2 (wordAt d 2 ||| wd (flags * 65536))).set 6 (wd (wfld (wordAt d 6) 0 16 + min 65535 lost * 65536))

/-- Deliver packet `seq` of a flow, with `lost` packets missing before it (R403). -/
def State.flowOut (s : State) (c seq flags lost : Nat) (d : Words) : State :=
  let fl := flags + (if 0 < lost then 2 else 0)
  (s.push (pMAC (wfld (wordAt d 3) 16 4)) (wfld (wordAt (s.scx c) 4) 0 20) (rxMark d fl lost)).modFlow c fun f =>
    { f with exp := (seq + 1) % 65536, losses := f.losses + lost }

/-- Deliver the held packets that now follow in order. -/
def State.flowRun (s : State) (c : Nat) : Nat → State
  | 0 => s
  | k + 1 =>
    match (s.flow c).held.find? fun e => e.1 == (s.flow c).exp with
    | none => s
    | some e => ((s.modFlow c fun f => { f with held := f.held.filter fun x => x.1 != e.1 }).flowOut c e.1 0 0 e.2.1).flowRun c k

/-- The held packet nearest ahead of the expected number. -/
def Flow.nearest (f : Flow) : Option (Nat × Words × Nat) :=
  f.held.foldl (fun b e => match b with
    | none => some e
    | some x => if (e.1 + 65536 - f.exp) % 65536 < (x.1 + 65536 - f.exp) % 65536 then some e else some x) none

/-- The gap before the nearest held packet is given up: it and what follows in order are delivered. -/
def State.flowGap (s : State) (c flags : Nat) : State :=
  match (s.flow c).nearest with
  | none => s
  | some e =>
    let lost := (e.1 + 65536 - (s.flow c).exp) % 65536
    (((s.modFlow c fun f => { f with held := f.held.filter fun x => x.1 != e.1 }).flowOut c e.1 flags lost e.2.1).flowRun c 65)

/-- Give up gaps until nothing is held. -/
def State.flowFlush (s : State) (c flags : Nat) : Nat → State
  | 0 => s
  | k + 1 => if (s.flow c).held.isEmpty then s else (s.flowGap c flags).flowFlush c flags k

/-- An RTP packet of flow `c` (R400, R403). -/
def State.flowPacket (s : State) (n c : Nat) (filt : Option Nat) (bs : List Byte) (flags ts : Nat) (bad : Bool) : State :=
  let ctx := s.scx c
  let f := s.flow c
  let rtp := ((udpOffset bs).getD 0) + 8
  let seq := fieldAt bs (rtp + 2) 2
  let win := min 32 (wfld (wordAt ctx 6) 0 6)
  let d := signed 16 ((seq + 65536 - f.exp) % 65536)
  let dup := (d < 0 ∧ -(win : Int) ≤ d) ∨ (f.held.any fun e => e.1 == seq) = true
  let s1 := s.modFlow c fun x => { x with packets := x.packets + 1 }
  if dup then s1.modFlow c fun x => { x with dups := x.dups + 1 }
  else match s1.rxBuffer n (wfld (wordAt ctx 5) 0 20) bs bad with
    | (none, t) => t
    | (some b, t) =>
      let desc := rxDesc b.1 bs.length flags c n filt ts seq 0 b.2
      if d = 0 then
        let re := !f.held.isEmpty
        ((if re then t.modFlow c fun x => { x with reorders := x.reorders + 1 } else t).flowOut c seq (re.toNat * 4) 0 desc).flowRun c 65
      else if 0 < d ∧ d ≤ (win : Int) then t.modFlow c fun x => { x with held := x.held ++ [(seq, desc, s.now)] }
      else if d = (win : Int) + 1 then
        let u := t.flowFlush c 0 65
        (u.flowOut c seq 0 ((seq + 65536 - (u.flow c).exp) % 65536) desc)
      else
        let u := t.flowFlush c 0 65
        (u.modFlow c fun x => { x with resyncs := x.resyncs + 1 }).flowOut c seq 8 0 desc

/-- REORDER_TIMEOUT (R403): REORDER_US has elapsed since the first packet held. -/
def execReorderTimeout (c : Nat) (s : State) : Step :=
  match (s.flow c).held with
  | [] => .next s
  | e :: _ =>
    if s.now < e.2.2 + wfld (wordAt (s.scx c) 6) 16 16 * 250 then .next s else .next (s.flowGap c 16)

/-- The policer of DEF_Q (R401): whether a frame passes. -/
def State.policer (s : State) (n : Nat) : Bool × State :=
  let lim := s.fld (pMAC n) Off.mac_BE_LIMIT 0 24
  if lim = 0 then (true, s)
  else
    let m := s.mac n
    let tok := min 16000000000 (m.be + lim * (s.now - m.beAt))
    if 250000000 ≤ tok then (true, s.modMac n fun x => { x with be := tok - 250000000, beAt := s.now })
    else (false, (s.modMac n fun x => { x with be := tok, beAt := s.now }).count (pMAC n) Off.mac_CNT_DROP 16 16 1)

/-- Delivery to a queue with a buffer of RX_FREE_Q (R395, R400, R401). -/
def State.rxDeliver (s : State) (n : Nat) (filt : Option Nat) (bs : List Byte) (flags ts : Nat) (bad : Bool) : State :=
  let q := match filt with
    | some f => wfld (wordAt (s.filt f).ws 4) 0 20
    | none => 0
  let r := if q = 0 then s.policer n else (true, s)
  if !r.1 then r.2
  else match r.2.rxBuffer n (s.fld (pMAC n) Off.mac_RX_FREE_Q 0 20) bs bad with
    | (none, t) => t
    | (some b, t) =>
      t.push (pMAC n) (if q = 0 then s.fld (pMAC n) Off.mac_DEF_Q 0 20 else q) (rxDesc b.1 bs.length flags 0x3FFF n filt ts 0 0 b.2)

/-- Errors seen on the lanes of MAC `n` (*SWIFTn Ethernet lane registers*). -/
def State.ethLanes (s : State) (n : Nat) (lanes : List (Nat × Nat × Nat × Nat)) : State :=
  (lanes.filter fun e => e.1 < modeLanes (s.macMode n)).foldl (fun t e =>
    let l := pSWIFT (t.fld (pMAC n) Off.mac_CFG 8 8 + e.1)
    ((t.count l Off.swift_ETH_ERR 0 16 e.2.1).count l Off.swift_ETH_ERR 16 16 e.2.2.1).count l Off.swift_ETH_FEC 0 16 e.2.2.2) s

/-- MAC_RX_FRAME (R380, R381, R395 to R401): a frame without its FCS, whether the FCS held, whether it came in fragments
(1 reassembled, 2 broken), the FEC codewords corrected and uncorrectable in it, per lane (position in the MAC, invalid headers, BIP errors,
symbols corrected), and what ECC finds in the receive buffer. -/
def execMacRxFrame (n : Nat) (bs : List Byte) (fcsOk : Bool) (frag fecCor fecBad : Nat) (lanes : List (Nat × Nat × Nat × Nat))
    (e : ReadErr) (s : State) : Step :=
  let p := pMAC n
  if !s.alive p || !s.linkUp n then .next s
  else
    let s0 := ((s.count p Off.mac_CNT_FEC 0 16 fecCor).count p Off.mac_CNT_FEC 16 16 fecBad).ethLanes n lanes
    let len := bs.length + 4
    if frag = 2 then .next (s0.count p Off.mac_CNT_PREEMPT 16 16 1)
    else if !fcsOk then .next (s0.count p Off.mac_CNT_RX_ERR 0 16 1)
    else if len < 64 ∨ s.fld p Off.mac_MAX_FRAME 0 14 < len then .next (s0.count p Off.mac_CNT_RX_ERR 16 16 1)
    else
      let s1 := s0.count p Off.mac_CNT_RX 0 32 1
      if fieldAt bs (typeOffset bs) 2 = 0x8808 then .next (s1.count p Off.mac_CNT_LINK 16 16 1)
      else
        let own := s.reg64 p Off.mac_ADDR_LO Off.mac_ADDR_HI % 2 ^ 48
        let filt := s1.filtFor n bs
        let flow := s1.flowFor bs
        let ptp := s1.ptpFrame n bs
        if ¬ (frameDa bs = own ∨ frameDa bs = 2 ^ 48 - 1 ∨ filt.isSome ∨ flow.isSome ∨ ptp ∨ s.bit p Off.mac_CFG 17) then .next s1
        else
          let r0 := s1.macErr n e
          let lost := decide (r0.1 = .uncorrectable)
          let t := r0.2.stamp n 0 (signed 16 (s.fld p Off.mac_TS_ADJ 16 16))
          let ts := t.1 / 65536
          let flags := (frameTagged bs).toNat + (decide (frag = 1)).toNat * 32
          let r1 := match filt with
            | some f => t.2.filtPass n f len
            | none => (true, t.2)
          if !r1.1 then .next r1.2
          else
            let r2 := match filt with
              | some f =>
                let d3 := wordAt (r1.2.filt f).ws 3
                if bitAt d3 23 then r1.2.recover (f / 256 * 128 + wfld d3 16 7) bs else (true, r1.2)
              | none => (true, r1.2)
            if !r2.1 then .next r2.2
            else if ptp then .next r2.2
            else match flow with
              | some c => .next (r2.2.flowPacket n c filt bs flags ts lost)
              | none => .next (r2.2.rxDeliver n filt bs flags ts lost)

/-! ## Commands -/

/-- The filter and the recovery function that a TSN page selects. -/
def State.filtSel (s : State) (k : Nat) : Nat := 256 * k + s.fld (pTSN k) Off.tsn_FILT_SEL 0 8
def State.rcvSel (s : State) (k : Nat) : Nat := 128 * k + s.fld (pTSN k) Off.tsn_REC_SEL 0 7

/-- FILT_LOAD (R396). -/
def execFiltLoad (m : Master) (k : Nat) (s : State) : Step :=
  .next (s.regWrite m (pTSN k) Off.tsn_FILT_CMD fun t => t.setRegs32 (pTSN k) Off.tsn_FILT_D0 (fit 8 0 (t.filt (t.filtSel k)).ws))

/-- FILT_STORE (R396, R411). -/
def execFiltStore (m : Master) (k : Nat) (s : State) : Step :=
  .next (s.regWrite m (pTSN k) Off.tsn_FILT_CMD fun t =>
    let f := t.filtSel k
    let ws := t.regs32 (pTSN k) Off.tsn_FILT_D0 8
    let d0 := wordAt ws 0
    if bitAt (wordAt (t.filt f).ws 0) 0 then t.stateWrite (pTSN k)
    else if wfld d0 4 16 = 0 ∨ (8 ≤ wfld d0 24 4 ∧ wfld d0 24 4 ≤ 14) then
      (t.setReg (pTSN k) Off.tsn_FILT_STAT 2).raise (pTSN k) 9
    else (t.setReg (pTSN k) Off.tsn_FILT_STAT 0).modFilt f fun x =>
      { x with ws := ws.set 3 (setBit (wordAt ws 3) 15 false), tc := wfld (wordAt ws 6) 0 16 * 2000000,
               te := wfld (wordAt ws 6) 16 16 * 2000000, at_ := t.now })

/-- CLEAR_BLOCK (R397). -/
def execClearBlock (m : Master) (k : Nat) (s : State) : Step :=
  .next (s.regWrite m (pTSN k) Off.tsn_FILT_CMD fun t =>
    t.modFilt (t.filtSel k) fun x => { x with ws := if x.ws = [] then [] else x.ws.set 3 (setBit (wordAt x.ws 3) 15 false) })

/-- REC_LOAD (R399). -/
def execRecLoad (m : Master) (k : Nat) (s : State) : Step :=
  .next (s.regWrite m (pTSN k) Off.tsn_REC_CMD fun t =>
    let r := t.rcv (t.rcvSel k)
    t.setRegs32 (pTSN k) Off.tsn_REC_D0 (r.d0 :: ((fit 8 0 r.cnt).drop 1).map wd))

/-- REC_STORE (R399, R411). -/
def execRecStore (m : Master) (k : Nat) (s : State) : Step :=
  .next (s.regWrite m (pTSN k) Off.tsn_REC_CMD fun t =>
    let r := t.rcvSel k
    if bitAt (t.rcv r).d0 0 then t.stateWrite (pTSN k)
    else t.modRcv r fun x => { x with d0 := t.reg (pTSN k) Off.tsn_REC_D0, any := true, num := 0, hist := [], last := t.now })

/-- REC_RESET (R399). -/
def execRecReset (m : Master) (k : Nat) (s : State) : Step :=
  .next (s.regWrite m (pTSN k) Off.tsn_REC_CMD fun t => (t.rcvReset (t.rcvSel k)).raise (pTSN k) 12)

/-- Enabled flows. -/
def State.flowsOn (s : State) : Nat :=
  (s.qm.scxKind.filter fun e => e.2 == 5 && bitAt (wordAt (s.scx e.1) 0) 0).length

/-- FLOW_SEL. -/
def State.flowSel (s : State) : Nat := s.fld (pTSN 0) Off.tsn_FLOW_SEL 0 14

/-- FLOW_LOAD (R402): the layout of the runtime bytes is open, so they read as free words. -/
def execFlowLoad (m : Master) (s : State) : Step :=
  .next (s.regWrite m (pTSN 0) Off.tsn_FLOW_CMD fun t =>
    let ws := t.scx t.flowSel
    let run := (List.range 8).map fun i => Config.freeWord (t.free + i)
    (t.onFree (· + 8)).setRegs32 (pTSN 0) Off.tsn_FLOW_D0 (ws.take 24 ++ (if t.flowOn t.flowSel 0 || t.flowOn t.flowSel 1 then run else ws.drop 24)))

/-- FLOW_STORE (R402, R458). -/
def execFlowStore (m : Master) (s : State) : Step :=
  .next (s.regWrite m (pTSN 0) Off.tsn_FLOW_CMD fun t =>
    let p := pTSN 0
    let c := t.flowSel
    let ws := t.regs32 p Off.tsn_FLOW_D0 24
    let en := bitAt (wordAt ws 0) 0
    let tx := bitAt (wordAt ws 0) 1
    let kind := t.scxKind c
    if kind ≠ 0 ∧ kind ≠ 5 then t.scxConflict p
    else if kind = 5 then t.stateWrite p
    else
      let same := t.qm.scx.any fun e => t.flowOn e.1 0 && decide (wordAt e.2 1 = wordAt ws 1) &&
        decide (wfld (wordAt e.2 2) 0 16 = wfld (wordAt ws 2) 0 16)
      let badQ := !tx && (!t.qValid (wfld (wordAt ws 4) 0 20) || !t.qValid (wfld (wordAt ws 5) 0 20))
      if en && (decide (4096 ≤ t.flowsOn) || badQ || (!tx && same)) then (t.setReg p Off.tsn_FLOW_STAT 2).raise p 14
      else
        let t1 := (t.setReg p Off.tsn_FLOW_STAT 0).scxPut c 0 ws
        if !en then t1
        else
          let r := t1.drawWord
          (r.2.scxClaim c 5 p 24).modFlow c fun _ => { ident := r.1.toNat % 65536 })

/-- A flow leaves the enabled state; packets it holds are delivered (R402, R458). -/
def State.flowQuit (s : State) (c : Nat) : State :=
  let t := s.flowFlush c 0 65
  ((t.scxPut c 0 [setBit (wordAt (t.scx c) 0) 0 false]).scxFree c).modFlow c fun _ => {}

/-- FLOW_STOP (R402, R458). -/
def execFlowStop (m : Master) (s : State) : Step :=
  .next (s.regWrite m (pTSN 0) Off.tsn_FLOW_CMD fun t =>
    if t.scxKind t.flowSel ≠ 5 then t.stateWrite (pTSN 0) else t.flowQuit t.flowSel)

/-! ## Views -/

/-- TSN registers that show a selected object or a count. -/
def State.viewNet (s : State) (p o : Nat) : Option Word :=
  if pageKind p ≠ .tsn then none
  else
    let k := p - pTSN 0
    if 0x230 ≤ o ∧ o < 0x240 ∧ o % 4 = 0 then some (wd ((fit 4 0 (s.filt (s.filtSel k)).cnt).getD ((o - 0x230) / 4) 0))
    else if o = Off.tsn_FLOW_STAT ∧ k = 0 then some (wset (s.reg p o) 16 13 s.flowsOn)
    else none

/-- A read of a filter counter takes it back to 0. -/
def State.filtRead (s : State) (k i : Nat) : State := s.modFilt (s.filtSel k) fun x => { x with cnt := (fit 4 0 x.cnt).set i 0 }

end Sys2Proof.Machine
end

