-- ==== Sys2Proof/Machine/SwDecode.lean ====
section
/-!
DEFINITION. The Swarm instruction words (R256, R257, *Major opcodes* and the function tables): which instruction a word is.
-/

namespace Sys2Proof.Machine

open Sys2Proof

/-- The Swarm instructions. -/
inductive SwOp where
  | nop | fence | eret | trap | csrr | csrw | yield | exit | add | sub | and_ | or_ | xor_ | sll | srl | sra
  | slt | sltu | min | max | minu | maxu | mul | mulh | mulhu | sextb | sexth | clz | popc | addi | andi | ori
  | xori | slti | lui | shi | fadd | fsub | fmul | fma | fmin | fmax | feq | flt | fle | fcvtws | fcvtsw
  | frcp | frsq | fabs | fneg | lw | sw | lhu | sh | lbu | sb | beq | bne | blt | bge | bltu | bgeu | jal
  | jalr | loop | vadd | vsub | vadds | vsubs | vaddus | vsubus | vand | vor | vxor | vsll | vsrl | vsra
  | vmin | vmax | vminu | vmaxu | vmul | vmulh | vmulhrs | vabsd | vavg | vsel | vmov | vbcast | vnarrow
  | vwidenl | vwidenh | vwidenlu | vwidenhu | vslli | vsrli | vsrai | vfadd | vfsub | vfmul | vfma | vfmin
  | vfmax | vfcvtws | vfcvtsw | vfrcp | vfrsq | vfabs | vfcvtsh | vfcvtshh | vfcvths | vfbcast | vmacH
  | vdot2H | vmacsH | vmacW | vmsubH | accz | accldH | accrH | accr2W | accrwW | vslide | vshuf | vzipl
  | vziph | vunzipe | vunzipo | vext | vins | vrev | vcmpEq | vcmpNe | vcmpLt | vcmpLe | vcmpLtu | vcmpLeu
  | mand | mor | mxor | mnot | mset | vrsum | vrmin | vrmax | vrminu | vrmaxu | mget | mcount | vld | vst
  | vldu | vstm | vgath | vscat | qtake | qtry | qpush | qpushnb | qdone | qrel | qlevel | dmaq | dmaw | dmat
  | dmarst | amoadd | amoswap | amomin | amomax | amominu | amomaxu | amocas | bar | sigev | waitev | testev
deriving DecidableEq, Repr

/-- Fields of an instruction word (*Instruction formats*). -/
def fOp (w : Word) : Nat := wfld w 26 6
def fD (w : Word) : Nat := wfld w 21 5
def fA (w : Word) : Nat := wfld w 16 5
def fB (w : Word) : Nat := wfld w 11 5
def fM (w : Word) : Nat := wfld w 8 3
def fF (w : Word) : Nat := wfld w 0 8
def fImm (w : Word) : Nat := wfld w 0 16
/-- FUNC[5:0] and the type FUNC[7:6] (R257). -/
def fCode (w : Word) : Nat := wfld w 0 6
def fType (w : Word) : Nat := wfld w 6 2

/-- The op, when the fields that it does not use are 0 (R256); the flags say that D, A, B and M are used. -/
def useR (w : Word) (d a b m : Bool) (o : SwOp) : Option SwOp :=
  if (d || fD w == 0) && (a || fA w == 0) && (b || fB w == 0) && (m || fM w == 0) then some o else none

/-- The op under a condition. -/
def onlyIf (c : Bool) (o : Option SwOp) : Option SwOp := if c then o else none

/-- *System functions*. -/
def decSys (w : Word) : Option SwOp :=
  match fF w with
  | 0x01 => useR w false false false false .nop
  | 0x02 => useR w false false false false .fence
  | 0x03 => useR w false false false false .eret
  | 0x04 => useR w true true false false .trap
  | 0x05 => useR w true false true true .csrr
  | 0x06 => useR w false true true true .csrw
  | 0x07 => useR w false false false false .yield
  | 0x08 => useR w false false false false .exit
  | _ => none

/-- *Scalar ALU functions*. -/
def decAlu (w : Word) : Option SwOp :=
  let two := useR w true true true false
  let one := useR w true true false false
  match fF w with
  | 0x00 => two .add | 0x01 => two .sub | 0x02 => two .and_ | 0x03 => two .or_ | 0x04 => two .xor_
  | 0x05 => two .sll | 0x06 => two .srl | 0x07 => two .sra | 0x08 => two .slt | 0x09 => two .sltu
  | 0x0A => two .min | 0x0B => two .max | 0x0C => two .minu | 0x0D => two .maxu
  | 0x0E => two .mul | 0x0F => two .mulh | 0x10 => two .mulhu
  | 0x11 => one .sextb | 0x12 => one .sexth | 0x13 => one .clz | 0x14 => one .popc
  | _ => none

/-- *Scalar fp32 functions*. -/
def decFpu (w : Word) : Option SwOp :=
  let two := useR w true true true false
  let one := useR w true true false false
  match fF w with
  | 0x00 => two .fadd | 0x01 => two .fsub | 0x02 => two .fmul | 0x03 => two .fma | 0x04 => two .fmin | 0x05 => two .fmax
  | 0x06 => two .feq | 0x07 => two .flt | 0x08 => two .fle
  | 0x09 => one .fcvtws | 0x0A => one .fcvtsw | 0x0B => one .frcp | 0x0C => one .frsq | 0x0D => one .fabs | 0x0E => one .fneg
  | _ => none

/-- *Vector integer functions*: types H and W; VNARROW takes W and VWIDEN takes H. -/
def decValu (w : Word) : Option SwOp :=
  let two := useR w true true true true
  let one := useR w true true false true
  onlyIf (decide (fType w < 2)) (match fCode w with
  | 0x00 => two .vadd | 0x01 => two .vsub | 0x02 => two .vadds | 0x03 => two .vsubs | 0x04 => two .vaddus | 0x05 => two .vsubus
  | 0x06 => two .vand | 0x07 => two .vor | 0x08 => two .vxor | 0x09 => two .vsll | 0x0A => two .vsrl | 0x0B => two .vsra
  | 0x0C => two .vmin | 0x0D => two .vmax | 0x0E => two .vminu | 0x0F => two .vmaxu
  | 0x10 => two .vmul | 0x11 => two .vmulh | 0x12 => two .vmulhrs | 0x13 => two .vabsd | 0x14 => two .vavg | 0x15 => two .vsel
  | 0x16 => one .vmov | 0x17 => one .vbcast
  | 0x18 => onlyIf (fType w == 1) (two .vnarrow)
  | 0x19 => onlyIf (fType w == 0) (one .vwidenl) | 0x1A => onlyIf (fType w == 0) (one .vwidenh)
  | 0x1B => onlyIf (fType w == 0) (one .vwidenlu) | 0x1C => onlyIf (fType w == 0) (one .vwidenhu)
  | 0x1D => two .vslli | 0x1E => two .vsrli | 0x1F => two .vsrai
  | _ => none)

/-- *Vector fp32 functions*. -/
def decVfpu (w : Word) : Option SwOp :=
  let two := useR w true true true true
  let one := useR w true true false true
  match fF w with
  | 0x00 => two .vfadd | 0x01 => two .vfsub | 0x02 => two .vfmul | 0x03 => two .vfma | 0x04 => two .vfmin | 0x05 => two .vfmax
  | 0x06 => one .vfcvtws | 0x07 => one .vfcvtsw | 0x08 => one .vfrcp | 0x09 => one .vfrsq | 0x0A => one .vfabs
  | 0x0B => one .vfcvtsh | 0x0C => one .vfcvtshh | 0x0D => two .vfcvths | 0x0E => one .vfbcast
  | _ => none

/-- *Accumulator functions*: accumulators are 0 to 3, VDOT2.H has even A and B, ACCLD.H shifts by 0 to 24, ACCR2.W has an
even D. -/
def decVmac (w : Word) : Option SwOp :=
  let two := useR w true true true true
  let dAcc := decide (fD w < 4)
  let aAcc := decide (fA w < 4)
  match fF w with
  | 0x00 => onlyIf dAcc (two .vmacH)
  | 0x01 => onlyIf (dAcc && fA w % 2 == 0 && fB w % 2 == 0) (two .vdot2H)
  | 0x02 => onlyIf dAcc (two .vmacsH)
  | 0x03 => onlyIf dAcc (two .vmacW)
  | 0x04 => onlyIf dAcc (two .vmsubH)
  | 0x08 => onlyIf dAcc (useR w true false false true .accz)
  | 0x09 => onlyIf (dAcc && decide (fB w ≤ 24)) (two .accldH)
  | 0x0A => onlyIf aAcc (two .accrH)
  | 0x0B => onlyIf (aAcc && fD w % 2 == 0) (two .accr2W)
  | 0x0C => onlyIf aAcc (two .accrwW)
  | _ => none

/-- *Permute functions*: types H and W; a W slide is at most 15. -/
def decVperm (w : Word) : Option SwOp :=
  let two := useR w true true true true
  onlyIf (decide (fType w < 2)) (match fCode w with
  | 0x20 => two .vshuf | 0x21 => two .vzipl | 0x22 => two .vziph | 0x23 => two .vunzipe | 0x24 => two .vunzipo
  | 0x25 => useR w true true true false .vext
  | 0x26 => two .vins
  | 0x27 => useR w true true false true .vrev
  | k => onlyIf (decide (k < 0x20) && (fType w == 0 || decide (k ≤ 15))) (two .vslide))

/-- *Compare and mask functions*: D names one of m1 to m7; unsigned compares have no type S. -/
def decVcmp (w : Word) : Option SwOp :=
  let two := useR w true true true true
  let dOk := decide (0 < fD w ∧ fD w < 8)
  let aM := decide (fA w < 8)
  let bM := decide (fB w < 8)
  onlyIf dOk (if fCode w ≤ 5 then onlyIf (decide (fType w < 3)) (match fCode w with
    | 0 => two .vcmpEq | 1 => two .vcmpNe | 2 => two .vcmpLt | 3 => two .vcmpLe
    | 4 => onlyIf (decide (fType w < 2)) (two .vcmpLtu)
    | _ => onlyIf (decide (fType w < 2)) (two .vcmpLeu))
  else match fF w with
    | 0x10 => onlyIf (aM && bM) (useR w true true true false .mand)
    | 0x11 => onlyIf (aM && bM) (useR w true true true false .mor)
    | 0x12 => onlyIf (aM && bM) (useR w true true true false .mxor)
    | 0x13 => onlyIf aM (useR w true true false false .mnot)
    | 0x14 => useR w true true false false .mset
    | _ => none)

/-- *Reduction functions*: VRSUM also has type S. -/
def decVred (w : Word) : Option SwOp :=
  let one := useR w true true false true
  let hw := decide (fType w < 2)
  match fCode w with
  | 0x00 => onlyIf (decide (fType w < 3)) (one .vrsum)
  | 0x01 => onlyIf hw (one .vrmin) | 0x02 => onlyIf hw (one .vrmax)
  | 0x03 => onlyIf hw (one .vrminu) | 0x04 => onlyIf hw (one .vrmaxu)
  | 0x05 => onlyIf (fType w == 0 && decide (fA w < 8)) (useR w true true false false .mget)
  | 0x06 => onlyIf (fType w == 0 && decide (fA w < 8)) (useR w true true false false .mcount)
  | _ => none

/-- *Queue functions*. -/
def decQue (w : Word) : Option SwOp :=
  match fF w with
  | 0x00 => useR w true true true false .qtake
  | 0x01 => useR w true true true false .qtry
  | 0x02 => useR w true true true false .qpush
  | 0x03 => useR w true true true false .qpushnb
  | 0x04 => useR w true false false false .qdone
  | 0x05 => useR w true false false false .qrel
  | 0x06 => useR w true true false false .qlevel
  | _ => none

/-- *DMA functions*. -/
def decDma (w : Word) : Option SwOp :=
  match fF w with
  | 0x00 => useR w true true false false .dmaq
  | 0x01 => useR w true true false false .dmaw
  | 0x02 => useR w true true false false .dmat
  | 0x03 => useR w false false false false .dmarst
  | _ => none

/-- *Synchronisation functions*: barriers 0 to 15, events 0 to 3. -/
def decSync (w : Word) : Option SwOp :=
  let amo := useR w true true true false
  match fF w with
  | 0x00 => amo .amoadd | 0x01 => amo .amoswap | 0x02 => amo .amomin | 0x03 => amo .amomax
  | 0x04 => amo .amominu | 0x05 => amo .amomaxu | 0x06 => amo .amocas
  | 0x08 => onlyIf (decide (fB w < 16)) (useR w true false true false .bar)
  | 0x09 => onlyIf (decide (fB w < 4)) (useR w false false true false .sigev)
  | 0x0A => onlyIf (decide (fB w < 4)) (useR w false false true false .waitev)
  | 0x0B => onlyIf (decide (fB w < 4)) (useR w true false true false .testev)
  | _ => none

/-- The instruction that a word is; none for an ILLEGAL word (R256). -/
def swDecode (w : Word) : Option SwOp :=
  match fOp w with
  | 0x00 => decSys w
  | 0x01 => decAlu w
  | 0x02 => some .addi
  | 0x03 => some .andi
  | 0x04 => some .ori
  | 0x05 => some .xori
  | 0x06 => some .slti
  | 0x07 => onlyIf (fA w == 0) (some .lui)
  | 0x08 => onlyIf (wfld w 7 9 == 0) (some .shi)
  | 0x09 => decFpu w
  | 0x0A => some .lw
  | 0x0B => some .sw
  | 0x0C => some .lhu
  | 0x0D => some .sh
  | 0x0E => some .lbu
  | 0x0F => some .sb
  | 0x10 => some .beq
  | 0x11 => some .bne
  | 0x12 => some .blt
  | 0x13 => some .bge
  | 0x14 => some .bltu
  | 0x15 => some .bgeu
  | 0x16 => some .jal
  | 0x17 => some .jalr
  | 0x18 => onlyIf (fD w == 0 && decide (1 ≤ fImm w ∧ fImm w ≤ 4096)) (some .loop)
  | 0x20 => decValu w
  | 0x21 => decVfpu w
  | 0x22 => decVmac w
  | 0x23 => decVperm w
  | 0x24 => decVcmp w
  | 0x25 => decVred w
  | 0x28 => some .vld
  | 0x29 => some .vst
  | 0x2A => some .vldu
  | 0x2B => onlyIf (fF w == 0) (useR w true true false true .vstm)
  | 0x2C => onlyIf (fF w == 0) (useR w true true true true .vgath)
  | 0x2D => onlyIf (fF w == 0) (useR w true true true true .vscat)
  | 0x30 => decQue w
  | 0x31 => decDma w
  | 0x32 => decSync w
  | _ => none

end Sys2Proof.Machine
end

