-- ==== Sys2Proof/Machine/Swarm.lean ====
section
/-!
DEFINITION. Swarm engines and threads: identities, registers, engine memory, traps and issue (R240 to R256, R258, R274,
R275).
-/

namespace Sys2Proof.Machine

open Sys2Proof

/-! ## Identities -/

/-- Engine `p` beside its threads and registers. -/
def State.eng (s : State) (p : Nat) : Engine := Map.get (fun _ => {}) s.swarm.eng p
/-- Update engine `p`. -/
def State.modEng (s : State) (p : Nat) (f : Engine → Engine) : State :=
  s.onSwarm fun w => { w with eng := Map.put (fun _ => {}) w.eng p (f (Map.get (fun _ => {}) w.eng p)) }

/-- Thread `t` of engine `p`. -/
def State.thr (s : State) (p t : Nat) : Thread := Map.get (fun _ => {}) s.swarm.thr (p * 4 + t)
/-- Update thread `t` of engine `p`. -/
def State.modThr (s : State) (p t : Nat) (f : Thread → Thread) : State :=
  s.onSwarm fun w => { w with thr := Map.put (fun _ => {}) w.thr (p * 4 + t) (f (Map.get (fun _ => {}) w.thr (p * 4 + t))) }

/-- LMAP of a logical ID (R241). -/
def State.lmap (s : State) (e : Nat) : Word := s.reg (pCLUS (e / 8)) (Off.clus_LMAP0 + 4 * (e % 8))

/-- The physical engine that holds logical ID `e`. -/
def State.physOf (s : State) (e : Nat) : Option Nat := if bitAt (s.lmap e) 15 then some (wfld (s.lmap e) 0 9) else none

/-- The logical ID that engine `p` holds (R241). Its own number is looked at first. -/
def State.logOf (s : State) (p : Nat) : Option Nat :=
  if p < 256 ∧ s.physOf p = some p then some p else (List.range 256).find? fun e => s.physOf e == some p

/-- What the Warden keeps of engine `p`. -/
def State.health (s : State) (p : Nat) : EngineHealth := Map.get (fun _ => {}) s.dep.engines p

/-- The page of the physical cluster that holds engine `p` (R240). -/
def clusOf (p : Nat) : Nat := pCLUS (p / 8)

/-- The home cluster of engine `p` (R241). -/
def State.homeOf (s : State) (p : Nat) : Option Nat := (s.logOf p).map (· / 8)

/-- May engine `p` issue: alive, and not condemned (R46, R507)? -/
def State.engRuns (s : State) (p : Nat) : Bool := s.alive (pENG p) && !(s.health p).condemned

/-- CTRL.THREADS. -/
def State.engThreads (s : State) (p : Nat) : Nat := s.fld (pENG p) Off.eng_CTRL 0 3

/-! ## Thread registers -/

/-- Scalar register; s0 reads 0 (R253). -/
def Thread.sget (x : Thread) (i : Nat) : Word := if i = 0 then 0 else Map.get (fun _ => 0) x.s i
/-- Write a scalar register; s0 ignores writes (R253). -/
def Thread.sput (x : Thread) (i : Nat) (v : Word) : Thread := if i = 0 then x else { x with s := Map.put (fun _ => 0) x.s i v }
/-- Vector register as its 16 words. -/
def Thread.vget (x : Thread) (i : Nat) : Words := fit 16 0 (Map.get (fun _ => []) x.v i)
/-- Write a vector register. -/
def Thread.vput (x : Thread) (i : Nat) (v : Words) : Thread := { x with v := Map.put (fun _ => []) x.v i (fit 16 0 v) }
/-- Mask register; m0 reads all ones (R253). -/
def Thread.mget (x : Thread) (i : Nat) : Word := if i = 0 then wd 0xFFFFFFFF else Map.get (fun _ => 0) x.m i
/-- Write a mask register; m0 cannot be written (R253). -/
def Thread.mput (x : Thread) (i : Nat) (v : Word) : Thread := if i = 0 then x else { x with m := Map.put (fun _ => 0) x.m i v }
/-- Accumulator as 32 lanes of 40 bits. -/
def Thread.aget (x : Thread) (i : Nat) : List Nat := fit 32 0 (Map.get (fun _ => []) x.acc i)
/-- Write an accumulator; lanes wrap. -/
def Thread.aput (x : Thread) (i : Nat) (v : List Nat) : Thread :=
  { x with acc := Map.put (fun _ => []) x.acc i (fit 32 0 (v.map (· % 2 ^ 40))) }

/-- Lanes of type H, W of a register. -/
def lanesH (v : Words) : List Nat := v.flatMap fun w => [wfld w 0 16, wfld w 16 16]
def lanesW (v : Words) : List Nat := v.map (·.toNat)
/-- Words of H lanes. -/
def ofLanesH : List Nat → Words
  | a :: b :: t => wd (a % 65536 + b % 65536 * 65536) :: ofLanesH t
  | _ => []
def ofLanesW (l : List Nat) : Words := l.map wd

/-- Lanes of a register by type: 0 H, else W. -/
def lanes (ty : Nat) (v : Words) : List Nat := if ty = 0 then lanesH v else lanesW v
/-- Words of lanes by type. -/
def ofLanes (ty : Nat) (l : List Nat) : Words := if ty = 0 then ofLanesH l else ofLanesW l
/-- Bits of a lane by type. -/
def laneBits (ty : Nat) : Nat := if ty = 0 then 16 else 32

/-- The lanes that a mask enables, the others kept (R255). -/
def maskLanes (m : Word) (old new : List Nat) : List Nat :=
  (List.range old.length).map fun i => if bitAt m i then new.getD i 0 else old.getD i 0

/-! ## Program flow -/

/-- Index of the innermost loop's registers. -/
def Thread.loopEnd (x : Thread) (i : Nat) : Nat := wfld (Map.get (fun _ => (0 : Word)) x.lbounds i) 16 16
def Thread.loopStart (x : Thread) (i : Nat) : Nat := wfld (Map.get (fun _ => (0 : Word)) x.lbounds i) 0 16

/-- The PC after the instruction at byte address `at_` completes in order (R258): at the end of the innermost body the
next iteration starts, or the loop ends and the next outer one is looked at. -/
def Thread.next : Nat → Thread → Nat → Thread
  | 0, x, at_ => { x with pc := at_ + 4 }
  | n + 1, x, at_ =>
    if x.depth = 0 then { x with pc := at_ + 4 }
    else
      let i := x.depth - 1
      if at_ / 4 ≠ x.loopEnd i then { x with pc := at_ + 4 }
      else
        let c := Map.get (fun _ => (0 : Word)) x.lcount i
        if 1 < c.toNat then { x with pc := 4 * x.loopStart i, lcount := Map.put (fun _ => 0) x.lcount i (c - 1) }
        else Thread.next n { x with depth := i, lcount := Map.put (fun _ => 0) x.lcount i 0 } at_

/-- The instruction at the PC completes in order. -/
def Thread.step (x : Thread) : Thread := Thread.next 2 x x.pc

/-- A taken branch or jump (R258): every innermost loop whose body does not hold the target ends. -/
def Thread.jump : Nat → Thread → Nat → Thread
  | 0, x, target => { x with pc := target }
  | n + 1, x, target =>
    if x.depth = 0 then { x with pc := target }
    else
      let i := x.depth - 1
      if x.loopStart i ≤ target / 4 ∧ target / 4 ≤ x.loopEnd i then { x with pc := target }
      else Thread.jump n { x with depth := i, lcount := Map.put (fun _ => 0) x.lcount i 0 } target

/-- Go to a target. -/
def Thread.goto (x : Thread) (target : Nat) : Thread := Thread.jump 2 x (target % 2 ^ 32)

/-! ## Traps -/

/-- The time for which the clock of domain `d` has been gated, in hundredths of a tick (R569). -/
def State.gatedTime (s : State) (d : Nat) : Nat :=
  let g := Map.get (fun _ => (0, 0)) s.power.gate d
  g.1 + (s.now - s.power.gateAt) * g.2

/-- The time that engine `p`'s clock has run, in hundredths of a tick: gated cycles are not counted (R570). -/
def State.engTime (s : State) (p : Nat) : Nat := 100 * s.now - s.gatedTime (p / 8)

/-- Traps of causes 0x01 to 0x1F in the last 1 ms of running cycles (R275, R570). -/
def State.trapWin (s : State) (p : Nat) : Nat :=
  min 255 ((s.eng p).traps.filter fun t => decide (s.engTime p < t + 25000000)).length

/-- Is a thread of engine `p` in RUN? -/
def State.anyRun (s : State) (p : Nat) : Bool := (List.range 4).any fun t => (s.thr p t).st == 1

/-- The watchdog of R275 counts from now on, when no thread was in RUN. -/
def State.wdStart (s : State) (p : Nat) : State :=
  if s.anyRun p then s else s.modEng p fun e => { e with lastRetire := s.engTime p }

/-- A trap (R274, R275): the thread records EPC, CAUSE and TVAL and continues at TVEC; without a handler, or in a trap, it
goes to HALTED and keeps its item. -/
def State.trap (s : State) (p t cause : Nat) (tval : Word) : State :=
  let x := s.thr p t
  let dead := x.tvec = 0 ∨ x.inTrap = true
  let y := { x with epc := wd x.pc, cause := cause, tval := tval, wait := none }
  let s1 := (s.wdStart p).modThr p t fun _ =>
    if dead then { y with st := 3, double := x.inTrap } else { y with st := 1, inTrap := true, pc := x.tvec.toNat }
  let s2 := s1.count (pENG p) Off.eng_TRAPS 0 32 1
  let s3 := if cause < 0x20 then s2.modEng p fun e =>
      { e with traps := s.engTime p :: e.traps.filter fun u => decide (s.engTime p < u + 25000000) } else s2
  let s4 := if cause = 4 then (s3.count (pENG p) Off.eng_POISON_LOCAL 0 2 1).raise (pENG p) 10 else s3
  if dead then (s4.setInt (pENG p) 0).raise (pENG p) 8 else s4

/-! ## Issue -/

/-- Threads of an engine that are ready before thread `t` after its YIELD. -/
def State.yielding (s : State) (p t : Nat) : Bool := (s.thr p t).yielded.any fun u => (s.thr p u).st == 1

/-- An instruction of thread `t` retires, and threads that yielded to it need not wait for it. -/
def State.retire (s : State) (p t : Nat) : State :=
  let s1 := s.modEng p fun e =>
    { e with retired := (e.retired + 1) % 2 ^ 64, lastRetire := s.engTime p }
  (List.range 4).foldl (fun u i =>
    if (u.thr p i).yielded.contains t then u.modThr p i fun x => { x with yielded := x.yielded.filter (· != t) } else u) s1

/-- The word at a PC. -/
def State.fetch (s : State) (p pc : Nat) : Word := Map.get (fun _ => 0) (s.eng p).imem (pc / 4)

/-- Is a word of the vector class (R246): major opcodes 0x20 to 0x25? -/
def swVector (w : Word) : Bool := decide (0x20 ≤ fOp w) && decide (fOp w ≤ 0x25)

/-- The class of the next instruction of a thread. -/
def State.nextVector (s : State) (p t : Nat) : Bool := swVector (s.fetch p (s.thr p t).pc)

/-- Is thread `u` certainly ready (R246, R247): in RUN, not yielding, its latest issue and any access to shared memory complete? -/
def State.surelyReady (s : State) (p u : Nat) : Bool :=
  (s.thr p u).st == 1 && !s.yielding p u && decide (Map.get (fun _ => 0) (s.eng p).far u ≤ s.now) &&
    !((s.eng p).issues.any fun i => i.2.2 == u && decide (s.now ≤ i.1 + 1))

/-- The thread that took a class's slot last. -/
def Engine.turn (e : Engine) (vector : Bool) : Nat := if vector then e.turnV else e.turnS

/-- Has the slot of its class room for thread `t` (R246)? In the 5 cycles of a tick a class issues at most 5 instructions, and so does
a thread; and no thread that is certainly ready for the slot comes before it in the round. -/
def State.slotOpen (s : State) (p t : Nat) (vector : Bool) : Bool :=
  let now := (s.eng p).issues.filter fun i => i.1 == s.now
  let turn := (s.eng p).turn vector
  decide ((now.filter fun i => i.2.1 == vector).length < 5) && decide ((now.filter fun i => i.2.2 == t).length < 5) &&
    !((List.range 4).any fun u =>
      decide ((u + 7 - turn) % 4 < (t + 7 - turn) % 4) && s.surelyReady p u && s.nextVector p u == vector)

/-- Can thread `t` of engine `p` issue at all? -/
def State.canIssue (s : State) (p t : Nat) : Bool :=
  s.engRuns p && decide (t < 4) && (s.thr p t).st == 1 && !s.yielding p t && s.slotOpen p t (s.nextVector p t)

/-- Thread `t` takes the slot of its instruction's class (R246). -/
def State.took (s : State) (p t : Nat) (vector : Bool) : State :=
  s.modEng p fun e =>
    { e with issues := (s.now, vector, t) :: e.issues.filter fun i => decide (s.now < i.1 + 250000),
             turnS := if vector then e.turnS else t, turnV := if vector then t else e.turnV }

/-- Thread `t` of engine `p` issues the instruction at its PC, if that is `op` (R246, R256): the breakpoint trap comes
first; `eff` is the instruction's effect from its word. A word that is not `op` leaves the state as it is. -/
def State.issue (s : State) (p t : Nat) (op : SwOp) (eff : Word → State → State) : State :=
  if !s.canIssue p t then s
  else
    let x := s.thr p t
    if 0x7FFC < x.pc then s
    else
      let w := s.fetch p x.pc
      if swDecode w ≠ some op then s
      else if x.breakpc ≠ 0 ∧ x.breakpc.toNat = x.pc then s.trap p t 0x21 (wd x.pc)
      else eff w (s.took p t (swVector w))

/-- Complete an instruction that changes the thread alone. -/
def State.done (s : State) (p t : Nat) (f : Thread → Thread) : State :=
  (s.modThr p t fun x => (f x).step).retire p t

/-- ILLEGAL trap of a word. -/
def State.illegal (s : State) (p t : Nat) (w : Word) : State := s.trap p t 1 w
/-- WRONG_STATE trap of a word. -/
def State.wrongState (s : State) (p t : Nat) (w : Word) : State := s.trap p t 8 w

/-- ILLEGAL_INSTRUCTION (R256, R274, R497): the fetch yields no instruction: a PC beyond 0x7FFC raises ACCESS, an
uncorrectable word IFETCH_POISON, and a word that no table lists ILLEGAL. `e` is what ECC finds on the fetch. -/
def execIllegalInstruction (p t : Nat) (e : ReadErr) (s : State) : Step :=
  .next (
    if !s.canIssue p t then s
    else
      let x := s.thr p t
      if 0x7FFC < x.pc then s.trap p t 3 (wd x.pc)
      else
        let w := s.fetch p x.pc
        let s1 := s.eccCount (pENG p) Off.eng_CNT_IMEM 12 e
        if e = .uncorrectable then s1.trap p t 7 (wd x.pc)
        else if swDecode w = none then s1.illegal p t w
        else s1)

/-! ## Engine memory -/

/-- Where an engine address lies (*Engine address map*): data memory, home cluster shared memory as a physical address, or
nowhere. -/
inductive EngAddr where
  | dmem (a : Nat)
  | shm (k a : Nat)
  | bad
deriving DecidableEq, Repr

/-- The range of `n` bytes at engine address `a`. -/
def State.engAddr (s : State) (p a n : Nat) : EngAddr :=
  if a + n ≤ 0x20000 then .dmem a
  else if 0x200000 ≤ a ∧ a + n ≤ 0x400000 then
    match s.homeOf p with
    | some k => .shm k (shmBase + k * 0x200000 + (a - 0x200000))
    | none => .bad
  else .bad

/-- Bytes of data memory. -/
def State.dpeek (s : State) (p a n : Nat) : List Byte := (List.range n).map fun i => Map.get (fun _ => 0) (s.eng p).dmem (a + i)

/-- Is any 8-byte word of a data-memory range stored as the poison code? -/
def State.dpoisoned (s : State) (p a n : Nat) : Bool :=
  (List.range ((a + n + 7) / 8 - a / 8)).any fun i => Map.get (fun _ => false) (s.eng p).dpoison (a / 8 + i)

/-- Mark or clear the poison code of a data-memory word. -/
def State.setDpoison (s : State) (p w : Nat) (b : Bool) : State :=
  s.modEng p fun e => { e with dpoison := Map.put (fun _ => false) e.dpoison w b }

/-- Store bytes in data memory, without marks. -/
def State.dpoke (s : State) (p a : Nat) : List Byte → State
  | [] => s
  | b :: bs => (s.modEng p fun e => { e with dmem := Map.put (fun _ => 0) e.dmem a b }).dpoke p (a + 1) bs

/-- Split bytes at 8-byte borders. -/
def pieces8 : Nat → Nat → List Byte → List (Nat × List Byte)
  | 0, _, _ => []
  | _, _, [] => []
  | f + 1, a, bs => let n := 8 - a % 8; (a, bs.take n) :: pieces8 f (a + n) (bs.drop n)

/-- Store bytes in data memory: a whole word clears its poison code, a part of a poisoned word is not stored
(notes/assumptions/54.md). -/
def State.dstore (s : State) (p a : Nat) (bs : List Byte) : State :=
  (pieces8 (bs.length + 1) a bs).foldl (fun t e =>
    if e.2.length = 8 then (t.setDpoison p (e.1 / 8) false).dpoke p e.1 e.2
    else if t.dpoisoned p e.1 1 then t
    else t.dpoke p e.1 e.2) s

/-- A store by a thread. -/
def State.engStore (s : State) (p : Nat) (a : EngAddr) (bs : List Byte) : State :=
  match a with
  | .dmem o => s.dstore p o bs
  | .shm _ o => s.busWrite (pENG p) o bs
  | .bad => s

/-- What ECC finds at a read of engine `p`'s data memory, with its counts (R248, R497). -/
def State.dmemErr (s : State) (p : Nat) (e : ReadErr) : ReadErr × State :=
  let r := s.takeErr (pENG p) e
  (r.1, r.2.eccCount (pENG p) Off.eng_CNT_DMEM 11 r.1)

/-- What ECC finds at a read of cluster `k`'s shared memory, with its counts and event (R248, R497). -/
def State.shmErr (s : State) (k : Nat) (e : ReadErr) : ReadErr × State :=
  let r := s.takeErr (pCLUS k) e
  let s1 := r.2.eccCount (pCLUS k) Off.clus_SHM_CNT 8 r.1
  (r.1, if r.1 = .uncorrectable then s1.produce (pCLUS k) 2 else s1)

/-- What a load finds: bytes, or the cause of a trap (R274, R497), with the counts of an ECC error. -/
def State.engLoad (s : State) (p : Nat) (a : EngAddr) (n : Nat) (e : ReadErr) : Except Nat (List Byte) × State :=
  match a with
  | .bad => (.error 3, s)
  | .dmem o =>
    if s.dpoisoned p o n then (.error 5, s)
    else
      let r := s.dmemErr p e
      (if r.1 = .uncorrectable then .error 4 else .ok (s.dpeek p o n), r.2)
  | .shm k o =>
    if !s.alive (pCLUS k) || s.anyPoison o n then (.error 5, s)
    else
      let r := s.shmErr k e
      (if r.1 = .uncorrectable then .error 6 else .ok (s.peek o n), r.2)

/-- An access of thread `t` to shared memory may be in flight for 48 cycles (*Result latencies*). -/
def State.reach (s : State) (p t a : Nat) : State :=
  if a < 0x200000 then s else s.modEng p fun e => { e with far := Map.put (fun _ => 0) e.far t (s.now + 11) }

/-- A load of `n` bytes with alignment `al` at address `a`: `f` takes the bytes (R249, R274). -/
def State.load (s : State) (p t a n al : Nat) (e : ReadErr) (f : List Byte → State → State) : State :=
  if a % al ≠ 0 then s.trap p t 2 (wd a)
  else
    let r := (s.reach p t a).engLoad p (s.engAddr p a n) n e
    match r.1 with
    | .ok bs => f bs r.2
    | .error c => r.2.trap p t c (wd a)

/-- A store of bytes with alignment `al` (R249). -/
def State.store (s : State) (p t a al : Nat) (bs : List Byte) (f : State → State) : State :=
  if a % al ≠ 0 then s.trap p t 2 (wd a)
  else match s.engAddr p a bs.length with
    | .bad => s.trap p t 3 (wd a)
    | x => f (s.engStore p x bs)

/-! ## Ends of threads and items -/

/-- The thread's item is reissued (R264). -/
def State.reissueItem (s : State) (p t : Nat) (visible : Bool) : State :=
  match (s.thr p t).wi with
  | none => s
  | some w =>
    let s1 := if s.holdMatches w.handle w.epoch then s.holdReissue (w.handle % 1024) visible else s
    s1.modThr p t fun x => { x with wi := none }

/-- A thread goes IDLE. -/
def State.idle (s : State) (p t : Nat) : State :=
  (s.modThr p t fun x => { x with st := 0, wait := none, park := false, yielded := [] }).onQm fun q =>
    { q with takers := q.takers.filter fun k => !(k.page == pENG p && k.thread == t) }

/-- A thread waits (R245). -/
def State.waitFor (s : State) (p t : Nat) (w : ThreadWait) : State :=
  s.modThr p t fun x => { x with st := 2, wait := some w }

/-- A wait ends with a result: the instruction completes and the thread runs again (R245). -/
def State.resume (s : State) (p t : Nat) (f : Thread → Thread) : State :=
  (s.modThr p t fun x => { (f { x with wait := none }).step with st := 1 }).retire p t

end Sys2Proof.Machine
end

