-- ==== Sys2Proof/Machine/SwQueue.lean ====
section
/-!
DEFINITION. Work items, engine DMA and synchronisation of the Swarm (R260 to R273, R447, R450, R453 to R455).
-/

namespace Sys2Proof.Machine

open Sys2Proof

/-! ## Work items -/

/-- The slot of a thread in the hold table (R453): 4 × logical engine + thread. -/
def State.holdSlot (s : State) (p t : Nat) : Option Nat := (s.logOf p).map fun e => 4 * e + t

/-- Is queue `q` open to engines (R450)? -/
def State.engineQueue (s : State) (q : Nat) : Bool := s.qValid q && (s.qView q).engine

/-- Items of a queue that a taker can have now. -/
def State.itemsReady (s : State) (q : Nat) : Nat :=
  (s.qView q).level + (s.qm.reissue.filter fun r => r.queue == q && r.visible).length

/-- The takers that wait on queue `q`, in the order of R447. -/
def State.takersOf (s : State) (q : Nat) : List Taker := s.qm.takers.filter fun k => k.queue == q

/-- A thread takes the next item of queue `q` (R447, R453, R454, R260): the hold, v_D, the status 0 in s_B and the WI
CSRs. -/
def State.takeItem (s : State) (slot q d b : Nat) : State × (Thread → Thread) :=
  let r := s.qReissue q
  let desc := match r with
    | some x => x.desc
    | none => s.qHead q
  let s1 := match r with
    | some x =>
      (((s.onQm fun m => { m with reissue := m.reissue.filter fun y => y != x }).modHold x.slot fun h =>
        if h.handle = x.handle then { h with pending := false } else h).countWrap (pQM 0) Off.qm0_CNT_OPS 0 32 1)
    | none => s.qDrop q
  let s2 := s1.holdTake slot q r desc
  let h := s2.hold slot
  (s2, fun x =>
    let y := { x with wi := some ⟨h.handle, h.epoch, q, h.cls, s.now, false⟩ }
    (y.vput d (fit 8 0 desc ++ [wd h.handle, wd h.epoch, wd (q + h.cls * 2 ^ 20)])).sput b 0)

/-- QTAKE and QTRY (R260, R261, R447, R450): WRONG_STATE while an item is held; IDLE while a PARK is pending; status 2 for a
queue that is not valid or not open to engines; takers that already wait come first. A fenced queue manager serves no
take (R473). -/
def State.qtake (s : State) (p t : Nat) (w : Word) (wait : Bool) : State :=
  let x := s.thr p t
  let q := (x.sget (fA w)).toNat
  if x.wi.isSome then s.wrongState p t w
  else if x.park then (s.retire p t).idle p t
  else
    let park := (s.waitFor p t (.take q (fD w) (fB w))).onQm fun m => { m with takers := m.takers ++ [⟨pENG p, t, q⟩] }
    if !s.alive (pQM 0) then
      if wait then park else let r := s.drawWord; r.2.done p t fun y => y.sput (fB w) r.1
    else match s.holdSlot p t with
      | none => s.done p t fun y => y.sput (fB w) 2
      | some slot =>
        if !s.engineQueue q then s.done p t fun y => y.sput (fB w) 2
        else if (s.takersOf q).length < s.itemsReady q then
          let r := s.takeItem slot q (fD w) (fB w)
          r.1.done p t r.2
        else if wait then park
        else s.done p t fun y => y.sput (fB w) 1

/-- QTAKE (R260). -/
def execQtake (p t : Nat) (s : State) : Step := .next (s.issue p t .qtake fun w u => u.qtake p t w true)

/-- QTRY (R260). -/
def execQtry (p t : Nat) (s : State) : Step := .next (s.issue p t .qtry fun w u => u.qtake p t w false)

/-- An engine's push (R262, R450, R455): the status, or none while the queue is full. With an item held its epoch is checked
first; a STALE push is dropped and the thread no longer holds the item. A fenced queue manager drops the push (R473) and
the spec states no status. -/
def State.enginePush (s : State) (p t q : Nat) (d : Words) : Option Word × State :=
  if !s.alive (pQM 0) then let r := s.drawWord; (some r.1, r.2)
  else
    let stale := match (s.thr p t).wi with
      | some w => if s.holdMatches w.handle w.epoch then none else some w
      | none => none
    match stale with
    | some w => (some 3, (s.stale q w.handle w.epoch).modThr p t fun x => { x with wi := none })
    | none =>
      if !s.qValid q then (some 2, s.count (pQM 0) Off.qm0_CNT_DROP 16 16 1)
      else if !(s.qView q).engine then (some 2, s)
      else if (s.qView q).full then (none, s)
      else (some 0, s.qLand q d)

/-- QPUSH and QPUSHNB. -/
def State.qpush (s : State) (p t : Nat) (w : Word) (wait : Bool) : State :=
  let x := s.thr p t
  let q := (x.sget (fA w)).toNat
  let d := (x.vget (fB w)).take 8
  let r := s.enginePush p t q d
  match r.1 with
  | some st => r.2.done p t fun y => y.sput (fD w) st
  | none => if wait then s.waitFor p t (.push q (fD w) d) else s.done p t fun y => y.sput (fD w) 1

/-- QPUSH (R262). -/
def execQpush (p t : Nat) (s : State) : Step := .next (s.issue p t .qpush fun w u => u.qpush p t w true)

/-- QPUSHNB (R262). -/
def execQpushnb (p t : Nat) (s : State) : Step := .next (s.issue p t .qpushnb fun w u => u.qpush p t w false)

/-- QDONE and QREL (R260, R262): WRONG_STATE without an item; STALE when the epoch is no longer current. -/
def State.endItem (s : State) (p t : Nat) (w : Word) (eff : Nat → State → State) : State :=
  match (s.thr p t).wi with
  | none => s.wrongState p t w
  | some i =>
    if !s.alive (pQM 0) then let r := s.drawWord; r.2.done p t fun y => y.sput (fD w) r.1
    else if s.holdMatches i.handle i.epoch then
      (eff (i.handle % 1024) s).done p t fun y => { y.sput (fD w) 0 with wi := none }
    else (s.stale i.queue i.handle i.epoch).done p t fun y => { y.sput (fD w) 3 with wi := none }

/-- QDONE (R262). -/
def execQdone (p t : Nat) (s : State) : Step :=
  .next (s.issue p t .qdone fun w u => u.endItem p t w fun i v => v.holdDone i)

/-- QREL (R264). -/
def execQrel (p t : Nat) (s : State) : Step :=
  .next (s.issue p t .qrel fun w u => u.endItem p t w fun i v => v.holdReissue i true)

/-- QLEVEL: the queue's fill level; the spec states none for a queue that is not valid. -/
def execQlevel (p t : Nat) (s : State) : Step :=
  .next (s.issue p t .qlevel fun w u =>
    let q := ((u.thr p t).sget (fA w)).toNat
    let r := if u.qValid q then (wd (u.qView q).level, u) else u.drawWord
    r.2.done p t fun y => y.sput (fD w) r.1)

/-- QUEUE_TAKE (R447, R450, R452): the hardware consumer of page `p` takes the next item of queue `q`; its words stand in the
model's read port. `e` is what ECC finds in the queue's cached state. -/
def execQueueTake (p q : Nat) (e : ReadErr) (s : State) : Step :=
  if !s.alive p then .next s
  else
    let r := (s.qEcc q e).take q
    .next (r.2.onResp fun _ => { words := r.1.getD [] })

/-! ## Engine DMA -/

/-- Fields of a DMA descriptor (*DMA descriptor*). -/
structure DmaDesc where
  src : Nat
  dst : Nat
  len : Nat
  rows : Nat
  flags : Nat
  srcStride : Int
  dstStride : Int

/-- The descriptor that 8 words are. -/
def dmaDesc (d : Words) : DmaDesc :=
  { src := dwordAt d 0, dst := dwordAt d 2, len := (wordAt d 4).toNat, rows := wfld (wordAt d 5) 0 16,
    flags := wfld (wordAt d 5) 16 16, srcStride := signed 32 (wordAt d 6).toNat, dstStride := signed 32 (wordAt d 7).toNat }

/-- FILL, EVT. -/
def DmaDesc.fill (d : DmaDesc) : Bool := d.flags.testBit 0
def DmaDesc.evt (d : DmaDesc) : Bool := d.flags.testBit 1

/-- Start of row `r` of an address field. -/
def rowAt (a : Nat) (stride : Int) (r : Nat) : Int := (a % 2 ^ 48 : Nat) + r * stride

/-- A physical range that lies in DRAM, a cluster shared memory or the always-on SRAM (R268). -/
def State.dmaPhys (s : State) (a n : Nat) : Bool :=
  match target a with
  | .dram => s.inDram a n
  | .sram => decide (a + n ≤ sramBase + 0x80000)
  | .shm _ => decide (a + n ≤ shmBase + 34 * 0x200000)
  | _ => false

/-- A row's range of an address field is allowed (R268). -/
def State.dmaRange (s : State) (p a : Nat) (row : Int) (n : Nat) : Bool :=
  decide (0 ≤ row) &&
    if a.testBit 63 then match s.engAddr p row.toNat n with
      | .bad => false
      | _ => true
    else s.dmaPhys row.toNat n

/-- A valid descriptor (R268). -/
def State.dmaValid (s : State) (p : Nat) (d : DmaDesc) : Bool :=
  decide (d.rows ≠ 0) && decide (d.len ≠ 0) && decide (d.len ≤ 131072) && decide (d.flags < 4) &&
  (d.fill || decide (d.src / 2 ^ 48 % 2 ^ 15 = 0)) && decide (d.dst / 2 ^ 48 % 2 ^ 15 = 0) &&
  (List.range d.rows).all fun r =>
    (d.fill || s.dmaRange p d.src (rowAt d.src d.srcStride r) d.len) && s.dmaRange p d.dst (rowAt d.dst d.dstStride r) d.len

/-- A range split at borders of `u` bytes, as (address, length). -/
def spans (u a n : Nat) : List (Nat × Nat) :=
  (List.range ((a + n + u - 1) / u - a / u)).map fun i =>
    let lo := max a (u * (a / u + i))
    let hi := min (a + n) (u * (a / u + i + 1))
    (lo, hi - lo)

/-- Bytes with their poison marks from the fabric, block by block. -/
def State.dmaBus (s : State) : List (Nat × Nat) → List (Byte × Bool) × State
  | [] => ([], s)
  | (a, n) :: rest =>
    let r := s.busRead a n
    let q := r.2.dmaBus rest
    (r.1.bytes.map (fun b => (b, r.1.bad)) ++ q.1, q.2)

/-- A row of the source (R269). -/
def State.dmaSource (s : State) (p a row n : Nat) : List (Byte × Bool) × State :=
  let bus := fun x => s.dmaBus (spans 64 x n)
  if a.testBit 63 then match s.engAddr p row n with
    | .dmem o => ((List.range n).map fun i => ((s.dpeek p (o + i) 1).headD 0, s.dpoisoned p (o + i) 1), s)
    | .shm _ o => bus o
    | .bad => ([], s)
  else bus row

/-- One unit of the destination: poison-marked data is written as the poison code (R269). -/
def State.dmaUnit (s : State) (p : Nat) (localMem : Bool) (a : Nat) (bs : List (Byte × Bool)) : State :=
  let bad := bs.any (·.2)
  let raw := bs.map (·.1)
  if localMem then if bad then s.setDpoison p (a / 8) true else s.dstore p a raw
  else if bad then s.busPoison (pENG p) a raw.length else s.busWrite (pENG p) a raw

/-- The units of a destination row. -/
def State.dmaUnits (s : State) (p : Nat) (localMem : Bool) (a : Nat) (bs : List (Byte × Bool)) : State :=
  (spans (if localMem then 8 else 64) a bs.length).foldl (fun u e =>
    u.dmaUnit p localMem e.1 ((bs.drop (e.1 - a)).take e.2)) s

/-- A row written to its destination. -/
def State.dmaDest (s : State) (p a row : Nat) (bs : List (Byte × Bool)) : State :=
  if a.testBit 63 then match s.engAddr p row bs.length with
    | .dmem o => s.dmaUnits p true o bs
    | .shm _ o => s.dmaUnits p false o bs
    | .bad => s
  else s.dmaUnits p false row bs

/-- The first `n` bytes of row `r` are copied; `bad` names a row and an 8-byte word of it that ECC cannot correct. -/
def State.dmaRow (s : State) (p : Nat) (d : DmaDesc) (bad : Option (Nat × Nat)) (r n : Nat) : State :=
  let a := (rowAt d.src d.srcStride r).toNat
  let got := if d.fill then (List.replicate n ((0 : Byte), false), s) else s.dmaSource p d.src a n
  let marked := match bad with
    | some w => if w.1 = r then got.1.zipIdx.map fun x => (x.1.1, x.1.2 || (a + x.2) / 8 == w.2) else got.1
    | none => got.1
  got.2.dmaDest p d.dst (rowAt d.dst d.dstStride r).toNat marked

/-- The first `n` bytes of a descriptor's rows are copied, in order. -/
def State.dmaCopy (s : State) (p : Nat) (d : DmaDesc) (bad : Option (Nat × Nat)) (n : Nat) : State :=
  (List.range (min d.rows ((n + d.len - 1) / max 1 d.len))).foldl (fun u r => u.dmaRow p d bad r (min d.len (n - r * d.len))) s

/-- What ECC finds at byte `i` of a descriptor's source, in row order (R248, R497): the row and 8-byte word that it cannot correct. -/
def State.dmaErr (s : State) (p : Nat) (d : DmaDesc) (e : ReadErr) (i : Nat) : Option (Nat × Nat) × State :=
  let r := i / max 1 d.len
  let a := (rowAt d.src d.srcStride r).toNat + i % max 1 d.len
  let at_ := if d.fill || decide (d.rows ≤ r) then EngAddr.bad
    else if d.src.testBit 63 then s.engAddr p a 1
    else match target a with
      | .shm k => .shm k a
      | _ => .bad
  let q := match at_ with
    | .dmem _ => s.dmemErr p e
    | .shm k _ => s.shmErr k e
    | .bad => (.clean, s)
  (if q.1 = .uncorrectable then some (r, a / 8) else none, q.2)

/-- The channel halts (R268): the status, every later descriptor cancelled, DMA_HALT. -/
def State.dmaHalt (s : State) (p t status : Nat) : State :=
  ((s.modThr p t fun x => { x with dmaQ := [], dmaHalted := true, dmaStatus := status }).raise (pENG p) 13).setInt (pENG p) 1

/-- DMA_DESC_COMPLETE (R248, R267 to R269, R273): the descriptor in front of thread `t`'s channel has been carried out, or halts
the channel: read with a poison mark, invalid, or with a transaction that timed out (`bus`). `e` is what ECC found at byte `i` of
its source. -/
def execDmaDescComplete (p t : Nat) (bus : Bool) (e : ReadErr) (i : Nat) (s : State) : Step :=
  match (s.thr p t).dmaQ with
  | [] => .next s
  | r :: rest =>
    let d := dmaDesc r.desc
    .next (
      if !s.engRuns p then s
      else if r.bad then s.dmaHalt p t 4
      else if !s.dmaValid p d then s.dmaHalt p t 2
      else if bus then s.dmaHalt p t 3
      else
        let w := s.dmaErr p d e i
        let s1 := (w.2.dmaCopy p d w.1 (d.rows * d.len)).modThr p t fun x => { x with dmaQ := rest }
        if d.evt then s1.produce (pENG p) 3 else s1)

/-- Every descriptor of a channel is cancelled (R280): the one in front stops at its next 64-byte border, or its end, how far it got being
free. -/
def State.dmaCancel (s : State) (p t : Nat) : State :=
  match (s.thr p t).dmaQ with
  | [] => s
  | r :: _ =>
    let d := dmaDesc r.desc
    let got := s.drawNat
    let s1 := if !r.bad && s.engRuns p && s.dmaValid p d then
        got.2.dmaCopy p d none (min (d.rows * d.len) (64 * got.1))
      else s
    s1.modThr p t fun x => { x with dmaQ := [], dmaStatus := if x.dmaHalted then x.dmaStatus else 5 }

/-- A descriptor enters the channel (R267): its ticket, the tickets skipping 0. -/
def Thread.submit (x : Thread) (d : Nat) (desc : Words) (bad : Bool) : Thread :=
  let k := match x.wi with
    | some i => i.cls
    | none => 3
  let y := { x with dmaQ := x.dmaQ ++ [{ ticket := x.dmaNext, desc := desc, bad := bad, cls := k : DmaReq }],
                    dmaNext := if x.dmaNext = 65535 then 1 else x.dmaNext + 1 }
  y.sput d (wd x.dmaNext)

/-- DMAQ (R248, R267, R268): `e` is what ECC finds at the descriptor. -/
def execDmaq (p t : Nat) (e : ReadErr) (s : State) : Step :=
  .next (s.issue p t .dmaq fun w u =>
    let x := u.thr p t
    let a := (x.sget (fA w)).toNat
    if a % 32 ≠ 0 then u.trap p t 2 (wd a)
    else if 0x20000 < a + 32 then u.trap p t 3 (wd a)
    else if x.dmaHalted then u.wrongState p t w
    else
      let desc := bytesWords 8 (u.dpeek p a 32)
      let r := u.dmemErr p e
      let bad := u.dpoisoned p a 32 || r.1 == .uncorrectable
      if x.dmaQ.length < 8 then r.2.done p t fun y => y.submit (fD w) desc bad
      else r.2.waitFor p t (.dmaq (fD w) desc bad))

/-- Is a ticket outstanding? -/
def Thread.outstanding (x : Thread) (ticket : Nat) : Bool := x.dmaQ.any fun r => r.ticket == ticket

/-- Is a descriptor up to ticket `k` outstanding, tickets counting from 1 to 65,535 and round again (R267, notes/assumptions/178.md)? -/
def Thread.upTo (x : Thread) (k : Nat) : Bool := x.dmaQ.any fun r => decide ((k % 65536 + 65535 - r.ticket) % 65535 < 32768)

/-- DMAW (R267). -/
def execDmaw (p t : Nat) (s : State) : Step :=
  .next (s.issue p t .dmaw fun w u =>
    let x := u.thr p t
    let k := (x.sget (fA w)).toNat
    if x.upTo k then u.waitFor p t (.dmaw (fD w) k) else u.done p t fun y => y.sput (fD w) (wd y.dmaStatus))

/-- DMAT (R267): 1 while the ticket is outstanding. -/
def execDmat (p t : Nat) (s : State) : Step :=
  .next (s.issue p t .dmat fun w u =>
    u.done p t fun y =>
      y.sput (fD w) (if y.outstanding (y.sget (fA w)).toNat then 1 else wd y.dmaStatus))

/-- DMARST (R267): cancels the channel, clears HALTED and the status; tickets count from 1 again. -/
def execDmarst (p t : Nat) (s : State) : Step :=
  .next (s.issue p t .dmarst fun _ u =>
    (u.dmaCancel p t).done p t fun y => { y with dmaHalted := false, dmaStatus := 0, dmaNext := 1 })

/-! ## Atomics -/

/-- An atomic (R271): the old value goes to s_D, `f old s_B s_D` to the word. -/
def State.amo (s : State) (p t : Nat) (w : Word) (e : ReadErr) (f : Word → Word → Word → Word) : State :=
  let x := s.thr p t
  let a := (x.sget (fA w)).toNat
  s.load p t a 4 4 e fun bs u =>
    let old := wd (ofLeBytes bs)
    let new := f old (x.sget (fB w)) (x.sget (fD w))
    (u.engStore p (u.engAddr p a 4) (leBytes 4 new.toNat)).done p t fun y => y.sput (fD w) old

/-- The smaller and larger of two words under an order. -/
def pickW (lt : Bool) (a b : Word) : Word := if lt then a else b

/-- AMOADD (R271). -/
def execAmoadd (p t : Nat) (e : ReadErr) (s : State) : Step :=
  .next (s.issue p t .amoadd fun w u => u.amo p t w e fun o b _ => o + b)
/-- AMOSWAP (R271). -/
def execAmoswap (p t : Nat) (e : ReadErr) (s : State) : Step :=
  .next (s.issue p t .amoswap fun w u => u.amo p t w e fun _ b _ => b)
/-- AMOMIN (R271). -/
def execAmomin (p t : Nat) (e : ReadErr) (s : State) : Step :=
  .next (s.issue p t .amomin fun w u => u.amo p t w e fun o b _ => pickW (decide (signed 32 o.toNat ≤ signed 32 b.toNat)) o b)
/-- AMOMAX (R271). -/
def execAmomax (p t : Nat) (e : ReadErr) (s : State) : Step :=
  .next (s.issue p t .amomax fun w u => u.amo p t w e fun o b _ => pickW (decide (signed 32 b.toNat ≤ signed 32 o.toNat)) o b)
/-- AMOMINU (R271). -/
def execAmominu (p t : Nat) (e : ReadErr) (s : State) : Step :=
  .next (s.issue p t .amominu fun w u => u.amo p t w e fun o b _ => pickW (decide (o.toNat ≤ b.toNat)) o b)
/-- AMOMAXU (R271). -/
def execAmomaxu (p t : Nat) (e : ReadErr) (s : State) : Step :=
  .next (s.issue p t .amomaxu fun w u => u.amo p t w e fun o b _ => pickW (decide (b.toNat ≤ o.toNat)) o b)
/-- AMOCAS (R271). -/
def execAmocas (p t : Nat) (e : ReadErr) (s : State) : Step :=
  .next (s.issue p t .amocas fun w u => u.amo p t w e fun o b d => if o = d then b else o)

/-! ## Barriers and events -/

/-- The threads of logical cluster `k` that wait at barrier `b`, as (engine, thread, s_D). -/
def State.barWaiters (s : State) (k b : Nat) : List (Nat × Nat × Nat) :=
  s.swarm.thr.filterMap fun e =>
    match e.2.wait with
    | some (.bar b' d) => if b' = b ∧ s.homeOf (e.1 / 4) = some k then some (e.1 / 4, e.1 % 4, d) else none
    | _ => none

/-- Release the waiting threads of a barrier with a status. -/
def State.barRelease (s : State) (k b : Nat) (status : Word) : State :=
  (s.barWaiters k b).foldl (fun u e => u.resume e.1 e.2.1 fun x => x.sput e.2.2 status) s

/-- Offset of BAR_STATb. -/
def barStat (b : Nat) : Nat := Off.clus_BAR_STAT0 + 4 * b

/-- BAR (R272): the arrival that brings the count to COUNT releases everyone with status 0. -/
def execBar (p t : Nat) (s : State) : Step :=
  .next (s.issue p t .bar fun w u =>
    let k := (u.homeOf p).getD (p / 8)
    let b := fB w
    let n := u.fld (pCLUS k) (barStat b) 0 6 + 1
    if !u.alive (pCLUS k) then u.waitFor p t (.bar b (fD w))
    else if u.fld (pCLUS k) (Off.clus_BAR_CFG0 + 4 * b) 0 6 ≤ n then
      let u1 := ((u.setFld (pCLUS k) (barStat b) 0 6 0).putBit (pCLUS k) (barStat b) 8 false).countWrap (pCLUS k) (barStat b) 16 16 1
      (u1.barRelease k b 0).done p t fun y => y.sput (fD w) 0
    else (u.setFld (pCLUS k) (barStat b) 0 6 n).waitFor p t (.bar b (fD w)))

/-- A condemnation breaks every barrier of logical cluster `k` with arrivals pending (R272). -/
def State.barBreak (s : State) (k : Nat) : State :=
  (List.range 16).foldl (fun u b =>
    if u.fld (pCLUS k) (barStat b) 0 6 = 0 then u
    else
      let u1 := (u.setFld (pCLUS k) (barStat b) 0 6 0).putBit (pCLUS k) (barStat b) 8 true
      ((u1.barRelease k b 1).raise (pCLUS k) 11).produce (pCLUS k) 1) s

/-- SIGEV (R273). -/
def execSigev (p t : Nat) (s : State) : Step :=
  .next (s.issue p t .sigev fun w u => (u.produce (pENG p) (fB w)).done p t id)

/-- WAITEV (R273): clears a pending bit, or waits for it. -/
def execWaitev (p t : Nat) (s : State) : Step :=
  .next (s.issue p t .waitev fun w u =>
    if u.inBusy (pENG p) (fB w) then (u.setBusy (pENG p) (fB w) false).done p t id
    else u.waitFor p t (.event (fB w)))

/-- TESTEV (R273). -/
def execTestev (p t : Nat) (s : State) : Step :=
  .next (s.issue p t .testev fun w u =>
    let b := u.inBusy (pENG p) (fB w)
    (u.setBusy (pENG p) (fB w) false).done p t fun y => y.sput (fD w) (wd b.toNat))

/-- ENGINE_EVENT_IN (R273, R479): an event of the bound channel reaches input `k` of engine `p`. -/
def execEngineEventIn (p k : Nat) (s : State) : Step :=
  let w := s.reg (pENG p) (Off.hdr_PG_EVT_IN0 + 4 * (k % 4))
  .next (if bitAt w 8 then s.reachInput (wfld w 0 8) (pENG p) (k % 4) else s)

/-! ## The end of a wait -/

/-- THREAD_WAIT_END (R245, R261, R447): thread `t` of engine `p` returns to RUN when what it waits for has come: an item,
for the taker that has waited longest; room on its queue or in its channel; its ticket; its event. Barriers release their
threads themselves. -/
def execThreadWaitEnd (p t : Nat) (s : State) : Step :=
  let x := s.thr p t
  .next (
    if !s.engRuns p || x.st != 2 then s
    else match x.wait with
      | none => s
      | some (.take q d b) =>
        if x.park then s.idle p t
        else if !s.alive (pQM 0) || !s.engineQueue q || s.itemsReady q == 0 then s
        else match s.holdSlot p t, (s.takersOf q).head? with
          | some slot, some k =>
            if k.page = pENG p ∧ k.thread = t then
              let s1 := s.onQm fun m => { m with takers := m.takers.filter fun y => y != k }
              let r := s1.takeItem slot q d b
              r.1.resume p t r.2
            else s
          | _, _ => s
      | some (.push q d desc) =>
        let r := s.enginePush p t q desc
        match r.1 with
        | some st => r.2.resume p t fun y => y.sput d st
        | none => s
      | some (.dmaq d desc bad) =>
        if x.dmaHalted then s.wrongState p t (s.fetch p x.pc)
        else if x.dmaQ.length < 8 then s.resume p t fun y => y.submit d desc bad
        else s
      | some (.dmaw d k) => if x.upTo k then s else s.resume p t fun y => y.sput d (wd y.dmaStatus)
      | some (.bar _ _) => s
      | some (.event k) =>
        if s.inBusy (pENG p) k then (s.setBusy (pENG p) k false).resume p t id else s)

end Sys2Proof.Machine
end

