-- ==== Sys2Proof/Machine/SwScalar.lean ====
section
/-!
DEFINITION. Scalar instructions of the Swarm: system functions, CSRs, ALU, fp32, loads and stores, branches and hardware
loops (R249, R250, R254, R256, R258, R259, R274).
-/

namespace Sys2Proof.Machine

open Sys2Proof

/-! ## System functions -/

/-- NOP (R256). -/
def execNop (p t : Nat) (s : State) : Step := .next (s.issue p t .nop fun _ u => u.done p t id)

/-- FENCE (R250): every earlier store has been acknowledged when the model's next step begins. -/
def execFence (p t : Nat) (s : State) : Step := .next (s.issue p t .fence fun _ u => u.done p t id)

/-- ERET (R274): PC ← EPC and IN_TRAP clears; WRONG_STATE outside a trap. -/
def execEret (p t : Nat) (s : State) : Step :=
  .next (s.issue p t .eret fun w u =>
    if (u.thr p t).inTrap then (u.modThr p t fun x => { x with pc := x.epc.toNat, inTrap := false }).retire p t
    else u.wrongState p t w)

/-- TRAP (R274): cause 0x20 with the 10-bit code of D and A. -/
def execTrap (p t : Nat) (s : State) : Step :=
  .next (s.issue p t .trap fun w u => u.trap p t 0x20 (wd (fD w * 32 + fA w)))

/-- Engine cycles since reset, 5 per tick of running clock (*Thread CSRs*, R570, notes/assumptions/52.md). -/
def State.engCycles (s : State) (p : Nat) : Nat := (s.engTime p - (s.eng p).since) / 20

/-- CSR number of CSRR and CSRW: instruction [15:8]. -/
def csrNum (w : Word) : Nat := wfld w 8 8

/-- WI_EPOCH and WI_QUEUE of a thread. -/
def Thread.wiEpoch (x : Thread) : Word := match x.wi with | some i => wd (i.epoch + 65536) | none => 0
def Thread.wiQueue (x : Thread) : Word := match x.wi with | some i => wd (i.queue + i.cls * 2 ^ 20) | none => 0
def Thread.wiHandle (x : Thread) : Word := match x.wi with | some i => wd i.handle | none => 0

/-- The value of a CSR (*Thread CSRs*); none for a number that it does not list. -/
def State.csr (s : State) (p t n : Nat) : Option Word :=
  let x := s.thr p t
  match n with
  | 0x00 => some (wd t)
  | 0x01 => some (wd ((s.logOf p).getD 0x1FF))
  | 0x02 => some (wd p)
  | 0x03 => some (wd (x.inTrap.toNat + x.depth * 2))
  | 0x04 => some x.tvec
  | 0x05 => some x.epc
  | 0x06 => some (wd x.cause)
  | 0x07 => some x.tval
  | 0x08 => some x.wiHandle
  | 0x09 => some x.wiEpoch
  | 0x0A => some x.wiQueue
  | 0x0B => some (wd (s.engCycles p))
  | 0x0C => some (x.cycHi.getD (wd (s.engCycles p / 2 ^ 32)))
  | 0x0D => some (wd s.timeNs)
  | 0x0E => some (x.timeHi.getD (wd (s.timeNs / 2 ^ 32)))
  | 0x0F => some (Map.get (fun _ => 0) x.lcount 0)
  | 0x10 => some (Map.get (fun _ => 0) x.lcount 1)
  | 0x11 => some (Map.get (fun _ => 0) x.lbounds 0)
  | 0x12 => some (Map.get (fun _ => 0) x.lbounds 1)
  | 0x13 => some x.breakpc
  | _ => none

/-- CSRR (R259): a read of a low word latches its high word. -/
def execCsrr (p t : Nat) (s : State) : Step :=
  .next (s.issue p t .csrr fun w u =>
    match u.csr p t (csrNum w) with
    | none => u.illegal p t w
    | some v =>
      u.done p t fun x =>
        let y := x.sput (fD w) v
        if csrNum w = 0x0B then { y with cycHi := some (wd (u.engCycles p / 2 ^ 32)) }
        else if csrNum w = 0x0D then { y with timeHi := some (wd (u.timeNs / 2 ^ 32)) }
        else y)

/-- The loops that the loop CSRs hold (R258): a loop is active while its count is not 0, so a handler that writes saved values back makes
the interrupted loops active again (notes/assumptions/177.md). -/
def Thread.loops (x : Thread) : Thread :=
  { x with depth := if Map.get (fun _ => (0 : Word)) x.lcount 1 ≠ 0 then 2 else if Map.get (fun _ => (0 : Word)) x.lcount 0 ≠ 0 then 1 else 0 }

/-- A thread with a CSR written; none for a read-only or unlisted number (R259). -/
def Thread.csrPut (x : Thread) (n : Nat) (v : Word) : Option Thread :=
  match n with
  | 0x03 => some { x with inTrap := bitAt v 0 }
  | 0x04 => some { x with tvec := v }
  | 0x05 => some { x with epc := v }
  | 0x0F => some { x with lcount := Map.put (fun _ => 0) x.lcount 0 v }.loops
  | 0x10 => some { x with lcount := Map.put (fun _ => 0) x.lcount 1 v }.loops
  | 0x11 => some { x with lbounds := Map.put (fun _ => 0) x.lbounds 0 v }
  | 0x12 => some { x with lbounds := Map.put (fun _ => 0) x.lbounds 1 v }
  | 0x13 => some { x with breakpc := v }
  | _ => none

/-- CSRW (R259). -/
def execCsrw (p t : Nat) (s : State) : Step :=
  .next (s.issue p t .csrw fun w u =>
    match (u.thr p t).csrPut (csrNum w) ((u.thr p t).sget (fA w)) with
    | none => u.illegal p t w
    | some y => u.done p t fun _ => y)

/-- YIELD (R256): the thread does not issue until every other ready thread has issued once. -/
def execYield (p t : Nat) (s : State) : Step :=
  .next (s.issue p t .yield fun _ u =>
    (u.done p t id).modThr p t fun x =>
      { x with yielded := (List.range 4).filter fun i => i != t && (u.thr p i).st == 1 })

/-- EXIT (R256): the thread goes to IDLE; WRONG_STATE while it holds an item. -/
def execExit (p t : Nat) (s : State) : Step :=
  .next (s.issue p t .exit fun w u =>
    if (u.thr p t).wi.isSome then u.wrongState p t w else (u.retire p t).idle p t)

/-! ## Scalar ALU -/

/-- s_D ← f s_A s_B. -/
def State.alu (s : State) (p t : Nat) (w : Word) (f : Word → Word → Word) : State :=
  s.done p t fun x => x.sput (fD w) (f (x.sget (fA w)) (x.sget (fB w)))

/-- A truth value as a word. -/
def bw (b : Bool) : Word := wd b.toNat

/-- Signed and unsigned order. -/
def sltW (a b : Word) : Bool := decide (signed 32 a.toNat < signed 32 b.toNat)
def ultW (a b : Word) : Bool := decide (a.toNat < b.toNat)

/-- Arithmetic shift right. -/
def sraW (a : Word) (k : Nat) : Word := wd (unsigned 32 (signed 32 a.toNat / 2 ^ k))

/-- Leading zeros of 32 bits. -/
def clz32 (a : Word) : Nat := if a = 0 then 32 else 31 - a.toNat.log2

/-- ADD (R256): s_A + s_B. -/
def execAdd (p t : Nat) (s : State) : Step := .next (s.issue p t .add fun w u => u.alu p t w fun a b => a + b)

/-- SUB (R256): s_A − s_B. -/
def execSub (p t : Nat) (s : State) : Step := .next (s.issue p t .sub fun w u => u.alu p t w fun a b => a - b)

/-- AND (R256): bitwise AND. -/
def execAnd (p t : Nat) (s : State) : Step := .next (s.issue p t .and_ fun w u => u.alu p t w fun a b => a &&& b)

/-- OR (R256): bitwise OR. -/
def execOr (p t : Nat) (s : State) : Step := .next (s.issue p t .or_ fun w u => u.alu p t w fun a b => a ||| b)

/-- XOR (R256): bitwise XOR. -/
def execXor (p t : Nat) (s : State) : Step := .next (s.issue p t .xor_ fun w u => u.alu p t w fun a b => a ^^^ b)

/-- SLL (R256): left by s_B[4:0]. -/
def execSll (p t : Nat) (s : State) : Step := .next (s.issue p t .sll fun w u => u.alu p t w fun a b => wd (a.toNat * 2 ^ (b.toNat % 32)))

/-- SRL (R256): logical right by s_B[4:0]. -/
def execSrl (p t : Nat) (s : State) : Step := .next (s.issue p t .srl fun w u => u.alu p t w fun a b => wd (a.toNat / 2 ^ (b.toNat % 32)))

/-- SRA (R256): arithmetic right by s_B[4:0]. -/
def execSra (p t : Nat) (s : State) : Step := .next (s.issue p t .sra fun w u => u.alu p t w fun a b => sraW a (b.toNat % 32))

/-- SLT (R256): signed less-than. -/
def execSlt (p t : Nat) (s : State) : Step := .next (s.issue p t .slt fun w u => u.alu p t w fun a b => bw (sltW a b))

/-- SLTU (R256): unsigned less-than. -/
def execSltu (p t : Nat) (s : State) : Step := .next (s.issue p t .sltu fun w u => u.alu p t w fun a b => bw (ultW a b))

/-- MIN (R256): signed minimum. -/
def execMin (p t : Nat) (s : State) : Step := .next (s.issue p t .min fun w u => u.alu p t w fun a b => if sltW b a then b else a)

/-- MAX (R256): signed maximum. -/
def execMax (p t : Nat) (s : State) : Step := .next (s.issue p t .max fun w u => u.alu p t w fun a b => if sltW a b then b else a)

/-- MINU (R256): unsigned minimum. -/
def execMinu (p t : Nat) (s : State) : Step := .next (s.issue p t .minu fun w u => u.alu p t w fun a b => if ultW b a then b else a)

/-- MAXU (R256): unsigned maximum. -/
def execMaxu (p t : Nat) (s : State) : Step := .next (s.issue p t .maxu fun w u => u.alu p t w fun a b => if ultW a b then b else a)

/-- MUL (R256): low 32 bits of the product. -/
def execMul (p t : Nat) (s : State) : Step := .next (s.issue p t .mul fun w u => u.alu p t w fun a b => a * b)

/-- MULH (R256): signed high half. -/
def execMulh (p t : Nat) (s : State) : Step := .next (s.issue p t .mulh fun w u => u.alu p t w fun a b => wd (unsigned 32 (signed 32 a.toNat * signed 32 b.toNat / 2 ^ 32)))

/-- MULHU (R256): unsigned high half. -/
def execMulhu (p t : Nat) (s : State) : Step := .next (s.issue p t .mulhu fun w u => u.alu p t w fun a b => wd (a.toNat * b.toNat / 2 ^ 32))

/-- SEXTB (R256): sign-extends a byte. -/
def execSextb (p t : Nat) (s : State) : Step := .next (s.issue p t .sextb fun w u => u.alu p t w fun a _ => wd (unsigned 32 (signed 8 a.toNat)))

/-- SEXTH (R256): sign-extends a halfword. -/
def execSexth (p t : Nat) (s : State) : Step := .next (s.issue p t .sexth fun w u => u.alu p t w fun a _ => wd (unsigned 32 (signed 16 a.toNat)))

/-- CLZ (R256): leading zeros. -/
def execClz (p t : Nat) (s : State) : Step := .next (s.issue p t .clz fun w u => u.alu p t w fun a _ => wd (clz32 a))

/-- POPC (R256): set bits. -/
def execPopc (p t : Nat) (s : State) : Step := .next (s.issue p t .popc fun w u => u.alu p t w fun a _ => wd (popCount a.toNat 32))

/-! ## Immediates -/

/-- IMM sign-extended. -/
def sextImm (w : Word) : Word := wd (unsigned 32 (signed 16 (fImm w)))

/-- s_D ← f s_A. -/
def State.imm (s : State) (p t : Nat) (w : Word) (f : Word → Word) : State :=
  s.done p t fun x => x.sput (fD w) (f (x.sget (fA w)))

/-- ADDI (R256): s_A + sext(IMM). -/
def execAddi (p t : Nat) (s : State) : Step := .next (s.issue p t .addi fun w u => u.imm p t w fun a => a + sextImm w)

/-- ANDI (R256): IMM zero-extended. -/
def execAndi (p t : Nat) (s : State) : Step := .next (s.issue p t .andi fun w u => u.imm p t w fun a => a &&& wd (fImm w))

/-- ORI (R256): IMM zero-extended. -/
def execOri (p t : Nat) (s : State) : Step := .next (s.issue p t .ori fun w u => u.imm p t w fun a => a ||| wd (fImm w))

/-- XORI (R256): IMM zero-extended. -/
def execXori (p t : Nat) (s : State) : Step := .next (s.issue p t .xori fun w u => u.imm p t w fun a => a ^^^ wd (fImm w))

/-- SLTI (R256): signed compare with sext(IMM). -/
def execSlti (p t : Nat) (s : State) : Step := .next (s.issue p t .slti fun w u => u.imm p t w fun a => bw (sltW a (sextImm w)))

/-- LUI (R256): IMM << 16. -/
def execLui (p t : Nat) (s : State) : Step := .next (s.issue p t .lui fun w u => u.imm p t w fun _ => wd (fImm w * 65536))

/-- SHI (R256): amount IMM[4:0]; IMM[6:5] 0 SLL, 1 SRL, 2 SRA, 3 ROR. -/
def execShi (p t : Nat) (s : State) : Step :=
  .next (s.issue p t .shi fun w u => u.imm p t w fun a =>
    let k := wfld w 0 5
    match wfld w 5 2 with
    | 0 => wd (a.toNat * 2 ^ k)
    | 1 => wd (a.toNat / 2 ^ k)
    | 2 => sraW a k
    | _ => wd (a.toNat / 2 ^ k + a.toNat * 2 ^ (32 - k)))

/-! ## Scalar fp32 -/

/-- FADD (R254): sum. -/
def execFadd (p t : Nat) (s : State) : Step := .next (s.issue p t .fadd fun w u => u.alu p t w fun a b => fAdd a b)

/-- FSUB (R254): difference. -/
def execFsub (p t : Nat) (s : State) : Step := .next (s.issue p t .fsub fun w u => u.alu p t w fun a b => fSub a b)

/-- FMUL (R254): product. -/
def execFmul (p t : Nat) (s : State) : Step := .next (s.issue p t .fmul fun w u => u.alu p t w fun a b => fMul a b)

/-- FMIN (R254): minimum. -/
def execFmin (p t : Nat) (s : State) : Step := .next (s.issue p t .fmin fun w u => u.alu p t w fun a b => fMinMax false a b)

/-- FMAX (R254): maximum. -/
def execFmax (p t : Nat) (s : State) : Step := .next (s.issue p t .fmax fun w u => u.alu p t w fun a b => fMinMax true a b)

/-- FEQ (R254): 1 when equal. -/
def execFeq (p t : Nat) (s : State) : Step := .next (s.issue p t .feq fun w u => u.alu p t w fun a b => bw ((f32 a).eq (f32 b)))

/-- FLT (R254): 1 when less. -/
def execFlt (p t : Nat) (s : State) : Step := .next (s.issue p t .flt fun w u => u.alu p t w fun a b => bw ((f32 a).lt (f32 b)))

/-- FLE (R254): 1 when less or equal. -/
def execFle (p t : Nat) (s : State) : Step := .next (s.issue p t .fle fun w u => u.alu p t w fun a b => bw ((f32 a).lt (f32 b) || (f32 a).eq (f32 b)))

/-- FMA (R254): s_D + s_A × s_B with one rounding. -/
def execFma (p t : Nat) (s : State) : Step :=
  .next (s.issue p t .fma fun w u => u.done p t fun x =>
    x.sput (fD w) (fMa (x.sget (fD w)) (x.sget (fA w)) (x.sget (fB w))))

/-- The sign bit of a value set to `b`; a NaN stays the canonical one. -/
def fSign (a : Word) (b : Bool) : Word :=
  match f32 a with
  | .nan => nan32
  | .inf _ => (F32.inf b).word
  | .num _ m => (F32.num b m).word

/-- FCVTWS (R254): fp32 to int32. -/
def execFcvtws (p t : Nat) (s : State) : Step := .next (s.issue p t .fcvtws fun w u => u.alu p t w fun a _ => fToInt a)

/-- FCVTSW (R254): int32 to fp32. -/
def execFcvtsw (p t : Nat) (s : State) : Step := .next (s.issue p t .fcvtsw fun w u => u.alu p t w fun a _ => intToF a)

/-- FRCP (R254): reciprocal. -/
def execFrcp (p t : Nat) (s : State) : Step := .next (s.issue p t .frcp fun w u => u.alu p t w fun a _ => fRcp a)

/-- FRSQ (R254): reciprocal square root. -/
def execFrsq (p t : Nat) (s : State) : Step := .next (s.issue p t .frsq fun w u => u.alu p t w fun a _ => fRsq a)

/-- FABS (R254): absolute value. -/
def execFabs (p t : Nat) (s : State) : Step := .next (s.issue p t .fabs fun w u => u.alu p t w fun a _ => fSign a false)

/-- FNEG (R254): negation. -/
def execFneg (p t : Nat) (s : State) : Step := .next (s.issue p t .fneg fun w u => u.alu p t w fun a _ => fSign a (!bitAt a 31))

/-! ## Loads and stores -/

/-- Address s_A + sext(IMM) of a load or store. -/
def State.memAddr (s : State) (p t : Nat) (w : Word) : Nat := ((s.thr p t).sget (fA w) + sextImm w).toNat

/-- A scalar load of `n` bytes, zero-extended. -/
def State.scalarLoad (s : State) (p t n : Nat) (e : ReadErr) (w : Word) : State :=
  s.load p t (s.memAddr p t w) n n e fun bs u => u.done p t fun x => x.sput (fD w) (wd (ofLeBytes bs))

/-- A scalar store of the low `n` bytes of s_D. -/
def State.scalarStore (s : State) (p t n : Nat) (w : Word) : State :=
  s.store p t (s.memAddr p t w) n (leBytes n ((s.thr p t).sget (fD w)).toNat) fun u => u.done p t id

/-- LW (R249, R274): loads a word; `e` is what ECC finds. -/
def execLw (p t : Nat) (e : ReadErr) (s : State) : Step :=
  .next (s.issue p t .lw fun w u => u.scalarLoad p t 4 e w)

/-- LHU (R249, R274): loads an unsigned halfword; `e` is what ECC finds. -/
def execLhu (p t : Nat) (e : ReadErr) (s : State) : Step :=
  .next (s.issue p t .lhu fun w u => u.scalarLoad p t 2 e w)

/-- LBU (R249, R274): loads an unsigned byte; `e` is what ECC finds. -/
def execLbu (p t : Nat) (e : ReadErr) (s : State) : Step :=
  .next (s.issue p t .lbu fun w u => u.scalarLoad p t 1 e w)

/-- SW (R249): stores a word. -/
def execSw (p t : Nat) (s : State) : Step := .next (s.issue p t .sw fun w u => u.scalarStore p t 4 w)

/-- SH (R249): stores a halfword. -/
def execSh (p t : Nat) (s : State) : Step := .next (s.issue p t .sh fun w u => u.scalarStore p t 2 w)

/-- SB (R249): stores a byte. -/
def execSb (p t : Nat) (s : State) : Step := .next (s.issue p t .sb fun w u => u.scalarStore p t 1 w)

/-! ## Branches, jumps and loops -/

/-- A branch: OFF is in words from the branch, with A in [25:21] and B in [20:16]. -/
def State.branch (s : State) (p t : Nat) (w : Word) (c : Word → Word → Bool) : State :=
  let x := s.thr p t
  if c (x.sget (fD w)) (x.sget (fA w)) then
    (s.modThr p t fun x => x.goto (unsigned 32 ((x.pc : Int) + 4 * signed 16 (fImm w)))).retire p t
  else s.done p t id

/-- BEQ (R256): branch if equal. -/
def execBeq (p t : Nat) (s : State) : Step := .next (s.issue p t .beq fun w u => u.branch p t w fun a b => a == b)

/-- BNE (R256): branch if not equal. -/
def execBne (p t : Nat) (s : State) : Step := .next (s.issue p t .bne fun w u => u.branch p t w fun a b => a != b)

/-- BLT (R256): branch if signed less. -/
def execBlt (p t : Nat) (s : State) : Step := .next (s.issue p t .blt fun w u => u.branch p t w fun a b => sltW a b)

/-- BGE (R256): branch if signed greater or equal. -/
def execBge (p t : Nat) (s : State) : Step := .next (s.issue p t .bge fun w u => u.branch p t w fun a b => !sltW a b)

/-- BLTU (R256): branch if unsigned less. -/
def execBltu (p t : Nat) (s : State) : Step := .next (s.issue p t .bltu fun w u => u.branch p t w fun a b => ultW a b)

/-- BGEU (R256): branch if unsigned greater or equal. -/
def execBgeu (p t : Nat) (s : State) : Step := .next (s.issue p t .bgeu fun w u => u.branch p t w fun a b => !ultW a b)

/-- JAL (R253, R256): s31 ← PC + 4, and a jump by OFF words. -/
def execJal (p t : Nat) (s : State) : Step :=
  .next (s.issue p t .jal fun w u =>
    (u.modThr p t fun x =>
      (x.sput 31 (wd (x.pc + 4))).goto (unsigned 32 ((x.pc : Int) + 4 * signed 26 (wfld w 0 26)))).retire p t)

/-- JALR (R256): s_D ← PC + 4, and a jump to s_A + sext(IMM) with bits [1:0] cleared. -/
def execJalr (p t : Nat) (s : State) : Step :=
  .next (s.issue p t .jalr fun w u =>
    let a := (u.memAddr p t w) / 4 * 4
    (u.modThr p t fun x => (x.sput (fD w) (wd (x.pc + 4))).goto a).retire p t)

/-- LOOP (R258): runs the IMM instructions that follow s_A times; a count of 0 skips them; a third loop raises
LOOP_DEPTH. -/
def execLoop (p t : Nat) (s : State) : Step :=
  .next (s.issue p t .loop fun w u =>
    let x := u.thr p t
    let n := fImm w
    if 2 ≤ x.depth then u.trap p t 9 (wd x.pc)
    else
      let c := x.sget (fA w)
      (u.modThr p t fun x =>
        if c = 0 then Thread.next 2 x (x.pc + 4 * n)
        else { x with depth := x.depth + 1, lcount := Map.put (fun _ => 0) x.lcount x.depth c,
                      lbounds := Map.put (fun _ => 0) x.lbounds x.depth (wd (x.pc / 4 + 1 + (x.pc / 4 + n) * 65536)),
                      pc := x.pc + 4 }).retire p t)

end Sys2Proof.Machine
end

