-- ==== Sys2Proof/Machine/SwCtl.lean ====
section
/-!
DEFINITION. Thread commands, the watchdog and item limit, program loading and engine BIST (R265, R275 to R282), and what a
fence and a reset of an engine do.
-/

namespace Sys2Proof.Machine

open Sys2Proof

/-! ## Thread commands -/

/-- A thread command of engine `p` behind the gate, on the thread that THR_SEL selects (R280). -/
def State.thrCmd (s : State) (m : Master) (p : Nat) (eff : Nat → State → State) : State :=
  s.regWrite m (pENG p) Off.eng_THR_CMD fun u => eff (u.fld (pENG p) Off.eng_THR_SEL 0 2) u

/-- THR_START (R280): everything of the thread but its DMA channel is cleared. -/
def execThrStart (m : Master) (p : Nat) (s : State) : Step :=
  .next (s.thrCmd m p fun t u =>
    let x := u.thr p t
    if x.st = 0 ∧ t < u.engThreads p ∧ (u.eng p).valid = true then
      (u.wdStart p).modThr p t fun _ =>
        { st := 1, pc := (u.reg (pENG p) (Off.eng_ENTRY0 + 4 * t)).toNat, dmaQ := x.dmaQ, dmaHalted := x.dmaHalted,
          dmaStatus := x.dmaStatus, dmaNext := x.dmaNext }
    else u.stateWrite (pENG p))

/-- PARK (R261, R280): pending until the thread's next take or EXIT; a take that waits ends at once. -/
def execPark (m : Master) (p : Nat) (s : State) : Step :=
  .next (s.thrCmd m p fun t u =>
    let x := u.thr p t
    if x.st = 0 then u
    else match x.st, x.wait with
      | 2, some (.take _ _ _) => u.idle p t
      | _, _ => u.modThr p t fun x => { x with park := true })

/-- A thread goes to IDLE at once: its item is reissued, its channel cancelled (R264, R280). -/
def State.thrReset (s : State) (p t : Nat) (visible : Bool) : State :=
  ((s.reissueItem p t visible).dmaCancel p t).idle p t

/-- THR_RESET (R280). -/
def execThrReset (m : Master) (p : Nat) (s : State) : Step := .next (s.thrCmd m p fun t u => u.thrReset p t true)

/-- ITEM_TIMEOUT (R265): once per item. -/
def execItemTimeout (p t : Nat) (s : State) : Step :=
  let x := s.thr p t
  let us := s.fld (pENG p) Off.eng_WD_CFG 0 16
  match x.wi with
  | none => .next s
  | some w =>
    if us = 0 ∨ w.timedOut = true ∨ s.now ≤ w.since + us * 250 ∨ x.st = 3 ∨ x.st = 0 ∨ s.engRuns p = false then .next s
    else
      let s1 := s.modThr p t fun y => { y with wi := some { w with timedOut := true } }
      .next ((s1.trap p t 0x0A (wd w.handle)).raise (pENG p) 14)

/-- WATCHDOG (R275, R570): 4,096 cycles that ran (81,920 hundredths of a tick) without a retire while a thread is in RUN. -/
def execWatchdog (p : Nat) (s : State) : Step :=
  .next (if s.engRuns p && s.anyRun p && decide ((s.eng p).lastRetire + 81920 ≤ s.engTime p) then s.raise (pENG p) 9 else s)

/-! ## Fence and reset of an engine -/

/-- Every thread of engine `p` stops (R264, R282, R507); `visible` says whether takers see the reissued items. -/
def State.engStop (s : State) (p : Nat) (visible : Bool) : State :=
  (List.range 4).foldl (fun u t => u.thrReset p t visible) s

/-- SOFT_RST of an ENG page (R602): its threads, memories and counts start again; what the Warden keeps stays. -/
def State.engReset (s : State) (p : Nat) : State :=
  let s1 := s.engStop p true
  s1.onSwarm fun w =>
    { w with eng := Map.put (fun _ => {}) w.eng p { since := s.engTime p }, thr := Map.keep (fun k => decide (k / 4 ≠ p)) w.thr }

/-! ## Loading programs -/

/-- A program image: ENTRY of each thread and the code words (R277). -/
structure Image where
  entry : Words
  code : Words

/-- The image at an address, if its header is well formed and its CRC holds (R277, R278). -/
def State.readImage (s : State) (p a : Nat) : Option Image × State :=
  let h := s.busRead a 64
  let w := bytesWords 16 h.1.bytes
  let len := (wordAt w 1).toNat
  if h.1.bad || decide (wordAt w 0 ≠ wd 0x53574D31) || decide (len % 4 ≠ 0) || decide (len < 4) || decide (32768 < len) ||
      (w.drop 8).any (fun x => x != 0) then (none, h.2)
  else
    let c := h.2.dmaSource p 0 (a + 64) len
    let bytes := c.1.map (·.1)
    if c.1.any (·.2) || decide (crc32c bytes ≠ (wordAt w 7).toNat) then (none, c.2)
    else (some ⟨(w.drop 2).take 4, bytesWords (len / 4) bytes⟩, c.2)

/-- The words of a list as a table from key `i` on, zeros unlisted. -/
def imemOf : Nat → Words → Map Word
  | _, [] => []
  | i, w :: ws => if w = 0 then imemOf (i + 1) ws else (i, w) :: imemOf (i + 1) ws

/-- An image in engine `p` (R278). -/
def State.putImage (s : State) (p : Nat) (i : Image) : State :=
  (s.modEng p fun e => { e with imem := imemOf 0 i.code, valid := true }).setRegs32 (pENG p) Off.eng_ENTRY0 i.entry

/-- Logical slots of cluster `k` that a mask names, with the engines that hold them. -/
def State.slots (s : State) (k mask : Nat) : List (Nat × Nat) :=
  (List.range 8).filterMap fun i => if mask.testBit i then (s.physOf (8 * k + i)).map fun p => (i, p) else none

/-- The bits of a list of slots. -/
def slotBits (l : List (Nat × Nat)) : Nat := l.foldl (fun a e => a + 2 ^ e.1) 0

/-- LOAD_SRC of a cluster. -/
def State.loadSrc (s : State) (k : Nat) : Nat := s.reg64 (pCLUS k) Off.clus_LOAD_SRC_LO Off.clus_LOAD_SRC_HI

/-- LOAD_CTRL_GO (R278). -/
def execLoadCtrlGo (m : Master) (k : Nat) (v : Word) (s : State) : Step :=
  .next (s.regWrite m (pCLUS k) Off.clus_LOAD_CTRL fun u =>
    if !bitAt v 8 then u.setFld (pCLUS k) Off.clus_LOAD_CTRL 0 8 (wfld v 0 8)
    else if u.bit (pCLUS k) Off.clus_LOAD_STAT 0 then u.stateWrite (pCLUS k)
    else
      let u1 := u.setFld (pCLUS k) Off.clus_LOAD_CTRL 0 8 (wfld v 0 8)
      let all := u1.slots k (wfld v 0 8)
      let bad := all.filter fun e => (List.range 4).any fun t => (u1.thr e.2 t).st != 0
      let acc := all.filter fun e => (List.range 4).all fun t => (u1.thr e.2 t).st == 0
      let u2 := u1.setReg (pCLUS k) Off.clus_LOAD_STAT (wd (1 + slotBits bad * 2 ^ 16))
      let u3 := u2.onSwarm fun w => { w with load := Map.put (fun _ => none) w.load k (some (slotBits acc, u1.loadSrc k)) }
      if bad.isEmpty then u3 else u3.raise (pCLUS k) 10)

/-- PROGRAM_LOAD_DONE (R278): the load in progress of cluster `k` ends. -/
def execProgramLoadDone (k : Nat) (s : State) : Step :=
  match Map.get (fun _ => none) s.swarm.load k with
  | none => .next s
  | some (acc, src) =>
    if !s.alive (pCLUS k) then .next s
    else
      let s1 := (s.onSwarm fun w => { w with load := Map.put (fun _ => none) w.load k none }).putBit (pCLUS k) Off.clus_LOAD_STAT 0 false
      let slots := s1.slots k acc
      let r := s1.readImage 0 src
      match r.1 with
      | none =>
        let s2 := slots.foldl (fun u e => u.modEng e.2 fun x => { x with valid := false }) r.2
        .next (((s2.putBit (pCLUS k) Off.clus_LOAD_STAT 24 true).raise (pCLUS k) 9).produce (pCLUS k) 0)
      | some i =>
        let s2 := slots.foldl (fun u e =>
          (u.putImage e.2 i).setReg64 (pCLUS k) (Off.clus_LPROG0 + 8 * e.1) (Off.clus_LPROG0 + 8 * e.1 + 4) src) r.2
        .next ((s2.setFld (pCLUS k) Off.clus_LOAD_STAT 8 8 (slotBits slots)).produce (pCLUS k) 0)

/-- BIST_CMD (R281, R511): for an engine that holds no logical ID and is not retired. -/
def execBistCmd (m : Master) (k : Nat) (v : Word) (s : State) : Step :=
  .next (s.regWrite m (pCLUS k) Off.clus_BIST_CMD fun u =>
    let p := 8 * k + wfld v 0 3
    if !bitAt v 8 then u
    else if (u.logOf p).isSome || (u.health p).retired || u.bit (pCLUS k) Off.clus_BIST_STAT 0 then u.stateWrite (pCLUS k)
    else (u.setReg (pENG p) Off.eng_BIST_STAT 3).setReg (pCLUS k) Off.clus_BIST_STAT
      (wd (1 + wfld v 0 3 * 2 ^ 8 + 3 * 2 ^ 16)))

/-! ## Computed registers -/

/-- Is engine `p` a spare (SPARES of its physical cluster)? -/
def State.isSpare (s : State) (p : Nat) : Bool := s.bit (clusOf p) Off.clus_SPARES (p % 8)

/-- Share of an issue slot over the last 1 ms in 0.1 % (UTIL). -/
def State.slotShare (s : State) (p : Nat) (vector : Bool) : Nat :=
  ((s.eng p).issues.filter fun i => i.2.1 == vector && decide (s.now < i.1 + 250000)).length * 1000 / 1250000

/-- DMA_STAT of one channel. -/
def dmaStat (x : Thread) : Nat := x.dmaQ.length + x.dmaHalted.toNat * 16 + x.dmaStatus * 32

/-- Computed registers of ENG pages, and the remap words in use of a cluster's shared memory (R504). -/
def State.viewSwarm (s : State) (pg o : Nat) : Option Word :=
  if pageKind pg = .clus ∧ o = Off.clus_SHM_REMAP then
    some (wd (min 4 ((s.dep.scrub.filter fun e => e.1 / 16 == pg).foldl (fun a e => a + e.2.remap.length) 0)))
  else if pageKind pg ≠ .eng then none
  else
    let p := pg - pENG 0
    let x := s.thr p (s.fld pg Off.eng_THR_SEL 0 2)
    if o = Off.eng_STAT then
      some (wd ((List.range 4).foldl (fun a t => a + (s.thr p t).st * 4 ^ t) 0 + (s.eng p).valid.toNat * 2 ^ 8
        + (s.logOf p).isSome.toNat * 2 ^ 9 + (s.isSpare p).toNat * 2 ^ 10 + (s.health p).condemned.toNat * 2 ^ 11
        + (s.logOf p).getD 0x1FF * 2 ^ 16))
    else if o = Off.eng_THR_PC then some (wd x.pc)
    else if o = Off.eng_THR_CAUSE then some (wd (x.cause + x.double.toNat * 256))
    else if o = Off.eng_THR_TVAL then some x.tval
    else if o = Off.eng_THR_WI then some x.wiHandle
    else if o = Off.eng_THR_WI_EPOCH then some x.wiEpoch
    else if o = Off.eng_TRAP_WIN then some (wd (s.trapWin p))
    else if o = Off.eng_RETIRED_LO then some (wd (s.eng p).retired)
    else if o = Off.eng_RETIRED_HI then some (wd ((s.eng p).retired / 2 ^ 32))
    else if o = Off.eng_DMA_STAT then some (wd ((List.range 4).foldl (fun a t => a + dmaStat (s.thr p t) * 2 ^ (8 * t)) 0))
    else if o = Off.eng_UTIL then some (wd (s.slotShare p true + s.slotShare p false * 2 ^ 16))
    else none

/-- An ENG page is idle while every thread is IDLE or HALTED and every DMA channel is empty (R282). -/
def State.engIdle (s : State) (p : Nat) : Bool :=
  (List.range 4).all fun t => ((s.thr p t).st == 0 || (s.thr p t).st == 3) && (s.thr p t).dmaQ.isEmpty

end Sys2Proof.Machine
end

