-- ==== Sys2Proof/Machine/Warden.lean ====
section
/-!
DEFINITION. On-chip scrubbing (R500 to R504) and the Warden: condemnation, Moult, requalification, spare tests and notices
(R506 to R513).
-/

namespace Sys2Proof.Machine

open Sys2Proof

/-! ## Scrubbing -/

/-- What the model keeps of the scrubber of SRAM `k` of page `p`. -/
def State.scrubber (s : State) (p k : Nat) : Scrubber := Map.get (fun _ => {}) s.dep.scrub (p * 16 + k)

/-- Update it. -/
def State.modScrub (s : State) (p k : Nat) (f : Scrubber → Scrubber) : State :=
  s.onDep fun d => { d with scrub := Map.put (fun _ => {}) d.scrub (p * 16 + k) (f (Map.get (fun _ => {}) d.scrub (p * 16 + k))) }

/-- The REMAP record (R504, R505): for each moved word its page, SRAM, remap word and word. -/
def State.remapCommit (s : State) : State :=
  let rows := s.dep.scrub.flatMap fun e => e.2.remap.zipIdx.flatMap fun w =>
    leBytes 2 (e.1 / 16) ++ leBytes 1 (e.1 % 16) ++ leBytes 1 w.2 ++ leBytes 4 w.1
  s.cocoonPut { rank := 3, off := 0x3800, type := 0x0902, payload := rows }

/-- A hard on-chip word (R504): moved to a free remap word of its SRAM, or REMAP_FULL. -/
def State.sramHard (s : State) (p k word remaps : Nat) : State :=
  if p = pCOCOON then s.cocoonHard k word
  else
    let used := (s.scrubber p k).remap.length
    let full := decide (remaps ≤ used)
    let s1 := ((s.raise pWARDEN 11).produce pWARDEN 2).silkOf p 0x03 k word (if full then 0xFF else used)
    let s2 := s1.count pWARDEN Off.warden_CNT 16 8 1
    if full then (s2.raise pWARDEN 10).count pWARDEN Off.warden_CNT 24 8 1
    else (s2.modScrub p k fun x => { x with remap := x.remap ++ [word] }).remapCommit

/-- Store the poison code of a word that the scrubber found uncorrectable, where the model holds the memory (R503). -/
def State.scrubPoison (s : State) (p k word : Nat) : State :=
  match pageKind p with
  | .cocoon => s.setPoison (cocoonBank k + 8 * word) true
  | .clus => s.setPoison (shmBase + (p - pCLUS 0) * 0x200000 + 8 * word) true
  | .eng => s.setDpoison (p - pENG 0) word true
  | _ => s

/-- An uncorrectable error in stream context `c` stops its owner's use of it as STOP_NOW would (R459); the owner reads it again only after a
new STORE. -/
def State.scxLost (s : State) (c : Nat) : State :=
  let t := s.scxFault c
  let p := Map.get (fun _ => 0) s.qm.scxPage c
  match s.scxKind c with
  | 1 => t.strmQuit c
  | 2 | 3 | 4 => t.sessQuit p c
  | 5 => t.flowQuit c
  | 6 => t.recQuit c
  | _ => t

/-- What an uncorrectable word of the queue manager's memories means to their users (R452, R459): QM3 holds the stream contexts, 16 words
each, and QM2 the cached queue states, 4 words each, the one used last first (notes/assumptions/185.md). -/
def State.qmLost (s : State) (p word : Nat) : State :=
  if p = pQM 3 then s.scxLost (word / 16)
  else if p = pQM 2 then
    match s.qm.cache[word / 4]? with
    | some e => s.qEcc e.1 .uncorrectable
    | none => s
  else s

/-- SRAM_SCRUB_STEP (R500 to R504): the scrubber of SRAM `k` of page `p` (bank `k` for Cocoon) has read, corrected and written
back a word; an injection that waits on the page counts as found (R561). `hard` is a read-back that shows an error again or not the poison code, `remaps` the SRAM's remap words, and
`lap` the length in ms of a lap that this step ended. -/
def execSramScrubStep (p k word remaps : Nat) (e : ReadErr) (hard : Bool) (lap : Option Nat) (s0 : State) : Step :=
  if !s0.bit pWARDEN Off.warden_SCRUB_CFG 8 || !s0.powered p then .next s0
  else
    let r := s0.takeErr p e
    let s := r.2
    let x := s.scrubber p k
    let win := s.fld pWARDEN Off.warden_CFG 4 4
    let s1 := match r.1 with
      | .clean => s
      | .corrected =>
        let repeated := x.hist.any fun h => h.1 == word && decide (x.lap ≤ h.2 + win)
        let hist := ((word, x.lap) :: x.hist.filter fun h => h.1 != word).take 8
        let t := s.modScrub p k fun y => { y with hist := hist }
        let u := if p = pCOCOON then t.count p Off.cocoon_CNT_ECC 0 16 1 else t
        if hard || repeated then u.sramHard p k word remaps else u
      | .uncorrectable =>
        let t := ((s.scrubPoison p k word).silkOf p 0x04 k word 0).qmLost p word
        let u := if p = pCOCOON then (t.count p Off.cocoon_CNT_ECC 16 16 1).raise p 11 else t
        if hard then u.sramHard p k word remaps else u
    match lap with
    | none => .next s1
    | some ms =>
      let s2 := (s1.modScrub p k fun y => { y with lap := y.lap + 1 }).onDep fun d =>
        { d with laps := (s.now, ms, p) :: d.laps.filter fun l => decide (s.now < l.1 + 250000000) }
      .next (if s.fld pWARDEN Off.warden_SCRUB_CFG 0 8 < ms then s2.raise pWARDEN 13 else s2)

/-! ## The Moult map -/

/-- Update what the Warden keeps of engine `p`. -/
def State.modHealth (s : State) (p : Nat) (f : EngineHealth → EngineHealth) : State :=
  s.onDep fun d => { d with engines := Map.put (fun _ => {}) d.engines p (f (Map.get (fun _ => {}) d.engines p)) }

/-- The logical ID that an engine holds or that a Moult in progress gives it. -/
def State.mapOf (s : State) (p : Nat) : Option Nat :=
  match s.dep.moults.find? fun m => m.spare == some p with
  | some m => some m.logical
  | none => if (s.health p).condemned then none else s.logOf p

/-- Commit MOULT_MAP (R507, *Cocoon areas*): a halfword for each of the 272 physical engines. -/
def State.mapCommit (s : State) : State :=
  let rows := (List.range 272).flatMap fun p =>
    let h := s.health p
    let id := if h.condemned then 0x1FE else (s.mapOf p).getD 0x1FF
    leBytes 2 (id + min 3 h.count * 2 ^ 10 + h.retired.toNat * 2 ^ 12)
  s.cocoonPut { rank := 3, off := 0x1000, type := 0x0901, payload := rows }

/-- Set bits of SPARES of the physical cluster of engine `p`: spare and condemned. -/
def State.setSpare (s : State) (p : Nat) (spare condemned : Bool) : State :=
  (s.putBit (clusOf p) Off.clus_SPARES (p % 8) spare).putBit (clusOf p) Off.clus_SPARES (8 + p % 8) condemned

/-- The spare that R508 picks for logical ID `e`. -/
def State.pickSpare (s : State) (e : Nat) : Option Nat :=
  let all := (List.range 272).filter s.isSpare
  match all.find? fun p => p / 8 == e / 8 with
  | some p => some p
  | none => all.head?

/-- Push a notice to NOTICE_Q (R513). -/
def State.notice (s : State) (kind p spare logical cause : Nat) : State :=
  s.push pWARDEN (s.fld pWARDEN Off.warden_NOTICE_Q 0 20)
    [wd (kind + p * 65536), wd (spare + logical * 65536), wd cause, 0, wd s.timeNs, wd (s.timeNs / 2 ^ 32), 0, 0]

/-- Ask for a cluster's power domain (R243, R565). -/
def State.domWant (s : State) (d : Nat) : State :=
  let s1 := s.putBit (pPWR 0) (Off.pwr0_DOM_REQ0 + 4 * (d / 32)) (d % 32) true
  if s1.domOn d || s1.power.queue.contains d then s1 else s1.onPower fun x => { x with queue := x.queue ++ [d] }

/-! ## Condemnation -/

/-- Update the Moult of engine `p`. -/
def State.modMoult (s : State) (p : Nat) (f : Moult → Moult) : State :=
  s.onDep fun d => { d with moults := d.moults.map fun m => if m.engine = p then f m else m }

/-- Choose the spare of a drained Moult and commit the map, or find that there is none (R508, R509). -/
def State.moultSpare (s : State) (m : Moult) : State :=
  match s.pickSpare m.logical with
  | some q =>
    ((s.setSpare q false false).modMoult m.engine fun x => { x with step := .drained, spare := some q }).mapCommit.domWant (q / 8)
  | none =>
    if m.step = .waiting then s
    else
      let o := Off.warden_UNMAPPED0 + 4 * (m.logical / 32)
      let s1 := (s.modMoult m.engine fun x => { x with step := .waiting }).putBit pWARDEN o (m.logical % 32) true
      (((s1.mapCommit.raise pWARDEN 9).produce pWARDEN 1).silk 0x0904 pWARDEN m.logical 0 0).notice 3 m.engine 0xFFFF m.logical m.cause

/-- Condemn engine `p` (R506, R507, R510, R511): its port is fenced and unmapped, its threads stop, its barriers break, its
holds are reissued unseen, and a Moult begins when it held a logical ID. -/
def State.condemn (s : State) (p cause : Nat) : State :=
  if 272 ≤ p ∨ (s.health p).condemned then s
  else
    let e := s.logOf p
    let threads := (List.range 4).filter fun t => (s.thr p t).st != 0
    let n := s.engThreads p
    let win := s.trapWin p
    let s1 := (s.engStop p false).modHealth p fun h =>
      { h with condemned := true, count := min 3 (h.count + 1), retired := h.retired || decide (2 ≤ h.count), drops := 0, zombieAt := none }
    let s2 := (s1.setSpare p false true).fence (pENG p) 3 0
    let s3 := (s2.silk 0x0901 pWARDEN p cause win).notice 1 p 0xFFFF (e.getD 0xFFFF) cause
    let s4 := if (s3.health p).retired then s3.notice 5 p 0xFFFF (e.getD 0xFFFF) cause else s3
    let s5 := s4.setReg pWARDEN Off.warden_LAST (wd (p + 0x1FF * 2 ^ 9 + e.getD 0 * 2 ^ 18 + cause * 2 ^ 26))
    match e with
    | none => s5.mapCommit
    | some id =>
      let s6 := (s5.barBreak (id / 8)).putBit (pCLUS (id / 8)) (Off.clus_LMAP0 + 4 * (id % 8)) 15 false
      s6.onDep fun d => { d with moults := d.moults ++
        [{ engine := p, logical := id, cause := cause, start := s.now, step := .draining, threads := threads, count := n }] }

/-- Does engine `p` meet condemnation cause `c` (R506)? -/
def State.condemnCause (s : State) (p c : Nat) : Bool :=
  match c with
  | 1 => s.fld (pENG p) Off.eng_BIST_STAT 0 2 == 2
  | 2 => s.bit (pENG p) Off.hdr_PG_FAULT 9
  | 3 => decide (s.fld pWARDEN Off.warden_CFG 8 8 < s.trapWin p)
  | 4 => s.fld (pENG p) Off.eng_POISON_LOCAL 0 2 == 3
  | _ => false

/-- ENGINE_CONDEMN (R506, R507): engine `p` meets cause `c`; with MOULT_AUTO 0 it only becomes the candidate. -/
def execEngineCondemn (p c : Nat) (s : State) : Step :=
  if 272 ≤ p || (s.health p).condemned || !s.condemnCause p c then .next s
  else if s.bit pWARDEN Off.warden_CFG 0 then .next (s.condemn p c)
  else .next ((s.setReg pWARDEN Off.warden_CANDIDATE (wd (p + 2 ^ 9))).raise pWARDEN 16)

/-- CONDEMN (R506): the command names an engine. -/
def execCondemn (m : Master) (v : Word) (s : State) : Step :=
  .next (s.regWrite m pWARDEN Off.warden_CMD fun t =>
    if wfld v 12 2 ≠ 1 ∨ 272 ≤ wfld v 0 9 then t.stateWrite pWARDEN
    else t.condemn (wfld v 0 9) 5)

/-- The drain of a Moult ends (R507): the reissued items of its logical ID become visible and the map is committed. -/
def State.moultDrained (s : State) (m : Moult) : State :=
  let s1 := s.onQm fun q => { q with reissue := q.reissue.map fun r => if r.slot / 4 = m.logical then { r with visible := true } else r }
  s1.moultSpare m

/-- MOULT_DRAIN_DONE (R507): every transaction that the port of engine `p` accepted has completed. -/
def execMoultDrainDone (p : Nat) (s : State) : Step :=
  match s.dep.moults.find? fun m => m.engine == p && m.step == .draining with
  | none => .next s
  | some m => .next (s.moultDrained m)

/-- DRAIN_TIMEOUT (R507): a drain not done 16 µs after the condemnation. -/
def execDrainTimeout (p : Nat) (s : State) : Step :=
  match s.dep.moults.find? fun m => m.engine == p && m.step == .draining with
  | none => .next s
  | some m =>
    if s.now < m.start + 4000 then .next s
    else .next (((s.raise pWARDEN 15).silk 0x0907 pWARDEN p 0 0).moultDrained m)

/-- MOULT (R507 to R509): the spare of the Moult of engine `p` takes its logical ID once the map is in Cocoon and its cluster is
powered: LMAP, the slot's image, CTRL.THREADS, cleared data memory, and the threads that ran. A Moult that waits for a spare
takes one when its logical ID is the lowest unmapped. -/
def execMoult (p : Nat) (s : State) : Step :=
  match s.dep.moults.find? fun m => m.engine == p with
  | none => .next s
  | some m =>
    match m.step with
    | .draining => .next s
    | .waiting =>
      if (s.dep.moults.any fun x => x.step == .waiting && decide (x.logical < m.logical)) || (s.pickSpare m.logical).isNone then .next s
      else .next ((s.putBit pWARDEN (Off.warden_UNMAPPED0 + 4 * (m.logical / 32)) (m.logical % 32) false).moultSpare m)
    | .drained =>
      match m.spare with
      | none => .next s
      | some q =>
        if (s.dep.cocoon.any fun r => r.type == 0x0901) || !s.domOn (q / 8) then .next s
        else
          let k := pCLUS (m.logical / 8)
          let i := m.logical % 8
          let s1 := (s.engReset q).putBit (pENG q) Off.hdr_PG_STAT 1 false
          let src := s1.reg64 k (Off.clus_LPROG0 + 8 * i) (Off.clus_LPROG0 + 8 * i + 4)
          let r := s1.readImage q src
          let s2 := match r.1 with
            | some im => r.2.putImage q im
            | none => r.2
          let s3 := (s2.setFld (pENG q) Off.eng_CTRL 0 3 m.count).setReg k (Off.clus_LMAP0 + 4 * i) (wd (0x8000 + q))
          let s4 := m.threads.foldl (fun t h =>
            if (t.eng q).valid then t.modThr q h fun x => { x with st := 1, pc := (t.reg (pENG q) (Off.eng_ENTRY0 + 4 * h)).toNat } else t) s3
          let s5 := ((s4.silk 0x0902 pWARDEN p q m.logical).raise pWARDEN 8).produce pWARDEN 0
          let s6 := (s5.notice 2 p q m.logical m.cause).count pWARDEN Off.warden_CNT 0 8 1
          let s7 := s6.setReg pWARDEN Off.warden_LAST (wd (p + q * 2 ^ 9 + m.logical * 2 ^ 18 + m.cause * 2 ^ 26))
          .next ((s7.onDep fun d => { d with moults := d.moults.filter fun x => x.engine != p }).snapTrigger 5)

/-- ZOMBIE_DROP (R276, R510): a transaction of condemned engine `p` to address `a` is dropped at its port. -/
def execZombieDrop (p a : Nat) (s : State) : Step :=
  let h := s.health p
  if !h.condemned then .next s
  else
    let s1 := (s.count (clusOf p) Off.clus_PORT_DROP 0 32 1).raise (clusOf p) 12
    let drops := h.drops + 1
    let due := match h.zombieAt with
      | none => true
      | some t => decide (t + 250000 ≤ s.now)
    if due then .next ((s1.modHealth p fun x => { x with drops := 0, zombieAt := some s.now }).silk 0x0903 pWARDEN p drops (a % 2 ^ 32))
    else .next (s1.modHealth p fun x => { x with drops := drops })

/-- SPARE_BIST_TIMER (R512): every SPARE_BIST_S seconds the next spare in turn is tested. -/
def execSpareBistTimer (s : State) : Step :=
  let sec := s.fld pWARDEN Off.warden_SPARE_BIST 0 16
  if sec = 0 ∨ s.now < s.dep.spareAt + sec * 250000000 then .next s
  else
    let spares := (List.range 272).filter s.isSpare
    let s1 := s.onDep fun d => { d with spareAt := s.now }
    match (spares.find? fun p => decide (s.dep.spareNext ≤ p)).orElse fun _ => spares.head? with
    | none => .next s1
    | some p => .next (((s1.onDep fun d => { d with spareNext := p + 1 }).domWant (p / 8)).setReg (pENG p) Off.eng_BIST_STAT 3)

/-- ENGINE_BIST_DONE (R281, R506, R511, R512): the BIST that runs on engine `p` ends. A pass requalifies a condemned engine that is
not retired as a spare of its cluster; a failed spare test sets SPARE_BIST_FAIL, and R506 condemns the spare. -/
def execEngineBistDone (p : Nat) (pass : Bool) (s : State) : Step :=
  if s.fld (pENG p) Off.eng_BIST_STAT 0 2 ≠ 3 then .next s
  else
    let k := clusOf p
    let res := if pass then 1 else 2
    let cmd := s.bit k Off.clus_BIST_STAT 0 && s.fld k Off.clus_BIST_STAT 8 3 == p % 8
    let s1 := s.setReg (pENG p) Off.eng_BIST_STAT (wd res)
    let s2 := if cmd then s1.setReg k Off.clus_BIST_STAT (wd (p % 8 * 2 ^ 8 + res * 2 ^ 16)) else s1
    let h := s.health p
    if pass && h.condemned && !h.retired then
      let s3 := ((s2.modHealth p fun x => { x with condemned := false }).setSpare p true false).putBit (pENG p) Off.hdr_PG_STAT 1 false
      let s4 := ((s3.engReset p).mapCommit.silk 0x0905 pWARDEN p 1 h.count).count pWARDEN Off.warden_CNT 8 8 1
      .next (s4.notice 4 p 0xFFFF 0xFFFF 0)
    else if !pass && !cmd && s.isSpare p then .next (s2.raise pWARDEN 12)
    else .next s2

/-- Registers of the Warden page that the model computes. -/
def State.viewWarden (s : State) (p o : Nat) : Option Word :=
  if p ≠ pWARDEN then none
  else if o = Off.warden_STAT then
    let n := fun (f : Nat → Bool) => ((List.range 272).filter f).length
    some (wd (n s.isSpare + n (fun q => (s.health q).condemned) * 2 ^ 9 + n (fun q => (s.health q).retired) * 2 ^ 18))
  else if o = Off.warden_SCRUB_STAT then
    let l := (s.dep.laps.filter fun x => decide (s.now < x.1 + 250000000)).foldl (fun (b : Nat × Nat) x => if b.1 < x.2.1 then x.2 else b) (0, 0)
    some (wd (min 65535 l.1 + l.2 * 65536))
  else none

end Sys2Proof.Machine
end

