-- ==== Sys2Proof/Machine/Pairs.lean ====
section
/-!
DEFINITION. Service-core pairs (R515 to R517, R550, R552, R589, R590).
-/

namespace Sys2Proof.Machine

open Sys2Proof

/-- STATE of pair `n` (*Pair states*). -/
def State.pairState (s : State) (n : Nat) : Nat := s.fld (pSVC n) Off.svc_STAT 0 3

/-- Commit the SVC record (R517, R652). -/
def State.svcCommit (s : State) : State :=
  s.cocoonPut { rank := 4, off := 0x1600, type := 0x0904, payload := (List.range 8).flatMap fun n => leBytes 2 (s.pairState n + s.fld (pSVC n) Off.svc_STAT 4 2 * 8) }

/-- The pair to which the interrupts of pair `n` go (R516): itself while it is ACTIVE, its stand-in, or the lowest ACTIVE pair. -/
def State.servedBy (s : State) (n : Nat) : Option Nat :=
  let si := s.fld (pSVC n) Off.svc_STANDIN 0 3
  if s.pairState n = 3 then some n
  else if s.pairState si = 3 then some si
  else (List.range 8).find? fun k => s.pairState k == 3

/-- A change of a pair's STATE (R516, R517): PG_EVT_OUT0, the Silk PAIR record and the SVC record; interrupts that leave an
ACTIVE pair are a handover, and a stand-in that is not ACTIVE is reported. -/
def State.setPair (s : State) (n st : Nat) : State :=
  let p := pSVC n
  let old := s.pairState n
  if old = st then s
  else
    let s1 := ((s.setFld p Off.svc_STAT 0 3 st).produce p 0).silk 0x0906 p n old st
    let s2 := if old = 3 then s1.count p Off.svc_CNT 0 16 1 else s1
    let si := s2.fld p Off.svc_STANDIN 0 3
    let s3 := if st ≠ 3 ∧ s2.pairState si ≠ 3 then s2.raise p 11 else s2
    s3.svcCommit

/-- What the model keeps of pair `n`. -/
def State.modPair (s : State) (n : Nat) (f : Pair → Pair) : State :=
  s.onDep fun d => { d with pairs := Map.put (fun _ => {}) d.pairs n (f (Map.get (fun _ => {}) d.pairs n)) }

/-- A pair enters FAILED (R515, R517); on the third entry it is RETIRED. -/
def State.pairFailed (s : State) (n : Nat) : State :=
  let p := pSVC n
  if s.pairState n = 5 then s
  else
    let k := min 3 (s.fld p Off.svc_STAT 4 2 + 1)
    let s1 := ((s.setFld p Off.svc_STAT 4 2 k).count p Off.svc_CNT 16 16 1).setPair n 4
    let s2 := (s1.modPair n fun x => { x with running := false }).raise p 8
    if k = 3 then (s2.setPair n 5).raise p 9 else s2

/-- Is another pair than `n` ACTIVE? -/
def State.otherActive (s : State) (n : Nat) : Bool := (List.range 8).any fun k => k != n && s.pairState k == 3

/-- The image in DRAM is verified and SVCn.BOOT equals its ENTRY, or the first stage has not run (R589, R590). -/
def State.bootVerified (s : State) (n : Nat) : Bool :=
  !s.power.firstStage || (s.bit pBOOT Off.boot_VERIFY_STAT 3 &&
    s.reg64 (pSVC n) Off.svc_BOOT_LO (Off.svc_BOOT_LO + 4) == s.reg64 pBOOT Off.boot_VERIFY_ENTRY_LO (Off.boot_VERIFY_ENTRY_LO + 4))

/-- ACTIVATE (R517): accepted in QUIESCED. -/
def execActivate (m : Master) (n : Nat) (s : State) : Step :=
  .next (s.regWrite m (pSVC n) Off.svc_CMD fun t => if t.pairState n = 2 then t.setPair n 3 else t.stateWrite (pSVC n))

/-- QUIESCE (R517): discarded when it would leave no pair ACTIVE. -/
def execQuiesce (m : Master) (n : Nat) (s : State) : Step :=
  .next (s.regWrite m (pSVC n) Off.svc_CMD fun t =>
    if t.pairState n = 3 ∧ t.otherActive n = true then t.setPair n 2 else t.stateWrite (pSVC n))

/-- SVC_RESET (R517, R589): accepted where it leaves a pair ACTIVE and BOOT names the verified image. -/
def execSvcReset (m : Master) (n : Nat) (s : State) : Step :=
  .next (s.regWrite m (pSVC n) Off.svc_CMD fun t =>
    let st := t.pairState n
    if !(st == 0 || st == 2 || st == 3) || (st == 3 && !t.otherActive n) then t.stateWrite (pSVC n)
    else if !t.bootVerified n then (t.stateWrite (pSVC n)).raise pBOOT 10
    else ((t.putBit (pSVC n) Off.svc_STAT 3 false).modPair n fun _ => { bist := true }).setPair n 1)

/-- PAIR_BIST_DONE (R515, R517, R590): the BIST of a RESET, or of the Warden's restart of a FAILED pair, which lifts its fence,
ends in QUIESCED, fetching or HELD, or in FAILED. -/
def execPairBistDone (n : Nat) (pass : Bool) (s : State) : Step :=
  let p := pSVC n
  if !s.powered p || !(s.pairState n == 1 || s.pairState n == 4) then .next s
  else
    let s1 := if s.pairState n = 4 then (s.putBit p Off.hdr_PG_STAT 1 false).setPair n 1 else s
    if !pass then .next ((s1.raise p 10).pairFailed n)
    else
      let ok := s1.bootVerified n
      let s2 := (s1.putBit p Off.svc_STAT 3 (!ok)).modPair n fun _ => { bist := false, running := ok }
      .next ((if ok then s2 else s2.raise pBOOT 10).setPair n 2)

/-- LOCKSTEP_MISMATCH (R550): the page is fenced, the pair FAILED, its interrupts move, and the LOCKSTEP cause is active. -/
def execLockstepMismatch (n : Nat) (s : State) : Step :=
  if !s.alive (pSVC n) || !(s.pairState n == 2 || s.pairState n == 3) then .next s
  else
    let s1 := (s.raise (pSVC n) 8).pairFailed n
    .next ((s1.fence (pSVC n) 1 8).onDep fun d => { d with lockstep := true }).fnUpdate

/-- LS_TEST (R552): comparators of the named pairs are tested; `missed` are those that did not flag the differing value. -/
def execLsTest (m : Master) (v : Word) (missed : Nat) (s : State) : Step :=
  .next (s.regWrite m pSAFETY Off.safety_LS_TEST fun t =>
    let test := wfld v 0 8
    let bad := Nat.land test missed
    let old := t.fld pSAFETY Off.safety_LS_RESULT 0 16
    let clear := old - Nat.land old (test * 257)
    let t1 := t.setReg pSAFETY Off.safety_LS_RESULT (wd (clear + (test - bad) + bad * 256))
    if bad = 0 then t1 else ((t1.raise pSAFETY 9).onDep fun d => { d with lockstep := true }).fnUpdate)

end Sys2Proof.Machine
end

