-- ==== Sys2Proof/Machine/FuSa.lean ====
section
/-!
DEFINITION. Functional safety: FAULT_N's clear, the heartbeat, camera-monitor views, clock and supply monitors, and fault
injection (R544 to R562).
-/

namespace Sys2Proof.Machine

open Sys2Proof

/-- The key of R545, R548 and R561. -/
def isKey (v : Word) : Bool := wfld v 16 16 == 0x5CA7

/-- FN_CLR (R545, R550): clears the named latched causes that are not active; LOCKSTEP stops being active with its clear. -/
def execFnClr (m : Master) (v : Word) (s : State) : Step :=
  .next (s.regWrite m pSAFETY Off.safety_FN_CLR fun t =>
    let p := pSAFETY
    if !isKey v then t.raise p 1
    else
      let mask := wfld v 0 11
      let t1 := if mask.testBit 1 then t.onDep fun d => { d with lockstep := false } else t
      let latch := t1.fld p Off.safety_FN_LATCH 0 11
      let drop := Nat.land (Nat.land latch mask) (2 ^ 11 - 1 - t1.fnCauses)
      let t2 := t1.setReg p Off.safety_FN_LATCH (wd (latch - drop))
      if latch - drop = 0 then t2.setFld p Off.safety_FN_STAT 0 2 2 else t2)

/-- FN_SW_WRITE (R544). -/
def execFnSwWrite (m : Master) (v : Word) (s : State) : Step :=
  .next (s.regWrite m pSAFETY Off.safety_FN_SW fun t => (t.setReg pSAFETY Off.safety_FN_SW (v &&& 1)).fnUpdate)

/-! ## Heartbeat -/

/-- One step of HB_TOKEN (R548). -/
def hbNext (t : Nat) : Nat := t / 2 + (t.testBit 0 ^^ t.testBit 2 ^^ t.testBit 3 ^^ t.testBit 5).toNat * 2 ^ 15

/-- ARM (R548, R563): a keyed write arms the heartbeat unless HB_CFG is invalid. -/
def execArm (m : Master) (v : Word) (s : State) : Step :=
  .next (s.regWrite m pSAFETY Off.safety_HB_CTRL fun t =>
    let p := pSAFETY
    if !isKey v || !bitAt v 0 then t
    else if t.fld p Off.safety_HB_CFG 8 8 ≤ t.fld p Off.safety_HB_CFG 0 8 then t.raise p 15
    else ((t.setFld p Off.safety_HB_STAT 0 2 1).setReg p Off.safety_HB_TOKEN (wd 0xACE1)).onDep fun d => { d with hbAt := s.now })

/-- A heartbeat failure (R549): ALIVE holds its level. -/
def State.hbFail (s : State) : State :=
  let p := pSAFETY
  ((((s.putBit p Off.safety_HB_STAT 1 true).raise p 10).silk 0x0B03 p 0 0 0).produce p 2).fnUpdate

/-- HB_KICK (R548, R549): the complement of HB_TOKEN, not before HB_MIN and before HB_MAX expires, toggles ALIVE. -/
def execHbKick (m : Master) (v : Word) (s : State) : Step :=
  .next (s.regWrite m pSAFETY Off.safety_HB_KICK fun t =>
    let p := pSAFETY
    let tok := t.fld p Off.safety_HB_TOKEN 0 16
    let age := t.now - t.dep.hbAt
    if !t.bit p Off.safety_HB_STAT 0 || t.bit p Off.safety_HB_STAT 1 then t
    else if wfld v 0 16 + tok = 65535 ∧ t.fld p Off.safety_HB_CFG 0 8 * 250000 ≤ age ∧ age < t.fld p Off.safety_HB_CFG 8 8 * 250000 then
      let t1 := (t.putBit p Off.safety_HB_STAT 2 (!t.bit p Off.safety_HB_STAT 2)).setReg p Off.safety_HB_TOKEN (wd (hbNext tok))
      (t1.countWrap p Off.safety_HB_STAT 16 16 1).onDep fun d => { d with hbAt := t.now }
    else t.hbFail)

/-- HB_TIMEOUT (R549): no accepted kick by HB_MAX. -/
def execHbTimeout (s : State) : Step :=
  let p := pSAFETY
  if !s.bit p Off.safety_HB_STAT 0 || s.bit p Off.safety_HB_STAT 1 || s.now < s.dep.hbAt + s.fld p Off.safety_HB_CFG 8 8 * 250000 then .next s
  else .next s.hbFail

/-! ## Views -/

/-- VIEW_EVALUATE (R554 to R556): view `v` judges frame `f` once its regions have been decided for it and, with LL_EN, its
line-locked context has measured it. -/
def execViewEvaluate (v f : Nat) (s : State) : Step :=
  let p := pSAFETY
  let cfg := s.reg p (Off.safety_VIEW_CFG + 0x10 * v)
  let st := Off.safety_VIEW_STAT + 0x10 * v
  let h := wfld cfg 1 3
  let regs := (List.range 16).filter fun r => bitAt cfg (8 + r)
  let decided := regs.all fun r => (s.reg (pEYE h) (erOff r Off.eye_R_FRAME)).toNat == f && (s.eyeReg h r).due.isNone
  let measured := !bitAt cfg 4 || (s.head h).lines.all fun l => l.frame != f
  if 8 ≤ v || !bitAt cfg 0 || !decided || !measured || Map.get (fun _ => none) s.dep.viewSeen v == some f then .next s
  else
    let ls := llOff h Off.lineview_LL_STAT
    let ll := bitAt cfg 4 && (s.bit pLINEVIEW ls 8 || s.bit pLINEVIEW ls 10 || s.fld pLINEVIEW ls 0 2 != 2)
    let reg := regs.any fun r => s.bit (pEYE h) (erOff r Off.eye_R_STAT) 0 || s.bit (pEYE h) Off.eye_SAFE_MAP r
    let clears := match Map.get (fun _ => none) s.dep.viewClr v with
      | some t => decide (t < s.now)
      | none => false
    let s1 := s.onDep fun d => { d with viewSeen := Map.put (fun _ => none) d.viewSeen v (some f) }
    let s2 := if clears then
        ((s1.setFld p st 0 4 0).putBit p st 4 false).onDep fun d => { d with viewClr := Map.put (fun _ => none) d.viewClr v none }
      else s1
    let s3 := s2.countWrap p st 16 16 1
    if !ll && !reg then .next (s3.setFld p st 0 4 0)
    else
      let s4 := ((s3.count p st 0 4 1).putBit p st 5 ll).putBit p st 6 reg
      if s4.fld p st 0 4 < max 1 (wfld cfg 24 4) ∨ s4.bit p st 4 = true then .next s4
      else
        let s5 := ((s4.putBit p st 4 true).raise p 11).produce p 1
        .next (s5.silk 0x0B04 p v (ll.toNat + reg.toNat * 2) 0).fnUpdate

/-- VIEW_CLR (R555): takes effect at the view's next evaluation in a later tick. -/
def execViewClr (m : Master) (i : Nat) (v : Word) (s : State) : Step :=
  .next (s.regWrite m pSAFETY (Off.safety_VIEW_CLR + 0x10 * i) fun t =>
    if !bitAt v 0 then t else t.onDep fun d => { d with viewClr := Map.put (fun _ => none) d.viewClr i (some s.now) })

/-! ## Monitors -/

/-- CLOCK_MONITOR_WINDOW (R558): a 10 µs window with its largest deviation in 0.1 %. -/
def execClockMonitorWindow (dev : Nat) (s : State) : Step :=
  let p := pSAFETY
  let high := if 20 < dev then s.dep.clkHigh + 1 else 0
  let good := if dev ≤ 10 then s.dep.clkGood + 1 else 0
  let s1 := (s.setFld p Off.safety_CLK_STAT 8 8 (min 255 dev)).onDep fun d => { d with clkHigh := min 2 high, clkGood := min 100 good }
  if 2 ≤ high then .next ((s1.putBit p Off.safety_CLK_STAT 0 true).raise p 12).fnUpdate
  else if 100 ≤ good then .next (s1.putBit p Off.safety_CLK_STAT 0 false)
  else .next s1

/-- SUPPLY_WINDOW (R559, R629): rail `r` has been out of its window for 2 µs, or back inside it for 100 µs; the main rails are
ignored while MAIN_PWR_EN is low, and DRAM loses its contents with a DRAM rail (R574, R647). -/
def execSupplyWindow (r : Nat) (out : Bool) (s : State) : Step :=
  let p := pSAFETY
  let main := decide (r < 2) || decide (6 ≤ r)
  if 12 ≤ r || (main && !s.power.mainPwrEn) then .next s
  else if out then
    let t := if r = 4 ∨ r = 5 then s.onPower fun w => { w with dramLost := true } else s
    .next ((t.putBit p Off.safety_SUP_STAT r true).raise p 13).fnUpdate
  else .next (s.putBit p Off.safety_SUP_STAT r false)

/-! ## Injection -/

/-- Count and record an injection (R561, R562). -/
def State.injected (s : State) (d0 d1 d2 : Nat) : State :=
  (s.count pSAFETY Off.safety_CNT_INJ 0 32 1).silk 0x0B02 pSAFETY d0 d1 d2

/-- FAULT_INJECT (R561): PG_FAULT_INJ of page `p`. -/
def execFaultInject (m : Master) (p : Nat) (v : Word) (s : State) : Step :=
  .next (s.regWrite m p Off.hdr_PG_FAULT_INJ fun t =>
    let kind := wfld v 5 2
    if !isKey v || !t.bit pSAFETY Off.safety_INJ_EN 0 then t.raise p 1
    else if !bitAt v 7 then t
    else if kind = 0 then
      let u := t.injected p (wfld v 0 5) 0
      if (faultMask p).testBit (wfld v 0 5) then (u.raise p (wfld v 0 5)).fnUpdate else u
    else if kind = 3 || !secdedPage p then t.stateWrite p
    else (t.modPage p fun r => { r with inject := kind }).injected p (wfld v 0 5) kind)

/-- EYE_INJ (R562): the next comparison of a region sees its value with bit 0 inverted. -/
def execEyeInj (m : Master) (v : Word) (s : State) : Step :=
  .next (s.regWrite m pSAFETY Off.safety_EYE_INJ fun t =>
    if !bitAt v 8 then t
    else if !t.bit pSAFETY Off.safety_INJ_EN 0 then t.raise pSAFETY 1
    else
      let h := wfld v 0 3
      let r := wfld v 4 4
      (t.modEye h r fun e => { e with inject := true }).injected (pEYE h) r 0x10)

/-- Registers of the SAFETY page that the model computes. -/
def State.viewFuSa (s : State) (p o : Nat) : Option Word :=
  if p ≠ pSAFETY then none
  else if o = Off.safety_FN_CAUSE then some (wd s.fnCauses)
  else if o = Off.safety_FN_EN then some (wd s.fnEnabled)
  else none

end Sys2Proof.Machine
end

