-- ==== Sys2Proof/Machine/PipeAcc.lean ====
section
/-!
DEFINITION. The statistics accumulators of a raw pipe: zones, histograms and focus windows, row by row as a frame leaves the stages
(R230 to R237).
-/

namespace Sys2Proof.Machine

open Sys2Proof

/-- STAT fields of a set. -/
def statEn (ps : Words) : Bool := bitAt (psw ps 0x680) 0
def statTap (ps : Words) : Nat := wfld (psw ps 0x680) 1 2
def statZx (ps : Words) : Nat := wfld (psw ps 0x680) 8 5 + 1
def statZy (ps : Words) : Nat := wfld (psw ps 0x680) 16 5 + 1
def statHist (ps : Words) : Bool := bitAt (psw ps 0x680) 24
def statX0 (ps : Words) : Nat := wfld (psw ps 0x684) 0 16
def statY0 (ps : Words) : Nat := wfld (psw ps 0x684) 16 16
def statW (ps : Words) : Nat := wfld (psw ps 0x688) 0 16
def statH (ps : Words) : Nat := wfld (psw ps 0x688) 16 16
/-- Zone sizes (R231). -/
def statZw (ps : Words) : Nat := 2 * (statW ps / (2 * statZx ps))
def statZh (ps : Words) : Nat := 2 * (statH ps / (2 * statZy ps))
def statHmin (ps : Words) : Int := signed 8 (wfld (psw ps 0x690) 0 8)
/-- FOCUS fields. -/
def focEn (ps : Words) : Bool := bitAt (psw ps 0x700) 0
def focWindows (ps : Words) : Nat := min 16 (wfld (psw ps 0x700) 8 5)
def focWin (ps : Words) (w : Nat) : Nat × Nat × Nat × Nat :=
  let a := psw ps (0x780 + 8 * w)
  let b := psw ps (0x784 + 8 * w)
  (wfld a 0 16, wfld a 16 16, wfld b 0 16, wfld b 16 16)

/-- The statistics configuration of a set is invalid for an image (R234), whether or not STAT.EN and FOC.EN are 1; a window is one of
the WINDOWS that the unit evaluates. -/
def statInvalid (ps : Words) (w h : Nat) : Bool :=
  decide (w < statX0 ps + statW ps) || decide (h < statY0 ps + statH ps) || statZw ps == 0 || statZh ps == 0 ||
    decide (statHmin ps < -32 ∨ 0 < statHmin ps) ||
  (List.range (focWindows ps)).any fun i =>
    let n := focWin ps i
    decide (w < n.1 + n.2.2.1) || decide (h < n.2.1 + n.2.2.2)

/-- The columns a context accumulates over: its core (R237). -/
def statCore (cfg : Words) : Nat × Nat :=
  if cfgStripe cfg = 0 then (0, cfgWidth cfg) else (cfgX0 cfg, cfgX0 cfg + cfgCoreW cfg)

/-- The value of a quad from a mosaic grid (R231). -/
def PipeEnv.quadStat (e : PipeEnv) (g : Nat → Nat → Q) (y x : Nat) : Px3 :=
  let q := quadOf y x
  let mean := fun (l : List (Nat × Nat)) => (Q.sum (l.map fun p => g p.1 p.2)).div (Q.ofNat l.length)
  if cfgMono e.cfg then let v := mean q; ⟨v, v, v⟩
  else
    let ch := fun i => mean (q.filter fun p => cfaChan e.cfg p.1 p.2 == i)
    ⟨ch 0, ch 1, ch 2⟩

/-! ## Zones and histograms -/

/-- A zone takes a quad's or pixel's values: the sums are kept in binary64 (R231). -/
def ZoneAcc.add (z : ZoneAcc) (v : Px3) (clip : Bool) : ZoneAcc :=
  ⟨b64 (z.a.add v.a), b64 (z.b.add v.b), b64 (z.c.add v.c), z.n + 1, z.clip + clip.toNat⟩

/-- Two parts of a zone together (R237). -/
def ZoneAcc.join (z w : ZoneAcc) : ZoneAcc :=
  ⟨b64 (z.a.add w.a), b64 (z.b.add w.b), b64 (z.c.add w.c), z.n + w.n, z.clip + w.clip⟩

/-- The 16 bytes of a zone (R231). -/
def ZoneAcc.words (z : ZoneAcc) : Words :=
  let mean := fun (s : Q) => if z.n = 0 then 0 else qToF32 (s.div (Q.ofNat z.n))
  [mean z.a, mean z.b, mean z.c, if z.n = 0 then 0 else wd ((⟨z.clip * 65535, z.n⟩ : Q).round.toNat)]

/-- Histogram index of a value (R232): 0 UNDER, 1 to 256 the bins, 257 OVER. floor(16 log2 v) is floor(log2 v^16). -/
def histIndex (hmin : Int) (v : Q) : Nat :=
  if v.le (Q.one.shift hmin) then 0
  else
    let b := (⟨v.n ^ 16, v.d ^ 16⟩ : Q).ilog2 - 16 * hmin
    if 255 < b then 257 else b.toNat + 1

/-- Count a value in histogram `h`; bins saturate. -/
def StatAcc.bin (a : StatAcc) (h : Nat) (hmin : Int) (v : Q) : StatAcc :=
  let k := 258 * h + histIndex hmin v
  { a with hist := Map.put (fun _ => 0) a.hist k (min (2 ^ 32 - 1) (Map.get (fun _ => 0) a.hist k + 1)) }

/-- Take the values `v` of a quad or pixel at (x, y) (R231, R232): its zone, if it lies in one, and the histograms of the ROI. -/
def StatAcc.take (a : StatAcc) (ps : Words) (x y : Nat) (v : Px3) : StatAcc :=
  let dx := x - statX0 ps
  let dy := y - statY0 ps
  if x < statX0 ps ∨ y < statY0 ps ∨ statX0 ps + statW ps ≤ x ∨ statY0 ps + statH ps ≤ y then a
  else
    let i := dx / statZw ps
    let j := dy / statZh ps
    let k := j * statZx ps + i
    let t := psB ps 0x68C
    let a1 := if i < statZx ps ∧ j < statZy ps then
        { a with zones := Map.put (fun _ => {}) a.zones k ((Map.get (fun _ => {}) a.zones k).add v (v.any fun c => t.le c)) }
      else a
    if statHist ps then
      (((a1.bin 0 (statHmin ps) v.a).bin 1 (statHmin ps) v.b).bin 2 (statHmin ps) v.c).bin 3 (statHmin ps) v.top
    else a1

/-- Row `r` at the tap that STAT.TAP selects (R231): at taps 0 and 1 a quad is complete with its second row. -/
def StatAcc.row (a : StatAcc) (e : PipeEnv) (im : PipeImage) (r : Nat) : StatAcc :=
  let c := statCore e.cfg
  let at_ := fun {α : Type} (d : α) (g : List (List α)) (y x : Nat) => (g.getD y []).getD (x - cfgLeft e.cfg) d
  if statTap e.ps < 2 then
    if r % 2 = 0 then a
    else
      let g := fun y x => if statTap e.ps = 0 then (at_ {} im.merged y x).v else (at_ {} im.shaded y x).v
      (List.range ((c.2 - c.1) / 2)).foldl (fun b j => b.take e.ps (c.1 + 2 * j) (r - 1) (e.quadStat g (r - 1) (c.1 + 2 * j))) a
  else (List.range (c.2 - c.1)).foldl (fun b j => b.take e.ps (c.1 + j) r (at_ {} im.rgb r (c.1 + j))) a

/-! ## Focus -/

/-- Add a site's responses to a window: FV_H and FV_V are kept in binary64 (R233). -/
def FocusAcc.add (a : FocusAcc) (rh rv : Q) (clip : Bool) : FocusAcc :=
  ⟨b64 (a.fh.add (rh.mul rh)), b64 (a.fv.add (rv.mul rv)), a.ph.max rh.abs, a.pv.max rv.abs, a.count + 1, a.clip + clip.toNat⟩

/-- Two parts of a window together (R237). -/
def FocusAcc.join (a b : FocusAcc) : FocusAcc :=
  ⟨b64 (a.fh.add b.fh), b64 (a.fv.add b.fv), a.ph.max b.ph, a.pv.max b.pv, a.count + b.count, a.clip + b.clip⟩

/-- A window's 32 bytes. -/
def FocusAcc.words (a : FocusAcc) : Words :=
  [qToF32 a.fh, qToF32 a.fv, qToF32 a.ph, qToF32 a.pv, wd a.count, wd a.clip, 0, 0]

/-- A signed tap byte of FILT_H or FILT_V. -/
def focTap (ps : Words) (o i : Nat) : Q := ⟨signed 8 (wfld (psw ps (o + 4 * (i / 4))) (8 * (i % 4)) 8), 1⟩

/-- The sites of row `r` of a window that lie in the context's core, on channel 1 of the demosaic input (R233). -/
def PipeEnv.focus (e : PipeEnv) (im : PipeImage) (r : Nat) (win : Nat × Nat × Nat × Nat) (a : FocusAcc) : FocusAcc :=
  let c := statCore e.cfg
  let sp : Int := if cfgMono e.cfg then 1 else 2
  let core := psB e.ps 0x704
  let t := psB e.ps 0x68C
  if r < win.2.1 ∨ win.2.1 + win.2.2.2 ≤ r then a
  else
    (((List.range win.2.2.1).map (win.1 + ·)).filter fun x => decide (c.1 ≤ x) && decide (x < c.2) &&
        (cfgMono e.cfg || cfaChan e.cfg r x == 1)).foldl (fun (acc : FocusAcc) (x : Nat) =>
      let px := fun (dy dx : Int) => e.px Q.zero im.clean ((r : Int) + dy) ((x : Int) + dx)
      let keep := fun (v : Q) => if v.abs.lt core then Q.zero else v
      let rh := keep (Q.sum ((List.range 5).map fun i => (focTap e.ps 0x708 i).mul (px 0 (sp * ((i : Int) - 2)))))
      let rv := keep (Q.sum ((List.range 3).map fun i => (focTap e.ps 0x710 i).mul (px (sp * ((i : Int) - 1)) 0)))
      acc.add rh rv (t.le (px 0 0))) a

/-- Row `r` of the demosaic input through every focus window. -/
def StatAcc.focusRow (a : StatAcc) (e : PipeEnv) (im : PipeImage) (r : Nat) : StatAcc :=
  (List.range (focWindows e.ps)).foldl (fun b w =>
    { b with foc := Map.put (fun _ => {}) b.foc w (e.focus im r (focWin e.ps w) (Map.get (fun _ => {}) b.foc w)) }) a

/-- The rows from `lo` to `hi` − 1 leave the stages (R230): their statistics, and the focus of every row whose lines demosaic holds. -/
def StatAcc.rows (a : StatAcc) (e : PipeEnv) (im : PipeImage) (lo hi : Nat) : StatAcc :=
  let a1 := if statEn e.ps then (List.range (hi - lo)).foldl (fun b i => b.row e im (lo + i)) a else a
  let to_ := if cfgHeight e.cfg ≤ hi then hi else if cfgMono e.cfg then hi - 1 else hi
  if focEn e.ps then
    let a2 := (List.range (to_ - a1.focRows)).foldl (fun b i => b.focusRow e im (a1.focRows + i)) a1
    { a2 with focRows := max a1.focRows to_ }
  else a1

end Sys2Proof.Machine
end

