-- ==== Sys2Proof/Machine/Pipes.lean ====
section
/-!
DEFINITION. Raw pipes: contexts, run scheduling, tables, frames and output branches (R143 to R161, R165, R176 to R178,
R188 to R190, R204 to R225).
-/

namespace Sys2Proof.Machine

open Sys2Proof

/-! ## Context commands -/

/-- CTX_CMD_STAT after a command: BUSY for 32 ns; a rejection sets CTX_INVALID (R144, R145). -/
def State.ctxStat (s : State) (n reason : Nat) : State :=
  let s1 := s.cmdStart (pPIPE n 0) Off.pipeCtl_CTX_CMD_STAT 8
  if reason = 0 then s1.setReg (pPIPE n 0) Off.pipeCtl_CTX_CMD_STAT 0
  else (s1.setReg (pPIPE n 0) Off.pipeCtl_CTX_CMD_STAT (wd (2 + reason * 16))).raise (pPIPE n 0) 8

/-- The context CTX_SEL names. -/
def State.ctxSel (s : State) (n : Nat) : Nat := s.fld (pPIPE n 0) Off.pipeCtl_CTX_SEL 0 6

/-- CTX_LOAD (R143). -/
def execCtxLoad (m : Master) (n : Nat) (s : State) : Step :=
  .next (s.regWrite m (pPIPE n 0) Off.pipeCtl_CTX_CMD fun t =>
    (t.setRegs32 (pPIPE n 0) Off.pipeCtl_CTX_D0 (fit 16 0 (t.pctx (ctxKey n (t.ctxSel n))).cfg)).ctxStat n 0)

/-- Does a stripe lead's configuration match its stored members (R158)? -/
def State.stripeOk (s : State) (n c : Nat) (w : Words) : Bool :=
  let cnt := wfld (wordAt w 0) 7 3
  let ms := (List.range cnt).map fun i => (s.pctx (ctxKey (n + 1 + i) c)).cfg
  let ends := (w :: ms).map fun v => cfgX0 v + cfgCoreW v
  decide (1 ≤ cnt) && decide (n + cnt ≤ 7) && decide (cfgX0 w = 0) &&
    ms.all (fun v => cfgStripe v == 2 && wordAt v 1 == wordAt w 1 && wordAt v 3 == wordAt w 3 && cfgInput v == cfgInput w) &&
    (ms.zip ends).all (fun z => cfgX0 z.1 == z.2) && ends.getLastD 0 == cfgWidth w

/-- Why a STORE of a context is rejected (R144), 0 when it is not. -/
def State.ctxReason (s : State) (n c : Nat) (w : Words) : Nat :=
  let wi := cfgWidth w
  let hi := cfgHeight w
  let edges := if cfgStripe w = 0 then 0
    else (decide (0 < cfgX0 w)).toNat + (decide (cfgX0 w + cfgCoreW w < wi)).toNat
  let core := if cfgStripe w = 0 then wi else cfgCoreW w
  let bad := fun (v : Nat) => decide (v < 2 ∨ 32768 < v ∨ v % 2 = 1)
  if bad wi || bad hi || decide (16384 < core + 64 * edges) then 1
  else if 5 ≤ cfgDt w ∨ 2 ≤ cfgPack w ∨ (cfgPack w = 1 ∧ cfgDt w = 4) ∨ 2 ^ cfgBits w ≤ cfgFill w ∨
      (cfgMono w = false ∧ cfaValid w = false) then 2
  else if (cfgStripe w = 0 ∧ (cfgX0 w ≠ 0 ∨ cfgCoreW w ≠ wi)) ∨ cfgStripe w = 3 ∨
      (cfgStripe w ≠ 0 ∧ (cfgX0 w % 4 ≠ 0 ∨ cfgCoreW w % 4 ≠ 0)) ∨
      (cfgStripe w = 1 ∧ s.stripeOk n c w = false) then 3
  else if cfgRunLines w < 16 ∨ 1024 < cfgRunLines w ∨ cfgRunLines w % 16 ≠ 0 then 4
  else if cfgSafety w && (List.range 64).any (fun j => j != c && cfgSafety (s.pctx (ctxKey n j)).cfg) then 5
  else if cfgInput w = 1 ∧ (s.qValid (wfld (wordAt w 10) 0 20) = false ∨ s.qValid (wfld (wordAt w 11) 0 20) = false) then 6
  else if dwordAt w 6 % 4096 ≠ 0 ∨ dwordAt w 8 % 4096 ≠ 0 then 7
  else if ((List.range 3).any fun i => (cfgComp w (i + 1)).isSome) && (cfgInput w == 1 || cfgLayout w != 0) then 8
  else 0

/-- CTX_STORE (R144, R220). -/
def execCtxStore (m : Master) (n : Nat) (s : State) : Step :=
  .next (s.regWrite m (pPIPE n 0) Off.pipeCtl_CTX_CMD fun t =>
    let k := ctxKey n (t.ctxSel n)
    let w := t.regs32 (pPIPE n 0) Off.pipeCtl_CTX_D0 16
    if (t.pctx k).state ≠ 0 then t.stateWrite (pPIPE n 0)
    else
      let r := t.ctxReason n (t.ctxSel n) w
      if r ≠ 0 then t.ctxStat n r
      else (t.modPctx k fun c => { c with cfg := w, ring := [], force := none, decided := none }).ctxStat n 0)

/-- The branch descriptor of branch `b` in a context (R204). -/
def PipeCtx.brDesc (c : PipeCtx) (b : Nat) : Words := Map.get (fun _ => []) c.br b

/-- The branches that serve a context. -/
def PipeCtx.branches (c : PipeCtx) : List Nat := (List.range 4).filter fun b => brEn (c.brDesc b)

/-- Take a band ring for each listed branch of context `k` (R207); none when a FREE_Q is empty. -/
def State.takeBands (s : State) (k : Nat) : List Nat → Option State
  | [] => some s
  | b :: bs =>
    match s.take (wfld (wordAt ((s.pctx k).brDesc b) 3) 0 20) with
    | (none, _) => none
    | (some d, t) => (t.modPctx k fun c => { c with band := Map.put (fun _ => []) c.band b d }).takeBands k bs

/-- Arm the contexts of a stripe set. -/
def State.armAll (s : State) : List Nat → State
  | [] => s
  | k :: ks => (if (s.pctx k).state = 0 then s.modPctx k fun c => { c with state := 1, stopping := false } else s).armAll ks

/-- START (R145, R158, R207). -/
def execStart (m : Master) (n : Nat) (s : State) : Step :=
  .next (s.regWrite m (pPIPE n 0) Off.pipeCtl_CTX_CMD fun t =>
    let k := ctxKey n (t.ctxSel n)
    let c := t.pctx k
    if c.state ≠ 0 then t.stateWrite (pPIPE n 0)
    else if cfgStripe c.cfg = 2 then t.ctxStat n 3
    else if (List.range 3).any (fun i => match cfgComp c.cfg (i + 1) with
        | some j => t.scxKind j != 1 || !capMem (t.scx j)
        | none => false) then t.ctxStat n 8
    else match t.takeBands k (c.branches.filter fun b => brBand (c.brDesc b)) with
      | none => t.ctxStat n 9
      | some u => (u.armAll (u.stripeSet k)).ctxStat n 0)

/-! ## The frame as the stages see it -/

/-- Stage pages of pipe `n` with FORCE_BYPASS. -/
def State.bypassed (s : State) (n : Nat) : List Nat :=
  (List.range 9).filter fun o => decide (1 ≤ o) && s.bit (pPIPE n o) Off.pipeStage_STAGE_CTRL 0

/-- The active bank of a table page. -/
def Pipe.bankOf (p : Pipe) (o : Nat) : Option (Nat × TableBank) :=
  Map.get (fun _ => none) p.bank (2 * o + Map.get (fun _ => 0) p.active o)

/-- The table of the active bank. -/
def Pipe.tableOf (p : Pipe) (o : Nat) : TableBank := ((p.bankOf o).map (·.2)).getD {}

/-- The LUT slot in use. -/
def Pipe.lutOf (p : Pipe) : TableBank := ((Map.get (fun _ => none) p.lut p.lutUse).map fun (x : Nat × Nat × TableBank) => x.2.2).getD {}

/-- What context `k`'s frame computes its pixels from. -/
def State.pipeEnv (s : State) (k : Nat) : PipeEnv :=
  let c := s.pctx k
  let p := s.pipe (k / 64)
  let f := c.frame.getD { num := 0 }
  { cfg := c.cfg, ps := (c.force.map (·.words)).getD [], bypass := p.bypass, rows := f.lines, comp := f.comp,
    lin := p.tableOf 1, defs := p.tableOf 3, shd := p.tableOf 4, lut := p.lutOf,
    tone := (List.range 4).map fun b => (b, p.tableOf (9 + b)), free := f.seed, dead := f.dead }

/-- Pixels of branch `b`'s history: H_b lines of the binned width (R195). -/
def histPixels (cfg d ps : Words) (b : Nat) : Nat :=
  let cw := if psw ps (brBase b + 4) = 0 then cfgWidth cfg else wfld (psw ps (brBase b + 4)) 0 16
  brTapsV d / 2 * (cw / brBinX d)

/-- Cycles of the transfer of branch `b`'s history (R195). -/
def histCycles (cfg d ps : Words) (b : Nat) : Nat := 512 + (histPixels cfg d ps b + 7) / 8

/-- Cycles of a context switch at given held lines and widths (R154). -/
def switchCycles (lo wo li wi : Nat) : Nat := 512 + (max (lo * wo) (li * wi) + 7) / 8

/-- The history pixels that a switch of context `k` moves for branch `b`: those of its lead's descriptor (R195, R213), none outside a
frame. -/
def State.histOf (s : State) (k b : Nat) : Nat :=
  let c := s.pctx k
  let d := (s.pctx (s.leadOf k)).brDesc b
  match c.frame with
  | some f =>
    if brEn d && !f.noWork && decide (0 < f.y) && decide (f.y < cfgHeight c.cfg) then
      histPixels c.cfg d ((c.force.map (·.words)).getD []) b
    else 0
  | none => 0

/-- Where branch `b`'s history lies in a save area, and its bytes for `n` pixels: 8 a pixel, as the 37 lines that R195 asks for leave
room (notes/assumptions/172.md). -/
def histAt (cfg : Words) (b : Nat) : Nat := dwordAt cfg 6 + (13 + 6 * b) * cfgPw cfg * 4

/-! ## Frame start -/

/-- Does a set's colour field leave its range, or hold a NaN or an infinity, or does it enable a LUT that cannot be used (R180)? The
ranges hold whether or not a stage is enabled. -/
def colourInvalid (ps : Words) : Bool :=
  let out := fun (o : Nat) (lo hi : Q) =>
    match f32p (psw ps o) with
    | none => true
    | some v => v.lt lo || hi.lt v
  let nan := fun (o : Nat) => (f32p (psw ps o)).isNone
  let rng := fun (o n : Nat) (lo hi : Q) => (List.range n).any fun i => out (o + 4 * i) lo hi
  let cct := fun (v : Nat) => decide (v < 1000 ∨ 25000 < v)
  let mtx := rng 0x34C 3 Q.zero ⟨64, 1⟩ || rng 0x358 9 q16.neg q16 || rng 0x37C 9 q16.neg q16 ||
    out 0x3A0 Q.zero ⟨256, 1⟩ || cct (wfld (psw ps 0x344) 0 16) || cct (wfld (psw ps 0x344) 16 16) ||
    cct (wfld (psw ps 0x348) 0 16)
  let cd := rng 0x404 3 Q.zero q16 || rng 0x410 3 ⟨-8, 1⟩ ⟨8, 1⟩ || rng 0x41C 3 ⟨1, 16⟩ q16 || out 0x428 Q.zero ⟨4, 1⟩
  let lu := (List.range 6).any (fun i => nan (0x43C + 4 * i)) || decide (dwordAt ps (0x430 / 4) % 64 ≠ 0) ||
    (bitAt (psw ps 0x42C) 0 && !lutOk ps)
  let br := fun (b : Nat) => rng (brBase b + 0x08) 9 q16.neg q16 || out (brBase b + 0x30) ⟨1, 2⟩ Q.one || nan (brBase b + 0x34) ||
    (psB ps (brBase b + 0x34)).le (gamutThr ps b) || nan (brBase b + 0x44)
  mtx || cd || lu || (List.range 4).any br

/-- Apply the entry that a frame start's decision took to context `k` (R217, R225, R227): the state, the record flags, and whether the
application is LATE. The pipe reads the set now; when the read fails, the entry is retired and the set in force stays. The set belongs
to the lead. -/
def State.psetApply (s : State) (k : Nat) (dec : Option PsetEntry) : State × Nat × Bool :=
  let lead := s.leadOf k
  let st := pctxPage lead 13
  match dec with
  | none => (s, 0, false)
  | some e =>
    match s.psetRead e.ptr with
    | (none, s2) => (((s2.raise st 8).count st Off.pipeStats_CNT_PSET_ERR 0 16 1).produce st 3, 2 ^ 5, false)
    | (some ws, s2) =>
      let late := decide (e.applied ≠ e.req)
      let s3 := s2.modPctx lead fun c => { c with force := some ⟨ws, e.req, e.applied⟩ }
      (if late then ((s3.count st Off.pipeStats_CNT_LATE 0 16 1).raise st 11).produce st 1 else s3, 0, late)

/-- The crop words of branch `b` for a frame (R192) with CROP_INVALID: the set's, the last valid one, or the full image. -/
def PipeCtx.cropFor (c : PipeCtx) (ps : Words) (b : Nat) : (Nat × Nat) × Bool :=
  let xy := psw ps (brBase b)
  let wh := psw ps (brBase b + 4)
  if cropOk c.cfg (c.brDesc b) (wfld xy 0 16) (wfld xy 16 16) (wfld wh 0 16) (wfld wh 16 16) then ((xy.toNat, wh.toNat), false)
  else ((Map.get (fun _ => none) c.crop b).getD (0, (wordAt c.cfg 1).toNat), true)

/-- Start the branches of a frame (R192). -/
def State.startBranches (s : State) (k : Nat) : List Nat → State
  | [] => s
  | b :: bs =>
    let c := s.pctx k
    let lead := s.pctx (s.leadOf k)
    let r := { c with br := lead.br, crop := lead.crop }.cropFor ((c.force.map fun (p : PsetForce) => p.words).getD []) b
    let s1 := (s.modPframe k fun f => { f with br := Map.put (fun _ => {}) f.br b { crop := r.1, flags := r.2.toNat * 32 } }).modPctx k
      fun x => if r.2 then x else { x with crop := Map.put (fun _ => none) x.crop b (some r.1) }
    (if r.2 then s1.raise (pctxPage k (9 + b)) 13 else s1).startBranches k bs

/-- A frame enters context `k` (R146, R148, R225): `flags` are the record flags so far, `noWork` stops processing. -/
def State.frameEnter (s : State) (k num flags : Nat) (noWork late : Bool) (desc : Option Words) : State :=
  let lead := s.leadOf k
  let force := (s.pctx lead).force
  let none_ := force.isNone
  let ps := (force.map (·.words)).getD []
  let fl := Nat.lor flags ((none_ || colourInvalid ps).toNat * 32)
  let f : PipeFrame :=
    { num := num, flags := fl, psetId := (psw ps 0).toNat, req := (force.map (·.req)).getD 0,
      applied := (force.map (·.applied)).getD 0, late := late, seed := s.free, desc := desc, noWork := noWork || none_ }
  let s1 := (s.onFree (· + 1)).modPctx k fun c => { c with state := 2, frame := some f, force := force }
  let s2 := if noWork || none_ then s1 else s1.startBranches k (s.pctx lead).branches
  s2.markElig k

/-- Does slot `i` hold the table that a set names, by LUT.PTR and LUT.TAG (R188)? -/
def Pipe.lutHolds (p : Pipe) (ps : Words) (i : Nat) : Bool :=
  match Map.get (fun _ => none) p.lut i with
  | some x => x.1 == lutPtr ps && x.2.1 == (psw ps 0x438).toNat
  | none => false

/-- The slot that is pinned while pipe `n` has a context with SAFETY = 1 (R189). -/
def State.lutPinned (s : State) (n : Nat) : Option Nat :=
  if (List.range 64).any fun c => cfgSafety (s.pctx (ctxKey n c)).cfg then some ((s.pipe n).lutPin.getD 0) else none

/-- A SAFETY frame whose table is not in the pinned slot starts loading it into the other slot (R189); one that the other slot holds
already pins that slot. -/
def State.safetyLut (s : State) (k : Nat) : State :=
  let c := s.pctx k
  let p := s.pipe (k / 64)
  let ps := (c.force.map (·.words)).getD []
  let pin := p.lutPin.getD 0
  if !cfgSafety c.cfg || !lutOn ps || p.lutHolds ps pin then s
  else if p.lutHolds ps (1 - pin) then s.modPipe (k / 64) fun q => { q with lutPin := some (1 - pin) }
  else s.modPipe (k / 64) fun q => { q with lutLoad := some (1 - pin, k % 64) }

/-- The contexts of a stripe set that can work: alive and neither OFF nor HALTED (R161). -/
def State.stripeLive (s : State) (k : Nat) : List Nat :=
  (s.stripeSet k).filter fun j => s.alive (pctxPage j 0) && decide ((s.pctx j).state = 1 ∨ (s.pctx j).state = 2)

/-- Enter a frame in every live member of a set. -/
def State.enterAll (s : State) (num flags : Nat) (noWork late : Bool) (desc : Option Words) : List Nat → State
  | [] => s
  | k :: ks => ((s.frameEnter k num flags noWork late desc).safetyLut k).enterAll num flags noWork late desc ks

/-- Data types of FORMAT.DT. -/
def dtOfFormat (d : Nat) : Nat := 0x2B + d

/-- PIPE_FRAME_ACCEPT (R146 to R148, R217, R224 to R227): the inline frame start that waits at context `c` of pipe `n`
and, for a stripe lead, at every member. -/
def execPipeFrameAccept (n c : Nat) (s : State) : Step :=
  let k := ctxKey n c
  let x := s.pctx k
  if s.alive (pPIPE n 0) = false ∨ x.state ≠ 1 ∨ x.frame.isSome ∨ cfgStripe x.cfg = 2 ∨ cfgInput x.cfg ≠ 0 then .next s
  else match x.inq with
    | .fs num dt dec :: _ =>
      let live := s.stripeLive k
      let lost := decide (live.length < (s.stripeSet k).length)
      let s1 := live.foldl (fun t j => t.modPctx j fun y =>
        { y with inq := match y.inq with | .fs _ _ _ :: r => r | q => q }) s
      let a := s1.psetApply k dec
      let reject := decide (dt ≠ dtOfFormat (cfgDt x.cfg))
      let s2 := if reject then a.1.raise (pPIPE n 0) 14 else a.1
      let s3 := if lost then s2.raise (pPIPE n 0) 13 else s2
      .next (s3.enterAll num (a.2.1 + reject.toNat * 16 + lost.toNat * 4) reject a.2.2 none live)
    | _ => .next s

/-- A memory descriptor is invalid (R150). -/
def memDescInvalid (cfg ps d : Words) : Bool :=
  decide (dwordAt d 0 % 64 ≠ 0) ||
    decide ((wordAt d 2).toNat < packedBytes (cfgPack cfg) (cfgDt cfg) (cfgWidth cfg)) ||
    (wordAt d 3 == 0 && decide (1 < mergeCount ps) && cfgLayout cfg == 0)

/-- PIPE_MEM_DESC_TAKE (R146, R150): an ARMED memory context takes its next frame. -/
def execPipeMemDescTake (n c : Nat) (s : State) : Step :=
  let k := ctxKey n c
  let x := s.pctx k
  if s.alive (pPIPE n 0) = false ∨ x.state ≠ 1 ∨ x.frame.isSome ∨ cfgStripe x.cfg = 2 ∨ cfgInput x.cfg ≠ 1 then .next s
  else match s.take (wfld (wordAt x.cfg 10) 0 20) with
    | (none, s1) => .next s1
    | (some d, s1) =>
      let num := (wordAt d 4).toNat
      let live := s1.stripeLive k
      let lost := decide (live.length < (s1.stripeSet k).length)
      let dec := s1.psetTake k num
      let a0 := dec.2.psetApply k dec.1
      let a1 := a0.1.modPctx k fun y => { y with decided := y.force }
      let ps := (((a1.pctx k).force).map (·.words)).getD []
      let bad := memDescInvalid x.cfg ps d
      let s2 := if lost then a1.raise (pPIPE n 0) 13 else a1
      .next (s2.enterAll num (Nat.lor a0.2.1 (bad.toNat * 32) + lost.toNat * 4) bad a0.2.2 (some d) live)

/-! ## Switches, runs and tables -/

/-- The state of context `k` in the stages: held lines and width (R154): none at a frame start or after a frame. -/
def State.heldOf (s : State) (k : Nat) : Nat × Nat :=
  match (s.pctx k).frame with
  | some f => if f.y = 0 ∨ cfgHeight (s.pctx k).cfg ≤ f.y then (0, 0)
    else ((s.pipeEnv k).held, cfgPw (s.pctx k).cfg)
  | none => (0, 0)

/-- Write free bytes to a save area: what each of its words holds is not stated. -/
def State.saveBytes (s : State) (k page a n : Nat) : State :=
  if n = 0 then s else let d := s.drawBytes n; d.2.busWrite (pctxPage k page) a d.1

/-- Save the outgoing context's held lines, 4 bytes a sample, and its branches' histories (R154, R195). -/
def State.saveHeld (s : State) (k : Nat) : State :=
  let h := s.heldOf k
  let cfg := (s.pctx k).cfg
  (List.range 4).foldl (fun t b => t.saveBytes k (9 + b) (histAt cfg b) (8 * s.histOf k b))
    (s.saveBytes k 0 (dwordAt cfg 6) (h.1 * h.2 * 4))

/-- Replaced samples of context `k`'s frame count, and mark it POISONED (R177). -/
def State.replaced (s : State) (k n : Nat) : State :=
  if n = 0 then s
  else ((s.modPframe k fun f => { f with flags := Nat.lor f.flags 1, poison := f.poison + n }).count (pctxPage k 0)
    Off.pipeCtl_POISON_CNT 0 32 n).raise (pctxPage k 0) 10

/-- The sample that word `i` of a save area holds, as (stage page, row, column): the stages' lines in stage order, each stage's oldest
first (DESIGN CHOICE, notes/assumptions/172.md). -/
def PipeEnv.heldAt (e : PipeEnv) (y i : Nat) : Nat × Nat × Nat :=
  let line := i / cfgPw e.cfg
  let ls := e.heldBy.flatMap fun h => (List.range h.2).map fun j => (h.1, y - e.lagTo h.1 + j - h.2)
  ((ls.getD line (0, 0)).1, (ls.getD line (0, 0)).2, cfgLeft e.cfg + i % cfgPw e.cfg)

/-- Restore the incoming context's held lines: samples that arrive poisoned become 0.0 and count as replaced (R176, R177), all of them
where the read fails as a whole. -/
def State.restoreLines (s : State) (k : Nat) : State :=
  let h := s.heldOf k
  if h.1 = 0 then s
  else
    let e := s.pipeEnv k
    let y := ((s.pctx k).frame.map (·.y)).getD 0
    let a := dwordAt e.cfg 6
    let n := h.1 * h.2
    let r := s.busRead a (4 * n)
    if !r.1.bad then r.2
    else
      let marked := (List.range n).filter fun i => r.2.poisoned (a + 4 * i)
      let bad := if marked = [] then List.range n else marked
      ((r.2.modPframe k fun f => { f with dead := f.dead ++ bad.map (e.heldAt y) }).replaced k bad.length).raise (pctxPage k 0) 11

/-- Branch part `b` of context `k`'s frame. -/
def State.brFrame (s : State) (k b : Nat) : BrFrame :=
  ((s.pctx k).frame.map fun f => Map.get (fun _ => {}) f.br b).getD {}

/-- Update a branch part. -/
def State.modBr (s : State) (k b : Nat) (f : BrFrame → BrFrame) : State :=
  s.modPframe k fun x => { x with br := Map.put (fun _ => {}) x.br b (f (Map.get (fun _ => {}) x.br b)) }

/-- Restore the incoming context's held lines and its branches' histories; a history that arrives poisoned marks its branch POISONED
(R176, R195, R212). -/
def State.restoreHeld (s : State) (k : Nat) : State :=
  (List.range 4).foldl (fun t b =>
    let n := s.histOf k b
    if n = 0 then t
    else
      let r := t.busRead (histAt (s.pctx k).cfg b) (8 * n)
      if r.1.bad then (r.2.modBr (s.leadOf k) b fun f => { f with flags := Nat.lor f.flags 1 }).raise (pctxPage k (9 + b)) 9 else r.2)
    (s.restoreLines k)

/-- PIPE_CONTEXT_SWITCH (R152, R154, R195): at a run boundary the pipe picks the eligible context that ranks first. -/
def execPipeContextSwitch (n : Nat) (s : State) : Step :=
  let p := s.pipe n
  if s.alive (pPIPE n 0) = false ∨ p.running = true ∨ p.picked.isSome then .next s
  else match s.pipeBest n none with
    | none => .next s
    | some c =>
      if p.cur = some c then .next (s.modPipe n fun q => { q with picked := some (c, s.now, s.now, 0) })
      else
        let k := ctxKey n c
        let out := match p.cur with
          | some o => s.heldOf (ctxKey n o)
          | none => (0, 0)
        let inn := s.heldOf k
        let base := switchCycles out.1 out.2 inn.1 inn.2
        let moved := fun b => max (s.histOf k b) (match p.cur with | some o => s.histOf (ctxKey n o) b | none => 0)
        let hist := (List.range 4).foldl (fun a b => if moved b = 0 then a else max a (512 + (moved b + 7) / 8)) base
        let s1 := match p.cur with
          | some o => s.saveHeld (ctxKey n o)
          | none => s
        let s2 := (s1.restoreHeld k).count (pPIPE n 0) Off.pipeCtl_SWITCHES 0 32 1
        .next (s2.modPipe n fun q => { q with cur := none, picked := some (c, s.now, s.now + (hist + 3) / 4, hist) })

/-- Words of a table with the indices that arrive poison-marked. -/
def State.readTable (s : State) (a n : Nat) : TableBank × State :=
  let r := s.busRead a (4 * n)
  let bad := if r.1.bad then (List.range n).filter fun i => !(s.peek (a + 4 * i) 4 == (r.2.busRead (a + 4 * i) 4).1.bytes) ||
      (r.2.busRead (a + 4 * i) 4).1.bad else []
  (⟨bytesWords n (s.peek a (4 * n)), bad⟩, r.2)

/-- The tables that a set names for a page: their identity and the pieces as (address, words), address 0 for zeros; none
where the set needs no table (R155, R198). -/
def tablePlan (ps : Words) (o : Nat) : Option (Nat × List (Nat × Nat)) :=
  let id := (psw ps 0).toNat
  match o with
  | 1 => if wfld (psw ps 0x14C) 0 4 = 0 then none
    else some (id, (List.range 4).map fun k => if bitAt (psw ps 0x14C) k then (dwordAt ps ((0x150 + 8 * k) / 4), 4097) else (0, 4097))
  | 3 => if bitAt (psw ps 0x280) 0 then some (id, [(dwordAt ps (0x288 / 4), min 65536 (wfld (psw ps 0x284) 0 17))]) else none
  | 4 => if bitAt (psw ps 0x2C0) 0 then
      some (id, [(dwordAt ps (0x2C8 / 4), 2 * wfld (psw ps 0x2C0) 8 7 * wfld (psw ps 0x2C0) 16 7)]) else none
  | _ =>
    let b := o - 9
    if wfld (psw ps (brBase b + 0x2C)) 2 2 = 1 ∨ wfld (psw ps (brBase b + 0x2C)) 2 2 = 2 then
      some ((psw ps (brBase b + 0x40)).toNat, [(dwordAt ps ((brBase b + 0x38) / 4), 513)]) else none

/-- Pages with table banks. -/
def tablePages : List Nat := [1, 3, 4, 9, 10, 11, 12]

/-- The bank of page `o` that holds table `id`. -/
def Pipe.findBank (p : Pipe) (o id : Nat) : Option Nat :=
  [0, 1].find? fun b => match Map.get (fun _ => none) p.bank (2 * o + b) with
    | some x => x.1 == id
    | none => false

/-- Read the pieces of a plan. -/
def State.readPlan (s : State) : List (Nat × Nat) → TableBank × State
  | [] => ({}, s)
  | (a, n) :: rest =>
    let r := if a = 0 then ({ words := List.replicate n 0 }, s) else s.readTable a n
    let t := r.2.readPlan rest
    (⟨r.1.words ++ t.1.words, r.1.bad ++ t.1.bad.map (· + n)⟩, t.2)

/-- Load a page's table of a set into its idle bank unless a bank holds it (R155, R176). -/
def State.loadBank (s : State) (n : Nat) (ps : Words) (o : Nat) : State :=
  match tablePlan ps o with
  | none => s
  | some (id, plan) =>
    if ((s.pipe n).findBank o id).isSome then s
    else
      let r := s.readPlan plan
      let idle := 1 - Map.get (fun _ => 0) (s.pipe n).active o
      let s1 := r.2.modPipe n fun q => { q with bank := Map.put (fun _ => none) q.bank (2 * o + idle) (some (id, r.1)) }
      if r.1.bad = [] then s1
      else
        let s2 := s1.raise (pPIPE n o) 8
        if o = 4 then s2.count (pPIPE n 4) Off.pipeStage_CNT0 0 32 ((r.1.bad.map (· / 2)).eraseDups.length) else s2

/-- The context whose tables are loaded now: the picked one, else the next in rank (R155). -/
def State.loadCtx (s : State) (n : Nat) : Option Nat :=
  match (s.pipe n).picked with
  | some x => some x.1
  | none => s.pipeBest n (if (s.pipe n).running then (s.pipe n).cur else none)

/-- TABLE_LOAD_DONE (R155, R198). -/
def execTableLoadDone (n : Nat) (s : State) : Step :=
  match s.loadCtx n with
  | some c =>
    if s.alive (pPIPE n 0) then
      .next (tablePages.foldl (fun t o => t.loadBank n (((s.pctx (ctxKey n c)).force.map (·.words)).getD []) o) s)
    else .next s
  | none => .next s

/-- The slot whose LUT context `c` uses (R188, R189): either slot while none is pinned; the pinned one for a SAFETY context, the other
one for the rest. -/
def State.lutFor (s : State) (n c : Nat) (ps : Words) : Option Nat :=
  let slots := match s.lutPinned n with
    | some i => if cfgSafety (s.pctx (ctxKey n c)).cfg then [i] else [1 - i]
    | none => [0, 1]
  slots.find? fun i => (s.pipe n).lutHolds ps i

/-- The slot that a load takes (R188, R189): the one not pinned, else the one that the running context does not use. -/
def State.lutSlot (s : State) (n : Nat) : Nat :=
  match s.lutPinned n with
  | some i => 1 - i
  | none => 1 - (s.pipe n).lutUse

/-- The LUT load under way as (slot, context): a SAFETY frame's, else that of the next context that needs one (R188, R189). -/
def State.lutJob (s : State) (n : Nat) : Option (Nat × Nat) :=
  match (s.pipe n).lutLoad with
  | some j => some j
  | none =>
    match s.loadCtx n with
    | some c =>
      let ps := ((s.pctx (ctxKey n c)).force.map (·.words)).getD []
      if lutOn ps && (s.lutFor n c ps).isNone then some (s.lutSlot n, c) else none
    | none => none

/-- Load the LUT of context `c` into slot `i`; a SAFETY context's slot becomes the pinned one (R188 to R190). -/
def State.loadLut (s : State) (n i c : Nat) : State :=
  let x := s.pctx (ctxKey n c)
  let ps := (x.force.map (·.words)).getD []
  let sz := lutSize ps
  let r := s.readTable (lutPtr ps) (2 * sz * sz * sz)
  let s1 := (r.2.modPipe n fun q =>
    { q with lut := Map.put (fun _ => none) q.lut i (some (lutPtr ps, (psw ps 0x438).toNat, r.1)),
             lutLoad := none, lutPin := if cfgSafety x.cfg then some i else q.lutPin }).count (pPIPE n 8)
    Off.pipeStage_CNT1 0 32 1
  if r.1.bad = [] then s1 else s1.raise (pPIPE n 8) 8

/-- LUT_LOAD_DONE (R188, R189): the load in progress, else that of the next context that needs one. -/
def execLutLoadDone (n : Nat) (s : State) : Step :=
  if !s.alive (pPIPE n 0) then .next s
  else match s.lutJob n with
    | some (i, c) => .next (s.loadLut n i c)
    | none => .next s

/-- Is a table of the picked context still missing? -/
def State.tablesMissing (s : State) (n c : Nat) : Bool :=
  let ps := ((s.pctx (ctxKey n c)).force.map (·.words)).getD []
  tablePages.any fun o => match tablePlan ps o with
    | some (id, _) => ((s.pipe n).findBank o id).isNone
    | none => false

/-- Make a context's tables the active banks (R155) and its LUT's slot, if it has one, the slot in use. -/
def Pipe.activate (p : Pipe) (ps : Words) (slot : Option Nat) : Pipe :=
  let q := tablePages.foldl (fun (q : Pipe) o => match tablePlan ps o with
    | some (id, _) => { q with active := Map.put (fun _ => 0) q.active o ((q.findBank o id).getD 0) }
    | none => q) p
  { q with lutUse := slot.getD q.lutUse }

/-- Did an active table of a set arrive with poisoned words? -/
def Pipe.tablePoison (p : Pipe) (ps : Words) : Bool :=
  (tablePages.any fun o => (tablePlan ps o).isSome && !(p.tableOf o).bad.isEmpty) || (lutOn ps && !p.lutOf.bad.isEmpty)

/-- Units of 64 ns of a wait in ticks, in 16 bits. -/
def wait64 (t : Nat) : Nat := min 65535 (t / 16)

/-- PIPE_RUN_START (R152, R154, R155, R189): the picked context's run starts when its switch and its tables are done. -/
def execPipeRunStart (n : Nat) (s : State) : Step :=
  match (s.pipe n).picked with
  | none => .next s
  | some (c, at_, ready, cycles) =>
    let k := ctxKey n c
    let x := s.pctx k
    let ps := (x.force.map (·.words)).getD []
    let slot := if lutOn ps then s.lutFor n c ps else none
    if s.alive (pPIPE n 0) = false ∨ s.now < ready ∨ s.tablesMissing n c = true then .next s
    else if lutOn ps && slot.isNone then
      let s1 := s.modPipe n fun q => { q with lutWait := some (q.lutWait.getD s.now) }
      .next (if cfgSafety x.cfg then s1.raise (pPIPE n 8) 10 else s1)
    else
      let lw := match (s.pipe n).lutWait with | some t => 4 * (s.now - t) | none => 0
      let wait := match x.eligible with | some t => wait64 (s.now - t) | none => 0
      let s1 := s.modPipe n fun q =>
        { (q.activate ps slot) with cur := some c, running := true, runLines := 0, runStart := s.now, picked := none, lutWait := none, bypass := s.bypassed n }
      -- a switch that waited for nothing took its cycles; the run of the context already in the stages is none
      let took := if (s.pipe n).cur = some c then 0 else if s.now ≤ ready then cycles else 4 * (s.now - at_)
      let s2 := (s1.setReg (pPIPE n 0) Off.pipeCtl_SWITCH_MAX
          (wd (max (s1.reg (pPIPE n 0) Off.pipeCtl_SWITCH_MAX).toNat took))).setReg (pPIPE n 8)
        Off.pipeLut_LUT_WAIT_MAX (wd (max (s1.reg (pPIPE n 8) Off.pipeLut_LUT_WAIT_MAX).toNat lw))
      .next ((s2.modPframe k fun f =>
        { f with runs := f.runs + 1, wait := if cfgSafety x.cfg then max f.wait wait else f.wait,
                 flags := Nat.lor f.flags (((s2.pipe n).tablePoison ps).toNat * 128) }).modPctx k
          fun y => { y with eligible := none })

/-- SAFETY_LATE (R156): a SAFETY context that waits longer than its switch and 4,352 cycles. -/
def execSafetyLate (n c : Nat) (s : State) : Step :=
  let k := ctxKey n c
  let x := s.pctx k
  match x.eligible, x.frame with
  | some t, some f =>
    let h := s.heldOf k
    -- the switch under way for this context, or the one from the context in the stages or on its way in
    let out := match (s.pipe n).picked, (s.pipe n).cur with
      | some x, _ => s.heldOf (ctxKey n x.1)
      | none, some o => s.heldOf (ctxKey n o)
      | none, none => (0, 0)
    let cycles := match (s.pipe n).picked with
      | some (o, _, _, cyc) => if o = c then cyc else switchCycles out.1 out.2 h.1 h.2
      | none => switchCycles out.1 out.2 h.1 h.2
    let bound := (cycles + 4352 + 3) / 4
    if cfgSafety x.cfg ∧ s.alive (pPIPE n 0) = true ∧ t + bound < s.now ∧ Nat.land f.flags 64 = 0 then
      .next (((s.modPframe k fun g => { g with flags := Nat.lor g.flags 64 }).raise (pPIPE n 0) 15).produce (pPIPE n 0) 2)
    else .next s
  | _, _ => .next s

/-! ## One line -/

/-- Take `need` inline lines from the head of a queue. -/
def takeLines : Nat → List PipeIn → List (List Nat × List Nat) × List PipeIn
  | n + 1, .line p q :: t => let r := takeLines n t; ((p, q) :: r.1, r.2)
  | _, q => ([], q)

/-- A line of samples from memory: samples of processed columns and the columns that arrive poisoned (R150, R176). -/
def State.memLine (s : State) (cfg : Words) (pack dt a left n : Nat) : (List Nat × List Nat) × State :=
  let len := packedBytes pack dt (left + n)
  let r := s.busRead a len
  let bs := s.peek a len
  let at_ := fun i => unpackAt pack dt bs (left + i)
  let marks := (List.range n).any fun i => (at_ i).2.any fun o => s.poisoned (a + o)
  let bad := if !r.1.bad then []
    else if marks then (List.range n).filter fun i => (at_ i).2.any fun o => s.poisoned (a + o)
    else List.range n
  (((List.range n).map fun i => (at_ i).1 % 2 ^ cfgBits cfg, bad), r.2)

/-- The input rows of the next line enter the stages (R150, R165). -/
def State.takeRows (s : State) (k : Nat) : State :=
  let c := s.pctx k
  let w := c.cfg
  match c.frame with
  | none => s
  | some f =>
    match f.desc with
    | none =>
      let r := takeLines (linesPerRow w) c.inq
      s.modPctx k fun x => { x with inq := r.2, frame := x.frame.map fun g => { g with lines := g.lines ++ r.1 } }
    | some d =>
      let cols := if cfgLayout w = 2 then (cfgNi w + 1) * cfgWidth w else cfgWidth w
      (List.range (linesPerRow w)).foldl (fun t i =>
        let r := t.memLine w (cfgPack w) (cfgDt w) (dwordAt d 0 + (linesPerRow w * f.y + i) * (wordAt d 2).toNat) 0 cols
        let row := if cfgStripe w = 0 then r.1 else (stripeCols w r.1.1, stripeMarks w cols r.1.2)
        r.2.modPframe k fun g => { g with lines := g.lines ++ [row] }) s

/-- A companion row for exposure `e`, none when it cannot contribute (R165, R167). -/
def State.compRow (s : State) (k e : Nat) : (List Nat × List Nat) × State :=
  let c := s.pctx k
  let w := c.cfg
  match c.frame with
  | none => (([], []), s)
  | some f =>
    match f.desc with
    | some d => s.memLine w (cfgPack w) (cfgDt w)
        (dwordAt d 0 + e * (wordAt d 3).toNat + f.y * (wordAt d 2).toNat) (cfgLeft w) (cfgPw w)
    | none =>
      match cfgComp w e with
      | none => (([], []), s)
      | some j =>
        match s.compLine j f.num f.y with
        | .stored buf =>
          let v := s.scx j
          s.memLine w (if capPack v = 1 then 1 else 0) (cfgDt w) (buf + f.y * capStride v) (cfgLeft w) (cfgPw w)
        | _ => (([], []), s)

/-- Companion rows of LAYOUT 0; a missing exposure degrades the line (R167). -/
def State.takeComps (s : State) (k : Nat) : State :=
  let e := s.pipeEnv k
  let n := e.nExp
  let w := (s.pctx k).cfg
  let s1 := if cfgLayout w ≠ 0 then s
    else (List.range (n - 1)).foldl (fun t i =>
      let r := t.compRow k (i + 1)
      r.2.modPframe k fun f => { f with comp := Map.put (fun _ => []) f.comp (i + 1) (Map.get (fun _ => []) f.comp (i + 1) ++ [r.1]) }) s
  let missing := (List.range n).any fun i => ((s1.pipeEnv k).row i (((s1.pctx k).frame.map (·.y)).getD 0)).isNone && i != 0
  if missing then
    ((s1.modPframe k fun f => { f with flags := Nat.lor f.flags 2 }).raise (pctxPage k 0) 12).count (pctxPage k 2)
      Off.pipeStage_CNT1 0 32 1
  else s1

/-- Number of entries that satisfy a test. -/
def tally {α : Type} (l : List α) (p : α → Bool) : Nat := (l.filter p).length

/-- Counters of the input line y: replaced pixels, clamped and saturated samples (R162, R163, R177). -/
def State.countInput (s : State) (k y : Nat) : State :=
  let e := s.pipeEnv k
  let cols := (List.range (cfgPw e.cfg)).map (cfgLeft e.cfg + ·)
  let ks := (List.range e.nExp).filter fun i => (e.row i y).isSome
  let all := ks.flatMap fun i => cols.map fun x => (i, x)
  let poison := tally all fun z => (e.code z.1 y z.2).2
  let low := tally all fun z => decide (e.blackRaw z.1 y z.2 < -65536)
  let high := tally all fun z => decide (2 ^ 24 - 1 < e.linRaw z.1 y z.2)
  ((s.count (pctxPage k 1) Off.pipeStage_CNT0 0 32 high).count (pctxPage k 1) Off.pipeStage_CNT1 0 32 low).replaced k poison

/-- Counters of trunk row r (R168, R170, R171, R183, R187). -/
def State.countRow (s : State) (k : Nat) (e : PipeEnv) (im : PipeImage) (r : Nat) : State :=
  let d := im.fixed.getD r []
  let stat := tally d fun p => p.kind == 1
  let dyn := tally d fun p => p.kind == 2
  let qs := if e.merging && r % 2 == 0 then
      (List.range ((cfgPw e.cfg + 1) / 2)).map fun i => e.quad r (cfgLeft e.cfg + 2 * i) else []
  let mot := tally qs (·.motion)
  let clip := tally qs (·.clipped)
  let mtxOn := e.on 7 (bitAt (psw e.ps 0x340) 0)
  let ls := if mtxOn then (im.rgb.getD r []).map (matLin e.ps) else []
  let sat := tally ls fun p => p.any fun v => (⟨8192, 1⟩ : Q).lt v.abs
  let neg := tally ls fun p => p.any fun v => v.lt Q.zero
  let lut := if e.on 8 (lutOn e.ps) then tally ((im.rgb.getD r []).map fun p =>
      let p1 := if mtxOn then mtxStage e.ps p else p
      if e.on 8 (bitAt (psw e.ps 0x400) 0) then (cdl e.ps p1).map pf24 else p1)
      (fun p => lutClamped e.ps 0 p.a || lutClamped e.ps 1 p.b || lutClamped e.ps 2 p.c) else 0
  let s1 := s.modPframe k fun f =>
    { f with defStatic := f.defStatic + stat, defDynamic := f.defDynamic + dyn, motion := f.motion + mot, clipped := f.clipped + clip }
  let c := fun (t : State) (o off v : Nat) => t.count (pctxPage k o) off 0 32 v
  c (c (c (c (c (c s1 2 Off.pipeStage_CNT0 mot) 3 Off.pipeStage_CNT0 stat) 3 Off.pipeStage_CNT1 dyn) 7 Off.pipeStage_CNT0 sat)
    7 Off.pipeStage_CNT1 neg) 8 Off.pipeStage_CNT0 lut

/-- Branch `b`'s view of context `k`'s frame; a stripe member uses the lead's descriptor (R213). -/
def State.branchEnv (s : State) (k b : Nat) : BranchEnv :=
  let d := (s.pctx (s.leadOf k)).brDesc b
  let f := (s.pctx k).frame.getD { num := 0 }
  let cr := (Map.get (fun _ => ({} : BrFrame)) f.br b).crop
  ⟨b, d, cr.1 % 65536, cr.1 / 65536, cr.2 % 65536, cr.2 / 65536⟩

/-- Bytes of a frame's planes. -/
def planeBytes (d : Words) : Nat := ((brPlanes d).map fun p => brStride d * p.2).foldl (· + ·) 0

/-- The first output line of a frame takes its buffer (R206): the lead's part holds it. -/
def State.brTake (s : State) (k b : Nat) : State :=
  let lead := s.leadOf k
  let d := (s.pctx lead).brDesc b
  let pg := pctxPage lead (9 + b)
  if (s.brFrame lead b).taken || !s.alive pg then s
  else if brBand d then
    let r := Map.get (fun _ => []) (s.pctx lead).band b
    s.modBr lead b fun f => { f with taken := true, buf := dwordAt r 0, size := (wordAt r 2).toNat, token := (wordAt r 3).toNat }
  else match s.take (wfld (wordAt d 3) 0 20) with
    | (none, t) => (((t.modBr lead b fun f => { f with taken := true, nothing := true, flags := Nat.lor f.flags 2 }).count pg
        Off.pipeBranch_NOBUF 0 32 1).raise pg 11).produce pg 0
    | (some r, t) =>
      let t1 := t.modBr lead b fun f =>
        { f with taken := true, buf := dwordAt r 0, size := (wordAt r 2).toNat, token := (wordAt r 3).toNat }
      if (wordAt r 2).toNat < planeBytes d then
        (t1.modBr lead b fun f => { f with nothing := true, flags := Nat.lor f.flags 4 }).raise pg 12
      else t1

/-- Write the pieces of an output line (R203, R207). -/
def State.brWrites (s : State) (k lead b : Nat) : List (Nat × Nat × Nat × List Byte) → State
  | [] => s
  | (p, line, off, bs) :: rest =>
    let d := (s.pctx lead).brDesc b
    let f := s.brFrame lead b
    let base := ((brPlanes d).take p |>.map fun x => brStride d * x.2).foldl (· + ·) 0
    let l := if brBand d then line % (f.size / brStride d) else line
    let s1 := s.busWrite (pctxPage k (9 + b)) (f.buf + base + l * brStride d + off) bs
    (s1.modBr lead b fun x => { x with written := x.written + bs.length }).brWrites k lead b rest

/-- Output line `j` of branch `b` from the trunk rows `g`; the branch SRAM loses the output columns `lost` of it (R191, R201, R212,
R213). -/
def State.brLine (s : State) (k b j : Nat) (e : PipeEnv) (g : List (List Px3)) (lost : List Nat) : State :=
  let lead := s.leadOf k
  let v := s.branchEnv k b
  let s0 := s.brTake k b
  let s1 := s0.modBr k b fun f => { f with lines := j + 1 }
  if (s0.brFrame lead b).nothing then s1
  else
    let cols := v.columns e.cfg
    let line := fun i => (List.range (brOutW v.d)).map fun c => v.pixel e g (if i = j then lost else []) i c
    let px := line j
    let codes := px.map fun p => v.codes p.1
    let prev := if j = 0 then [] else (line (j - 1)).map fun p => (v.codes p.1).1
    let mine := fun {α : Type} (l : List α) => (l.drop cols.1).take (cols.2 - cols.1)
    let clip := tally (mine codes) (·.2)
    let gam := tally (mine px) (·.2)
    let s2 := (s1.count (pctxPage k (9 + b)) Off.pipeBranch_CNT0 0 32 clip).count (pctxPage k (9 + b)) Off.pipeBranch_CNT1 0 32 gam
    let s3 := if clip = 0 then s2 else s2.modBr lead b fun f => { f with flags := Nat.lor f.flags 64 }
    s3.brWrites k lead b (v.writes prev (codes.map (·.1)) j cols.1 cols.2)

/-- Output lines of branch `b` from `j` on whose trunk lines have left demosaic, while the pipe is not fenced (R46, R178). -/
def State.brLines (s : State) (k b : Nat) (e : PipeEnv) (g : List (List Px3)) (lost : List Nat) : Nat → Nat → State
  | 0, _ => s
  | n + 1, j =>
    let v := s.branchEnv k b
    if j < brOutH v.d ∧ v.lastTrunk (cfgHeight e.cfg) j < g.length ∧ s.alive (pctxPage k 0) = true then
      (s.brLine k b j e g lost).brLines k b e g lost n (j + 1)
    else s

/-- A per-context event of *Pipe context configuration* (EVENTS): START at bit 0, DONE at bit 16. -/
def State.ctxEvent (s : State) (k lo : Nat) : State :=
  let w := wordAt (s.pctx k).cfg 12
  s.produceOn (pctxPage k 0) (wfld w lo 8) (bitAt w (lo + 8))

/-- End of the run in progress (R153). -/
def State.runEnd (s : State) (n k : Nat) : State :=
  ((s.modPipe n fun q => { q with running := false, runs := ((q.runStart, s.now) :: q.runs).filter fun r => decide (s.now ≤ r.2 + 250000) }).modPctx k
    fun c => { c with lastRun := s.now }).markElig k

/-- Does the run of context `k` end at the end of its line (R153, R189)? -/
def State.runEnds (s : State) (n k : Nat) : Bool :=
  let p := s.pipe n
  let x := s.pctx k
  !s.pipeHas k 1 ||
    (decide (cfgRunLines x.cfg ≤ p.runLines) && (List.range 64).any fun c =>
      ctxKey n c != k && s.pipeElig (ctxKey n c) && decide (pipeRank (s.pctx (ctxKey n c)).cfg ≤ pipeRank x.cfg)) ||
    (!cfgSafety x.cfg && ((List.range 64).any (fun c => cfgSafety (s.pctx (ctxKey n c)).cfg && s.pipeElig (ctxKey n c)) ||
      (match p.lutLoad with
       | some (i, c) => cfgSafety (s.pctx (ctxKey n c)).cfg && i == p.lutUse
       | none => false)) ||
    -- the slot in use has lost its table, which is loaded again before the next run (R190)
    (let ps := (x.force.map (·.words)).getD []
     lutOn ps && !p.lutHolds ps p.lutUse))

/-- START of a frame: its first line enters black level (R149, R181). -/
def State.frameStart (s : State) (k : Nat) : State :=
  let e := s.pipeEnv k
  let s1 := (s.modPframe k fun f => { f with started := true, startNs := s.timeNs }).ctxEvent k 0
  let s2 := (s1.setReg (pctxPage k 7) Off.pipeMatrix_MTX_ALPHA
      (wd (min 65535 ((mtxAlpha e.ps).mul ⟨65536, 1⟩).round.toNat))).setReg (pctxPage k 7) Off.pipeMatrix_MTX_PSET (psw e.ps 0)
  if bitAt (psw e.ps 0x280) 0 && decide (0 < (e.defList).2) then s2.raise (pctxPage k 3) 10 else s2

/-- A trunk row as binary32 words, three a pixel: PF24 values are exact in it. -/
def trunkWords (row : List Px3) : Words := row.flatMap fun p => [qToF32 p.a, qToF32 p.b, qToF32 p.c]

/-- A kept trunk row as pixels. -/
def trunkRow (w : Words) : List Px3 :=
  (List.range (w.length / 3)).map fun i =>
    let v := fun j => (f32q (wordAt w (3 * i + j))).getD Q.zero
    ⟨v 0, v 1, v 2⟩

/-- One line of context `k` through the stages and branches; `lost` are the output columns that a branch's SRAM loses, with the branch. -/
def State.pipeLine (s : State) (k : Nat) (lost : List (Nat × Nat)) : State :=
  let y := ((s.pctx k).frame.map (·.y)).getD 0
  let s0 := if y = 0 then s.frameStart k else s
  let s1 := ((s0.takeRows k).takeComps k).countInput k y
  let e := s1.pipeEnv k
  let im := e.image (y + 1)
  let from_ := ((s1.pctx k).frame.map (·.out)).getD 0
  let to_ := max from_ (e.emitted (y + 1))
  let s2 := (List.range (to_ - from_)).foldl (fun t i => t.countRow k e im (from_ + i)) s1
  let s3 := s2.modPframe k fun f =>
    { f with y := y + 1, out := to_, trunk := f.trunk ++ ((im.trunk.drop from_).take (to_ - from_)).map trunkWords,
             acc := f.acc.rows e im from_ to_ }
  let g := (((s3.pctx k).frame.map fun f => f.trunk).getD []).map trunkRow
  (s3.pctx (s3.leadOf k)).branches.foldl (fun t b =>
    t.brLines k b e g ((lost.filter fun p => p.1 == b).map (·.2)) (brOutH (t.branchEnv k b).d) (t.brFrame k b).lines) s3

/-- A memory error of a pipe while a line passes (R176, R190, R212, R497): a corrected one counts in CNT_SRAM. An uncorrectable one
counts there, sets SRAM_UE of its page, and in a stage loses the sample on its way into the stage, which becomes 0.0 and counts as
replaced; in the LUT store it takes the slot in use; in a branch it marks the branch POISONED. The control, statistics and focus pages
have the fault bit alone. -/
def State.sramErr (s : State) (n k : Nat) (e : SramErr) : State :=
  let pg := pPIPE n e.page
  let off := if 9 ≤ e.page then Off.pipeBranch_CNT_SRAM else Off.pipeStage_CNT_SRAM
  if e.page = 0 ∨ 13 ≤ e.page then (if e.hard then s.raise pg (if e.page = 0 then 11 else 9) else s)
  else if !e.hard then s.count pg off 0 16 1
  else
    let s1 := (s.count pg off 16 16 1).raise pg 9
    if 9 ≤ e.page then s1.modBr (s.leadOf k) (e.page - 9) fun f => { f with flags := Nat.lor f.flags 1 }
    else if e.page = 8 then s1.modPipe n fun q => { q with lut := Map.put (fun _ => none) q.lut q.lutUse none }
    else
      let v := s.pipeEnv k
      let y := ((s.pctx k).frame.map (·.y)).getD 0
      if y < v.lagTo e.page then s1
      else ((s1.modPframe k fun f =>
        { f with dead := f.dead ++ [(e.page, y - v.lagTo e.page, cfgLeft v.cfg + e.col % cfgPw v.cfg)] }).replaced k 1).raise (pPIPE n 0) 11

/-- The check-bit injections that wait on the pages of pipe `n` (R561): the next word that the page's memory takes, and its read. -/
def State.pipeInjected (s : State) (n : Nat) : List SramErr × State :=
  let ps := (List.range 15).filter fun o => decide ((s.pageRt (pPIPE n o)).inject ≠ 0)
  (ps.map fun o => ⟨o, 0, decide ((s.pageRt (pPIPE n o)).inject = 2)⟩,
   ps.foldl (fun t o => t.modPage (pPIPE n o) fun r => { r with inject := 0 }) s)

/-- PIPE_LINE (R149, R153, R178): the running context of pipe `n` processes one line, its memories show the errors `errs`, and its run
may end. A fence that the line raises drops the rest. -/
def execPipeLine (n : Nat) (errs : List SramErr) (s : State) : Step :=
  match (s.pipe n).cur with
  | some c =>
    let k := ctxKey n c
    if s.alive (pPIPE n 0) && (s.pipe n).running && s.pipeHas k 1 then
      let j := s.pipeInjected n
      let all := errs ++ j.1
      let s0 := all.foldl (fun t e => t.sramErr n k e) j.2
      let lost := (all.filter fun e => e.hard && decide (9 ≤ e.page)).map fun e => (e.page - 9, e.col)
      let s1 := (s0.pipeLine k lost).modPipe n fun q => { q with runLines := q.runLines + 1 }
      .next (if s1.runEnds n k then s1.runEnd n k else s1)
    else .next s
  | none => .next s

/-! ## Frame end -/

/-- The live members of a set that work on the lead's frame (R161). -/
def State.stripeWork (s : State) (k : Nat) : List Nat :=
  (s.stripeLive k).filter fun j => decide ((s.pctx j).state = 2) && (s.pctx j).frame.isSome

/-- The record flags of a set's frame: the lead's with those of the live members (R161, R177). -/
def State.setFlags (s : State) (k : Nat) : Nat :=
  (s.stripeWork k).foldl (fun a j => Nat.lor a (((s.pctx j).frame.map fun f => f.flags).getD 0))
    (((s.pctx k).frame.map fun f => f.flags).getD 0)

/-- A branch whose completion is on DONE_Q, out of the push buffer, has completed: FRAMES and its events follow (R210, R449). -/
def State.brSettle (s : State) (k b : Nat) : State :=
  let d := (s.pctx k).brDesc b
  let pg := pctxPage k (9 + b)
  match (s.brFrame k b).posted with
  | none => s
  | some w =>
    if (s.brFrame k b).done || s.qm.pushBuf.any (fun x => x.page == pg && x.desc == w) then s
    else
      let s1 := (s.modBr k b fun y => { y with done := true }).count pg Off.pipeBranch_FRAMES 0 32 1
      let s2 := if bitAt (wordAt w 5) 6 then s1.produce pg 1 else s1
      s2.produceOn pg (wfld (wordAt d 0) 16 8) (bitAt (wordAt d 0) 24)

/-- The completion descriptor of branch `b` (R210, R212), which goes to DONE_Q outside band mode. -/
def State.brComplete (s : State) (k b extra : Nat) : State :=
  let c := s.pctx k
  let d := c.brDesc b
  let pg := pctxPage k (9 + b)
  match c.frame with
  | none => s
  | some f =>
    let x := Map.get (fun _ => ({} : BrFrame)) f.br b
    if x.done || !s.alive pg then s
    else if x.posted.isSome then s.brSettle k b
    else
      let all := s.setFlags k
      let fl := Nat.lor (Nat.lor x.flags extra) (Nat.land all 1 + Nat.land (all / 4) 1 * 16)
      let buf := if Nat.land fl 2 ≠ 0 then 0 else x.buf
      let rec_ := dwordAt c.cfg 8 + 64 * (f.num % 64)
      let w : Words := [wd buf, wd (buf / 2 ^ 32), wd rec_, wd (rec_ / 2 ^ 32), wd f.num, wd fl, wd x.written, wd x.token]
      let s1 := s.modBr k b fun y => { y with posted := some w }
      (if brBand d then s1 else s1.push pg (wfld (wordAt d 4) 0 20) w).brSettle k b

/-- Has every live member of a set finished branch `b`'s lines (R161, R210, R213)? -/
def State.brFinished (s : State) (k b : Nat) : Bool :=
  (s.stripeWork k).all fun j =>
    decide (brOutH ((s.pctx k).brDesc b) ≤ (s.brFrame j b).lines) ||
      ((s.pctx j).frame.map fun f => decide (cfgHeight (s.pctx j).cfg ≤ f.y)).getD false

/-- Output lines of branch `b` that memory has acknowledged: every member of a set has written its columns of them (R209, R213). -/
def State.brLinesDone (s : State) (k b : Nat) : Nat :=
  (s.stripeWork k).foldl (fun a j => min a (s.brFrame j b).lines) (s.brFrame k b).lines

/-- BRANCH_PROGRESS (R209). -/
def execBranchProgress (n b c : Nat) (s : State) : Step :=
  let k := ctxKey n c
  let d := (s.pctx k).brDesc b
  let x := s.brFrame k b
  let step := wfld (wordAt d 6) 0 16
  if s.alive (pPIPE n 0) && brEn d && decide (step ≠ 0) && decide (step * (x.prog + 1) ≤ s.brLinesDone k b) && !x.nothing then
    .next ((s.modBr k b fun y => { y with prog := y.prog + 1 }).produceOn (pPIPE n (9 + b)) (wfld (wordAt d 6) 16 8)
      (bitAt (wordAt d 6) 24))
  else .next s

/-- BRANCH_COMPLETE (R206, R210, R225): a finished branch, or one that writes nothing, posts its completion. -/
def execBranchComplete (n b c : Nat) (s : State) : Step :=
  let k := ctxKey n c
  let x := s.pctx k
  match x.frame with
  | none => .next s
  | some f =>
    if s.alive (pPIPE n 0) = false ∨ brEn (x.brDesc b) = false ∨ cfgStripe x.cfg = 2 then .next s
    else if f.noWork then
      -- no PSET has applied: BUF 0 and ABORTED outside band mode (R225); a rejected frame has no output (R148, R150)
      .next (if x.force.isNone && !brBand (x.brDesc b) then s.brComplete k b 8 else s.modBr k b fun y => { y with done := true })
    else if s.brFinished k b || (s.brFrame k b).nothing then .next (s.brComplete k b 0)
    else .next s

/-- Consume the rest of a frame's inline items: waiting lines are dropped, and its end leaves the capture flags and
EXPOSURE_SENSOR (R236). -/
def drainFrame : List PipeIn → List PipeIn × Option (Nat × Nat)
  | .line _ _ :: t => drainFrame t
  | .fe a b :: t => (t, some (a, b))
  | q => (q, none)

/-- Have all lines of a frame left the stages, or is it one without work? -/
def State.framePassed (s : State) (k : Nat) : Bool :=
  match (s.pctx k).frame with
  | some f => f.noWork || decide (cfgHeight (s.pctx k).cfg ≤ f.y)
  | none => true

/-- Capture flags and exposure of a memory frame, from the metadata record its descriptor names (R150, R236). -/
def State.metaOf (s : State) (d : Words) : Nat × Nat :=
  let a := dwordAt d 6
  if a = 0 then (0, 0) else (s.peekNat (a + 0x3C) 4, s.peekNat (a + 0x34) 4)

/-- End the input of every member's frame when it has arrived (R236). -/
def State.endInput (s : State) (k : Nat) : State :=
  (s.stripeSet k).foldl (fun t j =>
    match (t.pctx j).frame with
    | none => t
    | some f =>
      if f.ended then t
      else match f.desc with
        | some d => let m := t.metaOf d; t.modPframe j fun g => { g with ended := true, capFlags := m.1, expo := m.2 }
        | none =>
          if !t.framePassed j then t
          else
            let r := drainFrame (t.pctx j).inq
            match r.2 with
            | some e => t.modPctx j fun x => { x with inq := r.1, frame := x.frame.map fun g => { g with ended := true, capFlags := e.1, expo := e.2 } }
            | none => t.modPctx j fun x => { x with inq := r.1 }) s

end Sys2Proof.Machine
end

