-- ==== Sys2Proof/Machine/PipeStats.lean ====
section
/-!
DEFINITION. Statistics, the ends of a pipe frame, parameter-set pushes and branch descriptors (R145, R148, R149, R161,
R205, R211, R219, R223, R230 to R238).
-/

namespace Sys2Proof.Machine

open Sys2Proof

/-! ## Statistics -/

/-- The accumulators of a set's frame, its parts combined by the lead (R237). -/
def State.statParts (s : State) (k : Nat) : List StatAcc :=
  (s.stripeWork k).filterMap fun j => (s.pctx j).frame.map fun f => f.acc

/-- FLAGS of *Statistics block* for context `k`'s frame (R236). -/
def State.statFlags (s : State) (k : Nat) : Nat :=
  let c := s.pctx k
  let f := c.frame.getD { num := 0 }
  let ps := (c.force.map (·.words)).getD []
  let b := fun (w i o : Nat) => w / 2 ^ i % 2 * 2 ^ o
  let all := s.setFlags k
  let cfgErr := c.force.isSome && statInvalid ps (cfgWidth c.cfg) (cfgHeight c.cfg)
  let fl := b f.capFlags 0 1 + b f.capFlags 1 2 + b f.capFlags 2 3 + b all 0 4 + f.late.toNat * 2 ^ 5 +
    b f.capFlags 10 6 + b all 1 7 + b all 2 8 + b all 5 9 + cfgErr.toNat * 2 ^ 10 + b all 3 11 + b all 4 12
  let bad := decide (Nat.land fl (2 + 4 + 8 + 2 ^ 8 + 2 ^ 10 + 2 ^ 11 + 2 ^ 12) ≠ 0) || c.force.isNone
  fl + bad.toNat

/-- The statistics block without its CRC as words (R235, *Statistics block*), and the focus values FV_H and FV_V. -/
def State.statBlock (s : State) (k : Nat) : Words × Words :=
  let c := s.pctx k
  let f := c.frame.getD { num := 0 }
  let ps := (c.force.map (·.words)).getD []
  let fl := s.statFlags k
  let dark := f.noWork || decide (Nat.land fl (2 ^ 10) ≠ 0)
  let parts := if dark then [] else s.statParts k
  let zone := fun i => parts.foldl (fun z a => z.join (Map.get (fun _ => {}) a.zones i)) ({} : ZoneAcc)
  let bin := fun i => wd (min (2 ^ 32 - 1) ((parts.map fun a => Map.get (fun _ => 0) a.hist i).foldl (· + ·) 0))
  let win := fun i => parts.foldl (fun w a => w.join (Map.get (fun _ => {}) a.foc i)) ({} : FocusAcc)
  let zon := statEn ps && !dark
  let zones := if zon then (List.range (statZx ps * statZy ps)).flatMap fun i => (zone i).words else []
  let hist := if zon && statHist ps then (List.range 1032).map bin else []
  let foc := if focEn ps && !dark then (List.range (focWindows ps)).map fun i => (win i).words else []
  let head : Words := [wd f.num, wd f.psetId, wd fl, wd f.applied, wd f.req, psw ps 0x50, psw ps 0x54, wd f.expo,
    if c.force.isSome then wd (statZx ps + statZy ps * 2 ^ 8 + statTap ps * 2 ^ 16) else 0,
    if c.force.isSome then wd (statZw ps + statZh ps * 2 ^ 16) else 0]
  let words := fit 16 0 head ++ fit 4096 0 zones ++ fit 1032 0 hist ++ fit 4 0 [] ++ fit 128 0 foc.flatten ++ fit 2915 0 []
  (words, fit 16 0 (foc.map (·.headD 0)) ++ fit 16 0 (foc.map fun w => w.getD 1 0))

/-- Would a main-fabric write of `n` bytes at `a` fail (R238, R463, R596)? One that the write guard blocks completes normally (R472). -/
def State.writeFails (s : State) (a n : Nat) : Bool :=
  match target a with
  | .dram => !s.inDram a n || !s.ctlsAlive a n
  | .sram => false
  | .shm j => !s.alive (pCLUS j)
  | _ => true

/-- The statistics part of a frame's end (R235, R236, R238): the block, its counts, STATS_EVC and the focus registers. -/
def State.statsWrite (s : State) (k : Nat) : State :=
  let pg := pctxPage k 13
  let c := s.pctx k
  let f := c.frame.getD { num := 0 }
  let b := s.statBlock k
  let bytes := wordsBytes b.1
  let at_ := c.statBase + 32768 * (f.num % 16)
  let s0 := s.modPframe k fun g => { g with stats := true }
  if !s.alive pg then s
  else if s.writeFails at_ 32768 then (s0.raise pg 10).count pg Off.pipeStats_CNT_STAT 16 16 1
  else
    let fl := s.statFlags k
    let s1 := (s0.busWrite pg at_ (bytes ++ leBytes 4 (crc32c bytes))).count pg Off.pipeStats_CNT_STAT 0 16 1
    let s2 := if fl % 2 = 1 then s1.count pg Off.pipeStats_CNT_STAT 16 16 1 else s1
    let s3 := s2.modPctx k fun x => { x with lastFrame := f.num }
    let s4 := if Nat.land fl 64 ≠ 0 then s3.produce pg 2 else s3
    let s5 := if bitAt (wd c.statEvt) 8 then (s4.produceOn pg (c.statEvt % 256) true).produce pg 0 else s4
    if focEn ((c.force.map fun (p : PsetForce) => p.words).getD []) && !f.noWork then
      (s5.modPctx k fun x => { x with foc := [wd f.num, wd f.psetId, wd fl] ++ b.2, focCnt := min (2 ^ 32 - 1) (x.focCnt + 1) }).produce
        (pctxPage k 14) 0
    else s5

/-- STATS_BLOCK_DONE (R235): once the frame's last line has passed and its end has arrived. -/
def execStatsBlockDone (n c : Nat) (s : State) : Step :=
  let k := ctxKey n c
  if s.alive (pPIPE n 0) = false ∨ cfgStripe (s.pctx k).cfg = 2 then .next s
  else
    let s1 := s.endInput k
    match (s1.pctx k).frame with
    | none => .next s1
    | some f =>
      if f.stats || !f.ended || !(s1.stripeLive k).all (fun j => s1.framePassed j) then .next s1
      else .next (s1.statsWrite k)

/-! ## The record -/

/-- The 64 bytes of *Pipe record* (R149). -/
def pipeRecord (f : PipeFrame) (done : Nat) : List Byte :=
  let body := leBytes 4 f.num ++ leBytes 4 f.psetId ++ leBytes 4 f.flags ++ leBytes 4 f.poison ++ leBytes 4 f.defStatic ++
    leBytes 4 f.defDynamic ++ leBytes 4 f.motion ++ leBytes 4 f.clipped ++ leBytes 8 f.startNs ++ leBytes 8 done ++
    leBytes 4 (f.runs % 65536 + f.wait * 65536) ++ List.replicate 8 0
  body ++ leBytes 4 (crc32c body)

/-- Counts of a stripe set's members, summed into the lead's record (R161). -/
def sumFrames (f : PipeFrame) : List PipeFrame → PipeFrame
  | [] => f
  | g :: gs => sumFrames { f with flags := Nat.lor f.flags g.flags, poison := f.poison + g.poison, defStatic := f.defStatic + g.defStatic,
                                  defDynamic := f.defDynamic + g.defDynamic, motion := f.motion + g.motion, clipped := f.clipped + g.clipped,
                                  runs := f.runs + g.runs, wait := max f.wait g.wait } gs

/-- The frames of a set's live members beside the lead's (R161): one that was HALTED or fenced has no part in the record. -/
def State.memberFrames (s : State) (k : Nat) : List PipeFrame :=
  ((s.stripeWork k).filter (· != k)).filterMap fun j => (s.pctx j).frame

/-- Return the band rings of a context on their DONE_Q (R207). -/
def State.bandsBack (s : State) (k : Nat) : State :=
  (List.range 4).foldl (fun t b =>
    match Map.get (fun _ => []) (t.pctx k).band b with
    | [] => t
    | d => (t.push (pctxPage k (9 + b)) (wfld (wordAt ((t.pctx k).brDesc b) 4) 0 20) d).modPctx k fun c =>
        { c with band := Map.put (fun _ => []) c.band b [] }) s

/-- A context goes OFF (R146, R207). The set that its frame starts had reached is the one in force (R224). -/
def State.ctxOff (s : State) (k : Nat) : State :=
  (s.bandsBack k).modPctx k fun c => { c with state := 0, stopping := false, frame := none, inq := [], eligible := none,
                                              force := match c.decided with | some p => some p | none => c.force }

/-- Leave the frame: the contexts of the set return to ARMED, or to OFF when a STOP is pending (R146). -/
def State.leaveFrame (s : State) (k : Nat) : State :=
  (s.stripeSet k).foldl (fun t j =>
    if (t.pctx j).state = 2 then
      if (t.pctx k).stopping || (t.pctx j).stopping then t.ctxOff j
      else t.modPctx j fun c => { c with state := 1, frame := none, eligible := none }
    else t) s

/-- The pipe record, the returned descriptor and DONE (R149). -/
def State.frameRecord (s : State) (k : Nat) : State :=
  let c := s.pctx k
  match c.frame with
  | none => s
  | some f0 =>
    let f := sumFrames f0 (s.memberFrames k)
    let pg := pctxPage k 0
    if !s.alive pg then s
    else
    let s1 := s.busWrite pg (dwordAt c.cfg 8 + 64 * (f.num % 64)) (pipeRecord f s.timeNs)
    let s2 := match f.desc with
      | some d => s1.push pg (wfld (wordAt c.cfg 11) 0 20) (d.set 5 (wd f.flags))
      | none => s1
    let s3 := (s2.ctxEvent k 16).produce pg 0
    if f.flags % 2 = 1 then s3.produce pg 1 else s3

/-- PIPE_FRAME_DONE (R149): every enabled branch has completed and the statistics block is written. -/
def execPipeFrameDone (n c : Nat) (s : State) : Step :=
  let k := ctxKey n c
  match (s.pctx k).frame with
  | none => .next s
  | some f =>
    if s.alive (pPIPE n 0) = true ∧ (s.pctx k).state = 2 ∧ cfgStripe (s.pctx k).cfg ≠ 2 ∧ f.stats = true ∧
        ((s.pctx k).branches.all fun b => (s.brFrame k b).done) = true then
      .next ((s.frameRecord k).leaveFrame k)
    else .next s

/-- End a frame as ABORTED (R148, R211, R235). -/
def State.frameAbort (s : State) (k : Nat) : State :=
  match (s.pctx k).frame with
  | none => s
  | some _ =>
    let s1 := s.modPframe k fun f => { f with flags := Nat.lor f.flags 8 }
    let s2 := (s1.pctx k).branches.foldl (fun t b =>
      if brBand ((t.pctx k).brDesc b) then t.modBr k b fun y => { y with done := true } else t.brComplete k b 8) s1
    let s3 := if ((s2.pctx k).frame.map fun f => f.stats).getD true then s2 else s2.statsWrite k
    s3.frameRecord k

/-- End the run of a context that leaves the stages (R146). -/
def State.dropRun (s : State) (k : Nat) : State :=
  let n := k / 64
  let p := s.pipe n
  let s1 := if p.running && p.cur == some (k % 64) then s.runEnd n k else s
  s1.modPipe n fun q => { q with
    cur := if q.cur = some (k % 64) then none else q.cur,
    picked := match q.picked with | some x => if x.1 = k % 64 then none else some x | none => none }

/-- The lead marks its frame STRIPE_LOST when a member is lost (R161). -/
def State.stripeLost (s : State) (k : Nat) : State :=
  let lead := s.leadOf k
  if (s.pctx k).stripe = 0 then s
  else (s.modPframe lead fun f => { f with flags := Nat.lor f.flags 4 }).raise (pctxPage lead 0) 13

/-- STOP_NOW (R146, R148, R158, R161): on a lead or a context without stripe mode the frame ends as ABORTED and every context of the set
goes OFF; a member leaves its lead's frame, which has the one record. -/
def State.stopNow (s : State) (k : Nat) : State :=
  let s1 := if (s.pctx k).stripe = 2 then (if (s.pctx k).frame.isSome then s.stripeLost k else s) else s.frameAbort k
  (s1.stripeSet k).foldl (fun t j => (t.dropRun j).ctxOff j) s1

/-- CTX_STOP (R145, R146): at once without a frame in work. -/
def execCtxStop (m : Master) (n : Nat) (s : State) : Step :=
  .next (s.regWrite m (pPIPE n 0) Off.pipeCtl_CTX_CMD fun t =>
    let k := ctxKey n (t.ctxSel n)
    match (t.pctx k).state with
    | 0 => t.ctxStat n 0
    | 2 => (t.modPctx k fun c => { c with stopping := true }).ctxStat n 0
    | _ => (t.stopNow k).ctxStat n 0)

/-- CTX_STOP_NOW (R145, R148). -/
def execCtxStopNow (m : Master) (n : Nat) (s : State) : Step :=
  .next (s.regWrite m (pPIPE n 0) Off.pipeCtl_CTX_CMD fun t =>
    let k := ctxKey n (t.ctxSel n)
    if (t.pctx k).state = 0 then t.ctxStat n 0 else (t.stopNow k).ctxStat n 0)

/-- SAVE_FAULT (R146): a save-area write of context `c` failed. -/
def execSaveFault (n c : Nat) (s : State) : Step :=
  let k := ctxKey n c
  if s.alive (pPIPE n 0) && decide ((s.pctx k).state = 2) then
    -- a member's frame is lost; another context keeps its own, whose record STOP or STOP_NOW writes
    let s1 := (s.dropRun k).modPctx k fun x =>
      { x with state := 3, eligible := none, frame := if x.stripe = 2 then none else x.frame }
    .next (((s1.stripeLost k).raise (pPIPE n 0) 9).produce (pPIPE n 0) 3)
  else .next s

/-- Fencing pipe `n` loses every frame in flight without a record (R178); members' leads mark STRIPE_LOST (R161). -/
def State.pipeFenced (s : State) (n : Nat) : State :=
  let s1 := (List.range 64).foldl (fun t c => if (t.pctx (ctxKey n c)).stripe = 2 && (t.pctx (ctxKey n c)).frame.isSome then
      t.stripeLost (ctxKey n c) else t) s
  let s2 := (List.range 64).foldl (fun t c =>
    if (t.pctx (ctxKey n c)).frame.isSome then t.modPctx (ctxKey n c) fun x =>
      { x with frame := none, state := 1, eligible := none, inq := [] }
    else t.modPctx (ctxKey n c) fun x => { x with inq := [] }) s1
  s2.modPipe n fun q => { q with cur := none, running := false, picked := none, lutLoad := none }

/-- SOFT_RST returns every context to OFF and clears rings and sets in force (R178, R220); tables are discarded. -/
def State.pipeReset (s : State) (n : Nat) : State :=
  ((List.range 64).foldl (fun t c =>
    let k := ctxKey n c
    (t.bandsBack k).modPctx k fun x => { x with state := 0, stopping := false, frame := none, inq := [], ring := [], force := none, decided := none, eligible := none }) s).modPipe n
    fun _ => {}

/-! ## Parameter-set pushes -/

/-- Is a stream with SEQ_EN bound to context `k`, which takes inline input (R223)? -/
def State.seqBound (s : State) (k : Nat) : Bool :=
  cfgInput (s.pctx k).cfg != 1 &&
    s.streams.any fun c => capPctx (s.scx c) == some k && bitAt (capSeq (s.scx c)) 0

/-- PSET_PUSH (R219, R223). -/
def execPsetPush (m : Master) (n : Nat) (v : Word) (s : State) : Step :=
  .next (s.regWrite m (pPIPE n 0) Off.pipeCtl_PSET_PUSH fun t =>
    if !bitAt v 0 then t
    else
      let k := ctxKey n (t.ctxSel n)
      let c := t.pctx k
      let a := t.reg64 (pPIPE n 0) Off.pipeCtl_PSET_PTR_LO Off.pipeCtl_PSET_PTR_HI
      let r := (t.reg (pPIPE n 0) Off.pipeCtl_PSET_REQ_FRAME).toNat
      let newest := c.ring.getLast?.map fun (e : PsetEntry) => e.req
      let reason := if 4 ≤ c.ring.length then 1
        else if (match newest with | some q => !serialLt q r | none => false) then 2
        else if cfgStripe c.cfg = 2 then 3
        else if a % 4096 ≠ 0 then 4
        else 0
      if reason ≠ 0 then (t.modPctx k fun x => { x with reject := reason }).raise (pPIPE n 0) 17
      else
        let e : PsetEntry := if t.seqBound k then { ptr := a, req := r, pushed := t.now }
          else { ptr := a, req := r, state := 3, applied := r, pushed := t.now }
        t.modRing k (· ++ [e]))

/-! ## Branch descriptors -/

/-- BR_CMD_STAT after a command: BUSY for 32 ns (R205). -/
def State.brStat (s0 : State) (n b reason : Nat) : State :=
  let s := s0.cmdStart (pPIPE n (9 + b)) Off.pipeBranch_BR_CMD_STAT 8
  if reason = 0 then s.setReg (pPIPE n (9 + b)) Off.pipeBranch_BR_CMD_STAT 0
  else (s.setReg (pPIPE n (9 + b)) Off.pipeBranch_BR_CMD_STAT (wd (2 + reason * 16))).raise (pPIPE n (9 + b)) 10

/-- The context BR_SEL names. -/
def State.brSel (s : State) (n b : Nat) : Nat := ctxKey n (s.fld (pPIPE n (9 + b)) Off.pipeBranch_BR_SEL 0 6)

/-- BR_LOAD (R204). -/
def execBrLoad (m : Master) (n b : Nat) (s : State) : Step :=
  .next (s.regWrite m (pPIPE n (9 + b)) Off.pipeBranch_BR_CMD fun t =>
    (t.setRegs32 (pPIPE n (9 + b)) Off.pipeBranch_BR_D0 (fit 8 0 ((t.pctx (t.brSel n b)).brDesc b))).brStat n b 0)

/-- Why a branch STORE is rejected (R205), 0 when it is not. -/
def State.brReason (s : State) (cfg d : Words) : Nat :=
  let w := brOutW d
  let h := brOutH d
  let fm := brFormat d
  let bandOk := fm ≤ 2 ∨ fm = 7
  let even := (¬(fm = 3 ∨ fm = 4) ∨ (w % 2 = 0 ∧ h % 2 = 0)) ∧ (fm ≠ 5 ∨ w % 2 = 0)
  if brBand d = true ∧ (¬bandOk ∨ bitAt (wordAt d 0) 6 = true) then 1
  else if h = 0 ∨ 16384 < h ∨ w = 0 ∨ (if cfgStripe cfg = 0 then 16384 else 32768) < w ∨ ¬even then 2
  else if cropOk cfg d 0 0 (cfgWidth cfg) (cfgHeight cfg) = false then 3
  else if ((brPlanes d).any fun p => decide (brStride d < p.1)) = true then 4
  else if s.qValid (wfld (wordAt d 3) 0 20) = false ∨ s.qValid (wfld (wordAt d 4) 0 20) = false then 5
  else 0

/-- BR_STORE (R205). -/
def execBrStore (m : Master) (n b : Nat) (s : State) : Step :=
  .next (s.regWrite m (pPIPE n (9 + b)) Off.pipeBranch_BR_CMD fun t =>
    let k := t.brSel n b
    let d := t.regs32 (pPIPE n (9 + b)) Off.pipeBranch_BR_D0 8
    if (t.pctx k).state ≠ 0 then t.stateWrite (pPIPE n (9 + b))
    else
      let r := t.brReason (t.pctx k).cfg d
      if r ≠ 0 then t.brStat n b r
      else (t.modPctx k fun c => { c with br := Map.put (fun _ => []) c.br b d }).brStat n b 0)

/-! ## Registers -/

/-- The words that TBL_DATA of page +`o` addresses (R155, *Colour stage counters*). -/
def Pipe.tblWords (p : Pipe) (o : Nat) : Words :=
  if o = 8 then p.lutOf.words else if o = 5 ∨ o = 6 then [] else (p.tableOf o).words

/-- TBL_DATA_READ (R155): the word at TBL_ADDR, and TBL_ADDR + 1. -/
def execTblDataRead (m : Master) (n o : Nat) (s : State) : Step :=
  .next (s.regRead m (pPIPE n o) Off.pipeStage_TBL_DATA fun t =>
    let i := t.fld (pPIPE n o) Off.pipeStage_TBL_ADDR 0 16
    (wordAt ((t.pipe n).tblWords o) i, t.setFld (pPIPE n o) Off.pipeStage_TBL_ADDR 0 16 (i + 1)))

/-- Two bits per context, sixteen contexts a word. -/
def State.ctxStates (s : State) (n i : Nat) : Word :=
  wd ((List.range 16).foldl (fun a j => a + (s.pctx (ctxKey n (16 * i + j))).state % 4 * 4 ^ j) 0)

/-- Tenths of a percent of the last millisecond in which runs were in progress (UTIL). -/
def State.pipeUtil (s : State) (n : Nat) : Nat :=
  let p := s.pipe n
  let lo := s.now - 250000
  let span := fun (r : Nat × Nat) => r.2 - max lo r.1
  let busy := (p.runs.map span).foldl (· + ·) (if p.running then span (p.runStart, s.now) else 0)
  min 1000 (busy / 250)

/-- Registers of a pipe's pages that are views of its state. -/
def State.viewPipes (s : State) (pg o : Nat) : Option Word :=
  if pg < 0x180 ∨ 0x200 ≤ pg then none
  else
    let n := (pg - 0x180) / 16
    let off := (pg - 0x180) % 16
    let p := s.pipe n
    let line := match p.cur with
      | some c => ((s.pctx (ctxKey n c)).frame.map fun f => f.y).getD 0
      | none => 0
    let valid := p.cur.isSome.toNat
    match off with
    | 0 =>
      let k := ctxKey n (s.ctxSel n)
      let c := s.pctx k
      if o = Off.pipeCtl_CUR then
        some (wd (p.cur.getD 0 + valid * 64 + (decide (p.picked.isSome ∧ p.cur = none)).toNat * 128 + line * 65536))
      else if o = Off.pipeCtl_UTIL then some (wd (s.pipeUtil n))
      else if o = Off.pipeCtl_LAT then
        let e := s.pipeEnv k
        some (wd (e.vsup + e.held * 256 + switchCycles 0 0 e.held (cfgPw c.cfg) % 65536 * 65536))
      else if Off.pipeCtl_CTX_STATE0 ≤ o ∧ o < Off.pipeCtl_CTX_STATE0 + 16 then some (s.ctxStates n ((o - Off.pipeCtl_CTX_STATE0) / 4))
      else none
    | 13 =>
      let c := s.pctx (ctxKey n (s.fld pg Off.pipeStats_SEL 0 6))
      if o = Off.pipeStats_STAT_BASE_LO then some (wd c.statBase)
      else if o = Off.pipeStats_STAT_BASE_HI then some (wd (c.statBase / 2 ^ 32))
      else if o = Off.pipeStats_STAT_EVT then some (wd c.statEvt)
      else if o = Off.pipeStats_RING_STAT then some (wd (c.ring.length + c.reject * 16))
      else if o = Off.pipeStats_CUR_PSET then some (psw ((c.force.map (·.words)).getD []) 0)
      else if o = Off.pipeStats_CUR_APPLIED then some (wd ((c.force.map (·.applied)).getD 0))
      else if o = Off.pipeStats_LAST_FRAME then some (wd c.lastFrame)
      else if 0x140 ≤ o ∧ o < 0x1C0 then
        let e := c.ring.getD ((o - 0x140) / 0x20) { ptr := 0, req := 0, state := 0 }
        match (o - 0x140) % 0x20 with
        | 0x00 => some (wd e.ptr)
        | 0x04 => some (wd (e.ptr / 2 ^ 32))
        | 0x08 => some (wd e.req)
        | 0x0C => some (wd e.applied)
        | 0x10 => some (wd (e.state + (decide (e.state = 3 ∧ e.applied ≠ e.req)).toNat * 4))
        | _ => some 0
      else none
    | 14 =>
      let c := s.pctx (ctxKey n (s.fld pg Off.pipeFocus_FOC_SEL 0 6))
      if o = Off.pipeFocus_FOC_FRAME then some (wordAt c.foc 0)
      else if o = Off.pipeFocus_FOC_PSET then some (wordAt c.foc 1)
      else if o = Off.pipeFocus_FOC_FLAGS then some (wordAt c.foc 2)
      else if 0x140 ≤ o ∧ o < 0x1C0 then some (wordAt c.foc (3 + (o - 0x140) / 4))
      else if o = Off.pipeFocus_FOC_CNT then some (wd c.focCnt)
      else none
    | _ =>
      if 9 ≤ off ∧ off ≤ 12 then
        let b := off - 9
        if o = Off.pipeBranch_BR_STAT then
          let j := match p.cur with
            | some c => (s.brFrame (ctxKey n c) b).lines
            | none => 0
          some (wd (p.cur.getD 0 + valid * 64 + j * 65536))
        else if o = Off.pipeBranch_TONE_TAG then some (wd (((p.bankOf off).map (·.1)).getD 0))
        else if o = Off.pipeBranch_HIST_CYCLES then
          let c := s.pctx (s.brSel n b)
          some (wd (histCycles c.cfg (c.brDesc b) ((c.force.map (·.words)).getD []) b))
        else none
      else if off = 15 then none
      else if o = Off.pipeStage_STAGE_STAT then
        some (wd (p.cur.getD 0 + valid * 64 + Map.get (fun _ => 0) p.active off * 256 + line * 65536))
      else if o = Off.pipeStage_TBL_PSET then
        some (wd (if off = 8 then ((Map.get (fun _ => none) p.lut p.lutUse).map fun (x : Nat × Nat × TableBank) => x.2.1).getD 0
          else if off = 5 ∨ off = 6 then 0 else ((p.bankOf off).map (·.1)).getD 0))
      else if off = 8 then
        let slot := fun (i : Nat) => Map.get (fun _ => none) p.lut i
        if o = Off.pipeLut_SLOT0_TAG then some (wd (((slot 0).map fun (x : Nat × Nat × TableBank) => x.2.1).getD 0))
        else if o = Off.pipeLut_SLOT1_TAG then some (wd (((slot 1).map fun (x : Nat × Nat × TableBank) => x.2.1).getD 0))
        else if o = Off.pipeLut_LUT_STAT then
          let pin := s.lutPinned n
          let job := s.lutJob n
          some (wd ((slot 0).isSome.toNat + (slot 1).isSome.toNat * 2 + pin.getD 0 * 4 + pin.isSome.toNat * 8 +
            job.isSome.toNat * 16 + (job.getD (0, 0)).1 * 32 + (job.getD (0, 0)).2 * 256))
        else none
      else none

end Sys2Proof.Machine
end

