-- ==== Sys2Proof/Machine/Ptp.lean ====
section
/-!
DEFINITION. The PTP engine: ports, selection of a grandmaster and the servo of TIME (R404 to R410).
-/

namespace Sys2Proof.Machine

open Sys2Proof

/-- A PTP port. -/
def State.pport (s : State) (i : Nat) : PtpPort := Map.get (fun _ => {}) s.net.ptp.port i
/-- Update a PTP port. -/
def State.modPport (s : State) (i : Nat) (f : PtpPort → PtpPort) : State :=
  s.onNet fun t => { t with ptp := { t.ptp with port := Map.put (fun _ => {}) t.ptp.port i (f (Map.get (fun _ => {}) t.ptp.port i)) } }
/-- Update the engine. -/
def State.modPtp (s : State) (f : Ptp → Ptp) : State := s.onNet fun t => { t with ptp := f t.ptp }

/-- The engine runs and port `i` is enabled. -/
def State.ptpOn (s : State) (i : Nat) : Bool :=
  s.alive pPTP && s.bit pPTP Off.ptp_CFG 0 && decide (i < 4) && s.bit pPTP Off.ptp_CFG (4 + i)
/-- MAC of port `i`, PROFILE. -/
def State.ptpMac (s : State) (i : Nat) : Nat := s.fld pPTP Off.ptp_CFG (16 + 4 * i) 4
def State.ptpProfile (s : State) : Nat := s.fld pPTP Off.ptp_CFG 1 2

/-- Ticks of an interval whose base-2 logarithm in seconds is the signed field at `lo` of INTERVALS. -/
def State.ptpInterval (s : State) (lo : Nat) : Nat :=
  let l := signed 8 (s.fld pPTP Off.ptp_INTERVALS lo 8)
  if l < 0 then 250000000 / 2 ^ (-l).toNat else 250000000 * 2 ^ l.toNat

/-- A received time in 2^-16 ns: 48-bit seconds extended to the value nearest to TIME (R407). -/
def State.ptpTime (s : State) (sec ns : Nat) : Int :=
  let now : Int := ((s.timeNs / 1000000000 : Nat) : Int)
  let m : Int := 2 ^ 48
  let d := ((sec : Int) - now) % m
  let e := if d < 2 ^ 47 then now + d else now + d - m
  (e * 1000000000 + (ns : Int)) * 65536

/-- Which of two Announce datasets is better (R405): smaller at the first difference. -/
def annBetter (a b : PtpAnnounce) : Bool :=
  let key := fun (x : PtpAnnounce) =>
    [x.priority1, x.clockClass, x.accuracy, x.variance, x.priority2, x.identity, x.steps, x.source]
  match ((key a).zip (key b)).find? fun e => e.1 != e.2 with
  | some e => decide (e.1 < e.2)
  | none => false

/-- A port qualifies (R405). -/
def State.ptpQualified (s : State) (i : Nat) : Bool :=
  s.ptpOn i && (s.pport i).ann.isSome &&
    (s.ptpProfile == 2 || (match (s.pport i).delay with
      | some d => decide (d < (((s.reg pPTP Off.ptp_NEIGHBOR_THR).toNat * 65536 : Nat) : Int))
      | none => false))

/-- The best qualified port. -/
def State.ptpBest (s : State) : Option Nat :=
  [0, 1, 2, 3].foldl (fun b i =>
    if !s.ptpQualified i then b
    else match b, (s.pport i).ann with
      | none, _ => some i
      | some j, some a => (match (s.pport j).ann with
        | some c => if annBetter a c then some i else some j
        | none => some i)
      | some j, none => some j) none

/-- STAT's count. -/
def State.ptpCount (s : State) (n : Nat) : State := s.setFld pPTP Off.ptp_STAT 8 8 (min 255 n)

/-- No grandmaster is selected (R408). -/
def State.ptpNone (s : State) : State :=
  let s1 := (s.modPtp fun p => { p with sel := none, first := none, range := none, accept := false, began := false }).ptpCount 0
  if s1.servo = 0 then s1 else s1.setServo 1

/-- Selection (R405, R408): the best qualified port's grandmaster; GM_CHANGE when the identity changes. -/
def State.ptpSelect (s : State) : State :=
  match s.ptpBest with
  | none => s.ptpNone
  | some i =>
    match (s.pport i).ann with
    | none => s.ptpNone
    | some a =>
      let old := s.reg64 pPTP Off.ptp_GM_ID_LO (Off.ptp_GM_ID_LO + 4)
      let was := s.net.ptp.sel
      let s1 := ((s.setReg64 pPTP Off.ptp_GM_ID_LO (Off.ptp_GM_ID_LO + 4) a.identity).setReg pPTP Off.ptp_UTC_OFFSET
        (wd (a.utc % 65536 + a.utcValid.toNat * 65536))).setFld pPTP Off.ptp_STAT 4 2 i
      let change := decide (old ≠ a.identity)
      if was = some i && !change then s1
      else
        let s2 := (s1.modPtp fun p => { p with sel := some i, first := none, range := none, accept := false, began := false }).ptpCount 0
        let s3 := if change then ((s2.raise pPTP 9).produce pPTP 1).count pPTP Off.ptp_CNT_REFUSED 16 16 1 else s2
        if s3.servo = 0 then s3
        else if change ∨ s3.servo = 1 then s3.setServo 2 else s3

/-! ## Servo -/

/-- TIME steps by −o (R409, R410). -/
def State.ptpStep (s : State) (o : Int) : State :=
  let s1 := (s.modPtp fun p => { p with first := none, range := none, accept := false }).ptpCount 0
  ((s1.timeStep ((s1.tb.time : Int) - o * 65536).toNat).raise pPTP 11).setServo 2

/-- An offset within SLEW_LIMIT (R408, R409). -/
def State.ptpSlew (s : State) (o : Int) : State :=
  let ppm := s.fld pPTP Off.ptp_SERVO_CFG 16 10
  let old := signed 32 (s.reg pTIMEBASE Off.timebase_RATE_ADJ).toNat
  let lim : Int := ((ppm * 65536 : Nat) : Int)
  let new := max (-lim) (min lim (Config.servoLoop o old (s.fld pPTP Off.ptp_SERVO_CFG 0 5) (s.fld pPTP Off.ptp_SERVO_CFG 8 5)))
  let s1 := (s.setReg pTIMEBASE Off.timebase_RATE_ADJ (wd (unsigned 32 new))).modPtp fun p => { p with first := none, range := none }
  if s1.servo = 2 then
    let n := if o.natAbs < s.fld pPTP Off.ptp_LOCK 0 16 then
        (if s.net.ptp.first.isSome ∨ s.net.ptp.range.isSome then 1 else s.fld pPTP Off.ptp_STAT 8 8 + 1) else 0
    if 0 < n ∧ s.fld pPTP Off.ptp_LOCK 16 8 ≤ n then (s1.ptpCount n).setServo 3 else s1.ptpCount n
  else if s1.servo = 4 then (s1.ptpCount 0).setServo 2
  else s1.ptpCount 0

/-- An offset between SLEW_LIMIT and STEP_LIMIT (R409). -/
def State.ptpConfirm (s : State) (o : Int) : State :=
  let tol := s.fld pPTP Off.ptp_CONFIRM 16 16
  let n := match s.net.ptp.first with
    | some f => if (o - f).natAbs ≤ tol then s.fld pPTP Off.ptp_STAT 8 8 + 1 else 1
    | none => 1
  let s1 := if s.servo = 3 ∨ s.servo = 4 then s.setServo 2 else s
  let s2 := (s1.modPtp fun p => { p with first := if n = 1 then some o else p.first, range := none }).ptpCount n
  if s.fld pPTP Off.ptp_CONFIRM 0 8 ≤ n then s2.ptpStep o else s2

/-- An offset above STEP_LIMIT is refused (R410). -/
def State.ptpRefuse (s : State) (o : Int) : State :=
  let tol : Int := ((s.fld pPTP Off.ptp_CONFIRM 16 16 : Nat) : Int)
  let r := match s.net.ptp.range with
    | some (a, b) => if max b o - min a o ≤ tol then some (min a o, max b o) else none
    | none => none
  let n := match r with
    | some _ => s.fld pPTP Off.ptp_STAT 8 8 + 1
    | none => 1
  let s1 := (s.count pPTP Off.ptp_CNT_REFUSED 0 16 1).raise pPTP 10
  let s2 := if s1.servo = 3 then s1.setServo 2 else s1
  let s3 := (s2.modPtp fun p => { p with first := none, range := some (r.getD (o, o)) }).ptpCount n
  let show_ := fun (t : State) => t.setReg64 pPTP Off.ptp_PENDING_JUMP_LO Off.ptp_PENDING_JUMP_HI (unsigned 64 o)
  if s3.servo = 4 then show_ s3
  else if s.fld pPTP Off.ptp_CONFIRM 0 8 ≤ n then ((show_ s3).setServo 4).produce pPTP 2
  else s3

/-- An offset of TIME against the grandmaster, in ns (R408 to R410). While TIME is not valid, the first offset after a grandmaster is
selected is a step, and a later one above STEP_LIMIT changes nothing else (notes/assumptions/163.md). -/
def State.ptpOffset (s : State) (o : Int) : State :=
  let s1 := (s.setReg pPTP Off.ptp_OFFSET (wd (unsigned 32 (satS 32 o)))).count pPTP Off.ptp_CNT_SYNC 0 32 1
  if s1.servo = 0 then s1
  else if !s1.bit pTIMEBASE Off.timebase_TIME_STAT 0 && !s1.net.ptp.began then (s1.modPtp fun p => { p with began := true }).ptpStep o
  else if s1.net.ptp.accept then s1.ptpStep o
  else if o.natAbs ≤ (s.reg pPTP Off.ptp_SLEW_LIMIT).toNat then s1.ptpSlew o
  else if o.natAbs ≤ (s.reg pPTP Off.ptp_STEP_LIMIT).toNat then s1.ptpConfirm o
  else if s1.bit pTIMEBASE Off.timebase_TIME_STAT 0 then s1.ptpRefuse o
  else (s1.modPtp fun p => { p with first := none, range := none }).ptpCount 0

/-- A Sync's times are known: origin with its correction, and receive time, in 2^-16 ns. -/
def State.ptpSynced (s : State) (i : Nat) (origin rx : Int) : State :=
  let s1 := s.modPport i fun p => { p with origin := some (origin, rx) }
  if s1.net.ptp.sel = some i then s1.ptpOffset ((rx - origin - ((s1.pport i).delay).getD 0) / 65536) else s1

/-- Receive timestamp of a message on port `i` (R406). -/
def State.ptpStamp (s : State) (i : Nat) : Nat × State :=
  s.stamp (s.ptpMac i) 0 (signed 16 (s.fld (pMAC (s.ptpMac i)) Off.mac_TS_ADJ 16 16))

/-! ## Messages -/

/-- PTP_SYNC (R404, R409): a Sync on port `i` with its origin and its correction in 2^-16 ns; a two-step one waits. -/
def execPtpSync (i seq : Nat) (twoStep : Bool) (sec ns : Nat) (corr : Int) (s : State) : Step :=
  if !s.ptpOn i then .next s
  else
    let t := s.ptpStamp i
    let s1 := t.2.modPport i fun p => { p with syncAt := some s.now }
    .next (if twoStep then s1.modPport i fun p => { p with two := some (seq, (t.1 : Int), corr) }
      else s1.ptpSynced i (s.ptpTime sec ns + corr) t.1)

/-- PTP_FOLLOW_UP (R404). -/
def execPtpFollowUp (i seq sec ns : Nat) (corr : Int) (s : State) : Step :=
  match (s.pport i).two with
  | some (q, rx, c) =>
    if !s.ptpOn i || q != seq then .next s
    else .next ((s.modPport i fun p => { p with two := none }).ptpSynced i (s.ptpTime sec ns + c + corr) rx)
  | none => .next s

/-- PTP_ANNOUNCE (R405). -/
def execPtpAnnounce (i : Nat) (a : PtpAnnounce) (s : State) : Step :=
  if !s.ptpOn i then .next s
  else .next ((s.modPport i fun p => { p with ann := some a, annAt := s.now, syncAt := if p.ann.isSome then p.syncAt else some s.now }).ptpSelect)

/-- PTP_RECEIPT_TIMEOUT (R405): of the Announce or the Sync receipt of port `i`. -/
def execPtpReceiptTimeout (i : Nat) (sync : Bool) (s : State) : Step :=
  let p := s.pport i
  let last := if sync then p.syncAt.getD p.annAt else p.annAt
  let wait := if sync then s.fld pPTP Off.ptp_TIMEOUTS 0 4 * s.ptpInterval 0 else s.fld pPTP Off.ptp_TIMEOUTS 4 4 * s.ptpInterval 8
  if !s.ptpOn i || p.ann.isNone || decide (s.now < last + wait) then .next s
  else
    let s1 := s.modPport i fun x => { x with ann := none, syncAt := none, two := none }
    .next (if s.net.ptp.sel = some i then s1.ptpNone.ptpSelect else s1.ptpSelect)

/-- Messages of the engine leave by the port's MAC. -/
def State.ptpSend (s : State) (i : Nat) (msgs : List (Nat × Nat)) : State :=
  (s.modPport i fun p => { p with sent := msgs }).count (pMAC (s.ptpMac i)) Off.mac_CNT_TX 0 32 msgs.length

/-- PTP_PDELAY_TIMER (R404): Pdelay_Req (type 2), or Delay_Req (type 1) in profile 2. -/
def execPtpPdelayTimer (i : Nat) (s : State) : Step :=
  if !s.ptpOn i || !s.linkUp (s.ptpMac i) then .next s
  else
    let n := s.ptpMac i
    let t := s.stamp n (Config.macLatency n) (signed 16 (s.fld (pMAC n) Off.mac_TS_ADJ 0 16))
    let q := ((s.pport i).seq + 1) % 65536
    .next ((t.2.modPport i fun p => { p with seq := q, req := some (q, (t.1 : Int)) }).ptpSend i [(if s.ptpProfile = 2 then 1 else 2, q)])

/-- PTP_PDELAY_RESP (R404, R405): the response to the request in flight. `turn` is the responder's turnaround with every
correction in 2^-16 ns; profile 2 takes the time at which the grandmaster received Delay_Req. -/
def execPtpPdelayResp (i seq : Nat) (turn : Int) (sec ns : Nat) (s : State) : Step :=
  match (s.pport i).req with
  | none => .next s
  | some (q, t1) =>
    if !s.ptpOn i || q != seq then .next s
    else
      let t := s.ptpStamp i
      let d : Option Int :=
        if s.ptpProfile = 2 then
          (s.pport i).origin.map fun o => ((o.2 - o.1) + (s.ptpTime sec ns - turn - t1)) / 2
        else some ((((t.1 : Int) - t1) - turn) / 2)
      match d with
      | none => .next (t.2.modPport i fun p => { p with req := none })
      | some d =>
        let s1 := (t.2.modPport i fun p => { p with req := none, delay := some d }).setReg pPTP (Off.ptp_MEAN_DELAY0 + 4 * i)
          (wd (max 0 (d / 65536)).toNat)
        let s2 := if s.ptpProfile ≠ 2 ∧ (((s.reg pPTP Off.ptp_NEIGHBOR_THR).toNat * 65536 : Nat) : Int) < d then s1.raise pPTP 12 else s1
        .next s2.ptpSelect

/-- PTP_PDELAY_REQ_RECEIVED (R404): Pdelay_Resp (type 3), followed by Pdelay_Resp_Follow_Up (type 10) unless ONE_STEP. -/
def execPtpPdelayReqReceived (i seq : Nat) (s : State) : Step :=
  if !s.ptpOn i || s.ptpProfile == 2 || !s.linkUp (s.ptpMac i) then .next s
  else .next (s.ptpSend i (if s.bit pPTP Off.ptp_CFG 3 then [(3, seq)] else [(3, seq), (10, seq)]))

/-- ACCEPT (R408, R410): the offset is applied at the next Sync. -/
def execAccept (m : Master) (s : State) : Step :=
  .next (s.regWrite m pPTP Off.ptp_JUMP_CMD fun t =>
    if t.servo ≠ 4 then t.stateWrite pPTP else (t.modPtp fun p => { p with accept := true }).setServo 2)

/-- DISCARD (R410). -/
def execDiscard (m : Master) (s : State) : Step :=
  .next (s.regWrite m pPTP Off.ptp_JUMP_CMD fun t =>
    if t.servo ≠ 4 then t.stateWrite pPTP else (t.modPtp fun p => { p with range := none }).ptpCount 0)

end Sys2Proof.Machine
end

