-- ==== Sys2Proof/Machine/Queues.lean ====
section
/-!
DEFINITION. Queue manager commands (chapter 13): Q_CMD, pushes, takes by software, the push buffer and QSTATE_BASE.
-/

namespace Sys2Proof.Machine

open Sys2Proof

/-- The queue that Q_SEL selects. -/
def State.qSel (s : State) : Nat := s.fld (pQM 0) Off.qm0_Q_SEL 0 20

/-- Q_CMD_STAT after a command, without BUSY: REJECTED with a reason, or neither. -/
def State.qStat (s : State) (reason : Nat) : State :=
  s.setReg (pQM 0) Off.qm0_Q_CMD_STAT (if reason = 0 then 0 else wd (2 + reason * 16))

/-- A Q_CMD behind the gate (R444, R446): BUSY for 64 ns; while QSTATE_BASE is 0 every command but LOAD is discarded. -/
def State.qCmd (s : State) (m : Master) (eff : Nat → State → Option State) : State :=
  s.cmdWrite m (pQM 0) Off.qm0_Q_CMD_STAT 16 fun t => if t.qsBase = 0 then none else eff t.qSel t

/-- Q_LOAD (R444, R446): copies the state into Q_D0 to Q_D7; zeros while QSTATE_BASE is 0. -/
def execQLoad (m : Master) (s : State) : Step :=
  .next (s.cmdWrite m (pQM 0) Off.qm0_Q_CMD_STAT 16 fun t =>
    if t.qsBase = 0 then some ((t.setRegs32 (pQM 0) Off.qm0_Q_D0 (List.replicate 8 0)).qStat 0)
    else
      let u := t.qTouch t.qSel
      some ((u.setRegs32 (pQM 0) Off.qm0_Q_D0 (qEncode (u.qView t.qSel) (u.qm.pins.contains t.qSel))).qStat 0))

/-- Why a STORE is rejected (R446): 1 LOG2_SIZE or alignment, 2 queue 0, 3 a ring beyond the DRAM window; 0 not. -/
def State.qStoreReason (s : State) (q : Nat) (st : QState) : Nat :=
  if st.log2 < 2 ∨ 20 < st.log2 ∨ st.ring % (32 * st.size) ≠ 0 then 1
  else if q = 0 then 2
  else if !s.inDram st.ring (32 * st.size) then 3
  else 0

/-- Q_STORE (R446): accepted while EN is 0; writes the staging copy with HEAD, TAIL, COUNTS, PEAK and FAILED cleared,
ignoring its EN and PIN. -/
def execQStore (m : Master) (s : State) : Step :=
  .next (s.qCmd m fun q t =>
    if (t.qView q).en then none
    else
      let d := qDecode (t.regs32 (pQM 0) Off.qm0_Q_D0 8)
      let st := { d with en := false, head := 0, tail := 0, drops := 0, reissues := 0, peak := 0, failed := false }
      let r := t.qStoreReason q st
      some (if r = 0 then (t.qSet q st).qStat 0 else (t.qStat r).raise (pQM 0) 8))

/-- ENABLE (R446): accepted while EN is 0. -/
def execEnable (m : Master) (s : State) : Step :=
  .next (s.qCmd m fun q t =>
    if (t.qView q).en then none
    else some (((t.qTouch q).qSet q { t.qView q with en := true }).qStat 0))

/-- DISABLE (R446): clears EN; the ring keeps its descriptors. -/
def execDisable (m : Master) (s : State) : Step :=
  .next (s.qCmd m fun q t => some (((t.qTouch q).qSet q { t.qView q with en := false }).qStat 0))

/-- PIN (R446, R457): accepted while EN is 1; at 4,096 pinned states it is rejected with reason 4. -/
def execPin (m : Master) (s : State) : Step :=
  .next (s.qCmd m fun q t =>
    if !(t.qView q).en then none
    else if t.qm.pins.contains q then some (t.qStat 0)
    else if 4096 ≤ t.qm.pins.length then some ((t.qStat 4).raise (pQM 0) 8)
    else some (((t.qTouch q).onQm fun x => { x with pins := q :: x.pins }).qStat 0))

/-- UNPIN (R446). -/
def execUnpin (m : Master) (s : State) : Step :=
  .next (s.qCmd m fun q t => some ((t.onQm fun x => { x with pins := x.pins.filter (· != q) }).qStat 0))

/-- SET_CLASS (R446): CLASS from Q_D4 [2:1]. -/
def execSetClass (m : Master) (s : State) : Step :=
  .next (s.qCmd m fun q t =>
    some (((t.qTouch q).qSet q { t.qView q with cls := t.fld (pQM 0) (Off.qm0_Q_D0 + 16) 1 2 }).qStat 0))

/-- QUEUE_PUSH (R447 to R449, R451, R452): the block of page `p` pushes a descriptor; `e` is what ECC finds in the queue's cached state. -/
def execQueuePush (p q : Nat) (d : Words) (e : ReadErr) (s : State) : Step := .next ((s.qEcc q e).push p q d)

/-- The first waiting push to queue `q`. -/
def State.waitingPush (s : State) (q : Nat) : Option WaitPush := s.qm.pushBuf.find? fun w => w.queue == q

/-- Remove the first waiting push to a queue. -/
def dropFirst (q : Nat) : List WaitPush → List WaitPush
  | [] => []
  | w :: ws => if w.queue = q then ws else w :: dropFirst q ws

/-- PUSH_BUFFER_DRAIN (R449): the oldest waiting push to `q` lands when the queue has gained space; one whose queue is
no longer valid is dropped as a push to an invalid queue. -/
def execPushBufferDrain (q : Nat) (s : State) : Step :=
  match s.waitingPush q with
  | none => .next s
  | some w =>
    let s1 := s.onQm fun m => { m with pushBuf := dropFirst q m.pushBuf }
    if !s.alive (pQM 0) then .next s
    else if !s.qValid q then .next (s1.pushDropped q true)
    else if (s.qView q).full then .next s
    else .next (s1.qLand q w.desc)

/-- PUSH_TIMEOUT (R449): a push that has waited PUSH_TO µs (0: without limit) is dropped; DROPS counts it. -/
def execPushTimeout (q : Nat) (s : State) : Step :=
  match s.waitingPush q with
  | none => .next s
  | some w =>
    let lim := (s.qView q).pushTo
    if lim = 0 ∨ s.now < w.at_ + lim * 250 then .next s
    else .next ((s.onQm fun m => { m with pushBuf := dropFirst q m.pushBuf }).pushDropped q false)

/-- Offset of software port `i`'s registers on QM1. -/
def portOff (i o : Nat) : Nat := o + 0x80 * i

/-- PORT_STAT of port `i`: status in [3:1], TAKE_VALID in bit 4. -/
def State.portStat (s : State) (i status : Nat) (valid : Bool) : State :=
  s.setReg (pQM 1) (portOff i Off.qm1_PORT_STAT) (wd (status * 2 + valid.toNat * 16))

/-- PUSH_GO (R450): a software push does not wait: status 1 on a full queue, status 2 on an invalid one, which counts
in CNT_DROP [31:16] and sets neither PUSH_DROP nor an event. The port is BUSY for 64 ns. -/
def execPushGo (m : Master) (i : Nat) (v : Word) (s : State) : Step :=
  .next (s.cmdWrite m (pQM 1) (portOff i Off.qm1_PORT_STAT) 16 fun t =>
    let q := wfld v 0 20
    some (if !t.qValid q then (t.count (pQM 0) Off.qm0_CNT_DROP 16 16 1).portStat i 2 false
      else if (t.qView q).full then t.portStat i 1 false
      else (t.qLand q (t.regs32 (pQM 1) (portOff i Off.qm1_PUSH_D0) 8)).portStat i 0 false))

/-- TAKE_GO (R450): a software take removes the descriptor and does not wait: status 1 on an empty queue, 2 on an
invalid one. -/
def execTakeGo (m : Master) (i : Nat) (v : Word) (s : State) : Step :=
  .next (s.cmdWrite m (pQM 1) (portOff i Off.qm1_PORT_STAT) 16 fun t =>
    let q := wfld v 0 20
    some (if !t.qValid q then t.portStat i 2 false
      else match t.take q with
        | (some d, u) => (u.setRegs32 (pQM 1) (portOff i Off.qm1_TAKE_D0) d).portStat i 0 true
        | (none, u) => u.portStat i 1 false))

/-- Is any queue enabled: in the cache, or in the region's bytes of states that are not cached (R473)? -/
def State.anyQueueEnabled (s : State) : Bool :=
  decide (s.qsBase ≠ 0) &&
    (s.qm.cache.any (fun e => e.2.en) ||
     s.mem.any fun e => s.inQState e.1 1 && decide ((e.1 - s.qsBase) % 32 = 16) && e.2.toNat.testBit 0 &&
       decide (s.qCached ((e.1 - s.qsBase) / 32) = none) && decide (32 ≤ e.1 - s.qsBase))

/-- Write every cached state back to the region, drop them all and release every pin (R473). -/
def State.qFlush (s : State) : State :=
  (s.qm.cache.foldl (fun t e => t.qWriteBack e.1 e.2) s).onQm fun m => { m with cache := [], pins := [] }

/-- QSTATE_BASE_WRITE (R473): QSTATE_LO with any of bits [24:0] set is discarded with CFG_INVALID; a change while a
queue is enabled is discarded with STATE_WRITE; otherwise every cached state goes back to the old region first. -/
def execQstateBaseWrite (m : Master) (hi : Bool) (v : Word) (s : State) : Step :=
  let o := if hi then Off.qm0_QSTATE_HI else Off.qm0_QSTATE_LO
  .next (s.regWrite m (pQM 0) o fun t =>
    if !hi && decide (wfld v 0 25 ≠ 0) then t.raise (pQM 0) 17
    else if v = t.reg (pQM 0) o then t
    else if t.anyQueueEnabled then t.stateWrite (pQM 0)
    else (if t.qsBase = 0 then t else t.qFlush).setReg (pQM 0) o v)

/-- Computed registers of the QM pages. -/
def State.viewQueues (s : State) (p o : Nat) : Option Word :=
  if p = pQM 0 then
    if o = Off.qm0_PUSH_BUF then some (wd s.qm.pushBuf.length)
    else none
  else if p = pQM 1 then
    if Off.qm1_LEVEL ≤ o ∧ (o - Off.qm1_LEVEL) % 0x80 = 0 ∧ (o - Off.qm1_LEVEL) / 0x80 < 8 then
      some (wd (s.qView (s.fld (pQM 1) (Off.qm1_LEVEL_SEL + (o - Off.qm1_LEVEL)) 0 20)).level)
    else none
  else if p = pQM 2 then
    let h := s.hold (s.fld (pQM 2) Off.qm2_HOLD_SEL 0 10)
    if o = Off.qm2_CACHE_STAT then some (wd (s.qm.cache.length + s.qm.pins.length * 65536))
    else if o = Off.qm2_HOLD_HANDLE then some (wd h.handle)
    else if o = Off.qm2_HOLD_Q then some (wd (h.queue + h.cls * 2 ^ 20))
    else if o = Off.qm2_HOLD_EPOCH then
      some (wd (h.epoch + h.held.toNat * 2 ^ 16 + h.pending.toNat * 2 ^ 17 + min h.reissues 15 * 2 ^ 18))
    else none
  else if p = pQM 3 then
    let c := s.fld (pQM 3) Off.qm3_SCX_SEL 0 14
    if o = Off.qm3_SCX_OWN then some (wd (s.scxKind c + Map.get (fun _ => 0) s.qm.scxPage c * 65536))
    else if o = Off.qm3_SCX_FREE then some (wd (16384 - s.qm.scxKind.length))
    else if Off.qm3_SCX_D0 ≤ o ∧ o < Off.qm3_SCX_D0 + 128 ∧ o % 4 = 0 then
      some (wordAt (s.scx c) ((o - Off.qm3_SCX_D0) / 4))
    else none
  else none

end Sys2Proof.Machine
end

