-- ==== Sys2Proof/Machine/Fences.lean ====
section
/-!
DEFINITION. Idle pages (R612), what a fence does to each block (R46, R490, R495), and resets of a block (R602).
-/

namespace Sys2Proof.Machine

open Sys2Proof

/-! ## Idle pages -/

/-- Does an enabled capture stream take from source `i` of kind `k`? -/
def State.sourceUsed (s : State) (k i : Nat) : Bool := s.streams.any fun c => capKind (s.scx c) == k && capIndex (s.scx c) == i

/-- No context of pipe `n` is enabled. -/
def State.pipeIdle (s : State) (n : Nat) : Bool := (List.range 64).all fun c => (s.pctx (ctxKey n c)).state == 0

/-- A page is idle as its chapter defines, otherwise while RUNNING is 0 (R43, R136, R282, R324, R352, R377, R411, R443, R473, R534,
R563, R612). -/
def State.pageIdle (s : State) (p : Nat) : Bool :=
  match pageKind p with
  | .sens => !s.sourceUsed 0 (p - 0x60)
  | .swift => !s.laneRunning (p - 0xA0)
  | .dlk => s.dlkState (p - 0x160) == 0
  | .intake => s.streams.isEmpty
  | .pipeCtl | .pipeStage | .pipeMatrix | .pipeLut | .pipeBranch | .pipeStats | .pipeFocus | .pipeSpare => s.pipeIdle ((p - 0x180) / 16)
  | .clus => (List.range 8).all fun i => s.engIdle (8 * (p - 0x200) + i)
  | .eng => s.engIdle (p - 0x240)
  | .henc | .dec | .xs => s.codecPageIdle p
  | .disp => s.headIdle (p - 0x380)
  | .eye => !s.bit p Off.eye_E_CTRL 0
  | .tdm => s.tsetState (p - 0x390) == 0
  | .mac => s.fld p Off.mac_CFG 0 3 == 0
  | .ptp => !s.bit p Off.ptp_CFG 0
  | .nvmh => s.ssdState (p - 0x3D0) == 0
  | .cti | .ctiWin => s.stor.state == 0
  | .qm0 | .qm1 | .qm2 | .qm3 => !s.anyQueueEnabled
  | .dram => s.fld p Off.dram_STATE 0 3 == 0
  | .dramcom => s.dramIdle
  | .silk => !s.bit p Off.silk_MIRROR_CFG 8
  | .dist => (List.range 4).all fun d => !s.bit p (Off.dist_CFG + 0x40 * d) 0
  | .phase => (List.range 2).all fun d => !s.bit p (Off.phase_CFG + 0x40 * d) 0
  | .lineview => (List.range 8).all fun k => !s.bit p (Off.lineview_LL_CFG + 0x40 * k) 0
  | .svc => s.pairState (p - 0x3E0) == 0 || s.pairState (p - 0x3E0) == 5
  | .cue => !(s.tb.cues.any fun e => e.1 / 512 == p - 0x28 && bitAt e.2.status 0)
  | _ => true

/-! ## Fences -/

/-- Every stream's frame in flight is lost without metadata (R136). -/
def State.capLoseAll (s : State) : State :=
  s.streams.foldl (fun t c => t.modStream c fun x => { x with inq := [], frame := none, losing := false, seq := none }) s

/-- What a fence does to the block whose lowest page is `p`, beside marking its pages (R46 to R49 and the block's chapter). -/
def State.blockFenced (s : State) (p : Nat) : State :=
  match pageKind p with
  | .sens => s.capBreakAll 0 (p - 0x60)
  | .dlk => s.capBreakAll 1 (p - 0x160)
  | .intake => s.capLoseAll
  | .pipeCtl => s.pipeFenced ((p - 0x180) / 16)
  | .eng => s.engStop (p - 0x240) true
  | .henc | .dec | .xs => s.codecFenced p
  | .tdm => s.tdmLeave (p - 0x390)
  | .mac => s.macFenced (p - 0x3B0)
  | .ptp => s.ptpNone
  | .nvmh => s.ssdOffline (p - 0x3D0)
  | .cti => s.ctiFenced
  | .svc => if s.pairState (p - 0x3E0) = 4 ∨ s.pairState (p - 0x3E0) = 5 then s else s.pairFailed (p - 0x3E0)
  | .qm0 => s.onQm fun q => { q with pushBuf := [] }
  | _ => s

/-- Carry out the block's part of every fence from position `i` of the notices on. -/
def State.fenceRest (s : State) (i : Nat) : State :=
  let s1 := (s.dep.fences.drop i).foldl (fun t f => if f.done then t else t.blockFenced f.page) s
  s1.onDep fun d => { d with fences := d.fences.zipIdx.map fun e => if i ≤ e.2 then { e.1 with done := true } else e.1 }

/-- Fence the block of page `p` now, with all that this does (R490). -/
def State.fenceNow (s : State) (p c b : Nat) : State := (s.fence p c b).fenceRest s.dep.fences.length

/-- FENCE_NOTICE (R495): the notice of a fence reaches the aggregator, after a report of the same page. -/
def execFenceNotice (p : Nat) (s : State) : Step :=
  match s.dep.fences.find? fun f => f.page == p with
  | none => .next s
  | some f =>
    if s.dep.reports.any fun r => r.1 == p then .next s
    else
      let s1 := if f.done then s else s.blockFenced p
      let s2 := s1.onDep fun d => { d with fences := d.fences.filter fun g => g.page != p }
      .next (((s2.silkOf p 0x02 f.cause f.bit 0).setInt pFAULTAGG 1).produce pFAULTAGG 1)

/-! ## Resets -/

/-- Header registers that SOFT_RST keeps: FAULT_EN, FAULT_FENCE, INT_EN and the event ports (R602). -/
def keptHdr (o : Nat) : Bool := o == 0x014 || o == 0x018 || o == 0x024 || (decide (0x028 ≤ o) && decide (o ≤ 0x044))

/-- Registers that show what a reset of their page does not change: domains and states of power, the Moult map, a memory
controller's state and delays in use, TIME_STAT, the bindings of task inputs, and an EYE page's safe states (R351, R473, R486,
notes/assumptions/70.md). -/
def keptReg (p o : Nat) : Bool :=
  match pageKind p with
  | .pwr0 => decide (0x100 ≤ o) && decide (o < 0x120)
  | .pwr1 => o == 0x100
  | .clus => decide (0x100 ≤ o) && decide (o ≤ Off.clus_SPARES)
  | .dram => o == Off.dram_STATE || o == Off.dram_CUR_RD || o == Off.dram_CUR_WR
  | .timebase => o == Off.timebase_TIME_STAT
  | .evf0 | .evf1 => decide (0x800 ≤ o) && decide (o % 16 = Off.evf0_CH_BIND % 16)
  | _ => false

/-- Registers of page `p` return to their reset values but for those that `keep` names; shadow copies, latches and what the model
keeps of the page go, a task input's pending event among it (R273, R602, R609). -/
def State.clearPage (s : State) (p : Nat) (keep : Nat → Bool) : State :=
  let out := fun (k : Nat) => decide (k / 4096 ≠ p)
  let s1 := (((s.onRegs (Map.keep fun k => out k || keep (k % 4096))).onShadow (Map.keep out)).onFrozen (Map.keep out)).onLatch (Map.keep out)
  (s1.modPage p fun _ => {}).onEvf fun e => { e with inBusy := Map.keep (fun k => decide (k / 4 ≠ p)) e.inBusy }

/-- SOFT_RST of a DLK page clears the FAIL_COUNT of every position, and with it RETIRED (R113). -/
def State.dlkForget (s : State) (n : Nat) : State :=
  (List.range 14).foldl (fun t p => match t.dlkLane n p with
    | some l => ((t.setReg (pSWIFT l) Off.swift_DLK_FAILS 0).setReg (pSWIFT l) Off.swift_DLK_LSTAT 0).onDep fun d =>
        { d with lane := Map.put (fun _ => 0) d.lane l 0 }
    | none => t) s

/-- The part of the model's state that belongs to a page beside its registers starts again. The registers still hold their values
from before the reset; `hard` is a loss of power (R565, R602). -/
def State.blockQuit (s : State) (p : Nat) (hard : Bool) : State :=
  match pageKind p with
  | .sens =>
    let i := p - 0x60
    (s.capBreakAll 0 i).onCap fun c =>
      { c with ports := Map.del c.ports i, i3c := if i % 2 = 0 then Map.del c.i3c (i / 2) else c.i3c }
  | .dlk =>
    let n := p - 0x160
    (((s.capBreakAll 1 n).dlkForget n).onCap fun c =>
      { c with dlk := Map.del c.dlk n, pos := Map.keep (fun k => decide (k / 16 ≠ n)) c.pos })
  | .intake => s.streams.foldl (fun t c => t.capDisable c) s
  | .pipeCtl =>
    let n := (p - 0x180) / 16
    let s1 := s.pipeReset n
    if hard then s1.onPipes fun x => { x with ctx := Map.keep (fun k => decide (k / 64 ≠ n)) x.ctx } else s1
  | .eng => s.engReset (p - 0x240)
  | .clus =>
    let s1 := s.onSwarm fun w => { w with load := Map.del w.load (p - 0x200) }
    if hard then
      let b := shmBase + (p - 0x200) * 0x200000
      (s1.onMem fun m => m.filter fun e => decide (e.1 < b) || decide (b + 0x200000 ≤ e.1)).onPoison
        (Map.keep fun k => decide (k < b / 64) || decide ((b + 0x200000) / 64 ≤ k))
    else s1
  | .henc | .dec | .xs => ((s.sessions p).foldl (fun t c => t.sessOff p c) s).onCodec fun x => { x with blk := Map.del x.blk p }
  | .tdm =>
    let n := p - 0x390
    (s.tdmLeave n).onTdm fun t => { sets := Map.del t.sets n, port := Map.del t.port n }
  | .mac => (s.macFenced (p - 0x3B0)).onNet fun x => { x with mac := Map.del x.mac (p - 0x3B0) }
  | .tsn =>
    let k := p - 0x3C0
    let s1 := if k = 0 then (s.qm.scxKind.filter fun e => e.2 == 5).foldl (fun t e => (t.scxFree e.1).modFlow e.1 fun _ => {}) s else s
    let s2 := s1.onNet fun x => { x with filt := Map.keep (fun f => decide (f / 256 ≠ k)) x.filt, rcv := Map.keep (fun r => decide (r / 128 ≠ k)) x.rcv }
    [2 * k, 2 * k + 1].foldl (fun t n => t.modMac n fun m => { m with oper := [], idx := 0, ends := 0, hold := false, admin := [], change := none }) s2
  | .ptp => s.onNet fun x => { x with ptp := {} }
  | .nvmh => (s.ssdOffline (p - 0x3D0)).modSsd (p - 0x3D0) fun _ => {}
  | .cti => s.ctiReset
  | .svc => s.modPair (p - 0x3E0) fun _ => {}
  | .qm0 => s.onQm fun q =>
      { q with cache := [], pins := [], pushBuf := [], reissue := [],
               hold := q.hold.foldl (fun h e => Map.put (fun _ => {}) h e.1 { count := e.2.count }) [] }
  | .dram => s.onDram fun d => { d with ctl := Map.del d.ctl (p - 0x40) }
  | .dramguard => s.onDram fun d => { d with guard := Map.keep (fun i => decide (i < 64)) d.guard }
  | .dist => s.onTb fun t => { t with dist := [], enc := t.enc.foldl (fun m e => Map.put (fun _ => {}) m e.1 { a := e.2.a, b := e.2.b, i := e.2.i }) [] }
  | .phase => s.onTb fun t => { t with phase := [] }
  | .lineview => s.onTb fun t => { t with sline := [], ll := [] }
  | .cue => s.onTb fun t => { t with cues := Map.keep (fun c => decide (c / 512 ≠ p - 0x28)) t.cues }
  | .evf0 =>
    ((List.range 32).foldl (fun t q => t.applyPinCfg q 0) s).onEvf fun e => { e with ch := [], prev := Map.keep (fun k => decide (pageKind (k / 4096) ≠ .evf0 ∧ pageKind (k / 4096) ≠ .evf1)) e.prev, pin := e.pin.foldl (fun m x => Map.put (fun _ => {}) m x.1 { level := x.2.level }) [] }
  | .silk => s.onDep fun d => { d with silk := { slotOrder := d.silk.slotOrder, snapCount := d.silk.snapCount } }
  | .safety => (s.onDep fun d => { d with lockstep := false, hbAt := 0, clkHigh := 0, clkGood := 0, viewSeen := [], viewClr := [] })
  | .disp =>
    if hard then
      let n := p - 0x380
      let hpd := (s.head n).hpd
      let s1 := (List.range 8).foldl (fun t l => t.putGuard n l {}) s
      (s1.modHead n fun _ => { hpd := hpd }).onTb fun t => { t with line := Map.del t.line n }
    else s
  | _ => s

/-- A fence of the block of page `p` whose part in the block is still to be carried out is settled (R490): its notice stays. -/
def State.fenceSettled (s : State) (p : Nat) : State :=
  if s.dep.fences.any fun f => f.page == (blockPages p).headD p && !f.done then
    (s.blockFenced ((blockPages p).headD p)).onDep fun d =>
      { d with fences := d.fences.map fun f => if f.page = (blockPages p).headD p then { f with done := true } else f }
  else s

/-- SOFT_RST of the block of page `p` (R602): every page's registers, with PG_CTRL.EN, the fault and interrupt enables and the event
ports kept, and a fence lifted; BUSY is 1 until SOFT_RESET_DONE. -/
def State.softReset (s0 : State) (p : Nat) : State :=
  let pages := blockPages p
  let s := s0.fenceSettled p
  let was := s
  let s1 := pages.foldl (fun t q => t.blockQuit q false) s
  let s2 := pages.foldl (fun t q =>
    let en := t.bit q Off.hdr_PG_CTRL 0
    ((t.clearPage q fun o => keptHdr o || (decide (0x100 ≤ o) && keptReg q o)).putBit q Off.hdr_PG_CTRL 0 en).modPage q fun _ => { busy := true }) s1
  (match pageKind p with
  | .disp => s2.headReset (p - 0x380) (was.fenced p)
  | .eye => s2.eyeReset was (p - 0x388)
  | .cti => (List.range 16).foldl (fun t i => t.clearPage (pWIN + i) fun _ => false) s2
  | _ => s2).holdoverChange s0.holdover

/-- SOFT_RESET_DONE (R602): BUSY clears on every page of the block. -/
def execSoftResetDone (p : Nat) (s : State) : Step :=
  .next ((blockPages p).foldl (fun t q => t.modPage q fun r => { r with busy := false }) s)

end Sys2Proof.Machine
end

