-- ==== Sys2Proof/Machine/Reset.lean ====
section
/-!
DEFINITION. Restarts of the Coneda (R56, R505, R594, R631, R632).
-/

namespace Sys2Proof.Machine

open Sys2Proof

/-- Does memory at `a` keep its contents (R574, R594, R631)? Cocoon does; the always-on SRAM does when `sram`, its Silk ring
when `silk`; DRAM does when `dram`; the shared memories do not. -/
def keptMem (sram silk dram : Bool) (a : Nat) : Bool :=
  match target a with
  | .dram => dram
  | .sram => if silkBase ≤ a then silk else sram
  | .cocoon => true
  | _ => false

/-- Registers that a restart of causes 1 to 5 keeps (R56, R574, R594): TIME's, SEQ of the Silk ring, and, with the DRAM
contents, the delays in use. -/
def keptThrough (dram : Bool) (k : Nat) : Bool :=
  k == rg pTIMEBASE Off.timebase_TIME_STAT || k == rg pTIMEBASE Off.timebase_RATE_ADJ || k == rg pSILK Off.silk_SEQ ||
    (dram && pageKind (k / 4096) == .dram && (k % 4096 == Off.dram_CUR_RD || k % 4096 == Off.dram_CUR_WR))

/-- The Coneda with everything reset but what `all` (causes 1 to 5) or cause 0 keeps: the pins' levels, fuses, flash and media, Cocoon
with its snapshots, and, for causes 1 to 5, TIME, the Silk ring and the always-on SRAM. -/
def State.wiped (s : State) (all sram dram : Bool) : State :=
  let t := s.storPower
  let w := s.power
  let keep := keptMem sram all dram
  let pins := s.evf.pin.foldl (fun m x => Map.put (fun _ => ({} : PinPort)) m x.1 { level := x.2.level }) []
  { pending := s.pending, now := s.now, free := t.free,
    regs := if all then Map.keep (keptThrough dram) s.regs else [],
    mem := t.mem.filter fun e => keep e.1,
    poison := Map.keep (fun k => keep (64 * k)) t.poison,
    tb := { time := if all then s.tb.time else 0, timeRem := if all then s.tb.timeRem else 0,
            enc := s.tb.enc.foldl (fun m e => Map.put (fun _ => {}) m e.1 { a := e.2.a, b := e.2.b, i := e.2.i }) [] },
    evf := { pin := pins, win := (s.now - w.relAt) / 250000 },
    dep := { silk := { slotOrder := s.dep.silk.slotOrder, snapCount := s.dep.silk.snapCount },
             scrub := s.dep.scrub.foldl (fun m e => if e.1 / 16 = pCOCOON then Map.put (fun _ => {}) m e.1 { hard := e.2.hard } else m) [] },
    plat := { mtimeBase := s.now },
    power := { pwrGood := w.pwrGood, goodAt := w.goodAt, fuseVer := w.fuseVer, revoked := w.revoked, keyHash := w.keyHash, flash := w.flash,
               resetHeld := w.resetHeld, relAt := w.relAt, mainAt := if w.mainPwrEn then none else some s.now, dramLost := !dram, restartAt := some s.now },
    disp := s.disp.foldl (fun m e => Map.put (fun _ => {}) m e.1 { hpd := e.2.hpd }) [],
    stor := { media := t.stor.media, host := t.stor.host, next := t.stor.next, prog := t.stor.prog, dirty := t.stor.dirty, log := t.stor.log,
              logSeq := t.stor.logSeq, sums := t.stor.sums } }

/-- The fuses are loaded (R591, step 2; R588, R619). -/
def State.fuseLoad (s : State) (bad : Bool) : State :=
  let s1 := (s.setReg pGLOBAL Off.global_FUSE_STAT (wd (1 + bad.toNat * 2))).setReg pBOOT Off.boot_SEC_VERSION (wd s.power.fuseVer)
  let s2 := s1.setReg pBOOT Off.boot_KEY_REVOKE (wd s.power.revoked)
  let s3 := s2.onPlat fun t => { t with pcieCfg := [(0, Config.fuseIds 0 &&& wd 0xFFFF ||| wd 0x72560000), (8, wd 0x048000A1), (44, Config.fuseIds 1)] }
  if bad then s3.raise pGLOBAL 8 else s3

/-- A start-up step has completed (R591). -/
def State.stepDone (s : State) (k : Nat) : State := (s.setFld pGLOBAL Off.global_START_STAT 0 4 k).onPower fun w => { w with steps := k }

/-- A restart with its cause from its step (R594); of two causes in one tick the lower code is recorded. A change of HOLDOVER
shows as any other (R55). -/
def State.restart (s : State) (cause step : Nat) : State :=
  if s.power.restartAt = some s.now then
    s.setReg pGLOBAL Off.global_RESET_CAUSE (wd (min cause (s.fld pGLOBAL Off.global_RESET_CAUSE 0 3)))
  else
    let dram := (cause == 3 || cause == 4) && !s.power.dramLost
    let s1 := ((s.wiped true true dram).setReg pGLOBAL Off.global_RESET_CAUSE (wd cause)).putBit pCLOCKS Off.clocks_OSC_STAT 0 true
    let s2 := if 3 ≤ step then s1.fuseLoad false else s1
    (s2.stepDone (step - 1)).holdoverChange s.holdover

/-- Is the power-fail snapshot still being written (R531, R635)? -/
def State.pfwBusy (s : State) : Bool := s.dep.pfw && (s.dep.silk.snap.isSome || s.dep.cocoon.any fun r => r.rank == 1)

/-- A restart request: it waits while the power-fail snapshot runs (R594, R635). -/
def State.restartReq (s : State) (cause : Nat) : State :=
  if s.pfwBusy then s.onPower fun w => { w with waitCause := some (min cause (w.waitCause.getD cause)) } else s.restart cause 2

end Sys2Proof.Machine
end

