-- ==== Sys2Proof/Machine/Power.lean ====
section
/-!
DEFINITION. Switched domains (R564 to R567), power states (R571 to R574), thermal sensors, thresholds, throttling, trip and restart
(R568 to R583) and compensation (R584).
-/

namespace Sys2Proof.Machine

open Sys2Proof

/-! ## Domains -/

/-- The lowest pages of the blocks of domain `d`, in page order. -/
def domBlocks (d : Nat) : List Nat := (List.range 1024).filter fun p => pageKind p != .none && domainOf p == d && (blockPages p).headD p == p

/-- Is the shared memory of cluster `d` the target of an access from another cluster (R243): a descriptor in front of a channel of an
engine there reads or writes it? Loads and stores reach the home cluster only, which its logical IDs hold on. -/
def State.shmReached (s : State) (d : Nat) : Bool :=
  s.swarm.thr.any fun e =>
    match e.2.dmaQ.head? with
    | some r =>
      let x := dmaDesc r.desc
      let hit := fun (a : Nat) (stride : Int) => (List.range x.rows).any fun i =>
        let lo := rowAt a stride i
        if a.testBit 63 then decide (0x200000 ≤ lo) && s.homeOf (e.1 / 4) == some d
        else decide (lo < (shmBase + (d + 1) * 0x200000 : Nat)) && decide ((shmBase + d * 0x200000 : Nat) < lo + x.len)
      decide (e.1 / 32 ≠ d) && s.engRuns (e.1 / 4) && !r.bad && s.dmaValid (e.1 / 4) x &&
        ((!x.fill && hit x.src x.srcStride) || hit x.dst x.dstStride)
    | none => false

/-- The hold code of domain `d`, 0 where nothing holds it (*Domain holds*, R243). -/
def State.domHold (s : State) (d : Nat) : Nat :=
  let b := fun (c : Bool) (k : Nat) => if c then k else 0
  if d < 34 then
    b (((List.range 8).any fun i => (s.mapOf (8 * d + i)).isSome || s.fld (pENG (8 * d + i)) Off.eng_BIST_STAT 0 2 == 3) ||
      (decide (d < 32) && (List.range 8).any fun i => bitAt (s.lmap (8 * d + i)) 15) || s.shmReached d) 1
  else if d < 42 then b ((List.range 64).any fun c => cfgSafety (s.pctx (ctxKey (d - 34) c)).cfg && (s.pctx (ctxKey (d - 34) c)).state != 0) 2
  else if d < 58 then 0
  else if d < 66 then
    let n := d - 58
    b (((List.range 8).any fun l => s.layerOn n l && s.layerSafety n l) ||
      (List.range 8).any fun v =>
        let w := s.reg pSAFETY (Off.safety_VIEW_CFG + 0x10 * v)
        bitAt w 0 && wfld w 1 3 == n) 3
  else if d < 98 then b ((List.range 6).any fun i => s.fld (pSWIFT (6 * (d - 66) + i)) Off.swift_LANE_CFG 0 3 != 0) 4
  else if d < 106 then b (decide (2 * (d - 98) < s.controllers)) 5
  else if d < 110 then b (s.pairState (2 * (d - 106)) == 3 || s.pairState (2 * (d - 106) + 1) == 3) 6
  else if d = 111 then b (s.stor.state != 0 || (List.range 8).any fun k => s.ssdState k != 0) 7
  else 0

/-- Set or clear DOM_REQ and DOM_STAT of a domain. -/
def State.putReq (s : State) (d : Nat) (v : Bool) : State := s.putBit (pPWR 0) (Off.pwr0_DOM_REQ0 + 4 * (d / 32)) (d % 32) v
def State.putStat (s : State) (d : Nat) (v : Bool) : State := s.putBit (pPWR 0) (Off.pwr0_DOM_STAT0 + 4 * (d / 32)) (d % 32) v

/-- Power is removed from domain `d` (R566): the pages that are not idle are fenced first, all TDM pages where a set is not OFF (R377),
and its blocks lose what they hold. -/
def State.domCut (s : State) (d : Nat) : State :=
  if !s.domOn d then s.onPower fun w => { w with queue := w.queue.filter (· != d) }
  else
    let blocks := domBlocks d
    let all := d == 110 && (List.range 32).any fun n => s.tsetState n != 0
    let s1 := blocks.foldl (fun t p => if all || !(blockPages p).all t.pageIdle then t.fenceNow p 0 0 else t) s
    (blocks.foldl (fun t p => (blockPages p).foldl (fun u q => u.blockQuit q true) t) s1).putStat d false

/-- A DOM_REQ bit changes (R565, R566). -/
def State.domReq (s : State) (d : Nat) (on : Bool) : State :=
  if on then s.domWant d
  else
    let h := if s.domOn d then s.domHold d else 0
    if h = 0 then (s.putReq d false).domCut d
    else ((s.setFld (pPWR 0) Off.pwr0_DOM_CMD_STAT 0 16 (d + h * 256)).raise (pPWR 0) 8).produce (pPWR 1) 1

/-- A write of DOM_REQ word `i` (R565, R566, R595). -/
def State.domWrite (s : State) (m : Master) (i : Nat) (v : Word) : State :=
  s.regWrite m (pPWR 0) (Off.pwr0_DOM_REQ0 + 4 * i) fun t =>
    if t.fld (pPWR 1) Off.pwr1_STATE 0 2 ≠ 0 then t.stateWrite (pPWR 0)
    else
      let old := t.reg (pPWR 0) (Off.pwr0_DOM_REQ0 + 4 * i)
      (List.range 32).foldl (fun u j =>
        if 112 ≤ 32 * i + j ∨ bitAt old j = bitAt v j then u else u.domReq (32 * i + j) (bitAt v j)) t

/-- DOMAIN_ON_REQUEST (R565): a write of DOM_REQ word `i`. -/
def execDomainOnRequest (m : Master) (i : Nat) (v : Word) (s : State) : Step := .next (s.domWrite m i v)

/-- DOMAIN_OFF_REQUEST (R566): a write of DOM_REQ word `i`. -/
def execDomainOffRequest (m : Master) (i : Nat) (v : Word) (s : State) : Step := .next (s.domWrite m i v)

/-- Domain `d` is powered and its blocks stand in their reset state, unfenced (R565). -/
def State.domUp (s : State) (d : Nat) : State :=
  let pages := (domBlocks d).flatMap blockPages
  let s1 := pages.foldl (fun t p => t.clearPage p fun o => pageKind p = .clus && decide (0x100 ≤ o) && keptReg p o) s
  let s2 := if d = 111 then (List.range 16).foldl (fun t i => t.clearPage (pWIN + i) fun _ => false) s1 else s1
  s2.putStat d true

/-- Domain numbers in ascending order. -/
def insertDom (d : Nat) : List Nat → List Nat
  | [] => [d]
  | e :: es => if d ≤ e then d :: e :: es else e :: insertDom d es

/-- DOMAIN_READY (R565): the domain in its turn becomes ready, and the lowest waiting one has its turn. -/
def execDomainReady (s : State) : Step :=
  match s.power.queue with
  | [] => .next s
  | d :: rest =>
    let s1 := s.onPower fun w => { w with queue := rest.foldl (fun l e => insertDom e l) [] }
    if s.bit (pPWR 0) (Off.pwr0_DOM_REQ0 + 4 * (d / 32)) (d % 32) && !s.domOn d then .next (s1.domUp d) else .next s1

/-! ## Power states -/

/-- STATE changes (R571). -/
def State.setPower (s : State) (st : Nat) : State := (s.setFld (pPWR 1) Off.pwr1_STATE 0 2 st).produce (pPWR 1) 0

/-- Controllers in one state go to another (R473, R574). -/
def State.dramTo (s : State) (a b : Nat) : State :=
  (List.range 16).foldl (fun t n => if t.fld (pDRAM n) Off.dram_STATE 0 3 = a then t.setFld (pDRAM n) Off.dram_STATE 0 3 b else t) s

/-- Every domain but those of `keep` loses power (R571, R582). -/
def State.cutAll (s : State) (keep : Nat → Bool) : State :=
  (List.range 112).foldl (fun t d => if keep d then t else (t.putReq d false).domCut d) s

/-- MAIN_PWR_EN goes low (R629, R632): the PTP engine loses power with its grandmaster (R55). -/
def State.mainLow (s0 : State) : State :=
  let was := s0.holdover
  let s := ((s0.onNet fun x => { x with ptp := {} }).setReg pPTP Off.ptp_STAT 0).holdoverChange was
  (s.setReg pSAFETY Off.safety_SUP_STAT (s.reg pSAFETY Off.safety_SUP_STAT &&& wd 0x3C)).onPower fun w => { w with mainPwrEn := false, dramLost := false }

/-- Refused requests (R571). -/
def State.stateRefused (s : State) : State := s.raise (pPWR 1) 9

/-- STANDBY ends (R574): the controllers leave self-refresh. -/
def State.standbyEnd (s : State) : State := (s.dramTo 3 2).setPower 0

/-- A write of STATE_REQ (R571 to R573): KEY, the state the table allows, and its conditions. -/
def State.stateReq (s : State) (m : Master) (v : Word) : State :=
  s.regWrite m (pPWR 1) Off.pwr1_STATE_REQ fun t =>
    let st := t.fld (pPWR 1) Off.pwr1_STATE 0 2
    let dst := wfld v 0 2
    if !isKey v then t.stateRefused
    else if st = 0 ∧ dst = 1 then
      if t.pairState 0 ≠ 3 then t.stateRefused
      else (((t.cutAll fun d => d == 106 || (decide (98 ≤ d) && decide (d < 106))).dramTo 2 3).onPower fun w => { w with wake := none, queue := [] }).setPower 1
    else if st = 1 ∧ dst = 0 then t.standbyEnd
    else if st = 1 ∧ dst = 2 then
      match t.power.wake with
      | some c => (t.setReg (pPWR 1) Off.pwr1_WAKE_CAUSE (wd (c.1 + c.2 * 256))).onPower fun w => { w with wake := none }
      | none => (((t.cutAll fun _ => false).dramTo 3 0).setPower 2).mainLow
    else t.stateRefused

/-- STANDBY_REQUEST (R571). -/
def execStandbyRequest (m : Master) (v : Word) (s : State) : Step := .next (s.stateReq m v)
/-- DORMANT_REQUEST (R571, R573, R632). -/
def execDormantRequest (m : Master) (v : Word) (s : State) : Step := .next (s.stateReq m v)
/-- ACTIVE_REQUEST (R571, R574). -/
def execActiveRequest (m : Master) (v : Word) (s : State) : Step := .next (s.stateReq m v)

/-- WAKE (R573, R574): from STANDBY to ACTIVE, or from DORMANT through start-up from step 3 with RESET_CAUSE 4. -/
def execWake (s : State) : Step :=
  match s.power.wake with
  | none => .next s
  | some c =>
    let cause := wd (c.1 + c.2 * 256)
    let st := s.fld (pPWR 1) Off.pwr1_STATE 0 2
    let s1 := s.onPower fun w => { w with wake := none }
    if st = 1 then .next ((s1.setReg (pPWR 1) Off.pwr1_WAKE_CAUSE cause).standbyEnd)
    else if st = 2 then .next ((s1.restart 4 3).setReg (pPWR 1) Off.pwr1_WAKE_CAUSE cause)
    else .next s1

/-! ## Thermal readings -/

/-- A thermal sensor. -/
def State.sensor (s : State) (i : Nat) : Sensor := Map.get (fun _ => {}) s.power.sens i
/-- Is sensor `i` failed (FAILED_MAP)? -/
def State.sensFailed (s : State) (i : Nat) : Bool := s.bit (pTHERM 1) Off.therm1_FAILED_MAP i
/-- The largest number of a list. -/
def maxInt : List Int → Option Int
  | [] => none
  | a :: as => some (as.foldl max a)
/-- Readings of the valid sensors among `l`. -/
def State.validOf (s : State) (l : List Nat) : List Int := (l.filter fun i => !s.sensFailed i).map fun i => (s.sensor i).raw
/-- The sensors of zone `z` (R575). -/
def zoneSens (z : Nat) : List Nat := (List.range 4).map (4 * z + ·)
/-- Level in °C, H, N of a threshold: 0 WARN, 1 THROTTLE, 2 PRE_TRIP, 3 TRIP (R578). -/
def State.threshold (s : State) (k : Nat) : Int × Nat × Nat :=
  let w := s.reg (pTHERM 0) (Off.therm0_WARN + 4 * min k 2)
  ((wfld w 0 8 : Int) - (if k = 2 then 2 else 0), wfld w 8 8, max 1 (wfld w 16 8))

/-- The reading of sensor `i`: its sample, or its substitute while it is failed (R576). -/
def State.reading (s : State) (i : Nat) : Int :=
  if !s.sensFailed i then (s.sensor i).raw
  else match maxInt (s.validOf (zoneSens (i / 4))) with
    | some v => v + 160
    | none => match maxInt (s.validOf (List.range 32)) with
      | some v => v + 160
      | none => 16 * (s.threshold 1).1 + 160

/-- T_z, the zone temperature (R577). -/
def State.zoneT (s : State) (z : Nat) : Int := (maxInt ((zoneSens z).map s.reading)).getD 0
/-- V_z, the valid temperature, if the zone has a valid sensor (R577). -/
def State.zoneV (s : State) (z : Nat) : Option Int := maxInt (s.validOf (zoneSens z))

/-- A crossing's state. -/
def State.crossing (s : State) (z k : Nat) : Crossing := Map.get (fun _ => {}) s.power.cross (4 * z + k)
def State.above (s : State) (z k : Nat) : Bool := (s.crossing z k).above

/-- One sample against a threshold (R579): temperatures in 1/16 °C. -/
def Crossing.sample (c : Crossing) (level : Int) (h n : Nat) (t : Option Int) : Crossing :=
  match t with
  | none => { c with up := 0, down := 0 }
  | some v =>
    let up := if 16 * level ≤ v then min n (c.up + 1) else 0
    let down := if v < 16 * (level - h) then min n (c.down + 1) else 0
    { above := if c.above then !decide (n ≤ down) else decide (n ≤ up), up := up, down := down }

/-- One threshold of one zone takes a sample (R579, R581): an entry into ABOVE counts in CROSS, sets the threshold's fault bit and
produces PG_EVT_OUT0. -/
def State.judge (s : State) (z k : Nat) : State :=
  let th := s.threshold k
  let old := s.crossing z k
  let new := old.sample th.1 th.2.1 th.2.2 (if k < 2 then some (s.zoneT z) else s.zoneV z)
  let s1 := s.onPower fun w => { w with cross := Map.put (fun _ => {}) w.cross (4 * z + k) new }
  if old.above || !new.above then s1
  else
    let s2 := s1.count (pTHERM 0) (Off.therm0_CROSSz + 4 * z) (8 * k) 8 1
    let s3 := (if k < 3 then s2.raise (pTHERM 0) (8 + k) else s2).produce (pTHERM 0) 0
    if k = 2 then s3.onPower fun w => { w with preTripAt := w.preTripAt.max s.now, peaks := Map.put (fun _ => 0) w.peaks z ((s.zoneV z).getD 0) }
    else if k = 3 then s3.onPower fun w => { w with tripWait := w.tripWait.orElse fun _ => some (z, max s.now (w.preTripAt + 5000000)) }
    else s3

/-! ## Throttling -/

/-- Throttle class of domain `d`, a raw pipe with a SAFETY context in use being class 0 (R568). -/
def State.thrClass (s : State) (d : Nat) : Nat :=
  if 58 ≤ d then 0
  else if 34 ≤ d ∧ d < 42 ∧ s.domHold d = 2 then 0
  else s.fld (pPWR 2) (Off.pwr2_THR_CLASS0 + 4 * (d / 16)) (2 * (d % 16)) 2

/-- The gated share of class `c` in zone `z` in percent (R569). -/
def State.thrShare (s : State) (z c : Nat) : Nat :=
  if !s.above z 1 then 0
  else
    let w := s.reg (pPWR 2) (Off.pwr2_THR_CFG1 + 4 * (c - 1))
    let e := (max 0 (s.zoneT z - 16 * (s.threshold 1).1)).toNat
    min (16 * wfld w 8 8) (wfld w 0 8 * e) / 16

/-- THR_DUTY of every zone, the gated shares and THR_CNT (R569). -/
def State.thrUpdate (s : State) : State :=
  let s1 := (List.range 8).foldl (fun t z => t.setReg (pPWR 2) (Off.pwr2_THR_DUTY0 + 4 * z)
    (wd (s.thrShare z 1 + s.thrShare z 2 * 256 + s.thrShare z 3 * 65536))) s
  let gated := (List.range 58).any fun d => s.domOn d && s.thrClass d != 0 && s.thrShare (Config.zoneOf d).val (s.thrClass d) != 0
  let s2 := s1.onPower fun w => { w with gateAt := s.now, gate := (List.range 58).foldl (fun m d =>
    Map.put (fun _ => (0, 0)) m d (s.gatedTime d,
      if s.domOn d && s.thrClass d != 0 then s.thrShare (Config.zoneOf d).val (s.thrClass d) else 0)) w.gate }
  if gated then s2.count (pPWR 2) Off.pwr2_THR_CNT 0 32 1 else s2

/-! ## Samples, trip and restart -/

/-- The THERM registers that show the readings (R576, R577). -/
def State.thermShow (s : State) : State :=
  let s1 := (List.range 8).foldl (fun t z =>
    let b := fun (k : Nat) => (s.above z k).toNat * 2 ^ (16 + k)
    (t.setReg (pTHERM 0) (Off.therm0_ZONE_Tz + 4 * z)
      (wd (unsigned 16 (s.zoneT z) + b 0 + b 1 + b 2 + b 3 + (s.zoneV z).isNone.toNat * 2 ^ 20))).setReg (pTHERM 0) (Off.therm0_ZONE_Vz + 4 * z)
      (wd (unsigned 16 ((s.zoneV z).getD 0)))) s
  let s2 := (List.range 32).foldl (fun t i =>
    (t.setFld (pTHERM 1) (Off.therm1_SENS_Ts + 4 * i) 0 16 (unsigned 16 (s.reading i))).setFld (pTHERM 1) (Off.therm1_SENS_Ts + 4 * i) 16 8
      ((!s.sensFailed i).toNat + (s.sensFailed i).toNat * 2 + i / 4 * 16)) s1
  s2.setReg (pTHERM 0) Off.therm0_MAX_T (wd (unsigned 16 ((maxInt (s.validOf (List.range 32))).getD 0)))

/-- THERMAL_SAMPLE (R569, R575 to R583), every 100 µs: 32 samples in 1/16 °C; zones, crossings, PRE_TRIP, a trip that becomes due, throttling,
and the count of cool samples in TRIPPED. -/
def execThermalSample (raw : List Int) (s : State) : Step :=
  if s.power.steps = 0 || !dueAgain s.power.sampleAt 25000 s.now then .next s
  else
    let s1 := s.onPower fun w => { w with sampleAt := some s.now, sens := (List.range 32).foldl (fun m i =>
      Map.put (fun _ => {}) m i { (Map.get (fun _ => {}) m i : Sensor) with raw := raw.getD i 0 }) w.sens }
    let valid := s1.validOf (List.range 32)
    let s2 := if valid.isEmpty then s1.raise (pTHERM 0) 12 else s1
    let s3 := (List.range 8).foldl (fun t z => (List.range 4).foldl (fun u k => u.judge z k) t) s2
    let s4 := s3.onPower fun w => { w with peaks := (List.range 8).foldl (fun m z =>
      if s3.above z 2 then Map.put (fun _ => 0) m z (max (Map.get (fun _ => 0) m z) ((s3.zoneV z).getD 0)) else m) w.peaks }
    let pre := (List.range 8).any fun z => s4.above z 2
    let s5 := if pre && !s.power.preTripOn then ((s4.onPower fun w => { w with preTripOn := true }).produce (pTHERM 0) 1).snapTrigger 4
      else s4.onPower fun w => { w with preTripOn := pre }
    let trip := 16 * (s5.threshold 3).1
    let hot := (List.range 8).find? fun z => match s5.zoneV z with
      | some v => decide (trip + 80 ≤ v)
      | none => false
    let s6 := match hot with
      | some z => s5.onPower fun w => { w with tripWait := some (z, s.now) }
      | none => s5
    let margin := wfld (s6.reg (pTHERM 0) Off.therm0_TRIP) 24 8
    let cool := match maxInt valid with
      | some v => decide (v < trip - 16 * margin)
      | none => false
    let s7 := s6.onPower fun w => { w with cool := if s6.fld (pPWR 1) Off.pwr1_STATE 0 2 = 3 ∧ cool then w.cool + 1 else 0 }
    .next (s7.thermShow.thrUpdate.fnUpdate)

/-- THERMAL_TRIP (R582, R632, R652): a trip that is due removes power, enters TRIPPED and commits RESTART. -/
def execThermalTrip (s : State) : Step :=
  match s.power.tripWait with
  | none => .next s
  | some (z, due) =>
    if s.now < due then .next s
    else if s.fld (pPWR 1) Off.pwr1_STATE 0 2 = 3 then .next (s.onPower fun w => { w with tripWait := none })
    else
      let trips := match s.copyPayload 0x1700 with
        | some b => ofLeBytes ((b.drop 16).take 4)
        | none => 0
      let peak := Map.get (fun _ => 0) s.power.peaks z
      let s1 := ((s.cutAll fun _ => false).setPower 3).onPower fun w => { w with tripWait := none, cool := 0, queue := [], wake := none }
      let s2 := ((s1.dramTo 2 0).dramTo 3 0).mainLow
      .next (s2.cocoonPut { rank := 4, off := 0x1700, type := 0x0301,
                            payload := leBytes 8 s.timeNs ++ leBytes 4 z ++ leBytes 4 (unsigned 16 peak) ++ leBytes 4 (min (trips + 1) (2 ^ 32 - 1)) })

/-- THERMAL_RESTART (R583, R632). -/
def execThermalRestart (s : State) : Step :=
  if s.fld (pPWR 1) Off.pwr1_STATE 0 2 ≠ 3 ∨ s.power.cool < (s.threshold 3).2.2 then .next s else .next (s.restart 3 2)

/-- SENSOR_CHECK (R576), every 100 ms: each sensor's sample is compared with its zone's reference diode. -/
def execSensorCheck (diode : List Int) (s : State) : Step :=
  if s.power.steps = 0 || !dueAgain s.power.checkAt 25000000 s.now then .next s
  else
    let p := pTHERM 1
    let tol : Int := 16 * s.fld (pTHERM 0) Off.therm0_CHECK 0 8
    let s0 := (List.range 8).foldl (fun t z => t.setReg p (Off.therm1_REF_Tz + 4 * z) (wd (unsigned 16 (diode.getD z 0)))) s
    let s1 := s0.onPower fun w => { w with checkAt := some s.now, diode := (List.range 8).foldl (fun m z => Map.put (fun _ => 0) m z (diode.getD z 0)) w.diode }
    let put := fun (t : State) (i k : Nat) => t.onPower fun w =>
      { w with sens := Map.put (fun _ => {}) w.sens i { (Map.get (fun _ => {}) w.sens i : Sensor) with passes := k } }
    let s2 := (List.range 32).foldl (fun t i =>
      let r := (s.sensor i).raw
      let d := r - diode.getD (i / 4) 0
      if r < -880 ∨ 2400 < r ∨ tol < d ∨ d < -tol then
        let u := put t i 0
        if t.sensFailed i then u
        else (((u.putBit p Off.therm1_FAILED_MAP i true).count p (Off.therm1_SENS_Ts + 4 * i) 24 8 1).raise (pTHERM 0) 11).produce (pTHERM 0) 2
      else if !t.sensFailed i then t
      else if (t.sensor i).passes + 1 < 10 then put t i ((t.sensor i).passes + 1)
      else (put t i 0).putBit p Off.therm1_FAILED_MAP i false) s1
    .next (if (s2.validOf (List.range 32)).isEmpty then s2.raise (pTHERM 0) 12 else s2).thermShow

/-- COMPENSATION_RUN (R584), every 10 ms: oscillator, bandgap and DRAM codes are corrected for the valid temperature of zone 0, else of the die; the
codes themselves are not stated. -/
def execCompensationRun (s0 : State) : Step :=
  if s0.power.steps = 0 || !dueAgain s0.power.compAt 2500000 s0.now then .next s0
  else
    let s := s0.onPower fun w => { w with compAt := some s0.now }
    let p := pCLOCKS
    match (s.zoneV 0).orElse fun _ => maxInt (s.validOf (List.range 32)) with
    | none => .next ((s.putBit p Off.clocks_OSC_STAT 1 false).raise p 9)
    | some t =>
      let a := s.drawWord
      let b := a.2.drawWord
      let c := b.2.drawWord
      let s1 := ((c.2.setReg p Off.clocks_OSC_COMP a.1).setReg p Off.clocks_BG_COMP (b.1 &&& wd 0xFF)).setReg p Off.clocks_DRV_COMP (c.1 &&& wd 0xFFFF)
      .next (((s1.setReg p Off.clocks_COMP_TEMP (wd (unsigned 16 t))).count p Off.clocks_COMP_CNT 0 32 1).putBit p Off.clocks_OSC_STAT 1 true)

/-- Registers of the PWR pages that the model computes: DOM_CMD_STAT.BUSY and ZONE_MAP (R565, R569). -/
def State.viewPower (s : State) (p o : Nat) : Option Word :=
  match pageKind p with
  | .pwr0 => if o = Off.pwr0_DOM_CMD_STAT then some (setBit (s.reg p o) 16 (!s.power.queue.isEmpty)) else none
  | .pwr3 =>
    if Off.pwr3_ZONE_MAP0 ≤ o ∧ o < Off.pwr3_ZONE_MAP0 + 56 ∧ o % 4 = 0 then
      some (wd ((List.range 8).foldl (fun a j => a + (Config.zoneOf (2 * (o - Off.pwr3_ZONE_MAP0) + j)).val * 16 ^ j) 0))
    else none
  | _ => none

end Sys2Proof.Machine
end

