-- ==== Sys2Proof/Machine/Boot.lean ====
section
/-!
DEFINITION. Boot images and the boot flash (R585 to R590), start-up (R465, R505, R591 to R593) and resets (R594, R631 to R635).
-/

namespace Sys2Proof.Machine

open Sys2Proof

/-! ## Images -/

/-- `n` bytes of a list from `a` on. -/
def cut (l : List Byte) (a n : Nat) : List Byte := (l.drop a).take n
/-- A little-endian field of an image header (*Image header*). -/
def hdrNat (l : List Byte) (a n : Nat) : Nat := ofLeBytes (cut l a n)
/-- LENGTH, the payload's bytes. -/
def imgLength (l : List Byte) : Nat := hdrNat l 0x20 4
/-- LOAD_ADDR. -/
def imgLoad (l : List Byte) : Nat := hdrNat l 0x10 8
/-- ENTRY. -/
def imgEntry (l : List Byte) : Nat := hdrNat l 0x18 8

/-- The header's fields hold what *Image header* allows. -/
def headerOk (h : List Byte) : Bool :=
  let len := imgLength h
  let load := imgLoad h
  let entry := imgEntry h
  hdrNat h 0 4 == 0x4F425343 && hdrNat h 4 4 == 1 && decide (hdrNat h 8 4 < 4) && decide (hdrNat h 12 4 ≤ 64) && load % 4096 == 0 &&
    decide (load ≤ entry) && decide (entry < load + len) && decide (4 ≤ len) && decide (len ≤ 1048576) &&
    (cut h 0x24 0x5C).all (· == 0) && (cut h 0x140 0xC0).all (· == 0)

/-- The reason for which an image of header `h` and payload `pay` is no candidate, 0 for a candidate (R586, *BOOT page*). -/
def State.imageReason (s : State) (h pay : List Byte) : Nat :=
  let key := hdrNat h 8 4
  let pub := cut h 0x80 0x60
  if !headerOk h then 1
  else if s.power.revoked.testBit key then 2
  else if Map.get (fun _ => []) s.power.keyHash key ≠ sha384 pub then 3
  else if hdrNat h 12 4 < s.power.fuseVer then 4
  else if !ecdsaOk pub (cut h 0xE0 0x60) (h.take 0xE0 ++ pay) then 5
  else 0

/-- `n` bytes of the boot flash; an erased byte reads 0xFF. -/
def State.flashRead (s : State) (a n : Nat) : List Byte := (List.range n).map fun i => Map.get (fun _ => 0xFF) s.power.flash (a + i)

/-- First flash byte of slot A or B (R585). -/
def slotBase (b : Bool) : Nat := if b then 0x01000000 else 0

/-- The image of a slot: header and payload, no longer than the longest payload. -/
def State.slotImage (s : State) (b : Bool) : List Byte × List Byte :=
  let h := s.flashRead (slotBase b) 0x200
  (h, s.flashRead (slotBase b + 0x200) (min 1048576 (imgLength h)))

/-- The reason of a slot, `bad` marking the slots that fail to read. -/
def State.slotReason (s : State) (bad : Nat) (b : Bool) : Nat :=
  if bad.testBit b.toNat then 6 else let i := s.slotImage b; s.imageReason i.1 i.2

/-! ## The BOOT record, the version counter and verification -/

/-- Commit the BOOT record (R587; its payload is notes/assumptions/71.md). -/
def State.bootCommit (s : State) : State :=
  s.cocoonPut { rank := 4, off := 0x5800, type := 0x0101,
                payload := leBytes 1 (s.power.pref.toNat + 2 * s.power.trial.toNat) ++ leBytes 1 s.power.tries }

/-- CONFIRM (R587). -/
def execConfirm (m : Master) (v : Word) (s : State) : Step :=
  .next (s.regWrite m pBOOT Off.boot_CONFIRM fun t =>
    if !isKey v || !bitAt v 0 then t
    else (t.onPower fun w => { w with trial := false, tries := 0 }).bootCommit)

/-- PREF (R587). -/
def execPref (m : Master) (v : Word) (s : State) : Step :=
  .next (s.regWrite m pBOOT Off.boot_PREF fun t =>
    if !isKey v then t
    else (t.onPower fun w => { w with pref := bitAt v 0, trial := bitAt v 1, tries := 0 }).bootCommit)

/-- VER_ADV (R588): the fuse counter rises to the booted image's SEC_VERSION and never falls. -/
def execVerAdv (m : Master) (v : Word) (s : State) : Step :=
  .next (s.regWrite m pBOOT Off.boot_VER_ADV fun t =>
    if !isKey v || !bitAt v 0 then t
    else
      let ver := max t.power.fuseVer t.power.bootedVer
      (t.onPower fun w => { w with fuseVer := ver }).setReg pBOOT Off.boot_SEC_VERSION (wd ver))

/-- VERIFY_CMD (R589): a check starts; while BUSY the write is discarded with STATE_WRITE. -/
def execVerifyCmd (m : Master) (v : Word) (s : State) : Step :=
  .next (s.regWrite m pBOOT Off.boot_VERIFY_CMD fun t =>
    let st := t.reg pBOOT Off.boot_VERIFY_STAT
    if bitAt st 0 then t.stateWrite pBOOT
    else if !bitAt v 0 then t
    else t.setReg pBOOT Off.boot_VERIFY_STAT (wd (1 + (bitAt st 3).toNat * 8)))

/-- An image at `a` is verified (R589, R590): VALID and ENTRY, and the range whose writes clear VALID. -/
def State.imageVerified (s : State) (a n entry : Nat) : State :=
  let s1 := (s.setReg pBOOT Off.boot_VERIFY_STAT (wd 10)).setReg64 pBOOT Off.boot_VERIFY_ENTRY_LO (Off.boot_VERIFY_ENTRY_LO + 4) entry
  s1.onPlat fun t => { t with verified := some (a, n) }

/-- VERIFY_DONE (R586, R589): the image at VERIFY_LO and VERIFY_HI is judged by R586's rules; poisoned data is a read error. -/
def execVerifyDone (s : State) : Step :=
  if !s.bit pBOOT Off.boot_VERIFY_STAT 0 then .next s
  else
    let a := s.reg64 pBOOT Off.boot_VERIFY_LO (Off.boot_VERIFY_LO + 4) / 4096 * 4096
    let h := s.busRead a 0x200
    let n := min 1048576 (imgLength h.1.bytes)
    let pay := h.2.busRead (a + 0x200) n
    let r := if h.1.bad then 6 else if !headerOk h.1.bytes then 1 else if pay.1.bad then 6 else s.imageReason h.1.bytes pay.1.bytes
    let t := if h.1.bad || !headerOk h.1.bytes then h.2 else pay.2
    if r = 0 then .next (t.imageVerified a (0x200 + n) (imgEntry h.1.bytes))
    else
      let valid := (t.bit pBOOT Off.boot_VERIFY_STAT 3).toNat
      .next ((t.setReg pBOOT Off.boot_VERIFY_STAT (wd (4 + valid * 8 + r * 16))).raise pBOOT 9)

/-! ## The boot flash -/

/-- An XSPI_CMD starts the operation of code `k`, unless one runs (R585, *BOOT page*); another code is no command. -/
def State.xspiStart (s : State) (m : Master) (v : Word) : State :=
  s.regWrite m pBOOT Off.boot_XSPI_CMD fun t =>
    if t.power.xspi.isSome || wfld v 0 2 == 0 then t.stateWrite pBOOT
    else (t.setFld pBOOT Off.boot_XSPI_STAT 0 3 1).onPower fun w => { w with xspi := some v }

/-- XSPI_READ (R585). -/
def execXspiRead (m : Master) (v : Word) (s : State) : Step := .next (s.xspiStart m v)
/-- XSPI_PROGRAM (R585). -/
def execXspiProgram (m : Master) (v : Word) (s : State) : Step := .next (s.xspiStart m v)
/-- XSPI_ERASE (R585). -/
def execXspiErase (m : Master) (v : Word) (s : State) : Step := .next (s.xspiStart m v)

/-- Store bytes in the flash. -/
def flashPut (m : List Host.Cell) (a : Nat) : List Byte → List Host.Cell
  | [] => m
  | b :: bs => flashPut (Map.put (fun _ => 0xFF) m a b) (a + 1) bs

/-- XSPI_DONE (R585): the operation ends; `ok` is the device's answer. A read goes to the buffer in DRAM, a program takes a page
from it and clears bits (notes/assumptions/72.md), an erase sets a sector's bytes to 0xFF. -/
def execXspiDone (ok : Bool) (s : State) : Step :=
  match s.power.xspi with
  | none => .next s
  | some v =>
    let a := (s.reg pBOOT Off.boot_XSPI_ADDR).toNat
    let buf := s.reg64 pBOOT Off.boot_XSPI_BUF_LO (Off.boot_XSPI_BUF_LO + 4) / 64 * 64
    let s0 := s.onPower fun w => { w with xspi := none }
    let fail := fun (t : State) => (t.setFld pBOOT Off.boot_XSPI_STAT 0 3 6).raise pBOOT 11
    let done := fun (t : State) => t.setFld pBOOT Off.boot_XSPI_STAT 0 3 2
    if !ok then .next (fail s0)
    else if wfld v 0 2 = 1 then .next (done (s0.busWrite pBOOT buf (s0.flashRead a (256 * wfld v 16 16))))
    else if wfld v 0 2 = 2 then
      let r := s0.busRead buf 256
      let page := a / 256 * 256
      let new := r.1.bytes.zipWith (· &&& ·) (s0.flashRead page 256)
      if r.1.bad then .next (fail r.2)
      else .next (done (r.2.onPower fun w => { w with flash := flashPut w.flash page new }))
    else .next (done (s0.onPower fun w => { w with flash := Map.keep (fun k => decide (k / 65536 ≠ a / 65536)) w.flash }))

/-! ## Steps of start-up -/

/-- Write the records that wait in Silk's input buffer. -/
def State.silkDrain (s : State) : State :=
  s.dep.silk.buf.foldl (fun t r => (t.onDep fun d => { d with silk := { d.silk with buf := d.silk.buf.erase r } }).silkWrite r) s

/-- A Silk record of page `p` whose low code byte the manual does not give. -/
def State.silkOpen (s : State) (p d0 d1 d2 : Nat) : State :=
  let k := s.drawNat
  k.2.silkDrain.silkOf p (k.1 % 256) d0 d1 d2

/-- Start-up halts at step `k` (R592). -/
def State.halt (s : State) (k : Nat) : State :=
  ((s.putBit pGLOBAL Off.global_START_STAT 5 true).setFld pGLOBAL Off.global_START_STAT 8 4 k).silkOpen pGLOBAL k 0 0

/-- Has start-up halted (START_STAT.HALTED)? -/
def State.halted (s : State) : Bool := s.bit pGLOBAL Off.global_START_STAT 5

/-- DOM_REQ and DOM_STAT of a domain are set at start-up. -/
def State.domSet (s : State) (d : Nat) : State := (s.putReq d true).putStat d true

/-- DATA_RATE in MT/s (*DRAMCOM page*). -/
def dataRate (k : Nat) : Nat :=
  match k with
  | 0 => 3200 | 1 => 4266 | 2 => 6400 | 3 => 7500 | _ => 8533

/-- Frequency of PLL `p` in MHz (*CLOCKS page*). -/
def State.pllMhz (s : State) (p : Nat) : Nat :=
  match p with
  | 0 => 250 | 1 => 1000 | 2 => 1000 | 3 => 1250 | 4 => 1600 | 5 => 800 | 6 => 500 | 7 => 1000
  | _ => dataRate (s.fld pDRAMCOM Off.dramcom_TOPO 2 3) / 2

/-- Step 3 (R591): the PLLs lock, the main region and the service-core groups are powered, and every pair enters BIST but those that
the SVC record shows RETIRED (R517). -/
def State.startMain (s : State) : State :=
  let s1 := (List.range 16).foldl (fun t p => t.setReg pCLOCKS (Off.clocks_PLL_STATp + 4 * p)
    (wd (1 + wfld (t.reg pCLOCKS (Off.clocks_PLL_STATp + 4 * p)) 8 8 * 256 + t.pllMhz p * 65536))) s
  let s2 := [106, 107, 108, 109].foldl State.domSet s1
  let rec_ := (s2.copyPayload 0x1600).getD []
  (List.range 8).foldl (fun t n =>
    let h := hdrNat rec_ (2 * n) 2
    let st := if h % 8 = 5 then 5 else 1
    let u := (t.setFld (pSVC n) Off.svc_STAT 4 2 (h / 8 % 4)).setFld (pSVC n) Off.svc_STAT 0 3 st
    ((u.modPair n fun _ => { bist := st == 1 }).silkDrain).silk 0x0906 (pSVC n) n 0 st) s2

/-- Step 4 (R585 to R587, R591): the record's TRIAL flag, then the preferred slot, then the other. -/
def State.startImage (s : State) (e : StartEnv) : State :=
  let r := (s.copyPayload 0x5800).getD []
  let s1 := s.onPower fun w => { w with pref := (hdrNat r 0 1).testBit 0, trial := (hdrNat r 0 1).testBit 1, tries := hdrNat r 1 1 }
  let s2 := if !s1.power.trial then s1
    else if s1.power.tries < 3 then (s1.onPower fun w => { w with tries := w.tries + 1 }).bootCommit
    else ((s1.onPower fun w => { w with pref := !w.pref, trial := false }).bootCommit).raise pBOOT 12
  let s3 := s2.setFld pBOOT Off.boot_XSPI_STAT 3 2 e.flash8d.toNat
  let first := s3.power.pref
  let r1 := s3.slotReason e.badSlots first
  let r2 := s3.slotReason e.badSlots (!first)
  let boot := fun (t : State) (b : Bool) (why : Nat) =>
    let h := (t.slotImage b).1
    let u := t.setReg pBOOT Off.boot_BOOT_STAT
      (wd (b.toNat + (decide (why ≠ 0)).toNat * 2 + hdrNat h 8 4 % 4 * 4 + why * 16 + t.power.trial.toNat * 256))
    (if why = 0 then u else u.raise pBOOT 8).onPower fun w =>
      { w with bootedVer := hdrNat h 12 4, bootedSlot := b, image := h ++ (t.slotImage b).2 }
  if r1 = 0 then (boot s3 first 0).stepDone 4
  else if r2 = 0 then (boot s3 (!first) r1).stepDone 4
  else (s3.setReg pBOOT Off.boot_BOOT_STAT (wd (first.toNat + r1 * 16 + s3.power.trial.toNat * 256))).halt 4

/-- The slots of the hardware records (*Cocoon areas*). -/
def recordSlots : List Nat :=
  [0, 0x1000, 0x1400, 0x1600, 0x1700] ++ (List.range 32).map (0x1800 + 0x100 * ·) ++ [0x3800, 0x5800] ++
    (List.range 16).map (0x10000 + 0x400 * ·) ++ (List.range 16).map (0x14000 + 0x200 * ·) ++ [0x90000] ++
    (List.range 64).map (0x91000 + 0x100 * ·)

/-- Step 5 (R520, R521, R591): every absent record is reported. -/
def State.startRecords (s : State) : State :=
  recordSlots.foldl (fun t o =>
    if (t.copyPayload o).isSome then t
    else (((t.raise pCOCOON 9).produce pCOCOON 1).silkOpen pCOCOON o 0 0)) s

/-- The assignment of R241 as the halfword of a MOULT_MAP. -/
def mapDefault (p : Nat) : Nat := if p < 256 then p else 0x1FF

/-- Step 6: the Moult map (R241, R507). An ID that the map gives to no engine is unmapped and waits for a spare. -/
def State.startMap (s : State) : State :=
  let r := s.copyPayload 0x1000
  let half := fun (p : Nat) => match r with
    | some b => hdrNat b (2 * p) 2
    | none => mapDefault p
  let s0 := (List.range 256).foldl (fun t e => t.setReg (pCLUS (e / 8)) (Off.clus_LMAP0 + 4 * (e % 8)) 0) s
  let s1 := (List.range 272).foldl (fun t p =>
    let h := half p
    let id := h % 512
    let u := t.modHealth p fun x => { x with condemned := id == 0x1FE, count := h / 1024 % 4, retired := h.testBit 12 }
    if id < 256 then u.setReg (pCLUS (id / 8)) (Off.clus_LMAP0 + 4 * (id % 8)) (wd (0x8000 + p))
    else
      let w := u.setSpare p (id == 0x1FF) (id == 0x1FE)
      if id = 0x1FE then w.putBit (pENG p) Off.hdr_PG_STAT 1 true else w) s0
  (List.range 256).foldl (fun t e =>
    if bitAt (t.lmap e) 15 then t
    else (t.putBit pWARDEN (Off.warden_UNMAPPED0 + 4 * (e / 32)) (e % 32) true).onDep fun d =>
      { d with moults := d.moults ++ [{ engine := e, logical := e, cause := 0, start := t.now, step := .waiting, threads := [] }] }) s1

/-- Step 6: the remap tables (R505). -/
def remapRows (put : State → Nat → Nat → Nat → State) : Nat → List Byte → State → State
  | 0, _, s => s
  | n + 1, b, s => if b.length < 8 then s else remapRows put n (b.drop 8) (put s (hdrNat b 0 2) (hdrNat b 2 1) (hdrNat b 4 4))

/-- Step 6 (R470, R505, R591): the Moult map, remap tables and page-retire tables of Cocoon are applied. -/
def State.startTables (s : State) : State :=
  let b := (s.copyPayload 0x3800).getD []
  let s1 := remapRows (fun t p k w => t.modScrub p k fun x => { x with remap := x.remap ++ [w] }) (b.length / 8) b s.startMap
  (List.range 16).foldl (fun t n => match t.copyPayload (0x14000 + 0x200 * n) with
    | none => t
    | some r =>
      let ws := bytesWords (min 64 (r.length / 4)) r
      (t.setRegs32 (pDRAM n) Off.dram_RETIRE ws).setFld (pDRAM n) Off.dram_RETIRE_STAT 0 7 ((ws.filter fun w => bitAt w 31).length)) s1

/-- The byte lanes' values as one register word. -/
def laneWord (l : List Nat) : Word := wd (l.zipIdx.foldl (fun a e => a + e.1 % 256 * 256 ^ e.2) 0)

/-- Differ two registers of delays by 2 taps or more in some lane (R465, step 6)? -/
def tapsFar (a b : Word) : Bool := (List.range 4).any fun i => decide (laneOf a i + 2 ≤ laneOf b i) || decide (laneOf b i + 2 ≤ laneOf a i)

/-- The controller enters RUN with the delays given (R465, step 3). -/
def State.dramEnter (s : State) (n : Nat) (rd wr : Word) (fast : Bool) : State :=
  ((s.setReg (pDRAM n) Off.dram_CUR_RD rd).setReg (pDRAM n) Off.dram_CUR_WR wr).setReg (pDRAM n) Off.dram_STATE (wd (2 + fast.toNat * 64))

/-- DRAM_TRAINING (R465, R574): FIXED delays; contents kept through self-refresh with the delays used before; the stored delays of
Cocoon after a pattern check; or a blocking sweep, which fails where a lane has no eye. -/
def State.dramTrain (s : State) (n : Nat) (x : Train) : State :=
  let p := pDRAM n
  if s.bit p Off.dram_TRAIN 0 then s.dramEnter n (s.reg p Off.dram_FIX_RD) (s.reg p Off.dram_FIX_WR) false
  else if !s.power.dramLost then s.setReg p Off.dram_STATE 2
  else
    let r := (s.copyPayload (0x10000 + 0x400 * n)).getD []
    let rd := wd (hdrNat r 4 4)
    let wr := wd (hdrNat r 8 4)
    let stored := decide (12 ≤ r.length) && x.ident && hdrNat r 0 4 == s.fld pDRAMCOM Off.dramcom_TOPO 2 3
    if stored && x.ok then s.dramEnter n rd wr true
    else
      let s1 := if stored then s.raise p 14 else s
      let s2 := (if 0 < x.fails then (s1.raise p 10).produce p 2 else s1).setReg p Off.dram_STATE 1
      let lanes := fit 4 (0, 0, 0, 0) x.lanes
      let s3 := s2.setReg p Off.dram_EYE (laneWord (lanes.map fun l => l.2.2.2))
      if lanes.any fun l => l.2.2.2 == 0 then (s3.raise p 10).produce p 2
      else
        let narrow := lanes.any fun l => decide (l.2.2.2 < s.fld p Off.dram_TRAIN 8 8)
        let s4 := if narrow then (s3.raise p 9).produce p 2 else s3
        let nrd := laneWord (lanes.map (·.1))
        let nwr := laneWord (lanes.map fun l => l.2.1)
        let s5 := s4.dramEnter n nrd nwr false
        if r.length < 12 || tapsFar rd nrd || tapsFar wr nwr then s5.cocoonPut (s5.trainRecord n) else s5

/-- Step 7 (R465, R591, R592). -/
def State.startDram (s : State) (e : StartEnv) : State :=
  let s1 := (List.range 8).foldl (fun t k => if 2 * k < s.controllers then t.domSet (98 + k) else t) s
  let s2 := (List.range s.controllers).foldl (fun t n => t.dramTrain n (e.train.getD n {})) s1
  if (List.range s.controllers).any fun n => s2.fld (pDRAM n) Off.dram_STATE 0 3 ≠ 2 then s2.halt 7
  else (s2.onPower fun w => { w with dramLost := false }).stepDone 7

/-- The self-test (R505): failing words are remapped while remap words remain, otherwise the block is fenced; a checker that does not
flag its pattern fences its block and sets CHECKER_FAIL. -/
def State.selfTest (s : State) (e : StartEnv) : State :=
  let s1 := e.memBad.foldl (fun t x =>
    let full := decide (x.2.2.2 ≤ (t.scrubber x.1 x.2.1).remap.length)
    let u := (t.silkDrain).sramHard x.1 x.2.1 x.2.2.1 x.2.2.2
    if full && x.1 ≠ pCOCOON then u.fenceNow x.1 1 0 else u) s
  e.checkers.foldl (fun t p => (t.silkDrain.fenceNow p 1 0).raise pWARDEN 14) s1

/-- Store a list of bytes by writes of a 64-byte block. -/
def State.loadBytes (s : State) (a : Nat) (bs : List Byte) : State := (pieces (bs.length + 1) a bs).foldl (fun t x => t.busWrite pBOOT x.1 x.2) s

/-- Step 8 (R505, R590, R591): the domains are on, self-test, the payload at LOAD_ADDR as a verified image, BOOT of every pair, pair 0
ACTIVE and the others QUIESCED; the engines' BIST begins. -/
def State.startHandover (s : State) (e : StartEnv) : State :=
  let h := s.power.image.take 0x200
  let pay := s.power.image.drop 0x200
  let s1 := (List.range 112).foldl (fun t d => if 98 ≤ d ∧ d < 106 then t else t.domSet d) s
  let s2 := ((s1.selfTest e).silkDrain).loadBytes (imgLoad h) pay
  let s3 := (s2.imageVerified (imgLoad h) pay.length (imgEntry h)).onPower fun w => { w with firstStage := true }
  let s4 := (List.range 8).foldl (fun t n => t.setReg64 (pSVC n) Off.svc_BOOT_LO (Off.svc_BOOT_LO + 4) (imgEntry h)) s3
  let s5 := (List.range 8).foldl (fun t n =>
    if t.pairState n = 1 ∨ t.pairState n = 2 then
      (t.modPair n fun _ => { bist := false, running := true }).setPair n (if n = 0 then 3 else 2)
    else t) s4
  let s6 := (List.range 272).foldl (fun t p => if (t.health p).condemned then t else t.setReg (pENG p) Off.eng_BIST_STAT 3) s5
  (s6.setReg pGLOBAL Off.global_T_HANDOVER (wd ((s.now - s.power.goodAt) / 250000))).stepDone 8

/-- May step `k` begin (R591, R632, R633)? -/
def State.stepReady (s : State) (k : Nat) : Bool :=
  if k = 2 then !s.power.resetHeld
  else if k = 3 then
    Nat.land (s.fld pSAFETY Off.safety_SUP_STAT 0 16) 0xFC3 == 0 && s.power.mainPwrEn &&
      (match s.power.mainAt with
       | some t => decide (t + 250000 ≤ s.now)
       | none => true)
  else true

/-- One step of *Start-up sequence*. -/
def State.startStep (s : State) (e : StartEnv) (k : Nat) : State :=
  match k with
  | 1 => (((s.putBit pCLOCKS Off.clocks_OSC_STAT 0 true).onPower fun w => { w with relAt := s.now }).onEvf fun x => { x with win := 0 }).stepDone 1
  | 2 => (s.fuseLoad e.fuseErr).stepDone 2
  | 3 => s.startMain.stepDone 3
  | 4 => s.startImage e
  | 5 => s.startRecords.stepDone 5
  | 6 => s.startTables.stepDone 6
  | 7 => s.startDram e
  | 8 => s.startHandover e
  | _ => s

/-- The steps up to `upTo`, as far as their conditions hold. -/
def State.startRun (s : State) (e : StartEnv) (upTo : Nat) : Nat → State
  | 0 => s
  | n + 1 =>
    let k := s.power.steps + 1
    if upTo < k || 8 < k || s.halted || !s.stepReady k then s else (s.startStep e k).startRun e upTo n

/-- START_UP (R465, R591, R592): a restart that waited for the power-fail snapshot begins; then the steps up to `upTo` run with what
the environment `e` meets. -/
def execStartUp (upTo : Nat) (e : StartEnv) (s : State) : Step :=
  match s.power.waitCause with
  | some c => if s.pfwBusy then .next s else .next (((s.onPower fun w => { w with waitCause := none }).restart c 2).startRun e upTo 8)
  | none =>
    if !s.power.pwrGood || s.power.pfwHold || 2 ≤ s.fld (pPWR 1) Off.pwr1_STATE 0 2 then .next s
    else .next (s.startRun e upTo 8)

/-- START_UP_FULL (R591, R593): step 9 has ended, every running controller has had a background sweep lap or runs FIXED, and the
records have been applied. -/
def execStartUpFull (s : State) : Step :=
  let bist := (List.range 272).any fun p => s.fld (pENG p) Off.eng_BIST_STAT 0 2 == 3
  let fixed := (List.range s.controllers).all fun n => s.bit (pDRAM n) Off.dram_TRAIN 0
  if s.power.steps ≠ 8 || bist || !(s.power.sweepLap || fixed) then .next s
  else
    let s1 := (s.stepDone 9).putBit pGLOBAL Off.global_START_STAT 4 true
    .next (s1.setReg pGLOBAL Off.global_T_FULL (wd ((s.now - s.power.goodAt) / 250000)))

/-! ## Resets -/

/-- PWR_GOOD_RISE (R56, R594, R635): TIME and Silk start anew with RESET_CAUSE 0; `pfwLow` holds start-up; `ram`: rail 2 stayed in its
window. -/
def execPwrGoodRise (pfwLow ram : Bool) (s : State) : Step :=
  if s.power.pwrGood then .next s
  else .next ((s.wiped false ram false).onPower fun w => { w with pwrGood := true, goodAt := s.now, pfwHold := pfwLow, mainPwrEn := true, mainAt := none })

/-- PWR_GOOD_FALL (R631): every part is reset. -/
def execPwrGoodFall (s : State) : Step := .next ((s.wiped false true false).onPower fun w => { w with pwrGood := false })

/-- RESET_N (R594, R633): low for 1 µs it restarts with cause 1 and holds start-up before step 2; `level` is the filtered level. -/
def execResetN (level : Bool) (s : State) : Step :=
  if level then .next (s.onPower fun w => { w with resetHeld := false })
  else if s.power.resetHeld then .next s
  else
    let t := s.onPower fun w => { w with resetHeld := true }
    .next (if s.power.pwrGood then t.restartReq 1 else t)

/-- RESET_CMD (R594): FULL with KEY restarts with cause 2. -/
def execResetCmd (m : Master) (v : Word) (s : State) : Step :=
  .next (s.regWrite m pGLOBAL Off.global_RESET_CMD fun t => if isKey v && bitAt v 0 then t.restartReq 2 else t)

/-- PFW_N_RELEASE (R594, R635): PFW_N has been high for 10 ms. -/
def execPfwNRelease (s : State) : Step :=
  if s.power.pfwHold then .next (s.onPower fun w => { w with pfwHold := false })
  else if s.dep.pfw && s.power.pwrGood then .next (s.restartReq 5)
  else .next s

/-- MAIN_RAIL_TIMEOUT (R632): 50 ms after MAIN_PWR_EN rose again the main rails are not all in window. -/
def execMainRailTimeout (s : State) : Step :=
  match s.power.mainAt with
  | none => .next s
  | some t =>
    if s.power.steps ≠ 2 || s.halted || s.now < t + 12500000 || Nat.land (s.fld pSAFETY Off.safety_SUP_STAT 0 16) 0xFC3 == 0 then .next s
    else .next (s.halt 3)

/-- PLL_LOSS_OF_LOCK (R595): PLL `p` loses lock; `locked` is LOCK afterwards. -/
def execPllLossOfLock (p : Nat) (locked : Bool) (s : State) : Step :=
  let o := Off.clocks_PLL_STATp + 4 * (p % 16)
  if s.power.steps = 0 then .next s
  else .next (((s.count pCLOCKS o 8 8 1).putBit pCLOCKS o 0 locked).raise pCLOCKS 8)

end Sys2Proof.Machine
end

