-- ==== Sys2Proof/Machine/Fabric.lean ====
section
/-!
DEFINITION. The main fabric's arbitration: the classes of its transactions (R24, R25), the reservations (R26, R28) and the grants
(R26, R27, R46, R49).
-/

namespace Sys2Proof.Machine

open Sys2Proof

/-- The class of a block that issues one class only (*QoS classes*); blocks that the table does not name issue class 2
(notes/assumptions/160.md). -/
def blockClass (p : Nat) : Nat :=
  match pageKind p with
  | .eye | .warden | .silk => 0
  | .intake | .tdm | .mac => 1
  | .maint => 3
  | _ => 2

/-- The class of a transaction (R24, R25, R214, R252). -/
def State.trafficClass (s : State) : Traffic → Nat
  | .block p => blockClass p
  | .branch n c => if cfgSafety (s.pctx (ctxKey n c)).cfg then 0 else 2
  | .layer h l => if s.layerSafety h l then 0 else 1
  | .engine p t => ((s.thr p t).wi.map (·.cls)).getD 3
  | .dma p t => ((s.thr p t).dmaQ.head?.map (·.cls)).getD 3
  | .engineLoad _ | .scrub _ => 3

/-- The page of the block that issues a transaction. -/
def trafficPage : Traffic → Nat
  | .block p => p
  | .branch n _ => pPIPE n 0
  | .layer h _ => pDISP h
  | .engine p _ | .dma p _ | .engineLoad p => pENG p
  | .scrub n => pDRAM n

/-- Ticks of a measuring window of the reservations (notes/assumptions/160.md). -/
def qosWindow : Nat := Config.qosWindow + 1

/-- Bytes of class 0 or 1 that controller `n`'s reservation allows in a window (RES_n, in 0.1 GB/s; R28). -/
def State.resBytes (s : State) (n cls : Nat) : Nat :=
  s.fld pDRAMCOM (Off.dramcom_RES_n + 4 * n) (8 * cls) 8 * 4 * qosWindow / 10

/-- Bytes that a class has used at controller `n` in the current window. -/
def State.resUsed (s : State) (n cls : Nat) : Nat :=
  let p := s.arb n
  if p.win = s.now / qosWindow then (if cls = 0 then p.used0 else p.used1) else 0

/-- Is a request of class 0 or 1 within its controller's reservation (R26, R28)? -/
def State.resWithin (s : State) (r : FabReq) : Bool :=
  decide (r.cls < 2) && decide (r.ctl < 16) && decide (s.resUsed r.ctl r.cls + r.bytes ≤ s.resBytes r.ctl r.cls)

/-- The group of R26 a request falls in: 1 class 0 and 2 class 1 within their reservations, 3 class 2 and whatever is
beyond a reservation, 4 class 3. -/
def State.fabGroup (s : State) (r : FabReq) : Nat :=
  if r.cls = 3 then 4 else if s.resWithin r then r.cls + 1 else 3

/-- Is request `a` granted before `b` (R26): the lower group, and within group 3 the older one? Inside the other
groups the order is not stated; the older request goes first (notes/assumptions/21.md). -/
def State.fabBefore (s : State) (a b : FabReq) : Bool :=
  decide (s.fabGroup a < s.fabGroup b) || (decide (s.fabGroup a = s.fabGroup b) && decide (a.age < b.age))

/-- The first request in grant order. -/
def State.firstReq (s : State) : List FabReq → Option FabReq
  | [] => none
  | r :: rs => match s.firstReq rs with
    | none => some r
    | some b => if s.fabBefore b r then some b else some r

/-- The arriving requests with their classes and arrival numbers. -/
def State.arrive (s : State) (n : Nat) : List (Traffic × Nat × Nat) → List FabReq
  | [] => []
  | (t, c, b) :: rest => ⟨s.trafficClass t, trafficPage t, c, b, n⟩ :: s.arrive (n + 1) rest

/-- Controller `n` grants a request: it is accepted, and its bytes count against its class's reservation (R26, R28, R214). -/
def ArbPoint.grant (p : ArbPoint) (now : Nat) (r : FabReq) : ArbPoint :=
  let w := now / qosWindow
  let u0 := if p.win = w then p.used0 else 0
  let u1 := if p.win = w then p.used1 else 0
  { p with accepted := p.accepted ++ [(now, r)], win := w, used0 := if r.cls = 0 then u0 + r.bytes else u0,
           used1 := if r.cls = 1 then u1 + r.bytes else u1 }

/-- FABRIC_TRANSACTION (R24 to R27, R46, R47, R49): requests (transaction, controller or 16, bytes) reach arbitration point `n`;
those of fenced masters are dropped, a grant of the tick of its master's fence too; one request is granted by R26, and at a
controller, while class 3 waits, the sixteenth grant goes to class 3 (R27; notes/assumptions/21.md). -/
def execFabricTransaction (n : Nat) (reqs : List (Traffic × Nat × Nat)) (s : State) : Step :=
  let p := s.arb n
  let new := s.arrive p.arrivals (reqs.filter fun r => !s.fenced (trafficPage r.1))
  let wait := (p.wait ++ new).filter fun r => !s.fenced r.page
  let held := p.accepted.filter fun e => !s.fenced e.2.page || decide (e.1 < (s.pageRt e.2.page).fencedAt)
  let bulk := wait.filter fun r => r.cls = 3
  let pick := if n < 16 ∧ 15 ≤ p.sinceBulk ∧ bulk ≠ [] then s.firstReq bulk else s.firstReq wait
  match pick with
  | none => .next (s.modArb n fun _ => { p with wait := wait, arrivals := p.arrivals + new.length, accepted := held })
  | some r =>
    let q := { p with wait := wait.filter (· != r), arrivals := p.arrivals + new.length, last := some r, accepted := held,
                      sinceBulk := if r.cls = 3 ∨ bulk = [] then 0 else p.sinceBulk + 1 }
    .next (s.modArb n fun _ => if n < 16 then q.grant s.now r else q)

end Sys2Proof.Machine
end

