-- ==== Sys2Proof/Machine/Swift.lean ====
section
/-!
DEFINITION. The physical layer of the Swift lanes: transmit equalisation and eye scans (R643, R644).
-/

namespace Sys2Proof.Machine

open Sys2Proof

/-- EYE_SCAN_GO (R644, R613): a scan of lane `n` starts; a GO while BUSY is discarded with STATE_WRITE. -/
def execEyeScanGo (m : Master) (n : Nat) (v : Word) (s : State) : Step :=
  let p := pSWIFT n
  .next (s.regWrite m p Off.swift_EYE_CMD fun t =>
    if !bitAt v 0 then t
    else if t.bit p Off.swift_EYE_STAT 0 then t.stateWrite p
    else t.setReg p Off.swift_EYE_STAT 1)

/-- The scan of lane `n` ends with a status and a count of errors. -/
def State.eyeScanEnd (s : State) (n status errs : Nat) : State :=
  let p := pSWIFT n
  (s.setReg p Off.swift_EYE_STAT (wd (2 + status * 4))).setReg64 p Off.swift_EYE_ERR_LO Off.swift_EYE_ERR_HI errs

/-- EYE_SCAN_ABORT (R644): the scan ends with status 1; what it has counted so far is open. -/
def execEyeScanAbort (m : Master) (n : Nat) (v : Word) (s : State) : Step :=
  let p := pSWIFT n
  .next (s.regWrite m p Off.swift_EYE_CMD fun t =>
    if !bitAt v 1 then t
    else if !t.bit p Off.swift_EYE_STAT 0 then t.stateWrite p
    else
      let e := t.drawNat
      e.2.eyeScanEnd n 1 (e.1 % 2 ^ 64))

/-- EYE_SCAN_DONE (R644): the scan has compared 2^DWELL bits with `errs` errors, or the lane was lost first; with PROTO 0 it is. -/
def execEyeScanDone (n errs : Nat) (lost : Bool) (s : State) : Step :=
  let p := pSWIFT n
  if !s.alive p || !s.bit p Off.swift_EYE_STAT 0 then .next s
  else .next (s.eyeScanEnd n (if lost || s.fld p Off.swift_LANE_CFG 0 3 == 0 then 2 else 0) errs)

/-- Registers of a Swift lane that are views: the Ethernet registers read 0 while PROTO is not 1, and RX_EQ reports the
equaliser of a lane in use (R643). -/
def State.viewSwift (s : State) (p o : Nat) : Option Word :=
  if pageKind p ≠ .swift then none
  else if Off.swift_ETH_LSTAT ≤ o ∧ o < 0x1B0 ∧ s.fld p Off.swift_LANE_CFG 0 3 ≠ 1 then some 0
  else if o = Off.swift_RX_EQ ∧ s.fld p Off.swift_LANE_CFG 0 3 ≠ 0 then
    some (wd ((Config.rxEq p s.now).1 % 32 + (Config.rxEq p s.now).2 % 256 * 256))
  else none

/-- TX_EQ_WRITE (R643, R644, R612): PRE to 10 and POST to 16, else CFG_INVALID; taken while the lane is idle. -/
def execTxEqWrite (m : Master) (n : Nat) (v : Word) (s : State) : Step :=
  let p := pSWIFT n
  .next (s.regWrite m p Off.swift_TX_EQ fun t =>
    if 10 < wfld v 0 4 ∨ 16 < wfld v 8 5 then t.raise p 8 else t.storeFields p Off.swift_TX_EQ (t.pageIdle p) v)

end Sys2Proof.Machine
end

