-- ==== Sys2Proof/Machine/RegRead.lean ====
section
/-!
DEFINITION. Reads: what a register shows, what a read of it does, and what answers at every address that a service core,
the host or the maintenance port can read (R52, R136, R567, R596 to R603, R614 to R620).
-/

namespace Sys2Proof.Machine

open Sys2Proof

/-- The state after a step's meaning. -/
def after (s : State) (x : Step) : State :=
  match x with
  | .next t => t
  | _ => s

/-! ## What a register shows -/

/-- Offsets of the registers that a page's table defines. -/
def tableOffsets (p : Nat) : List Nat :=
  (regTable p).flatMap fun r => (List.range r.n2).flatMap fun j => (List.range (max 1 r.n)).map fun i =>
    r.off + r.stride2 * j + r.stride * i

/-- A register of access RO or RC (or WO): no bit of it is written by software (R603). -/
def roRegister (p o : Nat) : Bool :=
  match regDesc p o with
  | some d => d.rw == 0 && d.rws == 0 && d.rwi == 0 && d.w1c == 0 && d.w1s == 0
  | none => false

/-- Offset of a page's register whose bit 0 shows a command that takes until a row of its own. -/
def busyStat (p : Nat) : Nat :=
  match pageKind p with
  | .clus => Off.clus_LOAD_STAT
  | .disp => Off.disp_AUX_STAT
  | .cocoon => Off.cocoon_WR_STAT
  | .boot => Off.boot_VERIFY_STAT
  | .swift => Off.swift_EYE_STAT
  | .silk => Off.silk_SNAP_STAT
  | _ => 0

/-- Is a command of page `p` in progress (*PG_STAT fields*)? -/
def State.pageCmd (s : State) (p : Nat) : Bool :=
  (s.pageRt p).cmds.any (fun e => decide (s.now < e.2)) || (busyStat p != 0 && s.bit p (busyStat p) 0) ||
    (decide (p = pBOOT) && s.bit p Off.boot_XSPI_STAT 0) || (decide (pageKind p = .clus) && s.bit p Off.clus_BIST_STAT 0) ||
    (decide (pageKind p = .sens) && decide (p % 2 = 0) && (s.i3c ((p - 0x60) / 2)).busy)

/-- Header registers that the model computes: PG_CTRL, PG_STAT, PG_SHADOW, PG_LOCK (*The common page header*). -/
def State.headerView (s : State) (p o : Nat) : Option Word :=
  if pageKind p = .ctiWin then none
  else if o = Off.hdr_PG_CTRL then some (setBit (setBit (s.reg p o) 1 (s.fenced p)) 2 false)
  else if o = Off.hdr_PG_STAT then
    some (wd ((s.powered p && !s.pageIdle p).toNat + (s.fenced p).toNat * 2 + ((s.pageRt p).busy || s.pageCmd p).toNat * 4 + (s.powered p).toNat * 8))
  else if o = Off.hdr_PG_SHADOW then
    let w := s.reg p o
    let fixed := match pageKind p with
      | .disp | .eye => 3
      | .tdm => 2
      | _ => wfld w 1 3
    some (wset (setBit w 0 (bitAt w 8)) 1 3 fixed)
  else if o = Off.hdr_PG_LOCK then
    some (wd (match (s.pageRt p).unlock with
      | some (m, _) => 2 ^ 16 + masterCode m * 2 ^ 17
      | none => 0))
  else none

/-- A register that some block computes from its state. -/
def State.viewOf (s : State) (p o : Nat) : Option Word :=
  s.headerView p o <|> s.viewTime p o <|> s.viewEvents p o <|> s.viewQueues p o <|> s.viewDram p o <|> s.viewCapture p o <|>
    s.viewSensors p o <|> s.viewPipes p o <|> s.viewSwarm p o <|> s.viewCodec p o <|> s.viewDisplay p o <|> s.viewAudio p o <|>
    s.viewNet p o <|> s.viewStor p o <|> s.viewBlackBox p o <|> s.viewWarden p o <|> s.viewFuSa p o <|> s.viewPower p o <|> s.viewSwift p o

/-- The live value that a read shows: 0 where the page defines nothing (R599), the shadow copy of RWS fields (R608), BUSY
while a command of the register takes its time. -/
def State.liveReg (s : State) (p o : Nat) : Word :=
  match regDesc p o with
  | none => 0
  | some d =>
    let v := match s.viewOf p o with
      | some v => v
      | none => if d.rws = 0 then s.reg p o else mergeMask d.rws (s.reg p o) (s.shadowOf p o)
    if (s.pageRt p).cmds.any fun e => e.1 == o then setBit v 0 (bitAt v 0 || s.cmdBusy p o) else v

/-- Does a page still show its latched values: while FREEZE is 1, and in the tick that clears it (R603)? -/
def State.holdsFrozen (s : State) (p : Nat) : Bool :=
  match (s.pageRt p).thaw with
  | some t => decide (s.now ≤ t)
  | none => true

/-- The value latched by FREEZE, if the page shows it. -/
def State.frozenReg (s : State) (p o : Nat) : Option Word :=
  if s.holdsFrozen p then Map.get (fun _ => none) s.frozen (rg p o) else none

/-- The frozen value, or the live one. -/
def State.heldReg (s : State) (p o : Nat) : Word := (s.frozenReg p o).getD (s.liveReg p o)

/-- What a read shows: a word latched with its low word (R52) before the held value. -/
def State.shownReg (s : State) (p o : Nat) : Word :=
  match s.frozenReg p o with
  | some v => v
  | none => (Map.get (fun _ => none) s.latch (rg p o)).getD (s.liveReg p o)

/-- FREEZE latches every RO and RC register of a page (R603). -/
def State.freezePage (s : State) (p : Nat) : State :=
  (Off.hdr_PG_STAT :: tableOffsets p).foldl (fun t o =>
    if roRegister p o then t.onFrozen fun f => Map.put (fun _ => none) f (rg p o) (some (s.liveReg p o)) else t)
    (s.modPage p fun r => { r with thaw := none })

/-! ## What a read does -/

/-- The words that a read of a low word latches (R52, R617 and the register tables). -/
def latchOffs (p o : Nat) : List Nat :=
  match pageKind p with
  | .timebase =>
    if o = Off.timebase_TIME_SEC_LO then [0x104, 0x108, 0x10C]
    else if o = Off.timebase_SNAP_TIME then [0x144, 0x148, 0x14C] else []
  | .dist => if 0x100 ≤ o ∧ o < 0x200 ∧ o % 0x40 = 0x18 then [o + 4] else []
  | .phase => if 0x100 ≤ o ∧ o < 0x180 ∧ o % 0x40 = 0x10 then [o + 4] else []
  | .lineview =>
    if (Off.lineview_LINE0 ≤ o ∧ o < 0x140 ∨ Off.lineview_SLINE0 ≤ o ∧ o < 0x400) ∧ o % 8 = 0 then [o + 4] else []
  | .eng => if o = Off.eng_RETIRED_LO then [o + 4] else []
  | .tdm => if o = Off.tdm_FS_TIME_LO then [o + 4] else []
  | .ptp => if o = Off.ptp_PENDING_JUMP_LO then [o + 4] else []
  | .nvmh => if o = Off.nvmh_CAP_LO then [o + 4] else []
  | .dramcom => if o = Off.dramcom_WINDOW_LO then [o + 4] else []
  | .swift => if o = Off.swift_EYE_ERR_LO then [o + 4] else []
  | _ => []

/-- Latch the other words of the value whose low word is read; a read of SNAP_TIME_SEC_LO also clears SNAP_STAT.VALID. -/
def State.latchRead (s : State) (p o : Nat) : State :=
  let s1 := (latchOffs p o).foldl (fun t q => t.onLatch fun l => Map.put (fun _ => none) l (rg p q) (some (s.heldReg p q))) s
  if p = pTIMEBASE ∧ o = Off.timebase_SNAP_TIME then s1.putBit p Off.timebase_SNAP_STAT 0 false else s1

/-- Store what is left of an RC register after a read: FOC_CNT and the filter counters stand in their blocks' own state. -/
def State.rcStore (s : State) (p o : Nat) (v : Word) : State :=
  if pageKind p = .pipeFocus ∧ o = Off.pipeFocus_FOC_CNT then
    s.modPctx (ctxKey ((p - 0x180) / 16) (s.fld p Off.pipeFocus_FOC_SEL 0 6)) fun c => { c with focCnt := v.toNat }
  else if pageKind p = .tsn ∧ 0x230 ≤ o ∧ o < 0x240 then
    s.modFilt (s.filtSel (p - pTSN 0)) fun x => { x with cnt := (fit 4 0 x.cnt).set ((o - 0x230) / 4) v.toNat }
  else s.setReg p o v

/-- RC registers that hold an extreme, not a count: a read of one while frozen clears it only if it has not moved since
(notes/assumptions/92.md). -/
def extremeReg (p o : Nat) : Bool :=
  match pageKind p with
  | .pipeCtl => o == Off.pipeCtl_SWITCH_MAX
  | .pipeLut => o == Off.pipeLut_LUT_WAIT_MAX
  | .lineview => decide (0x500 ≤ o) && (o % 0x40 == 0x14 || o % 0x40 == 0x18)
  | .dlk => o == Off.dlk_SKEW_MAX
  | .sens => o == Off.sens_I3C_IBI
  | _ => false

/-- The read of an RC register takes it back to its reset value; while frozen it takes the latched value off the live count
(R603, R614). A read of I3C_IBI also clears its mark in I3C_STAT. -/
def State.rcRead (s : State) (p o : Nat) : State :=
  let live := s.liveReg p o
  let s1 := match s.frozenReg p o with
    | none => s.rcStore p o (resetAt p o)
    | some v =>
      let left := if extremeReg p o then (if live = v then resetAt p o else live) else live - v
      (s.rcStore p o left).onFrozen fun f => Map.put (fun _ => none) f (rg p o) (some (resetAt p o))
  if pageKind p = .sens ∧ o = Off.sens_I3C_IBI then s1.putBit p Off.sens_I3C_STAT 3 false else s1

/-- A read of BC_RX1 pops the back-channel receive queue, one of I3C_RXDATA takes 4 bytes from its FIFO (R118, R131). -/
def State.popRead (s : State) (p o : Nat) : State :=
  match pageKind p with
  | .dlk => if o = Off.dlk_BC_RX1 then s.modDlk (p - pDLK 0) fun x => { x with rx := x.rx.drop 1 } else s
  | .sens => if p % 2 = 0 ∧ o = Off.sens_I3C_RXDATA then s.modI3c ((p - pSENS 0) / 2) fun x => { x with rx := x.rx.drop 4 } else s
  | _ => s

/-- The value of a register's read and its effects, once the page answers. -/
def State.readReg (s : State) (p o : Nat) : Word × State :=
  let rc := ((regDesc p o).map (·.rc)).getD 0
  let s1 := (s.latchRead p o).popRead p o
  (s.shownReg p o, if rc = 0 then s1 else s1.rcRead p o)

/-- A read of page `p` at offset `o` (R567, R599, R602, R615, R620). TBL_DATA has its own meaning (R155). -/
def State.readPage (s : State) (m : Master) (p o : Nat) : State :=
  let off := (p - 0x180) % 16
  if (0x180 ≤ p ∧ p < 0x200 ∧ off ≤ 8 ∧ 1 ≤ off) ∧ o = Off.pipeStage_TBL_DATA then
    after s (execTblDataRead m ((p - 0x180) / 16) off s)
  else s.regRead m p o fun t => t.readReg p o

/-! ## Platform registers -/

/-- mtime (R37, R617): 100 MHz of the main oscillator since its last start. -/
def State.mtime (s : State) : Nat := (s.now - s.plat.mtimeBase) * 2 / 5 % 2 ^ 64

/-- MTIP of core `h` follows mtime and mtimecmp (R617). -/
def State.mtimeCheck (s : State) (h : Nat) : State :=
  s.onPlat fun t => { t with mtip := Map.put (fun _ => false) t.mtip h (decide (Map.get (fun _ => 0) t.mtimecmp h ≤ s.mtime)) }

/-- Pages whose interrupt line is 1 (R607). -/
def State.linesUp (s : State) : List Nat :=
  (s.regs.filter fun e => e.1 % 4096 == Off.hdr_PG_INT_STAT && decide (e.1 / 4096 < 1024) && s.intLine (e.1 / 4096)).map (·.1 / 4096)

/-- The level gateways of the PLIC (R616): a source whose line is 1 and that is not claimed becomes pending. -/
def State.plicGateway (s : State) : State :=
  s.linesUp.foldl (fun t p =>
    if Map.get (fun _ => false) t.plat.plicClaimed (p + 1) then t
    else t.onPlat fun x => { x with plicPending := Map.put (fun _ => false) x.plicPending (p + 1) true }) s

/-- A PLIC register, by offset (R616). -/
def State.plicReg (s : State) (o : Nat) : Word := Map.get (fun _ => 0) s.plat.plicRegs o

/-- Is source `i` enabled for context `c`? -/
def State.plicEnabled (s : State) (c i : Nat) : Bool := bitAt (s.plicReg (0x2000 + 0x80 * c + i / 32 * 4)) (i % 32)

/-- The source that a claim of context `c` takes: of the pending, enabled ones with a priority above 0 the one of highest priority,
the lowest number first (R616; RISC-V PLIC). -/
def State.plicBest (s : State) (c : Nat) : Nat :=
  (s.plat.plicPending.foldl (fun (best : Nat × Nat) e =>
    let pr := (s.plicReg (4 * e.1)).toNat
    if s.plicEnabled c e.1 && decide (best.2 < pr) then (e.1, pr) else best) (0, 0)).1

/-- Does context `c`'s external interrupt signal stand (R616): a pending, enabled source above its threshold? -/
def State.plicSignal (s : State) (c : Nat) : Bool :=
  decide ((s.plicReg (0x200000 + 0x1000 * c)).toNat < (s.plicReg (4 * s.plicBest c)).toNat) && decide (s.plicBest c ≠ 0)

/-- A read of the PLIC (R616): priorities, pending bits, enables, thresholds, and the claim. -/
def State.plicRead (s0 : State) (o : Nat) : State :=
  let s := s0.plicGateway
  if 0x1000 ≤ o ∧ o < 0x1080 then
    s.answer (wd ((List.range 32).foldl (fun a j =>
      a + (Map.get (fun _ => false) s.plat.plicPending (8 * (o - 0x1000) + j)).toNat * 2 ^ j) 0))
  else if 0x200000 ≤ o ∧ o < 0x210000 ∧ o % 0x1000 = 4 then
    let i := s.plicBest ((o - 0x200000) / 0x1000)
    if i = 0 then s.answer 0
    else (s.onPlat fun x => { x with plicPending := Map.put (fun _ => false) x.plicPending i false,
                                     plicClaimed := Map.put (fun _ => false) x.plicClaimed i true }).answer (wd i)
  else s.answer (s.plicReg o)

/-- Answer a read of 32 or 64 bits. -/
def State.answerNat (s : State) (len v : Nat) : State :=
  s.onResp fun _ => { value := wd v, words := if len = 8 then [wd v, wd (v / 2 ^ 32)] else [] }

/-- A read of the core-local timer region at offset `o` (R617). -/
def State.timerRead (s : State) (o len : Nat) : State :=
  if ¬ ((len = 4 ∨ len = 8) ∧ o % len = 0) then s.answerErr
  else if o = 0x800 ∧ len = 4 then
    (s.onPlat fun t => { t with mtimeLatch := some (wd (s.mtime / 2 ^ 32)) }).answer (wd s.mtime)
  else if o = 0x804 then s.answer (s.plat.mtimeLatch.getD (wd (s.mtime / 2 ^ 32)))
  else if o = 0x800 then s.answerNat 8 s.mtime
  else if o < 0x200 then
    let h := o / 0x40
    let cmp := Map.get (fun _ => 0) s.plat.mtimecmp h
    let r := o % 0x40
    if r = 0 then s.answerNat len (Map.get (fun _ => false) s.plat.swi h).toNat
    else if r = 8 then s.answerNat len (if len = 8 then cmp else cmp % 2 ^ 32)
    else if r = 12 then s.answerNat len (cmp / 2 ^ 32)
    else s.answerNat len 0
  else s.answerNat len 0

/-- A host read of the CTI window (R431, R619): a fenced CTI answers with ones, an unpowered one is open. -/
def State.windowRead (s : State) (o : Nat) : State :=
  if !s.powered pCTI then
    let d := s.drawWord
    d.2.answer d.1
  else if s.fenced pCTI then s.answer (wd 0xFFFFFFFF)
  else s.answer (s.liveReg (pWIN + o / 4096) (o % 4096))

/-- A host read of BAR4: the MSI-X table of 16-byte entries and the pending bits (R618, R619). -/
def State.msixRead (s : State) (o : Nat) : State :=
  if o < 0x1000 then
    let e := Map.get (fun _ => {}) s.plat.msix (o / 16)
    s.answer (match o % 16 with
      | 0 => wd e.addr
      | 4 => wd (e.addr / 2 ^ 32)
      | 8 => e.data
      | _ => wd e.masked.toNat)
  else if o < 0x1020 then
    s.answer (wd ((List.range 32).foldl (fun a j => a + (Map.get (fun _ => {}) s.plat.msix (8 * (o - 0x1000) + j)).pending.toNat * 2 ^ j) 0))
  else s.answer 0

/-- First address of the register pages (R597), and where the model places the host's BAR2, BAR4 and configuration space
(notes/assumptions/91.md). -/
def regBase : Nat := 0x40000000
def bar2Base : Nat := 0x40400000
def bar4Base : Nat := 0x40410000
def cfgBase : Nat := 0x40420000

/-- A read of `len` bytes at address `a` (R596 to R599, R616 to R620). -/
def State.readAt (s : State) (m : Master) (a len : Nat) : State :=
  let word := decide (len = 4) && decide (a % 4 = 0)
  if regBase ≤ a ∧ a < regBase + 0x400000 then
    let o := a - regBase
    if word then s.readPage m (o / 4096) (o % 4096) else (s.badAccess m (o / 4096) (o % 4096) 1).answerErr
  else match m with
    | .host =>
      if !word then s.answerErr
      else if bar2Base ≤ a ∧ a < bar4Base then s.windowRead (a - bar2Base)
      else if bar4Base ≤ a ∧ a < bar4Base + 0x4000 then s.msixRead (a - bar4Base)
      else if cfgBase ≤ a ∧ a < cfgBase + 4096 then s.answer (Map.get (fun _ => 0) s.plat.pcieCfg (a - cfgBase))
      else s.answerErr
    | .maint =>
      match target a with
      | .sram | .cocoon =>
        let r := s.busRead a 4
        if r.1.bad then r.2.answerErr else r.2.answer (wd (ofLeBytes r.1.bytes))
      | _ => s.answerErr
    | .core _ =>
      if a + len ≤ 0x40000 then s.answerNat len (ofLeBytes ((List.range len).map fun i => Config.bootRom (a + i)))
      else if 0x2000000 ≤ a ∧ a < 0x2010000 then s.timerRead (a - 0x2000000) len
      else if 0xC000000 ≤ a ∧ a < 0x10000000 then (if word then s.plicRead (a - 0xC000000) else s.answerErr)
      else
        let r := s.busRead a len
        if r.1.bad then r.2.answerErr else r.2.answerNat len (ofLeBytes r.1.bytes)

end Sys2Proof.Machine
end

