-- ==== Sys2Proof/Machine/RegWrite.lean ====
section
/-!
DEFINITION. Writes: where a register write goes, the checks of registers that the chapters restrict, the header's own fields,
commits of shadow copies, and every address that a service core, the host or the maintenance port can write (R490, R596 to R620).
-/

namespace Sys2Proof.Machine

open Sys2Proof

/-! ## Commits -/

/-- The commit of a page's shadow copies happens if its trigger has come (R331, R372, R608): a tick after COMMIT for trigger 0 and
for display heads and TDM sets that are off, an event accepted on PG_EVT_IN0 for trigger 1, the firing of the cue for trigger 4. -/
def State.shadowCommit (s : State) (p : Nat) : State :=
  if !s.pendingCommit p then s
  else
    let ready := s.commitReady p
    match pageKind p with
    | .disp =>
      let n := p - pDISP 0
      if ready && !(s.lineR (if s.pairLocked n then n / 2 * 2 else n)).run then s.dispCommitOff n else s
    | .eye =>
      let n := p - pEYE 0
      if ready && !(s.lineR (if s.pairLocked n then n / 2 * 2 else n)).run then s.eyeCommit n else s
    | .tdm => if ready && decide (s.tsetState (p - pTDM 0) = 0) then s.tdmCommitOff (p - pTDM 0) else s
    | k =>
      let trig := s.fld p Off.hdr_PG_SHADOW 1 3
      let due := if trig = 1 then s.inBusy p 0 else if trig = 4 then (s.pageRt p).commitDue else ready
      if !due then s
      else
        let s1 := if trig = 1 ∧ ¬ (evtInCap p).testBit 0 then s.setBusy p 0 false else s
        let s2 := if k = .dist then
            (List.range 4).foldl (fun t d => t.distCommit d) s1
          else s1.applyShadow p
        (s2.commitOver p).modPage p fun r => { r with commitDue := false }

/-! ## The header -/

/-- A write of PG_CTRL (R490, R602, R603, R615): EN where the chapter gives it a meaning, FREEZE, FENCE, and SOFT_RST, which lifts a
fence of the same write. A fenced page takes SOFT_RST alone. -/
def State.ctrlWrite (s : State) (m : Master) (p : Nat) (v : Word) : State :=
  let o := Off.hdr_PG_CTRL
  let g := s.gateWrite m p o (bitAt v 2)
  if !g.ok then g.st
  else if g.st.fenced p then g.st.softReset p
  else
    let t := g.st
    let t1 := if pageKind p = .disp then t.putBit p o 0 (bitAt v 0) else t
    let was := t.bit p o 3
    let t2 := if bitAt v 3 && !was then (t1.freezePage p).putBit p o 3 true
      else if !bitAt v 3 && was then (t1.putBit p o 3 false).modPage p fun r => { r with thaw := some s.now }
      else t1
    let t3 := if bitAt v 1 then t2.fenceNow p 0 0 else t2
    if bitAt v 2 then t3.softReset p else t3

/-- A write of PG_SHADOW (R608, R609). -/
def State.shadowWrite (s0 : State) (m : Master) (p : Nat) (v : Word) : State :=
  let o := Off.hdr_PG_SHADOW
  let s := s0.shadowCommit p
  let g := s.gateWrite m p o false
  if !g.ok then g.st
  else
    let t := g.st
    let old := t.reg p o
    let pend := bitAt old 8
    let trig := match pageKind p with
      | .disp | .eye | .tdm => wfld old 1 3
      | _ => if wfld v 1 3 = 1 ∨ wfld v 1 3 = 4 then wfld v 1 3 else 0
    let new := wset (wset old 1 3 trig) 16 12 (wfld v 16 12)
    let t1 := if new = old then t else if pend then t.stateWrite p else t.setReg p o new
    if bitAt v 9 then t1.commitOver p
    else if bitAt v 0 && !pend then
      (t1.putBit p o 8 true).modPage p fun r => { r with commitAt := s.now, commitDue := false }
    else t1

/-- A write of PG_LOCK (R610). -/
def State.lockWrite (s : State) (m : Master) (p : Nat) (v : Word) : State :=
  let g := s.gateWrite m p Off.hdr_PG_LOCK false
  if !g.ok then g.st
  else if wfld v 0 16 = 0x5CA7 then g.st.modPage p fun r => { r with unlock := some (m, s.now) }
  else g.st

/-- The vector that page `p` signals, if its map entry is enabled (R618). -/
def State.msixOf (s : State) (p : Nat) : Option Nat :=
  let w := s.reg pGLOBAL (Off.global_MSIXmap + 4 * (p / 2))
  let h := wfld w (16 * (p % 2)) 16
  if h / 256 % 2 = 1 then some (h % 256) else none

/-- After a write of PG_INT_STAT or PG_INT_EN: a line that stays at 1 sends another message, one at 0 is noted (R618). -/
def State.intAgain (s : State) (p : Nat) : State :=
  if !s.intLine p then s.modPage p fun r => { r with line := false }
  else if (s.pageRt p).line then
    match s.msixOf p with
    | some v => s.msixRaise v
    | none => s
  else s

/-- The header's plain registers (*The common page header*, R605, R606): what is not implemented reads 0 and ignores writes. A bit
that hardware sets in the same tick stays 1, and counts as a change of PG_FAULT. -/
def State.headerWrite (s : State) (p o : Nat) (v : Word) : State :=
  let rt := s.pageRt p
  let now := decide (rt.hwAt = s.now)
  if o = Off.hdr_PG_FAULT then
    let again := if now then Nat.land rt.hwAgain v.toNat else 0
    let kept := if now then rt.hwFault else 0
    let s1 := s.setReg p o (s.reg p o &&& ~~~(v &&& ~~~(wd kept)))
    ((List.range 32).filter fun b => again.testBit b).foldl (fun t b => t.raise p b) s1
  else if o = Off.hdr_PG_FAULT_EN then s.setReg p o (v &&& wd (faultMask p))
  else if o = Off.hdr_PG_FAULT_FENCE then s.setReg p o (if fenceable p then v &&& wd (faultMask p) else 0)
  else if o = Off.hdr_PG_INT_STAT then
    let kept := if now then rt.hwInt else 0
    let s1 := s.setReg p o (s.reg p o &&& ~~~(v &&& ~~~(wd kept)))
    let s2 := if p = pMAINT ∧ bitAt v 0 ∧ ¬ kept.testBit 0 then s1.setReg pMAINT Off.maint_M_DOORBELL 0 else s1
    s2.intAgain p
  else if o = Off.hdr_PG_INT_EN then (s.setReg p o (v &&& wd (intMask p))).intAgain p
  else s

/-! ## Block registers -/

/-- May SLINE_SRC `n` change: no armed cue names SLINEn and no enabled context uses it (*LINEVIEW page*). -/
def State.slineFree (s : State) (n : Nat) : Bool :=
  !(s.tb.cues.any fun e => bitAt e.2.status 0 && cueRuler e.2 == 0x40 + n) &&
    (List.range 8).all fun k => !(s.bit pLINEVIEW (llOff k Off.lineview_LL_CFG) 0 && s.llSline k == n)

/-- May the RWI fields at an offset change now (R612)? The chapters narrow the rule for single objects of a page. -/
def State.idleFor (s : State) (p o : Nat) : Bool :=
  match pageKind p with
  | .dist =>
    if o < 0x200 then !s.bit p (dOff ((o - 0x100) / 0x40) Off.dist_CFG) 0
    else if o < 0x280 then (List.range 4).all fun d => !s.distNames d ((o - 0x200) / 0x10)
    else s.pageIdle p
  | .phase => !s.bit p (phOff ((o - 0x100) / 0x40) Off.phase_CFG) 0
  | .lineview =>
    if 0x400 ≤ o ∧ o < 0x500 then s.slineFree ((o - 0x400) / 4) else !s.bit p (llOff ((o - 0x500) / 0x40) Off.lineview_LL_CFG) 0
  | .safety =>
    if o = Off.safety_HB_CFG then !s.bit p Off.safety_HB_STAT 0 else !s.bit p (Off.safety_VIEW_CFG + (o - 0x200) / 0x10 * 0x10) 0
  | .sens => if 0x400 ≤ o then s.fld p Off.sens_I3C_CFG 0 2 == 0 else s.pageIdle p
  | .pipeStats => (s.pctx (ctxKey ((p - 0x180) / 16) (s.fld p Off.pipeStats_SEL 0 6))).state == 0
  | .clus => if Off.clus_BAR_CFG0 ≤ o ∧ o < Off.clus_BAR_STAT0 then s.fld p (o - Off.clus_BAR_CFG0 + Off.clus_BAR_STAT0) 0 6 == 0 else s.pageIdle p
  | _ => s.pageIdle p

/-- The least of the checks of R578 over the three levels. -/
def thermOk (warn thr trip : Nat) : Bool :=
  decide (warn ≤ thr) && decide (thr + 5 ≤ trip) && decide (100 ≤ trip) && decide (trip ≤ 125)

/-- A write of a THERM0 level (R578): outside its ranges it is discarded with CFG_INVALID, and TRIP asks for an unlock. -/
def State.thermWrite (s : State) (o : Nat) (v : Word) (unlocked : Bool) : State :=
  let p := pTHERM 0
  let lvl := fun (q : Nat) => if q = o then wfld v 0 8 else s.fld p q 0 8
  let levels := thermOk (lvl Off.therm0_WARN) (lvl Off.therm0_THROTTLE) (lvl Off.therm0_TRIP)
  let hn := decide (1 ≤ wfld v 8 8) && decide (wfld v 8 8 ≤ 15) && decide (1 ≤ wfld v 16 8)
  if o = Off.therm0_TRIP then
    if !unlocked then s.raise p 1
    else if levels && hn && decide (10 ≤ wfld v 24 8) && decide (wfld v 24 8 ≤ 40) then s.setReg p o v
    else s.raise p 13
  else if o = Off.therm0_CHECK then
    if 2 ≤ wfld v 0 8 ∧ wfld v 0 8 ≤ 20 then s.setReg p o (wd (wfld v 0 8)) else s.raise p 13
  else if levels && hn then s.setReg p o (wd (wfld v 0 24))
  else s.raise p 13

/-- Writable bits of THR_CLASS word `i`: clusters, raw pipes and codecs, domains 0 to 57 (R568). -/
def classMask (i : Nat) : Nat := if i < 3 then 0xFFFFFFFF else if i = 3 then 0xFFFFF else 0

/-- A write of a pipe context's STAT_BASE or STAT_EVT, which the page shows for the context of SEL (R612). -/
def State.statWrite (s : State) (p o : Nat) (v : Word) : State :=
  let k := ctxKey ((p - 0x180) / 16) (s.fld p Off.pipeStats_SEL 0 6)
  let c := s.pctx k
  let lo := c.statBase % 2 ^ 32
  let hi := c.statBase / 2 ^ 32
  let base := if o = Off.pipeStats_STAT_BASE_LO then v.toNat + hi * 2 ^ 32
    else if o = Off.pipeStats_STAT_BASE_HI then lo + v.toNat * 2 ^ 32 else c.statBase
  let evt := if o = Off.pipeStats_STAT_EVT then wfld v 0 9 else c.statEvt
  if base = c.statBase ∧ evt = c.statEvt then s
  else if c.state ≠ 0 then s.stateWrite p
  else s.modPctx k fun x => { x with statBase := base, statEvt := evt }

/-- Is a TSN register of MAC `n` held while its commit is pending (R392)? -/
def State.adminHeld (s : State) (p o : Nat) : Bool :=
  decide (0x140 ≤ o) && decide (o < 0x1C0) && s.bit p (Off.tsn_GATE_CTRL + (o - 0x140) / 0x40 * 0x40) 2

/-- A write of a block register that no command owns, behind the gate (R608, R610, R612 and the checks of the chapters). -/
def State.blockWrite (s : State) (p o : Nat) (v : Word) (unlocked : Bool) : State :=
  let plain := s.storeFields p o (s.idleFor p o) v
  match pageKind p with
  | .global => if 0x800 ≤ o then s.storeFields p o true (v &&& wd 0x01FF01FF) else plain
  | .timebase => if o = Off.timebase_TIME_SET_NS ∧ 999999999 < v.toNat then s.raise p 11 else plain
  | .evf0 | .evf1 =>
    if 0x800 ≤ o ∧ o % 0x10 = 0 then ((s.windowSync).evMark p o).storeFields p o true v else plain
  | .phase =>
    if 0x180 ≤ o then plain
    else if (o - 0x100) % 0x40 = 0 then plain.setPhaseState ((o - 0x100) / 0x40) 0
    else if (o - 0x100) % 0x40 = 4 ∧ ¬ (10000 ≤ v.toNat ∧ v.toNat ≤ 1000000) then s.raise p 10
    else plain
  | .lineview =>
    if 0x500 ≤ o ∧ o < 0x700 ∧ (o - 0x500) % 0x40 = 0 then
      let k := (o - 0x500) / 0x40
      if bitAt v 0 = s.bit p o 0 then plain else plain.setLl k (bitAt v 0).toNat
    else plain
  | .silk => if o = Off.silk_KEEP ∧ 24 < popCount v.toNat 32 then s.raise p 10 else plain
  | .safety =>
    if o = Off.safety_FN_EN then
      if unlocked then (s.setReg p o (wd (wfld v 0 11))).fnUpdate else s.raise p 1
    else if o = Off.safety_INJ_EN then
      if isKey v then s.setReg p o (wd (wfld v 0 1)) else s.raise p 1
    else plain
  | .therm0 => if o ≤ Off.therm0_CHECK then s.thermWrite o v unlocked else s
  | .pwr2 =>
    if o < 0x11C then
      let m := classMask ((o - 0x100) / 4)
      if s.fld (pPWR 1) Off.pwr1_STATE 0 2 ≠ 0 then s.stateWrite p else s.setReg p o (mergeMask m (s.reg p o) v)
    else plain
  | .eng => if o = Off.eng_CTRL ∧ ¬ (1 ≤ wfld v 0 3 ∧ wfld v 0 3 ≤ 4) then s.raise p 15 else plain
  | .pipeStats => if 0x104 ≤ o ∧ o ≤ 0x10C then s.statWrite p o v else plain
  | .tdm =>
    if !s.isLead (p - pTDM 0) && [Off.tdm_FSYNC, Off.tdm_RATE, Off.tdm_ANCHOR_LO, Off.tdm_ANCHOR_HI, Off.tdm_MC_CFG].contains o then s
    else plain
  | .disp =>
    if o = Off.disp_CTRL then
      let n := p - pDISP 0
      let both := s.headIdle (n / 2 * 2) && s.headIdle (n / 2 * 2 + 1)
      let w := if n % 2 = 0 then v else setBit v 1 (s.bit p o 1)
      s.storeFields p o (if bitAt w 1 = s.bit p o 1 then s.headIdle n else both) w
    else plain
  | .ptp => if o = Off.ptp_CFG ∧ s.bit p o 0 ∧ ¬ bitAt v 0 then plain.ptpNone else plain
  | .tsn => if s.adminHeld p o && (o % 0x40 < 0x10) then
      (if o % 0x40 = 0 then (s.creditStep (2 * (p - pTSN 0) + (o - 0x140) / 0x40)).putBit p o 0 (bitAt v 0) else s).stateWrite p
    else if (o = Off.tsn_GATE_CTRL ∨ o = Off.tsn_GATE_CTRL + 0x40) then
      (s.creditStep (2 * (p - pTSN 0) + (o - 0x140) / 0x40)).storeFields p o true v
    else plain
  | .sens =>
    if p % 2 = 0 ∧ o = Off.sens_I3C_TXDATA then
      s.modI3c ((p - pSENS 0) / 2) fun x => { x with tx := (x.tx ++ leBytes 4 v.toNat).take 64 }
    else if o = Off.sens_CFG then
      if plain.fld p o 8 10 = s.fld p o 8 10 ∧ plain.fld p o 0 2 = s.fld p o 0 2 then plain
      else (plain.putBit p Off.sens_DESKEW 0 false).modPort (p - pSENS 0) fun x => { x with syncErr := false }
    else if p % 2 = 0 ∧ o = Off.sens_I3C_CFG then plain.i3cStart ((p - pSENS 0) / 2)
    else plain
  | _ => plain

/-! ## Commands in registers -/

/-- A code that a command register does not list (R613). -/
def State.badCmd (s : State) (m : Master) (p o : Nat) : State := s.regWrite m p o fun t => t.stateWrite p

/-- Command registers of the always-on pages and of the timebase. -/
def State.routeCore (s : State) (m : Master) (p o : Nat) (v : Word) : Option State :=
  match pageKind p with
  | .global => if o = Off.global_RESET_CMD then some (after s (execResetCmd m v s)) else none
  | .boot =>
    if o = Off.boot_CONFIRM then some (after s (execConfirm m v s))
    else if o = Off.boot_PREF then some (after s (execPref m v s))
    else if o = Off.boot_VER_ADV then some (after s (execVerAdv m v s))
    else if o = Off.boot_VERIFY_CMD then some (after s (execVerifyCmd m v s))
    else if o = Off.boot_XSPI_CMD then some (match wfld v 0 2 with
      | 1 => after s (execXspiRead m v s)
      | 2 => after s (execXspiProgram m v s)
      | 3 => after s (execXspiErase m v s)
      | _ => s.badCmd m p o)
    else none
  | .maint => if o = Off.maint_M_DOORBELL then some (s.regWrite m p o fun t =>
      if bitAt v 0 then ((t.setReg p o 1).setInt p 0).produce p 0 else t) else none
  | .pwr0 => if Off.pwr0_DOM_REQ0 ≤ o ∧ o < Off.pwr0_DOM_STAT0 then some (after s (execDomainOnRequest m ((o - 0x100) / 4) v s)) else none
  | .pwr1 => if o = Off.pwr1_STATE_REQ then some (match wfld v 0 2 with
      | 0 => after s (execActiveRequest m v s)
      | 1 => after s (execStandbyRequest m v s)
      | _ => after s (execDormantRequest m v s)) else none
  | .timebase =>
    if o = Off.timebase_TIME_CTRL then some (after s (execTimeCtrlWrite m v s))
    else if o = Off.timebase_TIME_SET_GO then some (after s (execTimeSetGo m v s))
    else if o = Off.timebase_SNAP then some (after s (execSnapGo m v s))
    else none
  | .dist => if o < 0x200 ∧ (o - 0x100) % 0x40 = 0x3C then some (after s (execPosSet m ((o - 0x100) / 0x40) v s)) else none
  | .cue => if o = Off.cue_CUE_CMD then some (match wfld v 0 3 with
      | 1 => after s (execLoad m (p - pCUE 0) s)
      | 2 => after s (execCueStore m (p - pCUE 0) s)
      | 3 => after s (execDisarm m (p - pCUE 0) s)
      | 4 => after s (execClear m (p - pCUE 0) s)
      | _ => s.badCmd m p o) else none
  | .evf0 => if o = Off.evf0_SW_FIRE then some (after s (execSwFire m v s)) else none
  | .evf1 => if Off.evf1_PIN_CFG ≤ o ∧ o < Off.evf1_PIN_STAT then some (after s (execPinCfgWrite m ((o - 0x100) / 4) v s)) else none
  | .cocoon =>
    if o = Off.cocoon_FIND_CMD then some (after s (execFindCmd m v s))
    else if o = Off.cocoon_WR_GO then some (after s (execWrGo m v s))
    else none
  | .silk =>
    if o = Off.silk_SW_GO then some (after s (execSwGo m v s))
    else if o = Off.silk_SNAP_CMD then some (after s (execSnapCmd m v s))
    else none
  | .warden => if o = Off.warden_CMD then
      some (if wfld v 12 2 = 1 then after s (execCondemn m v s) else s.badCmd m p o) else none
  | .safety =>
    if o = Off.safety_FN_CLR then some (after s (execFnClr m v s))
    else if o = Off.safety_FN_SW then some (after s (execFnSwWrite m v s))
    else if o = Off.safety_HB_CTRL then some (after s (execArm m v s))
    else if o = Off.safety_HB_KICK then some (after s (execHbKick m v s))
    else if o = Off.safety_LS_TEST then some (after s (execLsTest m v 0 s))
    else if o = Off.safety_EYE_INJ then some (after s (execEyeInj m v s))
    else if 0x200 ≤ o ∧ o < 0x280 ∧ o % 0x10 = 8 then some (after s (execViewClr m ((o - 0x200) / 0x10) v s))
    else none
  | _ => none

/-- Command registers of the sensor intake, the raw pipes and the Swarm. -/
def State.routeData (s : State) (m : Master) (p o : Nat) (v : Word) : Option State :=
  match pageKind p with
  | .sens => if p % 2 = 0 ∧ o = Off.sens_I3C_CMD then some (after s (execI3cCmd m ((p - pSENS 0) / 2) v s)) else none
  | .swift =>
    let n := p - pSWIFT 0
    if o = Off.swift_LANE_CFG then some (after s (execLaneCfgWrite m n v s))
    else if o = Off.swift_TX_EQ then some (after s (execTxEqWrite m n v s))
    else if o = Off.swift_EYE_CMD then some (if bitAt v 1 then after s (execEyeScanAbort m n v s) else after s (execEyeScanGo m n v s))
    else none
  | .dlk =>
    let n := p - pDLK 0
    if o = Off.dlk_CFG then some (if bitAt v 0 then after s (execDlkEnable m n v s) else after s (execDlkDisable m n v s))
    else if o = Off.dlk_BC_TX_GO then some (after s (execBcTxGo m n v s))
    else none
  | .intake => if o = Off.intake_STRM_CMD then some (match wfld v 0 3 with
      | 1 => after s (execStrmLoad m s)
      | 2 => after s (execStrmStore m s)
      | 3 => after s (execStop m s)
      | 4 => after s (execStopNow m s)
      | _ => s.badCmd m p o) else none
  | .pipeCtl =>
    let n := (p - 0x180) / 16
    if o = Off.pipeCtl_CTX_CMD then some (match wfld v 0 3 with
      | 1 => after s (execCtxLoad m n s)
      | 2 => after s (execCtxStore m n s)
      | 3 => after s (execStart m n s)
      | 4 => after s (execCtxStop m n s)
      | 5 => after s (execCtxStopNow m n s)
      | _ => s.badCmd m p o)
    else if o = Off.pipeCtl_PSET_PUSH then some (after s (execPsetPush m n v s))
    else none
  | .pipeBranch =>
    let n := (p - 0x180) / 16
    let b := p % 16 - 9
    if o = Off.pipeBranch_BR_CMD then some (match wfld v 0 2 with
      | 1 => after s (execBrLoad m n b s)
      | 2 => after s (execBrStore m n b s)
      | _ => s.badCmd m p o) else none
  | .clus =>
    if o = Off.clus_LOAD_CTRL then some (after s (execLoadCtrlGo m (p - pCLUS 0) v s))
    else if o = Off.clus_BIST_CMD then some (after s (execBistCmd m (p - pCLUS 0) v s))
    else none
  | .eng => if o = Off.eng_THR_CMD then some (match wfld v 0 2 with
      | 1 => after s (execThrStart m (p - pENG 0) s)
      | 2 => after s (execPark m (p - pENG 0) s)
      | 3 => after s (execThrReset m (p - pENG 0) s)
      | _ => s.badCmd m p o) else none
  | .henc | .dec | .xs =>
    if o = Off.henc_SESS_CMD then some (match wfld v 0 3 with
      | 1 => after s (execSessLoad m p s)
      | 2 => after s (execSessStore m p s)
      | 3 => after s (execSessStop m p s)
      | 4 => after s (execSessStopNow m p s)
      | 5 => after s (execSetRate m p s)
      | 6 => after s (execForceIdr m p s)
      | 7 => after s (execFlush m p s)
      | _ => s.badCmd m p o)
    else if o = Off.henc_GANG ∧ pageKind p = .henc then some (after s (execGangWrite m (p - pHENC 0) v s))
    else none
  | _ => none

/-- Command registers of the outputs, the network, storage, queues and memory. -/
def State.routeOut (s : State) (m : Master) (p o : Nat) (v : Word) : Option State :=
  match pageKind p with
  | .disp =>
    let n := p - pDISP 0
    if o = Off.disp_AUX_CMD then some (match wfld v 0 3 with
      | 1 => after s (execAuxNativeWrite m n v s)
      | 2 => after s (execAuxNativeRead m n v s)
      | 3 => after s (execAuxI2cWrite m n v s)
      | 4 => after s (execAuxI2cRead m n v s)
      | _ => s.badCmd m p o) else none
  | .eye => if o = Off.eye_SAFE_CLR then some (after s (execSafeClr m (p - pEYE 0) v s)) else none
  | .tdm =>
    let n := p - pTDM 0
    if o = Off.tdm_SET_CMD then some (match wfld v 0 2 with
      | 1 => after s (execTdmStart m n s)
      | 2 => after s (execTdmStop m n s)
      | 3 => after s (execTdmStopNow m n s)
      | _ => s.badCmd m p o)
    else if o = Off.tdm_SW_COUNT then some (after s (execSwCountWrite m n v s))
    else none
  | .mac => if o = Off.mac_CFG then some (after s (execMacCfgWrite m (p - pMAC 0) v s)) else none
  | .tsn =>
    let k := p - pTSN 0
    let port := (o - 0x140) / 0x40
    let off := (o - 0x140) % 0x40 + 0x140
    let ported := 0x140 ≤ o ∧ o < 0x1C0
    if o = Off.tsn_GCL_CMD then some (match wfld v 0 2 with
      | 1 => after s (execGclReadAdmin m k s)
      | 2 => after s (execGclWriteAdmin m k s)
      | 3 => after s (execGclReadOper m k s)
      | _ => s.badCmd m p o)
    else if ported ∧ off = Off.tsn_GATE_CTRL ∧ bitAt v 1 then some (after s (execGateCommit m (2 * k + port) v s))
    else if ported ∧ (off = Off.tsn_CBS_A ∨ off = Off.tsn_CBS_A + 4) then
      some (after s (execCbsWrite m (2 * k + port) ((off - Off.tsn_CBS_A) / 4) v s))
    else if o = Off.tsn_FILT_CMD then some (match wfld v 0 2 with
      | 1 => after s (execFiltLoad m k s)
      | 2 => after s (execFiltStore m k s)
      | 3 => after s (execClearBlock m k s)
      | _ => s.badCmd m p o)
    else if o = Off.tsn_REC_CMD then some (match wfld v 0 2 with
      | 1 => after s (execRecLoad m k s)
      | 2 => after s (execRecStore m k s)
      | 3 => after s (execRecReset m k s)
      | _ => s.badCmd m p o)
    else if o = Off.tsn_FLOW_CMD ∧ k = 0 then some (match wfld v 0 2 with
      | 1 => after s (execFlowLoad m s)
      | 2 => after s (execFlowStore m s)
      | 3 => after s (execFlowStop m s)
      | _ => s.badCmd m p o)
    else none
  | .ptp => if o = Off.ptp_JUMP_CMD then some (match wfld v 0 2 with
      | 1 => after s (execAccept m s)
      | 2 => after s (execDiscard m s)
      | _ => s.badCmd m p o) else none
  | .nvmh => if o = Off.nvmh_CFG then
      some (if bitAt v 0 then after s (execNvmhEnable m (p - pNVMH 0) v s) else after s (execNvmhDisable m (p - pNVMH 0) v s)) else none
  | .cti =>
    if o = Off.cti_NS_CMD then some (match wfld v 0 2 with
      | 1 => after s (execNsLoad m s)
      | 2 => after s (execNsStore m s)
      | 3 => after s (execNsDisable m s)
      | _ => s.badCmd m p o)
    else if o = Off.cti_REC_CMD then some (match wfld v 0 2 with
      | 1 => after s (execRecSessLoad m s)
      | 2 => after s (execRecSessStore m s)
      | 3 => after s (execRecSessStop m s)
      | _ => s.badCmd m p o)
    else none
  | .dramguard => if o = Off.dramguard_G_CMD then some (match wfld v 0 2 with
      | 1 => after s (execGLoad m s)
      | 2 => after s (execGStore m s)
      | 3 => after s (execGDisable m s)
      | _ => s.badCmd m p o) else none
  | .dramcom =>
    if o = Off.dramcom_TOPO then some (after s (execTopoWrite m v s))
    else if Off.dramcom_BANK_HASH0 ≤ o ∧ o < 0x11C then some (after s (execBankHashWrite m ((o - Off.dramcom_BANK_HASH0) / 4) v s))
    else if Off.dramcom_RES_n ≤ o ∧ o < 0x160 then some (after s (execResWrite m ((o - Off.dramcom_RES_n) / 4) v s))
    else none
  | .qm0 =>
    if o = Off.qm0_Q_CMD then some (match wfld v 0 3 with
      | 1 => after s (execQLoad m s)
      | 2 => after s (execQStore m s)
      | 3 => after s (execEnable m s)
      | 4 => after s (execDisable m s)
      | 5 => after s (execPin m s)
      | 6 => after s (execUnpin m s)
      | 7 => after s (execSetClass m s)
      | _ => s.badCmd m p o)
    else if o = Off.qm0_QSTATE_LO then some (after s (execQstateBaseWrite m false v s))
    else if o = Off.qm0_QSTATE_HI then some (after s (execQstateBaseWrite m true v s))
    else none
  | .qm1 =>
    if 0x100 ≤ o ∧ o < 0x500 then
      if (o - 0x100) % 0x80 = 0x20 then some (after s (execPushGo m ((o - 0x100) / 0x80) v s))
      else if (o - 0x100) % 0x80 = 0x24 then some (after s (execTakeGo m ((o - 0x100) / 0x80) v s))
      else none
    else none
  | .svc => if o = Off.svc_CMD then some (match wfld v 0 2 with
      | 1 => after s (execActivate m (p - pSVC 0) s)
      | 2 => after s (execQuiesce m (p - pSVC 0) s)
      | 3 => after s (execSvcReset m (p - pSVC 0) s)
      | _ => s.badCmd m p o) else none
  | _ => none

/-- The meaning of a write to a register that a command of its own stands for. -/
def State.route (s : State) (m : Master) (p o : Nat) (v : Word) : Option State :=
  if o % 4 ≠ 0 then none
  else if o < 0x100 then
    if o = Off.hdr_PG_CTRL then some (s.ctrlWrite m p v)
    else if o = Off.hdr_PG_SHADOW then some (s.shadowWrite m p v)
    else if o = Off.hdr_PG_LOCK then some (s.lockWrite m p v)
    else if o = Off.hdr_PG_FAULT_INJ then some (after s (execFaultInject m p v s))
    else if Off.hdr_PG_EVT_OUT0 ≤ o ∧ o < Off.hdr_PG_SHADOW then some (after s (execEventPortWrite m p ((o - Off.hdr_PG_EVT_OUT0) / 4) v s))
    else none
  else s.routeCore m p o v <|> s.routeData m p o v <|> s.routeOut m p o v

/-- A write of a register page (R597 to R620). A commit whose trigger tick has come acts before the write (R609). -/
def State.writePage (s0 : State) (m : Master) (p o : Nat) (v : Word) : State :=
  let s := s0.shadowCommit p
  match s.route m p o v with
  | some t => t
  | none =>
    let g := s.gateWrite m p o false
    if !g.ok then g.st
    else if o < 0x100 then g.st.headerWrite p o v
    else g.st.blockWrite p o v g.unlocked

/-! ## Other targets -/

/-- A host write of the CTI window (R431 to R433): the doorbells, CTI_CTRL, and the fields that are accepted while DISABLED. -/
def State.windowWrite (s : State) (o : Nat) (v : Word) : State :=
  if !s.alive pCTI then s
  else if o = Off.ctiWin_CTI_CTRL then
    (if bitAt v 0 then after s (execCtiEnable v s) else after s (execCtiDisable v s))
  else if 0x1000 ≤ o ∧ o < 0x1800 then
    (if o % 8 = 0 then after s (execSqTail ((o - 0x1000) / 8) v s) else if o % 8 = 4 then after s (execCqHead ((o - 0x1000) / 8) v s) else s)
  else match regDesc (pWIN + o / 4096) (o % 4096) with
    | none => s
    | some d =>
      let old := s.reg (pWIN + o / 4096) (o % 4096)
      let new := mergeMask d.rwi old v
      if new = old then s
      else if s.stor.state = 0 then s.setReg (pWIN + o / 4096) (o % 4096) new
      else s.stateWrite pCTI

/-- Pending vectors that are no longer masked send their messages (R618; PCIe). -/
def State.msixFlush (s : State) : State :=
  s.plat.msix.foldl (fun t e =>
    if e.2.pending && !e.2.masked && t.plat.msixEn then
      t.onPlat fun x => { x with msix := Map.put (fun _ => {}) x.msix e.1 { e.2 with pending := false }, msgs := x.msgs ++ [(e.2.addr, e.2.data)] }
    else t) s

/-- A host write of BAR4: an entry of the MSI-X table; the pending-bit array is read-only. -/
def State.msixWrite (s : State) (o : Nat) (v : Word) : State :=
  if o < 0x1000 then
    let e := Map.get (fun _ => {}) s.plat.msix (o / 16)
    let e1 : MsixVec := match o % 16 with
      | 0 => { e with addr := e.addr / 2 ^ 32 * 2 ^ 32 + v.toNat }
      | 4 => { e with addr := e.addr % 2 ^ 32 + v.toNat * 2 ^ 32 }
      | 8 => { e with data := v }
      | _ => { e with masked := bitAt v 0 }
    (s.onPlat fun t => { t with msix := Map.put (fun _ => {}) t.msix (o / 16) e1 }).msixFlush
  else s

/-- A host write of the PCIe configuration space (R619): the fuse-loaded identification is read-only; the MSI-X capability stands at
0x70, with Enable in bit 31 and Function Mask in bit 30 of its first word (notes/assumptions/91.md). -/
def State.cfgWrite (s : State) (o : Nat) (v : Word) : State :=
  if o = 0 ∨ o = 8 ∨ o = 44 then s
  else
    let s1 := s.onPlat fun t => { t with pcieCfg := Map.put (fun _ => 0) t.pcieCfg o v }
    if o = 0x70 then (s1.onPlat fun t => { t with msixEn := bitAt v 31 && !bitAt v 30 }).msixFlush else s1

/-- A write of the PLIC (R616): priorities and thresholds of three bits, enables, and the completion of a claimed source. -/
def State.plicWrite (s0 : State) (o : Nat) (v : Word) : State :=
  let s := s0.plicGateway
  let put := fun (w : Word) => s.onPlat fun t => { t with plicRegs := Map.put (fun _ => 0) t.plicRegs o w }
  if 4 ≤ o ∧ o < 0x1000 then put (wd (wfld v 0 3))
  else if 0x2000 ≤ o ∧ o < 0x2800 then put (if (o - 0x2000) % 0x80 = 0 then setBit v 0 false else v)
  else if 0x200000 ≤ o ∧ o < 0x210000 then
    if o % 0x1000 = 0 then put (wd (wfld v 0 3))
    else if o % 0x1000 = 4 then
      let c := (o - 0x200000) / 0x1000
      if v.toNat ≤ 1023 ∧ s.plicEnabled c v.toNat then
        (s.onPlat fun t => { t with plicClaimed := Map.put (fun _ => false) t.plicClaimed v.toNat false }).plicGateway
      else s
    else s
  else s

/-- A write of SWI of core `h` (R617). -/
def State.swiPut (s : State) (h : Nat) (b : Bool) : State :=
  s.onPlat fun t => { t with swi := Map.put (fun _ => false) t.swi h b }

/-- A write of mtimecmp of core `h` (R617). -/
def State.cmpPut (s : State) (h v : Nat) : State :=
  (s.onPlat fun t => { t with mtimecmp := Map.put (fun _ => 0) t.mtimecmp h v }).mtimeCheck h

/-- A write of the core-local timer region at offset `o` (R617). -/
def State.timerWrite (s : State) (o len v : Nat) : State :=
  if ¬ ((len = 4 ∨ len = 8) ∧ o % len = 0) then s.answerErr
  else if o < 0x200 then
    let h := o / 0x40
    let cmp := Map.get (fun _ => 0) s.plat.mtimecmp h
    let r := o % 0x40
    if r = 0 then s.swiPut h (v % 2 == 1)
    else if r = 8 then s.cmpPut h (if len = 8 then v % 2 ^ 64 else cmp / 2 ^ 32 * 2 ^ 32 + v % 2 ^ 32)
    else if r = 12 then s.cmpPut h (cmp % 2 ^ 32 + v % 2 ^ 32 * 2 ^ 32)
    else s
  else s

/-- A write of `len` bytes at address `a` (R596 to R599, R616 to R620). A store of a service core to memory is a main-fabric write
of its pair's page. -/
def State.writeAt (s : State) (m : Master) (a len v : Nat) : State :=
  let word := decide (len = 4) && decide (a % 4 = 0)
  if regBase ≤ a ∧ a < regBase + 0x400000 then
    let o := a - regBase
    if word then s.writePage m (o / 4096) (o % 4096) (wd v)
    else
      let t := s.badAccess m (o / 4096) (o % 4096) 1
      match m with
      | .core _ => t.answerErr
      | _ => t
  else match m with
    | .host =>
      if !word then s
      else if bar2Base ≤ a ∧ a < bar4Base then s.windowWrite (a - bar2Base) (wd v)
      else if bar4Base ≤ a ∧ a < bar4Base + 0x4000 then s.msixWrite (a - bar4Base) (wd v)
      else if cfgBase ≤ a ∧ a < cfgBase + 4096 then s.cfgWrite (a - cfgBase) (wd v)
      else s
    | .maint =>
      match target a with
      | .sram => s.busWrite pMAINT a (leBytes 4 v)
      | _ => s
    | .core h =>
      if 0x2000000 ≤ a ∧ a < 0x2010000 then s.timerWrite (a - 0x2000000) len v
      else if 0xC000000 ≤ a ∧ a < 0x10000000 then (if word then s.plicWrite (a - 0xC000000) (wd v) else s.answerErr)
      else if writeErr a then s.answerErr
      else s.busWrite (pSVC h) a (leBytes len v)

end Sys2Proof.Machine
end

