-- ==== Sys2Proof/Machine/Registers.lean ====
section
/-!
DEFINITION. The commands of the register space and of its masters: register reads and writes, the header's commands, timeouts,
interrupts, the maintenance port and the configuration check (chapters 16 and 18).
-/

namespace Sys2Proof.Machine

open Sys2Proof

/-! ## Register accesses -/

/-- REGISTER_WRITE (R596 to R613): master `m` writes the low `len` bytes of `v` at address `a`. -/
def execRegisterWrite (m : Master) (a len v : Nat) (s : State) : Step := .next (s.writeAt m a len v)

/-- RC_READ (R603, R614): a read of `len` bytes at `a`; a register of access RC clears. -/
def execRcRead (m : Master) (a len : Nat) (s : State) : Step := .next (s.readAt m a len)

/-- RULER_LOW_READ (R52): a read of a ruler's low word latches its other words. -/
def execRulerLowRead (m : Master) (a len : Nat) (s : State) : Step := .next (s.readAt m a len)

/-- LATCHING_LOW_READ (R617): a read of the low word of another 64-bit value latches its high word. -/
def execLatchingLowRead (m : Master) (a len : Nat) (s : State) : Step := .next (s.readAt m a len)

/-- RECEIVE_QUEUE_POP (R118, R131, R136): a read of BC_RX1 or I3C_RXDATA takes from its queue. -/
def execReceiveQueuePop (m : Master) (a len : Nat) (s : State) : Step := .next (s.readAt m a len)

/-! ## The page header -/

/-- PG_FENCE_WRITE (R490): PG_CTRL is written with FENCE. -/
def execPgFenceWrite (m : Master) (p : Nat) (v : Word) (s : State) : Step := .next (s.ctrlWrite m p (setBit v 1 true))

/-- SOFT_RST (R602): PG_CTRL is written with SOFT_RST. -/
def execSoftRst (m : Master) (p : Nat) (v : Word) (s : State) : Step := .next (s.ctrlWrite m p (setBit v 2 true))

/-- PG_FREEZE_WRITE (R603): PG_CTRL is written. -/
def execPgFreezeWrite (m : Master) (p : Nat) (v : Word) (s : State) : Step := .next (s.ctrlWrite m p v)

/-- PG_EN_WRITE (*PG_CTRL fields*): PG_CTRL is written; HEAD_ENABLE and HEAD_DISABLE follow EN of a display head. -/
def execPgEnWrite (m : Master) (p : Nat) (v : Word) (s : State) : Step := .next (s.ctrlWrite m p v)

/-- COMMIT (R608, R609). -/
def execCommit (m : Master) (p : Nat) (v : Word) (s : State) : Step := .next (s.shadowWrite m p (setBit v 0 true))

/-- CANCEL (R608). -/
def execCancel (m : Master) (p : Nat) (v : Word) (s : State) : Step := .next (s.shadowWrite m p (setBit v 9 true))

/-- SHADOW_COMMIT (R331, R372, R608). -/
def execShadowCommit (p : Nat) (s : State) : Step := .next (s.shadowCommit p)

/-- PG_LOCK_UNLOCK (R610). -/
def execPgLockUnlock (m : Master) (p : Nat) (v : Word) (s : State) : Step := .next (s.lockWrite m p v)

/-- UNLOCK_LAPSE (R610): 1 ms after it was granted an unlock is gone. -/
def execUnlockLapse (p : Nat) (s : State) : Step :=
  match (s.pageRt p).unlock with
  | some (_, t) => if t + 250000 ≤ s.now then .next (s.modPage p fun r => { r with unlock := none }) else .next s
  | none => .next s

/-- REG_TIMEOUT (R600): an access of `m` to page `p` at offset `o` was not answered within 10 µs. -/
def execRegTimeout (m : Master) (p o : Nat) (write : Bool) (s : State) : Step :=
  let s1 := s.badAccess m p o 3
  .next (if write then s1 else s1.answer (dummyRead p))

/-- BUS_TIMEOUT (R604): a main-fabric transaction of page `p` got no response within 100 µs. -/
def execBusTimeout (p : Nat) (s : State) : Step := .next (s.raise p 3)

/-! ## Interrupts -/

/-- SWI_WRITE (R617). -/
def execSwiWrite (h : Nat) (v : Word) (s : State) : Step := .next (s.swiPut h (bitAt v 0))

/-- MTIMECMP_MATCH (R617). -/
def execMtimecmpMatch (h : Nat) (s : State) : Step := .next (s.mtimeCheck h)

/-- MSIX_MESSAGE (R616, R618): the page's interrupt line is looked at; its rise signals the PLIC and sends the page's message. -/
def execMsixMessage (p : Nat) (s : State) : Step :=
  let up := s.intLine p
  let was := (s.pageRt p).line
  let s1 := (s.modPage p fun r => { r with line := up }).plicGateway
  .next (if up && !was then
      match s.msixOf p with
      | some v => s1.msixRaise v
      | none => s1
    else s1)

/-! ## The maintenance port -/

/-- M_DOORBELL (R624, *MAINT page*). -/
def execMDoorbell (m : Master) (v : Word) (s : State) : Step :=
  .next (s.regWrite m pMAINT Off.maint_M_DOORBELL fun t =>
    if bitAt v 0 then ((t.setReg pMAINT Off.maint_M_DOORBELL 1).setInt pMAINT 0).produce pMAINT 0 else t)

/-- A transaction addressed to the port begins (R621, R624): it counts, shows its address and MADDR, and wakes. -/
def State.maintBegin (s : State) (addr : Nat) : State :=
  let p := pMAINT
  let s1 := ((s.countWrap p Off.maint_M_STAT 16 16 1).setFld p Off.maint_M_STAT 4 2 Config.maddr.val).putBit p Off.maint_M_STAT 0 true
  let s2 := (s1.setReg p Off.maint_M_LAST (wd addr)).produce p 1
  if s2.bit (pPWR 1) Off.pwr1_WAKE_SRC 1 then s2.wakeBy 2 0 else s2

/-- The transaction ends with a status (R623). -/
def State.maintEnd (s : State) (st : Nat) : State :=
  (s.setFld pMAINT Off.maint_M_STAT 1 3 st).putBit pMAINT Off.maint_M_STAT 0 false

/-- A CRC that failed, and a refusal or timeout (*MAINT page*). -/
def State.maintCrcErr (s : State) : State := (s.count pMAINT Off.maint_M_ERR 0 16 1).raise pMAINT 8
def State.maintRefused (s : State) (write : Bool) : State :=
  let s1 := s.count pMAINT Off.maint_M_ERR 16 16 1
  if write then s1.raise pMAINT 10 else s1

/-- The four address bytes of a transaction, most significant first (R621). -/
def addrBytes (addr : Nat) : List Byte := (leBytes 4 addr).reverse

/-- What stands against an access of the port: 2 refused, 4 bad address, 3 timeout on the main fabric, else 0 (R621 to R624). -/
def State.maintCheck (s : State) (addr : Nat) (write late : Bool) : Nat :=
  let off := addr % 2 ^ 30
  let space := addr / 2 ^ 30
  if write && !s.bit pMAINT Off.maint_M_CFG 2 then 2
  else if write && (space == 2 || (space == 1 && decide (0x60000 ≤ off))) then 2
  else if off % 4 ≠ 0 then 4
  else if space = 0 then
    let p := off / 4096
    if 0x400000 ≤ off then 4
    else if !alwaysOnPage p && !s.bit pMAINT Off.maint_M_CFG 1 then 2
    else if !alwaysOnPage p && late then 3
    else 0
  else if space = 1 then (if 0x80000 ≤ off then 4 else 0)
  else if space = 2 then (if 0x800000 ≤ off then 4 else 0)
  else 4

/-- Address of an always-on SRAM or Cocoon offset. -/
def spaceBase (addr : Nat) : Nat := (if addr / 2 ^ 30 = 1 then sramBase else cocoonBase) + addr % 2 ^ 30

/-- One word read through the port: its data and status (R623). -/
def State.maintWord (s : State) (addr : Nat) (late : Bool) : Word × Nat × State :=
  let p := addr % 2 ^ 30 / 4096
  match s.maintCheck addr false late with
  | 0 =>
    if addr / 2 ^ 30 = 0 then
      let t := s.readPage .maint p (addr % 4096)
      let st := if pageKind p = .none then 4 else if !s.powered p || s.fenced p then 1 else 0
      (t.resp.value, st, t)
    else
      let t := s.readAt .maint (spaceBase addr) 4
      (t.resp.value, 0, t)
  | 3 => (dummyRead p, 3, ((s.badAccess .maint p (addr % 4096) 3).maintRefused false).raise pMAINT 9)
  | 4 => (0, 4, s)
  | c => (0, c, s.maintRefused false)

/-- Words of a read transaction from `addr` on: each returns data, status and CRC-8, here as two words (R623). -/
def State.maintWords (s : State) (late : Bool) : Nat → Nat → Words × State
  | 0, _ => ([], s)
  | n + 1, addr =>
    let r := s.maintWord addr late
    let crc := crc8 (addrBytes addr ++ leBytes 4 r.1.toNat ++ leBytes 1 r.2.1)
    let rest := r.2.2.maintWords late n (addr + 4)
    (r.1 :: wd (r.2.1 + crc * 256) :: rest.1, rest.2)

/-- MAINT_READ (R621 to R624): a read transaction of `count` words with its address CRC; `late` is a main fabric that does not answer
in time. The answer's words are data and status + 256 × CRC, alternating. -/
def execMaintRead (addr crc count : Nat) (late : Bool) (s : State) : Step :=
  if !s.bit pMAINT Off.maint_M_CFG 0 then .next s
  else
    let s1 := s.maintBegin addr
    let r := if crc = crc8 (addrBytes addr) then s1.maintWords late count addr
      else
        let w := wd (5 + crc8 (addrBytes addr ++ leBytes 4 0 ++ leBytes 1 5) * 256)
        ([0, w], s1.maintCrcErr)
    let st := wfld (r.1.getLastD 0) 0 8
    .next ((r.2.onResp fun _ => { value := wordAt r.1 0, status := st, words := r.1 }).maintEnd st)

/-- MAINT_WRITE (R621, R622, R624): a write transaction with its CRC over address and data. -/
def execMaintWrite (addr data crc : Nat) (late : Bool) (s : State) : Step :=
  if !s.bit pMAINT Off.maint_M_CFG 0 then .next s
  else
    let s1 := s.maintBegin addr
    let p := addr % 2 ^ 30 / 4096
    if crc ≠ crc8 (addrBytes addr ++ leBytes 4 data) then
      .next ((s1.maintCrcErr.onResp fun _ => { err := true, status := 5 }).maintEnd 5)
    else
      let c := s1.maintCheck addr true late
      let s2 := match c with
        | 0 =>
          if addr / 2 ^ 30 = 0 then s1.writePage .maint p (addr % 4096) (wd data) else s1.writeAt .maint (spaceBase addr) 4 data
        | 2 => s1.maintRefused true
        | 3 => ((s1.badAccess .maint p (addr % 4096) 3).maintRefused false).raise pMAINT 9
        | _ => s1
      let st := if c = 0 ∧ addr / 2 ^ 30 = 0 then (if pageKind p = .none then 4 else if !s1.powered p || s1.fenced p then 1 else 0) else c
      .next ((s2.onResp fun _ => { status := st }).maintEnd st)

/-! ## The configuration check -/

/-- Read the listed registers in order (R557). -/
def State.checkWords (s : State) : List Nat → Words × State
  | [] => ([], s)
  | i :: is =>
    let a := s.fld pSAFETY (Off.safety_CHK_ADDR + 4 * i) 2 20 * 4
    let t := s.readPage (.core 0) (a / 4096) (a % 4096)
    let rest := t.checkWords is
    (t.resp.value :: rest.1, rest.2)

/-- CONFIG_CHECK_RUN (R557): the CRC-32C of the listed registers against CHK_EXPECT; `late` is a read that is not answered. -/
def execConfigCheckRun (late : Bool) (s : State) : Step :=
  let p := pSAFETY
  if !s.bit p Off.safety_CHK_CFG 7 then .next s
  else
    let r := s.checkWords (List.range (min 64 (s.fld p Off.safety_CHK_CFG 0 7)))
    let t := r.2.onResp fun _ => s.resp
    let t0 := t.countWrap p Off.safety_CHK_STAT 16 16 1
    if late then .next (((t0.putBit p Off.safety_CHK_STAT 1 true).raise p 14).fnUpdate)
    else
      let crc := wd (crc32c (wordsBytes r.1))
      let t1 := t0.setReg p Off.safety_CHK_RESULT crc
      if crc = t1.reg p Off.safety_CHK_EXPECT then .next ((t1.setFld p Off.safety_CHK_STAT 0 2 0).fnUpdate)
      else .next (((t1.putBit p Off.safety_CHK_STAT 0 true).raise p 14).fnUpdate)

end Sys2Proof.Machine
end

