-- ==== Sys2Proof/Machine/SwVector.lean ====
section
/-!
DEFINITION. Vector instructions of the Swarm: integer, fp32, accumulators, permutes, compares, masks, reductions, and vector
loads and stores (R249, R253 to R257).
-/

namespace Sys2Proof.Machine

open Sys2Proof

/-! ## Lane operations -/

/-- A vector result of type `ty` into v_D under the mask (R255). -/
def Thread.vmask (x : Thread) (w : Word) (ty : Nat) (new : List Nat) : Thread :=
  x.vput (fD w) (ofLanes ty (maskLanes (x.mget (fM w)) (lanes ty (x.vget (fD w))) new))

/-- Lanes of v_A, v_B by type. -/
def Thread.vA (x : Thread) (w : Word) (ty : Nat) : List Nat := lanes ty (x.vget (fA w))
def Thread.vB (x : Thread) (w : Word) (ty : Nat) : List Nat := lanes ty (x.vget (fB w))

/-- v_D ← f v_A v_B lane by lane, from the type's bits. -/
def State.vbin (s : State) (p t : Nat) (w : Word) (f : Nat → Nat → Nat → Nat) : State :=
  let ty := fType w
  s.done p t fun x => x.vmask w ty (List.zipWith (f (laneBits ty)) (x.vA w ty) (x.vB w ty))

/-- A lane as a signed number. -/
def sg (n a : Nat) : Int := signed n a
/-- A signed result wrapped into a lane. -/
def lw (n : Nat) (v : Int) : Nat := unsigned n v
/-- A signed result saturated into a lane. -/
def lsat (n : Nat) (v : Int) : Nat := unsigned n (satS n v)

/-- VADD (R257): wrapping sum. -/
def execVadd (p t : Nat) (s : State) : Step := .next (s.issue p t .vadd fun w u => u.vbin p t w fun n a b => (a + b) % 2 ^ n)

/-- VSUB (R257): wrapping difference. -/
def execVsub (p t : Nat) (s : State) : Step := .next (s.issue p t .vsub fun w u => u.vbin p t w fun n a b => lw n ((a : Int) - b))

/-- VADDS (R257): signed saturating sum. -/
def execVadds (p t : Nat) (s : State) : Step := .next (s.issue p t .vadds fun w u => u.vbin p t w fun n a b => lsat n (sg n a + sg n b))

/-- VSUBS (R257): signed saturating difference. -/
def execVsubs (p t : Nat) (s : State) : Step := .next (s.issue p t .vsubs fun w u => u.vbin p t w fun n a b => lsat n (sg n a - sg n b))

/-- VADDUS (R257): unsigned saturating sum. -/
def execVaddus (p t : Nat) (s : State) : Step := .next (s.issue p t .vaddus fun w u => u.vbin p t w fun n a b => Nat.min (2 ^ n - 1) (a + b))

/-- VSUBUS (R257): unsigned saturating difference. -/
def execVsubus (p t : Nat) (s : State) : Step := .next (s.issue p t .vsubus fun w u => u.vbin p t w fun _ a b => a - b)

/-- VAND (R257): AND. -/
def execVand (p t : Nat) (s : State) : Step := .next (s.issue p t .vand fun w u => u.vbin p t w fun _ a b => Nat.land a b)

/-- VOR (R257): OR. -/
def execVor (p t : Nat) (s : State) : Step := .next (s.issue p t .vor fun w u => u.vbin p t w fun _ a b => Nat.lor a b)

/-- VXOR (R257): XOR. -/
def execVxor (p t : Nat) (s : State) : Step := .next (s.issue p t .vxor fun w u => u.vbin p t w fun _ a b => Nat.xor a b)

/-- VMIN (R257): signed minimum. -/
def execVmin (p t : Nat) (s : State) : Step := .next (s.issue p t .vmin fun w u => u.vbin p t w fun n a b => if sg n b < sg n a then b else a)

/-- VMAX (R257): signed maximum. -/
def execVmax (p t : Nat) (s : State) : Step := .next (s.issue p t .vmax fun w u => u.vbin p t w fun n a b => if sg n a < sg n b then b else a)

/-- VMINU (R257): unsigned minimum. -/
def execVminu (p t : Nat) (s : State) : Step := .next (s.issue p t .vminu fun w u => u.vbin p t w fun _ a b => Nat.min a b)

/-- VMAXU (R257): unsigned maximum. -/
def execVmaxu (p t : Nat) (s : State) : Step := .next (s.issue p t .vmaxu fun w u => u.vbin p t w fun _ a b => Nat.max a b)

/-- VMUL (R257): low half of the product. -/
def execVmul (p t : Nat) (s : State) : Step := .next (s.issue p t .vmul fun w u => u.vbin p t w fun n a b => a * b % 2 ^ n)

/-- VMULH (R257): signed high half. -/
def execVmulh (p t : Nat) (s : State) : Step := .next (s.issue p t .vmulh fun w u => u.vbin p t w fun n a b => lw n (sg n a * sg n b / 2 ^ n))

/-- VMULHRS (R257): (a × b + 2^(n−2)) >> (n − 1), saturated. -/
def execVmulhrs (p t : Nat) (s : State) : Step := .next (s.issue p t .vmulhrs fun w u => u.vbin p t w fun n a b => lsat n ((sg n a * sg n b + 2 ^ (n - 2)) / 2 ^ (n - 1)))

/-- VABSD (R257): |a − b| of signed lanes. -/
def execVabsd (p t : Nat) (s : State) : Step := .next (s.issue p t .vabsd fun w u => u.vbin p t w fun n a b => lw n (sg n a - sg n b).natAbs)

/-- VAVG (R257): (a + b + 1) >> 1 signed. -/
def execVavg (p t : Nat) (s : State) : Step := .next (s.issue p t .vavg fun w u => u.vbin p t w fun n a b => lw n ((sg n a + sg n b + 1) / 2))

/-- A shift of each lane by amounts below its width; a larger amount, for which no result is stated, gives a free lane
(notes/assumptions/55.md). -/
def State.vshift (s : State) (p t : Nat) (w : Word) (amount : Thread → List Nat) (f : Nat → Nat → Nat → Nat) : State :=
  let ty := fType w
  let n := laneBits ty
  let r := s.drawNat
  r.2.done p t fun x => x.vmask w ty (List.zipWith (fun (a k : Nat) => if k < n then f n a k else (r.1 + a + k) % 2 ^ n)
    (x.vA w ty) (amount x))

/-- Shift amounts of field B for every lane. -/
def immAmounts (w : Word) : Thread → List Nat := fun _ => List.replicate 32 (fB w)

/-- VSLL (R257): left by v_B. -/
def execVsll (p t : Nat) (s : State) : Step :=
  .next (s.issue p t .vsll fun w u => u.vshift p t w (fun x => x.vB w (fType w)) fun n a k => a * 2 ^ k % 2 ^ n)

/-- VSRL (R257): logical right by v_B. -/
def execVsrl (p t : Nat) (s : State) : Step :=
  .next (s.issue p t .vsrl fun w u => u.vshift p t w (fun x => x.vB w (fType w)) fun _ a k => a / 2 ^ k)

/-- VSRA (R257): arithmetic right by v_B. -/
def execVsra (p t : Nat) (s : State) : Step :=
  .next (s.issue p t .vsra fun w u => u.vshift p t w (fun x => x.vB w (fType w)) fun n a k => lw n (sg n a / 2 ^ k))

/-- VSLLI (R257): left by field B. -/
def execVslli (p t : Nat) (s : State) : Step :=
  .next (s.issue p t .vslli fun w u => u.vshift p t w (immAmounts w) fun n a k => a * 2 ^ k % 2 ^ n)

/-- VSRLI (R257): logical right by field B. -/
def execVsrli (p t : Nat) (s : State) : Step :=
  .next (s.issue p t .vsrli fun w u => u.vshift p t w (immAmounts w) fun _ a k => a / 2 ^ k)

/-- VSRAI (R257): arithmetic right by field B. -/
def execVsrai (p t : Nat) (s : State) : Step :=
  .next (s.issue p t .vsrai fun w u => u.vshift p t w (immAmounts w) fun n a k => lw n (sg n a / 2 ^ k))

/-- VSEL (R255): lane from v_A where M is 1, else from v_B. -/
def execVsel (p t : Nat) (s : State) : Step :=
  .next (s.issue p t .vsel fun w u => u.done p t fun x =>
    x.vput (fD w) (ofLanes (fType w) (maskLanes (x.mget (fM w)) (x.vB w (fType w)) (x.vA w (fType w)))))

/-- VMOV (R257). -/
def execVmov (p t : Nat) (s : State) : Step :=
  .next (s.issue p t .vmov fun w u => u.done p t fun x => x.vmask w (fType w) (x.vA w (fType w)))

/-- VBCAST (R257): every lane ← s_A. -/
def execVbcast (p t : Nat) (s : State) : Step :=
  .next (s.issue p t .vbcast fun w u => u.done p t fun x =>
    x.vmask w (fType w) (List.replicate 32 ((x.sget (fA w)).toNat % 2 ^ laneBits (fType w))))

/-- VNARROW (R257): W lanes of v_A to H lanes 0 to 15, of v_B to 16 to 31, signed saturating. -/
def execVnarrow (p t : Nat) (s : State) : Step :=
  .next (s.issue p t .vnarrow fun w u => u.done p t fun x =>
    x.vmask w 0 ((x.vA w 1 ++ x.vB w 1).map fun a => lsat 16 (sg 32 a)))

/-- H lanes from `k` on, widened to W by `f`. -/
def State.vwiden (s : State) (p t : Nat) (w : Word) (k : Nat) (f : Nat → Nat) : State :=
  s.done p t fun x => x.vmask w 1 ((((x.vA w 0).drop k).take 16).map f)

/-- VWIDENL (R257). -/
def execVwidenl (p t : Nat) (s : State) : Step :=
  .next (s.issue p t .vwidenl fun w u => u.vwiden p t w 0 fun a => unsigned 32 (signed 16 a))

/-- VWIDENH (R257). -/
def execVwidenh (p t : Nat) (s : State) : Step :=
  .next (s.issue p t .vwidenh fun w u => u.vwiden p t w 16 fun a => unsigned 32 (signed 16 a))

/-- VWIDENLU (R257). -/
def execVwidenlu (p t : Nat) (s : State) : Step := .next (s.issue p t .vwidenlu fun w u => u.vwiden p t w 0 id)

/-- VWIDENHU (R257). -/
def execVwidenhu (p t : Nat) (s : State) : Step := .next (s.issue p t .vwidenhu fun w u => u.vwiden p t w 16 id)

/-! ## Vector fp32 -/

/-- v_D ← f v_A v_B in fp32 lanes. -/
def State.vfbin (s : State) (p t : Nat) (w : Word) (f : Word → Word → Word) : State :=
  s.done p t fun x => x.vmask w 1 ((List.zipWith f (x.vget (fA w)) (x.vget (fB w))).map (·.toNat))

/-- v_D ← f v_A in fp32 lanes. -/
def State.vfun (s : State) (p t : Nat) (w : Word) (f : Word → Word) : State :=
  s.done p t fun x => x.vmask w 1 ((x.vget (fA w)).map fun a => (f a).toNat)

/-- VFADD (R254): sum. -/
def execVfadd (p t : Nat) (s : State) : Step := .next (s.issue p t .vfadd fun w u => u.vfbin p t w fAdd)

/-- VFSUB (R254): difference. -/
def execVfsub (p t : Nat) (s : State) : Step := .next (s.issue p t .vfsub fun w u => u.vfbin p t w fSub)

/-- VFMUL (R254): product. -/
def execVfmul (p t : Nat) (s : State) : Step := .next (s.issue p t .vfmul fun w u => u.vfbin p t w fMul)

/-- VFMIN (R254): minimum. -/
def execVfmin (p t : Nat) (s : State) : Step := .next (s.issue p t .vfmin fun w u => u.vfbin p t w (fMinMax false))

/-- VFMAX (R254): maximum. -/
def execVfmax (p t : Nat) (s : State) : Step := .next (s.issue p t .vfmax fun w u => u.vfbin p t w (fMinMax true))

/-- VFMA (R254): v_D + v_A × v_B with one rounding. -/
def execVfma (p t : Nat) (s : State) : Step :=
  .next (s.issue p t .vfma fun w u => u.done p t fun x =>
    x.vmask w 1 ((List.zipWith (fun c (ab : Word × Word) => fMa c ab.1 ab.2) (x.vget (fD w))
      ((x.vget (fA w)).zip (x.vget (fB w)))).map (·.toNat)))

/-- VFCVTWS (R254): fp32 to int32. -/
def execVfcvtws (p t : Nat) (s : State) : Step := .next (s.issue p t .vfcvtws fun w u => u.vfun p t w fToInt)

/-- VFCVTSW (R254): int32 to fp32. -/
def execVfcvtsw (p t : Nat) (s : State) : Step := .next (s.issue p t .vfcvtsw fun w u => u.vfun p t w intToF)

/-- VFRCP (R254): reciprocal. -/
def execVfrcp (p t : Nat) (s : State) : Step := .next (s.issue p t .vfrcp fun w u => u.vfun p t w fRcp)

/-- VFRSQ (R254): reciprocal square root. -/
def execVfrsq (p t : Nat) (s : State) : Step := .next (s.issue p t .vfrsq fun w u => u.vfun p t w fRsq)

/-- VFABS (R254): absolute value. -/
def execVfabs (p t : Nat) (s : State) : Step := .next (s.issue p t .vfabs fun w u => u.vfun p t w (fun a => fSign a false))

/-- VFCVTSH (R254): binary16 lanes 0 to 15 of v_A to fp32. -/
def execVfcvtsh (p t : Nat) (s : State) : Step :=
  .next (s.issue p t .vfcvtsh fun w u => u.vwiden p t w 0 fun a => (f16ToF32 a).toNat)

/-- VFCVTSHH (R254): lanes 16 to 31. -/
def execVfcvtshh (p t : Nat) (s : State) : Step :=
  .next (s.issue p t .vfcvtshh fun w u => u.vwiden p t w 16 fun a => (f16ToF32 a).toNat)

/-- VFCVTHS (R254): v_A to binary16 lanes 0 to 15, v_B to lanes 16 to 31. -/
def execVfcvths (p t : Nat) (s : State) : Step :=
  .next (s.issue p t .vfcvths fun w u => u.done p t fun x =>
    x.vmask w 0 ((x.vget (fA w) ++ x.vget (fB w)).map f32ToF16))

/-- VFBCAST (R254): every lane ← s_A. -/
def execVfbcast (p t : Nat) (s : State) : Step :=
  .next (s.issue p t .vfbcast fun w u => u.done p t fun x => x.vmask w 1 (List.replicate 16 (x.sget (fA w)).toNat))

/-! ## Accumulators -/

/-- acc_D[i] += term i for the enabled lanes of type H (R253). -/
def State.vmac (s : State) (p t : Nat) (w : Word) (f : Thread → List Int) : State :=
  s.done p t fun x =>
    let old := x.aget (fD w)
    x.aput (fD w) (maskLanes (x.mget (fM w)) old (List.zipWith (fun (a : Nat) d => unsigned 40 ((a : Int) + d)) old (f x)))

/-- Signed H products of two registers. -/
def hProducts (a b : Words) : List Int := List.zipWith (fun x y => sg 16 x * sg 16 y) (lanesH a) (lanesH b)

/-- VMAC.H (R253). -/
def execVmacH (p t : Nat) (s : State) : Step :=
  .next (s.issue p t .vmacH fun w u => u.vmac p t w fun x => hProducts (x.vget (fA w)) (x.vget (fB w)))

/-- VDOT2.H (R253): v_A v_B + v_(A+1) v_(B+1). -/
def execVdot2H (p t : Nat) (s : State) : Step :=
  .next (s.issue p t .vdot2H fun w u => u.vmac p t w fun x =>
    List.zipWith (· + ·) (hProducts (x.vget (fA w)) (x.vget (fB w))) (hProducts (x.vget (fA w + 1)) (x.vget (fB w + 1))))

/-- VMACS.H (R253): by s_B[15:0], signed. -/
def execVmacsH (p t : Nat) (s : State) : Step :=
  .next (s.issue p t .vmacsH fun w u => u.vmac p t w fun x =>
    (lanesH (x.vget (fA w))).map fun a => sg 16 a * sg 16 (x.sget (fB w)).toNat)

/-- VMSUB.H (R253). -/
def execVmsubH (p t : Nat) (s : State) : Step :=
  .next (s.issue p t .vmsubH fun w u => u.vmac p t w fun x => (hProducts (x.vget (fA w)) (x.vget (fB w))).map fun d => -d)

/-- W lane j of an accumulator: the 80 bits of H lanes 2j and 2j + 1 (R253). -/
def accW (l : List Nat) : List Nat := (List.range 16).map fun j => l.getD (2 * j) 0 + l.getD (2 * j + 1) 0 * 2 ^ 40

/-- H lanes of 80-bit lanes. -/
def ofAccW (l : List Nat) : List Nat := l.flatMap fun a => [a % 2 ^ 40, a / 2 ^ 40 % 2 ^ 40]

/-- VMAC.W (R253): 80-bit lanes. -/
def execVmacW (p t : Nat) (s : State) : Step :=
  .next (s.issue p t .vmacW fun w u => u.done p t fun x =>
    let old := accW (x.aget (fD w))
    let prod := List.zipWith (fun a b => sg 32 a * sg 32 b) (x.vA w 1) (x.vB w 1)
    x.aput (fD w) (ofAccW (maskLanes (x.mget (fM w)) old
      (List.zipWith (fun (a : Nat) d => unsigned 80 ((a : Int) + d)) old prod))))

/-- ACCZ (R253): 0 for the enabled lanes. -/
def execAccz (p t : Nat) (s : State) : Step :=
  .next (s.issue p t .accz fun w u => u.done p t fun x =>
    x.aput (fD w) (maskLanes (x.mget (fM w)) (x.aget (fD w)) (List.replicate 32 0)))

/-- ACCLD.H (R253): sext(v_A.h[i]) << B. -/
def execAccldH (p t : Nat) (s : State) : Step :=
  .next (s.issue p t .accldH fun w u => u.done p t fun x =>
    x.aput (fD w) (maskLanes (x.mget (fM w)) (x.aget (fD w))
      ((lanesH (x.vget (fA w))).map fun a => unsigned 40 (sg 16 a * 2 ^ fB w))))

/-- sat((acc + rnd) >> B) of a lane of `m` bits to `n` bits (R253). -/
def accRead (m n b a : Nat) : Nat := lsat n ((sg m a + (if b = 0 then 0 else 2 ^ (b - 1) : Int)) / 2 ^ b)

/-- ACCR.H (R253). -/
def execAccrH (p t : Nat) (s : State) : Step :=
  .next (s.issue p t .accrH fun w u => u.done p t fun x => x.vmask w 0 ((x.aget (fA w)).map (accRead 40 16 (fB w))))

/-- ACCR2.W (R253): lanes 0 to 15 to v_D, 16 to 31 to v_(D+1); mask bit i governs accumulator lane i
(notes/assumptions/57.md). -/
def execAccr2W (p t : Nat) (s : State) : Step :=
  .next (s.issue p t .accr2W fun w u => u.done p t fun x =>
    let r := (x.aget (fA w)).map (accRead 40 32 (fB w))
    let old := lanesW (x.vget (fD w)) ++ lanesW (x.vget (fD w + 1))
    let new := maskLanes (x.mget (fM w)) old r
    (x.vput (fD w) (ofLanesW (new.take 16))).vput (fD w + 1) (ofLanesW (new.drop 16)))

/-- ACCRW.W (R253): 80-bit lanes. -/
def execAccrwW (p t : Nat) (s : State) : Step :=
  .next (s.issue p t .accrwW fun w u => u.done p t fun x => x.vmask w 1 ((accW (x.aget (fA w))).map (accRead 80 32 (fB w))))

/-! ## Permutes -/

/-- v_D from v_A, v_B and the old v_D by lane lists. -/
def State.vperm (s : State) (p t : Nat) (w : Word) (f : List Nat → List Nat → List Nat → List Nat) : State :=
  let ty := fType w
  s.done p t fun x => x.vmask w ty (f (lanes ty (x.vget (fD w))) (x.vA w ty) (x.vB w ty))

/-- Interleave two lists. -/
def interleave : List Nat → List Nat → List Nat
  | a :: as, b :: bs => a :: b :: interleave as bs
  | _, _ => []

/-- Every second entry from index `k`. -/
def everySecond (k : Nat) (l : List Nat) : List Nat := (List.range (l.length / 2)).map fun i => l.getD (2 * i + k) 0

/-- VSLIDE (R253): lane i ← lane i + k of v_A, v_B. -/
def execVslide (p t : Nat) (s : State) : Step :=
  .next (s.issue p t .vslide fun w u => u.vperm p t w fun _ a b => ((a ++ b).drop (fCode w)).take a.length)

/-- VSHUF (R253): lane i ← lane (old v_D lane i) mod 2 × lanes. -/
def execVshuf (p t : Nat) (s : State) : Step :=
  .next (s.issue p t .vshuf fun w u => u.vperm p t w fun d a b => d.map fun i => (a ++ b).getD (i % (2 * a.length)) 0)

/-- VZIPL (R253). -/
def execVzipl (p t : Nat) (s : State) : Step :=
  .next (s.issue p t .vzipl fun w u => u.vperm p t w fun _ a b => interleave (a.take (a.length / 2)) (b.take (b.length / 2)))

/-- VZIPH (R253). -/
def execVziph (p t : Nat) (s : State) : Step :=
  .next (s.issue p t .vziph fun w u => u.vperm p t w fun _ a b => interleave (a.drop (a.length / 2)) (b.drop (b.length / 2)))

/-- VUNZIPE (R253). -/
def execVunzipe (p t : Nat) (s : State) : Step :=
  .next (s.issue p t .vunzipe fun w u => u.vperm p t w fun _ a b => everySecond 0 a ++ everySecond 0 b)

/-- VUNZIPO (R253). -/
def execVunzipo (p t : Nat) (s : State) : Step :=
  .next (s.issue p t .vunzipo fun w u => u.vperm p t w fun _ a b => everySecond 1 a ++ everySecond 1 b)

/-- VEXT (R253): s_D ← lane B; a W lane above 15 does not exist, and its value is free (notes/assumptions/56.md). -/
def execVext (p t : Nat) (s : State) : Step :=
  .next (s.issue p t .vext fun w u =>
    let r := u.drawWord
    r.2.done p t fun x => x.sput (fD w) (match (x.vA w (fType w))[fB w]? with
      | some a => wd a
      | none => r.1))

/-- VINS (R253): lane B of v_D ← s_A. -/
def execVins (p t : Nat) (s : State) : Step :=
  .next (s.issue p t .vins fun w u => u.vperm p t w fun d _ _ => d.set (fB w) ((u.thr p t).sget (fA w)).toNat)

/-- VREV (R253). -/
def execVrev (p t : Nat) (s : State) : Step := .next (s.issue p t .vrev fun w u => u.vperm p t w fun _ a _ => a.reverse)

/-! ## Compares and masks -/

/-- m_D bit i ← compare, disabled lanes 0 (R255); `fi` compares integer lanes of n bits, `ff` fp32 lanes. -/
def State.vcmp (s : State) (p t : Nat) (w : Word) (fi : Nat → Nat → Nat → Bool) (ff : F32 → F32 → Bool) : State :=
  let ty := fType w
  s.done p t fun x =>
    let m := x.mget (fM w)
    let r := if ty = 2 then List.zipWith (fun a b => ff (f32 a) (f32 b)) (x.vget (fA w)) (x.vget (fB w))
      else List.zipWith (fi (laneBits ty)) (x.vA w ty) (x.vB w ty)
    x.mput (fD w) (wd ((List.range r.length).foldl (fun a i => a + (r.getD i false && bitAt m i).toNat * 2 ^ i) 0))

/-- VcmpEq (R255): equal. -/
def execVcmpEq (p t : Nat) (s : State) : Step :=
  .next (s.issue p t .vcmpEq fun w u => u.vcmp p t w (fun _ a b => a == b) (fun a b => a.eq b))

/-- VcmpNe (R255): not equal. -/
def execVcmpNe (p t : Nat) (s : State) : Step :=
  .next (s.issue p t .vcmpNe fun w u => u.vcmp p t w (fun _ a b => a != b) (fun a b => !a.eq b))

/-- VcmpLt (R255): signed less. -/
def execVcmpLt (p t : Nat) (s : State) : Step :=
  .next (s.issue p t .vcmpLt fun w u => u.vcmp p t w (fun n a b => decide (sg n a < sg n b)) (fun a b => a.lt b))

/-- VcmpLe (R255): signed less or equal. -/
def execVcmpLe (p t : Nat) (s : State) : Step :=
  .next (s.issue p t .vcmpLe fun w u => u.vcmp p t w (fun n a b => decide (sg n a ≤ sg n b)) (fun a b => a.lt b || a.eq b))

/-- VcmpLtu (R255): unsigned less. -/
def execVcmpLtu (p t : Nat) (s : State) : Step :=
  .next (s.issue p t .vcmpLtu fun w u => u.vcmp p t w (fun _ a b => decide (a < b)) (fun a b => a.lt b))

/-- VcmpLeu (R255): unsigned less or equal. -/
def execVcmpLeu (p t : Nat) (s : State) : Step :=
  .next (s.issue p t .vcmpLeu fun w u => u.vcmp p t w (fun _ a b => decide (a ≤ b)) (fun a b => a.lt b || a.eq b))

/-- m_D ← f m_A m_B. -/
def State.mop (s : State) (p t : Nat) (w : Word) (f : Word → Word → Word) : State :=
  s.done p t fun x => x.mput (fD w) (f (x.mget (fA w)) (x.mget (fB w)))

/-- MAND (R253). -/
def execMand (p t : Nat) (s : State) : Step := .next (s.issue p t .mand fun w u => u.mop p t w fun a b => a &&& b)

/-- MOR (R253). -/
def execMor (p t : Nat) (s : State) : Step := .next (s.issue p t .mor fun w u => u.mop p t w fun a b => a ||| b)

/-- MXOR (R253). -/
def execMxor (p t : Nat) (s : State) : Step := .next (s.issue p t .mxor fun w u => u.mop p t w fun a b => a ^^^ b)

/-- MNOT (R253). -/
def execMnot (p t : Nat) (s : State) : Step := .next (s.issue p t .mnot fun w u => u.mop p t w fun a _ => ~~~a)

/-- MSET (R253). -/
def execMset (p t : Nat) (s : State) : Step :=
  .next (s.issue p t .mset fun w u => u.done p t fun x => x.mput (fD w) (x.sget (fA w)))

/-! ## Reductions -/

/-- The enabled lanes of v_A. -/
def Thread.enabled (x : Thread) (w : Word) (ty : Nat) : List (Option Nat) :=
  let l := x.vA w ty
  (List.range l.length).map fun i => if bitAt (x.mget (fM w)) i then some (l.getD i 0) else none

/-- One pairwise level of VRSUM.S: disabled lanes are absent. -/
def pairSum : List (Option Nat) → List (Option Nat)
  | a :: b :: t => (match a, b with
      | some x, some y => some (fAdd (wd x) (wd y)).toNat
      | some x, none | none, some x => some (f32 (wd x)).word.toNat
      | none, none => none) :: pairSum t
  | l => l

/-- VRSUM (R253): H lanes sum as signed numbers to 32 bits, W lanes wrap, S lanes sum pairwise. -/
def execVrsum (p t : Nat) (s : State) : Step :=
  .next (s.issue p t .vrsum fun w u => u.done p t fun x =>
    x.sput (fD w) (if fType w = 2 then wd (((pairSum (pairSum (pairSum (pairSum (x.enabled w 1))))).headD none).getD 0)
      else wd (unsigned 32 (((x.enabled w (fType w)).filterMap id).foldl (fun (a : Int) v => a + sg (laneBits (fType w)) v) 0))))

/-- s_D ← the best enabled lane: `better a b` prefers a; `ident` and `ext` by the type's bits. -/
def State.vreduce (s : State) (p t : Nat) (w : Word) (better : Nat → Nat → Nat → Bool) (ident : Nat → Nat) (isSigned : Bool) : State :=
  let n := laneBits (fType w)
  s.done p t fun x =>
    let r := ((x.enabled w (fType w)).filterMap id).foldl (fun a v => if better n v a then v else a) (ident n)
    x.sput (fD w) (if isSigned then wd (unsigned 32 (sg n r)) else wd r)

/-- VRMIN (R253). -/
def execVrmin (p t : Nat) (s : State) : Step :=
  .next (s.issue p t .vrmin fun w u => u.vreduce p t w (fun n a b => decide (sg n a < sg n b)) (fun n => 2 ^ (n - 1) - 1) true)

/-- VRMAX (R253). -/
def execVrmax (p t : Nat) (s : State) : Step :=
  .next (s.issue p t .vrmax fun w u => u.vreduce p t w (fun n a b => decide (sg n b < sg n a)) (fun n => 2 ^ (n - 1)) true)

/-- VRMINU (R253). -/
def execVrminu (p t : Nat) (s : State) : Step :=
  .next (s.issue p t .vrminu fun w u => u.vreduce p t w (fun _ a b => decide (a < b)) (fun n => 2 ^ n - 1) false)

/-- VRMAXU (R253). -/
def execVrmaxu (p t : Nat) (s : State) : Step :=
  .next (s.issue p t .vrmaxu fun w u => u.vreduce p t w (fun _ a b => decide (b < a)) (fun _ => 0) false)

/-- MGET (R253). -/
def execMget (p t : Nat) (s : State) : Step :=
  .next (s.issue p t .mget fun w u => u.done p t fun x => x.sput (fD w) (x.mget (fA w)))

/-- MCOUNT (R253). -/
def execMcount (p t : Nat) (s : State) : Step :=
  .next (s.issue p t .mcount fun w u => u.done p t fun x => x.sput (fD w) (wd (popCount (x.mget (fA w)).toNat 32)))

/-! ## Vector loads and stores -/

/-- Address s_A + sext(IMM) × k. -/
def State.vecAddr (s : State) (p t k : Nat) (w : Word) : Nat :=
  unsigned 32 (((s.thr p t).sget (fA w)).toNat + signed 16 (fImm w) * k)

/-- VLD (R249): 64-byte aligned. -/
def execVld (p t : Nat) (e : ReadErr) (s : State) : Step :=
  .next (s.issue p t .vld fun w u => u.load p t (u.vecAddr p t 64 w) 64 64 e fun bs v =>
    v.done p t fun x => x.vput (fD w) (bytesWords 16 bs))

/-- VST (R249): 64-byte aligned. -/
def execVst (p t : Nat) (s : State) : Step :=
  .next (s.issue p t .vst fun w u => u.store p t (u.vecAddr p t 64 w) 64 (wordsBytes ((u.thr p t).vget (fD w))) fun v =>
    v.done p t id)

/-- VLDU (R249): 2-byte aligned. -/
def execVldu (p t : Nat) (e : ReadErr) (s : State) : Step :=
  .next (s.issue p t .vldu fun w u => u.load p t (u.vecAddr p t 2 w) 64 2 e fun bs v =>
    v.done p t fun x => x.vput (fD w) (bytesWords 16 bs))

/-- Halfword accesses of the enabled lanes as (address, lane). -/
def Thread.laneAddrs (x : Thread) (w : Word) (off : Nat → Nat) : List (Nat × Nat) :=
  ((List.range 32).filter fun i => bitAt (x.mget (fM w)) i).map fun i => (((x.sget (fA w)).toNat + off i) % 2 ^ 32, i)

/-- Store halfwords lane by lane, after every address has been checked (R249, R274). -/
def State.storeLanes (s : State) (p t : Nat) (w : Word) (l : List (Nat × Nat)) : State :=
  let d := lanesH ((s.thr p t).vget (fD w))
  match l.find? fun a => a.1 % 2 != 0 || s.engAddr p a.1 2 == .bad with
  | some a => s.trap p t (if a.1 % 2 ≠ 0 then 2 else 3) (wd a.1)
  | none => (l.foldl (fun u a => u.engStore p (u.engAddr p a.1 2) (leBytes 2 (d.getD a.2 0))) s).done p t id

/-- VSTM (R249): the enabled H lanes of v_D at s_A. -/
def execVstm (p t : Nat) (s : State) : Step :=
  .next (s.issue p t .vstm fun w u => u.storeLanes p t w ((u.thr p t).laneAddrs w fun i => 2 * i))

/-- VSCAT (R249): on equal addresses the highest lane lands. -/
def execVscat (p t : Nat) (s : State) : Step :=
  .next (s.issue p t .vscat fun w u =>
    let x := u.thr p t
    u.storeLanes p t w (x.laneAddrs w fun i => 2 * (lanesH (x.vget (fB w))).getD i 0))

/-- Gather halfwords in lane order, `e` being what ECC finds at lane `lane`; the first access that traps ends it (R274). -/
def State.gather (s : State) (p : Nat) (e : ReadErr) (lane : Nat) : List (Nat × Nat) → Except (Nat × Nat) (List (Nat × Nat)) × State
  | [] => (.ok [], s)
  | (a, i) :: rest =>
    if a % 2 ≠ 0 then (.error (2, a), s)
    else
      let r := s.engLoad p (s.engAddr p a 2) 2 (if i = lane then e else .clean)
      match r.1 with
      | .error c => (.error (c, a), r.2)
      | .ok bs =>
        let t := r.2.gather p e lane rest
        (match t.1 with
         | .ok l => .ok ((i, ofLeBytes bs) :: l)
         | .error x => .error x, t.2)

/-- VGATH (R249): enabled lanes from memory, the others 0. -/
def execVgath (p t : Nat) (e : ReadErr) (lane : Nat) (s : State) : Step :=
  .next (s.issue p t .vgath fun w u =>
    let x := u.thr p t
    let r := u.gather p e lane (x.laneAddrs w fun i => 2 * (lanesH (x.vget (fB w))).getD i 0)
    match r.1 with
    | .error c => r.2.trap p t c.1 (wd c.2)
    | .ok l => r.2.done p t fun y =>
        y.vput (fD w) (ofLanesH ((List.range 32).map fun i => ((l.find? fun z => z.1 == i).map (·.2)).getD 0)))

end Sys2Proof.Machine
end

