-- ==== Sys2Proof/Machine/Dispatch.lean ====
section
/-!
DEFINITION. The dispatch: one arm per command, each a direct call of its meaning.
-/

namespace Sys2Proof.Machine

def exec (i : Instr) (s : State) : Host.Outcome State Fault Refusal :=
  match i with
  | .registerWrite m a len v => Sys2Proof.Machine.execRegisterWrite m a len v s
  | .rcRead m a len => Sys2Proof.Machine.execRcRead m a len s
  | .rulerLowRead m a len => Sys2Proof.Machine.execRulerLowRead m a len s
  | .pgFenceWrite m p v => Sys2Proof.Machine.execPgFenceWrite m p v s
  | .softRst m p v => Sys2Proof.Machine.execSoftRst m p v s
  | .softResetDone p => Sys2Proof.Machine.execSoftResetDone p s
  | .pgFreezeWrite m p v => Sys2Proof.Machine.execPgFreezeWrite m p v s
  | .pgEnWrite m p v => Sys2Proof.Machine.execPgEnWrite m p v s
  | .eventPortWrite m p k v => Sys2Proof.Machine.execEventPortWrite m p k v s
  | .commit m p v => Sys2Proof.Machine.execCommit m p v s
  | .cancel m p v => Sys2Proof.Machine.execCancel m p v s
  | .shadowCommit p => Sys2Proof.Machine.execShadowCommit p s
  | .pgLockUnlock m p v => Sys2Proof.Machine.execPgLockUnlock m p v s
  | .unlockLapse p => Sys2Proof.Machine.execUnlockLapse p s
  | .regTimeout m p o write => Sys2Proof.Machine.execRegTimeout m p o write s
  | .busTimeout p => Sys2Proof.Machine.execBusTimeout p s
  | .fabricTransaction n reqs => Sys2Proof.Machine.execFabricTransaction n reqs s
  | .dramAccess mp a w err act core => Sys2Proof.Machine.execDramAccess mp a w err act core s
  | .refreshWindow n => Sys2Proof.Machine.execRefreshWindow n s
  | .dramScrubStep n err again => Sys2Proof.Machine.execDramScrubStep n err again s
  | .dramBgSweep n lane rd wr width => Sys2Proof.Machine.execDramBgSweep n lane rd wr width s
  | .marginCheck n lane fails => Sys2Proof.Machine.execMarginCheck n lane fails s
  | .wckOscRead n drift => Sys2Proof.Machine.execWckOscRead n drift s
  | .resWrite m n v => Sys2Proof.Machine.execResWrite m n v s
  | .bankHashWrite m k v => Sys2Proof.Machine.execBankHashWrite m k v s
  | .topoWrite m v => Sys2Proof.Machine.execTopoWrite m v s
  | .laneCfgWrite m n v => Sys2Proof.Machine.execLaneCfgWrite m n v s
  | .timebaseTick => Sys2Proof.Machine.execTimebaseTick s
  | .snapGo m v => Sys2Proof.Machine.execSnapGo m v s
  | .snapshotStrobe => Sys2Proof.Machine.execSnapshotStrobe s
  | .timeSetGo m v => Sys2Proof.Machine.execTimeSetGo m v s
  | .timeCtrlWrite m v => Sys2Proof.Machine.execTimeCtrlWrite m v s
  | .encoderEdge e a b => Sys2Proof.Machine.execEncoderEdge e a b s
  | .encoderIndexEdge e j => Sys2Proof.Machine.execEncoderIndexEdge e j s
  | .posSet m d v => Sys2Proof.Machine.execPosSet m d v s
  | .stillTimeout d => Sys2Proof.Machine.execStillTimeout d s
  | .slipDwell d => Sys2Proof.Machine.execSlipDwell d s
  | .phaseCrossing q falling width => Sys2Proof.Machine.execPhaseCrossing q falling width s
  | .phaseCrossingTimeout p => Sys2Proof.Machine.execPhaseCrossingTimeout p s
  | .phaseHoldExpiry p => Sys2Proof.Machine.execPhaseHoldExpiry p s
  | .load m k => Sys2Proof.Machine.execLoad m k s
  | .cueStore m k => Sys2Proof.Machine.execCueStore m k s
  | .disarm m k => Sys2Proof.Machine.execDisarm m k s
  | .clear m k => Sys2Proof.Machine.execClear m k s
  | .headLineStart n late errs => Sys2Proof.Machine.execHeadLineStart n late errs s
  | .llSensorTimeout k => Sys2Proof.Machine.execLlSensorTimeout k s
  | .headLineOut n pads => Sys2Proof.Machine.execHeadLineOut n pads s
  | .csi2Packet n vc dt hdr bad data => Sys2Proof.Machine.execCsi2Packet n vc dt hdr bad data s
  | .deskewSequence n periodic => Sys2Proof.Machine.execDeskewSequence n periodic s
  | .dlkBlockLockAcquired n p => Sys2Proof.Machine.execDlkBlockLockAcquired n p s
  | .dlkBlockLockLost n p hdrs full => Sys2Proof.Machine.execDlkBlockLockLost n p hdrs full s
  | .dlkIdleBlock n p level => Sys2Proof.Machine.execDlkIdleBlock n p level s
  | .dlkElasticUnderflow n p level => Sys2Proof.Machine.execDlkElasticUnderflow n p level s
  | .dlkAlignBlock n p b blk bip => Sys2Proof.Machine.execDlkAlignBlock n p b blk bip s
  | .dlkMarkerTimeout n p => Sys2Proof.Machine.execDlkMarkerTimeout n p s
  | .dlkSpareMapTimeout n => Sys2Proof.Machine.execDlkSpareMapTimeout n s
  | .laneReturns n p => Sys2Proof.Machine.execLaneReturns n p s
  | .dlkFrameStart n b => Sys2Proof.Machine.execDlkFrameStart n b s
  | .dlkLine n k emb lanes => Sys2Proof.Machine.execDlkLine n k emb lanes s
  | .dlkFrameEnd n b => Sys2Proof.Machine.execDlkFrameEnd n b s
  | .bcmsg n b => Sys2Proof.Machine.execBcmsg n b s
  | .dlkTimeSend n => Sys2Proof.Machine.execDlkTimeSend n s
  | .ping n => Sys2Proof.Machine.execPing n s
  | .trigger n k => Sys2Proof.Machine.execTrigger n k s
  | .bcTxGo m n v => Sys2Proof.Machine.execBcTxGo m n v s
  | .bcTimeout n seq => Sys2Proof.Machine.execBcTimeout n seq s
  | .dlkEnable m n v => Sys2Proof.Machine.execDlkEnable m n v s
  | .dlkDisable m n v => Sys2Proof.Machine.execDlkDisable m n v s
  | .strmLoad m => Sys2Proof.Machine.execStrmLoad m s
  | .strmStore m => Sys2Proof.Machine.execStrmStore m s
  | .stop m => Sys2Proof.Machine.execStop m s
  | .stopNow m => Sys2Proof.Machine.execStopNow m s
  | .captureFrameStart c e => Sys2Proof.Machine.execCaptureFrameStart c e s
  | .captureLine c => Sys2Proof.Machine.execCaptureLine c s
  | .captureFrameEnd c => Sys2Proof.Machine.execCaptureFrameEnd c s
  | .frameTimeout c => Sys2Proof.Machine.execFrameTimeout c s
  | .seqWriteAck c => Sys2Proof.Machine.execSeqWriteAck c s
  | .seqWriteFail c => Sys2Proof.Machine.execSeqWriteFail c s
  | .i3cCmd m n v => Sys2Proof.Machine.execI3cCmd m n v s
  | .i3cTransferDone n nack data => Sys2Proof.Machine.execI3cTransferDone n nack data s
  | .i3cIbi n addr mdb => Sys2Proof.Machine.execI3cIbi n addr mdb s
  | .ctxLoad m n => Sys2Proof.Machine.execCtxLoad m n s
  | .ctxStore m n => Sys2Proof.Machine.execCtxStore m n s
  | .start m n => Sys2Proof.Machine.execStart m n s
  | .ctxStop m n => Sys2Proof.Machine.execCtxStop m n s
  | .ctxStopNow m n => Sys2Proof.Machine.execCtxStopNow m n s
  | .pipeFrameAccept n c => Sys2Proof.Machine.execPipeFrameAccept n c s
  | .pipeMemDescTake n c => Sys2Proof.Machine.execPipeMemDescTake n c s
  | .pipeContextSwitch n => Sys2Proof.Machine.execPipeContextSwitch n s
  | .pipeRunStart n => Sys2Proof.Machine.execPipeRunStart n s
  | .tableLoadDone n => Sys2Proof.Machine.execTableLoadDone n s
  | .lutLoadDone n => Sys2Proof.Machine.execLutLoadDone n s
  | .safetyLate n c => Sys2Proof.Machine.execSafetyLate n c s
  | .pipeLine n errs => Sys2Proof.Machine.execPipeLine n errs s
  | .saveFault n c => Sys2Proof.Machine.execSaveFault n c s
  | .branchProgress n b c => Sys2Proof.Machine.execBranchProgress n b c s
  | .branchComplete n b c => Sys2Proof.Machine.execBranchComplete n b c s
  | .statsBlockDone n c => Sys2Proof.Machine.execStatsBlockDone n c s
  | .pipeFrameDone n c => Sys2Proof.Machine.execPipeFrameDone n c s
  | .psetPush m n v => Sys2Proof.Machine.execPsetPush m n v s
  | .tblDataRead m n o => Sys2Proof.Machine.execTblDataRead m n o s
  | .brLoad m n b => Sys2Proof.Machine.execBrLoad m n b s
  | .brStore m n b => Sys2Proof.Machine.execBrStore m n b s
  | .thrStart m p => Sys2Proof.Machine.execThrStart m p s
  | .park m p => Sys2Proof.Machine.execPark m p s
  | .thrReset m p => Sys2Proof.Machine.execThrReset m p s
  | .threadWaitEnd p t => Sys2Proof.Machine.execThreadWaitEnd p t s
  | .itemTimeout p t => Sys2Proof.Machine.execItemTimeout p t s
  | .watchdog p => Sys2Proof.Machine.execWatchdog p s
  | .illegalInstruction p t e => Sys2Proof.Machine.execIllegalInstruction p t e s
  | .nop p t => Sys2Proof.Machine.execNop p t s
  | .fence p t => Sys2Proof.Machine.execFence p t s
  | .eret p t => Sys2Proof.Machine.execEret p t s
  | .trap p t => Sys2Proof.Machine.execTrap p t s
  | .csrr p t => Sys2Proof.Machine.execCsrr p t s
  | .csrw p t => Sys2Proof.Machine.execCsrw p t s
  | .yield p t => Sys2Proof.Machine.execYield p t s
  | .exit p t => Sys2Proof.Machine.execExit p t s
  | .add p t => Sys2Proof.Machine.execAdd p t s
  | .sub p t => Sys2Proof.Machine.execSub p t s
  | .and_ p t => Sys2Proof.Machine.execAnd p t s
  | .or_ p t => Sys2Proof.Machine.execOr p t s
  | .xor_ p t => Sys2Proof.Machine.execXor p t s
  | .sll p t => Sys2Proof.Machine.execSll p t s
  | .srl p t => Sys2Proof.Machine.execSrl p t s
  | .sra p t => Sys2Proof.Machine.execSra p t s
  | .slt p t => Sys2Proof.Machine.execSlt p t s
  | .sltu p t => Sys2Proof.Machine.execSltu p t s
  | .min p t => Sys2Proof.Machine.execMin p t s
  | .max p t => Sys2Proof.Machine.execMax p t s
  | .minu p t => Sys2Proof.Machine.execMinu p t s
  | .maxu p t => Sys2Proof.Machine.execMaxu p t s
  | .mul p t => Sys2Proof.Machine.execMul p t s
  | .mulh p t => Sys2Proof.Machine.execMulh p t s
  | .mulhu p t => Sys2Proof.Machine.execMulhu p t s
  | .sextb p t => Sys2Proof.Machine.execSextb p t s
  | .sexth p t => Sys2Proof.Machine.execSexth p t s
  | .clz p t => Sys2Proof.Machine.execClz p t s
  | .popc p t => Sys2Proof.Machine.execPopc p t s
  | .addi p t => Sys2Proof.Machine.execAddi p t s
  | .andi p t => Sys2Proof.Machine.execAndi p t s
  | .ori p t => Sys2Proof.Machine.execOri p t s
  | .xori p t => Sys2Proof.Machine.execXori p t s
  | .slti p t => Sys2Proof.Machine.execSlti p t s
  | .lui p t => Sys2Proof.Machine.execLui p t s
  | .shi p t => Sys2Proof.Machine.execShi p t s
  | .fadd p t => Sys2Proof.Machine.execFadd p t s
  | .fsub p t => Sys2Proof.Machine.execFsub p t s
  | .fmul p t => Sys2Proof.Machine.execFmul p t s
  | .fma p t => Sys2Proof.Machine.execFma p t s
  | .fmin p t => Sys2Proof.Machine.execFmin p t s
  | .fmax p t => Sys2Proof.Machine.execFmax p t s
  | .feq p t => Sys2Proof.Machine.execFeq p t s
  | .flt p t => Sys2Proof.Machine.execFlt p t s
  | .fle p t => Sys2Proof.Machine.execFle p t s
  | .fcvtws p t => Sys2Proof.Machine.execFcvtws p t s
  | .fcvtsw p t => Sys2Proof.Machine.execFcvtsw p t s
  | .frcp p t => Sys2Proof.Machine.execFrcp p t s
  | .frsq p t => Sys2Proof.Machine.execFrsq p t s
  | .fabs p t => Sys2Proof.Machine.execFabs p t s
  | .fneg p t => Sys2Proof.Machine.execFneg p t s
  | .lw p t e => Sys2Proof.Machine.execLw p t e s
  | .sw p t => Sys2Proof.Machine.execSw p t s
  | .lhu p t e => Sys2Proof.Machine.execLhu p t e s
  | .sh p t => Sys2Proof.Machine.execSh p t s
  | .lbu p t e => Sys2Proof.Machine.execLbu p t e s
  | .sb p t => Sys2Proof.Machine.execSb p t s
  | .beq p t => Sys2Proof.Machine.execBeq p t s
  | .bne p t => Sys2Proof.Machine.execBne p t s
  | .blt p t => Sys2Proof.Machine.execBlt p t s
  | .bge p t => Sys2Proof.Machine.execBge p t s
  | .bltu p t => Sys2Proof.Machine.execBltu p t s
  | .bgeu p t => Sys2Proof.Machine.execBgeu p t s
  | .jal p t => Sys2Proof.Machine.execJal p t s
  | .jalr p t => Sys2Proof.Machine.execJalr p t s
  | .loop p t => Sys2Proof.Machine.execLoop p t s
  | .vadd p t => Sys2Proof.Machine.execVadd p t s
  | .vsub p t => Sys2Proof.Machine.execVsub p t s
  | .vadds p t => Sys2Proof.Machine.execVadds p t s
  | .vsubs p t => Sys2Proof.Machine.execVsubs p t s
  | .vaddus p t => Sys2Proof.Machine.execVaddus p t s
  | .vsubus p t => Sys2Proof.Machine.execVsubus p t s
  | .vand p t => Sys2Proof.Machine.execVand p t s
  | .vor p t => Sys2Proof.Machine.execVor p t s
  | .vxor p t => Sys2Proof.Machine.execVxor p t s
  | .vsll p t => Sys2Proof.Machine.execVsll p t s
  | .vsrl p t => Sys2Proof.Machine.execVsrl p t s
  | .vsra p t => Sys2Proof.Machine.execVsra p t s
  | .vmin p t => Sys2Proof.Machine.execVmin p t s
  | .vmax p t => Sys2Proof.Machine.execVmax p t s
  | .vminu p t => Sys2Proof.Machine.execVminu p t s
  | .vmaxu p t => Sys2Proof.Machine.execVmaxu p t s
  | .vmul p t => Sys2Proof.Machine.execVmul p t s
  | .vmulh p t => Sys2Proof.Machine.execVmulh p t s
  | .vmulhrs p t => Sys2Proof.Machine.execVmulhrs p t s
  | .vabsd p t => Sys2Proof.Machine.execVabsd p t s
  | .vavg p t => Sys2Proof.Machine.execVavg p t s
  | .vsel p t => Sys2Proof.Machine.execVsel p t s
  | .vmov p t => Sys2Proof.Machine.execVmov p t s
  | .vbcast p t => Sys2Proof.Machine.execVbcast p t s
  | .vnarrow p t => Sys2Proof.Machine.execVnarrow p t s
  | .vwidenl p t => Sys2Proof.Machine.execVwidenl p t s
  | .vwidenh p t => Sys2Proof.Machine.execVwidenh p t s
  | .vwidenlu p t => Sys2Proof.Machine.execVwidenlu p t s
  | .vwidenhu p t => Sys2Proof.Machine.execVwidenhu p t s
  | .vslli p t => Sys2Proof.Machine.execVslli p t s
  | .vsrli p t => Sys2Proof.Machine.execVsrli p t s
  | .vsrai p t => Sys2Proof.Machine.execVsrai p t s
  | .vfadd p t => Sys2Proof.Machine.execVfadd p t s
  | .vfsub p t => Sys2Proof.Machine.execVfsub p t s
  | .vfmul p t => Sys2Proof.Machine.execVfmul p t s
  | .vfma p t => Sys2Proof.Machine.execVfma p t s
  | .vfmin p t => Sys2Proof.Machine.execVfmin p t s
  | .vfmax p t => Sys2Proof.Machine.execVfmax p t s
  | .vfcvtws p t => Sys2Proof.Machine.execVfcvtws p t s
  | .vfcvtsw p t => Sys2Proof.Machine.execVfcvtsw p t s
  | .vfrcp p t => Sys2Proof.Machine.execVfrcp p t s
  | .vfrsq p t => Sys2Proof.Machine.execVfrsq p t s
  | .vfabs p t => Sys2Proof.Machine.execVfabs p t s
  | .vfcvtsh p t => Sys2Proof.Machine.execVfcvtsh p t s
  | .vfcvtshh p t => Sys2Proof.Machine.execVfcvtshh p t s
  | .vfcvths p t => Sys2Proof.Machine.execVfcvths p t s
  | .vfbcast p t => Sys2Proof.Machine.execVfbcast p t s
  | .vmacH p t => Sys2Proof.Machine.execVmacH p t s
  | .vdot2H p t => Sys2Proof.Machine.execVdot2H p t s
  | .vmacsH p t => Sys2Proof.Machine.execVmacsH p t s
  | .vmacW p t => Sys2Proof.Machine.execVmacW p t s
  | .vmsubH p t => Sys2Proof.Machine.execVmsubH p t s
  | .accz p t => Sys2Proof.Machine.execAccz p t s
  | .accldH p t => Sys2Proof.Machine.execAccldH p t s
  | .accrH p t => Sys2Proof.Machine.execAccrH p t s
  | .accr2W p t => Sys2Proof.Machine.execAccr2W p t s
  | .accrwW p t => Sys2Proof.Machine.execAccrwW p t s
  | .vslide p t => Sys2Proof.Machine.execVslide p t s
  | .vshuf p t => Sys2Proof.Machine.execVshuf p t s
  | .vzipl p t => Sys2Proof.Machine.execVzipl p t s
  | .vziph p t => Sys2Proof.Machine.execVziph p t s
  | .vunzipe p t => Sys2Proof.Machine.execVunzipe p t s
  | .vunzipo p t => Sys2Proof.Machine.execVunzipo p t s
  | .vext p t => Sys2Proof.Machine.execVext p t s
  | .vins p t => Sys2Proof.Machine.execVins p t s
  | .vrev p t => Sys2Proof.Machine.execVrev p t s
  | .vcmpEq p t => Sys2Proof.Machine.execVcmpEq p t s
  | .vcmpNe p t => Sys2Proof.Machine.execVcmpNe p t s
  | .vcmpLt p t => Sys2Proof.Machine.execVcmpLt p t s
  | .vcmpLe p t => Sys2Proof.Machine.execVcmpLe p t s
  | .vcmpLtu p t => Sys2Proof.Machine.execVcmpLtu p t s
  | .vcmpLeu p t => Sys2Proof.Machine.execVcmpLeu p t s
  | .mand p t => Sys2Proof.Machine.execMand p t s
  | .mor p t => Sys2Proof.Machine.execMor p t s
  | .mxor p t => Sys2Proof.Machine.execMxor p t s
  | .mnot p t => Sys2Proof.Machine.execMnot p t s
  | .mset p t => Sys2Proof.Machine.execMset p t s
  | .vrsum p t => Sys2Proof.Machine.execVrsum p t s
  | .vrmin p t => Sys2Proof.Machine.execVrmin p t s
  | .vrmax p t => Sys2Proof.Machine.execVrmax p t s
  | .vrminu p t => Sys2Proof.Machine.execVrminu p t s
  | .vrmaxu p t => Sys2Proof.Machine.execVrmaxu p t s
  | .mget p t => Sys2Proof.Machine.execMget p t s
  | .mcount p t => Sys2Proof.Machine.execMcount p t s
  | .vld p t e => Sys2Proof.Machine.execVld p t e s
  | .vst p t => Sys2Proof.Machine.execVst p t s
  | .vldu p t e => Sys2Proof.Machine.execVldu p t e s
  | .vstm p t => Sys2Proof.Machine.execVstm p t s
  | .vgath p t e lane => Sys2Proof.Machine.execVgath p t e lane s
  | .vscat p t => Sys2Proof.Machine.execVscat p t s
  | .qtake p t => Sys2Proof.Machine.execQtake p t s
  | .qtry p t => Sys2Proof.Machine.execQtry p t s
  | .qpush p t => Sys2Proof.Machine.execQpush p t s
  | .qpushnb p t => Sys2Proof.Machine.execQpushnb p t s
  | .qdone p t => Sys2Proof.Machine.execQdone p t s
  | .qrel p t => Sys2Proof.Machine.execQrel p t s
  | .qlevel p t => Sys2Proof.Machine.execQlevel p t s
  | .dmaq p t e => Sys2Proof.Machine.execDmaq p t e s
  | .dmaw p t => Sys2Proof.Machine.execDmaw p t s
  | .dmat p t => Sys2Proof.Machine.execDmat p t s
  | .dmarst p t => Sys2Proof.Machine.execDmarst p t s
  | .dmaDescComplete p t bus e at_ => Sys2Proof.Machine.execDmaDescComplete p t bus e at_ s
  | .amoadd p t e => Sys2Proof.Machine.execAmoadd p t e s
  | .amoswap p t e => Sys2Proof.Machine.execAmoswap p t e s
  | .amomin p t e => Sys2Proof.Machine.execAmomin p t e s
  | .amomax p t e => Sys2Proof.Machine.execAmomax p t e s
  | .amominu p t e => Sys2Proof.Machine.execAmominu p t e s
  | .amomaxu p t e => Sys2Proof.Machine.execAmomaxu p t e s
  | .amocas p t e => Sys2Proof.Machine.execAmocas p t e s
  | .bar p t => Sys2Proof.Machine.execBar p t s
  | .sigev p t => Sys2Proof.Machine.execSigev p t s
  | .waitev p t => Sys2Proof.Machine.execWaitev p t s
  | .testev p t => Sys2Proof.Machine.execTestev p t s
  | .engineEventIn p k => Sys2Proof.Machine.execEngineEventIn p k s
  | .loadCtrlGo m k v => Sys2Proof.Machine.execLoadCtrlGo m k v s
  | .programLoadDone k => Sys2Proof.Machine.execProgramLoadDone k s
  | .bistCmd m k v => Sys2Proof.Machine.execBistCmd m k v s
  | .engineBistDone p pass => Sys2Proof.Machine.execEngineBistDone p pass s
  | .sessLoad m p => Sys2Proof.Machine.execSessLoad m p s
  | .sessStore m p => Sys2Proof.Machine.execSessStore m p s
  | .sessStop m p => Sys2Proof.Machine.execSessStop m p s
  | .sessStopNow m p => Sys2Proof.Machine.execSessStopNow m p s
  | .setRate m p => Sys2Proof.Machine.execSetRate m p s
  | .forceIdr m p => Sys2Proof.Machine.execForceIdr m p s
  | .flush m p => Sys2Proof.Machine.execFlush m p s
  | .codecSessionSwitch p => Sys2Proof.Machine.execCodecSessionSwitch p s
  | .gangWrite m n v => Sys2Proof.Machine.execGangWrite m n v s
  | .encPictureStart n hdr costs => Sys2Proof.Machine.execEncPictureStart n hdr costs s
  | .hencProgressEvent n k lines => Sys2Proof.Machine.execHencProgressEvent n k lines s
  | .encCtbCoded n j bits fallback refPoison e => Sys2Proof.Machine.execEncCtbCoded n j bits fallback refPoison e s
  | .encSliceDone n len => Sys2Proof.Machine.execEncSliceDone n len s
  | .xsSlice n lost err => Sys2Proof.Machine.execXsSlice n lost err s
  | .decChunk p => Sys2Proof.Machine.execDecChunk p s
  | .decAccessUnit p a err => Sys2Proof.Machine.execDecAccessUnit p a err s
  | .decPictureOutput p => Sys2Proof.Machine.execDecPictureOutput p s
  | .hpdRise n => Sys2Proof.Machine.execHpdRise n s
  | .hpdLossTimeout n => Sys2Proof.Machine.execHpdLossTimeout n s
  | .hpdIrq n lost => Sys2Proof.Machine.execHpdIrq n lost s
  | .linkTrainDone n ok => Sys2Proof.Machine.execLinkTrainDone n ok s
  | .auxNativeWrite m n v => Sys2Proof.Machine.execAuxNativeWrite m n v s
  | .auxNativeRead m n v => Sys2Proof.Machine.execAuxNativeRead m n v s
  | .auxI2cWrite m n v => Sys2Proof.Machine.execAuxI2cWrite m n v s
  | .auxI2cRead m n v => Sys2Proof.Machine.execAuxI2cRead m n v s
  | .auxDone n outcome data => Sys2Proof.Machine.execAuxDone n outcome data s
  | .vblankStart n => Sys2Proof.Machine.execVblankStart n s
  | .lineMatch n => Sys2Proof.Machine.execLineMatch n s
  | .headFrameStart n => Sys2Proof.Machine.execHeadFrameStart n s
  | .frameDone n => Sys2Proof.Machine.execFrameDone n s
  | .pairCommitTimeout n => Sys2Proof.Machine.execPairCommitTimeout n s
  | .headEnable n => Sys2Proof.Machine.execHeadEnable n s
  | .headDisable n => Sys2Proof.Machine.execHeadDisable n s
  | .eyeRegionDecide n r => Sys2Proof.Machine.execEyeRegionDecide n r s
  | .safeClr m n v => Sys2Proof.Machine.execSafeClr m n v s
  | .tdmStart m n => Sys2Proof.Machine.execTdmStart m n s
  | .tdmStop m n => Sys2Proof.Machine.execTdmStop m n s
  | .tdmStopNow m n => Sys2Proof.Machine.execTdmStopNow m n s
  | .tdmFrameSync n rx errs => Sys2Proof.Machine.execTdmFrameSync n rx errs s
  | .tdmFsEdge n bclks rx errs => Sys2Proof.Machine.execTdmFsEdge n bclks rx errs s
  | .tdmFsLost n => Sys2Proof.Machine.execTdmFsLost n s
  | .swcReadDone n err => Sys2Proof.Machine.execSwcReadDone n err s
  | .swCountWrite m n v => Sys2Proof.Machine.execSwCountWrite m n v s
  | .tdmPeriodPost n => Sys2Proof.Machine.execTdmPeriodPost n s
  | .macCfgWrite m n v => Sys2Proof.Machine.execMacCfgWrite m n v s
  | .macLinkUp n speed => Sys2Proof.Machine.execMacLinkUp n speed s
  | .macLinkDown n pos => Sys2Proof.Machine.execMacLinkDown n pos s
  | .macTxStart n e => Sys2Proof.Machine.execMacTxStart n e s
  | .macTxComplete n => Sys2Proof.Machine.execMacTxComplete n s
  | .gateEntryChange n => Sys2Proof.Machine.execGateEntryChange n s
  | .gateCommit m n v => Sys2Proof.Machine.execGateCommit m n v s
  | .gateConfigChange n => Sys2Proof.Machine.execGateConfigChange n s
  | .cbsWrite m n j v => Sys2Proof.Machine.execCbsWrite m n j v s
  | .preemptVerify n ok => Sys2Proof.Machine.execPreemptVerify n ok s
  | .macRxFrame n bs fcsOk frag fecCor fecBad lanes e => Sys2Proof.Machine.execMacRxFrame n bs fcsOk frag fecCor fecBad lanes e s
  | .recoveryResetTimeout r => Sys2Proof.Machine.execRecoveryResetTimeout r s
  | .reorderTimeout c => Sys2Proof.Machine.execReorderTimeout c s
  | .filtLoad m k => Sys2Proof.Machine.execFiltLoad m k s
  | .filtStore m k => Sys2Proof.Machine.execFiltStore m k s
  | .clearBlock m k => Sys2Proof.Machine.execClearBlock m k s
  | .recLoad m k => Sys2Proof.Machine.execRecLoad m k s
  | .recStore m k => Sys2Proof.Machine.execRecStore m k s
  | .recReset m k => Sys2Proof.Machine.execRecReset m k s
  | .flowLoad m => Sys2Proof.Machine.execFlowLoad m s
  | .flowStore m => Sys2Proof.Machine.execFlowStore m s
  | .flowStop m => Sys2Proof.Machine.execFlowStop m s
  | .gclReadAdmin m k => Sys2Proof.Machine.execGclReadAdmin m k s
  | .gclWriteAdmin m k => Sys2Proof.Machine.execGclWriteAdmin m k s
  | .gclReadOper m k => Sys2Proof.Machine.execGclReadOper m k s
  | .ptpSync j seq twoStep sec ns corr => Sys2Proof.Machine.execPtpSync j seq twoStep sec ns corr s
  | .ptpFollowUp j seq sec ns corr => Sys2Proof.Machine.execPtpFollowUp j seq sec ns corr s
  | .ptpAnnounce j a => Sys2Proof.Machine.execPtpAnnounce j a s
  | .ptpReceiptTimeout j sync => Sys2Proof.Machine.execPtpReceiptTimeout j sync s
  | .ptpPdelayTimer j => Sys2Proof.Machine.execPtpPdelayTimer j s
  | .ptpPdelayResp j seq turn sec ns => Sys2Proof.Machine.execPtpPdelayResp j seq turn sec ns s
  | .ptpPdelayReqReceived j seq => Sys2Proof.Machine.execPtpPdelayReqReceived j seq s
  | .accept m => Sys2Proof.Machine.execAccept m s
  | .discard m => Sys2Proof.Machine.execDiscard m s
  | .nvmhEnable m k v => Sys2Proof.Machine.execNvmhEnable m k v s
  | .ssdInitDone k result speed width rev vwc lba4k queues cap => Sys2Proof.Machine.execSsdInitDone k result speed width rev vwc lba4k queues cap s
  | .nvmhDisable m k v => Sys2Proof.Machine.execNvmhDisable m k v s
  | .nvmeCompletion k id status cor uncor temp => Sys2Proof.Machine.execNvmeCompletion k id status cor uncor temp s
  | .nvmeCmdTimeout k id => Sys2Proof.Machine.execNvmeCmdTimeout k id s
  | .nvmeAbortTimeout k id => Sys2Proof.Machine.execNvmeAbortTimeout k id s
  | .pcieLaneFail k lane => Sys2Proof.Machine.execPcieLaneFail k lane s
  | .nsLoad m => Sys2Proof.Machine.execNsLoad m s
  | .nsStore m => Sys2Proof.Machine.execNsStore m s
  | .nsDisable m => Sys2Proof.Machine.execNsDisable m s
  | .dirtyCleanTimeout k r => Sys2Proof.Machine.execDirtyCleanTimeout k r s
  | .recSessLoad m => Sys2Proof.Machine.execRecSessLoad m s
  | .recSessStore m => Sys2Proof.Machine.execRecSessStore m s
  | .recSessStop m => Sys2Proof.Machine.execRecSessStop m s
  | .recItemTake c => Sys2Proof.Machine.execRecItemTake c s
  | .indexFlushTimeout c => Sys2Proof.Machine.execIndexFlushTimeout c s
  | .recItemReturn c => Sys2Proof.Machine.execRecItemReturn c s
  | .ctiEnable v => Sys2Proof.Machine.execCtiEnable v s
  | .ctiDisable v => Sys2Proof.Machine.execCtiDisable v s
  | .sqTail q v => Sys2Proof.Machine.execSqTail q v s
  | .cqHead q v => Sys2Proof.Machine.execCqHead q v s
  | .ctiCommandFetch q ws segs err => Sys2Proof.Machine.execCtiCommandFetch q ws segs err s
  | .read q tag => Sys2Proof.Machine.execRead q tag s
  | .write q tag data err => Sys2Proof.Machine.execWrite q tag data err s
  | .ctiFlush q tag => Sys2Proof.Machine.execCtiFlush q tag s
  | .trim q tag => Sys2Proof.Machine.execTrim q tag s
  | .identify tag => Sys2Proof.Machine.execIdentify tag s
  | .createQueue tag => Sys2Proof.Machine.execCreateQueue tag s
  | .deleteQueue tag => Sys2Proof.Machine.execDeleteQueue tag s
  | .abort tag => Sys2Proof.Machine.execAbort tag s
  | .getLog tag => Sys2Proof.Machine.execGetLog tag s
  | .format tag => Sys2Proof.Machine.execFormat tag s
  | .sanitise tag => Sys2Proof.Machine.execSanitise tag s
  | .formatPartDone k => Sys2Proof.Machine.execFormatPartDone k s
  | .ctiCompletionPost q => Sys2Proof.Machine.execCtiCompletionPost q s
  | .ctiAggTimeout q => Sys2Proof.Machine.execCtiAggTimeout q s
  | .functionLevelReset => Sys2Proof.Machine.execFunctionLevelReset s
  | .qLoad m => Sys2Proof.Machine.execQLoad m s
  | .qStore m => Sys2Proof.Machine.execQStore m s
  | .enable m => Sys2Proof.Machine.execEnable m s
  | .disable m => Sys2Proof.Machine.execDisable m s
  | .pin m => Sys2Proof.Machine.execPin m s
  | .unpin m => Sys2Proof.Machine.execUnpin m s
  | .setClass m => Sys2Proof.Machine.execSetClass m s
  | .queuePush p q d e => Sys2Proof.Machine.execQueuePush p q d e s
  | .pushBufferDrain q => Sys2Proof.Machine.execPushBufferDrain q s
  | .pushTimeout q => Sys2Proof.Machine.execPushTimeout q s
  | .queueTake p q e => Sys2Proof.Machine.execQueueTake p q e s
  | .pushGo m j v => Sys2Proof.Machine.execPushGo m j v s
  | .takeGo m j v => Sys2Proof.Machine.execTakeGo m j v s
  | .qstateBaseWrite m hi v => Sys2Proof.Machine.execQstateBaseWrite m hi v s
  | .gLoad m => Sys2Proof.Machine.execGLoad m s
  | .gStore m => Sys2Proof.Machine.execGStore m s
  | .gDisable m => Sys2Proof.Machine.execGDisable m s
  | .eventDeliver c => Sys2Proof.Machine.execEventDeliver c s
  | .minGapExpiry c => Sys2Proof.Machine.execMinGapExpiry c s
  | .rateWindowEnd => Sys2Proof.Machine.execRateWindowEnd s
  | .swFire m v => Sys2Proof.Machine.execSwFire m v s
  | .pinInputEdge q level => Sys2Proof.Machine.execPinInputEdge q level s
  | .pinPulseEnd q => Sys2Proof.Machine.execPinPulseEnd q s
  | .pinCfgWrite m q v => Sys2Proof.Machine.execPinCfgWrite m q v s
  | .faultReport p => Sys2Proof.Machine.execFaultReport p s
  | .fenceNotice p => Sys2Proof.Machine.execFenceNotice p s
  | .sramScrubStep p k word remaps e hard lap => Sys2Proof.Machine.execSramScrubStep p k word remaps e hard lap s
  | .engineCondemn p c => Sys2Proof.Machine.execEngineCondemn p c s
  | .condemn m v => Sys2Proof.Machine.execCondemn m v s
  | .moultDrainDone p => Sys2Proof.Machine.execMoultDrainDone p s
  | .drainTimeout p => Sys2Proof.Machine.execDrainTimeout p s
  | .moult p => Sys2Proof.Machine.execMoult p s
  | .zombieDrop p a => Sys2Proof.Machine.execZombieDrop p a s
  | .spareBistTimer => Sys2Proof.Machine.execSpareBistTimer s
  | .activate m n => Sys2Proof.Machine.execActivate m n s
  | .quiesce m n => Sys2Proof.Machine.execQuiesce m n s
  | .svcReset m n => Sys2Proof.Machine.execSvcReset m n s
  | .pairBistDone n pass => Sys2Proof.Machine.execPairBistDone n pass s
  | .lockstepMismatch n => Sys2Proof.Machine.execLockstepMismatch n s
  | .findCmd m v => Sys2Proof.Machine.execFindCmd m v s
  | .wrGo m v => Sys2Proof.Machine.execWrGo m v s
  | .cocoonWriteDone bad => Sys2Proof.Machine.execCocoonWriteDone bad s
  | .silkRecord => Sys2Proof.Machine.execSilkRecord s
  | .swGo m v => Sys2Proof.Machine.execSwGo m v s
  | .snapCmd m v => Sys2Proof.Machine.execSnapCmd m v s
  | .snapshotDone => Sys2Proof.Machine.execSnapshotDone s
  | .powerFailWarning => Sys2Proof.Machine.execPowerFailWarning s
  | .fnClr m v => Sys2Proof.Machine.execFnClr m v s
  | .fnSwWrite m v => Sys2Proof.Machine.execFnSwWrite m v s
  | .arm m v => Sys2Proof.Machine.execArm m v s
  | .hbKick m v => Sys2Proof.Machine.execHbKick m v s
  | .hbTimeout => Sys2Proof.Machine.execHbTimeout s
  | .lsTest m v missed => Sys2Proof.Machine.execLsTest m v missed s
  | .viewEvaluate v f => Sys2Proof.Machine.execViewEvaluate v f s
  | .viewClr m j v => Sys2Proof.Machine.execViewClr m j v s
  | .configCheckRun late => Sys2Proof.Machine.execConfigCheckRun late s
  | .clockMonitorWindow dev => Sys2Proof.Machine.execClockMonitorWindow dev s
  | .supplyWindow r out => Sys2Proof.Machine.execSupplyWindow r out s
  | .faultInject m p v => Sys2Proof.Machine.execFaultInject m p v s
  | .eyeInj m v => Sys2Proof.Machine.execEyeInj m v s
  | .domainOnRequest m j v => Sys2Proof.Machine.execDomainOnRequest m j v s
  | .domainReady => Sys2Proof.Machine.execDomainReady s
  | .domainOffRequest m j v => Sys2Proof.Machine.execDomainOffRequest m j v s
  | .standbyRequest m v => Sys2Proof.Machine.execStandbyRequest m v s
  | .dormantRequest m v => Sys2Proof.Machine.execDormantRequest m v s
  | .activeRequest m v => Sys2Proof.Machine.execActiveRequest m v s
  | .wake => Sys2Proof.Machine.execWake s
  | .thermalSample raw => Sys2Proof.Machine.execThermalSample raw s
  | .thermalTrip => Sys2Proof.Machine.execThermalTrip s
  | .thermalRestart => Sys2Proof.Machine.execThermalRestart s
  | .sensorCheck diode => Sys2Proof.Machine.execSensorCheck diode s
  | .compensationRun => Sys2Proof.Machine.execCompensationRun s
  | .confirm m v => Sys2Proof.Machine.execConfirm m v s
  | .pref m v => Sys2Proof.Machine.execPref m v s
  | .verAdv m v => Sys2Proof.Machine.execVerAdv m v s
  | .verifyCmd m v => Sys2Proof.Machine.execVerifyCmd m v s
  | .verifyDone => Sys2Proof.Machine.execVerifyDone s
  | .xspiRead m v => Sys2Proof.Machine.execXspiRead m v s
  | .xspiProgram m v => Sys2Proof.Machine.execXspiProgram m v s
  | .xspiErase m v => Sys2Proof.Machine.execXspiErase m v s
  | .xspiDone ok => Sys2Proof.Machine.execXspiDone ok s
  | .startUp upTo e => Sys2Proof.Machine.execStartUp upTo e s
  | .startUpFull => Sys2Proof.Machine.execStartUpFull s
  | .pwrGoodRise pfwLow ram => Sys2Proof.Machine.execPwrGoodRise pfwLow ram s
  | .pwrGoodFall => Sys2Proof.Machine.execPwrGoodFall s
  | .resetN level => Sys2Proof.Machine.execResetN level s
  | .resetCmd m v => Sys2Proof.Machine.execResetCmd m v s
  | .pfwNRelease => Sys2Proof.Machine.execPfwNRelease s
  | .mainRailTimeout => Sys2Proof.Machine.execMainRailTimeout s
  | .swiWrite h v => Sys2Proof.Machine.execSwiWrite h v s
  | .mtimecmpMatch h => Sys2Proof.Machine.execMtimecmpMatch h s
  | .msixMessage p => Sys2Proof.Machine.execMsixMessage p s
  | .maintWrite addr data crc late => Sys2Proof.Machine.execMaintWrite addr data crc late s
  | .maintRead addr crc count late => Sys2Proof.Machine.execMaintRead addr crc count late s
  | .mDoorbell m v => Sys2Proof.Machine.execMDoorbell m v s
  | .eyeScanGo m n v => Sys2Proof.Machine.execEyeScanGo m n v s
  | .eyeScanAbort m n v => Sys2Proof.Machine.execEyeScanAbort m n v s
  | .eyeScanDone n errs lost => Sys2Proof.Machine.execEyeScanDone n errs lost s
  | .txEqWrite m n v => Sys2Proof.Machine.execTxEqWrite m n v s
  | .cstsCfs k => Sys2Proof.Machine.execCstsCfs k s
  | .pllLossOfLock p locked => Sys2Proof.Machine.execPllLossOfLock p locked s
  | .latchingLowRead m a len => Sys2Proof.Machine.execLatchingLowRead m a len s
  | .receiveQueuePop m a len => Sys2Proof.Machine.execReceiveQueuePop m a len s

end Sys2Proof.Machine
end

