-- ==== Sys2Proof/Safety.lean ====
section
/-!
DEFINITION. What counts as a safe run, in the words the statements use: memory, poison marks and registers keep their one
canonical form, and a step never stops.
-/

namespace Sys2Proof.Machine

/-- Memory is in canonical form: rising addresses, and no entry of the value that an unlisted address reads as. -/
def Memory.wf (m : List Host.Cell) : Bool := Map.wf (fun _ => (0 : Byte)) m

/-- The tables that hold addressed state are in canonical form, so that equal contents are equal data. -/
def State.Canonical (s : State) : Prop :=
  Memory.wf s.mem = true ∧ Map.wf (fun _ => false) s.poison = true ∧ Map.wf resetKey s.regs = true ∧
    Map.wf (fun _ => none) s.shadow = true ∧ Map.wf (fun _ => none) s.frozen = true ∧ Map.wf (fun _ => none) s.latch = true

/-- A byte of memory as the model reads it (R596). -/
def State.byteAt (s : State) (a : Nat) : Byte := Map.get (fun _ => 0) s.mem a

/-- A page that takes a write of master `m`: the host may write, the page exists, is powered, not fenced and not in a soft reset
(R567, R599, R602, R615, R620). -/
def State.Open (s : State) (m : Master) (p : Nat) : Prop :=
  s.hostMayWrite m = true ∧ pageKind p ≠ .none ∧ s.powered p = true ∧ s.fenced p = false ∧ (s.pageRt p).busy = false

/-- Thread `t` of engine `p` issues `op` next, from the word `w` at its PC (R246, R253, R256): it can issue, its PC lies in
instruction memory, and no breakpoint stands there. -/
def State.Ready (s : State) (p t : Nat) (w : Word) (op : SwOp) : Prop :=
  s.canIssue p t = true ∧ (s.thr p t).pc ≤ 0x7FFC ∧ s.fetch p (s.thr p t).pc = w ∧ swDecode w = some op ∧
    ¬ ((s.thr p t).breakpc ≠ 0 ∧ (s.thr p t).breakpc.toNat = (s.thr p t).pc)

/-- What an instruction of thread `t` of engine `p` leaves alone when it touches no memory: every part of the state but the
Swarm's, every other engine, this engine's memories, and every other thread but for the threads it still waits for after a
YIELD. -/
def State.ThreadOnly (s u : State) (p t : Nat) : Prop :=
  u = { s with swarm := u.swarm } ∧ u.swarm.load = s.swarm.load ∧ (∀ q, q ≠ p → u.eng q = s.eng q) ∧
    (u.eng p).imem = (s.eng p).imem ∧ (u.eng p).dmem = (s.eng p).dmem ∧ (u.eng p).dpoison = (s.eng p).dpoison ∧
    ∀ q i, i < 4 → ¬ (q = p ∧ i = t) → ∃ l, u.thr q i = { s.thr q i with yielded := l }

/-- Thread `t` of engine `p` is `y`, but for the threads it waits for after a YIELD. -/
def State.ThreadIs (s : State) (p t : Nat) (y : Thread) : Prop := ∃ l, s.thr p t = { y with yielded := l }

/-- A byte of an engine's data memory. -/
def State.dataByte (s : State) (p a : Nat) : Byte := Map.get (fun _ => 0) (s.eng p).dmem a

/-- Offsets that a fault or a fence may change on any page: PG_FAULT, PG_STAT, PG_INT_STAT and PG_SHADOW (R490, R605). -/
def loudOff (o : Nat) : Bool :=
  o == Off.hdr_PG_FAULT || o == Off.hdr_PG_STAT || o == Off.hdr_PG_INT_STAT || o == Off.hdr_PG_SHADOW

/-- The offset of a register that no fault and no fence changes. -/
def quietOff (o : Nat) : Bool := decide (o < 4096) && !loudOff o

/-- Of the registers that no fault and no fence changes, only those at the offsets `os` of page `p` may differ. -/
def State.KeepsRegs (s t : State) (p : Nat) (os : List Nat) : Prop :=
  ∀ q o, quietOff o = true → ¬ (q = p ∧ o ∈ os) → t.reg q o = s.reg q o

/-- The outcome is a next state. -/
def Completes (r : Host.Outcome State Fault Refusal) : Prop := ∃ t, r = .next t

/-- Command `c` completes in a state of which `P` holds. -/
def State.Answers (s : State) (c : Instr) (P : State → Prop) : Prop := ∃ t, exec c s = .next t ∧ P t

end Sys2Proof.Machine
end

