-- ==== Sys2Proof/BlockSpec.lean ====
section
/-!
DEFINITION. The words of the statements about the blocks: when a page answers a read, what a snapshot holds, the registers that
latch, and what a command leaves of the rest of the machine.
-/

namespace Sys2Proof.Machine

open Sys2Proof

/-- A page that answers a read of master `m` with its registers (R567, R599, R602, R615, R620), and shows live values (R603). -/
def State.Shows (s : State) (m : Master) (p : Nat) : Prop :=
  s.hostMayRead m = true ∧ pageKind p ≠ .none ∧ s.powered p = true ∧ s.fenced p = false ∧ (s.pageRt p).busy = false ∧
    ∀ o, Map.get (fun _ => none) s.frozen (rg p o) = none

/-- Address of the register at offset `o` of page `p` (R597). -/
def regAddr (p o : Nat) : Nat := regBase + 4096 * p + o

/-- PG_FAULT bit `b` of page `p` stands. -/
def State.Faulted (s : State) (p b : Nat) : Prop := s.bit p Off.hdr_PG_FAULT b = true

/-- The low words of the 64-bit ruler registers, each with the words that its read latches (R52). -/
def rulerWords : List (Nat × Nat × List Nat) :=
  (pTIMEBASE, 0x100, [0x104, 0x108, 0x10C]) ::
  ((List.range 4).map fun d => (pDIST, 0x118 + 0x40 * d, [0x11C + 0x40 * d])) ++
  ((List.range 2).map fun p => (pPHASE, 0x110 + 0x40 * p, [0x114 + 0x40 * p])) ++
  ((List.range 8).map fun n => (pLINEVIEW, 0x100 + 8 * n, [0x104 + 8 * n])) ++
  ((List.range 64).map fun n => (pLINEVIEW, 0x200 + 8 * n, [0x204 + 8 * n]))

/-- The snapshot registers of `u` hold the rulers of `s` (R53). -/
def State.Snapped (s u : State) : Prop :=
  u.reg pTIMEBASE Off.timebase_SNAP_TIME = wd (s.timeNs / 1000000000) ∧
  u.reg pTIMEBASE (Off.timebase_SNAP_TIME + 4) = wd (s.timeNs / 1000000000 / 2 ^ 32) ∧
  u.reg pTIMEBASE (Off.timebase_SNAP_TIME + 8) = wd (s.timeNs % 1000000000) ∧
  u.reg pTIMEBASE (Off.timebase_SNAP_TIME + 12) = wd (s.tb.time % 65536) ∧
  (∀ d < 4, u.reg64 pTIMEBASE (Off.timebase_SNAP_DIST0 + 8 * d) (Off.timebase_SNAP_DIST0 + 8 * d + 4) = unsigned 64 (s.distVal d)) ∧
  (∀ p < 2, u.reg64 pTIMEBASE (Off.timebase_SNAP_PHASE0 + 8 * p) (Off.timebase_SNAP_PHASE0 + 8 * p + 4) = (s.phase p).val % 2 ^ 64) ∧
  (∀ n < 8, u.reg64 pLINEVIEW (Off.lineview_SNAP_LINE0 + 8 * n) (Off.lineview_SNAP_LINE0 + 8 * n + 4) = s.lineVal n % 2 ^ 64) ∧
  (∀ n < 64, u.reg64 pLINEVIEW (Off.lineview_SNAP_SLINE0 + 8 * n) (Off.lineview_SNAP_SLINE0 + 8 * n + 4) = s.slineVal n % 2 ^ 64) ∧
  u.bit pTIMEBASE Off.timebase_SNAP_STAT 0 = true ∧
  u.fld pTIMEBASE Off.timebase_SNAP_STAT 16 16 = (s.fld pTIMEBASE Off.timebase_SNAP_STAT 16 16 + 1) % 65536

/-- The cue that the staging registers of page CUEk describe (*CUE descriptor words D1–D7*). -/
def State.staged (s : State) (k : Nat) : Cue :=
  { ctrl := s.reg (pCUE k) Off.cue_CUE_D0 &&& 0x03FF7F3F,
    target := s.reg64 (pCUE k) (Off.cue_CUE_D0 + 4) (Off.cue_CUE_D0 + 8),
    step := s.reg64 (pCUE k) (Off.cue_CUE_D0 + 12) (Off.cue_CUE_D0 + 16),
    lead := (s.reg (pCUE k) (Off.cue_CUE_D0 + 20)).toNat, count := s.reg (pCUE k) (Off.cue_CUE_D0 + 24) }

/-- Commands that reach every block: writes through a register's address, PG_CTRL, power and resets, and the notice of a fence. -/
def wideCommand (c : Instr) : Bool :=
  match c with
  | .registerWrite .. | .pgFenceWrite .. | .softRst .. | .pgFreezeWrite .. | .pgEnWrite .. | .fenceNotice .. | .domainOnRequest .. |
    .domainOffRequest .. | .standbyRequest .. | .dormantRequest .. | .activeRequest .. | .wake .. | .thermalTrip .. |
    .thermalRestart .. | .startUp .. | .pwrGoodRise .. | .pwrGoodFall .. | .resetN .. | .resetCmd .. | .pfwNRelease .. |
    .maintWrite .. => true
  | _ => false

/-- Commands that act on the codec sessions (chapter 08). -/
def codecCommand (c : Instr) : Bool :=
  match c with
  | .sessStore .. | .sessStop .. | .sessStopNow .. | .setRate .. | .forceIdr .. | .flush .. | .codecSessionSwitch .. |
    .encPictureStart .. | .hencProgressEvent .. | .encCtbCoded .. | .encSliceDone .. | .xsSlice .. | .decChunk .. | .decAccessUnit .. |
    .decPictureOutput .. => true
  | _ => false

/-- Commands that act on the TDM sets (chapter 10), and those that step TIME under them (R410). -/
def tdmCommand (c : Instr) : Bool :=
  match c with
  | .timeSetGo .. | .tdmStart .. | .tdmStop .. | .tdmStopNow .. | .tdmFrameSync .. | .tdmFsEdge .. | .tdmFsLost .. | .swcReadDone .. |
    .tdmPeriodPost .. | .ptpSync .. | .ptpFollowUp .. => true
  | _ => false

/-- Commands that act on the DRAM controllers and the guard table (chapter 13), with the display frames that guard buffers. -/
def dramCommand (c : Instr) : Bool :=
  match c with
  | .dramAccess .. | .refreshWindow .. | .dramScrubStep .. | .dramBgSweep .. | .marginCheck .. | .headFrameStart .. | .headDisable .. |
    .gStore .. | .gDisable .. => true
  | _ => false

/-- Commands that act on the storage complex (chapter 12), with the Cocoon write that it waits for. -/
def storCommand (c : Instr) : Bool :=
  match c with
  | .nvmhEnable .. | .ssdInitDone .. | .nvmhDisable .. | .nvmeCompletion .. | .nvmeCmdTimeout .. | .nvmeAbortTimeout .. |
    .pcieLaneFail .. | .nsStore .. | .nsDisable .. | .dirtyCleanTimeout .. | .recSessStore .. | .recSessStop .. | .recItemTake .. |
    .indexFlushTimeout .. | .recItemReturn .. | .ctiEnable .. | .ctiDisable .. | .sqTail .. | .cqHead .. | .ctiCommandFetch .. |
    .read .. | .write .. | .ctiFlush .. | .trim .. | .identify .. | .createQueue .. | .deleteQueue .. | .abort .. | .getLog .. |
    .format .. | .sanitise .. | .formatPartDone .. | .ctiCompletionPost .. | .ctiAggTimeout .. | .functionLevelReset .. |
    .cocoonWriteDone .. | .cstsCfs .. => true
  | _ => false

end Sys2Proof.Machine
end

