-- ==== Sys2Proof/SwarmSpec.lean ====
section
/-!
DEFINITION. The results of the Swarm instructions as the spec's tables give them, written over bit vectors and lanes and apart
from the meanings, for the statements about them (R253 to R257, R271).
-/

namespace Sys2Proof.Machine

open Sys2Proof

/-- Command `c` completes as an instruction of thread `t` of engine `p`: the thread becomes `y`, but for the threads it waits for
after a YIELD, and everything else is left alone. -/
def State.Retires (s : State) (c : Instr) (p t : Nat) (y : Thread) : Prop :=
  s.Answers c fun u => u.ThreadIs p t y ∧ s.ThreadOnly u p t

/-- What a store of the bytes `bs` at data-memory address `a` leaves: the bytes, and every other byte of every memory, register and
part of the machine as it was; the thread goes on. -/
def State.StoresData (s : State) (c : Instr) (p t a : Nat) (bs : List Byte) : Prop :=
  s.Answers c fun u => u.ThreadIs p t (s.thr p t).step ∧ (∀ i < bs.length, u.dataByte p (a + i) = bs.getD i 0) ∧
    (∀ b, b < a ∨ a + bs.length ≤ b → u.dataByte p b = s.dataByte p b) ∧ (∀ q, q ≠ p → u.eng q = s.eng q) ∧
    (u.eng p).imem = (s.eng p).imem ∧ u = { s with swarm := u.swarm }

/-- What a store of the bytes `bs` at address `o` of a cluster's shared memory leaves. -/
def State.StoresShared (s : State) (c : Instr) (p t o : Nat) (bs : List Byte) : Prop :=
  s.Answers c fun u => u.ThreadIs p t (s.thr p t).step ∧ (∀ i < bs.length, u.byteAt (o + i) = bs.getD i 0) ∧
    (∀ b, b < o ∨ o + bs.length ≤ b → u.byteAt b = s.byteAt b) ∧ (∀ q b, u.dataByte q b = s.dataByte q b) ∧ u.regs = s.regs

/-! ## Scalar instructions -/

/-- The immediate sign-extended and zero-extended. -/
def immS (w : Word) : Word := (w.setWidth 16).signExtend 32
def immU (w : Word) : Word := (w.setWidth 16).setWidth 32

/-- A truth value as 1 or 0. -/
def oneIf (b : Bool) : Word := if b then 1 else 0

/-- The zero bits above the highest set bit of a word, and its set bits. -/
def leadingZeros (a : Word) : Nat := ((List.range 32).takeWhile fun i => !a.getLsbD (31 - i)).length
def setBits (a : Word) : Nat := (List.range 32).countP fun i => a.getLsbD i

/-- A scalar instruction: its command, its operation, and its result from the word and the old s_D, s_A and s_B. -/
structure ScalarRow where
  cmd : Nat → Nat → Instr
  op : SwOp
  val : Word → Word → Word → Word → Word

/-- *Scalar ALU functions*. -/
def aluRows : List ScalarRow := [
  ⟨.add, .add, fun _ _ a b => a + b⟩,
  ⟨.sub, .sub, fun _ _ a b => a - b⟩,
  ⟨.and_, .and_, fun _ _ a b => a &&& b⟩,
  ⟨.or_, .or_, fun _ _ a b => a ||| b⟩,
  ⟨.xor_, .xor_, fun _ _ a b => a ^^^ b⟩,
  ⟨.sll, .sll, fun _ _ a b => a <<< (b.toNat % 32)⟩,
  ⟨.srl, .srl, fun _ _ a b => a >>> (b.toNat % 32)⟩,
  ⟨.sra, .sra, fun _ _ a b => a.sshiftRight (b.toNat % 32)⟩,
  ⟨.slt, .slt, fun _ _ a b => oneIf (a.slt b)⟩,
  ⟨.sltu, .sltu, fun _ _ a b => oneIf (a.ult b)⟩,
  ⟨.min, .min, fun _ _ a b => if a.slt b then a else b⟩,
  ⟨.max, .max, fun _ _ a b => if a.slt b then b else a⟩,
  ⟨.minu, .minu, fun _ _ a b => if a.ult b then a else b⟩,
  ⟨.maxu, .maxu, fun _ _ a b => if a.ult b then b else a⟩,
  ⟨.mul, .mul, fun _ _ a b => a * b⟩,
  ⟨.mulh, .mulh, fun _ _ a b => (a.signExtend 64 * b.signExtend 64).extractLsb' 32 32⟩,
  ⟨.mulhu, .mulhu, fun _ _ a b => (a.setWidth 64 * b.setWidth 64).extractLsb' 32 32⟩,
  ⟨.sextb, .sextb, fun _ _ a _ => (a.setWidth 8).signExtend 32⟩,
  ⟨.sexth, .sexth, fun _ _ a _ => (a.setWidth 16).signExtend 32⟩,
  ⟨.clz, .clz, fun _ _ a _ => BitVec.ofNat 32 (leadingZeros a)⟩,
  ⟨.popc, .popc, fun _ _ a _ => BitVec.ofNat 32 (setBits a)⟩]

/-- SHI by its two mode bits: SLL, SRL, SRA, ROR. -/
def shiVal (w a : Word) : Word :=
  let k := (w.extractLsb' 0 5).toNat
  match (w.extractLsb' 5 2).toNat with
  | 0 => a <<< k
  | 1 => a >>> k
  | 2 => a.sshiftRight k
  | _ => a.rotateRight k

/-- The immediate instructions of *Major opcodes*. -/
def immRows : List ScalarRow := [
  ⟨.addi, .addi, fun w _ a _ => a + immS w⟩,
  ⟨.andi, .andi, fun w _ a _ => a &&& immU w⟩,
  ⟨.ori, .ori, fun w _ a _ => a ||| immU w⟩,
  ⟨.xori, .xori, fun w _ a _ => a ^^^ immU w⟩,
  ⟨.slti, .slti, fun w _ a _ => oneIf (a.slt (immS w))⟩,
  ⟨.lui, .lui, fun w _ _ _ => w <<< 16⟩,
  ⟨.shi, .shi, fun w _ a _ => shiVal w a⟩]

/-- *Scalar fp32 functions*, over the binary32 operations of R254. -/
def fpuRows : List ScalarRow := [
  ⟨.fadd, .fadd, fun _ _ a b => fAdd a b⟩,
  ⟨.fsub, .fsub, fun _ _ a b => fSub a b⟩,
  ⟨.fmul, .fmul, fun _ _ a b => fMul a b⟩,
  ⟨.fma, .fma, fun _ d a b => fMa d a b⟩,
  ⟨.fmin, .fmin, fun _ _ a b => fMinMax false a b⟩,
  ⟨.fmax, .fmax, fun _ _ a b => fMinMax true a b⟩,
  ⟨.feq, .feq, fun _ _ a b => oneIf ((f32 a).eq (f32 b))⟩,
  ⟨.flt, .flt, fun _ _ a b => oneIf ((f32 a).lt (f32 b))⟩,
  ⟨.fle, .fle, fun _ _ a b => oneIf ((f32 a).lt (f32 b) || (f32 a).eq (f32 b))⟩,
  ⟨.fcvtws, .fcvtws, fun _ _ a _ => fToInt a⟩,
  ⟨.fcvtsw, .fcvtsw, fun _ _ a _ => intToF a⟩,
  ⟨.frcp, .frcp, fun _ _ a _ => fRcp a⟩,
  ⟨.frsq, .frsq, fun _ _ a _ => fRsq a⟩,
  ⟨.fabs, .fabs, fun _ _ a _ => fSign a false⟩,
  ⟨.fneg, .fneg, fun _ _ a _ => fSign a (!a.msb)⟩]

/-- A conditional branch: its command, its operation and its condition on s_A and s_B. -/
structure BranchRow where
  cmd : Nat → Nat → Instr
  op : SwOp
  taken : Word → Word → Bool

/-- The branches of *Major opcodes*. -/
def branchRows : List BranchRow := [
  ⟨.beq, .beq, fun a b => a == b⟩,
  ⟨.bne, .bne, fun a b => a != b⟩,
  ⟨.blt, .blt, fun a b => a.slt b⟩,
  ⟨.bge, .bge, fun a b => !a.slt b⟩,
  ⟨.bltu, .bltu, fun a b => a.ult b⟩,
  ⟨.bgeu, .bgeu, fun a b => !a.ult b⟩]

/-- A scalar load: its command, its operation and its bytes. -/
structure LoadRow where
  cmd : Nat → Nat → ReadErr → Instr
  op : SwOp
  bytes : Nat

/-- LW, LHU and LBU. -/
def loadRows : List LoadRow := [⟨.lw, .lw, 4⟩, ⟨.lhu, .lhu, 2⟩, ⟨.lbu, .lbu, 1⟩]

/-- A scalar store: its command, its operation and its bytes. -/
structure StoreRow where
  cmd : Nat → Nat → Instr
  op : SwOp
  bytes : Nat

/-- SW, SH and SB. -/
def storeRows : List StoreRow := [⟨.sw, .sw, 4⟩, ⟨.sh, .sh, 2⟩, ⟨.sb, .sb, 1⟩]

/-- An atomic: its command, its operation, and the new word from the old one, s_B and s_D (R271). -/
structure AmoRow where
  cmd : Nat → Nat → ReadErr → Instr
  op : SwOp
  new : Word → Word → Word → Word

/-- *Synchronisation functions*, the atomics. -/
noncomputable def amoRows : List AmoRow := [
  ⟨.amoadd, .amoadd, fun o b _ => o + b⟩,
  ⟨.amoswap, .amoswap, fun _ b _ => b⟩,
  ⟨.amomin, .amomin, fun o b _ => if b.slt o then b else o⟩,
  ⟨.amomax, .amomax, fun o b _ => if o.slt b then b else o⟩,
  ⟨.amominu, .amominu, fun o b _ => if b.ult o then b else o⟩,
  ⟨.amomaxu, .amomaxu, fun o b _ => if o.ult b then b else o⟩,
  ⟨.amocas, .amocas, fun o b d => if o = d then b else o⟩]

/-! ## Lanes -/

/-- Lane `i` of `n` bits of a vector register (R253): 16i for type H, 32i for types W and S. -/
def vlane (n : Nat) (v : Words) (i : Nat) : BitVec n := BitVec.ofNat n ((wordAt v (i * n / 32)).toNat / 2 ^ (i * n % 32))

/-- Bits of a lane of the word's type (R257). -/
def typeBits (w : Word) : Nat := if fType w = 0 then 16 else 32

/-- A number saturated to a signed lane. -/
def satLane (n : Nat) (z : Int) : BitVec n := BitVec.ofInt n (max (-(2 ^ (n - 1))) (min (2 ^ (n - 1) - 1) z))

/-- Lane `i` of type H of an accumulator, and lane `j` of type W (R253). -/
def accH (l : List Nat) (i : Nat) : BitVec 40 := BitVec.ofNat 40 (l.getD i 0)
def accWide (l : List Nat) (j : Nat) : BitVec 80 := accH l (2 * j + 1) ++ accH l (2 * j)

/-- rnd of *Accumulator functions*. -/
def accRnd (b : Nat) : Int := if b = 0 then 0 else 2 ^ (b - 1)

/-- Lanes of v_A, v_B and v_D of an instruction word. -/
def laneA (w : Word) (x : Thread) (n i : Nat) : BitVec n := vlane n (x.vget (fA w)) i
def laneB (w : Word) (x : Thread) (n i : Nat) : BitVec n := vlane n (x.vget (fB w)) i
def laneD (w : Word) (x : Thread) (n i : Nat) : BitVec n := vlane n (x.vget (fD w)) i

/-- An instruction that writes lanes of v_D: its command, its operation, its lane width, and the new value of lane `i` of `n`
bits from the word and the thread. -/
structure VecRow where
  cmd : Nat → Nat → Instr
  op : SwOp
  bits : Word → Nat
  lane : Word → Thread → (n : Nat) → Nat → BitVec n

/-- A row of two sources, lane by lane. -/
def vecTwo (cmd : Nat → Nat → Instr) (op : SwOp) (f : (n : Nat) → BitVec n → BitVec n → BitVec n) : VecRow :=
  ⟨cmd, op, typeBits, fun w x n i => f n (laneA w x n i) (laneB w x n i)⟩

/-- *Vector integer functions*, but for the shifts and VSEL. -/
def valuRows : List VecRow := [
  vecTwo .vadd .vadd fun _ a b => a + b,
  vecTwo .vsub .vsub fun _ a b => a - b,
  vecTwo .vadds .vadds fun n a b => satLane n (a.toInt + b.toInt),
  vecTwo .vsubs .vsubs fun n a b => satLane n (a.toInt - b.toInt),
  vecTwo .vaddus .vaddus fun n a b => BitVec.ofNat n (min (2 ^ n - 1) (a.toNat + b.toNat)),
  vecTwo .vsubus .vsubus fun n a b => BitVec.ofNat n (a.toNat - b.toNat),
  vecTwo .vand .vand fun _ a b => a &&& b,
  vecTwo .vor .vor fun _ a b => a ||| b,
  vecTwo .vxor .vxor fun _ a b => a ^^^ b,
  vecTwo .vmin .vmin fun _ a b => if a.slt b then a else b,
  vecTwo .vmax .vmax fun _ a b => if a.slt b then b else a,
  vecTwo .vminu .vminu fun _ a b => if a.ult b then a else b,
  vecTwo .vmaxu .vmaxu fun _ a b => if a.ult b then b else a,
  vecTwo .vmul .vmul fun _ a b => a * b,
  vecTwo .vmulh .vmulh fun n a b => BitVec.ofInt n (a.toInt * b.toInt / 2 ^ n),
  vecTwo .vmulhrs .vmulhrs fun n a b => satLane n ((a.toInt * b.toInt + 2 ^ (n - 2)) / 2 ^ (n - 1)),
  vecTwo .vabsd .vabsd fun n a b => BitVec.ofNat n (a.toInt - b.toInt).natAbs,
  vecTwo .vavg .vavg fun n a b => BitVec.ofInt n ((a.toInt + b.toInt + 1) / 2),
  ⟨.vmov, .vmov, typeBits, fun w x n i => laneA w x n i⟩,
  ⟨.vbcast, .vbcast, typeBits, fun w x n _ => (x.sget (fA w)).setWidth n⟩,
  ⟨.vnarrow, .vnarrow, fun _ => 16, fun w x n i =>
    satLane n (if i < 16 then (laneA w x 32 i).toInt else (laneB w x 32 (i - 16)).toInt)⟩,
  ⟨.vwidenl, .vwidenl, fun _ => 32, fun w x n i => (laneA w x 16 i).signExtend n⟩,
  ⟨.vwidenh, .vwidenh, fun _ => 32, fun w x n i => (laneA w x 16 (i + 16)).signExtend n⟩,
  ⟨.vwidenlu, .vwidenlu, fun _ => 32, fun w x n i => (laneA w x 16 i).setWidth n⟩,
  ⟨.vwidenhu, .vwidenhu, fun _ => 32, fun w x n i => (laneA w x 16 (i + 16)).setWidth n⟩]

/-- A row of one or two fp32 sources. -/
def vecF2 (cmd : Nat → Nat → Instr) (op : SwOp) (f : Word → Word → Word) : VecRow :=
  ⟨cmd, op, fun _ => 32, fun w x n i => (f (laneA w x 32 i) (laneB w x 32 i)).setWidth n⟩
def vecF1 (cmd : Nat → Nat → Instr) (op : SwOp) (f : Word → Word) : VecRow :=
  ⟨cmd, op, fun _ => 32, fun w x n i => (f (laneA w x 32 i)).setWidth n⟩

/-- *Vector fp32 functions*. -/
def vfpuRows : List VecRow := [
  vecF2 .vfadd .vfadd fAdd,
  vecF2 .vfsub .vfsub fSub,
  vecF2 .vfmul .vfmul fMul,
  ⟨.vfma, .vfma, fun _ => 32, fun w x n i => (fMa (laneD w x 32 i) (laneA w x 32 i) (laneB w x 32 i)).setWidth n⟩,
  vecF2 .vfmin .vfmin (fMinMax false),
  vecF2 .vfmax .vfmax (fMinMax true),
  vecF1 .vfcvtws .vfcvtws fToInt,
  vecF1 .vfcvtsw .vfcvtsw intToF,
  vecF1 .vfrcp .vfrcp fRcp,
  vecF1 .vfrsq .vfrsq fRsq,
  vecF1 .vfabs .vfabs fun a => fSign a false,
  ⟨.vfcvtsh, .vfcvtsh, fun _ => 32, fun w x n i => (f16ToF32 (laneA w x 16 i).toNat).setWidth n⟩,
  ⟨.vfcvtshh, .vfcvtshh, fun _ => 32, fun w x n i => (f16ToF32 (laneA w x 16 (i + 16)).toNat).setWidth n⟩,
  ⟨.vfcvths, .vfcvths, fun _ => 16, fun w x n i =>
    BitVec.ofNat n (f32ToF16 (if i < 16 then laneA w x 32 i else laneB w x 32 (i - 16)))⟩,
  ⟨.vfbcast, .vfbcast, fun _ => 32, fun w x n _ => (x.sget (fA w)).setWidth n⟩]

/-- Lane `i` of the concatenation v_A (low), v_B (high). -/
def laneAB (w : Word) (x : Thread) (n i : Nat) : BitVec n :=
  if i < 512 / n then laneA w x n i else laneB w x n (i - 512 / n)

/-- *Permute functions* that write v_D, and the accumulator reads ACCR.H and ACCRW.W. -/
def vpermRows : List VecRow := [
  ⟨.vslide, .vslide, typeBits, fun w x n i => laneAB w x n (i + fCode w)⟩,
  ⟨.vshuf, .vshuf, typeBits, fun w x n i => laneAB w x n ((laneD w x n i).toNat % (2 * (512 / n)))⟩,
  ⟨.vzipl, .vzipl, typeBits, fun w x n i => if i % 2 = 0 then laneA w x n (i / 2) else laneB w x n (i / 2)⟩,
  ⟨.vziph, .vziph, typeBits, fun w x n i =>
    if i % 2 = 0 then laneA w x n (256 / n + i / 2) else laneB w x n (256 / n + i / 2)⟩,
  ⟨.vunzipe, .vunzipe, typeBits, fun w x n i => laneAB w x n (2 * i)⟩,
  ⟨.vunzipo, .vunzipo, typeBits, fun w x n i => laneAB w x n (2 * i + 1)⟩,
  ⟨.vins, .vins, typeBits, fun w x n i => if i = fB w then (x.sget (fA w)).setWidth n else laneD w x n i⟩,
  ⟨.vrev, .vrev, typeBits, fun w x n i => laneA w x n (512 / n - 1 - i)⟩,
  ⟨.accrH, .accrH, fun _ => 16, fun w x n i =>
    satLane n (((accH (x.aget (fA w)) i).toInt + accRnd (fB w)) / 2 ^ fB w)⟩,
  ⟨.accrwW, .accrwW, fun _ => 32, fun w x n i =>
    satLane n (((accWide (x.aget (fA w)) i).toInt + accRnd (fB w)) / 2 ^ fB w)⟩]

/-- A shift: its command, its operation, its amount for lane `i`, and the lane shifted by an amount below its width. -/
structure ShiftRow where
  cmd : Nat → Nat → Instr
  op : SwOp
  amount : Word → Thread → Nat → Nat
  shift : (n : Nat) → BitVec n → Nat → BitVec n

/-- The amount in v_B, and in field B. -/
def byLane (w : Word) (x : Thread) (i : Nat) : Nat := (laneB w x (typeBits w) i).toNat
def byField (w : Word) (_ : Thread) (_ : Nat) : Nat := fB w

/-- The shifts of *Vector integer functions*. -/
def shiftRows : List ShiftRow := [
  ⟨.vsll, .vsll, byLane, fun _ a k => a <<< k⟩,
  ⟨.vsrl, .vsrl, byLane, fun _ a k => a >>> k⟩,
  ⟨.vsra, .vsra, byLane, fun _ a k => a.sshiftRight k⟩,
  ⟨.vslli, .vslli, byField, fun _ a k => a <<< k⟩,
  ⟨.vsrli, .vsrli, byField, fun _ a k => a >>> k⟩,
  ⟨.vsrai, .vsrai, byField, fun _ a k => a.sshiftRight k⟩]

/-- An instruction that writes H lanes of acc_D: its command, its operation, and the new 40-bit lane. -/
structure AccRow where
  cmd : Nat → Nat → Instr
  op : SwOp
  lane : Word → Thread → Nat → BitVec 40

/-- The product of two H lanes as a 40-bit lane. -/
def mulH (a b : BitVec 16) : BitVec 40 := a.signExtend 40 * b.signExtend 40

/-- *Accumulator functions* of type H that write an accumulator. -/
def accRows : List AccRow := [
  ⟨.vmacH, .vmacH, fun w x i => accH (x.aget (fD w)) i + mulH (laneA w x 16 i) (laneB w x 16 i)⟩,
  ⟨.vdot2H, .vdot2H, fun w x i => accH (x.aget (fD w)) i + mulH (laneA w x 16 i) (laneB w x 16 i)
    + mulH (vlane 16 (x.vget (fA w + 1)) i) (vlane 16 (x.vget (fB w + 1)) i)⟩,
  ⟨.vmacsH, .vmacsH, fun w x i => accH (x.aget (fD w)) i + mulH (laneA w x 16 i) ((x.sget (fB w)).setWidth 16)⟩,
  ⟨.vmsubH, .vmsubH, fun w x i => accH (x.aget (fD w)) i - mulH (laneA w x 16 i) (laneB w x 16 i)⟩,
  ⟨.accz, .accz, fun _ _ _ => 0⟩,
  ⟨.accldH, .accldH, fun w x i => (laneA w x 16 i).signExtend 40 <<< fB w⟩]

/-- A compare: its command, its operation, and the compare of integer lanes and of fp32 lanes. -/
structure CmpRow where
  cmd : Nat → Nat → Instr
  op : SwOp
  int : (n : Nat) → BitVec n → BitVec n → Bool
  fp : F32 → F32 → Bool

/-- *Compare and mask functions*, the compares. -/
noncomputable def cmpRows : List CmpRow := [
  ⟨.vcmpEq, .vcmpEq, fun _ a b => a == b, fun a b => a.eq b⟩,
  ⟨.vcmpNe, .vcmpNe, fun _ a b => a != b, fun a b => !a.eq b⟩,
  ⟨.vcmpLt, .vcmpLt, fun _ a b => a.slt b, fun a b => a.lt b⟩,
  ⟨.vcmpLe, .vcmpLe, fun _ a b => a.sle b, fun a b => a.lt b || a.eq b⟩,
  ⟨.vcmpLtu, .vcmpLtu, fun _ a b => a.ult b, fun a b => a.lt b⟩,
  ⟨.vcmpLeu, .vcmpLeu, fun _ a b => a.ule b, fun a b => a.lt b || a.eq b⟩]

/-- Mask logic: its command, its operation, and its result from m_A, m_B and s_A. -/
structure MaskRow where
  cmd : Nat → Nat → Instr
  op : SwOp
  val : Word → Word → Word → Word

/-- *Compare and mask functions*, the mask logic. -/
noncomputable def maskRows : List MaskRow := [
  ⟨.mand, .mand, fun a b _ => a &&& b⟩,
  ⟨.mor, .mor, fun a b _ => a ||| b⟩,
  ⟨.mxor, .mxor, fun a b _ => a ^^^ b⟩,
  ⟨.mnot, .mnot, fun a _ _ => ~~~a⟩,
  ⟨.mset, .mset, fun _ _ v => v⟩]

/-- Lane `i` of `n` bits is one of the register's lanes, and the mask enables it. -/
def enabledLane (w : Word) (x : Thread) (n i : Nat) : Bool := decide (i < 512 / n) && bitAt (x.mget (fM w)) i

/-- The pairwise sum of VRSUM.S (*Reduction functions*): at level 0 the enabled lane, at a level above it the two below. -/
def treeSum (w : Word) (x : Thread) : Nat → Nat → Option Word
  | 0, i => if enabledLane w x 32 i then some (laneA w x 32 i) else none
  | k + 1, i =>
    match treeSum w x k (2 * i), treeSum w x k (2 * i + 1) with
    | some a, some b => some (fAdd a b)
    | some a, none => some a
    | none, o => o

/-- A reduction to the best lane: its command, its operation, the order "a before b", the extension to 32 bits, and the result
with no lane enabled. -/
structure BestRow where
  cmd : Nat → Nat → Instr
  op : SwOp
  before : (n : Nat) → BitVec n → BitVec n → Bool
  ext : (n : Nat) → BitVec n → Word
  ident : Nat → Word

/-- *Reduction functions*, the minima and maxima. -/
noncomputable def bestRows : List BestRow := [
  ⟨.vrmin, .vrmin, fun _ a b => a.slt b, fun _ a => a.signExtend 32, fun n => BitVec.ofInt 32 (2 ^ (n - 1) - 1)⟩,
  ⟨.vrmax, .vrmax, fun _ a b => b.slt a, fun _ a => a.signExtend 32, fun n => BitVec.ofInt 32 (-(2 ^ (n - 1)))⟩,
  ⟨.vrminu, .vrminu, fun _ a b => a.ult b, fun _ a => a.setWidth 32, fun n => BitVec.ofNat 32 (2 ^ n - 1)⟩,
  ⟨.vrmaxu, .vrmaxu, fun _ a b => b.ult a, fun _ a => a.setWidth 32, fun _ => 0⟩]

/-! ## Traps -/

/-- Thread `t` of engine `p` takes a trap (R274): EPC, CAUSE and TVAL are written; with a handler the thread is in the trap at TVEC,
without one, or in a trap, it is HALTED, DOUBLE_TRAP is set and it keeps its work item; its registers, every memory and every other
engine are as they were, and TRAPS has counted (R275). -/
def State.Traps (s u : State) (p t cause : Nat) (tval : Word) : Prop :=
  (u.thr p t).epc = wd (s.thr p t).pc ∧ (u.thr p t).cause = cause ∧ (u.thr p t).tval = tval ∧
  ((s.thr p t).tvec ≠ 0 → (s.thr p t).inTrap = false →
    (u.thr p t).inTrap = true ∧ (u.thr p t).pc = (s.thr p t).tvec.toNat ∧ (u.thr p t).st = 1) ∧
  ((s.thr p t).tvec = 0 ∨ (s.thr p t).inTrap = true →
    (u.thr p t).st = 3 ∧ (u.thr p t).double = (s.thr p t).inTrap ∧ u.bit (pENG p) Off.hdr_PG_FAULT 8 = true) ∧
  (u.thr p t).s = (s.thr p t).s ∧ (u.thr p t).v = (s.thr p t).v ∧ (u.thr p t).m = (s.thr p t).m ∧ (u.thr p t).acc = (s.thr p t).acc ∧
  (u.thr p t).wi.map (fun i => (i.handle, i.epoch, i.queue)) = (s.thr p t).wi.map (fun i => (i.handle, i.epoch, i.queue)) ∧
  u.mem = s.mem ∧ (∀ q b, u.dataByte q b = s.dataByte q b) ∧ (∀ q, q ≠ p → u.eng q = s.eng q) ∧
  u.fld (pENG p) Off.eng_TRAPS 0 32 = min (2 ^ 32 - 1) (s.fld (pENG p) Off.eng_TRAPS 0 32 + 1)

/-! ## Encodings -/

/-- A word of major opcode `op` and FUNC `f` whose fields D, A, B and M, where the row does not use them, are 0 (R256). -/
def encR (w : Word) (op f : Nat) (d a b m : Bool) : Bool :=
  fOp w == op && fF w == f && (d || fD w == 0) && (a || fA w == 0) && (b || fB w == 0) && (m || fM w == 0)

/-- The same with FUNC[5:0] `f` and a type among `ts` (R257). -/
def encT (w : Word) (op f : Nat) (ts : List Nat) (d a b m : Bool) : Bool :=
  fOp w == op && fCode w == f && ts.contains (fType w) && (d || fD w == 0) && (a || fA w == 0) && (b || fB w == 0) && (m || fM w == 0)

/-- D, or A, names an accumulator (*Accumulator functions*). -/
def accD (w : Word) : Bool := decide (fD w < 4)
def accA (w : Word) : Bool := decide (fA w < 4)

/-- D names one of m1 to m7 (*Compare and mask functions*). -/
def maskD (w : Word) : Bool := fD w != 0 && decide (fD w < 8)

/-- The word encodes the operation, by *Major opcodes* and the function tables. -/
def SwOp.fits (w : Word) : SwOp → Bool
  | .nop => encR w 0x00 0x01 false false false false
  | .fence => encR w 0x00 0x02 false false false false
  | .eret => encR w 0x00 0x03 false false false false
  | .trap => encR w 0x00 0x04 true true false false
  | .yield => encR w 0x00 0x07 false false false false
  | .exit => encR w 0x00 0x08 false false false false
  | .csrr => encR w 0x00 0x05 true false true true
  | .csrw => encR w 0x00 0x06 false true true true
  | .add => encR w 0x01 0x00 true true true false
  | .sub => encR w 0x01 0x01 true true true false
  | .and_ => encR w 0x01 0x02 true true true false
  | .or_ => encR w 0x01 0x03 true true true false
  | .xor_ => encR w 0x01 0x04 true true true false
  | .sll => encR w 0x01 0x05 true true true false
  | .srl => encR w 0x01 0x06 true true true false
  | .sra => encR w 0x01 0x07 true true true false
  | .slt => encR w 0x01 0x08 true true true false
  | .sltu => encR w 0x01 0x09 true true true false
  | .min => encR w 0x01 0x0A true true true false
  | .max => encR w 0x01 0x0B true true true false
  | .minu => encR w 0x01 0x0C true true true false
  | .maxu => encR w 0x01 0x0D true true true false
  | .mul => encR w 0x01 0x0E true true true false
  | .mulh => encR w 0x01 0x0F true true true false
  | .mulhu => encR w 0x01 0x10 true true true false
  | .sextb => encR w 0x01 0x11 true true false false
  | .sexth => encR w 0x01 0x12 true true false false
  | .clz => encR w 0x01 0x13 true true false false
  | .popc => encR w 0x01 0x14 true true false false
  | .addi => fOp w == 0x02
  | .andi => fOp w == 0x03
  | .ori => fOp w == 0x04
  | .xori => fOp w == 0x05
  | .slti => fOp w == 0x06
  | .lui => fOp w == 0x07 && fA w == 0
  | .shi => fOp w == 0x08 && wfld w 7 9 == 0
  | .fadd => encR w 0x09 0x00 true true true false
  | .fsub => encR w 0x09 0x01 true true true false
  | .fmul => encR w 0x09 0x02 true true true false
  | .fma => encR w 0x09 0x03 true true true false
  | .fmin => encR w 0x09 0x04 true true true false
  | .fmax => encR w 0x09 0x05 true true true false
  | .feq => encR w 0x09 0x06 true true true false
  | .flt => encR w 0x09 0x07 true true true false
  | .fle => encR w 0x09 0x08 true true true false
  | .fcvtws => encR w 0x09 0x09 true true false false
  | .fcvtsw => encR w 0x09 0x0A true true false false
  | .frcp => encR w 0x09 0x0B true true false false
  | .frsq => encR w 0x09 0x0C true true false false
  | .fabs => encR w 0x09 0x0D true true false false
  | .fneg => encR w 0x09 0x0E true true false false
  | .lw => fOp w == 0x0A
  | .sw => fOp w == 0x0B
  | .lhu => fOp w == 0x0C
  | .sh => fOp w == 0x0D
  | .lbu => fOp w == 0x0E
  | .sb => fOp w == 0x0F
  | .beq => fOp w == 0x10
  | .bne => fOp w == 0x11
  | .blt => fOp w == 0x12
  | .bge => fOp w == 0x13
  | .bltu => fOp w == 0x14
  | .bgeu => fOp w == 0x15
  | .jal => fOp w == 0x16
  | .jalr => fOp w == 0x17
  | .loop => fOp w == 0x18 && fD w == 0 && decide (1 ≤ fImm w) && decide (fImm w ≤ 4096)
  | .vadd => encT w 0x20 0x00 [0, 1] true true true true
  | .vsub => encT w 0x20 0x01 [0, 1] true true true true
  | .vadds => encT w 0x20 0x02 [0, 1] true true true true
  | .vsubs => encT w 0x20 0x03 [0, 1] true true true true
  | .vaddus => encT w 0x20 0x04 [0, 1] true true true true
  | .vsubus => encT w 0x20 0x05 [0, 1] true true true true
  | .vand => encT w 0x20 0x06 [0, 1] true true true true
  | .vor => encT w 0x20 0x07 [0, 1] true true true true
  | .vxor => encT w 0x20 0x08 [0, 1] true true true true
  | .vsll => encT w 0x20 0x09 [0, 1] true true true true
  | .vsrl => encT w 0x20 0x0A [0, 1] true true true true
  | .vsra => encT w 0x20 0x0B [0, 1] true true true true
  | .vmin => encT w 0x20 0x0C [0, 1] true true true true
  | .vmax => encT w 0x20 0x0D [0, 1] true true true true
  | .vminu => encT w 0x20 0x0E [0, 1] true true true true
  | .vmaxu => encT w 0x20 0x0F [0, 1] true true true true
  | .vmul => encT w 0x20 0x10 [0, 1] true true true true
  | .vmulh => encT w 0x20 0x11 [0, 1] true true true true
  | .vmulhrs => encT w 0x20 0x12 [0, 1] true true true true
  | .vabsd => encT w 0x20 0x13 [0, 1] true true true true
  | .vavg => encT w 0x20 0x14 [0, 1] true true true true
  | .vsel => encT w 0x20 0x15 [0, 1] true true true true
  | .vmov => encT w 0x20 0x16 [0, 1] true true false true
  | .vbcast => encT w 0x20 0x17 [0, 1] true true false true
  | .vnarrow => encT w 0x20 0x18 [1] true true true true
  | .vwidenl => encT w 0x20 0x19 [0] true true false true
  | .vwidenh => encT w 0x20 0x1A [0] true true false true
  | .vwidenlu => encT w 0x20 0x1B [0] true true false true
  | .vwidenhu => encT w 0x20 0x1C [0] true true false true
  | .vslli => encT w 0x20 0x1D [0, 1] true true true true
  | .vsrli => encT w 0x20 0x1E [0, 1] true true true true
  | .vsrai => encT w 0x20 0x1F [0, 1] true true true true
  | .vfadd => encR w 0x21 0x00 true true true true
  | .vfsub => encR w 0x21 0x01 true true true true
  | .vfmul => encR w 0x21 0x02 true true true true
  | .vfma => encR w 0x21 0x03 true true true true
  | .vfmin => encR w 0x21 0x04 true true true true
  | .vfmax => encR w 0x21 0x05 true true true true
  | .vfcvtws => encR w 0x21 0x06 true true false true
  | .vfcvtsw => encR w 0x21 0x07 true true false true
  | .vfrcp => encR w 0x21 0x08 true true false true
  | .vfrsq => encR w 0x21 0x09 true true false true
  | .vfabs => encR w 0x21 0x0A true true false true
  | .vfcvtsh => encR w 0x21 0x0B true true false true
  | .vfcvtshh => encR w 0x21 0x0C true true false true
  | .vfcvths => encR w 0x21 0x0D true true true true
  | .vfbcast => encR w 0x21 0x0E true true false true
  | .vmacH => encR w 0x22 0x00 true true true true && accD w
  | .vdot2H => encR w 0x22 0x01 true true true true && accD w && fA w % 2 == 0 && fB w % 2 == 0
  | .vmacsH => encR w 0x22 0x02 true true true true && accD w
  | .vmacW => encR w 0x22 0x03 true true true true && accD w
  | .vmsubH => encR w 0x22 0x04 true true true true && accD w
  | .accz => encR w 0x22 0x08 true false false true && accD w
  | .accldH => encR w 0x22 0x09 true true true true && accD w && decide (fB w ≤ 24)
  | .accrH => encR w 0x22 0x0A true true true true && accA w
  | .accr2W => encR w 0x22 0x0B true true true true && accA w && fD w % 2 == 0
  | .accrwW => encR w 0x22 0x0C true true true true && accA w
  | .vslide => fOp w == 0x23 && (fType w == 0 && decide (fCode w ≤ 31) || fType w == 1 && decide (fCode w ≤ 15))
  | .vshuf => encT w 0x23 0x20 [0, 1] true true true true
  | .vzipl => encT w 0x23 0x21 [0, 1] true true true true
  | .vziph => encT w 0x23 0x22 [0, 1] true true true true
  | .vunzipe => encT w 0x23 0x23 [0, 1] true true true true
  | .vunzipo => encT w 0x23 0x24 [0, 1] true true true true
  | .vext => encT w 0x23 0x25 [0, 1] true true true false
  | .vins => encT w 0x23 0x26 [0, 1] true true true true
  | .vrev => encT w 0x23 0x27 [0, 1] true true false true
  | .vcmpEq => encT w 0x24 0x00 [0, 1, 2] true true true true && maskD w
  | .vcmpNe => encT w 0x24 0x01 [0, 1, 2] true true true true && maskD w
  | .vcmpLt => encT w 0x24 0x02 [0, 1, 2] true true true true && maskD w
  | .vcmpLe => encT w 0x24 0x03 [0, 1, 2] true true true true && maskD w
  | .vcmpLtu => encT w 0x24 0x04 [0, 1] true true true true && maskD w
  | .vcmpLeu => encT w 0x24 0x05 [0, 1] true true true true && maskD w
  | .mand => encR w 0x24 0x10 true true true false && maskD w && decide (fA w < 8) && decide (fB w < 8)
  | .mor => encR w 0x24 0x11 true true true false && maskD w && decide (fA w < 8) && decide (fB w < 8)
  | .mxor => encR w 0x24 0x12 true true true false && maskD w && decide (fA w < 8) && decide (fB w < 8)
  | .mnot => encR w 0x24 0x13 true true false false && maskD w && decide (fA w < 8)
  | .mset => encR w 0x24 0x14 true true false false && maskD w
  | .vrsum => encT w 0x25 0x00 [0, 1, 2] true true false true
  | .vrmin => encT w 0x25 0x01 [0, 1] true true false true
  | .vrmax => encT w 0x25 0x02 [0, 1] true true false true
  | .vrminu => encT w 0x25 0x03 [0, 1] true true false true
  | .vrmaxu => encT w 0x25 0x04 [0, 1] true true false true
  | .mget => encT w 0x25 0x05 [0] true true false false && decide (fA w < 8)
  | .mcount => encT w 0x25 0x06 [0] true true false false && decide (fA w < 8)
  | .vld => fOp w == 0x28
  | .vst => fOp w == 0x29
  | .vldu => fOp w == 0x2A
  | .vstm => encR w 0x2B 0x00 true true false true
  | .vgath => encR w 0x2C 0x00 true true true true
  | .vscat => encR w 0x2D 0x00 true true true true
  | .qtake => encR w 0x30 0x00 true true true false
  | .qtry => encR w 0x30 0x01 true true true false
  | .qpush => encR w 0x30 0x02 true true true false
  | .qpushnb => encR w 0x30 0x03 true true true false
  | .qdone => encR w 0x30 0x04 true false false false
  | .qrel => encR w 0x30 0x05 true false false false
  | .qlevel => encR w 0x30 0x06 true true false false
  | .dmaq => encR w 0x31 0x00 true true false false
  | .dmaw => encR w 0x31 0x01 true true false false
  | .dmat => encR w 0x31 0x02 true true false false
  | .dmarst => encR w 0x31 0x03 false false false false
  | .amoadd => encR w 0x32 0x00 true true true false
  | .amoswap => encR w 0x32 0x01 true true true false
  | .amomin => encR w 0x32 0x02 true true true false
  | .amomax => encR w 0x32 0x03 true true true false
  | .amominu => encR w 0x32 0x04 true true true false
  | .amomaxu => encR w 0x32 0x05 true true true false
  | .amocas => encR w 0x32 0x06 true true true false
  | .bar => encR w 0x32 0x08 true false true false && decide (fB w < 16)
  | .sigev => encR w 0x32 0x09 false false true false && decide (fB w < 4)
  | .waitev => encR w 0x32 0x0A false false true false && decide (fB w < 4)
  | .testev => encR w 0x32 0x0B true false true false && decide (fB w < 4)

end Sys2Proof.Machine
end

