-- ==== Sys2Proof/Certificates/Slice0/Obligations.lean ====
section
/-!
DEFINITION. The statements for the provers, from the spec's numbered rules.
-/

open Sys2Proof Sys2Proof.Machine

/-! ## Swarm instructions -/

/-- *Scalar ALU functions* and the immediates of *Major opcodes*: s_D gets the row's result, the thread goes past the instruction,
and nothing else changes. -/
def Obligations.SwarmScalarInteger : Prop :=
  ∀ r ∈ aluRows ++ immRows, ∀ (p t : Nat) (w : Word) (s : State), s.Ready p t w r.op →
    s.Retires (r.cmd p t) p t
      (((s.thr p t).sput (fD w) (r.val w ((s.thr p t).sget (fD w)) ((s.thr p t).sget (fA w)) ((s.thr p t).sget (fB w)))).step)

/-- *Scalar fp32 functions*: s_D gets the row's binary32 result, and nothing else changes. The bits that IEEE 754 or R254 leaves open
(FMIN and FMAX of a NaN or of both zeros, FRCP, FRSQ) are the model's free values (notes/assumptions/1.md). -/
def Obligations.SwarmScalarFloat : Prop :=
  ∀ r ∈ fpuRows, ∀ (p t : Nat) (w : Word) (s : State), s.Ready p t w r.op →
    s.Retires (r.cmd p t) p t
      (((s.thr p t).sput (fD w) (r.val w ((s.thr p t).sget (fD w)) ((s.thr p t).sget (fA w)) ((s.thr p t).sget (fB w)))).step)

/-- R254: a NaN operand gives the canonical NaN, a subnormal operand counts as a zero of its sign, no compare with a NaN holds, and a
conversion to an integer gives 0 for a NaN and the largest or smallest integer beyond the range. -/
def Obligations.SwarmFloatSpecials : Prop :=
  (∀ a b : Word, f32 a = .nan → fAdd a b = wd 0x7FC00000 ∧ fAdd b a = wd 0x7FC00000 ∧ fSub a b = wd 0x7FC00000 ∧
    fSub b a = wd 0x7FC00000 ∧ fMul a b = wd 0x7FC00000 ∧ fMul b a = wd 0x7FC00000 ∧ (∀ c, fMa a b c = wd 0x7FC00000) ∧
    (∀ c, fMa c a b = wd 0x7FC00000) ∧ (∀ c, fMa c b a = wd 0x7FC00000) ∧ fRcp a = wd 0x7FC00000 ∧ fRsq a = wd 0x7FC00000 ∧
    (f32 a).eq (f32 b) = false ∧ (f32 a).lt (f32 b) = false ∧ (f32 b).lt (f32 a) = false ∧ fToInt a = 0) ∧
  (∀ a : Word, f32 a = .nan ↔ wfld a 23 8 = 255 ∧ wfld a 0 23 ≠ 0) ∧
  (∀ a b : Word, wfld a 23 8 = 0 → fAdd a b = fAdd (wset a 0 23 0) b ∧ fAdd b a = fAdd b (wset a 0 23 0) ∧
    fMul a b = fMul (wset a 0 23 0) b ∧ fMul b a = fMul b (wset a 0 23 0)) ∧
  (∀ a : Word, (∃ m, f32 a = .num false m ∧ ((2 ^ 31 : Nat) : Int) * m.d ≤ m.n) ∨ f32 a = .inf false → fToInt a = wd 0x7FFFFFFF) ∧
  (∀ a : Word, (∃ m, f32 a = .num true m ∧ ((2 ^ 31 : Nat) : Int) * m.d ≤ m.n) ∨ f32 a = .inf true → fToInt a = wd 0x80000000)

/-- The branches, jumps and hardware loops of R256 and R258: a taken branch goes to its target, the others go on, JAL and JALR write
their return address, a LOOP enters its body or, with a count of 0, skips it, and the end of a body starts the next iteration or
leaves the loop. -/
def Obligations.SwarmControlFlow : Prop :=
  (∀ r ∈ branchRows, ∀ (p t : Nat) (w : Word) (s : State), s.Ready p t w r.op →
    s.Retires (r.cmd p t) p t
      (if r.taken ((s.thr p t).sget (fD w)) ((s.thr p t).sget (fA w)) then
        (s.thr p t).goto (BitVec.ofNat 32 (s.thr p t).pc + 4 * immS w).toNat else (s.thr p t).step)) ∧
  (∀ (p t : Nat) (w : Word) (s : State), s.Ready p t w .jal →
    s.Retires (.jal p t) p t (((s.thr p t).sput 31 (BitVec.ofNat 32 ((s.thr p t).pc + 4))).goto
      (BitVec.ofNat 32 (s.thr p t).pc + 4 * (w.setWidth 26).signExtend 32).toNat)) ∧
  (∀ (p t : Nat) (w : Word) (s : State), s.Ready p t w .jalr →
    s.Retires (.jalr p t) p t (((s.thr p t).sput (fD w) (BitVec.ofNat 32 ((s.thr p t).pc + 4))).goto
      (((s.thr p t).sget (fA w) + immS w) &&& 0xFFFFFFFC).toNat)) ∧
  (∀ (p t : Nat) (w : Word) (s : State), s.Ready p t w .loop → (s.thr p t).depth < 2 → (s.thr p t).sget (fA w) ≠ 0 →
    s.Retires (.loop p t) p t
      { s.thr p t with
        depth := (s.thr p t).depth + 1,
        lcount := Map.put (fun _ => 0) (s.thr p t).lcount (s.thr p t).depth ((s.thr p t).sget (fA w)),
        lbounds := Map.put (fun _ => 0) (s.thr p t).lbounds (s.thr p t).depth
          (wd ((s.thr p t).pc / 4 + 1 + ((s.thr p t).pc / 4 + fImm w) * 65536)),
        pc := (s.thr p t).pc + 4 }) ∧
  (∀ (p t : Nat) (w : Word) (s : State), s.Ready p t w .loop → (s.thr p t).depth = 0 → (s.thr p t).sget (fA w) = 0 →
    s.Retires (.loop p t) p t { s.thr p t with pc := (s.thr p t).pc + 4 * (fImm w + 1) }) ∧
  (∀ x : Thread, (x.depth = 0 → x.step = { x with pc := x.pc + 4 }) ∧ (x.depth = 0 → ∀ a < 2 ^ 32, x.goto a = { x with pc := a })) ∧
  (∀ x : Thread, x.depth = 1 → x.pc / 4 = x.loopEnd 0 →
    (1 < (Map.get (fun _ => 0) x.lcount 0).toNat →
      x.step = { x with pc := 4 * x.loopStart 0, lcount := Map.put (fun _ => 0) x.lcount 0 (Map.get (fun _ => 0) x.lcount 0 - 1) }) ∧
    ((Map.get (fun _ => 0) x.lcount 0).toNat ≤ 1 →
      x.step = { x with pc := x.pc + 4, depth := 0, lcount := Map.put (fun _ => 0) x.lcount 0 0 })) ∧
  (∀ x : Thread, x.depth = 1 → ∀ a < 2 ^ 32, ¬ (x.loopStart 0 ≤ a / 4 ∧ a / 4 ≤ x.loopEnd 0) →
    x.goto a = { x with pc := a, depth := 0, lcount := Map.put (fun _ => 0) x.lcount 0 0 })

/-- *System functions* and R259: NOP and FENCE go on, YIELD notes the other threads in RUN, ERET returns from a trap, CSRR and CSRW
read and write the CSR that the word names, TRAP takes cause 0x20 with the code {D, A}, and EXIT leaves the thread IDLE. -/
def Obligations.SwarmSystemFunctions : Prop :=
  (∀ (p t : Nat) (w : Word) (s : State), s.Ready p t w .nop → s.Retires (.nop p t) p t (s.thr p t).step) ∧
  (∀ (p t : Nat) (w : Word) (s : State), s.Ready p t w .fence → s.Retires (.fence p t) p t (s.thr p t).step) ∧
  (∀ (p t : Nat) (w : Word) (s : State), s.Ready p t w .yield →
    s.Answers (.yield p t) fun u =>
      u.thr p t = { (s.thr p t).step with yielded := (List.range 4).filter fun i => i != t && (s.thr p i).st == 1 } ∧
      s.ThreadOnly u p t) ∧
  (∀ (p t : Nat) (w : Word) (s : State), s.Ready p t w .eret → (s.thr p t).inTrap = true →
    s.Retires (.eret p t) p t { s.thr p t with pc := (s.thr p t).epc.toNat, inTrap := false }) ∧
  (∀ (p t : Nat) (w : Word) (s : State), s.Ready p t w .trap → (s.thr p t).tvec ≠ 0 → (s.thr p t).inTrap = false →
    s.Answers (.trap p t) fun u =>
      u.thr p t = { s.thr p t with epc := wd (s.thr p t).pc, cause := 0x20, tval := wd (fD w * 32 + fA w), wait := none, st := 1,
                                   inTrap := true, pc := (s.thr p t).tvec.toNat } ∧
      u.fld (pENG p) Off.eng_TRAPS 0 32 = min (2 ^ 32 - 1) (s.fld (pENG p) Off.eng_TRAPS 0 32 + 1) ∧ u.mem = s.mem) ∧
  (∀ (p t : Nat) (w : Word) (s : State) (v : Word), s.Ready p t w .csrr → s.csr p t (csrNum w) = some v →
    ∃ hi lo, s.Retires (.csrr p t) p t ({ (s.thr p t).sput (fD w) v with cycHi := hi, timeHi := lo }.step) ∧
      (csrNum w ≠ 0x0B → hi = (s.thr p t).cycHi) ∧ (csrNum w = 0x0B → hi = some (wd (s.engCycles p / 2 ^ 32))) ∧
      (csrNum w ≠ 0x0D → lo = (s.thr p t).timeHi) ∧ (csrNum w = 0x0D → lo = some (wd (s.timeNs / 2 ^ 32)))) ∧
  (∀ (p t n : Nat) (s : State), (s.csr p t n).isSome ↔ n ≤ 0x13) ∧
  (∀ (p t : Nat) (w : Word) (s : State) (y : Thread), s.Ready p t w .csrw →
    (s.thr p t).csrPut (csrNum w) ((s.thr p t).sget (fA w)) = some y → s.Retires (.csrw p t) p t y.step) ∧
  (∀ (x : Thread) (n : Nat) (v : Word), (x.csrPut n v).isSome ↔ n ∈ [0x03, 0x04, 0x05, 0x0F, 0x10, 0x11, 0x12, 0x13]) ∧
  (∀ (p t : Nat) (w : Word) (s : State), s.Ready p t w .exit → (s.thr p t).wi = none →
    s.Answers (.exit p t) fun u =>
      u.ThreadIs p t { s.thr p t with st := 0, wait := none, park := false } ∧ u.mem = s.mem ∧ u.regs = s.regs)

/-- R249: a load of clean memory where no injected error waits, aligned and in the engine map, gives the little-endian value of its bytes: from data memory and
from the home cluster's shared memory; VGATH gathers halfwords and gives 0 in the other lanes. Nothing else changes. -/
def Obligations.SwarmLoads : Prop :=
  (∀ r ∈ loadRows, ∀ (p t : Nat) (w : Word) (s : State) (a : Nat), s.Ready p t w r.op →
    a = ((s.thr p t).sget (fA w) + immS w).toNat → a % r.bytes = 0 →
    (a + r.bytes ≤ 0x20000 → s.dpoisoned p a r.bytes = false → (s.pageRt (pENG p)).inject = 0 →
      s.Retires (r.cmd p t .clean) p t ((s.thr p t).sput (fD w) (wd (ofLeBytes (s.dpeek p a r.bytes)))).step) ∧
    (∀ k, s.homeOf p = some k → 0x200000 ≤ a → a + r.bytes ≤ 0x400000 → s.alive (pCLUS k) = true →
      s.anyPoison (shmBase + k * 0x200000 + (a - 0x200000)) r.bytes = false → (s.pageRt (pCLUS k)).inject = 0 →
      s.Retires (r.cmd p t .clean) p t
        ((s.thr p t).sput (fD w) (wd (ofLeBytes (s.peek (shmBase + k * 0x200000 + (a - 0x200000)) r.bytes)))).step)) ∧
  (∀ (p t : Nat) (w : Word) (s : State) (a : Nat), s.Ready p t w .vld →
    a = ((s.thr p t).sget (fA w) + 64 * immS w).toNat → a % 64 = 0 →
    (a + 64 ≤ 0x20000 → s.dpoisoned p a 64 = false → (s.pageRt (pENG p)).inject = 0 →
      s.Retires (.vld p t .clean) p t ((s.thr p t).vput (fD w) (bytesWords 16 (s.dpeek p a 64))).step) ∧
    (∀ k, s.homeOf p = some k → 0x200000 ≤ a → a + 64 ≤ 0x400000 → s.alive (pCLUS k) = true →
      s.anyPoison (shmBase + k * 0x200000 + (a - 0x200000)) 64 = false → (s.pageRt (pCLUS k)).inject = 0 →
      s.Retires (.vld p t .clean) p t
        ((s.thr p t).vput (fD w) (bytesWords 16 (s.peek (shmBase + k * 0x200000 + (a - 0x200000)) 64))).step)) ∧
  (∀ (p t : Nat) (w : Word) (s : State) (a : Nat), s.Ready p t w .vldu →
    a = ((s.thr p t).sget (fA w) + 2 * immS w).toNat → a % 2 = 0 →
    (a + 64 ≤ 0x20000 → s.dpoisoned p a 64 = false → (s.pageRt (pENG p)).inject = 0 →
      s.Retires (.vldu p t .clean) p t ((s.thr p t).vput (fD w) (bytesWords 16 (s.dpeek p a 64))).step) ∧
    (∀ k, s.homeOf p = some k → 0x200000 ≤ a → a + 64 ≤ 0x400000 → s.alive (pCLUS k) = true →
      s.anyPoison (shmBase + k * 0x200000 + (a - 0x200000)) 64 = false → (s.pageRt (pCLUS k)).inject = 0 →
      s.Retires (.vldu p t .clean) p t
        ((s.thr p t).vput (fD w) (bytesWords 16 (s.peek (shmBase + k * 0x200000 + (a - 0x200000)) 64))).step)) ∧
  (∀ (p t lane : Nat) (w : Word) (s : State) (at_ : Nat → Nat), s.Ready p t w .vgath → (s.pageRt (pENG p)).inject = 0 →
    (∀ i, at_ i = ((s.thr p t).sget (fA w) + 2 * (laneB w (s.thr p t) 16 i).setWidth 32).toNat) →
    (∀ i < 32, bitAt ((s.thr p t).mget (fM w)) i = true →
      at_ i % 2 = 0 ∧ at_ i + 2 ≤ 0x20000 ∧ s.dpoisoned p (at_ i) 2 = false) →
    ∃ v, s.Retires (.vgath p t .clean lane) p t ((s.thr p t).vput (fD w) v).step ∧
      ∀ i < 32, vlane 16 v i =
        if bitAt ((s.thr p t).mget (fM w)) i then BitVec.ofNat 16 (ofLeBytes (s.dpeek p (at_ i) 2)) else 0)

/-- R249: an aligned store in the engine map puts the low bytes of s_D, or the 64 bytes of v_D, at its address, in data memory and in
the home cluster's shared memory, and changes no other byte. -/
def Obligations.SwarmStores : Prop :=
  (∀ r ∈ storeRows, ∀ (p t : Nat) (w : Word) (s : State) (a : Nat), s.Ready p t w r.op →
    a = ((s.thr p t).sget (fA w) + immS w).toNat → a % r.bytes = 0 →
    (a + r.bytes ≤ 0x20000 → s.dpoisoned p a r.bytes = false →
      s.StoresData (r.cmd p t) p t a (leBytes r.bytes ((s.thr p t).sget (fD w)).toNat)) ∧
    (∀ k, s.homeOf p = some k → 0x200000 ≤ a → a + r.bytes ≤ 0x400000 → s.alive (pCLUS k) = true →
      s.anyPoison (shmBase + k * 0x200000 + (a - 0x200000)) r.bytes = false →
      s.StoresShared (r.cmd p t) p t (shmBase + k * 0x200000 + (a - 0x200000)) (leBytes r.bytes ((s.thr p t).sget (fD w)).toNat))) ∧
  (∀ (p t : Nat) (w : Word) (s : State) (a : Nat), s.Ready p t w .vst →
    a = ((s.thr p t).sget (fA w) + 64 * immS w).toNat → a % 64 = 0 →
    (a + 64 ≤ 0x20000 → s.StoresData (.vst p t) p t a (wordsBytes ((s.thr p t).vget (fD w)))) ∧
    (∀ k, s.homeOf p = some k → 0x200000 ≤ a → a + 64 ≤ 0x400000 → s.alive (pCLUS k) = true →
      s.StoresShared (.vst p t) p t (shmBase + k * 0x200000 + (a - 0x200000)) (wordsBytes ((s.thr p t).vget (fD w))))) ∧
  (∀ r : (Nat → Nat → Instr) × SwOp × (Word → Thread → Nat → Nat),
    r ∈ ([(.vstm, .vstm, fun _ _ i => 2 * i), (.vscat, .vscat, fun w x i => 2 * (laneB w x 16 i).toNat)] : List _) →
    ∀ (p t : Nat) (w : Word) (s : State) (at_ : Nat → Nat), s.Ready p t w r.2.1 →
    (∀ i, at_ i = (((s.thr p t).sget (fA w)).toNat + r.2.2 w (s.thr p t) i) % 2 ^ 32) →
    (∀ i < 32, bitAt ((s.thr p t).mget (fM w)) i = true →
      at_ i % 2 = 0 ∧ at_ i + 2 ≤ 0x20000 ∧ s.dpoisoned p (at_ i) 2 = false) →
    s.Answers (r.1 p t) fun u => u.ThreadIs p t (s.thr p t).step ∧
      (∀ i < 32, bitAt ((s.thr p t).mget (fM w)) i = true →
        (∀ j < 32, i < j → bitAt ((s.thr p t).mget (fM w)) j = true → at_ j ≠ at_ i) →
        ∀ k < 2, u.dataByte p (at_ i + k) = (leBytes 2 (laneD w (s.thr p t) 16 i).toNat).getD k 0) ∧
      (∀ b, (∀ i < 32, bitAt ((s.thr p t).mget (fM w)) i = true → b ≠ at_ i ∧ b ≠ at_ i + 1) → u.dataByte p b = s.dataByte p b) ∧
      (∀ q, q ≠ p → u.eng q = s.eng q) ∧ u = { s with swarm := u.swarm })

/-- R271: an atomic on a clean, aligned word without an injected error of data memory or of the home cluster's shared memory gives s_D the old word and stores
the row's new word, and changes no other byte. -/
def Obligations.SwarmAtomics : Prop :=
  ∀ r ∈ amoRows, ∀ (p t : Nat) (w : Word) (s : State) (a : Nat), s.Ready p t w r.op →
    a = ((s.thr p t).sget (fA w)).toNat → a % 4 = 0 →
    (∀ old : Word, a + 4 ≤ 0x20000 → s.dpoisoned p a 4 = false → (s.pageRt (pENG p)).inject = 0 → old = wd (ofLeBytes (s.dpeek p a 4)) →
      s.Answers (r.cmd p t .clean) fun u => u.ThreadIs p t ((s.thr p t).sput (fD w) old).step ∧
        ofLeBytes (u.dpeek p a 4) = (r.new old ((s.thr p t).sget (fB w)) ((s.thr p t).sget (fD w))).toNat ∧
        (∀ b, b < a ∨ a + 4 ≤ b → u.dataByte p b = s.dataByte p b) ∧ (∀ q, q ≠ p → u.eng q = s.eng q) ∧
        u = { s with swarm := u.swarm }) ∧
    (∀ (k o : Nat) (old : Word), s.homeOf p = some k → 0x200000 ≤ a → a + 4 ≤ 0x400000 → s.alive (pCLUS k) = true →
      o = shmBase + k * 0x200000 + (a - 0x200000) → s.anyPoison o 4 = false → (s.pageRt (pCLUS k)).inject = 0 → old = wd (ofLeBytes (s.peek o 4)) →
      s.Answers (r.cmd p t .clean) fun u => u.ThreadIs p t ((s.thr p t).sput (fD w) old).step ∧
        ofLeBytes (u.peek o 4) = (r.new old ((s.thr p t).sget (fB w)) ((s.thr p t).sget (fD w))).toNat ∧
        (∀ b, b < o ∨ o + 4 ≤ b → u.byteAt b = s.byteAt b) ∧ u.regs = s.regs)

/-- *Vector integer functions* (R253, R255, R257): an enabled lane of v_D gets the row's result, a disabled lane keeps its value, and
nothing else changes; a shift by less than the lane's width; VSEL takes every lane from v_A or v_B. -/
def Obligations.SwarmVectorInteger : Prop :=
  (∀ r ∈ valuRows, ∀ (p t : Nat) (w : Word) (s : State), s.Ready p t w r.op →
    ∃ v, s.Retires (r.cmd p t) p t ((s.thr p t).vput (fD w) v).step ∧
      ∀ i < 512 / r.bits w, vlane (r.bits w) v i =
        if bitAt ((s.thr p t).mget (fM w)) i then r.lane w (s.thr p t) (r.bits w) i else laneD w (s.thr p t) (r.bits w) i) ∧
  (∀ r ∈ shiftRows, ∀ (p t : Nat) (w : Word) (s : State), s.Ready p t w r.op →
    ∃ v, s.Answers (r.cmd p t) (fun u => u.ThreadIs p t ((s.thr p t).vput (fD w) v).step ∧
        ({ s with free := u.free } : State).ThreadOnly u p t) ∧
      ∀ i < 512 / typeBits w,
        (bitAt ((s.thr p t).mget (fM w)) i = true → r.amount w (s.thr p t) i < typeBits w →
          vlane (typeBits w) v i = r.shift _ (laneA w (s.thr p t) (typeBits w) i) (r.amount w (s.thr p t) i)) ∧
        (bitAt ((s.thr p t).mget (fM w)) i = false → vlane (typeBits w) v i = laneD w (s.thr p t) (typeBits w) i)) ∧
  (∀ (p t : Nat) (w : Word) (s : State), s.Ready p t w .vsel →
    ∃ v, s.Retires (.vsel p t) p t ((s.thr p t).vput (fD w) v).step ∧
      ∀ i < 512 / typeBits w, vlane (typeBits w) v i =
        if bitAt ((s.thr p t).mget (fM w)) i then laneA w (s.thr p t) (typeBits w) i else laneB w (s.thr p t) (typeBits w) i)

/-- *Vector fp32 functions* (R254, R255): an enabled lane of v_D gets the row's result, a disabled lane keeps its value, and nothing
else changes. -/
def Obligations.SwarmVectorFloat : Prop :=
  ∀ r ∈ vfpuRows, ∀ (p t : Nat) (w : Word) (s : State), s.Ready p t w r.op →
    ∃ v, s.Retires (r.cmd p t) p t ((s.thr p t).vput (fD w) v).step ∧
      ∀ i < 512 / r.bits w, vlane (r.bits w) v i =
        if bitAt ((s.thr p t).mget (fM w)) i then r.lane w (s.thr p t) (r.bits w) i else laneD w (s.thr p t) (r.bits w) i

/-- *Permute functions* and *Accumulator functions* (R253, R255): the permutes and the accumulator reads write the enabled lanes of
v_D; VEXT gives s_D a lane; the accumulations write the enabled lanes of acc_D, which wrap; nothing else changes. -/
def Obligations.SwarmPermutesAndAccumulators : Prop :=
  (∀ r ∈ vpermRows, ∀ (p t : Nat) (w : Word) (s : State), s.Ready p t w r.op →
    ∃ v, s.Retires (r.cmd p t) p t ((s.thr p t).vput (fD w) v).step ∧
      ∀ i < 512 / r.bits w, vlane (r.bits w) v i =
        if bitAt ((s.thr p t).mget (fM w)) i then r.lane w (s.thr p t) (r.bits w) i else laneD w (s.thr p t) (r.bits w) i) ∧
  (∀ (p t : Nat) (w : Word) (s : State), s.Ready p t w .vext → fB w < 512 / typeBits w →
    s.Answers (.vext p t) fun u =>
      u.ThreadIs p t ((s.thr p t).sput (fD w) ((laneA w (s.thr p t) (typeBits w) (fB w)).setWidth 32)).step ∧
      ({ s with free := u.free } : State).ThreadOnly u p t) ∧
  (∀ (p t : Nat) (w : Word) (s : State), s.Ready p t w .accr2W →
    ∃ lo hi, s.Retires (.accr2W p t) p t (((s.thr p t).vput (fD w) lo).vput (fD w + 1) hi).step ∧
      ∀ i < 16,
        vlane 32 lo i = (if bitAt ((s.thr p t).mget (fM w)) i then
          satLane 32 (((accH ((s.thr p t).aget (fA w)) i).toInt + accRnd (fB w)) / 2 ^ fB w) else laneD w (s.thr p t) 32 i) ∧
        vlane 32 hi i = (if bitAt ((s.thr p t).mget (fM w)) (i + 16) then
          satLane 32 (((accH ((s.thr p t).aget (fA w)) (i + 16)).toInt + accRnd (fB w)) / 2 ^ fB w)
          else vlane 32 ((s.thr p t).vget (fD w + 1)) i)) ∧
  (∀ r ∈ accRows, ∀ (p t : Nat) (w : Word) (s : State), s.Ready p t w r.op →
    ∃ v, s.Retires (r.cmd p t) p t ((s.thr p t).aput (fD w) v).step ∧
      ∀ i < 32, accH v i =
        if bitAt ((s.thr p t).mget (fM w)) i then r.lane w (s.thr p t) i else accH ((s.thr p t).aget (fD w)) i) ∧
  (∀ (p t : Nat) (w : Word) (s : State), s.Ready p t w .vmacW →
    ∃ v, s.Retires (.vmacW p t) p t ((s.thr p t).aput (fD w) v).step ∧
      ∀ j < 16, accWide v j =
        if bitAt ((s.thr p t).mget (fM w)) j then accWide ((s.thr p t).aget (fD w)) j
          + (laneA w (s.thr p t) 32 j).signExtend 80 * (laneB w (s.thr p t) 32 j).signExtend 80
        else accWide ((s.thr p t).aget (fD w)) j)

/-- *Compare and mask functions* and *Reduction functions* (R253, R255): a compare writes m_D, with 0 for a disabled lane; mask logic
writes m_D; a reduction gives s_D the sum or the best of the enabled lanes, or the identity; MGET and MCOUNT read a mask; nothing
else changes. -/
def Obligations.SwarmComparesAndReductions : Prop :=
  (∀ r ∈ cmpRows, ∀ (p t : Nat) (w : Word) (s : State), s.Ready p t w r.op →
    ∃ v : Word, s.Retires (r.cmd p t) p t ((s.thr p t).mput (fD w) v).step ∧
      ∀ i < 32, v.getLsbD i = (enabledLane w (s.thr p t) (typeBits w) i &&
        if fType w = 2 then r.fp (f32 (laneA w (s.thr p t) 32 i)) (f32 (laneB w (s.thr p t) 32 i))
        else r.int _ (laneA w (s.thr p t) (typeBits w) i) (laneB w (s.thr p t) (typeBits w) i))) ∧
  (∀ r ∈ maskRows, ∀ (p t : Nat) (w : Word) (s : State), s.Ready p t w r.op →
    s.Retires (r.cmd p t) p t
      ((s.thr p t).mput (fD w) (r.val ((s.thr p t).mget (fA w)) ((s.thr p t).mget (fB w)) ((s.thr p t).sget (fA w)))).step) ∧
  (∀ r ∈ bestRows, ∀ (p t : Nat) (w : Word) (s : State), s.Ready p t w r.op →
    ∃ v : Word, s.Retires (r.cmd p t) p t ((s.thr p t).sput (fD w) v).step ∧
      ((∀ i, enabledLane w (s.thr p t) (typeBits w) i = false) → v = r.ident (typeBits w)) ∧
      (∀ i, enabledLane w (s.thr p t) (typeBits w) i = true → ∃ j, enabledLane w (s.thr p t) (typeBits w) j = true ∧
        v = r.ext _ (laneA w (s.thr p t) (typeBits w) j) ∧
        r.before _ (laneA w (s.thr p t) (typeBits w) i) (laneA w (s.thr p t) (typeBits w) j) = false)) ∧
  (∀ (p t : Nat) (w : Word) (s : State), s.Ready p t w .vrsum → fType w ≠ 2 →
    s.Retires (.vrsum p t) p t ((s.thr p t).sput (fD w) (BitVec.ofInt 32 (((List.range (512 / typeBits w)).map fun i =>
      if enabledLane w (s.thr p t) (typeBits w) i then (laneA w (s.thr p t) (typeBits w) i).toInt else 0).sum))).step) ∧
  (∀ (p t : Nat) (w : Word) (s : State), s.Ready p t w .vrsum → fType w = 2 →
    s.Retires (.vrsum p t) p t ((s.thr p t).sput (fD w) ((treeSum w (s.thr p t) 4 0).getD 0)).step) ∧
  (∀ (p t : Nat) (w : Word) (s : State), s.Ready p t w .mget →
    s.Retires (.mget p t) p t ((s.thr p t).sput (fD w) ((s.thr p t).mget (fA w))).step) ∧
  (∀ (p t : Nat) (w : Word) (s : State), s.Ready p t w .mcount →
    s.Retires (.mcount p t) p t ((s.thr p t).sput (fD w) (BitVec.ofNat 32 (setBits ((s.thr p t).mget (fA w))))).step)

/-- The words of *Major opcodes* and the function tables decode to their instructions and no other word decodes (R256, R257): a word
with a nonzero unused field, an unlisted opcode, FUNC or type has no meaning. -/
def Obligations.SwarmWordsDecode : Prop := ∀ (w : Word) (op : SwOp), swDecode w = some op ↔ op.fits w = true

/-- R274: what traps, with its cause and value, and what the trap does to the thread: misaligned and unmapped accesses, poisoned and
uncorrectable memory, words without a meaning, calls in the wrong state, a third loop and a breakpoint. -/
def Obligations.SwarmTrapEntry : Prop :=
  (∀ r ∈ loadRows, ∀ (p t : Nat) (w : Word) (s : State) (a : Nat), s.Ready p t w r.op →
    a = ((s.thr p t).sget (fA w) + immS w).toNat →
    (∀ e, a % r.bytes ≠ 0 → s.Answers (r.cmd p t e) fun u => s.Traps u p t 0x02 (wd a)) ∧
    (∀ e, a % r.bytes = 0 → (0x20000 < a + r.bytes ∧ a < 0x200000 ∨ 0x400000 < a + r.bytes ∨ 0x20000 < a + r.bytes ∧ s.homeOf p = none) →
      s.Answers (r.cmd p t e) fun u => s.Traps u p t 0x03 (wd a)) ∧
    (∀ e, a % r.bytes = 0 → a + r.bytes ≤ 0x20000 → s.dpoisoned p a r.bytes = true →
      s.Answers (r.cmd p t e) fun u => s.Traps u p t 0x05 (wd a)) ∧
    (a % r.bytes = 0 → a + r.bytes ≤ 0x20000 → s.dpoisoned p a r.bytes = false →
      s.Answers (r.cmd p t .uncorrectable) fun u => s.Traps u p t 0x04 (wd a) ∧ u.bit (pENG p) Off.hdr_PG_FAULT 10 = true ∧
        u.fld (pENG p) Off.eng_POISON_LOCAL 0 2 = min 3 (s.fld (pENG p) Off.eng_POISON_LOCAL 0 2 + 1))) ∧
  (∀ r ∈ storeRows, ∀ (p t : Nat) (w : Word) (s : State) (a : Nat), s.Ready p t w r.op →
    a = ((s.thr p t).sget (fA w) + immS w).toNat →
    (a % r.bytes ≠ 0 → s.Answers (r.cmd p t) fun u => s.Traps u p t 0x02 (wd a)) ∧
    (a % r.bytes = 0 → (0x20000 < a + r.bytes ∧ a < 0x200000 ∨ 0x400000 < a + r.bytes ∨ 0x20000 < a + r.bytes ∧ s.homeOf p = none) →
      s.Answers (r.cmd p t) fun u => s.Traps u p t 0x03 (wd a))) ∧
  (∀ (p t : Nat) (s : State) (w : Word), s.canIssue p t = true →
    ((s.thr p t).pc ≤ 0x7FFC → s.fetch p (s.thr p t).pc = w → swDecode w = none →
      s.Answers (.illegalInstruction p t .clean) fun u => s.Traps u p t 0x01 w) ∧
    (∀ e, 0x7FFC < (s.thr p t).pc →
      s.Answers (.illegalInstruction p t e) fun u => s.Traps u p t 0x03 (wd (s.thr p t).pc)) ∧
    ((s.thr p t).pc ≤ 0x7FFC →
      s.Answers (.illegalInstruction p t .uncorrectable) fun u => s.Traps u p t 0x07 (wd (s.thr p t).pc) ∧
        u.bit (pENG p) Off.hdr_PG_FAULT 12 = true)) ∧
  (∀ (p t : Nat) (w : Word) (s : State), s.Ready p t w .eret → (s.thr p t).inTrap = false →
    s.Answers (.eret p t) fun u => s.Traps u p t 0x08 w) ∧
  (∀ (p t : Nat) (w : Word) (s : State), s.Ready p t w .exit → (s.thr p t).wi.isSome = true →
    s.Answers (.exit p t) fun u => s.Traps u p t 0x08 w) ∧
  (∀ (p t : Nat) (w : Word) (s : State), (s.thr p t).wi.isSome = true →
    (s.Ready p t w .qtake → s.Answers (.qtake p t) fun u => s.Traps u p t 0x08 w) ∧
    (s.Ready p t w .qtry → s.Answers (.qtry p t) fun u => s.Traps u p t 0x08 w)) ∧
  (∀ (p t : Nat) (w : Word) (s : State), (s.thr p t).wi = none →
    (s.Ready p t w .qdone → s.Answers (.qdone p t) fun u => s.Traps u p t 0x08 w) ∧
    (s.Ready p t w .qrel → s.Answers (.qrel p t) fun u => s.Traps u p t 0x08 w)) ∧
  (∀ (p t : Nat) (w : Word) (s : State), s.Ready p t w .loop → 2 ≤ (s.thr p t).depth →
    s.Answers (.loop p t) fun u => s.Traps u p t 0x09 (wd (s.thr p t).pc)) ∧
  (∀ (p t : Nat) (w : Word) (s : State), s.Ready p t w .csrr → 0x13 < csrNum w →
    s.Answers (.csrr p t) fun u => s.Traps u p t 0x01 w) ∧
  (∀ (p t : Nat) (w : Word) (s : State), s.Ready p t w .csrw → csrNum w ∉ [0x03, 0x04, 0x05, 0x0F, 0x10, 0x11, 0x12, 0x13] →
    s.Answers (.csrw p t) fun u => s.Traps u p t 0x01 w) ∧
  (∀ (p t : Nat) (w : Word) (s : State), s.canIssue p t = true → (s.thr p t).pc ≤ 0x7FFC → s.fetch p (s.thr p t).pc = w →
    swDecode w = some .nop → (s.thr p t).breakpc ≠ 0 → (s.thr p t).breakpc.toNat = (s.thr p t).pc →
    s.Answers (.nop p t) fun u => s.Traps u p t 0x21 (wd (s.thr p t).pc))

/-- *Queue functions*, R260 to R262, R264: a take of an item gives v_D, the status and the hold; an empty queue makes QTAKE wait and
QTRY answer 1; a push lands its 32 bytes, waits or answers 1 when the queue is full; QDONE and QREL end the hold, QREL for a reissue
with the next epoch; QLEVEL reads the level. -/
def Obligations.SwarmQueueInstructions : Prop :=
  (∀ r : (Nat → Nat → Instr) × SwOp, r ∈ ([(.qtake, .qtake), (.qtry, .qtry)] : List _) →
    ∀ (p t : Nat) (w : Word) (s : State) (slot q : Nat), s.Ready p t w r.2 → (s.thr p t).wi = none → (s.thr p t).park = false →
    s.alive (pQM 0) = true → s.holdSlot p t = some slot → q = ((s.thr p t).sget (fA w)).toNat → s.engineQueue q = true →
    (s.takersOf q).length < s.itemsReady q →
    s.Answers (r.1 p t) fun u => ∃ i : WorkItem, (u.thr p t).wi = some i ∧ i.queue = q ∧ i.cls = (s.qView q).cls ∧
      (u.thr p t).st = 1 ∧ (u.thr p t).sget (fB w) = 0 ∧
      (u.thr p t).vget (fD w) = fit (α := Word) 16 0 (fit (α := Word) 8 0 (match s.qReissue q with | some x => x.desc | none => s.qHead q) ++
        [wd i.handle, wd i.epoch, wd (q + i.cls * 2 ^ 20)]) ∧
      (u.hold slot).held = true ∧ (u.hold slot).handle = i.handle ∧ (u.hold slot).epoch = i.epoch) ∧
  (∀ (p t : Nat) (w : Word) (s : State) (slot q : Nat), (s.thr p t).wi = none → (s.thr p t).park = false →
    s.alive (pQM 0) = true → s.holdSlot p t = some slot → q = ((s.thr p t).sget (fA w)).toNat → s.engineQueue q = true →
    s.itemsReady q = 0 →
    (s.Ready p t w .qtake → s.Answers (.qtake p t) fun u =>
      (u.thr p t).st = 2 ∧ (u.thr p t).wait = some (.take q (fD w) (fB w)) ∧ u.qm.takers = s.qm.takers ++ [⟨pENG p, t, q⟩] ∧
      u.mem = s.mem ∧ u.regs = s.regs) ∧
    (s.Ready p t w .qtry → s.Retires (.qtry p t) p t ((s.thr p t).sput (fB w) 1).step)) ∧
  (∀ r : (Nat → Nat → Instr) × SwOp, r ∈ ([(.qtake, .qtake), (.qtry, .qtry)] : List _) →
    ∀ (p t : Nat) (w : Word) (s : State), s.Ready p t w r.2 → (s.thr p t).wi = none →
    ((s.thr p t).park = true → s.Answers (r.1 p t) fun u => (u.thr p t).st = 0 ∧ (u.thr p t).wi = none ∧ u.mem = s.mem) ∧
    ((s.thr p t).park = false → s.alive (pQM 0) = true → s.engineQueue ((s.thr p t).sget (fA w)).toNat = false →
      s.Retires (r.1 p t) p t ((s.thr p t).sput (fB w) 2).step)) ∧
  (∀ r : (Nat → Nat → Instr) × SwOp, r ∈ ([(.qpush, .qpush), (.qpushnb, .qpushnb)] : List _) →
    ∀ (p t : Nat) (w : Word) (s : State) (q : Nat), s.Ready p t w r.2 → s.alive (pQM 0) = true →
    q = ((s.thr p t).sget (fA w)).toNat → (∀ i, (s.thr p t).wi = some i → s.holdMatches i.handle i.epoch = true) →
    (s.engineQueue q = true → (s.qView q).full = false → s.qm.cache.length < 16384 → s.Answers (r.1 p t) fun u =>
      u.ThreadIs p t ((s.thr p t).sput (fD w) 0).step ∧
      u.peek ((s.qView q).ring + 32 * (s.qView q).tail) 32 = wordsBytes (((s.thr p t).vget (fB w)).take 8) ∧
      (∀ a, a < (s.qView q).ring + 32 * (s.qView q).tail ∨ (s.qView q).ring + 32 * (s.qView q).tail + 32 ≤ a →
        u.byteAt a = s.byteAt a) ∧
      (u.qView q).tail = ((s.qView q).tail + 1) % (s.qView q).size ∧ (u.qView q).head = (s.qView q).head) ∧
    (s.engineQueue q = false → s.Answers (r.1 p t) fun u => u.ThreadIs p t ((s.thr p t).sput (fD w) 2).step ∧ u.mem = s.mem)) ∧
  (∀ (p t : Nat) (w : Word) (s : State) (q : Nat), s.alive (pQM 0) = true → q = ((s.thr p t).sget (fA w)).toNat →
    (∀ i, (s.thr p t).wi = some i → s.holdMatches i.handle i.epoch = true) → s.engineQueue q = true → (s.qView q).full = true →
    (s.Ready p t w .qpush → s.Answers (.qpush p t) fun u =>
      (u.thr p t).st = 2 ∧ (u.thr p t).wait = some (.push q (fD w) (((s.thr p t).vget (fB w)).take 8)) ∧ u.mem = s.mem) ∧
    (s.Ready p t w .qpushnb → s.Retires (.qpushnb p t) p t ((s.thr p t).sput (fD w) 1).step)) ∧
  (∀ (p t : Nat) (w : Word) (s : State) (i : WorkItem), s.alive (pQM 0) = true → (s.thr p t).wi = some i →
    s.holdMatches i.handle i.epoch = true →
    (s.Ready p t w .qdone → s.Answers (.qdone p t) fun u =>
      u.ThreadIs p t ({ (s.thr p t).sput (fD w) 0 with wi := none }.step) ∧ (u.hold (i.handle % 1024)).held = false ∧
      u.mem = s.mem ∧ u.regs = s.regs) ∧
    (s.Ready p t w .qrel → s.Answers (.qrel p t) fun u =>
      u.ThreadIs p t ({ (s.thr p t).sput (fD w) 0 with wi := none }.step) ∧ (u.hold (i.handle % 1024)).held = false ∧
      ((s.hold (i.handle % 1024)).reissues < s.fld (pQM 0) Off.qm0_REISSUE 0 4 → (s.qView (s.hold (i.handle % 1024)).queue).en = true →
        ∃ x ∈ u.qm.reissue, x.queue = (s.hold (i.handle % 1024)).queue ∧ x.desc = (s.hold (i.handle % 1024)).desc ∧
          x.epoch = (i.epoch + 1) % 65536 ∧ x.visible = true))) ∧
  (∀ (p t : Nat) (w : Word) (s : State) (i : WorkItem), s.alive (pQM 0) = true → (s.thr p t).wi = some i →
    s.holdMatches i.handle i.epoch = false →
    (s.Ready p t w .qdone → s.Answers (.qdone p t) fun u => u.ThreadIs p t ({ (s.thr p t).sput (fD w) 3 with wi := none }.step)) ∧
    (s.Ready p t w .qrel → s.Answers (.qrel p t) fun u => u.ThreadIs p t ({ (s.thr p t).sput (fD w) 3 with wi := none }.step)) ∧
    (s.Ready p t w .qpush → s.Answers (.qpush p t) fun u => (u.thr p t).wi = none ∧ (u.thr p t).sget (fD w) = (if fD w = 0 then 0 else 3))) ∧
  (∀ (p t : Nat) (w : Word) (s : State), s.Ready p t w .qlevel → s.qValid ((s.thr p t).sget (fA w)).toNat = true →
    s.Retires (.qlevel p t) p t ((s.thr p t).sput (fD w) (wd (s.qView ((s.thr p t).sget (fA w)).toNat).level)).step)

/-- *DMA functions* and *Synchronisation functions*, R267, R272, R273: a submitted descriptor gets the next ticket or waits for room; DMAW
waits for every descriptor up to its ticket; DMAT answers at once; DMARST empties the channel; a barrier holds its threads until the last arrival, which
releases them with status 0; events are signalled, awaited and tested. -/
def Obligations.SwarmDmaAndSync : Prop :=
  (∀ (p t : Nat) (w : Word) (s : State) (a : Nat), s.Ready p t w .dmaq → a = ((s.thr p t).sget (fA w)).toNat → a % 32 = 0 →
    a + 32 ≤ 0x20000 → (s.thr p t).dmaHalted = false → (s.pageRt (pENG p)).inject = 0 →
    ((s.thr p t).dmaQ.length < 8 → s.Answers (.dmaq p t .clean) fun u =>
      (∃ k, (u.thr p t).dmaQ = (s.thr p t).dmaQ ++
        [{ ticket := (s.thr p t).dmaNext, desc := bytesWords 8 (s.dpeek p a 32), bad := s.dpoisoned p a 32, cls := k }]) ∧
      (u.thr p t).sget (fD w) = (if fD w = 0 then 0 else wd (s.thr p t).dmaNext) ∧
      (u.thr p t).dmaNext = (if (s.thr p t).dmaNext = 65535 then 1 else (s.thr p t).dmaNext + 1) ∧ s.ThreadOnly u p t) ∧
    (8 ≤ (s.thr p t).dmaQ.length → s.Answers (.dmaq p t .clean) fun u =>
      u.thr p t = { s.thr p t with st := 2, wait := some (.dmaq (fD w) (bytesWords 8 (s.dpeek p a 32)) (s.dpoisoned p a 32)) } ∧
      s.ThreadOnly u p t)) ∧
  (∀ (p t : Nat) (w : Word) (s : State) (k : Nat), k = ((s.thr p t).sget (fA w)).toNat →
    (s.Ready p t w .dmaw → (s.thr p t).upTo k = false →
      s.Retires (.dmaw p t) p t ((s.thr p t).sput (fD w) (wd (s.thr p t).dmaStatus)).step) ∧
    (s.Ready p t w .dmaw → (s.thr p t).upTo k = true → s.Answers (.dmaw p t) fun u =>
      u.thr p t = { s.thr p t with st := 2, wait := some (.dmaw (fD w) k) } ∧ s.ThreadOnly u p t) ∧
    (s.Ready p t w .dmat →
      s.Retires (.dmat p t) p t
        ((s.thr p t).sput (fD w) (if (s.thr p t).outstanding k then 1 else wd (s.thr p t).dmaStatus)).step)) ∧
  (∀ (p t : Nat) (w : Word) (s : State), s.Ready p t w .dmarst → s.Answers (.dmarst p t) fun u =>
    (u.thr p t).dmaQ = [] ∧ (u.thr p t).dmaHalted = false ∧ (u.thr p t).dmaStatus = 0 ∧ (u.thr p t).dmaNext = 1) ∧
  (∀ (p t : Nat) (w : Word) (s : State) (k : Nat), s.Ready p t w .bar → s.homeOf p = some k → s.alive (pCLUS k) = true →
    (s.fld (pCLUS k) (Off.clus_BAR_CFG0 + 4 * fB w) 0 6 ≤ s.fld (pCLUS k) (Off.clus_BAR_STAT0 + 4 * fB w) 0 6 + 1 →
      s.Answers (.bar p t) fun u => (u.thr p t).st = 1 ∧ (u.thr p t).sget (fD w) = 0 ∧
        u.fld (pCLUS k) (Off.clus_BAR_STAT0 + 4 * fB w) 0 6 = 0 ∧
        ∀ e ∈ s.barWaiters k (fB w), ¬ (e.1 = p ∧ e.2.1 = t) → (u.thr e.1 e.2.1).st = 1 ∧ (u.thr e.1 e.2.1).wait = none) ∧
    (s.fld (pCLUS k) (Off.clus_BAR_STAT0 + 4 * fB w) 0 6 + 1 < s.fld (pCLUS k) (Off.clus_BAR_CFG0 + 4 * fB w) 0 6 →
      s.Answers (.bar p t) fun u => u.thr p t = { s.thr p t with st := 2, wait := some (.bar (fB w) (fD w)) } ∧
        u.fld (pCLUS k) (Off.clus_BAR_STAT0 + 4 * fB w) 0 6 = s.fld (pCLUS k) (Off.clus_BAR_STAT0 + 4 * fB w) 0 6 + 1)) ∧
  (∀ (p t : Nat) (w : Word) (s : State), s.Ready p t w .sigev → s.Answers (.sigev p t) fun u =>
    u.ThreadIs p t (s.thr p t).step ∧
    (∀ v, v = s.evReg (pENG p) (Off.hdr_PG_EVT_OUT0 + 4 * fB w) → bitAt v 8 = true →
      (u.chan (wfld v 0 8)).pend = insertTick (s.chan (wfld v 0 8)).pend s.now) ∧ u.mem = s.mem ∧ u.regs = s.regs) ∧
  (∀ (p t : Nat) (w : Word) (s : State), s.Ready p t w .waitev →
    (s.inBusy (pENG p) (fB w) = true → s.Answers (.waitev p t) fun u =>
      u.ThreadIs p t (s.thr p t).step ∧ u.inBusy (pENG p) (fB w) = false) ∧
    (s.inBusy (pENG p) (fB w) = false → s.Answers (.waitev p t) fun u =>
      u.thr p t = { s.thr p t with st := 2, wait := some (.event (fB w)) } ∧ s.ThreadOnly u p t)) ∧
  (∀ (p t : Nat) (w : Word) (s : State), s.Ready p t w .testev → s.Answers (.testev p t) fun u =>
    u.ThreadIs p t ((s.thr p t).sput (fD w) (oneIf (s.inBusy (pENG p) (fB w)))).step ∧ u.inBusy (pENG p) (fB w) = false)

/-- R265, R273, R275, R278, R280, R281: the thread commands, the watchdog and the item limit, engine events, the end of a DMA
descriptor and of a wait, program loading and the engine BIST. -/
def Obligations.SwarmEngineCommands : Prop :=
  (∀ (m : Master) (p t : Nat) (s : State), s.Open m (pENG p) → t = s.fld (pENG p) Off.eng_THR_SEL 0 2 →
    ((s.thr p t).st = 0 → t < s.engThreads p → (s.eng p).valid = true → s.Answers (.thrStart m p) fun u =>
      u.thr p t = { st := 1, pc := (s.reg (pENG p) (Off.eng_ENTRY0 + 4 * t)).toNat, dmaQ := (s.thr p t).dmaQ,
                    dmaHalted := (s.thr p t).dmaHalted, dmaStatus := (s.thr p t).dmaStatus, dmaNext := (s.thr p t).dmaNext } ∧
      u.mem = s.mem ∧ u.regs = s.regs) ∧
    ((s.thr p t).st ≠ 0 ∨ s.engThreads p ≤ t ∨ (s.eng p).valid = false → s.Answers (.thrStart m p) fun u =>
      u.thr p t = s.thr p t ∧ u.bit (pENG p) Off.hdr_PG_FAULT 0 = true) ∧
    (s.Answers (.park m p) fun u =>
      ((s.thr p t).st = 0 → u.thr p t = s.thr p t) ∧
      ((s.thr p t).st = 1 ∨ (s.thr p t).st = 3 → u.thr p t = { s.thr p t with park := true }) ∧
      (∀ q d b, (s.thr p t).st = 2 → (s.thr p t).wait = some (.take q d b) → (u.thr p t).st = 0)) ∧
    (s.Answers (.thrReset m p) fun u => (u.thr p t).st = 0 ∧ (u.thr p t).wi = none ∧ (u.thr p t).dmaQ = [] ∧ (u.thr p t).wait = none)) ∧
  (∀ (p t : Nat) (s : State) (i : WorkItem), (s.thr p t).wi = some i → s.fld (pENG p) Off.eng_WD_CFG 0 16 ≠ 0 → i.timedOut = false →
    i.since + s.fld (pENG p) Off.eng_WD_CFG 0 16 * 250 < s.now → (s.thr p t).st = 1 ∨ (s.thr p t).st = 2 → s.engRuns p = true → t < 4 →
    s.Answers (.itemTimeout p t) fun u => s.Traps u p t 0x0A (wd i.handle) ∧ (u.thr p t).wi = some { i with timedOut := true } ∧
      u.bit (pENG p) Off.hdr_PG_FAULT 14 = true) ∧
  (∀ (p : Nat) (s : State), s.engRuns p = true → s.anyRun p = true → (s.eng p).lastRetire + 81920 ≤ s.engTime p →
    s.Answers (.watchdog p) fun u => u.bit (pENG p) Off.hdr_PG_FAULT 9 = true ∧ u.mem = s.mem) ∧
  (∀ (p k : Nat) (s : State) (c : Nat), p < 272 → k < 4 → s.bit (pENG p) (Off.hdr_PG_EVT_IN0 + 4 * k) 8 = true →
    c = s.fld (pENG p) (Off.hdr_PG_EVT_IN0 + 4 * k) 0 8 → s.alive (pENG p) = true → s.inBusy (pENG p) k = false →
    s.Answers (.engineEventIn p k) fun u => u.inBusy (pENG p) k = true) ∧
  (∀ (p t i : Nat) (e : ReadErr) (s : State) (r : DmaReq) (rest : List DmaReq), (s.thr p t).dmaQ = r :: rest → s.engRuns p = true → t < 4 →
    (r.bad = false → s.dmaValid p (dmaDesc r.desc) = true → s.Answers (.dmaDescComplete p t false e i) fun u =>
      (u.thr p t).dmaQ = rest ∧ (u.thr p t).dmaStatus = (s.thr p t).dmaStatus) ∧
    (r.bad = true → ∀ b, s.Answers (.dmaDescComplete p t b e i) fun u =>
      (u.thr p t).dmaQ = [] ∧ (u.thr p t).dmaHalted = true ∧ (u.thr p t).dmaStatus = 4 ∧ u.bit (pENG p) Off.hdr_PG_FAULT 13 = true) ∧
    (r.bad = false → s.dmaValid p (dmaDesc r.desc) = false → ∀ b, s.Answers (.dmaDescComplete p t b e i) fun u =>
      (u.thr p t).dmaQ = [] ∧ (u.thr p t).dmaHalted = true ∧ (u.thr p t).dmaStatus = 2 ∧ u.bit (pENG p) Off.hdr_PG_FAULT 13 = true)) ∧
  (∀ (p t : Nat) (s : State) (d k : Nat), t < 4 → s.engRuns p = true → (s.thr p t).st = 2 →
    ((s.thr p t).wait = some (.dmaw d k) → (s.thr p t).upTo k = false → s.Answers (.threadWaitEnd p t) fun u =>
      (u.thr p t).st = 1 ∧ (u.thr p t).wait = none ∧ (u.thr p t).sget d = (if d = 0 then 0 else wd (s.thr p t).dmaStatus)) ∧
    ((s.thr p t).wait = some (.event k) → s.inBusy (pENG p) k = true → s.Answers (.threadWaitEnd p t) fun u =>
      (u.thr p t).st = 1 ∧ (u.thr p t).wait = none ∧ u.inBusy (pENG p) k = false)) ∧
  (∀ (m : Master) (k : Nat) (v : Word) (s : State), s.Open m (pCLUS k) → bitAt v 8 = true →
    (s.bit (pCLUS k) Off.clus_LOAD_STAT 0 = false → s.Answers (.loadCtrlGo m k v) fun u =>
      (∃ acc, Map.get (fun _ => none) u.swarm.load k = some (acc, s.loadSrc k)) ∧ u.bit (pCLUS k) Off.clus_LOAD_STAT 0 = true) ∧
    (s.bit (pCLUS k) Off.clus_LOAD_STAT 0 = true → s.Answers (.loadCtrlGo m k v) fun u =>
      u.swarm = s.swarm ∧ u.bit (pCLUS k) Off.hdr_PG_FAULT 0 = true)) ∧
  (∀ (k : Nat) (s : State) (acc src : Nat), k < 34 → Map.get (fun _ => none) s.swarm.load k = some (acc, src) → s.alive (pCLUS k) = true →
    s.Answers (.programLoadDone k) fun u =>
      Map.get (fun _ => none) u.swarm.load k = none ∧ u.bit (pCLUS k) Off.clus_LOAD_STAT 0 = false) ∧
  (∀ (m : Master) (k : Nat) (v : Word) (s : State), s.Open m (pCLUS k) → bitAt v 8 = true → k < 34 →
    (s.logOf (8 * k + wfld v 0 3) = none → (s.health (8 * k + wfld v 0 3)).retired = false →
      s.bit (pCLUS k) Off.clus_BIST_STAT 0 = false → s.Answers (.bistCmd m k v) fun u =>
        u.reg (pENG (8 * k + wfld v 0 3)) Off.eng_BIST_STAT = 3 ∧ u.bit (pCLUS k) Off.clus_BIST_STAT 0 = true ∧
        u.fld (pCLUS k) Off.clus_BIST_STAT 8 8 = wfld v 0 3) ∧
    ((s.logOf (8 * k + wfld v 0 3)).isSome = true → s.Answers (.bistCmd m k v) fun u =>
      u.bit (pCLUS k) Off.hdr_PG_FAULT 0 = true ∧ u.reg (pENG (8 * k + wfld v 0 3)) Off.eng_BIST_STAT =
        s.reg (pENG (8 * k + wfld v 0 3)) Off.eng_BIST_STAT))

/-! ## Fabric, lanes, timebase, rulers and cues -/

/-- R24 to R27, R46, R214, R252: of the waiting requests of an arbitration point the one that stands first in the order of R26 is granted;
at a controller, after 15 grants that passed a waiting class 3 over, the oldest waiting class 3 request is granted (which grant of sixteen
it is, is the model's choice, notes/assumptions/21.md); a request arrives with the class of what issues it, and a request of a fenced
master gets no grant. -/
def Obligations.FabricGrantOrder : Prop :=
  (∀ (n : Nat) (s : State) (r : FabReq), r ∈ (s.arb n).wait → (∀ x ∈ (s.arb n).wait, s.fenced x.page = false) →
    16 ≤ n ∨ (s.arb n).sinceBulk < 15 ∨ (∀ x ∈ (s.arb n).wait, x.cls ≠ 3) →
    (∀ x ∈ (s.arb n).wait, x ≠ r → s.fabGroup r < s.fabGroup x ∨ s.fabGroup r = s.fabGroup x ∧ r.age < x.age) →
    s.Answers (.fabricTransaction n []) fun u => (u.arb n).last = some r ∧ r ∉ (u.arb n).wait ∧ (n < 16 → (s.now, r) ∈ (u.arb n).accepted)) ∧
  (∀ (s : State) (r : FabReq), (s.fabGroup r = 1 ↔ r.cls = 0 ∧ s.resWithin r = true) ∧ (s.fabGroup r = 2 ↔ r.cls = 1 ∧ s.resWithin r = true) ∧
    (s.fabGroup r = 4 ↔ r.cls = 3)) ∧
  (∀ (n : Nat) (s : State) (r : FabReq), n < 16 → r ∈ (s.arb n).wait → r.cls = 3 → (∀ x ∈ (s.arb n).wait, s.fenced x.page = false) →
    15 ≤ (s.arb n).sinceBulk → (∀ x ∈ (s.arb n).wait, x.cls = 3 → x ≠ r → r.age < x.age) →
    s.Answers (.fabricTransaction n []) fun u => (u.arb n).last = some r ∧ (u.arb n).sinceBulk = 0) ∧
  (∀ (n ctl bytes : Nat) (x : Traffic) (s : State), (s.arb n).wait = [] →
    (s.fenced (trafficPage x) = false → s.Answers (.fabricTransaction n [(x, ctl, bytes)]) fun u =>
      ∃ a, (u.arb n).last = some ⟨s.trafficClass x, trafficPage x, ctl, bytes, a⟩) ∧
    (s.fenced (trafficPage x) = true → s.Answers (.fabricTransaction n [(x, ctl, bytes)]) fun u =>
      (u.arb n).last = (s.arb n).last ∧ (u.arb n).wait = [])) ∧
  (∀ (s : State) (p t : Nat), (∀ i, (s.thr p t).wi = some i → s.trafficClass (.engine p t) = i.cls) ∧
    ((s.thr p t).wi = none → s.trafficClass (.engine p t) = 3) ∧ s.trafficClass (.engineLoad p) = 3 ∧ s.trafficClass (.scrub t) = 3) ∧
  (∀ (s : State) (n c : Nat), cfgSafety (s.pctx (ctxKey n c)).cfg = true → s.trafficClass (.branch n c) = 0)

/-- R28, R44: a reservation write within 15.4 GB/s takes effect and one beyond it is discarded with QOS_OVERCOMMIT; a lane assignment
that its position allows is stored on an unassigned lane of an idle page, and the ones that R44 names are discarded with CFG_INVALID. -/
def Obligations.ReservationsAndLanes : Prop :=
  (∀ (m : Master) (n : Nat) (v : Word) (s : State), s.Open m pDRAMCOM → n < 16 →
    (wfld v 0 8 + wfld v 8 8 ≤ 154 → s.Answers (.resWrite m n v) fun u =>
      u.reg pDRAMCOM (Off.dramcom_RES_n + 4 * n) = wd (wfld v 0 16) ∧ s.KeepsRegs u pDRAMCOM [Off.dramcom_RES_n + 4 * n]) ∧
    (154 < wfld v 0 8 + wfld v 8 8 → s.Answers (.resWrite m n v) fun u => u.Faulted pDRAMCOM 8 ∧ s.KeepsRegs u pDRAMCOM [])) ∧
  (∀ (m : Master) (n : Nat) (v : Word) (s : State), s.Open m (pSWIFT n) → n < 192 → s.laneRunning n = false →
    (s.fld (pSWIFT n) Off.swift_LANE_CFG 0 3 = 0 → wfld v 16 4 ≤ 13 → bitAt v 20 = false →
      wfld v 0 3 = 0 ∨ (wfld v 0 3 = 1 ∧ wfld v 8 8 < 16 ∧ ∀ l < 192, l ≠ n →
        ¬ (s.fld (pSWIFT l) Off.swift_LANE_CFG 0 3 = 1 ∧ s.fld (pSWIFT l) Off.swift_LANE_CFG 8 8 = wfld v 8 8)) →
      s.Answers (.laneCfgWrite m n v) fun u =>
        u.fld (pSWIFT n) Off.swift_LANE_CFG 0 3 = wfld v 0 3 ∧ u.fld (pSWIFT n) Off.swift_LANE_CFG 8 8 = wfld v 8 8 ∧
        u.fld (pSWIFT n) Off.swift_LANE_CFG 16 4 = wfld v 16 4 ∧ s.KeepsRegs u (pSWIFT n) [Off.swift_LANE_CFG]) ∧
    (4 ≤ wfld v 0 3 ∨ (bitAt v 20 = true ∧ wfld v 0 3 ≠ 3) ∨ (wfld v 0 3 = 2 ∧ 66 ≤ n) ∨ (wfld v 0 3 = 2 ∧ 16 ≤ n ∧ 4 ≤ n % 6) →
      s.Answers (.laneCfgWrite m n v) fun u => u.Faulted (pSWIFT n) 8 ∧ s.KeepsRegs u (pSWIFT n) []))

/-- R52: a read of the low word of a ruler latches the ruler's remaining words, and a read of a latched word shows what was latched. -/
def Obligations.RulerLowWordLatches : Prop :=
  ∀ r ∈ rulerWords, ∀ (m : Master) (s : State), s.Shows m r.1 →
    (Map.get (fun _ => none) s.latch (rg r.1 r.2.1) = none →
      s.Answers (.rulerLowRead m (regAddr r.1 r.2.1) 4) fun u =>
        u.resp.value = s.liveReg r.1 r.2.1 ∧ (∀ o ∈ r.2.2, Map.get (fun _ => none) u.latch (rg r.1 o) = some (s.liveReg r.1 o)) ∧
        u.regs = s.regs ∧ u.tb = s.tb) ∧
    (∀ o ∈ r.2.2, ∀ w, Map.get (fun _ => none) s.latch (rg r.1 o) = some w →
      s.Answers (.rulerLowRead m (regAddr r.1 o) 4) fun u => u.resp.value = w ∧ u.latch = s.latch ∧ u.regs = s.regs)

/-- R51, R53, R55, R57, R58: a tick moves the clock on by one, and without a frequency correction TIME by 4 ns; a snapshot holds every ruler; TIME_SET_GO loads TIME while the servo is off, as a step of it, and is refused
while it is on; a change of SERVO_EN moves the servo between its states DISABLED and HOLDOVER, or, where a grandmaster is
selected, ACQUIRING. -/
def Obligations.TimebaseCommands : Prop :=
  (∀ s : State, s.reg pTIMEBASE Off.timebase_RATE_ADJ = 0 → s.tb.timeRem < 1000000 →
    s.Answers .timebaseTick fun u => u.now = s.now + 1 ∧ u.tb.time = s.tb.time + 4 * 65536) ∧
  (∀ (m : Master) (v : Word) (s : State), s.Open m pTIMEBASE → bitAt v 0 = true → s.Answers (.snapGo m v) fun u => s.Snapped u) ∧
  (∀ s : State, s.inBusy pTIMEBASE 0 = true → s.Answers .snapshotStrobe fun u => s.Snapped u ∧ u.inBusy pTIMEBASE 0 = false) ∧
  (∀ (m : Master) (v : Word) (s : State) (n : Nat), s.Open m pTIMEBASE → bitAt v 0 = true →
    n = (s.reg64 pTIMEBASE Off.timebase_TIME_SET_SEC_LO Off.timebase_TIME_SET_SEC_HI * 1000000000 +
      (s.reg pTIMEBASE Off.timebase_TIME_SET_NS).toNat) * 65536 →
    (s.bit pTIMEBASE Off.timebase_TIME_CTRL 0 = false → s.Answers (.timeSetGo m v) fun u =>
      u.tb.time = n ∧ u.bit pTIMEBASE Off.timebase_TIME_STAT 0 = true ∧ (s.tb.time < n → u.Faulted pTIMEBASE 8) ∧
      (n < s.tb.time → u.Faulted pTIMEBASE 9)) ∧
    (s.bit pTIMEBASE Off.timebase_TIME_CTRL 0 = true → s.Answers (.timeSetGo m v) fun u =>
      u.Faulted pTIMEBASE 0 ∧ u.tb = s.tb ∧ s.KeepsRegs u pTIMEBASE [])) ∧
  (∀ (m : Master) (v : Word) (s : State), s.Open m pTIMEBASE → s.Answers (.timeCtrlWrite m v) fun u =>
    u.bit pTIMEBASE Off.timebase_TIME_CTRL 0 = bitAt v 0 ∧
    (s.bit pTIMEBASE Off.timebase_TIME_CTRL 0 = false → bitAt v 0 = true → s.net.ptp.sel = none → u.Faulted pTIMEBASE 10 ∧ u.servo = 1) ∧
    (s.bit pTIMEBASE Off.timebase_TIME_CTRL 0 = false → bitAt v 0 = true → s.net.ptp.sel.isSome = true → u.servo = 2 ∧ u.holdover = false) ∧
    (s.bit pTIMEBASE Off.timebase_TIME_CTRL 0 = true → bitAt v 0 = false → u.servo = 0 ∧ u.holdover = false))

/-- R59, R60, R62 to R65: edges count in the direction of the encoder's mode and move the ruler that follows it by INC, illegal
transitions and wrong index counts are counted as faults, POS_SET loads the position, a ruler without edges becomes STILL, and SLIP or
SLIDE is set and cleared after DWELL of rates that disagree or agree (`v` is `s` with the rates compared). -/
def Obligations.DistRulers : Prop :=
  (∀ (e : Nat) (a b : Bool) (s : State), e < 8 → s.alive pDIST = true → s.bit pDIST (eOff e Off.dist_ENC_CFG) 2 = false →
    (s.encMode e = 1 → a ≠ (s.enc e).a → b = (s.enc e).b → s.Answers (.encoderEdge e a b) fun u =>
      u.reg pDIST (eOff e Off.dist_ENC_COUNT) = s.reg pDIST (eOff e Off.dist_ENC_COUNT) + (if a = b then -1 else 1) ∧
      (∀ d < 4, s.bit pDIST (dOff d Off.dist_CFG) 0 = true → s.distPri d = e → s.bit pDIST (dOff d Off.dist_CFG) 7 = false →
        (u.dist d).pos = signed 80 (unsigned 80 ((s.dist d).pos + (if a = b then -1 else 1) * s.inc d)))) ∧
    (s.encMode e = 1 → a = (s.enc e).a → b ≠ (s.enc e).b → s.Answers (.encoderEdge e a b) fun u =>
      u.reg pDIST (eOff e Off.dist_ENC_COUNT) = s.reg pDIST (eOff e Off.dist_ENC_COUNT) + (if a = b then 1 else -1)) ∧
    (s.encMode e = 1 → a ≠ (s.enc e).a → b ≠ (s.enc e).b → s.Answers (.encoderEdge e a b) fun u =>
      u.reg pDIST (eOff e Off.dist_ENC_COUNT) = s.reg pDIST (eOff e Off.dist_ENC_COUNT) ∧ u.Faulted pDIST 8 ∧
      u.fld pDIST (eOff e Off.dist_ENC_FAULTS) 0 16 = min 65535 (s.fld pDIST (eOff e Off.dist_ENC_FAULTS) 0 16 + 1)) ∧
    (s.encMode e = 2 → a = true → (s.enc e).a = false → s.Answers (.encoderEdge e a b) fun u =>
      u.reg pDIST (eOff e Off.dist_ENC_COUNT) = s.reg pDIST (eOff e Off.dist_ENC_COUNT) + (if b then -1 else 1)) ∧
    (s.encMode e = 3 → a = true → (s.enc e).a = false → s.Answers (.encoderEdge e a b) fun u =>
      u.reg pDIST (eOff e Off.dist_ENC_COUNT) = s.reg pDIST (eOff e Off.dist_ENC_COUNT) +
        (if s.bit pDIST (eOff e Off.dist_ENC_CFG) 4 then -1 else 1)) ∧
    (s.encMode e = 0 → s.Answers (.encoderEdge e a b) fun u => s.KeepsRegs u pDIST [eOff e Off.dist_ENC_STAT])) ∧
  (∀ (e n r : Nat) (s : State), e < 8 → s.alive pDIST = true → (s.enc e).i = false → (s.enc e).sinceIndex = some n → s.encRev e = some r →
    s.Answers (.encoderIndexEdge e true) fun u =>
      (u.enc e).sinceIndex = some 0 ∧ u.bit pDIST (eOff e Off.dist_ENC_STAT) 2 = true ∧
      u.fld pDIST (eOff e Off.dist_ENC_FAULTS) 16 16 = (if s.bit pDIST (eOff e Off.dist_ENC_CFG) 3 ∧ n ≠ r then
        min 65535 (s.fld pDIST (eOff e Off.dist_ENC_FAULTS) 16 16 + 1) else s.fld pDIST (eOff e Off.dist_ENC_FAULTS) 16 16)) ∧
  (∀ (m : Master) (d : Nat) (v : Word) (s : State), s.Open m pDIST → d < 4 → s.Answers (.posSet m d v) fun u =>
    u.Faulted pDIST 13 ∧
    (u.dist d).pos = signed 64 (v.toNat + 2 ^ 32 * (s.reg pDIST (dOff d Off.dist_POS_SET_HI)).toNat) * 65536) ∧
  (∀ (d : Nat) (s : State), d < 4 → s.alive pDIST = true → s.bit pDIST (dOff d Off.dist_CFG) 0 = true →
    (s.dist d).lastEdge + s.fld pDIST (dOff d Off.dist_EST_CFG) 16 16 * 250000 ≤ s.now → s.Answers (.stillTimeout d) fun u =>
      u.reg pDIST (dOff d Off.dist_RATE) = 0 ∧ u.reg pDIST (dOff d Off.dist_ACCEL) = 0 ∧
      u.bit pDIST (dOff d Off.dist_STATUS) 1 = true ∧ (u.dist d).pos = (s.dist d).pos) ∧
  (∀ (d x : Nat) (s v : State), d < 4 → s.alive pDIST = true → s.bit pDIST (dOff d Off.dist_CFG) 7 = true → v = s.distCompare d →
    x + s.fld pDIST (dOff d Off.dist_SLIP_CFG) 16 8 * 250000 ≤ s.now →
    ((v.dist d).disagree = some x → s.fld pDIST (dOff d Off.dist_STATUS) 2 2 = 0 → s.Answers (.slipDwell d) fun u =>
      (s.bit pDIST (dOff d Off.dist_CFG) 10 = false →
        u.fld pDIST (dOff d Off.dist_STATUS) 2 2 = 1 ∧ u.Faulted pDIST 9) ∧
      (s.bit pDIST (dOff d Off.dist_CFG) 10 = true →
        u.fld pDIST (dOff d Off.dist_STATUS) 2 2 = 2 ∧ u.Faulted pDIST 10)) ∧
    ((v.dist d).agree = some x → (v.dist d).disagree = none → s.Answers (.slipDwell d) fun u =>
      u.fld pDIST (dOff d Off.dist_STATUS) 2 2 = 0))

/-- R68, R69, R71: a crossing of the selected input and edge that is too short counts in REJECTS, the first accepted one in NO_INPUT starts ACQUIRE, LOCK_CYCLES good ones
lead to LOCKED, two periods without one to HOLDOVER with LOCK_LOST, and HOLD_S seconds of HOLDOVER to NO_INPUT;
a crossing that no running ruler selects does nothing. -/
def Obligations.PhaseRulers : Prop :=
  (∀ (p i width : Nat) (falling : Bool) (s : State), p < 2 → s.phaseRuns p = true → s.fld pPHASE (phOff p Off.phase_CFG) 1 2 = i →
    s.bit pPHASE (phOff p Off.phase_CFG) 3 = falling →
    ¬ (s.fld pPHASE (phOff (1 - p) Off.phase_CFG) 1 2 = i ∧ s.bit pPHASE (phOff (1 - p) Off.phase_CFG) 3 = falling) →
    (width < s.fld pPHASE (phOff p Off.phase_FILTER) 0 16 → s.Answers (.phaseCrossing i falling width) fun u =>
      u.reg pPHASE (phOff p Off.phase_REJECTS) = wd (min (2 ^ 32 - 1) ((s.reg pPHASE (phOff p Off.phase_REJECTS)).toNat + 1)) ∧
      s.KeepsRegs u pPHASE [phOff p Off.phase_REJECTS]) ∧
    (s.fld pPHASE (phOff p Off.phase_FILTER) 0 16 ≤ width → (s.phase p).lastCross = none → s.phaseState p = 0 ∨ s.phaseState p = 3 →
      s.Answers (.phaseCrossing i falling width) fun u => u.phaseState p = 1 ∧ (u.phase p).lastCross = some s.now ∧
        (u.phase p).val = (s.phase p).val) ∧
    (s.fld pPHASE (phOff p Off.phase_FILTER) 0 16 ≤ width → s.crossingExpected p = true → s.phaseState p = 1 →
      (signed 32 (s.phase p).val).natAbs < s.fld pPHASE (phOff p Off.phase_LOOP_CFG) 16 8 * 2 ^ 20 → s.cycleMissed p = false →
      s.fld pPHASE (phOff p Off.phase_LOOP_CFG) 8 4 ≤ (s.phase p).good + 1 →
      s.Answers (.phaseCrossing i falling width) fun u => u.phaseState p = 2 ∧ (u.phase p).everLocked = true)) ∧
  (∀ (i width : Nat) (falling : Bool) (s : State),
    (∀ p < 2, s.phaseRuns p = true → ¬ (s.fld pPHASE (phOff p Off.phase_CFG) 1 2 = i ∧ s.bit pPHASE (phOff p Off.phase_CFG) 3 = falling)) →
    s.Answers (.phaseCrossing i falling width) fun u => u = s) ∧
  (∀ (p t : Nat) (s : State), p < 2 → s.phaseRuns p = true → s.phaseState p = 2 → (s.phase p).lastCross = some t →
    2 * s.phasePeriod p ≤ (s.now - t) * 4 →
    s.Answers (.phaseCrossingTimeout p) fun u => u.phaseState p = 3 ∧ u.Faulted pPHASE 8 ∧ (u.phase p).holdAt = s.now) ∧
  (∀ (p : Nat) (s : State), p < 2 → s.phaseRuns p = true → s.phaseState p = 3 →
    (s.phase p).holdAt + s.fld pPHASE (phOff p Off.phase_FILTER) 24 8 * 250000000 ≤ s.now →
    s.Answers (.phaseHoldExpiry p) fun u => u.phaseState p = 0 ∧ u.Faulted pPHASE 9 ∧ (u.phase p).everLocked = false)

/-- *Cue commands*, R75, R76, R83: LOAD copies the selected cue to the staging registers, STORE replaces it and arms it, or is rejected with
its reason, or finds its target passed; DISARM and CLEAR change what the table says and nothing else of the cue;
a command in the 16 ns after another is discarded with STATE_WRITE. -/
def Obligations.CueCommands : Prop :=
  (∀ (m : Master) (k : Nat) (s : State), s.Open m (pCUE k) → k < 8 → s.cmdBusy (pCUE k) Off.cue_CUE_CMD_STAT = false →
    (s.Answers (.load m k) fun u =>
      (∀ i < 8, u.reg (pCUE k) (Off.cue_CUE_D0 + 4 * i) = wordAt (cueWords (s.cue (s.cueSel k))) i) ∧ u.tb = s.tb) ∧
    (s.Answers (.disarm m k) fun u =>
      u.cue (s.cueSel k) = { s.cue (s.cueSel k) with
        ctrl := wset (s.cue (s.cueSel k)).ctrl 0 2 0, status := setBit (s.cue (s.cueSel k)).status 0 false, due := none, predicted := false } ∧
      (∀ c, c ≠ s.cueSel k → u.cue c = s.cue c)) ∧
    (s.Answers (.clear m k) fun u =>
      u.cue (s.cueSel k) = { s.cue (s.cueSel k) with status := wset (wset (s.cue (s.cueSel k)).status 1 5 0) 8 8 0 } ∧
      (∀ c, c ≠ s.cueSel k → u.cue c = s.cue c))) ∧
  (∀ (m : Master) (k : Nat) (s : State) (q : Cue), s.Open m (pCUE k) → k < 8 → s.cmdBusy (pCUE k) Off.cue_CUE_CMD_STAT = false → q = s.staged k → s.cueReason (s.cueSel k) q = 0 →
    (cueMode q = 0 → s.Answers (.cueStore m k) fun u =>
      u.cue (s.cueSel k) = q ∧ (∀ c, c ≠ s.cueSel k → u.cue c = s.cue c)) ∧
    (cueMode q ≠ 0 → s.rulerValid (cueRuler q) = false → s.Answers (.cueStore m k) fun u =>
      u.cue (s.cueSel k) = { q with status := 1 } ∧ (∀ c, c ≠ s.cueSel k → u.cue c = s.cue c)) ∧
    (cueMode q = 1 → cueRuler q = 0 → s.rulerValid 0 = true → s.mainOn = true → q.target ≤ s.timeNs →
      s.Answers (.cueStore m k) fun u => bitAt (u.cue (s.cueSel k)).status 0 = false ∧
        (bitAt q.ctrl 3 = true → bitAt (u.cue (s.cueSel k)).status 3 = true ∧ bitAt (u.cue (s.cueSel k)).status 1 = false) ∧
        (bitAt q.ctrl 3 = false → bitAt (u.cue (s.cueSel k)).status 1 = true ∧ bitAt (u.cue (s.cueSel k)).status 2 = true))) ∧
  (∀ (m : Master) (k : Nat) (s : State) (q : Cue), s.Open m (pCUE k) → k < 8 → s.cmdBusy (pCUE k) Off.cue_CUE_CMD_STAT = false → q = s.staged k →
    rulerCode (cueRuler q) = false ∨ (cueMode q = 2 ∧ q.step = 0) ∨
      (cueMode q = 2 ∧ 8 ≤ cueRuler q ∧ cueRuler q < 12 ∧
        ((cueDir q = 1 ∧ signed 64 q.step < 0) ∨ (cueDir q = 2 ∧ 0 < signed 64 q.step))) ∨
      1000000000 < q.lead ∨ cueMode q = 3 ∨ (cueAon q = true ∧ cueRuler q ≠ 0 ∧ ¬ (8 ≤ cueRuler q ∧ cueRuler q < 12)) ∨
      (cueAon q = true ∧ 64 ≤ (s.tb.cues.filter fun e => e.1 != s.cueSel k && cueAon e.2).length) →
    s.Answers (.cueStore m k) fun u => u.tb = s.tb ∧ u.Faulted (pCUE k) 8 ∧ u.bit (pCUE k) Off.cue_CUE_CMD_STAT 1 = true ∧
      u.fld (pCUE k) Off.cue_CUE_CMD_STAT 4 4 ≠ 0) ∧
  (∀ (m : Master) (k : Nat) (s : State), s.Open m (pCUE k) → k < 8 → s.cmdBusy (pCUE k) Off.cue_CUE_CMD_STAT = true →
    ∀ c ∈ ([.load m k, .cueStore m k, .disarm m k, .clear m k] : List Instr), s.Answers c fun u =>
      u.Faulted (pCUE k) 0 ∧ u.tb = s.tb ∧ s.KeepsRegs u (pCUE k) [])

/-- R78 to R80: a once cue on TIME whose target comes within LEAD_NS in a tick is fired in that tick: its event is produced, FIRED and
FIRE_COUNT show it, and it is disarmed. -/
def Obligations.OnceCueFires : Prop :=
  ∀ (s : State) (c : Nat) (q : Cue), s.tb.cues = [(c, q)] → q.due = none → bitAt q.status 0 = true → cueMode q = 1 → cueRuler q = 0 →
    c < 4096 → s.alive (cuePage c) = true → s.mainOn = true → s.bit pTIMEBASE Off.timebase_TIME_STAT 0 = true → q.seen.isSome = true →
    q.target ≤ s.timeNs + q.lead →
    bitAt (s.cuesTick.cue c).status 0 = false ∧ bitAt (s.cuesTick.cue c).status 1 = true ∧
      wfld (s.cuesTick.cue c).status 16 16 = (wfld q.status 16 16 + 1) % 65536 ∧
      s.cuesTick.bit (cuePage c) (Off.cue_FIRED0 + 4 * (c % 512 / 32)) (c % 32) = true ∧
      (bitAt q.ctrl 24 = true → s.streams = [] → (s.cuesTick.chan (wfld q.ctrl 16 8)).pend = insertTick (s.chan (wfld q.ctrl 16 8)).pend s.now)

/-! ## Sensor intake -/

/-- R93 to R97, R131: packets with a bad header or an unknown data type are counted and dropped, frame starts and lines reach the
stream of their port and channel, a deskew sequence calibrates, and the I3C controller queues commands, ends them and takes in-band
interrupts. -/
def Obligations.SensorPorts : Prop :=
  (∀ (n vc dt : Nat) (bad : Bool) (data : List Nat) (s : State), n < 64 → s.alive (pSENS n) = true → s.fld (pSENS n) Off.sens_CFG 0 2 ≠ 0 →
    (s.Answers (.csi2Packet n vc dt .uncorrectable bad data) fun u =>
      u.fld (pSENS n) Off.sens_CNT_ECC 16 16 = min 65535 (s.fld (pSENS n) Off.sens_CNT_ECC 16 16 + 1) ∧ u.Faulted (pSENS n) 8 ∧
      u.cap.streams = s.cap.streams) ∧
    (dtAccepted dt = false ∨ 16 ≤ vc → s.Answers (.csi2Packet n vc dt .clean bad data) fun u => u.Faulted (pSENS n) 10 ∧
      u.fld (pSENS n) Off.sens_CNT_CRC 16 16 = min 65535 (s.fld (pSENS n) Off.sens_CNT_CRC 16 16 + 1) ∧ u.cap.streams = s.cap.streams) ∧
    (s.fld (pSENS n) Off.sens_CFG 0 2 = 1 → 150 < s.fld (pSENS n) Off.sens_CFG 8 10 → s.bit (pSENS n) Off.sens_DESKEW 0 = false →
      ∀ e ∈ [ReadErr.clean, .corrected, .uncorrectable], s.Answers (.csi2Packet n vc dt e bad data) fun u => u.Faulted (pSENS n) 11) ∧
    (∀ c, s.streams = [c] → s.alive pINTAKE = true → s.gangLead n = n → vc < 16 → capKind (s.scx c) = 0 → capIndex (s.scx c) = n →
      capVc (s.scx c) = vc →
      (s.Answers (.csi2Packet n vc 0 .clean bad data) fun u =>
        (u.stream c).inq = (s.stream c).inq ++ [.fs (data.headD 0)] ∧
        u.reg (pSENS n) Off.sens_CNT_PKT = s.reg (pSENS n) Off.sens_CNT_PKT + 1 ∧ u.mem = s.mem) ∧
      (dtAccepted dt = true → 0x1E ≤ dt → capDt (s.scx c) = dt → s.gangSize n = 1 → (s.stream c).losing = false →
        (s.stream c).inq.length < capBufLines (s.scx c) → s.Answers (.csi2Packet n vc dt .clean bad data) fun u =>
          (u.stream c).inq = (s.stream c).inq ++ [.line data bad] ∧ (bad = true → u.Faulted (pSENS n) 9)))) ∧
  (∀ (n : Nat) (b : Bool) (s : State), s.alive (pSENS n) = true → s.fld (pSENS n) Off.sens_CFG 0 2 = 1 →
    s.Answers (.deskewSequence n b) fun u => u.bit (pSENS n) Off.sens_DESKEW 0 = true ∧
      u.bit (pSENS n) Off.sens_DESKEW 1 = (b || s.bit (pSENS n) Off.sens_DESKEW 1) ∧ s.KeepsRegs u (pSENS n) [Off.sens_DESKEW]) ∧
  (∀ (m : Master) (n : Nat) (v : Word) (s : State), s.Open m (pSENS (2 * n)) →
    ((s.i3c n).cmds.length < 32 → (s.i3c n).cur.isSome = true → s.Answers (.i3cCmd m n v) fun u =>
      u.i3c n = { s.i3c n with cmds := (s.i3c n).cmds ++ [v] } ∧ u.regs = s.regs) ∧
    (s.fld (pSENS (2 * n)) Off.sens_I3C_CFG 0 2 ≠ 0 → (s.i3c n).cur = none → (s.i3c n).seq = [] → (s.i3c n).cmds = [] →
      s.Answers (.i3cCmd m n v) fun u => u.i3c n = { s.i3c n with cur := some (.firmware v) } ∧ u.regs = s.regs) ∧
    (32 ≤ (s.i3c n).cmds.length → s.Answers (.i3cCmd m n v) fun u => u.i3c n = s.i3c n ∧ u.Faulted (pSENS (2 * n)) 0)) ∧
  (∀ (n : Nat) (v : Word) (data : List Byte) (s : State), (s.i3c n).cur = some (.firmware v) → s.alive (pSENS (2 * n)) = true →
    s.fld (pSENS (2 * n)) Off.sens_I3C_CFG 0 2 = 1 →
    (bitAt v 24 = false ∨ cccSupported (wfld v 16 8) = true → s.Answers (.i3cTransferDone n false data) fun u =>
      u.bit (pSENS (2 * n)) Off.sens_I3C_STAT 1 = true ∧ u.bit (pSENS (2 * n)) Off.sens_I3C_STAT 2 = false ∧
      (u.i3c n).rx = (if bitAt v 7 then ((s.i3c n).rx ++ data.take (wfld v 8 8)).take 64 else (s.i3c n).rx) ∧
      (u.i3c n).tx = (if bitAt v 7 then (s.i3c n).tx else (s.i3c n).tx.drop (wfld v 8 8)) ∧
      (∀ w rest, (s.i3c n).seq = w :: rest → (u.i3c n).cur = some (.sequencer w) ∧ (u.i3c n).seq = rest ∧ (u.i3c n).cmds = (s.i3c n).cmds) ∧
      (∀ c rest, (s.i3c n).seq = [] → (s.i3c n).cmds = c :: rest → (u.i3c n).cur = some (.firmware c) ∧ (u.i3c n).cmds = rest)) ∧
    (s.Answers (.i3cTransferDone n true data) fun u =>
      u.bit (pSENS (2 * n)) Off.sens_I3C_STAT 2 = true ∧ u.Faulted (pSENS (2 * n)) 13 ∧ (u.i3c n).rx = (s.i3c n).rx)) ∧
  (∀ (n addr mdb : Nat) (s : State), s.alive (pSENS (2 * n)) = true → s.fld (pSENS (2 * n)) Off.sens_I3C_CFG 0 2 = 1 →
    (addr % 128 ≠ 2 → s.Answers (.i3cIbi n addr mdb) fun u =>
      u.fld (pSENS (2 * n)) Off.sens_I3C_IBI 0 7 = addr % 128 ∧ u.bit (pSENS (2 * n)) Off.sens_I3C_IBI 7 = true ∧
      u.fld (pSENS (2 * n)) Off.sens_I3C_IBI 8 8 = mdb % 256 ∧ u.bit (pSENS (2 * n)) Off.sens_I3C_STAT 3 = true) ∧
    (addr % 128 = 2 → s.Answers (.i3cIbi n addr mdb) fun u => u = s))

/-- R106 to R119: a Dralek receiver gains and loses block lock, aligns, drops and inserts IDLE blocks, fails a position over to a
spare, resends SPARE_MAP, takes lanes back, is enabled and disabled. -/
def Obligations.DralekLanes : Prop :=
  (∀ (n p : Nat) (s : State), p < 14 → s.alive (pDLK n) = true → s.dlkState n = 1 →
    (s.Answers (.dlkBlockLockAcquired n p) fun u => (u.dpos n p).lock = true ∧
      (((List.range 14).filter fun q => (s.dpos n q).active).length = s.fld (pDLK n) Off.dlk_CFG 4 4 →
        (∀ q < 14, q ≠ p → (s.dpos n q).active = true → (s.dpos n q).lock = true) → u.dlkState n = 2)) ∧
    (∀ hdrs, 16 ≤ badHeaders hdrs → s.Answers (.dlkBlockLockLost n p hdrs false) fun u => (u.dpos n p).lock = false ∧ u.dlkState n = 1)) ∧
  (∀ (n p : Nat) (s : State), p < 14 → n < 16 → s.alive (pDLK n) = true → s.dlkState n = 3 → (s.dpos n p).active = true →
    (s.dpos n p).pool = false →
    (∀ (hdrs : List Nat) (full : Bool), 16 ≤ badHeaders hdrs ∨ full = true → s.Answers (.dlkBlockLockLost n p hdrs full) fun u => (u.dpos n p).active = false ∧ u.Faulted (pDLK n) 8 ∧
      (u.dlkState n = 4 ∨ u.dlkState n = 5) ∧ (u.dlkState n = 4 ↔ ∃ q < 14, (s.dpos n q).pool = true)) ∧
    (∀ hdrs, badHeaders hdrs < 16 → s.Answers (.dlkBlockLockLost n p hdrs false) fun u => u.dpos n p = s.dpos n p ∧ u.dlkState n = 3) ∧
    ((s.dpos n p).lock = true → (s.dpos n p).since + s.blockTicks n 16448 ≤ s.now → s.Answers (.dlkMarkerTimeout n p) fun u => (u.dpos n p).active = false ∧ u.Faulted (pDLK n) 8 ∧
      (u.dlkState n = 4 ↔ ∃ q < 14, (s.dpos n q).pool = true))) ∧
  (∀ (n p l level : Nat) (s : State), s.alive (pDLK n) = true → s.dlkState n ≠ 0 → s.dlkLane n p = some l →
    (20 < level → s.Answers (.dlkIdleBlock n p level) fun u => u.fld (pSWIFT l) Off.swift_DLK_LSTAT 8 6 = (level - 1) % 64 ∧
      u.fld (pSWIFT l) Off.swift_DLK_FILL 16 16 = min 65535 (s.fld (pSWIFT l) Off.swift_DLK_FILL 16 16 + 1)) ∧
    (level ≤ 20 → s.Answers (.dlkIdleBlock n p level) fun u => u.fld (pSWIFT l) Off.swift_DLK_LSTAT 8 6 = level) ∧
    (level < 4 → s.Answers (.dlkElasticUnderflow n p level) fun u => (u.dpos n p).inserted = (s.dpos n p).inserted + 1 ∧
      u.fld (pSWIFT l) Off.swift_DLK_FILL 0 16 = min 65535 (s.fld (pSWIFT l) Off.swift_DLK_FILL 0 16 + 1) ∧
      (s.fld (pDLK n) Off.dlk_FAIL_CFG 8 8 < (s.dpos n p).inserted + 1 → u.Faulted (pDLK n) 14))) ∧
  (∀ (n p blk bip : Nat) (b : DlkBlock) (s : State), p < 14 → s.alive (pDLK n) = true → s.dlkState n ≠ 0 → b.control = true →
    (b.valid = false → s.Answers (.dlkAlignBlock n p b blk bip) fun u =>
      u.fld (pDLK n) Off.dlk_COUNTS 24 8 = min 255 (s.fld (pDLK n) Off.dlk_COUNTS 24 8 + 1) ∧ u.Faulted (pDLK n) 15 ∧
      (u.dpos n p).clean = 0 ∧ u.cap.streams = s.cap.streams) ∧
    (b.valid = true → b.byte 0 = 0x4B → s.dlkState n = 2 → bip ≤ s.fld (pDLK n) Off.dlk_FAIL_CFG 0 8 → (∀ q < 14, (s.dpos n q).active = true ↔ q = p) →
      s.Answers (.dlkAlignBlock n p b blk bip) fun u =>
        (u.dpos n p).marker = some (b.num 4 2, b.byte 2, blk) ∧
        (b.byte 3 % 16 = s.fld (pDLK n) Off.dlk_CFG 4 4 → u.dlkState n = 3 ∧ u.dlkMap n p = b.byte 2 % 16) ∧
        (b.byte 3 % 16 ≠ s.fld (pDLK n) Off.dlk_CFG 4 4 → u.dlkState n = 2 ∧ u.Faulted (pDLK n) 11))) ∧
  (∀ (n lane q sends t : Nat) (s : State), s.dlkState n = 4 → (s.dlk n).swap = some (lane, q, sends, t) → t + s.fourMarkers n ≤ s.now →
    (sends < 3 → s.Answers (.dlkSpareMapTimeout n) fun u => (u.dlk n).swap = some (lane, q, sends + 1, s.now) ∧
      (u.dlk n).sent = [⟨5, 0, lane + q * 256⟩] ∧ (u.dlk n).sentOn = s.dlkTxOn n) ∧
    (3 ≤ sends → s.Answers (.dlkSpareMapTimeout n) fun u => u.dlkState n = 5 ∧ u.Faulted (pDLK n) 10)) ∧
  (∀ (n p : Nat) (s : State), p < 14 → s.alive (pDLK n) = true → s.dlkMap n p = 14 → (s.dpos n p).lock = true → 16 ≤ (s.dpos n p).clean →
    s.Answers (.laneReturns n p) fun u => (u.dpos n p).pool = true ∧ u.dlkMap n p = 15 ∧
      u.fld (pDLK n) Off.dlk_COUNTS 16 8 = min 255 (s.fld (pDLK n) Off.dlk_COUNTS 16 8 + 1)) ∧
  (∀ (m : Master) (n : Nat) (v : Word) (s : State), s.Open m (pDLK n) → n < 16 →
    (s.dlkState n = 0 → s.bit (pDLK n) Off.dlk_CFG 0 = false → s.Answers (.dlkEnable m n v) fun u =>
      u.dlkState n = 1 ∧ u.bit (pDLK n) Off.dlk_CFG 0 = true ∧ u.fld (pDLK n) Off.dlk_CFG 4 4 = wfld v 4 4) ∧
    (s.bit (pDLK n) Off.dlk_CFG 0 = true → s.Answers (.dlkDisable m n v) fun u =>
      u.dlkState n = 0 ∧ u.bit (pDLK n) Off.dlk_CFG 0 = false ∧ u.dlk n = {} ∧ (∀ p < 14, u.dpos n p = {}) ∧
      u.reg (pDLK n) Off.dlk_MAP_LO = 0xFFFFFFFF ∧ u.reg (pDLK n) Off.dlk_MAP_HI = 0x00FFFFFF))

/-- R101, R102, R109, R115 to R118: what a Dralek receiver in RUN takes from its group stream, and the back channel: register
answers, PING and PONG, time, triggers, firmware's messages and their timeouts. -/
def Obligations.DralekTraffic : Prop :=
  (∀ (n vc : Nat) (b : DlkBlock) (s : State), n < 16 → s.alive (pDLK n) = true → s.dlkState n = 3 → b.control = true →
    (∀ c, s.streams = [c] → s.alive pINTAKE = true → capKind (s.scx c) = 1 → capIndex (s.scx c) = n → capVc (s.scx c) = vc →
      b.valid = true → b.byte 1 % 16 = vc →
      (b.byte 0 = 0x33 → s.Answers (.dlkFrameStart n b) fun u => (u.dlk n).waitFs.testBit vc = false ∧
        Map.get (fun _ => 0) (u.dlk n).dt vc = b.byte 4 ∧ (u.stream c).inq = (s.stream c).inq ++ [.fs (b.num 2 2)]) ∧
      (b.byte 0 = 0x66 → (s.dlk n).waitFs.testBit vc = false → s.Answers (.dlkFrameEnd n b) fun u =>
        (u.stream c).inq = (s.stream c).inq ++ [.fe] ∧ u.regs = s.regs)) ∧
    (b.valid = false → (s.Answers (.dlkFrameStart n b) fun u => u.Faulted (pDLK n) 15 ∧ u.cap = s.cap) ∧
      (s.Answers (.dlkFrameEnd n b) fun u => u.Faulted (pDLK n) 15 ∧ u.cap = s.cap) ∧
      (s.Answers (.bcmsg n b) fun u => u.Faulted (pDLK n) 15 ∧ u.cap = s.cap))) ∧
  (∀ (n k vc c : Nat) (lanes : List (List DlkBlock)) (bytes : List Nat) (bad : Bool) (s : State), n < 16 → s.alive (pDLK n) = true →
    s.dlkState n = 3 → s.streams = [c] → s.alive pINTAKE = true → capKind (s.scx c) = 1 → capIndex (s.scx c) = n → capVc (s.scx c) = vc →
    (∀ b ∈ s.dlkGroup n k lanes, b.control = true → b.valid = true ∧ b.byte 0 ≠ 0x99) →
    dlkLineOf (s.dlkGroup n k lanes) = some (vc, bytes, bad) →
    ((s.dlk n).waitFs.testBit vc = true → s.Answers (.dlkLine n k false lanes) fun u => u = s) ∧
    ((s.dlk n).waitFs.testBit vc = false → Map.get (fun _ => 0) (s.dlk n).dt vc = capDt (s.scx c) → capDt (s.scx c) ≠ 0x12 →
      (s.stream c).losing = false → (s.stream c).inq.length < capBufLines (s.scx c) → s.Answers (.dlkLine n k false lanes) fun u =>
        (u.stream c).inq = (s.stream c).inq ++ [.line (csiUnpack (capDt (s.scx c)) bytes) bad]) ∧
    ((s.dlk n).waitFs.testBit vc = false → (s.stream c).losing = false → (s.stream c).inq.length < capBufLines (s.scx c) →
      s.Answers (.dlkLine n k true lanes) fun u => (u.stream c).inq = (s.stream c).inq ++ [.emb bytes bad])) ∧
  (∀ (n : Nat) (b : DlkBlock) (s : State), n < 16 → s.alive (pDLK n) = true → s.dlkState n = 3 → b.control = true → b.valid = true →
    b.byte 0 = 0x99 →
    (b.byte 1 = 0x82 ∨ 0xA0 ≤ b.byte 1 ∨ (b.byte 1 = 0x81 ∧ 0x80 ≤ b.byte 2) → (s.dlk n).rx.length < 16 → s.Answers (.bcmsg n b) fun u =>
      (u.dlk n).rx = (s.dlk n).rx ++ [⟨b.byte 1, b.byte 2, b.num 3 4⟩]) ∧
    (b.byte 1 = 0x81 → s.Answers (.bcmsg n b) fun u => (u.dlk n).await = (s.dlk n).await.filter fun e => e.1.seq != b.byte 2) ∧
    (∀ t, b.byte 1 = 0x86 → (s.dlk n).ping = some t → s.Answers (.bcmsg n b) fun u =>
      u.reg (pDLK n) Off.dlk_RTT = wd (min 0xFFFFFF ((s.now - t) * 4)) ∧ (u.dlk n).ping = none ∧
      (u.dlk n).sent = [⟨7, 0, min 0xFFFFFF ((s.now - t) * 4) / 2⟩])) ∧
  (∀ (n : Nat) (s : State), s.alive (pDLK n) = true → s.dlkState n ≠ 0 →
    (s.bit (pDLK n) Off.dlk_BC_CFG 16 = true → (s.dlk n).timeMs ≠ some (s.timeNs / 1000000) → s.Answers (.dlkTimeSend n) fun u =>
      (u.dlk n).sent = [⟨3, 0, s.timeNs / 1000000000 % 2 ^ 32⟩, ⟨4, 0, s.timeNs % 1000000000⟩] ∧ u.regs = s.regs) ∧
    (s.bit (pDLK n) Off.dlk_BC_CFG 16 = true → s.pingDue n = true → s.Answers (.ping n) fun u =>
      (u.dlk n).ping = some s.now ∧ (u.dlk n).sent = [⟨6, 0, 0⟩] ∧ u.regs = s.regs) ∧
    (∀ k < 4, s.inBusy (pDLK n) k = true → s.Answers (.trigger n k) fun u =>
      (u.dlk n).sent = [⟨0x10 + k, 0, Map.get (fun _ => 0) (s.dlk n).trig k % 1000000000⟩] ∧ (u.dlk n).sentOn = s.dlkTxOn n ∧ u.inBusy (pDLK n) k = false ∧ (u.dlk n).tx = (s.dlk n).tx)) ∧
  (∀ (m : Master) (n : Nat) (v : Word) (s : State), s.Open m (pDLK n) → bitAt v 0 = true →
    ((s.dlk n).tx.length < 64 → s.Answers (.bcTxGo m n v) fun u =>
      (u.dlk n).tx = (s.dlk n).tx ++ [⟨s.fld (pDLK n) Off.dlk_BC_TX0 0 8, s.fld (pDLK n) Off.dlk_BC_TX0 8 8,
        (s.reg (pDLK n) Off.dlk_BC_TX1).toNat⟩] ∧ u.regs = s.regs) ∧
    (64 ≤ (s.dlk n).tx.length → s.Answers (.bcTxGo m n v) fun u => (u.dlk n).tx = (s.dlk n).tx ∧ u.Faulted (pDLK n) 13)) ∧
  (∀ (n t : Nat) (again : Bool) (g : BcMsg) (s : State), (s.dlk n).await = [(g, t, again)] →
    t + 250 * s.fld (pDLK n) Off.dlk_BC_CFG 0 16 ≤ s.now →
    (again = false → s.Answers (.bcTimeout n g.seq) fun u => (u.dlk n).await = [(g, s.now, true)] ∧ (u.dlk n).sent = [g]) ∧
    (again = true → s.Answers (.bcTimeout n g.seq) fun u => (u.dlk n).await = [] ∧ u.Faulted (pDLK n) 12))

/-- R121, R123 to R130, R133, R135: the stream commands, the frames of a stream from start to end, and the sensor sequencer. -/
def Obligations.CaptureStreams : Prop :=
  (∀ (m : Master) (s : State) (c : Nat), s.Open m pINTAKE → c = s.strmSel →
    (s.Answers (.strmLoad m) fun u => (∀ i < 16, u.reg pINTAKE (Off.intake_STRM_D0 + 4 * i) = wordAt (s.scx c) i) ∧ u.qm = s.qm) ∧
    (s.scxKind c = 0 → s.strmReason c (s.regs32 pINTAKE Off.intake_STRM_D0 16) = 0 → s.bit pINTAKE Off.intake_STRM_D0 31 = true →
      s.Answers (.strmStore m) fun u => u.scxKind c = 1 ∧
        (∀ i < 16, wordAt (u.scx c) i = s.reg pINTAKE (Off.intake_STRM_D0 + 4 * i)) ∧ (∀ i < 16, wordAt (u.scx c) (16 + i) = 0) ∧
        (u.stream c).next = (s.reg pINTAKE (Off.intake_STRM_D0 + 56)).toNat ∧ (u.stream c).frame = none) ∧
    (s.scxKind c = 1 → s.Answers (.strmStore m) fun u => u.Faulted pINTAKE 0 ∧ u.qm = s.qm) ∧
    (1 < s.scxKind c → s.Answers (.strmStore m) fun u => u.Faulted pINTAKE 0 ∧ u.Faulted (pQM 0) 14 ∧ u.qm = s.qm) ∧
    (s.scxKind c = 0 → s.fld pINTAKE (Off.intake_STRM_D0 + 4) 0 16 = 0 ∨ 32768 < s.fld pINTAKE (Off.intake_STRM_D0 + 4) 0 16 ∨
        s.qValid (s.fld pINTAKE (Off.intake_STRM_D0 + 16) 0 20) = false ∨ s.qValid (s.fld pINTAKE (Off.intake_STRM_D0 + 20) 0 20) = false →
      s.Answers (.strmStore m) fun u => u.Faulted pINTAKE 8 ∧ u.bit pINTAKE Off.intake_STRM_CMD_STAT 1 = true ∧ u.qm = s.qm) ∧
    (s.scxKind c = 1 → s.Answers (.stop m) fun u => (u.stream c).stopping = true ∧ u.qm = s.qm) ∧
    (s.scxKind c = 1 → s.Answers (.stopNow m) fun u => u.scxKind c = 0 ∧ u.stream c = {} ∧ bitAt (wordAt (u.scx c) 0) 31 = false)) ∧
  (∀ (c fn : Nat) (rest : List CapItem) (s : State), (s.stream c).inq = .fs fn :: rest → (s.stream c).frame = none → s.scxKind c = 1 →
    (s.Answers (.captureFrameStart c .uncorrectable) fun u => (u.stream c).inq = [] ∧ (u.stream c).frame = none ∧ u.scxKind c = 0) ∧
    (∀ e : ReadErr, e ≠ .uncorrectable → s.Answers (.captureFrameStart c e) fun u => (u.stream c).inq = rest ∧ (u.stream c).next = ((s.stream c).next + 1) % 2 ^ 32 ∧
      (u.stream c).frame.map (·.num) = some (s.stream c).next ∧ (u.stream c).frame.map (·.sensorFn) = some (fn % 65536) ∧
      (u.stream c).frame.map (·.timeFs) = some s.timeNs ∧ (u.stream c).frame.map (·.lines) = some 0)) ∧
  (∀ (c : Nat) (pix : List Nat) (bad : Bool) (rest : List CapItem) (s : State) (f : CapFrame), (s.stream c).inq = .line pix bad :: rest →
    (s.stream c).frame = some f →
    (f.lines < capHeight (s.scx c) → s.Answers (.captureLine c) fun u => (u.stream c).inq = rest ∧
      (u.stream c).frame.map (·.lines) = some (f.lines + 1) ∧ wordAt (u.scx c) 17 = wd (f.lines + 1) ∧
      (f.mem = false → u.mem = s.mem) ∧
      (∀ a, a < f.buffer + f.lines * capStride (s.scx c) ∨
        f.buffer + f.lines * capStride (s.scx c) + (storeLine (s.scx c) (fit (capWidth (s.scx c)) (s.capFill (s.scx c)) pix)).length ≤ a →
        u.byteAt a = s.byteAt a)) ∧
    (capHeight (s.scx c) ≤ f.lines → s.Answers (.captureLine c) fun u =>
      (u.stream c).frame.map (·.discarded) = some (f.discarded + 1) ∧ (u.stream c).frame.map (fun g => g.flags.testBit 1) = some true ∧
      u.mem = s.mem)) ∧
  (∀ (c : Nat) (pix : List Nat) (bad : Bool) (rest : List CapItem) (s : State), (s.stream c).inq = .line pix bad :: rest →
    (s.stream c).frame = none → s.Answers (.captureLine c) fun u => (u.stream c).inq = rest ∧
      wordAt (u.scx c) 18 = wd (min (2 ^ 32 - 1) ((wordAt (s.scx c) 18).toNat + 1)) ∧ u.mem = s.mem) ∧
  (∀ (c : Nat) (rest : List CapItem) (s : State) (f : CapFrame), (s.stream c).inq = .fe :: rest → (s.stream c).frame = some f →
    s.Answers (.captureFrameEnd c) fun u => (u.stream c).frame = none ∧
      ((s.stream c).stopping = true → u.scxKind c = 0) ∧
      ((s.stream c).stopping = false → (u.stream c).last = f.num ∧ (u.stream c).inq = rest)) ∧
  (∀ (c : Nat) (s : State) (f : CapFrame), (s.stream c).frame = some f → capTimeout (s.scx c) ≠ 0 →
    f.lastLine + 2500 * capTimeout (s.scx c) ≤ s.now → s.Answers (.frameTimeout c) fun u => (u.stream c).frame = none) ∧
  (∀ (c : Nat) (s : State) (q : SeqList) (a : Nat × Nat) (rest : List (Nat × Nat)), (s.stream c).seq = some q → q.writes = a :: rest →
    (q.ack = some true → rest ≠ [] → s.Answers (.seqWriteAck c) fun u =>
      (u.stream c).seq = some { q with writes := rest, retried := false, ack := none } ∧ u.regs = s.regs) ∧
    (q.ack = some true → rest = [] → s.Answers (.seqWriteAck c) fun u => (u.stream c).seq = none ∧ (u.stream c).seqDone.map (·.2.2) = some 1) ∧
    (q.ack = some false → q.retried = false → s.Answers (.seqWriteFail c) fun u =>
      (u.stream c).seq = some { q with retried := true, ack := none } ∧ u.regs = s.regs) ∧
    (q.ack = some false → q.retried = true → s.Answers (.seqWriteFail c) fun u =>
      (u.stream c).seq = none ∧ (u.stream c).seqDone.map (·.2.2) = some 2 ∧ u.Faulted pINTAKE 11))

/-! ## Raw pipes -/

/-- *Context commands* and *Branch commands*, R144 to R146, R204, R205, R219, R223: LOAD, STORE, START, STOP and STOP_NOW of a context, the
descriptors of a branch, and PSET_PUSH, each with what refuses it. -/
def Obligations.PipeCommands : Prop :=
  (∀ (m : Master) (n k : Nat) (s : State), s.Open m (pPIPE n 0) → n < 8 → k = ctxKey n (s.ctxSel n) →
    (s.Answers (.ctxLoad m n) fun u =>
      (∀ i < 16, u.reg (pPIPE n 0) (Off.pipeCtl_CTX_D0 + 4 * i) = wordAt (s.pctx k).cfg i) ∧ u.pipes = s.pipes) ∧
    ((s.pctx k).state ≠ 0 → s.Answers (.ctxStore m n) fun u => u.Faulted (pPIPE n 0) 0 ∧ u.pipes = s.pipes) ∧
    ((s.pctx k).state = 0 → s.ctxReason n (s.ctxSel n) (s.regs32 (pPIPE n 0) Off.pipeCtl_CTX_D0 16) = 0 →
      s.Answers (.ctxStore m n) fun u => (u.pctx k).cfg = s.regs32 (pPIPE n 0) Off.pipeCtl_CTX_D0 16 ∧ (u.pctx k).ring = [] ∧
        (u.pctx k).state = 0 ∧ ∀ j, j ≠ k → u.pctx j = s.pctx j) ∧
    ((s.pctx k).state = 0 → s.fld (pPIPE n 0) (Off.pipeCtl_CTX_D0 + 4) 0 16 < 2 ∨ 32768 < s.fld (pPIPE n 0) (Off.pipeCtl_CTX_D0 + 4) 0 16 ∨
        s.fld (pPIPE n 0) (Off.pipeCtl_CTX_D0 + 4) 0 16 % 2 = 1 →
      s.Answers (.ctxStore m n) fun u => u.Faulted (pPIPE n 0) 8 ∧ u.pipes = s.pipes) ∧
    ((s.pctx k).state ≠ 0 → s.Answers (.start m n) fun u => u.Faulted (pPIPE n 0) 0 ∧ u.pipes = s.pipes) ∧
    ((s.pctx k).state = 0 → cfgStripe (s.pctx k).cfg = 2 → s.Answers (.start m n) fun u => u.Faulted (pPIPE n 0) 8 ∧ u.pipes = s.pipes) ∧
    ((s.pctx k).state = 0 → cfgStripe (s.pctx k).cfg = 0 → (∀ i < 3, cfgComp (s.pctx k).cfg (i + 1) = none) →
      (∀ b < 4, brEn ((s.pctx k).brDesc b) = true → brBand ((s.pctx k).brDesc b) = false) →
      s.Answers (.start m n) fun u => u.pctx k = { s.pctx k with state := 1, stopping := false } ∧
        s.KeepsRegs u (pPIPE n 0) [Off.pipeCtl_CTX_CMD_STAT]) ∧
    ((s.pctx k).state = 2 → s.Answers (.ctxStop m n) fun u => u.pctx k = { s.pctx k with stopping := true }) ∧
    ((s.pctx k).state = 1 → cfgStripe (s.pctx k).cfg = 0 → s.Answers (.ctxStop m n) fun u => (u.pctx k).state = 0 ∧ (u.pctx k).frame = none) ∧
    ((s.pctx k).state ≠ 0 → cfgStripe (s.pctx k).cfg = 0 → s.Answers (.ctxStopNow m n) fun u =>
      (u.pctx k).state = 0 ∧ (u.pctx k).frame = none ∧ (u.pctx k).inq = [])) ∧
  (∀ (m : Master) (n b k : Nat) (s : State) (d : Words), s.Open m (pPIPE n (9 + b)) → n < 8 → b < 4 → k = s.brSel n b →
    d = s.regs32 (pPIPE n (9 + b)) Off.pipeBranch_BR_D0 8 →
    (s.Answers (.brLoad m n b) fun u =>
      (∀ i < 8, u.reg (pPIPE n (9 + b)) (Off.pipeBranch_BR_D0 + 4 * i) = wordAt ((s.pctx k).brDesc b) i) ∧ u.pipes = s.pipes) ∧
    ((s.pctx k).state ≠ 0 → s.Answers (.brStore m n b) fun u => u.Faulted (pPIPE n (9 + b)) 0 ∧ u.pipes = s.pipes) ∧
    ((s.pctx k).state = 0 → s.brReason (s.pctx k).cfg d = 0 → s.Answers (.brStore m n b) fun u =>
      (u.pctx k).brDesc b = d ∧ ∀ j, j ≠ b → (u.pctx k).brDesc j = (s.pctx k).brDesc j) ∧
    ((s.pctx k).state = 0 → brOutH d = 0 → s.Answers (.brStore m n b) fun u => u.Faulted (pPIPE n (9 + b)) 10 ∧ u.pipes = s.pipes)) ∧
  (∀ (m : Master) (n k : Nat) (v : Word) (s : State) (a : Nat) (r : Word), s.Open m (pPIPE n 0) → n < 8 → k = ctxKey n (s.ctxSel n) →
    bitAt v 0 = true → a = s.reg64 (pPIPE n 0) Off.pipeCtl_PSET_PTR_LO Off.pipeCtl_PSET_PTR_HI →
    r = s.reg (pPIPE n 0) Off.pipeCtl_PSET_REQ_FRAME →
    ((s.pctx k).ring.length < 4 → (∀ e ∈ (s.pctx k).ring, serialLt e.req r.toNat = true) → cfgStripe (s.pctx k).cfg ≠ 2 → a % 4096 = 0 →
      s.seqBound k = false → s.Answers (.psetPush m n v) fun u =>
        (u.pctx k).ring = (s.pctx k).ring ++ [{ ptr := a, req := r.toNat, state := 3, applied := r.toNat, pushed := s.now }] ∧
        u.regs = s.regs) ∧
    (4 ≤ (s.pctx k).ring.length → s.Answers (.psetPush m n v) fun u =>
      (u.pctx k).ring = (s.pctx k).ring ∧ (u.pctx k).reject = 1 ∧ u.Faulted (pPIPE n 0) 17) ∧
    (a % 4096 ≠ 0 → s.Answers (.psetPush m n v) fun u => (u.pctx k).ring = (s.pctx k).ring ∧ u.Faulted (pPIPE n 0) 17))

/-- R146 to R156, R176, R188, R209, R210, R235: a frame of a context without stripes from its acceptance over the pick, the run, its
lines, its branches and its statistics to its end, and the tables that a run needs. It states the own effect of fourteen commands, each
under conditions on the state and the operands alone: PIPE_FRAME_ACCEPT, PIPE_MEM_DESC_TAKE, PIPE_CONTEXT_SWITCH, PIPE_RUN_START, PIPE_LINE,
TABLE_LOAD_DONE, LUT_LOAD_DONE, SAFETY_LATE, SAVE_FAULT, BRANCH_PROGRESS, BRANCH_COMPLETE, STATS_BLOCK_DONE, PIPE_FRAME_DONE and TBL_DATA_READ. -/
def Obligations.PipeFrames : Prop :=
  (∀ (n c k num dt : Nat) (dec : Option PsetEntry) (rest : List PipeIn) (s : State), n < 8 → c < 64 → k = ctxKey n c → s.alive (pPIPE n 0) = true →
    (s.pctx k).state = 1 → (s.pctx k).frame = none → cfgStripe (s.pctx k).cfg = 0 →
    (cfgInput (s.pctx k).cfg = 0 → (s.pctx k).inq = .fs num dt dec :: rest → s.Answers (.pipeFrameAccept n c) fun u =>
      (u.pctx k).state = 2 ∧ (u.pctx k).frame.map (·.num) = some num ∧ (u.pctx k).inq = rest ∧
      (dt ≠ 0x2B + cfgDt (s.pctx k).cfg → u.Faulted (pPIPE n 0) 14 ∧ (u.pctx k).frame.map (·.noWork) = some true)) ∧
    (∀ q, q = wfld (wordAt (s.pctx k).cfg 10) 0 20 → cfgInput (s.pctx k).cfg = 1 → s.alive (pQM 0) = true → s.qValid q = true →
      s.qReissue q = none →
      ((s.qView q).level ≠ 0 → s.Answers (.pipeMemDescTake n c) fun u =>
        (u.pctx k).state = 2 ∧ (u.pctx k).frame.map (·.num) = some (wordAt (s.qHead q) 4).toNat ∧
        (u.pctx k).frame.map (·.desc) = some (some (s.qHead q))) ∧
      ((s.qView q).level = 0 → s.Answers (.pipeMemDescTake n c) fun u => u = s))) ∧
  (∀ (n c k : Nat) (s : State), n < 8 → c < 64 → k = ctxKey n c → s.alive (pPIPE n 0) = true →
    ((s.pipe n).running = false → (s.pipe n).picked = none → s.pipeBest n none = some c →
      ((s.pipe n).cur = some c → s.Answers (.pipeContextSwitch n) fun u => (u.pipe n).picked = some (c, s.now, s.now, 0) ∧ u.regs = s.regs) ∧
      ((s.pipe n).cur = none → s.Answers (.pipeContextSwitch n) fun u =>
        (∃ cyc, 512 ≤ cyc ∧ (u.pipe n).picked = some (c, s.now, s.now + (cyc + 3) / 4, cyc)) ∧ u.fld (pPIPE n 0) Off.pipeCtl_SWITCHES 0 32 =
          min (2 ^ 32 - 1) (s.fld (pPIPE n 0) Off.pipeCtl_SWITCHES 0 32 + 1))) ∧
    (∀ (a r cyc : Nat) (f : PipeFrame), (s.pipe n).picked = some (c, a, r, cyc) → r ≤ s.now → s.tablesMissing n c = false →
      lutOn (((s.pctx k).force.map (·.words)).getD []) = false → (s.pctx k).frame = some f → s.Answers (.pipeRunStart n) fun u =>
        (u.pipe n).cur = some c ∧ (u.pipe n).running = true ∧ (u.pipe n).picked = none ∧ (u.pipe n).runLines = 0 ∧
        (u.pctx k).frame.map (·.runs) = some (f.runs + 1) ∧
        ((s.pipe n).cur = none → s.now ≤ r → cyc < 2 ^ 32 → u.fld (pPIPE n 0) Off.pipeCtl_SWITCH_MAX 0 32 =
          max (s.fld (pPIPE n 0) Off.pipeCtl_SWITCH_MAX 0 32) cyc)) ∧
    (∀ (errs : List SramErr) (f : PipeFrame), (s.pipe n).cur = some c → (s.pipe n).running = true → s.pipeHas k 1 = true → (s.pctx k).frame = some f →
      cfgStripe (s.pctx k).cfg = 0 → s.Answers (.pipeLine n errs) fun u =>
        (u.pctx k).frame.map (·.y) = some (f.y + 1) ∧ (u.pipe n).runLines = (s.pipe n).runLines + 1) ∧
    (s.loadCtx n = some c → s.Answers (.tableLoadDone n) fun u =>
      ∀ o ∈ tablePages, ∀ id plan, tablePlan (((s.pctx k).force.map (·.words)).getD []) o = some (id, plan) →
        ((u.pipe n).findBank o id).isSome = true) ∧
    (∀ i, (s.pipe n).lutLoad = some (i, c) → s.Answers (.lutLoadDone n) fun u => (u.pipe n).lutLoad = none ∧
      ((Map.get (fun _ => none) (u.pipe n).lut i).map fun (x : Nat × Nat × TableBank) => x.2.1) =
        some (psw (((s.pctx k).force.map (·.words)).getD []) 0x438).toNat ∧
      (cfgSafety (s.pctx k).cfg = true → (u.pipe n).lutPin = some i)) ∧
    (∀ (t : Nat) (f : PipeFrame), (s.pctx k).eligible = some t → (s.pctx k).frame = some f → f.y = 0 → (s.pipe n).cur = none → (s.pipe n).picked = none →
      cfgSafety (s.pctx k).cfg = true → t + 1216 < s.now → f.flags.testBit 6 = false → s.Answers (.safetyLate n c) fun u =>
        (u.pctx k).frame.map (fun g => g.flags.testBit 6) = some true ∧ u.Faulted (pPIPE n 0) 15) ∧
    ((s.pctx k).state = 2 → s.Answers (.saveFault n c) fun u => (u.pctx k).state = 3 ∧ u.Faulted (pPIPE n 0) 9)) ∧
  (∀ (n c k : Nat) (s : State) (f : PipeFrame), n < 8 → c < 64 → k = ctxKey n c → s.alive (pPIPE n 0) = true → (s.pctx k).frame = some f →
    cfgStripe (s.pctx k).cfg = 0 →
    (∀ b < 4, brEn ((s.pctx k).brDesc b) = true → wfld (wordAt ((s.pctx k).brDesc b) 6) 0 16 ≠ 0 →
      wfld (wordAt ((s.pctx k).brDesc b) 6) 0 16 * ((s.brFrame k b).prog + 1) ≤ (s.brFrame k b).lines → (s.brFrame k b).nothing = false →
      s.Answers (.branchProgress n b c) fun u => (u.brFrame k b).prog = (s.brFrame k b).prog + 1 ∧ u.regs = s.regs) ∧
    (∀ b < 4, brEn ((s.pctx k).brDesc b) = true → f.noWork = false → (s.brFrame k b).done = false → (s.brFrame k b).posted = none →
      s.alive (pPIPE n (9 + b)) = true → s.brFinished k b = true ∨ (s.brFrame k b).nothing = true →
      (s.qm.pushBuf = [] → (brBand ((s.pctx k).brDesc b) = true ∨ (s.qView (wfld (wordAt ((s.pctx k).brDesc b) 4) 0 20)).full = false) →
        s.Answers (.branchComplete n b c) fun u =>
          (u.brFrame k b).done = true ∧ u.fld (pPIPE n (9 + b)) Off.pipeBranch_FRAMES 0 32 =
            min (2 ^ 32 - 1) (s.fld (pPIPE n (9 + b)) Off.pipeBranch_FRAMES 0 32 + 1)) ∧
      (s.qm.pushBuf = [] → brBand ((s.pctx k).brDesc b) = false → s.alive (pQM 0) = true →
        s.qValid (wfld (wordAt ((s.pctx k).brDesc b) 4) 0 20) = true →
        (s.qView (wfld (wordAt ((s.pctx k).brDesc b) 4) 0 20)).full = true → s.Answers (.branchComplete n b c) fun u =>
          (u.brFrame k b).done = false ∧ (u.brFrame k b).posted.isSome = true ∧ u.regs = s.regs)) ∧
    (f.stats = false → f.ended = true → s.framePassed k = true → s.Answers (.statsBlockDone n c) fun u =>
      (u.pctx k).frame.map (·.stats) = some true) ∧
    ((s.pctx k).state = 2 → f.stats = true → (∀ b < 4, brEn ((s.pctx k).brDesc b) = true → (s.brFrame k b).done = true) →
      (s.pctx k).stopping = false → s.Answers (.pipeFrameDone n c) fun u => (u.pctx k).state = 1 ∧ (u.pctx k).frame = none ∧
        (f.desc = none → ∀ a, a < dwordAt (s.pctx k).cfg 8 + 64 * (f.num % 64) ∨ dwordAt (s.pctx k).cfg 8 + 64 * (f.num % 64) + 64 ≤ a →
          u.byteAt a = s.byteAt a)) ∧
    ((s.pctx k).state = 2 → f.stats = true → (∀ b < 4, brEn ((s.pctx k).brDesc b) = true → (s.brFrame k b).done = true) →
      (s.pctx k).stopping = true → s.Answers (.pipeFrameDone n c) fun u => (u.pctx k).state = 0)) ∧
  (∀ (m : Master) (n o : Nat) (s : State), n < 8 → 1 ≤ o → o ≤ 8 → s.Shows m (pPIPE n o) → s.Answers (.tblDataRead m n o) fun u =>
    u.resp.value = wordAt ((s.pipe n).tblWords o) (s.fld (pPIPE n o) Off.pipeStage_TBL_ADDR 0 16) ∧
    u.fld (pPIPE n o) Off.pipeStage_TBL_ADDR 0 16 = (s.fld (pPIPE n o) Off.pipeStage_TBL_ADDR 0 16 + 1) % 65536 ∧
    s.KeepsRegs u (pPIPE n o) [Off.pipeStage_TBL_ADDR])

/-! ## Codec complex -/

/-- R284 to R287, R292, R324: what LOAD, STORE, STOP, STOP_NOW, SET_RATE, FORCE_IDR and FLUSH do to a session of an encoder, a decoder or a
JPEG XS codec and what refuses them, what GANG takes, and which session a block serves next. -/
def Obligations.CodecSessions : Prop :=
  (∀ (m : Master) (p c : Nat) (s : State), s.Open m p → pageKind p = .henc ∨ pageKind p = .dec ∨ pageKind p = .xs → c = s.sessSel p →
    (s.Answers (.sessLoad m p) fun u =>
      (∀ i < sessWords p, u.reg p (Off.henc_SESS_D0 + 4 * i) = wordAt (s.scx c) i) ∧ u.codec = s.codec ∧ u.qm = s.qm) ∧
    (s.scxKind c = sessKind p → s.Answers (.sessStore m p) fun u => u.Faulted p 0 ∧ u.codec = s.codec ∧ u.qm = s.qm) ∧
    (s.scxKind c ≠ 0 → s.scxKind c ≠ sessKind p → ¬ (pageKind p = .henc ∧ s.encMember (p - pHENC 0) = true) →
      s.Answers (.sessStore m p) fun u => u.Faulted p 0 ∧ u.Faulted (pQM 0) 14 ∧ u.codec = s.codec) ∧
    (s.scxKind c = 0 → pageKind p = .henc → s.encMember (p - pHENC 0) = true → s.Answers (.sessStore m p) fun u =>
      u.Faulted p 0 ∧ u.codec = s.codec ∧ u.qm = s.qm) ∧
    (s.scxKind c = 0 → pageKind p = .henc → s.encMember (p - pHENC 0) = false →
      (∀ w, w = s.regs32 p Off.henc_SESS_D0 20 →
        (ecFormat w < 3 ∨ 6 < ecFormat w ∨ ecW w < 64 ∨ 16384 < ecW w ∨ ecH w < 64 ∨ 8704 < ecH w ∨ ecW w % 2 = 1 ∨ ecH w % 2 = 1 ∨
            35651584 < ecW w * ecH w ∨ ecStride w % 64 ≠ 0 ∨ (ecRc w ≠ 0 ∧ (ecRate w < 100 ∨ 800000 < ecRate w)) ∨
            (∃ i < 4, s.qValid (ecQ w i) = false) ∨ ecQpMax w < ecQpMin w ∨ 51 < ecQpMax w →
          s.Answers (.sessStore m p) fun u => u.Faulted p 8 ∧ u.bit p Off.henc_SESS_CMD_STAT 1 = true ∧
            u.fld p Off.henc_SESS_CMD_STAT 4 4 ≠ 0 ∧ u.codec = s.codec ∧ u.qm = s.qm) ∧
        (s.encReason p w = 0 → bitAt (wordAt w 0) 0 = true → ecProg w = false → s.Answers (.sessStore m p) fun u =>
          u.scxKind c = 2 ∧ u.sessState p c = 1 ∧ (∀ i < 20, wordAt (u.scx c) i = wordAt w i) ∧ (u.encS c).idr = true ∧
          (u.encS c).fullness = 9 * ecCpb w * ecNum w / 10 ∧ u.reg p Off.henc_SESS_CMD_STAT = 0))) ∧
    (s.scxKind c = 0 → pageKind p ≠ .henc → s.decReason p (s.regs32 p Off.henc_SESS_D0 16) = 0 → s.bit p Off.henc_SESS_D0 0 = true →
      s.Answers (.sessStore m p) fun u => u.scxKind c = sessKind p ∧ u.sessState p c = 1 ∧
        (∀ i < 16, wordAt (u.scx c) i = s.reg p (Off.henc_SESS_D0 + 4 * i)) ∧ (u.decS c).waitIrap = !s.bit p Off.henc_SESS_D0 3) ∧
    (s.sessState p c ≠ 1 → s.Answers (.sessStop m p) fun u => u.Faulted p 0 ∧ u.codec = s.codec) ∧
    (s.sessState p c = 1 → s.sessFree p c = true → s.Answers (.sessStop m p) fun u =>
      u.sessState p c = 0 ∧ u.scxKind c = 0 ∧ bitAt (wordAt (u.scx c) 0) 0 = false) ∧
    (s.sessState p c = 1 → s.sessFree p c = false → s.Answers (.sessStop m p) fun u => u.sessState p c = 1 ∧
      (if pageKind p = .henc then (u.encS c).stopping else (u.decS c).stopping) = true ∧ u.qm = s.qm) ∧
    (s.sessState p c = 0 → s.Answers (.sessStopNow m p) fun u => u.Faulted p 0 ∧ u.codec = s.codec) ∧
    (s.sessState p c ≠ 0 → s.Answers (.sessStopNow m p) fun u => u.sessState p c = 0 ∧ u.scxKind c = 0 ∧
      (if pageKind p = .henc then (u.encS c).pic.isNone else (u.decS c).xs.isNone && (u.decS c).chunks == 0) = true) ∧
    (pageKind p = .henc → s.sessState p c = 1 →
      (s.Answers (.setRate m p) fun u =>
        (u.encS c).rate = some (s.reg p Off.henc_RATE_NEW, s.reg p Off.henc_MAXPIC_NEW) ∧ u.qm = s.qm) ∧
      (s.Answers (.forceIdr m p) fun u => (u.encS c).idr = true ∧ u.qm = s.qm)) ∧
    (pageKind p ≠ .henc ∨ s.sessState p c ≠ 1 →
      (s.Answers (.setRate m p) fun u => u.Faulted p 0 ∧ u.codec = s.codec) ∧
      (s.Answers (.forceIdr m p) fun u => u.Faulted p 0 ∧ u.codec = s.codec)) ∧
    (pageKind p ≠ .dec ∨ s.sessState p c ≠ 1 → s.Answers (.flush m p) fun u => u.Faulted p 0 ∧ u.codec = s.codec) ∧
    (pageKind p = .dec → s.sessState p c = 1 →
      (s.sessFree p c = false → s.Answers (.flush m p) fun u => (u.decS c).flush = true ∧ (u.decS c).dpb = (s.decS c).dpb) ∧
      (s.sessFree p c = true → s.Answers (.flush m p) fun u => ∀ d ∈ (u.decS c).dpb, d.wait = false))) ∧
  (∀ (m : Master) (n : Nat) (v : Word) (s : State), s.Open m (pHENC n) → n < 6 →
    (wfld v 0 3 ≠ s.fld (pHENC n) Off.henc_GANG 0 3 →
      (s.sessions (pHENC n) ≠ [] → s.Answers (.gangWrite m n v) fun u => u.Faulted (pHENC n) 0 ∧ s.KeepsRegs u (pHENC n) []) ∧
      (s.sessions (pHENC n) = [] → wfld v 0 3 = 0 ∨ 6 < n + wfld v 0 3 → s.Answers (.gangWrite m n v) fun u =>
        u.Faulted (pHENC n) 8 ∧ s.KeepsRegs u (pHENC n) []) ∧
      (1 ≤ wfld v 0 3 → n + wfld v 0 3 ≤ 6 → s.fld (pHENC n) Off.henc_GANG 0 3 ≤ 1 →
        (∀ j < 6, s.sessions (pHENC j) = [] ∧ s.encMember j = false ∧ s.fld (pHENC j) Off.henc_GANG 0 3 ≤ 1) →
        s.Answers (.gangWrite m n v) fun u => u.fld (pHENC n) Off.henc_GANG 0 3 = wfld v 0 3 ∧
          (∀ j < 6, n < j → j < n + wfld v 0 3 → u.fld (pHENC j) Off.henc_GANG 8 4 = n + 8) ∧ u.codec = s.codec))) ∧
  (∀ (p c : Nat) (s : State), s.alive p = true → pageKind p = .henc ∨ pageKind p = .dec ∨ pageKind p = .xs → c ∈ s.sessions p →
    s.sessState p c = 1 → s.sessWork p c = true → (∀ x, (s.codecBlk p).cur = some x → s.sessFree p x = true) →
    (∀ x ∈ s.sessions p, x ≠ c → s.sessState p x = 1 → s.sessWork p x = true → sessPrio p (s.scx c) < sessPrio p (s.scx x) ∨
      (sessPrio p (s.scx c) = sessPrio p (s.scx x) ∧ s.sessLast p c < s.sessLast p x)) →
    s.Answers (.codecSessionSwitch p) fun u => (u.codecBlk p).cur = some c ∧ u.sessLast p c = s.now ∧
      u.reg p Off.henc_STAT = wd ((if (s.codecBlk p).cur = some c then 0 else 2) + c * 65536))

/-- R290, R295 to R298, R303, R307, R311, R313, R315, R316, R319: a picture of an encoder from its start over its CTBs and slices to its
end, a slice of a JPEG XS codec, and a decoder's chunks, access units and output. -/
def Obligations.CodecPictures : Prop :=
  (∀ (n c hdr : Nat) (costs : List Nat) (s : State) (d b : Words), s.alive (pHENC n) = true → n < 6 →
    (s.codecBlk (pHENC n)).cur = some c → (s.encS c).st = 1 → (s.encS c).pic = none → s.mayBegin (pHENC n) c = true → (s.encS c).rate = none →
    (s.encS c).todo = [] → (s.encS c).fill = [] → (s.encS c).idr = true → (s.encS c).owed = 0 → ecProg (s.scx c) = false →
    (s.take (ecQ (s.scx c) 0)).1 = some d → srcUnusable d = false →
    ((s.take (ecQ (s.scx c) 0)).2.take (ecQ (s.scx c) 2)).1 = some b →
    ecRc (s.scx c) = 0 → ecHrd (s.scx c) = false → ecMaxPic (s.scx c) = 0 → ecNum (s.scx c) ≠ 0 →
    hdr + 512 * picSlices (s.scx c) (s.encGang n) + fbBits (s.scx c) 0 * (ctbRows (s.scx c) * ctbCols (s.scx c)) ≤ (wordAt b 2).toNat * 8 →
    s.Answers (.encPictureStart n hdr costs) fun u => ∃ f, (u.encS c).pic = some f ∧ f.src = some d ∧ f.srcBuf = dwordAt d 0 ∧
      f.frame = (wordAt d 4).toNat ∧ f.type = 0 ∧ f.poc = 0 ∧ f.buf = dwordAt b 0 ∧ f.size = (wordAt b 2).toNat ∧
      f.token = (wordAt b 3).toNat ∧ f.spent = 0 ∧ f.posted = 0 ∧ (f.qpPic : Int) = qpStart (s.scx c) 0 ∧ u.fld (pHENC n) Off.henc_STAT 0 2 = 1) ∧
  (∀ (n k c lines : Nat) (s : State), s.alive (pHENC n) = true → k < 4 → s.inBusy (pHENC n) k = true → s.sessions (pHENC n) = [c] →
    (s.encS c).st = 1 → (s.encS c).pic = none → (s.encS c).owed = 0 → ecProg (s.scx c) = true → ecProgIn (s.scx c) = k →
    s.Answers (.hencProgressEvent n k lines) fun u => (u.encS c).ready = (s.encS c).ready + lines ∧ u.inBusy (pHENC n) k = false ∧
      u.regs = s.regs) ∧
  (∀ (n c r k bits fallback : Nat) (e : ReadErr) (s : State) (f : EncPic), s.alive (pHENC n) = true → n < 6 → (s.codecBlk (pHENC n)).cur = some c →
    (s.encS c).owed = 0 → (s.encS c).pic = some f → ecProg (s.scx c) = false → s.encGang n = 1 → Map.get (fun _ => (0, 0)) f.pos 0 = (r, k) → r < ctbRows (s.scx c) → f.fb = false →
      (f.spent + bits + fbBits (s.scx c) f.type * (ctbRows (s.scx c) * ctbCols (s.scx c) - f.coded (s.scx c) 1 - 1) ≤ f.cap →
        s.Answers (.encCtbCoded n 0 bits fallback false e) fun u => ∃ g, (u.encS c).pic = some g ∧ g.spent = f.spent + bits ∧ g.fb = false ∧
          Map.get (fun _ => (0, 0)) g.pos 0 = (if ctbCols (s.scx c) ≤ k + 1 then (r + 1, 0) else (r, k + 1))) ∧
      (f.cap < f.spent + bits + fbBits (s.scx c) f.type * (ctbRows (s.scx c) * ctbCols (s.scx c) - f.coded (s.scx c) 1 - 1) →
        s.Answers (.encCtbCoded n 0 bits fallback false e) fun u => ∃ g, (u.encS c).pic = some g ∧ g.fb = true ∧
          g.spent = f.spent + min fallback (fbBits (s.scx c) f.type) ∧ u.Faulted (pHENC n) 10)) ∧
  (∀ (n c len : Nat) (s : State) (f : EncPic) (sl : EncSlice), s.alive (pHENC n) = true → n < 6 → (s.codecBlk (pHENC n)).cur = some c →
    (s.encS c).owed = 0 → (s.encS c).pic = some f → ecProg (s.scx c) = false → s.encGang n = 1 → f.slices = [sl] → sl.member = 0 → sl.first = f.posted →
      (∀ next, next = (if ecSliceRows (s.scx c) = 0 then ctbRows (s.scx c) else min (ctbRows (s.scx c)) (sl.first + ecSliceRows (s.scx c))) →
        (next < ctbRows (s.scx c) → s.Answers (.encSliceDone n len) fun u => ∃ g, (u.encS c).pic = some g ∧ g.posted = next ∧
          g.sliceNo = f.sliceNo + 1 ∧ g.slices = [] ∧
          (ecSliceDesc (s.scx c) = false → ∀ a, a < f.buf + Map.get (fun _ => 0) f.written 0 ∨
            f.buf + Map.get (fun _ => 0) f.written 0 + min len (f.size - Map.get (fun _ => 0) f.written 0) ≤ a → u.byteAt a = s.byteAt a)) ∧
        (ctbRows (s.scx c) ≤ next → (s.encS c).stopping = false → s.Answers (.encSliceDone n len) fun u => (u.encS c).pic = none ∧
          u.fld (pHENC n) Off.henc_PICS 0 32 = min (2 ^ 32 - 1) (s.fld (pHENC n) Off.henc_PICS 0 32 + 1) ∧
          u.fld (pHENC n) Off.henc_STAT 0 2 = 0))) ∧
  (∀ (n c : Nat) (lost : Bool) (e : ReadErr) (s : State) (f : XsPic), s.alive (pXS n) = true → n < 6 → (s.codecBlk (pXS n)).cur = some c →
    (s.decS c).st = 1 → (s.decS c).xs = some f → f.slice + 1 < xsSlices (s.scx c) →
    (bitAt (wordAt (s.scx c) 0) 1 = true → s.Answers (.xsSlice n lost e) fun u => (u.decS c).xs = some { f with slice := f.slice + 1 }) ∧
    (bitAt (wordAt (s.scx c) 0) 1 = false → (s.pageRt (pXS n)).inject = 0 → s.Answers (.xsSlice n lost e) fun u =>
      (u.decS c).xs = some { f with slice := f.slice + 1, flags := if lost || e == .uncorrectable then Nat.lor f.flags 256 else f.flags } ∧
      ((lost || e == .uncorrectable) = true → u.Faulted (pXS n) 10) ∧ (e = .uncorrectable → u.Faulted (pXS n) 14) ∧ ∀ a, u.byteAt a = s.byteAt a)) ∧
  (∀ (p c : Nat) (s : State), s.alive p = true → pageKind p = .dec → (s.codecBlk p).cur = some c → (s.decS c).st = 1 →
    (∀ d, (s.decS c).complete = false → (s.decS c).chunks ≠ 0 ∨ s.mayBegin p c = true → (s.take (ecQ (s.scx c) 0)).1 = some d → s.Answers (.decChunk p) fun u =>
      (u.decS c).chunks = (s.decS c).chunks + 1 ∧ (u.decS c).complete = bitAt (wordAt d 3) 0 ∧
      ((s.decS c).chunks = 0 → (u.decS c).time = dwordAt d 4) ∧ u.fld p Off.henc_STAT 0 2 = 1) ∧
    (∀ (a : AccessUnit) (e : ReadErr), (s.decS c).complete = true → (s.decS c).flush = false → (s.decS c).stopping = false →
      ((s.decS c).waitIrap = true → a.irap = false → s.Answers (.decAccessUnit p a e) fun u =>
        (u.decS c).chunks = 0 ∧ (u.decS c).complete = false ∧ (u.decS c).waitIrap = true ∧ (u.decS c).dpb = (s.decS c).dpb ∧
        u.mem = s.mem) ∧
      ((s.decS c).waitIrap = false ∨ a.irap = true → decSupported (s.scx c) a = false → s.Answers (.decAccessUnit p a e) fun u =>
        u.Faulted p 9 ∧ (u.decS c).waitIrap = true ∧ (u.decS c).complete = false ∧ u.mem = s.mem ∧
        u.fld p Off.dec_CNT_ERR 16 16 = min 65535 (s.fld p Off.dec_CNT_ERR 16 16 + 1)) ∧
      ((s.decS c).waitIrap = false ∨ a.irap = true → decSupported (s.scx c) a = true → s.Answers (.decAccessUnit p a e) fun u =>
        (u.decS c).waitIrap = false ∧ (u.decS c).dims = some (a.w, a.h) ∧ (u.decS c).chunks = 0 ∧ (u.decS c).complete = false ∧
        u.fld p Off.henc_STAT 0 2 = 0)) ∧
    (∀ d, firstOut (s.decS c).dpb = some d → s.Answers (.decPictureOutput p) fun u =>
      (u.decS c).count = (s.decS c).count + 1 ∧ (∀ x ∈ (u.decS c).dpb, x ≠ d) ∧
      u.fld p Off.dec_PICS 0 32 = min (2 ^ 32 - 1) (s.fld p Off.dec_PICS 0 32 + 1)))

/-! ## Display heads and Eyespot -/

/-- R72, R89, R327, R328, R334, R345: a head's link between OFF, WAIT_HPD, TRAIN, RUN and FAILED, AUX commands and their ends, switching a head
on and off, a pair commit that waits too long, and a line-locked context that loses its sensor. -/
def Obligations.DisplayLinks : Prop :=
  (∀ (n : Nat) (s : State), n < 8 → s.bit (pDISP n) Off.hdr_PG_CTRL 0 = true → s.alive (pDISP n) = true → (s.head n).link = 0 →
    s.Answers (.headEnable n) fun u => (u.head n).link = (if (s.head n).hpd then 2 else 1) ∧
      (s.pairLocked n = false → (s.lineR n).run = false → (u.lineR n).run = true ∧ (u.lineR n).line = s.activeV n ∧
        (u.lineR n).pixel = 0 ∧ (u.lineR n).frame = (s.lineR n).frame)) ∧
  (∀ (n : Nat) (s : State), n < 8 → s.bit (pDISP n) Off.hdr_PG_CTRL 0 = false → s.alive (pDISP n) = true → (s.head n).link ≠ 0 →
    s.pairLocked n = false → s.activeV n ≤ (s.lineR n).line → (s.head n).lines = [] → (s.head n).done = none →
    s.Answers (.headDisable n) fun u => (u.head n).link = 0 ∧ (u.lineR n).run = false ∧ (u.lineR n).frame = (s.lineR n).frame ∧
      ∀ l < 8, u.layer n l = {} ∧ Map.get (fun _ => ({} : Guard)) u.dram.guard (8 * n + l) = {}) ∧
  (∀ (n : Nat) (s : State), n < 8 →
    ((s.head n).link = 1 ∨ (s.head n).link = 4 → s.Answers (.hpdRise n) fun u =>
      (u.head n).link = 2 ∧ (u.head n).hpd = true ∧ (u.head n).tries = 0) ∧
    ((s.head n).link = 2 ∨ (s.head n).link = 4 → s.Answers (.hpdLossTimeout n) fun u =>
      (u.head n).link = 1 ∧ (u.head n).hpd = false ∧ u.regs = s.regs) ∧
    ((s.head n).link = 3 →
      (s.Answers (.hpdLossTimeout n) fun u => (u.head n).link = 1 ∧ (u.head n).hpd = false ∧ u.Faulted (pDISP n) 11) ∧
      (s.Answers (.hpdIrq n true) fun u => (u.head n).link = 2 ∧
        u.fld (pDISP n) Off.disp_CNT_LINK 0 16 = min 65535 (s.fld (pDISP n) Off.disp_CNT_LINK 0 16 + 1)) ∧
      (s.Answers (.hpdIrq n false) fun u => u = s)) ∧
    ((s.head n).link = 2 →
      (s.Answers (.linkTrainDone n true) fun u => (u.head n).link = 3 ∧ u.regs = s.regs) ∧
      ((s.head n).tries < 2 → s.Answers (.linkTrainDone n false) fun u => (u.head n).link = 2 ∧ (u.head n).tries = (s.head n).tries + 1) ∧
      (2 ≤ (s.head n).tries → s.Answers (.linkTrainDone n false) fun u => (u.head n).link = 4 ∧ u.Faulted (pDISP n) 10 ∧
        u.fld (pDISP n) Off.disp_CNT_LINK 16 16 = min 65535 (s.fld (pDISP n) Off.disp_CNT_LINK 16 16 + 1)))) ∧
  (∀ (m : Master) (n : Nat) (v : Word) (s : State), n < 8 → s.Open m (pDISP n) →
    ((s.head n).aux = none →
      (s.Answers (.auxNativeWrite m n v) fun u => u.reg (pDISP n) Off.disp_AUX_STAT = 1 ∧
        ∃ w, (u.head n).aux = some w ∧ wfld w 0 3 = 1 ∧ wfld w 3 29 = wfld v 3 29) ∧
      (s.Answers (.auxNativeRead m n v) fun u => u.reg (pDISP n) Off.disp_AUX_STAT = 1 ∧
        ∃ w, (u.head n).aux = some w ∧ wfld w 0 3 = 2 ∧ wfld w 3 29 = wfld v 3 29) ∧
      (s.Answers (.auxI2cWrite m n v) fun u => u.reg (pDISP n) Off.disp_AUX_STAT = 1 ∧
        ∃ w, (u.head n).aux = some w ∧ wfld w 0 3 = 3 ∧ wfld w 3 29 = wfld v 3 29) ∧
      (s.Answers (.auxI2cRead m n v) fun u => u.reg (pDISP n) Off.disp_AUX_STAT = 1 ∧
        ∃ w, (u.head n).aux = some w ∧ wfld w 0 3 = 4 ∧ wfld w 3 29 = wfld v 3 29)) ∧
    ((s.head n).aux ≠ none →
      (s.Answers (.auxNativeWrite m n v) fun u => u.Faulted (pDISP n) 0 ∧ u.disp = s.disp) ∧
      (s.Answers (.auxNativeRead m n v) fun u => u.Faulted (pDISP n) 0 ∧ u.disp = s.disp) ∧
      (s.Answers (.auxI2cWrite m n v) fun u => u.Faulted (pDISP n) 0 ∧ u.disp = s.disp) ∧
      (s.Answers (.auxI2cRead m n v) fun u => u.Faulted (pDISP n) 0 ∧ u.disp = s.disp))) ∧
  (∀ (n outcome : Nat) (data : List Byte) (s : State) (c : Word), n < 8 → outcome < 4 → (s.head n).aux = some c →
    s.Answers (.auxDone n outcome data) fun u => (u.head n).aux = none ∧ u.reg (pDISP n) Off.disp_AUX_STAT = wd (2 ^ (1 + outcome)) ∧
      (outcome ≠ 0 ∨ bitAt c 0 = true → s.KeepsRegs u (pDISP n) [Off.disp_AUX_STAT]) ∧
      (outcome = 0 → bitAt c 0 = false → wfld c 4 4 + 1 ≤ data.length →
        (wordsBytes (u.regs32 (pDISP n) Off.disp_AUX_DATA0 4)).take (wfld c 4 4 + 1) = data.take (wfld c 4 4 + 1))) ∧
  (∀ (n : Nat) (s : State), n < 8 → s.pendingCommit (pDISP n) = true → 2 ≤ (s.head n).heldVb →
    s.Answers (.pairCommitTimeout n) fun u => u.Faulted (pDISP n) 12 ∧ u.pendingCommit (pDISP n) = false ∧ (u.head n).heldVb = 0 ∧
      u.fld (pDISP n) Off.disp_CNT_COMMIT 16 16 = min 65535 (s.fld (pDISP n) Off.disp_CNT_COMMIT 16 16 + 1) ∧ u.shadow = s.shadow) ∧
  (∀ (k t : Nat) (s : State), k < 8 → s.llOn k = true → s.llState k = 2 → (s.slineR (s.llSline k)).started = some t →
    5 * s.framePeriod k < 4 * (s.now - t) →
    s.Answers (.llSensorTimeout k) fun u => u.llState k = 3 ∧ u.Faulted pLINEVIEW 11 ∧ s.KeepsRegs u pLINEVIEW [llOff k Off.lineview_LL_STAT])

/-- R329 to R331, R336, R338, R340, R344, R348 to R350: the lines of a frame from their composition to the pads, what takes effect at a start
of vertical blanking and at a frame start, pictures that are retired at FRAME_DONE, and a region's decision. -/
def Obligations.DisplayFrames : Prop :=
  (∀ (n y : Nat) (rest : List Nat) (late : List (Nat × Nat)) (errs : List (Nat × Nat × Bool)) (s : State), n < 8 → (s.lineR n).dueLine = y :: rest →
    s.Answers (.headLineStart n late errs) fun u => (u.lineR n).dueLine = rest ∧
      ∃ l, (u.head n).lines = (s.head n).lines ++ [l] ∧ l.y = y ∧ l.frame = (s.lineR n).frame ∧ l.start = s.now ∧ l.px.length = s.activeH n ∧
        ((∀ k < 8, s.layerOn (s.layerHead n) k = false) → (∀ r < 16, (s.eyeReg n r).shown = false) →
          s.fld (pDISP n) Off.disp_OUT_FMT 0 2 ≠ 2 →
          (∀ p ∈ l.px, p = outDepth (s.reg (pDISP n) Off.disp_OUT_FMT) (triple (s.reg (pDISP n) Off.disp_BG))) ∧ l.marks = [])) ∧
  (∀ (n : Nat) (l : HeadLine) (rest : List HeadLine) (pads : List (Nat × Nat × Nat)) (s : State), n < 8 → (s.head n).lines = l :: rest →
    (l.start + s.pxTicks n (s.reg (pDISP n) Off.disp_OUT_LAT).toNat ≤ s.now → s.Answers (.headLineOut n pads) fun u =>
      (u.head n).lines = rest ∧ (l.y + 1 = s.activeV n → (u.head n).done =
        some (l.frame, l.start + s.pxTicks n ((s.reg (pDISP n) Off.disp_OUT_LAT).toNat + s.activeH n)))) ∧
    (s.now < l.start + s.pxTicks n (s.reg (pDISP n) Off.disp_OUT_LAT).toNat → s.Answers (.headLineOut n pads) fun u => u = s)) ∧
  (∀ (n : Nat) (s : State), n < 8 → s.Canonical → s.pairLocked n = false → (s.lineR n).dueVblank = true →
    (s.Answers (.vblankStart n) fun u => (u.lineR n).dueVblank = false) ∧
    (s.commitReady (pDISP n) = true → s.dispValid n = true → s.Answers (.vblankStart n) fun u =>
      (∀ o ∈ pairRegs, u.reg (pDISP n) o = s.shadowOf (pDISP n) o) ∧ u.pendingCommit (pDISP n) = false ∧
      (Map.get (fun _ => none) s.shadow (rg (pDISP n) Off.disp_CNT_COMMIT) = none →
        u.fld (pDISP n) Off.disp_CNT_COMMIT 0 16 = min 65535 (s.fld (pDISP n) Off.disp_CNT_COMMIT 0 16 + 1))) ∧
    (s.commitReady (pDISP n) = true → s.dispValid n = false → s.Answers (.vblankStart n) fun u =>
      (∀ o ∈ pairRegs, u.reg (pDISP n) o = s.reg (pDISP n) o ∧ u.shadowOf (pDISP n) o = s.shadowOf (pDISP n) o) ∧
      u.pendingCommit (pDISP n) = false ∧ u.Faulted (pDISP n) 8) ∧
    (∀ (l : Nat) (d : Words), l < 8 → s.alive (pDISP n) = true → s.pendingCommit (pDISP n) = false → s.pendingCommit (pEYE n) = false →
      (∀ j < 8, s.layerOn n j = true ↔ j = l) → s.layerBand n l = false → bitAt (s.lreg n l Off.disp_L_CTRL) 4 = false →
      (s.layer n l).next = none →
      ((s.qReissue (wfld (s.lreg n l Off.disp_IN_Q) 0 20)).isSome = true ∨ 0 < s.qOld (wfld (s.lreg n l Off.disp_IN_Q) 0 20)) → (s.take (wfld (s.lreg n l Off.disp_IN_Q) 0 20)).1 = some d →
      ((s.offered n l d).refused = false → s.Answers (.vblankStart n) fun u => (u.layer n l).next = some (s.offered n l d)) ∧
      ((s.offered n l d).refused = true → s.Answers (.vblankStart n) fun u => (u.layer n l).next = none ∧ u.Faulted (pDISP n) 14))) ∧
  (∀ (n : Nat) (s : State), n < 8 → (s.lineR n).dueMatch = true → s.Answers (.lineMatch n) fun u =>
    (u.lineR n).dueMatch = false ∧ u.regs = s.regs ∧
    (s.alive (pDISP n) = true → bitAt (s.evReg (pDISP n) (Off.hdr_PG_EVT_OUT0 + 4)) 8 = true →
      (u.chan (wfld (s.evReg (pDISP n) (Off.hdr_PG_EVT_OUT0 + 4)) 0 8)).pend =
        insertTick (s.chan (wfld (s.evReg (pDISP n) (Off.hdr_PG_EVT_OUT0 + 4)) 0 8)).pend s.now)) ∧
  (∀ (n l : Nat) (s : State), n < 8 → l < 8 → (s.lineR n).dueFrame = true → s.pairLocked n = false → s.fenced (pDISP n) = false →
    (∀ p, s.layerOn n l = true → s.layerBand n l = false → (s.layer n l).next = some p → s.Answers (.headFrameStart n) fun u =>
      (u.lineR n).dueFrame = false ∧ (u.layer n l).cur = some { p with shown := 1 } ∧ (u.layer n l).next = none ∧
      ∀ q, (s.layer n l).cur = some q → (u.layer n l).old = (s.layer n l).old ++ [(q, (s.lineR n).frame)]) ∧
    (∀ p, s.layerOn n l = true → s.layerBand n l = false → (s.layer n l).next = none → (s.layer n l).cur = some p →
      s.Answers (.headFrameStart n) fun u => (u.layer n l).cur = some { p with shown := p.shown + 1 } ∧
        (0 < wfld (s.lreg n l Off.disp_L_EVT) 16 8 → wfld (s.lreg n l Off.disp_L_EVT) 16 8 < p.shown + 1 →
          (u.layer n l).stale = true ∧ u.Faulted (pDISP n) 16)) ∧
    (s.layerOn n l = false → s.Answers (.headFrameStart n) fun u => (u.layer n l).cur = none ∧ (u.layer n l).next = none)) ∧
  (∀ (n f t : Nat) (s : State), n < 8 → (s.head n).done = some (f, t) → t ≤ s.now → s.pairLocked n = false → s.fenced (pDISP n) = false →
    s.Answers (.frameDone n) fun u => (u.head n).done = none ∧
      ∀ l < 8, (u.layer n l).cur = (s.layer n l).cur ∧ (u.layer n l).old = (s.layer n l).old.filter fun e => !serialLe e.2 f) ∧
  (∀ (n r frame t : Nat) (s : State), n < 8 → r < 16 → s.alive (pEYE n) = true → s.bit (pEYE n) Off.eye_E_CTRL 0 = true →
    s.bit (pEYE n) (erOff r Off.eye_R_CFG) 0 = true → s.bit (pEYE n) (erOff r Off.eye_R_CFG) 1 = false →
    (s.eyeReg n r).due = some (frame, t) → (s.eyeReg n r).video = true → (s.eyeReg n r).inject = false → (s.eyeReg n r).marked = false →
    ((s.eyeReg n r).pad = (s.eyeReg n r).ref → s.bit (pEYE n) (erOff r Off.eye_R_CFG) 7 = false →
      s.Answers (.eyeRegionDecide n r) fun u => u.bit (pEYE n) (erOff r Off.eye_R_STAT) 0 = false ∧ u.bit (pEYE n) Off.eye_FAIL_MAP r = false ∧
        u.fld (pEYE n) (erOff r Off.eye_R_STAT) 8 8 = 0 ∧ u.reg (pEYE n) (erOff r Off.eye_R_FRAME) = wd frame ∧
        u.reg (pEYE n) (erOff r Off.eye_PAD_CRC) = wd (Nat.xor (s.eyeReg n r).pad 0xFFFFFFFF) ∧ (u.eyeReg n r).due = none ∧
        u.fld (pEYE n) Off.eye_CNT_CHECKED 0 32 = min (2 ^ 32 - 1) (s.fld (pEYE n) Off.eye_CNT_CHECKED 0 32 + 1)) ∧
    ((s.eyeReg n r).pad ≠ (s.eyeReg n r).ref → s.Answers (.eyeRegionDecide n r) fun u =>
      u.bit (pEYE n) (erOff r Off.eye_R_STAT) 0 = true ∧ u.bit (pEYE n) Off.eye_FAIL_MAP r = true ∧ u.Faulted (pEYE n) 8 ∧
      u.fld (pEYE n) (erOff r Off.eye_R_STAT) 8 8 = min 255 (s.fld (pEYE n) (erOff r Off.eye_R_STAT) 8 8 + 1) ∧
      (s.bit (pEYE n) (erOff r Off.eye_R_CFG) 2 = true →
        max 1 (s.fld (pEYE n) Off.eye_E_CTRL 1 3) ≤ s.fld (pEYE n) (erOff r Off.eye_R_STAT) 8 8 + 1 → u.bit (pEYE n) Off.eye_SAFE_MAP r = true))) ∧
  (∀ (m : Master) (n : Nat) (v : Word) (s : State), n < 8 → s.Open m (pEYE n) →
    s.Answers (.safeClr m n v) fun u => (u.head n).clr = Nat.lor (s.head n).clr (wfld v 0 16) ∧ u.regs = s.regs)

/-! ## TDM audio -/

/-- R360, R363 to R366, R369 to R371, R375: START, STOP and STOP_NOW of a set, its syncs as master and as slave, a lost frame sync, the software
counter and its read, a received frame, and the post of a period. -/
def Obligations.TdmSets : Prop :=
  (∀ (m : Master) (n : Nat) (s : State), n < 32 → s.Open m (pTDM n) →
    (s.isLead n = false →
      (s.Answers (.tdmStart m n) fun u => u.Faulted (pTDM n) 0 ∧ u.tdm = s.tdm) ∧
      (s.Answers (.tdmStop m n) fun u => u.Faulted (pTDM n) 0 ∧ u.tdm = s.tdm) ∧
      (s.Answers (.tdmStopNow m n) fun u => u.Faulted (pTDM n) 0 ∧ u.tdm = s.tdm)) ∧
    (s.isLead n = true →
      ((s.tset n).st ≠ 0 → s.Answers (.tdmStart m n) fun u => u.Faulted (pTDM n) 8 ∧ u.tdm = s.tdm) ∧
      ((s.tset n).st = 0 → s.tden n = 0 ∨ s.tnum n < 8000 * s.tden n ∨ 192000 * s.tden n < s.tnum n ∨
          s.fld (pTDM n) Off.tdm_RING_SIZE 0 5 < 10 ∨ 24 < s.fld (pTDM n) Off.tdm_RING_SIZE 0 5 ∨ s.ringBase n % 64 ≠ 0 ∨
          s.tslotW n < s.tcfg n 17 5 + s.tdataW n →
        s.Answers (.tdmStart m n) fun u => u.Faulted (pTDM n) 8 ∧ u.tdm = s.tdm) ∧
      ((s.tset n).st = 0 → s.tsetOk n ((s.tmembers n).filter fun p => s.alive (pTDM p)) = true → s.Answers (.tdmStart m n) fun u =>
        (u.tset n).st = 1 ∧ (u.tset n).act = (s.tmembers n).filter (fun p => s.alive (pTDM p)) ∧
        (s.tcfg n 6 1 = 0 →
          ((s.tb.time : Int) + 2000 * 65536 - s.tanchor n * 65536) * s.tnum n ≤ (u.tset n).k0 * (1000000000 * 65536 * s.tden n) ∧
          (0 < (u.tset n).k0 → ((u.tset n).k0 - 1 : Int) * (1000000000 * 65536 * s.tden n) <
            ((s.tb.time : Int) + 2000 * 65536 - s.tanchor n * 65536) * s.tnum n)) ∧
        (∀ p ∈ s.tmembers n, s.alive (pTDM p) = true → s.ttx p = false →
          u.reg (pTDM p) Off.tdm_HW_COUNT = 0 ∧ (u.tport p).run = true)) ∧
      ((s.tset n).st = 0 →
        (s.Answers (.tdmStop m n) fun u => u.Faulted (pTDM n) 0 ∧ u.tdm = s.tdm) ∧
        (s.Answers (.tdmStopNow m n) fun u => u.Faulted (pTDM n) 0 ∧ u.tdm = s.tdm)) ∧
      ((s.tset n).st = 1 → s.Answers (.tdmStop m n) fun u => (u.tset n).st = 0 ∧ (u.tset n).act = []) ∧
      ((s.tset n).st = 2 → s.Answers (.tdmStop m n) fun u => u.tset n = { s.tset n with stop := true } ∧ u.regs = s.regs) ∧
      ((s.tset n).st ≠ 0 → s.Answers (.tdmStopNow m n) fun u => (u.tset n).st = 0 ∧ (u.tset n).act = [] ∧
        ∀ p ∈ (s.tset n).act, (u.tport p).run = false ∧ (u.tport p).txq = []))) ∧
  (∀ (n k : Nat) (rx : List (Nat × List Nat)) (errs : List (Nat × Nat × Bool)) (s : State), n < 32 → s.tcfg n 6 1 = 0 → (s.tset n).st = 1 ∨ (s.tset n).st = 2 →
    k = (if (s.tset n).st = 1 then (s.tset n).k0 else (s.tset n).k + 1) →
    (((s.tb.time : Int) - s.tanchor n * 65536 - (s.tset n).err) * s.tnum n < (k * 1000000000 * 65536 * s.tden n : Nat) →
      s.Answers (.tdmFrameSync n rx errs) fun u => u = s) ∧
    ((k * 1000000000 * 65536 * s.tden n : Nat) ≤ ((s.tb.time : Int) - s.tanchor n * 65536 - (s.tset n).err) * s.tnum n →
      ((s.tset n).stop = false → s.Answers (.tdmFrameSync n rx errs) fun u => (u.tset n).st = 2 ∧ (u.tset n).k = k ∧ (u.tset n).fst = s.tk n k ∧
        (50 * 65536 < (s.tset n).err.natAbs → (s.tset n).slew = false → s.pendingCommit (pTDM n) = false → u.Faulted (pTDM n) 15)) ∧
      ((s.tset n).stop = true → (s.tset n).st = 2 → s.Answers (.tdmFrameSync n rx errs) fun u => (u.tset n).st = 0) ∧
      (∀ fb : Nat, (s.tset n).stop = false → s.pendingCommit (pTDM n) = false → (s.tset n).st = 2 → (s.tset n).act = [n] → s.ttx n = false → (s.tport n).dq = [] →
        (s.tport n).maskAt = none → s.swcAddr n = 0 → fb = popCount (s.tport n).mask (s.tslots n) * s.tcont n →
        ((fb : Int) ≤ s.ringBytes n - signed 32 ((s.hwCount n + 2 ^ 32 - (s.reg (pTDM n) Off.tdm_SW_COUNT).toNat) % 2 ^ 32) →
          s.Answers (.tdmFrameSync n rx errs) fun u => u.reg (pTDM n) Off.tdm_HW_COUNT = wd (s.hwCount n + fb) ∧ (u.tport n).dq = []) ∧
        (s.ringBytes n - signed 32 ((s.hwCount n + 2 ^ 32 - (s.reg (pTDM n) Off.tdm_SW_COUNT).toNat) % 2 ^ 32) < (fb : Int) →
          s.Answers (.tdmFrameSync n rx errs) fun u => u.reg (pTDM n) Off.tdm_HW_COUNT = s.reg (pTDM n) Off.tdm_HW_COUNT ∧
            u.Faulted (pTDM n) 10 ∧ (u.tport n).dq = [(s.tport n).mask] ∧
            u.fld (pTDM n) Off.tdm_CNT_DISCARD 0 32 = min (2 ^ 32 - 1) (s.fld (pTDM n) Off.tdm_CNT_DISCARD 0 32 + 1))))) ∧
  (∀ (n bclks : Nat) (rx : List (Nat × List Nat)) (errs : List (Nat × Nat × Bool)) (s : State), n < 32 → s.tcfg n 6 1 = 1 → s.alive (pTDM n) = true →
    ((s.tset n).st = 1 → s.Answers (.tdmFsEdge n bclks rx errs) fun u => (u.tset n).st = 2 ∧ (u.tset n).k = 0 ∧ (u.tset n).fst = s.timeNs) ∧
    ((s.tset n).st = 2 → (s.tset n).stop = false → s.Answers (.tdmFsEdge n bclks rx errs) fun u =>
      (u.tset n).st = 2 ∧ (u.tset n).k = (s.tset n).k + 1 ∧ (u.tset n).lost = false ∧ (u.tset n).edge = s.now ∧
      ((s.tset n).lost = false → bclks ≠ s.tslots n * s.tslotW n → n ∈ (s.tset n).act → s.pendingCommit (pTDM n) = false →
        u.Faulted (pTDM n) 12)) ∧
    ((s.tset n).st = 2 → (s.tset n).stop = true → s.Answers (.tdmFsEdge n bclks rx errs) fun u => (u.tset n).st = 0)) ∧
  (∀ (n : Nat) (s : State), n < 32 → s.tcfg n 6 1 = 1 → (s.tset n).st = 2 → (s.tset n).lost = false →
    (s.tset n).edge + 2 * s.tperiod n ≤ s.now → (s.tset n).stop = false → s.Answers (.tdmFsLost n) fun u =>
      (u.tset n).lost = true ∧ (u.tset n).k = (s.tset n).k + 1 ∧ (s.pendingCommit (pTDM n) = false → u.Faulted (pTDM n) 11)) ∧
  (∀ (n : Nat) (s : State), n < 32 → (s.tport n).run = true → s.swcAddr n ≠ 0 → (s.tport n).ans = false → (s.tport n).armFetch = false →
    (s.Answers (.swcReadDone n true) fun u => (u.tport n).ans = true ∧ u.Faulted (pTDM n) 17 ∧ (u.tport n).sw = (s.tport n).sw ∧
      u.fld (pTDM n) Off.tdm_CNT_SWC 0 32 = min (2 ^ 32 - 1) (s.fld (pTDM n) Off.tdm_CNT_SWC 0 32 + 1)) ∧
    ((s.busRead (s.swcAddr n) 4).1.bad = false → s.swRefused n (ofLeBytes (s.busRead (s.swcAddr n) 4).1.bytes) = false →
      s.Answers (.swcReadDone n false) fun u => (u.tport n).ans = true ∧ (u.tport n).sw = ofLeBytes (s.busRead (s.swcAddr n) 4).1.bytes)) ∧
  (∀ (m : Master) (n : Nat) (v : Word) (s : State) (d : Int), n < 32 → s.Open m (pTDM n) →
    d = signed 32 (if s.ttx n then (v.toNat + 2 ^ 32 - s.hwCount n) % 2 ^ 32 else (s.hwCount n + 2 ^ 32 - v.toNat) % 2 ^ 32) →
    (s.ringBytes n < d ∨ (s.ttx n = false ∧ d < 0) → s.Answers (.swCountWrite m n v) fun u =>
      u.Faulted (pTDM n) 16 ∧ s.KeepsRegs u (pTDM n) []) ∧
    (d ≤ s.ringBytes n → s.ttx n = true ∨ 0 ≤ d → s.Answers (.swCountWrite m n v) fun u =>
      u.reg (pTDM n) Off.tdm_SW_COUNT = v ∧ s.KeepsRegs u (pTDM n) [Off.tdm_SW_COUNT] ∧ u.tdm = s.tdm)) ∧
  (∀ (n q : Nat) (p : TdmPeriod) (rest : List TdmPeriod) (s : State), n < 32 → s.alive (pTDM n) = true → s.alive (pQM 0) = true →
    (s.tport n).posts = p :: rest → q = s.fld (pTDM n) Off.tdm_PERIOD_Q 0 20 → s.qValid q = true →
    ((s.qView q).full = true → s.Answers (.tdmPeriodPost n) fun u =>
      (u.tport n).posts = rest ∧ u.Faulted (pTDM n) 14 ∧ u.mem = s.mem ∧ u.qm = s.qm) ∧
    ((s.qView q).full = false → s.qm.pushBuf = [] → s.Answers (.tdmPeriodPost n) fun u => (u.tport n).posts = rest ∧
      u.fld (pQM 0) Off.qm0_CNT_OPS 0 32 = (s.fld (pQM 0) Off.qm0_CNT_OPS 0 32 + 1) % 2 ^ 32))

/-! ## Ethernet, TSN and PTP -/

/-- R379, R382, R385, R390, R392 to R394: CFG and the link of a MAC, its gate control lists from ADMIN to OPER, its shapers, and the
verification of preemption. -/
def Obligations.MacsAndGates : Prop :=
  (∀ (m : Master) (n : Nat) (v : Word) (s : State), n < 16 → s.Open m (pMAC n) →
    wfld (s.reg (pMAC n) Off.mac_CFG) 0 18 ≠ wfld v 0 18 →
    (s.macMode n ≠ 0 → s.Answers (.macCfgWrite m n v) fun u => u.Faulted (pMAC n) 0 ∧ s.KeepsRegs u (pMAC n) []) ∧
    (s.macMode n = 0 → wfld v 0 3 < 7 → fecOk (wfld v 0 3) (wfld v 3 2) = true →
      (∀ i < modeLanes (wfld v 0 3), wfld v 8 8 + i < 192 ∧ s.fld (pSWIFT (wfld v 8 8 + i)) Off.swift_LANE_CFG 0 3 = 1 ∧
        s.fld (pSWIFT (wfld v 8 8 + i)) Off.swift_LANE_CFG 8 8 = n ∧ s.fld (pSWIFT (wfld v 8 8 + i)) Off.swift_LANE_CFG 16 4 = i) →
      s.Answers (.macCfgWrite m n v) fun u => u.fld (pMAC n) Off.mac_CFG 0 18 = wfld v 0 18 ∧ u.fld (pMAC n) Off.mac_LINK 2 2 = wfld v 6 2 ∧
        s.KeepsRegs u (pMAC n) [Off.mac_CFG, Off.mac_LINK]) ∧
    (s.macMode n = 0 → wfld v 0 3 = 7 ∨ (∃ i < modeLanes (wfld v 0 3), 192 ≤ wfld v 8 8 + i ∨
        s.fld (pSWIFT (wfld v 8 8 + i)) Off.swift_LANE_CFG 0 3 ≠ 1 ∨ s.fld (pSWIFT (wfld v 8 8 + i)) Off.swift_LANE_CFG 8 8 ≠ n) →
      s.Answers (.macCfgWrite m n v) fun u => u.Faulted (pMAC n) 8 ∧ s.KeepsRegs u (pMAC n) [])) ∧
  (∀ (n speed : Nat) (s : State), n < 16 → s.alive (pMAC n) = true → s.macMode n ≠ 0 → s.linkUp n = false →
    s.fld (pMAC n) Off.mac_CFG 8 8 + modeLanes (s.macMode n) ≤ 192 → s.Answers (.macLinkUp n speed) fun u =>
      u.linkUp n = true ∧ (∀ i < modeLanes (s.macMode n), u.bit (pSWIFT (s.fld (pMAC n) Off.mac_CFG 8 8 + i)) Off.swift_ETH_LSTAT 0 = true) ∧
      u.fld (pMAC n) Off.mac_LINK 8 2 = (if s.bit (pMAC n) Off.mac_CFG 16 = true ∧
        s.bit (tsnPage n) (tsnOff n Off.tsn_PREEMPT) 17 = false then 1 else 0)) ∧
  (∀ (n pos : Nat) (s : State), n < 16 → pos < 4 → s.linkUp n = true → s.fld (pMAC n) Off.mac_CFG 8 8 + pos < 192 →
    s.Answers (.macLinkDown n pos) fun u => u.linkUp n = false ∧ u.Faulted (pMAC n) 9 ∧
      u.fld (pSWIFT (s.fld (pMAC n) Off.mac_CFG 8 8 + pos)) Off.swift_ETH_LSTAT 0 2 = 0 ∧
      u.fld (pMAC n) Off.mac_CNT_LINK 0 16 = min 65535 (s.fld (pMAC n) Off.mac_CNT_LINK 0 16 + 1)) ∧
  (∀ (n : Nat) (s : State), n < 16 → (s.mac n).oper ≠ [] → (s.mac n).ends ≤ s.timeNs →
    s.reg (tsnPage n) (tsnOff n Off.tsn_OPER_CYCLE) ≠ 0 → s.Answers (.gateEntryChange n) fun u =>
      s.timeNs < (u.mac n).ends ∧ (u.mac n).idx < (s.mac n).oper.length ∧ (u.mac n).oper = (s.mac n).oper ∧
      u.fld (tsnPage n) (tsnOff n Off.tsn_OPER_STAT) 0 8 = (u.mac n).idx % 256) ∧
  (∀ (m : Master) (n : Nat) (v : Word) (s : State) (p o c : Nat), n < 16 → p = tsnPage n → o = tsnOff n Off.tsn_GATE_CTRL →
    c = s.fld p (tsnOff n Off.tsn_ADMIN_CYCLE) 0 30 → s.Open m p →
    (s.bit p o 2 = true → s.Answers (.gateCommit m n v) fun u => u.Faulted p 0 ∧ (u.mac n).change = (s.mac n).change) ∧
    (s.bit p o 2 = false → wfld v 8 9 = 0 ∨ 256 < wfld v 8 9 ∨ c < 1000 ∨ 1000000000 < c → s.Answers (.gateCommit m n v) fun u =>
      u.Faulted p 8 ∧ u.bit p o 2 = false ∧ (u.mac n).change = (s.mac n).change) ∧
    (s.bit p o 2 = false → 1 ≤ wfld v 8 9 → wfld v 8 9 ≤ 256 → 1000 ≤ c → c ≤ 1000000000 → s.Answers (.gateCommit m n v) fun u =>
      u.bit p o 2 = true ∧ u.bit p o 0 = bitAt v 0 ∧ u.fld p o 8 9 = wfld v 8 9 ∧ ∃ t : Nat, (u.mac n).change = some t ∧
        s.timeNs + 1000 ≤ t ∧ ∃ k : Nat, t = s.reg64 p (tsnOff n Off.tsn_ADMIN_BASE_LO) (tsnOff n (Off.tsn_ADMIN_BASE_LO + 4)) + k * c ∧
        (k = 0 ∨ t < s.timeNs + 1000 + c))) ∧
  (∀ (n t p : Nat) (s : State), n < 16 → p = tsnPage n → (s.mac n).change = some t → t ≤ s.timeNs → s.Answers (.gateConfigChange n) fun u =>
    (u.mac n).change = none ∧ (u.mac n).oper = (List.range (s.fld p (tsnOff n Off.tsn_GATE_CTRL) 8 9)).map (fun i =>
      Map.get (fun _ => (0, 0)) (s.mac n).admin i) ∧ u.bit p (tsnOff n Off.tsn_GATE_CTRL) 2 = false ∧
    u.reg p (tsnOff n Off.tsn_OPER_CYCLE) = s.reg p (tsnOff n Off.tsn_ADMIN_CYCLE) ∧
    u.reg p (tsnOff n Off.tsn_OPER_BASE_LO) = s.reg p (tsnOff n Off.tsn_ADMIN_BASE_LO) ∧
    u.fld p (tsnOff n Off.tsn_CNT_GATE) 0 16 = min 65535 (s.fld p (tsnOff n Off.tsn_CNT_GATE) 0 16 + 1)) ∧
  (∀ (m : Master) (k n i : Nat) (s : State), k < 8 → s.Open m (pTSN k) → n = 2 * k + s.fld (pTSN k) Off.tsn_GCL_SEL 8 1 →
    i = s.fld (pTSN k) Off.tsn_GCL_SEL 0 8 →
    (s.Answers (.gclReadAdmin m k) fun u => u.reg (pTSN k) Off.tsn_GCL_D0 = (Map.get (fun _ => (0, 0)) (s.mac n).admin i).1 ∧
      u.reg (pTSN k) Off.tsn_GCL_D1 = (Map.get (fun _ => (0, 0)) (s.mac n).admin i).2 ∧ u.net = s.net) ∧
    (s.Answers (.gclReadOper m k) fun u => u.reg (pTSN k) Off.tsn_GCL_D0 = ((s.mac n).oper.getD i (0, 0)).1 ∧
      u.reg (pTSN k) Off.tsn_GCL_D1 = ((s.mac n).oper.getD i (0, 0)).2 ∧ u.net = s.net) ∧
    ((s.mac n).change = none → s.Answers (.gclWriteAdmin m k) fun u => u.regs = s.regs ∧
      Map.get (fun _ => (0, 0)) (u.mac n).admin i = (s.reg (pTSN k) Off.tsn_GCL_D0, s.reg (pTSN k) Off.tsn_GCL_D1) ∧
      ∀ j, j ≠ i → Map.get (fun _ => (0, 0)) (u.mac n).admin j = Map.get (fun _ => (0, 0)) (s.mac n).admin j) ∧
    ((s.mac n).change ≠ none → s.Answers (.gclWriteAdmin m k) fun u => u.Faulted (pTSN k) 0 ∧ u.net = s.net)) ∧
  (∀ (m : Master) (n i : Nat) (v : Word) (s : State), n < 16 → i < 2 → s.Open m (tsnPage n) →
    (bitAt v 27 = false → s.Answers (.cbsWrite m n i v) fun u => u.fld (tsnPage n) (tsnOff n (Off.tsn_CBS_A + 4 * i)) 0 28 = wfld v 0 28) ∧
    (bitAt v 27 = true → bitAt (s.cbs n (1 - i)) 27 = false → 4 * wfld v 0 24 ≤ 3 * s.linkKbps n →
      s.Answers (.cbsWrite m n i v) fun u => u.fld (tsnPage n) (tsnOff n (Off.tsn_CBS_A + 4 * i)) 0 28 = wfld v 0 28) ∧
    (bitAt v 27 = true → 0 < wfld v 0 24 → 3 * s.linkKbps n < 4 * wfld v 0 24 → s.Answers (.cbsWrite m n i v) fun u =>
      u.Faulted (tsnPage n) 8 ∧ s.KeepsRegs u (tsnPage n) []) ∧
    (bitAt v 27 = true → bitAt (s.cbs n (1 - i)) 27 = true → wfld v 24 3 = wfld (s.cbs n (1 - i)) 24 3 →
      s.Answers (.cbsWrite m n i v) fun u => u.Faulted (tsnPage n) 8 ∧ s.KeepsRegs u (tsnPage n) [])) ∧
  (∀ (n : Nat) (s : State), n < 16 → s.fld (pMAC n) Off.mac_LINK 8 2 = 1 →
    (s.Answers (.preemptVerify n true) fun u => u.fld (pMAC n) Off.mac_LINK 8 2 = 2 ∧ s.KeepsRegs u (pMAC n) [Off.mac_LINK]) ∧
    (s.Answers (.preemptVerify n false) fun u => u.fld (pMAC n) Off.mac_LINK 8 2 = 3 ∧ u.Faulted (pMAC n) 13 ∧
      s.KeepsRegs u (pMAC n) [Off.mac_LINK]))

/-- R380 to R385, R395 to R400, R402, R403: a frame from the head of its class to the wire and to its completion, what reception counts and
where a frame goes, stream filters, recovery functions and RTP flows. -/
def Obligations.FramesAndStreams : Prop :=
  (∀ (n c : Nat) (f : TxFrame) (e : ReadErr) (s : State), n < 16 → c < 8 → s.alive (pMAC n) = true → s.macMode n ≠ 0 → s.linkUp n = true →
    (∀ j < 8, s.txHead n j = (if j = c then some f else none) ∧ Map.get (fun _ => []) (s.mac n).copies j = [] ∧
      s.bit (pMAC n) (Off.mac_TXQ0 + 4 * j) 31 = false) →
    (s.mac n).cur = none → (s.mac n).held = none → (s.mac n).idleAt ≤ s.now → f.st = none → txFlag f.desc 0 = false → txFlag f.desc 2 = false →
    ((s.creditStep n).txEligible n f = true → (s.takeErr (pMAC n) e).1 ≠ .uncorrectable → s.Answers (.macTxStart n e) fun u => u.txHead n c = none ∧ ∃ g, (u.mac n).cur = some g ∧
      g.desc = f.desc ∧ g.bytes = f.bytes ∧ g.start = s.now ∧ g.fin = s.now + s.wireTicks n (8 + f.bytes.length + 4) ∧
      (u.mac n).idleAt = g.fin + s.wireTicks n 12) ∧
    ((s.creditStep n).txEligible n f = true → (s.takeErr (pMAC n) e).1 = .uncorrectable → s.Answers (.macTxStart n e) fun u =>
      u.txHead n c = none ∧ (u.mac n).cur = none ∧ u.Faulted (pMAC n) 11 ∧ u.Faulted (pMAC n) 14 ∧
      (f.repl = none → (u.mac n).comps = (s.mac n).comps ++ [txDone f.desc (5 + f.flags) none])) ∧
    ((s.creditStep n).txEligible n f = false → s.Answers (.macTxStart n e) fun u => (u.mac n).cur = none ∧ u.txHead n c = some f)) ∧
  (∀ (n c : Nat) (d : Words) (e : ReadErr) (s : State), n < 16 → c < 8 → s.alive (pMAC n) = true → s.macMode n ≠ 0 → s.linkUp n = true →
    (∀ j < 8, s.txHead n j = none ∧ Map.get (fun _ => []) (s.mac n).copies j = [] ∧ (s.bit (pMAC n) (Off.mac_TXQ0 + 4 * j) 31 = true ↔ j = c)) →
    (s.mac n).cur = none → (s.mac n).held = none → (s.mac n).idleAt ≤ s.now → (s.take (s.fld (pMAC n) (Off.mac_TXQ0 + 4 * c) 0 20)).1 = some d →
    txFlag d 0 = false → txReserved d = true → s.Answers (.macTxStart n e) fun u => u.Faulted (pMAC n) 15 ∧ (u.mac n).cur = none ∧
      u.txHead n c = none ∧ (u.mac n).comps = (s.mac n).comps ++ [txDone d 4 none]) ∧
  (∀ (n : Nat) (f : TxFrame) (s : State), n < 16 → (s.mac n).cur = some f → f.repl = none →
    (f.fin ≤ s.now → s.Answers (.macTxComplete n) fun u => (u.mac n).cur = none ∧ (u.mac n).out = f.bytes ∧
      (u.mac n).comps = ((s.mac n).comps ++ [txDone f.desc f.flags (some f.ts)]).drop 1 ∧
      u.fld (pMAC n) Off.mac_CNT_TX 0 32 = min (2 ^ 32 - 1) (s.fld (pMAC n) Off.mac_CNT_TX 0 32 + 1)) ∧
    (s.now < f.fin → (s.mac n).comps = [] → s.Answers (.macTxComplete n) fun u => u = s)) ∧
  (∀ (n frag cor bad : Nat) (bs : List Byte) (lanes : List (Nat × Nat × Nat × Nat)) (e : ReadErr) (s : State), n < 16 → s.alive (pMAC n) = true → s.linkUp n = true →
    (frag ≠ 2 → s.Answers (.macRxFrame n bs false frag cor bad lanes e) fun u =>
      u.fld (pMAC n) Off.mac_CNT_RX_ERR 0 16 = min 65535 (s.fld (pMAC n) Off.mac_CNT_RX_ERR 0 16 + 1) ∧
      s.KeepsRegs u (pMAC n) [Off.mac_CNT_RX_ERR, Off.mac_CNT_FEC] ∧ u.mem = s.mem ∧ u.qm = s.qm) ∧
    (frag ≠ 2 → bs.length + 4 < 64 ∨ s.fld (pMAC n) Off.mac_MAX_FRAME 0 14 < bs.length + 4 →
      s.Answers (.macRxFrame n bs true frag cor bad lanes e) fun u =>
        u.fld (pMAC n) Off.mac_CNT_RX_ERR 16 16 = min 65535 (s.fld (pMAC n) Off.mac_CNT_RX_ERR 16 16 + 1) ∧ u.mem = s.mem ∧ u.qm = s.qm) ∧
    (s.Answers (.macRxFrame n bs true 2 cor bad lanes e) fun u =>
      u.fld (pMAC n) Off.mac_CNT_PREEMPT 16 16 = min 65535 (s.fld (pMAC n) Off.mac_CNT_PREEMPT 16 16 + 1) ∧ u.mem = s.mem ∧ u.qm = s.qm) ∧
    (frag ≠ 2 → 64 ≤ bs.length + 4 → bs.length + 4 ≤ s.fld (pMAC n) Off.mac_MAX_FRAME 0 14 → fieldAt bs (typeOffset bs) 2 ≠ 0x8808 →
      frameDa bs = 2 ^ 48 - 1 → s.filtFor n bs = none → s.flowFor bs = none → s.ptpFrame n bs = false →
      s.fld (pMAC n) Off.mac_BE_LIMIT 0 24 = 0 → s.qPeek (s.fld (pMAC n) Off.mac_RX_FREE_Q 0 20) = none →
      s.Answers (.macRxFrame n bs true frag cor bad lanes e) fun u =>
        u.fld (pMAC n) Off.mac_CNT_RX 0 32 = min (2 ^ 32 - 1) (s.fld (pMAC n) Off.mac_CNT_RX 0 32 + 1) ∧ u.Faulted (pMAC n) 10 ∧
        u.fld (pMAC n) Off.mac_CNT_DROP 0 16 = min 65535 (s.fld (pMAC n) Off.mac_CNT_DROP 0 16 + 1) ∧ u.mem = s.mem) ∧
    (∀ d, frag ≠ 2 → 64 ≤ bs.length + 4 → bs.length + 4 ≤ s.fld (pMAC n) Off.mac_MAX_FRAME 0 14 →
      fieldAt bs (typeOffset bs) 2 ≠ 0x8808 → frameDa bs = 2 ^ 48 - 1 → s.filtFor n bs = none → s.flowFor bs = none →
      s.ptpFrame n bs = false → s.fld (pMAC n) Off.mac_BE_LIMIT 0 24 = 0 → s.qPeek (s.fld (pMAC n) Off.mac_RX_FREE_Q 0 20) = some d →
      bs.length ≤ (wordAt d 2).toNat → s.qValid (s.fld (pMAC n) Off.mac_DEF_Q 0 20) = false →
      s.Answers (.macRxFrame n bs true frag cor bad lanes e) fun u =>
        u.fld (pMAC n) Off.mac_CNT_RX 0 32 = min (2 ^ 32 - 1) (s.fld (pMAC n) Off.mac_CNT_RX 0 32 + 1) ∧ u.Faulted (pQM 0) 9)) ∧
  (∀ (r : Nat) (s : State), r < 1024 → bitAt (s.rcv r).d0 0 = true → (s.rcv r).any = false →
    (s.rcv r).last + wfld (s.rcv r).d0 8 16 * 250000 ≤ s.now → s.Answers (.recoveryResetTimeout r) fun u =>
      (u.rcv r).any = true ∧ (u.rcv r).hist = [] ∧ u.Faulted (pTSN (r / 128)) 12) ∧
  (∀ (c q t : Nat) (d : Words) (s : State), (s.flow c).held = [(q, d, t)] → q < 65536 → (s.flow c).exp < 65536 →
    t + wfld (wordAt (s.scx c) 6) 16 16 * 250 ≤ s.now → s.Answers (.reorderTimeout c) fun u => (u.flow c).held = [] ∧
      (u.flow c).exp = (q + 1) % 65536 ∧ (u.flow c).losses = (s.flow c).losses + (q + 65536 - (s.flow c).exp) % 65536) ∧
  (∀ (m : Master) (k f r : Nat) (s : State), k < 8 → s.Open m (pTSN k) → f = 256 * k + s.fld (pTSN k) Off.tsn_FILT_SEL 0 8 →
    r = 128 * k + s.fld (pTSN k) Off.tsn_REC_SEL 0 7 →
    (s.Answers (.filtLoad m k) fun u => (∀ i < 8, u.reg (pTSN k) (Off.tsn_FILT_D0 + 4 * i) = wordAt (s.filt f).ws i) ∧ u.net = s.net) ∧
    (bitAt (wordAt (s.filt f).ws 0) 0 = true → s.Answers (.filtStore m k) fun u => u.Faulted (pTSN k) 0 ∧ u.net = s.net) ∧
    (bitAt (wordAt (s.filt f).ws 0) 0 = false →
      (s.fld (pTSN k) Off.tsn_FILT_D0 4 16 = 0 → s.Answers (.filtStore m k) fun u => u.Faulted (pTSN k) 9 ∧ u.net = s.net) ∧
      (s.fld (pTSN k) Off.tsn_FILT_D0 4 16 ≠ 0 → s.fld (pTSN k) Off.tsn_FILT_D0 24 4 < 8 → s.Answers (.filtStore m k) fun u =>
        (∀ i < 8, i ≠ 3 → wordAt (u.filt f).ws i = s.reg (pTSN k) (Off.tsn_FILT_D0 + 4 * i)) ∧
        wordAt (u.filt f).ws 3 = setBit (s.reg (pTSN k) (Off.tsn_FILT_D0 + 12)) 15 false ∧
        u.reg (pTSN k) Off.tsn_FILT_STAT = 0 ∧ ∀ g, g ≠ f → u.filt g = s.filt g)) ∧
    (s.Answers (.clearBlock m k) fun u => bitAt (wordAt (u.filt f).ws 3) 15 = false ∧ (∀ i < 8, i ≠ 3 →
      wordAt (u.filt f).ws i = wordAt (s.filt f).ws i) ∧ u.regs = s.regs) ∧
    (s.Answers (.recLoad m k) fun u => u.reg (pTSN k) Off.tsn_REC_D0 = (s.rcv r).d0 ∧ u.net = s.net ∧
      ∀ i, 1 ≤ i → i < 8 → u.reg (pTSN k) (Off.tsn_REC_D0 + 4 * i) = wd ((s.rcv r).cnt.getD i 0)) ∧
    (bitAt (s.rcv r).d0 0 = true → s.Answers (.recStore m k) fun u => u.Faulted (pTSN k) 0 ∧ u.net = s.net) ∧
    (bitAt (s.rcv r).d0 0 = false → s.Answers (.recStore m k) fun u =>
      (u.rcv r).d0 = s.reg (pTSN k) Off.tsn_REC_D0 ∧ (u.rcv r).any = true ∧ u.regs = s.regs ∧ ∀ g, g ≠ r → u.rcv g = s.rcv g) ∧
    (s.Answers (.recReset m k) fun u => (u.rcv r).any = true ∧ (u.rcv r).hist = [] ∧ u.Faulted (pTSN k) 12)) ∧
  (∀ (m : Master) (c : Nat) (s : State), s.Open m (pTSN 0) → c = s.fld (pTSN 0) Off.tsn_FLOW_SEL 0 14 →
    (s.Answers (.flowLoad m) fun u => (∀ i < 24, u.reg (pTSN 0) (Off.tsn_FLOW_D0 + 4 * i) = wordAt (s.scx c) i) ∧ u.qm = s.qm) ∧
    (s.scxKind c = 5 → s.Answers (.flowStore m) fun u => u.Faulted (pTSN 0) 0 ∧ u.qm = s.qm ∧ u.net = s.net) ∧
    (s.scxKind c ≠ 0 → s.scxKind c ≠ 5 → s.Answers (.flowStore m) fun u => u.Faulted (pTSN 0) 0 ∧ u.Faulted (pQM 0) 14 ∧ u.qm = s.qm) ∧
    (s.scxKind c = 0 → s.fld (pTSN 0) Off.tsn_FLOW_D0 0 2 = 3 → s.flowsOn < 4096 → s.Answers (.flowStore m) fun u =>
      u.scxKind c = 5 ∧ u.flowOn c 1 = true ∧ ∀ i < 24, wordAt (u.scx c) i = s.reg (pTSN 0) (Off.tsn_FLOW_D0 + 4 * i)) ∧
    (s.scxKind c = 0 → s.bit (pTSN 0) Off.tsn_FLOW_D0 0 = true → 4096 ≤ s.flowsOn → s.Answers (.flowStore m) fun u =>
      u.Faulted (pTSN 0) 14 ∧ u.qm = s.qm) ∧
    (s.scxKind c ≠ 5 → s.Answers (.flowStop m) fun u => u.Faulted (pTSN 0) 0 ∧ u.qm = s.qm ∧ u.net = s.net) ∧
    (s.scxKind c = 5 → s.Answers (.flowStop m) fun u => u.scxKind c = 0 ∧ u.flow c = {} ∧ bitAt (wordAt (u.scx c) 0) 0 = false))

/-- R404, R405, R408 to R410: what a Sync, a Follow_Up, an Announce, a receipt timeout and the messages of the delay mechanism change, how an
offset of TIME is slewed, confirmed, stepped or refused, and ACCEPT and DISCARD. -/
def Obligations.PtpEngine : Prop :=
  (∀ (i seq sec ns : Nat) (corr : Int) (s : State), s.ptpOn i = true →
    (s.Answers (.ptpSync i seq true sec ns corr) fun u => (u.pport i).syncAt = some s.now ∧ (∃ rx, (u.pport i).two = some (seq, rx, corr)) ∧
      u.tb = s.tb ∧ u.regs = s.regs) ∧
    (s.net.ptp.sel ≠ some i → s.Answers (.ptpSync i seq false sec ns corr) fun u => (u.pport i).syncAt = some s.now ∧
      (∃ rx, (u.pport i).origin = some (s.ptpTime sec ns + corr, rx)) ∧ u.tb = s.tb ∧ u.regs = s.regs) ∧
    (∀ (rx c o : Int), (s.pport i).two = some (seq, rx, c) →
      (s.net.ptp.sel ≠ some i → s.Answers (.ptpFollowUp i seq sec ns corr) fun u =>
        (u.pport i).two = none ∧ (u.pport i).origin = some (s.ptpTime sec ns + c + corr, rx) ∧ u.regs = s.regs) ∧
      (s.net.ptp.sel = some i → o = (rx - (s.ptpTime sec ns + c + corr) - ((s.pport i).delay).getD 0) / 65536 →
        s.bit pTIMEBASE Off.timebase_TIME_STAT 0 = true → s.net.ptp.accept = false → s.servo = 2 ∨ s.servo = 3 →
        (o.natAbs ≤ (s.reg pPTP Off.ptp_SLEW_LIMIT).toNat → s.Answers (.ptpFollowUp i seq sec ns corr) fun u =>
          u.tb.time = s.tb.time ∧ u.reg pPTP Off.ptp_OFFSET = wd (unsigned 32 (satS 32 o)) ∧
          (signed 32 (u.reg pTIMEBASE Off.timebase_RATE_ADJ).toNat).natAbs ≤ s.fld pPTP Off.ptp_SERVO_CFG 16 10 * 65536) ∧
        ((s.reg pPTP Off.ptp_SLEW_LIMIT).toNat < o.natAbs → o.natAbs ≤ (s.reg pPTP Off.ptp_STEP_LIMIT).toNat →
          s.net.ptp.first = none → 1 < s.fld pPTP Off.ptp_CONFIRM 0 8 → s.Answers (.ptpFollowUp i seq sec ns corr) fun u =>
            u.tb.time = s.tb.time ∧ u.net.ptp.first = some o ∧ u.servo = 2 ∧ u.fld pPTP Off.ptp_STAT 8 8 = 1) ∧
        ((s.reg pPTP Off.ptp_SLEW_LIMIT).toNat < o.natAbs → o.natAbs ≤ (s.reg pPTP Off.ptp_STEP_LIMIT).toNat →
          s.fld pPTP Off.ptp_CONFIRM 0 8 ≤ 1 → 0 ≤ (s.tb.time : Int) - o * 65536 → s.Answers (.ptpFollowUp i seq sec ns corr) fun u =>
            (u.tb.time : Int) = s.tb.time - o * 65536 ∧ u.Faulted pPTP 11 ∧ u.servo = 2) ∧
        ((s.reg pPTP Off.ptp_SLEW_LIMIT).toNat < o.natAbs → (s.reg pPTP Off.ptp_STEP_LIMIT).toNat < o.natAbs → s.net.ptp.range = none →
          1 < s.fld pPTP Off.ptp_CONFIRM 0 8 → s.Answers (.ptpFollowUp i seq sec ns corr) fun u =>
            u.tb.time = s.tb.time ∧ u.Faulted pPTP 10 ∧ u.net.ptp.range = some (o, o) ∧ u.servo = 2 ∧
            u.fld pPTP Off.ptp_CNT_REFUSED 0 16 = min 65535 (s.fld pPTP Off.ptp_CNT_REFUSED 0 16 + 1))))) ∧
  (∀ (i : Nat) (a : PtpAnnounce) (s : State), s.ptpOn i = true → s.ptpProfile = 2 →
    (∀ j < 4, j ≠ i → s.ptpQualified j = true → ∃ b, (s.pport j).ann = some b ∧ annBetter a b = true ∧ annBetter b a = false) →
    s.net.ptp.sel ≠ some i → s.Answers (.ptpAnnounce i a) fun u => (u.pport i).ann = some a ∧ (u.pport i).annAt = s.now ∧
      u.net.ptp.sel = some i ∧ u.reg64 pPTP Off.ptp_GM_ID_LO (Off.ptp_GM_ID_LO + 4) = a.identity % 2 ^ 64 ∧ u.fld pPTP Off.ptp_STAT 4 2 = i) ∧
  (∀ (i : Nat) (sync : Bool) (a : PtpAnnounce) (s : State), s.ptpOn i = true → (s.pport i).ann = some a →
    (if sync then (s.pport i).syncAt.getD (s.pport i).annAt + s.fld pPTP Off.ptp_TIMEOUTS 0 4 * s.ptpInterval 0
      else (s.pport i).annAt + s.fld pPTP Off.ptp_TIMEOUTS 4 4 * s.ptpInterval 8) ≤ s.now →
    s.Answers (.ptpReceiptTimeout i sync) fun u => (u.pport i).ann = none ∧ (u.pport i).two = none ∧ u.net.ptp.sel ≠ some i) ∧
  (∀ (i : Nat) (s : State), s.ptpOn i = true → s.linkUp (s.ptpMac i) = true → s.Answers (.ptpPdelayTimer i) fun u =>
    (u.pport i).seq = ((s.pport i).seq + 1) % 65536 ∧ (∃ t, (u.pport i).req = some (((s.pport i).seq + 1) % 65536, t)) ∧
    (u.pport i).sent = [(if s.ptpProfile = 2 then 1 else 2, ((s.pport i).seq + 1) % 65536)] ∧
    u.fld (pMAC (s.ptpMac i)) Off.mac_CNT_TX 0 32 = min (2 ^ 32 - 1) (s.fld (pMAC (s.ptpMac i)) Off.mac_CNT_TX 0 32 + 1)) ∧
  (∀ (i seq sec ns : Nat) (turn t1 : Int) (s : State), s.ptpOn i = true → (s.pport i).req = some (seq, t1) → s.ptpProfile ≠ 2 →
    s.Answers (.ptpPdelayResp i seq turn sec ns) fun u => (u.pport i).req = none ∧ ∃ d, (u.pport i).delay = some d ∧
      u.reg pPTP (Off.ptp_MEAN_DELAY0 + 4 * i) = wd (max 0 (d / 65536)).toNat ∧
      (((s.reg pPTP Off.ptp_NEIGHBOR_THR).toNat * 65536 : Nat) < d → u.Faulted pPTP 12)) ∧
  (∀ (i seq : Nat) (s : State), s.ptpOn i = true → s.ptpProfile ≠ 2 → s.linkUp (s.ptpMac i) = true →
    s.Answers (.ptpPdelayReqReceived i seq) fun u =>
      (u.pport i).sent = (if s.bit pPTP Off.ptp_CFG 3 then [(3, seq)] else [(3, seq), (10, seq)]) ∧ u.tb = s.tb) ∧
  (∀ (m : Master) (s : State), s.Open m pPTP →
    (s.servo ≠ 4 →
      (s.Answers (.accept m) fun u => u.Faulted pPTP 0 ∧ u.net = s.net) ∧ (s.Answers (.discard m) fun u => u.Faulted pPTP 0 ∧ u.net = s.net)) ∧
    (s.servo = 4 →
      (s.Answers (.accept m) fun u => u.net.ptp.accept = true ∧ u.servo = 2) ∧
      (s.Answers (.discard m) fun u => u.net.ptp.range = none ∧ u.fld pPTP Off.ptp_STAT 8 8 = 0 ∧ u.servo = 4)))

/-! ## Storage -/

/-- R45, R413 to R415, R417, R419: EN of a root port, the end of an initialisation, an NVMe completion, the two timeouts and the fatal status
that end in RECOVERY, and a lane that fails, of a root port or of the endpoint. -/
def Obligations.RootPortsAndSsds : Prop :=
  (∀ (m : Master) (k : Nat) (v : Word) (s : State), k < 8 → s.Open m (pNVMH k) →
    (bitAt v 0 = true → s.bit (pNVMH k) Off.nvmh_CFG 0 = false → s.Answers (.nvmhEnable m k v) fun u =>
      u.ssdState k = 1 ∧ u.bit (pNVMH k) Off.nvmh_CFG 0 = true ∧ (u.ssd k).tries = 0 ∧ (u.ssd k).badLanes = 0) ∧
    (bitAt v 0 = false → s.bit (pNVMH k) Off.nvmh_CFG 0 = true → s.Answers (.nvmhDisable m k v) fun u =>
      u.ssdState k = 0 ∧ u.bit (pNVMH k) Off.nvmh_CFG 0 = false ∧ u.bit (pNVMH k) Off.nvmh_LINK 4 = false ∧
      u.stor.cmds = s.stor.cmds.map fun c => if c.dev = k then { c with at_ := none, abort := none } else c)) ∧
  (∀ (k speed width queues cap : Nat) (rev vwc lba4k : Bool) (s : State), k < 8 → s.alive (pNVMH k) = true →
    s.ssdState k = 1 ∨ s.ssdState k = 3 →
    (s.Answers (.ssdInitDone k 0 speed width rev vwc lba4k queues cap) fun u => u.ssdState k = 2 ∧ (u.ssd k).tries = 0 ∧
      u.fld (pNVMH k) Off.nvmh_LINK 0 2 = min speed (s.fld (pNVMH k) Off.nvmh_CFG 1 2) ∧
      u.fld (pNVMH k) Off.nvmh_LINK 2 2 = min width (s.fld (pNVMH k) Off.nvmh_CFG 3 2) ∧ u.bit (pNVMH k) Off.nvmh_LINK 4 = true ∧
      u.bit (pNVMH k) Off.nvmh_LINK 5 = rev ∧ u.bit (pNVMH k) Off.nvmh_SSD_STAT 3 = vwc ∧
      u.bit (pNVMH k) Off.nvmh_SSD_STAT 4 = lba4k ∧ u.fld (pNVMH k) Off.nvmh_SSD_STAT 5 5 = min 16 queues ∧
      u.reg64 (pNVMH k) Off.nvmh_CAP_LO (Off.nvmh_CAP_LO + 4) = cap % 2 ^ 64) ∧
    (s.Answers (.ssdInitDone k 1 speed width rev vwc lba4k queues cap) fun u => u.ssdState k = 5 ∧ u.Faulted (pNVMH k) 13 ∧ u.stor = s.stor) ∧
    ((s.ssd k).tries = 0 → s.Answers (.ssdInitDone k 2 speed width rev vwc lba4k queues cap) fun u => u.ssdState k = 1 ∧ (u.ssd k).tries = 1) ∧
    ((s.ssd k).tries = 1 → s.Answers (.ssdInitDone k 2 speed width rev vwc lba4k queues cap) fun u => u.ssdState k = 4 ∧ u.Faulted (pNVMH k) 12)) ∧
  (∀ (k status cor uncor temp : Nat) (c : NvmeCmd) (s : State), k < 8 → s.alive (pNVMH k) = true →
    (s.ssdState k = 2 → dueAgain (s.ssd k).healthAt 2500000000 s.now = true → s.Answers (.nvmeCompletion k 0 status cor uncor temp) fun u => u.fld (pNVMH k) Off.nvmh_TEMP 0 16 = temp % 65536 ∧
      u.fld (pNVMH k) Off.nvmh_CNT_PCIE 0 16 = min 65535 (s.fld (pNVMH k) Off.nvmh_CNT_PCIE 0 16 + cor) ∧
      (u.ssd k).healthAt = some s.now ∧ u.stor.cmds = s.stor.cmds ∧ u.stor.media = s.stor.media) ∧
    (s.stor.cmds = [c] → c.id ≠ 0 → c.dev = k → c.at_.isSome = true →
      (∀ o, s.op c.op = some o → c.kind ≠ 0 → s.Answers (.nvmeCompletion k c.id 0 cor uncor temp) fun u =>
        u.stor.media = ⟨c.dev, c.first, c.count, o.content (s.ns o.nsid) c.idx⟩ :: s.stor.media) ∧
      (∀ o q tag x e, s.stor.ops = [o] → c.op = o.id → o.owner = .cti q tag → o.acked = false → o.buf = 0 → o.failed = [] → o.copies = [c.copy] →
        s.ctiQ q = some x → x.failed = false → s.ctiCmd q tag = some e →
        (s.Answers (.nvmeCompletion k c.id 0 cor uncor temp) fun u => u.stor.ops = [] ∧ u.ctiCmd q tag = none ∧
          ∃ y, u.ctiQ q = some y ∧ ∃ p ∈ y.posts, p.tag = tag ∧ p.status = 0 ∧ p.result = o.count) ∧
        (s.Answers (.nvmeCompletion k c.id 2 cor uncor temp) fun u => u.stor.ops = [] ∧
          ∃ y, u.ctiQ q = some y ∧ ∃ p ∈ y.posts, p.tag = tag ∧ p.status = 11)) ∧
      (c.retried = false → s.Answers (.nvmeCompletion k c.id 1 cor uncor temp) fun u =>
        u.stor.cmds = [{ c with retried := true, at_ := some s.now, abort := none }] ∧ u.stor.media = s.stor.media) ∧
      (c.retried = true → s.Answers (.nvmeCompletion k c.id 1 cor uncor temp) fun u => u.Faulted (pNVMH k) 14 ∧
        u.fld (pNVMH k) Off.nvmh_CNT_ERR 0 16 = min 65535 (s.fld (pNVMH k) Off.nvmh_CNT_ERR 0 16 + 1)))) ∧
  (∀ (k t : Nat) (c : NvmeCmd) (s : State), k < 8 → s.alive (pNVMH k) = true → s.stor.cmds = [c] → c.dev = k →
    (c.abort = none → c.at_ = some t → t + s.fld (pNVMH k) Off.nvmh_CMD_TO 0 16 * 250000 < s.now → s.Answers (.nvmeCmdTimeout k c.id) fun u =>
      u.stor.cmds = [{ c with abort := some s.now }] ∧ u.Faulted (pNVMH k) 10 ∧
      u.fld (pNVMH k) Off.nvmh_CNT_ERR 16 16 = min 65535 (s.fld (pNVMH k) Off.nvmh_CNT_ERR 16 16 + 1)) ∧
    (c.abort = some t → s.ssdState k = 2 → t + s.fld (pNVMH k) Off.nvmh_CMD_TO 0 16 * 250000 < s.now →
      s.Answers (.nvmeAbortTimeout k c.id) fun u => u.ssdState k = 3 ∧ u.Faulted (pNVMH k) 11 ∧
        u.stor.cmds = [{ c with at_ := none, abort := none }]) ∧
    (s.ssdState k = 2 → s.Answers (.cstsCfs k) fun u => u.ssdState k = 3 ∧ u.Faulted (pNVMH k) 11 ∧
      u.stor.cmds = [{ c with at_ := none, abort := none }] ∧
      u.fld (pNVMH k) Off.nvmh_CNT_RESET 0 16 = min 65535 (s.fld (pNVMH k) Off.nvmh_CNT_RESET 0 16 + 1))) ∧
  (∀ (k lane : Nat) (s : State), k < 8 → lane < 4 → s.alive (pNVMH k) = true → s.bit (pNVMH k) Off.nvmh_LINK 4 = true →
    ((s.ssd k).badLanes = 0 → s.Answers (.pcieLaneFail k lane) fun u => (u.ssd k).badLanes = 2 ^ lane ∧
      u.fld (pNVMH k) Off.nvmh_LINK 2 2 = min 1 (s.fld (pNVMH k) Off.nvmh_LINK 2 2) ∧
      u.bit (pNVMH k) Off.nvmh_LINK 5 = decide (lane < 2) ∧ u.Faulted (pNVMH k) 9 ∧ u.ssdState k = s.ssdState k ∧
      u.stor.cmds = s.stor.cmds.map fun c => if c.dev = k ∧ c.at_.isSome then { c with at_ := some s.now } else c) ∧
    ((s.ssd k).badLanes = 9 → lane = 1 ∨ lane = 2 → s.ssdState k = 2 → s.Answers (.pcieLaneFail k lane) fun u =>
      u.bit (pNVMH k) Off.nvmh_LINK 4 = false ∧ u.Faulted (pNVMH k) 8 ∧ u.ssdState k = 3)) ∧
  (∀ (lane : Nat) (s : State), lane < 16 → s.mainOn = true → s.Answers (.pcieLaneFail 8 lane) fun u =>
    u.plat.epBad = Nat.lor s.plat.epBad (2 ^ lane) ∧ u.plat.epWidth = min s.plat.epWidth (endpointWidth u.plat.epBad) ∧ u.regs = s.regs ∧
    u.stor = s.stor)

/-- R416 to R418, R421, R426 to R429, R440, R441, R443: namespaces, a dirty region's end, recording sessions with their items and index, and
a part of a format. -/
def Obligations.NamespacesAndSessions : Prop :=
  (∀ (m : Master) (k : Nat) (s : State), s.Open m pCTI → k = s.nsSel →
    (s.Answers (.nsLoad m) fun u => (∀ i < 8, u.reg pCTI (Off.cti_NS_D0 + 4 * i) = wordAt (s.ns k).desc i) ∧ u.stor = s.stor) ∧
    (k = 0 ∨ 64 < k ∨ (s.ns k).en = true → s.Answers (.nsStore m) fun u => u.Faulted pCTI 0 ∧ u.stor = s.stor) ∧
    (k ≠ 0 → k ≤ 64 → (s.ns k).en = false → s.bit pCTI Off.cti_NS_D0 0 = false → s.Answers (.nsStore m) fun u =>
      (u.ns k).desc = s.regs32 pCTI Off.cti_NS_D0 8 ∧ (u.ns k).en = false) ∧
    (k ≠ 0 → k ≤ 64 → (s.ns k).en = false → s.bit pCTI Off.cti_NS_D0 0 = true →
      (s.nsReason k { desc := s.regs32 pCTI Off.cti_NS_D0 8 } = 0 → s.Answers (.nsStore m) fun u =>
        (u.ns k).en = true ∧ (u.ns k).desc = s.regs32 pCTI Off.cti_NS_D0 8 ∧ u.reg pCTI Off.cti_NS_CMD_STAT = 0) ∧
      (∀ r, r = s.nsReason k { desc := s.regs32 pCTI Off.cti_NS_D0 8 } → r ≠ 0 → s.Answers (.nsStore m) fun u => u.Faulted pCTI 8 ∧
        (r = 4 → u.Faulted pCTI 14) ∧ u.reg pCTI Off.cti_NS_CMD_STAT = wd (2 + r * 16) ∧ u.stor = s.stor) ∧
      (s.bit pCTI Off.cti_NS_D0 3 = false → (∀ d < 8, s.bit pCTI Off.cti_NS_D0 (8 + d) = false) → s.Answers (.nsStore m) fun u =>
        u.Faulted pCTI 8 ∧ u.reg pCTI Off.cti_NS_CMD_STAT = 18)) ∧
    ((s.ns k).en = false ∨ s.nsRecording k = true ∨ (s.prog k).isSome = true → s.Answers (.nsDisable m) fun u =>
      u.Faulted pCTI 0 ∧ u.stor = s.stor) ∧
    ((s.ns k).en = true → s.nsRecording k = false → s.prog k = none → 1 ≤ k → k ≤ 64 →
      (s.stor.ops = [] → s.stor.cmds = [] → s.stor.queue = [] → s.Answers (.nsDisable m) fun u => (u.ns k).en = false ∧
        u.bit pCTI Off.cti_NS_CMD_STAT 0 = false ∧ ∀ j, j ≠ k → (s.ns j).disabling = false → u.ns j = s.ns j) ∧
      (∀ o c, s.stor.ops = [o] → s.stor.cmds = [c] → o.nsid = k → c.op = o.id → o.buf = 0 → s.Answers (.nsDisable m) fun u =>
        (u.ns k).en = true ∧ (u.ns k).disabling = true ∧ u.stor.ops = [o]))) ∧
  (∀ (k r b : Nat) (s : State), s.alive pCTI = true → (s.ns k).en = true → r * 16384 < (s.ns k).size → b = (s.ns k).bitmap + r →
    (s.dirtyAt b).set_ = true → (s.dirtyAt b).old = false → s.stor.ops = [] →
    (s.now < (s.dirtyAt b).last + s.fld pCTI Off.cti_CLEAN_MS 0 16 * 250000 → s.Answers (.dirtyCleanTimeout k r) fun u => u = s) ∧
    ((s.dirtyAt b).last + s.fld pCTI Off.cti_CLEAN_MS 0 16 * 250000 ≤ s.now → s.Answers (.dirtyCleanTimeout k r) fun u =>
      (u.dirtyAt b).set_ = false ∧ ∀ j, j ≠ b → u.dirtyAt j = s.dirtyAt j)) ∧
  (∀ (m : Master) (c : Nat) (s : State) (ws : Words), s.Open m pCTI → c = s.recSel → ws = s.regs32 pCTI Off.cti_REC_D0 8 →
    (s.Answers (.recSessLoad m) fun u => (∀ i < 8, i < (s.scx c).length → u.reg pCTI (Off.cti_REC_D0 + 4 * i) = wordAt (s.scx c) i) ∧ u.qm = s.qm) ∧
    (s.scxKind c ≠ 0 → s.scxKind c ≠ 6 → s.Answers (.recSessStore m) fun u => u.Faulted pCTI 0 ∧ u.Faulted (pQM 0) 14 ∧ u.qm = s.qm) ∧
    (s.scxKind c = 6 → s.Answers (.recSessStore m) fun u => u.Faulted pCTI 0 ∧ u.qm = s.qm ∧ u.stor = s.stor) ∧
    (s.scxKind c = 0 → bitAt (wordAt ws 0) 0 = true →
      (s.nsState (wfld (wordAt ws 0) 1 7) ≠ 1 → s.nsState (wfld (wordAt ws 0) 1 7) ≠ 2 → s.Answers (.recSessStore m) fun u =>
        u.Faulted pCTI 9 ∧ u.reg pCTI Off.cti_REC_CMD_STAT = 2 ∧ u.qm = s.qm ∧ u.stor = s.stor) ∧
      (64 ≤ s.recSessions.length → s.Answers (.recSessStore m) fun u => u.Faulted pCTI 9 ∧ u.qm = s.qm) ∧
      (areasMeet (recAreas ws).1 (recAreas ws).2 = true → s.Answers (.recSessStore m) fun u => u.Faulted pCTI 9 ∧ u.qm = s.qm) ∧
      (s.nsState (wfld (wordAt ws 0) 1 7) = 1 → s.recSessions = [] → areasMeet (recAreas ws).1 (recAreas ws).2 = false →
        (recAreas ws).1.1 + (recAreas ws).1.2 ≤ (s.ns (wfld (wordAt ws 0) 1 7)).size →
        (recAreas ws).2.1 + (recAreas ws).2.2 ≤ (s.ns (wfld (wordAt ws 0) 1 7)).size →
        s.qValid (wfld (wordAt ws 1) 0 20) = true → s.qValid (wfld (wordAt ws 2) 0 20) = true → s.Answers (.recSessStore m) fun u =>
          u.scxKind c = 6 ∧ u.sess c = {} ∧ u.reg pCTI Off.cti_REC_CMD_STAT = 0 ∧ ∀ i < 8, wordAt (u.scx c) i = wordAt ws i)) ∧
    (s.scxKind c ≠ 6 → s.Answers (.recSessStop m) fun u => u.Faulted pCTI 0 ∧ u.qm = s.qm ∧ u.stor = s.stor) ∧
    (s.scxKind c = 6 →
      ((s.sess c).items = [] → s.Answers (.recSessStop m) fun u => u.scxKind c = 0 ∧ u.sess c = {}) ∧
      ((s.sess c).items ≠ [] → s.Answers (.recSessStop m) fun u => u.scxKind c = 6 ∧ u.sess c = { s.sess c with stopping := true }))) ∧
  (∀ (c a b bytes frame flags : Nat) (d : Words) (s : State), s.alive pCTI = true → s.scxKind c = 6 → s.stor.ops = [] → s.stor.cmds = [] →
    (s.sess c).stopping = true ∨ (s.sess c).full = true ∨ ((s.take (wfld (wordAt (s.scx c) 1) 0 20)).1 = some d ∧
      (recRead (bitAt (wordAt (s.scx c) 0) 9) d).1 = a ∧ (recRead (bitAt (wordAt (s.scx c) 0) 9) d).2.1 = bytes ∧
      (recRead (bitAt (wordAt (s.scx c) 0) 9) d).2.2.1 = frame ∧ (recRead (bitAt (wordAt (s.scx c) 0) 9) d).2.2.2.1 = flags ∧
      b = (bytes + 4095) / 4096) →
    ((s.sess c).stopping = true ∨ (s.sess c).full = true → s.Answers (.recItemTake c) fun u => u = s) ∧
    ((s.sess c).stopping = false → (s.sess c).full = false → (s.sess c).entries.length < 127 →
      ((recRead (bitAt (wordAt (s.scx c) 0) 9) d).2.2.2.2 = true ∨ bytes = 0 → s.Answers (.recItemTake c) fun u =>
        (u.sess c).count = (s.sess c).count + 1 ∧ (u.sess c).data = (s.sess c).data ∧ (u.sess c).entries = (s.sess c).entries ++
          [leWords 2 0 ++ [0, wd frame] ++ leWords 2 s.timeNs ++ [wd (flags % 65536 + 2 ^ 18), wd ((s.sess c).count + 1)]]) ∧
      ((recRead (bitAt (wordAt (s.scx c) 0) 9) d).2.2.2.2 = false → (recAreas (s.scx c)).1.2 < b → s.Answers (.recItemTake c) fun u =>
        (u.sess c).data = (s.sess c).data ∧ (u.sess c).entries = (s.sess c).entries ++
          [leWords 2 0 ++ [wd bytes, wd frame] ++ leWords 2 s.timeNs ++ [wd (flags % 65536 + 2 ^ 17), wd ((s.sess c).count + 1)]]) ∧
      ((recRead (bitAt (wordAt (s.scx c) 0) 9) d).2.2.2.2 = false → bytes ≠ 0 → b ≤ (recAreas (s.scx c)).1.2 →
        (recAreas (s.scx c)).1.2 < (s.sess c).data + b → bitAt (wordAt (s.scx c) 0) 8 = false → s.Answers (.recItemTake c) fun u =>
          (u.sess c).full = true ∧ u.Faulted pCTI 12 ∧ u.qm = s.qm ∧ (u.sess c).entries = (s.sess c).entries) ∧
      ((recRead (bitAt (wordAt (s.scx c) 0) 9) d).2.2.2.2 = false → bytes ≠ 0 → (s.sess c).data + b ≤ (recAreas (s.scx c)).1.2 →
        s.Answers (.recItemTake c) fun u => (u.sess c).data = (s.sess c).data + b ∧ (u.sess c).count = (s.sess c).count + 1 ∧
          (u.sess c).entries = (s.sess c).entries ++ [leWords 2 ((recAreas (s.scx c)).1.1 + (s.sess c).data) ++ [wd bytes, wd frame] ++
            leWords 2 s.timeNs ++ [wd (flags % 65536), wd ((s.sess c).count + 1)]]))) ∧
  (∀ (c : Nat) (s : State), s.alive pCTI = true → s.scxKind c = 6 → (s.sess c).covered < (s.sess c).entries.length →
    (s.now < (s.sess c).since + 250000 → s.Answers (.indexFlushTimeout c) fun u => u = s) ∧
    ((s.sess c).since + 250000 ≤ s.now → s.Answers (.indexFlushTimeout c) fun u =>
      (u.sess c).covered = (s.sess c).entries.length ∧ (u.sess c).entries = (s.sess c).entries)) ∧
  (∀ (c : Nat) (i : RecItem) (rest : List RecItem) (s : State), s.alive pCTI = true → s.scxKind c = 6 → (s.sess c).items = i :: rest →
    (i.dataOk = false ∨ i.idxOk = false → s.Answers (.recItemReturn c) fun u => u = s) ∧
    (i.dataOk = true → i.idxOk = true → (s.sess c).stopping = false → s.Answers (.recItemReturn c) fun u =>
      u.sess c = { s.sess c with items := rest } ∧ u.scxKind c = 6) ∧
    (i.dataOk = true → i.idxOk = true → (s.sess c).stopping = true → rest = [] → s.Answers (.recItemReturn c) fun u =>
      u.scxKind c = 0 ∧ u.sess c = {})) ∧
  (∀ (k : Nat) (p : Progress) (s : State), s.alive pCTI = true → 1 ≤ k → k ≤ 64 → s.prog k = some p → p.running = true →
    (p.partDone = false → s.Answers (.formatPartDone k) fun u => u = s) ∧
    (p.partDone = true → s.stor.ops = [] → s.stor.cmds = [] →
      (p.done + 1 = 256 → s.Answers (.formatPartDone k) fun u => u.prog k = none ∧ u.stor.media = s.stor.media) ∧
      (p.done + 1 < 256 → (s.ns k).size = 0 → s.Answers (.formatPartDone k) fun u =>
        u.prog k = some { p with done := p.done + 1, partDone := true, segs := [] })))

/-- R419, R420, R421, R424, R431 to R442: the Clip Target Interface, from EN and the doorbells over fetch and the commands to the completion
and its vector. -/
def Obligations.ClipTarget : Prop :=
  (∀ (v : Word) (s : State), s.alive pCTI = true →
    (bitAt v 0 = true → s.stor.state = 0 → s.stor.prog = [] → s.stor.dirty = [] → s.stor.ops = [] → s.stor.cmds = [] → s.stor.closing = false →
      s.Answers (.ctiEnable v) fun u => u.stor.state = 2 ∧ ∃ x, u.ctiQ 0 = some x ∧
        x.sq = s.reg64 pWIN Off.ctiWin_AQ_SQ_LO (Off.ctiWin_AQ_SQ_LO + 4) ∧ x.cq = s.reg64 pWIN Off.ctiWin_AQ_CQ_LO (Off.ctiWin_AQ_CQ_LO + 4) ∧
        x.sqSize = s.fld pWIN Off.ctiWin_AQ_SIZE 0 12 + 1 ∧ x.cqSize = s.fld pWIN Off.ctiWin_AQ_SIZE 16 12 + 1 ∧ x.cmds = [] ∧ x.phase = true) ∧
    (bitAt v 0 = true → s.stor.state = 1 ∨ s.stor.state = 2 → s.Answers (.ctiEnable v) fun u => u.stor = s.stor) ∧
    (bitAt v 0 = false → s.stor.state = 2 → s.stor.queue = [] → s.stor.ops = [] → s.Answers (.ctiDisable v) fun u => u.stor.state = 0) ∧
    (s.stor.state = 3 → (s.Answers (.ctiEnable v) fun u => u = s) ∧ (s.Answers (.ctiDisable v) fun u => u = s))) ∧
  (∀ (q : Nat) (v : Word) (x : CtiQueue) (s : State), s.ctiLive = true →
    (s.ctiQ q = none → (s.Answers (.sqTail q v) fun u => u.Faulted pCTI 10 ∧ u.stor = s.stor) ∧
      (s.Answers (.cqHead q v) fun u => u.Faulted pCTI 10 ∧ u.stor = s.stor)) ∧
    (s.ctiQ q = some x →
      (wfld v 0 12 < x.sqSize → s.Answers (.sqTail q v) fun u => u.ctiQ q = some { x with tail := wfld v 0 12 } ∧ u.regs = s.regs) ∧
      (x.sqSize ≤ wfld v 0 12 → s.Answers (.sqTail q v) fun u => u.ctiQ q = some { x with failed := true } ∧ u.Faulted pCTI 10) ∧
      (wfld v 0 12 < x.cqSize → (wfld v 0 12 + x.cqSize - x.cqHead) % x.cqSize ≤ (x.cqTail + x.cqSize - x.cqHead) % x.cqSize →
        s.Answers (.cqHead q v) fun u => u.ctiQ q = some { x with cqHead := wfld v 0 12 } ∧ u.regs = s.regs) ∧
      (x.cqSize ≤ wfld v 0 12 ∨ (x.cqTail + x.cqSize - x.cqHead) % x.cqSize < (wfld v 0 12 + x.cqSize - x.cqHead) % x.cqSize →
        s.Answers (.cqHead q v) fun u => u.ctiQ q = some { x with failed := true } ∧ u.Faulted pCTI 10))) ∧
  (∀ (q tag : Nat) (ws : Words) (segs : List (Nat × Nat × Nat)) (err : Bool) (x : CtiQueue) (s : State), s.ctiLive = true → s.ctiQ q = some x →
    tag = wfld (wordAt ws 0) 8 5 →
    (x.failed = true ∨ x.deleting = true ∨ x.fetch = x.tail → s.Answers (.ctiCommandFetch q ws segs err) fun u => u = s) ∧
    (x.failed = false → x.deleting = false → x.fetch ≠ x.tail → (∃ t < 32, s.tagInUse q t = false) →
      (s.tagInUse q tag = true → s.Answers (.ctiCommandFetch q ws segs err) fun u => u.ctiQ q = some { x with
        fetch := (x.fetch + 1) % x.sqSize, posts := x.posts ++ [{ tag := tag, status := 5, dup := true, nsid := cmdNs ws }] }) ∧
      (s.tagInUse q tag = false → err = true → s.Answers (.ctiCommandFetch q ws segs err) fun u => u.Faulted pCTI 13 ∧
        u.ctiQ q = some { x with fetch := (x.fetch + 1) % x.sqSize, posts := x.posts ++ [{ tag := tag, status := 10, nsid := cmdNs ws }] }) ∧
      (s.tagInUse q tag = false → err = false → opListed q (wfld (wordAt ws 0) 0 8) = false → s.Answers (.ctiCommandFetch q ws segs err) fun u =>
        u.ctiQ q = some { x with fetch := (x.fetch + 1) % x.sqSize, posts := x.posts ++ [{ tag := tag, status := 1, nsid := cmdNs ws }] }) ∧
      (s.tagInUse q tag = false → err = false → s.formatStatus q ws segs = 0 → s.stateStatus ws = 0 →
        wfld (wordAt ws 0) 0 8 = 1 ∨ wfld (wordAt ws 0) 0 8 = 2 ∨ wfld (wordAt ws 0) 0 8 = 4 → s.Answers (.ctiCommandFetch q ws segs err) fun u =>
          u.ctiQ q = some { x with fetch := (x.fetch + 1) % x.sqSize, cmds := x.cmds ++ [{ tag := tag, ws := ws, segs := segs }] }))) ∧
  (∀ (q tag d k lba n : Nat) (data : List Byte) (c : CtiCmd) (s : State), s.stor.ops = [] → s.stor.cmds = [] → d < 8 →
    s.alive (pNVMH d) = true → s.ssdState d = 2 → 0 < s.fld (pNVMH d) Off.nvmh_SSD_STAT 5 5 → k = cmdNs c.ws → lba = dwordAt c.ws 2 → 0 < n →
    n = (wordAt c.ws 4).toNat → (s.ns k).mirror = false → (s.ns k).ssds = [d] → (s.ns k).lost = [] →
    (s.ctiReady q tag 1 = some c → s.Answers (.read q tag) fun u =>
      u.stor.cmds = [{ id := s.stor.next + 1, dev := d, copy := 0, idx := 0, kind := 0, first := (s.ns k).base + lba, count := n,
                       op := s.stor.next, at_ := some s.now }] ∧
      u.stor.ops = [{ id := s.stor.next, owner := .cti q tag, kind := 0, nsid := k, lba := lba, count := n, data := .pattern 0, copies := [0] }]) ∧
    (s.ctiReady q tag 4 = some c → s.Answers (.trim q tag) fun u =>
      u.stor.cmds = [{ id := s.stor.next + 1, dev := d, copy := 0, idx := 0, kind := 2, first := (s.ns k).base + lba, count := n,
                       op := s.stor.next, at_ := some s.now }] ∧ u.stor.media = s.stor.media) ∧
    (s.ctiReady q tag 2 = some c → bitAt (wordAt (s.ns k).desc 0) 2 = false → s.Answers (.write q tag data false) fun u =>
      u.stor.cmds = [{ id := s.stor.next + 1, dev := d, copy := 0, idx := 0, kind := 1, first := (s.ns k).base + lba, count := n,
                       op := s.stor.next, at_ := some s.now }] ∧
      u.stor.ops = [{ id := s.stor.next, owner := .cti q tag, kind := 1, nsid := k, lba := lba, count := n,
                      data := .bytes (fit (α := Byte) (4096 * n) 0 data), copies := [0] }] ∧ u.stor.media = s.stor.media) ∧
    (s.ctiReady q tag 2 = some c → bitAt (wordAt (s.ns k).desc 0) 2 = true → bitAt (wordAt c.ws 0) 16 = false → 4096 * n ≤ s.bufBytes →
      s.dep.pfw = false → s.Answers (.write q tag data false) fun u => (∀ b ∈ (s.ns k).bits lba n, (u.dirtyAt b).set_ = true) ∧
        ∃ o, u.stor.ops = [o] ∧ o.buf = 2 ∧ o.data = .bytes (fit (α := Byte) (4096 * n) 0 data) ∧
          (o.acked = true ↔ ∀ b ∈ (s.ns k).bits lba n, u.dirtyPending b = false))) ∧
  (∀ (q tag : Nat) (data : List Byte) (c : CtiCmd) (x : CtiQueue) (s : State), s.ctiQ q = some x → x.failed = false →
    (s.ctiReady q tag 2 = some c → s.Answers (.write q tag data true) fun u => u.Faulted pCTI 13 ∧ ∃ y, u.ctiQ q = some y ∧
      ∃ p ∈ y.posts, p.tag = tag ∧ p.status = 10) ∧
    (s.ctiReady q tag 3 = some c → (∀ o ∈ s.stor.ops, o.id ∉ c.wait) → s.Answers (.ctiFlush q tag) fun u => ∃ y, u.ctiQ q = some y ∧
      ∃ p ∈ y.posts, p.tag = tag ∧ p.status = 0) ∧
    (s.ctiReady q tag 3 = some c → (∃ o ∈ s.stor.ops, o.id ∈ c.wait) → s.Answers (.ctiFlush q tag) fun u => u = s)) ∧
  (∀ (tag n : Nat) (c : CtiCmd) (x : CtiQueue) (s : State), s.ctiQ 0 = some x → x.failed = false → n = wfld (wordAt c.ws 9) 0 8 → n ≠ 0 →
    (s.ctiReady 0 tag 0x80 = some c → s.Answers (.identify tag) fun u => ∃ y, u.ctiQ 0 = some y ∧ ∃ p ∈ y.posts, p.tag = tag ∧ p.status = 0) ∧
    (s.ctiReady 0 tag 0x84 = some c → s.Answers (.getLog tag) fun u => (∃ y, u.ctiQ 0 = some y ∧ ∃ p ∈ y.posts, p.tag = tag ∧ p.status = 0) ∧
      (n = 1 → bitAt (wordAt c.ws 10) 0 = true → s.stor.ops = [] → u.stor.sums = [] ∧ ∀ e ∈ u.stor.log, e.read = true)) ∧
    (s.ctiReady 0 tag 0x81 = some c → (s.ctiQ n).isSome = true → s.Answers (.createQueue tag) fun u => ∃ y, u.ctiQ 0 = some y ∧
      ∃ p ∈ y.posts, p.tag = tag ∧ p.status = 13) ∧
    (s.ctiReady 0 tag 0x81 = some c → s.ctiQ n = none → s.stor.ops = [] → s.stor.closing = false → s.Answers (.createQueue tag) fun u => u.ctiQ n = some
      { sq := dwordAt c.ws 2, cq := dwordAt c.ws 6, sqSize := wfld (wordAt c.ws 9) 8 12 + 1, cqSize := wfld (wordAt c.ws 10) 0 12 + 1,
        vec := wfld (wordAt c.ws 10) 16 8, aggCount := wfld (wordAt c.ws 11) 0 8, aggUs := wfld (wordAt c.ws 11) 8 16 }) ∧
    (s.ctiReady 0 tag 0x82 = some c → s.ctiQ n = none → s.Answers (.deleteQueue tag) fun u => ∃ y, u.ctiQ 0 = some y ∧
      ∃ p ∈ y.posts, p.tag = tag ∧ p.status = 13) ∧
    (∀ z, s.ctiReady 0 tag 0x82 = some c → x.cmds = [c] → s.ctiQ n = some z → n < 256 → z.deleting = false → z.cmds = [] → z.posts = [] →
      s.stor.ops = [] → s.Answers (.deleteQueue tag) fun u => u.ctiQ n = none ∧ ∃ y, u.ctiQ 0 = some y ∧
        ∃ p ∈ y.posts, p.tag = tag ∧ p.status = 0)) ∧
  (∀ (tag q t : Nat) (c e : CtiCmd) (x y : CtiQueue) (s : State), s.ctiLive = true → s.ctiQ 0 = some x → x.failed = false → x.cmds = [c] →
    x.posts = [] → c.tag = tag → c.abort = none → q ≠ 0 → cmdAbort c.ws = some (q, t) → s.ctiQ q = some y → y.failed = false →
    (s.ctiCmd q t = none → y.posts = [] → s.Answers (.abort tag) fun u => ∃ z, u.ctiQ 0 = some z ∧ ∃ p ∈ z.posts, p.tag = tag ∧ p.status = 9) ∧
    (s.ctiCmd q t = some e → e.begun = false → s.Answers (.abort tag) fun u => u.ctiCmd q t = none ∧ ∃ z, u.ctiQ q = some z ∧
      ∃ p ∈ z.posts, p.tag = t ∧ p.status = 8)) ∧
  (∀ (tag k : Nat) (c : CtiCmd) (x : CtiQueue) (s : State), s.ctiLive = true → s.ctiQ 0 = some x → x.failed = false → x.cmds = [c] → c.tag = tag →
    s.stor.queue = [(0, some x)] → k = cmdNs c.ws →
    (c.begun = false → (wfld (wordAt c.ws 0) 0 8 = 0x85 → s.Answers (.format tag) fun u => u.ctiCmd 0 tag = some { c with begun := true }) ∧
      (wfld (wordAt c.ws 0) 0 8 = 0x86 → s.Answers (.sanitise tag) fun u => u.ctiCmd 0 tag = some { c with begun := true })) ∧
    (∀ p, c.begun = true → (∀ r ∈ s.dep.cocoon, r.rank ≠ 4) → s.stor.ops = [] → s.prog k = some p →
      (wfld (wordAt c.ws 0) 0 8 = 0x85 → s.Answers (.format tag) fun u => (u.ns k).defer = false ∧ (∃ r, u.prog k = some r ∧ r.running = true) ∧
        ∃ y, u.ctiQ 0 = some y ∧ ∃ e ∈ y.posts, e.tag = tag ∧ e.status = 0) ∧
      (wfld (wordAt c.ws 0) 0 8 = 0x86 → s.Answers (.sanitise tag) fun u => (u.ns k).defer = false ∧ (∃ r, u.prog k = some r ∧ r.running = true) ∧
        ∃ y, u.ctiQ 0 = some y ∧ ∃ e ∈ y.posts, e.tag = tag ∧ e.status = 0))) ∧
  (∀ (q : Nat) (x : CtiQueue) (c : CtiPost) (rest : List CtiPost) (s : State), s.ctiLive = true → s.ctiQ q = some x → x.failed = false →
    x.posts = c :: rest → x.deleting = false → s.stor.ops = [] → s.stor.closing = false →
    ((x.cqTail + 1) % x.cqSize = x.cqHead → s.Answers (.ctiCompletionPost q) fun u => u = s) ∧
    ((x.cqTail + 1) % x.cqSize ≠ x.cqHead → s.Answers (.ctiCompletionPost q) fun u =>
      u.ctiQ q = some { x with posts := rest, cqTail := (x.cqTail + 1) % x.cqSize,
                               phase := if x.cqTail + 1 = x.cqSize then !x.phase else x.phase,
                               agg := if x.aggCount ≤ x.agg + 1 then 0 else x.agg + 1, oldest := if x.agg = 0 then s.now else x.oldest } ∧
      (c.nsid = 0 → ∀ i < 16, Map.get (fun _ => (0 : Byte)) u.stor.host (x.cq + 16 * x.cqTail + i) = (leBytes 4 c.result ++ leBytes 2 x.fetch ++
        leBytes 1 q ++ leBytes 1 (c.tag + c.dup.toNat * 32) ++ leBytes 2 (c.status + c.degraded.toNat * 512 + x.phase.toNat * 32768) ++
        leBytes 6 0).getD i 0))) ∧
  (∀ (q : Nat) (x : CtiQueue) (s : State), s.ctiLive = true → s.ctiQ q = some x → x.agg ≠ 0 →
    (s.now < x.oldest + x.aggUs * 250 → s.Answers (.ctiAggTimeout q) fun u => u = s) ∧
    (x.oldest + x.aggUs * 250 ≤ s.now → s.Answers (.ctiAggTimeout q) fun u => u.ctiQ q = some { x with agg := 0 } ∧
      (s.plat.msixEn = true → (Map.get (fun _ => {}) s.plat.msix x.vec).masked = false → u.plat.msgs = s.plat.msgs ++
        [((Map.get (fun _ => {}) s.plat.msix x.vec).addr, (Map.get (fun _ => {}) s.plat.msix x.vec).data)])))

/-! ## Queues and memory controllers -/

/-- R444 to R452, R457, R473: the Q_CMD commands, a push that lands, waits or is dropped, a cached state with an error, the push buffer, takes, the software ports and
QSTATE_BASE. -/
def Obligations.QueueManagerCommands : Prop :=
  (∀ (m : Master) (q : Nat) (d : QState) (s : State), s.Open m (pQM 0) → s.cmdBusy (pQM 0) Off.qm0_Q_CMD_STAT = false → q = s.qSel → d = qDecode (s.regs32 (pQM 0) Off.qm0_Q_D0 8) →
    (s.qsBase = 0 →
      (s.Answers (.qLoad m) fun u => (∀ i < 8, u.reg (pQM 0) (Off.qm0_Q_D0 + 4 * i) = 0) ∧ u.qm = s.qm) ∧
      (s.Answers (.qStore m) fun u => u.Faulted (pQM 0) 0 ∧ u.qm = s.qm) ∧ (s.Answers (.enable m) fun u => u.Faulted (pQM 0) 0 ∧ u.qm = s.qm) ∧
      (s.Answers (.disable m) fun u => u.Faulted (pQM 0) 0 ∧ u.qm = s.qm) ∧ (s.Answers (.pin m) fun u => u.Faulted (pQM 0) 0 ∧ u.qm = s.qm) ∧
      (s.Answers (.unpin m) fun u => u.Faulted (pQM 0) 0 ∧ u.qm = s.qm) ∧ (s.Answers (.setClass m) fun u => u.Faulted (pQM 0) 0 ∧ u.qm = s.qm)) ∧
    (s.qsBase ≠ 0 → s.qm.cache.length < 16384 →
      (s.Answers (.qLoad m) fun u => u.qView q = s.qView q ∧
        ∀ i < 8, u.reg (pQM 0) (Off.qm0_Q_D0 + 4 * i) = wordAt (qEncode (s.qView q) (s.qm.pins.contains q)) i) ∧
      ((s.qView q).en = true →
        (s.Answers (.qStore m) fun u => u.Faulted (pQM 0) 0 ∧ u.qm = s.qm) ∧ (s.Answers (.enable m) fun u => u.Faulted (pQM 0) 0 ∧ u.qm = s.qm) ∧
        (s.qm.pins.contains q = true → s.Answers (.pin m) fun u => u.qm = s.qm) ∧
        (s.qm.pins.contains q = false → s.qm.pins.length < 4096 → s.Answers (.pin m) fun u => u.qm.pins = q :: s.qm.pins ∧
          u.reg (pQM 0) Off.qm0_Q_CMD_STAT = 0) ∧
        (s.qm.pins.contains q = false → 4096 ≤ s.qm.pins.length → s.Answers (.pin m) fun u => u.Faulted (pQM 0) 8 ∧
          u.reg (pQM 0) Off.qm0_Q_CMD_STAT = 66 ∧ u.qm = s.qm)) ∧
      ((s.qView q).en = false →
        (s.Answers (.pin m) fun u => u.Faulted (pQM 0) 0 ∧ u.qm = s.qm) ∧
        (q ≠ 0 → s.Answers (.enable m) fun u => u.qView q = { s.qView q with en := true }) ∧
        (d.log2 < 2 ∨ 20 < d.log2 ∨ d.ring % (32 * 2 ^ d.log2) ≠ 0 → s.Answers (.qStore m) fun u => u.Faulted (pQM 0) 8 ∧
          u.reg (pQM 0) Off.qm0_Q_CMD_STAT = 18 ∧ u.qm = s.qm) ∧
        (2 ≤ d.log2 → d.log2 ≤ 20 → d.ring % (32 * 2 ^ d.log2) = 0 →
          (q = 0 → s.Answers (.qStore m) fun u => u.Faulted (pQM 0) 8 ∧ u.reg (pQM 0) Off.qm0_Q_CMD_STAT = 34 ∧ u.qm = s.qm) ∧
          (q ≠ 0 → s.inDram d.ring (32 * 2 ^ d.log2) = false → s.Answers (.qStore m) fun u => u.Faulted (pQM 0) 8 ∧
            u.reg (pQM 0) Off.qm0_Q_CMD_STAT = 50 ∧ u.qm = s.qm) ∧
          (q ≠ 0 → s.inDram d.ring (32 * 2 ^ d.log2) = true → s.Answers (.qStore m) fun u => u.reg (pQM 0) Off.qm0_Q_CMD_STAT = 0 ∧
            u.qView q = { d with en := false, head := 0, tail := 0, drops := 0, reissues := 0, peak := 0, failed := false }))) ∧
      (q ≠ 0 → s.Answers (.disable m) fun u => u.qView q = { s.qView q with en := false } ∧ u.mem = s.mem) ∧
      (s.Answers (.unpin m) fun u => u.qm.pins.contains q = false ∧ u.qm.cache = s.qm.cache) ∧
      (q ≠ 0 → s.Answers (.setClass m) fun u => u.qView q = { s.qView q with cls := s.fld (pQM 0) (Off.qm0_Q_D0 + 16) 1 2 }))) ∧
  (∀ (p q a : Nat) (d : Words) (s : State), s.alive (pQM 0) = true → s.qm.cache.length < 16384 → d.length = 8 → (s.pageRt (pQM 0)).inject = 0 →
    a = (s.qView q).ring + 32 * (s.qView q).tail →
    (s.qValid q = false → s.Answers (.queuePush p q d .clean) fun u => u.Faulted (pQM 0) 9 ∧ u.qm = s.qm ∧ u.mem = s.mem ∧
      u.fld (pQM 0) Off.qm0_CNT_DROP 16 16 = min 65535 (s.fld (pQM 0) Off.qm0_CNT_DROP 16 16 + 1)) ∧
    (s.qValid q = true →
      ((s.qView q).full = true ∨ (∃ w ∈ s.qm.pushBuf, w.page = p ∧ w.queue = q) →
        (s.qm.pushBuf.length < 256 → s.Answers (.queuePush p q d .clean) fun u => u.qm.pushBuf = s.qm.pushBuf ++ [⟨p, q, d, s.now⟩] ∧
          u.mem = s.mem ∧ u.regs = s.regs) ∧
        (256 ≤ s.qm.pushBuf.length → s.Answers (.queuePush p q d .clean) fun u => u.Faulted (pQM 0) 9 ∧ u.qm.pushBuf = s.qm.pushBuf ∧
          u.qView q = { s.qView q with drops := min 65535 ((s.qView q).drops + 1) } ∧ u.mem = s.mem)) ∧
      ((s.qView q).full = false → (∀ w ∈ s.qm.pushBuf, ¬ (w.page = p ∧ w.queue = q)) → s.lands (pQM 0) a 32 = true →
        s.poisoned a = false → a % 64 ≤ 32 → s.Answers (.queuePush p q d .clean) fun u =>
        u.qView q = { s.qView q with tail := ((s.qView q).tail + 1) % 2 ^ (s.qView q).log2, peak := max (s.qView q).peak ((s.qView q).level + 1) } ∧
        (∀ i < 32, u.byteAt (a + i) = (wordsBytes d).getD i 0) ∧ (∀ b, b < a ∨ a + 32 ≤ b → u.byteAt b = s.byteAt b) ∧
        u.qm.pushBuf = s.qm.pushBuf)) ∧
    (∀ st, q ≠ 0 → s.qsBase ≠ 0 → s.qCached q = some st →
      (s.Answers (.queuePush p q d .uncorrectable) fun u => u.Faulted (pQM 0) 12 ∧ (u.qView q).failed = true ∧ u.mem = s.mem) ∧
      (s.alive p = true → s.Answers (.queueTake p q .uncorrectable) fun u => u.Faulted (pQM 0) 12 ∧ (u.qView q).failed = true ∧
        u.resp.words = []))) ∧
  (∀ (q : Nat) (w : WaitPush) (s : State), s.waitingPush q = some w → s.alive (pQM 0) = true → s.qm.cache.length < 16384 →
    (s.qValid q = true → (s.qView q).full = true → s.Answers (.pushBufferDrain q) fun u => u = s) ∧
    (s.qValid q = true → (s.qView q).full = false → s.Answers (.pushBufferDrain q) fun u => u.qm.pushBuf = dropFirst q s.qm.pushBuf ∧
      (u.qView q).tail = ((s.qView q).tail + 1) % 2 ^ (s.qView q).log2) ∧
    ((s.qView q).pushTo = 0 ∨ s.now < w.at_ + (s.qView q).pushTo * 250 → s.Answers (.pushTimeout q) fun u => u = s) ∧
    (q ≠ 0 → s.qsBase ≠ 0 → (s.qView q).pushTo ≠ 0 → w.at_ + (s.qView q).pushTo * 250 ≤ s.now → s.Answers (.pushTimeout q) fun u =>
      u.Faulted (pQM 0) 9 ∧ u.qm.pushBuf = dropFirst q s.qm.pushBuf ∧ (u.qView q).drops = min 65535 ((s.qView q).drops + 1) ∧
      u.fld (pQM 0) Off.qm0_CNT_DROP 0 16 = min 65535 (s.fld (pQM 0) Off.qm0_CNT_DROP 0 16 + 1))) ∧
  (∀ (p q : Nat) (s : State), s.alive p = true → s.alive (pQM 0) = true → s.qValid q = true → s.qReissue q = none → s.qm.cache.length < 16384 →
    (s.pageRt (pQM 0)).inject = 0 →
    ((s.qView q).level = 0 → s.Answers (.queueTake p q .clean) fun u => u.resp.words = [] ∧ u.qm = s.qm) ∧
    ((s.qView q).level ≠ 0 → s.Answers (.queueTake p q .clean) fun u =>
      u.resp.words = s.qHead q ∧
      u.qView q = { s.qView q with head := ((s.qView q).head + 1) % 2 ^ (s.qView q).log2 } ∧ u.mem = s.mem)) ∧
  (∀ (m : Master) (i q : Nat) (v : Word) (s : State), i < 8 → s.Open m (pQM 1) → s.cmdBusy (pQM 1) (portOff i Off.qm1_PORT_STAT) = false → q = wfld v 0 20 → s.qm.cache.length < 16384 →
    (s.qValid q = false →
      (s.Answers (.pushGo m i v) fun u => u.reg (pQM 1) (portOff i Off.qm1_PORT_STAT) = 4 ∧ u.qm = s.qm ∧
        u.fld (pQM 0) Off.qm0_CNT_DROP 16 16 = min 65535 (s.fld (pQM 0) Off.qm0_CNT_DROP 16 16 + 1) ∧ u.evf = s.evf) ∧
      (s.Answers (.takeGo m i v) fun u => u.reg (pQM 1) (portOff i Off.qm1_PORT_STAT) = 4 ∧ u.qm = s.qm)) ∧
    (s.qValid q = true → (s.qView q).full = true → s.Answers (.pushGo m i v) fun u =>
      u.reg (pQM 1) (portOff i Off.qm1_PORT_STAT) = 2 ∧ u.qm = s.qm ∧ u.mem = s.mem) ∧
    (s.qValid q = true → (s.qView q).full = false → s.Answers (.pushGo m i v) fun u =>
      u.reg (pQM 1) (portOff i Off.qm1_PORT_STAT) = 0 ∧ (u.qView q).tail = ((s.qView q).tail + 1) % 2 ^ (s.qView q).log2) ∧
    (s.qValid q = true → s.alive (pQM 0) = true → s.qReissue q = none →
      ((s.qView q).level = 0 → s.Answers (.takeGo m i v) fun u => u.reg (pQM 1) (portOff i Off.qm1_PORT_STAT) = 2 ∧ u.qm = s.qm) ∧
      ((s.qView q).level ≠ 0 → s.Answers (.takeGo m i v) fun u => u.reg (pQM 1) (portOff i Off.qm1_PORT_STAT) = 16 ∧
        (∀ j < 8, u.reg (pQM 1) (portOff i Off.qm1_TAKE_D0 + 4 * j) = wordAt (s.qHead q) j) ∧
        (u.qView q).head = ((s.qView q).head + 1) % 2 ^ (s.qView q).log2))) ∧
  (∀ (m : Master) (hi : Bool) (v : Word) (s : State), s.Open m (pQM 0) →
    (hi = false → wfld v 0 25 ≠ 0 → s.Answers (.qstateBaseWrite m hi v) fun u => u.Faulted (pQM 0) 17 ∧ s.KeepsRegs u (pQM 0) []) ∧
    (hi = true ∨ wfld v 0 25 = 0 → v ≠ s.reg (pQM 0) (if hi then Off.qm0_QSTATE_HI else Off.qm0_QSTATE_LO) →
      (s.anyQueueEnabled = true → s.Answers (.qstateBaseWrite m hi v) fun u => u.Faulted (pQM 0) 0 ∧ s.KeepsRegs u (pQM 0) []) ∧
      (s.anyQueueEnabled = false → s.Answers (.qstateBaseWrite m hi v) fun u =>
        u.reg (pQM 0) (if hi then Off.qm0_QSTATE_HI else Off.qm0_QSTATE_LO) = v ∧ (s.qsBase ≠ 0 → u.qm.cache = [] ∧ u.qm.pins = []))))

/-- R460 to R467, R469, R471 to R473: an access to DRAM with what ECC finds, refresh, scrubbing, training in the background, the address
hash, TOPO and the guard table. -/
def Obligations.DramControllers : Prop :=
  (∀ (mp a n l : Nat) (core : CoreAccess) (s : State), dramBase ≤ a → s.inDram (a / 64 * 64) 64 = true → s.fld (pPWR 1) Off.pwr1_STATE 0 2 ≠ 1 →
    n = s.ctlOf (a / 64 * 64 - dramBase) → n = s.ctlOf (a - dramBase) → l = s.localOf (a - dramBase) → s.alive (pDRAM n) = true → s.fenced mp = false →
    (s.pageRt (pDRAM n)).inject = 0 → (s.poisoned a = false →
      (s.Answers (.dramAccess mp a none .clean false core) fun u => u.resp.poison = false ∧ u.resp.words = bytesWords 16 (s.peek (a / 64 * 64) 64) ∧
        u.regs = s.regs ∧ u.mem = s.mem) ∧
      (s.Answers (.dramAccess mp a none .corrected false core) fun u => u.resp.poison = false ∧
        u.resp.words = bytesWords 16 (s.peek (a / 64 * 64) 64) ∧ u.reg (pDRAM n) Off.dram_CE_ADDR = wd (l / 64) ∧
        u.fld (pDRAM n) Off.dram_CNT_ECC 0 16 = min 65535 (s.fld (pDRAM n) Off.dram_CNT_ECC 0 16 + 1) ∧ u.mem = s.mem) ∧
      (s.Answers (.dramAccess mp a none .uncorrectable false core) fun u => u.resp.poison = true ∧ u.Faulted (pDRAM n) 8 ∧
        u.reg (pDRAM n) Off.dram_UE_ADDR = wd (l / 64) ∧
        u.fld (pDRAM n) Off.dram_CNT_ECC 16 16 = min 65535 (s.fld (pDRAM n) Off.dram_CNT_ECC 16 16 + 1) ∧ u.mem = s.mem)) ∧
    (s.poisoned a = true → s.Answers (.dramAccess mp a none .clean false core) fun u => u.resp.poison = true ∧
      u.reg (pDRAM n) Off.dram_CNT_ECC = s.reg (pDRAM n) Off.dram_CNT_ECC ∧ u.mem = s.mem) ∧
    (pageKind mp = .svc → s.poisoned a = true → s.Answers (.dramAccess mp a none .clean false core) fun u =>
      Map.get (fun _ => (0, 0)) u.plat.coreTrap (mp - pSVC 0) = core.fault) ∧
    (∀ bs : List Byte, a % 64 + bs.length ≤ 64 → 0 < bs.length → s.inQState a bs.length = false →
      (s.guardHit mp a bs.length = none →
        (s.poisoned a = false → bs.length < 64 → s.Answers (.dramAccess mp a (some bs) .clean false core) fun u =>
          (∀ i < bs.length, u.byteAt (a + i) = bs.getD i 0) ∧ (∀ b, b < a ∨ a + bs.length ≤ b → u.byteAt b = s.byteAt b) ∧ u.poison = s.poison) ∧
        (bs.length = 64 → ¬ (pageKind mp = .svc ∧ core.isAmo = true) → s.Answers (.dramAccess mp a (some bs) .uncorrectable false core) fun u =>
          (∀ i < 64, u.byteAt (a + i) = bs.getD i 0) ∧ (∀ b, b < a ∨ a + 64 ≤ b → u.byteAt b = s.byteAt b) ∧ u.poisoned a = false) ∧
        (s.poisoned a = true → bs.length < 64 → s.Answers (.dramAccess mp a (some bs) .clean false core) fun u =>
          u.mem = s.mem ∧ u.poisoned a = true) ∧
        (s.poisoned a = false → bs.length < 64 → ¬ (pageKind mp = .svc ∧ core.isAmo = true) →
          s.Answers (.dramAccess mp a (some bs) .uncorrectable false core) fun u => u.poisoned a = true ∧
          u.Faulted (pDRAM n) 8 ∧ (∀ i < 64, u.byteAt (a / 64 * 64 + i) = 0) ∧
          ∀ b, b < a / 64 * 64 ∨ a / 64 * 64 + 64 ≤ b → u.byteAt b = s.byteAt b)) ∧
      (∀ g, s.guardHit mp a bs.length = some g → 64 ≤ g → s.Answers (.dramAccess mp a (some bs) .clean false core) fun u =>
        u.mem = s.mem ∧ u.Faulted pDRAMGUARD 8 ∧
        u.fld pDRAMGUARD Off.dramguard_VIOL_HEAD 0 4 = (s.fld pDRAMGUARD Off.dramguard_VIOL_HEAD 0 4 + 1) % 16))) ∧
  (∀ (n : Nat) (s : State), n < 16 → s.Answers (.refreshWindow n) fun u => (u.dctl n).act = [] ∧ s.KeepsRegs u (pDRAM n) [Off.dram_CUR_RD, Off.dram_CUR_WR] ∧
    ∀ i < 4, u.fld (pDRAM n) Off.dram_CUR_RD (8 * i) 8 = stepTap (s.fld (pDRAM n) Off.dram_CUR_RD (8 * i) 8)
      (Map.get (fun _ => s.fld (pDRAM n) Off.dram_CUR_RD (8 * i) 8) (s.dctl n).target i) % 256) ∧
  (∀ (n b : Nat) (again : Bool) (s : State), n < 16 → s.dramRun n = true → b = (s.reg (pDRAM n) Off.dram_SCRUB_POS).toNat →
    (s.bit pDRAMCOM Off.dramcom_SCRUB_CFG 16 = false → s.Answers (.dramScrubStep n .clean again) fun u => u = s) ∧
    (s.bit pDRAMCOM Off.dramcom_SCRUB_CFG 16 = true →
      (b + 1 < s.localBlocks → s.Answers (.dramScrubStep n .clean again) fun u => u.reg (pDRAM n) Off.dram_SCRUB_POS = wd (b + 1) ∧ u.mem = s.mem ∧
        s.KeepsRegs u (pDRAM n) [Off.dram_SCRUB_POS]) ∧
      (s.localBlocks ≤ b + 1 → s.Answers (.dramScrubStep n .clean again) fun u => u.reg (pDRAM n) Off.dram_SCRUB_POS = 0 ∧
        u.fld (pDRAM n) Off.dram_SCRUB_STAT 0 16 = min 65535 ((s.now - (s.dctl n).lapStart) / 250000000) ∧
        (s.fld pDRAMCOM Off.dramcom_SCRUB_CFG 0 16 * 250000000 < s.now - (s.dctl n).lapStart → u.Faulted (pDRAM n) 12)) ∧
      (s.fld (pDRAM n) Off.dram_RETIRE_STAT 0 7 < 64 → s.Answers (.dramScrubStep n .corrected true) fun u => u.Faulted (pDRAM n) 13 ∧
        u.fld (pDRAM n) Off.dram_RETIRE_STAT 0 7 = s.fld (pDRAM n) Off.dram_RETIRE_STAT 0 7 + 1 ∧
        u.reg (pDRAM n) (Off.dram_RETIRE + 4 * s.fld (pDRAM n) Off.dram_RETIRE_STAT 0 7) = wd (b / 64 % 2 ^ 21 + 2 ^ 31)) ∧
      (64 ≤ s.fld (pDRAM n) Off.dram_RETIRE_STAT 0 7 → s.Answers (.dramScrubStep n .corrected true) fun u => u.Faulted (pDRAM n) 11 ∧
        u.reg (pDRAM n) Off.dram_RETIRE_STAT = s.reg (pDRAM n) Off.dram_RETIRE_STAT) ∧
      (s.inDram (dramBase + s.globalOf n (64 * b)) 64 = true → s.Answers (.dramScrubStep n .uncorrectable false) fun u =>
        u.poisoned (dramBase + s.globalOf n (64 * b)) = true))) ∧
  (∀ (n lane rd wr width : Nat) (s : State), n < 16 → s.dramRun n = true → lane < 4 → rd < 256 → wr < 256 → width < 256 →
    (s.bit (pDRAM n) Off.dram_TRAIN 0 = true → s.Answers (.dramBgSweep n lane rd wr width) fun u => u = s) ∧
    (s.bit (pDRAM n) Off.dram_TRAIN 0 = false → s.Answers (.dramBgSweep n lane rd wr width) fun u =>
      u.fld (pDRAM n) Off.dram_EYE (8 * lane) 8 = width ∧ lane ∉ (u.dctl n).sweep ∧
      Map.get (fun _ => 0) (u.dctl n).target lane = rd ∧ Map.get (fun _ => 0) (u.dctl n).target (4 + lane) = wr ∧
      u.fld (pDRAM n) Off.dram_CNT_TRAIN 0 16 = min 65535 (s.fld (pDRAM n) Off.dram_CNT_TRAIN 0 16 + 1) ∧
      (width < s.fld (pDRAM n) Off.dram_TRAIN 8 8 → u.Faulted (pDRAM n) 9)) ∧
    (dueAgain (Map.get (fun _ => none) (s.dctl n).margin lane) 2500000 s.now = false → s.Answers (.marginCheck n lane true) fun u => u = s) ∧
    (dueAgain (Map.get (fun _ => none) (s.dctl n).margin lane) 2500000 s.now = true →
      (s.Answers (.marginCheck n lane false) fun u => u.regs = s.regs ∧ Map.get (fun _ => none) (u.dctl n).margin lane = some s.now) ∧
      s.Answers (.marginCheck n lane true) fun u => u.Faulted (pDRAM n) 15 ∧
      u.fld (pDRAM n) Off.dram_CNT_TRAIN 16 16 = min 65535 (s.fld (pDRAM n) Off.dram_CNT_TRAIN 16 16 + 1) ∧
      (s.bit (pDRAM n) Off.dram_TRAIN 0 = false → lane ∈ (u.dctl n).sweep))) ∧
  (∀ (n : Nat) (a b c d : Int) (s : State), n < 16 → s.dramRun n = true → dueAgain (s.dctl n).osc 2500000 s.now = true → s.Answers (.wckOscRead n [a, b, c, d]) fun u =>
    s.KeepsRegs u (pDRAM n) [Off.dram_CUR_RD, Off.dram_CUR_WR] ∧ ∀ i < 4,
      u.fld (pDRAM n) Off.dram_CUR_RD (8 * i) 8 = addTap (s.fld (pDRAM n) Off.dram_CUR_RD (8 * i) 8) ([a, b, c, d].getD i 0) ∧
      u.fld (pDRAM n) Off.dram_CUR_WR (8 * i) 8 = addTap (s.fld (pDRAM n) Off.dram_CUR_WR (8 * i) 8) ([a, b, c, d].getD i 0)) ∧
  (∀ (m : Master) (k : Nat) (v : Word) (s : State), k < 4 → s.Open m pDRAMCOM →
    (wfld v 0 4 ≠ 2 ^ k ∨ 6 < popCount v.toNat 32 → s.Answers (.bankHashWrite m k v) fun u => u.Faulted pDRAMCOM 9 ∧ s.KeepsRegs u pDRAMCOM []) ∧
    (wfld v 0 4 = 2 ^ k → popCount v.toNat 32 ≤ 6 → s.dramIdle = true → s.Answers (.bankHashWrite m k v) fun u =>
      u.reg pDRAMCOM (Off.dramcom_BANK_HASH0 + 4 * k) = v) ∧
    (wfld v 0 4 = 2 ^ k → popCount v.toNat 32 ≤ 6 → s.dramIdle = false → v ≠ s.reg pDRAMCOM (Off.dramcom_BANK_HASH0 + 4 * k) →
      s.Answers (.bankHashWrite m k v) fun u => u.Faulted pDRAMCOM 0 ∧ s.KeepsRegs u pDRAMCOM []) ∧
    (5 ≤ wfld v 2 3 → s.Answers (.topoWrite m v) fun u => u.Faulted pDRAMCOM 11 ∧ s.KeepsRegs u pDRAMCOM []) ∧
    (wfld v 2 3 < 5 → s.dramIdle = true → s.Answers (.topoWrite m v) fun u => u.fld pDRAMCOM Off.dramcom_TOPO 0 7 = wfld v 0 7)) ∧
  (∀ (m : Master) (i : Nat) (s : State) (base limit : Nat) (c : Word), s.Open m pDRAMGUARD → i = s.gSel →
    base = s.reg64 pDRAMGUARD Off.dramguard_G_BASE_LO (Off.dramguard_G_BASE_LO + 4) →
    limit = s.reg64 pDRAMGUARD Off.dramguard_G_LIMIT_LO (Off.dramguard_G_LIMIT_LO + 4) → c = s.reg pDRAMGUARD Off.dramguard_G_CTRL →
    (s.Answers (.gLoad m) fun u => u.dram = s.dram ∧ u.bit pDRAMGUARD Off.dramguard_G_CTRL 0 = (s.guard i).en ∧
      u.reg64 pDRAMGUARD Off.dramguard_G_BASE_LO (Off.dramguard_G_BASE_LO + 4) = (s.guard i).base % 2 ^ 64 ∧
      u.reg64 pDRAMGUARD Off.dramguard_G_LIMIT_LO (Off.dramguard_G_LIMIT_LO + 4) = (s.guard i).limit % 2 ^ 64) ∧
    (i < 64 → (s.Answers (.gStore m) fun u => u.dram = s.dram ∧ u.Faulted pDRAMGUARD 9 ∧ u.reg pDRAMGUARD Off.dramguard_G_CMD_STAT = 18) ∧
      (s.Answers (.gDisable m) fun u => u.dram = s.dram ∧ u.Faulted pDRAMGUARD 9 ∧ u.reg pDRAMGUARD Off.dramguard_G_CMD_STAT = 18)) ∧
    (64 ≤ i →
      (base % 64 ≠ 0 ∨ limit % 64 ≠ 63 ∨ limit < base → s.Answers (.gStore m) fun u => u.dram = s.dram ∧
        u.Faulted pDRAMGUARD 9 ∧ u.reg pDRAMGUARD Off.dramguard_G_CMD_STAT = 34) ∧
      (base % 64 = 0 → limit % 64 = 63 → base ≤ limit → bitAt c 31 = true → pageKind (wfld c 16 10) = .none →
        s.Answers (.gStore m) fun u => u.dram = s.dram ∧ u.Faulted pDRAMGUARD 9 ∧ u.reg pDRAMGUARD Off.dramguard_G_CMD_STAT = 50) ∧
      (base % 64 = 0 → limit % 64 = 63 → base ≤ limit → bitAt c 31 = false ∨ pageKind (wfld c 16 10) ≠ .none →
        s.Answers (.gStore m) fun u => u.reg pDRAMGUARD Off.dramguard_G_CMD_STAT = 0 ∧
          u.guard i = { en := bitAt c 0, base := base, limit := limit, exemptEn := bitAt c 31, exempt := wfld c 16 10 } ∧
          ∀ j, j ≠ i → u.guard j = s.guard j) ∧
      (s.Answers (.gDisable m) fun u => u.guard i = { s.guard i with en := false } ∧ u.reg pDRAMGUARD Off.dramguard_G_CMD_STAT = 0)))

/-! ## Event fabric -/

/-- R476 to R485, R487 to R489, R611: every command of the event fabric answers a next state, with what it holds. EVENT_PORT_WRITE binds;
EVENT_DELIVER delivers from the fourth tick after the assertion; MIN_GAP_EXPIRY and RATE_WINDOW_END end a gap and a window; SW_FIRE is a
producer; PIN_INPUT_EDGE, PIN_PULSE_END and PIN_CFG_WRITE drive the pin ports. That EVENT_DELIVER and the two timed rows may come late is
the model's choice (notes/assumptions/7.md, 20.md). -/
def Obligations.EventFabric : Prop :=
  (∀ (m : Master) (p k c o : Nat) (v : Word) (s : State), s.Open m p → p < 1024 → k < 8 → o = Off.hdr_PG_EVT_OUT0 + 4 * k → c = wfld v 0 8 →
    (k < 4 → s.Answers (.eventPortWrite m p k v) fun u => u.reg p o = wd (wfld v 0 9) ∧ u.evReg p o = s.evReg p o ∧ s.KeepsRegs u p [o]) ∧
    (4 ≤ k → bitAt v 8 = true → s.boundElsewhere c p (k - 4) false = true → s.Answers (.eventPortWrite m p k v) fun u =>
      u.Faulted (pEVF 0) 8 ∧ s.KeepsRegs u (pEVF 0) [Off.evf0_CONFLICT] ∧ u.bit (pEVF 0) Off.evf0_CONFLICT 31 = true ∧
      u.fld (pEVF 0) Off.evf0_CONFLICT 0 8 = c) ∧
    (4 ≤ k → bitAt v 8 = true → s.boundElsewhere c p (k - 4) false = false → s.Answers (.eventPortWrite m p k v) fun u =>
      u.reg p o = wd (wfld v 0 9) ∧ u.reg (chPage c) (chOff c Off.evf0_CH_BIND) = wd (p + (k - 4) * 1024 + 8192)) ∧
    (4 ≤ k → bitAt v 8 = false → s.Answers (.eventPortWrite m p k v) fun u => u.reg p o = wd (wfld v 0 9) ∧
      (s.bit p o 8 = true → u.reg (chPage (s.fld p o 0 8)) (chOff (s.fld p o 0 8) Off.evf0_CH_BIND) = 0))) ∧
  (∀ (c t : Nat) (s : State), c < 256 → s.evWindow = s.evf.win →
    ((s.chan c).pend = [] → s.Answers (.eventDeliver c) fun u => u = s) ∧
    ((s.chan c).pend = [t] → s.now < t + 4 → s.Answers (.eventDeliver c) fun u => u = s) ∧
    ((s.chan c).pend = [t] → t + 4 ≤ s.now → (s.chan c).held = false ∨ s.now < (s.chan c).gapEnd →
      (bitAt (s.chCfg c) 29 = true → s.chBit Off.evf0_LOOP0 c = true → s.Answers (.eventDeliver c) fun u =>
        (u.chan c).pend = [] ∧ u.fld (chPage c) (chOff c Off.evf0_CH_DROP) 16 16 =
          min 65535 (s.fld (chPage c) (chOff c Off.evf0_CH_DROP) 16 16 + 1) ∧ u.reg (chPage c) (chOff c Off.evf0_CH_CNT) =
          s.reg (chPage c) (chOff c Off.evf0_CH_CNT)) ∧
      (bitAt (s.chCfg c) 29 = false → s.now < (s.chan c).gapEnd →
        ((s.chan c).held = false → s.Answers (.eventDeliver c) fun u => u.chan c = { s.chan c with pend := [], held := true } ∧
          u.fld (chPage c) (chOff c Off.evf0_CH_CNT) 0 16 = s.fld (chPage c) (chOff c Off.evf0_CH_CNT) 0 16) ∧
        ((s.chan c).held = true → s.Answers (.eventDeliver c) fun u => u.chan c = { s.chan c with pend := [] } ∧
          u.fld (chPage c) (chOff c Off.evf0_CH_CNT) 16 16 = min 65535 (s.fld (chPage c) (chOff c Off.evf0_CH_CNT) 16 16 + 1))) ∧
      (bitAt (s.chCfg c) 29 = false → (s.chan c).gapEnd ≤ s.now → (s.chan c).winLimit = 0 →
        (s.Answers (.eventDeliver c) fun u => u.chan c = { s.chan c with
            pend := [], winCount := (s.chan c).winCount + 1,
            gapEnd := if wfld (s.chCfg c) 0 16 = 0 then (s.chan c).gapEnd
              else s.now + wfld (s.chCfg c) 0 16 } ∧
          u.fld (chPage c) (chOff c Off.evf0_CH_CNT) 0 16 = (s.fld (chPage c) (chOff c Off.evf0_CH_CNT) 0 16 + 1) % 65536 ∧
          u.chBit Off.evf0_SEEN0 c = true) ∧
        (∀ p k b : Nat, b = (s.evReg (chPage c) (chOff c Off.evf0_CH_BIND)).toNat → b = p + k * 1024 + 8192 → p < 1024 → k < 4 →
          (s.alive p = false → s.Answers (.eventDeliver c) fun u => u.fld (chPage c) (chOff c Off.evf0_CH_DROP) 16 16 =
            min 65535 (s.fld (chPage c) (chOff c Off.evf0_CH_DROP) 16 16 + 1) ∧ u.evf.inBusy = s.evf.inBusy) ∧
          (s.alive p = true → (evtInCap p).testBit k = true → s.inBusy p k = false → s.Answers (.eventDeliver c) fun u =>
            u.inBusy p k = true ∧ ∀ q j, j < 4 → ¬ (q = p ∧ j = k) → u.inBusy q j = s.inBusy q j) ∧
          (s.alive p = true → (evtInCap p).testBit k = true → s.inBusy p k = true → s.Answers (.eventDeliver c) fun u =>
            u.chBit Off.evf0_MISSED0 c = true ∧ u.evf.inBusy = s.evf.inBusy ∧
            u.fld (chPage c) (chOff c Off.evf0_CH_DROP) 0 16 = min 65535 (s.fld (chPage c) (chOff c Off.evf0_CH_DROP) 0 16 + 1))) ∧
        (∀ q : Nat, (s.evReg (chPage c) (chOff c Off.evf0_CH_BIND)).toNat = q + 12288 → q < 32 → wfld (s.pinCfg q) 0 2 = 2 →
          ((s.pinPort q).pulseEnd = none → s.Answers (.eventDeliver c) fun u =>
            (u.pinPort q).pulseEnd = some (s.now + max 1 (wfld (s.pinCfg q) 16 16)) ∧ (u.pinPort q).level = !bitAt (s.pinCfg q) 2) ∧
          (∀ e, (s.pinPort q).pulseEnd = some e → s.now < e → s.Answers (.eventDeliver c) fun u => u.evf.pin = s.evf.pin ∧
            u.chBit Off.evf0_MISSED0 c = true) ∧
          (∀ e, (s.pinPort q).pulseEnd = some e → e ≤ s.now → (s.pinPort q).pendCfg = none → s.Answers (.eventDeliver c) fun u =>
            (u.pinPort q).pulseEnd = some (s.now + max 1 (wfld (s.pinCfg q) 16 16)) ∧
            (u.pinPort q).level = !bitAt (s.pinCfg q) 2))) ∧
      (bitAt (s.chCfg c) 29 = false → (s.chan c).gapEnd ≤ s.now → (s.chan c).winLimit ≠ 0 →
        (s.chan c).winCount = (s.chan c).winLimit → s.Answers (.eventDeliver c) fun u => u.chBit Off.evf0_LOOP0 c = true ∧
          u.Faulted (pEVF 0) 9)) ∧
    ((s.chan c).pend = [t, t] → t + 4 ≤ s.now → (s.chan c).held = false → (s.chan c).gapEnd ≤ s.now → bitAt (s.chCfg c) 29 = false →
      (s.chan c).winLimit = 0 → s.Answers (.eventDeliver c) fun u => (u.chan c).pend = [] ∧
        u.fld (chPage c) (chOff c Off.evf0_CH_CNT) 16 16 = min 65535 (s.fld (chPage c) (chOff c Off.evf0_CH_CNT) 16 16 + 1))) ∧
  (∀ (c : Nat) (s : State), c < 256 →
    ((s.chan c).held = false ∨ s.now < (s.chan c).gapEnd → s.Answers (.minGapExpiry c) fun u => u = s) ∧
    ((s.chan c).held = true → (s.chan c).gapEnd ≤ s.now → bitAt (s.chCfg c) 29 = false →
      s.Answers (.minGapExpiry c) fun u => (u.chan c).held = false ∧ u.chBit Off.evf0_SEEN0 c = true ∧
        u.fld (chPage c) (chOff c Off.evf0_CH_CNT) 0 16 = (s.fld (chPage c) (chOff c Off.evf0_CH_CNT) 0 16 + 1) % 65536)) ∧
  (∀ s : State, (s.evWindow = s.evf.win → s.Answers .rateWindowEnd fun u => u = s) ∧
    (s.evWindow ≠ s.evf.win → s.Answers .rateWindowEnd fun u => u.regs = s.regs ∧ u.evf.win = s.evWindow ∧ ∀ c < 256,
      (u.chan c).winCount = 0 ∧ (u.chan c).winLimit = wfld (s.chCfg c) 16 12 ∧ (u.chan c).pend = (s.chan c).pend)) ∧
  (∀ (m : Master) (v : Word) (s : State), s.Open m (pEVF 0) →
    (bitAt v 8 = false → s.Answers (.swFire m v) fun u => u.evf = s.evf ∧ u.regs = s.regs) ∧
    (bitAt v 8 = true → s.Answers (.swFire m v) fun u => (u.chan (wfld v 0 8)).pend = insertTick (s.chan (wfld v 0 8)).pend (s.now + 1) ∧ u.regs = s.regs)) ∧
  (∀ (q : Nat) (level : Bool) (s : State), q < 32 →
    (wfld (s.pinCfg q) 0 2 = 2 → s.Answers (.pinInputEdge q level) fun u => u = s) ∧
    (wfld (s.pinCfg q) 0 2 ≠ 2 → s.Answers (.pinInputEdge q level) fun u => (u.pinPort q).level = level ∧ u.regs = s.regs ∧
      (wfld (s.pinCfg q) 0 2 = 1 → (s.pinPort q).level ≠ level → level = !bitAt (s.pinCfg q) 2 →
        (u.chan (wfld (s.pinCfg q) 8 8)).pend = insertTick (s.chan (wfld (s.pinCfg q) 8 8)).pend s.now) ∧
      (wfld (s.pinCfg q) 0 2 = 0 ∨ (s.pinPort q).level = level ∨ level = bitAt (s.pinCfg q) 2 → u.evf.ch = s.evf.ch))) ∧
  (∀ (q e : Nat) (s : State), q < 32 → (s.pinPort q).pulseEnd = some e →
    (s.now < e → s.Answers (.pinPulseEnd q) fun u => u = s) ∧
    (e ≤ s.now → (s.pinPort q).pendCfg = none → s.Answers (.pinPulseEnd q) fun u => (u.pinPort q).pulseEnd = none ∧
      (u.pinPort q).level = bitAt (s.pinCfg q) 2 ∧ u.regs = s.regs)) ∧
  (∀ (m : Master) (q : Nat) (v : Word) (s : State), q < 32 → s.Open m (pEVF 1) →
    (wfld v 0 2 = 3 → s.Answers (.pinCfgWrite m q v) fun u => u.Faulted (pEVF 1) 10 ∧ s.KeepsRegs u (pEVF 1) []) ∧
    (wfld v 0 2 ≠ 3 → (s.pinPort q).pulseEnd.isSome = true → s.Answers (.pinCfgWrite m q v) fun u =>
      (u.pinPort q).pendCfg = some v ∧ u.regs = s.regs) ∧
    (wfld v 0 2 = 2 → (s.pinPort q).pulseEnd = none → s.boundElsewhere (wfld v 8 8) q 0 true = true → s.Answers (.pinCfgWrite m q v) fun u =>
      u.Faulted (pEVF 0) 8 ∧ u.pinCfg q = s.pinCfg q) ∧
    (wfld v 0 2 = 2 → (s.pinPort q).pulseEnd = none → s.boundElsewhere (wfld v 8 8) q 0 true = false → s.Answers (.pinCfgWrite m q v) fun u =>
      (u.pinPort q).driving = true ∧ (u.pinPort q).level = bitAt v 2 ∧
      u.reg (chPage (wfld v 8 8)) (chOff (wfld v 8 8) Off.evf0_CH_BIND) = wd (q + 12288)) ∧
    (wfld v 0 2 < 2 → (s.pinPort q).pulseEnd = none → wfld (s.pinCfg q) 0 2 = 2 → s.Answers (.pinCfgWrite m q v) fun u =>
      (u.pinPort q).driving = false ∧ (u.pinPort q).level = false ∧
      u.reg (chPage (wfld (s.pinCfg q) 8 8)) (chOff (wfld (s.pinCfg q) 8 8) Off.evf0_CH_BIND) = 0))

/-! ## Containment, spares and the black box -/

/-- R500 to R504, R506 to R512, R281: the on-chip scrubbers, condemnation and Moult, zombies, spare tests and the end of an engine's BIST. -/
def Obligations.ScrubbersAndMoult : Prop :=
  (∀ (p k word remaps : Nat) (s : State), s.bit pWARDEN Off.warden_SCRUB_CFG 8 = true → s.powered p = true → p ≠ pCOCOON → (s.pageRt p).inject = 0 →
    (s.Answers (.sramScrubStep p k word remaps .clean false none) fun u => u = s) ∧
    ((s.scrubber p k).hist = [] → s.Answers (.sramScrubStep p k word remaps .corrected false none) fun u =>
      (u.scrubber p k).hist = [(word, (s.scrubber p k).lap)] ∧ u.regs = s.regs) ∧
    ((s.scrubber p k).remap.length < remaps → s.Answers (.sramScrubStep p k word remaps .corrected true none) fun u =>
      (u.scrubber p k).remap = (s.scrubber p k).remap ++ [word] ∧ u.Faulted pWARDEN 11 ∧
      u.fld pWARDEN Off.warden_CNT 16 8 = min 255 (s.fld pWARDEN Off.warden_CNT 16 8 + 1)) ∧
    (remaps ≤ (s.scrubber p k).remap.length → s.Answers (.sramScrubStep p k word remaps .corrected true none) fun u =>
      (u.scrubber p k).remap = (s.scrubber p k).remap ∧ u.Faulted pWARDEN 10 ∧
      u.fld pWARDEN Off.warden_CNT 24 8 = min 255 (s.fld pWARDEN Off.warden_CNT 24 8 + 1)) ∧
    (∀ c < 34, p = pCLUS c → s.Answers (.sramScrubStep p k word remaps .uncorrectable false none) fun u =>
      u.poisoned (shmBase + c * 0x200000 + 8 * word) = true) ∧
    (∀ ms : Nat, s.Answers (.sramScrubStep p k word remaps .clean false (some ms)) fun u => (u.scrubber p k).lap = (s.scrubber p k).lap + 1 ∧
      (s.fld pWARDEN Off.warden_SCRUB_CFG 0 8 < ms → u.Faulted pWARDEN 13))) ∧
  (∀ (m : Master) (p c : Nat) (v : Word) (s : State), p < 272 → (s.health p).condemned = false →
    (s.condemnCause p c = false → s.Answers (.engineCondemn p c) fun u => u = s) ∧
    (s.condemnCause p c = true → s.bit pWARDEN Off.warden_CFG 0 = false → s.Answers (.engineCondemn p c) fun u => u.Faulted pWARDEN 16 ∧
      u.reg pWARDEN Off.warden_CANDIDATE = wd (p + 512) ∧ u.health p = s.health p) ∧
    (s.condemnCause p c = true → s.bit pWARDEN Off.warden_CFG 0 = true → s.Answers (.engineCondemn p c) fun u =>
      (u.health p).condemned = true ∧ (u.health p).count = min 3 ((s.health p).count + 1) ∧
      ((s.health p).count = 2 → (u.health p).retired = true) ∧ u.fenced (pENG p) = true ∧
      u.bit (clusOf p) Off.clus_SPARES (p % 8) = false ∧ u.bit (clusOf p) Off.clus_SPARES (8 + p % 8) = true ∧
      ∀ e, s.logOf p = some e → u.bit (pCLUS (e / 8)) (Off.clus_LMAP0 + 4 * (e % 8)) 15 = false ∧
        ∃ x ∈ u.dep.moults, x.engine = p ∧ x.logical = e ∧ x.cause = c ∧ x.start = s.now ∧ x.step = .draining) ∧
    (s.Open m pWARDEN →
      (wfld v 12 2 ≠ 1 ∨ 272 ≤ wfld v 0 9 → s.Answers (.condemn m v) fun u => u.Faulted pWARDEN 0 ∧ u.swarm = s.swarm ∧ u.health p = s.health p) ∧
      (wfld v 12 2 = 1 → wfld v 0 9 = p → s.Answers (.condemn m v) fun u => (u.health p).condemned = true ∧ u.fenced (pENG p) = true))) ∧
  (∀ (p : Nat) (x : Moult) (s : State), s.dep.moults = [x] → x.engine = p → x.step = .draining → x.logical < 256 →
    (∀ q, s.pickSpare x.logical = some q → s.Answers (.moultDrainDone p) fun u => u.dep.moults = [{ x with step := .drained, spare := some q }] ∧
      (∃ r ∈ u.dep.cocoon, r.type = 0x0901) ∧ ∀ r ∈ u.qm.reissue, r.slot / 4 = x.logical → r.visible = true) ∧
    (s.pickSpare x.logical = none → s.Answers (.moultDrainDone p) fun u => u.dep.moults = [{ x with step := .waiting }] ∧
      u.Faulted pWARDEN 9 ∧ u.bit pWARDEN (Off.warden_UNMAPPED0 + 4 * (x.logical / 32)) (x.logical % 32) = true) ∧
    (s.now < x.start + 4000 → s.Answers (.drainTimeout p) fun u => u = s) ∧
    (x.start + 4000 ≤ s.now → s.Answers (.drainTimeout p) fun u => u.Faulted pWARDEN 15 ∧ ∃ y ∈ u.dep.moults, y.engine = p ∧ y.step ≠ .draining)) ∧
  (∀ (p : Nat) (x : Moult) (s : State), s.dep.moults = [x] → x.engine = p → x.logical < 256 →
    (x.step = .draining → s.Answers (.moult p) fun u => u = s) ∧
    (x.step = .waiting → s.pickSpare x.logical = none → s.Answers (.moult p) fun u => u = s) ∧
    (x.step = .waiting → (s.pickSpare x.logical).isSome = true → s.Answers (.moult p) fun u =>
      u.dep.moults = [{ x with step := .drained, spare := s.pickSpare x.logical }] ∧
      u.bit pWARDEN (Off.warden_UNMAPPED0 + 4 * (x.logical / 32)) (x.logical % 32) = false) ∧
    (∀ q, x.step = .drained → x.spare = some q → q < 272 →
      ((∃ r ∈ s.dep.cocoon, r.type = 0x0901) ∨ s.domOn (q / 8) = false → s.Answers (.moult p) fun u => u = s) ∧
      ((∀ r ∈ s.dep.cocoon, r.type ≠ 0x0901) → s.domOn (q / 8) = true → s.Answers (.moult p) fun u => u.dep.moults = [] ∧
        u.reg (pCLUS (x.logical / 8)) (Off.clus_LMAP0 + 4 * (x.logical % 8)) = wd (0x8000 + q) ∧ u.Faulted pWARDEN 8 ∧
        u.fld pWARDEN Off.warden_CNT 0 8 = min 255 (s.fld pWARDEN Off.warden_CNT 0 8 + 1)))) ∧
  (∀ (p a : Nat) (s : State), p < 272 →
    ((s.health p).condemned = false → s.Answers (.zombieDrop p a) fun u => u = s) ∧
    ((s.health p).condemned = true → s.Answers (.zombieDrop p a) fun u => u.Faulted (clusOf p) 12 ∧
      u.fld (clusOf p) Off.clus_PORT_DROP 0 32 = min (2 ^ 32 - 1) (s.fld (clusOf p) Off.clus_PORT_DROP 0 32 + 1) ∧ u.mem = s.mem)) ∧
  (∀ s : State,
    (s.fld pWARDEN Off.warden_SPARE_BIST 0 16 = 0 ∨ s.now < s.dep.spareAt + s.fld pWARDEN Off.warden_SPARE_BIST 0 16 * 250000000 →
      s.Answers .spareBistTimer fun u => u = s) ∧
    (s.fld pWARDEN Off.warden_SPARE_BIST 0 16 ≠ 0 → s.dep.spareAt + s.fld pWARDEN Off.warden_SPARE_BIST 0 16 * 250000000 ≤ s.now →
      (∃ p < 272, s.isSpare p = true) → s.Answers .spareBistTimer fun u => u.dep.spareAt = s.now ∧
        ∃ p < 272, s.isSpare p = true ∧ u.reg (pENG p) Off.eng_BIST_STAT = 3 ∧ u.dep.spareNext = p + 1)) ∧
  (∀ (p : Nat) (pass : Bool) (s : State), p < 272 →
    (s.fld (pENG p) Off.eng_BIST_STAT 0 2 ≠ 3 → s.Answers (.engineBistDone p pass) fun u => u = s) ∧
    (s.fld (pENG p) Off.eng_BIST_STAT 0 2 = 3 →
      ((s.health p).condemned = false → s.Answers (.engineBistDone p true) fun u => u.reg (pENG p) Off.eng_BIST_STAT = 1) ∧
      ((s.health p).condemned = true → (s.health p).retired = false → s.Answers (.engineBistDone p true) fun u =>
        (u.health p).condemned = false ∧ u.fenced (pENG p) = false ∧ u.bit (clusOf p) Off.clus_SPARES (p % 8) = true ∧
        u.bit (clusOf p) Off.clus_SPARES (8 + p % 8) = false) ∧
      (s.bit (clusOf p) Off.clus_BIST_STAT 0 = false → s.isSpare p = true → s.Answers (.engineBistDone p false) fun u =>
        u.reg (pENG p) Off.eng_BIST_STAT = 2 ∧ u.Faulted pWARDEN 12)))

/-- R490, R493 to R495, R517, R519, R520, R524 to R531: a fence by its page, reports and notices, service-core pairs, Cocoon records, Silk, snapshots
and the power-fail warning. -/
def Obligations.FaultsAndRecords : Prop :=
  (∀ (m : Master) (p : Nat) (v : Word) (s : State), s.Open m p → fenceable p = true → bitAt v 2 = false →
    s.Answers (.pgFenceWrite m p v) fun u => ∀ q ∈ blockPages p, u.fenced q = true) ∧
  (∀ (p : Nat) (f : Word) (rest : List (Nat × Word)) (s : State), p < 1024 → s.dep.reports = (p, f) :: rest →
    s.Answers (.faultReport p) fun u => u.bit pFAULTAGG (Off.faultagg_PEND0 + 4 * (p / 32)) (p % 32) = true ∧
      u.reg pFAULTAGG Off.faultagg_LAST = wd p ∧
      u.fld pFAULTAGG Off.faultagg_CNT_REPORT 0 32 = min (2 ^ 32 - 1) (s.fld pFAULTAGG Off.faultagg_CNT_REPORT 0 32 + 1) ∧
      (s.bit pFAULTAGG (Off.faultagg_PEND0 + 4 * (p / 32)) (p % 32) = true → u.fld pFAULTAGG Off.faultagg_CNT_REPEAT 0 32 =
        min (2 ^ 32 - 1) (s.fld pFAULTAGG Off.faultagg_CNT_REPEAT 0 32 + 1)) ∧
      (1 ≤ s.severity p → u.bit pFAULTAGG Off.hdr_PG_INT_STAT 0 = true) ∧
      (s.dep.silk.buf.length < 64 → ⟨blockType p * 256 + 1, p, s.timeNs, f.toNat, (s.reg p Off.hdr_PG_FAULT_EN).toNat, s.severity p⟩ ∈ u.dep.silk.buf)) ∧
  (∀ (p : Nat) (f : FenceNotice) (s : State), s.dep.fences.find? (fun g => g.page == p) = some f →
    ((∃ r ∈ s.dep.reports, r.1 = p) → s.Answers (.fenceNotice p) fun u => u = s) ∧
    ((∀ r ∈ s.dep.reports, r.1 ≠ p) → f.done = true → s.dep.silk.buf.length < 64 → s.Answers (.fenceNotice p) fun u =>
      u.dep.fences = s.dep.fences.filter (fun g => g.page != p) ∧ u.bit pFAULTAGG Off.hdr_PG_INT_STAT 1 = true ∧
      ⟨blockType p * 256 + 2, p, s.timeNs, f.cause, f.bit, 0⟩ ∈ u.dep.silk.buf)) ∧
  (∀ (m : Master) (n : Nat) (s : State), n < 8 → s.Open m (pSVC n) →
    (s.pairState n = 2 → s.Answers (.activate m n) fun u => u.pairState n = 3 ∧ ∀ k < 8, k ≠ n → u.pairState k = s.pairState k) ∧
    (s.pairState n ≠ 2 → s.Answers (.activate m n) fun u => u.Faulted (pSVC n) 0 ∧ u.pairState n = s.pairState n) ∧
    (s.pairState n = 3 → s.otherActive n = true → s.Answers (.quiesce m n) fun u => u.pairState n = 2 ∧
      u.fld (pSVC n) Off.svc_CNT 0 16 = min 65535 (s.fld (pSVC n) Off.svc_CNT 0 16 + 1)) ∧
    (s.pairState n ≠ 3 ∨ s.otherActive n = false → s.Answers (.quiesce m n) fun u => u.Faulted (pSVC n) 0 ∧ u.pairState n = s.pairState n)) ∧
  (∀ (m : Master) (v : Word) (off : Nat) (s : State), s.Open m pCOCOON → bitAt v 0 = true → off = s.fld pCOCOON Off.cocoon_FIND_OFF 0 22 →
    (slotAt off = none → s.Answers (.findCmd m v) fun u => u.reg pCOCOON Off.cocoon_FIND_RES = 0) ∧
    (∀ sl, slotAt off = some sl →
      (s.copyCur off sl = none → s.Answers (.findCmd m v) fun u => u.reg pCOCOON Off.cocoon_FIND_RES = 0) ∧
      (∀ b q : Nat, s.copyCur off sl = some (b, q) → s.Answers (.findCmd m v) fun u => u.reg pCOCOON Off.cocoon_FIND_RES = wd (b + 1) ∧
        u.reg pCOCOON Off.cocoon_FIND_SEQ = wd q ∧ u.mem = s.mem))) ∧
  (∀ (m : Master) (v : Word) (off ty len a : Nat) (s : State), s.Open m pCOCOON → bitAt v 0 = true → ty = s.fld pCOCOON Off.cocoon_WR_TYPE 0 16 →
    off = s.fld pCOCOON Off.cocoon_WR_OFF 0 22 / 64 * 64 → len = s.fld pCOCOON Off.cocoon_WR_LEN 0 17 →
    a = s.reg64 pCOCOON Off.cocoon_WR_SRC_LO (Off.cocoon_WR_SRC_LO + 4) / 64 * 64 →
    (s.bit pCOCOON Off.cocoon_WR_STAT 0 = true → s.Answers (.wrGo m v) fun u => u.Faulted pCOCOON 0 ∧ u.dep.cocoon = s.dep.cocoon) ∧
    (s.bit pCOCOON Off.cocoon_WR_STAT 0 = false →
      (off < 0x2A0000 ∨ 0x3E0000 < off + 32 + len → s.Answers (.wrGo m v) fun u => u.Faulted pCOCOON 12 ∧
        u.reg pCOCOON Off.cocoon_WR_STAT = 20 ∧ u.dep.cocoon = s.dep.cocoon) ∧
      (0x2A0000 ≤ off → off + 32 + len ≤ 0x3E0000 → ty < 0xF000 → s.Answers (.wrGo m v) fun u => u.Faulted pCOCOON 12 ∧
        u.reg pCOCOON Off.cocoon_WR_STAT = 36 ∧ u.dep.cocoon = s.dep.cocoon) ∧
      (0x2A0000 ≤ off → off + 32 + len ≤ 0x3E0000 → 0xF000 ≤ ty → len ≤ 65536 → (s.busRead a len).1.bad = false → s.Answers (.wrGo m v) fun u =>
        u.reg pCOCOON Off.cocoon_WR_STAT = 1 ∧
        (s.dep.cocoon = [] → u.dep.cocoon =
          [{ rank := 6, off := off, type := ty, payload := (s.busRead a len).1.bytes, firmware := true, begun := some s.timeNs }]) ∧
        (∀ b, cocoonNext s.dep.cocoon = some b → b.rank ≤ 6 → b.begun.isSome = true → u.dep.cocoon = s.dep.cocoon ++
          [{ rank := 6, off := off, type := ty, payload := (s.busRead a len).1.bytes, firmware := true }])))) ∧
  (∀ (r : CocoonReq) (sl : Option Nat × Nat) (b seq : Nat) (s : State),
    (s.dep.cocoon = [] → s.Answers (.cocoonWriteDone []) fun u => u = s) ∧
    (s.dep.cocoon = [r] → r.rank ≠ 2 → slotAt r.off = some sl → r.firmware = true → s.stor.ops = [] → r.payload.length ≤ 65536 →
      (s.copyCur r.off sl = none ∧ b = 0 ∧ seq = 1) ∨ (∃ c q, s.copyCur r.off sl = some (c, q) ∧ b = 1 - c ∧ seq = (q + 1) % 2 ^ 32) →
      s.Answers (.cocoonWriteDone []) fun u => u.dep.cocoon = [] ∧ u.reg pCOCOON Off.cocoon_WR_STAT = 2 ∧
        u.reg pCOCOON Off.cocoon_WR_SEQ = wd seq ∧
        u.peek (cocoonBank b + r.off) 8 = leBytes 2 0x5C0C ++ leBytes 2 r.type ++ leBytes 4 seq ∧
        u.peek (cocoonBank b + r.off + 16) 8 = leBytes 8 (r.begun.getD s.timeNs) ∧
        u.peek (cocoonBank b + r.off + 32) r.payload.length = r.payload ∧
        ∀ x, x < cocoonBank b + r.off ∨ cocoonBank b + r.off + 32 + r.payload.length ≤ x → u.byteAt x = s.byteAt x)) ∧
  (∀ (r : SilkRec) (s : State), dueAgain s.dep.silk.last 4 s.now = true → s.dep.silk.side = [] → s.dep.silk.snap = none → s.bit pSILK Off.silk_MIRROR_CFG 8 = false →
    (s.dep.silk.buf = [] → s.Answers .silkRecord fun u => u = s) ∧
    (s.dep.silk.buf = [r] → s.Answers .silkRecord fun u => u.dep.silk.buf = [] ∧
      u.peek (silkBase + 32 * s.fld pSILK Off.silk_HEAD 0 12) 32 = r.encode (s.reg pSILK Off.silk_SEQ).toNat ∧
      u.reg pSILK Off.silk_HEAD = wd ((s.fld pSILK Off.silk_HEAD 0 12 + 1) % 4096) ∧
      u.reg pSILK Off.silk_SEQ = s.reg pSILK Off.silk_SEQ + 1 ∧
      ∀ x, x < silkBase + 32 * s.fld pSILK Off.silk_HEAD 0 12 ∨ silkBase + 32 * s.fld pSILK Off.silk_HEAD 0 12 + 32 ≤ x → u.byteAt x = s.byteAt x)) ∧
  (∀ (m : Master) (v : Word) (code : Nat) (s : State), s.Open m pSILK → bitAt v 0 = true → code = s.fld pSILK Off.silk_SW_CODE 0 16 →
    (code < 0xF000 ∨ 0xF0FF < code → s.Answers (.swGo m v) fun u => u.Faulted pSILK 10 ∧ u.dep.silk = s.dep.silk) ∧
    (0xF000 ≤ code → code ≤ 0xF0FF → s.dep.silk.buf.length < 64 → s.Answers (.swGo m v) fun u => u.regs = s.regs ∧
      u.dep.silk.buf = s.dep.silk.buf ++ [⟨code, pSILK, s.timeNs, (s.reg pSILK Off.silk_SW_DATA0).toNat,
        (s.reg pSILK (Off.silk_SW_DATA0 + 4)).toNat, (s.reg pSILK (Off.silk_SW_DATA0 + 8)).toNat⟩]) ∧
    (s.dep.silk.snap = none → s.Answers (.snapCmd m v) fun u => u.bit pSILK Off.silk_SNAP_STAT 0 = true ∧
      ∃ x, u.dep.silk.snap = some x ∧ x.trigger = 1 ∧ x.keep = bitAt v 1 ∧ x.start = s.now ∧ x.time = s.timeNs ∧ x.saved = []) ∧
    (s.dep.silk.snap.isSome = true → s.Answers (.snapCmd m v) fun u => u.dep.silk.snap = s.dep.silk.snap ∧
      u.dep.silk.waiting = some (bitAt v 1 || s.dep.silk.waiting.getD false))) ∧
  (∀ (x : Snapshot) (s : State), s.dep.silk.snap = some x → x.saved = [] → x.slot < 32 → s.dep.silk.waiting = none →
    s.Answers .snapshotDone fun u => u.dep.silk.snap = none ∧ u.bit pSILK Off.silk_SNAP_STAT 0 = false ∧
      (∃ r ∈ u.dep.cocoon, r.type = 0x0801 + x.slot) ∧
      ∀ i < 4096, ∀ j < 32, u.byteAt (cocoonBank (x.slot / 16) + 0xA0000 + 0x20000 * (x.slot % 16) + 32 * i + j) =
        s.byteAt (silkBase + 32 * ((x.lastSeq + 1 + i) % 4096) + j)) ∧
  (∀ s : State,
    (s.dep.pfw = true ∨ s.power.pwrGood = false → s.Answers .powerFailWarning fun u => u = s) ∧
    (s.dep.pfw = false → s.power.pwrGood = true → s.Answers .powerFailWarning fun u => u.dep.pfw = true ∧
      (∃ x, u.dep.silk.snap = some x ∧ x.trigger = 6) ∧ (∀ r ∈ u.dep.cocoon, r.rank = 2 ∧ r ∈ s.dep.cocoon) ∧
      u.bit pCOCOON Off.cocoon_WR_STAT 0 = false ∧ (s.dep.silk.snap.isSome = true → u.Faulted pCOCOON 13)))

/-! ## Functional safety -/

/-- R544, R545, R547 to R550, R552, R554, R555, R557 to R559, R561, R562: FAULT_N and its causes, the ALIVE heartbeat, the comparators, the
camera-monitor views, the configuration check, clocks and supplies, and injection. -/
def Obligations.FunctionalSafety : Prop :=
  (∀ (m : Master) (v : Word) (s : State), s.Open m pSAFETY →
    (wfld v 16 16 ≠ 0x5CA7 → s.Answers (.fnClr m v) fun u => u.Faulted pSAFETY 1 ∧ ∀ b < 8, u.bit pSAFETY Off.safety_FN_LATCH b = true ∨
      s.bit pSAFETY Off.safety_FN_LATCH b = false) ∧
    (wfld v 16 16 = 0x5CA7 → s.Answers (.fnClr m v) fun u => ∀ b < 11, b ≠ 1 → u.bit pSAFETY Off.safety_FN_LATCH b =
      (s.bit pSAFETY Off.safety_FN_LATCH b && (!bitAt v b || s.fnCauses.testBit b))) ∧
    (wfld v 16 16 = 0x5CA7 → bitAt v 1 = true → s.Answers (.fnClr m v) fun u => u.bit pSAFETY Off.safety_FN_LATCH 1 = false ∧ u.dep.lockstep = false) ∧
    (wfld v 16 16 = 0x5CA7 → wfld v 0 11 = 0x7FF → Nat.land s.fnCauses 0x7FD = 0 → s.Answers (.fnClr m v) fun u =>
      u.reg pSAFETY Off.safety_FN_LATCH = 0 ∧ u.bit pSAFETY Off.safety_FN_STAT 0 = false ∧ u.bit pSAFETY Off.safety_FN_STAT 1 = true) ∧
    (bitAt v 0 = true → s.bit pSAFETY Off.safety_FN_EN 9 = true → s.Answers (.fnSwWrite m v) fun u =>
      u.bit pSAFETY Off.safety_FN_SW 0 = true ∧ u.bit pSAFETY Off.safety_FN_LATCH 9 = true ∧
      (s.bit pSAFETY Off.safety_FN_LATCH 9 = false → s.bit pSAFETY Off.safety_FN_STAT 0 = false → u.bit pSAFETY Off.safety_FN_STAT 0 = true ∧
        u.bit pSAFETY Off.safety_FN_STAT 1 = false ∧ u.Faulted pSAFETY 8 ∧ (∃ x, u.dep.silk.snap = some x ∧ (s.dep.silk.snap = none → x.trigger = 3)) ∧
        (s.dep.silk.buf.length < 60 → ∃ r ∈ u.dep.silk.buf, r.code = 0x0B01 ∧ r.page = pSAFETY))) ∧
    (bitAt v 0 = false → s.Answers (.fnSwWrite m v) fun u => u.bit pSAFETY Off.safety_FN_SW 0 = false)) ∧
  (∀ (m : Master) (v : Word) (s : State), s.Open m pSAFETY →
    (wfld v 16 16 = 0x5CA7 → bitAt v 0 = true → s.fld pSAFETY Off.safety_HB_CFG 0 8 < s.fld pSAFETY Off.safety_HB_CFG 8 8 →
      s.Answers (.arm m v) fun u => u.bit pSAFETY Off.safety_HB_STAT 0 = true ∧ u.bit pSAFETY Off.safety_HB_STAT 1 = false ∧
        u.bit pSAFETY Off.safety_HB_STAT 2 = s.bit pSAFETY Off.safety_HB_STAT 2 ∧ u.reg pSAFETY Off.safety_HB_TOKEN = 0xACE1 ∧ u.dep.hbAt = s.now) ∧
    (wfld v 16 16 = 0x5CA7 → bitAt v 0 = true → s.fld pSAFETY Off.safety_HB_CFG 8 8 ≤ s.fld pSAFETY Off.safety_HB_CFG 0 8 →
      s.Answers (.arm m v) fun u => u.Faulted pSAFETY 15 ∧ u.reg pSAFETY Off.safety_HB_STAT = s.reg pSAFETY Off.safety_HB_STAT ∧ u.dep.hbAt = s.dep.hbAt) ∧
    (∀ age : Nat, s.now = s.dep.hbAt + age → s.bit pSAFETY Off.safety_HB_STAT 0 = true →
      (s.bit pSAFETY Off.safety_HB_STAT 1 = true → s.Answers (.hbKick m v) fun u => u.reg pSAFETY Off.safety_HB_STAT = s.reg pSAFETY Off.safety_HB_STAT ∧
        u.reg pSAFETY Off.safety_HB_TOKEN = s.reg pSAFETY Off.safety_HB_TOKEN) ∧
      (s.bit pSAFETY Off.safety_HB_STAT 1 = false →
        (wfld v 0 16 = 65535 - s.fld pSAFETY Off.safety_HB_TOKEN 0 16 → s.fld pSAFETY Off.safety_HB_CFG 0 8 * 250000 ≤ age →
          age < s.fld pSAFETY Off.safety_HB_CFG 8 8 * 250000 → s.Answers (.hbKick m v) fun u =>
            u.bit pSAFETY Off.safety_HB_STAT 2 = !s.bit pSAFETY Off.safety_HB_STAT 2 ∧ u.dep.hbAt = s.now ∧
            u.reg pSAFETY Off.safety_HB_TOKEN = wd (hbNext (s.fld pSAFETY Off.safety_HB_TOKEN 0 16)) ∧
            u.fld pSAFETY Off.safety_HB_STAT 16 16 = (s.fld pSAFETY Off.safety_HB_STAT 16 16 + 1) % 65536 ∧
            s.KeepsRegs u pSAFETY [Off.safety_HB_STAT, Off.safety_HB_TOKEN]) ∧
        (wfld v 0 16 ≠ 65535 - s.fld pSAFETY Off.safety_HB_TOKEN 0 16 ∨ age < s.fld pSAFETY Off.safety_HB_CFG 0 8 * 250000 ∨
          s.fld pSAFETY Off.safety_HB_CFG 8 8 * 250000 ≤ age → s.Answers (.hbKick m v) fun u => u.bit pSAFETY Off.safety_HB_STAT 1 = true ∧
            u.bit pSAFETY Off.safety_HB_STAT 2 = s.bit pSAFETY Off.safety_HB_STAT 2 ∧ u.Faulted pSAFETY 10 ∧ u.bit pSAFETY Off.safety_FN_LATCH 2 = true) ∧
        (age < s.fld pSAFETY Off.safety_HB_CFG 8 8 * 250000 → s.Answers .hbTimeout fun u => u = s) ∧
        (s.fld pSAFETY Off.safety_HB_CFG 8 8 * 250000 ≤ age → s.Answers .hbTimeout fun u => u.bit pSAFETY Off.safety_HB_STAT 1 = true ∧
          u.bit pSAFETY Off.safety_HB_STAT 2 = s.bit pSAFETY Off.safety_HB_STAT 2 ∧ u.Faulted pSAFETY 10 ∧ u.bit pSAFETY Off.safety_FN_LATCH 2 = true ∧
          u.dep.hbAt = s.dep.hbAt)))) ∧
  (∀ (m : Master) (n missed : Nat) (v : Word) (s : State), n < 8 →
    (s.alive (pSVC n) = true → s.pairState n = 2 ∨ s.pairState n = 3 → s.Answers (.lockstepMismatch n) fun u => u.fenced (pSVC n) = true ∧
      u.Faulted (pSVC n) 8 ∧ u.pairState n = (if 2 ≤ s.fld (pSVC n) Off.svc_STAT 4 2 then 5 else 4) ∧ u.dep.lockstep = true ∧
      (s.bit pSAFETY Off.safety_FN_EN 1 = true → u.bit pSAFETY Off.safety_FN_LATCH 1 = true)) ∧
    (s.Open m pSAFETY → bitAt v n = true → s.Answers (.lsTest m v missed) fun u =>
      u.bit pSAFETY Off.safety_LS_RESULT n = !missed.testBit n ∧ u.bit pSAFETY Off.safety_LS_RESULT (8 + n) = missed.testBit n ∧
      (missed.testBit n = true → u.Faulted pSAFETY 9 ∧ u.dep.lockstep = true) ∧ ∀ k < 8, u.pairState k = s.pairState k) ∧
    (s.Open m pSAFETY → bitAt v n = false → s.Answers (.lsTest m v missed) fun u =>
      u.bit pSAFETY Off.safety_LS_RESULT n = s.bit pSAFETY Off.safety_LS_RESULT n ∧
      u.bit pSAFETY Off.safety_LS_RESULT (8 + n) = s.bit pSAFETY Off.safety_LS_RESULT (8 + n))) ∧
  (∀ (m : Master) (i f h : Nat) (v cfg : Word) (s : State), i < 8 → cfg = s.reg pSAFETY (Off.safety_VIEW_CFG + 0x10 * i) → h = wfld cfg 1 3 →
    (bitAt cfg 0 = false → s.Answers (.viewEvaluate i f) fun u => u = s) ∧
    (bitAt cfg 0 = true → (∀ r < 16, bitAt cfg (8 + r) = true → (s.reg (pEYE h) (erOff r Off.eye_R_FRAME)).toNat = f ∧ (s.eyeReg h r).due = none) →
      (∀ l ∈ (s.head h).lines, l.frame ≠ f) → Map.get (fun _ => none) s.dep.viewSeen i ≠ some f → Map.get (fun _ => none) s.dep.viewClr i = none →
      ((bitAt cfg 4 = true → s.bit pLINEVIEW (llOff h Off.lineview_LL_STAT) 8 = false ∧ s.bit pLINEVIEW (llOff h Off.lineview_LL_STAT) 10 = false ∧
          s.fld pLINEVIEW (llOff h Off.lineview_LL_STAT) 0 2 = 2) →
        (∀ r < 16, bitAt cfg (8 + r) = true → s.bit (pEYE h) (erOff r Off.eye_R_STAT) 0 = false ∧ s.bit (pEYE h) Off.eye_SAFE_MAP r = false) →
        s.Answers (.viewEvaluate i f) fun u => u.fld pSAFETY (Off.safety_VIEW_STAT + 0x10 * i) 0 4 = 0 ∧
          u.bit pSAFETY (Off.safety_VIEW_STAT + 0x10 * i) 4 = s.bit pSAFETY (Off.safety_VIEW_STAT + 0x10 * i) 4 ∧
          u.fld pSAFETY (Off.safety_VIEW_STAT + 0x10 * i) 16 16 = (s.fld pSAFETY (Off.safety_VIEW_STAT + 0x10 * i) 16 16 + 1) % 65536 ∧
          s.KeepsRegs u pSAFETY [Off.safety_VIEW_STAT + 0x10 * i]) ∧
      (bitAt cfg 4 = true → s.fld pLINEVIEW (llOff h Off.lineview_LL_STAT) 0 2 ≠ 2 →
        s.Answers (.viewEvaluate i f) fun u => u.fld pSAFETY (Off.safety_VIEW_STAT + 0x10 * i) 0 4 =
            min 15 (s.fld pSAFETY (Off.safety_VIEW_STAT + 0x10 * i) 0 4 + 1) ∧
          u.bit pSAFETY (Off.safety_VIEW_STAT + 0x10 * i) 5 = true ∧
          (max 1 (wfld cfg 24 4) ≤ s.fld pSAFETY (Off.safety_VIEW_STAT + 0x10 * i) 0 4 + 1 →
            s.bit pSAFETY (Off.safety_VIEW_STAT + 0x10 * i) 4 = false → u.bit pSAFETY (Off.safety_VIEW_STAT + 0x10 * i) 4 = true ∧
            u.Faulted pSAFETY 11 ∧ (s.bit pSAFETY Off.safety_FN_EN 3 = true → u.bit pSAFETY Off.safety_FN_LATCH 3 = true)))) ∧
    (s.Open m pSAFETY → bitAt v 0 = true → s.Answers (.viewClr m i v) fun u => u.regs = s.regs ∧
      Map.get (fun _ => none) u.dep.viewClr i = some s.now)) ∧
  (∀ (ws : Words) (t : State) (s : State), (ws, t) = s.checkWords (List.range (min 64 (s.fld pSAFETY Off.safety_CHK_CFG 0 7))) →
    (s.bit pSAFETY Off.safety_CHK_CFG 7 = false → s.Answers (.configCheckRun false) fun u => u = s) ∧
    (s.bit pSAFETY Off.safety_CHK_CFG 7 = true → (∀ o < 4096, t.reg pSAFETY o = s.reg pSAFETY o) →
      (wd (crc32c (wordsBytes ws)) = s.reg pSAFETY Off.safety_CHK_EXPECT → s.Answers (.configCheckRun false) fun u =>
        u.reg pSAFETY Off.safety_CHK_RESULT = s.reg pSAFETY Off.safety_CHK_EXPECT ∧ u.fld pSAFETY Off.safety_CHK_STAT 0 2 = 0 ∧
        u.fld pSAFETY Off.safety_CHK_STAT 16 16 = (s.fld pSAFETY Off.safety_CHK_STAT 16 16 + 1) % 65536) ∧
      (wd (crc32c (wordsBytes ws)) ≠ s.reg pSAFETY Off.safety_CHK_EXPECT → s.Answers (.configCheckRun false) fun u =>
        u.reg pSAFETY Off.safety_CHK_RESULT = wd (crc32c (wordsBytes ws)) ∧ u.bit pSAFETY Off.safety_CHK_STAT 0 = true ∧ u.Faulted pSAFETY 14) ∧
      s.Answers (.configCheckRun true) fun u => u.bit pSAFETY Off.safety_CHK_STAT 1 = true ∧ u.Faulted pSAFETY 14)) ∧
  (∀ (dev r : Nat) (s : State), (20 < dev → 1 ≤ s.dep.clkHigh → s.Answers (.clockMonitorWindow dev) fun u =>
      u.bit pSAFETY Off.safety_CLK_STAT 0 = true ∧ u.Faulted pSAFETY 12 ∧ u.fld pSAFETY Off.safety_CLK_STAT 8 8 = min 255 dev) ∧
    (20 < dev → s.dep.clkHigh = 0 → s.Answers (.clockMonitorWindow dev) fun u => u.dep.clkHigh = 1 ∧ u.dep.clkGood = 0 ∧
      u.bit pSAFETY Off.safety_CLK_STAT 0 = s.bit pSAFETY Off.safety_CLK_STAT 0) ∧
    (dev ≤ 10 → 99 ≤ s.dep.clkGood → s.Answers (.clockMonitorWindow dev) fun u => u.bit pSAFETY Off.safety_CLK_STAT 0 = false) ∧
    (r < 12 → s.power.mainPwrEn = true → (s.Answers (.supplyWindow r true) fun u => u.bit pSAFETY Off.safety_SUP_STAT r = true ∧ u.Faulted pSAFETY 13 ∧
        (s.bit pSAFETY Off.safety_FN_EN 7 = true → u.bit pSAFETY Off.safety_FN_LATCH 7 = true)) ∧
      s.Answers (.supplyWindow r false) fun u => u.bit pSAFETY Off.safety_SUP_STAT r = false ∧ s.KeepsRegs u pSAFETY [Off.safety_SUP_STAT])) ∧
  (∀ (m : Master) (p : Nat) (v : Word) (s : State), s.Open m p →
    (wfld v 16 16 ≠ 0x5CA7 ∨ s.bit pSAFETY Off.safety_INJ_EN 0 = false → s.Answers (.faultInject m p v) fun u => u.Faulted p 1 ∧
      s.KeepsRegs u p []) ∧
    (wfld v 16 16 = 0x5CA7 → s.bit pSAFETY Off.safety_INJ_EN 0 = true → bitAt v 7 = true → wfld v 5 2 = 0 → (faultMask p).testBit (wfld v 0 5) = true →
      s.Answers (.faultInject m p v) fun u => u.Faulted p (wfld v 0 5) ∧ u.fld pSAFETY Off.safety_CNT_INJ 0 32 =
        min (2 ^ 32 - 1) (s.fld pSAFETY Off.safety_CNT_INJ 0 32 + 1)) ∧
    (wfld v 16 16 = 0x5CA7 → s.bit pSAFETY Off.safety_INJ_EN 0 = true → bitAt v 7 = true → wfld v 5 2 = 3 →
      s.Answers (.faultInject m p v) fun u => u.Faulted p 0) ∧
    (p = pSAFETY → bitAt v 8 = true → s.bit pSAFETY Off.safety_INJ_EN 0 = false → s.Answers (.eyeInj m v) fun u => u.Faulted pSAFETY 1 ∧ u.disp = s.disp) ∧
    (p = pSAFETY → bitAt v 8 = true → s.bit pSAFETY Off.safety_INJ_EN 0 = true → s.Answers (.eyeInj m v) fun u =>
      (u.eyeReg (wfld v 0 3) (wfld v 4 4)).inject = true ∧ s.KeepsRegs u pSAFETY [Off.safety_CNT_INJ]))

/-! ## Power, thermal management and start-up -/

/-- R564 to R566, R571 to R574: requests for domains, a domain that becomes ready, power states and wakes. -/
def Obligations.DomainsAndPowerStates : Prop :=
  (∀ (m : Master) (i j d h : Nat) (w : Word) (s : State), i < 4 → j < 32 → d = 32 * i + j → d < 112 → s.Open m (pPWR 0) →
    w = s.reg (pPWR 0) (Off.pwr0_DOM_REQ0 + 4 * i) → h = s.domHold d →
    (s.fld (pPWR 1) Off.pwr1_STATE 0 2 ≠ 0 → (s.Answers (.domainOnRequest m i (w ||| wd (2 ^ j))) fun u => u.Faulted (pPWR 0) 0 ∧
        u.reg (pPWR 0) (Off.pwr0_DOM_REQ0 + 4 * i) = w) ∧
      s.Answers (.domainOffRequest m i (w &&& ~~~wd (2 ^ j))) fun u => u.Faulted (pPWR 0) 0 ∧ u.reg (pPWR 0) (Off.pwr0_DOM_REQ0 + 4 * i) = w) ∧
    (s.fld (pPWR 1) Off.pwr1_STATE 0 2 = 0 → bitAt w j = false → s.domOn d = false → s.Answers (.domainOnRequest m i (w ||| wd (2 ^ j))) fun u =>
      u.reg (pPWR 0) (Off.pwr0_DOM_REQ0 + 4 * i) = w ||| wd (2 ^ j) ∧ d ∈ u.power.queue ∧ u.domOn d = false ∧
      s.KeepsRegs u (pPWR 0) [Off.pwr0_DOM_REQ0 + 4 * i]) ∧
    (s.fld (pPWR 1) Off.pwr1_STATE 0 2 = 0 → bitAt w j = true → s.domOn d = true → h ≠ 0 → s.Answers (.domainOffRequest m i (w &&& ~~~wd (2 ^ j))) fun u =>
      u.reg (pPWR 0) (Off.pwr0_DOM_REQ0 + 4 * i) = w ∧ u.domOn d = true ∧ u.Faulted (pPWR 0) 8 ∧
      u.fld (pPWR 0) Off.pwr0_DOM_CMD_STAT 0 16 = d + h * 256) ∧
    (s.fld (pPWR 1) Off.pwr1_STATE 0 2 = 0 → bitAt w j = true → s.domOn d = true → h = 0 → s.Answers (.domainOffRequest m i (w &&& ~~~wd (2 ^ j))) fun u =>
      u.reg (pPWR 0) (Off.pwr0_DOM_REQ0 + 4 * i) = w &&& ~~~wd (2 ^ j) ∧ u.domOn d = false)) ∧
  (∀ (d : Nat) (rest : List Nat) (s : State), d < 112 →
    (s.power.queue = [] → s.Answers .domainReady fun u => u = s) ∧
    (s.power.queue = d :: rest → s.bit (pPWR 0) (Off.pwr0_DOM_REQ0 + 4 * (d / 32)) (d % 32) = true → s.domOn d = false →
      s.Answers .domainReady fun u => u.domOn d = true ∧ u.power.queue = rest.foldl (fun l e => insertDom e l) [] ∧
        ∀ p < 1024, pageKind p ≠ .none → domainOf p = d → u.fenced p = false ∧ u.powered p = true)) ∧
  (∀ (m : Master) (v : Word) (s : State), s.Open m (pPWR 1) →
    (wfld v 16 16 ≠ 0x5CA7 → (s.Answers (.standbyRequest m v) fun u => u.Faulted (pPWR 1) 9 ∧ u.power = s.power) ∧
      (s.Answers (.dormantRequest m v) fun u => u.Faulted (pPWR 1) 9 ∧ u.power = s.power) ∧
      s.Answers (.activeRequest m v) fun u => u.Faulted (pPWR 1) 9 ∧ u.power = s.power) ∧
    (wfld v 16 16 = 0x5CA7 → wfld v 0 2 = 1 → s.fld (pPWR 1) Off.pwr1_STATE 0 2 = 0 →
      (s.pairState 0 ≠ 3 → s.Answers (.standbyRequest m v) fun u => u.Faulted (pPWR 1) 9 ∧ u.fld (pPWR 1) Off.pwr1_STATE 0 2 = 0 ∧ u.power = s.power) ∧
      (s.pairState 0 = 3 → s.Answers (.standbyRequest m v) fun u => u.fld (pPWR 1) Off.pwr1_STATE 0 2 = 1 ∧ u.power.wake = none ∧ u.power.queue = [] ∧
        ∀ d < 112, d ≠ 106 → ¬ (98 ≤ d ∧ d < 106) → u.domOn d = false)) ∧
    (wfld v 16 16 = 0x5CA7 → wfld v 0 2 = 2 → s.fld (pPWR 1) Off.pwr1_STATE 0 2 = 1 →
      (s.power.wake = none → s.Answers (.dormantRequest m v) fun u => u.fld (pPWR 1) Off.pwr1_STATE 0 2 = 2 ∧ u.power.mainPwrEn = false ∧
        ∀ d < 112, u.domOn d = false) ∧
      (∀ c : Nat × Nat, s.power.wake = some c → s.Answers (.dormantRequest m v) fun u => u.fld (pPWR 1) Off.pwr1_STATE 0 2 = 1 ∧ u.power.wake = none ∧
        u.reg (pPWR 1) Off.pwr1_WAKE_CAUSE = wd (c.1 + c.2 * 256))) ∧
    (wfld v 16 16 = 0x5CA7 → wfld v 0 2 = 0 → s.fld (pPWR 1) Off.pwr1_STATE 0 2 = 1 → s.Answers (.activeRequest m v) fun u =>
      u.fld (pPWR 1) Off.pwr1_STATE 0 2 = 0 ∧ u.power = s.power ∧
      ∀ n < 16, s.fld (pDRAM n) Off.dram_STATE 0 3 = 3 → u.fld (pDRAM n) Off.dram_STATE 0 3 = 2) ∧
    (wfld v 16 16 = 0x5CA7 → wfld v 0 2 = 2 → s.fld (pPWR 1) Off.pwr1_STATE 0 2 = 0 → s.Answers (.dormantRequest m v) fun u =>
      u.Faulted (pPWR 1) 9 ∧ u.power = s.power)) ∧
  (∀ (c : Nat × Nat) (s : State), (s.power.wake = none → s.Answers .wake fun u => u = s) ∧
    (s.power.wake = some c → s.fld (pPWR 1) Off.pwr1_STATE 0 2 = 1 → s.Answers .wake fun u => u.fld (pPWR 1) Off.pwr1_STATE 0 2 = 0 ∧
      u.power.wake = none ∧ u.reg (pPWR 1) Off.pwr1_WAKE_CAUSE = wd (c.1 + c.2 * 256)) ∧
    (s.power.wake = some c → s.fld (pPWR 1) Off.pwr1_STATE 0 2 = 2 → s.power.restartAt ≠ some s.now → s.Answers .wake fun u =>
      u.fld (pPWR 1) Off.pwr1_STATE 0 2 = 0 ∧ u.fld pGLOBAL Off.global_RESET_CAUSE 0 3 = 4 ∧ u.power.steps = 2 ∧
      u.reg (pPWR 1) Off.pwr1_WAKE_CAUSE = wd (c.1 + c.2 * 256) ∧ u.tb.time = s.tb.time))

/-- R569, R575 to R579, R581 to R584, R595: temperature samples, crossings, the trip and the restart after it, sensor checks, compensation
and a PLL that loses lock. -/
def Obligations.ThermalManagement : Prop :=
  (∀ (raw : List Int) (s : State), (s.power.steps = 0 → s.Answers (.thermalSample raw) fun u => u = s) ∧
    (s.power.steps ≠ 0 → dueAgain s.power.sampleAt 25000 s.now = true → s.Answers (.thermalSample raw) fun u =>
      (∀ i < 32, (u.sensor i).raw = raw.getD i 0) ∧
      (∀ z < 8, ∀ k < 4, u.crossing z k = (s.crossing z k).sample (s.threshold k).1 (s.threshold k).2.1 (s.threshold k).2.2
        (if k < 2 then some (u.zoneT z) else u.zoneV z)) ∧
      (∀ z < 8, s.above z 0 = false → u.above z 0 = true → u.Faulted (pTHERM 0) 8) ∧
      (∀ z < 8, s.above z 1 = false → u.above z 1 = true → u.Faulted (pTHERM 0) 9) ∧
      (u.power.preTripOn = true ↔ ∃ z < 8, u.above z 2 = true) ∧
      (u.validOf (List.range 32) = [] → u.Faulted (pTHERM 0) 12) ∧
      (∀ z < 8, ∀ v : Int, u.zoneV z = some v → 16 * (s.threshold 3).1 + 80 ≤ v → ∃ y < 8, u.power.tripWait = some (y, s.now)) ∧
      (∀ z < 8, (u.reg (pTHERM 0) (Off.therm0_ZONE_Tz + 4 * z)).toNat % 65536 = unsigned 16 (u.zoneT z) ∧
        u.reg (pPWR 2) (Off.pwr2_THR_DUTY0 + 4 * z) = wd (u.thrShare z 1 + u.thrShare z 2 * 256 + u.thrShare z 3 * 65536)) ∧
      (s.fld (pPWR 1) Off.pwr1_STATE 0 2 ≠ 3 → u.power.cool = 0))) ∧
  (∀ (z due : Nat) (s : State), (s.power.tripWait = none → s.Answers .thermalTrip fun u => u = s) ∧
    (s.power.tripWait = some (z, due) → s.now < due → s.Answers .thermalTrip fun u => u = s) ∧
    (s.power.tripWait = some (z, due) → due ≤ s.now → s.fld (pPWR 1) Off.pwr1_STATE 0 2 ≠ 3 → s.Answers .thermalTrip fun u =>
      u.fld (pPWR 1) Off.pwr1_STATE 0 2 = 3 ∧ u.power.mainPwrEn = false ∧ u.power.tripWait = none ∧ (∀ d < 112, u.domOn d = false) ∧
      ∃ r ∈ u.dep.cocoon, r.off = 0x1700 ∧ r.type = 0x0301 ∧ r.payload.take 8 = leBytes 8 s.timeNs)) ∧
  (∀ s : State, (s.fld (pPWR 1) Off.pwr1_STATE 0 2 ≠ 3 → s.Answers .thermalRestart fun u => u = s) ∧
    (s.power.cool < (s.threshold 3).2.2 → s.Answers .thermalRestart fun u => u = s) ∧
    (s.fld (pPWR 1) Off.pwr1_STATE 0 2 = 3 → (s.threshold 3).2.2 ≤ s.power.cool → s.power.restartAt ≠ some s.now → s.Answers .thermalRestart fun u =>
      u.fld (pPWR 1) Off.pwr1_STATE 0 2 = 0 ∧ u.fld pGLOBAL Off.global_RESET_CAUSE 0 3 = 3 ∧ u.power.steps = 1)) ∧
  (∀ (diode : List Int) (i : Nat) (r ref : Int) (s : State), i < 32 → s.power.steps ≠ 0 → dueAgain s.power.checkAt 25000000 s.now = true → r = (s.sensor i).raw → ref = diode.getD (i / 4) 0 →
    (r < -880 ∨ 2400 < r ∨ (16 * s.fld (pTHERM 0) Off.therm0_CHECK 0 8 : Int) < r - ref ∨ r - ref < -(16 * s.fld (pTHERM 0) Off.therm0_CHECK 0 8 : Int) →
      s.Answers (.sensorCheck diode) fun u => u.sensFailed i = true ∧ (s.sensFailed i = false → u.Faulted (pTHERM 0) 11)) ∧
    (-880 ≤ r → r ≤ 2400 → r - ref ≤ (16 * s.fld (pTHERM 0) Off.therm0_CHECK 0 8 : Int) → -(16 * s.fld (pTHERM 0) Off.therm0_CHECK 0 8 : Int) ≤ r - ref →
      s.Answers (.sensorCheck diode) fun u => u.sensFailed i = (s.sensFailed i && decide ((s.sensor i).passes + 1 < 10)))) ∧
  (∀ (t : Int) (s : State), s.power.steps ≠ 0 → dueAgain s.power.compAt 2500000 s.now = true →
    ((∀ i < 32, s.sensFailed i = true) → s.Answers .compensationRun fun u => u.bit pCLOCKS Off.clocks_OSC_STAT 1 = false ∧ u.Faulted pCLOCKS 9) ∧
    (s.zoneV 0 = some t → s.Answers .compensationRun fun u => u.bit pCLOCKS Off.clocks_OSC_STAT 1 = true ∧
      u.reg pCLOCKS Off.clocks_COMP_TEMP = wd (unsigned 16 t) ∧
      u.fld pCLOCKS Off.clocks_COMP_CNT 0 32 = min (2 ^ 32 - 1) (s.fld pCLOCKS Off.clocks_COMP_CNT 0 32 + 1))) ∧
  (∀ (p : Nat) (locked : Bool) (s : State), p < 16 → s.power.steps ≠ 0 → s.Answers (.pllLossOfLock p locked) fun u =>
    u.bit pCLOCKS (Off.clocks_PLL_STATp + 4 * p) 0 = locked ∧ u.Faulted pCLOCKS 8 ∧
    u.fld pCLOCKS (Off.clocks_PLL_STATp + 4 * p) 8 8 = min 255 (s.fld pCLOCKS (Off.clocks_PLL_STATp + 4 * p) 8 8 + 1) ∧
    s.KeepsRegs u pCLOCKS [Off.clocks_PLL_STATp + 4 * p])

/-- R585 to R590: the boot record, the version counter, verification, the boot flash, and a pair's RESET with the end of its BIST. -/
def Obligations.BootImages : Prop :=
  (∀ (m : Master) (v : Word) (s : State), s.Open m pBOOT →
    (wfld v 16 16 ≠ 0x5CA7 → (s.Answers (.confirm m v) fun u => u.power = s.power ∧ u.regs = s.regs) ∧
      (s.Answers (.pref m v) fun u => u.power = s.power ∧ u.regs = s.regs) ∧ s.Answers (.verAdv m v) fun u => u.power = s.power ∧ u.regs = s.regs) ∧
    (wfld v 16 16 = 0x5CA7 → bitAt v 0 = true → (s.Answers (.confirm m v) fun u => u.power.trial = false ∧ u.power.tries = 0 ∧
        u.power.pref = s.power.pref ∧ ∃ r ∈ u.dep.cocoon, r.off = 0x5800 ∧ r.type = 0x0101) ∧
      s.Answers (.verAdv m v) fun u => u.power.fuseVer = max s.power.fuseVer s.power.bootedVer ∧
        u.reg pBOOT Off.boot_SEC_VERSION = wd (max s.power.fuseVer s.power.bootedVer)) ∧
    (wfld v 16 16 = 0x5CA7 → s.Answers (.pref m v) fun u => u.power.pref = bitAt v 0 ∧ u.power.trial = bitAt v 1 ∧
      ∃ r ∈ u.dep.cocoon, r.off = 0x5800 ∧ r.type = 0x0101) ∧
    (s.bit pBOOT Off.boot_VERIFY_STAT 0 = true → s.Answers (.verifyCmd m v) fun u => u.Faulted pBOOT 0 ∧
      u.reg pBOOT Off.boot_VERIFY_STAT = s.reg pBOOT Off.boot_VERIFY_STAT) ∧
    (s.bit pBOOT Off.boot_VERIFY_STAT 0 = false → bitAt v 0 = true → s.Answers (.verifyCmd m v) fun u =>
      u.bit pBOOT Off.boot_VERIFY_STAT 0 = true ∧ u.bit pBOOT Off.boot_VERIFY_STAT 3 = s.bit pBOOT Off.boot_VERIFY_STAT 3)) ∧
  (∀ (a : Nat) (h : List Byte) (s : State), a = s.reg64 pBOOT Off.boot_VERIFY_LO (Off.boot_VERIFY_LO + 4) / 4096 * 4096 →
    (s.bit pBOOT Off.boot_VERIFY_STAT 0 = false → s.Answers .verifyDone fun u => u = s) ∧
    (s.bit pBOOT Off.boot_VERIFY_STAT 0 = true →
      ((s.busRead a 0x200).1.bad = true → s.Answers .verifyDone fun u => u.fld pBOOT Off.boot_VERIFY_STAT 4 4 = 6 ∧ u.Faulted pBOOT 9) ∧
      ((s.busRead a 0x200).1.bad = false → h = (s.busRead a 0x200).1.bytes → headerOk h = false → s.Answers .verifyDone fun u =>
        u.bit pBOOT Off.boot_VERIFY_STAT 0 = false ∧ u.bit pBOOT Off.boot_VERIFY_STAT 2 = true ∧ u.fld pBOOT Off.boot_VERIFY_STAT 4 4 = 1 ∧
        u.Faulted pBOOT 9) ∧
      (∀ x : ReadData, (s.busRead a 0x200).1.bad = false → h = (s.busRead a 0x200).1.bytes → headerOk h = true →
        x = ((s.busRead a 0x200).2.busRead (a + 0x200) (imgLength h)).1 → x.bad = false → s.Answers .verifyDone fun u =>
          u.bit pBOOT Off.boot_VERIFY_STAT 0 = false ∧ u.fld pBOOT Off.boot_VERIFY_STAT 4 4 = s.imageReason h x.bytes ∧
          (s.imageReason h x.bytes = 0 → u.bit pBOOT Off.boot_VERIFY_STAT 3 = true ∧
            u.reg64 pBOOT Off.boot_VERIFY_ENTRY_LO (Off.boot_VERIFY_ENTRY_LO + 4) = imgEntry h ∧ u.plat.verified = some (a, 0x200 + imgLength h)) ∧
          (s.imageReason h x.bytes ≠ 0 → u.bit pBOOT Off.boot_VERIFY_STAT 2 = true ∧ u.Faulted pBOOT 9)))) ∧
  (∀ (m : Master) (v : Word) (s : State), s.Open m pBOOT →
    (s.power.xspi.isSome = true ∨ wfld v 0 2 = 0 → (s.Answers (.xspiRead m v) fun u => u.Faulted pBOOT 0 ∧ u.power = s.power) ∧
      (s.Answers (.xspiProgram m v) fun u => u.Faulted pBOOT 0 ∧ u.power = s.power) ∧ s.Answers (.xspiErase m v) fun u => u.Faulted pBOOT 0 ∧ u.power = s.power) ∧
    (s.power.xspi = none →
      (wfld v 0 2 = 1 → s.Answers (.xspiRead m v) fun u => u.fld pBOOT Off.boot_XSPI_STAT 0 3 = 1 ∧ u.power = { s.power with xspi := some v }) ∧
      (wfld v 0 2 = 2 → s.Answers (.xspiProgram m v) fun u => u.fld pBOOT Off.boot_XSPI_STAT 0 3 = 1 ∧ u.power = { s.power with xspi := some v }) ∧
      (wfld v 0 2 = 3 → s.Answers (.xspiErase m v) fun u => u.fld pBOOT Off.boot_XSPI_STAT 0 3 = 1 ∧ u.power = { s.power with xspi := some v }))) ∧
  (∀ (v : Word) (a : Nat) (s : State), a = (s.reg pBOOT Off.boot_XSPI_ADDR).toNat →
    (s.power.xspi = none → s.Answers (.xspiDone true) fun u => u = s) ∧
    (s.power.xspi = some v → (s.Answers (.xspiDone false) fun u => u.fld pBOOT Off.boot_XSPI_STAT 0 3 = 6 ∧ u.Faulted pBOOT 11 ∧ u.power.xspi = none) ∧
      (wfld v 0 2 = 1 → s.Answers (.xspiDone true) fun u => u.power.xspi = none ∧ u.power.flash = s.power.flash) ∧
      (wfld v 0 2 = 3 → s.Answers (.xspiDone true) fun u => u.power.xspi = none ∧ u.fld pBOOT Off.boot_XSPI_STAT 0 3 = 2 ∧
        ∀ x : Nat, Map.get (fun _ => 0xFF) u.power.flash x = if x / 65536 = a / 65536 then 0xFF else Map.get (fun _ => 0xFF) s.power.flash x) ∧
      (∀ x : ReadData, wfld v 0 2 = 2 → x = (s.busRead (s.reg64 pBOOT Off.boot_XSPI_BUF_LO (Off.boot_XSPI_BUF_LO + 4) / 64 * 64) 256).1 → x.bad = false →
        s.Answers (.xspiDone true) fun u => u.power.xspi = none ∧ u.fld pBOOT Off.boot_XSPI_STAT 0 3 = 2 ∧
          ∀ k < 256, u.flashRead (a / 256 * 256 + k) 1 = [(x.bytes.getD k 0) &&& ((s.flashRead (a / 256 * 256 + k) 1).getD 0 0)]))) ∧
  (∀ (m : Master) (n : Nat) (s : State), n < 8 →
    (s.Open m (pSVC n) → s.pairState n = 3 → s.otherActive n = false → s.Answers (.svcReset m n) fun u => u.Faulted (pSVC n) 0 ∧ u.pairState n = 3) ∧
    (s.Open m (pSVC n) → s.pairState n = 2 ∨ (s.pairState n = 3 ∧ s.otherActive n = true) → s.bootVerified n = false →
      s.Answers (.svcReset m n) fun u => u.Faulted (pSVC n) 0 ∧ u.Faulted pBOOT 10 ∧ u.pairState n = s.pairState n) ∧
    (s.Open m (pSVC n) → s.pairState n = 2 ∨ (s.pairState n = 3 ∧ s.otherActive n = true) → s.bootVerified n = true →
      s.Answers (.svcReset m n) fun u => u.pairState n = 1 ∧ u.bit (pSVC n) Off.svc_STAT 3 = false) ∧
    (s.pairState n ≠ 1 → s.pairState n ≠ 4 → s.Answers (.pairBistDone n true) fun u => u = s) ∧
    (s.powered (pSVC n) = true → s.pairState n = 1 →
      (s.Answers (.pairBistDone n true) fun u => u.pairState n = 2 ∧ u.bit (pSVC n) Off.svc_STAT 3 = !s.bootVerified n ∧
        (s.bootVerified n = false → u.Faulted pBOOT 10)) ∧
      s.Answers (.pairBistDone n false) fun u => u.Faulted (pSVC n) 10 ∧ u.pairState n = if 2 ≤ s.fld (pSVC n) Off.svc_STAT 4 2 then 5 else 4))

/-- R56, R465, R519, R590 to R594, R631 to R633, R643, R644: the steps of start-up, what each reset keeps, supplies and pins, and the Swift lanes'
equalisers and eye scans. -/
def Obligations.StartUpAndResets : Prop :=
  (∀ (e : StartEnv) (s : State), s.power.waitCause = none →
    (s.power.pwrGood = false ∨ s.power.pfwHold = true → s.Answers (.startUp 8 e) fun u => u = s) ∧
    (s.power.pwrGood = true → s.power.pfwHold = false → s.fld (pPWR 1) Off.pwr1_STATE 0 2 < 2 → s.bit pGLOBAL Off.global_START_STAT 5 = false →
      (s.power.steps = 0 → s.Answers (.startUp 1 e) fun u => u.power.steps = 1 ∧ u.bit pCLOCKS Off.clocks_OSC_STAT 0 = true) ∧
      (s.power.steps = 1 → s.power.resetHeld = true → s.Answers (.startUp 8 e) fun u => u = s) ∧
      (s.power.steps = 1 → s.power.resetHeld = false → s.Answers (.startUp 2 e) fun u => u.power.steps = 2 ∧
        u.reg pBOOT Off.boot_SEC_VERSION = wd s.power.fuseVer ∧ (e.fuseErr = true → u.Faulted pGLOBAL 8)) ∧
      (s.power.steps = 2 → s.stepReady 3 = false → s.Answers (.startUp 8 e) fun u => u = s) ∧
      (s.power.steps = 2 → s.stepReady 3 = true → s.copyPayload 0x1600 = none → s.Answers (.startUp 3 e) fun u => u.power.steps = 3 ∧
        (∀ p < 16, u.bit pCLOCKS (Off.clocks_PLL_STATp + 4 * p) 0 = true) ∧ (∀ d < 4, u.domOn (106 + d) = true) ∧ ∀ n < 8, u.pairState n = 1) ∧
      (s.power.steps = 3 → e.badSlots % 4 = 3 → s.Answers (.startUp 8 e) fun u => u.power.steps = 3 ∧ u.bit pGLOBAL Off.global_START_STAT 5 = true ∧
        u.fld pGLOBAL Off.global_START_STAT 8 4 = 4) ∧
      (s.power.steps = 3 → s.copyPayload 0x5800 = none → s.Answers (.startUp 4 e) fun u => s.slotReason e.badSlots false = 0 → u.power.steps = 4 ∧
        u.power.image = (s.slotImage false).1 ++ (s.slotImage false).2 ∧ u.bit pBOOT Off.boot_BOOT_STAT 0 = false ∧ u.bit pBOOT Off.boot_BOOT_STAT 1 = false) ∧
      (s.power.steps = 4 → s.Answers (.startUp 5 e) fun u => u.power.steps = 5 ∧ (s.copyPayload 0 = none → u.Faulted pCOCOON 9)) ∧
      (s.power.steps = 5 → s.Answers (.startUp 6 e) fun u => u.power.steps = 6 ∧
        (s.copyPayload 0x1000 = none → ∀ l < 256, u.lmap l = wd (0x8000 + l))) ∧
      (s.power.steps = 6 → (∀ n < 16, s.bit (pDRAM n) Off.dram_TRAIN 0 = true) → s.Answers (.startUp 7 e) fun u => u.power.steps = 7 ∧
        ∀ n < s.controllers, u.fld (pDRAM n) Off.dram_STATE 0 3 = 2 ∧ u.reg (pDRAM n) Off.dram_CUR_RD = s.reg (pDRAM n) Off.dram_FIX_RD) ∧
      (s.power.steps = 7 → e.memBad = [] → e.checkers = [] → (∀ n < 8, s.pairState n = 1) → s.Answers (.startUp 8 e) fun u => u.power.steps = 8 ∧
        u.pairState 0 = 3 ∧ (∀ n < 8, n ≠ 0 → u.pairState n = 2) ∧ (∀ n < 8, u.reg64 (pSVC n) Off.svc_BOOT_LO (Off.svc_BOOT_LO + 4) =
          imgEntry (s.power.image.take 0x200)) ∧ u.bit pBOOT Off.boot_VERIFY_STAT 3 = true))) ∧
  (∀ s : State, (s.power.steps ≠ 8 → s.Answers .startUpFull fun u => u = s) ∧
    (s.power.steps = 8 → s.power.sweepLap = true → (∀ p < 272, s.fld (pENG p) Off.eng_BIST_STAT 0 2 ≠ 3) → s.Answers .startUpFull fun u =>
      u.power.steps = 9 ∧ u.bit pGLOBAL Off.global_START_STAT 4 = true ∧ u.reg pGLOBAL Off.global_T_FULL = wd ((s.now - s.power.goodAt) / 250000))) ∧
  (∀ (pfw ram : Bool) (x : Nat) (s : State), s.stor.cmds = [] →
    (s.power.pwrGood = true → s.Answers (.pwrGoodRise pfw ram) fun u => u = s) ∧
    (s.power.pwrGood = false → s.Answers (.pwrGoodRise pfw ram) fun u => u.regs = [] ∧ u.tb.time = 0 ∧ u.power.pwrGood = true ∧ u.power.goodAt = s.now ∧
      u.power.pfwHold = pfw ∧ u.power.steps = 0 ∧ (target x = .cocoon → u.byteAt x = s.byteAt x) ∧ (target x = .dram → u.byteAt x = 0)) ∧
    s.Answers .pwrGoodFall fun u => u.regs = [] ∧ u.power.pwrGood = false ∧ u.power.steps = 0 ∧ (target x = .cocoon → u.byteAt x = s.byteAt x)) ∧
  (∀ (m : Master) (v : Word) (x : Nat) (s : State), s.stor.cmds = [] → s.power.restartAt ≠ some s.now →
    (s.Open m pGLOBAL → wfld v 16 16 ≠ 0x5CA7 ∨ bitAt v 0 = false → s.Answers (.resetCmd m v) fun u => u.regs = s.regs ∧ u.power = s.power) ∧
    (s.Open m pGLOBAL → wfld v 16 16 = 0x5CA7 → bitAt v 0 = true →
      (s.pfwBusy = true → s.Answers (.resetCmd m v) fun u => u.regs = s.regs ∧ u.power.waitCause = some (min 2 (s.power.waitCause.getD 2))) ∧
      (s.pfwBusy = false → s.Answers (.resetCmd m v) fun u => u.fld pGLOBAL Off.global_RESET_CAUSE 0 3 = 2 ∧ u.power.steps = 1 ∧ u.tb.time = s.tb.time ∧
        u.reg pSILK Off.silk_SEQ = s.reg pSILK Off.silk_SEQ ∧ (∀ d < 112, u.domOn d = false) ∧ u.power.flash = s.power.flash ∧
        (target x = .cocoon ∨ target x = .sram → u.byteAt x = s.byteAt x) ∧ (target x = .dram → u.byteAt x = 0))) ∧
    (s.Answers (.resetN true) fun u => u = { s with power := { s.power with resetHeld := false } }) ∧
    (s.power.resetHeld = false → s.power.pwrGood = true → s.pfwBusy = false → s.Answers (.resetN false) fun u => u.power.resetHeld = true ∧
      u.fld pGLOBAL Off.global_RESET_CAUSE 0 3 = 1 ∧ u.power.steps = 1 ∧ u.tb.time = s.tb.time) ∧
    (s.power.pfwHold = true → s.Answers .pfwNRelease fun u => u = { s with power := { s.power with pfwHold := false } }) ∧
    (s.power.pfwHold = false → s.dep.pfw = true → s.power.pwrGood = true → s.pfwBusy = false → s.Answers .pfwNRelease fun u =>
      u.fld pGLOBAL Off.global_RESET_CAUSE 0 3 = 5 ∧ u.power.steps = 1 ∧ u.dep.pfw = false)) ∧
  (∀ (t : Nat) (s : State), (s.power.mainAt = none → s.Answers .mainRailTimeout fun u => u = s) ∧
    (s.power.mainAt = some t → s.power.steps = 2 → s.bit pGLOBAL Off.global_START_STAT 5 = false → t + 12500000 ≤ s.now →
      Nat.land (s.fld pSAFETY Off.safety_SUP_STAT 0 16) 0xFC3 ≠ 0 → s.Answers .mainRailTimeout fun u => u.bit pGLOBAL Off.global_START_STAT 5 = true ∧
        u.fld pGLOBAL Off.global_START_STAT 8 4 = 3)) ∧
  (∀ (m : Master) (n errs : Nat) (v : Word) (s : State), n < 192 →
    (s.Open m (pSWIFT n) →
      (bitAt v 0 = true → s.bit (pSWIFT n) Off.swift_EYE_STAT 0 = true → s.Answers (.eyeScanGo m n v) fun u => u.Faulted (pSWIFT n) 0 ∧ s.KeepsRegs u (pSWIFT n) []) ∧
      (bitAt v 0 = true → s.bit (pSWIFT n) Off.swift_EYE_STAT 0 = false → s.Answers (.eyeScanGo m n v) fun u => u.reg (pSWIFT n) Off.swift_EYE_STAT = 1 ∧
        s.KeepsRegs u (pSWIFT n) [Off.swift_EYE_STAT]) ∧
      (bitAt v 1 = true → s.bit (pSWIFT n) Off.swift_EYE_STAT 0 = true → s.Answers (.eyeScanAbort m n v) fun u =>
        u.reg (pSWIFT n) Off.swift_EYE_STAT = 6 ∧ s.KeepsRegs u (pSWIFT n) [Off.swift_EYE_STAT, Off.swift_EYE_ERR_LO, Off.swift_EYE_ERR_HI]) ∧
      (10 < wfld v 0 4 ∨ 16 < wfld v 8 5 → s.Answers (.txEqWrite m n v) fun u => u.Faulted (pSWIFT n) 8 ∧ s.KeepsRegs u (pSWIFT n) []) ∧
      (wfld v 0 4 ≤ 10 → wfld v 8 5 ≤ 16 → s.pageIdle (pSWIFT n) = true → s.Answers (.txEqWrite m n v) fun u =>
        u.fld (pSWIFT n) Off.swift_TX_EQ 0 4 = wfld v 0 4 ∧ u.fld (pSWIFT n) Off.swift_TX_EQ 8 5 = wfld v 8 5 ∧
        u.fld (pSWIFT n) Off.swift_TX_EQ 24 4 = wfld v 24 4 ∧ s.KeepsRegs u (pSWIFT n) [Off.swift_TX_EQ])) ∧
    (s.alive (pSWIFT n) = true → s.bit (pSWIFT n) Off.swift_EYE_STAT 0 = true → errs < 2 ^ 64 →
      (s.fld (pSWIFT n) Off.swift_LANE_CFG 0 3 ≠ 0 → s.Answers (.eyeScanDone n errs false) fun u => u.reg (pSWIFT n) Off.swift_EYE_STAT = 2 ∧
        u.reg64 (pSWIFT n) Off.swift_EYE_ERR_LO Off.swift_EYE_ERR_HI = errs) ∧
      s.Answers (.eyeScanDone n errs true) fun u => u.reg (pSWIFT n) Off.swift_EYE_STAT = 10 ∧
        u.reg64 (pSWIFT n) Off.swift_EYE_ERR_LO Off.swift_EYE_ERR_HI = errs))

/-! ## The register space -/

/-- R118, R131, R596 to R600, R602 to R605, R608, R610, R612, R614, R615, R617, R620: what reads and writes of the register space do, and the header's commands. -/
def Obligations.RegisterSpace : Prop :=
  (∀ (m : Master) (p o v len : Nat) (s : State), p < 1024 → o < 4096 →
    (len ≠ 4 ∨ o % 4 ≠ 0 → (s.Answers (.registerWrite m (regAddr p o) len v) fun u => u.Faulted pGLOBAL 9 ∧
        u.reg pGLOBAL Off.global_BAD_ADDR = wd (p * 4096 + o) ∧ u.mem = s.mem ∧ s.KeepsRegs u pGLOBAL [Off.global_BAD_ADDR, Off.global_BAD_INFO]) ∧
      s.Answers (.rcRead m (regAddr p o) len) fun u => u.Faulted pGLOBAL 9 ∧ u.resp.err = true ∧ u.resp.poison = true) ∧
    (len = 4 → o % 4 = 0 → s.hostMayWrite m = false → s.pendingCommit p = false → s.Answers (.registerWrite m (regAddr p o) 4 v) fun u =>
      u.Faulted pGLOBAL 12 ∧ s.KeepsRegs u pGLOBAL [Off.global_BAD_ADDR, Off.global_BAD_INFO]) ∧
    (o % 4 = 0 → s.hostMayRead m = false → s.Answers (.rcRead m (regAddr p o) 4) fun u => u.Faulted pGLOBAL 12 ∧ u.resp.err = true) ∧
    (o % 4 = 0 → s.hostMayRead m = true → pageKind p = .none → s.Answers (.rcRead m (regAddr p o) 4) fun u => u.resp = { value := 0 } ∧ u.Faulted pGLOBAL 10) ∧
    (o % 4 = 0 → 0x100 ≤ o → s.hostMayRead m = true → pageKind p ≠ .none → s.powered p = false ∨ s.fenced p = true →
      s.Answers (.rcRead m (regAddr p o) 4) fun u => u.resp = { value := dummyRead p } ∧ u.regs = s.regs) ∧
    (o % 4 = 0 → s.hostMayWrite m = true → pageKind p = .none → s.pendingCommit p = false → s.Answers (.registerWrite m (regAddr p o) 4 v) fun u =>
      u.Faulted pGLOBAL 10 ∧ s.KeepsRegs u pGLOBAL [Off.global_BAD_ADDR, Off.global_BAD_INFO]) ∧
    (o % 4 = 0 → regDesc p o = none → s.Shows m p → Map.get (fun _ => none) s.latch (rg p o) = none →
      s.Answers (.rcRead m (regAddr p o) 4) fun u => u.resp = { value := 0 } ∧ u.regs = s.regs) ∧
    (o % 4 = 0 → regDesc p o = none → s.Open m p → s.pendingCommit p = false → s.Answers (.registerWrite m (regAddr p o) 4 v) fun u => u.regs = s.regs) ∧
    (o % 4 = 0 → 0x100 ≤ o → s.hostMayWrite m = true → pageKind p ≠ .none → s.powered p = false → s.pendingCommit p = false →
      s.Answers (.registerWrite m (regAddr p o) 4 v) fun u => u.regs = s.regs ∧ u.mem = s.mem) ∧
    (o % 4 = 0 → s.Shows m p → s.viewOf p o = none → (∀ e ∈ (s.pageRt p).cmds, e.1 ≠ o) → (∃ d, regDesc p o = some d ∧ d.rc ≠ 0 ∧ d.rws = 0) →
      pageKind p ≠ .sens ∨ o ≠ Off.sens_I3C_IBI → latchOffs p o = [] → Map.get (fun _ => none) s.latch (rg p o) = none →
      s.Answers (.rcRead m (regAddr p o) 4) fun u => u.resp.value = s.reg p o ∧ u.reg p o = resetAt p o ∧ s.KeepsRegs u p [o])) ∧
  (∀ (m : Master) (p v : Nat) (s : State), s.Open m p → p < 1024 → pageKind p ≠ .ctiWin → s.pendingCommit p = false →
    ((s.pageRt p).hwAt ≠ s.now → v < 2 ^ 32 → s.Answers (.registerWrite m (regAddr p Off.hdr_PG_FAULT) 4 v) fun u =>
      u.reg p Off.hdr_PG_FAULT = s.reg p Off.hdr_PG_FAULT &&& ~~~wd v ∧ s.KeepsRegs u p []) ∧
    (v < 2 ^ 32 → s.Answers (.registerWrite m (regAddr p Off.hdr_PG_FAULT_EN) 4 v) fun u => u.reg p Off.hdr_PG_FAULT_EN = wd v &&& wd (faultMask p) ∧
      s.KeepsRegs u p [Off.hdr_PG_FAULT_EN]) ∧
    (p = pSAFETY → v < 2 ^ 32 → s.Answers (.registerWrite m (regAddr p Off.safety_CHK_EXPECT) 4 v) fun u => u.reg p Off.safety_CHK_EXPECT = wd v ∧
      s.KeepsRegs u p [Off.safety_CHK_EXPECT]) ∧
    (p = pSAFETY → (∀ t, (s.pageRt p).unlock ≠ some (m, t)) → s.Answers (.registerWrite m (regAddr p Off.safety_FN_EN) 4 v) fun u => u.Faulted p 1 ∧
      s.KeepsRegs u p []) ∧
    (p = pSAFETY → (∃ t, (s.pageRt p).unlock = some (m, t)) → s.Answers (.registerWrite m (regAddr p Off.safety_FN_EN) 4 v) fun u =>
      u.bit p Off.safety_FN_EN 9 = v.testBit 9 ∧ ∀ t, (u.pageRt p).unlock ≠ some (m, t))) ∧
  (∀ (m : Master) (x : Nat × Nat) (s : State),
    (x ∈ (List.range 272).map (fun e => (pENG e, Off.eng_RETIRED_LO)) ∨ x ∈ (List.range 32).map (fun n => (pTDM n, Off.tdm_FS_TIME_LO)) ∨
      x = (pPTP, Off.ptp_PENDING_JUMP_LO) ∨ x = (pDRAMCOM, Off.dramcom_WINDOW_LO)) → s.Shows m x.1 → Map.get (fun _ => none) s.latch (rg x.1 x.2) = none →
      s.Answers (.latchingLowRead m (regAddr x.1 x.2) 4) fun u => u.resp.value = s.liveReg x.1 x.2 ∧
        Map.get (fun _ => none) u.latch (rg x.1 (x.2 + 4)) = some (s.liveReg x.1 (x.2 + 4)) ∧ u.regs = s.regs) ∧
  (∀ (m : Master) (n : Nat) (s : State),
    (n < 16 → s.Shows m (pDLK n) → Map.get (fun _ => none) s.latch (rg (pDLK n) Off.dlk_BC_RX1) = none →
      s.Answers (.receiveQueuePop m (regAddr (pDLK n) Off.dlk_BC_RX1) 4) fun u => u.resp.value = s.liveReg (pDLK n) Off.dlk_BC_RX1 ∧
        (u.dlk n).rx = (s.dlk n).rx.drop 1 ∧ u.regs = s.regs) ∧
    (n < 32 → s.Shows m (pSENS (2 * n)) → Map.get (fun _ => none) s.latch (rg (pSENS (2 * n)) Off.sens_I3C_RXDATA) = none →
      s.Answers (.receiveQueuePop m (regAddr (pSENS (2 * n)) Off.sens_I3C_RXDATA) 4) fun u =>
        u.resp.value = s.liveReg (pSENS (2 * n)) Off.sens_I3C_RXDATA ∧ (u.i3c n).rx = (s.i3c n).rx.drop 4 ∧ u.regs = s.regs)) ∧
  (∀ (m : Master) (p : Nat) (v : Word) (s : State), s.hostMayWrite m = true → pageKind p ≠ .none → s.powered p = true → (s.pageRt p).busy = false →
    (s.Answers (.softRst m p v) fun u => (∀ q ∈ blockPages p, (u.pageRt q).busy = true ∧ u.fenced q = false) ∧
      (pageKind p ≠ .disp → pageKind p ≠ .eye → pageKind p ≠ .cti → ∀ q ∈ blockPages p, ∀ o, 0x100 ≤ o → o < 4096 → keptReg q o = false → u.reg q o = resetAt q o)) ∧
    (s.Answers (.softResetDone p) fun u => u.regs = s.regs ∧ ∀ q ∈ blockPages p, (u.pageRt q).busy = false) ∧
    (s.fenced p = false → wfld v 1 3 = 4 → s.bit p Off.hdr_PG_CTRL 3 = false → s.Answers (.pgFreezeWrite m p v) fun u => u.bit p Off.hdr_PG_CTRL 3 = true ∧
      ∀ o ∈ tableOffsets p, o < 4096 → roRegister p o = true → u.frozenReg p o = some (s.liveReg p o)) ∧
    (s.fenced p = false → wfld v 1 3 = 0 → s.bit p Off.hdr_PG_CTRL 3 = true → s.Answers (.pgFreezeWrite m p v) fun u => u.bit p Off.hdr_PG_CTRL 3 = false ∧
      (u.pageRt p).thaw = some s.now) ∧
    (s.fenced p = false → wfld v 1 2 = 0 → pageKind p = .disp → bitAt v 3 = s.bit p Off.hdr_PG_CTRL 3 → s.Answers (.pgEnWrite m p v) fun u =>
      u.bit p Off.hdr_PG_CTRL 0 = bitAt v 0 ∧ s.KeepsRegs u p [Off.hdr_PG_CTRL]) ∧
    (s.fenced p = false → (wfld v 0 16 = 0x5CA7 → s.Answers (.pgLockUnlock m p v) fun u => (u.pageRt p).unlock = some (m, s.now) ∧ u.regs = s.regs) ∧
      (wfld v 0 16 ≠ 0x5CA7 → s.Answers (.pgLockUnlock m p v) fun u => u.regs = s.regs ∧ ∀ t, (u.pageRt p).unlock ≠ some (m, t)))) ∧
  (∀ (m : Master) (p : Nat) (v : Word) (s : State), s.Open m p → pageKind p ≠ .disp → pageKind p ≠ .eye → pageKind p ≠ .tdm → pageKind p ≠ .dist →
    (s.pendingCommit p = false → (s.Answers (.shadowCommit p) fun u => u = s) ∧
      (bitAt v 9 = false → s.Answers (.commit m p v) fun u => u.pendingCommit p = true ∧ (u.pageRt p).commitAt = s.now) ∧
      s.Answers (.cancel m p v) fun u => u.pendingCommit p = false ∧ ∀ o, u.shadowOf p o = s.shadowOf p o) ∧
    (s.pendingCommit p = true → s.fld p Off.hdr_PG_SHADOW 1 3 = 0 →
      (s.now ≤ (s.pageRt p).commitAt → (s.Answers (.shadowCommit p) fun u => u = s) ∧ s.Answers (.cancel m p v) fun u => u.pendingCommit p = false ∧
        ∀ o, o < 4096 → quietOff o = true → u.reg p o = s.reg p o) ∧
      ((s.pageRt p).commitAt < s.now → s.Answers (.shadowCommit p) fun u => u.pendingCommit p = false ∧
        ∀ o, 0x100 ≤ o → o < 4096 → (∃ d, regDesc p o = some d ∧ d.rws ≠ 0) → u.reg p o = mergeMask ((regDesc p o).elim 0 (·.rws)) (s.reg p o) (s.shadowOf p o)))) ∧
  (∀ (m : Master) (p o t : Nat) (s : State), o < 4096 → p < 1024 →
    ((s.pageRt p).unlock = some (m, t) → s.now < t + 250000 → s.Answers (.unlockLapse p) fun u => u = s) ∧
    ((s.pageRt p).unlock = some (m, t) → t + 250000 ≤ s.now → s.Answers (.unlockLapse p) fun u => (u.pageRt p).unlock = none ∧ u.regs = s.regs) ∧
    (s.Answers (.regTimeout m p o false) fun u => u.Faulted pGLOBAL 11 ∧ u.resp = { value := dummyRead p } ∧
      u.reg pGLOBAL Off.global_BAD_ADDR = wd (p * 4096 + o) ∧ wfld (u.reg pGLOBAL Off.global_BAD_INFO) 0 3 = 3) ∧
    (s.Answers (.regTimeout m p o true) fun u => u.Faulted pGLOBAL 11 ∧ u.resp = s.resp) ∧
    s.Answers (.busTimeout p) fun u => u.Faulted p 3 ∧ s.KeepsRegs u p [])

/-- R431, R607, R616 to R618, R620 to R624: interrupt lines, software and timer interrupts, MSI-X, the function-level reset and the maintenance
port. -/
def Obligations.InterruptsAndMaintenance : Prop :=
  (∀ (h : Nat) (v : Word) (s : State), h < 8 →
    (s.Answers (.swiWrite h v) fun u => u = { s with plat := { s.plat with swi := Map.put (fun _ => false) s.plat.swi h (bitAt v 0) } }) ∧
    (s.Answers (.mtimecmpMatch h) fun u => Map.get (fun _ => false) u.plat.mtip h = decide (Map.get (fun _ => 0) s.plat.mtimecmp h ≤ s.mtime) ∧ u.regs = s.regs) ∧
    s.Answers (.latchingLowRead (.core h) 0x2000800 4) fun u => u.resp.value = wd s.mtime ∧ u.plat.mtimeLatch = some (wd (s.mtime / 2 ^ 32)) ∧ u.regs = s.regs) ∧
  (∀ (p vec : Nat) (s : State), p < 1024 →
    (s.Answers (.msixMessage p) fun u => (u.pageRt p).line = s.intLine p ∧ u.regs = s.regs) ∧
    (s.intLine p = true → (s.pageRt p).line = false → s.msixOf p = some vec →
      (s.plat.msixEn = true → (Map.get (fun _ => {}) s.plat.msix vec : MsixVec).masked = false → s.Answers (.msixMessage p) fun u =>
        u.plat.msgs = s.plat.msgs ++ [((Map.get (fun _ => {}) s.plat.msix vec : MsixVec).addr, (Map.get (fun _ => {}) s.plat.msix vec : MsixVec).data)]) ∧
      (s.plat.msixEn = false ∨ (Map.get (fun _ => {}) s.plat.msix vec : MsixVec).masked = true → s.Answers (.msixMessage p) fun u => u.plat.msgs = s.plat.msgs ∧
        (Map.get (fun _ => {}) u.plat.msix vec : MsixVec).pending = true)) ∧
    (s.intLine p = true → Map.get (fun _ => false) s.plat.plicClaimed (p + 1) = false → s.Answers (.msixMessage p) fun u =>
      Map.get (fun _ => false) u.plat.plicPending (p + 1) = true)) ∧
  (∀ s : State, s.Answers .functionLevelReset fun u => u.plat.msix = [] ∧ u.plat.msixEn = false ∧ u.reg pWIN Off.ctiWin_CTI_CTRL = 0 ∧
    (s.stor.state = 0 ∨ s.stor.state = 3 → u.stor = s.stor)) ∧
  (∀ (m : Master) (v : Word) (s : State), s.Open m pMAINT →
    (bitAt v 0 = true → s.Answers (.mDoorbell m v) fun u => u.reg pMAINT Off.maint_M_DOORBELL = 1 ∧ u.bit pMAINT Off.hdr_PG_INT_STAT 0 = true ∧
      s.KeepsRegs u pMAINT [Off.maint_M_DOORBELL]) ∧
    (bitAt v 0 = false → s.Answers (.mDoorbell m v) fun u => u.regs = s.regs)) ∧
  (∀ (addr data crc : Nat) (late : Bool) (s : State), s.bit pMAINT Off.maint_M_CFG 0 = false →
    (s.Answers (.maintWrite addr data crc late) fun u => u = s) ∧ s.Answers (.maintRead addr crc data late) fun u => u = s) ∧
  (∀ (addr data crc o : Nat) (s : State), s.bit pMAINT Off.maint_M_CFG 0 = true → addr < 2 ^ 32 → data < 2 ^ 32 →
    (crc ≠ crc8 (addrBytes addr ++ leBytes 4 data) → s.Answers (.maintWrite addr data crc false) fun u => u.Faulted pMAINT 8 ∧ u.mem = s.mem ∧
      u.fld pMAINT Off.maint_M_STAT 1 3 = 5 ∧ u.fld pMAINT Off.maint_M_ERR 0 16 = min 65535 (s.fld pMAINT Off.maint_M_ERR 0 16 + 1) ∧
      s.KeepsRegs u pMAINT [Off.maint_M_STAT, Off.maint_M_LAST, Off.maint_M_ERR]) ∧
    (crc = crc8 (addrBytes addr ++ leBytes 4 data) → s.bit pMAINT Off.maint_M_CFG 2 = false → s.Answers (.maintWrite addr data crc false) fun u =>
      u.Faulted pMAINT 10 ∧ u.fld pMAINT Off.maint_M_STAT 1 3 = 2 ∧ u.mem = s.mem ∧
      s.KeepsRegs u pMAINT [Off.maint_M_STAT, Off.maint_M_LAST, Off.maint_M_ERR]) ∧
    (crc = crc8 (addrBytes addr ++ leBytes 4 data) → s.bit pMAINT Off.maint_M_CFG 2 = true → addr = 4096 * pSAFETY + Off.safety_CHK_EXPECT →
      s.pendingCommit pSAFETY = false → s.powered pSAFETY = true → s.fenced pSAFETY = false → (s.pageRt pSAFETY).busy = false →
      s.Answers (.maintWrite addr data crc false) fun u => u.reg pSAFETY Off.safety_CHK_EXPECT = wd data ∧ u.fld pMAINT Off.maint_M_STAT 1 3 = 0) ∧
    (crc = crc8 (addrBytes addr ++ leBytes 4 data) → s.bit pMAINT Off.maint_M_CFG 2 = true → addr = 2 ^ 30 + 4 * o → o < 0x18000 →
      s.Answers (.maintWrite addr data crc false) fun u => u.peek (sramBase + 4 * o) 4 = leBytes 4 data ∧ u.fld pMAINT Off.maint_M_STAT 1 3 = 0 ∧
        ∀ x, x < sramBase + 4 * o ∨ sramBase + 4 * o + 4 ≤ x → u.byteAt x = s.byteAt x) ∧
    (crc ≠ crc8 (addrBytes addr) → s.Answers (.maintRead addr crc 1 false) fun u => u.Faulted pMAINT 8 ∧ u.resp.status = 5) ∧
    (crc = crc8 (addrBytes addr) → addr = 4096 * pSAFETY + Off.safety_CHK_EXPECT → s.Shows .maint pSAFETY → (∀ e ∈ (s.pageRt pSAFETY).cmds, e.1 ≠ Off.safety_CHK_EXPECT) →
      Map.get (fun _ => none) s.latch (rg pSAFETY Off.safety_CHK_EXPECT) = none → s.Answers (.maintRead addr crc 1 false) fun u =>
        u.resp.value = s.reg pSAFETY Off.safety_CHK_EXPECT ∧ u.resp.status = 0 ∧
        u.resp.words = [u.resp.value, wd (256 * crc8 (addrBytes addr ++ leBytes 4 u.resp.value.toNat ++ leBytes 1 0))]) ∧
    (crc = crc8 (addrBytes addr) → addr = 4096 * pMAC 0 + 0x100 → s.bit pMAINT Off.maint_M_CFG 1 = false → s.Answers (.maintRead addr crc 1 false) fun u =>
      u.resp.status = 2) ∧
    (crc = crc8 (addrBytes addr) → addr = 4096 * pMAC 0 + 0x100 → s.bit pMAINT Off.maint_M_CFG 1 = true → s.Answers (.maintRead addr crc 1 true) fun u =>
      u.resp.status = 3 ∧ u.resp.value = dummyRead (pMAC 0) ∧ u.Faulted pMAINT 9 ∧ u.Faulted pGLOBAL 11))

/-! ## The block as a whole -/

/-- A step takes the command at the front of the queue and runs it on the state with the queue's rest; on an empty queue the block idles. Both are
the model's choice (notes/assumptions/3.md): the spec gives the block no queue. -/
def Obligations.StepTakesFront : Prop :=
  (∀ (c : Instr) (rest : List Instr) (s : State), s.pending = c :: rest → step s = exec c { s with pending := rest }) ∧
  ∀ s : State, s.pending = [] → step s = .next s

/-- Every command completes in every state, leaves the queue as it is, and never turns the clock back (R51): no command stops the block. -/
def Obligations.EveryCommandCompletes : Prop :=
  ∀ (c : Instr) (s : State), s.Answers c fun u => u.pending = s.pending ∧ s.now ≤ u.now

/-- R46 to R49: what a subsystem holds changes only by its own commands and by those that reach every block. -/
def Obligations.SubsystemFrames : Prop :=
  ∀ (c : Instr) (s : State), wideCommand c = false → s.Answers c fun u =>
    (codecCommand c = false → u.codec = s.codec) ∧ (tdmCommand c = false → u.tdm = s.tdm) ∧ (dramCommand c = false → u.dram = s.dram) ∧
    (storCommand c = false → u.stor = s.stor)

/-- The reset state's tables are in canonical form and its queue is empty. -/
def Obligations.ResetCanonical : Prop := State.reset.Canonical ∧ State.reset.pending = []

/-- Every step keeps memory, poison marks, registers, shadow copies and latches in canonical form. -/
def Obligations.StepKeepsCanonical : Prop :=
  ∀ s t : State, s.Canonical → step s = .next t → t.Canonical

/-- R56, R72, R444, R544, R548, R591, R597: what the rules and the register tables give for reset, before start-up: PG_ID and the header, TIME and the DIST
rulers at 0, the LINE rulers invalid, FAULT_N asserted by RESET alone with ALIVE low and nothing armed, no start-up step, no queue state region, and defaults
of the aggregation, Warden, thermal and Silk pages. That every domain is off and PWR_GOOD low is the model's choice of the moment (notes/assumptions/4.md),
as is what unwritten memory reads as (notes/assumptions/5.md). -/
def Obligations.ResetValues : Prop :=
  (∀ p < 1024, pageKind p ≠ .none → pageKind p ≠ .ctiWin → State.reset.reg p Off.hdr_PG_ID = wd (blockType p * 65536 + instanceOf p * 256 + 1) ∧
    State.reset.reg p Off.hdr_PG_FAULT = 0 ∧ State.reset.reg p Off.hdr_PG_INT_EN = 0 ∧ State.reset.reg p Off.hdr_PG_SHADOW = 0) ∧
  (State.reset.tb.time = 0 ∧ State.reset.reg pTIMEBASE Off.timebase_TIME_STAT = 0 ∧ (∀ d < 4, State.reset.distVal d = 0) ∧
    ∀ n < 8, State.reset.lineVal n = 0xFFFF0000) ∧
  (State.reset.reg pSAFETY Off.safety_FN_LATCH = 0x400 ∧ State.reset.reg pSAFETY Off.safety_FN_EN = 0x7FF ∧ State.reset.reg pSAFETY Off.safety_FN_STAT = 1 ∧
    State.reset.reg pSAFETY Off.safety_HB_CFG = 0x6405 ∧ State.reset.reg pSAFETY Off.safety_HB_STAT = 0 ∧ State.reset.fnCauses = 0) ∧
  ((∀ d < 112, State.reset.domOn d = false) ∧ State.reset.fld (pPWR 1) Off.pwr1_STATE 0 2 = 0 ∧ State.reset.power.steps = 0 ∧
    State.reset.fld pGLOBAL Off.global_START_STAT 0 4 = 0 ∧ State.reset.power.pwrGood = false) ∧
  (State.reset.qsBase = 0) ∧
  (State.reset.reg pFAULTAGG Off.faultagg_SEV0 = 0x55555555 ∧ State.reset.reg pWARDEN Off.warden_SPARE_BIST = 3600 ∧
    State.reset.reg (pTHERM 0) Off.therm0_THROTTLE = 0x10036E ∧ State.reset.reg pSILK Off.silk_SEQ = 0) ∧
  State.reset.mem = [] ∧ State.reset.poison = [] ∧ State.reset.pending = []
end

