-- ==== Sys2Proof/Laws/Bits.lean ====
section
/-!
SUPPORT. Fields of words: what a field reads after a field has been set, bit by bit.
-/

-- One proof at a time bounds the threads and memory of a compile.
set_option Elab.async false

namespace Sys2Proof.Machine

open Sys2Proof

theorem wfld_lt (w : Word) (lo n : Nat) : wfld w lo n < 2 ^ n := Nat.mod_lt _ (by positivity)

@[simp] theorem wfld_zero_width (w : Word) (lo : Nat) : wfld w lo 0 = 0 := by simp [wfld, Nat.mod_one]

theorem wfld_testBit (w : Word) (lo n i : Nat) : (wfld w lo n).testBit i = (decide (i < n) && w.toNat.testBit (lo + i)) := by
  simp [wfld, Nat.testBit_mod_two_pow, Nat.testBit_div_two_pow, Nat.add_comm]

/-- The value of a word with a field replaced, as a sum of three disjoint parts. -/
theorem wset_toNat (w : Word) (lo n v : Nat) (h : lo + n ≤ 32) :
    (wset w lo n v).toNat = w.toNat % 2 ^ lo + (v % 2 ^ n) * 2 ^ lo + w.toNat / 2 ^ (lo + n) * 2 ^ (lo + n) := by
  unfold wset
  rw [BitVec.toNat_ofNat]
  apply Nat.mod_eq_of_lt
  have hw : w.toNat < 2 ^ 32 := w.isLt
  have h1 : w.toNat % 2 ^ lo < 2 ^ lo := Nat.mod_lt _ (by positivity)
  have h2 : v % 2 ^ n < 2 ^ n := Nat.mod_lt _ (by positivity)
  have h3 : w.toNat / 2 ^ (lo + n) < 2 ^ (32 - (lo + n)) := by
    rw [Nat.div_lt_iff_lt_mul (by positivity), ← pow_add, Nat.sub_add_cancel h]; exact hw
  have e : 2 ^ 32 = 2 ^ (32 - (lo + n)) * 2 ^ (lo + n) := by rw [← pow_add, Nat.sub_add_cancel h]
  have h4 : w.toNat % 2 ^ lo + v % 2 ^ n * 2 ^ lo < 2 ^ (lo + n) := by
    have : v % 2 ^ n * 2 ^ lo + 2 ^ lo ≤ 2 ^ n * 2 ^ lo := by
      calc v % 2 ^ n * 2 ^ lo + 2 ^ lo = (v % 2 ^ n + 1) * 2 ^ lo := by ring
        _ ≤ 2 ^ n * 2 ^ lo := Nat.mul_le_mul_right _ h2
    have e2 : 2 ^ (lo + n) = 2 ^ n * 2 ^ lo := by rw [← pow_add, Nat.add_comm]
    omega
  rw [e]
  calc _ < 2 ^ (lo + n) + w.toNat / 2 ^ (lo + n) * 2 ^ (lo + n) := by omega
    _ = (w.toNat / 2 ^ (lo + n) + 1) * 2 ^ (lo + n) := by ring
    _ ≤ _ := Nat.mul_le_mul_right _ h3

theorem testBit_parts (a b c lo n i : Nat) (ha : a < 2 ^ lo) (hb : b < 2 ^ n) :
    (a + b * 2 ^ lo + c * 2 ^ (lo + n)).testBit i =
      if i < lo then a.testBit i else if i < lo + n then b.testBit (i - lo) else c.testBit (i - (lo + n)) := by
  have e : a + b * 2 ^ lo + c * 2 ^ (lo + n) = 2 ^ lo * (2 ^ n * c + b) + a := by rw [pow_add]; ring
  rw [e, Nat.testBit_two_pow_mul_add _ ha]
  split
  · rfl
  · rw [Nat.testBit_two_pow_mul_add _ hb]
    split <;> split <;> first | rfl | omega | (congr 1; omega)

theorem wset_testBit (w : Word) (lo n v i : Nat) (h : lo + n ≤ 32) :
    (wset w lo n v).toNat.testBit i =
      if lo ≤ i ∧ i < lo + n then v.testBit (i - lo) else w.toNat.testBit i := by
  rw [wset_toNat w lo n v h, testBit_parts _ _ _ _ _ _ (Nat.mod_lt _ (by positivity)) (Nat.mod_lt _ (by positivity))]
  by_cases h1 : i < lo
  · have h2 : ¬ (lo ≤ i ∧ i < lo + n) := by omega
    simp [h1, h2, Nat.testBit_mod_two_pow]
  · by_cases h2 : i < lo + n
    · have h3 : lo ≤ i ∧ i < lo + n := by omega
      have h4 : i - lo < n := by omega
      simp [h1, h2, h3, h4, Nat.testBit_mod_two_pow]
    · have h3 : ¬ (lo ≤ i ∧ i < lo + n) := by omega
      rw [if_neg h1, if_neg h2, if_neg h3, Nat.testBit_div_two_pow, Nat.sub_add_cancel (by omega)]

/-- A field that was set reads what was written, modulo its width. -/
@[simp] theorem wfld_wset (w : Word) (lo n v : Nat) (h : lo + n ≤ 32 := by omega) : wfld (wset w lo n v) lo n = v % 2 ^ n := by
  apply Nat.eq_of_testBit_eq
  intro i
  rw [wfld_testBit, wset_testBit _ _ _ _ _ h, Nat.testBit_mod_two_pow]
  by_cases hi : i < n
  · have : lo ≤ lo + i ∧ lo + i < lo + n := by omega
    simp [hi, this]
  · simp [hi]

/-- A field keeps its value when a disjoint field is set. -/
theorem wfld_wset_other (w : Word) (lo n v lo' n' : Nat) (h : lo + n ≤ 32) (hd : lo' + n' ≤ lo ∨ lo + n ≤ lo') :
    wfld (wset w lo n v) lo' n' = wfld w lo' n' := by
  apply Nat.eq_of_testBit_eq
  intro i
  rw [wfld_testBit, wfld_testBit, wset_testBit _ _ _ _ _ h]
  by_cases hi : i < n'
  · have : ¬ (lo ≤ lo' + i ∧ lo' + i < lo + n) := by omega
    simp [hi, this]
  · simp [hi]

theorem bitAt_eq (w : Word) (i : Nat) : bitAt w i = w.toNat.testBit i := by
  have h : wfld w i 1 < 2 := wfld_lt w i 1
  have ht := wfld_testBit w i 1 0
  simp only [Nat.add_zero, Nat.lt_one_iff, decide_true, Bool.true_and] at ht
  unfold bitAt
  rw [← ht]
  rcases (by omega : wfld w i 1 = 0 ∨ wfld w i 1 = 1) with e | e <;> rw [e] <;> rfl

theorem setBit_testBit (w : Word) (i j : Nat) (b : Bool) (h : i < 32) :
    (setBit w i b).toNat.testBit j = if j = i then b else w.toNat.testBit j := by
  unfold setBit
  rw [wset_testBit _ _ _ _ _ (by omega)]
  by_cases e : j = i
  · subst e
    have : j ≤ j ∧ j < j + 1 := by omega
    cases b <;> simp [this]
  · have : ¬ (i ≤ j ∧ j < i + 1) := by omega
    rw [if_neg this, if_neg e]

@[simp] theorem bitAt_setBit (w : Word) (i : Nat) (b : Bool) (h : i < 32 := by omega) : bitAt (setBit w i b) i = b := by
  rw [bitAt_eq, setBit_testBit _ _ _ _ h]; simp

theorem bitAt_setBit_other (w : Word) (i j : Nat) (b : Bool) (h : i < 32) (hd : j ≠ i) : bitAt (setBit w i b) j = bitAt w j := by
  rw [bitAt_eq, bitAt_eq, setBit_testBit _ _ _ _ h]; simp [hd]

theorem bitAt_wset (w : Word) (lo n v i : Nat) (h : lo + n ≤ 32) :
    bitAt (wset w lo n v) i = if lo ≤ i ∧ i < lo + n then v.testBit (i - lo) else bitAt w i := by
  rw [bitAt_eq, bitAt_eq, wset_testBit _ _ _ _ _ h]

theorem wfld_setBit_other (w : Word) (i lo n : Nat) (b : Bool) (h : i < 32) (hd : lo + n ≤ i ∨ i + 1 ≤ lo) :
    wfld (setBit w i b) lo n = wfld w lo n := wfld_wset_other w i 1 _ lo n (by omega) hd

/-- A word is told by its bits. -/
theorem word_ext {a b : Word} (h : ∀ i, bitAt a i = bitAt b i) : a = b := by
  apply BitVec.eq_of_toNat_eq
  apply Nat.eq_of_testBit_eq
  intro i
  rw [← bitAt_eq, ← bitAt_eq]
  exact h i

theorem wd_toNat (n : Nat) : (wd n).toNat = n % 2 ^ 32 := by simp [wd]

@[simp] theorem wfld_wd (v lo n : Nat) (h : lo + n ≤ 32 := by omega) : wfld (wd v) lo n = v / 2 ^ lo % 2 ^ n := by
  apply Nat.eq_of_testBit_eq
  intro i
  rw [wfld_testBit, wd_toNat, Nat.testBit_mod_two_pow, Nat.testBit_mod_two_pow, Nat.testBit_div_two_pow, Nat.add_comm lo i]
  by_cases hi : i < n
  · have : i + lo < 32 := by omega
    simp [hi, this]
  · simp [hi]

theorem satAdd_fld (w : Word) (lo n k : Nat) (h : lo + n ≤ 32) : wfld (satAdd w lo n k) lo n = min (2 ^ n - 1) (wfld w lo n + k) := by
  unfold satAdd
  rw [wfld_wset _ _ _ _ h]
  apply Nat.mod_eq_of_lt
  have : 0 < 2 ^ n := by positivity
  omega

end Sys2Proof.Machine
end

