-- ==== Sys2Proof/Laws/Map.lean ====
section
/-!
SUPPORT. Sparse tables: what a read gives after a write, and the canonical form, which every table operation keeps.
-/

-- One proof at a time bounds the threads and memory of a compile.
set_option Elab.async false

namespace Sys2Proof.Machine

variable {α : Type}

theorem Map.get_del (d : Nat → α) (m : Map α) (k k' : Nat) :
    Map.get d (Map.del m k) k' = if k' = k then d k' else Map.get d m k' := by
  induction m with
  | nil => simp [Map.del, Map.get]
  | cons e m ih =>
    obtain ⟨a, v⟩ := e
    simp only [Map.del] at ih ⊢
    by_cases h : a = k
    · subst h
      rw [List.filter_cons_of_neg (by simp), ih]
      by_cases h' : k' = a <;> simp [Map.get, h']
    · rw [List.filter_cons_of_pos (by simpa using h)]
      simp only [Map.get, ih]
      by_cases h' : k' = a
      · subst h'; simp [h]
      · simp [h']

theorem Map.get_ins (d : Nat → α) (m : Map α) (k k' : Nat) (v : α) :
    Map.get d (Map.ins m k v) k' = if k' = k then v else Map.get d m k' := by
  induction m with
  | nil => simp [Map.ins, Map.get]
  | cons e m ih =>
    obtain ⟨a, w⟩ := e
    simp only [Map.ins]
    split
    · next h => subst h; by_cases h' : k' = k <;> simp [Map.get, h']
    · next h =>
      split
      · by_cases h' : k' = k <;> simp [Map.get, h']
      · simp only [Map.get, ih]
        by_cases h' : k' = a
        · subst h'; simp [Ne.symm h]
        · simp [h']

/-- A table reads what was written last at a key, and elsewhere what it read before. -/
theorem Map.get_put [DecidableEq α] (d : Nat → α) (m : Map α) (k k' : Nat) (v : α) :
    Map.get d (Map.put d m k v) k' = if k' = k then v else Map.get d m k' := by
  unfold Map.put
  split
  · next h =>
    rw [Map.get_del]
    by_cases h' : k' = k
    · subst h'; simp [h]
    · simp [h']
  · exact Map.get_ins d m k k' v

@[simp] theorem Map.get_put_same [DecidableEq α] (d : Nat → α) (m : Map α) (k : Nat) (v : α) :
    Map.get d (Map.put d m k v) k = v := by simp [Map.get_put]

theorem Map.get_put_other [DecidableEq α] (d : Nat → α) (m : Map α) {k k' : Nat} (v : α) (h : k' ≠ k) :
    Map.get d (Map.put d m k v) k' = Map.get d m k' := by simp [Map.get_put, h]

/-! ## The canonical form -/

variable [DecidableEq α]

theorem Map.wfFrom_mono (d : Nat → α) {lo lo' : Nat} (h : lo ≤ lo') (m : Map α) (hm : Map.wfFrom d lo' m = true) :
    Map.wfFrom d lo m = true := by
  cases m with
  | nil => rfl
  | cons e m =>
    simp only [Map.wfFrom, Bool.and_eq_true, decide_eq_true_eq] at hm ⊢
    exact ⟨⟨le_trans h hm.1.1, hm.1.2⟩, hm.2⟩

theorem Map.wfFrom_filter (d : Nat → α) (p : Nat × α → Bool) (m : Map α) :
    ∀ lo, Map.wfFrom d lo m = true → Map.wfFrom d lo (m.filter p) = true := by
  induction m with
  | nil => intro lo _; rfl
  | cons e m ih =>
    intro lo h
    simp only [Map.wfFrom, Bool.and_eq_true, decide_eq_true_eq] at h
    rw [List.filter_cons]
    split
    · simp only [Map.wfFrom, Bool.and_eq_true, decide_eq_true_eq]
      exact ⟨h.1, ih _ h.2⟩
    · exact Map.wfFrom_mono d (by have := h.1.1; omega) _ (ih _ h.2)

theorem Map.wfFrom_ins (d : Nat → α) (k : Nat) (v : α) (hv : v ≠ d k) (m : Map α) :
    ∀ lo, lo ≤ k → Map.wfFrom d lo m = true → Map.wfFrom d lo (Map.ins m k v) = true := by
  induction m with
  | nil => intro lo hlo _; simp [Map.ins, Map.wfFrom, hv, hlo]
  | cons e m ih =>
    intro lo hlo h
    obtain ⟨a, w⟩ := e
    simp only [Map.wfFrom, Bool.and_eq_true, decide_eq_true_eq] at h
    simp only [Map.ins]
    split
    · next hk => subst hk; simp [Map.wfFrom, hv, hlo, h.2]
    · next hk =>
      split
      · next hlt =>
        simp only [Map.wfFrom, Bool.and_eq_true, decide_eq_true_eq]
        exact ⟨⟨hlo, hv⟩, ⟨by omega, h.1.2⟩, h.2⟩
      · simp only [Map.wfFrom, Bool.and_eq_true, decide_eq_true_eq]
        exact ⟨h.1, ih _ (by omega) h.2⟩

theorem Map.wf_filter (d : Nat → α) (p : Nat × α → Bool) (m : Map α) (h : Map.wf d m = true) :
    Map.wf d (m.filter p) = true := Map.wfFrom_filter d p m 0 h

theorem Map.wf_keep (d : Nat → α) (p : Nat → Bool) (m : Map α) (h : Map.wf d m = true) :
    Map.wf d (Map.keep p m) = true := Map.wf_filter d _ m h

theorem Map.wf_put (d : Nat → α) (m : Map α) (k : Nat) (v : α) (h : Map.wf d m = true) :
    Map.wf d (Map.put d m k v) = true := by
  unfold Map.put
  split
  · exact Map.wf_filter d _ m h
  · next hv => exact Map.wfFrom_ins d k v hv m 0 (Nat.zero_le _) h

end Sys2Proof.Machine
end

