-- ==== Sys2Proof/Laws/State.lean ====
section
/-!
SUPPORT. What each update of a field of State does to every field of State.
-/

-- One proof at a time bounds the threads and memory of a compile.
set_option Elab.async false

namespace Sys2Proof.Machine

@[simp] theorem State.onNow_pending (s : State) (f : Nat → Nat) : (s.onNow f).pending = s.pending := rfl
@[simp] theorem State.onNow_now (s : State) (f : Nat → Nat) : (s.onNow f).now = f s.now := rfl
@[simp] theorem State.onNow_free (s : State) (f : Nat → Nat) : (s.onNow f).free = s.free := rfl
@[simp] theorem State.onNow_resp (s : State) (f : Nat → Nat) : (s.onNow f).resp = s.resp := rfl
@[simp] theorem State.onNow_regs (s : State) (f : Nat → Nat) : (s.onNow f).regs = s.regs := rfl
@[simp] theorem State.onNow_shadow (s : State) (f : Nat → Nat) : (s.onNow f).shadow = s.shadow := rfl
@[simp] theorem State.onNow_frozen (s : State) (f : Nat → Nat) : (s.onNow f).frozen = s.frozen := rfl
@[simp] theorem State.onNow_latch (s : State) (f : Nat → Nat) : (s.onNow f).latch = s.latch := rfl
@[simp] theorem State.onNow_pg (s : State) (f : Nat → Nat) : (s.onNow f).pg = s.pg := rfl
@[simp] theorem State.onNow_mem (s : State) (f : Nat → Nat) : (s.onNow f).mem = s.mem := rfl
@[simp] theorem State.onNow_poison (s : State) (f : Nat → Nat) : (s.onNow f).poison = s.poison := rfl
@[simp] theorem State.onNow_fab (s : State) (f : Nat → Nat) : (s.onNow f).fab = s.fab := rfl
@[simp] theorem State.onNow_tb (s : State) (f : Nat → Nat) : (s.onNow f).tb = s.tb := rfl
@[simp] theorem State.onNow_evf (s : State) (f : Nat → Nat) : (s.onNow f).evf = s.evf := rfl
@[simp] theorem State.onNow_dep (s : State) (f : Nat → Nat) : (s.onNow f).dep = s.dep := rfl
@[simp] theorem State.onNow_qm (s : State) (f : Nat → Nat) : (s.onNow f).qm = s.qm := rfl
@[simp] theorem State.onNow_dram (s : State) (f : Nat → Nat) : (s.onNow f).dram = s.dram := rfl
@[simp] theorem State.onNow_plat (s : State) (f : Nat → Nat) : (s.onNow f).plat = s.plat := rfl
@[simp] theorem State.onNow_power (s : State) (f : Nat → Nat) : (s.onNow f).power = s.power := rfl
@[simp] theorem State.onNow_cap (s : State) (f : Nat → Nat) : (s.onNow f).cap = s.cap := rfl
@[simp] theorem State.onNow_pipes (s : State) (f : Nat → Nat) : (s.onNow f).pipes = s.pipes := rfl
@[simp] theorem State.onNow_swarm (s : State) (f : Nat → Nat) : (s.onNow f).swarm = s.swarm := rfl
@[simp] theorem State.onNow_codec (s : State) (f : Nat → Nat) : (s.onNow f).codec = s.codec := rfl
@[simp] theorem State.onNow_disp (s : State) (f : Nat → Nat) : (s.onNow f).disp = s.disp := rfl
@[simp] theorem State.onNow_tdm (s : State) (f : Nat → Nat) : (s.onNow f).tdm = s.tdm := rfl
@[simp] theorem State.onNow_net (s : State) (f : Nat → Nat) : (s.onNow f).net = s.net := rfl
@[simp] theorem State.onNow_stor (s : State) (f : Nat → Nat) : (s.onNow f).stor = s.stor := rfl
@[simp] theorem State.onFree_pending (s : State) (f : Nat → Nat) : (s.onFree f).pending = s.pending := rfl
@[simp] theorem State.onFree_now (s : State) (f : Nat → Nat) : (s.onFree f).now = s.now := rfl
@[simp] theorem State.onFree_free (s : State) (f : Nat → Nat) : (s.onFree f).free = f s.free := rfl
@[simp] theorem State.onFree_resp (s : State) (f : Nat → Nat) : (s.onFree f).resp = s.resp := rfl
@[simp] theorem State.onFree_regs (s : State) (f : Nat → Nat) : (s.onFree f).regs = s.regs := rfl
@[simp] theorem State.onFree_shadow (s : State) (f : Nat → Nat) : (s.onFree f).shadow = s.shadow := rfl
@[simp] theorem State.onFree_frozen (s : State) (f : Nat → Nat) : (s.onFree f).frozen = s.frozen := rfl
@[simp] theorem State.onFree_latch (s : State) (f : Nat → Nat) : (s.onFree f).latch = s.latch := rfl
@[simp] theorem State.onFree_pg (s : State) (f : Nat → Nat) : (s.onFree f).pg = s.pg := rfl
@[simp] theorem State.onFree_mem (s : State) (f : Nat → Nat) : (s.onFree f).mem = s.mem := rfl
@[simp] theorem State.onFree_poison (s : State) (f : Nat → Nat) : (s.onFree f).poison = s.poison := rfl
@[simp] theorem State.onFree_fab (s : State) (f : Nat → Nat) : (s.onFree f).fab = s.fab := rfl
@[simp] theorem State.onFree_tb (s : State) (f : Nat → Nat) : (s.onFree f).tb = s.tb := rfl
@[simp] theorem State.onFree_evf (s : State) (f : Nat → Nat) : (s.onFree f).evf = s.evf := rfl
@[simp] theorem State.onFree_dep (s : State) (f : Nat → Nat) : (s.onFree f).dep = s.dep := rfl
@[simp] theorem State.onFree_qm (s : State) (f : Nat → Nat) : (s.onFree f).qm = s.qm := rfl
@[simp] theorem State.onFree_dram (s : State) (f : Nat → Nat) : (s.onFree f).dram = s.dram := rfl
@[simp] theorem State.onFree_plat (s : State) (f : Nat → Nat) : (s.onFree f).plat = s.plat := rfl
@[simp] theorem State.onFree_power (s : State) (f : Nat → Nat) : (s.onFree f).power = s.power := rfl
@[simp] theorem State.onFree_cap (s : State) (f : Nat → Nat) : (s.onFree f).cap = s.cap := rfl
@[simp] theorem State.onFree_pipes (s : State) (f : Nat → Nat) : (s.onFree f).pipes = s.pipes := rfl
@[simp] theorem State.onFree_swarm (s : State) (f : Nat → Nat) : (s.onFree f).swarm = s.swarm := rfl
@[simp] theorem State.onFree_codec (s : State) (f : Nat → Nat) : (s.onFree f).codec = s.codec := rfl
@[simp] theorem State.onFree_disp (s : State) (f : Nat → Nat) : (s.onFree f).disp = s.disp := rfl
@[simp] theorem State.onFree_tdm (s : State) (f : Nat → Nat) : (s.onFree f).tdm = s.tdm := rfl
@[simp] theorem State.onFree_net (s : State) (f : Nat → Nat) : (s.onFree f).net = s.net := rfl
@[simp] theorem State.onFree_stor (s : State) (f : Nat → Nat) : (s.onFree f).stor = s.stor := rfl
@[simp] theorem State.onResp_pending (s : State) (f : Response → Response) : (s.onResp f).pending = s.pending := rfl
@[simp] theorem State.onResp_now (s : State) (f : Response → Response) : (s.onResp f).now = s.now := rfl
@[simp] theorem State.onResp_free (s : State) (f : Response → Response) : (s.onResp f).free = s.free := rfl
@[simp] theorem State.onResp_resp (s : State) (f : Response → Response) : (s.onResp f).resp = f s.resp := rfl
@[simp] theorem State.onResp_regs (s : State) (f : Response → Response) : (s.onResp f).regs = s.regs := rfl
@[simp] theorem State.onResp_shadow (s : State) (f : Response → Response) : (s.onResp f).shadow = s.shadow := rfl
@[simp] theorem State.onResp_frozen (s : State) (f : Response → Response) : (s.onResp f).frozen = s.frozen := rfl
@[simp] theorem State.onResp_latch (s : State) (f : Response → Response) : (s.onResp f).latch = s.latch := rfl
@[simp] theorem State.onResp_pg (s : State) (f : Response → Response) : (s.onResp f).pg = s.pg := rfl
@[simp] theorem State.onResp_mem (s : State) (f : Response → Response) : (s.onResp f).mem = s.mem := rfl
@[simp] theorem State.onResp_poison (s : State) (f : Response → Response) : (s.onResp f).poison = s.poison := rfl
@[simp] theorem State.onResp_fab (s : State) (f : Response → Response) : (s.onResp f).fab = s.fab := rfl
@[simp] theorem State.onResp_tb (s : State) (f : Response → Response) : (s.onResp f).tb = s.tb := rfl
@[simp] theorem State.onResp_evf (s : State) (f : Response → Response) : (s.onResp f).evf = s.evf := rfl
@[simp] theorem State.onResp_dep (s : State) (f : Response → Response) : (s.onResp f).dep = s.dep := rfl
@[simp] theorem State.onResp_qm (s : State) (f : Response → Response) : (s.onResp f).qm = s.qm := rfl
@[simp] theorem State.onResp_dram (s : State) (f : Response → Response) : (s.onResp f).dram = s.dram := rfl
@[simp] theorem State.onResp_plat (s : State) (f : Response → Response) : (s.onResp f).plat = s.plat := rfl
@[simp] theorem State.onResp_power (s : State) (f : Response → Response) : (s.onResp f).power = s.power := rfl
@[simp] theorem State.onResp_cap (s : State) (f : Response → Response) : (s.onResp f).cap = s.cap := rfl
@[simp] theorem State.onResp_pipes (s : State) (f : Response → Response) : (s.onResp f).pipes = s.pipes := rfl
@[simp] theorem State.onResp_swarm (s : State) (f : Response → Response) : (s.onResp f).swarm = s.swarm := rfl
@[simp] theorem State.onResp_codec (s : State) (f : Response → Response) : (s.onResp f).codec = s.codec := rfl
@[simp] theorem State.onResp_disp (s : State) (f : Response → Response) : (s.onResp f).disp = s.disp := rfl
@[simp] theorem State.onResp_tdm (s : State) (f : Response → Response) : (s.onResp f).tdm = s.tdm := rfl
@[simp] theorem State.onResp_net (s : State) (f : Response → Response) : (s.onResp f).net = s.net := rfl
@[simp] theorem State.onResp_stor (s : State) (f : Response → Response) : (s.onResp f).stor = s.stor := rfl
@[simp] theorem State.onRegs_pending (s : State) (f : Map Word → Map Word) : (s.onRegs f).pending = s.pending := rfl
@[simp] theorem State.onRegs_now (s : State) (f : Map Word → Map Word) : (s.onRegs f).now = s.now := rfl
@[simp] theorem State.onRegs_free (s : State) (f : Map Word → Map Word) : (s.onRegs f).free = s.free := rfl
@[simp] theorem State.onRegs_resp (s : State) (f : Map Word → Map Word) : (s.onRegs f).resp = s.resp := rfl
@[simp] theorem State.onRegs_regs (s : State) (f : Map Word → Map Word) : (s.onRegs f).regs = f s.regs := rfl
@[simp] theorem State.onRegs_shadow (s : State) (f : Map Word → Map Word) : (s.onRegs f).shadow = s.shadow := rfl
@[simp] theorem State.onRegs_frozen (s : State) (f : Map Word → Map Word) : (s.onRegs f).frozen = s.frozen := rfl
@[simp] theorem State.onRegs_latch (s : State) (f : Map Word → Map Word) : (s.onRegs f).latch = s.latch := rfl
@[simp] theorem State.onRegs_pg (s : State) (f : Map Word → Map Word) : (s.onRegs f).pg = s.pg := rfl
@[simp] theorem State.onRegs_mem (s : State) (f : Map Word → Map Word) : (s.onRegs f).mem = s.mem := rfl
@[simp] theorem State.onRegs_poison (s : State) (f : Map Word → Map Word) : (s.onRegs f).poison = s.poison := rfl
@[simp] theorem State.onRegs_fab (s : State) (f : Map Word → Map Word) : (s.onRegs f).fab = s.fab := rfl
@[simp] theorem State.onRegs_tb (s : State) (f : Map Word → Map Word) : (s.onRegs f).tb = s.tb := rfl
@[simp] theorem State.onRegs_evf (s : State) (f : Map Word → Map Word) : (s.onRegs f).evf = s.evf := rfl
@[simp] theorem State.onRegs_dep (s : State) (f : Map Word → Map Word) : (s.onRegs f).dep = s.dep := rfl
@[simp] theorem State.onRegs_qm (s : State) (f : Map Word → Map Word) : (s.onRegs f).qm = s.qm := rfl
@[simp] theorem State.onRegs_dram (s : State) (f : Map Word → Map Word) : (s.onRegs f).dram = s.dram := rfl
@[simp] theorem State.onRegs_plat (s : State) (f : Map Word → Map Word) : (s.onRegs f).plat = s.plat := rfl
@[simp] theorem State.onRegs_power (s : State) (f : Map Word → Map Word) : (s.onRegs f).power = s.power := rfl
@[simp] theorem State.onRegs_cap (s : State) (f : Map Word → Map Word) : (s.onRegs f).cap = s.cap := rfl
@[simp] theorem State.onRegs_pipes (s : State) (f : Map Word → Map Word) : (s.onRegs f).pipes = s.pipes := rfl
@[simp] theorem State.onRegs_swarm (s : State) (f : Map Word → Map Word) : (s.onRegs f).swarm = s.swarm := rfl
@[simp] theorem State.onRegs_codec (s : State) (f : Map Word → Map Word) : (s.onRegs f).codec = s.codec := rfl
@[simp] theorem State.onRegs_disp (s : State) (f : Map Word → Map Word) : (s.onRegs f).disp = s.disp := rfl
@[simp] theorem State.onRegs_tdm (s : State) (f : Map Word → Map Word) : (s.onRegs f).tdm = s.tdm := rfl
@[simp] theorem State.onRegs_net (s : State) (f : Map Word → Map Word) : (s.onRegs f).net = s.net := rfl
@[simp] theorem State.onRegs_stor (s : State) (f : Map Word → Map Word) : (s.onRegs f).stor = s.stor := rfl
@[simp] theorem State.onShadow_pending (s : State) (f : Map (Option Word) → Map (Option Word)) : (s.onShadow f).pending = s.pending := rfl
@[simp] theorem State.onShadow_now (s : State) (f : Map (Option Word) → Map (Option Word)) : (s.onShadow f).now = s.now := rfl
@[simp] theorem State.onShadow_free (s : State) (f : Map (Option Word) → Map (Option Word)) : (s.onShadow f).free = s.free := rfl
@[simp] theorem State.onShadow_resp (s : State) (f : Map (Option Word) → Map (Option Word)) : (s.onShadow f).resp = s.resp := rfl
@[simp] theorem State.onShadow_regs (s : State) (f : Map (Option Word) → Map (Option Word)) : (s.onShadow f).regs = s.regs := rfl
@[simp] theorem State.onShadow_shadow (s : State) (f : Map (Option Word) → Map (Option Word)) : (s.onShadow f).shadow = f s.shadow := rfl
@[simp] theorem State.onShadow_frozen (s : State) (f : Map (Option Word) → Map (Option Word)) : (s.onShadow f).frozen = s.frozen := rfl
@[simp] theorem State.onShadow_latch (s : State) (f : Map (Option Word) → Map (Option Word)) : (s.onShadow f).latch = s.latch := rfl
@[simp] theorem State.onShadow_pg (s : State) (f : Map (Option Word) → Map (Option Word)) : (s.onShadow f).pg = s.pg := rfl
@[simp] theorem State.onShadow_mem (s : State) (f : Map (Option Word) → Map (Option Word)) : (s.onShadow f).mem = s.mem := rfl
@[simp] theorem State.onShadow_poison (s : State) (f : Map (Option Word) → Map (Option Word)) : (s.onShadow f).poison = s.poison := rfl
@[simp] theorem State.onShadow_fab (s : State) (f : Map (Option Word) → Map (Option Word)) : (s.onShadow f).fab = s.fab := rfl
@[simp] theorem State.onShadow_tb (s : State) (f : Map (Option Word) → Map (Option Word)) : (s.onShadow f).tb = s.tb := rfl
@[simp] theorem State.onShadow_evf (s : State) (f : Map (Option Word) → Map (Option Word)) : (s.onShadow f).evf = s.evf := rfl
@[simp] theorem State.onShadow_dep (s : State) (f : Map (Option Word) → Map (Option Word)) : (s.onShadow f).dep = s.dep := rfl
@[simp] theorem State.onShadow_qm (s : State) (f : Map (Option Word) → Map (Option Word)) : (s.onShadow f).qm = s.qm := rfl
@[simp] theorem State.onShadow_dram (s : State) (f : Map (Option Word) → Map (Option Word)) : (s.onShadow f).dram = s.dram := rfl
@[simp] theorem State.onShadow_plat (s : State) (f : Map (Option Word) → Map (Option Word)) : (s.onShadow f).plat = s.plat := rfl
@[simp] theorem State.onShadow_power (s : State) (f : Map (Option Word) → Map (Option Word)) : (s.onShadow f).power = s.power := rfl
@[simp] theorem State.onShadow_cap (s : State) (f : Map (Option Word) → Map (Option Word)) : (s.onShadow f).cap = s.cap := rfl
@[simp] theorem State.onShadow_pipes (s : State) (f : Map (Option Word) → Map (Option Word)) : (s.onShadow f).pipes = s.pipes := rfl
@[simp] theorem State.onShadow_swarm (s : State) (f : Map (Option Word) → Map (Option Word)) : (s.onShadow f).swarm = s.swarm := rfl
@[simp] theorem State.onShadow_codec (s : State) (f : Map (Option Word) → Map (Option Word)) : (s.onShadow f).codec = s.codec := rfl
@[simp] theorem State.onShadow_disp (s : State) (f : Map (Option Word) → Map (Option Word)) : (s.onShadow f).disp = s.disp := rfl
@[simp] theorem State.onShadow_tdm (s : State) (f : Map (Option Word) → Map (Option Word)) : (s.onShadow f).tdm = s.tdm := rfl
@[simp] theorem State.onShadow_net (s : State) (f : Map (Option Word) → Map (Option Word)) : (s.onShadow f).net = s.net := rfl
@[simp] theorem State.onShadow_stor (s : State) (f : Map (Option Word) → Map (Option Word)) : (s.onShadow f).stor = s.stor := rfl
@[simp] theorem State.onFrozen_pending (s : State) (f : Map (Option Word) → Map (Option Word)) : (s.onFrozen f).pending = s.pending := rfl
@[simp] theorem State.onFrozen_now (s : State) (f : Map (Option Word) → Map (Option Word)) : (s.onFrozen f).now = s.now := rfl
@[simp] theorem State.onFrozen_free (s : State) (f : Map (Option Word) → Map (Option Word)) : (s.onFrozen f).free = s.free := rfl
@[simp] theorem State.onFrozen_resp (s : State) (f : Map (Option Word) → Map (Option Word)) : (s.onFrozen f).resp = s.resp := rfl
@[simp] theorem State.onFrozen_regs (s : State) (f : Map (Option Word) → Map (Option Word)) : (s.onFrozen f).regs = s.regs := rfl
@[simp] theorem State.onFrozen_shadow (s : State) (f : Map (Option Word) → Map (Option Word)) : (s.onFrozen f).shadow = s.shadow := rfl
@[simp] theorem State.onFrozen_frozen (s : State) (f : Map (Option Word) → Map (Option Word)) : (s.onFrozen f).frozen = f s.frozen := rfl
@[simp] theorem State.onFrozen_latch (s : State) (f : Map (Option Word) → Map (Option Word)) : (s.onFrozen f).latch = s.latch := rfl
@[simp] theorem State.onFrozen_pg (s : State) (f : Map (Option Word) → Map (Option Word)) : (s.onFrozen f).pg = s.pg := rfl
@[simp] theorem State.onFrozen_mem (s : State) (f : Map (Option Word) → Map (Option Word)) : (s.onFrozen f).mem = s.mem := rfl
@[simp] theorem State.onFrozen_poison (s : State) (f : Map (Option Word) → Map (Option Word)) : (s.onFrozen f).poison = s.poison := rfl
@[simp] theorem State.onFrozen_fab (s : State) (f : Map (Option Word) → Map (Option Word)) : (s.onFrozen f).fab = s.fab := rfl
@[simp] theorem State.onFrozen_tb (s : State) (f : Map (Option Word) → Map (Option Word)) : (s.onFrozen f).tb = s.tb := rfl
@[simp] theorem State.onFrozen_evf (s : State) (f : Map (Option Word) → Map (Option Word)) : (s.onFrozen f).evf = s.evf := rfl
@[simp] theorem State.onFrozen_dep (s : State) (f : Map (Option Word) → Map (Option Word)) : (s.onFrozen f).dep = s.dep := rfl
@[simp] theorem State.onFrozen_qm (s : State) (f : Map (Option Word) → Map (Option Word)) : (s.onFrozen f).qm = s.qm := rfl
@[simp] theorem State.onFrozen_dram (s : State) (f : Map (Option Word) → Map (Option Word)) : (s.onFrozen f).dram = s.dram := rfl
@[simp] theorem State.onFrozen_plat (s : State) (f : Map (Option Word) → Map (Option Word)) : (s.onFrozen f).plat = s.plat := rfl
@[simp] theorem State.onFrozen_power (s : State) (f : Map (Option Word) → Map (Option Word)) : (s.onFrozen f).power = s.power := rfl
@[simp] theorem State.onFrozen_cap (s : State) (f : Map (Option Word) → Map (Option Word)) : (s.onFrozen f).cap = s.cap := rfl
@[simp] theorem State.onFrozen_pipes (s : State) (f : Map (Option Word) → Map (Option Word)) : (s.onFrozen f).pipes = s.pipes := rfl
@[simp] theorem State.onFrozen_swarm (s : State) (f : Map (Option Word) → Map (Option Word)) : (s.onFrozen f).swarm = s.swarm := rfl
@[simp] theorem State.onFrozen_codec (s : State) (f : Map (Option Word) → Map (Option Word)) : (s.onFrozen f).codec = s.codec := rfl
@[simp] theorem State.onFrozen_disp (s : State) (f : Map (Option Word) → Map (Option Word)) : (s.onFrozen f).disp = s.disp := rfl
@[simp] theorem State.onFrozen_tdm (s : State) (f : Map (Option Word) → Map (Option Word)) : (s.onFrozen f).tdm = s.tdm := rfl
@[simp] theorem State.onFrozen_net (s : State) (f : Map (Option Word) → Map (Option Word)) : (s.onFrozen f).net = s.net := rfl
@[simp] theorem State.onFrozen_stor (s : State) (f : Map (Option Word) → Map (Option Word)) : (s.onFrozen f).stor = s.stor := rfl
@[simp] theorem State.onLatch_pending (s : State) (f : Map (Option Word) → Map (Option Word)) : (s.onLatch f).pending = s.pending := rfl
@[simp] theorem State.onLatch_now (s : State) (f : Map (Option Word) → Map (Option Word)) : (s.onLatch f).now = s.now := rfl
@[simp] theorem State.onLatch_free (s : State) (f : Map (Option Word) → Map (Option Word)) : (s.onLatch f).free = s.free := rfl
@[simp] theorem State.onLatch_resp (s : State) (f : Map (Option Word) → Map (Option Word)) : (s.onLatch f).resp = s.resp := rfl
@[simp] theorem State.onLatch_regs (s : State) (f : Map (Option Word) → Map (Option Word)) : (s.onLatch f).regs = s.regs := rfl
@[simp] theorem State.onLatch_shadow (s : State) (f : Map (Option Word) → Map (Option Word)) : (s.onLatch f).shadow = s.shadow := rfl
@[simp] theorem State.onLatch_frozen (s : State) (f : Map (Option Word) → Map (Option Word)) : (s.onLatch f).frozen = s.frozen := rfl
@[simp] theorem State.onLatch_latch (s : State) (f : Map (Option Word) → Map (Option Word)) : (s.onLatch f).latch = f s.latch := rfl
@[simp] theorem State.onLatch_pg (s : State) (f : Map (Option Word) → Map (Option Word)) : (s.onLatch f).pg = s.pg := rfl
@[simp] theorem State.onLatch_mem (s : State) (f : Map (Option Word) → Map (Option Word)) : (s.onLatch f).mem = s.mem := rfl
@[simp] theorem State.onLatch_poison (s : State) (f : Map (Option Word) → Map (Option Word)) : (s.onLatch f).poison = s.poison := rfl
@[simp] theorem State.onLatch_fab (s : State) (f : Map (Option Word) → Map (Option Word)) : (s.onLatch f).fab = s.fab := rfl
@[simp] theorem State.onLatch_tb (s : State) (f : Map (Option Word) → Map (Option Word)) : (s.onLatch f).tb = s.tb := rfl
@[simp] theorem State.onLatch_evf (s : State) (f : Map (Option Word) → Map (Option Word)) : (s.onLatch f).evf = s.evf := rfl
@[simp] theorem State.onLatch_dep (s : State) (f : Map (Option Word) → Map (Option Word)) : (s.onLatch f).dep = s.dep := rfl
@[simp] theorem State.onLatch_qm (s : State) (f : Map (Option Word) → Map (Option Word)) : (s.onLatch f).qm = s.qm := rfl
@[simp] theorem State.onLatch_dram (s : State) (f : Map (Option Word) → Map (Option Word)) : (s.onLatch f).dram = s.dram := rfl
@[simp] theorem State.onLatch_plat (s : State) (f : Map (Option Word) → Map (Option Word)) : (s.onLatch f).plat = s.plat := rfl
@[simp] theorem State.onLatch_power (s : State) (f : Map (Option Word) → Map (Option Word)) : (s.onLatch f).power = s.power := rfl
@[simp] theorem State.onLatch_cap (s : State) (f : Map (Option Word) → Map (Option Word)) : (s.onLatch f).cap = s.cap := rfl
@[simp] theorem State.onLatch_pipes (s : State) (f : Map (Option Word) → Map (Option Word)) : (s.onLatch f).pipes = s.pipes := rfl
@[simp] theorem State.onLatch_swarm (s : State) (f : Map (Option Word) → Map (Option Word)) : (s.onLatch f).swarm = s.swarm := rfl
@[simp] theorem State.onLatch_codec (s : State) (f : Map (Option Word) → Map (Option Word)) : (s.onLatch f).codec = s.codec := rfl
@[simp] theorem State.onLatch_disp (s : State) (f : Map (Option Word) → Map (Option Word)) : (s.onLatch f).disp = s.disp := rfl
@[simp] theorem State.onLatch_tdm (s : State) (f : Map (Option Word) → Map (Option Word)) : (s.onLatch f).tdm = s.tdm := rfl
@[simp] theorem State.onLatch_net (s : State) (f : Map (Option Word) → Map (Option Word)) : (s.onLatch f).net = s.net := rfl
@[simp] theorem State.onLatch_stor (s : State) (f : Map (Option Word) → Map (Option Word)) : (s.onLatch f).stor = s.stor := rfl
@[simp] theorem State.onPg_pending (s : State) (f : Map PageRt → Map PageRt) : (s.onPg f).pending = s.pending := rfl
@[simp] theorem State.onPg_now (s : State) (f : Map PageRt → Map PageRt) : (s.onPg f).now = s.now := rfl
@[simp] theorem State.onPg_free (s : State) (f : Map PageRt → Map PageRt) : (s.onPg f).free = s.free := rfl
@[simp] theorem State.onPg_resp (s : State) (f : Map PageRt → Map PageRt) : (s.onPg f).resp = s.resp := rfl
@[simp] theorem State.onPg_regs (s : State) (f : Map PageRt → Map PageRt) : (s.onPg f).regs = s.regs := rfl
@[simp] theorem State.onPg_shadow (s : State) (f : Map PageRt → Map PageRt) : (s.onPg f).shadow = s.shadow := rfl
@[simp] theorem State.onPg_frozen (s : State) (f : Map PageRt → Map PageRt) : (s.onPg f).frozen = s.frozen := rfl
@[simp] theorem State.onPg_latch (s : State) (f : Map PageRt → Map PageRt) : (s.onPg f).latch = s.latch := rfl
@[simp] theorem State.onPg_pg (s : State) (f : Map PageRt → Map PageRt) : (s.onPg f).pg = f s.pg := rfl
@[simp] theorem State.onPg_mem (s : State) (f : Map PageRt → Map PageRt) : (s.onPg f).mem = s.mem := rfl
@[simp] theorem State.onPg_poison (s : State) (f : Map PageRt → Map PageRt) : (s.onPg f).poison = s.poison := rfl
@[simp] theorem State.onPg_fab (s : State) (f : Map PageRt → Map PageRt) : (s.onPg f).fab = s.fab := rfl
@[simp] theorem State.onPg_tb (s : State) (f : Map PageRt → Map PageRt) : (s.onPg f).tb = s.tb := rfl
@[simp] theorem State.onPg_evf (s : State) (f : Map PageRt → Map PageRt) : (s.onPg f).evf = s.evf := rfl
@[simp] theorem State.onPg_dep (s : State) (f : Map PageRt → Map PageRt) : (s.onPg f).dep = s.dep := rfl
@[simp] theorem State.onPg_qm (s : State) (f : Map PageRt → Map PageRt) : (s.onPg f).qm = s.qm := rfl
@[simp] theorem State.onPg_dram (s : State) (f : Map PageRt → Map PageRt) : (s.onPg f).dram = s.dram := rfl
@[simp] theorem State.onPg_plat (s : State) (f : Map PageRt → Map PageRt) : (s.onPg f).plat = s.plat := rfl
@[simp] theorem State.onPg_power (s : State) (f : Map PageRt → Map PageRt) : (s.onPg f).power = s.power := rfl
@[simp] theorem State.onPg_cap (s : State) (f : Map PageRt → Map PageRt) : (s.onPg f).cap = s.cap := rfl
@[simp] theorem State.onPg_pipes (s : State) (f : Map PageRt → Map PageRt) : (s.onPg f).pipes = s.pipes := rfl
@[simp] theorem State.onPg_swarm (s : State) (f : Map PageRt → Map PageRt) : (s.onPg f).swarm = s.swarm := rfl
@[simp] theorem State.onPg_codec (s : State) (f : Map PageRt → Map PageRt) : (s.onPg f).codec = s.codec := rfl
@[simp] theorem State.onPg_disp (s : State) (f : Map PageRt → Map PageRt) : (s.onPg f).disp = s.disp := rfl
@[simp] theorem State.onPg_tdm (s : State) (f : Map PageRt → Map PageRt) : (s.onPg f).tdm = s.tdm := rfl
@[simp] theorem State.onPg_net (s : State) (f : Map PageRt → Map PageRt) : (s.onPg f).net = s.net := rfl
@[simp] theorem State.onPg_stor (s : State) (f : Map PageRt → Map PageRt) : (s.onPg f).stor = s.stor := rfl
@[simp] theorem State.onMem_pending (s : State) (f : List Host.Cell → List Host.Cell) : (s.onMem f).pending = s.pending := rfl
@[simp] theorem State.onMem_now (s : State) (f : List Host.Cell → List Host.Cell) : (s.onMem f).now = s.now := rfl
@[simp] theorem State.onMem_free (s : State) (f : List Host.Cell → List Host.Cell) : (s.onMem f).free = s.free := rfl
@[simp] theorem State.onMem_resp (s : State) (f : List Host.Cell → List Host.Cell) : (s.onMem f).resp = s.resp := rfl
@[simp] theorem State.onMem_regs (s : State) (f : List Host.Cell → List Host.Cell) : (s.onMem f).regs = s.regs := rfl
@[simp] theorem State.onMem_shadow (s : State) (f : List Host.Cell → List Host.Cell) : (s.onMem f).shadow = s.shadow := rfl
@[simp] theorem State.onMem_frozen (s : State) (f : List Host.Cell → List Host.Cell) : (s.onMem f).frozen = s.frozen := rfl
@[simp] theorem State.onMem_latch (s : State) (f : List Host.Cell → List Host.Cell) : (s.onMem f).latch = s.latch := rfl
@[simp] theorem State.onMem_pg (s : State) (f : List Host.Cell → List Host.Cell) : (s.onMem f).pg = s.pg := rfl
@[simp] theorem State.onMem_mem (s : State) (f : List Host.Cell → List Host.Cell) : (s.onMem f).mem = f s.mem := rfl
@[simp] theorem State.onMem_poison (s : State) (f : List Host.Cell → List Host.Cell) : (s.onMem f).poison = s.poison := rfl
@[simp] theorem State.onMem_fab (s : State) (f : List Host.Cell → List Host.Cell) : (s.onMem f).fab = s.fab := rfl
@[simp] theorem State.onMem_tb (s : State) (f : List Host.Cell → List Host.Cell) : (s.onMem f).tb = s.tb := rfl
@[simp] theorem State.onMem_evf (s : State) (f : List Host.Cell → List Host.Cell) : (s.onMem f).evf = s.evf := rfl
@[simp] theorem State.onMem_dep (s : State) (f : List Host.Cell → List Host.Cell) : (s.onMem f).dep = s.dep := rfl
@[simp] theorem State.onMem_qm (s : State) (f : List Host.Cell → List Host.Cell) : (s.onMem f).qm = s.qm := rfl
@[simp] theorem State.onMem_dram (s : State) (f : List Host.Cell → List Host.Cell) : (s.onMem f).dram = s.dram := rfl
@[simp] theorem State.onMem_plat (s : State) (f : List Host.Cell → List Host.Cell) : (s.onMem f).plat = s.plat := rfl
@[simp] theorem State.onMem_power (s : State) (f : List Host.Cell → List Host.Cell) : (s.onMem f).power = s.power := rfl
@[simp] theorem State.onMem_cap (s : State) (f : List Host.Cell → List Host.Cell) : (s.onMem f).cap = s.cap := rfl
@[simp] theorem State.onMem_pipes (s : State) (f : List Host.Cell → List Host.Cell) : (s.onMem f).pipes = s.pipes := rfl
@[simp] theorem State.onMem_swarm (s : State) (f : List Host.Cell → List Host.Cell) : (s.onMem f).swarm = s.swarm := rfl
@[simp] theorem State.onMem_codec (s : State) (f : List Host.Cell → List Host.Cell) : (s.onMem f).codec = s.codec := rfl
@[simp] theorem State.onMem_disp (s : State) (f : List Host.Cell → List Host.Cell) : (s.onMem f).disp = s.disp := rfl
@[simp] theorem State.onMem_tdm (s : State) (f : List Host.Cell → List Host.Cell) : (s.onMem f).tdm = s.tdm := rfl
@[simp] theorem State.onMem_net (s : State) (f : List Host.Cell → List Host.Cell) : (s.onMem f).net = s.net := rfl
@[simp] theorem State.onMem_stor (s : State) (f : List Host.Cell → List Host.Cell) : (s.onMem f).stor = s.stor := rfl
@[simp] theorem State.onPoison_pending (s : State) (f : Map Bool → Map Bool) : (s.onPoison f).pending = s.pending := rfl
@[simp] theorem State.onPoison_now (s : State) (f : Map Bool → Map Bool) : (s.onPoison f).now = s.now := rfl
@[simp] theorem State.onPoison_free (s : State) (f : Map Bool → Map Bool) : (s.onPoison f).free = s.free := rfl
@[simp] theorem State.onPoison_resp (s : State) (f : Map Bool → Map Bool) : (s.onPoison f).resp = s.resp := rfl
@[simp] theorem State.onPoison_regs (s : State) (f : Map Bool → Map Bool) : (s.onPoison f).regs = s.regs := rfl
@[simp] theorem State.onPoison_shadow (s : State) (f : Map Bool → Map Bool) : (s.onPoison f).shadow = s.shadow := rfl
@[simp] theorem State.onPoison_frozen (s : State) (f : Map Bool → Map Bool) : (s.onPoison f).frozen = s.frozen := rfl
@[simp] theorem State.onPoison_latch (s : State) (f : Map Bool → Map Bool) : (s.onPoison f).latch = s.latch := rfl
@[simp] theorem State.onPoison_pg (s : State) (f : Map Bool → Map Bool) : (s.onPoison f).pg = s.pg := rfl
@[simp] theorem State.onPoison_mem (s : State) (f : Map Bool → Map Bool) : (s.onPoison f).mem = s.mem := rfl
@[simp] theorem State.onPoison_poison (s : State) (f : Map Bool → Map Bool) : (s.onPoison f).poison = f s.poison := rfl
@[simp] theorem State.onPoison_fab (s : State) (f : Map Bool → Map Bool) : (s.onPoison f).fab = s.fab := rfl
@[simp] theorem State.onPoison_tb (s : State) (f : Map Bool → Map Bool) : (s.onPoison f).tb = s.tb := rfl
@[simp] theorem State.onPoison_evf (s : State) (f : Map Bool → Map Bool) : (s.onPoison f).evf = s.evf := rfl
@[simp] theorem State.onPoison_dep (s : State) (f : Map Bool → Map Bool) : (s.onPoison f).dep = s.dep := rfl
@[simp] theorem State.onPoison_qm (s : State) (f : Map Bool → Map Bool) : (s.onPoison f).qm = s.qm := rfl
@[simp] theorem State.onPoison_dram (s : State) (f : Map Bool → Map Bool) : (s.onPoison f).dram = s.dram := rfl
@[simp] theorem State.onPoison_plat (s : State) (f : Map Bool → Map Bool) : (s.onPoison f).plat = s.plat := rfl
@[simp] theorem State.onPoison_power (s : State) (f : Map Bool → Map Bool) : (s.onPoison f).power = s.power := rfl
@[simp] theorem State.onPoison_cap (s : State) (f : Map Bool → Map Bool) : (s.onPoison f).cap = s.cap := rfl
@[simp] theorem State.onPoison_pipes (s : State) (f : Map Bool → Map Bool) : (s.onPoison f).pipes = s.pipes := rfl
@[simp] theorem State.onPoison_swarm (s : State) (f : Map Bool → Map Bool) : (s.onPoison f).swarm = s.swarm := rfl
@[simp] theorem State.onPoison_codec (s : State) (f : Map Bool → Map Bool) : (s.onPoison f).codec = s.codec := rfl
@[simp] theorem State.onPoison_disp (s : State) (f : Map Bool → Map Bool) : (s.onPoison f).disp = s.disp := rfl
@[simp] theorem State.onPoison_tdm (s : State) (f : Map Bool → Map Bool) : (s.onPoison f).tdm = s.tdm := rfl
@[simp] theorem State.onPoison_net (s : State) (f : Map Bool → Map Bool) : (s.onPoison f).net = s.net := rfl
@[simp] theorem State.onPoison_stor (s : State) (f : Map Bool → Map Bool) : (s.onPoison f).stor = s.stor := rfl
@[simp] theorem State.onFab_pending (s : State) (f : Map ArbPoint → Map ArbPoint) : (s.onFab f).pending = s.pending := rfl
@[simp] theorem State.onFab_now (s : State) (f : Map ArbPoint → Map ArbPoint) : (s.onFab f).now = s.now := rfl
@[simp] theorem State.onFab_free (s : State) (f : Map ArbPoint → Map ArbPoint) : (s.onFab f).free = s.free := rfl
@[simp] theorem State.onFab_resp (s : State) (f : Map ArbPoint → Map ArbPoint) : (s.onFab f).resp = s.resp := rfl
@[simp] theorem State.onFab_regs (s : State) (f : Map ArbPoint → Map ArbPoint) : (s.onFab f).regs = s.regs := rfl
@[simp] theorem State.onFab_shadow (s : State) (f : Map ArbPoint → Map ArbPoint) : (s.onFab f).shadow = s.shadow := rfl
@[simp] theorem State.onFab_frozen (s : State) (f : Map ArbPoint → Map ArbPoint) : (s.onFab f).frozen = s.frozen := rfl
@[simp] theorem State.onFab_latch (s : State) (f : Map ArbPoint → Map ArbPoint) : (s.onFab f).latch = s.latch := rfl
@[simp] theorem State.onFab_pg (s : State) (f : Map ArbPoint → Map ArbPoint) : (s.onFab f).pg = s.pg := rfl
@[simp] theorem State.onFab_mem (s : State) (f : Map ArbPoint → Map ArbPoint) : (s.onFab f).mem = s.mem := rfl
@[simp] theorem State.onFab_poison (s : State) (f : Map ArbPoint → Map ArbPoint) : (s.onFab f).poison = s.poison := rfl
@[simp] theorem State.onFab_fab (s : State) (f : Map ArbPoint → Map ArbPoint) : (s.onFab f).fab = f s.fab := rfl
@[simp] theorem State.onFab_tb (s : State) (f : Map ArbPoint → Map ArbPoint) : (s.onFab f).tb = s.tb := rfl
@[simp] theorem State.onFab_evf (s : State) (f : Map ArbPoint → Map ArbPoint) : (s.onFab f).evf = s.evf := rfl
@[simp] theorem State.onFab_dep (s : State) (f : Map ArbPoint → Map ArbPoint) : (s.onFab f).dep = s.dep := rfl
@[simp] theorem State.onFab_qm (s : State) (f : Map ArbPoint → Map ArbPoint) : (s.onFab f).qm = s.qm := rfl
@[simp] theorem State.onFab_dram (s : State) (f : Map ArbPoint → Map ArbPoint) : (s.onFab f).dram = s.dram := rfl
@[simp] theorem State.onFab_plat (s : State) (f : Map ArbPoint → Map ArbPoint) : (s.onFab f).plat = s.plat := rfl
@[simp] theorem State.onFab_power (s : State) (f : Map ArbPoint → Map ArbPoint) : (s.onFab f).power = s.power := rfl
@[simp] theorem State.onFab_cap (s : State) (f : Map ArbPoint → Map ArbPoint) : (s.onFab f).cap = s.cap := rfl
@[simp] theorem State.onFab_pipes (s : State) (f : Map ArbPoint → Map ArbPoint) : (s.onFab f).pipes = s.pipes := rfl
@[simp] theorem State.onFab_swarm (s : State) (f : Map ArbPoint → Map ArbPoint) : (s.onFab f).swarm = s.swarm := rfl
@[simp] theorem State.onFab_codec (s : State) (f : Map ArbPoint → Map ArbPoint) : (s.onFab f).codec = s.codec := rfl
@[simp] theorem State.onFab_disp (s : State) (f : Map ArbPoint → Map ArbPoint) : (s.onFab f).disp = s.disp := rfl
@[simp] theorem State.onFab_tdm (s : State) (f : Map ArbPoint → Map ArbPoint) : (s.onFab f).tdm = s.tdm := rfl
@[simp] theorem State.onFab_net (s : State) (f : Map ArbPoint → Map ArbPoint) : (s.onFab f).net = s.net := rfl
@[simp] theorem State.onFab_stor (s : State) (f : Map ArbPoint → Map ArbPoint) : (s.onFab f).stor = s.stor := rfl
@[simp] theorem State.onTb_pending (s : State) (f : Timebase → Timebase) : (s.onTb f).pending = s.pending := rfl
@[simp] theorem State.onTb_now (s : State) (f : Timebase → Timebase) : (s.onTb f).now = s.now := rfl
@[simp] theorem State.onTb_free (s : State) (f : Timebase → Timebase) : (s.onTb f).free = s.free := rfl
@[simp] theorem State.onTb_resp (s : State) (f : Timebase → Timebase) : (s.onTb f).resp = s.resp := rfl
@[simp] theorem State.onTb_regs (s : State) (f : Timebase → Timebase) : (s.onTb f).regs = s.regs := rfl
@[simp] theorem State.onTb_shadow (s : State) (f : Timebase → Timebase) : (s.onTb f).shadow = s.shadow := rfl
@[simp] theorem State.onTb_frozen (s : State) (f : Timebase → Timebase) : (s.onTb f).frozen = s.frozen := rfl
@[simp] theorem State.onTb_latch (s : State) (f : Timebase → Timebase) : (s.onTb f).latch = s.latch := rfl
@[simp] theorem State.onTb_pg (s : State) (f : Timebase → Timebase) : (s.onTb f).pg = s.pg := rfl
@[simp] theorem State.onTb_mem (s : State) (f : Timebase → Timebase) : (s.onTb f).mem = s.mem := rfl
@[simp] theorem State.onTb_poison (s : State) (f : Timebase → Timebase) : (s.onTb f).poison = s.poison := rfl
@[simp] theorem State.onTb_fab (s : State) (f : Timebase → Timebase) : (s.onTb f).fab = s.fab := rfl
@[simp] theorem State.onTb_tb (s : State) (f : Timebase → Timebase) : (s.onTb f).tb = f s.tb := rfl
@[simp] theorem State.onTb_evf (s : State) (f : Timebase → Timebase) : (s.onTb f).evf = s.evf := rfl
@[simp] theorem State.onTb_dep (s : State) (f : Timebase → Timebase) : (s.onTb f).dep = s.dep := rfl
@[simp] theorem State.onTb_qm (s : State) (f : Timebase → Timebase) : (s.onTb f).qm = s.qm := rfl
@[simp] theorem State.onTb_dram (s : State) (f : Timebase → Timebase) : (s.onTb f).dram = s.dram := rfl
@[simp] theorem State.onTb_plat (s : State) (f : Timebase → Timebase) : (s.onTb f).plat = s.plat := rfl
@[simp] theorem State.onTb_power (s : State) (f : Timebase → Timebase) : (s.onTb f).power = s.power := rfl
@[simp] theorem State.onTb_cap (s : State) (f : Timebase → Timebase) : (s.onTb f).cap = s.cap := rfl
@[simp] theorem State.onTb_pipes (s : State) (f : Timebase → Timebase) : (s.onTb f).pipes = s.pipes := rfl
@[simp] theorem State.onTb_swarm (s : State) (f : Timebase → Timebase) : (s.onTb f).swarm = s.swarm := rfl
@[simp] theorem State.onTb_codec (s : State) (f : Timebase → Timebase) : (s.onTb f).codec = s.codec := rfl
@[simp] theorem State.onTb_disp (s : State) (f : Timebase → Timebase) : (s.onTb f).disp = s.disp := rfl
@[simp] theorem State.onTb_tdm (s : State) (f : Timebase → Timebase) : (s.onTb f).tdm = s.tdm := rfl
@[simp] theorem State.onTb_net (s : State) (f : Timebase → Timebase) : (s.onTb f).net = s.net := rfl
@[simp] theorem State.onTb_stor (s : State) (f : Timebase → Timebase) : (s.onTb f).stor = s.stor := rfl
@[simp] theorem State.onEvf_pending (s : State) (f : EventFabric → EventFabric) : (s.onEvf f).pending = s.pending := rfl
@[simp] theorem State.onEvf_now (s : State) (f : EventFabric → EventFabric) : (s.onEvf f).now = s.now := rfl
@[simp] theorem State.onEvf_free (s : State) (f : EventFabric → EventFabric) : (s.onEvf f).free = s.free := rfl
@[simp] theorem State.onEvf_resp (s : State) (f : EventFabric → EventFabric) : (s.onEvf f).resp = s.resp := rfl
@[simp] theorem State.onEvf_regs (s : State) (f : EventFabric → EventFabric) : (s.onEvf f).regs = s.regs := rfl
@[simp] theorem State.onEvf_shadow (s : State) (f : EventFabric → EventFabric) : (s.onEvf f).shadow = s.shadow := rfl
@[simp] theorem State.onEvf_frozen (s : State) (f : EventFabric → EventFabric) : (s.onEvf f).frozen = s.frozen := rfl
@[simp] theorem State.onEvf_latch (s : State) (f : EventFabric → EventFabric) : (s.onEvf f).latch = s.latch := rfl
@[simp] theorem State.onEvf_pg (s : State) (f : EventFabric → EventFabric) : (s.onEvf f).pg = s.pg := rfl
@[simp] theorem State.onEvf_mem (s : State) (f : EventFabric → EventFabric) : (s.onEvf f).mem = s.mem := rfl
@[simp] theorem State.onEvf_poison (s : State) (f : EventFabric → EventFabric) : (s.onEvf f).poison = s.poison := rfl
@[simp] theorem State.onEvf_fab (s : State) (f : EventFabric → EventFabric) : (s.onEvf f).fab = s.fab := rfl
@[simp] theorem State.onEvf_tb (s : State) (f : EventFabric → EventFabric) : (s.onEvf f).tb = s.tb := rfl
@[simp] theorem State.onEvf_evf (s : State) (f : EventFabric → EventFabric) : (s.onEvf f).evf = f s.evf := rfl
@[simp] theorem State.onEvf_dep (s : State) (f : EventFabric → EventFabric) : (s.onEvf f).dep = s.dep := rfl
@[simp] theorem State.onEvf_qm (s : State) (f : EventFabric → EventFabric) : (s.onEvf f).qm = s.qm := rfl
@[simp] theorem State.onEvf_dram (s : State) (f : EventFabric → EventFabric) : (s.onEvf f).dram = s.dram := rfl
@[simp] theorem State.onEvf_plat (s : State) (f : EventFabric → EventFabric) : (s.onEvf f).plat = s.plat := rfl
@[simp] theorem State.onEvf_power (s : State) (f : EventFabric → EventFabric) : (s.onEvf f).power = s.power := rfl
@[simp] theorem State.onEvf_cap (s : State) (f : EventFabric → EventFabric) : (s.onEvf f).cap = s.cap := rfl
@[simp] theorem State.onEvf_pipes (s : State) (f : EventFabric → EventFabric) : (s.onEvf f).pipes = s.pipes := rfl
@[simp] theorem State.onEvf_swarm (s : State) (f : EventFabric → EventFabric) : (s.onEvf f).swarm = s.swarm := rfl
@[simp] theorem State.onEvf_codec (s : State) (f : EventFabric → EventFabric) : (s.onEvf f).codec = s.codec := rfl
@[simp] theorem State.onEvf_disp (s : State) (f : EventFabric → EventFabric) : (s.onEvf f).disp = s.disp := rfl
@[simp] theorem State.onEvf_tdm (s : State) (f : EventFabric → EventFabric) : (s.onEvf f).tdm = s.tdm := rfl
@[simp] theorem State.onEvf_net (s : State) (f : EventFabric → EventFabric) : (s.onEvf f).net = s.net := rfl
@[simp] theorem State.onEvf_stor (s : State) (f : EventFabric → EventFabric) : (s.onEvf f).stor = s.stor := rfl
@[simp] theorem State.onDep_pending (s : State) (f : Dependability → Dependability) : (s.onDep f).pending = s.pending := rfl
@[simp] theorem State.onDep_now (s : State) (f : Dependability → Dependability) : (s.onDep f).now = s.now := rfl
@[simp] theorem State.onDep_free (s : State) (f : Dependability → Dependability) : (s.onDep f).free = s.free := rfl
@[simp] theorem State.onDep_resp (s : State) (f : Dependability → Dependability) : (s.onDep f).resp = s.resp := rfl
@[simp] theorem State.onDep_regs (s : State) (f : Dependability → Dependability) : (s.onDep f).regs = s.regs := rfl
@[simp] theorem State.onDep_shadow (s : State) (f : Dependability → Dependability) : (s.onDep f).shadow = s.shadow := rfl
@[simp] theorem State.onDep_frozen (s : State) (f : Dependability → Dependability) : (s.onDep f).frozen = s.frozen := rfl
@[simp] theorem State.onDep_latch (s : State) (f : Dependability → Dependability) : (s.onDep f).latch = s.latch := rfl
@[simp] theorem State.onDep_pg (s : State) (f : Dependability → Dependability) : (s.onDep f).pg = s.pg := rfl
@[simp] theorem State.onDep_mem (s : State) (f : Dependability → Dependability) : (s.onDep f).mem = s.mem := rfl
@[simp] theorem State.onDep_poison (s : State) (f : Dependability → Dependability) : (s.onDep f).poison = s.poison := rfl
@[simp] theorem State.onDep_fab (s : State) (f : Dependability → Dependability) : (s.onDep f).fab = s.fab := rfl
@[simp] theorem State.onDep_tb (s : State) (f : Dependability → Dependability) : (s.onDep f).tb = s.tb := rfl
@[simp] theorem State.onDep_evf (s : State) (f : Dependability → Dependability) : (s.onDep f).evf = s.evf := rfl
@[simp] theorem State.onDep_dep (s : State) (f : Dependability → Dependability) : (s.onDep f).dep = f s.dep := rfl
@[simp] theorem State.onDep_qm (s : State) (f : Dependability → Dependability) : (s.onDep f).qm = s.qm := rfl
@[simp] theorem State.onDep_dram (s : State) (f : Dependability → Dependability) : (s.onDep f).dram = s.dram := rfl
@[simp] theorem State.onDep_plat (s : State) (f : Dependability → Dependability) : (s.onDep f).plat = s.plat := rfl
@[simp] theorem State.onDep_power (s : State) (f : Dependability → Dependability) : (s.onDep f).power = s.power := rfl
@[simp] theorem State.onDep_cap (s : State) (f : Dependability → Dependability) : (s.onDep f).cap = s.cap := rfl
@[simp] theorem State.onDep_pipes (s : State) (f : Dependability → Dependability) : (s.onDep f).pipes = s.pipes := rfl
@[simp] theorem State.onDep_swarm (s : State) (f : Dependability → Dependability) : (s.onDep f).swarm = s.swarm := rfl
@[simp] theorem State.onDep_codec (s : State) (f : Dependability → Dependability) : (s.onDep f).codec = s.codec := rfl
@[simp] theorem State.onDep_disp (s : State) (f : Dependability → Dependability) : (s.onDep f).disp = s.disp := rfl
@[simp] theorem State.onDep_tdm (s : State) (f : Dependability → Dependability) : (s.onDep f).tdm = s.tdm := rfl
@[simp] theorem State.onDep_net (s : State) (f : Dependability → Dependability) : (s.onDep f).net = s.net := rfl
@[simp] theorem State.onDep_stor (s : State) (f : Dependability → Dependability) : (s.onDep f).stor = s.stor := rfl
@[simp] theorem State.onQm_pending (s : State) (f : QueueManager → QueueManager) : (s.onQm f).pending = s.pending := rfl
@[simp] theorem State.onQm_now (s : State) (f : QueueManager → QueueManager) : (s.onQm f).now = s.now := rfl
@[simp] theorem State.onQm_free (s : State) (f : QueueManager → QueueManager) : (s.onQm f).free = s.free := rfl
@[simp] theorem State.onQm_resp (s : State) (f : QueueManager → QueueManager) : (s.onQm f).resp = s.resp := rfl
@[simp] theorem State.onQm_regs (s : State) (f : QueueManager → QueueManager) : (s.onQm f).regs = s.regs := rfl
@[simp] theorem State.onQm_shadow (s : State) (f : QueueManager → QueueManager) : (s.onQm f).shadow = s.shadow := rfl
@[simp] theorem State.onQm_frozen (s : State) (f : QueueManager → QueueManager) : (s.onQm f).frozen = s.frozen := rfl
@[simp] theorem State.onQm_latch (s : State) (f : QueueManager → QueueManager) : (s.onQm f).latch = s.latch := rfl
@[simp] theorem State.onQm_pg (s : State) (f : QueueManager → QueueManager) : (s.onQm f).pg = s.pg := rfl
@[simp] theorem State.onQm_mem (s : State) (f : QueueManager → QueueManager) : (s.onQm f).mem = s.mem := rfl
@[simp] theorem State.onQm_poison (s : State) (f : QueueManager → QueueManager) : (s.onQm f).poison = s.poison := rfl
@[simp] theorem State.onQm_fab (s : State) (f : QueueManager → QueueManager) : (s.onQm f).fab = s.fab := rfl
@[simp] theorem State.onQm_tb (s : State) (f : QueueManager → QueueManager) : (s.onQm f).tb = s.tb := rfl
@[simp] theorem State.onQm_evf (s : State) (f : QueueManager → QueueManager) : (s.onQm f).evf = s.evf := rfl
@[simp] theorem State.onQm_dep (s : State) (f : QueueManager → QueueManager) : (s.onQm f).dep = s.dep := rfl
@[simp] theorem State.onQm_qm (s : State) (f : QueueManager → QueueManager) : (s.onQm f).qm = f s.qm := rfl
@[simp] theorem State.onQm_dram (s : State) (f : QueueManager → QueueManager) : (s.onQm f).dram = s.dram := rfl
@[simp] theorem State.onQm_plat (s : State) (f : QueueManager → QueueManager) : (s.onQm f).plat = s.plat := rfl
@[simp] theorem State.onQm_power (s : State) (f : QueueManager → QueueManager) : (s.onQm f).power = s.power := rfl
@[simp] theorem State.onQm_cap (s : State) (f : QueueManager → QueueManager) : (s.onQm f).cap = s.cap := rfl
@[simp] theorem State.onQm_pipes (s : State) (f : QueueManager → QueueManager) : (s.onQm f).pipes = s.pipes := rfl
@[simp] theorem State.onQm_swarm (s : State) (f : QueueManager → QueueManager) : (s.onQm f).swarm = s.swarm := rfl
@[simp] theorem State.onQm_codec (s : State) (f : QueueManager → QueueManager) : (s.onQm f).codec = s.codec := rfl
@[simp] theorem State.onQm_disp (s : State) (f : QueueManager → QueueManager) : (s.onQm f).disp = s.disp := rfl
@[simp] theorem State.onQm_tdm (s : State) (f : QueueManager → QueueManager) : (s.onQm f).tdm = s.tdm := rfl
@[simp] theorem State.onQm_net (s : State) (f : QueueManager → QueueManager) : (s.onQm f).net = s.net := rfl
@[simp] theorem State.onQm_stor (s : State) (f : QueueManager → QueueManager) : (s.onQm f).stor = s.stor := rfl
@[simp] theorem State.onDram_pending (s : State) (f : DramState → DramState) : (s.onDram f).pending = s.pending := rfl
@[simp] theorem State.onDram_now (s : State) (f : DramState → DramState) : (s.onDram f).now = s.now := rfl
@[simp] theorem State.onDram_free (s : State) (f : DramState → DramState) : (s.onDram f).free = s.free := rfl
@[simp] theorem State.onDram_resp (s : State) (f : DramState → DramState) : (s.onDram f).resp = s.resp := rfl
@[simp] theorem State.onDram_regs (s : State) (f : DramState → DramState) : (s.onDram f).regs = s.regs := rfl
@[simp] theorem State.onDram_shadow (s : State) (f : DramState → DramState) : (s.onDram f).shadow = s.shadow := rfl
@[simp] theorem State.onDram_frozen (s : State) (f : DramState → DramState) : (s.onDram f).frozen = s.frozen := rfl
@[simp] theorem State.onDram_latch (s : State) (f : DramState → DramState) : (s.onDram f).latch = s.latch := rfl
@[simp] theorem State.onDram_pg (s : State) (f : DramState → DramState) : (s.onDram f).pg = s.pg := rfl
@[simp] theorem State.onDram_mem (s : State) (f : DramState → DramState) : (s.onDram f).mem = s.mem := rfl
@[simp] theorem State.onDram_poison (s : State) (f : DramState → DramState) : (s.onDram f).poison = s.poison := rfl
@[simp] theorem State.onDram_fab (s : State) (f : DramState → DramState) : (s.onDram f).fab = s.fab := rfl
@[simp] theorem State.onDram_tb (s : State) (f : DramState → DramState) : (s.onDram f).tb = s.tb := rfl
@[simp] theorem State.onDram_evf (s : State) (f : DramState → DramState) : (s.onDram f).evf = s.evf := rfl
@[simp] theorem State.onDram_dep (s : State) (f : DramState → DramState) : (s.onDram f).dep = s.dep := rfl
@[simp] theorem State.onDram_qm (s : State) (f : DramState → DramState) : (s.onDram f).qm = s.qm := rfl
@[simp] theorem State.onDram_dram (s : State) (f : DramState → DramState) : (s.onDram f).dram = f s.dram := rfl
@[simp] theorem State.onDram_plat (s : State) (f : DramState → DramState) : (s.onDram f).plat = s.plat := rfl
@[simp] theorem State.onDram_power (s : State) (f : DramState → DramState) : (s.onDram f).power = s.power := rfl
@[simp] theorem State.onDram_cap (s : State) (f : DramState → DramState) : (s.onDram f).cap = s.cap := rfl
@[simp] theorem State.onDram_pipes (s : State) (f : DramState → DramState) : (s.onDram f).pipes = s.pipes := rfl
@[simp] theorem State.onDram_swarm (s : State) (f : DramState → DramState) : (s.onDram f).swarm = s.swarm := rfl
@[simp] theorem State.onDram_codec (s : State) (f : DramState → DramState) : (s.onDram f).codec = s.codec := rfl
@[simp] theorem State.onDram_disp (s : State) (f : DramState → DramState) : (s.onDram f).disp = s.disp := rfl
@[simp] theorem State.onDram_tdm (s : State) (f : DramState → DramState) : (s.onDram f).tdm = s.tdm := rfl
@[simp] theorem State.onDram_net (s : State) (f : DramState → DramState) : (s.onDram f).net = s.net := rfl
@[simp] theorem State.onDram_stor (s : State) (f : DramState → DramState) : (s.onDram f).stor = s.stor := rfl
@[simp] theorem State.onPlat_pending (s : State) (f : Platform → Platform) : (s.onPlat f).pending = s.pending := rfl
@[simp] theorem State.onPlat_now (s : State) (f : Platform → Platform) : (s.onPlat f).now = s.now := rfl
@[simp] theorem State.onPlat_free (s : State) (f : Platform → Platform) : (s.onPlat f).free = s.free := rfl
@[simp] theorem State.onPlat_resp (s : State) (f : Platform → Platform) : (s.onPlat f).resp = s.resp := rfl
@[simp] theorem State.onPlat_regs (s : State) (f : Platform → Platform) : (s.onPlat f).regs = s.regs := rfl
@[simp] theorem State.onPlat_shadow (s : State) (f : Platform → Platform) : (s.onPlat f).shadow = s.shadow := rfl
@[simp] theorem State.onPlat_frozen (s : State) (f : Platform → Platform) : (s.onPlat f).frozen = s.frozen := rfl
@[simp] theorem State.onPlat_latch (s : State) (f : Platform → Platform) : (s.onPlat f).latch = s.latch := rfl
@[simp] theorem State.onPlat_pg (s : State) (f : Platform → Platform) : (s.onPlat f).pg = s.pg := rfl
@[simp] theorem State.onPlat_mem (s : State) (f : Platform → Platform) : (s.onPlat f).mem = s.mem := rfl
@[simp] theorem State.onPlat_poison (s : State) (f : Platform → Platform) : (s.onPlat f).poison = s.poison := rfl
@[simp] theorem State.onPlat_fab (s : State) (f : Platform → Platform) : (s.onPlat f).fab = s.fab := rfl
@[simp] theorem State.onPlat_tb (s : State) (f : Platform → Platform) : (s.onPlat f).tb = s.tb := rfl
@[simp] theorem State.onPlat_evf (s : State) (f : Platform → Platform) : (s.onPlat f).evf = s.evf := rfl
@[simp] theorem State.onPlat_dep (s : State) (f : Platform → Platform) : (s.onPlat f).dep = s.dep := rfl
@[simp] theorem State.onPlat_qm (s : State) (f : Platform → Platform) : (s.onPlat f).qm = s.qm := rfl
@[simp] theorem State.onPlat_dram (s : State) (f : Platform → Platform) : (s.onPlat f).dram = s.dram := rfl
@[simp] theorem State.onPlat_plat (s : State) (f : Platform → Platform) : (s.onPlat f).plat = f s.plat := rfl
@[simp] theorem State.onPlat_power (s : State) (f : Platform → Platform) : (s.onPlat f).power = s.power := rfl
@[simp] theorem State.onPlat_cap (s : State) (f : Platform → Platform) : (s.onPlat f).cap = s.cap := rfl
@[simp] theorem State.onPlat_pipes (s : State) (f : Platform → Platform) : (s.onPlat f).pipes = s.pipes := rfl
@[simp] theorem State.onPlat_swarm (s : State) (f : Platform → Platform) : (s.onPlat f).swarm = s.swarm := rfl
@[simp] theorem State.onPlat_codec (s : State) (f : Platform → Platform) : (s.onPlat f).codec = s.codec := rfl
@[simp] theorem State.onPlat_disp (s : State) (f : Platform → Platform) : (s.onPlat f).disp = s.disp := rfl
@[simp] theorem State.onPlat_tdm (s : State) (f : Platform → Platform) : (s.onPlat f).tdm = s.tdm := rfl
@[simp] theorem State.onPlat_net (s : State) (f : Platform → Platform) : (s.onPlat f).net = s.net := rfl
@[simp] theorem State.onPlat_stor (s : State) (f : Platform → Platform) : (s.onPlat f).stor = s.stor := rfl
@[simp] theorem State.onPower_pending (s : State) (f : Power → Power) : (s.onPower f).pending = s.pending := rfl
@[simp] theorem State.onPower_now (s : State) (f : Power → Power) : (s.onPower f).now = s.now := rfl
@[simp] theorem State.onPower_free (s : State) (f : Power → Power) : (s.onPower f).free = s.free := rfl
@[simp] theorem State.onPower_resp (s : State) (f : Power → Power) : (s.onPower f).resp = s.resp := rfl
@[simp] theorem State.onPower_regs (s : State) (f : Power → Power) : (s.onPower f).regs = s.regs := rfl
@[simp] theorem State.onPower_shadow (s : State) (f : Power → Power) : (s.onPower f).shadow = s.shadow := rfl
@[simp] theorem State.onPower_frozen (s : State) (f : Power → Power) : (s.onPower f).frozen = s.frozen := rfl
@[simp] theorem State.onPower_latch (s : State) (f : Power → Power) : (s.onPower f).latch = s.latch := rfl
@[simp] theorem State.onPower_pg (s : State) (f : Power → Power) : (s.onPower f).pg = s.pg := rfl
@[simp] theorem State.onPower_mem (s : State) (f : Power → Power) : (s.onPower f).mem = s.mem := rfl
@[simp] theorem State.onPower_poison (s : State) (f : Power → Power) : (s.onPower f).poison = s.poison := rfl
@[simp] theorem State.onPower_fab (s : State) (f : Power → Power) : (s.onPower f).fab = s.fab := rfl
@[simp] theorem State.onPower_tb (s : State) (f : Power → Power) : (s.onPower f).tb = s.tb := rfl
@[simp] theorem State.onPower_evf (s : State) (f : Power → Power) : (s.onPower f).evf = s.evf := rfl
@[simp] theorem State.onPower_dep (s : State) (f : Power → Power) : (s.onPower f).dep = s.dep := rfl
@[simp] theorem State.onPower_qm (s : State) (f : Power → Power) : (s.onPower f).qm = s.qm := rfl
@[simp] theorem State.onPower_dram (s : State) (f : Power → Power) : (s.onPower f).dram = s.dram := rfl
@[simp] theorem State.onPower_plat (s : State) (f : Power → Power) : (s.onPower f).plat = s.plat := rfl
@[simp] theorem State.onPower_power (s : State) (f : Power → Power) : (s.onPower f).power = f s.power := rfl
@[simp] theorem State.onPower_cap (s : State) (f : Power → Power) : (s.onPower f).cap = s.cap := rfl
@[simp] theorem State.onPower_pipes (s : State) (f : Power → Power) : (s.onPower f).pipes = s.pipes := rfl
@[simp] theorem State.onPower_swarm (s : State) (f : Power → Power) : (s.onPower f).swarm = s.swarm := rfl
@[simp] theorem State.onPower_codec (s : State) (f : Power → Power) : (s.onPower f).codec = s.codec := rfl
@[simp] theorem State.onPower_disp (s : State) (f : Power → Power) : (s.onPower f).disp = s.disp := rfl
@[simp] theorem State.onPower_tdm (s : State) (f : Power → Power) : (s.onPower f).tdm = s.tdm := rfl
@[simp] theorem State.onPower_net (s : State) (f : Power → Power) : (s.onPower f).net = s.net := rfl
@[simp] theorem State.onPower_stor (s : State) (f : Power → Power) : (s.onPower f).stor = s.stor := rfl
@[simp] theorem State.onCap_pending (s : State) (f : Capture → Capture) : (s.onCap f).pending = s.pending := rfl
@[simp] theorem State.onCap_now (s : State) (f : Capture → Capture) : (s.onCap f).now = s.now := rfl
@[simp] theorem State.onCap_free (s : State) (f : Capture → Capture) : (s.onCap f).free = s.free := rfl
@[simp] theorem State.onCap_resp (s : State) (f : Capture → Capture) : (s.onCap f).resp = s.resp := rfl
@[simp] theorem State.onCap_regs (s : State) (f : Capture → Capture) : (s.onCap f).regs = s.regs := rfl
@[simp] theorem State.onCap_shadow (s : State) (f : Capture → Capture) : (s.onCap f).shadow = s.shadow := rfl
@[simp] theorem State.onCap_frozen (s : State) (f : Capture → Capture) : (s.onCap f).frozen = s.frozen := rfl
@[simp] theorem State.onCap_latch (s : State) (f : Capture → Capture) : (s.onCap f).latch = s.latch := rfl
@[simp] theorem State.onCap_pg (s : State) (f : Capture → Capture) : (s.onCap f).pg = s.pg := rfl
@[simp] theorem State.onCap_mem (s : State) (f : Capture → Capture) : (s.onCap f).mem = s.mem := rfl
@[simp] theorem State.onCap_poison (s : State) (f : Capture → Capture) : (s.onCap f).poison = s.poison := rfl
@[simp] theorem State.onCap_fab (s : State) (f : Capture → Capture) : (s.onCap f).fab = s.fab := rfl
@[simp] theorem State.onCap_tb (s : State) (f : Capture → Capture) : (s.onCap f).tb = s.tb := rfl
@[simp] theorem State.onCap_evf (s : State) (f : Capture → Capture) : (s.onCap f).evf = s.evf := rfl
@[simp] theorem State.onCap_dep (s : State) (f : Capture → Capture) : (s.onCap f).dep = s.dep := rfl
@[simp] theorem State.onCap_qm (s : State) (f : Capture → Capture) : (s.onCap f).qm = s.qm := rfl
@[simp] theorem State.onCap_dram (s : State) (f : Capture → Capture) : (s.onCap f).dram = s.dram := rfl
@[simp] theorem State.onCap_plat (s : State) (f : Capture → Capture) : (s.onCap f).plat = s.plat := rfl
@[simp] theorem State.onCap_power (s : State) (f : Capture → Capture) : (s.onCap f).power = s.power := rfl
@[simp] theorem State.onCap_cap (s : State) (f : Capture → Capture) : (s.onCap f).cap = f s.cap := rfl
@[simp] theorem State.onCap_pipes (s : State) (f : Capture → Capture) : (s.onCap f).pipes = s.pipes := rfl
@[simp] theorem State.onCap_swarm (s : State) (f : Capture → Capture) : (s.onCap f).swarm = s.swarm := rfl
@[simp] theorem State.onCap_codec (s : State) (f : Capture → Capture) : (s.onCap f).codec = s.codec := rfl
@[simp] theorem State.onCap_disp (s : State) (f : Capture → Capture) : (s.onCap f).disp = s.disp := rfl
@[simp] theorem State.onCap_tdm (s : State) (f : Capture → Capture) : (s.onCap f).tdm = s.tdm := rfl
@[simp] theorem State.onCap_net (s : State) (f : Capture → Capture) : (s.onCap f).net = s.net := rfl
@[simp] theorem State.onCap_stor (s : State) (f : Capture → Capture) : (s.onCap f).stor = s.stor := rfl
@[simp] theorem State.onPipes_pending (s : State) (f : RawPipes → RawPipes) : (s.onPipes f).pending = s.pending := rfl
@[simp] theorem State.onPipes_now (s : State) (f : RawPipes → RawPipes) : (s.onPipes f).now = s.now := rfl
@[simp] theorem State.onPipes_free (s : State) (f : RawPipes → RawPipes) : (s.onPipes f).free = s.free := rfl
@[simp] theorem State.onPipes_resp (s : State) (f : RawPipes → RawPipes) : (s.onPipes f).resp = s.resp := rfl
@[simp] theorem State.onPipes_regs (s : State) (f : RawPipes → RawPipes) : (s.onPipes f).regs = s.regs := rfl
@[simp] theorem State.onPipes_shadow (s : State) (f : RawPipes → RawPipes) : (s.onPipes f).shadow = s.shadow := rfl
@[simp] theorem State.onPipes_frozen (s : State) (f : RawPipes → RawPipes) : (s.onPipes f).frozen = s.frozen := rfl
@[simp] theorem State.onPipes_latch (s : State) (f : RawPipes → RawPipes) : (s.onPipes f).latch = s.latch := rfl
@[simp] theorem State.onPipes_pg (s : State) (f : RawPipes → RawPipes) : (s.onPipes f).pg = s.pg := rfl
@[simp] theorem State.onPipes_mem (s : State) (f : RawPipes → RawPipes) : (s.onPipes f).mem = s.mem := rfl
@[simp] theorem State.onPipes_poison (s : State) (f : RawPipes → RawPipes) : (s.onPipes f).poison = s.poison := rfl
@[simp] theorem State.onPipes_fab (s : State) (f : RawPipes → RawPipes) : (s.onPipes f).fab = s.fab := rfl
@[simp] theorem State.onPipes_tb (s : State) (f : RawPipes → RawPipes) : (s.onPipes f).tb = s.tb := rfl
@[simp] theorem State.onPipes_evf (s : State) (f : RawPipes → RawPipes) : (s.onPipes f).evf = s.evf := rfl
@[simp] theorem State.onPipes_dep (s : State) (f : RawPipes → RawPipes) : (s.onPipes f).dep = s.dep := rfl
@[simp] theorem State.onPipes_qm (s : State) (f : RawPipes → RawPipes) : (s.onPipes f).qm = s.qm := rfl
@[simp] theorem State.onPipes_dram (s : State) (f : RawPipes → RawPipes) : (s.onPipes f).dram = s.dram := rfl
@[simp] theorem State.onPipes_plat (s : State) (f : RawPipes → RawPipes) : (s.onPipes f).plat = s.plat := rfl
@[simp] theorem State.onPipes_power (s : State) (f : RawPipes → RawPipes) : (s.onPipes f).power = s.power := rfl
@[simp] theorem State.onPipes_cap (s : State) (f : RawPipes → RawPipes) : (s.onPipes f).cap = s.cap := rfl
@[simp] theorem State.onPipes_pipes (s : State) (f : RawPipes → RawPipes) : (s.onPipes f).pipes = f s.pipes := rfl
@[simp] theorem State.onPipes_swarm (s : State) (f : RawPipes → RawPipes) : (s.onPipes f).swarm = s.swarm := rfl
@[simp] theorem State.onPipes_codec (s : State) (f : RawPipes → RawPipes) : (s.onPipes f).codec = s.codec := rfl
@[simp] theorem State.onPipes_disp (s : State) (f : RawPipes → RawPipes) : (s.onPipes f).disp = s.disp := rfl
@[simp] theorem State.onPipes_tdm (s : State) (f : RawPipes → RawPipes) : (s.onPipes f).tdm = s.tdm := rfl
@[simp] theorem State.onPipes_net (s : State) (f : RawPipes → RawPipes) : (s.onPipes f).net = s.net := rfl
@[simp] theorem State.onPipes_stor (s : State) (f : RawPipes → RawPipes) : (s.onPipes f).stor = s.stor := rfl
@[simp] theorem State.onSwarm_pending (s : State) (f : Swarm → Swarm) : (s.onSwarm f).pending = s.pending := rfl
@[simp] theorem State.onSwarm_now (s : State) (f : Swarm → Swarm) : (s.onSwarm f).now = s.now := rfl
@[simp] theorem State.onSwarm_free (s : State) (f : Swarm → Swarm) : (s.onSwarm f).free = s.free := rfl
@[simp] theorem State.onSwarm_resp (s : State) (f : Swarm → Swarm) : (s.onSwarm f).resp = s.resp := rfl
@[simp] theorem State.onSwarm_regs (s : State) (f : Swarm → Swarm) : (s.onSwarm f).regs = s.regs := rfl
@[simp] theorem State.onSwarm_shadow (s : State) (f : Swarm → Swarm) : (s.onSwarm f).shadow = s.shadow := rfl
@[simp] theorem State.onSwarm_frozen (s : State) (f : Swarm → Swarm) : (s.onSwarm f).frozen = s.frozen := rfl
@[simp] theorem State.onSwarm_latch (s : State) (f : Swarm → Swarm) : (s.onSwarm f).latch = s.latch := rfl
@[simp] theorem State.onSwarm_pg (s : State) (f : Swarm → Swarm) : (s.onSwarm f).pg = s.pg := rfl
@[simp] theorem State.onSwarm_mem (s : State) (f : Swarm → Swarm) : (s.onSwarm f).mem = s.mem := rfl
@[simp] theorem State.onSwarm_poison (s : State) (f : Swarm → Swarm) : (s.onSwarm f).poison = s.poison := rfl
@[simp] theorem State.onSwarm_fab (s : State) (f : Swarm → Swarm) : (s.onSwarm f).fab = s.fab := rfl
@[simp] theorem State.onSwarm_tb (s : State) (f : Swarm → Swarm) : (s.onSwarm f).tb = s.tb := rfl
@[simp] theorem State.onSwarm_evf (s : State) (f : Swarm → Swarm) : (s.onSwarm f).evf = s.evf := rfl
@[simp] theorem State.onSwarm_dep (s : State) (f : Swarm → Swarm) : (s.onSwarm f).dep = s.dep := rfl
@[simp] theorem State.onSwarm_qm (s : State) (f : Swarm → Swarm) : (s.onSwarm f).qm = s.qm := rfl
@[simp] theorem State.onSwarm_dram (s : State) (f : Swarm → Swarm) : (s.onSwarm f).dram = s.dram := rfl
@[simp] theorem State.onSwarm_plat (s : State) (f : Swarm → Swarm) : (s.onSwarm f).plat = s.plat := rfl
@[simp] theorem State.onSwarm_power (s : State) (f : Swarm → Swarm) : (s.onSwarm f).power = s.power := rfl
@[simp] theorem State.onSwarm_cap (s : State) (f : Swarm → Swarm) : (s.onSwarm f).cap = s.cap := rfl
@[simp] theorem State.onSwarm_pipes (s : State) (f : Swarm → Swarm) : (s.onSwarm f).pipes = s.pipes := rfl
@[simp] theorem State.onSwarm_swarm (s : State) (f : Swarm → Swarm) : (s.onSwarm f).swarm = f s.swarm := rfl
@[simp] theorem State.onSwarm_codec (s : State) (f : Swarm → Swarm) : (s.onSwarm f).codec = s.codec := rfl
@[simp] theorem State.onSwarm_disp (s : State) (f : Swarm → Swarm) : (s.onSwarm f).disp = s.disp := rfl
@[simp] theorem State.onSwarm_tdm (s : State) (f : Swarm → Swarm) : (s.onSwarm f).tdm = s.tdm := rfl
@[simp] theorem State.onSwarm_net (s : State) (f : Swarm → Swarm) : (s.onSwarm f).net = s.net := rfl
@[simp] theorem State.onSwarm_stor (s : State) (f : Swarm → Swarm) : (s.onSwarm f).stor = s.stor := rfl
@[simp] theorem State.onCodec_pending (s : State) (f : Codec → Codec) : (s.onCodec f).pending = s.pending := rfl
@[simp] theorem State.onCodec_now (s : State) (f : Codec → Codec) : (s.onCodec f).now = s.now := rfl
@[simp] theorem State.onCodec_free (s : State) (f : Codec → Codec) : (s.onCodec f).free = s.free := rfl
@[simp] theorem State.onCodec_resp (s : State) (f : Codec → Codec) : (s.onCodec f).resp = s.resp := rfl
@[simp] theorem State.onCodec_regs (s : State) (f : Codec → Codec) : (s.onCodec f).regs = s.regs := rfl
@[simp] theorem State.onCodec_shadow (s : State) (f : Codec → Codec) : (s.onCodec f).shadow = s.shadow := rfl
@[simp] theorem State.onCodec_frozen (s : State) (f : Codec → Codec) : (s.onCodec f).frozen = s.frozen := rfl
@[simp] theorem State.onCodec_latch (s : State) (f : Codec → Codec) : (s.onCodec f).latch = s.latch := rfl
@[simp] theorem State.onCodec_pg (s : State) (f : Codec → Codec) : (s.onCodec f).pg = s.pg := rfl
@[simp] theorem State.onCodec_mem (s : State) (f : Codec → Codec) : (s.onCodec f).mem = s.mem := rfl
@[simp] theorem State.onCodec_poison (s : State) (f : Codec → Codec) : (s.onCodec f).poison = s.poison := rfl
@[simp] theorem State.onCodec_fab (s : State) (f : Codec → Codec) : (s.onCodec f).fab = s.fab := rfl
@[simp] theorem State.onCodec_tb (s : State) (f : Codec → Codec) : (s.onCodec f).tb = s.tb := rfl
@[simp] theorem State.onCodec_evf (s : State) (f : Codec → Codec) : (s.onCodec f).evf = s.evf := rfl
@[simp] theorem State.onCodec_dep (s : State) (f : Codec → Codec) : (s.onCodec f).dep = s.dep := rfl
@[simp] theorem State.onCodec_qm (s : State) (f : Codec → Codec) : (s.onCodec f).qm = s.qm := rfl
@[simp] theorem State.onCodec_dram (s : State) (f : Codec → Codec) : (s.onCodec f).dram = s.dram := rfl
@[simp] theorem State.onCodec_plat (s : State) (f : Codec → Codec) : (s.onCodec f).plat = s.plat := rfl
@[simp] theorem State.onCodec_power (s : State) (f : Codec → Codec) : (s.onCodec f).power = s.power := rfl
@[simp] theorem State.onCodec_cap (s : State) (f : Codec → Codec) : (s.onCodec f).cap = s.cap := rfl
@[simp] theorem State.onCodec_pipes (s : State) (f : Codec → Codec) : (s.onCodec f).pipes = s.pipes := rfl
@[simp] theorem State.onCodec_swarm (s : State) (f : Codec → Codec) : (s.onCodec f).swarm = s.swarm := rfl
@[simp] theorem State.onCodec_codec (s : State) (f : Codec → Codec) : (s.onCodec f).codec = f s.codec := rfl
@[simp] theorem State.onCodec_disp (s : State) (f : Codec → Codec) : (s.onCodec f).disp = s.disp := rfl
@[simp] theorem State.onCodec_tdm (s : State) (f : Codec → Codec) : (s.onCodec f).tdm = s.tdm := rfl
@[simp] theorem State.onCodec_net (s : State) (f : Codec → Codec) : (s.onCodec f).net = s.net := rfl
@[simp] theorem State.onCodec_stor (s : State) (f : Codec → Codec) : (s.onCodec f).stor = s.stor := rfl
@[simp] theorem State.onDisp_pending (s : State) (f : Map Head → Map Head) : (s.onDisp f).pending = s.pending := rfl
@[simp] theorem State.onDisp_now (s : State) (f : Map Head → Map Head) : (s.onDisp f).now = s.now := rfl
@[simp] theorem State.onDisp_free (s : State) (f : Map Head → Map Head) : (s.onDisp f).free = s.free := rfl
@[simp] theorem State.onDisp_resp (s : State) (f : Map Head → Map Head) : (s.onDisp f).resp = s.resp := rfl
@[simp] theorem State.onDisp_regs (s : State) (f : Map Head → Map Head) : (s.onDisp f).regs = s.regs := rfl
@[simp] theorem State.onDisp_shadow (s : State) (f : Map Head → Map Head) : (s.onDisp f).shadow = s.shadow := rfl
@[simp] theorem State.onDisp_frozen (s : State) (f : Map Head → Map Head) : (s.onDisp f).frozen = s.frozen := rfl
@[simp] theorem State.onDisp_latch (s : State) (f : Map Head → Map Head) : (s.onDisp f).latch = s.latch := rfl
@[simp] theorem State.onDisp_pg (s : State) (f : Map Head → Map Head) : (s.onDisp f).pg = s.pg := rfl
@[simp] theorem State.onDisp_mem (s : State) (f : Map Head → Map Head) : (s.onDisp f).mem = s.mem := rfl
@[simp] theorem State.onDisp_poison (s : State) (f : Map Head → Map Head) : (s.onDisp f).poison = s.poison := rfl
@[simp] theorem State.onDisp_fab (s : State) (f : Map Head → Map Head) : (s.onDisp f).fab = s.fab := rfl
@[simp] theorem State.onDisp_tb (s : State) (f : Map Head → Map Head) : (s.onDisp f).tb = s.tb := rfl
@[simp] theorem State.onDisp_evf (s : State) (f : Map Head → Map Head) : (s.onDisp f).evf = s.evf := rfl
@[simp] theorem State.onDisp_dep (s : State) (f : Map Head → Map Head) : (s.onDisp f).dep = s.dep := rfl
@[simp] theorem State.onDisp_qm (s : State) (f : Map Head → Map Head) : (s.onDisp f).qm = s.qm := rfl
@[simp] theorem State.onDisp_dram (s : State) (f : Map Head → Map Head) : (s.onDisp f).dram = s.dram := rfl
@[simp] theorem State.onDisp_plat (s : State) (f : Map Head → Map Head) : (s.onDisp f).plat = s.plat := rfl
@[simp] theorem State.onDisp_power (s : State) (f : Map Head → Map Head) : (s.onDisp f).power = s.power := rfl
@[simp] theorem State.onDisp_cap (s : State) (f : Map Head → Map Head) : (s.onDisp f).cap = s.cap := rfl
@[simp] theorem State.onDisp_pipes (s : State) (f : Map Head → Map Head) : (s.onDisp f).pipes = s.pipes := rfl
@[simp] theorem State.onDisp_swarm (s : State) (f : Map Head → Map Head) : (s.onDisp f).swarm = s.swarm := rfl
@[simp] theorem State.onDisp_codec (s : State) (f : Map Head → Map Head) : (s.onDisp f).codec = s.codec := rfl
@[simp] theorem State.onDisp_disp (s : State) (f : Map Head → Map Head) : (s.onDisp f).disp = f s.disp := rfl
@[simp] theorem State.onDisp_tdm (s : State) (f : Map Head → Map Head) : (s.onDisp f).tdm = s.tdm := rfl
@[simp] theorem State.onDisp_net (s : State) (f : Map Head → Map Head) : (s.onDisp f).net = s.net := rfl
@[simp] theorem State.onDisp_stor (s : State) (f : Map Head → Map Head) : (s.onDisp f).stor = s.stor := rfl
@[simp] theorem State.onTdm_pending (s : State) (f : Tdm → Tdm) : (s.onTdm f).pending = s.pending := rfl
@[simp] theorem State.onTdm_now (s : State) (f : Tdm → Tdm) : (s.onTdm f).now = s.now := rfl
@[simp] theorem State.onTdm_free (s : State) (f : Tdm → Tdm) : (s.onTdm f).free = s.free := rfl
@[simp] theorem State.onTdm_resp (s : State) (f : Tdm → Tdm) : (s.onTdm f).resp = s.resp := rfl
@[simp] theorem State.onTdm_regs (s : State) (f : Tdm → Tdm) : (s.onTdm f).regs = s.regs := rfl
@[simp] theorem State.onTdm_shadow (s : State) (f : Tdm → Tdm) : (s.onTdm f).shadow = s.shadow := rfl
@[simp] theorem State.onTdm_frozen (s : State) (f : Tdm → Tdm) : (s.onTdm f).frozen = s.frozen := rfl
@[simp] theorem State.onTdm_latch (s : State) (f : Tdm → Tdm) : (s.onTdm f).latch = s.latch := rfl
@[simp] theorem State.onTdm_pg (s : State) (f : Tdm → Tdm) : (s.onTdm f).pg = s.pg := rfl
@[simp] theorem State.onTdm_mem (s : State) (f : Tdm → Tdm) : (s.onTdm f).mem = s.mem := rfl
@[simp] theorem State.onTdm_poison (s : State) (f : Tdm → Tdm) : (s.onTdm f).poison = s.poison := rfl
@[simp] theorem State.onTdm_fab (s : State) (f : Tdm → Tdm) : (s.onTdm f).fab = s.fab := rfl
@[simp] theorem State.onTdm_tb (s : State) (f : Tdm → Tdm) : (s.onTdm f).tb = s.tb := rfl
@[simp] theorem State.onTdm_evf (s : State) (f : Tdm → Tdm) : (s.onTdm f).evf = s.evf := rfl
@[simp] theorem State.onTdm_dep (s : State) (f : Tdm → Tdm) : (s.onTdm f).dep = s.dep := rfl
@[simp] theorem State.onTdm_qm (s : State) (f : Tdm → Tdm) : (s.onTdm f).qm = s.qm := rfl
@[simp] theorem State.onTdm_dram (s : State) (f : Tdm → Tdm) : (s.onTdm f).dram = s.dram := rfl
@[simp] theorem State.onTdm_plat (s : State) (f : Tdm → Tdm) : (s.onTdm f).plat = s.plat := rfl
@[simp] theorem State.onTdm_power (s : State) (f : Tdm → Tdm) : (s.onTdm f).power = s.power := rfl
@[simp] theorem State.onTdm_cap (s : State) (f : Tdm → Tdm) : (s.onTdm f).cap = s.cap := rfl
@[simp] theorem State.onTdm_pipes (s : State) (f : Tdm → Tdm) : (s.onTdm f).pipes = s.pipes := rfl
@[simp] theorem State.onTdm_swarm (s : State) (f : Tdm → Tdm) : (s.onTdm f).swarm = s.swarm := rfl
@[simp] theorem State.onTdm_codec (s : State) (f : Tdm → Tdm) : (s.onTdm f).codec = s.codec := rfl
@[simp] theorem State.onTdm_disp (s : State) (f : Tdm → Tdm) : (s.onTdm f).disp = s.disp := rfl
@[simp] theorem State.onTdm_tdm (s : State) (f : Tdm → Tdm) : (s.onTdm f).tdm = f s.tdm := rfl
@[simp] theorem State.onTdm_net (s : State) (f : Tdm → Tdm) : (s.onTdm f).net = s.net := rfl
@[simp] theorem State.onTdm_stor (s : State) (f : Tdm → Tdm) : (s.onTdm f).stor = s.stor := rfl
@[simp] theorem State.onNet_pending (s : State) (f : Net → Net) : (s.onNet f).pending = s.pending := rfl
@[simp] theorem State.onNet_now (s : State) (f : Net → Net) : (s.onNet f).now = s.now := rfl
@[simp] theorem State.onNet_free (s : State) (f : Net → Net) : (s.onNet f).free = s.free := rfl
@[simp] theorem State.onNet_resp (s : State) (f : Net → Net) : (s.onNet f).resp = s.resp := rfl
@[simp] theorem State.onNet_regs (s : State) (f : Net → Net) : (s.onNet f).regs = s.regs := rfl
@[simp] theorem State.onNet_shadow (s : State) (f : Net → Net) : (s.onNet f).shadow = s.shadow := rfl
@[simp] theorem State.onNet_frozen (s : State) (f : Net → Net) : (s.onNet f).frozen = s.frozen := rfl
@[simp] theorem State.onNet_latch (s : State) (f : Net → Net) : (s.onNet f).latch = s.latch := rfl
@[simp] theorem State.onNet_pg (s : State) (f : Net → Net) : (s.onNet f).pg = s.pg := rfl
@[simp] theorem State.onNet_mem (s : State) (f : Net → Net) : (s.onNet f).mem = s.mem := rfl
@[simp] theorem State.onNet_poison (s : State) (f : Net → Net) : (s.onNet f).poison = s.poison := rfl
@[simp] theorem State.onNet_fab (s : State) (f : Net → Net) : (s.onNet f).fab = s.fab := rfl
@[simp] theorem State.onNet_tb (s : State) (f : Net → Net) : (s.onNet f).tb = s.tb := rfl
@[simp] theorem State.onNet_evf (s : State) (f : Net → Net) : (s.onNet f).evf = s.evf := rfl
@[simp] theorem State.onNet_dep (s : State) (f : Net → Net) : (s.onNet f).dep = s.dep := rfl
@[simp] theorem State.onNet_qm (s : State) (f : Net → Net) : (s.onNet f).qm = s.qm := rfl
@[simp] theorem State.onNet_dram (s : State) (f : Net → Net) : (s.onNet f).dram = s.dram := rfl
@[simp] theorem State.onNet_plat (s : State) (f : Net → Net) : (s.onNet f).plat = s.plat := rfl
@[simp] theorem State.onNet_power (s : State) (f : Net → Net) : (s.onNet f).power = s.power := rfl
@[simp] theorem State.onNet_cap (s : State) (f : Net → Net) : (s.onNet f).cap = s.cap := rfl
@[simp] theorem State.onNet_pipes (s : State) (f : Net → Net) : (s.onNet f).pipes = s.pipes := rfl
@[simp] theorem State.onNet_swarm (s : State) (f : Net → Net) : (s.onNet f).swarm = s.swarm := rfl
@[simp] theorem State.onNet_codec (s : State) (f : Net → Net) : (s.onNet f).codec = s.codec := rfl
@[simp] theorem State.onNet_disp (s : State) (f : Net → Net) : (s.onNet f).disp = s.disp := rfl
@[simp] theorem State.onNet_tdm (s : State) (f : Net → Net) : (s.onNet f).tdm = s.tdm := rfl
@[simp] theorem State.onNet_net (s : State) (f : Net → Net) : (s.onNet f).net = f s.net := rfl
@[simp] theorem State.onNet_stor (s : State) (f : Net → Net) : (s.onNet f).stor = s.stor := rfl
@[simp] theorem State.onStor_pending (s : State) (f : Storage → Storage) : (s.onStor f).pending = s.pending := rfl
@[simp] theorem State.onStor_now (s : State) (f : Storage → Storage) : (s.onStor f).now = s.now := rfl
@[simp] theorem State.onStor_free (s : State) (f : Storage → Storage) : (s.onStor f).free = s.free := rfl
@[simp] theorem State.onStor_resp (s : State) (f : Storage → Storage) : (s.onStor f).resp = s.resp := rfl
@[simp] theorem State.onStor_regs (s : State) (f : Storage → Storage) : (s.onStor f).regs = s.regs := rfl
@[simp] theorem State.onStor_shadow (s : State) (f : Storage → Storage) : (s.onStor f).shadow = s.shadow := rfl
@[simp] theorem State.onStor_frozen (s : State) (f : Storage → Storage) : (s.onStor f).frozen = s.frozen := rfl
@[simp] theorem State.onStor_latch (s : State) (f : Storage → Storage) : (s.onStor f).latch = s.latch := rfl
@[simp] theorem State.onStor_pg (s : State) (f : Storage → Storage) : (s.onStor f).pg = s.pg := rfl
@[simp] theorem State.onStor_mem (s : State) (f : Storage → Storage) : (s.onStor f).mem = s.mem := rfl
@[simp] theorem State.onStor_poison (s : State) (f : Storage → Storage) : (s.onStor f).poison = s.poison := rfl
@[simp] theorem State.onStor_fab (s : State) (f : Storage → Storage) : (s.onStor f).fab = s.fab := rfl
@[simp] theorem State.onStor_tb (s : State) (f : Storage → Storage) : (s.onStor f).tb = s.tb := rfl
@[simp] theorem State.onStor_evf (s : State) (f : Storage → Storage) : (s.onStor f).evf = s.evf := rfl
@[simp] theorem State.onStor_dep (s : State) (f : Storage → Storage) : (s.onStor f).dep = s.dep := rfl
@[simp] theorem State.onStor_qm (s : State) (f : Storage → Storage) : (s.onStor f).qm = s.qm := rfl
@[simp] theorem State.onStor_dram (s : State) (f : Storage → Storage) : (s.onStor f).dram = s.dram := rfl
@[simp] theorem State.onStor_plat (s : State) (f : Storage → Storage) : (s.onStor f).plat = s.plat := rfl
@[simp] theorem State.onStor_power (s : State) (f : Storage → Storage) : (s.onStor f).power = s.power := rfl
@[simp] theorem State.onStor_cap (s : State) (f : Storage → Storage) : (s.onStor f).cap = s.cap := rfl
@[simp] theorem State.onStor_pipes (s : State) (f : Storage → Storage) : (s.onStor f).pipes = s.pipes := rfl
@[simp] theorem State.onStor_swarm (s : State) (f : Storage → Storage) : (s.onStor f).swarm = s.swarm := rfl
@[simp] theorem State.onStor_codec (s : State) (f : Storage → Storage) : (s.onStor f).codec = s.codec := rfl
@[simp] theorem State.onStor_disp (s : State) (f : Storage → Storage) : (s.onStor f).disp = s.disp := rfl
@[simp] theorem State.onStor_tdm (s : State) (f : Storage → Storage) : (s.onStor f).tdm = s.tdm := rfl
@[simp] theorem State.onStor_net (s : State) (f : Storage → Storage) : (s.onStor f).net = s.net := rfl
@[simp] theorem State.onStor_stor (s : State) (f : Storage → Storage) : (s.onStor f).stor = f s.stor := rfl

end Sys2Proof.Machine
end

