-- ==== Sys2Proof/Laws/Regs.lean ====
section
/-!
SUPPORT. Registers: what a read gives after each operation that writes registers, and the operations that write none.
-/

-- One proof at a time bounds the threads and memory of a compile.
set_option Elab.async false

namespace Sys2Proof.Machine

open Sys2Proof

/-! ## Keys -/

theorem rg_inj {p o q k : Nat} (ho : o < 4096) (hk : k < 4096) : rg p o = rg q k ↔ p = q ∧ o = k := by
  unfold rg; omega

@[simp] theorem rg_same_page (p o k : Nat) : rg p o = rg p k ↔ o = k := by unfold rg; omega

/-! ## One register -/

theorem State.reg_setReg (s : State) (p o : Nat) (v : Word) (q k : Nat) :
    (s.setReg p o v).reg q k = if rg q k = rg p o then v else s.reg q k := Map.get_put _ _ _ _ _

@[simp] theorem State.reg_setReg_same (s : State) (p o : Nat) (v : Word) : (s.setReg p o v).reg p o = v := by
  simp [State.reg_setReg]

theorem State.reg_setReg_page {s : State} {p o : Nat} {v : Word} {k : Nat} (h : k ≠ o) : (s.setReg p o v).reg p k = s.reg p k := by
  simp [State.reg_setReg, h]

theorem State.reg_setReg_ne {s : State} {p o q k : Nat} {v : Word} (h : rg q k ≠ rg p o) : (s.setReg p o v).reg q k = s.reg q k := by
  simp [State.reg_setReg, h]

theorem State.reg_congr {s t : State} (h : t.regs = s.regs) (p o : Nat) : t.reg p o = s.reg p o := by
  unfold State.reg; rw [h]

@[simp] theorem State.fld_setFld (s : State) (p o lo n v : Nat) (h : lo + n ≤ 32 := by omega) :
    (s.setFld p o lo n v).fld p o lo n = v % 2 ^ n := by
  unfold State.fld State.setFld; rw [State.reg_setReg_same, wfld_wset _ _ _ _ h]

@[simp] theorem State.bit_putBit (s : State) (p o i : Nat) (b : Bool) (h : i < 32 := by omega) :
    (s.putBit p o i b).bit p o i = b := by
  unfold State.bit State.putBit; rw [State.reg_setReg_same, bitAt_setBit _ _ _ h]

theorem State.reg_setFld_ne {s : State} {p o lo n v q k : Nat} (h : rg q k ≠ rg p o) : (s.setFld p o lo n v).reg q k = s.reg q k :=
  State.reg_setReg_ne h

theorem State.reg_putBit_ne {s : State} {p o i q k : Nat} {b : Bool} (h : rg q k ≠ rg p o) : (s.putBit p o i b).reg q k = s.reg q k :=
  State.reg_setReg_ne h

theorem State.reg_count_ne {s : State} {p o lo n c q k : Nat} (h : rg q k ≠ rg p o) : (s.count p o lo n c).reg q k = s.reg q k :=
  State.reg_setReg_ne h

theorem State.reg_countWrap_ne {s : State} {p o lo n c q k : Nat} (h : rg q k ≠ rg p o) : (s.countWrap p o lo n c).reg q k = s.reg q k :=
  State.reg_setReg_ne h

theorem State.fld_count (s : State) (p o lo n c : Nat) (h : lo + n ≤ 32) :
    (s.count p o lo n c).fld p o lo n = min (2 ^ n - 1) (s.fld p o lo n + c) := by
  unfold State.fld State.count; rw [State.reg_setReg_same, satAdd_fld _ _ _ _ h]

/-! ## Updates of other fields read no register -/

@[simp] theorem State.reg_onMem (s : State) (f) (p o : Nat) : (s.onMem f).reg p o = s.reg p o := rfl
@[simp] theorem State.reg_onPoison (s : State) (f) (p o : Nat) : (s.onPoison f).reg p o = s.reg p o := rfl
@[simp] theorem State.reg_onShadow (s : State) (f) (p o : Nat) : (s.onShadow f).reg p o = s.reg p o := rfl
@[simp] theorem State.reg_onFrozen (s : State) (f) (p o : Nat) : (s.onFrozen f).reg p o = s.reg p o := rfl
@[simp] theorem State.reg_onLatch (s : State) (f) (p o : Nat) : (s.onLatch f).reg p o = s.reg p o := rfl
@[simp] theorem State.reg_onPg (s : State) (f) (p o : Nat) : (s.onPg f).reg p o = s.reg p o := rfl
@[simp] theorem State.reg_onFab (s : State) (f) (p o : Nat) : (s.onFab f).reg p o = s.reg p o := rfl
@[simp] theorem State.reg_onTb (s : State) (f) (p o : Nat) : (s.onTb f).reg p o = s.reg p o := rfl
@[simp] theorem State.reg_onEvf (s : State) (f) (p o : Nat) : (s.onEvf f).reg p o = s.reg p o := rfl
@[simp] theorem State.reg_onDep (s : State) (f) (p o : Nat) : (s.onDep f).reg p o = s.reg p o := rfl
@[simp] theorem State.reg_onQm (s : State) (f) (p o : Nat) : (s.onQm f).reg p o = s.reg p o := rfl
@[simp] theorem State.reg_onDram (s : State) (f) (p o : Nat) : (s.onDram f).reg p o = s.reg p o := rfl
@[simp] theorem State.reg_onPlat (s : State) (f) (p o : Nat) : (s.onPlat f).reg p o = s.reg p o := rfl
@[simp] theorem State.reg_onPower (s : State) (f) (p o : Nat) : (s.onPower f).reg p o = s.reg p o := rfl
@[simp] theorem State.reg_onCap (s : State) (f) (p o : Nat) : (s.onCap f).reg p o = s.reg p o := rfl
@[simp] theorem State.reg_onPipes (s : State) (f) (p o : Nat) : (s.onPipes f).reg p o = s.reg p o := rfl
@[simp] theorem State.reg_onSwarm (s : State) (f) (p o : Nat) : (s.onSwarm f).reg p o = s.reg p o := rfl
@[simp] theorem State.reg_onCodec (s : State) (f) (p o : Nat) : (s.onCodec f).reg p o = s.reg p o := rfl
@[simp] theorem State.reg_onDisp (s : State) (f) (p o : Nat) : (s.onDisp f).reg p o = s.reg p o := rfl
@[simp] theorem State.reg_onTdm (s : State) (f) (p o : Nat) : (s.onTdm f).reg p o = s.reg p o := rfl
@[simp] theorem State.reg_onNet (s : State) (f) (p o : Nat) : (s.onNet f).reg p o = s.reg p o := rfl
@[simp] theorem State.reg_onStor (s : State) (f) (p o : Nat) : (s.onStor f).reg p o = s.reg p o := rfl
@[simp] theorem State.reg_onResp (s : State) (f) (p o : Nat) : (s.onResp f).reg p o = s.reg p o := rfl
@[simp] theorem State.reg_onNow (s : State) (f) (p o : Nat) : (s.onNow f).reg p o = s.reg p o := rfl
@[simp] theorem State.reg_onFree (s : State) (f) (p o : Nat) : (s.onFree f).reg p o = s.reg p o := rfl
@[simp] theorem State.reg_modPage (s : State) (q : Nat) (f) (p o : Nat) : (s.modPage q f).reg p o = s.reg p o := rfl
@[simp] theorem State.reg_modChan (s : State) (c : Nat) (f) (p o : Nat) : (s.modChan c f).reg p o = s.reg p o := rfl
@[simp] theorem State.reg_assertCh (s : State) (c p o : Nat) : (s.assertCh c).reg p o = s.reg p o := rfl
@[simp] theorem State.reg_noteHw (s : State) (a b c d p o : Nat) : (s.noteHw a b c d).reg p o = s.reg p o := rfl
@[simp] theorem State.reg_cocoonBegin (s : State) (p o : Nat) : s.cocoonBegin.reg p o = s.reg p o := by
  unfold State.cocoonBegin; split
  · rfl
  split <;> rfl
@[simp] theorem State.reg_cocoonPut (s : State) (r : CocoonReq) (p o : Nat) : (s.cocoonPut r).reg p o = s.reg p o := by
  unfold State.cocoonPut; rw [State.reg_cocoonBegin, State.reg_onDep]

@[simp] theorem State.reg_produce (s : State) (q k p o : Nat) : (s.produce q k).reg p o = s.reg p o := by
  unfold State.produce; dsimp only; split <;> rfl

@[simp] theorem State.reg_produceOn (s : State) (q c : Nat) (en : Bool) (p o : Nat) : (s.produceOn q c en).reg p o = s.reg p o := by
  unfold State.produceOn; split <;> rfl

theorem State.regs_congr_fields {s t : State} (h : t.regs = s.regs) :
    (∀ p o, t.reg p o = s.reg p o) ∧ (∀ p o lo n, t.fld p o lo n = s.fld p o lo n) ∧ (∀ p o i, t.bit p o i = s.bit p o i) := by
  refine ⟨State.reg_congr h, fun p o lo n => ?_, fun p o i => ?_⟩
  · unfold State.fld; rw [State.reg_congr h]
  · unfold State.bit; rw [State.reg_congr h]

/-! ## Faults, fences and records -/

theorem rg_quiet {p o q k : Nat} (h : quietOff o = true) (hk : loudOff k = true) (hl : k < 4096) : rg p o ≠ rg q k := by
  simp only [quietOff, Bool.and_eq_true, decide_eq_true_eq, Bool.not_eq_true'] at h
  intro e
  have := (rg_inj h.1 hl).1 e
  rw [this.2, hk] at h
  exact absurd h.2 (by simp)

theorem State.reg_markFenced (s : State) (l : List Nat) (p o : Nat) (h : quietOff o = true) : (s.markFenced l).reg p o = s.reg p o := by
  induction l generalizing s with
  | nil => rfl
  | cons q qs ih =>
    unfold State.markFenced
    rw [ih, State.reg_modPage, State.reg_setFld_ne (rg_quiet h (by decide) (by decide)), State.reg_putBit_ne (rg_quiet h (by decide) (by decide))]

theorem State.reg_fenceAll (s : State) (c b : Nat) (l : List (List Nat)) (p o : Nat) (h : quietOff o = true) :
    (s.fenceAll c b l).reg p o = s.reg p o := by
  induction l generalizing s c with
  | nil => rfl
  | cons q qs ih =>
    unfold State.fenceAll
    dsimp only
    rw [ih]
    split
    · rfl
    · rw [State.reg_onDep, State.reg_markFenced _ _ _ _ h]

theorem State.reg_fence (s : State) (q c b p o : Nat) (h : quietOff o = true) : (s.fence q c b).reg p o = s.reg p o := by
  unfold State.fence
  split
  · exact State.reg_fenceAll _ _ _ _ _ _ h
  · rfl

/-- A fault changes no register but PG_FAULT, PG_INT_STAT and, by a fence, PG_STAT and PG_SHADOW. -/
theorem State.reg_raise (s : State) (q b p o : Nat) (h : quietOff o = true) : (s.raise q b).reg p o = s.reg p o := by
  have e1 : ∀ t : State, ∀ a i v, (t.putBit a Off.hdr_PG_FAULT i v).reg p o = t.reg p o := fun _ _ _ _ =>
    State.reg_putBit_ne (rg_quiet h (by decide) (by decide))
  have e2 : ∀ t : State, ∀ a i v, (t.putBit a Off.hdr_PG_INT_STAT i v).reg p o = t.reg p o := fun _ _ _ _ =>
    State.reg_putBit_ne (rg_quiet h (by decide) (by decide))
  unfold State.raise
  extract_lets a rep s1 s2
  have h1 : s1.reg p o = s.reg p o := by unfold s1; rw [State.reg_noteHw, e1]
  have h2 : s2.reg p o = s.reg p o := by
    unfold s2
    split
    · rw [State.reg_onDep, e2, h1]
    · exact h1
  split
  · rfl
  split
  · rw [State.reg_fence _ _ _ _ _ _ h, h2]
  · exact h2

theorem State.reg_stateWrite (s : State) (q p o : Nat) (h : quietOff o = true) : (s.stateWrite q).reg p o = s.reg p o :=
  State.reg_raise s q 0 p o h

theorem State.reg_setInt (s : State) (q b p o : Nat) (h : quietOff o = true) : (s.setInt q b).reg p o = s.reg p o := by
  unfold State.setInt
  rw [State.reg_noteHw, State.reg_putBit_ne (rg_quiet h (by decide) (by decide))]

/-- A Silk record changes no register but SILK.CNT, where it is lost, and what the fault changes. -/
theorem State.reg_silk (s : State) (c q d0 d1 d2 p o : Nat) (h : quietOff o = true) (hc : rg p o ≠ rg pSILK Off.silk_CNT) :
    (s.silk c q d0 d1 d2).reg p o = s.reg p o := by
  unfold State.silk
  split
  · rfl
  · rw [State.reg_raise _ _ _ _ _ h, State.reg_count_ne hc]

/-! ## The gate -/

/-- Is the page's outstanding unlock this master's (R610)? -/
def State.unlockOf (s : State) (m : Master) (p : Nat) : Bool :=
  match (s.pageRt p).unlock with
  | some (m', _) => decide (m' = m)
  | none => false

/-- The state behind the gate of an open page: the master's unlock of the page is consumed (R610). -/
def State.passed (s : State) (m : Master) (p : Nat) : State :=
  if s.unlockOf m p = true then s.modPage p fun r => { r with unlock := none } else s

theorem State.gateWrite_open {s : State} {m : Master} {p : Nat} (h : s.Open m p) (o : Nat) (b : Bool) :
    (s.gateWrite m p o b).st = s.passed m p ∧ (s.gateWrite m p o b).ok = true := by
  obtain ⟨h1, h2, h3, h4, h5⟩ := h
  unfold State.gateWrite
  simp only [h1, h2, h3, h4, h5, Bool.not_true, Bool.false_and, Bool.false_eq_true, if_false]
  exact ⟨rfl, trivial⟩

/-- A write to an open page has its effect. -/
theorem State.regWrite_open {s : State} {m : Master} {p : Nat} (h : s.Open m p) (o : Nat) (eff : State → State) :
    s.regWrite m p o eff = eff (s.passed m p) := by
  obtain ⟨e1, e2⟩ := State.gateWrite_open h o false
  unfold State.regWrite
  dsimp only
  rw [e2, e1]; rfl

@[simp] theorem State.passed_mem (s : State) (m : Master) (p : Nat) : (s.passed m p).mem = s.mem := by
  unfold State.passed; split <;> rfl
@[simp] theorem State.passed_poison (s : State) (m : Master) (p : Nat) : (s.passed m p).poison = s.poison := by
  unfold State.passed; split <;> rfl
@[simp] theorem State.passed_regs (s : State) (m : Master) (p : Nat) : (s.passed m p).regs = s.regs := by
  unfold State.passed; split <;> rfl
@[simp] theorem State.passed_shadow (s : State) (m : Master) (p : Nat) : (s.passed m p).shadow = s.shadow := by
  unfold State.passed; split <;> rfl
@[simp] theorem State.passed_frozen (s : State) (m : Master) (p : Nat) : (s.passed m p).frozen = s.frozen := by
  unfold State.passed; split <;> rfl
@[simp] theorem State.passed_latch (s : State) (m : Master) (p : Nat) : (s.passed m p).latch = s.latch := by
  unfold State.passed; split <;> rfl
@[simp] theorem State.passed_fab (s : State) (m : Master) (p : Nat) : (s.passed m p).fab = s.fab := by
  unfold State.passed; split <;> rfl
@[simp] theorem State.passed_tb (s : State) (m : Master) (p : Nat) : (s.passed m p).tb = s.tb := by
  unfold State.passed; split <;> rfl
@[simp] theorem State.passed_evf (s : State) (m : Master) (p : Nat) : (s.passed m p).evf = s.evf := by
  unfold State.passed; split <;> rfl
@[simp] theorem State.passed_dep (s : State) (m : Master) (p : Nat) : (s.passed m p).dep = s.dep := by
  unfold State.passed; split <;> rfl
@[simp] theorem State.passed_qm (s : State) (m : Master) (p : Nat) : (s.passed m p).qm = s.qm := by
  unfold State.passed; split <;> rfl
@[simp] theorem State.passed_dram (s : State) (m : Master) (p : Nat) : (s.passed m p).dram = s.dram := by
  unfold State.passed; split <;> rfl
@[simp] theorem State.passed_plat (s : State) (m : Master) (p : Nat) : (s.passed m p).plat = s.plat := by
  unfold State.passed; split <;> rfl
@[simp] theorem State.passed_power (s : State) (m : Master) (p : Nat) : (s.passed m p).power = s.power := by
  unfold State.passed; split <;> rfl
@[simp] theorem State.passed_cap (s : State) (m : Master) (p : Nat) : (s.passed m p).cap = s.cap := by
  unfold State.passed; split <;> rfl
@[simp] theorem State.passed_pipes (s : State) (m : Master) (p : Nat) : (s.passed m p).pipes = s.pipes := by
  unfold State.passed; split <;> rfl
@[simp] theorem State.passed_swarm (s : State) (m : Master) (p : Nat) : (s.passed m p).swarm = s.swarm := by
  unfold State.passed; split <;> rfl
@[simp] theorem State.passed_codec (s : State) (m : Master) (p : Nat) : (s.passed m p).codec = s.codec := by
  unfold State.passed; split <;> rfl
@[simp] theorem State.passed_disp (s : State) (m : Master) (p : Nat) : (s.passed m p).disp = s.disp := by
  unfold State.passed; split <;> rfl
@[simp] theorem State.passed_tdm (s : State) (m : Master) (p : Nat) : (s.passed m p).tdm = s.tdm := by
  unfold State.passed; split <;> rfl
@[simp] theorem State.passed_net (s : State) (m : Master) (p : Nat) : (s.passed m p).net = s.net := by
  unfold State.passed; split <;> rfl
@[simp] theorem State.passed_stor (s : State) (m : Master) (p : Nat) : (s.passed m p).stor = s.stor := by
  unfold State.passed; split <;> rfl
@[simp] theorem State.passed_resp (s : State) (m : Master) (p : Nat) : (s.passed m p).resp = s.resp := by
  unfold State.passed; split <;> rfl
@[simp] theorem State.passed_now (s : State) (m : Master) (p : Nat) : (s.passed m p).now = s.now := by
  unfold State.passed; split <;> rfl
@[simp] theorem State.passed_free (s : State) (m : Master) (p : Nat) : (s.passed m p).free = s.free := by
  unfold State.passed; split <;> rfl
@[simp] theorem State.passed_pending (s : State) (m : Master) (p : Nat) : (s.passed m p).pending = s.pending := by
  unfold State.passed; split <;> rfl
@[simp] theorem State.passed_reg (s : State) (m : Master) (p q o : Nat) : (s.passed m p).reg q o = s.reg q o := by
  unfold State.passed; split <;> rfl
@[simp] theorem State.passed_fld (s : State) (m : Master) (p q o lo n : Nat) : (s.passed m p).fld q o lo n = s.fld q o lo n := by
  unfold State.passed; split <;> rfl
@[simp] theorem State.passed_bit (s : State) (m : Master) (p q o i : Nat) : (s.passed m p).bit q o i = s.bit q o i := by
  unfold State.passed; split <;> rfl

end Sys2Proof.Machine
end

