-- ==== Sys2Proof/Laws/Touches.lean ====
section
/-!
SUPPORT. What an operation may touch: `Touches K s t` says that `t` keeps the canonical form of `s` and equals it in every field
of State whose bit is not in the mask `K`. Every operation of the model has one such lemma (the files Laws/Touch*.lean), from
which the frames and the invariants of every command follow.
-/

-- One proof at a time bounds the threads and memory of a compile.
set_option Elab.async false

namespace Sys2Proof.Machine

/-- The state `t` keeps `s`'s canonical form and differs from `s` at most in the fields whose bit is set in `K`. -/
structure Touches (K : Nat) (s t : State) : Prop where
  canonical : s.Canonical → t.Canonical
  mem : K.testBit 0 = false → t.mem = s.mem
  poison : K.testBit 1 = false → t.poison = s.poison
  regs : K.testBit 2 = false → t.regs = s.regs
  shadow : K.testBit 3 = false → t.shadow = s.shadow
  frozen : K.testBit 4 = false → t.frozen = s.frozen
  latch : K.testBit 5 = false → t.latch = s.latch
  pg : K.testBit 6 = false → t.pg = s.pg
  fab : K.testBit 7 = false → t.fab = s.fab
  tb : K.testBit 8 = false → t.tb = s.tb
  evf : K.testBit 9 = false → t.evf = s.evf
  dep : K.testBit 10 = false → t.dep = s.dep
  qm : K.testBit 11 = false → t.qm = s.qm
  dram : K.testBit 12 = false → t.dram = s.dram
  plat : K.testBit 13 = false → t.plat = s.plat
  power : K.testBit 14 = false → t.power = s.power
  cap : K.testBit 15 = false → t.cap = s.cap
  pipes : K.testBit 16 = false → t.pipes = s.pipes
  swarm : K.testBit 17 = false → t.swarm = s.swarm
  codec : K.testBit 18 = false → t.codec = s.codec
  disp : K.testBit 19 = false → t.disp = s.disp
  tdm : K.testBit 20 = false → t.tdm = s.tdm
  net : K.testBit 21 = false → t.net = s.net
  stor : K.testBit 22 = false → t.stor = s.stor
  resp : K.testBit 23 = false → t.resp = s.resp
  now : K.testBit 24 = false → t.now = s.now
  free : K.testBit 25 = false → t.free = s.free
  pending : K.testBit 26 = false → t.pending = s.pending

theorem Touches.refl (K : Nat) (s : State) : Touches K s s := by
  constructor <;> intros <;> first | assumption | rfl

theorem testBit_sub {k K i : Nat} (h : Nat.land k K = k) (hi : K.testBit i = false) : k.testBit i = false := by
  have h2 : (k &&& K).testBit i = k.testBit i := congrArg (Nat.testBit · i) h
  rw [Nat.testBit_land, hi, Bool.and_false] at h2
  exact h2.symm

theorem land_sub {a k K : Nat} (h : Nat.land a k = a) (hk : Nat.land k K = k) : Nat.land a K = a := by
  have h1 : a &&& k = a := h
  have h2 : k &&& K = k := hk
  show a &&& K = a
  rw [← h1, Nat.and_assoc, h2]

/-- A step by an operation that touches less. -/
theorem Touches.step {K k : Nat} {s t u : State} (h : Touches K s t) (g : Touches k t u) (hk : Nat.land k K = k) : Touches K s u where
  canonical := fun c => g.canonical (h.canonical c)
  mem := fun b => (g.mem (testBit_sub hk b)).trans (h.mem b)
  poison := fun b => (g.poison (testBit_sub hk b)).trans (h.poison b)
  regs := fun b => (g.regs (testBit_sub hk b)).trans (h.regs b)
  shadow := fun b => (g.shadow (testBit_sub hk b)).trans (h.shadow b)
  frozen := fun b => (g.frozen (testBit_sub hk b)).trans (h.frozen b)
  latch := fun b => (g.latch (testBit_sub hk b)).trans (h.latch b)
  pg := fun b => (g.pg (testBit_sub hk b)).trans (h.pg b)
  fab := fun b => (g.fab (testBit_sub hk b)).trans (h.fab b)
  tb := fun b => (g.tb (testBit_sub hk b)).trans (h.tb b)
  evf := fun b => (g.evf (testBit_sub hk b)).trans (h.evf b)
  dep := fun b => (g.dep (testBit_sub hk b)).trans (h.dep b)
  qm := fun b => (g.qm (testBit_sub hk b)).trans (h.qm b)
  dram := fun b => (g.dram (testBit_sub hk b)).trans (h.dram b)
  plat := fun b => (g.plat (testBit_sub hk b)).trans (h.plat b)
  power := fun b => (g.power (testBit_sub hk b)).trans (h.power b)
  cap := fun b => (g.cap (testBit_sub hk b)).trans (h.cap b)
  pipes := fun b => (g.pipes (testBit_sub hk b)).trans (h.pipes b)
  swarm := fun b => (g.swarm (testBit_sub hk b)).trans (h.swarm b)
  codec := fun b => (g.codec (testBit_sub hk b)).trans (h.codec b)
  disp := fun b => (g.disp (testBit_sub hk b)).trans (h.disp b)
  tdm := fun b => (g.tdm (testBit_sub hk b)).trans (h.tdm b)
  net := fun b => (g.net (testBit_sub hk b)).trans (h.net b)
  stor := fun b => (g.stor (testBit_sub hk b)).trans (h.stor b)
  resp := fun b => (g.resp (testBit_sub hk b)).trans (h.resp b)
  now := fun b => (g.now (testBit_sub hk b)).trans (h.now b)
  free := fun b => (g.free (testBit_sub hk b)).trans (h.free b)
  pending := fun b => (g.pending (testBit_sub hk b)).trans (h.pending b)

theorem Touches.mono {K k : Nat} {s t : State} (g : Touches k s t) (hk : Nat.land k K = k) : Touches K s t :=
  (Touches.refl K s).step g hk

/-- Folding an operation that keeps within the mask keeps within it. -/
theorem Touches.foldl {β : Type} {K : Nat} {s t : State} {f : State → β → State} {l : List β} (h : Touches K s t)
    (hf : ∀ u x, Touches K s u → Touches K s (f u x)) : Touches K s (l.foldl f t) := by
  induction l generalizing t with
  | nil => exact h
  | cons x l ih => exact ih (hf t x h)

theorem Touches.foldl_fst {β γ : Type} {K : Nat} {s : State} {f : State × γ → β → State × γ} {l : List β} {p : State × γ}
    (h : Touches K s p.1) (hf : ∀ u x, Touches K s u.1 → Touches K s (f u x).1) : Touches K s (l.foldl f p).1 := by
  induction l generalizing p with
  | nil => exact h
  | cons x l ih => exact ih (hf p x h)

theorem Touches.foldl_snd {β γ : Type} {K : Nat} {s : State} {f : γ × State → β → γ × State} {l : List β} {p : γ × State}
    (h : Touches K s p.2) (hf : ∀ u x, Touches K s u.2 → Touches K s (f u x).2) : Touches K s (l.foldl f p).2 := by
  induction l generalizing p with
  | nil => exact h
  | cons x l ih => exact ih (hf p x h)

theorem Touches.of_snd {γ : Type} {k : Nat} {s t : State} {a : γ} {p : γ × State} (h : Touches k s p.2) (e : p = (a, t)) :
    Touches k s t := by subst e; exact h

theorem Touches.of_fst {γ : Type} {k : Nat} {s t : State} {a : γ} {p : State × γ} (h : Touches k s p.1) (e : p = (t, a)) :
    Touches k s t := by subst e; exact h

theorem Touches.of_snd2 {γ δ : Type} {k : Nat} {s t : State} {a : γ} {b : δ} {p : γ × δ × State} (h : Touches k s p.2.2)
    (e : p = (a, b, t)) : Touches k s t := by subst e; exact h

theorem Touches.ite {K : Nat} {s a b : State} {c : Prop} [Decidable c] (ha : c → Touches K s a) (hb : ¬c → Touches K s b) :
    Touches K s (if c then a else b) := by
  by_cases h : c
  · rw [if_pos h]; exact ha h
  · rw [if_neg h]; exact hb h

/-- An operation that may decline: where it answers a state, that state is within the mask. -/
def TouchesOpt (K : Nat) (s : State) (o : Option State) : Prop := ∀ t, o = some t → Touches K s t

theorem TouchesOpt.none (K : Nat) (s : State) : TouchesOpt K s none := by intro t h; cases h

theorem TouchesOpt.some {K : Nat} {s t : State} (h : Touches K s t) : TouchesOpt K s (some t) := by
  intro u e; cases e; exact h

theorem TouchesOpt.step {K k : Nat} {s t : State} {o : Option State} (h : Touches K s t) (g : TouchesOpt k t o)
    (hk : Nat.land k K = k) : TouchesOpt K s o := fun u e => h.step (g u e) hk

theorem TouchesOpt.orElse {K : Nat} {s : State} {a b : Option State} (ha : TouchesOpt K s a) (hb : TouchesOpt K s b) :
    TouchesOpt K s (a <|> b) := by
  intro t h
  cases a with
  | none => exact hb t (by simpa using h)
  | some v => exact ha t (by simpa using h)

/-- The same of the state in an answer: behind a value, before one, or behind two. -/
def Touches2 {γ : Type} (K : Nat) (s : State) (p : γ × State) : Prop := Touches K s p.2
def Touches1 {γ : Type} (K : Nat) (s : State) (p : State × γ) : Prop := Touches K s p.1
def Touches22 {γ δ : Type} (K : Nat) (s : State) (p : γ × δ × State) : Prop := Touches K s p.2.2

/-- A command completes, and what it answers is within the mask. -/
def Ends (K : Nat) (s : State) (o : Step) : Prop := ∃ t, o = .next t ∧ Touches K s t

theorem Ends.next {K : Nat} {s t : State} (h : Touches K s t) : Ends K s (.next t) := ⟨t, rfl, h⟩

theorem Ends.step {K k : Nat} {s t : State} {o : Step} (h : Touches K s t) (g : Ends k t o) (hk : Nat.land k K = k) : Ends K s o := by
  obtain ⟨u, e, hu⟩ := g
  exact ⟨u, e, h.step hu hk⟩

theorem Ends.ite {K : Nat} {s : State} {a b : Step} {c : Prop} [Decidable c] (ha : c → Ends K s a) (hb : ¬c → Ends K s b) :
    Ends K s (if c then a else b) := by
  by_cases h : c
  · rw [if_pos h]; exact ha h
  · rw [if_neg h]; exact hb h

/-! ## The updates of one field -/

theorem State.onShadow_touches (s : State) (f : Map (Option Word) → Map (Option Word))
    (h : Map.wf (fun _ => none) s.shadow = true → Map.wf (fun _ => none) (f s.shadow) = true) : Touches 8 s (State.onShadow s f) := by
  constructor
  · exact fun c => ⟨c.1, c.2.1, c.2.2.1, h c.2.2.2.1, c.2.2.2.2⟩
  all_goals first | (intro; rfl) | (intro h; exact absurd h (by decide))
theorem State.onFrozen_touches (s : State) (f : Map (Option Word) → Map (Option Word))
    (h : Map.wf (fun _ => none) s.frozen = true → Map.wf (fun _ => none) (f s.frozen) = true) : Touches 16 s (State.onFrozen s f) := by
  constructor
  · exact fun c => ⟨c.1, c.2.1, c.2.2.1, c.2.2.2.1, h c.2.2.2.2.1, c.2.2.2.2.2⟩
  all_goals first | (intro; rfl) | (intro h; exact absurd h (by decide))
theorem State.onLatch_touches (s : State) (f : Map (Option Word) → Map (Option Word))
    (h : Map.wf (fun _ => none) s.latch = true → Map.wf (fun _ => none) (f s.latch) = true) : Touches 32 s (State.onLatch s f) := by
  constructor
  · exact fun c => ⟨c.1, c.2.1, c.2.2.1, c.2.2.2.1, c.2.2.2.2.1, h c.2.2.2.2.2⟩
  all_goals first | (intro; rfl) | (intro h; exact absurd h (by decide))
theorem State.onPg_touches : ∀ s f, Touches 64 s (State.onPg s f) := by
  intro s f
  constructor
  · exact id
  all_goals first | (intro; rfl) | (intro h; exact absurd h (by decide))
theorem State.onFab_touches : ∀ s f, Touches 128 s (State.onFab s f) := by
  intro s f
  constructor
  · exact id
  all_goals first | (intro; rfl) | (intro h; exact absurd h (by decide))
theorem State.onTb_touches : ∀ s f, Touches 256 s (State.onTb s f) := by
  intro s f
  constructor
  · exact id
  all_goals first | (intro; rfl) | (intro h; exact absurd h (by decide))
theorem State.onEvf_touches : ∀ s f, Touches 512 s (State.onEvf s f) := by
  intro s f
  constructor
  · exact id
  all_goals first | (intro; rfl) | (intro h; exact absurd h (by decide))
theorem State.onDep_touches : ∀ s f, Touches 1024 s (State.onDep s f) := by
  intro s f
  constructor
  · exact id
  all_goals first | (intro; rfl) | (intro h; exact absurd h (by decide))
theorem State.onQm_touches : ∀ s f, Touches 2048 s (State.onQm s f) := by
  intro s f
  constructor
  · exact id
  all_goals first | (intro; rfl) | (intro h; exact absurd h (by decide))
theorem State.onDram_touches : ∀ s f, Touches 4096 s (State.onDram s f) := by
  intro s f
  constructor
  · exact id
  all_goals first | (intro; rfl) | (intro h; exact absurd h (by decide))
theorem State.onPlat_touches : ∀ s f, Touches 8192 s (State.onPlat s f) := by
  intro s f
  constructor
  · exact id
  all_goals first | (intro; rfl) | (intro h; exact absurd h (by decide))
theorem State.onPower_touches : ∀ s f, Touches 16384 s (State.onPower s f) := by
  intro s f
  constructor
  · exact id
  all_goals first | (intro; rfl) | (intro h; exact absurd h (by decide))
theorem State.onCap_touches : ∀ s f, Touches 32768 s (State.onCap s f) := by
  intro s f
  constructor
  · exact id
  all_goals first | (intro; rfl) | (intro h; exact absurd h (by decide))
theorem State.onPipes_touches : ∀ s f, Touches 65536 s (State.onPipes s f) := by
  intro s f
  constructor
  · exact id
  all_goals first | (intro; rfl) | (intro h; exact absurd h (by decide))
theorem State.onSwarm_touches : ∀ s f, Touches 131072 s (State.onSwarm s f) := by
  intro s f
  constructor
  · exact id
  all_goals first | (intro; rfl) | (intro h; exact absurd h (by decide))
theorem State.onCodec_touches : ∀ s f, Touches 262144 s (State.onCodec s f) := by
  intro s f
  constructor
  · exact id
  all_goals first | (intro; rfl) | (intro h; exact absurd h (by decide))
theorem State.onDisp_touches : ∀ s f, Touches 524288 s (State.onDisp s f) := by
  intro s f
  constructor
  · exact id
  all_goals first | (intro; rfl) | (intro h; exact absurd h (by decide))
theorem State.onTdm_touches : ∀ s f, Touches 1048576 s (State.onTdm s f) := by
  intro s f
  constructor
  · exact id
  all_goals first | (intro; rfl) | (intro h; exact absurd h (by decide))
theorem State.onNet_touches : ∀ s f, Touches 2097152 s (State.onNet s f) := by
  intro s f
  constructor
  · exact id
  all_goals first | (intro; rfl) | (intro h; exact absurd h (by decide))
theorem State.onStor_touches : ∀ s f, Touches 4194304 s (State.onStor s f) := by
  intro s f
  constructor
  · exact id
  all_goals first | (intro; rfl) | (intro h; exact absurd h (by decide))
theorem State.onResp_touches : ∀ s f, Touches 8388608 s (State.onResp s f) := by
  intro s f
  constructor
  · exact id
  all_goals first | (intro; rfl) | (intro h; exact absurd h (by decide))
theorem State.onNow_touches : ∀ s f, Touches 16777216 s (State.onNow s f) := by
  intro s f
  constructor
  · exact id
  all_goals first | (intro; rfl) | (intro h; exact absurd h (by decide))
theorem State.onFree_touches : ∀ s f, Touches 33554432 s (State.onFree s f) := by
  intro s f
  constructor
  · exact id
  all_goals first | (intro; rfl) | (intro h; exact absurd h (by decide))

theorem State.onRegs_touches (s : State) (f : Map Word → Map Word) (h : Map.wf resetKey s.regs = true → Map.wf resetKey (f s.regs) = true) :
    Touches 4 s (State.onRegs s f) := by
  constructor
  · exact fun c => ⟨c.1, c.2.1, h c.2.2.1, c.2.2.2⟩
  all_goals first | (intro; rfl) | (intro h; exact absurd h (by decide))

theorem State.onMem_touches (s : State) (f : List Host.Cell → List Host.Cell) (h : Memory.wf s.mem = true → Memory.wf (f s.mem) = true) :
    Touches 1 s (State.onMem s f) := by
  constructor
  · exact fun c => ⟨h c.1, c.2⟩
  all_goals first | (intro; rfl) | (intro h; exact absurd h (by decide))

theorem State.onPoison_touches (s : State) (f : Map Bool → Map Bool)
    (h : Map.wf (fun _ => false) s.poison = true → Map.wf (fun _ => false) (f s.poison) = true) :
    Touches 2 s (State.onPoison s f) := by
  constructor
  · exact fun c => ⟨c.1, h c.2.1, c.2.2⟩
  all_goals first | (intro; rfl) | (intro h; exact absurd h (by decide))

theorem State.setReg_touches : ∀ s p o v, Touches 4 s (State.setReg s p o v) := fun s _ _ _ =>
  State.onRegs_touches s _ (Map.wf_put _ _ _ _)

theorem State.setPoison_touches : ∀ s a b, Touches 2 s (State.setPoison s a b) := fun s _ _ =>
  State.onPoison_touches s _ (Map.wf_put _ _ _ _)

theorem State.poke_touches : ∀ s a bs, Touches 1 s (State.poke s a bs) := by
  intro s a bs
  induction bs generalizing s a with
  | nil => exact Touches.refl _ s
  | cons b bs ih => exact ((State.onMem_touches s (fun m => Map.put (fun _ => 0) m a b) (fun h => Map.wf_put (fun _ => (0 : Byte)) s.mem a b h)).step (ih _ _) rfl)

end Sys2Proof.Machine
end

