-- ==== Sys2Proof/Laws/Touch/Flags.lean ====
section
/-!
SUPPORT. What each operation of Machine/Flags.lean may touch (see Laws/Touches.lean).
-/

-- One proof at a time bounds the threads and memory of a compile.
set_option Elab.async false

namespace Sys2Proof.Machine

open Sys2Proof

theorem State.setFld_touches : ∀ s p o lo n v, Touches 4 s (State.setFld s p o lo n v) := by
  intro s p o lo n v
  unfold State.setFld
  exact ((State.setReg_touches ..).mono rfl)

theorem State.putBit_touches : ∀ s p o i b, Touches 4 s (State.putBit s p o i b) := by
  intro s p o i b
  unfold State.putBit
  exact ((State.setReg_touches ..).mono rfl)

theorem State.count_touches : ∀ s p o lo n k, Touches 4 s (State.count s p o lo n k) := by
  intro s p o lo n k
  unfold State.count
  exact ((State.setReg_touches ..).mono rfl)

theorem State.countWrap_touches : ∀ s p o lo n k, Touches 4 s (State.countWrap s p o lo n k) := by
  intro s p o lo n k
  unfold State.countWrap
  exact ((State.setReg_touches ..).mono rfl)

theorem State.setReg64_touches : ∀ s p lo hi v, Touches 4 s (State.setReg64 s p lo hi v) := by
  intro s p lo hi v
  unfold State.setReg64
  exact (((State.setReg_touches ..).mono rfl).step (State.setReg_touches ..) rfl)

theorem State.setRegs32_touches : ∀ s p o x3, Touches 4 s (State.setRegs32 s p o x3) := by
  intro s p o x3
  induction x3 generalizing s p o
  · unfold State.setRegs32
    exact Touches.refl _ _
  · rename_i ih
    unfold State.setRegs32
    exact (((State.setReg_touches ..).mono rfl).step (ih ..) rfl)

theorem State.drawWord_touches : ∀ s, Touches 33554432 s (State.drawWord s).2 := by
  intro s
  unfold State.drawWord
  change Touches2 33554432 s _
  exact ((State.onFree_touches ..).mono rfl)

theorem State.drawNat_touches : ∀ s, Touches 33554432 s (State.drawNat s).2 := by
  intro s
  unfold State.drawNat
  change Touches2 33554432 s _
  exact ((State.onFree_touches ..).mono rfl)

theorem State.drawBytes_touches : ∀ s n, Touches 33554432 s (State.drawBytes s n).2 := by
  intro s n
  unfold State.drawBytes
  change Touches2 33554432 s _
  exact ((State.onFree_touches ..).mono rfl)

theorem State.modPage_touches : ∀ s p f, Touches 64 s (State.modPage s p f) := by
  intro s p f
  unfold State.modPage
  exact ((State.onPg_touches ..).mono rfl)

theorem State.cmdStart_touches : ∀ s p o n, Touches 64 s (State.cmdStart s p o n) := by
  intro s p o n
  unfold State.cmdStart
  exact ((State.modPage_touches ..).mono rfl)

theorem State.modChan_touches : ∀ s c f, Touches 512 s (State.modChan s c f) := by
  intro s c f
  unfold State.modChan
  exact ((State.onEvf_touches ..).mono rfl)

theorem State.evMark_touches : ∀ s p o, Touches 512 s (State.evMark s p o) := by
  intro s p o
  unfold State.evMark
  exact ((State.onEvf_touches ..).mono rfl)

theorem State.evPut_touches : ∀ s p o v, Touches 516 s (State.evPut s p o v) := by
  intro s p o v
  unfold State.evPut
  exact (((State.evMark_touches ..).mono rfl).step (State.setReg_touches ..) rfl)

theorem State.assertAt_touches : ∀ s c t, Touches 512 s (State.assertAt s c t) := by
  intro s c t
  unfold State.assertAt
  exact ((State.modChan_touches ..).mono rfl)

theorem State.assertCh_touches : ∀ s c, Touches 512 s (State.assertCh s c) := by
  intro s c
  unfold State.assertCh
  exact ((State.assertAt_touches ..).mono rfl)

theorem State.produce_touches : ∀ s p k, Touches 512 s (State.produce s p k) := by
  intro s p k
  unfold State.produce
  extract_lets +onlyGivenNames w
  clear_value w
  exact (Touches.ite (fun _ => ((State.assertCh_touches ..).mono rfl)) (fun _ => Touches.refl _ _))

theorem State.produceOn_touches : ∀ s p c en, Touches 512 s (State.produceOn s p c en) := by
  intro s p c en
  unfold State.produceOn
  exact (Touches.ite (fun _ => ((State.assertCh_touches ..).mono rfl)) (fun _ => Touches.refl _ _))

theorem State.markFenced_touches : ∀ s x1, Touches 68 s (State.markFenced s x1) := by
  intro s x1
  induction x1 generalizing s
  · unfold State.markFenced
    exact Touches.refl _ _
  · rename_i ih
    unfold State.markFenced
    exact (((((State.putBit_touches ..).mono rfl).step (State.setFld_touches ..) rfl).step (State.modPage_touches ..) rfl).step (ih ..) rfl)

theorem State.fenceAll_touches : ∀ s c b x3, Touches 1092 s (State.fenceAll s c b x3) := by
  intro s c b x3
  induction x3 generalizing s c b
  · unfold State.fenceAll
    exact Touches.refl _ _
  · rename_i ih
    unfold State.fenceAll
    extract_lets +onlyGivenNames s1
    have h_s1 : Touches 1092 s s1 := (Touches.ite (fun _ => Touches.refl _ _) (fun _ => (((State.markFenced_touches ..).mono rfl).step (State.onDep_touches ..) rfl)))
    clear_value s1
    exact (h_s1.step (ih ..) rfl)

theorem State.fence_touches : ∀ s p c b, Touches 1092 s (State.fence s p c b) := by
  intro s p c b
  unfold State.fence
  exact (Touches.ite (fun _ => ((State.fenceAll_touches ..).mono rfl)) (fun _ => Touches.refl _ _))

theorem State.noteHw_touches : ∀ s p f again i, Touches 64 s (State.noteHw s p f again i) := by
  intro s p f again i
  unfold State.noteHw
  exact ((State.modPage_touches ..).mono rfl)

theorem State.raise_touches : ∀ s p0 b, Touches 1092 s (State.raise s p0 b) := by
  intro s p0 b
  unfold State.raise
  extract_lets +onlyGivenNames p
  clear_value p
  refine (Touches.ite (fun _ => ((State.noteHw_touches ..).mono rfl)) (fun _ => ?_))
  extract_lets +onlyGivenNames rep
  clear_value rep
  extract_lets +onlyGivenNames s1
  have h_s1 : Touches 1092 s s1 := (((State.putBit_touches ..).mono rfl).step (State.noteHw_touches ..) rfl)
  clear_value s1
  extract_lets +onlyGivenNames s2
  have h_s2 : Touches 1092 s s2 := (Touches.ite (fun _ => ((h_s1.step (State.putBit_touches ..) rfl).step (State.onDep_touches ..) rfl)) (fun _ => h_s1))
  clear_value s2
  exact (Touches.ite (fun _ => (h_s2.step (State.fence_touches ..) rfl)) (fun _ => h_s2))

theorem State.stateWrite_touches : ∀ s p, Touches 1092 s (State.stateWrite s p) := by
  intro s p
  unfold State.stateWrite
  exact ((State.raise_touches ..).mono rfl)

theorem State.setInt_touches : ∀ s p b, Touches 68 s (State.setInt s p b) := by
  intro s p b
  unfold State.setInt
  exact (((State.putBit_touches ..).mono rfl).step (State.noteHw_touches ..) rfl)

theorem State.silk_touches : ∀ s code p d0 d1 d2, Touches 1092 s (State.silk s code p d0 d1 d2) := by
  intro s code p d0 d1 d2
  unfold State.silk
  exact (Touches.ite (fun _ => ((State.onDep_touches ..).mono rfl)) (fun _ => (((State.count_touches ..).mono rfl).step (State.raise_touches ..) rfl)))

theorem State.silkOf_touches : ∀ s p code d0 d1 d2, Touches 1092 s (State.silkOf s p code d0 d1 d2) := by
  intro s p code d0 d1 d2
  unfold State.silkOf
  exact ((State.silk_touches ..).mono rfl)

theorem State.cocoonBegin_touches : ∀ s, Touches 1024 s (State.cocoonBegin s) := by
  intro s
  unfold State.cocoonBegin
  split
  · exact Touches.refl _ _
  · exact (Touches.ite (fun _ => Touches.refl _ _) (fun _ => ((State.onDep_touches ..).mono rfl)))

theorem State.cocoonPut_touches : ∀ s r, Touches 1024 s (State.cocoonPut s r) := by
  intro s r
  unfold State.cocoonPut
  exact (((State.onDep_touches ..).mono rfl).step (State.cocoonBegin_touches ..) rfl)

theorem State.snapStart_touches : ∀ s trigger keep, Touches 1028 s (State.snapStart s trigger keep) := by
  intro s trigger keep
  unfold State.snapStart
  extract_lets +onlyGivenNames next slot n
  clear_value next slot n
  exact (((State.putBit_touches ..).mono rfl).step (State.onDep_touches ..) rfl)

theorem State.snapTrigger_touches : ∀ s trigger, Touches 1092 s (State.snapTrigger s trigger) := by
  intro s trigger
  unfold State.snapTrigger
  refine (Touches.ite (fun _ => Touches.refl _ _) (fun _ => ?_))
  extract_lets +onlyGivenNames gap tooSoon
  clear_value gap tooSoon
  exact (Touches.ite (fun _ => (((State.count_touches ..).mono rfl).step (State.raise_touches ..) rfl)) (fun _ => ((State.snapStart_touches ..).mono rfl)))

end Sys2Proof.Machine
end

