-- ==== Sys2Proof/Laws/Touch/Ops.lean ====
section
/-!
SUPPORT. What each operation of Machine/Ops.lean may touch (see Laws/Touches.lean).
-/

-- One proof at a time bounds the threads and memory of a compile.
set_option Elab.async false

namespace Sys2Proof.Machine

open Sys2Proof

theorem State.badAccess_touches : ∀ s m p o reason, Touches 1092 s (State.badAccess s m p o reason) := by
  intro s m p o reason
  unfold State.badAccess
  extract_lets +onlyGivenNames s1
  have h_s1 : Touches 1092 s s1 := ((State.setReg_touches ..).mono rfl)
  clear_value s1
  extract_lets +onlyGivenNames s2
  have h_s2 : Touches 1092 s s2 := (h_s1.step (State.setReg_touches ..) rfl)
  clear_value s2
  exact (h_s2.step (State.raise_touches ..) rfl)

theorem State.answer_touches : ∀ s v, Touches 8388608 s (State.answer s v) := by
  intro s v
  unfold State.answer
  exact ((State.onResp_touches ..).mono rfl)

theorem State.answerErr_touches : ∀ s, Touches 8388608 s (State.answerErr s) := by
  intro s
  unfold State.answerErr
  exact ((State.onResp_touches ..).mono rfl)

theorem State.gateWrite_touches : ∀ s m p o b, Touches 1092 s (State.gateWrite s m p o b).st := by
  intro s m p o b
  unfold State.gateWrite
  split
  · exact (State.badAccess_touches ..).mono rfl
  split
  · exact (State.badAccess_touches ..).mono rfl
  split
  · exact Touches.refl _ _
  extract_lets mine s1
  have h1 : Touches 1092 s s1 := (Touches.ite (fun _ => (State.modPage_touches ..).mono rfl) (fun _ => Touches.refl _ _))
  clear_value s1
  split
  · exact h1
  split
  · exact h1
  · exact h1

theorem State.regWrite_touches {K : Nat} {s u : State} {m : Master} {p o : Nat} {eff : State → State} (h : Touches K s u)
    (hk : Nat.land 1092 K = 1092) (heff : ∀ t, Touches K s t → Touches K s (eff t)) :
    Touches K s (State.regWrite u m p o eff) := by
  unfold State.regWrite
  extract_lets g
  have hg : Touches K s g.st := h.step (State.gateWrite_touches ..) hk
  clear_value g
  split
  · exact heff _ hg
  · exact hg

theorem State.cmdWrite_touches {K : Nat} {s u : State} {m : Master} {p o n : Nat} {eff : State → Option State} (h : Touches K s u)
    (hk : Nat.land 1092 K = 1092) (heff : ∀ t, Touches K s t → TouchesOpt K s (eff t)) :
    Touches K s (State.cmdWrite u m p o n eff) := by
  unfold State.cmdWrite
  refine State.regWrite_touches h hk fun t ht => ?_
  have hw : Touches K s (t.stateWrite p) := ht.step (State.stateWrite_touches ..) (land_sub rfl hk)
  split
  · exact hw
  split
  · exact hw
  · exact (heff _ ht _ ‹_›).step (State.cmdStart_touches ..) (land_sub rfl hk)

theorem State.regRead_touches {K : Nat} {s u : State} {m : Master} {p o : Nat} {eff : State → Word × State} (h : Touches K s u)
    (hk : Nat.land 8389700 K = 8389700) (heff : ∀ t, Touches K s t → Touches K s (eff t).2) :
    Touches K s (State.regRead u m p o eff) := by
  have ha : ∀ {v} {x : Word}, Touches K s v → Touches K s (v.answer x) := fun hv => hv.step (State.answer_touches ..) (land_sub rfl hk)
  have hb : ∀ {c : Nat}, Touches K s (u.badAccess m p o c) := h.step (State.badAccess_touches ..) (land_sub rfl hk)
  unfold State.regRead
  split
  · exact hb.step (State.answerErr_touches ..) (land_sub rfl hk)
  split
  · exact ha hb
  split
  · exact ha (heff _ h)
  split
  · exact ha h
  · exact ha h

theorem State.storeFields_touches : ∀ s p o idle v, Touches 1100 s (State.storeFields s p o idle v) := by
  intro s p o idle v
  unfold State.storeFields
  split
  · exact Touches.refl _ _
  · extract_lets +onlyGivenNames old rwiChange w1 w2 w3
    clear_value old rwiChange w1 w2 w3
    extract_lets +onlyGivenNames s1
    have h_s1 : Touches 1100 s s1 := ((State.setReg_touches ..).mono rfl)
    clear_value s1
    extract_lets +onlyGivenNames s2
    have h_s2 : Touches 1100 s s2 := (Touches.ite (fun _ => h_s1) (fun _ => (h_s1.step (State.onShadow_touches _ _ (Map.wf_put _ _ _ _)) rfl)))
    clear_value s2
    exact (Touches.ite (fun _ => (h_s2.step (State.stateWrite_touches ..) rfl)) (fun _ => h_s2))

theorem State.applyShadow_touches : ∀ s p, Touches 12 s (State.applyShadow s p) := by
  intro s p
  unfold State.applyShadow
  extract_lets +onlyGivenNames mine
  clear_value mine
  extract_lets +onlyGivenNames s1
  have h_s1 : Touches 12 s s1 := by
    unfold s1
    refine (Touches.foldl (Touches.refl _ _) (fun _ _ h => ?_))
    split
    · exact (h.step (State.setReg_touches ..) rfl)
    · exact h
  clear_value s1
  exact (h_s1.step (State.onShadow_touches _ _ (Map.wf_keep _ _ _)) rfl)

theorem State.busRead_touches : ∀ s a n, Touches 1604 s (State.busRead s a n).2 := by
  intro s a n
  unfold State.busRead
  change Touches2 1604 s _
  extract_lets +onlyGivenNames zeros
  clear_value zeros
  split
  · split
    · exact (((State.raise_touches ..).mono rfl).step (State.produce_touches ..) rfl)
    · split
      · exact ((State.raise_touches ..).mono rfl)
      · split
        · exact Touches.refl _ _
        · split
          · exact ((State.count_touches ..).mono rfl)
          · exact Touches.refl _ _
  · split
    · exact Touches.refl _ _
    · exact Touches.refl _ _
  · split
    · exact Touches.refl _ _
    · exact Touches.refl _ _
  · split
    · exact Touches.refl _ _
    · exact Touches.refl _ _
  · exact Touches.refl _ _

theorem State.guardLog_touches : ∀ s i mp a, Touches 1604 s (State.guardLog s i mp a) := by
  intro s i mp a
  unfold State.guardLog
  extract_lets +onlyGivenNames h b
  clear_value h b
  extract_lets +onlyGivenNames s1
  have h_s1 : Touches 1604 s s1 := ((State.setReg_touches ..).mono rfl)
  clear_value s1
  extract_lets +onlyGivenNames s2
  have h_s2 : Touches 1604 s s2 := (h_s1.step (State.setReg64_touches ..) rfl)
  clear_value s2
  extract_lets +onlyGivenNames s3
  have h_s3 : Touches 1604 s s3 := (h_s2.step (State.setReg_touches ..) rfl)
  clear_value s3
  extract_lets +onlyGivenNames s4
  have h_s4 : Touches 1604 s s4 := (h_s3.step (State.setFld_touches ..) rfl)
  clear_value s4
  extract_lets +onlyGivenNames s5
  have h_s5 : Touches 1604 s s5 := (h_s4.step (State.count_touches ..) rfl)
  clear_value s5
  exact (Touches.ite (fun _ => (h_s5.step (State.raise_touches ..) rfl)) (fun _ => ((h_s5.step (State.raise_touches ..) rfl).step (State.produce_touches ..) rfl)))

theorem State.touchImage_touches : ∀ s a n, Touches 8196 s (State.touchImage s a n) := by
  intro s a n
  unfold State.touchImage
  split
  · exact (Touches.ite (fun _ => (((State.putBit_touches ..).mono rfl).step (State.onPlat_touches ..) rfl)) (fun _ => Touches.refl _ _))
  · exact Touches.refl _ _

theorem State.storePiece_touches : ∀ s a bs, Touches 3 s (State.storePiece s a bs) := by
  intro s a bs
  unfold State.storePiece
  exact (Touches.ite (fun _ => (((State.setPoison_touches ..).mono rfl).step (State.poke_touches ..) rfl)) (fun _ => (Touches.ite (fun _ => Touches.refl _ _) (fun _ => ((State.poke_touches ..).mono rfl)))))

theorem State.snoop_touches : ∀ s mp a, Touches 8192 s (State.snoop s mp a) := by
  intro s mp a
  unfold State.snoop
  exact (Touches.ite (fun _ => Touches.refl _ _) (fun _ => ((State.onPlat_touches ..).mono rfl)))

theorem State.dramPiece_touches : ∀ s mp a bs, Touches 9799 s (State.dramPiece s mp a bs) := by
  intro s mp a bs
  unfold State.dramPiece
  extract_lets +onlyGivenNames n
  clear_value n
  refine (Touches.ite (fun _ => (((State.raise_touches ..).mono rfl).step (State.produce_touches ..) rfl)) (fun _ => (Touches.ite (fun _ => ((State.raise_touches ..).mono rfl)) (fun _ => (Touches.ite (fun _ => Touches.refl _ _) (fun _ => ?_))))))
  split
  · exact ((State.guardLog_touches ..).mono rfl)
  · exact (Touches.ite (fun _ => ((State.raise_touches ..).mono rfl)) (fun _ => ((((State.touchImage_touches ..).mono rfl).step (State.snoop_touches ..) rfl).step (State.storePiece_touches ..) rfl)))

theorem State.dramPieces_touches : ∀ s mp x2, Touches 9799 s (State.dramPieces s mp x2) := by
  intro s mp x2
  induction x2 generalizing s mp
  · unfold State.dramPieces
    exact Touches.refl _ _
  · rename_i ih
    unfold State.dramPieces
    exact (((State.dramPiece_touches ..).mono rfl).step (ih ..) rfl)

theorem State.busStore_touches : ∀ s mp a bs, Touches 9799 s (State.busStore s mp a bs) := by
  intro s mp a bs
  unfold State.busStore
  split
  · exact ((State.dramPieces_touches ..).mono rfl)
  · exact (Touches.ite (fun _ => Touches.refl _ _) (fun _ => ((State.poke_touches ..).mono rfl)))
  · exact (Touches.ite (fun _ => (Touches.foldl (Touches.refl _ _) (fun _ _ h => (h.step (State.storePiece_touches ..) rfl)))) (fun _ => Touches.refl _ _))
  · exact Touches.refl _ _
  · exact Touches.refl _ _

theorem State.busWrite_touches : ∀ s mp a bs, Touches 9799 s (State.busWrite s mp a bs) := by
  intro s mp a bs
  unfold State.busWrite
  exact (Touches.ite (fun _ => Touches.refl _ _) (fun _ => ((State.busStore_touches ..).mono rfl)))

theorem State.busPoison_touches : ∀ s mp a n, Touches 9799 s (State.busPoison s mp a n) := by
  intro s mp a n
  unfold State.busPoison
  extract_lets +onlyGivenNames s1
  have h_s1 : Touches 9799 s s1 := ((State.busWrite_touches ..).mono rfl)
  clear_value s1
  exact (Touches.foldl h_s1 (fun _ _ h => (Touches.ite (fun _ => (h.step (State.setPoison_touches ..) rfl)) (fun _ => h))))

theorem State.takeErr_touches : ∀ s p e, Touches 64 s (State.takeErr s p e).2 := by
  intro s p e
  unfold State.takeErr
  change Touches2 64 s _
  extract_lets +onlyGivenNames k
  clear_value k
  split
  · exact Touches.refl _ _
  · show Touches _ _ _
    dsimp only
    exact ((State.modPage_touches ..).mono rfl)

theorem State.eccCount_touches : ∀ s p o b e, Touches 1092 s (State.eccCount s p o b e) := by
  intro s p o b e
  unfold State.eccCount
  split
  · exact Touches.refl _ _
  · exact ((State.count_touches ..).mono rfl)
  · exact (((State.count_touches ..).mono rfl).step (State.raise_touches ..) rfl)

theorem State.memRead_touches : ∀ s p b, Touches 1092 s (State.memRead s p b) := by
  intro s p b
  unfold State.memRead
  extract_lets +onlyGivenNames r
  have h_r : Touches 1092 s r.2 := ((State.takeErr_touches ..).mono rfl)
  clear_value r
  exact (Touches.ite (fun _ => (h_r.step (State.raise_touches ..) rfl)) (fun _ => h_r))

theorem State.qWriteBack_touches : ∀ s q st, Touches 9799 s (State.qWriteBack s q st) := by
  intro s q st
  unfold State.qWriteBack
  exact ((State.busWrite_touches ..).mono rfl)

theorem State.qSet_touches : ∀ s q st, Touches 11847 s (State.qSet s q st) := by
  intro s q st
  unfold State.qSet
  extract_lets +onlyGivenNames rest
  clear_value rest
  refine (Touches.ite (fun _ => ((State.onQm_touches ..).mono rfl)) (fun _ => ?_))
  split
  · exact ((((State.qWriteBack_touches ..).mono rfl).step (State.count_touches ..) rfl).step (State.onQm_touches ..) rfl)
  · exact ((State.onQm_touches ..).mono rfl)

theorem State.qTouch_touches : ∀ s q, Touches 11847 s (State.qTouch s q) := by
  intro s q
  unfold State.qTouch
  split
  · exact ((State.qSet_touches ..).mono rfl)
  · extract_lets +onlyGivenNames st
    clear_value st
    extract_lets +onlyGivenNames s1
    have h_s1 : Touches 11847 s s1 := (((State.count_touches ..).mono rfl).step (State.qSet_touches ..) rfl)
    clear_value s1
    exact (Touches.ite (fun _ => ((h_s1.step (State.raise_touches ..) rfl).step (State.produce_touches ..) rfl)) (fun _ => h_s1))

theorem State.qEcc_touches : ∀ s q e, Touches 11847 s (State.qEcc s q e) := by
  intro s q e
  unfold State.qEcc
  split
  · exact Touches.refl _ _
  · extract_lets +onlyGivenNames r
    have h_r : Touches 11847 s r.2 := ((State.takeErr_touches ..).mono rfl)
    clear_value r
    split
    · exact h_r
    · exact (h_r.step (State.count_touches ..) rfl)
    · extract_lets +onlyGivenNames t1
      have h_t1 : Touches 11847 s t1 := ((h_r.step (State.count_touches ..) rfl).step (State.qSet_touches ..) rfl)
      clear_value t1
      exact ((h_t1.step (State.raise_touches ..) rfl).step (State.produce_touches ..) rfl)

theorem State.qLand_touches : ∀ s q d, Touches 11847 s (State.qLand s q d) := by
  intro s q d
  unfold State.qLand
  extract_lets +onlyGivenNames st
  clear_value st
  extract_lets +onlyGivenNames s1
  have h_s1 : Touches 11847 s s1 := (((State.qTouch_touches ..).mono rfl).step (State.busWrite_touches ..) rfl)
  clear_value s1
  extract_lets +onlyGivenNames st'
  clear_value st'
  extract_lets +onlyGivenNames s2
  have h_s2 : Touches 11847 s s2 := ((h_s1.step (State.qSet_touches ..) rfl).step (State.countWrap_touches ..) rfl)
  clear_value s2
  extract_lets +onlyGivenNames s3
  have h_s3 : Touches 11847 s s3 := (h_s2.step (State.onQm_touches ..) rfl)
  clear_value s3
  exact (h_s3.step (State.produceOn_touches ..) rfl)

theorem State.qDrop_touches : ∀ s q, Touches 11847 s (State.qDrop s q) := by
  intro s q
  unfold State.qDrop
  extract_lets +onlyGivenNames st
  clear_value st
  exact (((((State.busRead_touches ..).mono rfl).step (State.qTouch_touches ..) rfl).step (State.qSet_touches ..) rfl).step (State.countWrap_touches ..) rfl)

theorem State.pushDropped_touches : ∀ s q invalid, Touches 11847 s (State.pushDropped s q invalid) := by
  intro s q invalid
  unfold State.pushDropped
  extract_lets +onlyGivenNames s1
  clear_value s1
  extract_lets +onlyGivenNames s11
  have h_s11 : Touches 11847 s s11 := (Touches.ite (fun _ => ((State.count_touches ..).mono rfl)) (fun _ => (((State.qSet_touches ..).mono rfl).step (State.count_touches ..) rfl)))
  clear_value s11
  exact ((h_s11.step (State.raise_touches ..) rfl).step (State.produce_touches ..) rfl)

theorem State.push_touches : ∀ s p q d, Touches 11847 s (State.push s p q d) := by
  intro s p q d
  unfold State.push
  exact (Touches.ite (fun _ => Touches.refl _ _) (fun _ => (Touches.ite (fun _ => ((State.pushDropped_touches ..).mono rfl)) (fun _ => (Touches.ite (fun _ => (Touches.ite (fun _ => ((State.onQm_touches ..).mono rfl)) (fun _ => ((State.pushDropped_touches ..).mono rfl)))) (fun _ => ((State.qLand_touches ..).mono rfl)))))))

theorem State.take_touches : ∀ s q, Touches 11847 s (State.take s q).2 := by
  intro s q
  unfold State.take
  change Touches2 11847 s _
  split
  · exact Touches.refl _ _
  · split
    · exact (((State.onQm_touches ..).mono rfl).step (State.countWrap_touches ..) rfl)
    · split
      · exact Touches.refl _ _
      · exact ((State.qDrop_touches ..).mono rfl)

theorem State.qUntake_touches : ∀ s q d, Touches 11847 s (State.qUntake s q d) := by
  intro s q d
  unfold State.qUntake
  extract_lets +onlyGivenNames st
  clear_value st
  refine (Touches.ite (fun _ => Touches.refl _ _) (fun _ => ?_))
  extract_lets +onlyGivenNames h
  clear_value h
  exact ((((State.qTouch_touches ..).mono rfl).step (State.busWrite_touches ..) rfl).step (State.qSet_touches ..) rfl)

theorem State.modHold_touches : ∀ s i f, Touches 2048 s (State.modHold s i f) := by
  intro s i f
  unfold State.modHold
  exact ((State.onQm_touches ..).mono rfl)

theorem State.holdTake_touches : ∀ s i q r d, Touches 2048 s (State.holdTake s i q r d) := by
  intro s i q r d
  unfold State.holdTake
  extract_lets +onlyGivenNames cls
  clear_value cls
  extract_lets +onlyGivenNames s1
  have h_s1 : Touches 2048 s s1 := ((State.modHold_touches ..).mono rfl)
  clear_value s1
  exact (h_s1.step (State.onQm_touches ..) rfl)

theorem State.holdDone_touches : ∀ s i, Touches 2048 s (State.holdDone s i) := by
  intro s i
  unfold State.holdDone
  exact ((State.modHold_touches ..).mono rfl)

theorem State.holdReissue_touches : ∀ s i visible, Touches 11847 s (State.holdReissue s i visible) := by
  intro s i visible
  unfold State.holdReissue
  extract_lets +onlyGivenNames h
  clear_value h
  refine (Touches.ite (fun _ => Touches.refl _ _) (fun _ => ?_))
  extract_lets +onlyGivenNames limit
  clear_value limit
  refine (Touches.ite (fun _ => ?_) (fun _ => ?_))
  · extract_lets +onlyGivenNames s1
    have h_s1 : Touches 11847 s s1 := (((State.holdDone_touches ..).mono rfl).step (State.push_touches ..) rfl)
    clear_value s1
    exact ((((h_s1.step (State.count_touches ..) rfl).step (State.raise_touches ..) rfl).step (State.produce_touches ..) rfl).step (State.silk_touches ..) rfl)
  · extract_lets +onlyGivenNames st
    clear_value st
    extract_lets +onlyGivenNames s1
    have h_s1 : Touches 11847 s s1 := (((State.qSet_touches ..).mono rfl).step (State.count_touches ..) rfl)
    clear_value s1
    exact ((h_s1.step (State.modHold_touches ..) rfl).step (State.onQm_touches ..) rfl)

theorem State.stale_touches : ∀ s q handle epoch, Touches 1092 s (State.stale s q handle epoch) := by
  intro s q handle epoch
  unfold State.stale
  exact ((((State.count_touches ..).mono rfl).step (State.raise_touches ..) rfl).step (State.silk_touches ..) rfl)

theorem State.modDlk_touches : ∀ s n f, Touches 32768 s (State.modDlk s n f) := by
  intro s n f
  unfold State.modDlk
  exact ((State.onCap_touches ..).mono rfl)

theorem State.scxPut_touches : ∀ s c i ws, Touches 2048 s (State.scxPut s c i ws) := by
  intro s c i ws
  unfold State.scxPut
  extract_lets +onlyGivenNames old
  clear_value old
  exact ((State.onQm_touches ..).mono rfl)

theorem State.scxClaim_touches : ∀ s c kind p rt, Touches 2048 s (State.scxClaim s c kind p rt) := by
  intro s c kind p rt
  unfold State.scxClaim
  exact (((State.scxPut_touches ..).mono rfl).step (State.onQm_touches ..) rfl)

theorem State.scxFree_touches : ∀ s c, Touches 2048 s (State.scxFree s c) := by
  intro s c
  unfold State.scxFree
  exact ((State.onQm_touches ..).mono rfl)

theorem State.scxFault_touches : ∀ s c, Touches 1092 s (State.scxFault s c) := by
  intro s c
  unfold State.scxFault
  exact ((((State.count_touches ..).mono rfl).step (State.raise_touches ..) rfl).step (State.silk_touches ..) rfl)

theorem State.scxConflict_touches : ∀ s p, Touches 1092 s (State.scxConflict s p) := by
  intro s p
  unfold State.scxConflict
  exact ((((State.stateWrite_touches ..).mono rfl).step (State.count_touches ..) rfl).step (State.raise_touches ..) rfl)

end Sys2Proof.Machine
end

