-- ==== Sys2Proof/Laws/Touch/Swarm.lean ====
section
/-!
SUPPORT. What each operation of Machine/Swarm.lean may touch (see Laws/Touches.lean).
-/

-- One proof at a time bounds the threads and memory of a compile.
set_option Elab.async false

namespace Sys2Proof.Machine

open Sys2Proof

theorem State.modEng_touches : ∀ s p f, Touches 131072 s (State.modEng s p f) := by
  intro s p f
  unfold State.modEng
  exact ((State.onSwarm_touches ..).mono rfl)

theorem State.modThr_touches : ∀ s p t f, Touches 131072 s (State.modThr s p t f) := by
  intro s p t f
  unfold State.modThr
  exact ((State.onSwarm_touches ..).mono rfl)

theorem State.wdStart_touches : ∀ s p, Touches 131072 s (State.wdStart s p) := by
  intro s p
  unfold State.wdStart
  exact (Touches.ite (fun _ => Touches.refl _ _) (fun _ => ((State.modEng_touches ..).mono rfl)))

theorem State.trap_touches : ∀ s p t cause tval, Touches 132164 s (State.trap s p t cause tval) := by
  intro s p t cause tval
  unfold State.trap
  extract_lets +onlyGivenNames x
  clear_value x
  extract_lets +onlyGivenNames dead y
  clear_value y
  extract_lets +onlyGivenNames s1
  have h_s1 : Touches 132164 s s1 := (((State.wdStart_touches ..).mono rfl).step (State.modThr_touches ..) rfl)
  clear_value s1
  extract_lets +onlyGivenNames s2
  have h_s2 : Touches 132164 s s2 := (h_s1.step (State.count_touches ..) rfl)
  clear_value s2
  extract_lets +onlyGivenNames s3
  have h_s3 : Touches 132164 s s3 := (Touches.ite (fun _ => (h_s2.step (State.modEng_touches ..) rfl)) (fun _ => h_s2))
  clear_value s3
  extract_lets +onlyGivenNames s4
  have h_s4 : Touches 132164 s s4 := (Touches.ite (fun _ => ((h_s3.step (State.count_touches ..) rfl).step (State.raise_touches ..) rfl)) (fun _ => h_s3))
  clear_value s4
  exact (Touches.ite (fun _ => ((h_s4.step (State.setInt_touches ..) rfl).step (State.raise_touches ..) rfl)) (fun _ => h_s4))

theorem State.retire_touches : ∀ s p t, Touches 131072 s (State.retire s p t) := by
  intro s p t
  unfold State.retire
  extract_lets +onlyGivenNames s1
  have h_s1 : Touches 131072 s s1 := ((State.modEng_touches ..).mono rfl)
  clear_value s1
  exact (Touches.foldl h_s1 (fun _ _ h => (Touches.ite (fun _ => (h.step (State.modThr_touches ..) rfl)) (fun _ => h))))

theorem State.took_touches : ∀ s p t vector, Touches 131072 s (State.took s p t vector) := by
  intro s p t vector
  unfold State.took
  exact ((State.modEng_touches ..).mono rfl)

theorem State.issue_touches {K : Nat} {s u : State} {p t : Nat} {op : SwOp} {eff : Word → State → State} (h : Touches K s u)
    (hk : Nat.land 132164 K = 132164) (heff : ∀ w t, Touches K s t → Touches K s (eff w t)) :
    Touches K s (State.issue u p t op eff) := by
  unfold State.issue
  split
  · exact h
  extract_lets x w
  split
  · exact h
  split
  · exact h
  split
  · exact h.step (State.trap_touches ..) (land_sub rfl hk)
  · exact heff _ _ (h.step (State.took_touches ..) (land_sub rfl hk))

theorem State.done_touches : ∀ s p t f, Touches 131072 s (State.done s p t f) := by
  intro s p t f
  unfold State.done
  exact (((State.modThr_touches ..).mono rfl).step (State.retire_touches ..) rfl)

theorem State.illegal_touches : ∀ s p t w, Touches 132164 s (State.illegal s p t w) := by
  intro s p t w
  unfold State.illegal
  exact ((State.trap_touches ..).mono rfl)

theorem State.wrongState_touches : ∀ s p t w, Touches 132164 s (State.wrongState s p t w) := by
  intro s p t w
  unfold State.wrongState
  exact ((State.trap_touches ..).mono rfl)

theorem execIllegalInstruction_touches : ∀ p t e s, Ends 132164 s (execIllegalInstruction p t e s) := by
  intro p t e s
  unfold execIllegalInstruction
  refine Ends.next (Touches.ite (fun _ => Touches.refl _ _) (fun _ => ?_))
  extract_lets +onlyGivenNames x
  clear_value x
  refine (Touches.ite (fun _ => ((State.trap_touches ..).mono rfl)) (fun _ => ?_))
  extract_lets +onlyGivenNames w
  clear_value w
  extract_lets +onlyGivenNames s1
  have h_s1 : Touches 132164 s s1 := ((State.eccCount_touches ..).mono rfl)
  clear_value s1
  exact (Touches.ite (fun _ => (h_s1.step (State.trap_touches ..) rfl)) (fun _ => (Touches.ite (fun _ => (h_s1.step (State.illegal_touches ..) rfl)) (fun _ => h_s1))))

theorem State.setDpoison_touches : ∀ s p w b, Touches 131072 s (State.setDpoison s p w b) := by
  intro s p w b
  unfold State.setDpoison
  exact ((State.modEng_touches ..).mono rfl)

theorem State.dpoke_touches : ∀ s p a x3, Touches 131072 s (State.dpoke s p a x3) := by
  intro s p a x3
  induction x3 generalizing s p a
  · unfold State.dpoke
    exact Touches.refl _ _
  · rename_i ih
    unfold State.dpoke
    exact (((State.modEng_touches ..).mono rfl).step (ih ..) rfl)

theorem State.dstore_touches : ∀ s p a bs, Touches 131072 s (State.dstore s p a bs) := by
  intro s p a bs
  unfold State.dstore
  exact (Touches.foldl (Touches.refl _ _) (fun _ _ h => (Touches.ite (fun _ => ((h.step (State.setDpoison_touches ..) rfl).step (State.dpoke_touches ..) rfl)) (fun _ => (Touches.ite (fun _ => h) (fun _ => (h.step (State.dpoke_touches ..) rfl)))))))

theorem State.engStore_touches : ∀ s p a bs, Touches 140871 s (State.engStore s p a bs) := by
  intro s p a bs
  unfold State.engStore
  split
  · exact ((State.dstore_touches ..).mono rfl)
  · exact ((State.busWrite_touches ..).mono rfl)
  · exact Touches.refl _ _

theorem State.dmemErr_touches : ∀ s p e, Touches 1092 s (State.dmemErr s p e).2 := by
  intro s p e
  unfold State.dmemErr
  change Touches2 1092 s _
  extract_lets +onlyGivenNames r
  have h_r : Touches 1092 s r.2 := ((State.takeErr_touches ..).mono rfl)
  clear_value r
  exact (h_r.step (State.eccCount_touches ..) rfl)

theorem State.shmErr_touches : ∀ s k e, Touches 1604 s (State.shmErr s k e).2 := by
  intro s k e
  unfold State.shmErr
  change Touches2 1604 s _
  extract_lets +onlyGivenNames r
  have h_r : Touches 1604 s r.2 := ((State.takeErr_touches ..).mono rfl)
  clear_value r
  extract_lets +onlyGivenNames s1
  have h_s1 : Touches 1604 s s1 := (h_r.step (State.eccCount_touches ..) rfl)
  clear_value s1
  exact (Touches.ite (fun _ => (h_s1.step (State.produce_touches ..) rfl)) (fun _ => h_s1))

theorem State.engLoad_touches : ∀ s p a n e, Touches 1604 s (State.engLoad s p a n e).2 := by
  intro s p a n e
  unfold State.engLoad
  change Touches2 1604 s _
  split
  · exact Touches.refl _ _
  · split
    · exact Touches.refl _ _
    · extract_lets +onlyGivenNames r
      have h_r : Touches 1604 s r.2 := ((State.dmemErr_touches ..).mono rfl)
      clear_value r
      exact h_r
  · split
    · exact Touches.refl _ _
    · extract_lets +onlyGivenNames r
      have h_r : Touches 1604 s r.2 := ((State.shmErr_touches ..).mono rfl)
      clear_value r
      exact h_r

theorem State.reach_touches : ∀ s p t a, Touches 131072 s (State.reach s p t a) := by
  intro s p t a
  unfold State.reach
  exact (Touches.ite (fun _ => Touches.refl _ _) (fun _ => ((State.modEng_touches ..).mono rfl)))

theorem State.load_touches {K : Nat} {s u : State} {p t a n al : Nat} {e : ReadErr} {f : List Byte → State → State} (h : Touches K s u)
    (hk : Nat.land 132676 K = 132676) (hf : ∀ w t, Touches K s t → Touches K s (f w t)) :
    Touches K s (State.load u p t a n al e f) := by
  have ht : ∀ {v} {c : Nat} {x : Word}, Touches K s v → Touches K s (v.trap p t c x) := fun hv =>
    hv.step (State.trap_touches ..) (land_sub rfl hk)
  unfold State.load
  split
  · exact ht h
  extract_lets r
  have hr : Touches K s r.2 :=
    (h.step (State.reach_touches ..) (land_sub rfl hk)).step (State.engLoad_touches ..) (land_sub rfl hk)
  clear_value r
  split
  · exact hf _ _ hr
  · exact ht hr

theorem State.store_touches {K : Nat} {s u : State} {p t a al : Nat} {bs : List Byte} {f : State → State} (h : Touches K s u)
    (hk : Nat.land 140871 K = 140871) (hf : ∀ t, Touches K s t → Touches K s (f t)) :
    Touches K s (State.store u p t a al bs f) := by
  have ht : ∀ {v} {c : Nat} {x : Word}, Touches K s v → Touches K s (v.trap p t c x) := fun hv =>
    hv.step (State.trap_touches ..) (land_sub rfl hk)
  unfold State.store
  split
  · exact ht h
  split
  · exact ht h
  · exact hf _ (h.step (State.engStore_touches ..) (land_sub rfl hk))

theorem State.reissueItem_touches : ∀ s p t visible, Touches 142919 s (State.reissueItem s p t visible) := by
  intro s p t visible
  unfold State.reissueItem
  split
  · exact Touches.refl _ _
  · extract_lets +onlyGivenNames s1
    have h_s1 : Touches 142919 s s1 := (Touches.ite (fun _ => ((State.holdReissue_touches ..).mono rfl)) (fun _ => Touches.refl _ _))
    clear_value s1
    exact (h_s1.step (State.modThr_touches ..) rfl)

theorem State.idle_touches : ∀ s p t, Touches 133120 s (State.idle s p t) := by
  intro s p t
  unfold State.idle
  exact (((State.modThr_touches ..).mono rfl).step (State.onQm_touches ..) rfl)

theorem State.waitFor_touches : ∀ s p t w, Touches 131072 s (State.waitFor s p t w) := by
  intro s p t w
  unfold State.waitFor
  exact ((State.modThr_touches ..).mono rfl)

theorem State.resume_touches : ∀ s p t f, Touches 131072 s (State.resume s p t f) := by
  intro s p t f
  unfold State.resume
  exact (((State.modThr_touches ..).mono rfl).step (State.retire_touches ..) rfl)

end Sys2Proof.Machine
end

