-- ==== Sys2Proof/Laws/Swarm.lean ====
section
/-!
SUPPORT. Swarm threads: what issuing an instruction does, what its completion does to the thread and to the others.
-/

-- One proof at a time bounds the threads and memory of a compile.
set_option Elab.async false

namespace Sys2Proof.Machine

open Sys2Proof

/-- A ready thread carries out its instruction. -/
theorem State.issue_ready {s : State} {p t : Nat} {w : Word} {op : SwOp} (h : s.Ready p t w op) (eff : Word → State → State) :
    s.issue p t op eff = eff w (s.took p t (swVector w)) := by
  obtain ⟨h1, h2, h3, h4, h5⟩ := h
  unfold State.issue
  rw [h1]
  simp only [Bool.not_true, Bool.false_eq_true, if_false]
  rw [if_neg (by omega), h3, if_neg (by simp [h4]), if_neg h5]

theorem State.Ready.lt {s : State} {p t : Nat} {w : Word} {op : SwOp} (h : s.Ready p t w op) : t < 4 := by
  have := h.1
  simp only [State.canIssue, Bool.and_eq_true, decide_eq_true_eq] at this
  exact this.1.1.1.2

/-! ## Threads and engines -/

@[simp] theorem State.thr_modThr (s : State) (p t : Nat) (f : Thread → Thread) : (s.modThr p t f).thr p t = f (s.thr p t) := by
  simp [State.thr, State.modThr]

theorem State.thr_modThr_other {s : State} {p t q i : Nat} {f : Thread → Thread} (ht : t < 4) (hi : i < 4) (h : ¬ (q = p ∧ i = t)) :
    (s.modThr p t f).thr q i = s.thr q i := by
  unfold State.thr State.modThr
  rw [State.onSwarm_swarm]
  exact Map.get_put_other _ _ _ (by omega)

@[simp] theorem State.eng_modThr (s : State) (p t q : Nat) (f : Thread → Thread) : (s.modThr p t f).eng q = s.eng q := rfl
@[simp] theorem State.thr_modEng (s : State) (p q i : Nat) (f : Engine → Engine) : (s.modEng p f).thr q i = s.thr q i := rfl
@[simp] theorem State.eng_modEng (s : State) (p : Nat) (f : Engine → Engine) : (s.modEng p f).eng p = f (s.eng p) := by
  simp [State.eng, State.modEng]

theorem State.eng_modEng_other {s : State} {p q : Nat} {f : Engine → Engine} (h : q ≠ p) : (s.modEng p f).eng q = s.eng q := by
  unfold State.eng State.modEng
  rw [State.onSwarm_swarm]
  exact Map.get_put_other _ _ _ h

theorem State.thr_congr {s u : State} (h : u.swarm = s.swarm) (p t : Nat) : u.thr p t = s.thr p t := by unfold State.thr; rw [h]
theorem State.eng_congr {s u : State} (h : u.swarm = s.swarm) (p : Nat) : u.eng p = s.eng p := by unfold State.eng; rw [h]

/-! ## Completion -/

theorem State.ThreadOnly.refl (s : State) (p t : Nat) : State.ThreadOnly s s p t :=
  ⟨rfl, rfl, fun _ _ => rfl, rfl, rfl, rfl, fun q i _ _ => ⟨(s.thr q i).yielded, rfl⟩⟩

theorem State.ThreadOnly.trans {s u v : State} {p t : Nat} (h : State.ThreadOnly s u p t) (g : State.ThreadOnly u v p t) :
    State.ThreadOnly s v p t := by
  obtain ⟨h1, h2, h3, h4, h5, h6, h7⟩ := h
  obtain ⟨g1, g2, g3, g4, g5, g6, g7⟩ := g
  refine ⟨?_, g2.trans h2, fun q hq => (g3 q hq).trans (h3 q hq), g4.trans h4, g5.trans h5, g6.trans h6, fun q i hi hn => ?_⟩
  · rw [g1, h1]
  · obtain ⟨l, hl⟩ := h7 q i hi hn
    obtain ⟨k, hk⟩ := g7 q i hi hn
    exact ⟨k, by rw [hk, hl]⟩

theorem State.threadOnly_modThr (s : State) (p t : Nat) (f : Thread → Thread) (ht : t < 4) :
    State.ThreadOnly s (s.modThr p t f) p t := by
  refine ⟨rfl, rfl, fun _ _ => rfl, rfl, rfl, rfl, fun q i hi hn => ⟨(s.thr q i).yielded, ?_⟩⟩
  rw [State.thr_modThr_other ht hi hn]

/-- One thread's list of awaited threads changes: the thread is as it was beside it. -/
theorem State.thr_unyield (s : State) (p t i q j : Nat) (hi : i < 4) (hj : j < 4) :
    ∃ l, (if (s.thr p i).yielded.contains t then s.modThr p i fun x => { x with yielded := x.yielded.filter (· != t) } else s).thr q j
      = { s.thr q j with yielded := l } := by
  split
  · by_cases h : q = p ∧ j = i
    · obtain ⟨rfl, rfl⟩ := h
      exact ⟨_, by rw [State.thr_modThr]⟩
    · exact ⟨(s.thr q j).yielded, by rw [State.thr_modThr_other hi hj h]⟩
  · exact ⟨(s.thr q j).yielded, rfl⟩

/-- What a change of threads alone leaves: the state but the Swarm, the loads in progress, the engines, and of the threads all
but the lists of awaited threads. -/
def State.YieldsOnly (s u : State) : Prop :=
  (∃ e, u = { s with swarm := e }) ∧ u.swarm.load = s.swarm.load ∧ u.swarm.eng = s.swarm.eng ∧
    ∀ q i, i < 4 → ∃ l, u.thr q i = { s.thr q i with yielded := l }

theorem State.yieldsOnly_unyield (s : State) (p t i : Nat) (hi : i < 4) :
    State.YieldsOnly s (if (s.thr p i).yielded.contains t then s.modThr p i fun x => { x with yielded := x.yielded.filter (· != t) } else s) := by
  refine ⟨?_, ?_, ?_, fun q j hj => State.thr_unyield s p t i q j hi hj⟩
  · split
    · exact ⟨_, rfl⟩
    · exact ⟨s.swarm, rfl⟩
  · split <;> rfl
  · split <;> rfl

theorem State.YieldsOnly.trans {s u v : State} (h : State.YieldsOnly s u) (g : State.YieldsOnly u v) : State.YieldsOnly s v := by
  obtain ⟨⟨e, rfl⟩, h2, h3, h4⟩ := h
  obtain ⟨⟨e', rfl⟩, g2, g3, g4⟩ := g
  refine ⟨⟨e', rfl⟩, g2.trans h2, g3.trans h3, fun q i hi => ?_⟩
  obtain ⟨l, hl⟩ := h4 q i hi
  obtain ⟨k, hk⟩ := g4 q i hi
  exact ⟨k, by rw [hk, hl]⟩

theorem State.yieldsOnly_fold (p t : Nat) (l : List Nat) (s : State) (hl : ∀ i ∈ l, i < 4) :
    State.YieldsOnly s (l.foldl (fun u i =>
      if (u.thr p i).yielded.contains t then u.modThr p i fun x => { x with yielded := x.yielded.filter (· != t) } else u) s) := by
  induction l generalizing s with
  | nil => exact ⟨⟨s.swarm, rfl⟩, rfl, rfl, fun q i _ => ⟨(s.thr q i).yielded, rfl⟩⟩
  | cons j l ih =>
    rw [List.foldl_cons]
    exact (State.yieldsOnly_unyield s p t j (hl j (List.mem_cons_self ..))).trans (ih _ fun i hi => hl i (List.mem_cons_of_mem _ hi))

/-- An instruction that retires changes, of the threads, their lists of awaited threads alone, and of the engine its counts. -/
theorem State.retire_spec (s : State) (p t : Nat) :
    (∃ e, s.retire p t = { s with swarm := e }) ∧ (s.retire p t).swarm.load = s.swarm.load ∧
    (∀ q, q ≠ p → (s.retire p t).eng q = s.eng q) ∧
    (s.retire p t).eng p = { s.eng p with retired := ((s.eng p).retired + 1) % 2 ^ 64, lastRetire := s.engTime p } ∧
    ∀ q i, i < 4 → ∃ l, (s.retire p t).thr q i = { s.thr q i with yielded := l } := by
  obtain ⟨s1, hs1⟩ : ∃ s1, s1 = s.modEng p fun e =>
    { e with retired := (e.retired + 1) % 2 ^ 64, lastRetire := s.engTime p } := ⟨_, rfl⟩
  have h := State.yieldsOnly_fold p t (List.range 4) s1 (by simp)
  have e : s.retire p t = (List.range 4).foldl (fun u i =>
      if (u.thr p i).yielded.contains t then u.modThr p i fun x => { x with yielded := x.yielded.filter (· != t) } else u) s1 := by
    subst hs1; rfl
  rw [← e] at h
  obtain ⟨⟨x, h1⟩, h2, h3, h4⟩ := h
  have heng : ∀ q, (s.retire p t).eng q = s1.eng q := fun q => by unfold State.eng; rw [h3]
  refine ⟨⟨x, ?_⟩, ?_, fun q hq => ?_, ?_, fun q i hi => ?_⟩
  · rw [h1, hs1]; rfl
  · rw [h2, hs1]; rfl
  · rw [heng, hs1, State.eng_modEng_other hq]
  · rw [heng, hs1, State.eng_modEng]
  · obtain ⟨l, hl⟩ := h4 q i hi
    exact ⟨l, by rw [hl, hs1, State.thr_modEng]⟩

theorem State.threadOnly_retire (s : State) (p t : Nat) : State.ThreadOnly s (s.retire p t) p t := by
  obtain ⟨⟨e, he⟩, a2, a3, a4, a5⟩ := State.retire_spec s p t
  refine ⟨?_, a2, a3, by rw [a4], by rw [a4], by rw [a4], fun q i hi _ => a5 q i hi⟩
  rw [he]

/-- Taking the slot changes the engine's issue record alone. -/
@[simp] theorem State.thr_took (s : State) (p t q i : Nat) (v : Bool) : (s.took p t v).thr q i = s.thr q i := rfl

theorem State.threadOnly_took (s : State) (p t : Nat) (v : Bool) : State.ThreadOnly s (s.took p t v) p t := by
  refine ⟨rfl, rfl, fun q hq => State.eng_modEng_other hq, ?_, ?_, ?_, fun q i _ _ => ⟨(s.thr q i).yielded, rfl⟩⟩ <;>
    rw [State.took, State.eng_modEng]

/-- An instruction that completes in order: the thread is `f` of what it was, past the instruction; all else is left alone. -/
theorem State.done_spec (s : State) (p t : Nat) (f : Thread → Thread) (ht : t < 4) :
    (∃ l, (s.done p t f).thr p t = { (f (s.thr p t)).step with yielded := l }) ∧ State.ThreadOnly s (s.done p t f) p t := by
  constructor
  · obtain ⟨-, -, -, -, a5⟩ := State.retire_spec (s.modThr p t fun x => (f x).step) p t
    obtain ⟨l, hl⟩ := a5 p t ht
    exact ⟨l, by rw [State.thr_modThr] at hl; exact hl⟩
  · exact (State.threadOnly_modThr s p t _ ht).trans (State.threadOnly_retire _ p t)

/-! ## Registers of a thread -/

theorem Thread.next_regs (n : Nat) (x : Thread) (a : Nat) : ∃ d c, (Thread.next n x a) = { x with pc := (Thread.next n x a).pc, depth := d, lcount := c } := by
  induction n generalizing x with
  | zero => exact ⟨x.depth, x.lcount, rfl⟩
  | succ n ih =>
    unfold Thread.next
    split
    · exact ⟨x.depth, x.lcount, rfl⟩
    dsimp only
    split
    · exact ⟨x.depth, x.lcount, rfl⟩
    split
    · exact ⟨x.depth, _, rfl⟩
    · obtain ⟨d, c, h⟩ := ih { x with depth := x.depth - 1, lcount := Map.put (fun _ => 0) x.lcount (x.depth - 1) 0 }
      refine ⟨d, c, ?_⟩
      rw [h]

/-- Moving past an instruction changes the PC and the loop registers alone. -/
theorem Thread.step_regs (x : Thread) : ∃ d c, x.step = { x with pc := x.step.pc, depth := d, lcount := c } := Thread.next_regs 2 x x.pc

/-- Outside a hardware loop the PC moves by one word. -/
theorem Thread.step_pc (x : Thread) (h : x.depth = 0) : x.step = { x with pc := x.pc + 4 } := by
  unfold Thread.step Thread.next
  rw [if_pos h]

@[simp] theorem Thread.sget_sput (x : Thread) (i : Nat) (v : Word) : (x.sput i v).sget i = if i = 0 then 0 else v := by
  unfold Thread.sget Thread.sput
  split
  · rfl
  · simp

theorem Thread.sget_sput_other {x : Thread} {i j : Nat} {v : Word} (h : j ≠ i) : (x.sput i v).sget j = x.sget j := by
  unfold Thread.sget Thread.sput
  split
  · rfl
  · split
    · rfl
    · exact Map.get_put_other _ _ _ h

end Sys2Proof.Machine
end

