-- ==== Sys2Proof/Laws/SwarmWords.lean ====
section
/-!
SUPPORT. The Swarm's results as bit vectors and lanes: the word operations, the lanes of a register, and what an instruction that
completes in order leaves.
-/

-- One proof at a time bounds the threads and memory of a compile.
set_option Elab.async false

namespace Sys2Proof.Machine

open Sys2Proof

/-! ## Completion -/

/-- An instruction that completes in order with the thread `f`. -/
theorem State.retires_done {s : State} {c : Instr} {p t : Nat} {w : Word} {op : SwOp} {f : Thread → Thread}
    {eff : Word → State → State} {y : Thread} (h : s.Ready p t w op) (he : exec c s = .next (s.issue p t op eff))
    (hd : eff w (s.took p t (swVector w)) = (s.took p t (swVector w)).done p t f) (hy : f (s.thr p t) = y) : s.Retires c p t y.step := by
  subst hy
  obtain ⟨hl, ho⟩ := State.done_spec (s.took p t (swVector w)) p t f h.lt
  exact ⟨_, by rw [he, State.issue_ready h, hd], hl, (State.threadOnly_took s p t _).trans ho⟩

/-- An instruction that goes elsewhere. -/
theorem State.retires_of {s : State} {c : Instr} {p t : Nat} {w : Word} {op : SwOp} {f : Thread → Thread}
    {eff : Word → State → State} {y : Thread} (h : s.Ready p t w op) (he : exec c s = .next (s.issue p t op eff))
    (hd : eff w (s.took p t (swVector w)) = ((s.took p t (swVector w)).modThr p t f).retire p t) (hy : f (s.thr p t) = y) : s.Retires c p t y := by
  subst hy
  obtain ⟨-, -, -, -, a5⟩ := State.retire_spec ((s.took p t (swVector w)).modThr p t f) p t
  obtain ⟨l, hl⟩ := a5 p t h.lt
  refine ⟨_, by rw [he, State.issue_ready h, hd], ⟨l, by rw [State.thr_modThr] at hl; exact hl⟩, ?_⟩
  exact ((State.threadOnly_took s p t _).trans (State.threadOnly_modThr _ p t f h.lt)).trans (State.threadOnly_retire _ p t)

/-! ## Words -/

theorem signed32 (a : Word) : signed 32 a.toNat = a.toInt := by
  unfold signed; rw [BitVec.toInt_eq_toNat_cond]; have := a.isLt
  rw [Nat.mod_eq_of_lt this]; split <;> split <;> omega

theorem signed_toInt (n : Nat) (hn : 0 < n) (a : BitVec n) : signed n a.toNat = a.toInt := by
  unfold signed; rw [BitVec.toInt_eq_toNat_cond]; have := a.isLt
  rw [Nat.mod_eq_of_lt this]
  obtain ⟨k, rfl⟩ : ∃ k, n = k + 1 := ⟨n - 1, by omega⟩
  have e : 2 ^ (k + 1) = 2 * 2 ^ k := by ring
  simp only [Nat.add_sub_cancel]
  split <;> split <;> first | rfl | omega

theorem wd_unsigned (z : Int) : wd (unsigned 32 z) = BitVec.ofInt 32 z := by
  unfold wd unsigned
  apply BitVec.eq_of_toNat_eq
  simp [BitVec.toNat_ofInt]
  omega

theorem sll_eq (a : Word) (k : Nat) : wd (a.toNat * 2 ^ k) = a <<< k := by
  apply BitVec.eq_of_toNat_eq; simp [wd, Nat.shiftLeft_eq]
theorem srl_eq (a : Word) (k : Nat) : wd (a.toNat / 2 ^ k) = a >>> k := by
  apply BitVec.eq_of_toNat_eq; simp [wd, Nat.shiftRight_eq_div_pow]
  have := a.isLt; exact lt_of_le_of_lt (Nat.div_le_self _ _) this
theorem sraW_eq (a : Word) (k : Nat) : sraW a k = a.sshiftRight k := by
  unfold sraW; rw [wd_unsigned, signed32]
  apply BitVec.eq_of_toInt_eq
  rw [BitVec.toInt_sshiftRight, BitVec.toInt_ofInt, Int.shiftRight_eq_div_pow]
  have h1 := a.toInt_lt; have h2 := a.le_toInt
  have : (2:Int)^k > 0 := by positivity
  apply Int.bmod_eq_of_le
  · norm_num at h2 ⊢
    apply Int.le_ediv_of_mul_le this
    nlinarith
  · norm_num at h1 ⊢
    have h3 : a.toInt / 2^k ≤ max 0 a.toInt := by
      by_cases h0 : 0 ≤ a.toInt
      · exact le_trans (Int.ediv_le_self _ h0) (le_max_right ..)
      · exact le_trans (Int.ediv_nonpos_of_nonpos_of_neg (by omega) this |> fun h => h) (le_max_left ..)
    omega
theorem bw_eq (b : Bool) : bw b = oneIf b := by cases b <;> rfl
theorem sltW_eq (a b : Word) : sltW a b = a.slt b := by
  unfold sltW; rw [signed32, signed32, BitVec.slt]
theorem ultW_eq (a b : Word) : ultW a b = a.ult b := by
  simp [ultW, BitVec.ult]

theorem immS_eq (w : Word) : sextImm w = immS w := by
  unfold sextImm immS fImm
  rw [wd_unsigned]
  have : wfld w 0 16 = (w.setWidth 16).toNat := by simp [wfld]
  rw [this, signed_toInt 16 (by omega)]
  rfl
theorem immU_eq (w : Word) : wd (fImm w) = immU w := by
  apply BitVec.eq_of_toNat_eq; simp [wd, fImm, immU, wfld]
theorem sext_eq (n : Nat) (hn : 0 < n) (a : Word) : wd (unsigned 32 (signed n a.toNat)) = (a.setWidth n).signExtend 32 := by
  rw [wd_unsigned]
  have : signed n a.toNat = (a.setWidth n).toInt := by
    rw [← signed_toInt n hn]; simp [signed]
  rw [this]; rfl
theorem mulh_eq (a b : Word) : wd (unsigned 32 (signed 32 a.toNat * signed 32 b.toNat / 2 ^ 32)) =
    (a.signExtend 64 * b.signExtend 64).extractLsb' 32 32 := by
  rw [wd_unsigned, signed32, signed32]
  apply BitVec.eq_of_toNat_eq
  rw [BitVec.toNat_ofInt, BitVec.extractLsb'_toNat]
  have h : ((a.signExtend 64 * b.signExtend 64).toNat : Int) = (a.toInt * b.toInt) % 2 ^ 64 := by
    have : a.signExtend 64 * b.signExtend 64 = BitVec.ofInt 64 (a.toInt * b.toInt) := by
      rw [BitVec.ofInt_mul]; rfl
    rw [this, BitVec.toNat_ofInt]
    rw [Int.toNat_of_nonneg (Int.emod_nonneg _ (by norm_num))]; rfl
  have e : (a.signExtend 64 * b.signExtend 64).toNat >>> 32 % 2 ^ 32 = ((((a.toInt * b.toInt) % 2 ^ 64) / 2 ^ 32) % 2^32).toNat := by
    rw [← h, Nat.shiftRight_eq_div_pow]; norm_cast
  rw [e]
  congr 1
  norm_num
  omega
theorem mulhu_eq (a b : Word) : wd (a.toNat * b.toNat / 2 ^ 32) = (a.setWidth 64 * b.setWidth 64).extractLsb' 32 32 := by
  apply BitVec.eq_of_toNat_eq
  rw [BitVec.extractLsb'_toNat, Nat.shiftRight_eq_div_pow]
  have h1 := a.isLt
  have h2 := b.isLt
  have : a.toNat * b.toNat < 2 ^ 64 := by nlinarith
  simp [wd]
  omega
theorem takeWhile_range {n k : Nat} {f : Nat → Bool} (h : ∀ i, i < k → f i = true) (hk : k < n) (hf : f k = false) :
    ((List.range n).takeWhile f).length = k := by
  have e : List.range n = List.range k ++ k :: (List.range (n - k - 1)).map (k + 1 + ·) := by
    have h1 : List.range n = List.range k ++ (List.range (n - k)).map (k + ·) := by
      rw [← List.range_add]; congr 1; omega
    rw [h1]
    congr 1
    obtain ⟨j, hj⟩ : ∃ j, n - k = j + 1 := ⟨n - k - 1, by omega⟩
    rw [hj, List.range_succ_eq_map]
    simp
    intro a _; omega
  rw [e, List.takeWhile_append_of_pos (by simpa using h), List.takeWhile_cons_of_neg (by simp [hf])]
  simp
theorem clz_eq (a : Word) : wd (clz32 a) = BitVec.ofNat 32 (leadingZeros a) := by
  unfold clz32 leadingZeros
  by_cases h : a = 0
  · subst h; decide
  rw [if_neg h]
  have h0 : a.toNat ≠ 0 := fun e => h (BitVec.eq_of_toNat_eq (by simpa using e))
  have hl : a.toNat.log2 < 32 := (Nat.log2_lt h0).2 a.isLt
  rw [takeWhile_range (k := 31 - a.toNat.log2)]
  · rfl
  · intro i hi
    have : a.toNat < 2 ^ (31 - i) := (Nat.log2_lt h0).1 (by omega)
    simp [BitVec.getLsbD, Nat.testBit_lt_two_pow this]
  · omega
  · have e : 31 - (31 - a.toNat.log2) = a.toNat.log2 := by omega
    rw [e]
    simp only [BitVec.getLsbD, Bool.not_eq_false']
    have h1 := Nat.log2_self_le h0
    have h2 : a.toNat < 2 ^ (a.toNat.log2 + 1) := Nat.lt_log2_self
    rw [Nat.testBit_eq_decide_div_mod_eq]
    have : a.toNat / 2 ^ a.toNat.log2 = 1 := by
      apply Nat.div_eq_of_lt_le <;> rw [pow_succ] at * <;> omega
    simp [this]
theorem popc_eq (a : Word) : wd (popCount a.toNat 32) = BitVec.ofNat 32 (setBits a) := by
  unfold popCount setBits; rw [← List.countP_eq_length_filter]; rfl
theorem ror_eq (a : Word) (k : Nat) (hk : k < 32) : wd (a.toNat / 2 ^ k + a.toNat * 2 ^ (32 - k)) = a.rotateRight k := by
  apply BitVec.eq_of_getLsbD_eq
  intro i hi
  rw [BitVec.getLsbD_rotateRight, Nat.mod_eq_of_lt hk]
  have ha := a.isLt
  have hb : a.toNat / 2 ^ k < 2 ^ (32 - k) := by
    rw [Nat.div_lt_iff_lt_mul (by positivity), ← pow_add]
    rwa [show 32 - k + k = 32 by omega]
  have e : (wd (a.toNat / 2 ^ k + a.toNat * 2 ^ (32 - k))).getLsbD i = (a.toNat / 2 ^ k + a.toNat * 2 ^ (32 - k)).testBit i := by
    unfold wd; rw [BitVec.getLsbD_ofNat]; simp [hi]
  rw [e, Nat.add_comm, Nat.mul_comm, Nat.testBit_two_pow_mul_add _ hb]
  by_cases h : i < 32 - k
  · rw [if_pos h, Nat.testBit_div_two_pow]; simp [BitVec.getLsbD, Nat.add_comm, h]
  · rw [if_neg h]; simp [BitVec.getLsbD, hi, h]
theorem shi_eq (w a : Word) : (match wfld w 5 2 with
    | 0 => wd (a.toNat * 2 ^ wfld w 0 5)
    | 1 => wd (a.toNat / 2 ^ wfld w 0 5)
    | 2 => sraW a (wfld w 0 5)
    | _ => wd (a.toNat / 2 ^ wfld w 0 5 + a.toNat * 2 ^ (32 - wfld w 0 5))) = shiVal w a := by
  have h1 : (w.extractLsb' 0 5).toNat = wfld w 0 5 := by simp [wfld]
  have h2 : (w.extractLsb' 5 2).toNat = wfld w 5 2 := by simp [wfld, Nat.shiftRight_eq_div_pow]
  unfold shiVal
  rw [h1, h2, ror_eq a _ (wfld_lt w 0 5)]
  simp only [sll_eq, srl_eq, sraW_eq] <;> rfl

theorem lui_eq (w : Word) : wd (fImm w * 65536) = w <<< 16 := by
  apply BitVec.eq_of_toNat_eq; simp [wd, fImm, wfld, Nat.shiftLeft_eq]; omega


theorem min_eq (a b : Word) : (if b.slt a then b else a) = if a.slt b then a else b := by
  simp only [BitVec.slt, decide_eq_true_eq]
  split <;> split <;> first | rfl | omega | (apply BitVec.eq_of_toInt_eq; omega)
theorem minu_eq (a b : Word) : (if b.ult a then b else a) = if a.ult b then a else b := by
  simp only [BitVec.ult, decide_eq_true_eq]
  split <;> split <;> first | rfl | omega | (apply BitVec.eq_of_toNat_eq; omega)

theorem goto_eq (x : Thread) (z : Int) (a : Word) (h : a = BitVec.ofInt 32 z) : x.goto (unsigned 32 z) = x.goto a.toNat := by
  subst h
  unfold Thread.goto unsigned
  congr 1

theorem branch_target (x : Thread) (pc : Nat) (w : Word) : x.goto (unsigned 32 ((pc : Int) + 4 * signed 16 (fImm w))) =
    x.goto (BitVec.ofNat 32 pc + 4 * immS w).toNat := by
  apply goto_eq
  have h : signed 16 (fImm w) = (w.setWidth 16).toInt := by
    have : fImm w = (w.setWidth 16).toNat := by simp [wfld, fImm]
    rw [this, signed_toInt 16 (by omega)]
  rw [h, BitVec.ofInt_add, BitVec.ofInt_mul]
  rfl

/-! ## Lanes -/

theorem getD_map_range {α : Type} (n i : Nat) (f : Nat → α) (d : α) (h : i < n) : ((List.range n).map f).getD i d = f i := by
  simp [List.getD_eq_getElem?_getD, h]

theorem vget_length (x : Thread) (i : Nat) : (x.vget i).length = 16 := by
  simp [Thread.vget, fit]; omega

theorem aget_length (x : Thread) (i : Nat) : (x.aget i).length = 32 := by
  simp [Thread.aget, fit]; omega

theorem lanesH_length (v : Words) : (lanesH v).length = 2 * v.length := by
  induction v with
  | nil => rfl
  | cons a v ih => simp only [lanesH, List.flatMap_cons] at ih ⊢; simp [ih]; omega

theorem lanesH_getD (v : Words) (i : Nat) : (lanesH v).getD i 0 = (vlane 16 v i).toNat := by
  induction v generalizing i with
  | nil => simp [lanesH, vlane, wordAt]
  | cons a v ih =>
    match i with
    | 0 => simp [lanesH, vlane, wordAt, wfld]
    | 1 => simp [lanesH, vlane, wordAt, wfld]
    | i + 2 =>
      have e : (lanesH (a :: v)).getD (i + 2) 0 = (lanesH v).getD i 0 := by simp [lanesH]
      rw [e, ih]
      have h1 : (i + 2) * 16 / 32 = i * 16 / 32 + 1 := by omega
      have h2 : (i + 2) * 16 % 32 = i * 16 % 32 := by omega
      simp [vlane, wordAt, h1, h2]

theorem lanesW_getD (v : Words) (i : Nat) : (lanesW v).getD i 0 = (vlane 32 v i).toNat := by
  have h1 : i * 32 / 32 = i := by omega
  have h2 : i * 32 % 32 = 0 := by omega
  simp only [vlane, wordAt, h1, h2, lanesW, List.getD_eq_getElem?_getD, List.getElem?_map]
  cases v[i]? <;> simp

theorem laneBits_type (w : Word) : laneBits (fType w) = typeBits w := rfl

theorem lanes_length (ty : Nat) (v : Words) (h : v.length = 16) : (lanes ty v).length = 512 / laneBits ty := by
  unfold lanes laneBits; split
  · rw [lanesH_length, h]
  · simp [lanesW, h]

theorem lanes_getD (ty : Nat) (v : Words) (i : Nat) : (lanes ty v).getD i 0 = (vlane (laneBits ty) v i).toNat := by
  by_cases h : ty = 0
  · subst h; exact lanesH_getD v i
  · have e : laneBits ty = 32 := by simp [laneBits, h]
    rw [e]; simp only [lanes, h, if_false]; exact lanesW_getD v i

theorem ofLanesH_lane (l : List Nat) (i : Nat) (he : l.length % 2 = 0) : vlane 16 (ofLanesH l) i = BitVec.ofNat 16 (l.getD i 0) := by
  induction l using ofLanesH.induct generalizing i with
  | case1 a b t ih =>
    simp only [List.length_cons] at he
    match i with
    | 0 => 
      apply BitVec.eq_of_toNat_eq
      simp [ofLanesH, vlane, wordAt, wd]
    | 1 =>
      apply BitVec.eq_of_toNat_eq
      simp [ofLanesH, vlane, wordAt, wd]; omega
    | i + 2 =>
      have h1 : (i + 2) * 16 / 32 = i * 16 / 32 + 1 := by omega
      have h2 : (i + 2) * 16 % 32 = i * 16 % 32 := by omega
      have := ih i (by omega)
      simp only [vlane, wordAt, List.getD_eq_getElem?_getD] at this
      simp [ofLanesH, vlane, wordAt, h1, h2]
      simpa using this
  | case2 l h =>
    match l, h with
    | [], _ => simp [ofLanesH, vlane, wordAt]
    | [a], _ => simp at he
    | a :: b :: t, h => exact absurd rfl (h a b t)

theorem ofLanesW_lane (l : List Nat) (i : Nat) : vlane 32 (ofLanesW l) i = BitVec.ofNat 32 (l.getD i 0) := by
  have h1 : i * 32 / 32 = i := by omega
  have h2 : i * 32 % 32 = 0 := by omega
  simp only [vlane, wordAt, h1, h2, ofLanesW, List.getD_eq_getElem?_getD, List.getElem?_map]
  cases l[i]? with
  | none => simp
  | some a => apply BitVec.eq_of_toNat_eq; simp [wd]

theorem ofLanes_lane (ty : Nat) (l : List Nat) (i : Nat) (h : l.length = 512 / laneBits ty) :
    vlane (laneBits ty) (ofLanes ty l) i = BitVec.ofNat (laneBits ty) (l.getD i 0) := by
  by_cases h0 : ty = 0
  · subst h0; exact ofLanesH_lane l i (by rw [h]; rfl)
  · have e : laneBits ty = 32 := by simp [laneBits, h0]
    rw [e]; simp only [ofLanes, h0, if_false]; exact ofLanesW_lane l i

theorem maskLanes_getD (m : Word) (old new : List Nat) (i : Nat) (h : i < old.length) :
    (maskLanes m old new).getD i 0 = if bitAt m i then new.getD i 0 else old.getD i 0 := getD_map_range _ _ _ _ h

theorem laneBits_cases (ty : Nat) : laneBits ty = 16 ∨ laneBits ty = 32 := by unfold laneBits; split <;> simp

/-- A masked write of v_D, lane by lane. -/
theorem vmask_lane (x : Thread) (w : Word) (ty : Nat) (new : List Nat) (i : Nat) (hi : i < 512 / laneBits ty) :
    vlane (laneBits ty) (ofLanes ty (maskLanes (x.mget (fM w)) (lanes ty (x.vget (fD w))) new)) i =
      if bitAt (x.mget (fM w)) i then BitVec.ofNat (laneBits ty) (new.getD i 0) else laneD w x (laneBits ty) i := by
  have hl := lanes_length ty _ (vget_length x (fD w))
  rw [ofLanes_lane _ _ _ (by simp [maskLanes, hl]), maskLanes_getD _ _ _ _ (by rw [hl]; exact hi)]
  split
  · rfl
  · rw [lanes_getD]; simp [laneD]

theorem zipWith_getD (f : Nat → Nat → Nat) (a b : List Nat) (i : Nat) (ha : i < a.length) (hb : i < b.length) :
    (List.zipWith f a b).getD i 0 = f (a.getD i 0) (b.getD i 0) := by
  simp [List.getD_eq_getElem?_getD, ha, hb]

theorem ofNat_lane (n : Nat) (z : Int) : BitVec.ofNat n (unsigned n z) = BitVec.ofInt n z := by
  unfold unsigned
  apply BitVec.eq_of_toNat_eq
  rw [BitVec.toNat_ofNat, BitVec.toNat_ofInt]
  apply Nat.mod_eq_of_lt
  have h1 := Int.emod_lt_of_pos z (b := ((2 ^ n : Nat) : Int)) (by positivity)
  have h2 := Int.emod_nonneg z (b := ((2 ^ n : Nat) : Int)) (by positivity)
  omega

theorem laneBits_pos (ty : Nat) : 0 < laneBits ty := by rcases laneBits_cases ty with h | h <;> omega
theorem sg_lane (ty : Nat) (a : BitVec (laneBits ty)) : sg (laneBits ty) a.toNat = a.toInt := signed_toInt _ (laneBits_pos ty) a

theorem sat_lane (ty : Nat) (z : Int) : BitVec.ofNat (laneBits ty) (lsat (laneBits ty) z) = satLane (laneBits ty) z := by
  unfold lsat satLane satS; rw [ofNat_lane]


end Sys2Proof.Machine
end

