-- ==== Sys2Proof/Laws/Touch/Compose.lean ====
section
/-!
SUPPORT. What each operation of Machine/Compose.lean may touch (see Laws/Touches.lean).
-/

-- One proof at a time bounds the threads and memory of a compile.
set_option Elab.async false

namespace Sys2Proof.Machine

open Sys2Proof

theorem State.modHead_touches : ∀ s n f, Touches 524288 s (State.modHead s n f) := by
  intro s n f
  unfold State.modHead
  exact ((State.onDisp_touches ..).mono rfl)

theorem State.modLayer_touches : ∀ s n l f, Touches 524288 s (State.modLayer s n l f) := by
  intro s n l f
  unfold State.modLayer
  exact ((State.modHead_touches ..).mono rfl)

end Sys2Proof.Machine
end

