-- ==== Sys2Proof/Laws/Touch/Rulers.lean ====
section
/-!
SUPPORT. What each operation of Machine/Rulers.lean may touch (see Laws/Touches.lean).
-/

-- One proof at a time bounds the threads and memory of a compile.
set_option Elab.async false

namespace Sys2Proof.Machine

open Sys2Proof

theorem State.modDist_touches : ∀ s d f, Touches 256 s (State.modDist s d f) := by
  intro s d f
  unfold State.modDist
  exact ((State.onTb_touches ..).mono rfl)

theorem State.modPhase_touches : ∀ s p f, Touches 256 s (State.modPhase s p f) := by
  intro s p f
  unfold State.modPhase
  exact ((State.onTb_touches ..).mono rfl)

theorem State.modLine_touches : ∀ s n f, Touches 256 s (State.modLine s n f) := by
  intro s n f
  unfold State.modLine
  exact ((State.onTb_touches ..).mono rfl)

theorem State.modSline_touches : ∀ s n f, Touches 256 s (State.modSline s n f) := by
  intro s n f
  unfold State.modSline
  exact ((State.onTb_touches ..).mono rfl)

theorem State.slineUpdate_touches : ∀ s k i vc f, Touches 256 s (State.slineUpdate s k i vc f) := by
  intro s k i vc f
  unfold State.slineUpdate
  exact (Touches.foldl (Touches.refl _ _) (fun _ _ h => (Touches.ite (fun _ => (h.step (State.modSline_touches ..) rfl)) (fun _ => h))))

theorem State.modLl_touches : ∀ s k f, Touches 256 s (State.modLl s k f) := by
  intro s k f
  unfold State.modLl
  exact ((State.onTb_touches ..).mono rfl)

theorem State.setLl_touches : ∀ s k st, Touches 260 s (State.setLl s k st) := by
  intro s k st
  unfold State.setLl
  exact (((State.setFld_touches ..).mono rfl).step (State.modLl_touches ..) rfl)

theorem State.llStart_touches : ∀ s k i vc, Touches 260 s (State.llStart s k i vc) := by
  intro s k i vc
  unfold State.llStart
  exact (Touches.foldl (Touches.refl _ _) (fun _ _ h => (Touches.ite (fun _ => (h.step (State.setLl_touches ..) rfl)) (fun _ => h))))

end Sys2Proof.Machine
end

