-- ==== Sys2Proof/Laws/Touch/Display.lean ====
section
/-!
SUPPORT. What each operation of Machine/Display.lean may touch (see Laws/Touches.lean).
-/

-- One proof at a time bounds the threads and memory of a compile.
set_option Elab.async false

namespace Sys2Proof.Machine

open Sys2Proof

theorem State.commitOver_touches : ∀ s p, Touches 4 s (State.commitOver s p) := by
  intro s p
  unfold State.commitOver
  exact ((State.setFld_touches ..).mono rfl)

theorem State.setLink_touches : ∀ s n st, Touches 524288 s (State.setLink s n st) := by
  intro s n st
  unfold State.setLink
  exact ((State.modHead_touches ..).mono rfl)

theorem State.trainAttempt_touches : ∀ s n, Touches 524292 s (State.trainAttempt s n) := by
  intro s n
  unfold State.trainAttempt
  exact (((State.setLink_touches ..).mono rfl).step (State.count_touches ..) rfl)

theorem State.train_touches : ∀ s n, Touches 524292 s (State.train s n) := by
  intro s n
  unfold State.train
  exact (((State.modHead_touches ..).mono rfl).step (State.trainAttempt_touches ..) rfl)

theorem State.linkOn_touches : ∀ s n, Touches 524292 s (State.linkOn s n) := by
  intro s n
  unfold State.linkOn
  exact (Touches.ite (fun _ => ((State.train_touches ..).mono rfl)) (fun _ => ((State.setLink_touches ..).mono rfl)))

theorem execHpdRise_touches : ∀ n s, Ends 524292 s (execHpdRise n s) := by
  intro n s
  unfold execHpdRise
  extract_lets +onlyGivenNames s1
  have h_s1 : Touches 524292 s s1 := ((State.modHead_touches ..).mono rfl)
  clear_value s1
  exact Ends.next (Touches.ite (fun _ => (h_s1.step (State.train_touches ..) rfl)) (fun _ => h_s1))

theorem execHpdLossTimeout_touches : ∀ n s, Ends 525380 s (execHpdLossTimeout n s) := by
  intro n s
  unfold execHpdLossTimeout
  extract_lets +onlyGivenNames s1
  have h_s1 : Touches 525380 s s1 := ((State.modHead_touches ..).mono rfl)
  clear_value s1
  refine Ends.next ?_
  split
  · exact (h_s1.step (State.setLink_touches ..) rfl)
  · exact (h_s1.step (State.setLink_touches ..) rfl)
  · exact ((h_s1.step (State.setLink_touches ..) rfl).step (State.raise_touches ..) rfl)
  · exact h_s1

theorem execHpdIrq_touches : ∀ n lost s, Ends 524292 s (execHpdIrq n lost s) := by
  intro n lost s
  unfold execHpdIrq
  exact Ends.next (Touches.ite (fun _ => ((State.train_touches ..).mono rfl)) (fun _ => Touches.refl _ _))

theorem execLinkTrainDone_touches : ∀ n ok s, Ends 525380 s (execLinkTrainDone n ok s) := by
  intro n ok s
  unfold execLinkTrainDone
  refine Ends.ite (fun _ => ?_) (fun _ => ?_)
  · exact Ends.next (Touches.refl _ _)
  · refine Ends.ite (fun _ => ?_) (fun _ => ?_)
    · exact Ends.next ((State.setLink_touches ..).mono rfl)
    · extract_lets +onlyGivenNames s1
      have h_s1 : Touches 525380 s s1 := ((State.modHead_touches ..).mono rfl)
      clear_value s1
      exact Ends.next (Touches.ite (fun _ => (h_s1.step (State.trainAttempt_touches ..) rfl)) (fun _ => (((h_s1.step (State.setLink_touches ..) rfl).step (State.raise_touches ..) rfl).step (State.count_touches ..) rfl)))

theorem State.auxCmd_touches : ∀ s m n code v, Touches 525380 s (State.auxCmd s m n code v) := by
  intro s m n code v
  unfold State.auxCmd
  exact (State.regWrite_touches (Touches.refl _ _) rfl (fun _ h => (Touches.ite (fun _ => (h.step (State.stateWrite_touches ..) rfl)) (fun _ => ((h.step (State.setReg_touches ..) rfl).step (State.modHead_touches ..) rfl)))))

theorem execAuxNativeWrite_touches : ∀ m n v s, Ends 525380 s (execAuxNativeWrite m n v s) := by
  intro m n v s
  unfold execAuxNativeWrite
  exact Ends.next ((State.auxCmd_touches ..).mono rfl)

theorem execAuxNativeRead_touches : ∀ m n v s, Ends 525380 s (execAuxNativeRead m n v s) := by
  intro m n v s
  unfold execAuxNativeRead
  exact Ends.next ((State.auxCmd_touches ..).mono rfl)

theorem execAuxI2cWrite_touches : ∀ m n v s, Ends 525380 s (execAuxI2cWrite m n v s) := by
  intro m n v s
  unfold execAuxI2cWrite
  exact Ends.next ((State.auxCmd_touches ..).mono rfl)

theorem execAuxI2cRead_touches : ∀ m n v s, Ends 525380 s (execAuxI2cRead m n v s) := by
  intro m n v s
  unfold execAuxI2cRead
  exact Ends.next ((State.auxCmd_touches ..).mono rfl)

theorem execAuxDone_touches : ∀ n outcome data s, Ends 524292 s (execAuxDone n outcome data s) := by
  intro n outcome data s
  unfold execAuxDone
  split
  · exact Ends.next (Touches.refl _ _)
  · extract_lets +onlyGivenNames s1
    have h_s1 : Touches 524292 s s1 := (((State.setReg_touches ..).mono rfl).step (State.modHead_touches ..) rfl)
    clear_value s1
    refine Ends.next (Touches.ite (fun _ => ?_) (fun _ => h_s1))
    extract_lets +onlyGivenNames old new
    clear_value old new
    exact (h_s1.step (State.setRegs32_touches ..) rfl)

theorem State.layerRetire_touches : ∀ s g rflags p, Touches 11847 s (State.layerRetire s g rflags p) := by
  intro s g rflags p
  unfold State.layerRetire
  exact (((State.push_touches ..).mono rfl).step (State.produceOn_touches ..) rfl)

theorem State.layerFetch_touches : ∀ s q, Touches 11847 s (State.layerFetch s q).2 := by
  intro s q
  unfold State.layerFetch
  change Touches2 11847 s _
  split
  · exact Touches.refl _ _
  · exact ((State.take_touches ..).mono rfl)

theorem State.layerTake_touches : ∀ s g l, Touches 536135 s (State.layerTake s g l).1 := by
  intro s g l
  unfold State.layerTake
  change Touches1 536135 s _
  split
  · exact (Touches.of_snd ((State.layerFetch_touches ..).mono rfl) ‹_›)
  · extract_lets +onlyGivenNames p
    clear_value p
    split
    · exact (((Touches.of_snd ((State.layerFetch_touches ..).mono rfl) ‹_›).step (State.layerRetire_touches ..) rfl).step (State.raise_touches ..) rfl)
    · extract_lets +onlyGivenNames t1
      have h_t1 : Touches 536135 s t1 := by
        unfold t1
        split
        · exact ((Touches.of_snd ((State.layerFetch_touches ..).mono rfl) ‹_›).step (State.layerRetire_touches ..) rfl)
        · exact (Touches.of_snd ((State.layerFetch_touches ..).mono rfl) ‹_›)
      clear_value t1
      show Touches _ _ _
      dsimp only
      exact (h_t1.step (State.modLayer_touches ..) rfl)

theorem State.layerTakeAll_touches : ∀ s g l x3, Touches 536135 s (State.layerTakeAll s g l x3) := by
  intro s g l x3
  induction x3 generalizing s g l
  · unfold State.layerTakeAll
    exact Touches.refl _ _
  · rename_i ih
    unfold State.layerTakeAll
    extract_lets +onlyGivenNames r
    have h_r : Touches 536135 s r.1 := ((State.layerTake_touches ..).mono rfl)
    clear_value r
    exact (Touches.ite (fun _ => (h_r.step (ih ..) rfl)) (fun _ => h_r))

theorem State.layerLook_touches : ∀ s g l, Touches 536135 s (State.layerLook s g l) := by
  intro s g l
  unfold State.layerLook
  refine (Touches.ite (fun _ => Touches.refl _ _) (fun _ => (Touches.ite (fun _ => ?_) (fun _ => (Touches.ite (fun _ => Touches.refl _ _) (fun _ => ((State.layerTake_touches ..).mono rfl)))))))
  extract_lets +onlyGivenNames q
  clear_value q
  exact ((State.layerTakeAll_touches ..).mono rfl)

theorem State.putGuard_touches : ∀ s g l v, Touches 4096 s (State.putGuard s g l v) := by
  intro s g l v
  unfold State.putGuard
  exact ((State.onDram_touches ..).mono rfl)

theorem State.layerFrame_touches : ∀ s g f l, Touches 529476 s (State.layerFrame s g f l) := by
  intro s g f l
  unfold State.layerFrame
  extract_lets +onlyGivenNames r out s1
  clear_value r out s1
  extract_lets +onlyGivenNames s11
  have h_s11 : Touches 529476 s s11 := by
    unfold s11
    refine (Touches.ite (fun _ => ((State.modLayer_touches ..).mono rfl)) (fun _ => ?_))
    split
    · exact ((State.modLayer_touches ..).mono rfl)
    · split
      · exact Touches.refl _ _
      · extract_lets +onlyGivenNames s2
        have h_s2 : Touches 529476 s s2 := ((State.modLayer_touches ..).mono rfl)
        clear_value s2
        exact (Touches.ite (fun _ => ((h_s2.step (State.modLayer_touches ..) rfl).step (State.raise_touches ..) rfl)) (fun _ => h_s2))
  clear_value s11
  exact (h_s11.step (State.putGuard_touches ..) rfl)

theorem State.layerDrop_touches : ∀ s g l, Touches 540231 s (State.layerDrop s g l) := by
  intro s g l
  unfold State.layerDrop
  extract_lets +onlyGivenNames r all
  clear_value r all
  exact (((Touches.foldl (Touches.refl _ _) (fun _ _ h => (h.step (State.layerRetire_touches ..) rfl))).step (State.modLayer_touches ..) rfl).step (State.putGuard_touches ..) rfl)

theorem State.dispApply_touches : ∀ s n, Touches 524556 s (State.dispApply s n) := by
  intro s n
  unfold State.dispApply
  extract_lets +onlyGivenNames p
  clear_value p
  extract_lets +onlyGivenNames s1
  have h_s1 : Touches 524556 s s1 := ((((State.applyShadow_touches ..).mono rfl).step (State.commitOver_touches ..) rfl).step (State.count_touches ..) rfl)
  clear_value s1
  extract_lets +onlyGivenNames s2
  have h_s2 : Touches 524556 s s2 := (h_s1.step (State.setReg_touches ..) rfl)
  clear_value s2
  extract_lets +onlyGivenNames changed lk
  clear_value changed lk
  extract_lets +onlyGivenNames s3
  have h_s3 : Touches 524556 s s3 := (Touches.ite (fun _ => (h_s2.step (State.train_touches ..) rfl)) (fun _ => h_s2))
  clear_value s3
  extract_lets +onlyGivenNames s4
  have h_s4 : Touches 524556 s s4 := (Touches.ite (fun _ => (h_s3.step (State.setLl_touches ..) rfl)) (fun _ => h_s3))
  clear_value s4
  exact (Touches.ite (fun _ => (h_s4.step (State.modLine_touches ..) rfl)) (fun _ => h_s4))

theorem State.commitRefused_touches : ∀ s p b, Touches 1092 s (State.commitRefused s p b) := by
  intro s p b
  unfold State.commitRefused
  exact (((State.commitOver_touches ..).mono rfl).step (State.raise_touches ..) rfl)

theorem State.dispCommit_touches : ∀ s n, Touches 525644 s (State.dispCommit s n) := by
  intro s n
  unfold State.dispCommit
  exact (Touches.ite (fun _ => ((State.dispApply_touches ..).mono rfl)) (fun _ => ((State.commitRefused_touches ..).mono rfl)))

theorem State.pairCommit_touches : ∀ s g, Touches 525644 s (State.pairCommit s g) := by
  intro s g
  unfold State.pairCommit
  extract_lets +onlyGivenNames ok
  clear_value ok
  extract_lets +onlyGivenNames s1
  have h_s1 : Touches 525644 s s1 := ((State.modHead_touches ..).mono rfl)
  clear_value s1
  extract_lets +onlyGivenNames s2
  have h_s2 : Touches 525644 s s2 := (h_s1.step (State.modHead_touches ..) rfl)
  clear_value s2
  exact (Touches.ite (fun _ => ((h_s2.step (State.dispApply_touches ..) rfl).step (State.dispApply_touches ..) rfl)) (fun _ => ((h_s2.step (State.commitRefused_touches ..) rfl).step (State.commitRefused_touches ..) rfl)))

theorem State.dispCommitOff_touches : ∀ s n, Touches 525644 s (State.dispCommitOff s n) := by
  intro s n
  unfold State.dispCommitOff
  refine (Touches.ite (fun _ => ?_) (fun _ => ((State.dispCommit_touches ..).mono rfl)))
  extract_lets +onlyGivenNames o
  clear_value o
  exact (Touches.ite (fun _ => ((State.dispApply_touches ..).mono rfl)) (fun _ => ((State.commitRefused_touches ..).mono rfl)))

theorem State.modEye_touches : ∀ s n r f, Touches 524288 s (State.modEye s n r f) := by
  intro s n r f
  unfold State.modEye
  exact ((State.modHead_touches ..).mono rfl)

theorem State.eyeRestart_touches : ∀ s n r, Touches 524292 s (State.eyeRestart s n r) := by
  intro s n r
  unfold State.eyeRestart
  extract_lets +onlyGivenNames st
  clear_value st
  exact ((((State.setReg_touches ..).mono rfl).step (State.putBit_touches ..) rfl).step (State.modEye_touches ..) rfl)

theorem State.eyeCommit_touches : ∀ s n, Touches 525388 s (State.eyeCommit s n) := by
  intro s n
  unfold State.eyeCommit
  refine (Touches.ite (fun _ => ((State.commitRefused_touches ..).mono rfl)) (fun _ => ?_))
  extract_lets +onlyGivenNames s1
  have h_s1 : Touches 525388 s s1 := (((State.applyShadow_touches ..).mono rfl).step (State.commitOver_touches ..) rfl)
  clear_value s1
  refine (Touches.foldl h_s1 (fun _ _ h => ?_))
  extract_lets +onlyGivenNames a b
  clear_value a b
  exact (Touches.ite (fun _ => (h.step (State.eyeRestart_touches ..) rfl)) (fun _ => h))

theorem State.vblankCommits_touches : ∀ s g, Touches 525644 s (State.vblankCommits s g) := by
  intro s g
  unfold State.vblankCommits
  refine (Touches.ite (fun _ => ?_) (fun _ => (Touches.ite (fun _ => ((State.dispCommit_touches ..).mono rfl)) (fun _ => Touches.refl _ _))))
  extract_lets +onlyGivenNames a b held
  clear_value a b held
  refine (Touches.ite (fun _ => ((State.pairCommit_touches ..).mono rfl)) (fun _ => (Touches.ite (fun _ => ?_) (fun _ => Touches.refl _ _))))
  extract_lets +onlyGivenNames n
  clear_value n
  exact ((State.modHead_touches ..).mono rfl)

theorem execVblankStart_touches : ∀ n s, Ends 536399 s (execVblankStart n s) := by
  intro n s
  unfold execVblankStart
  extract_lets +onlyGivenNames g
  clear_value g
  refine Ends.ite (fun _ => ?_) (fun _ => ?_)
  · exact Ends.next (Touches.refl _ _)
  · extract_lets +onlyGivenNames hs
    clear_value hs
    extract_lets +onlyGivenNames s1
    have h_s1 : Touches 536399 s s1 := (Touches.foldl (Touches.refl _ _) (fun _ _ h1 => (h1.step (State.modLine_touches ..) rfl)))
    clear_value s1
    extract_lets +onlyGivenNames s2
    have h_s2 : Touches 536399 s s2 := (h_s1.step (State.vblankCommits_touches ..) rfl)
    clear_value s2
    extract_lets +onlyGivenNames s3
    have h_s3 : Touches 536399 s s3 := (Touches.foldl h_s2 (fun _ _ h1 => (Touches.ite (fun _ => (h1.step (State.eyeCommit_touches ..) rfl)) (fun _ => h1))))
    clear_value s3
    extract_lets +onlyGivenNames s4
    have h_s4 : Touches 536399 s s4 := (Touches.ite (fun _ => (Touches.foldl h_s3 (fun _ _ h => (h.step (State.layerLook_touches ..) rfl)))) (fun _ => h_s3))
    clear_value s4
    exact Ends.next (Touches.foldl h_s4 (fun _ _ h1 => (h1.step (State.produce_touches ..) rfl)))

theorem execLineMatch_touches : ∀ n s, Ends 768 s (execLineMatch n s) := by
  intro n s
  unfold execLineMatch
  refine Ends.ite (fun _ => ?_) (fun _ => ?_)
  · exact Ends.next (((State.modLine_touches ..).mono rfl).step (State.produce_touches ..) rfl)
  · exact Ends.next (Touches.refl _ _)

theorem execPairCommitTimeout_touches : ∀ n s, Ends 525380 s (execPairCommitTimeout n s) := by
  intro n s
  unfold execPairCommitTimeout
  refine Ends.ite (fun _ => ?_) (fun _ => ?_)
  · exact Ends.next (((((State.commitOver_touches ..).mono rfl).step (State.modHead_touches ..) rfl).step (State.raise_touches ..) rfl).step (State.count_touches ..) rfl)
  · exact Ends.next (Touches.refl _ _)

theorem State.llCheck_touches : ∀ s k y, Touches 1860 s (State.llCheck s k y) := by
  intro s k y
  unfold State.llCheck
  refine (Touches.ite (fun _ => Touches.refl _ _) (fun _ => ?_))
  extract_lets +onlyGivenNames o m mm
  clear_value o m mm
  extract_lets +onlyGivenNames s1
  have h_s1 : Touches 1860 s s1 := by
    unfold s1
    split
    · exact (Touches.ite (fun _ => ((State.setReg_touches ..).mono rfl)) (fun _ => Touches.refl _ _))
    · exact Touches.refl _ _
  clear_value s1
  extract_lets +onlyGivenNames neg
  clear_value neg
  extract_lets +onlyGivenNames s2
  have h_s2 : Touches 1860 s s2 := (((h_s1.step (State.putBit_touches ..) rfl).step (State.modLl_touches ..) rfl).step (State.raise_touches ..) rfl)
  clear_value s2
  extract_lets +onlyGivenNames s21
  have h_s21 : Touches 1860 s s21 := (Touches.ite (fun _ => h_s1) (fun _ => (Touches.ite (fun _ => h_s2) (fun _ => (h_s2.step (State.produce_touches ..) rfl)))))
  clear_value s21
  exact (Touches.ite (fun _ => (((h_s21.step (State.putBit_touches ..) rfl).step (State.modLl_touches ..) rfl).step (State.raise_touches ..) rfl)) (fun _ => h_s21))

theorem State.llFrame_touches : ∀ s k, Touches 1860 s (State.llFrame s k) := by
  intro s k
  unfold State.llFrame
  refine (Touches.ite (fun _ => Touches.refl _ _) (fun _ => ?_))
  extract_lets +onlyGivenNames l o ok
  clear_value l o ok
  extract_lets +onlyGivenNames s1
  have h_s1 : Touches 1860 s s1 := ((((State.putBit_touches ..).mono rfl).step (State.putBit_touches ..) rfl).step (State.putBit_touches ..) rfl)
  clear_value s1
  extract_lets +onlyGivenNames s2
  have h_s2 : Touches 1860 s s2 := (h_s1.step (State.setReg_touches ..) rfl)
  clear_value s2
  extract_lets +onlyGivenNames lm
  clear_value lm
  extract_lets +onlyGivenNames s3
  have h_s3 : Touches 1860 s s3 := (Touches.ite (fun _ => (h_s2.step (State.setReg_touches ..) rfl)) (fun _ => h_s2))
  clear_value s3
  extract_lets +onlyGivenNames s4
  have h_s4 : Touches 1860 s s4 := (h_s3.step (State.count_touches ..) rfl)
  clear_value s4
  extract_lets +onlyGivenNames s41
  have h_s41 : Touches 1860 s s41 := by
    unfold s41
    split
    · exact (Touches.ite (fun _ => (h_s3.step (State.modLl_touches ..) rfl)) (fun _ => (Touches.ite (fun _ => (h_s3.step (State.modLl_touches ..) rfl)) (fun _ => (((h_s3.step (State.setLl_touches ..) rfl).step (State.setFld_touches ..) rfl).step (State.produce_touches ..) rfl)))))
    · exact (Touches.ite (fun _ => (h_s4.step (State.modLl_touches ..) rfl)) (fun _ => (Touches.ite (fun _ => (h_s4.step (State.modLl_touches ..) rfl)) (fun _ => (((h_s4.step (State.setLl_touches ..) rfl).step (State.raise_touches ..) rfl).step (State.produce_touches ..) rfl)))))
    · exact h_s3
  clear_value s41
  extract_lets +onlyGivenNames r pair
  clear_value r pair
  extract_lets +onlyGivenNames s5
  have h_s5 : Touches 1860 s s5 := (h_s41.step (State.setReg_touches ..) rfl)
  clear_value s5
  exact ((h_s5.step (State.setReg_touches ..) rfl).step (State.modLl_touches ..) rfl)

theorem State.llLatency_touches : ∀ s k y, Touches 1860 s (State.llLatency s k y) := by
  intro s k y
  unfold State.llLatency
  extract_lets +onlyGivenNames av
  clear_value av
  refine (Touches.ite (fun _ => Touches.refl _ _) (fun _ => ?_))
  extract_lets +onlyGivenNames sl row crossed
  clear_value sl row crossed
  split
  · exact Touches.refl _ _
  · extract_lets +onlyGivenNames us lim
    clear_value us lim
    extract_lets +onlyGivenNames s1
    have h_s1 : Touches 1860 s s1 := ((State.modLl_touches ..).mono rfl)
    clear_value s1
    exact (Touches.ite (fun _ => ((((h_s1.step (State.putBit_touches ..) rfl).step (State.modLl_touches ..) rfl).step (State.raise_touches ..) rfl).step (State.produce_touches ..) rfl)) (fun _ => h_s1))

theorem execLlSensorTimeout_touches : ∀ k s, Ends 1860 s (execLlSensorTimeout k s) := by
  intro k s
  unfold execLlSensorTimeout
  extract_lets +onlyGivenNames t1
  clear_value t1
  refine Ends.ite (fun _ => ?_) (fun _ => ?_)
  · exact Ends.next ((((State.setLl_touches ..).mono rfl).step (State.raise_touches ..) rfl).step (State.produce_touches ..) rfl)
  · exact Ends.next (Touches.refl _ _)

theorem State.dispErr_touches : ∀ s n errs, Touches 1092 s (State.dispErr s n errs).2 := by
  intro s n errs
  unfold State.dispErr
  change Touches2 1092 s _
  extract_lets +onlyGivenNames p k all
  clear_value p k all
  extract_lets +onlyGivenNames s1
  have h_s1 : Touches 1092 s s1 := (Touches.foldl (Touches.refl _ _) (fun _ _ h => (h.step (State.eccCount_touches ..) rfl)))
  clear_value s1
  exact (Touches.ite (fun _ => h_s1) (fun _ => (h_s1.step (State.modPage_touches ..) rfl)))

theorem State.composeLine_touches : ∀ s n y late lost, Touches 525892 s (State.composeLine s n y late lost) := by
  intro s n y late lost
  unfold State.composeLine
  extract_lets +onlyGivenNames p g lo hi
  clear_value p g lo hi
  extract_lets +onlyGivenNames got ls bg px0 fmt px1 px2 px marks
  clear_value ls bg px0 fmt px1 px2 px marks
  extract_lets +onlyGivenNames s1
  have h_s1 : Touches 525892 s s1 := (Touches.foldl (Touches.refl _ _) (fun _ _ h => (h.step (State.modLayer_touches ..) rfl)))
  clear_value s1
  extract_lets +onlyGivenNames under poison
  clear_value under poison
  extract_lets +onlyGivenNames s2
  have h_s2 : Touches 525892 s s2 := (h_s1.step (State.count_touches ..) rfl)
  clear_value s2
  extract_lets +onlyGivenNames s21
  have h_s21 : Touches 525892 s s21 := (Touches.ite (fun _ => h_s1) (fun _ => (Touches.ite (fun _ => h_s2) (fun _ => ((((h_s2.step (State.count_touches ..) rfl).step (State.modHead_touches ..) rfl).step (State.raise_touches ..) rfl).step (State.produce_touches ..) rfl)))))
  clear_value s21
  extract_lets +onlyGivenNames s3
  have h_s3 : Touches 525892 s s3 := (Touches.ite (fun _ => h_s21) (fun _ => ((h_s21.step (State.count_touches ..) rfl).step (State.raise_touches ..) rfl)))
  clear_value s3
  exact (h_s3.step (State.modHead_touches ..) rfl)

theorem execHeadLineStart_touches : ∀ n late errs s, Ends 526148 s (execHeadLineStart n late errs s) := by
  intro n late errs s
  unfold execHeadLineStart
  split
  · exact Ends.next (Touches.refl _ _)
  · extract_lets +onlyGivenNames r
    have h_r : Touches 526148 s r.2 := ((((State.modLine_touches ..).mono rfl).step (State.llCheck_touches ..) rfl).step (State.dispErr_touches ..) rfl)
    clear_value r
    exact Ends.next (h_r.step (State.composeLine_touches ..) rfl)

theorem State.eyeLine_touches : ∀ s n l pads same video r, Touches 34078720 s (State.eyeLine s n l pads same video r) := by
  intro s n l pads same video r
  unfold State.eyeLine
  extract_lets +onlyGivenNames p xy wh x0 y0 w h
  clear_value p xy wh x0 y0 w h
  refine (Touches.ite (fun _ => Touches.refl _ _) (fun _ => ?_))
  extract_lets +onlyGivenNames fmt e0 e01
  clear_value fmt e0 e01
  extract_lets +onlyGivenNames cut mark dsc
  clear_value mark dsc
  extract_lets +onlyGivenNames s1
  have h_s1 : Touches 34078720 s s1 := (Touches.ite (fun _ => ((State.onFree_touches ..).mono rfl)) (fun _ => Touches.refl _ _))
  clear_value s1
  extract_lets +onlyGivenNames ref pad
  clear_value ref pad
  exact (h_s1.step (State.modEye_touches ..) rfl)

theorem execHeadLineOut_touches : ∀ n pads s, Ends 34080580 s (execHeadLineOut n pads s) := by
  intro n pads s
  unfold execHeadLineOut
  split
  · exact Ends.next (Touches.refl _ _)
  · extract_lets +onlyGivenNames lat
    clear_value lat
    refine Ends.ite (fun _ => ?_) (fun _ => ?_)
    · exact Ends.next (Touches.refl _ _)
    · extract_lets +onlyGivenNames s1
      have h_s1 : Touches 34080580 s s1 := ((State.modHead_touches ..).mono rfl)
      clear_value s1
      extract_lets +onlyGivenNames s2
      have h_s2 : Touches 34080580 s s2 := (Touches.ite (fun _ => (h_s1.step (State.modHead_touches ..) rfl)) (fun _ => h_s1))
      clear_value s2
      extract_lets +onlyGivenNames video
      clear_value video
      extract_lets +onlyGivenNames s3
      have h_s3 : Touches 34080580 s s3 := (Touches.ite (fun _ => (Touches.foldl h_s2 (fun _ _ h => (h.step (State.eyeLine_touches ..) rfl)))) (fun _ => h_s2))
      clear_value s3
      exact Ends.next (h_s3.step (State.llLatency_touches ..) rfl)

theorem execFrameDone_touches : ∀ n s, Ends 536135 s (execFrameDone n s) := by
  intro n s
  unfold execFrameDone
  split
  · exact Ends.next (Touches.refl _ _)
  · refine Ends.ite (fun _ => ?_) (fun _ => ?_)
    · exact Ends.next (Touches.refl _ _)
    · extract_lets +onlyGivenNames s1
      have h_s1 : Touches 536135 s s1 := (((State.modHead_touches ..).mono rfl).step (State.produce_touches ..) rfl)
      clear_value s1
      refine Ends.ite (fun _ => ?_) (fun _ => ?_)
      · exact Ends.next h_s1
      · refine Ends.next (Touches.foldl h_s1 (fun _ _ h => ?_))
        extract_lets +onlyGivenNames r out
        clear_value r out
        exact (Touches.foldl (h.step (State.modLayer_touches ..) rfl) (fun _ _ h1 => (h1.step (State.layerRetire_touches ..) rfl)))

theorem State.eyeFrame_touches : ∀ s n, Touches 524292 s (State.eyeFrame s n) := by
  intro s n
  unfold State.eyeFrame
  extract_lets +onlyGivenNames clr two
  clear_value clr two
  refine (Touches.foldl ((State.modHead_touches ..).mono rfl) (fun _ _ h => ?_))
  extract_lets +onlyGivenNames safe
  clear_value safe
  exact (Touches.ite (fun _ => (((h.step (State.putBit_touches ..) rfl).step (State.putBit_touches ..) rfl).step (State.modEye_touches ..) rfl)) (fun _ => (Touches.ite (fun _ => (h.step (State.modEye_touches ..) rfl)) (fun _ => h))))

theorem execHeadFrameStart_touches : ∀ n s, Ends 530244 s (execHeadFrameStart n s) := by
  intro n s
  unfold execHeadFrameStart
  refine Ends.ite (fun _ => ?_) (fun _ => ?_)
  · exact Ends.next (Touches.refl _ _)
  · extract_lets +onlyGivenNames s1
    have h_s1 : Touches 530244 s s1 := (((State.modLine_touches ..).mono rfl).step (State.modHead_touches ..) rfl)
    clear_value s1
    extract_lets +onlyGivenNames f
    clear_value f
    extract_lets +onlyGivenNames s2
    have h_s2 : Touches 530244 s s2 := (Touches.ite (fun _ => (Touches.foldl h_s1 (fun _ _ h => (h.step (State.layerFrame_touches ..) rfl)))) (fun _ => h_s1))
    clear_value s2
    exact Ends.next ((h_s2.step (State.eyeFrame_touches ..) rfl).step (State.llFrame_touches ..) rfl)

theorem State.genStart_touches : ∀ s n, Touches 256 s (State.genStart s n) := by
  intro s n
  unfold State.genStart
  exact ((State.modLine_touches ..).mono rfl)

theorem State.genStop_touches : ∀ s n, Touches 256 s (State.genStop s n) := by
  intro s n
  unfold State.genStop
  exact ((State.modLine_touches ..).mono rfl)

theorem execHeadEnable_touches : ∀ n s, Ends 524548 s (execHeadEnable n s) := by
  intro n s
  unfold execHeadEnable
  refine Ends.ite (fun _ => ?_) (fun _ => ?_)
  · exact Ends.next (Touches.refl _ _)
  · extract_lets +onlyGivenNames s1
    have h_s1 : Touches 524548 s s1 := (Touches.foldl (Touches.refl _ _) (fun _ _ h => (h.step (State.modLayer_touches ..) rfl)))
    clear_value s1
    extract_lets +onlyGivenNames s2
    have h_s2 : Touches 524548 s s2 := (Touches.ite (fun _ => (h_s1.step (State.genStart_touches ..) rfl)) (fun _ => h_s1))
    clear_value s2
    exact Ends.next (h_s2.step (State.linkOn_touches ..) rfl)

theorem State.headStop_touches : ∀ s n, Touches 540487 s (State.headStop s n) := by
  intro s n
  unfold State.headStop
  extract_lets +onlyGivenNames s1
  have h_s1 : Touches 540487 s s1 := ((State.modHead_touches ..).mono rfl)
  clear_value s1
  refine (Touches.ite (fun _ => ?_) (fun _ => h_s1))
  extract_lets +onlyGivenNames s2
  have h_s2 : Touches 540487 s s2 := (h_s1.step (State.genStop_touches ..) rfl)
  clear_value s2
  extract_lets +onlyGivenNames s3
  have h_s3 : Touches 540487 s s3 := (Touches.ite (fun _ => (h_s2.step (State.genStop_touches ..) rfl)) (fun _ => h_s2))
  clear_value s3
  exact (Touches.foldl h_s3 (fun _ _ h => (h.step (State.layerDrop_touches ..) rfl)))

theorem execHeadDisable_touches : ∀ n s, Ends 540487 s (execHeadDisable n s) := by
  intro n s
  unfold execHeadDisable
  extract_lets +onlyGivenNames r
  clear_value r
  refine Ends.ite (fun _ => ?_) (fun _ => ?_)
  · exact Ends.next (Touches.refl _ _)
  · exact Ends.next ((State.headStop_touches ..).mono rfl)

theorem State.headReset_touches : ∀ s n wasFenced, Touches 540487 s (State.headReset s n wasFenced) := by
  intro s n wasFenced
  unfold State.headReset
  extract_lets +onlyGivenNames old
  clear_value old
  extract_lets +onlyGivenNames s1
  have h_s1 : Touches 540487 s s1 := ((State.modHead_touches ..).mono rfl)
  clear_value s1
  extract_lets +onlyGivenNames s11
  have h_s11 : Touches 540487 s s11 := by
    unfold s11
    refine (Touches.ite (fun _ => (Touches.foldl h_s1 (fun _ _ h => ?_))) (fun _ => Touches.refl _ _))
    extract_lets +onlyGivenNames r
    clear_value r
    exact ((h.step (State.modLayer_touches ..) rfl).step (State.putGuard_touches ..) rfl)
  clear_value s11
  extract_lets +onlyGivenNames s2
  have h_s2 : Touches 540487 s s2 := ((h_s11.step (State.headStop_touches ..) rfl).step (State.modHead_touches ..) rfl)
  clear_value s2
  extract_lets +onlyGivenNames s3
  have h_s3 : Touches 540487 s s3 := by
    unfold s3
    refine (Touches.ite (fun _ => (Touches.foldl h_s2 (fun _ _ h => ?_))) (fun _ => h_s2))
    extract_lets +onlyGivenNames r
    clear_value r
    exact (h.step (State.modLayer_touches ..) rfl)
  clear_value s3
  exact (Touches.ite (fun _ => h_s3) (fun _ => ((Touches.ite (fun _ => (h_s3.step (State.genStart_touches ..) rfl)) (fun _ => h_s3)).step (State.linkOn_touches ..) rfl)))

end Sys2Proof.Machine
end

