-- ==== Sys2Proof/Laws/Touch/Audio.lean ====
section
/-!
SUPPORT. What each operation of Machine/Audio.lean may touch (see Laws/Touches.lean).
-/

-- One proof at a time bounds the threads and memory of a compile.
set_option Elab.async false

namespace Sys2Proof.Machine

open Sys2Proof

theorem State.modTset_touches : ∀ s n f, Touches 1048576 s (State.modTset s n f) := by
  intro s n f
  unfold State.modTset
  exact ((State.onTdm_touches ..).mono rfl)

theorem State.modTport_touches : ∀ s n f, Touches 1048576 s (State.modTport s n f) := by
  intro s n f
  unfold State.modTport
  exact ((State.onTdm_touches ..).mono rfl)

theorem State.periodOpen_touches : ∀ s n k, Touches 1048576 s (State.periodOpen s n k) := by
  intro s n k
  unfold State.periodOpen
  extract_lets +onlyGivenNames p
  clear_value p
  exact (Touches.ite (fun _ => Touches.refl _ _) (fun _ => ((State.modTport_touches ..).mono rfl)))

theorem State.periodFlag_touches : ∀ s n b, Touches 1049088 s (State.periodFlag s n b) := by
  intro s n b
  unfold State.periodFlag
  extract_lets +onlyGivenNames p told first
  clear_value p told first
  extract_lets +onlyGivenNames s1
  have h_s1 : Touches 1049088 s s1 := ((State.modTport_touches ..).mono rfl)
  clear_value s1
  exact (Touches.ite (fun _ => (h_s1.step (State.produce_touches ..) rfl)) (fun _ => h_s1))

theorem State.periodDone_touches : ∀ s n mask, Touches 1048576 s (State.periodDone s n mask) := by
  intro s n mask
  unfold State.periodDone
  exact ((State.modTport_touches ..).mono rfl)

theorem execTdmPeriodPost_touches : ∀ n s, Ends 34614855 s (execTdmPeriodPost n s) := by
  intro n s
  unfold execTdmPeriodPost
  split
  · exact Ends.next (Touches.refl _ _)
  · extract_lets +onlyGivenNames s1
    have h_s1 : Touches 34614855 s s1 := ((State.modTport_touches ..).mono rfl)
    clear_value s1
    refine Ends.ite (fun _ => ?_) (fun _ => ?_)
    · exact Ends.next h_s1
    · extract_lets +onlyGivenNames t1
      have h_t1' : Touches2 34614855 s t1 := by
        unfold t1
        split
        · exact h_s1
        · exact ((h_s1.step (State.drawWord_touches ..) rfl).step (State.drawWord_touches ..) rfl)
      have h_t1 : Touches 34614855 s t1.2 := h_t1'
      clear_value t1
      extract_lets +onlyGivenNames d que
      clear_value d que
      refine Ends.ite (fun _ => ?_) (fun _ => ?_)
      · exact Ends.next (h_t1.step (State.raise_touches ..) rfl)
      · extract_lets +onlyGivenNames ev
        clear_value ev
        exact Ends.next ((h_t1.step (State.push_touches ..) rfl).step (State.produceOn_touches ..) rfl)

theorem execSwCountWrite_touches : ∀ m n v s, Ends 1092 s (execSwCountWrite m n v s) := by
  intro m n v s
  unfold execSwCountWrite
  exact Ends.next (State.regWrite_touches (Touches.refl _ _) rfl (fun _ h => (Touches.ite (fun _ => (h.step (State.raise_touches ..) rfl)) (fun _ => (h.step (State.setReg_touches ..) rfl)))))

theorem State.swcIgnored_touches : ∀ s n, Touches 1092 s (State.swcIgnored s n) := by
  intro s n
  unfold State.swcIgnored
  exact (((State.raise_touches ..).mono rfl).step (State.count_touches ..) rfl)

theorem State.swAtCheck_touches : ∀ s n, Touches 1049668 s (State.swAtCheck s n).2 := by
  intro s n
  unfold State.swAtCheck
  change Touches2 1049668 s _
  split
  · exact Touches.refl _ _
  · extract_lets +onlyGivenNames p
    clear_value p
    exact (Touches.ite (fun _ => ((State.modTport_touches ..).mono rfl)) (fun _ => ((State.swcIgnored_touches ..).mono rfl)))

theorem State.txRead_touches : ∀ s n pos lastv x4, Touches 1604 s (State.txRead s n pos lastv x4).2.2 := by
  intro s n pos lastv x4
  induction x4 generalizing s n pos lastv
  · unfold State.txRead
    change Touches22 1604 s _
    exact Touches.refl _ _
  · rename_i ih
    unfold State.txRead
    change Touches22 1604 s _
    extract_lets +onlyGivenNames c
    clear_value c
    extract_lets +onlyGivenNames r
    have h_r : Touches 1604 s r.2 := ((State.busRead_touches ..).mono rfl)
    clear_value r
    extract_lets +onlyGivenNames s1
    have h_s1 : Touches 1604 s s1 := (Touches.ite (fun _ => (h_r.step (State.count_touches ..) rfl)) (fun _ => h_r))
    clear_value s1
    extract_lets +onlyGivenNames v
    clear_value v
    extract_lets +onlyGivenNames t1
    have h_t1 : Touches 1604 s t1.2.2 := (h_s1.step (ih ..) rfl)
    clear_value t1
    exact h_t1

theorem State.maskChanged_touches : ∀ s n k count, Touches 516 s (State.maskChanged s n k count) := by
  intro s n k count
  unfold State.maskChanged
  extract_lets +onlyGivenNames s1
  have h_s1 : Touches 516 s s1 := (((State.setReg_touches ..).mono rfl).step (State.setReg_touches ..) rfl)
  clear_value s1
  exact ((h_s1.step (State.setReg_touches ..) rfl).step (State.produce_touches ..) rfl)

theorem State.tdmFetch_touches : ∀ s n k, Touches 1050180 s (State.tdmFetch s n k) := by
  intro s n k
  unfold State.tdmFetch
  extract_lets +onlyGivenNames pend
  clear_value pend
  extract_lets +onlyGivenNames s1
  have h_s1 : Touches 1050180 s s1 := by
    unfold s1
    split
    · exact (((State.modTport_touches ..).mono rfl).step (State.maskChanged_touches ..) rfl)
    · exact Touches.refl _ _
  clear_value s1
  extract_lets +onlyGivenNames s2
  have h_s2 : Touches 1050180 s s2 := ((h_s1.step (State.modTport_touches ..) rfl).step (State.periodOpen_touches ..) rfl)
  clear_value s2
  extract_lets +onlyGivenNames s3
  have h_s3 : Touches 1050180 s s3 := (Touches.ite (fun _ => (h_s2.step (State.periodFlag_touches ..) rfl)) (fun _ => h_s2))
  clear_value s3
  extract_lets +onlyGivenNames mask fb hw lastv slots
  clear_value mask fb hw lastv slots
  extract_lets +onlyGivenNames c
  have h_c : Touches 1050180 s c.2 := (h_s3.step (State.swAtCheck_touches ..) rfl)
  clear_value c
  extract_lets +onlyGivenNames got
  have h_got : Touches 1050180 s got.2.2 := (h_c.step (State.txRead_touches ..) rfl)
  clear_value got
  extract_lets +onlyGivenNames got1
  have h_got1' : Touches2 1050180 s got1 := by
    unfold got1
    split
    · exact (Touches.ite (fun _ => ((h_got.step (State.raise_touches ..) rfl).step (State.periodFlag_touches ..) rfl)) (fun _ => h_got))
    · exact (((h_c.step (State.count_touches ..) rfl).step (State.raise_touches ..) rfl).step (State.periodFlag_touches ..) rfl)
  have h_got1 : Touches 1050180 s got1.2 := h_got1'
  clear_value got1
  extract_lets +onlyGivenNames vals
  clear_value vals
  extract_lets +onlyGivenNames s4
  have h_s4 : Touches 1050180 s s4 := (h_got1.step (State.setReg_touches ..) rfl)
  clear_value s4
  exact ((h_s4.step (State.modTport_touches ..) rfl).step (State.periodDone_touches ..) rfl)

theorem State.tdmErr_touches : ∀ s n errs, Touches 1050180 s (State.tdmErr s n errs).2 := by
  intro s n errs
  unfold State.tdmErr
  change Touches2 1050180 s _
  extract_lets +onlyGivenNames k mine all bad
  clear_value k mine all bad
  extract_lets +onlyGivenNames s1
  have h_s1 : Touches 1050180 s s1 := (Touches.ite (fun _ => Touches.refl _ _) (fun _ => ((State.modPage_touches ..).mono rfl)))
  clear_value s1
  exact (Touches.ite (fun _ => h_s1) (fun _ => (((h_s1.step (State.count_touches ..) rfl).step (State.raise_touches ..) rfl).step (State.periodFlag_touches ..) rfl)))

theorem State.txEnd_touches : ∀ s n k done drive bad, Touches 1048576 s (State.txEnd s n k done drive bad) := by
  intro s n k done drive bad
  unfold State.txEnd
  exact ((State.modTport_touches ..).mono rfl)

theorem State.rxWrite_touches : ∀ s n mask vals, Touches 9799 s (State.rxWrite s n mask vals) := by
  intro s n mask vals
  unfold State.rxWrite
  extract_lets +onlyGivenNames bs hw off first
  clear_value bs hw off first
  extract_lets +onlyGivenNames s1
  have h_s1 : Touches 9799 s s1 := (Touches.ite (fun _ => Touches.refl _ _) (fun _ => ((State.busWrite_touches ..).mono rfl)))
  clear_value s1
  extract_lets +onlyGivenNames s2
  have h_s2 : Touches 9799 s s2 := (Touches.ite (fun _ => h_s1) (fun _ => (h_s1.step (State.busWrite_touches ..) rfl)))
  clear_value s2
  exact (h_s2.step (State.setReg_touches ..) rfl)

theorem State.rxRepeat_touches : ∀ s n sw x3, Touches 1058375 s (State.rxRepeat s n sw x3) := by
  intro s n sw x3
  induction x3 generalizing s n sw
  · unfold State.rxRepeat
    exact Touches.refl _ _
  · rename_i ih
    unfold State.rxRepeat
    refine (Touches.ite (fun _ => Touches.refl _ _) (fun _ => ?_))
    extract_lets +onlyGivenNames l vals
    clear_value l vals
    extract_lets +onlyGivenNames s1
    have h_s1 : Touches 1058375 s s1 := (((State.rxWrite_touches ..).mono rfl).step (State.count_touches ..) rfl)
    clear_value s1
    exact (((h_s1.step (State.modTport_touches ..) rfl).step (State.periodFlag_touches ..) rfl).step (ih ..) rfl)

theorem State.rxEnd_touches : ∀ s n k vals, Touches 1058375 s (State.rxEnd s n k vals) := by
  intro s n k vals
  unfold State.rxEnd
  extract_lets +onlyGivenNames s0
  have h_s0 : Touches 1058375 s s0 := ((State.periodOpen_touches ..).mono rfl)
  clear_value s0
  extract_lets +onlyGivenNames p
  clear_value p
  extract_lets +onlyGivenNames s1
  have h_s1 : Touches 1058375 s s1 := (Touches.ite (fun _ => (((h_s0.step (State.modTport_touches ..) rfl).step (State.maskChanged_touches ..) rfl).step (State.periodFlag_touches ..) rfl)) (fun _ => h_s0))
  clear_value s1
  extract_lets +onlyGivenNames c
  have h_c : Touches 1058375 s c.2 := (h_s1.step (State.swAtCheck_touches ..) rfl)
  clear_value c
  extract_lets +onlyGivenNames s2
  have h_s2 : Touches 1058375 s s2 := (h_c.step (State.rxRepeat_touches ..) rfl)
  clear_value s2
  extract_lets +onlyGivenNames fb
  clear_value fb
  extract_lets +onlyGivenNames s3
  have h_s3 : Touches 1058375 s s3 := (Touches.ite (fun _ => ((h_s2.step (State.rxWrite_touches ..) rfl).step (State.modTport_touches ..) rfl)) (fun _ => ((((h_s2.step (State.modTport_touches ..) rfl).step (State.count_touches ..) rfl).step (State.raise_touches ..) rfl).step (State.periodFlag_touches ..) rfl)))
  clear_value s3
  exact ((h_s3.step (State.modTport_touches ..) rfl).step (State.periodDone_touches ..) rfl)

theorem State.tdmEnd_touches : ∀ s lead done drive rx errs, Touches 1058375 s (State.tdmEnd s lead done drive rx errs) := by
  intro s lead done drive rx errs
  unfold State.tdmEnd
  extract_lets +onlyGivenNames k
  clear_value k
  refine (Touches.foldl (Touches.refl _ _) (fun _ _ h => ?_))
  extract_lets +onlyGivenNames e
  have h_e : Touches 1058375 s e.2 := (h.step (State.tdmErr_touches ..) rfl)
  clear_value e
  refine (Touches.ite (fun _ => (h_e.step (State.txEnd_touches ..) rfl)) (fun _ => ?_))
  extract_lets +onlyGivenNames v
  clear_value v
  exact (h_e.step (State.rxEnd_touches ..) rfl)

theorem State.tdmCommit_touches : ∀ s n k, Touches 1049676 s (State.tdmCommit s n k) := by
  intro s n k
  unfold State.tdmCommit
  refine (Touches.ite (fun _ => Touches.refl _ _) (fun _ => ?_))
  extract_lets +onlyGivenNames m
  clear_value m
  exact (Touches.ite (fun _ => ((State.commitRefused_touches ..).mono rfl)) (fun _ => ((((State.applyShadow_touches ..).mono rfl).step (State.commitOver_touches ..) rfl).step (State.modTport_touches ..) rfl)))

theorem State.tdmCommitOff_touches : ∀ s n, Touches 1100 s (State.tdmCommitOff s n) := by
  intro s n
  unfold State.tdmCommitOff
  exact (Touches.ite (fun _ => ((State.commitRefused_touches ..).mono rfl)) (fun _ => (((State.applyShadow_touches ..).mono rfl).step (State.commitOver_touches ..) rfl)))

theorem State.tdmSync_touches : ∀ s lead, Touches 1050188 s (State.tdmSync s lead) := by
  intro s lead
  unfold State.tdmSync
  extract_lets +onlyGivenNames t1 k
  clear_value t1 k
  refine (Touches.foldl (Touches.refl _ _) (fun _ _ h => ?_))
  extract_lets +onlyGivenNames u1
  have h_u1 : Touches 1050188 s u1 := (Touches.ite (fun _ => (h.step (State.tdmFetch_touches ..) rfl)) (fun _ => h))
  clear_value u1
  extract_lets +onlyGivenNames pins
  clear_value pins
  extract_lets +onlyGivenNames u2 u21
  have h_u21 : Touches 1050188 s u21 := (h_u1.step (State.modTport_touches ..) rfl)
  clear_value u21
  extract_lets +onlyGivenNames u3
  have h_u3 : Touches 1050188 s u3 := (h_u21.step (State.tdmCommit_touches ..) rfl)
  clear_value u3
  extract_lets +onlyGivenNames u4
  have h_u4 : Touches 1050188 s u4 := (Touches.ite (fun _ => (h_u3.step (State.tdmFetch_touches ..) rfl)) (fun _ => (h_u3.step (State.periodOpen_touches ..) rfl)))
  clear_value u4
  exact (Touches.ite (fun _ => (h_u4.step (State.periodFlag_touches ..) rfl)) (fun _ => h_u4))

theorem State.tdmStopPort_touches : ∀ s n quiet, Touches 1048580 s (State.tdmStopPort s n quiet) := by
  intro s n quiet
  unfold State.tdmStopPort
  extract_lets +onlyGivenNames p back
  clear_value p back
  extract_lets +onlyGivenNames s1
  have h_s1 : Touches 1048580 s s1 := ((State.setReg_touches ..).mono rfl)
  clear_value s1
  exact (h_s1.step (State.modTport_touches ..) rfl)

theorem State.tdmOff_touches : ∀ s lead quiet, Touches 1048580 s (State.tdmOff s lead quiet) := by
  intro s lead quiet
  unfold State.tdmOff
  exact ((Touches.foldl (Touches.refl _ _) (fun _ _ h => (h.step (State.tdmStopPort_touches ..) rfl))).step (State.modTset_touches ..) rfl)

theorem State.tdmLeave_touches : ∀ s n, Touches 1048580 s (State.tdmLeave s n) := by
  intro s n
  unfold State.tdmLeave
  extract_lets +onlyGivenNames lead
  clear_value lead
  exact (Touches.ite (fun _ => ((State.tdmOff_touches ..).mono rfl)) (fun _ => (Touches.ite (fun _ => (((State.tdmStopPort_touches ..).mono rfl).step (State.modTset_touches ..) rfl)) (fun _ => Touches.refl _ _))))

theorem execTdmStart_touches : ∀ m n s, Ends 1050188 s (execTdmStart m n s) := by
  intro m n s
  unfold execTdmStart
  refine Ends.next (State.regWrite_touches (Touches.refl _ _) rfl (fun _ h => (Touches.ite (fun _ => (h.step (State.stateWrite_touches ..) rfl)) (fun _ => ?_))))
  extract_lets +onlyGivenNames ports
  clear_value ports
  refine (Touches.ite (fun _ => (h.step (State.raise_touches ..) rfl)) (fun _ => ?_))
  extract_lets +onlyGivenNames master x d k0 t1
  clear_value master x d k0 t1
  extract_lets +onlyGivenNames t11
  have h_t11 : Touches 1050188 s t11 := by
    unfold t11
    refine (Touches.foldl h (fun _ _ h1 => ?_))
    extract_lets +onlyGivenNames keep sh
    clear_value sh
    extract_lets +onlyGivenNames u1
    have h_u1 : Touches 1050188 s u1 := (h1.step (State.setReg_touches ..) rfl)
    clear_value u1
    extract_lets +onlyGivenNames u2
    have h_u2 : Touches 1050188 s u2 := (h_u1.step (State.onShadow_touches _ _ (Map.wf_put _ _ _ _)) rfl)
    clear_value u2
    extract_lets +onlyGivenNames mask
    clear_value mask
    extract_lets +onlyGivenNames u3
    have h_u3 : Touches 1050188 s u3 := ((h_u2.step (State.setReg_touches ..) rfl).step (State.setReg_touches ..) rfl)
    clear_value u3
    exact (h_u3.step (State.modTport_touches ..) rfl)
  clear_value t11
  extract_lets +onlyGivenNames t2
  have h_t2 : Touches 1050188 s t2 := (h_t11.step (State.modTset_touches ..) rfl)
  clear_value t2
  exact (Touches.foldl h_t2 (fun _ _ h1 => (Touches.ite (fun _ => (h1.step (State.tdmFetch_touches ..) rfl)) (fun _ => h1))))

theorem execTdmStop_touches : ∀ m n s, Ends 1049668 s (execTdmStop m n s) := by
  intro m n s
  unfold execTdmStop
  exact Ends.next (State.regWrite_touches (Touches.refl _ _) rfl (fun _ h => (Touches.ite (fun _ => (h.step (State.stateWrite_touches ..) rfl)) (fun _ => (Touches.ite (fun _ => (h.step (State.tdmOff_touches ..) rfl)) (fun _ => (h.step (State.modTset_touches ..) rfl)))))))

theorem execTdmStopNow_touches : ∀ m n s, Ends 1049668 s (execTdmStopNow m n s) := by
  intro m n s
  unfold execTdmStopNow
  exact Ends.next (State.regWrite_touches (Touches.refl _ _) rfl (fun _ h => (Touches.ite (fun _ => (h.step (State.stateWrite_touches ..) rfl)) (fun _ => (h.step (State.tdmOff_touches ..) rfl)))))

theorem State.tdmRun_touches : ∀ s n, Touches 1049088 s (State.tdmRun s n) := by
  intro s n
  unfold State.tdmRun
  exact (((State.modTset_touches ..).mono rfl).step (State.produce_touches ..) rfl)

theorem execTdmFrameSync_touches : ∀ n rx errs s, Ends 34612815 s (execTdmFrameSync n rx errs s) := by
  intro n rx errs s
  unfold execTdmFrameSync
  extract_lets +onlyGivenNames t1 k lhs
  clear_value t1 k lhs
  refine Ends.ite (fun _ => ?_) (fun _ => ?_)
  · exact Ends.next (Touches.refl _ _)
  · extract_lets +onlyGivenNames s1
    have h_s1 : Touches 34612815 s s1 := (Touches.ite (fun _ => ((State.tdmRun_touches ..).mono rfl)) (fun _ => ((State.tdmEnd_touches ..).mono rfl)))
    clear_value s1
    refine Ends.ite (fun _ => ?_) (fun _ => ?_)
    · exact Ends.next (h_s1.step (State.tdmOff_touches ..) rfl)
    · extract_lets +onlyGivenNames slew
      clear_value slew
      extract_lets +onlyGivenNames s2
      have h_s2 : Touches 34612815 s s2 := (Touches.ite (fun _ => (h_s1.step (State.raise_touches ..) rfl)) (fun _ => h_s1))
      clear_value s2
      extract_lets +onlyGivenNames ppm d e
      clear_value ppm d e
      extract_lets +onlyGivenNames j
      have h_j : Touches 34612815 s j.2 := (h_s2.step (State.drawNat_touches ..) rfl)
      clear_value j
      extract_lets +onlyGivenNames s3
      have h_s3 : Touches 34612815 s s3 := (h_j.step (State.modTset_touches ..) rfl)
      clear_value s3
      exact Ends.next (h_s3.step (State.tdmSync_touches ..) rfl)

theorem State.tdmEach_touches : ∀ s lead lo flag bit, Touches 1050180 s (State.tdmEach s lead lo flag bit) := by
  intro s lead lo flag bit
  unfold State.tdmEach
  refine (Touches.foldl (Touches.refl _ _) (fun _ _ h => ?_))
  extract_lets +onlyGivenNames t1
  have h_t1 : Touches 1050180 s t1 := ((h.step (State.count_touches ..) rfl).step (State.periodFlag_touches ..) rfl)
  clear_value t1
  split
  · exact (h_t1.step (State.raise_touches ..) rfl)
  · exact h_t1

theorem State.tdmSlaveSync_touches : ∀ s n k, Touches 1050188 s (State.tdmSlaveSync s n k) := by
  intro s n k
  unfold State.tdmSlaveSync
  exact (((State.modTset_touches ..).mono rfl).step (State.tdmSync_touches ..) rfl)

theorem execTdmFsEdge_touches : ∀ n bclks rx errs s, Ends 1058383 s (execTdmFsEdge n bclks rx errs s) := by
  intro n bclks rx errs s
  unfold execTdmFsEdge
  extract_lets +onlyGivenNames t1
  clear_value t1
  refine Ends.ite (fun _ => ?_) (fun _ => ?_)
  · exact Ends.next (Touches.refl _ _)
  · refine Ends.ite (fun _ => ?_) (fun _ => ?_)
    · exact Ends.next (((State.tdmRun_touches ..).mono rfl).step (State.tdmSlaveSync_touches ..) rfl)
    · extract_lets +onlyGivenNames s1
      have h_s1 : Touches 1058383 s s1 := (Touches.ite (fun _ => ((((State.modTset_touches ..).mono rfl).step (State.tdmEach_touches ..) rfl).step (State.tdmEnd_touches ..) rfl)) (fun _ => (Touches.ite (fun _ => ((State.tdmEnd_touches ..).mono rfl)) (fun _ => (((State.tdmEach_touches ..).mono rfl).step (State.tdmEnd_touches ..) rfl)))))
      clear_value s1
      refine Ends.ite (fun _ => ?_) (fun _ => ?_)
      · exact Ends.next (h_s1.step (State.tdmOff_touches ..) rfl)
      · exact Ends.next (h_s1.step (State.tdmSlaveSync_touches ..) rfl)

theorem execTdmFsLost_touches : ∀ n s, Ends 1058383 s (execTdmFsLost n s) := by
  intro n s
  unfold execTdmFsLost
  extract_lets +onlyGivenNames t1 wait
  clear_value t1 wait
  refine Ends.ite (fun _ => ?_) (fun _ => ?_)
  · exact Ends.next (Touches.refl _ _)
  · extract_lets +onlyGivenNames s1
    have h_s1 : Touches 1058383 s s1 := (Touches.ite (fun _ => Touches.refl _ _) (fun _ => ((((State.modTset_touches ..).mono rfl).step (State.raise_touches ..) rfl).step (State.produce_touches ..) rfl)))
    clear_value s1
    extract_lets +onlyGivenNames s2
    have h_s2 : Touches 1058383 s s2 := ((h_s1.step (State.tdmEach_touches ..) rfl).step (State.tdmEnd_touches ..) rfl)
    clear_value s2
    refine Ends.ite (fun _ => ?_) (fun _ => ?_)
    · exact Ends.next (h_s2.step (State.tdmOff_touches ..) rfl)
    · exact Ends.next (h_s2.step (State.tdmSlaveSync_touches ..) rfl)

theorem execSwcReadDone_touches : ∀ n err s, Ends 1050180 s (execSwcReadDone n err s) := by
  intro n err s
  unfold execSwcReadDone
  extract_lets +onlyGivenNames p
  clear_value p
  refine Ends.ite (fun _ => ?_) (fun _ => ?_)
  · exact Ends.next (Touches.refl _ _)
  · extract_lets +onlyGivenNames r
    have h_r : Touches 1050180 s r.2 := ((State.busRead_touches ..).mono rfl)
    clear_value r
    extract_lets +onlyGivenNames s1
    clear_value s1
    extract_lets +onlyGivenNames s11
    have h_s11 : Touches 1050180 s s11 := (Touches.ite (fun _ => ((h_r.step (State.swcIgnored_touches ..) rfl).step (State.modTport_touches ..) rfl)) (fun _ => (Touches.ite (fun _ => ((h_r.step (State.raise_touches ..) rfl).step (State.modTport_touches ..) rfl)) (fun _ => (h_r.step (State.modTport_touches ..) rfl)))))
    clear_value s11
    exact Ends.next (Touches.ite (fun _ => (h_s11.step (State.tdmFetch_touches ..) rfl)) (fun _ => h_s11))

end Sys2Proof.Machine
end

