-- ==== Sys2Proof/Laws/Touch/FnCause.lean ====
section
/-!
SUPPORT. What each operation of Machine/FnCause.lean may touch (see Laws/Touches.lean).
-/

-- One proof at a time bounds the threads and memory of a compile.
set_option Elab.async false

namespace Sys2Proof.Machine

open Sys2Proof

theorem State.fnUpdate_touches : ∀ s, Touches 1604 s (State.fnUpdate s) := by
  intro s
  unfold State.fnUpdate
  extract_lets +onlyGivenNames latch want new
  clear_value latch want new
  refine (Touches.ite (fun _ => Touches.refl _ _) (fun _ => ?_))
  extract_lets +onlyGivenNames s1
  have h_s1 : Touches 1604 s s1 := ((State.setReg_touches ..).mono rfl)
  clear_value s1
  refine (Touches.ite (fun _ => h_s1) (fun _ => ?_))
  extract_lets +onlyGivenNames s2
  have h_s2 : Touches 1604 s s2 := (((h_s1.step (State.setFld_touches ..) rfl).step (State.countWrap_touches ..) rfl).step (State.silk_touches ..) rfl)
  clear_value s2
  exact (((h_s2.step (State.snapTrigger_touches ..) rfl).step (State.produce_touches ..) rfl).step (State.raise_touches ..) rfl)

end Sys2Proof.Machine
end

