-- ==== Sys2Proof/Laws/Touch/Storage.lean ====
section
/-!
SUPPORT. What each operation of Machine/Storage.lean may touch (see Laws/Touches.lean).
-/

-- One proof at a time bounds the threads and memory of a compile.
set_option Elab.async false

namespace Sys2Proof.Machine

open Sys2Proof

theorem State.modNs_touches : ∀ s k f, Touches 4194304 s (State.modNs s k f) := by
  intro s k f
  unfold State.modNs
  exact ((State.onStor_touches ..).mono rfl)

theorem State.setProg_touches : ∀ s k p, Touches 4194304 s (State.setProg s k p) := by
  intro s k p
  unfold State.setProg
  exact ((State.onStor_touches ..).mono rfl)

theorem State.modOp_touches : ∀ s id f, Touches 4194304 s (State.modOp s id f) := by
  intro s id f
  unfold State.modOp
  exact ((State.onStor_touches ..).mono rfl)

theorem State.modSsd_touches : ∀ s k f, Touches 4194304 s (State.modSsd s k f) := by
  intro s k f
  unfold State.modSsd
  exact ((State.onStor_touches ..).mono rfl)

theorem State.setSsd_touches : ∀ s k st, Touches 1604 s (State.setSsd s k st) := by
  intro s k st
  unfold State.setSsd
  refine (Touches.ite (fun _ => Touches.refl _ _) (fun _ => ?_))
  extract_lets +onlyGivenNames p
  clear_value p
  extract_lets +onlyGivenNames s1
  have h_s1 : Touches 1604 s s1 := (((State.setFld_touches ..).mono rfl).step (State.produce_touches ..) rfl)
  clear_value s1
  exact (Touches.ite (fun _ => ((h_s1.step (State.count_touches ..) rfl).step (State.raise_touches ..) rfl)) (fun _ => (Touches.ite (fun _ => ((h_s1.step (State.raise_touches ..) rfl).step (State.produce_touches ..) rfl)) (fun _ => h_s1))))

theorem State.nvmeIssue_touches : ∀ s, Touches 4194304 s (State.nvmeIssue s) := by
  intro s
  unfold State.nvmeIssue
  exact ((State.onStor_touches ..).mono rfl)

theorem State.opCmds_touches : ∀ s o c pick, Touches 4194304 s (State.opCmds s o c pick) := by
  intro s o c pick
  unfold State.opCmds
  extract_lets +onlyGivenNames n
  clear_value n
  refine (Touches.foldl (Touches.refl _ _) (fun _ _ h => ?_))
  extract_lets +onlyGivenNames a k
  clear_value a k
  exact (Touches.ite (fun _ => h) (fun _ => (h.step (State.onStor_touches ..) rfl)))

theorem State.opIssue_touches : ∀ s o, Touches 4194304 s (State.opIssue s o) := by
  intro s o
  unfold State.opIssue
  exact (Touches.foldl (Touches.refl _ _) (fun _ _ h => (h.step (State.opCmds_touches ..) rfl)))

theorem State.dirtyWord_touches : ∀ s b, Touches 1024 s (State.dirtyWord s b) := by
  intro s b
  unfold State.dirtyWord
  extract_lets +onlyGivenNames w v
  clear_value w v
  exact ((State.cocoonPut_touches ..).mono rfl)

theorem State.modDirty_touches : ∀ s b f, Touches 4195328 s (State.modDirty s b f) := by
  intro s b f
  unfold State.modDirty
  extract_lets +onlyGivenNames s1
  have h_s1 : Touches 4195328 s s1 := ((State.onStor_touches ..).mono rfl)
  clear_value s1
  exact (Touches.ite (fun _ => h_s1) (fun _ => (h_s1.step (State.dirtyWord_touches ..) rfl)))

theorem State.logCommit_touches : ∀ s, Touches 1024 s (State.logCommit s) := by
  intro s
  unfold State.logCommit
  extract_lets +onlyGivenNames marks
  clear_value marks
  exact ((State.cocoonPut_touches ..).mono rfl)

theorem State.logMerge_touches : ∀ s e, Touches 4195396 s (State.logMerge s e) := by
  intro s e
  unfold State.logMerge
  extract_lets +onlyGivenNames old hi new
  clear_value old hi new
  exact (((State.onStor_touches ..).mono rfl).step (State.raise_touches ..) rfl)

theorem State.deferError_touches : ∀ s k cause first count, Touches 4195908 s (State.deferError s k cause first count) := by
  intro s k cause first count
  unfold State.deferError
  extract_lets +onlyGivenNames seq
  clear_value seq
  extract_lets +onlyGivenNames s1
  have h_s1 : Touches 4195908 s s1 := by
    unfold s1
    split
    · refine (Touches.ite (fun _ => Touches.refl _ _) (fun _ => ?_))
      extract_lets +onlyGivenNames t1
      have h_t1 : Touches 4195908 s t1 := (Touches.ite (fun _ => Touches.refl _ _) (fun _ => ((State.logMerge_touches ..).mono rfl)))
      clear_value t1
      exact (h_t1.step (State.onStor_touches ..) rfl)
    · exact Touches.refl _ _
  clear_value s1
  extract_lets +onlyGivenNames e
  clear_value e
  extract_lets +onlyGivenNames s2
  have h_s2 : Touches 4195908 s s2 := (((h_s1.step (State.onStor_touches ..) rfl).step (State.modNs_touches ..) rfl).step (State.logCommit_touches ..) rfl)
  clear_value s2
  extract_lets +onlyGivenNames s3
  have h_s3 : Touches 4195908 s s3 := (((h_s2.step (State.silk_touches ..) rfl).step (State.raise_touches ..) rfl).step (State.produce_touches ..) rfl)
  clear_value s3
  extract_lets +onlyGivenNames s4
  have h_s4 : Touches 4195908 s s4 := (h_s3.step (State.count_touches ..) rfl)
  clear_value s4
  exact (Touches.ite (fun _ => (h_s4.step (State.count_touches ..) rfl)) (fun _ => h_s4))

theorem State.bufEnter_touches : ∀ s o, Touches 4195328 s (State.bufEnter s o) := by
  intro s o
  unfold State.bufEnter
  extract_lets +onlyGivenNames s1
  have h_s1 : Touches 4195328 s s1 := ((State.modOp_touches ..).mono rfl)
  clear_value s1
  extract_lets +onlyGivenNames s2
  have h_s2 : Touches 4195328 s s2 := (Touches.foldl h_s1 (fun _ _ h => (h.step (State.modDirty_touches ..) rfl)))
  clear_value s2
  exact (h_s2.step (State.opIssue_touches ..) rfl)

theorem State.bufAdmit_touches : ∀ s x1, Touches 4195328 s (State.bufAdmit s x1) := by
  intro s x1
  induction x1 generalizing s
  · unfold State.bufAdmit
    exact Touches.refl _ _
  · rename_i ih
    unfold State.bufAdmit
    exact (Touches.ite (fun _ => (((State.bufEnter_touches ..).mono rfl).step (ih ..) rfl)) (fun _ => Touches.refl _ _))

theorem State.modQ_touches : ∀ s q f, Touches 4194304 s (State.modQ s q f) := by
  intro s q f
  unfold State.modQ
  split
  · exact ((State.onStor_touches ..).mono rfl)
  · exact Touches.refl _ _

theorem State.ctiPost_touches : ∀ s q c, Touches 4194308 s (State.ctiPost s q c) := by
  intro s q c
  unfold State.ctiPost
  extract_lets +onlyGivenNames s1
  have h_s1 : Touches 4194308 s s1 := ((State.count_touches ..).mono rfl)
  clear_value s1
  extract_lets +onlyGivenNames s2
  have h_s2 : Touches 4194308 s s2 := by
    unfold s2
    split
    · exact (h_s1.step (State.count_touches ..) rfl)
    · exact (h_s1.step (State.count_touches ..) rfl)
    · exact (h_s1.step (State.count_touches ..) rfl)
    · exact (h_s1.step (State.count_touches ..) rfl)
    · exact h_s1
  clear_value s2
  exact (h_s2.step (State.modQ_touches ..) rfl)

theorem State.modCmd_touches : ∀ s q tag f, Touches 4194304 s (State.modCmd s q tag f) := by
  intro s q tag f
  unfold State.modCmd
  exact ((State.modQ_touches ..).mono rfl)

theorem State.ctiDone_touches : ∀ s q tag status result degraded, Touches 4194308 s (State.ctiDone s q tag status result degraded) := by
  intro s q tag status result degraded
  unfold State.ctiDone
  split
  · exact Touches.refl _ _
  · exact (((State.modQ_touches ..).mono rfl).step (State.ctiPost_touches ..) rfl)

theorem State.hostWrite_touches : ∀ s a x2, Touches 4194304 s (State.hostWrite s a x2) := by
  intro s a x2
  induction x2 generalizing s a
  · unfold State.hostWrite
    exact Touches.refl _ _
  · rename_i ih
    unfold State.hostWrite
    exact (((State.onStor_touches ..).mono rfl).step (ih ..) rfl)

theorem State.hostScatter_touches : ∀ s x1 x2, Touches 4194304 s (State.hostScatter s x1 x2) := by
  intro s x1 x2
  induction x1 generalizing s x2
  · unfold State.hostScatter
    exact Touches.refl _ _
  · rename_i ih
    unfold State.hostScatter
    exact (((State.hostWrite_touches ..).mono rfl).step (ih ..) rfl)

theorem State.hostPut_touches : ∀ s c bs, Touches 4194304 s (State.hostPut s c bs) := by
  intro s c bs
  unfold State.hostPut
  exact ((State.hostScatter_touches ..).mono rfl)

theorem State.modSess_touches : ∀ s c f, Touches 4194304 s (State.modSess s c f) := by
  intro s c f
  unfold State.modSess
  exact ((State.onStor_touches ..).mono rfl)

theorem State.opAck_touches : ∀ s o status, Touches 4194308 s (State.opAck s o status) := by
  intro s o status
  unfold State.opAck
  extract_lets +onlyGivenNames s1
  have h_s1 : Touches 4194308 s s1 := ((State.modOp_touches ..).mono rfl)
  clear_value s1
  split
  · split
    · exact h_s1
    · extract_lets +onlyGivenNames s2
      have h_s2 : Touches 4194308 s s2 := (Touches.ite (fun _ => (h_s1.step (State.hostPut_touches ..) rfl)) (fun _ => h_s1))
      clear_value s2
      exact (h_s2.step (State.ctiDone_touches ..) rfl)
  · exact (h_s1.step (State.modSess_touches ..) rfl)
  · exact (h_s1.step (State.modSess_touches ..) rfl)
  · exact h_s1

theorem State.bufAcks_touches : ∀ s, Touches 4194308 s (State.bufAcks s) := by
  intro s
  unfold State.bufAcks
  exact (Touches.foldl (Touches.refl _ _) (fun _ _ h => (Touches.ite (fun _ => h) (fun _ => (h.step (State.opAck_touches ..) rfl)))))

theorem State.nsChange_touches {K : Nat} {s u : State} {k : Nat} {f : State → State} (h : Touches K s u)
    (hk : Nat.land 512 K = 512) (hf : ∀ t, Touches K s t → Touches K s (f t)) :
    Touches K s (State.nsChange u k f) := by
  unfold State.nsChange
  exact Touches.ite (fun _ => hf _ h) (fun _ => (hf _ h).step (State.produce_touches ..) hk)

theorem State.nsLose_touches : ∀ s k c, Touches 4195908 s (State.nsLose s k c) := by
  intro s k c
  unfold State.nsLose
  refine (Touches.ite (fun _ => Touches.refl _ _) (fun _ => ?_))
  extract_lets +onlyGivenNames t1
  have h_t1 : Touches 4195908 s t1 := (State.nsChange_touches (Touches.refl _ _) rfl (fun _ h => (h.step (State.modNs_touches ..) rfl)))
  clear_value t1
  extract_lets +onlyGivenNames t11
  have h_t11 : Touches 4195908 s t11 := (Touches.ite (fun _ => (h_t1.step (State.raise_touches ..) rfl)) (fun _ => h_t1))
  clear_value t11
  refine (Touches.ite (fun _ => ?_) (fun _ => h_t11))
  split
  · exact (h_t11.step (State.setProg_touches ..) rfl)
  · exact h_t11

theorem State.partNext_touches : ∀ s k, Touches 4194304 s (State.partNext s k) := by
  intro s k
  unfold State.partNext
  split
  · exact Touches.refl _ _
  · split
    · exact ((State.setProg_touches ..).mono rfl)
    · extract_lets +onlyGivenNames o
      clear_value o
      exact (((State.onStor_touches ..).mono rfl).step (State.opIssue_touches ..) rfl)

theorem State.partStart_touches : ∀ s k, Touches 4194304 s (State.partStart s k) := by
  intro s k
  unfold State.partStart
  split
  · exact Touches.refl _ _
  · exact (((State.setProg_touches ..).mono rfl).step (State.partNext_touches ..) rfl)

theorem State.progCommit_touches : ∀ s k, Touches 1024 s (State.progCommit s k) := by
  intro s k
  unfold State.progCommit
  exact ((State.cocoonPut_touches ..).mono rfl)

theorem State.opEnd_touches : ∀ s o, Touches 4195908 s (State.opEnd s o) := by
  intro s o
  unfold State.opEnd
  extract_lets +onlyGivenNames n bad
  clear_value n bad
  extract_lets +onlyGivenNames s1
  have h_s1 : Touches 4195908 s s1 := ((State.onStor_touches ..).mono rfl)
  clear_value s1
  extract_lets +onlyGivenNames s2
  have h_s2 : Touches 4195908 s s2 := (Touches.ite (fun _ => h_s1) (fun _ => (Touches.foldl h_s1 (fun _ _ h => (h.step (State.nsLose_touches ..) rfl)))))
  clear_value s2
  extract_lets +onlyGivenNames s3
  have h_s3 : Touches 4195908 s s3 := (Touches.ite (fun _ => (Touches.foldl h_s2 (fun _ _ h => (h.step (State.modDirty_touches ..) rfl)))) (fun _ => h_s2))
  clear_value s3
  split
  · split
    · exact (Touches.ite (fun _ => h_s3) (fun _ => (Touches.ite (fun _ => (h_s3.step (State.partNext_touches ..) rfl)) (fun _ => ((h_s3.step (State.setProg_touches ..) rfl).step (State.partNext_touches ..) rfl)))))
    · exact h_s3
  · exact (Touches.ite (fun _ => (Touches.ite (fun _ => (h_s3.step (State.deferError_touches ..) rfl)) (fun _ => h_s3))) (fun _ => (h_s3.step (State.opAck_touches ..) rfl)))
  · extract_lets +onlyGivenNames s4
    have h_s4 : Touches 4195908 s s4 := (Touches.ite (fun _ => (h_s3.step (State.deferError_touches ..) rfl)) (fun _ => h_s3))
    clear_value s4
    exact (Touches.ite (fun _ => h_s4) (fun _ => (h_s4.step (State.opAck_touches ..) rfl)))

theorem State.nsSettle_touches : ∀ s k, Touches 4194820 s (State.nsSettle s k) := by
  intro s k
  unfold State.nsSettle
  extract_lets +onlyGivenNames out
  clear_value out
  exact (Touches.ite (fun _ => ((State.nsChange_touches (Touches.refl _ _) rfl (fun _ h => (h.step (State.modNs_touches ..) rfl))).step (State.putBit_touches ..) rfl)) (fun _ => Touches.refl _ _))

theorem State.qSettle_touches : ∀ s q, Touches 4194308 s (State.qSettle s q) := by
  intro s q
  unfold State.qSettle
  split
  · exact Touches.refl _ _
  · refine (Touches.ite (fun _ => ?_) (fun _ => Touches.refl _ _))
    extract_lets +onlyGivenNames s1
    have h_s1 : Touches 4194308 s s1 := ((State.onStor_touches ..).mono rfl)
    clear_value s1
    split
    · exact (h_s1.step (State.ctiDone_touches ..) rfl)
    · exact h_s1

theorem State.storRun_touches : ∀ s x1, Touches 4195908 s (State.storRun s x1) := by
  intro s x1
  induction x1 generalizing s
  · unfold State.storRun
    exact Touches.refl _ _
  · rename_i ih
    unfold State.storRun
    extract_lets +onlyGivenNames s1
    have h_s1 : Touches 4195908 s s1 := by
      unfold s1
      split
      · exact (((State.opEnd_touches ..).mono rfl).step (ih ..) rfl)
      · exact Touches.refl _ _
    clear_value s1
    extract_lets +onlyGivenNames s2
    have h_s2 : Touches 4195908 s s2 := (h_s1.step (State.bufAdmit_touches ..) rfl)
    clear_value s2
    exact ((h_s2.step (State.nvmeIssue_touches ..) rfl).step (State.bufAcks_touches ..) rfl)

theorem State.storAfter_touches : ∀ s, Touches 4195908 s (State.storAfter s) := by
  intro s
  unfold State.storAfter
  extract_lets +onlyGivenNames s1
  have h_s1 : Touches 4195908 s s1 := ((State.storRun_touches ..).mono rfl)
  clear_value s1
  extract_lets +onlyGivenNames s2
  have h_s2 : Touches 4195908 s s2 := (Touches.foldl h_s1 (fun _ _ h => (h.step (State.qSettle_touches ..) rfl)))
  clear_value s2
  extract_lets +onlyGivenNames s3
  have h_s3 : Touches 4195908 s s3 := (Touches.foldl h_s2 (fun _ _ h => (h.step (State.nsSettle_touches ..) rfl)))
  clear_value s3
  exact (Touches.ite (fun _ => (h_s3.step (State.onStor_touches ..) rfl)) (fun _ => h_s3))

theorem State.opStart_touches : ∀ s owner kind k lba count data fua, Touches 4194304 s (State.opStart s owner kind k lba count data fua) := by
  intro s owner kind k lba count data fua
  unfold State.opStart
  extract_lets +onlyGivenNames n buf o
  clear_value n buf o
  extract_lets +onlyGivenNames s1
  have h_s1 : Touches 4194304 s s1 := ((State.onStor_touches ..).mono rfl)
  clear_value s1
  exact (Touches.ite (fun _ => h_s1) (fun _ => (h_s1.step (State.opIssue_touches ..) rfl)))

theorem State.nvmeDrop_touches : ∀ s id, Touches 4194304 s (State.nvmeDrop s id) := by
  intro s id
  unfold State.nvmeDrop
  exact ((State.onStor_touches ..).mono rfl)

theorem State.nvmeApply_touches : ∀ s c, Touches 4194304 s (State.nvmeApply s c) := by
  intro s c
  unfold State.nvmeApply
  refine (Touches.ite (fun _ => Touches.refl _ _) (fun _ => ?_))
  split
  · exact Touches.refl _ _
  · exact ((State.onStor_touches ..).mono rfl)

theorem State.nvmeTear_touches : ∀ s c, Touches 37748736 s (State.nvmeTear s c) := by
  intro s c
  unfold State.nvmeTear
  refine (Touches.ite (fun _ => Touches.refl _ _) (fun _ => ?_))
  split
  · exact Touches.refl _ _
  · extract_lets +onlyGivenNames data
    clear_value data
    refine (Touches.foldl (Touches.refl _ _) (fun _ _ h => ?_))
    extract_lets +onlyGivenNames r
    have h_r : Touches 37748736 s r.2 := (h.step (State.drawNat_touches ..) rfl)
    clear_value r
    exact (Touches.ite (fun _ => h_r) (fun _ => (h_r.step (State.onStor_touches ..) rfl)))

theorem State.nvmeFail_touches : ∀ s c offline, Touches 37748736 s (State.nvmeFail s c offline) := by
  intro s c offline
  unfold State.nvmeFail
  extract_lets +onlyGivenNames s1
  have h_s1 : Touches 37748736 s s1 := ((((State.nvmeTear_touches ..).mono rfl).step (State.nvmeDrop_touches ..) rfl).step (State.modOp_touches ..) rfl)
  clear_value s1
  split
  · exact h_s1
  · refine (Touches.ite (fun _ => h_s1) (fun _ => ?_))
    split
    · exact ((h_s1.step (State.modOp_touches ..) rfl).step (State.opCmds_touches ..) rfl)
    · exact h_s1

theorem State.ssdOffline_touches : ∀ s k, Touches 37750340 s (State.ssdOffline s k) := by
  intro s k
  unfold State.ssdOffline
  extract_lets +onlyGivenNames s1
  have h_s1 : Touches 37750340 s s1 := ((State.setSsd_touches ..).mono rfl)
  clear_value s1
  extract_lets +onlyGivenNames s2
  have h_s2 : Touches 37750340 s s2 := by
    unfold s2
    refine (Touches.foldl h_s1 (fun _ _ h => ?_))
    extract_lets +onlyGivenNames n
    clear_value n
    exact (Touches.foldl h (fun _ _ h1 => (Touches.ite (fun _ => (h1.step (State.nsLose_touches ..) rfl)) (fun _ => h1))))
  clear_value s2
  exact ((Touches.foldl h_s2 (fun _ _ h => (h.step (State.nvmeFail_touches ..) rfl))).step (State.storAfter_touches ..) rfl)

theorem State.ssdRecovery_touches : ∀ s k, Touches 4195908 s (State.ssdRecovery s k) := by
  intro s k
  unfold State.ssdRecovery
  exact (((State.setSsd_touches ..).mono rfl).step (State.onStor_touches ..) rfl)

theorem State.ctiResume_touches : ∀ s, Touches 4194304 s (State.ctiResume s) := by
  intro s
  unfold State.ctiResume
  refine (Touches.ite (fun _ => Touches.refl _ _) (fun _ => ?_))
  extract_lets +onlyGivenNames s1
  have h_s1 : Touches 4194304 s s1 := by
    unfold s1
    refine (Touches.foldl (Touches.refl _ _) (fun _ _ h => ?_))
    extract_lets +onlyGivenNames k
    clear_value k
    split
    · exact h
    · extract_lets +onlyGivenNames n
      clear_value n
      exact (Touches.ite (fun _ => h) (fun _ => (Touches.ite (fun _ => (h.step (State.partStart_touches ..) rfl)) (fun _ => h))))
  clear_value s1
  extract_lets +onlyGivenNames left
  clear_value left
  exact (Touches.ite (fun _ => h_s1) (fun _ => (h_s1.step (State.onStor_touches ..) rfl)))

theorem State.nvmhCfg_touches : ∀ s m k v, Touches 4195916 s (State.nvmhCfg s m k v) := by
  intro s m k v
  unfold State.nvmhCfg
  extract_lets +onlyGivenNames p
  clear_value p
  refine (State.regWrite_touches (Touches.refl _ _) rfl (fun _ h => ?_))
  extract_lets +onlyGivenNames u
  have h_u : Touches 4195916 s u := (h.step (State.storeFields_touches ..) rfl)
  clear_value u
  extract_lets +onlyGivenNames en
  clear_value en
  refine (Touches.ite (fun _ => ((h_u.step (State.modSsd_touches ..) rfl).step (State.setSsd_touches ..) rfl)) (fun _ => (Touches.ite (fun _ => ?_) (fun _ => h_u))))
  extract_lets +onlyGivenNames w
  have h_w : Touches 4195916 s w := ((h_u.step (State.setSsd_touches ..) rfl).step (State.onStor_touches ..) rfl)
  clear_value w
  exact (h_w.step (State.setReg_touches ..) rfl)

theorem execNvmhEnable_touches : ∀ m k v s, Ends 4195916 s (execNvmhEnable m k v s) := by
  intro m k v s
  unfold execNvmhEnable
  exact Ends.next ((State.nvmhCfg_touches ..).mono rfl)

theorem execNvmhDisable_touches : ∀ m k v s, Ends 4195916 s (execNvmhDisable m k v s) := by
  intro m k v s
  unfold execNvmhDisable
  exact Ends.next ((State.nvmhCfg_touches ..).mono rfl)

theorem execSsdInitDone_touches : ∀ k result speed width rev vwc lba4k queues cap s, Ends 37750340 s (execSsdInitDone k result speed width rev vwc lba4k queues cap s) := by
  intro k result speed width rev vwc lba4k queues cap s
  unfold execSsdInitDone
  extract_lets +onlyGivenNames p
  clear_value p
  refine Ends.ite (fun _ => ?_) (fun _ => ?_)
  · exact Ends.next (Touches.refl _ _)
  · extract_lets +onlyGivenNames s1
    have h_s1 : Touches 37750340 s s1 := ((State.setSsd_touches ..).mono rfl)
    clear_value s1
    split
    · extract_lets +onlyGivenNames sp wi
      clear_value sp wi
      extract_lets +onlyGivenNames s2
      have h_s2 : Touches 37750340 s s2 := (h_s1.step (State.setReg_touches ..) rfl)
      clear_value s2
      extract_lets +onlyGivenNames s3
      have h_s3 : Touches 37750340 s s3 := (h_s2.step (State.setReg_touches ..) rfl)
      clear_value s3
      extract_lets +onlyGivenNames s4
      have h_s4 : Touches 37750340 s s4 := ((h_s3.step (State.setReg64_touches ..) rfl).step (State.modSsd_touches ..) rfl)
      clear_value s4
      exact Ends.next (((h_s4.step (State.setSsd_touches ..) rfl).step (State.ctiResume_touches ..) rfl).step (State.storAfter_touches ..) rfl)
    · exact Ends.next ((h_s1.step (State.setSsd_touches ..) rfl).step (State.raise_touches ..) rfl)
    · extract_lets +onlyGivenNames s2
      have h_s2 : Touches 37750340 s s2 := (h_s1.step (State.modSsd_touches ..) rfl)
      clear_value s2
      refine Ends.ite (fun _ => ?_) (fun _ => ?_)
      · exact Ends.next (h_s2.step (State.ssdOffline_touches ..) rfl)
      · exact Ends.next h_s2

theorem execNvmeCompletion_touches : ∀ k id status cor uncor temp s, Ends 37750340 s (execNvmeCompletion k id status cor uncor temp s) := by
  intro k id status cor uncor temp s
  unfold execNvmeCompletion
  extract_lets +onlyGivenNames p
  clear_value p
  refine Ends.ite (fun _ => ?_) (fun _ => ?_)
  · exact Ends.next (Touches.refl _ _)
  · extract_lets +onlyGivenNames s1
    have h_s1 : Touches 37750340 s s1 := ((((State.count_touches ..).mono rfl).step (State.count_touches ..) rfl).step (State.memRead_touches ..) rfl)
    clear_value s1
    refine Ends.ite (fun _ => ?_) (fun _ => ?_)
    · refine Ends.ite (fun _ => ?_) (fun _ => ?_)
      · exact Ends.next (((h_s1.step (State.modSsd_touches ..) rfl).step (State.setFld_touches ..) rfl).step (State.count_touches ..) rfl)
      · exact Ends.next h_s1
    · split
      · exact Ends.next h_s1
      · extract_lets +onlyGivenNames s2
        have h_s2 : Touches 37750340 s s2 := (h_s1.step (State.count_touches ..) rfl)
        clear_value s2
        split
        · exact Ends.next (((h_s2.step (State.nvmeApply_touches ..) rfl).step (State.nvmeDrop_touches ..) rfl).step (State.storAfter_touches ..) rfl)
        · refine Ends.ite (fun _ => ?_) (fun _ => ?_)
          · exact Ends.next ((((h_s2.step (State.count_touches ..) rfl).step (State.raise_touches ..) rfl).step (State.nvmeFail_touches ..) rfl).step (State.storAfter_touches ..) rfl)
          · exact Ends.next (h_s2.step (State.onStor_touches ..) rfl)
        · exact Ends.next ((h_s2.step (State.nvmeFail_touches ..) rfl).step (State.storAfter_touches ..) rfl)

theorem execNvmeCmdTimeout_touches : ∀ k id s, Ends 4195396 s (execNvmeCmdTimeout k id s) := by
  intro k id s
  unfold execNvmeCmdTimeout
  extract_lets +onlyGivenNames p
  clear_value p
  split
  · exact Ends.next (Touches.refl _ _)
  · split
    · exact Ends.next (Touches.refl _ _)
    · refine Ends.ite (fun _ => ?_) (fun _ => ?_)
      · exact Ends.next (Touches.refl _ _)
      · extract_lets +onlyGivenNames s1
        have h_s1 : Touches 4195396 s s1 := ((State.onStor_touches ..).mono rfl)
        clear_value s1
        exact Ends.next ((h_s1.step (State.count_touches ..) rfl).step (State.raise_touches ..) rfl)

theorem execNvmeAbortTimeout_touches : ∀ k id s, Ends 4195908 s (execNvmeAbortTimeout k id s) := by
  intro k id s
  unfold execNvmeAbortTimeout
  extract_lets +onlyGivenNames p
  clear_value p
  split
  · exact Ends.next (Touches.refl _ _)
  · split
    · exact Ends.next (Touches.refl _ _)
    · refine Ends.ite (fun _ => ?_) (fun _ => ?_)
      · exact Ends.next (Touches.refl _ _)
      · exact Ends.next ((State.ssdRecovery_touches ..).mono rfl)

theorem execCstsCfs_touches : ∀ k s, Ends 4195908 s (execCstsCfs k s) := by
  intro k s
  unfold execCstsCfs
  refine Ends.ite (fun _ => ?_) (fun _ => ?_)
  · exact Ends.next ((State.ssdRecovery_touches ..).mono rfl)
  · exact Ends.next (Touches.refl _ _)

theorem State.laneFailed_touches : ∀ s l, Touches 1024 s (State.laneFailed s l) := by
  intro s l
  unfold State.laneFailed
  exact ((State.onDep_touches ..).mono rfl)

theorem execPcieLaneFail_touches : ∀ k lane s, Ends 4204100 s (execPcieLaneFail k lane s) := by
  intro k lane s
  unfold execPcieLaneFail
  extract_lets +onlyGivenNames p
  clear_value p
  refine Ends.ite (fun _ => ?_) (fun _ => ?_)
  · refine Ends.ite (fun _ => ?_) (fun _ => ?_)
    · exact Ends.next (Touches.refl _ _)
    · exact Ends.next ((State.onPlat_touches ..).mono rfl)
  · refine Ends.ite (fun _ => ?_) (fun _ => ?_)
    · exact Ends.next (Touches.refl _ _)
    · extract_lets +onlyGivenNames bad
      clear_value bad
      extract_lets +onlyGivenNames s1
      have h_s1 : Touches 4204100 s s1 := ((((State.modSsd_touches ..).mono rfl).step (State.setFld_touches ..) rfl).step (State.laneFailed_touches ..) rfl)
      clear_value s1
      split
      · extract_lets +onlyGivenNames w'
        clear_value w'
        extract_lets +onlyGivenNames s2
        have h_s2 : Touches 4204100 s s2 := ((h_s1.step (State.setFld_touches ..) rfl).step (State.putBit_touches ..) rfl)
        clear_value s2
        extract_lets +onlyGivenNames s3
        have h_s3 : Touches 4204100 s s3 := ((h_s2.step (State.count_touches ..) rfl).step (State.raise_touches ..) rfl)
        clear_value s3
        extract_lets +onlyGivenNames s4
        have h_s4 : Touches 4204100 s s4 := (h_s3.step (State.onStor_touches ..) rfl)
        clear_value s4
        exact Ends.next (h_s4.step (State.cocoonPut_touches ..) rfl)
      · extract_lets +onlyGivenNames s2
        have h_s2 : Touches 4204100 s s2 := ((((h_s1.step (State.setFld_touches ..) rfl).step (State.putBit_touches ..) rfl).step (State.raise_touches ..) rfl).step (State.cocoonPut_touches ..) rfl)
        clear_value s2
        refine Ends.ite (fun _ => ?_) (fun _ => ?_)
        · exact Ends.next (h_s2.step (State.ssdRecovery_touches ..) rfl)
        · exact Ends.next h_s2

theorem State.nsCmd_touches {K : Nat} {s u : State} {m : Master} {eff : State → State} (h : Touches K s u)
    (hk : Nat.land 1092 K = 1092) (heff : ∀ t, Touches K s t → Touches K s (eff t)) : Touches K s (State.nsCmd u m eff) :=
  State.regWrite_touches h hk fun _ ht => heff _ (ht.step (State.cmdStart_touches ..) (land_sub rfl hk))

theorem State.recCmd_touches {K : Nat} {s u : State} {m : Master} {eff : State → State} (h : Touches K s u)
    (hk : Nat.land 1092 K = 1092) (heff : ∀ t, Touches K s t → Touches K s (eff t)) : Touches K s (State.recCmd u m eff) :=
  State.regWrite_touches h hk fun _ ht => heff _ (ht.step (State.cmdStart_touches ..) (land_sub rfl hk))

theorem execNsLoad_touches : ∀ m s, Ends 1092 s (execNsLoad m s) := by
  intro m s
  unfold execNsLoad
  exact Ends.next (State.nsCmd_touches (Touches.refl _ _) rfl (fun _ h => (h.step (State.setRegs32_touches ..) rfl)))

theorem execNsStore_touches : ∀ m s, Ends 4195908 s (execNsStore m s) := by
  intro m s
  unfold execNsStore
  refine Ends.next (State.nsCmd_touches (Touches.refl _ _) rfl (fun _ h => ?_))
  extract_lets +onlyGivenNames k ws n
  clear_value k ws n
  refine (Touches.ite (fun _ => (h.step (State.stateWrite_touches ..) rfl)) (fun _ => (Touches.ite (fun _ => ((h.step (State.setReg_touches ..) rfl).step (State.modNs_touches ..) rfl)) (fun _ => ?_))))
  extract_lets +onlyGivenNames r
  clear_value r
  refine (Touches.ite (fun _ => ?_) (fun _ => ?_))
  · extract_lets +onlyGivenNames u
    have h_u : Touches 4195908 s u := ((h.step (State.setReg_touches ..) rfl).step (State.raise_touches ..) rfl)
    clear_value u
    exact (Touches.ite (fun _ => (h_u.step (State.raise_touches ..) rfl)) (fun _ => h_u))
  · extract_lets +onlyGivenNames u
    have h_u : Touches 4195908 s u := (State.nsChange_touches (h.step (State.setReg_touches ..) rfl) rfl (fun _ h1 => (h1.step (State.modNs_touches ..) rfl)))
    clear_value u
    extract_lets +onlyGivenNames lost
    clear_value lost
    exact (((Touches.foldl h_u (fun _ _ h1 => (h1.step (State.nsLose_touches ..) rfl))).step (State.ctiResume_touches ..) rfl).step (State.storAfter_touches ..) rfl)

theorem execNsDisable_touches : ∀ m s, Ends 4195908 s (execNsDisable m s) := by
  intro m s
  unfold execNsDisable
  refine Ends.next (State.nsCmd_touches (Touches.refl _ _) rfl (fun _ h => ?_))
  extract_lets +onlyGivenNames k
  clear_value k
  exact (Touches.ite (fun _ => (h.step (State.stateWrite_touches ..) rfl)) (fun _ => (((h.step (State.setReg_touches ..) rfl).step (State.modNs_touches ..) rfl).step (State.storAfter_touches ..) rfl)))

theorem execDirtyCleanTimeout_touches : ∀ k r s, Ends 4195328 s (execDirtyCleanTimeout k r s) := by
  intro k r s
  unfold execDirtyCleanTimeout
  extract_lets +onlyGivenNames n b busy d
  clear_value n b busy d
  refine Ends.ite (fun _ => ?_) (fun _ => ?_)
  · exact Ends.next (Touches.refl _ _)
  · exact Ends.next ((State.modDirty_touches ..).mono rfl)

theorem execRecSessLoad_touches : ∀ m s, Ends 1092 s (execRecSessLoad m s) := by
  intro m s
  unfold execRecSessLoad
  exact Ends.next (State.recCmd_touches (Touches.refl _ _) rfl (fun _ h => (h.step (State.setRegs32_touches ..) rfl)))

theorem execRecSessStore_touches : ∀ m s, Ends 4197444 s (execRecSessStore m s) := by
  intro m s
  unfold execRecSessStore
  refine Ends.next (State.recCmd_touches (Touches.refl _ _) rfl (fun _ h => ?_))
  extract_lets +onlyGivenNames c ws kind
  clear_value c ws kind
  refine (Touches.ite (fun _ => (h.step (State.scxConflict_touches ..) rfl)) (fun _ => (Touches.ite (fun _ => (h.step (State.stateWrite_touches ..) rfl)) (fun _ => (Touches.ite (fun _ => ((h.step (State.setReg_touches ..) rfl).step (State.scxPut_touches ..) rfl)) (fun _ => ?_))))))
  extract_lets +onlyGivenNames k a n outside others bad
  clear_value k a n outside others bad
  exact (Touches.ite (fun _ => ((h.step (State.setReg_touches ..) rfl).step (State.raise_touches ..) rfl)) (fun _ => ((((h.step (State.setReg_touches ..) rfl).step (State.scxPut_touches ..) rfl).step (State.scxClaim_touches ..) rfl).step (State.modSess_touches ..) rfl)))

theorem State.recEnd_touches : ∀ s c, Touches 4196352 s (State.recEnd s c) := by
  intro s c
  unfold State.recEnd
  exact ((((State.scxPut_touches ..).mono rfl).step (State.scxFree_touches ..) rfl).step (State.modSess_touches ..) rfl)

theorem State.recQuit_touches : ∀ s c, Touches 4206151 s (State.recQuit s c) := by
  intro s c
  unfold State.recQuit
  extract_lets +onlyGivenNames q
  clear_value q
  exact ((Touches.foldl (Touches.refl _ _) (fun _ _ h => (h.step (State.qUntake_touches ..) rfl))).step (State.recEnd_touches ..) rfl)

theorem State.recSettle_touches : ∀ s c, Touches 4196352 s (State.recSettle s c) := by
  intro s c
  unfold State.recSettle
  exact (Touches.ite (fun _ => ((State.recEnd_touches ..).mono rfl)) (fun _ => Touches.refl _ _))

theorem execRecSessStop_touches : ∀ m s, Ends 4197444 s (execRecSessStop m s) := by
  intro m s
  unfold execRecSessStop
  refine Ends.next (State.recCmd_touches (Touches.refl _ _) rfl (fun _ h => ?_))
  extract_lets +onlyGivenNames c
  clear_value c
  exact (Touches.ite (fun _ => (h.step (State.stateWrite_touches ..) rfl)) (fun _ => ((h.step (State.modSess_touches ..) rfl).step (State.recSettle_touches ..) rfl)))

theorem State.recIndexWrite_touches : ∀ s c, Touches 4194304 s (State.recIndexWrite s c) := by
  intro s c
  unfold State.recIndexWrite
  extract_lets +onlyGivenNames ws x
  clear_value ws x
  refine (Touches.ite (fun _ => Touches.refl _ _) (fun _ => ?_))
  extract_lets +onlyGivenNames k lo
  clear_value k lo
  extract_lets +onlyGivenNames s1
  have h_s1 : Touches 4194304 s s1 := ((State.opStart_touches ..).mono rfl)
  clear_value s1
  exact (h_s1.step (State.modSess_touches ..) rfl)

theorem State.recIndexNext_touches : ∀ s c, Touches 4195908 s (State.recIndexNext s c) := by
  intro s c
  unfold State.recIndexNext
  extract_lets +onlyGivenNames ws x
  clear_value ws x
  refine (Touches.ite (fun _ => Touches.refl _ _) (fun _ => ?_))
  extract_lets +onlyGivenNames s1
  have h_s1 : Touches 4195908 s s1 := ((State.recIndexWrite_touches ..).mono rfl)
  clear_value s1
  extract_lets +onlyGivenNames len
  clear_value len
  exact (Touches.ite (fun _ => (h_s1.step (State.modSess_touches ..) rfl)) (fun _ => (Touches.ite (fun _ => (h_s1.step (State.modSess_touches ..) rfl)) (fun _ => (((h_s1.step (State.modSess_touches ..) rfl).step (State.raise_touches ..) rfl).step (State.produce_touches ..) rfl)))))

theorem State.recAdd_touches : ∀ s c d lba bytes frame flags dataOk, Touches 4195908 s (State.recAdd s c d lba bytes frame flags dataOk) := by
  intro s c d lba bytes frame flags dataOk
  unfold State.recAdd
  extract_lets +onlyGivenNames x e
  clear_value x e
  extract_lets +onlyGivenNames s1
  have h_s1 : Touches 4195908 s s1 := ((State.modSess_touches ..).mono rfl)
  clear_value s1
  exact (h_s1.step (State.recIndexNext_touches ..) rfl)

theorem execRecItemTake_touches : ∀ c s, Ends 37760583 s (execRecItemTake c s) := by
  intro c s
  unfold execRecItemTake
  extract_lets +onlyGivenNames ws x
  clear_value ws x
  refine Ends.ite (fun _ => ?_) (fun _ => ?_)
  · exact Ends.next (Touches.refl _ _)
  · extract_lets +onlyGivenNames k a q
    clear_value k a q
    split
    · exact Ends.next (Touches.of_snd ((State.take_touches ..).mono rfl) ‹_›)
    · extract_lets +onlyGivenNames r len flags blocks
      clear_value r len flags blocks
      refine Ends.ite (fun _ => ?_) (fun _ => ?_)
      · exact Ends.next (((Touches.of_snd ((State.take_touches ..).mono rfl) ‹_›).step (State.recAdd_touches ..) rfl).step (State.storAfter_touches ..) rfl)
      · refine Ends.ite (fun _ => ?_) (fun _ => ?_)
        · exact Ends.next (((Touches.of_snd ((State.take_touches ..).mono rfl) ‹_›).step (State.recAdd_touches ..) rfl).step (State.storAfter_touches ..) rfl)
        · extract_lets +onlyGivenNames wrap
          clear_value wrap
          refine Ends.ite (fun _ => ?_) (fun _ => ?_)
          · extract_lets +onlyGivenNames s2
            have h_s2 : Touches 37760583 s s2 := (((State.modSess_touches ..).mono rfl).step (State.raise_touches ..) rfl)
            clear_value s2
            exact Ends.next (h_s2.step (State.produce_touches ..) rfl)
          · extract_lets +onlyGivenNames at_
            clear_value at_
            extract_lets +onlyGivenNames rd
            have h_rd : Touches 37760583 s rd.2 := ((Touches.of_snd ((State.take_touches ..).mono rfl) ‹_›).step (State.busRead_touches ..) rfl)
            clear_value rd
            extract_lets +onlyGivenNames pad
            have h_pad : Touches 37760583 s pad.2 := (h_rd.step (State.drawBytes_touches ..) rfl)
            clear_value pad
            extract_lets +onlyGivenNames s2
            have h_s2 : Touches 37760583 s s2 := (h_pad.step (State.opStart_touches ..) rfl)
            clear_value s2
            extract_lets +onlyGivenNames s3
            have h_s3 : Touches 37760583 s s3 := (h_s2.step (State.modSess_touches ..) rfl)
            clear_value s3
            exact Ends.next ((h_s3.step (State.recAdd_touches ..) rfl).step (State.storAfter_touches ..) rfl)

theorem execIndexFlushTimeout_touches : ∀ c s, Ends 4195908 s (execIndexFlushTimeout c s) := by
  intro c s
  unfold execIndexFlushTimeout
  extract_lets +onlyGivenNames x
  clear_value x
  refine Ends.ite (fun _ => ?_) (fun _ => ?_)
  · exact Ends.next (Touches.refl _ _)
  · exact Ends.next (((State.recIndexWrite_touches ..).mono rfl).step (State.storAfter_touches ..) rfl)

theorem execRecItemReturn_touches : ∀ c s, Ends 4206151 s (execRecItemReturn c s) := by
  intro c s
  unfold execRecItemReturn
  extract_lets +onlyGivenNames ws
  clear_value ws
  split
  · refine Ends.ite (fun _ => ?_) (fun _ => ?_)
    · exact Ends.next (Touches.refl _ _)
    · extract_lets +onlyGivenNames s1
      have h_s1 : Touches 4206151 s s1 := (((State.modSess_touches ..).mono rfl).step (State.push_touches ..) rfl)
      clear_value s1
      exact Ends.next ((h_s1.step (State.produceOn_touches ..) rfl).step (State.recSettle_touches ..) rfl)
  · exact Ends.next (Touches.refl _ _)

theorem execFormatPartDone_touches : ∀ k s, Ends 4195908 s (execFormatPartDone k s) := by
  intro k s
  unfold execFormatPartDone
  split
  · exact Ends.next (Touches.refl _ _)
  · refine Ends.ite (fun _ => ?_) (fun _ => ?_)
    · exact Ends.next (Touches.refl _ _)
    · refine Ends.ite (fun _ => ?_) (fun _ => ?_)
      · exact Ends.next ((((State.nsChange_touches (Touches.refl _ _) rfl (fun _ h => (h.step (State.setProg_touches ..) rfl))).step (State.progCommit_touches ..) rfl).step (State.produce_touches ..) rfl).step (State.storAfter_touches ..) rfl)
      · exact Ends.next (((((State.setProg_touches ..).mono rfl).step (State.progCommit_touches ..) rfl).step (State.partStart_touches ..) rfl).step (State.storAfter_touches ..) rfl)

end Sys2Proof.Machine
end

