-- ==== Sys2Proof/Laws/Touch/BlackBox.lean ====
section
/-!
SUPPORT. What each operation of Machine/BlackBox.lean may touch (see Laws/Touches.lean).
-/

-- One proof at a time bounds the threads and memory of a compile.
set_option Elab.async false

namespace Sys2Proof.Machine

open Sys2Proof

theorem execFaultReport_touches : ∀ p s, Ends 1604 s (execFaultReport p s) := by
  intro p s
  unfold execFaultReport
  split
  · exact Ends.next (Touches.refl _ _)
  · extract_lets +onlyGivenNames a o sev safety
    clear_value a o sev safety
    extract_lets +onlyGivenNames s1
    have h_s1 : Touches 1604 s s1 := ((State.onDep_touches ..).mono rfl)
    clear_value s1
    extract_lets +onlyGivenNames s2
    have h_s2 : Touches 1604 s s2 := (Touches.ite (fun _ => (h_s1.step (State.count_touches ..) rfl)) (fun _ => (h_s1.step (State.putBit_touches ..) rfl)))
    clear_value s2
    extract_lets +onlyGivenNames s3
    have h_s3 : Touches 1604 s s3 := (h_s2.step (State.silkOf_touches ..) rfl)
    clear_value s3
    extract_lets +onlyGivenNames s4
    have h_s4 : Touches 1604 s s4 := ((h_s3.step (State.count_touches ..) rfl).step (State.setReg_touches ..) rfl)
    clear_value s4
    extract_lets +onlyGivenNames s5
    have h_s5 : Touches 1604 s s5 := (Touches.ite (fun _ => ((h_s4.step (State.setInt_touches ..) rfl).step (State.produce_touches ..) rfl)) (fun _ => h_s4))
    clear_value s5
    extract_lets +onlyGivenNames s6
    have h_s6 : Touches 1604 s s6 := (Touches.ite (fun _ => (h_s5.step (State.snapTrigger_touches ..) rfl)) (fun _ => h_s5))
    clear_value s6
    exact Ends.next ((Touches.ite (fun _ => (h_s6.step (State.produce_touches ..) rfl)) (fun _ => h_s6)).step (State.fnUpdate_touches ..) rfl)

theorem execFindCmd_touches : ∀ m v s, Ends 1092 s (execFindCmd m v s) := by
  intro m v s
  unfold execFindCmd
  refine Ends.next (State.regWrite_touches (Touches.refl _ _) rfl (fun _ h => (Touches.ite (fun _ => h) (fun _ => ?_))))
  extract_lets +onlyGivenNames off cur
  clear_value off cur
  split
  · exact (((h.step (State.setReg_touches ..) rfl).step (State.setReg_touches ..) rfl).step (State.setReg_touches ..) rfl)
  · exact (((h.step (State.setReg_touches ..) rfl).step (State.setReg_touches ..) rfl).step (State.setReg_touches ..) rfl)

theorem execWrGo_touches : ∀ m v s, Ends 1604 s (execWrGo m v s) := by
  intro m v s
  unfold execWrGo
  refine Ends.next (State.regWrite_touches (Touches.refl _ _) rfl (fun t h => ?_))
  extract_lets p off ty len r reason
  have hr : Touches 1604 s r.2 := h.step (State.busRead_touches ..) rfl
  refine Touches.ite (fun _ => h) (fun _ => Touches.ite (fun _ => h.step (State.stateWrite_touches ..) rfl) (fun _ => Touches.ite (fun _ => ?_) (fun _ => ?_)))
  · exact (hr.step (State.setReg_touches ..) rfl).step (State.cocoonPut_touches ..) rfl
  · exact ((Touches.ite (fun _ => hr) (fun _ => h)).step (State.setReg_touches ..) rfl).step (State.raise_touches ..) rfl

theorem State.cocoonPoke_touches : ∀ s a bs, Touches 3 s (State.cocoonPoke s a bs) := by
  intro s a bs
  unfold State.cocoonPoke
  exact ((Touches.foldl (Touches.refl _ _) (fun _ _ h => (h.step (State.setPoison_touches ..) rfl))).step (State.poke_touches ..) rfl)

theorem State.cocoonHard_touches : ∀ s b word, Touches 1604 s (State.cocoonHard s b word) := by
  intro s b word
  unfold State.cocoonHard
  extract_lets +onlyGivenNames used full
  clear_value used full
  extract_lets +onlyGivenNames s1
  have h_s1 : Touches 1604 s s1 := ((((State.raise_touches ..).mono rfl).step (State.produce_touches ..) rfl).step (State.silkOf_touches ..) rfl)
  clear_value s1
  extract_lets +onlyGivenNames s2
  have h_s2 : Touches 1604 s s2 := (h_s1.step (State.count_touches ..) rfl)
  clear_value s2
  exact (Touches.ite (fun _ => (((h_s2.step (State.raise_touches ..) rfl).step (State.count_touches ..) rfl).step (State.raise_touches ..) rfl)) (fun _ => (h_s2.step (State.setFld_touches ..) rfl)))

theorem execCocoonWriteDone_touches : ∀ bad s, Ends 4195911 s (execCocoonWriteDone bad s) := by
  intro bad s
  unfold execCocoonWriteDone
  extract_lets +onlyGivenNames p
  clear_value p
  split
  · exact Ends.next (Touches.refl _ _)
  · extract_lets +onlyGivenNames s0
    have h_s0 : Touches 4195911 s s0 := (((State.onDep_touches ..).mono rfl).step (State.cocoonBegin_touches ..) rfl)
    clear_value s0
    refine Ends.ite (fun _ => ?_) (fun _ => ?_)
    · exact Ends.next (((h_s0.step (State.cocoonPoke_touches ..) rfl).step (State.cocoonPoke_touches ..) rfl).step (State.storAfter_touches ..) rfl)
    · split
      · exact Ends.next h_s0
      · extract_lets +onlyGivenNames cur b seq room
        clear_value cur b seq room
        extract_lets +onlyGivenNames s1
        have h_s1 : Touches 4195911 s s1 := (Touches.foldl h_s0 (fun _ _ h => (h.step (State.cocoonHard_touches ..) rfl)))
        clear_value s1
        refine Ends.ite (fun _ => ?_) (fun _ => ?_)
        · extract_lets +onlyGivenNames s2
          have h_s2 : Touches 4195911 s s2 := ((h_s1.step (State.raise_touches ..) rfl).step (State.produce_touches ..) rfl)
          clear_value s2
          extract_lets +onlyGivenNames s3
          have h_s3 : Touches 4195911 s s3 := (Touches.ite (fun _ => (h_s2.step (State.setReg_touches ..) rfl)) (fun _ => h_s2))
          clear_value s3
          exact Ends.next ((Touches.ite (fun _ => (h_s3.step (State.raise_touches ..) rfl)) (fun _ => h_s3)).step (State.storAfter_touches ..) rfl)
        · extract_lets +onlyGivenNames old wc head copy
          clear_value old wc head copy
          extract_lets +onlyGivenNames s2
          have h_s2 : Touches 4195911 s s2 := (h_s1.step (State.cocoonPoke_touches ..) rfl)
          clear_value s2
          extract_lets +onlyGivenNames s3
          have h_s3 : Touches 4195911 s s3 := (Touches.ite (fun _ => (h_s2.step (State.setReg_touches ..) rfl)) (fun _ => h_s2))
          clear_value s3
          extract_lets +onlyGivenNames s4
          have h_s4 : Touches 4195911 s s4 := (Touches.ite (fun _ => ((h_s3.step (State.setReg_touches ..) rfl).step (State.setReg_touches ..) rfl)) (fun _ => h_s3))
          clear_value s4
          exact Ends.next (h_s4.step (State.storAfter_touches ..) rfl)

theorem State.silkWrite_touches : ∀ s r, Touches 9799 s (State.silkWrite s r) := by
  intro s r
  unfold State.silkWrite
  extract_lets +onlyGivenNames p slot seq a bytes s1
  clear_value p slot seq a bytes s1
  extract_lets +onlyGivenNames s11
  have h_s11 : Touches 9799 s s11 := by
    unfold s11
    split
    · exact (Touches.ite (fun _ => ((State.onDep_touches ..).mono rfl)) (fun _ => Touches.refl _ _))
    · exact Touches.refl _ _
  clear_value s11
  extract_lets +onlyGivenNames s2
  have h_s2 : Touches 9799 s s2 := ((h_s11.step (State.poke_touches ..) rfl).step (State.setReg_touches ..) rfl)
  clear_value s2
  extract_lets +onlyGivenNames s3
  have h_s3 : Touches 9799 s s3 := ((h_s2.step (State.setReg_touches ..) rfl).step (State.onDep_touches ..) rfl)
  clear_value s3
  refine (Touches.ite (fun _ => h_s3) (fun _ => ?_))
  extract_lets +onlyGivenNames n h
  clear_value n h
  exact ((h_s3.step (State.busWrite_touches ..) rfl).step (State.setReg_touches ..) rfl)

theorem execSilkRecord_touches : ∀ s, Ends 9799 s (execSilkRecord s) := by
  intro s
  unfold execSilkRecord
  extract_lets +onlyGivenNames k
  clear_value k
  refine Ends.ite (fun _ => ?_) (fun _ => ?_)
  · exact Ends.next (Touches.refl _ _)
  · refine Ends.ite (fun _ => ?_) (fun _ => ?_)
    · split
      · exact Ends.next (((State.onDep_touches ..).mono rfl).step (State.silkWrite_touches ..) rfl)
      · exact Ends.next (Touches.refl _ _)
    · split
      · exact Ends.next (Touches.refl _ _)
      · extract_lets +onlyGivenNames s1
        have h_s1 : Touches 9799 s s1 := ((State.onDep_touches ..).mono rfl)
        clear_value s1
        refine Ends.ite (fun _ => ?_) (fun _ => ?_)
        · exact Ends.next (h_s1.step (State.silkWrite_touches ..) rfl)
        · refine Ends.ite (fun _ => ?_) (fun _ => ?_)
          · exact Ends.next (h_s1.step (State.onDep_touches ..) rfl)
          · exact Ends.next ((h_s1.step (State.count_touches ..) rfl).step (State.raise_touches ..) rfl)

theorem execSwGo_touches : ∀ m v s, Ends 1092 s (execSwGo m v s) := by
  intro m v s
  unfold execSwGo
  refine Ends.next (State.regWrite_touches (Touches.refl _ _) rfl (fun _ h => ?_))
  extract_lets +onlyGivenNames p code
  clear_value p code
  exact (Touches.ite (fun _ => h) (fun _ => (Touches.ite (fun _ => (h.step (State.raise_touches ..) rfl)) (fun _ => (h.step (State.silk_touches ..) rfl)))))

theorem execSnapCmd_touches : ∀ m v s, Ends 1092 s (execSnapCmd m v s) := by
  intro m v s
  unfold execSnapCmd
  exact Ends.next (State.regWrite_touches (Touches.refl _ _) rfl (fun _ h => (Touches.ite (fun _ => h) (fun _ => (Touches.ite (fun _ => (h.step (State.onDep_touches ..) rfl)) (fun _ => (h.step (State.snapStart_touches ..) rfl)))))))

theorem execSnapshotDone_touches : ∀ s, Ends 1543 s (execSnapshotDone s) := by
  intro s
  unfold execSnapshotDone
  extract_lets +onlyGivenNames p
  clear_value p
  split
  · exact Ends.next (Touches.refl _ _)
  · extract_lets +onlyGivenNames first data a keepBits kept
    clear_value first data a keepBits kept
    extract_lets +onlyGivenNames s1
    have h_s1 : Touches 1543 s s1 := ((State.cocoonPoke_touches ..).mono rfl)
    clear_value s1
    extract_lets +onlyGivenNames payload
    clear_value payload
    extract_lets +onlyGivenNames s2
    have h_s2 : Touches 1543 s s2 := (h_s1.step (State.cocoonPut_touches ..) rfl)
    clear_value s2
    extract_lets +onlyGivenNames n
    clear_value n
    extract_lets +onlyGivenNames s3
    have h_s3 : Touches 1543 s s3 := (h_s2.step (State.setReg_touches ..) rfl)
    clear_value s3
    extract_lets +onlyGivenNames s4
    have h_s4 : Touches 1543 s s4 := (Touches.ite (fun _ => (h_s3.step (State.putBit_touches ..) rfl)) (fun _ => h_s3))
    clear_value s4
    extract_lets +onlyGivenNames count order
    clear_value count order
    extract_lets +onlyGivenNames s5
    have h_s5 : Touches 1543 s s5 := ((h_s4.step (State.onDep_touches ..) rfl).step (State.produce_touches ..) rfl)
    clear_value s5
    split
    · exact Ends.next (h_s5.step (State.snapStart_touches ..) rfl)
    · exact Ends.next h_s5

theorem execPowerFailWarning_touches : ∀ s, Ends 1092 s (execPowerFailWarning s) := by
  intro s
  unfold execPowerFailWarning
  refine Ends.ite (fun _ => ?_) (fun _ => ?_)
  · exact Ends.next (Touches.refl _ _)
  · extract_lets +onlyGivenNames begun
    clear_value begun
    extract_lets +onlyGivenNames s1
    have h_s1 : Touches 1092 s s1 := (Touches.ite (fun _ => ((State.raise_touches ..).mono rfl)) (fun _ => Touches.refl _ _))
    clear_value s1
    extract_lets +onlyGivenNames s2
    have h_s2 : Touches 1092 s s2 := (Touches.ite (fun _ => (h_s1.step (State.setReg_touches ..) rfl)) (fun _ => h_s1))
    clear_value s2
    extract_lets +onlyGivenNames s3
    have h_s3 : Touches 1092 s s3 := (h_s2.step (State.onDep_touches ..) rfl)
    clear_value s3
    exact Ends.next (h_s3.step (State.snapStart_touches ..) rfl)

end Sys2Proof.Machine
end

