-- ==== Sys2Proof/Laws/Touch/Pset.lean ====
section
/-!
SUPPORT. What each operation of Machine/Pset.lean may touch (see Laws/Touches.lean).
-/

-- One proof at a time bounds the threads and memory of a compile.
set_option Elab.async false

namespace Sys2Proof.Machine

open Sys2Proof

theorem State.modPctx_touches : ∀ s k f, Touches 65536 s (State.modPctx s k f) := by
  intro s k f
  unfold State.modPctx
  exact ((State.onPipes_touches ..).mono rfl)

theorem State.modPframe_touches : ∀ s k f, Touches 65536 s (State.modPframe s k f) := by
  intro s k f
  unfold State.modPframe
  exact ((State.modPctx_touches ..).mono rfl)

theorem State.psetRead_touches : ∀ s a, Touches 1604 s (State.psetRead s a).2 := by
  intro s a
  unfold State.psetRead
  change Touches2 1604 s _
  extract_lets +onlyGivenNames r
  have h_r : Touches 1604 s r.2 := ((State.busRead_touches ..).mono rfl)
  clear_value r
  extract_lets +onlyGivenNames ws bad
  clear_value ws bad
  exact h_r

theorem State.modRing_touches : ∀ s k f, Touches 65536 s (State.modRing s k f) := by
  intro s k f
  unfold State.modRing
  exact ((State.modPctx_touches ..).mono rfl)

theorem State.psetTake_touches : ∀ s k f, Touches 65540 s (State.psetTake s k f).2 := by
  intro s k f
  unfold State.psetTake
  change Touches2 65540 s _
  extract_lets +onlyGivenNames lead
  clear_value lead
  split
  · exact Touches.refl _ _
  · extract_lets +onlyGivenNames old skipped
    clear_value skipped
    exact (((State.modRing_touches ..).mono rfl).step (State.count_touches ..) rfl)

theorem State.psetDecide_touches : ∀ s k f inline, Touches 67140 s (State.psetDecide s k f inline).2 := by
  intro s k f inline
  unfold State.psetDecide
  change Touches2 67140 s _
  extract_lets +onlyGivenNames lead c old
  clear_value lead c old
  split
  · extract_lets +onlyGivenNames t1
    have h_t1 : Touches 67140 s t1.2 := ((State.psetTake_touches ..).mono rfl)
    clear_value t1
    split
    · exact h_t1
    · extract_lets +onlyGivenNames r
      have h_r : Touches 67140 s r.2 := (h_t1.step (State.psetRead_touches ..) rfl)
      clear_value r
      split
      · exact h_r
      · show Touches _ _ _
        dsimp only
        exact (h_r.step (State.modPctx_touches ..) rfl)
  · exact Touches.refl _ _

theorem State.psetFail_touches : ∀ s k ptr req, Touches 65540 s (State.psetFail s k ptr req) := by
  intro s k ptr req
  unfold State.psetFail
  exact (Touches.ite (fun _ => (((State.modRing_touches ..).mono rfl).step (State.countWrap_touches ..) rfl)) (fun _ => Touches.refl _ _))

theorem State.psetResolve_touches : ∀ s k ptr req a, Touches 65536 s (State.psetResolve s k ptr req a) := by
  intro s k ptr req a
  unfold State.psetResolve
  exact ((State.modRing_touches ..).mono rfl)

theorem State.psetLatched_touches : ∀ s k, Touches 65536 s (State.psetLatched s k) := by
  intro s k
  unfold State.psetLatched
  exact ((State.modRing_touches ..).mono rfl)

end Sys2Proof.Machine
end

