-- ==== Sys2Proof/Laws/Touch/PipeSched.lean ====
section
/-!
SUPPORT. What each operation of Machine/PipeSched.lean may touch (see Laws/Touches.lean).
-/

-- One proof at a time bounds the threads and memory of a compile.
set_option Elab.async false

namespace Sys2Proof.Machine

open Sys2Proof

theorem State.modPipe_touches : ∀ s n f, Touches 65536 s (State.modPipe s n f) := by
  intro s n f
  unfold State.modPipe
  exact ((State.onPipes_touches ..).mono rfl)

theorem State.markElig_touches : ∀ s k, Touches 65536 s (State.markElig s k) := by
  intro s k
  unfold State.markElig
  exact ((State.modPctx_touches ..).mono rfl)

end Sys2Proof.Machine
end

