-- ==== Sys2Proof/Laws/Touch/Capture.lean ====
section
/-!
SUPPORT. What each operation of Machine/Capture.lean may touch (see Laws/Touches.lean).
-/

-- One proof at a time bounds the threads and memory of a compile.
set_option Elab.async false

namespace Sys2Proof.Machine

open Sys2Proof

theorem State.modStream_touches : ∀ s c f, Touches 32768 s (State.modStream s c f) := by
  intro s c f
  unfold State.modStream
  exact ((State.onCap_touches ..).mono rfl)

theorem State.modCframe_touches : ∀ s c f, Touches 32768 s (State.modCframe s c f) := by
  intro s c f
  unfold State.modCframe
  exact ((State.modStream_touches ..).mono rfl)

theorem State.capRuntime_touches : ∀ s c i v, Touches 2048 s (State.capRuntime s c i v) := by
  intro s c i v
  unfold State.capRuntime
  exact ((State.scxPut_touches ..).mono rfl)

theorem State.orphan_touches : ∀ s c, Touches 2048 s (State.orphan s c) := by
  intro s c
  unfold State.orphan
  exact ((State.scxPut_touches ..).mono rfl)

theorem State.pipeIn1_touches : ∀ s k it, Touches 66628 s (State.pipeIn1 s k it) := by
  intro s k it
  unfold State.pipeIn1
  refine (Touches.ite (fun _ => Touches.refl _ _) (fun _ => ?_))
  extract_lets +onlyGivenNames st
  clear_value st
  refine (Touches.ite (fun _ => ?_) (fun _ => ?_))
  · split
    · exact (((State.count_touches ..).mono rfl).step (State.raise_touches ..) rfl)
    · exact Touches.refl _ _
  · extract_lets +onlyGivenNames first
    clear_value first
    exact (Touches.ite (fun _ => Touches.refl _ _) (fun _ => (((State.modPctx_touches ..).mono rfl).step (State.markElig_touches ..) rfl)))

theorem State.pipeIn_touches : ∀ s w it, Touches 66628 s (State.pipeIn s w it) := by
  intro s w it
  unfold State.pipeIn
  split
  · exact (Touches.ite (fun _ => (Touches.foldl (Touches.refl _ _) (fun _ _ h => (h.step (State.pipeIn1_touches ..) rfl)))) (fun _ => Touches.refl _ _))
  · exact Touches.refl _ _

theorem State.capDeliver_touches : ∀ s k i vc sel it, Touches 32768 s (State.capDeliver s k i vc sel it) := by
  intro s k i vc sel it
  unfold State.capDeliver
  refine (Touches.ite (fun _ => Touches.refl _ _) (fun _ => (Touches.foldl (Touches.refl _ _) (fun _ _ h => ?_))))
  extract_lets +onlyGivenNames w
  clear_value w
  refine (Touches.ite (fun _ => ?_) (fun _ => h))
  extract_lets +onlyGivenNames waiting
  clear_value waiting
  split
  · exact (Touches.ite (fun _ => (h.step (State.modCframe_touches ..) rfl)) (fun _ => (Touches.ite (fun _ => ((h.step (State.modStream_touches ..) rfl).step (State.modCframe_touches ..) rfl)) (fun _ => ((h.step (State.modStream_touches ..) rfl).step (State.modCframe_touches ..) rfl)))))
  · exact (Touches.ite (fun _ => (h.step (State.modCframe_touches ..) rfl)) (fun _ => (Touches.ite (fun _ => ((h.step (State.modStream_touches ..) rfl).step (State.modCframe_touches ..) rfl)) (fun _ => ((h.step (State.modStream_touches ..) rfl).step (State.modCframe_touches ..) rfl)))))
  · exact (h.step (State.modStream_touches ..) rfl)
  · exact (h.step (State.modStream_touches ..) rfl)

theorem State.capBreak_touches : ∀ s k i vc, Touches 32768 s (State.capBreak s k i vc) := by
  intro s k i vc
  unfold State.capBreak
  exact ((State.capDeliver_touches ..).mono rfl)

theorem State.capBreakAll_touches : ∀ s k i, Touches 32768 s (State.capBreakAll s k i) := by
  intro s k i
  unfold State.capBreakAll
  exact (Touches.foldl (Touches.refl _ _) (fun _ _ h => (h.step (State.capBreak_touches ..) rfl)))

theorem State.capSline_touches : ∀ s c f, Touches 256 s (State.capSline s c f) := by
  intro s c f
  unfold State.capSline
  extract_lets +onlyGivenNames w
  clear_value w
  exact ((State.slineUpdate_touches ..).mono rfl)

theorem State.capLatch_touches : ∀ s c old new, Touches 65536 s (State.capLatch s c old new) := by
  intro s c old new
  unfold State.capLatch
  extract_lets +onlyGivenNames sq
  clear_value sq
  split
  · exact (Touches.ite (fun _ => ((State.psetLatched_touches ..).mono rfl)) (fun _ => Touches.refl _ _))
  · exact Touches.refl _ _

theorem State.capStoreLine_touches : ∀ s c i pix, Touches 110407 s (State.capStoreLine s c i pix) := by
  intro s c i pix
  unfold State.capStoreLine
  extract_lets +onlyGivenNames w fr bs
  clear_value w fr bs
  extract_lets +onlyGivenNames s1
  have h_s1 : Touches 110407 s s1 := by
    unfold s1
    split
    · exact (Touches.ite (fun _ => (((State.busWrite_touches ..).mono rfl).step (State.onCap_touches ..) rfl)) (fun _ => Touches.refl _ _))
    · exact Touches.refl _ _
  clear_value s1
  extract_lets +onlyGivenNames s2
  have h_s2 : Touches 110407 s s2 := (h_s1.step (State.modCframe_touches ..) rfl)
  clear_value s2
  extract_lets +onlyGivenNames s3
  have h_s3 : Touches 110407 s s3 := ((h_s2.step (State.pipeIn_touches ..) rfl).step (State.capSline_touches ..) rfl)
  clear_value s3
  exact (h_s3.step (State.capRuntime_touches ..) rfl)

theorem State.capFillLines_touches : ∀ s c i x3, Touches 110407 s (State.capFillLines s c i x3) := by
  intro s c i x3
  induction x3 generalizing s c i
  · unfold State.capFillLines
    exact Touches.refl _ _
  · rename_i ih
    unfold State.capFillLines
    extract_lets +onlyGivenNames w
    clear_value w
    exact (((State.capStoreLine_touches ..).mono rfl).step (ih ..) rfl)

theorem State.capDisable_touches : ∀ s c, Touches 34816 s (State.capDisable s c) := by
  intro s c
  unfold State.capDisable
  exact ((((State.scxPut_touches ..).mono rfl).step (State.scxFree_touches ..) rfl).step (State.onCap_touches ..) rfl)

theorem State.capEnd_touches : ∀ s c flags, Touches 110407 s (State.capEnd s c flags) := by
  intro s c flags
  unfold State.capEnd
  split
  · exact Touches.refl _ _
  · extract_lets +onlyGivenNames w st missing
    clear_value w st missing
    extract_lets +onlyGivenNames s1
    have h_s1 : Touches 110407 s s1 := (((State.capFillLines_touches ..).mono rfl).step (State.capLatch_touches ..) rfl)
    clear_value s1
    extract_lets +onlyGivenNames f1 f fl expo at_
    clear_value f1 f fl expo at_
    extract_lets +onlyGivenNames s2
    have h_s2 : Touches 110407 s s2 := (h_s1.step (State.busWrite_touches ..) rfl)
    clear_value s2
    extract_lets +onlyGivenNames s3
    have h_s3 : Touches 110407 s s3 := (h_s2.step (State.push_touches ..) rfl)
    clear_value s3
    extract_lets +onlyGivenNames s4
    have h_s4 : Touches 110407 s s4 := (h_s3.step (State.produceOn_touches ..) rfl)
    clear_value s4
    extract_lets +onlyGivenNames s5
    have h_s5 : Touches 110407 s s5 := (Touches.ite (fun _ => (h_s4.step (State.produce_touches ..) rfl)) (fun _ => h_s4))
    clear_value s5
    extract_lets +onlyGivenNames s6
    have h_s6 : Touches 110407 s s6 := ((h_s5.step (State.pipeIn_touches ..) rfl).step (State.capSline_touches ..) rfl)
    clear_value s6
    extract_lets +onlyGivenNames s7
    have h_s7 : Touches 110407 s s7 := (h_s6.step (State.modStream_touches ..) rfl)
    clear_value s7
    exact (Touches.ite (fun _ => (h_s7.step (State.capDisable_touches ..) rfl)) (fun _ => h_s7))

theorem State.capTakeBuffer_touches : ∀ s c, Touches 11847 s (State.capTakeBuffer s c).2 := by
  intro s c
  unfold State.capTakeBuffer
  change Touches2 11847 s _
  extract_lets +onlyGivenNames w
  clear_value w
  split
  · exact Touches.refl _ _
  · extract_lets +onlyGivenNames lost
    split
    · exact ((((Touches.of_snd ((State.take_touches ..).mono rfl) ‹_›).step (State.raise_touches ..) rfl).step (State.count_touches ..) rfl).step (State.produce_touches ..) rfl)
    · extract_lets +onlyGivenNames need
      clear_value need
      split
      · exact ((((Touches.of_snd ((State.take_touches ..).mono rfl) ‹_›).step (State.raise_touches ..) rfl).step (State.count_touches ..) rfl).step (State.produce_touches ..) rfl)
      · exact (Touches.of_snd ((State.take_touches ..).mono rfl) ‹_›)

theorem State.strmQuit_touches : ∀ s c, Touches 110407 s (State.strmQuit s c) := by
  intro s c
  unfold State.strmQuit
  exact ((((State.modStream_touches ..).mono rfl).step (State.capEnd_touches ..) rfl).step (State.capDisable_touches ..) rfl)

theorem execCaptureFrameStart_touches : ∀ c e s, Ends 110407 s (execCaptureFrameStart c e s) := by
  intro c e s
  unfold execCaptureFrameStart
  split
  · extract_lets +onlyGivenNames s0
    have h_s0 : Touches 110407 s s0 := (((State.modStream_touches ..).mono rfl).step (State.capEnd_touches ..) rfl)
    clear_value s0
    refine Ends.ite (fun _ => ?_) (fun _ => ?_)
    · exact Ends.next h_s0
    · refine Ends.ite (fun _ => ?_) (fun _ => ?_)
      · exact Ends.next ((h_s0.step (State.scxFault_touches ..) rfl).step (State.strmQuit_touches ..) rfl)
      · extract_lets +onlyGivenNames s01
        have h_s01 : Touches 110407 s s01 := (Touches.ite (fun _ => (h_s0.step (State.count_touches ..) rfl)) (fun _ => h_s0))
        clear_value s01
        extract_lets +onlyGivenNames w st num skip
        clear_value w st num skip
        extract_lets +onlyGivenNames b
        have h_b : Touches 110407 s b.2 := (h_s01.step (State.capTakeBuffer_touches ..) rfl)
        clear_value b
        extract_lets +onlyGivenNames s1
        have h_s1 : Touches 110407 s s1 := h_b
        clear_value s1
        extract_lets +onlyGivenNames sn
        clear_value sn
        extract_lets +onlyGivenNames de
        have h_de' : Touches2 110407 s de := by
          unfold de
          split
          · exact (h_s1.step (State.psetDecide_touches ..) rfl)
          · exact h_s1
        have h_de : Touches 110407 s de.2 := h_de'
        clear_value de
        extract_lets +onlyGivenNames ps late ws f
        clear_value ps late ws f
        extract_lets +onlyGivenNames s2
        have h_s2 : Touches 110407 s s2 := (h_de.step (State.modStream_touches ..) rfl)
        clear_value s2
        extract_lets +onlyGivenNames s3
        have h_s3 : Touches 110407 s s3 := ((h_s2.step (State.capRuntime_touches ..) rfl).step (State.capRuntime_touches ..) rfl)
        clear_value s3
        extract_lets +onlyGivenNames s4
        have h_s4 : Touches 110407 s s4 := (h_s3.step (State.produceOn_touches ..) rfl)
        clear_value s4
        extract_lets +onlyGivenNames s5
        have h_s5 : Touches 110407 s s5 := (h_s4.step (State.capSline_touches ..) rfl)
        clear_value s5
        exact Ends.next ((h_s5.step (State.llStart_touches ..) rfl).step (State.pipeIn_touches ..) rfl)
  · exact Ends.next (Touches.refl _ _)

theorem State.capImage_touches : ∀ s c f pix bad, Touches 110407 s (State.capImage s c f pix bad) := by
  intro s c f pix bad
  unfold State.capImage
  extract_lets +onlyGivenNames w
  clear_value w
  extract_lets +onlyGivenNames s1
  have h_s1 : Touches 110407 s s1 := ((State.modCframe_touches ..).mono rfl)
  clear_value s1
  refine (Touches.ite (fun _ => (h_s1.step (State.modCframe_touches ..) rfl)) (fun _ => ?_))
  extract_lets +onlyGivenNames short long
  clear_value short long
  extract_lets +onlyGivenNames s2
  have h_s2 : Touches 110407 s s2 := ((h_s1.step (State.capStoreLine_touches ..) rfl).step (State.capLatch_touches ..) rfl)
  clear_value s2
  exact (h_s2.step (State.modCframe_touches ..) rfl)

theorem State.capEmb_touches : ∀ s c f bytes bad, Touches 42567 s (State.capEmb s c f bytes bad) := by
  intro s c f bytes bad
  unfold State.capEmb
  extract_lets +onlyGivenNames w
  clear_value w
  extract_lets +onlyGivenNames s1
  have h_s1 : Touches 42567 s s1 := ((State.modCframe_touches ..).mono rfl)
  clear_value s1
  refine (Touches.ite (fun _ => (h_s1.step (State.modCframe_touches ..) rfl)) (fun _ => ?_))
  extract_lets +onlyGivenNames bs
  clear_value bs
  extract_lets +onlyGivenNames s2
  have h_s2 : Touches 42567 s s2 := (Touches.ite (fun _ => (h_s1.step (State.busWrite_touches ..) rfl)) (fun _ => h_s1))
  clear_value s2
  exact (h_s2.step (State.modCframe_touches ..) rfl)

theorem execCaptureLine_touches : ∀ c s, Ends 110407 s (execCaptureLine c s) := by
  intro c s
  unfold execCaptureLine
  extract_lets +onlyGivenNames st
  clear_value st
  split
  · extract_lets +onlyGivenNames s1
    have h_s1 : Touches 110407 s s1 := ((State.modStream_touches ..).mono rfl)
    clear_value s1
    refine Ends.next ?_
    split
    · exact (h_s1.step (State.orphan_touches ..) rfl)
    · exact (h_s1.step (State.capImage_touches ..) rfl)
  · extract_lets +onlyGivenNames s1
    have h_s1 : Touches 110407 s s1 := ((State.modStream_touches ..).mono rfl)
    clear_value s1
    refine Ends.next ?_
    split
    · exact (h_s1.step (State.orphan_touches ..) rfl)
    · exact (h_s1.step (State.capEmb_touches ..) rfl)
  · extract_lets +onlyGivenNames s1
    have h_s1 : Touches 110407 s s1 := ((State.modStream_touches ..).mono rfl)
    clear_value s1
    refine Ends.next ?_
    split
    · exact (h_s1.step (State.orphan_touches ..) rfl)
    · exact (((h_s1.step (State.modCframe_touches ..) rfl).step (State.raise_touches ..) rfl).step (State.count_touches ..) rfl)
  · exact Ends.next (Touches.refl _ _)

theorem execCaptureFrameEnd_touches : ∀ c s, Ends 110407 s (execCaptureFrameEnd c s) := by
  intro c s
  unfold execCaptureFrameEnd
  extract_lets +onlyGivenNames st
  clear_value st
  split
  · extract_lets +onlyGivenNames s1
    have h_s1 : Touches 110407 s s1 := ((State.modStream_touches ..).mono rfl)
    clear_value s1
    exact Ends.next (Touches.ite (fun _ => (h_s1.step (State.capEnd_touches ..) rfl)) (fun _ => (h_s1.step (State.orphan_touches ..) rfl)))
  · exact Ends.next (((State.modStream_touches ..).mono rfl).step (State.capEnd_touches ..) rfl)
  · exact Ends.next (Touches.refl _ _)

theorem execFrameTimeout_touches : ∀ c s, Ends 110407 s (execFrameTimeout c s) := by
  intro c s
  unfold execFrameTimeout
  split
  · extract_lets +onlyGivenNames lim
    clear_value lim
    refine Ends.ite (fun _ => ?_) (fun _ => ?_)
    · exact Ends.next ((State.capEnd_touches ..).mono rfl)
    · exact Ends.next (Touches.refl _ _)
  · exact Ends.next (Touches.refl _ _)

theorem State.strmStat_touches : ∀ s reason, Touches 1092 s (State.strmStat s reason) := by
  intro s reason
  unfold State.strmStat
  extract_lets +onlyGivenNames s1
  have h_s1 : Touches 1092 s s1 := ((State.cmdStart_touches ..).mono rfl)
  clear_value s1
  exact (Touches.ite (fun _ => (h_s1.step (State.setReg_touches ..) rfl)) (fun _ => ((h_s1.step (State.setReg_touches ..) rfl).step (State.raise_touches ..) rfl)))

theorem execStrmLoad_touches : ∀ m s, Ends 1092 s (execStrmLoad m s) := by
  intro m s
  unfold execStrmLoad
  exact Ends.next (State.regWrite_touches (Touches.refl _ _) rfl (fun _ h => ((h.step (State.setRegs32_touches ..) rfl).step (State.strmStat_touches ..) rfl)))

theorem execStrmStore_touches : ∀ m s, Ends 35908 s (execStrmStore m s) := by
  intro m s
  unfold execStrmStore
  refine Ends.next (State.regWrite_touches (Touches.refl _ _) rfl (fun _ h => ?_))
  extract_lets +onlyGivenNames c w
  clear_value c w
  refine (Touches.ite (fun _ => (h.step (State.stateWrite_touches ..) rfl)) (fun _ => (Touches.ite (fun _ => (h.step (State.scxConflict_touches ..) rfl)) (fun _ => ?_))))
  extract_lets +onlyGivenNames r
  clear_value r
  exact (Touches.ite (fun _ => (h.step (State.strmStat_touches ..) rfl)) (fun _ => (Touches.ite (fun _ => ((((h.step (State.scxPut_touches ..) rfl).step (State.scxClaim_touches ..) rfl).step (State.modStream_touches ..) rfl).step (State.strmStat_touches ..) rfl)) (fun _ => ((h.step (State.scxPut_touches ..) rfl).step (State.strmStat_touches ..) rfl)))))

theorem execStop_touches : ∀ m s, Ends 33860 s (execStop m s) := by
  intro m s
  unfold execStop
  exact Ends.next (State.regWrite_touches (Touches.refl _ _) rfl (fun _ h => (Touches.ite (fun _ => ((h.step (State.modStream_touches ..) rfl).step (State.strmStat_touches ..) rfl)) (fun _ => (h.step (State.strmStat_touches ..) rfl)))))

theorem execStopNow_touches : ∀ m s, Ends 110407 s (execStopNow m s) := by
  intro m s
  unfold execStopNow
  exact Ends.next (State.regWrite_touches (Touches.refl _ _) rfl (fun _ h => (Touches.ite (fun _ => ((h.step (State.strmQuit_touches ..) rfl).step (State.strmStat_touches ..) rfl)) (fun _ => (h.step (State.strmStat_touches ..) rfl)))))

theorem State.seqFail_touches : ∀ s c k ptr req, Touches 99908 s (State.seqFail s c k ptr req) := by
  intro s c k ptr req
  unfold State.seqFail
  extract_lets +onlyGivenNames p
  clear_value p
  extract_lets +onlyGivenNames s1
  have h_s1 : Touches 99908 s s1 := (((State.psetFail_touches ..).mono rfl).step (State.modStream_touches ..) rfl)
  clear_value s1
  exact (((h_s1.step (State.count_touches ..) rfl).step (State.raise_touches ..) rfl).step (State.produce_touches ..) rfl)

theorem State.seqComplete_touches : ∀ s c k ptr req, Touches 98304 s (State.seqComplete s c k ptr req) := by
  intro s c k ptr req
  unfold State.seqComplete
  extract_lets +onlyGivenNames p sq n
  clear_value p sq n
  exact (((State.psetResolve_touches ..).mono rfl).step (State.modStream_touches ..) rfl)

theorem State.modI3c_touches : ∀ s n f, Touches 32768 s (State.modI3c s n f) := by
  intro s n f
  unfold State.modI3c
  exact ((State.onCap_touches ..).mono rfl)

theorem State.i3cStart_touches : ∀ s n, Touches 32768 s (State.i3cStart s n) := by
  intro s n
  unfold State.i3cStart
  exact (Touches.ite (fun _ => Touches.refl _ _) (fun _ => ((State.modI3c_touches ..).mono rfl)))

theorem State.dlkQueue_touches : ∀ s n msg, Touches 32768 s (State.dlkQueue s n msg) := by
  intro s n msg
  unfold State.dlkQueue
  exact ((State.modDlk_touches ..).mono rfl)

theorem State.seqSend_touches : ∀ s c, Touches 98304 s (State.seqSend s c) := by
  intro s c
  unfold State.seqSend
  split
  · exact Touches.refl _ _
  · split
    · exact ((State.seqComplete_touches ..).mono rfl)
    · extract_lets +onlyGivenNames w
      clear_value w
      refine (Touches.ite (fun _ => ((State.dlkQueue_touches ..).mono rfl)) (fun _ => ?_))
      extract_lets +onlyGivenNames bus x
      clear_value bus x
      exact (((State.modI3c_touches ..).mono rfl).step (State.i3cStart_touches ..) rfl)

theorem State.seqFire_touches : ∀ s c, Touches 101956 s (State.seqFire s c) := by
  intro s c
  unfold State.seqFire
  extract_lets +onlyGivenNames w st
  clear_value w st
  refine (Touches.ite (fun _ => ((((State.count_touches ..).mono rfl).step (State.scxPut_touches ..) rfl).step (State.raise_touches ..) rfl)) (fun _ => ?_))
  split
  · exact Touches.refl _ _
  · extract_lets +onlyGivenNames k
    clear_value k
    split
    · exact Touches.refl _ _
    · extract_lets +onlyGivenNames sq at_ p
      clear_value sq at_ p
      refine (Touches.ite (fun _ => ?_) (fun _ => Touches.refl _ _))
      extract_lets +onlyGivenNames s1
      have h_s1 : Touches 101956 s s1 := ((State.modRing_touches ..).mono rfl)
      clear_value s1
      split
      · exact ((Touches.of_snd (h_s1.step (State.psetRead_touches ..) rfl) ‹_›).step (State.seqFail_touches ..) rfl)
      · exact (((Touches.of_snd (h_s1.step (State.psetRead_touches ..) rfl) ‹_›).step (State.modStream_touches ..) rfl).step (State.seqSend_touches ..) rfl)

theorem State.seqCueFired_touches : ∀ s cue, Touches 101956 s (State.seqCueFired s cue) := by
  intro s cue
  unfold State.seqCueFired
  refine (Touches.foldl (Touches.refl _ _) (fun _ _ h => ?_))
  extract_lets +onlyGivenNames q
  clear_value q
  exact (Touches.ite (fun _ => (h.step (State.seqFire_touches ..) rfl)) (fun _ => h))

theorem execSeqWriteAck_touches : ∀ c s, Ends 98304 s (execSeqWriteAck c s) := by
  intro c s
  unfold execSeqWriteAck
  refine Ends.ite (fun _ => ?_) (fun _ => ?_)
  · exact Ends.next (((State.modStream_touches ..).mono rfl).step (State.seqSend_touches ..) rfl)
  · exact Ends.next (Touches.refl _ _)

theorem State.seqWithdraw_touches : ∀ s c, Touches 32768 s (State.seqWithdraw s c) := by
  intro s c
  unfold State.seqWithdraw
  exact ((State.modI3c_touches ..).mono rfl)

theorem execSeqWriteFail_touches : ∀ c s0, Ends 99908 s0 (execSeqWriteFail c s0) := by
  intro c s0
  unfold execSeqWriteFail
  refine Ends.ite (fun _ => ?_) (fun _ => ?_)
  · exact Ends.next (Touches.refl _ _)
  · extract_lets +onlyGivenNames s
    have h_s : Touches 99908 s0 s := ((State.seqWithdraw_touches ..).mono rfl)
    clear_value s
    split
    · exact Ends.next h_s
    · refine Ends.ite (fun _ => ?_) (fun _ => ?_)
      · exact Ends.next (h_s.step (State.seqFail_touches ..) rfl)
      · exact Ends.next ((h_s.step (State.modStream_touches ..) rfl).step (State.seqSend_touches ..) rfl)

end Sys2Proof.Machine
end

