-- ==== Sys2Proof/Laws/Touch/Events.lean ====
section
/-!
SUPPORT. What each operation of Machine/Events.lean may touch (see Laws/Touches.lean).
-/

-- One proof at a time bounds the threads and memory of a compile.
set_option Elab.async false

namespace Sys2Proof.Machine

open Sys2Proof

theorem State.setChBit_touches : ∀ s base c, Touches 4 s (State.setChBit s base c) := by
  intro s base c
  unfold State.setChBit
  exact ((State.putBit_touches ..).mono rfl)

theorem State.setBusy_touches : ∀ s p k b, Touches 512 s (State.setBusy s p k b) := by
  intro s p k b
  unfold State.setBusy
  exact ((State.onEvf_touches ..).mono rfl)

theorem State.modPin_touches : ∀ s q f, Touches 512 s (State.modPin s q f) := by
  intro s q f
  unfold State.modPin
  exact ((State.onEvf_touches ..).mono rfl)

theorem State.unbind_touches : ∀ s c, Touches 516 s (State.unbind s c) := by
  intro s c
  unfold State.unbind
  exact ((State.evPut_touches ..).mono rfl)

theorem State.bind_touches : ∀ s c p k pin, Touches 516 s (State.bind s c p k pin) := by
  intro s c p k pin
  unfold State.bind
  exact ((State.evPut_touches ..).mono rfl)

theorem State.bindConflict_touches : ∀ s c p k pin, Touches 1092 s (State.bindConflict s c p k pin) := by
  intro s c p k pin
  unfold State.bindConflict
  extract_lets +onlyGivenNames who
  clear_value who
  exact (((State.setReg_touches ..).mono rfl).step (State.raise_touches ..) rfl)

theorem State.applyPinCfg_touches : ∀ s q v, Touches 1604 s (State.applyPinCfg s q v) := by
  intro s q v
  unfold State.applyPinCfg
  extract_lets +onlyGivenNames old
  clear_value old
  refine (Touches.ite (fun _ => ((State.bindConflict_touches ..).mono rfl)) (fun _ => ?_))
  extract_lets +onlyGivenNames s1
  have h_s1 : Touches 1604 s s1 := (Touches.ite (fun _ => ((State.unbind_touches ..).mono rfl)) (fun _ => Touches.refl _ _))
  clear_value s1
  extract_lets +onlyGivenNames s2
  have h_s2 : Touches 1604 s s2 := (Touches.ite (fun _ => (h_s1.step (State.bind_touches ..) rfl)) (fun _ => h_s1))
  clear_value s2
  extract_lets +onlyGivenNames s3
  have h_s3 : Touches 1604 s s3 := (h_s2.step (State.setReg_touches ..) rfl)
  clear_value s3
  exact (Touches.ite (fun _ => (h_s3.step (State.modPin_touches ..) rfl)) (fun _ => (Touches.ite (fun _ => (h_s3.step (State.modPin_touches ..) rfl)) (fun _ => h_s3))))

theorem State.pinEnd_touches : ∀ s q, Touches 1604 s (State.pinEnd s q) := by
  intro s q
  unfold State.pinEnd
  extract_lets +onlyGivenNames t1
  clear_value t1
  split
  · exact Touches.refl _ _
  · refine (Touches.ite (fun _ => Touches.refl _ _) (fun _ => ?_))
    extract_lets +onlyGivenNames s1
    have h_s1 : Touches 1604 s s1 := ((State.modPin_touches ..).mono rfl)
    clear_value s1
    split
    · exact h_s1
    · exact (h_s1.step (State.applyPinCfg_touches ..) rfl)

theorem State.reachInput_touches : ∀ s c p k, Touches 33348 s (State.reachInput s c p k) := by
  intro s c p k
  unfold State.reachInput
  refine (Touches.ite (fun _ => ((State.count_touches ..).mono rfl)) (fun _ => ?_))
  extract_lets +onlyGivenNames commit
  clear_value commit
  exact (Touches.ite (fun _ => Touches.refl _ _) (fun _ => (Touches.ite (fun _ => ((((State.count_touches ..).mono rfl).step (State.setChBit_touches ..) rfl).step (State.setInt_touches ..) rfl)) (fun _ => (Touches.ite (fun _ => (((State.setBusy_touches ..).mono rfl).step (State.modDlk_touches ..) rfl)) (fun _ => ((State.setBusy_touches ..).mono rfl)))))))

theorem State.reachPin_touches : ∀ s c q, Touches 580 s (State.reachPin s c q) := by
  intro s c q
  unfold State.reachPin
  extract_lets +onlyGivenNames cfg
  clear_value cfg
  exact (Touches.ite (fun _ => Touches.refl _ _) (fun _ => (Touches.ite (fun _ => ((((State.count_touches ..).mono rfl).step (State.setChBit_touches ..) rfl).step (State.setInt_touches ..) rfl)) (fun _ => ((State.modPin_touches ..).mono rfl)))))

theorem State.wakeBy_touches : ∀ s src c, Touches 16384 s (State.wakeBy s src c) := by
  intro s src c
  unfold State.wakeBy
  extract_lets +onlyGivenNames st
  clear_value st
  exact (Touches.ite (fun _ => ((State.onPower_touches ..).mono rfl)) (fun _ => Touches.refl _ _))

theorem State.nextWindow_touches : ∀ s x1, Touches 512 s (State.nextWindow s x1) := by
  intro s x1
  induction x1 generalizing s
  · unfold State.nextWindow
    exact Touches.refl _ _
  · rename_i ih
    unfold State.nextWindow
    exact (((State.modChan_touches ..).mono rfl).step (ih ..) rfl)

theorem State.windowSync_touches : ∀ s, Touches 512 s (State.windowSync s) := by
  intro s
  unfold State.windowSync
  exact (Touches.ite (fun _ => Touches.refl _ _) (fun _ => (((State.nextWindow_touches ..).mono rfl).step (State.onEvf_touches ..) rfl)))

theorem State.delivered_touches : ∀ s0 c, Touches 1604 s0 (State.delivered s0 c) := by
  intro s0 c
  unfold State.delivered
  extract_lets +onlyGivenNames s
  have h_s : Touches 1604 s0 s := ((State.windowSync_touches ..).mono rfl)
  clear_value s
  extract_lets +onlyGivenNames cfg
  clear_value cfg
  extract_lets +onlyGivenNames s1
  have h_s1 : Touches 1604 s0 s1 := ((h_s.step (State.countWrap_touches ..) rfl).step (State.setChBit_touches ..) rfl)
  clear_value s1
  extract_lets +onlyGivenNames s2
  have h_s2 : Touches 1604 s0 s2 := (Touches.ite (fun _ => (h_s1.step (State.setInt_touches ..) rfl)) (fun _ => h_s1))
  clear_value s2
  extract_lets +onlyGivenNames h gap
  clear_value h gap
  extract_lets +onlyGivenNames s3
  have h_s3 : Touches 1604 s0 s3 := (h_s2.step (State.modChan_touches ..) rfl)
  clear_value s3
  exact (Touches.ite (fun _ => ((((h_s3.step (State.setChBit_touches ..) rfl).step (State.raise_touches ..) rfl).step (State.setInt_touches ..) rfl).step (State.produce_touches ..) rfl)) (fun _ => h_s3))

theorem State.deliver_touches : ∀ s c, Touches 50756 s (State.deliver s c) := by
  intro s c
  unfold State.deliver
  extract_lets +onlyGivenNames s4
  have h_s4 : Touches 50756 s s4 := ((State.delivered_touches ..).mono rfl)
  clear_value s4
  extract_lets +onlyGivenNames s5
  have h_s5 : Touches 50756 s s5 := (Touches.ite (fun _ => (h_s4.step (State.wakeBy_touches ..) rfl)) (fun _ => h_s4))
  clear_value s5
  extract_lets +onlyGivenNames b
  clear_value b
  exact (Touches.ite (fun _ => h_s5) (fun _ => (Touches.ite (fun _ => ((h_s5.step (State.pinEnd_touches ..) rfl).step (State.reachPin_touches ..) rfl)) (fun _ => (h_s5.step (State.reachInput_touches ..) rfl)))))

theorem State.deliverOr_touches : ∀ s c, Touches 50756 s (State.deliverOr s c) := by
  intro s c
  unfold State.deliverOr
  exact (Touches.ite (fun _ => ((State.count_touches ..).mono rfl)) (fun _ => ((State.deliver_touches ..).mono rfl)))

theorem State.gapOver_touches : ∀ s c, Touches 50756 s (State.gapOver s c) := by
  intro s c
  unfold State.gapOver
  extract_lets +onlyGivenNames h
  clear_value h
  exact (Touches.ite (fun _ => (((State.modChan_touches ..).mono rfl).step (State.deliverOr_touches ..) rfl)) (fun _ => Touches.refl _ _))

theorem State.channelEvent_touches : ∀ s0 c, Touches 50756 s0 (State.channelEvent s0 c) := by
  intro s0 c
  unfold State.channelEvent
  extract_lets +onlyGivenNames s
  have h_s : Touches 50756 s0 s := ((State.gapOver_touches ..).mono rfl)
  clear_value s
  split
  · exact h_s
  · extract_lets +onlyGivenNames s1
    have h_s1 : Touches 50756 s0 s1 := (h_s.step (State.modChan_touches ..) rfl)
    clear_value s1
    extract_lets +onlyGivenNames s2
    have h_s2 : Touches 50756 s0 s2 := (h_s1.step (State.count_touches ..) rfl)
    clear_value s2
    exact (Touches.ite (fun _ => (h_s2.step (State.count_touches ..) rfl)) (fun _ => (Touches.ite (fun _ => (Touches.ite (fun _ => (h_s2.step (State.count_touches ..) rfl)) (fun _ => (h_s2.step (State.modChan_touches ..) rfl)))) (fun _ => (h_s2.step (State.deliver_touches ..) rfl)))))

theorem execEventDeliver_touches : ∀ c s, Ends 50756 s (execEventDeliver c s) := by
  intro c s
  unfold execEventDeliver
  refine Ends.next ?_
  split
  · exact Touches.refl _ _
  · exact (Touches.ite (fun _ => Touches.refl _ _) (fun _ => ((State.channelEvent_touches ..).mono rfl)))

theorem execMinGapExpiry_touches : ∀ c s, Ends 50756 s (execMinGapExpiry c s) := by
  intro c s
  unfold execMinGapExpiry
  exact Ends.next ((State.gapOver_touches ..).mono rfl)

theorem execRateWindowEnd_touches : ∀ s, Ends 512 s (execRateWindowEnd s) := by
  intro s
  unfold execRateWindowEnd
  exact Ends.next ((State.windowSync_touches ..).mono rfl)

theorem execSwFire_touches : ∀ m v s, Ends 1604 s (execSwFire m v s) := by
  intro m v s
  unfold execSwFire
  exact Ends.next (State.regWrite_touches (Touches.refl _ _) rfl (fun _ h => (Touches.ite (fun _ => (h.step (State.assertAt_touches ..) rfl)) (fun _ => h))))

theorem execEventPortWrite_touches : ∀ m p k v s, Ends 1604 s (execEventPortWrite m p k v s) := by
  intro m p k v s
  unfold execEventPortWrite
  extract_lets +onlyGivenNames o w
  clear_value o w
  refine Ends.next (State.regWrite_touches (Touches.refl _ _) rfl (fun _ h => (Touches.ite (fun _ => (h.step (State.evPut_touches ..) rfl)) (fun _ => ?_))))
  extract_lets +onlyGivenNames old c i
  clear_value old c i
  extract_lets +onlyGivenNames freed
  have h_freed : Touches 1604 s freed := (Touches.ite (fun _ => (h.step (State.unbind_touches ..) rfl)) (fun _ => h))
  clear_value freed
  exact (Touches.ite (fun _ => (Touches.ite (fun _ => (h.step (State.bindConflict_touches ..) rfl)) (fun _ => ((h_freed.step (State.bind_touches ..) rfl).step (State.setReg_touches ..) rfl)))) (fun _ => (h_freed.step (State.setReg_touches ..) rfl)))

theorem execPinInputEdge_touches : ∀ q level s, Ends 512 s (execPinInputEdge q level s) := by
  intro q level s
  unfold execPinInputEdge
  extract_lets +onlyGivenNames cfg was
  clear_value cfg was
  extract_lets +onlyGivenNames s1
  have h_s1 : Touches 512 s s1 := (Touches.ite (fun _ => Touches.refl _ _) (fun _ => ((State.modPin_touches ..).mono rfl)))
  clear_value s1
  refine Ends.ite (fun _ => ?_) (fun _ => ?_)
  · exact Ends.next (h_s1.step (State.assertCh_touches ..) rfl)
  · exact Ends.next h_s1

theorem execPinPulseEnd_touches : ∀ q s, Ends 1604 s (execPinPulseEnd q s) := by
  intro q s
  unfold execPinPulseEnd
  exact Ends.next ((State.pinEnd_touches ..).mono rfl)

theorem execPinCfgWrite_touches : ∀ m q v s, Ends 1604 s (execPinCfgWrite m q v s) := by
  intro m q v s
  unfold execPinCfgWrite
  exact Ends.next (State.regWrite_touches (Touches.refl _ _) rfl (fun _ h => (Touches.ite (fun _ => (h.step (State.raise_touches ..) rfl)) (fun _ => (Touches.ite (fun _ => (h.step (State.modPin_touches ..) rfl)) (fun _ => (h.step (State.applyPinCfg_touches ..) rfl)))))))

end Sys2Proof.Machine
end

