-- ==== Sys2Proof/Laws/Touch/Codec.lean ====
section
/-!
SUPPORT. What each operation of Machine/Codec.lean may touch (see Laws/Touches.lean).
-/

-- One proof at a time bounds the threads and memory of a compile.
set_option Elab.async false

namespace Sys2Proof.Machine

open Sys2Proof

theorem State.modEnc_touches : ∀ s c f, Touches 262144 s (State.modEnc s c f) := by
  intro s c f
  unfold State.modEnc
  exact ((State.onCodec_touches ..).mono rfl)

theorem State.modDec_touches : ∀ s c f, Touches 262144 s (State.modDec s c f) := by
  intro s c f
  unfold State.modDec
  exact ((State.onCodec_touches ..).mono rfl)

theorem State.modCodecBlk_touches : ∀ s p f, Touches 262144 s (State.modCodecBlk s p f) := by
  intro s p f
  unfold State.modCodecBlk
  exact ((State.onCodec_touches ..).mono rfl)

theorem State.sessStat_touches : ∀ s0 p reason, Touches 1092 s0 (State.sessStat s0 p reason) := by
  intro s0 p reason
  unfold State.sessStat
  extract_lets +onlyGivenNames s
  have h_s : Touches 1092 s0 s := ((State.cmdStart_touches ..).mono rfl)
  clear_value s
  exact (Touches.ite (fun _ => (h_s.step (State.setReg_touches ..) rfl)) (fun _ => ((h_s.step (State.setReg_touches ..) rfl).step (State.raise_touches ..) rfl)))

theorem State.sessRuntime_touches : ∀ s p c, Touches 33556480 s (State.sessRuntime s p c) := by
  intro s p c
  unfold State.sessRuntime
  extract_lets +onlyGivenNames n
  clear_value n
  exact (((State.scxPut_touches ..).mono rfl).step (State.onFree_touches ..) rfl)

theorem State.codecStart_touches : ∀ s p c, Touches 262148 s (State.codecStart s p c) := by
  intro s p c
  unfold State.codecStart
  exact (((State.setReg_touches ..).mono rfl).step (State.modCodecBlk_touches ..) rfl)

theorem State.codecIdle_touches : ∀ s p, Touches 262148 s (State.codecIdle s p) := by
  intro s p
  unfold State.codecIdle
  exact (((State.setFld_touches ..).mono rfl).step (State.modCodecBlk_touches ..) rfl)

theorem State.sessOff_touches : ∀ s p c, Touches 264196 s (State.sessOff s p c) := by
  intro s p c
  unfold State.sessOff
  extract_lets +onlyGivenNames s1
  have h_s1 : Touches 264196 s s1 := (((State.scxPut_touches ..).mono rfl).step (State.scxFree_touches ..) rfl)
  clear_value s1
  extract_lets +onlyGivenNames s2
  have h_s2 : Touches 264196 s s2 := (Touches.ite (fun _ => (h_s1.step (State.onCodec_touches ..) rfl)) (fun _ => (h_s1.step (State.onCodec_touches ..) rfl)))
  clear_value s2
  exact (Touches.ite (fun _ => ((h_s2.step (State.modCodecBlk_touches ..) rfl).step (State.codecIdle_touches ..) rfl)) (fun _ => h_s2))

theorem State.sessPost_touches : ∀ s p c i d, Touches 11847 s (State.sessPost s p c i d) := by
  intro s p c i d
  unfold State.sessPost
  exact ((State.push_touches ..).mono rfl)

theorem State.encReturnHeld_touches : ∀ s p c, Touches 273991 s (State.encReturnHeld s p c) := by
  intro s p c
  unfold State.encReturnHeld
  extract_lets +onlyGivenNames e
  clear_value e
  exact (Touches.foldl ((State.modEnc_touches ..).mono rfl) (fun _ _ h => (h.step (State.sessPost_touches ..) rfl)))

theorem State.sessPicEvt_touches : ∀ s p c, Touches 512 s (State.sessPicEvt s p c) := by
  intro s p c
  unfold State.sessPicEvt
  extract_lets +onlyGivenNames ev
  clear_value ev
  exact (Touches.ite (fun _ => ((State.produceOn_touches ..).mono rfl)) (fun _ => ((State.produceOn_touches ..).mono rfl)))

theorem State.encAbort_touches : ∀ s p c, Touches 273991 s (State.encAbort s p c) := by
  intro s p c
  unfold State.encAbort
  split
  · exact Touches.refl _ _
  · extract_lets +onlyGivenNames flags
    clear_value flags
    extract_lets +onlyGivenNames s1
    have h_s1 : Touches 273991 s s1 := ((State.sessPost_touches ..).mono rfl)
    clear_value s1
    extract_lets +onlyGivenNames s2
    have h_s2 : Touches 273991 s s2 := by
      unfold s2
      split
      · exact (h_s1.step (State.sessPost_touches ..) rfl)
      · exact h_s1
    clear_value s2
    exact (((h_s2.step (State.modEnc_touches ..) rfl).step (State.sessPicEvt_touches ..) rfl).step (State.codecIdle_touches ..) rfl)

theorem State.decAbort_touches : ∀ s p c, Touches 33828423 s (State.decAbort s p c) := by
  intro s p c
  unfold State.decAbort
  extract_lets +onlyGivenNames e
  clear_value e
  extract_lets +onlyGivenNames s1
  have h_s1 : Touches 33828423 s s1.2 := ((State.drawWord_touches ..).mono rfl)
  clear_value s1
  extract_lets +onlyGivenNames s11
  have h_s11 : Touches 33828423 s s11 := by
    unfold s11
    split
    · exact (Touches.ite (fun _ => Touches.refl _ _) (fun _ => (h_s1.step (State.sessPost_touches ..) rfl)))
    · refine (Touches.ite (fun _ => ?_) (fun _ => ((State.sessPost_touches ..).mono rfl)))
      extract_lets +onlyGivenNames t1
      have h_t1 : Touches 33828423 s t1 := (((State.sessPost_touches ..).mono rfl).step (State.sessPicEvt_touches ..) rfl)
      clear_value t1
      split
      · exact (h_t1.step (State.sessPost_touches ..) rfl)
      · exact h_t1
  clear_value s11
  exact ((h_s11.step (State.modDec_touches ..) rfl).step (State.codecIdle_touches ..) rfl)

theorem State.sessAbort_touches : ∀ s p c, Touches 33828423 s (State.sessAbort s p c) := by
  intro s p c
  unfold State.sessAbort
  exact (Touches.ite (fun _ => ((State.encAbort_touches ..).mono rfl)) (fun _ => ((State.decAbort_touches ..).mono rfl)))

theorem State.sessError_touches : ∀ s p c withDesc, Touches 33828423 s (State.sessError s p c withDesc) := by
  intro s p c withDesc
  unfold State.sessError
  extract_lets +onlyGivenNames s1
  have h_s1 : Touches 33828423 s s1 := (Touches.ite (fun _ => ((State.sessAbort_touches ..).mono rfl)) (fun _ => (((State.modEnc_touches ..).mono rfl).step (State.modDec_touches ..) rfl)))
  clear_value s1
  extract_lets +onlyGivenNames s2
  have h_s2 : Touches 33828423 s s2 := (Touches.ite (fun _ => (h_s1.step (State.modEnc_touches ..) rfl)) (fun _ => (h_s1.step (State.modDec_touches ..) rfl)))
  clear_value s2
  exact ((Touches.ite (fun _ => ((h_s2.step (State.modCodecBlk_touches ..) rfl).step (State.codecIdle_touches ..) rfl)) (fun _ => h_s2)).step (State.produce_touches ..) rfl)

theorem State.sessCmd_touches {K : Nat} {s u : State} {m : Master} {p : Nat} {eff : Nat → State → State} (h : Touches K s u)
    (hk : Nat.land 1092 K = 1092) (heff : ∀ c t, Touches K s t → Touches K s (eff c t)) :
    Touches K s (State.sessCmd u m p eff) := State.regWrite_touches h hk (fun _ ht => heff _ _ ht)

theorem execSessLoad_touches : ∀ m p s, Ends 1092 s (execSessLoad m p s) := by
  intro m p s
  unfold execSessLoad
  refine Ends.next (State.sessCmd_touches (Touches.refl _ _) rfl (fun _ _ h => ?_))
  extract_lets +onlyGivenNames n
  clear_value n
  exact (((h.step (State.setRegs32_touches ..) rfl).step (State.setRegs32_touches ..) rfl).step (State.sessStat_touches ..) rfl)

theorem State.encSupply_touches : ∀ s p c, Touches 273991 s (State.encSupply s p c) := by
  intro s p c
  unfold State.encSupply
  extract_lets +onlyGivenNames w ds
  clear_value w ds
  extract_lets +onlyGivenNames r
  have h_r' : Touches2 273991 s r := by
    unfold r
    show Touches _ _ _
    dsimp only
    exact (Touches.foldl_snd (Touches.refl _ _) (fun _ _ h => (h.step (State.busRead_touches ..) rfl)))
  have h_r : Touches 273991 s r.2 := h_r'
  clear_value r
  exact (Touches.foldl (h_r.step (State.modEnc_touches ..) rfl) (fun _ _ h => (h.step (State.sessPost_touches ..) rfl)))

theorem execSessStore_touches : ∀ m p s, Ends 33828423 s (execSessStore m p s) := by
  intro m p s
  unfold execSessStore
  refine Ends.next (State.sessCmd_touches (Touches.refl _ _) rfl (fun _ _ h => ?_))
  extract_lets +onlyGivenNames n w
  clear_value n w
  extract_lets +onlyGivenNames enc
  refine (Touches.ite (fun _ => (h.step (State.stateWrite_touches ..) rfl)) (fun _ => (Touches.ite (fun _ => (h.step (State.scxConflict_touches ..) rfl)) (fun _ => ?_))))
  extract_lets +onlyGivenNames r
  clear_value r
  refine (Touches.ite (fun _ => (h.step (State.sessStat_touches ..) rfl)) (fun _ => ?_))
  extract_lets +onlyGivenNames t1
  have h_t1 : Touches 33828423 s t1 := (h.step (State.scxPut_touches ..) rfl)
  clear_value t1
  refine (Touches.ite (fun _ => (h_t1.step (State.sessStat_touches ..) rfl)) (fun _ => ?_))
  extract_lets +onlyGivenNames t2
  have h_t2 : Touches 33828423 s t2 := ((h_t1.step (State.scxClaim_touches ..) rfl).step (State.sessRuntime_touches ..) rfl)
  clear_value t2
  extract_lets +onlyGivenNames t3
  have h_t3 : Touches 33828423 s t3 := (h_t2.step (State.modEnc_touches ..) rfl)
  clear_value t3
  extract_lets +onlyGivenNames t31
  have h_t31 : Touches 33828423 s t31 := (Touches.ite (fun _ => (Touches.ite (fun _ => (h_t3.step (State.encSupply_touches ..) rfl)) (fun _ => h_t3))) (fun _ => (h_t2.step (State.modDec_touches ..) rfl)))
  clear_value t31
  exact (h_t31.step (State.sessStat_touches ..) rfl)

theorem execSessStop_touches : ∀ m p s, Ends 273991 s (execSessStop m p s) := by
  intro m p s
  unfold execSessStop
  exact Ends.next (State.sessCmd_touches (Touches.refl _ _) rfl (fun _ _ h => (Touches.ite (fun _ => (h.step (State.stateWrite_touches ..) rfl)) (fun _ => (Touches.ite (fun _ => (((Touches.ite (fun _ => (h.step (State.encReturnHeld_touches ..) rfl)) (fun _ => h)).step (State.sessOff_touches ..) rfl).step (State.sessStat_touches ..) rfl)) (fun _ => (((h.step (State.modEnc_touches ..) rfl).step (State.modDec_touches ..) rfl).step (State.sessStat_touches ..) rfl)))))))

theorem State.sessQuit_touches : ∀ s p c, Touches 33828423 s (State.sessQuit s p c) := by
  intro s p c
  unfold State.sessQuit
  extract_lets +onlyGivenNames t1
  have h_t1 : Touches 33828423 s t1 := ((State.sessAbort_touches ..).mono rfl)
  clear_value t1
  exact ((Touches.ite (fun _ => (h_t1.step (State.encReturnHeld_touches ..) rfl)) (fun _ => h_t1)).step (State.sessOff_touches ..) rfl)

theorem execSessStopNow_touches : ∀ m p s, Ends 33828423 s (execSessStopNow m p s) := by
  intro m p s
  unfold execSessStopNow
  exact Ends.next (State.sessCmd_touches (Touches.refl _ _) rfl (fun _ _ h => (Touches.ite (fun _ => (h.step (State.stateWrite_touches ..) rfl)) (fun _ => ((h.step (State.sessQuit_touches ..) rfl).step (State.sessStat_touches ..) rfl)))))

theorem execSetRate_touches : ∀ m p s, Ends 263236 s (execSetRate m p s) := by
  intro m p s
  unfold execSetRate
  exact Ends.next (State.sessCmd_touches (Touches.refl _ _) rfl (fun _ _ h => (Touches.ite (fun _ => (h.step (State.stateWrite_touches ..) rfl)) (fun _ => ((h.step (State.modEnc_touches ..) rfl).step (State.sessStat_touches ..) rfl)))))

theorem execForceIdr_touches : ∀ m p s, Ends 263236 s (execForceIdr m p s) := by
  intro m p s
  unfold execForceIdr
  exact Ends.next (State.sessCmd_touches (Touches.refl _ _) rfl (fun _ _ h => (Touches.ite (fun _ => (h.step (State.stateWrite_touches ..) rfl)) (fun _ => ((h.step (State.modEnc_touches ..) rfl).step (State.sessStat_touches ..) rfl)))))

theorem execGangWrite_touches : ∀ m n v s, Ends 1092 s (execGangWrite m n v s) := by
  intro m n v s
  unfold execGangWrite
  extract_lets +onlyGivenNames o
  clear_value o
  refine Ends.next (State.regWrite_touches (Touches.refl _ _) rfl (fun _ h => ?_))
  extract_lets +onlyGivenNames size old
  clear_value size old
  refine (Touches.ite (fun _ => h) (fun _ => (Touches.ite (fun _ => (h.step (State.stateWrite_touches ..) rfl)) (fun _ => ?_))))
  extract_lets +onlyGivenNames mine others bad
  clear_value others bad
  refine (Touches.ite (fun _ => (h.step (State.raise_touches ..) rfl)) (fun _ => ?_))
  extract_lets +onlyGivenNames t1
  have h_t1 : Touches 1092 s t1 := (Touches.foldl h (fun _ _ h1 => (Touches.ite (fun _ => h1) (fun _ => (h1.step (State.setFld_touches ..) rfl)))))
  clear_value t1
  extract_lets +onlyGivenNames t2
  have h_t2 : Touches 1092 s t2 := (Touches.foldl h_t1 (fun _ _ h1 => (Touches.ite (fun _ => h1) (fun _ => (h1.step (State.setFld_touches ..) rfl)))))
  clear_value t2
  exact (h_t2.step (State.setFld_touches ..) rfl)

theorem State.codecFenced_touches : ∀ s p, Touches 33828423 s (State.codecFenced s p) := by
  intro s p
  unfold State.codecFenced
  extract_lets +onlyGivenNames own
  have h_own : Touches 33828423 s own := (Touches.foldl (Touches.refl _ _) (fun _ _ h => (h.step (State.sessError_touches ..) rfl)))
  clear_value own
  refine (Touches.ite (fun _ => h_own) (fun _ => ?_))
  extract_lets +onlyGivenNames n
  clear_value n
  refine (Touches.ite (fun _ => h_own) (fun _ => ?_))
  extract_lets +onlyGivenNames lead
  clear_value lead
  exact ((Touches.foldl h_own (fun _ _ h => (h.step (State.sessError_touches ..) rfl))).step (State.raise_touches ..) rfl)

theorem execCodecSessionSwitch_touches : ∀ p s, Ends 262148 s (execCodecSessionSwitch p s) := by
  intro p s
  unfold execCodecSessionSwitch
  extract_lets +onlyGivenNames b free
  clear_value b free
  refine Ends.ite (fun _ => ?_) (fun _ => ?_)
  · exact Ends.next (Touches.refl _ _)
  · split
    · exact Ends.next (Touches.refl _ _)
    · extract_lets +onlyGivenNames st
      clear_value st
      extract_lets +onlyGivenNames s1
      have h_s1 : Touches 262148 s s1 := (((State.modCodecBlk_touches ..).mono rfl).step (State.setReg_touches ..) rfl)
      clear_value s1
      exact Ends.next (Touches.ite (fun _ => (h_s1.step (State.modEnc_touches ..) rfl)) (fun _ => (h_s1.step (State.modDec_touches ..) rfl)))

theorem State.sixLog_touches : ∀ s a b, Touches 33554432 s (State.sixLog s a b).2 := by
  intro s a b
  unfold State.sixLog
  change Touches2 33554432 s _
  split
  · extract_lets +onlyGivenNames r
    have h_r : Touches 33554432 s r.2 := ((State.drawWord_touches ..).mono rfl)
    clear_value r
    exact h_r
  · exact Touches.refl _ _

theorem State.encDrop_touches : ∀ s p c src frame type poc fl buf, Touches 33828423 s (State.encDrop s p c src frame type poc fl buf) := by
  intro s p c src frame type poc fl buf
  unfold State.encDrop
  extract_lets +onlyGivenNames r
  have h_r : Touches 33828423 s r.2 := ((State.drawWord_touches ..).mono rfl)
  clear_value r
  extract_lets +onlyGivenNames q
  have h_q : Touches 33828423 s q.2 := (h_r.step (State.drawWord_touches ..) rfl)
  clear_value q
  extract_lets +onlyGivenNames u
  have h_u' : Touches22 33828423 s u := by
    unfold u
    split
    · exact Touches.refl _ _
    · exact h_q
  have h_u : Touches 33828423 s u.2.2 := h_u'
  clear_value u
  extract_lets +onlyGivenNames s1
  have h_s1 : Touches 33828423 s s1 := (h_u.step (State.sessPost_touches ..) rfl)
  clear_value s1
  extract_lets +onlyGivenNames w
  clear_value w
  extract_lets +onlyGivenNames s2
  have h_s2 : Touches 33828423 s s2 := by
    unfold s2
    split
    · exact (h_s1.step (State.sessPost_touches ..) rfl)
    · exact (h_s1.step (State.modEnc_touches ..) rfl)
  clear_value s2
  extract_lets +onlyGivenNames s3
  have h_s3 : Touches 33828423 s s3 := (Touches.ite (fun _ => (h_s2.step (State.modEnc_touches ..) rfl)) (fun _ => h_s2))
  clear_value s3
  exact (((h_s3.step (State.count_touches ..) rfl).step (State.sessPicEvt_touches ..) rfl).step (State.codecIdle_touches ..) rfl)

theorem State.encBoundary_touches : ∀ s p c, Touches 273991 s (State.encBoundary s p c) := by
  intro s p c
  unfold State.encBoundary
  exact (Touches.ite (fun _ => (((State.encReturnHeld_touches ..).mono rfl).step (State.sessOff_touches ..) rfl)) (fun _ => Touches.refl _ _))

theorem State.encProgDesc_touches : ∀ s p c, Touches 33828423 s (State.encProgDesc s p c) := by
  intro s p c
  unfold State.encProgDesc
  refine (Touches.ite (fun _ => ?_) (fun _ => ?_))
  · split
    · exact (Touches.of_snd ((State.take_touches ..).mono rfl) ‹_›)
    · exact (((Touches.of_snd ((State.take_touches ..).mono rfl) ‹_›).step (State.sessPost_touches ..) rfl).step (State.modEnc_touches ..) rfl)
  · split
    · exact Touches.refl _ _
    · extract_lets +onlyGivenNames w
      clear_value w
      refine (Touches.ite (fun _ => Touches.refl _ _) (fun _ => ?_))
      split
      · exact (Touches.of_snd ((State.take_touches ..).mono rfl) ‹_›)
      · extract_lets +onlyGivenNames t1
        have h_t1 : Touches 33828423 s t1 := ((Touches.of_snd ((State.take_touches ..).mono rfl) ‹_›).step (State.modEnc_touches ..) rfl)
        clear_value t1
        refine (Touches.ite (fun _ => ((h_t1.step (State.sessError_touches ..) rfl).step (State.raise_touches ..) rfl)) (fun _ => (Touches.ite (fun _ => ?_) (fun _ => h_t1))))
        extract_lets +onlyGivenNames t2
        have h_t2 : Touches 33828423 s t2 := (h_t1.step (State.encDrop_touches ..) rfl)
        clear_value t2
        exact ((h_t2.step (State.modEnc_touches ..) rfl).step (State.encBoundary_touches ..) rfl)

theorem State.encNext_touches : ∀ s c, Touches 273991 s (State.encNext s c).2 := by
  intro s c
  unfold State.encNext
  change Touches2 273991 s _
  extract_lets +onlyGivenNames w e due
  clear_value w e due
  split
  · show Touches _ _ _
    dsimp only
    exact ((State.modEnc_touches ..).mono rfl)
  · split
    · split
      · show Touches _ _ _
        dsimp only
        exact ((State.modEnc_touches ..).mono rfl)
      · split
        · exact (Touches.of_snd ((State.take_touches ..).mono rfl) ‹_›)
        · show Touches _ _ _
          dsimp only
          exact ((Touches.of_snd ((State.take_touches ..).mono rfl) ‹_›).step (State.modEnc_touches ..) rfl)
    · split
      · exact (Touches.of_snd ((State.take_touches ..).mono rfl) ‹_›)
      · split
        · exact (Touches.of_snd ((State.take_touches ..).mono rfl) ‹_›)
        · split
          · show Touches _ _ _
            dsimp only
            exact ((Touches.of_snd ((State.take_touches ..).mono rfl) ‹_›).step (State.modEnc_touches ..) rfl)
          · extract_lets +onlyGivenNames all
            clear_value all
            split
            · exact (Touches.of_snd ((State.take_touches ..).mono rfl) ‹_›)
            · show Touches _ _ _
              dsimp only
              exact ((Touches.of_snd ((State.take_touches ..).mono rfl) ‹_›).step (State.modEnc_touches ..) rfl)

theorem State.encPlan_touches : ∀ s n c type wt hdr costs f, Touches 33828423 s (State.encPlan s n c type wt hdr costs f) := by
  intro s n c type wt hdr costs f
  unfold State.encPlan
  extract_lets +onlyGivenNames p w e g h capF cap0 cap fb
  clear_value p w e g h capF cap0 cap fb
  extract_lets +onlyGivenNames nom
  have h_nom' : Touches2 33828423 s nom := by
    unfold nom
    split
    · exact Touches.refl _ _
    · exact ((State.drawNat_touches ..).mono rfl)
  have h_nom : Touches 33828423 s nom.2 := h_nom'
  clear_value nom
  extract_lets +onlyGivenNames cqp repay t0 debt
  clear_value repay t0 debt
  refine (Touches.ite (fun _ => ((h_nom.step (State.encDrop_touches ..) rfl).step (State.modEnc_touches ..) rfl)) (fun _ => ?_))
  extract_lets +onlyGivenNames t1 rows now last bits
  clear_value t1 rows now last bits
  extract_lets +onlyGivenNames lg
  have h_lg : Touches 33828423 s lg.2 := (h_nom.step (State.sixLog_touches ..) rfl)
  clear_value lg
  extract_lets +onlyGivenNames qp0 qp
  clear_value qp0 qp
  exact ((h_lg.step (State.modEnc_touches ..) rfl).step (State.codecStart_touches ..) rfl)

theorem State.encBuffer_touches : ∀ s n c type wt hdr costs f, Touches 33828423 s (State.encBuffer s n c type wt hdr costs f) := by
  intro s n c type wt hdr costs f
  unfold State.encBuffer
  extract_lets +onlyGivenNames p w
  clear_value p w
  split
  · exact (((((Touches.of_snd ((State.take_touches ..).mono rfl) ‹_›).step (State.encDrop_touches ..) rfl).step (State.count_touches ..) rfl).step (State.raise_touches ..) rfl).step (State.modEnc_touches ..) rfl)
  · exact ((Touches.of_snd ((State.take_touches ..).mono rfl) ‹_›).step (State.encPlan_touches ..) rfl)

theorem execEncPictureStart_touches : ∀ n hdr costs s, Ends 33828423 s (execEncPictureStart n hdr costs s) := by
  intro n hdr costs s
  unfold execEncPictureStart
  extract_lets +onlyGivenNames p
  clear_value p
  split
  · exact Ends.next (Touches.refl _ _)
  · extract_lets +onlyGivenNames e
    clear_value e
    refine Ends.ite (fun _ => ?_) (fun _ => ?_)
    · exact Ends.next ((State.encProgDesc_touches ..).mono rfl)
    · refine Ends.ite (fun _ => ?_) (fun _ => ?_)
      · exact Ends.next (Touches.refl _ _)
      · extract_lets +onlyGivenNames s0
        have h_s0 : Touches 33828423 s s0 := by
          unfold s0
          split
          · exact (((State.scxPut_touches ..).mono rfl).step (State.scxPut_touches ..) rfl)
          · exact Touches.refl _ _
        clear_value s0
        extract_lets +onlyGivenNames s1
        have h_s1 : Touches 33828423 s s1 := (h_s0.step (State.modEnc_touches ..) rfl)
        clear_value s1
        extract_lets +onlyGivenNames w
        clear_value w
        refine Ends.ite (fun _ => ?_) (fun _ => ?_)
        · refine Ends.ite (fun _ => ?_) (fun _ => ?_)
          · exact Ends.next (Touches.refl _ _)
          · extract_lets +onlyGivenNames due
            clear_value due
            extract_lets +onlyGivenNames fr
            have h_fr : Touches 33828423 s fr.2 := (h_s1.step (State.drawWord_touches ..) rfl)
            clear_value fr
            extract_lets +onlyGivenNames poc
            have h_poc : Touches 33828423 s poc.2 := (h_fr.step (State.drawWord_touches ..) rfl)
            clear_value poc
            extract_lets +onlyGivenNames b
            clear_value b
            extract_lets +onlyGivenNames s2
            have h_s2 : Touches 33828423 s s2 := ((h_poc.step (State.modEnc_touches ..) rfl).step (State.encBuffer_touches ..) rfl)
            clear_value s2
            extract_lets +onlyGivenNames s3
            have h_s3 : Touches 33828423 s s3 := (Touches.ite (fun _ => (h_s2.step (State.modEnc_touches ..) rfl)) (fun _ => h_s2))
            clear_value s3
            exact Ends.next (h_s3.step (State.encProgDesc_touches ..) rfl)
        · extract_lets +onlyGivenNames r
          have h_r : Touches 33828423 s r.2 := (h_s1.step (State.encNext_touches ..) rfl)
          clear_value r
          split
          · exact Ends.next h_r
          · extract_lets +onlyGivenNames poc
            clear_value poc
            refine Ends.ite (fun _ => ?_) (fun _ => ?_)
            · exact Ends.next ((h_r.step (State.encDrop_touches ..) rfl).step (State.modEnc_touches ..) rfl)
            · extract_lets +onlyGivenNames f
              clear_value f
              extract_lets +onlyGivenNames s2
              have h_s2 : Touches 33828423 s s2 := (h_r.step (State.encBuffer_touches ..) rfl)
              clear_value s2
              exact Ends.next (Touches.ite (fun _ => (h_s2.step (State.modEnc_touches ..) rfl)) (fun _ => h_s2))

theorem execHencProgressEvent_touches : ∀ n k lines s, Ends 33828423 s (execHencProgressEvent n k lines s) := by
  intro n k lines s
  unfold execHencProgressEvent
  extract_lets +onlyGivenNames p
  clear_value p
  refine Ends.ite (fun _ => ?_) (fun _ => ?_)
  · exact Ends.next (Touches.refl _ _)
  · extract_lets +onlyGivenNames s1
    have h_s1 : Touches 33828423 s s1 := ((State.setBusy_touches ..).mono rfl)
    clear_value s1
    extract_lets +onlyGivenNames cs
    clear_value cs
    exact Ends.next (Touches.foldl h_s1 (fun _ _ h => ((h.step (State.modEnc_touches ..) rfl).step (State.encProgDesc_touches ..) rfl)))

theorem State.rowQp_touches : ∀ s w g f, Touches 33554432 s (State.rowQp s w g f).2 := by
  intro s w g f
  unfold State.rowQp
  change Touches2 33554432 s _
  split
  · exact Touches.refl _ _
  · split
    · exact Touches.refl _ _
    · extract_lets +onlyGivenNames done
      clear_value done
      split
      · exact Touches.refl _ _
      · extract_lets +onlyGivenNames planned
        clear_value planned
        extract_lets +onlyGivenNames lg
        have h_lg : Touches 33554432 s lg.2 := ((State.sixLog_touches ..).mono rfl)
        clear_value lg
        exact h_lg

theorem State.modPic_touches : ∀ s c f, Touches 262144 s (State.modPic s c f) := by
  intro s c f
  unfold State.modPic
  exact ((State.modEnc_touches ..).mono rfl)

theorem State.rowStart_touches : ∀ s p c g j row w f, Touches 33818180 s (State.rowStart s p c g j row w f) := by
  intro s p c g j row w f
  unfold State.rowStart
  extract_lets +onlyGivenNames floor
  clear_value floor
  extract_lets +onlyGivenNames s1
  have h_s1 : Touches 33818180 s s1 := (Touches.ite (fun _ => ((((State.modPic_touches ..).mono rfl).step (State.raise_touches ..) rfl).step (State.produce_touches ..) rfl)) (fun _ => Touches.refl _ _))
  clear_value s1
  extract_lets +onlyGivenNames q
  have h_q : Touches 33818180 s q.2 := (h_s1.step (State.rowQp_touches ..) rfl)
  clear_value q
  extract_lets +onlyGivenNames rel starts
  clear_value rel starts
  exact (h_q.step (State.modPic_touches ..) rfl)

theorem State.codecErr_touches : ∀ s p e, Touches 1092 s (State.codecErr s p e).2 := by
  intro s p e
  unfold State.codecErr
  change Touches2 1092 s _
  extract_lets +onlyGivenNames r
  have h_r : Touches 1092 s r.2 := ((State.takeErr_touches ..).mono rfl)
  clear_value r
  exact (h_r.step (State.eccCount_touches ..) rfl)

theorem execEncCtbCoded_touches : ∀ n j bits fallback refPoison e s, Ends 33828423 s (execEncCtbCoded n j bits fallback refPoison e s) := by
  intro n j bits fallback refPoison e s
  unfold execEncCtbCoded
  extract_lets +onlyGivenNames p
  clear_value p
  split
  · exact Ends.next (Touches.refl _ _)
  · extract_lets +onlyGivenNames s0
    have h_s0 : Touches 33828423 s s0 := ((State.encProgDesc_touches ..).mono rfl)
    clear_value s0
    extract_lets +onlyGivenNames w g
    clear_value w g
    split
    · exact Ends.next h_s0
    · extract_lets +onlyGivenNames at_
      clear_value at_
      refine Ends.ite (fun _ => ?_) (fun _ => ?_)
      · exact Ends.next h_s0
      · refine Ends.ite (fun _ => ?_) (fun _ => ?_)
        · exact Ends.next (h_s0.step (State.setFld_touches ..) rfl)
        · extract_lets +onlyGivenNames s1
          have h_s1 : Touches 33828423 s s1 := ((Touches.ite (fun _ => (h_s0.step (State.rowStart_touches ..) rfl)) (fun _ => h_s0)).step (State.setFld_touches ..) rfl)
          clear_value s1
          split
          · exact Ends.next h_s1
          · extract_lets +onlyGivenNames fb after mine mAfter mCap fits fall
            clear_value fb after mine mAfter mCap fits fall
            extract_lets +onlyGivenNames s2
            have h_s2 : Touches 33828423 s s2 := (Touches.ite (fun _ => ((h_s1.step (State.modPic_touches ..) rfl).step (State.raise_touches ..) rfl)) (fun _ => h_s1))
            clear_value s2
            extract_lets +onlyGivenNames ecc
            have h_ecc : Touches 33828423 s ecc.2 := (h_s2.step (State.codecErr_touches ..) rfl)
            clear_value ecc
            extract_lets +onlyGivenNames bad
            clear_value bad
            extract_lets +onlyGivenNames s3
            have h_s3 : Touches 33828423 s s3 := (Touches.ite (fun _ => (((h_ecc.step (State.modPic_touches ..) rfl).step (State.count_touches ..) rfl).step (State.raise_touches ..) rfl)) (fun _ => h_ecc))
            clear_value s3
            extract_lets +onlyGivenNames s4
            have h_s4 : Touches 33828423 s s4 := (Touches.ite (fun _ => (h_s3.step (State.count_touches ..) rfl)) (fun _ => h_s3))
            clear_value s4
            exact Ends.next (h_s4.step (State.modPic_touches ..) rfl)

theorem State.encFinish_touches : ∀ s p c total f, Touches 33828423 s (State.encFinish s p c total f) := by
  intro s p c total f
  unfold State.encFinish
  extract_lets +onlyGivenNames w mean e full
  clear_value w mean e full
  extract_lets +onlyGivenNames s1
  have h_s1 : Touches 33828423 s s1 := ((State.modEnc_touches ..).mono rfl)
  clear_value s1
  extract_lets +onlyGivenNames s2
  have h_s2 : Touches 33828423 s s2 := by
    unfold s2
    split
    · exact (h_s1.step (State.sessPost_touches ..) rfl)
    · exact h_s1
  clear_value s2
  extract_lets +onlyGivenNames s3
  have h_s3 : Touches 33828423 s s3 := (h_s2.step (State.count_touches ..) rfl)
  clear_value s3
  extract_lets +onlyGivenNames s4
  have h_s4 : Touches 33828423 s s4 := (Touches.ite (fun _ => (h_s3.step (State.count_touches ..) rfl)) (fun _ => h_s3))
  clear_value s4
  extract_lets +onlyGivenNames s5
  have h_s5 : Touches 33828423 s s5 := (Touches.ite (fun _ => (h_s4.step (State.count_touches ..) rfl)) (fun _ => h_s4))
  clear_value s5
  extract_lets +onlyGivenNames s6
  have h_s6 : Touches 33828423 s s6 := (h_s5.step (State.setReg_touches ..) rfl)
  clear_value s6
  extract_lets +onlyGivenNames pool
  clear_value pool
  extract_lets +onlyGivenNames ref
  have h_ref : Touches 33828423 s ref.2 := (h_s6.step (State.drawBytes_touches ..) rfl)
  clear_value ref
  extract_lets +onlyGivenNames s7
  have h_s7 : Touches 33828423 s s7 := (((h_ref.step (State.busWrite_touches ..) rfl).step (State.sessRuntime_touches ..) rfl).step (State.codecIdle_touches ..) rfl)
  clear_value s7
  extract_lets +onlyGivenNames s8
  have h_s8 : Touches 33828423 s s8 := ((h_s7.step (State.sessPicEvt_touches ..) rfl).step (State.produce_touches ..) rfl)
  clear_value s8
  exact (h_s8.step (State.encBoundary_touches ..) rfl)

theorem execEncSliceDone_touches : ∀ n len s, Ends 33828423 s (execEncSliceDone n len s) := by
  intro n len s
  unfold execEncSliceDone
  extract_lets +onlyGivenNames p
  clear_value p
  split
  · exact Ends.next (Touches.refl _ _)
  · extract_lets +onlyGivenNames s0
    have h_s0 : Touches 33828423 s s0 := ((State.encProgDesc_touches ..).mono rfl)
    clear_value s0
    extract_lets +onlyGivenNames w g
    clear_value w g
    split
    · exact Ends.next h_s0
    · extract_lets +onlyGivenNames total
      refine Ends.ite (fun _ => ?_) (fun _ => ?_)
      · exact Ends.next h_s0
      · split
        · refine Ends.ite (fun _ => ?_) (fun _ => ?_)
          · exact Ends.next (h_s0.step (State.encFinish_touches ..) rfl)
          · exact Ends.next h_s0
        · extract_lets +onlyGivenNames j part at_ k addr rest nextRow last fill room
          clear_value j part at_ k addr rest nextRow last fill room
          extract_lets +onlyGivenNames data
          have h_data : Touches 33828423 s data.2 := (h_s0.step (State.drawBytes_touches ..) rfl)
          clear_value data
          extract_lets +onlyGivenNames s1
          have h_s1 : Touches 33828423 s s1 := (h_data.step (State.busWrite_touches ..) rfl)
          clear_value s1
          extract_lets +onlyGivenNames f1 each lastFl base fl d
          clear_value f1 each lastFl base fl d
          extract_lets +onlyGivenNames s2
          have h_s2 : Touches 33828423 s s2 := (h_s1.step (State.modEnc_touches ..) rfl)
          clear_value s2
          extract_lets +onlyGivenNames s3
          have h_s3 : Touches 33828423 s s3 := (Touches.ite (fun _ => (h_s2.step (State.sessPost_touches ..) rfl)) (fun _ => h_s2))
          clear_value s3
          extract_lets +onlyGivenNames s4
          have h_s4 : Touches 33828423 s s4 := (h_s3.step (State.produceOn_touches ..) rfl)
          clear_value s4
          exact Ends.next (Touches.ite (fun _ => (h_s4.step (State.encFinish_touches ..) rfl)) (fun _ => h_s4))

end Sys2Proof.Machine
end

