-- ==== Sys2Proof/Laws/Touch/Cti.lean ====
section
/-!
SUPPORT. What each operation of Machine/Cti.lean may touch (see Laws/Touches.lean).
-/

-- One proof at a time bounds the threads and memory of a compile.
set_option Elab.async false

namespace Sys2Proof.Machine

open Sys2Proof

theorem State.msixRaise_touches : ∀ s v, Touches 8192 s (State.msixRaise s v) := by
  intro s v
  unfold State.msixRaise
  extract_lets +onlyGivenNames e
  clear_value e
  exact (Touches.ite (fun _ => ((State.onPlat_touches ..).mono rfl)) (fun _ => ((State.onPlat_touches ..).mono rfl)))

theorem State.dirtyReport_touches : ∀ s, Touches 4195908 s (State.dirtyReport s) := by
  intro s
  unfold State.dirtyReport
  refine (Touches.foldl (Touches.refl _ _) (fun _ _ h => ?_))
  extract_lets +onlyGivenNames k n
  clear_value k n
  refine (Touches.ite (fun _ => h) (fun _ => (Touches.foldl h (fun _ _ h1 => ?_))))
  extract_lets +onlyGivenNames first
  clear_value first
  exact ((h1.step (State.deferError_touches ..) rfl).step (State.modDirty_touches ..) rfl)

theorem State.ctiEnable_touches : ∀ s, Touches 4195908 s (State.ctiEnable s) := by
  intro s
  unfold State.ctiEnable
  extract_lets +onlyGivenNames size q
  clear_value size q
  extract_lets +onlyGivenNames s1
  have h_s1 : Touches 4195908 s s1 := ((State.onStor_touches ..).mono rfl)
  clear_value s1
  exact (((h_s1.step (State.dirtyReport_touches ..) rfl).step (State.ctiResume_touches ..) rfl).step (State.storAfter_touches ..) rfl)

theorem State.qDelete_touches : ∀ s q, Touches 4194820 s (State.qDelete s q) := by
  intro s q
  unfold State.qDelete
  split
  · exact Touches.refl _ _
  · extract_lets +onlyGivenNames s1
    have h_s1 : Touches 4194820 s s1 := ((State.modQ_touches ..).mono rfl)
    clear_value s1
    refine (Touches.foldl h_s1 (fun _ _ h => ?_))
    extract_lets +onlyGivenNames op
    clear_value op
    extract_lets +onlyGivenNames u
    have h_u : Touches 4194820 s u := (Touches.ite (fun _ => (State.nsChange_touches h rfl (fun _ h1 => (h1.step (State.setProg_touches ..) rfl)))) (fun _ => h))
    clear_value u
    exact (h_u.step (State.ctiDone_touches ..) rfl)

theorem State.ctiDisable_touches : ∀ s, Touches 4195908 s (State.ctiDisable s) := by
  intro s
  unfold State.ctiDisable
  refine (Touches.ite (fun _ => Touches.refl _ _) (fun _ => ?_))
  extract_lets +onlyGivenNames s1
  have h_s1 : Touches 4195908 s s1 := ((State.onStor_touches ..).mono rfl)
  clear_value s1
  exact ((Touches.foldl h_s1 (fun _ _ h => (h.step (State.qDelete_touches ..) rfl))).step (State.storAfter_touches ..) rfl)

theorem State.ctiCtrl_touches : ∀ s v, Touches 4195908 s (State.ctiCtrl s v) := by
  intro s v
  unfold State.ctiCtrl
  refine (Touches.ite (fun _ => Touches.refl _ _) (fun _ => ?_))
  extract_lets +onlyGivenNames s1
  have h_s1 : Touches 4195908 s s1 := ((State.setReg_touches ..).mono rfl)
  clear_value s1
  exact (Touches.ite (fun _ => (Touches.ite (fun _ => (h_s1.step (State.ctiEnable_touches ..) rfl)) (fun _ => h_s1))) (fun _ => (h_s1.step (State.ctiDisable_touches ..) rfl)))

theorem execCtiEnable_touches : ∀ v s, Ends 4195908 s (execCtiEnable v s) := by
  intro v s
  unfold execCtiEnable
  exact Ends.next ((State.ctiCtrl_touches ..).mono rfl)

theorem execCtiDisable_touches : ∀ v s, Ends 4195908 s (execCtiDisable v s) := by
  intro v s
  unfold execCtiDisable
  exact Ends.next ((State.ctiCtrl_touches ..).mono rfl)

theorem State.doorbellBad_touches : ∀ s q, Touches 4195396 s (State.doorbellBad s q) := by
  intro s q
  unfold State.doorbellBad
  exact (((State.modQ_touches ..).mono rfl).step (State.raise_touches ..) rfl)

theorem execSqTail_touches : ∀ q v s, Ends 4195396 s (execSqTail q v s) := by
  intro q v s
  unfold execSqTail
  refine Ends.ite (fun _ => ?_) (fun _ => ?_)
  · exact Ends.next (Touches.refl _ _)
  · split
    · exact Ends.next ((State.doorbellBad_touches ..).mono rfl)
    · extract_lets +onlyGivenNames t1
      clear_value t1
      refine Ends.ite (fun _ => ?_) (fun _ => ?_)
      · exact Ends.next ((State.doorbellBad_touches ..).mono rfl)
      · exact Ends.next ((State.modQ_touches ..).mono rfl)

theorem execCqHead_touches : ∀ q v s, Ends 4195396 s (execCqHead q v s) := by
  intro q v s
  unfold execCqHead
  refine Ends.ite (fun _ => ?_) (fun _ => ?_)
  · exact Ends.next (Touches.refl _ _)
  · split
    · exact Ends.next ((State.doorbellBad_touches ..).mono rfl)
    · extract_lets +onlyGivenNames h n
      clear_value h n
      refine Ends.ite (fun _ => ?_) (fun _ => ?_)
      · exact Ends.next ((State.doorbellBad_touches ..).mono rfl)
      · exact Ends.next ((State.modQ_touches ..).mono rfl)

theorem State.abortRun_touches : ∀ s tag, Touches 4194308 s (State.abortRun s tag) := by
  intro s tag
  unfold State.abortRun
  split
  · exact Touches.refl _ _
  · split
    · exact Touches.refl _ _
    · extract_lets +onlyGivenNames s1
      have h_s1 : Touches 4194308 s s1 := by
        unfold s1
        split
        · exact Touches.refl _ _
        · split
          · exact Touches.refl _ _
          · extract_lets +onlyGivenNames u
            have h_u : Touches 4194308 s u := ((State.modCmd_touches ..).mono rfl)
            clear_value u
            exact (Touches.ite (fun _ => (h_u.step (State.ctiDone_touches ..) rfl)) (fun _ => h_u))
      clear_value s1
      split
      · exact (Touches.ite (fun _ => h_s1) (fun _ => (h_s1.step (State.ctiDone_touches ..) rfl)))
      · exact h_s1

theorem execCtiCommandFetch_touches : ∀ q ws segs err s, Ends 4195908 s (execCtiCommandFetch q ws segs err s) := by
  intro q ws segs err s
  unfold execCtiCommandFetch
  split
  · exact Ends.next (Touches.refl _ _)
  · extract_lets +onlyGivenNames used
    clear_value used
    refine Ends.ite (fun _ => ?_) (fun _ => ?_)
    · exact Ends.next (Touches.refl _ _)
    · extract_lets +onlyGivenNames tag
      clear_value tag
      extract_lets +onlyGivenNames s1
      have h_s1 : Touches 4195908 s s1 := (((State.memRead_touches ..).mono rfl).step (State.modQ_touches ..) rfl)
      clear_value s1
      refine Ends.ite (fun _ => ?_) (fun _ => ?_)
      · exact Ends.next (h_s1.step (State.ctiPost_touches ..) rfl)
      · refine Ends.ite (fun _ => ?_) (fun _ => ?_)
        · exact Ends.next ((h_s1.step (State.ctiPost_touches ..) rfl).step (State.raise_touches ..) rfl)
        · extract_lets +onlyGivenNames f st
          clear_value f st
          refine Ends.ite (fun _ => ?_) (fun _ => ?_)
          · exact Ends.next (h_s1.step (State.ctiPost_touches ..) rfl)
          · extract_lets +onlyGivenNames op k wait
            clear_value op k wait
            extract_lets +onlyGivenNames s2
            have h_s2 : Touches 4195908 s s2 := (h_s1.step (State.modQ_touches ..) rfl)
            clear_value s2
            extract_lets +onlyGivenNames s3
            have h_s3 : Touches 4195908 s s3 := (Touches.ite (fun _ => (State.nsChange_touches h_s2 rfl (fun _ h => (h.step (State.setProg_touches ..) rfl)))) (fun _ => (Touches.ite (fun _ => (State.nsChange_touches h_s2 rfl (fun _ h => (h.step (State.setProg_touches ..) rfl)))) (fun _ => (Touches.ite (fun _ => (h_s2.step (State.abortRun_touches ..) rfl)) (fun _ => h_s2))))))
            clear_value s3
            exact Ends.next h_s3

theorem State.ctiStart_touches : ∀ s q c kind data, Touches 4195908 s (State.ctiStart s q c kind data) := by
  intro s q c kind data
  unfold State.ctiStart
  extract_lets +onlyGivenNames s1
  have h_s1 : Touches 4195908 s s1 := ((State.modCmd_touches ..).mono rfl)
  clear_value s1
  exact ((h_s1.step (State.opStart_touches ..) rfl).step (State.storAfter_touches ..) rfl)

theorem execRead_touches : ∀ q tag s, Ends 4195908 s (execRead q tag s) := by
  intro q tag s
  unfold execRead
  split
  · exact Ends.next ((State.ctiStart_touches ..).mono rfl)
  · exact Ends.next (Touches.refl _ _)

theorem execWrite_touches : ∀ q tag data err s, Ends 4195908 s (execWrite q tag data err s) := by
  intro q tag data err s
  unfold execWrite
  split
  · refine Ends.ite (fun _ => ?_) (fun _ => ?_)
    · exact Ends.next ((((State.ctiDone_touches ..).mono rfl).step (State.raise_touches ..) rfl).step (State.storAfter_touches ..) rfl)
    · exact Ends.next ((State.ctiStart_touches ..).mono rfl)
  · exact Ends.next (Touches.refl _ _)

theorem execTrim_touches : ∀ q tag s, Ends 4195908 s (execTrim q tag s) := by
  intro q tag s
  unfold execTrim
  split
  · exact Ends.next ((State.ctiStart_touches ..).mono rfl)
  · exact Ends.next (Touches.refl _ _)

theorem execCtiFlush_touches : ∀ q tag s, Ends 4195908 s (execCtiFlush q tag s) := by
  intro q tag s
  unfold execCtiFlush
  split
  · refine Ends.ite (fun _ => ?_) (fun _ => ?_)
    · exact Ends.next (Touches.refl _ _)
    · exact Ends.next (((State.ctiDone_touches ..).mono rfl).step (State.storAfter_touches ..) rfl)
  · exact Ends.next (Touches.refl _ _)

theorem execIdentify_touches : ∀ tag s, Ends 4195908 s (execIdentify tag s) := by
  intro tag s
  unfold execIdentify
  split
  · extract_lets +onlyGivenNames data data1 data2
    clear_value data data1 data2
    exact Ends.next ((((State.hostPut_touches ..).mono rfl).step (State.ctiDone_touches ..) rfl).step (State.storAfter_touches ..) rfl)
  · exact Ends.next (Touches.refl _ _)

theorem execCreateQueue_touches : ∀ tag s, Ends 4195908 s (execCreateQueue tag s) := by
  intro tag s
  unfold execCreateQueue
  split
  · extract_lets +onlyGivenNames q
    clear_value q
    refine Ends.ite (fun _ => ?_) (fun _ => ?_)
    · exact Ends.next ((State.ctiDone_touches ..).mono rfl)
    · extract_lets +onlyGivenNames x
      clear_value x
      exact Ends.next ((((State.onStor_touches ..).mono rfl).step (State.ctiDone_touches ..) rfl).step (State.storAfter_touches ..) rfl)
  · exact Ends.next (Touches.refl _ _)

theorem execDeleteQueue_touches : ∀ tag s, Ends 4195908 s (execDeleteQueue tag s) := by
  intro tag s
  unfold execDeleteQueue
  split
  · extract_lets +onlyGivenNames q
    clear_value q
    split
    · exact Ends.next ((State.ctiDone_touches ..).mono rfl)
    · refine Ends.ite (fun _ => ?_) (fun _ => ?_)
      · exact Ends.next ((State.ctiDone_touches ..).mono rfl)
      · exact Ends.next ((((State.modCmd_touches ..).mono rfl).step (State.qDelete_touches ..) rfl).step (State.storAfter_touches ..) rfl)
  · exact Ends.next (Touches.refl _ _)

theorem execAbort_touches : ∀ tag s, Ends 4195908 s (execAbort tag s) := by
  intro tag s
  unfold execAbort
  refine Ends.ite (fun _ => ?_) (fun _ => ?_)
  · exact Ends.next (Touches.refl _ _)
  · exact Ends.next (((State.abortRun_touches ..).mono rfl).step (State.storAfter_touches ..) rfl)

theorem execGetLog_touches : ∀ tag s, Ends 4195908 s (execGetLog tag s) := by
  intro tag s
  unfold execGetLog
  split
  · extract_lets +onlyGivenNames data
    clear_value data
    extract_lets +onlyGivenNames s1
    have h_s1 : Touches 4195908 s s1 := ((State.hostPut_touches ..).mono rfl)
    clear_value s1
    extract_lets +onlyGivenNames s2
    have h_s2 : Touches 4195908 s s2 := (Touches.ite (fun _ => ((h_s1.step (State.onStor_touches ..) rfl).step (State.logCommit_touches ..) rfl)) (fun _ => h_s1))
    clear_value s2
    exact Ends.next ((h_s2.step (State.ctiDone_touches ..) rfl).step (State.storAfter_touches ..) rfl)
  · exact Ends.next (Touches.refl _ _)

theorem State.formatRun_touches : ∀ s tag op, Touches 4195908 s (State.formatRun s tag op) := by
  intro s tag op
  unfold State.formatRun
  split
  · exact Touches.refl _ _
  · extract_lets +onlyGivenNames k others
    clear_value k others
    refine (Touches.ite (fun _ => Touches.refl _ _) (fun _ => (Touches.ite (fun _ => (Touches.ite (fun _ => Touches.refl _ _) (fun _ => (((State.modCmd_touches ..).mono rfl).step (State.progCommit_touches ..) rfl)))) (fun _ => (Touches.ite (fun _ => Touches.refl _ _) (fun _ => ?_))))))
    extract_lets +onlyGivenNames n
    clear_value n
    extract_lets +onlyGivenNames s1
    have h_s1 : Touches 4195908 s s1 := (Touches.foldl (Touches.refl _ _) (fun _ _ h => (h.step (State.modDirty_touches ..) rfl)))
    clear_value s1
    extract_lets +onlyGivenNames s2
    have h_s2 : Touches 4195908 s s2 := (h_s1.step (State.modNs_touches ..) rfl)
    clear_value s2
    exact (((h_s2.step (State.partStart_touches ..) rfl).step (State.ctiDone_touches ..) rfl).step (State.storAfter_touches ..) rfl)

theorem execFormat_touches : ∀ tag s, Ends 4195908 s (execFormat tag s) := by
  intro tag s
  unfold execFormat
  exact Ends.next ((State.formatRun_touches ..).mono rfl)

theorem execSanitise_touches : ∀ tag s, Ends 4195908 s (execSanitise tag s) := by
  intro tag s
  unfold execSanitise
  exact Ends.next ((State.formatRun_touches ..).mono rfl)

theorem execCtiCompletionPost_touches : ∀ q s, Ends 4204100 s (execCtiCompletionPost q s) := by
  intro q s
  unfold execCtiCompletionPost
  split
  · exact Ends.next (Touches.refl _ _)
  · split
    · exact Ends.next (Touches.refl _ _)
    · refine Ends.ite (fun _ => ?_) (fun _ => ?_)
      · exact Ends.next (Touches.refl _ _)
      · extract_lets +onlyGivenNames deferred status bytes
        clear_value deferred status bytes
        extract_lets +onlyGivenNames s1
        have h_s1 : Touches 4204100 s s1 := ((State.hostWrite_touches ..).mono rfl)
        clear_value s1
        extract_lets +onlyGivenNames s2
        have h_s2 : Touches 4204100 s s2 := (Touches.ite (fun _ => (h_s1.step (State.modNs_touches ..) rfl)) (fun _ => h_s1))
        clear_value s2
        extract_lets +onlyGivenNames wraps n fire
        clear_value wraps n fire
        extract_lets +onlyGivenNames s3
        have h_s3 : Touches 4204100 s s3 := (h_s2.step (State.modQ_touches ..) rfl)
        clear_value s3
        exact Ends.next ((Touches.ite (fun _ => (h_s3.step (State.msixRaise_touches ..) rfl)) (fun _ => h_s3)).step (State.storAfter_touches ..) rfl)

theorem execCtiAggTimeout_touches : ∀ q s, Ends 4202496 s (execCtiAggTimeout q s) := by
  intro q s
  unfold execCtiAggTimeout
  split
  · exact Ends.next (Touches.refl _ _)
  · refine Ends.ite (fun _ => ?_) (fun _ => ?_)
    · exact Ends.next (Touches.refl _ _)
    · exact Ends.next (((State.modQ_touches ..).mono rfl).step (State.msixRaise_touches ..) rfl)

theorem execFunctionLevelReset_touches : ∀ s, Ends 4204100 s (execFunctionLevelReset s) := by
  intro s
  unfold execFunctionLevelReset
  extract_lets +onlyGivenNames s1
  have h_s1 : Touches 4204100 s s1 := (((State.setReg_touches ..).mono rfl).step (State.ctiDisable_touches ..) rfl)
  clear_value s1
  exact Ends.next (h_s1.step (State.onPlat_touches ..) rfl)

theorem State.ctiFenced_touches : ∀ s, Touches 4206151 s (State.ctiFenced s) := by
  intro s
  unfold State.ctiFenced
  extract_lets +onlyGivenNames s1
  have h_s1 : Touches 4206151 s s1 := ((State.onStor_touches ..).mono rfl)
  clear_value s1
  exact (Touches.foldl h_s1 (fun _ _ h => (h.step (State.recQuit_touches ..) rfl)))

theorem State.ctiReset_touches : ∀ s, Touches 4196352 s (State.ctiReset s) := by
  intro s
  unfold State.ctiReset
  extract_lets +onlyGivenNames s1
  have h_s1 : Touches 4196352 s s1 := (Touches.foldl (Touches.refl _ _) (fun _ _ h => (h.step (State.recEnd_touches ..) rfl)))
  clear_value s1
  exact (h_s1.step (State.onStor_touches ..) rfl)

theorem State.storPower_touches : ∀ s, Touches 37750784 s (State.storPower s) := by
  intro s
  unfold State.storPower
  extract_lets +onlyGivenNames s1
  have h_s1 : Touches 37750784 s s1 := (Touches.foldl (Touches.refl _ _) (fun _ _ h => (h.step (State.nvmeTear_touches ..) rfl)))
  clear_value s1
  extract_lets +onlyGivenNames bits
  clear_value bits
  exact ((h_s1.step (State.ctiReset_touches ..) rfl).step (State.onStor_touches ..) rfl)

end Sys2Proof.Machine
end

