-- ==== Sys2Proof/Laws/Touch/Eyespot.lean ====
section
/-!
SUPPORT. What each operation of Machine/Eyespot.lean may touch (see Laws/Touches.lean).
-/

-- One proof at a time bounds the threads and memory of a compile.
set_option Elab.async false

namespace Sys2Proof.Machine

open Sys2Proof

theorem execSafeClr_touches : ∀ m n v s, Ends 525380 s (execSafeClr m n v s) := by
  intro m n v s
  unfold execSafeClr
  exact Ends.next (State.regWrite_touches (Touches.refl _ _) rfl (fun _ h => (h.step (State.modHead_touches ..) rfl)))

theorem State.eyeSeen_touches : ∀ s n r pad ref, Touches 525380 s (State.eyeSeen s n r pad ref) := by
  intro s n r pad ref
  unfold State.eyeSeen
  extract_lets +onlyGivenNames p st
  clear_value p st
  extract_lets +onlyGivenNames s1
  have h_s1 : Touches 525380 s s1 := ((((State.setReg_touches ..).mono rfl).step (State.setReg_touches ..) rfl).step (State.count_touches ..) rfl)
  clear_value s1
  extract_lets +onlyGivenNames s2
  have h_s2 : Touches 525380 s s2 := (Touches.ite (fun _ => (h_s1.step (State.count_touches ..) rfl)) (fun _ => (h_s1.step (State.setFld_touches ..) rfl)))
  clear_value s2
  extract_lets +onlyGivenNames s3
  have h_s3 : Touches 525380 s s3 := (h_s2.step (State.modEye_touches ..) rfl)
  clear_value s3
  extract_lets +onlyGivenNames fz frozen
  clear_value fz frozen
  extract_lets +onlyGivenNames s4
  have h_s4 : Touches 525380 s s4 := ((h_s3.step (State.putBit_touches ..) rfl).step (State.putBit_touches ..) rfl)
  clear_value s4
  exact (Touches.ite (fun _ => ((h_s4.step (State.count_touches ..) rfl).step (State.raise_touches ..) rfl)) (fun _ => h_s4))

theorem execEyeRegionDecide_touches : ∀ n r s, Ends 525892 s (execEyeRegionDecide n r s) := by
  intro n r s
  unfold execEyeRegionDecide
  extract_lets +onlyGivenNames p e cfg
  clear_value p e cfg
  refine Ends.ite (fun _ => ?_) (fun _ => ?_)
  · exact Ends.next (Touches.refl _ _)
  · split
    · exact Ends.next (Touches.refl _ _)
    · extract_lets +onlyGivenNames st pad ref
      clear_value st pad ref
      extract_lets +onlyGivenNames s1
      have h_s1 : Touches 525892 s s1 := ((State.modEye_touches ..).mono rfl)
      clear_value s1
      extract_lets +onlyGivenNames s2
      have h_s2 : Touches 525892 s s2 := (Touches.ite (fun _ => (h_s1.step (State.eyeSeen_touches ..) rfl)) (fun _ => (((h_s1.step (State.count_touches ..) rfl).step (State.raise_touches ..) rfl).step (State.produce_touches ..) rfl)))
      clear_value s2
      extract_lets +onlyGivenNames want differs marked frozen fail
      clear_value want differs marked frozen fail
      extract_lets +onlyGivenNames s3
      have h_s3 : Touches 525892 s s3 := (((h_s2.step (State.putBit_touches ..) rfl).step (State.putBit_touches ..) rfl).step (State.putBit_touches ..) rfl)
      clear_value s3
      extract_lets +onlyGivenNames s4
      have h_s4 : Touches 525892 s s4 := (h_s3.step (State.setReg_touches ..) rfl)
      clear_value s4
      refine Ends.ite (fun _ => ?_) (fun _ => ?_)
      · exact Ends.next (h_s4.step (State.setFld_touches ..) rfl)
      · extract_lets +onlyGivenNames s5
        have h_s5 : Touches 525892 s s5 := (((h_s4.step (State.count_touches ..) rfl).step (State.count_touches ..) rfl).step (State.raise_touches ..) rfl)
        clear_value s5
        extract_lets +onlyGivenNames s6
        have h_s6 : Touches 525892 s s6 := (Touches.ite (fun _ => (h_s5.step (State.produce_touches ..) rfl)) (fun _ => h_s5))
        clear_value s6
        extract_lets +onlyGivenNames after
        clear_value after
        refine Ends.ite (fun _ => ?_) (fun _ => ?_)
        · exact Ends.next ((((((h_s6.step (State.putBit_touches ..) rfl).step (State.putBit_touches ..) rfl).step (State.modEye_touches ..) rfl).step (State.raise_touches ..) rfl).step (State.produce_touches ..) rfl).step (State.fnUpdate_touches ..) rfl)
        · exact Ends.next h_s6

theorem State.eyeReset_touches : ∀ s was n, Touches 524292 s (State.eyeReset s was n) := by
  intro s was n
  unfold State.eyeReset
  extract_lets +onlyGivenNames p
  clear_value p
  extract_lets +onlyGivenNames keep s1
  have h_s1 : Touches 524292 s s1 := by
    unfold s1
    refine (Touches.foldl (Touches.refl _ _) (fun _ _ h => ?_))
    exact (h.step (State.setReg_touches ..) rfl)
  clear_value s1
  refine (Touches.foldl h_s1 (fun _ _ h => ?_))
  extract_lets +onlyGivenNames old
  clear_value old
  exact (Touches.ite (fun _ => ((((h.step (State.setReg_touches ..) rfl).step (State.setReg_touches ..) rfl).step (State.putBit_touches ..) rfl).step (State.modEye_touches ..) rfl)) (fun _ => (h.step (State.modEye_touches ..) rfl)))

end Sys2Proof.Machine
end

