-- ==== Sys2Proof/Laws/Touch/Gates.lean ====
section
/-!
SUPPORT. What each operation of Machine/Gates.lean may touch (see Laws/Touches.lean).
-/

-- One proof at a time bounds the threads and memory of a compile.
set_option Elab.async false

namespace Sys2Proof.Machine

open Sys2Proof

theorem State.modMac_touches : ∀ s n f, Touches 2097152 s (State.modMac s n f) := by
  intro s n f
  unfold State.modMac
  exact ((State.onNet_touches ..).mono rfl)

theorem State.gateSeek_touches : ∀ s n, Touches 2097156 s (State.gateSeek s n) := by
  intro s n
  unfold State.gateSeek
  extract_lets +onlyGivenNames cyc
  clear_value cyc
  refine (Touches.ite (fun _ => Touches.refl _ _) (fun _ => ?_))
  extract_lets +onlyGivenNames p base len off e hold w
  clear_value p base len off e hold w
  exact (((State.modMac_touches ..).mono rfl).step (State.setReg_touches ..) rfl)

theorem State.gatesStepped_touches : ∀ s, Touches 2098244 s (State.gatesStepped s) := by
  intro s
  unfold State.gatesStepped
  exact (Touches.foldl (Touches.refl _ _) (fun _ _ h => (Touches.ite (fun _ => h) (fun _ => (((h.step (State.gateSeek_touches ..) rfl).step (State.count_touches ..) rfl).step (State.raise_touches ..) rfl)))))

end Sys2Proof.Machine
end

