-- ==== Sys2Proof/Laws/Touch/Network.lean ====
section
/-!
SUPPORT. What each operation of Machine/Network.lean may touch (see Laws/Touches.lean).
-/

-- One proof at a time bounds the threads and memory of a compile.
set_option Elab.async false

namespace Sys2Proof.Machine

open Sys2Proof

theorem execMacCfgWrite_touches : ∀ m n v s, Ends 1092 s (execMacCfgWrite m n v s) := by
  intro m n v s
  unfold execMacCfgWrite
  refine Ends.next (State.regWrite_touches (Touches.refl _ _) rfl (fun _ h => ?_))
  extract_lets +onlyGivenNames mask
  clear_value mask
  refine (Touches.ite (fun _ => h) (fun _ => (Touches.ite (fun _ => (h.step (State.stateWrite_touches ..) rfl)) (fun _ => ?_))))
  extract_lets +onlyGivenNames mode first lanes
  clear_value mode first lanes
  exact (Touches.ite (fun _ => (h.step (State.raise_touches ..) rfl)) (fun _ => ((h.step (State.setReg_touches ..) rfl).step (State.setFld_touches ..) rfl)))

theorem execMacLinkUp_touches : ∀ n speed s, Ends 516 s (execMacLinkUp n speed s) := by
  intro n speed s
  unfold execMacLinkUp
  refine Ends.ite (fun _ => ?_) (fun _ => ?_)
  · exact Ends.next (Touches.refl _ _)
  · extract_lets +onlyGivenNames p an first k
    clear_value p an first k
    extract_lets +onlyGivenNames carried s1
    have h_s1 : Touches 516 s s1 := (Touches.foldl (Touches.refl _ _) (fun _ _ h => (h.step (State.setReg_touches ..) rfl)))
    clear_value s1
    extract_lets +onlyGivenNames s2
    have h_s2 : Touches 516 s s2 := ((h_s1.step (State.putBit_touches ..) rfl).step (State.putBit_touches ..) rfl)
    clear_value s2
    extract_lets +onlyGivenNames s3
    have h_s3 : Touches 516 s s3 := (Touches.ite (fun _ => (h_s2.step (State.setFld_touches ..) rfl)) (fun _ => h_s2))
    clear_value s3
    extract_lets +onlyGivenNames s4
    have h_s4 : Touches 516 s s4 := (h_s3.step (State.setFld_touches ..) rfl)
    clear_value s4
    extract_lets +onlyGivenNames verify
    clear_value verify
    exact Ends.next ((h_s4.step (State.setFld_touches ..) rfl).step (State.produce_touches ..) rfl)

theorem State.macDown_touches : ∀ s n, Touches 1604 s (State.macDown s n) := by
  intro s n
  unfold State.macDown
  refine (Touches.ite (fun _ => Touches.refl _ _) (fun _ => ?_))
  extract_lets +onlyGivenNames p
  clear_value p
  exact ((((((State.putBit_touches ..).mono rfl).step (State.setFld_touches ..) rfl).step (State.count_touches ..) rfl).step (State.raise_touches ..) rfl).step (State.produce_touches ..) rfl)

theorem execMacLinkDown_touches : ∀ n pos s, Ends 1604 s (execMacLinkDown n pos s) := by
  intro n pos s
  unfold execMacLinkDown
  refine Ends.ite (fun _ => ?_) (fun _ => ?_)
  · exact Ends.next (Touches.refl _ _)
  · extract_lets +onlyGivenNames l
    clear_value l
    exact Ends.next ((((State.setFld_touches ..).mono rfl).step (State.putBit_touches ..) rfl).step (State.macDown_touches ..) rfl)

theorem execPreemptVerify_touches : ∀ n ok s, Ends 1092 s (execPreemptVerify n ok s) := by
  intro n ok s
  unfold execPreemptVerify
  refine Ends.ite (fun _ => ?_) (fun _ => ?_)
  · exact Ends.next (Touches.refl _ _)
  · refine Ends.ite (fun _ => ?_) (fun _ => ?_)
    · exact Ends.next ((State.setFld_touches ..).mono rfl)
    · exact Ends.next (((State.setFld_touches ..).mono rfl).step (State.raise_touches ..) rfl)

theorem State.creditStep_touches : ∀ s n, Touches 2097152 s (State.creditStep s n) := by
  intro s n
  unfold State.creditStep
  extract_lets +onlyGivenNames m dt
  clear_value m dt
  extract_lets +onlyGivenNames one
  exact ((State.modMac_touches ..).mono rfl)

theorem execCbsWrite_touches : ∀ m n i v s, Ends 2098244 s (execCbsWrite m n i v s) := by
  intro m n i v s
  unfold execCbsWrite
  refine Ends.next (State.regWrite_touches (Touches.refl _ _) rfl (fun _ h => ?_))
  extract_lets +onlyGivenNames o
  clear_value o
  extract_lets +onlyGivenNames slope twice
  clear_value twice
  exact (Touches.ite (fun _ => (h.step (State.raise_touches ..) rfl)) (fun _ => ((h.step (State.creditStep_touches ..) rfl).step (State.setReg_touches ..) rfl)))

theorem execGateEntryChange_touches : ∀ n s, Ends 2097156 s (execGateEntryChange n s) := by
  intro n s
  unfold execGateEntryChange
  refine Ends.ite (fun _ => ?_) (fun _ => ?_)
  · exact Ends.next (Touches.refl _ _)
  · exact Ends.next (((State.creditStep_touches ..).mono rfl).step (State.gateSeek_touches ..) rfl)

theorem execGateCommit_touches : ∀ m n v s, Ends 2098244 s (execGateCommit m n v s) := by
  intro m n v s
  unfold execGateCommit
  refine Ends.next (State.regWrite_touches (Touches.refl _ _) rfl (fun _ h => ?_))
  extract_lets +onlyGivenNames p o
  clear_value p o
  extract_lets +onlyGivenNames t1
  have h_t1 : Touches 2098244 s t1 := ((h.step (State.creditStep_touches ..) rfl).step (State.putBit_touches ..) rfl)
  clear_value t1
  refine (Touches.ite (fun _ => (h_t1.step (State.stateWrite_touches ..) rfl)) (fun _ => ?_))
  extract_lets +onlyGivenNames t2
  have h_t2 : Touches 2098244 s t2 := (h_t1.step (State.setFld_touches ..) rfl)
  clear_value t2
  extract_lets +onlyGivenNames len cyc
  clear_value len cyc
  refine (Touches.ite (fun _ => (h_t2.step (State.raise_touches ..) rfl)) (fun _ => ?_))
  extract_lets +onlyGivenNames base soon at_
  clear_value base soon at_
  exact ((h_t2.step (State.putBit_touches ..) rfl).step (State.modMac_touches ..) rfl)

theorem execGateConfigChange_touches : ∀ n s, Ends 2097668 s (execGateConfigChange n s) := by
  intro n s
  unfold execGateConfigChange
  split
  · exact Ends.next (Touches.refl _ _)
  · refine Ends.ite (fun _ => ?_) (fun _ => ?_)
    · exact Ends.next (Touches.refl _ _)
    · extract_lets +onlyGivenNames p len list
      clear_value p len list
      extract_lets +onlyGivenNames s1
      have h_s1 : Touches 2097668 s s1 := (((State.creditStep_touches ..).mono rfl).step (State.modMac_touches ..) rfl)
      clear_value s1
      extract_lets +onlyGivenNames s2
      have h_s2 : Touches 2097668 s s2 := ((h_s1.step (State.putBit_touches ..) rfl).step (State.setReg64_touches ..) rfl)
      clear_value s2
      extract_lets +onlyGivenNames s3
      have h_s3 : Touches 2097668 s s3 := (h_s2.step (State.setReg_touches ..) rfl)
      clear_value s3
      exact Ends.next (((h_s3.step (State.gateSeek_touches ..) rfl).step (State.count_touches ..) rfl).step (State.produce_touches ..) rfl)

theorem State.gclShow_touches : ∀ s k e, Touches 4 s (State.gclShow s k e) := by
  intro s k e
  unfold State.gclShow
  exact (((State.setReg_touches ..).mono rfl).step (State.setReg_touches ..) rfl)

theorem execGclReadAdmin_touches : ∀ m k s, Ends 1092 s (execGclReadAdmin m k s) := by
  intro m k s
  unfold execGclReadAdmin
  exact Ends.next (State.regWrite_touches (Touches.refl _ _) rfl (fun _ h => (h.step (State.gclShow_touches ..) rfl)))

theorem execGclWriteAdmin_touches : ∀ m k s, Ends 2098244 s (execGclWriteAdmin m k s) := by
  intro m k s
  unfold execGclWriteAdmin
  refine Ends.next (State.regWrite_touches (Touches.refl _ _) rfl (fun _ h => ?_))
  extract_lets +onlyGivenNames x
  clear_value x
  exact (Touches.ite (fun _ => (h.step (State.stateWrite_touches ..) rfl)) (fun _ => (h.step (State.modMac_touches ..) rfl)))

theorem execGclReadOper_touches : ∀ m k s, Ends 1092 s (execGclReadOper m k s) := by
  intro m k s
  unfold execGclReadOper
  exact Ends.next (State.regWrite_touches (Touches.refl _ _) rfl (fun _ h => (h.step (State.gclShow_touches ..) rfl)))

theorem State.modFlow_touches : ∀ s c f, Touches 2097152 s (State.modFlow s c f) := by
  intro s c f
  unfold State.modFlow
  exact ((State.onNet_touches ..).mono rfl)

theorem State.txOver_touches : ∀ s n f st ts, Touches 2097152 s (State.txOver s n f st ts) := by
  intro s n f st ts
  unfold State.txOver
  extract_lets +onlyGivenNames w
  clear_value w
  split
  · exact ((State.modMac_touches ..).mono rfl)
  · exact ((State.modMac_touches ..).mono rfl)

theorem State.txLoad_touches : ∀ s n c d, Touches 2098756 s (State.txLoad s n c d) := by
  intro s n c d
  unfold State.txLoad
  extract_lets +onlyGivenNames p len tmpl scx ctx size bad before ooo far
  clear_value p len tmpl scx ctx size bad before ooo far
  extract_lets +onlyGivenNames s1
  have h_s1 : Touches 2098756 s s1 := ((State.modMac_touches ..).mono rfl)
  clear_value s1
  extract_lets +onlyGivenNames put fl
  clear_value fl
  refine (Touches.ite (fun _ => ((h_s1.step (State.raise_touches ..) rfl).step (State.modMac_touches ..) rfl)) (fun _ => ?_))
  extract_lets +onlyGivenNames r
  have h_r : Touches 2098756 s r.2 := (h_s1.step (State.busRead_touches ..) rfl)
  clear_value r
  refine (Touches.ite (fun _ => ((h_r.step (State.raise_touches ..) rfl).step (State.modMac_touches ..) rfl)) (fun _ => (Touches.ite (fun _ => (h_r.step (State.modMac_touches ..) rfl)) (fun _ => ?_))))
  extract_lets +onlyGivenNames f bs
  clear_value f bs
  extract_lets +onlyGivenNames s2
  have h_s2 : Touches 2098756 s s2 := (h_r.step (State.modFlow_touches ..) rfl)
  clear_value s2
  refine (Touches.ite (fun _ => (h_s2.step (State.modMac_touches ..) rfl)) (fun _ => ?_))
  extract_lets +onlyGivenNames id b
  clear_value id b
  extract_lets +onlyGivenNames s3
  have h_s3 : Touches 2098756 s s3 := (h_s2.step (State.modMac_touches ..) rfl)
  clear_value s3
  extract_lets +onlyGivenNames copy
  clear_value copy
  extract_lets +onlyGivenNames s4
  have h_s4 : Touches 2098756 s s4 := (h_s3.step (State.modMac_touches ..) rfl)
  clear_value s4
  exact (h_s4.step (State.modMac_touches ..) rfl)

theorem State.txHeads_touches : ∀ s n x2, Touches 2108999 s (State.txHeads s n x2) := by
  intro s n x2
  induction x2 generalizing s n
  · unfold State.txHeads
    exact Touches.refl _ _
  · rename_i ih
    unfold State.txHeads
    refine (Touches.ite (fun _ => ((ih ..).mono rfl)) (fun _ => ?_))
    split
    · exact (((State.modMac_touches ..).mono rfl).step (ih ..) rfl)
    · extract_lets +onlyGivenNames q
      clear_value q
      refine (Touches.ite (fun _ => ((ih ..).mono rfl)) (fun _ => ?_))
      split
      · exact (((Touches.of_snd ((State.take_touches ..).mono rfl) ‹_›).step (State.txLoad_touches ..) rfl).step (ih ..) rfl)
      · exact ((Touches.of_snd ((State.take_touches ..).mono rfl) ‹_›).step (ih ..) rfl)

theorem State.txPop_touches : ∀ s n c, Touches 2097152 s (State.txPop s n c) := by
  intro s n c
  unfold State.txPop
  exact ((State.modMac_touches ..).mono rfl)

theorem State.stamp_touches : ∀ s n lat adj, Touches 33554432 s (State.stamp s n lat adj).2 := by
  intro s n lat adj
  unfold State.stamp
  change Touches2 33554432 s _
  extract_lets +onlyGivenNames r
  have h_r : Touches 33554432 s r.2 := ((State.drawNat_touches ..).mono rfl)
  clear_value r
  extract_lets +onlyGivenNames b e
  clear_value b e
  exact h_r

theorem State.txSend_touches : ∀ s n c f, Touches 35653188 s (State.txSend s n c f) := by
  intro s n c f
  unfold State.txSend
  extract_lets +onlyGivenNames p late
  clear_value p late
  extract_lets +onlyGivenNames s1
  have h_s1 : Touches 35653188 s s1 := (Touches.ite (fun _ => ((((State.count_touches ..).mono rfl).step (State.raise_touches ..) rfl).step (State.produce_touches ..) rfl)) (fun _ => Touches.refl _ _))
  clear_value s1
  extract_lets +onlyGivenNames t1
  have h_t1 : Touches 35653188 s t1.2 := (h_s1.step (State.stamp_touches ..) rfl)
  clear_value t1
  extract_lets +onlyGivenNames skip bytes fin g
  clear_value skip bytes fin g
  exact ((h_t1.step (State.txPop_touches ..) rfl).step (State.modMac_touches ..) rfl)

theorem State.macErr_touches : ∀ s n e, Touches 1092 s (State.macErr s n e).2 := by
  intro s n e
  unfold State.macErr
  change Touches2 1092 s _
  extract_lets +onlyGivenNames r
  have h_r : Touches 1092 s r.2 := ((State.takeErr_touches ..).mono rfl)
  clear_value r
  exact (h_r.step (State.eccCount_touches ..) rfl)

theorem State.txGo_touches : ∀ s n c f e, Touches 35653188 s (State.txGo s n c f e) := by
  intro s n c f e
  unfold State.txGo
  extract_lets +onlyGivenNames r
  have h_r : Touches 35653188 s r.2 := ((State.macErr_touches ..).mono rfl)
  clear_value r
  exact (Touches.ite (fun _ => (((h_r.step (State.raise_touches ..) rfl).step (State.txPop_touches ..) rfl).step (State.txOver_touches ..) rfl)) (fun _ => (h_r.step (State.txSend_touches ..) rfl)))

theorem execMacTxStart_touches : ∀ n e s, Ends 35663431 s (execMacTxStart n e s) := by
  intro n e s
  unfold execMacTxStart
  refine Ends.ite (fun _ => ?_) (fun _ => ?_)
  · exact Ends.next (Touches.refl _ _)
  · extract_lets +onlyGivenNames s1
    have h_s1 : Touches 35663431 s s1 := (((State.creditStep_touches ..).mono rfl).step (State.txHeads_touches ..) rfl)
    clear_value s1
    extract_lets +onlyGivenNames disp ready m
    clear_value m
    split
    · split
      · exact Ends.next h_s1
      · refine Ends.ite (fun _ => ?_) (fun _ => ?_)
        · exact Ends.next h_s1
        · extract_lets +onlyGivenNames v p
          clear_value v p
          extract_lets +onlyGivenNames s2
          have h_s2 : Touches 35663431 s s2 := (Touches.ite (fun _ => (((h_s1.step (State.count_touches ..) rfl).step (State.raise_touches ..) rfl).step (State.produce_touches ..) rfl)) (fun _ => (Touches.ite (fun _ => (h_s1.step (State.count_touches ..) rfl)) (fun _ => h_s1))))
          clear_value s2
          extract_lets +onlyGivenNames s3
          have h_s3 : Touches 35663431 s s3 := ((h_s2.step (State.txPop_touches ..) rfl).step (State.txOver_touches ..) rfl)
          clear_value s3
          exact Ends.next (Touches.ite (fun _ => (h_s3.step (State.modMac_touches ..) rfl)) (fun _ => h_s3))
    · refine Ends.ite (fun _ => ?_) (fun _ => ?_)
      · exact Ends.next h_s1
      · extract_lets +onlyGivenNames pick
        clear_value pick
        split
        · split
          · exact Ends.next (h_s1.step (State.txGo_touches ..) rfl)
          · exact Ends.next h_s1
        · refine Ends.ite (fun _ => ?_) (fun _ => ?_)
          · exact Ends.next h_s1
          · extract_lets +onlyGivenNames fin
            clear_value fin
            exact Ends.next (h_s1.step (State.modMac_touches ..) rfl)
        · exact Ends.next h_s1
    · extract_lets +onlyGivenNames all sent
      clear_value all sent
      refine Ends.ite (fun _ => ?_) (fun _ => ?_)
      · exact Ends.next h_s1
      · exact Ends.next ((h_s1.step (State.count_touches ..) rfl).step (State.modMac_touches ..) rfl)

theorem execMacTxComplete_touches : ∀ n s, Ends 2108999 s (execMacTxComplete n s) := by
  intro n s
  unfold execMacTxComplete
  extract_lets +onlyGivenNames s1
  have h_s1 : Touches 2108999 s s1 := by
    unfold s1
    split
    · exact (Touches.ite (fun _ => Touches.refl _ _) (fun _ => (((((State.creditStep_touches ..).mono rfl).step (State.modMac_touches ..) rfl).step (State.count_touches ..) rfl).step (State.txOver_touches ..) rfl)))
    · exact Touches.refl _ _
  clear_value s1
  split
  · exact Ends.next h_s1
  · extract_lets +onlyGivenNames s2
    have h_s2 : Touches 2108999 s s2 := (h_s1.step (State.modMac_touches ..) rfl)
    clear_value s2
    exact Ends.next (Touches.ite (fun _ => (h_s2.step (State.push_touches ..) rfl)) (fun _ => h_s2))

theorem State.macFenced_touches : ∀ s n, Touches 2108999 s (State.macFenced s n) := by
  intro s n
  unfold State.macFenced
  extract_lets +onlyGivenNames m fs q
  clear_value m fs q
  extract_lets +onlyGivenNames s1
  have h_s1 : Touches 2108999 s s1 := (Touches.foldl (Touches.refl _ _) (fun _ _ h => (h.step (State.txOver_touches ..) rfl)))
  clear_value s1
  extract_lets +onlyGivenNames s2
  have h_s2 : Touches 2108999 s s2 := (Touches.foldl h_s1 (fun _ _ h => (h.step (State.push_touches ..) rfl)))
  clear_value s2
  exact ((h_s2.step (State.modMac_touches ..) rfl).step (State.macDown_touches ..) rfl)

end Sys2Proof.Machine
end

