-- ==== Sys2Proof/Laws/Touch/Pairs.lean ====
section
/-!
SUPPORT. What each operation of Machine/Pairs.lean may touch (see Laws/Touches.lean).
-/

-- One proof at a time bounds the threads and memory of a compile.
set_option Elab.async false

namespace Sys2Proof.Machine

open Sys2Proof

theorem State.svcCommit_touches : ∀ s, Touches 1024 s (State.svcCommit s) := by
  intro s
  unfold State.svcCommit
  exact ((State.cocoonPut_touches ..).mono rfl)

theorem State.setPair_touches : ∀ s n st, Touches 1604 s (State.setPair s n st) := by
  intro s n st
  unfold State.setPair
  extract_lets +onlyGivenNames p old
  clear_value p old
  refine (Touches.ite (fun _ => Touches.refl _ _) (fun _ => ?_))
  extract_lets +onlyGivenNames s1
  have h_s1 : Touches 1604 s s1 := ((((State.setFld_touches ..).mono rfl).step (State.produce_touches ..) rfl).step (State.silk_touches ..) rfl)
  clear_value s1
  extract_lets +onlyGivenNames s2
  have h_s2 : Touches 1604 s s2 := (Touches.ite (fun _ => (h_s1.step (State.count_touches ..) rfl)) (fun _ => h_s1))
  clear_value s2
  extract_lets +onlyGivenNames si
  clear_value si
  extract_lets +onlyGivenNames s3
  have h_s3 : Touches 1604 s s3 := (Touches.ite (fun _ => (h_s2.step (State.raise_touches ..) rfl)) (fun _ => h_s2))
  clear_value s3
  exact (h_s3.step (State.svcCommit_touches ..) rfl)

theorem State.modPair_touches : ∀ s n f, Touches 1024 s (State.modPair s n f) := by
  intro s n f
  unfold State.modPair
  exact ((State.onDep_touches ..).mono rfl)

theorem State.pairFailed_touches : ∀ s n, Touches 1604 s (State.pairFailed s n) := by
  intro s n
  unfold State.pairFailed
  extract_lets +onlyGivenNames p
  clear_value p
  refine (Touches.ite (fun _ => Touches.refl _ _) (fun _ => ?_))
  extract_lets +onlyGivenNames k
  clear_value k
  extract_lets +onlyGivenNames s1
  have h_s1 : Touches 1604 s s1 := ((((State.setFld_touches ..).mono rfl).step (State.count_touches ..) rfl).step (State.setPair_touches ..) rfl)
  clear_value s1
  extract_lets +onlyGivenNames s2
  have h_s2 : Touches 1604 s s2 := ((h_s1.step (State.modPair_touches ..) rfl).step (State.raise_touches ..) rfl)
  clear_value s2
  exact (Touches.ite (fun _ => ((h_s2.step (State.setPair_touches ..) rfl).step (State.raise_touches ..) rfl)) (fun _ => h_s2))

theorem execActivate_touches : ∀ m n s, Ends 1604 s (execActivate m n s) := by
  intro m n s
  unfold execActivate
  exact Ends.next (State.regWrite_touches (Touches.refl _ _) rfl (fun _ h => (Touches.ite (fun _ => (h.step (State.setPair_touches ..) rfl)) (fun _ => (h.step (State.stateWrite_touches ..) rfl)))))

theorem execQuiesce_touches : ∀ m n s, Ends 1604 s (execQuiesce m n s) := by
  intro m n s
  unfold execQuiesce
  exact Ends.next (State.regWrite_touches (Touches.refl _ _) rfl (fun _ h => (Touches.ite (fun _ => (h.step (State.setPair_touches ..) rfl)) (fun _ => (h.step (State.stateWrite_touches ..) rfl)))))

theorem execSvcReset_touches : ∀ m n s, Ends 1604 s (execSvcReset m n s) := by
  intro m n s
  unfold execSvcReset
  refine Ends.next (State.regWrite_touches (Touches.refl _ _) rfl (fun _ h => ?_))
  extract_lets +onlyGivenNames st
  clear_value st
  exact (Touches.ite (fun _ => (h.step (State.stateWrite_touches ..) rfl)) (fun _ => (Touches.ite (fun _ => ((h.step (State.stateWrite_touches ..) rfl).step (State.raise_touches ..) rfl)) (fun _ => (((h.step (State.putBit_touches ..) rfl).step (State.modPair_touches ..) rfl).step (State.setPair_touches ..) rfl)))))

theorem execPairBistDone_touches : ∀ n pass s, Ends 1604 s (execPairBistDone n pass s) := by
  intro n pass s
  unfold execPairBistDone
  extract_lets +onlyGivenNames p
  clear_value p
  refine Ends.ite (fun _ => ?_) (fun _ => ?_)
  · exact Ends.next (Touches.refl _ _)
  · extract_lets +onlyGivenNames s1
    have h_s1 : Touches 1604 s s1 := (Touches.ite (fun _ => (((State.putBit_touches ..).mono rfl).step (State.setPair_touches ..) rfl)) (fun _ => Touches.refl _ _))
    clear_value s1
    refine Ends.ite (fun _ => ?_) (fun _ => ?_)
    · exact Ends.next ((h_s1.step (State.raise_touches ..) rfl).step (State.pairFailed_touches ..) rfl)
    · extract_lets +onlyGivenNames ok
      clear_value ok
      extract_lets +onlyGivenNames s2
      have h_s2 : Touches 1604 s s2 := ((h_s1.step (State.putBit_touches ..) rfl).step (State.modPair_touches ..) rfl)
      clear_value s2
      exact Ends.next ((Touches.ite (fun _ => h_s2) (fun _ => (h_s2.step (State.raise_touches ..) rfl))).step (State.setPair_touches ..) rfl)

theorem execLockstepMismatch_touches : ∀ n s, Ends 1604 s (execLockstepMismatch n s) := by
  intro n s
  unfold execLockstepMismatch
  refine Ends.ite (fun _ => ?_) (fun _ => ?_)
  · exact Ends.next (Touches.refl _ _)
  · extract_lets +onlyGivenNames s1
    have h_s1 : Touches 1604 s s1 := (((State.raise_touches ..).mono rfl).step (State.pairFailed_touches ..) rfl)
    clear_value s1
    exact Ends.next (((h_s1.step (State.fence_touches ..) rfl).step (State.onDep_touches ..) rfl).step (State.fnUpdate_touches ..) rfl)

theorem execLsTest_touches : ∀ m v missed s, Ends 1604 s (execLsTest m v missed s) := by
  intro m v missed s
  unfold execLsTest
  refine Ends.next (State.regWrite_touches (Touches.refl _ _) rfl (fun _ h => ?_))
  extract_lets +onlyGivenNames test bad old clear
  clear_value test bad old clear
  extract_lets +onlyGivenNames t1
  have h_t1 : Touches 1604 s t1 := (h.step (State.setReg_touches ..) rfl)
  clear_value t1
  exact (Touches.ite (fun _ => h_t1) (fun _ => (((h_t1.step (State.raise_touches ..) rfl).step (State.onDep_touches ..) rfl).step (State.fnUpdate_touches ..) rfl)))

end Sys2Proof.Machine
end

