-- ==== Sys2Proof/Laws/Touch/Pipes.lean ====
section
/-!
SUPPORT. What each operation of Machine/Pipes.lean may touch (see Laws/Touches.lean).
-/

-- One proof at a time bounds the threads and memory of a compile.
set_option Elab.async false

namespace Sys2Proof.Machine

open Sys2Proof

theorem State.ctxStat_touches : ∀ s n reason, Touches 1092 s (State.ctxStat s n reason) := by
  intro s n reason
  unfold State.ctxStat
  extract_lets +onlyGivenNames s1
  have h_s1 : Touches 1092 s s1 := ((State.cmdStart_touches ..).mono rfl)
  clear_value s1
  exact (Touches.ite (fun _ => (h_s1.step (State.setReg_touches ..) rfl)) (fun _ => ((h_s1.step (State.setReg_touches ..) rfl).step (State.raise_touches ..) rfl)))

theorem execCtxLoad_touches : ∀ m n s, Ends 1092 s (execCtxLoad m n s) := by
  intro m n s
  unfold execCtxLoad
  exact Ends.next (State.regWrite_touches (Touches.refl _ _) rfl (fun _ h => ((h.step (State.setRegs32_touches ..) rfl).step (State.ctxStat_touches ..) rfl)))

theorem execCtxStore_touches : ∀ m n s, Ends 66628 s (execCtxStore m n s) := by
  intro m n s
  unfold execCtxStore
  refine Ends.next (State.regWrite_touches (Touches.refl _ _) rfl (fun _ h => ?_))
  extract_lets +onlyGivenNames k w
  clear_value k w
  refine (Touches.ite (fun _ => (h.step (State.stateWrite_touches ..) rfl)) (fun _ => ?_))
  extract_lets +onlyGivenNames r
  clear_value r
  exact (Touches.ite (fun _ => (h.step (State.ctxStat_touches ..) rfl)) (fun _ => ((h.step (State.modPctx_touches ..) rfl).step (State.ctxStat_touches ..) rfl)))

theorem State.takeBands_touches : ∀ s k x2, TouchesOpt 77383 s (State.takeBands s k x2) := by
  intro s k x2
  induction x2 generalizing s k
  · unfold State.takeBands
    refine TouchesOpt.some (Touches.refl _ _)
  · rename_i ih
    unfold State.takeBands
    split
    · exact TouchesOpt.none _ _
    · exact TouchesOpt.step ((Touches.of_snd ((State.take_touches ..).mono rfl) ‹_›).step (State.modPctx_touches ..) rfl) (ih _ _) rfl

theorem State.armAll_touches : ∀ s x1, Touches 65536 s (State.armAll s x1) := by
  intro s x1
  induction x1 generalizing s
  · unfold State.armAll
    exact Touches.refl _ _
  · rename_i ih
    unfold State.armAll
    exact ((Touches.ite (fun _ => ((State.modPctx_touches ..).mono rfl)) (fun _ => Touches.refl _ _)).step (ih ..) rfl)

theorem execStart_touches : ∀ m n s, Ends 77383 s (execStart m n s) := by
  intro m n s
  unfold execStart
  refine Ends.next (State.regWrite_touches (Touches.refl _ _) rfl (fun _ h => ?_))
  extract_lets +onlyGivenNames k c
  clear_value k c
  refine (Touches.ite (fun _ => (h.step (State.stateWrite_touches ..) rfl)) (fun _ => (Touches.ite (fun _ => (h.step (State.ctxStat_touches ..) rfl)) (fun _ => (Touches.ite (fun _ => (h.step (State.ctxStat_touches ..) rfl)) (fun _ => ?_))))))
  split
  · exact (h.step (State.ctxStat_touches ..) rfl)
  · exact (((TouchesOpt.step h (State.takeBands_touches _ _ _) rfl _ ‹_›).step (State.armAll_touches ..) rfl).step (State.ctxStat_touches ..) rfl)

theorem State.psetApply_touches : ∀ s k dec, Touches 67140 s (State.psetApply s k dec).1 := by
  intro s k dec
  unfold State.psetApply
  change Touches1 67140 s _
  extract_lets +onlyGivenNames lead st
  clear_value lead st
  split
  · exact Touches.refl _ _
  · split
    · exact ((((Touches.of_snd ((State.psetRead_touches ..).mono rfl) ‹_›).step (State.raise_touches ..) rfl).step (State.count_touches ..) rfl).step (State.produce_touches ..) rfl)
    · extract_lets +onlyGivenNames late
      clear_value late
      extract_lets +onlyGivenNames s3
      have h_s3 : Touches 67140 s s3 := ((Touches.of_snd ((State.psetRead_touches ..).mono rfl) ‹_›).step (State.modPctx_touches ..) rfl)
      clear_value s3
      exact (Touches.ite (fun _ => (((h_s3.step (State.count_touches ..) rfl).step (State.raise_touches ..) rfl).step (State.produce_touches ..) rfl)) (fun _ => h_s3))

theorem State.startBranches_touches : ∀ s k x2, Touches 66628 s (State.startBranches s k x2) := by
  intro s k x2
  induction x2 generalizing s k
  · unfold State.startBranches
    exact Touches.refl _ _
  · rename_i ih
    unfold State.startBranches
    extract_lets +onlyGivenNames c lead r
    clear_value c lead r
    extract_lets +onlyGivenNames s1
    have h_s1 : Touches 66628 s s1 := (((State.modPframe_touches ..).mono rfl).step (State.modPctx_touches ..) rfl)
    clear_value s1
    exact ((Touches.ite (fun _ => (h_s1.step (State.raise_touches ..) rfl)) (fun _ => h_s1)).step (ih ..) rfl)

theorem State.frameEnter_touches : ∀ s k num flags noWork late desc, Touches 33621060 s (State.frameEnter s k num flags noWork late desc) := by
  intro s k num flags noWork late desc
  unfold State.frameEnter
  extract_lets +onlyGivenNames lead force none_ ps fl f
  clear_value lead force none_ ps fl f
  extract_lets +onlyGivenNames s1
  have h_s1 : Touches 33621060 s s1 := (((State.onFree_touches ..).mono rfl).step (State.modPctx_touches ..) rfl)
  clear_value s1
  extract_lets +onlyGivenNames s2
  have h_s2 : Touches 33621060 s s2 := (Touches.ite (fun _ => h_s1) (fun _ => (h_s1.step (State.startBranches_touches ..) rfl)))
  clear_value s2
  exact (h_s2.step (State.markElig_touches ..) rfl)

theorem State.safetyLut_touches : ∀ s k, Touches 65536 s (State.safetyLut s k) := by
  intro s k
  unfold State.safetyLut
  extract_lets +onlyGivenNames c p ps pin
  clear_value c p ps pin
  exact (Touches.ite (fun _ => Touches.refl _ _) (fun _ => (Touches.ite (fun _ => ((State.modPipe_touches ..).mono rfl)) (fun _ => ((State.modPipe_touches ..).mono rfl)))))

theorem State.enterAll_touches : ∀ s num flags noWork late desc x6, Touches 33621060 s (State.enterAll s num flags noWork late desc x6) := by
  intro s num flags noWork late desc x6
  induction x6 generalizing s num flags noWork late desc
  · unfold State.enterAll
    exact Touches.refl _ _
  · rename_i ih
    unfold State.enterAll
    exact ((((State.frameEnter_touches ..).mono rfl).step (State.safetyLut_touches ..) rfl).step (ih ..) rfl)

theorem execPipeFrameAccept_touches : ∀ n c s, Ends 33621572 s (execPipeFrameAccept n c s) := by
  intro n c s
  unfold execPipeFrameAccept
  extract_lets +onlyGivenNames k x
  clear_value k x
  refine Ends.ite (fun _ => ?_) (fun _ => ?_)
  · exact Ends.next (Touches.refl _ _)
  · split
    · extract_lets +onlyGivenNames live lost
      clear_value live lost
      extract_lets +onlyGivenNames s1
      have h_s1 : Touches 33621572 s s1 := (Touches.foldl (Touches.refl _ _) (fun _ _ h => (h.step (State.modPctx_touches ..) rfl)))
      clear_value s1
      extract_lets +onlyGivenNames a
      have h_a : Touches 33621572 s a.1 := (h_s1.step (State.psetApply_touches ..) rfl)
      clear_value a
      extract_lets +onlyGivenNames reject
      clear_value reject
      extract_lets +onlyGivenNames s2
      have h_s2 : Touches 33621572 s s2 := (Touches.ite (fun _ => (h_a.step (State.raise_touches ..) rfl)) (fun _ => h_a))
      clear_value s2
      extract_lets +onlyGivenNames s3
      have h_s3 : Touches 33621572 s s3 := (Touches.ite (fun _ => (h_s2.step (State.raise_touches ..) rfl)) (fun _ => h_s2))
      clear_value s3
      exact Ends.next (h_s3.step (State.enterAll_touches ..) rfl)
    · exact Ends.next (Touches.refl _ _)

theorem execPipeMemDescTake_touches : ∀ n c s, Ends 33631815 s (execPipeMemDescTake n c s) := by
  intro n c s
  unfold execPipeMemDescTake
  extract_lets +onlyGivenNames k x
  clear_value k x
  refine Ends.ite (fun _ => ?_) (fun _ => ?_)
  · exact Ends.next (Touches.refl _ _)
  · split
    · exact Ends.next (Touches.of_snd ((State.take_touches ..).mono rfl) ‹_›)
    · extract_lets +onlyGivenNames num live lost
      clear_value num live lost
      extract_lets +onlyGivenNames dec
      have h_dec : Touches 33631815 s dec.2 := ((Touches.of_snd ((State.take_touches ..).mono rfl) ‹_›).step (State.psetTake_touches ..) rfl)
      clear_value dec
      extract_lets +onlyGivenNames a0
      have h_a0 : Touches 33631815 s a0.1 := (h_dec.step (State.psetApply_touches ..) rfl)
      clear_value a0
      extract_lets +onlyGivenNames a1
      have h_a1 : Touches 33631815 s a1 := (h_a0.step (State.modPctx_touches ..) rfl)
      clear_value a1
      extract_lets +onlyGivenNames ps bad
      clear_value ps bad
      extract_lets +onlyGivenNames s2
      have h_s2 : Touches 33631815 s s2 := (Touches.ite (fun _ => (h_a1.step (State.raise_touches ..) rfl)) (fun _ => h_a1))
      clear_value s2
      exact Ends.next (h_s2.step (State.enterAll_touches ..) rfl)

theorem State.saveBytes_touches : ∀ s k page a n, Touches 33564231 s (State.saveBytes s k page a n) := by
  intro s k page a n
  unfold State.saveBytes
  refine (Touches.ite (fun _ => Touches.refl _ _) (fun _ => ?_))
  extract_lets +onlyGivenNames d
  have h_d : Touches 33564231 s d.2 := ((State.drawBytes_touches ..).mono rfl)
  clear_value d
  exact (h_d.step (State.busWrite_touches ..) rfl)

theorem State.saveHeld_touches : ∀ s k, Touches 33564231 s (State.saveHeld s k) := by
  intro s k
  unfold State.saveHeld
  extract_lets +onlyGivenNames h cfg
  clear_value h cfg
  exact (Touches.foldl ((State.saveBytes_touches ..).mono rfl) (fun _ _ h1 => (h1.step (State.saveBytes_touches ..) rfl)))

theorem State.replaced_touches : ∀ s k n, Touches 66628 s (State.replaced s k n) := by
  intro s k n
  unfold State.replaced
  exact (Touches.ite (fun _ => Touches.refl _ _) (fun _ => ((((State.modPframe_touches ..).mono rfl).step (State.count_touches ..) rfl).step (State.raise_touches ..) rfl)))

theorem State.restoreLines_touches : ∀ s k, Touches 67140 s (State.restoreLines s k) := by
  intro s k
  unfold State.restoreLines
  extract_lets +onlyGivenNames h
  clear_value h
  refine (Touches.ite (fun _ => Touches.refl _ _) (fun _ => ?_))
  extract_lets +onlyGivenNames e y a n
  clear_value e y a n
  extract_lets +onlyGivenNames r
  have h_r : Touches 67140 s r.2 := ((State.busRead_touches ..).mono rfl)
  clear_value r
  refine (Touches.ite (fun _ => h_r) (fun _ => ?_))
  extract_lets +onlyGivenNames marked bad
  clear_value marked bad
  exact (((h_r.step (State.modPframe_touches ..) rfl).step (State.replaced_touches ..) rfl).step (State.raise_touches ..) rfl)

theorem State.modBr_touches : ∀ s k b f, Touches 65536 s (State.modBr s k b f) := by
  intro s k b f
  unfold State.modBr
  exact ((State.modPframe_touches ..).mono rfl)

theorem State.restoreHeld_touches : ∀ s k, Touches 67140 s (State.restoreHeld s k) := by
  intro s k
  unfold State.restoreHeld
  refine (Touches.foldl ((State.restoreLines_touches ..).mono rfl) (fun _ _ h => ?_))
  extract_lets +onlyGivenNames n
  clear_value n
  refine (Touches.ite (fun _ => h) (fun _ => ?_))
  extract_lets +onlyGivenNames r
  have h_r : Touches 67140 s r.2 := (h.step (State.busRead_touches ..) rfl)
  clear_value r
  exact (Touches.ite (fun _ => ((h_r.step (State.modBr_touches ..) rfl).step (State.raise_touches ..) rfl)) (fun _ => h_r))

theorem execPipeContextSwitch_touches : ∀ n s, Ends 33629767 s (execPipeContextSwitch n s) := by
  intro n s
  unfold execPipeContextSwitch
  extract_lets +onlyGivenNames p
  clear_value p
  refine Ends.ite (fun _ => ?_) (fun _ => ?_)
  · exact Ends.next (Touches.refl _ _)
  · split
    · exact Ends.next (Touches.refl _ _)
    · refine Ends.ite (fun _ => ?_) (fun _ => ?_)
      · exact Ends.next ((State.modPipe_touches ..).mono rfl)
      · extract_lets +onlyGivenNames k out inn base
        clear_value k out inn base
        extract_lets +onlyGivenNames moved hist
        clear_value hist
        extract_lets +onlyGivenNames s1
        have h_s1 : Touches 33629767 s s1 := by
          unfold s1
          split
          · exact ((State.saveHeld_touches ..).mono rfl)
          · exact Touches.refl _ _
        clear_value s1
        extract_lets +onlyGivenNames s2
        have h_s2 : Touches 33629767 s s2 := ((h_s1.step (State.restoreHeld_touches ..) rfl).step (State.count_touches ..) rfl)
        clear_value s2
        exact Ends.next (h_s2.step (State.modPipe_touches ..) rfl)

theorem State.readTable_touches : ∀ s a n, Touches 1604 s (State.readTable s a n).2 := by
  intro s a n
  unfold State.readTable
  change Touches2 1604 s _
  extract_lets +onlyGivenNames r
  have h_r : Touches 1604 s r.2 := ((State.busRead_touches ..).mono rfl)
  clear_value r
  extract_lets +onlyGivenNames bad
  clear_value bad
  exact h_r

theorem State.readPlan_touches : ∀ s x1, Touches 1604 s (State.readPlan s x1).2 := by
  intro s x1
  induction x1 generalizing s
  · unfold State.readPlan
    change Touches2 1604 s _
    exact Touches.refl _ _
  · rename_i ih
    unfold State.readPlan
    change Touches2 1604 s _
    extract_lets +onlyGivenNames r
    have h_r' : Touches2 1604 s r := by
      unfold r
      split
      · exact Touches.refl _ _
      · exact ((State.readTable_touches ..).mono rfl)
    have h_r : Touches 1604 s r.2 := h_r'
    clear_value r
    extract_lets +onlyGivenNames t1
    have h_t1 : Touches 1604 s t1.2 := (h_r.step (ih ..) rfl)
    clear_value t1
    exact h_t1

theorem State.loadBank_touches : ∀ s n ps o, Touches 67140 s (State.loadBank s n ps o) := by
  intro s n ps o
  unfold State.loadBank
  split
  · exact Touches.refl _ _
  · refine (Touches.ite (fun _ => Touches.refl _ _) (fun _ => ?_))
    extract_lets +onlyGivenNames r
    have h_r : Touches 67140 s r.2 := ((State.readPlan_touches ..).mono rfl)
    clear_value r
    extract_lets +onlyGivenNames idle
    clear_value idle
    extract_lets +onlyGivenNames s1
    have h_s1 : Touches 67140 s s1 := (h_r.step (State.modPipe_touches ..) rfl)
    clear_value s1
    refine (Touches.ite (fun _ => h_s1) (fun _ => ?_))
    extract_lets +onlyGivenNames s2
    have h_s2 : Touches 67140 s s2 := (h_s1.step (State.raise_touches ..) rfl)
    clear_value s2
    exact (Touches.ite (fun _ => (h_s2.step (State.count_touches ..) rfl)) (fun _ => h_s2))

theorem execTableLoadDone_touches : ∀ n s, Ends 67140 s (execTableLoadDone n s) := by
  intro n s
  unfold execTableLoadDone
  split
  · refine Ends.ite (fun _ => ?_) (fun _ => ?_)
    · exact Ends.next (Touches.foldl (Touches.refl _ _) (fun _ _ h => (h.step (State.loadBank_touches ..) rfl)))
    · exact Ends.next (Touches.refl _ _)
  · exact Ends.next (Touches.refl _ _)

theorem State.loadLut_touches : ∀ s n i c, Touches 67140 s (State.loadLut s n i c) := by
  intro s n i c
  unfold State.loadLut
  extract_lets +onlyGivenNames x ps sz
  clear_value x ps sz
  extract_lets +onlyGivenNames r
  have h_r : Touches 67140 s r.2 := ((State.readTable_touches ..).mono rfl)
  clear_value r
  extract_lets +onlyGivenNames s1
  have h_s1 : Touches 67140 s s1 := ((h_r.step (State.modPipe_touches ..) rfl).step (State.count_touches ..) rfl)
  clear_value s1
  exact (Touches.ite (fun _ => h_s1) (fun _ => (h_s1.step (State.raise_touches ..) rfl)))

theorem execLutLoadDone_touches : ∀ n s, Ends 67140 s (execLutLoadDone n s) := by
  intro n s
  unfold execLutLoadDone
  refine Ends.ite (fun _ => ?_) (fun _ => ?_)
  · exact Ends.next (Touches.refl _ _)
  · split
    · exact Ends.next ((State.loadLut_touches ..).mono rfl)
    · exact Ends.next (Touches.refl _ _)

theorem execPipeRunStart_touches : ∀ n s, Ends 66628 s (execPipeRunStart n s) := by
  intro n s
  unfold execPipeRunStart
  split
  · exact Ends.next (Touches.refl _ _)
  · extract_lets +onlyGivenNames k x ps slot
    clear_value k x ps slot
    refine Ends.ite (fun _ => ?_) (fun _ => ?_)
    · exact Ends.next (Touches.refl _ _)
    · refine Ends.ite (fun _ => ?_) (fun _ => ?_)
      · extract_lets +onlyGivenNames s1
        have h_s1 : Touches 66628 s s1 := ((State.modPipe_touches ..).mono rfl)
        clear_value s1
        exact Ends.next (Touches.ite (fun _ => (h_s1.step (State.raise_touches ..) rfl)) (fun _ => h_s1))
      · extract_lets +onlyGivenNames lw wait
        clear_value lw wait
        extract_lets +onlyGivenNames s1
        have h_s1 : Touches 66628 s s1 := ((State.modPipe_touches ..).mono rfl)
        clear_value s1
        extract_lets +onlyGivenNames took
        clear_value took
        extract_lets +onlyGivenNames s2
        have h_s2 : Touches 66628 s s2 := ((h_s1.step (State.setReg_touches ..) rfl).step (State.setReg_touches ..) rfl)
        clear_value s2
        exact Ends.next ((h_s2.step (State.modPframe_touches ..) rfl).step (State.modPctx_touches ..) rfl)

theorem execSafetyLate_touches : ∀ n c s, Ends 67140 s (execSafetyLate n c s) := by
  intro n c s
  unfold execSafetyLate
  extract_lets +onlyGivenNames k x
  clear_value k x
  split
  · extract_lets +onlyGivenNames h out cycles bound
    clear_value h out cycles bound
    refine Ends.ite (fun _ => ?_) (fun _ => ?_)
    · exact Ends.next ((((State.modPframe_touches ..).mono rfl).step (State.raise_touches ..) rfl).step (State.produce_touches ..) rfl)
    · exact Ends.next (Touches.refl _ _)
  · exact Ends.next (Touches.refl _ _)

theorem State.memLine_touches : ∀ s cfg pack dt a left n, Touches 1604 s (State.memLine s cfg pack dt a left n).2 := by
  intro s cfg pack dt a left n
  unfold State.memLine
  change Touches2 1604 s _
  extract_lets +onlyGivenNames len
  clear_value len
  extract_lets +onlyGivenNames r
  have h_r : Touches 1604 s r.2 := ((State.busRead_touches ..).mono rfl)
  clear_value r
  extract_lets +onlyGivenNames bs
  clear_value bs
  extract_lets +onlyGivenNames at_ marks bad
  clear_value marks bad
  exact h_r

theorem State.takeRows_touches : ∀ s k, Touches 67140 s (State.takeRows s k) := by
  intro s k
  unfold State.takeRows
  extract_lets +onlyGivenNames c w
  clear_value c w
  split
  · exact Touches.refl _ _
  · split
    · extract_lets +onlyGivenNames r
      clear_value r
      exact ((State.modPctx_touches ..).mono rfl)
    · extract_lets +onlyGivenNames cols
      clear_value cols
      refine (Touches.foldl (Touches.refl _ _) (fun _ _ h => ?_))
      extract_lets +onlyGivenNames r
      have h_r : Touches 67140 s r.2 := (h.step (State.memLine_touches ..) rfl)
      clear_value r
      extract_lets +onlyGivenNames row
      clear_value row
      exact (h_r.step (State.modPframe_touches ..) rfl)

theorem State.compRow_touches : ∀ s k e, Touches 1604 s (State.compRow s k e).2 := by
  intro s k e
  unfold State.compRow
  change Touches2 1604 s _
  extract_lets +onlyGivenNames c w
  clear_value c w
  split
  · exact Touches.refl _ _
  · split
    · exact ((State.memLine_touches ..).mono rfl)
    · split
      · exact Touches.refl _ _
      · split
        · extract_lets +onlyGivenNames v
          clear_value v
          exact ((State.memLine_touches ..).mono rfl)
        · exact Touches.refl _ _

theorem State.takeComps_touches : ∀ s k, Touches 67140 s (State.takeComps s k) := by
  intro s k
  unfold State.takeComps
  extract_lets +onlyGivenNames e n w
  clear_value e n w
  extract_lets +onlyGivenNames s1
  have h_s1 : Touches 67140 s s1 := by
    unfold s1
    refine (Touches.ite (fun _ => Touches.refl _ _) (fun _ => (Touches.foldl (Touches.refl _ _) (fun _ _ h => ?_))))
    extract_lets +onlyGivenNames r
    have h_r : Touches 67140 s r.2 := (h.step (State.compRow_touches ..) rfl)
    clear_value r
    exact (h_r.step (State.modPframe_touches ..) rfl)
  clear_value s1
  extract_lets +onlyGivenNames missing
  clear_value missing
  exact (Touches.ite (fun _ => (((h_s1.step (State.modPframe_touches ..) rfl).step (State.raise_touches ..) rfl).step (State.count_touches ..) rfl)) (fun _ => h_s1))

theorem State.countInput_touches : ∀ s k y, Touches 66628 s (State.countInput s k y) := by
  intro s k y
  unfold State.countInput
  extract_lets +onlyGivenNames e cols ks all poison low high
  clear_value e cols ks all poison low high
  exact ((((State.count_touches ..).mono rfl).step (State.count_touches ..) rfl).step (State.replaced_touches ..) rfl)

theorem State.countRow_touches : ∀ s k e im r, Touches 65540 s (State.countRow s k e im r) := by
  intro s k e im r
  unfold State.countRow
  extract_lets +onlyGivenNames d stat dyn qs mot clip mtxOn ls sat neg lut
  clear_value d stat dyn qs mot clip mtxOn ls sat neg lut
  extract_lets +onlyGivenNames s1
  have h_s1 : Touches 65540 s s1 := ((State.modPframe_touches ..).mono rfl)
  clear_value s1
  extract_lets +onlyGivenNames c
  exact ((((((h_s1.step (State.count_touches ..) rfl).step (State.count_touches ..) rfl).step (State.count_touches ..) rfl).step (State.count_touches ..) rfl).step (State.count_touches ..) rfl).step (State.count_touches ..) rfl)

theorem State.brTake_touches : ∀ s k b, Touches 77383 s (State.brTake s k b) := by
  intro s k b
  unfold State.brTake
  extract_lets +onlyGivenNames lead d pg
  clear_value lead d pg
  refine (Touches.ite (fun _ => Touches.refl _ _) (fun _ => (Touches.ite (fun _ => ?_) (fun _ => ?_))))
  · extract_lets +onlyGivenNames r
    clear_value r
    exact ((State.modBr_touches ..).mono rfl)
  · split
    · exact (((((Touches.of_snd ((State.take_touches ..).mono rfl) ‹_›).step (State.modBr_touches ..) rfl).step (State.count_touches ..) rfl).step (State.raise_touches ..) rfl).step (State.produce_touches ..) rfl)
    · extract_lets +onlyGivenNames t1
      have h_t1 : Touches 77383 s t1 := ((Touches.of_snd ((State.take_touches ..).mono rfl) ‹_›).step (State.modBr_touches ..) rfl)
      clear_value t1
      exact (Touches.ite (fun _ => ((h_t1.step (State.modBr_touches ..) rfl).step (State.raise_touches ..) rfl)) (fun _ => h_t1))

theorem State.brWrites_touches : ∀ s k lead b x4, Touches 75335 s (State.brWrites s k lead b x4) := by
  intro s k lead b x4
  induction x4 generalizing s k lead b
  · unfold State.brWrites
    exact Touches.refl _ _
  · rename_i ih
    unfold State.brWrites
    extract_lets +onlyGivenNames d f base l
    clear_value d f base l
    extract_lets +onlyGivenNames s1
    have h_s1 : Touches 75335 s s1 := ((State.busWrite_touches ..).mono rfl)
    clear_value s1
    exact ((h_s1.step (State.modBr_touches ..) rfl).step (ih ..) rfl)

theorem State.brLine_touches : ∀ s k b j e g lost, Touches 77383 s (State.brLine s k b j e g lost) := by
  intro s k b j e g lost
  unfold State.brLine
  extract_lets +onlyGivenNames lead v
  clear_value lead v
  extract_lets +onlyGivenNames s0
  have h_s0 : Touches 77383 s s0 := ((State.brTake_touches ..).mono rfl)
  clear_value s0
  extract_lets +onlyGivenNames s1
  have h_s1 : Touches 77383 s s1 := (h_s0.step (State.modBr_touches ..) rfl)
  clear_value s1
  refine (Touches.ite (fun _ => h_s1) (fun _ => ?_))
  extract_lets +onlyGivenNames cols
  clear_value cols
  extract_lets +onlyGivenNames line px codes prev
  clear_value px codes prev
  extract_lets +onlyGivenNames mine clip gam
  clear_value clip gam
  extract_lets +onlyGivenNames s2
  have h_s2 : Touches 77383 s s2 := ((h_s1.step (State.count_touches ..) rfl).step (State.count_touches ..) rfl)
  clear_value s2
  extract_lets +onlyGivenNames s3
  have h_s3 : Touches 77383 s s3 := (Touches.ite (fun _ => h_s2) (fun _ => (h_s2.step (State.modBr_touches ..) rfl)))
  clear_value s3
  exact (h_s3.step (State.brWrites_touches ..) rfl)

theorem State.brLines_touches : ∀ s k b e g lost x6 x7, Touches 77383 s (State.brLines s k b e g lost x6 x7) := by
  intro s k b e g lost x6 x7
  induction x6 generalizing s k b e g lost x7
  · unfold State.brLines
    exact Touches.refl _ _
  · rename_i ih
    unfold State.brLines
    extract_lets +onlyGivenNames v
    clear_value v
    exact (Touches.ite (fun _ => (((State.brLine_touches ..).mono rfl).step (ih ..) rfl)) (fun _ => Touches.refl _ _))

theorem State.ctxEvent_touches : ∀ s k lo, Touches 512 s (State.ctxEvent s k lo) := by
  intro s k lo
  unfold State.ctxEvent
  extract_lets +onlyGivenNames w
  clear_value w
  exact ((State.produceOn_touches ..).mono rfl)

theorem State.runEnd_touches : ∀ s n k, Touches 65536 s (State.runEnd s n k) := by
  intro s n k
  unfold State.runEnd
  exact ((((State.modPipe_touches ..).mono rfl).step (State.modPctx_touches ..) rfl).step (State.markElig_touches ..) rfl)

theorem State.frameStart_touches : ∀ s k, Touches 67140 s (State.frameStart s k) := by
  intro s k
  unfold State.frameStart
  extract_lets +onlyGivenNames e
  clear_value e
  extract_lets +onlyGivenNames s1
  have h_s1 : Touches 67140 s s1 := (((State.modPframe_touches ..).mono rfl).step (State.ctxEvent_touches ..) rfl)
  clear_value s1
  extract_lets +onlyGivenNames s2
  have h_s2 : Touches 67140 s s2 := ((h_s1.step (State.setReg_touches ..) rfl).step (State.setReg_touches ..) rfl)
  clear_value s2
  exact (Touches.ite (fun _ => (h_s2.step (State.raise_touches ..) rfl)) (fun _ => h_s2))

theorem State.pipeLine_touches : ∀ s k lost, Touches 77383 s (State.pipeLine s k lost) := by
  intro s k lost
  unfold State.pipeLine
  extract_lets +onlyGivenNames y
  clear_value y
  extract_lets +onlyGivenNames s0
  have h_s0 : Touches 77383 s s0 := (Touches.ite (fun _ => ((State.frameStart_touches ..).mono rfl)) (fun _ => Touches.refl _ _))
  clear_value s0
  extract_lets +onlyGivenNames s1
  have h_s1 : Touches 77383 s s1 := (((h_s0.step (State.takeRows_touches ..) rfl).step (State.takeComps_touches ..) rfl).step (State.countInput_touches ..) rfl)
  clear_value s1
  extract_lets +onlyGivenNames e im from_ to_
  clear_value e im from_ to_
  extract_lets +onlyGivenNames s2
  have h_s2 : Touches 77383 s s2 := (Touches.foldl h_s1 (fun _ _ h => (h.step (State.countRow_touches ..) rfl)))
  clear_value s2
  extract_lets +onlyGivenNames s3
  have h_s3 : Touches 77383 s s3 := (h_s2.step (State.modPframe_touches ..) rfl)
  clear_value s3
  extract_lets +onlyGivenNames g
  clear_value g
  exact (Touches.foldl h_s3 (fun _ _ h => (h.step (State.brLines_touches ..) rfl)))

theorem State.sramErr_touches : ∀ s n k e, Touches 66628 s (State.sramErr s n k e) := by
  intro s n k e
  unfold State.sramErr
  extract_lets +onlyGivenNames pg off
  clear_value pg off
  refine (Touches.ite (fun _ => (Touches.ite (fun _ => ((State.raise_touches ..).mono rfl)) (fun _ => Touches.refl _ _))) (fun _ => (Touches.ite (fun _ => ((State.count_touches ..).mono rfl)) (fun _ => ?_))))
  extract_lets +onlyGivenNames s1
  have h_s1 : Touches 66628 s s1 := (((State.count_touches ..).mono rfl).step (State.raise_touches ..) rfl)
  clear_value s1
  refine (Touches.ite (fun _ => (h_s1.step (State.modBr_touches ..) rfl)) (fun _ => (Touches.ite (fun _ => (h_s1.step (State.modPipe_touches ..) rfl)) (fun _ => ?_))))
  extract_lets +onlyGivenNames v y
  clear_value v y
  exact (Touches.ite (fun _ => h_s1) (fun _ => (((h_s1.step (State.modPframe_touches ..) rfl).step (State.replaced_touches ..) rfl).step (State.raise_touches ..) rfl)))

theorem State.pipeInjected_touches : ∀ s n, Touches 64 s (State.pipeInjected s n).2 := by
  intro s n
  unfold State.pipeInjected
  change Touches2 64 s _
  extract_lets +onlyGivenNames ps
  clear_value ps
  exact (Touches.foldl (Touches.refl _ _) (fun _ _ h => (h.step (State.modPage_touches ..) rfl)))

theorem execPipeLine_touches : ∀ n errs s, Ends 77383 s (execPipeLine n errs s) := by
  intro n errs s
  unfold execPipeLine
  split
  · extract_lets +onlyGivenNames k
    clear_value k
    refine Ends.ite (fun _ => ?_) (fun _ => ?_)
    · extract_lets +onlyGivenNames j
      have h_j : Touches 77383 s j.2 := ((State.pipeInjected_touches ..).mono rfl)
      clear_value j
      extract_lets +onlyGivenNames all
      clear_value all
      extract_lets +onlyGivenNames s0
      have h_s0 : Touches 77383 s s0 := (Touches.foldl h_j (fun _ _ h => (h.step (State.sramErr_touches ..) rfl)))
      clear_value s0
      extract_lets +onlyGivenNames lost
      clear_value lost
      extract_lets +onlyGivenNames s1
      have h_s1 : Touches 77383 s s1 := ((h_s0.step (State.pipeLine_touches ..) rfl).step (State.modPipe_touches ..) rfl)
      clear_value s1
      exact Ends.next (Touches.ite (fun _ => (h_s1.step (State.runEnd_touches ..) rfl)) (fun _ => h_s1))
    · exact Ends.next (Touches.refl _ _)
  · exact Ends.next (Touches.refl _ _)

theorem State.brSettle_touches : ∀ s k b, Touches 66052 s (State.brSettle s k b) := by
  intro s k b
  unfold State.brSettle
  extract_lets +onlyGivenNames d pg
  clear_value d pg
  split
  · exact Touches.refl _ _
  · refine (Touches.ite (fun _ => Touches.refl _ _) (fun _ => ?_))
    extract_lets +onlyGivenNames s1
    have h_s1 : Touches 66052 s s1 := (((State.modBr_touches ..).mono rfl).step (State.count_touches ..) rfl)
    clear_value s1
    extract_lets +onlyGivenNames s2
    have h_s2 : Touches 66052 s s2 := (Touches.ite (fun _ => (h_s1.step (State.produce_touches ..) rfl)) (fun _ => h_s1))
    clear_value s2
    exact (h_s2.step (State.produceOn_touches ..) rfl)

theorem State.brComplete_touches : ∀ s k b extra, Touches 77383 s (State.brComplete s k b extra) := by
  intro s k b extra
  unfold State.brComplete
  extract_lets +onlyGivenNames c d pg
  clear_value c d pg
  split
  · exact Touches.refl _ _
  · extract_lets +onlyGivenNames x
    clear_value x
    refine (Touches.ite (fun _ => Touches.refl _ _) (fun _ => (Touches.ite (fun _ => ((State.brSettle_touches ..).mono rfl)) (fun _ => ?_))))
    extract_lets +onlyGivenNames all fl buf rec_ w
    clear_value all fl buf rec_ w
    extract_lets +onlyGivenNames s1
    have h_s1 : Touches 77383 s s1 := ((State.modBr_touches ..).mono rfl)
    clear_value s1
    exact ((Touches.ite (fun _ => h_s1) (fun _ => (h_s1.step (State.push_touches ..) rfl))).step (State.brSettle_touches ..) rfl)

theorem execBranchProgress_touches : ∀ n b c s, Ends 66048 s (execBranchProgress n b c s) := by
  intro n b c s
  unfold execBranchProgress
  extract_lets +onlyGivenNames k d x step
  clear_value k d x step
  refine Ends.ite (fun _ => ?_) (fun _ => ?_)
  · exact Ends.next (((State.modBr_touches ..).mono rfl).step (State.produceOn_touches ..) rfl)
  · exact Ends.next (Touches.refl _ _)

theorem execBranchComplete_touches : ∀ n b c s, Ends 77383 s (execBranchComplete n b c s) := by
  intro n b c s
  unfold execBranchComplete
  extract_lets +onlyGivenNames k x
  clear_value k x
  split
  · exact Ends.next (Touches.refl _ _)
  · refine Ends.ite (fun _ => ?_) (fun _ => ?_)
    · exact Ends.next (Touches.refl _ _)
    · refine Ends.ite (fun _ => ?_) (fun _ => ?_)
      · exact Ends.next (Touches.ite (fun _ => ((State.brComplete_touches ..).mono rfl)) (fun _ => ((State.modBr_touches ..).mono rfl)))
      · refine Ends.ite (fun _ => ?_) (fun _ => ?_)
        · exact Ends.next ((State.brComplete_touches ..).mono rfl)
        · exact Ends.next (Touches.refl _ _)

theorem State.endInput_touches : ∀ s k, Touches 65536 s (State.endInput s k) := by
  intro s k
  unfold State.endInput
  refine (Touches.foldl (Touches.refl _ _) (fun _ _ h => ?_))
  split
  · exact h
  · refine (Touches.ite (fun _ => h) (fun _ => ?_))
    split
    · extract_lets +onlyGivenNames m
      clear_value m
      exact (h.step (State.modPframe_touches ..) rfl)
    · refine (Touches.ite (fun _ => h) (fun _ => ?_))
      extract_lets +onlyGivenNames r
      clear_value r
      split
      · exact (h.step (State.modPctx_touches ..) rfl)
      · exact (h.step (State.modPctx_touches ..) rfl)

end Sys2Proof.Machine
end

