-- ==== Sys2Proof/Laws/Touch/PipeStats.lean ====
section
/-!
SUPPORT. What each operation of Machine/PipeStats.lean may touch (see Laws/Touches.lean).
-/

-- One proof at a time bounds the threads and memory of a compile.
set_option Elab.async false

namespace Sys2Proof.Machine

open Sys2Proof

theorem State.statsWrite_touches : ∀ s k, Touches 75335 s (State.statsWrite s k) := by
  intro s k
  unfold State.statsWrite
  extract_lets +onlyGivenNames pg c f b bytes at_
  clear_value pg c f b bytes at_
  extract_lets +onlyGivenNames s0
  have h_s0 : Touches 75335 s s0 := ((State.modPframe_touches ..).mono rfl)
  clear_value s0
  refine (Touches.ite (fun _ => Touches.refl _ _) (fun _ => (Touches.ite (fun _ => ((h_s0.step (State.raise_touches ..) rfl).step (State.count_touches ..) rfl)) (fun _ => ?_))))
  extract_lets +onlyGivenNames fl
  clear_value fl
  extract_lets +onlyGivenNames s1
  have h_s1 : Touches 75335 s s1 := ((h_s0.step (State.busWrite_touches ..) rfl).step (State.count_touches ..) rfl)
  clear_value s1
  extract_lets +onlyGivenNames s2
  have h_s2 : Touches 75335 s s2 := (Touches.ite (fun _ => (h_s1.step (State.count_touches ..) rfl)) (fun _ => h_s1))
  clear_value s2
  extract_lets +onlyGivenNames s3
  have h_s3 : Touches 75335 s s3 := (h_s2.step (State.modPctx_touches ..) rfl)
  clear_value s3
  extract_lets +onlyGivenNames s4
  have h_s4 : Touches 75335 s s4 := (Touches.ite (fun _ => (h_s3.step (State.produce_touches ..) rfl)) (fun _ => h_s3))
  clear_value s4
  extract_lets +onlyGivenNames s5
  have h_s5 : Touches 75335 s s5 := (Touches.ite (fun _ => ((h_s4.step (State.produceOn_touches ..) rfl).step (State.produce_touches ..) rfl)) (fun _ => h_s4))
  clear_value s5
  exact (Touches.ite (fun _ => ((h_s5.step (State.modPctx_touches ..) rfl).step (State.produce_touches ..) rfl)) (fun _ => h_s5))

theorem execStatsBlockDone_touches : ∀ n c s, Ends 75335 s (execStatsBlockDone n c s) := by
  intro n c s
  unfold execStatsBlockDone
  extract_lets +onlyGivenNames k
  clear_value k
  refine Ends.ite (fun _ => ?_) (fun _ => ?_)
  · exact Ends.next (Touches.refl _ _)
  · extract_lets +onlyGivenNames s1
    have h_s1 : Touches 75335 s s1 := ((State.endInput_touches ..).mono rfl)
    clear_value s1
    split
    · exact Ends.next h_s1
    · refine Ends.ite (fun _ => ?_) (fun _ => ?_)
      · exact Ends.next h_s1
      · exact Ends.next (h_s1.step (State.statsWrite_touches ..) rfl)

theorem State.bandsBack_touches : ∀ s k, Touches 77383 s (State.bandsBack s k) := by
  intro s k
  unfold State.bandsBack
  refine (Touches.foldl (Touches.refl _ _) (fun _ _ h => ?_))
  split
  · exact h
  · exact ((h.step (State.push_touches ..) rfl).step (State.modPctx_touches ..) rfl)

theorem State.ctxOff_touches : ∀ s k, Touches 77383 s (State.ctxOff s k) := by
  intro s k
  unfold State.ctxOff
  exact (((State.bandsBack_touches ..).mono rfl).step (State.modPctx_touches ..) rfl)

theorem State.leaveFrame_touches : ∀ s k, Touches 77383 s (State.leaveFrame s k) := by
  intro s k
  unfold State.leaveFrame
  exact (Touches.foldl (Touches.refl _ _) (fun _ _ h => (Touches.ite (fun _ => (Touches.ite (fun _ => (h.step (State.ctxOff_touches ..) rfl)) (fun _ => (h.step (State.modPctx_touches ..) rfl)))) (fun _ => h))))

theorem State.frameRecord_touches : ∀ s k, Touches 11847 s (State.frameRecord s k) := by
  intro s k
  unfold State.frameRecord
  extract_lets +onlyGivenNames c
  clear_value c
  split
  · exact Touches.refl _ _
  · extract_lets +onlyGivenNames f pg
    clear_value f pg
    refine (Touches.ite (fun _ => Touches.refl _ _) (fun _ => ?_))
    extract_lets +onlyGivenNames s1
    have h_s1 : Touches 11847 s s1 := ((State.busWrite_touches ..).mono rfl)
    clear_value s1
    extract_lets +onlyGivenNames s2
    have h_s2 : Touches 11847 s s2 := by
      unfold s2
      split
      · exact (h_s1.step (State.push_touches ..) rfl)
      · exact h_s1
    clear_value s2
    extract_lets +onlyGivenNames s3
    have h_s3 : Touches 11847 s s3 := ((h_s2.step (State.ctxEvent_touches ..) rfl).step (State.produce_touches ..) rfl)
    clear_value s3
    exact (Touches.ite (fun _ => (h_s3.step (State.produce_touches ..) rfl)) (fun _ => h_s3))

theorem execPipeFrameDone_touches : ∀ n c s, Ends 77383 s (execPipeFrameDone n c s) := by
  intro n c s
  unfold execPipeFrameDone
  extract_lets +onlyGivenNames k
  clear_value k
  split
  · exact Ends.next (Touches.refl _ _)
  · refine Ends.ite (fun _ => ?_) (fun _ => ?_)
    · exact Ends.next (((State.frameRecord_touches ..).mono rfl).step (State.leaveFrame_touches ..) rfl)
    · exact Ends.next (Touches.refl _ _)

theorem State.frameAbort_touches : ∀ s k, Touches 77383 s (State.frameAbort s k) := by
  intro s k
  unfold State.frameAbort
  split
  · exact Touches.refl _ _
  · extract_lets +onlyGivenNames s1
    have h_s1 : Touches 77383 s s1 := ((State.modPframe_touches ..).mono rfl)
    clear_value s1
    extract_lets +onlyGivenNames s2
    have h_s2 : Touches 77383 s s2 := (Touches.foldl h_s1 (fun _ _ h => (Touches.ite (fun _ => (h.step (State.modBr_touches ..) rfl)) (fun _ => (h.step (State.brComplete_touches ..) rfl)))))
    clear_value s2
    extract_lets +onlyGivenNames s3
    have h_s3 : Touches 77383 s s3 := (Touches.ite (fun _ => h_s2) (fun _ => (h_s2.step (State.statsWrite_touches ..) rfl)))
    clear_value s3
    exact (h_s3.step (State.frameRecord_touches ..) rfl)

theorem State.dropRun_touches : ∀ s k, Touches 65536 s (State.dropRun s k) := by
  intro s k
  unfold State.dropRun
  extract_lets +onlyGivenNames n p
  clear_value n p
  extract_lets +onlyGivenNames s1
  have h_s1 : Touches 65536 s s1 := (Touches.ite (fun _ => ((State.runEnd_touches ..).mono rfl)) (fun _ => Touches.refl _ _))
  clear_value s1
  exact (h_s1.step (State.modPipe_touches ..) rfl)

theorem State.stripeLost_touches : ∀ s k, Touches 66628 s (State.stripeLost s k) := by
  intro s k
  unfold State.stripeLost
  extract_lets +onlyGivenNames lead
  clear_value lead
  exact (Touches.ite (fun _ => Touches.refl _ _) (fun _ => (((State.modPframe_touches ..).mono rfl).step (State.raise_touches ..) rfl)))

theorem State.stopNow_touches : ∀ s k, Touches 77383 s (State.stopNow s k) := by
  intro s k
  unfold State.stopNow
  extract_lets +onlyGivenNames s1
  have h_s1 : Touches 77383 s s1 := (Touches.ite (fun _ => (Touches.ite (fun _ => ((State.stripeLost_touches ..).mono rfl)) (fun _ => Touches.refl _ _))) (fun _ => ((State.frameAbort_touches ..).mono rfl)))
  clear_value s1
  exact (Touches.foldl h_s1 (fun _ _ h => ((h.step (State.dropRun_touches ..) rfl).step (State.ctxOff_touches ..) rfl)))

theorem execCtxStop_touches : ∀ m n s, Ends 77383 s (execCtxStop m n s) := by
  intro m n s
  unfold execCtxStop
  refine Ends.next (State.regWrite_touches (Touches.refl _ _) rfl (fun _ h => ?_))
  extract_lets +onlyGivenNames k
  clear_value k
  split
  · exact (h.step (State.ctxStat_touches ..) rfl)
  · exact ((h.step (State.modPctx_touches ..) rfl).step (State.ctxStat_touches ..) rfl)
  · exact ((h.step (State.stopNow_touches ..) rfl).step (State.ctxStat_touches ..) rfl)

theorem execCtxStopNow_touches : ∀ m n s, Ends 77383 s (execCtxStopNow m n s) := by
  intro m n s
  unfold execCtxStopNow
  refine Ends.next (State.regWrite_touches (Touches.refl _ _) rfl (fun _ h => ?_))
  extract_lets +onlyGivenNames k
  clear_value k
  exact (Touches.ite (fun _ => (h.step (State.ctxStat_touches ..) rfl)) (fun _ => ((h.step (State.stopNow_touches ..) rfl).step (State.ctxStat_touches ..) rfl)))

theorem execSaveFault_touches : ∀ n c s, Ends 67140 s (execSaveFault n c s) := by
  intro n c s
  unfold execSaveFault
  extract_lets +onlyGivenNames k
  clear_value k
  refine Ends.ite (fun _ => ?_) (fun _ => ?_)
  · extract_lets +onlyGivenNames s1
    have h_s1 : Touches 67140 s s1 := (((State.dropRun_touches ..).mono rfl).step (State.modPctx_touches ..) rfl)
    clear_value s1
    exact Ends.next (((h_s1.step (State.stripeLost_touches ..) rfl).step (State.raise_touches ..) rfl).step (State.produce_touches ..) rfl)
  · exact Ends.next (Touches.refl _ _)

theorem State.pipeFenced_touches : ∀ s n, Touches 66628 s (State.pipeFenced s n) := by
  intro s n
  unfold State.pipeFenced
  extract_lets +onlyGivenNames s1
  have h_s1 : Touches 66628 s s1 := (Touches.foldl (Touches.refl _ _) (fun _ _ h => (Touches.ite (fun _ => (h.step (State.stripeLost_touches ..) rfl)) (fun _ => h))))
  clear_value s1
  extract_lets +onlyGivenNames s2
  have h_s2 : Touches 66628 s s2 := (Touches.foldl h_s1 (fun _ _ h => (Touches.ite (fun _ => (h.step (State.modPctx_touches ..) rfl)) (fun _ => (h.step (State.modPctx_touches ..) rfl)))))
  clear_value s2
  exact (h_s2.step (State.modPipe_touches ..) rfl)

theorem State.pipeReset_touches : ∀ s n, Touches 77383 s (State.pipeReset s n) := by
  intro s n
  unfold State.pipeReset
  refine ((Touches.foldl (Touches.refl _ _) (fun _ _ h => ?_)).step (State.modPipe_touches ..) rfl)
  extract_lets +onlyGivenNames k
  clear_value k
  exact ((h.step (State.bandsBack_touches ..) rfl).step (State.modPctx_touches ..) rfl)

theorem execPsetPush_touches : ∀ m n v s, Ends 66628 s (execPsetPush m n v s) := by
  intro m n v s
  unfold execPsetPush
  refine Ends.next (State.regWrite_touches (Touches.refl _ _) rfl (fun _ h => (Touches.ite (fun _ => h) (fun _ => ?_))))
  extract_lets +onlyGivenNames k c a r newest reason
  clear_value k c a r newest reason
  refine (Touches.ite (fun _ => ((h.step (State.modPctx_touches ..) rfl).step (State.raise_touches ..) rfl)) (fun _ => ?_))
  extract_lets +onlyGivenNames e
  clear_value e
  exact (h.step (State.modRing_touches ..) rfl)

theorem State.brStat_touches : ∀ s0 n b reason, Touches 1092 s0 (State.brStat s0 n b reason) := by
  intro s0 n b reason
  unfold State.brStat
  extract_lets +onlyGivenNames s
  have h_s : Touches 1092 s0 s := ((State.cmdStart_touches ..).mono rfl)
  clear_value s
  exact (Touches.ite (fun _ => (h_s.step (State.setReg_touches ..) rfl)) (fun _ => ((h_s.step (State.setReg_touches ..) rfl).step (State.raise_touches ..) rfl)))

theorem execBrLoad_touches : ∀ m n b s, Ends 1092 s (execBrLoad m n b s) := by
  intro m n b s
  unfold execBrLoad
  exact Ends.next (State.regWrite_touches (Touches.refl _ _) rfl (fun _ h => ((h.step (State.setRegs32_touches ..) rfl).step (State.brStat_touches ..) rfl)))

theorem execBrStore_touches : ∀ m n b s, Ends 66628 s (execBrStore m n b s) := by
  intro m n b s
  unfold execBrStore
  refine Ends.next (State.regWrite_touches (Touches.refl _ _) rfl (fun _ h => ?_))
  extract_lets +onlyGivenNames k d
  clear_value k d
  refine (Touches.ite (fun _ => (h.step (State.stateWrite_touches ..) rfl)) (fun _ => ?_))
  extract_lets +onlyGivenNames r
  clear_value r
  exact (Touches.ite (fun _ => (h.step (State.brStat_touches ..) rfl)) (fun _ => ((h.step (State.modPctx_touches ..) rfl).step (State.brStat_touches ..) rfl)))

theorem execTblDataRead_touches : ∀ m n o s, Ends 8389700 s (execTblDataRead m n o s) := by
  intro m n o s
  unfold execTblDataRead
  refine Ends.next (State.regRead_touches (Touches.refl _ _) rfl (fun _ h => ?_))
  change Touches2 8389700 s _
  extract_lets +onlyGivenNames i
  clear_value i
  exact (h.step (State.setFld_touches ..) rfl)

end Sys2Proof.Machine
end

