-- ==== Sys2Proof/Laws/Touch/Sensors.lean ====
section
/-!
SUPPORT. What each operation of Machine/Sensors.lean may touch (see Laws/Touches.lean).
-/

-- One proof at a time bounds the threads and memory of a compile.
set_option Elab.async false

namespace Sys2Proof.Machine

open Sys2Proof

theorem State.modPort_touches : ∀ s n f, Touches 32768 s (State.modPort s n f) := by
  intro s n f
  unfold State.modPort
  exact ((State.onCap_touches ..).mono rfl)

theorem State.modSource_touches : ∀ s l vc f, Touches 32768 s (State.modSource s l vc f) := by
  intro s l vc f
  unfold State.modSource
  refine (Touches.foldl (Touches.refl _ _) (fun _ _ h => ?_))
  extract_lets +onlyGivenNames w
  clear_value w
  exact (Touches.ite (fun _ => (h.step (State.modStream_touches ..) rfl)) (fun _ => h))

theorem State.sensDelimiter_touches : ∀ s n vc start it, Touches 33860 s (State.sensDelimiter s n vc start it) := by
  intro s n vc start it
  unfold State.sensDelimiter
  extract_lets +onlyGivenNames l
  clear_value l
  extract_lets +onlyGivenNames s1
  have h_s1 : Touches 33860 s s1 := (Touches.ite (fun _ => ((State.modPort_touches ..).mono rfl)) (fun _ => Touches.refl _ _))
  clear_value s1
  refine (Touches.ite (fun _ => ((h_s1.step (State.modPort_touches ..) rfl).step (State.capDeliver_touches ..) rfl)) (fun _ => ?_))
  split
  · exact (Touches.ite (fun _ => ((h_s1.step (State.raise_touches ..) rfl).step (State.modSource_touches ..) rfl)) (fun _ => h_s1))
  · exact h_s1

theorem State.sensSegment_touches : ∀ s n vc dt pix bad, Touches 32772 s (State.sensSegment s n vc dt pix bad) := by
  intro s n vc dt pix bad
  unfold State.sensSegment
  extract_lets +onlyGivenNames l w
  clear_value l w
  extract_lets +onlyGivenNames s1
  have h_s1 : Touches 32772 s s1 := (Touches.ite (fun _ => ((State.count_touches ..).mono rfl)) (fun _ => (Touches.ite (fun _ => ((State.count_touches ..).mono rfl)) (fun _ => Touches.refl _ _))))
  clear_value s1
  extract_lets +onlyGivenNames s2
  have h_s2 : Touches 32772 s s2 := (h_s1.step (State.modPort_touches ..) rfl)
  clear_value s2
  extract_lets +onlyGivenNames ms
  clear_value ms
  refine (Touches.ite (fun _ => ?_) (fun _ => h_s2))
  extract_lets +onlyGivenNames segs
  clear_value segs
  extract_lets +onlyGivenNames s3
  have h_s3 : Touches 32772 s s3 := (Touches.foldl h_s2 (fun _ _ h => (h.step (State.modPort_touches ..) rfl)))
  clear_value s3
  exact (h_s3.step (State.capDeliver_touches ..) rfl)

theorem State.sensPass_touches : ∀ s n vc dt data bad, Touches 34372 s (State.sensPass s n vc dt data bad) := by
  intro s n vc dt data bad
  unfold State.sensPass
  split
  · exact (((State.sensDelimiter_touches ..).mono rfl).step (State.produce_touches ..) rfl)
  · exact ((State.sensDelimiter_touches ..).mono rfl)
  · exact Touches.refl _ _
  · exact Touches.refl _ _
  · exact ((State.capDeliver_touches ..).mono rfl)
  · exact (Touches.ite (fun _ => ((State.capDeliver_touches ..).mono rfl)) (fun _ => ((State.sensSegment_touches ..).mono rfl)))

theorem State.sensBurst_touches : ∀ s n, Touches 34372 s (State.sensBurst s n) := by
  intro s n
  unfold State.sensBurst
  extract_lets +onlyGivenNames p early
  clear_value p early
  extract_lets +onlyGivenNames s1
  have h_s1 : Touches 34372 s s1 := ((State.modPort_touches ..).mono rfl)
  clear_value s1
  exact (Touches.ite (fun _ => ((h_s1.step (State.raise_touches ..) rfl).step (State.produce_touches ..) rfl)) (fun _ => h_s1))

theorem execCsi2Packet_touches : ∀ n vc dt hdr bad data s, Ends 34372 s (execCsi2Packet n vc dt hdr bad data s) := by
  intro n vc dt hdr bad data s
  unfold execCsi2Packet
  extract_lets +onlyGivenNames p
  clear_value p
  refine Ends.ite (fun _ => ?_) (fun _ => ?_)
  · exact Ends.next (Touches.refl _ _)
  · extract_lets +onlyGivenNames s0
    have h_s0 : Touches 34372 s s0 := (((State.countWrap_touches ..).mono rfl).step (State.sensBurst_touches ..) rfl)
    clear_value s0
    split
    · exact Ends.next (((h_s0.step (State.count_touches ..) rfl).step (State.raise_touches ..) rfl).step (State.produce_touches ..) rfl)
    · extract_lets +onlyGivenNames s1
      have h_s1 : Touches 34372 s s1 := by
        unfold s1
        split
        · exact ((h_s0.step (State.count_touches ..) rfl).step (State.modSource_touches ..) rfl)
        · exact h_s0
      clear_value s1
      refine Ends.ite (fun _ => ?_) (fun _ => ?_)
      · exact Ends.next ((h_s1.step (State.count_touches ..) rfl).step (State.raise_touches ..) rfl)
      · extract_lets +onlyGivenNames s2
        have h_s2 : Touches 34372 s s2 := (h_s1.step (State.putBit_touches ..) rfl)
        clear_value s2
        extract_lets +onlyGivenNames isBad
        clear_value isBad
        extract_lets +onlyGivenNames s3
        have h_s3 : Touches 34372 s s3 := (Touches.ite (fun _ => (((h_s2.step (State.count_touches ..) rfl).step (State.raise_touches ..) rfl).step (State.produce_touches ..) rfl)) (fun _ => h_s2))
        clear_value s3
        exact Ends.next (h_s3.step (State.sensPass_touches ..) rfl)

theorem execDeskewSequence_touches : ∀ n periodic s, Ends 32772 s (execDeskewSequence n periodic s) := by
  intro n periodic s
  unfold execDeskewSequence
  extract_lets +onlyGivenNames p
  clear_value p
  refine Ends.ite (fun _ => ?_) (fun _ => ?_)
  · exact Ends.next (Touches.refl _ _)
  · extract_lets +onlyGivenNames s1
    have h_s1 : Touches 32772 s s1 := (((State.putBit_touches ..).mono rfl).step (State.modPort_touches ..) rfl)
    clear_value s1
    exact Ends.next (Touches.ite (fun _ => (h_s1.step (State.putBit_touches ..) rfl)) (fun _ => h_s1))

theorem execI3cCmd_touches : ∀ m n v s, Ends 33860 s (execI3cCmd m n v s) := by
  intro m n v s
  unfold execI3cCmd
  exact Ends.next (State.regWrite_touches (Touches.refl _ _) rfl (fun _ h => (Touches.ite (fun _ => (h.step (State.stateWrite_touches ..) rfl)) (fun _ => ((h.step (State.modI3c_touches ..) rfl).step (State.i3cStart_touches ..) rfl)))))

theorem State.i3cFirmware_touches : ∀ s n v nack data, Touches 33860 s (State.i3cFirmware s n v nack data) := by
  intro s n v nack data
  unfold State.i3cFirmware
  extract_lets +onlyGivenNames p no len
  clear_value p no len
  extract_lets +onlyGivenNames s1
  have h_s1 : Touches 33860 s s1 := ((State.modI3c_touches ..).mono rfl)
  clear_value s1
  extract_lets +onlyGivenNames s2
  have h_s2 : Touches 33860 s s2 := ((h_s1.step (State.putBit_touches ..) rfl).step (State.putBit_touches ..) rfl)
  clear_value s2
  exact (Touches.ite (fun _ => ((h_s2.step (State.count_touches ..) rfl).step (State.raise_touches ..) rfl)) (fun _ => h_s2))

theorem State.i3cSequencer_touches : ∀ s n w nack, Touches 33860 s (State.i3cSequencer s n w nack) := by
  intro s n w nack
  unfold State.i3cSequencer
  extract_lets +onlyGivenNames p
  clear_value p
  extract_lets +onlyGivenNames s1
  have h_s1 : Touches 33860 s s1 := ((State.modStream_touches ..).mono rfl)
  clear_value s1
  exact (Touches.ite (fun _ => ((h_s1.step (State.count_touches ..) rfl).step (State.raise_touches ..) rfl)) (fun _ => h_s1))

theorem execI3cTransferDone_touches : ∀ n nack data s, Ends 33860 s (execI3cTransferDone n nack data s) := by
  intro n nack data s
  unfold execI3cTransferDone
  refine Ends.ite (fun _ => ?_) (fun _ => ?_)
  · exact Ends.next (Touches.refl _ _)
  · extract_lets +onlyGivenNames s1
    have h_s1 : Touches 33860 s s1 := ((State.modI3c_touches ..).mono rfl)
    clear_value s1
    split
    · exact Ends.next (Touches.refl _ _)
    · exact Ends.next ((h_s1.step (State.i3cFirmware_touches ..) rfl).step (State.i3cStart_touches ..) rfl)
    · exact Ends.next ((h_s1.step (State.i3cSequencer_touches ..) rfl).step (State.i3cStart_touches ..) rfl)

theorem execI3cIbi_touches : ∀ n addr mdb s, Ends 516 s (execI3cIbi n addr mdb s) := by
  intro n addr mdb s
  unfold execI3cIbi
  extract_lets +onlyGivenNames p
  clear_value p
  refine Ends.ite (fun _ => ?_) (fun _ => ?_)
  · exact Ends.next (Touches.refl _ _)
  · extract_lets +onlyGivenNames s1
    have h_s1 : Touches 516 s s1 := ((State.setReg_touches ..).mono rfl)
    clear_value s1
    exact Ends.next (((h_s1.step (State.count_touches ..) rfl).step (State.putBit_touches ..) rfl).step (State.produce_touches ..) rfl)

theorem State.modDpos_touches : ∀ s n p f, Touches 32768 s (State.modDpos s n p f) := by
  intro s n p f
  unfold State.modDpos
  exact ((State.onCap_touches ..).mono rfl)

theorem State.onLane_touches {K : Nat} {s u : State} {n p : Nat} {f : State → Nat → State} (h : Touches K s u)
    (_ : Nat.land 0 K = 0) (hf : ∀ t l, Touches K s t → Touches K s (f t l)) :
    Touches K s (State.onLane u n p f) := by
  unfold State.onLane
  split
  · exact hf _ _ h
  · exact h

theorem State.setDlkMap_touches : ∀ s n p v, Touches 4 s (State.setDlkMap s n p v) := by
  intro s n p v
  unfold State.setDlkMap
  exact (Touches.ite (fun _ => ((State.setFld_touches ..).mono rfl)) (fun _ => ((State.setFld_touches ..).mono rfl)))

theorem State.setDlkState_touches : ∀ s n v, Touches 516 s (State.setDlkState s n v) := by
  intro s n v
  unfold State.setDlkState
  exact (Touches.ite (fun _ => Touches.refl _ _) (fun _ => (((State.setFld_touches ..).mono rfl).step (State.produce_touches ..) rfl)))

theorem State.dlkPool_touches : ∀ s n, Touches 4 s (State.dlkPool s n) := by
  intro s n
  unfold State.dlkPool
  exact ((State.setFld_touches ..).mono rfl)

theorem State.ctrlCrc_touches : ∀ s n, Touches 1092 s (State.ctrlCrc s n) := by
  intro s n
  unfold State.ctrlCrc
  exact (((State.count_touches ..).mono rfl).step (State.raise_touches ..) rfl)

theorem State.dlkBreak_touches : ∀ s n, Touches 32768 s (State.dlkBreak s n) := by
  intro s n
  unfold State.dlkBreak
  exact (((State.capBreakAll_touches ..).mono rfl).step (State.modDlk_touches ..) rfl)

theorem State.dlkSend_touches : ∀ s n ms, Touches 32768 s (State.dlkSend s n ms) := by
  intro s n ms
  unfold State.dlkSend
  exact ((State.modDlk_touches ..).mono rfl)

theorem State.dlkSpare_touches : ∀ s n lane, Touches 34372 s (State.dlkSpare s n lane) := by
  intro s n lane
  unfold State.dlkSpare
  split
  · exact (((State.setDlkState_touches ..).mono rfl).step (State.raise_touches ..) rfl)
  · extract_lets +onlyGivenNames s1
    have h_s1 : Touches 34372 s s1 := (((State.setDlkState_touches ..).mono rfl).step (State.modDlk_touches ..) rfl)
    clear_value s1
    exact (h_s1.step (State.dlkSend_touches ..) rfl)

theorem State.dlkFail_touches : ∀ s n p, Touches 34372 s (State.dlkFail s n p) := by
  intro s n p
  unfold State.dlkFail
  extract_lets +onlyGivenNames pos spare
  clear_value pos spare
  refine (Touches.ite (fun _ => Touches.refl _ _) (fun _ => ?_))
  extract_lets +onlyGivenNames cnt retired s1
  have h_s1 : Touches 34372 s s1 := (State.onLane_touches (Touches.refl _ _) rfl (fun _ _ h => (((h.step (State.putBit_touches ..) rfl).step (State.setFld_touches ..) rfl).step (State.putBit_touches ..) rfl)))
  extract_lets +onlyGivenNames s2
  have h_s2 : Touches 34372 s s2 := ((h_s1.step (State.raise_touches ..) rfl).step (State.produce_touches ..) rfl)
  extract_lets +onlyGivenNames s3
  have h_s3 : Touches 34372 s s3 := by
    unfold s3
    split
    · extract_lets +onlyGivenNames t1
      have h_t1 : Touches 34372 s t1 := (h_s2.step (State.onDep_touches ..) rfl)
      clear_value t1
      exact (Touches.ite (fun _ => (h_t1.step (State.cocoonPut_touches ..) rfl)) (fun _ => h_t1))
    · exact h_s2
  extract_lets +onlyGivenNames lane waits
  clear_value lane waits
  extract_lets +onlyGivenNames s4
  have h_s4 : Touches 34372 s s4 := (Touches.ite (fun _ => (h_s3.step (State.modDpos_touches ..) rfl)) (fun _ => ((h_s3.step (State.setDlkMap_touches ..) rfl).step (State.modDpos_touches ..) rfl)))
  clear_value s4
  extract_lets +onlyGivenNames s5
  have h_s5 : Touches 34372 s s5 := (h_s4.step (State.dlkPool_touches ..) rfl)
  clear_value s5
  refine (Touches.ite (fun _ => h_s5) (fun _ => ?_))
  split
  · exact ((h_s5.step (State.dlkBreak_touches ..) rfl).step (State.dlkSpare_touches ..) rfl)
  · exact ((h_s5.step (State.dlkBreak_touches ..) rfl).step (State.dlkSpare_touches ..) rfl)
  · exact (h_s5.step (State.modDlk_touches ..) rfl)
  · exact h_s5

theorem State.dlkTryAlign_touches : ∀ s n, Touches 33284 s (State.dlkTryAlign s n) := by
  intro s n
  unfold State.dlkTryAlign
  extract_lets +onlyGivenNames act
  clear_value act
  refine (Touches.ite (fun _ => ?_) (fun _ => Touches.refl _ _))
  extract_lets +onlyGivenNames s1
  have h_s1 : Touches 33284 s s1 := (Touches.foldl (Touches.refl _ _) (fun _ _ h => (Touches.ite (fun _ => (h.step (State.modDpos_touches ..) rfl)) (fun _ => h))))
  clear_value s1
  exact ((h_s1.step (State.dlkPool_touches ..) rfl).step (State.setDlkState_touches ..) rfl)

theorem execDlkBlockLockAcquired_touches : ∀ n p s, Ends 33284 s (execDlkBlockLockAcquired n p s) := by
  intro n p s
  unfold execDlkBlockLockAcquired
  refine Ends.ite (fun _ => ?_) (fun _ => ?_)
  · exact Ends.next (Touches.refl _ _)
  · extract_lets +onlyGivenNames back
    clear_value back
    extract_lets +onlyGivenNames s1
    have h_s1 : Touches 33284 s s1 := (State.onLane_touches ((State.modDpos_touches ..).mono rfl) rfl (fun _ _ h => ((h.step (State.putBit_touches ..) rfl).step (State.putBit_touches ..) rfl)))
    clear_value s1
    exact Ends.next (h_s1.step (State.dlkTryAlign_touches ..) rfl)

theorem execDlkBlockLockLost_touches : ∀ n p hdrs full s, Ends 34372 s (execDlkBlockLockLost n p hdrs full s) := by
  intro n p hdrs full s
  unfold execDlkBlockLockLost
  refine Ends.ite (fun _ => ?_) (fun _ => ?_)
  · exact Ends.next (Touches.refl _ _)
  · extract_lets +onlyGivenNames lost
    clear_value lost
    extract_lets +onlyGivenNames s1
    have h_s1 : Touches 34372 s s1 := (State.onLane_touches (Touches.refl _ _) rfl (fun _ _ h => (h.step (State.count_touches ..) rfl)))
    clear_value s1
    extract_lets +onlyGivenNames s2
    have h_s2 : Touches 34372 s s2 := (Touches.ite (fun _ => (State.onLane_touches (h_s1.step (State.modDpos_touches ..) rfl) rfl (fun _ _ h => (h.step (State.putBit_touches ..) rfl)))) (fun _ => h_s1))
    clear_value s2
    exact Ends.next (Touches.ite (fun _ => (h_s2.step (State.dlkFail_touches ..) rfl)) (fun _ => h_s2))

theorem execDlkIdleBlock_touches : ∀ n p level s, Ends 4 s (execDlkIdleBlock n p level s) := by
  intro n p level s
  unfold execDlkIdleBlock
  refine Ends.ite (fun _ => ?_) (fun _ => ?_)
  · exact Ends.next (Touches.refl _ _)
  · exact Ends.next (State.onLane_touches (Touches.refl _ _) rfl (fun _ _ h => (Touches.ite (fun _ => ((h.step (State.setFld_touches ..) rfl).step (State.count_touches ..) rfl)) (fun _ => (h.step (State.setFld_touches ..) rfl)))))

theorem execDlkElasticUnderflow_touches : ∀ n p level s, Ends 33860 s (execDlkElasticUnderflow n p level s) := by
  intro n p level s
  unfold execDlkElasticUnderflow
  refine Ends.ite (fun _ => ?_) (fun _ => ?_)
  · exact Ends.next (Touches.refl _ _)
  · extract_lets +onlyGivenNames s1
    have h_s1 : Touches 33860 s s1 := (State.onLane_touches ((State.modDpos_touches ..).mono rfl) rfl (fun _ _ h => ((h.step (State.setFld_touches ..) rfl).step (State.count_touches ..) rfl)))
    clear_value s1
    exact Ends.next (Touches.ite (fun _ => (h_s1.step (State.raise_touches ..) rfl)) (fun _ => h_s1))

theorem State.dlkTakeMap_touches : ∀ s n, Touches 4 s (State.dlkTakeMap s n) := by
  intro s n
  unfold State.dlkTakeMap
  refine (Touches.foldl (Touches.refl _ _) (fun _ _ h => ?_))
  split
  · exact (h.step (State.setDlkMap_touches ..) rfl)
  · exact h

theorem State.dlkSkew_touches : ∀ s n ts, Touches 4 s (State.dlkSkew s n ts) := by
  intro s n ts
  unfold State.dlkSkew
  extract_lets +onlyGivenNames sk
  clear_value sk
  extract_lets +onlyGivenNames s1
  have h_s1 : Touches 4 s s1 := (Touches.ite (fun _ => ((State.setFld_touches ..).mono rfl)) (fun _ => Touches.refl _ _))
  clear_value s1
  refine (Touches.foldl h_s1 (fun _ _ h => ?_))
  split
  · exact (State.onLane_touches h rfl (fun _ _ h1 => (h1.step (State.setFld_touches ..) rfl)))
  · exact h

theorem State.dlkAligned_touches : ∀ s n nact, Touches 34372 s (State.dlkAligned s n nact) := by
  intro s n nact
  unfold State.dlkAligned
  split
  · exact Touches.refl _ _
  · extract_lets +onlyGivenNames s1
    have h_s1 : Touches 34372 s s1 := ((State.dlkSkew_touches ..).mono rfl)
    clear_value s1
    split
    · exact (Touches.ite (fun _ => h_s1) (fun _ => (Touches.ite (fun _ => (h_s1.step (State.raise_touches ..) rfl)) (fun _ => ((h_s1.step (State.dlkTakeMap_touches ..) rfl).step (State.setDlkState_touches ..) rfl)))))
    · exact (Touches.ite (fun _ => ((((h_s1.step (State.dlkBreak_touches ..) rfl).step (State.setDlkState_touches ..) rfl).step (State.count_touches ..) rfl).step (State.raise_touches ..) rfl)) (fun _ => h_s1))
    · exact h_s1

theorem State.dlkSwapDone_touches : ∀ s n q, Touches 34372 s (State.dlkSwapDone s n q) := by
  intro s n q
  unfold State.dlkSwapDone
  extract_lets +onlyGivenNames s1
  have h_s1 : Touches 34372 s s1 := ((State.modDpos_touches ..).mono rfl)
  clear_value s1
  split
  · exact Touches.refl _ _
  · refine (Touches.ite (fun _ => Touches.refl _ _) (fun _ => ?_))
    extract_lets +onlyGivenNames s2
    have h_s2 : Touches 34372 s s2 := (((h_s1.step (State.dlkTakeMap_touches ..) rfl).step (State.dlkPool_touches ..) rfl).step (State.count_touches ..) rfl)
    clear_value s2
    split
    · exact ((h_s2.step (State.modDlk_touches ..) rfl).step (State.setDlkState_touches ..) rfl)
    · exact ((h_s2.step (State.modDlk_touches ..) rfl).step (State.dlkSpare_touches ..) rfl)

theorem State.dlkControl_touches {K : Nat} {s u v : State} {n ty : Nat} {b : DlkBlock} (h : Touches K s u)
    (hk : Nat.land 1092 K = 1092) (hv : Touches K s v) : Touches K s (State.dlkControl u n ty b v) := by
  unfold State.dlkControl
  split
  · exact h
  split
  · exact h.step (State.ctrlCrc_touches ..) hk
  split
  · exact h
  · exact hv

theorem State.dlkMarker_touches : ∀ s n p seq logical nact blk bip, Touches 34372 s (State.dlkMarker s n p seq logical nact blk bip) := by
  intro s n p seq logical nact blk bip
  unfold State.dlkMarker
  extract_lets +onlyGivenNames st
  clear_value st
  extract_lets +onlyGivenNames s1
  have h_s1 : Touches 34372 s s1 := (State.onLane_touches ((State.setFld_touches ..).mono rfl) rfl (fun _ _ h => ((h.step (State.putBit_touches ..) rfl).step (State.count_touches ..) rfl)))
  clear_value s1
  extract_lets +onlyGivenNames s2
  have h_s2 : Touches 34372 s s2 := (h_s1.step (State.modDpos_touches ..) rfl)
  clear_value s2
  refine (Touches.ite (fun _ => (h_s2.step (State.dlkFail_touches ..) rfl)) (fun _ => ?_))
  split
  · split
    · exact (Touches.ite (fun _ => (h_s2.step (State.dlkSwapDone_touches ..) rfl)) (fun _ => h_s2))
    · exact h_s2
  · exact (h_s2.step (State.dlkAligned_touches ..) rfl)

theorem execDlkAlignBlock_touches : ∀ n p b blk bip s, Ends 34372 s (execDlkAlignBlock n p b blk bip s) := by
  intro n p b blk bip s
  unfold execDlkAlignBlock
  extract_lets +onlyGivenNames s1
  have h_s1 : Touches 34372 s s1 := (Touches.ite (fun _ => Touches.refl _ _) (fun _ => ((State.modDpos_touches ..).mono rfl)))
  clear_value s1
  exact Ends.next (State.dlkControl_touches h_s1 rfl (h_s1.step (State.dlkMarker_touches ..) rfl))

theorem execDlkMarkerTimeout_touches : ∀ n p s, Ends 34372 s (execDlkMarkerTimeout n p s) := by
  intro n p s
  unfold execDlkMarkerTimeout
  refine Ends.ite (fun _ => ?_) (fun _ => ?_)
  · exact Ends.next (Touches.refl _ _)
  · exact Ends.next ((State.onLane_touches ((State.modDpos_touches ..).mono rfl) rfl (fun _ _ h => (h.step (State.putBit_touches ..) rfl))).step (State.dlkFail_touches ..) rfl)

theorem execDlkSpareMapTimeout_touches : ∀ n s, Ends 34372 s (execDlkSpareMapTimeout n s) := by
  intro n s
  unfold execDlkSpareMapTimeout
  split
  · refine Ends.ite (fun _ => ?_) (fun _ => ?_)
    · exact Ends.next (Touches.refl _ _)
    · refine Ends.ite (fun _ => ?_) (fun _ => ?_)
      · exact Ends.next ((((State.modDlk_touches ..).mono rfl).step (State.setDlkState_touches ..) rfl).step (State.raise_touches ..) rfl)
      · exact Ends.next (((State.modDlk_touches ..).mono rfl).step (State.dlkSend_touches ..) rfl)
  · exact Ends.next (Touches.refl _ _)

theorem execLaneReturns_touches : ∀ n p s, Ends 32772 s (execLaneReturns n p s) := by
  intro n p s
  unfold execLaneReturns
  extract_lets +onlyGivenNames pos
  clear_value pos
  refine Ends.ite (fun _ => ?_) (fun _ => ?_)
  · extract_lets +onlyGivenNames s1
    have h_s1 : Touches 32772 s s1 := (State.onLane_touches ((State.modDpos_touches ..).mono rfl) rfl (fun _ _ h => (h.step (State.putBit_touches ..) rfl)))
    clear_value s1
    exact Ends.next (((h_s1.step (State.setDlkMap_touches ..) rfl).step (State.dlkPool_touches ..) rfl).step (State.count_touches ..) rfl)
  · exact Ends.next (Touches.refl _ _)

theorem execDlkFrameStart_touches : ∀ n b s, Ends 33860 s (execDlkFrameStart n b s) := by
  intro n b s
  unfold execDlkFrameStart
  extract_lets +onlyGivenNames vc
  clear_value vc
  extract_lets +onlyGivenNames s1
  have h_s1 : Touches 33860 s s1 := ((State.modDlk_touches ..).mono rfl)
  clear_value s1
  exact Ends.next (State.dlkControl_touches (Touches.refl _ _) rfl (Touches.ite (fun _ => (h_s1.step (State.capDeliver_touches ..) rfl)) (fun _ => Touches.refl _ _)))

theorem execDlkFrameEnd_touches : ∀ n b s, Ends 33860 s (execDlkFrameEnd n b s) := by
  intro n b s
  unfold execDlkFrameEnd
  extract_lets +onlyGivenNames vc
  clear_value vc
  exact Ends.next (State.dlkControl_touches (Touches.refl _ _) rfl (Touches.ite (fun _ => ((State.capDeliver_touches ..).mono rfl)) (fun _ => Touches.refl _ _)))

theorem State.seqAnswer_touches : ∀ s n q ok, Touches 32768 s (State.seqAnswer s n q ok) := by
  intro s n q ok
  unfold State.seqAnswer
  refine (Touches.foldl (Touches.refl _ _) (fun _ _ h => ?_))
  extract_lets +onlyGivenNames w
  clear_value w
  exact (Touches.ite (fun _ => (h.step (State.modStream_touches ..) rfl)) (fun _ => h))

theorem State.bcRx_touches : ∀ s n msg, Touches 33280 s (State.bcRx s n msg) := by
  intro s n msg
  unfold State.bcRx
  exact (((State.modDlk_touches ..).mono rfl).step (State.produce_touches ..) rfl)

theorem State.bcTake_touches : ∀ s n code seq payload, Touches 33284 s (State.bcTake s n code seq payload) := by
  intro s n code seq payload
  unfold State.bcTake
  refine (Touches.ite (fun _ => ?_) (fun _ => (Touches.ite (fun _ => ?_) (fun _ => (Touches.ite (fun _ => ((State.bcRx_touches ..).mono rfl)) (fun _ => Touches.refl _ _))))))
  · extract_lets +onlyGivenNames s1
    have h_s1 : Touches 33284 s s1 := ((State.modDlk_touches ..).mono rfl)
    clear_value s1
    exact (Touches.ite (fun _ => (h_s1.step (State.seqAnswer_touches ..) rfl)) (fun _ => (h_s1.step (State.bcRx_touches ..) rfl)))
  · extract_lets +onlyGivenNames s1
    have h_s1 : Touches 33284 s s1 := by
      unfold s1
      split
      · extract_lets +onlyGivenNames rtt
        clear_value rtt
        exact ((((State.setReg_touches ..).mono rfl).step (State.modDlk_touches ..) rfl).step (State.dlkSend_touches ..) rfl)
      · exact Touches.refl _ _
    clear_value s1
    exact (h_s1.step (State.bcRx_touches ..) rfl)

theorem State.bcBlock_touches : ∀ s n b, Touches 33284 s (State.bcBlock s n b) := by
  intro s n b
  unfold State.bcBlock
  exact ((State.bcTake_touches ..).mono rfl)

theorem execBcmsg_touches : ∀ n b s, Ends 34372 s (execBcmsg n b s) := by
  intro n b s
  unfold execBcmsg
  exact Ends.next (State.dlkControl_touches (Touches.refl _ _) rfl (Touches.ite (fun _ => ((State.bcBlock_touches ..).mono rfl)) (fun _ => Touches.refl _ _)))

theorem State.dlkDeliver_touches : ∀ s n vc emb bytes bad, Touches 32768 s (State.dlkDeliver s n vc emb bytes bad) := by
  intro s n vc emb bytes bad
  unfold State.dlkDeliver
  extract_lets +onlyGivenNames dt
  clear_value dt
  exact (Touches.ite (fun _ => Touches.refl _ _) (fun _ => (Touches.ite (fun _ => ((State.capDeliver_touches ..).mono rfl)) (fun _ => ((State.capDeliver_touches ..).mono rfl)))))

theorem execDlkLine_touches : ∀ n k emb lanes s, Ends 34372 s (execDlkLine n k emb lanes s) := by
  intro n k emb lanes s
  unfold execDlkLine
  refine Ends.ite (fun _ => ?_) (fun _ => ?_)
  · exact Ends.next (Touches.refl _ _)
  · extract_lets +onlyGivenNames bs
    clear_value bs
    extract_lets +onlyGivenNames s1
    have h_s1 : Touches 34372 s s1 := (Touches.foldl (Touches.refl _ _) (fun _ _ h => (h.step (State.ctrlCrc_touches ..) rfl)))
    clear_value s1
    refine Ends.ite (fun _ => ?_) (fun _ => ?_)
    · exact Ends.next h_s1
    · extract_lets +onlyGivenNames s2
      have h_s2 : Touches 34372 s s2 := (Touches.foldl h_s1 (fun _ _ h => (h.step (State.bcBlock_touches ..) rfl)))
      clear_value s2
      split
      · exact Ends.next (h_s2.step (State.dlkDeliver_touches ..) rfl)
      · exact Ends.next h_s2

theorem execDlkTimeSend_touches : ∀ n s, Ends 32768 s (execDlkTimeSend n s) := by
  intro n s
  unfold execDlkTimeSend
  extract_lets +onlyGivenNames ms
  clear_value ms
  refine Ends.ite (fun _ => ?_) (fun _ => ?_)
  · exact Ends.next (Touches.refl _ _)
  · exact Ends.next (((State.modDlk_touches ..).mono rfl).step (State.dlkSend_touches ..) rfl)

theorem execPing_touches : ∀ n s, Ends 32768 s (execPing n s) := by
  intro n s
  unfold execPing
  refine Ends.ite (fun _ => ?_) (fun _ => ?_)
  · exact Ends.next (Touches.refl _ _)
  · exact Ends.next (((State.modDlk_touches ..).mono rfl).step (State.dlkSend_touches ..) rfl)

theorem execTrigger_touches : ∀ n k s, Ends 33280 s (execTrigger n k s) := by
  intro n k s
  unfold execTrigger
  refine Ends.ite (fun _ => ?_) (fun _ => ?_)
  · exact Ends.next (Touches.refl _ _)
  · extract_lets +onlyGivenNames s1
    have h_s1 : Touches 33280 s s1 := ((State.setBusy_touches ..).mono rfl)
    clear_value s1
    exact Ends.next (Touches.ite (fun _ => (h_s1.step (State.dlkSend_touches ..) rfl)) (fun _ => h_s1))

theorem execBcTxGo_touches : ∀ m n v s, Ends 33860 s (execBcTxGo m n v s) := by
  intro m n v s
  unfold execBcTxGo
  exact Ends.next (State.regWrite_touches (Touches.refl _ _) rfl (fun _ h => (Touches.ite (fun _ => h) (fun _ => (Touches.ite (fun _ => (h.step (State.raise_touches ..) rfl)) (fun _ => (h.step (State.modDlk_touches ..) rfl)))))))

theorem State.dlkRows_touches : ∀ s, Touches 32768 s (State.dlkRows s) := by
  intro s
  unfold State.dlkRows
  exact (Touches.foldl (Touches.refl _ _) (fun _ _ h => (Touches.ite (fun _ => h) (fun _ => (h.step (State.modDlk_touches ..) rfl)))))

theorem State.dlkDrain_touches : ∀ s0, Touches 32768 s0 (State.dlkDrain s0) := by
  intro s0
  unfold State.dlkDrain
  extract_lets +onlyGivenNames s
  have h_s : Touches 32768 s0 s := ((State.dlkRows_touches ..).mono rfl)
  clear_value s
  refine (Touches.foldl h_s (fun _ _ h => ?_))
  split
  · exact h
  · refine (Touches.ite (fun _ => h) (fun _ => ?_))
    extract_lets +onlyGivenNames t1
    have h_t1 : Touches 32768 s0 t1 := ((h.step (State.modDlk_touches ..) rfl).step (State.dlkSend_touches ..) rfl)
    clear_value t1
    exact (Touches.ite (fun _ => (h_t1.step (State.modDlk_touches ..) rfl)) (fun _ => h_t1))

theorem execBcTimeout_touches : ∀ n seq s, Ends 33860 s (execBcTimeout n seq s) := by
  intro n seq s
  unfold execBcTimeout
  split
  · exact Ends.next (Touches.refl _ _)
  · refine Ends.ite (fun _ => ?_) (fun _ => ?_)
    · exact Ends.next (Touches.refl _ _)
    · extract_lets +onlyGivenNames s1
      have h_s1 : Touches 33860 s s1 := ((State.modDlk_touches ..).mono rfl)
      clear_value s1
      refine Ends.ite (fun _ => ?_) (fun _ => ?_)
      · extract_lets +onlyGivenNames s2
        have h_s2 : Touches 33860 s s2 := (h_s1.step (State.raise_touches ..) rfl)
        clear_value s2
        exact Ends.next (Touches.ite (fun _ => (h_s2.step (State.seqAnswer_touches ..) rfl)) (fun _ => h_s2))
      · exact Ends.next ((h_s1.step (State.modDlk_touches ..) rfl).step (State.dlkSend_touches ..) rfl)

theorem State.dlkOff_touches : ∀ s n, Touches 33284 s (State.dlkOff s n) := by
  intro s n
  unfold State.dlkOff
  extract_lets +onlyGivenNames s1
  have h_s1 : Touches 33284 s s1 := (((State.capBreakAll_touches ..).mono rfl).step (State.setDlkState_touches ..) rfl)
  clear_value s1
  extract_lets +onlyGivenNames s2
  have h_s2 : Touches 33284 s s2 := (Touches.foldl h_s1 (fun _ _ h => (State.onLane_touches (h.step (State.modDpos_touches ..) rfl) rfl (fun _ _ h => (h.step (State.setReg_touches ..) rfl)))))
  clear_value s2
  exact ((((h_s2.step (State.modDlk_touches ..) rfl).step (State.dlkPool_touches ..) rfl).step (State.setReg_touches ..) rfl).step (State.setReg_touches ..) rfl)

theorem State.dlkOn_touches : ∀ s n, Touches 33284 s (State.dlkOn s n) := by
  intro s n
  unfold State.dlkOn
  extract_lets +onlyGivenNames s1
  have h_s1 : Touches 33284 s s1 := by
    unfold s1
    refine (Touches.foldl (Touches.refl _ _) (fun _ _ h => ?_))
    split
    · exact (Touches.ite (fun _ => (h.step (State.setDlkMap_touches ..) rfl)) (fun _ => (Touches.ite (fun _ => h) (fun _ => (h.step (State.modDpos_touches ..) rfl)))))
    · exact h
  clear_value s1
  exact ((h_s1.step (State.modDlk_touches ..) rfl).step (State.setDlkState_touches ..) rfl)

theorem State.dlkCfg_touches : ∀ s n v, Touches 34380 s (State.dlkCfg s n v) := by
  intro s n v
  unfold State.dlkCfg
  extract_lets +onlyGivenNames was
  clear_value was
  extract_lets +onlyGivenNames s1
  have h_s1 : Touches 34380 s s1 := ((State.storeFields_touches ..).mono rfl)
  clear_value s1
  exact (Touches.ite (fun _ => (h_s1.step (State.dlkOn_touches ..) rfl)) (fun _ => (Touches.ite (fun _ => (h_s1.step (State.dlkOff_touches ..) rfl)) (fun _ => h_s1))))

theorem execDlkEnable_touches : ∀ m n v s, Ends 34380 s (execDlkEnable m n v s) := by
  intro m n v s
  unfold execDlkEnable
  exact Ends.next (State.regWrite_touches (Touches.refl _ _) rfl (fun _ h => (h.step (State.dlkCfg_touches ..) rfl)))

theorem execDlkDisable_touches : ∀ m n v s, Ends 34380 s (execDlkDisable m n v s) := by
  intro m n v s
  unfold execDlkDisable
  exact Ends.next (State.regWrite_touches (Touches.refl _ _) rfl (fun _ h => (h.step (State.dlkCfg_touches ..) rfl)))

end Sys2Proof.Machine
end

