-- ==== Sys2Proof/Laws/Touch/Time.lean ====
section
/-!
SUPPORT. What each operation of Machine/Time.lean may touch (see Laws/Touches.lean).
-/

-- One proof at a time bounds the threads and memory of a compile.
set_option Elab.async false

namespace Sys2Proof.Machine

open Sys2Proof

theorem execLaneCfgWrite_touches : ∀ m n v s, Ends 1100 s (execLaneCfgWrite m n v s) := by
  intro m n v s
  unfold execLaneCfgWrite
  exact Ends.next (State.regWrite_touches (Touches.refl _ _) rfl (fun _ h => (Touches.ite (fun _ => (h.step (State.raise_touches ..) rfl)) (fun _ => (h.step (State.storeFields_touches ..) rfl)))))

theorem State.modCue_touches : ∀ s c f, Touches 256 s (State.modCue s c f) := by
  intro s c f
  unfold State.modCue
  exact ((State.onTb_touches ..).mono rfl)

theorem State.setCueBit_touches : ∀ s base c b, Touches 4 s (State.setCueBit s base c b) := by
  intro s base c b
  unfold State.setCueBit
  exact ((State.putBit_touches ..).mono rfl)

theorem State.cueDisarm_touches : ∀ s c, Touches 260 s (State.cueDisarm s c) := by
  intro s c
  unfold State.cueDisarm
  exact (((State.modCue_touches ..).mono rfl).step (State.setCueBit_touches ..) rfl)

theorem State.cueNext_touches : ∀ s c t dec, Touches 260 s (State.cueNext s c t dec) := by
  intro s c t dec
  unfold State.cueNext
  extract_lets +onlyGivenNames q
  clear_value q
  refine (Touches.ite (fun _ => ((State.cueDisarm_touches ..).mono rfl)) (fun _ => ?_))
  extract_lets +onlyGivenNames s1
  have h_s1 : Touches 260 s s1 := ((State.modCue_touches ..).mono rfl)
  clear_value s1
  exact (Touches.ite (fun _ => (h_s1.step (State.cueDisarm_touches ..) rfl)) (fun _ => h_s1))

theorem State.cueFire_touches : ∀ s c late unpredicted, Touches 102212 s (State.cueFire s c late unpredicted) := by
  intro s c late unpredicted
  unfold State.cueFire
  extract_lets +onlyGivenNames q p
  clear_value q p
  extract_lets +onlyGivenNames s1
  have h_s1 : Touches 102212 s s1 := ((State.produceOn_touches ..).mono rfl)
  clear_value s1
  extract_lets +onlyGivenNames s2
  have h_s2 : Touches 102212 s s2 := (h_s1.step (State.modCue_touches ..) rfl)
  clear_value s2
  extract_lets +onlyGivenNames s3
  have h_s3 : Touches 102212 s s3 := (h_s2.step (State.setCueBit_touches ..) rfl)
  clear_value s3
  extract_lets +onlyGivenNames s4
  have h_s4 : Touches 102212 s s4 := (Touches.ite (fun _ => (h_s3.step (State.setInt_touches ..) rfl)) (fun _ => h_s3))
  clear_value s4
  extract_lets +onlyGivenNames s5
  have h_s5 : Touches 102212 s s5 := (Touches.ite (fun _ => (h_s4.step (State.setInt_touches ..) rfl)) (fun _ => h_s4))
  clear_value s5
  exact (h_s5.step (State.seqCueFired_touches ..) rfl)

theorem State.cueMiss_touches : ∀ s c n, Touches 324 s (State.cueMiss s c n) := by
  intro s c n
  unfold State.cueMiss
  extract_lets +onlyGivenNames s1
  have h_s1 : Touches 324 s s1 := ((State.modCue_touches ..).mono rfl)
  clear_value s1
  exact ((h_s1.step (State.setCueBit_touches ..) rfl).step (State.setInt_touches ..) rfl)

theorem State.cuePassed_touches : ∀ s c stepped, Touches 102212 s (State.cuePassed s c stepped) := by
  intro s c stepped
  unfold State.cuePassed
  extract_lets +onlyGivenNames q r
  clear_value q r
  extract_lets +onlyGivenNames s0
  have h_s0 : Touches 102212 s s0 := (Touches.ite (fun _ => ((State.modCue_touches ..).mono rfl)) (fun _ => Touches.refl _ _))
  clear_value s0
  extract_lets +onlyGivenNames fires
  clear_value fires
  extract_lets +onlyGivenNames s1
  have h_s1 : Touches 102212 s s1 := (Touches.ite (fun _ => (h_s0.step (State.cueFire_touches ..) rfl)) (fun _ => h_s0))
  clear_value s1
  refine (Touches.ite (fun _ => ((Touches.ite (fun _ => h_s1) (fun _ => (h_s1.step (State.cueMiss_touches ..) rfl))).step (State.cueDisarm_touches ..) rfl)) (fun _ => ?_))
  extract_lets +onlyGivenNames adv adv1 adv2 skipped
  clear_value adv adv1 adv2 skipped
  extract_lets +onlyGivenNames s2
  have h_s2 : Touches 102212 s s2 := (Touches.ite (fun _ => h_s1) (fun _ => (h_s1.step (State.cueMiss_touches ..) rfl)))
  clear_value s2
  exact (h_s2.step (State.cueNext_touches ..) rfl)

theorem State.cuesStepped_touches : ∀ s r, Touches 102212 s (State.cuesStepped s r) := by
  intro s r
  unfold State.cuesStepped
  refine (Touches.foldl (Touches.refl _ _) (fun _ _ h => ?_))
  extract_lets +onlyGivenNames q
  clear_value q
  exact (Touches.ite (fun _ => (h.step (State.cuePassed_touches ..) rfl)) (fun _ => h))

theorem State.cueEval_touches : ∀ s c, Touches 102212 s (State.cueEval s c) := by
  intro s c
  unfold State.cueEval
  extract_lets +onlyGivenNames q r
  clear_value q r
  refine (Touches.ite (fun _ => Touches.refl _ _) (fun _ => (Touches.ite (fun _ => ((State.modCue_touches ..).mono rfl)) (fun _ => ?_))))
  extract_lets +onlyGivenNames v
  clear_value v
  extract_lets +onlyGivenNames s1
  have h_s1 : Touches 102212 s s1 := ((State.modCue_touches ..).mono rfl)
  clear_value s1
  exact (Touches.ite (fun _ => h_s1) (fun _ => (Touches.ite (fun _ => (h_s1.step (State.cuePassed_touches ..) rfl)) (fun _ => (Touches.ite (fun _ => (h_s1.step (State.modCue_touches ..) rfl)) (fun _ => (Touches.ite (fun _ => (h_s1.step (State.modCue_touches ..) rfl)) (fun _ => h_s1))))))))

theorem State.cuesFire_touches : ∀ s x1, Touches 102212 s (State.cuesFire s x1) := by
  intro s x1
  induction x1 generalizing s
  · unfold State.cuesFire
    exact Touches.refl _ _
  · rename_i ih
    unfold State.cuesFire
    extract_lets +onlyGivenNames q late
    clear_value q late
    exact ((((State.cueFire_touches ..).mono rfl).step (State.cueNext_touches ..) rfl).step (ih ..) rfl)

theorem State.cueCommits_touches : ∀ s fired, Touches 64 s (State.cueCommits s fired) := by
  intro s fired
  unfold State.cueCommits
  refine (Touches.foldl (Touches.refl _ _) (fun _ _ h => ?_))
  extract_lets +onlyGivenNames w
  clear_value w
  exact (Touches.ite (fun _ => (h.step (State.modPage_touches ..) rfl)) (fun _ => h))

theorem State.cuesTick_touches : ∀ s, Touches 102212 s (State.cuesTick s) := by
  intro s
  unfold State.cuesTick
  extract_lets +onlyGivenNames s1
  have h_s1 : Touches 102212 s s1 := (Touches.foldl (Touches.refl _ _) (fun _ _ h => (h.step (State.cueEval_touches ..) rfl)))
  clear_value s1
  extract_lets +onlyGivenNames due
  clear_value due
  extract_lets +onlyGivenNames s2
  have h_s2 : Touches 102212 s s2 := (Touches.ite (fun _ => (Touches.foldl h_s1 (fun _ _ h => (h.step (State.raise_touches ..) rfl)))) (fun _ => h_s1))
  clear_value s2
  extract_lets +onlyGivenNames fire
  clear_value fire
  extract_lets +onlyGivenNames s3
  have h_s3 : Touches 102212 s s3 := (h_s2.step (State.cuesFire_touches ..) rfl)
  clear_value s3
  exact (Touches.ite (fun _ => h_s3) (fun _ => (h_s3.step (State.cueCommits_touches ..) rfl)))

theorem State.holdoverChange_touches : ∀ s was, Touches 1604 s (State.holdoverChange s was) := by
  intro s was
  unfold State.holdoverChange
  exact (Touches.ite (fun _ => Touches.refl _ _) (fun _ => ((Touches.ite (fun _ => Touches.refl _ _) (fun _ => ((State.raise_touches ..).mono rfl))).step (State.produce_touches ..) rfl)))

theorem State.timeStep_touches : ∀ s t, Touches 3247940 s (State.timeStep s t) := by
  intro s t
  unfold State.timeStep
  extract_lets +onlyGivenNames old
  clear_value old
  extract_lets +onlyGivenNames s0
  have h_s0 : Touches 3247940 s s0 := ((State.onTb_touches ..).mono rfl)
  clear_value s0
  extract_lets +onlyGivenNames s1
  have h_s1 : Touches 3247940 s s1 := ((h_s0.step (State.gatesStepped_touches ..) rfl).step (State.onTdm_touches ..) rfl)
  clear_value s1
  exact (Touches.ite (fun _ => (((h_s1.step (State.raise_touches ..) rfl).step (State.produce_touches ..) rfl).step (State.cuesStepped_touches ..) rfl)) (fun _ => (Touches.ite (fun _ => ((h_s1.step (State.raise_touches ..) rfl).step (State.produce_touches ..) rfl)) (fun _ => h_s1))))

theorem State.timeTick_touches : ∀ s, Touches 768 s (State.timeTick s) := by
  intro s
  unfold State.timeTick
  extract_lets +onlyGivenNames adj acc t1
  clear_value adj acc t1
  extract_lets +onlyGivenNames s1
  have h_s1 : Touches 768 s s1 := ((State.onTb_touches ..).mono rfl)
  clear_value s1
  exact (Touches.ite (fun _ => (h_s1.step (State.produce_touches ..) rfl)) (fun _ => h_s1))

theorem execTimeSetGo_touches : ∀ m v s, Ends 3247940 s (execTimeSetGo m v s) := by
  intro m v s
  unfold execTimeSetGo
  refine Ends.next (State.regWrite_touches (Touches.refl _ _) rfl (fun _ h => (Touches.ite (fun _ => h) (fun _ => (Touches.ite (fun _ => (h.step (State.stateWrite_touches ..) rfl)) (fun _ => ?_))))))
  extract_lets +onlyGivenNames sec ns
  clear_value sec ns
  exact ((h.step (State.putBit_touches ..) rfl).step (State.timeStep_touches ..) rfl)

theorem State.setServo_touches : ∀ s v, Touches 1604 s (State.setServo s v) := by
  intro s v
  unfold State.setServo
  refine (Touches.ite (fun _ => Touches.refl _ _) (fun _ => ?_))
  extract_lets +onlyGivenNames was
  clear_value was
  extract_lets +onlyGivenNames s1
  have h_s1 : Touches 1604 s s1 := (((State.setFld_touches ..).mono rfl).step (State.produce_touches ..) rfl)
  clear_value s1
  extract_lets +onlyGivenNames s2
  have h_s2 : Touches 1604 s s2 := (Touches.ite (fun _ => (h_s1.step (State.raise_touches ..) rfl)) (fun _ => h_s1))
  clear_value s2
  extract_lets +onlyGivenNames s3
  have h_s3 : Touches 1604 s s3 := (Touches.ite (fun _ => (h_s2.step (State.putBit_touches ..) rfl)) (fun _ => h_s2))
  clear_value s3
  exact (h_s3.step (State.holdoverChange_touches ..) rfl)

theorem execTimeCtrlWrite_touches : ∀ m v s, Ends 1604 s (execTimeCtrlWrite m v s) := by
  intro m v s
  unfold execTimeCtrlWrite
  refine Ends.next (State.regWrite_touches (Touches.refl _ _) rfl (fun _ h => ?_))
  extract_lets +onlyGivenNames on
  clear_value on
  refine (Touches.ite (fun _ => h) (fun _ => ?_))
  extract_lets +onlyGivenNames was
  clear_value was
  extract_lets +onlyGivenNames t1
  have h_t1 : Touches 1604 s t1 := (h.step (State.putBit_touches ..) rfl)
  clear_value t1
  extract_lets +onlyGivenNames t2
  have h_t2 : Touches 1604 s t2 := (h_t1.step (State.setFld_touches ..) rfl)
  clear_value t2
  extract_lets +onlyGivenNames t3
  have h_t3 : Touches 1604 s t3 := ((h_t2.step (State.produce_touches ..) rfl).step (State.holdoverChange_touches ..) rfl)
  clear_value t3
  exact (Touches.ite (fun _ => (h_t3.step (State.setServo_touches ..) rfl)) (fun _ => h_t3))

theorem State.snapshot_touches : ∀ s, Touches 4 s (State.snapshot s) := by
  intro s
  unfold State.snapshot
  extract_lets +onlyGivenNames ns
  clear_value ns
  extract_lets +onlyGivenNames s1
  have h_s1 : Touches 4 s s1 := ((((State.setReg64_touches ..).mono rfl).step (State.setReg_touches ..) rfl).step (State.setReg_touches ..) rfl)
  clear_value s1
  extract_lets +onlyGivenNames s2
  have h_s2 : Touches 4 s s2 := (Touches.foldl h_s1 (fun _ _ h => (h.step (State.setReg64_touches ..) rfl)))
  clear_value s2
  extract_lets +onlyGivenNames s3
  have h_s3 : Touches 4 s s3 := (Touches.foldl h_s2 (fun _ _ h => (h.step (State.setReg64_touches ..) rfl)))
  clear_value s3
  extract_lets +onlyGivenNames s4
  have h_s4 : Touches 4 s s4 := (Touches.foldl h_s3 (fun _ _ h => (h.step (State.setReg64_touches ..) rfl)))
  clear_value s4
  extract_lets +onlyGivenNames s5
  have h_s5 : Touches 4 s s5 := (Touches.foldl h_s4 (fun _ _ h => (h.step (State.setReg64_touches ..) rfl)))
  clear_value s5
  exact ((h_s5.step (State.putBit_touches ..) rfl).step (State.countWrap_touches ..) rfl)

theorem execSnapGo_touches : ∀ m v s, Ends 1092 s (execSnapGo m v s) := by
  intro m v s
  unfold execSnapGo
  exact Ends.next (State.regWrite_touches (Touches.refl _ _) rfl (fun _ h => (Touches.ite (fun _ => (h.step (State.snapshot_touches ..) rfl)) (fun _ => h))))

theorem execSnapshotStrobe_touches : ∀ s, Ends 516 s (execSnapshotStrobe s) := by
  intro s
  unfold execSnapshotStrobe
  refine Ends.ite (fun _ => ?_) (fun _ => ?_)
  · exact Ends.next (((State.setBusy_touches ..).mono rfl).step (State.snapshot_touches ..) rfl)
  · exact Ends.next (Touches.refl _ _)

theorem State.distCommit_touches : ∀ s d, Touches 1092 s (State.distCommit s d) := by
  intro s d
  unfold State.distCommit
  extract_lets +onlyGivenNames circ inc
  clear_value circ inc
  exact (Touches.ite (fun _ => ((State.raise_touches ..).mono rfl)) (fun _ => (((State.setReg_touches ..).mono rfl).step (State.setReg64_touches ..) rfl)))

theorem State.modEncoder_touches : ∀ s e f, Touches 256 s (State.modEncoder s e f) := by
  intro s e f
  unfold State.modEncoder
  exact ((State.onTb_touches ..).mono rfl)

theorem State.distSource_touches : ∀ s d, Touches 260 s (State.distSource s d) := by
  intro s d
  unfold State.distSource
  extract_lets +onlyGivenNames b
  clear_value b
  exact (((State.modDist_touches ..).mono rfl).step (State.putBit_touches ..) rfl)

theorem State.distCompare_touches : ∀ s d, Touches 256 s (State.distCompare s d) := by
  intro s d
  unfold State.distCompare
  exact (Touches.ite (fun _ => ((State.modDist_touches ..).mono rfl)) (fun _ => (Touches.ite (fun _ => ((State.modDist_touches ..).mono rfl)) (fun _ => ((State.modDist_touches ..).mono rfl)))))

theorem State.distEstimate_touches : ∀ s d, Touches 33554692 s (State.distEstimate s d) := by
  intro s d
  unfold State.distEstimate
  extract_lets +onlyGivenNames n x
  clear_value n x
  split
  · split
    · refine (Touches.ite (fun _ => ?_) (fun _ => Touches.refl _ _))
      extract_lets +onlyGivenNames w
      have h_w : Touches 33554692 s w.2 := ((State.drawWord_touches ..).mono rfl)
      clear_value w
      exact (h_w.step (State.setReg_touches ..) rfl)
    · extract_lets +onlyGivenNames dt rate centre
      clear_value dt rate centre
      extract_lets +onlyGivenNames s1
      have h_s1 : Touches 33554692 s s1 := ((State.setReg_touches ..).mono rfl)
      clear_value s1
      extract_lets +onlyGivenNames s2
      have h_s2 : Touches 33554692 s s2 := by
        unfold s2
        split
        · exact (Touches.ite (fun _ => (h_s1.step (State.setReg_touches ..) rfl)) (fun _ => h_s1))
        · exact h_s1
      clear_value s2
      extract_lets +onlyGivenNames q
      clear_value q
      extract_lets +onlyGivenNames s3
      have h_s3 : Touches 33554692 s s3.2 := (h_s2.step (State.drawWord_touches ..) rfl)
      clear_value s3
      extract_lets +onlyGivenNames s31
      have h_s31 : Touches 33554692 s s31 := (Touches.ite (fun _ => (h_s3.step (State.setReg_touches ..) rfl)) (fun _ => (h_s2.step (State.setReg_touches ..) rfl)))
      clear_value s31
      exact (h_s31.step (State.modDist_touches ..) rfl)
  · exact Touches.refl _ _

theorem State.distEdge_touches : ∀ s d e dir, Touches 33571588 s (State.distEdge s d e dir) := by
  intro s d e dir
  unfold State.distEdge
  extract_lets +onlyGivenNames pri sec
  clear_value pri sec
  refine (Touches.ite (fun _ => Touches.refl _ _) (fun _ => ?_))
  extract_lets +onlyGivenNames s1
  have h_s1 : Touches 33571588 s s1 := ((State.modDist_touches ..).mono rfl)
  clear_value s1
  extract_lets +onlyGivenNames s2
  have h_s2 : Touches 33571588 s s2 := ((h_s1.step (State.distSource_touches ..) rfl).step (State.distCompare_touches ..) rfl)
  clear_value s2
  refine (Touches.ite (fun _ => h_s2) (fun _ => ?_))
  extract_lets +onlyGivenNames s3
  have h_s3 : Touches 33571588 s s3 := (h_s2.step (State.modDist_touches ..) rfl)
  clear_value s3
  extract_lets +onlyGivenNames s4
  have h_s4 : Touches 33571588 s s4 := (h_s3.step (State.modDist_touches ..) rfl)
  clear_value s4
  extract_lets +onlyGivenNames was
  clear_value was
  extract_lets +onlyGivenNames s5
  have h_s5 : Touches 33571588 s s5 := ((h_s4.step (State.putBit_touches ..) rfl).step (State.putBit_touches ..) rfl)
  clear_value s5
  extract_lets +onlyGivenNames s6
  have h_s6 : Touches 33571588 s s6 := (h_s5.step (State.produce_touches ..) rfl)
  clear_value s6
  extract_lets +onlyGivenNames s61
  have h_s61 : Touches 33571588 s s61 := (Touches.ite (fun _ => (Touches.ite (fun _ => (h_s6.step (State.wakeBy_touches ..) rfl)) (fun _ => h_s6))) (fun _ => h_s5))
  clear_value s61
  exact (h_s61.step (State.distEstimate_touches ..) rfl)

theorem State.encCount_touches : ∀ s e dir, Touches 33571588 s (State.encCount s e dir) := by
  intro s e dir
  unfold State.encCount
  extract_lets +onlyGivenNames inv dir1 cnt
  clear_value inv dir1 cnt
  extract_lets +onlyGivenNames s1
  have h_s1 : Touches 33571588 s s1 := ((State.setReg_touches ..).mono rfl)
  clear_value s1
  extract_lets +onlyGivenNames s2
  have h_s2 : Touches 33571588 s s2 := (h_s1.step (State.modEncoder_touches ..) rfl)
  clear_value s2
  exact (Touches.foldl (h_s2.step (State.putBit_touches ..) rfl) (fun _ _ h => (h.step (State.distEdge_touches ..) rfl)))

theorem execEncoderEdge_touches : ∀ e a b s, Ends 33572676 s (execEncoderEdge e a b s) := by
  intro e a b s
  unfold execEncoderEdge
  refine Ends.ite (fun _ => ?_) (fun _ => ?_)
  · exact Ends.next (Touches.refl _ _)
  · extract_lets +onlyGivenNames x
    clear_value x
    extract_lets +onlyGivenNames s1
    have h_s1 : Touches 33572676 s s1 := ((((State.modEncoder_touches ..).mono rfl).step (State.putBit_touches ..) rfl).step (State.putBit_touches ..) rfl)
    clear_value s1
    split
    · refine Ends.ite (fun _ => ?_) (fun _ => ?_)
      · exact Ends.next (((h_s1.step (State.count_touches ..) rfl).step (State.raise_touches ..) rfl).step (State.produce_touches ..) rfl)
      · refine Ends.ite (fun _ => ?_) (fun _ => ?_)
        · exact Ends.next (h_s1.step (State.encCount_touches ..) rfl)
        · refine Ends.ite (fun _ => ?_) (fun _ => ?_)
          · exact Ends.next (h_s1.step (State.encCount_touches ..) rfl)
          · exact Ends.next h_s1
    · refine Ends.ite (fun _ => ?_) (fun _ => ?_)
      · exact Ends.next (h_s1.step (State.encCount_touches ..) rfl)
      · exact Ends.next h_s1
    · refine Ends.ite (fun _ => ?_) (fun _ => ?_)
      · exact Ends.next (h_s1.step (State.encCount_touches ..) rfl)
      · exact Ends.next h_s1
    · exact Ends.next h_s1

theorem execEncoderIndexEdge_touches : ∀ e i s, Ends 772 s (execEncoderIndexEdge e i s) := by
  intro e i s
  unfold execEncoderIndexEdge
  refine Ends.ite (fun _ => ?_) (fun _ => ?_)
  · exact Ends.next (Touches.refl _ _)
  · extract_lets +onlyGivenNames x
    clear_value x
    extract_lets +onlyGivenNames s1
    have h_s1 : Touches 772 s s1 := ((State.putBit_touches ..).mono rfl)
    clear_value s1
    refine Ends.ite (fun _ => ?_) (fun _ => ?_)
    · exact Ends.next (h_s1.step (State.modEncoder_touches ..) rfl)
    · extract_lets +onlyGivenNames s2
      have h_s2 : Touches 772 s s2 := (h_s1.step (State.modEncoder_touches ..) rfl)
      clear_value s2
      split
      · refine Ends.ite (fun _ => ?_) (fun _ => ?_)
        · exact Ends.next ((h_s2.step (State.count_touches ..) rfl).step (State.produce_touches ..) rfl)
        · exact Ends.next h_s2
      · exact Ends.next h_s2

theorem execPosSet_touches : ∀ m d v s, Ends 102212 s (execPosSet m d v s) := by
  intro m d v s
  unfold execPosSet
  refine Ends.next (State.regWrite_touches (Touches.refl _ _) rfl (fun _ h => ?_))
  extract_lets +onlyGivenNames t1
  have h_t1 : Touches 102212 s t1 := (h.step (State.setReg_touches ..) rfl)
  clear_value t1
  extract_lets +onlyGivenNames old new
  clear_value old new
  extract_lets +onlyGivenNames t2
  have h_t2 : Touches 102212 s t2 := ((h_t1.step (State.modDist_touches ..) rfl).step (State.raise_touches ..) rfl)
  clear_value t2
  exact (Touches.ite (fun _ => (h_t2.step (State.cuesStepped_touches ..) rfl)) (fun _ => h_t2))

theorem execStillTimeout_touches : ∀ d s, Ends 1860 s (execStillTimeout d s) := by
  intro d s
  unfold execStillTimeout
  refine Ends.ite (fun _ => ?_) (fun _ => ?_)
  · exact Ends.next (Touches.refl _ _)
  · extract_lets +onlyGivenNames s1
    have h_s1 : Touches 1860 s s1 := (Touches.ite (fun _ => Touches.refl _ _) (fun _ => ((((State.setReg_touches ..).mono rfl).step (State.setReg_touches ..) rfl).step (State.putBit_touches ..) rfl)))
    clear_value s1
    extract_lets +onlyGivenNames s2
    have h_s2 : Touches 1860 s s2 := (h_s1.step (State.distCompare_touches ..) rfl)
    clear_value s2
    refine Ends.ite (fun _ => ?_) (fun _ => ?_)
    · exact Ends.next h_s2
    · exact Ends.next (((h_s2.step (State.distSource_touches ..) rfl).step (State.raise_touches ..) rfl).step (State.produce_touches ..) rfl)

theorem execSlipDwell_touches : ∀ d s0, Ends 1860 s0 (execSlipDwell d s0) := by
  intro d s0
  unfold execSlipDwell
  extract_lets +onlyGivenNames s
  have h_s : Touches 1860 s0 s := ((State.distCompare_touches ..).mono rfl)
  clear_value s
  extract_lets +onlyGivenNames dwell st
  clear_value dwell st
  extract_lets +onlyGivenNames past
  refine Ends.ite (fun _ => ?_) (fun _ => ?_)
  · exact Ends.next (Touches.refl _ _)
  · refine Ends.ite (fun _ => ?_) (fun _ => ?_)
    · extract_lets +onlyGivenNames b
      clear_value b
      exact Ends.next ((((h_s.step (State.putBit_touches ..) rfl).step (State.raise_touches ..) rfl).step (State.produce_touches ..) rfl).step (State.distSource_touches ..) rfl)
    · refine Ends.ite (fun _ => ?_) (fun _ => ?_)
      · exact Ends.next (((h_s.step (State.setFld_touches ..) rfl).step (State.produce_touches ..) rfl).step (State.distSource_touches ..) rfl)
      · exact Ends.next h_s

theorem State.phaseTick_touches : ∀ s p, Touches 772 s (State.phaseTick s p) := by
  intro s p
  unfold State.phaseTick
  refine (Touches.ite (fun _ => Touches.refl _ _) (fun _ => ?_))
  extract_lets +onlyGivenNames x adv lim back slew acc v s1
  have h_s1 : Touches 772 s s1 := ((State.modPhase_touches ..).mono rfl)
  clear_value s1
  extract_lets +onlyGivenNames s2
  have h_s2 : Touches 772 s s2 := (h_s1.step (State.putBit_touches ..) rfl)
  clear_value s2
  exact (Touches.ite (fun _ => (h_s2.step (State.produce_touches ..) rfl)) (fun _ => h_s2))

theorem State.setPhaseState_touches : ∀ s p v, Touches 1860 s (State.setPhaseState s p v) := by
  intro s p v
  unfold State.setPhaseState
  extract_lets +onlyGivenNames old
  clear_value old
  refine (Touches.ite (fun _ => Touches.refl _ _) (fun _ => ?_))
  extract_lets +onlyGivenNames s1
  have h_s1 : Touches 1860 s s1 := (((State.setFld_touches ..).mono rfl).step (State.produce_touches ..) rfl)
  clear_value s1
  extract_lets +onlyGivenNames s2
  have h_s2 : Touches 1860 s s2 := (Touches.ite (fun _ => (h_s1.step (State.raise_touches ..) rfl)) (fun _ => h_s1))
  clear_value s2
  extract_lets +onlyGivenNames s3
  have h_s3 : Touches 1860 s s3 := (Touches.ite (fun _ => ((h_s2.step (State.raise_touches ..) rfl).step (State.modPhase_touches ..) rfl)) (fun _ => h_s2))
  clear_value s3
  extract_lets +onlyGivenNames s4
  have h_s4 : Touches 1860 s s4 := (Touches.ite (fun _ => (h_s3.step (State.modPhase_touches ..) rfl)) (fun _ => h_s3))
  clear_value s4
  extract_lets +onlyGivenNames s5
  have h_s5 : Touches 1860 s s5 := (Touches.ite (fun _ => (h_s4.step (State.modPhase_touches ..) rfl)) (fun _ => h_s4))
  clear_value s5
  exact (h_s5.step (State.modPhase_touches ..) rfl)

theorem State.phaseCross_touches : ∀ s p width, Touches 1860 s (State.phaseCross s p width) := by
  intro s p width
  unfold State.phaseCross
  refine (Touches.ite (fun _ => ((State.count_touches ..).mono rfl)) (fun _ => ?_))
  extract_lets +onlyGivenNames x err lockErr nom f0 f
  clear_value x err lockErr nom f0 f
  extract_lets +onlyGivenNames s1
  have h_s1 : Touches 1860 s s1 := (((State.setReg_touches ..).mono rfl).step (State.modPhase_touches ..) rfl)
  clear_value s1
  split
  · exact (h_s1.step (State.setPhaseState_touches ..) rfl)
  · exact (h_s1.step (State.setPhaseState_touches ..) rfl)
  · exact (Touches.ite (fun _ => (h_s1.step (State.setPhaseState_touches ..) rfl)) (fun _ => h_s1))
  · exact (Touches.ite (fun _ => (h_s1.step (State.setPhaseState_touches ..) rfl)) (fun _ => h_s1))

theorem execPhaseCrossing_touches : ∀ i falling width s, Ends 1860 s (execPhaseCrossing i falling width s) := by
  intro i falling width s
  unfold execPhaseCrossing
  exact Ends.next (Touches.foldl (Touches.refl _ _) (fun _ _ h => (Touches.ite (fun _ => (h.step (State.phaseCross_touches ..) rfl)) (fun _ => h))))

theorem execPhaseCrossingTimeout_touches : ∀ p s, Ends 1860 s (execPhaseCrossingTimeout p s) := by
  intro p s
  unfold execPhaseCrossingTimeout
  split
  · refine Ends.ite (fun _ => ?_) (fun _ => ?_)
    · exact Ends.next ((State.setPhaseState_touches ..).mono rfl)
    · exact Ends.next (Touches.refl _ _)
  · exact Ends.next (Touches.refl _ _)

theorem execPhaseHoldExpiry_touches : ∀ p s, Ends 1860 s (execPhaseHoldExpiry p s) := by
  intro p s
  unfold execPhaseHoldExpiry
  refine Ends.ite (fun _ => ?_) (fun _ => ?_)
  · exact Ends.next ((State.setPhaseState_touches ..).mono rfl)
  · exact Ends.next (Touches.refl _ _)

theorem State.lineReach_touches : ∀ s n y, Touches 256 s (State.lineReach s n y) := by
  intro s n y
  unfold State.lineReach
  exact ((State.modLine_touches ..).mono rfl)

theorem State.lineTick_touches : ∀ s n, Touches 256 s (State.lineTick s n) := by
  intro s n
  unfold State.lineTick
  extract_lets +onlyGivenNames r
  clear_value r
  refine (Touches.ite (fun _ => Touches.refl _ _) (fun _ => ?_))
  extract_lets +onlyGivenNames acc px ht
  clear_value acc px ht
  extract_lets +onlyGivenNames s1
  have h_s1 : Touches 256 s s1 := ((State.modLine_touches ..).mono rfl)
  clear_value s1
  refine (Touches.ite (fun _ => h_s1) (fun _ => ?_))
  extract_lets +onlyGivenNames y
  clear_value y
  exact ((h_s1.step (State.modLine_touches ..) rfl).step (State.lineReach_touches ..) rfl)

theorem State.linePairs_touches : ∀ s, Touches 256 s (State.linePairs s) := by
  intro s
  unfold State.linePairs
  refine (Touches.foldl (Touches.refl _ _) (fun _ _ h => (Touches.ite (fun _ => ?_) (fun _ => h))))
  extract_lets +onlyGivenNames a
  clear_value a
  exact (h.step (State.modLine_touches ..) rfl)

theorem execTimebaseTick_touches : ∀ s, Ends 16879428 s (execTimebaseTick s) := by
  intro s
  unfold execTimebaseTick
  extract_lets +onlyGivenNames s1
  have h_s1 : Touches 16879428 s s1 := (((State.onNow_touches ..).mono rfl).step (State.timeTick_touches ..) rfl)
  clear_value s1
  extract_lets +onlyGivenNames s2
  have h_s2 : Touches 16879428 s s2 := ((h_s1.step (State.phaseTick_touches ..) rfl).step (State.phaseTick_touches ..) rfl)
  clear_value s2
  extract_lets +onlyGivenNames s3
  have h_s3 : Touches 16879428 s s3 := ((Touches.foldl h_s2 (fun _ _ h => (Touches.ite (fun _ => h) (fun _ => (h.step (State.lineTick_touches ..) rfl))))).step (State.linePairs_touches ..) rfl)
  clear_value s3
  exact Ends.next (((h_s3.step (State.cuesTick_touches ..) rfl).step (State.dlkDrain_touches ..) rfl).step (State.fnUpdate_touches ..) rfl)

theorem State.cueCmd_touches {K : Nat} {s u : State} {m : Master} {k : Nat} {eff : State → State} (h : Touches K s u)
    (hk : Nat.land 1092 K = 1092) (heff : ∀ t, Touches K s t → Touches K s (eff t)) : Touches K s (State.cueCmd u m k eff) :=
  State.cmdWrite_touches h hk fun _ ht => TouchesOpt.some (heff _ ht)

theorem State.cueStat_touches : ∀ s k reason, Touches 4 s (State.cueStat s k reason) := by
  intro s k reason
  unfold State.cueStat
  exact ((State.setReg_touches ..).mono rfl)

theorem execLoad_touches : ∀ m k s, Ends 1092 s (execLoad m k s) := by
  intro m k s
  unfold execLoad
  exact Ends.next (State.cueCmd_touches (Touches.refl _ _) rfl (fun _ h => ((h.step (State.setRegs32_touches ..) rfl).step (State.cueStat_touches ..) rfl)))

theorem execCueStore_touches : ∀ m k s, Ends 102212 s (execCueStore m k s) := by
  intro m k s
  unfold execCueStore
  refine Ends.next (State.cueCmd_touches (Touches.refl _ _) rfl (fun _ h => ?_))
  extract_lets +onlyGivenNames c d q r
  clear_value c d q r
  refine (Touches.ite (fun _ => ?_) (fun _ => ?_))
  · extract_lets +onlyGivenNames t1
    have h_t1 : Touches 102212 s t1 := ((h.step (State.cueStat_touches ..) rfl).step (State.raise_touches ..) rfl)
    clear_value t1
    exact (Touches.ite (fun _ => (h_t1.step (State.raise_touches ..) rfl)) (fun _ => h_t1))
  · extract_lets +onlyGivenNames armed
    clear_value armed
    extract_lets +onlyGivenNames t1
    have h_t1 : Touches 102212 s t1 := (((h.step (State.modCue_touches ..) rfl).step (State.setCueBit_touches ..) rfl).step (State.cueStat_touches ..) rfl)
    clear_value t1
    refine (Touches.ite (fun _ => h_t1) (fun _ => ?_))
    extract_lets +onlyGivenNames t2
    have h_t2 : Touches 102212 s t2 := (h_t1.step (State.modCue_touches ..) rfl)
    clear_value t2
    exact (Touches.ite (fun _ => (h_t2.step (State.cuePassed_touches ..) rfl)) (fun _ => h_t2))

theorem execDisarm_touches : ∀ m k s, Ends 1348 s (execDisarm m k s) := by
  intro m k s
  unfold execDisarm
  refine Ends.next (State.cueCmd_touches (Touches.refl _ _) rfl (fun _ h => ?_))
  extract_lets +onlyGivenNames c
  clear_value c
  exact (((h.step (State.modCue_touches ..) rfl).step (State.cueDisarm_touches ..) rfl).step (State.cueStat_touches ..) rfl)

theorem execClear_touches : ∀ m k s, Ends 1348 s (execClear m k s) := by
  intro m k s
  unfold execClear
  exact Ends.next (State.cueCmd_touches (Touches.refl _ _) rfl (fun _ h => ((h.step (State.modCue_touches ..) rfl).step (State.cueStat_touches ..) rfl)))

end Sys2Proof.Machine
end

