-- ==== Sys2Proof/Laws/Touch/Ptp.lean ====
section
/-!
SUPPORT. What each operation of Machine/Ptp.lean may touch (see Laws/Touches.lean).
-/

-- One proof at a time bounds the threads and memory of a compile.
set_option Elab.async false

namespace Sys2Proof.Machine

open Sys2Proof

theorem State.modPport_touches : ∀ s i f, Touches 2097152 s (State.modPport s i f) := by
  intro s i f
  unfold State.modPport
  exact ((State.onNet_touches ..).mono rfl)

theorem State.modPtp_touches : ∀ s f, Touches 2097152 s (State.modPtp s f) := by
  intro s f
  unfold State.modPtp
  exact ((State.onNet_touches ..).mono rfl)

theorem State.ptpCount_touches : ∀ s n, Touches 4 s (State.ptpCount s n) := by
  intro s n
  unfold State.ptpCount
  exact ((State.setFld_touches ..).mono rfl)

theorem State.ptpNone_touches : ∀ s, Touches 2098756 s (State.ptpNone s) := by
  intro s
  unfold State.ptpNone
  extract_lets +onlyGivenNames s1
  have h_s1 : Touches 2098756 s s1 := (((State.modPtp_touches ..).mono rfl).step (State.ptpCount_touches ..) rfl)
  clear_value s1
  exact (Touches.ite (fun _ => h_s1) (fun _ => (h_s1.step (State.setServo_touches ..) rfl)))

theorem State.ptpSelect_touches : ∀ s, Touches 2098756 s (State.ptpSelect s) := by
  intro s
  unfold State.ptpSelect
  split
  · exact ((State.ptpNone_touches ..).mono rfl)
  · split
    · exact ((State.ptpNone_touches ..).mono rfl)
    · extract_lets +onlyGivenNames old was
      clear_value old was
      extract_lets +onlyGivenNames s1
      have h_s1 : Touches 2098756 s s1 := ((((State.setReg64_touches ..).mono rfl).step (State.setReg_touches ..) rfl).step (State.setFld_touches ..) rfl)
      clear_value s1
      extract_lets +onlyGivenNames change
      clear_value change
      refine (Touches.ite (fun _ => h_s1) (fun _ => ?_))
      extract_lets +onlyGivenNames s2
      have h_s2 : Touches 2098756 s s2 := ((h_s1.step (State.modPtp_touches ..) rfl).step (State.ptpCount_touches ..) rfl)
      clear_value s2
      extract_lets +onlyGivenNames s3
      have h_s3 : Touches 2098756 s s3 := (Touches.ite (fun _ => (((h_s2.step (State.raise_touches ..) rfl).step (State.produce_touches ..) rfl).step (State.count_touches ..) rfl)) (fun _ => h_s2))
      clear_value s3
      exact (Touches.ite (fun _ => h_s3) (fun _ => (Touches.ite (fun _ => (h_s3.step (State.setServo_touches ..) rfl)) (fun _ => h_s3))))

theorem State.ptpStep_touches : ∀ s o, Touches 3247940 s (State.ptpStep s o) := by
  intro s o
  unfold State.ptpStep
  extract_lets +onlyGivenNames s1
  have h_s1 : Touches 3247940 s s1 := (((State.modPtp_touches ..).mono rfl).step (State.ptpCount_touches ..) rfl)
  clear_value s1
  exact (((h_s1.step (State.timeStep_touches ..) rfl).step (State.raise_touches ..) rfl).step (State.setServo_touches ..) rfl)

theorem State.ptpSlew_touches : ∀ s o, Touches 2098756 s (State.ptpSlew s o) := by
  intro s o
  unfold State.ptpSlew
  extract_lets +onlyGivenNames ppm old lim new
  clear_value ppm old lim new
  extract_lets +onlyGivenNames s1
  have h_s1 : Touches 2098756 s s1 := (((State.setReg_touches ..).mono rfl).step (State.modPtp_touches ..) rfl)
  clear_value s1
  refine (Touches.ite (fun _ => ?_) (fun _ => (Touches.ite (fun _ => ((h_s1.step (State.ptpCount_touches ..) rfl).step (State.setServo_touches ..) rfl)) (fun _ => (h_s1.step (State.ptpCount_touches ..) rfl)))))
  extract_lets +onlyGivenNames n
  clear_value n
  exact (Touches.ite (fun _ => ((h_s1.step (State.ptpCount_touches ..) rfl).step (State.setServo_touches ..) rfl)) (fun _ => (h_s1.step (State.ptpCount_touches ..) rfl)))

theorem State.ptpConfirm_touches : ∀ s o, Touches 3247940 s (State.ptpConfirm s o) := by
  intro s o
  unfold State.ptpConfirm
  extract_lets +onlyGivenNames tol n s1
  have h_s1 : Touches 3247940 s s1 := (Touches.ite (fun _ => ((State.setServo_touches ..).mono rfl)) (fun _ => Touches.refl _ _))
  clear_value s1
  extract_lets +onlyGivenNames s2
  have h_s2 : Touches 3247940 s s2 := ((h_s1.step (State.modPtp_touches ..) rfl).step (State.ptpCount_touches ..) rfl)
  clear_value s2
  exact (Touches.ite (fun _ => (h_s2.step (State.ptpStep_touches ..) rfl)) (fun _ => h_s2))

theorem State.ptpRefuse_touches : ∀ s o, Touches 2098756 s (State.ptpRefuse s o) := by
  intro s o
  unfold State.ptpRefuse
  extract_lets +onlyGivenNames tol r n
  clear_value tol r n
  extract_lets +onlyGivenNames s1
  have h_s1 : Touches 2098756 s s1 := (((State.count_touches ..).mono rfl).step (State.raise_touches ..) rfl)
  clear_value s1
  extract_lets +onlyGivenNames s2
  have h_s2 : Touches 2098756 s s2 := (Touches.ite (fun _ => (h_s1.step (State.setServo_touches ..) rfl)) (fun _ => h_s1))
  clear_value s2
  extract_lets +onlyGivenNames s3
  have h_s3 : Touches 2098756 s s3 := ((h_s2.step (State.modPtp_touches ..) rfl).step (State.ptpCount_touches ..) rfl)
  clear_value s3
  extract_lets +onlyGivenNames show_
  exact (Touches.ite (fun _ => (h_s3.step (State.setReg64_touches ..) rfl)) (fun _ => (Touches.ite (fun _ => (((h_s3.step (State.setReg64_touches ..) rfl).step (State.setServo_touches ..) rfl).step (State.produce_touches ..) rfl)) (fun _ => h_s3))))

theorem State.ptpOffset_touches : ∀ s o, Touches 3247940 s (State.ptpOffset s o) := by
  intro s o
  unfold State.ptpOffset
  extract_lets +onlyGivenNames s1
  have h_s1 : Touches 3247940 s s1 := (((State.setReg_touches ..).mono rfl).step (State.count_touches ..) rfl)
  clear_value s1
  exact (Touches.ite (fun _ => h_s1) (fun _ => (Touches.ite (fun _ => ((h_s1.step (State.modPtp_touches ..) rfl).step (State.ptpStep_touches ..) rfl)) (fun _ => (Touches.ite (fun _ => (h_s1.step (State.ptpStep_touches ..) rfl)) (fun _ => (Touches.ite (fun _ => (h_s1.step (State.ptpSlew_touches ..) rfl)) (fun _ => (Touches.ite (fun _ => (h_s1.step (State.ptpConfirm_touches ..) rfl)) (fun _ => (Touches.ite (fun _ => (h_s1.step (State.ptpRefuse_touches ..) rfl)) (fun _ => ((h_s1.step (State.modPtp_touches ..) rfl).step (State.ptpCount_touches ..) rfl)))))))))))))

theorem State.ptpSynced_touches : ∀ s i origin rx, Touches 3247940 s (State.ptpSynced s i origin rx) := by
  intro s i origin rx
  unfold State.ptpSynced
  extract_lets +onlyGivenNames s1
  have h_s1 : Touches 3247940 s s1 := ((State.modPport_touches ..).mono rfl)
  clear_value s1
  exact (Touches.ite (fun _ => (h_s1.step (State.ptpOffset_touches ..) rfl)) (fun _ => h_s1))

theorem State.ptpStamp_touches : ∀ s i, Touches 33554432 s (State.ptpStamp s i).2 := by
  intro s i
  unfold State.ptpStamp
  exact ((State.stamp_touches ..).mono rfl)

theorem execPtpSync_touches : ∀ i seq twoStep sec ns corr s, Ends 36802372 s (execPtpSync i seq twoStep sec ns corr s) := by
  intro i seq twoStep sec ns corr s
  unfold execPtpSync
  refine Ends.ite (fun _ => ?_) (fun _ => ?_)
  · exact Ends.next (Touches.refl _ _)
  · extract_lets +onlyGivenNames t1
    have h_t1 : Touches 36802372 s t1.2 := ((State.ptpStamp_touches ..).mono rfl)
    clear_value t1
    extract_lets +onlyGivenNames s1
    have h_s1 : Touches 36802372 s s1 := (h_t1.step (State.modPport_touches ..) rfl)
    clear_value s1
    exact Ends.next (Touches.ite (fun _ => (h_s1.step (State.modPport_touches ..) rfl)) (fun _ => (h_s1.step (State.ptpSynced_touches ..) rfl)))

theorem execPtpFollowUp_touches : ∀ i seq sec ns corr s, Ends 3247940 s (execPtpFollowUp i seq sec ns corr s) := by
  intro i seq sec ns corr s
  unfold execPtpFollowUp
  split
  · refine Ends.ite (fun _ => ?_) (fun _ => ?_)
    · exact Ends.next (Touches.refl _ _)
    · exact Ends.next (((State.modPport_touches ..).mono rfl).step (State.ptpSynced_touches ..) rfl)
  · exact Ends.next (Touches.refl _ _)

theorem execPtpAnnounce_touches : ∀ i a s, Ends 2098756 s (execPtpAnnounce i a s) := by
  intro i a s
  unfold execPtpAnnounce
  refine Ends.ite (fun _ => ?_) (fun _ => ?_)
  · exact Ends.next (Touches.refl _ _)
  · exact Ends.next (((State.modPport_touches ..).mono rfl).step (State.ptpSelect_touches ..) rfl)

theorem execPtpReceiptTimeout_touches : ∀ i sync s, Ends 2098756 s (execPtpReceiptTimeout i sync s) := by
  intro i sync s
  unfold execPtpReceiptTimeout
  extract_lets +onlyGivenNames p last wait
  clear_value p last wait
  refine Ends.ite (fun _ => ?_) (fun _ => ?_)
  · exact Ends.next (Touches.refl _ _)
  · extract_lets +onlyGivenNames s1
    have h_s1 : Touches 2098756 s s1 := ((State.modPport_touches ..).mono rfl)
    clear_value s1
    exact Ends.next (Touches.ite (fun _ => ((h_s1.step (State.ptpNone_touches ..) rfl).step (State.ptpSelect_touches ..) rfl)) (fun _ => (h_s1.step (State.ptpSelect_touches ..) rfl)))

theorem State.ptpSend_touches : ∀ s i msgs, Touches 2097156 s (State.ptpSend s i msgs) := by
  intro s i msgs
  unfold State.ptpSend
  exact (((State.modPport_touches ..).mono rfl).step (State.count_touches ..) rfl)

theorem execPtpPdelayTimer_touches : ∀ i s, Ends 35651588 s (execPtpPdelayTimer i s) := by
  intro i s
  unfold execPtpPdelayTimer
  refine Ends.ite (fun _ => ?_) (fun _ => ?_)
  · exact Ends.next (Touches.refl _ _)
  · extract_lets +onlyGivenNames n
    clear_value n
    extract_lets +onlyGivenNames t1
    have h_t1 : Touches 35651588 s t1.2 := ((State.stamp_touches ..).mono rfl)
    clear_value t1
    extract_lets +onlyGivenNames q
    clear_value q
    exact Ends.next ((h_t1.step (State.modPport_touches ..) rfl).step (State.ptpSend_touches ..) rfl)

theorem execPtpPdelayResp_touches : ∀ i seq turn sec ns s, Ends 35653188 s (execPtpPdelayResp i seq turn sec ns s) := by
  intro i seq turn sec ns s
  unfold execPtpPdelayResp
  split
  · exact Ends.next (Touches.refl _ _)
  · refine Ends.ite (fun _ => ?_) (fun _ => ?_)
    · exact Ends.next (Touches.refl _ _)
    · extract_lets +onlyGivenNames t1
      have h_t1 : Touches 35653188 s t1.2 := ((State.ptpStamp_touches ..).mono rfl)
      clear_value t1
      extract_lets +onlyGivenNames d
      clear_value d
      split
      · exact Ends.next (h_t1.step (State.modPport_touches ..) rfl)
      · extract_lets +onlyGivenNames s1
        have h_s1 : Touches 35653188 s s1 := ((h_t1.step (State.modPport_touches ..) rfl).step (State.setReg_touches ..) rfl)
        clear_value s1
        extract_lets +onlyGivenNames s2
        have h_s2 : Touches 35653188 s s2 := (Touches.ite (fun _ => (h_s1.step (State.raise_touches ..) rfl)) (fun _ => h_s1))
        clear_value s2
        exact Ends.next (h_s2.step (State.ptpSelect_touches ..) rfl)

theorem execPtpPdelayReqReceived_touches : ∀ i seq s, Ends 2097156 s (execPtpPdelayReqReceived i seq s) := by
  intro i seq s
  unfold execPtpPdelayReqReceived
  refine Ends.ite (fun _ => ?_) (fun _ => ?_)
  · exact Ends.next (Touches.refl _ _)
  · exact Ends.next ((State.ptpSend_touches ..).mono rfl)

theorem execAccept_touches : ∀ m s, Ends 2098756 s (execAccept m s) := by
  intro m s
  unfold execAccept
  exact Ends.next (State.regWrite_touches (Touches.refl _ _) rfl (fun _ h => (Touches.ite (fun _ => (h.step (State.stateWrite_touches ..) rfl)) (fun _ => ((h.step (State.modPtp_touches ..) rfl).step (State.setServo_touches ..) rfl)))))

theorem execDiscard_touches : ∀ m s, Ends 2098244 s (execDiscard m s) := by
  intro m s
  unfold execDiscard
  exact Ends.next (State.regWrite_touches (Touches.refl _ _) rfl (fun _ h => (Touches.ite (fun _ => (h.step (State.stateWrite_touches ..) rfl)) (fun _ => ((h.step (State.modPtp_touches ..) rfl).step (State.ptpCount_touches ..) rfl)))))

end Sys2Proof.Machine
end

