-- ==== Sys2Proof/Laws/Touch/SwQueue.lean ====
section
/-!
SUPPORT. What each operation of Machine/SwQueue.lean may touch (see Laws/Touches.lean).
-/

-- One proof at a time bounds the threads and memory of a compile.
set_option Elab.async false

namespace Sys2Proof.Machine

open Sys2Proof

theorem State.takeItem_touches : ∀ s slot q d b, Touches 11847 s (State.takeItem s slot q d b).1 := by
  intro s slot q d b
  unfold State.takeItem
  change Touches1 11847 s _
  extract_lets +onlyGivenNames r desc
  clear_value r desc
  extract_lets +onlyGivenNames s1
  have h_s1 : Touches 11847 s s1 := by
    unfold s1
    split
    · exact ((((State.onQm_touches ..).mono rfl).step (State.modHold_touches ..) rfl).step (State.countWrap_touches ..) rfl)
    · exact ((State.qDrop_touches ..).mono rfl)
  clear_value s1
  extract_lets +onlyGivenNames s2
  have h_s2 : Touches 11847 s s2 := (h_s1.step (State.holdTake_touches ..) rfl)
  clear_value s2
  extract_lets +onlyGivenNames h
  clear_value h
  exact h_s2

theorem State.qtake_touches : ∀ s p t w wait, Touches 33697351 s (State.qtake s p t w wait) := by
  intro s p t w wait
  unfold State.qtake
  extract_lets +onlyGivenNames x q
  clear_value x q
  refine (Touches.ite (fun _ => ((State.wrongState_touches ..).mono rfl)) (fun _ => (Touches.ite (fun _ => (((State.retire_touches ..).mono rfl).step (State.idle_touches ..) rfl)) (fun _ => ?_))))
  extract_lets +onlyGivenNames park
  have h_park : Touches 33697351 s park := (((State.waitFor_touches ..).mono rfl).step (State.onQm_touches ..) rfl)
  clear_value park
  refine (Touches.ite (fun _ => (Touches.ite (fun _ => h_park) (fun _ => ?_))) (fun _ => ?_))
  · extract_lets +onlyGivenNames r
    have h_r : Touches 33697351 s r.2 := ((State.drawWord_touches ..).mono rfl)
    clear_value r
    exact (h_r.step (State.done_touches ..) rfl)
  · split
    · exact ((State.done_touches ..).mono rfl)
    · refine (Touches.ite (fun _ => ((State.done_touches ..).mono rfl)) (fun _ => (Touches.ite (fun _ => ?_) (fun _ => (Touches.ite (fun _ => h_park) (fun _ => ((State.done_touches ..).mono rfl)))))))
      extract_lets +onlyGivenNames r
      have h_r : Touches 33697351 s r.1 := ((State.takeItem_touches ..).mono rfl)
      clear_value r
      exact (h_r.step (State.done_touches ..) rfl)

theorem execQtake_touches : ∀ p t s, Ends 33697351 s (execQtake p t s) := by
  intro p t s
  unfold execQtake
  exact Ends.next (State.issue_touches (Touches.refl _ _) rfl (fun _ _ h => (h.step (State.qtake_touches ..) rfl)))

theorem execQtry_touches : ∀ p t s, Ends 33697351 s (execQtry p t s) := by
  intro p t s
  unfold execQtry
  exact Ends.next (State.issue_touches (Touches.refl _ _) rfl (fun _ _ h => (h.step (State.qtake_touches ..) rfl)))

theorem State.enginePush_touches : ∀ s p t q d, Touches 33697351 s (State.enginePush s p t q d).2 := by
  intro s p t q d
  unfold State.enginePush
  change Touches2 33697351 s _
  split
  · extract_lets +onlyGivenNames r
    have h_r : Touches 33697351 s r.2 := ((State.drawWord_touches ..).mono rfl)
    clear_value r
    exact h_r
  · extract_lets +onlyGivenNames stale
    clear_value stale
    split
    · show Touches _ _ _
      dsimp only
      exact (((State.stale_touches ..).mono rfl).step (State.modThr_touches ..) rfl)
    · split
      · exact ((State.count_touches ..).mono rfl)
      · split
        · exact Touches.refl _ _
        · split
          · exact Touches.refl _ _
          · exact ((State.qLand_touches ..).mono rfl)

theorem State.qpush_touches : ∀ s p t w wait, Touches 33697351 s (State.qpush s p t w wait) := by
  intro s p t w wait
  unfold State.qpush
  extract_lets +onlyGivenNames x q d
  clear_value x q d
  extract_lets +onlyGivenNames r
  have h_r : Touches 33697351 s r.2 := ((State.enginePush_touches ..).mono rfl)
  clear_value r
  split
  · exact (h_r.step (State.done_touches ..) rfl)
  · exact (Touches.ite (fun _ => ((State.waitFor_touches ..).mono rfl)) (fun _ => ((State.done_touches ..).mono rfl)))

theorem execQpush_touches : ∀ p t s, Ends 33697351 s (execQpush p t s) := by
  intro p t s
  unfold execQpush
  exact Ends.next (State.issue_touches (Touches.refl _ _) rfl (fun _ _ h => (h.step (State.qpush_touches ..) rfl)))

theorem execQpushnb_touches : ∀ p t s, Ends 33697351 s (execQpushnb p t s) := by
  intro p t s
  unfold execQpushnb
  exact Ends.next (State.issue_touches (Touches.refl _ _) rfl (fun _ _ h => (h.step (State.qpush_touches ..) rfl)))

theorem State.endItem_touches {K : Nat} {s u : State} {p t : Nat} {w : Word} {eff : Nat → State → State} (h : Touches K s u)
    (hk : Nat.land 33686596 K = 33686596) (hf : ∀ w t, Touches K s t → Touches K s (eff w t)) :
    Touches K s (State.endItem u p t w eff) := by
  have hd : ∀ {v} {g}, Touches K s v → Touches K s (v.done p t g) := fun hv =>
    hv.step (State.done_touches ..) (land_sub rfl hk)
  unfold State.endItem
  split
  · exact h.step (State.wrongState_touches ..) (land_sub rfl hk)
  split
  · exact hd (h.step (State.drawWord_touches ..) (land_sub rfl hk))
  split
  · exact hd (hf _ _ h)
  · exact hd (h.step (State.stale_touches ..) (land_sub rfl hk))

theorem execQdone_touches : ∀ p t s, Ends 33688644 s (execQdone p t s) := by
  intro p t s
  unfold execQdone
  exact Ends.next (State.issue_touches (Touches.refl _ _) rfl (fun _ _ h => (State.endItem_touches h rfl (fun _ _ h => (h.step (State.holdDone_touches ..) rfl)))))

theorem execQrel_touches : ∀ p t s, Ends 33697351 s (execQrel p t s) := by
  intro p t s
  unfold execQrel
  exact Ends.next (State.issue_touches (Touches.refl _ _) rfl (fun _ _ h => (State.endItem_touches h rfl (fun _ _ h => (h.step (State.holdReissue_touches ..) rfl)))))

theorem execQlevel_touches : ∀ p t s, Ends 33686596 s (execQlevel p t s) := by
  intro p t s
  unfold execQlevel
  refine Ends.next (State.issue_touches (Touches.refl _ _) rfl (fun _ _ h => ?_))
  extract_lets +onlyGivenNames q
  clear_value q
  extract_lets +onlyGivenNames r
  have h_r' : Touches2 33686596 s r := by
    unfold r
    split
    · exact h
    · exact (h.step (State.drawWord_touches ..) rfl)
  have h_r : Touches 33686596 s r.2 := h_r'
  clear_value r
  exact (h_r.step (State.done_touches ..) rfl)

theorem execQueueTake_touches : ∀ p q e s, Ends 8400455 s (execQueueTake p q e s) := by
  intro p q e s
  unfold execQueueTake
  refine Ends.ite (fun _ => ?_) (fun _ => ?_)
  · exact Ends.next (Touches.refl _ _)
  · extract_lets +onlyGivenNames r
    have h_r : Touches 8400455 s r.2 := (((State.qEcc_touches ..).mono rfl).step (State.take_touches ..) rfl)
    clear_value r
    exact Ends.next (h_r.step (State.onResp_touches ..) rfl)

theorem State.dmaBus_touches : ∀ s x1, Touches 1604 s (State.dmaBus s x1).2 := by
  intro s x1
  induction x1 generalizing s
  · unfold State.dmaBus
    change Touches2 1604 s _
    exact Touches.refl _ _
  · rename_i ih
    unfold State.dmaBus
    change Touches2 1604 s _
    extract_lets +onlyGivenNames r
    have h_r : Touches 1604 s r.2 := ((State.busRead_touches ..).mono rfl)
    clear_value r
    extract_lets +onlyGivenNames q
    have h_q : Touches 1604 s q.2 := (h_r.step (ih ..) rfl)
    clear_value q
    exact h_q

theorem State.dmaSource_touches : ∀ s p a row n, Touches 1604 s (State.dmaSource s p a row n).2 := by
  intro s p a row n
  unfold State.dmaSource
  change Touches2 1604 s _
  extract_lets +onlyGivenNames bus
  split
  · split
    · exact Touches.refl _ _
    · unfold bus
      beta_reduce
      exact ((State.dmaBus_touches ..).mono rfl)
    · exact Touches.refl _ _
  · unfold bus
    beta_reduce
    exact ((State.dmaBus_touches ..).mono rfl)

theorem State.dmaUnit_touches : ∀ s p localMem a bs, Touches 140871 s (State.dmaUnit s p localMem a bs) := by
  intro s p localMem a bs
  unfold State.dmaUnit
  extract_lets +onlyGivenNames bad raw
  clear_value bad raw
  exact (Touches.ite (fun _ => (Touches.ite (fun _ => ((State.setDpoison_touches ..).mono rfl)) (fun _ => ((State.dstore_touches ..).mono rfl)))) (fun _ => (Touches.ite (fun _ => ((State.busPoison_touches ..).mono rfl)) (fun _ => ((State.busWrite_touches ..).mono rfl)))))

theorem State.dmaUnits_touches : ∀ s p localMem a bs, Touches 140871 s (State.dmaUnits s p localMem a bs) := by
  intro s p localMem a bs
  unfold State.dmaUnits
  exact (Touches.foldl (Touches.refl _ _) (fun _ _ h => (h.step (State.dmaUnit_touches ..) rfl)))

theorem State.dmaDest_touches : ∀ s p a row bs, Touches 140871 s (State.dmaDest s p a row bs) := by
  intro s p a row bs
  unfold State.dmaDest
  refine (Touches.ite (fun _ => ?_) (fun _ => ((State.dmaUnits_touches ..).mono rfl)))
  split
  · exact ((State.dmaUnits_touches ..).mono rfl)
  · exact ((State.dmaUnits_touches ..).mono rfl)
  · exact Touches.refl _ _

theorem State.dmaRow_touches : ∀ s p d bad r n, Touches 140871 s (State.dmaRow s p d bad r n) := by
  intro s p d bad r n
  unfold State.dmaRow
  extract_lets +onlyGivenNames a
  clear_value a
  extract_lets +onlyGivenNames got
  have h_got' : Touches2 140871 s got := by
    unfold got
    split
    · exact Touches.refl _ _
    · exact ((State.dmaSource_touches ..).mono rfl)
  have h_got : Touches 140871 s got.2 := h_got'
  clear_value got
  extract_lets +onlyGivenNames marked
  clear_value marked
  exact (h_got.step (State.dmaDest_touches ..) rfl)

theorem State.dmaCopy_touches : ∀ s p d bad n, Touches 140871 s (State.dmaCopy s p d bad n) := by
  intro s p d bad n
  unfold State.dmaCopy
  exact (Touches.foldl (Touches.refl _ _) (fun _ _ h => (h.step (State.dmaRow_touches ..) rfl)))

theorem State.dmaErr_touches : ∀ s p d e i, Touches 1604 s (State.dmaErr s p d e i).2 := by
  intro s p d e i
  have hq : ∀ x : EngAddr, Touches 1604 s (match x with
      | .dmem _ => s.dmemErr p e
      | .shm k _ => s.shmErr k e
      | .bad => (.clean, s)).2 := by
    intro x
    cases x with
    | dmem _ => exact (State.dmemErr_touches ..).mono rfl
    | shm _ _ => exact (State.shmErr_touches ..).mono rfl
    | bad => exact Touches.refl _ _
  exact hq _

theorem State.dmaHalt_touches : ∀ s p t status, Touches 132164 s (State.dmaHalt s p t status) := by
  intro s p t status
  unfold State.dmaHalt
  exact ((((State.modThr_touches ..).mono rfl).step (State.raise_touches ..) rfl).step (State.setInt_touches ..) rfl)

theorem execDmaDescComplete_touches : ∀ p t bus e i s, Ends 140871 s (execDmaDescComplete p t bus e i s) := by
  intro p t bus e i s
  unfold execDmaDescComplete
  split
  · exact Ends.next (Touches.refl _ _)
  · extract_lets +onlyGivenNames d
    clear_value d
    refine Ends.next (Touches.ite (fun _ => Touches.refl _ _) (fun _ => (Touches.ite (fun _ => ((State.dmaHalt_touches ..).mono rfl)) (fun _ => (Touches.ite (fun _ => ((State.dmaHalt_touches ..).mono rfl)) (fun _ => (Touches.ite (fun _ => ((State.dmaHalt_touches ..).mono rfl)) (fun _ => ?_))))))))
    extract_lets +onlyGivenNames w
    have h_w : Touches 140871 s w.2 := ((State.dmaErr_touches ..).mono rfl)
    clear_value w
    extract_lets +onlyGivenNames s1
    have h_s1 : Touches 140871 s s1 := ((h_w.step (State.dmaCopy_touches ..) rfl).step (State.modThr_touches ..) rfl)
    clear_value s1
    exact (Touches.ite (fun _ => (h_s1.step (State.produce_touches ..) rfl)) (fun _ => h_s1))

theorem State.dmaCancel_touches : ∀ s p t, Touches 33695303 s (State.dmaCancel s p t) := by
  intro s p t
  unfold State.dmaCancel
  split
  · exact Touches.refl _ _
  · extract_lets +onlyGivenNames d
    clear_value d
    extract_lets +onlyGivenNames got
    have h_got : Touches 33695303 s got.2 := ((State.drawNat_touches ..).mono rfl)
    clear_value got
    extract_lets +onlyGivenNames s1
    have h_s1 : Touches 33695303 s s1 := (Touches.ite (fun _ => (h_got.step (State.dmaCopy_touches ..) rfl)) (fun _ => Touches.refl _ _))
    clear_value s1
    exact (h_s1.step (State.modThr_touches ..) rfl)

theorem execDmaq_touches : ∀ p t e s, Ends 132164 s (execDmaq p t e s) := by
  intro p t e s
  unfold execDmaq
  refine Ends.next (State.issue_touches (Touches.refl _ _) rfl (fun _ _ h => ?_))
  extract_lets +onlyGivenNames x a
  clear_value x a
  refine (Touches.ite (fun _ => (h.step (State.trap_touches ..) rfl)) (fun _ => (Touches.ite (fun _ => (h.step (State.trap_touches ..) rfl)) (fun _ => (Touches.ite (fun _ => (h.step (State.wrongState_touches ..) rfl)) (fun _ => ?_))))))
  extract_lets +onlyGivenNames desc
  clear_value desc
  extract_lets +onlyGivenNames r
  have h_r : Touches 132164 s r.2 := (h.step (State.dmemErr_touches ..) rfl)
  clear_value r
  extract_lets +onlyGivenNames bad
  clear_value bad
  exact (Touches.ite (fun _ => (h_r.step (State.done_touches ..) rfl)) (fun _ => (h_r.step (State.waitFor_touches ..) rfl)))

theorem execDmaw_touches : ∀ p t s, Ends 132164 s (execDmaw p t s) := by
  intro p t s
  unfold execDmaw
  refine Ends.next (State.issue_touches (Touches.refl _ _) rfl (fun _ _ h => ?_))
  extract_lets +onlyGivenNames x k
  clear_value x k
  exact (Touches.ite (fun _ => (h.step (State.waitFor_touches ..) rfl)) (fun _ => (h.step (State.done_touches ..) rfl)))

theorem execDmat_touches : ∀ p t s, Ends 132164 s (execDmat p t s) := by
  intro p t s
  unfold execDmat
  exact Ends.next (State.issue_touches (Touches.refl _ _) rfl (fun _ _ h => (h.step (State.done_touches ..) rfl)))

theorem execDmarst_touches : ∀ p t s, Ends 33695303 s (execDmarst p t s) := by
  intro p t s
  unfold execDmarst
  exact Ends.next (State.issue_touches (Touches.refl _ _) rfl (fun _ _ h => ((h.step (State.dmaCancel_touches ..) rfl).step (State.done_touches ..) rfl)))

theorem State.amo_touches : ∀ s p t w e f, Touches 140871 s (State.amo s p t w e f) := by
  intro s p t w e f
  unfold State.amo
  extract_lets +onlyGivenNames x a
  clear_value x a
  refine (State.load_touches (Touches.refl _ _) rfl (fun _ _ h => ?_))
  extract_lets +onlyGivenNames old new
  clear_value old new
  exact ((h.step (State.engStore_touches ..) rfl).step (State.done_touches ..) rfl)

theorem execAmoadd_touches : ∀ p t e s, Ends 140871 s (execAmoadd p t e s) := by
  intro p t e s
  unfold execAmoadd
  exact Ends.next (State.issue_touches (Touches.refl _ _) rfl (fun _ _ h => (h.step (State.amo_touches ..) rfl)))

theorem execAmoswap_touches : ∀ p t e s, Ends 140871 s (execAmoswap p t e s) := by
  intro p t e s
  unfold execAmoswap
  exact Ends.next (State.issue_touches (Touches.refl _ _) rfl (fun _ _ h => (h.step (State.amo_touches ..) rfl)))

theorem execAmomin_touches : ∀ p t e s, Ends 140871 s (execAmomin p t e s) := by
  intro p t e s
  unfold execAmomin
  exact Ends.next (State.issue_touches (Touches.refl _ _) rfl (fun _ _ h => (h.step (State.amo_touches ..) rfl)))

theorem execAmomax_touches : ∀ p t e s, Ends 140871 s (execAmomax p t e s) := by
  intro p t e s
  unfold execAmomax
  exact Ends.next (State.issue_touches (Touches.refl _ _) rfl (fun _ _ h => (h.step (State.amo_touches ..) rfl)))

theorem execAmominu_touches : ∀ p t e s, Ends 140871 s (execAmominu p t e s) := by
  intro p t e s
  unfold execAmominu
  exact Ends.next (State.issue_touches (Touches.refl _ _) rfl (fun _ _ h => (h.step (State.amo_touches ..) rfl)))

theorem execAmomaxu_touches : ∀ p t e s, Ends 140871 s (execAmomaxu p t e s) := by
  intro p t e s
  unfold execAmomaxu
  exact Ends.next (State.issue_touches (Touches.refl _ _) rfl (fun _ _ h => (h.step (State.amo_touches ..) rfl)))

theorem execAmocas_touches : ∀ p t e s, Ends 140871 s (execAmocas p t e s) := by
  intro p t e s
  unfold execAmocas
  exact Ends.next (State.issue_touches (Touches.refl _ _) rfl (fun _ _ h => (h.step (State.amo_touches ..) rfl)))

theorem State.barRelease_touches : ∀ s k b status, Touches 131072 s (State.barRelease s k b status) := by
  intro s k b status
  unfold State.barRelease
  exact (Touches.foldl (Touches.refl _ _) (fun _ _ h => (h.step (State.resume_touches ..) rfl)))

theorem execBar_touches : ∀ p t s, Ends 132164 s (execBar p t s) := by
  intro p t s
  unfold execBar
  refine Ends.next (State.issue_touches (Touches.refl _ _) rfl (fun _ _ h => ?_))
  extract_lets +onlyGivenNames k b n
  clear_value k b n
  refine (Touches.ite (fun _ => (h.step (State.waitFor_touches ..) rfl)) (fun _ => (Touches.ite (fun _ => ?_) (fun _ => ((h.step (State.setFld_touches ..) rfl).step (State.waitFor_touches ..) rfl)))))
  extract_lets +onlyGivenNames u1
  have h_u1 : Touches 132164 s u1 := (((h.step (State.setFld_touches ..) rfl).step (State.putBit_touches ..) rfl).step (State.countWrap_touches ..) rfl)
  clear_value u1
  exact ((h_u1.step (State.barRelease_touches ..) rfl).step (State.done_touches ..) rfl)

theorem State.barBreak_touches : ∀ s k, Touches 132676 s (State.barBreak s k) := by
  intro s k
  unfold State.barBreak
  refine (Touches.foldl (Touches.refl _ _) (fun _ _ h => (Touches.ite (fun _ => h) (fun _ => ?_))))
  extract_lets +onlyGivenNames u1
  have h_u1 : Touches 132676 s u1 := ((h.step (State.setFld_touches ..) rfl).step (State.putBit_touches ..) rfl)
  clear_value u1
  exact (((h_u1.step (State.barRelease_touches ..) rfl).step (State.raise_touches ..) rfl).step (State.produce_touches ..) rfl)

theorem execSigev_touches : ∀ p t s, Ends 132676 s (execSigev p t s) := by
  intro p t s
  unfold execSigev
  exact Ends.next (State.issue_touches (Touches.refl _ _) rfl (fun _ _ h => ((h.step (State.produce_touches ..) rfl).step (State.done_touches ..) rfl)))

theorem execWaitev_touches : ∀ p t s, Ends 132676 s (execWaitev p t s) := by
  intro p t s
  unfold execWaitev
  exact Ends.next (State.issue_touches (Touches.refl _ _) rfl (fun _ _ h => (Touches.ite (fun _ => ((h.step (State.setBusy_touches ..) rfl).step (State.done_touches ..) rfl)) (fun _ => (h.step (State.waitFor_touches ..) rfl)))))

theorem execTestev_touches : ∀ p t s, Ends 132676 s (execTestev p t s) := by
  intro p t s
  unfold execTestev
  refine Ends.next (State.issue_touches (Touches.refl _ _) rfl (fun _ _ h => ?_))
  extract_lets +onlyGivenNames b
  clear_value b
  exact ((h.step (State.setBusy_touches ..) rfl).step (State.done_touches ..) rfl)

theorem execEngineEventIn_touches : ∀ p k s, Ends 33348 s (execEngineEventIn p k s) := by
  intro p k s
  unfold execEngineEventIn
  extract_lets +onlyGivenNames w
  clear_value w
  exact Ends.next (Touches.ite (fun _ => ((State.reachInput_touches ..).mono rfl)) (fun _ => Touches.refl _ _))

theorem execThreadWaitEnd_touches : ∀ p t s, Ends 33697351 s (execThreadWaitEnd p t s) := by
  intro p t s
  unfold execThreadWaitEnd
  extract_lets +onlyGivenNames x
  clear_value x
  refine Ends.next (Touches.ite (fun _ => Touches.refl _ _) (fun _ => ?_))
  split
  · exact Touches.refl _ _
  · refine (Touches.ite (fun _ => ((State.idle_touches ..).mono rfl)) (fun _ => (Touches.ite (fun _ => Touches.refl _ _) (fun _ => ?_))))
    split
    · refine (Touches.ite (fun _ => ?_) (fun _ => Touches.refl _ _))
      extract_lets +onlyGivenNames s1
      have h_s1 : Touches 33697351 s s1 := ((State.onQm_touches ..).mono rfl)
      clear_value s1
      extract_lets +onlyGivenNames r
      have h_r : Touches 33697351 s r.1 := (h_s1.step (State.takeItem_touches ..) rfl)
      clear_value r
      exact (h_r.step (State.resume_touches ..) rfl)
    · exact Touches.refl _ _
  · extract_lets +onlyGivenNames r
    have h_r : Touches 33697351 s r.2 := ((State.enginePush_touches ..).mono rfl)
    clear_value r
    split
    · exact (h_r.step (State.resume_touches ..) rfl)
    · exact Touches.refl _ _
  · exact (Touches.ite (fun _ => ((State.wrongState_touches ..).mono rfl)) (fun _ => (Touches.ite (fun _ => ((State.resume_touches ..).mono rfl)) (fun _ => Touches.refl _ _))))
  · exact (Touches.ite (fun _ => Touches.refl _ _) (fun _ => ((State.resume_touches ..).mono rfl)))
  · exact Touches.refl _ _
  · exact (Touches.ite (fun _ => (((State.setBusy_touches ..).mono rfl).step (State.resume_touches ..) rfl)) (fun _ => Touches.refl _ _))

end Sys2Proof.Machine
end

