-- ==== Sys2Proof/Laws/Touch/SwCtl.lean ====
section
/-!
SUPPORT. What each operation of Machine/SwCtl.lean may touch (see Laws/Touches.lean).
-/

-- One proof at a time bounds the threads and memory of a compile.
set_option Elab.async false

namespace Sys2Proof.Machine

open Sys2Proof

theorem State.thrCmd_touches {K : Nat} {s u : State} {m : Master} {p : Nat} {eff : Nat → State → State} (h : Touches K s u)
    (hk : Nat.land 1092 K = 1092) (heff : ∀ c t, Touches K s t → Touches K s (eff c t)) :
    Touches K s (State.thrCmd u m p eff) := State.regWrite_touches h hk (fun _ ht => heff _ _ ht)

theorem execThrStart_touches : ∀ m p s, Ends 132164 s (execThrStart m p s) := by
  intro m p s
  unfold execThrStart
  refine Ends.next (State.thrCmd_touches (Touches.refl _ _) rfl (fun _ _ h => ?_))
  extract_lets +onlyGivenNames x
  clear_value x
  exact (Touches.ite (fun _ => ((h.step (State.wdStart_touches ..) rfl).step (State.modThr_touches ..) rfl)) (fun _ => (h.step (State.stateWrite_touches ..) rfl)))

theorem execPark_touches : ∀ m p s, Ends 134212 s (execPark m p s) := by
  intro m p s
  unfold execPark
  refine Ends.next (State.thrCmd_touches (Touches.refl _ _) rfl (fun _ _ h => ?_))
  extract_lets +onlyGivenNames x
  clear_value x
  refine (Touches.ite (fun _ => h) (fun _ => ?_))
  split
  · exact (h.step (State.idle_touches ..) rfl)
  · exact (h.step (State.modThr_touches ..) rfl)

theorem State.thrReset_touches : ∀ s p t visible, Touches 33697351 s (State.thrReset s p t visible) := by
  intro s p t visible
  unfold State.thrReset
  exact ((((State.reissueItem_touches ..).mono rfl).step (State.dmaCancel_touches ..) rfl).step (State.idle_touches ..) rfl)

theorem execThrReset_touches : ∀ m p s, Ends 33697351 s (execThrReset m p s) := by
  intro m p s
  unfold execThrReset
  exact Ends.next (State.thrCmd_touches (Touches.refl _ _) rfl (fun _ _ h => (h.step (State.thrReset_touches ..) rfl)))

theorem execItemTimeout_touches : ∀ p t s, Ends 132164 s (execItemTimeout p t s) := by
  intro p t s
  unfold execItemTimeout
  extract_lets +onlyGivenNames x us
  clear_value x us
  split
  · exact Ends.next (Touches.refl _ _)
  · refine Ends.ite (fun _ => ?_) (fun _ => ?_)
    · exact Ends.next (Touches.refl _ _)
    · extract_lets +onlyGivenNames s1
      have h_s1 : Touches 132164 s s1 := ((State.modThr_touches ..).mono rfl)
      clear_value s1
      exact Ends.next ((h_s1.step (State.trap_touches ..) rfl).step (State.raise_touches ..) rfl)

theorem execWatchdog_touches : ∀ p s, Ends 1092 s (execWatchdog p s) := by
  intro p s
  unfold execWatchdog
  exact Ends.next (Touches.ite (fun _ => ((State.raise_touches ..).mono rfl)) (fun _ => Touches.refl _ _))

theorem State.engStop_touches : ∀ s p visible, Touches 33697351 s (State.engStop s p visible) := by
  intro s p visible
  unfold State.engStop
  exact (Touches.foldl (Touches.refl _ _) (fun _ _ h => (h.step (State.thrReset_touches ..) rfl)))

theorem State.engReset_touches : ∀ s p, Touches 33697351 s (State.engReset s p) := by
  intro s p
  unfold State.engReset
  extract_lets +onlyGivenNames s1
  have h_s1 : Touches 33697351 s s1 := ((State.engStop_touches ..).mono rfl)
  clear_value s1
  exact (h_s1.step (State.onSwarm_touches ..) rfl)

theorem State.readImage_touches : ∀ s p a, Touches 1604 s (State.readImage s p a).2 := by
  intro s p a
  unfold State.readImage
  change Touches2 1604 s _
  extract_lets +onlyGivenNames h
  have h_h : Touches 1604 s h.2 := ((State.busRead_touches ..).mono rfl)
  clear_value h
  extract_lets +onlyGivenNames w len
  clear_value w len
  split
  · exact h_h
  · extract_lets +onlyGivenNames c
    have h_c : Touches 1604 s c.2 := (h_h.step (State.dmaSource_touches ..) rfl)
    clear_value c
    extract_lets +onlyGivenNames bytes
    clear_value bytes
    split
    · exact h_c
    · exact h_c

theorem State.putImage_touches : ∀ s p i, Touches 131076 s (State.putImage s p i) := by
  intro s p i
  unfold State.putImage
  exact (((State.modEng_touches ..).mono rfl).step (State.setRegs32_touches ..) rfl)

theorem execLoadCtrlGo_touches : ∀ m k v s, Ends 132164 s (execLoadCtrlGo m k v s) := by
  intro m k v s
  unfold execLoadCtrlGo
  refine Ends.next (State.regWrite_touches (Touches.refl _ _) rfl (fun _ h => (Touches.ite (fun _ => (h.step (State.setFld_touches ..) rfl)) (fun _ => (Touches.ite (fun _ => (h.step (State.stateWrite_touches ..) rfl)) (fun _ => ?_))))))
  extract_lets +onlyGivenNames u1
  have h_u1 : Touches 132164 s u1 := (h.step (State.setFld_touches ..) rfl)
  clear_value u1
  extract_lets +onlyGivenNames all bad acc
  clear_value all bad acc
  extract_lets +onlyGivenNames u2
  have h_u2 : Touches 132164 s u2 := (h_u1.step (State.setReg_touches ..) rfl)
  clear_value u2
  extract_lets +onlyGivenNames u3
  have h_u3 : Touches 132164 s u3 := (h_u2.step (State.onSwarm_touches ..) rfl)
  clear_value u3
  exact (Touches.ite (fun _ => h_u3) (fun _ => (h_u3.step (State.raise_touches ..) rfl)))

theorem execProgramLoadDone_touches : ∀ k s, Ends 132676 s (execProgramLoadDone k s) := by
  intro k s
  unfold execProgramLoadDone
  split
  · exact Ends.next (Touches.refl _ _)
  · refine Ends.ite (fun _ => ?_) (fun _ => ?_)
    · exact Ends.next (Touches.refl _ _)
    · extract_lets +onlyGivenNames s1
      have h_s1 : Touches 132676 s s1 := (((State.onSwarm_touches ..).mono rfl).step (State.putBit_touches ..) rfl)
      clear_value s1
      extract_lets +onlyGivenNames slots
      clear_value slots
      extract_lets +onlyGivenNames r
      have h_r : Touches 132676 s r.2 := (h_s1.step (State.readImage_touches ..) rfl)
      clear_value r
      split
      · extract_lets +onlyGivenNames s2
        have h_s2 : Touches 132676 s s2 := (Touches.foldl h_r (fun _ _ h => (h.step (State.modEng_touches ..) rfl)))
        clear_value s2
        exact Ends.next (((h_s2.step (State.putBit_touches ..) rfl).step (State.raise_touches ..) rfl).step (State.produce_touches ..) rfl)
      · extract_lets +onlyGivenNames s2
        have h_s2 : Touches 132676 s s2 := (Touches.foldl h_r (fun _ _ h => ((h.step (State.putImage_touches ..) rfl).step (State.setReg64_touches ..) rfl)))
        clear_value s2
        exact Ends.next ((h_s2.step (State.setFld_touches ..) rfl).step (State.produce_touches ..) rfl)

theorem execBistCmd_touches : ∀ m k v s, Ends 1092 s (execBistCmd m k v s) := by
  intro m k v s
  unfold execBistCmd
  refine Ends.next (State.regWrite_touches (Touches.refl _ _) rfl (fun _ h => ?_))
  extract_lets +onlyGivenNames p
  clear_value p
  exact (Touches.ite (fun _ => h) (fun _ => (Touches.ite (fun _ => (h.step (State.stateWrite_touches ..) rfl)) (fun _ => ((h.step (State.setReg_touches ..) rfl).step (State.setReg_touches ..) rfl)))))

end Sys2Proof.Machine
end

