-- ==== Sys2Proof/Laws/Touch/Fences.lean ====
section
/-!
SUPPORT. What each operation of Machine/Fences.lean may touch (see Laws/Touches.lean).
-/

-- One proof at a time bounds the threads and memory of a compile.
set_option Elab.async false

namespace Sys2Proof.Machine

open Sys2Proof

theorem State.capLoseAll_touches : ∀ s, Touches 32768 s (State.capLoseAll s) := by
  intro s
  unfold State.capLoseAll
  exact (Touches.foldl (Touches.refl _ _) (fun _ _ h => (h.step (State.modStream_touches ..) rfl)))

theorem State.blockFenced_touches : ∀ s p, Touches 41397831 s (State.blockFenced s p) := by
  intro s p
  unfold State.blockFenced
  split
  · exact ((State.capBreakAll_touches ..).mono rfl)
  · exact ((State.capBreakAll_touches ..).mono rfl)
  · exact ((State.capLoseAll_touches ..).mono rfl)
  · exact ((State.pipeFenced_touches ..).mono rfl)
  · exact ((State.engStop_touches ..).mono rfl)
  · exact ((State.codecFenced_touches ..).mono rfl)
  · exact ((State.codecFenced_touches ..).mono rfl)
  · exact ((State.codecFenced_touches ..).mono rfl)
  · exact ((State.tdmLeave_touches ..).mono rfl)
  · exact ((State.macFenced_touches ..).mono rfl)
  · exact ((State.ptpNone_touches ..).mono rfl)
  · exact ((State.ssdOffline_touches ..).mono rfl)
  · exact ((State.ctiFenced_touches ..).mono rfl)
  · exact (Touches.ite (fun _ => Touches.refl _ _) (fun _ => ((State.pairFailed_touches ..).mono rfl)))
  · exact ((State.onQm_touches ..).mono rfl)
  · exact Touches.refl _ _

theorem State.fenceRest_touches : ∀ s i, Touches 41397831 s (State.fenceRest s i) := by
  intro s i
  unfold State.fenceRest
  extract_lets +onlyGivenNames s1
  have h_s1 : Touches 41397831 s s1 := (Touches.foldl (Touches.refl _ _) (fun _ _ h => (Touches.ite (fun _ => h) (fun _ => (h.step (State.blockFenced_touches ..) rfl)))))
  clear_value s1
  exact (h_s1.step (State.onDep_touches ..) rfl)

theorem State.fenceNow_touches : ∀ s p c b, Touches 41397831 s (State.fenceNow s p c b) := by
  intro s p c b
  unfold State.fenceNow
  exact (((State.fence_touches ..).mono rfl).step (State.fenceRest_touches ..) rfl)

theorem execFenceNotice_touches : ∀ p s, Ends 41397831 s (execFenceNotice p s) := by
  intro p s
  unfold execFenceNotice
  split
  · exact Ends.next (Touches.refl _ _)
  · refine Ends.ite (fun _ => ?_) (fun _ => ?_)
    · exact Ends.next (Touches.refl _ _)
    · extract_lets +onlyGivenNames s1
      have h_s1 : Touches 41397831 s s1 := (Touches.ite (fun _ => Touches.refl _ _) (fun _ => ((State.blockFenced_touches ..).mono rfl)))
      clear_value s1
      extract_lets +onlyGivenNames s2
      have h_s2 : Touches 41397831 s s2 := (h_s1.step (State.onDep_touches ..) rfl)
      clear_value s2
      exact Ends.next (((h_s2.step (State.silkOf_touches ..) rfl).step (State.setInt_touches ..) rfl).step (State.produce_touches ..) rfl)

theorem State.clearPage_touches : ∀ s p keep, Touches 636 s (State.clearPage s p keep) := by
  intro s p keep
  unfold State.clearPage
  extract_lets +onlyGivenNames out s1
  have h_s1 : Touches 636 s s1 := (((((State.onRegs_touches _ _ (Map.wf_keep _ _ _)).mono rfl).step (State.onShadow_touches _ _ (Map.wf_keep _ _ _)) rfl).step (State.onFrozen_touches _ _ (Map.wf_keep _ _ _)) rfl).step (State.onLatch_touches _ _ (Map.wf_keep _ _ _)) rfl)
  clear_value s1
  exact ((h_s1.step (State.modPage_touches ..) rfl).step (State.onEvf_touches ..) rfl)

theorem State.dlkForget_touches : ∀ s n, Touches 1028 s (State.dlkForget s n) := by
  intro s n
  unfold State.dlkForget
  refine (Touches.foldl (Touches.refl _ _) (fun _ _ h => ?_))
  split
  · exact (((h.step (State.setReg_touches ..) rfl).step (State.setReg_touches ..) rfl).step (State.onDep_touches ..) rfl)
  · exact h

theorem State.blockQuit_touches : ∀ s p hard, Touches 41926471 s (State.blockQuit s p hard) := by
  intro s p hard
  unfold State.blockQuit
  split
  · extract_lets +onlyGivenNames i
    clear_value i
    exact (((State.capBreakAll_touches ..).mono rfl).step (State.onCap_touches ..) rfl)
  · extract_lets +onlyGivenNames n
    clear_value n
    exact ((((State.capBreakAll_touches ..).mono rfl).step (State.dlkForget_touches ..) rfl).step (State.onCap_touches ..) rfl)
  · exact (Touches.foldl (Touches.refl _ _) (fun _ _ h => (h.step (State.capDisable_touches ..) rfl)))
  · extract_lets +onlyGivenNames n
    clear_value n
    extract_lets +onlyGivenNames s1
    have h_s1 : Touches 41926471 s s1 := ((State.pipeReset_touches ..).mono rfl)
    clear_value s1
    exact (Touches.ite (fun _ => (h_s1.step (State.onPipes_touches ..) rfl)) (fun _ => h_s1))
  · exact ((State.engReset_touches ..).mono rfl)
  · extract_lets +onlyGivenNames s1
    have h_s1 : Touches 41926471 s s1 := ((State.onSwarm_touches ..).mono rfl)
    clear_value s1
    refine (Touches.ite (fun _ => ?_) (fun _ => h_s1))
    extract_lets +onlyGivenNames b
    clear_value b
    exact ((h_s1.step (State.onMem_touches _ _ (Map.wf_filter (fun _ => (0 : Byte)) _ _)) rfl).step (State.onPoison_touches _ _ (Map.wf_keep _ _ _)) rfl)
  · exact ((Touches.foldl (Touches.refl _ _) (fun _ _ h => (h.step (State.sessOff_touches ..) rfl))).step (State.onCodec_touches ..) rfl)
  · exact ((Touches.foldl (Touches.refl _ _) (fun _ _ h => (h.step (State.sessOff_touches ..) rfl))).step (State.onCodec_touches ..) rfl)
  · exact ((Touches.foldl (Touches.refl _ _) (fun _ _ h => (h.step (State.sessOff_touches ..) rfl))).step (State.onCodec_touches ..) rfl)
  · extract_lets +onlyGivenNames n
    clear_value n
    exact (((State.tdmLeave_touches ..).mono rfl).step (State.onTdm_touches ..) rfl)
  · exact (((State.macFenced_touches ..).mono rfl).step (State.onNet_touches ..) rfl)
  · extract_lets +onlyGivenNames k
    clear_value k
    extract_lets +onlyGivenNames s1
    have h_s1 : Touches 41926471 s s1 := (Touches.ite (fun _ => (Touches.foldl (Touches.refl _ _) (fun _ _ h => ((h.step (State.scxFree_touches ..) rfl).step (State.modFlow_touches ..) rfl)))) (fun _ => Touches.refl _ _))
    clear_value s1
    extract_lets +onlyGivenNames s2
    have h_s2 : Touches 41926471 s s2 := (h_s1.step (State.onNet_touches ..) rfl)
    clear_value s2
    exact (Touches.foldl h_s2 (fun _ _ h => (h.step (State.modMac_touches ..) rfl)))
  · exact ((State.onNet_touches ..).mono rfl)
  · exact (((State.ssdOffline_touches ..).mono rfl).step (State.modSsd_touches ..) rfl)
  · exact ((State.ctiReset_touches ..).mono rfl)
  · exact ((State.modPair_touches ..).mono rfl)
  · exact ((State.onQm_touches ..).mono rfl)
  · exact ((State.onDram_touches ..).mono rfl)
  · exact ((State.onDram_touches ..).mono rfl)
  · exact ((State.onTb_touches ..).mono rfl)
  · exact ((State.onTb_touches ..).mono rfl)
  · exact ((State.onTb_touches ..).mono rfl)
  · exact ((State.onTb_touches ..).mono rfl)
  · exact ((Touches.foldl (Touches.refl _ _) (fun _ _ h => (h.step (State.applyPinCfg_touches ..) rfl))).step (State.onEvf_touches ..) rfl)
  · exact ((State.onDep_touches ..).mono rfl)
  · exact ((State.onDep_touches ..).mono rfl)
  · refine (Touches.ite (fun _ => ?_) (fun _ => Touches.refl _ _))
    extract_lets +onlyGivenNames n hpd
    clear_value n hpd
    extract_lets +onlyGivenNames s1
    have h_s1 : Touches 41926471 s s1 := (Touches.foldl (Touches.refl _ _) (fun _ _ h => (h.step (State.putGuard_touches ..) rfl)))
    clear_value s1
    exact ((h_s1.step (State.modHead_touches ..) rfl).step (State.onTb_touches ..) rfl)
  · exact Touches.refl _ _

theorem State.fenceSettled_touches : ∀ s p, Touches 41397831 s (State.fenceSettled s p) := by
  intro s p
  unfold State.fenceSettled
  exact (Touches.ite (fun _ => (((State.blockFenced_touches ..).mono rfl).step (State.onDep_touches ..) rfl)) (fun _ => Touches.refl _ _))

theorem State.softReset_touches : ∀ s0 p, Touches 41926527 s0 (State.softReset s0 p) := by
  intro s0 p
  unfold State.softReset
  extract_lets +onlyGivenNames pages
  clear_value pages
  extract_lets +onlyGivenNames s
  have h_s : Touches 41926527 s0 s := ((State.fenceSettled_touches ..).mono rfl)
  clear_value s
  extract_lets +onlyGivenNames was
  have h_was : Touches 41926527 s0 was := h_s
  clear_value was
  extract_lets +onlyGivenNames s1
  have h_s1 : Touches 41926527 s0 s1 := (Touches.foldl h_s (fun _ _ h => (h.step (State.blockQuit_touches ..) rfl)))
  clear_value s1
  extract_lets +onlyGivenNames s2
  have h_s2 : Touches 41926527 s0 s2 := by
    unfold s2
    refine (Touches.foldl h_s1 (fun _ _ h => ?_))
    extract_lets +onlyGivenNames en
    clear_value en
    exact (((h.step (State.clearPage_touches ..) rfl).step (State.putBit_touches ..) rfl).step (State.modPage_touches ..) rfl)
  clear_value s2
  refine (Touches.step ?_ (State.holdoverChange_touches ..) rfl)
  split
  · exact (h_s2.step (State.headReset_touches ..) rfl)
  · exact (h_s2.step (State.eyeReset_touches ..) rfl)
  · exact (Touches.foldl h_s2 (fun _ _ h => (h.step (State.clearPage_touches ..) rfl)))
  · exact h_s2

theorem execSoftResetDone_touches : ∀ p s, Ends 64 s (execSoftResetDone p s) := by
  intro p s
  unfold execSoftResetDone
  exact Ends.next (Touches.foldl (Touches.refl _ _) (fun _ _ h => (h.step (State.modPage_touches ..) rfl)))

end Sys2Proof.Machine
end

