-- ==== Sys2Proof/Laws/Touch/Reset.lean ====
section
/-!
SUPPORT. What each operation of Machine/Reset.lean may touch (see Laws/Touches.lean).
-/

-- One proof at a time bounds the threads and memory of a compile.
set_option Elab.async false

namespace Sys2Proof.Machine

open Sys2Proof

theorem State.wiped_touches : ∀ s a b c, Touches 67108863 s (State.wiped s a b c) := by
  intro s a b c
  have ht := (State.storPower_touches s).canonical
  constructor
  · intro hc
    obtain ⟨h1, h2, -⟩ := ht hc
    have e1 : (State.wiped s a b c).mem = s.storPower.mem.filter fun e => keptMem b a c e.1 := rfl
    have e2 : (State.wiped s a b c).poison = Map.keep (fun k => keptMem b a c (64 * k)) s.storPower.poison := rfl
    have e3 : (State.wiped s a b c).regs = if a then Map.keep (keptThrough c) s.regs else [] := rfl
    refine ⟨?_, ?_, ?_, rfl, rfl, rfl⟩
    · rw [e1]; exact Map.wf_filter (fun _ => (0 : Byte)) _ _ h1
    · rw [e2]; exact Map.wf_keep _ _ _ h2
    · rw [e3]
      split
      · exact Map.wf_keep _ _ _ hc.2.2.1
      · rfl
  all_goals first | (intro; rfl) | (intro h; exact absurd h (by decide))

theorem State.fuseLoad_touches : ∀ s bad, Touches 9284 s (State.fuseLoad s bad) := by
  intro s bad
  unfold State.fuseLoad
  extract_lets +onlyGivenNames s1
  have h_s1 : Touches 9284 s s1 := (((State.setReg_touches ..).mono rfl).step (State.setReg_touches ..) rfl)
  clear_value s1
  extract_lets +onlyGivenNames s2
  have h_s2 : Touches 9284 s s2 := (h_s1.step (State.setReg_touches ..) rfl)
  clear_value s2
  extract_lets +onlyGivenNames s3
  have h_s3 : Touches 9284 s s3 := (h_s2.step (State.onPlat_touches ..) rfl)
  clear_value s3
  exact (Touches.ite (fun _ => (h_s3.step (State.raise_touches ..) rfl)) (fun _ => h_s3))

theorem State.stepDone_touches : ∀ s k, Touches 16388 s (State.stepDone s k) := by
  intro s k
  unfold State.stepDone
  exact (((State.setFld_touches ..).mono rfl).step (State.onPower_touches ..) rfl)

theorem State.restart_touches : ∀ s cause step, Touches 67108863 s (State.restart s cause step) := by
  intro s cause step
  unfold State.restart
  refine (Touches.ite (fun _ => ((State.setReg_touches ..).mono rfl)) (fun _ => ?_))
  extract_lets +onlyGivenNames dram
  clear_value dram
  extract_lets +onlyGivenNames s1
  have h_s1 : Touches 67108863 s s1 := ((((State.wiped_touches ..).mono rfl).step (State.setReg_touches ..) rfl).step (State.putBit_touches ..) rfl)
  clear_value s1
  extract_lets +onlyGivenNames s2
  have h_s2 : Touches 67108863 s s2 := (Touches.ite (fun _ => (h_s1.step (State.fuseLoad_touches ..) rfl)) (fun _ => h_s1))
  clear_value s2
  exact ((h_s2.step (State.stepDone_touches ..) rfl).step (State.holdoverChange_touches ..) rfl)

theorem State.restartReq_touches : ∀ s cause, Touches 67108863 s (State.restartReq s cause) := by
  intro s cause
  unfold State.restartReq
  exact (Touches.ite (fun _ => ((State.onPower_touches ..).mono rfl)) (fun _ => ((State.restart_touches ..).mono rfl)))

end Sys2Proof.Machine
end

