-- ==== Sys2Proof/Laws/Touch/NetRx.lean ====
section
/-!
SUPPORT. What each operation of Machine/NetRx.lean may touch (see Laws/Touches.lean).
-/

-- One proof at a time bounds the threads and memory of a compile.
set_option Elab.async false

namespace Sys2Proof.Machine

open Sys2Proof

theorem State.modFilt_touches : ∀ s f g, Touches 2097152 s (State.modFilt s f g) := by
  intro s f g
  unfold State.modFilt
  exact ((State.onNet_touches ..).mono rfl)

theorem State.filtPass_touches : ∀ s n f len, Touches 2098756 s (State.filtPass s n f len).2 := by
  intro s n f len
  unfold State.filtPass
  change Touches2 2098756 s _
  extract_lets +onlyGivenNames p
  clear_value p
  extract_lets +onlyGivenNames s1
  have h_s1 : Touches 2098756 s s1 := ((State.modFilt_touches ..).mono rfl)
  clear_value s1
  extract_lets +onlyGivenNames ws d3 max_ gate
  clear_value ws d3 max_ gate
  extract_lets +onlyGivenNames s11
  have h_s11 : Touches 2098756 s s11 := (h_s1.step (State.memRead_touches ..) rfl)
  clear_value s11
  split
  · exact Touches.refl _ _
  · split
    · show Touches _ _ _
      dsimp only
      exact (h_s11.step (State.modFilt_touches ..) rfl)
    · split
      · extract_lets +onlyGivenNames s2
        have h_s2 : Touches 2098756 s s2 := (h_s11.step (State.modFilt_touches ..) rfl)
        clear_value s2
        exact (Touches.ite (fun _ => (((h_s2.step (State.modFilt_touches ..) rfl).step (State.raise_touches ..) rfl).step (State.produce_touches ..) rfl)) (fun _ => h_s2))
      · split
        · show Touches _ _ _
          dsimp only
          exact (h_s11.step (State.modFilt_touches ..) rfl)
        · split
          · extract_lets +onlyGivenNames r
            clear_value r
            extract_lets +onlyGivenNames s2
            have h_s2 : Touches 2098756 s s2 := (h_s11.step (State.modFilt_touches ..) rfl)
            clear_value s2
            split
            · exact ((h_s2.step (State.modFilt_touches ..) rfl).step (State.raise_touches ..) rfl)
            · exact h_s2
          · exact h_s11

theorem State.modRcv_touches : ∀ s r g, Touches 2097152 s (State.modRcv s r g) := by
  intro s r g
  unfold State.modRcv
  exact ((State.onNet_touches ..).mono rfl)

theorem State.recover_touches : ∀ s r bs, Touches 2098756 s (State.recover s r bs).2 := by
  intro s r bs
  unfold State.recover
  change Touches2 2098756 s _
  extract_lets +onlyGivenNames p
  clear_value p
  split
  · exact Touches.refl _ _
  · split
    · show Touches _ _ _
      dsimp only
      exact ((State.modRcv_touches ..).mono rfl)
    · extract_lets +onlyGivenNames t1
      clear_value t1
      extract_lets +onlyGivenNames s1
      have h_s1 : Touches 2098756 s s1 := ((State.modRcv_touches ..).mono rfl)
      clear_value s1
      extract_lets +onlyGivenNames s2
      have h_s2 : Touches 2098756 s s2 := (Touches.ite (fun _ => (h_s1.step (State.raise_touches ..) rfl)) (fun _ => h_s1))
      clear_value s2
      exact (Touches.ite (fun _ => (h_s2.step (State.produce_touches ..) rfl)) (fun _ => h_s2))

theorem State.rcvReset_touches : ∀ s r, Touches 2097152 s (State.rcvReset s r) := by
  intro s r
  unfold State.rcvReset
  exact ((State.modRcv_touches ..).mono rfl)

theorem execRecoveryResetTimeout_touches : ∀ r s, Ends 2098244 s (execRecoveryResetTimeout r s) := by
  intro r s
  unfold execRecoveryResetTimeout
  extract_lets +onlyGivenNames x
  clear_value x
  refine Ends.ite (fun _ => ?_) (fun _ => ?_)
  · exact Ends.next (Touches.refl _ _)
  · exact Ends.next (((State.rcvReset_touches ..).mono rfl).step (State.raise_touches ..) rfl)

theorem State.rxBuffer_touches : ∀ s n q bs bad, Touches 11847 s (State.rxBuffer s n q bs bad).2 := by
  intro s n q bs bad
  unfold State.rxBuffer
  change Touches2 11847 s _
  split
  · exact ((((State.count_touches ..).mono rfl).step (State.raise_touches ..) rfl).step (State.produce_touches ..) rfl)
  · split
    · exact ((State.count_touches ..).mono rfl)
    · extract_lets +onlyGivenNames t1
      have h_t1 : Touches 11847 s t1 := ((State.take_touches ..).mono rfl)
      clear_value t1
      exact (Touches.ite (fun _ => (h_t1.step (State.busPoison_touches ..) rfl)) (fun _ => (h_t1.step (State.busWrite_touches ..) rfl)))

theorem State.flowOut_touches : ∀ s c seq flags lost d, Touches 2108999 s (State.flowOut s c seq flags lost d) := by
  intro s c seq flags lost d
  unfold State.flowOut
  extract_lets +onlyGivenNames fl
  clear_value fl
  exact (((State.push_touches ..).mono rfl).step (State.modFlow_touches ..) rfl)

theorem State.flowRun_touches : ∀ s c x2, Touches 2108999 s (State.flowRun s c x2) := by
  intro s c x2
  induction x2 generalizing s c
  · unfold State.flowRun
    exact Touches.refl _ _
  · rename_i ih
    unfold State.flowRun
    split
    · exact Touches.refl _ _
    · exact ((((State.modFlow_touches ..).mono rfl).step (State.flowOut_touches ..) rfl).step (ih ..) rfl)

theorem State.flowGap_touches : ∀ s c flags, Touches 2108999 s (State.flowGap s c flags) := by
  intro s c flags
  unfold State.flowGap
  split
  · exact Touches.refl _ _
  · extract_lets +onlyGivenNames lost
    clear_value lost
    exact ((((State.modFlow_touches ..).mono rfl).step (State.flowOut_touches ..) rfl).step (State.flowRun_touches ..) rfl)

theorem State.flowFlush_touches : ∀ s c flags x3, Touches 2108999 s (State.flowFlush s c flags x3) := by
  intro s c flags x3
  induction x3 generalizing s c flags
  · unfold State.flowFlush
    exact Touches.refl _ _
  · rename_i ih
    unfold State.flowFlush
    exact (Touches.ite (fun _ => Touches.refl _ _) (fun _ => (((State.flowGap_touches ..).mono rfl).step (ih ..) rfl)))

theorem State.flowPacket_touches : ∀ s n c filt bs flags ts bad, Touches 2108999 s (State.flowPacket s n c filt bs flags ts bad) := by
  intro s n c filt bs flags ts bad
  unfold State.flowPacket
  extract_lets +onlyGivenNames ctx f rtp seq win d
  clear_value ctx f rtp seq win d
  extract_lets +onlyGivenNames dup s1
  have h_s1 : Touches 2108999 s s1 := ((State.modFlow_touches ..).mono rfl)
  clear_value s1
  refine (Touches.ite (fun _ => (h_s1.step (State.modFlow_touches ..) rfl)) (fun _ => ?_))
  split
  · exact (Touches.of_snd (h_s1.step (State.rxBuffer_touches ..) rfl) ‹_›)
  · extract_lets +onlyGivenNames desc
    clear_value desc
    refine (Touches.ite (fun _ => ?_) (fun _ => (Touches.ite (fun _ => ((Touches.of_snd (h_s1.step (State.rxBuffer_touches ..) rfl) ‹_›).step (State.modFlow_touches ..) rfl)) (fun _ => (Touches.ite (fun _ => ?_) (fun _ => ?_))))))
    · extract_lets +onlyGivenNames re
      clear_value re
      exact (((Touches.ite (fun _ => ((Touches.of_snd (h_s1.step (State.rxBuffer_touches ..) rfl) ‹_›).step (State.modFlow_touches ..) rfl)) (fun _ => (Touches.of_snd (h_s1.step (State.rxBuffer_touches ..) rfl) ‹_›))).step (State.flowOut_touches ..) rfl).step (State.flowRun_touches ..) rfl)
    · extract_lets +onlyGivenNames u
      have h_u : Touches 2108999 s u := ((Touches.of_snd (h_s1.step (State.rxBuffer_touches ..) rfl) ‹_›).step (State.flowFlush_touches ..) rfl)
      clear_value u
      exact (h_u.step (State.flowOut_touches ..) rfl)
    · extract_lets +onlyGivenNames u
      have h_u : Touches 2108999 s u := ((Touches.of_snd (h_s1.step (State.rxBuffer_touches ..) rfl) ‹_›).step (State.flowFlush_touches ..) rfl)
      clear_value u
      exact ((h_u.step (State.modFlow_touches ..) rfl).step (State.flowOut_touches ..) rfl)

theorem execReorderTimeout_touches : ∀ c s, Ends 2108999 s (execReorderTimeout c s) := by
  intro c s
  unfold execReorderTimeout
  split
  · exact Ends.next (Touches.refl _ _)
  · refine Ends.ite (fun _ => ?_) (fun _ => ?_)
    · exact Ends.next (Touches.refl _ _)
    · exact Ends.next ((State.flowGap_touches ..).mono rfl)

theorem State.policer_touches : ∀ s n, Touches 2097156 s (State.policer s n).2 := by
  intro s n
  unfold State.policer
  change Touches2 2097156 s _
  extract_lets +onlyGivenNames lim
  clear_value lim
  split
  · exact Touches.refl _ _
  · extract_lets +onlyGivenNames m tok
    clear_value m tok
    split
    · show Touches _ _ _
      dsimp only
      exact ((State.modMac_touches ..).mono rfl)
    · exact (((State.modMac_touches ..).mono rfl).step (State.count_touches ..) rfl)

theorem State.rxDeliver_touches : ∀ s n filt bs flags ts bad, Touches 2108999 s (State.rxDeliver s n filt bs flags ts bad) := by
  intro s n filt bs flags ts bad
  unfold State.rxDeliver
  extract_lets +onlyGivenNames q
  clear_value q
  extract_lets +onlyGivenNames r
  have h_r' : Touches2 2108999 s r := by
    unfold r
    split
    · exact ((State.policer_touches ..).mono rfl)
    · exact Touches.refl _ _
  have h_r : Touches 2108999 s r.2 := h_r'
  clear_value r
  refine (Touches.ite (fun _ => h_r) (fun _ => ?_))
  split
  · exact (Touches.of_snd (h_r.step (State.rxBuffer_touches ..) rfl) ‹_›)
  · exact ((Touches.of_snd (h_r.step (State.rxBuffer_touches ..) rfl) ‹_›).step (State.push_touches ..) rfl)

theorem State.ethLanes_touches : ∀ s n lanes, Touches 4 s (State.ethLanes s n lanes) := by
  intro s n lanes
  unfold State.ethLanes
  refine (Touches.foldl (Touches.refl _ _) (fun _ _ h => ?_))
  extract_lets +onlyGivenNames l
  clear_value l
  exact (((h.step (State.count_touches ..) rfl).step (State.count_touches ..) rfl).step (State.count_touches ..) rfl)

theorem execMacRxFrame_touches : ∀ n bs fcsOk frag fecCor fecBad lanes e s, Ends 35663431 s (execMacRxFrame n bs fcsOk frag fecCor fecBad lanes e s) := by
  intro n bs fcsOk frag fecCor fecBad lanes e s
  unfold execMacRxFrame
  extract_lets +onlyGivenNames p
  clear_value p
  refine Ends.ite (fun _ => ?_) (fun _ => ?_)
  · exact Ends.next (Touches.refl _ _)
  · extract_lets +onlyGivenNames s0
    have h_s0 : Touches 35663431 s s0 := ((((State.count_touches ..).mono rfl).step (State.count_touches ..) rfl).step (State.ethLanes_touches ..) rfl)
    clear_value s0
    extract_lets +onlyGivenNames len
    clear_value len
    refine Ends.ite (fun _ => ?_) (fun _ => ?_)
    · exact Ends.next (h_s0.step (State.count_touches ..) rfl)
    · refine Ends.ite (fun _ => ?_) (fun _ => ?_)
      · exact Ends.next (h_s0.step (State.count_touches ..) rfl)
      · refine Ends.ite (fun _ => ?_) (fun _ => ?_)
        · exact Ends.next (h_s0.step (State.count_touches ..) rfl)
        · extract_lets +onlyGivenNames s1
          have h_s1 : Touches 35663431 s s1 := (h_s0.step (State.count_touches ..) rfl)
          clear_value s1
          refine Ends.ite (fun _ => ?_) (fun _ => ?_)
          · exact Ends.next (h_s1.step (State.count_touches ..) rfl)
          · extract_lets +onlyGivenNames own filt flow ptp
            clear_value own filt flow ptp
            refine Ends.ite (fun _ => ?_) (fun _ => ?_)
            · exact Ends.next h_s1
            · extract_lets +onlyGivenNames r0
              have h_r0 : Touches 35663431 s r0.2 := (h_s1.step (State.macErr_touches ..) rfl)
              clear_value r0
              extract_lets +onlyGivenNames lost
              clear_value lost
              extract_lets +onlyGivenNames t1
              have h_t1 : Touches 35663431 s t1.2 := (h_r0.step (State.stamp_touches ..) rfl)
              clear_value t1
              extract_lets +onlyGivenNames ts flags
              clear_value ts flags
              extract_lets +onlyGivenNames r1
              have h_r1' : Touches2 35663431 s r1 := by
                unfold r1
                split
                · exact (h_t1.step (State.filtPass_touches ..) rfl)
                · exact h_t1
              have h_r1 : Touches 35663431 s r1.2 := h_r1'
              clear_value r1
              refine Ends.ite (fun _ => ?_) (fun _ => ?_)
              · exact Ends.next h_r1
              · extract_lets +onlyGivenNames r2
                have h_r2' : Touches2 35663431 s r2 := by
                  unfold r2
                  split
                  · extract_lets +onlyGivenNames d3
                    clear_value d3
                    split
                    · exact (h_r1.step (State.recover_touches ..) rfl)
                    · exact h_r1
                  · exact h_r1
                have h_r2 : Touches 35663431 s r2.2 := h_r2'
                clear_value r2
                refine Ends.ite (fun _ => ?_) (fun _ => ?_)
                · exact Ends.next h_r2
                · refine Ends.ite (fun _ => ?_) (fun _ => ?_)
                  · exact Ends.next h_r2
                  · split
                    · exact Ends.next (h_r2.step (State.flowPacket_touches ..) rfl)
                    · exact Ends.next (h_r2.step (State.rxDeliver_touches ..) rfl)

theorem execFiltLoad_touches : ∀ m k s, Ends 1092 s (execFiltLoad m k s) := by
  intro m k s
  unfold execFiltLoad
  exact Ends.next (State.regWrite_touches (Touches.refl _ _) rfl (fun _ h => (h.step (State.setRegs32_touches ..) rfl)))

theorem execFiltStore_touches : ∀ m k s, Ends 2098244 s (execFiltStore m k s) := by
  intro m k s
  unfold execFiltStore
  refine Ends.next (State.regWrite_touches (Touches.refl _ _) rfl (fun _ h => ?_))
  extract_lets +onlyGivenNames f ws d0
  clear_value f ws d0
  exact (Touches.ite (fun _ => (h.step (State.stateWrite_touches ..) rfl)) (fun _ => (Touches.ite (fun _ => ((h.step (State.setReg_touches ..) rfl).step (State.raise_touches ..) rfl)) (fun _ => ((h.step (State.setReg_touches ..) rfl).step (State.modFilt_touches ..) rfl)))))

theorem execClearBlock_touches : ∀ m k s, Ends 2098244 s (execClearBlock m k s) := by
  intro m k s
  unfold execClearBlock
  exact Ends.next (State.regWrite_touches (Touches.refl _ _) rfl (fun _ h => (h.step (State.modFilt_touches ..) rfl)))

theorem execRecLoad_touches : ∀ m k s, Ends 1092 s (execRecLoad m k s) := by
  intro m k s
  unfold execRecLoad
  refine Ends.next (State.regWrite_touches (Touches.refl _ _) rfl (fun _ h => ?_))
  extract_lets +onlyGivenNames r
  clear_value r
  exact (h.step (State.setRegs32_touches ..) rfl)

theorem execRecStore_touches : ∀ m k s, Ends 2098244 s (execRecStore m k s) := by
  intro m k s
  unfold execRecStore
  refine Ends.next (State.regWrite_touches (Touches.refl _ _) rfl (fun _ h => ?_))
  extract_lets +onlyGivenNames r
  clear_value r
  exact (Touches.ite (fun _ => (h.step (State.stateWrite_touches ..) rfl)) (fun _ => (h.step (State.modRcv_touches ..) rfl)))

theorem execRecReset_touches : ∀ m k s, Ends 2098244 s (execRecReset m k s) := by
  intro m k s
  unfold execRecReset
  exact Ends.next (State.regWrite_touches (Touches.refl _ _) rfl (fun _ h => ((h.step (State.rcvReset_touches ..) rfl).step (State.raise_touches ..) rfl)))

theorem execFlowLoad_touches : ∀ m s, Ends 33555524 s (execFlowLoad m s) := by
  intro m s
  unfold execFlowLoad
  refine Ends.next (State.regWrite_touches (Touches.refl _ _) rfl (fun _ h => ?_))
  extract_lets +onlyGivenNames ws run
  clear_value ws run
  exact ((h.step (State.onFree_touches ..) rfl).step (State.setRegs32_touches ..) rfl)

theorem execFlowStore_touches : ∀ m s, Ends 35654724 s (execFlowStore m s) := by
  intro m s
  unfold execFlowStore
  refine Ends.next (State.regWrite_touches (Touches.refl _ _) rfl (fun _ h => ?_))
  extract_lets +onlyGivenNames p c ws en tx kind
  clear_value p c ws en tx kind
  refine (Touches.ite (fun _ => (h.step (State.scxConflict_touches ..) rfl)) (fun _ => (Touches.ite (fun _ => (h.step (State.stateWrite_touches ..) rfl)) (fun _ => ?_))))
  extract_lets +onlyGivenNames same badQ
  clear_value same badQ
  refine (Touches.ite (fun _ => ((h.step (State.setReg_touches ..) rfl).step (State.raise_touches ..) rfl)) (fun _ => ?_))
  extract_lets +onlyGivenNames t1
  have h_t1 : Touches 35654724 s t1 := ((h.step (State.setReg_touches ..) rfl).step (State.scxPut_touches ..) rfl)
  clear_value t1
  refine (Touches.ite (fun _ => h_t1) (fun _ => ?_))
  extract_lets +onlyGivenNames r
  have h_r : Touches 35654724 s r.2 := (h_t1.step (State.drawWord_touches ..) rfl)
  clear_value r
  exact ((h_r.step (State.scxClaim_touches ..) rfl).step (State.modFlow_touches ..) rfl)

theorem State.flowQuit_touches : ∀ s c, Touches 2108999 s (State.flowQuit s c) := by
  intro s c
  unfold State.flowQuit
  extract_lets +onlyGivenNames t1
  have h_t1 : Touches 2108999 s t1 := ((State.flowFlush_touches ..).mono rfl)
  clear_value t1
  exact (((h_t1.step (State.scxPut_touches ..) rfl).step (State.scxFree_touches ..) rfl).step (State.modFlow_touches ..) rfl)

theorem execFlowStop_touches : ∀ m s, Ends 2108999 s (execFlowStop m s) := by
  intro m s
  unfold execFlowStop
  exact Ends.next (State.regWrite_touches (Touches.refl _ _) rfl (fun _ h => (Touches.ite (fun _ => (h.step (State.stateWrite_touches ..) rfl)) (fun _ => (h.step (State.flowQuit_touches ..) rfl)))))

theorem State.filtRead_touches : ∀ s k i, Touches 2097152 s (State.filtRead s k i) := by
  intro s k i
  unfold State.filtRead
  exact ((State.modFilt_touches ..).mono rfl)

end Sys2Proof.Machine
end

