-- ==== Sys2Proof/Laws/Touch/Warden.lean ====
section
/-!
SUPPORT. What each operation of Machine/Warden.lean may touch (see Laws/Touches.lean).
-/

-- One proof at a time bounds the threads and memory of a compile.
set_option Elab.async false

namespace Sys2Proof.Machine

open Sys2Proof

theorem State.modScrub_touches : ∀ s p k f, Touches 1024 s (State.modScrub s p k f) := by
  intro s p k f
  unfold State.modScrub
  exact ((State.onDep_touches ..).mono rfl)

theorem State.remapCommit_touches : ∀ s, Touches 1024 s (State.remapCommit s) := by
  intro s
  unfold State.remapCommit
  extract_lets +onlyGivenNames rows
  clear_value rows
  exact ((State.cocoonPut_touches ..).mono rfl)

theorem State.sramHard_touches : ∀ s p k word remaps, Touches 1604 s (State.sramHard s p k word remaps) := by
  intro s p k word remaps
  unfold State.sramHard
  refine (Touches.ite (fun _ => ((State.cocoonHard_touches ..).mono rfl)) (fun _ => ?_))
  extract_lets +onlyGivenNames used full
  clear_value used full
  extract_lets +onlyGivenNames s1
  have h_s1 : Touches 1604 s s1 := ((((State.raise_touches ..).mono rfl).step (State.produce_touches ..) rfl).step (State.silkOf_touches ..) rfl)
  clear_value s1
  extract_lets +onlyGivenNames s2
  have h_s2 : Touches 1604 s s2 := (h_s1.step (State.count_touches ..) rfl)
  clear_value s2
  exact (Touches.ite (fun _ => ((h_s2.step (State.raise_touches ..) rfl).step (State.count_touches ..) rfl)) (fun _ => ((h_s2.step (State.modScrub_touches ..) rfl).step (State.remapCommit_touches ..) rfl)))

theorem State.scrubPoison_touches : ∀ s p k word, Touches 131074 s (State.scrubPoison s p k word) := by
  intro s p k word
  unfold State.scrubPoison
  split
  · exact ((State.setPoison_touches ..).mono rfl)
  · exact ((State.setPoison_touches ..).mono rfl)
  · exact ((State.setDpoison_touches ..).mono rfl)
  · exact Touches.refl _ _

theorem State.scxLost_touches : ∀ s c, Touches 40218439 s (State.scxLost s c) := by
  intro s c
  unfold State.scxLost
  extract_lets +onlyGivenNames t1
  have h_t1 : Touches 40218439 s t1 := ((State.scxFault_touches ..).mono rfl)
  clear_value t1
  extract_lets +onlyGivenNames p
  clear_value p
  split
  · exact (h_t1.step (State.strmQuit_touches ..) rfl)
  · exact (h_t1.step (State.sessQuit_touches ..) rfl)
  · exact (h_t1.step (State.sessQuit_touches ..) rfl)
  · exact (h_t1.step (State.sessQuit_touches ..) rfl)
  · exact (h_t1.step (State.flowQuit_touches ..) rfl)
  · exact (h_t1.step (State.recQuit_touches ..) rfl)
  · exact h_t1

theorem State.qmLost_touches : ∀ s p word, Touches 40218439 s (State.qmLost s p word) := by
  intro s p word
  unfold State.qmLost
  refine (Touches.ite (fun _ => ((State.scxLost_touches ..).mono rfl)) (fun _ => (Touches.ite (fun _ => ?_) (fun _ => Touches.refl _ _))))
  split
  · exact ((State.qEcc_touches ..).mono rfl)
  · exact Touches.refl _ _

theorem execSramScrubStep_touches : ∀ p k word remaps e hard lap s0, Ends 40349511 s0 (execSramScrubStep p k word remaps e hard lap s0) := by
  intro p k word remaps e hard lap s0
  unfold execSramScrubStep
  refine Ends.ite (fun _ => ?_) (fun _ => ?_)
  · exact Ends.next (Touches.refl _ _)
  · extract_lets +onlyGivenNames r
    have h_r : Touches 40349511 s0 r.2 := ((State.takeErr_touches ..).mono rfl)
    clear_value r
    extract_lets +onlyGivenNames s
    have h_s : Touches 40349511 s0 s := h_r
    clear_value s
    extract_lets +onlyGivenNames x win s1 s11
    clear_value x win s1 s11
    extract_lets +onlyGivenNames s12
    have h_s12 : Touches 40349511 s0 s12 := (h_s.step (State.modScrub_touches ..) rfl)
    clear_value s12
    extract_lets +onlyGivenNames s13
    have h_s13 : Touches 40349511 s0 s13 := (Touches.ite (fun _ => (h_s12.step (State.count_touches ..) rfl)) (fun _ => h_s12))
    clear_value s13
    extract_lets +onlyGivenNames s14
    have h_s14 : Touches 40349511 s0 s14 := (((h_s.step (State.scrubPoison_touches ..) rfl).step (State.silkOf_touches ..) rfl).step (State.qmLost_touches ..) rfl)
    clear_value s14
    extract_lets +onlyGivenNames s15
    have h_s15 : Touches 40349511 s0 s15 := (Touches.ite (fun _ => ((h_s14.step (State.count_touches ..) rfl).step (State.raise_touches ..) rfl)) (fun _ => h_s14))
    clear_value s15
    extract_lets +onlyGivenNames s16
    have h_s16 : Touches 40349511 s0 s16 := by
      unfold s16
      split
      · exact h_s
      · exact (Touches.ite (fun _ => (h_s13.step (State.sramHard_touches ..) rfl)) (fun _ => h_s13))
      · exact (Touches.ite (fun _ => (h_s15.step (State.sramHard_touches ..) rfl)) (fun _ => h_s15))
    clear_value s16
    split
    · exact Ends.next h_s16
    · extract_lets +onlyGivenNames s2
      have h_s2 : Touches 40349511 s0 s2 := ((h_s16.step (State.modScrub_touches ..) rfl).step (State.onDep_touches ..) rfl)
      clear_value s2
      exact Ends.next (Touches.ite (fun _ => (h_s2.step (State.raise_touches ..) rfl)) (fun _ => h_s2))

theorem State.modHealth_touches : ∀ s p f, Touches 1024 s (State.modHealth s p f) := by
  intro s p f
  unfold State.modHealth
  exact ((State.onDep_touches ..).mono rfl)

theorem State.mapCommit_touches : ∀ s, Touches 1024 s (State.mapCommit s) := by
  intro s
  unfold State.mapCommit
  extract_lets +onlyGivenNames rows
  clear_value rows
  exact ((State.cocoonPut_touches ..).mono rfl)

theorem State.setSpare_touches : ∀ s p spare condemned, Touches 4 s (State.setSpare s p spare condemned) := by
  intro s p spare condemned
  unfold State.setSpare
  exact (((State.putBit_touches ..).mono rfl).step (State.putBit_touches ..) rfl)

theorem State.notice_touches : ∀ s kind p spare logical cause, Touches 11847 s (State.notice s kind p spare logical cause) := by
  intro s kind p spare logical cause
  unfold State.notice
  exact ((State.push_touches ..).mono rfl)

theorem State.domWant_touches : ∀ s d, Touches 16388 s (State.domWant s d) := by
  intro s d
  unfold State.domWant
  extract_lets +onlyGivenNames s1
  have h_s1 : Touches 16388 s s1 := ((State.putBit_touches ..).mono rfl)
  clear_value s1
  exact (Touches.ite (fun _ => h_s1) (fun _ => (h_s1.step (State.onPower_touches ..) rfl)))

theorem State.modMoult_touches : ∀ s p f, Touches 1024 s (State.modMoult s p f) := by
  intro s p f
  unfold State.modMoult
  exact ((State.onDep_touches ..).mono rfl)

theorem State.moultSpare_touches : ∀ s m, Touches 28231 s (State.moultSpare s m) := by
  intro s m
  unfold State.moultSpare
  split
  · exact (((((State.setSpare_touches ..).mono rfl).step (State.modMoult_touches ..) rfl).step (State.mapCommit_touches ..) rfl).step (State.domWant_touches ..) rfl)
  · refine (Touches.ite (fun _ => Touches.refl _ _) (fun _ => ?_))
    extract_lets +onlyGivenNames o
    clear_value o
    extract_lets +onlyGivenNames s1
    have h_s1 : Touches 28231 s s1 := (((State.modMoult_touches ..).mono rfl).step (State.putBit_touches ..) rfl)
    clear_value s1
    exact (((((h_s1.step (State.mapCommit_touches ..) rfl).step (State.raise_touches ..) rfl).step (State.produce_touches ..) rfl).step (State.silk_touches ..) rfl).step (State.notice_touches ..) rfl)

theorem State.condemn_touches : ∀ s p cause, Touches 33697351 s (State.condemn s p cause) := by
  intro s p cause
  unfold State.condemn
  refine (Touches.ite (fun _ => Touches.refl _ _) (fun _ => ?_))
  extract_lets +onlyGivenNames e threads n win
  clear_value e threads n win
  extract_lets +onlyGivenNames s1
  have h_s1 : Touches 33697351 s s1 := (((State.engStop_touches ..).mono rfl).step (State.modHealth_touches ..) rfl)
  clear_value s1
  extract_lets +onlyGivenNames s2
  have h_s2 : Touches 33697351 s s2 := ((h_s1.step (State.setSpare_touches ..) rfl).step (State.fence_touches ..) rfl)
  clear_value s2
  extract_lets +onlyGivenNames s3
  have h_s3 : Touches 33697351 s s3 := ((h_s2.step (State.silk_touches ..) rfl).step (State.notice_touches ..) rfl)
  clear_value s3
  extract_lets +onlyGivenNames s4
  have h_s4 : Touches 33697351 s s4 := (Touches.ite (fun _ => (h_s3.step (State.notice_touches ..) rfl)) (fun _ => h_s3))
  clear_value s4
  extract_lets +onlyGivenNames s5
  have h_s5 : Touches 33697351 s s5 := (h_s4.step (State.setReg_touches ..) rfl)
  clear_value s5
  split
  · exact (h_s5.step (State.mapCommit_touches ..) rfl)
  · extract_lets +onlyGivenNames s6
    have h_s6 : Touches 33697351 s s6 := ((h_s5.step (State.barBreak_touches ..) rfl).step (State.putBit_touches ..) rfl)
    clear_value s6
    exact (h_s6.step (State.onDep_touches ..) rfl)

theorem execEngineCondemn_touches : ∀ p c s, Ends 33697351 s (execEngineCondemn p c s) := by
  intro p c s
  unfold execEngineCondemn
  refine Ends.ite (fun _ => ?_) (fun _ => ?_)
  · exact Ends.next (Touches.refl _ _)
  · refine Ends.ite (fun _ => ?_) (fun _ => ?_)
    · exact Ends.next ((State.condemn_touches ..).mono rfl)
    · exact Ends.next (((State.setReg_touches ..).mono rfl).step (State.raise_touches ..) rfl)

theorem execCondemn_touches : ∀ m v s, Ends 33697351 s (execCondemn m v s) := by
  intro m v s
  unfold execCondemn
  exact Ends.next (State.regWrite_touches (Touches.refl _ _) rfl (fun _ h => (Touches.ite (fun _ => (h.step (State.stateWrite_touches ..) rfl)) (fun _ => (h.step (State.condemn_touches ..) rfl)))))

theorem State.moultDrained_touches : ∀ s m, Touches 28231 s (State.moultDrained s m) := by
  intro s m
  unfold State.moultDrained
  extract_lets +onlyGivenNames s1
  have h_s1 : Touches 28231 s s1 := ((State.onQm_touches ..).mono rfl)
  clear_value s1
  exact (h_s1.step (State.moultSpare_touches ..) rfl)

theorem execMoultDrainDone_touches : ∀ p s, Ends 28231 s (execMoultDrainDone p s) := by
  intro p s
  unfold execMoultDrainDone
  split
  · exact Ends.next (Touches.refl _ _)
  · exact Ends.next ((State.moultDrained_touches ..).mono rfl)

theorem execDrainTimeout_touches : ∀ p s, Ends 28231 s (execDrainTimeout p s) := by
  intro p s
  unfold execDrainTimeout
  split
  · exact Ends.next (Touches.refl _ _)
  · refine Ends.ite (fun _ => ?_) (fun _ => ?_)
    · exact Ends.next (Touches.refl _ _)
    · exact Ends.next ((((State.raise_touches ..).mono rfl).step (State.silk_touches ..) rfl).step (State.moultDrained_touches ..) rfl)

theorem execMoult_touches : ∀ p s, Ends 33713735 s (execMoult p s) := by
  intro p s
  unfold execMoult
  split
  · exact Ends.next (Touches.refl _ _)
  · split
    · exact Ends.next (Touches.refl _ _)
    · refine Ends.ite (fun _ => ?_) (fun _ => ?_)
      · exact Ends.next (Touches.refl _ _)
      · exact Ends.next (((State.putBit_touches ..).mono rfl).step (State.moultSpare_touches ..) rfl)
    · split
      · exact Ends.next (Touches.refl _ _)
      · refine Ends.ite (fun _ => ?_) (fun _ => ?_)
        · exact Ends.next (Touches.refl _ _)
        · extract_lets +onlyGivenNames k i
          clear_value k i
          extract_lets +onlyGivenNames s1
          have h_s1 : Touches 33713735 s s1 := (((State.engReset_touches ..).mono rfl).step (State.putBit_touches ..) rfl)
          clear_value s1
          extract_lets +onlyGivenNames src
          clear_value src
          extract_lets +onlyGivenNames r
          have h_r : Touches 33713735 s r.2 := (h_s1.step (State.readImage_touches ..) rfl)
          clear_value r
          extract_lets +onlyGivenNames s2
          have h_s2 : Touches 33713735 s s2 := by
            unfold s2
            split
            · exact (h_r.step (State.putImage_touches ..) rfl)
            · exact h_r
          clear_value s2
          extract_lets +onlyGivenNames s3
          have h_s3 : Touches 33713735 s s3 := ((h_s2.step (State.setFld_touches ..) rfl).step (State.setReg_touches ..) rfl)
          clear_value s3
          extract_lets +onlyGivenNames s4
          have h_s4 : Touches 33713735 s s4 := (Touches.foldl h_s3 (fun _ _ h1 => (Touches.ite (fun _ => (h1.step (State.modThr_touches ..) rfl)) (fun _ => h1))))
          clear_value s4
          extract_lets +onlyGivenNames s5
          have h_s5 : Touches 33713735 s s5 := (((h_s4.step (State.silk_touches ..) rfl).step (State.raise_touches ..) rfl).step (State.produce_touches ..) rfl)
          clear_value s5
          extract_lets +onlyGivenNames s6
          have h_s6 : Touches 33713735 s s6 := ((h_s5.step (State.notice_touches ..) rfl).step (State.count_touches ..) rfl)
          clear_value s6
          extract_lets +onlyGivenNames s7
          have h_s7 : Touches 33713735 s s7 := (h_s6.step (State.setReg_touches ..) rfl)
          clear_value s7
          exact Ends.next ((h_s7.step (State.onDep_touches ..) rfl).step (State.snapTrigger_touches ..) rfl)

theorem execZombieDrop_touches : ∀ p a s, Ends 1092 s (execZombieDrop p a s) := by
  intro p a s
  unfold execZombieDrop
  extract_lets +onlyGivenNames h
  clear_value h
  refine Ends.ite (fun _ => ?_) (fun _ => ?_)
  · exact Ends.next (Touches.refl _ _)
  · extract_lets +onlyGivenNames s1
    have h_s1 : Touches 1092 s s1 := (((State.count_touches ..).mono rfl).step (State.raise_touches ..) rfl)
    clear_value s1
    extract_lets +onlyGivenNames drops due
    clear_value drops due
    refine Ends.ite (fun _ => ?_) (fun _ => ?_)
    · exact Ends.next ((h_s1.step (State.modHealth_touches ..) rfl).step (State.silk_touches ..) rfl)
    · exact Ends.next (h_s1.step (State.modHealth_touches ..) rfl)

theorem execSpareBistTimer_touches : ∀ s, Ends 17412 s (execSpareBistTimer s) := by
  intro s
  unfold execSpareBistTimer
  extract_lets +onlyGivenNames sec
  clear_value sec
  refine Ends.ite (fun _ => ?_) (fun _ => ?_)
  · exact Ends.next (Touches.refl _ _)
  · extract_lets +onlyGivenNames spares
    clear_value spares
    extract_lets +onlyGivenNames s1
    have h_s1 : Touches 17412 s s1 := ((State.onDep_touches ..).mono rfl)
    clear_value s1
    split
    · exact Ends.next h_s1
    · exact Ends.next (((h_s1.step (State.onDep_touches ..) rfl).step (State.domWant_touches ..) rfl).step (State.setReg_touches ..) rfl)

theorem execEngineBistDone_touches : ∀ p pass s, Ends 33697351 s (execEngineBistDone p pass s) := by
  intro p pass s
  unfold execEngineBistDone
  refine Ends.ite (fun _ => ?_) (fun _ => ?_)
  · exact Ends.next (Touches.refl _ _)
  · extract_lets +onlyGivenNames k res cmd
    clear_value k res cmd
    extract_lets +onlyGivenNames s1
    have h_s1 : Touches 33697351 s s1 := ((State.setReg_touches ..).mono rfl)
    clear_value s1
    extract_lets +onlyGivenNames s2
    have h_s2 : Touches 33697351 s s2 := (Touches.ite (fun _ => (h_s1.step (State.setReg_touches ..) rfl)) (fun _ => h_s1))
    clear_value s2
    extract_lets +onlyGivenNames h
    clear_value h
    refine Ends.ite (fun _ => ?_) (fun _ => ?_)
    · extract_lets +onlyGivenNames s3
      have h_s3 : Touches 33697351 s s3 := (((h_s2.step (State.modHealth_touches ..) rfl).step (State.setSpare_touches ..) rfl).step (State.putBit_touches ..) rfl)
      clear_value s3
      extract_lets +onlyGivenNames s4
      have h_s4 : Touches 33697351 s s4 := ((((h_s3.step (State.engReset_touches ..) rfl).step (State.mapCommit_touches ..) rfl).step (State.silk_touches ..) rfl).step (State.count_touches ..) rfl)
      clear_value s4
      exact Ends.next (h_s4.step (State.notice_touches ..) rfl)
    · refine Ends.ite (fun _ => ?_) (fun _ => ?_)
      · exact Ends.next (h_s2.step (State.raise_touches ..) rfl)
      · exact Ends.next h_s2

end Sys2Proof.Machine
end

