-- ==== Sys2Proof/Laws/Touch/Power.lean ====
section
/-!
SUPPORT. What each operation of Machine/Power.lean may touch (see Laws/Touches.lean).
-/

-- One proof at a time bounds the threads and memory of a compile.
set_option Elab.async false

namespace Sys2Proof.Machine

open Sys2Proof

theorem State.putReq_touches : ∀ s d v, Touches 4 s (State.putReq s d v) := by
  intro s d v
  unfold State.putReq
  exact ((State.putBit_touches ..).mono rfl)

theorem State.putStat_touches : ∀ s d v, Touches 4 s (State.putStat s d v) := by
  intro s d v
  unfold State.putStat
  exact ((State.putBit_touches ..).mono rfl)

theorem State.domCut_touches : ∀ s d, Touches 41942855 s (State.domCut s d) := by
  intro s d
  unfold State.domCut
  refine (Touches.ite (fun _ => ((State.onPower_touches ..).mono rfl)) (fun _ => ?_))
  extract_lets +onlyGivenNames blocks all
  clear_value blocks all
  extract_lets +onlyGivenNames s1
  have h_s1 : Touches 41942855 s s1 := (Touches.foldl (Touches.refl _ _) (fun _ _ h => (Touches.ite (fun _ => (h.step (State.fenceNow_touches ..) rfl)) (fun _ => h))))
  clear_value s1
  exact ((Touches.foldl h_s1 (fun _ _ h => (Touches.foldl h (fun _ _ h => (h.step (State.blockQuit_touches ..) rfl))))).step (State.putStat_touches ..) rfl)

theorem State.domReq_touches : ∀ s d on, Touches 41942855 s (State.domReq s d on) := by
  intro s d on
  unfold State.domReq
  refine (Touches.ite (fun _ => ((State.domWant_touches ..).mono rfl)) (fun _ => ?_))
  extract_lets +onlyGivenNames h
  clear_value h
  exact (Touches.ite (fun _ => (((State.putReq_touches ..).mono rfl).step (State.domCut_touches ..) rfl)) (fun _ => ((((State.setFld_touches ..).mono rfl).step (State.raise_touches ..) rfl).step (State.produce_touches ..) rfl)))

theorem State.domWrite_touches : ∀ s m i v, Touches 41942855 s (State.domWrite s m i v) := by
  intro s m i v
  unfold State.domWrite
  refine (State.regWrite_touches (Touches.refl _ _) rfl (fun _ h => (Touches.ite (fun _ => (h.step (State.stateWrite_touches ..) rfl)) (fun _ => ?_))))
  extract_lets +onlyGivenNames old
  clear_value old
  exact (Touches.foldl h (fun _ _ h1 => (Touches.ite (fun _ => h1) (fun _ => (h1.step (State.domReq_touches ..) rfl)))))

theorem execDomainOnRequest_touches : ∀ m i v s, Ends 41942855 s (execDomainOnRequest m i v s) := by
  intro m i v s
  unfold execDomainOnRequest
  exact Ends.next ((State.domWrite_touches ..).mono rfl)

theorem execDomainOffRequest_touches : ∀ m i v s, Ends 41942855 s (execDomainOffRequest m i v s) := by
  intro m i v s
  unfold execDomainOffRequest
  exact Ends.next ((State.domWrite_touches ..).mono rfl)

theorem State.domUp_touches : ∀ s d, Touches 636 s (State.domUp s d) := by
  intro s d
  unfold State.domUp
  extract_lets +onlyGivenNames pages
  clear_value pages
  extract_lets +onlyGivenNames s1
  have h_s1 : Touches 636 s s1 := (Touches.foldl (Touches.refl _ _) (fun _ _ h => (h.step (State.clearPage_touches ..) rfl)))
  clear_value s1
  extract_lets +onlyGivenNames s2
  have h_s2 : Touches 636 s s2 := (Touches.ite (fun _ => (Touches.foldl h_s1 (fun _ _ h => (h.step (State.clearPage_touches ..) rfl)))) (fun _ => h_s1))
  clear_value s2
  exact (h_s2.step (State.putStat_touches ..) rfl)

theorem execDomainReady_touches : ∀ s, Ends 17020 s (execDomainReady s) := by
  intro s
  unfold execDomainReady
  split
  · exact Ends.next (Touches.refl _ _)
  · extract_lets +onlyGivenNames s1
    have h_s1 : Touches 17020 s s1 := ((State.onPower_touches ..).mono rfl)
    clear_value s1
    refine Ends.ite (fun _ => ?_) (fun _ => ?_)
    · exact Ends.next (h_s1.step (State.domUp_touches ..) rfl)
    · exact Ends.next h_s1

theorem State.setPower_touches : ∀ s st, Touches 516 s (State.setPower s st) := by
  intro s st
  unfold State.setPower
  exact (((State.setFld_touches ..).mono rfl).step (State.produce_touches ..) rfl)

theorem State.dramTo_touches : ∀ s a b, Touches 4 s (State.dramTo s a b) := by
  intro s a b
  unfold State.dramTo
  exact (Touches.foldl (Touches.refl _ _) (fun _ _ h => (Touches.ite (fun _ => (h.step (State.setFld_touches ..) rfl)) (fun _ => h))))

theorem State.cutAll_touches : ∀ s keep, Touches 41942855 s (State.cutAll s keep) := by
  intro s keep
  unfold State.cutAll
  exact (Touches.foldl (Touches.refl _ _) (fun _ _ h => (Touches.ite (fun _ => h) (fun _ => ((h.step (State.putReq_touches ..) rfl).step (State.domCut_touches ..) rfl)))))

theorem State.mainLow_touches : ∀ s0, Touches 2115140 s0 (State.mainLow s0) := by
  intro s0
  unfold State.mainLow
  extract_lets +onlyGivenNames was
  clear_value was
  extract_lets +onlyGivenNames s
  have h_s : Touches 2115140 s0 s := ((((State.onNet_touches ..).mono rfl).step (State.setReg_touches ..) rfl).step (State.holdoverChange_touches ..) rfl)
  clear_value s
  exact ((h_s.step (State.setReg_touches ..) rfl).step (State.onPower_touches ..) rfl)

theorem State.stateRefused_touches : ∀ s, Touches 1092 s (State.stateRefused s) := by
  intro s
  unfold State.stateRefused
  exact ((State.raise_touches ..).mono rfl)

theorem State.standbyEnd_touches : ∀ s, Touches 516 s (State.standbyEnd s) := by
  intro s
  unfold State.standbyEnd
  exact (((State.dramTo_touches ..).mono rfl).step (State.setPower_touches ..) rfl)

theorem State.stateReq_touches : ∀ s m v, Touches 41942855 s (State.stateReq s m v) := by
  intro s m v
  unfold State.stateReq
  refine (State.regWrite_touches (Touches.refl _ _) rfl (fun _ h => ?_))
  extract_lets +onlyGivenNames st dst
  clear_value st dst
  refine (Touches.ite (fun _ => (h.step (State.stateRefused_touches ..) rfl)) (fun _ => (Touches.ite (fun _ => (Touches.ite (fun _ => (h.step (State.stateRefused_touches ..) rfl)) (fun _ => ((((h.step (State.cutAll_touches ..) rfl).step (State.dramTo_touches ..) rfl).step (State.onPower_touches ..) rfl).step (State.setPower_touches ..) rfl)))) (fun _ => (Touches.ite (fun _ => (h.step (State.standbyEnd_touches ..) rfl)) (fun _ => (Touches.ite (fun _ => ?_) (fun _ => (h.step (State.stateRefused_touches ..) rfl)))))))))
  split
  · exact ((h.step (State.setReg_touches ..) rfl).step (State.onPower_touches ..) rfl)
  · exact ((((h.step (State.cutAll_touches ..) rfl).step (State.dramTo_touches ..) rfl).step (State.setPower_touches ..) rfl).step (State.mainLow_touches ..) rfl)

theorem execStandbyRequest_touches : ∀ m v s, Ends 41942855 s (execStandbyRequest m v s) := by
  intro m v s
  unfold execStandbyRequest
  exact Ends.next ((State.stateReq_touches ..).mono rfl)

theorem execDormantRequest_touches : ∀ m v s, Ends 41942855 s (execDormantRequest m v s) := by
  intro m v s
  unfold execDormantRequest
  exact Ends.next ((State.stateReq_touches ..).mono rfl)

theorem execActiveRequest_touches : ∀ m v s, Ends 41942855 s (execActiveRequest m v s) := by
  intro m v s
  unfold execActiveRequest
  exact Ends.next ((State.stateReq_touches ..).mono rfl)

theorem execWake_touches : ∀ s, Ends 67108863 s (execWake s) := by
  intro s
  unfold execWake
  split
  · exact Ends.next (Touches.refl _ _)
  · extract_lets +onlyGivenNames cause st
    clear_value cause st
    extract_lets +onlyGivenNames s1
    have h_s1 : Touches 67108863 s s1 := ((State.onPower_touches ..).mono rfl)
    clear_value s1
    refine Ends.ite (fun _ => ?_) (fun _ => ?_)
    · exact Ends.next ((h_s1.step (State.setReg_touches ..) rfl).step (State.standbyEnd_touches ..) rfl)
    · refine Ends.ite (fun _ => ?_) (fun _ => ?_)
      · exact Ends.next ((h_s1.step (State.restart_touches ..) rfl).step (State.setReg_touches ..) rfl)
      · exact Ends.next h_s1

theorem State.judge_touches : ∀ s z k, Touches 17988 s (State.judge s z k) := by
  intro s z k
  unfold State.judge
  extract_lets +onlyGivenNames th old new
  clear_value th old new
  extract_lets +onlyGivenNames s1
  have h_s1 : Touches 17988 s s1 := ((State.onPower_touches ..).mono rfl)
  clear_value s1
  refine (Touches.ite (fun _ => h_s1) (fun _ => ?_))
  extract_lets +onlyGivenNames s2
  have h_s2 : Touches 17988 s s2 := (h_s1.step (State.count_touches ..) rfl)
  clear_value s2
  extract_lets +onlyGivenNames s3
  have h_s3 : Touches 17988 s s3 := ((Touches.ite (fun _ => (h_s2.step (State.raise_touches ..) rfl)) (fun _ => h_s2)).step (State.produce_touches ..) rfl)
  clear_value s3
  exact (Touches.ite (fun _ => (h_s3.step (State.onPower_touches ..) rfl)) (fun _ => (Touches.ite (fun _ => (h_s3.step (State.onPower_touches ..) rfl)) (fun _ => h_s3))))

theorem State.thrUpdate_touches : ∀ s, Touches 16388 s (State.thrUpdate s) := by
  intro s
  unfold State.thrUpdate
  extract_lets +onlyGivenNames s1
  have h_s1 : Touches 16388 s s1 := (Touches.foldl (Touches.refl _ _) (fun _ _ h => (h.step (State.setReg_touches ..) rfl)))
  clear_value s1
  extract_lets +onlyGivenNames gated
  clear_value gated
  extract_lets +onlyGivenNames s2
  have h_s2 : Touches 16388 s s2 := (h_s1.step (State.onPower_touches ..) rfl)
  clear_value s2
  exact (Touches.ite (fun _ => (h_s2.step (State.count_touches ..) rfl)) (fun _ => h_s2))

theorem State.thermShow_touches : ∀ s, Touches 4 s (State.thermShow s) := by
  intro s
  unfold State.thermShow
  extract_lets +onlyGivenNames s1
  have h_s1 : Touches 4 s s1 := by
    unfold s1
    refine (Touches.foldl (Touches.refl _ _) (fun _ _ h => ?_))
    extract_lets +onlyGivenNames b
    exact ((h.step (State.setReg_touches ..) rfl).step (State.setReg_touches ..) rfl)
  clear_value s1
  extract_lets +onlyGivenNames s2
  have h_s2 : Touches 4 s s2 := (Touches.foldl h_s1 (fun _ _ h => ((h.step (State.setFld_touches ..) rfl).step (State.setFld_touches ..) rfl)))
  clear_value s2
  exact (h_s2.step (State.setReg_touches ..) rfl)

theorem execThermalSample_touches : ∀ raw s, Ends 17988 s (execThermalSample raw s) := by
  intro raw s
  unfold execThermalSample
  refine Ends.ite (fun _ => ?_) (fun _ => ?_)
  · exact Ends.next (Touches.refl _ _)
  · extract_lets +onlyGivenNames s1
    have h_s1 : Touches 17988 s s1 := ((State.onPower_touches ..).mono rfl)
    clear_value s1
    extract_lets +onlyGivenNames valid
    clear_value valid
    extract_lets +onlyGivenNames s2
    have h_s2 : Touches 17988 s s2 := (Touches.ite (fun _ => (h_s1.step (State.raise_touches ..) rfl)) (fun _ => h_s1))
    clear_value s2
    extract_lets +onlyGivenNames s3
    have h_s3 : Touches 17988 s s3 := (Touches.foldl h_s2 (fun _ _ h => (Touches.foldl h (fun _ _ h => (h.step (State.judge_touches ..) rfl)))))
    clear_value s3
    extract_lets +onlyGivenNames s4
    have h_s4 : Touches 17988 s s4 := (h_s3.step (State.onPower_touches ..) rfl)
    clear_value s4
    extract_lets +onlyGivenNames pre
    clear_value pre
    extract_lets +onlyGivenNames s5
    have h_s5 : Touches 17988 s s5 := (Touches.ite (fun _ => (((h_s4.step (State.onPower_touches ..) rfl).step (State.produce_touches ..) rfl).step (State.snapTrigger_touches ..) rfl)) (fun _ => (h_s4.step (State.onPower_touches ..) rfl)))
    clear_value s5
    extract_lets +onlyGivenNames trip hot
    clear_value trip hot
    extract_lets +onlyGivenNames s6
    have h_s6 : Touches 17988 s s6 := by
      unfold s6
      split
      · exact (h_s5.step (State.onPower_touches ..) rfl)
      · exact h_s5
    clear_value s6
    extract_lets +onlyGivenNames margin cool
    clear_value margin cool
    extract_lets +onlyGivenNames s7
    have h_s7 : Touches 17988 s s7 := (h_s6.step (State.onPower_touches ..) rfl)
    clear_value s7
    exact Ends.next (((h_s7.step (State.thermShow_touches ..) rfl).step (State.thrUpdate_touches ..) rfl).step (State.fnUpdate_touches ..) rfl)

theorem execThermalTrip_touches : ∀ s, Ends 41942855 s (execThermalTrip s) := by
  intro s
  unfold execThermalTrip
  split
  · exact Ends.next (Touches.refl _ _)
  · refine Ends.ite (fun _ => ?_) (fun _ => ?_)
    · exact Ends.next (Touches.refl _ _)
    · refine Ends.ite (fun _ => ?_) (fun _ => ?_)
      · exact Ends.next ((State.onPower_touches ..).mono rfl)
      · extract_lets +onlyGivenNames trips peak
        clear_value trips peak
        extract_lets +onlyGivenNames s1
        have h_s1 : Touches 41942855 s s1 := ((((State.cutAll_touches ..).mono rfl).step (State.setPower_touches ..) rfl).step (State.onPower_touches ..) rfl)
        clear_value s1
        extract_lets +onlyGivenNames s2
        have h_s2 : Touches 41942855 s s2 := (((h_s1.step (State.dramTo_touches ..) rfl).step (State.dramTo_touches ..) rfl).step (State.mainLow_touches ..) rfl)
        clear_value s2
        exact Ends.next (h_s2.step (State.cocoonPut_touches ..) rfl)

theorem execThermalRestart_touches : ∀ s, Ends 67108863 s (execThermalRestart s) := by
  intro s
  unfold execThermalRestart
  refine Ends.ite (fun _ => ?_) (fun _ => ?_)
  · exact Ends.next (Touches.refl _ _)
  · exact Ends.next ((State.restart_touches ..).mono rfl)

theorem execSensorCheck_touches : ∀ diode s, Ends 17988 s (execSensorCheck diode s) := by
  intro diode s
  unfold execSensorCheck
  refine Ends.ite (fun _ => ?_) (fun _ => ?_)
  · exact Ends.next (Touches.refl _ _)
  · extract_lets +onlyGivenNames p tol
    clear_value p tol
    extract_lets +onlyGivenNames s0
    have h_s0 : Touches 17988 s s0 := (Touches.foldl (Touches.refl _ _) (fun _ _ h => (h.step (State.setReg_touches ..) rfl)))
    clear_value s0
    extract_lets +onlyGivenNames s1
    have h_s1 : Touches 17988 s s1 := (h_s0.step (State.onPower_touches ..) rfl)
    clear_value s1
    extract_lets +onlyGivenNames put s2
    have h_s2 : Touches 17988 s s2 := by
      unfold s2
      refine (Touches.foldl h_s1 (fun _ _ h => ?_))
      extract_lets +onlyGivenNames r d
      clear_value r d
      refine (Touches.ite (fun _ => ?_) (fun _ => (Touches.ite (fun _ => h) (fun _ => (Touches.ite (fun _ => (h.step (State.onPower_touches ..) rfl)) (fun _ => ((h.step (State.onPower_touches ..) rfl).step (State.putBit_touches ..) rfl)))))))
      extract_lets +onlyGivenNames u
      have h_u : Touches 17988 s u := (h.step (State.onPower_touches ..) rfl)
      clear_value u
      exact (Touches.ite (fun _ => h_u) (fun _ => ((((h_u.step (State.putBit_touches ..) rfl).step (State.count_touches ..) rfl).step (State.raise_touches ..) rfl).step (State.produce_touches ..) rfl)))
    clear_value s2
    exact Ends.next ((Touches.ite (fun _ => (h_s2.step (State.raise_touches ..) rfl)) (fun _ => h_s2)).step (State.thermShow_touches ..) rfl)

theorem execCompensationRun_touches : ∀ s0, Ends 33571908 s0 (execCompensationRun s0) := by
  intro s0
  unfold execCompensationRun
  refine Ends.ite (fun _ => ?_) (fun _ => ?_)
  · exact Ends.next (Touches.refl _ _)
  · extract_lets +onlyGivenNames s
    have h_s : Touches 33571908 s0 s := ((State.onPower_touches ..).mono rfl)
    clear_value s
    extract_lets +onlyGivenNames p
    clear_value p
    split
    · exact Ends.next ((h_s.step (State.putBit_touches ..) rfl).step (State.raise_touches ..) rfl)
    · extract_lets +onlyGivenNames a
      have h_a : Touches 33571908 s0 a.2 := (h_s.step (State.drawWord_touches ..) rfl)
      clear_value a
      extract_lets +onlyGivenNames b
      have h_b : Touches 33571908 s0 b.2 := (h_a.step (State.drawWord_touches ..) rfl)
      clear_value b
      extract_lets +onlyGivenNames c
      have h_c : Touches 33571908 s0 c.2 := (h_b.step (State.drawWord_touches ..) rfl)
      clear_value c
      extract_lets +onlyGivenNames s1
      have h_s1 : Touches 33571908 s0 s1 := (((h_c.step (State.setReg_touches ..) rfl).step (State.setReg_touches ..) rfl).step (State.setReg_touches ..) rfl)
      clear_value s1
      exact Ends.next (((h_s1.step (State.setReg_touches ..) rfl).step (State.count_touches ..) rfl).step (State.putBit_touches ..) rfl)

end Sys2Proof.Machine
end

