-- ==== Sys2Proof/Laws/Touch/Boot.lean ====
section
/-!
SUPPORT. What each operation of Machine/Boot.lean may touch (see Laws/Touches.lean).
-/

-- One proof at a time bounds the threads and memory of a compile.
set_option Elab.async false

namespace Sys2Proof.Machine

open Sys2Proof

theorem State.bootCommit_touches : ∀ s, Touches 1024 s (State.bootCommit s) := by
  intro s
  unfold State.bootCommit
  exact ((State.cocoonPut_touches ..).mono rfl)

theorem execConfirm_touches : ∀ m v s, Ends 17476 s (execConfirm m v s) := by
  intro m v s
  unfold execConfirm
  exact Ends.next (State.regWrite_touches (Touches.refl _ _) rfl (fun _ h => (Touches.ite (fun _ => h) (fun _ => ((h.step (State.onPower_touches ..) rfl).step (State.bootCommit_touches ..) rfl)))))

theorem execPref_touches : ∀ m v s, Ends 17476 s (execPref m v s) := by
  intro m v s
  unfold execPref
  exact Ends.next (State.regWrite_touches (Touches.refl _ _) rfl (fun _ h => (Touches.ite (fun _ => h) (fun _ => ((h.step (State.onPower_touches ..) rfl).step (State.bootCommit_touches ..) rfl)))))

theorem execVerAdv_touches : ∀ m v s, Ends 17476 s (execVerAdv m v s) := by
  intro m v s
  unfold execVerAdv
  refine Ends.next (State.regWrite_touches (Touches.refl _ _) rfl (fun _ h => (Touches.ite (fun _ => h) (fun _ => ?_))))
  extract_lets +onlyGivenNames ver
  clear_value ver
  exact ((h.step (State.onPower_touches ..) rfl).step (State.setReg_touches ..) rfl)

theorem execVerifyCmd_touches : ∀ m v s, Ends 1092 s (execVerifyCmd m v s) := by
  intro m v s
  unfold execVerifyCmd
  refine Ends.next (State.regWrite_touches (Touches.refl _ _) rfl (fun _ h => ?_))
  extract_lets +onlyGivenNames st
  clear_value st
  exact (Touches.ite (fun _ => (h.step (State.stateWrite_touches ..) rfl)) (fun _ => (Touches.ite (fun _ => h) (fun _ => (h.step (State.setReg_touches ..) rfl)))))

theorem State.imageVerified_touches : ∀ s a n entry, Touches 8196 s (State.imageVerified s a n entry) := by
  intro s a n entry
  unfold State.imageVerified
  extract_lets +onlyGivenNames s1
  have h_s1 : Touches 8196 s s1 := (((State.setReg_touches ..).mono rfl).step (State.setReg64_touches ..) rfl)
  clear_value s1
  exact (h_s1.step (State.onPlat_touches ..) rfl)

theorem execVerifyDone_touches : ∀ s, Ends 9796 s (execVerifyDone s) := by
  intro s
  unfold execVerifyDone
  refine Ends.ite (fun _ => ?_) (fun _ => ?_)
  · exact Ends.next (Touches.refl _ _)
  · extract_lets +onlyGivenNames a
    clear_value a
    extract_lets +onlyGivenNames h
    have h_h : Touches 9796 s h.2 := ((State.busRead_touches ..).mono rfl)
    clear_value h
    extract_lets +onlyGivenNames n
    clear_value n
    extract_lets +onlyGivenNames pay
    have h_pay : Touches 9796 s pay.2 := (h_h.step (State.busRead_touches ..) rfl)
    clear_value pay
    extract_lets +onlyGivenNames r
    clear_value r
    extract_lets +onlyGivenNames t1
    have h_t1 : Touches 9796 s t1 := (Touches.ite (fun _ => h_h) (fun _ => h_pay))
    clear_value t1
    refine Ends.ite (fun _ => ?_) (fun _ => ?_)
    · exact Ends.next (h_t1.step (State.imageVerified_touches ..) rfl)
    · extract_lets +onlyGivenNames valid
      clear_value valid
      exact Ends.next ((h_t1.step (State.setReg_touches ..) rfl).step (State.raise_touches ..) rfl)

theorem State.xspiStart_touches : ∀ s m v, Touches 17476 s (State.xspiStart s m v) := by
  intro s m v
  unfold State.xspiStart
  exact (State.regWrite_touches (Touches.refl _ _) rfl (fun _ h => (Touches.ite (fun _ => (h.step (State.stateWrite_touches ..) rfl)) (fun _ => ((h.step (State.setFld_touches ..) rfl).step (State.onPower_touches ..) rfl)))))

theorem execXspiRead_touches : ∀ m v s, Ends 17476 s (execXspiRead m v s) := by
  intro m v s
  unfold execXspiRead
  exact Ends.next ((State.xspiStart_touches ..).mono rfl)

theorem execXspiProgram_touches : ∀ m v s, Ends 17476 s (execXspiProgram m v s) := by
  intro m v s
  unfold execXspiProgram
  exact Ends.next ((State.xspiStart_touches ..).mono rfl)

theorem execXspiErase_touches : ∀ m v s, Ends 17476 s (execXspiErase m v s) := by
  intro m v s
  unfold execXspiErase
  exact Ends.next ((State.xspiStart_touches ..).mono rfl)

theorem execXspiDone_touches : ∀ ok s, Ends 26183 s (execXspiDone ok s) := by
  intro ok s
  unfold execXspiDone
  split
  · exact Ends.next (Touches.refl _ _)
  · extract_lets +onlyGivenNames a buf
    clear_value a buf
    extract_lets +onlyGivenNames s0
    have h_s0 : Touches 26183 s s0 := ((State.onPower_touches ..).mono rfl)
    clear_value s0
    extract_lets +onlyGivenNames fail done
    refine Ends.ite (fun _ => ?_) (fun _ => ?_)
    · exact Ends.next ((h_s0.step (State.setFld_touches ..) rfl).step (State.raise_touches ..) rfl)
    · refine Ends.ite (fun _ => ?_) (fun _ => ?_)
      · exact Ends.next ((h_s0.step (State.busWrite_touches ..) rfl).step (State.setFld_touches ..) rfl)
      · refine Ends.ite (fun _ => ?_) (fun _ => ?_)
        · extract_lets +onlyGivenNames r
          have h_r : Touches 26183 s r.2 := (h_s0.step (State.busRead_touches ..) rfl)
          clear_value r
          extract_lets +onlyGivenNames page new
          clear_value page new
          refine Ends.ite (fun _ => ?_) (fun _ => ?_)
          · exact Ends.next ((h_r.step (State.setFld_touches ..) rfl).step (State.raise_touches ..) rfl)
          · exact Ends.next ((h_r.step (State.onPower_touches ..) rfl).step (State.setFld_touches ..) rfl)
        · exact Ends.next ((h_s0.step (State.onPower_touches ..) rfl).step (State.setFld_touches ..) rfl)

theorem State.silkDrain_touches : ∀ s, Touches 9799 s (State.silkDrain s) := by
  intro s
  unfold State.silkDrain
  exact (Touches.foldl (Touches.refl _ _) (fun _ _ h => ((h.step (State.onDep_touches ..) rfl).step (State.silkWrite_touches ..) rfl)))

theorem State.silkOpen_touches : ∀ s p d0 d1 d2, Touches 33564231 s (State.silkOpen s p d0 d1 d2) := by
  intro s p d0 d1 d2
  unfold State.silkOpen
  extract_lets +onlyGivenNames k
  have h_k : Touches 33564231 s k.2 := ((State.drawNat_touches ..).mono rfl)
  clear_value k
  exact ((h_k.step (State.silkDrain_touches ..) rfl).step (State.silkOf_touches ..) rfl)

theorem State.halt_touches : ∀ s k, Touches 33564231 s (State.halt s k) := by
  intro s k
  unfold State.halt
  exact ((((State.putBit_touches ..).mono rfl).step (State.setFld_touches ..) rfl).step (State.silkOpen_touches ..) rfl)

theorem State.domSet_touches : ∀ s d, Touches 4 s (State.domSet s d) := by
  intro s d
  unfold State.domSet
  exact (((State.putReq_touches ..).mono rfl).step (State.putStat_touches ..) rfl)

theorem State.startMain_touches : ∀ s, Touches 9799 s (State.startMain s) := by
  intro s
  unfold State.startMain
  extract_lets +onlyGivenNames s1
  have h_s1 : Touches 9799 s s1 := (Touches.foldl (Touches.refl _ _) (fun _ _ h => (h.step (State.setReg_touches ..) rfl)))
  clear_value s1
  extract_lets +onlyGivenNames s2
  have h_s2 : Touches 9799 s s2 := by
    unfold s2
    refine (Touches.foldl h_s1 (fun _ _ h => ?_))
    exact (h.step (State.domSet_touches ..) rfl)
  clear_value s2
  extract_lets +onlyGivenNames rec_
  clear_value rec_
  refine (Touches.foldl h_s2 (fun _ _ h => ?_))
  extract_lets +onlyGivenNames h1 st
  clear_value h1 st
  extract_lets +onlyGivenNames u
  have h_u : Touches 9799 s u := ((h.step (State.setFld_touches ..) rfl).step (State.setFld_touches ..) rfl)
  clear_value u
  exact (((h_u.step (State.modPair_touches ..) rfl).step (State.silkDrain_touches ..) rfl).step (State.silk_touches ..) rfl)

theorem State.startImage_touches : ∀ s e, Touches 33580615 s (State.startImage s e) := by
  intro s e
  unfold State.startImage
  extract_lets +onlyGivenNames r
  clear_value r
  extract_lets +onlyGivenNames s1
  have h_s1 : Touches 33580615 s s1 := ((State.onPower_touches ..).mono rfl)
  clear_value s1
  extract_lets +onlyGivenNames s2
  have h_s2 : Touches 33580615 s s2 := (Touches.ite (fun _ => h_s1) (fun _ => (Touches.ite (fun _ => ((h_s1.step (State.onPower_touches ..) rfl).step (State.bootCommit_touches ..) rfl)) (fun _ => (((h_s1.step (State.onPower_touches ..) rfl).step (State.bootCommit_touches ..) rfl).step (State.raise_touches ..) rfl)))))
  clear_value s2
  extract_lets +onlyGivenNames s3
  have h_s3 : Touches 33580615 s s3 := (h_s2.step (State.setFld_touches ..) rfl)
  clear_value s3
  extract_lets +onlyGivenNames first r1 r2
  clear_value first r1 r2
  extract_lets +onlyGivenNames boot
  refine (Touches.ite (fun _ => (Touches.step ?_ (State.stepDone_touches ..) rfl)) (fun _ => (Touches.ite (fun _ => (Touches.step ?_ (State.stepDone_touches ..) rfl)) (fun _ => ((h_s3.step (State.setReg_touches ..) rfl).step (State.halt_touches ..) rfl)))))
  · unfold boot
    beta_reduce
    extract_lets +onlyGivenNames h
    clear_value h
    extract_lets +onlyGivenNames u
    have h_u : Touches 33580615 s u := (h_s3.step (State.setReg_touches ..) rfl)
    clear_value u
    exact ((Touches.ite (fun _ => h_u) (fun _ => (h_u.step (State.raise_touches ..) rfl))).step (State.onPower_touches ..) rfl)
  · unfold boot
    beta_reduce
    extract_lets +onlyGivenNames h
    clear_value h
    extract_lets +onlyGivenNames u
    have h_u : Touches 33580615 s u := (h_s3.step (State.setReg_touches ..) rfl)
    clear_value u
    exact ((Touches.ite (fun _ => h_u) (fun _ => (h_u.step (State.raise_touches ..) rfl))).step (State.onPower_touches ..) rfl)

theorem State.startRecords_touches : ∀ s, Touches 33564231 s (State.startRecords s) := by
  intro s
  unfold State.startRecords
  exact (Touches.foldl (Touches.refl _ _) (fun _ _ h => (Touches.ite (fun _ => h) (fun _ => (((h.step (State.raise_touches ..) rfl).step (State.produce_touches ..) rfl).step (State.silkOpen_touches ..) rfl)))))

theorem State.startMap_touches : ∀ s, Touches 1028 s (State.startMap s) := by
  intro s
  unfold State.startMap
  extract_lets +onlyGivenNames r
  clear_value r
  extract_lets +onlyGivenNames half s0
  have h_s0 : Touches 1028 s s0 := (Touches.foldl (Touches.refl _ _) (fun _ _ h => (h.step (State.setReg_touches ..) rfl)))
  clear_value s0
  extract_lets +onlyGivenNames s1
  have h_s1 : Touches 1028 s s1 := by
    unfold s1
    refine (Touches.foldl h_s0 (fun _ _ h => ?_))
    extract_lets +onlyGivenNames h1 id u
    have h_u : Touches 1028 s u := (h.step (State.modHealth_touches ..) rfl)
    clear_value u
    refine (Touches.ite (fun _ => (h_u.step (State.setReg_touches ..) rfl)) (fun _ => ?_))
    extract_lets +onlyGivenNames w
    have h_w : Touches 1028 s w := (h_u.step (State.setSpare_touches ..) rfl)
    clear_value w
    exact (Touches.ite (fun _ => (h_w.step (State.putBit_touches ..) rfl)) (fun _ => h_w))
  clear_value s1
  exact (Touches.foldl h_s1 (fun _ _ h => (Touches.ite (fun _ => h) (fun _ => ((h.step (State.putBit_touches ..) rfl).step (State.onDep_touches ..) rfl)))))

theorem remapRows_touches {K : Nat} {s u : State} {put : State → Nat → Nat → Nat → State} {n : Nat} {b : List Byte} (h : Touches K s u)
    (hp : ∀ t i j k, Touches K s t → Touches K s (put t i j k)) : Touches K s (remapRows put n b u) := by
  induction n generalizing b u with
  | zero => exact h
  | succ n ih =>
    unfold remapRows
    exact Touches.ite (fun _ => h) (fun _ => ih (hp _ _ _ _ h))

theorem State.startTables_touches : ∀ s, Touches 1028 s (State.startTables s) := by
  intro s
  unfold State.startTables
  extract_lets +onlyGivenNames b
  clear_value b
  extract_lets +onlyGivenNames s1
  have h_s1 : Touches 1028 s s1 := by
    unfold s1
    refine (remapRows_touches ((State.startMap_touches ..).mono rfl) (fun _ _ _ _ h => ?_))
    exact (h.step (State.modScrub_touches ..) rfl)
  clear_value s1
  refine (Touches.foldl h_s1 (fun _ _ h => ?_))
  split
  · exact h
  · extract_lets +onlyGivenNames ws
    clear_value ws
    exact ((h.step (State.setRegs32_touches ..) rfl).step (State.setFld_touches ..) rfl)

theorem State.dramEnter_touches : ∀ s n rd wr fast, Touches 4 s (State.dramEnter s n rd wr fast) := by
  intro s n rd wr fast
  unfold State.dramEnter
  exact ((((State.setReg_touches ..).mono rfl).step (State.setReg_touches ..) rfl).step (State.setReg_touches ..) rfl)

theorem State.dramTrain_touches : ∀ s n x, Touches 1604 s (State.dramTrain s n x) := by
  intro s n x
  unfold State.dramTrain
  extract_lets +onlyGivenNames p
  clear_value p
  refine (Touches.ite (fun _ => ((State.dramEnter_touches ..).mono rfl)) (fun _ => (Touches.ite (fun _ => ((State.setReg_touches ..).mono rfl)) (fun _ => ?_))))
  extract_lets +onlyGivenNames r rd wr stored
  clear_value r rd wr stored
  refine (Touches.ite (fun _ => ((State.dramEnter_touches ..).mono rfl)) (fun _ => ?_))
  extract_lets +onlyGivenNames s1
  have h_s1 : Touches 1604 s s1 := (Touches.ite (fun _ => ((State.raise_touches ..).mono rfl)) (fun _ => Touches.refl _ _))
  clear_value s1
  extract_lets +onlyGivenNames s2
  have h_s2 : Touches 1604 s s2 := ((Touches.ite (fun _ => ((h_s1.step (State.raise_touches ..) rfl).step (State.produce_touches ..) rfl)) (fun _ => h_s1)).step (State.setReg_touches ..) rfl)
  clear_value s2
  extract_lets +onlyGivenNames lanes
  clear_value lanes
  extract_lets +onlyGivenNames s3
  have h_s3 : Touches 1604 s s3 := (h_s2.step (State.setReg_touches ..) rfl)
  clear_value s3
  refine (Touches.ite (fun _ => ((h_s3.step (State.raise_touches ..) rfl).step (State.produce_touches ..) rfl)) (fun _ => ?_))
  extract_lets +onlyGivenNames narrow
  clear_value narrow
  extract_lets +onlyGivenNames s4
  have h_s4 : Touches 1604 s s4 := (Touches.ite (fun _ => ((h_s3.step (State.raise_touches ..) rfl).step (State.produce_touches ..) rfl)) (fun _ => h_s3))
  clear_value s4
  extract_lets +onlyGivenNames nrd nwr
  clear_value nrd nwr
  extract_lets +onlyGivenNames s5
  have h_s5 : Touches 1604 s s5 := (h_s4.step (State.dramEnter_touches ..) rfl)
  clear_value s5
  exact (Touches.ite (fun _ => (h_s5.step (State.cocoonPut_touches ..) rfl)) (fun _ => h_s5))

theorem State.startDram_touches : ∀ s e, Touches 33580615 s (State.startDram s e) := by
  intro s e
  unfold State.startDram
  extract_lets +onlyGivenNames s1
  have h_s1 : Touches 33580615 s s1 := (Touches.foldl (Touches.refl _ _) (fun _ _ h => (Touches.ite (fun _ => (h.step (State.domSet_touches ..) rfl)) (fun _ => h))))
  clear_value s1
  extract_lets +onlyGivenNames s2
  have h_s2 : Touches 33580615 s s2 := (Touches.foldl h_s1 (fun _ _ h => (h.step (State.dramTrain_touches ..) rfl)))
  clear_value s2
  exact (Touches.ite (fun _ => (h_s2.step (State.halt_touches ..) rfl)) (fun _ => ((h_s2.step (State.onPower_touches ..) rfl).step (State.stepDone_touches ..) rfl)))

theorem State.selfTest_touches : ∀ s e, Touches 41397831 s (State.selfTest s e) := by
  intro s e
  unfold State.selfTest
  extract_lets +onlyGivenNames s1
  have h_s1 : Touches 41397831 s s1 := by
    unfold s1
    refine (Touches.foldl (Touches.refl _ _) (fun _ _ h => ?_))
    extract_lets +onlyGivenNames full
    clear_value full
    extract_lets +onlyGivenNames u
    have h_u : Touches 41397831 s u := ((h.step (State.silkDrain_touches ..) rfl).step (State.sramHard_touches ..) rfl)
    clear_value u
    exact (Touches.ite (fun _ => (h_u.step (State.fenceNow_touches ..) rfl)) (fun _ => h_u))
  clear_value s1
  exact (Touches.foldl h_s1 (fun _ _ h => (((h.step (State.silkDrain_touches ..) rfl).step (State.fenceNow_touches ..) rfl).step (State.raise_touches ..) rfl)))

theorem State.loadBytes_touches : ∀ s a bs, Touches 9799 s (State.loadBytes s a bs) := by
  intro s a bs
  unfold State.loadBytes
  exact (Touches.foldl (Touches.refl _ _) (fun _ _ h => (h.step (State.busWrite_touches ..) rfl)))

theorem State.startHandover_touches : ∀ s e, Touches 41414215 s (State.startHandover s e) := by
  intro s e
  unfold State.startHandover
  extract_lets +onlyGivenNames h pay
  clear_value h pay
  extract_lets +onlyGivenNames s1
  have h_s1 : Touches 41414215 s s1 := (Touches.foldl (Touches.refl _ _) (fun _ _ h1 => (Touches.ite (fun _ => h1) (fun _ => (h1.step (State.domSet_touches ..) rfl)))))
  clear_value s1
  extract_lets +onlyGivenNames s2
  have h_s2 : Touches 41414215 s s2 := (((h_s1.step (State.selfTest_touches ..) rfl).step (State.silkDrain_touches ..) rfl).step (State.loadBytes_touches ..) rfl)
  clear_value s2
  extract_lets +onlyGivenNames s3
  have h_s3 : Touches 41414215 s s3 := ((h_s2.step (State.imageVerified_touches ..) rfl).step (State.onPower_touches ..) rfl)
  clear_value s3
  extract_lets +onlyGivenNames s4
  have h_s4 : Touches 41414215 s s4 := (Touches.foldl h_s3 (fun _ _ h1 => (h1.step (State.setReg64_touches ..) rfl)))
  clear_value s4
  extract_lets +onlyGivenNames s5
  have h_s5 : Touches 41414215 s s5 := (Touches.foldl h_s4 (fun _ _ h1 => (Touches.ite (fun _ => ((h1.step (State.modPair_touches ..) rfl).step (State.setPair_touches ..) rfl)) (fun _ => h1))))
  clear_value s5
  extract_lets +onlyGivenNames s6
  have h_s6 : Touches 41414215 s s6 := (Touches.foldl h_s5 (fun _ _ h1 => (Touches.ite (fun _ => h1) (fun _ => (h1.step (State.setReg_touches ..) rfl)))))
  clear_value s6
  exact ((h_s6.step (State.setReg_touches ..) rfl).step (State.stepDone_touches ..) rfl)

theorem State.startStep_touches : ∀ s e k, Touches 41414215 s (State.startStep s e k) := by
  intro s e k
  unfold State.startStep
  split
  · exact (((((State.putBit_touches ..).mono rfl).step (State.onPower_touches ..) rfl).step (State.onEvf_touches ..) rfl).step (State.stepDone_touches ..) rfl)
  · exact (((State.fuseLoad_touches ..).mono rfl).step (State.stepDone_touches ..) rfl)
  · exact (((State.startMain_touches ..).mono rfl).step (State.stepDone_touches ..) rfl)
  · exact ((State.startImage_touches ..).mono rfl)
  · exact (((State.startRecords_touches ..).mono rfl).step (State.stepDone_touches ..) rfl)
  · exact (((State.startTables_touches ..).mono rfl).step (State.stepDone_touches ..) rfl)
  · exact ((State.startDram_touches ..).mono rfl)
  · exact ((State.startHandover_touches ..).mono rfl)
  · exact Touches.refl _ _

theorem State.startRun_touches : ∀ s e upTo x3, Touches 41414215 s (State.startRun s e upTo x3) := by
  intro s e upTo x3
  induction x3 generalizing s e upTo
  · unfold State.startRun
    exact Touches.refl _ _
  · rename_i ih
    unfold State.startRun
    extract_lets +onlyGivenNames k
    clear_value k
    exact (Touches.ite (fun _ => Touches.refl _ _) (fun _ => (((State.startStep_touches ..).mono rfl).step (ih ..) rfl)))

theorem execStartUp_touches : ∀ upTo e s, Ends 67108863 s (execStartUp upTo e s) := by
  intro upTo e s
  unfold execStartUp
  split
  · refine Ends.ite (fun _ => ?_) (fun _ => ?_)
    · exact Ends.next (Touches.refl _ _)
    · exact Ends.next ((((State.onPower_touches ..).mono rfl).step (State.restart_touches ..) rfl).step (State.startRun_touches ..) rfl)
  · refine Ends.ite (fun _ => ?_) (fun _ => ?_)
    · exact Ends.next (Touches.refl _ _)
    · exact Ends.next ((State.startRun_touches ..).mono rfl)

theorem execStartUpFull_touches : ∀ s, Ends 16388 s (execStartUpFull s) := by
  intro s
  unfold execStartUpFull
  extract_lets +onlyGivenNames bist fixed
  clear_value bist fixed
  refine Ends.ite (fun _ => ?_) (fun _ => ?_)
  · exact Ends.next (Touches.refl _ _)
  · extract_lets +onlyGivenNames s1
    have h_s1 : Touches 16388 s s1 := (((State.stepDone_touches ..).mono rfl).step (State.putBit_touches ..) rfl)
    clear_value s1
    exact Ends.next (h_s1.step (State.setReg_touches ..) rfl)

theorem execPwrGoodRise_touches : ∀ pfwLow ram s, Ends 67108863 s (execPwrGoodRise pfwLow ram s) := by
  intro pfwLow ram s
  unfold execPwrGoodRise
  refine Ends.ite (fun _ => ?_) (fun _ => ?_)
  · exact Ends.next (Touches.refl _ _)
  · exact Ends.next (((State.wiped_touches ..).mono rfl).step (State.onPower_touches ..) rfl)

theorem execPwrGoodFall_touches : ∀ s, Ends 67108863 s (execPwrGoodFall s) := by
  intro s
  unfold execPwrGoodFall
  exact Ends.next (((State.wiped_touches ..).mono rfl).step (State.onPower_touches ..) rfl)

theorem execResetN_touches : ∀ level s, Ends 67108863 s (execResetN level s) := by
  intro level s
  unfold execResetN
  refine Ends.ite (fun _ => ?_) (fun _ => ?_)
  · exact Ends.next ((State.onPower_touches ..).mono rfl)
  · refine Ends.ite (fun _ => ?_) (fun _ => ?_)
    · exact Ends.next (Touches.refl _ _)
    · extract_lets +onlyGivenNames t1
      have h_t1 : Touches 67108863 s t1 := ((State.onPower_touches ..).mono rfl)
      clear_value t1
      exact Ends.next (Touches.ite (fun _ => (h_t1.step (State.restartReq_touches ..) rfl)) (fun _ => h_t1))

theorem execResetCmd_touches : ∀ m v s, Ends 67108863 s (execResetCmd m v s) := by
  intro m v s
  unfold execResetCmd
  exact Ends.next (State.regWrite_touches (Touches.refl _ _) rfl (fun _ h => (Touches.ite (fun _ => (h.step (State.restartReq_touches ..) rfl)) (fun _ => h))))

theorem execPfwNRelease_touches : ∀ s, Ends 67108863 s (execPfwNRelease s) := by
  intro s
  unfold execPfwNRelease
  refine Ends.ite (fun _ => ?_) (fun _ => ?_)
  · exact Ends.next ((State.onPower_touches ..).mono rfl)
  · refine Ends.ite (fun _ => ?_) (fun _ => ?_)
    · exact Ends.next ((State.restartReq_touches ..).mono rfl)
    · exact Ends.next (Touches.refl _ _)

theorem execMainRailTimeout_touches : ∀ s, Ends 33564231 s (execMainRailTimeout s) := by
  intro s
  unfold execMainRailTimeout
  split
  · exact Ends.next (Touches.refl _ _)
  · refine Ends.ite (fun _ => ?_) (fun _ => ?_)
    · exact Ends.next (Touches.refl _ _)
    · exact Ends.next ((State.halt_touches ..).mono rfl)

theorem execPllLossOfLock_touches : ∀ p locked s, Ends 1092 s (execPllLossOfLock p locked s) := by
  intro p locked s
  unfold execPllLossOfLock
  extract_lets +onlyGivenNames o
  clear_value o
  refine Ends.ite (fun _ => ?_) (fun _ => ?_)
  · exact Ends.next (Touches.refl _ _)
  · exact Ends.next ((((State.count_touches ..).mono rfl).step (State.putBit_touches ..) rfl).step (State.raise_touches ..) rfl)

end Sys2Proof.Machine
end

