-- ==== Sys2Proof/Laws/Touch/CodecDec.lean ====
section
/-!
SUPPORT. What each operation of Machine/CodecDec.lean may touch (see Laws/Touches.lean).
-/

-- One proof at a time bounds the threads and memory of a compile.
set_option Elab.async false

namespace Sys2Proof.Machine

open Sys2Proof

theorem State.decDone_touches : ∀ s p c flags, Touches 516 s (State.decDone s p c flags) := by
  intro s p c flags
  unfold State.decDone
  extract_lets +onlyGivenNames ev conc
  clear_value ev conc
  extract_lets +onlyGivenNames s1
  have h_s1 : Touches 516 s s1 := ((((State.count_touches ..).mono rfl).step (State.produceOn_touches ..) rfl).step (State.produce_touches ..) rfl)
  clear_value s1
  extract_lets +onlyGivenNames s2
  have h_s2 : Touches 516 s s2 := (Touches.ite (fun _ => ((h_s1.step (State.count_touches ..) rfl).step (State.produce_touches ..) rfl)) (fun _ => h_s1))
  clear_value s2
  exact (h_s2.step (State.produceOn_touches ..) rfl)

theorem State.decOutput_touches : ∀ s p c d, Touches 273991 s (State.decOutput s p c d) := by
  intro s p c d
  unfold State.decOutput
  extract_lets +onlyGivenNames e g fl
  clear_value e g fl
  extract_lets +onlyGivenNames s1
  have h_s1 : Touches 273991 s s1 := ((State.sessPost_touches ..).mono rfl)
  clear_value s1
  exact ((h_s1.step (State.modDec_touches ..) rfl).step (State.decDone_touches ..) rfl)

theorem State.decOutputAll_touches : ∀ s p c x3, Touches 273991 s (State.decOutputAll s p c x3) := by
  intro s p c x3
  induction x3 generalizing s p c
  · unfold State.decOutputAll
    exact Touches.refl _ _
  · rename_i ih
    unfold State.decOutputAll
    split
    · exact Touches.refl _ _
    · exact (((State.decOutput_touches ..).mono rfl).step (ih ..) rfl)

theorem State.decFlush_touches : ∀ s p c, Touches 273991 s (State.decFlush s p c) := by
  intro s p c
  unfold State.decFlush
  exact ((State.decOutputAll_touches ..).mono rfl)

theorem execFlush_touches : ∀ m p s, Ends 273991 s (execFlush m p s) := by
  intro m p s
  unfold execFlush
  exact Ends.next (State.sessCmd_touches (Touches.refl _ _) rfl (fun _ _ h => (Touches.ite (fun _ => (h.step (State.stateWrite_touches ..) rfl)) (fun _ => ((Touches.ite (fun _ => (h.step (State.decFlush_touches ..) rfl)) (fun _ => (h.step (State.modDec_touches ..) rfl))).step (State.sessStat_touches ..) rfl)))))

theorem execDecPictureOutput_touches : ∀ p s, Ends 273991 s (execDecPictureOutput p s) := by
  intro p s
  unfold execDecPictureOutput
  split
  · exact Ends.next (Touches.refl _ _)
  · refine Ends.ite (fun _ => ?_) (fun _ => ?_)
    · exact Ends.next (Touches.refl _ _)
    · split
      · exact Ends.next (Touches.refl _ _)
      · exact Ends.next ((State.decOutput_touches ..).mono rfl)

theorem execDecChunk_touches : ∀ p s, Ends 273991 s (execDecChunk p s) := by
  intro p s
  unfold execDecChunk
  split
  · exact Ends.next (Touches.refl _ _)
  · extract_lets +onlyGivenNames e
    clear_value e
    extract_lets +onlyGivenNames xsEnc
    refine Ends.ite (fun _ => ?_) (fun _ => ?_)
    · exact Ends.next (Touches.refl _ _)
    · split
      · exact Ends.next (Touches.of_snd ((State.take_touches ..).mono rfl) ‹_›)
      · extract_lets +onlyGivenNames r
        have h_r : Touches 273991 s r.2 := ((Touches.of_snd ((State.take_touches ..).mono rfl) ‹_›).step (State.busRead_touches ..) rfl)
        clear_value r
        extract_lets +onlyGivenNames fl
        clear_value fl
        extract_lets +onlyGivenNames s1
        have h_s1 : Touches 273991 s s1 := (h_r.step (State.modDec_touches ..) rfl)
        clear_value s1
        exact Ends.next ((h_s1.step (State.sessPost_touches ..) rfl).step (State.codecStart_touches ..) rfl)

theorem State.decBoundary_touches : ∀ s p c, Touches 273991 s (State.decBoundary s p c) := by
  intro s p c
  unfold State.decBoundary
  extract_lets +onlyGivenNames s1
  have h_s1 : Touches 273991 s s1 := (((State.modDec_touches ..).mono rfl).step (State.codecIdle_touches ..) rfl)
  clear_value s1
  extract_lets +onlyGivenNames s2
  have h_s2 : Touches 273991 s s2 := (Touches.ite (fun _ => ((h_s1.step (State.modDec_touches ..) rfl).step (State.decFlush_touches ..) rfl)) (fun _ => h_s1))
  clear_value s2
  exact (Touches.ite (fun _ => (h_s2.step (State.sessOff_touches ..) rfl)) (fun _ => h_s2))

theorem State.decTakeBuf_touches : ∀ s c x2, Touches 273991 s (State.decTakeBuf s c x2).2 := by
  intro s c x2
  induction x2 generalizing s c
  · unfold State.decTakeBuf
    change Touches2 273991 s _
    exact Touches.refl _ _
  · rename_i ih
    unfold State.decTakeBuf
    change Touches2 273991 s _
    split
    · exact (Touches.of_snd ((State.take_touches ..).mono rfl) ‹_›)
    · split
      · exact (((Touches.of_snd ((State.take_touches ..).mono rfl) ‹_›).step (State.modDec_touches ..) rfl).step (ih ..) rfl)
      · exact (Touches.of_snd ((State.take_touches ..).mono rfl) ‹_›)

theorem State.decBuffer_touches : ∀ s c, Touches 273991 s (State.decBuffer s c).2 := by
  intro s c
  unfold State.decBuffer
  change Touches2 273991 s _
  extract_lets +onlyGivenNames e
  clear_value e
  split
  · show Touches _ _ _
    dsimp only
    exact ((State.modDec_touches ..).mono rfl)
  · exact ((State.decTakeBuf_touches ..).mono rfl)

theorem State.decStore_touches : ∀ s p c buf bytes, Touches 33564231 s (State.decStore s p c buf bytes) := by
  intro s p c buf bytes
  unfold State.decStore
  extract_lets +onlyGivenNames w
  clear_value w
  extract_lets +onlyGivenNames pix
  have h_pix : Touches 33564231 s pix.2 := ((State.drawBytes_touches ..).mono rfl)
  clear_value pix
  extract_lets +onlyGivenNames mot
  have h_mot : Touches 33564231 s mot.2 := (h_pix.step (State.drawBytes_touches ..) rfl)
  clear_value mot
  exact ((h_mot.step (State.busWrite_touches ..) rfl).step (State.busWrite_touches ..) rfl)

theorem State.decFaults_touches : ∀ s p lost poison missing, Touches 1092 s (State.decFaults s p lost poison missing) := by
  intro s p lost poison missing
  unfold State.decFaults
  extract_lets +onlyGivenNames s1
  have h_s1 : Touches 1092 s s1 := (Touches.ite (fun _ => (((State.raise_touches ..).mono rfl).step (State.count_touches ..) rfl)) (fun _ => Touches.refl _ _))
  clear_value s1
  extract_lets +onlyGivenNames s2
  have h_s2 : Touches 1092 s s2 := (Touches.ite (fun _ => (h_s1.step (State.raise_touches ..) rfl)) (fun _ => h_s1))
  clear_value s2
  exact (Touches.ite (fun _ => ((h_s2.step (State.raise_touches ..) rfl).step (State.count_touches ..) rfl)) (fun _ => h_s2))

theorem State.decPicture_touches : ∀ s p c a, Touches 33828423 s (State.decPicture s p c a) := by
  intro s p c a
  unfold State.decPicture
  extract_lets +onlyGivenNames w e newSize
  clear_value w e newSize
  extract_lets +onlyGivenNames s0
  have h_s0 : Touches 33828423 s s0 := (Touches.ite (fun _ => ((State.modDec_touches ..).mono rfl)) (fun _ => ((State.decFlush_touches ..).mono rfl)))
  clear_value s0
  extract_lets +onlyGivenNames s01
  have h_s01 : Touches 33828423 s s01 := (Touches.ite (fun _ => (h_s0.step (State.modDec_touches ..) rfl)) (fun _ => Touches.refl _ _))
  clear_value s01
  extract_lets +onlyGivenNames seq here missing lost conc flags
  clear_value seq here missing lost conc flags
  extract_lets +onlyGivenNames s1
  have h_s1 : Touches 33828423 s s1 := (h_s01.step (State.modDec_touches ..) rfl)
  clear_value s1
  extract_lets +onlyGivenNames b
  have h_b : Touches 33828423 s b.2 := (h_s1.step (State.decBuffer_touches ..) rfl)
  clear_value b
  extract_lets +onlyGivenNames bytes pic
  clear_value bytes pic
  extract_lets +onlyGivenNames r
  have h_r : Touches 33828423 s r.2 := (h_b.step (State.drawWord_touches ..) rfl)
  clear_value r
  extract_lets +onlyGivenNames r1
  have h_r1' : Touches2 33828423 s r1 := by
    unfold r1
    split
    · exact ((h_r.step (State.raise_touches ..) rfl).step (State.count_touches ..) rfl)
    · split
      · exact (h_b.step (State.count_touches ..) rfl)
      · exact ((h_b.step (State.decFaults_touches ..) rfl).step (State.decStore_touches ..) rfl)
  have h_r1 : Touches 33828423 s r1.2 := h_r1'
  clear_value r1
  extract_lets +onlyGivenNames s2
  have h_s2 : Touches 33828423 s s2 := (h_r1.step (State.modDec_touches ..) rfl)
  clear_value s2
  exact (Touches.ite (fun _ => (h_s2.step (State.decFlush_touches ..) rfl)) (fun _ => h_s2))

theorem execDecAccessUnit_touches : ∀ p a err s, Ends 33828423 s (execDecAccessUnit p a err s) := by
  intro p a err s
  unfold execDecAccessUnit
  split
  · exact Ends.next (Touches.refl _ _)
  · extract_lets +onlyGivenNames e
    clear_value e
    refine Ends.ite (fun _ => ?_) (fun _ => ?_)
    · exact Ends.next (Touches.refl _ _)
    · extract_lets +onlyGivenNames r
      have h_r : Touches 33828423 s r.2 := ((State.codecErr_touches ..).mono rfl)
      clear_value r
      extract_lets +onlyGivenNames t1
      have h_t1 : Touches 33828423 s t1 := (Touches.ite (fun _ => (h_r.step (State.modDec_touches ..) rfl)) (fun _ => h_r))
      clear_value t1
      refine Ends.ite (fun _ => ?_) (fun _ => ?_)
      · exact Ends.next (h_t1.step (State.decBoundary_touches ..) rfl)
      · refine Ends.ite (fun _ => ?_) (fun _ => ?_)
        · exact Ends.next ((((h_t1.step (State.count_touches ..) rfl).step (State.raise_touches ..) rfl).step (State.modDec_touches ..) rfl).step (State.decBoundary_touches ..) rfl)
        · exact Ends.next (((h_t1.step (State.decPicture_touches ..) rfl).step (State.sessRuntime_touches ..) rfl).step (State.decBoundary_touches ..) rfl)

theorem State.xsEnd_touches : ∀ s p c flags, Touches 33828423 s (State.xsEnd s p c flags) := by
  intro s p c flags
  unfold State.xsEnd
  exact (((((State.modDec_touches ..).mono rfl).step (State.sessRuntime_touches ..) rfl).step (State.decDone_touches ..) rfl).step (State.decBoundary_touches ..) rfl)

theorem State.xsDrop_touches : ∀ s p c src fl buf, Touches 33566279 s (State.xsDrop s p c src fl buf) := by
  intro s p c src fl buf
  unfold State.xsDrop
  extract_lets +onlyGivenNames r
  have h_r : Touches 33566279 s r.2 := ((State.drawWord_touches ..).mono rfl)
  clear_value r
  extract_lets +onlyGivenNames q
  have h_q : Touches 33566279 s q.2 := (h_r.step (State.drawWord_touches ..) rfl)
  clear_value q
  extract_lets +onlyGivenNames u
  have h_u' : Touches22 33566279 s u := by
    unfold u
    split
    · exact Touches.refl _ _
    · exact h_q
  have h_u : Touches 33566279 s u.2.2 := h_u'
  clear_value u
  extract_lets +onlyGivenNames poc
  have h_poc : Touches 33566279 s poc.2 := (h_u.step (State.drawWord_touches ..) rfl)
  clear_value poc
  exact (((h_poc.step (State.sessPost_touches ..) rfl).step (State.sessPost_touches ..) rfl).step (State.sessPicEvt_touches ..) rfl)

theorem State.xsEncStart_touches : ∀ s p c, Touches 33828423 s (State.xsEncStart s p c) := by
  intro s p c
  unfold State.xsEncStart
  extract_lets +onlyGivenNames w
  clear_value w
  split
  · exact (Touches.of_snd ((State.take_touches ..).mono rfl) ‹_›)
  · refine (Touches.ite (fun _ => ((Touches.of_snd ((State.take_touches ..).mono rfl) ‹_›).step (State.xsDrop_touches ..) rfl)) (fun _ => ?_))
    split
    · exact ((((Touches.of_snd ((Touches.of_snd ((State.take_touches ..).mono rfl) ‹_›).step (State.take_touches ..) rfl) ‹_›).step (State.xsDrop_touches ..) rfl).step (State.raise_touches ..) rfl).step (State.count_touches ..) rfl)
    · exact (Touches.ite (fun _ => ((Touches.of_snd ((Touches.of_snd ((State.take_touches ..).mono rfl) ‹_›).step (State.take_touches ..) rfl) ‹_›).step (State.xsDrop_touches ..) rfl)) (fun _ => (((Touches.of_snd ((Touches.of_snd ((State.take_touches ..).mono rfl) ‹_›).step (State.take_touches ..) rfl) ‹_›).step (State.modDec_touches ..) rfl).step (State.codecStart_touches ..) rfl)))

theorem State.xsEncSlice_touches : ∀ s p c f, Touches 33828423 s (State.xsEncSlice s p c f) := by
  intro s p c f
  unfold State.xsEncSlice
  extract_lets +onlyGivenNames w n
  clear_value w n
  extract_lets +onlyGivenNames data
  have h_data : Touches 33828423 s data.2 := ((State.drawBytes_touches ..).mono rfl)
  clear_value data
  extract_lets +onlyGivenNames poc
  have h_poc : Touches 33828423 s poc.2 := (h_data.step (State.drawWord_touches ..) rfl)
  clear_value poc
  extract_lets +onlyGivenNames last d addr
  clear_value last d addr
  extract_lets +onlyGivenNames s1
  have h_s1 : Touches 33828423 s s1 := ((h_poc.step (State.busWrite_touches ..) rfl).step (State.sessPost_touches ..) rfl)
  clear_value s1
  exact (Touches.ite (fun _ => ((h_s1.step (State.sessPost_touches ..) rfl).step (State.xsEnd_touches ..) rfl)) (fun _ => (h_s1.step (State.modDec_touches ..) rfl)))

theorem State.xsDecStart_touches : ∀ s p c, Touches 33828423 s (State.xsDecStart s p c) := by
  intro s p c
  unfold State.xsDecStart
  extract_lets +onlyGivenNames w e need
  clear_value w e need
  extract_lets +onlyGivenNames lost
  split
  · extract_lets +onlyGivenNames k
    have h_k : Touches 33828423 s k.2 := ((Touches.of_snd ((State.take_touches ..).mono rfl) ‹_›).step (State.drawWord_touches ..) rfl)
    clear_value k
    exact (((((h_k.step (State.raise_touches ..) rfl).step (State.count_touches ..) rfl).step (State.sessPost_touches ..) rfl).step (State.modDec_touches ..) rfl).step (State.xsEnd_touches ..) rfl)
  · exact (Touches.ite (fun _ => (((((Touches.of_snd ((State.take_touches ..).mono rfl) ‹_›).step (State.count_touches ..) rfl).step (State.sessPost_touches ..) rfl).step (State.modDec_touches ..) rfl).step (State.xsEnd_touches ..) rfl)) (fun _ => ((Touches.of_snd ((State.take_touches ..).mono rfl) ‹_›).step (State.modDec_touches ..) rfl)))

theorem State.xsDecSlice_touches : ∀ s p c lost f, Touches 33828423 s (State.xsDecSlice s p c lost f) := by
  intro s p c lost f
  unfold State.xsDecSlice
  extract_lets +onlyGivenNames w e
  clear_value w e
  extract_lets +onlyGivenNames s0
  have h_s0 : Touches 33828423 s s0 := (Touches.ite (fun _ => ((State.raise_touches ..).mono rfl)) (fun _ => Touches.refl _ _))
  clear_value s0
  extract_lets +onlyGivenNames s1
  have h_s1 : Touches 33828423 s s1 := (Touches.ite (fun _ => (h_s0.step (State.raise_touches ..) rfl)) (fun _ => h_s0))
  clear_value s1
  extract_lets +onlyGivenNames fl
  clear_value fl
  refine (Touches.ite (fun _ => (h_s1.step (State.modDec_touches ..) rfl)) (fun _ => ?_))
  extract_lets +onlyGivenNames pix
  have h_pix : Touches 33828423 s pix.2 := (h_s1.step (State.drawBytes_touches ..) rfl)
  clear_value pix
  extract_lets +onlyGivenNames s2
  have h_s2 : Touches 33828423 s s2 := ((h_pix.step (State.busWrite_touches ..) rfl).step (State.sessPost_touches ..) rfl)
  clear_value s2
  exact ((h_s2.step (State.modDec_touches ..) rfl).step (State.xsEnd_touches ..) rfl)

theorem execXsSlice_touches : ∀ n lost err s0, Ends 33828423 s0 (execXsSlice n lost err s0) := by
  intro n lost err s0
  unfold execXsSlice
  extract_lets +onlyGivenNames p
  clear_value p
  split
  · exact Ends.next (Touches.refl _ _)
  · extract_lets +onlyGivenNames e
    clear_value e
    refine Ends.ite (fun _ => ?_) (fun _ => ?_)
    · exact Ends.next (Touches.refl _ _)
    · extract_lets +onlyGivenNames r
      have h_r : Touches 33828423 s0 r.2 := ((State.codecErr_touches ..).mono rfl)
      clear_value r
      extract_lets +onlyGivenNames s
      have h_s : Touches 33828423 s0 s := h_r
      clear_value s
      extract_lets +onlyGivenNames enc
      clear_value enc
      extract_lets +onlyGivenNames s1
      have h_s1 : Touches 33828423 s0 s1 := (Touches.ite (fun _ => h_s) (fun _ => (Touches.ite (fun _ => (Touches.ite (fun _ => (h_s.step (State.xsEncStart_touches ..) rfl)) (fun _ => h_s))) (fun _ => (Touches.ite (fun _ => (h_s.step (State.xsDecStart_touches ..) rfl)) (fun _ => h_s))))))
      clear_value s1
      split
      · exact Ends.next h_s1
      · exact Ends.next (Touches.ite (fun _ => (h_s1.step (State.xsEncSlice_touches ..) rfl)) (fun _ => (h_s1.step (State.xsDecSlice_touches ..) rfl)))

end Sys2Proof.Machine
end

