-- ==== Sys2Proof/Laws/Touch/Dram.lean ====
section
/-!
SUPPORT. What each operation of Machine/Dram.lean may touch (see Laws/Touches.lean).
-/

-- One proof at a time bounds the threads and memory of a compile.
set_option Elab.async false

namespace Sys2Proof.Machine

open Sys2Proof

theorem State.modArb_touches : ∀ s n f, Touches 128 s (State.modArb s n f) := by
  intro s n f
  unfold State.modArb
  exact ((State.onFab_touches ..).mono rfl)

theorem State.perform_touches : ∀ s n mp, Touches 128 s (State.perform s n mp) := by
  intro s n mp
  unfold State.perform
  exact (Touches.ite (fun _ => ((State.modArb_touches ..).mono rfl)) (fun _ => Touches.refl _ _))

theorem State.cacheFill_touches : ∀ s h a fetch write, Touches 8192 s (State.cacheFill s h a fetch write) := by
  intro s h a fetch write
  unfold State.cacheFill
  extract_lets +onlyGivenNames put drop
  exact ((State.onPlat_touches ..).mono rfl)

theorem State.modDctl_touches : ∀ s n f, Touches 4096 s (State.modDctl s n f) := by
  intro s n f
  unfold State.modDctl
  exact ((State.onDram_touches ..).mono rfl)

theorem State.activation_touches : ∀ s n a, Touches 4100 s (State.activation s n a) := by
  intro s n a
  unfold State.activation
  extract_lets +onlyGivenNames t1 r trr t' raa rfm
  clear_value t1 r trr t' raa rfm
  extract_lets +onlyGivenNames s1
  have h_s1 : Touches 4100 s s1 := ((State.modDctl_touches ..).mono rfl)
  clear_value s1
  extract_lets +onlyGivenNames s2
  have h_s2 : Touches 4100 s s2 := (Touches.ite (fun _ => (h_s1.step (State.count_touches ..) rfl)) (fun _ => h_s1))
  clear_value s2
  exact (Touches.ite (fun _ => (h_s2.step (State.count_touches ..) rfl)) (fun _ => h_s2))

theorem State.eccRead_touches : ∀ s n l x3, Touches 1604 s (State.eccRead s n l x3) := by
  intro s n l x3
  unfold State.eccRead
  split
  · exact Touches.refl _ _
  · exact (((State.setReg_touches ..).mono rfl).step (State.count_touches ..) rfl)
  · exact (((((State.setReg_touches ..).mono rfl).step (State.count_touches ..) rfl).step (State.raise_touches ..) rfl).step (State.produce_touches ..) rfl)

theorem State.corePoison_touches : ∀ s mp c bad, Touches 8192 s (State.corePoison s mp c bad) := by
  intro s mp c bad
  unfold State.corePoison
  exact (Touches.ite (fun _ => ((State.onPlat_touches ..).mono rfl)) (fun _ => Touches.refl _ _))

theorem execDramAccess_touches : ∀ mp a w err0 act core s0, Ends 8402631 s0 (execDramAccess mp a w err0 act core s0) := by
  intro mp a w err0 act core s0
  unfold execDramAccess
  extract_lets +onlyGivenNames n
  clear_value n
  refine Ends.ite (fun _ => ?_) (fun _ => ?_)
  · exact Ends.next ((State.perform_touches ..).mono rfl)
  · extract_lets +onlyGivenNames hart sp
    have h_sp : Touches 8402631 s0 sp := ((State.perform_touches ..).mono rfl)
    clear_value sp
    extract_lets +onlyGivenNames sc
    have h_sc : Touches 8402631 s0 sc := (Touches.ite (fun _ => (h_sp.step (State.cacheFill_touches ..) rfl)) (fun _ => h_sp))
    clear_value sc
    extract_lets +onlyGivenNames whole
    clear_value whole
    extract_lets +onlyGivenNames hit
    have h_hit' : Touches2 8402631 s0 hit := by
      unfold hit
      split
      · exact (h_sc.step (State.takeErr_touches ..) rfl)
      · exact h_sc
    have h_hit : Touches 8402631 s0 hit.2 := h_hit'
    clear_value hit
    extract_lets +onlyGivenNames err
    clear_value err
    extract_lets +onlyGivenNames s
    have h_s : Touches 8402631 s0 s := h_hit
    clear_value s
    extract_lets +onlyGivenNames l reach
    clear_value l reach
    extract_lets +onlyGivenNames s1
    have h_s1 : Touches 8402631 s0 s1 := (Touches.ite (fun _ => (h_s.step (State.activation_touches ..) rfl)) (fun _ => h_s))
    clear_value s1
    split
    · refine Ends.ite (fun _ => ?_) (fun _ => ?_)
      · extract_lets +onlyGivenNames r
        have h_r : Touches 8402631 s0 r.2 := (h_s1.step (State.busRead_touches ..) rfl)
        clear_value r
        exact Ends.next ((h_r.step (State.onResp_touches ..) rfl).step (State.corePoison_touches ..) rfl)
      · extract_lets +onlyGivenNames s2
        have h_s2 : Touches 8402631 s0 s2 := (h_s1.step (State.eccRead_touches ..) rfl)
        clear_value s2
        extract_lets +onlyGivenNames bad bs
        clear_value bad bs
        exact Ends.next ((h_s2.step (State.onResp_touches ..) rfl).step (State.corePoison_touches ..) rfl)
    · refine Ends.ite (fun _ => ?_) (fun _ => ?_)
      · exact Ends.next ((Touches.ite (fun _ => (h_s1.step (State.count_touches ..) rfl)) (fun _ => (h_s1.step (State.eccRead_touches ..) rfl))).step (State.corePoison_touches ..) rfl)
      · refine Ends.ite (fun _ => ?_) (fun _ => ?_)
        · exact Ends.next (h_s1.step (State.busStore_touches ..) rfl)
        · refine Ends.ite (fun _ => ?_) (fun _ => ?_)
          · exact Ends.next (h_s1.step (State.busStore_touches ..) rfl)
          · extract_lets +onlyGivenNames s2
            have h_s2 : Touches 8402631 s0 s2 := (h_s1.step (State.eccRead_touches ..) rfl)
            clear_value s2
            refine Ends.ite (fun _ => ?_) (fun _ => ?_)
            · exact Ends.next ((h_s2.step (State.poke_touches ..) rfl).step (State.setPoison_touches ..) rfl)
            · exact Ends.next (h_s2.step (State.busStore_touches ..) rfl)

theorem State.stepDelays_touches : ∀ s n x2, Touches 4 s (State.stepDelays s n x2) := by
  intro s n x2
  induction x2 generalizing s n
  · unfold State.stepDelays
    exact Touches.refl _ _
  · rename_i ih
    unfold State.stepDelays
    extract_lets +onlyGivenNames t1 rd wr
    clear_value t1 rd wr
    exact ((((State.setFld_touches ..).mono rfl).step (State.setFld_touches ..) rfl).step (ih ..) rfl)

theorem execRefreshWindow_touches : ∀ n s, Ends 4100 s (execRefreshWindow n s) := by
  intro n s
  unfold execRefreshWindow
  exact Ends.next (((State.modDctl_touches ..).mono rfl).step (State.stepDelays_touches ..) rfl)

theorem execDramBgSweep_touches : ∀ n lane rd wr width s, Ends 22084 s (execDramBgSweep n lane rd wr width s) := by
  intro n lane rd wr width s
  unfold execDramBgSweep
  refine Ends.ite (fun _ => ?_) (fun _ => ?_)
  · exact Ends.next (Touches.refl _ _)
  · extract_lets +onlyGivenNames i
    clear_value i
    extract_lets +onlyGivenNames s1
    have h_s1 : Touches 22084 s s1 := (((State.setFld_touches ..).mono rfl).step (State.count_touches ..) rfl)
    clear_value s1
    extract_lets +onlyGivenNames s2
    have h_s2 : Touches 22084 s s2 := (h_s1.step (State.setFld_touches ..) rfl)
    clear_value s2
    extract_lets +onlyGivenNames s3
    have h_s3 : Touches 22084 s s3 := (Touches.ite (fun _ => ((h_s2.step (State.raise_touches ..) rfl).step (State.produce_touches ..) rfl)) (fun _ => h_s2))
    clear_value s3
    extract_lets +onlyGivenNames old far s4
    have h_s4 : Touches 22084 s s4 := (h_s3.step (State.modDctl_touches ..) rfl)
    clear_value s4
    extract_lets +onlyGivenNames s5
    have h_s5 : Touches 22084 s s5 := (Touches.ite (fun _ => (h_s4.step (State.cocoonPut_touches ..) rfl)) (fun _ => h_s4))
    clear_value s5
    exact Ends.next (Touches.ite (fun _ => (h_s5.step (State.onPower_touches ..) rfl)) (fun _ => h_s5))

theorem execMarginCheck_touches : ∀ n lane fails s0, Ends 5188 s0 (execMarginCheck n lane fails s0) := by
  intro n lane fails s0
  unfold execMarginCheck
  refine Ends.ite (fun _ => ?_) (fun _ => ?_)
  · exact Ends.next (Touches.refl _ _)
  · extract_lets +onlyGivenNames s
    have h_s : Touches 5188 s0 s := ((State.modDctl_touches ..).mono rfl)
    clear_value s
    refine Ends.ite (fun _ => ?_) (fun _ => ?_)
    · exact Ends.next h_s
    · extract_lets +onlyGivenNames s1
      have h_s1 : Touches 5188 s0 s1 := ((h_s.step (State.count_touches ..) rfl).step (State.raise_touches ..) rfl)
      clear_value s1
      refine Ends.ite (fun _ => ?_) (fun _ => ?_)
      · exact Ends.next h_s1
      · exact Ends.next (h_s1.step (State.modDctl_touches ..) rfl)

theorem State.driftLanes_touches : ∀ s n i x3, Touches 4 s (State.driftLanes s n i x3) := by
  intro s n i x3
  induction x3 generalizing s n i
  · unfold State.driftLanes
    exact Touches.refl _ _
  · rename_i ih
    unfold State.driftLanes
    extract_lets +onlyGivenNames rd wr
    clear_value rd wr
    exact ((((State.setFld_touches ..).mono rfl).step (State.setFld_touches ..) rfl).step (ih ..) rfl)

theorem execWckOscRead_touches : ∀ n drift s, Ends 4100 s (execWckOscRead n drift s) := by
  intro n drift s
  unfold execWckOscRead
  refine Ends.ite (fun _ => ?_) (fun _ => ?_)
  · exact Ends.next (((State.modDctl_touches ..).mono rfl).step (State.driftLanes_touches ..) rfl)
  · exact Ends.next (Touches.refl _ _)

theorem State.retirePage_touches : ∀ s n b, Touches 1604 s (State.retirePage s n b) := by
  intro s n b
  unfold State.retirePage
  extract_lets +onlyGivenNames page used
  clear_value page used
  refine (Touches.ite (fun _ => (((State.raise_touches ..).mono rfl).step (State.silk_touches ..) rfl)) (fun _ => ?_))
  extract_lets +onlyGivenNames s1
  have h_s1 : Touches 1604 s s1 := ((State.setReg_touches ..).mono rfl)
  clear_value s1
  extract_lets +onlyGivenNames s2
  have h_s2 : Touches 1604 s s2 := (h_s1.step (State.setFld_touches ..) rfl)
  clear_value s2
  extract_lets +onlyGivenNames s3
  have h_s3 : Touches 1604 s s3 := (((h_s2.step (State.raise_touches ..) rfl).step (State.produce_touches ..) rfl).step (State.silk_touches ..) rfl)
  clear_value s3
  exact (h_s3.step (State.cocoonPut_touches ..) rfl)

theorem execDramScrubStep_touches : ∀ n err again s, Ends 5703 s (execDramScrubStep n err again s) := by
  intro n err again s
  unfold execDramScrubStep
  refine Ends.ite (fun _ => ?_) (fun _ => ?_)
  · exact Ends.next (Touches.refl _ _)
  · extract_lets +onlyGivenNames b a d s1
    clear_value b a d s1
    extract_lets +onlyGivenNames s11
    have h_s11 : Touches 5703 s s11 := ((State.modDctl_touches ..).mono rfl)
    clear_value s11
    extract_lets +onlyGivenNames s12
    have h_s12 : Touches 5703 s s12 := (Touches.ite (fun _ => (((State.poke_touches ..).mono rfl).step (State.setPoison_touches ..) rfl)) (fun _ => Touches.refl _ _))
    clear_value s12
    extract_lets +onlyGivenNames s13
    have h_s13 : Touches 5703 s s13 := by
      unfold s13
      split
      · exact Touches.refl _ _
      · exact (Touches.ite (fun _ => (h_s11.step (State.retirePage_touches ..) rfl)) (fun _ => h_s11))
      · exact (Touches.ite (fun _ => (h_s12.step (State.retirePage_touches ..) rfl)) (fun _ => h_s12))
    clear_value s13
    refine Ends.ite (fun _ => ?_) (fun _ => ?_)
    · exact Ends.next (h_s13.step (State.setReg_touches ..) rfl)
    · extract_lets +onlyGivenNames secs
      clear_value secs
      extract_lets +onlyGivenNames s2
      have h_s2 : Touches 5703 s s2 := ((h_s13.step (State.setReg_touches ..) rfl).step (State.setReg_touches ..) rfl)
      clear_value s2
      extract_lets +onlyGivenNames s3
      have h_s3 : Touches 5703 s s3 := (h_s2.step (State.modDctl_touches ..) rfl)
      clear_value s3
      exact Ends.next (Touches.ite (fun _ => (h_s3.step (State.raise_touches ..) rfl)) (fun _ => h_s3))

theorem execResWrite_touches : ∀ m n v s, Ends 1092 s (execResWrite m n v s) := by
  intro m n v s
  unfold execResWrite
  exact Ends.next (State.regWrite_touches (Touches.refl _ _) rfl (fun _ h => (Touches.ite (fun _ => (h.step (State.raise_touches ..) rfl)) (fun _ => (h.step (State.setReg_touches ..) rfl)))))

theorem execBankHashWrite_touches : ∀ m k v s, Ends 1100 s (execBankHashWrite m k v s) := by
  intro m k v s
  unfold execBankHashWrite
  extract_lets +onlyGivenNames o
  clear_value o
  exact Ends.next (State.regWrite_touches (Touches.refl _ _) rfl (fun _ h => (Touches.ite (fun _ => (h.step (State.raise_touches ..) rfl)) (fun _ => (h.step (State.storeFields_touches ..) rfl)))))

theorem execTopoWrite_touches : ∀ m v s, Ends 1100 s (execTopoWrite m v s) := by
  intro m v s
  unfold execTopoWrite
  exact Ends.next (State.regWrite_touches (Touches.refl _ _) rfl (fun _ h => (Touches.ite (fun _ => (h.step (State.raise_touches ..) rfl)) (fun _ => (h.step (State.storeFields_touches ..) rfl)))))

theorem State.gStat_touches : ∀ s reason, Touches 1092 s (State.gStat s reason) := by
  intro s reason
  unfold State.gStat
  exact (Touches.ite (fun _ => ((State.setReg_touches ..).mono rfl)) (fun _ => (((State.setReg_touches ..).mono rfl).step (State.raise_touches ..) rfl)))

theorem State.setGuard_touches : ∀ s i g, Touches 4096 s (State.setGuard s i g) := by
  intro s i g
  unfold State.setGuard
  exact ((State.onDram_touches ..).mono rfl)

theorem execGLoad_touches : ∀ m s, Ends 1092 s (execGLoad m s) := by
  intro m s
  unfold execGLoad
  refine Ends.next (State.regWrite_touches (Touches.refl _ _) rfl (fun _ h => ?_))
  extract_lets +onlyGivenNames g
  clear_value g
  extract_lets +onlyGivenNames t1
  have h_t1 : Touches 1092 s t1 := (h.step (State.setReg64_touches ..) rfl)
  clear_value t1
  extract_lets +onlyGivenNames t2
  have h_t2 : Touches 1092 s t2 := (h_t1.step (State.setReg64_touches ..) rfl)
  clear_value t2
  exact ((h_t2.step (State.setReg_touches ..) rfl).step (State.gStat_touches ..) rfl)

theorem execGStore_touches : ∀ m s, Ends 5188 s (execGStore m s) := by
  intro m s
  unfold execGStore
  refine Ends.next (State.regWrite_touches (Touches.refl _ _) rfl (fun _ h => ?_))
  extract_lets +onlyGivenNames c base limit
  clear_value c base limit
  exact (Touches.ite (fun _ => (h.step (State.gStat_touches ..) rfl)) (fun _ => (Touches.ite (fun _ => (h.step (State.gStat_touches ..) rfl)) (fun _ => (Touches.ite (fun _ => (h.step (State.gStat_touches ..) rfl)) (fun _ => ((h.step (State.setGuard_touches ..) rfl).step (State.gStat_touches ..) rfl)))))))

theorem execGDisable_touches : ∀ m s, Ends 5188 s (execGDisable m s) := by
  intro m s
  unfold execGDisable
  exact Ends.next (State.regWrite_touches (Touches.refl _ _) rfl (fun _ h => (Touches.ite (fun _ => (h.step (State.gStat_touches ..) rfl)) (fun _ => ((h.step (State.setGuard_touches ..) rfl).step (State.gStat_touches ..) rfl)))))

end Sys2Proof.Machine
end

