-- ==== Sys2Proof/Laws/Touch/Fabric.lean ====
section
/-!
SUPPORT. What each operation of Machine/Fabric.lean may touch (see Laws/Touches.lean).
-/

-- One proof at a time bounds the threads and memory of a compile.
set_option Elab.async false

namespace Sys2Proof.Machine

open Sys2Proof

theorem execFabricTransaction_touches : ∀ n reqs s, Ends 128 s (execFabricTransaction n reqs s) := by
  intro n reqs s
  unfold execFabricTransaction
  extract_lets +onlyGivenNames p new wait held bulk pick
  clear_value p new wait held bulk pick
  split
  · exact Ends.next ((State.modArb_touches ..).mono rfl)
  · extract_lets +onlyGivenNames q
    clear_value q
    exact Ends.next ((State.modArb_touches ..).mono rfl)

end Sys2Proof.Machine
end

