-- ==== Sys2Proof/Laws/Touch/FuSa.lean ====
section
/-!
SUPPORT. What each operation of Machine/FuSa.lean may touch (see Laws/Touches.lean).
-/

-- One proof at a time bounds the threads and memory of a compile.
set_option Elab.async false

namespace Sys2Proof.Machine

open Sys2Proof

theorem execFnClr_touches : ∀ m v s, Ends 1092 s (execFnClr m v s) := by
  intro m v s
  unfold execFnClr
  refine Ends.next (State.regWrite_touches (Touches.refl _ _) rfl (fun _ h => ?_))
  extract_lets +onlyGivenNames p
  clear_value p
  refine (Touches.ite (fun _ => (h.step (State.raise_touches ..) rfl)) (fun _ => ?_))
  extract_lets +onlyGivenNames mask
  clear_value mask
  extract_lets +onlyGivenNames t1
  have h_t1 : Touches 1092 s t1 := (Touches.ite (fun _ => (h.step (State.onDep_touches ..) rfl)) (fun _ => h))
  clear_value t1
  extract_lets +onlyGivenNames latch drop
  clear_value latch drop
  extract_lets +onlyGivenNames t2
  have h_t2 : Touches 1092 s t2 := (h_t1.step (State.setReg_touches ..) rfl)
  clear_value t2
  exact (Touches.ite (fun _ => (h_t2.step (State.setFld_touches ..) rfl)) (fun _ => h_t2))

theorem execFnSwWrite_touches : ∀ m v s, Ends 1604 s (execFnSwWrite m v s) := by
  intro m v s
  unfold execFnSwWrite
  exact Ends.next (State.regWrite_touches (Touches.refl _ _) rfl (fun _ h => ((h.step (State.setReg_touches ..) rfl).step (State.fnUpdate_touches ..) rfl)))

theorem execArm_touches : ∀ m v s, Ends 1092 s (execArm m v s) := by
  intro m v s
  unfold execArm
  refine Ends.next (State.regWrite_touches (Touches.refl _ _) rfl (fun _ h => ?_))
  extract_lets +onlyGivenNames p
  clear_value p
  exact (Touches.ite (fun _ => h) (fun _ => (Touches.ite (fun _ => (h.step (State.raise_touches ..) rfl)) (fun _ => (((h.step (State.setFld_touches ..) rfl).step (State.setReg_touches ..) rfl).step (State.onDep_touches ..) rfl)))))

theorem State.hbFail_touches : ∀ s, Touches 1604 s (State.hbFail s) := by
  intro s
  unfold State.hbFail
  extract_lets +onlyGivenNames p
  clear_value p
  exact ((((((State.putBit_touches ..).mono rfl).step (State.raise_touches ..) rfl).step (State.silk_touches ..) rfl).step (State.produce_touches ..) rfl).step (State.fnUpdate_touches ..) rfl)

theorem execHbKick_touches : ∀ m v s, Ends 1604 s (execHbKick m v s) := by
  intro m v s
  unfold execHbKick
  refine Ends.next (State.regWrite_touches (Touches.refl _ _) rfl (fun _ h => ?_))
  extract_lets +onlyGivenNames p tok age
  clear_value p tok age
  refine (Touches.ite (fun _ => h) (fun _ => (Touches.ite (fun _ => ?_) (fun _ => (h.step (State.hbFail_touches ..) rfl)))))
  extract_lets +onlyGivenNames t1
  have h_t1 : Touches 1604 s t1 := ((h.step (State.putBit_touches ..) rfl).step (State.setReg_touches ..) rfl)
  clear_value t1
  exact ((h_t1.step (State.countWrap_touches ..) rfl).step (State.onDep_touches ..) rfl)

theorem execHbTimeout_touches : ∀ s, Ends 1604 s (execHbTimeout s) := by
  intro s
  unfold execHbTimeout
  extract_lets +onlyGivenNames p
  clear_value p
  refine Ends.ite (fun _ => ?_) (fun _ => ?_)
  · exact Ends.next (Touches.refl _ _)
  · exact Ends.next ((State.hbFail_touches ..).mono rfl)

theorem execViewEvaluate_touches : ∀ v f s, Ends 1604 s (execViewEvaluate v f s) := by
  intro v f s
  unfold execViewEvaluate
  extract_lets +onlyGivenNames p cfg st h regs decided measured
  clear_value p cfg st h regs decided measured
  refine Ends.ite (fun _ => ?_) (fun _ => ?_)
  · exact Ends.next (Touches.refl _ _)
  · extract_lets +onlyGivenNames ls ll reg clears
    clear_value ls ll reg clears
    extract_lets +onlyGivenNames s1
    have h_s1 : Touches 1604 s s1 := ((State.onDep_touches ..).mono rfl)
    clear_value s1
    extract_lets +onlyGivenNames s2
    have h_s2 : Touches 1604 s s2 := (Touches.ite (fun _ => (((h_s1.step (State.setFld_touches ..) rfl).step (State.putBit_touches ..) rfl).step (State.onDep_touches ..) rfl)) (fun _ => h_s1))
    clear_value s2
    extract_lets +onlyGivenNames s3
    have h_s3 : Touches 1604 s s3 := (h_s2.step (State.countWrap_touches ..) rfl)
    clear_value s3
    refine Ends.ite (fun _ => ?_) (fun _ => ?_)
    · exact Ends.next (h_s3.step (State.setFld_touches ..) rfl)
    · extract_lets +onlyGivenNames s4
      have h_s4 : Touches 1604 s s4 := (((h_s3.step (State.count_touches ..) rfl).step (State.putBit_touches ..) rfl).step (State.putBit_touches ..) rfl)
      clear_value s4
      refine Ends.ite (fun _ => ?_) (fun _ => ?_)
      · exact Ends.next h_s4
      · extract_lets +onlyGivenNames s5
        have h_s5 : Touches 1604 s s5 := (((h_s4.step (State.putBit_touches ..) rfl).step (State.raise_touches ..) rfl).step (State.produce_touches ..) rfl)
        clear_value s5
        exact Ends.next ((h_s5.step (State.silk_touches ..) rfl).step (State.fnUpdate_touches ..) rfl)

theorem execViewClr_touches : ∀ m i v s, Ends 1092 s (execViewClr m i v s) := by
  intro m i v s
  unfold execViewClr
  exact Ends.next (State.regWrite_touches (Touches.refl _ _) rfl (fun _ h => (Touches.ite (fun _ => h) (fun _ => (h.step (State.onDep_touches ..) rfl)))))

theorem execClockMonitorWindow_touches : ∀ dev s, Ends 1604 s (execClockMonitorWindow dev s) := by
  intro dev s
  unfold execClockMonitorWindow
  extract_lets +onlyGivenNames p high good
  clear_value p high good
  extract_lets +onlyGivenNames s1
  have h_s1 : Touches 1604 s s1 := (((State.setFld_touches ..).mono rfl).step (State.onDep_touches ..) rfl)
  clear_value s1
  refine Ends.ite (fun _ => ?_) (fun _ => ?_)
  · exact Ends.next (((h_s1.step (State.putBit_touches ..) rfl).step (State.raise_touches ..) rfl).step (State.fnUpdate_touches ..) rfl)
  · refine Ends.ite (fun _ => ?_) (fun _ => ?_)
    · exact Ends.next (h_s1.step (State.putBit_touches ..) rfl)
    · exact Ends.next h_s1

theorem execSupplyWindow_touches : ∀ r out s, Ends 17988 s (execSupplyWindow r out s) := by
  intro r out s
  unfold execSupplyWindow
  extract_lets +onlyGivenNames p main
  clear_value p main
  refine Ends.ite (fun _ => ?_) (fun _ => ?_)
  · exact Ends.next (Touches.refl _ _)
  · refine Ends.ite (fun _ => ?_) (fun _ => ?_)
    · extract_lets +onlyGivenNames t1
      have h_t1 : Touches 17988 s t1 := (Touches.ite (fun _ => ((State.onPower_touches ..).mono rfl)) (fun _ => Touches.refl _ _))
      clear_value t1
      exact Ends.next (((h_t1.step (State.putBit_touches ..) rfl).step (State.raise_touches ..) rfl).step (State.fnUpdate_touches ..) rfl)
    · exact Ends.next ((State.putBit_touches ..).mono rfl)

theorem State.injected_touches : ∀ s d0 d1 d2, Touches 1092 s (State.injected s d0 d1 d2) := by
  intro s d0 d1 d2
  unfold State.injected
  exact (((State.count_touches ..).mono rfl).step (State.silk_touches ..) rfl)

theorem execFaultInject_touches : ∀ m p v s, Ends 1604 s (execFaultInject m p v s) := by
  intro m p v s
  unfold execFaultInject
  refine Ends.next (State.regWrite_touches (Touches.refl _ _) rfl (fun _ h => ?_))
  extract_lets +onlyGivenNames kind
  clear_value kind
  refine (Touches.ite (fun _ => (h.step (State.raise_touches ..) rfl)) (fun _ => (Touches.ite (fun _ => h) (fun _ => (Touches.ite (fun _ => ?_) (fun _ => (Touches.ite (fun _ => (h.step (State.stateWrite_touches ..) rfl)) (fun _ => ((h.step (State.modPage_touches ..) rfl).step (State.injected_touches ..) rfl)))))))))
  extract_lets +onlyGivenNames u
  have h_u : Touches 1604 s u := (h.step (State.injected_touches ..) rfl)
  clear_value u
  exact (Touches.ite (fun _ => ((h_u.step (State.raise_touches ..) rfl).step (State.fnUpdate_touches ..) rfl)) (fun _ => h_u))

theorem execEyeInj_touches : ∀ m v s, Ends 525380 s (execEyeInj m v s) := by
  intro m v s
  unfold execEyeInj
  refine Ends.next (State.regWrite_touches (Touches.refl _ _) rfl (fun _ h => (Touches.ite (fun _ => h) (fun _ => (Touches.ite (fun _ => (h.step (State.raise_touches ..) rfl)) (fun _ => ?_))))))
  extract_lets +onlyGivenNames h1 r
  clear_value h1 r
  exact ((h.step (State.modEye_touches ..) rfl).step (State.injected_touches ..) rfl)

end Sys2Proof.Machine
end

