-- ==== Sys2Proof/Laws/Touch/Queues.lean ====
section
/-!
SUPPORT. What each operation of Machine/Queues.lean may touch (see Laws/Touches.lean).
-/

-- One proof at a time bounds the threads and memory of a compile.
set_option Elab.async false

namespace Sys2Proof.Machine

open Sys2Proof

theorem State.qStat_touches : ∀ s reason, Touches 4 s (State.qStat s reason) := by
  intro s reason
  unfold State.qStat
  exact ((State.setReg_touches ..).mono rfl)

theorem State.qCmd_touches {K : Nat} {s u : State} {m : Master} {eff : Nat → State → Option State} (h : Touches K s u)
    (hk : Nat.land 1092 K = 1092) (heff : ∀ c t, Touches K s t → TouchesOpt K s (eff c t)) : Touches K s (State.qCmd u m eff) := by
  unfold State.qCmd
  refine State.cmdWrite_touches h hk fun t ht => ?_
  split
  · exact TouchesOpt.none _ _
  · exact heff _ _ ht

theorem execQLoad_touches : ∀ m s, Ends 11847 s (execQLoad m s) := by
  intro m s
  unfold execQLoad
  refine Ends.next (State.cmdWrite_touches (Touches.refl _ _) rfl (fun _ h => ?_))
  split
  · refine TouchesOpt.some ((h.step (State.setRegs32_touches ..) rfl).step (State.qStat_touches ..) rfl)
  · extract_lets +onlyGivenNames u
    have h_u : Touches 11847 s u := (h.step (State.qTouch_touches ..) rfl)
    clear_value u
    refine TouchesOpt.some ((h_u.step (State.setRegs32_touches ..) rfl).step (State.qStat_touches ..) rfl)

theorem execQStore_touches : ∀ m s, Ends 11847 s (execQStore m s) := by
  intro m s
  unfold execQStore
  refine Ends.next (State.qCmd_touches (Touches.refl _ _) rfl (fun _ _ h => ?_))
  split
  · exact TouchesOpt.none _ _
  · extract_lets +onlyGivenNames d st r
    clear_value d st r
    refine TouchesOpt.some (Touches.ite (fun _ => ((h.step (State.qSet_touches ..) rfl).step (State.qStat_touches ..) rfl)) (fun _ => ((h.step (State.qStat_touches ..) rfl).step (State.raise_touches ..) rfl)))

theorem execEnable_touches : ∀ m s, Ends 11847 s (execEnable m s) := by
  intro m s
  unfold execEnable
  refine Ends.next (State.qCmd_touches (Touches.refl _ _) rfl (fun _ _ h => ?_))
  split
  · exact TouchesOpt.none _ _
  · refine TouchesOpt.some (((h.step (State.qTouch_touches ..) rfl).step (State.qSet_touches ..) rfl).step (State.qStat_touches ..) rfl)

theorem execDisable_touches : ∀ m s, Ends 11847 s (execDisable m s) := by
  intro m s
  unfold execDisable
  refine Ends.next (State.qCmd_touches (Touches.refl _ _) rfl (fun _ _ h => ?_))
  refine TouchesOpt.some (((h.step (State.qTouch_touches ..) rfl).step (State.qSet_touches ..) rfl).step (State.qStat_touches ..) rfl)

theorem execPin_touches : ∀ m s, Ends 11847 s (execPin m s) := by
  intro m s
  unfold execPin
  refine Ends.next (State.qCmd_touches (Touches.refl _ _) rfl (fun _ _ h => ?_))
  split
  · exact TouchesOpt.none _ _
  · split
    · refine TouchesOpt.some (h.step (State.qStat_touches ..) rfl)
    · split
      · refine TouchesOpt.some ((h.step (State.qStat_touches ..) rfl).step (State.raise_touches ..) rfl)
      · refine TouchesOpt.some (((h.step (State.qTouch_touches ..) rfl).step (State.onQm_touches ..) rfl).step (State.qStat_touches ..) rfl)

theorem execUnpin_touches : ∀ m s, Ends 3140 s (execUnpin m s) := by
  intro m s
  unfold execUnpin
  refine Ends.next (State.qCmd_touches (Touches.refl _ _) rfl (fun _ _ h => ?_))
  refine TouchesOpt.some ((h.step (State.onQm_touches ..) rfl).step (State.qStat_touches ..) rfl)

theorem execSetClass_touches : ∀ m s, Ends 11847 s (execSetClass m s) := by
  intro m s
  unfold execSetClass
  refine Ends.next (State.qCmd_touches (Touches.refl _ _) rfl (fun _ _ h => ?_))
  refine TouchesOpt.some (((h.step (State.qTouch_touches ..) rfl).step (State.qSet_touches ..) rfl).step (State.qStat_touches ..) rfl)

theorem execQueuePush_touches : ∀ p q d e s, Ends 11847 s (execQueuePush p q d e s) := by
  intro p q d e s
  unfold execQueuePush
  exact Ends.next (((State.qEcc_touches ..).mono rfl).step (State.push_touches ..) rfl)

theorem execPushBufferDrain_touches : ∀ q s, Ends 11847 s (execPushBufferDrain q s) := by
  intro q s
  unfold execPushBufferDrain
  split
  · exact Ends.next (Touches.refl _ _)
  · extract_lets +onlyGivenNames s1
    have h_s1 : Touches 11847 s s1 := ((State.onQm_touches ..).mono rfl)
    clear_value s1
    refine Ends.ite (fun _ => ?_) (fun _ => ?_)
    · exact Ends.next (Touches.refl _ _)
    · refine Ends.ite (fun _ => ?_) (fun _ => ?_)
      · exact Ends.next (h_s1.step (State.pushDropped_touches ..) rfl)
      · refine Ends.ite (fun _ => ?_) (fun _ => ?_)
        · exact Ends.next (Touches.refl _ _)
        · exact Ends.next (h_s1.step (State.qLand_touches ..) rfl)

theorem execPushTimeout_touches : ∀ q s, Ends 11847 s (execPushTimeout q s) := by
  intro q s
  unfold execPushTimeout
  split
  · exact Ends.next (Touches.refl _ _)
  · extract_lets +onlyGivenNames lim
    clear_value lim
    refine Ends.ite (fun _ => ?_) (fun _ => ?_)
    · exact Ends.next (Touches.refl _ _)
    · exact Ends.next (((State.onQm_touches ..).mono rfl).step (State.pushDropped_touches ..) rfl)

theorem State.portStat_touches : ∀ s i status valid, Touches 4 s (State.portStat s i status valid) := by
  intro s i status valid
  unfold State.portStat
  exact ((State.setReg_touches ..).mono rfl)

theorem execPushGo_touches : ∀ m i v s, Ends 11847 s (execPushGo m i v s) := by
  intro m i v s
  unfold execPushGo
  refine Ends.next (State.cmdWrite_touches (Touches.refl _ _) rfl (fun _ h => ?_))
  extract_lets +onlyGivenNames q
  clear_value q
  refine TouchesOpt.some (Touches.ite (fun _ => ((h.step (State.count_touches ..) rfl).step (State.portStat_touches ..) rfl)) (fun _ => (Touches.ite (fun _ => (h.step (State.portStat_touches ..) rfl)) (fun _ => ((h.step (State.qLand_touches ..) rfl).step (State.portStat_touches ..) rfl)))))

theorem execTakeGo_touches : ∀ m i v s, Ends 11847 s (execTakeGo m i v s) := by
  intro m i v s
  unfold execTakeGo
  refine Ends.next (State.cmdWrite_touches (Touches.refl _ _) rfl (fun _ h => ?_))
  extract_lets +onlyGivenNames q
  clear_value q
  refine TouchesOpt.some (Touches.ite (fun _ => (h.step (State.portStat_touches ..) rfl)) (fun _ => ?_))
  split
  · exact (((Touches.of_snd (h.step (State.take_touches ..) rfl) ‹_›).step (State.setRegs32_touches ..) rfl).step (State.portStat_touches ..) rfl)
  · exact ((Touches.of_snd (h.step (State.take_touches ..) rfl) ‹_›).step (State.portStat_touches ..) rfl)

theorem State.qFlush_touches : ∀ s, Touches 11847 s (State.qFlush s) := by
  intro s
  unfold State.qFlush
  exact ((Touches.foldl (Touches.refl _ _) (fun _ _ h => (h.step (State.qWriteBack_touches ..) rfl))).step (State.onQm_touches ..) rfl)

theorem execQstateBaseWrite_touches : ∀ m hi v s, Ends 11847 s (execQstateBaseWrite m hi v s) := by
  intro m hi v s
  unfold execQstateBaseWrite
  extract_lets +onlyGivenNames o
  clear_value o
  exact Ends.next (State.regWrite_touches (Touches.refl _ _) rfl (fun _ h => (Touches.ite (fun _ => (h.step (State.raise_touches ..) rfl)) (fun _ => (Touches.ite (fun _ => h) (fun _ => (Touches.ite (fun _ => (h.step (State.stateWrite_touches ..) rfl)) (fun _ => ((Touches.ite (fun _ => h) (fun _ => (h.step (State.qFlush_touches ..) rfl))).step (State.setReg_touches ..) rfl)))))))))

end Sys2Proof.Machine
end

