-- ==== Sys2Proof/Laws/Touch/RegRead.lean ====
section
/-!
SUPPORT. What each operation of Machine/RegRead.lean may touch (see Laws/Touches.lean).
-/

-- One proof at a time bounds the threads and memory of a compile.
set_option Elab.async false

namespace Sys2Proof.Machine

open Sys2Proof

theorem after_touches {K : Nat} {s u : State} {r : Step} (h : Touches K s u) (hr : Ends K s r) : Touches K s (after u r) := by
  obtain ⟨t, rfl, ht⟩ := hr
  exact ht

theorem State.freezePage_touches : ∀ s p, Touches 80 s (State.freezePage s p) := by
  intro s p
  unfold State.freezePage
  exact (Touches.foldl ((State.modPage_touches ..).mono rfl) (fun _ _ h => (Touches.ite (fun _ => (h.step (State.onFrozen_touches _ _ (Map.wf_put _ _ _ _)) rfl)) (fun _ => h))))

theorem State.latchRead_touches : ∀ s p o, Touches 36 s (State.latchRead s p o) := by
  intro s p o
  unfold State.latchRead
  extract_lets +onlyGivenNames s1
  have h_s1 : Touches 36 s s1 := (Touches.foldl (Touches.refl _ _) (fun _ _ h => (h.step (State.onLatch_touches _ _ (Map.wf_put _ _ _ _)) rfl)))
  clear_value s1
  exact (Touches.ite (fun _ => (h_s1.step (State.putBit_touches ..) rfl)) (fun _ => h_s1))

theorem State.rcStore_touches : ∀ s p o v, Touches 2162692 s (State.rcStore s p o v) := by
  intro s p o v
  unfold State.rcStore
  exact (Touches.ite (fun _ => ((State.modPctx_touches ..).mono rfl)) (fun _ => (Touches.ite (fun _ => ((State.modFilt_touches ..).mono rfl)) (fun _ => ((State.setReg_touches ..).mono rfl)))))

theorem State.rcRead_touches : ∀ s p o, Touches 2162708 s (State.rcRead s p o) := by
  intro s p o
  unfold State.rcRead
  extract_lets +onlyGivenNames live
  clear_value live
  extract_lets +onlyGivenNames s1
  have h_s1 : Touches 2162708 s s1 := by
    unfold s1
    split
    · exact ((State.rcStore_touches ..).mono rfl)
    · extract_lets +onlyGivenNames left
      clear_value left
      exact (((State.rcStore_touches ..).mono rfl).step (State.onFrozen_touches _ _ (Map.wf_put _ _ _ _)) rfl)
  clear_value s1
  exact (Touches.ite (fun _ => (h_s1.step (State.putBit_touches ..) rfl)) (fun _ => h_s1))

theorem State.popRead_touches : ∀ s p o, Touches 32768 s (State.popRead s p o) := by
  intro s p o
  unfold State.popRead
  split
  · exact (Touches.ite (fun _ => ((State.modDlk_touches ..).mono rfl)) (fun _ => Touches.refl _ _))
  · exact (Touches.ite (fun _ => ((State.modI3c_touches ..).mono rfl)) (fun _ => Touches.refl _ _))
  · exact Touches.refl _ _

theorem State.readReg_touches : ∀ s p o, Touches 2195508 s (State.readReg s p o).2 := by
  intro s p o
  unfold State.readReg
  change Touches2 2195508 s _
  extract_lets +onlyGivenNames rc s1
  have h_s1 : Touches 2195508 s s1 := (((State.latchRead_touches ..).mono rfl).step (State.popRead_touches ..) rfl)
  clear_value s1
  exact (Touches.ite (fun _ => h_s1) (fun _ => (h_s1.step (State.rcRead_touches ..) rfl)))

theorem State.readPage_touches : ∀ s m p o, Touches 10585204 s (State.readPage s m p o) := by
  intro s m p o
  unfold State.readPage
  extract_lets +onlyGivenNames off
  clear_value off
  refine (Touches.ite (fun _ => (after_touches (Touches.refl _ _) (Ends.step (Touches.refl _ _) (execTblDataRead_touches ..) rfl))) (fun _ => (State.regRead_touches (Touches.refl _ _) rfl (fun _ h => ?_))))
  exact (h.step (State.readReg_touches ..) rfl)

theorem State.mtimeCheck_touches : ∀ s h, Touches 8192 s (State.mtimeCheck s h) := by
  intro s h
  unfold State.mtimeCheck
  exact ((State.onPlat_touches ..).mono rfl)

theorem State.plicGateway_touches : ∀ s, Touches 8192 s (State.plicGateway s) := by
  intro s
  unfold State.plicGateway
  exact (Touches.foldl (Touches.refl _ _) (fun _ _ h => (Touches.ite (fun _ => h) (fun _ => (h.step (State.onPlat_touches ..) rfl)))))

theorem State.plicRead_touches : ∀ s0 o, Touches 8396800 s0 (State.plicRead s0 o) := by
  intro s0 o
  unfold State.plicRead
  extract_lets +onlyGivenNames s
  have h_s : Touches 8396800 s0 s := ((State.plicGateway_touches ..).mono rfl)
  clear_value s
  refine (Touches.ite (fun _ => (h_s.step (State.answer_touches ..) rfl)) (fun _ => (Touches.ite (fun _ => ?_) (fun _ => (h_s.step (State.answer_touches ..) rfl)))))
  extract_lets +onlyGivenNames i
  clear_value i
  exact (Touches.ite (fun _ => (h_s.step (State.answer_touches ..) rfl)) (fun _ => ((h_s.step (State.onPlat_touches ..) rfl).step (State.answer_touches ..) rfl)))

theorem State.answerNat_touches : ∀ s len v, Touches 8388608 s (State.answerNat s len v) := by
  intro s len v
  unfold State.answerNat
  exact ((State.onResp_touches ..).mono rfl)

theorem State.timerRead_touches : ∀ s o len, Touches 8396800 s (State.timerRead s o len) := by
  intro s o len
  unfold State.timerRead
  refine (Touches.ite (fun _ => ((State.answerErr_touches ..).mono rfl)) (fun _ => (Touches.ite (fun _ => (((State.onPlat_touches ..).mono rfl).step (State.answer_touches ..) rfl)) (fun _ => (Touches.ite (fun _ => ((State.answer_touches ..).mono rfl)) (fun _ => (Touches.ite (fun _ => ((State.answerNat_touches ..).mono rfl)) (fun _ => (Touches.ite (fun _ => ?_) (fun _ => ((State.answerNat_touches ..).mono rfl)))))))))))
  extract_lets +onlyGivenNames h cmp r
  clear_value h cmp r
  exact (Touches.ite (fun _ => ((State.answerNat_touches ..).mono rfl)) (fun _ => (Touches.ite (fun _ => ((State.answerNat_touches ..).mono rfl)) (fun _ => (Touches.ite (fun _ => ((State.answerNat_touches ..).mono rfl)) (fun _ => ((State.answerNat_touches ..).mono rfl)))))))

theorem State.windowRead_touches : ∀ s o, Touches 41943040 s (State.windowRead s o) := by
  intro s o
  unfold State.windowRead
  refine (Touches.ite (fun _ => ?_) (fun _ => (Touches.ite (fun _ => ((State.answer_touches ..).mono rfl)) (fun _ => ((State.answer_touches ..).mono rfl)))))
  extract_lets +onlyGivenNames d
  have h_d : Touches 41943040 s d.2 := ((State.drawWord_touches ..).mono rfl)
  clear_value d
  exact (h_d.step (State.answer_touches ..) rfl)

theorem State.msixRead_touches : ∀ s o, Touches 8388608 s (State.msixRead s o) := by
  intro s o
  unfold State.msixRead
  refine (Touches.ite (fun _ => ?_) (fun _ => (Touches.ite (fun _ => ((State.answer_touches ..).mono rfl)) (fun _ => ((State.answer_touches ..).mono rfl)))))
  extract_lets +onlyGivenNames e
  clear_value e
  exact ((State.answer_touches ..).mono rfl)

theorem State.readAt_touches : ∀ s m a len, Touches 44148340 s (State.readAt s m a len) := by
  intro s m a len
  unfold State.readAt
  extract_lets +onlyGivenNames word
  clear_value word
  refine (Touches.ite (fun _ => ?_) (fun _ => ?_))
  · extract_lets +onlyGivenNames o
    clear_value o
    exact (Touches.ite (fun _ => ((State.readPage_touches ..).mono rfl)) (fun _ => (((State.badAccess_touches ..).mono rfl).step (State.answerErr_touches ..) rfl)))
  · split
    · exact (Touches.ite (fun _ => ((State.answerErr_touches ..).mono rfl)) (fun _ => (Touches.ite (fun _ => ((State.windowRead_touches ..).mono rfl)) (fun _ => (Touches.ite (fun _ => ((State.msixRead_touches ..).mono rfl)) (fun _ => (Touches.ite (fun _ => ((State.answer_touches ..).mono rfl)) (fun _ => ((State.answerErr_touches ..).mono rfl)))))))))
    · split
      · extract_lets +onlyGivenNames r
        have h_r : Touches 44148340 s r.2 := ((State.busRead_touches ..).mono rfl)
        clear_value r
        exact (Touches.ite (fun _ => (h_r.step (State.answerErr_touches ..) rfl)) (fun _ => (h_r.step (State.answer_touches ..) rfl)))
      · extract_lets +onlyGivenNames r
        have h_r : Touches 44148340 s r.2 := ((State.busRead_touches ..).mono rfl)
        clear_value r
        exact (Touches.ite (fun _ => (h_r.step (State.answerErr_touches ..) rfl)) (fun _ => (h_r.step (State.answer_touches ..) rfl)))
      · exact ((State.answerErr_touches ..).mono rfl)
    · refine (Touches.ite (fun _ => ((State.answerNat_touches ..).mono rfl)) (fun _ => (Touches.ite (fun _ => ((State.timerRead_touches ..).mono rfl)) (fun _ => (Touches.ite (fun _ => (Touches.ite (fun _ => ((State.plicRead_touches ..).mono rfl)) (fun _ => ((State.answerErr_touches ..).mono rfl)))) (fun _ => ?_))))))
      extract_lets +onlyGivenNames r
      have h_r : Touches 44148340 s r.2 := ((State.busRead_touches ..).mono rfl)
      clear_value r
      exact (Touches.ite (fun _ => (h_r.step (State.answerErr_touches ..) rfl)) (fun _ => (h_r.step (State.answerNat_touches ..) rfl)))

end Sys2Proof.Machine
end

