-- ==== Sys2Proof/Laws/Touch/Swift.lean ====
section
/-!
SUPPORT. What each operation of Machine/Swift.lean may touch (see Laws/Touches.lean).
-/

-- One proof at a time bounds the threads and memory of a compile.
set_option Elab.async false

namespace Sys2Proof.Machine

open Sys2Proof

theorem execEyeScanGo_touches : ∀ m n v s, Ends 1092 s (execEyeScanGo m n v s) := by
  intro m n v s
  unfold execEyeScanGo
  extract_lets +onlyGivenNames p
  clear_value p
  exact Ends.next (State.regWrite_touches (Touches.refl _ _) rfl (fun _ h => (Touches.ite (fun _ => h) (fun _ => (Touches.ite (fun _ => (h.step (State.stateWrite_touches ..) rfl)) (fun _ => (h.step (State.setReg_touches ..) rfl)))))))

theorem State.eyeScanEnd_touches : ∀ s n status errs, Touches 4 s (State.eyeScanEnd s n status errs) := by
  intro s n status errs
  unfold State.eyeScanEnd
  extract_lets +onlyGivenNames p
  clear_value p
  exact (((State.setReg_touches ..).mono rfl).step (State.setReg64_touches ..) rfl)

theorem execEyeScanAbort_touches : ∀ m n v s, Ends 33555524 s (execEyeScanAbort m n v s) := by
  intro m n v s
  unfold execEyeScanAbort
  extract_lets +onlyGivenNames p
  clear_value p
  refine Ends.next (State.regWrite_touches (Touches.refl _ _) rfl (fun _ h => (Touches.ite (fun _ => h) (fun _ => (Touches.ite (fun _ => (h.step (State.stateWrite_touches ..) rfl)) (fun _ => ?_))))))
  extract_lets +onlyGivenNames e
  have h_e : Touches 33555524 s e.2 := (h.step (State.drawNat_touches ..) rfl)
  clear_value e
  exact (h_e.step (State.eyeScanEnd_touches ..) rfl)

theorem execEyeScanDone_touches : ∀ n errs lost s, Ends 4 s (execEyeScanDone n errs lost s) := by
  intro n errs lost s
  unfold execEyeScanDone
  extract_lets +onlyGivenNames p
  clear_value p
  refine Ends.ite (fun _ => ?_) (fun _ => ?_)
  · exact Ends.next (Touches.refl _ _)
  · exact Ends.next ((State.eyeScanEnd_touches ..).mono rfl)

theorem execTxEqWrite_touches : ∀ m n v s, Ends 1100 s (execTxEqWrite m n v s) := by
  intro m n v s
  unfold execTxEqWrite
  extract_lets +onlyGivenNames p
  clear_value p
  exact Ends.next (State.regWrite_touches (Touches.refl _ _) rfl (fun _ h => (Touches.ite (fun _ => (h.step (State.raise_touches ..) rfl)) (fun _ => (h.step (State.storeFields_touches ..) rfl)))))

end Sys2Proof.Machine
end

