-- ==== Sys2Proof/Laws/Touch/RegWrite.lean ====
section
/-!
SUPPORT. What each operation of Machine/RegWrite.lean may touch (see Laws/Touches.lean).
-/

-- One proof at a time bounds the threads and memory of a compile.
set_option Elab.async false

namespace Sys2Proof.Machine

open Sys2Proof

theorem State.shadowCommit_touches : ∀ s p, Touches 526156 s (State.shadowCommit s p) := by
  intro s p
  unfold State.shadowCommit
  refine (Touches.ite (fun _ => Touches.refl _ _) (fun _ => ?_))
  extract_lets +onlyGivenNames ready
  clear_value ready
  split
  · extract_lets +onlyGivenNames n
    clear_value n
    exact (Touches.ite (fun _ => ((State.dispCommitOff_touches ..).mono rfl)) (fun _ => Touches.refl _ _))
  · extract_lets +onlyGivenNames n
    clear_value n
    exact (Touches.ite (fun _ => ((State.eyeCommit_touches ..).mono rfl)) (fun _ => Touches.refl _ _))
  · exact (Touches.ite (fun _ => ((State.tdmCommitOff_touches ..).mono rfl)) (fun _ => Touches.refl _ _))
  · extract_lets +onlyGivenNames trig due
    clear_value trig due
    refine (Touches.ite (fun _ => Touches.refl _ _) (fun _ => ?_))
    extract_lets +onlyGivenNames s1
    have h_s1 : Touches 526156 s s1 := (Touches.ite (fun _ => ((State.setBusy_touches ..).mono rfl)) (fun _ => Touches.refl _ _))
    clear_value s1
    extract_lets +onlyGivenNames s2
    have h_s2 : Touches 526156 s s2 := (Touches.ite (fun _ => (Touches.foldl h_s1 (fun _ _ h => (h.step (State.distCommit_touches ..) rfl)))) (fun _ => (h_s1.step (State.applyShadow_touches ..) rfl)))
    clear_value s2
    exact ((h_s2.step (State.commitOver_touches ..) rfl).step (State.modPage_touches ..) rfl)

theorem State.ctrlWrite_touches : ∀ s m p v, Touches 41926527 s (State.ctrlWrite s m p v) := by
  intro s m p v
  unfold State.ctrlWrite
  extract_lets +onlyGivenNames o
  clear_value o
  extract_lets +onlyGivenNames g
  have h_g : Touches 41926527 s g.st := ((State.gateWrite_touches ..).mono rfl)
  clear_value g
  refine (Touches.ite (fun _ => h_g) (fun _ => (Touches.ite (fun _ => (h_g.step (State.softReset_touches ..) rfl)) (fun _ => ?_))))
  extract_lets +onlyGivenNames t1
  have h_t1 : Touches 41926527 s t1 := h_g
  clear_value t1
  extract_lets +onlyGivenNames t11
  have h_t11 : Touches 41926527 s t11 := (Touches.ite (fun _ => (h_t1.step (State.putBit_touches ..) rfl)) (fun _ => h_t1))
  clear_value t11
  extract_lets +onlyGivenNames was
  clear_value was
  extract_lets +onlyGivenNames t2
  have h_t2 : Touches 41926527 s t2 := (Touches.ite (fun _ => ((h_t11.step (State.freezePage_touches ..) rfl).step (State.putBit_touches ..) rfl)) (fun _ => (Touches.ite (fun _ => ((h_t11.step (State.putBit_touches ..) rfl).step (State.modPage_touches ..) rfl)) (fun _ => h_t11))))
  clear_value t2
  extract_lets +onlyGivenNames t3
  have h_t3 : Touches 41926527 s t3 := (Touches.ite (fun _ => (h_t2.step (State.fenceNow_touches ..) rfl)) (fun _ => h_t2))
  clear_value t3
  exact (Touches.ite (fun _ => (h_t3.step (State.softReset_touches ..) rfl)) (fun _ => h_t3))

theorem State.shadowWrite_touches : ∀ s0 m p v, Touches 526156 s0 (State.shadowWrite s0 m p v) := by
  intro s0 m p v
  unfold State.shadowWrite
  extract_lets +onlyGivenNames o
  clear_value o
  extract_lets +onlyGivenNames s
  have h_s : Touches 526156 s0 s := ((State.shadowCommit_touches ..).mono rfl)
  clear_value s
  extract_lets +onlyGivenNames g
  have h_g : Touches 526156 s0 g.st := (h_s.step (State.gateWrite_touches ..) rfl)
  clear_value g
  refine (Touches.ite (fun _ => h_g) (fun _ => ?_))
  extract_lets +onlyGivenNames t1
  have h_t1 : Touches 526156 s0 t1 := h_g
  clear_value t1
  extract_lets +onlyGivenNames old pend trig new
  clear_value old pend trig new
  extract_lets +onlyGivenNames t11
  have h_t11 : Touches 526156 s0 t11 := (Touches.ite (fun _ => h_t1) (fun _ => (Touches.ite (fun _ => (h_t1.step (State.stateWrite_touches ..) rfl)) (fun _ => (h_t1.step (State.setReg_touches ..) rfl)))))
  clear_value t11
  exact (Touches.ite (fun _ => (h_t11.step (State.commitOver_touches ..) rfl)) (fun _ => (Touches.ite (fun _ => ((h_t11.step (State.putBit_touches ..) rfl).step (State.modPage_touches ..) rfl)) (fun _ => h_t11))))

theorem State.lockWrite_touches : ∀ s m p v, Touches 1092 s (State.lockWrite s m p v) := by
  intro s m p v
  unfold State.lockWrite
  extract_lets +onlyGivenNames g
  have h_g : Touches 1092 s g.st := ((State.gateWrite_touches ..).mono rfl)
  clear_value g
  exact (Touches.ite (fun _ => h_g) (fun _ => (Touches.ite (fun _ => (h_g.step (State.modPage_touches ..) rfl)) (fun _ => h_g))))

theorem State.intAgain_touches : ∀ s p, Touches 8256 s (State.intAgain s p) := by
  intro s p
  unfold State.intAgain
  refine (Touches.ite (fun _ => ((State.modPage_touches ..).mono rfl)) (fun _ => (Touches.ite (fun _ => ?_) (fun _ => Touches.refl _ _))))
  split
  · exact ((State.msixRaise_touches ..).mono rfl)
  · exact Touches.refl _ _

theorem State.headerWrite_touches : ∀ s p o v, Touches 9284 s (State.headerWrite s p o v) := by
  intro s p o v
  unfold State.headerWrite
  extract_lets +onlyGivenNames rt now
  clear_value rt now
  refine (Touches.ite (fun _ => ?_) (fun _ => (Touches.ite (fun _ => ((State.setReg_touches ..).mono rfl)) (fun _ => (Touches.ite (fun _ => ((State.setReg_touches ..).mono rfl)) (fun _ => (Touches.ite (fun _ => ?_) (fun _ => (Touches.ite (fun _ => (((State.setReg_touches ..).mono rfl).step (State.intAgain_touches ..) rfl)) (fun _ => Touches.refl _ _))))))))))
  · extract_lets +onlyGivenNames again kept
    clear_value again kept
    extract_lets +onlyGivenNames s1
    have h_s1 : Touches 9284 s s1 := ((State.setReg_touches ..).mono rfl)
    clear_value s1
    exact (Touches.foldl h_s1 (fun _ _ h => (h.step (State.raise_touches ..) rfl)))
  · extract_lets +onlyGivenNames kept
    clear_value kept
    extract_lets +onlyGivenNames s1
    have h_s1 : Touches 9284 s s1 := ((State.setReg_touches ..).mono rfl)
    clear_value s1
    extract_lets +onlyGivenNames s2
    have h_s2 : Touches 9284 s s2 := (Touches.ite (fun _ => (h_s1.step (State.setReg_touches ..) rfl)) (fun _ => h_s1))
    clear_value s2
    exact (h_s2.step (State.intAgain_touches ..) rfl)

theorem State.thermWrite_touches : ∀ s o v unlocked, Touches 1092 s (State.thermWrite s o v unlocked) := by
  intro s o v unlocked
  unfold State.thermWrite
  extract_lets +onlyGivenNames p
  clear_value p
  extract_lets +onlyGivenNames lvl levels hn
  clear_value levels hn
  exact (Touches.ite (fun _ => (Touches.ite (fun _ => ((State.raise_touches ..).mono rfl)) (fun _ => (Touches.ite (fun _ => ((State.setReg_touches ..).mono rfl)) (fun _ => ((State.raise_touches ..).mono rfl)))))) (fun _ => (Touches.ite (fun _ => (Touches.ite (fun _ => ((State.setReg_touches ..).mono rfl)) (fun _ => ((State.raise_touches ..).mono rfl)))) (fun _ => (Touches.ite (fun _ => ((State.setReg_touches ..).mono rfl)) (fun _ => ((State.raise_touches ..).mono rfl)))))))

theorem State.statWrite_touches : ∀ s p o v, Touches 66628 s (State.statWrite s p o v) := by
  intro s p o v
  unfold State.statWrite
  extract_lets +onlyGivenNames k c lo hi base evt
  clear_value k c lo hi base evt
  exact (Touches.ite (fun _ => Touches.refl _ _) (fun _ => (Touches.ite (fun _ => ((State.stateWrite_touches ..).mono rfl)) (fun _ => ((State.modPctx_touches ..).mono rfl)))))

theorem State.blockWrite_touches : ∀ s p o v unlocked, Touches 2197324 s (State.blockWrite s p o v unlocked) := by
  intro s p o v unlocked
  unfold State.blockWrite
  extract_lets +onlyGivenNames plain
  have h_plain : Touches 2197324 s plain := ((State.storeFields_touches ..).mono rfl)
  clear_value plain
  split
  · exact (Touches.ite (fun _ => ((State.storeFields_touches ..).mono rfl)) (fun _ => h_plain))
  · exact (Touches.ite (fun _ => ((State.raise_touches ..).mono rfl)) (fun _ => h_plain))
  · exact (Touches.ite (fun _ => ((((State.windowSync_touches ..).mono rfl).step (State.evMark_touches ..) rfl).step (State.storeFields_touches ..) rfl)) (fun _ => h_plain))
  · exact (Touches.ite (fun _ => ((((State.windowSync_touches ..).mono rfl).step (State.evMark_touches ..) rfl).step (State.storeFields_touches ..) rfl)) (fun _ => h_plain))
  · exact (Touches.ite (fun _ => h_plain) (fun _ => (Touches.ite (fun _ => (h_plain.step (State.setPhaseState_touches ..) rfl)) (fun _ => (Touches.ite (fun _ => ((State.raise_touches ..).mono rfl)) (fun _ => h_plain))))))
  · refine (Touches.ite (fun _ => ?_) (fun _ => h_plain))
    extract_lets +onlyGivenNames k
    clear_value k
    exact (Touches.ite (fun _ => h_plain) (fun _ => (h_plain.step (State.setLl_touches ..) rfl)))
  · exact (Touches.ite (fun _ => ((State.raise_touches ..).mono rfl)) (fun _ => h_plain))
  · exact (Touches.ite (fun _ => (Touches.ite (fun _ => (((State.setReg_touches ..).mono rfl).step (State.fnUpdate_touches ..) rfl)) (fun _ => ((State.raise_touches ..).mono rfl)))) (fun _ => (Touches.ite (fun _ => (Touches.ite (fun _ => ((State.setReg_touches ..).mono rfl)) (fun _ => ((State.raise_touches ..).mono rfl)))) (fun _ => h_plain))))
  · exact (Touches.ite (fun _ => ((State.thermWrite_touches ..).mono rfl)) (fun _ => Touches.refl _ _))
  · refine (Touches.ite (fun _ => ?_) (fun _ => h_plain))
    extract_lets +onlyGivenNames m
    clear_value m
    exact (Touches.ite (fun _ => ((State.stateWrite_touches ..).mono rfl)) (fun _ => ((State.setReg_touches ..).mono rfl)))
  · exact (Touches.ite (fun _ => ((State.raise_touches ..).mono rfl)) (fun _ => h_plain))
  · exact (Touches.ite (fun _ => ((State.statWrite_touches ..).mono rfl)) (fun _ => h_plain))
  · exact (Touches.ite (fun _ => Touches.refl _ _) (fun _ => h_plain))
  · refine (Touches.ite (fun _ => ?_) (fun _ => h_plain))
    extract_lets +onlyGivenNames n both w
    clear_value n both w
    exact ((State.storeFields_touches ..).mono rfl)
  · exact (Touches.ite (fun _ => (h_plain.step (State.ptpNone_touches ..) rfl)) (fun _ => h_plain))
  · exact (Touches.ite (fun _ => ((Touches.ite (fun _ => (((State.creditStep_touches ..).mono rfl).step (State.putBit_touches ..) rfl)) (fun _ => Touches.refl _ _)).step (State.stateWrite_touches ..) rfl)) (fun _ => (Touches.ite (fun _ => (((State.creditStep_touches ..).mono rfl).step (State.storeFields_touches ..) rfl)) (fun _ => h_plain))))
  · exact (Touches.ite (fun _ => ((State.modI3c_touches ..).mono rfl)) (fun _ => (Touches.ite (fun _ => (Touches.ite (fun _ => h_plain) (fun _ => ((h_plain.step (State.putBit_touches ..) rfl).step (State.modPort_touches ..) rfl)))) (fun _ => (Touches.ite (fun _ => (h_plain.step (State.i3cStart_touches ..) rfl)) (fun _ => h_plain))))))
  · exact h_plain

theorem State.badCmd_touches : ∀ s m p o, Touches 1092 s (State.badCmd s m p o) := by
  intro s m p o
  unfold State.badCmd
  exact (State.regWrite_touches (Touches.refl _ _) rfl (fun _ h => (h.step (State.stateWrite_touches ..) rfl)))

theorem State.routeCore_touches : ∀ s m p o v, TouchesOpt 67108863 s (State.routeCore s m p o v) := by
  intro s m p o v
  unfold State.routeCore
  split
  · split
    · refine TouchesOpt.some (after_touches (Touches.refl _ _) (Ends.step (Touches.refl _ _) (execResetCmd_touches ..) rfl))
    · exact TouchesOpt.none _ _
  · split
    · refine TouchesOpt.some (after_touches (Touches.refl _ _) (Ends.step (Touches.refl _ _) (execConfirm_touches ..) rfl))
    · split
      · refine TouchesOpt.some (after_touches (Touches.refl _ _) (Ends.step (Touches.refl _ _) (execPref_touches ..) rfl))
      · split
        · refine TouchesOpt.some (after_touches (Touches.refl _ _) (Ends.step (Touches.refl _ _) (execVerAdv_touches ..) rfl))
        · split
          · refine TouchesOpt.some (after_touches (Touches.refl _ _) (Ends.step (Touches.refl _ _) (execVerifyCmd_touches ..) rfl))
          · split
            · refine TouchesOpt.some ?_
              split
              · exact (after_touches (Touches.refl _ _) (Ends.step (Touches.refl _ _) (execXspiRead_touches ..) rfl))
              · exact (after_touches (Touches.refl _ _) (Ends.step (Touches.refl _ _) (execXspiProgram_touches ..) rfl))
              · exact (after_touches (Touches.refl _ _) (Ends.step (Touches.refl _ _) (execXspiErase_touches ..) rfl))
              · exact ((State.badCmd_touches ..).mono rfl)
            · exact TouchesOpt.none _ _
  · split
    · refine TouchesOpt.some (State.regWrite_touches (Touches.refl _ _) rfl (fun _ h => (Touches.ite (fun _ => (((h.step (State.setReg_touches ..) rfl).step (State.setInt_touches ..) rfl).step (State.produce_touches ..) rfl)) (fun _ => h))))
    · exact TouchesOpt.none _ _
  · split
    · refine TouchesOpt.some (after_touches (Touches.refl _ _) (Ends.step (Touches.refl _ _) (execDomainOnRequest_touches ..) rfl))
    · exact TouchesOpt.none _ _
  · split
    · refine TouchesOpt.some ?_
      split
      · exact (after_touches (Touches.refl _ _) (Ends.step (Touches.refl _ _) (execActiveRequest_touches ..) rfl))
      · exact (after_touches (Touches.refl _ _) (Ends.step (Touches.refl _ _) (execStandbyRequest_touches ..) rfl))
      · exact (after_touches (Touches.refl _ _) (Ends.step (Touches.refl _ _) (execDormantRequest_touches ..) rfl))
    · exact TouchesOpt.none _ _
  · split
    · refine TouchesOpt.some (after_touches (Touches.refl _ _) (Ends.step (Touches.refl _ _) (execTimeCtrlWrite_touches ..) rfl))
    · split
      · refine TouchesOpt.some (after_touches (Touches.refl _ _) (Ends.step (Touches.refl _ _) (execTimeSetGo_touches ..) rfl))
      · split
        · refine TouchesOpt.some (after_touches (Touches.refl _ _) (Ends.step (Touches.refl _ _) (execSnapGo_touches ..) rfl))
        · exact TouchesOpt.none _ _
  · split
    · refine TouchesOpt.some (after_touches (Touches.refl _ _) (Ends.step (Touches.refl _ _) (execPosSet_touches ..) rfl))
    · exact TouchesOpt.none _ _
  · split
    · refine TouchesOpt.some ?_
      split
      · exact (after_touches (Touches.refl _ _) (Ends.step (Touches.refl _ _) (execLoad_touches ..) rfl))
      · exact (after_touches (Touches.refl _ _) (Ends.step (Touches.refl _ _) (execCueStore_touches ..) rfl))
      · exact (after_touches (Touches.refl _ _) (Ends.step (Touches.refl _ _) (execDisarm_touches ..) rfl))
      · exact (after_touches (Touches.refl _ _) (Ends.step (Touches.refl _ _) (execClear_touches ..) rfl))
      · exact ((State.badCmd_touches ..).mono rfl)
    · exact TouchesOpt.none _ _
  · split
    · refine TouchesOpt.some (after_touches (Touches.refl _ _) (Ends.step (Touches.refl _ _) (execSwFire_touches ..) rfl))
    · exact TouchesOpt.none _ _
  · split
    · refine TouchesOpt.some (after_touches (Touches.refl _ _) (Ends.step (Touches.refl _ _) (execPinCfgWrite_touches ..) rfl))
    · exact TouchesOpt.none _ _
  · split
    · refine TouchesOpt.some (after_touches (Touches.refl _ _) (Ends.step (Touches.refl _ _) (execFindCmd_touches ..) rfl))
    · split
      · refine TouchesOpt.some (after_touches (Touches.refl _ _) (Ends.step (Touches.refl _ _) (execWrGo_touches ..) rfl))
      · exact TouchesOpt.none _ _
  · split
    · refine TouchesOpt.some (after_touches (Touches.refl _ _) (Ends.step (Touches.refl _ _) (execSwGo_touches ..) rfl))
    · split
      · refine TouchesOpt.some (after_touches (Touches.refl _ _) (Ends.step (Touches.refl _ _) (execSnapCmd_touches ..) rfl))
      · exact TouchesOpt.none _ _
  · split
    · refine TouchesOpt.some (Touches.ite (fun _ => (after_touches (Touches.refl _ _) (Ends.step (Touches.refl _ _) (execCondemn_touches ..) rfl))) (fun _ => ((State.badCmd_touches ..).mono rfl)))
    · exact TouchesOpt.none _ _
  · split
    · refine TouchesOpt.some (after_touches (Touches.refl _ _) (Ends.step (Touches.refl _ _) (execFnClr_touches ..) rfl))
    · split
      · refine TouchesOpt.some (after_touches (Touches.refl _ _) (Ends.step (Touches.refl _ _) (execFnSwWrite_touches ..) rfl))
      · split
        · refine TouchesOpt.some (after_touches (Touches.refl _ _) (Ends.step (Touches.refl _ _) (execArm_touches ..) rfl))
        · split
          · refine TouchesOpt.some (after_touches (Touches.refl _ _) (Ends.step (Touches.refl _ _) (execHbKick_touches ..) rfl))
          · split
            · refine TouchesOpt.some (after_touches (Touches.refl _ _) (Ends.step (Touches.refl _ _) (execLsTest_touches ..) rfl))
            · split
              · refine TouchesOpt.some (after_touches (Touches.refl _ _) (Ends.step (Touches.refl _ _) (execEyeInj_touches ..) rfl))
              · split
                · refine TouchesOpt.some (after_touches (Touches.refl _ _) (Ends.step (Touches.refl _ _) (execViewClr_touches ..) rfl))
                · exact TouchesOpt.none _ _
  · exact TouchesOpt.none _ _

theorem State.routeData_touches : ∀ s m p o v, TouchesOpt 34058063 s (State.routeData s m p o v) := by
  intro s m p o v
  unfold State.routeData
  split
  · split
    · refine TouchesOpt.some (after_touches (Touches.refl _ _) (Ends.step (Touches.refl _ _) (execI3cCmd_touches ..) rfl))
    · exact TouchesOpt.none _ _
  · extract_lets +onlyGivenNames n
    clear_value n
    split
    · refine TouchesOpt.some (after_touches (Touches.refl _ _) (Ends.step (Touches.refl _ _) (execLaneCfgWrite_touches ..) rfl))
    · split
      · refine TouchesOpt.some (after_touches (Touches.refl _ _) (Ends.step (Touches.refl _ _) (execTxEqWrite_touches ..) rfl))
      · split
        · refine TouchesOpt.some (Touches.ite (fun _ => (after_touches (Touches.refl _ _) (Ends.step (Touches.refl _ _) (execEyeScanAbort_touches ..) rfl))) (fun _ => (after_touches (Touches.refl _ _) (Ends.step (Touches.refl _ _) (execEyeScanGo_touches ..) rfl))))
        · exact TouchesOpt.none _ _
  · extract_lets +onlyGivenNames n
    clear_value n
    split
    · refine TouchesOpt.some (Touches.ite (fun _ => (after_touches (Touches.refl _ _) (Ends.step (Touches.refl _ _) (execDlkEnable_touches ..) rfl))) (fun _ => (after_touches (Touches.refl _ _) (Ends.step (Touches.refl _ _) (execDlkDisable_touches ..) rfl))))
    · split
      · refine TouchesOpt.some (after_touches (Touches.refl _ _) (Ends.step (Touches.refl _ _) (execBcTxGo_touches ..) rfl))
      · exact TouchesOpt.none _ _
  · split
    · refine TouchesOpt.some ?_
      split
      · exact (after_touches (Touches.refl _ _) (Ends.step (Touches.refl _ _) (execStrmLoad_touches ..) rfl))
      · exact (after_touches (Touches.refl _ _) (Ends.step (Touches.refl _ _) (execStrmStore_touches ..) rfl))
      · exact (after_touches (Touches.refl _ _) (Ends.step (Touches.refl _ _) (execStop_touches ..) rfl))
      · exact (after_touches (Touches.refl _ _) (Ends.step (Touches.refl _ _) (execStopNow_touches ..) rfl))
      · exact ((State.badCmd_touches ..).mono rfl)
    · exact TouchesOpt.none _ _
  · extract_lets +onlyGivenNames n
    clear_value n
    split
    · refine TouchesOpt.some ?_
      split
      · exact (after_touches (Touches.refl _ _) (Ends.step (Touches.refl _ _) (execCtxLoad_touches ..) rfl))
      · exact (after_touches (Touches.refl _ _) (Ends.step (Touches.refl _ _) (execCtxStore_touches ..) rfl))
      · exact (after_touches (Touches.refl _ _) (Ends.step (Touches.refl _ _) (execStart_touches ..) rfl))
      · exact (after_touches (Touches.refl _ _) (Ends.step (Touches.refl _ _) (execCtxStop_touches ..) rfl))
      · exact (after_touches (Touches.refl _ _) (Ends.step (Touches.refl _ _) (execCtxStopNow_touches ..) rfl))
      · exact ((State.badCmd_touches ..).mono rfl)
    · split
      · refine TouchesOpt.some (after_touches (Touches.refl _ _) (Ends.step (Touches.refl _ _) (execPsetPush_touches ..) rfl))
      · exact TouchesOpt.none _ _
  · extract_lets +onlyGivenNames n b
    clear_value n b
    split
    · refine TouchesOpt.some ?_
      split
      · exact (after_touches (Touches.refl _ _) (Ends.step (Touches.refl _ _) (execBrLoad_touches ..) rfl))
      · exact (after_touches (Touches.refl _ _) (Ends.step (Touches.refl _ _) (execBrStore_touches ..) rfl))
      · exact ((State.badCmd_touches ..).mono rfl)
    · exact TouchesOpt.none _ _
  · split
    · refine TouchesOpt.some (after_touches (Touches.refl _ _) (Ends.step (Touches.refl _ _) (execLoadCtrlGo_touches ..) rfl))
    · split
      · refine TouchesOpt.some (after_touches (Touches.refl _ _) (Ends.step (Touches.refl _ _) (execBistCmd_touches ..) rfl))
      · exact TouchesOpt.none _ _
  · split
    · refine TouchesOpt.some ?_
      split
      · exact (after_touches (Touches.refl _ _) (Ends.step (Touches.refl _ _) (execThrStart_touches ..) rfl))
      · exact (after_touches (Touches.refl _ _) (Ends.step (Touches.refl _ _) (execPark_touches ..) rfl))
      · exact (after_touches (Touches.refl _ _) (Ends.step (Touches.refl _ _) (execThrReset_touches ..) rfl))
      · exact ((State.badCmd_touches ..).mono rfl)
    · exact TouchesOpt.none _ _
  · split
    · refine TouchesOpt.some ?_
      split
      · exact (after_touches (Touches.refl _ _) (Ends.step (Touches.refl _ _) (execSessLoad_touches ..) rfl))
      · exact (after_touches (Touches.refl _ _) (Ends.step (Touches.refl _ _) (execSessStore_touches ..) rfl))
      · exact (after_touches (Touches.refl _ _) (Ends.step (Touches.refl _ _) (execSessStop_touches ..) rfl))
      · exact (after_touches (Touches.refl _ _) (Ends.step (Touches.refl _ _) (execSessStopNow_touches ..) rfl))
      · exact (after_touches (Touches.refl _ _) (Ends.step (Touches.refl _ _) (execSetRate_touches ..) rfl))
      · exact (after_touches (Touches.refl _ _) (Ends.step (Touches.refl _ _) (execForceIdr_touches ..) rfl))
      · exact (after_touches (Touches.refl _ _) (Ends.step (Touches.refl _ _) (execFlush_touches ..) rfl))
      · exact ((State.badCmd_touches ..).mono rfl)
    · split
      · refine TouchesOpt.some (after_touches (Touches.refl _ _) (Ends.step (Touches.refl _ _) (execGangWrite_touches ..) rfl))
      · exact TouchesOpt.none _ _
  · split
    · refine TouchesOpt.some ?_
      split
      · exact (after_touches (Touches.refl _ _) (Ends.step (Touches.refl _ _) (execSessLoad_touches ..) rfl))
      · exact (after_touches (Touches.refl _ _) (Ends.step (Touches.refl _ _) (execSessStore_touches ..) rfl))
      · exact (after_touches (Touches.refl _ _) (Ends.step (Touches.refl _ _) (execSessStop_touches ..) rfl))
      · exact (after_touches (Touches.refl _ _) (Ends.step (Touches.refl _ _) (execSessStopNow_touches ..) rfl))
      · exact (after_touches (Touches.refl _ _) (Ends.step (Touches.refl _ _) (execSetRate_touches ..) rfl))
      · exact (after_touches (Touches.refl _ _) (Ends.step (Touches.refl _ _) (execForceIdr_touches ..) rfl))
      · exact (after_touches (Touches.refl _ _) (Ends.step (Touches.refl _ _) (execFlush_touches ..) rfl))
      · exact ((State.badCmd_touches ..).mono rfl)
    · split
      · refine TouchesOpt.some (after_touches (Touches.refl _ _) (Ends.step (Touches.refl _ _) (execGangWrite_touches ..) rfl))
      · exact TouchesOpt.none _ _
  · split
    · refine TouchesOpt.some ?_
      split
      · exact (after_touches (Touches.refl _ _) (Ends.step (Touches.refl _ _) (execSessLoad_touches ..) rfl))
      · exact (after_touches (Touches.refl _ _) (Ends.step (Touches.refl _ _) (execSessStore_touches ..) rfl))
      · exact (after_touches (Touches.refl _ _) (Ends.step (Touches.refl _ _) (execSessStop_touches ..) rfl))
      · exact (after_touches (Touches.refl _ _) (Ends.step (Touches.refl _ _) (execSessStopNow_touches ..) rfl))
      · exact (after_touches (Touches.refl _ _) (Ends.step (Touches.refl _ _) (execSetRate_touches ..) rfl))
      · exact (after_touches (Touches.refl _ _) (Ends.step (Touches.refl _ _) (execForceIdr_touches ..) rfl))
      · exact (after_touches (Touches.refl _ _) (Ends.step (Touches.refl _ _) (execFlush_touches ..) rfl))
      · exact ((State.badCmd_touches ..).mono rfl)
    · split
      · refine TouchesOpt.some (after_touches (Touches.refl _ _) (Ends.step (Touches.refl _ _) (execGangWrite_touches ..) rfl))
      · exact TouchesOpt.none _ _
  · exact TouchesOpt.none _ _

theorem State.routeOut_touches : ∀ s m p o v, TouchesOpt 41434703 s (State.routeOut s m p o v) := by
  intro s m p o v
  unfold State.routeOut
  split
  · extract_lets +onlyGivenNames n
    clear_value n
    split
    · refine TouchesOpt.some ?_
      split
      · exact (after_touches (Touches.refl _ _) (Ends.step (Touches.refl _ _) (execAuxNativeWrite_touches ..) rfl))
      · exact (after_touches (Touches.refl _ _) (Ends.step (Touches.refl _ _) (execAuxNativeRead_touches ..) rfl))
      · exact (after_touches (Touches.refl _ _) (Ends.step (Touches.refl _ _) (execAuxI2cWrite_touches ..) rfl))
      · exact (after_touches (Touches.refl _ _) (Ends.step (Touches.refl _ _) (execAuxI2cRead_touches ..) rfl))
      · exact ((State.badCmd_touches ..).mono rfl)
    · exact TouchesOpt.none _ _
  · split
    · refine TouchesOpt.some (after_touches (Touches.refl _ _) (Ends.step (Touches.refl _ _) (execSafeClr_touches ..) rfl))
    · exact TouchesOpt.none _ _
  · extract_lets +onlyGivenNames n
    clear_value n
    split
    · refine TouchesOpt.some ?_
      split
      · exact (after_touches (Touches.refl _ _) (Ends.step (Touches.refl _ _) (execTdmStart_touches ..) rfl))
      · exact (after_touches (Touches.refl _ _) (Ends.step (Touches.refl _ _) (execTdmStop_touches ..) rfl))
      · exact (after_touches (Touches.refl _ _) (Ends.step (Touches.refl _ _) (execTdmStopNow_touches ..) rfl))
      · exact ((State.badCmd_touches ..).mono rfl)
    · split
      · refine TouchesOpt.some (after_touches (Touches.refl _ _) (Ends.step (Touches.refl _ _) (execSwCountWrite_touches ..) rfl))
      · exact TouchesOpt.none _ _
  · split
    · refine TouchesOpt.some (after_touches (Touches.refl _ _) (Ends.step (Touches.refl _ _) (execMacCfgWrite_touches ..) rfl))
    · exact TouchesOpt.none _ _
  · extract_lets +onlyGivenNames k port off
    clear_value k port off
    extract_lets +onlyGivenNames ported
    split
    · refine TouchesOpt.some ?_
      split
      · exact (after_touches (Touches.refl _ _) (Ends.step (Touches.refl _ _) (execGclReadAdmin_touches ..) rfl))
      · exact (after_touches (Touches.refl _ _) (Ends.step (Touches.refl _ _) (execGclWriteAdmin_touches ..) rfl))
      · exact (after_touches (Touches.refl _ _) (Ends.step (Touches.refl _ _) (execGclReadOper_touches ..) rfl))
      · exact ((State.badCmd_touches ..).mono rfl)
    · split
      · refine TouchesOpt.some (after_touches (Touches.refl _ _) (Ends.step (Touches.refl _ _) (execGateCommit_touches ..) rfl))
      · split
        · refine TouchesOpt.some (after_touches (Touches.refl _ _) (Ends.step (Touches.refl _ _) (execCbsWrite_touches ..) rfl))
        · split
          · refine TouchesOpt.some ?_
            split
            · exact (after_touches (Touches.refl _ _) (Ends.step (Touches.refl _ _) (execFiltLoad_touches ..) rfl))
            · exact (after_touches (Touches.refl _ _) (Ends.step (Touches.refl _ _) (execFiltStore_touches ..) rfl))
            · exact (after_touches (Touches.refl _ _) (Ends.step (Touches.refl _ _) (execClearBlock_touches ..) rfl))
            · exact ((State.badCmd_touches ..).mono rfl)
          · split
            · refine TouchesOpt.some ?_
              split
              · exact (after_touches (Touches.refl _ _) (Ends.step (Touches.refl _ _) (execRecLoad_touches ..) rfl))
              · exact (after_touches (Touches.refl _ _) (Ends.step (Touches.refl _ _) (execRecStore_touches ..) rfl))
              · exact (after_touches (Touches.refl _ _) (Ends.step (Touches.refl _ _) (execRecReset_touches ..) rfl))
              · exact ((State.badCmd_touches ..).mono rfl)
            · split
              · refine TouchesOpt.some ?_
                split
                · exact (after_touches (Touches.refl _ _) (Ends.step (Touches.refl _ _) (execFlowLoad_touches ..) rfl))
                · exact (after_touches (Touches.refl _ _) (Ends.step (Touches.refl _ _) (execFlowStore_touches ..) rfl))
                · exact (after_touches (Touches.refl _ _) (Ends.step (Touches.refl _ _) (execFlowStop_touches ..) rfl))
                · exact ((State.badCmd_touches ..).mono rfl)
              · exact TouchesOpt.none _ _
  · split
    · refine TouchesOpt.some ?_
      split
      · exact (after_touches (Touches.refl _ _) (Ends.step (Touches.refl _ _) (execAccept_touches ..) rfl))
      · exact (after_touches (Touches.refl _ _) (Ends.step (Touches.refl _ _) (execDiscard_touches ..) rfl))
      · exact ((State.badCmd_touches ..).mono rfl)
    · exact TouchesOpt.none _ _
  · split
    · refine TouchesOpt.some (Touches.ite (fun _ => (after_touches (Touches.refl _ _) (Ends.step (Touches.refl _ _) (execNvmhEnable_touches ..) rfl))) (fun _ => (after_touches (Touches.refl _ _) (Ends.step (Touches.refl _ _) (execNvmhDisable_touches ..) rfl))))
    · exact TouchesOpt.none _ _
  · split
    · refine TouchesOpt.some ?_
      split
      · exact (after_touches (Touches.refl _ _) (Ends.step (Touches.refl _ _) (execNsLoad_touches ..) rfl))
      · exact (after_touches (Touches.refl _ _) (Ends.step (Touches.refl _ _) (execNsStore_touches ..) rfl))
      · exact (after_touches (Touches.refl _ _) (Ends.step (Touches.refl _ _) (execNsDisable_touches ..) rfl))
      · exact ((State.badCmd_touches ..).mono rfl)
    · split
      · refine TouchesOpt.some ?_
        split
        · exact (after_touches (Touches.refl _ _) (Ends.step (Touches.refl _ _) (execRecSessLoad_touches ..) rfl))
        · exact (after_touches (Touches.refl _ _) (Ends.step (Touches.refl _ _) (execRecSessStore_touches ..) rfl))
        · exact (after_touches (Touches.refl _ _) (Ends.step (Touches.refl _ _) (execRecSessStop_touches ..) rfl))
        · exact ((State.badCmd_touches ..).mono rfl)
      · exact TouchesOpt.none _ _
  · split
    · refine TouchesOpt.some ?_
      split
      · exact (after_touches (Touches.refl _ _) (Ends.step (Touches.refl _ _) (execGLoad_touches ..) rfl))
      · exact (after_touches (Touches.refl _ _) (Ends.step (Touches.refl _ _) (execGStore_touches ..) rfl))
      · exact (after_touches (Touches.refl _ _) (Ends.step (Touches.refl _ _) (execGDisable_touches ..) rfl))
      · exact ((State.badCmd_touches ..).mono rfl)
    · exact TouchesOpt.none _ _
  · split
    · refine TouchesOpt.some (after_touches (Touches.refl _ _) (Ends.step (Touches.refl _ _) (execTopoWrite_touches ..) rfl))
    · split
      · refine TouchesOpt.some (after_touches (Touches.refl _ _) (Ends.step (Touches.refl _ _) (execBankHashWrite_touches ..) rfl))
      · split
        · refine TouchesOpt.some (after_touches (Touches.refl _ _) (Ends.step (Touches.refl _ _) (execResWrite_touches ..) rfl))
        · exact TouchesOpt.none _ _
  · split
    · refine TouchesOpt.some ?_
      split
      · exact (after_touches (Touches.refl _ _) (Ends.step (Touches.refl _ _) (execQLoad_touches ..) rfl))
      · exact (after_touches (Touches.refl _ _) (Ends.step (Touches.refl _ _) (execQStore_touches ..) rfl))
      · exact (after_touches (Touches.refl _ _) (Ends.step (Touches.refl _ _) (execEnable_touches ..) rfl))
      · exact (after_touches (Touches.refl _ _) (Ends.step (Touches.refl _ _) (execDisable_touches ..) rfl))
      · exact (after_touches (Touches.refl _ _) (Ends.step (Touches.refl _ _) (execPin_touches ..) rfl))
      · exact (after_touches (Touches.refl _ _) (Ends.step (Touches.refl _ _) (execUnpin_touches ..) rfl))
      · exact (after_touches (Touches.refl _ _) (Ends.step (Touches.refl _ _) (execSetClass_touches ..) rfl))
      · exact ((State.badCmd_touches ..).mono rfl)
    · split
      · refine TouchesOpt.some (after_touches (Touches.refl _ _) (Ends.step (Touches.refl _ _) (execQstateBaseWrite_touches ..) rfl))
      · split
        · refine TouchesOpt.some (after_touches (Touches.refl _ _) (Ends.step (Touches.refl _ _) (execQstateBaseWrite_touches ..) rfl))
        · exact TouchesOpt.none _ _
  · split
    · split
      · refine TouchesOpt.some (after_touches (Touches.refl _ _) (Ends.step (Touches.refl _ _) (execPushGo_touches ..) rfl))
      · split
        · refine TouchesOpt.some (after_touches (Touches.refl _ _) (Ends.step (Touches.refl _ _) (execTakeGo_touches ..) rfl))
        · exact TouchesOpt.none _ _
    · exact TouchesOpt.none _ _
  · split
    · refine TouchesOpt.some ?_
      split
      · exact (after_touches (Touches.refl _ _) (Ends.step (Touches.refl _ _) (execActivate_touches ..) rfl))
      · exact (after_touches (Touches.refl _ _) (Ends.step (Touches.refl _ _) (execQuiesce_touches ..) rfl))
      · exact (after_touches (Touches.refl _ _) (Ends.step (Touches.refl _ _) (execSvcReset_touches ..) rfl))
      · exact ((State.badCmd_touches ..).mono rfl)
    · exact TouchesOpt.none _ _
  · exact TouchesOpt.none _ _

theorem State.route_touches : ∀ s m p o v, TouchesOpt 67108863 s (State.route s m p o v) := by
  intro s m p o v
  unfold State.route
  split
  · exact TouchesOpt.none _ _
  · split
    · split
      · refine TouchesOpt.some ((State.ctrlWrite_touches ..).mono rfl)
      · split
        · refine TouchesOpt.some ((State.shadowWrite_touches ..).mono rfl)
        · split
          · refine TouchesOpt.some ((State.lockWrite_touches ..).mono rfl)
          · split
            · refine TouchesOpt.some (after_touches (Touches.refl _ _) (Ends.step (Touches.refl _ _) (execFaultInject_touches ..) rfl))
            · split
              · refine TouchesOpt.some (after_touches (Touches.refl _ _) (Ends.step (Touches.refl _ _) (execEventPortWrite_touches ..) rfl))
              · exact TouchesOpt.none _ _
    · refine TouchesOpt.orElse ?_ ?_
      · exact TouchesOpt.step (Touches.refl _ _) (State.routeCore_touches _ _ _ _ _) rfl
      · refine TouchesOpt.orElse ?_ ?_
        · exact TouchesOpt.step (Touches.refl _ _) (State.routeData_touches _ _ _ _ _) rfl
        · exact TouchesOpt.step (Touches.refl _ _) (State.routeOut_touches _ _ _ _ _) rfl

theorem State.writePage_touches : ∀ s0 m p o v, Touches 67108863 s0 (State.writePage s0 m p o v) := by
  intro s0 m p o v
  unfold State.writePage
  extract_lets +onlyGivenNames s
  have h_s : Touches 67108863 s0 s := ((State.shadowCommit_touches ..).mono rfl)
  clear_value s
  split
  · exact (TouchesOpt.step h_s (State.route_touches _ _ _ _ _) rfl _ ‹_›)
  · extract_lets +onlyGivenNames g
    have h_g : Touches 67108863 s0 g.st := (h_s.step (State.gateWrite_touches ..) rfl)
    clear_value g
    exact (Touches.ite (fun _ => h_g) (fun _ => (Touches.ite (fun _ => (h_g.step (State.headerWrite_touches ..) rfl)) (fun _ => (h_g.step (State.blockWrite_touches ..) rfl)))))

theorem State.windowWrite_touches : ∀ s o v, Touches 4195908 s (State.windowWrite s o v) := by
  intro s o v
  unfold State.windowWrite
  refine (Touches.ite (fun _ => Touches.refl _ _) (fun _ => (Touches.ite (fun _ => (Touches.ite (fun _ => (after_touches (Touches.refl _ _) (Ends.step (Touches.refl _ _) (execCtiEnable_touches ..) rfl))) (fun _ => (after_touches (Touches.refl _ _) (Ends.step (Touches.refl _ _) (execCtiDisable_touches ..) rfl))))) (fun _ => (Touches.ite (fun _ => (Touches.ite (fun _ => (after_touches (Touches.refl _ _) (Ends.step (Touches.refl _ _) (execSqTail_touches ..) rfl))) (fun _ => (Touches.ite (fun _ => (after_touches (Touches.refl _ _) (Ends.step (Touches.refl _ _) (execCqHead_touches ..) rfl))) (fun _ => Touches.refl _ _))))) (fun _ => ?_))))))
  split
  · exact Touches.refl _ _
  · extract_lets +onlyGivenNames old new
    clear_value old new
    exact (Touches.ite (fun _ => Touches.refl _ _) (fun _ => (Touches.ite (fun _ => ((State.setReg_touches ..).mono rfl)) (fun _ => ((State.stateWrite_touches ..).mono rfl)))))

theorem State.msixFlush_touches : ∀ s, Touches 8192 s (State.msixFlush s) := by
  intro s
  unfold State.msixFlush
  exact (Touches.foldl (Touches.refl _ _) (fun _ _ h => (Touches.ite (fun _ => (h.step (State.onPlat_touches ..) rfl)) (fun _ => h))))

theorem State.msixWrite_touches : ∀ s o v, Touches 8192 s (State.msixWrite s o v) := by
  intro s o v
  unfold State.msixWrite
  refine (Touches.ite (fun _ => ?_) (fun _ => Touches.refl _ _))
  extract_lets +onlyGivenNames e e1
  clear_value e e1
  exact (((State.onPlat_touches ..).mono rfl).step (State.msixFlush_touches ..) rfl)

theorem State.cfgWrite_touches : ∀ s o v, Touches 8192 s (State.cfgWrite s o v) := by
  intro s o v
  unfold State.cfgWrite
  refine (Touches.ite (fun _ => Touches.refl _ _) (fun _ => ?_))
  extract_lets +onlyGivenNames s1
  have h_s1 : Touches 8192 s s1 := ((State.onPlat_touches ..).mono rfl)
  clear_value s1
  exact (Touches.ite (fun _ => ((h_s1.step (State.onPlat_touches ..) rfl).step (State.msixFlush_touches ..) rfl)) (fun _ => h_s1))

theorem State.plicWrite_touches : ∀ s0 o v, Touches 8192 s0 (State.plicWrite s0 o v) := by
  intro s0 o v
  unfold State.plicWrite
  extract_lets +onlyGivenNames s
  have h_s : Touches 8192 s0 s := ((State.plicGateway_touches ..).mono rfl)
  clear_value s
  extract_lets +onlyGivenNames put
  refine (Touches.ite (fun _ => (h_s.step (State.onPlat_touches ..) rfl)) (fun _ => (Touches.ite (fun _ => (h_s.step (State.onPlat_touches ..) rfl)) (fun _ => (Touches.ite (fun _ => (Touches.ite (fun _ => (h_s.step (State.onPlat_touches ..) rfl)) (fun _ => (Touches.ite (fun _ => ?_) (fun _ => h_s))))) (fun _ => h_s))))))
  extract_lets +onlyGivenNames c
  clear_value c
  exact (Touches.ite (fun _ => ((h_s.step (State.onPlat_touches ..) rfl).step (State.plicGateway_touches ..) rfl)) (fun _ => h_s))

theorem State.swiPut_touches : ∀ s h b, Touches 8192 s (State.swiPut s h b) := by
  intro s h b
  unfold State.swiPut
  exact ((State.onPlat_touches ..).mono rfl)

theorem State.cmpPut_touches : ∀ s h v, Touches 8192 s (State.cmpPut s h v) := by
  intro s h v
  unfold State.cmpPut
  exact (((State.onPlat_touches ..).mono rfl).step (State.mtimeCheck_touches ..) rfl)

theorem State.timerWrite_touches : ∀ s o len v, Touches 8396800 s (State.timerWrite s o len v) := by
  intro s o len v
  unfold State.timerWrite
  refine (Touches.ite (fun _ => ((State.answerErr_touches ..).mono rfl)) (fun _ => (Touches.ite (fun _ => ?_) (fun _ => Touches.refl _ _))))
  extract_lets +onlyGivenNames h cmp r
  clear_value h cmp r
  exact (Touches.ite (fun _ => ((State.swiPut_touches ..).mono rfl)) (fun _ => (Touches.ite (fun _ => ((State.cmpPut_touches ..).mono rfl)) (fun _ => (Touches.ite (fun _ => ((State.cmpPut_touches ..).mono rfl)) (fun _ => Touches.refl _ _))))))

theorem State.writeAt_touches : ∀ s m a len v, Touches 67108863 s (State.writeAt s m a len v) := by
  intro s m a len v
  unfold State.writeAt
  extract_lets +onlyGivenNames word
  clear_value word
  refine (Touches.ite (fun _ => ?_) (fun _ => ?_))
  · extract_lets +onlyGivenNames o
    clear_value o
    refine (Touches.ite (fun _ => ((State.writePage_touches ..).mono rfl)) (fun _ => ?_))
    extract_lets +onlyGivenNames t1
    have h_t1 : Touches 67108863 s t1 := ((State.badAccess_touches ..).mono rfl)
    clear_value t1
    split
    · exact (h_t1.step (State.answerErr_touches ..) rfl)
    · exact h_t1
  · split
    · exact (Touches.ite (fun _ => Touches.refl _ _) (fun _ => (Touches.ite (fun _ => ((State.windowWrite_touches ..).mono rfl)) (fun _ => (Touches.ite (fun _ => ((State.msixWrite_touches ..).mono rfl)) (fun _ => (Touches.ite (fun _ => ((State.cfgWrite_touches ..).mono rfl)) (fun _ => Touches.refl _ _))))))))
    · split
      · exact ((State.busWrite_touches ..).mono rfl)
      · exact Touches.refl _ _
    · exact (Touches.ite (fun _ => ((State.timerWrite_touches ..).mono rfl)) (fun _ => (Touches.ite (fun _ => (Touches.ite (fun _ => ((State.plicWrite_touches ..).mono rfl)) (fun _ => ((State.answerErr_touches ..).mono rfl)))) (fun _ => (Touches.ite (fun _ => ((State.answerErr_touches ..).mono rfl)) (fun _ => ((State.busWrite_touches ..).mono rfl)))))))

end Sys2Proof.Machine
end

