-- ==== Sys2Proof/Laws/Touch/Registers.lean ====
section
/-!
SUPPORT. What each operation of Machine/Registers.lean may touch (see Laws/Touches.lean).
-/

-- One proof at a time bounds the threads and memory of a compile.
set_option Elab.async false

namespace Sys2Proof.Machine

open Sys2Proof

theorem execRegisterWrite_touches : ∀ m a len v s, Ends 67108863 s (execRegisterWrite m a len v s) := by
  intro m a len v s
  unfold execRegisterWrite
  exact Ends.next ((State.writeAt_touches ..).mono rfl)

theorem execRcRead_touches : ∀ m a len s, Ends 44148340 s (execRcRead m a len s) := by
  intro m a len s
  unfold execRcRead
  exact Ends.next ((State.readAt_touches ..).mono rfl)

theorem execRulerLowRead_touches : ∀ m a len s, Ends 44148340 s (execRulerLowRead m a len s) := by
  intro m a len s
  unfold execRulerLowRead
  exact Ends.next ((State.readAt_touches ..).mono rfl)

theorem execLatchingLowRead_touches : ∀ m a len s, Ends 44148340 s (execLatchingLowRead m a len s) := by
  intro m a len s
  unfold execLatchingLowRead
  exact Ends.next ((State.readAt_touches ..).mono rfl)

theorem execReceiveQueuePop_touches : ∀ m a len s, Ends 44148340 s (execReceiveQueuePop m a len s) := by
  intro m a len s
  unfold execReceiveQueuePop
  exact Ends.next ((State.readAt_touches ..).mono rfl)

theorem execPgFenceWrite_touches : ∀ m p v s, Ends 41926527 s (execPgFenceWrite m p v s) := by
  intro m p v s
  unfold execPgFenceWrite
  exact Ends.next ((State.ctrlWrite_touches ..).mono rfl)

theorem execSoftRst_touches : ∀ m p v s, Ends 41926527 s (execSoftRst m p v s) := by
  intro m p v s
  unfold execSoftRst
  exact Ends.next ((State.ctrlWrite_touches ..).mono rfl)

theorem execPgFreezeWrite_touches : ∀ m p v s, Ends 41926527 s (execPgFreezeWrite m p v s) := by
  intro m p v s
  unfold execPgFreezeWrite
  exact Ends.next ((State.ctrlWrite_touches ..).mono rfl)

theorem execPgEnWrite_touches : ∀ m p v s, Ends 41926527 s (execPgEnWrite m p v s) := by
  intro m p v s
  unfold execPgEnWrite
  exact Ends.next ((State.ctrlWrite_touches ..).mono rfl)

theorem execCommit_touches : ∀ m p v s, Ends 526156 s (execCommit m p v s) := by
  intro m p v s
  unfold execCommit
  exact Ends.next ((State.shadowWrite_touches ..).mono rfl)

theorem execCancel_touches : ∀ m p v s, Ends 526156 s (execCancel m p v s) := by
  intro m p v s
  unfold execCancel
  exact Ends.next ((State.shadowWrite_touches ..).mono rfl)

theorem execShadowCommit_touches : ∀ p s, Ends 526156 s (execShadowCommit p s) := by
  intro p s
  unfold execShadowCommit
  exact Ends.next ((State.shadowCommit_touches ..).mono rfl)

theorem execPgLockUnlock_touches : ∀ m p v s, Ends 1092 s (execPgLockUnlock m p v s) := by
  intro m p v s
  unfold execPgLockUnlock
  exact Ends.next ((State.lockWrite_touches ..).mono rfl)

theorem execUnlockLapse_touches : ∀ p s, Ends 64 s (execUnlockLapse p s) := by
  intro p s
  unfold execUnlockLapse
  split
  · refine Ends.ite (fun _ => ?_) (fun _ => ?_)
    · exact Ends.next ((State.modPage_touches ..).mono rfl)
    · exact Ends.next (Touches.refl _ _)
  · exact Ends.next (Touches.refl _ _)

theorem execRegTimeout_touches : ∀ m p o write s, Ends 8389700 s (execRegTimeout m p o write s) := by
  intro m p o write s
  unfold execRegTimeout
  extract_lets +onlyGivenNames s1
  have h_s1 : Touches 8389700 s s1 := ((State.badAccess_touches ..).mono rfl)
  clear_value s1
  exact Ends.next (Touches.ite (fun _ => h_s1) (fun _ => (h_s1.step (State.answer_touches ..) rfl)))

theorem execBusTimeout_touches : ∀ p s, Ends 1092 s (execBusTimeout p s) := by
  intro p s
  unfold execBusTimeout
  exact Ends.next ((State.raise_touches ..).mono rfl)

theorem execSwiWrite_touches : ∀ h v s, Ends 8192 s (execSwiWrite h v s) := by
  intro h v s
  unfold execSwiWrite
  exact Ends.next ((State.swiPut_touches ..).mono rfl)

theorem execMtimecmpMatch_touches : ∀ h s, Ends 8192 s (execMtimecmpMatch h s) := by
  intro h s
  unfold execMtimecmpMatch
  exact Ends.next ((State.mtimeCheck_touches ..).mono rfl)

theorem execMsixMessage_touches : ∀ p s, Ends 8256 s (execMsixMessage p s) := by
  intro p s
  unfold execMsixMessage
  extract_lets +onlyGivenNames up was
  clear_value up was
  extract_lets +onlyGivenNames s1
  have h_s1 : Touches 8256 s s1 := (((State.modPage_touches ..).mono rfl).step (State.plicGateway_touches ..) rfl)
  clear_value s1
  refine Ends.next (Touches.ite (fun _ => ?_) (fun _ => h_s1))
  split
  · exact (h_s1.step (State.msixRaise_touches ..) rfl)
  · exact h_s1

theorem execMDoorbell_touches : ∀ m v s, Ends 1604 s (execMDoorbell m v s) := by
  intro m v s
  unfold execMDoorbell
  exact Ends.next (State.regWrite_touches (Touches.refl _ _) rfl (fun _ h => (Touches.ite (fun _ => (((h.step (State.setReg_touches ..) rfl).step (State.setInt_touches ..) rfl).step (State.produce_touches ..) rfl)) (fun _ => h))))

theorem State.maintBegin_touches : ∀ s addr, Touches 16900 s (State.maintBegin s addr) := by
  intro s addr
  unfold State.maintBegin
  extract_lets +onlyGivenNames p
  clear_value p
  extract_lets +onlyGivenNames s1
  have h_s1 : Touches 16900 s s1 := ((((State.countWrap_touches ..).mono rfl).step (State.setFld_touches ..) rfl).step (State.putBit_touches ..) rfl)
  clear_value s1
  extract_lets +onlyGivenNames s2
  have h_s2 : Touches 16900 s s2 := ((h_s1.step (State.setReg_touches ..) rfl).step (State.produce_touches ..) rfl)
  clear_value s2
  exact (Touches.ite (fun _ => (h_s2.step (State.wakeBy_touches ..) rfl)) (fun _ => h_s2))

theorem State.maintEnd_touches : ∀ s st, Touches 4 s (State.maintEnd s st) := by
  intro s st
  unfold State.maintEnd
  exact (((State.setFld_touches ..).mono rfl).step (State.putBit_touches ..) rfl)

theorem State.maintCrcErr_touches : ∀ s, Touches 1092 s (State.maintCrcErr s) := by
  intro s
  unfold State.maintCrcErr
  exact (((State.count_touches ..).mono rfl).step (State.raise_touches ..) rfl)

theorem State.maintRefused_touches : ∀ s write, Touches 1092 s (State.maintRefused s write) := by
  intro s write
  unfold State.maintRefused
  extract_lets +onlyGivenNames s1
  have h_s1 : Touches 1092 s s1 := ((State.count_touches ..).mono rfl)
  clear_value s1
  exact (Touches.ite (fun _ => (h_s1.step (State.raise_touches ..) rfl)) (fun _ => h_s1))

theorem State.maintWord_touches : ∀ s addr late, Touches 44148340 s (State.maintWord s addr late).2.2 := by
  intro s addr late
  unfold State.maintWord
  change Touches22 44148340 s _
  extract_lets +onlyGivenNames p
  clear_value p
  split
  · split
    · extract_lets +onlyGivenNames t1
      have h_t1 : Touches 44148340 s t1 := ((State.readPage_touches ..).mono rfl)
      clear_value t1
      extract_lets +onlyGivenNames st
      clear_value st
      exact h_t1
    · extract_lets +onlyGivenNames t1
      have h_t1 : Touches 44148340 s t1 := ((State.readAt_touches ..).mono rfl)
      clear_value t1
      exact h_t1
  · exact ((((State.badAccess_touches ..).mono rfl).step (State.maintRefused_touches ..) rfl).step (State.raise_touches ..) rfl)
  · exact Touches.refl _ _
  · show Touches _ _ _
    dsimp only
    exact ((State.maintRefused_touches ..).mono rfl)

theorem State.maintWords_touches : ∀ s late x2 x3, Touches 44148340 s (State.maintWords s late x2 x3).2 := by
  intro s late x2 x3
  induction x2 generalizing s late x3
  · unfold State.maintWords
    change Touches2 44148340 s _
    exact Touches.refl _ _
  · rename_i ih
    unfold State.maintWords
    change Touches2 44148340 s _
    extract_lets +onlyGivenNames r
    have h_r : Touches 44148340 s r.2.2 := ((State.maintWord_touches ..).mono rfl)
    clear_value r
    extract_lets +onlyGivenNames crc
    clear_value crc
    extract_lets +onlyGivenNames rest
    have h_rest : Touches 44148340 s rest.2 := (h_r.step (ih ..) rfl)
    clear_value rest
    exact h_rest

theorem execMaintRead_touches : ∀ addr crc count late s, Ends 44164724 s (execMaintRead addr crc count late s) := by
  intro addr crc count late s
  unfold execMaintRead
  refine Ends.ite (fun _ => ?_) (fun _ => ?_)
  · exact Ends.next (Touches.refl _ _)
  · extract_lets +onlyGivenNames s1
    have h_s1 : Touches 44164724 s s1 := ((State.maintBegin_touches ..).mono rfl)
    clear_value s1
    extract_lets +onlyGivenNames r
    clear_value r
    extract_lets +onlyGivenNames r1
    have h_r1' : Touches2 44164724 s r1 := by
      unfold r1
      split
      · exact (h_s1.step (State.maintWords_touches ..) rfl)
      · exact (h_s1.step (State.maintCrcErr_touches ..) rfl)
    have h_r1 : Touches 44164724 s r1.2 := h_r1'
    clear_value r1
    extract_lets +onlyGivenNames st
    clear_value st
    exact Ends.next ((h_r1.step (State.onResp_touches ..) rfl).step (State.maintEnd_touches ..) rfl)

theorem execMaintWrite_touches : ∀ addr data crc late s, Ends 67108863 s (execMaintWrite addr data crc late s) := by
  intro addr data crc late s
  unfold execMaintWrite
  refine Ends.ite (fun _ => ?_) (fun _ => ?_)
  · exact Ends.next (Touches.refl _ _)
  · extract_lets +onlyGivenNames s1
    have h_s1 : Touches 67108863 s s1 := ((State.maintBegin_touches ..).mono rfl)
    clear_value s1
    extract_lets +onlyGivenNames p
    clear_value p
    refine Ends.ite (fun _ => ?_) (fun _ => ?_)
    · exact Ends.next (((h_s1.step (State.maintCrcErr_touches ..) rfl).step (State.onResp_touches ..) rfl).step (State.maintEnd_touches ..) rfl)
    · extract_lets +onlyGivenNames c
      clear_value c
      extract_lets +onlyGivenNames s2
      have h_s2 : Touches 67108863 s s2 := by
        unfold s2
        split
        · exact (Touches.ite (fun _ => (h_s1.step (State.writePage_touches ..) rfl)) (fun _ => (h_s1.step (State.writeAt_touches ..) rfl)))
        · exact (h_s1.step (State.maintRefused_touches ..) rfl)
        · exact (((h_s1.step (State.badAccess_touches ..) rfl).step (State.maintRefused_touches ..) rfl).step (State.raise_touches ..) rfl)
        · exact h_s1
      clear_value s2
      extract_lets +onlyGivenNames st
      clear_value st
      exact Ends.next ((h_s2.step (State.onResp_touches ..) rfl).step (State.maintEnd_touches ..) rfl)

theorem State.checkWords_touches : ∀ s x1, Touches 10585204 s (State.checkWords s x1).2 := by
  intro s x1
  induction x1 generalizing s
  · unfold State.checkWords
    change Touches2 10585204 s _
    exact Touches.refl _ _
  · rename_i ih
    unfold State.checkWords
    change Touches2 10585204 s _
    extract_lets +onlyGivenNames a
    clear_value a
    extract_lets +onlyGivenNames t1
    have h_t1 : Touches 10585204 s t1 := ((State.readPage_touches ..).mono rfl)
    clear_value t1
    extract_lets +onlyGivenNames rest
    have h_rest : Touches 10585204 s rest.2 := (h_t1.step (ih ..) rfl)
    clear_value rest
    exact h_rest

theorem execConfigCheckRun_touches : ∀ late s, Ends 10585716 s (execConfigCheckRun late s) := by
  intro late s
  unfold execConfigCheckRun
  extract_lets +onlyGivenNames p
  clear_value p
  refine Ends.ite (fun _ => ?_) (fun _ => ?_)
  · exact Ends.next (Touches.refl _ _)
  · extract_lets +onlyGivenNames r
    have h_r : Touches 10585716 s r.2 := ((State.checkWords_touches ..).mono rfl)
    clear_value r
    extract_lets +onlyGivenNames t1
    have h_t1 : Touches 10585716 s t1 := (h_r.step (State.onResp_touches ..) rfl)
    clear_value t1
    extract_lets +onlyGivenNames t0
    have h_t0 : Touches 10585716 s t0 := (h_t1.step (State.countWrap_touches ..) rfl)
    clear_value t0
    refine Ends.ite (fun _ => ?_) (fun _ => ?_)
    · exact Ends.next (((h_t0.step (State.putBit_touches ..) rfl).step (State.raise_touches ..) rfl).step (State.fnUpdate_touches ..) rfl)
    · extract_lets +onlyGivenNames crc
      clear_value crc
      extract_lets +onlyGivenNames t11
      have h_t11 : Touches 10585716 s t11 := (h_t0.step (State.setReg_touches ..) rfl)
      clear_value t11
      refine Ends.ite (fun _ => ?_) (fun _ => ?_)
      · exact Ends.next ((h_t11.step (State.setFld_touches ..) rfl).step (State.fnUpdate_touches ..) rfl)
      · exact Ends.next (((h_t11.step (State.putBit_touches ..) rfl).step (State.raise_touches ..) rfl).step (State.fnUpdate_touches ..) rfl)

end Sys2Proof.Machine
end

