-- ==== Sys2Proof/Laws/Touch/SwScalar.lean ====
section
/-!
SUPPORT. What each operation of Machine/SwScalar.lean may touch (see Laws/Touches.lean).
-/

-- One proof at a time bounds the threads and memory of a compile.
set_option Elab.async false

namespace Sys2Proof.Machine

open Sys2Proof

theorem execNop_touches : ∀ p t s, Ends 132164 s (execNop p t s) := by
  intro p t s
  unfold execNop
  exact Ends.next (State.issue_touches (Touches.refl _ _) rfl (fun _ _ h => (h.step (State.done_touches ..) rfl)))

theorem execFence_touches : ∀ p t s, Ends 132164 s (execFence p t s) := by
  intro p t s
  unfold execFence
  exact Ends.next (State.issue_touches (Touches.refl _ _) rfl (fun _ _ h => (h.step (State.done_touches ..) rfl)))

theorem execEret_touches : ∀ p t s, Ends 132164 s (execEret p t s) := by
  intro p t s
  unfold execEret
  exact Ends.next (State.issue_touches (Touches.refl _ _) rfl (fun _ _ h => (Touches.ite (fun _ => ((h.step (State.modThr_touches ..) rfl).step (State.retire_touches ..) rfl)) (fun _ => (h.step (State.wrongState_touches ..) rfl)))))

theorem execTrap_touches : ∀ p t s, Ends 132164 s (execTrap p t s) := by
  intro p t s
  unfold execTrap
  exact Ends.next (State.issue_touches (Touches.refl _ _) rfl (fun _ _ h => (h.step (State.trap_touches ..) rfl)))

theorem execCsrr_touches : ∀ p t s, Ends 132164 s (execCsrr p t s) := by
  intro p t s
  unfold execCsrr
  refine Ends.next (State.issue_touches (Touches.refl _ _) rfl (fun _ _ h => ?_))
  split
  · exact (h.step (State.illegal_touches ..) rfl)
  · exact (h.step (State.done_touches ..) rfl)

theorem execCsrw_touches : ∀ p t s, Ends 132164 s (execCsrw p t s) := by
  intro p t s
  unfold execCsrw
  refine Ends.next (State.issue_touches (Touches.refl _ _) rfl (fun _ _ h => ?_))
  split
  · exact (h.step (State.illegal_touches ..) rfl)
  · exact (h.step (State.done_touches ..) rfl)

theorem execYield_touches : ∀ p t s, Ends 132164 s (execYield p t s) := by
  intro p t s
  unfold execYield
  exact Ends.next (State.issue_touches (Touches.refl _ _) rfl (fun _ _ h => ((h.step (State.done_touches ..) rfl).step (State.modThr_touches ..) rfl)))

theorem execExit_touches : ∀ p t s, Ends 134212 s (execExit p t s) := by
  intro p t s
  unfold execExit
  exact Ends.next (State.issue_touches (Touches.refl _ _) rfl (fun _ _ h => (Touches.ite (fun _ => (h.step (State.wrongState_touches ..) rfl)) (fun _ => ((h.step (State.retire_touches ..) rfl).step (State.idle_touches ..) rfl)))))

theorem State.alu_touches : ∀ s p t w f, Touches 131072 s (State.alu s p t w f) := by
  intro s p t w f
  unfold State.alu
  exact ((State.done_touches ..).mono rfl)

theorem execAdd_touches : ∀ p t s, Ends 132164 s (execAdd p t s) := by
  intro p t s
  unfold execAdd
  exact Ends.next (State.issue_touches (Touches.refl _ _) rfl (fun _ _ h => (h.step (State.alu_touches ..) rfl)))

theorem execSub_touches : ∀ p t s, Ends 132164 s (execSub p t s) := by
  intro p t s
  unfold execSub
  exact Ends.next (State.issue_touches (Touches.refl _ _) rfl (fun _ _ h => (h.step (State.alu_touches ..) rfl)))

theorem execAnd_touches : ∀ p t s, Ends 132164 s (execAnd p t s) := by
  intro p t s
  unfold execAnd
  exact Ends.next (State.issue_touches (Touches.refl _ _) rfl (fun _ _ h => (h.step (State.alu_touches ..) rfl)))

theorem execOr_touches : ∀ p t s, Ends 132164 s (execOr p t s) := by
  intro p t s
  unfold execOr
  exact Ends.next (State.issue_touches (Touches.refl _ _) rfl (fun _ _ h => (h.step (State.alu_touches ..) rfl)))

theorem execXor_touches : ∀ p t s, Ends 132164 s (execXor p t s) := by
  intro p t s
  unfold execXor
  exact Ends.next (State.issue_touches (Touches.refl _ _) rfl (fun _ _ h => (h.step (State.alu_touches ..) rfl)))

theorem execSll_touches : ∀ p t s, Ends 132164 s (execSll p t s) := by
  intro p t s
  unfold execSll
  exact Ends.next (State.issue_touches (Touches.refl _ _) rfl (fun _ _ h => (h.step (State.alu_touches ..) rfl)))

theorem execSrl_touches : ∀ p t s, Ends 132164 s (execSrl p t s) := by
  intro p t s
  unfold execSrl
  exact Ends.next (State.issue_touches (Touches.refl _ _) rfl (fun _ _ h => (h.step (State.alu_touches ..) rfl)))

theorem execSra_touches : ∀ p t s, Ends 132164 s (execSra p t s) := by
  intro p t s
  unfold execSra
  exact Ends.next (State.issue_touches (Touches.refl _ _) rfl (fun _ _ h => (h.step (State.alu_touches ..) rfl)))

theorem execSlt_touches : ∀ p t s, Ends 132164 s (execSlt p t s) := by
  intro p t s
  unfold execSlt
  exact Ends.next (State.issue_touches (Touches.refl _ _) rfl (fun _ _ h => (h.step (State.alu_touches ..) rfl)))

theorem execSltu_touches : ∀ p t s, Ends 132164 s (execSltu p t s) := by
  intro p t s
  unfold execSltu
  exact Ends.next (State.issue_touches (Touches.refl _ _) rfl (fun _ _ h => (h.step (State.alu_touches ..) rfl)))

theorem execMin_touches : ∀ p t s, Ends 132164 s (execMin p t s) := by
  intro p t s
  unfold execMin
  exact Ends.next (State.issue_touches (Touches.refl _ _) rfl (fun _ _ h => (h.step (State.alu_touches ..) rfl)))

theorem execMax_touches : ∀ p t s, Ends 132164 s (execMax p t s) := by
  intro p t s
  unfold execMax
  exact Ends.next (State.issue_touches (Touches.refl _ _) rfl (fun _ _ h => (h.step (State.alu_touches ..) rfl)))

theorem execMinu_touches : ∀ p t s, Ends 132164 s (execMinu p t s) := by
  intro p t s
  unfold execMinu
  exact Ends.next (State.issue_touches (Touches.refl _ _) rfl (fun _ _ h => (h.step (State.alu_touches ..) rfl)))

theorem execMaxu_touches : ∀ p t s, Ends 132164 s (execMaxu p t s) := by
  intro p t s
  unfold execMaxu
  exact Ends.next (State.issue_touches (Touches.refl _ _) rfl (fun _ _ h => (h.step (State.alu_touches ..) rfl)))

theorem execMul_touches : ∀ p t s, Ends 132164 s (execMul p t s) := by
  intro p t s
  unfold execMul
  exact Ends.next (State.issue_touches (Touches.refl _ _) rfl (fun _ _ h => (h.step (State.alu_touches ..) rfl)))

theorem execMulh_touches : ∀ p t s, Ends 132164 s (execMulh p t s) := by
  intro p t s
  unfold execMulh
  exact Ends.next (State.issue_touches (Touches.refl _ _) rfl (fun _ _ h => (h.step (State.alu_touches ..) rfl)))

theorem execMulhu_touches : ∀ p t s, Ends 132164 s (execMulhu p t s) := by
  intro p t s
  unfold execMulhu
  exact Ends.next (State.issue_touches (Touches.refl _ _) rfl (fun _ _ h => (h.step (State.alu_touches ..) rfl)))

theorem execSextb_touches : ∀ p t s, Ends 132164 s (execSextb p t s) := by
  intro p t s
  unfold execSextb
  exact Ends.next (State.issue_touches (Touches.refl _ _) rfl (fun _ _ h => (h.step (State.alu_touches ..) rfl)))

theorem execSexth_touches : ∀ p t s, Ends 132164 s (execSexth p t s) := by
  intro p t s
  unfold execSexth
  exact Ends.next (State.issue_touches (Touches.refl _ _) rfl (fun _ _ h => (h.step (State.alu_touches ..) rfl)))

theorem execClz_touches : ∀ p t s, Ends 132164 s (execClz p t s) := by
  intro p t s
  unfold execClz
  exact Ends.next (State.issue_touches (Touches.refl _ _) rfl (fun _ _ h => (h.step (State.alu_touches ..) rfl)))

theorem execPopc_touches : ∀ p t s, Ends 132164 s (execPopc p t s) := by
  intro p t s
  unfold execPopc
  exact Ends.next (State.issue_touches (Touches.refl _ _) rfl (fun _ _ h => (h.step (State.alu_touches ..) rfl)))

theorem State.imm_touches : ∀ s p t w f, Touches 131072 s (State.imm s p t w f) := by
  intro s p t w f
  unfold State.imm
  exact ((State.done_touches ..).mono rfl)

theorem execAddi_touches : ∀ p t s, Ends 132164 s (execAddi p t s) := by
  intro p t s
  unfold execAddi
  exact Ends.next (State.issue_touches (Touches.refl _ _) rfl (fun _ _ h => (h.step (State.imm_touches ..) rfl)))

theorem execAndi_touches : ∀ p t s, Ends 132164 s (execAndi p t s) := by
  intro p t s
  unfold execAndi
  exact Ends.next (State.issue_touches (Touches.refl _ _) rfl (fun _ _ h => (h.step (State.imm_touches ..) rfl)))

theorem execOri_touches : ∀ p t s, Ends 132164 s (execOri p t s) := by
  intro p t s
  unfold execOri
  exact Ends.next (State.issue_touches (Touches.refl _ _) rfl (fun _ _ h => (h.step (State.imm_touches ..) rfl)))

theorem execXori_touches : ∀ p t s, Ends 132164 s (execXori p t s) := by
  intro p t s
  unfold execXori
  exact Ends.next (State.issue_touches (Touches.refl _ _) rfl (fun _ _ h => (h.step (State.imm_touches ..) rfl)))

theorem execSlti_touches : ∀ p t s, Ends 132164 s (execSlti p t s) := by
  intro p t s
  unfold execSlti
  exact Ends.next (State.issue_touches (Touches.refl _ _) rfl (fun _ _ h => (h.step (State.imm_touches ..) rfl)))

theorem execLui_touches : ∀ p t s, Ends 132164 s (execLui p t s) := by
  intro p t s
  unfold execLui
  exact Ends.next (State.issue_touches (Touches.refl _ _) rfl (fun _ _ h => (h.step (State.imm_touches ..) rfl)))

theorem execShi_touches : ∀ p t s, Ends 132164 s (execShi p t s) := by
  intro p t s
  unfold execShi
  exact Ends.next (State.issue_touches (Touches.refl _ _) rfl (fun _ _ h => (h.step (State.imm_touches ..) rfl)))

theorem execFadd_touches : ∀ p t s, Ends 132164 s (execFadd p t s) := by
  intro p t s
  unfold execFadd
  exact Ends.next (State.issue_touches (Touches.refl _ _) rfl (fun _ _ h => (h.step (State.alu_touches ..) rfl)))

theorem execFsub_touches : ∀ p t s, Ends 132164 s (execFsub p t s) := by
  intro p t s
  unfold execFsub
  exact Ends.next (State.issue_touches (Touches.refl _ _) rfl (fun _ _ h => (h.step (State.alu_touches ..) rfl)))

theorem execFmul_touches : ∀ p t s, Ends 132164 s (execFmul p t s) := by
  intro p t s
  unfold execFmul
  exact Ends.next (State.issue_touches (Touches.refl _ _) rfl (fun _ _ h => (h.step (State.alu_touches ..) rfl)))

theorem execFmin_touches : ∀ p t s, Ends 132164 s (execFmin p t s) := by
  intro p t s
  unfold execFmin
  exact Ends.next (State.issue_touches (Touches.refl _ _) rfl (fun _ _ h => (h.step (State.alu_touches ..) rfl)))

theorem execFmax_touches : ∀ p t s, Ends 132164 s (execFmax p t s) := by
  intro p t s
  unfold execFmax
  exact Ends.next (State.issue_touches (Touches.refl _ _) rfl (fun _ _ h => (h.step (State.alu_touches ..) rfl)))

theorem execFeq_touches : ∀ p t s, Ends 132164 s (execFeq p t s) := by
  intro p t s
  unfold execFeq
  exact Ends.next (State.issue_touches (Touches.refl _ _) rfl (fun _ _ h => (h.step (State.alu_touches ..) rfl)))

theorem execFlt_touches : ∀ p t s, Ends 132164 s (execFlt p t s) := by
  intro p t s
  unfold execFlt
  exact Ends.next (State.issue_touches (Touches.refl _ _) rfl (fun _ _ h => (h.step (State.alu_touches ..) rfl)))

theorem execFle_touches : ∀ p t s, Ends 132164 s (execFle p t s) := by
  intro p t s
  unfold execFle
  exact Ends.next (State.issue_touches (Touches.refl _ _) rfl (fun _ _ h => (h.step (State.alu_touches ..) rfl)))

theorem execFma_touches : ∀ p t s, Ends 132164 s (execFma p t s) := by
  intro p t s
  unfold execFma
  exact Ends.next (State.issue_touches (Touches.refl _ _) rfl (fun _ _ h => (h.step (State.done_touches ..) rfl)))

theorem execFcvtws_touches : ∀ p t s, Ends 132164 s (execFcvtws p t s) := by
  intro p t s
  unfold execFcvtws
  exact Ends.next (State.issue_touches (Touches.refl _ _) rfl (fun _ _ h => (h.step (State.alu_touches ..) rfl)))

theorem execFcvtsw_touches : ∀ p t s, Ends 132164 s (execFcvtsw p t s) := by
  intro p t s
  unfold execFcvtsw
  exact Ends.next (State.issue_touches (Touches.refl _ _) rfl (fun _ _ h => (h.step (State.alu_touches ..) rfl)))

theorem execFrcp_touches : ∀ p t s, Ends 132164 s (execFrcp p t s) := by
  intro p t s
  unfold execFrcp
  exact Ends.next (State.issue_touches (Touches.refl _ _) rfl (fun _ _ h => (h.step (State.alu_touches ..) rfl)))

theorem execFrsq_touches : ∀ p t s, Ends 132164 s (execFrsq p t s) := by
  intro p t s
  unfold execFrsq
  exact Ends.next (State.issue_touches (Touches.refl _ _) rfl (fun _ _ h => (h.step (State.alu_touches ..) rfl)))

theorem execFabs_touches : ∀ p t s, Ends 132164 s (execFabs p t s) := by
  intro p t s
  unfold execFabs
  exact Ends.next (State.issue_touches (Touches.refl _ _) rfl (fun _ _ h => (h.step (State.alu_touches ..) rfl)))

theorem execFneg_touches : ∀ p t s, Ends 132164 s (execFneg p t s) := by
  intro p t s
  unfold execFneg
  exact Ends.next (State.issue_touches (Touches.refl _ _) rfl (fun _ _ h => (h.step (State.alu_touches ..) rfl)))

theorem State.scalarLoad_touches : ∀ s p t n e w, Touches 132676 s (State.scalarLoad s p t n e w) := by
  intro s p t n e w
  unfold State.scalarLoad
  exact (State.load_touches (Touches.refl _ _) rfl (fun _ _ h => (h.step (State.done_touches ..) rfl)))

theorem State.scalarStore_touches : ∀ s p t n w, Touches 140871 s (State.scalarStore s p t n w) := by
  intro s p t n w
  unfold State.scalarStore
  exact (State.store_touches (Touches.refl _ _) rfl (fun _ h => (h.step (State.done_touches ..) rfl)))

theorem execLw_touches : ∀ p t e s, Ends 132676 s (execLw p t e s) := by
  intro p t e s
  unfold execLw
  exact Ends.next (State.issue_touches (Touches.refl _ _) rfl (fun _ _ h => (h.step (State.scalarLoad_touches ..) rfl)))

theorem execLhu_touches : ∀ p t e s, Ends 132676 s (execLhu p t e s) := by
  intro p t e s
  unfold execLhu
  exact Ends.next (State.issue_touches (Touches.refl _ _) rfl (fun _ _ h => (h.step (State.scalarLoad_touches ..) rfl)))

theorem execLbu_touches : ∀ p t e s, Ends 132676 s (execLbu p t e s) := by
  intro p t e s
  unfold execLbu
  exact Ends.next (State.issue_touches (Touches.refl _ _) rfl (fun _ _ h => (h.step (State.scalarLoad_touches ..) rfl)))

theorem execSw_touches : ∀ p t s, Ends 140871 s (execSw p t s) := by
  intro p t s
  unfold execSw
  exact Ends.next (State.issue_touches (Touches.refl _ _) rfl (fun _ _ h => (h.step (State.scalarStore_touches ..) rfl)))

theorem execSh_touches : ∀ p t s, Ends 140871 s (execSh p t s) := by
  intro p t s
  unfold execSh
  exact Ends.next (State.issue_touches (Touches.refl _ _) rfl (fun _ _ h => (h.step (State.scalarStore_touches ..) rfl)))

theorem execSb_touches : ∀ p t s, Ends 140871 s (execSb p t s) := by
  intro p t s
  unfold execSb
  exact Ends.next (State.issue_touches (Touches.refl _ _) rfl (fun _ _ h => (h.step (State.scalarStore_touches ..) rfl)))

theorem State.branch_touches : ∀ s p t w c, Touches 131072 s (State.branch s p t w c) := by
  intro s p t w c
  unfold State.branch
  extract_lets +onlyGivenNames x
  clear_value x
  exact (Touches.ite (fun _ => (((State.modThr_touches ..).mono rfl).step (State.retire_touches ..) rfl)) (fun _ => ((State.done_touches ..).mono rfl)))

theorem execBeq_touches : ∀ p t s, Ends 132164 s (execBeq p t s) := by
  intro p t s
  unfold execBeq
  exact Ends.next (State.issue_touches (Touches.refl _ _) rfl (fun _ _ h => (h.step (State.branch_touches ..) rfl)))

theorem execBne_touches : ∀ p t s, Ends 132164 s (execBne p t s) := by
  intro p t s
  unfold execBne
  exact Ends.next (State.issue_touches (Touches.refl _ _) rfl (fun _ _ h => (h.step (State.branch_touches ..) rfl)))

theorem execBlt_touches : ∀ p t s, Ends 132164 s (execBlt p t s) := by
  intro p t s
  unfold execBlt
  exact Ends.next (State.issue_touches (Touches.refl _ _) rfl (fun _ _ h => (h.step (State.branch_touches ..) rfl)))

theorem execBge_touches : ∀ p t s, Ends 132164 s (execBge p t s) := by
  intro p t s
  unfold execBge
  exact Ends.next (State.issue_touches (Touches.refl _ _) rfl (fun _ _ h => (h.step (State.branch_touches ..) rfl)))

theorem execBltu_touches : ∀ p t s, Ends 132164 s (execBltu p t s) := by
  intro p t s
  unfold execBltu
  exact Ends.next (State.issue_touches (Touches.refl _ _) rfl (fun _ _ h => (h.step (State.branch_touches ..) rfl)))

theorem execBgeu_touches : ∀ p t s, Ends 132164 s (execBgeu p t s) := by
  intro p t s
  unfold execBgeu
  exact Ends.next (State.issue_touches (Touches.refl _ _) rfl (fun _ _ h => (h.step (State.branch_touches ..) rfl)))

theorem execJal_touches : ∀ p t s, Ends 132164 s (execJal p t s) := by
  intro p t s
  unfold execJal
  exact Ends.next (State.issue_touches (Touches.refl _ _) rfl (fun _ _ h => ((h.step (State.modThr_touches ..) rfl).step (State.retire_touches ..) rfl)))

theorem execJalr_touches : ∀ p t s, Ends 132164 s (execJalr p t s) := by
  intro p t s
  unfold execJalr
  refine Ends.next (State.issue_touches (Touches.refl _ _) rfl (fun _ _ h => ?_))
  extract_lets +onlyGivenNames a
  clear_value a
  exact ((h.step (State.modThr_touches ..) rfl).step (State.retire_touches ..) rfl)

theorem execLoop_touches : ∀ p t s, Ends 132164 s (execLoop p t s) := by
  intro p t s
  unfold execLoop
  refine Ends.next (State.issue_touches (Touches.refl _ _) rfl (fun _ _ h => ?_))
  extract_lets +onlyGivenNames x n
  clear_value x n
  refine (Touches.ite (fun _ => (h.step (State.trap_touches ..) rfl)) (fun _ => ?_))
  extract_lets +onlyGivenNames c
  clear_value c
  exact ((h.step (State.modThr_touches ..) rfl).step (State.retire_touches ..) rfl)

end Sys2Proof.Machine
end

