-- ==== Sys2Proof/Laws/Touch/SwVector.lean ====
section
/-!
SUPPORT. What each operation of Machine/SwVector.lean may touch (see Laws/Touches.lean).
-/

-- One proof at a time bounds the threads and memory of a compile.
set_option Elab.async false

namespace Sys2Proof.Machine

open Sys2Proof

theorem State.vbin_touches : ∀ s p t w f, Touches 131072 s (State.vbin s p t w f) := by
  intro s p t w f
  unfold State.vbin
  extract_lets +onlyGivenNames ty
  clear_value ty
  exact ((State.done_touches ..).mono rfl)

theorem execVadd_touches : ∀ p t s, Ends 132164 s (execVadd p t s) := by
  intro p t s
  unfold execVadd
  exact Ends.next (State.issue_touches (Touches.refl _ _) rfl (fun _ _ h => (h.step (State.vbin_touches ..) rfl)))

theorem execVsub_touches : ∀ p t s, Ends 132164 s (execVsub p t s) := by
  intro p t s
  unfold execVsub
  exact Ends.next (State.issue_touches (Touches.refl _ _) rfl (fun _ _ h => (h.step (State.vbin_touches ..) rfl)))

theorem execVadds_touches : ∀ p t s, Ends 132164 s (execVadds p t s) := by
  intro p t s
  unfold execVadds
  exact Ends.next (State.issue_touches (Touches.refl _ _) rfl (fun _ _ h => (h.step (State.vbin_touches ..) rfl)))

theorem execVsubs_touches : ∀ p t s, Ends 132164 s (execVsubs p t s) := by
  intro p t s
  unfold execVsubs
  exact Ends.next (State.issue_touches (Touches.refl _ _) rfl (fun _ _ h => (h.step (State.vbin_touches ..) rfl)))

theorem execVaddus_touches : ∀ p t s, Ends 132164 s (execVaddus p t s) := by
  intro p t s
  unfold execVaddus
  exact Ends.next (State.issue_touches (Touches.refl _ _) rfl (fun _ _ h => (h.step (State.vbin_touches ..) rfl)))

theorem execVsubus_touches : ∀ p t s, Ends 132164 s (execVsubus p t s) := by
  intro p t s
  unfold execVsubus
  exact Ends.next (State.issue_touches (Touches.refl _ _) rfl (fun _ _ h => (h.step (State.vbin_touches ..) rfl)))

theorem execVand_touches : ∀ p t s, Ends 132164 s (execVand p t s) := by
  intro p t s
  unfold execVand
  exact Ends.next (State.issue_touches (Touches.refl _ _) rfl (fun _ _ h => (h.step (State.vbin_touches ..) rfl)))

theorem execVor_touches : ∀ p t s, Ends 132164 s (execVor p t s) := by
  intro p t s
  unfold execVor
  exact Ends.next (State.issue_touches (Touches.refl _ _) rfl (fun _ _ h => (h.step (State.vbin_touches ..) rfl)))

theorem execVxor_touches : ∀ p t s, Ends 132164 s (execVxor p t s) := by
  intro p t s
  unfold execVxor
  exact Ends.next (State.issue_touches (Touches.refl _ _) rfl (fun _ _ h => (h.step (State.vbin_touches ..) rfl)))

theorem execVmin_touches : ∀ p t s, Ends 132164 s (execVmin p t s) := by
  intro p t s
  unfold execVmin
  exact Ends.next (State.issue_touches (Touches.refl _ _) rfl (fun _ _ h => (h.step (State.vbin_touches ..) rfl)))

theorem execVmax_touches : ∀ p t s, Ends 132164 s (execVmax p t s) := by
  intro p t s
  unfold execVmax
  exact Ends.next (State.issue_touches (Touches.refl _ _) rfl (fun _ _ h => (h.step (State.vbin_touches ..) rfl)))

theorem execVminu_touches : ∀ p t s, Ends 132164 s (execVminu p t s) := by
  intro p t s
  unfold execVminu
  exact Ends.next (State.issue_touches (Touches.refl _ _) rfl (fun _ _ h => (h.step (State.vbin_touches ..) rfl)))

theorem execVmaxu_touches : ∀ p t s, Ends 132164 s (execVmaxu p t s) := by
  intro p t s
  unfold execVmaxu
  exact Ends.next (State.issue_touches (Touches.refl _ _) rfl (fun _ _ h => (h.step (State.vbin_touches ..) rfl)))

theorem execVmul_touches : ∀ p t s, Ends 132164 s (execVmul p t s) := by
  intro p t s
  unfold execVmul
  exact Ends.next (State.issue_touches (Touches.refl _ _) rfl (fun _ _ h => (h.step (State.vbin_touches ..) rfl)))

theorem execVmulh_touches : ∀ p t s, Ends 132164 s (execVmulh p t s) := by
  intro p t s
  unfold execVmulh
  exact Ends.next (State.issue_touches (Touches.refl _ _) rfl (fun _ _ h => (h.step (State.vbin_touches ..) rfl)))

theorem execVmulhrs_touches : ∀ p t s, Ends 132164 s (execVmulhrs p t s) := by
  intro p t s
  unfold execVmulhrs
  exact Ends.next (State.issue_touches (Touches.refl _ _) rfl (fun _ _ h => (h.step (State.vbin_touches ..) rfl)))

theorem execVabsd_touches : ∀ p t s, Ends 132164 s (execVabsd p t s) := by
  intro p t s
  unfold execVabsd
  exact Ends.next (State.issue_touches (Touches.refl _ _) rfl (fun _ _ h => (h.step (State.vbin_touches ..) rfl)))

theorem execVavg_touches : ∀ p t s, Ends 132164 s (execVavg p t s) := by
  intro p t s
  unfold execVavg
  exact Ends.next (State.issue_touches (Touches.refl _ _) rfl (fun _ _ h => (h.step (State.vbin_touches ..) rfl)))

theorem State.vshift_touches : ∀ s p t w amount f, Touches 33685504 s (State.vshift s p t w amount f) := by
  intro s p t w amount f
  unfold State.vshift
  extract_lets +onlyGivenNames ty n
  clear_value ty n
  extract_lets +onlyGivenNames r
  have h_r : Touches 33685504 s r.2 := ((State.drawNat_touches ..).mono rfl)
  clear_value r
  exact (h_r.step (State.done_touches ..) rfl)

theorem execVsll_touches : ∀ p t s, Ends 33686596 s (execVsll p t s) := by
  intro p t s
  unfold execVsll
  exact Ends.next (State.issue_touches (Touches.refl _ _) rfl (fun _ _ h => (h.step (State.vshift_touches ..) rfl)))

theorem execVsrl_touches : ∀ p t s, Ends 33686596 s (execVsrl p t s) := by
  intro p t s
  unfold execVsrl
  exact Ends.next (State.issue_touches (Touches.refl _ _) rfl (fun _ _ h => (h.step (State.vshift_touches ..) rfl)))

theorem execVsra_touches : ∀ p t s, Ends 33686596 s (execVsra p t s) := by
  intro p t s
  unfold execVsra
  exact Ends.next (State.issue_touches (Touches.refl _ _) rfl (fun _ _ h => (h.step (State.vshift_touches ..) rfl)))

theorem execVslli_touches : ∀ p t s, Ends 33686596 s (execVslli p t s) := by
  intro p t s
  unfold execVslli
  exact Ends.next (State.issue_touches (Touches.refl _ _) rfl (fun _ _ h => (h.step (State.vshift_touches ..) rfl)))

theorem execVsrli_touches : ∀ p t s, Ends 33686596 s (execVsrli p t s) := by
  intro p t s
  unfold execVsrli
  exact Ends.next (State.issue_touches (Touches.refl _ _) rfl (fun _ _ h => (h.step (State.vshift_touches ..) rfl)))

theorem execVsrai_touches : ∀ p t s, Ends 33686596 s (execVsrai p t s) := by
  intro p t s
  unfold execVsrai
  exact Ends.next (State.issue_touches (Touches.refl _ _) rfl (fun _ _ h => (h.step (State.vshift_touches ..) rfl)))

theorem execVsel_touches : ∀ p t s, Ends 132164 s (execVsel p t s) := by
  intro p t s
  unfold execVsel
  exact Ends.next (State.issue_touches (Touches.refl _ _) rfl (fun _ _ h => (h.step (State.done_touches ..) rfl)))

theorem execVmov_touches : ∀ p t s, Ends 132164 s (execVmov p t s) := by
  intro p t s
  unfold execVmov
  exact Ends.next (State.issue_touches (Touches.refl _ _) rfl (fun _ _ h => (h.step (State.done_touches ..) rfl)))

theorem execVbcast_touches : ∀ p t s, Ends 132164 s (execVbcast p t s) := by
  intro p t s
  unfold execVbcast
  exact Ends.next (State.issue_touches (Touches.refl _ _) rfl (fun _ _ h => (h.step (State.done_touches ..) rfl)))

theorem execVnarrow_touches : ∀ p t s, Ends 132164 s (execVnarrow p t s) := by
  intro p t s
  unfold execVnarrow
  exact Ends.next (State.issue_touches (Touches.refl _ _) rfl (fun _ _ h => (h.step (State.done_touches ..) rfl)))

theorem State.vwiden_touches : ∀ s p t w k f, Touches 131072 s (State.vwiden s p t w k f) := by
  intro s p t w k f
  unfold State.vwiden
  exact ((State.done_touches ..).mono rfl)

theorem execVwidenl_touches : ∀ p t s, Ends 132164 s (execVwidenl p t s) := by
  intro p t s
  unfold execVwidenl
  exact Ends.next (State.issue_touches (Touches.refl _ _) rfl (fun _ _ h => (h.step (State.vwiden_touches ..) rfl)))

theorem execVwidenh_touches : ∀ p t s, Ends 132164 s (execVwidenh p t s) := by
  intro p t s
  unfold execVwidenh
  exact Ends.next (State.issue_touches (Touches.refl _ _) rfl (fun _ _ h => (h.step (State.vwiden_touches ..) rfl)))

theorem execVwidenlu_touches : ∀ p t s, Ends 132164 s (execVwidenlu p t s) := by
  intro p t s
  unfold execVwidenlu
  exact Ends.next (State.issue_touches (Touches.refl _ _) rfl (fun _ _ h => (h.step (State.vwiden_touches ..) rfl)))

theorem execVwidenhu_touches : ∀ p t s, Ends 132164 s (execVwidenhu p t s) := by
  intro p t s
  unfold execVwidenhu
  exact Ends.next (State.issue_touches (Touches.refl _ _) rfl (fun _ _ h => (h.step (State.vwiden_touches ..) rfl)))

theorem State.vfbin_touches : ∀ s p t w f, Touches 131072 s (State.vfbin s p t w f) := by
  intro s p t w f
  unfold State.vfbin
  exact ((State.done_touches ..).mono rfl)

theorem State.vfun_touches : ∀ s p t w f, Touches 131072 s (State.vfun s p t w f) := by
  intro s p t w f
  unfold State.vfun
  exact ((State.done_touches ..).mono rfl)

theorem execVfadd_touches : ∀ p t s, Ends 132164 s (execVfadd p t s) := by
  intro p t s
  unfold execVfadd
  exact Ends.next (State.issue_touches (Touches.refl _ _) rfl (fun _ _ h => (h.step (State.vfbin_touches ..) rfl)))

theorem execVfsub_touches : ∀ p t s, Ends 132164 s (execVfsub p t s) := by
  intro p t s
  unfold execVfsub
  exact Ends.next (State.issue_touches (Touches.refl _ _) rfl (fun _ _ h => (h.step (State.vfbin_touches ..) rfl)))

theorem execVfmul_touches : ∀ p t s, Ends 132164 s (execVfmul p t s) := by
  intro p t s
  unfold execVfmul
  exact Ends.next (State.issue_touches (Touches.refl _ _) rfl (fun _ _ h => (h.step (State.vfbin_touches ..) rfl)))

theorem execVfmin_touches : ∀ p t s, Ends 132164 s (execVfmin p t s) := by
  intro p t s
  unfold execVfmin
  exact Ends.next (State.issue_touches (Touches.refl _ _) rfl (fun _ _ h => (h.step (State.vfbin_touches ..) rfl)))

theorem execVfmax_touches : ∀ p t s, Ends 132164 s (execVfmax p t s) := by
  intro p t s
  unfold execVfmax
  exact Ends.next (State.issue_touches (Touches.refl _ _) rfl (fun _ _ h => (h.step (State.vfbin_touches ..) rfl)))

theorem execVfma_touches : ∀ p t s, Ends 132164 s (execVfma p t s) := by
  intro p t s
  unfold execVfma
  exact Ends.next (State.issue_touches (Touches.refl _ _) rfl (fun _ _ h => (h.step (State.done_touches ..) rfl)))

theorem execVfcvtws_touches : ∀ p t s, Ends 132164 s (execVfcvtws p t s) := by
  intro p t s
  unfold execVfcvtws
  exact Ends.next (State.issue_touches (Touches.refl _ _) rfl (fun _ _ h => (h.step (State.vfun_touches ..) rfl)))

theorem execVfcvtsw_touches : ∀ p t s, Ends 132164 s (execVfcvtsw p t s) := by
  intro p t s
  unfold execVfcvtsw
  exact Ends.next (State.issue_touches (Touches.refl _ _) rfl (fun _ _ h => (h.step (State.vfun_touches ..) rfl)))

theorem execVfrcp_touches : ∀ p t s, Ends 132164 s (execVfrcp p t s) := by
  intro p t s
  unfold execVfrcp
  exact Ends.next (State.issue_touches (Touches.refl _ _) rfl (fun _ _ h => (h.step (State.vfun_touches ..) rfl)))

theorem execVfrsq_touches : ∀ p t s, Ends 132164 s (execVfrsq p t s) := by
  intro p t s
  unfold execVfrsq
  exact Ends.next (State.issue_touches (Touches.refl _ _) rfl (fun _ _ h => (h.step (State.vfun_touches ..) rfl)))

theorem execVfabs_touches : ∀ p t s, Ends 132164 s (execVfabs p t s) := by
  intro p t s
  unfold execVfabs
  exact Ends.next (State.issue_touches (Touches.refl _ _) rfl (fun _ _ h => (h.step (State.vfun_touches ..) rfl)))

theorem execVfcvtsh_touches : ∀ p t s, Ends 132164 s (execVfcvtsh p t s) := by
  intro p t s
  unfold execVfcvtsh
  exact Ends.next (State.issue_touches (Touches.refl _ _) rfl (fun _ _ h => (h.step (State.vwiden_touches ..) rfl)))

theorem execVfcvtshh_touches : ∀ p t s, Ends 132164 s (execVfcvtshh p t s) := by
  intro p t s
  unfold execVfcvtshh
  exact Ends.next (State.issue_touches (Touches.refl _ _) rfl (fun _ _ h => (h.step (State.vwiden_touches ..) rfl)))

theorem execVfcvths_touches : ∀ p t s, Ends 132164 s (execVfcvths p t s) := by
  intro p t s
  unfold execVfcvths
  exact Ends.next (State.issue_touches (Touches.refl _ _) rfl (fun _ _ h => (h.step (State.done_touches ..) rfl)))

theorem execVfbcast_touches : ∀ p t s, Ends 132164 s (execVfbcast p t s) := by
  intro p t s
  unfold execVfbcast
  exact Ends.next (State.issue_touches (Touches.refl _ _) rfl (fun _ _ h => (h.step (State.done_touches ..) rfl)))

theorem State.vmac_touches : ∀ s p t w f, Touches 131072 s (State.vmac s p t w f) := by
  intro s p t w f
  unfold State.vmac
  exact ((State.done_touches ..).mono rfl)

theorem execVmacH_touches : ∀ p t s, Ends 132164 s (execVmacH p t s) := by
  intro p t s
  unfold execVmacH
  exact Ends.next (State.issue_touches (Touches.refl _ _) rfl (fun _ _ h => (h.step (State.vmac_touches ..) rfl)))

theorem execVdot2H_touches : ∀ p t s, Ends 132164 s (execVdot2H p t s) := by
  intro p t s
  unfold execVdot2H
  exact Ends.next (State.issue_touches (Touches.refl _ _) rfl (fun _ _ h => (h.step (State.vmac_touches ..) rfl)))

theorem execVmacsH_touches : ∀ p t s, Ends 132164 s (execVmacsH p t s) := by
  intro p t s
  unfold execVmacsH
  exact Ends.next (State.issue_touches (Touches.refl _ _) rfl (fun _ _ h => (h.step (State.vmac_touches ..) rfl)))

theorem execVmsubH_touches : ∀ p t s, Ends 132164 s (execVmsubH p t s) := by
  intro p t s
  unfold execVmsubH
  exact Ends.next (State.issue_touches (Touches.refl _ _) rfl (fun _ _ h => (h.step (State.vmac_touches ..) rfl)))

theorem execVmacW_touches : ∀ p t s, Ends 132164 s (execVmacW p t s) := by
  intro p t s
  unfold execVmacW
  exact Ends.next (State.issue_touches (Touches.refl _ _) rfl (fun _ _ h => (h.step (State.done_touches ..) rfl)))

theorem execAccz_touches : ∀ p t s, Ends 132164 s (execAccz p t s) := by
  intro p t s
  unfold execAccz
  exact Ends.next (State.issue_touches (Touches.refl _ _) rfl (fun _ _ h => (h.step (State.done_touches ..) rfl)))

theorem execAccldH_touches : ∀ p t s, Ends 132164 s (execAccldH p t s) := by
  intro p t s
  unfold execAccldH
  exact Ends.next (State.issue_touches (Touches.refl _ _) rfl (fun _ _ h => (h.step (State.done_touches ..) rfl)))

theorem execAccrH_touches : ∀ p t s, Ends 132164 s (execAccrH p t s) := by
  intro p t s
  unfold execAccrH
  exact Ends.next (State.issue_touches (Touches.refl _ _) rfl (fun _ _ h => (h.step (State.done_touches ..) rfl)))

theorem execAccr2W_touches : ∀ p t s, Ends 132164 s (execAccr2W p t s) := by
  intro p t s
  unfold execAccr2W
  exact Ends.next (State.issue_touches (Touches.refl _ _) rfl (fun _ _ h => (h.step (State.done_touches ..) rfl)))

theorem execAccrwW_touches : ∀ p t s, Ends 132164 s (execAccrwW p t s) := by
  intro p t s
  unfold execAccrwW
  exact Ends.next (State.issue_touches (Touches.refl _ _) rfl (fun _ _ h => (h.step (State.done_touches ..) rfl)))

theorem State.vperm_touches : ∀ s p t w f, Touches 131072 s (State.vperm s p t w f) := by
  intro s p t w f
  unfold State.vperm
  extract_lets +onlyGivenNames ty
  clear_value ty
  exact ((State.done_touches ..).mono rfl)

theorem execVslide_touches : ∀ p t s, Ends 132164 s (execVslide p t s) := by
  intro p t s
  unfold execVslide
  exact Ends.next (State.issue_touches (Touches.refl _ _) rfl (fun _ _ h => (h.step (State.vperm_touches ..) rfl)))

theorem execVshuf_touches : ∀ p t s, Ends 132164 s (execVshuf p t s) := by
  intro p t s
  unfold execVshuf
  exact Ends.next (State.issue_touches (Touches.refl _ _) rfl (fun _ _ h => (h.step (State.vperm_touches ..) rfl)))

theorem execVzipl_touches : ∀ p t s, Ends 132164 s (execVzipl p t s) := by
  intro p t s
  unfold execVzipl
  exact Ends.next (State.issue_touches (Touches.refl _ _) rfl (fun _ _ h => (h.step (State.vperm_touches ..) rfl)))

theorem execVziph_touches : ∀ p t s, Ends 132164 s (execVziph p t s) := by
  intro p t s
  unfold execVziph
  exact Ends.next (State.issue_touches (Touches.refl _ _) rfl (fun _ _ h => (h.step (State.vperm_touches ..) rfl)))

theorem execVunzipe_touches : ∀ p t s, Ends 132164 s (execVunzipe p t s) := by
  intro p t s
  unfold execVunzipe
  exact Ends.next (State.issue_touches (Touches.refl _ _) rfl (fun _ _ h => (h.step (State.vperm_touches ..) rfl)))

theorem execVunzipo_touches : ∀ p t s, Ends 132164 s (execVunzipo p t s) := by
  intro p t s
  unfold execVunzipo
  exact Ends.next (State.issue_touches (Touches.refl _ _) rfl (fun _ _ h => (h.step (State.vperm_touches ..) rfl)))

theorem execVext_touches : ∀ p t s, Ends 33686596 s (execVext p t s) := by
  intro p t s
  unfold execVext
  refine Ends.next (State.issue_touches (Touches.refl _ _) rfl (fun _ _ h => ?_))
  extract_lets +onlyGivenNames r
  have h_r : Touches 33686596 s r.2 := (h.step (State.drawWord_touches ..) rfl)
  clear_value r
  exact (h_r.step (State.done_touches ..) rfl)

theorem execVins_touches : ∀ p t s, Ends 132164 s (execVins p t s) := by
  intro p t s
  unfold execVins
  exact Ends.next (State.issue_touches (Touches.refl _ _) rfl (fun _ _ h => (h.step (State.vperm_touches ..) rfl)))

theorem execVrev_touches : ∀ p t s, Ends 132164 s (execVrev p t s) := by
  intro p t s
  unfold execVrev
  exact Ends.next (State.issue_touches (Touches.refl _ _) rfl (fun _ _ h => (h.step (State.vperm_touches ..) rfl)))

theorem State.vcmp_touches : ∀ s p t w fi ff, Touches 131072 s (State.vcmp s p t w fi ff) := by
  intro s p t w fi ff
  unfold State.vcmp
  extract_lets +onlyGivenNames ty
  clear_value ty
  exact ((State.done_touches ..).mono rfl)

theorem execVcmpEq_touches : ∀ p t s, Ends 132164 s (execVcmpEq p t s) := by
  intro p t s
  unfold execVcmpEq
  exact Ends.next (State.issue_touches (Touches.refl _ _) rfl (fun _ _ h => (h.step (State.vcmp_touches ..) rfl)))

theorem execVcmpNe_touches : ∀ p t s, Ends 132164 s (execVcmpNe p t s) := by
  intro p t s
  unfold execVcmpNe
  exact Ends.next (State.issue_touches (Touches.refl _ _) rfl (fun _ _ h => (h.step (State.vcmp_touches ..) rfl)))

theorem execVcmpLt_touches : ∀ p t s, Ends 132164 s (execVcmpLt p t s) := by
  intro p t s
  unfold execVcmpLt
  exact Ends.next (State.issue_touches (Touches.refl _ _) rfl (fun _ _ h => (h.step (State.vcmp_touches ..) rfl)))

theorem execVcmpLe_touches : ∀ p t s, Ends 132164 s (execVcmpLe p t s) := by
  intro p t s
  unfold execVcmpLe
  exact Ends.next (State.issue_touches (Touches.refl _ _) rfl (fun _ _ h => (h.step (State.vcmp_touches ..) rfl)))

theorem execVcmpLtu_touches : ∀ p t s, Ends 132164 s (execVcmpLtu p t s) := by
  intro p t s
  unfold execVcmpLtu
  exact Ends.next (State.issue_touches (Touches.refl _ _) rfl (fun _ _ h => (h.step (State.vcmp_touches ..) rfl)))

theorem execVcmpLeu_touches : ∀ p t s, Ends 132164 s (execVcmpLeu p t s) := by
  intro p t s
  unfold execVcmpLeu
  exact Ends.next (State.issue_touches (Touches.refl _ _) rfl (fun _ _ h => (h.step (State.vcmp_touches ..) rfl)))

theorem State.mop_touches : ∀ s p t w f, Touches 131072 s (State.mop s p t w f) := by
  intro s p t w f
  unfold State.mop
  exact ((State.done_touches ..).mono rfl)

theorem execMand_touches : ∀ p t s, Ends 132164 s (execMand p t s) := by
  intro p t s
  unfold execMand
  exact Ends.next (State.issue_touches (Touches.refl _ _) rfl (fun _ _ h => (h.step (State.mop_touches ..) rfl)))

theorem execMor_touches : ∀ p t s, Ends 132164 s (execMor p t s) := by
  intro p t s
  unfold execMor
  exact Ends.next (State.issue_touches (Touches.refl _ _) rfl (fun _ _ h => (h.step (State.mop_touches ..) rfl)))

theorem execMxor_touches : ∀ p t s, Ends 132164 s (execMxor p t s) := by
  intro p t s
  unfold execMxor
  exact Ends.next (State.issue_touches (Touches.refl _ _) rfl (fun _ _ h => (h.step (State.mop_touches ..) rfl)))

theorem execMnot_touches : ∀ p t s, Ends 132164 s (execMnot p t s) := by
  intro p t s
  unfold execMnot
  exact Ends.next (State.issue_touches (Touches.refl _ _) rfl (fun _ _ h => (h.step (State.mop_touches ..) rfl)))

theorem execMset_touches : ∀ p t s, Ends 132164 s (execMset p t s) := by
  intro p t s
  unfold execMset
  exact Ends.next (State.issue_touches (Touches.refl _ _) rfl (fun _ _ h => (h.step (State.done_touches ..) rfl)))

theorem execVrsum_touches : ∀ p t s, Ends 132164 s (execVrsum p t s) := by
  intro p t s
  unfold execVrsum
  exact Ends.next (State.issue_touches (Touches.refl _ _) rfl (fun _ _ h => (h.step (State.done_touches ..) rfl)))

theorem State.vreduce_touches : ∀ s p t w better ident isSigned, Touches 131072 s (State.vreduce s p t w better ident isSigned) := by
  intro s p t w better ident isSigned
  unfold State.vreduce
  extract_lets +onlyGivenNames n
  clear_value n
  exact ((State.done_touches ..).mono rfl)

theorem execVrmin_touches : ∀ p t s, Ends 132164 s (execVrmin p t s) := by
  intro p t s
  unfold execVrmin
  exact Ends.next (State.issue_touches (Touches.refl _ _) rfl (fun _ _ h => (h.step (State.vreduce_touches ..) rfl)))

theorem execVrmax_touches : ∀ p t s, Ends 132164 s (execVrmax p t s) := by
  intro p t s
  unfold execVrmax
  exact Ends.next (State.issue_touches (Touches.refl _ _) rfl (fun _ _ h => (h.step (State.vreduce_touches ..) rfl)))

theorem execVrminu_touches : ∀ p t s, Ends 132164 s (execVrminu p t s) := by
  intro p t s
  unfold execVrminu
  exact Ends.next (State.issue_touches (Touches.refl _ _) rfl (fun _ _ h => (h.step (State.vreduce_touches ..) rfl)))

theorem execVrmaxu_touches : ∀ p t s, Ends 132164 s (execVrmaxu p t s) := by
  intro p t s
  unfold execVrmaxu
  exact Ends.next (State.issue_touches (Touches.refl _ _) rfl (fun _ _ h => (h.step (State.vreduce_touches ..) rfl)))

theorem execMget_touches : ∀ p t s, Ends 132164 s (execMget p t s) := by
  intro p t s
  unfold execMget
  exact Ends.next (State.issue_touches (Touches.refl _ _) rfl (fun _ _ h => (h.step (State.done_touches ..) rfl)))

theorem execMcount_touches : ∀ p t s, Ends 132164 s (execMcount p t s) := by
  intro p t s
  unfold execMcount
  exact Ends.next (State.issue_touches (Touches.refl _ _) rfl (fun _ _ h => (h.step (State.done_touches ..) rfl)))

theorem execVld_touches : ∀ p t e s, Ends 132676 s (execVld p t e s) := by
  intro p t e s
  unfold execVld
  exact Ends.next (State.issue_touches (Touches.refl _ _) rfl (fun _ _ h => (State.load_touches h rfl (fun _ _ h => (h.step (State.done_touches ..) rfl)))))

theorem execVst_touches : ∀ p t s, Ends 140871 s (execVst p t s) := by
  intro p t s
  unfold execVst
  exact Ends.next (State.issue_touches (Touches.refl _ _) rfl (fun _ _ h => (State.store_touches h rfl (fun _ h => (h.step (State.done_touches ..) rfl)))))

theorem execVldu_touches : ∀ p t e s, Ends 132676 s (execVldu p t e s) := by
  intro p t e s
  unfold execVldu
  exact Ends.next (State.issue_touches (Touches.refl _ _) rfl (fun _ _ h => (State.load_touches h rfl (fun _ _ h => (h.step (State.done_touches ..) rfl)))))

theorem State.storeLanes_touches : ∀ s p t w l, Touches 140871 s (State.storeLanes s p t w l) := by
  intro s p t w l
  unfold State.storeLanes
  extract_lets +onlyGivenNames d
  clear_value d
  split
  · exact ((State.trap_touches ..).mono rfl)
  · exact ((Touches.foldl (Touches.refl _ _) (fun _ _ h => (h.step (State.engStore_touches ..) rfl))).step (State.done_touches ..) rfl)

theorem execVstm_touches : ∀ p t s, Ends 140871 s (execVstm p t s) := by
  intro p t s
  unfold execVstm
  exact Ends.next (State.issue_touches (Touches.refl _ _) rfl (fun _ _ h => (h.step (State.storeLanes_touches ..) rfl)))

theorem execVscat_touches : ∀ p t s, Ends 140871 s (execVscat p t s) := by
  intro p t s
  unfold execVscat
  refine Ends.next (State.issue_touches (Touches.refl _ _) rfl (fun _ _ h => ?_))
  extract_lets +onlyGivenNames x
  clear_value x
  exact (h.step (State.storeLanes_touches ..) rfl)

theorem State.gather_touches : ∀ s p e lane x4, Touches 1604 s (State.gather s p e lane x4).2 := by
  intro s p e lane x4
  induction x4 generalizing s p e lane
  · unfold State.gather
    change Touches2 1604 s _
    exact Touches.refl _ _
  · rename_i ih
    unfold State.gather
    change Touches2 1604 s _
    split
    · exact Touches.refl _ _
    · extract_lets +onlyGivenNames r
      have h_r : Touches 1604 s r.2 := ((State.engLoad_touches ..).mono rfl)
      clear_value r
      split
      · exact h_r
      · extract_lets +onlyGivenNames t1
        have h_t1 : Touches 1604 s t1.2 := (h_r.step (ih ..) rfl)
        clear_value t1
        exact h_t1

theorem execVgath_touches : ∀ p t e lane s, Ends 132676 s (execVgath p t e lane s) := by
  intro p t e lane s
  unfold execVgath
  refine Ends.next (State.issue_touches (Touches.refl _ _) rfl (fun _ _ h => ?_))
  extract_lets +onlyGivenNames x
  clear_value x
  extract_lets +onlyGivenNames r
  have h_r : Touches 132676 s r.2 := (h.step (State.gather_touches ..) rfl)
  clear_value r
  split
  · exact (h_r.step (State.trap_touches ..) rfl)
  · exact (h_r.step (State.done_touches ..) rfl)

end Sys2Proof.Machine
end

