-- ==== Sys2Proof/WellFormed.lean ====
section
/-!
DEFINITION. Well-formed commands: every operand that numbers an object of the block lies in the range the spec gives that
object (*Page index* and the chapters' counts). The meanings are total; an ill-formed command names no object of the Coneda.
-/

namespace Sys2Proof

/-- A Dralek block whose fields have their widths (R100). -/
def DlkBlock.wf (b : DlkBlock) : Bool := decide (b.sync < 4) && decide (b.prev < 2 ^ 58) && decide (b.bits < 2 ^ 64)

/-- A register page index (R597). -/
def isPage (p : Nat) : Bool := decide (p < 1024)

/-- A codec page: HENC0 to 5, DEC0 to 7, XS0 and 1 (*Page index*). -/
def isCodec (p : Nat) : Bool :=
  decide (0x360 ≤ p ∧ p < 0x366) || decide (0x368 ≤ p ∧ p < 0x372)

/-- A namespace, 1 to 64 (R416). -/
def isNamespace (k : Nat) : Bool := decide (1 ≤ k ∧ k ≤ 64)

/-- The length of an access in bytes: a power of two up to 8. -/
def isLen (n : Nat) : Bool := n == 1 || n == 2 || n == 4 || n == 8

/-- A master: logical cores are 0 to 7 (R38, R616). -/
def Master.wf : Master → Bool
  | .core h => decide (h < 8)
  | .host => true
  | .maint => true

/-- A transaction whose issuer exists. -/
def trafficOk : Traffic → Bool
  | .block p => isPage p
  | .branch n c => decide (n < 8) && decide (c < 64)
  | .layer h l => decide (h < 8) && decide (l < 8)
  | .engine p t | .dma p t => decide (p < 272) && decide (t < 4)
  | .engineLoad p => decide (p < 272)
  | .scrub n => decide (n < 16)

/-- The command's operands name objects of the Coneda. -/
def Instr.wf : Instr → Bool
  | .registerWrite m _ len _ => m.wf && isLen len
  | .rcRead m _ len => m.wf && isLen len
  | .rulerLowRead m _ len => m.wf && isLen len
  | .pgFenceWrite m p _ => m.wf && isPage p
  | .softRst m p _ => m.wf && isPage p
  | .softResetDone p => isPage p
  | .pgFreezeWrite m p _ => m.wf && isPage p
  | .pgEnWrite m p _ => m.wf && isPage p
  | .eventPortWrite m p k _ => m.wf && isPage p && decide (k < 8)
  | .commit m p _ => m.wf && isPage p
  | .cancel m p _ => m.wf && isPage p
  | .shadowCommit p => isPage p
  | .pgLockUnlock m p _ => m.wf && isPage p
  | .unlockLapse p => isPage p
  | .regTimeout m p o _ => m.wf && isPage p && decide (o < 4096)
  | .busTimeout p => isPage p
  | .fabricTransaction _ reqs => reqs.all fun r => trafficOk r.1
  | .dramAccess mp _ _ _ _ _ => isPage mp
  | .refreshWindow n => decide (n < 16)
  | .dramScrubStep n _ _ => decide (n < 16)
  | .dramBgSweep n lane _ _ _ => decide (n < 16) && decide (lane < 4)
  | .marginCheck n lane _ => decide (n < 16) && decide (lane < 4)
  | .wckOscRead n _ => decide (n < 16)
  | .resWrite m n _ => m.wf && decide (n < 16)
  | .bankHashWrite m k _ => m.wf && decide (k < 4)
  | .topoWrite m _ => m.wf
  | .laneCfgWrite m n _ => m.wf && decide (n < 192)
  | .timebaseTick => true
  | .snapGo m _ => m.wf
  | .snapshotStrobe => true
  | .timeSetGo m _ => m.wf
  | .timeCtrlWrite m _ => m.wf
  | .encoderEdge e _ _ => decide (e < 8)
  | .encoderIndexEdge e _ => decide (e < 8)
  | .posSet m d _ => m.wf && decide (d < 4)
  | .stillTimeout d => decide (d < 4)
  | .slipDwell d => decide (d < 4)
  | .phaseCrossing i _ _ => decide (i < 4)
  | .phaseCrossingTimeout p => decide (p < 2)
  | .phaseHoldExpiry p => decide (p < 2)
  | .load m k => m.wf && decide (k < 8)
  | .cueStore m k => m.wf && decide (k < 8)
  | .disarm m k => m.wf && decide (k < 8)
  | .clear m k => m.wf && decide (k < 8)
  | .headLineStart n _ _ => decide (n < 8)
  | .llSensorTimeout k => decide (k < 8)
  | .headLineOut n _ => decide (n < 8)
  | .csi2Packet n vc _ _ _ _ => decide (n < 64) && decide (vc < 32)
  | .deskewSequence n _ => decide (n < 64)
  | .dlkBlockLockAcquired n p => decide (n < 16) && decide (p < 14)
  | .dlkBlockLockLost n p _ _ => decide (n < 16) && decide (p < 14)
  | .dlkIdleBlock n p _ => decide (n < 16) && decide (p < 14)
  | .dlkElasticUnderflow n p _ => decide (n < 16) && decide (p < 14)
  | .dlkAlignBlock n p b _ _ => decide (n < 16) && decide (p < 14) && b.wf
  | .dlkMarkerTimeout n p => decide (n < 16) && decide (p < 14)
  | .dlkSpareMapTimeout n => decide (n < 16)
  | .laneReturns n p => decide (n < 16) && decide (p < 14)
  | .dlkFrameStart n b => decide (n < 16) && b.wf
  | .dlkLine n k _ lanes => decide (n < 16) && decide (k < 12) && lanes.all fun l => l.all DlkBlock.wf
  | .dlkFrameEnd n b => decide (n < 16) && b.wf
  | .bcmsg n b => decide (n < 16) && b.wf
  | .dlkTimeSend n => decide (n < 16)
  | .ping n => decide (n < 16)
  | .trigger n k => decide (n < 16) && decide (k < 4)
  | .bcTxGo m n _ => m.wf && decide (n < 16)
  | .bcTimeout n _ => decide (n < 16)
  | .dlkEnable m n _ => m.wf && decide (n < 16)
  | .dlkDisable m n _ => m.wf && decide (n < 16)
  | .strmLoad m => m.wf
  | .strmStore m => m.wf
  | .stop m => m.wf
  | .stopNow m => m.wf
  | .captureFrameStart c _ => decide (c < 16384)
  | .captureLine c => decide (c < 16384)
  | .captureFrameEnd c => decide (c < 16384)
  | .frameTimeout c => decide (c < 16384)
  | .seqWriteAck c => decide (c < 16384)
  | .seqWriteFail c => decide (c < 16384)
  | .i3cCmd m n _ => m.wf && decide (n < 32)
  | .i3cTransferDone n _ _ => decide (n < 32)
  | .i3cIbi n _ _ => decide (n < 32)
  | .ctxLoad m n => m.wf && decide (n < 8)
  | .ctxStore m n => m.wf && decide (n < 8)
  | .start m n => m.wf && decide (n < 8)
  | .ctxStop m n => m.wf && decide (n < 8)
  | .ctxStopNow m n => m.wf && decide (n < 8)
  | .pipeFrameAccept n c => decide (n < 8) && decide (c < 64)
  | .pipeMemDescTake n c => decide (n < 8) && decide (c < 64)
  | .pipeContextSwitch n => decide (n < 8)
  | .pipeRunStart n => decide (n < 8)
  | .tableLoadDone n => decide (n < 8)
  | .lutLoadDone n => decide (n < 8)
  | .safetyLate n c => decide (n < 8) && decide (c < 64)
  | .pipeLine n errs => decide (n < 8) && errs.all fun e => decide (e.page < 15) && decide (e.col < 32768)
  | .saveFault n c => decide (n < 8) && decide (c < 64)
  | .branchProgress n b c => decide (n < 8) && decide (b < 4) && decide (c < 64)
  | .branchComplete n b c => decide (n < 8) && decide (b < 4) && decide (c < 64)
  | .statsBlockDone n c => decide (n < 8) && decide (c < 64)
  | .pipeFrameDone n c => decide (n < 8) && decide (c < 64)
  | .psetPush m n _ => m.wf && decide (n < 8)
  | .tblDataRead m n o => m.wf && decide (n < 8) && decide (o < 16)
  | .brLoad m n b => m.wf && decide (n < 8) && decide (b < 4)
  | .brStore m n b => m.wf && decide (n < 8) && decide (b < 4)
  | .thrStart m p => m.wf && decide (p < 272)
  | .park m p => m.wf && decide (p < 272)
  | .thrReset m p => m.wf && decide (p < 272)
  | .threadWaitEnd p t => decide (p < 272) && decide (t < 4)
  | .itemTimeout p t => decide (p < 272) && decide (t < 4)
  | .watchdog p => decide (p < 272)
  | .illegalInstruction p t _ => decide (p < 272) && decide (t < 4)
  | .nop p t => decide (p < 272) && decide (t < 4)
  | .fence p t => decide (p < 272) && decide (t < 4)
  | .eret p t => decide (p < 272) && decide (t < 4)
  | .trap p t => decide (p < 272) && decide (t < 4)
  | .csrr p t => decide (p < 272) && decide (t < 4)
  | .csrw p t => decide (p < 272) && decide (t < 4)
  | .yield p t => decide (p < 272) && decide (t < 4)
  | .exit p t => decide (p < 272) && decide (t < 4)
  | .add p t => decide (p < 272) && decide (t < 4)
  | .sub p t => decide (p < 272) && decide (t < 4)
  | .and_ p t => decide (p < 272) && decide (t < 4)
  | .or_ p t => decide (p < 272) && decide (t < 4)
  | .xor_ p t => decide (p < 272) && decide (t < 4)
  | .sll p t => decide (p < 272) && decide (t < 4)
  | .srl p t => decide (p < 272) && decide (t < 4)
  | .sra p t => decide (p < 272) && decide (t < 4)
  | .slt p t => decide (p < 272) && decide (t < 4)
  | .sltu p t => decide (p < 272) && decide (t < 4)
  | .min p t => decide (p < 272) && decide (t < 4)
  | .max p t => decide (p < 272) && decide (t < 4)
  | .minu p t => decide (p < 272) && decide (t < 4)
  | .maxu p t => decide (p < 272) && decide (t < 4)
  | .mul p t => decide (p < 272) && decide (t < 4)
  | .mulh p t => decide (p < 272) && decide (t < 4)
  | .mulhu p t => decide (p < 272) && decide (t < 4)
  | .sextb p t => decide (p < 272) && decide (t < 4)
  | .sexth p t => decide (p < 272) && decide (t < 4)
  | .clz p t => decide (p < 272) && decide (t < 4)
  | .popc p t => decide (p < 272) && decide (t < 4)
  | .addi p t => decide (p < 272) && decide (t < 4)
  | .andi p t => decide (p < 272) && decide (t < 4)
  | .ori p t => decide (p < 272) && decide (t < 4)
  | .xori p t => decide (p < 272) && decide (t < 4)
  | .slti p t => decide (p < 272) && decide (t < 4)
  | .lui p t => decide (p < 272) && decide (t < 4)
  | .shi p t => decide (p < 272) && decide (t < 4)
  | .fadd p t => decide (p < 272) && decide (t < 4)
  | .fsub p t => decide (p < 272) && decide (t < 4)
  | .fmul p t => decide (p < 272) && decide (t < 4)
  | .fma p t => decide (p < 272) && decide (t < 4)
  | .fmin p t => decide (p < 272) && decide (t < 4)
  | .fmax p t => decide (p < 272) && decide (t < 4)
  | .feq p t => decide (p < 272) && decide (t < 4)
  | .flt p t => decide (p < 272) && decide (t < 4)
  | .fle p t => decide (p < 272) && decide (t < 4)
  | .fcvtws p t => decide (p < 272) && decide (t < 4)
  | .fcvtsw p t => decide (p < 272) && decide (t < 4)
  | .frcp p t => decide (p < 272) && decide (t < 4)
  | .frsq p t => decide (p < 272) && decide (t < 4)
  | .fabs p t => decide (p < 272) && decide (t < 4)
  | .fneg p t => decide (p < 272) && decide (t < 4)
  | .lw p t _ => decide (p < 272) && decide (t < 4)
  | .sw p t => decide (p < 272) && decide (t < 4)
  | .lhu p t _ => decide (p < 272) && decide (t < 4)
  | .sh p t => decide (p < 272) && decide (t < 4)
  | .lbu p t _ => decide (p < 272) && decide (t < 4)
  | .sb p t => decide (p < 272) && decide (t < 4)
  | .beq p t => decide (p < 272) && decide (t < 4)
  | .bne p t => decide (p < 272) && decide (t < 4)
  | .blt p t => decide (p < 272) && decide (t < 4)
  | .bge p t => decide (p < 272) && decide (t < 4)
  | .bltu p t => decide (p < 272) && decide (t < 4)
  | .bgeu p t => decide (p < 272) && decide (t < 4)
  | .jal p t => decide (p < 272) && decide (t < 4)
  | .jalr p t => decide (p < 272) && decide (t < 4)
  | .loop p t => decide (p < 272) && decide (t < 4)
  | .vadd p t => decide (p < 272) && decide (t < 4)
  | .vsub p t => decide (p < 272) && decide (t < 4)
  | .vadds p t => decide (p < 272) && decide (t < 4)
  | .vsubs p t => decide (p < 272) && decide (t < 4)
  | .vaddus p t => decide (p < 272) && decide (t < 4)
  | .vsubus p t => decide (p < 272) && decide (t < 4)
  | .vand p t => decide (p < 272) && decide (t < 4)
  | .vor p t => decide (p < 272) && decide (t < 4)
  | .vxor p t => decide (p < 272) && decide (t < 4)
  | .vsll p t => decide (p < 272) && decide (t < 4)
  | .vsrl p t => decide (p < 272) && decide (t < 4)
  | .vsra p t => decide (p < 272) && decide (t < 4)
  | .vmin p t => decide (p < 272) && decide (t < 4)
  | .vmax p t => decide (p < 272) && decide (t < 4)
  | .vminu p t => decide (p < 272) && decide (t < 4)
  | .vmaxu p t => decide (p < 272) && decide (t < 4)
  | .vmul p t => decide (p < 272) && decide (t < 4)
  | .vmulh p t => decide (p < 272) && decide (t < 4)
  | .vmulhrs p t => decide (p < 272) && decide (t < 4)
  | .vabsd p t => decide (p < 272) && decide (t < 4)
  | .vavg p t => decide (p < 272) && decide (t < 4)
  | .vsel p t => decide (p < 272) && decide (t < 4)
  | .vmov p t => decide (p < 272) && decide (t < 4)
  | .vbcast p t => decide (p < 272) && decide (t < 4)
  | .vnarrow p t => decide (p < 272) && decide (t < 4)
  | .vwidenl p t => decide (p < 272) && decide (t < 4)
  | .vwidenh p t => decide (p < 272) && decide (t < 4)
  | .vwidenlu p t => decide (p < 272) && decide (t < 4)
  | .vwidenhu p t => decide (p < 272) && decide (t < 4)
  | .vslli p t => decide (p < 272) && decide (t < 4)
  | .vsrli p t => decide (p < 272) && decide (t < 4)
  | .vsrai p t => decide (p < 272) && decide (t < 4)
  | .vfadd p t => decide (p < 272) && decide (t < 4)
  | .vfsub p t => decide (p < 272) && decide (t < 4)
  | .vfmul p t => decide (p < 272) && decide (t < 4)
  | .vfma p t => decide (p < 272) && decide (t < 4)
  | .vfmin p t => decide (p < 272) && decide (t < 4)
  | .vfmax p t => decide (p < 272) && decide (t < 4)
  | .vfcvtws p t => decide (p < 272) && decide (t < 4)
  | .vfcvtsw p t => decide (p < 272) && decide (t < 4)
  | .vfrcp p t => decide (p < 272) && decide (t < 4)
  | .vfrsq p t => decide (p < 272) && decide (t < 4)
  | .vfabs p t => decide (p < 272) && decide (t < 4)
  | .vfcvtsh p t => decide (p < 272) && decide (t < 4)
  | .vfcvtshh p t => decide (p < 272) && decide (t < 4)
  | .vfcvths p t => decide (p < 272) && decide (t < 4)
  | .vfbcast p t => decide (p < 272) && decide (t < 4)
  | .vmacH p t => decide (p < 272) && decide (t < 4)
  | .vdot2H p t => decide (p < 272) && decide (t < 4)
  | .vmacsH p t => decide (p < 272) && decide (t < 4)
  | .vmacW p t => decide (p < 272) && decide (t < 4)
  | .vmsubH p t => decide (p < 272) && decide (t < 4)
  | .accz p t => decide (p < 272) && decide (t < 4)
  | .accldH p t => decide (p < 272) && decide (t < 4)
  | .accrH p t => decide (p < 272) && decide (t < 4)
  | .accr2W p t => decide (p < 272) && decide (t < 4)
  | .accrwW p t => decide (p < 272) && decide (t < 4)
  | .vslide p t => decide (p < 272) && decide (t < 4)
  | .vshuf p t => decide (p < 272) && decide (t < 4)
  | .vzipl p t => decide (p < 272) && decide (t < 4)
  | .vziph p t => decide (p < 272) && decide (t < 4)
  | .vunzipe p t => decide (p < 272) && decide (t < 4)
  | .vunzipo p t => decide (p < 272) && decide (t < 4)
  | .vext p t => decide (p < 272) && decide (t < 4)
  | .vins p t => decide (p < 272) && decide (t < 4)
  | .vrev p t => decide (p < 272) && decide (t < 4)
  | .vcmpEq p t => decide (p < 272) && decide (t < 4)
  | .vcmpNe p t => decide (p < 272) && decide (t < 4)
  | .vcmpLt p t => decide (p < 272) && decide (t < 4)
  | .vcmpLe p t => decide (p < 272) && decide (t < 4)
  | .vcmpLtu p t => decide (p < 272) && decide (t < 4)
  | .vcmpLeu p t => decide (p < 272) && decide (t < 4)
  | .mand p t => decide (p < 272) && decide (t < 4)
  | .mor p t => decide (p < 272) && decide (t < 4)
  | .mxor p t => decide (p < 272) && decide (t < 4)
  | .mnot p t => decide (p < 272) && decide (t < 4)
  | .mset p t => decide (p < 272) && decide (t < 4)
  | .vrsum p t => decide (p < 272) && decide (t < 4)
  | .vrmin p t => decide (p < 272) && decide (t < 4)
  | .vrmax p t => decide (p < 272) && decide (t < 4)
  | .vrminu p t => decide (p < 272) && decide (t < 4)
  | .vrmaxu p t => decide (p < 272) && decide (t < 4)
  | .mget p t => decide (p < 272) && decide (t < 4)
  | .mcount p t => decide (p < 272) && decide (t < 4)
  | .vld p t _ => decide (p < 272) && decide (t < 4)
  | .vst p t => decide (p < 272) && decide (t < 4)
  | .vldu p t _ => decide (p < 272) && decide (t < 4)
  | .vstm p t => decide (p < 272) && decide (t < 4)
  | .vgath p t _ lane => decide (p < 272) && decide (t < 4) && decide (lane < 32)
  | .vscat p t => decide (p < 272) && decide (t < 4)
  | .qtake p t => decide (p < 272) && decide (t < 4)
  | .qtry p t => decide (p < 272) && decide (t < 4)
  | .qpush p t => decide (p < 272) && decide (t < 4)
  | .qpushnb p t => decide (p < 272) && decide (t < 4)
  | .qdone p t => decide (p < 272) && decide (t < 4)
  | .qrel p t => decide (p < 272) && decide (t < 4)
  | .qlevel p t => decide (p < 272) && decide (t < 4)
  | .dmaq p t _ => decide (p < 272) && decide (t < 4)
  | .dmaw p t => decide (p < 272) && decide (t < 4)
  | .dmat p t => decide (p < 272) && decide (t < 4)
  | .dmarst p t => decide (p < 272) && decide (t < 4)
  | .dmaDescComplete p t _ _ _ => decide (p < 272) && decide (t < 4)
  | .amoadd p t _ => decide (p < 272) && decide (t < 4)
  | .amoswap p t _ => decide (p < 272) && decide (t < 4)
  | .amomin p t _ => decide (p < 272) && decide (t < 4)
  | .amomax p t _ => decide (p < 272) && decide (t < 4)
  | .amominu p t _ => decide (p < 272) && decide (t < 4)
  | .amomaxu p t _ => decide (p < 272) && decide (t < 4)
  | .amocas p t _ => decide (p < 272) && decide (t < 4)
  | .bar p t => decide (p < 272) && decide (t < 4)
  | .sigev p t => decide (p < 272) && decide (t < 4)
  | .waitev p t => decide (p < 272) && decide (t < 4)
  | .testev p t => decide (p < 272) && decide (t < 4)
  | .engineEventIn p k => decide (p < 272) && decide (k < 4)
  | .loadCtrlGo m k _ => m.wf && decide (k < 34)
  | .programLoadDone k => decide (k < 34)
  | .bistCmd m k _ => m.wf && decide (k < 34)
  | .engineBistDone p _ => decide (p < 272)
  | .sessLoad m p => m.wf && isCodec p
  | .sessStore m p => m.wf && isCodec p
  | .sessStop m p => m.wf && isCodec p
  | .sessStopNow m p => m.wf && isCodec p
  | .setRate m p => m.wf && isCodec p
  | .forceIdr m p => m.wf && isCodec p
  | .flush m p => m.wf && isCodec p
  | .codecSessionSwitch p => isCodec p
  | .gangWrite m n _ => m.wf && decide (n < 6)
  | .encPictureStart n _ _ => decide (n < 6)
  | .hencProgressEvent n k _ => decide (n < 6) && decide (k < 4)
  | .encCtbCoded n j _ _ _ _ => decide (n < 6) && decide (j < 6)
  | .encSliceDone n _ => decide (n < 6)
  | .xsSlice n _ _ => decide (n < 2)
  | .decChunk p => isCodec p
  | .decAccessUnit p _ _ => isCodec p
  | .decPictureOutput p => isCodec p
  | .hpdRise n => decide (n < 8)
  | .hpdLossTimeout n => decide (n < 8)
  | .hpdIrq n _ => decide (n < 8)
  | .linkTrainDone n _ => decide (n < 8)
  | .auxNativeWrite m n _ => m.wf && decide (n < 8)
  | .auxNativeRead m n _ => m.wf && decide (n < 8)
  | .auxI2cWrite m n _ => m.wf && decide (n < 8)
  | .auxI2cRead m n _ => m.wf && decide (n < 8)
  | .auxDone n outcome _ => decide (n < 8) && decide (outcome < 4)
  | .vblankStart n => decide (n < 8)
  | .lineMatch n => decide (n < 8)
  | .headFrameStart n => decide (n < 8)
  | .frameDone n => decide (n < 8)
  | .pairCommitTimeout n => decide (n < 8)
  | .headEnable n => decide (n < 8)
  | .headDisable n => decide (n < 8)
  | .eyeRegionDecide n r => decide (n < 8) && decide (r < 16)
  | .safeClr m n _ => m.wf && decide (n < 8)
  | .tdmStart m n => m.wf && decide (n < 32)
  | .tdmStop m n => m.wf && decide (n < 32)
  | .tdmStopNow m n => m.wf && decide (n < 32)
  | .tdmFrameSync n _ _ => decide (n < 32)
  | .tdmFsEdge n _ _ _ => decide (n < 32)
  | .tdmFsLost n => decide (n < 32)
  | .swcReadDone n _ => decide (n < 32)
  | .swCountWrite m n _ => m.wf && decide (n < 32)
  | .tdmPeriodPost n => decide (n < 32)
  | .macCfgWrite m n _ => m.wf && decide (n < 16)
  | .macLinkUp n _ => decide (n < 16)
  | .macLinkDown n _ => decide (n < 16)
  | .macTxStart n _ => decide (n < 16)
  | .macTxComplete n => decide (n < 16)
  | .gateEntryChange n => decide (n < 16)
  | .gateCommit m n _ => m.wf && decide (n < 16)
  | .gateConfigChange n => decide (n < 16)
  | .cbsWrite m n i _ => m.wf && decide (n < 16) && decide (i < 2)
  | .preemptVerify n _ => decide (n < 16)
  | .macRxFrame n _ _ _ _ _ _ _ => decide (n < 16)
  | .recoveryResetTimeout r => decide (r < 1024)
  | .reorderTimeout c => decide (c < 16384)
  | .filtLoad m k => m.wf && decide (k < 8)
  | .filtStore m k => m.wf && decide (k < 8)
  | .clearBlock m k => m.wf && decide (k < 8)
  | .recLoad m k => m.wf && decide (k < 8)
  | .recStore m k => m.wf && decide (k < 8)
  | .recReset m k => m.wf && decide (k < 8)
  | .flowLoad m => m.wf
  | .flowStore m => m.wf
  | .flowStop m => m.wf
  | .gclReadAdmin m k => m.wf && decide (k < 8)
  | .gclWriteAdmin m k => m.wf && decide (k < 8)
  | .gclReadOper m k => m.wf && decide (k < 8)
  | .ptpSync i _ _ _ _ _ => decide (i < 4)
  | .ptpFollowUp i _ _ _ _ => decide (i < 4)
  | .ptpAnnounce i _ => decide (i < 4)
  | .ptpReceiptTimeout i _ => decide (i < 4)
  | .ptpPdelayTimer i => decide (i < 4)
  | .ptpPdelayResp i _ _ _ _ => decide (i < 4)
  | .ptpPdelayReqReceived i _ => decide (i < 4)
  | .accept m => m.wf
  | .discard m => m.wf
  | .nvmhEnable m k _ => m.wf && decide (k < 8)
  | .ssdInitDone k _ _ _ _ _ _ _ _ => decide (k < 8)
  | .nvmhDisable m k _ => m.wf && decide (k < 8)
  | .nvmeCompletion k _ _ _ _ _ => decide (k < 8)
  | .nvmeCmdTimeout k _ => decide (k < 8)
  | .nvmeAbortTimeout k _ => decide (k < 8)
  | .pcieLaneFail k lane => decide (k < 9) && decide (lane < if k = 8 then 16 else 4)
  | .nsLoad m => m.wf
  | .nsStore m => m.wf
  | .nsDisable m => m.wf
  | .dirtyCleanTimeout k _ => isNamespace k
  | .recSessLoad m => m.wf
  | .recSessStore m => m.wf
  | .recSessStop m => m.wf
  | .recItemTake c => decide (c < 16384)
  | .indexFlushTimeout c => decide (c < 16384)
  | .recItemReturn c => decide (c < 16384)
  | .ctiEnable _ => true
  | .ctiDisable _ => true
  | .sqTail q _ => decide (q < 256)
  | .cqHead q _ => decide (q < 256)
  | .ctiCommandFetch q _ _ _ => decide (q < 256)
  | .read q tag => decide (q < 256) && decide (tag < 32)
  | .write q tag _ _ => decide (q < 256) && decide (tag < 32)
  | .ctiFlush q tag => decide (q < 256) && decide (tag < 32)
  | .trim q tag => decide (q < 256) && decide (tag < 32)
  | .identify tag => decide (tag < 32)
  | .createQueue tag => decide (tag < 32)
  | .deleteQueue tag => decide (tag < 32)
  | .abort tag => decide (tag < 32)
  | .getLog tag => decide (tag < 32)
  | .format tag => decide (tag < 32)
  | .sanitise tag => decide (tag < 32)
  | .formatPartDone k => isNamespace k
  | .ctiCompletionPost q => decide (q < 256)
  | .ctiAggTimeout q => decide (q < 256)
  | .functionLevelReset => true
  | .qLoad m => m.wf
  | .qStore m => m.wf
  | .enable m => m.wf
  | .disable m => m.wf
  | .pin m => m.wf
  | .unpin m => m.wf
  | .setClass m => m.wf
  | .queuePush p q _ _ => isPage p && decide (q < 1048576)
  | .pushBufferDrain q => decide (q < 1048576)
  | .pushTimeout q => decide (q < 1048576)
  | .queueTake p q _ => isPage p && decide (q < 1048576)
  | .pushGo m i _ => m.wf && decide (i < 8)
  | .takeGo m i _ => m.wf && decide (i < 8)
  | .qstateBaseWrite m _ _ => m.wf
  | .gLoad m => m.wf
  | .gStore m => m.wf
  | .gDisable m => m.wf
  | .eventDeliver c => decide (c < 256)
  | .minGapExpiry c => decide (c < 256)
  | .rateWindowEnd => true
  | .swFire m _ => m.wf
  | .pinInputEdge q _ => decide (q < 32)
  | .pinPulseEnd q => decide (q < 32)
  | .pinCfgWrite m q _ => m.wf && decide (q < 32)
  | .faultReport p => isPage p
  | .fenceNotice p => isPage p
  | .sramScrubStep p _ _ _ _ _ _ => isPage p
  | .engineCondemn p c => decide (p < 272) && decide (c < 256)
  | .condemn m _ => m.wf
  | .moultDrainDone p => decide (p < 272)
  | .drainTimeout p => decide (p < 272)
  | .moult p => decide (p < 272)
  | .zombieDrop p _ => decide (p < 272)
  | .spareBistTimer => true
  | .activate m n => m.wf && decide (n < 8)
  | .quiesce m n => m.wf && decide (n < 8)
  | .svcReset m n => m.wf && decide (n < 8)
  | .pairBistDone n _ => decide (n < 8)
  | .lockstepMismatch n => decide (n < 8)
  | .findCmd m _ => m.wf
  | .wrGo m _ => m.wf
  | .cocoonWriteDone _ => true
  | .silkRecord => true
  | .swGo m _ => m.wf
  | .snapCmd m _ => m.wf
  | .snapshotDone => true
  | .powerFailWarning => true
  | .fnClr m _ => m.wf
  | .fnSwWrite m _ => m.wf
  | .arm m _ => m.wf
  | .hbKick m _ => m.wf
  | .hbTimeout => true
  | .lsTest m _ _ => m.wf
  | .viewEvaluate v _ => decide (v < 8)
  | .viewClr m i _ => m.wf && decide (i < 8)
  | .configCheckRun _ => true
  | .clockMonitorWindow _ => true
  | .supplyWindow r _ => decide (r < 16)
  | .faultInject m p _ => m.wf && isPage p
  | .eyeInj m _ => m.wf
  | .domainOnRequest m i _ => m.wf && decide (i < 4)
  | .domainReady => true
  | .domainOffRequest m i _ => m.wf && decide (i < 4)
  | .standbyRequest m _ => m.wf
  | .dormantRequest m _ => m.wf
  | .activeRequest m _ => m.wf
  | .wake => true
  | .thermalSample _ => true
  | .thermalTrip => true
  | .thermalRestart => true
  | .sensorCheck _ => true
  | .compensationRun => true
  | .confirm m _ => m.wf
  | .pref m _ => m.wf
  | .verAdv m _ => m.wf
  | .verifyCmd m _ => m.wf
  | .verifyDone => true
  | .xspiRead m _ => m.wf
  | .xspiProgram m _ => m.wf
  | .xspiErase m _ => m.wf
  | .xspiDone _ => true
  | .startUp upTo _ => decide (upTo < 9)
  | .startUpFull => true
  | .pwrGoodRise _ _ => true
  | .pwrGoodFall => true
  | .resetN _ => true
  | .resetCmd m _ => m.wf
  | .pfwNRelease => true
  | .mainRailTimeout => true
  | .swiWrite h _ => decide (h < 8)
  | .mtimecmpMatch h => decide (h < 8)
  | .msixMessage p => isPage p
  | .maintWrite addr data crc _ => decide (addr < 4294967296) && decide (data < 4294967296) && decide (crc < 256)
  | .maintRead addr crc _ _ => decide (addr < 4294967296) && decide (crc < 256)
  | .mDoorbell m _ => m.wf
  | .eyeScanGo m n _ => m.wf && decide (n < 192)
  | .eyeScanAbort m n _ => m.wf && decide (n < 192)
  | .eyeScanDone n _ _ => decide (n < 192)
  | .txEqWrite m n _ => m.wf && decide (n < 192)
  | .cstsCfs k => decide (k < 8)
  | .pllLossOfLock p _ => decide (p < 16)
  | .latchingLowRead m _ len => m.wf && isLen len
  | .receiveQueuePop m _ len => m.wf && isLen len

end Sys2Proof
end

