-- ==== Sys2Proof/Tests/Slice0.lean ====
section
/-!
SUPPORT. Small tests of the model, and for every statement states and operands that meet its hypotheses.
-/

-- One proof at a time bounds the threads and memory of a compile.
set_option Elab.async false

namespace Sys2Proof.Tests

open Sys2Proof Sys2Proof.Machine

/-- A page shows its registers when nothing is frozen and the rest of the condition holds. -/
theorem shows_of {s : State} {m : Master} {p : Nat}
    (h : s.hostMayRead m = true ∧ pageKind p ≠ .none ∧ s.powered p = true ∧ s.fenced p = false ∧ (s.pageRt p).busy = false)
    (hf : s.frozen = []) : s.Shows m p := by
  unfold State.Shows
  exact ⟨h.1, h.2.1, h.2.2.1, h.2.2.2.1, h.2.2.2.2, fun o => by rw [hf]; rfl⟩

/-! ## Small states -/

/-- A state with the registers of `l` (page, offset, word) stored. -/
def S (l : List (Nat × Nat × Word)) (s : State) : State := l.foldl (fun t e => t.setReg e.1 e.2.1 e.2.2) s

/-- The block with everything powered, the host let in, and four seconds after the start. -/
def live : State :=
  S [(pPWR 0, Off.pwr0_DOM_STAT0, 0xFFFFFFFF), (pPWR 0, Off.pwr0_DOM_STAT0 + 4, 0xFFFFFFFF), (pPWR 0, Off.pwr0_DOM_STAT0 + 8, 0xFFFFFFFF),
    (pPWR 0, Off.pwr0_DOM_STAT0 + 12, 0xFFFFFFFF), (pGLOBAL, Off.global_HOST_CFG, 7)]
    { State.reset with power := { State.reset.power with steps := 12 }, now := 1000000000 }

/-- Queues 10H to 15H valid, each with three descriptors, but 13H full and 15H empty. -/
def queues (s : State) : State :=
  (S [(pQM 0, Off.qm0_QSTATE_HI, 0x10)] s).onQm fun m =>
    { m with cache := (List.range 6).map fun i => (0x10 + i, { en := true, log2 := if i = 3 then 2 else 4, ring := 0x10000100 + 1024 * i, tail := if i = 5 then 0 else 3 }) }

/-! ## States and operands that meet the hypotheses of the statements -/

namespace Swarm

def at5 (w : Word) (f : Thread → Thread := id) : State :=
  ((S [(pCLUS 0, Off.clus_LMAP0 + 20, 0x8005)] live).modEng 5 fun e => { e with imem := [(8, w)], valid := true }).modThr 5 3 fun x =>
    f { x with st := 1, pc := 0x20 }
def s1 (v : Word) (w : Word) : State := at5 w fun x => x.sput 1 v
def dm (w : Word) : State := (s1 0x1FFC0 w).modEng 5 fun e => { e with dmem := [(0x1FFFC, 0x77), (0x1FFFF, 0x80)] }
def sh (w : Word) : State := (s1 0x3FFFC0 w).poke (shmBase + 0x1FFFFC) [1, 2, 3, 0x84]
def masked (w : Word) : State := at5 w fun x => x.mput 1 0x80000001
def looping (n : Word) : Thread := { depth := 1, pc := 0x40, lcount := [(0, n)], lbounds := [(0, 0x00100008)] }
theorem none_of {w : Word} {x : Thread} {n : Nat} (h : x.mget (fM w) = 0) : ∀ i, enabledLane w x n i = false := by
  intro i
  unfold enabledLane bitAt
  simp [h, wfld]

/-- States and operands that meet the hypotheses of SwarmScalarInteger, clause by clause. -/
theorem wit_SwarmScalarInteger :
    ∃ r ∈ aluRows ++ immRows, ∃ p t : Nat, ∃ w : Word, ∃ s : State, s.Ready p t w r.op :=
  ⟨((aluRows ++ immRows)[0]'(by decide)), List.getElem_mem _, 5, 3, 0x04611000, at5 0x04611000, by unfold State.Ready; decide +kernel⟩

/-- States and operands that meet the hypotheses of SwarmScalarFloat, clause by clause. -/
theorem wit_SwarmScalarFloat :
    ∃ r ∈ fpuRows, ∃ p t : Nat, ∃ w : Word, ∃ s : State, s.Ready p t w r.op :=
  ⟨((fpuRows)[0]'(by decide)), List.getElem_mem _, 5, 3, 0x24611000, at5 0x24611000, by unfold State.Ready; decide +kernel⟩

/-- States and operands that meet the hypotheses of SwarmFloatSpecials, clause by clause. -/
theorem wit_SwarmFloatSpecials :
    (∃ a : Word, f32 a = .nan) ∧
    (∃ a : Word, wfld a 23 8 = 0) ∧
    (∃ a : Word, ((∃ m, f32 a = .num false m ∧ ((2 ^ 31 : Nat) : Int) * m.d ≤ m.n) ∨ f32 a = .inf false)) ∧
    (∃ a : Word, ((∃ m, f32 a = .num true m ∧ ((2 ^ 31 : Nat) : Int) * m.d ≤ m.n) ∨ f32 a = .inf true)) :=
  ⟨⟨0x7FC00001, by decide +kernel⟩,
    ⟨0x80000001, by decide +kernel⟩,
    ⟨0x4F000000, .inl ⟨_, rfl, by decide +kernel⟩⟩,
    ⟨0xCF000000, .inl ⟨_, rfl, by decide +kernel⟩⟩⟩

/-- States and operands that meet the hypotheses of SwarmControlFlow, clause by clause. -/
theorem wit_SwarmControlFlow :
    (∃ r ∈ branchRows, ∃ p t : Nat, ∃ w : Word, ∃ s : State, s.Ready p t w r.op) ∧
    (∃ p t : Nat, ∃ w : Word, ∃ s : State, s.Ready p t w .jal) ∧
    (∃ p t : Nat, ∃ w : Word, ∃ s : State, s.Ready p t w .jalr) ∧
    (∃ p t : Nat, ∃ w : Word, ∃ s : State, s.Ready p t w .loop ∧ (s.thr p t).depth < 2 ∧ (s.thr p t).sget (fA w) ≠ 0) ∧
    (∃ p t : Nat, ∃ w : Word, ∃ s : State, s.Ready p t w .loop ∧ (s.thr p t).depth = 0 ∧ (s.thr p t).sget (fA w) = 0) ∧
    (∃ x : Thread, ∃ a : Nat, x.depth = 0 ∧ a < 2 ^ 32) ∧
    (∃ x : Thread, x.depth = 1 ∧ x.pc / 4 = x.loopEnd 0 ∧ 1 < (Map.get (fun _ => 0) x.lcount 0).toNat) ∧
    (∃ x : Thread, x.depth = 1 ∧ x.pc / 4 = x.loopEnd 0 ∧ (Map.get (fun _ => 0) x.lcount 0).toNat ≤ 1) ∧
    (∃ x : Thread, ∃ a : Nat, x.depth = 1 ∧ a < 2 ^ 32 ∧ ¬ (x.loopStart 0 ≤ a / 4 ∧ a / 4 ≤ x.loopEnd 0)) :=
  ⟨⟨((branchRows)[0]'(by decide)), List.getElem_mem _, 5, 3, 0x4061FFFC, at5 0x4061FFFC, by unfold State.Ready; decide +kernel⟩,
    ⟨5, 3, 0x5BFFFFFF, at5 0x5BFFFFFF, by unfold State.Ready; decide +kernel⟩,
    ⟨5, 3, 0x5C61FFFC, at5 0x5C61FFFC, by unfold State.Ready; decide +kernel⟩,
    ⟨5, 3, 0x6001000E, s1 3 0x6001000E, by unfold State.Ready; decide +kernel⟩,
    ⟨5, 3, 0x6001000E, at5 0x6001000E, by unfold State.Ready; decide +kernel⟩,
    ⟨{}, 0xFFFFFFFC, by decide +kernel⟩,
    ⟨looping 2, by decide +kernel⟩,
    ⟨looping 1, by decide +kernel⟩,
    ⟨looping 2, 0xFFFFFFFC, by decide +kernel⟩⟩

/-- States and operands that meet the hypotheses of SwarmSystemFunctions, clause by clause. -/
theorem wit_SwarmSystemFunctions :
    (∃ p t : Nat, ∃ w : Word, ∃ s : State, s.Ready p t w .nop) ∧
    (∃ p t : Nat, ∃ w : Word, ∃ s : State, s.Ready p t w .fence) ∧
    (∃ p t : Nat, ∃ w : Word, ∃ s : State, s.Ready p t w .yield) ∧
    (∃ p t : Nat, ∃ w : Word, ∃ s : State, s.Ready p t w .eret ∧ (s.thr p t).inTrap = true) ∧
    (∃ p t : Nat, ∃ w : Word, ∃ s : State, s.Ready p t w .trap ∧ (s.thr p t).tvec ≠ 0 ∧ (s.thr p t).inTrap = false) ∧
    (∃ p t : Nat, ∃ w : Word, ∃ s : State, ∃ v : Word, s.Ready p t w .csrr ∧ s.csr p t (csrNum w) = some v ∧ csrNum w ≠ 0x0B) ∧
    (∃ p t : Nat, ∃ w : Word, ∃ s : State, ∃ v : Word, s.Ready p t w .csrr ∧ s.csr p t (csrNum w) = some v ∧ csrNum w = 0x0B) ∧
    (∃ p t : Nat, ∃ w : Word, ∃ s : State, ∃ v : Word, s.Ready p t w .csrr ∧ s.csr p t (csrNum w) = some v ∧ csrNum w ≠ 0x0D) ∧
    (∃ p t : Nat, ∃ w : Word, ∃ s : State, ∃ v : Word, s.Ready p t w .csrr ∧ s.csr p t (csrNum w) = some v ∧ csrNum w = 0x0D) ∧
    (∃ p t : Nat, ∃ w : Word, ∃ s : State, ∃ y : Thread, s.Ready p t w .csrw ∧ (s.thr p t).csrPut (csrNum w) ((s.thr p t).sget (fA w)) = some y) ∧
    (∃ p t : Nat, ∃ w : Word, ∃ s : State, s.Ready p t w .exit ∧ (s.thr p t).wi = none) :=
  ⟨⟨5, 3, 0x00000001, at5 0x00000001, by unfold State.Ready; decide +kernel⟩,
    ⟨5, 3, 0x00000002, at5 0x00000002, by unfold State.Ready; decide +kernel⟩,
    ⟨5, 3, 0x00000007, at5 0x00000007, by unfold State.Ready; decide +kernel⟩,
    ⟨5, 3, 0x00000003, at5 0x00000003 fun x => { x with inTrap := true }, by unfold State.Ready; decide +kernel⟩,
    ⟨5, 3, 0x00610004, at5 0x00610004 fun x => { x with tvec := 0x100 }, by unfold State.Ready; decide +kernel⟩,
    ⟨5, 3, 0x00600005, at5 0x00600005, wd 3, by unfold State.Ready; decide +kernel⟩,
    ⟨5, 3, 0x00600B05, at5 0x00600B05, (at5 0x00600B05).csr 5 3 0xB |>.getD 0, by unfold State.Ready; decide +kernel⟩,
    ⟨5, 3, 0x00600005, at5 0x00600005, wd 3, by unfold State.Ready; decide +kernel⟩,
    ⟨5, 3, 0x00600D05, at5 0x00600D05, 0, by unfold State.Ready; decide +kernel⟩,
    ⟨5, 3, 0x00010406, at5 0x00010406, ((at5 0x00010406).thr 5 3), by unfold State.Ready; decide +kernel⟩,
    ⟨5, 3, 0x00000008, at5 0x00000008, by unfold State.Ready; decide +kernel⟩⟩

/-- States and operands that meet the hypotheses of SwarmLoads, clause by clause. -/
theorem wit_SwarmLoads :
    (∃ r ∈ loadRows, ∃ p t : Nat, ∃ w : Word, ∃ s : State, ∃ a : Nat, s.Ready p t w r.op ∧ a = ((s.thr p t).sget (fA w) + immS w).toNat ∧ a % r.bytes = 0 ∧ a + r.bytes ≤ 0x20000 ∧ s.dpoisoned p a r.bytes = false ∧ (s.pageRt (pENG p)).inject = 0) ∧
    (∃ r ∈ loadRows, ∃ p t : Nat, ∃ w : Word, ∃ s : State, ∃ a : Nat, ∃ k, s.Ready p t w r.op ∧ a = ((s.thr p t).sget (fA w) + immS w).toNat ∧ a % r.bytes = 0 ∧ s.homeOf p = some k ∧ 0x200000 ≤ a ∧ a + r.bytes ≤ 0x400000 ∧ s.alive (pCLUS k) = true ∧ s.anyPoison (shmBase + k * 0x200000 + (a - 0x200000)) r.bytes = false ∧ (s.pageRt (pCLUS k)).inject = 0) ∧
    (∃ p t : Nat, ∃ w : Word, ∃ s : State, ∃ a : Nat, s.Ready p t w .vld ∧ a = ((s.thr p t).sget (fA w) + 64 * immS w).toNat ∧ a % 64 = 0 ∧ a + 64 ≤ 0x20000 ∧ s.dpoisoned p a 64 = false ∧ (s.pageRt (pENG p)).inject = 0) ∧
    (∃ p t : Nat, ∃ w : Word, ∃ s : State, ∃ a : Nat, ∃ k, s.Ready p t w .vld ∧ a = ((s.thr p t).sget (fA w) + 64 * immS w).toNat ∧ a % 64 = 0 ∧ s.homeOf p = some k ∧ 0x200000 ≤ a ∧ a + 64 ≤ 0x400000 ∧ s.alive (pCLUS k) = true ∧ s.anyPoison (shmBase + k * 0x200000 + (a - 0x200000)) 64 = false ∧ (s.pageRt (pCLUS k)).inject = 0) ∧
    (∃ p t : Nat, ∃ w : Word, ∃ s : State, ∃ a : Nat, s.Ready p t w .vldu ∧ a = ((s.thr p t).sget (fA w) + 2 * immS w).toNat ∧ a % 2 = 0 ∧ a + 64 ≤ 0x20000 ∧ s.dpoisoned p a 64 = false ∧ (s.pageRt (pENG p)).inject = 0) ∧
    (∃ p t : Nat, ∃ w : Word, ∃ s : State, ∃ a : Nat, ∃ k, s.Ready p t w .vldu ∧ a = ((s.thr p t).sget (fA w) + 2 * immS w).toNat ∧ a % 2 = 0 ∧ s.homeOf p = some k ∧ 0x200000 ≤ a ∧ a + 64 ≤ 0x400000 ∧ s.alive (pCLUS k) = true ∧ s.anyPoison (shmBase + k * 0x200000 + (a - 0x200000)) 64 = false ∧ (s.pageRt (pCLUS k)).inject = 0) ∧
    (∃ p t : Nat, ∃ w : Word, ∃ s : State, ∃ at_ : Nat → Nat, ∃ i : Nat, (∀ i, at_ i = ((s.thr p t).sget (fA w) + 2 * (laneB w (s.thr p t) 16 i).setWidth 32).toNat) ∧ s.Ready p t w .vgath ∧ (s.pageRt (pENG p)).inject = 0 ∧ (∀ i < 32, bitAt ((s.thr p t).mget (fM w)) i = true → at_ i % 2 = 0 ∧ at_ i + 2 ≤ 0x20000 ∧ s.dpoisoned p (at_ i) 2 = false) ∧ i < 32) :=
  ⟨⟨((loadRows)[0]'(by decide)), List.getElem_mem _, 5, 3, 0x2861003C, dm 0x2861003C, ((((dm 0x2861003C).thr 5 3).sget (fA 0x2861003C) + immS 0x2861003C).toNat), by unfold State.Ready; decide +kernel⟩,
    ⟨((loadRows)[0]'(by decide)), List.getElem_mem _, 5, 3, 0x2861003C, sh 0x2861003C, ((((sh 0x2861003C).thr 5 3).sget (fA 0x2861003C) + immS 0x2861003C).toNat), 0, by unfold State.Ready; decide +kernel⟩,
    ⟨5, 3, 0xA0610000, dm 0xA0610000, ((((dm 0xA0610000).thr 5 3).sget (fA 0xA0610000) + 64 * immS 0xA0610000).toNat), by unfold State.Ready; decide +kernel⟩,
    ⟨5, 3, 0xA0610000, sh 0xA0610000, ((((sh 0xA0610000).thr 5 3).sget (fA 0xA0610000) + 64 * immS 0xA0610000).toNat), 0, by unfold State.Ready; decide +kernel⟩,
    ⟨5, 3, 0xA861FFFF, dm 0xA861FFFF, ((((dm 0xA861FFFF).thr 5 3).sget (fA 0xA861FFFF) + 2 * immS 0xA861FFFF).toNat), by unfold State.Ready; decide +kernel⟩,
    ⟨5, 3, 0xA861FFFF, sh 0xA861FFFF, ((((sh 0xA861FFFF).thr 5 3).sget (fA 0xA861FFFF) + 2 * immS 0xA861FFFF).toNat), 0, by unfold State.Ready; decide +kernel⟩,
    ⟨5, 3, 0xB0611000, dm 0xB0611000, (fun j_ => (((dm 0xB0611000).thr 5 3).sget (fA 0xB0611000) + 2 * (laneB 0xB0611000 ((dm 0xB0611000).thr 5 3) 16 j_).setWidth 32).toNat), 31, fun _ => rfl, by unfold State.Ready; decide +kernel⟩⟩

/-- States and operands that meet the hypotheses of SwarmStores, clause by clause. -/
theorem wit_SwarmStores :
    (∃ r ∈ storeRows, ∃ p t : Nat, ∃ w : Word, ∃ s : State, ∃ a : Nat, s.Ready p t w r.op ∧ a = ((s.thr p t).sget (fA w) + immS w).toNat ∧ a % r.bytes = 0 ∧ a + r.bytes ≤ 0x20000 ∧ s.dpoisoned p a r.bytes = false) ∧
    (∃ r ∈ storeRows, ∃ p t : Nat, ∃ w : Word, ∃ s : State, ∃ a : Nat, ∃ k, s.Ready p t w r.op ∧ a = ((s.thr p t).sget (fA w) + immS w).toNat ∧ a % r.bytes = 0 ∧ s.homeOf p = some k ∧ 0x200000 ≤ a ∧ a + r.bytes ≤ 0x400000 ∧ s.alive (pCLUS k) = true ∧ s.anyPoison (shmBase + k * 0x200000 + (a - 0x200000)) r.bytes = false) ∧
    (∃ p t : Nat, ∃ w : Word, ∃ s : State, ∃ a : Nat, s.Ready p t w .vst ∧ a = ((s.thr p t).sget (fA w) + 64 * immS w).toNat ∧ a % 64 = 0 ∧ a + 64 ≤ 0x20000) ∧
    (∃ p t : Nat, ∃ w : Word, ∃ s : State, ∃ a : Nat, ∃ k, s.Ready p t w .vst ∧ a = ((s.thr p t).sget (fA w) + 64 * immS w).toNat ∧ a % 64 = 0 ∧ s.homeOf p = some k ∧ 0x200000 ≤ a ∧ a + 64 ≤ 0x400000 ∧ s.alive (pCLUS k) = true) ∧
    (∃ r : (Nat → Nat → Instr) × SwOp × (Word → Thread → Nat → Nat), ∃ p t : Nat, ∃ w : Word, ∃ s : State, ∃ at_ : Nat → Nat, r ∈ ([(.vstm, .vstm, fun _ _ i => 2 * i), (.vscat, .vscat, fun w x i => 2 * (laneB w x 16 i).toNat)] : List _) ∧ (∀ i, at_ i = (((s.thr p t).sget (fA w)).toNat + r.2.2 w (s.thr p t) i) % 2 ^ 32) ∧ s.Ready p t w r.2.1 ∧ (∀ i < 32, bitAt ((s.thr p t).mget (fM w)) i = true → at_ i % 2 = 0 ∧ at_ i + 2 ≤ 0x20000 ∧ s.dpoisoned p (at_ i) 2 = false)) :=
  ⟨⟨((storeRows)[0]'(by decide)), List.getElem_mem _, 5, 3, 0x2C61003C, dm 0x2C61003C, ((((dm 0x2C61003C).thr 5 3).sget (fA 0x2C61003C) + immS 0x2C61003C).toNat), by unfold State.Ready; decide +kernel⟩,
    ⟨((storeRows)[0]'(by decide)), List.getElem_mem _, 5, 3, 0x2C61003C, sh 0x2C61003C, ((((sh 0x2C61003C).thr 5 3).sget (fA 0x2C61003C) + immS 0x2C61003C).toNat), 0, by unfold State.Ready; decide +kernel⟩,
    ⟨5, 3, 0xA4610000, dm 0xA4610000, ((((dm 0xA4610000).thr 5 3).sget (fA 0xA4610000) + 64 * immS 0xA4610000).toNat), by unfold State.Ready; decide +kernel⟩,
    ⟨5, 3, 0xA4610000, sh 0xA4610000, ((((sh 0xA4610000).thr 5 3).sget (fA 0xA4610000) + 64 * immS 0xA4610000).toNat), 0, by unfold State.Ready; decide +kernel⟩,
    ⟨(Instr.vstm, SwOp.vstm, fun _ _ j => 2 * j), 5, 3, 0xAC610000, dm 0xAC610000, (fun j_ => ((((dm 0xAC610000).thr 5 3).sget (fA 0xAC610000)).toNat + ((Instr.vstm, SwOp.vstm, fun _ _ j => 2 * j)).2.2 0xAC610000 ((dm 0xAC610000).thr 5 3) j_) % 2 ^ 32), by simp, fun _ => rfl, by unfold State.Ready; decide +kernel⟩⟩

/-- States and operands that meet the hypotheses of SwarmAtomics, clause by clause. -/
theorem wit_SwarmAtomics :
    (∃ r ∈ amoRows, ∃ p t : Nat, ∃ w : Word, ∃ s : State, ∃ a : Nat, ∃ old : Word, s.Ready p t w r.op ∧ a = ((s.thr p t).sget (fA w)).toNat ∧ a % 4 = 0 ∧ a + 4 ≤ 0x20000 ∧ s.dpoisoned p a 4 = false ∧ (s.pageRt (pENG p)).inject = 0 ∧ old = wd (ofLeBytes (s.dpeek p a 4))) ∧
    (∃ r ∈ amoRows, ∃ p t : Nat, ∃ w : Word, ∃ s : State, ∃ a k o : Nat, ∃ old : Word, s.Ready p t w r.op ∧ a = ((s.thr p t).sget (fA w)).toNat ∧ a % 4 = 0 ∧ s.homeOf p = some k ∧ 0x200000 ≤ a ∧ a + 4 ≤ 0x400000 ∧ s.alive (pCLUS k) = true ∧ o = shmBase + k * 0x200000 + (a - 0x200000) ∧ s.anyPoison o 4 = false ∧ (s.pageRt (pCLUS k)).inject = 0 ∧ old = wd (ofLeBytes (s.peek o 4))) :=
  ⟨⟨((amoRows)[0]'(by decide)), List.getElem_mem _, 5, 3, 0xC8611000, s1 0x1FFFC 0xC8611000, ((((s1 0x1FFFC 0xC8611000).thr 5 3).sget (fA 0xC8611000)).toNat), (wd (ofLeBytes ((s1 0x1FFFC 0xC8611000).dpeek 5 ((((s1 0x1FFFC 0xC8611000).thr 5 3).sget (fA 0xC8611000)).toNat) 4))), by unfold State.Ready; decide +kernel⟩,
    ⟨((amoRows)[0]'(by decide)), List.getElem_mem _, 5, 3, 0xC8611000, s1 0x3FFFFC 0xC8611000, ((((s1 0x3FFFFC 0xC8611000).thr 5 3).sget (fA 0xC8611000)).toNat), 0, (shmBase + 0 * 0x200000 + (((((s1 0x3FFFFC 0xC8611000).thr 5 3).sget (fA 0xC8611000)).toNat) - 0x200000)), (wd (ofLeBytes ((s1 0x3FFFFC 0xC8611000).peek (shmBase + 0 * 0x200000 + (((((s1 0x3FFFFC 0xC8611000).thr 5 3).sget (fA 0xC8611000)).toNat) - 0x200000)) 4))), by unfold State.Ready; decide +kernel⟩⟩

/-- States and operands that meet the hypotheses of SwarmVectorInteger, clause by clause. -/
theorem wit_SwarmVectorInteger :
    (∃ r ∈ valuRows, ∃ p t : Nat, ∃ w : Word, ∃ s : State, ∃ i : Nat, s.Ready p t w r.op ∧ i < 512 / r.bits w) ∧
    (∃ r ∈ shiftRows, ∃ p t : Nat, ∃ w : Word, ∃ s : State, ∃ i : Nat, s.Ready p t w r.op ∧ i < 512 / typeBits w ∧ bitAt ((s.thr p t).mget (fM w)) i = true ∧ r.amount w (s.thr p t) i < typeBits w) ∧
    (∃ r ∈ shiftRows, ∃ p t : Nat, ∃ w : Word, ∃ s : State, ∃ i : Nat, s.Ready p t w r.op ∧ i < 512 / typeBits w ∧ bitAt ((s.thr p t).mget (fM w)) i = false) ∧
    (∃ p t : Nat, ∃ w : Word, ∃ s : State, ∃ i : Nat, s.Ready p t w .vsel ∧ i < 512 / typeBits w) :=
  ⟨⟨((valuRows)[0]'(by decide)), List.getElem_mem _, 5, 3, 0x80611000, at5 0x80611000, 31, by unfold State.Ready; decide +kernel⟩,
    ⟨((shiftRows)[0]'(by decide)), List.getElem_mem _, 5, 3, 0x80611109, masked 0x80611109, 31, by unfold State.Ready; decide +kernel⟩,
    ⟨((shiftRows)[0]'(by decide)), List.getElem_mem _, 5, 3, 0x80611109, masked 0x80611109, 30, by unfold State.Ready; decide +kernel⟩,
    ⟨5, 3, 0x80611015, at5 0x80611015, 31, by unfold State.Ready; decide +kernel⟩⟩

/-- States and operands that meet the hypotheses of SwarmVectorFloat, clause by clause. -/
theorem wit_SwarmVectorFloat :
    ∃ r ∈ vfpuRows, ∃ p t : Nat, ∃ w : Word, ∃ s : State, ∃ i : Nat, s.Ready p t w r.op ∧ i < 512 / r.bits w :=
  ⟨((vfpuRows)[0]'(by decide)), List.getElem_mem _, 5, 3, 0x84611000, at5 0x84611000, 15, by unfold State.Ready; decide +kernel⟩

/-- States and operands that meet the hypotheses of SwarmPermutesAndAccumulators, clause by clause. -/
theorem wit_SwarmPermutesAndAccumulators :
    (∃ r ∈ vpermRows, ∃ p t : Nat, ∃ w : Word, ∃ s : State, ∃ i : Nat, s.Ready p t w r.op ∧ i < 512 / r.bits w) ∧
    (∃ p t : Nat, ∃ w : Word, ∃ s : State, s.Ready p t w .vext ∧ fB w < 512 / typeBits w) ∧
    (∃ p t : Nat, ∃ w : Word, ∃ s : State, ∃ i : Nat, s.Ready p t w .accr2W ∧ i < 16) ∧
    (∃ r ∈ accRows, ∃ p t : Nat, ∃ w : Word, ∃ s : State, ∃ i : Nat, s.Ready p t w r.op ∧ i < 32) ∧
    (∃ p t : Nat, ∃ w : Word, ∃ s : State, ∃ j : Nat, s.Ready p t w .vmacW ∧ j < 16) :=
  ⟨⟨((vpermRows)[0]'(by decide)), List.getElem_mem _, 5, 3, 0x8C61101F, at5 0x8C61101F, 31, by unfold State.Ready; decide +kernel⟩,
    ⟨5, 3, 0x8C61F825, at5 0x8C61F825, by unfold State.Ready; decide +kernel⟩,
    ⟨5, 3, 0x8841C00B, at5 0x8841C00B, 15, by unfold State.Ready; decide +kernel⟩,
    ⟨((accRows)[0]'(by decide)), List.getElem_mem _, 5, 3, 0x88611000, at5 0x88611000, 31, by unfold State.Ready; decide +kernel⟩,
    ⟨5, 3, 0x88611003, at5 0x88611003, 15, by unfold State.Ready; decide +kernel⟩⟩

/-- States and operands that meet the hypotheses of SwarmComparesAndReductions, clause by clause. -/
theorem wit_SwarmComparesAndReductions :
    (∃ r ∈ cmpRows, ∃ p t : Nat, ∃ w : Word, ∃ s : State, ∃ i : Nat, s.Ready p t w r.op ∧ i < 32) ∧
    (∃ r ∈ maskRows, ∃ p t : Nat, ∃ w : Word, ∃ s : State, s.Ready p t w r.op) ∧
    (∃ r ∈ bestRows, ∃ p t : Nat, ∃ w : Word, ∃ s : State, (∀ i, enabledLane w (s.thr p t) (typeBits w) i = false) ∧ s.Ready p t w r.op) ∧
    (∃ r ∈ bestRows, ∃ p t : Nat, ∃ w : Word, ∃ s : State, ∃ i, s.Ready p t w r.op ∧ enabledLane w (s.thr p t) (typeBits w) i = true) ∧
    (∃ p t : Nat, ∃ w : Word, ∃ s : State, s.Ready p t w .vrsum ∧ fType w ≠ 2) ∧
    (∃ p t : Nat, ∃ w : Word, ∃ s : State, s.Ready p t w .vrsum ∧ fType w = 2) ∧
    (∃ p t : Nat, ∃ w : Word, ∃ s : State, s.Ready p t w .mget) ∧
    (∃ p t : Nat, ∃ w : Word, ∃ s : State, s.Ready p t w .mcount) :=
  ⟨⟨((cmpRows)[0]'(by decide)), List.getElem_mem _, 5, 3, 0x90611000, at5 0x90611000, 31, by unfold State.Ready; decide +kernel⟩,
    ⟨((maskRows)[0]'(by decide)), List.getElem_mem _, 5, 3, 0x90611010, at5 0x90611010, by unfold State.Ready; decide +kernel⟩,
    ⟨((bestRows)[0]'(by decide)), List.getElem_mem _, 5, 3, 0x94610201, masked 0x94610201, none_of (by decide +kernel), by unfold State.Ready; decide +kernel⟩,
    ⟨((bestRows)[0]'(by decide)), List.getElem_mem _, 5, 3, 0x94610101, masked 0x94610101, 31, by unfold State.Ready; decide +kernel⟩,
    ⟨5, 3, 0x94610000, at5 0x94610000, by unfold State.Ready; decide +kernel⟩,
    ⟨5, 3, 0x94610080, at5 0x94610080, by unfold State.Ready; decide +kernel⟩,
    ⟨5, 3, 0x94610005, at5 0x94610005, by unfold State.Ready; decide +kernel⟩,
    ⟨5, 3, 0x94610006, at5 0x94610006, by unfold State.Ready; decide +kernel⟩⟩

end Swarm

namespace Swarm2

def on5 (s : State) (w : Word) (f : Thread → Thread := id) : State :=
  ((S [(pCLUS 0, Off.clus_LMAP0 + 20, 0x8005)] s).modEng 5 fun e => { e with imem := [(8, w)], valid := true }).modThr 5 3 fun x =>
    f { x with st := 1, pc := 0x20 }
def at5 (w : Word) (f : Thread → Thread := id) : State := on5 live w f
def s1 (v w : Word) : State := at5 w fun x => x.sput 1 v
def poisoned (w : Word) : State := (s1 0x1FFC0 w).modEng 5 fun e => { e with dpoison := [(0x3FFF, true)] }
def item : WorkItem := { handle := 23 + 1024, epoch := 1, queue := 0x10, cls := 0, since := 1000000000 - 250001 }
def qs : State := (queues live).onQm fun m => { m with cache := m.cache.map fun e => (e.1, { e.2 with engine := true }), hold := [(23, { held := true, handle := 23 + 1024, epoch := 1 })] }
def onQ (q w : Word) (wi : Option WorkItem := none) (park : Bool := false) : State := on5 qs w fun x => { x.sput 1 q with wi := wi, park := park }
def stale (w : Word) : State := on5 (queues live) w fun x => { x.sput 1 0x10 with wi := some item }
def dmas (w v : Word) (n : Nat) : State := at5 w fun x => { x.sput 1 v with dmaQ := List.replicate n ⟨1, [], false, 0⟩ }
def bar (c st w : Word) : State := S [(pCLUS 0, Off.clus_BAR_CFG0 + 60, c), (pCLUS 0, Off.clus_BAR_STAT0 + 60, st)] (at5 w)
def fill : DmaReq := { ticket := 1, desc := [0, 0, 0x1FFC0, 0x80000000, 64, 0x10001, 0, 0], bad := false, cls := 0 }
def head (r : DmaReq) : State := at5 0 fun x => { x with dmaQ := [r] }
def waits (w : ThreadWait) : State := (at5 0 fun x => { x with st := 2, wait := some w }).setBusy (pENG 5) 3 true
theorem wi_of {s : State} {o : Option WorkItem} (h : (o.all fun i => s.holdMatches i.handle i.epoch) = true) :
    ∀ i, o = some i → s.holdMatches i.handle i.epoch = true := by
  rintro i rfl
  exact h

/-- States and operands that meet the hypotheses of SwarmTrapEntry, clause by clause. -/
theorem wit_SwarmTrapEntry :
    (∃ r ∈ loadRows, ∃ p t : Nat, ∃ w : Word, ∃ s : State, ∃ a : Nat, s.Ready p t w r.op ∧ a = ((s.thr p t).sget (fA w) + immS w).toNat ∧ a % r.bytes ≠ 0) ∧
    (∃ r ∈ loadRows, ∃ p t : Nat, ∃ w : Word, ∃ s : State, ∃ a : Nat, s.Ready p t w r.op ∧ a = ((s.thr p t).sget (fA w) + immS w).toNat ∧ a % r.bytes = 0 ∧ (0x20000 < a + r.bytes ∧ a < 0x200000 ∨ 0x400000 < a + r.bytes ∨ 0x20000 < a + r.bytes ∧ s.homeOf p = none)) ∧
    (∃ r ∈ loadRows, ∃ p t : Nat, ∃ w : Word, ∃ s : State, ∃ a : Nat, s.Ready p t w r.op ∧ a = ((s.thr p t).sget (fA w) + immS w).toNat ∧ a % r.bytes = 0 ∧ a + r.bytes ≤ 0x20000 ∧ s.dpoisoned p a r.bytes = true) ∧
    (∃ r ∈ loadRows, ∃ p t : Nat, ∃ w : Word, ∃ s : State, ∃ a : Nat, s.Ready p t w r.op ∧ a = ((s.thr p t).sget (fA w) + immS w).toNat ∧ a % r.bytes = 0 ∧ a + r.bytes ≤ 0x20000 ∧ s.dpoisoned p a r.bytes = false) ∧
    (∃ r ∈ storeRows, ∃ p t : Nat, ∃ w : Word, ∃ s : State, ∃ a : Nat, s.Ready p t w r.op ∧ a = ((s.thr p t).sget (fA w) + immS w).toNat ∧ a % r.bytes ≠ 0) ∧
    (∃ r ∈ storeRows, ∃ p t : Nat, ∃ w : Word, ∃ s : State, ∃ a : Nat, s.Ready p t w r.op ∧ a = ((s.thr p t).sget (fA w) + immS w).toNat ∧ a % r.bytes = 0 ∧ (0x20000 < a + r.bytes ∧ a < 0x200000 ∨ 0x400000 < a + r.bytes ∨ 0x20000 < a + r.bytes ∧ s.homeOf p = none)) ∧
    (∃ p t : Nat, ∃ s : State, ∃ w : Word, s.canIssue p t = true ∧ (s.thr p t).pc ≤ 0x7FFC ∧ s.fetch p (s.thr p t).pc = w ∧ swDecode w = none) ∧
    (∃ p t : Nat, ∃ s : State, s.canIssue p t = true ∧ 0x7FFC < (s.thr p t).pc) ∧
    (∃ p t : Nat, ∃ w : Word, ∃ s : State, s.Ready p t w .eret ∧ (s.thr p t).inTrap = false) ∧
    (∃ p t : Nat, ∃ w : Word, ∃ s : State, s.Ready p t w .exit ∧ (s.thr p t).wi.isSome = true) ∧
    (∃ p t : Nat, ∃ w : Word, ∃ s : State, (s.thr p t).wi.isSome = true ∧ s.Ready p t w .qtake) ∧
    (∃ p t : Nat, ∃ w : Word, ∃ s : State, (s.thr p t).wi.isSome = true ∧ s.Ready p t w .qtry) ∧
    (∃ p t : Nat, ∃ w : Word, ∃ s : State, (s.thr p t).wi = none ∧ s.Ready p t w .qdone) ∧
    (∃ p t : Nat, ∃ w : Word, ∃ s : State, (s.thr p t).wi = none ∧ s.Ready p t w .qrel) ∧
    (∃ p t : Nat, ∃ w : Word, ∃ s : State, s.Ready p t w .loop ∧ 2 ≤ (s.thr p t).depth) ∧
    (∃ p t : Nat, ∃ w : Word, ∃ s : State, s.Ready p t w .csrr ∧ 0x13 < csrNum w) ∧
    (∃ p t : Nat, ∃ w : Word, ∃ s : State, s.Ready p t w .csrw ∧ csrNum w ∉ [0x03, 0x04, 0x05, 0x0F, 0x10, 0x11, 0x12, 0x13]) ∧
    (∃ p t : Nat, ∃ w : Word, ∃ s : State, s.canIssue p t = true ∧ (s.thr p t).pc ≤ 0x7FFC ∧ s.fetch p (s.thr p t).pc = w ∧ swDecode w = some .nop ∧ (s.thr p t).breakpc ≠ 0 ∧ (s.thr p t).breakpc.toNat = (s.thr p t).pc) :=
  ⟨⟨((loadRows)[0]'(by decide)), List.getElem_mem _, 5, 3, 0x28610002, s1 0x1FFC0 0x28610002, ((((s1 0x1FFC0 0x28610002).thr 5 3).sget (fA 0x28610002) + immS 0x28610002).toNat), by unfold State.Ready; decide +kernel⟩,
    ⟨((loadRows)[0]'(by decide)), List.getElem_mem _, 5, 3, 0x2861003C, s1 0x1FFC4 0x2861003C, ((((s1 0x1FFC4 0x2861003C).thr 5 3).sget (fA 0x2861003C) + immS 0x2861003C).toNat), by unfold State.Ready; decide +kernel⟩,
    ⟨((loadRows)[0]'(by decide)), List.getElem_mem _, 5, 3, 0x2861003C, poisoned 0x2861003C, ((((poisoned 0x2861003C).thr 5 3).sget (fA 0x2861003C) + immS 0x2861003C).toNat), by unfold State.Ready; decide +kernel⟩,
    ⟨((loadRows)[0]'(by decide)), List.getElem_mem _, 5, 3, 0x2861003C, s1 0x1FFC0 0x2861003C, ((((s1 0x1FFC0 0x2861003C).thr 5 3).sget (fA 0x2861003C) + immS 0x2861003C).toNat), by unfold State.Ready; decide +kernel⟩,
    ⟨((storeRows)[0]'(by decide)), List.getElem_mem _, 5, 3, 0x2C610002, s1 0x1FFC0 0x2C610002, ((((s1 0x1FFC0 0x2C610002).thr 5 3).sget (fA 0x2C610002) + immS 0x2C610002).toNat), by unfold State.Ready; decide +kernel⟩,
    ⟨((storeRows)[0]'(by decide)), List.getElem_mem _, 5, 3, 0x2C61003C, s1 0x1FFC4 0x2C61003C, ((((s1 0x1FFC4 0x2C61003C).thr 5 3).sget (fA 0x2C61003C) + immS 0x2C61003C).toNat), by unfold State.Ready; decide +kernel⟩,
    ⟨5, 3, at5 0xFFFFFFFF, 0xFFFFFFFF, by decide +kernel⟩,
    ⟨5, 3, at5 0 fun x => { x with pc := 0x8000 }, by decide +kernel⟩,
    ⟨5, 3, 0x00000003, at5 0x00000003, by unfold State.Ready; decide +kernel⟩,
    ⟨5, 3, 0x00000008, at5 0x00000008 fun x => { x with wi := some item }, by unfold State.Ready; decide +kernel⟩,
    ⟨5, 3, 0xC0611000, onQ 0x10 0xC0611000 (some item), by unfold State.Ready; decide +kernel⟩,
    ⟨5, 3, 0xC0611001, onQ 0x10 0xC0611001 (some item), by unfold State.Ready; decide +kernel⟩,
    ⟨5, 3, 0xC0600004, onQ 0x10 0xC0600004, by unfold State.Ready; decide +kernel⟩,
    ⟨5, 3, 0xC0600005, onQ 0x10 0xC0600005, by unfold State.Ready; decide +kernel⟩,
    ⟨5, 3, 0x6001000E, at5 0x6001000E fun x => { x with depth := 2 }, by unfold State.Ready; decide +kernel⟩,
    ⟨5, 3, 0x00601405, at5 0x00601405, by unfold State.Ready; decide +kernel⟩,
    ⟨5, 3, 0x00010606, at5 0x00010606, by unfold State.Ready; decide +kernel⟩,
    ⟨5, 3, 0x00000001, at5 0x00000001 fun x => { x with breakpc := 0x20 }, by decide +kernel⟩⟩

/-- States and operands that meet the hypotheses of SwarmQueueInstructions, clause by clause. -/
theorem wit_SwarmQueueInstructions :
    (∃ r : (Nat → Nat → Instr) × SwOp, ∃ p t : Nat, ∃ w : Word, ∃ s : State, ∃ slot q : Nat, r ∈ ([(.qtake, .qtake), (.qtry, .qtry)] : List _) ∧ s.Ready p t w r.2 ∧ (s.thr p t).wi = none ∧ (s.thr p t).park = false ∧ s.alive (pQM 0) = true ∧ s.holdSlot p t = some slot ∧ q = ((s.thr p t).sget (fA w)).toNat ∧ s.engineQueue q = true ∧ (s.takersOf q).length < s.itemsReady q) ∧
    (∃ p t : Nat, ∃ w : Word, ∃ s : State, ∃ slot q : Nat, (s.thr p t).wi = none ∧ (s.thr p t).park = false ∧ s.alive (pQM 0) = true ∧ s.holdSlot p t = some slot ∧ q = ((s.thr p t).sget (fA w)).toNat ∧ s.engineQueue q = true ∧ s.itemsReady q = 0 ∧ s.Ready p t w .qtake) ∧
    (∃ p t : Nat, ∃ w : Word, ∃ s : State, ∃ slot q : Nat, (s.thr p t).wi = none ∧ (s.thr p t).park = false ∧ s.alive (pQM 0) = true ∧ s.holdSlot p t = some slot ∧ q = ((s.thr p t).sget (fA w)).toNat ∧ s.engineQueue q = true ∧ s.itemsReady q = 0 ∧ s.Ready p t w .qtry) ∧
    (∃ r : (Nat → Nat → Instr) × SwOp, ∃ p t : Nat, ∃ w : Word, ∃ s : State, r ∈ ([(.qtake, .qtake), (.qtry, .qtry)] : List _) ∧ s.Ready p t w r.2 ∧ (s.thr p t).wi = none ∧ (s.thr p t).park = true) ∧
    (∃ r : (Nat → Nat → Instr) × SwOp, ∃ p t : Nat, ∃ w : Word, ∃ s : State, r ∈ ([(.qtake, .qtake), (.qtry, .qtry)] : List _) ∧ s.Ready p t w r.2 ∧ (s.thr p t).wi = none ∧ (s.thr p t).park = false ∧ s.alive (pQM 0) = true ∧ s.engineQueue ((s.thr p t).sget (fA w)).toNat = false) ∧
    (∃ r : (Nat → Nat → Instr) × SwOp, ∃ p t : Nat, ∃ w : Word, ∃ s : State, ∃ q : Nat, r ∈ ([(.qpush, .qpush), (.qpushnb, .qpushnb)] : List _) ∧ (∀ i, (s.thr p t).wi = some i → s.holdMatches i.handle i.epoch = true) ∧ s.Ready p t w r.2 ∧ s.alive (pQM 0) = true ∧ q = ((s.thr p t).sget (fA w)).toNat ∧ s.engineQueue q = true ∧ (s.qView q).full = false ∧ s.qm.cache.length < 16384) ∧
    (∃ r : (Nat → Nat → Instr) × SwOp, ∃ p t : Nat, ∃ w : Word, ∃ s : State, ∃ q : Nat, r ∈ ([(.qpush, .qpush), (.qpushnb, .qpushnb)] : List _) ∧ (∀ i, (s.thr p t).wi = some i → s.holdMatches i.handle i.epoch = true) ∧ s.Ready p t w r.2 ∧ s.alive (pQM 0) = true ∧ q = ((s.thr p t).sget (fA w)).toNat ∧ s.engineQueue q = false) ∧
    (∃ p t : Nat, ∃ w : Word, ∃ s : State, ∃ q : Nat, (∀ i, (s.thr p t).wi = some i → s.holdMatches i.handle i.epoch = true) ∧ s.alive (pQM 0) = true ∧ q = ((s.thr p t).sget (fA w)).toNat ∧ s.engineQueue q = true ∧ (s.qView q).full = true ∧ s.Ready p t w .qpush) ∧
    (∃ p t : Nat, ∃ w : Word, ∃ s : State, ∃ q : Nat, (∀ i, (s.thr p t).wi = some i → s.holdMatches i.handle i.epoch = true) ∧ s.alive (pQM 0) = true ∧ q = ((s.thr p t).sget (fA w)).toNat ∧ s.engineQueue q = true ∧ (s.qView q).full = true ∧ s.Ready p t w .qpushnb) ∧
    (∃ p t : Nat, ∃ w : Word, ∃ s : State, ∃ i : WorkItem, s.alive (pQM 0) = true ∧ (s.thr p t).wi = some i ∧ s.holdMatches i.handle i.epoch = true ∧ s.Ready p t w .qdone) ∧
    (∃ p t : Nat, ∃ w : Word, ∃ s : State, ∃ i : WorkItem, s.alive (pQM 0) = true ∧ (s.thr p t).wi = some i ∧ s.holdMatches i.handle i.epoch = true ∧ s.Ready p t w .qrel) ∧
    (∃ p t : Nat, ∃ w : Word, ∃ s : State, ∃ i : WorkItem, s.alive (pQM 0) = true ∧ (s.thr p t).wi = some i ∧ s.holdMatches i.handle i.epoch = false ∧ s.Ready p t w .qdone) ∧
    (∃ p t : Nat, ∃ w : Word, ∃ s : State, ∃ i : WorkItem, s.alive (pQM 0) = true ∧ (s.thr p t).wi = some i ∧ s.holdMatches i.handle i.epoch = false ∧ s.Ready p t w .qrel) ∧
    (∃ p t : Nat, ∃ w : Word, ∃ s : State, ∃ i : WorkItem, s.alive (pQM 0) = true ∧ (s.thr p t).wi = some i ∧ s.holdMatches i.handle i.epoch = false ∧ s.Ready p t w .qpush) ∧
    (∃ p t : Nat, ∃ w : Word, ∃ s : State, s.Ready p t w .qlevel ∧ s.qValid ((s.thr p t).sget (fA w)).toNat = true) :=
  ⟨⟨(Instr.qtake, SwOp.qtake), 5, 3, 0xC0611000, onQ 0x10 0xC0611000, 23, ((((onQ 0x10 0xC0611000).thr 5 3).sget (fA 0xC0611000)).toNat), by simp, by unfold State.Ready; decide +kernel⟩,
    ⟨5, 3, 0xC0611000, onQ 0x15 0xC0611000, 23, ((((onQ 0x15 0xC0611000).thr 5 3).sget (fA 0xC0611000)).toNat), by unfold State.Ready; decide +kernel⟩,
    ⟨5, 3, 0xC0611001, onQ 0x15 0xC0611001, 23, ((((onQ 0x15 0xC0611001).thr 5 3).sget (fA 0xC0611001)).toNat), by unfold State.Ready; decide +kernel⟩,
    ⟨(Instr.qtake, SwOp.qtake), 5, 3, 0xC0611000, onQ 0x10 0xC0611000 none true, by simp, by unfold State.Ready; decide +kernel⟩,
    ⟨(Instr.qtake, SwOp.qtake), 5, 3, 0xC0611000, onQ 0x99 0xC0611000, by simp, by unfold State.Ready; decide +kernel⟩,
    ⟨(Instr.qpush, SwOp.qpush), 5, 3, 0xC0611002, onQ 0x10 0xC0611002 (some item), ((((onQ 0x10 0xC0611002 (some item)).thr 5 3).sget (fA 0xC0611002)).toNat), by simp, wi_of (by decide +kernel), by unfold State.Ready; decide +kernel⟩,
    ⟨(Instr.qpush, SwOp.qpush), 5, 3, 0xC0611002, onQ 0x99 0xC0611002 (some item), ((((onQ 0x99 0xC0611002 (some item)).thr 5 3).sget (fA 0xC0611002)).toNat), by simp, wi_of (by decide +kernel), by unfold State.Ready; decide +kernel⟩,
    ⟨5, 3, 0xC0611002, onQ 0x13 0xC0611002 (some item), ((((onQ 0x13 0xC0611002 (some item)).thr 5 3).sget (fA 0xC0611002)).toNat), wi_of (by decide +kernel), by unfold State.Ready; decide +kernel⟩,
    ⟨5, 3, 0xC0611003, onQ 0x13 0xC0611003 (some item), ((((onQ 0x13 0xC0611003 (some item)).thr 5 3).sget (fA 0xC0611003)).toNat), wi_of (by decide +kernel), by unfold State.Ready; decide +kernel⟩,
    ⟨5, 3, 0xC0600004, onQ 0x10 0xC0600004 (some item), item, by unfold State.Ready; decide +kernel⟩,
    ⟨5, 3, 0xC0600005, onQ 0x10 0xC0600005 (some item), item, by unfold State.Ready; decide +kernel⟩,
    ⟨5, 3, 0xC0600004, stale 0xC0600004, item, by unfold State.Ready; decide +kernel⟩,
    ⟨5, 3, 0xC0600005, stale 0xC0600005, item, by unfold State.Ready; decide +kernel⟩,
    ⟨5, 3, 0xC0611002, stale 0xC0611002, item, by unfold State.Ready; decide +kernel⟩,
    ⟨5, 3, 0xC0610006, onQ 0x10 0xC0610006, by unfold State.Ready; decide +kernel⟩⟩

/-- States and operands that meet the hypotheses of SwarmDmaAndSync, clause by clause. -/
theorem wit_SwarmDmaAndSync :
    (∃ p t : Nat, ∃ w : Word, ∃ s : State, ∃ a : Nat, s.Ready p t w .dmaq ∧ a = ((s.thr p t).sget (fA w)).toNat ∧ a % 32 = 0 ∧ a + 32 ≤ 0x20000 ∧ (s.thr p t).dmaHalted = false ∧ (s.pageRt (pENG p)).inject = 0 ∧ (s.thr p t).dmaQ.length < 8) ∧
    (∃ p t : Nat, ∃ w : Word, ∃ s : State, ∃ a : Nat, s.Ready p t w .dmaq ∧ a = ((s.thr p t).sget (fA w)).toNat ∧ a % 32 = 0 ∧ a + 32 ≤ 0x20000 ∧ (s.thr p t).dmaHalted = false ∧ (s.pageRt (pENG p)).inject = 0 ∧ 8 ≤ (s.thr p t).dmaQ.length) ∧
    (∃ p t : Nat, ∃ w : Word, ∃ s : State, ∃ k : Nat, k = ((s.thr p t).sget (fA w)).toNat ∧ s.Ready p t w .dmaw ∧ (s.thr p t).upTo k = false) ∧
    (∃ p t : Nat, ∃ w : Word, ∃ s : State, ∃ k : Nat, k = ((s.thr p t).sget (fA w)).toNat ∧ s.Ready p t w .dmaw ∧ (s.thr p t).upTo k = true) ∧
    (∃ p t : Nat, ∃ w : Word, ∃ s : State, ∃ k : Nat, k = ((s.thr p t).sget (fA w)).toNat ∧ s.Ready p t w .dmat) ∧
    (∃ p t : Nat, ∃ w : Word, ∃ s : State, s.Ready p t w .dmarst) ∧
    (∃ p t : Nat, ∃ w : Word, ∃ s : State, ∃ k : Nat, s.Ready p t w .bar ∧ s.homeOf p = some k ∧ s.alive (pCLUS k) = true ∧ s.fld (pCLUS k) (Off.clus_BAR_CFG0 + 4 * fB w) 0 6 ≤ s.fld (pCLUS k) (Off.clus_BAR_STAT0 + 4 * fB w) 0 6 + 1) ∧
    (∃ p t : Nat, ∃ w : Word, ∃ s : State, ∃ k : Nat, s.Ready p t w .bar ∧ s.homeOf p = some k ∧ s.alive (pCLUS k) = true ∧ s.fld (pCLUS k) (Off.clus_BAR_STAT0 + 4 * fB w) 0 6 + 1 < s.fld (pCLUS k) (Off.clus_BAR_CFG0 + 4 * fB w) 0 6) ∧
    (∃ p t : Nat, ∃ w : Word, ∃ s : State, s.Ready p t w .sigev) ∧
    (∃ p t : Nat, ∃ w : Word, ∃ s : State, s.Ready p t w .waitev ∧ s.inBusy (pENG p) (fB w) = true) ∧
    (∃ p t : Nat, ∃ w : Word, ∃ s : State, s.Ready p t w .waitev ∧ s.inBusy (pENG p) (fB w) = false) ∧
    (∃ p t : Nat, ∃ w : Word, ∃ s : State, s.Ready p t w .testev) :=
  ⟨⟨5, 3, 0xC4610000, dmas 0xC4610000 0x1FFE0 7, ((((dmas 0xC4610000 0x1FFE0 7).thr 5 3).sget (fA 0xC4610000)).toNat), by unfold State.Ready; decide +kernel⟩,
    ⟨5, 3, 0xC4610000, dmas 0xC4610000 0x1FFE0 8, ((((dmas 0xC4610000 0x1FFE0 8).thr 5 3).sget (fA 0xC4610000)).toNat), by unfold State.Ready; decide +kernel⟩,
    ⟨5, 3, 0xC4610001, dmas 0xC4610001 0 1, ((((dmas 0xC4610001 0 1).thr 5 3).sget (fA 0xC4610001)).toNat), by unfold State.Ready; decide +kernel⟩,
    ⟨5, 3, 0xC4610001, dmas 0xC4610001 1 1, ((((dmas 0xC4610001 1 1).thr 5 3).sget (fA 0xC4610001)).toNat), by unfold State.Ready; decide +kernel⟩,
    ⟨5, 3, 0xC4610002, dmas 0xC4610002 0 1, ((((dmas 0xC4610002 0 1).thr 5 3).sget (fA 0xC4610002)).toNat), by unfold State.Ready; decide +kernel⟩,
    ⟨5, 3, 0xC4000003, at5 0xC4000003, by unfold State.Ready; decide +kernel⟩,
    ⟨5, 3, 0xC8607808, bar 4 3 0xC8607808, 0, by unfold State.Ready; decide +kernel⟩,
    ⟨5, 3, 0xC8607808, bar 4 2 0xC8607808, 0, by unfold State.Ready; decide +kernel⟩,
    ⟨5, 3, 0xC8001809, at5 0xC8001809, by unfold State.Ready; decide +kernel⟩,
    ⟨5, 3, 0xC800180A, (at5 0xC800180A).setBusy (pENG 5) 3 true, by unfold State.Ready; decide +kernel⟩,
    ⟨5, 3, 0xC800180A, at5 0xC800180A, by unfold State.Ready; decide +kernel⟩,
    ⟨5, 3, 0xC860180B, at5 0xC860180B, by unfold State.Ready; decide +kernel⟩⟩

/-- States and operands that meet the hypotheses of SwarmEngineCommands, clause by clause. -/
theorem wit_SwarmEngineCommands :
    (∃ m : Master, ∃ p t : Nat, ∃ s : State, s.Open m (pENG p) ∧ t = s.fld (pENG p) Off.eng_THR_SEL 0 2 ∧ (s.thr p t).st = 0 ∧ t < s.engThreads p ∧ (s.eng p).valid = true) ∧
    (∃ m : Master, ∃ p t : Nat, ∃ s : State, s.Open m (pENG p) ∧ t = s.fld (pENG p) Off.eng_THR_SEL 0 2 ∧ ((s.thr p t).st ≠ 0 ∨ s.engThreads p ≤ t ∨ (s.eng p).valid = false)) ∧
    (∃ p t : Nat, ∃ s : State, ∃ i : WorkItem, (s.thr p t).wi = some i ∧ s.fld (pENG p) Off.eng_WD_CFG 0 16 ≠ 0 ∧ i.timedOut = false ∧ i.since + s.fld (pENG p) Off.eng_WD_CFG 0 16 * 250 < s.now ∧ ((s.thr p t).st = 1 ∨ (s.thr p t).st = 2) ∧ s.engRuns p = true ∧ t < 4) ∧
    (∃ p : Nat, ∃ s : State, s.engRuns p = true ∧ s.anyRun p = true ∧ (s.eng p).lastRetire + 81920 ≤ s.engTime p) ∧
    (∃ p k : Nat, ∃ s : State, ∃ c : Nat, p < 272 ∧ k < 4 ∧ s.bit (pENG p) (Off.hdr_PG_EVT_IN0 + 4 * k) 8 = true ∧ c = s.fld (pENG p) (Off.hdr_PG_EVT_IN0 + 4 * k) 0 8 ∧ s.alive (pENG p) = true ∧ s.inBusy (pENG p) k = false) ∧
    (∃ p t : Nat, ∃ s : State, ∃ r : DmaReq, ∃ rest : List DmaReq, (s.thr p t).dmaQ = r :: rest ∧ s.engRuns p = true ∧ t < 4 ∧ r.bad = false ∧ s.dmaValid p (dmaDesc r.desc) = true) ∧
    (∃ p t : Nat, ∃ s : State, ∃ r : DmaReq, ∃ rest : List DmaReq, (s.thr p t).dmaQ = r :: rest ∧ s.engRuns p = true ∧ t < 4 ∧ r.bad = true) ∧
    (∃ p t : Nat, ∃ s : State, ∃ r : DmaReq, ∃ rest : List DmaReq, (s.thr p t).dmaQ = r :: rest ∧ s.engRuns p = true ∧ t < 4 ∧ r.bad = false ∧ s.dmaValid p (dmaDesc r.desc) = false) ∧
    (∃ p t : Nat, ∃ s : State, ∃ d k : Nat, t < 4 ∧ s.engRuns p = true ∧ (s.thr p t).st = 2 ∧ (s.thr p t).wait = some (.dmaw d k) ∧ (s.thr p t).upTo k = false) ∧
    (∃ p t : Nat, ∃ s : State, ∃ k : Nat, t < 4 ∧ s.engRuns p = true ∧ (s.thr p t).st = 2 ∧ (s.thr p t).wait = some (.event k) ∧ s.inBusy (pENG p) k = true) ∧
    (∃ m : Master, ∃ k : Nat, ∃ v : Word, ∃ s : State, s.Open m (pCLUS k) ∧ bitAt v 8 = true ∧ s.bit (pCLUS k) Off.clus_LOAD_STAT 0 = false) ∧
    (∃ m : Master, ∃ k : Nat, ∃ v : Word, ∃ s : State, s.Open m (pCLUS k) ∧ bitAt v 8 = true ∧ s.bit (pCLUS k) Off.clus_LOAD_STAT 0 = true) ∧
    (∃ k : Nat, ∃ s : State, ∃ acc src : Nat, k < 34 ∧ Map.get (fun _ => none) s.swarm.load k = some (acc, src) ∧ s.alive (pCLUS k) = true) ∧
    (∃ m : Master, ∃ k : Nat, ∃ v : Word, ∃ s : State, s.Open m (pCLUS k) ∧ bitAt v 8 = true ∧ k < 34 ∧ s.logOf (8 * k + wfld v 0 3) = none ∧ (s.health (8 * k + wfld v 0 3)).retired = false ∧ s.bit (pCLUS k) Off.clus_BIST_STAT 0 = false) ∧
    (∃ m : Master, ∃ k : Nat, ∃ v : Word, ∃ s : State, s.Open m (pCLUS k) ∧ bitAt v 8 = true ∧ k < 34 ∧ (s.logOf (8 * k + wfld v 0 3)).isSome = true) :=
  ⟨⟨.host, 5, ((S [(pENG 5, Off.eng_THR_SEL, 3), (pENG 5, Off.eng_CTRL, 4)] (at5 0 fun x => { x with st := 0 })).fld (pENG 5) Off.eng_THR_SEL 0 2), S [(pENG 5, Off.eng_THR_SEL, 3), (pENG 5, Off.eng_CTRL, 4)] (at5 0 fun x => { x with st := 0 }), by unfold State.Open; decide +kernel⟩,
    ⟨.host, 5, ((S [(pENG 5, Off.eng_THR_SEL, 3), (pENG 5, Off.eng_CTRL, 4)] (at5 0)).fld (pENG 5) Off.eng_THR_SEL 0 2), S [(pENG 5, Off.eng_THR_SEL, 3), (pENG 5, Off.eng_CTRL, 4)] (at5 0), by unfold State.Open; decide +kernel⟩,
    ⟨5, 3, S [(pENG 5, Off.eng_WD_CFG, 1000)] (at5 0 fun x => { x with wi := some item }), item, by decide +kernel⟩,
    ⟨5, (at5 0).modEng 5 fun e => { e with lastRetire := 1000000000 - 820 }, by decide +kernel⟩,
    ⟨271, 3, S [(pENG 271, Off.hdr_PG_EVT_IN0 + 12, 0x1FF)] live, 0xFF, by decide +kernel⟩,
    ⟨5, 3, head fill, fill, [], by decide +kernel⟩,
    ⟨5, 3, head { fill with bad := true }, { fill with bad := true }, [], by decide +kernel⟩,
    ⟨5, 3, head { fill with desc := [] }, { fill with desc := [] }, [], by decide +kernel⟩,
    ⟨5, 3, waits (.dmaw 7 3), 7, 3, by decide +kernel⟩,
    ⟨5, 3, waits (.event 3), 3, by decide +kernel⟩,
    ⟨.host, 33, 0x100, live, by unfold State.Open; decide +kernel⟩,
    ⟨.host, 33, 0x100, S [(pCLUS 33, Off.clus_LOAD_STAT, 1)] live, by unfold State.Open; decide +kernel⟩,
    ⟨33, live.onSwarm fun x => { x with load := [(33, some (5, 0x1000000000))] }, 5, 0x1000000000, by decide +kernel⟩,
    ⟨.host, 33, 0x107, at5 0, by unfold State.Open; decide +kernel⟩,
    ⟨.host, 0, 0x107, at5 0, by unfold State.Open; decide +kernel⟩⟩

end Swarm2

namespace Time

def waits (c b : Nat) : State :=
  live.onFab fun m => Map.put (fun _ => {}) m 3 { wait := [⟨3, 5, 3, 64, 0⟩, ⟨0, 6, 3, 64, 1⟩, ⟨c, 7, 3, 64, 2⟩], sinceBulk := b, arrivals := 9 }
def bulk : State :=
  live.onFab fun m => Map.put (fun _ => {}) m 3 { wait := [⟨3, 5, 3, 64, 0⟩, ⟨2, 6, 3, 64, 1⟩], sinceBulk := 14, arrivals := 2 }
def fen : State := live.putBit 0x60 Off.hdr_PG_STAT 1 true
def latched : State := { live with latch := [(rg pTIMEBASE 0x104, some 5)] }
def timeCtrl (v : Word) : State := S [(pTIMEBASE, Off.timebase_TIME_CTRL, v), (pTIMEBASE, 0x120, 5), (pTIMEBASE, 0x128, 777)] live
def enc (mode : Word) : State := S [(pDIST, 0x200, mode), (pDIST, 0x100, 1)] (live.modEncoder 0 fun x => { x with sinceIndex := some 12, b := true })
def slip (d a : Option Nat) : State := S [(pDIST, 0x100, 0x91)] (live.modDist 0 fun x => { x with disagree := d, agree := a })
def skid : State := (slip (some 5) none).modEncoder 0 fun x => { x with edges := [(4000000000, 64), (3990000000, 0)], lastEdge := some 1000000000 }
def ph (st : Nat) (f : Phase → Phase) : State := (S [(pPHASE, 0x100, 1), (pPHASE, 0x140, 2), (pPHASE, 0x11C, wd st)] live).modPhase 0 f
def cue (r mode lead : Word) : State :=
  S [(pCUE 2, 0x110, r * 256 + mode), (pCUE 2, 0x114, 5), (pCUE 2, 0x11C, lead), (pCUE 2, Off.cue_CUE_SEL, 7)] live
def due : Cue := { ctrl := 0x01070001, target := 2 ^ 24 + 50, lead := 60, status := 0xFFFF0001, seen := some 4 }
def one : State := (live.putBit pTIMEBASE Off.timebase_TIME_STAT 0 true).onTb fun t => { t with time := 2 ^ 40, cues := [(700, due)] }

/-- States and operands that meet the hypotheses of FabricGrantOrder, clause by clause. -/
theorem wit_FabricGrantOrder :
    (∃ n : Nat, ∃ s : State, ∃ r : FabReq, r ∈ (s.arb n).wait ∧ (∀ x ∈ (s.arb n).wait, s.fenced x.page = false) ∧ (16 ≤ n ∨ (s.arb n).sinceBulk < 15 ∨ (∀ x ∈ (s.arb n).wait, x.cls ≠ 3)) ∧ (∀ x ∈ (s.arb n).wait, x ≠ r → s.fabGroup r < s.fabGroup x ∨ s.fabGroup r = s.fabGroup x ∧ r.age < x.age)) ∧
    (∃ n : Nat, ∃ s : State, ∃ r : FabReq, n < 16 ∧ r ∈ (s.arb n).wait ∧ r.cls = 3 ∧ (∀ x ∈ (s.arb n).wait, s.fenced x.page = false) ∧ 15 ≤ (s.arb n).sinceBulk ∧ (∀ x ∈ (s.arb n).wait, x.cls = 3 → x ≠ r → r.age < x.age)) ∧
    (∃ n : Nat, ∃ x : Traffic, ∃ s : State, (s.arb n).wait = [] ∧ s.fenced (trafficPage x) = false) ∧
    (∃ n : Nat, ∃ x : Traffic, ∃ s : State, (s.arb n).wait = [] ∧ s.fenced (trafficPage x) = true) ∧
    (∃ s : State, ∃ p t : Nat, ∃ i, (s.thr p t).wi = some i) ∧
    (∃ s : State, ∃ p t : Nat, (s.thr p t).wi = none) ∧
    (∃ s : State, ∃ n c : Nat, cfgSafety (s.pctx (ctxKey n c)).cfg = true) :=
  ⟨⟨3, bulk, ⟨2, 6, 3, 64, 1⟩, by decide +kernel⟩,
    ⟨3, waits 3 15, ⟨3, 5, 3, 64, 0⟩, by decide +kernel⟩,
    ⟨3, .block 0x60, live, by decide +kernel⟩,
    ⟨3, .block 0x60, fen, by decide +kernel⟩,
    ⟨live.modThr 3 9 fun x => { x with wi := some { handle := 0, epoch := 0, queue := 5, cls := 2, since := 7 } }, 3, 9, { handle := 0, epoch := 0, queue := 5, cls := 2, since := 7 }, by decide +kernel⟩,
    ⟨live, 3, 3, by decide +kernel⟩,
    ⟨live.modPctx (ctxKey 3 9) fun c => { c with cfg := [0xFFFFFFFF, 0xFFFFFFFF, 0xFFFFFFFF] }, 3, 9, by decide +kernel⟩⟩

/-- States and operands that meet the hypotheses of ReservationsAndLanes, clause by clause. -/
theorem wit_ReservationsAndLanes :
    (∃ m : Master, ∃ n : Nat, ∃ v : Word, ∃ s : State, s.Open m pDRAMCOM ∧ n < 16 ∧ wfld v 0 8 + wfld v 8 8 ≤ 154) ∧
    (∃ m : Master, ∃ n : Nat, ∃ v : Word, ∃ s : State, s.Open m pDRAMCOM ∧ n < 16 ∧ 154 < wfld v 0 8 + wfld v 8 8) ∧
    (∃ m : Master, ∃ n : Nat, ∃ v : Word, ∃ s : State, (wfld v 0 3 = 0 ∨ (wfld v 0 3 = 1 ∧ wfld v 8 8 < 16 ∧ ∀ l < 192, l ≠ n → ¬ (s.fld (pSWIFT l) Off.swift_LANE_CFG 0 3 = 1 ∧ s.fld (pSWIFT l) Off.swift_LANE_CFG 8 8 = wfld v 8 8))) ∧ s.Open m (pSWIFT n) ∧ n < 192 ∧ s.laneRunning n = false ∧ s.fld (pSWIFT n) Off.swift_LANE_CFG 0 3 = 0 ∧ wfld v 16 4 ≤ 13 ∧ bitAt v 20 = false) ∧
    (∃ m : Master, ∃ n : Nat, ∃ v : Word, ∃ s : State, s.Open m (pSWIFT n) ∧ n < 192 ∧ s.laneRunning n = false ∧ (4 ≤ wfld v 0 3 ∨ (bitAt v 20 = true ∧ wfld v 0 3 ≠ 3) ∨ (wfld v 0 3 = 2 ∧ 66 ≤ n) ∨ (wfld v 0 3 = 2 ∧ 16 ≤ n ∧ 4 ≤ n % 6))) :=
  ⟨⟨.host, 15, 0x9A00, live, by unfold State.Open; decide +kernel⟩,
    ⟨.host, 15, 0x9B00, live, by unfold State.Open; decide +kernel⟩,
    ⟨.host, 15, 0x000D0F01, live, by decide +kernel, by unfold State.Open; decide +kernel⟩,
    ⟨.host, 191, 0x2, live, by unfold State.Open; decide +kernel⟩⟩

/-- States and operands that meet the hypotheses of RulerLowWordLatches, clause by clause. -/
theorem wit_RulerLowWordLatches :
    (∃ r ∈ rulerWords, ∃ m : Master, ∃ s : State, s.Shows m r.1 ∧ Map.get (fun _ => none) s.latch (rg r.1 r.2.1) = none) ∧
    (∃ r ∈ rulerWords, ∃ m : Master, ∃ s : State, ∃ o ∈ r.2.2, ∃ w, s.Shows m r.1 ∧ Map.get (fun _ => none) s.latch (rg r.1 o) = some w) :=
  ⟨⟨((rulerWords)[0]'(by decide)), List.getElem_mem _, .host, live, shows_of (by decide +kernel) rfl, by decide +kernel⟩,
    ⟨((rulerWords)[0]'(by decide)), List.getElem_mem _, .host, latched, ((((rulerWords)[0]'(by decide)).2.2)[0]'(by decide)), List.getElem_mem _, 5, shows_of (by decide +kernel) rfl, by decide +kernel⟩⟩

/-- States and operands that meet the hypotheses of TimebaseCommands, clause by clause. -/
theorem wit_TimebaseCommands :
    (∃ s : State, s.reg pTIMEBASE Off.timebase_RATE_ADJ = 0 ∧ s.tb.timeRem < 1000000) ∧
    (∃ m : Master, ∃ v : Word, ∃ s : State, s.Open m pTIMEBASE ∧ bitAt v 0 = true) ∧
    (∃ s : State, s.inBusy pTIMEBASE 0 = true) ∧
    (∃ m : Master, ∃ v : Word, ∃ s : State, ∃ n : Nat, s.Open m pTIMEBASE ∧ bitAt v 0 = true ∧ n = (s.reg64 pTIMEBASE Off.timebase_TIME_SET_SEC_LO Off.timebase_TIME_SET_SEC_HI * 1000000000 + (s.reg pTIMEBASE Off.timebase_TIME_SET_NS).toNat) * 65536 ∧ s.bit pTIMEBASE Off.timebase_TIME_CTRL 0 = false) ∧
    (∃ m : Master, ∃ v : Word, ∃ s : State, ∃ n : Nat, s.Open m pTIMEBASE ∧ bitAt v 0 = true ∧ n = (s.reg64 pTIMEBASE Off.timebase_TIME_SET_SEC_LO Off.timebase_TIME_SET_SEC_HI * 1000000000 + (s.reg pTIMEBASE Off.timebase_TIME_SET_NS).toNat) * 65536 ∧ s.bit pTIMEBASE Off.timebase_TIME_CTRL 0 = true) ∧
    (∃ m : Master, ∃ s : State, s.Open m pTIMEBASE) :=
  ⟨⟨live, by decide +kernel⟩,
    ⟨.host, 1, live, by unfold State.Open; decide +kernel⟩,
    ⟨live.setBusy pTIMEBASE 0 true, by decide +kernel⟩,
    ⟨.host, 1, timeCtrl 0, 5000000777 * 65536, by unfold State.Open; decide +kernel⟩,
    ⟨.host, 1, timeCtrl 1, 5000000777 * 65536, by unfold State.Open; decide +kernel⟩,
    ⟨.host, timeCtrl 0, by unfold State.Open; decide +kernel⟩⟩

/-- States and operands that meet the hypotheses of DistRulers, clause by clause. -/
theorem wit_DistRulers :
    (∃ e : Nat, ∃ a b : Bool, ∃ s : State, e < 8 ∧ s.alive pDIST = true ∧ s.bit pDIST (eOff e Off.dist_ENC_CFG) 2 = false ∧ s.encMode e = 1 ∧ a ≠ (s.enc e).a ∧ b = (s.enc e).b) ∧
    (∃ e : Nat, ∃ a b : Bool, ∃ s : State, e < 8 ∧ s.alive pDIST = true ∧ s.bit pDIST (eOff e Off.dist_ENC_CFG) 2 = false ∧ s.encMode e = 1 ∧ a = (s.enc e).a ∧ b ≠ (s.enc e).b) ∧
    (∃ e : Nat, ∃ a b : Bool, ∃ s : State, e < 8 ∧ s.alive pDIST = true ∧ s.bit pDIST (eOff e Off.dist_ENC_CFG) 2 = false ∧ s.encMode e = 1 ∧ a ≠ (s.enc e).a ∧ b ≠ (s.enc e).b) ∧
    (∃ e : Nat, ∃ a : Bool, ∃ s : State, e < 8 ∧ s.alive pDIST = true ∧ s.bit pDIST (eOff e Off.dist_ENC_CFG) 2 = false ∧ s.encMode e = 2 ∧ a = true ∧ (s.enc e).a = false) ∧
    (∃ e : Nat, ∃ a : Bool, ∃ s : State, e < 8 ∧ s.alive pDIST = true ∧ s.bit pDIST (eOff e Off.dist_ENC_CFG) 2 = false ∧ s.encMode e = 3 ∧ a = true ∧ (s.enc e).a = false) ∧
    (∃ e : Nat, ∃ s : State, e < 8 ∧ s.alive pDIST = true ∧ s.bit pDIST (eOff e Off.dist_ENC_CFG) 2 = false ∧ s.encMode e = 0) ∧
    (∃ e n r : Nat, ∃ s : State, e < 8 ∧ s.alive pDIST = true ∧ (s.enc e).i = false ∧ (s.enc e).sinceIndex = some n ∧ s.encRev e = some r) ∧
    (∃ m : Master, ∃ d : Nat, ∃ s : State, s.Open m pDIST ∧ d < 4) ∧
    (∃ d : Nat, ∃ s : State, d < 4 ∧ s.alive pDIST = true ∧ s.bit pDIST (dOff d Off.dist_CFG) 0 = true ∧ (s.dist d).lastEdge + s.fld pDIST (dOff d Off.dist_EST_CFG) 16 16 * 250000 ≤ s.now) ∧
    (∃ d x : Nat, ∃ s v : State, d < 4 ∧ s.alive pDIST = true ∧ s.bit pDIST (dOff d Off.dist_CFG) 7 = true ∧ v = s.distCompare d ∧ x + s.fld pDIST (dOff d Off.dist_SLIP_CFG) 16 8 * 250000 ≤ s.now ∧ (v.dist d).disagree = some x ∧ s.fld pDIST (dOff d Off.dist_STATUS) 2 2 = 0) ∧
    (∃ d x : Nat, ∃ s v : State, d < 4 ∧ s.alive pDIST = true ∧ s.bit pDIST (dOff d Off.dist_CFG) 7 = true ∧ v = s.distCompare d ∧ x + s.fld pDIST (dOff d Off.dist_SLIP_CFG) 16 8 * 250000 ≤ s.now ∧ (v.dist d).agree = some x ∧ (v.dist d).disagree = none) :=
  ⟨⟨0, true, true, enc 1, by decide +kernel⟩,
    ⟨0, false, false, enc 1, by decide +kernel⟩,
    ⟨0, true, false, enc 1, by decide +kernel⟩,
    ⟨0, true, enc 2, by decide +kernel⟩,
    ⟨0, true, enc 3, by decide +kernel⟩,
    ⟨0, enc 0, by decide +kernel⟩,
    ⟨0, 12, 4096, enc 1, by decide +kernel⟩,
    ⟨.host, 3, enc 1, by unfold State.Open; decide +kernel⟩,
    ⟨0, enc 1, by decide +kernel⟩,
    ⟨0, 5, skid, skid, by decide +kernel⟩,
    ⟨0, 5, slip none (some 5), slip none (some 5), by decide +kernel⟩⟩

/-- States and operands that meet the hypotheses of PhaseRulers, clause by clause. -/
theorem wit_PhaseRulers :
    (∃ p i width : Nat, ∃ falling : Bool, ∃ s : State, p < 2 ∧ s.phaseRuns p = true ∧ s.fld pPHASE (phOff p Off.phase_CFG) 1 2 = i ∧ s.bit pPHASE (phOff p Off.phase_CFG) 3 = falling ∧ ¬ (s.fld pPHASE (phOff (1 - p) Off.phase_CFG) 1 2 = i ∧ s.bit pPHASE (phOff (1 - p) Off.phase_CFG) 3 = falling) ∧ width < s.fld pPHASE (phOff p Off.phase_FILTER) 0 16) ∧
    (∃ p i width : Nat, ∃ falling : Bool, ∃ s : State, p < 2 ∧ s.phaseRuns p = true ∧ s.fld pPHASE (phOff p Off.phase_CFG) 1 2 = i ∧ s.bit pPHASE (phOff p Off.phase_CFG) 3 = falling ∧ ¬ (s.fld pPHASE (phOff (1 - p) Off.phase_CFG) 1 2 = i ∧ s.bit pPHASE (phOff (1 - p) Off.phase_CFG) 3 = falling) ∧ s.fld pPHASE (phOff p Off.phase_FILTER) 0 16 ≤ width ∧ (s.phase p).lastCross = none ∧ (s.phaseState p = 0 ∨ s.phaseState p = 3)) ∧
    (∃ p i width : Nat, ∃ falling : Bool, ∃ s : State, p < 2 ∧ s.phaseRuns p = true ∧ s.fld pPHASE (phOff p Off.phase_CFG) 1 2 = i ∧ s.bit pPHASE (phOff p Off.phase_CFG) 3 = falling ∧ ¬ (s.fld pPHASE (phOff (1 - p) Off.phase_CFG) 1 2 = i ∧ s.bit pPHASE (phOff (1 - p) Off.phase_CFG) 3 = falling) ∧ s.fld pPHASE (phOff p Off.phase_FILTER) 0 16 ≤ width ∧ s.crossingExpected p = true ∧ s.phaseState p = 1 ∧ (signed 32 (s.phase p).val).natAbs < s.fld pPHASE (phOff p Off.phase_LOOP_CFG) 16 8 * 2 ^ 20 ∧ s.cycleMissed p = false ∧ s.fld pPHASE (phOff p Off.phase_LOOP_CFG) 8 4 ≤ (s.phase p).good + 1) ∧
    (∃ i : Nat, ∃ falling : Bool, ∃ s : State, (∀ p < 2, s.phaseRuns p = true → ¬ (s.fld pPHASE (phOff p Off.phase_CFG) 1 2 = i ∧ s.bit pPHASE (phOff p Off.phase_CFG) 3 = falling))) ∧
    (∃ p t : Nat, ∃ s : State, p < 2 ∧ s.phaseRuns p = true ∧ s.phaseState p = 2 ∧ (s.phase p).lastCross = some t ∧ 2 * s.phasePeriod p ≤ (s.now - t) * 4) ∧
    (∃ p : Nat, ∃ s : State, p < 2 ∧ s.phaseRuns p = true ∧ s.phaseState p = 3 ∧ (s.phase p).holdAt + s.fld pPHASE (phOff p Off.phase_FILTER) 24 8 * 250000000 ≤ s.now) :=
  ⟨⟨0, 0, 0, false, ph 1 id, by decide +kernel⟩,
    ⟨0, 0, 500, false, ph 0 id, by decide +kernel⟩,
    ⟨0, 0, 500, false, S [(pPHASE, 0x118, 3276800)] (ph 1 fun x => { x with lastCross := some 995000000, good := 16 }), by decide +kernel⟩,
    ⟨0, true, ph 1 id, by decide +kernel⟩,
    ⟨0, 5, S [(pPHASE, 0x118, 3276800)] ((ph 2 id).modPhase 0 fun x => { x with lastCross := some 5 }), by decide +kernel⟩,
    ⟨0, (ph 3 id).onNow fun _ => 10000000000, by decide +kernel⟩⟩

/-- States and operands that meet the hypotheses of CueCommands, clause by clause. -/
theorem wit_CueCommands :
    (∃ m : Master, ∃ k : Nat, ∃ s : State, s.Open m (pCUE k) ∧ k < 8 ∧ s.cmdBusy (pCUE k) Off.cue_CUE_CMD_STAT = false) ∧
    (∃ m : Master, ∃ k : Nat, ∃ s : State, ∃ q : Cue, s.Open m (pCUE k) ∧ k < 8 ∧ s.cmdBusy (pCUE k) Off.cue_CUE_CMD_STAT = false ∧ q = s.staged k ∧ s.cueReason (s.cueSel k) q = 0 ∧ cueMode q = 0) ∧
    (∃ m : Master, ∃ k : Nat, ∃ s : State, ∃ q : Cue, s.Open m (pCUE k) ∧ k < 8 ∧ s.cmdBusy (pCUE k) Off.cue_CUE_CMD_STAT = false ∧ q = s.staged k ∧ s.cueReason (s.cueSel k) q = 0 ∧ cueMode q ≠ 0 ∧ s.rulerValid (cueRuler q) = false) ∧
    (∃ m : Master, ∃ k : Nat, ∃ s : State, ∃ q : Cue, s.Open m (pCUE k) ∧ k < 8 ∧ s.cmdBusy (pCUE k) Off.cue_CUE_CMD_STAT = false ∧ q = s.staged k ∧ s.cueReason (s.cueSel k) q = 0 ∧ cueMode q = 1 ∧ cueRuler q = 0 ∧ s.rulerValid 0 = true ∧ s.mainOn = true ∧ q.target ≤ s.timeNs) ∧
    (∃ m : Master, ∃ k : Nat, ∃ s : State, ∃ q : Cue, s.Open m (pCUE k) ∧ k < 8 ∧ s.cmdBusy (pCUE k) Off.cue_CUE_CMD_STAT = false ∧ q = s.staged k ∧ (rulerCode (cueRuler q) = false ∨ (cueMode q = 2 ∧ q.step = 0) ∨ (cueMode q = 2 ∧ 8 ≤ cueRuler q ∧ cueRuler q < 12 ∧ ((cueDir q = 1 ∧ signed 64 q.step < 0) ∨ (cueDir q = 2 ∧ 0 < signed 64 q.step))) ∨ 1000000000 < q.lead ∨ cueMode q = 3 ∨ (cueAon q = true ∧ cueRuler q ≠ 0 ∧ ¬ (8 ≤ cueRuler q ∧ cueRuler q < 12)) ∨ (cueAon q = true ∧ 64 ≤ (s.tb.cues.filter fun e => e.1 != s.cueSel k && cueAon e.2).length))) ∧
    (∃ m : Master, ∃ k : Nat, ∃ s : State, ∃ c ∈ ([.load m k, .cueStore m k, .disarm m k, .clear m k] : List Instr), s.Open m (pCUE k) ∧ k < 8 ∧ s.cmdBusy (pCUE k) Off.cue_CUE_CMD_STAT = true) :=
  ⟨⟨.host, 2, cue 0 0 5, by unfold State.Open; decide +kernel⟩,
    ⟨.host, 2, cue 0 0 5, (cue 0 0 5).staged 2, by unfold State.Open; decide +kernel⟩,
    ⟨.host, 2, cue 0x41 1 5, (cue 0x41 1 5).staged 2, by unfold State.Open; decide +kernel⟩,
    ⟨.host, 2, ((cue 0 1 5).putBit pTIMEBASE Off.timebase_TIME_STAT 0 true).onTb fun t => { t with time := 2 ^ 50 }, (cue 0 1 5).staged 2, by unfold State.Open; decide +kernel⟩,
    ⟨.host, 2, cue 0 3 5, (cue 0 3 5).staged 2, by unfold State.Open; decide +kernel⟩,
    ⟨.host, 2, (cue 0 0 5).cmdStart (pCUE 2) Off.cue_CUE_CMD_STAT 4, ((([.load .host 2, .cueStore .host 2, .disarm .host 2, .clear .host 2] : List Instr))[0]'(by decide)), List.getElem_mem _, by unfold State.Open; decide +kernel⟩⟩

/-- States and operands that meet the hypotheses of OnceCueFires, clause by clause. -/
theorem wit_OnceCueFires :
    ∃ s : State, ∃ c : Nat, ∃ q : Cue, s.tb.cues = [(c, q)] ∧ q.due = none ∧ bitAt q.status 0 = true ∧ cueMode q = 1 ∧ cueRuler q = 0 ∧ c < 4096 ∧ s.alive (cuePage c) = true ∧ s.mainOn = true ∧ s.bit pTIMEBASE Off.timebase_TIME_STAT 0 = true ∧ q.seen.isSome = true ∧ q.target ≤ s.timeNs + q.lead ∧ bitAt q.ctrl 24 = true ∧ s.streams = [] :=
  ⟨one, 700, due, by decide +kernel⟩

end Time

namespace Cap

def strm (w : Words) (f : CapStream → CapStream) (s : State) : State := (s.onQm fun m => { m with scx := [(9, w)], scxKind := [(9, 1)] }).modStream 9 f
def words (kind idx vc dt h : Nat) : Words :=
  [wd (idx + kind * 64 + vc * 256 + dt * 65536 + 2 ^ 31), wd (8 + h * 65536), 0, 3, 0x10, 0x11, 0x1000, 0x10, wd 128, 0, wd (5 + 40 * 65536), 0, 0, 0, 3, 0, 7]
def csi (f : CapStream → CapStream) : State := S [(pSENS 3, Off.sens_CFG, 1 + 200 * 256)] (strm (words 0 3 2 0x2B 4) f live)
def dlk (st : Nat) (l : List (Nat × DlkPos)) : State :=
  S [(pDLK 3, 0x100, 1 + 1 * 16), (pDLK 3, 0x104, wd st), (pSWIFT 20, 0x100, 3 + 3 * 256 + 5 * 65536)] (live.onCap fun c => { c with pos := l.map fun e => (3 * 16 + e.1, e.2) })
def swap (sends : Nat) : State := (dlk 4 []).modDlk 3 fun x => { x with swap := some (2, 7, sends, 5) }
def msgs (f : Dlk → Dlk) : State :=
  S [(pDLK 3, 0x100, 17), (pDLK 3, 0x104, 3), (pDLK 3, Off.dlk_BC_CFG, 0x10064)] ((strm (words 1 3 2 0x2B 4) id live).modDlk 3 fun x => f { x with waitFs := 0, dt := [(2, 0x2B)], ping := some 4 })
def frm (lines : Nat) : CapFrame :=
  { num := 77, sensorFn := 5, timeFs := 4, distFs := 0, phaseFs := 0, psetId := 0, req := 0, applied := 0, expected := 0, embExp := 0, expMask := 0, expTol := 0, flags := 0, mem := true, buffer := 0x10000000, token := 3, lastLine := 100, lines := lines }
def desc (w : Words) (s : State) : State := S ((pINTAKE, Off.intake_STRM_SEL, 9) :: w.zipIdx.map fun e => (pINTAKE, 0x140 + 4 * e.2, e.1)) s
def seqL (r k : Bool) (w : List (Nat × Nat)) : SeqList := { ctx := 0, ptr := 5, req := 6, writes := (1, 2) :: w, data16 := false, retried := r, ack := some k }
def dat (l : List Nat) : DlkBlock := { DlkBlock.ofBytes l with sync := 1 }
def lines : List (List DlkBlock) := [[.ofBytes [0x2D, 2, 0, 0, 5, 0, 0], dat [1, 2, 3, 4, 5, 0, 0], .ofBytes [0x55, 2, 1, 2, 3, 4, 0]]]
def i3c (f : I3c → I3c) : State := S [(pSENS 8, Off.sens_I3C_CFG, 1)] (live.modI3c 4 f)
def kept (q : SeqList) : State := csi fun x => { x with seq := some q }

/-- States and operands that meet the hypotheses of SensorPorts, clause by clause. -/
theorem wit_SensorPorts :
    (∃ n vc dt : Nat, ∃ s : State, n < 64 ∧ s.alive (pSENS n) = true ∧ s.fld (pSENS n) Off.sens_CFG 0 2 ≠ 0 ∧ (dtAccepted dt = false ∨ 16 ≤ vc)) ∧
    (∃ n : Nat, ∃ s : State, ∃ e ∈ [ReadErr.clean, .corrected, .uncorrectable], n < 64 ∧ s.alive (pSENS n) = true ∧ s.fld (pSENS n) Off.sens_CFG 0 2 ≠ 0 ∧ s.fld (pSENS n) Off.sens_CFG 0 2 = 1 ∧ 150 < s.fld (pSENS n) Off.sens_CFG 8 10 ∧ s.bit (pSENS n) Off.sens_DESKEW 0 = false) ∧
    (∃ n vc dt : Nat, ∃ s : State, ∃ c, n < 64 ∧ s.alive (pSENS n) = true ∧ s.fld (pSENS n) Off.sens_CFG 0 2 ≠ 0 ∧ s.streams = [c] ∧ s.alive pINTAKE = true ∧ s.gangLead n = n ∧ vc < 16 ∧ capKind (s.scx c) = 0 ∧ capIndex (s.scx c) = n ∧ capVc (s.scx c) = vc ∧ dtAccepted dt = true ∧ 0x1E ≤ dt ∧ capDt (s.scx c) = dt ∧ s.gangSize n = 1 ∧ (s.stream c).losing = false ∧ (s.stream c).inq.length < capBufLines (s.scx c)) ∧
    (∃ n : Nat, ∃ s : State, s.alive (pSENS n) = true ∧ s.fld (pSENS n) Off.sens_CFG 0 2 = 1) ∧
    (∃ m : Master, ∃ n : Nat, ∃ s : State, s.Open m (pSENS (2 * n)) ∧ (s.i3c n).cmds.length < 32 ∧ (s.i3c n).cur.isSome = true) ∧
    (∃ m : Master, ∃ n : Nat, ∃ s : State, s.Open m (pSENS (2 * n)) ∧ s.fld (pSENS (2 * n)) Off.sens_I3C_CFG 0 2 ≠ 0 ∧ (s.i3c n).cur = none ∧ (s.i3c n).seq = [] ∧ (s.i3c n).cmds = []) ∧
    (∃ m : Master, ∃ n : Nat, ∃ s : State, s.Open m (pSENS (2 * n)) ∧ 32 ≤ (s.i3c n).cmds.length) ∧
    (∃ n : Nat, ∃ v : Word, ∃ s : State, (s.i3c n).cur = some (.firmware v) ∧ s.alive (pSENS (2 * n)) = true ∧ s.fld (pSENS (2 * n)) Off.sens_I3C_CFG 0 2 = 1 ∧ (bitAt v 24 = false ∨ cccSupported (wfld v 16 8) = true)) ∧
    (∃ n addr : Nat, ∃ s : State, s.alive (pSENS (2 * n)) = true ∧ s.fld (pSENS (2 * n)) Off.sens_I3C_CFG 0 2 = 1 ∧ addr % 128 ≠ 2) ∧
    (∃ n addr : Nat, ∃ s : State, s.alive (pSENS (2 * n)) = true ∧ s.fld (pSENS (2 * n)) Off.sens_I3C_CFG 0 2 = 1 ∧ addr % 128 = 2) :=
  ⟨⟨3, 3, 9, csi id, by decide +kernel⟩,
    ⟨3, csi id, (([ReadErr.clean, .corrected, .uncorrectable])[0]'(by decide)), List.getElem_mem _, by decide +kernel⟩,
    ⟨3, 2, 0x2B, csi id, 9, by decide +kernel⟩,
    ⟨3, csi id, by decide +kernel⟩,
    ⟨.host, 4, i3c fun x => { x with cur := some (.firmware 3) }, by unfold State.Open; decide +kernel⟩,
    ⟨.host, 4, i3c id, by unfold State.Open; decide +kernel⟩,
    ⟨.host, 4, i3c fun x => { x with cmds := List.replicate 32 5 }, by unfold State.Open; decide +kernel⟩,
    ⟨4, 0x300, i3c fun x => { x with cur := some (.firmware 0x300), cmds := [9] }, by decide +kernel⟩,
    ⟨4, 4, i3c id, by decide +kernel⟩,
    ⟨4, 0x82, i3c id, by decide +kernel⟩⟩

/-- States and operands that meet the hypotheses of DralekLanes, clause by clause. -/
theorem wit_DralekLanes :
    (∃ n p : Nat, ∃ s : State, ∃ hdrs, p < 14 ∧ s.alive (pDLK n) = true ∧ s.dlkState n = 1 ∧ 16 ≤ badHeaders hdrs) ∧
    (∃ n p : Nat, ∃ s : State, ∃ hdrs : List Nat, ∃ full : Bool, p < 14 ∧ n < 16 ∧ s.alive (pDLK n) = true ∧ s.dlkState n = 3 ∧ (s.dpos n p).active = true ∧ (s.dpos n p).pool = false ∧ (16 ≤ badHeaders hdrs ∨ full = true)) ∧
    (∃ n p : Nat, ∃ s : State, ∃ hdrs, p < 14 ∧ n < 16 ∧ s.alive (pDLK n) = true ∧ s.dlkState n = 3 ∧ (s.dpos n p).active = true ∧ (s.dpos n p).pool = false ∧ badHeaders hdrs < 16) ∧
    (∃ n p : Nat, ∃ s : State, p < 14 ∧ n < 16 ∧ s.alive (pDLK n) = true ∧ s.dlkState n = 3 ∧ (s.dpos n p).active = true ∧ (s.dpos n p).pool = false ∧ (s.dpos n p).lock = true ∧ (s.dpos n p).since + s.blockTicks n 16448 ≤ s.now) ∧
    (∃ n p l level : Nat, ∃ s : State, s.alive (pDLK n) = true ∧ s.dlkState n ≠ 0 ∧ s.dlkLane n p = some l ∧ 20 < level) ∧
    (∃ n p l level : Nat, ∃ s : State, s.alive (pDLK n) = true ∧ s.dlkState n ≠ 0 ∧ s.dlkLane n p = some l ∧ level ≤ 20) ∧
    (∃ n p l level : Nat, ∃ s : State, s.alive (pDLK n) = true ∧ s.dlkState n ≠ 0 ∧ s.dlkLane n p = some l ∧ level < 4) ∧
    (∃ n p : Nat, ∃ b : DlkBlock, ∃ s : State, p < 14 ∧ s.alive (pDLK n) = true ∧ s.dlkState n ≠ 0 ∧ b.control = true ∧ b.valid = false) ∧
    (∃ n p bip : Nat, ∃ b : DlkBlock, ∃ s : State, p < 14 ∧ s.alive (pDLK n) = true ∧ s.dlkState n ≠ 0 ∧ b.control = true ∧ b.valid = true ∧ b.byte 0 = 0x4B ∧ s.dlkState n = 2 ∧ bip ≤ s.fld (pDLK n) Off.dlk_FAIL_CFG 0 8 ∧ (∀ q < 14, (s.dpos n q).active = true ↔ q = p)) ∧
    (∃ n lane q sends t : Nat, ∃ s : State, s.dlkState n = 4 ∧ (s.dlk n).swap = some (lane, q, sends, t) ∧ t + s.fourMarkers n ≤ s.now ∧ sends < 3) ∧
    (∃ n lane q sends t : Nat, ∃ s : State, s.dlkState n = 4 ∧ (s.dlk n).swap = some (lane, q, sends, t) ∧ t + s.fourMarkers n ≤ s.now ∧ 3 ≤ sends) ∧
    (∃ n p : Nat, ∃ s : State, p < 14 ∧ s.alive (pDLK n) = true ∧ s.dlkMap n p = 14 ∧ (s.dpos n p).lock = true ∧ 16 ≤ (s.dpos n p).clean) ∧
    (∃ m : Master, ∃ n : Nat, ∃ s : State, s.Open m (pDLK n) ∧ n < 16 ∧ s.dlkState n = 0 ∧ s.bit (pDLK n) Off.dlk_CFG 0 = false) ∧
    (∃ m : Master, ∃ n : Nat, ∃ s : State, s.Open m (pDLK n) ∧ n < 16 ∧ s.bit (pDLK n) Off.dlk_CFG 0 = true) :=
  ⟨⟨3, 3, dlk 1 [], List.replicate 16 0, by decide +kernel⟩,
    ⟨3, 5, dlk 3 [(5, { active := true, lock := true })], List.replicate 16 0, false, by decide +kernel⟩,
    ⟨3, 5, dlk 3 [(5, { active := true, lock := true })], [], by decide +kernel⟩,
    ⟨3, 5, dlk 3 [(5, { active := true, lock := true })], by decide +kernel⟩,
    ⟨3, 5, 20, 21, dlk 3 [(5, { active := true })], by decide +kernel⟩,
    ⟨3, 5, 20, 3, dlk 3 [(5, { active := true })], by decide +kernel⟩,
    ⟨3, 5, 20, 3, dlk 3 [(5, { active := true })], by decide +kernel⟩,
    ⟨3, 3, ⟨2, 0, 7⟩, dlk 2 [(5, { active := true, lock := true })], by decide +kernel⟩,
    ⟨3, 5, 3, .ofBytes [0x4B, 5, 9, 1, 77, 1, 0], dlk 2 [(5, { active := true, lock := true })], by decide +kernel⟩,
    ⟨3, 2, 7, 2, 5, swap 2, by decide +kernel⟩,
    ⟨3, 2, 7, 3, 5, swap 3, by decide +kernel⟩,
    ⟨3, 5, S [(pDLK 3, Off.dlk_MAP_LO, 0x00E00000)] (dlk 3 [(5, { lock := true, clean := 16 })]), by decide +kernel⟩,
    ⟨.host, 3, S [(pDLK 3, 0x100, 0)] (dlk 0 []), by unfold State.Open; decide +kernel⟩,
    ⟨.host, 3, dlk 3 [], by unfold State.Open; decide +kernel⟩⟩

/-- States and operands that meet the hypotheses of DralekTraffic, clause by clause. -/
theorem wit_DralekTraffic :
    (∃ n vc : Nat, ∃ b : DlkBlock, ∃ s : State, ∃ c, n < 16 ∧ s.alive (pDLK n) = true ∧ s.dlkState n = 3 ∧ b.control = true ∧ s.streams = [c] ∧ s.alive pINTAKE = true ∧ capKind (s.scx c) = 1 ∧ capIndex (s.scx c) = n ∧ capVc (s.scx c) = vc ∧ b.valid = true ∧ b.byte 1 % 16 = vc ∧ b.byte 0 = 0x33) ∧
    (∃ n vc : Nat, ∃ b : DlkBlock, ∃ s : State, ∃ c, n < 16 ∧ s.alive (pDLK n) = true ∧ s.dlkState n = 3 ∧ b.control = true ∧ s.streams = [c] ∧ s.alive pINTAKE = true ∧ capKind (s.scx c) = 1 ∧ capIndex (s.scx c) = n ∧ capVc (s.scx c) = vc ∧ b.valid = true ∧ b.byte 1 % 16 = vc ∧ b.byte 0 = 0x66 ∧ (s.dlk n).waitFs.testBit vc = false) ∧
    (∃ n : Nat, ∃ b : DlkBlock, ∃ s : State, n < 16 ∧ s.alive (pDLK n) = true ∧ s.dlkState n = 3 ∧ b.control = true ∧ b.valid = false) ∧
    (∃ n k vc c : Nat, ∃ lanes : List (List DlkBlock), ∃ bytes : List Nat, ∃ bad : Bool, ∃ s : State, n < 16 ∧ s.alive (pDLK n) = true ∧ s.dlkState n = 3 ∧ s.streams = [c] ∧ s.alive pINTAKE = true ∧ capKind (s.scx c) = 1 ∧ capIndex (s.scx c) = n ∧ capVc (s.scx c) = vc ∧ (∀ b ∈ s.dlkGroup n k lanes, b.control = true → b.valid = true ∧ b.byte 0 ≠ 0x99) ∧ dlkLineOf (s.dlkGroup n k lanes) = some (vc, bytes, bad) ∧ (s.dlk n).waitFs.testBit vc = true) ∧
    (∃ n k vc c : Nat, ∃ lanes : List (List DlkBlock), ∃ bytes : List Nat, ∃ bad : Bool, ∃ s : State, n < 16 ∧ s.alive (pDLK n) = true ∧ s.dlkState n = 3 ∧ s.streams = [c] ∧ s.alive pINTAKE = true ∧ capKind (s.scx c) = 1 ∧ capIndex (s.scx c) = n ∧ capVc (s.scx c) = vc ∧ (∀ b ∈ s.dlkGroup n k lanes, b.control = true → b.valid = true ∧ b.byte 0 ≠ 0x99) ∧ dlkLineOf (s.dlkGroup n k lanes) = some (vc, bytes, bad) ∧ (s.dlk n).waitFs.testBit vc = false ∧ Map.get (fun _ => 0) (s.dlk n).dt vc = capDt (s.scx c) ∧ capDt (s.scx c) ≠ 0x12 ∧ (s.stream c).losing = false ∧ (s.stream c).inq.length < capBufLines (s.scx c)) ∧
    (∃ n : Nat, ∃ b : DlkBlock, ∃ s : State, n < 16 ∧ s.alive (pDLK n) = true ∧ s.dlkState n = 3 ∧ b.control = true ∧ b.valid = true ∧ b.byte 0 = 0x99 ∧ (b.byte 1 = 0x82 ∨ 0xA0 ≤ b.byte 1 ∨ (b.byte 1 = 0x81 ∧ 0x80 ≤ b.byte 2)) ∧ (s.dlk n).rx.length < 16) ∧
    (∃ n : Nat, ∃ b : DlkBlock, ∃ s : State, n < 16 ∧ s.alive (pDLK n) = true ∧ s.dlkState n = 3 ∧ b.control = true ∧ b.valid = true ∧ b.byte 0 = 0x99 ∧ b.byte 1 = 0x81) ∧
    (∃ n : Nat, ∃ b : DlkBlock, ∃ s : State, ∃ t, n < 16 ∧ s.alive (pDLK n) = true ∧ s.dlkState n = 3 ∧ b.control = true ∧ b.valid = true ∧ b.byte 0 = 0x99 ∧ b.byte 1 = 0x86 ∧ (s.dlk n).ping = some t) ∧
    (∃ n : Nat, ∃ s : State, s.alive (pDLK n) = true ∧ s.dlkState n ≠ 0 ∧ s.bit (pDLK n) Off.dlk_BC_CFG 16 = true ∧ (s.dlk n).timeMs ≠ some (s.timeNs / 1000000)) ∧
    (∃ n : Nat, ∃ s : State, s.alive (pDLK n) = true ∧ s.dlkState n ≠ 0 ∧ s.bit (pDLK n) Off.dlk_BC_CFG 16 = true ∧ s.pingDue n = true) ∧
    (∃ n : Nat, ∃ s : State, ∃ k : Nat, s.alive (pDLK n) = true ∧ s.dlkState n ≠ 0 ∧ k < 4 ∧ s.inBusy (pDLK n) k = true) ∧
    (∃ m : Master, ∃ n : Nat, ∃ v : Word, ∃ s : State, s.Open m (pDLK n) ∧ bitAt v 0 = true ∧ (s.dlk n).tx.length < 64) ∧
    (∃ m : Master, ∃ n : Nat, ∃ v : Word, ∃ s : State, s.Open m (pDLK n) ∧ bitAt v 0 = true ∧ 64 ≤ (s.dlk n).tx.length) ∧
    (∃ n t : Nat, ∃ again : Bool, ∃ g : BcMsg, ∃ s : State, (s.dlk n).await = [(g, t, again)] ∧ t + 250 * s.fld (pDLK n) Off.dlk_BC_CFG 0 16 ≤ s.now ∧ again = false) ∧
    (∃ n t : Nat, ∃ again : Bool, ∃ g : BcMsg, ∃ s : State, (s.dlk n).await = [(g, t, again)] ∧ t + 250 * s.fld (pDLK n) Off.dlk_BC_CFG 0 16 ≤ s.now ∧ again = true) :=
  ⟨⟨3, 2, .ofBytes [0x33, 2, 5, 6, 0x2B, 0, 0], msgs id, 9, by decide +kernel⟩,
    ⟨3, 2, .ofBytes [0x66, 2, 5, 6, 1, 0, 0], msgs id, 9, by decide +kernel⟩,
    ⟨3, ⟨2, 0, 7⟩, msgs id, by decide +kernel⟩,
    ⟨3, 3, 2, 9, lines, [1, 2, 3, 4, 5], true, msgs fun x => { x with waitFs := 0xFFFF }, by decide +kernel⟩,
    ⟨3, 3, 2, 9, lines, [1, 2, 3, 4, 5], true, msgs id, by decide +kernel⟩,
    ⟨3, .ofBytes [0x99, 0x82, 5, 1, 2, 3, 4], msgs id, by decide +kernel⟩,
    ⟨3, .ofBytes [0x99, 0x81, 5, 1, 2, 3, 4], msgs id, by decide +kernel⟩,
    ⟨3, .ofBytes [0x99, 0x86, 5, 1, 2, 3, 4], msgs id, 4, by decide +kernel⟩,
    ⟨3, msgs id, by decide +kernel⟩,
    ⟨3, msgs id, by decide +kernel⟩,
    ⟨3, (msgs id).setBusy (pDLK 3) 2 true, 2, by decide +kernel⟩,
    ⟨.host, 3, 1, msgs fun x => { x with tx := List.replicate 63 ⟨1, 2, 3⟩ }, by unfold State.Open; decide +kernel⟩,
    ⟨.host, 3, 1, msgs fun x => { x with tx := List.replicate 64 ⟨1, 2, 3⟩ }, by unfold State.Open; decide +kernel⟩,
    ⟨3, 5, false, ⟨1, 5, 6⟩, msgs fun x => { x with await := [(⟨1, 5, 6⟩, 5, false)] }, by decide +kernel⟩,
    ⟨3, 5, true, ⟨1, 5, 6⟩, msgs fun x => { x with await := [(⟨1, 5, 6⟩, 5, true)] }, by decide +kernel⟩⟩

/-- States and operands that meet the hypotheses of CaptureStreams, clause by clause. -/
theorem wit_CaptureStreams :
    (∃ m : Master, ∃ s : State, ∃ c : Nat, s.Open m pINTAKE ∧ c = s.strmSel ∧ s.scxKind c = 0 ∧ s.strmReason c (s.regs32 pINTAKE Off.intake_STRM_D0 16) = 0 ∧ s.bit pINTAKE Off.intake_STRM_D0 31 = true) ∧
    (∃ m : Master, ∃ s : State, ∃ c : Nat, s.Open m pINTAKE ∧ c = s.strmSel ∧ s.scxKind c = 1) ∧
    (∃ m : Master, ∃ s : State, ∃ c : Nat, s.Open m pINTAKE ∧ c = s.strmSel ∧ 1 < s.scxKind c) ∧
    (∃ m : Master, ∃ s : State, ∃ c : Nat, s.Open m pINTAKE ∧ c = s.strmSel ∧ s.scxKind c = 0 ∧ (s.fld pINTAKE (Off.intake_STRM_D0 + 4) 0 16 = 0 ∨ 32768 < s.fld pINTAKE (Off.intake_STRM_D0 + 4) 0 16 ∨ s.qValid (s.fld pINTAKE (Off.intake_STRM_D0 + 16) 0 20) = false ∨ s.qValid (s.fld pINTAKE (Off.intake_STRM_D0 + 20) 0 20) = false)) ∧
    (∃ c fn : Nat, ∃ rest : List CapItem, ∃ s : State, ∃ e : ReadErr, (s.stream c).inq = .fs fn :: rest ∧ (s.stream c).frame = none ∧ s.scxKind c = 1 ∧ e ≠ .uncorrectable) ∧
    (∃ c : Nat, ∃ pix : List Nat, ∃ bad : Bool, ∃ rest : List CapItem, ∃ s : State, ∃ f : CapFrame, (s.stream c).inq = .line pix bad :: rest ∧ (s.stream c).frame = some f ∧ f.lines < capHeight (s.scx c)) ∧
    (∃ c : Nat, ∃ pix : List Nat, ∃ bad : Bool, ∃ rest : List CapItem, ∃ s : State, ∃ f : CapFrame, (s.stream c).inq = .line pix bad :: rest ∧ (s.stream c).frame = some f ∧ capHeight (s.scx c) ≤ f.lines) ∧
    (∃ c : Nat, ∃ pix : List Nat, ∃ bad : Bool, ∃ rest : List CapItem, ∃ s : State, (s.stream c).inq = .line pix bad :: rest ∧ (s.stream c).frame = none) ∧
    (∃ c : Nat, ∃ rest : List CapItem, ∃ s : State, ∃ f : CapFrame, (s.stream c).inq = .fe :: rest ∧ (s.stream c).frame = some f) ∧
    (∃ c : Nat, ∃ s : State, ∃ f : CapFrame, (s.stream c).frame = some f ∧ capTimeout (s.scx c) ≠ 0 ∧ f.lastLine + 2500 * capTimeout (s.scx c) ≤ s.now) ∧
    (∃ c : Nat, ∃ s : State, ∃ q : SeqList, ∃ a : Nat × Nat, ∃ rest : List (Nat × Nat), (s.stream c).seq = some q ∧ q.writes = a :: rest ∧ q.ack = some true ∧ rest ≠ []) ∧
    (∃ c : Nat, ∃ s : State, ∃ q : SeqList, ∃ a : Nat × Nat, ∃ rest : List (Nat × Nat), (s.stream c).seq = some q ∧ q.writes = a :: rest ∧ q.ack = some true ∧ rest = []) ∧
    (∃ c : Nat, ∃ s : State, ∃ q : SeqList, ∃ a : Nat × Nat, ∃ rest : List (Nat × Nat), (s.stream c).seq = some q ∧ q.writes = a :: rest ∧ q.ack = some false ∧ q.retried = false) ∧
    (∃ c : Nat, ∃ s : State, ∃ q : SeqList, ∃ a : Nat × Nat, ∃ rest : List (Nat × Nat), (s.stream c).seq = some q ∧ q.writes = a :: rest ∧ q.ack = some false ∧ q.retried = true) :=
  ⟨⟨.host, desc (words 0 3 2 0x2B 4) (queues live), 9, by unfold State.Open; decide +kernel⟩,
    ⟨.host, desc (words 0 3 2 0x2B 4) (csi id), 9, by unfold State.Open; decide +kernel⟩,
    ⟨.host, desc [] (live.onQm fun m => { m with scxKind := [(9, 3)] }), 9, by unfold State.Open; decide +kernel⟩,
    ⟨.host, desc (words 0 3 2 0x2B 4) live, 9, by unfold State.Open; decide +kernel⟩,
    ⟨9, 65535, [.fe], csi fun x => { x with inq := [.fs 65535, .fe] }, .corrected, by decide +kernel⟩,
    ⟨9, [1, 2], false, [.fe], csi fun x => { x with inq := [.line [1, 2] false, .fe], frame := some (frm 3) }, frm 3, by decide +kernel⟩,
    ⟨9, [1, 2], false, [.fe], csi fun x => { x with inq := [.line [1, 2] false, .fe], frame := some (frm 4) }, frm 4, by decide +kernel⟩,
    ⟨9, [1, 2], false, [.fe], csi fun x => { x with inq := [.line [1, 2] false, .fe] }, by decide +kernel⟩,
    ⟨9, [.fe], csi fun x => { x with inq := [.fe, .fe], frame := some (frm 4) }, frm 4, by decide +kernel⟩,
    ⟨9, csi fun x => { x with frame := some (frm 3) }, frm 3, by decide +kernel⟩,
    ⟨9, kept (seqL false true [(3, 4)]), seqL false true [(3, 4)], (1, 2), [(3, 4)], by decide +kernel⟩,
    ⟨9, kept (seqL true true []), seqL true true [], (1, 2), [], by decide +kernel⟩,
    ⟨9, kept (seqL false false [(3, 4)]), seqL false false [(3, 4)], (1, 2), [(3, 4)], by decide +kernel⟩,
    ⟨9, kept (seqL true false []), seqL true false [], (1, 2), [], by decide +kernel⟩⟩

end Cap

namespace Pipe

def cfg (x : Word) : Words := [x, wd (64 + 32 * 65536), 64 * 65536, 0x10001, 0, 16, 0x10000000, 0, 0x10010000, 0, 0x10, 0x11, 0]
def K : Nat := ctxKey 3 7
def ctx (x : Word) (f : PipeCtx → PipeCtx) : State := (S [(pPIPE 3 0, Off.pipeCtl_CTX_SEL, 7)] live).modPctx K fun c => f { c with cfg := cfg x }
def frm (b : BrFrame) (st : Bool) : PipeFrame := { num := 70, ended := true, y := 32, stats := st, br := [(2, b)] }
def frame (f : PipeFrame) : PipeCtx → PipeCtx := fun c => { c with state := 2, frame := some f }
def desc (w : Word) (s : State) : State := S ((cfg 0).zipIdx.map fun e => (pPIPE 3 0, Off.pipeCtl_CTX_D0 + 4 * e.2, if e.2 = 1 then w else e.1)) s
def brWords (h : Word) : Words := [1, 64 + h * 65536, 0, 0x10, 0x11, 512, 0, 0]
def br (h : Word) (st : Nat) : State := S ((pPIPE 3 11, Off.pipeBranch_BR_SEL, 7) :: (brWords h).zipIdx.map fun e => (pPIPE 3 11, Off.pipeBranch_BR_D0 + 4 * e.2, e.1)) (queues (ctx 0 fun c => { c with state := st }))
def push (a : Word) (n : Nat) : State :=
  S [(pPIPE 3 0, Off.pipeCtl_PSET_PTR_LO, a), (pPIPE 3 0, Off.pipeCtl_PSET_REQ_FRAME, 100)] (ctx 0 fun c => { c with ring := (List.range n).map fun i => { ptr := 4096 * i, req := i + 1 } })
def mem (q : Word) : State := queues (ctx 0 fun c => { c with state := 1, cfg := (cfg 1).set 10 q })
def lined (y : Nat) (fl : Nat) (x : Word) : State :=
  ctx x fun c => { c with state := 2, frame := some { num := 5, y := y, flags := fl }, inq := (List.range 40).map fun _ => .line (List.range 64) [], eligible := some 5 }
def out (st dn sp : Bool) (p : Nat) : State :=
  ctx 0 fun c => { c with state := 2, stopping := sp, frame := some (frm { lines := 12, prog := p, done := dn } st), br := [(2, [1 + 2 ^ 31, 0x00200040, 0, 0, 0, 0, 5])] }
def posts (q : Word) : State :=
  queues (ctx 0 fun c => { c with state := 2, frame := some (frm { lines := 32, prog := 6 } false), br := [(2, [1 + 2 ^ 31, 0x00200040, 0, 0, q, 0, 5])] })

/-- States and operands that meet the hypotheses of PipeCommands, clause by clause. -/
theorem wit_PipeCommands :
    (∃ m : Master, ∃ n k : Nat, ∃ s : State, s.Open m (pPIPE n 0) ∧ n < 8 ∧ k = ctxKey n (s.ctxSel n) ∧ (s.pctx k).state = 0 ∧ s.ctxReason n (s.ctxSel n) (s.regs32 (pPIPE n 0) Off.pipeCtl_CTX_D0 16) = 0) ∧
    (∃ m : Master, ∃ n k : Nat, ∃ s : State, s.Open m (pPIPE n 0) ∧ n < 8 ∧ k = ctxKey n (s.ctxSel n) ∧ (s.pctx k).state = 0 ∧ (s.fld (pPIPE n 0) (Off.pipeCtl_CTX_D0 + 4) 0 16 < 2 ∨ 32768 < s.fld (pPIPE n 0) (Off.pipeCtl_CTX_D0 + 4) 0 16 ∨ s.fld (pPIPE n 0) (Off.pipeCtl_CTX_D0 + 4) 0 16 % 2 = 1)) ∧
    (∃ m : Master, ∃ n k : Nat, ∃ s : State, s.Open m (pPIPE n 0) ∧ n < 8 ∧ k = ctxKey n (s.ctxSel n) ∧ (s.pctx k).state = 0 ∧ cfgStripe (s.pctx k).cfg = 2) ∧
    (∃ m : Master, ∃ n k : Nat, ∃ s : State, s.Open m (pPIPE n 0) ∧ n < 8 ∧ k = ctxKey n (s.ctxSel n) ∧ (s.pctx k).state = 0 ∧ cfgStripe (s.pctx k).cfg = 0 ∧ (∀ i < 3, cfgComp (s.pctx k).cfg (i + 1) = none) ∧ (∀ b < 4, brEn ((s.pctx k).brDesc b) = true → brBand ((s.pctx k).brDesc b) = false)) ∧
    (∃ m : Master, ∃ n k : Nat, ∃ s : State, s.Open m (pPIPE n 0) ∧ n < 8 ∧ k = ctxKey n (s.ctxSel n) ∧ (s.pctx k).state = 2) ∧
    (∃ m : Master, ∃ n k : Nat, ∃ s : State, s.Open m (pPIPE n 0) ∧ n < 8 ∧ k = ctxKey n (s.ctxSel n) ∧ (s.pctx k).state = 1 ∧ cfgStripe (s.pctx k).cfg = 0) ∧
    (∃ m : Master, ∃ n k : Nat, ∃ s : State, s.Open m (pPIPE n 0) ∧ n < 8 ∧ k = ctxKey n (s.ctxSel n) ∧ (s.pctx k).state ≠ 0 ∧ cfgStripe (s.pctx k).cfg = 0) ∧
    (∃ m : Master, ∃ n b k : Nat, ∃ s : State, ∃ d : Words, s.Open m (pPIPE n (9 + b)) ∧ n < 8 ∧ b < 4 ∧ k = s.brSel n b ∧ d = s.regs32 (pPIPE n (9 + b)) Off.pipeBranch_BR_D0 8 ∧ (s.pctx k).state ≠ 0) ∧
    (∃ m : Master, ∃ n b k : Nat, ∃ s : State, ∃ d : Words, s.Open m (pPIPE n (9 + b)) ∧ n < 8 ∧ b < 4 ∧ k = s.brSel n b ∧ d = s.regs32 (pPIPE n (9 + b)) Off.pipeBranch_BR_D0 8 ∧ (s.pctx k).state = 0 ∧ s.brReason (s.pctx k).cfg d = 0) ∧
    (∃ m : Master, ∃ n b k : Nat, ∃ s : State, ∃ d : Words, s.Open m (pPIPE n (9 + b)) ∧ n < 8 ∧ b < 4 ∧ k = s.brSel n b ∧ d = s.regs32 (pPIPE n (9 + b)) Off.pipeBranch_BR_D0 8 ∧ (s.pctx k).state = 0 ∧ brOutH d = 0) ∧
    (∃ m : Master, ∃ n k : Nat, ∃ v : Word, ∃ s : State, ∃ a : Nat, ∃ r : Word, s.Open m (pPIPE n 0) ∧ n < 8 ∧ k = ctxKey n (s.ctxSel n) ∧ bitAt v 0 = true ∧ a = s.reg64 (pPIPE n 0) Off.pipeCtl_PSET_PTR_LO Off.pipeCtl_PSET_PTR_HI ∧ r = s.reg (pPIPE n 0) Off.pipeCtl_PSET_REQ_FRAME ∧ (s.pctx k).ring.length < 4 ∧ (∀ e ∈ (s.pctx k).ring, serialLt e.req r.toNat = true) ∧ cfgStripe (s.pctx k).cfg ≠ 2 ∧ a % 4096 = 0 ∧ s.seqBound k = false) ∧
    (∃ m : Master, ∃ n k : Nat, ∃ v : Word, ∃ s : State, ∃ a : Nat, ∃ r : Word, s.Open m (pPIPE n 0) ∧ n < 8 ∧ k = ctxKey n (s.ctxSel n) ∧ bitAt v 0 = true ∧ a = s.reg64 (pPIPE n 0) Off.pipeCtl_PSET_PTR_LO Off.pipeCtl_PSET_PTR_HI ∧ r = s.reg (pPIPE n 0) Off.pipeCtl_PSET_REQ_FRAME ∧ 4 ≤ (s.pctx k).ring.length) ∧
    (∃ m : Master, ∃ n k : Nat, ∃ v : Word, ∃ s : State, ∃ a : Nat, ∃ r : Word, s.Open m (pPIPE n 0) ∧ n < 8 ∧ k = ctxKey n (s.ctxSel n) ∧ bitAt v 0 = true ∧ a = s.reg64 (pPIPE n 0) Off.pipeCtl_PSET_PTR_LO Off.pipeCtl_PSET_PTR_HI ∧ r = s.reg (pPIPE n 0) Off.pipeCtl_PSET_REQ_FRAME ∧ a % 4096 ≠ 0) :=
  ⟨⟨.host, 3, K, desc (64 + 32 * 65536) (ctx 0 id), by unfold State.Open; decide +kernel⟩,
    ⟨.host, 3, K, desc (63 + 32 * 65536) (ctx 0 id), by unfold State.Open; decide +kernel⟩,
    ⟨.host, 3, K, ctx 0x40 id, by unfold State.Open; decide +kernel⟩,
    ⟨.host, 3, K, desc (64 + 32 * 65536) (ctx 0 id), by unfold State.Open; decide +kernel⟩,
    ⟨.host, 3, K, ctx 0 (frame { num := 70 }), by unfold State.Open; decide +kernel⟩,
    ⟨.host, 3, K, ctx 0 fun c => { c with state := 1 }, by unfold State.Open; decide +kernel⟩,
    ⟨.host, 3, K, ctx 0 (frame { num := 70 }), by unfold State.Open; decide +kernel⟩,
    ⟨.host, 3, 2, K, br 32 1, brWords 32, by unfold State.Open; decide +kernel⟩,
    ⟨.host, 3, 2, K, br 32 0, brWords 32, by unfold State.Open; decide +kernel⟩,
    ⟨.host, 3, 2, K, br 0 0, brWords 0, by unfold State.Open; decide +kernel⟩,
    ⟨.host, 3, K, 1, push 0x5000 3, 0x5000, 100, by unfold State.Open; decide +kernel⟩,
    ⟨.host, 3, K, 1, push 0x5000 4, 0x5000, 100, by unfold State.Open; decide +kernel⟩,
    ⟨.host, 3, K, 1, push 0x5004 3, 0x5004, 100, by unfold State.Open; decide +kernel⟩⟩

/-- States and operands that meet the hypotheses of PipeFrames, clause by clause. -/
theorem wit_PipeFrames :
    (∃ n c k num dt : Nat, ∃ dec : Option PsetEntry, ∃ rest : List PipeIn, ∃ s : State, n < 8 ∧ c < 64 ∧ k = ctxKey n c ∧ s.alive (pPIPE n 0) = true ∧ (s.pctx k).state = 1 ∧ (s.pctx k).frame = none ∧ cfgStripe (s.pctx k).cfg = 0 ∧ cfgInput (s.pctx k).cfg = 0 ∧ (s.pctx k).inq = .fs num dt dec :: rest) ∧
    (∃ n c k : Nat, ∃ s : State, ∃ q, n < 8 ∧ c < 64 ∧ k = ctxKey n c ∧ s.alive (pPIPE n 0) = true ∧ (s.pctx k).state = 1 ∧ (s.pctx k).frame = none ∧ cfgStripe (s.pctx k).cfg = 0 ∧ q = wfld (wordAt (s.pctx k).cfg 10) 0 20 ∧ cfgInput (s.pctx k).cfg = 1 ∧ s.alive (pQM 0) = true ∧ s.qValid q = true ∧ s.qReissue q = none ∧ (s.qView q).level ≠ 0) ∧
    (∃ n c k : Nat, ∃ s : State, ∃ q, n < 8 ∧ c < 64 ∧ k = ctxKey n c ∧ s.alive (pPIPE n 0) = true ∧ (s.pctx k).state = 1 ∧ (s.pctx k).frame = none ∧ cfgStripe (s.pctx k).cfg = 0 ∧ q = wfld (wordAt (s.pctx k).cfg 10) 0 20 ∧ cfgInput (s.pctx k).cfg = 1 ∧ s.alive (pQM 0) = true ∧ s.qValid q = true ∧ s.qReissue q = none ∧ (s.qView q).level = 0) ∧
    (∃ n c k : Nat, ∃ s : State, n < 8 ∧ c < 64 ∧ k = ctxKey n c ∧ s.alive (pPIPE n 0) = true ∧ (s.pipe n).running = false ∧ (s.pipe n).picked = none ∧ s.pipeBest n none = some c ∧ (s.pipe n).cur = some c) ∧
    (∃ n c k : Nat, ∃ s : State, n < 8 ∧ c < 64 ∧ k = ctxKey n c ∧ s.alive (pPIPE n 0) = true ∧ (s.pipe n).running = false ∧ (s.pipe n).picked = none ∧ s.pipeBest n none = some c ∧ (s.pipe n).cur = none) ∧
    (∃ n c k : Nat, ∃ s : State, ∃ a r cyc : Nat, ∃ f : PipeFrame, n < 8 ∧ c < 64 ∧ k = ctxKey n c ∧ s.alive (pPIPE n 0) = true ∧ (s.pipe n).picked = some (c, a, r, cyc) ∧ r ≤ s.now ∧ s.tablesMissing n c = false ∧ lutOn (((s.pctx k).force.map (·.words)).getD []) = false ∧ (s.pctx k).frame = some f) ∧
    (∃ n c k : Nat, ∃ s : State, ∃ f : PipeFrame, n < 8 ∧ c < 64 ∧ k = ctxKey n c ∧ s.alive (pPIPE n 0) = true ∧ (s.pipe n).cur = some c ∧ (s.pipe n).running = true ∧ s.pipeHas k 1 = true ∧ (s.pctx k).frame = some f ∧ cfgStripe (s.pctx k).cfg = 0) ∧
    (∃ n c k : Nat, ∃ s : State, n < 8 ∧ c < 64 ∧ k = ctxKey n c ∧ s.alive (pPIPE n 0) = true ∧ s.loadCtx n = some c) ∧
    (∃ n c k : Nat, ∃ s : State, ∃ i, n < 8 ∧ c < 64 ∧ k = ctxKey n c ∧ s.alive (pPIPE n 0) = true ∧ (s.pipe n).lutLoad = some (i, c)) ∧
    (∃ n c k : Nat, ∃ s : State, ∃ t : Nat, ∃ f : PipeFrame, n < 8 ∧ c < 64 ∧ k = ctxKey n c ∧ s.alive (pPIPE n 0) = true ∧ (s.pctx k).eligible = some t ∧ (s.pctx k).frame = some f ∧ f.y = 0 ∧ (s.pipe n).cur = none ∧ (s.pipe n).picked = none ∧ cfgSafety (s.pctx k).cfg = true ∧ t + 1216 < s.now ∧ f.flags.testBit 6 = false) ∧
    (∃ n c k : Nat, ∃ s : State, n < 8 ∧ c < 64 ∧ k = ctxKey n c ∧ s.alive (pPIPE n 0) = true ∧ (s.pctx k).state = 2) ∧
    (∃ n c k : Nat, ∃ s : State, ∃ f : PipeFrame, ∃ b : Nat, n < 8 ∧ c < 64 ∧ k = ctxKey n c ∧ s.alive (pPIPE n 0) = true ∧ (s.pctx k).frame = some f ∧ cfgStripe (s.pctx k).cfg = 0 ∧ b < 4 ∧ brEn ((s.pctx k).brDesc b) = true ∧ wfld (wordAt ((s.pctx k).brDesc b) 6) 0 16 ≠ 0 ∧ wfld (wordAt ((s.pctx k).brDesc b) 6) 0 16 * ((s.brFrame k b).prog + 1) ≤ (s.brFrame k b).lines ∧ (s.brFrame k b).nothing = false) ∧
    (∃ n c k : Nat, ∃ s : State, ∃ f : PipeFrame, ∃ b : Nat, n < 8 ∧ c < 64 ∧ k = ctxKey n c ∧ s.alive (pPIPE n 0) = true ∧ (s.pctx k).frame = some f ∧ cfgStripe (s.pctx k).cfg = 0 ∧ b < 4 ∧ brEn ((s.pctx k).brDesc b) = true ∧ f.noWork = false ∧ (s.brFrame k b).done = false ∧ (s.brFrame k b).posted = none ∧ s.alive (pPIPE n (9 + b)) = true ∧ (s.brFinished k b = true ∨ (s.brFrame k b).nothing = true) ∧ s.qm.pushBuf = [] ∧ (brBand ((s.pctx k).brDesc b) = true ∨ (s.qView (wfld (wordAt ((s.pctx k).brDesc b) 4) 0 20)).full = false)) ∧
    (∃ n c k : Nat, ∃ s : State, ∃ f : PipeFrame, ∃ b : Nat, n < 8 ∧ c < 64 ∧ k = ctxKey n c ∧ s.alive (pPIPE n 0) = true ∧ (s.pctx k).frame = some f ∧ cfgStripe (s.pctx k).cfg = 0 ∧ b < 4 ∧ brEn ((s.pctx k).brDesc b) = true ∧ f.noWork = false ∧ (s.brFrame k b).done = false ∧ (s.brFrame k b).posted = none ∧ s.alive (pPIPE n (9 + b)) = true ∧ (s.brFinished k b = true ∨ (s.brFrame k b).nothing = true) ∧ s.qm.pushBuf = [] ∧ brBand ((s.pctx k).brDesc b) = false ∧ s.alive (pQM 0) = true ∧ s.qValid (wfld (wordAt ((s.pctx k).brDesc b) 4) 0 20) = true ∧ (s.qView (wfld (wordAt ((s.pctx k).brDesc b) 4) 0 20)).full = true) ∧
    (∃ n c k : Nat, ∃ s : State, ∃ f : PipeFrame, n < 8 ∧ c < 64 ∧ k = ctxKey n c ∧ s.alive (pPIPE n 0) = true ∧ (s.pctx k).frame = some f ∧ cfgStripe (s.pctx k).cfg = 0 ∧ f.stats = false ∧ f.ended = true ∧ s.framePassed k = true) ∧
    (∃ n c k : Nat, ∃ s : State, ∃ f : PipeFrame, n < 8 ∧ c < 64 ∧ k = ctxKey n c ∧ s.alive (pPIPE n 0) = true ∧ (s.pctx k).frame = some f ∧ cfgStripe (s.pctx k).cfg = 0 ∧ (s.pctx k).state = 2 ∧ f.stats = true ∧ (∀ b < 4, brEn ((s.pctx k).brDesc b) = true → (s.brFrame k b).done = true) ∧ (s.pctx k).stopping = false) ∧
    (∃ n c k : Nat, ∃ s : State, ∃ f : PipeFrame, n < 8 ∧ c < 64 ∧ k = ctxKey n c ∧ s.alive (pPIPE n 0) = true ∧ (s.pctx k).frame = some f ∧ cfgStripe (s.pctx k).cfg = 0 ∧ (s.pctx k).state = 2 ∧ f.stats = true ∧ (∀ b < 4, brEn ((s.pctx k).brDesc b) = true → (s.brFrame k b).done = true) ∧ (s.pctx k).stopping = true) ∧
    (∃ m : Master, ∃ n o : Nat, ∃ s : State, s.Shows m (pPIPE n o) ∧ n < 8 ∧ 1 ≤ o ∧ o ≤ 8) :=
  ⟨⟨3, 7, K, 65535, 0x2B, none, [.fe 1 2], ctx 0 fun c => { c with state := 1, inq := [.fs 65535 0x2B none, .fe 1 2] }, by decide +kernel⟩,
    ⟨3, 7, K, mem 0x10, 0x10, by decide +kernel⟩,
    ⟨3, 7, K, mem 0x15, 0x15, by decide +kernel⟩,
    ⟨3, 7, K, (lined 0 0 0).modPipe 3 fun p => { p with cur := some 7 }, by decide +kernel⟩,
    ⟨3, 7, K, lined 0 0 0, by decide +kernel⟩,
    ⟨3, 7, K, (lined 0 0 0).modPipe 3 fun p => { p with picked := some (7, 5, 6, 700) }, 5, 6, 700, { num := 5 }, by decide +kernel⟩,
    ⟨3, 7, K, (lined 0 0 0).modPipe 3 fun p => { p with cur := some 7, running := true }, { num := 5 }, by decide +kernel⟩,
    ⟨3, 7, K, lined 0 0 0, by decide +kernel⟩,
    ⟨3, 7, K, (lined 0 0 0).modPipe 3 fun p => { p with lutLoad := some (1, 7) }, 1, by decide +kernel⟩,
    ⟨3, 7, K, lined 0 0 4, 5, { num := 5 }, by decide +kernel⟩,
    ⟨3, 7, K, lined 0 0 0, by decide +kernel⟩,
    ⟨3, 7, K, out false false false 1, frm { lines := 12, prog := 1 } false, 2, by decide +kernel⟩,
    ⟨3, 7, K, posts 0x11, frm { lines := 32, prog := 6 } false, 2, by decide +kernel⟩,
    ⟨3, 7, K, posts 0x13, frm { lines := 32, prog := 6 } false, 2, by decide +kernel⟩,
    ⟨3, 7, K, out false false false 1, frm { lines := 12, prog := 1 } false, by decide +kernel⟩,
    ⟨3, 7, K, out true true false 2, frm { lines := 12, prog := 2, done := true } true, by decide +kernel⟩,
    ⟨3, 7, K, out true true true 2, frm { lines := 12, prog := 2, done := true } true, by decide +kernel⟩,
    ⟨.host, 3, 3, live, shows_of (by decide +kernel) rfl, by decide +kernel⟩⟩

end Pipe

namespace Codec

def P0 : Nat := pHENC 0
def encW (x : Nat) : Words :=
  [wd (1 + 4 * 2 + x), wd (128 + 128 * 65536), 128, 0x10, 0x11, 0x12, 0x13, 1, 0, 0, 1000, 1000, wd (30 + 65536), wd (30 + 10 * 256 + 40 * 65536 + (3 <<< 22)), 0, wd (4 + 50 * 256 + 16 * 65536 + 8 * 2 ^ 24), 0, 0, 0, 0]
def decW : Words := [1, wd (128 + 128 * 65536), 128, 0x10, 0x11, 0x12, 0x13, 4, 0, 0, 0, 0, 0, 0, 0, 0]
def xsW (x : Nat) : Words := [wd (1 + 5 * 4 + x), wd (128 + 128 * 65536), 256, 0x10, 0x11, 0x12, 0x13, wd (16 + 3 * 256 + 16 * 65536), 0, 0, 0, 0, 0, 0, 0, 0]
def sess (p kind : Nat) (w : Words) : State :=
  S ((p, Off.henc_SESS_SEL, 9) :: w.zipIdx.map fun e => (p, Off.henc_SESS_D0 + 4 * e.2, e.1))
    ((queues live).onQm fun m => { m with scx := [(9, w)], scxKind := if kind = 0 then [] else [(9, kind)], scxPage := if kind = 0 then [] else [(9, p)] })
def enc (f : EncSess → EncSess) (x : Nat) : State := (sess P0 2 (encW x)).modEnc 9 fun e => f { e with st := 1 }
def cur (p : Nat) (s : State) : State := s.modCodecBlk p fun x => { x with cur := some 9 }
def srcD : Words := [0x10200000, 0, 0, 0, 77, 1, 0, 0]
def bufD : Words := [0x40, 0, 0x10000, 5, 0, 0, 0, 0]
def ready : State := cur P0 (((enc id 0).poke 0x10000100 (wordsBytes srcD)).poke 0x10000900 (wordsBytes bufD))
def pic (cap : Nat) : EncPic := { cap := cap, pos := [(0, (1, 1))], first := [(0, 0)] }
def coding (f : EncPic) : State := cur P0 (enc (fun e => { e with pic := some f }) 0)
def sliced (po : Nat) : EncPic := { cap := 4000, slices := [⟨0, po, false⟩], posted := po }
def xsP : XsPic := { buf := 0x10300000, size := 1000, src := some [1, 2, 3] }
def xs (x : Nat) : State := cur (pXS 2) ((sess (pXS 2) 4 (xsW x)).modDec 9 fun e => { e with st := 1, xs := some xsP })
def dpic : DecPic := ⟨1, 2, true, true, 1, 2, 3, 4, 5⟩
def dec (f : DecSess → DecSess) : State := cur (pDEC 1) (((sess (pDEC 1) 3 decW).poke 0x10000100 (wordsBytes srcD)).modDec 9 fun e => f { e with st := 1 })
def au (i : Bool) : AccessUnit :=
  { supported := true, irap := i, noOutputPrior := false, poc := 3, refs := [], lost := false, refPoison := false, w := 64, h := 64, slots := 2, chroma := 1, luma := 8, chromaBits := 8 }

/-- States and operands that meet the hypotheses of CodecSessions, clause by clause. -/
theorem wit_CodecSessions :
    (∃ m : Master, ∃ p c : Nat, ∃ s : State, s.Open m p ∧ (pageKind p = .henc ∨ pageKind p = .dec ∨ pageKind p = .xs) ∧ c = s.sessSel p ∧ s.scxKind c = sessKind p) ∧
    (∃ m : Master, ∃ p c : Nat, ∃ s : State, s.Open m p ∧ (pageKind p = .henc ∨ pageKind p = .dec ∨ pageKind p = .xs) ∧ c = s.sessSel p ∧ s.scxKind c ≠ 0 ∧ s.scxKind c ≠ sessKind p ∧ ¬ (pageKind p = .henc ∧ s.encMember (p - pHENC 0) = true)) ∧
    (∃ m : Master, ∃ p c : Nat, ∃ s : State, s.Open m p ∧ (pageKind p = .henc ∨ pageKind p = .dec ∨ pageKind p = .xs) ∧ c = s.sessSel p ∧ s.scxKind c = 0 ∧ pageKind p = .henc ∧ s.encMember (p - pHENC 0) = true) ∧
    (∃ m : Master, ∃ p c : Nat, ∃ s : State, ∃ w, s.Open m p ∧ (pageKind p = .henc ∨ pageKind p = .dec ∨ pageKind p = .xs) ∧ c = s.sessSel p ∧ s.scxKind c = 0 ∧ pageKind p = .henc ∧ s.encMember (p - pHENC 0) = false ∧ w = s.regs32 p Off.henc_SESS_D0 20 ∧ (ecFormat w < 3 ∨ 6 < ecFormat w ∨ ecW w < 64 ∨ 16384 < ecW w ∨ ecH w < 64 ∨ 8704 < ecH w ∨ ecW w % 2 = 1 ∨ ecH w % 2 = 1 ∨ 35651584 < ecW w * ecH w ∨ ecStride w % 64 ≠ 0 ∨ (ecRc w ≠ 0 ∧ (ecRate w < 100 ∨ 800000 < ecRate w)) ∨ (∃ i < 4, s.qValid (ecQ w i) = false) ∨ ecQpMax w < ecQpMin w ∨ 51 < ecQpMax w)) ∧
    (∃ m : Master, ∃ p c : Nat, ∃ s : State, ∃ w, s.Open m p ∧ (pageKind p = .henc ∨ pageKind p = .dec ∨ pageKind p = .xs) ∧ c = s.sessSel p ∧ s.scxKind c = 0 ∧ pageKind p = .henc ∧ s.encMember (p - pHENC 0) = false ∧ w = s.regs32 p Off.henc_SESS_D0 20 ∧ s.encReason p w = 0 ∧ bitAt (wordAt w 0) 0 = true ∧ ecProg w = false) ∧
    (∃ m : Master, ∃ p c : Nat, ∃ s : State, s.Open m p ∧ (pageKind p = .henc ∨ pageKind p = .dec ∨ pageKind p = .xs) ∧ c = s.sessSel p ∧ s.scxKind c = 0 ∧ pageKind p ≠ .henc ∧ s.decReason p (s.regs32 p Off.henc_SESS_D0 16) = 0 ∧ s.bit p Off.henc_SESS_D0 0 = true) ∧
    (∃ m : Master, ∃ p c : Nat, ∃ s : State, s.Open m p ∧ (pageKind p = .henc ∨ pageKind p = .dec ∨ pageKind p = .xs) ∧ c = s.sessSel p ∧ s.sessState p c ≠ 1) ∧
    (∃ m : Master, ∃ p c : Nat, ∃ s : State, s.Open m p ∧ (pageKind p = .henc ∨ pageKind p = .dec ∨ pageKind p = .xs) ∧ c = s.sessSel p ∧ s.sessState p c = 0) ∧
    (∃ m : Master, ∃ p c : Nat, ∃ s : State, s.Open m p ∧ (pageKind p = .henc ∨ pageKind p = .dec ∨ pageKind p = .xs) ∧ c = s.sessSel p ∧ s.sessState p c ≠ 0) ∧
    (∃ m : Master, ∃ p c : Nat, ∃ s : State, s.Open m p ∧ (pageKind p = .henc ∨ pageKind p = .dec ∨ pageKind p = .xs) ∧ c = s.sessSel p ∧ pageKind p = .henc ∧ s.sessState p c = 1) ∧
    (∃ m : Master, ∃ p c : Nat, ∃ s : State, s.Open m p ∧ (pageKind p = .henc ∨ pageKind p = .dec ∨ pageKind p = .xs) ∧ c = s.sessSel p ∧ (pageKind p ≠ .henc ∨ s.sessState p c ≠ 1)) ∧
    (∃ m : Master, ∃ p c : Nat, ∃ s : State, s.Open m p ∧ (pageKind p = .henc ∨ pageKind p = .dec ∨ pageKind p = .xs) ∧ c = s.sessSel p ∧ (pageKind p ≠ .dec ∨ s.sessState p c ≠ 1)) ∧
    (∃ m : Master, ∃ p c : Nat, ∃ s : State, s.Open m p ∧ (pageKind p = .henc ∨ pageKind p = .dec ∨ pageKind p = .xs) ∧ c = s.sessSel p ∧ pageKind p = .dec ∧ s.sessState p c = 1 ∧ s.sessFree p c = false) ∧
    (∃ m : Master, ∃ p c : Nat, ∃ s : State, s.Open m p ∧ (pageKind p = .henc ∨ pageKind p = .dec ∨ pageKind p = .xs) ∧ c = s.sessSel p ∧ pageKind p = .dec ∧ s.sessState p c = 1 ∧ s.sessFree p c = true) ∧
    (∃ m : Master, ∃ n : Nat, ∃ v : Word, ∃ s : State, s.Open m (pHENC n) ∧ n < 6 ∧ wfld v 0 3 ≠ s.fld (pHENC n) Off.henc_GANG 0 3 ∧ s.sessions (pHENC n) ≠ []) ∧
    (∃ m : Master, ∃ n : Nat, ∃ v : Word, ∃ s : State, s.Open m (pHENC n) ∧ n < 6 ∧ wfld v 0 3 ≠ s.fld (pHENC n) Off.henc_GANG 0 3 ∧ s.sessions (pHENC n) = [] ∧ (wfld v 0 3 = 0 ∨ 6 < n + wfld v 0 3)) ∧
    (∃ m : Master, ∃ n : Nat, ∃ v : Word, ∃ s : State, s.Open m (pHENC n) ∧ n < 6 ∧ wfld v 0 3 ≠ s.fld (pHENC n) Off.henc_GANG 0 3 ∧ 1 ≤ wfld v 0 3 ∧ n + wfld v 0 3 ≤ 6 ∧ s.fld (pHENC n) Off.henc_GANG 0 3 ≤ 1 ∧ (∀ j < 6, s.sessions (pHENC j) = [] ∧ s.encMember j = false ∧ s.fld (pHENC j) Off.henc_GANG 0 3 ≤ 1)) ∧
    (∃ p c : Nat, ∃ s : State, s.alive p = true ∧ (pageKind p = .henc ∨ pageKind p = .dec ∨ pageKind p = .xs) ∧ c ∈ s.sessions p ∧ s.sessState p c = 1 ∧ s.sessWork p c = true ∧ (∀ x, (s.codecBlk p).cur = some x → s.sessFree p x = true) ∧ (∀ x ∈ s.sessions p, x ≠ c → s.sessState p x = 1 → s.sessWork p x = true → sessPrio p (s.scx c) < sessPrio p (s.scx x) ∨ (sessPrio p (s.scx c) = sessPrio p (s.scx x) ∧ s.sessLast p c < s.sessLast p x))) :=
  ⟨⟨.host, P0, 9, sess P0 2 (encW 0), by unfold State.Open; decide +kernel⟩,
    ⟨.host, P0, 9, sess P0 3 decW, by unfold State.Open; decide +kernel⟩,
    ⟨.host, pHENC 1, 9, (sess (pHENC 1) 0 (encW 0)).putBit (pHENC 1) Off.henc_GANG 11 true, by unfold State.Open; decide +kernel⟩,
    ⟨.host, P0, 9, sess P0 0 ((encW 0).set 1 63), (encW 0).set 1 63, by unfold State.Open; decide +kernel⟩,
    ⟨.host, P0, 9, sess P0 0 (encW 0), encW 0, by unfold State.Open; decide +kernel⟩,
    ⟨.host, pDEC 1, 9, sess (pDEC 1) 0 decW, by unfold State.Open; decide +kernel⟩,
    ⟨.host, P0, 9, sess P0 0 (encW 0), by unfold State.Open; decide +kernel⟩,
    ⟨.host, P0, 9, sess P0 0 (encW 0), by unfold State.Open; decide +kernel⟩,
    ⟨.host, P0, 9, enc id 0, by unfold State.Open; decide +kernel⟩,
    ⟨.host, P0, 9, enc id 0, by unfold State.Open; decide +kernel⟩,
    ⟨.host, P0, 9, sess P0 0 (encW 0), by unfold State.Open; decide +kernel⟩,
    ⟨.host, P0, 9, sess P0 0 (encW 0), by unfold State.Open; decide +kernel⟩,
    ⟨.host, pDEC 1, 9, dec fun e => { e with chunks := 2, dpb := [dpic] }, by unfold State.Open; decide +kernel⟩,
    ⟨.host, pDEC 1, 9, dec id, by unfold State.Open; decide +kernel⟩,
    ⟨.host, 0, 2, sess P0 2 (encW 0), by unfold State.Open; decide +kernel⟩,
    ⟨.host, 0, 7, live, by unfold State.Open; decide +kernel⟩,
    ⟨.host, 0, 2, live, by unfold State.Open; decide +kernel⟩,
    ⟨pDEC 1, 9, (dec id).poke 0x10000100 (wordsBytes [0, 0, 0, 1]), by decide +kernel⟩⟩

/-- States and operands that meet the hypotheses of CodecPictures, clause by clause. -/
theorem wit_CodecPictures :
    (∃ n c hdr : Nat, ∃ s : State, ∃ d b : Words, s.alive (pHENC n) = true ∧ n < 6 ∧ (s.codecBlk (pHENC n)).cur = some c ∧ (s.encS c).st = 1 ∧ (s.encS c).pic = none ∧ s.mayBegin (pHENC n) c = true ∧ (s.encS c).rate = none ∧ (s.encS c).todo = [] ∧ (s.encS c).fill = [] ∧ (s.encS c).idr = true ∧ (s.encS c).owed = 0 ∧ ecProg (s.scx c) = false ∧ (s.take (ecQ (s.scx c) 0)).1 = some d ∧ srcUnusable d = false ∧ ((s.take (ecQ (s.scx c) 0)).2.take (ecQ (s.scx c) 2)).1 = some b ∧ ecRc (s.scx c) = 0 ∧ ecHrd (s.scx c) = false ∧ ecMaxPic (s.scx c) = 0 ∧ ecNum (s.scx c) ≠ 0 ∧ hdr + 512 * picSlices (s.scx c) (s.encGang n) + fbBits (s.scx c) 0 * (ctbRows (s.scx c) * ctbCols (s.scx c)) ≤ (wordAt b 2).toNat * 8) ∧
    (∃ n k c : Nat, ∃ s : State, s.alive (pHENC n) = true ∧ k < 4 ∧ s.inBusy (pHENC n) k = true ∧ s.sessions (pHENC n) = [c] ∧ (s.encS c).st = 1 ∧ (s.encS c).pic = none ∧ (s.encS c).owed = 0 ∧ ecProg (s.scx c) = true ∧ ecProgIn (s.scx c) = k) ∧
    (∃ n c r k bits : Nat, ∃ s : State, ∃ f : EncPic, s.alive (pHENC n) = true ∧ n < 6 ∧ (s.codecBlk (pHENC n)).cur = some c ∧ (s.encS c).owed = 0 ∧ (s.encS c).pic = some f ∧ ecProg (s.scx c) = false ∧ s.encGang n = 1 ∧ Map.get (fun _ => (0, 0)) f.pos 0 = (r, k) ∧ r < ctbRows (s.scx c) ∧ f.fb = false ∧ f.spent + bits + fbBits (s.scx c) f.type * (ctbRows (s.scx c) * ctbCols (s.scx c) - f.coded (s.scx c) 1 - 1) ≤ f.cap) ∧
    (∃ n c r k bits : Nat, ∃ s : State, ∃ f : EncPic, s.alive (pHENC n) = true ∧ n < 6 ∧ (s.codecBlk (pHENC n)).cur = some c ∧ (s.encS c).owed = 0 ∧ (s.encS c).pic = some f ∧ ecProg (s.scx c) = false ∧ s.encGang n = 1 ∧ Map.get (fun _ => (0, 0)) f.pos 0 = (r, k) ∧ r < ctbRows (s.scx c) ∧ f.fb = false ∧ f.cap < f.spent + bits + fbBits (s.scx c) f.type * (ctbRows (s.scx c) * ctbCols (s.scx c) - f.coded (s.scx c) 1 - 1)) ∧
    (∃ n c : Nat, ∃ s : State, ∃ f : EncPic, ∃ sl : EncSlice, ∃ next, s.alive (pHENC n) = true ∧ n < 6 ∧ (s.codecBlk (pHENC n)).cur = some c ∧ (s.encS c).owed = 0 ∧ (s.encS c).pic = some f ∧ ecProg (s.scx c) = false ∧ s.encGang n = 1 ∧ f.slices = [sl] ∧ sl.member = 0 ∧ sl.first = f.posted ∧ next = (if ecSliceRows (s.scx c) = 0 then ctbRows (s.scx c) else min (ctbRows (s.scx c)) (sl.first + ecSliceRows (s.scx c))) ∧ next < ctbRows (s.scx c)) ∧
    (∃ n c : Nat, ∃ s : State, ∃ f : EncPic, ∃ sl : EncSlice, ∃ next, s.alive (pHENC n) = true ∧ n < 6 ∧ (s.codecBlk (pHENC n)).cur = some c ∧ (s.encS c).owed = 0 ∧ (s.encS c).pic = some f ∧ ecProg (s.scx c) = false ∧ s.encGang n = 1 ∧ f.slices = [sl] ∧ sl.member = 0 ∧ sl.first = f.posted ∧ next = (if ecSliceRows (s.scx c) = 0 then ctbRows (s.scx c) else min (ctbRows (s.scx c)) (sl.first + ecSliceRows (s.scx c))) ∧ ctbRows (s.scx c) ≤ next ∧ (s.encS c).stopping = false) ∧
    (∃ n c : Nat, ∃ s : State, ∃ f : XsPic, s.alive (pXS n) = true ∧ n < 6 ∧ (s.codecBlk (pXS n)).cur = some c ∧ (s.decS c).st = 1 ∧ (s.decS c).xs = some f ∧ f.slice + 1 < xsSlices (s.scx c) ∧ bitAt (wordAt (s.scx c) 0) 1 = true) ∧
    (∃ n c : Nat, ∃ s : State, ∃ f : XsPic, s.alive (pXS n) = true ∧ n < 6 ∧ (s.codecBlk (pXS n)).cur = some c ∧ (s.decS c).st = 1 ∧ (s.decS c).xs = some f ∧ f.slice + 1 < xsSlices (s.scx c) ∧ bitAt (wordAt (s.scx c) 0) 1 = false ∧ (s.pageRt (pXS n)).inject = 0) ∧
    (∃ p c : Nat, ∃ s : State, ∃ d, s.alive p = true ∧ pageKind p = .dec ∧ (s.codecBlk p).cur = some c ∧ (s.decS c).st = 1 ∧ (s.decS c).complete = false ∧ ((s.decS c).chunks ≠ 0 ∨ s.mayBegin p c = true) ∧ (s.take (ecQ (s.scx c) 0)).1 = some d) ∧
    (∃ p c : Nat, ∃ s : State, ∃ a : AccessUnit, s.alive p = true ∧ pageKind p = .dec ∧ (s.codecBlk p).cur = some c ∧ (s.decS c).st = 1 ∧ (s.decS c).complete = true ∧ (s.decS c).flush = false ∧ (s.decS c).stopping = false ∧ (s.decS c).waitIrap = true ∧ a.irap = false) ∧
    (∃ p c : Nat, ∃ s : State, ∃ a : AccessUnit, s.alive p = true ∧ pageKind p = .dec ∧ (s.codecBlk p).cur = some c ∧ (s.decS c).st = 1 ∧ (s.decS c).complete = true ∧ (s.decS c).flush = false ∧ (s.decS c).stopping = false ∧ ((s.decS c).waitIrap = false ∨ a.irap = true) ∧ decSupported (s.scx c) a = false) ∧
    (∃ p c : Nat, ∃ s : State, ∃ a : AccessUnit, s.alive p = true ∧ pageKind p = .dec ∧ (s.codecBlk p).cur = some c ∧ (s.decS c).st = 1 ∧ (s.decS c).complete = true ∧ (s.decS c).flush = false ∧ (s.decS c).stopping = false ∧ ((s.decS c).waitIrap = false ∨ a.irap = true) ∧ decSupported (s.scx c) a = true) ∧
    (∃ p c : Nat, ∃ s : State, ∃ d, s.alive p = true ∧ pageKind p = .dec ∧ (s.codecBlk p).cur = some c ∧ (s.decS c).st = 1 ∧ firstOut (s.decS c).dpb = some d) :=
  ⟨⟨0, 9, 0, ready, srcD, bufD, by decide +kernel⟩,
    ⟨0, 2, 9, (enc id (2 ^ 11 + 2 * 2 ^ 19)).setBusy P0 2 true, by decide +kernel⟩,
    ⟨0, 9, 1, 1, 0, coding (pic 4000), pic 4000, by decide +kernel⟩,
    ⟨0, 9, 1, 1, 0, coding (pic 5), pic 5, by decide +kernel⟩,
    ⟨0, 9, coding (sliced 0), sliced 0, ⟨0, 0, false⟩, 1, by decide +kernel⟩,
    ⟨0, 9, coding (sliced 3), sliced 3, ⟨0, 3, false⟩, 4, by decide +kernel⟩,
    ⟨2, 9, xs 2, xsP, by decide +kernel⟩,
    ⟨2, 9, xs 0, xsP, by decide +kernel⟩,
    ⟨pDEC 1, 9, dec fun e => { e with chunks := 1 }, srcD, by decide +kernel⟩,
    ⟨pDEC 1, 9, dec fun e => { e with complete := true, waitIrap := true, dpb := [dpic] }, au false, by decide +kernel⟩,
    ⟨pDEC 1, 9, dec fun e => { e with complete := true, waitIrap := true, dpb := [dpic] }, { au true with supported := false }, by decide +kernel⟩,
    ⟨pDEC 1, 9, dec fun e => { e with complete := true, waitIrap := true, dpb := [dpic] }, au true, by decide +kernel⟩,
    ⟨pDEC 1, 9, dec fun e => { e with complete := true, waitIrap := true, dpb := [dpic] }, dpic, by decide +kernel⟩⟩

end Codec

namespace Disp

def tim : List (Nat × Nat × Word) :=
  [(pDISP 2, Off.disp_TIMING_H, 64 + 128 * 65536), (pDISP 2, Off.disp_TIMING_V, 64 + 100 * 65536), (pDISP 2, Off.disp_TIMING_HS, 8 + 8 * 65536), (pDISP 2, Off.disp_TIMING_VS, 2 + 2 * 65536), (pDISP 2, Off.disp_PCLK, 25000), (pDISP 2, Off.disp_LINK, 0x47)]
def head (f : Head → Head) (l : List (Nat × Nat × Word)) : State := S (tim ++ l) ((queues live).modHead 2 f)
def linked (x t : Nat) : State := head (fun h => { h with link := x, tries := t }) []
def due (s : State) : State := s.modLine 2 fun r => { r with dueVblank := true, dueFrame := true, dueMatch := true, run := true, dueLine := [7] }
def commit (w : Word) : State :=
  due ((head id [(pDISP 2, Off.hdr_PG_SHADOW, 0x100)]).onShadow fun _ => [(rg (pDISP 2) Off.disp_TIMING_H, some (w + 128 * 65536))])
def pic (b : Nat) : LayerPic := { buf := b, size := 5, token := 6, frame := 7, flags := 8, retQ := 0x11, evt := 0x105, shown := 4 }
def layer (on : Word) (nx cu : Option LayerPic) : State :=
  due (head (fun h => { h with layers := [(3, { cur := cu, next := nx })] }) [(pDISP 2, Off.disp_L_CTRL + 0xC0, on)])
def picD (b : Nat) : Words := [wd b, 0, 2, 3, 4, 1, 6, 7]
def offer (b : Nat) : State :=
  due ((head id [(pDISP 2, Off.disp_L_CTRL + 0xC0, 1), (pDISP 2, Off.disp_IN_Q + 0xC0, 0x10)]).poke 0x10000100 (wordsBytes (picD b)))
def lineAt (t : Nat) : HeadLine := ⟨63, 5, t, [], []⟩
def waits (t : Nat) : State := head (fun h => { h with link := 3, lines := [lineAt t] }) []
def eye (pad : Nat) : State :=
  head (fun h => { h with eye := [(4, { due := some (9, 99), video := true, pad := pad, ref := 5 })] }) [(pEYE 2, Off.eye_E_CTRL, 3), (pEYE 2, erOff 4 Off.eye_R_CFG, 1)]
def ll : State :=
  (S [(pLINEVIEW, llOff 2 Off.lineview_LL_CFG, 1), (pLINEVIEW, llOff 2 Off.lineview_LL_STAT, 0x302)] (linked 3 0)).modSline (live.llSline 2) fun x => { x with started := some 5 }

/-- States and operands that meet the hypotheses of DisplayLinks, clause by clause. -/
theorem wit_DisplayLinks :
    (∃ n : Nat, ∃ s : State, n < 8 ∧ s.bit (pDISP n) Off.hdr_PG_CTRL 0 = true ∧ s.alive (pDISP n) = true ∧ (s.head n).link = 0) ∧
    (∃ n : Nat, ∃ s : State, n < 8 ∧ s.bit (pDISP n) Off.hdr_PG_CTRL 0 = false ∧ s.alive (pDISP n) = true ∧ (s.head n).link ≠ 0 ∧ s.pairLocked n = false ∧ s.activeV n ≤ (s.lineR n).line ∧ (s.head n).lines = [] ∧ (s.head n).done = none) ∧
    (∃ n : Nat, ∃ s : State, n < 8 ∧ ((s.head n).link = 1 ∨ (s.head n).link = 4)) ∧
    (∃ n : Nat, ∃ s : State, n < 8 ∧ ((s.head n).link = 2 ∨ (s.head n).link = 4)) ∧
    (∃ n : Nat, ∃ s : State, n < 8 ∧ (s.head n).link = 3) ∧
    (∃ n : Nat, ∃ s : State, n < 8 ∧ (s.head n).link = 2 ∧ (s.head n).tries < 2) ∧
    (∃ n : Nat, ∃ s : State, n < 8 ∧ (s.head n).link = 2 ∧ 2 ≤ (s.head n).tries) ∧
    (∃ m : Master, ∃ n : Nat, ∃ s : State, n < 8 ∧ s.Open m (pDISP n) ∧ (s.head n).aux = none) ∧
    (∃ m : Master, ∃ n : Nat, ∃ s : State, n < 8 ∧ s.Open m (pDISP n) ∧ (s.head n).aux ≠ none) ∧
    (∃ n outcome : Nat, ∃ s : State, ∃ c : Word, n < 8 ∧ outcome < 4 ∧ (s.head n).aux = some c) ∧
    (∃ n : Nat, ∃ s : State, n < 8 ∧ s.pendingCommit (pDISP n) = true ∧ 2 ≤ (s.head n).heldVb) ∧
    (∃ k t : Nat, ∃ s : State, k < 8 ∧ s.llOn k = true ∧ s.llState k = 2 ∧ (s.slineR (s.llSline k)).started = some t ∧ 5 * s.framePeriod k < 4 * (s.now - t)) :=
  ⟨⟨2, head id [(pDISP 2, Off.hdr_PG_CTRL, 1)], by decide +kernel⟩,
    ⟨2, (linked 3 0).modLine 2 fun r => { r with run := true, line := 64, frame := 5 }, by decide +kernel⟩,
    ⟨2, linked 1 0, by decide +kernel⟩,
    ⟨2, linked 2 1, by decide +kernel⟩,
    ⟨2, linked 3 0, by decide +kernel⟩,
    ⟨2, linked 2 1, by decide +kernel⟩,
    ⟨2, linked 2 2, by decide +kernel⟩,
    ⟨.host, 2, linked 3 0, by unfold State.Open; decide +kernel⟩,
    ⟨.host, 2, head (fun h => { h with aux := some 5 }) [], by unfold State.Open; decide +kernel⟩,
    ⟨2, 2, head (fun h => { h with aux := some 5 }) [], 5, by decide +kernel⟩,
    ⟨2, head (fun h => { h with heldVb := 2 }) [(pDISP 2, Off.hdr_PG_SHADOW, 0x100)], by decide +kernel⟩,
    ⟨2, 5, ll, by decide +kernel⟩⟩

/-- States and operands that meet the hypotheses of DisplayFrames, clause by clause. -/
theorem wit_DisplayFrames :
    (∃ n y : Nat, ∃ rest : List Nat, ∃ s : State, n < 8 ∧ (s.lineR n).dueLine = y :: rest) ∧
    (∃ n : Nat, ∃ l : HeadLine, ∃ rest : List HeadLine, ∃ s : State, n < 8 ∧ (s.head n).lines = l :: rest ∧ l.start + s.pxTicks n (s.reg (pDISP n) Off.disp_OUT_LAT).toNat ≤ s.now) ∧
    (∃ n : Nat, ∃ l : HeadLine, ∃ rest : List HeadLine, ∃ s : State, n < 8 ∧ (s.head n).lines = l :: rest ∧ s.now < l.start + s.pxTicks n (s.reg (pDISP n) Off.disp_OUT_LAT).toNat) ∧
    (∃ n : Nat, ∃ s : State, n < 8 ∧ s.Canonical ∧ s.pairLocked n = false ∧ (s.lineR n).dueVblank = true ∧ s.commitReady (pDISP n) = true ∧ s.dispValid n = true) ∧
    (∃ n : Nat, ∃ s : State, n < 8 ∧ s.Canonical ∧ s.pairLocked n = false ∧ (s.lineR n).dueVblank = true ∧ s.commitReady (pDISP n) = true ∧ s.dispValid n = false) ∧
    (∃ n : Nat, ∃ s : State, ∃ l : Nat, ∃ d : Words, n < 8 ∧ s.Canonical ∧ s.pairLocked n = false ∧ (s.lineR n).dueVblank = true ∧ l < 8 ∧ s.alive (pDISP n) = true ∧ s.pendingCommit (pDISP n) = false ∧ s.pendingCommit (pEYE n) = false ∧ (∀ j < 8, s.layerOn n j = true ↔ j = l) ∧ s.layerBand n l = false ∧ bitAt (s.lreg n l Off.disp_L_CTRL) 4 = false ∧ (s.layer n l).next = none ∧ ((s.qReissue (wfld (s.lreg n l Off.disp_IN_Q) 0 20)).isSome = true ∨ 0 < s.qOld (wfld (s.lreg n l Off.disp_IN_Q) 0 20)) ∧ (s.take (wfld (s.lreg n l Off.disp_IN_Q) 0 20)).1 = some d ∧ (s.offered n l d).refused = false) ∧
    (∃ n : Nat, ∃ s : State, ∃ l : Nat, ∃ d : Words, n < 8 ∧ s.Canonical ∧ s.pairLocked n = false ∧ (s.lineR n).dueVblank = true ∧ l < 8 ∧ s.alive (pDISP n) = true ∧ s.pendingCommit (pDISP n) = false ∧ s.pendingCommit (pEYE n) = false ∧ (∀ j < 8, s.layerOn n j = true ↔ j = l) ∧ s.layerBand n l = false ∧ bitAt (s.lreg n l Off.disp_L_CTRL) 4 = false ∧ (s.layer n l).next = none ∧ ((s.qReissue (wfld (s.lreg n l Off.disp_IN_Q) 0 20)).isSome = true ∨ 0 < s.qOld (wfld (s.lreg n l Off.disp_IN_Q) 0 20)) ∧ (s.take (wfld (s.lreg n l Off.disp_IN_Q) 0 20)).1 = some d ∧ (s.offered n l d).refused = true) ∧
    (∃ n : Nat, ∃ s : State, n < 8 ∧ (s.lineR n).dueMatch = true) ∧
    (∃ n l : Nat, ∃ s : State, ∃ p, n < 8 ∧ l < 8 ∧ (s.lineR n).dueFrame = true ∧ s.pairLocked n = false ∧ s.fenced (pDISP n) = false ∧ s.layerOn n l = true ∧ s.layerBand n l = false ∧ (s.layer n l).next = some p) ∧
    (∃ n l : Nat, ∃ s : State, ∃ p, n < 8 ∧ l < 8 ∧ (s.lineR n).dueFrame = true ∧ s.pairLocked n = false ∧ s.fenced (pDISP n) = false ∧ s.layerOn n l = true ∧ s.layerBand n l = false ∧ (s.layer n l).next = none ∧ (s.layer n l).cur = some p) ∧
    (∃ n l : Nat, ∃ s : State, n < 8 ∧ l < 8 ∧ (s.lineR n).dueFrame = true ∧ s.pairLocked n = false ∧ s.fenced (pDISP n) = false ∧ s.layerOn n l = false) ∧
    (∃ n f t : Nat, ∃ s : State, n < 8 ∧ (s.head n).done = some (f, t) ∧ t ≤ s.now ∧ s.pairLocked n = false ∧ s.fenced (pDISP n) = false) ∧
    (∃ n r frame t : Nat, ∃ s : State, n < 8 ∧ r < 16 ∧ s.alive (pEYE n) = true ∧ s.bit (pEYE n) Off.eye_E_CTRL 0 = true ∧ s.bit (pEYE n) (erOff r Off.eye_R_CFG) 0 = true ∧ s.bit (pEYE n) (erOff r Off.eye_R_CFG) 1 = false ∧ (s.eyeReg n r).due = some (frame, t) ∧ (s.eyeReg n r).video = true ∧ (s.eyeReg n r).inject = false ∧ (s.eyeReg n r).marked = false ∧ (s.eyeReg n r).pad = (s.eyeReg n r).ref ∧ s.bit (pEYE n) (erOff r Off.eye_R_CFG) 7 = false) ∧
    (∃ n r frame t : Nat, ∃ s : State, n < 8 ∧ r < 16 ∧ s.alive (pEYE n) = true ∧ s.bit (pEYE n) Off.eye_E_CTRL 0 = true ∧ s.bit (pEYE n) (erOff r Off.eye_R_CFG) 0 = true ∧ s.bit (pEYE n) (erOff r Off.eye_R_CFG) 1 = false ∧ (s.eyeReg n r).due = some (frame, t) ∧ (s.eyeReg n r).video = true ∧ (s.eyeReg n r).inject = false ∧ (s.eyeReg n r).marked = false ∧ (s.eyeReg n r).pad ≠ (s.eyeReg n r).ref) ∧
    (∃ m : Master, ∃ n : Nat, ∃ s : State, n < 8 ∧ s.Open m (pEYE n)) :=
  ⟨⟨2, 7, [], due (linked 3 0), by decide +kernel⟩,
    ⟨2, lineAt 9000, [], waits 9000, by decide +kernel⟩,
    ⟨2, lineAt 1000000001, [], waits 1000000001, by decide +kernel⟩,
    ⟨2, commit 72, by unfold State.Canonical; decide +kernel⟩,
    ⟨2, commit 73, by unfold State.Canonical; decide +kernel⟩,
    ⟨2, offer 0x10000000, 3, picD 0x10000000, by unfold State.Canonical; decide +kernel⟩,
    ⟨2, offer 0, 3, picD 0, by unfold State.Canonical; decide +kernel⟩,
    ⟨2, due (head id []), by decide +kernel⟩,
    ⟨2, 3, layer 1 (some (pic 1)) none, pic 1, by decide +kernel⟩,
    ⟨2, 3, layer 1 none (some (pic 2)), pic 2, by decide +kernel⟩,
    ⟨2, 2, layer 1 (some (pic 1)) none, by decide +kernel⟩,
    ⟨2, 5, 77, head (fun h => { h with done := some (5, 77) }) [], by decide +kernel⟩,
    ⟨2, 4, 9, 99, eye 5, by decide +kernel⟩,
    ⟨2, 4, 9, 99, eye 6, by decide +kernel⟩,
    ⟨.host, 2, live, by unfold State.Open; decide +kernel⟩⟩

end Disp

namespace Tdm

def cfg (lead tx slave : Nat) : Word := wd (lead + 32 * tx + 64 * slave + 7 * 256 + 2 * 2 ^ 13)
def port (lead tx slave : Nat) (l : List (Nat × Nat × Word)) (f : TdmSet → TdmSet) (g : TdmPort → TdmPort) : State :=
  (((S ([(pTDM 3, Off.tdm_CFG, cfg lead tx slave), (pTDM 3, Off.tdm_RATE, 48000 + 2 ^ 24), (pTDM 3, Off.tdm_RING_SIZE, 12), (pTDM 3, Off.tdm_RING_LO, 0x10000000), (pTDM 3, Off.tdm_SLOT_MASK, 3)] ++ l) (queues live)).modTset 3 f).modTport 3 g).onTb fun t => { t with time := 10 ^ 9 * 65536 }
def set (st : Nat) : State := port 3 0 0 [] (fun x => { x with st := st, act := if st = 0 then [] else [3] }) id
def runs (slave sw k : Nat) (stop : Bool) : State :=
  port 3 0 slave [(pTDM 3, Off.tdm_SW_COUNT, wd sw)] (fun x => { x with st := 2, k := k, act := [3], stop := stop }) fun p => { p with run := true, mask := 3 }
def waitsSync (slave : Nat) : State := port 3 0 slave [] (fun x => { x with st := 1, k0 := 48001, act := [3] }) fun p => { p with run := true, mask := 3 }
def swc (v : Word) : State :=
  (port 3 1 1 [(pTDM 3, Off.tdm_SWC_ADDR_LO, 0x10001000)] (fun x => { x with st := 2, act := [3] }) fun p => { p with run := true, mask := 3, ans := false }).poke 0x10001000 (wordsBytes [v])
def hw (tx v : Nat) : State := port 3 tx 0 [(pTDM 3, Off.tdm_HW_COUNT, wd v)] id id
def period : TdmPeriod := { frame := 5, count := 6, time := none }
def posts (q : Word) : State := port 3 0 0 [(pTDM 3, Off.tdm_PERIOD_Q, q)] id fun p => { p with posts := [period, period] }

/-- States and operands that meet the hypotheses of TdmSets, clause by clause. -/
theorem wit_TdmSets :
    (∃ m : Master, ∃ n : Nat, ∃ s : State, n < 32 ∧ s.Open m (pTDM n) ∧ s.isLead n = false) ∧
    (∃ m : Master, ∃ n : Nat, ∃ s : State, n < 32 ∧ s.Open m (pTDM n) ∧ s.isLead n = true ∧ (s.tset n).st ≠ 0) ∧
    (∃ m : Master, ∃ n : Nat, ∃ s : State, n < 32 ∧ s.Open m (pTDM n) ∧ s.isLead n = true ∧ (s.tset n).st = 0 ∧ (s.tden n = 0 ∨ s.tnum n < 8000 * s.tden n ∨ 192000 * s.tden n < s.tnum n ∨ s.fld (pTDM n) Off.tdm_RING_SIZE 0 5 < 10 ∨ 24 < s.fld (pTDM n) Off.tdm_RING_SIZE 0 5 ∨ s.ringBase n % 64 ≠ 0 ∨ s.tslotW n < s.tcfg n 17 5 + s.tdataW n)) ∧
    (∃ m : Master, ∃ n : Nat, ∃ s : State, n < 32 ∧ s.Open m (pTDM n) ∧ s.isLead n = true ∧ (s.tset n).st = 0 ∧ s.tsetOk n ((s.tmembers n).filter fun p => s.alive (pTDM p)) = true) ∧
    (∃ m : Master, ∃ n : Nat, ∃ s : State, n < 32 ∧ s.Open m (pTDM n) ∧ s.isLead n = true ∧ (s.tset n).st = 1) ∧
    (∃ m : Master, ∃ n : Nat, ∃ s : State, n < 32 ∧ s.Open m (pTDM n) ∧ s.isLead n = true ∧ (s.tset n).st = 2) ∧
    (∃ n k : Nat, ∃ s : State, n < 32 ∧ s.tcfg n 6 1 = 0 ∧ ((s.tset n).st = 1 ∨ (s.tset n).st = 2) ∧ k = (if (s.tset n).st = 1 then (s.tset n).k0 else (s.tset n).k + 1) ∧ ((s.tb.time : Int) - s.tanchor n * 65536 - (s.tset n).err) * s.tnum n < (k * 1000000000 * 65536 * s.tden n : Nat)) ∧
    (∃ n k : Nat, ∃ s : State, n < 32 ∧ s.tcfg n 6 1 = 0 ∧ ((s.tset n).st = 1 ∨ (s.tset n).st = 2) ∧ k = (if (s.tset n).st = 1 then (s.tset n).k0 else (s.tset n).k + 1) ∧ (k * 1000000000 * 65536 * s.tden n : Nat) ≤ ((s.tb.time : Int) - s.tanchor n * 65536 - (s.tset n).err) * s.tnum n ∧ (s.tset n).stop = true ∧ (s.tset n).st = 2) ∧
    (∃ n k : Nat, ∃ s : State, ∃ fb : Nat, n < 32 ∧ s.tcfg n 6 1 = 0 ∧ ((s.tset n).st = 1 ∨ (s.tset n).st = 2) ∧ k = (if (s.tset n).st = 1 then (s.tset n).k0 else (s.tset n).k + 1) ∧ (k * 1000000000 * 65536 * s.tden n : Nat) ≤ ((s.tb.time : Int) - s.tanchor n * 65536 - (s.tset n).err) * s.tnum n ∧ (s.tset n).stop = false ∧ s.pendingCommit (pTDM n) = false ∧ (s.tset n).st = 2 ∧ (s.tset n).act = [n] ∧ s.ttx n = false ∧ (s.tport n).dq = [] ∧ (s.tport n).maskAt = none ∧ s.swcAddr n = 0 ∧ fb = popCount (s.tport n).mask (s.tslots n) * s.tcont n ∧ (fb : Int) ≤ s.ringBytes n - signed 32 ((s.hwCount n + 2 ^ 32 - (s.reg (pTDM n) Off.tdm_SW_COUNT).toNat) % 2 ^ 32)) ∧
    (∃ n k : Nat, ∃ s : State, ∃ fb : Nat, n < 32 ∧ s.tcfg n 6 1 = 0 ∧ ((s.tset n).st = 1 ∨ (s.tset n).st = 2) ∧ k = (if (s.tset n).st = 1 then (s.tset n).k0 else (s.tset n).k + 1) ∧ (k * 1000000000 * 65536 * s.tden n : Nat) ≤ ((s.tb.time : Int) - s.tanchor n * 65536 - (s.tset n).err) * s.tnum n ∧ (s.tset n).stop = false ∧ s.pendingCommit (pTDM n) = false ∧ (s.tset n).st = 2 ∧ (s.tset n).act = [n] ∧ s.ttx n = false ∧ (s.tport n).dq = [] ∧ (s.tport n).maskAt = none ∧ s.swcAddr n = 0 ∧ fb = popCount (s.tport n).mask (s.tslots n) * s.tcont n ∧ s.ringBytes n - signed 32 ((s.hwCount n + 2 ^ 32 - (s.reg (pTDM n) Off.tdm_SW_COUNT).toNat) % 2 ^ 32) < (fb : Int)) ∧
    (∃ n : Nat, ∃ s : State, n < 32 ∧ s.tcfg n 6 1 = 1 ∧ s.alive (pTDM n) = true ∧ (s.tset n).st = 1) ∧
    (∃ n : Nat, ∃ s : State, n < 32 ∧ s.tcfg n 6 1 = 1 ∧ s.alive (pTDM n) = true ∧ (s.tset n).st = 2 ∧ (s.tset n).stop = false) ∧
    (∃ n : Nat, ∃ s : State, n < 32 ∧ s.tcfg n 6 1 = 1 ∧ s.alive (pTDM n) = true ∧ (s.tset n).st = 2 ∧ (s.tset n).stop = true) ∧
    (∃ n : Nat, ∃ s : State, n < 32 ∧ s.tcfg n 6 1 = 1 ∧ (s.tset n).st = 2 ∧ (s.tset n).lost = false ∧ (s.tset n).edge + 2 * s.tperiod n ≤ s.now ∧ (s.tset n).stop = false) ∧
    (∃ n : Nat, ∃ s : State, n < 32 ∧ (s.tport n).run = true ∧ s.swcAddr n ≠ 0 ∧ (s.tport n).ans = false ∧ (s.tport n).armFetch = false ∧ (s.busRead (s.swcAddr n) 4).1.bad = false ∧ s.swRefused n (ofLeBytes (s.busRead (s.swcAddr n) 4).1.bytes) = false) ∧
    (∃ m : Master, ∃ n : Nat, ∃ v : Word, ∃ s : State, ∃ d : Int, n < 32 ∧ s.Open m (pTDM n) ∧ d = signed 32 (if s.ttx n then (v.toNat + 2 ^ 32 - s.hwCount n) % 2 ^ 32 else (s.hwCount n + 2 ^ 32 - v.toNat) % 2 ^ 32) ∧ (s.ringBytes n < d ∨ (s.ttx n = false ∧ d < 0))) ∧
    (∃ m : Master, ∃ n : Nat, ∃ v : Word, ∃ s : State, ∃ d : Int, n < 32 ∧ s.Open m (pTDM n) ∧ d = signed 32 (if s.ttx n then (v.toNat + 2 ^ 32 - s.hwCount n) % 2 ^ 32 else (s.hwCount n + 2 ^ 32 - v.toNat) % 2 ^ 32) ∧ d ≤ s.ringBytes n ∧ (s.ttx n = true ∨ 0 ≤ d)) ∧
    (∃ n q : Nat, ∃ p : TdmPeriod, ∃ rest : List TdmPeriod, ∃ s : State, n < 32 ∧ s.alive (pTDM n) = true ∧ s.alive (pQM 0) = true ∧ (s.tport n).posts = p :: rest ∧ q = s.fld (pTDM n) Off.tdm_PERIOD_Q 0 20 ∧ s.qValid q = true ∧ (s.qView q).full = true) ∧
    (∃ n q : Nat, ∃ p : TdmPeriod, ∃ rest : List TdmPeriod, ∃ s : State, n < 32 ∧ s.alive (pTDM n) = true ∧ s.alive (pQM 0) = true ∧ (s.tport n).posts = p :: rest ∧ q = s.fld (pTDM n) Off.tdm_PERIOD_Q 0 20 ∧ s.qValid q = true ∧ (s.qView q).full = false ∧ s.qm.pushBuf = []) :=
  ⟨⟨.host, 3, port 4 0 0 [] id id, by unfold State.Open; decide +kernel⟩,
    ⟨.host, 3, set 1, by unfold State.Open; decide +kernel⟩,
    ⟨.host, 3, port 3 0 0 [(pTDM 3, Off.tdm_RING_SIZE, 9)] id id, by unfold State.Open; decide +kernel⟩,
    ⟨.host, 3, set 0, by unfold State.Open; decide +kernel⟩,
    ⟨.host, 3, set 1, by unfold State.Open; decide +kernel⟩,
    ⟨.host, 3, set 2, by unfold State.Open; decide +kernel⟩,
    ⟨3, 48001, waitsSync 0, by decide +kernel⟩,
    ⟨3, 48000, runs 0 0 47999 true, by decide +kernel⟩,
    ⟨3, 48000, runs 0 0 47999 false, 4, by decide +kernel⟩,
    ⟨3, 48000, runs 0 (2 ^ 32 - 4096) 47999 false, 4, by decide +kernel⟩,
    ⟨3, waitsSync 1, by decide +kernel⟩,
    ⟨3, runs 1 0 5 false, by decide +kernel⟩,
    ⟨3, runs 1 0 5 true, by decide +kernel⟩,
    ⟨3, runs 1 0 5 false, by decide +kernel⟩,
    ⟨3, swc 4, by decide +kernel⟩,
    ⟨.host, 3, 4097, hw 1 0, 4097, by unfold State.Open; decide +kernel⟩,
    ⟨.host, 3, 4096, hw 1 0, 4096, by unfold State.Open; decide +kernel⟩,
    ⟨3, 0x13, period, [period], posts 0x13, by decide +kernel⟩,
    ⟨3, 0x10, period, [period], posts 0x10, by decide +kernel⟩⟩

end Tdm

namespace Net

def mac (mode fst : Nat) (l : List (Nat × Nat × Word)) (f : MacPort → MacPort) : State :=
  (S ([(pMAC 5, Off.mac_CFG, wd (mode + 256 * fst)), (pMAC 5, Off.mac_MAX_FRAME, 1522)] ++ (List.range 4).map (fun i => (pSWIFT (fst + i), Off.swift_LANE_CFG, wd (1 + 5 * 256 + i * 65536))) ++ l) ((queues live).onTb fun t => { t with time := 10 ^ 9 * 65536 })).modMac 5 f
def up (l : List (Nat × Nat × Word)) (f : MacPort → MacPort) : State := mac 3 10 ((pMAC 5, Off.mac_LINK, 0xF1) :: l) f
def gates (l : List (Nat × Nat × Word)) (f : MacPort → MacPort) : State :=
  mac 3 10 ([(tsnPage 5, tsnOff 5 Off.tsn_ADMIN_CYCLE, 1000), (tsnPage 5, tsnOff 5 Off.tsn_OPER_CYCLE, 6000), (tsnPage 5, tsnOff 5 Off.tsn_GATE_CTRL, 1 + 3 * 256)] ++ l) fun m => f { m with oper := [(0xFF, 1000), (3, 2000)], ends := 10 ^ 9 }
def frame : TxFrame := { cls := 3, desc := [0x10002000, 0, 100, 0, 0, 0, 0, 0], bytes := List.replicate 100 5, ts := 1000, fin := 999999999 }
def badD : Words := [0x10002000, 0, 100 + 2 ^ 21, 0, 0, 0, 0, 0]
def txBad : State := (up [(pMAC 5, Off.mac_TXQ0 + 12, 0x80000010)] id).poke 0x10000100 (wordsBytes badD)
def bytes : List Byte := List.replicate 6 0xFF ++ List.replicate 94 5
def bufD : Words := [0x10002000, 0, 2000, 7, 0, 0, 0, 0]
def rx (q : Word) : State := (up [(pMAC 5, Off.mac_RX_FREE_Q, q), (pMAC 5, Off.mac_DEF_Q, 0x98), (pMAC 5, Off.mac_BE_LIMIT, 0)] id).poke 0x10000100 (wordsBytes bufD)
def rcv : State := (up [] id).onNet fun t => { t with rcv := [(130, { d0 := 1 + 5 * 256, any := false, hist := [true], last := 5 })] }
def ctx : Words := 1 :: 0 :: 0 :: 0 :: 0x10 :: 0x11 :: wd (5 + 9 * 65536) :: List.replicate 25 0
def flow (k : Nat) (w : Word) (n : Nat) : State :=
  ((S [(pTSN 0, Off.tsn_FLOW_SEL, 9), (pTSN 0, Off.tsn_FLOW_D0, w)] (up [] id)).onNet fun t => { t with flow := [(9, { held := [(2, bufD, 5)], exp := 65530 })] }).onQm fun m =>
    { m with scx := [(9, ctx), (20, [1])], scxKind := (if k = 0 then [] else [(9, k)]) ++ List.replicate n (20, 5) }
def filt (e d : Word) : State :=
  (S [(pTSN 2, Off.tsn_FILT_SEL, 3), (pTSN 2, Off.tsn_REC_SEL, 4), (pTSN 2, Off.tsn_FILT_D0, d)] (up [] id)).onNet fun t =>
    { t with filt := [(515, { ws := [e, 2, 3, 0x8004, 5, 6, 7, 8] })], rcv := [(260, { d0 := e })] }
def ann : PtpAnnounce :=
  { priority1 := 1, clockClass := 2, accuracy := 3, variance := 4, priority2 := 5, identity := 0x123456789, steps := 1, source := 2, utc := 37, utcValid := true }
def ptp (l : List (Nat × Nat × Word)) (f : PtpPort → PtpPort) (g : Ptp → Ptp) : State :=
  ((up ([(pPTP, Off.ptp_CFG, wd (1 + 2 * 2 + 0xF0 + 5 * 2 ^ 20)), (pPTP, Off.ptp_SLEW_LIMIT, 100), (pPTP, Off.ptp_STEP_LIMIT, 200000), (pPTP, Off.ptp_CONFIRM, wd (3 + 50 * 65536)), (pTIMEBASE, Off.timebase_TIME_STAT, 1), (pPTP, Off.ptp_STAT, 2)] ++ l) id).modPport 1 f).modPtp g
def sync (off : Int) (sel : Nat) (n : Word) : State :=
  ptp [(pPTP, Off.ptp_CONFIRM, n)] (fun p => { p with two := some (7, ((10 ^ 9 : Int) + off) * 65536, 0) }) fun p => { p with sel := some sel }

/-- States and operands that meet the hypotheses of MacsAndGates, clause by clause. -/
theorem wit_MacsAndGates :
    (∃ m : Master, ∃ n : Nat, ∃ v : Word, ∃ s : State, n < 16 ∧ s.Open m (pMAC n) ∧ wfld (s.reg (pMAC n) Off.mac_CFG) 0 18 ≠ wfld v 0 18 ∧ s.macMode n ≠ 0) ∧
    (∃ m : Master, ∃ n : Nat, ∃ v : Word, ∃ s : State, n < 16 ∧ s.Open m (pMAC n) ∧ wfld (s.reg (pMAC n) Off.mac_CFG) 0 18 ≠ wfld v 0 18 ∧ s.macMode n = 0 ∧ wfld v 0 3 < 7 ∧ fecOk (wfld v 0 3) (wfld v 3 2) = true ∧ (∀ i < modeLanes (wfld v 0 3), wfld v 8 8 + i < 192 ∧ s.fld (pSWIFT (wfld v 8 8 + i)) Off.swift_LANE_CFG 0 3 = 1 ∧ s.fld (pSWIFT (wfld v 8 8 + i)) Off.swift_LANE_CFG 8 8 = n ∧ s.fld (pSWIFT (wfld v 8 8 + i)) Off.swift_LANE_CFG 16 4 = i)) ∧
    (∃ m : Master, ∃ n : Nat, ∃ v : Word, ∃ s : State, n < 16 ∧ s.Open m (pMAC n) ∧ wfld (s.reg (pMAC n) Off.mac_CFG) 0 18 ≠ wfld v 0 18 ∧ s.macMode n = 0 ∧ (wfld v 0 3 = 7 ∨ (∃ i < modeLanes (wfld v 0 3), 192 ≤ wfld v 8 8 + i ∨ s.fld (pSWIFT (wfld v 8 8 + i)) Off.swift_LANE_CFG 0 3 ≠ 1 ∨ s.fld (pSWIFT (wfld v 8 8 + i)) Off.swift_LANE_CFG 8 8 ≠ n))) ∧
    (∃ n : Nat, ∃ s : State, n < 16 ∧ s.alive (pMAC n) = true ∧ s.macMode n ≠ 0 ∧ s.linkUp n = false ∧ s.fld (pMAC n) Off.mac_CFG 8 8 + modeLanes (s.macMode n) ≤ 192) ∧
    (∃ n pos : Nat, ∃ s : State, n < 16 ∧ pos < 4 ∧ s.linkUp n = true ∧ s.fld (pMAC n) Off.mac_CFG 8 8 + pos < 192) ∧
    (∃ n : Nat, ∃ s : State, n < 16 ∧ (s.mac n).oper ≠ [] ∧ (s.mac n).ends ≤ s.timeNs ∧ s.reg (tsnPage n) (tsnOff n Off.tsn_OPER_CYCLE) ≠ 0) ∧
    (∃ m : Master, ∃ n : Nat, ∃ s : State, ∃ p o c : Nat, n < 16 ∧ p = tsnPage n ∧ o = tsnOff n Off.tsn_GATE_CTRL ∧ c = s.fld p (tsnOff n Off.tsn_ADMIN_CYCLE) 0 30 ∧ s.Open m p ∧ s.bit p o 2 = true) ∧
    (∃ m : Master, ∃ n : Nat, ∃ v : Word, ∃ s : State, ∃ p o c : Nat, n < 16 ∧ p = tsnPage n ∧ o = tsnOff n Off.tsn_GATE_CTRL ∧ c = s.fld p (tsnOff n Off.tsn_ADMIN_CYCLE) 0 30 ∧ s.Open m p ∧ s.bit p o 2 = false ∧ (wfld v 8 9 = 0 ∨ 256 < wfld v 8 9 ∨ c < 1000 ∨ 1000000000 < c)) ∧
    (∃ m : Master, ∃ n : Nat, ∃ v : Word, ∃ s : State, ∃ p o c : Nat, n < 16 ∧ p = tsnPage n ∧ o = tsnOff n Off.tsn_GATE_CTRL ∧ c = s.fld p (tsnOff n Off.tsn_ADMIN_CYCLE) 0 30 ∧ s.Open m p ∧ s.bit p o 2 = false ∧ 1 ≤ wfld v 8 9 ∧ wfld v 8 9 ≤ 256 ∧ 1000 ≤ c ∧ c ≤ 1000000000) ∧
    (∃ n t p : Nat, ∃ s : State, n < 16 ∧ p = tsnPage n ∧ (s.mac n).change = some t ∧ t ≤ s.timeNs) ∧
    (∃ m : Master, ∃ k n i : Nat, ∃ s : State, k < 8 ∧ s.Open m (pTSN k) ∧ n = 2 * k + s.fld (pTSN k) Off.tsn_GCL_SEL 8 1 ∧ i = s.fld (pTSN k) Off.tsn_GCL_SEL 0 8 ∧ (s.mac n).change = none) ∧
    (∃ m : Master, ∃ k n i : Nat, ∃ s : State, k < 8 ∧ s.Open m (pTSN k) ∧ n = 2 * k + s.fld (pTSN k) Off.tsn_GCL_SEL 8 1 ∧ i = s.fld (pTSN k) Off.tsn_GCL_SEL 0 8 ∧ (s.mac n).change ≠ none) ∧
    (∃ m : Master, ∃ n i : Nat, ∃ v : Word, ∃ s : State, n < 16 ∧ i < 2 ∧ s.Open m (tsnPage n) ∧ bitAt v 27 = false) ∧
    (∃ m : Master, ∃ n i : Nat, ∃ v : Word, ∃ s : State, n < 16 ∧ i < 2 ∧ s.Open m (tsnPage n) ∧ bitAt v 27 = true ∧ bitAt (s.cbs n (1 - i)) 27 = false ∧ 4 * wfld v 0 24 ≤ 3 * s.linkKbps n) ∧
    (∃ m : Master, ∃ n i : Nat, ∃ v : Word, ∃ s : State, n < 16 ∧ i < 2 ∧ s.Open m (tsnPage n) ∧ bitAt v 27 = true ∧ 0 < wfld v 0 24 ∧ 3 * s.linkKbps n < 4 * wfld v 0 24) ∧
    (∃ m : Master, ∃ n i : Nat, ∃ v : Word, ∃ s : State, n < 16 ∧ i < 2 ∧ s.Open m (tsnPage n) ∧ bitAt v 27 = true ∧ bitAt (s.cbs n (1 - i)) 27 = true ∧ wfld v 24 3 = wfld (s.cbs n (1 - i)) 24 3) ∧
    (∃ n : Nat, ∃ s : State, n < 16 ∧ s.fld (pMAC n) Off.mac_LINK 8 2 = 1) :=
  ⟨⟨.host, 5, 6 + 256 * 10, mac 3 10 [] id, by unfold State.Open; decide +kernel⟩,
    ⟨.host, 5, 6 + 256 * 10, mac 0 10 [] id, by unfold State.Open; decide +kernel⟩,
    ⟨.host, 5, 7, mac 0 10 [] id, by unfold State.Open; decide +kernel⟩,
    ⟨5, mac 6 10 [] id, by decide +kernel⟩,
    ⟨5, 3, up [] id, by decide +kernel⟩,
    ⟨5, gates [] id, by decide +kernel⟩,
    ⟨.host, 5, gates [(tsnPage 5, tsnOff 5 Off.tsn_GATE_CTRL, 4)] id, tsnPage 5, tsnOff 5 Off.tsn_GATE_CTRL, 1000, by unfold State.Open; decide +kernel⟩,
    ⟨.host, 5, 257 * 256, gates [] id, tsnPage 5, tsnOff 5 Off.tsn_GATE_CTRL, 1000, by unfold State.Open; decide +kernel⟩,
    ⟨.host, 5, 256 * 256, gates [] id, tsnPage 5, tsnOff 5 Off.tsn_GATE_CTRL, 1000, by unfold State.Open; decide +kernel⟩,
    ⟨5, 10 ^ 9, tsnPage 5, gates [] fun m => { m with change := some (10 ^ 9) }, by decide +kernel⟩,
    ⟨.host, 2, 5, 255, gates [(pTSN 2, Off.tsn_GCL_SEL, 0x1FF)] id, by unfold State.Open; decide +kernel⟩,
    ⟨.host, 2, 5, 255, gates [(pTSN 2, Off.tsn_GCL_SEL, 0x1FF)] fun m => { m with change := some 5 }, by unfold State.Open; decide +kernel⟩,
    ⟨.host, 5, 1, 5, up [] id, by unfold State.Open; decide +kernel⟩,
    ⟨.host, 5, 1, 0x0F000064, up [] id, by unfold State.Open; decide +kernel⟩,
    ⟨.host, 5, 1, 0x0FFFFFFF, up [] id, by unfold State.Open; decide +kernel⟩,
    ⟨.host, 5, 1, 0x0F000064, up [(tsnPage 5, tsnOff 5 Off.tsn_CBS_A, 0x0F000064)] id, by unfold State.Open; decide +kernel⟩,
    ⟨5, up [(pMAC 5, Off.mac_LINK, 0x1F1)] id, by decide +kernel⟩⟩

/-- States and operands that meet the hypotheses of FramesAndStreams, clause by clause. -/
theorem wit_FramesAndStreams :
    (∃ n c : Nat, ∃ f : TxFrame, ∃ e : ReadErr, ∃ s : State, n < 16 ∧ c < 8 ∧ s.alive (pMAC n) = true ∧ s.macMode n ≠ 0 ∧ s.linkUp n = true ∧ (∀ j < 8, s.txHead n j = (if j = c then some f else none) ∧ Map.get (fun _ => []) (s.mac n).copies j = [] ∧ s.bit (pMAC n) (Off.mac_TXQ0 + 4 * j) 31 = false) ∧ (s.mac n).cur = none ∧ (s.mac n).held = none ∧ (s.mac n).idleAt ≤ s.now ∧ f.st = none ∧ txFlag f.desc 0 = false ∧ txFlag f.desc 2 = false ∧ (s.creditStep n).txEligible n f = true ∧ (s.takeErr (pMAC n) e).1 ≠ .uncorrectable) ∧
    (∃ n c : Nat, ∃ f : TxFrame, ∃ e : ReadErr, ∃ s : State, n < 16 ∧ c < 8 ∧ s.alive (pMAC n) = true ∧ s.macMode n ≠ 0 ∧ s.linkUp n = true ∧ (∀ j < 8, s.txHead n j = (if j = c then some f else none) ∧ Map.get (fun _ => []) (s.mac n).copies j = [] ∧ s.bit (pMAC n) (Off.mac_TXQ0 + 4 * j) 31 = false) ∧ (s.mac n).cur = none ∧ (s.mac n).held = none ∧ (s.mac n).idleAt ≤ s.now ∧ f.st = none ∧ txFlag f.desc 0 = false ∧ txFlag f.desc 2 = false ∧ (s.creditStep n).txEligible n f = true ∧ (s.takeErr (pMAC n) e).1 = .uncorrectable) ∧
    (∃ n c : Nat, ∃ f : TxFrame, ∃ s : State, n < 16 ∧ c < 8 ∧ s.alive (pMAC n) = true ∧ s.macMode n ≠ 0 ∧ s.linkUp n = true ∧ (∀ j < 8, s.txHead n j = (if j = c then some f else none) ∧ Map.get (fun _ => []) (s.mac n).copies j = [] ∧ s.bit (pMAC n) (Off.mac_TXQ0 + 4 * j) 31 = false) ∧ (s.mac n).cur = none ∧ (s.mac n).held = none ∧ (s.mac n).idleAt ≤ s.now ∧ f.st = none ∧ txFlag f.desc 0 = false ∧ txFlag f.desc 2 = false ∧ (s.creditStep n).txEligible n f = false) ∧
    (∃ n c : Nat, ∃ d : Words, ∃ s : State, n < 16 ∧ c < 8 ∧ s.alive (pMAC n) = true ∧ s.macMode n ≠ 0 ∧ s.linkUp n = true ∧ (∀ j < 8, s.txHead n j = none ∧ Map.get (fun _ => []) (s.mac n).copies j = [] ∧ (s.bit (pMAC n) (Off.mac_TXQ0 + 4 * j) 31 = true ↔ j = c)) ∧ (s.mac n).cur = none ∧ (s.mac n).held = none ∧ (s.mac n).idleAt ≤ s.now ∧ (s.take (s.fld (pMAC n) (Off.mac_TXQ0 + 4 * c) 0 20)).1 = some d ∧ txFlag d 0 = false ∧ txReserved d = true) ∧
    (∃ n : Nat, ∃ f : TxFrame, ∃ s : State, n < 16 ∧ (s.mac n).cur = some f ∧ f.repl = none ∧ f.fin ≤ s.now) ∧
    (∃ n : Nat, ∃ f : TxFrame, ∃ s : State, n < 16 ∧ (s.mac n).cur = some f ∧ f.repl = none ∧ s.now < f.fin ∧ (s.mac n).comps = []) ∧
    (∃ n frag : Nat, ∃ bs : List Byte, ∃ s : State, n < 16 ∧ s.alive (pMAC n) = true ∧ s.linkUp n = true ∧ frag ≠ 2 ∧ (bs.length + 4 < 64 ∨ s.fld (pMAC n) Off.mac_MAX_FRAME 0 14 < bs.length + 4)) ∧
    (∃ n frag : Nat, ∃ bs : List Byte, ∃ s : State, n < 16 ∧ s.alive (pMAC n) = true ∧ s.linkUp n = true ∧ frag ≠ 2 ∧ 64 ≤ bs.length + 4 ∧ bs.length + 4 ≤ s.fld (pMAC n) Off.mac_MAX_FRAME 0 14 ∧ fieldAt bs (typeOffset bs) 2 ≠ 0x8808 ∧ frameDa bs = 2 ^ 48 - 1 ∧ s.filtFor n bs = none ∧ s.flowFor bs = none ∧ s.ptpFrame n bs = false ∧ s.fld (pMAC n) Off.mac_BE_LIMIT 0 24 = 0 ∧ s.qPeek (s.fld (pMAC n) Off.mac_RX_FREE_Q 0 20) = none) ∧
    (∃ n frag : Nat, ∃ bs : List Byte, ∃ s : State, ∃ d, n < 16 ∧ s.alive (pMAC n) = true ∧ s.linkUp n = true ∧ frag ≠ 2 ∧ 64 ≤ bs.length + 4 ∧ bs.length + 4 ≤ s.fld (pMAC n) Off.mac_MAX_FRAME 0 14 ∧ fieldAt bs (typeOffset bs) 2 ≠ 0x8808 ∧ frameDa bs = 2 ^ 48 - 1 ∧ s.filtFor n bs = none ∧ s.flowFor bs = none ∧ s.ptpFrame n bs = false ∧ s.fld (pMAC n) Off.mac_BE_LIMIT 0 24 = 0 ∧ s.qPeek (s.fld (pMAC n) Off.mac_RX_FREE_Q 0 20) = some d ∧ bs.length ≤ (wordAt d 2).toNat ∧ s.qValid (s.fld (pMAC n) Off.mac_DEF_Q 0 20) = false) ∧
    (∃ r : Nat, ∃ s : State, r < 1024 ∧ bitAt (s.rcv r).d0 0 = true ∧ (s.rcv r).any = false ∧ (s.rcv r).last + wfld (s.rcv r).d0 8 16 * 250000 ≤ s.now) ∧
    (∃ c q t : Nat, ∃ d : Words, ∃ s : State, (s.flow c).held = [(q, d, t)] ∧ q < 65536 ∧ (s.flow c).exp < 65536 ∧ t + wfld (wordAt (s.scx c) 6) 16 16 * 250 ≤ s.now) ∧
    (∃ m : Master, ∃ k f r : Nat, ∃ s : State, k < 8 ∧ s.Open m (pTSN k) ∧ f = 256 * k + s.fld (pTSN k) Off.tsn_FILT_SEL 0 8 ∧ r = 128 * k + s.fld (pTSN k) Off.tsn_REC_SEL 0 7 ∧ bitAt (wordAt (s.filt f).ws 0) 0 = true) ∧
    (∃ m : Master, ∃ k f r : Nat, ∃ s : State, k < 8 ∧ s.Open m (pTSN k) ∧ f = 256 * k + s.fld (pTSN k) Off.tsn_FILT_SEL 0 8 ∧ r = 128 * k + s.fld (pTSN k) Off.tsn_REC_SEL 0 7 ∧ bitAt (wordAt (s.filt f).ws 0) 0 = false ∧ s.fld (pTSN k) Off.tsn_FILT_D0 4 16 = 0) ∧
    (∃ m : Master, ∃ k f r : Nat, ∃ s : State, k < 8 ∧ s.Open m (pTSN k) ∧ f = 256 * k + s.fld (pTSN k) Off.tsn_FILT_SEL 0 8 ∧ r = 128 * k + s.fld (pTSN k) Off.tsn_REC_SEL 0 7 ∧ bitAt (wordAt (s.filt f).ws 0) 0 = false ∧ s.fld (pTSN k) Off.tsn_FILT_D0 4 16 ≠ 0 ∧ s.fld (pTSN k) Off.tsn_FILT_D0 24 4 < 8) ∧
    (∃ m : Master, ∃ k f r : Nat, ∃ s : State, k < 8 ∧ s.Open m (pTSN k) ∧ f = 256 * k + s.fld (pTSN k) Off.tsn_FILT_SEL 0 8 ∧ r = 128 * k + s.fld (pTSN k) Off.tsn_REC_SEL 0 7 ∧ bitAt (s.rcv r).d0 0 = true) ∧
    (∃ m : Master, ∃ k f r : Nat, ∃ s : State, k < 8 ∧ s.Open m (pTSN k) ∧ f = 256 * k + s.fld (pTSN k) Off.tsn_FILT_SEL 0 8 ∧ r = 128 * k + s.fld (pTSN k) Off.tsn_REC_SEL 0 7 ∧ bitAt (s.rcv r).d0 0 = false) ∧
    (∃ m : Master, ∃ c : Nat, ∃ s : State, s.Open m (pTSN 0) ∧ c = s.fld (pTSN 0) Off.tsn_FLOW_SEL 0 14 ∧ s.scxKind c = 5) ∧
    (∃ m : Master, ∃ c : Nat, ∃ s : State, s.Open m (pTSN 0) ∧ c = s.fld (pTSN 0) Off.tsn_FLOW_SEL 0 14 ∧ s.scxKind c ≠ 0 ∧ s.scxKind c ≠ 5) ∧
    (∃ m : Master, ∃ c : Nat, ∃ s : State, s.Open m (pTSN 0) ∧ c = s.fld (pTSN 0) Off.tsn_FLOW_SEL 0 14 ∧ s.scxKind c = 0 ∧ s.fld (pTSN 0) Off.tsn_FLOW_D0 0 2 = 3 ∧ s.flowsOn < 4096) ∧
    (∃ m : Master, ∃ c : Nat, ∃ s : State, s.Open m (pTSN 0) ∧ c = s.fld (pTSN 0) Off.tsn_FLOW_SEL 0 14 ∧ s.scxKind c = 0 ∧ s.bit (pTSN 0) Off.tsn_FLOW_D0 0 = true ∧ 4096 ≤ s.flowsOn) :=
  ⟨⟨5, 3, frame, .clean, up [] fun m => { m with heads := [(3, some frame)] }, by decide +kernel⟩,
    ⟨5, 3, frame, .uncorrectable, up [] fun m => { m with heads := [(3, some frame)] }, by decide +kernel⟩,
    ⟨5, 3, frame, up [(tsnPage 5, tsnOff 5 Off.tsn_GATE_CTRL, 1)] fun m => { m with heads := [(3, some frame)], oper := [(0xF7, 1000)] }, by decide +kernel⟩,
    ⟨5, 3, badD, txBad, by decide +kernel⟩,
    ⟨5, frame, up [] fun m => { m with cur := some frame }, by decide +kernel⟩,
    ⟨5, { frame with fin := 10 ^ 9 + 1 }, up [] fun m => { m with cur := some { frame with fin := 10 ^ 9 + 1 } }, by decide +kernel⟩,
    ⟨5, 5, bytes.take 59, rx 0x15, by decide +kernel⟩,
    ⟨5, 5, bytes, rx 0x15, by decide +kernel⟩,
    ⟨5, 5, bytes, rx 0x10, bufD, by decide +kernel⟩,
    ⟨130, rcv, by decide +kernel⟩,
    ⟨9, 2, 5, bufD, flow 5 1 0, by decide +kernel⟩,
    ⟨.host, 2, 515, 260, filt 1 0, by unfold State.Open; decide +kernel⟩,
    ⟨.host, 2, 515, 260, filt 0 0, by unfold State.Open; decide +kernel⟩,
    ⟨.host, 2, 515, 260, filt 0 0x00000FF0, by unfold State.Open; decide +kernel⟩,
    ⟨.host, 2, 515, 260, filt 1 0, by unfold State.Open; decide +kernel⟩,
    ⟨.host, 2, 515, 260, filt 0 0x00000FF0, by unfold State.Open; decide +kernel⟩,
    ⟨.host, 9, flow 5 1 0, by unfold State.Open; decide +kernel⟩,
    ⟨.host, 9, flow 6 0 0, by unfold State.Open; decide +kernel⟩,
    ⟨.host, 9, flow 0 3 4095, by unfold State.Open; decide +kernel⟩,
    ⟨.host, 9, flow 0 3 4096, by unfold State.Open; decide +kernel⟩⟩

/-- States and operands that meet the hypotheses of PtpEngine, clause by clause. -/
theorem wit_PtpEngine :
    (∃ i seq : Nat, ∃ s : State, ∃ rx c : Int, s.ptpOn i = true ∧ (s.pport i).two = some (seq, rx, c) ∧ s.net.ptp.sel ≠ some i) ∧
    (∃ i seq sec ns : Nat, ∃ corr : Int, ∃ s : State, ∃ rx c o : Int, s.ptpOn i = true ∧ (s.pport i).two = some (seq, rx, c) ∧ s.net.ptp.sel = some i ∧ o = (rx - (s.ptpTime sec ns + c + corr) - ((s.pport i).delay).getD 0) / 65536 ∧ s.bit pTIMEBASE Off.timebase_TIME_STAT 0 = true ∧ s.net.ptp.accept = false ∧ (s.servo = 2 ∨ s.servo = 3) ∧ o.natAbs ≤ (s.reg pPTP Off.ptp_SLEW_LIMIT).toNat) ∧
    (∃ i seq sec ns : Nat, ∃ corr : Int, ∃ s : State, ∃ rx c o : Int, s.ptpOn i = true ∧ (s.pport i).two = some (seq, rx, c) ∧ s.net.ptp.sel = some i ∧ o = (rx - (s.ptpTime sec ns + c + corr) - ((s.pport i).delay).getD 0) / 65536 ∧ s.bit pTIMEBASE Off.timebase_TIME_STAT 0 = true ∧ s.net.ptp.accept = false ∧ (s.servo = 2 ∨ s.servo = 3) ∧ (s.reg pPTP Off.ptp_SLEW_LIMIT).toNat < o.natAbs ∧ o.natAbs ≤ (s.reg pPTP Off.ptp_STEP_LIMIT).toNat ∧ s.net.ptp.first = none ∧ 1 < s.fld pPTP Off.ptp_CONFIRM 0 8) ∧
    (∃ i seq sec ns : Nat, ∃ corr : Int, ∃ s : State, ∃ rx c o : Int, s.ptpOn i = true ∧ (s.pport i).two = some (seq, rx, c) ∧ s.net.ptp.sel = some i ∧ o = (rx - (s.ptpTime sec ns + c + corr) - ((s.pport i).delay).getD 0) / 65536 ∧ s.bit pTIMEBASE Off.timebase_TIME_STAT 0 = true ∧ s.net.ptp.accept = false ∧ (s.servo = 2 ∨ s.servo = 3) ∧ (s.reg pPTP Off.ptp_SLEW_LIMIT).toNat < o.natAbs ∧ o.natAbs ≤ (s.reg pPTP Off.ptp_STEP_LIMIT).toNat ∧ s.fld pPTP Off.ptp_CONFIRM 0 8 ≤ 1 ∧ 0 ≤ (s.tb.time : Int) - o * 65536) ∧
    (∃ i seq sec ns : Nat, ∃ corr : Int, ∃ s : State, ∃ rx c o : Int, s.ptpOn i = true ∧ (s.pport i).two = some (seq, rx, c) ∧ s.net.ptp.sel = some i ∧ o = (rx - (s.ptpTime sec ns + c + corr) - ((s.pport i).delay).getD 0) / 65536 ∧ s.bit pTIMEBASE Off.timebase_TIME_STAT 0 = true ∧ s.net.ptp.accept = false ∧ (s.servo = 2 ∨ s.servo = 3) ∧ (s.reg pPTP Off.ptp_SLEW_LIMIT).toNat < o.natAbs ∧ (s.reg pPTP Off.ptp_STEP_LIMIT).toNat < o.natAbs ∧ s.net.ptp.range = none ∧ 1 < s.fld pPTP Off.ptp_CONFIRM 0 8) ∧
    (∃ i : Nat, ∃ a : PtpAnnounce, ∃ s : State, (∀ j < 4, j ≠ i → s.ptpQualified j = true → ∃ b, (s.pport j).ann = some b ∧ annBetter a b = true ∧ annBetter b a = false) ∧ s.ptpOn i = true ∧ s.ptpProfile = 2 ∧ s.net.ptp.sel ≠ some i) ∧
    (∃ i : Nat, ∃ sync : Bool, ∃ a : PtpAnnounce, ∃ s : State, s.ptpOn i = true ∧ (s.pport i).ann = some a ∧ (if sync then (s.pport i).syncAt.getD (s.pport i).annAt + s.fld pPTP Off.ptp_TIMEOUTS 0 4 * s.ptpInterval 0 else (s.pport i).annAt + s.fld pPTP Off.ptp_TIMEOUTS 4 4 * s.ptpInterval 8) ≤ s.now) ∧
    (∃ i : Nat, ∃ s : State, s.ptpOn i = true ∧ s.linkUp (s.ptpMac i) = true) ∧
    (∃ i seq : Nat, ∃ t1 : Int, ∃ s : State, s.ptpOn i = true ∧ (s.pport i).req = some (seq, t1) ∧ s.ptpProfile ≠ 2) ∧
    (∃ i : Nat, ∃ s : State, s.ptpOn i = true ∧ s.ptpProfile ≠ 2 ∧ s.linkUp (s.ptpMac i) = true) ∧
    (∃ m : Master, ∃ s : State, s.Open m pPTP ∧ s.servo ≠ 4) ∧
    (∃ m : Master, ∃ s : State, s.Open m pPTP ∧ s.servo = 4) :=
  ⟨⟨1, 7, sync 100 2 3, (10 ^ 9 + 100) * 65536, 0, by decide +kernel⟩,
    ⟨1, 7, 1, 1, 0, sync 101 1 3, (10 ^ 9 + 101) * 65536, 0, 100, by decide +kernel⟩,
    ⟨1, 7, 1, 0, 0, sync 101 1 3, (10 ^ 9 + 101) * 65536, 0, 101, by decide +kernel⟩,
    ⟨1, 7, 1, 0, 0, sync 101 1 1, (10 ^ 9 + 101) * 65536, 0, 101, by decide +kernel⟩,
    ⟨1, 7, 1, 0, 0, sync 200001 1 3, (10 ^ 9 + 200001) * 65536, 0, 200001, by decide +kernel⟩,
    ⟨1, ann, ptp [] id id, by decide +kernel, by decide +kernel⟩,
    ⟨1, false, ann, ptp [] (fun p => { p with ann := some ann, annAt := 5 }) fun p => { p with sel := some 1 }, by decide +kernel⟩,
    ⟨1, ptp [] id id, by decide +kernel⟩,
    ⟨1, 9, 5, ptp [(pPTP, Off.ptp_CFG, 1 + 0xF0 + 5 * 2 ^ 20)] (fun p => { p with req := some (9, 5) }) id, by decide +kernel⟩,
    ⟨1, ptp [(pPTP, Off.ptp_CFG, 1 + 0xF0 + 5 * 2 ^ 20)] id id, by decide +kernel⟩,
    ⟨.host, ptp [] id id, by unfold State.Open; decide +kernel⟩,
    ⟨.host, ptp [(pPTP, Off.ptp_STAT, 4)] id id, by unfold State.Open; decide +kernel⟩⟩

end Net

namespace Stor

def q1 : CtiQueue := { sq := 0x1000, cq := 0x2000, sqSize := 8, cqSize := 4, vec := 1, tail := 3, fetch := 1, aggCount := 2 }
def cmd (op tag nsid n : Nat) (x : List Nat) : Words := ([op + tag * 256, nsid, 10, 0, n, 0, 0x8000, 0, 0x1000000] ++ x ++ List.replicate 4 0).map wd
def nsD (x : Nat) : Words := [wd (1 + x + 4 * 256), 100000, 0, 1000, 0, 0, 0, 0]
def ns (x : Nat) : Namespace := { desc := nsD x, en := true }
def stor (f : Storage → Storage) : State :=
  S [(pNVMH 2, Off.nvmh_SSD_STAT, 2 + 16 * 32), (pNVMH 2, Off.nvmh_CFG, 1), (pNVMH 2, Off.nvmh_LINK, 2 + 2 * 4 + 16), (pNVMH 2, Off.nvmh_CMD_TO, 5), (pNVMH 2, Off.nvmh_CAP_LO, 0xFFFFFFF0), (pCTI, Off.cti_BUF_SIZE, 16), (pCTI, Off.cti_CLEAN_MS, 5)]
    ((queues live).onStor fun x => f { x with ns := [(3, ns 0)], next := 20, state := 2 })
def starting (st tr : Nat) : State :=
  S [(pNVMH 2, Off.nvmh_SSD_STAT, wd st), (pNVMH 2, Off.nvmh_CFG, 1)] (live.onStor fun x => { x with ssd := [(2, { tries := tr })] })
def op (k : Nat) : StorOp := { id := 9, owner := .cti 1 5, kind := k, nsid := 3, lba := 10, count := 4, copies := [0], data := .pattern 7 }
def nvme (r : Bool) (a : Option Nat) : NvmeCmd := { id := 4, dev := 2, copy := 0, idx := 0, kind := 1, first := 1010, count := 4, op := 9, at_ := some 5, retried := r, abort := a }
def media (r : Bool) (a : Option Nat) : State :=
  stor fun x => { x with ops := [op 1], cmds := [nvme r a], queue := [(1, some { q1 with cmds := [{ tag := 5, ws := cmd 1 5 3 4 [0, 0, 0], begun := true }] })] }
def lanes (b : Nat) : State := stor fun x => { x with ssd := [(2, { badLanes := b })] }
def sel (k : Nat) (w : Words) (s : State) : State := S ((pCTI, Off.cti_NS_SEL, wd k) :: w.zipIdx.map fun e => (pCTI, Off.cti_NS_D0 + 4 * e.2, e.1)) s
def dirty (l : Nat) : State := stor fun x => { x with dirty := [(2, { set_ := true, last := l })] }
def recW : Words := [7, 0x10, 0x11, 1, 2, 10, 1, 0]
def recs (w : Words) (kind n : Nat) (l : List RecItem) : State :=
  S ((pCTI, Off.cti_REC_SEL, 9) :: w.zipIdx.map fun e => (pCTI, Off.cti_REC_D0 + 4 * e.2, e.1))
    ((stor fun x => { x with rec_ := [(9, { items := l })] }).onQm fun m => { m with scxKind := (if kind = 0 then [] else [(9, kind)]) ++ (List.range n).map fun i => (i + 20, 6), scx := [(9, recW)] })
def itemD (bytes flags : Word) : Words := [0x10002000, 0x50, 0, 0, 77, flags, bytes, 0]
def sess (w : Words) (f : RecSess) (d : Words) : State :=
  ((stor fun x => { x with rec_ := [(9, f)] }).onQm fun m => { m with scxKind := [(9, 6)], scx := [(9, w)] }).poke 0x10000100 (wordsBytes d)
def item (a b : Bool) : RecItem := { desc := [1, 2, 3, 4, 5, 6, 7, 8], seq := 1, dataOk := a, idxOk := b }
def prog (d : Nat) (p : Bool) : Progress := { sanitise := false, running := true, done := d, partDone := p }
def parts (p : Progress) (n : List (Nat × Namespace)) : State := stor fun x => { x with prog := [(3, some p)], ns := n }
def ctl (st : Nat) : State := live.onStor fun x => { x with state := st }
def qs (l : List (Nat × CtiQueue)) (f : Storage → Storage) : State := stor fun x => f { x with queue := l.map fun e => (e.1, some e.2) }
def has (op tag k : Nat) (x : List Nat) : CtiCmd := { tag := tag, ws := cmd op tag k 1 x }
def with1 (c : CtiCmd) : CtiQueue := { q1 with cmds := [c] }

/-- States and operands that meet the hypotheses of RootPortsAndSsds, clause by clause. -/
theorem wit_RootPortsAndSsds :
    (∃ m : Master, ∃ k : Nat, ∃ v : Word, ∃ s : State, k < 8 ∧ s.Open m (pNVMH k) ∧ bitAt v 0 = true ∧ s.bit (pNVMH k) Off.nvmh_CFG 0 = false) ∧
    (∃ m : Master, ∃ k : Nat, ∃ v : Word, ∃ s : State, k < 8 ∧ s.Open m (pNVMH k) ∧ bitAt v 0 = false ∧ s.bit (pNVMH k) Off.nvmh_CFG 0 = true) ∧
    (∃ k : Nat, ∃ s : State, k < 8 ∧ s.alive (pNVMH k) = true ∧ (s.ssdState k = 1 ∨ s.ssdState k = 3) ∧ (s.ssd k).tries = 0) ∧
    (∃ k : Nat, ∃ s : State, k < 8 ∧ s.alive (pNVMH k) = true ∧ (s.ssdState k = 1 ∨ s.ssdState k = 3) ∧ (s.ssd k).tries = 1) ∧
    (∃ k : Nat, ∃ s : State, k < 8 ∧ s.alive (pNVMH k) = true ∧ s.ssdState k = 2 ∧ dueAgain (s.ssd k).healthAt 2500000000 s.now = true) ∧
    (∃ k : Nat, ∃ c : NvmeCmd, ∃ s : State, ∃ o, k < 8 ∧ s.alive (pNVMH k) = true ∧ s.stor.cmds = [c] ∧ c.id ≠ 0 ∧ c.dev = k ∧ c.at_.isSome = true ∧ s.op c.op = some o ∧ c.kind ≠ 0) ∧
    (∃ k : Nat, ∃ c : NvmeCmd, ∃ s : State, ∃ o, ∃ q, ∃ tag, ∃ x, ∃ e, k < 8 ∧ s.alive (pNVMH k) = true ∧ s.stor.cmds = [c] ∧ c.id ≠ 0 ∧ c.dev = k ∧ c.at_.isSome = true ∧ s.stor.ops = [o] ∧ c.op = o.id ∧ o.owner = .cti q tag ∧ o.acked = false ∧ o.buf = 0 ∧ o.failed = [] ∧ o.copies = [c.copy] ∧ s.ctiQ q = some x ∧ x.failed = false ∧ s.ctiCmd q tag = some e) ∧
    (∃ k : Nat, ∃ c : NvmeCmd, ∃ s : State, k < 8 ∧ s.alive (pNVMH k) = true ∧ s.stor.cmds = [c] ∧ c.id ≠ 0 ∧ c.dev = k ∧ c.at_.isSome = true ∧ c.retried = false) ∧
    (∃ k : Nat, ∃ c : NvmeCmd, ∃ s : State, k < 8 ∧ s.alive (pNVMH k) = true ∧ s.stor.cmds = [c] ∧ c.id ≠ 0 ∧ c.dev = k ∧ c.at_.isSome = true ∧ c.retried = true) ∧
    (∃ k t : Nat, ∃ c : NvmeCmd, ∃ s : State, k < 8 ∧ s.alive (pNVMH k) = true ∧ s.stor.cmds = [c] ∧ c.dev = k ∧ c.abort = none ∧ c.at_ = some t ∧ t + s.fld (pNVMH k) Off.nvmh_CMD_TO 0 16 * 250000 < s.now) ∧
    (∃ k t : Nat, ∃ c : NvmeCmd, ∃ s : State, k < 8 ∧ s.alive (pNVMH k) = true ∧ s.stor.cmds = [c] ∧ c.dev = k ∧ c.abort = some t ∧ s.ssdState k = 2 ∧ t + s.fld (pNVMH k) Off.nvmh_CMD_TO 0 16 * 250000 < s.now) ∧
    (∃ k lane : Nat, ∃ s : State, k < 8 ∧ lane < 4 ∧ s.alive (pNVMH k) = true ∧ s.bit (pNVMH k) Off.nvmh_LINK 4 = true ∧ (s.ssd k).badLanes = 0) ∧
    (∃ k lane : Nat, ∃ s : State, k < 8 ∧ lane < 4 ∧ s.alive (pNVMH k) = true ∧ s.bit (pNVMH k) Off.nvmh_LINK 4 = true ∧ (s.ssd k).badLanes = 9 ∧ (lane = 1 ∨ lane = 2) ∧ s.ssdState k = 2) ∧
    (∃ lane : Nat, ∃ s : State, lane < 16 ∧ s.mainOn = true) :=
  ⟨⟨.host, 2, 1, live, by unfold State.Open; decide +kernel⟩,
    ⟨.host, 2, 0, stor id, by unfold State.Open; decide +kernel⟩,
    ⟨2, starting 1 0, by decide +kernel⟩,
    ⟨2, starting 3 1, by decide +kernel⟩,
    ⟨2, stor id, by decide +kernel⟩,
    ⟨2, nvme false none, media false none, op 1, by decide +kernel⟩,
    ⟨2, nvme false none, media false none, op 1, 1, 5, with1 { tag := 5, ws := cmd 1 5 3 4 [0, 0, 0], begun := true }, { tag := 5, ws := cmd 1 5 3 4 [0, 0, 0], begun := true }, by decide +kernel⟩,
    ⟨2, nvme false none, media false none, by decide +kernel⟩,
    ⟨2, nvme true none, media true none, by decide +kernel⟩,
    ⟨2, 5, nvme false none, media false none, by decide +kernel⟩,
    ⟨2, 5, nvme true (some 5), media true (some 5), by decide +kernel⟩,
    ⟨2, 2, lanes 0, by decide +kernel⟩,
    ⟨2, 2, lanes 9, by decide +kernel⟩,
    ⟨2, live, by decide +kernel⟩⟩

/-- States and operands that meet the hypotheses of NamespacesAndSessions, clause by clause. -/
theorem wit_NamespacesAndSessions :
    (∃ m : Master, ∃ k : Nat, ∃ s : State, s.Open m pCTI ∧ k = s.nsSel ∧ (k = 0 ∨ 64 < k ∨ (s.ns k).en = true)) ∧
    (∃ m : Master, ∃ k : Nat, ∃ s : State, s.Open m pCTI ∧ k = s.nsSel ∧ k ≠ 0 ∧ k ≤ 64 ∧ (s.ns k).en = false ∧ s.bit pCTI Off.cti_NS_D0 0 = false) ∧
    (∃ m : Master, ∃ k : Nat, ∃ s : State, s.Open m pCTI ∧ k = s.nsSel ∧ k ≠ 0 ∧ k ≤ 64 ∧ (s.ns k).en = false ∧ s.bit pCTI Off.cti_NS_D0 0 = true ∧ s.nsReason k { desc := s.regs32 pCTI Off.cti_NS_D0 8 } = 0) ∧
    (∃ m : Master, ∃ k : Nat, ∃ s : State, ∃ r, s.Open m pCTI ∧ k = s.nsSel ∧ k ≠ 0 ∧ k ≤ 64 ∧ (s.ns k).en = false ∧ s.bit pCTI Off.cti_NS_D0 0 = true ∧ r = s.nsReason k { desc := s.regs32 pCTI Off.cti_NS_D0 8 } ∧ r ≠ 0) ∧
    (∃ m : Master, ∃ k : Nat, ∃ s : State, s.Open m pCTI ∧ k = s.nsSel ∧ k ≠ 0 ∧ k ≤ 64 ∧ (s.ns k).en = false ∧ s.bit pCTI Off.cti_NS_D0 0 = true ∧ s.bit pCTI Off.cti_NS_D0 3 = false ∧ (∀ d < 8, s.bit pCTI Off.cti_NS_D0 (8 + d) = false)) ∧
    (∃ m : Master, ∃ k : Nat, ∃ s : State, s.Open m pCTI ∧ k = s.nsSel ∧ ((s.ns k).en = false ∨ s.nsRecording k = true ∨ (s.prog k).isSome = true)) ∧
    (∃ m : Master, ∃ k : Nat, ∃ s : State, s.Open m pCTI ∧ k = s.nsSel ∧ (s.ns k).en = true ∧ s.nsRecording k = false ∧ s.prog k = none ∧ 1 ≤ k ∧ k ≤ 64 ∧ s.stor.ops = [] ∧ s.stor.cmds = [] ∧ s.stor.queue = []) ∧
    (∃ m : Master, ∃ k : Nat, ∃ s : State, ∃ o, ∃ c, s.Open m pCTI ∧ k = s.nsSel ∧ (s.ns k).en = true ∧ s.nsRecording k = false ∧ s.prog k = none ∧ 1 ≤ k ∧ k ≤ 64 ∧ s.stor.ops = [o] ∧ s.stor.cmds = [c] ∧ o.nsid = k ∧ c.op = o.id ∧ o.buf = 0) ∧
    (∃ k r b : Nat, ∃ s : State, s.alive pCTI = true ∧ (s.ns k).en = true ∧ r * 16384 < (s.ns k).size ∧ b = (s.ns k).bitmap + r ∧ (s.dirtyAt b).set_ = true ∧ (s.dirtyAt b).old = false ∧ s.stor.ops = [] ∧ s.now < (s.dirtyAt b).last + s.fld pCTI Off.cti_CLEAN_MS 0 16 * 250000) ∧
    (∃ k r b : Nat, ∃ s : State, s.alive pCTI = true ∧ (s.ns k).en = true ∧ r * 16384 < (s.ns k).size ∧ b = (s.ns k).bitmap + r ∧ (s.dirtyAt b).set_ = true ∧ (s.dirtyAt b).old = false ∧ s.stor.ops = [] ∧ (s.dirtyAt b).last + s.fld pCTI Off.cti_CLEAN_MS 0 16 * 250000 ≤ s.now) ∧
    (∃ m : Master, ∃ c : Nat, ∃ s : State, ∃ ws : Words, s.Open m pCTI ∧ c = s.recSel ∧ ws = s.regs32 pCTI Off.cti_REC_D0 8 ∧ s.scxKind c ≠ 0 ∧ s.scxKind c ≠ 6) ∧
    (∃ m : Master, ∃ c : Nat, ∃ s : State, ∃ ws : Words, s.Open m pCTI ∧ c = s.recSel ∧ ws = s.regs32 pCTI Off.cti_REC_D0 8 ∧ s.scxKind c = 0 ∧ bitAt (wordAt ws 0) 0 = true ∧ s.nsState (wfld (wordAt ws 0) 1 7) ≠ 1 ∧ s.nsState (wfld (wordAt ws 0) 1 7) ≠ 2) ∧
    (∃ m : Master, ∃ c : Nat, ∃ s : State, ∃ ws : Words, s.Open m pCTI ∧ c = s.recSel ∧ ws = s.regs32 pCTI Off.cti_REC_D0 8 ∧ s.scxKind c = 0 ∧ bitAt (wordAt ws 0) 0 = true ∧ 64 ≤ s.recSessions.length) ∧
    (∃ m : Master, ∃ c : Nat, ∃ s : State, ∃ ws : Words, s.Open m pCTI ∧ c = s.recSel ∧ ws = s.regs32 pCTI Off.cti_REC_D0 8 ∧ s.scxKind c = 0 ∧ bitAt (wordAt ws 0) 0 = true ∧ areasMeet (recAreas ws).1 (recAreas ws).2 = true) ∧
    (∃ m : Master, ∃ c : Nat, ∃ s : State, ∃ ws : Words, s.Open m pCTI ∧ c = s.recSel ∧ ws = s.regs32 pCTI Off.cti_REC_D0 8 ∧ s.scxKind c = 0 ∧ bitAt (wordAt ws 0) 0 = true ∧ s.nsState (wfld (wordAt ws 0) 1 7) = 1 ∧ s.recSessions = [] ∧ areasMeet (recAreas ws).1 (recAreas ws).2 = false ∧ (recAreas ws).1.1 + (recAreas ws).1.2 ≤ (s.ns (wfld (wordAt ws 0) 1 7)).size ∧ (recAreas ws).2.1 + (recAreas ws).2.2 ≤ (s.ns (wfld (wordAt ws 0) 1 7)).size ∧ s.qValid (wfld (wordAt ws 1) 0 20) = true ∧ s.qValid (wfld (wordAt ws 2) 0 20) = true) ∧
    (∃ m : Master, ∃ c : Nat, ∃ s : State, ∃ ws : Words, s.Open m pCTI ∧ c = s.recSel ∧ ws = s.regs32 pCTI Off.cti_REC_D0 8 ∧ s.scxKind c = 6 ∧ (s.sess c).items = []) ∧
    (∃ m : Master, ∃ c : Nat, ∃ s : State, ∃ ws : Words, s.Open m pCTI ∧ c = s.recSel ∧ ws = s.regs32 pCTI Off.cti_REC_D0 8 ∧ s.scxKind c = 6 ∧ (s.sess c).items ≠ []) ∧
    (∃ c a b bytes frame flags : Nat, ∃ d : Words, ∃ s : State, s.alive pCTI = true ∧ s.scxKind c = 6 ∧ s.stor.ops = [] ∧ s.stor.cmds = [] ∧ ((s.sess c).stopping = true ∨ (s.sess c).full = true ∨ ((s.take (wfld (wordAt (s.scx c) 1) 0 20)).1 = some d ∧ (recRead (bitAt (wordAt (s.scx c) 0) 9) d).1 = a ∧ (recRead (bitAt (wordAt (s.scx c) 0) 9) d).2.1 = bytes ∧ (recRead (bitAt (wordAt (s.scx c) 0) 9) d).2.2.1 = frame ∧ (recRead (bitAt (wordAt (s.scx c) 0) 9) d).2.2.2.1 = flags ∧ b = (bytes + 4095) / 4096)) ∧ ((s.sess c).stopping = true ∨ (s.sess c).full = true)) ∧
    (∃ c a b bytes frame flags : Nat, ∃ d : Words, ∃ s : State, s.alive pCTI = true ∧ s.scxKind c = 6 ∧ s.stor.ops = [] ∧ s.stor.cmds = [] ∧ ((s.sess c).stopping = true ∨ (s.sess c).full = true ∨ ((s.take (wfld (wordAt (s.scx c) 1) 0 20)).1 = some d ∧ (recRead (bitAt (wordAt (s.scx c) 0) 9) d).1 = a ∧ (recRead (bitAt (wordAt (s.scx c) 0) 9) d).2.1 = bytes ∧ (recRead (bitAt (wordAt (s.scx c) 0) 9) d).2.2.1 = frame ∧ (recRead (bitAt (wordAt (s.scx c) 0) 9) d).2.2.2.1 = flags ∧ b = (bytes + 4095) / 4096)) ∧ (s.sess c).stopping = false ∧ (s.sess c).full = false ∧ (s.sess c).entries.length < 127 ∧ ((recRead (bitAt (wordAt (s.scx c) 0) 9) d).2.2.2.2 = true ∨ bytes = 0)) ∧
    (∃ c a b bytes frame flags : Nat, ∃ d : Words, ∃ s : State, s.alive pCTI = true ∧ s.scxKind c = 6 ∧ s.stor.ops = [] ∧ s.stor.cmds = [] ∧ ((s.sess c).stopping = true ∨ (s.sess c).full = true ∨ ((s.take (wfld (wordAt (s.scx c) 1) 0 20)).1 = some d ∧ (recRead (bitAt (wordAt (s.scx c) 0) 9) d).1 = a ∧ (recRead (bitAt (wordAt (s.scx c) 0) 9) d).2.1 = bytes ∧ (recRead (bitAt (wordAt (s.scx c) 0) 9) d).2.2.1 = frame ∧ (recRead (bitAt (wordAt (s.scx c) 0) 9) d).2.2.2.1 = flags ∧ b = (bytes + 4095) / 4096)) ∧ (s.sess c).stopping = false ∧ (s.sess c).full = false ∧ (s.sess c).entries.length < 127 ∧ (recRead (bitAt (wordAt (s.scx c) 0) 9) d).2.2.2.2 = false ∧ (recAreas (s.scx c)).1.2 < b) ∧
    (∃ c a b bytes frame flags : Nat, ∃ d : Words, ∃ s : State, s.alive pCTI = true ∧ s.scxKind c = 6 ∧ s.stor.ops = [] ∧ s.stor.cmds = [] ∧ ((s.sess c).stopping = true ∨ (s.sess c).full = true ∨ ((s.take (wfld (wordAt (s.scx c) 1) 0 20)).1 = some d ∧ (recRead (bitAt (wordAt (s.scx c) 0) 9) d).1 = a ∧ (recRead (bitAt (wordAt (s.scx c) 0) 9) d).2.1 = bytes ∧ (recRead (bitAt (wordAt (s.scx c) 0) 9) d).2.2.1 = frame ∧ (recRead (bitAt (wordAt (s.scx c) 0) 9) d).2.2.2.1 = flags ∧ b = (bytes + 4095) / 4096)) ∧ (s.sess c).stopping = false ∧ (s.sess c).full = false ∧ (s.sess c).entries.length < 127 ∧ (recRead (bitAt (wordAt (s.scx c) 0) 9) d).2.2.2.2 = false ∧ bytes ≠ 0 ∧ b ≤ (recAreas (s.scx c)).1.2 ∧ (recAreas (s.scx c)).1.2 < (s.sess c).data + b ∧ bitAt (wordAt (s.scx c) 0) 8 = false) ∧
    (∃ c a b bytes frame flags : Nat, ∃ d : Words, ∃ s : State, s.alive pCTI = true ∧ s.scxKind c = 6 ∧ s.stor.ops = [] ∧ s.stor.cmds = [] ∧ ((s.sess c).stopping = true ∨ (s.sess c).full = true ∨ ((s.take (wfld (wordAt (s.scx c) 1) 0 20)).1 = some d ∧ (recRead (bitAt (wordAt (s.scx c) 0) 9) d).1 = a ∧ (recRead (bitAt (wordAt (s.scx c) 0) 9) d).2.1 = bytes ∧ (recRead (bitAt (wordAt (s.scx c) 0) 9) d).2.2.1 = frame ∧ (recRead (bitAt (wordAt (s.scx c) 0) 9) d).2.2.2.1 = flags ∧ b = (bytes + 4095) / 4096)) ∧ (s.sess c).stopping = false ∧ (s.sess c).full = false ∧ (s.sess c).entries.length < 127 ∧ (recRead (bitAt (wordAt (s.scx c) 0) 9) d).2.2.2.2 = false ∧ bytes ≠ 0 ∧ (s.sess c).data + b ≤ (recAreas (s.scx c)).1.2) ∧
    (∃ c : Nat, ∃ s : State, s.alive pCTI = true ∧ s.scxKind c = 6 ∧ (s.sess c).covered < (s.sess c).entries.length ∧ s.now < (s.sess c).since + 250000) ∧
    (∃ c : Nat, ∃ s : State, s.alive pCTI = true ∧ s.scxKind c = 6 ∧ (s.sess c).covered < (s.sess c).entries.length ∧ (s.sess c).since + 250000 ≤ s.now) ∧
    (∃ c : Nat, ∃ i : RecItem, ∃ rest : List RecItem, ∃ s : State, s.alive pCTI = true ∧ s.scxKind c = 6 ∧ (s.sess c).items = i :: rest ∧ (i.dataOk = false ∨ i.idxOk = false)) ∧
    (∃ c : Nat, ∃ i : RecItem, ∃ rest : List RecItem, ∃ s : State, s.alive pCTI = true ∧ s.scxKind c = 6 ∧ (s.sess c).items = i :: rest ∧ i.dataOk = true ∧ i.idxOk = true ∧ (s.sess c).stopping = false) ∧
    (∃ c : Nat, ∃ i : RecItem, ∃ rest : List RecItem, ∃ s : State, s.alive pCTI = true ∧ s.scxKind c = 6 ∧ (s.sess c).items = i :: rest ∧ i.dataOk = true ∧ i.idxOk = true ∧ (s.sess c).stopping = true ∧ rest = []) ∧
    (∃ k : Nat, ∃ p : Progress, ∃ s : State, s.alive pCTI = true ∧ 1 ≤ k ∧ k ≤ 64 ∧ s.prog k = some p ∧ p.running = true ∧ p.partDone = false) ∧
    (∃ k : Nat, ∃ p : Progress, ∃ s : State, s.alive pCTI = true ∧ 1 ≤ k ∧ k ≤ 64 ∧ s.prog k = some p ∧ p.running = true ∧ p.partDone = true ∧ s.stor.ops = [] ∧ s.stor.cmds = [] ∧ p.done + 1 = 256) ∧
    (∃ k : Nat, ∃ p : Progress, ∃ s : State, s.alive pCTI = true ∧ 1 ≤ k ∧ k ≤ 64 ∧ s.prog k = some p ∧ p.running = true ∧ p.partDone = true ∧ s.stor.ops = [] ∧ s.stor.cmds = [] ∧ p.done + 1 < 256 ∧ (s.ns k).size = 0) :=
  ⟨⟨.host, 3, sel 3 (nsD 0) (stor id), by unfold State.Open; decide +kernel⟩,
    ⟨.host, 64, sel 64 ((nsD 0).set 0 0) (stor id), by unfold State.Open; decide +kernel⟩,
    ⟨.host, 64, sel 64 ((nsD 0).set 0 (1 + 8 * 256)) (stor id), by unfold State.Open; decide +kernel⟩,
    ⟨.host, 64, sel 64 (nsD 0) (stor id), 3, by unfold State.Open; decide +kernel⟩,
    ⟨.host, 64, sel 64 ((nsD 0).set 0 1) (stor id), by unfold State.Open; decide +kernel⟩,
    ⟨.host, 64, sel 64 (nsD 0) (stor id), by unfold State.Open; decide +kernel⟩,
    ⟨.host, 3, sel 3 (nsD 0) (stor id), by unfold State.Open; decide +kernel⟩,
    ⟨.host, 3, sel 3 (nsD 0) (media false none), op 1, nvme false none, by unfold State.Open; decide +kernel⟩,
    ⟨3, 2, 2, dirty 998750001, by decide +kernel⟩,
    ⟨3, 2, 2, dirty 998750000, by decide +kernel⟩,
    ⟨.host, 9, recs recW 1 0 [], recW, by unfold State.Open; decide +kernel⟩,
    ⟨.host, 9, recs (recW.set 0 9) 0 0 [], recW.set 0 9, by unfold State.Open; decide +kernel⟩,
    ⟨.host, 9, recs recW 0 64 [], recW, by unfold State.Open; decide +kernel⟩,
    ⟨.host, 9, recs (recW.set 5 2) 0 0 [], recW.set 5 2, by unfold State.Open; decide +kernel⟩,
    ⟨.host, 9, recs recW 0 0 [], recW, by unfold State.Open; decide +kernel⟩,
    ⟨.host, 9, recs recW 6 0 [], recW, by unfold State.Open; decide +kernel⟩,
    ⟨.host, 9, recs recW 6 0 [item true true], recW, by unfold State.Open; decide +kernel⟩,
    ⟨9, 0x5010002000, 1, 4096, 77, 0, itemD 4096 0, sess recW { full := true } (itemD 4096 0), by decide +kernel⟩,
    ⟨9, 0x5010002000, 0, 0, 77, 2, itemD 0 2, sess recW {} (itemD 0 2), by decide +kernel⟩,
    ⟨9, 0x5010002000, 513, 2101248, 77, 0, itemD 2101248 0, sess recW {} (itemD 2101248 0), by decide +kernel⟩,
    ⟨9, 0x5010002000, 1, 4096, 77, 0, itemD 4096 0, sess recW { data := 512 } (itemD 4096 0), by decide +kernel⟩,
    ⟨9, 0x5010002000, 1, 4096, 77, 0, itemD 4096 0, sess recW { data := 511 } (itemD 4096 0), by decide +kernel⟩,
    ⟨9, sess recW { entries := [[1, 2]], since := 999750001 } [], by decide +kernel⟩,
    ⟨9, sess recW { entries := [[1, 2]], since := 999750000 } [], by decide +kernel⟩,
    ⟨9, item false true, [], sess recW { items := [item false true] } [], by decide +kernel⟩,
    ⟨9, item true true, [], sess recW { items := [item true true] } [], by decide +kernel⟩,
    ⟨9, item true true, [], sess recW { items := [item true true], stopping := true } [], by decide +kernel⟩,
    ⟨3, prog 3 false, parts (prog 3 false) [(3, ns 0)], by decide +kernel⟩,
    ⟨3, prog 255 true, parts (prog 255 true) [(3, ns 0)], by decide +kernel⟩,
    ⟨3, prog 254 true, parts (prog 254 true) [], by decide +kernel⟩⟩

/-- States and operands that meet the hypotheses of ClipTarget, clause by clause. -/
theorem wit_ClipTarget :
    (∃ v : Word, ∃ s : State, s.alive pCTI = true ∧ bitAt v 0 = true ∧ s.stor.state = 0 ∧ s.stor.prog = [] ∧ s.stor.dirty = [] ∧ s.stor.ops = [] ∧ s.stor.cmds = [] ∧ s.stor.closing = false) ∧
    (∃ v : Word, ∃ s : State, s.alive pCTI = true ∧ bitAt v 0 = true ∧ (s.stor.state = 1 ∨ s.stor.state = 2)) ∧
    (∃ v : Word, ∃ s : State, s.alive pCTI = true ∧ bitAt v 0 = false ∧ s.stor.state = 2 ∧ s.stor.queue = [] ∧ s.stor.ops = []) ∧
    (∃ s : State, s.alive pCTI = true ∧ s.stor.state = 3) ∧
    (∃ q : Nat, ∃ s : State, s.ctiLive = true ∧ s.ctiQ q = none) ∧
    (∃ q : Nat, ∃ v : Word, ∃ x : CtiQueue, ∃ s : State, s.ctiLive = true ∧ s.ctiQ q = some x ∧ wfld v 0 12 < x.sqSize) ∧
    (∃ q : Nat, ∃ v : Word, ∃ x : CtiQueue, ∃ s : State, s.ctiLive = true ∧ s.ctiQ q = some x ∧ x.sqSize ≤ wfld v 0 12) ∧
    (∃ q : Nat, ∃ v : Word, ∃ x : CtiQueue, ∃ s : State, s.ctiLive = true ∧ s.ctiQ q = some x ∧ wfld v 0 12 < x.cqSize ∧ (wfld v 0 12 + x.cqSize - x.cqHead) % x.cqSize ≤ (x.cqTail + x.cqSize - x.cqHead) % x.cqSize) ∧
    (∃ q : Nat, ∃ v : Word, ∃ x : CtiQueue, ∃ s : State, s.ctiLive = true ∧ s.ctiQ q = some x ∧ (x.cqSize ≤ wfld v 0 12 ∨ (x.cqTail + x.cqSize - x.cqHead) % x.cqSize < (wfld v 0 12 + x.cqSize - x.cqHead) % x.cqSize)) ∧
    (∃ q tag : Nat, ∃ ws : Words, ∃ x : CtiQueue, ∃ s : State, s.ctiLive = true ∧ s.ctiQ q = some x ∧ tag = wfld (wordAt ws 0) 8 5 ∧ (x.failed = true ∨ x.deleting = true ∨ x.fetch = x.tail)) ∧
    (∃ q tag : Nat, ∃ ws : Words, ∃ x : CtiQueue, ∃ s : State, s.ctiLive = true ∧ s.ctiQ q = some x ∧ tag = wfld (wordAt ws 0) 8 5 ∧ x.failed = false ∧ x.deleting = false ∧ x.fetch ≠ x.tail ∧ (∃ t < 32, s.tagInUse q t = false) ∧ s.tagInUse q tag = true) ∧
    (∃ q tag : Nat, ∃ ws : Words, ∃ err : Bool, ∃ x : CtiQueue, ∃ s : State, s.ctiLive = true ∧ s.ctiQ q = some x ∧ tag = wfld (wordAt ws 0) 8 5 ∧ x.failed = false ∧ x.deleting = false ∧ x.fetch ≠ x.tail ∧ (∃ t < 32, s.tagInUse q t = false) ∧ s.tagInUse q tag = false ∧ err = true) ∧
    (∃ q tag : Nat, ∃ ws : Words, ∃ err : Bool, ∃ x : CtiQueue, ∃ s : State, s.ctiLive = true ∧ s.ctiQ q = some x ∧ tag = wfld (wordAt ws 0) 8 5 ∧ x.failed = false ∧ x.deleting = false ∧ x.fetch ≠ x.tail ∧ (∃ t < 32, s.tagInUse q t = false) ∧ s.tagInUse q tag = false ∧ err = false ∧ opListed q (wfld (wordAt ws 0) 0 8) = false) ∧
    (∃ q tag : Nat, ∃ ws : Words, ∃ segs : List (Nat × Nat × Nat), ∃ err : Bool, ∃ x : CtiQueue, ∃ s : State, s.ctiLive = true ∧ s.ctiQ q = some x ∧ tag = wfld (wordAt ws 0) 8 5 ∧ x.failed = false ∧ x.deleting = false ∧ x.fetch ≠ x.tail ∧ (∃ t < 32, s.tagInUse q t = false) ∧ s.tagInUse q tag = false ∧ err = false ∧ s.formatStatus q ws segs = 0 ∧ s.stateStatus ws = 0 ∧ (wfld (wordAt ws 0) 0 8 = 1 ∨ wfld (wordAt ws 0) 0 8 = 2 ∨ wfld (wordAt ws 0) 0 8 = 4)) ∧
    (∃ q tag d k lba n : Nat, ∃ c : CtiCmd, ∃ s : State, s.stor.ops = [] ∧ s.stor.cmds = [] ∧ d < 8 ∧ s.alive (pNVMH d) = true ∧ s.ssdState d = 2 ∧ 0 < s.fld (pNVMH d) Off.nvmh_SSD_STAT 5 5 ∧ k = cmdNs c.ws ∧ lba = dwordAt c.ws 2 ∧ 0 < n ∧ n = (wordAt c.ws 4).toNat ∧ (s.ns k).mirror = false ∧ (s.ns k).ssds = [d] ∧ (s.ns k).lost = [] ∧ s.ctiReady q tag 1 = some c) ∧
    (∃ q tag d k lba n : Nat, ∃ c : CtiCmd, ∃ s : State, s.stor.ops = [] ∧ s.stor.cmds = [] ∧ d < 8 ∧ s.alive (pNVMH d) = true ∧ s.ssdState d = 2 ∧ 0 < s.fld (pNVMH d) Off.nvmh_SSD_STAT 5 5 ∧ k = cmdNs c.ws ∧ lba = dwordAt c.ws 2 ∧ 0 < n ∧ n = (wordAt c.ws 4).toNat ∧ (s.ns k).mirror = false ∧ (s.ns k).ssds = [d] ∧ (s.ns k).lost = [] ∧ s.ctiReady q tag 4 = some c) ∧
    (∃ q tag d k lba n : Nat, ∃ c : CtiCmd, ∃ s : State, s.stor.ops = [] ∧ s.stor.cmds = [] ∧ d < 8 ∧ s.alive (pNVMH d) = true ∧ s.ssdState d = 2 ∧ 0 < s.fld (pNVMH d) Off.nvmh_SSD_STAT 5 5 ∧ k = cmdNs c.ws ∧ lba = dwordAt c.ws 2 ∧ 0 < n ∧ n = (wordAt c.ws 4).toNat ∧ (s.ns k).mirror = false ∧ (s.ns k).ssds = [d] ∧ (s.ns k).lost = [] ∧ s.ctiReady q tag 2 = some c ∧ bitAt (wordAt (s.ns k).desc 0) 2 = false) ∧
    (∃ q tag d k lba n : Nat, ∃ c : CtiCmd, ∃ s : State, s.stor.ops = [] ∧ s.stor.cmds = [] ∧ d < 8 ∧ s.alive (pNVMH d) = true ∧ s.ssdState d = 2 ∧ 0 < s.fld (pNVMH d) Off.nvmh_SSD_STAT 5 5 ∧ k = cmdNs c.ws ∧ lba = dwordAt c.ws 2 ∧ 0 < n ∧ n = (wordAt c.ws 4).toNat ∧ (s.ns k).mirror = false ∧ (s.ns k).ssds = [d] ∧ (s.ns k).lost = [] ∧ s.ctiReady q tag 2 = some c ∧ bitAt (wordAt (s.ns k).desc 0) 2 = true ∧ bitAt (wordAt c.ws 0) 16 = false ∧ 4096 * n ≤ s.bufBytes ∧ s.dep.pfw = false) ∧
    (∃ q tag : Nat, ∃ c : CtiCmd, ∃ x : CtiQueue, ∃ s : State, s.ctiQ q = some x ∧ x.failed = false ∧ s.ctiReady q tag 2 = some c) ∧
    (∃ q tag : Nat, ∃ c : CtiCmd, ∃ x : CtiQueue, ∃ s : State, s.ctiQ q = some x ∧ x.failed = false ∧ s.ctiReady q tag 3 = some c ∧ (∀ o ∈ s.stor.ops, o.id ∉ c.wait)) ∧
    (∃ q tag : Nat, ∃ c : CtiCmd, ∃ x : CtiQueue, ∃ s : State, s.ctiQ q = some x ∧ x.failed = false ∧ s.ctiReady q tag 3 = some c ∧ (∃ o ∈ s.stor.ops, o.id ∈ c.wait)) ∧
    (∃ tag n : Nat, ∃ c : CtiCmd, ∃ x : CtiQueue, ∃ s : State, s.ctiQ 0 = some x ∧ x.failed = false ∧ n = wfld (wordAt c.ws 9) 0 8 ∧ n ≠ 0 ∧ s.ctiReady 0 tag 0x80 = some c) ∧
    (∃ tag n : Nat, ∃ c : CtiCmd, ∃ x : CtiQueue, ∃ s : State, s.ctiQ 0 = some x ∧ x.failed = false ∧ n = wfld (wordAt c.ws 9) 0 8 ∧ n ≠ 0 ∧ s.ctiReady 0 tag 0x84 = some c) ∧
    (∃ tag n : Nat, ∃ c : CtiCmd, ∃ x : CtiQueue, ∃ s : State, s.ctiQ 0 = some x ∧ x.failed = false ∧ n = wfld (wordAt c.ws 9) 0 8 ∧ n ≠ 0 ∧ s.ctiReady 0 tag 0x81 = some c ∧ (s.ctiQ n).isSome = true) ∧
    (∃ tag n : Nat, ∃ c : CtiCmd, ∃ x : CtiQueue, ∃ s : State, s.ctiQ 0 = some x ∧ x.failed = false ∧ n = wfld (wordAt c.ws 9) 0 8 ∧ n ≠ 0 ∧ s.ctiReady 0 tag 0x81 = some c ∧ s.ctiQ n = none ∧ s.stor.ops = [] ∧ s.stor.closing = false) ∧
    (∃ tag n : Nat, ∃ c : CtiCmd, ∃ x : CtiQueue, ∃ s : State, s.ctiQ 0 = some x ∧ x.failed = false ∧ n = wfld (wordAt c.ws 9) 0 8 ∧ n ≠ 0 ∧ s.ctiReady 0 tag 0x82 = some c ∧ s.ctiQ n = none) ∧
    (∃ tag n : Nat, ∃ c : CtiCmd, ∃ x : CtiQueue, ∃ s : State, ∃ z, s.ctiQ 0 = some x ∧ x.failed = false ∧ n = wfld (wordAt c.ws 9) 0 8 ∧ n ≠ 0 ∧ s.ctiReady 0 tag 0x82 = some c ∧ x.cmds = [c] ∧ s.ctiQ n = some z ∧ n < 256 ∧ z.deleting = false ∧ z.cmds = [] ∧ z.posts = [] ∧ s.stor.ops = []) ∧
    (∃ tag q t : Nat, ∃ c : CtiCmd, ∃ x y : CtiQueue, ∃ s : State, s.ctiLive = true ∧ s.ctiQ 0 = some x ∧ x.failed = false ∧ x.cmds = [c] ∧ x.posts = [] ∧ c.tag = tag ∧ c.abort = none ∧ q ≠ 0 ∧ cmdAbort c.ws = some (q, t) ∧ s.ctiQ q = some y ∧ y.failed = false ∧ s.ctiCmd q t = none ∧ y.posts = []) ∧
    (∃ tag q t : Nat, ∃ c e : CtiCmd, ∃ x y : CtiQueue, ∃ s : State, s.ctiLive = true ∧ s.ctiQ 0 = some x ∧ x.failed = false ∧ x.cmds = [c] ∧ x.posts = [] ∧ c.tag = tag ∧ c.abort = none ∧ q ≠ 0 ∧ cmdAbort c.ws = some (q, t) ∧ s.ctiQ q = some y ∧ y.failed = false ∧ s.ctiCmd q t = some e ∧ e.begun = false) ∧
    (∃ tag k : Nat, ∃ c : CtiCmd, ∃ x : CtiQueue, ∃ s : State, s.ctiLive = true ∧ s.ctiQ 0 = some x ∧ x.failed = false ∧ x.cmds = [c] ∧ c.tag = tag ∧ s.stor.queue = [(0, some x)] ∧ k = cmdNs c.ws ∧ c.begun = false ∧ wfld (wordAt c.ws 0) 0 8 = 0x85) ∧
    (∃ tag k : Nat, ∃ c : CtiCmd, ∃ x : CtiQueue, ∃ s : State, s.ctiLive = true ∧ s.ctiQ 0 = some x ∧ x.failed = false ∧ x.cmds = [c] ∧ c.tag = tag ∧ s.stor.queue = [(0, some x)] ∧ k = cmdNs c.ws ∧ c.begun = false ∧ wfld (wordAt c.ws 0) 0 8 = 0x86) ∧
    (∃ tag k : Nat, ∃ c : CtiCmd, ∃ x : CtiQueue, ∃ s : State, ∃ p, s.ctiLive = true ∧ s.ctiQ 0 = some x ∧ x.failed = false ∧ x.cmds = [c] ∧ c.tag = tag ∧ s.stor.queue = [(0, some x)] ∧ k = cmdNs c.ws ∧ c.begun = true ∧ (∀ r ∈ s.dep.cocoon, r.rank ≠ 4) ∧ s.stor.ops = [] ∧ s.prog k = some p ∧ wfld (wordAt c.ws 0) 0 8 = 0x85) ∧
    (∃ tag k : Nat, ∃ c : CtiCmd, ∃ x : CtiQueue, ∃ s : State, ∃ p, s.ctiLive = true ∧ s.ctiQ 0 = some x ∧ x.failed = false ∧ x.cmds = [c] ∧ c.tag = tag ∧ s.stor.queue = [(0, some x)] ∧ k = cmdNs c.ws ∧ c.begun = true ∧ (∀ r ∈ s.dep.cocoon, r.rank ≠ 4) ∧ s.stor.ops = [] ∧ s.prog k = some p ∧ wfld (wordAt c.ws 0) 0 8 = 0x86) ∧
    (∃ q : Nat, ∃ x : CtiQueue, ∃ c : CtiPost, ∃ rest : List CtiPost, ∃ s : State, s.ctiLive = true ∧ s.ctiQ q = some x ∧ x.failed = false ∧ x.posts = c :: rest ∧ x.deleting = false ∧ s.stor.ops = [] ∧ s.stor.closing = false ∧ (x.cqTail + 1) % x.cqSize = x.cqHead) ∧
    (∃ q : Nat, ∃ x : CtiQueue, ∃ c : CtiPost, ∃ rest : List CtiPost, ∃ s : State, s.ctiLive = true ∧ s.ctiQ q = some x ∧ x.failed = false ∧ x.posts = c :: rest ∧ x.deleting = false ∧ s.stor.ops = [] ∧ s.stor.closing = false ∧ (x.cqTail + 1) % x.cqSize ≠ x.cqHead) ∧
    (∃ q : Nat, ∃ x : CtiQueue, ∃ s : State, s.ctiLive = true ∧ s.ctiQ q = some x ∧ x.agg ≠ 0 ∧ s.now < x.oldest + x.aggUs * 250) ∧
    (∃ q : Nat, ∃ x : CtiQueue, ∃ s : State, s.ctiLive = true ∧ s.ctiQ q = some x ∧ x.agg ≠ 0 ∧ x.oldest + x.aggUs * 250 ≤ s.now) :=
  ⟨⟨1, ctl 0, by decide +kernel⟩,
    ⟨1, ctl 1, by decide +kernel⟩,
    ⟨0, ctl 2, by decide +kernel⟩,
    ⟨ctl 3, by decide +kernel⟩,
    ⟨2, qs [(1, q1)] id, by decide +kernel⟩,
    ⟨1, 7, q1, qs [(1, q1)] id, by decide +kernel⟩,
    ⟨1, 8, q1, qs [(1, q1)] id, by decide +kernel⟩,
    ⟨1, 2, { q1 with cqTail := 2 }, qs [(1, { q1 with cqTail := 2 })] id, by decide +kernel⟩,
    ⟨1, 7, q1, qs [(1, q1)] id, by decide +kernel⟩,
    ⟨1, 5, cmd 1 5 3 4 [0, 0, 0], { q1 with failed := true }, qs [(1, { q1 with failed := true })] id, by decide +kernel⟩,
    ⟨1, 5, cmd 1 5 3 4 [0, 0, 0], { q1 with posts := [{ tag := 5 }] }, qs [(1, { q1 with posts := [{ tag := 5 }] })] id, by decide +kernel⟩,
    ⟨1, 5, cmd 1 5 3 4 [0, 0, 0], true, q1, qs [(1, q1)] id, by decide +kernel⟩,
    ⟨1, 5, cmd 9 5 3 4 [0, 0, 0], false, q1, qs [(1, q1)] id, by decide +kernel⟩,
    ⟨1, 5, cmd 1 5 3 4 [0, 0, 0], [], false, q1, qs [(1, q1)] id, by decide +kernel⟩,
    ⟨1, 5, 2, 3, 10, 1, has 1 5 3 [0, 0, 0], qs [(1, with1 (has 1 5 3 [0, 0, 0]))] id, by decide +kernel⟩,
    ⟨1, 5, 2, 3, 10, 1, has 4 5 3 [0, 0, 0], qs [(1, with1 (has 4 5 3 [0, 0, 0]))] id, by decide +kernel⟩,
    ⟨1, 5, 2, 3, 10, 1, has 2 5 3 [0, 0, 0], qs [(1, with1 (has 2 5 3 [0, 0, 0]))] id, by decide +kernel⟩,
    ⟨1, 5, 2, 3, 10, 1, has 2 5 3 [0, 0, 0], qs [(1, with1 (has 2 5 3 [0, 0, 0]))] fun x => { x with ns := [(3, ns 4)] }, by decide +kernel⟩,
    ⟨1, 5, has 2 5 3 [0, 0, 0], with1 (has 2 5 3 [0, 0, 0]), qs [(1, with1 (has 2 5 3 [0, 0, 0]))] id, by decide +kernel⟩,
    ⟨1, 5, has 3 5 3 [0, 0, 0], with1 (has 3 5 3 [0, 0, 0]), qs [(1, with1 (has 3 5 3 [0, 0, 0]))] id, by decide +kernel⟩,
    ⟨1, 5, { has 3 5 3 [0, 0, 0] with wait := [9] }, with1 { has 3 5 3 [0, 0, 0] with wait := [9] }, qs [(1, with1 { has 3 5 3 [0, 0, 0] with wait := [9] })] fun x => { x with ops := [op 1] }, by decide +kernel⟩,
    ⟨5, 1, has 128 5 3 [1, 1, 0], with1 (has 128 5 3 [1, 1, 0]), qs [(0, with1 (has 128 5 3 [1, 1, 0]))] id, by decide +kernel⟩,
    ⟨5, 1, has 132 5 0 [1, 1, 0], with1 (has 132 5 0 [1, 1, 0]), qs [(0, with1 (has 132 5 0 [1, 1, 0]))] id, by decide +kernel⟩,
    ⟨5, 1, has 129 5 0 [1, 1, 0], with1 (has 129 5 0 [1, 1, 0]), qs [(0, with1 (has 129 5 0 [1, 1, 0])), (1, q1)] id, by decide +kernel⟩,
    ⟨5, 1, has 129 5 0 [1, 1, 0], with1 (has 129 5 0 [1, 1, 0]), qs [(0, with1 (has 129 5 0 [1, 1, 0]))] id, by decide +kernel⟩,
    ⟨5, 1, has 130 5 0 [1, 1, 0], with1 (has 130 5 0 [1, 1, 0]), qs [(0, with1 (has 130 5 0 [1, 1, 0]))] id, by decide +kernel⟩,
    ⟨5, 1, has 130 5 0 [1, 1, 0], with1 (has 130 5 0 [1, 1, 0]), qs [(0, with1 (has 130 5 0 [1, 1, 0])), (1, q1)] id, q1, by decide +kernel⟩,
    ⟨6, 1, 5, has 0x83 6 0 [1 + 5 * 256, 0, 0], with1 (has 0x83 6 0 [1 + 5 * 256, 0, 0]), q1, qs [(0, with1 (has 0x83 6 0 [1 + 5 * 256, 0, 0])), (1, q1)] id, by decide +kernel⟩,
    ⟨6, 1, 5, has 0x83 6 0 [1 + 5 * 256, 0, 0], has 1 5 3 [0, 0, 0], with1 (has 0x83 6 0 [1 + 5 * 256, 0, 0]), with1 (has 1 5 3 [0, 0, 0]), qs [(0, with1 (has 0x83 6 0 [1 + 5 * 256, 0, 0])), (1, with1 (has 1 5 3 [0, 0, 0]))] id, by decide +kernel⟩,
    ⟨6, 3, { has 133 6 3 [1, 5, 0] with begun := false }, with1 { has 133 6 3 [1, 5, 0] with begun := false }, qs [(0, with1 { has 133 6 3 [1, 5, 0] with begun := false })] fun x => { x with prog := [(3, some (prog 0 false))] }, by decide +kernel⟩,
    ⟨6, 3, { has 134 6 3 [1, 5, 0] with begun := false }, with1 { has 134 6 3 [1, 5, 0] with begun := false }, qs [(0, with1 { has 134 6 3 [1, 5, 0] with begun := false })] fun x => { x with prog := [(3, some (prog 0 false))] }, by decide +kernel⟩,
    ⟨6, 3, { has 133 6 3 [1, 5, 0] with begun := true }, with1 { has 133 6 3 [1, 5, 0] with begun := true }, qs [(0, with1 { has 133 6 3 [1, 5, 0] with begun := true })] fun x => { x with prog := [(3, some (prog 0 false))] }, prog 0 false, by decide +kernel⟩,
    ⟨6, 3, { has 134 6 3 [1, 5, 0] with begun := true }, with1 { has 134 6 3 [1, 5, 0] with begun := true }, qs [(0, with1 { has 134 6 3 [1, 5, 0] with begun := true })] fun x => { x with prog := [(3, some (prog 0 false))] }, prog 0 false, by decide +kernel⟩,
    ⟨1, { q1 with posts := [{ tag := 5 }], cqTail := 3 }, { tag := 5 }, [], qs [(1, { q1 with posts := [{ tag := 5 }], cqTail := 3 })] id, by decide +kernel⟩,
    ⟨1, { q1 with posts := [{ tag := 5 }] }, { tag := 5 }, [], qs [(1, { q1 with posts := [{ tag := 5 }] })] id, by decide +kernel⟩,
    ⟨1, { q1 with agg := 1, oldest := 999998751, aggUs := 5 }, qs [(1, { q1 with agg := 1, oldest := 999998751, aggUs := 5 })] id, by decide +kernel⟩,
    ⟨1, { q1 with agg := 1, oldest := 999998750, aggUs := 5 }, qs [(1, { q1 with agg := 1, oldest := 999998750, aggUs := 5 })] id, by decide +kernel⟩⟩

end Stor

namespace Queue

def d8 : Words := [1, 2, 3, 4, 5, 6, 7, 8]
def sel (q : Nat) (l : List Nat) (s : State) : State := S ((pQM 0, Off.qm0_Q_SEL, wd q) :: l.zipIdx.map fun e => (pQM 0, Off.qm0_Q_D0 + 4 * e.2, wd e.1)) s
def good : List Nat := [0x1000, 0x40010, 0, 0, 0xFF, 5, 7, 9]
def unset (s : State) : State := S [(pQM 0, Off.qm0_QSTATE_HI, 0)] s
def pinned (l : List Nat) : State := (sel 0x10 good (queues live)).onQm fun m => { m with pins := l }
def push (q : Nat) : WaitPush := { page := 5, queue := q, desc := d8, at_ := 4 }
def buffered (q n lim : Nat) : State := (queues live).onQm fun m => { m with pushBuf := List.replicate n (push q), cache := m.cache.map fun e => (e.1, { e.2 with pushTo := lim }) }
def guards : State :=
  live.onDram fun d => { d with guard := [(3, { en := true, base := 0x1000000000, limit := 0x100000003F }), (70, { en := true, base := 0x1000001000, limit := 0x100000103F })] }
def lines : State := guards.poke 0x1000012340 (List.replicate 64 7)
def core : CoreAccess := ⟨.amo, false, 0x77⟩
def dram (l : List (Nat × Nat × Word)) : State := S ((pDRAM 3, Off.dram_STATE, 2) :: l) live
def scrub (p r e : Word) : State := dram [(pDRAM 3, Off.dram_SCRUB_POS, p), (pDRAM 3, Off.dram_RETIRE_STAT, r), (pDRAMCOM, Off.dramcom_SCRUB_CFG, e * 65536 + 3)]
def gsel (i b l c : Word) : State := S [(pDRAMGUARD, Off.dramguard_G_SEL, i), (pDRAMGUARD, Off.dramguard_G_BASE_LO, b), (pDRAMGUARD, Off.dramguard_G_LIMIT_LO, l), (pDRAMGUARD, Off.dramguard_G_CTRL, c)] guards

/-- States and operands that meet the hypotheses of QueueManagerCommands, clause by clause. -/
theorem wit_QueueManagerCommands :
    (∃ m : Master, ∃ q : Nat, ∃ d : QState, ∃ s : State, s.Open m (pQM 0) ∧ s.cmdBusy (pQM 0) Off.qm0_Q_CMD_STAT = false ∧ q = s.qSel ∧ d = qDecode (s.regs32 (pQM 0) Off.qm0_Q_D0 8) ∧ s.qsBase = 0) ∧
    (∃ m : Master, ∃ q : Nat, ∃ d : QState, ∃ s : State, s.Open m (pQM 0) ∧ s.cmdBusy (pQM 0) Off.qm0_Q_CMD_STAT = false ∧ q = s.qSel ∧ d = qDecode (s.regs32 (pQM 0) Off.qm0_Q_D0 8) ∧ s.qsBase ≠ 0 ∧ s.qm.cache.length < 16384 ∧ (s.qView q).en = true ∧ s.qm.pins.contains q = true) ∧
    (∃ m : Master, ∃ q : Nat, ∃ d : QState, ∃ s : State, s.Open m (pQM 0) ∧ s.cmdBusy (pQM 0) Off.qm0_Q_CMD_STAT = false ∧ q = s.qSel ∧ d = qDecode (s.regs32 (pQM 0) Off.qm0_Q_D0 8) ∧ s.qsBase ≠ 0 ∧ s.qm.cache.length < 16384 ∧ (s.qView q).en = true ∧ s.qm.pins.contains q = false ∧ s.qm.pins.length < 4096) ∧
    (∃ m : Master, ∃ q : Nat, ∃ d : QState, ∃ s : State, s.Open m (pQM 0) ∧ s.cmdBusy (pQM 0) Off.qm0_Q_CMD_STAT = false ∧ q = s.qSel ∧ d = qDecode (s.regs32 (pQM 0) Off.qm0_Q_D0 8) ∧ s.qsBase ≠ 0 ∧ s.qm.cache.length < 16384 ∧ (s.qView q).en = true ∧ s.qm.pins.contains q = false ∧ 4096 ≤ s.qm.pins.length) ∧
    (∃ m : Master, ∃ q : Nat, ∃ d : QState, ∃ s : State, s.Open m (pQM 0) ∧ s.cmdBusy (pQM 0) Off.qm0_Q_CMD_STAT = false ∧ q = s.qSel ∧ d = qDecode (s.regs32 (pQM 0) Off.qm0_Q_D0 8) ∧ s.qsBase ≠ 0 ∧ s.qm.cache.length < 16384 ∧ (s.qView q).en = false ∧ (d.log2 < 2 ∨ 20 < d.log2 ∨ d.ring % (32 * 2 ^ d.log2) ≠ 0)) ∧
    (∃ m : Master, ∃ q : Nat, ∃ d : QState, ∃ s : State, s.Open m (pQM 0) ∧ s.cmdBusy (pQM 0) Off.qm0_Q_CMD_STAT = false ∧ q = s.qSel ∧ d = qDecode (s.regs32 (pQM 0) Off.qm0_Q_D0 8) ∧ s.qsBase ≠ 0 ∧ s.qm.cache.length < 16384 ∧ (s.qView q).en = false ∧ 2 ≤ d.log2 ∧ d.log2 ≤ 20 ∧ d.ring % (32 * 2 ^ d.log2) = 0 ∧ q = 0) ∧
    (∃ m : Master, ∃ q : Nat, ∃ d : QState, ∃ s : State, s.Open m (pQM 0) ∧ s.cmdBusy (pQM 0) Off.qm0_Q_CMD_STAT = false ∧ q = s.qSel ∧ d = qDecode (s.regs32 (pQM 0) Off.qm0_Q_D0 8) ∧ s.qsBase ≠ 0 ∧ s.qm.cache.length < 16384 ∧ (s.qView q).en = false ∧ 2 ≤ d.log2 ∧ d.log2 ≤ 20 ∧ d.ring % (32 * 2 ^ d.log2) = 0 ∧ q ≠ 0 ∧ s.inDram d.ring (32 * 2 ^ d.log2) = false) ∧
    (∃ m : Master, ∃ q : Nat, ∃ d : QState, ∃ s : State, s.Open m (pQM 0) ∧ s.cmdBusy (pQM 0) Off.qm0_Q_CMD_STAT = false ∧ q = s.qSel ∧ d = qDecode (s.regs32 (pQM 0) Off.qm0_Q_D0 8) ∧ s.qsBase ≠ 0 ∧ s.qm.cache.length < 16384 ∧ (s.qView q).en = false ∧ 2 ≤ d.log2 ∧ d.log2 ≤ 20 ∧ d.ring % (32 * 2 ^ d.log2) = 0 ∧ q ≠ 0 ∧ s.inDram d.ring (32 * 2 ^ d.log2) = true) ∧
    (∃ q a : Nat, ∃ d : Words, ∃ s : State, s.alive (pQM 0) = true ∧ s.qm.cache.length < 16384 ∧ d.length = 8 ∧ (s.pageRt (pQM 0)).inject = 0 ∧ a = (s.qView q).ring + 32 * (s.qView q).tail ∧ s.qValid q = false) ∧
    (∃ p q a : Nat, ∃ d : Words, ∃ s : State, s.alive (pQM 0) = true ∧ s.qm.cache.length < 16384 ∧ d.length = 8 ∧ (s.pageRt (pQM 0)).inject = 0 ∧ a = (s.qView q).ring + 32 * (s.qView q).tail ∧ s.qValid q = true ∧ ((s.qView q).full = true ∨ (∃ w ∈ s.qm.pushBuf, w.page = p ∧ w.queue = q)) ∧ s.qm.pushBuf.length < 256) ∧
    (∃ p q a : Nat, ∃ d : Words, ∃ s : State, s.alive (pQM 0) = true ∧ s.qm.cache.length < 16384 ∧ d.length = 8 ∧ (s.pageRt (pQM 0)).inject = 0 ∧ a = (s.qView q).ring + 32 * (s.qView q).tail ∧ s.qValid q = true ∧ ((s.qView q).full = true ∨ (∃ w ∈ s.qm.pushBuf, w.page = p ∧ w.queue = q)) ∧ 256 ≤ s.qm.pushBuf.length) ∧
    (∃ p q a : Nat, ∃ d : Words, ∃ s : State, s.alive (pQM 0) = true ∧ s.qm.cache.length < 16384 ∧ d.length = 8 ∧ (s.pageRt (pQM 0)).inject = 0 ∧ a = (s.qView q).ring + 32 * (s.qView q).tail ∧ s.qValid q = true ∧ (s.qView q).full = false ∧ (∀ w ∈ s.qm.pushBuf, ¬ (w.page = p ∧ w.queue = q)) ∧ s.lands (pQM 0) a 32 = true ∧ s.poisoned a = false ∧ a % 64 ≤ 32) ∧
    (∃ p q a : Nat, ∃ d : Words, ∃ s : State, ∃ st, s.alive (pQM 0) = true ∧ s.qm.cache.length < 16384 ∧ d.length = 8 ∧ (s.pageRt (pQM 0)).inject = 0 ∧ a = (s.qView q).ring + 32 * (s.qView q).tail ∧ q ≠ 0 ∧ s.qsBase ≠ 0 ∧ s.qCached q = some st ∧ s.alive p = true) ∧
    (∃ q : Nat, ∃ w : WaitPush, ∃ s : State, s.waitingPush q = some w ∧ s.alive (pQM 0) = true ∧ s.qm.cache.length < 16384 ∧ s.qValid q = true ∧ (s.qView q).full = true) ∧
    (∃ q : Nat, ∃ w : WaitPush, ∃ s : State, s.waitingPush q = some w ∧ s.alive (pQM 0) = true ∧ s.qm.cache.length < 16384 ∧ s.qValid q = true ∧ (s.qView q).full = false) ∧
    (∃ q : Nat, ∃ w : WaitPush, ∃ s : State, s.waitingPush q = some w ∧ s.alive (pQM 0) = true ∧ s.qm.cache.length < 16384 ∧ ((s.qView q).pushTo = 0 ∨ s.now < w.at_ + (s.qView q).pushTo * 250)) ∧
    (∃ q : Nat, ∃ w : WaitPush, ∃ s : State, s.waitingPush q = some w ∧ s.alive (pQM 0) = true ∧ s.qm.cache.length < 16384 ∧ q ≠ 0 ∧ s.qsBase ≠ 0 ∧ (s.qView q).pushTo ≠ 0 ∧ w.at_ + (s.qView q).pushTo * 250 ≤ s.now) ∧
    (∃ p q : Nat, ∃ s : State, s.alive p = true ∧ s.alive (pQM 0) = true ∧ s.qValid q = true ∧ s.qReissue q = none ∧ s.qm.cache.length < 16384 ∧ (s.pageRt (pQM 0)).inject = 0 ∧ (s.qView q).level = 0) ∧
    (∃ p q : Nat, ∃ s : State, s.alive p = true ∧ s.alive (pQM 0) = true ∧ s.qValid q = true ∧ s.qReissue q = none ∧ s.qm.cache.length < 16384 ∧ (s.pageRt (pQM 0)).inject = 0 ∧ (s.qView q).level ≠ 0) ∧
    (∃ m : Master, ∃ i q : Nat, ∃ v : Word, ∃ s : State, i < 8 ∧ s.Open m (pQM 1) ∧ s.cmdBusy (pQM 1) (portOff i Off.qm1_PORT_STAT) = false ∧ q = wfld v 0 20 ∧ s.qm.cache.length < 16384 ∧ s.qValid q = false) ∧
    (∃ m : Master, ∃ i q : Nat, ∃ v : Word, ∃ s : State, i < 8 ∧ s.Open m (pQM 1) ∧ s.cmdBusy (pQM 1) (portOff i Off.qm1_PORT_STAT) = false ∧ q = wfld v 0 20 ∧ s.qm.cache.length < 16384 ∧ s.qValid q = true ∧ (s.qView q).full = true) ∧
    (∃ m : Master, ∃ i q : Nat, ∃ v : Word, ∃ s : State, i < 8 ∧ s.Open m (pQM 1) ∧ s.cmdBusy (pQM 1) (portOff i Off.qm1_PORT_STAT) = false ∧ q = wfld v 0 20 ∧ s.qm.cache.length < 16384 ∧ s.qValid q = true ∧ (s.qView q).full = false) ∧
    (∃ m : Master, ∃ i q : Nat, ∃ v : Word, ∃ s : State, i < 8 ∧ s.Open m (pQM 1) ∧ s.cmdBusy (pQM 1) (portOff i Off.qm1_PORT_STAT) = false ∧ q = wfld v 0 20 ∧ s.qm.cache.length < 16384 ∧ s.qValid q = true ∧ s.alive (pQM 0) = true ∧ s.qReissue q = none ∧ (s.qView q).level = 0) ∧
    (∃ m : Master, ∃ i q : Nat, ∃ v : Word, ∃ s : State, i < 8 ∧ s.Open m (pQM 1) ∧ s.cmdBusy (pQM 1) (portOff i Off.qm1_PORT_STAT) = false ∧ q = wfld v 0 20 ∧ s.qm.cache.length < 16384 ∧ s.qValid q = true ∧ s.alive (pQM 0) = true ∧ s.qReissue q = none ∧ (s.qView q).level ≠ 0) ∧
    (∃ m : Master, ∃ hi : Bool, ∃ v : Word, ∃ s : State, s.Open m (pQM 0) ∧ hi = false ∧ wfld v 0 25 ≠ 0) ∧
    (∃ m : Master, ∃ hi : Bool, ∃ v : Word, ∃ s : State, s.Open m (pQM 0) ∧ (hi = true ∨ wfld v 0 25 = 0) ∧ v ≠ s.reg (pQM 0) (if hi then Off.qm0_QSTATE_HI else Off.qm0_QSTATE_LO) ∧ s.anyQueueEnabled = true) ∧
    (∃ m : Master, ∃ hi : Bool, ∃ v : Word, ∃ s : State, s.Open m (pQM 0) ∧ (hi = true ∨ wfld v 0 25 = 0) ∧ v ≠ s.reg (pQM 0) (if hi then Off.qm0_QSTATE_HI else Off.qm0_QSTATE_LO) ∧ s.anyQueueEnabled = false) :=
  ⟨⟨.host, ((sel 0x10 good (unset live)).qSel), (qDecode ((sel 0x10 good (unset live)).regs32 (pQM 0) Off.qm0_Q_D0 8)), sel 0x10 good (unset live), by unfold State.Open; decide +kernel⟩,
    ⟨.host, ((pinned [0x10]).qSel), (qDecode ((pinned [0x10]).regs32 (pQM 0) Off.qm0_Q_D0 8)), pinned [0x10], by unfold State.Open; decide +kernel⟩,
    ⟨.host, ((sel 0x10 good (queues live)).qSel), (qDecode ((sel 0x10 good (queues live)).regs32 (pQM 0) Off.qm0_Q_D0 8)), sel 0x10 good (queues live), by unfold State.Open; decide +kernel⟩,
    ⟨.host, ((pinned (List.replicate 4096 5)).qSel), (qDecode ((pinned (List.replicate 4096 5)).regs32 (pQM 0) Off.qm0_Q_D0 8)), pinned (List.replicate 4096 5), by unfold State.Open; decide +kernel⟩,
    ⟨.host, ((sel 0x30 (good.set 1 0x10010) (queues live)).qSel), (qDecode ((sel 0x30 (good.set 1 0x10010) (queues live)).regs32 (pQM 0) Off.qm0_Q_D0 8)), sel 0x30 (good.set 1 0x10010) (queues live), by unfold State.Open; decide +kernel⟩,
    ⟨.host, ((sel 0 good (queues live)).qSel), (qDecode ((sel 0 good (queues live)).regs32 (pQM 0) Off.qm0_Q_D0 8)), sel 0 good (queues live), by unfold State.Open; decide +kernel⟩,
    ⟨.host, ((sel 0x30 [0x1000, 0x40000] (queues live)).qSel), (qDecode ((sel 0x30 [0x1000, 0x40000] (queues live)).regs32 (pQM 0) Off.qm0_Q_D0 8)), sel 0x30 [0x1000, 0x40000] (queues live), by unfold State.Open; decide +kernel⟩,
    ⟨.host, ((sel 0x30 good (queues live)).qSel), (qDecode ((sel 0x30 good (queues live)).regs32 (pQM 0) Off.qm0_Q_D0 8)), sel 0x30 good (queues live), by unfold State.Open; decide +kernel⟩,
    ⟨0x99, (((queues live).qView 0x99).ring + 32 * ((queues live).qView 0x99).tail), d8, queues live, by decide +kernel⟩,
    ⟨5, 0x10, (((buffered 0x10 255 0).qView 0x10).ring + 32 * ((buffered 0x10 255 0).qView 0x10).tail), d8, buffered 0x10 255 0, by decide +kernel⟩,
    ⟨5, 0x10, (((buffered 0x10 256 0).qView 0x10).ring + 32 * ((buffered 0x10 256 0).qView 0x10).tail), d8, buffered 0x10 256 0, by decide +kernel⟩,
    ⟨5, 0x10, (((queues live).qView 0x10).ring + 32 * ((queues live).qView 0x10).tail), d8, queues live, by decide +kernel⟩,
    ⟨5, 0x10, (((queues live).qView 0x10).ring + 32 * ((queues live).qView 0x10).tail), d8, queues live, { en := true, log2 := 4, ring := 0x10000100, tail := 3 }, by decide +kernel⟩,
    ⟨0x13, push 0x13, buffered 0x13 1 0, by decide +kernel⟩,
    ⟨0x10, push 0x10, buffered 0x10 1 0, by decide +kernel⟩,
    ⟨0x10, push 0x10, buffered 0x10 1 0, by decide +kernel⟩,
    ⟨0x10, push 0x10, buffered 0x10 1 5, by decide +kernel⟩,
    ⟨pHENC 0, 0x15, queues live, by decide +kernel⟩,
    ⟨pHENC 0, 0x10, queues live, by decide +kernel⟩,
    ⟨.host, 7, 0x99, 0x99, queues live, by unfold State.Open; decide +kernel⟩,
    ⟨.host, 7, 0x13, 0x13, queues live, by unfold State.Open; decide +kernel⟩,
    ⟨.host, 7, 0x15, 0x15, queues live, by unfold State.Open; decide +kernel⟩,
    ⟨.host, 7, 0x15, 0x15, queues live, by unfold State.Open; decide +kernel⟩,
    ⟨.host, 7, 0x10, 0x10, queues live, by unfold State.Open; decide +kernel⟩,
    ⟨.host, false, 1, queues live, by unfold State.Open; decide +kernel⟩,
    ⟨.host, false, 0x2000000, queues live, by unfold State.Open; decide +kernel⟩,
    ⟨.host, false, 0x2000000, unset live, by unfold State.Open; decide +kernel⟩⟩

/-- States and operands that meet the hypotheses of DramControllers, clause by clause. -/
theorem wit_DramControllers :
    (∃ mp a n l : Nat, ∃ s : State, dramBase ≤ a ∧ s.inDram (a / 64 * 64) 64 = true ∧ s.fld (pPWR 1) Off.pwr1_STATE 0 2 ≠ 1 ∧ n = s.ctlOf (a / 64 * 64 - dramBase) ∧ n = s.ctlOf (a - dramBase) ∧ l = s.localOf (a - dramBase) ∧ s.alive (pDRAM n) = true ∧ s.fenced mp = false ∧ (s.pageRt (pDRAM n)).inject = 0 ∧ pageKind mp = .svc ∧ s.poisoned a = true) ∧
    (∃ mp a n l : Nat, ∃ core : CoreAccess, ∃ s : State, ∃ bs : List Byte, dramBase ≤ a ∧ s.inDram (a / 64 * 64) 64 = true ∧ s.fld (pPWR 1) Off.pwr1_STATE 0 2 ≠ 1 ∧ n = s.ctlOf (a / 64 * 64 - dramBase) ∧ n = s.ctlOf (a - dramBase) ∧ l = s.localOf (a - dramBase) ∧ s.alive (pDRAM n) = true ∧ s.fenced mp = false ∧ (s.pageRt (pDRAM n)).inject = 0 ∧ a % 64 + bs.length ≤ 64 ∧ 0 < bs.length ∧ s.inQState a bs.length = false ∧ s.guardHit mp a bs.length = none ∧ bs.length = 64 ∧ ¬ (pageKind mp = .svc ∧ core.isAmo = true)) ∧
    (∃ mp a n l : Nat, ∃ s : State, ∃ bs : List Byte, dramBase ≤ a ∧ s.inDram (a / 64 * 64) 64 = true ∧ s.fld (pPWR 1) Off.pwr1_STATE 0 2 ≠ 1 ∧ n = s.ctlOf (a / 64 * 64 - dramBase) ∧ n = s.ctlOf (a - dramBase) ∧ l = s.localOf (a - dramBase) ∧ s.alive (pDRAM n) = true ∧ s.fenced mp = false ∧ (s.pageRt (pDRAM n)).inject = 0 ∧ a % 64 + bs.length ≤ 64 ∧ 0 < bs.length ∧ s.inQState a bs.length = false ∧ s.guardHit mp a bs.length = none ∧ s.poisoned a = true ∧ bs.length < 64) ∧
    (∃ mp a n l : Nat, ∃ core : CoreAccess, ∃ s : State, ∃ bs : List Byte, dramBase ≤ a ∧ s.inDram (a / 64 * 64) 64 = true ∧ s.fld (pPWR 1) Off.pwr1_STATE 0 2 ≠ 1 ∧ n = s.ctlOf (a / 64 * 64 - dramBase) ∧ n = s.ctlOf (a - dramBase) ∧ l = s.localOf (a - dramBase) ∧ s.alive (pDRAM n) = true ∧ s.fenced mp = false ∧ (s.pageRt (pDRAM n)).inject = 0 ∧ a % 64 + bs.length ≤ 64 ∧ 0 < bs.length ∧ s.inQState a bs.length = false ∧ s.guardHit mp a bs.length = none ∧ s.poisoned a = false ∧ bs.length < 64 ∧ ¬ (pageKind mp = .svc ∧ core.isAmo = true)) ∧
    (∃ mp a n l : Nat, ∃ s : State, ∃ bs : List Byte, ∃ g, dramBase ≤ a ∧ s.inDram (a / 64 * 64) 64 = true ∧ s.fld (pPWR 1) Off.pwr1_STATE 0 2 ≠ 1 ∧ n = s.ctlOf (a / 64 * 64 - dramBase) ∧ n = s.ctlOf (a - dramBase) ∧ l = s.localOf (a - dramBase) ∧ s.alive (pDRAM n) = true ∧ s.fenced mp = false ∧ (s.pageRt (pDRAM n)).inject = 0 ∧ a % 64 + bs.length ≤ 64 ∧ 0 < bs.length ∧ s.inQState a bs.length = false ∧ s.guardHit mp a bs.length = some g ∧ 64 ≤ g) ∧
    (∃ n : Nat, n < 16) ∧
    (∃ n b : Nat, ∃ s : State, n < 16 ∧ s.dramRun n = true ∧ b = (s.reg (pDRAM n) Off.dram_SCRUB_POS).toNat ∧ s.bit pDRAMCOM Off.dramcom_SCRUB_CFG 16 = false) ∧
    (∃ n b : Nat, ∃ s : State, n < 16 ∧ s.dramRun n = true ∧ b = (s.reg (pDRAM n) Off.dram_SCRUB_POS).toNat ∧ s.bit pDRAMCOM Off.dramcom_SCRUB_CFG 16 = true ∧ b + 1 < s.localBlocks) ∧
    (∃ n b : Nat, ∃ s : State, n < 16 ∧ s.dramRun n = true ∧ b = (s.reg (pDRAM n) Off.dram_SCRUB_POS).toNat ∧ s.bit pDRAMCOM Off.dramcom_SCRUB_CFG 16 = true ∧ s.localBlocks ≤ b + 1) ∧
    (∃ n b : Nat, ∃ s : State, n < 16 ∧ s.dramRun n = true ∧ b = (s.reg (pDRAM n) Off.dram_SCRUB_POS).toNat ∧ s.bit pDRAMCOM Off.dramcom_SCRUB_CFG 16 = true ∧ s.fld (pDRAM n) Off.dram_RETIRE_STAT 0 7 < 64) ∧
    (∃ n b : Nat, ∃ s : State, n < 16 ∧ s.dramRun n = true ∧ b = (s.reg (pDRAM n) Off.dram_SCRUB_POS).toNat ∧ s.bit pDRAMCOM Off.dramcom_SCRUB_CFG 16 = true ∧ 64 ≤ s.fld (pDRAM n) Off.dram_RETIRE_STAT 0 7) ∧
    (∃ n b : Nat, ∃ s : State, n < 16 ∧ s.dramRun n = true ∧ b = (s.reg (pDRAM n) Off.dram_SCRUB_POS).toNat ∧ s.bit pDRAMCOM Off.dramcom_SCRUB_CFG 16 = true ∧ s.inDram (dramBase + s.globalOf n (64 * b)) 64 = true) ∧
    (∃ n lane rd wr width : Nat, ∃ s : State, n < 16 ∧ s.dramRun n = true ∧ lane < 4 ∧ rd < 256 ∧ wr < 256 ∧ width < 256 ∧ s.bit (pDRAM n) Off.dram_TRAIN 0 = true) ∧
    (∃ n lane rd wr width : Nat, ∃ s : State, n < 16 ∧ s.dramRun n = true ∧ lane < 4 ∧ rd < 256 ∧ wr < 256 ∧ width < 256 ∧ s.bit (pDRAM n) Off.dram_TRAIN 0 = false) ∧
    (∃ n lane rd wr width : Nat, ∃ s : State, n < 16 ∧ s.dramRun n = true ∧ lane < 4 ∧ rd < 256 ∧ wr < 256 ∧ width < 256 ∧ dueAgain (Map.get (fun _ => none) (s.dctl n).margin lane) 2500000 s.now = false) ∧
    (∃ n lane rd wr width : Nat, ∃ s : State, n < 16 ∧ s.dramRun n = true ∧ lane < 4 ∧ rd < 256 ∧ wr < 256 ∧ width < 256 ∧ dueAgain (Map.get (fun _ => none) (s.dctl n).margin lane) 2500000 s.now = true) ∧
    (∃ n : Nat, ∃ s : State, n < 16 ∧ s.dramRun n = true ∧ dueAgain (s.dctl n).osc 2500000 s.now = true) ∧
    (∃ m : Master, ∃ k : Nat, ∃ v : Word, ∃ s : State, k < 4 ∧ s.Open m pDRAMCOM ∧ (wfld v 0 4 ≠ 2 ^ k ∨ 6 < popCount v.toNat 32)) ∧
    (∃ m : Master, ∃ k : Nat, ∃ v : Word, ∃ s : State, k < 4 ∧ s.Open m pDRAMCOM ∧ wfld v 0 4 = 2 ^ k ∧ popCount v.toNat 32 ≤ 6 ∧ s.dramIdle = true) ∧
    (∃ m : Master, ∃ k : Nat, ∃ v : Word, ∃ s : State, k < 4 ∧ s.Open m pDRAMCOM ∧ wfld v 0 4 = 2 ^ k ∧ popCount v.toNat 32 ≤ 6 ∧ s.dramIdle = false ∧ v ≠ s.reg pDRAMCOM (Off.dramcom_BANK_HASH0 + 4 * k)) ∧
    (∃ m : Master, ∃ k : Nat, ∃ v : Word, ∃ s : State, k < 4 ∧ s.Open m pDRAMCOM ∧ 5 ≤ wfld v 2 3) ∧
    (∃ m : Master, ∃ k : Nat, ∃ v : Word, ∃ s : State, k < 4 ∧ s.Open m pDRAMCOM ∧ wfld v 2 3 < 5 ∧ s.dramIdle = true) ∧
    (∃ m : Master, ∃ i : Nat, ∃ s : State, ∃ base limit : Nat, ∃ c : Word, s.Open m pDRAMGUARD ∧ i = s.gSel ∧ base = s.reg64 pDRAMGUARD Off.dramguard_G_BASE_LO (Off.dramguard_G_BASE_LO + 4) ∧ limit = s.reg64 pDRAMGUARD Off.dramguard_G_LIMIT_LO (Off.dramguard_G_LIMIT_LO + 4) ∧ c = s.reg pDRAMGUARD Off.dramguard_G_CTRL ∧ i < 64) ∧
    (∃ m : Master, ∃ i : Nat, ∃ s : State, ∃ base limit : Nat, ∃ c : Word, s.Open m pDRAMGUARD ∧ i = s.gSel ∧ base = s.reg64 pDRAMGUARD Off.dramguard_G_BASE_LO (Off.dramguard_G_BASE_LO + 4) ∧ limit = s.reg64 pDRAMGUARD Off.dramguard_G_LIMIT_LO (Off.dramguard_G_LIMIT_LO + 4) ∧ c = s.reg pDRAMGUARD Off.dramguard_G_CTRL ∧ 64 ≤ i ∧ (base % 64 ≠ 0 ∨ limit % 64 ≠ 63 ∨ limit < base)) ∧
    (∃ m : Master, ∃ i : Nat, ∃ s : State, ∃ base limit : Nat, ∃ c : Word, s.Open m pDRAMGUARD ∧ i = s.gSel ∧ base = s.reg64 pDRAMGUARD Off.dramguard_G_BASE_LO (Off.dramguard_G_BASE_LO + 4) ∧ limit = s.reg64 pDRAMGUARD Off.dramguard_G_LIMIT_LO (Off.dramguard_G_LIMIT_LO + 4) ∧ c = s.reg pDRAMGUARD Off.dramguard_G_CTRL ∧ 64 ≤ i ∧ base % 64 = 0 ∧ limit % 64 = 63 ∧ base ≤ limit ∧ bitAt c 31 = true ∧ pageKind (wfld c 16 10) = .none) ∧
    (∃ m : Master, ∃ i : Nat, ∃ s : State, ∃ base limit : Nat, ∃ c : Word, s.Open m pDRAMGUARD ∧ i = s.gSel ∧ base = s.reg64 pDRAMGUARD Off.dramguard_G_BASE_LO (Off.dramguard_G_BASE_LO + 4) ∧ limit = s.reg64 pDRAMGUARD Off.dramguard_G_LIMIT_LO (Off.dramguard_G_LIMIT_LO + 4) ∧ c = s.reg pDRAMGUARD Off.dramguard_G_CTRL ∧ 64 ≤ i ∧ base % 64 = 0 ∧ limit % 64 = 63 ∧ base ≤ limit ∧ (bitAt c 31 = false ∨ pageKind (wfld c 16 10) ≠ .none)) :=
  ⟨⟨pSVC 0, 0x1000012345, ((lines.setPoison 0x1000012340 true).ctlOf (0x1000012345 / 64 * 64 - dramBase)), ((lines.setPoison 0x1000012340 true).localOf (0x1000012345 - dramBase)), lines.setPoison 0x1000012340 true, by decide +kernel⟩,
    ⟨5, 0x1000012340, (lines.ctlOf (0x1000012340 / 64 * 64 - dramBase)), (lines.localOf (0x1000012340 - dramBase)), core, lines, List.replicate 64 1, by decide +kernel⟩,
    ⟨5, 0x1000012345, ((lines.setPoison 0x1000012340 true).ctlOf (0x1000012345 / 64 * 64 - dramBase)), ((lines.setPoison 0x1000012340 true).localOf (0x1000012345 - dramBase)), lines.setPoison 0x1000012340 true, [1], by decide +kernel⟩,
    ⟨5, 0x1000012345, (lines.ctlOf (0x1000012345 / 64 * 64 - dramBase)), (lines.localOf (0x1000012345 - dramBase)), core, lines, [1], by decide +kernel⟩,
    ⟨5, 0x1000001000, (lines.ctlOf (0x1000001000 / 64 * 64 - dramBase)), (lines.localOf (0x1000001000 - dramBase)), lines, [1], 70, by decide +kernel⟩,
    ⟨15, by decide +kernel⟩,
    ⟨3, (((scrub 5 63 0).reg (pDRAM 3) Off.dram_SCRUB_POS).toNat), scrub 5 63 0, by decide +kernel⟩,
    ⟨3, (((scrub 5 63 1).reg (pDRAM 3) Off.dram_SCRUB_POS).toNat), scrub 5 63 1, by decide +kernel⟩,
    ⟨3, (((scrub 0xFFFFFFFF 64 1).reg (pDRAM 3) Off.dram_SCRUB_POS).toNat), scrub 0xFFFFFFFF 64 1, by decide +kernel⟩,
    ⟨3, (((scrub 5 63 1).reg (pDRAM 3) Off.dram_SCRUB_POS).toNat), scrub 5 63 1, by decide +kernel⟩,
    ⟨3, (((scrub 14680063 64 1).reg (pDRAM 3) Off.dram_SCRUB_POS).toNat), scrub 14680063 64 1, by decide +kernel⟩,
    ⟨3, (((scrub 5 63 1).reg (pDRAM 3) Off.dram_SCRUB_POS).toNat), scrub 5 63 1, by decide +kernel⟩,
    ⟨3, 3, 255, 255, 0, dram [(pDRAM 3, Off.dram_TRAIN, 1)], by decide +kernel⟩,
    ⟨3, 3, 255, 255, 0, dram [(pDRAM 3, Off.dram_TRAIN, 0)], by decide +kernel⟩,
    ⟨3, 3, 255, 255, 0, (dram []).modDctl 3 fun c => { c with margin := [(3, some 999999999)] }, by decide +kernel⟩,
    ⟨3, 3, 255, 255, 0, dram [(pDRAM 3, Off.dram_TRAIN, 1)], by decide +kernel⟩,
    ⟨3, dram [], by decide +kernel⟩,
    ⟨.host, 3, 0x7F8, live, by unfold State.Open; decide +kernel⟩,
    ⟨.host, 3, 8, live, by unfold State.Open; decide +kernel⟩,
    ⟨.host, 3, 8, dram [], by unfold State.Open; decide +kernel⟩,
    ⟨.host, 3, 0x78, live, by unfold State.Open; decide +kernel⟩,
    ⟨.host, 3, 8, live, by unfold State.Open; decide +kernel⟩,
    ⟨.host, ((gsel 63 0x1000 0x103F 1).gSel), gsel 63 0x1000 0x103F 1, ((gsel 63 0x1000 0x103F 1).reg64 pDRAMGUARD Off.dramguard_G_BASE_LO (Off.dramguard_G_BASE_LO + 4)), ((gsel 63 0x1000 0x103F 1).reg64 pDRAMGUARD Off.dramguard_G_LIMIT_LO (Off.dramguard_G_LIMIT_LO + 4)), ((gsel 63 0x1000 0x103F 1).reg pDRAMGUARD Off.dramguard_G_CTRL), by unfold State.Open; decide +kernel⟩,
    ⟨.host, ((gsel 64 0x1000 0x1040 1).gSel), gsel 64 0x1000 0x1040 1, ((gsel 64 0x1000 0x1040 1).reg64 pDRAMGUARD Off.dramguard_G_BASE_LO (Off.dramguard_G_BASE_LO + 4)), ((gsel 64 0x1000 0x1040 1).reg64 pDRAMGUARD Off.dramguard_G_LIMIT_LO (Off.dramguard_G_LIMIT_LO + 4)), ((gsel 64 0x1000 0x1040 1).reg pDRAMGUARD Off.dramguard_G_CTRL), by unfold State.Open; decide +kernel⟩,
    ⟨.host, ((gsel 64 0x1000 0x103F 0x83FF0001).gSel), gsel 64 0x1000 0x103F 0x83FF0001, ((gsel 64 0x1000 0x103F 0x83FF0001).reg64 pDRAMGUARD Off.dramguard_G_BASE_LO (Off.dramguard_G_BASE_LO + 4)), ((gsel 64 0x1000 0x103F 0x83FF0001).reg64 pDRAMGUARD Off.dramguard_G_LIMIT_LO (Off.dramguard_G_LIMIT_LO + 4)), ((gsel 64 0x1000 0x103F 0x83FF0001).reg pDRAMGUARD Off.dramguard_G_CTRL), by unfold State.Open; decide +kernel⟩,
    ⟨.host, ((gsel 64 0x1000 0x103F 1).gSel), gsel 64 0x1000 0x103F 1, ((gsel 64 0x1000 0x103F 1).reg64 pDRAMGUARD Off.dramguard_G_BASE_LO (Off.dramguard_G_BASE_LO + 4)), ((gsel 64 0x1000 0x103F 1).reg64 pDRAMGUARD Off.dramguard_G_LIMIT_LO (Off.dramguard_G_LIMIT_LO + 4)), ((gsel 64 0x1000 0x103F 1).reg pDRAMGUARD Off.dramguard_G_CTRL), by unfold State.Open; decide +kernel⟩⟩

end Queue

namespace Event

def out (p k : Nat) (v b : Word) : State := S [(p, Off.hdr_PG_EVT_OUT0 + 4 * k, v), (chPage 5, chOff 5 Off.evf0_CH_BIND, b)] live
def tick : State := live.onEvf fun v => { v with win := 4000 }
def chan (cfg : Word) (bind : Nat) (f : Channel → Channel) : State :=
  (S [(chPage 200, chOff 200 Off.evf0_CH_BIND, wd bind), (chPage 200, chOff 200 Off.evf0_CH_CFG, cfg), (pEVF 0, Off.evf0_LOOP0 + 24, 0x100)] tick).modChan 200 fun h => f { h with pend := [7] }
def offD (s : State) : State := S [(pMAC 3, Off.hdr_PG_STAT, 2)] s
def pin (cfg bind : Word) (e : Option Nat) : State :=
  (S [(pEVF 1, Off.evf1_PIN_CFG + 28, cfg), (chPage 9, chOff 9 Off.evf0_CH_BIND, bind)] live).modPin 7 fun t => { t with pulseEnd := e }
def toPin (e : Option Nat) : State := S [(pEVF 1, Off.evf1_PIN_CFG + 28, 2)] ((chan 0 (7 + 12288) id).modPin 7 fun t => { t with pulseEnd := e })

/-- States and operands that meet the hypotheses of EventFabric, clause by clause. -/
theorem wit_EventFabric :
    (∃ m : Master, ∃ p k c o : Nat, ∃ v : Word, ∃ s : State, s.Open m p ∧ p < 1024 ∧ k < 8 ∧ o = Off.hdr_PG_EVT_OUT0 + 4 * k ∧ c = wfld v 0 8 ∧ k < 4) ∧
    (∃ m : Master, ∃ p k c o : Nat, ∃ v : Word, ∃ s : State, s.Open m p ∧ p < 1024 ∧ k < 8 ∧ o = Off.hdr_PG_EVT_OUT0 + 4 * k ∧ c = wfld v 0 8 ∧ 4 ≤ k ∧ bitAt v 8 = true ∧ s.boundElsewhere c p (k - 4) false = true) ∧
    (∃ m : Master, ∃ p k c o : Nat, ∃ v : Word, ∃ s : State, s.Open m p ∧ p < 1024 ∧ k < 8 ∧ o = Off.hdr_PG_EVT_OUT0 + 4 * k ∧ c = wfld v 0 8 ∧ 4 ≤ k ∧ bitAt v 8 = true ∧ s.boundElsewhere c p (k - 4) false = false) ∧
    (∃ m : Master, ∃ p k c o : Nat, ∃ v : Word, ∃ s : State, s.Open m p ∧ p < 1024 ∧ k < 8 ∧ o = Off.hdr_PG_EVT_OUT0 + 4 * k ∧ c = wfld v 0 8 ∧ 4 ≤ k ∧ bitAt v 8 = false) ∧
    (∃ c : Nat, ∃ s : State, c < 256 ∧ s.evWindow = s.evf.win ∧ (s.chan c).pend = []) ∧
    (∃ c t : Nat, ∃ s : State, c < 256 ∧ s.evWindow = s.evf.win ∧ (s.chan c).pend = [t] ∧ s.now < t + 4) ∧
    (∃ c t : Nat, ∃ s : State, c < 256 ∧ s.evWindow = s.evf.win ∧ (s.chan c).pend = [t] ∧ t + 4 ≤ s.now ∧ ((s.chan c).held = false ∨ s.now < (s.chan c).gapEnd) ∧ bitAt (s.chCfg c) 29 = true ∧ s.chBit Off.evf0_LOOP0 c = true) ∧
    (∃ c t : Nat, ∃ s : State, c < 256 ∧ s.evWindow = s.evf.win ∧ (s.chan c).pend = [t] ∧ t + 4 ≤ s.now ∧ ((s.chan c).held = false ∨ s.now < (s.chan c).gapEnd) ∧ bitAt (s.chCfg c) 29 = false ∧ s.now < (s.chan c).gapEnd ∧ (s.chan c).held = false) ∧
    (∃ c t : Nat, ∃ s : State, c < 256 ∧ s.evWindow = s.evf.win ∧ (s.chan c).pend = [t] ∧ t + 4 ≤ s.now ∧ ((s.chan c).held = false ∨ s.now < (s.chan c).gapEnd) ∧ bitAt (s.chCfg c) 29 = false ∧ s.now < (s.chan c).gapEnd ∧ (s.chan c).held = true) ∧
    (∃ c t : Nat, ∃ s : State, ∃ p k b : Nat, c < 256 ∧ s.evWindow = s.evf.win ∧ (s.chan c).pend = [t] ∧ t + 4 ≤ s.now ∧ ((s.chan c).held = false ∨ s.now < (s.chan c).gapEnd) ∧ bitAt (s.chCfg c) 29 = false ∧ (s.chan c).gapEnd ≤ s.now ∧ (s.chan c).winLimit = 0 ∧ b = (s.evReg (chPage c) (chOff c Off.evf0_CH_BIND)).toNat ∧ b = p + k * 1024 + 8192 ∧ p < 1024 ∧ k < 4 ∧ s.alive p = false) ∧
    (∃ c t : Nat, ∃ s : State, ∃ p k b : Nat, c < 256 ∧ s.evWindow = s.evf.win ∧ (s.chan c).pend = [t] ∧ t + 4 ≤ s.now ∧ ((s.chan c).held = false ∨ s.now < (s.chan c).gapEnd) ∧ bitAt (s.chCfg c) 29 = false ∧ (s.chan c).gapEnd ≤ s.now ∧ (s.chan c).winLimit = 0 ∧ b = (s.evReg (chPage c) (chOff c Off.evf0_CH_BIND)).toNat ∧ b = p + k * 1024 + 8192 ∧ p < 1024 ∧ k < 4 ∧ s.alive p = true ∧ (evtInCap p).testBit k = true ∧ s.inBusy p k = false) ∧
    (∃ c t : Nat, ∃ s : State, ∃ p k b : Nat, c < 256 ∧ s.evWindow = s.evf.win ∧ (s.chan c).pend = [t] ∧ t + 4 ≤ s.now ∧ ((s.chan c).held = false ∨ s.now < (s.chan c).gapEnd) ∧ bitAt (s.chCfg c) 29 = false ∧ (s.chan c).gapEnd ≤ s.now ∧ (s.chan c).winLimit = 0 ∧ b = (s.evReg (chPage c) (chOff c Off.evf0_CH_BIND)).toNat ∧ b = p + k * 1024 + 8192 ∧ p < 1024 ∧ k < 4 ∧ s.alive p = true ∧ (evtInCap p).testBit k = true ∧ s.inBusy p k = true) ∧
    (∃ c t : Nat, ∃ s : State, ∃ q : Nat, c < 256 ∧ s.evWindow = s.evf.win ∧ (s.chan c).pend = [t] ∧ t + 4 ≤ s.now ∧ ((s.chan c).held = false ∨ s.now < (s.chan c).gapEnd) ∧ bitAt (s.chCfg c) 29 = false ∧ (s.chan c).gapEnd ≤ s.now ∧ (s.chan c).winLimit = 0 ∧ (s.evReg (chPage c) (chOff c Off.evf0_CH_BIND)).toNat = q + 12288 ∧ q < 32 ∧ wfld (s.pinCfg q) 0 2 = 2 ∧ (s.pinPort q).pulseEnd = none) ∧
    (∃ c t : Nat, ∃ s : State, ∃ q : Nat, ∃ e, c < 256 ∧ s.evWindow = s.evf.win ∧ (s.chan c).pend = [t] ∧ t + 4 ≤ s.now ∧ ((s.chan c).held = false ∨ s.now < (s.chan c).gapEnd) ∧ bitAt (s.chCfg c) 29 = false ∧ (s.chan c).gapEnd ≤ s.now ∧ (s.chan c).winLimit = 0 ∧ (s.evReg (chPage c) (chOff c Off.evf0_CH_BIND)).toNat = q + 12288 ∧ q < 32 ∧ wfld (s.pinCfg q) 0 2 = 2 ∧ (s.pinPort q).pulseEnd = some e ∧ s.now < e) ∧
    (∃ c t : Nat, ∃ s : State, ∃ q : Nat, ∃ e, c < 256 ∧ s.evWindow = s.evf.win ∧ (s.chan c).pend = [t] ∧ t + 4 ≤ s.now ∧ ((s.chan c).held = false ∨ s.now < (s.chan c).gapEnd) ∧ bitAt (s.chCfg c) 29 = false ∧ (s.chan c).gapEnd ≤ s.now ∧ (s.chan c).winLimit = 0 ∧ (s.evReg (chPage c) (chOff c Off.evf0_CH_BIND)).toNat = q + 12288 ∧ q < 32 ∧ wfld (s.pinCfg q) 0 2 = 2 ∧ (s.pinPort q).pulseEnd = some e ∧ e ≤ s.now ∧ (s.pinPort q).pendCfg = none) ∧
    (∃ c t : Nat, ∃ s : State, c < 256 ∧ s.evWindow = s.evf.win ∧ (s.chan c).pend = [t] ∧ t + 4 ≤ s.now ∧ ((s.chan c).held = false ∨ s.now < (s.chan c).gapEnd) ∧ bitAt (s.chCfg c) 29 = false ∧ (s.chan c).gapEnd ≤ s.now ∧ (s.chan c).winLimit ≠ 0 ∧ (s.chan c).winCount = (s.chan c).winLimit) ∧
    (∃ c t : Nat, ∃ s : State, c < 256 ∧ s.evWindow = s.evf.win ∧ (s.chan c).pend = [t, t] ∧ t + 4 ≤ s.now ∧ (s.chan c).held = false ∧ (s.chan c).gapEnd ≤ s.now ∧ bitAt (s.chCfg c) 29 = false ∧ (s.chan c).winLimit = 0) ∧
    (∃ c : Nat, ∃ s : State, c < 256 ∧ ((s.chan c).held = false ∨ s.now < (s.chan c).gapEnd)) ∧
    (∃ c : Nat, ∃ s : State, c < 256 ∧ (s.chan c).held = true ∧ (s.chan c).gapEnd ≤ s.now ∧ bitAt (s.chCfg c) 29 = false) ∧
    (∃ s : State, s.evWindow = s.evf.win) ∧
    (∃ s : State, s.evWindow ≠ s.evf.win) ∧
    (∃ m : Master, ∃ v : Word, ∃ s : State, s.Open m (pEVF 0) ∧ bitAt v 8 = false) ∧
    (∃ m : Master, ∃ v : Word, ∃ s : State, s.Open m (pEVF 0) ∧ bitAt v 8 = true) ∧
    (∃ q : Nat, ∃ s : State, q < 32 ∧ wfld (s.pinCfg q) 0 2 = 2) ∧
    (∃ q : Nat, ∃ s : State, q < 32 ∧ wfld (s.pinCfg q) 0 2 ≠ 2) ∧
    (∃ q e : Nat, ∃ s : State, q < 32 ∧ (s.pinPort q).pulseEnd = some e ∧ s.now < e) ∧
    (∃ q e : Nat, ∃ s : State, q < 32 ∧ (s.pinPort q).pulseEnd = some e ∧ e ≤ s.now ∧ (s.pinPort q).pendCfg = none) ∧
    (∃ m : Master, ∃ q : Nat, ∃ v : Word, ∃ s : State, q < 32 ∧ s.Open m (pEVF 1) ∧ wfld v 0 2 = 3) ∧
    (∃ m : Master, ∃ q : Nat, ∃ v : Word, ∃ s : State, q < 32 ∧ s.Open m (pEVF 1) ∧ wfld v 0 2 ≠ 3 ∧ (s.pinPort q).pulseEnd.isSome = true) ∧
    (∃ m : Master, ∃ q : Nat, ∃ v : Word, ∃ s : State, q < 32 ∧ s.Open m (pEVF 1) ∧ wfld v 0 2 = 2 ∧ (s.pinPort q).pulseEnd = none ∧ s.boundElsewhere (wfld v 8 8) q 0 true = true) ∧
    (∃ m : Master, ∃ q : Nat, ∃ v : Word, ∃ s : State, q < 32 ∧ s.Open m (pEVF 1) ∧ wfld v 0 2 = 2 ∧ (s.pinPort q).pulseEnd = none ∧ s.boundElsewhere (wfld v 8 8) q 0 true = false) ∧
    (∃ m : Master, ∃ q : Nat, ∃ v : Word, ∃ s : State, q < 32 ∧ s.Open m (pEVF 1) ∧ wfld v 0 2 < 2 ∧ (s.pinPort q).pulseEnd = none ∧ wfld (s.pinCfg q) 0 2 = 2) :=
  ⟨⟨.host, pMAC 3, 3, (wfld 0x105 0 8), (Off.hdr_PG_EVT_OUT0 + 4 * 3), 0x105, out (pMAC 3) 4 0 0, by unfold State.Open; decide +kernel⟩,
    ⟨.host, pMAC 3, 4, (wfld 0x105 0 8), (Off.hdr_PG_EVT_OUT0 + 4 * 4), 0x105, out (pMAC 3) 4 0 (wd (pHENC 1 + 8192)), by unfold State.Open; decide +kernel⟩,
    ⟨.host, pMAC 3, 4, (wfld 0x105 0 8), (Off.hdr_PG_EVT_OUT0 + 4 * 4), 0x105, out (pMAC 3) 4 0 0, by unfold State.Open; decide +kernel⟩,
    ⟨.host, pMAC 3, 4, (wfld 0x005 0 8), (Off.hdr_PG_EVT_OUT0 + 4 * 4), 0x005, out (pMAC 3) 4 0 0, by unfold State.Open; decide +kernel⟩,
    ⟨200, chan 0 0 fun h => { h with pend := [] }, by decide +kernel⟩,
    ⟨200, 999999999, chan 0 0 fun h => { h with pend := [999999999] }, by decide +kernel⟩,
    ⟨200, 7, chan 0x20000000 0 id, by decide +kernel⟩,
    ⟨200, 7, chan 0 0 fun h => { h with gapEnd := 1000000001 }, by decide +kernel⟩,
    ⟨200, 7, chan 0 0 fun h => { h with gapEnd := 1000000001, held := true }, by decide +kernel⟩,
    ⟨200, 7, offD (chan 0 (pMAC 3 + 8192) id), pMAC 3, 0, (((offD (chan 0 (pMAC 3 + 8192) id)).evReg (chPage 200) (chOff 200 Off.evf0_CH_BIND)).toNat), by decide +kernel⟩,
    ⟨200, 7, chan 0 (pENG 3 + 8192) id, pENG 3, 0, (((chan 0 (pENG 3 + 8192) id).evReg (chPage 200) (chOff 200 Off.evf0_CH_BIND)).toNat), by decide +kernel⟩,
    ⟨200, 7, (chan 0 (pENG 3 + 8192) id).setBusy (pENG 3) 0 true, pENG 3, 0, ((((chan 0 (pENG 3 + 8192) id).setBusy (pENG 3) 0 true).evReg (chPage 200) (chOff 200 Off.evf0_CH_BIND)).toNat), by decide +kernel⟩,
    ⟨200, 7, toPin none, 7, by decide +kernel⟩,
    ⟨200, 7, toPin (some 1000000001), 7, 1000000001, by decide +kernel⟩,
    ⟨200, 7, toPin (some 1000000000), 7, 1000000000, by decide +kernel⟩,
    ⟨200, 7, chan 0 0 fun h => { h with winLimit := 3, winCount := 3 }, by decide +kernel⟩,
    ⟨200, 7, chan 0 0 fun h => { h with pend := [7, 7] }, by decide +kernel⟩,
    ⟨200, chan 0 0 id, by decide +kernel⟩,
    ⟨200, chan 0 0 fun h => { h with held := true, gapEnd := 1000000000 }, by decide +kernel⟩,
    ⟨tick, by decide +kernel⟩,
    ⟨live, by decide +kernel⟩,
    ⟨.host, 5, live, by unfold State.Open; decide +kernel⟩,
    ⟨.host, 0x105, live, by unfold State.Open; decide +kernel⟩,
    ⟨7, pin 0x902 0 none, by decide +kernel⟩,
    ⟨31, pin 0x902 0 none, by decide +kernel⟩,
    ⟨7, 1000000001, pin 2 0 (some 1000000001), by decide +kernel⟩,
    ⟨7, 1000000000, pin 2 0 (some 1000000000), by decide +kernel⟩,
    ⟨.host, 7, 3, pin 2 0 none, by unfold State.Open; decide +kernel⟩,
    ⟨.host, 7, 0x902, pin 2 0 (some 5), by unfold State.Open; decide +kernel⟩,
    ⟨.host, 7, 0x902, pin 0 (8 + 12288) none, by unfold State.Open; decide +kernel⟩,
    ⟨.host, 7, 0x902, pin 2 0 none, by unfold State.Open; decide +kernel⟩,
    ⟨.host, 7, 0, pin 2 0 none, by unfold State.Open; decide +kernel⟩⟩

end Event

namespace Dep

def dep (f : Dependability → Dependability) (l : List (Nat × Nat × Word)) : State :=
  (S ([(pWARDEN, Off.warden_SCRUB_CFG, 0x105), (pWARDEN, Off.warden_CFG, 0x21)] ++ l) live).onDep f
def lap (n : Nat) : State := dep (fun d => { d with scrub := [(pCLUS 3 * 16 + 2, { remap := List.replicate n 5, lap := 4 })] }) []
def engine (p : Nat) (e : Bool × Bool) (l : List (Nat × Nat × Word)) : State :=
  dep (fun d => { d with engines := [(p, { condemned := e.1, retired := e.2 })] }) ([(clusOf p, Off.clus_SPARES, 0xF0), (pENG p, Off.hdr_PG_FAULT, 512)] ++ l)
def moult (st : MoultStep) (sp : Option Nat) (t : Nat) : Moult := { engine := 5, logical := 18, cause := 2, start := t, step := st, threads := [0, 2], spare := sp }
def moults (x : Moult) (c : List CocoonReq) (l : List (Nat × Nat × Word)) : State := dep (fun d => { d with moults := [x], cocoon := c }) l
def spares : List (Nat × Nat × Word) := [(pCLUS 32, Off.clus_SPARES, 0), (pCLUS 33, Off.clus_SPARES, 0xF0)]
def none_ : List (Nat × Nat × Word) := [(pCLUS 32, Off.clus_SPARES, 0), (pCLUS 33, Off.clus_SPARES, 0)]
def mapReq : CocoonReq := { rank := 3, off := 0x1000, type := 0x0901, payload := [] }
def notice (d : Bool) : FenceNotice := { page := pMAC 3, cause := 1, bit := 5, done := d }
def fence (d : Bool) (r : List (Nat × Word)) : State := dep (fun e => { e with fences := [notice d], reports := r }) []
def pair (st o : Word) : State := S [(pSVC 2, Off.svc_STAT, st), (pSVC 5, Off.svc_STAT, o)] live
def fwReq : CocoonReq := { rank := 6, off := 0x2A0040, type := 0xF123, payload := [1, 2, 3, 4], firmware := true }
def asked : State := dep (fun d => { d with cocoon := [fwReq] }) []
def written : State := match execCocoonWriteDone [] asked with | .next u => u | _ => asked
def find (o : Word) (s : State) : State := S [(pCOCOON, Off.cocoon_FIND_OFF, o)] s
def put (b o ty ln : Word) : State :=
  S [(pCOCOON, Off.cocoon_WR_STAT, b), (pCOCOON, Off.cocoon_WR_OFF, o), (pCOCOON, Off.cocoon_WR_TYPE, ty), (pCOCOON, Off.cocoon_WR_LEN, ln), (pCOCOON, Off.cocoon_WR_SRC_LO + 4, 0x10)] live
def silkR : SilkRec := ⟨0xF001, 5, 77, 1, 2, 3⟩
def silk (l : List SilkRec) (sn : Option Snapshot) (c : Word) : State := dep (fun d => { d with silk := { d.silk with buf := l, snap := sn } }) [(pSILK, Off.silk_SW_CODE, c)]
def snap : Snapshot := { trigger := 1, slot := 31, time := 5, firstSeq := 5, lastSeq := 4100, keep := true }

/-- States and operands that meet the hypotheses of ScrubbersAndMoult, clause by clause. -/
theorem wit_ScrubbersAndMoult :
    (∃ p k : Nat, ∃ s : State, s.bit pWARDEN Off.warden_SCRUB_CFG 8 = true ∧ s.powered p = true ∧ p ≠ pCOCOON ∧ (s.pageRt p).inject = 0 ∧ (s.scrubber p k).hist = []) ∧
    (∃ p k remaps : Nat, ∃ s : State, s.bit pWARDEN Off.warden_SCRUB_CFG 8 = true ∧ s.powered p = true ∧ p ≠ pCOCOON ∧ (s.pageRt p).inject = 0 ∧ (s.scrubber p k).remap.length < remaps) ∧
    (∃ p k remaps : Nat, ∃ s : State, s.bit pWARDEN Off.warden_SCRUB_CFG 8 = true ∧ s.powered p = true ∧ p ≠ pCOCOON ∧ (s.pageRt p).inject = 0 ∧ remaps ≤ (s.scrubber p k).remap.length) ∧
    (∃ p : Nat, ∃ s : State, ∃ c : Nat, s.bit pWARDEN Off.warden_SCRUB_CFG 8 = true ∧ s.powered p = true ∧ p ≠ pCOCOON ∧ (s.pageRt p).inject = 0 ∧ c < 34 ∧ p = pCLUS c) ∧
    (∃ p c : Nat, ∃ s : State, p < 272 ∧ (s.health p).condemned = false ∧ s.condemnCause p c = false) ∧
    (∃ p c : Nat, ∃ s : State, p < 272 ∧ (s.health p).condemned = false ∧ s.condemnCause p c = true ∧ s.bit pWARDEN Off.warden_CFG 0 = false) ∧
    (∃ p c : Nat, ∃ s : State, p < 272 ∧ (s.health p).condemned = false ∧ s.condemnCause p c = true ∧ s.bit pWARDEN Off.warden_CFG 0 = true) ∧
    (∃ m : Master, ∃ p : Nat, ∃ v : Word, ∃ s : State, p < 272 ∧ (s.health p).condemned = false ∧ s.Open m pWARDEN ∧ (wfld v 12 2 ≠ 1 ∨ 272 ≤ wfld v 0 9)) ∧
    (∃ m : Master, ∃ p : Nat, ∃ v : Word, ∃ s : State, p < 272 ∧ (s.health p).condemned = false ∧ s.Open m pWARDEN ∧ wfld v 12 2 = 1 ∧ wfld v 0 9 = p) ∧
    (∃ p : Nat, ∃ x : Moult, ∃ s : State, ∃ q, s.dep.moults = [x] ∧ x.engine = p ∧ x.step = .draining ∧ x.logical < 256 ∧ s.pickSpare x.logical = some q) ∧
    (∃ p : Nat, ∃ x : Moult, ∃ s : State, s.dep.moults = [x] ∧ x.engine = p ∧ x.step = .draining ∧ x.logical < 256 ∧ s.pickSpare x.logical = none) ∧
    (∃ p : Nat, ∃ x : Moult, ∃ s : State, s.dep.moults = [x] ∧ x.engine = p ∧ x.step = .draining ∧ x.logical < 256 ∧ s.now < x.start + 4000) ∧
    (∃ p : Nat, ∃ x : Moult, ∃ s : State, s.dep.moults = [x] ∧ x.engine = p ∧ x.step = .draining ∧ x.logical < 256 ∧ x.start + 4000 ≤ s.now) ∧
    (∃ p : Nat, ∃ x : Moult, ∃ s : State, s.dep.moults = [x] ∧ x.engine = p ∧ x.logical < 256 ∧ x.step = .draining) ∧
    (∃ p : Nat, ∃ x : Moult, ∃ s : State, s.dep.moults = [x] ∧ x.engine = p ∧ x.logical < 256 ∧ x.step = .waiting ∧ s.pickSpare x.logical = none) ∧
    (∃ p : Nat, ∃ x : Moult, ∃ s : State, s.dep.moults = [x] ∧ x.engine = p ∧ x.logical < 256 ∧ x.step = .waiting ∧ (s.pickSpare x.logical).isSome = true) ∧
    (∃ p : Nat, ∃ x : Moult, ∃ s : State, ∃ q, s.dep.moults = [x] ∧ x.engine = p ∧ x.logical < 256 ∧ x.step = .drained ∧ x.spare = some q ∧ q < 272 ∧ ((∃ r ∈ s.dep.cocoon, r.type = 0x0901) ∨ s.domOn (q / 8) = false)) ∧
    (∃ p : Nat, ∃ x : Moult, ∃ s : State, ∃ q, s.dep.moults = [x] ∧ x.engine = p ∧ x.logical < 256 ∧ x.step = .drained ∧ x.spare = some q ∧ q < 272 ∧ (∀ r ∈ s.dep.cocoon, r.type ≠ 0x0901) ∧ s.domOn (q / 8) = true) ∧
    (∃ p : Nat, ∃ s : State, p < 272 ∧ (s.health p).condemned = false) ∧
    (∃ p : Nat, ∃ s : State, p < 272 ∧ (s.health p).condemned = true) ∧
    (∃ s : State, (s.fld pWARDEN Off.warden_SPARE_BIST 0 16 = 0 ∨ s.now < s.dep.spareAt + s.fld pWARDEN Off.warden_SPARE_BIST 0 16 * 250000000)) ∧
    (∃ s : State, s.fld pWARDEN Off.warden_SPARE_BIST 0 16 ≠ 0 ∧ s.dep.spareAt + s.fld pWARDEN Off.warden_SPARE_BIST 0 16 * 250000000 ≤ s.now ∧ (∃ p < 272, s.isSpare p = true)) ∧
    (∃ p : Nat, ∃ s : State, p < 272 ∧ s.fld (pENG p) Off.eng_BIST_STAT 0 2 ≠ 3) ∧
    (∃ p : Nat, ∃ s : State, p < 272 ∧ s.fld (pENG p) Off.eng_BIST_STAT 0 2 = 3 ∧ (s.health p).condemned = false) ∧
    (∃ p : Nat, ∃ s : State, p < 272 ∧ s.fld (pENG p) Off.eng_BIST_STAT 0 2 = 3 ∧ (s.health p).condemned = true ∧ (s.health p).retired = false) ∧
    (∃ p : Nat, ∃ s : State, p < 272 ∧ s.fld (pENG p) Off.eng_BIST_STAT 0 2 = 3 ∧ s.bit (clusOf p) Off.clus_BIST_STAT 0 = false ∧ s.isSpare p = true) :=
  ⟨⟨pCLUS 3, 2, lap 1, by decide +kernel⟩,
    ⟨pCLUS 3, 2, 2, lap 1, by decide +kernel⟩,
    ⟨pCLUS 3, 2, 2, lap 2, by decide +kernel⟩,
    ⟨pCLUS 3, lap 1, 3, by decide +kernel⟩,
    ⟨271, 1, live, by decide +kernel⟩,
    ⟨271, 1, engine 271 (false, false) [(pWARDEN, Off.warden_CFG, 0x20), (pENG 271, Off.eng_BIST_STAT, 2)], by decide +kernel⟩,
    ⟨271, 1, engine 271 (false, false) [(pENG 271, Off.eng_BIST_STAT, 2)], by decide +kernel⟩,
    ⟨.host, 271, 0x1000 + 272, engine 271 (false, false) [(pENG 271, Off.eng_BIST_STAT, 2)], by unfold State.Open; decide +kernel⟩,
    ⟨.host, 271, 0x1000 + 271, engine 271 (false, false) [(pENG 271, Off.eng_BIST_STAT, 2)], by unfold State.Open; decide +kernel⟩,
    ⟨5, moult .draining none 999996001, moults (moult .draining none 999996001) [] spares, 268, by decide +kernel⟩,
    ⟨5, moult .draining none 999996000, moults (moult .draining none 999996000) [] none_, by decide +kernel⟩,
    ⟨5, moult .draining none 999996001, moults (moult .draining none 999996001) [] spares, by decide +kernel⟩,
    ⟨5, moult .draining none 999996000, moults (moult .draining none 999996000) [] spares, by decide +kernel⟩,
    ⟨5, moult .draining none 5, moults (moult .draining none 5) [] [], by decide +kernel⟩,
    ⟨5, moult .waiting none 5, moults (moult .waiting none 5) [] none_, by decide +kernel⟩,
    ⟨5, moult .waiting none 5, moults (moult .waiting none 5) [] spares, by decide +kernel⟩,
    ⟨5, moult .drained (some 270) 5, moults (moult .drained (some 270) 5) [mapReq] [], 270, by decide +kernel⟩,
    ⟨5, moult .drained (some 270) 5, moults (moult .drained (some 270) 5) [] [], 270, by decide +kernel⟩,
    ⟨5, engine 5 (false, false) [], by decide +kernel⟩,
    ⟨5, engine 5 (true, false) [], by decide +kernel⟩,
    ⟨dep id [], by decide +kernel⟩,
    ⟨dep id ((pWARDEN, Off.warden_SPARE_BIST, 2) :: spares), by decide +kernel⟩,
    ⟨268, engine 268 (false, false) [], by decide +kernel⟩,
    ⟨268, engine 268 (false, false) [(pENG 268, Off.eng_BIST_STAT, 3)], by decide +kernel⟩,
    ⟨268, engine 268 (true, false) [(pENG 268, Off.eng_BIST_STAT, 3)], by decide +kernel⟩,
    ⟨268, engine 268 (false, false) [(pENG 268, Off.eng_BIST_STAT, 3)], by decide +kernel⟩⟩

/-- States and operands that meet the hypotheses of FaultsAndRecords, clause by clause. -/
theorem wit_FaultsAndRecords :
    (∃ m : Master, ∃ p : Nat, ∃ v : Word, ∃ s : State, s.Open m p ∧ fenceable p = true ∧ bitAt v 2 = false) ∧
    (∃ p : Nat, ∃ f : Word, ∃ rest : List (Nat × Word), ∃ s : State, p < 1024 ∧ s.dep.reports = (p, f) :: rest) ∧
    (∃ p : Nat, ∃ f : FenceNotice, ∃ s : State, s.dep.fences.find? (fun g => g.page == p) = some f ∧ (∃ r ∈ s.dep.reports, r.1 = p)) ∧
    (∃ p : Nat, ∃ f : FenceNotice, ∃ s : State, s.dep.fences.find? (fun g => g.page == p) = some f ∧ (∀ r ∈ s.dep.reports, r.1 ≠ p) ∧ f.done = true ∧ s.dep.silk.buf.length < 64) ∧
    (∃ m : Master, ∃ n : Nat, ∃ s : State, n < 8 ∧ s.Open m (pSVC n) ∧ s.pairState n = 2) ∧
    (∃ m : Master, ∃ n : Nat, ∃ s : State, n < 8 ∧ s.Open m (pSVC n) ∧ s.pairState n ≠ 2) ∧
    (∃ m : Master, ∃ n : Nat, ∃ s : State, n < 8 ∧ s.Open m (pSVC n) ∧ s.pairState n = 3 ∧ s.otherActive n = true) ∧
    (∃ m : Master, ∃ n : Nat, ∃ s : State, n < 8 ∧ s.Open m (pSVC n) ∧ (s.pairState n ≠ 3 ∨ s.otherActive n = false)) ∧
    (∃ m : Master, ∃ v : Word, ∃ off : Nat, ∃ s : State, s.Open m pCOCOON ∧ bitAt v 0 = true ∧ off = s.fld pCOCOON Off.cocoon_FIND_OFF 0 22 ∧ slotAt off = none) ∧
    (∃ m : Master, ∃ v : Word, ∃ off : Nat, ∃ s : State, ∃ sl, s.Open m pCOCOON ∧ bitAt v 0 = true ∧ off = s.fld pCOCOON Off.cocoon_FIND_OFF 0 22 ∧ slotAt off = some sl ∧ s.copyCur off sl = none) ∧
    (∃ m : Master, ∃ v : Word, ∃ off : Nat, ∃ s : State, ∃ sl, ∃ b q : Nat, s.Open m pCOCOON ∧ bitAt v 0 = true ∧ off = s.fld pCOCOON Off.cocoon_FIND_OFF 0 22 ∧ slotAt off = some sl ∧ s.copyCur off sl = some (b, q)) ∧
    (∃ m : Master, ∃ v : Word, ∃ off ty len a : Nat, ∃ s : State, s.Open m pCOCOON ∧ bitAt v 0 = true ∧ ty = s.fld pCOCOON Off.cocoon_WR_TYPE 0 16 ∧ off = s.fld pCOCOON Off.cocoon_WR_OFF 0 22 / 64 * 64 ∧ len = s.fld pCOCOON Off.cocoon_WR_LEN 0 17 ∧ a = s.reg64 pCOCOON Off.cocoon_WR_SRC_LO (Off.cocoon_WR_SRC_LO + 4) / 64 * 64 ∧ s.bit pCOCOON Off.cocoon_WR_STAT 0 = true) ∧
    (∃ m : Master, ∃ v : Word, ∃ off ty len a : Nat, ∃ s : State, s.Open m pCOCOON ∧ bitAt v 0 = true ∧ ty = s.fld pCOCOON Off.cocoon_WR_TYPE 0 16 ∧ off = s.fld pCOCOON Off.cocoon_WR_OFF 0 22 / 64 * 64 ∧ len = s.fld pCOCOON Off.cocoon_WR_LEN 0 17 ∧ a = s.reg64 pCOCOON Off.cocoon_WR_SRC_LO (Off.cocoon_WR_SRC_LO + 4) / 64 * 64 ∧ s.bit pCOCOON Off.cocoon_WR_STAT 0 = false ∧ (off < 0x2A0000 ∨ 0x3E0000 < off + 32 + len)) ∧
    (∃ m : Master, ∃ v : Word, ∃ off ty len a : Nat, ∃ s : State, s.Open m pCOCOON ∧ bitAt v 0 = true ∧ ty = s.fld pCOCOON Off.cocoon_WR_TYPE 0 16 ∧ off = s.fld pCOCOON Off.cocoon_WR_OFF 0 22 / 64 * 64 ∧ len = s.fld pCOCOON Off.cocoon_WR_LEN 0 17 ∧ a = s.reg64 pCOCOON Off.cocoon_WR_SRC_LO (Off.cocoon_WR_SRC_LO + 4) / 64 * 64 ∧ s.bit pCOCOON Off.cocoon_WR_STAT 0 = false ∧ 0x2A0000 ≤ off ∧ off + 32 + len ≤ 0x3E0000 ∧ ty < 0xF000) ∧
    (∃ m : Master, ∃ v : Word, ∃ off ty len a : Nat, ∃ s : State, s.Open m pCOCOON ∧ bitAt v 0 = true ∧ ty = s.fld pCOCOON Off.cocoon_WR_TYPE 0 16 ∧ off = s.fld pCOCOON Off.cocoon_WR_OFF 0 22 / 64 * 64 ∧ len = s.fld pCOCOON Off.cocoon_WR_LEN 0 17 ∧ a = s.reg64 pCOCOON Off.cocoon_WR_SRC_LO (Off.cocoon_WR_SRC_LO + 4) / 64 * 64 ∧ s.bit pCOCOON Off.cocoon_WR_STAT 0 = false ∧ 0x2A0000 ≤ off ∧ off + 32 + len ≤ 0x3E0000 ∧ 0xF000 ≤ ty ∧ len ≤ 65536 ∧ (s.busRead a len).1.bad = false) ∧
    (∃ s : State, s.dep.cocoon = []) ∧
    (∃ r : CocoonReq, ∃ sl : Option Nat × Nat, ∃ b seq : Nat, ∃ s : State, ((s.copyCur r.off sl = none ∧ b = 0 ∧ seq = 1) ∨ (∃ c q, s.copyCur r.off sl = some (c, q) ∧ b = 1 - c ∧ seq = (q + 1) % 2 ^ 32)) ∧ s.dep.cocoon = [r] ∧ r.rank ≠ 2 ∧ slotAt r.off = some sl ∧ r.firmware = true ∧ s.stor.ops = [] ∧ r.payload.length ≤ 65536) ∧
    (∃ s : State, dueAgain s.dep.silk.last 4 s.now = true ∧ s.dep.silk.side = [] ∧ s.dep.silk.snap = none ∧ s.bit pSILK Off.silk_MIRROR_CFG 8 = false ∧ s.dep.silk.buf = []) ∧
    (∃ r : SilkRec, ∃ s : State, dueAgain s.dep.silk.last 4 s.now = true ∧ s.dep.silk.side = [] ∧ s.dep.silk.snap = none ∧ s.bit pSILK Off.silk_MIRROR_CFG 8 = false ∧ s.dep.silk.buf = [r]) ∧
    (∃ m : Master, ∃ v : Word, ∃ code : Nat, ∃ s : State, s.Open m pSILK ∧ bitAt v 0 = true ∧ code = s.fld pSILK Off.silk_SW_CODE 0 16 ∧ (code < 0xF000 ∨ 0xF0FF < code)) ∧
    (∃ m : Master, ∃ v : Word, ∃ code : Nat, ∃ s : State, s.Open m pSILK ∧ bitAt v 0 = true ∧ code = s.fld pSILK Off.silk_SW_CODE 0 16 ∧ 0xF000 ≤ code ∧ code ≤ 0xF0FF ∧ s.dep.silk.buf.length < 64) ∧
    (∃ m : Master, ∃ v : Word, ∃ code : Nat, ∃ s : State, s.Open m pSILK ∧ bitAt v 0 = true ∧ code = s.fld pSILK Off.silk_SW_CODE 0 16 ∧ s.dep.silk.snap = none) ∧
    (∃ m : Master, ∃ v : Word, ∃ code : Nat, ∃ s : State, s.Open m pSILK ∧ bitAt v 0 = true ∧ code = s.fld pSILK Off.silk_SW_CODE 0 16 ∧ s.dep.silk.snap.isSome = true) ∧
    (∃ x : Snapshot, ∃ s : State, s.dep.silk.snap = some x ∧ x.saved = [] ∧ x.slot < 32 ∧ s.dep.silk.waiting = none) ∧
    (∃ s : State, (s.dep.pfw = true ∨ s.power.pwrGood = false)) ∧
    (∃ s : State, s.dep.pfw = false ∧ s.power.pwrGood = true) :=
  ⟨⟨.host, pHENC 0, 8, live, by unfold State.Open; decide +kernel⟩,
    ⟨pMAC 3, 77, [(5, 3)], dep (fun d => { d with reports := [(pMAC 3, 77), (5, 3)] }) [], by decide +kernel⟩,
    ⟨pMAC 3, notice false, fence false [(pMAC 3, 5)], by decide +kernel⟩,
    ⟨pMAC 3, notice true, fence true [], by decide +kernel⟩,
    ⟨.host, 2, pair 2 0, by unfold State.Open; decide +kernel⟩,
    ⟨.host, 2, pair 3 0, by unfold State.Open; decide +kernel⟩,
    ⟨.host, 2, pair 3 3, by unfold State.Open; decide +kernel⟩,
    ⟨.host, 2, pair 2 0, by unfold State.Open; decide +kernel⟩,
    ⟨.host, 1, ((find 3 live).fld pCOCOON Off.cocoon_FIND_OFF 0 22), find 3 live, by unfold State.Open; decide +kernel⟩,
    ⟨.host, 1, ((find 0x2A0040 live).fld pCOCOON Off.cocoon_FIND_OFF 0 22), find 0x2A0040 live, (slotAt 0x2A0040).getD (none, 0), by unfold State.Open; decide +kernel⟩,
    ⟨.host, 1, ((find 0x2A0040 written).fld pCOCOON Off.cocoon_FIND_OFF 0 22), find 0x2A0040 written, (slotAt 0x2A0040).getD (none, 0), 0, 1, by unfold State.Open; decide +kernel⟩,
    ⟨.host, 1, ((put 1 0x2A0040 0xF000 100).fld pCOCOON Off.cocoon_WR_OFF 0 22 / 64 * 64), ((put 1 0x2A0040 0xF000 100).fld pCOCOON Off.cocoon_WR_TYPE 0 16), ((put 1 0x2A0040 0xF000 100).fld pCOCOON Off.cocoon_WR_LEN 0 17), ((put 1 0x2A0040 0xF000 100).reg64 pCOCOON Off.cocoon_WR_SRC_LO (Off.cocoon_WR_SRC_LO + 4) / 64 * 64), put 1 0x2A0040 0xF000 100, by unfold State.Open; decide +kernel⟩,
    ⟨.host, 1, ((put 0 0x3DFFC0 0xF000 64).fld pCOCOON Off.cocoon_WR_OFF 0 22 / 64 * 64), ((put 0 0x3DFFC0 0xF000 64).fld pCOCOON Off.cocoon_WR_TYPE 0 16), ((put 0 0x3DFFC0 0xF000 64).fld pCOCOON Off.cocoon_WR_LEN 0 17), ((put 0 0x3DFFC0 0xF000 64).reg64 pCOCOON Off.cocoon_WR_SRC_LO (Off.cocoon_WR_SRC_LO + 4) / 64 * 64), put 0 0x3DFFC0 0xF000 64, by unfold State.Open; decide +kernel⟩,
    ⟨.host, 1, ((put 0 0x2A0000 0xEFFF 4).fld pCOCOON Off.cocoon_WR_OFF 0 22 / 64 * 64), ((put 0 0x2A0000 0xEFFF 4).fld pCOCOON Off.cocoon_WR_TYPE 0 16), ((put 0 0x2A0000 0xEFFF 4).fld pCOCOON Off.cocoon_WR_LEN 0 17), ((put 0 0x2A0000 0xEFFF 4).reg64 pCOCOON Off.cocoon_WR_SRC_LO (Off.cocoon_WR_SRC_LO + 4) / 64 * 64), put 0 0x2A0000 0xEFFF 4, by unfold State.Open; decide +kernel⟩,
    ⟨.host, 1, ((put 0 0x2A0000 0xF000 4).fld pCOCOON Off.cocoon_WR_OFF 0 22 / 64 * 64), ((put 0 0x2A0000 0xF000 4).fld pCOCOON Off.cocoon_WR_TYPE 0 16), ((put 0 0x2A0000 0xF000 4).fld pCOCOON Off.cocoon_WR_LEN 0 17), ((put 0 0x2A0000 0xF000 4).reg64 pCOCOON Off.cocoon_WR_SRC_LO (Off.cocoon_WR_SRC_LO + 4) / 64 * 64), put 0 0x2A0000 0xF000 4, by unfold State.Open; decide +kernel⟩,
    ⟨live, by decide +kernel⟩,
    ⟨fwReq, (slotAt 0x2A0040).getD (none, 0), 0, 1, asked, .inl (by decide +kernel), by decide +kernel⟩,
    ⟨silk [] none 0, by decide +kernel⟩,
    ⟨silkR, silk [silkR] none 0, by decide +kernel⟩,
    ⟨.host, 1, ((silk [] none 0xEFFF).fld pSILK Off.silk_SW_CODE 0 16), silk [] none 0xEFFF, by unfold State.Open; decide +kernel⟩,
    ⟨.host, 1, ((silk [] none 0xF0FF).fld pSILK Off.silk_SW_CODE 0 16), silk [] none 0xF0FF, by unfold State.Open; decide +kernel⟩,
    ⟨.host, 1, ((silk [] none 0xEFFF).fld pSILK Off.silk_SW_CODE 0 16), silk [] none 0xEFFF, by unfold State.Open; decide +kernel⟩,
    ⟨.host, 1, ((silk [] (some snap) 0xF000).fld pSILK Off.silk_SW_CODE 0 16), silk [] (some snap) 0xF000, by unfold State.Open; decide +kernel⟩,
    ⟨snap, silk [] (some snap) 0, by decide +kernel⟩,
    ⟨dep (fun d => { d with pfw := true }) [], by decide +kernel⟩,
    ⟨live.onPower fun w => { w with pwrGood := true }, by decide +kernel⟩⟩

end Dep

namespace Safe

def P (l : List (Nat × Word)) (s : State := live) : State := S (l.map fun x => (pSAFETY, x.1, x.2)) s
def D (f : Dependability → Dependability) (s : State := live) : State := s.onDep f
def hb (age : Nat) (stat token : Word) : State :=
  D (fun d => { d with hbAt := 1000000000 - age }) (P [(Off.safety_HB_CFG, 0x6405), (Off.safety_HB_STAT, stat), (Off.safety_HB_TOKEN, token)])
def view (i : Nat) (cfg ll fr : Word) : State :=
  S [(pSAFETY, Off.safety_VIEW_CFG + 0x10 * i, cfg), (pLINEVIEW, llOff (wfld cfg 1 3) Off.lineview_LL_STAT, ll),
    (pEYE (wfld cfg 1 3), erOff 0 Off.eye_R_FRAME, fr), (pEYE (wfld cfg 1 3), erOff 1 Off.eye_R_FRAME, 9)] live
def check (n : Nat) (r : Word) : State :=
  P [(Off.safety_CHK_ADDR, wd (4096 * pSAFETY + 0x118)), (Off.safety_CHK_ADDR + 4, wd (4096 * pMAC 3 + 0x104)), (Off.safety_CHK_CFG, wd (128 + n)), (Off.safety_CHK_EXPECT, r)]
def run (s : State) : Words × State := s.checkWords (List.range (min 64 (s.fld pSAFETY Off.safety_CHK_CFG 0 7)))
theorem run_eq (s : State) : ((run s).1, (run s).2) = s.checkWords (List.range (min 64 (s.fld pSAFETY Off.safety_CHK_CFG 0 7))) := rfl
theorem reg_of {t s : State} (h : t.regs = s.regs) : ∀ o < 4096, t.reg pSAFETY o = s.reg pSAFETY o := fun o _ => by unfold State.reg; rw [h]
def clock (hi good : Nat) : State := (D fun d => { d with clkHigh := hi, clkGood := good }).onPower fun w => { w with mainPwrEn := true }

/-- States and operands that meet the hypotheses of FunctionalSafety, clause by clause. -/
theorem wit_FunctionalSafety :
    (∃ m : Master, ∃ v : Word, ∃ s : State, s.Open m pSAFETY ∧ wfld v 16 16 ≠ 0x5CA7) ∧
    (∃ m : Master, ∃ v : Word, ∃ s : State, s.Open m pSAFETY ∧ wfld v 16 16 = 0x5CA7 ∧ bitAt v 1 = true) ∧
    (∃ m : Master, ∃ v : Word, ∃ s : State, s.Open m pSAFETY ∧ wfld v 16 16 = 0x5CA7 ∧ wfld v 0 11 = 0x7FF ∧ Nat.land s.fnCauses 0x7FD = 0) ∧
    (∃ m : Master, ∃ v : Word, ∃ s : State, s.Open m pSAFETY ∧ bitAt v 0 = true ∧ s.bit pSAFETY Off.safety_FN_EN 9 = true) ∧
    (∃ m : Master, ∃ v : Word, ∃ s : State, s.Open m pSAFETY ∧ bitAt v 0 = false) ∧
    (∃ m : Master, ∃ v : Word, ∃ s : State, s.Open m pSAFETY ∧ wfld v 16 16 = 0x5CA7 ∧ bitAt v 0 = true ∧ s.fld pSAFETY Off.safety_HB_CFG 0 8 < s.fld pSAFETY Off.safety_HB_CFG 8 8) ∧
    (∃ m : Master, ∃ v : Word, ∃ s : State, s.Open m pSAFETY ∧ wfld v 16 16 = 0x5CA7 ∧ bitAt v 0 = true ∧ s.fld pSAFETY Off.safety_HB_CFG 8 8 ≤ s.fld pSAFETY Off.safety_HB_CFG 0 8) ∧
    (∃ m : Master, ∃ s : State, ∃ age : Nat, s.Open m pSAFETY ∧ s.now = s.dep.hbAt + age ∧ s.bit pSAFETY Off.safety_HB_STAT 0 = true ∧ s.bit pSAFETY Off.safety_HB_STAT 1 = true) ∧
    (∃ m : Master, ∃ v : Word, ∃ s : State, ∃ age : Nat, s.Open m pSAFETY ∧ s.now = s.dep.hbAt + age ∧ s.bit pSAFETY Off.safety_HB_STAT 0 = true ∧ s.bit pSAFETY Off.safety_HB_STAT 1 = false ∧ wfld v 0 16 = 65535 - s.fld pSAFETY Off.safety_HB_TOKEN 0 16 ∧ s.fld pSAFETY Off.safety_HB_CFG 0 8 * 250000 ≤ age ∧ age < s.fld pSAFETY Off.safety_HB_CFG 8 8 * 250000) ∧
    (∃ m : Master, ∃ v : Word, ∃ s : State, ∃ age : Nat, s.Open m pSAFETY ∧ s.now = s.dep.hbAt + age ∧ s.bit pSAFETY Off.safety_HB_STAT 0 = true ∧ s.bit pSAFETY Off.safety_HB_STAT 1 = false ∧ (wfld v 0 16 ≠ 65535 - s.fld pSAFETY Off.safety_HB_TOKEN 0 16 ∨ age < s.fld pSAFETY Off.safety_HB_CFG 0 8 * 250000 ∨ s.fld pSAFETY Off.safety_HB_CFG 8 8 * 250000 ≤ age)) ∧
    (∃ m : Master, ∃ s : State, ∃ age : Nat, s.Open m pSAFETY ∧ s.now = s.dep.hbAt + age ∧ s.bit pSAFETY Off.safety_HB_STAT 0 = true ∧ s.bit pSAFETY Off.safety_HB_STAT 1 = false ∧ s.fld pSAFETY Off.safety_HB_CFG 8 8 * 250000 ≤ age) ∧
    (∃ n : Nat, ∃ s : State, n < 8 ∧ s.alive (pSVC n) = true ∧ (s.pairState n = 2 ∨ s.pairState n = 3)) ∧
    (∃ m : Master, ∃ n : Nat, ∃ v : Word, ∃ s : State, n < 8 ∧ s.Open m pSAFETY ∧ bitAt v n = true) ∧
    (∃ m : Master, ∃ n : Nat, ∃ v : Word, ∃ s : State, n < 8 ∧ s.Open m pSAFETY ∧ bitAt v n = false) ∧
    (∃ i h : Nat, ∃ cfg : Word, ∃ s : State, i < 8 ∧ cfg = s.reg pSAFETY (Off.safety_VIEW_CFG + 0x10 * i) ∧ h = wfld cfg 1 3 ∧ bitAt cfg 0 = false) ∧
    (∃ i f h : Nat, ∃ cfg : Word, ∃ s : State, i < 8 ∧ cfg = s.reg pSAFETY (Off.safety_VIEW_CFG + 0x10 * i) ∧ h = wfld cfg 1 3 ∧ bitAt cfg 0 = true ∧ (∀ r < 16, bitAt cfg (8 + r) = true → (s.reg (pEYE h) (erOff r Off.eye_R_FRAME)).toNat = f ∧ (s.eyeReg h r).due = none) ∧ (∀ l ∈ (s.head h).lines, l.frame ≠ f) ∧ Map.get (fun _ => none) s.dep.viewSeen i ≠ some f ∧ Map.get (fun _ => none) s.dep.viewClr i = none ∧ (bitAt cfg 4 = true → s.bit pLINEVIEW (llOff h Off.lineview_LL_STAT) 8 = false ∧ s.bit pLINEVIEW (llOff h Off.lineview_LL_STAT) 10 = false ∧ s.fld pLINEVIEW (llOff h Off.lineview_LL_STAT) 0 2 = 2) ∧ (∀ r < 16, bitAt cfg (8 + r) = true → s.bit (pEYE h) (erOff r Off.eye_R_STAT) 0 = false ∧ s.bit (pEYE h) Off.eye_SAFE_MAP r = false)) ∧
    (∃ i f h : Nat, ∃ cfg : Word, ∃ s : State, i < 8 ∧ cfg = s.reg pSAFETY (Off.safety_VIEW_CFG + 0x10 * i) ∧ h = wfld cfg 1 3 ∧ bitAt cfg 0 = true ∧ (∀ r < 16, bitAt cfg (8 + r) = true → (s.reg (pEYE h) (erOff r Off.eye_R_FRAME)).toNat = f ∧ (s.eyeReg h r).due = none) ∧ (∀ l ∈ (s.head h).lines, l.frame ≠ f) ∧ Map.get (fun _ => none) s.dep.viewSeen i ≠ some f ∧ Map.get (fun _ => none) s.dep.viewClr i = none ∧ bitAt cfg 4 = true ∧ s.fld pLINEVIEW (llOff h Off.lineview_LL_STAT) 0 2 ≠ 2) ∧
    (∃ m : Master, ∃ i h : Nat, ∃ v cfg : Word, ∃ s : State, i < 8 ∧ cfg = s.reg pSAFETY (Off.safety_VIEW_CFG + 0x10 * i) ∧ h = wfld cfg 1 3 ∧ s.Open m pSAFETY ∧ bitAt v 0 = true) ∧
    (∃ ws : Words, ∃ t s : State, (ws, t) = s.checkWords (List.range (min 64 (s.fld pSAFETY Off.safety_CHK_CFG 0 7))) ∧ s.bit pSAFETY Off.safety_CHK_CFG 7 = false) ∧
    (∃ ws : Words, ∃ t s : State, (ws, t) = s.checkWords (List.range (min 64 (s.fld pSAFETY Off.safety_CHK_CFG 0 7))) ∧ (∀ o < 4096, t.reg pSAFETY o = s.reg pSAFETY o) ∧ s.bit pSAFETY Off.safety_CHK_CFG 7 = true ∧ wd (crc32c (wordsBytes ws)) = s.reg pSAFETY Off.safety_CHK_EXPECT) ∧
    (∃ ws : Words, ∃ t s : State, (ws, t) = s.checkWords (List.range (min 64 (s.fld pSAFETY Off.safety_CHK_CFG 0 7))) ∧ (∀ o < 4096, t.reg pSAFETY o = s.reg pSAFETY o) ∧ s.bit pSAFETY Off.safety_CHK_CFG 7 = true ∧ wd (crc32c (wordsBytes ws)) ≠ s.reg pSAFETY Off.safety_CHK_EXPECT) ∧
    (∃ dev : Nat, ∃ s : State, 20 < dev ∧ 1 ≤ s.dep.clkHigh) ∧
    (∃ dev : Nat, ∃ s : State, 20 < dev ∧ s.dep.clkHigh = 0) ∧
    (∃ dev : Nat, ∃ s : State, dev ≤ 10 ∧ 99 ≤ s.dep.clkGood) ∧
    (∃ r : Nat, ∃ s : State, r < 12 ∧ s.power.mainPwrEn = true) ∧
    (∃ m : Master, ∃ p : Nat, ∃ v : Word, ∃ s : State, s.Open m p ∧ (wfld v 16 16 ≠ 0x5CA7 ∨ s.bit pSAFETY Off.safety_INJ_EN 0 = false)) ∧
    (∃ m : Master, ∃ p : Nat, ∃ v : Word, ∃ s : State, s.Open m p ∧ wfld v 16 16 = 0x5CA7 ∧ s.bit pSAFETY Off.safety_INJ_EN 0 = true ∧ bitAt v 7 = true ∧ wfld v 5 2 = 0 ∧ (faultMask p).testBit (wfld v 0 5) = true) ∧
    (∃ m : Master, ∃ p : Nat, ∃ v : Word, ∃ s : State, s.Open m p ∧ wfld v 16 16 = 0x5CA7 ∧ s.bit pSAFETY Off.safety_INJ_EN 0 = true ∧ bitAt v 7 = true ∧ wfld v 5 2 = 3) ∧
    (∃ m : Master, ∃ p : Nat, ∃ v : Word, ∃ s : State, s.Open m p ∧ p = pSAFETY ∧ bitAt v 8 = true ∧ s.bit pSAFETY Off.safety_INJ_EN 0 = false) ∧
    (∃ m : Master, ∃ p : Nat, ∃ v : Word, ∃ s : State, s.Open m p ∧ p = pSAFETY ∧ bitAt v 8 = true ∧ s.bit pSAFETY Off.safety_INJ_EN 0 = true) :=
  ⟨⟨.host, 1, P [], by unfold State.Open; decide +kernel⟩,
    ⟨.host, 0x5CA70003, P [], by unfold State.Open; decide +kernel⟩,
    ⟨.host, 0x5CA707FF, P [], by unfold State.Open; decide +kernel⟩,
    ⟨.host, 0x5CA70003, P [], by unfold State.Open; decide +kernel⟩,
    ⟨.host, 0, P [], by unfold State.Open; decide +kernel⟩,
    ⟨.host, 0x5CA70001, hb 1 0 0, by unfold State.Open; decide +kernel⟩,
    ⟨.host, 0x5CA70001, P [(Off.safety_HB_CFG, 0x0505)], by unfold State.Open; decide +kernel⟩,
    ⟨.host, hb 1250000 3 0xACE1, 1250000, by unfold State.Open; decide +kernel⟩,
    ⟨.host, 0x531E, hb 1250000 1 0xACE1, 1250000, by unfold State.Open; decide +kernel⟩,
    ⟨.host, 0x531E, hb 1249999 1 0xACE1, 1249999, by unfold State.Open; decide +kernel⟩,
    ⟨.host, hb 25000000 1 0xACE1, 25000000, by unfold State.Open; decide +kernel⟩,
    ⟨7, S [(pSVC 7, Off.svc_STAT, 2)] live, by decide +kernel⟩,
    ⟨.host, 7, 0x80, S [(pSVC 7, Off.svc_STAT, 2)] live, by unfold State.Open; decide +kernel⟩,
    ⟨.host, 7, 0, S [(pSVC 7, Off.svc_STAT, 2)] live, by unfold State.Open; decide +kernel⟩,
    ⟨7, 3, ((view 7 0x04000316 0 9).reg pSAFETY (Off.safety_VIEW_CFG + 0x10 * 7)), view 7 0x04000316 0 9, by decide +kernel⟩,
    ⟨7, 9, 3, ((view 7 0x04000317 2 9).reg pSAFETY (Off.safety_VIEW_CFG + 0x10 * 7)), view 7 0x04000317 2 9, by decide +kernel⟩,
    ⟨7, 9, 3, ((view 7 0x04000317 1 9).reg pSAFETY (Off.safety_VIEW_CFG + 0x10 * 7)), view 7 0x04000317 1 9, by decide +kernel⟩,
    ⟨.host, 7, 3, 1, ((view 7 0x04000316 0 9).reg pSAFETY (Off.safety_VIEW_CFG + 0x10 * 7)), view 7 0x04000316 0 9, by unfold State.Open; decide +kernel⟩,
    ⟨(run (P [(Off.safety_CHK_CFG, 2)])).1, (run (P [(Off.safety_CHK_CFG, 2)])).2, P [(Off.safety_CHK_CFG, 2)], run_eq _, by decide +kernel⟩,
    ⟨(run (check 2 0x45BA2A5D)).1, (run (check 2 0x45BA2A5D)).2, check 2 0x45BA2A5D, run_eq _, reg_of (by decide +kernel), by decide +kernel⟩,
    ⟨(run (check 2 0)).1, (run (check 2 0)).2, check 2 0, run_eq _, reg_of (by decide +kernel), by decide +kernel⟩,
    ⟨21, clock 1 99, by decide +kernel⟩,
    ⟨21, clock 0 99, by decide +kernel⟩,
    ⟨10, clock 1 99, by decide +kernel⟩,
    ⟨11, clock 1 99, by decide +kernel⟩,
    ⟨.host, pSAFETY, 0x188, P [], by unfold State.Open; decide +kernel⟩,
    ⟨.host, pSAFETY, 0x5CA70088, P [(Off.safety_INJ_EN, 1)], by unfold State.Open; decide +kernel⟩,
    ⟨.host, pSAFETY, 0x5CA700E0, P [(Off.safety_INJ_EN, 1)], by unfold State.Open; decide +kernel⟩,
    ⟨.host, pSAFETY, 0x188, P [], by unfold State.Open; decide +kernel⟩,
    ⟨.host, pSAFETY, 0x188, P [(Off.safety_INJ_EN, 1)], by unfold State.Open; decide +kernel⟩⟩

end Safe

namespace Pow

def P (f : Power → Power) (s : State := live) : State := s.onPower f
def dom (i : Nat) (req st ps sv : Word) : State :=
  S [(pPWR 0, Off.pwr0_DOM_REQ0 + 4 * i, req), (pPWR 0, Off.pwr0_DOM_STAT0 + 4 * i, st), (pPWR 1, Off.pwr1_STATE, ps), (pSVC 1, Off.svc_STAT, sv)] live
def turn (d : Nat) (q : List Nat) (st : Word) : State :=
  P (fun p => { p with queue := q }) (S [(pPWR 0, Off.pwr0_DOM_REQ0 + 4 * (d / 32), 0xFFFFFFFF), (pPWR 0, Off.pwr0_DOM_STAT0 + 4 * (d / 32), st)] live)
def asleep (st sv : Word) (w : Option (Nat × Nat)) : State := P (fun p => { p with wake := w }) (S [(pPWR 1, Off.pwr1_STATE, st), (pSVC 0, Off.svc_STAT, sv)] live)
def trip (w : Option (Nat × Nat)) (cool : Nat) (st : Word) : State :=
  P (fun p => { p with tripWait := w, cool := cool })
    (S [(pTHERM 0, Off.therm0_WARN + 8, 0x01020569), (pPWR 1, Off.pwr1_STATE, st)] live)
def sensor (r : Int) (f : Word) : State :=
  P (fun p => { p with sens := [(31, { raw := r }), (0, { raw := 77 })] }) (S [(pTHERM 0, Off.therm0_CHECK, 5), (pTHERM 1, Off.therm1_FAILED_MAP, f)] live)
def diodes : List Int := List.replicate 8 400
def header : List Byte :=
  leBytes 4 0x4F425343 ++ leBytes 4 1 ++ leBytes 4 0 ++ leBytes 4 3 ++ leBytes 8 0x1000000000 ++ leBytes 8 0x1000000000 ++ leBytes 4 64 ++ List.replicate (512 - 36) 0
def image (st : Word) (h : List Byte) : State :=
  (S [(pBOOT, Off.boot_VERIFY_STAT, st), (pBOOT, Off.boot_VERIFY_LO + 4, 0x10)] live).poke 0x1000000000 h
def flash (x : Option Word) : State :=
  (P (fun p => { p with xspi := x }) (S [(pBOOT, Off.boot_XSPI_ADDR, 0x10123), (pBOOT, Off.boot_XSPI_BUF_LO + 4, 0x10)] live)).poke 0x1000000000 (List.replicate 256 0x5F)
def pair (st o vs : Word) : State := S [(pSVC 7, Off.svc_STAT, st), (pSVC 5, Off.svc_STAT, o), (pBOOT, Off.boot_VERIFY_STAT, vs)] live
def begun (n : Nat) (held good : Bool) (sup : Word := 0) : State :=
  P (fun p => { p with steps := n, pwrGood := good, mainPwrEn := true, resetHeld := held, sweepLap := true, mainAt := if n = 2 ∧ sup ≠ 0 then some 5 else none })
    (S ((pSAFETY, Off.safety_SUP_STAT, sup) :: (List.range 16).map (fun n => (pDRAM n, Off.dram_TRAIN, 1)) ++ (List.range 8).map (fun n => (pSVC n, Off.svc_STAT, 1))) live)
def reset (pfw busy hold : Bool) : State :=
  (P (fun p => { p with pwrGood := true, pfwHold := hold }) live).onDep fun d => { d with pfw := pfw, cocoon := if busy then [{ rank := 1, off := 0, type := 3, payload := [] }] else [] }
def lane (st pr : Word) : State := S [(pSWIFT 191, Off.swift_EYE_STAT, st), (pSWIFT 191, Off.swift_LANE_CFG, pr)] live

/-- States and operands that meet the hypotheses of DomainsAndPowerStates, clause by clause. -/
theorem wit_DomainsAndPowerStates :
    (∃ m : Master, ∃ i j d h : Nat, ∃ w : Word, ∃ s : State, i < 4 ∧ j < 32 ∧ d = 32 * i + j ∧ d < 112 ∧ s.Open m (pPWR 0) ∧ w = s.reg (pPWR 0) (Off.pwr0_DOM_REQ0 + 4 * i) ∧ h = s.domHold d ∧ s.fld (pPWR 1) Off.pwr1_STATE 0 2 ≠ 0) ∧
    (∃ m : Master, ∃ i j d h : Nat, ∃ w : Word, ∃ s : State, i < 4 ∧ j < 32 ∧ d = 32 * i + j ∧ d < 112 ∧ s.Open m (pPWR 0) ∧ w = s.reg (pPWR 0) (Off.pwr0_DOM_REQ0 + 4 * i) ∧ h = s.domHold d ∧ s.fld (pPWR 1) Off.pwr1_STATE 0 2 = 0 ∧ bitAt w j = false ∧ s.domOn d = false) ∧
    (∃ m : Master, ∃ i j d h : Nat, ∃ w : Word, ∃ s : State, i < 4 ∧ j < 32 ∧ d = 32 * i + j ∧ d < 112 ∧ s.Open m (pPWR 0) ∧ w = s.reg (pPWR 0) (Off.pwr0_DOM_REQ0 + 4 * i) ∧ h = s.domHold d ∧ s.fld (pPWR 1) Off.pwr1_STATE 0 2 = 0 ∧ bitAt w j = true ∧ s.domOn d = true ∧ h ≠ 0) ∧
    (∃ m : Master, ∃ i j d h : Nat, ∃ w : Word, ∃ s : State, i < 4 ∧ j < 32 ∧ d = 32 * i + j ∧ d < 112 ∧ s.Open m (pPWR 0) ∧ w = s.reg (pPWR 0) (Off.pwr0_DOM_REQ0 + 4 * i) ∧ h = s.domHold d ∧ s.fld (pPWR 1) Off.pwr1_STATE 0 2 = 0 ∧ bitAt w j = true ∧ s.domOn d = true ∧ h = 0) ∧
    (∃ d : Nat, ∃ s : State, d < 112 ∧ s.power.queue = []) ∧
    (∃ d : Nat, ∃ rest : List Nat, ∃ s : State, d < 112 ∧ s.power.queue = d :: rest ∧ s.bit (pPWR 0) (Off.pwr0_DOM_REQ0 + 4 * (d / 32)) (d % 32) = true ∧ s.domOn d = false) ∧
    (∃ m : Master, ∃ v : Word, ∃ s : State, s.Open m (pPWR 1) ∧ wfld v 16 16 ≠ 0x5CA7) ∧
    (∃ m : Master, ∃ v : Word, ∃ s : State, s.Open m (pPWR 1) ∧ wfld v 16 16 = 0x5CA7 ∧ wfld v 0 2 = 1 ∧ s.fld (pPWR 1) Off.pwr1_STATE 0 2 = 0 ∧ s.pairState 0 ≠ 3) ∧
    (∃ m : Master, ∃ v : Word, ∃ s : State, s.Open m (pPWR 1) ∧ wfld v 16 16 = 0x5CA7 ∧ wfld v 0 2 = 1 ∧ s.fld (pPWR 1) Off.pwr1_STATE 0 2 = 0 ∧ s.pairState 0 = 3) ∧
    (∃ m : Master, ∃ v : Word, ∃ s : State, s.Open m (pPWR 1) ∧ wfld v 16 16 = 0x5CA7 ∧ wfld v 0 2 = 2 ∧ s.fld (pPWR 1) Off.pwr1_STATE 0 2 = 1 ∧ s.power.wake = none) ∧
    (∃ m : Master, ∃ v : Word, ∃ s : State, ∃ c : Nat × Nat, s.Open m (pPWR 1) ∧ wfld v 16 16 = 0x5CA7 ∧ wfld v 0 2 = 2 ∧ s.fld (pPWR 1) Off.pwr1_STATE 0 2 = 1 ∧ s.power.wake = some c) ∧
    (∃ m : Master, ∃ v : Word, ∃ s : State, s.Open m (pPWR 1) ∧ wfld v 16 16 = 0x5CA7 ∧ wfld v 0 2 = 0 ∧ s.fld (pPWR 1) Off.pwr1_STATE 0 2 = 1) ∧
    (∃ m : Master, ∃ v : Word, ∃ s : State, s.Open m (pPWR 1) ∧ wfld v 16 16 = 0x5CA7 ∧ wfld v 0 2 = 2 ∧ s.fld (pPWR 1) Off.pwr1_STATE 0 2 = 0) ∧
    (∃ s : State, s.power.wake = none) ∧
    (∃ c : Nat × Nat, ∃ s : State, s.power.wake = some c ∧ s.fld (pPWR 1) Off.pwr1_STATE 0 2 = 1) ∧
    (∃ c : Nat × Nat, ∃ s : State, s.power.wake = some c ∧ s.fld (pPWR 1) Off.pwr1_STATE 0 2 = 2 ∧ s.power.restartAt ≠ some s.now) :=
  ⟨⟨.host, 3, 15, (32 * 3 + 15), ((dom 3 0 0 1 0).domHold (32 * 3 + 15)), ((dom 3 0 0 1 0).reg (pPWR 0) (Off.pwr0_DOM_REQ0 + 4 * 3)), dom 3 0 0 1 0, by unfold State.Open; decide +kernel⟩,
    ⟨.host, 3, 15, (32 * 3 + 15), ((dom 3 0 0 0 0).domHold (32 * 3 + 15)), ((dom 3 0 0 0 0).reg (pPWR 0) (Off.pwr0_DOM_REQ0 + 4 * 3)), dom 3 0 0 0 0, by unfold State.Open; decide +kernel⟩,
    ⟨.host, 3, 2, (32 * 3 + 2), ((dom 3 0xFFFFFFFF 0xFFFFFFFF 0 0).domHold (32 * 3 + 2)), ((dom 3 0xFFFFFFFF 0xFFFFFFFF 0 0).reg (pPWR 0) (Off.pwr0_DOM_REQ0 + 4 * 3)), dom 3 0xFFFFFFFF 0xFFFFFFFF 0 0, by unfold State.Open; decide +kernel⟩,
    ⟨.host, 3, 15, (32 * 3 + 15), ((dom 3 0xFFFFFFFF 0xFFFFFFFF 0 0).domHold (32 * 3 + 15)), ((dom 3 0xFFFFFFFF 0xFFFFFFFF 0 0).reg (pPWR 0) (Off.pwr0_DOM_REQ0 + 4 * 3)), dom 3 0xFFFFFFFF 0xFFFFFFFF 0 0, by unfold State.Open; decide +kernel⟩,
    ⟨111, turn 111 [] 0, by decide +kernel⟩,
    ⟨111, [77, 3], turn 111 [111, 77, 3] 0, by decide +kernel⟩,
    ⟨.host, 1, asleep 0 0 none, by unfold State.Open; decide +kernel⟩,
    ⟨.host, 0x5CA70001, asleep 0 0 none, by unfold State.Open; decide +kernel⟩,
    ⟨.host, 0x5CA70001, asleep 0 3 none, by unfold State.Open; decide +kernel⟩,
    ⟨.host, 0x5CA70002, asleep 1 0 none, by unfold State.Open; decide +kernel⟩,
    ⟨.host, 0x5CA70002, asleep 1 0 (some (3, 77)), (3, 77), by unfold State.Open; decide +kernel⟩,
    ⟨.host, 0x5CA70000, asleep 1 0 none, by unfold State.Open; decide +kernel⟩,
    ⟨.host, 0x5CA70002, asleep 0 0 none, by unfold State.Open; decide +kernel⟩,
    ⟨asleep 0 0 none, by decide +kernel⟩,
    ⟨(3, 77), asleep 1 0 (some (3, 77)), by decide +kernel⟩,
    ⟨(3, 77), asleep 2 0 (some (3, 77)), by decide +kernel⟩⟩

/-- States and operands that meet the hypotheses of ThermalManagement, clause by clause. -/
theorem wit_ThermalManagement :
    (∃ s : State, s.power.steps = 0) ∧
    (∃ s : State, s.power.steps ≠ 0 ∧ dueAgain s.power.sampleAt 25000 s.now = true) ∧
    (∃ s : State, s.power.tripWait = none) ∧
    (∃ z due : Nat, ∃ s : State, s.power.tripWait = some (z, due) ∧ s.now < due) ∧
    (∃ z due : Nat, ∃ s : State, s.power.tripWait = some (z, due) ∧ due ≤ s.now ∧ s.fld (pPWR 1) Off.pwr1_STATE 0 2 ≠ 3) ∧
    (∃ s : State, s.fld (pPWR 1) Off.pwr1_STATE 0 2 ≠ 3) ∧
    (∃ s : State, s.power.cool < (s.threshold 3).2.2) ∧
    (∃ s : State, s.fld (pPWR 1) Off.pwr1_STATE 0 2 = 3 ∧ (s.threshold 3).2.2 ≤ s.power.cool ∧ s.power.restartAt ≠ some s.now) ∧
    (∃ diode : List Int, ∃ i : Nat, ∃ r ref : Int, ∃ s : State, i < 32 ∧ s.power.steps ≠ 0 ∧ dueAgain s.power.checkAt 25000000 s.now = true ∧ r = (s.sensor i).raw ∧ ref = diode.getD (i / 4) 0 ∧ (r < -880 ∨ 2400 < r ∨ (16 * s.fld (pTHERM 0) Off.therm0_CHECK 0 8 : Int) < r - ref ∨ r - ref < -(16 * s.fld (pTHERM 0) Off.therm0_CHECK 0 8 : Int))) ∧
    (∃ diode : List Int, ∃ i : Nat, ∃ r ref : Int, ∃ s : State, i < 32 ∧ s.power.steps ≠ 0 ∧ dueAgain s.power.checkAt 25000000 s.now = true ∧ r = (s.sensor i).raw ∧ ref = diode.getD (i / 4) 0 ∧ -880 ≤ r ∧ r ≤ 2400 ∧ r - ref ≤ (16 * s.fld (pTHERM 0) Off.therm0_CHECK 0 8 : Int) ∧ -(16 * s.fld (pTHERM 0) Off.therm0_CHECK 0 8 : Int) ≤ r - ref) ∧
    (∃ s : State, s.power.steps ≠ 0 ∧ dueAgain s.power.compAt 2500000 s.now = true ∧ (∀ i < 32, s.sensFailed i = true)) ∧
    (∃ t : Int, ∃ s : State, s.power.steps ≠ 0 ∧ dueAgain s.power.compAt 2500000 s.now = true ∧ s.zoneV 0 = some t) ∧
    (∃ p : Nat, ∃ s : State, p < 16 ∧ s.power.steps ≠ 0) :=
  ⟨⟨P fun p => { p with steps := 0 }, by decide +kernel⟩,
    ⟨live, by decide +kernel⟩,
    ⟨trip none 0 0, by decide +kernel⟩,
    ⟨3, 5000000000, trip (some (3, 5000000000)) 0 0, by decide +kernel⟩,
    ⟨3, 5, trip (some (3, 5)) 0 0, by decide +kernel⟩,
    ⟨trip none 1 0, by decide +kernel⟩,
    ⟨trip none 1 0, by decide +kernel⟩,
    ⟨trip none 2 3, by decide +kernel⟩,
    ⟨diodes, 31, (((sensor 2401 0).sensor 31).raw), (diodes.getD (31 / 4) 0), sensor 2401 0, by decide +kernel⟩,
    ⟨diodes, 31, (((sensor 480 0).sensor 31).raw), (diodes.getD (31 / 4) 0), sensor 480 0, by decide +kernel⟩,
    ⟨sensor 0 0xFFFFFFFF, by decide +kernel⟩,
    ⟨77, sensor 0 0, by decide +kernel⟩,
    ⟨15, live, by decide +kernel⟩⟩

/-- States and operands that meet the hypotheses of BootImages, clause by clause. -/
theorem wit_BootImages :
    (∃ m : Master, ∃ v : Word, ∃ s : State, s.Open m pBOOT ∧ wfld v 16 16 ≠ 0x5CA7) ∧
    (∃ m : Master, ∃ v : Word, ∃ s : State, s.Open m pBOOT ∧ wfld v 16 16 = 0x5CA7 ∧ bitAt v 0 = true) ∧
    (∃ m : Master, ∃ s : State, s.Open m pBOOT ∧ s.bit pBOOT Off.boot_VERIFY_STAT 0 = true) ∧
    (∃ m : Master, ∃ v : Word, ∃ s : State, s.Open m pBOOT ∧ s.bit pBOOT Off.boot_VERIFY_STAT 0 = false ∧ bitAt v 0 = true) ∧
    (∃ a : Nat, ∃ s : State, a = s.reg64 pBOOT Off.boot_VERIFY_LO (Off.boot_VERIFY_LO + 4) / 4096 * 4096 ∧ s.bit pBOOT Off.boot_VERIFY_STAT 0 = false) ∧
    (∃ a : Nat, ∃ s : State, a = s.reg64 pBOOT Off.boot_VERIFY_LO (Off.boot_VERIFY_LO + 4) / 4096 * 4096 ∧ s.bit pBOOT Off.boot_VERIFY_STAT 0 = true ∧ (s.busRead a 0x200).1.bad = true) ∧
    (∃ a : Nat, ∃ h : List Byte, ∃ s : State, a = s.reg64 pBOOT Off.boot_VERIFY_LO (Off.boot_VERIFY_LO + 4) / 4096 * 4096 ∧ s.bit pBOOT Off.boot_VERIFY_STAT 0 = true ∧ (s.busRead a 0x200).1.bad = false ∧ h = (s.busRead a 0x200).1.bytes ∧ headerOk h = false) ∧
    (∃ a : Nat, ∃ h : List Byte, ∃ s : State, ∃ x : ReadData, a = s.reg64 pBOOT Off.boot_VERIFY_LO (Off.boot_VERIFY_LO + 4) / 4096 * 4096 ∧ s.bit pBOOT Off.boot_VERIFY_STAT 0 = true ∧ (s.busRead a 0x200).1.bad = false ∧ h = (s.busRead a 0x200).1.bytes ∧ headerOk h = true ∧ x = ((s.busRead a 0x200).2.busRead (a + 0x200) (imgLength h)).1 ∧ x.bad = false) ∧
    (∃ m : Master, ∃ v : Word, ∃ s : State, s.Open m pBOOT ∧ (s.power.xspi.isSome = true ∨ wfld v 0 2 = 0)) ∧
    (∃ m : Master, ∃ v : Word, ∃ s : State, s.Open m pBOOT ∧ s.power.xspi = none ∧ wfld v 0 2 = 1) ∧
    (∃ m : Master, ∃ v : Word, ∃ s : State, s.Open m pBOOT ∧ s.power.xspi = none ∧ wfld v 0 2 = 2) ∧
    (∃ m : Master, ∃ v : Word, ∃ s : State, s.Open m pBOOT ∧ s.power.xspi = none ∧ wfld v 0 2 = 3) ∧
    (∃ a : Nat, ∃ s : State, a = (s.reg pBOOT Off.boot_XSPI_ADDR).toNat ∧ s.power.xspi = none) ∧
    (∃ v : Word, ∃ a : Nat, ∃ s : State, a = (s.reg pBOOT Off.boot_XSPI_ADDR).toNat ∧ s.power.xspi = some v ∧ wfld v 0 2 = 1) ∧
    (∃ v : Word, ∃ a : Nat, ∃ s : State, a = (s.reg pBOOT Off.boot_XSPI_ADDR).toNat ∧ s.power.xspi = some v ∧ wfld v 0 2 = 3) ∧
    (∃ v : Word, ∃ a : Nat, ∃ s : State, ∃ x : ReadData, a = (s.reg pBOOT Off.boot_XSPI_ADDR).toNat ∧ s.power.xspi = some v ∧ wfld v 0 2 = 2 ∧ x = (s.busRead (s.reg64 pBOOT Off.boot_XSPI_BUF_LO (Off.boot_XSPI_BUF_LO + 4) / 64 * 64) 256).1 ∧ x.bad = false) ∧
    (∃ m : Master, ∃ n : Nat, ∃ s : State, n < 8 ∧ s.Open m (pSVC n) ∧ s.pairState n = 3 ∧ s.otherActive n = false) ∧
    (∃ m : Master, ∃ n : Nat, ∃ s : State, n < 8 ∧ s.Open m (pSVC n) ∧ (s.pairState n = 2 ∨ (s.pairState n = 3 ∧ s.otherActive n = true)) ∧ s.bootVerified n = false) ∧
    (∃ m : Master, ∃ n : Nat, ∃ s : State, n < 8 ∧ s.Open m (pSVC n) ∧ (s.pairState n = 2 ∨ (s.pairState n = 3 ∧ s.otherActive n = true)) ∧ s.bootVerified n = true) ∧
    (∃ n : Nat, ∃ s : State, n < 8 ∧ s.pairState n ≠ 1 ∧ s.pairState n ≠ 4) ∧
    (∃ n : Nat, ∃ s : State, n < 8 ∧ s.powered (pSVC n) = true ∧ s.pairState n = 1) :=
  ⟨⟨.host, 1, live, by unfold State.Open; decide +kernel⟩,
    ⟨.host, 0x5CA70001, live, by unfold State.Open; decide +kernel⟩,
    ⟨.host, S [(pBOOT, Off.boot_VERIFY_STAT, 1)] live, by unfold State.Open; decide +kernel⟩,
    ⟨.host, 0x5CA70001, live, by unfold State.Open; decide +kernel⟩,
    ⟨((image 0 header).reg64 pBOOT Off.boot_VERIFY_LO (Off.boot_VERIFY_LO + 4) / 4096 * 4096), image 0 header, by decide +kernel⟩,
    ⟨(((image 1 header).setPoison 0x1000000000 true).reg64 pBOOT Off.boot_VERIFY_LO (Off.boot_VERIFY_LO + 4) / 4096 * 4096), (image 1 header).setPoison 0x1000000000 true, by decide +kernel⟩,
    ⟨((image 1 (header.set 0 1)).reg64 pBOOT Off.boot_VERIFY_LO (Off.boot_VERIFY_LO + 4) / 4096 * 4096), header.set 0 1, image 1 (header.set 0 1), by decide +kernel⟩,
    ⟨((image 1 header).reg64 pBOOT Off.boot_VERIFY_LO (Off.boot_VERIFY_LO + 4) / 4096 * 4096), header, image 1 header, ⟨List.replicate 64 0, false⟩, by decide +kernel⟩,
    ⟨.host, 1, flash (some 1), by unfold State.Open; decide +kernel⟩,
    ⟨.host, 1, flash none, by unfold State.Open; decide +kernel⟩,
    ⟨.host, 2, flash none, by unfold State.Open; decide +kernel⟩,
    ⟨.host, 3, flash none, by unfold State.Open; decide +kernel⟩,
    ⟨(((flash none).reg pBOOT Off.boot_XSPI_ADDR).toNat), flash none, by decide +kernel⟩,
    ⟨1, (((flash (some 1)).reg pBOOT Off.boot_XSPI_ADDR).toNat), flash (some 1), by decide +kernel⟩,
    ⟨3, (((flash (some 3)).reg pBOOT Off.boot_XSPI_ADDR).toNat), flash (some 3), by decide +kernel⟩,
    ⟨2, (((flash (some 2)).reg pBOOT Off.boot_XSPI_ADDR).toNat), flash (some 2), ⟨List.replicate 256 0x5F, false⟩, by decide +kernel⟩,
    ⟨.host, 7, pair 3 0 0, by unfold State.Open; decide +kernel⟩,
    ⟨.host, 7, (pair 2 0 0).onPower fun w => { w with firstStage := true }, by unfold State.Open; decide +kernel⟩,
    ⟨.host, 7, pair 2 0 0, by unfold State.Open; decide +kernel⟩,
    ⟨7, pair 3 0 0, by decide +kernel⟩,
    ⟨7, pair 1 0 0, by decide +kernel⟩⟩

/-- States and operands that meet the hypotheses of StartUpAndResets, clause by clause. -/
theorem wit_StartUpAndResets :
    (∃ s : State, s.power.waitCause = none ∧ (s.power.pwrGood = false ∨ s.power.pfwHold = true)) ∧
    (∃ s : State, s.power.waitCause = none ∧ s.power.pwrGood = true ∧ s.power.pfwHold = false ∧ s.fld (pPWR 1) Off.pwr1_STATE 0 2 < 2 ∧ s.bit pGLOBAL Off.global_START_STAT 5 = false ∧ s.power.steps = 0) ∧
    (∃ s : State, s.power.waitCause = none ∧ s.power.pwrGood = true ∧ s.power.pfwHold = false ∧ s.fld (pPWR 1) Off.pwr1_STATE 0 2 < 2 ∧ s.bit pGLOBAL Off.global_START_STAT 5 = false ∧ s.power.steps = 1 ∧ s.power.resetHeld = true) ∧
    (∃ s : State, s.power.waitCause = none ∧ s.power.pwrGood = true ∧ s.power.pfwHold = false ∧ s.fld (pPWR 1) Off.pwr1_STATE 0 2 < 2 ∧ s.bit pGLOBAL Off.global_START_STAT 5 = false ∧ s.power.steps = 1 ∧ s.power.resetHeld = false) ∧
    (∃ s : State, s.power.waitCause = none ∧ s.power.pwrGood = true ∧ s.power.pfwHold = false ∧ s.fld (pPWR 1) Off.pwr1_STATE 0 2 < 2 ∧ s.bit pGLOBAL Off.global_START_STAT 5 = false ∧ s.power.steps = 2 ∧ s.stepReady 3 = false) ∧
    (∃ s : State, s.power.waitCause = none ∧ s.power.pwrGood = true ∧ s.power.pfwHold = false ∧ s.fld (pPWR 1) Off.pwr1_STATE 0 2 < 2 ∧ s.bit pGLOBAL Off.global_START_STAT 5 = false ∧ s.power.steps = 2 ∧ s.stepReady 3 = true ∧ s.copyPayload 0x1600 = none) ∧
    (∃ e : StartEnv, ∃ s : State, s.power.waitCause = none ∧ s.power.pwrGood = true ∧ s.power.pfwHold = false ∧ s.fld (pPWR 1) Off.pwr1_STATE 0 2 < 2 ∧ s.bit pGLOBAL Off.global_START_STAT 5 = false ∧ s.power.steps = 3 ∧ e.badSlots % 4 = 3) ∧
    (∃ s : State, s.power.waitCause = none ∧ s.power.pwrGood = true ∧ s.power.pfwHold = false ∧ s.fld (pPWR 1) Off.pwr1_STATE 0 2 < 2 ∧ s.bit pGLOBAL Off.global_START_STAT 5 = false ∧ s.power.steps = 3 ∧ s.copyPayload 0x5800 = none) ∧
    (∃ s : State, s.power.waitCause = none ∧ s.power.pwrGood = true ∧ s.power.pfwHold = false ∧ s.fld (pPWR 1) Off.pwr1_STATE 0 2 < 2 ∧ s.bit pGLOBAL Off.global_START_STAT 5 = false ∧ s.power.steps = 4) ∧
    (∃ s : State, s.power.waitCause = none ∧ s.power.pwrGood = true ∧ s.power.pfwHold = false ∧ s.fld (pPWR 1) Off.pwr1_STATE 0 2 < 2 ∧ s.bit pGLOBAL Off.global_START_STAT 5 = false ∧ s.power.steps = 5) ∧
    (∃ s : State, s.power.waitCause = none ∧ s.power.pwrGood = true ∧ s.power.pfwHold = false ∧ s.fld (pPWR 1) Off.pwr1_STATE 0 2 < 2 ∧ s.bit pGLOBAL Off.global_START_STAT 5 = false ∧ s.power.steps = 6 ∧ (∀ n < 16, s.bit (pDRAM n) Off.dram_TRAIN 0 = true)) ∧
    (∃ e : StartEnv, ∃ s : State, s.power.waitCause = none ∧ s.power.pwrGood = true ∧ s.power.pfwHold = false ∧ s.fld (pPWR 1) Off.pwr1_STATE 0 2 < 2 ∧ s.bit pGLOBAL Off.global_START_STAT 5 = false ∧ s.power.steps = 7 ∧ e.memBad = [] ∧ e.checkers = [] ∧ (∀ n < 8, s.pairState n = 1)) ∧
    (∃ s : State, s.power.steps ≠ 8) ∧
    (∃ s : State, s.power.steps = 8 ∧ s.power.sweepLap = true ∧ (∀ p < 272, s.fld (pENG p) Off.eng_BIST_STAT 0 2 ≠ 3)) ∧
    (∃ s : State, s.stor.cmds = [] ∧ s.power.pwrGood = true) ∧
    (∃ s : State, s.stor.cmds = [] ∧ s.power.pwrGood = false) ∧
    (∃ m : Master, ∃ v : Word, ∃ s : State, s.stor.cmds = [] ∧ s.power.restartAt ≠ some s.now ∧ s.Open m pGLOBAL ∧ (wfld v 16 16 ≠ 0x5CA7 ∨ bitAt v 0 = false)) ∧
    (∃ m : Master, ∃ v : Word, ∃ s : State, s.stor.cmds = [] ∧ s.power.restartAt ≠ some s.now ∧ s.Open m pGLOBAL ∧ wfld v 16 16 = 0x5CA7 ∧ bitAt v 0 = true ∧ s.pfwBusy = true) ∧
    (∃ m : Master, ∃ v : Word, ∃ s : State, s.stor.cmds = [] ∧ s.power.restartAt ≠ some s.now ∧ s.Open m pGLOBAL ∧ wfld v 16 16 = 0x5CA7 ∧ bitAt v 0 = true ∧ s.pfwBusy = false) ∧
    (∃ s : State, s.stor.cmds = [] ∧ s.power.restartAt ≠ some s.now ∧ s.power.resetHeld = false ∧ s.power.pwrGood = true ∧ s.pfwBusy = false) ∧
    (∃ s : State, s.stor.cmds = [] ∧ s.power.restartAt ≠ some s.now ∧ s.power.pfwHold = true) ∧
    (∃ s : State, s.stor.cmds = [] ∧ s.power.restartAt ≠ some s.now ∧ s.power.pfwHold = false ∧ s.dep.pfw = true ∧ s.power.pwrGood = true ∧ s.pfwBusy = false) ∧
    (∃ s : State, s.power.mainAt = none) ∧
    (∃ t : Nat, ∃ s : State, s.power.mainAt = some t ∧ s.power.steps = 2 ∧ s.bit pGLOBAL Off.global_START_STAT 5 = false ∧ t + 12500000 ≤ s.now ∧ Nat.land (s.fld pSAFETY Off.safety_SUP_STAT 0 16) 0xFC3 ≠ 0) ∧
    (∃ m : Master, ∃ n : Nat, ∃ v : Word, ∃ s : State, n < 192 ∧ s.Open m (pSWIFT n) ∧ bitAt v 0 = true ∧ s.bit (pSWIFT n) Off.swift_EYE_STAT 0 = true) ∧
    (∃ m : Master, ∃ n : Nat, ∃ v : Word, ∃ s : State, n < 192 ∧ s.Open m (pSWIFT n) ∧ bitAt v 0 = true ∧ s.bit (pSWIFT n) Off.swift_EYE_STAT 0 = false) ∧
    (∃ m : Master, ∃ n : Nat, ∃ v : Word, ∃ s : State, n < 192 ∧ s.Open m (pSWIFT n) ∧ bitAt v 1 = true ∧ s.bit (pSWIFT n) Off.swift_EYE_STAT 0 = true) ∧
    (∃ m : Master, ∃ n : Nat, ∃ v : Word, ∃ s : State, n < 192 ∧ s.Open m (pSWIFT n) ∧ (10 < wfld v 0 4 ∨ 16 < wfld v 8 5)) ∧
    (∃ m : Master, ∃ n : Nat, ∃ v : Word, ∃ s : State, n < 192 ∧ s.Open m (pSWIFT n) ∧ wfld v 0 4 ≤ 10 ∧ wfld v 8 5 ≤ 16 ∧ s.pageIdle (pSWIFT n) = true) ∧
    (∃ n errs : Nat, ∃ s : State, n < 192 ∧ s.alive (pSWIFT n) = true ∧ s.bit (pSWIFT n) Off.swift_EYE_STAT 0 = true ∧ errs < 2 ^ 64 ∧ s.fld (pSWIFT n) Off.swift_LANE_CFG 0 3 ≠ 0) :=
  ⟨⟨begun 0 false false, by decide +kernel⟩,
    ⟨begun 0 false true, by decide +kernel⟩,
    ⟨begun 1 true true, by decide +kernel⟩,
    ⟨begun 1 false true, by decide +kernel⟩,
    ⟨begun 2 false true 0xFFF, by decide +kernel⟩,
    ⟨begun 2 false true, by decide +kernel⟩,
    ⟨{ badSlots := 3 }, begun 3 false true, by decide +kernel⟩,
    ⟨begun 3 false true, by decide +kernel⟩,
    ⟨begun 4 false true, by decide +kernel⟩,
    ⟨begun 5 false true, by decide +kernel⟩,
    ⟨begun 6 false true, by decide +kernel⟩,
    ⟨{ badSlots := 3 }, begun 7 false true, by decide +kernel⟩,
    ⟨begun 7 false true, by decide +kernel⟩,
    ⟨begun 8 false true, by decide +kernel⟩,
    ⟨begun 8 false true, by decide +kernel⟩,
    ⟨begun 8 false false, by decide +kernel⟩,
    ⟨.host, 1, reset false false false, by unfold State.Open; decide +kernel⟩,
    ⟨.host, 0x5CA70001, reset true true false, by unfold State.Open; decide +kernel⟩,
    ⟨.host, 0x5CA70001, reset false false false, by unfold State.Open; decide +kernel⟩,
    ⟨reset false false false, by decide +kernel⟩,
    ⟨reset true false true, by decide +kernel⟩,
    ⟨reset true false false, by decide +kernel⟩,
    ⟨begun 1 false true, by decide +kernel⟩,
    ⟨5, begun 2 false true 0xFFF, by decide +kernel⟩,
    ⟨.host, 191, 3, lane 1 0, by unfold State.Open; decide +kernel⟩,
    ⟨.host, 191, 3, lane 0 0, by unfold State.Open; decide +kernel⟩,
    ⟨.host, 191, 3, lane 1 0, by unfold State.Open; decide +kernel⟩,
    ⟨.host, 191, 0x110B, lane 0 0, by unfold State.Open; decide +kernel⟩,
    ⟨.host, 191, 3, lane 0 0, by unfold State.Open; decide +kernel⟩,
    ⟨191, 0xFFFFFFFFFFFFFFFF, lane 1 1, by decide +kernel⟩⟩

end Pow

namespace Space

def closed : State := S [(pGLOBAL, Off.global_HOST_CFG, 0)] live
def unpowered (p : Nat) : State := live.setReg (pPWR 0) (Off.pwr0_DOM_STAT0 + 4 * (domainOf p / 32)) 0
def unlocked (p : Nat) (u : Option (Master × Nat)) : State := live.modPage p fun r => { r with unlock := u }
def frozen (p : Nat) : State := S [(p, Off.hdr_PG_CTRL, 8)] live
def commit (p : Nat) (sh : Word) (at_ : Nat) : State := (S [(p, Off.hdr_PG_SHADOW, sh)] live).modPage p fun r => { r with commitAt := at_ }
def line (masked claimed : Bool) : State :=
  ((S [(pMAC 3, Off.hdr_PG_INT_STAT, 3), (pMAC 3, Off.hdr_PG_INT_EN, 2), (pGLOBAL, Off.global_MSIXmap + 4 * (pMAC 3 / 2), 0x01050105)] live).onPlat
    fun t => { t with msixEn := true, msix := [(5, { addr := 77, data := 3, masked := masked })], plicClaimed := [(pMAC 3 + 1, claimed)] })
def port (cfg : Word) : State := S [(pMAINT, Off.maint_M_CFG, cfg)] live
theorem any_of {o : Option RegDesc} (h : (o.any fun d => d.rc != 0 && d.rws == 0) = true) : ∃ d, o = some d ∧ d.rc ≠ 0 ∧ d.rws = 0 := by
  cases o with
  | none => cases h
  | some d => exact ⟨d, rfl, by simpa using h⟩
theorem all_of {m : Master} {o : Option (Master × Nat)} (h : (o.all fun x => x.1 != m) = true) : ∀ t, o ≠ some (m, t) := by
  rintro t rfl
  simp at h

/-- States and operands that meet the hypotheses of RegisterSpace, clause by clause. -/
theorem wit_RegisterSpace :
    (∃ p o len : Nat, p < 1024 ∧ o < 4096 ∧ (len ≠ 4 ∨ o % 4 ≠ 0)) ∧
    (∃ m : Master, ∃ p o len : Nat, ∃ s : State, p < 1024 ∧ o < 4096 ∧ len = 4 ∧ o % 4 = 0 ∧ s.hostMayWrite m = false ∧ s.pendingCommit p = false) ∧
    (∃ m : Master, ∃ p o : Nat, ∃ s : State, p < 1024 ∧ o < 4096 ∧ o % 4 = 0 ∧ s.hostMayRead m = false) ∧
    (∃ m : Master, ∃ p o : Nat, ∃ s : State, p < 1024 ∧ o < 4096 ∧ o % 4 = 0 ∧ s.hostMayRead m = true ∧ pageKind p = .none) ∧
    (∃ m : Master, ∃ p o : Nat, ∃ s : State, p < 1024 ∧ o < 4096 ∧ o % 4 = 0 ∧ 0x100 ≤ o ∧ s.hostMayRead m = true ∧ pageKind p ≠ .none ∧ (s.powered p = false ∨ s.fenced p = true)) ∧
    (∃ m : Master, ∃ p o : Nat, ∃ s : State, p < 1024 ∧ o < 4096 ∧ o % 4 = 0 ∧ s.hostMayWrite m = true ∧ pageKind p = .none ∧ s.pendingCommit p = false) ∧
    (∃ m : Master, ∃ p o : Nat, ∃ s : State, s.Shows m p ∧ p < 1024 ∧ o < 4096 ∧ o % 4 = 0 ∧ regDesc p o = none ∧ Map.get (fun _ => none) s.latch (rg p o) = none) ∧
    (∃ m : Master, ∃ p o : Nat, ∃ s : State, p < 1024 ∧ o < 4096 ∧ o % 4 = 0 ∧ regDesc p o = none ∧ s.Open m p ∧ s.pendingCommit p = false) ∧
    (∃ m : Master, ∃ p o : Nat, ∃ s : State, p < 1024 ∧ o < 4096 ∧ o % 4 = 0 ∧ 0x100 ≤ o ∧ s.hostMayWrite m = true ∧ pageKind p ≠ .none ∧ s.powered p = false ∧ s.pendingCommit p = false) ∧
    (∃ m : Master, ∃ p o : Nat, ∃ s : State, s.Shows m p ∧ (∃ d, regDesc p o = some d ∧ d.rc ≠ 0 ∧ d.rws = 0) ∧ p < 1024 ∧ o < 4096 ∧ o % 4 = 0 ∧ s.viewOf p o = none ∧ (∀ e ∈ (s.pageRt p).cmds, e.1 ≠ o) ∧ (pageKind p ≠ .sens ∨ o ≠ Off.sens_I3C_IBI) ∧ latchOffs p o = [] ∧ Map.get (fun _ => none) s.latch (rg p o) = none) ∧
    (∃ m : Master, ∃ p v : Nat, ∃ s : State, s.Open m p ∧ p < 1024 ∧ pageKind p ≠ .ctiWin ∧ s.pendingCommit p = false ∧ (s.pageRt p).hwAt ≠ s.now ∧ v < 2 ^ 32) ∧
    (∃ m : Master, ∃ p v : Nat, ∃ s : State, s.Open m p ∧ p < 1024 ∧ pageKind p ≠ .ctiWin ∧ s.pendingCommit p = false ∧ p = pSAFETY ∧ v < 2 ^ 32) ∧
    (∃ m : Master, ∃ p : Nat, ∃ s : State, (∀ t, (s.pageRt p).unlock ≠ some (m, t)) ∧ s.Open m p ∧ p < 1024 ∧ pageKind p ≠ .ctiWin ∧ s.pendingCommit p = false ∧ p = pSAFETY) ∧
    (∃ m : Master, ∃ p : Nat, ∃ s : State, (∃ t, (s.pageRt p).unlock = some (m, t)) ∧ s.Open m p ∧ p < 1024 ∧ pageKind p ≠ .ctiWin ∧ s.pendingCommit p = false ∧ p = pSAFETY) ∧
    (∃ m : Master, ∃ x : Nat × Nat, ∃ s : State, s.Shows m x.1 ∧ (x ∈ (List.range 272).map (fun e => (pENG e, Off.eng_RETIRED_LO)) ∨ x ∈ (List.range 32).map (fun n => (pTDM n, Off.tdm_FS_TIME_LO)) ∨ x = (pPTP, Off.ptp_PENDING_JUMP_LO) ∨ x = (pDRAMCOM, Off.dramcom_WINDOW_LO)) ∧ Map.get (fun _ => none) s.latch (rg x.1 x.2) = none) ∧
    (∃ m : Master, ∃ n : Nat, ∃ s : State, s.Shows m (pDLK n) ∧ n < 16 ∧ Map.get (fun _ => none) s.latch (rg (pDLK n) Off.dlk_BC_RX1) = none) ∧
    (∃ m : Master, ∃ n : Nat, ∃ s : State, s.Shows m (pSENS (2 * n)) ∧ n < 32 ∧ Map.get (fun _ => none) s.latch (rg (pSENS (2 * n)) Off.sens_I3C_RXDATA) = none) ∧
    (∃ m : Master, ∃ p : Nat, ∃ v : Word, ∃ s : State, s.hostMayWrite m = true ∧ pageKind p ≠ .none ∧ s.powered p = true ∧ (s.pageRt p).busy = false ∧ s.fenced p = false ∧ wfld v 1 3 = 4 ∧ s.bit p Off.hdr_PG_CTRL 3 = false) ∧
    (∃ m : Master, ∃ p : Nat, ∃ v : Word, ∃ s : State, s.hostMayWrite m = true ∧ pageKind p ≠ .none ∧ s.powered p = true ∧ (s.pageRt p).busy = false ∧ s.fenced p = false ∧ wfld v 1 3 = 0 ∧ s.bit p Off.hdr_PG_CTRL 3 = true) ∧
    (∃ m : Master, ∃ p : Nat, ∃ v : Word, ∃ s : State, s.hostMayWrite m = true ∧ pageKind p ≠ .none ∧ s.powered p = true ∧ (s.pageRt p).busy = false ∧ s.fenced p = false ∧ wfld v 1 2 = 0 ∧ pageKind p = .disp ∧ bitAt v 3 = s.bit p Off.hdr_PG_CTRL 3) ∧
    (∃ m : Master, ∃ p : Nat, ∃ v : Word, ∃ s : State, s.hostMayWrite m = true ∧ pageKind p ≠ .none ∧ s.powered p = true ∧ (s.pageRt p).busy = false ∧ s.fenced p = false ∧ wfld v 0 16 = 0x5CA7) ∧
    (∃ m : Master, ∃ p : Nat, ∃ v : Word, ∃ s : State, s.hostMayWrite m = true ∧ pageKind p ≠ .none ∧ s.powered p = true ∧ (s.pageRt p).busy = false ∧ s.fenced p = false ∧ wfld v 0 16 ≠ 0x5CA7) ∧
    (∃ m : Master, ∃ p : Nat, ∃ v : Word, ∃ s : State, s.Open m p ∧ pageKind p ≠ .disp ∧ pageKind p ≠ .eye ∧ pageKind p ≠ .tdm ∧ pageKind p ≠ .dist ∧ s.pendingCommit p = false ∧ bitAt v 9 = false) ∧
    (∃ m : Master, ∃ p : Nat, ∃ s : State, s.Open m p ∧ pageKind p ≠ .disp ∧ pageKind p ≠ .eye ∧ pageKind p ≠ .tdm ∧ pageKind p ≠ .dist ∧ s.pendingCommit p = true ∧ s.fld p Off.hdr_PG_SHADOW 1 3 = 0 ∧ s.now ≤ (s.pageRt p).commitAt) ∧
    (∃ m : Master, ∃ p : Nat, ∃ s : State, s.Open m p ∧ pageKind p ≠ .disp ∧ pageKind p ≠ .eye ∧ pageKind p ≠ .tdm ∧ pageKind p ≠ .dist ∧ s.pendingCommit p = true ∧ s.fld p Off.hdr_PG_SHADOW 1 3 = 0 ∧ (s.pageRt p).commitAt < s.now) ∧
    (∃ m : Master, ∃ p o t : Nat, ∃ s : State, o < 4096 ∧ p < 1024 ∧ (s.pageRt p).unlock = some (m, t) ∧ s.now < t + 250000) ∧
    (∃ m : Master, ∃ p o t : Nat, ∃ s : State, o < 4096 ∧ p < 1024 ∧ (s.pageRt p).unlock = some (m, t) ∧ t + 250000 ≤ s.now) :=
  ⟨⟨pMAC 3, 0xFFC, 2, by decide +kernel⟩,
    ⟨.host, pMAC 3, 0x104, 4, closed, by decide +kernel⟩,
    ⟨.host, pMAC 3, 0x104, closed, by decide +kernel⟩,
    ⟨.host, 0x3FF, 0xFFC, live, by decide +kernel⟩,
    ⟨.host, pDISP 2, 0x104, unpowered (pDISP 2), by decide +kernel⟩,
    ⟨.host, 0x3FF, 0xFFC, live, by decide +kernel⟩,
    ⟨.host, pMAC 3, 0xFFC, live, shows_of (by decide +kernel) rfl, by decide +kernel⟩,
    ⟨.host, pMAC 3, 0xFFC, live, by unfold State.Open; decide +kernel⟩,
    ⟨.host, pDISP 2, 0x104, unpowered (pDISP 2), by decide +kernel⟩,
    ⟨.host, pMAC 3, 0x14C, live, shows_of (by decide +kernel) rfl, any_of (by decide +kernel), by decide +kernel⟩,
    ⟨.host, pSAFETY, 0xFFFFFFFF, live, by unfold State.Open; decide +kernel⟩,
    ⟨.host, pSAFETY, 0xFFFFFFFF, live, by unfold State.Open; decide +kernel⟩,
    ⟨.host, pSAFETY, live, all_of (by decide +kernel), by unfold State.Open; decide +kernel⟩,
    ⟨.host, pSAFETY, unlocked pSAFETY (some (.host, 5)), ⟨5, by decide +kernel⟩, by unfold State.Open; decide +kernel⟩,
    ⟨.host, (pENG 271, Off.eng_RETIRED_LO), live, shows_of (by decide +kernel) rfl, by decide +kernel⟩,
    ⟨.host, 15, live, shows_of (by decide +kernel) rfl, by decide +kernel⟩,
    ⟨.host, 31, live, shows_of (by decide +kernel) rfl, by decide +kernel⟩,
    ⟨.host, pDISP 2, 8, live, by decide +kernel⟩,
    ⟨.host, pMAC 3, 0, frozen (pMAC 3), by decide +kernel⟩,
    ⟨.host, pDISP 2, 0, live, by decide +kernel⟩,
    ⟨.host, pDISP 2, 0x5CA7, live, by decide +kernel⟩,
    ⟨.host, pDISP 2, 8, live, by decide +kernel⟩,
    ⟨.host, pMAC 3, 0, commit (pMAC 3) 0 0, by unfold State.Open; decide +kernel⟩,
    ⟨.host, pMAC 3, commit (pMAC 3) 0x100 1000000000, by unfold State.Open; decide +kernel⟩,
    ⟨.host, pMAC 3, commit (pMAC 3) 0x100 999999999, by unfold State.Open; decide +kernel⟩,
    ⟨.host, 0x3FF, 0xFFC, 999750001, unlocked 0x3FF (some (.host, 999750001)), by decide +kernel⟩,
    ⟨.host, 0x3FF, 0xFFC, 999750000, unlocked 0x3FF (some (.host, 999750000)), by decide +kernel⟩⟩

/-- States and operands that meet the hypotheses of InterruptsAndMaintenance, clause by clause. -/
theorem wit_InterruptsAndMaintenance :
    (∃ h : Nat, h < 8) ∧
    (∃ p vec : Nat, ∃ s : State, p < 1024 ∧ s.intLine p = true ∧ (s.pageRt p).line = false ∧ s.msixOf p = some vec ∧ s.plat.msixEn = true ∧ (Map.get (fun _ => {}) s.plat.msix vec : MsixVec).masked = false) ∧
    (∃ p vec : Nat, ∃ s : State, p < 1024 ∧ s.intLine p = true ∧ (s.pageRt p).line = false ∧ s.msixOf p = some vec ∧ (s.plat.msixEn = false ∨ (Map.get (fun _ => {}) s.plat.msix vec : MsixVec).masked = true)) ∧
    (∃ p : Nat, ∃ s : State, p < 1024 ∧ s.intLine p = true ∧ Map.get (fun _ => false) s.plat.plicClaimed (p + 1) = false) ∧
    (∃ m : Master, ∃ v : Word, ∃ s : State, s.Open m pMAINT ∧ bitAt v 0 = true) ∧
    (∃ m : Master, ∃ v : Word, ∃ s : State, s.Open m pMAINT ∧ bitAt v 0 = false) ∧
    (∃ s : State, s.bit pMAINT Off.maint_M_CFG 0 = false) ∧
    (∃ addr data crc : Nat, ∃ s : State, s.bit pMAINT Off.maint_M_CFG 0 = true ∧ addr < 2 ^ 32 ∧ data < 2 ^ 32 ∧ crc ≠ crc8 (addrBytes addr ++ leBytes 4 data)) ∧
    (∃ addr data crc : Nat, ∃ s : State, s.bit pMAINT Off.maint_M_CFG 0 = true ∧ addr < 2 ^ 32 ∧ data < 2 ^ 32 ∧ crc = crc8 (addrBytes addr ++ leBytes 4 data) ∧ s.bit pMAINT Off.maint_M_CFG 2 = false) ∧
    (∃ addr data crc : Nat, ∃ s : State, s.bit pMAINT Off.maint_M_CFG 0 = true ∧ addr < 2 ^ 32 ∧ data < 2 ^ 32 ∧ crc = crc8 (addrBytes addr ++ leBytes 4 data) ∧ s.bit pMAINT Off.maint_M_CFG 2 = true ∧ addr = 4096 * pSAFETY + Off.safety_CHK_EXPECT ∧ s.pendingCommit pSAFETY = false ∧ s.powered pSAFETY = true ∧ s.fenced pSAFETY = false ∧ (s.pageRt pSAFETY).busy = false) ∧
    (∃ addr data crc o : Nat, ∃ s : State, s.bit pMAINT Off.maint_M_CFG 0 = true ∧ addr < 2 ^ 32 ∧ data < 2 ^ 32 ∧ crc = crc8 (addrBytes addr ++ leBytes 4 data) ∧ s.bit pMAINT Off.maint_M_CFG 2 = true ∧ addr = 2 ^ 30 + 4 * o ∧ o < 0x18000) ∧
    (∃ addr data crc : Nat, ∃ s : State, s.bit pMAINT Off.maint_M_CFG 0 = true ∧ addr < 2 ^ 32 ∧ data < 2 ^ 32 ∧ crc ≠ crc8 (addrBytes addr)) ∧
    (∃ addr data crc : Nat, ∃ s : State, s.Shows .maint pSAFETY ∧ s.bit pMAINT Off.maint_M_CFG 0 = true ∧ addr < 2 ^ 32 ∧ data < 2 ^ 32 ∧ crc = crc8 (addrBytes addr) ∧ addr = 4096 * pSAFETY + Off.safety_CHK_EXPECT ∧ (∀ e ∈ (s.pageRt pSAFETY).cmds, e.1 ≠ Off.safety_CHK_EXPECT) ∧ Map.get (fun _ => none) s.latch (rg pSAFETY Off.safety_CHK_EXPECT) = none) ∧
    (∃ addr data crc : Nat, ∃ s : State, s.bit pMAINT Off.maint_M_CFG 0 = true ∧ addr < 2 ^ 32 ∧ data < 2 ^ 32 ∧ crc = crc8 (addrBytes addr) ∧ addr = 4096 * pMAC 0 + 0x100 ∧ s.bit pMAINT Off.maint_M_CFG 1 = false) ∧
    (∃ addr data crc : Nat, ∃ s : State, s.bit pMAINT Off.maint_M_CFG 0 = true ∧ addr < 2 ^ 32 ∧ data < 2 ^ 32 ∧ crc = crc8 (addrBytes addr) ∧ addr = 4096 * pMAC 0 + 0x100 ∧ s.bit pMAINT Off.maint_M_CFG 1 = true) :=
  ⟨⟨7, by decide +kernel⟩,
    ⟨pMAC 3, 5, line false false, by decide +kernel⟩,
    ⟨pMAC 3, 5, line true false, by decide +kernel⟩,
    ⟨pMAC 3, line false false, by decide +kernel⟩,
    ⟨.host, 1, live, by unfold State.Open; decide +kernel⟩,
    ⟨.host, 0, live, by unfold State.Open; decide +kernel⟩,
    ⟨port 0, by decide +kernel⟩,
    ⟨0xFFFFFFFF, 0xDEADBEEF, 256, port 1, by decide +kernel⟩,
    ⟨0xFFFFFFFF, 0xDEADBEEF, (crc8 (addrBytes 0xFFFFFFFF ++ leBytes 4 0xDEADBEEF)), port 1, by decide +kernel⟩,
    ⟨(4096 * pSAFETY + Off.safety_CHK_EXPECT), 0xDEADBEEF, (crc8 (addrBytes (4096 * pSAFETY + Off.safety_CHK_EXPECT) ++ leBytes 4 0xDEADBEEF)), port 5, by decide +kernel⟩,
    ⟨(2 ^ 30 + 4 * 0x17FFF), 0xDEADBEEF, (crc8 (addrBytes (2 ^ 30 + 4 * 0x17FFF) ++ leBytes 4 0xDEADBEEF)), 0x17FFF, port 5, by decide +kernel⟩,
    ⟨0xFFFFFFFF, 0xDEADBEEF, 256, port 1, by decide +kernel⟩,
    ⟨(4096 * pSAFETY + Off.safety_CHK_EXPECT), 0xDEADBEEF, (crc8 (addrBytes (4096 * pSAFETY + Off.safety_CHK_EXPECT))), port 1, shows_of (by decide +kernel) rfl, by decide +kernel⟩,
    ⟨(4096 * pMAC 0 + 0x100), 0xDEADBEEF, (crc8 (addrBytes (4096 * pMAC 0 + 0x100))), port 1, by decide +kernel⟩,
    ⟨(4096 * pMAC 0 + 0x100), 0xDEADBEEF, (crc8 (addrBytes (4096 * pMAC 0 + 0x100))), port 3, by decide +kernel⟩⟩

end Space

/-- A queue with a command in front, and the empty one, for StepTakesFront. -/
theorem wit_StepTakesFront :
    (∃ c : Instr, ∃ rest : List Instr, ∃ s : State, s.pending = c :: rest) ∧ ∃ s : State, s.pending = [] :=
  ⟨⟨.rcRead .host 0x180 4, [.startUpFull], { live with pending := [.rcRead .host 0x180 4, .startUpFull] }, rfl⟩, live, rfl⟩

/-- Commands of one subsystem, for SubsystemFrames. -/
theorem wit_SubsystemFrames : ∃ c : Instr, wideCommand c = false ∧ codecCommand c = false ∧ tdmCommand c = false :=
  ⟨.loop 5 3, by decide +kernel⟩

/-- A canonical state with memory, registers and a command, and the state after it, for StepKeepsCanonical. -/
theorem wit_StepKeepsCanonical : ∃ s t : State, s.Canonical ∧ s.mem ≠ [] ∧ s.pending ≠ [] ∧ step s = .next t :=
  ⟨{ (live.poke 0x1000012340 [5, 6]) with pending := [.registerWrite .host (4096 * pSAFETY + Off.safety_CHK_EXPECT) 4 7] }, _,
    by unfold State.Canonical; decide +kernel, by decide +kernel, by decide +kernel, rfl⟩

/-- Pages, rulers, heads and domains within the ranges of ResetValues. -/
theorem wit_ResetValues : (∃ p, p < 1024 ∧ pageKind p ≠ .none ∧ pageKind p ≠ .ctiWin) ∧ (∃ d, d < 4) ∧ (∃ n, n < 8) ∧ ∃ d, d < 112 :=
  ⟨⟨pSAFETY, by decide +kernel⟩, ⟨3, by decide⟩, ⟨7, by decide⟩, 111, by decide⟩

/-! ## Ill-formed commands -/

/-- One ill-formed command for each kind of check of `Instr.wf`, just outside its range: refused. -/
theorem test_wf_refuses :
    Instr.wf (.registerWrite (.core 8) 0 4 0) = false ∧ Instr.wf (.registerWrite .host 0 3 0) = false ∧ Instr.wf (.softRst .host 1024 0) = false ∧
      Instr.wf (.eventPortWrite .host 0 8 0) = false ∧ Instr.wf (.regTimeout .host 0 4096 true) = false ∧
      Instr.wf (.dramAccess 1024 0 none .clean false ⟨.load, false, 0⟩) = false ∧ Instr.wf (.refreshWindow 16) = false ∧ Instr.wf (.dramBgSweep 0 4 0 0 0) = false ∧
      Instr.wf (.laneCfgWrite .host 192 0) = false ∧ Instr.wf (.phaseCrossing 4 false 0) = false ∧
      Instr.wf (.csi2Packet 64 0 0 .clean false []) = false ∧ Instr.wf (.csi2Packet 0 32 0 .clean false []) = false ∧
      Instr.wf (.dlkBlockLockAcquired 0 14) = false ∧ Instr.wf (.captureFrameStart 16384 .clean) = false ∧ Instr.wf (.i3cCmd .host 32 0) = false ∧
      Instr.wf (.thrStart .host 272) = false ∧ Instr.wf (.addi 0 4) = false ∧ Instr.wf (.loadCtrlGo .host 34 0) = false ∧
      Instr.wf (.sessLoad .host 0x366) = false ∧ Instr.wf (.gangWrite .host 6 0) = false ∧ Instr.wf (.recoveryResetTimeout 1024) = false ∧
      Instr.wf (.dirtyCleanTimeout 0 0) = false ∧ Instr.wf (.dirtyCleanTimeout 65 0) = false ∧ Instr.wf (.sqTail 256 0) = false ∧
      Instr.wf (.queuePush 0 1048576 [] .clean) = false ∧ Instr.wf (.startUp 9 {}) = false ∧ Instr.wf (.maintWrite 0x100000000 0 0 false) = false := by decide +kernel

/-- Commands at the end of their ranges are well-formed. -/
theorem test_wf_takes :
    Instr.wf (.registerWrite (.core 7) 0 8 0) = true ∧ Instr.wf (.softRst .maint 1023 0) = true ∧ Instr.wf (.addi 271 3) = true ∧
      Instr.wf (.csi2Packet 63 31 0 .clean false []) = true ∧ Instr.wf (.sessLoad .host 0x371) = true ∧ Instr.wf (.dirtyCleanTimeout 64 0) = true ∧
      Instr.wf (.queuePush 0 1048575 [] .clean) = true ∧ Instr.wf (.startUp 8 {}) = true ∧ Instr.wf (.maintRead 0xFFFFFFFF 0 1 false) = true := by decide +kernel

/-! ## Words and values that the spec's worked examples give -/

/-- *A half-pixel interpolation kernel*: words and what they are. -/
theorem test_kernel_words :
    swDecode 0x6007000E = some .loop ∧ swDecode 0xA0420001 = some .vld ∧ swDecode 0x8C611001 = some .vslide ∧
      swDecode 0x88000008 = some .accz ∧ swDecode 0x88011802 = some .vmacsH ∧ swDecode 0x88C0200A = some .accrH ∧
      swDecode 0xA4C50000 = some .vst ∧ swDecode 0x80220016 = some .vmov ∧ swDecode 0x08420040 = some .addi := by decide +kernel

/-- LOOP s7, 14 and VSLIDE.H v3, v1, v2, 1: the fields of the words. -/
theorem test_kernel_fields :
    fA 0x6007000E = 7 ∧ fImm 0x6007000E = 14 ∧ fD 0x8C611001 = 3 ∧ fA 0x8C611001 = 1 ∧ fB 0x8C611001 = 2 ∧ fCode 0x8C611001 = 1 := by
  decide +kernel

/-- ACCR.H v6, acc0, 4: samples 100, 200, 300 and 400 sum to 4000, and (4000 + 8) >> 4 is 250. -/
theorem test_kernel_accr :
    (match exec (.accrH 5 3) (Swarm.at5 0x88C0200A fun x => x.aput 0 [4000]) with
      | .next u => (lanesH ((u.thr 5 3).vget 6)).headD 0
      | _ => 0) = 250 := by decide +kernel

/-- ADDI s2, s2, 64 wraps and goes on to the next word. -/
theorem test_addi :
    (match exec (.addi 5 3) (Swarm.at5 0x08420040 fun x => x.sput 2 0xFFFFFFF0) with
      | .next u => ((u.thr 5 3).sget 2, (u.thr 5 3).pc)
      | _ => (0, 0)) = (0x30, 0x24) := by decide +kernel

/-- *Decoding one address*: local address 0x1234678 is bank 7 and row 332. -/
theorem test_dram_decode : ((State.reset.decodeLocal 0x1234678).bank, (State.reset.decodeLocal 0x1234678).row) = (7, 332) := by decide +kernel

/-- R548: the heartbeat token after 0xACE1 is 0x5670, and the one after it 0xAB38. -/
theorem test_heartbeat_token : hbNext 0xACE1 = 0x5670 ∧ hbNext 0x5670 = 0xAB38 := by decide +kernel

/-- *Reading a fenced pipe over the maintenance port*: the CRC of the address, and of the answer. -/
theorem test_maintenance_crc : crc8 [0x00, 0x03, 0xB2, 0x80] = 0x51 ∧ crc8 [0x00, 0x03, 0xB2, 0x80, 0xBA, 0x01, 0x00, 0x00, 0x00] = 0x92 := by decide +kernel

/-- The same example: the branch page is 1BAH, and its PG_ID reads 00303A01H. -/
theorem test_branch_page_id : pPIPE 3 10 = 0x1BA ∧ pgId 0x1BA = 0x00303A01 := by decide +kernel

/-- R52: a tick of 4 ns adds 4 · 65,536 to TIME, in units of 1/65,536 ns. -/
theorem test_tick : (match exec .timebaseTick live with | .next u => (u.now, u.tb.time) | _ => (0, 0)) = (1000000001, 262144) := by decide +kernel

/-- With nothing waiting the block idles (notes/assumptions/3.md). -/
theorem test_idle_step : step live = .next live := rfl

end Sys2Proof.Tests
end

section
/-!
SUPPORT. The grants of an arbitration point (chapter 01, *Main fabric and quality of service*).
-/

namespace Sys2Proof.Machine

open Sys2Proof

/-! ## An arbitration point, and the order of R26 -/

@[simp] theorem State.arb_modArb (s : State) (n : Nat) (f : ArbPoint → ArbPoint) : (s.modArb n f).arb n = f (s.arb n) :=
  Map.get_put_same ..

/-- A request within its reservation is of class 0 or 1. -/
theorem State.cls_lt_of_resWithin {s : State} {r : FabReq} (h : s.resWithin r = true) : r.cls < 2 := by
  simp only [State.resWithin, Bool.and_eq_true, decide_eq_true_eq] at h
  exact h.1.1

/-- Classes 0 and 1 within their reservations are the first two groups. -/
theorem State.fabGroup_within {s : State} {r : FabReq} {c : Nat} (hc : c < 2) :
    s.fabGroup r = c + 1 ↔ r.cls = c ∧ s.resWithin r = true := by
  unfold State.fabGroup
  by_cases hw : s.resWithin r = true
  · have := State.cls_lt_of_resWithin hw
    rw [if_neg (by omega), if_pos hw]
    simp [hw]
  · by_cases h3 : r.cls = 3 <;> simp [h3, hw] <;> omega

/-- Class 3 is the last group. -/
theorem State.fabGroup_bulk {s : State} {r : FabReq} : s.fabGroup r = 4 ↔ r.cls = 3 := by
  unfold State.fabGroup
  by_cases h3 : r.cls = 3
  · simp [h3]
  · by_cases hw : s.resWithin r = true <;> simp [h3, hw]

theorem State.fabBefore_iff {s : State} {a b : FabReq} :
    s.fabBefore a b = true ↔ s.fabGroup a < s.fabGroup b ∨ s.fabGroup a = s.fabGroup b ∧ a.age < b.age := by
  simp [State.fabBefore]

theorem State.fabBefore_asymm {s : State} {a b : FabReq} (h : s.fabBefore a b = true) : s.fabBefore b a = false := by
  rw [State.fabBefore_iff] at h
  rw [Bool.eq_false_iff, Ne, State.fabBefore_iff]
  omega

theorem State.firstReq_mem {s : State} {l : List FabReq} {r : FabReq} (h : s.firstReq l = some r) : r ∈ l := by
  induction l generalizing r with
  | nil => cases h
  | cons x l ih =>
    unfold State.firstReq at h
    split at h
    · cases h; exact List.mem_cons_self
    · next b e =>
      split at h <;> cases h
      · exact List.mem_cons_of_mem _ (ih e)
      · exact List.mem_cons_self

/-- The request that stands before every other one is the one granted. -/
theorem State.firstReq_eq {s : State} {l : List FabReq} {r : FabReq} (hr : r ∈ l)
    (h : ∀ x ∈ l, x ≠ r → s.fabBefore r x = true) : s.firstReq l = some r := by
  induction l with
  | nil => cases hr
  | cons x l ih =>
    unfold State.firstReq
    by_cases hl : r ∈ l
    · rw [ih hl fun y hy => h y (List.mem_cons_of_mem _ hy)]
      by_cases hx : x = r
      · subst hx; simp
      · simp [h x List.mem_cons_self hx]
    · obtain rfl : r = x := by simpa [hl] using hr
      split
      · rfl
      · next b e =>
        have hb := State.firstReq_mem e
        have hne : b ≠ r := fun hb' => hl (hb' ▸ hb)
        simp [State.fabBefore_asymm (h b (List.mem_cons_of_mem _ hb) hne)]

/-! ## A transaction -/

/-- The requests that compete in a transaction: the waiting and the arriving ones of masters that are not fenced (R46, R49). -/
def State.competing (s : State) (n : Nat) (reqs : List (Traffic × Nat × Nat)) : List FabReq :=
  ((s.arb n).wait ++ s.arrive (s.arb n).arrivals (reqs.filter fun r => !s.fenced (trafficPage r.1))).filter fun r => !s.fenced r.page

/-- With no arrival, and no master fenced, the waiting requests compete. -/
theorem State.competing_nil {s : State} {n : Nat} (h : ∀ x ∈ (s.arb n).wait, s.fenced x.page = false) :
    s.competing n [] = (s.arb n).wait := by
  simpa [State.competing, State.arrive] using h

/-- The only arrival at an empty point competes unless its master is fenced, with the class of what issues it (R24, R46). -/
theorem State.competing_single {s : State} {n : Nat} (h : (s.arb n).wait = []) (x : Traffic) (ctl bytes : Nat) :
    s.competing n [(x, ctl, bytes)] =
      if s.fenced (trafficPage x) = true then [] else [⟨s.trafficClass x, trafficPage x, ctl, bytes, (s.arb n).arrivals⟩] := by
  by_cases hf : s.fenced (trafficPage x) = true <;> simp [State.competing, h, hf, State.arrive]

@[simp] theorem ArbPoint.grant_last (p : ArbPoint) (now : Nat) (r : FabReq) : (p.grant now r).last = p.last := rfl
@[simp] theorem ArbPoint.grant_wait (p : ArbPoint) (now : Nat) (r : FabReq) : (p.grant now r).wait = p.wait := rfl
@[simp] theorem ArbPoint.grant_sinceBulk (p : ArbPoint) (now : Nat) (r : FabReq) : (p.grant now r).sinceBulk = p.sinceBulk := rfl
@[simp] theorem ArbPoint.grant_accepted (p : ArbPoint) (now : Nat) (r : FabReq) : (p.grant now r).accepted = p.accepted ++ [(now, r)] := rfl

/-- The request that a transaction with the competing requests `wait` grants (R26, R27). -/
def State.fabPick (s : State) (n : Nat) (wait : List FabReq) : Option FabReq :=
  let bulk := wait.filter fun r => r.cls = 3
  if n < 16 ∧ 15 ≤ (s.arb n).sinceBulk ∧ bulk ≠ [] then s.firstReq bulk else s.firstReq wait

/-- A transaction that grants `r`: the grant stands, at a controller it is accepted, and the count since class 3 starts anew where
class 3 was granted. -/
theorem fabricTransaction_grants {s : State} {n : Nat} {reqs : List (Traffic × Nat × Nat)} {r : FabReq}
    (hp : s.fabPick n (s.competing n reqs) = some r) :
    s.Answers (.fabricTransaction n reqs) fun u => (u.arb n).last = some r ∧ r ∉ (u.arb n).wait ∧
      (n < 16 → (s.now, r) ∈ (u.arb n).accepted) ∧ (r.cls = 3 → (u.arb n).sinceBulk = 0) := by
  unfold State.fabPick State.competing at hp
  unfold State.Answers exec execFabricTransaction
  dsimp only at hp ⊢
  simp only [hp]
  refine ⟨_, rfl, ?_⟩
  by_cases hn : n < 16 <;> simp +contextual [hn]

/-- A transaction for which nothing competes grants nothing. -/
theorem fabricTransaction_grants_none {s : State} {n : Nat} {reqs : List (Traffic × Nat × Nat)} (hw : s.competing n reqs = []) :
    s.Answers (.fabricTransaction n reqs) fun u => (u.arb n).last = (s.arb n).last ∧ (u.arb n).wait = [] := by
  unfold State.competing at hw
  unfold State.Answers exec execFabricTransaction
  dsimp only
  simp only [hw, List.filter_nil, ne_eq, not_true_eq_false, and_false, if_false, State.firstReq]
  exact ⟨_, rfl, by simp⟩

/-- With nothing to hold back, the first request in the order of R26 is picked. -/
theorem State.fabPick_first {s : State} {n : Nat} {l : List FabReq} {r : FabReq} (hr : r ∈ l)
    (hb : 16 ≤ n ∨ (s.arb n).sinceBulk < 15 ∨ ∀ x ∈ l, x.cls ≠ 3) (h : ∀ x ∈ l, x ≠ r → s.fabBefore r x = true) :
    s.fabPick n l = some r := by
  have hno : ¬ (n < 16 ∧ 15 ≤ (s.arb n).sinceBulk ∧ l.filter (fun r => decide (r.cls = 3)) ≠ []) := by
    rintro ⟨h1, h2, h3⟩
    obtain h | h | h := hb
    · omega
    · omega
    · exact h3 (List.filter_eq_nil_iff.2 fun x hx => by simp [h x hx])
  unfold State.fabPick
  rw [if_neg hno]
  exact State.firstReq_eq hr h

/-- After fifteen grants that passed class 3 over, the oldest class 3 request is picked (R27). -/
theorem State.fabPick_bulk {s : State} {n : Nat} {l : List FabReq} {r : FabReq} (hn : n < 16) (hs : 15 ≤ (s.arb n).sinceBulk)
    (hr : r ∈ l) (hc : r.cls = 3) (h : ∀ x ∈ l, x.cls = 3 → x ≠ r → r.age < x.age) : s.fabPick n l = some r := by
  have hm : r ∈ l.filter fun r => decide (r.cls = 3) := List.mem_filter.2 ⟨hr, by simp [hc]⟩
  unfold State.fabPick
  rw [if_pos ⟨hn, hs, List.ne_nil_of_mem hm⟩]
  refine State.firstReq_eq hm fun x hx hne => ?_
  obtain ⟨hxl, hx3⟩ := List.mem_filter.1 hx
  have hx3 : x.cls = 3 := by simpa using hx3
  rw [State.fabBefore_iff, State.fabGroup_bulk.2 hc, State.fabGroup_bulk.2 hx3]
  exact .inr ⟨rfl, h x hxl hx3 hne⟩

/-- The only request there is is picked. -/
theorem State.fabPick_single (s : State) (n : Nat) (r : FabReq) : s.fabPick n [r] = some r := by
  unfold State.fabPick
  by_cases hc : r.cls = 3 <;> simp [hc, State.firstReq]

/-- Settles O18: the order is R26's, so the request that stands first is what `firstReq` finds, and the sixteenth grant looks among
class 3 only. -/
theorem fabricGrantOrder : Obligations.FabricGrantOrder := by
  unfold Obligations.FabricGrantOrder
  refine ⟨?first, ?groups, ?bulk, ?arrives, ?engine, ?branch⟩
  case first =>
    intro n s r hr hf hb hmin
    have hp : s.fabPick n (s.arb n).wait = some r :=
      State.fabPick_first hr hb fun x hx hne => State.fabBefore_iff.2 (hmin x hx hne)
    rw [← State.competing_nil hf] at hp
    obtain ⟨u, hu, hl, hw, ha, -⟩ := fabricTransaction_grants hp
    exact ⟨u, hu, hl, hw, ha⟩
  case groups =>
    exact fun s r => ⟨State.fabGroup_within (c := 0) (by decide), State.fabGroup_within (c := 1) (by decide), State.fabGroup_bulk⟩
  case bulk =>
    intro n s r hn hr hc hf hs hold
    have hp : s.fabPick n (s.arb n).wait = some r := State.fabPick_bulk hn hs hr hc hold
    rw [← State.competing_nil hf] at hp
    obtain ⟨u, hu, hl, -, -, hz⟩ := fabricTransaction_grants hp
    exact ⟨u, hu, hl, hz hc⟩
  case arrives =>
    intro n ctl bytes x s hw
    constructor
    · intro hf
      have hp := State.fabPick_single s n ⟨s.trafficClass x, trafficPage x, ctl, bytes, (s.arb n).arrivals⟩
      rw [show [_] = s.competing n [(x, ctl, bytes)] by simp [State.competing_single hw, hf]] at hp
      obtain ⟨u, hu, hl, -⟩ := fabricTransaction_grants hp
      exact ⟨u, hu, _, hl⟩
    · intro hf
      exact fabricTransaction_grants_none (by simp [State.competing_single hw, hf])
  case engine =>
    exact fun s p t => ⟨fun i hi => by simp [State.trafficClass, hi], fun hi => by simp [State.trafficClass, hi], rfl, rfl⟩
  case branch =>
    exact fun s n c h => by simp [State.trafficClass, h]

end Sys2Proof.Machine
end

section
/-!
SUPPORT. Two shared register operations: a fault, which sets its own PG_FAULT bit and clears none, and the plain write of a
register's fields by their access codes.
-/

namespace Sys2Proof.Machine

open Sys2Proof

theorem quietOff_lt {o : Nat} (h : quietOff o = true) : o < 4096 := by
  simp only [quietOff, Bool.and_eq_true, decide_eq_true_eq] at h; exact h.1

/-! ## PG_FAULT -/

theorem rg_ne_of_off {p q o k : Nat} (ho : o < 4096) (hk : k < 4096) (h : o ≠ k) : rg p o ≠ rg q k := by
  rw [Ne, rg_inj ho hk]; exact fun e => h e.2

theorem State.reg_markFenced_fault (s : State) (l : List Nat) (p : Nat) :
    (s.markFenced l).reg p Off.hdr_PG_FAULT = s.reg p Off.hdr_PG_FAULT := by
  induction l generalizing s with
  | nil => rfl
  | cons q qs ih =>
    unfold State.markFenced
    rw [ih, State.reg_modPage, State.reg_setFld_ne (rg_ne_of_off (by decide) (by decide) (by decide)),
      State.reg_putBit_ne (rg_ne_of_off (by decide) (by decide) (by decide))]

theorem State.reg_fenceAll_fault (s : State) (c b : Nat) (l : List (List Nat)) (p : Nat) :
    (s.fenceAll c b l).reg p Off.hdr_PG_FAULT = s.reg p Off.hdr_PG_FAULT := by
  induction l generalizing s c with
  | nil => rfl
  | cons q qs ih =>
    unfold State.fenceAll
    dsimp only
    rw [ih]
    split
    · rfl
    · rw [State.reg_onDep, State.reg_markFenced_fault]

theorem State.reg_fence_fault (s : State) (q c b p : Nat) : (s.fence q c b).reg p Off.hdr_PG_FAULT = s.reg p Off.hdr_PG_FAULT := by
  unfold State.fence
  split
  · exact State.reg_fenceAll_fault ..
  · rfl

/-- What a fault leaves in PG_FAULT of each page: its own bit set on the page that reports it. -/
theorem State.reg_raise_fault (s : State) (q c p : Nat) :
    (s.raise q c).reg p Off.hdr_PG_FAULT =
      if p = faultPage q ∧ s.bit (faultPage q) Off.hdr_PG_FAULT c = false then setBit (s.reg p Off.hdr_PG_FAULT) c true
      else s.reg p Off.hdr_PG_FAULT := by
  unfold State.raise
  extract_lets a rep s1 s2
  have h1 : s1.reg p Off.hdr_PG_FAULT = if p = a then setBit (s.reg p Off.hdr_PG_FAULT) c true else s.reg p Off.hdr_PG_FAULT := by
    unfold s1 State.putBit
    rw [State.reg_noteHw, State.reg_setReg]
    by_cases hp : p = a
    · subst hp; simp
    · rw [if_neg hp, if_neg (by rw [rg_inj (by decide) (by decide)]; tauto)]
  have h2 : s2.reg p Off.hdr_PG_FAULT = s1.reg p Off.hdr_PG_FAULT := by
    unfold s2
    split
    · rw [State.reg_onDep, State.reg_putBit_ne (rg_ne_of_off (by decide) (by decide) (by decide))]
    · rfl
  have h3 : (if s2.bit a Off.hdr_PG_FAULT_FENCE c = true then s2.fence a 1 c else s2).reg p Off.hdr_PG_FAULT =
      s1.reg p Off.hdr_PG_FAULT := by
    split
    · rw [State.reg_fence_fault, h2]
    · exact h2
  split
  · next hb => rw [State.reg_noteHw, if_neg fun e => by rw [hb] at e; exact absurd e.2 (by decide)]
  · next hb => rw [h3, h1]; simp only [Bool.eq_false_iff.2 hb, and_true, a]

/-- A fault sets its own bit and leaves every other bit of every page. -/
theorem State.faulted_raise_iff {s : State} {q c : Nat} (hc : c < 32) (p b : Nat) :
    (s.raise q c).Faulted p b ↔ s.Faulted p b ∨ p = faultPage q ∧ b = c := by
  unfold State.Faulted State.bit
  rw [State.reg_raise_fault]
  by_cases hp : p = faultPage q
  · subst hp
    by_cases hs : s.bit (faultPage q) Off.hdr_PG_FAULT c = true
    · rw [if_neg (by simp [hs])]
      refine ⟨.inl, ?_⟩
      rintro (h | ⟨-, rfl⟩)
      · exact h
      · exact hs
    · rw [if_pos ⟨rfl, by simpa using hs⟩]
      by_cases hbc : b = c
      · subst hbc; simp [bitAt_setBit _ _ _ hc]
      · simp [bitAt_setBit_other _ _ _ _ hc hbc, hbc]
  · simp [hp]

theorem State.Faulted.raise {s : State} {p b : Nat} (h : s.Faulted p b) (q : Nat) {c : Nat} (hc : c < 32) : (s.raise q c).Faulted p b :=
  (State.faulted_raise_iff hc p b).2 (.inl h)

/-- A page that is not one of the queue manager's further pages reports its own faults. -/
theorem State.raise_faulted (s : State) {p b : Nat} (hp : faultPage p = p) (hb : b < 32) : (s.raise p b).Faulted p b :=
  (State.faulted_raise_iff hb p b).2 (.inr ⟨hp.symm, rfl⟩)

/-- PG_FAULT as it is read after a change of other registers. -/
theorem State.Faulted.congr {s t : State} {p b : Nat} (h : s.Faulted p b) (e : t.reg p Off.hdr_PG_FAULT = s.reg p Off.hdr_PG_FAULT) :
    t.Faulted p b := by
  unfold State.Faulted State.bit at h ⊢
  rw [e]; exact h

/-! ## The registers that stay -/

theorem State.KeepsRegs.of_raise (s : State) (q b p : Nat) (os : List Nat) : s.KeepsRegs (s.raise q b) p os :=
  fun a o ho _ => State.reg_raise s q b a o ho

theorem State.KeepsRegs.of_setReg (s : State) {p o : Nat} (ho : o < 4096) (v : Word) : s.KeepsRegs (s.setReg p o v) p [o] := by
  intro a k hk hne
  exact State.reg_setReg_ne (by rw [Ne, rg_inj (quietOff_lt hk) ho]; simpa using hne)

/-- What a write through the gate of an open page keeps is what its effect keeps. -/
theorem State.KeepsRegs.of_passed {s u : State} {m : Master} {q p : Nat} {os : List Nat} (h : (s.passed m q).KeepsRegs u p os) :
    s.KeepsRegs u p os :=
  fun a o ho hn => (h a o ho hn).trans (State.passed_reg ..)

/-! ## Fields of a word -/

/-- Words that agree on a field's bits agree on the field. -/
theorem wfld_eq_of_bits {a b : Word} {lo n : Nat} (h : ∀ i, lo ≤ i → i < lo + n → bitAt a i = bitAt b i) : wfld a lo n = wfld b lo n := by
  apply Nat.eq_of_testBit_eq
  intro i
  rw [wfld_testBit, wfld_testBit]
  by_cases hi : i < n
  · rw [← bitAt_eq, ← bitAt_eq, h (lo + i) (by omega) (by omega)]
  · simp [hi]

theorem bitAt_eq_getLsbD (w : Word) (i : Nat) : bitAt w i = w.getLsbD i := by rw [bitAt_eq]; rfl

theorem bitAt_mergeMask (mask : Nat) (w v : Word) (i : Nat) :
    bitAt (mergeMask mask w v) i = if bitAt (wd mask) i = true then bitAt v i else bitAt w i := by
  simp only [bitAt_eq_getLsbD, mergeMask, BitVec.getLsbD_or, BitVec.getLsbD_and, BitVec.getLsbD_not]
  by_cases hi : i < 32
  · cases (wd mask).getLsbD i <;> simp [hi]
  · simp [BitVec.getLsbD_of_ge _ _ (Nat.le_of_not_lt hi)]

/-! ## Plain writes -/

/-- A register whose fields are plain or idle-only: a write never clears or sets a bit by writing 1, and nothing waits in a shadow. -/
def RegDesc.plain (d : RegDesc) : Prop := d.rws = 0 ∧ d.w1c = 0 ∧ d.w1s = 0

/-- A bit that the write may change takes the written value: a plain one, or an idle-only one while the page is idle (R612). -/
theorem State.bit_storeFields {s : State} {p o : Nat} {d : RegDesc} (hd : regDesc p o = some d) (hp : d.plain) (ho : quietOff o = true)
    (idle : Bool) (v : Word) {i : Nat} (hi : bitAt (wd d.rw) i = true ∨ idle = true ∧ bitAt (wd d.rwi) i = true) :
    (s.storeFields p o idle v).bit p o i = bitAt v i := by
  obtain ⟨h1, h2, h3⟩ := hp
  unfold State.storeFields
  split
  · next e => rw [hd] at e; cases e
  next d' e =>
  obtain rfl : d = d' := Option.some.inj (hd.symm.trans e)
  extract_lets old change w1 w2 w3 s1 s2
  have hr : s2.reg p o = w2 := by
    unfold s2 s1 w3
    rw [if_pos h1, State.reg_setReg_same, h2, h3]
    show w2 &&& ~~~(v &&& 0#32) ||| v &&& 0#32 = w2
    rw [BitVec.and_zero, BitVec.or_zero, BitVec.not_zero, BitVec.and_allOnes]
  have hw : bitAt w2 i = bitAt v i := by
    unfold w2 w1
    cases idle with
    | true =>
      rw [if_pos rfl, bitAt_mergeMask, bitAt_mergeMask]
      obtain hi | ⟨-, hi⟩ := hi <;> simp [hi]
    | false =>
      rw [if_neg (by decide), bitAt_mergeMask, if_pos (by simpa using hi)]
  unfold State.bit
  split
  · rw [State.reg_stateWrite _ _ _ _ ho, hr, hw]
  · rw [hr, hw]

theorem State.fld_storeFields {s : State} {p o : Nat} {d : RegDesc} (hd : regDesc p o = some d) (hp : d.plain) (ho : quietOff o = true)
    (idle : Bool) (v : Word) {lo n : Nat}
    (h : ∀ i, lo ≤ i → i < lo + n → bitAt (wd d.rw) i = true ∨ idle = true ∧ bitAt (wd d.rwi) i = true) :
    (s.storeFields p o idle v).fld p o lo n = wfld v lo n :=
  wfld_eq_of_bits fun i h1 h2 => State.bit_storeFields hd hp ho idle v (h i h1 h2)

/-- A plain write changes no other register, but for those that STATE_WRITE changes. -/
theorem State.keepsRegs_storeFields (s : State) (p : Nat) {o : Nat} (ho : o < 4096) (idle : Bool) (v : Word) :
    s.KeepsRegs (s.storeFields p o idle v) p [o] := by
  intro a k hk hne
  unfold State.storeFields
  split
  · rfl
  · extract_lets old change w1 w2 w3 s1 s2
    have e : s2.reg a k = s.reg a k := by
      have h1 : s1.reg a k = s.reg a k := State.KeepsRegs.of_setReg s ho w3 a k hk hne
      unfold s2
      split
      · exact h1
      · exact h1
    split
    · rw [State.reg_stateWrite _ _ _ _ hk, e]
    · exact e

end Sys2Proof.Machine
end

section
/-!
SUPPORT. Reservation writes and the assignment of Swift lanes (R28, R40 to R44).
-/

namespace Sys2Proof.Machine

open Sys2Proof

/-! ## Reservations -/

/-- A reservation write on the open page (R28). -/
theorem resWrite_open {s : State} {m : Master} (h : s.Open m pDRAMCOM) (n : Nat) (v : Word) :
    exec (.resWrite m n v) s = .next (if 154 < wfld v 0 8 + wfld v 8 8 then (s.passed m pDRAMCOM).raise pDRAMCOM 8
      else (s.passed m pDRAMCOM).setReg pDRAMCOM (Off.dramcom_RES_n + 4 * n) (wd (wfld v 0 16))) := by
  show execResWrite m n v s = _
  rw [execResWrite, State.regWrite_open h]

/-! ## Lanes -/

theorem pageKind_swift {n : Nat} (h : n < 192) : pageKind (pSWIFT n) = .swift := by
  unfold pageKind pSWIFT
  rw [if_neg (by omega), if_neg (by omega), if_pos (by omega)]

theorem faultPage_swift {n : Nat} (h : n < 192) : faultPage (pSWIFT n) = pSWIFT n := by
  unfold faultPage; rw [pageKind_swift h]

/-- The row of LANE_CFG: every field idle-only (*SWIFTn.LANE_CFG*). -/
def laneCfgRow : RegDesc := ⟨0x100, 1, 0, 1, 0, 0, 0, 0, 0x1fff07, 0, 0, 0⟩

theorem regDesc_laneCfg {n : Nat} (h : n < 192) : regDesc (pSWIFT n) Off.swift_LANE_CFG = some laneCfgRow := by
  unfold regDesc regTable
  rw [pageKind_swift h]
  rfl

@[simp] theorem State.passed_laneRunning (s : State) (m : Master) (p n : Nat) : (s.passed m p).laneRunning n = s.laneRunning n := by
  simp [State.laneRunning, State.dlkState]

@[simp] theorem State.passed_laneCfgOk (s : State) (m : Master) (p n : Nat) (v : Word) :
    (s.passed m p).laneCfgOk n v = s.laneCfgOk n v := by
  simp [State.laneCfgOk]

/-- A write of LANE_CFG on the open page of an idle lane (R44). -/
theorem laneCfgWrite_idle {s : State} {m : Master} {n : Nat} (h : s.Open m (pSWIFT n)) (hr : s.laneRunning n = false) (v : Word) :
    exec (.laneCfgWrite m n v) s = .next (if s.laneCfgOk n v = true
      then (s.passed m (pSWIFT n)).storeFields (pSWIFT n) Off.swift_LANE_CFG true v else (s.passed m (pSWIFT n)).raise (pSWIFT n) 8) := by
  show execLaneCfgWrite m n v s = _
  rw [execLaneCfgWrite, State.regWrite_open h]
  cases hk : s.laneCfgOk n v <;> simp [hr, hk]

/-- A lane without a link, or the only lane of an Ethernet link, is an assignment that every position allows. -/
theorem State.laneCfgOk_of_alone {s : State} {n : Nat} {v : Word} (hpos : wfld v 16 4 ≤ 13) (hsp : bitAt v 20 = false)
    (h : wfld v 0 3 = 0 ∨ wfld v 0 3 = 1 ∧ wfld v 8 8 < 16 ∧ ∀ l < 192, l ≠ n →
      ¬ (s.fld (pSWIFT l) Off.swift_LANE_CFG 0 3 = 1 ∧ s.fld (pSWIFT l) Off.swift_LANE_CFG 8 8 = wfld v 8 8)) :
    s.laneCfgOk n v = true := by
  unfold State.laneCfgOk
  obtain h0 | ⟨h1, ho, hmates⟩ := h
  · simp [h0, hsp, hpos]
  · have hnone : ((List.range 192).filter fun l => l != n && s.fld (pSWIFT l) Off.swift_LANE_CFG 0 3 == 1 &&
        s.fld (pSWIFT l) Off.swift_LANE_CFG 8 8 == wfld v 8 8) = [] := by
      refine List.filter_eq_nil_iff.2 fun l hl => ?_
      simp only [Bool.and_eq_true, bne_iff_ne, beq_iff_eq, not_and]
      exact fun ⟨hne, ha⟩ hb => hmates l (List.mem_range.1 hl) hne ⟨ha, hb⟩
    simp [h1, hsp, hpos, ho, hnone]

/-- What R44 names breaks the placement: a reserved PROTO, SPARE on a lane that is not Dralek's, PCIe where no PCIe lane is. -/
theorem State.laneCfgOk_eq_false {s : State} {n : Nat} {v : Word}
    (h : 4 ≤ wfld v 0 3 ∨ (bitAt v 20 = true ∧ wfld v 0 3 ≠ 3) ∨ (wfld v 0 3 = 2 ∧ 66 ≤ n) ∨ (wfld v 0 3 = 2 ∧ 16 ≤ n ∧ 4 ≤ n % 6)) :
    s.laneCfgOk n v = false := by
  have hpcie : 66 ≤ n ∨ 16 ≤ n ∧ 4 ≤ n % 6 → pcieOwner n = none := by
    intro hn
    unfold pcieOwner
    rw [if_neg (by omega), if_neg (by omega)]
  unfold State.laneCfgOk
  obtain h | ⟨h1, h2⟩ | ⟨h1, h2⟩ | ⟨h1, h2⟩ := h
  · simp [Nat.not_lt.2 h]
  · simp [h1, h2]
  · simp [h1, hpcie (.inl h2)]
  · simp [h1, hpcie (.inr h2)]

/-- Settles O19: the gate of an open page hands a reservation or a lane assignment on, which is stored when it is allowed and raises
fault bit 8, and nothing else, when it is not. -/
theorem reservationsAndLanes : Obligations.ReservationsAndLanes := by
  unfold Obligations.ReservationsAndLanes
  constructor
  · intro m n v s ho hn
    refine ⟨fun hv => ⟨_, resWrite_open ho n v, ?_⟩, fun hv => ⟨_, resWrite_open ho n v, ?_⟩⟩
    · rw [if_neg (by omega)]
      exact ⟨State.reg_setReg_same .., (State.KeepsRegs.of_setReg _ (by show 0x120 + 4 * n < 4096; omega) _).of_passed⟩
    · rw [if_pos hv]
      exact ⟨State.raise_faulted _ rfl (by decide), State.KeepsRegs.of_passed (State.KeepsRegs.of_raise _ _ _ _ _)⟩
  · intro m n v s ho hn hr
    refine ⟨fun _ hpos hsp hok => ⟨_, laneCfgWrite_idle ho hr v, ?_⟩, fun hbad => ⟨_, laneCfgWrite_idle ho hr v, ?_⟩⟩
    · rw [if_pos (State.laneCfgOk_of_alone hpos hsp hok)]
      have hf : ∀ lo n', (∀ i, lo ≤ i → i < lo + n' → bitAt (wd laneCfgRow.rwi) i = true) →
          ((s.passed m (pSWIFT n)).storeFields (pSWIFT n) Off.swift_LANE_CFG true v).fld (pSWIFT n) Off.swift_LANE_CFG lo n' = wfld v lo n' :=
        fun lo n' hb => State.fld_storeFields (regDesc_laneCfg hn) ⟨rfl, rfl, rfl⟩ rfl true v fun i h1 h2 => .inr ⟨rfl, hb i h1 h2⟩
      exact ⟨hf 0 3 (by decide), hf 8 8 (by decide), hf 16 4 (by decide), (State.keepsRegs_storeFields _ _ (by decide) _ _).of_passed⟩
    · rw [if_neg (by simp [State.laneCfgOk_eq_false hbad])]
      exact ⟨State.raise_faulted _ (faultPage_swift hn) (by decide), State.KeepsRegs.of_passed (State.KeepsRegs.of_raise _ _ _ _ _)⟩

end Sys2Proof.Machine
end

section
/-!
SUPPORT. Against the frames of the subsystems: the oscillator reading of R466 keeps the tick of its last turn in the memory
controllers' state and is not among their commands.
-/

namespace Sys2Proof.Machine

open Sys2Proof

/-- A block whose DRAM controller 0 has its domain on, is in RUN, and has not read its oscillators yet. -/
def controllerRunning : State :=
  (State.reset.setReg (pPWR 0) (Off.pwr0_DOM_STAT0 + 12) 4).setReg (pDRAM 0) Off.dram_STATE 2

/-- The reading is due, and leaves the tick of its turn behind. -/
theorem wckOscRead_osc : ∃ u, exec (.wckOscRead 0 []) controllerRunning = .next u ∧
    (u.dctl 0).osc = some 0 ∧ (controllerRunning.dctl 0).osc = none := by
  refine ⟨_, rfl, ?_⟩
  decide +kernel

/-- Refutes O57: on a running controller WCK_OSC_READ (R466) notes its tick in the controllers' state, though `dramCommand` does
not list it and `wideCommand` neither. -/
theorem not_subsystemFrames : ¬ Obligations.SubsystemFrames := by
  unfold Obligations.SubsystemFrames
  intro h
  obtain ⟨u, hu, -, -, hdram, -⟩ := h (.wckOscRead 0 []) controllerRunning rfl
  obtain ⟨u', hu', hosc, hnone⟩ := wckOscRead_osc
  obtain rfl : u = u' := Host.Outcome.next.inj (hu.symm.trans hu')
  unfold State.dctl at hosc hnone
  rw [hdram rfl, hnone] at hosc
  cases hosc

end Sys2Proof.Machine
end

section
/-!
SUPPORT. The upkeep of the storage complex (`State.storAfter` and what it calls): it leaves the registers of every page but the CTI's
and Silk's, clears no fault, and leaves the SSDs' own state and the media as they are.
-/

namespace Sys2Proof.Machine

open Sys2Proof

/-- What the upkeep of the storage complex leaves of `s` in `t`. -/
structure PortsKept (s t : State) : Prop where
  reg : ∀ q o, quietOff o = true → q ≠ pCTI → q ≠ pSILK → t.reg q o = s.reg q o
  faulted : ∀ q b, s.Faulted q b → t.Faulted q b
  ssd : t.stor.ssd = s.stor.ssd
  media : t.stor.media = s.stor.media

namespace PortsKept

variable {s t u : State}

theorem refl (s : State) : PortsKept s s := ⟨fun _ _ _ _ _ => rfl, fun _ _ h => h, rfl, rfl⟩

theorem trans (h : PortsKept s t) (g : PortsKept t u) : PortsKept s u where
  reg := fun q o ho h1 h2 => (g.reg q o ho h1 h2).trans (h.reg q o ho h1 h2)
  faulted := fun q b hb => g.faulted q b (h.faulted q b hb)
  ssd := g.ssd.trans h.ssd
  media := g.media.trans h.media

theorem ite {c : Prop} [Decidable c] (h : c → PortsKept s t) (g : ¬c → PortsKept s u) : PortsKept s (if c then t else u) := by
  split
  · next hc => exact h hc
  · next hc => exact g hc

theorem foldl {β : Type} {f : State → β → State} {l : List β} (h : PortsKept s t)
    (hf : ∀ v x, PortsKept v (f v x)) : PortsKept s (l.foldl f t) := by
  induction l generalizing t with
  | nil => exact h
  | cons x l ih => exact ih (h.trans (hf t x))

/-- A change of neither registers nor SSDs nor media. -/
theorem of_eq (hr : t.regs = s.regs) (hs : t.stor.ssd = s.stor.ssd) (hm : t.stor.media = s.stor.media) : PortsKept s t :=
  ⟨fun q o _ _ _ => State.reg_congr hr q o, fun q _ h => h.congr (State.reg_congr hr q _), hs, hm⟩

theorem of_touches {K : Nat} (h : Touches K s t) (hr : K.testBit 2 = false) (hs : K.testBit 22 = false) : PortsKept s t :=
  of_eq (h.regs hr) (by rw [h.stor hs]) (by rw [h.stor hs])

theorem onStor (s : State) {f : Storage → Storage} (hs : (f s.stor).ssd = s.stor.ssd) (hm : (f s.stor).media = s.stor.media) :
    PortsKept s (s.onStor f) := of_eq rfl hs hm

theorem produce (s : State) (p k : Nat) : PortsKept s (s.produce p k) := of_touches (State.produce_touches s p k) rfl rfl

theorem cocoonPut (s : State) (r : CocoonReq) : PortsKept s (s.cocoonPut r) := of_touches (State.cocoonPut_touches s r) rfl rfl

/-- A write of a block register of the CTI or of Silk. -/
theorem setReg (s : State) {p o : Nat} (hp : p = pCTI ∨ p = pSILK) (ho : o < 4096) (hf : Off.hdr_PG_FAULT ≠ o) (v : Word) :
    PortsKept s (s.setReg p o v) where
  reg := fun q k hk h1 h2 => State.reg_setReg_ne fun e => by
    have := ((rg_inj (quietOff_lt hk) ho).1 e).1
    obtain rfl | rfl := hp
    · exact h1 this
    · exact h2 this
  faulted := fun _ _ h => h.congr (State.reg_setReg_ne (rg_ne_of_off (by decide) ho hf))
  ssd := rfl
  media := rfl

theorem raise (s : State) (p : Nat) {b : Nat} (hb : b < 32) : PortsKept s (s.raise p b) where
  reg := fun q o ho _ _ => State.reg_raise s p b q o ho
  faulted := fun _ _ h => h.raise p hb
  ssd := by rw [(State.raise_touches s p b).stor rfl]
  media := by rw [(State.raise_touches s p b).stor rfl]

theorem silk (s : State) (c p d0 d1 d2 : Nat) : PortsKept s (s.silk c p d0 d1 d2) := by
  unfold State.silk
  refine ite (fun _ => of_eq rfl rfl rfl) (fun _ => ?_)
  exact (setReg s (.inr rfl) (by decide) (by decide) _).trans (raise _ _ (by decide))

/-- A count in a register of the CTI. -/
theorem countCti (s : State) {o : Nat} (ho : o < 4096) (hf : Off.hdr_PG_FAULT ≠ o) (lo n k : Nat) :
    PortsKept s (s.count pCTI o lo n k) := setReg s (.inl rfl) ho hf _

/-! ## Namespaces, operations and NVMe commands -/

theorem modNs (s : State) (k : Nat) (f : Namespace → Namespace) : PortsKept s (s.modNs k f) := onStor s rfl rfl
theorem setProg (s : State) (k : Nat) (p : Option Progress) : PortsKept s (s.setProg k p) := onStor s rfl rfl
theorem modOp (s : State) (id : Nat) (f : StorOp → StorOp) : PortsKept s (s.modOp id f) := onStor s rfl rfl
theorem modSess (s : State) (c : Nat) (f : RecSess → RecSess) : PortsKept s (s.modSess c f) := onStor s rfl rfl
theorem nvmeIssue (s : State) : PortsKept s s.nvmeIssue := onStor s rfl rfl

theorem opCmds (s : State) (o : StorOp) (c : Nat) (pick : Nat → Bool) : PortsKept s (s.opCmds o c pick) :=
  foldl (refl s) fun v _ => ite (fun _ => refl v) (fun _ => onStor v rfl rfl)

theorem opIssue (s : State) (o : StorOp) : PortsKept s (s.opIssue o) := foldl (refl s) fun v c => opCmds v o c _

/-! ## Dirty regions, deferred errors and the write buffer -/

theorem modDirty (s : State) (b : Nat) (f : DirtyRegion → DirtyRegion) : PortsKept s (s.modDirty b f) := by
  unfold State.modDirty
  extract_lets s1
  have h1 : PortsKept s s1 := onStor s rfl rfl
  exact ite (fun _ => h1) (fun _ => h1.trans (cocoonPut ..))

theorem logMerge (s : State) (e : DeferEntry) : PortsKept s (s.logMerge e) :=
  (onStor s rfl rfl).trans (raise _ _ (by decide))

theorem deferError (s : State) (k cause first count : Nat) : PortsKept s (s.deferError k cause first count) := by
  unfold State.deferError
  extract_lets seq s1 e s2 s3 s4
  have h1 : PortsKept s s1 := by
    unfold s1
    split
    · exact ite (fun _ => refl s) (fun _ => (ite (fun _ => refl s) (fun _ => logMerge s _)).trans (onStor _ rfl rfl))
    · exact refl s
  have h2 : PortsKept s s2 := ((h1.trans (onStor s1 rfl rfl)).trans (modNs ..)).trans (cocoonPut ..)
  have h3 : PortsKept s s3 := ((h2.trans (silk ..)).trans (raise _ _ (by decide))).trans (produce ..)
  have h4 : PortsKept s s4 := h3.trans (countCti _ (by decide) (by decide) ..)
  exact ite (fun _ => h4.trans (countCti _ (by decide) (by decide) ..)) (fun _ => h4)

theorem bufEnter (s : State) (o : StorOp) : PortsKept s (s.bufEnter o) :=
  (foldl (modOp s ..) fun v b => modDirty v b _).trans (opIssue ..)

theorem bufAdmit (s : State) (l : List StorOp) : PortsKept s (s.bufAdmit l) := by
  induction l generalizing s with
  | nil => exact refl s
  | cons o rest ih => exact ite (fun _ => (bufEnter s o).trans (ih _)) (fun _ => refl s)

/-! ## Completions -/

theorem modQ (s : State) (q : Nat) (f : CtiQueue → CtiQueue) : PortsKept s (s.modQ q f) := by
  unfold State.modQ
  split
  · exact onStor s rfl rfl
  · exact refl s

theorem ctiPost (s : State) (q : Nat) (c : CtiPost) : PortsKept s (s.ctiPost q c) := by
  unfold State.ctiPost
  extract_lets s1 s2
  have h1 : PortsKept s s1 := countCti s (by decide) (by decide) ..
  have h2 : PortsKept s s2 := by
    unfold s2
    split
    case h_5 => exact h1
    all_goals exact h1.trans (countCti _ (by decide) (by decide) ..)
  exact h2.trans (modQ ..)

theorem ctiDone (s : State) (q tag status result : Nat) (degraded : Bool) : PortsKept s (s.ctiDone q tag status result degraded) := by
  unfold State.ctiDone
  split
  · exact refl s
  · exact (modQ s ..).trans (ctiPost ..)

end PortsKept

/-- A store in host memory changes host memory. -/
theorem State.hostWrite_stor (s : State) (a : Nat) (bs : List Byte) : ∃ h, s.hostWrite a bs = s.onStor fun x => { x with host := h } := by
  induction bs generalizing s a with
  | nil => exact ⟨s.stor.host, rfl⟩
  | cons b bs ih =>
    obtain ⟨h, e⟩ := ih (s.onStor fun x => { x with host := Map.ins x.host a b }) (a + 1)
    exact ⟨h, e⟩

theorem State.hostScatter_stor (s : State) (l : List (Nat × Nat)) (bs : List Byte) :
    ∃ h, s.hostScatter l bs = s.onStor fun x => { x with host := h } := by
  induction l generalizing s bs with
  | nil => exact ⟨s.stor.host, rfl⟩
  | cons e rest ih =>
    obtain ⟨a, n⟩ := e
    obtain ⟨h, e1⟩ := State.hostWrite_stor s a (bs.take n)
    obtain ⟨h', e2⟩ := ih (s.hostWrite a (bs.take n)) (bs.drop n)
    exact ⟨h', by unfold State.hostScatter; rw [e2, e1]; rfl⟩

theorem State.hostPut_stor (s : State) (c : CtiCmd) (bs : List Byte) : ∃ h, s.hostPut c bs = s.onStor fun x => { x with host := h } :=
  State.hostScatter_stor ..

namespace PortsKept

theorem hostPut (s : State) (c : CtiCmd) (bs : List Byte) : PortsKept s (s.hostPut c bs) := by
  obtain ⟨h, e⟩ := State.hostPut_stor s c bs
  rw [e]; exact onStor s rfl rfl

theorem opAck (s : State) (o : StorOp) (status : Nat) : PortsKept s (s.opAck o status) := by
  unfold State.opAck
  extract_lets s1
  have h1 : PortsKept s s1 := modOp ..
  split
  · split
    · exact h1
    · exact (ite (fun _ => h1.trans (hostPut ..)) (fun _ => h1)).trans (ctiDone ..)
  · exact h1.trans (modSess ..)
  · exact h1.trans (modSess ..)
  · exact h1

theorem bufAcks (s : State) : PortsKept s s.bufAcks :=
  foldl (refl s) fun v o => ite (fun _ => refl v) (fun _ => opAck v o 0)

/-! ## The end of an operation, and what follows it -/

theorem nsChange (s : State) (k : Nat) {f : State → State} (hf : PortsKept s (f s)) : PortsKept s (s.nsChange k f) :=
  ite (fun _ => hf) (fun _ => hf.trans (produce ..))

theorem nsLose (s : State) (k c : Nat) : PortsKept s (s.nsLose k c) := by
  unfold State.nsLose
  refine ite (fun _ => refl s) (fun _ => ?_)
  extract_lets t t1
  have h : PortsKept s t := nsChange s k (modNs ..)
  have h1 : PortsKept s t1 := ite (fun _ => h.trans (raise _ _ (by decide))) (fun _ => h)
  refine ite (fun _ => ?_) (fun _ => h1)
  split
  · exact h1.trans (setProg ..)
  · exact h1

theorem partNext (s : State) (k : Nat) : PortsKept s (s.partNext k) := by
  unfold State.partNext
  split
  · exact refl s
  · split
    · exact setProg ..
    · exact (onStor s rfl rfl).trans (opIssue ..)

theorem partStart (s : State) (k : Nat) : PortsKept s (s.partStart k) := by
  unfold State.partStart
  split
  · exact refl s
  · exact (setProg s ..).trans (partNext ..)

theorem opEnd (s : State) (o : StorOp) : PortsKept s (s.opEnd o) := by
  unfold State.opEnd
  extract_lets n bad s1 s2 s3
  have h1 : PortsKept s s1 := onStor s rfl rfl
  have h2 : PortsKept s s2 := ite (fun _ => h1) (fun _ => foldl h1 fun v e => nsLose v ..)
  have h3 : PortsKept s s3 := ite (fun _ => foldl h2 fun v b => modDirty v ..) (fun _ => h2)
  have hdefer : ∀ k cause first count, PortsKept s (if bad then s3.deferError k cause first count else s3) :=
    fun _ _ _ _ => ite (fun _ => h3.trans (deferError ..)) (fun _ => h3)
  split
  · split
    · exact ite (fun _ => h3) fun _ => ite (fun _ => h3.trans (partNext ..)) fun _ => (h3.trans (setProg ..)).trans (partNext ..)
    · exact h3
  · exact ite (fun _ => hdefer ..) (fun _ => h3.trans (opAck ..))
  · exact ite (fun _ => hdefer ..) (fun _ => (hdefer ..).trans (opAck ..))

theorem nsSettle (s : State) (k : Nat) : PortsKept s (s.nsSettle k) :=
  ite (fun _ => (nsChange s k (modNs ..)).trans (setReg _ (.inl rfl) (by decide) (by decide) _)) (fun _ => refl s)

theorem qSettle (s : State) (q : Nat) : PortsKept s (s.qSettle q) := by
  unfold State.qSettle
  split
  · exact refl s
  · refine ite (fun _ => ?_) (fun _ => refl s)
    extract_lets s1
    have h1 : PortsKept s s1 := onStor s rfl rfl
    split
    · exact h1.trans (ctiDone ..)
    · exact h1

theorem storRun (s : State) (f : Nat) : PortsKept s (s.storRun f) := by
  induction f generalizing s with
  | zero => exact refl s
  | succ f ih =>
    unfold State.storRun
    extract_lets s1 s2
    have h1 : PortsKept s s1 := by
      unfold s1
      split
      · exact (opEnd ..).trans (ih _)
      · exact refl s
    exact ((h1.trans (bufAdmit ..)).trans (nvmeIssue ..)).trans (bufAcks ..)

/-- The upkeep after a change of the storage complex. -/
theorem storAfter (s : State) : PortsKept s s.storAfter := by
  unfold State.storAfter
  extract_lets s1 s2 s3
  have h1 : PortsKept s s1 := storRun ..
  have h2 : PortsKept s s2 := by
    unfold s2
    exact foldl h1 fun v i => qSettle v (255 - i)
  have h3 : PortsKept s s3 := by
    unfold s3
    exact foldl h2 fun v i => nsSettle v (i + 1)
  clear_value s3
  exact ite (fun _ => h3.trans (onStor s3 rfl rfl)) (fun _ => h3)

/-- Interrupted operations that restart. -/
theorem ctiResume (s : State) : PortsKept s s.ctiResume := by
  unfold State.ctiResume
  refine ite (fun _ => refl s) (fun _ => ?_)
  extract_lets s1 left
  have h1 : PortsKept s s1 := by
    unfold s1
    refine foldl (refl s) fun v i => ?_
    extract_lets k
    split
    · exact refl v
    · exact ite (fun _ => refl v) fun _ => ite (fun _ => partStart ..) (fun _ => refl v)
  clear_value s1
  exact ite (fun _ => h1) (fun _ => h1.trans (onStor s1 rfl rfl))

end PortsKept

end Sys2Proof.Machine
end

section
/-!
SUPPORT. A CTI command whose only NVMe command has ended: its operation ends, its completion is posted, and the upkeep that follows
keeps the completion.
-/

namespace Sys2Proof.Machine

open Sys2Proof

/-! ## Queues -/

theorem State.ctiQ_congr {s t : State} (h : t.stor.queue = s.stor.queue) (q : Nat) : t.ctiQ q = s.ctiQ q := by
  unfold State.ctiQ; rw [h]

theorem State.ctiCmd_congr {s t : State} (h : t.stor.queue = s.stor.queue) (q tag : Nat) : t.ctiCmd q tag = s.ctiCmd q tag := by
  unfold State.ctiCmd; rw [State.ctiQ_congr h]

theorem State.ctiQ_modQ (s : State) (q : Nat) (f : CtiQueue → CtiQueue) (i : Nat) :
    (s.modQ q f).ctiQ i = if i = q then (s.ctiQ i).map f else s.ctiQ i := by
  unfold State.modQ
  split
  · next x hx =>
    show Map.get _ (Map.put (fun _ => none) s.stor.queue q (some (f x))) i = _
    rw [Map.get_put]
    split
    · next hi => subst hi; rw [hx]; rfl
    · rfl
  · next hx =>
    split
    · next hi => subst hi; rw [hx]; rfl
    · rfl

@[simp] theorem State.modQ_ops (s : State) (q : Nat) (f : CtiQueue → CtiQueue) : (s.modQ q f).stor.ops = s.stor.ops := by
  unfold State.modQ; split <;> rfl

theorem State.modQ_stor_congr {s t : State} (h : t.stor = s.stor) (q : Nat) (f : CtiQueue → CtiQueue) :
    (t.modQ q f).stor = (s.modQ q f).stor := by
  unfold State.modQ
  rw [State.ctiQ_congr (congrArg Storage.queue h)]
  cases s.ctiQ q with
  | none => exact h
  | some x => rw [State.onStor_stor, State.onStor_stor, h]

/-- A queue takes a completion unless it has failed. -/
def CtiQueue.take (c : CtiPost) (x : CtiQueue) : CtiQueue := if x.failed then x else { x with posts := x.posts ++ [c] }

/-- A completion counts in registers, and its queue takes it. -/
theorem State.ctiPost_stor (s : State) (q : Nat) (c : CtiPost) : (s.ctiPost q c).stor = (s.modQ q (CtiQueue.take c)).stor := by
  unfold State.ctiPost
  extract_lets s1 s2
  have hcount : ∀ (v : State) (o lo n k : Nat), (v.count pCTI o lo n k).stor = v.stor := fun v o lo n k =>
    (State.count_touches v pCTI o lo n k).stor rfl
  have h : s2.stor = s.stor := by unfold s2; split <;> simp only [hcount, s1]
  exact State.modQ_stor_congr h q _

theorem State.ctiQ_ctiPost (s : State) (q : Nat) (c : CtiPost) (i : Nat) :
    (s.ctiPost q c).ctiQ i = if i = q then (s.ctiQ i).map (CtiQueue.take c) else s.ctiQ i := by
  rw [State.ctiQ_congr (congrArg Storage.queue (State.ctiPost_stor s q c)), State.ctiQ_modQ]

/-! ## A posted completion -/

/-- No operation is left, the command `tag` of queue `q` is gone, and a completion that satisfies `P` waits there. -/
def State.Posted (s : State) (q tag : Nat) (P : CtiPost → Prop) : Prop :=
  s.stor.ops = [] ∧ ∃ y, s.ctiQ q = some y ∧ (∀ c ∈ y.cmds, c.tag ≠ tag) ∧ ∃ p ∈ y.posts, P p

namespace State.Posted

variable {s t : State} {q tag : Nat} {P : CtiPost → Prop}

theorem congr (h : s.Posted q tag P) (ho : t.stor.ops = s.stor.ops) (hq : t.stor.queue = s.stor.queue) : t.Posted q tag P := by
  obtain ⟨h0, y, hy, h⟩ := h
  exact ⟨ho.trans h0, y, (State.ctiQ_congr hq q).trans hy, h⟩

/-- A change of a queue that takes no completion away and adds no command. -/
theorem modQ (h : s.Posted q tag P) (i : Nat) {f : CtiQueue → CtiQueue} (hc : ∀ x, ∀ c ∈ (f x).cmds, c ∈ x.cmds)
    (hp : ∀ x, ∀ p ∈ x.posts, p ∈ (f x).posts) : (s.modQ i f).Posted q tag P := by
  obtain ⟨h0, y, hy, hcmd, p, hm, hP⟩ := h
  refine ⟨by rw [State.modQ_ops, h0], if q = i then f y else y, ?_, ?_⟩
  · rw [State.ctiQ_modQ, hy]; split <;> rfl
  · split
    · exact ⟨fun c h => hcmd c (hc y c h), p, hp y p hm, hP⟩
    · exact ⟨hcmd, p, hm, hP⟩

theorem ctiPost (h : s.Posted q tag P) (i : Nat) (c : CtiPost) : (s.ctiPost i c).Posted q tag P := by
  have hm : (s.modQ i (CtiQueue.take c)).Posted q tag P := by
    refine h.modQ i (fun x c hc => ?_) (fun x p hp => ?_)
    · unfold CtiQueue.take at hc; split at hc <;> exact hc
    · unfold CtiQueue.take; split
      · exact hp
      · exact List.mem_append_left _ hp
  exact hm.congr (by rw [State.ctiPost_stor]) (by rw [State.ctiPost_stor])

theorem ctiDone (h : s.Posted q tag P) (i k status result : Nat) (degraded : Bool) :
    (s.ctiDone i k status result degraded).Posted q tag P := by
  unfold State.ctiDone
  split
  · exact h
  · refine State.Posted.ctiPost (h.modQ i ?_ ?_) ..
    · exact fun _ _ hc => (List.mem_filter.1 hc).1
    · exact fun _ _ hp => hp

theorem qSettle (h : s.Posted q tag P) (i : Nat) : (s.qSettle i).Posted q tag P := by
  unfold State.qSettle
  split
  · exact h
  next x hx =>
  split
  · next hd =>
    have hne : q ≠ i := by
      rintro rfl
      obtain ⟨-, y, hy, -, p, hp, -⟩ := h
      obtain rfl : x = y := Option.some.inj (hx.symm.trans hy)
      simp only [Bool.and_eq_true, List.isEmpty_iff] at hd
      rw [hd.2] at hp
      cases hp
    extract_lets s1
    have h1 : s1.Posted q tag P := by
      obtain ⟨h0, y, hy, hr⟩ := h
      refine ⟨h0, y, ?_, hr⟩
      show Map.get _ (Map.put (fun _ => none) s.stor.queue i none) q = _
      rw [Map.get_put_other _ _ _ hne]; exact hy
    split
    · exact h1.ctiDone ..
    · exact h1
  · exact h

theorem nsSettle (h : s.Posted q tag P) (k : Nat) : (s.nsSettle k).Posted q tag P := by
  have hn : ∀ f, (s.nsChange k fun t => t.modNs k f).Posted q tag P := by
    intro f
    unfold State.nsChange
    extract_lets t
    have ht : t.Posted q tag P := h.congr rfl rfl
    split
    · exact ht
    · have e := (State.produce_touches t pCTI 3).stor rfl
      exact ht.congr (by rw [e]) (by rw [e])
  unfold State.nsSettle
  extract_lets out
  split
  · exact (hn _).congr rfl rfl
  · exact h

/-- With no operation left, nothing ends, enters the buffer or is acknowledged. -/
theorem storRun (h : s.Posted q tag P) (f : Nat) : (s.storRun f).Posted q tag P := by
  cases f with
  | zero => exact h
  | succ f =>
    unfold State.storRun
    simp only [h.1, List.find?_nil, List.filter_nil, State.bufAdmit]
    have hi : s.nvmeIssue.Posted q tag P := h.congr rfl rfl
    unfold State.bufAcks
    rw [hi.1]
    exact hi

theorem foldl {β : Type} {f : State → β → State} {l : List β} (h : s.Posted q tag P)
    (hf : ∀ v x, v.Posted q tag P → (f v x).Posted q tag P) : (l.foldl f s).Posted q tag P := by
  induction l generalizing s with
  | nil => exact h
  | cons x l ih => exact ih (hf s x h)

/-- What `storAfter` does once operations have ended keeps the completion. -/
theorem storAfter (h : (s.storRun (2 * s.stor.ops.length + 2)).Posted q tag P) : s.storAfter.Posted q tag P := by
  unfold State.storAfter
  extract_lets s1 s2 s3
  have h2 : s2.Posted q tag P := by
    unfold s2
    exact h.foldl fun v i hv => hv.qSettle (255 - i)
  have h3 : s3.Posted q tag P := by
    unfold s3
    exact h2.foldl fun v i hv => hv.nsSettle (i + 1)
  clear_value s3
  split
  · exact h3.congr rfl rfl
  · exact h3

end State.Posted

/-! ## The end of the operation -/

/-- The completion that an operation's end hands to its CTI command. -/
theorem State.opAck_posted {s : State} {o : StorOp} {q tag : Nat} {x : CtiQueue} {e : CtiCmd} (st : Nat) (ho : s.stor.ops = [])
    (hown : o.owner = .cti q tag) (hx : s.ctiQ q = some x) (hf : x.failed = false) (hc : s.ctiCmd q tag = some e) :
    (s.opAck o st).Posted q tag fun p => p.tag = tag ∧ p.status = st ∧ p.result = if st = 0 then o.count else 0 := by
  unfold State.opAck
  extract_lets s1
  have hq1 : s1.stor.queue = s.stor.queue := rfl
  have ho1 : s1.stor.ops = [] := by show s.stor.ops.map _ = []; rw [ho]; rfl
  clear_value s1
  simp only [hown, State.ctiCmd_congr hq1, hc]
  generalize hs2 : (if o.kind = 0 ∧ st = 0 then s1.hostPut e _ else s1) = s2
  have h2 : s2.stor.ops = [] ∧ s2.stor.queue = s.stor.queue := by
    rw [← hs2]
    split
    · obtain ⟨h, e⟩ := State.hostPut_stor s1 e _
      rw [e]; exact ⟨ho1, hq1⟩
    · exact ⟨ho1, hq1⟩
  unfold State.ctiDone
  rw [State.ctiCmd_congr h2.2, hc]
  dsimp only
  refine ⟨by rw [State.ctiPost_stor, State.modQ_ops, State.modQ_ops, h2.1], ?_⟩
  rw [State.ctiQ_ctiPost, if_pos rfl, State.ctiQ_modQ, if_pos rfl, State.ctiQ_congr h2.2, hx]
  refine ⟨_, rfl, ?_⟩
  simp [CtiQueue.take, hf]

/-- The status in which an operation that has no command left completes: MEDIA where a place is lost on every copy (R423). -/
def StorOp.endStatus (o : StorOp) : Nat := if (!o.badPlaces.isEmpty || o.copies.isEmpty) = true then 11 else 0

/-- An unbuffered, unacknowledged operation of a CTI command ends in its completion. -/
theorem State.opEnd_cti {s : State} {o : StorOp} {q tag : Nat} (hown : o.owner = .cti q tag) (ha : o.acked = false) (hb : o.buf = 0)
    (hl : (o.failed.filter fun e => !o.badPlaces.contains e.2) = []) :
    s.opEnd o = (s.onStor fun x => { x with ops := x.ops.filter fun y => y.id != o.id }).opAck o o.endStatus := by
  unfold State.opEnd StorOp.endStatus
  dsimp only
  rw [hl]
  simp [hown, ha, hb]

/-- The only operation, left without a command, ends in the completion of its CTI command. -/
theorem State.storAfter_posted {s : State} {o : StorOp} {q tag : Nat} {x : CtiQueue} {e : CtiCmd} (hops : s.stor.ops = [o])
    (hcmds : s.stor.cmds = []) (hown : o.owner = .cti q tag) (ha : o.acked = false) (hb : o.buf = 0)
    (hl : (o.failed.filter fun e => !o.badPlaces.contains e.2) = [])
    (hx : s.ctiQ q = some x) (hf : x.failed = false) (hc : s.ctiCmd q tag = some e) :
    s.storAfter.Posted q tag fun p => p.tag = tag ∧ p.status = o.endStatus ∧
      p.result = if o.endStatus = 0 then o.count else 0 := by
  apply State.Posted.storAfter
  rw [hops]
  show (s.storRun (3 + 1)).Posted q tag _
  have hfind : (s.stor.ops.find? fun o => (o.buf != 1) && !s.opBusy o.id) = some o := by
    simp [hops, hb, State.opBusy, hcmds]
  have hack := State.opAck_posted (s := s.onStor fun x => { x with ops := x.ops.filter fun y => y.id != o.id })
    o.endStatus (by simp [hops]) hown hx hf hc
  rw [← State.opEnd_cti hown ha hb hl] at hack
  unfold State.storRun
  simp only [hfind]
  have h3 := hack.storRun 3
  generalize (s.opEnd o).storRun 3 = t at h3 ⊢
  rw [h3.1]
  have hi : t.nvmeIssue.Posted q tag _ := h3.congr rfl rfl
  simp only [List.filter_nil, State.bufAdmit, State.bufAcks]
  rw [hi.1]
  exact hi

end Sys2Proof.Machine
end

section
/-!
SUPPORT. Root ports and SSDs (R413 to R415): what a change of an SSD's state does, and what each of their commands answers.
-/

namespace Sys2Proof.Machine

open Sys2Proof

/-! ## Fields of one register -/

theorem State.fld_congr_reg {s t : State} {p o : Nat} (h : t.reg p o = s.reg p o) (lo n : Nat) : t.fld p o lo n = s.fld p o lo n := by
  unfold State.fld; rw [h]

theorem State.bit_congr_reg {s t : State} {p o : Nat} (h : t.reg p o = s.reg p o) (i : Nat) : t.bit p o i = s.bit p o i := by
  unfold State.bit; rw [h]

theorem State.fld_count_other {s : State} {p o lo n k lo' n' : Nat} (h : lo + n ≤ 32) (hd : lo' + n' ≤ lo ∨ lo + n ≤ lo') :
    (s.count p o lo n k).fld p o lo' n' = s.fld p o lo' n' := by
  unfold State.fld State.count satAdd
  rw [State.reg_setReg_same, wfld_wset_other _ _ _ _ _ _ h hd]

theorem State.fld_putBit_other {s : State} {p o i lo n : Nat} {b : Bool} (h : i < 32) (hd : lo + n ≤ i ∨ i + 1 ≤ lo) :
    (s.putBit p o i b).fld p o lo n = s.fld p o lo n := by
  unfold State.fld State.putBit
  rw [State.reg_setReg_same, wfld_setBit_other _ _ _ _ _ h hd]

theorem State.reg64_setReg64 (s : State) {p lo hi : Nat} (h : lo ≠ hi) (v : Nat) : (s.setReg64 p lo hi v).reg64 p lo hi = v % 2 ^ 64 := by
  unfold State.reg64 State.setReg64
  rw [State.reg_setReg_same, State.reg_setReg_page h, State.reg_setReg_same, wd_toNat, wd_toNat]
  omega

/-! ## The pages of the root ports -/

theorem pageKind_nvmh {k : Nat} (h : k < 8) : pageKind (pNVMH k) = .nvmh := by
  interval_cases k <;> rfl

theorem faultPage_nvmh {k : Nat} (h : k < 8) : faultPage (pNVMH k) = pNVMH k := by
  unfold faultPage; rw [pageKind_nvmh h]

theorem pNVMH_ne {k : Nat} (h : k < 8) : pNVMH k ≠ pCTI ∧ pNVMH k ≠ pSILK := by
  unfold pNVMH pCTI pSILK; omega

/-- A fault of a root port stands on its own page. -/
theorem State.raise_nvmh (s : State) {k b : Nat} (hk : k < 8) (hb : b < 32) : (s.raise (pNVMH k) b).Faulted (pNVMH k) b :=
  State.raise_faulted s (faultPage_nvmh hk) hb

/-- The row of NVMH CFG: EN is plain, the other fields are idle-only. -/
def nvmhCfgRow : RegDesc := ⟨0x100, 1, 0, 1, 0, 0x16, 1, 0, 0x1e, 0, 0, 0⟩

theorem regDesc_nvmhCfg {k : Nat} (h : k < 8) : regDesc (pNVMH k) Off.nvmh_CFG = some nvmhCfgRow := by
  unfold regDesc regTable
  rw [pageKind_nvmh h]
  rfl

/-! ## An SSD's state -/

@[simp] theorem State.ssd_modSsd (s : State) (k : Nat) (f : Ssd → Ssd) : (s.modSsd k f).ssd k = f (s.ssd k) := Map.get_put_same ..

theorem State.ssd_congr {s t : State} (h : t.stor.ssd = s.stor.ssd) (k : Nat) : t.ssd k = s.ssd k := by unfold State.ssd; rw [h]

@[simp] theorem State.setSsd_stor (s : State) (k st : Nat) : (s.setSsd k st).stor = s.stor := (State.setSsd_touches s k st).stor rfl

@[simp] theorem State.ssd_setSsd (s : State) (k st j : Nat) : (s.setSsd k st).ssd j = s.ssd j :=
  State.ssd_congr (congrArg Storage.ssd (State.setSsd_stor s k st)) j

/-- A change of an SSD's state changes no register but SSD_STAT, CNT_RESET and what a fault changes. -/
theorem State.reg_setSsd (s : State) (k st : Nat) {q o : Nat} (ho : quietOff o = true) (h1 : o ≠ Off.nvmh_SSD_STAT)
    (h2 : o ≠ Off.nvmh_CNT_RESET) : (s.setSsd k st).reg q o = s.reg q o := by
  have hlt : o < 4096 := quietOff_lt ho
  unfold State.setSsd
  extract_lets p s1
  have e1 : s1.reg q o = s.reg q o := by
    unfold s1
    rw [State.reg_produce, State.reg_setFld_ne (rg_ne_of_off hlt (by decide) h1)]
  split
  · rfl
  split
  · rw [State.reg_raise _ _ _ _ _ ho, State.reg_count_ne (rg_ne_of_off hlt (by decide) h2), e1]
  split
  · rw [State.reg_produce, State.reg_raise _ _ _ _ _ ho, e1]
  · exact e1

/-- SSD_STAT after a change of state: STATE takes the new state. -/
theorem State.reg_setSsd_stat (s : State) {k st : Nat} (h : s.ssdState k ≠ st) :
    (s.setSsd k st).reg (pNVMH k) Off.nvmh_SSD_STAT = wset (s.reg (pNVMH k) Off.nvmh_SSD_STAT) 0 3 st := by
  unfold State.setSsd
  extract_lets p s1
  have e1 : s1.reg (pNVMH k) Off.nvmh_SSD_STAT = wset (s.reg (pNVMH k) Off.nvmh_SSD_STAT) 0 3 st := by
    unfold s1 State.setFld
    rw [State.reg_produce, State.reg_setReg_same]
  rw [if_neg h]
  split
  · rw [State.reg_raise _ _ _ _ _ rfl, State.reg_count_ne (rg_ne_of_off (by decide) (by decide) (by decide)), e1]
  split
  · rw [State.reg_produce, State.reg_raise _ _ _ _ _ rfl, e1]
  · exact e1

@[simp] theorem State.ssdState_setSsd (s : State) (k : Nat) {st : Nat} (h : st < 8) : (s.setSsd k st).ssdState k = st := by
  by_cases hs : s.ssdState k = st
  · unfold State.setSsd; rw [if_pos hs]; exact hs
  · unfold State.ssdState State.fld
    rw [State.reg_setSsd_stat s hs, wfld_wset _ _ _ _ (by decide)]
    exact Nat.mod_eq_of_lt h

theorem State.fld_setSsd_stat (s : State) (k st : Nat) {lo n : Nat} (h : 3 ≤ lo) :
    (s.setSsd k st).fld (pNVMH k) Off.nvmh_SSD_STAT lo n = s.fld (pNVMH k) Off.nvmh_SSD_STAT lo n := by
  by_cases hs : s.ssdState k = st
  · unfold State.setSsd; rw [if_pos hs]
  · unfold State.fld
    rw [State.reg_setSsd_stat s hs, wfld_wset_other _ _ _ _ _ _ (by decide) (.inr h)]

/-- A change of an SSD's state clears no fault. -/
theorem State.Faulted.setSsd {s : State} {p b : Nat} (h : s.Faulted p b) (k st : Nat) : (s.setSsd k st).Faulted p b := by
  unfold State.setSsd
  extract_lets a s1
  have h1 : s1.Faulted p b := h.congr (by
    unfold s1
    rw [State.reg_produce, State.reg_setFld_ne (rg_ne_of_off (by decide) (by decide) (by decide))])
  split
  · exact h
  split
  · exact (h1.congr (State.reg_count_ne (rg_ne_of_off (by decide) (by decide) (by decide)))).raise _ (by decide)
  split
  · exact (h1.raise _ (by decide)).congr (State.reg_produce ..)
  · exact h1

/-- RECOVERY raises its fault and is counted (R415). -/
theorem State.setSsd_recovery (s : State) {k : Nat} (hk : k < 8) (h : s.ssdState k ≠ 3) :
    (s.setSsd k 3).Faulted (pNVMH k) 11 ∧ (s.setSsd k 3).fld (pNVMH k) Off.nvmh_CNT_RESET 0 16 =
      min 65535 (s.fld (pNVMH k) Off.nvmh_CNT_RESET 0 16 + 1) := by
  unfold State.setSsd
  extract_lets p s1
  have e1 : s1.reg p Off.nvmh_CNT_RESET = s.reg p Off.nvmh_CNT_RESET := by
    unfold s1
    rw [State.reg_produce, State.reg_setFld_ne (rg_ne_of_off (by decide) (by decide) (by decide))]
  rw [if_neg h, if_pos rfl]
  refine ⟨State.raise_nvmh _ hk (by decide), ?_⟩
  rw [State.fld_congr_reg (State.reg_raise _ _ _ _ _ rfl), State.fld_count _ _ _ _ _ _ (by decide), State.fld_congr_reg e1]
  rfl

/-- OFFLINE raises its fault (R415). -/
theorem State.setSsd_offline (s : State) {k : Nat} (hk : k < 8) (h : s.ssdState k ≠ 4) : (s.setSsd k 4).Faulted (pNVMH k) 12 := by
  unfold State.setSsd
  rw [if_neg h, if_neg (by decide), if_pos rfl]
  exact (State.raise_nvmh _ hk (by decide)).congr (State.reg_produce ..)

/-- An SSD in RECOVERY: its state, its fault and its count, and its commands wait to be reissued (R415). -/
theorem State.ssdRecovery_spec (s : State) {k : Nat} (hk : k < 8) (h : s.ssdState k = 2) :
    (s.ssdRecovery k).ssdState k = 3 ∧ (s.ssdRecovery k).Faulted (pNVMH k) 11 ∧
      (s.ssdRecovery k).stor.cmds = s.stor.cmds.map (fun c => if c.dev = k then { c with at_ := none, abort := none } else c) ∧
      (s.ssdRecovery k).fld (pNVMH k) Off.nvmh_CNT_RESET 0 16 = min 65535 (s.fld (pNVMH k) Off.nvmh_CNT_RESET 0 16 + 1) := by
  obtain ⟨hf, hc⟩ := s.setSsd_recovery hk (by omega)
  refine ⟨s.ssdState_setSsd k (by decide), hf, ?_, hc⟩
  unfold State.ssdRecovery
  rw [State.onStor_stor, State.setSsd_stor]

/-- An SSD that goes OFFLINE: beside its state's change, no register of a root port changes and no fault is cleared. -/
theorem State.ssdOffline_keeps (s : State) (k : Nat) :
    (∀ q o, quietOff o = true → q ≠ pCTI → q ≠ pSILK → (s.ssdOffline k).reg q o = (s.setSsd k 4).reg q o) ∧
      ∀ q b, (s.setSsd k 4).Faulted q b → (s.ssdOffline k).Faulted q b := by
  unfold State.ssdOffline
  extract_lets s1 s2
  have h2 : PortsKept s1 s2 := by
    unfold s2
    refine PortsKept.foldl (PortsKept.refl s1) fun t i => ?_
    extract_lets n
    exact PortsKept.foldl (PortsKept.refl t) fun u c => PortsKept.ite (fun _ => PortsKept.nsLose ..) (fun _ => PortsKept.refl u)
  clear_value s2
  generalize hs3 : ((s2.stor.cmds.filter fun c => c.dev == k).foldl (fun t c => t.nvmeFail c true) s2) = s3
  have h3 : s3.regs = s2.regs := by
    rw [← hs3]
    exact (Touches.foldl (Touches.refl 37748736 s2) fun _ _ h => h.step (State.nvmeFail_touches ..) rfl).regs rfl
  have h4 := PortsKept.storAfter s3
  refine ⟨fun q o ho hc hs => ?_, fun q b hb => ?_⟩
  · rw [h4.reg q o ho hc hs, State.reg_congr h3, h2.reg q o ho hc hs]
  · exact h4.faulted q b ((h2.faulted q b hb).congr (State.reg_congr h3 ..))

/-! ## EN of a root port -/

@[simp] theorem State.passed_ssdState (s : State) (m : Master) (p k : Nat) : (s.passed m p).ssdState k = s.ssdState k :=
  State.passed_fld ..

/-- A root port whose CFG has taken a written value, as far as the SSD's state lets it (R413, R612). -/
def State.cfgStored (s : State) (m : Master) (k : Nat) (v : Word) : State :=
  (s.passed m (pNVMH k)).storeFields (pNVMH k) Off.nvmh_CFG (s.ssdState k = 0) v

theorem State.cfgStored_en (s : State) (m : Master) {k : Nat} (hk : k < 8) (v : Word) :
    (s.cfgStored m k v).bit (pNVMH k) Off.nvmh_CFG 0 = bitAt v 0 :=
  State.bit_storeFields (regDesc_nvmhCfg hk) ⟨rfl, rfl, rfl⟩ rfl _ v (.inl rfl)

@[simp] theorem State.cfgStored_stor (s : State) (m : Master) (k : Nat) (v : Word) : (s.cfgStored m k v).stor = s.stor :=
  ((State.storeFields_touches ..).stor rfl).trans (State.passed_stor ..)

/-- A write of CFG of an open root port where it sets EN (R413). -/
theorem nvmhCfg_enable {s : State} {m : Master} {k : Nat} {v : Word} (hk : k < 8) (h : s.Open m (pNVMH k)) (hv : bitAt v 0 = true)
    (he : s.bit (pNVMH k) Off.nvmh_CFG 0 = false) :
    s.nvmhCfg m k v = ((s.cfgStored m k v).modSsd k fun x => { x with tries := 0, badLanes := 0 }).setSsd k 1 := by
  have hb := s.cfgStored_en m hk v
  unfold State.cfgStored at hb ⊢
  unfold State.nvmhCfg
  rw [State.regWrite_open h]
  simp only [State.passed_ssdState, State.passed_bit, hb, hv, he, Bool.not_false, Bool.and_self, if_true]

/-- A write of CFG of an open root port where it clears EN (R415). -/
theorem nvmhCfg_disable {s : State} {m : Master} {k : Nat} {v : Word} (hk : k < 8) (h : s.Open m (pNVMH k)) (hv : bitAt v 0 = false)
    (he : s.bit (pNVMH k) Off.nvmh_CFG 0 = true) :
    s.nvmhCfg m k v = (((s.cfgStored m k v).setSsd k 0).onStor fun x =>
      { x with cmds := x.cmds.map fun c => if c.dev = k then { c with at_ := none, abort := none } else c }).setReg (pNVMH k)
        Off.nvmh_LINK (wd 12) := by
  have hb := s.cfgStored_en m hk v
  unfold State.cfgStored at hb ⊢
  unfold State.nvmhCfg
  rw [State.regWrite_open h]
  simp only [State.passed_ssdState, State.passed_bit, hb, hv, he, Bool.not_false, Bool.and_self, if_true, Bool.false_and,
    Bool.false_eq_true, if_false]

/-- EN set takes the SSD to INIT, with no attempt made and no lane failed (R413). -/
theorem nvmhEnable_spec {s : State} {m : Master} {k : Nat} {v : Word} (hk : k < 8) (h : s.Open m (pNVMH k)) (hv : bitAt v 0 = true)
    (he : s.bit (pNVMH k) Off.nvmh_CFG 0 = false) : s.Answers (.nvmhEnable m k v) fun u =>
      u.ssdState k = 1 ∧ u.bit (pNVMH k) Off.nvmh_CFG 0 = true ∧ (u.ssd k).tries = 0 ∧ (u.ssd k).badLanes = 0 := by
  refine ⟨_, rfl, ?_⟩
  rw [nvmhCfg_enable hk h hv he]
  beta_reduce
  rw [State.ssd_setSsd, State.ssd_modSsd,
    State.bit_congr_reg (State.reg_setSsd _ _ _ rfl (by decide) (by decide))]
  exact ⟨State.ssdState_setSsd _ _ (by decide), (s.cfgStored_en m hk v).trans hv, rfl, rfl⟩

/-- EN cleared takes the SSD to OFF and its link down; its commands wait (R415). -/
theorem nvmhDisable_spec {s : State} {m : Master} {k : Nat} {v : Word} (hk : k < 8) (h : s.Open m (pNVMH k)) (hv : bitAt v 0 = false)
    (he : s.bit (pNVMH k) Off.nvmh_CFG 0 = true) : s.Answers (.nvmhDisable m k v) fun u =>
      u.ssdState k = 0 ∧ u.bit (pNVMH k) Off.nvmh_CFG 0 = false ∧ u.bit (pNVMH k) Off.nvmh_LINK 4 = false ∧
      u.stor.cmds = s.stor.cmds.map fun c => if c.dev = k then { c with at_ := none, abort := none } else c := by
  refine ⟨_, rfl, ?_⟩
  rw [nvmhCfg_disable hk h hv he]
  refine ⟨?_, ?_, ?_, ?_⟩
  · exact (State.fld_congr_reg (State.reg_setReg_page (by decide)) 0 3).trans (State.ssdState_setSsd _ _ (by decide))
  · rw [State.bit_congr_reg (State.reg_setReg_page (by decide)), State.bit_congr_reg (State.reg_onStor ..),
      State.bit_congr_reg (State.reg_setSsd _ _ _ rfl (by decide) (by decide)), s.cfgStored_en m hk v, hv]
  · unfold State.bit; rw [State.reg_setReg_same]; rfl
  · show (((s.cfgStored m k v).setSsd k 0).stor.cmds.map _) = _
    rw [State.setSsd_stor, State.cfgStored_stor]

end Sys2Proof.Machine
end

section
/-!
SUPPORT. The end of an SSD's initialisation, and the lanes that fail (R45, R413 to R415).
-/

namespace Sys2Proof.Machine

open Sys2Proof

/-! ## The end of an initialisation -/

/-- What an initialisation of SSD `k` that succeeds stores before the SSD is READY (R413): the link, SSD_STAT in INIT and the capacity. -/
def State.initStored (s : State) (k speed width : Nat) (rev vwc lba4k : Bool) (queues cap : Nat) : State :=
  (((((s.setSsd k 1).setReg (pNVMH k) Off.nvmh_LINK (wd (min speed (s.fld (pNVMH k) Off.nvmh_CFG 1 2) +
      min width (s.fld (pNVMH k) Off.nvmh_CFG 3 2) * 4 + 16 + rev.toNat * 32 + (s.ssd k).badLanes * 64))).setReg
    (pNVMH k) Off.nvmh_SSD_STAT (wd (1 + vwc.toNat * 8 + lba4k.toNat * 16 + min 16 queues * 32))).setReg64
    (pNVMH k) Off.nvmh_CAP_LO (Off.nvmh_CAP_LO + 4) cap).modSsd k fun x => { x with tries := 0 })

section InitDone

variable {s : State} {k : Nat} (speed width : Nat) (rev vwc lba4k : Bool) (queues cap : Nat)

/-- The guard of SSD_INIT_DONE (R413, R415). -/
theorem initDone_guard (ha : s.alive (pNVMH k) = true) (hs : s.ssdState k = 1 ∨ s.ssdState k = 3) :
    (!s.alive (pNVMH k) || !(s.ssdState k == 1 || s.ssdState k == 3)) = false := by
  obtain h | h := hs <;> simp [ha, h]

theorem ssdInitDone_ready (ha : s.alive (pNVMH k) = true) (hs : s.ssdState k = 1 ∨ s.ssdState k = 3) :
    exec (.ssdInitDone k 0 speed width rev vwc lba4k queues cap) s =
      .next (((s.initStored k speed width rev vwc lba4k queues cap).setSsd k 2).ctiResume.storAfter) := by
  change execSsdInitDone k 0 speed width rev vwc lba4k queues cap s = _
  unfold execSsdInitDone
  dsimp only
  rw [initDone_guard ha hs, if_neg (by decide)]
  rfl

theorem ssdInitDone_unsupported (ha : s.alive (pNVMH k) = true) (hs : s.ssdState k = 1 ∨ s.ssdState k = 3) :
    exec (.ssdInitDone k 1 speed width rev vwc lba4k queues cap) s = .next (((s.setSsd k 1).setSsd k 5).raise (pNVMH k) 13) := by
  change execSsdInitDone k 1 speed width rev vwc lba4k queues cap s = _
  unfold execSsdInitDone
  dsimp only
  rw [initDone_guard ha hs, if_neg (by decide)]
  rfl

/-- The SSD after a failed attempt (R415). -/
def State.attemptFailed (s : State) (k : Nat) : State := (s.setSsd k 1).modSsd k fun x => { x with tries := x.tries + 1 }

theorem State.attemptFailed_tries (s : State) (k : Nat) : ((s.attemptFailed k).ssd k).tries = (s.ssd k).tries + 1 := by
  unfold State.attemptFailed
  rw [State.ssd_modSsd, State.ssd_setSsd]

theorem ssdInitDone_failed (ha : s.alive (pNVMH k) = true) (hs : s.ssdState k = 1 ∨ s.ssdState k = 3) :
    exec (.ssdInitDone k 2 speed width rev vwc lba4k queues cap) s =
      .next (if 2 ≤ (s.ssd k).tries + 1 then (s.attemptFailed k).ssdOffline k else s.attemptFailed k) := by
  change execSsdInitDone k 2 speed width rev vwc lba4k queues cap s = _
  unfold execSsdInitDone
  dsimp only
  rw [initDone_guard ha hs, if_neg (by decide), ← State.attemptFailed_tries, apply_ite Host.Outcome.next]
  rfl

@[simp] theorem State.attemptFailed_state (s : State) (k : Nat) : (s.attemptFailed k).ssdState k = 1 :=
  State.ssdState_setSsd s k (by decide)

/-- LINK and SSD_STAT hold what the fields of the stored words say. -/
theorem State.initStored_reg (s : State) (k : Nat) :
    (s.initStored k speed width rev vwc lba4k queues cap).reg (pNVMH k) Off.nvmh_LINK =
      wd (min speed (s.fld (pNVMH k) Off.nvmh_CFG 1 2) + min width (s.fld (pNVMH k) Off.nvmh_CFG 3 2) * 4 + 16 + rev.toNat * 32 +
        (s.ssd k).badLanes * 64) ∧
    (s.initStored k speed width rev vwc lba4k queues cap).reg (pNVMH k) Off.nvmh_SSD_STAT =
      wd (1 + vwc.toNat * 8 + lba4k.toNat * 16 + min 16 queues * 32) := by
  unfold State.initStored State.setReg64
  constructor
  · rw [State.modSsd, State.reg_onStor, State.reg_setReg_page (by decide), State.reg_setReg_page (by decide),
      State.reg_setReg_page (by decide), State.reg_setReg_same]
  · rw [State.modSsd, State.reg_onStor, State.reg_setReg_page (by decide), State.reg_setReg_page (by decide), State.reg_setReg_same]

theorem State.initStored_cap (s : State) (k : Nat) :
    (s.initStored k speed width rev vwc lba4k queues cap).reg64 (pNVMH k) Off.nvmh_CAP_LO (Off.nvmh_CAP_LO + 4) = cap % 2 ^ 64 := by
  unfold State.initStored State.modSsd
  rw [State.reg64, State.reg_onStor, State.reg_onStor]
  exact State.reg64_setReg64 _ (by decide) cap

theorem bitAt_wd (n i : Nat) (h : i < 32) : bitAt (wd n) i = decide (n / 2 ^ i % 2 = 1) := by
  unfold bitAt
  rw [wfld_wd _ _ _ (by omega)]
  rfl

/-- A READY SSD: what the link negotiated, what the SSD reports and its capacity stand in the registers (R413). -/
theorem ssdInitDone_ready_spec (hk : k < 8) (ha : s.alive (pNVMH k) = true) (hs : s.ssdState k = 1 ∨ s.ssdState k = 3) :
    s.Answers (.ssdInitDone k 0 speed width rev vwc lba4k queues cap) fun u => u.ssdState k = 2 ∧ (u.ssd k).tries = 0 ∧
      u.fld (pNVMH k) Off.nvmh_LINK 0 2 = min speed (s.fld (pNVMH k) Off.nvmh_CFG 1 2) ∧
      u.fld (pNVMH k) Off.nvmh_LINK 2 2 = min width (s.fld (pNVMH k) Off.nvmh_CFG 3 2) ∧ u.bit (pNVMH k) Off.nvmh_LINK 4 = true ∧
      u.bit (pNVMH k) Off.nvmh_LINK 5 = rev ∧ u.bit (pNVMH k) Off.nvmh_SSD_STAT 3 = vwc ∧
      u.bit (pNVMH k) Off.nvmh_SSD_STAT 4 = lba4k ∧ u.fld (pNVMH k) Off.nvmh_SSD_STAT 5 5 = min 16 queues ∧
      u.reg64 (pNVMH k) Off.nvmh_CAP_LO (Off.nvmh_CAP_LO + 4) = cap % 2 ^ 64 := by
  refine ⟨_, ssdInitDone_ready speed width rev vwc lba4k queues cap ha hs, ?_⟩
  beta_reduce
  obtain ⟨hlink, hstat⟩ := State.initStored_reg speed width rev vwc lba4k queues cap s k
  have hcap := State.initStored_cap speed width rev vwc lba4k queues cap s k
  have htries : ((s.initStored k speed width rev vwc lba4k queues cap).ssd k).tries = 0 := by
    unfold State.initStored; rw [State.ssd_modSsd]
  have hkeep := (PortsKept.ctiResume ((s.initStored k speed width rev vwc lba4k queues cap).setSsd k 2)).trans (PortsKept.storAfter _)
  generalize s.initStored k speed width rev vwc lba4k queues cap = v at hlink hstat hcap htries hkeep ⊢
  generalize hu : ((v.setSsd k 2).ctiResume.storAfter) = u at hkeep ⊢
  have hreg : ∀ o, quietOff o = true → u.reg (pNVMH k) o = (v.setSsd k 2).reg (pNVMH k) o :=
    fun o ho => hkeep.reg _ o ho (pNVMH_ne hk).1 (pNVMH_ne hk).2
  have hl : u.reg (pNVMH k) Off.nvmh_LINK = _ :=
    ((hreg _ rfl).trans (State.reg_setSsd v k 2 rfl (by decide) (by decide))).trans hlink
  have hst : ∀ lo n, 3 ≤ lo → u.fld (pNVMH k) Off.nvmh_SSD_STAT lo n = v.fld (pNVMH k) Off.nvmh_SSD_STAT lo n := fun lo n h =>
    (State.fld_congr_reg (hreg _ rfl) lo n).trans (State.fld_setSsd_stat v k 2 h)
  have hb : ∀ i, 3 ≤ i → u.bit (pNVMH k) Off.nvmh_SSD_STAT i = v.bit (pNVMH k) Off.nvmh_SSD_STAT i := fun i h => by
    unfold State.bit bitAt; exact congrArg (· == 1) (hst i 1 h)
  have hsp : min speed (s.fld (pNVMH k) Off.nvmh_CFG 1 2) < 4 := (min_le_right ..).trans_lt (wfld_lt ..)
  have hwi : min width (s.fld (pNVMH k) Off.nvmh_CFG 3 2) < 4 := (min_le_right ..).trans_lt (wfld_lt ..)
  generalize min speed (s.fld (pNVMH k) Off.nvmh_CFG 1 2) = sp at hl hsp ⊢
  generalize min width (s.fld (pNVMH k) Off.nvmh_CFG 3 2) = wi at hl hwi ⊢
  have hrev : rev.toNat < 2 := rev.toNat_lt
  have hvwc : vwc.toNat < 2 := vwc.toNat_lt
  have hlba : lba4k.toNat < 2 := lba4k.toNat_lt
  refine ⟨?_, ?_, ?_, ?_, ?_, ?_, ?_, ?_, ?_, ?_⟩
  · exact (State.fld_congr_reg (hreg _ rfl) 0 3).trans (State.ssdState_setSsd v k (by decide))
  · rw [State.ssd_congr hkeep.ssd, State.ssd_setSsd, htries]
  · unfold State.fld; rw [hl, wfld_wd _ _ _ (by decide)]; omega
  · unfold State.fld; rw [hl, wfld_wd _ _ _ (by decide)]; omega
  · unfold State.bit; rw [hl, bitAt_wd _ _ (by decide), decide_eq_true_eq]; omega
  · unfold State.bit; rw [hl, bitAt_wd _ _ (by decide)]; cases rev <;> simp <;> omega
  · rw [hb 3 le_rfl]; unfold State.bit; rw [hstat, bitAt_wd _ _ (by decide)]; cases vwc <;> simp <;> omega
  · rw [hb 4 (by decide)]; unfold State.bit; rw [hstat, bitAt_wd _ _ (by decide)]; cases lba4k <;> simp <;> omega
  · rw [hst 5 5 (by decide)]; unfold State.fld; rw [hstat, wfld_wd _ _ _ (by decide)]; omega
  · rw [← hcap]
    unfold State.reg64
    rw [hreg _ rfl, hreg _ rfl, State.reg_setSsd _ _ _ rfl (by decide) (by decide), State.reg_setSsd _ _ _ rfl (by decide) (by decide)]

theorem ssdInitDone_unsupported_spec (hk : k < 8) (ha : s.alive (pNVMH k) = true) (hs : s.ssdState k = 1 ∨ s.ssdState k = 3) :
    s.Answers (.ssdInitDone k 1 speed width rev vwc lba4k queues cap) fun u =>
      u.ssdState k = 5 ∧ u.Faulted (pNVMH k) 13 ∧ u.stor = s.stor := by
  refine ⟨_, ssdInitDone_unsupported speed width rev vwc lba4k queues cap ha hs, ?_, State.raise_nvmh _ hk (by decide), ?_⟩
  · exact (State.fld_congr_reg (State.reg_raise _ _ _ _ _ rfl) 0 3).trans (State.ssdState_setSsd _ _ (by decide))
  · rw [(State.raise_touches ..).stor rfl, State.setSsd_stor, State.setSsd_stor]

theorem ssdInitDone_again_spec (ha : s.alive (pNVMH k) = true) (hs : s.ssdState k = 1 ∨ s.ssdState k = 3)
    (ht : (s.ssd k).tries = 0) :
    s.Answers (.ssdInitDone k 2 speed width rev vwc lba4k queues cap) fun u => u.ssdState k = 1 ∧ (u.ssd k).tries = 1 := by
  refine ⟨_, ssdInitDone_failed speed width rev vwc lba4k queues cap ha hs, ?_⟩
  rw [if_neg (by omega)]
  exact ⟨State.attemptFailed_state s k, by rw [State.attemptFailed_tries, ht]⟩

theorem ssdInitDone_offline_spec (hk : k < 8) (ha : s.alive (pNVMH k) = true) (hs : s.ssdState k = 1 ∨ s.ssdState k = 3)
    (ht : (s.ssd k).tries = 1) :
    s.Answers (.ssdInitDone k 2 speed width rev vwc lba4k queues cap) fun u => u.ssdState k = 4 ∧ u.Faulted (pNVMH k) 12 := by
  refine ⟨_, ssdInitDone_failed speed width rev vwc lba4k queues cap ha hs, ?_⟩
  rw [if_pos (by omega)]
  obtain ⟨hr, hf⟩ := (s.attemptFailed k).ssdOffline_keeps k
  refine ⟨?_, hf _ _ (State.setSsd_offline _ hk (by rw [State.attemptFailed_state]; decide))⟩
  exact (State.fld_congr_reg (hr _ _ rfl (pNVMH_ne hk).1 (pNVMH_ne hk).2) 0 3).trans (State.ssdState_setSsd _ _ (by decide))

end InitDone

end Sys2Proof.Machine
end

section
/-!
SUPPORT. NVMe completions, timeouts and the lanes of a link (R45, R414, R415, R417, R419), and the statement about root ports and SSDs.
-/

namespace Sys2Proof.Machine

open Sys2Proof

/-! ## Completions -/

/-- The PCIe errors that a completion reports are counted, and the root port's memory is read (R415, R497). -/
def State.errorsCounted (s : State) (k cor uncor : Nat) : State :=
  ((s.count (pNVMH k) Off.nvmh_CNT_PCIE 0 16 cor).count (pNVMH k) Off.nvmh_CNT_PCIE 16 16 uncor).memRead (pNVMH k) 15

/-- The state in which a completed command is served: it is counted too. -/
def State.served (s : State) (k cor uncor : Nat) : State := (s.errorsCounted k cor uncor).count (pNVMH k) Off.nvmh_CNT_CMD 0 32 1

@[simp] theorem State.setReg_stor (s : State) (p o : Nat) (v : Word) : (s.setReg p o v).stor = s.stor := rfl
@[simp] theorem State.count_stor (s : State) (p o lo n k : Nat) : (s.count p o lo n k).stor = s.stor := State.setReg_stor ..
@[simp] theorem State.setFld_stor (s : State) (p o lo n v : Nat) : (s.setFld p o lo n v).stor = s.stor := State.setReg_stor ..
@[simp] theorem State.putBit_stor (s : State) (p o i : Nat) (b : Bool) : (s.putBit p o i b).stor = s.stor := State.setReg_stor ..
@[simp] theorem State.raise_stor (s : State) (p b : Nat) : (s.raise p b).stor = s.stor := (State.raise_touches s p b).stor rfl

theorem State.reg_memRead (s : State) (p b : Nat) {q o : Nat} (ho : quietOff o = true) : (s.memRead p b).reg q o = s.reg q o := by
  have ht : (s.takeErr p .clean).2.reg q o = s.reg q o := by
    unfold State.takeErr
    dsimp only
    split <;> rfl
  unfold State.memRead
  dsimp only
  split
  · rw [State.reg_raise _ _ _ _ _ ho, ht]
  · exact ht

theorem State.errorsCounted_touches (s : State) (k cor uncor : Nat) : Touches 1092 s (s.errorsCounted k cor uncor) :=
  (((State.count_touches s ..).mono rfl).step (State.count_touches ..) rfl).step (State.memRead_touches ..) rfl

theorem State.served_touches (s : State) (k cor uncor : Nat) : Touches 1092 s (s.served k cor uncor) :=
  (s.errorsCounted_touches k cor uncor).step (State.count_touches ..) rfl

@[simp] theorem State.errorsCounted_stor (s : State) (k cor uncor : Nat) : (s.errorsCounted k cor uncor).stor = s.stor :=
  (s.errorsCounted_touches k cor uncor).stor rfl

@[simp] theorem State.served_stor (s : State) (k cor uncor : Nat) : (s.served k cor uncor).stor = s.stor :=
  (s.served_touches k cor uncor).stor rfl

/-- The correctable errors are counted in the lower half of CNT_PCIE. -/
theorem State.errorsCounted_cor (s : State) (k cor uncor : Nat) :
    (s.errorsCounted k cor uncor).fld (pNVMH k) Off.nvmh_CNT_PCIE 0 16 =
      min 65535 (s.fld (pNVMH k) Off.nvmh_CNT_PCIE 0 16 + cor) := by
  unfold State.errorsCounted
  rw [State.fld_congr_reg (State.reg_memRead _ _ _ rfl), State.fld_count_other (by decide) (by decide), State.fld_count _ _ _ _ _ _ (by decide)]
  rfl

/-- A served command changes no register of a root port but CNT_CMD and CNT_PCIE. -/
theorem State.reg_served (s : State) (k cor uncor : Nat) {q o : Nat} (ho : quietOff o = true) (h1 : o ≠ Off.nvmh_CNT_CMD)
    (h2 : o ≠ Off.nvmh_CNT_PCIE) : (s.served k cor uncor).reg q o = s.reg q o := by
  have hlt : o < 4096 := quietOff_lt ho
  unfold State.served State.errorsCounted
  rw [State.reg_count_ne (rg_ne_of_off hlt (by decide) h1), State.reg_memRead _ _ _ ho,
    State.reg_count_ne (rg_ne_of_off hlt (by decide) h2), State.reg_count_ne (rg_ne_of_off hlt (by decide) h2)]

/-- The health page of a READY SSD that is due: its temperature, the errors seen, and the tick of its turn (R415). -/
theorem nvmeCompletion_health {s : State} {k status cor uncor temp : Nat} (ha : s.alive (pNVMH k) = true) (hs : s.ssdState k = 2)
    (hd : dueAgain (s.ssd k).healthAt 2500000000 s.now = true) :
    s.Answers (.nvmeCompletion k 0 status cor uncor temp) fun u => u.fld (pNVMH k) Off.nvmh_TEMP 0 16 = temp % 65536 ∧
      u.fld (pNVMH k) Off.nvmh_CNT_PCIE 0 16 = min 65535 (s.fld (pNVMH k) Off.nvmh_CNT_PCIE 0 16 + cor) ∧
      (u.ssd k).healthAt = some s.now ∧ u.stor.cmds = s.stor.cmds ∧ u.stor.media = s.stor.media := by
  have he : exec (.nvmeCompletion k 0 status cor uncor temp) s =
      .next ((((s.errorsCounted k cor uncor).modSsd k fun x => { x with healthAt := some s.now }).setFld (pNVMH k) Off.nvmh_TEMP 0 16
        temp).count (pNVMH k) Off.nvmh_CNT_CMD 0 32 1) := by
    change execNvmeCompletion k 0 status cor uncor temp s = _
    unfold execNvmeCompletion
    simp only [ha, hs, hd, Bool.not_true, Bool.false_eq_true, if_false, if_true, decide_true, Bool.and_self]
    rfl
  have hcor := s.errorsCounted_cor k cor uncor
  have hst := s.errorsCounted_stor k cor uncor
  refine ⟨_, he, ?_⟩
  beta_reduce
  clear he
  generalize s.errorsCounted k cor uncor = v at hcor hst ⊢
  refine ⟨?_, ?_, ?_, ?_, ?_⟩
  · rw [State.fld_congr_reg (State.reg_count_ne (by simp)), State.fld_setFld _ _ _ _ _ _ (by decide)]
    rfl
  · rw [State.fld_congr_reg (State.reg_count_ne (by simp)), State.fld_congr_reg (State.reg_setFld_ne (by simp)), ← hcor]
    rfl
  · rw [State.ssd_congr (s := v.modSsd k fun x => { x with healthAt := some s.now }) (by simp), State.ssd_modSsd]
  · rw [← hst]; simp [State.modSsd]
  · rw [← hst]; simp [State.modSsd]

/-- The state after command `c` has completed: success, a media status, which is tried once more, or another failure (R415, R419). -/
def State.completed (s : State) (k : Nat) (c : NvmeCmd) (status cor uncor : Nat) : State :=
  if status = 0 then (((s.served k cor uncor).nvmeApply c).nvmeDrop c.id).storAfter
  else if status = 1 then
    if c.retried = true then
      ((((s.served k cor uncor).count (pNVMH k) Off.nvmh_CNT_ERR 0 16 1).raise (pNVMH k) 14).nvmeFail c false).storAfter
    else (s.served k cor uncor).onStor fun x =>
      { x with cmds := x.cmds.map fun e => if e.id = c.id then { e with retried := true, at_ := some s.now, abort := none } else e }
  else ((s.served k cor uncor).nvmeFail c false).storAfter

theorem State.completed_success (s : State) (k : Nat) (c : NvmeCmd) (cor uncor : Nat) :
    s.completed k c 0 cor uncor = (((s.served k cor uncor).nvmeApply c).nvmeDrop c.id).storAfter := if_pos rfl

theorem State.completed_media (s : State) (k : Nat) (c : NvmeCmd) (cor uncor : Nat) :
    s.completed k c 1 cor uncor = if c.retried = true then
      ((((s.served k cor uncor).count (pNVMH k) Off.nvmh_CNT_ERR 0 16 1).raise (pNVMH k) 14).nvmeFail c false).storAfter
    else (s.served k cor uncor).onStor fun x =>
      { x with cmds := x.cmds.map fun e => if e.id = c.id then { e with retried := true, at_ := some s.now, abort := none } else e } :=
  (if_neg Nat.one_ne_zero).trans (if_pos rfl)

theorem State.completed_failure (s : State) (k : Nat) (c : NvmeCmd) {status : Nat} (cor uncor : Nat) (h0 : status ≠ 0) (h1 : status ≠ 1) :
    s.completed k c status cor uncor = ((s.served k cor uncor).nvmeFail c false).storAfter :=
  (if_neg h0).trans (if_neg h1)

/-- A completion of the only NVMe command of root port `k`. -/
theorem nvmeCompletion_served {s : State} {k : Nat} {c : NvmeCmd} (status cor uncor temp : Nat) (ha : s.alive (pNVMH k) = true)
    (hc : s.stor.cmds = [c]) (hid : c.id ≠ 0) (hdev : c.dev = k) (hat : c.at_.isSome = true) :
    exec (.nvmeCompletion k c.id status cor uncor temp) s = .next (s.completed k c status cor uncor) := by
  change execNvmeCompletion k c.id status cor uncor temp s = _
  unfold execNvmeCompletion
  simp only [ha, hid, hc, hdev, hat, Bool.not_true, Bool.false_eq_true, if_false, List.find?_cons, beq_self_eq_true, Bool.and_self]
  split
  · rw [State.completed_success]
    rfl
  · rw [State.completed_media, apply_ite Host.Outcome.next]
    rfl
  · next h0 h1 =>
    rw [State.completed_failure _ _ _ _ _ h0 h1]
    rfl

/-! ## What a completion does to the media and to its operation -/

theorem State.op_congr {s t : State} (h : t.stor = s.stor) (id : Nat) : t.op id = s.op id := by unfold State.op; rw [h]
theorem State.ns_congr {s t : State} (h : t.stor = s.stor) (k : Nat) : t.ns k = s.ns k := by unfold State.ns; rw [h]

/-- A completed write or trim reaches the media of its SSD (R419). -/
theorem State.nvmeApply_media {s : State} {c : NvmeCmd} {o : StorOp} (ho : s.op c.op = some o) (hk : c.kind ≠ 0) :
    (s.nvmeApply c).stor.media = ⟨c.dev, c.first, c.count, o.content (s.ns o.nsid) c.idx⟩ :: s.stor.media := by
  unfold State.nvmeApply
  rw [if_neg hk, ho]
  rfl

/-- Beside the media, a completed command changes nothing of the storage complex. -/
theorem State.nvmeApply_stor (s : State) (c : NvmeCmd) : ∃ m, (s.nvmeApply c).stor = { s.stor with media := m } := by
  unfold State.nvmeApply
  split
  · exact ⟨s.stor.media, rfl⟩
  · split
    · exact ⟨s.stor.media, rfl⟩
    · exact ⟨_, rfl⟩

theorem mediaOnly_foldl {β : Type} {f : State → β → State} (hf : ∀ t x, ∃ m, (f t x).stor = { t.stor with media := m }) (l : List β)
    (s : State) : ∃ m, (l.foldl f s).stor = { s.stor with media := m } := by
  induction l generalizing s with
  | nil => exact ⟨s.stor.media, rfl⟩
  | cons x l ih =>
    obtain ⟨m, hm⟩ := ih (f s x)
    obtain ⟨m', hm'⟩ := hf s x
    exact ⟨m, by rw [List.foldl_cons, hm, hm']⟩

/-- A torn write changes the media only. -/
theorem State.nvmeTear_stor (s : State) (c : NvmeCmd) : ∃ m, (s.nvmeTear c).stor = { s.stor with media := m } := by
  unfold State.nvmeTear
  split
  · exact ⟨s.stor.media, rfl⟩
  split
  · exact ⟨s.stor.media, rfl⟩
  refine mediaOnly_foldl (fun t i => ?_) _ s
  dsimp only
  split
  · exact ⟨t.stor.media, rfl⟩
  · exact ⟨_, rfl⟩

/-- The failure of the only command of an operation on one copy: the operation has failed there and no command is left (R417). -/
theorem State.nvmeFail_only {s : State} {c : NvmeCmd} {o : StorOp} (offline : Bool) (hops : s.stor.ops = [o]) (hcmds : s.stor.cmds = [c])
    (hop : c.op = o.id) (hf : o.failed = []) (hcp : o.copies = [c.copy]) :
    (s.nvmeFail c offline).stor.ops = [{ o with failed := [(c.copy, c.idx)], offline := o.offline || offline }] ∧
      (s.nvmeFail c offline).stor.cmds = [] ∧ (s.nvmeFail c offline).stor.queue = s.stor.queue := by
  obtain ⟨m, hm⟩ := s.nvmeTear_stor c
  unfold State.nvmeFail
  extract_lets s1
  have h1 : s1.stor.ops = [{ o with failed := [(c.copy, c.idx)], offline := o.offline || offline }] ∧ s1.stor.cmds = [] ∧
      s1.stor.queue = s.stor.queue := by
    unfold s1 State.modOp State.nvmeDrop
    simp [hm, hops, hcmds, hop, hf]
  have hfind : s1.op c.op = some { o with failed := [(c.copy, c.idx)], offline := o.offline || offline } := by
    unfold State.op
    rw [h1.1, hop]
    simp
  clear_value s1
  rw [hfind]
  dsimp only
  split
  · exact h1
  · have hnone : (o.copies.find? fun x => !([(c.copy, c.idx)].contains (x, c.idx))) = none := by rw [hcp]; simp
    simp only [hnone]
    exact h1

/-! ## The completion of a CTI command -/

/-- The only operation of a state, and the CTI command that waits for it. -/
structure CtiWaits (s : State) (o : StorOp) (q tag : Nat) (x : CtiQueue) (e : CtiCmd) : Prop where
  ops : s.stor.ops = [o]
  owner : o.owner = .cti q tag
  acked : o.acked = false
  buf : o.buf = 0
  queue : s.ctiQ q = some x
  alive : x.failed = false
  cmd : s.ctiCmd q tag = some e

/-- The command is gone once its completion waits. -/
theorem State.Posted.ctiCmd {s : State} {q tag : Nat} {P : CtiPost → Prop} (h : s.Posted q tag P) : s.ctiCmd q tag = none := by
  obtain ⟨-, y, hy, hc, -⟩ := h
  unfold State.ctiCmd
  rw [hy]
  exact List.find?_eq_none.2 fun c hm => by simpa using hc c hm

/-- Success of the only command of an operation: its CTI command completes with the blocks (R420). -/
theorem CtiWaits.success {s : State} {o : StorOp} {q tag : Nat} {x : CtiQueue} {e : CtiCmd} {c : NvmeCmd} (h : CtiWaits s o q tag x e)
    (hcmds : s.stor.cmds = [c]) (hf : o.failed = []) (hcp : o.copies = [c.copy]) :
    ((s.nvmeApply c).nvmeDrop c.id).storAfter.Posted q tag fun p => p.tag = tag ∧ p.status = 0 ∧ p.result = o.count := by
  obtain ⟨m, hm⟩ := s.nvmeApply_stor c
  have hbad : o.badPlaces = [] := by simp [StorOp.badPlaces, hf]
  have hend : o.endStatus = 0 := by simp [StorOp.endStatus, hbad, hcp]
  have hstor : ((s.nvmeApply c).nvmeDrop c.id).stor = { s.stor with media := m, cmds := [] } := by
    unfold State.nvmeDrop
    simp [hm, hcmds]
  have hq : ((s.nvmeApply c).nvmeDrop c.id).stor.queue = s.stor.queue := by rw [hstor]
  have hp := State.storAfter_posted ((congrArg Storage.ops hstor).trans h.ops) (by rw [hstor]) h.owner h.acked h.buf
    (by simp [hf]) ((State.ctiQ_congr hq q).trans h.queue) h.alive ((State.ctiCmd_congr hq q tag).trans h.cmd)
  simpa [hend] using hp

/-- Failure of the only command of an operation on one copy: its CTI command completes with MEDIA (R417, R423). -/
theorem CtiWaits.failure {s : State} {o : StorOp} {q tag : Nat} {x : CtiQueue} {e : CtiCmd} {c : NvmeCmd} (h : CtiWaits s o q tag x e)
    (hcmds : s.stor.cmds = [c]) (hop : c.op = o.id) (hf : o.failed = []) (hcp : o.copies = [c.copy]) :
    (s.nvmeFail c false).storAfter.Posted q tag fun p => p.tag = tag ∧ p.status = 11 := by
  obtain ⟨hops, hc0, hq⟩ := State.nvmeFail_only false h.ops hcmds hop hf hcp
  generalize ho' : ({ o with failed := [(c.copy, c.idx)], offline := o.offline || false } : StorOp) = o' at hops
  have hfailed : o'.failed = [(c.copy, c.idx)] := by rw [← ho']
  have hbad : o'.badPlaces = [c.idx] := by
    unfold StorOp.badPlaces
    rw [hfailed, show o'.copies = [c.copy] by rw [← ho']; exact hcp]
    simp [List.eraseDups_cons]
  have hend : o'.endStatus = 11 := by simp [StorOp.endStatus, hbad]
  have hp := State.storAfter_posted (o := o') hops hc0 (by rw [← ho']; exact h.owner) (by rw [← ho']; exact h.acked)
    (by rw [← ho']; exact h.buf) (by simp [hfailed, hbad]) ((State.ctiQ_congr hq q).trans h.queue) h.alive
    ((State.ctiCmd_congr hq q tag).trans h.cmd)
  rw [hend] at hp
  obtain ⟨h0, y, hy, hcmd, p, hm, ht, hs, -⟩ := hp
  exact ⟨h0, y, hy, hcmd, p, hm, ht, hs⟩

/-! ## Timeouts and the fatal status -/

section Timeout

variable {s : State} {k t : Nat} {c : NvmeCmd}

/-- A command outstanding for longer than CMD_TO is aborted (R415). -/
theorem nvmeCmdTimeout_spec (hk : k < 8) (ha : s.alive (pNVMH k) = true) (hc : s.stor.cmds = [c]) (hdev : c.dev = k)
    (hab : c.abort = none) (hat : c.at_ = some t) (hto : t + s.fld (pNVMH k) Off.nvmh_CMD_TO 0 16 * 250000 < s.now) :
    s.Answers (.nvmeCmdTimeout k c.id) fun u => u.stor.cmds = [{ c with abort := some s.now }] ∧ u.Faulted (pNVMH k) 10 ∧
      u.fld (pNVMH k) Off.nvmh_CNT_ERR 16 16 = min 65535 (s.fld (pNVMH k) Off.nvmh_CNT_ERR 16 16 + 1) := by
  have he : exec (.nvmeCmdTimeout k c.id) s = .next (((s.onStor fun x =>
      { x with cmds := x.cmds.map fun e => if e.id = c.id then { e with abort := some s.now } else e }).count (pNVMH k)
        Off.nvmh_CNT_ERR 16 16 1).raise (pNVMH k) 10) := by
    change execNvmeCmdTimeout k c.id s = _
    unfold execNvmeCmdTimeout
    simp [hc, hdev, hab, hat, ha, Nat.not_le.2 hto]
  refine ⟨_, he, ?_, State.raise_nvmh _ hk (by decide), ?_⟩
  · simp [hc]
  · rw [State.fld_congr_reg (State.reg_raise _ _ _ _ _ rfl), State.fld_count _ _ _ _ _ _ (by decide)]
    rfl

/-- An Abort that does not complete within a further CMD_TO takes the SSD to RECOVERY (R415). -/
theorem nvmeAbortTimeout_exec (ha : s.alive (pNVMH k) = true) (hc : s.stor.cmds = [c]) (hdev : c.dev = k) (hab : c.abort = some t)
    (hs : s.ssdState k = 2) (hto : t + s.fld (pNVMH k) Off.nvmh_CMD_TO 0 16 * 250000 < s.now) :
    exec (.nvmeAbortTimeout k c.id) s = .next (s.ssdRecovery k) := by
  change execNvmeAbortTimeout k c.id s = _
  unfold execNvmeAbortTimeout
  simp [hc, hdev, hab, hs, ha, Nat.not_le.2 hto]

/-- The controller fatal status takes the SSD to RECOVERY (R415). -/
theorem cstsCfs_exec (ha : s.alive (pNVMH k) = true) (hs : s.ssdState k = 2) : exec (.cstsCfs k) s = .next (s.ssdRecovery k) := by
  change execCstsCfs k s = _
  unfold execCstsCfs
  rw [if_pos (by simp [ha, hs])]

end Timeout

end Sys2Proof.Machine
end

section
/-!
SUPPORT. Lanes that fail (R45, R414, R514), and the statement about root ports and SSDs.
-/

namespace Sys2Proof.Machine

open Sys2Proof

/-! ## A lane of a root port -/

/-- The failed lanes of root port `k` once `lane` has failed. -/
def State.badWith (s : State) (k lane : Nat) : Nat :=
  if (s.ssd k).badLanes.testBit lane then (s.ssd k).badLanes else (s.ssd k).badLanes + 2 ^ lane

/-- The root port with the failed lane noted: with the SSD, in LINK and for the LANE record (R414, R514). -/
def State.laneLost (s : State) (k lane : Nat) : State :=
  ((s.modSsd k fun x => { x with badLanes := s.badWith k lane }).setFld (pNVMH k) Off.nvmh_LINK 6 4 (s.badWith k lane)).laneFailed
    (6 * k + 18 + lane)

/-- The link trained anew at a width and an orientation, its commands issued again (R414). -/
def State.retrained (s : State) (k lane w : Nat) (rev : Bool) : State :=
  (((((s.laneLost k lane).setFld (pNVMH k) Off.nvmh_LINK 2 2 (min w (s.fld (pNVMH k) Off.nvmh_LINK 2 2))).putBit (pNVMH k)
    Off.nvmh_LINK 5 rev).count (pNVMH k) Off.nvmh_CNT_RESET 16 16 1).raise (pNVMH k) 9).onStor fun x =>
      { x with cmds := x.cmds.map fun c => if c.dev = k ∧ c.at_.isSome then { c with at_ := some s.now } else c }

/-- The link down, with no width left (R414). -/
def State.linkLost (s : State) (k lane : Nat) : State :=
  ((((s.laneLost k lane).setFld (pNVMH k) Off.nvmh_LINK 2 2 3).putBit (pNVMH k) Off.nvmh_LINK 4 false).raise (pNVMH k) 8).cocoonPut
    (s.laneLost k lane).laneRecord

theorem State.cocoonPut_stor (s : State) (r : CocoonReq) : (s.cocoonPut r).stor = s.stor := (State.cocoonPut_touches s r).stor rfl

theorem State.laneLost_stor (s : State) (k lane : Nat) :
    (s.laneLost k lane).stor = (s.modSsd k fun x => { x with badLanes := s.badWith k lane }).stor := by
  unfold State.laneLost State.laneFailed
  rw [State.onDep_stor, State.setFld_stor]

/-- The failed lanes are noted in LINK and in no other register. -/
theorem State.reg_laneLost (s : State) (k lane : Nat) {p o : Nat} (h : rg p o ≠ rg (pNVMH k) Off.nvmh_LINK) :
    (s.laneLost k lane).reg p o = s.reg p o := by
  unfold State.laneLost State.laneFailed State.modSsd
  rw [State.reg_onDep, State.reg_setFld_ne h, State.reg_onStor]

section Lane

variable {s : State} {k lane : Nat}

theorem pcieLaneFail_retrains {w : Nat} {rev : Bool} (hk : k < 8) (hlane : lane < 4) (ha : s.alive (pNVMH k) = true)
    (hl : s.bit (pNVMH k) Off.nvmh_LINK 4 = true) (hw : linkWidth (s.badWith k lane) = some (w, rev)) :
    exec (.pcieLaneFail k lane) s =
      .next ((s.retrained k lane w rev).cocoonPut (s.retrained k lane w rev).laneRecord) := by
  change execPcieLaneFail k lane s = _
  unfold execPcieLaneFail
  unfold State.badWith at hw
  simp only [Nat.ne_of_lt hk, ha, hl, Nat.not_le.2 hlane, hw, Bool.not_true, Bool.or_self, Bool.false_eq_true, decide_false, if_false]
  rfl

theorem pcieLaneFail_loses (hk : k < 8) (hlane : lane < 4) (ha : s.alive (pNVMH k) = true)
    (hl : s.bit (pNVMH k) Off.nvmh_LINK 4 = true) (hw : linkWidth (s.badWith k lane) = none) (hs : (s.linkLost k lane).ssdState k = 2) :
    exec (.pcieLaneFail k lane) s = .next ((s.linkLost k lane).ssdRecovery k) := by
  change execPcieLaneFail k lane s = _
  unfold execPcieLaneFail
  unfold State.badWith at hw
  simp only [Nat.ne_of_lt hk, ha, hl, Nat.not_le.2 hlane, hw, Bool.not_true, Bool.or_self, Bool.false_eq_true, decide_false, if_false]
  exact if_pos hs

/-- The first lane that fails leaves two lanes, the upper ones where it is one of the lower (R414). -/
theorem linkWidth_one (h : lane < 4) : linkWidth (2 ^ lane) = some (1, decide (lane < 2)) := by
  interval_cases lane <;> rfl

/-- With the outer lanes gone, a further lane leaves no width (R414). -/
theorem linkWidth_none (h : lane = 1 ∨ lane = 2) : linkWidth (9 + 2 ^ lane) = none := by
  obtain rfl | rfl := h <;> rfl

/-- The first lane that fails: the link retrains on two lanes and the commands are issued again (R414). -/
theorem pcieLaneFail_first (hk : k < 8) (hlane : lane < 4) (ha : s.alive (pNVMH k) = true)
    (hl : s.bit (pNVMH k) Off.nvmh_LINK 4 = true) (hb : (s.ssd k).badLanes = 0) :
    s.Answers (.pcieLaneFail k lane) fun u => (u.ssd k).badLanes = 2 ^ lane ∧
      u.fld (pNVMH k) Off.nvmh_LINK 2 2 = min 1 (s.fld (pNVMH k) Off.nvmh_LINK 2 2) ∧
      u.bit (pNVMH k) Off.nvmh_LINK 5 = decide (lane < 2) ∧ u.Faulted (pNVMH k) 9 ∧ u.ssdState k = s.ssdState k ∧
      u.stor.cmds = s.stor.cmds.map fun c => if c.dev = k ∧ c.at_.isSome then { c with at_ := some s.now } else c := by
  have hbad : s.badWith k lane = 2 ^ lane := by simp [State.badWith, hb]
  refine ⟨_, pcieLaneFail_retrains hk hlane ha hl (by rw [hbad]; exact linkWidth_one hlane), ?_⟩
  beta_reduce
  generalize (s.retrained k lane 1 (decide (lane < 2))).laneRecord = r
  have hlink : ∀ q o, quietOff o = true → o ≠ Off.nvmh_CNT_RESET →
      ((s.retrained k lane 1 (decide (lane < 2))).cocoonPut r).reg q o = (((s.laneLost k lane).setFld (pNVMH k) Off.nvmh_LINK 2 2
        (min 1 (s.fld (pNVMH k) Off.nvmh_LINK 2 2))).putBit (pNVMH k) Off.nvmh_LINK 5 (decide (lane < 2))).reg q o := by
    intro q o ho hne
    have hlt : o < 4096 := quietOff_lt ho
    unfold State.retrained
    rw [State.reg_cocoonPut, State.reg_onStor, State.reg_raise _ _ _ _ _ ho, State.reg_count_ne (rg_ne_of_off hlt (by decide) hne)]
  refine ⟨?_, ?_, ?_, ?_, ?_, ?_⟩
  · rw [State.ssd_congr (s := s.modSsd k fun x => { x with badLanes := s.badWith k lane })
      (by rw [State.cocoonPut_stor]; simp [State.retrained, State.laneLost_stor]), State.ssd_modSsd, hbad]
  · rw [State.fld_congr_reg (hlink _ _ rfl (by decide)), State.fld_putBit_other (by decide) (by decide),
      State.fld_setFld _ _ _ _ _ _ (by decide)]
    exact Nat.mod_eq_of_lt (by omega)
  · rw [State.bit_congr_reg (hlink _ _ rfl (by decide)), State.bit_putBit _ _ _ _ _ (by decide)]
  · unfold State.Faulted State.bit
    rw [State.reg_cocoonPut, State.retrained, State.reg_onStor]
    exact State.raise_nvmh _ hk (by decide)
  · unfold State.ssdState
    rw [State.fld_congr_reg (hlink _ _ rfl (by decide)), State.fld_congr_reg (State.reg_putBit_ne (by simp)),
      State.fld_congr_reg (State.reg_setFld_ne (by simp)), State.fld_congr_reg (State.reg_laneLost _ _ _ (by simp))]
  · rw [State.cocoonPut_stor]
    simp [State.retrained, State.laneLost_stor, State.modSsd]

/-- The lane that leaves no width: the link is down and the SSD goes to RECOVERY (R414, R415). -/
theorem pcieLaneFail_last (hk : k < 8) (hlane : lane < 4) (ha : s.alive (pNVMH k) = true)
    (hl : s.bit (pNVMH k) Off.nvmh_LINK 4 = true) (hb : (s.ssd k).badLanes = 9) (h12 : lane = 1 ∨ lane = 2) (hs : s.ssdState k = 2) :
    s.Answers (.pcieLaneFail k lane) fun u =>
      u.bit (pNVMH k) Off.nvmh_LINK 4 = false ∧ u.Faulted (pNVMH k) 8 ∧ u.ssdState k = 3 := by
  have hbad : s.badWith k lane = 9 + 2 ^ lane := by
    unfold State.badWith
    rw [hb]
    obtain rfl | rfl := h12 <;> rfl
  have hreg : ∀ o, quietOff o = true → (s.linkLost k lane).reg (pNVMH k) o = (((s.laneLost k lane).setFld (pNVMH k) Off.nvmh_LINK 2 2
      3).putBit (pNVMH k) Off.nvmh_LINK 4 false).reg (pNVMH k) o := fun o ho => by
    unfold State.linkLost
    rw [State.reg_cocoonPut, State.reg_raise _ _ _ _ _ ho]
  have hst : (s.linkLost k lane).ssdState k = 2 := by
    unfold State.ssdState
    rw [State.fld_congr_reg (hreg _ rfl), State.fld_congr_reg (State.reg_putBit_ne (by simp)),
      State.fld_congr_reg (State.reg_setFld_ne (by simp)), State.fld_congr_reg (State.reg_laneLost _ _ _ (by simp))]
    exact hs
  refine ⟨_, pcieLaneFail_loses hk hlane ha hl (by rw [hbad]; exact linkWidth_none h12) hst, ?_, ?_, ?_⟩
  · unfold State.ssdRecovery
    rw [State.bit_congr_reg (State.reg_onStor ..), State.bit_congr_reg (State.reg_setSsd _ _ _ rfl (by decide) (by decide)),
      State.bit_congr_reg (hreg _ rfl), State.bit_putBit _ _ _ _ _ (by decide)]
  · have hf : (s.linkLost k lane).Faulted (pNVMH k) 8 := (State.raise_nvmh _ hk (by decide)).congr (State.reg_cocoonPut ..)
    exact hf.setSsd k 3
  · exact (State.ssdRecovery_spec _ hk hst).1

end Lane

/-! ## A completion -/

section Completion

variable {s : State} {k : Nat} {c : NvmeCmd} (cor uncor temp : Nat)

/-- A write that completes is on the media, and the upkeep leaves the media as they are (R419). -/
theorem nvmeCompletion_written (ha : s.alive (pNVMH k) = true) (hc : s.stor.cmds = [c]) (hid : c.id ≠ 0) (hdev : c.dev = k)
    (hat : c.at_.isSome = true) {o : StorOp} (ho : s.op c.op = some o) (hk : c.kind ≠ 0) :
    s.Answers (.nvmeCompletion k c.id 0 cor uncor temp) fun u =>
      u.stor.media = ⟨c.dev, c.first, c.count, o.content (s.ns o.nsid) c.idx⟩ :: s.stor.media := by
  refine ⟨_, nvmeCompletion_served 0 cor uncor temp ha hc hid hdev hat, ?_⟩
  have hst := s.served_stor k cor uncor
  beta_reduce
  rw [State.completed_success, (PortsKept.storAfter _).media]
  show ((s.served k cor uncor).nvmeApply c).stor.media = _
  rw [State.nvmeApply_media ((State.op_congr hst _).trans ho) hk, State.ns_congr hst, hst]

/-- The CTI command waits in the state in which the completion is served. -/
theorem CtiWaits.served {o : StorOp} {q tag : Nat} {x : CtiQueue} {e : CtiCmd} (h : CtiWaits s o q tag x e) (k : Nat) :
    CtiWaits (s.served k cor uncor) o q tag x e := by
  have hst := s.served_stor k cor uncor
  exact ⟨by rw [hst]; exact h.ops, h.owner, h.acked, h.buf, (State.ctiQ_congr (by rw [hst]) q).trans h.queue, h.alive,
    (State.ctiCmd_congr (by rw [hst]) q tag).trans h.cmd⟩

/-- A command with a media status is tried once more (R415). -/
theorem nvmeCompletion_retry (ha : s.alive (pNVMH k) = true) (hc : s.stor.cmds = [c]) (hid : c.id ≠ 0) (hdev : c.dev = k)
    (hat : c.at_.isSome = true) (hr : c.retried = false) :
    s.Answers (.nvmeCompletion k c.id 1 cor uncor temp) fun u =>
      u.stor.cmds = [{ c with retried := true, at_ := some s.now, abort := none }] ∧ u.stor.media = s.stor.media := by
  refine ⟨_, nvmeCompletion_served 1 cor uncor temp ha hc hid hdev hat, ?_⟩
  rw [State.completed_media, if_neg (by simp [hr])]
  simp [hc]

/-- A second media status is an error of the SSD (R415). -/
theorem nvmeCompletion_error (hk : k < 8) (ha : s.alive (pNVMH k) = true) (hc : s.stor.cmds = [c]) (hid : c.id ≠ 0) (hdev : c.dev = k)
    (hat : c.at_.isSome = true) (hr : c.retried = true) :
    s.Answers (.nvmeCompletion k c.id 1 cor uncor temp) fun u => u.Faulted (pNVMH k) 14 ∧
      u.fld (pNVMH k) Off.nvmh_CNT_ERR 0 16 = min 65535 (s.fld (pNVMH k) Off.nvmh_CNT_ERR 0 16 + 1) := by
  refine ⟨_, nvmeCompletion_served 1 cor uncor temp ha hc hid hdev hat, ?_⟩
  rw [State.completed_media, if_pos hr]
  generalize hv : ((s.served k cor uncor).count (pNVMH k) Off.nvmh_CNT_ERR 0 16 1).raise (pNVMH k) 14 = v
  have hreg : (v.nvmeFail c false).regs = v.regs := (State.nvmeFail_touches v c false).regs rfl
  have hkept := PortsKept.storAfter (v.nvmeFail c false)
  constructor
  · refine hkept.faulted _ _ (State.Faulted.congr (s := v) ?_ (State.reg_congr hreg ..))
    rw [← hv]; exact State.raise_nvmh _ hk (by decide)
  · rw [State.fld_congr_reg (hkept.reg _ _ rfl (pNVMH_ne hk).1 (pNVMH_ne hk).2), State.fld_congr_reg (State.reg_congr hreg ..), ← hv,
      State.fld_congr_reg (State.reg_raise _ _ _ _ _ rfl), State.fld_count _ _ _ _ _ _ (by decide),
      State.fld_congr_reg (State.reg_served _ _ _ _ rfl (by decide) (by decide))]
    rfl

end Completion

/-! ## The statement -/

/-- The only command of a root port that goes to RECOVERY waits to be reissued (R415). -/
theorem State.ssdRecovery_only {s : State} {k : Nat} {c : NvmeCmd} (hk : k < 8) (hs : s.ssdState k = 2) (hc : s.stor.cmds = [c])
    (hdev : c.dev = k) : (s.ssdRecovery k).ssdState k = 3 ∧ (s.ssdRecovery k).Faulted (pNVMH k) 11 ∧
      (s.ssdRecovery k).stor.cmds = [{ c with at_ := none, abort := none }] ∧
      (s.ssdRecovery k).fld (pNVMH k) Off.nvmh_CNT_RESET 0 16 = min 65535 (s.fld (pNVMH k) Off.nvmh_CNT_RESET 0 16 + 1) := by
  obtain ⟨h1, h2, h3, h4⟩ := s.ssdRecovery_spec hk hs
  exact ⟨h1, h2, by simpa [hc, hdev] using h3, h4⟩

/-- Settles O40: each command's effect on the root port's registers and on the SSD, which the upkeep of the storage complex that
follows it keeps; the completion of a CTI command's operation runs through that upkeep. -/
theorem rootPortsAndSsds : Obligations.RootPortsAndSsds := by
  unfold Obligations.RootPortsAndSsds
  refine ⟨?enable, ?init, ?completion, ?timeouts, ?lanes, ?endpoint⟩
  case enable =>
    exact fun m k v s hk ho => ⟨fun hv he => nvmhEnable_spec hk ho hv he, fun hv he => nvmhDisable_spec hk ho hv he⟩
  case init =>
    intro k speed width queues cap rev vwc lba4k s hk ha hs
    exact ⟨ssdInitDone_ready_spec speed width rev vwc lba4k queues cap hk ha hs,
      ssdInitDone_unsupported_spec speed width rev vwc lba4k queues cap hk ha hs,
      ssdInitDone_again_spec speed width rev vwc lba4k queues cap ha hs,
      ssdInitDone_offline_spec speed width rev vwc lba4k queues cap hk ha hs⟩
  case completion =>
    intro k status cor uncor temp c s hk ha
    refine ⟨nvmeCompletion_health ha, fun hc hid hdev hat => ⟨?_, ?_, ?_, ?_⟩⟩
    · exact fun o ho hkind => nvmeCompletion_written cor uncor temp ha hc hid hdev hat ho hkind
    · intro o q tag x e hops hop hown hack hbuf hfail hcopies hq hf hcmd
      have hw : CtiWaits (s.served k cor uncor) o q tag x e := CtiWaits.served cor uncor ⟨hops, hown, hack, hbuf, hq, hf, hcmd⟩ k
      have hc' : (s.served k cor uncor).stor.cmds = [c] := by rw [State.served_stor, hc]
      constructor
      · have hp := hw.success hc' hfail hcopies
        rw [← State.completed_success] at hp
        obtain ⟨y, hy, -, hpost⟩ := hp.2
        exact ⟨_, nvmeCompletion_served 0 cor uncor temp ha hc hid hdev hat, hp.1, hp.ctiCmd, y, hy, hpost⟩
      · have hp := hw.failure hc' hop hfail hcopies
        rw [← State.completed_failure s k c (status := 2) cor uncor (by decide) (by decide)] at hp
        obtain ⟨h0, y, hy, -, hpost⟩ := hp
        exact ⟨_, nvmeCompletion_served 2 cor uncor temp ha hc hid hdev hat, h0, y, hy, hpost⟩
    · exact nvmeCompletion_retry cor uncor temp ha hc hid hdev hat
    · exact nvmeCompletion_error cor uncor temp hk ha hc hid hdev hat
  case timeouts =>
    intro k t c s hk ha hc hdev
    refine ⟨nvmeCmdTimeout_spec hk ha hc hdev, fun hab hs hto => ?_, fun hs => ?_⟩
    · obtain ⟨h1, h2, h3, -⟩ := State.ssdRecovery_only hk hs hc hdev
      exact ⟨_, nvmeAbortTimeout_exec ha hc hdev hab hs hto, h1, h2, h3⟩
    · exact ⟨_, cstsCfs_exec ha hs, State.ssdRecovery_only hk hs hc hdev⟩
  case lanes =>
    exact fun k lane s hk hlane ha hl => ⟨pcieLaneFail_first hk hlane ha hl, pcieLaneFail_last hk hlane ha hl⟩
  case endpoint =>
    intro lane s hlane hm
    have he : exec (.pcieLaneFail 8 lane) s = .next (s.onPlat fun t =>
        { t with epBad := Nat.lor t.epBad (2 ^ lane), epWidth := min t.epWidth (endpointWidth (Nat.lor t.epBad (2 ^ lane))) }) := by
      change execPcieLaneFail 8 lane s = _
      unfold execPcieLaneFail
      simp only [if_true, hm, Nat.not_le.2 hlane, Bool.not_true, decide_false, Bool.or_self, Bool.false_eq_true, if_false]
    exact ⟨_, he, rfl, rfl, rfl, rfl⟩

end Sys2Proof.Machine
end

section
/-!
SUPPORT. The clock (R51): what each command may change beside it. TIMEBASE_TICK moves it by one, and every other command, a restart
of the Coneda and a register write that asks for one among them, leaves it and the queue as they are.
-/

namespace Sys2Proof.Machine

open Sys2Proof

/-- Every field of State but the clock and the queue, as a mask of `Touches`. -/
abbrev allButClock : Nat := 50331647

theorem Ends.mono {K k : Nat} {s : State} {o : Step} (h : Ends k s o) (hk : Nat.land k K = k) : Ends K s o :=
  Ends.step (Touches.refl K s) h hk

theorem TouchesOpt.ite {K : Nat} {s : State} {a b : Option State} {c : Prop} [Decidable c] (ha : c → TouchesOpt K s a)
    (hb : ¬c → TouchesOpt K s b) : TouchesOpt K s (if c then a else b) := by
  split
  · next h => exact ha h
  · next h => exact hb h

/-- The state after a command that completes within a mask, as the answer of a routed register write. -/
theorem TouchesOpt.ofEnds {K k : Nat} {s : State} {o : Step} (h : Ends k s o) (hk : Nat.land k K = k) :
    TouchesOpt K s (Option.some (after s o)) := by
  obtain ⟨t, rfl, ht⟩ := h
  exact TouchesOpt.some (ht.mono hk)

/-! ## Restarts (R594, R631) -/

theorem State.wiped_clock (s : State) (a b c : Bool) : Touches allButClock s (s.wiped a b c) := by
  constructor
  case canonical => exact (State.wiped_touches s a b c).canonical
  case now | pending => exact fun _ => rfl
  all_goals exact fun h => absurd h (by decide)

theorem State.restart_clock (s : State) (cause step : Nat) : Touches allButClock s (s.restart cause step) := by
  unfold State.restart
  refine Touches.ite (fun _ => (State.setReg_touches ..).mono rfl) (fun _ => ?_)
  extract_lets dram s1 s2
  have h1 : Touches allButClock s s1 := ((State.wiped_clock ..).step (State.setReg_touches ..) rfl).step (State.putBit_touches ..) rfl
  have h2 : Touches allButClock s s2 := Touches.ite (fun _ => h1.step (State.fuseLoad_touches ..) rfl) (fun _ => h1)
  exact (h2.step (State.stepDone_touches ..) rfl).step (State.holdoverChange_touches ..) rfl

theorem State.restartReq_clock (s : State) (cause : Nat) : Touches allButClock s (s.restartReq cause) :=
  Touches.ite (fun _ => (State.onPower_touches ..).mono rfl) (fun _ => State.restart_clock ..)

theorem execWake_clock (s : State) : Ends allButClock s (execWake s) := by
  unfold execWake
  split
  · exact Ends.next (Touches.refl _ _)
  · extract_lets cause st s1
    have h1 : Touches allButClock s s1 := (State.onPower_touches ..).mono rfl
    refine Ends.ite (fun _ => Ends.next ?_) (fun _ => Ends.ite (fun _ => Ends.next ?_) (fun _ => Ends.next h1))
    · exact (h1.step (State.setReg_touches ..) rfl).step (State.standbyEnd_touches ..) rfl
    · exact (h1.step (State.restart_clock ..) rfl).step (State.setReg_touches ..) rfl

theorem execThermalRestart_clock (s : State) : Ends allButClock s (execThermalRestart s) :=
  Ends.ite (fun _ => Ends.next (Touches.refl _ _)) (fun _ => Ends.next (State.restart_clock ..))

theorem execStartUp_clock (upTo : Nat) (e : StartEnv) (s : State) : Ends allButClock s (execStartUp upTo e s) := by
  unfold execStartUp
  split
  · exact Ends.ite (fun _ => Ends.next (Touches.refl _ _)) fun _ => Ends.next
      ((((State.onPower_touches ..).mono rfl).step (State.restart_clock ..) rfl).step (State.startRun_touches ..) rfl)
  · exact Ends.ite (fun _ => Ends.next (Touches.refl _ _)) fun _ => Ends.next ((State.startRun_touches ..).mono rfl)

theorem execPwrGoodRise_clock (pfw ram : Bool) (s : State) : Ends allButClock s (execPwrGoodRise pfw ram s) :=
  Ends.ite (fun _ => Ends.next (Touches.refl _ _)) fun _ => Ends.next ((State.wiped_clock ..).step (State.onPower_touches ..) rfl)

theorem execPwrGoodFall_clock (s : State) : Ends allButClock s (execPwrGoodFall s) :=
  Ends.next ((State.wiped_clock ..).step (State.onPower_touches ..) rfl)

theorem execResetN_clock (level : Bool) (s : State) : Ends allButClock s (execResetN level s) := by
  unfold execResetN
  have h : Touches allButClock s (s.onPower fun w => { w with resetHeld := true }) := (State.onPower_touches ..).mono rfl
  refine Ends.ite (fun _ => Ends.next ((State.onPower_touches ..).mono rfl)) fun _ =>
    Ends.ite (fun _ => Ends.next (Touches.refl _ _)) fun _ => Ends.next ?_
  exact Touches.ite (fun _ => h.step (State.restartReq_clock ..) rfl) (fun _ => h)

theorem execResetCmd_clock (m : Master) (v : Word) (s : State) : Ends allButClock s (execResetCmd m v s) :=
  Ends.next (State.regWrite_touches (Touches.refl _ _) rfl fun _ h =>
    Touches.ite (fun _ => h.step (State.restartReq_clock ..) rfl) (fun _ => h))

theorem execPfwNRelease_clock (s : State) : Ends allButClock s (execPfwNRelease s) :=
  Ends.ite (fun _ => Ends.next ((State.onPower_touches ..).mono rfl)) fun _ =>
    Ends.ite (fun _ => Ends.next (State.restartReq_clock ..)) fun _ => Ends.next (Touches.refl _ _)

/-! ## Register writes, of which RESET_CMD asks for a restart -/

/-- A command register of the always-on pages: RESET_CMD restarts, and no other command there does. -/
theorem State.routeCore_clock (s : State) (m : Master) (p o : Nat) (v : Word) : TouchesOpt allButClock s (s.routeCore m p o v) := by
  have none : TouchesOpt allButClock s none := TouchesOpt.none _ s
  have bad : TouchesOpt allButClock s (some (s.badCmd m p o)) := TouchesOpt.some ((State.badCmd_touches ..).mono rfl)
  unfold State.routeCore
  split
  case h_1 => exact .ite (fun _ => .ofEnds (execResetCmd_clock ..) rfl) fun _ => none
  case h_2 =>
    refine .ite (fun _ => .ofEnds (execConfirm_touches ..) rfl) fun _ => .ite (fun _ => .ofEnds (execPref_touches ..) rfl) fun _ =>
      .ite (fun _ => .ofEnds (execVerAdv_touches ..) rfl) fun _ => .ite (fun _ => .ofEnds (execVerifyCmd_touches ..) rfl) fun _ =>
      .ite (fun _ => ?_) fun _ => none
    split
    · exact .ofEnds (execXspiRead_touches ..) rfl
    · exact .ofEnds (execXspiProgram_touches ..) rfl
    · exact .ofEnds (execXspiErase_touches ..) rfl
    · exact bad
  case h_3 =>
    refine .ite (fun _ => .some (State.regWrite_touches (Touches.refl _ _) rfl fun _ h => Touches.ite (fun _ => ?_) fun _ => h)) fun _ => none
    exact ((h.step (State.setReg_touches ..) rfl).step (State.setInt_touches ..) rfl).step (State.produce_touches ..) rfl
  case h_4 => exact .ite (fun _ => .ofEnds (execDomainOnRequest_touches ..) rfl) fun _ => none
  case h_5 =>
    refine .ite (fun _ => ?_) fun _ => none
    split
    · exact .ofEnds (execActiveRequest_touches ..) rfl
    · exact .ofEnds (execStandbyRequest_touches ..) rfl
    · exact .ofEnds (execDormantRequest_touches ..) rfl
  case h_6 =>
    exact .ite (fun _ => .ofEnds (execTimeCtrlWrite_touches ..) rfl) fun _ => .ite (fun _ => .ofEnds (execTimeSetGo_touches ..) rfl) fun _ =>
      .ite (fun _ => .ofEnds (execSnapGo_touches ..) rfl) fun _ => none
  case h_7 => exact .ite (fun _ => .ofEnds (execPosSet_touches ..) rfl) fun _ => none
  case h_8 =>
    refine .ite (fun _ => ?_) fun _ => none
    split
    · exact .ofEnds (execLoad_touches ..) rfl
    · exact .ofEnds (execCueStore_touches ..) rfl
    · exact .ofEnds (execDisarm_touches ..) rfl
    · exact .ofEnds (execClear_touches ..) rfl
    · exact bad
  case h_9 => exact .ite (fun _ => .ofEnds (execSwFire_touches ..) rfl) fun _ => none
  case h_10 => exact .ite (fun _ => .ofEnds (execPinCfgWrite_touches ..) rfl) fun _ => none
  case h_11 =>
    exact .ite (fun _ => .ofEnds (execFindCmd_touches ..) rfl) fun _ => .ite (fun _ => .ofEnds (execWrGo_touches ..) rfl) fun _ => none
  case h_12 =>
    exact .ite (fun _ => .ofEnds (execSwGo_touches ..) rfl) fun _ => .ite (fun _ => .ofEnds (execSnapCmd_touches ..) rfl) fun _ => none
  case h_13 =>
    refine .ite (fun _ => ?_) fun _ => none
    split
    · exact .ofEnds (execCondemn_touches ..) rfl
    · exact bad
  case h_14 =>
    exact .ite (fun _ => .ofEnds (execFnClr_touches ..) rfl) fun _ => .ite (fun _ => .ofEnds (execFnSwWrite_touches ..) rfl) fun _ =>
      .ite (fun _ => .ofEnds (execArm_touches ..) rfl) fun _ => .ite (fun _ => .ofEnds (execHbKick_touches ..) rfl) fun _ =>
      .ite (fun _ => .ofEnds (execLsTest_touches ..) rfl) fun _ => .ite (fun _ => .ofEnds (execEyeInj_touches ..) rfl) fun _ =>
      .ite (fun _ => .ofEnds (execViewClr_touches ..) rfl) fun _ => none
  case h_15 => exact none

theorem State.route_clock (s : State) (m : Master) (p o : Nat) (v : Word) : TouchesOpt allButClock s (s.route m p o v) := by
  unfold State.route
  refine .ite (fun _ => .none _ _) fun _ => .ite (fun _ => ?header) fun _ => ?block
  case header =>
    exact .ite (fun _ => .some ((State.ctrlWrite_touches ..).mono rfl)) fun _ => .ite (fun _ => .some ((State.shadowWrite_touches ..).mono rfl))
      fun _ => .ite (fun _ => .some ((State.lockWrite_touches ..).mono rfl)) fun _ => .ite (fun _ => .ofEnds (execFaultInject_touches ..) rfl)
      fun _ => .ite (fun _ => .ofEnds (execEventPortWrite_touches ..) rfl) fun _ => .none _ _
  case block =>
    exact .orElse (State.routeCore_clock s m p o v) (.orElse (.step (Touches.refl _ _) (State.routeData_touches s m p o v) rfl)
      (.step (Touches.refl _ _) (State.routeOut_touches s m p o v) rfl))

theorem State.writePage_clock (s : State) (m : Master) (p o : Nat) (v : Word) : Touches allButClock s (s.writePage m p o v) := by
  unfold State.writePage
  extract_lets t
  have ht : Touches allButClock s t := (State.shadowCommit_touches ..).mono rfl
  split
  · next u hu => exact ht.step (State.route_clock t m p o v u hu) rfl
  · have hg : Touches allButClock s (t.gateWrite m p o false).st := ht.step (State.gateWrite_touches ..) rfl
    exact Touches.ite (fun _ => hg) fun _ => Touches.ite (fun _ => hg.step (State.headerWrite_touches ..) rfl) fun _ =>
      hg.step (State.blockWrite_touches ..) rfl

/-- A write reaches the register pages, or a part of the machine that no restart hangs on. -/
theorem State.writeAt_clock (s : State) (m : Master) (a len v : Nat) : Touches allButClock s (s.writeAt m a len v) := by
  unfold State.writeAt
  extract_lets word o t
  refine Touches.ite (fun _ => Touches.ite (fun _ => State.writePage_clock ..) fun _ => ?_) fun _ => ?_
  · have ht : Touches allButClock s t := (State.badAccess_touches ..).mono rfl
    split
    · exact ht.step (State.answerErr_touches ..) rfl
    · exact ht
  · split
    · exact Touches.ite (fun _ => Touches.refl _ _) fun _ => Touches.ite (fun _ => (State.windowWrite_touches ..).mono rfl) fun _ =>
        Touches.ite (fun _ => (State.msixWrite_touches ..).mono rfl) fun _ => Touches.ite (fun _ => (State.cfgWrite_touches ..).mono rfl)
        fun _ => Touches.refl _ _
    · split
      · exact (State.busWrite_touches ..).mono rfl
      · exact Touches.refl _ _
    · exact Touches.ite (fun _ => (State.timerWrite_touches ..).mono rfl) fun _ => Touches.ite
        (fun _ => Touches.ite (fun _ => (State.plicWrite_touches ..).mono rfl) fun _ => (State.answerErr_touches ..).mono rfl)
        fun _ => Touches.ite (fun _ => (State.answerErr_touches ..).mono rfl) fun _ => (State.busWrite_touches ..).mono rfl

theorem execRegisterWrite_clock (m : Master) (a len v : Nat) (s : State) : Ends allButClock s (execRegisterWrite m a len v s) :=
  Ends.next (State.writeAt_clock ..)

theorem execMaintWrite_clock (addr data crc : Nat) (late : Bool) (s : State) :
    Ends allButClock s (execMaintWrite addr data crc late s) := by
  unfold execMaintWrite
  refine Ends.ite (fun _ => Ends.next (Touches.refl _ _)) fun _ => ?_
  extract_lets s1 p c s2 st
  clear_value c
  have h1 : Touches allButClock s s1 := (State.maintBegin_touches ..).mono rfl
  refine Ends.ite (fun _ => Ends.next ?_) fun _ => Ends.next ?_
  · exact ((h1.step (State.maintCrcErr_touches ..) rfl).step (State.onResp_touches ..) rfl).step (State.maintEnd_touches ..) rfl
  · have h2 : Touches allButClock s s2 := by
      unfold s2
      split
      · exact Touches.ite (fun _ => h1.step (State.writePage_clock ..) rfl) fun _ => h1.step (State.writeAt_clock ..) rfl
      · exact h1.step (State.maintRefused_touches ..) rfl
      · exact ((h1.step (State.badAccess_touches ..) rfl).step (State.maintRefused_touches ..) rfl).step (State.raise_touches ..) rfl
      · exact h1
    exact (h2.step (State.onResp_touches ..) rfl).step (State.maintEnd_touches ..) rfl

/-! ## Every command -/

/-- TIMEBASE_TICK moves the clock by one, and leaves the queue (R51). -/
theorem execTimebaseTick_clock (s : State) : ∃ u, execTimebaseTick s = .next u ∧ u.now = s.now + 1 ∧ u.pending = s.pending := by
  unfold execTimebaseTick
  extract_lets s1 s2 s3
  have h1 : Touches allButClock (s.onNow (· + 1)) s1 := (State.timeTick_touches ..).mono rfl
  have h2 : Touches allButClock (s.onNow (· + 1)) s2 := (h1.step (State.phaseTick_touches ..) rfl).step (State.phaseTick_touches ..) rfl
  have h3 : Touches allButClock (s.onNow (· + 1)) s3 :=
    (Touches.foldl h2 fun _ _ h => Touches.ite (fun _ => h) fun _ => h.step (State.lineTick_touches ..) rfl).step (State.linePairs_touches ..) rfl
  have h := ((h3.step (State.cuesTick_touches ..) rfl).step (State.dlkDrain_touches ..) rfl).step (State.fnUpdate_touches ..) rfl
  exact ⟨_, rfl, h.now rfl, h.pending rfl⟩

/-- Every command but TIMEBASE_TICK completes and leaves the clock and the queue as they are. -/
theorem exec_clock (c : Instr) (s : State) (h : c ≠ .timebaseTick) : Ends allButClock s (exec c s) := by
  cases c with
  | registerWrite _ _ _ _ => exact execRegisterWrite_clock ..
  | rcRead _ _ _ => exact (execRcRead_touches ..).mono rfl
  | rulerLowRead _ _ _ => exact (execRulerLowRead_touches ..).mono rfl
  | pgFenceWrite _ _ _ => exact (execPgFenceWrite_touches ..).mono rfl
  | softRst _ _ _ => exact (execSoftRst_touches ..).mono rfl
  | softResetDone _ => exact (execSoftResetDone_touches ..).mono rfl
  | pgFreezeWrite _ _ _ => exact (execPgFreezeWrite_touches ..).mono rfl
  | pgEnWrite _ _ _ => exact (execPgEnWrite_touches ..).mono rfl
  | eventPortWrite _ _ _ _ => exact (execEventPortWrite_touches ..).mono rfl
  | commit _ _ _ => exact (execCommit_touches ..).mono rfl
  | cancel _ _ _ => exact (execCancel_touches ..).mono rfl
  | shadowCommit _ => exact (execShadowCommit_touches ..).mono rfl
  | pgLockUnlock _ _ _ => exact (execPgLockUnlock_touches ..).mono rfl
  | unlockLapse _ => exact (execUnlockLapse_touches ..).mono rfl
  | regTimeout _ _ _ _ => exact (execRegTimeout_touches ..).mono rfl
  | busTimeout _ => exact (execBusTimeout_touches ..).mono rfl
  | fabricTransaction _ _ => exact (execFabricTransaction_touches ..).mono rfl
  | dramAccess _ _ _ _ _ _ => exact (execDramAccess_touches ..).mono rfl
  | refreshWindow _ => exact (execRefreshWindow_touches ..).mono rfl
  | dramScrubStep _ _ _ => exact (execDramScrubStep_touches ..).mono rfl
  | dramBgSweep _ _ _ _ _ => exact (execDramBgSweep_touches ..).mono rfl
  | marginCheck _ _ _ => exact (execMarginCheck_touches ..).mono rfl
  | wckOscRead _ _ => exact (execWckOscRead_touches ..).mono rfl
  | resWrite _ _ _ => exact (execResWrite_touches ..).mono rfl
  | bankHashWrite _ _ _ => exact (execBankHashWrite_touches ..).mono rfl
  | topoWrite _ _ => exact (execTopoWrite_touches ..).mono rfl
  | laneCfgWrite _ _ _ => exact (execLaneCfgWrite_touches ..).mono rfl
  | timebaseTick => exact absurd rfl h
  | snapGo _ _ => exact (execSnapGo_touches ..).mono rfl
  | snapshotStrobe => exact (execSnapshotStrobe_touches ..).mono rfl
  | timeSetGo _ _ => exact (execTimeSetGo_touches ..).mono rfl
  | timeCtrlWrite _ _ => exact (execTimeCtrlWrite_touches ..).mono rfl
  | encoderEdge _ _ _ => exact (execEncoderEdge_touches ..).mono rfl
  | encoderIndexEdge _ _ => exact (execEncoderIndexEdge_touches ..).mono rfl
  | posSet _ _ _ => exact (execPosSet_touches ..).mono rfl
  | stillTimeout _ => exact (execStillTimeout_touches ..).mono rfl
  | slipDwell _ => exact (execSlipDwell_touches ..).mono rfl
  | phaseCrossing _ _ _ => exact (execPhaseCrossing_touches ..).mono rfl
  | phaseCrossingTimeout _ => exact (execPhaseCrossingTimeout_touches ..).mono rfl
  | phaseHoldExpiry _ => exact (execPhaseHoldExpiry_touches ..).mono rfl
  | load _ _ => exact (execLoad_touches ..).mono rfl
  | cueStore _ _ => exact (execCueStore_touches ..).mono rfl
  | disarm _ _ => exact (execDisarm_touches ..).mono rfl
  | clear _ _ => exact (execClear_touches ..).mono rfl
  | headLineStart _ _ _ => exact (execHeadLineStart_touches ..).mono rfl
  | llSensorTimeout _ => exact (execLlSensorTimeout_touches ..).mono rfl
  | headLineOut _ _ => exact (execHeadLineOut_touches ..).mono rfl
  | csi2Packet _ _ _ _ _ _ => exact (execCsi2Packet_touches ..).mono rfl
  | deskewSequence _ _ => exact (execDeskewSequence_touches ..).mono rfl
  | dlkBlockLockAcquired _ _ => exact (execDlkBlockLockAcquired_touches ..).mono rfl
  | dlkBlockLockLost _ _ _ _ => exact (execDlkBlockLockLost_touches ..).mono rfl
  | dlkIdleBlock _ _ _ => exact (execDlkIdleBlock_touches ..).mono rfl
  | dlkElasticUnderflow _ _ _ => exact (execDlkElasticUnderflow_touches ..).mono rfl
  | dlkAlignBlock _ _ _ _ _ => exact (execDlkAlignBlock_touches ..).mono rfl
  | dlkMarkerTimeout _ _ => exact (execDlkMarkerTimeout_touches ..).mono rfl
  | dlkSpareMapTimeout _ => exact (execDlkSpareMapTimeout_touches ..).mono rfl
  | laneReturns _ _ => exact (execLaneReturns_touches ..).mono rfl
  | dlkFrameStart _ _ => exact (execDlkFrameStart_touches ..).mono rfl
  | dlkLine _ _ _ _ => exact (execDlkLine_touches ..).mono rfl
  | dlkFrameEnd _ _ => exact (execDlkFrameEnd_touches ..).mono rfl
  | bcmsg _ _ => exact (execBcmsg_touches ..).mono rfl
  | dlkTimeSend _ => exact (execDlkTimeSend_touches ..).mono rfl
  | ping _ => exact (execPing_touches ..).mono rfl
  | trigger _ _ => exact (execTrigger_touches ..).mono rfl
  | bcTxGo _ _ _ => exact (execBcTxGo_touches ..).mono rfl
  | bcTimeout _ _ => exact (execBcTimeout_touches ..).mono rfl
  | dlkEnable _ _ _ => exact (execDlkEnable_touches ..).mono rfl
  | dlkDisable _ _ _ => exact (execDlkDisable_touches ..).mono rfl
  | strmLoad _ => exact (execStrmLoad_touches ..).mono rfl
  | strmStore _ => exact (execStrmStore_touches ..).mono rfl
  | stop _ => exact (execStop_touches ..).mono rfl
  | stopNow _ => exact (execStopNow_touches ..).mono rfl
  | captureFrameStart _ _ => exact (execCaptureFrameStart_touches ..).mono rfl
  | captureLine _ => exact (execCaptureLine_touches ..).mono rfl
  | captureFrameEnd _ => exact (execCaptureFrameEnd_touches ..).mono rfl
  | frameTimeout _ => exact (execFrameTimeout_touches ..).mono rfl
  | seqWriteAck _ => exact (execSeqWriteAck_touches ..).mono rfl
  | seqWriteFail _ => exact (execSeqWriteFail_touches ..).mono rfl
  | i3cCmd _ _ _ => exact (execI3cCmd_touches ..).mono rfl
  | i3cTransferDone _ _ _ => exact (execI3cTransferDone_touches ..).mono rfl
  | i3cIbi _ _ _ => exact (execI3cIbi_touches ..).mono rfl
  | ctxLoad _ _ => exact (execCtxLoad_touches ..).mono rfl
  | ctxStore _ _ => exact (execCtxStore_touches ..).mono rfl
  | start _ _ => exact (execStart_touches ..).mono rfl
  | ctxStop _ _ => exact (execCtxStop_touches ..).mono rfl
  | ctxStopNow _ _ => exact (execCtxStopNow_touches ..).mono rfl
  | pipeFrameAccept _ _ => exact (execPipeFrameAccept_touches ..).mono rfl
  | pipeMemDescTake _ _ => exact (execPipeMemDescTake_touches ..).mono rfl
  | pipeContextSwitch _ => exact (execPipeContextSwitch_touches ..).mono rfl
  | pipeRunStart _ => exact (execPipeRunStart_touches ..).mono rfl
  | tableLoadDone _ => exact (execTableLoadDone_touches ..).mono rfl
  | lutLoadDone _ => exact (execLutLoadDone_touches ..).mono rfl
  | safetyLate _ _ => exact (execSafetyLate_touches ..).mono rfl
  | pipeLine _ _ => exact (execPipeLine_touches ..).mono rfl
  | saveFault _ _ => exact (execSaveFault_touches ..).mono rfl
  | branchProgress _ _ _ => exact (execBranchProgress_touches ..).mono rfl
  | branchComplete _ _ _ => exact (execBranchComplete_touches ..).mono rfl
  | statsBlockDone _ _ => exact (execStatsBlockDone_touches ..).mono rfl
  | pipeFrameDone _ _ => exact (execPipeFrameDone_touches ..).mono rfl
  | psetPush _ _ _ => exact (execPsetPush_touches ..).mono rfl
  | tblDataRead _ _ _ => exact (execTblDataRead_touches ..).mono rfl
  | brLoad _ _ _ => exact (execBrLoad_touches ..).mono rfl
  | brStore _ _ _ => exact (execBrStore_touches ..).mono rfl
  | thrStart _ _ => exact (execThrStart_touches ..).mono rfl
  | park _ _ => exact (execPark_touches ..).mono rfl
  | thrReset _ _ => exact (execThrReset_touches ..).mono rfl
  | threadWaitEnd _ _ => exact (execThreadWaitEnd_touches ..).mono rfl
  | itemTimeout _ _ => exact (execItemTimeout_touches ..).mono rfl
  | watchdog _ => exact (execWatchdog_touches ..).mono rfl
  | illegalInstruction _ _ _ => exact (execIllegalInstruction_touches ..).mono rfl
  | nop _ _ => exact (execNop_touches ..).mono rfl
  | fence _ _ => exact (execFence_touches ..).mono rfl
  | eret _ _ => exact (execEret_touches ..).mono rfl
  | trap _ _ => exact (execTrap_touches ..).mono rfl
  | csrr _ _ => exact (execCsrr_touches ..).mono rfl
  | csrw _ _ => exact (execCsrw_touches ..).mono rfl
  | yield _ _ => exact (execYield_touches ..).mono rfl
  | exit _ _ => exact (execExit_touches ..).mono rfl
  | add _ _ => exact (execAdd_touches ..).mono rfl
  | sub _ _ => exact (execSub_touches ..).mono rfl
  | and_ _ _ => exact (execAnd_touches ..).mono rfl
  | or_ _ _ => exact (execOr_touches ..).mono rfl
  | xor_ _ _ => exact (execXor_touches ..).mono rfl
  | sll _ _ => exact (execSll_touches ..).mono rfl
  | srl _ _ => exact (execSrl_touches ..).mono rfl
  | sra _ _ => exact (execSra_touches ..).mono rfl
  | slt _ _ => exact (execSlt_touches ..).mono rfl
  | sltu _ _ => exact (execSltu_touches ..).mono rfl
  | min _ _ => exact (execMin_touches ..).mono rfl
  | max _ _ => exact (execMax_touches ..).mono rfl
  | minu _ _ => exact (execMinu_touches ..).mono rfl
  | maxu _ _ => exact (execMaxu_touches ..).mono rfl
  | mul _ _ => exact (execMul_touches ..).mono rfl
  | mulh _ _ => exact (execMulh_touches ..).mono rfl
  | mulhu _ _ => exact (execMulhu_touches ..).mono rfl
  | sextb _ _ => exact (execSextb_touches ..).mono rfl
  | sexth _ _ => exact (execSexth_touches ..).mono rfl
  | clz _ _ => exact (execClz_touches ..).mono rfl
  | popc _ _ => exact (execPopc_touches ..).mono rfl
  | addi _ _ => exact (execAddi_touches ..).mono rfl
  | andi _ _ => exact (execAndi_touches ..).mono rfl
  | ori _ _ => exact (execOri_touches ..).mono rfl
  | xori _ _ => exact (execXori_touches ..).mono rfl
  | slti _ _ => exact (execSlti_touches ..).mono rfl
  | lui _ _ => exact (execLui_touches ..).mono rfl
  | shi _ _ => exact (execShi_touches ..).mono rfl
  | fadd _ _ => exact (execFadd_touches ..).mono rfl
  | fsub _ _ => exact (execFsub_touches ..).mono rfl
  | fmul _ _ => exact (execFmul_touches ..).mono rfl
  | fma _ _ => exact (execFma_touches ..).mono rfl
  | fmin _ _ => exact (execFmin_touches ..).mono rfl
  | fmax _ _ => exact (execFmax_touches ..).mono rfl
  | feq _ _ => exact (execFeq_touches ..).mono rfl
  | flt _ _ => exact (execFlt_touches ..).mono rfl
  | fle _ _ => exact (execFle_touches ..).mono rfl
  | fcvtws _ _ => exact (execFcvtws_touches ..).mono rfl
  | fcvtsw _ _ => exact (execFcvtsw_touches ..).mono rfl
  | frcp _ _ => exact (execFrcp_touches ..).mono rfl
  | frsq _ _ => exact (execFrsq_touches ..).mono rfl
  | fabs _ _ => exact (execFabs_touches ..).mono rfl
  | fneg _ _ => exact (execFneg_touches ..).mono rfl
  | lw _ _ _ => exact (execLw_touches ..).mono rfl
  | sw _ _ => exact (execSw_touches ..).mono rfl
  | lhu _ _ _ => exact (execLhu_touches ..).mono rfl
  | sh _ _ => exact (execSh_touches ..).mono rfl
  | lbu _ _ _ => exact (execLbu_touches ..).mono rfl
  | sb _ _ => exact (execSb_touches ..).mono rfl
  | beq _ _ => exact (execBeq_touches ..).mono rfl
  | bne _ _ => exact (execBne_touches ..).mono rfl
  | blt _ _ => exact (execBlt_touches ..).mono rfl
  | bge _ _ => exact (execBge_touches ..).mono rfl
  | bltu _ _ => exact (execBltu_touches ..).mono rfl
  | bgeu _ _ => exact (execBgeu_touches ..).mono rfl
  | jal _ _ => exact (execJal_touches ..).mono rfl
  | jalr _ _ => exact (execJalr_touches ..).mono rfl
  | loop _ _ => exact (execLoop_touches ..).mono rfl
  | vadd _ _ => exact (execVadd_touches ..).mono rfl
  | vsub _ _ => exact (execVsub_touches ..).mono rfl
  | vadds _ _ => exact (execVadds_touches ..).mono rfl
  | vsubs _ _ => exact (execVsubs_touches ..).mono rfl
  | vaddus _ _ => exact (execVaddus_touches ..).mono rfl
  | vsubus _ _ => exact (execVsubus_touches ..).mono rfl
  | vand _ _ => exact (execVand_touches ..).mono rfl
  | vor _ _ => exact (execVor_touches ..).mono rfl
  | vxor _ _ => exact (execVxor_touches ..).mono rfl
  | vsll _ _ => exact (execVsll_touches ..).mono rfl
  | vsrl _ _ => exact (execVsrl_touches ..).mono rfl
  | vsra _ _ => exact (execVsra_touches ..).mono rfl
  | vmin _ _ => exact (execVmin_touches ..).mono rfl
  | vmax _ _ => exact (execVmax_touches ..).mono rfl
  | vminu _ _ => exact (execVminu_touches ..).mono rfl
  | vmaxu _ _ => exact (execVmaxu_touches ..).mono rfl
  | vmul _ _ => exact (execVmul_touches ..).mono rfl
  | vmulh _ _ => exact (execVmulh_touches ..).mono rfl
  | vmulhrs _ _ => exact (execVmulhrs_touches ..).mono rfl
  | vabsd _ _ => exact (execVabsd_touches ..).mono rfl
  | vavg _ _ => exact (execVavg_touches ..).mono rfl
  | vsel _ _ => exact (execVsel_touches ..).mono rfl
  | vmov _ _ => exact (execVmov_touches ..).mono rfl
  | vbcast _ _ => exact (execVbcast_touches ..).mono rfl
  | vnarrow _ _ => exact (execVnarrow_touches ..).mono rfl
  | vwidenl _ _ => exact (execVwidenl_touches ..).mono rfl
  | vwidenh _ _ => exact (execVwidenh_touches ..).mono rfl
  | vwidenlu _ _ => exact (execVwidenlu_touches ..).mono rfl
  | vwidenhu _ _ => exact (execVwidenhu_touches ..).mono rfl
  | vslli _ _ => exact (execVslli_touches ..).mono rfl
  | vsrli _ _ => exact (execVsrli_touches ..).mono rfl
  | vsrai _ _ => exact (execVsrai_touches ..).mono rfl
  | vfadd _ _ => exact (execVfadd_touches ..).mono rfl
  | vfsub _ _ => exact (execVfsub_touches ..).mono rfl
  | vfmul _ _ => exact (execVfmul_touches ..).mono rfl
  | vfma _ _ => exact (execVfma_touches ..).mono rfl
  | vfmin _ _ => exact (execVfmin_touches ..).mono rfl
  | vfmax _ _ => exact (execVfmax_touches ..).mono rfl
  | vfcvtws _ _ => exact (execVfcvtws_touches ..).mono rfl
  | vfcvtsw _ _ => exact (execVfcvtsw_touches ..).mono rfl
  | vfrcp _ _ => exact (execVfrcp_touches ..).mono rfl
  | vfrsq _ _ => exact (execVfrsq_touches ..).mono rfl
  | vfabs _ _ => exact (execVfabs_touches ..).mono rfl
  | vfcvtsh _ _ => exact (execVfcvtsh_touches ..).mono rfl
  | vfcvtshh _ _ => exact (execVfcvtshh_touches ..).mono rfl
  | vfcvths _ _ => exact (execVfcvths_touches ..).mono rfl
  | vfbcast _ _ => exact (execVfbcast_touches ..).mono rfl
  | vmacH _ _ => exact (execVmacH_touches ..).mono rfl
  | vdot2H _ _ => exact (execVdot2H_touches ..).mono rfl
  | vmacsH _ _ => exact (execVmacsH_touches ..).mono rfl
  | vmacW _ _ => exact (execVmacW_touches ..).mono rfl
  | vmsubH _ _ => exact (execVmsubH_touches ..).mono rfl
  | accz _ _ => exact (execAccz_touches ..).mono rfl
  | accldH _ _ => exact (execAccldH_touches ..).mono rfl
  | accrH _ _ => exact (execAccrH_touches ..).mono rfl
  | accr2W _ _ => exact (execAccr2W_touches ..).mono rfl
  | accrwW _ _ => exact (execAccrwW_touches ..).mono rfl
  | vslide _ _ => exact (execVslide_touches ..).mono rfl
  | vshuf _ _ => exact (execVshuf_touches ..).mono rfl
  | vzipl _ _ => exact (execVzipl_touches ..).mono rfl
  | vziph _ _ => exact (execVziph_touches ..).mono rfl
  | vunzipe _ _ => exact (execVunzipe_touches ..).mono rfl
  | vunzipo _ _ => exact (execVunzipo_touches ..).mono rfl
  | vext _ _ => exact (execVext_touches ..).mono rfl
  | vins _ _ => exact (execVins_touches ..).mono rfl
  | vrev _ _ => exact (execVrev_touches ..).mono rfl
  | vcmpEq _ _ => exact (execVcmpEq_touches ..).mono rfl
  | vcmpNe _ _ => exact (execVcmpNe_touches ..).mono rfl
  | vcmpLt _ _ => exact (execVcmpLt_touches ..).mono rfl
  | vcmpLe _ _ => exact (execVcmpLe_touches ..).mono rfl
  | vcmpLtu _ _ => exact (execVcmpLtu_touches ..).mono rfl
  | vcmpLeu _ _ => exact (execVcmpLeu_touches ..).mono rfl
  | mand _ _ => exact (execMand_touches ..).mono rfl
  | mor _ _ => exact (execMor_touches ..).mono rfl
  | mxor _ _ => exact (execMxor_touches ..).mono rfl
  | mnot _ _ => exact (execMnot_touches ..).mono rfl
  | mset _ _ => exact (execMset_touches ..).mono rfl
  | vrsum _ _ => exact (execVrsum_touches ..).mono rfl
  | vrmin _ _ => exact (execVrmin_touches ..).mono rfl
  | vrmax _ _ => exact (execVrmax_touches ..).mono rfl
  | vrminu _ _ => exact (execVrminu_touches ..).mono rfl
  | vrmaxu _ _ => exact (execVrmaxu_touches ..).mono rfl
  | mget _ _ => exact (execMget_touches ..).mono rfl
  | mcount _ _ => exact (execMcount_touches ..).mono rfl
  | vld _ _ _ => exact (execVld_touches ..).mono rfl
  | vst _ _ => exact (execVst_touches ..).mono rfl
  | vldu _ _ _ => exact (execVldu_touches ..).mono rfl
  | vstm _ _ => exact (execVstm_touches ..).mono rfl
  | vgath _ _ _ _ => exact (execVgath_touches ..).mono rfl
  | vscat _ _ => exact (execVscat_touches ..).mono rfl
  | qtake _ _ => exact (execQtake_touches ..).mono rfl
  | qtry _ _ => exact (execQtry_touches ..).mono rfl
  | qpush _ _ => exact (execQpush_touches ..).mono rfl
  | qpushnb _ _ => exact (execQpushnb_touches ..).mono rfl
  | qdone _ _ => exact (execQdone_touches ..).mono rfl
  | qrel _ _ => exact (execQrel_touches ..).mono rfl
  | qlevel _ _ => exact (execQlevel_touches ..).mono rfl
  | dmaq _ _ _ => exact (execDmaq_touches ..).mono rfl
  | dmaw _ _ => exact (execDmaw_touches ..).mono rfl
  | dmat _ _ => exact (execDmat_touches ..).mono rfl
  | dmarst _ _ => exact (execDmarst_touches ..).mono rfl
  | dmaDescComplete _ _ _ _ _ => exact (execDmaDescComplete_touches ..).mono rfl
  | amoadd _ _ _ => exact (execAmoadd_touches ..).mono rfl
  | amoswap _ _ _ => exact (execAmoswap_touches ..).mono rfl
  | amomin _ _ _ => exact (execAmomin_touches ..).mono rfl
  | amomax _ _ _ => exact (execAmomax_touches ..).mono rfl
  | amominu _ _ _ => exact (execAmominu_touches ..).mono rfl
  | amomaxu _ _ _ => exact (execAmomaxu_touches ..).mono rfl
  | amocas _ _ _ => exact (execAmocas_touches ..).mono rfl
  | bar _ _ => exact (execBar_touches ..).mono rfl
  | sigev _ _ => exact (execSigev_touches ..).mono rfl
  | waitev _ _ => exact (execWaitev_touches ..).mono rfl
  | testev _ _ => exact (execTestev_touches ..).mono rfl
  | engineEventIn _ _ => exact (execEngineEventIn_touches ..).mono rfl
  | loadCtrlGo _ _ _ => exact (execLoadCtrlGo_touches ..).mono rfl
  | programLoadDone _ => exact (execProgramLoadDone_touches ..).mono rfl
  | bistCmd _ _ _ => exact (execBistCmd_touches ..).mono rfl
  | engineBistDone _ _ => exact (execEngineBistDone_touches ..).mono rfl
  | sessLoad _ _ => exact (execSessLoad_touches ..).mono rfl
  | sessStore _ _ => exact (execSessStore_touches ..).mono rfl
  | sessStop _ _ => exact (execSessStop_touches ..).mono rfl
  | sessStopNow _ _ => exact (execSessStopNow_touches ..).mono rfl
  | setRate _ _ => exact (execSetRate_touches ..).mono rfl
  | forceIdr _ _ => exact (execForceIdr_touches ..).mono rfl
  | flush _ _ => exact (execFlush_touches ..).mono rfl
  | codecSessionSwitch _ => exact (execCodecSessionSwitch_touches ..).mono rfl
  | gangWrite _ _ _ => exact (execGangWrite_touches ..).mono rfl
  | encPictureStart _ _ _ => exact (execEncPictureStart_touches ..).mono rfl
  | hencProgressEvent _ _ _ => exact (execHencProgressEvent_touches ..).mono rfl
  | encCtbCoded _ _ _ _ _ _ => exact (execEncCtbCoded_touches ..).mono rfl
  | encSliceDone _ _ => exact (execEncSliceDone_touches ..).mono rfl
  | xsSlice _ _ _ => exact (execXsSlice_touches ..).mono rfl
  | decChunk _ => exact (execDecChunk_touches ..).mono rfl
  | decAccessUnit _ _ _ => exact (execDecAccessUnit_touches ..).mono rfl
  | decPictureOutput _ => exact (execDecPictureOutput_touches ..).mono rfl
  | hpdRise _ => exact (execHpdRise_touches ..).mono rfl
  | hpdLossTimeout _ => exact (execHpdLossTimeout_touches ..).mono rfl
  | hpdIrq _ _ => exact (execHpdIrq_touches ..).mono rfl
  | linkTrainDone _ _ => exact (execLinkTrainDone_touches ..).mono rfl
  | auxNativeWrite _ _ _ => exact (execAuxNativeWrite_touches ..).mono rfl
  | auxNativeRead _ _ _ => exact (execAuxNativeRead_touches ..).mono rfl
  | auxI2cWrite _ _ _ => exact (execAuxI2cWrite_touches ..).mono rfl
  | auxI2cRead _ _ _ => exact (execAuxI2cRead_touches ..).mono rfl
  | auxDone _ _ _ => exact (execAuxDone_touches ..).mono rfl
  | vblankStart _ => exact (execVblankStart_touches ..).mono rfl
  | lineMatch _ => exact (execLineMatch_touches ..).mono rfl
  | headFrameStart _ => exact (execHeadFrameStart_touches ..).mono rfl
  | frameDone _ => exact (execFrameDone_touches ..).mono rfl
  | pairCommitTimeout _ => exact (execPairCommitTimeout_touches ..).mono rfl
  | headEnable _ => exact (execHeadEnable_touches ..).mono rfl
  | headDisable _ => exact (execHeadDisable_touches ..).mono rfl
  | eyeRegionDecide _ _ => exact (execEyeRegionDecide_touches ..).mono rfl
  | safeClr _ _ _ => exact (execSafeClr_touches ..).mono rfl
  | tdmStart _ _ => exact (execTdmStart_touches ..).mono rfl
  | tdmStop _ _ => exact (execTdmStop_touches ..).mono rfl
  | tdmStopNow _ _ => exact (execTdmStopNow_touches ..).mono rfl
  | tdmFrameSync _ _ _ => exact (execTdmFrameSync_touches ..).mono rfl
  | tdmFsEdge _ _ _ _ => exact (execTdmFsEdge_touches ..).mono rfl
  | tdmFsLost _ => exact (execTdmFsLost_touches ..).mono rfl
  | swcReadDone _ _ => exact (execSwcReadDone_touches ..).mono rfl
  | swCountWrite _ _ _ => exact (execSwCountWrite_touches ..).mono rfl
  | tdmPeriodPost _ => exact (execTdmPeriodPost_touches ..).mono rfl
  | macCfgWrite _ _ _ => exact (execMacCfgWrite_touches ..).mono rfl
  | macLinkUp _ _ => exact (execMacLinkUp_touches ..).mono rfl
  | macLinkDown _ _ => exact (execMacLinkDown_touches ..).mono rfl
  | macTxStart _ _ => exact (execMacTxStart_touches ..).mono rfl
  | macTxComplete _ => exact (execMacTxComplete_touches ..).mono rfl
  | gateEntryChange _ => exact (execGateEntryChange_touches ..).mono rfl
  | gateCommit _ _ _ => exact (execGateCommit_touches ..).mono rfl
  | gateConfigChange _ => exact (execGateConfigChange_touches ..).mono rfl
  | cbsWrite _ _ _ _ => exact (execCbsWrite_touches ..).mono rfl
  | preemptVerify _ _ => exact (execPreemptVerify_touches ..).mono rfl
  | macRxFrame _ _ _ _ _ _ _ _ => exact (execMacRxFrame_touches ..).mono rfl
  | recoveryResetTimeout _ => exact (execRecoveryResetTimeout_touches ..).mono rfl
  | reorderTimeout _ => exact (execReorderTimeout_touches ..).mono rfl
  | filtLoad _ _ => exact (execFiltLoad_touches ..).mono rfl
  | filtStore _ _ => exact (execFiltStore_touches ..).mono rfl
  | clearBlock _ _ => exact (execClearBlock_touches ..).mono rfl
  | recLoad _ _ => exact (execRecLoad_touches ..).mono rfl
  | recStore _ _ => exact (execRecStore_touches ..).mono rfl
  | recReset _ _ => exact (execRecReset_touches ..).mono rfl
  | flowLoad _ => exact (execFlowLoad_touches ..).mono rfl
  | flowStore _ => exact (execFlowStore_touches ..).mono rfl
  | flowStop _ => exact (execFlowStop_touches ..).mono rfl
  | gclReadAdmin _ _ => exact (execGclReadAdmin_touches ..).mono rfl
  | gclWriteAdmin _ _ => exact (execGclWriteAdmin_touches ..).mono rfl
  | gclReadOper _ _ => exact (execGclReadOper_touches ..).mono rfl
  | ptpSync _ _ _ _ _ _ => exact (execPtpSync_touches ..).mono rfl
  | ptpFollowUp _ _ _ _ _ => exact (execPtpFollowUp_touches ..).mono rfl
  | ptpAnnounce _ _ => exact (execPtpAnnounce_touches ..).mono rfl
  | ptpReceiptTimeout _ _ => exact (execPtpReceiptTimeout_touches ..).mono rfl
  | ptpPdelayTimer _ => exact (execPtpPdelayTimer_touches ..).mono rfl
  | ptpPdelayResp _ _ _ _ _ => exact (execPtpPdelayResp_touches ..).mono rfl
  | ptpPdelayReqReceived _ _ => exact (execPtpPdelayReqReceived_touches ..).mono rfl
  | accept _ => exact (execAccept_touches ..).mono rfl
  | discard _ => exact (execDiscard_touches ..).mono rfl
  | nvmhEnable _ _ _ => exact (execNvmhEnable_touches ..).mono rfl
  | ssdInitDone _ _ _ _ _ _ _ _ _ => exact (execSsdInitDone_touches ..).mono rfl
  | nvmhDisable _ _ _ => exact (execNvmhDisable_touches ..).mono rfl
  | nvmeCompletion _ _ _ _ _ _ => exact (execNvmeCompletion_touches ..).mono rfl
  | nvmeCmdTimeout _ _ => exact (execNvmeCmdTimeout_touches ..).mono rfl
  | nvmeAbortTimeout _ _ => exact (execNvmeAbortTimeout_touches ..).mono rfl
  | pcieLaneFail _ _ => exact (execPcieLaneFail_touches ..).mono rfl
  | nsLoad _ => exact (execNsLoad_touches ..).mono rfl
  | nsStore _ => exact (execNsStore_touches ..).mono rfl
  | nsDisable _ => exact (execNsDisable_touches ..).mono rfl
  | dirtyCleanTimeout _ _ => exact (execDirtyCleanTimeout_touches ..).mono rfl
  | recSessLoad _ => exact (execRecSessLoad_touches ..).mono rfl
  | recSessStore _ => exact (execRecSessStore_touches ..).mono rfl
  | recSessStop _ => exact (execRecSessStop_touches ..).mono rfl
  | recItemTake _ => exact (execRecItemTake_touches ..).mono rfl
  | indexFlushTimeout _ => exact (execIndexFlushTimeout_touches ..).mono rfl
  | recItemReturn _ => exact (execRecItemReturn_touches ..).mono rfl
  | ctiEnable _ => exact (execCtiEnable_touches ..).mono rfl
  | ctiDisable _ => exact (execCtiDisable_touches ..).mono rfl
  | sqTail _ _ => exact (execSqTail_touches ..).mono rfl
  | cqHead _ _ => exact (execCqHead_touches ..).mono rfl
  | ctiCommandFetch _ _ _ _ => exact (execCtiCommandFetch_touches ..).mono rfl
  | read _ _ => exact (execRead_touches ..).mono rfl
  | write _ _ _ _ => exact (execWrite_touches ..).mono rfl
  | ctiFlush _ _ => exact (execCtiFlush_touches ..).mono rfl
  | trim _ _ => exact (execTrim_touches ..).mono rfl
  | identify _ => exact (execIdentify_touches ..).mono rfl
  | createQueue _ => exact (execCreateQueue_touches ..).mono rfl
  | deleteQueue _ => exact (execDeleteQueue_touches ..).mono rfl
  | abort _ => exact (execAbort_touches ..).mono rfl
  | getLog _ => exact (execGetLog_touches ..).mono rfl
  | format _ => exact (execFormat_touches ..).mono rfl
  | sanitise _ => exact (execSanitise_touches ..).mono rfl
  | formatPartDone _ => exact (execFormatPartDone_touches ..).mono rfl
  | ctiCompletionPost _ => exact (execCtiCompletionPost_touches ..).mono rfl
  | ctiAggTimeout _ => exact (execCtiAggTimeout_touches ..).mono rfl
  | functionLevelReset => exact (execFunctionLevelReset_touches ..).mono rfl
  | qLoad _ => exact (execQLoad_touches ..).mono rfl
  | qStore _ => exact (execQStore_touches ..).mono rfl
  | enable _ => exact (execEnable_touches ..).mono rfl
  | disable _ => exact (execDisable_touches ..).mono rfl
  | pin _ => exact (execPin_touches ..).mono rfl
  | unpin _ => exact (execUnpin_touches ..).mono rfl
  | setClass _ => exact (execSetClass_touches ..).mono rfl
  | queuePush _ _ _ _ => exact (execQueuePush_touches ..).mono rfl
  | pushBufferDrain _ => exact (execPushBufferDrain_touches ..).mono rfl
  | pushTimeout _ => exact (execPushTimeout_touches ..).mono rfl
  | queueTake _ _ _ => exact (execQueueTake_touches ..).mono rfl
  | pushGo _ _ _ => exact (execPushGo_touches ..).mono rfl
  | takeGo _ _ _ => exact (execTakeGo_touches ..).mono rfl
  | qstateBaseWrite _ _ _ => exact (execQstateBaseWrite_touches ..).mono rfl
  | gLoad _ => exact (execGLoad_touches ..).mono rfl
  | gStore _ => exact (execGStore_touches ..).mono rfl
  | gDisable _ => exact (execGDisable_touches ..).mono rfl
  | eventDeliver _ => exact (execEventDeliver_touches ..).mono rfl
  | minGapExpiry _ => exact (execMinGapExpiry_touches ..).mono rfl
  | rateWindowEnd => exact (execRateWindowEnd_touches ..).mono rfl
  | swFire _ _ => exact (execSwFire_touches ..).mono rfl
  | pinInputEdge _ _ => exact (execPinInputEdge_touches ..).mono rfl
  | pinPulseEnd _ => exact (execPinPulseEnd_touches ..).mono rfl
  | pinCfgWrite _ _ _ => exact (execPinCfgWrite_touches ..).mono rfl
  | faultReport _ => exact (execFaultReport_touches ..).mono rfl
  | fenceNotice _ => exact (execFenceNotice_touches ..).mono rfl
  | sramScrubStep _ _ _ _ _ _ _ => exact (execSramScrubStep_touches ..).mono rfl
  | engineCondemn _ _ => exact (execEngineCondemn_touches ..).mono rfl
  | condemn _ _ => exact (execCondemn_touches ..).mono rfl
  | moultDrainDone _ => exact (execMoultDrainDone_touches ..).mono rfl
  | drainTimeout _ => exact (execDrainTimeout_touches ..).mono rfl
  | moult _ => exact (execMoult_touches ..).mono rfl
  | zombieDrop _ _ => exact (execZombieDrop_touches ..).mono rfl
  | spareBistTimer => exact (execSpareBistTimer_touches ..).mono rfl
  | activate _ _ => exact (execActivate_touches ..).mono rfl
  | quiesce _ _ => exact (execQuiesce_touches ..).mono rfl
  | svcReset _ _ => exact (execSvcReset_touches ..).mono rfl
  | pairBistDone _ _ => exact (execPairBistDone_touches ..).mono rfl
  | lockstepMismatch _ => exact (execLockstepMismatch_touches ..).mono rfl
  | findCmd _ _ => exact (execFindCmd_touches ..).mono rfl
  | wrGo _ _ => exact (execWrGo_touches ..).mono rfl
  | cocoonWriteDone _ => exact (execCocoonWriteDone_touches ..).mono rfl
  | silkRecord => exact (execSilkRecord_touches ..).mono rfl
  | swGo _ _ => exact (execSwGo_touches ..).mono rfl
  | snapCmd _ _ => exact (execSnapCmd_touches ..).mono rfl
  | snapshotDone => exact (execSnapshotDone_touches ..).mono rfl
  | powerFailWarning => exact (execPowerFailWarning_touches ..).mono rfl
  | fnClr _ _ => exact (execFnClr_touches ..).mono rfl
  | fnSwWrite _ _ => exact (execFnSwWrite_touches ..).mono rfl
  | arm _ _ => exact (execArm_touches ..).mono rfl
  | hbKick _ _ => exact (execHbKick_touches ..).mono rfl
  | hbTimeout => exact (execHbTimeout_touches ..).mono rfl
  | lsTest _ _ _ => exact (execLsTest_touches ..).mono rfl
  | viewEvaluate _ _ => exact (execViewEvaluate_touches ..).mono rfl
  | viewClr _ _ _ => exact (execViewClr_touches ..).mono rfl
  | configCheckRun _ => exact (execConfigCheckRun_touches ..).mono rfl
  | clockMonitorWindow _ => exact (execClockMonitorWindow_touches ..).mono rfl
  | supplyWindow _ _ => exact (execSupplyWindow_touches ..).mono rfl
  | faultInject _ _ _ => exact (execFaultInject_touches ..).mono rfl
  | eyeInj _ _ => exact (execEyeInj_touches ..).mono rfl
  | domainOnRequest _ _ _ => exact (execDomainOnRequest_touches ..).mono rfl
  | domainReady => exact (execDomainReady_touches ..).mono rfl
  | domainOffRequest _ _ _ => exact (execDomainOffRequest_touches ..).mono rfl
  | standbyRequest _ _ => exact (execStandbyRequest_touches ..).mono rfl
  | dormantRequest _ _ => exact (execDormantRequest_touches ..).mono rfl
  | activeRequest _ _ => exact (execActiveRequest_touches ..).mono rfl
  | wake => exact execWake_clock ..
  | thermalSample _ => exact (execThermalSample_touches ..).mono rfl
  | thermalTrip => exact (execThermalTrip_touches ..).mono rfl
  | thermalRestart => exact execThermalRestart_clock ..
  | sensorCheck _ => exact (execSensorCheck_touches ..).mono rfl
  | compensationRun => exact (execCompensationRun_touches ..).mono rfl
  | confirm _ _ => exact (execConfirm_touches ..).mono rfl
  | pref _ _ => exact (execPref_touches ..).mono rfl
  | verAdv _ _ => exact (execVerAdv_touches ..).mono rfl
  | verifyCmd _ _ => exact (execVerifyCmd_touches ..).mono rfl
  | verifyDone => exact (execVerifyDone_touches ..).mono rfl
  | xspiRead _ _ => exact (execXspiRead_touches ..).mono rfl
  | xspiProgram _ _ => exact (execXspiProgram_touches ..).mono rfl
  | xspiErase _ _ => exact (execXspiErase_touches ..).mono rfl
  | xspiDone _ => exact (execXspiDone_touches ..).mono rfl
  | startUp _ _ => exact execStartUp_clock ..
  | startUpFull => exact (execStartUpFull_touches ..).mono rfl
  | pwrGoodRise _ _ => exact execPwrGoodRise_clock ..
  | pwrGoodFall => exact execPwrGoodFall_clock ..
  | resetN _ => exact execResetN_clock ..
  | resetCmd _ _ => exact execResetCmd_clock ..
  | pfwNRelease => exact execPfwNRelease_clock ..
  | mainRailTimeout => exact (execMainRailTimeout_touches ..).mono rfl
  | swiWrite _ _ => exact (execSwiWrite_touches ..).mono rfl
  | mtimecmpMatch _ => exact (execMtimecmpMatch_touches ..).mono rfl
  | msixMessage _ => exact (execMsixMessage_touches ..).mono rfl
  | maintWrite _ _ _ _ => exact execMaintWrite_clock ..
  | maintRead _ _ _ _ => exact (execMaintRead_touches ..).mono rfl
  | mDoorbell _ _ => exact (execMDoorbell_touches ..).mono rfl
  | eyeScanGo _ _ _ => exact (execEyeScanGo_touches ..).mono rfl
  | eyeScanAbort _ _ _ => exact (execEyeScanAbort_touches ..).mono rfl
  | eyeScanDone _ _ _ => exact (execEyeScanDone_touches ..).mono rfl
  | txEqWrite _ _ _ => exact (execTxEqWrite_touches ..).mono rfl
  | cstsCfs _ => exact (execCstsCfs_touches ..).mono rfl
  | pllLossOfLock _ _ => exact (execPllLossOfLock_touches ..).mono rfl
  | latchingLowRead _ _ _ => exact (execLatchingLowRead_touches ..).mono rfl
  | receiveQueuePop _ _ _ => exact (execReceiveQueuePop_touches ..).mono rfl

/-- Settles O56: TIMEBASE_TICK moves the clock on, and every other command leaves it. -/
theorem everyCommandCompletes : Obligations.EveryCommandCompletes := by
  unfold Obligations.EveryCommandCompletes
  intro c s
  by_cases h : c = .timebaseTick
  · subst h
    obtain ⟨u, hu, hnow, hpending⟩ := execTimebaseTick_clock s
    exact ⟨u, hu, hpending, by omega⟩
  · obtain ⟨u, hu, ht⟩ := exec_clock c s h
    exact ⟨u, hu, ht.pending rfl, (ht.now rfl).ge⟩

end Sys2Proof.Machine
end

section
/-!
REFUTED: cue commands (O24) and display links (O34), each by a state that the model runs to the other answer.
-/

namespace Sys2Proof.Machine

open Sys2Proof

/-- The reset state with a reserved bit of CUE_D0 standing in a staging register of CUE page 0. -/
def reservedBitStaged : State := State.reset.setReg (pCUE 0) Off.cue_CUE_D0 0x40

theorem reservedBitStaged_open : reservedBitStaged.Open (.core 0) (pCUE 0) :=
  ⟨by decide, by decide, by decide, by decide, by decide⟩

theorem execCueStore_reservedBitStaged :
    ∃ u, execCueStore (.core 0) 0 reservedBitStaged = .next u ∧ (u.cue 0).ctrl = 0x40 := ⟨_, rfl, by decide⟩

/-- Refutes O24: STORE takes CUE_D0 whole, and `State.staged` drops the bits that the table reserves. No register write sets such a
bit, but the statement is about every state, and where one stands the cue takes it. -/
theorem not_cueCommands : ¬ Obligations.CueCommands := by
  unfold Obligations.CueCommands
  rintro ⟨-, hstore, -, -⟩
  obtain ⟨hmode0, -, -⟩ := hstore (.core 0) 0 reservedBitStaged _ reservedBitStaged_open (by decide) (by decide) rfl (by decide)
  obtain ⟨u, hu, hcue, -⟩ := hmode0 (by decide)
  obtain ⟨w, hw, hctrl⟩ := execCueStore_reservedBitStaged
  obtain rfl : u = w := Host.Outcome.next.inj (hu.symm.trans hw)
  exact absurd ((congrArg Cue.ctrl hcue).symm.trans hctrl) (by decide)

/-- The reset state with the domain of display head 0 on, its link in RUN, EN 0, a line ruler past the picture, and one frame
that passed while the page was fenced. -/
def frameOverFence : State :=
  ((State.reset.setReg (pPWR 0) (Off.pwr0_DOM_STAT0 + 4) 0xFFFFFFFF).modHead 0 fun h => { h with link := 3 }).modLine 0
    fun r => { r with line := 4096, overran := 1 }

theorem execHeadDisable_frameOverFence :
    ∃ u, execHeadDisable 0 frameOverFence = .next u ∧ (u.lineR 0).frame = 2 ^ 32 - 1 := ⟨_, rfl, by decide⟩

/-- Refutes O34: HEAD_DISABLE takes the frames that passed while the page was fenced back off the frame count of the line ruler
(R72), so the count changes where there is one. -/
theorem not_displayLinks : ¬ Obligations.DisplayLinks := by
  unfold Obligations.DisplayLinks
  rintro ⟨-, hdisable, -⟩
  obtain ⟨u, hu, -, -, hframe, -⟩ := hdisable 0 frameOverFence (by decide) (by decide) (by decide) (by decide) (by decide) (by decide)
    (by decide) (by decide)
  obtain ⟨w, hw, hcount⟩ := execHeadDisable_frameOverFence
  obtain rfl : u = w := Host.Outcome.next.inj (hu.symm.trans hw)
  exact absurd (hframe.symm.trans hcount) (by decide)

end Sys2Proof.Machine
end

section
/-!
SUPPORT. Reads of the ruler pages (R52): which words a read latches, and what it shows.
-/

namespace Sys2Proof.Machine

open Sys2Proof

/-- The pages of the rulers, whose reads pop no queue. -/
def rulerKinds : List PageKind := [.timebase, .dist, .phase, .lineview]

/-- A register of a ruler page that a read takes nothing off and that latches the words `l`. -/
def rulerReg (p o : Nat) (l : List Nat) : Bool :=
  decide (p < 1024 ∧ o < 4096 ∧ o % 4 = 0) && rulerKinds.contains (pageKind p) && decide (¬(0x180 ≤ p ∧ p < 0x200)) &&
    (((regDesc p o).map (·.rc)).getD 0 == 0) && decide (¬(p = pTIMEBASE ∧ o = Off.timebase_SNAP_TIME)) && (latchOffs p o == l)

theorem rulerWords_rulerReg : ∀ r ∈ rulerWords, rulerReg r.1 r.2.1 r.2.2 = true ∧ ∀ o ∈ r.2.2, rulerReg r.1 o [] = true := by decide

/-- Each word of `l` of page `p` latched with its value. -/
def State.latchWords (s : State) (p : Nat) (f : Nat → Word) (l : List Nat) : State :=
  l.foldl (fun t q => t.onLatch fun x => Map.put (fun _ => none) x (rg p q) (some (f q))) s

/-- Latching words of a page leaves the registers and rulers, and holds each of the words. -/
theorem State.latchWords_spec (s : State) (p : Nat) (f : Nat → Word) (l : List Nat) :
    (s.latchWords p f l).regs = s.regs ∧ (s.latchWords p f l).tb = s.tb ∧ ∀ o,
      Map.get (fun _ => none) (s.latchWords p f l).latch (rg p o) = if o ∈ l then some (f o) else Map.get (fun _ => none) s.latch (rg p o) := by
  induction l generalizing s with
  | nil => simp [State.latchWords]
  | cons q l ih =>
    obtain ⟨hregs, htb, hget⟩ := ih (s.onLatch fun x => Map.put (fun _ => none) x (rg p q) (some (f q)))
    refine ⟨hregs, htb, fun o => (hget o).trans ?_⟩
    by_cases hq : o = q
    · simp [hq]
    · simp [hq, Map.get_put]

theorem State.popRead_ruler (s : State) {p : Nat} (o : Nat) (h : pageKind p ∈ rulerKinds) : s.popRead p o = s := by
  unfold State.popRead
  split
  · next hk => rw [hk] at h; exact absurd h (by decide)
  · next hk => rw [hk] at h; exact absurd h (by decide)
  · rfl

/-- A 4-byte read at the address of a register reads the register. -/
theorem State.readAt_regAddr (s : State) (m : Master) {p o : Nat} (hp : p < 1024) (ho : o < 4096) (h4 : o % 4 = 0) :
    s.readAt m (regAddr p o) 4 = s.readPage m p o := by
  have hpage : (regAddr p o - regBase) / 4096 = p := by unfold regAddr; omega
  have hoff : (regAddr p o - regBase) % 4096 = o := by unfold regAddr; omega
  have hin : regBase ≤ regAddr p o ∧ regAddr p o < regBase + 0x400000 := by unfold regAddr; omega
  have hal : regAddr p o % 4 = 0 := by unfold regAddr regBase; omega
  simp only [State.readAt, if_pos hin, hal, hpage, hoff, decide_true, Bool.and_self, if_true]

theorem State.Shows.readsThrough {s : State} {m : Master} {p : Nat} (h : s.Shows m p) (o : Nat) : s.readsThrough p o = true := by
  obtain ⟨-, -, hpow, hfence, hbusy, -⟩ := h
  simp [State.readsThrough, hpow, hfence, hbusy]

theorem State.Shows.frozenReg {s : State} {m : Master} {p : Nat} (h : s.Shows m p) (o : Nat) : s.frozenReg p o = none := by
  obtain ⟨-, -, -, -, -, hfrozen⟩ := h
  simp [State.frozenReg, hfrozen o]

/-- What the read of a ruler register does and answers (R52). -/
theorem exec_rulerLowRead {s : State} {m : Master} {p o : Nat} {l : List Nat} (h : s.Shows m p) (hr : rulerReg p o l = true) :
    exec (.rulerLowRead m (regAddr p o) 4) s =
      .next ((s.latchWords p (s.liveReg p) l).answer ((Map.get (fun _ => none) s.latch (rg p o)).getD (s.liveReg p o))) := by
  have hheld : ∀ q, s.heldReg p q = s.liveReg p q := fun q => by simp [State.heldReg, h.frozenReg q]
  simp only [rulerReg, Bool.and_eq_true, decide_eq_true_eq, beq_iff_eq, List.contains_iff_mem] at hr
  obtain ⟨⟨⟨⟨⟨⟨hp, ho, h4⟩, hkind⟩, hpipe⟩, hrc⟩, hsnap⟩, hl⟩ := hr
  have hread : s.readReg p o = (s.shownReg p o, s.latchRead p o) := by
    simp [State.readReg, hrc, State.popRead_ruler _ o hkind]
  have hlatch : s.latchRead p o = s.latchWords p (s.liveReg p) l := by
    simp only [State.latchRead, if_neg hsnap, hl, hheld, State.latchWords]
  obtain ⟨hmay, hpage, -⟩ := id h
  show Host.Outcome.next (s.readAt m (regAddr p o) 4) = _
  rw [State.readAt_regAddr s m hp ho h4, State.readPage, if_neg fun c => hpipe ⟨c.1.1, c.1.2.1⟩]
  simp only [State.regRead, hmay, hpage, h.readsThrough o, hread, hlatch, State.shownReg, h.frozenReg o, Bool.not_true,
    Bool.false_eq_true, if_true, if_false]

/-- Settles O20: a ruler's row says which words its low word latches, and a latched word latches none. -/
theorem rulerLowWordLatches : Obligations.RulerLowWordLatches := by
  unfold Obligations.RulerLowWordLatches
  intro r hr m s hs
  obtain ⟨hlow, hhigh⟩ := rulerWords_rulerReg r hr
  constructor
  · intro hfree
    obtain ⟨hregs, htb, hget⟩ := s.latchWords_spec r.1 (s.liveReg r.1) r.2.2
    refine ⟨_, exec_rulerLowRead hs hlow, ?_, fun o ho => ?_, hregs, htb⟩
    · simp [State.answer, hfree]
    · exact (hget o).trans (if_pos ho)
  · intro o ho w hw
    exact ⟨_, exec_rulerLowRead hs (hhigh o ho), by simp [State.answer, hw], rfl, rfl⟩

end Sys2Proof.Machine
end

section
/-!
SUPPORT. Reset values of the page header (R597).
-/

namespace Sys2Proof.Machine

open Sys2Proof

theorem reset_reg (p : Nat) {o : Nat} (ho : o < 4096) : State.reset.reg p o = resetAt p o := by
  show resetAt (rg p o / 4096) (rg p o % 4096) = _
  rw [show rg p o / 4096 = p by unfold rg; omega, show rg p o % 4096 = o by unfold rg; omega]

theorem regDesc_header {p o : Nat} (hnone : pageKind p ≠ .none) (hwin : pageKind p ≠ .ctiWin) (ho : o < 0x100) :
    regDesc p o = regs_hdr.find? (fun r => r.has o) := by
  unfold regDesc
  split
  · exact absurd ‹_› hnone
  · exact absurd ‹_› hwin
  · exact if_pos ho

theorem resetAt_id {p : Nat} (hnone : pageKind p ≠ .none) (hwin : pageKind p ≠ .ctiWin) : resetAt p Off.hdr_PG_ID = pgId p := by
  unfold resetAt
  cases hk : pageKind p with
  | none => exact absurd hk hnone
  | ctiWin => exact absurd hk hwin
  | _ => rfl

/-- The header registers that no page resets by its own rule take the reset column of the header's table. -/
theorem resetAt_header {p o : Nat} (hnone : pageKind p ≠ .none) (hwin : pageKind p ≠ .ctiWin)
    (ho : o ∈ [Off.hdr_PG_FAULT, Off.hdr_PG_INT_EN, Off.hdr_PG_SHADOW]) : resetAt p o = 0 := by
  have hzero : resetAt.dflt p o = 0 := by
    rw [resetAt.dflt, regDesc_header hnone hwin (by fin_cases ho <;> decide)]
    fin_cases ho <;> rfl
  unfold resetAt
  cases hk : pageKind p with
  | none => exact absurd hk hnone
  | ctiWin => exact absurd hk hwin
  | _ => fin_cases ho <;> simp_all [Off.hdr_PG_FAULT, Off.hdr_PG_INT_EN, Off.hdr_PG_SHADOW]

theorem reset_header {p : Nat} (hnone : pageKind p ≠ .none) (hwin : pageKind p ≠ .ctiWin) :
    State.reset.reg p Off.hdr_PG_ID = wd (blockType p * 65536 + instanceOf p * 256 + 1) ∧ State.reset.reg p Off.hdr_PG_FAULT = 0 ∧
      State.reset.reg p Off.hdr_PG_INT_EN = 0 ∧ State.reset.reg p Off.hdr_PG_SHADOW = 0 := by
  have hheader := fun o ho => resetAt_header (p := p) (o := o) hnone hwin ho
  refine ⟨?_, ?_, ?_, ?_⟩ <;> rw [reset_reg p (by decide)]
  · exact resetAt_id hnone hwin
  · exact hheader _ (by simp)
  · exact hheader _ (by simp)
  · exact hheader _ (by simp)

/-- Settles O60: the header from the rows of its table, and every other value by evaluating the reset state. -/
theorem resetValues : Obligations.ResetValues := by
  unfold Obligations.ResetValues
  refine ⟨fun p _ hnone hwin => reset_header hnone hwin, ⟨rfl, ?_, ?_, ?_⟩, ⟨?_, ?_, ?_, ?_, ?_, ?_⟩, ⟨?_, ?_, rfl, ?_, rfl⟩, ?_,
    ⟨?_, ?_, ?_, ?_⟩, rfl, rfl, rfl⟩
  all_goals decide

end Sys2Proof.Machine
end

section
/-!
SUPPORT. A relation for long operations: of the registers that no fault and no fence changes only those of `P` may differ, and no
fault is cleared.
-/

namespace Sys2Proof.Machine

open Sys2Proof

/-- From `s` to `t` only registers of `P` change, of those that no fault and no fence changes, and every fault stands. -/
structure RegsIn (P : Nat → Nat → Prop) (s t : State) : Prop where
  reg : ∀ q o, quietOff o = true → ¬ P q o → t.reg q o = s.reg q o
  faulted : ∀ q b, s.Faulted q b → t.Faulted q b

/-- The registers at the offsets `os` of page `p`. -/
def regsOf (p : Nat) (os : List Nat) (q o : Nat) : Prop := q = p ∧ o ∈ os

namespace RegsIn

variable {P Q : Nat → Nat → Prop} {s t u : State}

theorem refl (s : State) : RegsIn P s s := ⟨fun _ _ _ _ => rfl, fun _ _ h => h⟩

theorem trans (h : RegsIn P s t) (g : RegsIn P t u) : RegsIn P s u where
  reg := fun q o ho hp => (g.reg q o ho hp).trans (h.reg q o ho hp)
  faulted := fun q b hb => g.faulted q b (h.faulted q b hb)

theorem mono (h : RegsIn P s t) (hpq : ∀ q o, quietOff o = true → P q o → Q q o) : RegsIn Q s t where
  reg := fun q o ho hq => h.reg q o ho fun hp => hq (hpq q o ho hp)
  faulted := h.faulted

theorem ite {c : Prop} [Decidable c] (h : c → RegsIn P s t) (g : ¬c → RegsIn P s u) : RegsIn P s (if c then t else u) := by
  split
  · next hc => exact h hc
  · next hc => exact g hc

theorem foldl {β : Type} {f : State → β → State} {l : List β} (h : RegsIn P s t) (hf : ∀ v, ∀ x ∈ l, RegsIn P v (f v x)) :
    RegsIn P s (l.foldl f t) := by
  induction l generalizing t with
  | nil => exact h
  | cons x l ih => exact ih (h.trans (hf t x (by simp))) fun v y hy => hf v y (by simp [hy])

theorem of_regs (h : t.regs = s.regs) : RegsIn P s t :=
  ⟨fun q o _ _ => State.reg_congr h q o, fun q _ hf => hf.congr (State.reg_congr h q _)⟩

theorem of_touches {K : Nat} (h : Touches K s t) (hr : K.testBit 2 = false) : RegsIn P s t := of_regs (h.regs hr)

theorem setReg (s : State) {p o : Nat} (v : Word) (ho : o < 4096) (hf : o ≠ Off.hdr_PG_FAULT) (hp : quietOff o = true → P p o) :
    RegsIn P s (s.setReg p o v) where
  reg := fun q k hk hn => State.reg_setReg_ne fun e => by
    obtain ⟨rfl, rfl⟩ := (rg_inj (quietOff_lt hk) ho).1 e
    exact hn (hp hk)
  faulted := fun q _ h => h.congr (State.reg_setReg_ne (rg_ne_of_off (by decide) ho hf.symm))

/-- A register of `P`, set whole, or a field, a bit or a count of it. -/
theorem setIn (s : State) {p o : Nat} (v : Word) (hp : P p o) (ho : 0x100 ≤ o ∧ o < 4096 := by decide) : RegsIn P s (s.setReg p o v) :=
  setReg s v ho.2 (fun e => absurd ho.1 (e ▸ by decide)) fun _ => hp

theorem raise (s : State) (p : Nat) {b : Nat} (hb : b < 32) : RegsIn P s (s.raise p b) where
  reg := fun q o ho _ => State.reg_raise s p b q o ho
  faulted := fun _ _ h => h.raise p hb

theorem produce (s : State) (p k : Nat) : RegsIn P s (s.produce p k) := of_touches (State.produce_touches s p k) rfl

theorem noteHw (s : State) (p f l i : Nat) : RegsIn P s (s.noteHw p f l i) := of_regs rfl

theorem setInt (s : State) (p b : Nat) : RegsIn P s (s.setInt p b) :=
  (setReg s _ (by decide) (by decide) fun h => absurd h (by decide)).trans (noteHw ..)

/-- What `regsOf` leaves is what `KeepsRegs` says. -/
theorem keepsRegs {p : Nat} {os : List Nat} (h : RegsIn (regsOf p os) s t) : s.KeepsRegs t p os := h.reg

end RegsIn

end Sys2Proof.Machine
end

section
/-!
SUPPORT. The PHASE rulers (R68 to R71): what a crossing and a change of STATE write, and what they leave.
-/

namespace Sys2Proof.Machine

open Sys2Proof

@[simp] theorem State.phase_modPhase (s : State) (p : Nat) (f : Phase → Phase) : (s.modPhase p f).phase p = f (s.phase p) :=
  Map.get_put_same ..

@[simp] theorem State.regs_modPhase (s : State) (p : Nat) (f : Phase → Phase) : (s.modPhase p f).regs = s.regs := rfl

theorem State.phase_congr {s t : State} (h : t.tb = s.tb) (p : Nat) : t.phase p = s.phase p := by unfold State.phase; rw [h]

theorem State.phaseState_congr {s t : State} (h : t.regs = s.regs) (p : Nat) : t.phaseState p = s.phaseState p :=
  (State.regs_congr_fields h).2.1 ..

/-- What STATE `v` makes of a PHASE ruler that leaves another state at time `now` (R69). -/
def Phase.entered (x : Phase) (v now : Nat) : Phase :=
  { x with everLocked := decide (v = 2) || decide (v ≠ 0) && x.everLocked, lastCross := if v = 0 then none else x.lastCross,
           corr := if v = 0 then 0 else x.corr, holdAt := if v = 3 then now else x.holdAt, good := 0, bad := 0 }

theorem State.setPhaseState_regsIn (s : State) {p : Nat} (hp : p < 2) (v : Nat) :
    RegsIn (regsOf pPHASE [phOff p Off.phase_STATUS]) s (s.setPhaseState p v) := by
  unfold State.setPhaseState
  extract_lets old s1 s2 s3 s4 s5
  have ho : 0x100 ≤ phOff p Off.phase_STATUS ∧ phOff p Off.phase_STATUS < 4096 := by unfold phOff Off.phase_STATUS; omega
  have h1 : RegsIn (regsOf pPHASE [phOff p Off.phase_STATUS]) s s1 := (RegsIn.setIn s _ ⟨rfl, by simp⟩ ho).trans (.produce ..)
  have h2 : RegsIn (regsOf pPHASE [phOff p Off.phase_STATUS]) s s2 := .ite (fun _ => h1.trans (.raise _ _ (by decide))) fun _ => h1
  have h3 : RegsIn (regsOf pPHASE [phOff p Off.phase_STATUS]) s s3 :=
    .ite (fun _ => (h2.trans (.raise _ _ (by decide))).trans (.of_regs rfl)) fun _ => h2
  have h4 : RegsIn (regsOf pPHASE [phOff p Off.phase_STATUS]) s s4 := .ite (fun _ => h3.trans (.of_regs rfl)) fun _ => h3
  have h5 : RegsIn (regsOf pPHASE [phOff p Off.phase_STATUS]) s s5 := .ite (fun _ => h4.trans (.of_regs rfl)) fun _ => h4
  exact .ite (fun _ => .refl s) fun _ => h5.trans (.of_regs rfl)

theorem quietOff_phaseStatus {p : Nat} (hp : p < 2) : quietOff (phOff p Off.phase_STATUS) = true := by
  obtain rfl | rfl : p = 0 ∨ p = 1 := by omega
  all_goals decide

@[simp] theorem State.phaseState_modPhase (s : State) (q : Nat) (f : Phase → Phase) (p : Nat) :
    (s.modPhase q f).phaseState p = s.phaseState p := rfl

@[simp] theorem State.phaseState_produce (s : State) (q k p : Nat) : (s.produce q k).phaseState p = s.phaseState p :=
  State.fld_congr_reg (State.reg_produce ..) _ _

@[simp] theorem State.phase_produce (s : State) (q k p : Nat) : (s.produce q k).phase p = s.phase p :=
  State.phase_congr ((State.produce_touches ..).tb rfl) p

theorem State.phaseState_raise (s : State) (q b : Nat) {p : Nat} (hp : p < 2) : (s.raise q b).phaseState p = s.phaseState p :=
  State.fld_congr_reg (State.reg_raise _ _ _ _ _ (quietOff_phaseStatus hp)) _ _

@[simp] theorem State.phase_raise (s : State) (q b p : Nat) : (s.raise q b).phase p = s.phase p :=
  State.phase_congr ((State.raise_touches ..).tb rfl) p

theorem State.phaseState_setFld (s : State) {p v : Nat} (hv : v < 4) :
    (s.setFld pPHASE (phOff p Off.phase_STATUS) 0 2 v).phaseState p = v :=
  (State.fld_setFld ..).trans (Nat.mod_eq_of_lt hv)

/-- A change of STATE: the state itself, and what stands beside the registers (R69). -/
theorem State.setPhaseState_enters (s : State) {p v : Nat} (hp : p < 2) (hv : v < 4) (hne : s.phaseState p ≠ v) :
    (s.setPhaseState p v).phaseState p = v ∧ (s.setPhaseState p v).phase p = (s.phase p).entered v s.now := by
  have hset := fun (t : State) => State.phaseState_setFld t (p := p) hv
  have hkept : (s.setFld pPHASE (phOff p Off.phase_STATUS) 0 2 v).phase p = s.phase p := rfl
  unfold State.setPhaseState Phase.entered
  rw [if_neg hne]
  by_cases hold : s.phaseState p = 2
  · interval_cases v <;> simp_all [State.phaseState_raise]
  · interval_cases v <;> simp_all [State.phaseState_raise]

/-- LOCK_LOST on leaving LOCKED, and NO_INPUT on entering it (R69). -/
theorem State.setPhaseState_faults (s : State) {p v : Nat} (hne : s.phaseState p ≠ v) :
    (s.phaseState p = 2 → (s.setPhaseState p v).Faulted pPHASE 8) ∧ (v = 0 → (s.setPhaseState p v).Faulted pPHASE 9) := by
  unfold State.setPhaseState
  rw [if_neg hne]
  extract_lets s1 s2 s3 s4 s5
  have h4 : RegsIn (regsOf pPHASE []) s3 s4 := .ite (fun _ => .of_regs rfl) fun _ => .refl s3
  have h5 : RegsIn (regsOf pPHASE []) s3 s5 := .ite (fun _ => h4.trans (.of_regs rfl)) fun _ => h4
  have h6 := h5.trans (.of_regs rfl : RegsIn (regsOf pPHASE []) s5 (s5.modPhase p fun x => { x with good := 0, bad := 0 }))
  have h3 : RegsIn (regsOf pPHASE []) s2 s3 := .ite (fun _ => (RegsIn.raise _ _ (by decide)).trans (.of_regs rfl)) fun _ => .refl s2
  refine ⟨fun hold => h6.faulted _ _ (h3.faulted _ _ ?_), fun hv => h6.faulted _ _ ?_⟩
  · rw [show s2 = s1.raise pPHASE 8 from if_pos hold]
    exact State.raise_faulted _ rfl (by decide)
  · rw [show s3 = _ from if_pos hv]
    exact State.raise_faulted s2 (p := pPHASE) (b := 9) rfl (by decide)

/-! ## Crossings (R68) -/

/-- Does ruler `p` select input `i` and its falling or rising edge? -/
def State.phaseSelects (s : State) (p i : Nat) (falling : Bool) : Prop :=
  s.fld pPHASE (phOff p Off.phase_CFG) 1 2 = i ∧ s.bit pPHASE (phOff p Off.phase_CFG) 3 = falling

/-- The registers that a crossing of ruler `p` writes. -/
def crossRegs (p : Nat) : List Nat := [phOff p Off.phase_REJECTS, phOff p Off.phase_FREQ, phOff p Off.phase_STATUS]

theorem crossRegs_range {p o : Nat} (hp : p < 2) (ho : o ∈ crossRegs p) : 0x100 ≤ o ∧ o < 4096 := by
  obtain rfl | rfl : p = 0 ∨ p = 1 := by omega
  all_goals (revert o; decide)

theorem State.setPhaseState_crossRegs (s : State) {p : Nat} (hp : p < 2) (v : Nat) : RegsIn (regsOf pPHASE (crossRegs p)) s (s.setPhaseState p v) :=
  (s.setPhaseState_regsIn hp v).mono fun q o _ h => ⟨h.1, by simp [crossRegs, List.mem_singleton.1 h.2]⟩

theorem State.phaseCross_regsIn (s : State) {p : Nat} (hp : p < 2) (width : Nat) :
    RegsIn (regsOf pPHASE (crossRegs p)) s (s.phaseCross p width) := by
  have own : ∀ (t : State) o v, o ∈ crossRegs p → RegsIn (regsOf pPHASE (crossRegs p)) t (t.setReg pPHASE o v) := fun t o v ho =>
    .setIn t v ⟨rfl, ho⟩ (crossRegs_range hp ho)
  unfold State.phaseCross
  refine .ite (fun _ => own s _ _ (by simp [crossRegs])) fun _ => ?_
  extract_lets x err lockErr nom f0 f s1
  have h1 : RegsIn (regsOf pPHASE (crossRegs p)) s s1 := (own s _ _ (by simp [crossRegs])).trans (.of_regs rfl)
  split
  · exact h1.trans (s1.setPhaseState_crossRegs hp _)
  · exact h1.trans (s1.setPhaseState_crossRegs hp _)
  · exact .ite (fun _ => h1.trans (s1.setPhaseState_crossRegs hp _)) fun _ => h1
  · exact .ite (fun _ => h1.trans (s1.setPhaseState_crossRegs hp _)) fun _ => h1

/-- A crossing of one ruler leaves what each ruler selects. -/
theorem State.phaseSelects_phaseCross (s : State) {p q : Nat} (hp : p < 2) (hq : q < 2) (width i : Nat) (falling : Bool) :
    (s.phaseCross p width).phaseSelects q i falling ↔ s.phaseSelects q i falling := by
  have hcfg : quietOff (phOff q Off.phase_CFG) = true ∧ phOff q Off.phase_CFG ∉ crossRegs p := by
    obtain rfl | rfl : p = 0 ∨ p = 1 := by omega
    all_goals obtain rfl | rfl : q = 0 ∨ q = 1 := by omega
    all_goals decide
  have h := (s.phaseCross_regsIn hp width).reg pPHASE _ hcfg.1 fun h => hcfg.2 h.2
  unfold State.phaseSelects
  rw [State.fld_congr_reg h, State.bit_congr_reg h]

/-- A crossing as each of the two rulers takes it in turn. -/
def State.phaseTake (i width : Nat) (falling : Bool) (s : State) (p : Nat) : State :=
  if s.phaseRuns p && s.fld pPHASE (phOff p Off.phase_CFG) 1 2 == i && s.bit pPHASE (phOff p Off.phase_CFG) 3 == falling then
    s.phaseCross p width
  else s

theorem exec_phaseCrossing (i width : Nat) (falling : Bool) (s : State) :
    exec (.phaseCrossing i falling width) s = .next ((s.phaseTake i width falling 0).phaseTake i width falling 1) := rfl

theorem State.phaseTake_selected {s : State} {p i : Nat} {falling : Bool} (hrun : s.phaseRuns p = true) (h : s.phaseSelects p i falling)
    (width : Nat) : s.phaseTake i width falling p = s.phaseCross p width := by
  simp [State.phaseTake, hrun, h.1, h.2]

theorem State.phaseTake_other {s : State} {p i : Nat} {falling : Bool} (h : s.phaseRuns p = true → ¬ s.phaseSelects p i falling)
    (width : Nat) : s.phaseTake i width falling p = s := by
  refine if_neg fun c => ?_
  simp only [Bool.and_eq_true, beq_iff_eq] at c
  exact h c.1.1 ⟨c.1.2, c.2⟩

/-- A crossing that one running ruler alone selects is that ruler's. -/
theorem exec_phaseCrossing_alone {p i : Nat} {falling : Bool} {s : State} (hp : p < 2) (hrun : s.phaseRuns p = true)
    (h : s.phaseSelects p i falling) (hother : ¬ s.phaseSelects (1 - p) i falling) (width : Nat) :
    exec (.phaseCrossing i falling width) s = .next (s.phaseCross p width) := by
  rw [exec_phaseCrossing]
  obtain rfl | rfl : p = 0 ∨ p = 1 := by omega
  · rw [State.phaseTake_selected hrun h, State.phaseTake_other fun _ => by rwa [State.phaseSelects_phaseCross s hp (by omega)]]
  · rw [State.phaseTake_other fun _ => hother, State.phaseTake_selected hrun h]

/-- A crossing too short for the filter counts in REJECTS (R68). -/
theorem State.phaseCross_short {s : State} {p width : Nat} (h : width < s.fld pPHASE (phOff p Off.phase_FILTER) 0 16) :
    s.phaseCross p width = s.count pPHASE (phOff p Off.phase_REJECTS) 0 32 1 := by
  unfold State.phaseCross
  exact if_pos (by simp [h])

theorem wfld_whole (w : Word) : wfld w 0 32 = w.toNat := by
  simp [wfld, Nat.mod_eq_of_lt w.isLt]

/-- A count that fills its register saturates at the register's greatest value. -/
theorem satAdd_whole (w : Word) (k : Nat) : satAdd w 0 32 k = wd (min (2 ^ 32 - 1) (w.toNat + k)) := by
  apply BitVec.eq_of_toNat_eq
  rw [← wfld_whole, satAdd_fld w 0 32 k (by decide), wfld_whole, wd_toNat, Nat.mod_eq_of_lt (by omega)]

/-- The frequency register and the loop after an accepted crossing, before STATE changes (R68, R70). -/
def State.phaseAccept (s : State) (p : Nat) : State :=
  let err := signed 32 (s.phase p).val
  let lockErr := s.fld pPHASE (phOff p Off.phase_LOOP_CFG) 16 8 * 2 ^ 20
  let nom := s.nomFreq p
  let f0 := if s.atNom p then nom else (s.reg pPHASE (phOff p Off.phase_FREQ)).toNat
  (s.setReg pPHASE (phOff p Off.phase_FREQ) (wd (max (nom * 95 / 100) (min (nom * 105 / 100)
    (Config.pllFreq f0 err (s.fld pPHASE (phOff p Off.phase_LOOP_CFG) 0 4)))))).modPhase p fun y =>
      { y with lastCross := some s.now, corr := -err * 1000000000000,
               good := if err.natAbs < lockErr then (if s.cycleMissed p then 0 else y.good) + 1 else 0,
               bad := if 8 * lockErr < err.natAbs then y.bad + 1 else 0 }

/-- The first accepted crossing in NO_INPUT or HOLDOVER starts ACQUIRE (R69). -/
theorem State.phaseCross_starts {s : State} {p width : Nat} (hw : s.fld pPHASE (phOff p Off.phase_FILTER) 0 16 ≤ width)
    (he : s.crossingExpected p = true) (hst : s.phaseState p = 0 ∨ s.phaseState p = 3) :
    s.phaseCross p width = (s.phaseAccept p).setPhaseState p 1 := by
  unfold State.phaseCross
  rw [if_neg (by simp [he, hw])]
  obtain hst | hst := hst <;> simp only [hst] <;> rfl

/-- LOCK_CYCLES good cycles lead from ACQUIRE to LOCKED (R69). -/
theorem State.phaseCross_locks {s : State} {p width : Nat} (hw : s.fld pPHASE (phOff p Off.phase_FILTER) 0 16 ≤ width)
    (he : s.crossingExpected p = true) (hst : s.phaseState p = 1)
    (hgood : s.fld pPHASE (phOff p Off.phase_LOOP_CFG) 8 4 ≤ ((s.phaseAccept p).phase p).good) :
    s.phaseCross p width = (s.phaseAccept p).setPhaseState p 2 := by
  unfold State.phaseCross
  rw [if_neg (by simp [he, hw])]
  simp only [hst]
  exact if_pos hgood

theorem State.good_phaseAccept {s : State} {p : Nat}
    (herr : (signed 32 (s.phase p).val).natAbs < s.fld pPHASE (phOff p Off.phase_LOOP_CFG) 16 8 * 2 ^ 20) (hmiss : s.cycleMissed p = false) :
    ((s.phaseAccept p).phase p).good = (s.phase p).good + 1 := by
  unfold State.phaseAccept
  rw [State.phase_modPhase]
  show (if _ then _ else _) = _
  rw [if_pos herr, hmiss]
  rfl

theorem State.phaseState_phaseAccept (s : State) (p : Nat) : (s.phaseAccept p).phaseState p = s.phaseState p := by
  refine State.fld_congr_reg (State.reg_setReg_page ?_) _ _
  unfold phOff Off.phase_STATUS Off.phase_FREQ; omega

/-- Settles O23: a crossing reaches the one ruler that selects it, and each change of STATE says what it enters. -/
theorem phaseRulers : Obligations.PhaseRulers := by
  unfold Obligations.PhaseRulers
  refine ⟨?cross, ?none, ?timeout, ?hold⟩
  case cross =>
    intro p i width falling s hp hrun hi hf hother
    have he := exec_phaseCrossing_alone hp hrun ⟨hi, hf⟩ hother width
    refine ⟨fun hw => ⟨_, he, ?_⟩, fun hw hfirst hst => ⟨_, he, ?_⟩, fun hw hexp hst herr hmiss hgood => ⟨_, he, ?_⟩⟩
    · rw [State.phaseCross_short hw]
      refine ⟨(State.reg_setReg_same ..).trans (satAdd_whole _ _), State.KeepsRegs.of_setReg s ?_ _⟩
      unfold phOff Off.phase_REJECTS; omega
    · rw [State.phaseCross_starts hw (by simp [State.crossingExpected, hfirst]) hst]
      obtain ⟨hstate, hphase⟩ := (s.phaseAccept p).setPhaseState_enters hp (v := 1) (by decide) (by
        rw [s.phaseState_phaseAccept]; omega)
      rw [hphase, State.phaseAccept, State.phase_modPhase]
      exact ⟨hstate, rfl, rfl⟩
    · rw [State.phaseCross_locks hw hexp hst (by rwa [State.good_phaseAccept herr hmiss])]
      obtain ⟨hstate, hphase⟩ := (s.phaseAccept p).setPhaseState_enters hp (v := 2) (by decide) (by
        rw [s.phaseState_phaseAccept]; omega)
      exact ⟨hstate, by rw [hphase]; rfl⟩
  case none =>
    intro i width falling s h
    refine ⟨_, exec_phaseCrossing i width falling s, ?_⟩
    rw [State.phaseTake_other fun hrun => h 0 (by decide) hrun, State.phaseTake_other fun hrun => h 1 (by decide) hrun]
  case timeout =>
    intro p t s hp hrun hst hlast hlate
    have henter := s.setPhaseState_enters hp (v := 3) (by decide) (by omega)
    refine ⟨s.setPhaseState p 3, ?_, henter.1, (s.setPhaseState_faults (by omega)).1 hst, ?_⟩
    · show execPhaseCrossingTimeout p s = _
      simp [execPhaseCrossingTimeout, hst, hlast, hrun, hlate]
    · rw [henter.2]; rfl
  case hold =>
    intro p s hp hrun hst hlate
    have henter := s.setPhaseState_enters hp (v := 0) (by decide) (by omega)
    refine ⟨s.setPhaseState p 0, if_pos ⟨hrun, hst, hlate⟩, henter.1, (s.setPhaseState_faults (by omega)).2 rfl, ?_⟩
    rw [henter.2]; rfl

end Sys2Proof.Machine
end

section
/-!
SUPPORT. What the cues do (R78 to R83): they change the cue table and registers of pages from CUE0 on, and leave every ruler and the
registers of the ruler pages.
-/

namespace Sys2Proof.Machine

open Sys2Proof

/-- The registers of the pages from CUE0 on, which the ruler pages precede. -/
def pastRulers (q _o : Nat) : Prop := pCUE 0 ≤ q

/-- What cue work leaves of `s` in `t`: the ruler pages' registers, every fault that stands, and every ruler. -/
structure CueWork (s t : State) : Prop where
  regs : RegsIn pastRulers s t
  tb : t.tb = { s.tb with cues := t.tb.cues }

namespace CueWork

variable {s t u : State}

theorem refl (s : State) : CueWork s s := ⟨.refl s, rfl⟩

theorem trans (h : CueWork s t) (g : CueWork t u) : CueWork s u where
  regs := h.regs.trans g.regs
  tb := g.tb.trans (by rw [h.tb])

theorem ite {c : Prop} [Decidable c] (h : c → CueWork s t) (g : ¬c → CueWork s u) : CueWork s (if c then t else u) := by
  split
  · next hc => exact h hc
  · next hc => exact g hc

theorem foldl {β : Type} {f : State → β → State} {l : List β} (h : CueWork s t) (hf : ∀ v x, CueWork v (f v x)) :
    CueWork s (l.foldl f t) := by
  induction l generalizing t with
  | nil => exact h
  | cons x l ih => exact ih (h.trans (hf t x))

theorem of_tb (hr : RegsIn pastRulers s t) (ht : t.tb = s.tb) : CueWork s t := ⟨hr, by rw [ht]⟩

theorem of_touches {K : Nat} (h : Touches K s t) (hr : K.testBit 2 = false) (ht : K.testBit 8 = false) : CueWork s t :=
  of_tb (.of_touches h hr) (h.tb ht)

/-- A register of a page from CUE0 on. -/
theorem setReg (s : State) {p o : Nat} (v : Word) (hp : pCUE 0 ≤ p) (ho : 0x100 ≤ o ∧ o < 4096 := by decide) : CueWork s (s.setReg p o v) :=
  of_tb (.setIn s v hp ho) rfl

theorem raise (s : State) (p : Nat) {b : Nat} (hb : b < 32) : CueWork s (s.raise p b) :=
  of_tb (.raise s p hb) ((State.raise_touches ..).tb rfl)

theorem setInt (s : State) (p b : Nat) : CueWork s (s.setInt p b) := of_tb (.setInt ..) rfl

theorem produce (s : State) (p k : Nat) : CueWork s (s.produce p k) := of_touches (State.produce_touches ..) rfl rfl

theorem modCue (s : State) (c : Nat) (f : Cue → Cue) : CueWork s (s.modCue c f) := ⟨.of_regs rfl, rfl⟩

theorem setCueBit (s : State) {base : Nat} (c : Nat) (b : Bool) (hb : 0x100 ≤ base ∧ base < 0x800) : CueWork s (s.setCueBit base c b) :=
  setReg s _ (by unfold cuePage pCUE; omega) (by omega)

theorem tb_time (h : CueWork s t) : t.tb.time = s.tb.time := by rw [h.tb]

theorem dist (h : CueWork s t) (d : Nat) : t.dist d = s.dist d := by unfold State.dist; rw [h.tb]

end CueWork

/-! ## The sensor sequencer at a firing (R132, R217) -/

theorem State.busRead_cueWork (s : State) (a n : Nat) : CueWork s (s.busRead a n).2 := by
  unfold State.busRead
  extract_lets zeros
  split
  · split_ifs
    · exact (CueWork.raise _ _ (by decide)).trans (.produce ..)
    · exact .raise _ _ (by decide)
    · exact .refl s
    · exact .setReg s _ (by unfold pCUE pDRAM; omega)
    · exact .refl s
  case h_5 => exact .refl s
  all_goals split_ifs <;> exact .refl s

theorem State.psetRead_cueWork (s : State) (a : Nat) : CueWork s (s.psetRead a).2 := s.busRead_cueWork a 4096

theorem State.psetFail_cueWork (s : State) (k ptr req : Nat) : CueWork s (s.psetFail k ptr req) :=
  .ite (fun _ => (CueWork.of_touches (State.modRing_touches ..) rfl rfl).trans (.setReg _ _ (by unfold pctxPage pPIPE pCUE; omega)))
    fun _ => .refl s

theorem State.seqFail_cueWork (s : State) (c k ptr req : Nat) : CueWork s (s.seqFail c k ptr req) :=
  ((((s.psetFail_cueWork k ptr req).trans (.of_touches (State.modStream_touches ..) rfl rfl)).trans (.setReg _ _ (by decide))).trans
    (.raise _ _ (by decide))).trans (.produce ..)

theorem State.seqFire_cueWork (s : State) (c : Nat) : CueWork s (s.seqFire c) := by
  unfold State.seqFire
  extract_lets w st sq p
  refine .ite (fun _ => ?_) fun _ => ?_
  · exact ((CueWork.setReg _ _ (by decide)).trans (.of_touches (State.scxPut_touches ..) rfl rfl)).trans (.raise _ _ (by decide))
  split
  · exact .refl s
  extract_lets k
  split
  · exact .refl s
  next e _ =>
  extract_lets at_ s1
  refine .ite (fun _ => ?_) fun _ => .refl s
  have h1 : CueWork s s1 := .of_touches (State.modRing_touches ..) rfl rfl
  have h2 : CueWork s (s1.psetRead e.ptr).2 := h1.trans (s1.psetRead_cueWork e.ptr)
  split
  · next u hu => rw [hu] at h2; exact h2.trans (u.seqFail_cueWork ..)
  · next ws u hu =>
    rw [hu] at h2
    exact (h2.trans (.of_touches (State.modStream_touches ..) rfl rfl)).trans (.of_touches (State.seqSend_touches ..) rfl rfl)

theorem State.seqCueFired_cueWork (s : State) (cue : Nat) : CueWork s (s.seqCueFired cue) :=
  .foldl (.refl s) fun v c => .ite (fun _ => v.seqFire_cueWork c) fun _ => .refl v

/-! ## The cues -/

theorem State.cueFire_cueWork (s : State) (c : Nat) (late unpredicted : Bool) : CueWork s (s.cueFire c late unpredicted) := by
  unfold State.cueFire
  extract_lets q p s1 s2 s3 s4 s5
  have h3 : CueWork s s3 := ((CueWork.of_touches (State.produceOn_touches ..) rfl rfl).trans (.modCue ..)).trans (.setCueBit _ _ _ (by decide))
  have h4 : CueWork s s4 := .ite (fun _ => h3.trans (.setInt ..)) fun _ => h3
  have h5 : CueWork s s5 := .ite (fun _ => h4.trans (.setInt ..)) fun _ => h4
  exact h5.trans (s5.seqCueFired_cueWork c)

theorem State.cueMiss_cueWork (s : State) (c n : Nat) : CueWork s (s.cueMiss c n) :=
  ((CueWork.modCue ..).trans (.setCueBit _ _ _ (by decide))).trans (.setInt ..)

theorem State.cueDisarm_cueWork (s : State) (c : Nat) : CueWork s (s.cueDisarm c) :=
  (CueWork.modCue ..).trans (.setCueBit _ _ _ (by decide))

theorem State.cueNext_cueWork (s : State) (c t : Nat) (dec : Bool) : CueWork s (s.cueNext c t dec) :=
  .ite (fun _ => s.cueDisarm_cueWork c) fun _ => .ite (fun _ => (CueWork.modCue ..).trans (State.cueDisarm_cueWork ..)) fun _ => .modCue ..

theorem State.cuePassed_cueWork (s : State) (c : Nat) (stepped : Bool) : CueWork s (s.cuePassed c stepped) := by
  unfold State.cuePassed
  extract_lets q r s0 fires s1 step n adv skipped s2
  have h0 : CueWork s s0 := .ite (fun _ => .modCue ..) fun _ => .refl s
  have h1 : CueWork s s1 := .ite (fun _ => h0.trans (s0.cueFire_cueWork ..)) fun _ => h0
  have h2 : CueWork s s2 := .ite (fun _ => h1) fun _ => h1.trans (s1.cueMiss_cueWork ..)
  refine .ite (fun _ => ?_) fun _ => h2.trans (s2.cueNext_cueWork ..)
  exact (CueWork.ite (fun _ => h1) fun _ => h1.trans (s1.cueMiss_cueWork ..)).trans (State.cueDisarm_cueWork ..)

theorem State.cuesStepped_cueWork (s : State) (r : Nat) : CueWork s (s.cuesStepped r) :=
  .foldl (.refl s) fun v _ => .ite (fun _ => v.cuePassed_cueWork ..) fun _ => .refl v

theorem State.cueEval_cueWork (s : State) (c : Nat) : CueWork s (s.cueEval c) := by
  unfold State.cueEval
  extract_lets q r v s1
  have h1 : CueWork s s1 := .modCue ..
  exact .ite (fun _ => .refl s) fun _ => .ite (fun _ => .modCue ..) fun _ => .ite (fun _ => h1) fun _ =>
    .ite (fun _ => h1.trans (s1.cuePassed_cueWork ..)) fun _ => .ite (fun _ => h1.trans (.modCue ..)) fun _ =>
    .ite (fun _ => h1.trans (.modCue ..)) fun _ => h1

theorem State.cuesFire_cueWork (s : State) (l : List Nat) : CueWork s (s.cuesFire l) := by
  induction l generalizing s with
  | nil => exact .refl s
  | cons c l ih => exact ((s.cueFire_cueWork ..).trans (State.cueNext_cueWork ..)).trans (ih _)

theorem State.cuesTick_cueWork (s : State) : CueWork s s.cuesTick := by
  unfold State.cuesTick
  extract_lets s1 due s2 fire s3
  have h1 : CueWork s s1 := .foldl (.refl s) fun v _ => v.cueEval_cueWork _
  have h2 : CueWork s s2 := .ite (fun _ => .foldl h1 fun v _ => .raise v _ (by decide)) fun _ => h1
  have h3 : CueWork s s3 := h2.trans (s2.cuesFire_cueWork fire)
  exact .ite (fun _ => h3) fun _ => h3.trans (.of_touches (State.cueCommits_touches ..) rfl rfl)

end Sys2Proof.Machine
end

section
/-!
SUPPORT. TIMEBASE: the tick of TIME (R51, R55), the snapshot of every ruler (R53), steps of TIME (R57, R58) and the servo (R408).
-/

namespace Sys2Proof.Machine

open Sys2Proof

/-! ## The tick -/

@[simp] theorem State.tb_produce (s : State) (p k : Nat) : (s.produce p k).tb = s.tb := (State.produce_touches ..).tb rfl

/-- The change of a table of `tb` beside TIME, by a tick of the rulers. -/
def TimeKept (s t : State) : Prop := t.tb.time = s.tb.time

theorem TimeKept.foldl {β : Type} {f : State → β → State} {l : List β} (s : State) (hf : ∀ v x, TimeKept v (f v x)) :
    TimeKept s (l.foldl f s) := by
  induction l generalizing s with
  | nil => rfl
  | cons x l ih => exact (ih (f s x)).trans (hf s x)

theorem State.phaseTick_time (s : State) (p : Nat) : TimeKept s (s.phaseTick p) := by
  unfold State.phaseTick TimeKept
  split
  · rfl
  · extract_lets x adv lim back slew acc v s1 s2
    split
    · rw [State.tb_produce]; rfl
    · rfl

theorem State.lineTick_time (s : State) (n : Nat) : TimeKept s (s.lineTick n) := by
  unfold State.lineTick TimeKept
  extract_lets r acc px ht s1 y
  split_ifs <;> rfl

theorem State.linePairs_time (s : State) : TimeKept s s.linePairs := by
  refine TimeKept.foldl s fun t n => ?_
  unfold TimeKept
  dsimp only
  split <;> rfl

/-- Without a correction TIME moves by 4 ns, 262144 of its units (R51, R55). -/
theorem State.timeTick_time {s : State} (hadj : s.reg pTIMEBASE Off.timebase_RATE_ADJ = 0) (hrem : s.tb.timeRem < 1000000) :
    s.timeTick.tb.time = s.tb.time + 4 * 65536 := by
  have ht : ((s.tb.time : Int) + 262144 + ((s.tb.timeRem : Int) + 4 * signed 32 (0 : Word).toNat) / 1000000).toNat =
      s.tb.time + 4 * 65536 := by
    have : signed 32 (0 : Word).toNat = 0 := by decide
    omega
  unfold State.timeTick
  rw [hadj]
  dsimp only
  split
  · rw [State.tb_produce]; exact ht
  · exact ht

theorem execTimebaseTick_time (s : State) :
    ∃ u, execTimebaseTick s = .next u ∧ u.tb.time = (s.onNow (· + 1)).timeTick.tb.time := by
  unfold execTimebaseTick
  extract_lets s1 s2 s3
  have h2 : TimeKept s1 s2 := ((s1.phaseTick 0).phaseTick_time 1).trans (s1.phaseTick_time 0)
  have h3 : TimeKept s2 s3 := (State.linePairs_time _).trans <| TimeKept.foldl s2 fun t n => by
    split
    · rfl
    · exact t.lineTick_time n
  refine ⟨_, rfl, ?_⟩
  rw [(State.fnUpdate_touches _).tb rfl, (State.dlkDrain_touches _).tb rfl, s3.cuesTick_cueWork.tb_time]
  exact h3.trans h2

/-! ## The snapshot -/

/-- Values of 64 bits stored in `n` register pairs of page `p` from offset `b` on. -/
def State.storeEach (s : State) (p b : Nat) (f : Nat → Nat) (n : Nat) : State :=
  (List.range n).foldl (fun t d => t.setReg64 p (b + 8 * d) (b + 8 * d + 4) (f d)) s

theorem State.storeEach_succ (s : State) (p b : Nat) (f : Nat → Nat) (n : Nat) :
    s.storeEach p b f (n + 1) = (s.storeEach p b f n).setReg64 p (b + 8 * n) (b + 8 * n + 4) (f n) := by
  simp [State.storeEach, List.range_succ]

theorem State.reg_setReg64_ne {s : State} {p lo hi v q o : Nat} (hlo : rg q o ≠ rg p lo) (hhi : rg q o ≠ rg p hi) :
    (s.setReg64 p lo hi v).reg q o = s.reg q o := by
  unfold State.setReg64
  rw [State.reg_setReg_ne hhi, State.reg_setReg_ne hlo]

theorem State.reg_storeEach_other (s : State) {p b n : Nat} (f : Nat → Nat) {q o : Nat} (hn : b + 8 * n ≤ 4096) (ho : o < 4096)
    (h : q = p → o < b ∨ b + 8 * n ≤ o) : (s.storeEach p b f n).reg q o = s.reg q o := by
  induction n with
  | zero => rfl
  | succ n ih =>
    rw [State.storeEach_succ, State.reg_setReg64_ne, ih (by omega) (fun e => (h e).imp id fun h => by omega)]
    all_goals rw [Ne, rg_inj ho (by omega)]; omega

theorem State.reg64_storeEach (s : State) {p b n : Nat} (f : Nat → Nat) (hn : b + 8 * n ≤ 4096) {d : Nat} (hd : d < n) :
    (s.storeEach p b f n).reg64 p (b + 8 * d) (b + 8 * d + 4) = f d % 2 ^ 64 := by
  induction n with
  | zero => omega
  | succ n ih =>
    rw [State.storeEach_succ]
    rcases Nat.lt_succ_iff_lt_or_eq.1 hd with h | rfl
    · unfold State.reg64
      rw [State.reg_setReg64_ne, State.reg_setReg64_ne]
      · exact ih (by omega) h
      all_goals rw [Ne, rg_same_page]; omega
    · exact State.reg64_setReg64 _ (by omega) _

theorem State.reg64_congr {s t : State} {p lo hi : Nat} (hlo : t.reg p lo = s.reg p lo) (hhi : t.reg p hi = s.reg p hi) :
    t.reg64 p lo hi = s.reg64 p lo hi := by unfold State.reg64; rw [hlo, hhi]

theorem unsigned_mod (n : Nat) (x : Int) : unsigned n x % 2 ^ n = unsigned n x := by
  refine Nat.mod_eq_of_lt ?_
  have := Int.emod_lt_of_pos x (b := (2 ^ n : Nat)) (by positivity)
  have := Int.emod_nonneg x (b := (2 ^ n : Nat)) (by positivity)
  unfold unsigned
  omega

/-- TIME as a snapshot holds it: seconds, nanoseconds and the fraction. -/
def State.snapTime (s : State) : State :=
  ((s.setReg64 pTIMEBASE Off.timebase_SNAP_TIME (Off.timebase_SNAP_TIME + 4) (s.timeNs / 1000000000)).setReg pTIMEBASE
    (Off.timebase_SNAP_TIME + 8) (wd (s.timeNs % 1000000000))).setReg pTIMEBASE (Off.timebase_SNAP_TIME + 12) (wd (s.tb.time % 65536))

/-- The DIST rulers beside it, the PHASE rulers, the LINE rulers, and with the SLINE rulers all that a snapshot holds. -/
def State.snapDist (s : State) : State := s.snapTime.storeEach pTIMEBASE Off.timebase_SNAP_DIST0 (fun d => unsigned 64 (s.distVal d)) 4
def State.snapPhase (s : State) : State := s.snapDist.storeEach pTIMEBASE Off.timebase_SNAP_PHASE0 (fun p => (s.phase p).val) 2
def State.snapLine (s : State) : State := s.snapPhase.storeEach pLINEVIEW Off.lineview_SNAP_LINE0 s.lineVal 8
def State.snapRulers (s : State) : State := s.snapLine.storeEach pLINEVIEW Off.lineview_SNAP_SLINE0 s.slineVal 64

theorem State.snapshot_eq (s : State) : s.snapshot =
    (s.snapRulers.putBit pTIMEBASE Off.timebase_SNAP_STAT 0 true).countWrap pTIMEBASE Off.timebase_SNAP_STAT 16 16 1 := rfl

/-- Beside SNAP_STAT a snapshot is the rulers it holds. -/
theorem State.reg_snapshot (s : State) {q o : Nat} (ho : o < 4096) (h : q = pTIMEBASE → o ≠ Off.timebase_SNAP_STAT) :
    s.snapshot.reg q o = s.snapRulers.reg q o := by
  have hne : rg q o ≠ rg pTIMEBASE Off.timebase_SNAP_STAT := by
    rw [Ne, rg_inj ho (by decide)]
    exact fun e => h e.1 e.2
  rw [State.snapshot_eq, State.reg_countWrap_ne hne, State.reg_putBit_ne hne]

/-- The LINE and SLINE rulers are stored on another page than the pairs before them. -/
theorem State.reg_snapRulers_timebase (s : State) {o : Nat} (ho : o < 4096) : s.snapRulers.reg pTIMEBASE o = s.snapPhase.reg pTIMEBASE o := by
  rw [State.snapRulers, State.reg_storeEach_other _ _ (by decide) ho (fun e => absurd e (by decide)), State.snapLine,
    State.reg_storeEach_other _ _ (by decide) ho (fun e => absurd e (by decide))]

/-- The pairs of the DIST and PHASE rulers begin past TIME's registers and SNAP_STAT. -/
theorem State.reg_snapRulers_time (s : State) {o : Nat} (ho : o < 0x150) : s.snapRulers.reg pTIMEBASE o = s.snapTime.reg pTIMEBASE o := by
  have h4 : o < 4096 := by omega
  have hphase : o < 0x170 := by omega
  rw [State.reg_snapRulers_timebase s h4, State.snapPhase, State.reg_storeEach_other _ _ (by decide) h4 (fun _ => .inl hphase),
    State.snapDist, State.reg_storeEach_other _ _ (by decide) h4 (fun _ => .inl ho)]

theorem State.reg_snapshot_time (s : State) {o : Nat} (ho : o < 0x150) (h : o ≠ Off.timebase_SNAP_STAT) :
    s.snapshot.reg pTIMEBASE o = s.snapTime.reg pTIMEBASE o := by
  rw [State.reg_snapshot s (by omega) fun _ => h, State.reg_snapRulers_time s ho]

theorem State.snapshot_stat (s : State) : s.snapshot.bit pTIMEBASE Off.timebase_SNAP_STAT 0 = true ∧
    s.snapshot.fld pTIMEBASE Off.timebase_SNAP_STAT 16 16 = (s.fld pTIMEBASE Off.timebase_SNAP_STAT 16 16 + 1) % 65536 := by
  have hstat : s.snapRulers.reg pTIMEBASE Off.timebase_SNAP_STAT = s.reg pTIMEBASE Off.timebase_SNAP_STAT := by
    rw [State.reg_snapRulers_time s (by decide)]
    simp [State.snapTime, State.setReg64, State.reg_setReg, Off.timebase_SNAP_STAT, Off.timebase_SNAP_TIME]
  unfold State.bit State.fld
  rw [State.snapshot_eq, State.countWrap, State.reg_setReg_same, State.putBit, State.reg_setReg_same, hstat, wrapAdd,
    wfld_setBit_other _ _ _ _ _ (by decide) (by decide), bitAt_wset _ _ _ _ _ (by decide), wfld_wset _ 16 16 _ (by decide)]
  exact ⟨bitAt_setBit .., rfl⟩

/-- Pairs that nothing written after them meets hold the values stored. -/
theorem State.reg64_of_stored {u : State} (t : State) {p b n : Nat} (f : Nat → Nat) (hn : b + 8 * n ≤ 4096)
    (h : ∀ o, b ≤ o → o < b + 8 * n → u.reg p o = (t.storeEach p b f n).reg p o) {d : Nat} (hd : d < n) :
    u.reg64 p (b + 8 * d) (b + 8 * d + 4) = f d % 2 ^ 64 :=
  (State.reg64_congr (h _ (by omega) (by omega)) (h _ (by omega) (by omega))).trans (State.reg64_storeEach t f hn hd)

theorem State.snapshot_dist (s : State) {d : Nat} (hd : d < 4) :
    s.snapshot.reg64 pTIMEBASE (Off.timebase_SNAP_DIST0 + 8 * d) (Off.timebase_SNAP_DIST0 + 8 * d + 4) = unsigned 64 (s.distVal d) := by
  refine (State.reg64_of_stored s.snapTime (fun d => unsigned 64 (s.distVal d)) (by decide)
    (fun o (h1 : 0x150 ≤ o) (h2 : o < 0x170) => ?_) hd).trans (unsigned_mod ..)
  have h4 : o < 4096 := by omega
  rw [State.reg_snapshot s h4 (fun _ => show o ≠ 0x134 by omega), State.reg_snapRulers_timebase s h4, State.snapPhase,
    State.reg_storeEach_other _ _ (by decide) h4 (fun _ => .inl h2), State.snapDist]

theorem State.snapshot_phase (s : State) {p : Nat} (hp : p < 2) :
    s.snapshot.reg64 pTIMEBASE (Off.timebase_SNAP_PHASE0 + 8 * p) (Off.timebase_SNAP_PHASE0 + 8 * p + 4) = (s.phase p).val % 2 ^ 64 := by
  refine State.reg64_of_stored s.snapDist (fun p => (s.phase p).val) (by decide) (fun o (h1 : 0x170 ≤ o) (h2 : o < 0x180) => ?_) hp
  have h4 : o < 4096 := by omega
  rw [State.reg_snapshot s h4 (fun _ => show o ≠ 0x134 by omega), State.reg_snapRulers_timebase s h4, State.snapPhase]

theorem State.snapshot_line (s : State) {n : Nat} (hn : n < 8) :
    s.snapshot.reg64 pLINEVIEW (Off.lineview_SNAP_LINE0 + 8 * n) (Off.lineview_SNAP_LINE0 + 8 * n + 4) = s.lineVal n % 2 ^ 64 := by
  refine State.reg64_of_stored s.snapPhase s.lineVal (by decide) (fun o (h1 : 0x140 ≤ o) (h2 : o < 0x180) => ?_) hn
  have h4 : o < 4096 := by omega
  have hsline : o < 0x800 := by omega
  rw [State.reg_snapshot s h4 (fun e => absurd e (by decide)), State.snapRulers,
    State.reg_storeEach_other _ _ (by decide) h4 (fun _ => .inl hsline), State.snapLine]

theorem State.snapshot_sline (s : State) {n : Nat} (hn : n < 64) :
    s.snapshot.reg64 pLINEVIEW (Off.lineview_SNAP_SLINE0 + 8 * n) (Off.lineview_SNAP_SLINE0 + 8 * n + 4) = s.slineVal n % 2 ^ 64 :=
  State.reg64_of_stored _ s.slineVal (by decide)
    (fun o _ (h2 : o < 0xA00) => State.reg_snapshot s (by omega) (fun e => absurd e (by decide))) hn

/-- A snapshot holds every ruler (R53). -/
theorem State.snapshot_snapped (s : State) : s.Snapped s.snapshot := by
  obtain ⟨hvalid, hcount⟩ := s.snapshot_stat
  refine ⟨?_, ?_, ?_, ?_, fun _ => s.snapshot_dist, fun _ => s.snapshot_phase, fun _ => s.snapshot_line, fun _ => s.snapshot_sline,
    hvalid, hcount⟩
  all_goals
    rw [s.reg_snapshot_time (by decide) (by decide)]
    simp [State.snapTime, State.setReg64, State.reg_setReg]

/-- Behind an open gate, and without the busy mark of an input, every ruler is what it was. -/
theorem State.Snapped.of_passed {s u : State} {m : Master} {p : Nat} (h : (s.passed m p).Snapped u) : s.Snapped u := by
  unfold State.passed at h
  split at h <;> exact h

theorem State.Snapped.of_setBusy {s u : State} {p k : Nat} {b : Bool} (h : (s.setBusy p k b).Snapped u) : s.Snapped u := h

theorem State.inBusy_setBusy (s : State) (p k : Nat) (b : Bool) : (s.setBusy p k b).inBusy p k = b :=
  Map.get_put_same (fun _ => false) s.evf.inBusy (p * 4 + k) b

/-! ## Steps of TIME (R57, R58) -/

theorem not_pastRulers {q o : Nat} (h : q < pCUE 0) : ¬ pastRulers q o := Nat.not_le.2 h

theorem tsnPage_pastRulers (n o : Nat) : pastRulers (tsnPage n) o := by
  unfold pastRulers tsnPage pTSN pCUE; omega

theorem tsnOff_range (n : Nat) {o : Nat} (ho : 0x100 ≤ o ∧ o < 0x800) : 0x100 ≤ tsnOff n o ∧ tsnOff n o < 4096 := by
  unfold tsnOff; omega

theorem State.gateSeek_regsIn (s : State) (n : Nat) : RegsIn pastRulers s (s.gateSeek n) := by
  unfold State.gateSeek
  extract_lets cyc p base len off e hold w
  have hset : ∀ t v, RegsIn pastRulers t (t.setReg p (tsnOff n Off.tsn_OPER_STAT) v) := fun t v =>
    .setIn t v (tsnPage_pastRulers n _) (tsnOff_range n (by decide))
  exact .ite (fun _ => .refl s) fun _ => (RegsIn.of_touches (State.modMac_touches ..) rfl).trans (hset _ _)

theorem State.gatesStepped_regsIn (s : State) : RegsIn pastRulers s s.gatesStepped :=
  .foldl (.refl s) fun v n _ => .ite (fun _ => .refl v) fun _ => ((v.gateSeek_regsIn n).trans
    (.setIn _ _ (tsnPage_pastRulers n _) (tsnOff_range n (o := Off.tsn_CNT_GATE) (by decide)))).trans (.raise _ _ (by decide))

/-- A step loads TIME, reports its direction, and leaves the ruler pages' registers (R58). -/
theorem State.timeStep_spec (s : State) (n : Nat) :
    (s.timeStep n).tb.time = n ∧ RegsIn pastRulers s (s.timeStep n) ∧ (s.tb.time < n → (s.timeStep n).Faulted pTIMEBASE 8) ∧
      (n < s.tb.time → (s.timeStep n).Faulted pTIMEBASE 9) := by
  unfold State.timeStep
  extract_lets old s0 s1
  have htime : s1.tb.time = n := by
    rw [show s1.tb = s0.gatesStepped.tb from State.onTdm_tb .., (State.gatesStepped_touches s0).tb rfl]
    exact congrArg Timebase.time (State.onTb_tb ..)
  have hregs : RegsIn pastRulers s s1 :=
    (RegsIn.of_regs (State.onTb_regs ..)).trans (s0.gatesStepped_regsIn.trans (.of_regs (State.onTdm_regs ..)))
  have step : ∀ b < 32, CueWork s1 ((s1.raise pTIMEBASE b).produce pTIMEBASE 1) ∧
      ((s1.raise pTIMEBASE b).produce pTIMEBASE 1).Faulted pTIMEBASE b := fun b hb =>
    ⟨(CueWork.raise _ _ hb).trans (.produce ..), (State.raise_faulted _ rfl hb).congr (State.reg_produce ..)⟩
  split_ifs with hlt hgt
  · obtain ⟨hwork, hfault⟩ := step 8 (by decide)
    have hcues := State.cuesStepped_cueWork ((s1.raise pTIMEBASE 8).produce pTIMEBASE 1) 0
    have h := hwork.trans hcues
    exact ⟨h.tb_time.trans htime, hregs.trans h.regs, fun _ => hcues.regs.faulted _ _ hfault, fun hgt => by omega⟩
  · obtain ⟨hwork, hfault⟩ := step 9 (by decide)
    exact ⟨hwork.tb_time.trans htime, hregs.trans hwork.regs, fun hlt => by omega, fun _ => hfault⟩
  · exact ⟨htime, hregs, fun hlt => by omega, fun hgt => by omega⟩

/-! ## The servo (R55, R408) -/

theorem State.servo_congr {s t : State} (hctrl : t.reg pTIMEBASE Off.timebase_TIME_CTRL = s.reg pTIMEBASE Off.timebase_TIME_CTRL)
    (hstat : t.reg pPTP Off.ptp_STAT = s.reg pPTP Off.ptp_STAT) : t.servo = s.servo := by
  unfold State.servo
  rw [State.bit_congr_reg hctrl, State.fld_congr_reg hstat]

theorem State.holdoverChange_regsIn (s : State) (was : Bool) : RegsIn (fun _ _ => False) s (s.holdoverChange was) :=
  .ite (fun _ => .refl s) fun _ => (RegsIn.ite (fun _ => .refl s) fun _ => .raise _ _ (by decide)).trans (.produce ..)

theorem State.holdoverChange_faulted {s : State} (h : s.holdover = true) : (s.holdoverChange false).Faulted pTIMEBASE 10 := by
  unfold State.holdoverChange
  rw [if_neg (by simp [h])]
  exact (State.raise_faulted s (p := pTIMEBASE) (b := 10) rfl (by decide)).congr (State.reg_produce ..)

/-- SERVO_EN as TIME_CTRL shows it. -/
abbrev State.servoEn (s : State) : Bool := s.bit pTIMEBASE Off.timebase_TIME_CTRL 0

theorem State.servo_on {s : State} (h : s.servoEn = true) :
    s.servo = if s.fld pPTP Off.ptp_STAT 0 3 = 0 then 1 else s.fld pPTP Off.ptp_STAT 0 3 := by
  unfold State.servoEn at h
  simp [State.servo, h]

theorem State.servo_off {s : State} (h : s.servoEn = false) : s.servo = 0 := by
  unfold State.servoEn at h
  simp [State.servo, h]

theorem State.holdoverChange_servo (s : State) (was : Bool) :
    (s.holdoverChange was).servo = s.servo ∧ (s.holdoverChange was).servoEn = s.servoEn := by
  have h := (s.holdoverChange_regsIn was).reg
  exact ⟨State.servo_congr (h _ _ (by decide) id) (h _ _ (by decide) id), State.bit_congr_reg (h _ _ (by decide) id) 0⟩

theorem State.produce_servo (s : State) (p k : Nat) : (s.produce p k).servo = s.servo :=
  State.servo_congr (State.reg_produce ..) (State.reg_produce ..)

/-- SERVO_EN written and the servo taken to DISABLED or HOLDOVER (R408). -/
def State.servoSwitched (s : State) (on : Bool) : State :=
  (((s.putBit pTIMEBASE Off.timebase_TIME_CTRL 0 on).setFld pPTP Off.ptp_STAT 0 3 (if on then 1 else 0)).produce pPTP 0).holdoverChange
    s.holdover

theorem State.servo_setFld (s : State) {v : Nat} (hv : v < 8) (h0 : v ≠ 0) (hon : s.servoEn = true) :
    (s.setFld pPTP Off.ptp_STAT 0 3 v).servo = v := by
  have hen : (s.setFld pPTP Off.ptp_STAT 0 3 v).servoEn = true :=
    (State.bit_congr_reg (State.reg_setFld_ne (by rw [Ne, rg_inj (by decide) (by decide)]; decide)) 0).trans hon
  rw [State.servo_on hen, State.fld_setFld _ _ _ _ _ _ (by decide), show v % 2 ^ 3 = v from Nat.mod_eq_of_lt hv, if_neg h0]

theorem State.servoSwitched_spec (s : State) (on : Bool) :
    (s.servoSwitched on).servoEn = on ∧ (s.servoSwitched on).servo = on.toNat ∧ (s.servoSwitched on).net = s.net ∧
      (s.holdover = false → on = true → (s.servoSwitched on).Faulted pTIMEBASE 10) := by
  have hne : rg pTIMEBASE Off.timebase_TIME_CTRL ≠ rg pPTP Off.ptp_STAT := by decide
  have h1 : (s.putBit pTIMEBASE Off.timebase_TIME_CTRL 0 on).servoEn = on := State.bit_putBit ..
  have h2 : ∀ v, ((s.putBit pTIMEBASE Off.timebase_TIME_CTRL 0 on).setFld pPTP Off.ptp_STAT 0 3 v).servoEn = on := fun v =>
    (State.bit_congr_reg (State.reg_setFld_ne hne) 0).trans h1
  unfold State.servoSwitched
  refine ⟨?_, ?_, ?_, fun hoff hon => ?_⟩
  · rw [(State.holdoverChange_servo ..).2, State.servoEn, State.bit_congr_reg (State.reg_produce ..)]
    exact h2 _
  · rw [(State.holdoverChange_servo ..).1, State.produce_servo]
    cases on with
    | true => exact State.servo_setFld _ (by decide) (by decide) h1
    | false => exact State.servo_off (h2 _)
  · rw [(State.holdoverChange_touches ..).net rfl, (State.produce_touches ..).net rfl]; rfl
  · subst hon
    rw [hoff]
    refine State.holdoverChange_faulted ?_
    unfold State.holdover
    rw [State.produce_servo, if_pos rfl, State.servo_setFld _ (by decide) (by decide) h1]
    rfl

/-- A servo that is on goes to ACQUIRING (R408). -/
theorem State.setServo_acquiring {s : State} (hon : s.servoEn = true) (h1 : s.servo = 1) :
    (s.setServo 2).servoEn = true ∧ (s.setServo 2).servo = 2 := by
  unfold State.setServo
  rw [if_neg (by omega)]
  extract_lets was s1 s2 s3
  have h2 : s2 = s1 := if_neg (by omega)
  have h3 : s3 = s1 := (if_neg (by decide)).trans h2
  rw [h3, (State.holdoverChange_servo ..).1, (State.holdoverChange_servo ..).2, State.produce_servo, State.servoEn,
    State.bit_congr_reg (State.reg_produce ..)]
  exact ⟨(State.bit_congr_reg (State.reg_setFld_ne (by decide)) 0).trans hon, State.servo_setFld s (by decide) (by decide) hon⟩

/-! ## The commands -/

theorem exec_timeCtrlWrite {s : State} {m : Master} (ho : s.Open m pTIMEBASE) (v : Word) : exec (.timeCtrlWrite m v) s =
    .next (if bitAt v 0 = s.servoEn then s.passed m pTIMEBASE
      else if bitAt v 0 && ((s.passed m pTIMEBASE).servoSwitched (bitAt v 0)).net.ptp.sel.isSome then
        ((s.passed m pTIMEBASE).servoSwitched (bitAt v 0)).setServo 2
      else (s.passed m pTIMEBASE).servoSwitched (bitAt v 0)) := by
  show execTimeCtrlWrite m v s = _
  rw [execTimeCtrlWrite, State.regWrite_open ho]
  simp only [State.passed_bit]
  rfl

/-- TIME as TIME_SET names it, in units of 2^-16 ns (R57). -/
def State.timeSet (s : State) : Nat :=
  (s.reg64 pTIMEBASE Off.timebase_TIME_SET_SEC_LO Off.timebase_TIME_SET_SEC_HI * 1000000000 + (s.reg pTIMEBASE Off.timebase_TIME_SET_NS).toNat) * 65536

theorem State.passed_timeSet (s : State) (m : Master) (p : Nat) : (s.passed m p).timeSet = s.timeSet := by
  unfold State.timeSet
  rw [State.passed_reg, State.reg64_congr (State.passed_reg ..) (State.passed_reg ..)]

theorem exec_timeSetGo {s : State} {m : Master} {v : Word} (ho : s.Open m pTIMEBASE) (hv : bitAt v 0 = true) : exec (.timeSetGo m v) s =
    .next (if s.servoEn then (s.passed m pTIMEBASE).stateWrite pTIMEBASE
      else ((s.passed m pTIMEBASE).putBit pTIMEBASE Off.timebase_TIME_STAT 0 true).timeStep s.timeSet) := by
  show execTimeSetGo m v s = _
  rw [execTimeSetGo, State.regWrite_open ho, if_neg (by simp [hv]), State.passed_bit, ← State.passed_timeSet s m pTIMEBASE, State.timeSet]

theorem State.holdover_of_servo {s : State} {n : Nat} (h : s.servo = n) : s.holdover = (n == 1 || n == 4) := by
  unfold State.holdover; rw [h]

/-- Settles O21: the tick of TIME, the snapshot, the step of TIME and the servo's switch, each by the lemma on its operation. -/
theorem timebaseCommands : Obligations.TimebaseCommands := by
  unfold Obligations.TimebaseCommands
  refine ⟨?tick, ?snap, ?strobe, ?set, ?ctrl⟩
  case tick =>
    intro s hadj hrem
    obtain ⟨u, hu, htime⟩ := execTimebaseTick_time s
    obtain ⟨w, hw, hnow, -⟩ := execTimebaseTick_clock s
    obtain rfl : u = w := Host.Outcome.next.inj (hu.symm.trans hw)
    exact ⟨u, hu, hnow, htime.trans (State.timeTick_time hadj hrem)⟩
  case snap =>
    intro m v s ho hv
    refine ⟨_, ?_, (s.passed m pTIMEBASE).snapshot_snapped.of_passed⟩
    show execSnapGo m v s = _
    rw [execSnapGo, State.regWrite_open ho, if_pos hv]
  case strobe =>
    intro s hbusy
    refine ⟨(s.setBusy pTIMEBASE 0 false).snapshot, if_pos hbusy, (State.snapshot_snapped _).of_setBusy, ?_⟩
    rw [State.inBusy, (State.snapshot_touches _).evf rfl]
    exact s.inBusy_setBusy pTIMEBASE 0 false
  case set =>
    intro m v s n ho hv hn
    have hset : s.timeSet = n := hn.symm
    have hexec := hset ▸ exec_timeSetGo ho hv
    refine ⟨fun hoff => ⟨_, by rw [hexec, if_neg (by simp [hoff])], ?_⟩, fun hon => ⟨_, by rw [hexec, if_pos hon], ?_⟩⟩
    · obtain ⟨htime, hregs, hfwd, hback⟩ := ((s.passed m pTIMEBASE).putBit pTIMEBASE Off.timebase_TIME_STAT 0 true).timeStep_spec n
      refine ⟨htime, ?_, fun h => hfwd ?_, fun h => hback ?_⟩
      · exact (State.bit_congr_reg (hregs.reg _ _ (by decide) (not_pastRulers (by decide))) 0).trans (State.bit_putBit ..)
      · rwa [State.putBit, State.setReg, State.onRegs_tb, State.passed_tb]
      · rwa [State.putBit, State.setReg, State.onRegs_tb, State.passed_tb]
    · refine ⟨State.raise_faulted _ rfl (by decide), ?_, State.KeepsRegs.of_passed (State.KeepsRegs.of_raise _ _ _ _ _)⟩
      rw [State.stateWrite, (State.raise_touches ..).tb rfl, State.passed_tb]
  case ctrl =>
    intro m v s ho
    refine ⟨_, exec_timeCtrlWrite ho v, ?_⟩
    obtain ⟨hen, hservo, hnet, hfault⟩ := (s.passed m pTIMEBASE).servoSwitched_spec (bitAt v 0)
    by_cases hsame : bitAt v 0 = s.servoEn
    · rw [if_pos hsame]
      refine ⟨(State.passed_bit ..).trans hsame.symm, fun h0 h1 => ?_, fun h0 h1 => ?_, fun h0 h1 => ?_⟩
      all_goals simp_all
    rw [if_neg hsame]
    cases hv : bitAt v 0 with
    | false =>
      rw [hv] at hen hservo
      exact ⟨hen, fun _ h => absurd h (by decide), fun _ h => absurd h (by decide), fun _ _ => ⟨hservo, State.holdover_of_servo hservo⟩⟩
    | true =>
      rw [hv] at hen hservo hnet hfault hsame
      have hoff : s.servoEn = false := by simpa using Ne.symm hsame
      have hover : (s.passed m pTIMEBASE).holdover = false :=
        State.holdover_of_servo (State.servo_off ((State.passed_bit ..).trans hoff))
      rw [hnet, State.passed_net, Bool.true_and]
      by_cases hsel : s.net.ptp.sel.isSome = true
      · rw [if_pos hsel]
        obtain ⟨hen2, hservo2⟩ := State.setServo_acquiring hen hservo
        exact ⟨hen2, fun _ _ h => by simp [h] at hsel, fun _ _ _ => ⟨hservo2, State.holdover_of_servo hservo2⟩,
          fun _ h => absurd h (by decide)⟩
      · rw [if_neg hsel]
        exact ⟨hen, fun _ _ _ => ⟨hfault hover rfl, hservo⟩, fun _ _ h => absurd h hsel, fun _ h => absurd h (by decide)⟩

end Sys2Proof.Machine
end

section
/-!
SUPPORT. The DIST rulers (R59 to R67): what an encoder's edge moves, and what the comparison of the rates and the estimator leave.
-/

namespace Sys2Proof.Machine

open Sys2Proof

theorem quietOff_block {o : Nat} (h : 0x100 ≤ o ∧ o < 4096) : quietOff o = true := by
  have h1 : o ≠ Off.hdr_PG_FAULT := fun e => absurd h.1 (e ▸ by decide)
  have h2 : o ≠ Off.hdr_PG_STAT := fun e => absurd h.1 (e ▸ by decide)
  have h3 : o ≠ Off.hdr_PG_INT_STAT := fun e => absurd h.1 (e ▸ by decide)
  have h4 : o ≠ Off.hdr_PG_SHADOW := fun e => absurd h.1 (e ▸ by decide)
  simp [quietOff, loudOff, h.2, h1, h2, h3, h4]

theorem State.dist_modDist (s : State) (d : Nat) (f : Dist → Dist) : (s.modDist d f).dist d = f (s.dist d) := Map.get_put_same ..

theorem State.dist_modDist_other (s : State) {d k : Nat} (f : Dist → Dist) (h : k ≠ d) : (s.modDist d f).dist k = s.dist k :=
  Map.get_put_other _ _ _ h

theorem State.dist_congr {s t : State} (h : t.tb = s.tb) (d : Nat) : t.dist d = s.dist d := by unfold State.dist; rw [h]

/-! ## What the rulers show: RATE, ACCEL, RATE_QUAL and STATUS -/

/-- The registers that the DIST rulers write by themselves. -/
def distOut (q o : Nat) : Prop := q = pDIST ∧ o < 0x200 ∧ 0x20 ≤ o % 0x40 ∧ o % 0x40 < 0x30

theorem distOut_of {d o : Nat} (hd : d < 4) (ho : 0x120 ≤ o ∧ o < 0x130 := by decide) :
    distOut pDIST (dOff d o) ∧ 0x100 ≤ dOff d o ∧ dOff d o < 4096 := by
  unfold distOut dOff; omega

/-- Work on ruler `d`: only the rulers' own registers change, and no other ruler does. -/
structure DistWork (d : Nat) (s t : State) : Prop where
  regs : RegsIn distOut s t
  other : ∀ k, k ≠ d → t.dist k = s.dist k

/-- Work on ruler `d` that leaves its position too. -/
structure DistStill (d : Nat) (s t : State) : Prop extends DistWork d s t where
  pos : (t.dist d).pos = (s.dist d).pos

section
variable {d : Nat} {s t u : State}

theorem DistWork.refl (d : Nat) (s : State) : DistWork d s s := ⟨.refl s, fun _ _ => rfl⟩

theorem DistWork.trans (h : DistWork d s t) (g : DistWork d t u) : DistWork d s u :=
  ⟨h.regs.trans g.regs, fun k hk => (g.other k hk).trans (h.other k hk)⟩

theorem DistWork.modDist (s : State) (d : Nat) (f : Dist → Dist) : DistWork d s (s.modDist d f) :=
  ⟨.of_regs rfl, fun _ hk => State.dist_modDist_other s f hk⟩

theorem DistStill.refl (d : Nat) (s : State) : DistStill d s s := ⟨.refl d s, rfl⟩

theorem DistStill.trans (h : DistStill d s t) (g : DistStill d t u) : DistStill d s u :=
  ⟨h.toDistWork.trans g.toDistWork, g.pos.trans h.pos⟩

theorem DistStill.ite {c : Prop} [Decidable c] (h : c → DistStill d s t) (g : ¬c → DistStill d s u) : DistStill d s (if c then t else u) := by
  split
  · next hc => exact h hc
  · next hc => exact g hc

theorem DistStill.of_tb (hr : RegsIn distOut s t) (ht : t.tb = s.tb) : DistStill d s t :=
  ⟨⟨hr, fun k _ => State.dist_congr ht k⟩, by rw [State.dist_congr ht]⟩

theorem DistStill.of_touches {K : Nat} (h : Touches K s t) (hr : K.testBit 2 = false) (ht : K.testBit 8 = false) : DistStill d s t :=
  .of_tb (.of_touches h hr) (h.tb ht)

theorem DistStill.modDist (s : State) (d : Nat) {f : Dist → Dist} (hf : ∀ x, (f x).pos = x.pos) : DistStill d s (s.modDist d f) :=
  ⟨.modDist s d f, by rw [State.dist_modDist, hf]⟩

/-- RATE, ACCEL, RATE_QUAL or STATUS of a ruler. -/
theorem DistStill.setReg (s : State) {k : Nat} (o : Nat) (v : Word) (hk : k < 4) (ho : 0x120 ≤ o ∧ o < 0x130 := by decide) :
    DistStill d s (s.setReg pDIST (dOff k o) v) :=
  .of_tb (.setIn s v (distOut_of hk ho).1 (distOut_of hk ho).2) rfl

end

theorem State.distSource_still (s : State) {d : Nat} (hd : d < 4) : DistStill d s (s.distSource d) := by
  unfold State.distSource
  extract_lets b
  have h : DistStill d s (s.modDist d fun x => { x with useSec := b }) := .modDist s d fun _ => rfl
  exact h.trans (.setReg _ Off.dist_STATUS _ hd)

theorem State.useSec_distSource (s : State) (d : Nat) : ((s.distSource d).dist d).useSec = s.followSec d := by
  show ((s.modDist d fun x => { x with useSec := s.followSec d }).dist d).useSec = _
  rw [State.dist_modDist]

theorem State.distCompare_still (s : State) (d : Nat) : DistStill d s (s.distCompare d) :=
  .ite (fun _ => .modDist s d fun _ => rfl) fun _ => .ite (fun _ => .modDist s d fun _ => rfl) fun _ => .modDist s d fun _ => rfl

theorem State.useSec_distCompare (s : State) (d : Nat) : ((s.distCompare d).dist d).useSec = (s.dist d).useSec := by
  unfold State.distCompare
  split_ifs <;> rw [State.dist_modDist]

theorem State.regs_distCompare (s : State) (d : Nat) : (s.distCompare d).regs = s.regs := by
  unfold State.distCompare; split_ifs <;> rfl

theorem State.distEstimate_still (s : State) {d : Nat} (hd : d < 4) : DistStill d s (s.distEstimate d) := by
  have draw : ∀ (t : State) o, 0x120 ≤ o ∧ o < 0x130 → DistStill d t (t.drawWord.2.setReg pDIST (dOff d o) t.drawWord.1) := fun t o ho =>
    (DistStill.of_touches (State.drawWord_touches t) rfl rfl).trans (.setReg _ o _ hd ho)
  unfold State.distEstimate
  extract_lets n x
  split
  · split
    · exact .ite (fun _ => draw s _ (by decide)) fun _ => .refl d s
    · extract_lets dt rate centre s1 s2 q w s3
      have h1 : DistStill d s s1 := .setReg s Off.dist_RATE _ hd
      have h2 : DistStill d s s2 := by
        unfold s2
        split
        · exact .ite (fun _ => h1.trans (.setReg _ Off.dist_ACCEL _ hd)) fun _ => h1
        · exact h1
      have h3 : DistStill d s s3 := .ite (fun _ => h2.trans (draw s2 _ (by decide))) fun _ => h2.trans (.setReg _ Off.dist_RATE_QUAL _ hd)
      exact h3.trans (.modDist s3 d fun _ => rfl)
  · exact .refl d s

/-! ## An edge at a ruler -/

/-- Ruler `d` is enabled and follows encoder `e` alone. -/
structure State.Follows (s : State) (d e : Nat) : Prop where
  enabled : s.bit pDIST (dOff d Off.dist_CFG) 0 = true
  pri : s.distPri d = e
  alone : s.bit pDIST (dOff d Off.dist_CFG) 7 = false
  mode : s.encMode e ≠ 0

/-- What a ruler that follows one encoder adds to its position at a counted edge (R62). -/
def State.posAfter (s : State) (d : Nat) (dir : Int) : Int := signed 80 (unsigned 80 ((s.dist d).pos + dir * s.inc d))

/-- A change of the rulers' own registers leaves what a ruler follows and its INC. -/
theorem RegsIn.follows {s t : State} {P : Nat → Nat → Prop} (h : RegsIn P s t) {d e : Nat} (hd : d < 4) (he : e < 8)
    (hcfg : ¬ P pDIST (dOff d Off.dist_CFG)) (henc : ¬ P pDIST (eOff e Off.dist_ENC_CFG)) (hf : s.Follows d e) : t.Follows d e := by
  have h1 : t.reg pDIST (dOff d Off.dist_CFG) = s.reg pDIST (dOff d Off.dist_CFG) :=
    h.reg _ _ (quietOff_block (by unfold dOff Off.dist_CFG; omega)) hcfg
  have h2 : t.reg pDIST (eOff e Off.dist_ENC_CFG) = s.reg pDIST (eOff e Off.dist_ENC_CFG) :=
    h.reg _ _ (quietOff_block (by unfold eOff Off.dist_ENC_CFG; omega)) henc
  exact ⟨(State.bit_congr_reg h1 0).trans hf.enabled, (State.fld_congr_reg h1 1 3).trans hf.pri, (State.bit_congr_reg h1 7).trans hf.alone,
    by unfold State.encMode; rw [State.fld_congr_reg h2]; exact hf.mode⟩

theorem State.followSec_alone {s : State} {d : Nat} (h : s.bit pDIST (dOff d Off.dist_CFG) 7 = false) : s.followSec d = false := by
  have hstuck : s.encStuck d = 0 := by simp [State.encStuck, h]
  simp [State.followSec, hstuck, h]

/-- What follows the position at a counted edge: STATUS, the event and wake of an end of STILL, and the estimate. -/
def State.distMoved (s : State) (d : Nat) (dir : Int) : State :=
  let was := s.bit pDIST (dOff d Off.dist_STATUS) 1
  let s5 := (s.putBit pDIST (dOff d Off.dist_STATUS) 1 false).putBit pDIST (dOff d Off.dist_STATUS) 5 (decide (dir < 0))
  let s6 := if was then
      let t := s5.produce pDIST 2
      if t.bit (pPWR 1) Off.pwr1_WAKE_SRC 0 then t.wakeBy 1 0 else t
    else s5
  s6.distEstimate d

theorem State.distMoved_still (s : State) {d : Nat} (hd : d < 4) (dir : Int) : DistStill d s (s.distMoved d dir) := by
  unfold State.distMoved
  extract_lets was s5 t s6
  have h5 : DistStill d s s5 := (DistStill.setReg s Off.dist_STATUS _ hd).trans (.setReg _ Off.dist_STATUS _ hd)
  have ht : DistStill d s t := h5.trans (.of_touches (State.produce_touches ..) rfl rfl)
  have h6 : DistStill d s s6 := .ite (fun _ => .ite (fun _ => ht.trans (.of_touches (State.wakeBy_touches ..) rfl rfl)) fun _ => ht) fun _ => h5
  exact h6.trans (s6.distEstimate_still hd)

/-- The counts of the edges that each encoder of the pair counts alone (R66). -/
def State.distAlone (s : State) (d : Nat) (pri : Bool) : State :=
  s.modDist d fun x => { x with aloneP := if pri then x.aloneP + 1 else 0, aloneS := if pri then 0 else x.aloneS + 1 }

theorem State.distAlone_still (s : State) (d : Nat) (pri : Bool) : DistStill d s (s.distAlone d pri) := .modDist s d fun _ => rfl

/-- The followed encoder chosen anew at an edge of one of the pair, and the rates compared (R65, R66). -/
def State.distChosen (s : State) (d : Nat) (pri : Bool) : State := ((s.distAlone d pri).distSource d).distCompare d

theorem State.distChosen_still (s : State) {d : Nat} (hd : d < 4) (pri : Bool) : DistStill d s (s.distChosen d pri) :=
  ((s.distAlone_still d pri).trans (State.distSource_still _ hd)).trans (State.distCompare_still ..)

theorem State.useSec_distChosen {s : State} {d : Nat} (h : s.bit pDIST (dOff d Off.dist_CFG) 7 = false) (pri : Bool) :
    ((s.distChosen d pri).dist d).useSec = false := by
  rw [State.distChosen, State.useSec_distCompare, State.useSec_distSource]
  exact State.followSec_alone h

/-- The position moved by an edge, and the window of the estimator. -/
def State.distStep (s : State) (d : Nat) (by_ : Int) (ns now : Nat) : State :=
  (s.modDist d fun x => { x with pos := signed 80 (unsigned 80 (x.pos + by_)), lastEdge := now }).modDist d fun x =>
    { x with win := ((ns, x.pos) :: x.win).take 257 }

theorem State.distEdge_eq (s : State) (d e : Nat) (dir : Int) : s.distEdge d e dir =
    if !s.bit pDIST (dOff d Off.dist_CFG) 0 || !s.distValid d ||
        !(decide (s.distPri d = e) || s.bit pDIST (dOff d Off.dist_CFG) 7 && decide (s.distSec d = e)) then s
    else if ((s.distChosen d (decide (s.distPri d = e))).dist d).useSec != !decide (s.distPri d = e) then
      s.distChosen d (decide (s.distPri d = e))
    else ((s.distChosen d (decide (s.distPri d = e))).distStep d (dir * s.inc d) s.timeNs s.now).distMoved d dir := rfl

theorem State.distEdge_work (s : State) {d : Nat} (hd : d < 4) (e : Nat) (dir : Int) : DistWork d s (s.distEdge d e dir) := by
  rw [State.distEdge_eq]
  have h2 := (s.distChosen_still hd (decide (s.distPri d = e))).toDistWork
  split_ifs
  · exact .refl d s
  · exact h2
  · exact ((h2.trans (.modDist ..)).trans (.modDist ..)).trans (State.distMoved_still _ hd dir).toDistWork

theorem State.distEdge_pos {s : State} {d e : Nat} (hd : d < 4) (h : s.Follows d e) (dir : Int) :
    ((s.distEdge d e dir).dist d).pos = s.posAfter d dir := by
  obtain ⟨hon, hpri, halone, hmode⟩ := h
  have hvalid : s.distValid d = true := by
    unfold State.bit at hon
    simp [State.distValid, hon, hpri, hmode]
  rw [State.distEdge_eq, hpri, if_neg (by simp [hon, hvalid]), if_neg (by simp [State.useSec_distChosen halone]), (State.distMoved_still _ hd dir).pos]
  unfold State.distStep
  rw [State.dist_modDist, State.dist_modDist]
  show signed 80 (unsigned 80 (((s.distChosen d _).dist d).pos + _)) = _
  rw [(s.distChosen_still hd _).pos]
  rfl

/-! ## A counted edge -/

/-- A counted edge at each of the rulers `l`. -/
def State.distEdges (s : State) (l : List Nat) (e : Nat) (dir : Int) : State := l.foldl (fun t d => t.distEdge d e dir) s

theorem State.distEdges_regsIn (s : State) {l : List Nat} (hl : ∀ d ∈ l, d < 4) (e : Nat) (dir : Int) :
    RegsIn distOut s (s.distEdges l e dir) :=
  .foldl (.refl s) fun v d hd => (v.distEdge_work (hl d hd) e dir).regs

theorem State.distEdges_other (s : State) {l : List Nat} (hl : ∀ d ∈ l, d < 4) (e : Nat) (dir : Int) {k : Nat} (hk : k ∉ l) :
    (s.distEdges l e dir).dist k = s.dist k := by
  induction l generalizing s with
  | nil => rfl
  | cons d l ih =>
    have hother := (s.distEdge_work (hl d List.mem_cons_self) e dir).other k (List.ne_of_not_mem_cons hk)
    exact (ih _ (fun x hx => hl x (List.mem_cons_of_mem d hx)) (List.not_mem_of_not_mem_cons hk)).trans hother

theorem not_distOut_cfg (d : Nat) : ¬ distOut pDIST (dOff d Off.dist_CFG) := by
  unfold distOut dOff Off.dist_CFG; omega

theorem not_distOut_enc (e : Nat) {o : Nat} (ho : 0x200 ≤ o) : ¬ distOut pDIST (eOff e o) := by
  unfold distOut eOff; omega

/-- Where INC and the position of a ruler stay, so does what its next edge makes of the position. -/
theorem RegsIn.posAfter {P : Nat → Nat → Prop} {s t : State} (h : RegsIn P s t) {d : Nat} (hd : d < 4)
    (hinc : ∀ o, 0x110 ≤ o → o < 0x118 → ¬ P pDIST (dOff d o)) (hdist : t.dist d = s.dist d) (dir : Int) :
    t.posAfter d dir = s.posAfter d dir := by
  have hlo : dOff d Off.dist_INC_LO < 4096 ∧ dOff d Off.dist_INC_HI < 4096 := by
    unfold dOff Off.dist_INC_LO Off.dist_INC_HI; omega
  have : t.inc d = s.inc d := State.reg64_congr
    (h.reg _ _ (quietOff_block ⟨by unfold dOff Off.dist_INC_LO; omega, hlo.1⟩) (hinc _ (by decide) (by decide)))
    (h.reg _ _ (quietOff_block ⟨by unfold dOff Off.dist_INC_HI; omega, hlo.2⟩) (hinc _ (by decide) (by decide)))
  unfold State.posAfter
  rw [this, hdist]

theorem not_distOut_inc (d : Nat) {o : Nat} (h1 : 0x110 ≤ o) (h2 : o < 0x118) : ¬ distOut pDIST (dOff d o) := by
  unfold distOut dOff; omega

/-- Among the rulers that take an edge in turn, one that follows its encoder alone moves by its INC, once. -/
theorem State.distEdges_pos {s : State} {l : List Nat} (hl : ∀ d ∈ l, d < 4) (hnodup : l.Nodup) {k e : Nat} (he : e < 8) (hk : k ∈ l)
    (h : s.Follows k e) (dir : Int) : ((s.distEdges l e dir).dist k).pos = s.posAfter k dir := by
  induction l generalizing s with
  | nil => cases hk
  | cons d l ih =>
    have hd := hl d List.mem_cons_self
    have hl' : ∀ x ∈ l, x < 4 := fun x hx => hl x (List.mem_cons_of_mem d hx)
    obtain ⟨hnot, hnodup⟩ := List.nodup_cons.1 hnodup
    have hwork := s.distEdge_work hd e dir
    rcases List.mem_cons.1 hk with rfl | hk
    · exact (congrArg Dist.pos (State.distEdges_other _ hl' e dir hnot)).trans (State.distEdge_pos hd h dir)
    · have hne : k ≠ d := fun c => hnot (c ▸ hk)
      exact (ih hl' hnodup hk (hwork.regs.follows (hl' k hk) he (not_distOut_cfg k) (not_distOut_enc e (by decide)) h)).trans
        (hwork.regs.posAfter (hl' k hk) (fun _ => not_distOut_inc k) (hwork.other k hne) dir)

/-- A count of edges as a word. -/
theorem count_edge (w : Word) (dir : Int) : wd (unsigned 32 (signed 32 w.toNat + dir)) = w + BitVec.ofInt 32 dir := by
  rw [wd_unsigned, signed32, BitVec.ofInt_add, BitVec.ofInt_toInt]

/-- What an edge of encoder `e` writes beside the rulers: ENC_COUNT and the encoder's window. -/
def State.encCounted (s : State) (e : Nat) (dir : Int) : State :=
  ((s.setReg pDIST (eOff e Off.dist_ENC_COUNT) (wd (unsigned 32 (signed 32 (s.reg pDIST (eOff e Off.dist_ENC_COUNT)).toNat + dir)))).modEncoder e
    fun x => { x with edges := ((s.timeNs, (x.edges.headD (0, 0)).2 + dir) :: x.edges).take 257, lastEdge := some s.now,
                      sinceIndex := x.sinceIndex.map (· + 1) }).putBit pDIST (eOff e Off.dist_ENC_STAT) 3 true

theorem State.encCount_eq {s : State} {e : Nat} (hdir : s.bit pDIST (eOff e Off.dist_ENC_CFG) 2 = false) (dir : Int) :
    s.encCount e dir = (s.encCounted e dir).distEdges (List.range 4) e dir := by
  unfold State.encCount
  rw [hdir]
  rfl

theorem encReg_range {e o : Nat} (he : e < 8) (ho : 0x200 ≤ o ∧ o < 0x210 := by decide) : 0x100 ≤ eOff e o ∧ eOff e o < 4096 := by
  unfold eOff; omega

theorem dOff_ne_eOff {d o e k : Nat} (hd : d < 4) (ho : o < 0x140) (hk : 0x200 ≤ k) : dOff d o ≠ eOff e k := by
  unfold dOff eOff; omega

theorem eOff_ne (e : Nat) {o k : Nat} (h : o ≠ k) : eOff e o ≠ eOff e k := by unfold eOff; omega

theorem State.encCounted_regsIn (s : State) {e : Nat} (he : e < 8) (dir : Int) :
    RegsIn (regsOf pDIST [eOff e Off.dist_ENC_COUNT, eOff e Off.dist_ENC_STAT]) s (s.encCounted e dir) := by
  have h : ∀ (t : State) o v, (o = Off.dist_ENC_COUNT ∨ o = Off.dist_ENC_STAT) →
      RegsIn (regsOf pDIST [eOff e Off.dist_ENC_COUNT, eOff e Off.dist_ENC_STAT]) t (t.setReg pDIST (eOff e o) v) := by
    rintro t o v (rfl | rfl)
    · exact .setIn t v ⟨rfl, by simp⟩ (encReg_range he)
    · exact .setIn t v ⟨rfl, by simp⟩ (encReg_range he)
  unfold State.encCounted
  exact ((h _ _ _ (.inl rfl)).trans (.of_touches (State.modEncoder_touches ..) rfl)).trans (h _ _ _ (.inr rfl))

/-- A counted edge: ENC_COUNT goes on by the direction, and each ruler that follows the encoder alone by its INC (R59, R62). -/
theorem State.encCount_spec {s : State} {e : Nat} (he : e < 8) (hinv : s.bit pDIST (eOff e Off.dist_ENC_CFG) 2 = false) (dir : Int) :
    (s.encCount e dir).reg pDIST (eOff e Off.dist_ENC_COUNT) = s.reg pDIST (eOff e Off.dist_ENC_COUNT) + BitVec.ofInt 32 dir ∧
      ∀ d < 4, s.Follows d e → ((s.encCount e dir).dist d).pos = s.posAfter d dir := by
  have hcounted := s.encCounted_regsIn he dir
  have hrange : ∀ d ∈ List.range 4, d < 4 := fun d hd => List.mem_range.1 hd
  rw [State.encCount_eq hinv]
  constructor
  · rw [(State.distEdges_regsIn _ hrange e dir).reg _ _ (quietOff_block (encReg_range he)) (not_distOut_enc e (by decide)), ← count_edge,
      State.encCounted, State.reg_putBit_ne (by rw [Ne, rg_same_page]; exact eOff_ne e (by decide))]
    exact State.reg_setReg_same ..
  · intro d hd hf
    have hruler : ∀ o, o < 0x140 → ¬ regsOf pDIST [eOff e Off.dist_ENC_COUNT, eOff e Off.dist_ENC_STAT] pDIST (dOff d o) := fun o ho => by
      simpa [regsOf] using ⟨dOff_ne_eOff hd ho (by decide), dOff_ne_eOff hd ho (by decide)⟩
    have henc : ¬ regsOf pDIST [eOff e Off.dist_ENC_COUNT, eOff e Off.dist_ENC_STAT] pDIST (eOff e Off.dist_ENC_CFG) := by
      simp [regsOf, eOff]
    rw [State.distEdges_pos hrange List.nodup_range he (List.mem_range.2 hd) (hcounted.follows hd he (hruler _ (by decide)) henc hf)]
    exact hcounted.posAfter hd (fun o _ ho => hruler o (by omega)) rfl dir

/-! ## Samples of an encoder's pins (R59, R60) -/

/-- The pins of encoder `e` as sampled, and in ENC_STAT. -/
def State.encSampled (s : State) (e : Nat) (a b : Bool) : State :=
  ((s.modEncoder e fun y => { y with a := a, b := b }).putBit pDIST (eOff e Off.dist_ENC_STAT) 0 a).putBit pDIST (eOff e Off.dist_ENC_STAT) 1 b

theorem State.encSampled_regsIn (s : State) {e : Nat} (he : e < 8) (a b : Bool) :
    RegsIn (regsOf pDIST [eOff e Off.dist_ENC_STAT]) s (s.encSampled e a b) := by
  have h : ∀ (t : State) v, RegsIn (regsOf pDIST [eOff e Off.dist_ENC_STAT]) t (t.setReg pDIST (eOff e Off.dist_ENC_STAT) v) := fun t v =>
    .setIn t v ⟨rfl, by simp⟩ (encReg_range he)
  exact ((RegsIn.of_touches (State.modEncoder_touches ..) rfl).trans (h _ _)).trans (h _ _)

/-- A sample leaves every register of the page but ENC_STAT. -/
theorem State.encSampled_reg (s : State) {e : Nat} (he : e < 8) (a b : Bool) {o : Nat} (ho : 0x100 ≤ o ∧ o < 4096)
    (hne : o ≠ eOff e Off.dist_ENC_STAT) : (s.encSampled e a b).reg pDIST o = s.reg pDIST o :=
  (s.encSampled_regsIn he a b).reg _ _ (quietOff_block ho) (by simp [regsOf, hne])

/-- What one counted edge of a sample makes of ENC_COUNT and of the rulers that follow the encoder alone. -/
theorem State.encSampled_count {s : State} {e : Nat} (he : e < 8) (hinv : s.bit pDIST (eOff e Off.dist_ENC_CFG) 2 = false) (a b : Bool)
    (dir : Int) :
    ((s.encSampled e a b).encCount e dir).reg pDIST (eOff e Off.dist_ENC_COUNT) =
        s.reg pDIST (eOff e Off.dist_ENC_COUNT) + BitVec.ofInt 32 dir ∧
      ∀ d < 4, s.Follows d e → (((s.encSampled e a b).encCount e dir).dist d).pos = s.posAfter d dir := by
  have hcfg := s.encSampled_reg he a b (o := eOff e Off.dist_ENC_CFG) (encReg_range he) (by unfold eOff; simp)
  have hcount := s.encSampled_reg he a b (o := eOff e Off.dist_ENC_COUNT) (encReg_range he) (by unfold eOff; simp)
  obtain ⟨hreg, hpos⟩ := State.encCount_spec (s := s.encSampled e a b) he ((State.bit_congr_reg hcfg 2).trans hinv) dir
  refine ⟨by rw [hreg, hcount], fun d hd hf => ?_⟩
  have hsample := s.encSampled_regsIn he a b
  have hruler : ∀ o, o < 0x140 → ¬ regsOf pDIST [eOff e Off.dist_ENC_STAT] pDIST (dOff d o) := fun o ho => by
    simpa [regsOf] using dOff_ne_eOff hd ho (by decide)
  rw [hpos d hd (hsample.follows hd he (hruler _ (by decide)) (by simp [regsOf, eOff]) hf)]
  exact hsample.posAfter hd (fun o _ ho => hruler o (by omega)) rfl dir

/-- The direction of an edge as a step of ENC_COUNT. -/
theorem ofInt_step (c : Prop) [Decidable c] : BitVec.ofInt 32 (if c then -1 else 1) = if c then (-1 : Word) else 1 := by
  split <;> rfl

theorem ofInt_step' (c : Prop) [Decidable c] : BitVec.ofInt 32 (if c then 1 else -1) = if c then (1 : Word) else -1 := by
  split <;> rfl

/-- Quadrature counts A leading B as forward, and 2 edges at once are illegal (R59, R60). -/
theorem exec_encoderEdge_quadrature {s : State} {e : Nat} (halive : s.alive pDIST = true) (hmode : s.encMode e = 1) (a b : Bool) :
    (a ≠ (s.enc e).a → b = (s.enc e).b →
      exec (.encoderEdge e a b) s = .next ((s.encSampled e a b).encCount e (if a = b then -1 else 1))) ∧
    (a = (s.enc e).a → b ≠ (s.enc e).b →
      exec (.encoderEdge e a b) s = .next ((s.encSampled e a b).encCount e (if a = b then 1 else -1))) ∧
    (a ≠ (s.enc e).a → b ≠ (s.enc e).b → exec (.encoderEdge e a b) s =
      .next ((((s.encSampled e a b).count pDIST (eOff e Off.dist_ENC_FAULTS) 0 16 1).raise pDIST 8).produce pDIST 1)) := by
  show (_ → _ → execEncoderEdge e a b s = _) ∧ (_ → _ → execEncoderEdge e a b s = _) ∧ (_ → _ → execEncoderEdge e a b s = _)
  unfold execEncoderEdge
  rw [if_neg (by simp [halive])]
  simp only [hmode]
  refine ⟨fun ha hb => ?_, fun ha hb => ?_, fun ha hb => ?_⟩
  · by_cases hab : a = b <;> simp_all [State.encSampled]
  · by_cases hab : a = b <;> simp_all [State.encSampled]
  · simp_all [State.encSampled]

/-- Single edges with and without a direction count rising edges of A (R59). -/
theorem exec_encoderEdge_single {s : State} {e : Nat} (halive : s.alive pDIST = true) (b : Bool) (hlow : (s.enc e).a = false) :
    (s.encMode e = 2 → exec (.encoderEdge e true b) s = .next ((s.encSampled e true b).encCount e (if b then -1 else 1))) ∧
    (s.encMode e = 3 → exec (.encoderEdge e true b) s =
      .next ((s.encSampled e true b).encCount e (if s.bit pDIST (eOff e Off.dist_ENC_CFG) 4 then -1 else 1))) := by
  show (_ → execEncoderEdge e true b s = _) ∧ (_ → execEncoderEdge e true b s = _)
  unfold execEncoderEdge
  rw [if_neg (by simp [halive])]
  constructor
  · intro hmode
    simp [hmode, hlow, State.encSampled]
  · intro hmode
    simp [hmode, hlow, State.encSampled]

theorem exec_encoderEdge_off {s : State} {e : Nat} (halive : s.alive pDIST = true) (hmode : s.encMode e = 0) (a b : Bool) :
    exec (.encoderEdge e a b) s = .next (s.encSampled e a b) := by
  show execEncoderEdge e a b s = _
  unfold execEncoderEdge
  rw [if_neg (by simp [halive])]
  simp [hmode, State.encSampled]

/-- What an illegal transition counts and reports (R60). -/
theorem State.encSampled_illegal (s : State) {e : Nat} (he : e < 8) (a b : Bool) :
    let u := (((s.encSampled e a b).count pDIST (eOff e Off.dist_ENC_FAULTS) 0 16 1).raise pDIST 8).produce pDIST 1
    u.reg pDIST (eOff e Off.dist_ENC_COUNT) = s.reg pDIST (eOff e Off.dist_ENC_COUNT) ∧ u.Faulted pDIST 8 ∧
      u.fld pDIST (eOff e Off.dist_ENC_FAULTS) 0 16 = min 65535 (s.fld pDIST (eOff e Off.dist_ENC_FAULTS) 0 16 + 1) := by
  have hcount : quietOff (eOff e Off.dist_ENC_COUNT) = true := quietOff_block (encReg_range he)
  have hfaults : quietOff (eOff e Off.dist_ENC_FAULTS) = true := quietOff_block (encReg_range he)
  refine ⟨?_, (State.raise_faulted _ rfl (by decide)).congr (State.reg_produce ..), ?_⟩
  · rw [State.reg_produce, State.reg_raise _ _ _ _ _ hcount, State.reg_count_ne (by rw [Ne, rg_same_page]; exact eOff_ne e (by decide)),
      s.encSampled_reg he a b (encReg_range he) (eOff_ne e (by decide))]
  · rw [State.fld_congr_reg (State.reg_produce ..), State.fld_congr_reg (State.reg_raise _ _ _ _ _ hfaults),
      State.fld_count _ _ _ _ _ _ (by decide),
      State.fld_congr_reg (s.encSampled_reg he a b (encReg_range he) (eOff_ne e (by decide)))]
    rfl

/-! ## Index pulses (R60) -/

theorem State.enc_modEncoder (s : State) (e : Nat) (f : Encoder → Encoder) : (s.modEncoder e f).enc e = f (s.enc e) := Map.get_put_same ..

theorem State.enc_congr {s t : State} (h : t.tb = s.tb) (e : Nat) : t.enc e = s.enc e := by unfold State.enc; rw [h]

/-- Pin I high, and the count since an index pulse begun again. -/
def State.encIndexed (s : State) (e : Nat) : State :=
  (s.putBit pDIST (eOff e Off.dist_ENC_STAT) 2 true).modEncoder e fun y => { y with i := true, sinceIndex := some 0 }

/-- A wrong count between two index pulses. -/
def State.encMiscounted (s : State) (e : Nat) : State := (s.count pDIST (eOff e Off.dist_ENC_FAULTS) 16 16 1).produce pDIST 1

theorem exec_encoderIndexEdge {s : State} {e n r : Nat} (halive : s.alive pDIST = true) (hlow : (s.enc e).i = false)
    (hn : (s.enc e).sinceIndex = some n) (hr : s.encRev e = some r) : exec (.encoderIndexEdge e true) s =
      .next (if s.bit pDIST (eOff e Off.dist_ENC_CFG) 3 ∧ n ≠ r then
        (s.encIndexed e).encMiscounted e else s.encIndexed e) := by
  show execEncoderIndexEdge e true s = _
  unfold execEncoderIndexEdge
  rw [if_neg (by simp [halive]), apply_ite Host.Outcome.next]
  simp only [hlow, hn, hr, Bool.not_false, Bool.and_self, Bool.not_true, Bool.false_eq_true, if_false]
  rfl

theorem State.encIndexed_spec (s : State) (e : Nat) :
    ((s.encIndexed e).enc e).sinceIndex = some 0 ∧ (s.encIndexed e).bit pDIST (eOff e Off.dist_ENC_STAT) 2 = true ∧
      (s.encIndexed e).fld pDIST (eOff e Off.dist_ENC_FAULTS) 16 16 = s.fld pDIST (eOff e Off.dist_ENC_FAULTS) 16 16 := by
  refine ⟨by rw [State.encIndexed, State.enc_modEncoder], ?_, ?_⟩
  · show (s.putBit pDIST (eOff e Off.dist_ENC_STAT) 2 true).bit pDIST (eOff e Off.dist_ENC_STAT) 2 = true
    exact State.bit_putBit ..
  · show (s.putBit pDIST (eOff e Off.dist_ENC_STAT) 2 true).fld pDIST (eOff e Off.dist_ENC_FAULTS) 16 16 = _
    exact State.fld_congr_reg (State.reg_setReg_page (eOff_ne e (by decide))) 16 16

/-- A wrong count counts in INDEX_ERR and changes neither the encoder nor its pins. -/
theorem State.encMiscounted_spec (s : State) (e : Nat) :
    (s.encMiscounted e).tb = s.tb ∧ (s.encMiscounted e).bit pDIST (eOff e Off.dist_ENC_STAT) 2 = s.bit pDIST (eOff e Off.dist_ENC_STAT) 2 ∧
      (s.encMiscounted e).fld pDIST (eOff e Off.dist_ENC_FAULTS) 16 16 = min 65535 (s.fld pDIST (eOff e Off.dist_ENC_FAULTS) 16 16 + 1) := by
  unfold State.encMiscounted
  refine ⟨by rw [State.tb_produce, State.count, State.setReg, State.onRegs_tb], ?_, ?_⟩
  · rw [State.bit_congr_reg (State.reg_produce ..), State.bit_congr_reg (State.reg_count_ne (by
      rw [Ne, rg_same_page]; exact eOff_ne e (by decide)))]
  · rw [State.fld_congr_reg (State.reg_produce ..), State.fld_count _ _ _ _ _ _ (by decide)]
    rfl

/-! ## POS_SET (R63) -/

theorem execPosSet_spec {s : State} {m : Master} {d : Nat} (ho : s.Open m pDIST) (v : Word) :
    ∃ u, execPosSet m d v s = .next u ∧ u.Faulted pDIST 13 ∧
      (u.dist d).pos = signed 64 (v.toNat + 2 ^ 32 * (s.reg pDIST (dOff d Off.dist_POS_SET_HI)).toNat) * 65536 := by
  unfold execPosSet
  rw [State.regWrite_open ho]
  extract_lets t1 old new t2
  have hhi : t1.reg pDIST (dOff d Off.dist_POS_SET_HI) = s.reg pDIST (dOff d Off.dist_POS_SET_HI) :=
    (State.reg_setReg_page (by unfold dOff; simp)).trans (State.passed_reg ..)
  have hfault : t2.Faulted pDIST 13 := State.raise_faulted _ rfl (by decide)
  have hpos : (t2.dist d).pos = signed 64 (v.toNat + 2 ^ 32 * (s.reg pDIST (dOff d Off.dist_POS_SET_HI)).toNat) * 65536 := by
    rw [State.dist_congr ((State.raise_touches ..).tb rfl), State.dist_modDist, ← hhi]
  refine ⟨_, rfl, ?_⟩
  split
  · have h := t2.cuesStepped_cueWork (8 + d)
    exact ⟨h.regs.faulted _ _ hfault, by rw [h.dist, hpos]⟩
  · exact ⟨hfault, hpos⟩

/-! ## STILL, SLIP and SLIDE (R64, R65) -/

/-- A ruler without edges for STILL_MS: RATE and ACCEL 0 and STILL set. -/
def State.distStilled (s : State) (d : Nat) : State :=
  ((s.setReg pDIST (dOff d Off.dist_RATE) 0).setReg pDIST (dOff d Off.dist_ACCEL) 0).putBit pDIST (dOff d Off.dist_STATUS) 1 true

/-- The source shown: USING_SECONDARY, and nothing else of STATUS. -/
theorem State.distSource_regs (s : State) (d : Nat) :
    (∀ o, o ≠ dOff d Off.dist_STATUS → (s.distSource d).reg pDIST o = s.reg pDIST o) ∧
      (s.distSource d).bit pDIST (dOff d Off.dist_STATUS) 1 = s.bit pDIST (dOff d Off.dist_STATUS) 1 ∧
      (s.distSource d).fld pDIST (dOff d Off.dist_STATUS) 2 2 = s.fld pDIST (dOff d Off.dist_STATUS) 2 2 := by
  refine ⟨fun o ho => State.reg_setReg_page ho, ?_, State.fld_putBit_other (by decide) (by decide)⟩
  show bitAt ((s.distSource d).reg pDIST (dOff d Off.dist_STATUS)) 1 = _
  rw [show (s.distSource d).reg pDIST (dOff d Off.dist_STATUS) = setBit (s.reg pDIST (dOff d Off.dist_STATUS)) 4 (s.followSec d) from
    State.reg_setReg_same .., bitAt_setBit_other _ _ _ _ (by decide) (by decide)]
  rfl

theorem State.distStilled_spec (s : State) (d : Nat) :
    (s.distStilled d).reg pDIST (dOff d Off.dist_RATE) = 0 ∧ (s.distStilled d).reg pDIST (dOff d Off.dist_ACCEL) = 0 ∧
      (s.distStilled d).bit pDIST (dOff d Off.dist_STATUS) 1 = true := by
  refine ⟨?_, ?_, State.bit_putBit ..⟩ <;>
    simp [State.distStilled, State.putBit, State.reg_setReg, dOff, Off.dist_RATE, Off.dist_ACCEL, Off.dist_STATUS]

theorem exec_stillTimeout {s : State} {d : Nat} (halive : s.alive pDIST = true) (hon : s.bit pDIST (dOff d Off.dist_CFG) 0 = true)
    (hlate : (s.dist d).lastEdge + s.stillTicks d ≤ s.now) : exec (.stillTimeout d) s =
      .next (if s.encStuck d = 0 then (s.distStilled d).distCompare d
        else ((((s.distStilled d).distCompare d).distSource d).raise pDIST 11).produce pDIST 1) := by
  show execStillTimeout d s = _
  unfold execStillTimeout
  rw [if_neg (by simp [halive, hon]), if_neg (Nat.not_lt.2 hlate), apply_ite Host.Outcome.next]
  rfl

/-- A ruler found still keeps RATE, ACCEL, STILL and its position through the comparison of its encoders. -/
theorem execStillTimeout_spec {s : State} {d : Nat} (hd : d < 4) (halive : s.alive pDIST = true)
    (hon : s.bit pDIST (dOff d Off.dist_CFG) 0 = true) (hlate : (s.dist d).lastEdge + s.stillTicks d ≤ s.now) :
    ∃ u, exec (.stillTimeout d) s = .next u ∧ u.reg pDIST (dOff d Off.dist_RATE) = 0 ∧ u.reg pDIST (dOff d Off.dist_ACCEL) = 0 ∧
      u.bit pDIST (dOff d Off.dist_STATUS) 1 = true ∧ (u.dist d).pos = (s.dist d).pos := by
  obtain ⟨hrate, haccel, hstill⟩ := s.distStilled_spec d
  obtain ⟨hreg, -, hbit⟩ := State.regs_congr_fields (State.regs_distCompare (s.distStilled d) d)
  have hpos := ((s.distStilled d).distCompare_still d).pos
  refine ⟨_, exec_stillTimeout halive hon hlate, ?_⟩
  split
  · exact ⟨(hreg ..).trans hrate, (hreg ..).trans haccel, (hbit ..).trans hstill, hpos⟩
  · obtain ⟨hkept, hbit1, -⟩ := ((s.distStilled d).distCompare d).distSource_regs d
    have hq : ∀ o, 0x120 ≤ o ∧ o < 0x130 → quietOff (dOff d o) = true := fun o ho => quietOff_block (distOut_of hd ho).2
    have hregs : ∀ o, 0x120 ≤ o ∧ o < 0x130 →
        (((((s.distStilled d).distCompare d).distSource d).raise pDIST 11).produce pDIST 1).reg pDIST (dOff d o) =
          (((s.distStilled d).distCompare d).distSource d).reg pDIST (dOff d o) := fun o ho =>
      (State.reg_produce ..).trans (State.reg_raise _ _ _ _ _ (hq o ho))
    have hne : ∀ o, o < Off.dist_STATUS → dOff d o ≠ dOff d Off.dist_STATUS := fun o ho => by unfold dOff; omega
    refine ⟨?_, ?_, ?_, ?_⟩
    · rw [hregs _ (by decide), hkept _ (hne _ (by decide)), hreg, hrate]
    · rw [hregs _ (by decide), hkept _ (hne _ (by decide)), hreg, haccel]
    · rw [State.bit_congr_reg (hregs _ (by decide)), hbit1, hbit, hstill]
    · rw [State.dist_congr (((State.produce_touches ..).tb rfl).trans ((State.raise_touches ..).tb rfl)),
        (State.distSource_still _ hd).pos, hpos]
      rfl

/-- SLIP and SLIDE as the field of both: clear in an empty one, and one of them set in it. -/
theorem wfld_slip {w : Word} (h : wfld w 2 2 = 0) : (bitAt w 2 = false ∧ bitAt w 3 = false) ∧ wfld (setBit w 2 true) 2 2 = 1 ∧
    wfld (setBit w 3 true) 2 2 = 2 := by
  have hbits : ∀ i < 2, bitAt w (2 + i) = false := fun i hi => by
    have := wfld_testBit w 2 2 i
    rw [h] at this
    simpa [bitAt_eq, hi] using this.symm
  refine ⟨⟨hbits 0 (by decide), hbits 1 (by decide)⟩, ?_, ?_⟩
  · unfold wfld at h ⊢
    rw [setBit, wset_toNat _ _ _ _ (by decide)]
    simp only [Bool.toNat_true]
    omega
  · unfold wfld at h ⊢
    rw [setBit, wset_toNat _ _ _ _ (by decide)]
    simp only [Bool.toNat_true]
    omega

theorem wfld_slip_clear {w : Word} (h : bitAt w 2 = false ∧ bitAt w 3 = false) : wfld w 2 2 = 0 := by
  refine Nat.eq_of_testBit_eq fun i => ?_
  rw [wfld_testBit, ← bitAt_eq, Nat.zero_testBit]
  match i with
  | 0 => simp [h.1]
  | 1 => simp [h.2]
  | i + 2 => simp

/-- SLIP (bit 2) or SLIDE (bit 3) set, with its fault and event. -/
def State.slipSet (s : State) (d b : Nat) : State :=
  (((s.putBit pDIST (dOff d Off.dist_STATUS) b true).raise pDIST (7 + b)).produce pDIST 0).distSource d

/-- SLIP and SLIDE cleared where one of them stands, with the event. -/
def State.slipCleared (s : State) (d : Nat) : State :=
  ((s.setFld pDIST (dOff d Off.dist_STATUS) 2 2 0).produce pDIST 0).distSource d

section
variable {s : State} {d x : Nat} (halive : s.alive pDIST = true) (hsec : s.bit pDIST (dOff d Off.dist_CFG) 7 = true)
  (hpast : x + s.fld pDIST (dOff d Off.dist_SLIP_CFG) 16 8 * 250000 ≤ s.now)
include halive hsec hpast

theorem exec_slipDwell_sets (hdis : ((s.distCompare d).dist d).disagree = some x) (hclear : s.fld pDIST (dOff d Off.dist_STATUS) 2 2 = 0) :
    exec (.slipDwell d) s = .next ((s.distCompare d).slipSet d (if s.bit pDIST (dOff d Off.dist_CFG) 10 then 3 else 2)) := by
  obtain ⟨hreg, hfld, hbit⟩ := State.regs_congr_fields (s.regs_distCompare d)
  obtain ⟨⟨h2, h3⟩, -⟩ := wfld_slip hclear
  have hnow : (s.distCompare d).now = s.now := (State.distCompare_touches ..).now rfl
  show execSlipDwell d s = _
  unfold execSlipDwell
  simp only [halive, hsec, hdis, hfld, hreg, hbit, h2, h3, hnow, hpast, decide_true, Bool.not_true, Bool.or_self, Bool.false_eq_true,
    if_false, Bool.not_false, Bool.and_self, if_true]
  rfl

theorem exec_slipDwell_clears (hagree : ((s.distCompare d).dist d).agree = some x) (hdis : ((s.distCompare d).dist d).disagree = none) :
    exec (.slipDwell d) s = .next (if bitAt (s.reg pDIST (dOff d Off.dist_STATUS)) 2 || bitAt (s.reg pDIST (dOff d Off.dist_STATUS)) 3 then
      (s.distCompare d).slipCleared d else s.distCompare d) := by
  obtain ⟨hreg, hfld, hbit⟩ := State.regs_congr_fields (s.regs_distCompare d)
  have hnow : (s.distCompare d).now = s.now := (State.distCompare_touches ..).now rfl
  show execSlipDwell d s = _
  unfold execSlipDwell
  rw [apply_ite Host.Outcome.next]
  simp only [halive, hsec, hdis, hagree, hfld, hreg, hnow, hpast, decide_true, Bool.not_true, Bool.or_self, Bool.false_eq_true,
    if_false, Bool.false_and, Bool.true_and]
  rfl

end

/-- SLIP and SLIDE as the source's choice leaves them. -/
theorem State.slipSet_spec (s : State) {d b : Nat} (hd : d < 4) (hb : b < 4) :
    (s.slipSet d b).fld pDIST (dOff d Off.dist_STATUS) 2 2 = wfld (setBit (s.reg pDIST (dOff d Off.dist_STATUS)) b true) 2 2 ∧
      (s.slipSet d b).Faulted pDIST (7 + b) := by
  have hq : quietOff (dOff d Off.dist_STATUS) = true := quietOff_block (distOut_of hd).2
  constructor
  · unfold State.slipSet
    rw [(State.distSource_regs _ d).2.2, State.fld_congr_reg (State.reg_produce ..), State.fld_congr_reg (State.reg_raise _ _ _ _ _ hq),
      State.fld, State.putBit, State.reg_setReg_same]
  · refine (State.distSource_still _ hd).regs.faulted _ _ ?_
    exact (State.raise_faulted _ rfl (by omega)).congr (State.reg_produce ..)

theorem State.slipCleared_fld (s : State) (d : Nat) : (s.slipCleared d).fld pDIST (dOff d Off.dist_STATUS) 2 2 = 0 := by
  unfold State.slipCleared
  rw [(State.distSource_regs _ d).2.2, State.fld_congr_reg (State.reg_produce ..), State.fld_setFld _ _ _ _ _ _ (by decide), Nat.zero_mod]

/-- Settles O22: edges by the lemma on a counted edge, and the rest each by the lemma on its command. -/
theorem distRulers : Obligations.DistRulers := by
  unfold Obligations.DistRulers
  refine ⟨?edge, ?index, ?posSet, ?still, ?slip⟩
  case edge =>
    intro e a b s he halive hinv
    have hcount := State.encSampled_count he hinv
    refine ⟨fun hmode ha hb => ?_, fun hmode ha hb => ?_, fun hmode ha hb => ?_, fun hmode ha hlow => ?_, fun hmode ha hlow => ?_,
      fun hmode => ?_⟩
    · refine ⟨_, (exec_encoderEdge_quadrature halive hmode a b).1 ha hb, (hcount ..).1.trans (by rw [ofInt_step]),
        fun d hd hon hpri halone => (hcount ..).2 d hd ⟨hon, hpri, halone, by omega⟩⟩
    · exact ⟨_, (exec_encoderEdge_quadrature halive hmode a b).2.1 ha hb, (hcount ..).1.trans (by rw [ofInt_step'])⟩
    · exact ⟨_, (exec_encoderEdge_quadrature halive hmode a b).2.2 ha hb, s.encSampled_illegal he a b⟩
    · subst ha
      exact ⟨_, (exec_encoderEdge_single halive b hlow).1 hmode, (hcount ..).1.trans (by rw [ofInt_step])⟩
    · subst ha
      exact ⟨_, (exec_encoderEdge_single halive b hlow).2 hmode, (hcount ..).1.trans (by rw [ofInt_step])⟩
    · exact ⟨_, exec_encoderEdge_off halive hmode a b, (s.encSampled_regsIn he a b).keepsRegs⟩
  case index =>
    intro e n r s he halive hlow hn hr
    obtain ⟨hsince, hpin, herr⟩ := s.encIndexed_spec e
    refine ⟨_, exec_encoderIndexEdge halive hlow hn hr, ?_⟩
    by_cases hwrong : s.bit pDIST (eOff e Off.dist_ENC_CFG) 3 = true ∧ n ≠ r
    · rw [if_pos hwrong, if_pos hwrong]
      obtain ⟨htb, hstat, hcount⟩ := (s.encIndexed e).encMiscounted_spec e
      exact ⟨by rw [State.enc_congr htb, hsince], hstat.trans hpin, hcount.trans (by rw [herr])⟩
    · rw [if_neg hwrong, if_neg hwrong]
      exact ⟨hsince, hpin, herr⟩
  case posSet => exact fun m d v s ho _ => execPosSet_spec ho v
  case still => exact fun d s hd halive hon hlate => execStillTimeout_spec hd halive hon hlate
  case slip =>
    rintro d x s _ hd halive hsec rfl hpast
    have hreg := State.reg_congr (s.regs_distCompare d)
    refine ⟨fun hdis hclear => ⟨_, exec_slipDwell_sets halive hsec hpast hdis hclear, fun h10 => ?_, fun h10 => ?_⟩,
      fun hagree hdis => ⟨_, exec_slipDwell_clears halive hsec hpast hagree hdis, ?_⟩⟩
    · obtain ⟨hset, hfault⟩ := (s.distCompare d).slipSet_spec (b := 2) hd (by decide)
      rw [h10, if_neg (by decide)]
      exact ⟨hset.trans (by rw [hreg]; exact (wfld_slip hclear).2.1), hfault⟩
    · obtain ⟨hset, hfault⟩ := (s.distCompare d).slipSet_spec (b := 3) hd (by decide)
      rw [h10, if_pos rfl]
      exact ⟨hset.trans (by rw [hreg]; exact (wfld_slip hclear).2.2), hfault⟩
    · split_ifs with hstands
      · exact State.slipCleared_fld _ d
      · exact ((State.regs_congr_fields (s.regs_distCompare d)).2.1 ..).trans (wfld_slip_clear (by simpa using hstands))

end Sys2Proof.Machine
end

section
/-!
SUPPORT. Main-fabric writes and Silk's records (R46, R472, R525, R526, R589): which registers they change. Also the parts of a RegsIn
that start-up is made of.
-/

namespace Sys2Proof.Machine

open Sys2Proof

/-- The registers that a record of Silk or a main-fabric write may change: Silk's own, the log of DRAMGUARD, and VERIFY_STAT. -/
def logRegs (q o : Nat) : Prop := q = pSILK ∨ q = pDRAMGUARD ∨ q = pBOOT ∧ o = Off.boot_VERIFY_STAT

/-- The registers that a record or write may change, and those of `P`. -/
def orLog (P : Nat → Nat → Prop) (q o : Nat) : Prop := logRegs q o ∨ P q o

namespace RegsIn

variable {P : Nat → Nat → Prop} {s t : State}

theorem orLog (h : RegsIn logRegs s t) : RegsIn (orLog P) s t := h.mono fun _ _ _ hp => .inl hp

/-- A register of `P` beside what records change. -/
theorem own (s : State) {p o : Nat} (v : Word) (hp : P p o) (ho : 0x100 ≤ o ∧ o < 4096 := by decide) :
    RegsIn (Machine.orLog P) s (s.setReg p o v) := .setIn s v (.inr hp) ho

end RegsIn

/-! ## Main-fabric writes -/

theorem State.guardLog_regsIn (s : State) (i mp a : Nat) : RegsIn logRegs s (s.guardLog i mp a) := by
  have hslot : s.fld pDRAMGUARD Off.dramguard_VIOL_HEAD 0 4 < 16 := wfld_lt ..
  have own : ∀ (t : State) o v, 0x100 ≤ o ∧ o < 4096 → RegsIn logRegs t (t.setReg pDRAMGUARD o v) := fun t o v ho =>
    .setIn t v (.inr (.inl rfl)) ho
  unfold State.guardLog
  extract_lets h b s1 s2 s3 s4 s5
  have hb : b ≤ 0xF0 := by unfold b h; omega
  have h1 : RegsIn logRegs s s1 := own s _ _ (by unfold Off.dramguard_VIOL_WHO; omega)
  have h2 : RegsIn logRegs s s2 := (h1.trans (own _ (Off.dramguard_VIOL_ADDR_LO + b) _ (by unfold Off.dramguard_VIOL_ADDR_LO; omega))).trans
    (own _ (Off.dramguard_VIOL_ADDR_LO + b + 4) _ (by unfold Off.dramguard_VIOL_ADDR_LO; omega))
  have h3 : RegsIn logRegs s s3 := h2.trans (own _ (Off.dramguard_VIOL_TIME + b) _ (by unfold Off.dramguard_VIOL_TIME; omega))
  have h5 : RegsIn logRegs s s5 := (h3.trans (own _ _ _ (by decide))).trans (own _ _ _ (by decide))
  exact .ite (fun _ => h5.trans (.raise _ _ (by decide))) fun _ => (h5.trans (.raise _ _ (by decide))).trans (.produce ..)

theorem State.touchImage_regsIn (s : State) (a n : Nat) : RegsIn logRegs s (s.touchImage a n) := by
  have h : RegsIn logRegs s (s.putBit pBOOT Off.boot_VERIFY_STAT 3 false) := .setIn s _ (.inr (.inr ⟨rfl, rfl⟩))
  unfold State.touchImage
  split
  · exact .ite (fun _ => h.trans (.of_touches (State.onPlat_touches ..) rfl)) fun _ => .refl s
  · exact .refl s

theorem State.dramPiece_regsIn (s : State) (mp a : Nat) (bs : List Byte) : RegsIn logRegs s (s.dramPiece mp a bs) := by
  unfold State.dramPiece
  extract_lets n
  refine .ite (fun _ => (RegsIn.raise _ _ (by decide)).trans (.produce ..)) fun _ => .ite (fun _ => .raise _ _ (by decide)) fun _ =>
    .ite (fun _ => .refl s) fun _ => ?_
  split
  · exact s.guardLog_regsIn ..
  · exact .ite (fun _ => .raise _ _ (by decide)) fun _ => ((s.touchImage_regsIn a n).trans (.of_touches (State.snoop_touches ..) rfl)).trans
      (.of_touches (State.storePiece_touches ..) rfl)

theorem State.dramPieces_regsIn (s : State) (mp : Nat) (l : List (Nat × List Byte)) : RegsIn logRegs s (s.dramPieces mp l) := by
  induction l generalizing s with
  | nil => exact .refl s
  | cons x l ih => exact (s.dramPiece_regsIn mp x.1 x.2).trans (ih _)

theorem State.busWrite_regsIn (s : State) (mp a : Nat) (bs : List Byte) : RegsIn logRegs s (s.busWrite mp a bs) := by
  refine .ite (fun _ => .refl s) fun _ => ?_
  unfold State.busStore
  split
  · exact s.dramPieces_regsIn ..
  · exact .ite (fun _ => .refl s) fun _ => .of_touches (State.poke_touches ..) rfl
  · exact .ite (fun _ => .foldl (.refl s) fun v _ _ => .of_touches (State.storePiece_touches v _ _) rfl) fun _ => .refl s
  · exact .refl s
  · exact .refl s

theorem State.loadBytes_regsIn (s : State) (a : Nat) (bs : List Byte) : RegsIn logRegs s (s.loadBytes a bs) :=
  .foldl (.refl s) fun v _ _ => v.busWrite_regsIn ..

/-! ## Silk's records -/

theorem State.silkWrite_regsIn (s : State) (r : SilkRec) : RegsIn logRegs s (s.silkWrite r) := by
  have own : ∀ (t : State) o v, 0x100 ≤ o ∧ o < 4096 → RegsIn logRegs t (t.setReg pSILK o v) := fun t o v ho => .setIn t v (.inl rfl) ho
  unfold State.silkWrite
  extract_lets p slot seq a bytes old s1 s2 s3 n h
  have h1 : RegsIn logRegs s s1 := by
    unfold s1
    split
    · exact .ite (fun _ => .of_touches (State.onDep_touches ..) rfl) fun _ => .refl s
    · exact .refl s
  have h2 : RegsIn logRegs s s2 := (h1.trans (.of_touches (State.poke_touches ..) rfl)).trans (own _ _ _ (by decide))
  have h3 : RegsIn logRegs s s3 := (h2.trans (own _ _ _ (by decide))).trans (.of_touches (State.onDep_touches ..) rfl)
  exact .ite (fun _ => h3) fun _ => (h3.trans (s3.busWrite_regsIn ..)).trans (own _ _ _ (by decide))

theorem State.silkDrain_regsIn (s : State) : RegsIn logRegs s s.silkDrain :=
  .foldl (.refl s) fun v r _ => (RegsIn.of_touches (State.onDep_touches v _) rfl).trans (State.silkWrite_regsIn _ r)

theorem State.silk_regsIn_silk (s : State) (code p d0 d1 d2 : Nat) : RegsIn (fun q _ => q = pSILK) s (s.silk code p d0 d1 d2) := by
  have hdrop : RegsIn (fun q _ => q = pSILK) s (s.count pSILK Off.silk_CNT 0 16 1) := .setIn s _ rfl (by decide)
  exact .ite (fun _ => .of_touches (State.onDep_touches ..) rfl) fun _ => hdrop.trans (.raise _ _ (by decide))

theorem State.silk_regsIn (s : State) (code p d0 d1 d2 : Nat) : RegsIn logRegs s (s.silk code p d0 d1 d2) :=
  (s.silk_regsIn_silk code p d0 d1 d2).mono fun _ _ _ h => .inl h

theorem State.silkOpen_regsIn (s : State) (p d0 d1 d2 : Nat) : RegsIn logRegs s (s.silkOpen p d0 d1 d2) := by
  unfold State.silkOpen
  extract_lets k
  exact ((RegsIn.of_touches (State.drawNat_touches s) rfl).trans (State.silkDrain_regsIn _)).trans (State.silk_regsIn ..)

end Sys2Proof.Machine
end

section
/-!
SUPPORT. The run of start-up (R591, R592): where it stops, and a single step of it.
-/

namespace Sys2Proof.Machine

open Sys2Proof

/-! ## Folds that give each element its turn -/

/-- A fold in which each element, once, takes what is so before its turn (`R`) to what is so after it (`Q`), and leaves the others'. -/
theorem foldl_turns {β : Type} {f : State → β → State} {R Q : β → State → Prop} {l : List β} (hnodup : l.Nodup)
    (hstep : ∀ v, ∀ x ∈ l, R x v → Q x (f v x)) (hR : ∀ v, ∀ x ∈ l, ∀ y ∈ l, y ≠ x → R y v → R y (f v x))
    (hQ : ∀ v, ∀ x ∈ l, ∀ y, y ≠ x → Q y v → Q y (f v x)) {s : State} (h0 : ∀ x ∈ l, R x s) : ∀ x ∈ l, Q x (l.foldl f s) := by
  have keep : ∀ m : List β, (∀ x ∈ m, x ∈ l) → ∀ v y, y ∉ m → Q y v → Q y (m.foldl f v) := by
    intro m hm
    induction m with
    | nil => exact fun v y _ h => h
    | cons x m ih =>
      intro v y hy h
      exact ih (fun z hz => hm z (List.mem_cons_of_mem x hz)) _ y (List.not_mem_of_not_mem_cons hy)
        (hQ v x (hm x List.mem_cons_self) y (List.ne_of_not_mem_cons hy) h)
  suffices h : ∀ m : List β, (∀ x ∈ m, x ∈ l) → m.Nodup → ∀ v, (∀ x ∈ m, R x v) → ∀ x ∈ m, Q x (m.foldl f v) from
    h l (fun _ hx => hx) hnodup s h0
  intro m hm hnd
  induction m with
  | nil => exact fun v _ x hx => by cases hx
  | cons x m ih =>
    intro v hv y hy
    obtain ⟨hx, hnd⟩ := List.nodup_cons.1 hnd
    have hml : ∀ z ∈ m, z ∈ l := fun z hz => hm z (List.mem_cons_of_mem x hz)
    have hxl := hm x List.mem_cons_self
    rcases List.mem_cons.1 hy with rfl | hy
    · exact keep m hml _ y hx (hstep v y hxl (hv y List.mem_cons_self))
    · exact ih hml hnd _ (fun z hz => hR v x hxl z (hml z hz) (fun e => hx (e ▸ hz)) (hv z (List.mem_cons_of_mem x hz))) y hy

/-- A fold that gives each element its property, which no other takes away. -/
theorem foldl_each {β : Type} {f : State → β → State} {Q : β → State → Prop} {l : List β} (hstep : ∀ v, ∀ x ∈ l, Q x (f v x))
    (hQ : ∀ v, ∀ x ∈ l, ∀ y ∈ l, Q y v → Q y (f v x)) (s : State) : ∀ x ∈ l, Q x (l.foldl f s) := by
  have keep : ∀ m : List β, (∀ x ∈ m, x ∈ l) → ∀ v, ∀ y ∈ l, Q y v → Q y (m.foldl f v) := by
    intro m hm
    induction m with
    | nil => exact fun v y _ h => h
    | cons x m ih => exact fun v y hy h => ih (fun z hz => hm z (List.mem_cons_of_mem x hz)) _ y hy (hQ v x (hm x List.mem_cons_self) y hy h)
  suffices h : ∀ m : List β, (∀ x ∈ m, x ∈ l) → ∀ v, ∀ x ∈ m, Q x (m.foldl f v) from h l (fun _ hx => hx) s
  intro m hm
  induction m with
  | nil => exact fun v x hx => by cases hx
  | cons x m ih =>
    intro v y hy
    have hml : ∀ z ∈ m, z ∈ l := fun z hz => hm z (List.mem_cons_of_mem x hz)
    rcases List.mem_cons.1 hy with rfl | hy
    · exact keep m hml _ y (hm y List.mem_cons_self) (hstep v y (hm y List.mem_cons_self))
    · exact ih hml _ y hy

/-! ## The run -/

/-- A run stops behind `upTo`, where start-up has halted, and before a step whose condition does not hold. -/
theorem State.startRun_stop {s : State} {upTo : Nat} (h : upTo < s.power.steps + 1 ∨ s.halted = true ∨ s.stepReady (s.power.steps + 1) = false)
    (e : StartEnv) (n : Nat) : s.startRun e upTo n = s := by
  cases n with
  | zero => rfl
  | succ n =>
    unfold State.startRun
    refine if_pos ?_
    rcases h with h | h | h <;> simp [h]

/-- A run takes the next step. -/
theorem State.startRun_step {s : State} {upTo k : Nat} (hk : s.power.steps + 1 = k) (hup : k ≤ upTo) (h8 : k ≤ 8) (hh : s.halted = false)
    (hr : s.stepReady k = true) (e : StartEnv) (n : Nat) : s.startRun e upTo (n + 1) = (s.startStep e k).startRun e upTo n := by
  subst hk
  rw [State.startRun]
  exact if_neg (by simp [hh, hr]; omega)

/-- START_UP runs: the rails are good, PFW_N does not hold it, and the Coneda is neither in DORMANT nor TRIPPED. -/
structure State.StartOpen (s : State) : Prop where
  wait : s.power.waitCause = none
  good : s.power.pwrGood = true
  free : s.power.pfwHold = false
  state : s.fld (pPWR 1) Off.pwr1_STATE 0 2 < 2
  going : s.halted = false

theorem exec_startUp_off {s : State} (hw : s.power.waitCause = none) (h : s.power.pwrGood = false ∨ s.power.pfwHold = true) (k : Nat)
    (e : StartEnv) : exec (.startUp k e) s = .next s := by
  show execStartUp k e s = _
  unfold execStartUp
  rw [hw]
  refine if_pos ?_
  rcases h with h | h <;> simp [h]

theorem exec_startUp {s : State} (h : s.StartOpen) (k : Nat) (e : StartEnv) : exec (.startUp k e) s = .next (s.startRun e k 8) := by
  obtain ⟨hw, hg, hf, hs, -⟩ := h
  show execStartUp k e s = _
  unfold execStartUp
  rw [hw]
  refine if_neg ?_
  simp [hg, hf, hs]

/-- START_UP up to the next step runs that step. -/
theorem exec_startUp_next {s : State} (h : s.StartOpen) {k : Nat} (hk : s.power.steps + 1 = k) (h8 : k ≤ 8) (hr : s.stepReady k = true)
    (e : StartEnv) (hend : (s.startStep e k).power.steps = k) : exec (.startUp k e) s = .next (s.startStep e k) := by
  rw [exec_startUp h, State.startRun_step hk (le_refl k) h8 h.going hr, State.startRun_stop (.inl (by omega))]

/-- START_UP changes nothing where its next step cannot begin. -/
theorem exec_startUp_waits {s : State} (h : s.StartOpen) (hr : s.stepReady (s.power.steps + 1) = false) (k : Nat) (e : StartEnv) :
    exec (.startUp k e) s = .next s := by
  rw [exec_startUp h, State.startRun_stop (.inr (.inr hr))]

/-! ## The end of a step, and a halt -/

/-- START_STAT. -/
def startStat (q o : Nat) : Prop := q = pGLOBAL ∧ o = Off.global_START_STAT

theorem State.stepDone_regsIn (s : State) (k : Nat) : RegsIn startStat s (s.stepDone k) :=
  (RegsIn.setIn s _ ⟨rfl, rfl⟩).trans (.of_touches (State.onPower_touches ..) rfl)

theorem State.steps_stepDone (s : State) (k : Nat) : (s.stepDone k).power.steps = k := rfl

theorem State.halt_spec (s : State) {k : Nat} (hk : k < 16) : (s.halt k).halted = true ∧
    (s.halt k).fld pGLOBAL Off.global_START_STAT 8 4 = k ∧ (s.halt k).power = s.power := by
  have hreg := (State.silkOpen_regsIn ((s.putBit pGLOBAL Off.global_START_STAT 5 true).setFld pGLOBAL Off.global_START_STAT 8 4 k) pGLOBAL k 0 0).reg
    pGLOBAL Off.global_START_STAT (by decide) (by unfold logRegs; decide)
  unfold State.halt
  refine ⟨?_, ?_, ?_⟩
  · rw [State.halted, State.bit_congr_reg hreg, State.bit, State.setFld, State.reg_setReg_same, bitAt_wset _ _ _ _ _ (by decide)]
    exact State.bit_putBit ..
  · rw [State.fld_congr_reg hreg, State.fld_setFld _ _ _ _ _ _ (by decide)]
    exact Nat.mod_eq_of_lt hk
  · rw [(State.silkOpen_touches ..).power rfl]; rfl

end Sys2Proof.Machine
end

section
/-!
SUPPORT. The steps of start-up one by one (R465, R590, R591).
-/

namespace Sys2Proof.Machine

open Sys2Proof

/-! ## Steps 1 and 2 -/

theorem State.startStep_one (s : State) (e : StartEnv) : (s.startStep e 1).power.steps = 1 ∧
    (s.startStep e 1).bit pCLOCKS Off.clocks_OSC_STAT 0 = true := by
  refine ⟨rfl, ?_⟩
  refine (State.bit_congr_reg ((State.stepDone_regsIn _ 1).reg _ _ (by decide) (by unfold startStat; decide)) 0).trans ?_
  exact State.bit_putBit s pCLOCKS Off.clocks_OSC_STAT 0 true

theorem State.fuseLoad_spec (s : State) (bad : Bool) :
    (s.fuseLoad bad).reg pBOOT Off.boot_SEC_VERSION = wd s.power.fuseVer ∧ (bad = true → (s.fuseLoad bad).Faulted pGLOBAL 8) := by
  unfold State.fuseLoad
  extract_lets s1 s2 s3
  have h3 : s3.reg pBOOT Off.boot_SEC_VERSION = wd s.power.fuseVer := by
    show s2.reg pBOOT Off.boot_SEC_VERSION = _
    rw [State.reg_setReg_page (by decide), State.reg_setReg_same]
  constructor
  · split
    · rw [State.reg_raise _ _ _ _ _ (by decide), h3]
    · exact h3
  · intro hbad
    rw [if_pos hbad]
    exact State.raise_faulted _ rfl (by decide)

theorem State.startStep_two (s : State) (e : StartEnv) : (s.startStep e 2).power.steps = 2 ∧
    (s.startStep e 2).reg pBOOT Off.boot_SEC_VERSION = wd s.power.fuseVer ∧ (e.fuseErr = true → (s.startStep e 2).Faulted pGLOBAL 8) := by
  obtain ⟨hver, hbad⟩ := s.fuseLoad_spec e.fuseErr
  have hdone := (s.fuseLoad e.fuseErr).stepDone_regsIn 2
  exact ⟨rfl, (hdone.reg _ _ (by decide) (by unfold startStat; decide)).trans hver, fun h => hdone.faulted _ _ (hbad h)⟩

/-! ## Step 3: PLLs, the main region and the pairs -/

theorem State.copyPayload_congr {s t : State} (hm : t.mem = s.mem) (hp : t.poison = s.poison) (off : Nat) :
    t.copyPayload off = s.copyPayload off := by
  simp only [State.copyPayload, State.copyCur, State.copySeq, State.copyWords, State.peek, State.anyPoison, State.poisoned, hm, hp]; rfl

/-- A bit that is set stays set where another is. -/
theorem State.bit_putBit_mono {s : State} {q k j : Nat} (h : s.bit q k j = true) (p o : Nat) {i : Nat} (hi : i < 32) :
    (s.putBit p o i true).bit q k j = true := by
  unfold State.bit at h ⊢
  rw [State.putBit, State.reg_setReg]
  split
  · next e =>
    by_cases hj : j = i
    · rw [hj]; exact bitAt_setBit _ _ _ hi
    · rw [bitAt_setBit_other _ _ _ _ hi hj]
      have : s.reg p o = s.reg q k := by unfold State.reg; rw [e]
      rw [this]; exact h
  · exact h

theorem domStat_range {d : Nat} (hd : d < 128) :
    0x100 ≤ Off.pwr0_DOM_STAT0 + 4 * (d / 32) ∧ Off.pwr0_DOM_STAT0 + 4 * (d / 32) < 4096 := by
  unfold Off.pwr0_DOM_STAT0; omega

/-- DOM_REQ and DOM_STAT. -/
def domRegs (q _o : Nat) : Prop := q = pPWR 0

theorem State.domSet_regsIn (s : State) {d : Nat} (hd : d < 128) : RegsIn domRegs s (s.domSet d) := by
  have own : ∀ (t : State) o v, 0x100 ≤ o ∧ o < 4096 → RegsIn domRegs t (t.setReg (pPWR 0) o v) := fun t o v ho => .setIn t v rfl ho
  exact (own s (Off.pwr0_DOM_REQ0 + 4 * (d / 32)) _ (by unfold Off.pwr0_DOM_REQ0; omega)).trans
    (own _ (Off.pwr0_DOM_STAT0 + 4 * (d / 32)) _ (domStat_range hd))

theorem State.domOn_domSet (s : State) (d : Nat) : (s.domSet d).domOn d = true :=
  State.bit_putBit _ _ _ _ _ (Nat.mod_lt _ (by decide))

theorem State.domOn_domSet_mono {s : State} {k : Nat} (h : s.domOn k = true) (d : Nat) : (s.domSet d).domOn k = true :=
  State.bit_putBit_mono (State.bit_putBit_mono h _ _ (Nat.mod_lt _ (by decide))) _ _ (Nat.mod_lt _ (by decide))

theorem pllStat_range {p : Nat} (hp : p < 16) : 0x100 ≤ Off.clocks_PLL_STATp + 4 * p ∧ Off.clocks_PLL_STATp + 4 * p < 4096 := by
  unfold Off.clocks_PLL_STATp; omega

/-- The PLLs as step 3 shows them. -/
def State.pllsLocked (s : State) : State :=
  (List.range 16).foldl (fun t p => t.setReg pCLOCKS (Off.clocks_PLL_STATp + 4 * p)
    (wd (1 + wfld (t.reg pCLOCKS (Off.clocks_PLL_STATp + 4 * p)) 8 8 * 256 + t.pllMhz p * 65536))) s

theorem State.pllsLocked_spec (s : State) : ∀ p ∈ List.range 16, s.pllsLocked.bit pCLOCKS (Off.clocks_PLL_STATp + 4 * p) 0 = true := by
  have hset : ∀ (t : State) (p : Nat), bitAt (wd (1 + wfld (t.reg pCLOCKS (Off.clocks_PLL_STATp + 4 * p)) 8 8 * 256 + t.pllMhz p * 65536)) 0 =
      true := fun t p => by
    rw [bitAt, wfld_wd _ 0 1 (by decide), beq_iff_eq]
    omega
  refine foldl_each (Q := fun p t => t.bit pCLOCKS (Off.clocks_PLL_STATp + 4 * p) 0 = true) (fun v p _ => ?_) (fun v p _ q _ hq => ?_) s
  · unfold State.bit
    rw [State.reg_setReg_same]
    exact hset v p
  · unfold State.bit at hq ⊢
    rw [State.reg_setReg]
    split
    · exact hset v p
    · exact hq

/-- STATE of pair `n` set to BIST or RETIRED and told to Silk, with the failures that the record holds. -/
def State.pairStarted (t : State) (n tries st : Nat) : State :=
  let u := (t.setFld (pSVC n) Off.svc_STAT 4 2 tries).setFld (pSVC n) Off.svc_STAT 0 3 st
  ((u.modPair n fun _ => { bist := st == 1 }).silkDrain).silk 0x0906 (pSVC n) n 0 st

theorem State.pairStarted_regsIn (t : State) (n tries st : Nat) :
    RegsIn (orLog (regsOf (pSVC n) [Off.svc_STAT])) t (t.pairStarted n tries st) := by
  have own : ∀ (u : State) v, RegsIn (orLog (regsOf (pSVC n) [Off.svc_STAT])) u (u.setReg (pSVC n) Off.svc_STAT v) := fun u v =>
    .own u v ⟨rfl, by simp⟩
  exact ((((own _ _).trans (own _ _)).trans (.of_touches (State.modPair_touches ..) rfl)).trans (State.silkDrain_regsIn _).orLog).trans
    (State.silk_regsIn ..).orLog

theorem not_logRegs {q : Nat} (h : q ≠ pSILK ∧ q ≠ pDRAMGUARD ∧ q ≠ pBOOT) {o : Nat} : ¬ logRegs q o := by
  rintro (e | e | ⟨e, -⟩)
  exacts [h.1 e, h.2.1 e, h.2.2 e]

theorem pSVC_not_log (n o : Nat) : ¬ logRegs (pSVC n) o := by
  unfold logRegs pSVC pSILK pDRAMGUARD pBOOT; omega

theorem State.pairState_pairStarted (t : State) (n tries : Nat) {st : Nat} (hst : st < 8) :
    (t.pairStarted n tries st).pairState n = st := by
  unfold State.pairStarted
  extract_lets u
  have h : RegsIn logRegs u (((u.modPair n fun _ => { bist := st == 1 }).silkDrain).silk 0x0906 (pSVC n) n 0 st) :=
    ((RegsIn.of_touches (State.modPair_touches ..) rfl).trans (State.silkDrain_regsIn _)).trans (State.silk_regsIn ..)
  unfold State.pairState
  rw [State.fld_congr_reg (h.reg _ _ (by decide) (pSVC_not_log n _)), State.fld_setFld _ _ _ _ _ _ (by decide)]
  exact Nat.mod_eq_of_lt hst

/-- A change at another pair's registers leaves a pair's STATE. -/
theorem RegsIn.pairState {s t : State} {os : List Nat} {n : Nat} (h : RegsIn (Machine.orLog (regsOf (pSVC n) os)) s t)
    {k : Nat} (hk : k ≠ n) :
    t.pairState k = s.pairState k :=
  State.fld_congr_reg (h.reg _ _ (by decide) (by
    rintro (h | ⟨h, -⟩)
    · exact pSVC_not_log k _ h
    · exact hk (by unfold pSVC at h; omega))) _ _

/-- The pairs' registers. -/
def svcRegs (q _o : Nat) : Prop := ∃ n < 8, q = pSVC n

/-- Step 3 where Cocoon holds no SVC record: no pair is RETIRED, and no BIST has failed. -/
theorem State.startMain_eq {s : State} (h : s.copyPayload 0x1600 = none) : s.startMain =
    (List.range 8).foldl (fun t n => t.pairStarted n 0 1) ([106, 107, 108, 109].foldl State.domSet s.pllsLocked) := by
  have hc : ([106, 107, 108, 109].foldl State.domSet s.pllsLocked).copyPayload 0x1600 = none := by
    have ht : Touches 4 s ([106, 107, 108, 109].foldl State.domSet s.pllsLocked) :=
      .foldl (.foldl (.refl _ _) fun _ _ g => g.step (State.setReg_touches ..) rfl) fun _ _ g => g.step (State.domSet_touches ..) rfl
    rw [State.copyPayload_congr (ht.mem rfl) (ht.poison rfl), h]
  unfold State.startMain
  extract_lets s1 s2 rec_
  have hrec : rec_ = [] := by unfold rec_; rw [show s2.copyPayload 0x1600 = none from hc]; rfl
  rw [hrec]
  rfl

/-- Step 3 ends with every PLL locked, the main region and the service-core groups powered, and every pair in BIST. -/
theorem State.startMain_spec {s : State} (h : s.copyPayload 0x1600 = none) :
    (∀ p < 16, s.startMain.bit pCLOCKS (Off.clocks_PLL_STATp + 4 * p) 0 = true) ∧ (∀ d < 4, s.startMain.domOn (106 + d) = true) ∧
      ∀ n < 8, s.startMain.pairState n = 1 := by
  have hdom : RegsIn domRegs s.pllsLocked ([106, 107, 108, 109].foldl State.domSet s.pllsLocked) :=
    .foldl (.refl _) fun v d hd => v.domSet_regsIn (by fin_cases hd <;> decide)
  have hon := foldl_each (f := State.domSet) (Q := fun d t => t.domOn d = true) (l := [106, 107, 108, 109]) (fun v d _ => v.domOn_domSet d)
    (fun _ d _ _ _ hy => State.domOn_domSet_mono hy d) s.pllsLocked
  have hpairs : RegsIn (orLog svcRegs) ([106, 107, 108, 109].foldl State.domSet s.pllsLocked) s.startMain := by
    rw [State.startMain_eq h]
    exact .foldl (.refl _) fun v n hn => (v.pairStarted_regsIn n 0 1).mono fun _ _ _ hq =>
      hq.imp_right fun ⟨hp, _⟩ => ⟨n, List.mem_range.1 hn, hp⟩
  have hother : ∀ q o, q < pSVC 0 → ¬ logRegs q o → ¬ orLog svcRegs q o := by
    rintro q o hq hl (h | ⟨n, -, rfl⟩)
    · exact hl h
    · unfold pSVC at hq; omega
  refine ⟨fun p hp => ?_, fun d hd => ?_, fun n hn => ?_⟩
  · have hq := quietOff_block (pllStat_range hp)
    rw [State.bit_congr_reg ((hpairs.reg pCLOCKS _ hq (hother _ _ (by decide) (not_logRegs (by decide)))).trans
      (hdom.reg pCLOCKS _ hq (by unfold domRegs; decide)))]
    exact s.pllsLocked_spec p (List.mem_range.2 hp)
  · refine (State.bit_congr_reg (hpairs.reg _ _ (quietOff_block (domStat_range (by omega))) (hother _ _ (by decide)
      (not_logRegs (by decide)))) _).trans
      (hon (106 + d) ?_)
    interval_cases d <;> decide
  · rw [State.startMain_eq h]
    refine foldl_each (f := fun (t : State) n => t.pairStarted n 0 1) (Q := fun n t => t.pairState n = 1) (l := List.range 8)
      (fun v n _ => v.pairState_pairStarted n 0 (by decide)) (fun v n _ k _ hk => ?_) _ n (List.mem_range.2 hn)
    by_cases e : k = n
    · rw [e]
      exact v.pairState_pairStarted n 0 (by decide)
    · exact ((v.pairStarted_regsIn n 0 1).pairState e).trans hk

theorem State.startStep_three {s : State} (h : s.copyPayload 0x1600 = none) (e : StartEnv) : (s.startStep e 3).power.steps = 3 ∧
    (∀ p < 16, (s.startStep e 3).bit pCLOCKS (Off.clocks_PLL_STATp + 4 * p) 0 = true) ∧
      (∀ d < 4, (s.startStep e 3).domOn (106 + d) = true) ∧
      ∀ n < 8, (s.startStep e 3).pairState n = 1 := by
  obtain ⟨hpll, hdom, hpair⟩ := State.startMain_spec h
  have hdone : ∀ q o, quietOff o = true → q ≠ pGLOBAL → (s.startMain.stepDone 3).reg q o = s.startMain.reg q o := fun q o ho hq =>
    (s.startMain.stepDone_regsIn 3).reg q o ho fun ⟨e, _⟩ => hq e
  refine ⟨rfl, fun p hp => (State.bit_congr_reg (hdone _ _ (quietOff_block (pllStat_range hp)) (by decide)) 0).trans (hpll p hp),
    fun d hd => (State.bit_congr_reg (hdone _ _ (quietOff_block (domStat_range (by omega))) (by decide)) _).trans (hdom d hd),
    fun n hn => (State.fld_congr_reg (hdone _ _ (by decide) (by unfold pSVC pGLOBAL; omega)) _ _).trans (hpair n hn)⟩

end Sys2Proof.Machine
end

section
/-!
SUPPORT. Step 4 of start-up: which slot boots (R585 to R587, R591, R592).
-/

namespace Sys2Proof.Machine

open Sys2Proof

/-- The BOOT record read, and a trial boot counted. -/
def State.trialCounted (s : State) : State :=
  let r := (s.copyPayload 0x5800).getD []
  let s1 := s.onPower fun w => { w with pref := (hdrNat r 0 1).testBit 0, trial := (hdrNat r 0 1).testBit 1, tries := hdrNat r 1 1 }
  if !s1.power.trial then s1
  else if s1.power.tries < 3 then (s1.onPower fun w => { w with tries := w.tries + 1 }).bootCommit
  else ((s1.onPower fun w => { w with pref := !w.pref, trial := false }).bootCommit).raise pBOOT 12

/-- Slot `b` boots; `why` is the reason for which the preferred slot does not. -/
def State.slotBooted (t : State) (b : Bool) (why : Nat) : State :=
  let u := t.setReg pBOOT Off.boot_BOOT_STAT
    (wd (b.toNat + (decide (why ≠ 0)).toNat * 2 + hdrNat (t.slotImage b).1 8 4 % 4 * 4 + why * 16 + t.power.trial.toNat * 256))
  (if why = 0 then u else u.raise pBOOT 8).onPower fun w =>
    { w with bootedVer := hdrNat (t.slotImage b).1 12 4, bootedSlot := b, image := (t.slotImage b).1 ++ (t.slotImage b).2 }

/-- BOOT_STAT where the preferred slot boots. -/
theorem State.bootStat_slotBooted (t : State) (b : Bool) : (t.slotBooted b 0).reg pBOOT Off.boot_BOOT_STAT =
    wd (b.toNat + hdrNat (t.slotImage b).1 8 4 % 4 * 4 + t.power.trial.toNat * 256) := by
  unfold State.slotBooted
  extract_lets u
  rw [if_pos rfl]
  rw [State.reg, State.onPower_regs, ← State.reg, t.reg_setReg_same]
  simp

/-- The slot that boots: the preferred one, then the other, or neither and start-up halts. -/
def State.imageChosen (s : State) (e : StartEnv) : State :=
  let r1 := s.slotReason e.badSlots s.power.pref
  let r2 := s.slotReason e.badSlots (!s.power.pref)
  if r1 = 0 then (s.slotBooted s.power.pref 0).stepDone 4
  else if r2 = 0 then (s.slotBooted (!s.power.pref) r1).stepDone 4
  else (s.setReg pBOOT Off.boot_BOOT_STAT (wd (s.power.pref.toNat + r1 * 16 + s.power.trial.toNat * 256))).halt 4

theorem State.imageChosen_first {s : State} {e : StartEnv} {b : Bool} (hb : s.power.pref = b) (h : s.slotReason e.badSlots b = 0) :
    s.imageChosen e = (s.slotBooted b 0).stepDone 4 := by
  subst hb
  exact if_pos h

theorem State.startImage_eq (s : State) (e : StartEnv) :
    s.startImage e = (s.trialCounted.setFld pBOOT Off.boot_XSPI_STAT 3 2 e.flash8d.toNat).imageChosen e := rfl

theorem State.steps_trialCounted (s : State) : s.trialCounted.power.steps = s.power.steps := by
  have hcommit : ∀ t : State, t.bootCommit.power = t.power := fun t => (State.bootCommit_touches t).power rfl
  unfold State.trialCounted
  extract_lets r s1
  split
  · rfl
  · split
    · rw [hcommit]; rfl
    · rw [(State.raise_touches ..).power rfl, hcommit]; rfl

/-- Without a BOOT record slot A is preferred, and no boot is a trial. -/
theorem State.trialCounted_none {s : State} (h : s.copyPayload 0x5800 = none) :
    s.trialCounted = s.onPower fun w => { w with pref := false, trial := false, tries := 0 } := by
  unfold State.trialCounted
  rw [h]
  rfl

/-- What a slot holds, and its reason, are read from the flash and the fuses. -/
theorem State.slotImage_congr {s t : State} (hflash : t.power.flash = s.power.flash) (b : Bool) : t.slotImage b = s.slotImage b := by
  simp only [State.slotImage, State.flashRead, hflash]

theorem State.slotReason_congr {s t : State} (hflash : t.power.flash = s.power.flash) (hrev : t.power.revoked = s.power.revoked)
    (hkey : t.power.keyHash = s.power.keyHash) (hver : t.power.fuseVer = s.power.fuseVer) (bad : Nat) (b : Bool) :
    t.slotReason bad b = s.slotReason bad b := by
  simp only [State.slotReason, State.slotImage_congr hflash, State.imageReason, hrev, hkey, hver]

/-- A slot that fails to read has reason 6. -/
theorem State.slotReason_bad (s : State) {bad : Nat} {b : Bool} (h : bad.testBit b.toNat = true) : s.slotReason bad b = 6 := if_pos h

/-- Where neither slot reads, start-up halts at step 4. -/
theorem State.startImage_halts (s : State) {e : StartEnv} (h : e.badSlots % 4 = 3) :
    (s.startImage e).halted = true ∧ (s.startImage e).fld pGLOBAL Off.global_START_STAT 8 4 = 4 ∧
      (s.startImage e).power.steps = s.power.steps := by
  have hbad : ∀ (t : State) b, t.slotReason e.badSlots b = 6 := fun t b => t.slotReason_bad (by
    have h0 : (e.badSlots % 2 ^ 2).testBit b.toNat = true := by rw [show 2 ^ 2 = 4 from rfl, h]; cases b <;> rfl
    rw [Nat.testBit_mod_two_pow, Bool.and_eq_true] at h0
    exact h0.2)
  rw [State.startImage_eq]
  unfold State.imageChosen
  rw [hbad, hbad]
  obtain ⟨hh, hf, hp⟩ := State.halt_spec (State.setReg (s.trialCounted.setFld pBOOT Off.boot_XSPI_STAT 3 2 e.flash8d.toNat) pBOOT
    Off.boot_BOOT_STAT (wd ((s.trialCounted.setFld pBOOT Off.boot_XSPI_STAT 3 2 e.flash8d.toNat).power.pref.toNat + 6 * 16 +
      (s.trialCounted.setFld pBOOT Off.boot_XSPI_STAT 3 2 e.flash8d.toNat).power.trial.toNat * 256))) (k := 4) (by decide)
  exact ⟨hh, hf, (congrArg Power.steps hp).trans s.steps_trialCounted⟩

/-- Step 4 without a BOOT record: slot A boots where it holds a candidate. -/
theorem State.startStep_four {s : State} (h : s.copyPayload 0x5800 = none) {e : StartEnv} (hA : s.slotReason e.badSlots false = 0) :
    (s.startStep e 4).power.steps = 4 ∧ (s.startStep e 4).power.image = (s.slotImage false).1 ++ (s.slotImage false).2 ∧
      (s.startStep e 4).bit pBOOT Off.boot_BOOT_STAT 0 = false ∧ (s.startStep e 4).bit pBOOT Off.boot_BOOT_STAT 1 = false := by
  have heq : s.startStep e 4 =
      (((s.onPower fun w => { w with pref := false, trial := false, tries := 0 }).setFld pBOOT Off.boot_XSPI_STAT 3 2
      e.flash8d.toNat).slotBooted false 0).stepDone 4 := by
    show s.startImage e = _
    rw [State.startImage_eq, State.trialCounted_none h]
    exact State.imageChosen_first rfl ((State.slotReason_congr (s := s) rfl rfl rfl rfl _ _).trans hA)
  have hstat : ∀ i < 2, (s.startStep e 4).bit pBOOT Off.boot_BOOT_STAT i = false := by
    intro i hi
    rw [heq, State.bit_congr_reg ((State.stepDone_regsIn _ 4).reg _ _ (by decide) (by unfold startStat; decide))]
    rw [State.bit, State.bootStat_slotBooted, bitAt, wfld_wd _ _ _ (by omega), beq_eq_false_iff_ne]
    have htrial : (State.setFld (s.onPower fun w => { w with pref := false, trial := false, tries := 0 }) pBOOT Off.boot_XSPI_STAT 3 2
      e.flash8d.toNat).power.trial = false := rfl
    rw [htrial, Bool.toNat_false]
    interval_cases i <;> omega
  exact ⟨by rw [heq]; rfl, by rw [heq]; rfl, hstat 0 (by decide), hstat 1 (by decide)⟩

end Sys2Proof.Machine
end

section
/-!
SUPPORT. Steps 5 and 6 of start-up: the records of Cocoon and the tables they hold (R241, R470, R505, R507, R520, R591).
-/

namespace Sys2Proof.Machine

open Sys2Proof

/-! ## Step 5 -/

/-- An absent record is reported; a record that is there is not. -/
def State.recordSeen (t : State) (o : Nat) : State :=
  if (t.copyPayload o).isSome then t else (((t.raise pCOCOON 9).produce pCOCOON 1).silkOpen pCOCOON o 0 0)

theorem State.recordSeen_regsIn (t : State) (o : Nat) : RegsIn logRegs t (t.recordSeen o) :=
  .ite (fun _ => .refl t) fun _ => ((RegsIn.raise _ _ (by decide)).trans (.produce ..)).trans (State.silkOpen_regsIn ..)

theorem recordSlots_cons : recordSlots = 0 :: recordSlots.tail := rfl

theorem State.startRecords_eq (s : State) : s.startRecords = recordSlots.tail.foldl State.recordSeen (s.recordSeen 0) := by
  have h : s.startRecords = recordSlots.foldl State.recordSeen s := rfl
  rw [h, recordSlots_cons, List.foldl_cons, List.tail_cons]

theorem State.startStep_five (s : State) (e : StartEnv) : (s.startStep e 5).power.steps = 5 ∧
    (s.copyPayload 0 = none → (s.startStep e 5).Faulted pCOCOON 9) := by
  refine ⟨rfl, fun h => ((s.startRecords.stepDone_regsIn 5).faulted _ _ ?_)⟩
  have hrest : RegsIn logRegs (s.recordSeen 0) s.startRecords := by
    rw [State.startRecords_eq]
    exact .foldl (.refl _) fun v o _ => v.recordSeen_regsIn o
  refine hrest.faulted _ _ ?_
  have hseen : s.recordSeen 0 = (((s.raise pCOCOON 9).produce pCOCOON 1).silkOpen pCOCOON 0 0 0) := by
    unfold State.recordSeen
    rw [h]
    rfl
  have hrep : RegsIn logRegs (s.raise pCOCOON 9) (s.recordSeen 0) := by
    rw [hseen]
    exact (RegsIn.produce ..).trans (State.silkOpen_regsIn ..)
  exact hrep.faulted _ _ (State.raise_faulted _ rfl (by decide))

/-! ## Step 6: the Moult map -/

/-- The engine `p` as a halfword `h` of a MOULT_MAP gives it. -/
def State.engineMapped (t : State) (h p : Nat) : State :=
  let id := h % 512
  let u := t.modHealth p fun x => { x with condemned := id == 0x1FE, count := h / 1024 % 4, retired := h.testBit 12 }
  if id < 256 then u.setReg (pCLUS (id / 8)) (Off.clus_LMAP0 + 4 * (id % 8)) (wd (0x8000 + p))
  else
    let w := u.setSpare p (id == 0x1FF) (id == 0x1FE)
    if id = 0x1FE then w.putBit (pENG p) Off.hdr_PG_STAT 1 true else w

/-- A logical ID that the map gives to no engine waits for a spare. -/
def State.unmappedMarked (t : State) (e : Nat) : State :=
  if bitAt (t.lmap e) 15 then t
  else (t.putBit pWARDEN (Off.warden_UNMAPPED0 + 4 * (e / 32)) (e % 32) true).onDep fun d =>
    { d with moults := d.moults ++ [{ engine := e, logical := e, cause := 0, start := t.now, step := .waiting, threads := [] }] }

/-- Every LMAP entry as 0. -/
def State.mapCleared (s : State) : State :=
  (List.range 256).foldl (fun t e => t.setReg (pCLUS (e / 8)) (Off.clus_LMAP0 + 4 * (e % 8)) 0) s

/-- Without a MOULT_MAP record every engine has its default. -/
theorem State.startMap_none {s : State} (h : s.copyPayload 0x1000 = none) : s.startMap =
    (List.range 256).foldl State.unmappedMarked ((List.range 272).foldl (fun t p => t.engineMapped (mapDefault p) p) s.mapCleared) := by
  unfold State.startMap
  rw [h]
  rfl

theorem lmapOff_range {e : Nat} : 0x100 ≤ Off.clus_LMAP0 + 4 * (e % 8) ∧ Off.clus_LMAP0 + 4 * (e % 8) < 4096 := by
  unfold Off.clus_LMAP0; omega

/-- An engine with its own ID holds it. -/
theorem State.lmap_engineMapped (t : State) {p : Nat} (hp : p < 256) : (t.engineMapped (mapDefault p) p).lmap p = wd (0x8000 + p) := by
  have hid : mapDefault p % 512 = p := by rw [mapDefault, if_pos hp]; omega
  unfold State.engineMapped
  rw [hid, if_pos hp]
  exact State.reg_setReg_same ..

/-- An engine leaves the LMAP entries of the others' IDs. -/
theorem State.lmap_engineMapped_ne (t : State) {p e : Nat} (hne : e ≠ p) :
    (t.engineMapped (mapDefault p) p).lmap e = t.lmap e := by
  have hhealth : ∀ f, (t.modHealth p f).lmap e = t.lmap e := fun f => State.reg_congr ((State.modHealth_touches t p f).regs rfl) _ _
  unfold State.engineMapped
  by_cases hp : p < 256
  · have hid : mapDefault p % 512 = p := by rw [mapDefault, if_pos hp]; omega
    rw [hid, if_pos hp]
    refine (State.reg_setReg_ne fun he => ?_).trans (hhealth _)
    obtain ⟨h1, h2⟩ := (rg_inj lmapOff_range.2 lmapOff_range.2).1 he
    unfold pCLUS at h1
    omega
  · have hid : mapDefault p % 512 = 0x1FF := by rw [mapDefault, if_neg hp]
    rw [hid, if_neg (by decide), if_neg (by decide)]
    have hoff : ∀ (v : State) w, (v.setReg (clusOf p) Off.clus_SPARES w).lmap e = v.lmap e := fun v w => State.reg_setReg_ne fun he => by
      obtain ⟨-, h2⟩ := (rg_inj lmapOff_range.2 (by decide)).1 he
      unfold Off.clus_LMAP0 Off.clus_SPARES at h2
      omega
    exact ((hoff _ _).trans (hoff _ _)).trans (hhealth _)

theorem State.unmappedMarked_regsIn (t : State) {e : Nat} (he : e < 256) : RegsIn (fun q _ => q = pWARDEN) t (t.unmappedMarked e) :=
  .ite (fun _ => .refl t) fun _ => (RegsIn.setIn t (p := pWARDEN) (o := Off.warden_UNMAPPED0 + 4 * (e / 32)) _ rfl
    (by unfold Off.warden_UNMAPPED0; omega)).trans (.of_touches (State.onDep_touches ..) rfl)

theorem State.lmap_startMap {s : State} (h : s.copyPayload 0x1000 = none) {l : Nat} (hl : l < 256) :
    s.startMap.lmap l = wd (0x8000 + l) := by
  rw [State.startMap_none h]
  have hmark : ∀ t : State, RegsIn (fun q _ => q = pWARDEN) t ((List.range 256).foldl State.unmappedMarked t) := fun t =>
    .foldl (.refl t) fun v e he => v.unmappedMarked_regsIn (List.mem_range.1 he)
  refine ((hmark _).reg _ _ (quietOff_block lmapOff_range) (by unfold pCLUS pWARDEN; omega)).trans ?_
  refine foldl_each (f := fun (t : State) p => t.engineMapped (mapDefault p) p) (Q := fun e t => e < 256 → t.lmap e = wd (0x8000 + e))
    (l := List.range 272) (fun v p _ hp => v.lmap_engineMapped hp) (fun v p _ e _ hv he => ?_) _ l (List.mem_range.2 (by omega)) hl
  by_cases hne : e = p
  · subst hne
    exact v.lmap_engineMapped he
  · exact (v.lmap_engineMapped_ne hne).trans (hv he)

/-! ## Step 6: the remap and retire tables -/

theorem remapRows_regsIn {P : Nat → Nat → Prop} {put : State → Nat → Nat → Nat → State}
    (hput : ∀ t p k w, RegsIn P t (put t p k w)) (n : Nat)
    (b : List Byte) (s : State) : RegsIn P s (remapRows put n b s) := by
  induction n generalizing b s with
  | zero => exact .refl s
  | succ n ih => exact .ite (fun _ => .refl s) fun _ => (hput ..).trans (ih ..)

theorem State.setRegs32_regsIn (s : State) {p o : Nat} (ws : Words) (ho : 0x100 ≤ o) (hlen : o + 4 * ws.length ≤ 4096) :
    RegsIn (fun q _ => q = p) s (s.setRegs32 p o ws) := by
  induction ws generalizing s o with
  | nil => exact .refl s
  | cons w ws ih =>
    rw [List.length_cons] at hlen
    have hw : RegsIn (fun q _ => q = p) s (s.setReg p o w) := .setIn s w rfl ⟨ho, by omega⟩
    exact hw.trans (ih _ (by omega) (by omega))

theorem length_bytesWords (n : Nat) (b : List Byte) : (bytesWords n b).length = n := by
  induction n generalizing b with
  | zero => rfl
  | succ n ih => exact congrArg (· + 1) (ih _)

/-- The registers of the DRAM pages. -/
def dramRegs (q _o : Nat) : Prop := ∃ n < 16, q = pDRAM n

theorem State.startTables_regsIn (s : State) : RegsIn dramRegs s.startMap s.startTables := by
  unfold State.startTables
  extract_lets b s1
  have h1 : RegsIn dramRegs s.startMap s1 := remapRows_regsIn (fun t p k w => .of_touches (State.modScrub_touches ..) rfl) _ _ _
  refine .foldl h1 fun v n hn => ?_
  have hpage : ∀ q o, quietOff o = true → q = pDRAM n → dramRegs q o := fun q _ _ e => ⟨n, List.mem_range.1 hn, e⟩
  split
  · exact .refl v
  · next r _ =>
    have hset : RegsIn dramRegs v (v.setRegs32 (pDRAM n) Off.dram_RETIRE (bytesWords (min 64 (r.length / 4)) r)) :=
      (State.setRegs32_regsIn v _ (by decide) (by rw [length_bytesWords]; unfold Off.dram_RETIRE; omega)).mono hpage
    exact hset.trans (.setIn _ _ (hpage _ _ (by decide) rfl))

theorem State.startStep_six (s : State) (e : StartEnv) : (s.startStep e 6).power.steps = 6 ∧
    (s.copyPayload 0x1000 = none → ∀ l < 256, (s.startStep e 6).lmap l = wd (0x8000 + l)) := by
  refine ⟨rfl, fun h l hl => ?_⟩
  have hdone := (s.startTables.stepDone_regsIn 6).reg (pCLUS (l / 8)) _ (quietOff_block (lmapOff_range (e := l)))
    (by unfold startStat pCLUS pGLOBAL; omega)
  have htab := s.startTables_regsIn.reg (pCLUS (l / 8)) _ (quietOff_block (lmapOff_range (e := l)))
    (by rintro ⟨n, hn, e⟩; unfold pCLUS pDRAM at e; omega)
  exact hdone.trans (htab.trans (State.lmap_startMap h hl))

end Sys2Proof.Machine
end

section
/-!
SUPPORT. Step 7 of start-up: DRAM training with FIXED delays (R465, R591).
-/

namespace Sys2Proof.Machine

open Sys2Proof

/-- The registers that training writes. -/
def trainOffs : List Nat := [Off.dram_CUR_RD, Off.dram_CUR_WR, Off.dram_STATE, Off.dram_EYE]

/-- The registers that training a controller writes. -/
abbrev trainRegs (n : Nat) : Nat → Nat → Prop := regsOf (pDRAM n) trainOffs

theorem State.train_regsIn (t : State) (n : Nat) {o : Nat} (v : Word) (h : o ∈ trainOffs := by unfold trainOffs; simp)
    (ho : 0x100 ≤ o ∧ o < 4096 := by decide) : RegsIn (trainRegs n) t (t.setReg (pDRAM n) o v) := .setIn t v ⟨rfl, h⟩ ho

theorem State.dramEnter_regsIn (t : State) (n : Nat) (rd wr : Word) (fast : Bool) : RegsIn (trainRegs n) t (t.dramEnter n rd wr fast) :=
  ((t.train_regsIn n rd).trans (State.train_regsIn _ n wr)).trans (State.train_regsIn _ n _)

theorem State.dramTrain_regsIn (s : State) (n : Nat) (x : Train) : RegsIn (trainRegs n) s (s.dramTrain n x) := by
  have report : ∀ (t : State) b, b < 32 → RegsIn (trainRegs n) t ((t.raise (pDRAM n) b).produce (pDRAM n) 2) := fun t b hb =>
    (RegsIn.raise t _ hb).trans (.produce ..)
  unfold State.dramTrain
  extract_lets p r rd wr stored s1 s2 lanes s3 narrow s4 nrd nwr s5
  have h1 : RegsIn (trainRegs n) s s1 := .ite (fun _ => .raise _ _ (by decide)) fun _ => .refl s
  have h2 : RegsIn (trainRegs n) s s2 := (RegsIn.ite (fun _ => h1.trans (report _ 10 (by decide))) fun _ => h1).trans
      (State.train_regsIn _ n 1)
  have h3 : RegsIn (trainRegs n) s s3 := h2.trans (State.train_regsIn _ n _)
  have h4 : RegsIn (trainRegs n) s s4 := .ite (fun _ => h3.trans (report _ 9 (by decide))) fun _ => h3
  have h5 : RegsIn (trainRegs n) s s5 := h4.trans (State.dramEnter_regsIn ..)
  exact .ite (fun _ => s.dramEnter_regsIn ..) fun _ => .ite (fun _ => s.train_regsIn n 2) fun _ =>
    .ite (fun _ => s.dramEnter_regsIn ..) fun _ =>
    .ite (fun _ => h3.trans (report _ 10 (by decide))) fun _ =>
      .ite (fun _ => h5.trans (.of_touches (State.cocoonPut_touches ..) rfl)) fun _ => h5

/-- A controller that runs with its FIXED delays. -/
def State.FixedRun (t : State) (rd : Word) (n : Nat) : Prop :=
  t.fld (pDRAM n) Off.dram_STATE 0 3 = 2 ∧ t.reg (pDRAM n) Off.dram_CUR_RD = rd

/-- With TRAIN's bit 0 a controller enters RUN with its FIXED delays. -/
theorem State.fixedRun_dramTrain {t : State} {n : Nat} (h : t.bit (pDRAM n) Off.dram_TRAIN 0 = true) (x : Train) :
    (t.dramTrain n x).FixedRun (t.reg (pDRAM n) Off.dram_FIX_RD) n := by
  have heq : t.dramTrain n x = t.dramEnter n (t.reg (pDRAM n) Off.dram_FIX_RD) (t.reg (pDRAM n) Off.dram_FIX_WR) false := if_pos h
  rw [heq]
  unfold State.dramEnter
  constructor
  · rw [State.fld, State.reg_setReg_same]
    rfl
  · rw [State.reg_setReg_page (by decide), State.reg_setReg_page (by decide), State.reg_setReg_same]

/-- A controller's registers under the training of another. -/
theorem State.dramTrain_other (t : State) {n k : Nat} (x : Train) (h : k ≠ n) {o : Nat} (ho : quietOff o = true) :
    (t.dramTrain n x).reg (pDRAM k) o = t.reg (pDRAM k) o :=
  (t.dramTrain_regsIn n x).reg _ _ ho fun ⟨e, _⟩ => h (by unfold pDRAM at e; omega)

theorem State.controllers_le (s : State) : s.controllers ≤ 16 := by
  have h : s.fld pDRAMCOM Off.dramcom_TOPO 0 2 < 4 := wfld_lt ..
  exact Nat.pow_le_pow_right (by decide : 0 < 2) (by omega : 1 + s.fld pDRAMCOM Off.dramcom_TOPO 0 2 ≤ 4)

theorem State.startStep_seven {s : State} (h : ∀ n < 16, s.bit (pDRAM n) Off.dram_TRAIN 0 = true) (e : StartEnv) :
    (s.startStep e 7).power.steps = 7 ∧ ∀ n < s.controllers, (s.startStep e 7).fld (pDRAM n) Off.dram_STATE 0 3 = 2 ∧
      (s.startStep e 7).reg (pDRAM n) Off.dram_CUR_RD = s.reg (pDRAM n) Off.dram_FIX_RD := by
  show (s.startDram e).power.steps = 7 ∧ ∀ n < s.controllers, (s.startDram e).fld (pDRAM n) Off.dram_STATE 0 3 = 2 ∧
    (s.startDram e).reg (pDRAM n) Off.dram_CUR_RD = s.reg (pDRAM n) Off.dram_FIX_RD
  unfold State.startDram
  extract_lets s1 s2
  have h1 : RegsIn domRegs s s1 := .foldl (.refl s) fun v k hk =>
    .ite (fun _ => v.domSet_regsIn (by have := List.mem_range.1 hk; omega)) fun _ => .refl v
  have hreg1 : ∀ n o, quietOff o = true → s1.reg (pDRAM n) o = s.reg (pDRAM n) o := fun n o ho =>
    h1.reg _ _ ho (by unfold domRegs pDRAM pPWR; omega)
  have h2 : ∀ n ∈ List.range s.controllers, s2.FixedRun (s.reg (pDRAM n) Off.dram_FIX_RD) n := by
    refine foldl_turns (R := fun n t => t.bit (pDRAM n) Off.dram_TRAIN 0 = true ∧
        t.reg (pDRAM n) Off.dram_FIX_RD = s.reg (pDRAM n) Off.dram_FIX_RD)
      (Q := fun n t => t.FixedRun (s.reg (pDRAM n) Off.dram_FIX_RD) n) List.nodup_range (fun v n _ ⟨hbit, hfix⟩ => ?_)
      (fun v n _ k _ hne ⟨hbit, hfix⟩ => ?_) (fun v n _ k hne ⟨hst, hrd⟩ => ?_) (fun n hn => ?_)
    · rw [← hfix]
      exact State.fixedRun_dramTrain hbit _
    · exact ⟨(State.bit_congr_reg (v.dramTrain_other _ hne (by decide)) 0).trans hbit, (v.dramTrain_other _ hne (by decide)).trans hfix⟩
    · exact ⟨(State.fld_congr_reg (v.dramTrain_other _ hne (by decide)) _ _).trans hst, (v.dramTrain_other _ hne (by decide)).trans hrd⟩
    · have hn16 : n < 16 := Nat.lt_of_lt_of_le (List.mem_range.1 hn) s.controllers_le
      exact ⟨(State.bit_congr_reg (hreg1 n _ (by decide)) 0).trans (h n hn16), hreg1 n _ (by decide)⟩
  have hrun : ((List.range s.controllers).any fun n => s2.fld (pDRAM n) Off.dram_STATE 0 3 ≠ 2) = false := by
    rw [List.any_eq_false]
    intro n hn
    simpa using (h2 n hn).1
  rw [hrun]
  have hdone : RegsIn startStat s2 ((s2.onPower fun w => { w with dramLost := false }).stepDone 7) :=
    (RegsIn.of_touches (State.onPower_touches ..) rfl).trans (State.stepDone_regsIn _ 7)
  have hreg : ∀ n o, quietOff o = true →
      ((s2.onPower fun w => { w with dramLost := false }).stepDone 7).reg (pDRAM n) o = s2.reg (pDRAM n) o :=
    fun n o ho => hdone.reg _ _ ho (by unfold startStat pDRAM pGLOBAL; omega)
  refine ⟨rfl, fun n hn => ?_⟩
  obtain ⟨hst, hrd⟩ := h2 n (List.mem_range.2 hn)
  exact ⟨(State.fld_congr_reg (hreg n _ (by decide)) _ _).trans hst, (hreg n _ (by decide)).trans hrd⟩

end Sys2Proof.Machine
end

section
/-!
SUPPORT. Step 8 of start-up: the first-stage image, the pairs and the handover (R505, R590, R591).
-/

namespace Sys2Proof.Machine

open Sys2Proof

/-! ## The pairs -/

/-- STAT and CNT of pair `n`, and Silk's registers. -/
def pairOwn (n q o : Nat) : Prop := q = pSILK ∨ q = pSVC n ∧ (o = Off.svc_STAT ∨ o = Off.svc_CNT)

theorem State.setPair_regsIn (s : State) (n st : Nat) : RegsIn (pairOwn n) s (s.setPair n st) := by
  have own : ∀ (t : State) o v, o = Off.svc_STAT ∨ o = Off.svc_CNT → RegsIn (pairOwn n) t (t.setReg (pSVC n) o v) := fun t o v ho =>
    .setIn t v (.inr ⟨rfl, ho⟩) (by rcases ho with rfl | rfl <;> decide)
  unfold State.setPair
  extract_lets p old s1 s2 si s3
  have h1 : RegsIn (pairOwn n) s s1 := ((own s _ _ (.inl rfl)).trans (.produce ..)).trans
    ((State.silk_regsIn_silk ..).mono fun _ _ _ h => .inl h)
  have h2 : RegsIn (pairOwn n) s s2 := .ite (fun _ => h1.trans (own _ _ _ (.inr rfl))) fun _ => h1
  have h3 : RegsIn (pairOwn n) s s3 := .ite (fun _ => h2.trans (.raise _ _ (by decide))) fun _ => h2
  exact .ite (fun _ => .refl s) fun _ => h3.trans (.of_touches (State.cocoonPut_touches ..) rfl)

/-- A pair is in the STATE to which it was set. -/
theorem State.pairState_setPair (s : State) (n : Nat) {st : Nat} (hst : st < 8) : (s.setPair n st).pairState n = st := by
  unfold State.setPair
  extract_lets p old s1 s2 si s3
  split
  · next h => exact h
  · have h1 : s1.pairState n = st := by
      have hs : RegsIn (fun q _ => q = pSILK) (s.setFld p Off.svc_STAT 0 3 st) s1 := (RegsIn.produce ..).trans (State.silk_regsIn_silk ..)
      refine (State.fld_congr_reg (hs.reg _ _ (by decide) (by unfold pSVC pSILK; omega)) _ _).trans ?_
      rw [State.fld_setFld _ _ _ _ _ _ (by decide)]
      exact Nat.mod_eq_of_lt hst
    have h2 : s2.pairState n = s1.pairState n := by
      unfold s2
      split
      · exact State.fld_congr_reg (State.reg_setReg_page (by decide)) _ _
      · rfl
    have h3 : s3.pairState n = s2.pairState n := by
      unfold s3
      split
      · exact State.fld_congr_reg (State.reg_raise _ _ _ _ _ (by decide)) _ _
      · rfl
    exact (State.fld_congr_reg (State.reg_congr ((State.cocoonPut_touches ..).regs rfl) _ _) _ _).trans (h3.trans (h2.trans h1))

/-- A pair that has passed its BIST is handed over. -/
def State.pairHanded (t : State) (n : Nat) : State :=
  if t.pairState n = 1 ∨ t.pairState n = 2 then
    (t.modPair n fun _ => { bist := false, running := true }).setPair n (if n = 0 then 3 else 2)
  else t

theorem State.pairHanded_regsIn (t : State) (n : Nat) : RegsIn (pairOwn n) t (t.pairHanded n) :=
  .ite (fun _ => (RegsIn.of_touches (State.modPair_touches ..) rfl).trans (State.setPair_regsIn ..)) fun _ => .refl t

theorem State.pairState_pairHanded_ne (t : State) {n k : Nat} (h : k ≠ n) : (t.pairHanded n).pairState k = t.pairState k :=
  State.fld_congr_reg ((t.pairHanded_regsIn n).reg _ _ (by decide) (by
    rintro (e | ⟨e, -⟩)
    · unfold pSVC pSILK at e; omega
    · unfold pSVC at e; omega)) _ _

/-- Every pair in BIST is handed over: pair 0 as the ACTIVE one. -/
theorem State.pairsHanded {s : State} (h : ∀ n < 8, s.pairState n = 1) :
    ∀ n < 8, ((List.range 8).foldl State.pairHanded s).pairState n = if n = 0 then 3 else 2 := by
  intro n hn
  refine foldl_turns (f := State.pairHanded) (R := fun n t => t.pairState n = 1) (Q := fun n t => t.pairState n = if n = 0 then 3 else 2)
    List.nodup_range (fun v n _ h1 => ?_) (fun v n _ k _ hk h1 => (v.pairState_pairHanded_ne hk).trans h1)
    (fun v n _ k hk h1 => (v.pairState_pairHanded_ne hk).trans h1) (fun n hn => h n (List.mem_range.1 hn)) n (List.mem_range.2 hn)
  unfold State.pairHanded
  rw [if_pos (.inl h1)]
  exact State.pairState_setPair _ _ (by split <;> decide)

/-! ## The image and the BOOT registers -/

/-- The registers of a verified image. -/
def imageRegs (q o : Nat) : Prop := q = pBOOT ∧ 0x100 ≤ o

theorem ofLeBytes_lt (l : List Byte) : ofLeBytes l < 256 ^ l.length := by
  induction l with
  | nil => decide
  | cons b l ih =>
    have hb := b.isLt
    rw [ofLeBytes, List.length_cons, Nat.pow_succ]
    omega

theorem imgEntry_lt (l : List Byte) : imgEntry l < 2 ^ 64 :=
  Nat.lt_of_lt_of_le (ofLeBytes_lt _) ((Nat.pow_le_pow_right (by decide) (List.length_take_le ..)).trans (by decide : 256 ^ 8 ≤ 2 ^ 64))

theorem State.imageVerified_regsIn (s : State) (a n entry : Nat) : RegsIn imageRegs s (s.imageVerified a n entry) := by
  have own : ∀ (t : State) o v, 0x100 ≤ o ∧ o < 4096 → RegsIn imageRegs t (t.setReg pBOOT o v) := fun t o v ho => .setIn t v ⟨rfl, ho.1⟩ ho
  unfold State.imageVerified State.setReg64
  refine RegsIn.trans ?_ (.of_touches (State.onPlat_touches ..) rfl)
  exact ((own s _ _ (by decide)).trans (own _ _ _ (by decide))).trans (own _ _ _ (by decide))

theorem State.valid_imageVerified (s : State) (a n entry : Nat) : (s.imageVerified a n entry).bit pBOOT Off.boot_VERIFY_STAT 3 = true := by
  have h : (s.imageVerified a n entry).reg pBOOT Off.boot_VERIFY_STAT = wd 10 := by
    unfold State.imageVerified State.setReg64
    rw [State.reg, State.onPlat_regs, ← State.reg, State.reg_setReg_page (by decide), State.reg_setReg_page (by decide),
        State.reg_setReg_same]
  rw [State.bit, h]
  decide

/-- BOOT of every pair set to `v`. -/
def State.bootSet (s : State) (v : Nat) : State :=
  (List.range 8).foldl (fun t n => t.setReg64 (pSVC n) Off.svc_BOOT_LO (Off.svc_BOOT_LO + 4) v) s

def bootRegs (q o : Nat) : Prop := (∃ n < 8, q = pSVC n) ∧ (o = Off.svc_BOOT_LO ∨ o = Off.svc_BOOT_LO + 4)

theorem State.bootSet_regsIn (s : State) (v : Nat) : RegsIn bootRegs s (s.bootSet v) := by
  refine .foldl (.refl s) fun t n hn => ?_
  have hp : ∃ k < 8, pSVC n = pSVC k := ⟨n, List.mem_range.1 hn, rfl⟩
  have hlo : RegsIn bootRegs t (t.setReg (pSVC n) Off.svc_BOOT_LO (wd v)) := .setIn t _ ⟨hp, .inl rfl⟩
  exact hlo.trans (.setIn _ _ ⟨hp, .inr rfl⟩)

theorem State.boot_bootSet (s : State) {v : Nat} (hv : v < 2 ^ 64) {n : Nat} (hn : n < 8) :
    (s.bootSet v).reg64 (pSVC n) Off.svc_BOOT_LO (Off.svc_BOOT_LO + 4) = v := by
  refine foldl_each (f := fun (t : State) n => t.setReg64 (pSVC n) Off.svc_BOOT_LO (Off.svc_BOOT_LO + 4) v)
    (Q := fun n t => t.reg64 (pSVC n) Off.svc_BOOT_LO (Off.svc_BOOT_LO + 4) = v) (fun t n _ => ?_)
    (fun t n _ k _ hk => ?_) s n (List.mem_range.2 hn)
  · rw [State.reg64_setReg64 _ (by decide), Nat.mod_eq_of_lt hv]
  · by_cases h : k = n
    · rw [h, State.reg64_setReg64 _ (by decide), Nat.mod_eq_of_lt hv]
    · have hne : ∀ o j, o < 4096 → j < 4096 → rg (pSVC k) o ≠ rg (pSVC n) j := fun o j ho hj e =>
        h (by have := ((rg_inj ho hj).1 e).1; unfold pSVC at this; omega)
      exact (State.reg64_congr (State.reg_setReg64_ne (hne _ _ (by decide) (by decide)) (hne _ _ (by decide) (by decide)))
        (State.reg_setReg64_ne (hne _ _ (by decide) (by decide)) (hne _ _ (by decide) (by decide)))).trans hk

/-! ## The step -/

/-- Step 8 up to the loaded image: the domains are on and nothing has failed the self-test. -/
def State.imageLoaded (s : State) : State :=
  (((List.range 112).foldl (fun t d => if 98 ≤ d ∧ d < 106 then t else t.domSet d) s).silkDrain).loadBytes
    (imgLoad (s.power.image.take 0x200)) (s.power.image.drop 0x200)

/-- The image is verified, and the pairs boot from its entry. -/
def State.imageBooted (s : State) (image : List Byte) : State :=
  State.bootSet ((s.imageVerified (imgLoad (image.take 0x200)) (image.drop 0x200).length (imgEntry (image.take 0x200))).onPower
    fun w => { w with firstStage := true }) (imgEntry (image.take 0x200))

/-- Every engine that is not condemned is in BIST. -/
def State.bistStarted (s : State) : State :=
  (List.range 272).foldl (fun t p => if (t.health p).condemned then t else t.setReg (pENG p) Off.eng_BIST_STAT 3) s

theorem State.selfTest_passed (s : State) {e : StartEnv} (hmem : e.memBad = []) (hchk : e.checkers = []) : s.selfTest e = s := by
  unfold State.selfTest
  rw [hmem, hchk]
  rfl

/-- Where the self-test finds nothing, step 8 is made of these. -/
theorem State.startHandover_eq (s : State) {e : StartEnv} (hmem : e.memBad = []) (hchk : e.checkers = []) : s.startHandover e =
    ((((List.range 8).foldl State.pairHanded (s.imageLoaded.imageBooted s.power.image)).bistStarted).setReg pGLOBAL Off.global_T_HANDOVER
      (wd ((s.now - s.power.goodAt) / 250000))).stepDone 8 := by
  unfold State.startHandover
  extract_lets h pay s1 s2 s3 s4 s5 s6
  have h2 : s2 = s.imageLoaded := by
    unfold s2
    rw [State.selfTest_passed _ hmem hchk]
    rfl
  have h4 : s4 = s2.imageBooted s.power.image := rfl
  have h5 : s5 = (List.range 8).foldl State.pairHanded s4 := rfl
  have h6 : s6 = s5.bistStarted := rfl
  rw [h6, h5, h4, h2]

theorem State.imageLoaded_regsIn (s : State) : RegsIn (orLog domRegs) s s.imageLoaded := by
  have hdom : RegsIn domRegs s ((List.range 112).foldl (fun t d => if 98 ≤ d ∧ d < 106 then t else t.domSet d) s) :=
    .foldl (.refl s) fun v d hd => .ite (fun _ => .refl v) fun _ => v.domSet_regsIn (by have := List.mem_range.1 hd; omega)
  have hlog : RegsIn logRegs ((List.range 112).foldl (fun t d => if 98 ≤ d ∧ d < 106 then t else t.domSet d) s) s.imageLoaded :=
    (State.silkDrain_regsIn _).trans (State.loadBytes_regsIn ..)
  exact (hdom.mono fun _ _ _ h => .inr h).trans hlog.orLog

/-- The registers that the end of step 8 changes. -/
def handoverRegs (q o : Nat) : Prop := q = pGLOBAL ∨ ∃ p < 272, q = pENG p ∧ o = Off.eng_BIST_STAT

theorem State.bistStarted_regsIn (s : State) : RegsIn handoverRegs s s.bistStarted := by
  refine .foldl (.refl s) fun v p hp => .ite (fun _ => .refl v) fun _ => ?_
  have h : handoverRegs (pENG p) Off.eng_BIST_STAT := .inr ⟨p, List.mem_range.1 hp, rfl, rfl⟩
  exact .setIn v _ h

theorem State.startHandover_regsIn (s : State) {e : StartEnv} (hmem : e.memBad = []) (hchk : e.checkers = []) :
    RegsIn handoverRegs ((List.range 8).foldl State.pairHanded (s.imageLoaded.imageBooted s.power.image)) (s.startHandover e) := by
  rw [State.startHandover_eq s hmem hchk]
  have hset : ∀ (t : State) v, RegsIn handoverRegs t (t.setReg pGLOBAL Off.global_T_HANDOVER v) := fun t v => .setIn t v (.inl rfl)
  exact ((State.bistStarted_regsIn _).trans (hset _ _)).trans ((State.stepDone_regsIn _ 8).mono fun _ _ _ h => .inl h.1)

theorem not_handoverRegs {q o : Nat} (h : (∃ n < 8, q = pSVC n) ∨ q = pBOOT) : ¬ handoverRegs q o := by
  rintro (e | ⟨p, hp, e, -⟩) <;> rcases h with ⟨n, hn, rfl⟩ | rfl
  · unfold pSVC pGLOBAL at e; omega
  · exact absurd e (by decide)
  · unfold pSVC pENG at e; omega
  · unfold pBOOT pENG at e; omega

/-- The hand-over of the pairs leaves the registers of other pages but Silk's, and BOOT of the pairs. -/
theorem State.pairsHanded_regsIn (s : State) :
    RegsIn (fun q o => ∃ n < 8, pairOwn n q o) s ((List.range 8).foldl State.pairHanded s) :=
  .foldl (.refl s) fun v n hn => (v.pairHanded_regsIn n).mono fun _ _ _ h => ⟨n, List.mem_range.1 hn, h⟩

theorem State.startStep_eight {s : State} {e : StartEnv} (hmem : e.memBad = []) (hchk : e.checkers = [])
    (hpairs : ∀ n < 8, s.pairState n = 1) : (s.startStep e 8).power.steps = 8 ∧ (s.startStep e 8).pairState 0 = 3 ∧
      (∀ n < 8, n ≠ 0 → (s.startStep e 8).pairState n = 2) ∧
      (∀ n < 8, (s.startStep e 8).reg64 (pSVC n) Off.svc_BOOT_LO (Off.svc_BOOT_LO + 4) = imgEntry (s.power.image.take 0x200)) ∧
      (s.startStep e 8).bit pBOOT Off.boot_VERIFY_STAT 3 = true := by
  show (s.startHandover e).power.steps = 8 ∧ (s.startHandover e).pairState 0 = 3 ∧ (∀ n < 8, n ≠ 0 → (s.startHandover e).pairState n = 2) ∧
    (∀ n < 8, (s.startHandover e).reg64 (pSVC n) Off.svc_BOOT_LO (Off.svc_BOOT_LO + 4) = imgEntry (s.power.image.take 0x200)) ∧
    (s.startHandover e).bit pBOOT Off.boot_VERIFY_STAT 3 = true
  have hend := s.startHandover_regsIn hmem hchk
  have hturn := State.pairsHanded_regsIn (s.imageLoaded.imageBooted s.power.image)
  have hver : ∀ t : State, RegsIn imageRegs t ((t.imageVerified (imgLoad (s.power.image.take 0x200)) (s.power.image.drop 0x200).length
      (imgEntry (s.power.image.take 0x200))).onPower fun w => { w with firstStage := true }) := fun t =>
    (t.imageVerified_regsIn ..).trans (.of_touches (State.onPower_touches ..) rfl)
  have hboot : ∀ t : State, RegsIn bootRegs ((t.imageVerified (imgLoad (s.power.image.take 0x200)) (s.power.image.drop 0x200).length
      (imgEntry (s.power.image.take 0x200))).onPower fun w => { w with firstStage := true }) (t.imageBooted s.power.image) := fun t =>
    State.bootSet_regsIn ..
  have hbist : ∀ n < 8, (s.imageLoaded.imageBooted s.power.image).pairState n = 1 := by
    intro n hn
    have hreg : (s.imageLoaded.imageBooted s.power.image).reg (pSVC n) Off.svc_STAT = s.reg (pSVC n) Off.svc_STAT :=
      (((hboot _).reg _ _ (by decide) (by rintro ⟨-, h⟩; revert h; decide)).trans
        ((hver _).reg _ _ (by decide) (by rintro ⟨h, -⟩; unfold pSVC pBOOT at h; omega))).trans
        (s.imageLoaded_regsIn.reg _ _ (by decide) (by rintro (h | h); exacts [pSVC_not_log n _ h, by unfold domRegs pSVC pPWR at h; omega]))
    exact (State.fld_congr_reg hreg _ _).trans (hpairs n hn)
  have hstate : ∀ n < 8, (s.startHandover e).pairState n = if n = 0 then 3 else 2 := fun n hn =>
    (State.fld_congr_reg (hend.reg _ _ (by decide) (not_handoverRegs (.inl ⟨n, hn, rfl⟩))) _ _).trans (State.pairsHanded hbist n hn)
  refine ⟨by rw [State.startHandover_eq s hmem hchk]; rfl, hstate 0 (by decide), fun n hn h0 => (hstate n hn).trans (if_neg h0),
    fun n hn => ?_, ?_⟩
  · have hkeep : ∀ o, quietOff o = true → o ≠ Off.svc_STAT → o ≠ Off.svc_CNT →
        (s.startHandover e).reg (pSVC n) o = (s.imageLoaded.imageBooted s.power.image).reg (pSVC n) o := fun o ho h1 h2 =>
      (hend.reg _ _ ho (not_handoverRegs (.inl ⟨n, hn, rfl⟩))).trans (hturn.reg _ _ ho (by
        rintro ⟨k, -, h | ⟨-, h | h⟩⟩
        exacts [by unfold pSVC pSILK at h; omega, h1 h, h2 h]))
    rw [State.reg64_congr (hkeep _ (by decide) (by decide) (by decide)) (hkeep _ (by decide) (by decide) (by decide))]
    exact State.boot_bootSet _ (imgEntry_lt _) hn
  · rw [State.bit_congr_reg ((hend.reg _ _ (by decide) (not_handoverRegs (.inr rfl))).trans (hturn.reg _ _ (by decide) (by
      rintro ⟨k, -, h | ⟨h, -⟩⟩
      exacts [absurd h (by decide), by unfold pSVC pBOOT at h; omega]))),
      State.bit_congr_reg ((hboot s.imageLoaded).reg _ _ (by decide) (by rintro ⟨⟨n, -, h⟩, -⟩; unfold pSVC pBOOT at h; omega)),
      State.bit_congr_reg (State.reg_congr ((State.onPower_touches ..).regs rfl) _ _)]
    exact State.valid_imageVerified ..

end Sys2Proof.Machine
end

section
/-!
SUPPORT. What a wipe of the Coneda keeps, restarts and their causes, the supplies, and the end of start-up (R56, R591 to R594,
R631 to R633, R635).
-/

namespace Sys2Proof.Machine

open Sys2Proof

/-! ## Tables of which only some keys are kept -/

theorem Map.get_filter {α : Type} (d : Nat → α) (p : Nat → Bool) (m : Map α) (k : Nat) :
    Map.get d (m.filter fun e => p e.1) k = if p k then Map.get d m k else d k := by
  induction m with
  | nil => simp [Map.get]
  | cons e m ih =>
    obtain ⟨j, v⟩ := e
    by_cases hj : k = j
    · subst hj
      cases hp : p k
      · rw [List.filter_cons_of_neg (by simp [hp]), ih, hp]
        rfl
      · rw [List.filter_cons_of_pos (by simpa using hp)]
        simp [Map.get]
    · have htail : Map.get d ((j, v) :: m) k = Map.get d m k := if_neg hj
      rw [htail, ← ih]
      cases hp : p j
      · rw [List.filter_cons_of_neg (by simp [hp])]
      · rw [List.filter_cons_of_pos (by simpa using hp)]
        exact if_neg hj

/-! ## The wipe -/

theorem State.byteAt_wiped (s : State) (all sram dram : Bool) (x : Nat) :
    (s.wiped all sram dram).byteAt x = if keptMem sram all dram x then s.byteAt x else 0 := by
  have hmem : (s.wiped all sram dram).mem = s.mem.filter fun e => keptMem sram all dram e.1 :=
    congrArg (List.filter fun e : Host.Cell => keptMem sram all dram e.1) (s.storPower_touches.mem rfl)
  unfold State.byteAt
  rw [hmem]
  exact Map.get_filter ..

theorem keptMem_cocoon {sram silk dram : Bool} {x : Nat} (h : target x = .cocoon) : keptMem sram silk dram x = true := by
  unfold keptMem
  rw [h]

theorem keptMem_dram {sram silk dram : Bool} {x : Nat} (h : target x = .dram) : keptMem sram silk dram x = dram := by
  unfold keptMem
  rw [h]

theorem keptMem_sram {dram : Bool} {x : Nat} (h : target x = .sram) : keptMem true true dram x = true := by
  unfold keptMem
  rw [h]
  exact ite_self _

/-- A register after a wipe that keeps some of them. -/
theorem State.reg_wiped (s : State) (sram dram : Bool) (q o : Nat) :
    (s.wiped true sram dram).reg q o = if keptThrough dram (rg q o) then s.reg q o else resetKey (rg q o) :=
  Map.get_filter ..

/-! ## Restarts of causes 1, 2 and 5 -/

/-- The Coneda restarted with cause `c` before step 2. -/
def State.restarted (s : State) (c : Nat) : State :=
  (((s.wiped true true false).setReg pGLOBAL Off.global_RESET_CAUSE (wd c)).putBit pCLOCKS Off.clocks_OSC_STAT 0 true).stepDone 1

/-- A register that a restart does not write is as the wipe leaves it. -/
theorem State.reg_restarted (s : State) (c : Nat) {q o : Nat} (hglobal : rg q o ≠ rg pGLOBAL Off.global_RESET_CAUSE)
    (hosc : rg q o ≠ rg pCLOCKS Off.clocks_OSC_STAT) (hstart : rg q o ≠ rg pGLOBAL Off.global_START_STAT) :
    (s.restarted c).reg q o = if keptThrough false (rg q o) then s.reg q o else resetKey (rg q o) := by
  rw [← s.reg_wiped true false]
  exact (State.reg_setReg_ne hstart).trans ((State.reg_setReg_ne hosc).trans (State.reg_setReg_ne hglobal))

theorem State.cause_restarted (s : State) {c : Nat} (hc : c < 8) : (s.restarted c).fld pGLOBAL Off.global_RESET_CAUSE 0 3 = c := by
  have hreg : (s.restarted c).reg pGLOBAL Off.global_RESET_CAUSE = wd c :=
    (State.reg_setReg_page (by decide)).trans ((State.reg_setReg_ne (by decide)).trans (State.reg_setReg_same ..))
  rw [State.fld, hreg, wfld_wd _ _ _ (by decide)]
  omega

/-- A fence leaves the power-fail state. -/
theorem State.pfw_fenceAll (s : State) (c b : Nat) (l : List (List Nat)) : (s.fenceAll c b l).dep.pfw = s.dep.pfw := by
  induction l generalizing s c with
  | nil => rfl
  | cons p l ih =>
    unfold State.fenceAll
    extract_lets s1
    have h1 : s1.dep.pfw = s.dep.pfw := by
      unfold s1
      split
      · rfl
      · rw [State.onDep_dep, (State.markFenced_touches s p).dep rfl]
    exact (ih s1 2).trans h1

theorem State.pfw_raise (s : State) (p b : Nat) : (s.raise p b).dep.pfw = s.dep.pfw := by
  unfold State.raise
  extract_lets q rep s1 s2
  have h1 : s1.dep = s.dep :=
    (((State.putBit_touches s q Off.hdr_PG_FAULT b true).mono (K := 68) rfl).step (State.noteHw_touches ..) rfl).dep rfl
  have h2 : s2.dep.pfw = s.dep.pfw := by
    unfold s2
    split
    · rw [State.onDep_dep, (State.putBit_touches ..).dep rfl, h1]
    · rw [h1]
  have hfence : (s2.fence q 1 b).dep.pfw = s2.dep.pfw := by
    unfold State.fence
    split
    · exact State.pfw_fenceAll ..
    · rfl
  split
  · rw [(State.noteHw_touches ..).dep rfl]
  · split
    · exact hfence.trans h2
    · exact h2

theorem State.pfw_holdoverChange (s : State) (was : Bool) : (s.holdoverChange was).dep.pfw = s.dep.pfw := by
  unfold State.holdoverChange
  split
  · rfl
  · rw [(State.produce_touches ..).dep rfl]
    split
    · rfl
    · exact s.pfw_raise ..

theorem State.restart_eq {s : State} (hat : s.power.restartAt ≠ some s.now) {c : Nat} (h3 : c ≠ 3) (h4 : c ≠ 4) :
    s.restart c 2 = (s.restarted c).holdoverChange s.holdover := by
  have hdram : ((c == 3 || c == 4) && !s.power.dramLost) = false := by simp [h3, h4]
  unfold State.restart
  rw [if_neg hat, hdram]
  rfl

/-- What a restart with cause `c` leaves: TIME, the Silk ring's SEQ, Cocoon, the always-on SRAM and the flash stay. -/
structure State.Restarted (s u : State) (c : Nat) : Prop where
  cause : u.fld pGLOBAL Off.global_RESET_CAUSE 0 3 = c
  steps : u.power.steps = 1
  held : u.power.resetHeld = s.power.resetHeld
  flash : u.power.flash = s.power.flash
  pfw : u.dep.pfw = false
  time : u.tb.time = s.tb.time
  seq : u.reg pSILK Off.silk_SEQ = s.reg pSILK Off.silk_SEQ
  domains : ∀ d < 112, u.domOn d = false
  mem : ∀ x, u.byteAt x = if keptMem true true false x then s.byteAt x else 0

/-- Every domain's DOM_STAT word is 0 at reset. -/
theorem domStat_reset {i : Nat} (hi : i < 4) : resetKey (rg (pPWR 0) (Off.pwr0_DOM_STAT0 + 4 * i)) = 0 ∧
    keptThrough false (rg (pPWR 0) (Off.pwr0_DOM_STAT0 + 4 * i)) = false := by
  interval_cases i <;> decide

theorem State.domOn_restarted (s : State) (c : Nat) {d : Nat} (hd : d < 112) : (s.restarted c).domOn d = false := by
  obtain ⟨hzero, hkept⟩ := domStat_reset (i := d / 32) (by omega)
  have hoff := domStat_range (d := d) (by omega)
  have hne : ∀ q o, q ≠ pPWR 0 → o < 4096 → rg (pPWR 0) (Off.pwr0_DOM_STAT0 + 4 * (d / 32)) ≠ rg q o := fun q o hq ho e =>
    hq ((rg_inj hoff.2 ho).1 e).1.symm
  have hreg : (s.restarted c).reg (pPWR 0) (Off.pwr0_DOM_STAT0 + 4 * (d / 32)) = 0 := by
    rw [State.reg_restarted _ _ (hne _ _ (by decide) (by decide)) (hne _ _ (by decide) (by decide)) (hne _ _ (by decide)
        (by decide)), hkept]
    exact hzero
  rw [State.domOn, State.bit, hreg]
  simp [bitAt, wfld]

theorem State.restart_spec {s : State} (hat : s.power.restartAt ≠ some s.now) {c : Nat} (hc : c < 8) (h3 : c ≠ 3) (h4 : c ≠ 4) :
    s.Restarted (s.restart c 2) c := by
  rw [State.restart_eq hat h3 h4]
  have ht := State.holdoverChange_touches (s.restarted c) s.holdover
  have hreg : ∀ q o, quietOff o = true → ((s.restarted c).holdoverChange s.holdover).reg q o = (s.restarted c).reg q o := fun q o ho =>
    ((s.restarted c).holdoverChange_regsIn s.holdover).reg q o ho id
  have hpower := ht.power rfl
  constructor
  case cause => exact (State.fld_congr_reg (hreg _ _ (by decide)) _ _).trans (s.cause_restarted hc)
  case steps => rw [hpower]; rfl
  case held => rw [hpower]; rfl
  case flash => rw [hpower]; rfl
  case pfw => exact State.pfw_holdoverChange ..
  case time => rw [ht.tb rfl]; rfl
  case seq =>
    exact (hreg _ _ (by decide)).trans ((State.reg_restarted _ _ (by decide) (by decide) (by decide)).trans (if_pos (by decide)))
  case domains =>
    exact fun d hd => (State.bit_congr_reg (hreg _ _ (quietOff_block (domStat_range (by omega)))) _).trans (s.domOn_restarted c hd)
  case mem =>
    intro x
    rw [State.byteAt, ht.mem rfl]
    exact s.byteAt_wiped true true false x

theorem State.restartReq_busy {s : State} (h : s.pfwBusy = true) (c : Nat) :
    s.restartReq c = s.onPower fun w => { w with waitCause := some (min c (w.waitCause.getD c)) } := if_pos h

theorem State.restartReq_free {s : State} (h : s.pfwBusy = false) (c : Nat) : s.restartReq c = s.restart c 2 :=
  if_neg (by simp [h])

theorem State.pfwBusy_congr {s t : State} (h : t.dep = s.dep) : t.pfwBusy = s.pfwBusy := by
  unfold State.pfwBusy
  rw [h]

end Sys2Proof.Machine
end

section
/-!
SUPPORT. The eye scans and the transmit equaliser of the Swift lanes (R643, R644).
-/

namespace Sys2Proof.Machine

open Sys2Proof

/-! ## Eye scans -/

/-- A GO on the open page of a lane. -/
theorem eyeScanGo_open {s : State} {m : Master} {n : Nat} (h : s.Open m (pSWIFT n)) {v : Word} (hv : bitAt v 0 = true) :
    exec (.eyeScanGo m n v) s = .next (if s.bit (pSWIFT n) Off.swift_EYE_STAT 0 = true then (s.passed m (pSWIFT n)).stateWrite (pSWIFT n)
      else (s.passed m (pSWIFT n)).setReg (pSWIFT n) Off.swift_EYE_STAT 1) := by
  show execEyeScanGo m n v s = _
  rw [execEyeScanGo, State.regWrite_open h]
  simp [hv]

/-- The registers that the end of a scan writes. -/
def eyeOffs : List Nat := [Off.swift_EYE_STAT, Off.swift_EYE_ERR_LO, Off.swift_EYE_ERR_HI]

theorem State.eyeScanEnd_regsIn (s : State) (n status errs : Nat) : RegsIn (regsOf (pSWIFT n) eyeOffs) s (s.eyeScanEnd n status errs) := by
  have own : ∀ (t : State) o v, o ∈ eyeOffs → RegsIn (regsOf (pSWIFT n) eyeOffs) t (t.setReg (pSWIFT n) o v) := fun t o v ho =>
    .setIn t v ⟨rfl, ho⟩ (by fin_cases ho <;> decide)
  unfold State.eyeScanEnd State.setReg64
  exact ((own s _ _ (by decide)).trans (own _ _ _ (by decide))).trans (own _ _ _ (by decide))

theorem State.eyeStat_eyeScanEnd (s : State) (n status errs : Nat) :
    (s.eyeScanEnd n status errs).reg (pSWIFT n) Off.swift_EYE_STAT = wd (2 + status * 4) := by
  unfold State.eyeScanEnd State.setReg64
  rw [State.reg_setReg_page (by decide), State.reg_setReg_page (by decide), State.reg_setReg_same]

theorem State.eyeErrs_eyeScanEnd (s : State) (n status : Nat) {errs : Nat} (h : errs < 2 ^ 64) :
    (s.eyeScanEnd n status errs).reg64 (pSWIFT n) Off.swift_EYE_ERR_LO Off.swift_EYE_ERR_HI = errs :=
  (State.reg64_setReg64 _ (by decide) errs).trans (Nat.mod_eq_of_lt h)

/-- An abort of a scan that runs. -/
theorem eyeScanAbort_open {s : State} {m : Master} {n : Nat} (h : s.Open m (pSWIFT n)) {v : Word} (hv : bitAt v 1 = true)
    (hb : s.bit (pSWIFT n) Off.swift_EYE_STAT 0 = true) : exec (.eyeScanAbort m n v) s =
      .next ((s.passed m (pSWIFT n)).drawNat.2.eyeScanEnd n 1 ((s.passed m (pSWIFT n)).drawNat.1 % 2 ^ 64)) := by
  show execEyeScanAbort m n v s = _
  rw [execEyeScanAbort, State.regWrite_open h]
  simp [hv, hb]

theorem State.eyeScanAborted_regsIn (s : State) (n errs : Nat) :
    RegsIn (regsOf (pSWIFT n) eyeOffs) s (s.drawNat.2.eyeScanEnd n 1 errs) :=
  (RegsIn.of_touches (State.drawNat_touches s) rfl).trans (State.eyeScanEnd_regsIn ..)

/-- A scan that runs on a live lane ends: with status 2 where the lane is lost. -/
theorem eyeScanDone_running {s : State} {n : Nat} (ha : s.alive (pSWIFT n) = true) (hb : s.bit (pSWIFT n) Off.swift_EYE_STAT 0 = true)
    (errs : Nat) (lost : Bool) : exec (.eyeScanDone n errs lost) s =
      .next (s.eyeScanEnd n (if lost || s.fld (pSWIFT n) Off.swift_LANE_CFG 0 3 == 0 then 2 else 0) errs) := by
  show execEyeScanDone n errs lost s = _
  unfold execEyeScanDone
  exact if_neg (by simp [ha, hb])

/-! ## The transmit equaliser -/

/-- The row of TX_EQ: every field idle-only (*SWIFTn.TX_EQ*). -/
def txEqRow : RegDesc := ⟨0x200, 1, 0, 1, 0, 0xA000400, 0, 0, 0xf001f0f, 0, 0, 0⟩

theorem regDesc_txEq {n : Nat} (h : n < 192) : regDesc (pSWIFT n) Off.swift_TX_EQ = some txEqRow := by
  unfold regDesc regTable
  rw [pageKind_swift h]
  rfl

theorem txEqWrite_open {s : State} {m : Master} {n : Nat} (h : s.Open m (pSWIFT n)) (v : Word) :
    exec (.txEqWrite m n v) s = .next (if 10 < wfld v 0 4 ∨ 16 < wfld v 8 5 then (s.passed m (pSWIFT n)).raise (pSWIFT n) 8
      else (s.passed m (pSWIFT n)).storeFields (pSWIFT n) Off.swift_TX_EQ ((s.passed m (pSWIFT n)).pageIdle (pSWIFT n)) v) := by
  show execTxEqWrite m n v s = _
  rw [execTxEqWrite, State.regWrite_open h]

/-- A lane is idle as its LANE_CFG and its link say. -/
theorem State.pageIdle_swift {n : Nat} (h : n < 192) (s : State) : s.pageIdle (pSWIFT n) = !s.laneRunning n := by
  unfold State.pageIdle
  rw [pageKind_swift h]
  show (!s.laneRunning (pSWIFT n - 0xA0)) = _
  rw [show pSWIFT n - 0xA0 = n by unfold pSWIFT; omega]

end Sys2Proof.Machine
end

section
/-!
SUPPORT. Start-up steps, resets, supplies and the Swift lanes, put together.
-/

namespace Sys2Proof.Machine

open Sys2Proof

/-! ## The run of start-up -/

/-- START_UP up to the next step answers what the step leaves. -/
theorem State.StartOpen.answers_step {s : State} (h : s.StartOpen) {e : StartEnv} {k : Nat} (hk : s.power.steps + 1 = k) (h8 : k ≤ 8)
    (hready : s.stepReady k = true) {P : State → Prop} (hstep : (s.startStep e k).power.steps = k ∧ P (s.startStep e k)) :
    s.Answers (.startUp k e) fun u => u.power.steps = k ∧ P u :=
  ⟨_, exec_startUp_next h hk h8 hready e hstep.1, hstep⟩

theorem State.StartOpen.answers_waits {s : State} (h : s.StartOpen) {k : Nat} (hk : s.power.steps + 1 = k) (hready : s.stepReady k = false)
    (e : StartEnv) : s.Answers (.startUp 8 e) fun u => u = s :=
  ⟨_, exec_startUp_waits h (hk ▸ hready) 8 e, rfl⟩

/-- Where neither slot reads, START_UP halts at step 4. -/
theorem State.StartOpen.answers_halt {s : State} (h : s.StartOpen) (hk : s.power.steps = 3) {e : StartEnv} (hbad : e.badSlots % 4 = 3) :
    s.Answers (.startUp 8 e) fun u => u.power.steps = 3 ∧ u.bit pGLOBAL Off.global_START_STAT 5 = true ∧
      u.fld pGLOBAL Off.global_START_STAT 8 4 = 4 := by
  obtain ⟨hhalt, hstep, hsteps⟩ := s.startImage_halts hbad
  refine ⟨s.startImage e, ?_, hsteps.trans hk, hhalt, hstep⟩
  rw [exec_startUp h, State.startRun_step (k := 4) (by omega) (by decide) (by decide) h.going rfl]
  exact congrArg Host.Outcome.next (State.startRun_stop (.inr (.inl hhalt)) e 7)

/-- Step 4 where slot A is no candidate is open here. -/
theorem State.StartOpen.answers_image {s : State} (h : s.StartOpen) (hk : s.power.steps = 3) (hrec : s.copyPayload 0x5800 = none)
    (e : StartEnv) : s.Answers (.startUp 4 e) fun u => s.slotReason e.badSlots false = 0 → u.power.steps = 4 ∧
      u.power.image = (s.slotImage false).1 ++ (s.slotImage false).2 ∧ u.bit pBOOT Off.boot_BOOT_STAT 0 = false ∧
      u.bit pBOOT Off.boot_BOOT_STAT 1 = false := by
  by_cases hA : s.slotReason e.badSlots false = 0
  · have hstep := State.startStep_four hrec hA
    exact ⟨_, exec_startUp_next h (by omega) (by decide) rfl e hstep.1, fun _ => hstep⟩
  · exact ⟨_, exec_startUp h 4 e, fun h0 => absurd h0 hA⟩

/-! ## The end of start-up -/

theorem exec_startUpFull_waits {s : State} (h : s.power.steps ≠ 8) : exec .startUpFull s = .next s := by
  show execStartUpFull s = _
  exact if_pos (by simp [h])

theorem exec_startUpFull_ends {s : State} (h : s.power.steps = 8) (hlap : s.power.sweepLap = true)
    (hbist : ∀ p < 272, s.fld (pENG p) Off.eng_BIST_STAT 0 2 ≠ 3) : exec .startUpFull s =
      .next (((s.stepDone 9).putBit pGLOBAL Off.global_START_STAT 4 true).setReg pGLOBAL Off.global_T_FULL
        (wd ((s.now - s.power.goodAt) / 250000))) := by
  have hnone : ((List.range 272).any fun p => s.fld (pENG p) Off.eng_BIST_STAT 0 2 == 3) = false :=
    List.any_eq_false.2 fun p hp => by simpa using hbist p (List.mem_range.1 hp)
  show execStartUpFull s = _
  unfold execStartUpFull
  extract_lets bist fixed s1
  exact if_neg (by simp [bist, hnone, h, hlap])

theorem exec_startUpFull_spec {s : State} (h : s.power.steps = 8) (hlap : s.power.sweepLap = true)
    (hbist : ∀ p < 272, s.fld (pENG p) Off.eng_BIST_STAT 0 2 ≠ 3) : s.Answers .startUpFull fun u =>
      u.power.steps = 9 ∧ u.bit pGLOBAL Off.global_START_STAT 4 = true ∧
        u.reg pGLOBAL Off.global_T_FULL = wd ((s.now - s.power.goodAt) / 250000) := by
  refine ⟨_, exec_startUpFull_ends h hlap hbist, rfl, ?_, State.reg_setReg_same ..⟩
  rw [State.bit_congr_reg (State.reg_setReg_page (by decide))]
  exact State.bit_putBit ..

/-! ## Supplies -/

theorem exec_pwrGoodRise_spec {s : State} (h : s.power.pwrGood = false) (pfw ram : Bool) (x : Nat) :
    s.Answers (.pwrGoodRise pfw ram) fun u => u.regs = [] ∧ u.tb.time = 0 ∧ u.power.pwrGood = true ∧ u.power.goodAt = s.now ∧
      u.power.pfwHold = pfw ∧ u.power.steps = 0 ∧ (target x = .cocoon → u.byteAt x = s.byteAt x) ∧ (target x = .dram → u.byteAt x = 0) := by
  refine ⟨_, if_neg (by simp [h]), rfl, rfl, rfl, rfl, rfl, rfl, fun hx => ?_, fun hx => ?_⟩
  · exact (s.byteAt_wiped false ram false x).trans (if_pos (keptMem_cocoon hx))
  · exact (s.byteAt_wiped false ram false x).trans (if_neg (by simp [keptMem_dram hx]))

theorem exec_pwrGoodFall_spec (s : State) (x : Nat) : s.Answers .pwrGoodFall fun u => u.regs = [] ∧ u.power.pwrGood = false ∧
    u.power.steps = 0 ∧ (target x = .cocoon → u.byteAt x = s.byteAt x) :=
  ⟨_, rfl, rfl, rfl, rfl, fun hx => (s.byteAt_wiped false true false x).trans (if_pos (keptMem_cocoon hx))⟩

/-- The main rails are not in window 50 ms after they were switched on. -/
theorem exec_mainRailTimeout_halts {s : State} {t : Nat} (hat : s.power.mainAt = some t) (hk : s.power.steps = 2) (hgo : s.halted = false)
    (hlate : t + 12500000 ≤ s.now) (hsup : Nat.land (s.fld pSAFETY Off.safety_SUP_STAT 0 16) 0xFC3 ≠ 0) :
    exec .mainRailTimeout s = .next (s.halt 3) := by
  show execMainRailTimeout s = _
  unfold execMainRailTimeout
  rw [hat]
  exact if_neg (by simpa [hk, hgo] using And.intro hlate hsup)

/-! ## Resets -/

theorem exec_resetCmd {s : State} {m : Master} (h : s.Open m pGLOBAL) (v : Word) : exec (.resetCmd m v) s =
    .next (if isKey v && bitAt v 0 then (s.passed m pGLOBAL).restartReq 2 else s.passed m pGLOBAL) := by
  show execResetCmd m v s = _
  rw [execResetCmd, State.regWrite_open h]

theorem exec_resetCmd_key {s : State} {m : Master} (h : s.Open m pGLOBAL) {v : Word} (hkey : wfld v 16 16 = 0x5CA7)
    (h0 : bitAt v 0 = true) :
    exec (.resetCmd m v) s = .next ((s.passed m pGLOBAL).restartReq 2) := by
  rw [exec_resetCmd h, if_pos (by simp [isKey, hkey, h0])]

theorem exec_resetCmd_ignored {s : State} {m : Master} (h : s.Open m pGLOBAL) {v : Word} (hv : wfld v 16 16 ≠ 0x5CA7 ∨ bitAt v 0 = false) :
    exec (.resetCmd m v) s = .next (s.passed m pGLOBAL) := by
  rw [exec_resetCmd h, if_neg]
  rcases hv with hv | hv <;> simp [isKey, hv]

/-- RESET_N low restarts a supplied Coneda. -/
theorem exec_resetN_low {s : State} (hup : s.power.resetHeld = false) (hgood : s.power.pwrGood = true) : exec (.resetN false) s =
    .next ((s.onPower fun w => { w with resetHeld := true }).restartReq 1) := by
  show execResetN false s = _
  unfold execResetN
  rw [if_neg (by decide), if_neg (by simp [hup]), hgood]
  rfl

theorem exec_pfwNRelease_held {s : State} (h : s.power.pfwHold = true) : exec .pfwNRelease s =
    .next (s.onPower fun w => { w with pfwHold := false }) := if_pos h

theorem exec_pfwNRelease_failed {s : State} (h : s.power.pfwHold = false) (hpfw : s.dep.pfw = true) (hgood : s.power.pwrGood = true) :
    exec .pfwNRelease s = .next (s.restartReq 5) := by
  show execPfwNRelease s = _
  unfold execPfwNRelease
  rw [if_neg (by simp [h]), if_pos (by simp [hpfw, hgood])]

end Sys2Proof.Machine
end

section
/-!
SUPPORT. O52, from the lemmas on the steps of start-up, on resets and on the Swift lanes.
-/

namespace Sys2Proof.Machine

open Sys2Proof

/-- The passed gate leaves what a restart keeps and looks at. -/
theorem State.passed_byteAt (s : State) (m : Master) (p x : Nat) : (s.passed m p).byteAt x = s.byteAt x := by
  unfold State.byteAt
  rw [State.passed_mem]

/-- What a restart keeps of the state that the gate of an open page leaves. -/
theorem State.Restarted.of_passed {s u : State} {m : Master} {p c : Nat} (h : (s.passed m p).Restarted u c) : s.Restarted u c where
  cause := h.cause
  steps := h.steps
  held := h.held.trans (congrArg Power.resetHeld (State.passed_power ..))
  flash := h.flash.trans (congrArg Power.flash (State.passed_power ..))
  pfw := h.pfw
  time := h.time.trans (congrArg Timebase.time (State.passed_tb ..))
  seq := h.seq.trans (State.passed_reg ..)
  domains := h.domains
  mem := fun x => (h.mem x).trans (by rw [State.passed_byteAt])

/-- RESET_CMD restarts with cause 2, unless the power-fail snapshot runs. -/
theorem resetCmd_restarts {s : State} {m : Master} (ho : s.Open m pGLOBAL) {v : Word} (hkey : wfld v 16 16 = 0x5CA7) (h0 : bitAt v 0 = true)
    (hat : s.power.restartAt ≠ some s.now) (hb : s.pfwBusy = false) : s.Answers (.resetCmd m v) fun u => s.Restarted u 2 := by
  have hat' : (s.passed m pGLOBAL).power.restartAt ≠ some (s.passed m pGLOBAL).now := by rwa [State.passed_power, State.passed_now]
  refine ⟨_, exec_resetCmd_key ho hkey h0, ?_⟩
  rw [State.restartReq_free ((State.pfwBusy_congr (State.passed_dep ..)).trans hb)]
  exact (State.restart_spec hat' (by decide) (by decide) (by decide)).of_passed

/-- RESET_CMD waits for the power-fail snapshot. -/
theorem resetCmd_waits {s : State} {m : Master} (ho : s.Open m pGLOBAL) {v : Word} (hkey : wfld v 16 16 = 0x5CA7) (h0 : bitAt v 0 = true)
    (hb : s.pfwBusy = true) : s.Answers (.resetCmd m v) fun u => u.regs = s.regs ∧
      u.power.waitCause = some (min 2 (s.power.waitCause.getD 2)) := by
  refine ⟨_, exec_resetCmd_key ho hkey h0, ?_⟩
  rw [State.restartReq_busy ((State.pfwBusy_congr (State.passed_dep ..)).trans hb)]
  refine ⟨State.passed_regs .., ?_⟩
  rw [State.onPower_power, State.passed_power]

/-- RESET_N low restarts with cause 1 and holds start-up. -/
theorem resetN_restarts {s : State} (hup : s.power.resetHeld = false) (hgood : s.power.pwrGood = true)
    (hat : s.power.restartAt ≠ some s.now) (hb : s.pfwBusy = false) : s.Answers (.resetN false) fun u =>
      (s.onPower fun w => { w with resetHeld := true }).Restarted u 1 := by
  refine ⟨_, exec_resetN_low hup hgood, ?_⟩
  rw [State.restartReq_free ((State.pfwBusy_congr (s := s) (State.onPower_dep ..)).trans hb)]
  exact State.restart_spec (s := s.onPower fun w => { w with resetHeld := true }) hat (by decide) (by decide) (by decide)

/-- A power failure that passes restarts with cause 5. -/
theorem pfwNRelease_restarts {s : State} (h : s.power.pfwHold = false) (hpfw : s.dep.pfw = true) (hgood : s.power.pwrGood = true)
    (hat : s.power.restartAt ≠ some s.now) (hb : s.pfwBusy = false) : s.Answers .pfwNRelease fun u => s.Restarted u 5 := by
  refine ⟨_, exec_pfwNRelease_failed h hpfw hgood, ?_⟩
  rw [State.restartReq_free hb]
  exact State.restart_spec hat (by decide) (by decide) (by decide)

/-- TX_EQ of an idle lane takes values in range. -/
theorem txEqWrite_idle {s : State} {m : Master} {n : Nat} (hn : n < 192) (ho : s.Open m (pSWIFT n)) {v : Word} (h0 : wfld v 0 4 ≤ 10)
    (h8 : wfld v 8 5 ≤ 16) (hidle : s.pageIdle (pSWIFT n) = true) : s.Answers (.txEqWrite m n v) fun u =>
      u.fld (pSWIFT n) Off.swift_TX_EQ 0 4 = wfld v 0 4 ∧ u.fld (pSWIFT n) Off.swift_TX_EQ 8 5 = wfld v 8 5 ∧
        u.fld (pSWIFT n) Off.swift_TX_EQ 24 4 = wfld v 24 4 ∧ s.KeepsRegs u (pSWIFT n) [Off.swift_TX_EQ] := by
  have hidle' : (s.passed m (pSWIFT n)).pageIdle (pSWIFT n) = true := by
    rw [State.pageIdle_swift hn, State.passed_laneRunning, ← State.pageIdle_swift hn, hidle]
  refine ⟨_, txEqWrite_open ho v, ?_⟩
  rw [if_neg (by omega), hidle']
  have hfld : ∀ lo k, (∀ i, lo ≤ i → i < lo + k → bitAt (wd txEqRow.rwi) i = true) →
      ((s.passed m (pSWIFT n)).storeFields (pSWIFT n) Off.swift_TX_EQ true v).fld (pSWIFT n) Off.swift_TX_EQ lo k = wfld v lo k :=
    fun lo k hbits => State.fld_storeFields (regDesc_txEq hn) ⟨rfl, rfl, rfl⟩ rfl true v fun i h1 h2 => .inr ⟨rfl, hbits i h1 h2⟩
  exact ⟨hfld 0 4 (by decide), hfld 8 5 (by decide), hfld 24 4 (by decide), (State.keepsRegs_storeFields _ _ (by decide) _ _).of_passed⟩

/-- Settles O52: start-up by the lemma on its next step, resets by what a restart keeps, and the Swift lanes through the open gate. -/
theorem startUpAndResets : Obligations.StartUpAndResets := by
  unfold Obligations.StartUpAndResets
  refine ⟨?steps, ?full, ?supply, ?reset, ?rails, ?lanes⟩
  case steps =>
    intro e s hw
    refine ⟨fun hoff => ⟨s, exec_startUp_off hw hoff 8 e, rfl⟩, fun hg hf hst hgo => ?_⟩
    have h : s.StartOpen := ⟨hw, hg, hf, hst, hgo⟩
    refine ⟨?one, ?held, ?two, ?unready, ?three, ?halt, fun hk hrec => h.answers_image hk hrec e, ?five, ?six, ?seven, ?eight⟩
    case one => exact fun hk => h.answers_step (by omega) (by decide) rfl (s.startStep_one e)
    case held =>
      intro hk hheld
      exact h.answers_waits (k := 2) (by omega) (by simp [State.stepReady, hheld]) e
    case two =>
      intro hk hup
      exact h.answers_step (by omega) (by decide) (by simp [State.stepReady, hup]) (s.startStep_two e)
    case unready => exact fun hk hready => h.answers_waits (by omega) hready e
    case three => exact fun hk hready hrec => h.answers_step (by omega) (by decide) hready (State.startStep_three hrec e)
    case halt => exact fun hk hbad => h.answers_halt hk hbad
    case five => exact fun hk => h.answers_step (by omega) (by decide) rfl (s.startStep_five e)
    case six => exact fun hk => h.answers_step (by omega) (by decide) rfl (s.startStep_six e)
    case seven => exact fun hk htrain => h.answers_step (by omega) (by decide) rfl (State.startStep_seven htrain e)
    case eight => exact fun hk hmem hchk hpairs => h.answers_step (by omega) (by decide) rfl (State.startStep_eight hmem hchk hpairs)
  case full =>
    exact fun s => ⟨fun h => ⟨s, exec_startUpFull_waits h, rfl⟩, fun h hlap hbist => exec_startUpFull_spec h hlap hbist⟩
  case supply =>
    exact fun pfw ram x s _ => ⟨fun h => ⟨s, if_pos h, rfl⟩, fun h => exec_pwrGoodRise_spec h pfw ram x, exec_pwrGoodFall_spec s x⟩
  case reset =>
    intro m v x s _ hat
    refine ⟨fun ho hv => ⟨_, exec_resetCmd_ignored ho hv, State.passed_regs .., State.passed_power ..⟩,
      fun ho hkey h0 => ⟨resetCmd_waits ho hkey h0, fun hb => ?free⟩, ⟨_, rfl, rfl⟩, fun hup hgood hb => ?low,
      fun h => ⟨_, exec_pfwNRelease_held h, rfl⟩, fun h hpfw hgood hb => ?pfw⟩
    case free =>
      obtain ⟨u, hu, hr⟩ := resetCmd_restarts ho hkey h0 hat hb
      exact ⟨u, hu, hr.cause, hr.steps, hr.time, hr.seq, hr.domains, hr.flash,
        fun hx => (hr.mem x).trans (if_pos (hx.elim keptMem_cocoon keptMem_sram)),
        fun hx => (hr.mem x).trans (if_neg (by simp [keptMem_dram hx]))⟩
    case low =>
      obtain ⟨u, hu, hr⟩ := resetN_restarts hup hgood hat hb
      exact ⟨u, hu, hr.held, hr.cause, hr.steps, hr.time⟩
    case pfw =>
      obtain ⟨u, hu, hr⟩ := pfwNRelease_restarts h hpfw hgood hat hb
      exact ⟨u, hu, hr.cause, hr.steps, hr.pfw⟩
  case rails =>
    intro t s
    refine ⟨fun h => ⟨s, ?_, rfl⟩, fun hat hk hgo hlate hsup => ?_⟩
    · show execMainRailTimeout s = _
      rw [execMainRailTimeout, h]
    · obtain ⟨hhalt, hstep, -⟩ := s.halt_spec (k := 3) (by decide)
      exact ⟨_, exec_mainRailTimeout_halts hat hk hgo hlate hsup, hhalt, hstep⟩
  case lanes =>
    intro m n errs v s hn
    refine ⟨fun ho => ⟨fun hv hb => ?busyGo, fun hv hb => ?go, fun hv hb => ?abort, fun hv => ?range,
        fun h0 h8 hidle => txEqWrite_idle hn ho h0 h8 hidle⟩,
      fun ha hb herrs => ⟨fun hproto => ?done, ?lost⟩⟩
    case busyGo =>
      refine ⟨_, eyeScanGo_open ho hv, ?_⟩
      rw [if_pos hb]
      exact ⟨State.raise_faulted _ (faultPage_swift hn) (by decide), (State.KeepsRegs.of_raise _ _ _ _ _).of_passed⟩
    case go =>
      refine ⟨_, eyeScanGo_open ho hv, ?_⟩
      rw [if_neg (by simp [hb])]
      exact ⟨State.reg_setReg_same .., (State.KeepsRegs.of_setReg _ (by decide) _).of_passed⟩
    case abort =>
      exact ⟨_, eyeScanAbort_open ho hv hb, State.eyeStat_eyeScanEnd .., (State.eyeScanAborted_regsIn ..).keepsRegs.of_passed⟩
    case range =>
      refine ⟨_, txEqWrite_open ho v, ?_⟩
      rw [if_pos hv]
      exact ⟨State.raise_faulted _ (faultPage_swift hn) (by decide), (State.KeepsRegs.of_raise _ _ _ _ _).of_passed⟩
    case done =>
      refine ⟨_, eyeScanDone_running ha hb errs false, ?_, State.eyeErrs_eyeScanEnd _ _ _ herrs⟩
      rw [State.eyeStat_eyeScanEnd, if_neg (by simp [hproto])]
      rfl
    case lost =>
      refine ⟨_, eyeScanDone_running ha hb errs true, ?_, State.eyeErrs_eyeScanEnd _ _ _ herrs⟩
      rw [State.eyeStat_eyeScanEnd]
      rfl

end Sys2Proof.Machine
end

section
/-!
SUPPORT. The contexts of the raw pipes: what an update of one leaves of the others, the status words of their commands, and the way
OFF (R144 to R146, R204, R205).
-/

namespace Sys2Proof.Machine

open Sys2Proof

/-! ## Contexts -/

@[simp] theorem State.pctx_modPctx (s : State) (k : Nat) (f : PipeCtx → PipeCtx) : (s.modPctx k f).pctx k = f (s.pctx k) :=
  Map.get_put_same ..

theorem State.pctx_modPctx_ne {s : State} {k j : Nat} {f : PipeCtx → PipeCtx} (h : j ≠ k) : (s.modPctx k f).pctx j = s.pctx j :=
  Map.get_put_other _ _ _ h

@[simp] theorem State.pctx_modPipe (s : State) (n : Nat) (f : Pipe → Pipe) (k : Nat) : (s.modPipe n f).pctx k = s.pctx k := rfl

theorem State.pctx_congr {s t : State} (h : t.pipes = s.pipes) (k : Nat) : t.pctx k = s.pctx k := by
  unfold State.pctx; rw [h]

@[simp] theorem State.pctx_push (s : State) (p q : Nat) (d : Words) (k : Nat) : (s.push p q d).pctx k = s.pctx k :=
  State.pctx_congr ((State.push_touches ..).pipes rfl) k

/-- A fold of steps that leave a context alone leaves it alone. -/
theorem State.pctx_foldl {β : Type} {f : State → β → State} {k : Nat} (hf : ∀ t x, (f t x).pctx k = t.pctx k) (l : List β) (s : State) :
    (l.foldl f s).pctx k = s.pctx k := by
  induction l generalizing s with
  | nil => rfl
  | cons x l ih => exact (ih _).trans (hf s x)

@[simp] theorem State.pctx_raise (s : State) (p b k : Nat) : (s.raise p b).pctx k = s.pctx k :=
  State.pctx_congr ((State.raise_touches ..).pipes rfl) k

@[simp] theorem State.passed_pctx (s : State) (m : Master) (p k : Nat) : (s.passed m p).pctx k = s.pctx k :=
  State.pctx_congr (State.passed_pipes ..) k

/-- Without stripe mode a context is a set of its own (R158). -/
theorem State.stripeSet_alone {s : State} {k : Nat} (h : cfgStripe (s.pctx k).cfg = 0) : s.stripeSet k = [k] :=
  if_neg fun e : cfgStripe (s.pctx k).cfg = 1 => by omega

theorem State.mem_stripeSet (s : State) (k : Nat) : k ∈ s.stripeSet k := by
  unfold State.stripeSet
  split
  · exact List.mem_map.2 ⟨0, by simp, by simp⟩
  · exact List.mem_singleton_self k

/-! ## What a command reads behind the gate -/

@[simp] theorem State.passed_ctxSel (s : State) (m : Master) (p n : Nat) : (s.passed m p).ctxSel n = s.ctxSel n :=
  State.passed_fld ..

@[simp] theorem State.passed_brSel (s : State) (m : Master) (p n b : Nat) : (s.passed m p).brSel n b = s.brSel n b :=
  congrArg (ctxKey n) (State.passed_fld ..)

@[simp] theorem State.passed_regs32 (s : State) (m : Master) (p q o n : Nat) : (s.passed m p).regs32 q o n = s.regs32 q o n := by
  simp [State.regs32]

@[simp] theorem State.passed_reg64 (s : State) (m : Master) (p q lo hi : Nat) : (s.passed m p).reg64 q lo hi = s.reg64 q lo hi := by
  simp [State.reg64]

/-- What a main-fabric read brings does not depend on what the model keeps of a page. -/
@[simp] theorem State.busRead_fst_modPage (s : State) (p : Nat) (f : PageRt → PageRt) (a n : Nat) :
    ((s.modPage p f).busRead a n).1 = (s.busRead a n).1 := by
  unfold State.busRead
  cases target a <;> simp only [apply_ite Prod.fst] <;> rfl

theorem State.qView_modPage (s : State) (p : Nat) (f : PageRt → PageRt) (q : Nat) : (s.modPage p f).qView q = s.qView q := by
  have hcached : (s.modPage p f).qCached q = s.qCached q := rfl
  have hbase : (s.modPage p f).qsBase = s.qsBase := rfl
  unfold State.qView
  rw [hcached, hbase, State.busRead_fst_modPage]

@[simp] theorem State.passed_qValid (s : State) (m : Master) (p q : Nat) : (s.passed m p).qValid q = s.qValid q := by
  have hbase : ∀ f, (s.modPage p f).qsBase = s.qsBase := fun _ => rfl
  unfold State.passed State.qValid
  split
  · rw [State.qView_modPage, hbase]
  · rfl

@[simp] theorem State.passed_stripeOk (s : State) (m : Master) (p n c : Nat) (w : Words) :
    (s.passed m p).stripeOk n c w = s.stripeOk n c w := by
  simp only [State.stripeOk, State.passed_pctx]

/-- The reasons of a STORE look at contexts and queues, which the gate does not change. -/
@[simp] theorem State.passed_ctxReason (s : State) (m : Master) (p n c : Nat) (w : Words) :
    (s.passed m p).ctxReason n c w = s.ctxReason n c w := by
  simp only [State.ctxReason, State.passed_stripeOk, State.passed_pctx, State.passed_qValid]

@[simp] theorem State.passed_brReason (s : State) (m : Master) (p : Nat) (cfg d : Words) :
    (s.passed m p).brReason cfg d = s.brReason cfg d := by
  simp only [State.brReason, State.passed_qValid]

@[simp] theorem State.passed_seqBound (s : State) (m : Master) (p k : Nat) : (s.passed m p).seqBound k = s.seqBound k := by
  unfold State.passed; split <;> rfl

theorem State.wordAt_regs32 (s : State) (p o : Nat) {n i : Nat} (h : i < n) : wordAt (s.regs32 p o n) i = s.reg p (o + 4 * i) := by
  simp [wordAt, State.regs32, List.getD, h]

theorem wordAt_fit {n i : Nat} (h : i < n) (w : Words) : wordAt (fit n 0 w) i = wordAt w i := by
  unfold wordAt fit
  rcases lt_or_ge i w.length with hi | hi
  · rw [List.getD_append _ _ _ _ (by simp [h, hi])]
    simp [List.getD, List.getElem?_take_of_lt h]
  · rw [List.getD_append_right _ _ _ _ (by simp [hi]), List.getD_eq_default _ _ hi]
    simp [List.getD, List.getElem?_replicate]
    split <;> rfl

/-- A run of registers reads the words that were set. -/
theorem State.reg_setRegs32 (s : State) (p o : Nat) (ws : Words) {i : Nat} (h : i < ws.length) :
    (s.setRegs32 p o ws).reg p (o + 4 * i) = wordAt ws i := by
  have before : ∀ (ws : Words) (t : State) (a k : Nat), k < a → (t.setRegs32 p a ws).reg p k = t.reg p k := by
    intro ws
    induction ws with
    | nil => exact fun _ _ _ _ => rfl
    | cons w ws ih => exact fun t a k hk => (ih _ _ _ (by omega)).trans (State.reg_setReg_page (by omega))
  induction ws generalizing s o i with
  | nil => cases h
  | cons w ws ih =>
    cases i with
    | zero => exact (before ws _ _ _ (by omega)).trans (State.reg_setReg_same ..)
    | succ i =>
      have := ih (s.setReg p o w) (o + 4) (Nat.lt_of_succ_lt_succ h)
      rwa [show o + 4 + 4 * i = o + 4 * (i + 1) by omega] at this

/-! ## Status words -/

theorem faultPage_pipe {n o : Nat} (hn : n < 8) (ho : o < 16) : faultPage (pPIPE n o) = pPIPE n o := by
  have hk : pageKind (pPIPE n o) ≠ .qm1 ∧ pageKind (pPIPE n o) ≠ .qm2 ∧ pageKind (pPIPE n o) ≠ .qm3 := by
    unfold pageKind pPIPE
    rw [if_neg (by omega), if_neg (by omega), if_neg (by omega), if_neg (by omega), if_neg (by omega), if_neg (by omega),
      if_pos (by omega)]
    rw [show (0x180 + 16 * n + o) % 16 = o by omega]
    interval_cases o <;> decide
  obtain ⟨h1, h2, h3⟩ := hk
  unfold faultPage
  split
  · contradiction
  · contradiction
  · contradiction
  · rfl

@[simp] theorem State.ctxStat_pipes (s : State) (n r : Nat) : (s.ctxStat n r).pipes = s.pipes :=
  (State.ctxStat_touches ..).pipes rfl

@[simp] theorem State.ctxStat_pctx (s : State) (n r k : Nat) : (s.ctxStat n r).pctx k = s.pctx k :=
  State.pctx_congr (State.ctxStat_pipes ..) k

@[simp] theorem State.stateWrite_pipes (s : State) (p : Nat) : (s.stateWrite p).pipes = s.pipes :=
  (State.stateWrite_touches ..).pipes rfl

theorem State.stateWrite_faulted (s : State) {n o : Nat} (hn : n < 8) (ho : o < 16) : (s.stateWrite (pPIPE n o)).Faulted (pPIPE n o) 0 :=
  State.raise_faulted s (faultPage_pipe hn ho) (by decide)

/-- CTX_CMD_STAT is the only register that the status of a context command writes (R145). -/
theorem State.ctxStat_regsIn (s : State) (n r : Nat) : RegsIn (regsOf (pPIPE n 0) [Off.pipeCtl_CTX_CMD_STAT]) s (s.ctxStat n r) := by
  have own : ∀ (t : State) v, RegsIn (regsOf (pPIPE n 0) [Off.pipeCtl_CTX_CMD_STAT]) t (t.setReg (pPIPE n 0) Off.pipeCtl_CTX_CMD_STAT v) :=
    fun t v => .setIn t v ⟨rfl, by simp⟩
  have busy : RegsIn (regsOf (pPIPE n 0) [Off.pipeCtl_CTX_CMD_STAT]) s (s.cmdStart (pPIPE n 0) Off.pipeCtl_CTX_CMD_STAT 8) :=
    .of_touches (State.cmdStart_touches ..) rfl
  exact .ite (fun _ => busy.trans (own ..)) fun _ => (busy.trans (own ..)).trans (.raise _ _ (by decide))

/-- A rejected context command sets CTX_INVALID (R144). -/
theorem State.ctxStat_faulted (s : State) {n r : Nat} (hn : n < 8) (hr : r ≠ 0) : (s.ctxStat n r).Faulted (pPIPE n 0) 8 := by
  unfold State.ctxStat
  rw [if_neg hr]
  exact State.raise_faulted _ (faultPage_pipe hn (by decide)) (by decide)

@[simp] theorem State.brStat_pipes (s : State) (n b r : Nat) : (s.brStat n b r).pipes = s.pipes :=
  (State.brStat_touches ..).pipes rfl

@[simp] theorem State.brStat_pctx (s : State) (n b r k : Nat) : (s.brStat n b r).pctx k = s.pctx k :=
  State.pctx_congr (State.brStat_pipes ..) k

/-- BR_CMD_STAT is the only register that the status of an accepted branch command writes (R205). -/
theorem State.reg_brStat_done (s : State) (n b : Nat) {o : Nat} (h : o ≠ Off.pipeBranch_BR_CMD_STAT) :
    (s.brStat n b 0).reg (pPIPE n (9 + b)) o = s.reg (pPIPE n (9 + b)) o :=
  State.reg_setReg_page h

/-- A rejected branch descriptor sets BR_INVALID (R205). -/
theorem State.brStat_faulted (s : State) {n b r : Nat} (hn : n < 8) (hb : b < 4) (hr : r ≠ 0) :
    (s.brStat n b r).Faulted (pPIPE n (9 + b)) 10 := by
  unfold State.brStat
  dsimp only
  rw [if_neg hr]
  exact State.raise_faulted _ (faultPage_pipe hn (by omega)) (by decide)

/-! ## The way OFF -/

/-- Context `k` is OFF, with no frame in work and nothing at its inline input (R146). -/
def State.CtxIsOff (s : State) (k : Nat) : Prop := (s.pctx k).state = 0 ∧ (s.pctx k).frame = none ∧ (s.pctx k).inq = []

theorem State.ctxOff_isOff (s : State) (k : Nat) : (s.ctxOff k).CtxIsOff k := by
  unfold State.CtxIsOff State.ctxOff
  simp

theorem State.bandsBack_pctx_ne (s : State) {k j : Nat} (h : j ≠ k) : (s.bandsBack k).pctx j = s.pctx j := by
  unfold State.bandsBack
  refine State.pctx_foldl (fun t b => ?_) ..
  split
  · rfl
  · rw [State.pctx_modPctx_ne h, State.pctx_push]

theorem State.ctxOff_pctx_ne (s : State) {k j : Nat} (h : j ≠ k) : (s.ctxOff k).pctx j = s.pctx j :=
  (State.pctx_modPctx_ne h).trans (s.bandsBack_pctx_ne h)

theorem State.runEnd_pctx_ne (s : State) (n : Nat) {k j : Nat} (h : j ≠ k) : (s.runEnd n k).pctx j = s.pctx j :=
  (State.pctx_modPctx_ne h).trans ((State.pctx_modPctx_ne h).trans (State.pctx_modPipe ..))

theorem State.dropRun_pctx_ne (s : State) {k j : Nat} (h : j ≠ k) : (s.dropRun k).pctx j = s.pctx j := by
  unfold State.dropRun
  dsimp only
  rw [State.pctx_modPipe]
  split
  · exact s.runEnd_pctx_ne _ h
  · rfl

/-- STOP_NOW takes every context of a stripe set OFF, the one it names among them (R146, R158). -/
theorem State.stopNow_isOff (s : State) (k : Nat) : (s.stopNow k).CtxIsOff k := by
  unfold State.stopNow
  extract_lets s1
  refine foldl_each (Q := fun j t => t.CtxIsOff j) (fun t j _ => (t.dropRun j).ctxOff_isOff j) (fun t j _ i _ hi => ?_) s1 k
    (s1.mem_stripeSet k)
  by_cases h : i = j
  · subst h; exact State.ctxOff_isOff ..
  · unfold State.CtxIsOff at hi ⊢
    rwa [State.ctxOff_pctx_ne _ h, State.dropRun_pctx_ne _ h]

end Sys2Proof.Machine
end

section
/-!
SUPPORT. What each command of a raw pipe's contexts and branches answers on an open page (R144 to R146, R204, R205, R219, R223), and the
statement about them.
-/

namespace Sys2Proof.Machine

open Sys2Proof

section Context

variable {m : Master} {n k : Nat} {s : State} (ho : s.Open m (pPIPE n 0)) (hk : k = ctxKey n (s.ctxSel n))

include ho hk

/-! ## Context commands -/

theorem exec_ctxLoad_open : exec (.ctxLoad m n) s =
    .next (((s.passed m (pPIPE n 0)).setRegs32 (pPIPE n 0) Off.pipeCtl_CTX_D0 (fit 16 0 (s.pctx k).cfg)).ctxStat n 0) := by
  show execCtxLoad m n s = _
  rw [execCtxLoad, State.regWrite_open ho, State.passed_ctxSel, State.passed_pctx, hk]

theorem exec_ctxStore_open : exec (.ctxStore m n) s =
    .next (if (s.pctx k).state ≠ 0 then (s.passed m (pPIPE n 0)).stateWrite (pPIPE n 0)
      else if s.ctxReason n (s.ctxSel n) (s.regs32 (pPIPE n 0) Off.pipeCtl_CTX_D0 16) ≠ 0 then
        (s.passed m (pPIPE n 0)).ctxStat n (s.ctxReason n (s.ctxSel n) (s.regs32 (pPIPE n 0) Off.pipeCtl_CTX_D0 16))
      else ((s.passed m (pPIPE n 0)).modPctx k fun c =>
        { c with cfg := s.regs32 (pPIPE n 0) Off.pipeCtl_CTX_D0 16, ring := [], force := none, decided := none }).ctxStat n 0) := by
  show execCtxStore m n s = _
  rw [execCtxStore, State.regWrite_open ho]
  dsimp only
  rw [State.passed_ctxSel, State.passed_pctx, State.passed_regs32, State.passed_ctxReason, ← hk]

theorem exec_start_active (hst : (s.pctx k).state ≠ 0) :
    exec (.start m n) s = .next ((s.passed m (pPIPE n 0)).stateWrite (pPIPE n 0)) := by
  show execStart m n s = _
  rw [execStart, State.regWrite_open ho]
  dsimp only
  rw [State.passed_ctxSel, State.passed_pctx, ← hk, if_pos hst]

theorem exec_start_member (hst : (s.pctx k).state = 0) (hstripe : cfgStripe (s.pctx k).cfg = 2) :
    exec (.start m n) s = .next ((s.passed m (pPIPE n 0)).ctxStat n 3) := by
  show execStart m n s = _
  rw [execStart, State.regWrite_open ho]
  dsimp only
  rw [State.passed_ctxSel, State.passed_pctx, ← hk, if_neg (not_not.2 hst), if_pos hstripe]

/-- START of a context without stripe mode, companions and band rings arms it (R145). -/
theorem exec_start_alone (hst : (s.pctx k).state = 0) (hstripe : cfgStripe (s.pctx k).cfg = 0)
    (hcomp : ∀ i < 3, cfgComp (s.pctx k).cfg (i + 1) = none)
    (hband : ∀ b < 4, brEn ((s.pctx k).brDesc b) = true → brBand ((s.pctx k).brDesc b) = false) :
    exec (.start m n) s = .next (((s.passed m (pPIPE n 0)).modPctx k fun c => { c with state := 1, stopping := false }).ctxStat n 0) := by
  have hrings : (s.pctx k).branches.filter (fun b => brBand ((s.pctx k).brDesc b)) = [] := by
    refine List.filter_eq_nil_iff.2 fun b hb => ?_
    obtain ⟨hlt, hen⟩ := List.mem_filter.1 hb
    simp [hband b (List.mem_range.1 hlt) hen]
  have hset : (s.passed m (pPIPE n 0)).stripeSet k = [k] := State.stripeSet_alone (by rwa [State.passed_pctx])
  show execStart m n s = _
  rw [execStart, State.regWrite_open ho]
  dsimp only
  rw [State.passed_ctxSel, State.passed_pctx, ← hk, if_neg (not_not.2 hst), if_neg (by omega), if_neg, hrings]
  · simp only [State.takeBands, hset, State.armAll, State.passed_pctx, hst, if_true]
  · simp only [List.any_eq_true, List.mem_range, not_exists, not_and]
    intro i hi
    simp [hcomp i hi]

theorem exec_ctxStop_working (hst : (s.pctx k).state = 2) :
    exec (.ctxStop m n) s = .next (((s.passed m (pPIPE n 0)).modPctx k fun c => { c with stopping := true }).ctxStat n 0) := by
  show execCtxStop m n s = _
  rw [execCtxStop, State.regWrite_open ho]
  dsimp only
  rw [State.passed_ctxSel, ← hk, State.passed_pctx]
  simp only [hst]

theorem exec_ctxStop_armed (hst : (s.pctx k).state = 1) :
    exec (.ctxStop m n) s = .next (((s.passed m (pPIPE n 0)).stopNow k).ctxStat n 0) := by
  show execCtxStop m n s = _
  rw [execCtxStop, State.regWrite_open ho]
  dsimp only
  rw [State.passed_ctxSel, ← hk, State.passed_pctx]
  simp only [hst]

theorem exec_ctxStopNow_active (hst : (s.pctx k).state ≠ 0) :
    exec (.ctxStopNow m n) s = .next (((s.passed m (pPIPE n 0)).stopNow k).ctxStat n 0) := by
  show execCtxStopNow m n s = _
  rw [execCtxStopNow, State.regWrite_open ho]
  dsimp only
  rw [State.passed_ctxSel, ← hk, State.passed_pctx, if_neg hst]

/-! ## Parameter-set pushes -/

/-- A push that R223 lets in joins the ring, resolved at once where no sequencer serves the context (R219). -/
theorem exec_psetPush_accepted {v : Word} (hv : bitAt v 0 = true) (hlen : (s.pctx k).ring.length < 4)
    (hlater : ∀ e ∈ (s.pctx k).ring, serialLt e.req (s.reg (pPIPE n 0) Off.pipeCtl_PSET_REQ_FRAME).toNat = true)
    (hstripe : cfgStripe (s.pctx k).cfg ≠ 2)
    (hptr : s.reg64 (pPIPE n 0) Off.pipeCtl_PSET_PTR_LO Off.pipeCtl_PSET_PTR_HI % 4096 = 0) (hseq : s.seqBound k = false) :
    exec (.psetPush m n v) s = .next ((s.passed m (pPIPE n 0)).modRing k (· ++
      [{ ptr := s.reg64 (pPIPE n 0) Off.pipeCtl_PSET_PTR_LO Off.pipeCtl_PSET_PTR_HI,
         req := (s.reg (pPIPE n 0) Off.pipeCtl_PSET_REQ_FRAME).toNat, state := 3,
         applied := (s.reg (pPIPE n 0) Off.pipeCtl_PSET_REQ_FRAME).toNat, pushed := s.now }])) := by
  show execPsetPush m n v s = _
  rw [execPsetPush, State.regWrite_open ho]
  dsimp only
  rw [State.passed_ctxSel, ← hk, State.passed_pctx, State.passed_reg64, State.passed_reg, State.passed_seqBound, hv, hseq,
    if_neg (by omega : ¬ 4 ≤ _), if_neg hstripe, if_neg (not_not.2 hptr), State.passed_now]
  cases hlast : (s.pctx k).ring.getLast? with
  | none => simp
  | some e => simp [hlater e (List.mem_of_getLast? hlast)]

/-- A push into a full ring, or of an unaligned address, is rejected with the first reason that stands (R223). -/
theorem exec_psetPush_rejected {v : Word} (hv : bitAt v 0 = true)
    (h : 4 ≤ (s.pctx k).ring.length ∨ s.reg64 (pPIPE n 0) Off.pipeCtl_PSET_PTR_LO Off.pipeCtl_PSET_PTR_HI % 4096 ≠ 0) :
    ∃ reason, (4 ≤ (s.pctx k).ring.length → reason = 1) ∧ exec (.psetPush m n v) s =
      .next (((s.passed m (pPIPE n 0)).modPctx k fun x => { x with reject := reason }).raise (pPIPE n 0) 17) := by
  apply Exists.intro
  refine ⟨?first, ?run⟩
  case run =>
    show execPsetPush m n v s = _
    rw [execPsetPush, State.regWrite_open ho]
    dsimp only
    rw [State.passed_ctxSel, ← hk, State.passed_pctx, State.passed_reg64, State.passed_reg, hv, Bool.not_true,
      if_neg Bool.false_ne_true]
    refine congrArg Host.Outcome.next (if_pos ?_)
    split_ifs with h1 h2 h3 h4
    · decide
    · decide
    · decide
    · decide
    · exact absurd h (not_or.2 ⟨h1, h4⟩)
  case first => exact fun hfull => if_pos hfull

end Context

/-! ## Branch commands -/

section Branch

variable {m : Master} {n b k : Nat} {s : State} {d : Words} (ho : s.Open m (pPIPE n (9 + b))) (hk : k = s.brSel n b)

include ho hk

theorem exec_brLoad_open : exec (.brLoad m n b) s = .next (((s.passed m (pPIPE n (9 + b))).setRegs32 (pPIPE n (9 + b))
    Off.pipeBranch_BR_D0 (fit 8 0 ((s.pctx k).brDesc b))).brStat n b 0) := by
  show execBrLoad m n b s = _
  rw [execBrLoad, State.regWrite_open ho, State.passed_brSel, State.passed_pctx, hk]

theorem exec_brStore_open (hd : d = s.regs32 (pPIPE n (9 + b)) Off.pipeBranch_BR_D0 8) : exec (.brStore m n b) s =
    .next (if (s.pctx k).state ≠ 0 then (s.passed m (pPIPE n (9 + b))).stateWrite (pPIPE n (9 + b))
      else if s.brReason (s.pctx k).cfg d ≠ 0 then (s.passed m (pPIPE n (9 + b))).brStat n b (s.brReason (s.pctx k).cfg d)
      else ((s.passed m (pPIPE n (9 + b))).modPctx k fun c => { c with br := Map.put (fun _ => []) c.br b d }).brStat n b 0) := by
  show execBrStore m n b s = _
  rw [execBrStore, State.regWrite_open ho]
  dsimp only
  rw [State.passed_brSel, ← hk, State.passed_pctx, State.passed_regs32, State.passed_brReason, ← hd]

end Branch

end Sys2Proof.Machine
end

section
/-!
SUPPORT. O30, from the lemmas on the context and branch commands of the raw pipes and on PSET_PUSH.
-/

namespace Sys2Proof.Machine

open Sys2Proof

/-- A width outside R144 is the first reason of a rejected STORE. -/
theorem State.ctxReason_of_width (s : State) (n c : Nat) {w : Words}
    (h : cfgWidth w < 2 ∨ 32768 < cfgWidth w ∨ cfgWidth w % 2 = 1) : s.ctxReason n c w = 1 := by
  unfold State.ctxReason
  exact if_pos (by simp only [decide_eq_true h, Bool.true_or])

/-- A branch without output lines is rejected, if not for its band mode then for its size (R205). -/
theorem State.brReason_of_noLines (s : State) (cfg : Words) {d : Words} (h : brOutH d = 0) : s.brReason cfg d ≠ 0 := by
  unfold State.brReason
  dsimp only
  split
  · decide
  · rw [if_pos (.inl h)]; decide

/-- What LOAD shows of a context (R143). -/
theorem State.ctxLoad_shows (s : State) (n : Nat) (w : Words) {i : Nat} (hi : i < 16) :
    ((s.setRegs32 (pPIPE n 0) Off.pipeCtl_CTX_D0 (fit 16 0 w)).ctxStat n 0).reg (pPIPE n 0) (Off.pipeCtl_CTX_D0 + 4 * i) = wordAt w i := by
  have hlen : i < (fit 16 0 w).length := by simp [fit]; omega
  rw [(State.ctxStat_regsIn _ n 0).reg _ _ (by interval_cases i <;> decide)
    (by rintro ⟨-, h⟩; rw [List.mem_singleton] at h; simp only [Off.pipeCtl_CTX_D0, Off.pipeCtl_CTX_CMD_STAT] at h; omega),
    State.reg_setRegs32 _ _ _ _ hlen, wordAt_fit hi]

/-- What LOAD shows of a branch descriptor (R204). -/
theorem State.brLoad_shows (s : State) (n b : Nat) (w : Words) {i : Nat} (hi : i < 8) :
    ((s.setRegs32 (pPIPE n (9 + b)) Off.pipeBranch_BR_D0 (fit 8 0 w)).brStat n b 0).reg (pPIPE n (9 + b)) (Off.pipeBranch_BR_D0 + 4 * i) =
      wordAt w i := by
  have hlen : i < (fit 8 0 w).length := by simp [fit]; omega
  rw [State.reg_brStat_done _ _ _ (by simp only [Off.pipeBranch_BR_D0, Off.pipeBranch_BR_CMD_STAT]; omega),
    State.reg_setRegs32 _ _ _ _ hlen, wordAt_fit hi]

/-- Settles O30: each command's answer on an open page, and what its status word, a fault or the way OFF leaves of it. -/
theorem pipeCommands : Obligations.PipeCommands := by
  unfold Obligations.PipeCommands
  refine ⟨?contexts, ?branches, ?pushes⟩
  case contexts =>
    intro m n k s ho hn hk
    refine ⟨?load, fun hst => ?storeActive, fun hst hr => ?store, fun hst hw => ?storeWidth, fun hst => ?startActive,
      fun hst h2 => ?startMember, fun hst h0 hcomp hband => ?start, fun hst => ?stopWorking, fun hst _ => ?stopArmed,
      fun hst _ => ?stopNow⟩
    case load =>
      exact ⟨_, exec_ctxLoad_open ho hk, fun i hi => State.ctxLoad_shows _ n _ hi,
        (State.ctxStat_pipes ..).trans (((State.setRegs32_touches ..).pipes rfl).trans (State.passed_pipes ..))⟩
    case storeActive =>
      refine ⟨_, exec_ctxStore_open ho hk, ?_⟩
      rw [if_pos hst]
      exact ⟨State.stateWrite_faulted _ hn (by decide), by simp⟩
    case store =>
      refine ⟨_, exec_ctxStore_open ho hk, ?_⟩
      rw [if_neg (not_not.2 hst), if_neg (not_not.2 hr)]
      refine ⟨by simp, by simp, by simpa using hst, fun j hj => ?_⟩
      rw [State.ctxStat_pctx, State.pctx_modPctx_ne hj, State.passed_pctx]
    case storeWidth =>
      have hr : s.ctxReason n (s.ctxSel n) (s.regs32 (pPIPE n 0) Off.pipeCtl_CTX_D0 16) = 1 :=
        State.ctxReason_of_width s n _ (by unfold cfgWidth; rwa [State.wordAt_regs32 _ _ _ (by decide)])
      refine ⟨_, exec_ctxStore_open ho hk, ?_⟩
      rw [if_neg (not_not.2 hst), hr, if_pos (by decide)]
      exact ⟨State.ctxStat_faulted _ hn (by decide), by simp⟩
    case startActive =>
      exact ⟨_, exec_start_active ho hk hst, State.stateWrite_faulted _ hn (by decide), by simp⟩
    case startMember =>
      exact ⟨_, exec_start_member ho hk hst h2, State.ctxStat_faulted _ hn (by decide), by simp⟩
    case start =>
      refine ⟨_, exec_start_alone ho hk hst h0 hcomp hband, by simp, ?_⟩
      exact ((RegsIn.of_touches (State.modPctx_touches ..) rfl).trans (State.ctxStat_regsIn ..)).keepsRegs.of_passed
    case stopWorking => exact ⟨_, exec_ctxStop_working ho hk hst, by simp⟩
    case stopArmed =>
      obtain ⟨hoff, hframe, -⟩ := (s.passed m (pPIPE n 0)).stopNow_isOff k
      exact ⟨_, exec_ctxStop_armed ho hk hst, by simp [hoff, hframe]⟩
    case stopNow =>
      obtain ⟨hoff, hframe, hinq⟩ := (s.passed m (pPIPE n 0)).stopNow_isOff k
      exact ⟨_, exec_ctxStopNow_active ho hk hst, by simp [hoff, hframe, hinq]⟩
  case branches =>
    intro m n b k s d ho hn hb hk hd
    refine ⟨?load, fun hst => ?active, fun hst hr => ?store, fun hst h0 => ?noLines⟩
    case load =>
      exact ⟨_, exec_brLoad_open ho hk, fun i hi => State.brLoad_shows _ n b _ hi,
        (State.brStat_pipes ..).trans (((State.setRegs32_touches ..).pipes rfl).trans (State.passed_pipes ..))⟩
    case active =>
      refine ⟨_, exec_brStore_open ho hk hd, ?_⟩
      rw [if_pos hst]
      exact ⟨State.stateWrite_faulted _ hn (by omega), by simp⟩
    case store =>
      refine ⟨_, exec_brStore_open ho hk hd, ?_⟩
      rw [if_neg (not_not.2 hst), if_neg (not_not.2 hr)]
      beta_reduce
      rw [State.brStat_pctx, State.pctx_modPctx, State.passed_pctx]
      exact ⟨Map.get_put_same .., fun j hj => Map.get_put_other _ _ _ hj⟩
    case noLines =>
      have hr := s.brReason_of_noLines (s.pctx k).cfg h0
      refine ⟨_, exec_brStore_open ho hk hd, ?_⟩
      rw [if_neg (not_not.2 hst), if_pos hr]
      exact ⟨State.brStat_faulted _ hn hb hr, by simp⟩
  case pushes =>
    intro m n k v s a r ho hn hk hv ha hr
    subst ha hr
    have hpage : faultPage (pPIPE n 0) = pPIPE n 0 := faultPage_pipe hn (by decide)
    refine ⟨fun hlen hlater h2 hptr hseq => ?accepted, fun hfull => ?full, fun hptr => ?unaligned⟩
    case accepted =>
      refine ⟨_, exec_psetPush_accepted ho hk hv hlen hlater h2 hptr hseq, ?_, ?_⟩
      · unfold State.modRing; simp
      · exact ((State.modPctx_touches ..).regs rfl).trans (State.passed_regs ..)
    case full =>
      obtain ⟨reason, hone, hexec⟩ := exec_psetPush_rejected ho hk hv (.inl hfull)
      exact ⟨_, hexec, by simp, by simpa using hone hfull, State.raise_faulted _ hpage (by decide)⟩
    case unaligned =>
      obtain ⟨reason, -, hexec⟩ := exec_psetPush_rejected ho hk hv (.inr hptr)
      exact ⟨_, hexec, by simp, State.raise_faulted _ hpage (by decide)⟩

end Sys2Proof.Machine
end

section
/-!
REFUTED: frames of the raw pipes (O31), by a state that the model runs to the other answer.
-/

namespace Sys2Proof.Machine

open Sys2Proof

/-- The reset state with the domain of raw pipe 0 on, only its statistics page fenced, and in context 0 a frame whose lines have passed
and whose input has ended. -/
def statsPageFenced : State :=
  ((State.reset.setReg (pPWR 0) (Off.pwr0_DOM_STAT0 + 4) 0xFFFFFFFF).putBit (pPIPE 0 13) Off.hdr_PG_STAT 1 true).modPctx (ctxKey 0 0)
    fun c => { c with state := 2, frame := some { num := 0, ended := true } }

theorem execStatsBlockDone_statsPageFenced :
    ∃ u, execStatsBlockDone 0 0 statsPageFenced = .next u ∧ (u.pctx (ctxKey 0 0)).frame.map (·.stats) = some false := ⟨_, rfl, by decide⟩

/-- Refutes O31: STATS_BLOCK_DONE marks the frame's statistics as written only while page +13 runs, and the statement asks for page +0
alone. A fence takes every page of a pipe at once (R178), so no run of commands reaches such a state, but the statement is about every
state. -/
theorem not_pipeFrames : ¬ Obligations.PipeFrames := by
  unfold Obligations.PipeFrames
  rintro ⟨-, -, hends, -⟩
  obtain ⟨-, -, hstats, -⟩ := hends 0 0 (ctxKey 0 0) statsPageFenced { num := 0, ended := true } (by decide) (by decide) rfl (by decide)
    rfl rfl
  obtain ⟨u, hu, hdone⟩ := hstats rfl rfl (by decide)
  obtain ⟨w, hw, hopen⟩ := execStatsBlockDone_statsPageFenced
  obtain rfl : u = w := Host.Outcome.next.inj (hu.symm.trans hw)
  exact absurd (hdone.symm.trans hopen) (by decide)

end Sys2Proof.Machine
end
